-- ==== Sys2Proof/Word.lean ====
section
/-!
DEFINITION. The word types of the module and the plain shapes every file uses: a byte, a setup-register word, a
64-bit lane word, a register field and the row of a setup register.
-/

namespace Sys2Proof

/-- A byte of memory. -/
abbrev Byte := BitVec 8

/-- A 32-bit word: a setup register, a word of a descriptor or of a record. -/
abbrev Word := BitVec 32

/-- A 64-bit lane register. -/
abbrev DWord := BitVec 64

/-- A field of a setup register: the register's offset from 0x00_4000_0000, the field's lowest bit and its width. -/
structure Fld where
  off : Nat
  lo : Nat
  w : Nat
deriving DecidableEq, Repr

/-- Who may write a register's fields: any master, the lane complex alone (R73), or the MP alone (R564). -/
inductive WriteBy where
  | any
  | lane
  | mp
deriving DecidableEq, Repr

/-- One register, or one array of registers, of a block: element (i, j) lies at base + s1 * i + s2 * j for i < n1 and
j < n2. The masks say which bits are RW, RWL, W1C and W1S (R11); every other bit is RO or WO. -/
structure RegRow where
  base : Nat
  n1 : Nat
  s1 : Nat
  n2 : Nat
  s2 : Nat
  rw : Word
  rwl : Word
  w1c : Word
  w1s : Word
  rst : Word
  who : WriteBy
deriving DecidableEq, Repr

/-- True when the row's registers include the one at this offset. -/
def RegRow.covers (r : RegRow) (off : Nat) : Bool :=
  decide (r.base ≤ off) && decide ((off - r.base) / r.s1 < r.n1) && decide ((off - r.base) % r.s1 / r.s2 < r.n2) &&
    decide ((off - r.base) % r.s1 % r.s2 = 0)

/-! ## Names of the module's parts -/

/-- The three lanes (R93, R124). -/
inductive LaneId where
  | a
  | b
  | c
deriving DecidableEq, Repr

/-- The lane's number in LANE_STAT and IST_STAT: 0 A, 1 B, 2 C. -/
def LaneId.num : LaneId → Nat
  | .a => 0
  | .b => 1
  | .c => 2

/-- The four harts of the lane complex. -/
abbrev HartId := Fin 4

/-- A core that executes instructions: a hart of the lane complex, or the MP (R93, R97). -/
inductive CoreId where
  | lane (h : HartId)
  | mp
deriving DecidableEq, Repr

/-- A partition number (R221). -/
abbrev PartId := BitVec 8

/-- A ring number (R195). -/
abbrev RingId := BitVec 15

/-- An engine code 0x00 to 0x18 (Table 8-2). -/
abbrev EngineId := Fin 25

/-- An island number: 0 to 15 DI, 16 to 23 DIO, 24 to 55 AI, 56 and 57 safety. -/
abbrev IslandId := Fin 58

/-- Privilege modes of a hart (Table 4-1). -/
inductive Priv where
  | user
  | machine
deriving DecidableEq, Repr

/-- The two logic feeds (R37, R65). -/
inductive Feed where
  | feedA
  | feedB
deriving DecidableEq, Repr

/-- The rails whose faults RAIL_ID names (Table 3-14). -/
inductive Rail where
  | vfab
  | vlane
  | vio18
  | vio33
  | vddq
  | vpp
  | viso
deriving DecidableEq, Repr

/-- RAIL_ID of a rail (Table 3-14). -/
def Rail.id : Rail → Nat
  | .vfab => 1
  | .vlane => 2
  | .vio18 => 3
  | .vio33 => 4
  | .vddq => 5
  | .vpp => 6
  | .viso => 7

/-- Reset causes (Table 3-3). -/
inductive ResetCause where
  | por
  | vlogFail
  | borLp
  | rail
  | thermal
  | mpWdt
  | swLane
  | swMp
  | jtag
  | saveBad
deriving DecidableEq, Repr

/-- The code of a reset cause (Table 3-3). -/
def ResetCause.code : ResetCause → Nat
  | .por => 0
  | .vlogFail => 1
  | .borLp => 2
  | .rail => 3
  | .thermal => 4
  | .mpWdt => 5
  | .swLane => 6
  | .swMp => 7
  | .jtag => 8
  | .saveBad => 9

/-- The straps as the hearth domain samples them (R58, Table 2-13). -/
structure Straps where
  slotId : BitVec 4
  slotPar : Bool
  prefer : Bool
deriving DecidableEq, Repr

/-- Who makes a request: a hart with the partition of its DZPART, the MP, an engine for a ring's partition, or the
image loader of the SYS block (R221, R566). -/
inductive Requester where
  | lane (hart : HartId) (part : PartId)
  | mp
  | engine (e : EngineId) (part : PartId)
  | loader
deriving DecidableEq, Repr

/-- Atomic memory operations of the A extension. -/
inductive AmoOp where
  | swap
  | add
  | xor
  | and
  | or
  | min
  | max
  | minu
  | maxu
deriving DecidableEq, Repr

/-- How a CSR instruction combines the old value with its operand. -/
inductive CsrOp where
  | rw
  | rs
  | rc
deriving DecidableEq, Repr

/-- The kind of a lane request (Table 5-1). -/
inductive ReqKind where
  | load
  | store
  | fetch
  | amo (op : AmoOp)
  | lr
  | sc
deriving DecidableEq, Repr

/-- One lane request: the compared fields of Table 5-1 but for the offer clock. `data` is the little-endian store data of up to
64 bytes, and bit n of `mask` says that its byte n is written; both are 0 for loads and fetches. -/
structure LaneReq where
  kind : ReqKind
  addr : BitVec 40
  size : Nat
  data : BitVec 512
  mask : BitVec 64
  hart : HartId
  priv : Priv
  part : PartId
deriving DecidableEq, Repr

/-- What one lane offers to a vote: its request (none when it has not offered its nth request), the offer clock less
the lane's stagger (R100), and whether it reports a local fault (R99). -/
structure LaneOffer where
  req : Option LaneReq
  clock : Nat
  localFault : Bool
deriving DecidableEq, Repr

/-- The offers of lanes A, B and C. -/
structure Offers where
  a : LaneOffer
  b : LaneOffer
  c : LaneOffer
deriving DecidableEq, Repr

/-- What one lane offers to the signature vote of a Cord: a 256-bit signature and whether it reports a local fault (R126). [DESIGN CHOICE, safe: notes/assumptions/98.md] -/
structure SigOffer where
  sig : BitVec 256
  localFault : Bool
deriving DecidableEq, Repr

end Sys2Proof
end

