-- ==== Sys2Proof/Machine/StateCore.lean ====
section
/-!
DEFINITION. The state of the lane complex and of the machinery around it: power and reset, lanes and harts, the
interrupt controller, the Cord engine, the Flue, rings, events and locks (chapters 01 to 09 of the spec). Plain data only.
Setup registers are not here: they have their one home in the register file of State.
-/

namespace Sys2Proof
namespace Machine

/-! ## Power, reset and phase -/

/-- The phase state machine (R29, Table 1-11). `recovery` is Tinder ROM recovery, in which no Setup phase is entered (R92). -/
inductive Phase where
  | reset
  | boot
  | recovery
  | setup
  | locking
  | operate
deriving DecidableEq, Repr

/-- What a module held in reset waits for (Table 3-3a). -/
inductive Hold where
  | none
  | feed
  | cool
  | unpowered
deriving DecidableEq, Repr

/-- Power states (R74, Table 3-6) with the two stages of an Ember entry: waiting for the Flue to empty after the fourth
qualified WFI (R76), and past the decision point on the way to E2 or E3 (R79). -/
inductive PowerState where
  | run
  | entering
  | e1
  | quiesce (toE3 : Bool)
  | e2
  | e3
deriving DecidableEq, Repr

/-- Hearth domain and power (chapters 02 and 03). -/
structure Power where
  /-- Power state of the module. -/
  state : PowerState
  /-- What holds the module in reset. -/
  hold : Hold
  /-- OT_WARN is armed (R68). -/
  otArmed : Bool
  /-- The 50 µs overload timer of low-power mode runs (R81). -/
  lpTimer : Bool
  /-- Level to which the divider and VLANE have moved (R71). -/
  level : BitVec 2
  /-- Level of the change in progress (R71, R72). -/
  target : BitVec 2
  /-- LANE_SRC = 1 has been written and the switch has not happened yet (R86). -/
  srcPending : Bool
  /-- The lanes run on the lane PLL (false: fast RC oscillator). -/
  onPll : Bool
  /-- WAKE_SRC has been recorded since the last decision point (R84). -/
  wakeTaken : Bool
  /-- The RTC, 48 bits at 32.768 kHz (R87). -/
  rtc : BitVec 48
  /-- Fraction of the RTC's present count, in 1/500,000,000 of a second times 32,768. -/
  rtcFrac : Nat
  /-- The Ember save area holds a state written at entry to E3 (R79). -/
  saved : Bool
  /-- FAULT relay energised (R43). -/
  relay : Bool
  /-- SAFE_N driven high (R42). -/
  safeN : Bool
  /-- RTC count at which the lamp test ends (R62). -/
  lampTestEnd : Nat
  /-- PWR_RTC_HI as latched by the last read of PWR_RTC_LO. -/
  rtcHi : BitVec 16
  /-- TAP instruction register, and what the last data-register scan shifted out (R54). -/
  tapIr : BitVec 5
  tapOut : BitVec 64
  /-- One-time-programmable fuses: key digests, revocation bits, minimum SVN, image signature required (R90, R565). [DESIGN CHOICE, unsafe: notes/assumptions/9.md] -/
  fuseKeys : List (BitVec 256)
  fuseRevoked : BitVec 4
  fuseSvn : BitVec 32
  fuseImgSig : Bool
  /-- LANE_ENTRY of the running image (R92). -/
  laneEntry : BitVec 32
  /-- RAISE_SVN and SVN of the running image (R89, R92). -/
  bootRaise : Bool
  bootSvn : Nat
deriving DecidableEq, Repr

/-! ## Harts -/

/-- What a hart does at its next step. -/
inductive HartWait where
  /-- Runs. -/
  | run
  /-- Waits in WFI or DZC.WFI with qualifier 0. -/
  | wfi
  /-- Waits in the Ember-qualified WFI (R76), with pc on it; from the start of an entry pc is on the next instruction. -/
  | wfiEmber
  /-- Waits in DZC.CFENCE (R121). -/
  | cfence
  /-- Waits in DZC.CORD for the seal; the operand is rd (R119). -/
  | cord (rd : BitVec 5)
  /-- Stalled on the SYS_LOCK store until the lock checks end (R30). -/
  | lock
  /-- Stalled on a store held by the Flue (R178), with pc on the store. -/
  | held
  /-- Stalled on an access held by a full log, by a forced Cord of a non-posted access, or by an undrained window
  (R145, R151, R155, R187), with pc on the access. -/
  | access
  /-- Stalled on a rack-bus access under way (R366). -/
  | rack
deriving DecidableEq, Repr

/-- The architectural state of one hart; the copies in the usable lanes are equal (R93). -/
structure Hart where
  /-- The program counter (R96). -/
  pc : DWord
  /-- x1 to x31 (absent: 0). -/
  x : List (Nat × DWord)
  /-- f0 to f31 (absent: 0). -/
  f : List (Nat × DWord)
  /-- fcsr (R94). -/
  fcsr : BitVec 8
  /-- Privilege mode (R95). -/
  priv : Priv
  /-- mstatus: MIE, MPIE, MPP, MPRV, FS (R95). -/
  mie : Bool
  mpie : Bool
  mpp : Priv
  mprv : Bool
  fs : BitVec 2
  /-- mie register: bits 3, 7 and 11. -/
  mieReg : DWord
  /-- mip.MTIP as delivered to the lanes (R106). -/
  mtip : Bool
  /-- mtvec, mepc, mcause, mtval, mscratch (R95). -/
  mtvec : DWord
  mepc : DWord
  mcause : DWord
  mtval : DWord
  mscratch : DWord
  /-- mcycle, minstret, mcounteren, mcountinhibit (R95). -/
  mcycle : DWord
  minstret : DWord
  mcounteren : BitVec 3
  mcountinhibit : BitVec 3
  /-- PMP configuration bytes and addresses (absent: 0). -/
  pmpcfg : List (Nat × Byte)
  pmpaddr : List (Nat × DWord)
  /-- LPSTART, LPEND, LPCOUNT and the mode that owns the loop (R107 to R117). -/
  lpstart : DWord
  lpend : DWord
  lpCount : Word
  lpMode : Priv
  /-- DZPSEL, DZTCMP, DZPART and the UCORD bit of DZCCTL (chapter 04). -/
  dzpsel : BitVec 26
  dztcmp : DWord
  dzpart : PartId
  ucord : Bool
  /-- Instructions retired since the release, by which SRC records count (R102, R153). [DEDUCED, unsafe: notes/assumptions/87.md] -/
  insts : DWord
  /-- What the hart does at its next step. -/
  wait : HartWait
deriving DecidableEq, Repr

/-- The four harts (R93). -/
structure Harts where
  h0 : Hart
  h1 : Hart
  h2 : Hart
  h3 : Hart
deriving DecidableEq, Repr

/-- PLIC state (R104, R105); the three replicas are equal. Identities are 1 to 512. -/
structure Plic where
  /-- Priority of each identity (absent: 0). -/
  prio : List (Nat × BitVec 3)
  /-- Pending identities (absent: false). -/
  pend : List (Nat × Bool)
  /-- Enables; key 1024 * context + identity. -/
  enab : List (Nat × Bool)
  /-- Thresholds of the four contexts. -/
  thresh : List (Nat × BitVec 3)
  /-- Claimed and not completed. -/
  claimed : List (Nat × Bool)
  /-- A merged request behind a claimed one. -/
  merged : List (Nat × Bool)
deriving DecidableEq, Repr

/-! ## Lanes and voter -/

/-- Lane states (Table 5-5). -/
inductive LaneSt where
  | healthy
  | fenced
  | ready
  | failed
deriving DecidableEq, Repr

/-! ## Cord engine -/

/-- One undo-log entry (R149): a 64-byte line and its old content, with the partition charged. -/
structure UndoEntry where
  line : Nat
  old : List Byte
  part : PartId
deriving DecidableEq, Repr

/-- Input-log records (Table 6-5). -/
inductive LogRec where
  | vread (hart : HartId) (size : Nat) (addr : Nat) (value : DWord) (fault : Option Nat)
  /-- A non-posted write; `fault` is the address of the cycle that failed (R372). -/
  | npw (hart : HartId) (addr : Nat) (fault : Option Nat)
  | time (hart : HartId) (csr : Nat) (value : DWord)
  /-- Source n (0 to 511) as `src = n`, the timer of hart h as `src = 512 + h`; counts from the Cord. -/
  | src (src : Nat) (level : Bool) (counts : List Nat)
  | order (later : HartId) (laterIdx : Nat) (earlier : HartId) (earlierIdx : Int)
deriving DecidableEq, Repr

/-- Units of a record (Table 6-5). -/
def LogRec.units : LogRec → Nat
  | .src .. => 2
  | _ => 1

/-- The end of a lane access that its hart has not retired yet: the value or the fault with its address, and the input-log
record it takes (R153, R178, R372). -/
structure Ready where
  value : DWord
  fault : Option (Nat × Nat)
  logged : Option LogRec
deriving DecidableEq, Repr

/-- The debug module (Table 4-1, R54), with the debug CSRs of the four harts. -/
structure Dbg where
  /-- dmcontrol.dmactive and the hart it selects. -/
  active : Bool
  sel : HartId
  /-- Harts asked to halt that stand in the middle of an instruction; harts in Debug Mode, harts that run one step, harts that
  have acknowledged a resume. -/
  asked : List Nat
  halted : List Nat
  stepping : List Nat
  resumed : List Nat
  /-- dcsr and dpc by hart (absent: as at reset). -/
  dcsr : List (Nat × Word)
  dpc : List (Nat × DWord)
  /-- data0 to data3 (absent: 0), and abstractcs.cmderr. -/
  data : List (Nat × Word)
  cmderr : BitVec 3
  /-- The last answer of the DMI. -/
  dmi : BitVec 41
deriving DecidableEq, Repr

/-- Lane states and the safe-state flag have their home in LANE_STAT; this is the rest. -/
structure Lanes where
  /-- TB_RAW of each voter fencing, newest first (R132). -/
  fencings : List (LaneId × Nat)
  /-- The harts are released from reset (false while the lane complex is in reset or off). -/
  on : Bool
  /-- A cold resume is in progress (Table 5-6). -/
  resuming : Bool
  /-- Response to the last voted request: data, or the mcause of its fault. -/
  respData : BitVec 512
  respFault : Option Nat
  /-- Ended accesses by hart. -/
  ready : List (Nat × Ready)
  /-- LR reservations: the 64-byte granule each hart holds one on (Table 4-1). No Cord holds them (R103). -/
  resv : List (Nat × Nat)
  /-- Instruction words in hand, by hart: fetched, and stalled since on their own access (R145, R178). [DEDUCED, unsafe: notes/assumptions/17.md] -/
  fetched : List (Nat × Word)
  /-- The debug module. -/
  dbg : Dbg
deriving DecidableEq, Repr

/-- A sealed Cord record: every hart and the PLIC (R103). -/
structure CordRec where
  num : BitVec 64
  harts : Harts
  plic : Plic
deriving DecidableEq, Repr

/-- Last accesses to a Plain line in the interval (R154). -/
structure LineAcc where
  line : Nat
  hart : HartId
  idx : Nat
  write : Bool
deriving DecidableEq, Repr

structure Cord where
  /-- The sealed Cord record, none before Cord 0. -/
  sealedRec : Option CordRec
  /-- Triggers of the Cord requested and not yet sealed, bit n for code n (Table 6-1). -/
  causes : BitVec 10
  /-- Triggers held during re-execution (R160). -/
  heldTrig : BitVec 10
  /-- TB_RAW at the request being served. -/
  reqRaw : Nat
  /-- The undo log of the open epoch, oldest first (R149). -/
  undo : List UndoEntry
  /-- Records taken in the open epoch, oldest first. -/
  log : List LogRec
  /-- Records that re-execution has not consumed yet, oldest first (R156, R158). -/
  replay : List LogRec
  /-- Source changes held at the fabric, oldest first: source, level (R155, R160). -/
  heldSrc : List (Nat × Bool)
  /-- Access index of each hart since the Cord (R154). -/
  accIdx : List (Nat × Nat)
  /-- Last accesses to Plain lines in the interval (R154). -/
  lines : List LineAcc
  /-- Harts that have made a request in the interval (R187). -/
  asked : List (Nat × Bool)
  /-- TB_RAW at the last mismatch decision and at Table 6-6 step 7. -/
  rbRaw : Nat
  liveRaw : Nat
  /-- Partitions counted as over their declaration this interval (R231). -/
  exceeded : List (Nat × Bool)
  /-- Undo entries and input-log units of each partition this interval (R231). -/
  partUndo : List (Nat × Nat)
  partLog : List (Nat × Nat)
deriving DecidableEq, Repr

/-! ## Flue -/

/-- Kinds of effect (Table 7-1); an AMO to an Effect region is performed at release (R169). -/
inductive EffKind where
  | doorbell
  | store
  | amo (op : AmoOp)
  | rack
  | setup
  | commit
deriving DecidableEq, Repr

/-- An effect record (R170). -/
structure FlueRec where
  hart : HartId
  part : PartId
  dest : BitVec 16
  seq : BitVec 32
  kind : EffKind
  addr : Nat
  size : Nat
  /-- The bytes written, by address, rising. -/
  bytes : List (Nat × Byte)
  /-- Task, buffer and generation of an output-image commit. -/
  info : List Nat
  /-- Its Cord is sealed (R173). -/
  releasable : Bool
  /-- The number of the Cord that has closed its interval (R170). -/
  cord : Option (BitVec 64)
  /-- The number of its Cord while it belongs to a mirrored partition and waits for that Cord's pair acknowledgement (R174). -/
  mirrorWait : Option Nat
  /-- TB_RAW at which it became releasable (R176). -/
  since : Nat
deriving DecidableEq, Repr

/-- Stream counters of one destination (R171). -/
structure Stream where
  entered : BitVec 32
  sealedSeq : BitVec 32
  released : BitVec 32
deriving DecidableEq, Repr

structure Flue where
  /-- The effect records held, oldest first (R168, R170). -/
  recs : List FlueRec
  /-- Stream counters by destination (R171). -/
  streams : List (Nat × Stream)
  /-- Requests held by R178, oldest first. -/
  held : List LaneReq
  /-- The FLUE_FULL trigger has acted in this interval (R177). -/
  fullAsked : Bool
  /-- Destinations whose oldest record has raised FLUE_DEST_STALL (R176). -/
  stalled : List (Nat × Bool)
  /-- The safe state stopped every release (R190). -/
  shut : Bool
deriving DecidableEq, Repr

/-! ## Rings -/

/-- Ring states (Table 8-7). -/
inductive RingSt where
  | disabled
  | idle
  | busy
  | waitSpace
  | waitLong
  | waitFence
  | halted
deriving DecidableEq, Repr

/-- Ring context (Table 8-1). -/
structure RingCtx where
  sqBase : BitVec 28
  sqLog : BitVec 4
  cqBase : BitVec 28
  cqLog : BitVec 4
  en : Bool
  event : Bool
  mp : Bool
  engine : BitVec 5
  part : PartId
  evtq : BitVec 2
  need : BitVec 2
  longMax : BitVec 8
  sqTail : BitVec 17
  sqHead : BitVec 17
  longOut : BitVec 15
  cqTail : BitVec 17
  cqHead : BitVec 17
  st : RingSt
  dbSeq : BitVec 32
deriving DecidableEq, Repr

/-- The end of a command: status, detail and result words (Table 8-5). -/
structure Final where
  status : Nat
  detail : Nat
  res : List Word
deriving DecidableEq, Repr

/-- A descriptor taken from a ring: position, its sixteen words, and for a long command the NT_LO of its ACCEPTED record
and its end once the work is done but an earlier one is not (R206, R207). `prog` holds an engine's progress through the
work (units done), `aux` what its chapter keeps with it. -/
structure Cmd where
  ring : RingId
  pos : BitVec 17
  words : List Word
  long : Bool
  ntAcc : Word
  fin : Option Final
  prog : Nat
  aux : List Nat
deriving DecidableEq, Repr

structure Rings where
  /-- Ring contexts that are not all 0, by ring (R195). -/
  ctx : List (Nat × RingCtx)
  /-- The descriptor each engine has in hand between taking it and performing it. -/
  hand : List (Nat × Cmd)
  /-- Long commands outstanding, in the order taken. -/
  out : List Cmd
  /-- Ring each engine served last for a partition; key 256 * engine + partition (R226). -/
  lastRing : List (Nat × Nat)
  /-- Partition each engine served last in a slot (R226). -/
  lastPart : List (Nat × Nat)
  /-- TB_RAW at the start of the slot each engine served last. -/
  slotRaw : List (Nat × Nat)
  /-- Of the descriptors of a ring not yet taken: SQ_TAIL before each doorbell and the doorbell record's SEQ (R299). -/
  batches : List (Nat × List (BitVec 17 × Word))
deriving DecidableEq, Repr

/-! ## Events and locks -/

/-- A raise waiting for the EVT block: source, INFO words, NT nanoseconds at the raise, and the ring a source 64 or 66
to 69 names (R233 to R235). -/
structure Raise where
  src : Nat
  info : List Word
  nt : DWord
  ring : Option RingId
deriving DecidableEq, Repr

structure Events where
  /-- Raises that wait for the EVT block, oldest first (R233). -/
  queue : List Raise
  /-- ESEQ count of each event ring (R234). -/
  eseq : List (Nat × Word)
  /-- A record was dropped since the last one written (R236). -/
  lost : List (Nat × Bool)
deriving DecidableEq, Repr

/-- Agents of a lock owner (R238). -/
inductive Agent where
  | lane
  | mp
  | engine
deriving DecidableEq, Repr

/-- Lock states (Table 9-6). -/
inductive LockSt where
  | free
  | abandoned
  | held (part : PartId) (agent : Agent) (hart : HartId)
deriving DecidableEq, Repr

/-- Monitors of a partition (Table 9-9). -/
structure PartMon where
  dram : Word
  spare : Word
  undoPeak : BitVec 16
  logPeak : BitVec 18
  drops : BitVec 16
deriving DecidableEq, Repr

structure Parts where
  /-- Locks that are not Free. -/
  locks : List (Nat × LockSt)
  /-- Monitors by partition (Table 9-9). -/
  mon : List (Nat × PartMon)
deriving DecidableEq, Repr

end Machine
end Sys2Proof
end

