-- ==== Sys2Proof/Machine/BlockState.lean ====
section
/-!
DEFINITION. The state of the blocks of chapters 10 to 22 that lies outside setup registers and memory. Plain data only.
-/

namespace Sys2Proof
namespace Machine

/-! ## Time base (chapter 10) -/

/-- Pulse-generator modes (Table 10-4). -/
inductive PtoMode where
  | off
  | oneShot
  | periodic
  | syncArmed
deriving DecidableEq, Repr

/-- A pulse generator's working mode and period, and TB_RAW at the end of its output pulse; its target, level and counts
are in PTO_NEXT and PTO_STAT. -/
structure Pto where
  mode : PtoMode
  per : Nat
  outEnd : Nat
deriving DecidableEq, Repr

/-- A time-base command that waits for TB_AT, with the staged words it took (R252). -/
structure TbCmd where
  op : Nat
  w0 : Word
  w1 : Word
  w2 : Word
  at_ : DWord
deriving DecidableEq, Repr

/-- The time base. -/
structure TimeBase where
  /-- TB_RAW (R246). -/
  raw : BitVec 64
  /-- The time-base PLL is locked: TB_RAW counts (R246). -/
  locked : Bool
  /-- TB_OFS and TB_INCR (R248). -/
  ofs : BitVec 104
  incr : BitVec 48
  /-- NT and TB_RAW latched by each requester's last read of TB_NT_LO: harts 0 to 3, MP 4 (R250). -/
  latches : List (Nat × BitVec 80 × BitVec 64)
  /-- The command that waits for TB_AT (R252). -/
  waiting : Option TbCmd
  /-- Conversions replaced lately, newest first: TB_RAW at the change, TB_OFS and TB_INCR before it (R263). -/
  past : List (Nat × BitVec 104 × BitVec 48)
  /-- Generators that are not off. -/
  gens : List (Nat × Pto)
  /-- TB_RAW of the last accepted SYNC_IN edge. -/
  syncLast : Option Nat
  /-- Transmit time-stamp queues by stamp port: TAG and stamp, oldest first (R264). -/
  tsq : List (Nat × List (BitVec 16 × BitVec 80))
deriving DecidableEq, Repr

/-! ## Signal Engine and gateway (chapters 13 and 14) -/

/-- Kinds of pass, by rising priority (R342). -/
inductive PassKind where
  | stale
  | clear
  | unpack
deriving DecidableEq, Repr

/-- A pending pass of a dataset, with TB_RAW at its queueing. -/
structure Pass where
  dset : Nat
  kind : PassKind
  raw : Nat
deriving DecidableEq, Repr

/-- Counts of a snapshot: entries copied, entries not good, lowest index not good. -/
structure SnapCount where
  n : Nat
  notGood : Nat
  first : Nat
deriving DecidableEq, Repr

/-- A snapshot in progress (R347, R350): the command it belongs to, or none for the input image of a task; the partition; a raw
list, whose groups are checked as they are read; its output's place, FORMAT and length; the groups not yet read; its counts and
the low words of NT at the reads of the first and the last group. -/
structure Snap where
  cmd : Option Cmd
  task : Nat
  part : PartId
  raw : Bool
  out : Nat
  fmt : Nat
  size : Nat
  rest : List (List (Nat × Nat))
  count : SnapCount
  nts : Option (Word × Word)
deriving DecidableEq, Repr

/-- A publish command in progress (R350, R352): datasets published, address of the next one's values, values saturated. -/
structure PubJob where
  cmd : Cmd
  next : Nat
  addr : Nat
  sat : Nat
deriving DecidableEq, Repr

structure Sig where
  /-- Pending passes in queue order. -/
  passes : List Pass
  /-- NT nanoseconds at SETUP_LOCK (R344). -/
  lockNt : Nat
  /-- Groups in the order they became pending, with TB_RAW at that instant (R359). -/
  groups : List (Nat × Nat)
  /-- NT nanoseconds and TB_RAW of each group's last publication (R359). -/
  gwLast : List (Nat × (Nat × Nat))
  /-- Groups with bytes the gateway has built for SIG_PUBLISH of their destination, in order, with TB_RAW at the instant the group
  became eligible (R358). -/
  built : List (Nat × Nat × List Byte)
  /-- Signal operations left of the present slot (R350). -/
  ops : Nat
  /-- Snapshots and publish commands that go on in later slots (R350). -/
  snaps : List Snap
  pubs : List PubJob
deriving DecidableEq, Repr

/-! ## Car rings and backbone ports (chapters 11 and 12) -/

/-- What a network port sends outside its cyclic frames: an own frame of the command with a ring and position, or a forwarded
frame that ends at a value of TB_RAW. -/
inductive TxNow where
  | own (ring : RingId) (pos : BitVec 17) (start : Nat) (f : List Byte)
  | forward (start : Nat) (f : List Byte)
deriving DecidableEq, Repr

/-- A frozen output image of a car ring: its CYCLE, TB_RAW at the freeze, the node's PRESENCE bit, and the write entries' bytes by
OFFSET (R282). -/
structure CarImage where
  cyc : Nat
  at_ : Nat
  here : Bool
  data : List (Nat × List Byte)
deriving DecidableEq, Repr

/-- A car ring's state outside its registers (R278 to R288). -/
structure CarNode where
  /-- TB_RAW of the cycle's reference: the fire at the master, the first copy's SFD at a member; and references so far. -/
  ref : Nat
  refs : Nat
  /-- A valid copy of the present cycle has been accepted, or its loss counted. -/
  closed : Bool
  /-- The present cycle's copies have not been judged by channel yet. -/
  opened : Bool
  /-- Channels on which the present cycle brought a valid copy. -/
  gotA : Bool
  gotB : Bool
  /-- Cycles since a channel last brought one, at most 255. -/
  missA : Nat
  missB : Nat
  /-- Lost cycles in a row. -/
  lostRun : Nat
  /-- CYCLE of the last copy accepted. -/
  acc : Word
  /-- LAST is held (member). -/
  lastHeld : Bool
  /-- TB_RAW from which a member's next lost cycle counts. -/
  lossFrom : Nat
  /-- The frozen image. -/
  image : Option CarImage
deriving DecidableEq, Repr

structure Car where
  /-- The rings by number. -/
  nodes : List (Nat × CarNode)
  /-- Store-and-forward buffers of acyclic frames, by key 2 * ring + channel. -/
  fwd : List (Nat × List (List Byte))
deriving DecidableEq, Repr

/-- Network ports, by stamp port: what each sends now, and the last frame each sent with whether its FCS checks. -/
structure Ports where
  /-- What each port sends now. -/
  now : List (Nat × TxNow)
  /-- The last frame of each port. -/
  sent : List (Nat × Bool × List Byte)
  /-- The last acyclic frame that each port cut short, as far as it was sent (R287). -/
  cut : List (Nat × List Byte)
deriving DecidableEq, Repr

/-- An own frame of a CB_TX on its way out of a backbone port: ring and position of the command, TB_RAW at its end. -/
structure CbSend where
  ring : RingId
  pos : BitVec 17
  endRaw : Nat
deriving DecidableEq, Repr

/-- Own frames of an exclusive or sync window that are still to leave: the window, its cyclic frames left, and the earliest start of
the next one (R310). -/
structure CbProg where
  win : Nat
  cyc : List (Nat × Word × List Byte)
  next : Nat
deriving DecidableEq, Repr

/-- A frozen image of a window (R313): count of its basic cycle, bank and window entry; dataset, generation count and bytes of each
cyclic entry. -/
structure CbFrozen where
  count : Nat
  bank : Nat
  idx : Nat
  frames : List (Nat × Word × List Byte)
deriving DecidableEq, Repr

/-- The backbone node outside its registers (R300 to R316). -/
structure Cb where
  /-- The two schedule banks, word i of bank b at key 65536 * b + i. -/
  banks : List (Nat × Word)
  /-- Bank 1 has been written in the Setup phase (R322). -/
  written1 : Bool
  /-- TB_RAW at the start of the present basic cycle, and basic cycles started so far. -/
  start : Nat
  starts : Nat
  /-- The present basic cycle brought a valid sync copy; its lack has been judged. -/
  got : Bool
  judged : Bool
  /-- The previous basic cycle brought one and the node was Synced at its end (R305). -/
  hold : Bool
  /-- Cycles in a row without a valid sync copy. -/
  missRun : Nat
  /-- Per channel: the present cycle brought a valid copy, and cycles since one did, at most 255. -/
  gotA : Bool
  gotB : Bool
  missA : Nat
  missB : Nat
  /-- ACTIVE_ID of the last valid sync copy. -/
  heard : Word
  /-- The time master has sent its pending announcement. -/
  annSent : Bool
  /-- The window in which the node sends its own frames. -/
  prog : Option CbProg
  /-- Frozen images. -/
  frozen : List CbFrozen
  /-- Own CB_TX frames on their way, by port, in order. -/
  sending : List (Nat × List CbSend)
  /-- TB_RAW at which each port's frames end, and at which the last frame seen on each channel ends. -/
  busyEnd : List (Nat × Nat)
  seenEnd : List (Nat × Nat)
  /-- The relay buffers, by outgoing port: the frame waiting, and whether its FCS checked. -/
  relay : List (Nat × Bool × List Byte)
deriving DecidableEq, Repr

/-! ## Rack bridge (chapter 14) -/

/-- A lane access in a window's queue: its hart (none: a posted write from the Flue), first offset, size in bytes, store data
or the value read so far, cycles ended, and whether a rollback took its result away (R373). -/
structure RackAcc where
  hart : Option HartId
  off : Nat
  size : Nat
  write : Bool
  data : Nat
  done : Nat
  dropped : Bool
deriving DecidableEq, Repr

/-- Stages of a cycle (Table 14-8, R368): waiting for the response inputs to go high, strobes low, answered, timed out, and in
the RB_RST_N pulse with its outcome (0 RB_ACK_N, 1 RB_ERR_N, 2 timeout) and whether it drove its strobes. -/
inductive RackStage where
  | due
  | strobes
  | answered (err : Bool)
  | released
  | pulse (outcome : Nat) (drove : Bool)
deriving DecidableEq, Repr

/-- The cycle on the bus: its window, the block command it belongs to (none: the lane access at the head of the queue), its
offset, direction and data, and TB_RAW at its start, at the time it fell due, or at the start of the pulse. -/
structure RackCycle where
  win : Nat
  block : Option (RingId × BitVec 17)
  off : Nat
  write : Bool
  data : BitVec 16
  start : Nat
  stage : RackStage
deriving DecidableEq, Repr

structure Rack where
  /-- Lane accesses by window, in the order accepted. -/
  queues : List (Nat × List RackAcc)
  /-- The cycle on the bus. -/
  cycle : Option RackCycle
  /-- Window served last. -/
  last : Nat
  /-- TB_RAW at the end of RST_WAIT; it has passed and cycles may start. -/
  waitEnd : Option Nat
  ready : Bool
deriving DecidableEq, Repr

/-! ## Field islands (chapters 16 and 17) -/

/-- What a downlink frame carries (R409, R412): SET of 16 channels or SUP_OFF of two loops, a configuration, a function
change, a re-arming, the order to be safe, or a self-test step. -/
inductive DownKind where
  | output (sets : List Nat)
  | load
  | change (ch : Nat) (cfg0 cfg1 : Word)
  | rearm (mask : Nat) (group : Bool)
  | safe
  | test (step : Nat)
deriving DecidableEq, Repr

/-- A downlink frame on its way: its content, whether it carries an alignment command, which frame of a function change it is
(0: none), and its SEQ and PAYLOAD on the line. -/
structure DownFrame where
  kind : DownKind
  align : Bool
  stage : Nat
  seq : Nat
  data : List Byte
deriving DecidableEq, Repr

/-- An uplink frame on its way: TYPE (0 DATA, 1 CONFIG_ACK, 2 SAFE, 3 TEST), RX_OK, SEQ, PAYLOAD, and TB_RAW and NT nanoseconds
at the sampling instant. -/
structure UpFrame where
  ty : Nat
  rxOk : Bool
  seq : Nat
  data : List Byte
  raw : Nat
  nt : DWord
deriving DecidableEq, Repr

/-- An island and its link. The first group is the Field Engine's, the second the island's. -/
structure Island where
  /-- Valid uplink frames in a row with RX_OK (at most 3), and lost ones. -/
  upOk : Nat
  upLost : Nat
  /-- CONFIG frames sent in Loading. -/
  cfgSent : Nat
  /-- The link may leave Held for Loading (Table 16-4). -/
  go : Bool
  /-- TB_RAW at the end of the first OUTPUT frame since the link entered Running. -/
  outEnd : Option Nat
  /-- Record bytes 0x00 to 0x17 as last received, with the sampling instant in TB_RAW and NT, and whether that frame had TYPE SAFE. -/
  held : List Byte
  heldRaw : Nat
  heldNt : DWord
  heldSafe : Bool
  /-- Latest output record accepted, whether it has gone out, and the REARM bits of the record that went out last. -/
  out : List Byte
  fresh : Bool
  rearmed : Nat
  /-- Re-arming that waits for a CONFIG frame. -/
  rearmMask : Nat
  rearmGroup : Bool
  /-- Slots since the last TEST frame (at most 16), the next step, the frames left of the self-test in progress, and RTC at its start. -/
  sinceTest : Nat
  testStep : Nat
  testLeft : Nat
  testRtc : Option Nat
  down : Option DownFrame
  up : Option UpFrame
  /-- Configured since power-up; configured since it last took its safe state; in its safe state; a configuration
  acknowledgement not yet sent. -/
  conf : Bool
  ready : Bool
  safe : Bool
  ack : Bool
  /-- Valid downlink frames in a row, at most 3, and TB_RAW at the end of the last one. -/
  downOk : Nat
  lastDown : Nat
  /-- Measured: supply (VS or VDO) in mV, group current in mA, temperature (°C + 64); TB_RAW of the last sample. -/
  sampleAt : Option Nat
  volt : BitVec 16
  cur : BitVec 16
  temp : Byte
  /-- TB_RAW since which every sample found the supply below 18.0 V, at or above 18.5 V, or above 31.0 V, and the group current
  above 5.0 A. -/
  lowAt : Option Nat
  fullAt : Option Nat
  highAt : Option Nat
  tripAt : Option Nat
  /-- VS_LOW, VDO_LOW or VLP_LOW; VS_HIGH; GRP_OC and GRP_TRIP. -/
  low : Bool
  high : Bool
  grpOc : Bool
  grpTrip : Bool
deriving DecidableEq, Repr

/-- An input stage: last sample, debounced state, samples for which the sample has differed from the state, RISE_CNT, and TB_RAW of
the last change of the sample. -/
structure InCh where
  sample : Bool
  state : Bool
  held : Nat
  rise : Byte
  since : Nat
deriving DecidableEq, Repr

/-- A high-side channel. -/
structure Dio where
  /-- SET as applied, and TB_RAW of its last change; present duty P. -/
  set : Nat
  setAt : Nat
  duty : Nat
  /-- The present PWM period: its start, its duty and the next start, in TB_RAW. -/
  perAt : Nat
  perDuty : Nat
  perNext : Nat
  short : Bool
  open_ : Bool
  thermal : Bool
  latched : Bool
  ext : Bool
  /-- Off after a thermal shutdown; shutdowns in a row; on-time since the last one up to the last turn-off; TB_RAW at the last turn-on, at the last turn-off and at the earliest
  retry. -/
  shut : Bool
  shuts : Nat
  onSum : Nat
  onFrom : Nat
  offFrom : Nat
  retryAt : Nat
  /-- Open-load decisions in a row: on-state low and high, off-state open and closed; TB_RAW of the last on-state measurement. -/
  onLow : Nat
  onHigh : Nat
  offOpen : Nat
  offShut : Nat
  coverAt : Option Nat
deriving DecidableEq, Repr

/-- A current-loop channel. -/
structure Ai where
  value : BitVec 24
  seq : Byte
  valid : Bool
  settling : Bool
  ovr : Bool
  mismatch : Bool
  openLoop : Bool
  compliance : Bool
  supLimit : Bool
  aligned : Bool
  park : Bool
  cd : Bool
  /-- SUP_OFF of the output record, and the supply held off by frame 1 of a mode change. -/
  supOff : Bool
  cut : Bool
  /-- The schedule: TB_RAW of its origin, results since the last reset, TB_RAW of the reset, of the last result and its NT. -/
  base : Nat
  count : Nat
  resetAt : Nat
  doneRaw : Nat
  doneNt : DWord
  isup : BitVec 16
  head : Byte
  /-- Windows in a row with the two means apart and together. -/
  apart : Nat
  near : Nat
deriving DecidableEq, Repr

/-- A test-pulse supply: in a pulse, STUCK and OVL. -/
structure Tps where
  pulsing : Bool
  stuck : Bool
  ovl : Bool
deriving DecidableEq, Repr

/-- An output off-pulse under way (R542): channel, frames left, TB_RAW of its first frame (none before it), LEVEL seen 0. -/
structure OffPulse where
  chan : Nat
  left : Nat
  start : Option Nat
  seen : Bool
deriving DecidableEq, Repr

structure FldBlk where
  /-- Islands, input stages, high-side channels, current loops and test-pulse supplies, by number. -/
  islands : List (Nat × Island)
  ins : List (Nat × InCh)
  dios : List (Nat × Dio)
  ais : List (Nat × Ai)
  tps : List (Nat × Tps)
  /-- TB_RAW at the last frame start, and SEQ; TB_RAW of the last ramp tick. -/
  frameRaw : Nat
  seq : Nat
  rampAt : Option Nat
  /-- An alignment event that no frame carries yet, at TB_RAW; t_r of the frames that carry one. -/
  align : Option Nat
  alignAt : Option Nat
  /-- The output off-pulse under way (R542). -/
  offp : Option OffPulse
deriving DecidableEq, Repr

/-! ## Safety Sequencer (chapter 18) -/

/-- A block channel: block level of its input, TB_RAW since which RAW differs from it, samples and ones of the present check
window with the pulse slot it lies in, pulses in a row that passed their checks (at most 3), the cause of its fault (0 none),
and TB_RAW since which its feedback disagrees. -/
structure SafCh where
  level : Bool
  newFrom : Option Nat
  slot : Nat
  samples : Nat
  ones : Nat
  passed : Nat
  cause : Nat
  fbFrom : Option Nat
deriving DecidableEq, Repr

/-- A block: TB_RAW since which its inputs disagree, and at which its Degraded timer expires. -/
structure SafBlk where
  discFrom : Option Nat
  degEnd : Nat
deriving DecidableEq, Repr

structure Saf where
  /-- Block channels and blocks, by number. -/
  chans : List (Nat × SafCh)
  blks : List (Nat × SafBlk)
  /-- Evaluations in a row in which the sequencer channels differed, and TB_RAW of the last evaluation. -/
  differ : Nat
  evalAt : Option Nat
deriving DecidableEq, Repr

/-! ## Cycle engine (chapter 15) -/

/-- A task outside its registers. -/
structure Task where
  /-- TB_RAW and NT nanoseconds of the cycle start. -/
  ts : Nat
  tsNt : DWord
  /-- START_KIND of the next cycle; START_KIND and LATE of the present one; the watchdog runs. -/
  next : Nat
  kind : Nat
  late : Bool
  wdt : Bool
  /-- The island input records and the count of missing stations as held at the cycle start (R386). -/
  recs : List Byte
  miss : Nat
deriving DecidableEq, Repr

/-- Datasets of a released commit, or of a safe image, that wait for their publication; `next` of them are done. -/
structure Commit where
  task : Nat
  buf : Option Nat
  next : Nat
deriving DecidableEq, Repr

structure Cyc where
  /-- Tasks by number. -/
  tasks : List (Nat × Task)
  /-- Fires of each generator since SETUP_LOCK. -/
  fires : List (Nat × Nat)
  /-- The boundary task (R391). -/
  boundary : Option Nat
  /-- Pending reasons of each partition's error task (Table 15-5, bit 0 COLD). -/
  reasons : List (Nat × BitVec 5)
  /-- The error task was started in Stopped with OVERRUN. -/
  ovrRun : List (Nat × Bool)
  /-- Entries of each partition's controller to Starting; an end store of the error task belongs to one of them (R394, R403). -/
  starts : List (Nat × Nat)
  /-- Datasets that wait for their publication, oldest first (R394). -/
  commits : List Commit
  /-- TB_RAW at the end of the open idle window; it is without limit where absent. -/
  idleEnd : Option Nat
deriving DecidableEq, Repr

/-! ## In-service test (chapter 21) -/

structure Ist where
  /-- Lane selected for LBIST that waits for an idle window, the lane to select next, and RTC of the last selection (R537). -/
  wait : Option LaneId
  next : LaneId
  selRtc : Nat
  /-- RTC of each channel's last off-pulse (R542). -/
  offp : List (Nat × Nat)
deriving DecidableEq, Repr

/-! ## Pair link (chapter 19) -/

/-- What a close record carries (Table 19-5): the Cord and NT at its seal, the sealed harts and PLIC, Flue streams, ring
contexts, the locks of mirrored partitions, the setup registers that hold state of the cycle engine and the networks, the
cycle engine's state outside them, descriptor bytes of mirrored datasets, LAST of the car rings, the schedule banks, the
time-base command that waits, and for a planned switch the command that asked for it. -/
structure Carried where
  cord : BitVec 64
  nt : DWord
  harts : Harts
  plic : Plic
  streams : List (Nat × Stream)
  rings : List (Nat × RingCtx)
  batches : List (Nat × List (BitVec 17 × Word))
  locks : List (Nat × LockSt)
  regs : List (Nat × Word)
  cyc : Cyc
  dsets : List (Nat × Byte)
  last : List (Nat × Bool)
  banks : List (Nat × Word)
  waiting : Option TbCmd
  switch : Bool
  cmd : Option Cmd
deriving DecidableEq, Repr

/-- Mirror traffic to the partner (R495 to R501, R506): bytes written, a line of the catch-up copy, a Flue record, the discard mark,
a close record, a time-base command, and the end of a catch-up copy. -/
inductive PairMsg where
  | write (cells : List (Nat × Byte))
  | fill (cells : List (Nat × Byte))
  | flue (r : FlueRec)
  | discard
  | close (c : Carried)
  | time (c : TbCmd)
  | copied
deriving DecidableEq, Repr

/-- A heartbeat (R502), with the sender's TB_RAW at transmission, whether it is joining, and the major steps of its silicon. -/
structure Heartbeat where
  role : BitVec 2
  epoch : BitVec 64
  last : BitVec 64
  img : Word
  prefer : Bool
  joining : Bool
  request : Bool
  steps : Byte
  nt : DWord
  raw : DWord
  /-- The last Cord whose records left without an acknowledgement (R186). [DEDUCED, unsafe: notes/assumptions/69.md] -/
  noack : Option (BitVec 64)
deriving DecidableEq, Repr

/-- Control messages to the partner: a heartbeat, a switch request and its acknowledgement, READY, the acknowledgement of a
close record, and a car-ring copy that passes the pair link, towards the OUT port or back from it. -/
inductive PairCtl where
  | heartbeat (h : Heartbeat)
  | request
  | grant
  | ready
  | closeAck (k : BitVec 64)
  | copy (ring : Fin 3) (back : Bool) (f : List Byte) (ok : Bool)
deriving DecidableEq, Repr

/-- Stages of a planned switch (Table 19-7). On the outgoing module: PREPARE sent, READY received, Cord k sealed. On the
incoming module: lanes powering up, READY sent. -/
inductive SwitchStage where
  | asked
  | ready
  | sealed (k : Nat)
  | powering
  | up
deriving DecidableEq, Repr

/-- A planned switch in progress: the command that asked for it on this module, TB_RAW at its start, and the stage. -/
structure PairSwitch where
  cmd : Option Cmd
  start : Nat
  stage : SwitchStage
deriving DecidableEq, Repr

structure Pair where
  /-- Mirror traffic queued for the link, oldest first (R500). -/
  out : List PairMsg
  /-- Fifths of a byte that the mirror budget has earned; bytes sent in the present 10 ms and TB_RAW at its start. -/
  credit : Nat
  sentBytes : Nat
  rateFrom : Nat
  /-- Catch-up copy in progress: range and next address (R501). -/
  copy : Option (Nat × Nat)
  /-- The redo staging area: traffic since the last close record, oldest first (R497). -/
  staged : List PairMsg
  /-- The end of the catch-up copy has been staged. -/
  copied : Bool
  /-- State of the last complete Cord. -/
  carried : Option Carried
  /-- TB_RAW of the last heartbeat sent, and of the last valid one received. -/
  hbTx : Nat
  hbRx : Option Nat
  /-- TB_RAW of the heartbeat loss whose takeover is not confirmed yet; the Active role has suffered one (R503, R508). -/
  lossAt : Option Nat
  lossSeen : Bool
  /-- As last heard: IMG_ID, PREFER, joining. -/
  peerImg : Word
  peerPrefer : Bool
  peerJoins : Bool
  /-- The join under way: TB_RAW at the key, FORCE (R493). -/
  join : Option (Nat × Bool)
  /-- TB_RAW at the start of a lane power-up, and the lanes have their supply (Banked). -/
  powerFrom : Option Nat
  lanesUp : Bool
  /-- TB_RAW at entry to Reviving, and since which the unit is Banked and in step. -/
  reviveFrom : Nat
  stepFrom : Option Nat
  /-- Close records sent and not acknowledged: Cord and TB_RAW of its seal (R498). -/
  unacked : List (Nat × Nat)
  /-- The last Cord whose records left without an acknowledgement, since the partner was last in step (R186). -/
  noack : Option (BitVec 64)
  /-- The planned switch in progress (R511). -/
  switch : Option PairSwitch
  /-- An own switch request is pending (R511). -/
  request : Bool
  /-- TB_RAW of the last heartbeat before a takeover, until its first cycle start; the cold resume of a takeover or switch
  is not over; and the tasks whose cycle starts passed since the last close record while the module was not Active (R504). -/
  gapFrom : Option Nat
  resume : Bool
  passed : List Nat
  /-- Datasets of a car ring's write entries not yet published since a takeover, by ring (R504). -/
  unpub : List (Nat × List Nat)
  /-- The last control message sent. -/
  sent : Option PairCtl
deriving DecidableEq, Repr

/-! ## Recorder (chapter 20) -/

/-- The working copy of a channel (Table 20-4). -/
structure RecChan where
  seq : Word
  clearGen : Word
  cfgCrc : Word
  n : DWord
  min : DWord
  minNt : DWord
  max : DWord
  maxNt : DWord
  since : DWord
  bins : List (Nat × Word)
  drops : Word
deriving DecidableEq, Repr

/-- A sample taken and not yet applied (R524). -/
structure RecSample where
  chan : Nat
  value : DWord
  nt : DWord
deriving DecidableEq, Repr

structure Rec where
  /-- Working copies by channel; an absent channel has no record. -/
  chans : List (Nat × RecChan)
  /-- Channels changed since their last flush. -/
  dirty : List (Nat × Bool)
  /-- Samples taken and not yet applied, oldest first (R524). -/
  queue : List RecSample
  /-- REC_DROPPED has been raised in this flush interval. -/
  dropRaised : Bool
  /-- SEQ of the next note. -/
  noteSeq : Word
  /-- TB_RAW at which each periodic channel's next sample falls due. -/
  due : List (Nat × Nat)
  /-- TB_RAW of the last flush. -/
  lastFlush : Nat
deriving DecidableEq, Repr

/-! ## The management processor (chapter 21) -/

/-- A datagram that arrives at a maintenance port for UDP port 48,420: the port, source address and port, destination address, and the
12 bytes of its message header, the first one highest (Table 21-7). The values of its payload are the row's other operands. [DESIGN CHOICE, safe: notes/assumptions/77.md] -/
structure MaintReq where
  port : Fin 2
  ip : Word
  udp : BitVec 16
  dst : Word
  head : BitVec 96
deriving DecidableEq, Repr

/-- What the console is asked (R554). -/
inductive ConsoleOp where
  | ident
  | readReg (off : BitVec 22) (count : Nat)
  | notes (first : Word)
deriving DecidableEq, Repr

/-- A text line of the console (R554): a boot step, a bank choice, a reset cause, a note by KIND and SEQ, an answer by its words. -/
inductive ConsoleLine where
  | step (n : Nat)
  | bank (b : Option Nat) (trial : Bool)
  | cause (w : Word)
  | note (kind : Nat) (seq : Word)
  | answer (ws : List Word)
deriving DecidableEq, Repr

/-- A reply sent, header and payload, with the request it answers: port, source address and port, SEQ, and the RTC at the request
(R551). -/
structure MaintSent where
  port : Fin 2
  ip : Word
  udp : BitVec 16
  seq : Word
  rtc : Nat
  reply : List Byte
deriving DecidableEq, Repr

/-- A frame received at a maintenance port, FCS included, with its receive stamp where it is stamped (R550, R262, R263). -/
structure MaFrame where
  port : Fin 2
  bytes : List Byte
  stamp : Option (BitVec 80)
deriving DecidableEq, Repr

/-- The MP's hart (R97): RV32IMC with Zicsr, M-mode only. -/
structure MpCore where
  /-- Firmware runs (false: in reset, or in Tinder ROM, whose work is one command). -/
  on : Bool
  /-- It waits in WFI. -/
  waits : Bool
  /-- Its program counter. -/
  pc : Word
  /-- x1 to x31 (absent: 0). -/
  x : List (Nat × Word)
  /-- mstatus.MIE and MPIE; MPP reads 0b11. -/
  mie : Bool
  mpie : Bool
  /-- mie register: bits 3, 7 and 11. -/
  mieReg : Word
  /-- mtvec, the registers of a trap, and mscratch. -/
  mtvec : Word
  mepc : Word
  mcause : Word
  mtval : Word
  mscratch : Word
  /-- mcycle and minstret with their inhibit bits. -/
  mcycle : DWord
  minstret : DWord
  mcountinhibit : BitVec 3
deriving DecidableEq, Repr

structure Mp where
  /-- The hart of the MP. -/
  core : MpCore
  /-- What a write of mtime has added to the RTC (Table 21-5). -/
  mtimeOfs : DWord
  /-- RTC at the last service of the MP watchdog (R548). -/
  wdtFrom : BitVec 48
  /-- mtimecmp (Table 21-5). -/
  mtimecmp : DWord
  /-- MP SRAM, by address. -/
  sram : List (Nat × Byte)
  /-- Consecutive load windows below 70 % (R547). -/
  lowRun : Nat
  /-- The nonce of the last UNLOCK_REQ, until an UNLOCK uses it (R552). -/
  nonce : Option (BitVec 128)
  /-- RTC of the failed UNLOCKs, newest first, and of the third one within 60 s. -/
  failed : List Nat
  lockedFrom : Option Nat
  /-- RTC of the last unlocked request. -/
  lastUnlocked : Nat
  /-- Replies sent, newest first. -/
  replies : List MaintSent
  /-- The last telemetry datagram's words, and TB_RAW of the last one. -/
  telem : Option (List Byte)
  telemFrom : Nat
  /-- What the console has sent since reset, oldest first. -/
  console : List ConsoleLine
  /-- Frames handed to MP firmware, oldest first. -/
  rx : List MaFrame
  /-- Answers that wait until the lanes have read the last mailbox message: CODE and word 0 (R549). -/
  mailWait : List (Nat × Word)
  /-- DRAM retraining steps left (R545), and TB_RAW of the last step. -/
  retrain : Option (Nat × Nat)
  /-- Calibration slots of islands scheduled for recalibration, with the RTC at which the measurement began (R545). -/
  calPending : List (Nat × Option Nat)
  /-- RTC of the last ageing judgement (R544). -/
  lastCal : Nat
deriving DecidableEq, Repr

end Machine
end Sys2Proof
end

