-- ==== Sys2Proof/Syntax.lean ====
section
/-!
DEFINITION. The commands of the block: one constructor per row of spec/opcode_table.json, in the table's order. The table
gives its rows no operands; the operands here are what the rule of each row says the step is about (which hart, engine,
port or channel) and what comes from outside the module (a written word, a frame's content, a measured quantity).
-/

namespace Sys2Proof

/-- A command of the block. -/
inductive Instr where
  /-- VLOG_RISE (R64): The first logic feed rises through 16.8 V, and the rails come up in order until reset release. -/
  | vlogRise (f : Feed) (vlog : Byte)
  /-- FEED_ABSENT (R65): A logic feed falls below 16.8 V and is reported absent; FEED_CHG is set and the feed-change event is raised. -/
  | feedAbsent (f : Feed) (vlog : Byte)
  /-- FEED_PRESENT_TIMER (R65): An absent feed has stayed at or above 17.2 V for 10 ms and is reported present again. -/
  | feedPresentTimer (f : Feed) (vlog : Byte)
  /-- HOLDUP_EXHAUSTED (R66): The hold-up bus falls below 14.0 V with both feeds absent, so the module enters the safe state and resets with cause VLOG_FAIL. -/
  | holdupExhausted
  /-- HOLDUP_LEVEL_CHANGE (R66): The hold-up bus crosses 38.0 V and PWR_STAT.HU_OK changes. -/
  | holdupLevelChange (ok : Bool)
  /-- VHEARTH_FAULT (R67): A fault on VHEARTH resets the module with cause POR, or BOR_LP in low-power mode. -/
  | vhearthFault
  /-- RAIL_FAULT (R67): A required rail has stayed outside ±5 % for 10 µs, so the module enters the safe state and resets with cause RAIL. -/
  | railFault (r : Rail)
  /-- OVER_TEMP (R68): The hottest die sensor rises to 115 °C from below while armed, setting OT_WARN and raising the over-temperature event. -/
  | overTemp (t : Byte)
  /-- THERMAL_TRIP (R68): The die has stayed at 125 °C or above for 1 ms, so the module enters the safe state and resets with cause THERMAL. -/
  | thermalTrip (t : Byte)
  /-- LP_DRAW_CHANGE (R81): The regulator draw in low-power mode crosses 120 mA and starts or resets the 50 µs overload timer. -/
  | lpDrawChange (mA : Nat)
  /-- BOR_LP (R81): The low-power overload timer expires, and the module takes a cold reset with cause BOR_LP. -/
  | borLp
  /-- RESET_RELEASE (R592): Reset is released by cause: the straps are sampled, the lamp test starts and the MP starts Tinder ROM. -/
  | resetRelease (x : Straps)
  /-- TINDER_BOOT_DONE (R92): Tinder ROM finishes choosing and checking a bank and releases the lanes into the Setup phase, or enters recovery. -/
  | tinderBootDone
  /-- STRAP_SAMPLE (R58): Every 10 ms the hearth domain samples the straps again. -/
  | strapSample (x : Straps)
  /-- SYS_RESET (R88): The reset key written to SYS_RESET resets the module with cause SW_LANE or SW_MP. -/
  | sysReset (who : Requester) (w : Word)
  /-- JTAG_RESET (R69): A debugger requests a system reset through DMI, and the module resets with cause JTAG. -/
  | jtagReset
  /-- MP_WDT_EXPIRY (R548): The MP watchdog is not serviced within TMO, so the module enters the safe state and resets with cause MP_WDT. -/
  | mpWdtExpiry
  /-- MPX_WDT (R548): An MP write of the key to MPX_WDT services the watchdog. -/
  | mpxWdt (who : Requester) (w : Word)
  /-- SYS_BOOT_CONFIRM (R92): Setting SYS_BOOT.CONFIRM makes the MP confirm the trial image in the boot control record and raise the minimum SVN where asked. -/
  | sysBootConfirm (who : Requester) (w : Word)
  /-- PWR_PL_WRITE (R71): A write to PWR_PL.PL starts a change of performance level, or queues it behind a change in progress. -/
  | pwrPlWrite (who : Requester) (w : Word)
  /-- PL_CHANGE_DONE (R71): VLANE settling and the divider switch of a level change complete, PL_BUSY clears, and any queued level starts. -/
  | plChangeDone
  /-- SYS_CLK_WRITE (R86): A write to SYS_CLK enables the lane PLL or requests the lane clock source, or sets CLK_ERR when refused. -/
  | sysClkWrite (who : Requester) (w : Word)
  /-- LANE_PLL_LOCK (R86): The lane PLL locks and LANE_LOCK reads 1. -/
  | lanePllLock
  /-- LANE_SRC_SWITCH (R86): After the VLANE change has completed, the lanes switch glitch-free to the lane PLL. -/
  | laneSrcSwitch
  /-- WFI (R95): A hart executes WFI and waits for an interrupt; in U-mode it raises an illegal-instruction exception. -/
  | wfi (h : HartId)
  /-- DZC_WFI (R122): DZC.WFI with qualifier 0 acts as WFI. -/
  | dzcWfi (h : HartId)
  /-- DZC_WFI_EMBER (R122): DZC.WFI with qualifier 1 is the Ember-qualified WFI, and its part of an Ember request lapses if an interrupt ends it first. -/
  | dzcWfiEmber (h : HartId)
  /-- EMBER_DECISION (R77): Once the Flue is empty, the entry checks run and the request is refused or proceeds to E1, E2 or E3. -/
  | emberDecision
  /-- EMBER_ENTRY_COMPLETE (R79): After the engines have quiesced, VLANE goes off and the module reaches E2, or saves fabric state and powers down for E3. -/
  | emberEntryComplete
  /-- WAKE_LATCH (R84): An allowed and enabled wake source latches in E2 or E3, recording WAKE_SRC, WAKE_PEND and the RTC, and Kindle starts. -/
  | wakeLatch (srcs : List (Fin 8 × Fin 512))
  /-- RTC_ALARM (R83): The RTC reaches PWR_ALARM and the alarm wake source latches. -/
  | rtcAlarm
  /-- PWR_MPWAKE (R87): An MP write of the key to PWR_MPWAKE latches wake source 0x07 when WAKE_EN.MP = 1. -/
  | pwrMpwake (who : Requester) (w : Word)
  /-- KINDLE_COMPLETE (R85): Lane power-up and restore finish, and the cores start on the fast RC oscillator with the entry Cord's register state. -/
  | kindleComplete (lost : List (Fin 4194304 × Byte))
  /-- VOTED_REQUEST (R13): A lane load, store, fetch or atomic is voted and then handled by its region attribute. -/
  | votedRequest (o : Offers) (miss : Bool) (nA : Nat) (nB : Nat) (nC : Nat)
  /-- VOTE_MISSING_TIMEOUT (R127): A lane has not offered its nth request 64 lane clocks after the first lane, a MISSING mismatch. -/
  | voteMissingTimeout (l : LaneId) (o : Offers) (miss : Bool)
  /-- SETUP_REG_WRITE (R11): A write to a setup register that has no row of its own acts by its field types. -/
  | setupRegWrite (who : Requester) (off : BitVec 22) (w : Word)
  /-- SETUP_LOCK_REQUEST (R29): The lane complex writes 0x4C4B to SYS_LOCK in the Setup phase, the store stalls and the lock checks start. -/
  | setupLockRequest (h : HartId) (part : PartId) (w : Word)
  /-- SETUP_LOCK_CHECKS_END (R30): The lock checks finish: the module enters the Operate phase, or LOCK_ERR is set and the store retires. -/
  | setupLockChecksEnd (a : SigOffer) (b : SigOffer) (c : SigOffer) (ns : Nat)
  /-- HELD_SETUP_WRITE_APPLY (R30): A setup-register write held during Locking or during an image load is performed once that state ends. -/
  | heldSetupWriteApply
  /-- INSTRUCTION (R94): A hart executes one instruction of its profile. -/
  | instruction (k : CoreId) (fmiss : Bool) (miss : Bool)
  /-- INTERRUPT_TAKE (R109): A pending enabled interrupt is taken between instructions. -/
  | interruptTake (k : CoreId)
  /-- MRET (R107): MRET returns to mepc with the privilege and MIE from mstatus. -/
  | mret (h : HartId)
  /-- CSR_WRITE (R107): A CSR write changes the context from the next instruction boundary. -/
  | csrWrite (h : HartId) (op : CsrOp) (useImm : Bool) (rd : BitVec 5) (src : BitVec 5) (c : BitVec 12)
  /-- DZL_SETUP (R111): DZL.SETUP sets up a hardware loop or skips the body when the count is 0. -/
  | dzlSetup (h : HartId) (rs1 : BitVec 5) (uimm : BitVec 12)
  /-- DZC_CORD (R119): DZC.CORD requests a Cord and retires with its number once it is sealed. -/
  | dzcCord (h : HartId) (rd : BitVec 5)
  /-- DZC_CFENCE (R121): DZC.CFENCE waits until the Flue has released every earlier effect of its hart. -/
  | dzcCfence (h : HartId)
  /-- PLIC_CLAIM (R105): A DZPDATA read at a claim offset claims the highest pending interrupt of the context. -/
  | plicClaim (h : HartId) (rd : BitVec 5)
  /-- PLIC_COMPLETE (R105): A DZPDATA write at a claim offset completes a claimed source, and a merged request becomes pending. -/
  | plicComplete (h : HartId) (rs : BitVec 5)
  /-- MTIP_CHANGE (R106): TB_RAW reaches a hart's DZTCMP and its MTIP changes. -/
  | mtipChange (h : HartId)
  /-- TAP_INSTRUCTION (R54): The JTAG TAP takes an instruction, which acts as BYPASS where the phase refuses it. -/
  | tapInstruction (c : BitVec 5) (dr : Option (BitVec 64))
  /-- LANE_LBIST_END (R132): A fenced lane's LBIST ends, and the lane becomes Ready or Failed. -/
  | laneLbistEnd (l : LaneId) (pass : Bool)
  /-- COLD_RESUME_DONE (R133): The cold resume ends: all three lanes start from the Cord's pc, and the rejoined lane is Healthy. -/
  | coldResumeDone
  /-- SAFE_STATE_ENTRY (R136): A safe-state decision stops the lanes, discards the Flue, turns the islands off, stops the ports, de-energises the relay and asserts SAFE_N. -/
  | safeStateEntry (cause : Byte)
  /-- LANE_SAFE (R138): The key 0x5346 written to LANE_SAFE requests the safe state. -/
  | laneSafe (who : Requester) (w : Word)
  /-- LANE_ECC_CLR (R141): Writing LANE_ECC.CLR clears the corrected-error counts of the three lanes. -/
  | laneEccClr (who : Requester) (w : Word)
  /-- CORD_PERIOD_EXPIRY (R143): TB_RAW has advanced by CORD_PERIOD since the last seal, and a Cord is requested. -/
  | cordPeriodExpiry
  /-- CORD_SEAL (R146): The harts have stopped and the Cord is sealed: signatures are voted, epochs close, the number is taken and the harts resume. -/
  | cordSeal (a : SigOffer) (b : SigOffer) (c : SigOffer) (ns : Nat)
  /-- ROLLBACK_RESTORE (R157): Once any non-posted access has completed, dirty lines are written back, undo entries restored and the lanes reset and restarted in re-execution. -/
  | rollbackRestore (disagree : Bool) (undoErr : Option Nat)
  /-- REPLAY_TIMEOUT (R162): Re-execution has not reached live time within 4 × CORD_PERIOD, so the module enters the safe state. -/
  | replayTimeout
  /-- CORD_CLR (R167): A write to CORD_CLR clears the Cord engine's peaks or forced-Cord counters. -/
  | cordClr (who : Requester) (w : Word)
  /-- FLUE_RELEASE (R173): A releasable record is taken by its destination, by a DRAM write or by engine acceptance, after its sequence check. -/
  | flueRelease (dest : BitVec 16)
  /-- FLUE_PAIR_NOACK (R174): No pair acknowledgement arrives within 1.5 µs of a seal, so mirrored records are released anyway. -/
  | fluePairNoack
  /-- FLUE_DEST_STALL (R176): A releasable engine-accepted record has waited STALL_TMO, and FLUE_DEST_STALL is raised. -/
  | flueDestStall (dest : BitVec 16)
  /-- FLUE_HELD_ENTRY (R178): A store held for lack of a Flue slot or quota enters the Flue once a release frees room. -/
  | flueHeldEntry
  /-- FLUE_CLR (R194): A write to FLUE_CLR clears the Flue peak or counters. -/
  | flueClr (who : Requester) (w : Word)
  /-- NONPOSTED_ISSUE (R187): A non-posted rack-bus access issues once it is its hart's first request of the interval and its window has drained. -/
  | nonpostedIssue (r : LaneReq)
  /-- ENGINE_SLOT_START (R226): A 400 ns time-division slot of an engine starts and is given to its owner or lent. -/
  | engineSlotStart (e : EngineId)
  /-- RING_HALTED (R209): An uncorrectable error in ring context memory halts the ring. -/
  | ringHalted (r : RingId)
  /-- NOP (R211): The common NOP opcode completes OK, acting as a barrier with FENCE = 1. -/
  | nop (e : EngineId)
  /-- HANDLE_QUERY (R211): HANDLE_QUERY reports whether an outstanding command holds a handle. -/
  | handleQuery (e : EngineId)
  /-- RING_CTX_READ (R219): RING_CMD READ copies a ring context into RING_CTX_D0 to D7. -/
  | ringCtxRead
  /-- RING_CTX_WRITE (R215): RING_CMD WRITE in the Setup phase defines, resizes or retires a ring and zeroes its progress and doorbell word. -/
  | ringCtxWrite
  /-- EVT_RECORD_WRITE (R235): The EVT block writes a raised source's record to its event ring and then presents its PLIC edge. -/
  | evtRecordWrite
  /-- LOCK_ACQUIRE (R238): A read of LOCK_n tries to acquire the lock and returns its word. -/
  | lockAcquire (who : Requester) (n : Fin 1024)
  /-- LOCK_RELEASE (R239): A write of REL = 1 to LOCK_n releases the lock, or raises LOCK_BAD_RELEASE. -/
  | lockRelease (who : Requester) (n : Fin 1024) (w : Word)
  /-- PART_ABANDON (R241): The PART_ABANDON key performs an owner reset, leaving matching locks Free-abandoned. -/
  | partAbandon (who : Requester) (w : Word)
  /-- PART_MON_CLR (R244): PART_MON_CLR clears the monitors of every partition. -/
  | partMonClr (who : Requester) (w : Word)
  /-- TB_PLL_LOST (R247): The time-base PLL loses lock, so PLL_LOST is set and, in Operate, the module enters the safe state. -/
  | tbPllLost
  /-- TB_NT_LATCH (R250): A read of TB_NT_LO latches NT and TB_RAW into the requester's latch. -/
  | tbNtLatch (who : Requester)
  /-- TB_CANCEL (R252): TB_CMD CANCEL cancels a waiting AT command. -/
  | tbCancel (who : Requester)
  /-- TB_SET_INCR (R253): TB_CMD SET_INCR rebases TB_OFS and changes TB_INCR without stepping NT. -/
  | tbSetIncr (who : Requester) (at_ : Bool)
  /-- TB_SET_NT (R253): TB_CMD SET_NT sets NT to a given value at the apply clock. -/
  | tbSetNt (who : Requester) (at_ : Bool)
  /-- TB_ADD_OFS (R253): TB_CMD ADD_OFS adds a signed offset to TB_OFS. -/
  | tbAddOfs (who : Requester) (at_ : Bool)
  /-- TB_AT_APPLY (R252): TB_RAW reaches TB_AT and the waiting command applies. -/
  | tbAtApply
  /-- PTO_FIRE (R256): A pulse generator reaches its target and fires, re-arming or disarming by mode. -/
  | ptoFire (n : Fin 16)
  /-- PTO_PULSE_END (R256): A generator's output pulse ends after WIDTH clocks. -/
  | ptoPulseEnd (n : Fin 16)
  /-- PTO_SETUP_REARM (R271): A Setup-phase write to a generator's registers re-arms it at once with the held values. -/
  | ptoSetupRearm (n : Fin 16)
  /-- SYNC_IN_EDGE (R261): A rising SYNC_IN edge is stamped and, if accepted, arms sync-armed generators and acts as alignment or wake. -/
  | syncInEdge
  /-- TSQ_READ (R266): TSQ_READ moves queued stamps of a port to an output buffer. -/
  | tsqRead
  /-- PTO_ARM (R266): PTO_ARM re-arms or disarms a generator in the Operate phase. -/
  | ptoArm
  /-- CR_MASTER_RX (R279): A returning summation copy arrives whole at the master and is judged valid or not, delivering member slices. -/
  | crMasterRx (n : Fin 3) (ch : Fin 2) (f : List Byte) (ok : Bool)
  /-- CR_MEMBER_RX (R280): A summation copy passes a member, which forwards it cut-through and overwrites its own bytes. -/
  | crMemberRx (n : Fin 3) (ch : Fin 2) (f : List Byte) (ok : Bool)
  /-- CR_RETURN_TIMEOUT (R284): RET_TMO passes at the master with no valid copy, a lost cycle. -/
  | crReturnTimeout (n : Fin 3)
  /-- CR_MEMBER_CYCLE_TIMEOUT (R284): PERIOD + PERIOD / 8 passes at a member without an accepted copy, a lost cycle. -/
  | crMemberCycleTimeout (n : Fin 3)
  /-- CR_ACYC_RX (R286): An acyclic frame arrives at an IN port and is discarded, delivered, forwarded or dropped. -/
  | crAcycRx (n : Fin 3) (ch : Fin 2) (f : List Byte) (ok : Bool)
  /-- CR_ACYC_FORWARD (R286): A buffered acyclic frame is sent out of the OUT port store-and-forward. -/
  | crAcycForward (n : Fin 3) (ch : Fin 2)
  /-- CR_TX_START (R288): The node starts its own acyclic frame inside its acyclic window. -/
  | crTxStart (p : Fin 12)
  /-- CR_TX (R290): CR_TX queues an acyclic frame for the window. -/
  | crTx (p : Fin 12)
  /-- CR_TX_EXPIRY (R290): The acceptance window and AGE further windows pass without a start. -/
  | crTxExpiry (p : Fin 12)
  /-- CR_RX_POST (R290): CR_RX_POST posts a receive buffer on an IN port. -/
  | crRxPost (p : Fin 12)
  /-- CR_STATUS (R289): CR_STATUS copies the ring's status to an output buffer. -/
  | crStatus (p : Fin 12)
  /-- CR_LINK_CHANGE (R293): A car-ring port gains or loses link. -/
  | crLinkChange (p : Fin 12) (up : Bool)
  /-- CR_CLR (R294): CR_CLR_n clears the ring's counters. -/
  | crClr (n : Fin 3) (who : Requester) (w : Word)
  /-- CB_SYNC_RX (R304): A follower takes a valid sync copy, adopts MCN and BC, judges DEV and its bank. -/
  | cbSyncRx (q : Fin 4) (f : List Byte) (ok : Bool)
  /-- CB_SYNC_MISSED (R305): A basic cycle passes without a valid sync; the follower advances on its own or changes state. -/
  | cbSyncMissed
  /-- CB_RELAY (R296): A frame arrives at a backbone port and is relayed cut-through to the other port of its channel. -/
  | cbRelay (q : Fin 4) (f : List Byte) (ok : Bool)
  /-- CB_RELAY_BUFFERED (R297): A frame held behind the node's own frame is relayed whole once the port is free. -/
  | cbRelayBuffered (q : Fin 4)
  /-- CB_DATA_RX (R315): A valid data frame is accepted by WSEQ and handed over as a dataset generation. -/
  | cbDataRx (q : Fin 4) (f : List Byte) (ok : Bool)
  /-- CB_RAW_RX (R316): A raw frame addressed to the node is delivered to a posted buffer. -/
  | cbRawRx (q : Fin 4) (f : List Byte) (ok : Bool)
  /-- CB_IMAGE_FREEZE (R313): The cyclic image of a window freezes 5 µs before the window starts. -/
  | cbImageFreeze (w : Fin 256)
  /-- CB_WINDOW_SEND (R310): An exclusive or sync window starts and the node sends its frames. -/
  | cbWindowSend (w : Fin 256)
  /-- CB_ARB_SEND (R310): After its back-off wait on an idle medium, a node starts an arbitrating frame. -/
  | cbArbSend (ch : Fin 2)
  /-- CB_TX (R320): CB_TX queues a data or raw frame for a window. -/
  | cbTx (q : Fin 4)
  /-- CB_TX_EXPIRY (R314): The bound occurrence or AGE cycles pass without a start. -/
  | cbTxExpiry (q : Fin 4)
  /-- CB_RX_POST (R320): CB_RX_POST posts a raw-frame receive buffer. -/
  | cbRxPost (q : Fin 4)
  /-- CB_SCHED_LOAD (R320): CB_SCHED_LOAD starts loading an image into the inactive bank. -/
  | cbSchedLoad (q : Fin 4)
  /-- CB_SCHED_LOAD_DONE (R320): A bank load finishes its checks and the bank becomes valid. -/
  | cbSchedLoadDone
  /-- CB_ANNOUNCE (R320): CB_ANNOUNCE announces or cancels a bank activation at the time master. -/
  | cbAnnounce (q : Fin 4)
  /-- CB_STATUS (R319): CB_STATUS copies backbone status to an output buffer. -/
  | cbStatus (q : Fin 4)
  /-- CB_LINK_CHANGE (R323): A backbone port gains or loses link. -/
  | cbLinkChange (q : Fin 4) (up : Bool)
  /-- CB_BANK_DATA_WRITE (R324): A write to CB_BANK_DATA stores a bank word and increments WORD. -/
  | cbBankDataWrite (who : Requester) (w : Word)
  /-- CB_CLR (R324): CB_CLR clears the backbone counters. -/
  | cbClr (who : Requester) (w : Word)
  /-- SIG_PUBLISH (R352): SIG_PUBLISH packs, writes and publishes publish datasets. -/
  | sigPublish
  /-- SIG_SNAPSHOT (R352): SIG_SNAPSHOT copies a raw or compiled list, group by group. -/
  | sigSnapshot
  /-- SIG_FORCE (R352): SIG_FORCE forces a slot's value. -/
  | sigForce
  /-- SIG_UNFORCE (R346): SIG_FORCE with UNFORCE = 1 clears a slot's force. -/
  | sigUnforce
  /-- SIG_WATCH (R352): SIG_WATCH waits for a dataset's next generation or freshness change. -/
  | sigWatch
  /-- SIG_WATCH_TIMEOUT (R352): A SIG_WATCH's TMO passes first and it completes TIMEOUT. -/
  | sigWatchTimeout (r : RingId) (p : BitVec 17)
  /-- SIG_BULK_LOAD (R352): SIG_BULK_LOAD publishes up to 262,144 datasets. -/
  | sigBulkLoad
  /-- SIG_REINDEX (R352): SIG_REINDEX takes new DSIDs for datasets to switch. -/
  | sigReindex
  /-- SIG_REINDEX_SWITCH (R352): The reindex switch applies all pairs at one instant and queues clear passes. -/
  | sigReindexSwitch
  /-- SIG_SUB_BUILD (R352): SIG_SUB_BUILD compiles a raw list into a grouped list. -/
  | sigSubBuild
  /-- SIG_STALE_DEADLINE (R344): A dataset's freshness deadline passes without a publication, so it is marked STALE and a stale pass queued. -/
  | sigStaleDeadline (d : BitVec 18)
  /-- SIG_CLR (R355): SIG_CLR clears SIG_DROPS and SIG_PASS. -/
  | sigClr (who : Requester) (w : Word)
  /-- GW_GROUP_CTL (R363): GW_GROUP_CTL enables or disables a group and may set HOLD. -/
  | gwGroupCtl
  /-- GW_CLR (R381): GW_CLR clears GW_RUNS and GW_WAIT. -/
  | gwClr (who : Requester) (w : Word)
  /-- RB_CYCLE_START (R367): A rack-bus cycle of the next window in turn starts, driving address and strobes. -/
  | rbCycleStart (low : Bool)
  /-- RB_CYCLE_RESPONSE (R367): The slave's RB_ACK_N or RB_ERR_N is seen and the strobes are released. -/
  | rbCycleResponse (err : Bool) (data : BitVec 16)
  /-- RB_CYCLE_END (R367): The cycle ends after the response is released, completing its access or cycle. -/
  | rbCycleEnd
  /-- RB_CYCLE_TIMEOUT (R368): TMO passes without a response; the strobes are released and a bus reset follows if the response is stuck. -/
  | rbCycleTimeout
  /-- RB_BUS_RESET_END (R368): The 10 µs RB_RST_N pulse ends and the cycle ends. -/
  | rbBusResetEnd
  /-- RB_RST_WAIT_END (R375): RST_WAIT after releasing RB_RST_N passes, and cycles may start. -/
  | rbRstWaitEnd
  /-- RB_BLOCK_READ (R377): RB_BLOCK_READ reads COUNT cycles from a window. -/
  | rbBlockRead
  /-- RB_BLOCK_WRITE (R377): RB_BLOCK_WRITE writes COUNT cycles to a window. -/
  | rbBlockWrite
  /-- RB_CLR (R382): RB_CLR clears the rack-bridge counters. -/
  | rbClr (who : Requester) (w : Word)
  /-- CYC_OVERRUN (R393): A task's watchdog reaches WDT, stopping its controller or entering the safe state. -/
  | cycOverrun (t : Fin 64)
  /-- CYC_RESTART (R394): CYC_RESTART restarts a controller warm or cold. -/
  | cycRestart
  /-- CYC_STOP (R402): CYC_STOP stops a controller and applies its safe images. -/
  | cycStop
  /-- CYC_FORCE (R398): CYC_FORCE sets, replaces or clears a force entry. -/
  | cycForce
  /-- CYC_STATUS (R401): CYC_STATUS copies a partition's task status. -/
  | cycStatus
  /-- IDLE_WINDOW_END (R400): The idle window ends at the next start less IDLE_GUARD. -/
  | idleWindowEnd
  /-- CYC_CLR (R406): CYC_CLR clears idle, discard and task-time counters. -/
  | cycClr (who : Requester) (w : Word)
  /-- FLD_DOWNLINK_FRAME (R412): Every 8 µs the Field Engine starts a downlink frame to each island. -/
  | fldDownlinkFrame (tests : List IslandId)
  /-- ISLAND_FRAME_APPLY (R411): An island receives a whole valid downlink frame and applies it at the frame's end. -/
  | islandFrameApply (i : IslandId) (done : Bool)
  /-- FLD_UPLINK_FRAME (R411): A valid uplink frame ends and the island's held input record is updated. -/
  | fldUplinkFrame (i : IslandId) (pass : Bool)
  /-- FLD_FRAME_LOST (R410): A slot ends without a valid frame, counting toward a link loss. -/
  | fldFrameLost (i : IslandId) (up : Bool) (arrived : Option (List Byte))
  /-- ISLAND_LINK_LOSS (R415): 24 µs pass without a valid downlink frame, and the island takes its safe state. -/
  | islandLinkLoss (i : IslandId)
  /-- DI_SAMPLE (R417): Every 10 µs an island samples its inputs. -/
  | diSample (i : Fin 24) (mV : List Int) (v : BitVec 16) (cur : BitVec 16) (temp : Byte)
  /-- DI_DEBOUNCE_EXPIRY (R417): A new sampled level has held for DEBOUNCE and becomes the debounced STATE. -/
  | diDebounceExpiry (i : Fin 24) (j : Fin 16)
  /-- DI_VS_CHANGE (R419): VS_DIk has been out of range or back for 1 ms, so VS_LOW or VS_HIGH changes. -/
  | diVsChange (k : Fin 16)
  /-- DIO_SHORT_DETECT (R423): A channel has been in current limit or read low for 50 µs after blanking, setting SHORT. -/
  | dioShortDetect (g : Fin 8) (j : Fin 16) (limit : Option Bool)
  /-- DIO_THERMAL_SHUTDOWN (R423): A channel junction reaches 170 °C and the channel switches off. -/
  | dioThermalShutdown (g : Fin 8) (j : Fin 16)
  /-- DIO_THERMAL_COOL (R424): A shut-down channel cools below 155 °C. -/
  | dioThermalCool (g : Fin 8) (j : Fin 16)
  /-- DIO_RETRY_TIMER (R424): RETRY_DLY after a shutdown passes and the channel turns on again if commanded. -/
  | dioRetryTimer (g : Fin 8) (j : Fin 16)
  /-- DIO_EXT_FEED (R423): An off channel has read high for 1 ms, setting EXT_FEED, or cleared. -/
  | dioExtFeed (g : Fin 8) (j : Fin 16)
  /-- DIO_VDO_LOW (R423): VDOg has been below 18.0 V or back for 1 ms, and VDO_LOW changes. -/
  | dioVdoLow (g : Fin 8)
  /-- DIO_GROUP_OC (R425): The 100 ms average group current crosses 4.0 A or 3.8 A, and GRP_OC changes. -/
  | dioGroupOc (g : Fin 8) (mean : Nat)
  /-- DIO_GROUP_TRIP (R425): Group current above 5.0 A for 10 ms switches the group off. -/
  | dioGroupTrip (g : Fin 8)
  /-- DIO_ONDIAG_MEASURE (R426): An on-period's load-current measurement completes and updates OPEN. -/
  | dioOndiagMeasure (g : Fin 8) (j : Fin 16) (uA : Nat)
  /-- DIO_OFFDIAG_CHECK (R426): An off-period ends and its contact voltage is judged for OPEN. -/
  | dioOffdiagCheck (g : Fin 8) (j : Fin 16) (mV : Int)
  /-- PWM_PERIOD_START (R428): A PWM period starts with the present duty P. -/
  | pwmPeriodStart (g : Fin 8) (j : Fin 16)
  /-- PWM_RAMP_TICK (R429): Every 1 ms each PWM channel's duty moves toward its set point at RAMP. -/
  | pwmRampTick
  /-- FLD_WRITE (R432): FLD_WRITE accepts an output record for an island no task drives. -/
  | fldWrite
  /-- FLD_SET_FUNC (R430): FLD_SET_FUNC changes a channel's settings through three frames. -/
  | fldSetFunc
  /-- FLD_REARM (R432): FLD_REARM re-arms latched channels or a tripped group. -/
  | fldRearm
  /-- FLD_READ (R432): FLD_READ copies an island input record to a buffer. -/
  | fldRead
  /-- FLD_LINK_RESTART (R432): FLD_LINK_RESTART moves a Held link to Loading. -/
  | fldLinkRestart
  /-- FLD_CLR (R436): FLD_CLR clears link fault and CRC counters. -/
  | fldClr (who : Requester) (w : Word)
  /-- AI_RESULT (R452): A channel's decimation chain completes a result. -/
  | aiResult (c : Fin 64) (raw : Int)
  /-- AI_READBACK_WINDOW (R441): A 10 ms window ends and the two paths are compared for MISMATCH. -/
  | aiReadbackWindow (c : Fin 64) (burden : Int) (supply : Int) (head : Byte) (temp : Byte)
  /-- AI_OPEN_LOOP (R442): Supply-path current has been below 0.5 mA or back for 10 ms, so OPEN_LOOP changes. -/
  | aiOpenLoop (c : Fin 64) (uA : Nat)
  /-- AI_COMPLIANCE (R442): Headroom has been below 2.0 V or back for 10 ms, so COMPLIANCE changes. -/
  | aiCompliance (c : Fin 64) (mV : Nat)
  /-- AI_VLP_LOW (R438): VLP has been below 18.0 V or back for 1 ms, so VLP_LOW changes. -/
  | aiVlpLow (i : Fin 32) (mV : Nat)
  /-- AI_SUP_LIMIT (R438): The loop supply enters or leaves current limit. -/
  | aiSupLimit (c : Fin 64) (limit : Bool)
  /-- AI_PARK_WINDOW (R456): A 100 ms multi-drop mean is judged for PARK_DEV. -/
  | aiParkWindow (c : Fin 64) (mean : Int)
  /-- FLD_AI_SYNC (R459): FLD_AI_SYNC makes an alignment event. -/
  | fldAiSync
  /-- FLD_AI_CAPTURE (R459): FLD_AI_CAPTURE copies consecutive results of a channel. -/
  | fldAiCapture
  /-- FLD_FSK_XFER (R459): FLD_FSK_XFER transmits and then receives one FSK reply. -/
  | fldFskXfer
  /-- FSK_TX_END (R455): An FSK transmission ends and the carrier goes off. -/
  | fskTxEnd (c : Fin 64)
  /-- FSK_CARRIER_DETECT (R455): An FSK carrier is detected on a channel. -/
  | fskCarrierDetect (c : Fin 64)
  /-- FSK_CHAR_RX (R455): An 11-bit FSK character is received. -/
  | fskCharRx (c : Fin 64) (b : Byte) (par : Bool) (frm : Bool)
  /-- FSK_RX_END (R455): The carrier is absent for 4 bit times, or RX_MAX characters have arrived, ending a reception. -/
  | fskRxEnd (c : Fin 64) (absent : Bool)
  /-- FSK_RX_TIMEOUT (R459): No carrier appears within RX_TMO, and the transfer completes TIMEOUT. -/
  | fskRxTimeout (c : Fin 64)
  /-- FLD_AI_SYNC_STAT_CLR (R463): FLD_AI_SYNC_STAT.CLR clears SYNCS and MERGED. -/
  | fldAiSyncStatClr (who : Requester) (w : Word)
  /-- SAF_EVALUATION (R465): Every 8 µs both sequencer channels evaluate every enabled block. -/
  | safEvaluation (differ : Bool)
  /-- TPS_PULSE_START (R466): A test-pulse supply switches off at slot start + 256 µs. -/
  | tpsPulseStart (t : Fin 16)
  /-- TPS_PULSE_END (R466): A test-pulse supply switches on again at slot start + 756 µs. -/
  | tpsPulseEnd (t : Fin 16) (stuck : Bool)
  /-- TP_CHECK_END (R468): A check window ends and its samples are judged for TP_FAIL. -/
  | tpCheckEnd (n : Fin 32) (x : Fin 2)
  /-- TPS_OVERLOAD (R469): A supply has been in current limit for 1 ms, setting OVL. -/
  | tpsOverload (t : Fin 16) (limit : Bool)
  /-- SAF_IN_FILT_EXPIRY (R470): A new RAW value has held for IN_FILT and becomes the block level. -/
  | safInFiltExpiry (n : Fin 32) (x : Fin 2)
  /-- SAF_DISCREPANCY (R471): The inputs have disagreed for DISC_TIME. -/
  | safDiscrepancy (n : Fin 32)
  /-- SAF_FEEDBACK_TIMEOUT (R473): Feedback has disagreed with the commanded output for 150 ms. -/
  | safFeedbackTimeout (n : Fin 32) (x : Fin 2)
  /-- SAF_DEG_EXPIRY (R476): The Degraded timer expires and the block trips. -/
  | safDegExpiry (n : Fin 32)
  /-- SAF_RESET (R481): SAF_RESET requests a block's permit or recovery. -/
  | safReset
  /-- SAF_STATUS (R481): SAF_STATUS copies every block's status. -/
  | safStatus
  /-- SAF_CLR (R485): SAF_CLR clears SAF_CNT. -/
  | safClr (who : Requester) (w : Word)
  /-- PAIR_JOIN (R493): The PAIR_JOIN key starts the join and the role decision. -/
  | pairJoin (who : Requester) (w : Word)
  /-- PAIR_JOIN_TIMEOUT (R493): JOIN_TMO passes with no partner heard. -/
  | pairJoinTimeout
  /-- PAIR_LINK_LANE (R486): A pair-link lane comes up after training, or goes down. -/
  | pairLinkLane (lane : Fin 2) (up : Bool)
  /-- PAIR_HEARTBEAT_TX (R502): Every 100 µs a heartbeat is sent on each lane that is up. -/
  | pairHeartbeatTx
  /-- PAIR_HEARTBEAT_RX (R502): A valid heartbeat arrives from the partner. -/
  | pairHeartbeatRx (h : Machine.Heartbeat) (trip : Nat)
  /-- PAIR_HB_LOSS (R502): 510 µs pass without a heartbeat; a Banked module powers its lanes and discards staging. -/
  | pairHbLoss
  /-- PAIR_PRES_WAIT_END (R503): PRES_WAIT passes without a frame from the peer and the takeover is confirmed. -/
  | pairPresWaitEnd
  /-- PAIR_TAKEOVER_RESUME (R504): Lane power-up ends and the lanes cold-resume from the last complete Cord. -/
  | pairTakeoverResume
  /-- PAIR_MIRROR_RX (R497): The partner stages a mirrored write. -/
  | pairMirrorRx (m : Machine.PairMsg)
  /-- PAIR_CLOSE_RX (R497): The partner receives a valid close record, applies the interval and acknowledges. -/
  | pairCloseRx (c : Machine.Carried) (valid : Bool)
  /-- PAIR_CLOSE_ACK_RX (R498): The Active module receives the close-record acknowledgement and opens the mirrored release. -/
  | pairCloseAckRx (k : Nat)
  /-- PAIR_DISCARD_RX (R499): The partner receives a discard mark and drops staging since the last close record. -/
  | pairDiscardRx
  /-- PAIR_COPY_RELAY (R488): The partner sends, or returns, the other channel's summation copy over the pair link. -/
  | pairCopyRelay (n : Fin 3) (back : Bool) (f : List Byte) (ok : Bool)
  /-- PAIR_SWITCH (R513): PAIR_SWITCH requests a planned switch of the Active role. -/
  | pairSwitch
  /-- PAIR_SWITCH_REQUEST_RX (R511): A switch request arrives from the partner, and crossed requests are decided by PREFER. -/
  | pairSwitchRequestRx (ack : Bool)
  /-- PAIR_READY_RX (R509): The partner reports its lanes up, and the switch Cord is requested. -/
  | pairReadyRx
  /-- PAIR_SWITCH_TIMEOUT (R513): READY has not arrived within 10 ms and the switch completes TIMEOUT. -/
  | pairSwitchTimeout
  /-- PAIR_SWITCH_HANDOVER_END (R509): The incoming module's first commits are applied, or 100 ms pass, and the outgoing module becomes Banked. -/
  | pairSwitchHandoverEnd (done : Bool)
  /-- PAIR_REVERT_TIMER (R510): A PREFER unit has been Banked and in step for 10 s and requests a switch to itself. -/
  | pairRevertTimer
  /-- PAIR_STATUS (R512): PAIR_STATUS copies pair status. -/
  | pairStatus
  /-- PAIR_CLR (R517): PAIR_CLR clears pair counters, peaks and maxima. -/
  | pairClr (who : Requester) (w : Word)
  /-- REC_PERIODIC_SAMPLE (R521): A periodic channel's PERIOD elapses and it takes a sample. -/
  | recPeriodicSample (c : BitVec 12)
  /-- REC_SAMPLE_APPLY (R524): A queued sample is binned into its channel and updates the extremes. -/
  | recSampleApply
  /-- REC_FLUSH (R526): Every FLUSH interval the changed channels are written to MRAM through the journal. -/
  | recFlush
  /-- REC_NOTE_CMD (R529): An MP write to REC_NOTE_CMD writes a note record. -/
  | recNoteCmd (who : Requester) (w : Word)
  /-- REC_EXPORT (R531): REC_EXPORT writes channel records to a buffer. -/
  | recExport
  /-- REC_CLEAR (R531): REC_CLEAR clears channels under a new clear generation. -/
  | recClear
  /-- REC_CLR (R535): REC_CLR clears REC_SAMPLES and REC_DROP. -/
  | recClr (who : Requester) (w : Word)
  /-- IST_LBIST_SELECT (R537): Every ROT_PERIOD the MP selects the next lane for LBIST. -/
  | istLbistSelect
  /-- DRAM_SCRUB_READ (R538): The scrubber reads a line in an idle DRAM slot and writes back a correction. -/
  | dramScrubRead
  /-- IST_OFFPULSE_END (R542): An off-pulse ends and the readback is judged. -/
  | istOffpulseEnd
  /-- CAL_AGE_CHECK (R544): Every second the MP judges calibration records for ageing. -/
  | calAgeCheck
  /-- CAL_ISLAND_DONE (R545): An AI or DIO recalibration ends and its new record is written. -/
  | calIslandDone (n : Fin 73)
  /-- MP_LOAD_WINDOW (R547): A 10 ms MP load window ends and the shed level is adjusted. -/
  | mpLoadWindow (load : BitVec 7)
  /-- MP_TELEMETRY (R547): The telemetry period elapses and a datagram is sent. -/
  | mpTelemetry
  /-- MPX_L2M_CMD (R549): A write to MPX_L2M_CMD delivers a lane message to the MP. -/
  | mpxL2mCmd (who : Requester) (w : Word)
  /-- MPX_M2L_CMD (R549): An MP write to MPX_M2L_CMD raises MP_MAILBOX. -/
  | mpxM2lCmd (who : Requester) (w : Word)
  /-- MA_FRAME_RX (R550): A frame arrives at MA0 or MA1 and is handed to the MP with its stamp. -/
  | maFrameRx (port : Fin 2) (f : List Byte)
  /-- IDENT (R551): The maintenance IDENT operation returns the module identity. -/
  | ident (q : Machine.MaintReq)
  /-- READ_REG (R551): The maintenance READ_REG operation returns setup-register words. -/
  | readReg (q : Machine.MaintReq) (off : BitVec 22) (count : Nat)
  /-- NOTES (R551): The maintenance NOTES operation returns note records. -/
  | notes (q : Machine.MaintReq) (first : Word)
  /-- MAINT_REC_EXPORT (R551): The maintenance REC_EXPORT operation returns recorder records. -/
  | maintRecExport (q : Machine.MaintReq) (first : BitVec 12) (count : BitVec 13)
  /-- UNLOCK_REQ (R552): UNLOCK_REQ returns a nonce. -/
  | unlockReq (q : Machine.MaintReq)
  /-- UNLOCK (R552): UNLOCK verifies a signature over the nonce and unlocks maintenance. -/
  | unlock (q : Machine.MaintReq) (slot : Byte) (pub : List Byte) (sig : List Byte)
  /-- UNLOCK_EXPIRY (R552): Ten minutes pass without an unlocked request and UNLOCKED clears. -/
  | unlockExpiry
  /-- READ_MEM (R553): The maintenance READ_MEM operation reads MRAM or DRAM. -/
  | readMem (q : Machine.MaintReq) (addr : BitVec 40) (len : Nat)
  /-- WRITE_REG (R553): The maintenance WRITE_REG operation writes a setup register as the MP. -/
  | writeReg (q : Machine.MaintReq) (off : BitVec 22) (w : Word)
  /-- MAINT_REC_CLEAR (R553): The maintenance REC_CLEAR operation clears recorder channels. -/
  | maintRecClear (q : Machine.MaintReq) (first : BitVec 12) (count : BitVec 13)
  /-- FW_WRITE (R553): FW_WRITE writes bytes into the inactive bank. -/
  | fwWrite (q : Machine.MaintReq) (bank : Byte) (off : Word) (bs : List Byte)
  /-- FW_TRIAL (R553): FW_TRIAL checks a bank and writes a trial boot record. -/
  | fwTrial (q : Machine.MaintReq) (bank : Byte)
  /-- DEBUG_EN (R555): DEBUG_EN sets or clears MPX_DBG.EN in the Setup phase. -/
  | debugEn (q : Machine.MaintReq) (on : Bool)
  /-- MAINT_RESET (R551): The maintenance RESET operation replies and resets with cause SW_MP. -/
  | maintReset (q : Machine.MaintReq)
  /-- CONSOLE_COMMAND (R554): The console accepts a text IDENT, READ_REG or NOTES request. -/
  | consoleCommand (op : Machine.ConsoleOp)
  /-- IST_CLR (R561): IST_CLR clears the in-service test counters. -/
  | istClr (who : Requester) (w : Word)
  /-- IMG_LOAD_START (R567): The load key written to SYS_IMG_CMD starts an image load. -/
  | imgLoadStart (who : Requester) (w : Word)
  /-- IMG_LOAD_END (R567): The image load finishes its check and apply phases, and is accepted or fails with ERR. -/
  | imgLoadEnd
  /-- ENERGY_DETECT (R83): In E2 or E3, energy appears on a network port whose energy-detect wake is enabled, and wake source 0x06 latches. -/
  | energyDetect (port : Fin 17)
  /-- VS_SAF_LOW (R469): VS_SAFs has stayed below 18.0 V for 1 ms, or at or above 18.5 V for 1 ms, so VS_LOW of the safety island changes and the block channels fed by it become faulty. -/
  | vsSafLow (k : Fin 2) (mV : BitVec 16) (temp : Byte)
  /-- OT_WARN_REARM (R68): The hottest die sensor reads below 110 °C, which arms the over-temperature warning again. -/
  | otWarnRearm (t : Byte)
  /-- TX_FRAME_END (R290): The last byte of the node's own car-ring or backbone frame leaves its port, and the CR_TX or CB_TX command completes OK. -/
  | txFrameEnd (p : Fin 16)
deriving DecidableEq, Repr

end Sys2Proof
end

