-- ==== Sys2Proof/Config.lean ====
section
/-!
DEFINITION. What a part fixes and what the spec leaves open. A constant without a body is a free value: nothing can be
proved of it but what holds of every value.
-/

namespace Sys2Proof
namespace Config

/-- A free value: the module produces some 64-bit value that the spec does not state. State.freeCtr counts the values
drawn, so each draw is a value of its own. -/
opaque freeValue : Nat → DWord

/-- The address that manufacture gives maintenance port k (R551): a free value of the part. -/
opaque maMac : Nat → BitVec 48

/-- Tinder ROM, by offset: what the part's mask holds (Table 21-5). -/
opaque tinderRom : Nat → BitVec 8

/-- Dwezia's manufacturer identity in the IDCODE register (R54): stated by the file that ships with each silicon step. -/
opaque jtagMaker : BitVec 11

/-- Byte k of a barrier frame's content that the spec leaves "internal to the module" (R409, R445, R540): some function of
what the content stands for. -/
opaque barrierByte : List Nat → Nat → BitVec 8

/-- Where a part's falling threshold lies within the bounds of Table 16-7, and how far its rising threshold lies above the least
hysteresis, by input stage: free values of the part. -/
opaque diFall : Nat → Nat
/-- [DESIGN CHOICE, unsafe: notes/assumptions/91.md] -/
opaque diRise : Nat → Nat

/-- The correction of a current-loop result by the DATA of its channel's calibration record, for the burden path (0) or the supply
path (1): the record's encoding is internal to the module (R440, Table 21-2). -/
opaque calibrated : List (BitVec 8) → Nat → Int → Int

/-- mvendorid, marchid, mimpid and mhartid of the MP, by CSR number (R97). -/
opaque mpIdent : Nat → BitVec 32

end Config
end Sys2Proof
end

