-- ==== Sys2Proof/Machine/RegMap.lean ====
section
/-!
DEFINITION. The setup-register map: for every register of the spec's register tables (22_setup_registers_and_image.md
R563, Table 22-1) its offset from 0x00_4000_0000, its fields, and the kind of each of its bits (R11 of 00_scope.md:
RO, RW, RWL, WO, W1C, W1S), with the reset value the tables give. `Reg.X` is a register's offset, `F.X_Y` its field Y.
Arrays of registers take their indices as arguments.
-/

namespace Sys2Proof
namespace Machine

namespace Reg

/-- RAT_BASE, R22 (Table 1-7 Region attribute entry n). -/
def RAT_BASE (i : Nat) : Nat := 0x00400 + 0x10 * i
/-- RAT_LIMIT, R22 (Table 1-7 Region attribute entry n). -/
def RAT_LIMIT (i : Nat) : Nat := 0x00404 + 0x10 * i
/-- RAT_CTL, R22 (Table 1-7 Region attribute entry n). -/
def RAT_CTL (i : Nat) : Nat := 0x00408 + 0x10 * i
/-- RAT_RSV, R22 (Table 1-7 Region attribute entry n). -/
def RAT_RSV (i : Nat) : Nat := 0x0040C + 0x10 * i
/-- SYS_ID, R28 (Table 1-10 SYS identification and phase registers). -/
def SYS_ID : Nat := 0x00000
/-- SYS_STEP, R28 (Table 1-10 SYS identification and phase registers). -/
def SYS_STEP : Nat := 0x00004
/-- SYS_PHASE, R28 (Table 1-10 SYS identification and phase registers). -/
def SYS_PHASE : Nat := 0x00010
/-- SYS_LOCK, R28 (Table 1-10 SYS identification and phase registers). -/
def SYS_LOCK : Nat := 0x00014
/-- SYS_STRAP, R61 (Table 2-13 SYS_STRAP). -/
def SYS_STRAP : Nat := 0x00020
/-- PWR_STAT, R87 (Table 3-13 PWR registers). -/
def PWR_STAT : Nat := 0x10000
/-- PWR_PL, R87 (Table 3-13 PWR registers). -/
def PWR_PL : Nat := 0x10004
/-- PWR_MODE, R87 (Table 3-13 PWR registers). -/
def PWR_MODE : Nat := 0x10008
/-- PWR_EMBER_CFG, R87 (Table 3-13 PWR registers). -/
def PWR_EMBER_CFG : Nat := 0x1000C
/-- PWR_SAVE, R87 (Table 3-13 PWR registers). -/
def PWR_SAVE : Nat := 0x10010
/-- PWR_EMBER_STAT, R87 (Table 3-13 PWR registers). -/
def PWR_EMBER_STAT : Nat := 0x10014
/-- WAKE_EN, R87 (Table 3-13 PWR registers). -/
def WAKE_EN : Nat := 0x10018
/-- WAKE_SRC, R87 (Table 3-13 PWR registers). -/
def WAKE_SRC : Nat := 0x1001C
/-- WAKE_PEND, R87 (Table 3-13 PWR registers). -/
def WAKE_PEND : Nat := 0x10020
/-- PWR_RTC_LO, R87 (Table 3-13 PWR registers). -/
def PWR_RTC_LO : Nat := 0x10024
/-- PWR_RTC_HI, R87 (Table 3-13 PWR registers). -/
def PWR_RTC_HI : Nat := 0x10028
/-- PWR_ALARM_LO, R87 (Table 3-13 PWR registers). -/
def PWR_ALARM_LO : Nat := 0x1002C
/-- PWR_ALARM_HI, R87 (Table 3-13 PWR registers). -/
def PWR_ALARM_HI : Nat := 0x10030
/-- PWR_RTC_ENTRY_LO, R87 (Table 3-13 PWR registers). -/
def PWR_RTC_ENTRY_LO : Nat := 0x10034
/-- PWR_RTC_ENTRY_HI, R87 (Table 3-13 PWR registers). -/
def PWR_RTC_ENTRY_HI : Nat := 0x10038
/-- PWR_RTC_WAKE_LO, R87 (Table 3-13 PWR registers). -/
def PWR_RTC_WAKE_LO : Nat := 0x1003C
/-- PWR_RTC_WAKE_HI, R87 (Table 3-13 PWR registers). -/
def PWR_RTC_WAKE_HI : Nat := 0x10040
/-- LP_STAT, R87 (Table 3-13 PWR registers). -/
def LP_STAT : Nat := 0x10044
/-- PWR_MPWAKE, R87 (Table 3-13 PWR registers). -/
def PWR_MPWAKE : Nat := 0x10048
/-- SYS_RSTCAUSE, R88 (Table 3-14 SYS reset, boot and clock registers). -/
def SYS_RSTCAUSE : Nat := 0x00040
/-- SYS_RESET, R88 (Table 3-14 SYS reset, boot and clock registers). -/
def SYS_RESET : Nat := 0x00044
/-- SYS_BOOT, R88 (Table 3-14 SYS reset, boot and clock registers). -/
def SYS_BOOT : Nat := 0x00048
/-- SYS_FWVER, R88 (Table 3-14 SYS reset, boot and clock registers). -/
def SYS_FWVER : Nat := 0x0004C
/-- SYS_CLK, R88 (Table 3-14 SYS reset, boot and clock registers). -/
def SYS_CLK : Nat := 0x00050
/-- LANE_CFG, R141 (Table 5-12 LANE registers). -/
def LANE_CFG : Nat := 0x20000
/-- LANE_STAT, R141 (Table 5-12 LANE registers). -/
def LANE_STAT : Nat := 0x20004
/-- LANE_FAULT, R141 (Table 5-12 LANE registers). -/
def LANE_FAULT : Nat := 0x20008
/-- LANE_FADDR_LO, R141 (Table 5-12 LANE registers). -/
def LANE_FADDR_LO : Nat := 0x2000C
/-- LANE_FADDR_HI, R141 (Table 5-12 LANE registers). -/
def LANE_FADDR_HI : Nat := 0x20010
/-- LANE_FCNT, R141 (Table 5-12 LANE registers). -/
def LANE_FCNT : Nat := 0x20014
/-- LANE_RBCNT, R141 (Table 5-12 LANE registers). -/
def LANE_RBCNT : Nat := 0x20018
/-- LANE_ECC, R141 (Table 5-12 LANE registers). -/
def LANE_ECC : Nat := 0x2001C
/-- LANE_ECC_THR, R141 (Table 5-12 LANE registers). -/
def LANE_ECC_THR : Nat := 0x20020
/-- LANE_SAFE, R141 (Table 5-12 LANE registers). -/
def LANE_SAFE : Nat := 0x20024
/-- LANE_REINT, R141 (Table 5-12 LANE registers). -/
def LANE_REINT : Nat := 0x20028
/-- LANE_SAFECAUSE, R141 (Table 5-12 LANE registers). -/
def LANE_SAFECAUSE : Nat := 0x2002C
/-- CORD_PERIOD, R167 (Table 6-11 CORD registers of the Cord engine). -/
def CORD_PERIOD : Nat := 0x30000
/-- CORD_CFG, R167 (Table 6-11 CORD registers of the Cord engine). -/
def CORD_CFG : Nat := 0x30004
/-- CORD_STAT, R167 (Table 6-11 CORD registers of the Cord engine). -/
def CORD_STAT : Nat := 0x30008
/-- CORD_LAST_LO, R167 (Table 6-11 CORD registers of the Cord engine). -/
def CORD_LAST_LO : Nat := 0x3000C
/-- CORD_LAST_HI, R167 (Table 6-11 CORD registers of the Cord engine). -/
def CORD_LAST_HI : Nat := 0x30010
/-- CORD_SEAL_RAW_LO, R167 (Table 6-11 CORD registers of the Cord engine). -/
def CORD_SEAL_RAW_LO : Nat := 0x30014
/-- CORD_SEAL_RAW_HI, R167 (Table 6-11 CORD registers of the Cord engine). -/
def CORD_SEAL_RAW_HI : Nat := 0x30018
/-- CORD_UNDO, R167 (Table 6-11 CORD registers of the Cord engine). -/
def CORD_UNDO : Nat := 0x3001C
/-- CORD_INLOG_USED, R167 (Table 6-11 CORD registers of the Cord engine). -/
def CORD_INLOG_USED : Nat := 0x30020
/-- CORD_INLOG_PEAK, R167 (Table 6-11 CORD registers of the Cord engine). -/
def CORD_INLOG_PEAK : Nat := 0x30024
/-- CORD_SEALTIME, R167 (Table 6-11 CORD registers of the Cord engine). -/
def CORD_SEALTIME : Nat := 0x30028
/-- CORD_FCNT, R167 (Table 6-11 CORD registers of the Cord engine). -/
def CORD_FCNT : Nat := 0x3002C
/-- CORD_RB, R167 (Table 6-11 CORD registers of the Cord engine). -/
def CORD_RB : Nat := 0x30030
/-- CORD_RB_TO_LO, R167 (Table 6-11 CORD registers of the Cord engine). -/
def CORD_RB_TO_LO : Nat := 0x30034
/-- CORD_RB_TO_HI, R167 (Table 6-11 CORD registers of the Cord engine). -/
def CORD_RB_TO_HI : Nat := 0x30038
/-- CORD_CLR, R167 (Table 6-11 CORD registers of the Cord engine). -/
def CORD_CLR : Nat := 0x3003C
/-- FLUE_STAT, R194 (Table 7-8 CORD registers of the Flue). -/
def FLUE_STAT : Nat := 0x30100
/-- FLUE_CFG, R194 (Table 7-8 CORD registers of the Flue). -/
def FLUE_CFG : Nat := 0x30104
/-- FLUE_PEAK, R194 (Table 7-8 CORD registers of the Flue). -/
def FLUE_PEAK : Nat := 0x30108
/-- FLUE_DISC, R194 (Table 7-8 CORD registers of the Flue). -/
def FLUE_DISC : Nat := 0x3010C
/-- FLUE_SAFEDISC, R194 (Table 7-8 CORD registers of the Flue). -/
def FLUE_SAFEDISC : Nat := 0x30110
/-- FLUE_FCNT, R194 (Table 7-8 CORD registers of the Flue). -/
def FLUE_FCNT : Nat := 0x30114
/-- FLUE_DUP, R194 (Table 7-8 CORD registers of the Flue). -/
def FLUE_DUP : Nat := 0x30118
/-- FLUE_STALL, R194 (Table 7-8 CORD registers of the Flue). -/
def FLUE_STALL : Nat := 0x3011C
/-- FLUE_SEQSEL, R194 (Table 7-8 CORD registers of the Flue). -/
def FLUE_SEQSEL : Nat := 0x30120
/-- FLUE_SEQ_SEALED, R194 (Table 7-8 CORD registers of the Flue). -/
def FLUE_SEQ_SEALED : Nat := 0x30124
/-- FLUE_SEQ_RELEASED, R194 (Table 7-8 CORD registers of the Flue). -/
def FLUE_SEQ_RELEASED : Nat := 0x30128
/-- FLUE_CLR, R194 (Table 7-8 CORD registers of the Flue). -/
def FLUE_CLR : Nat := 0x3012C
/-- FLUE_QUOTA, R194 (Table 7-8 CORD registers of the Flue). -/
def FLUE_QUOTA (i : Nat) : Nat := 0x30400 + 0x4 * i
/-- RING_DB_BASE, R219 (Table 8-16 RING registers). -/
def RING_DB_BASE : Nat := 0x40000
/-- RING_CTX_SEL, R219 (Table 8-16 RING registers). -/
def RING_CTX_SEL : Nat := 0x40004
/-- RING_CMD, R219 (Table 8-16 RING registers). -/
def RING_CMD : Nat := 0x40008
/-- RING_STAT, R219 (Table 8-16 RING registers). -/
def RING_STAT : Nat := 0x4000C
/-- RING_DB_ERR, R219 (Table 8-16 RING registers). -/
def RING_DB_ERR : Nat := 0x40010
/-- RING_DB_ERRCNT, R219 (Table 8-16 RING registers). -/
def RING_DB_ERRCNT : Nat := 0x40014
/-- RING_CTX_D, R219 (Table 8-16 RING registers). -/
def RING_CTX_D (i : Nat) : Nat := 0x40020 + 0x4 * i
/-- PE_RINGS, R222 (Table 9-1 Partition entry p). -/
def PE_RINGS (i : Nat) : Nat := 0x52000 + 0x20 * i
/-- PE_EVQ01, R222 (Table 9-1 Partition entry p). -/
def PE_EVQ01 (i : Nat) : Nat := 0x52004 + 0x20 * i
/-- PE_EVQ23, R222 (Table 9-1 Partition entry p). -/
def PE_EVQ23 (i : Nat) : Nat := 0x52008 + 0x20 * i
/-- PE_CTL, R222 (Table 9-1 Partition entry p). -/
def PE_CTL (i : Nat) : Nat := 0x5200C + 0x20 * i
/-- PE_LOCKS, R222 (Table 9-1 Partition entry p). -/
def PE_LOCKS (i : Nat) : Nat := 0x52010 + 0x20 * i
/-- PE_SIGMAP, R222 (Table 9-1 Partition entry p). -/
def PE_SIGMAP (i : Nat) : Nat := 0x52014 + 0x20 * i
/-- PE_UNDO_DECL, R222 (Table 9-1 Partition entry p). -/
def PE_UNDO_DECL (i : Nat) : Nat := 0x52018 + 0x20 * i
/-- PE_INLOG_DECL, R222 (Table 9-1 Partition entry p). -/
def PE_INLOG_DECL (i : Nat) : Nat := 0x5201C + 0x20 * i
/-- PART_CFG, R244 (Table 9-9 PART registers). -/
def PART_CFG : Nat := 0x50000
/-- PART_STAT, R244 (Table 9-9 PART registers). -/
def PART_STAT : Nat := 0x50004
/-- PART_ABANDON, R244 (Table 9-9 PART registers). -/
def PART_ABANDON : Nat := 0x50008
/-- PART_MON_SEL, R244 (Table 9-9 PART registers). -/
def PART_MON_SEL : Nat := 0x5000C
/-- PART_MON_DRAM, R244 (Table 9-9 PART registers). -/
def PART_MON_DRAM : Nat := 0x50010
/-- PART_MON_SPARE, R244 (Table 9-9 PART registers). -/
def PART_MON_SPARE : Nat := 0x50014
/-- PART_MON_UNDO, R244 (Table 9-9 PART registers). -/
def PART_MON_UNDO : Nat := 0x50018
/-- PART_MON_INLOG, R244 (Table 9-9 PART registers). -/
def PART_MON_INLOG : Nat := 0x5001C
/-- PART_MON_EVT, R244 (Table 9-9 PART registers). -/
def PART_MON_EVT : Nat := 0x50020
/-- PART_MON_CLR, R244 (Table 9-9 PART registers). -/
def PART_MON_CLR : Nat := 0x50024
/-- PART_LOCKERR, R244 (Table 9-9 PART registers). -/
def PART_LOCKERR : Nat := 0x50028
/-- LOCK, R244 (Table 9-9 PART registers). -/
def LOCK (i : Nat) : Nat := 0x54000 + 0x4 * i
/-- ENG_SCHED, R244 (Table 9-9 PART registers). -/
def ENG_SCHED (i : Nat) (j : Nat) : Nat := 0x58000 + 0x200 * i + 0x4 * j
/-- EVT_ROUTE, R245 (Table 9-10 EVT registers). -/
def EVT_ROUTE (i : Nat) : Nat := 0x60000 + 0x4 * i
/-- EVT_STAT, R245 (Table 9-10 EVT registers). -/
def EVT_STAT : Nat := 0x60800
/-- EVT_DROP, R245 (Table 9-10 EVT registers). -/
def EVT_DROP : Nat := 0x60804
/-- EVT_RAISED, R245 (Table 9-10 EVT registers). -/
def EVT_RAISED : Nat := 0x60808
/-- TB_CFG, R271 (Table 10-12 TB registers). -/
def TB_CFG : Nat := 0x70000
/-- TB_STAT, R271 (Table 10-12 TB registers). -/
def TB_STAT : Nat := 0x70004
/-- TB_NT_LO, R271 (Table 10-12 TB registers). -/
def TB_NT_LO : Nat := 0x70010
/-- TB_NT_HI, R271 (Table 10-12 TB registers). -/
def TB_NT_HI : Nat := 0x70014
/-- TB_NT_FRAC, R271 (Table 10-12 TB registers). -/
def TB_NT_FRAC : Nat := 0x70018
/-- TB_LRAW_LO, R271 (Table 10-12 TB registers). -/
def TB_LRAW_LO : Nat := 0x7001C
/-- TB_LRAW_HI, R271 (Table 10-12 TB registers). -/
def TB_LRAW_HI : Nat := 0x70020
/-- TB_INCR_LO, R271 (Table 10-12 TB registers). -/
def TB_INCR_LO : Nat := 0x70024
/-- TB_INCR_HI, R271 (Table 10-12 TB registers). -/
def TB_INCR_HI : Nat := 0x70028
/-- TB_OFS_FRAC, R271 (Table 10-12 TB registers). -/
def TB_OFS_FRAC : Nat := 0x7002C
/-- TB_OFS_LO, R271 (Table 10-12 TB registers). -/
def TB_OFS_LO : Nat := 0x70030
/-- TB_OFS_HI, R271 (Table 10-12 TB registers). -/
def TB_OFS_HI : Nat := 0x70034
/-- TB_W0, R271 (Table 10-12 TB registers). -/
def TB_W0 : Nat := 0x70040
/-- TB_W1, R271 (Table 10-12 TB registers). -/
def TB_W1 : Nat := 0x70044
/-- TB_W2, R271 (Table 10-12 TB registers). -/
def TB_W2 : Nat := 0x70048
/-- TB_AT_LO, R271 (Table 10-12 TB registers). -/
def TB_AT_LO : Nat := 0x7004C
/-- TB_AT_HI, R271 (Table 10-12 TB registers). -/
def TB_AT_HI : Nat := 0x70050
/-- TB_CMD, R271 (Table 10-12 TB registers). -/
def TB_CMD : Nat := 0x70054
/-- TB_APPLY_RAW_LO, R271 (Table 10-12 TB registers). -/
def TB_APPLY_RAW_LO : Nat := 0x70058
/-- TB_APPLY_RAW_HI, R271 (Table 10-12 TB registers). -/
def TB_APPLY_RAW_HI : Nat := 0x7005C
/-- TB_SYNC_OUT, R271 (Table 10-12 TB registers). -/
def TB_SYNC_OUT : Nat := 0x70060
/-- TB_SYNC_IN, R271 (Table 10-12 TB registers). -/
def TB_SYNC_IN : Nat := 0x70064
/-- TB_SYNCIN_LO, R271 (Table 10-12 TB registers). -/
def TB_SYNCIN_LO : Nat := 0x70068
/-- TB_SYNCIN_HI, R271 (Table 10-12 TB registers). -/
def TB_SYNCIN_HI : Nat := 0x7006C
/-- TB_SYNCIN_FRAC, R271 (Table 10-12 TB registers). -/
def TB_SYNCIN_FRAC : Nat := 0x70070
/-- TB_SYNCIN_CNT, R271 (Table 10-12 TB registers). -/
def TB_SYNCIN_CNT : Nat := 0x70074
/-- TB_TSQ_OVF, R271 (Table 10-12 TB registers). -/
def TB_TSQ_OVF : Nat := 0x70078
/-- PTO_CTL, R271 (Table 10-12 TB registers). -/
def PTO_CTL (i : Nat) : Nat := 0x70100 + 0x20 * i
/-- PTO_TGT_LO, R271 (Table 10-12 TB registers). -/
def PTO_TGT_LO (i : Nat) : Nat := 0x70104 + 0x20 * i
/-- PTO_TGT_HI, R271 (Table 10-12 TB registers). -/
def PTO_TGT_HI (i : Nat) : Nat := 0x70108 + 0x20 * i
/-- PTO_PER_LO, R271 (Table 10-12 TB registers). -/
def PTO_PER_LO (i : Nat) : Nat := 0x7010C + 0x20 * i
/-- PTO_PER_HI, R271 (Table 10-12 TB registers). -/
def PTO_PER_HI (i : Nat) : Nat := 0x70110 + 0x20 * i
/-- PTO_STAT, R271 (Table 10-12 TB registers). -/
def PTO_STAT (i : Nat) : Nat := 0x70114 + 0x20 * i
/-- PTO_NEXT_LO, R271 (Table 10-12 TB registers). -/
def PTO_NEXT_LO (i : Nat) : Nat := 0x70118 + 0x20 * i
/-- PTO_NEXT_HI, R271 (Table 10-12 TB registers). -/
def PTO_NEXT_HI (i : Nat) : Nat := 0x7011C + 0x20 * i
/-- TB_TSQ_CFG, R271 (Table 10-12 TB registers). -/
def TB_TSQ_CFG (i : Nat) : Nat := 0x70300 + 0x4 * i
/-- TB_TSQ_STAT, R271 (Table 10-12 TB registers). -/
def TB_TSQ_STAT (i : Nat) : Nat := 0x70380 + 0x4 * i
/-- CR_SLC, R275 (Table 11-3). -/
def CR_SLC (i : Nat) (j : Nat) : Nat := 0x81000 + 0x800 * i + 0x8 * j
/-- CR_SLD, R275 (Table 11-3). -/
def CR_SLD (i : Nat) (j : Nat) : Nat := 0x81004 + 0x800 * i + 0x8 * j
/-- CR_STAT, R294 (Table 11-14 CR registers). -/
def CR_STAT : Nat := 0x80000
/-- CR_CFG, R294 (Table 11-14 CR registers). -/
def CR_CFG (i : Nat) : Nat := 0x80100 + 0x100 * i
/-- CR_ETYPE, R294 (Table 11-14 CR registers). -/
def CR_ETYPE (i : Nat) : Nat := 0x80104 + 0x100 * i
/-- CR_PERIOD, R294 (Table 11-14 CR registers). -/
def CR_PERIOD (i : Nat) : Nat := 0x80108 + 0x100 * i
/-- CR_MASTER, R294 (Table 11-14 CR registers). -/
def CR_MASTER (i : Nat) : Nat := 0x8010C + 0x100 * i
/-- CR_LEN, R294 (Table 11-14 CR registers). -/
def CR_LEN (i : Nat) : Nat := 0x80110 + 0x100 * i
/-- CR_DA_LO, R294 (Table 11-14 CR registers). -/
def CR_DA_LO (i : Nat) : Nat := 0x80114 + 0x100 * i
/-- CR_DA_HI, R294 (Table 11-14 CR registers). -/
def CR_DA_HI (i : Nat) : Nat := 0x80118 + 0x100 * i
/-- CR_ACYC, R294 (Table 11-14 CR registers). -/
def CR_ACYC (i : Nat) : Nat := 0x8011C + 0x100 * i
/-- CR_STATE, R294 (Table 11-14 CR registers). -/
def CR_STATE (i : Nat) : Nat := 0x80120 + 0x100 * i
/-- CR_CYCLE, R294 (Table 11-14 CR registers). -/
def CR_CYCLE (i : Nat) : Nat := 0x80124 + 0x100 * i
/-- CR_MISSED, R294 (Table 11-14 CR registers). -/
def CR_MISSED (i : Nat) : Nat := 0x80128 + 0x100 * i
/-- CR_RTT, R294 (Table 11-14 CR registers). -/
def CR_RTT (i : Nat) : Nat := 0x8012C + 0x100 * i
/-- CR_CLR, R294 (Table 11-14 CR registers). -/
def CR_CLR (i : Nat) : Nat := 0x80130 + 0x100 * i
/-- CR_MAC_LO, R294 (Table 11-14 CR registers). -/
def CR_MAC_LO (i : Nat) : Nat := 0x80134 + 0x100 * i
/-- CR_MAC_HI, R294 (Table 11-14 CR registers). -/
def CR_MAC_HI (i : Nat) : Nat := 0x80138 + 0x100 * i
/-- CR_PORT_00, R294 (Table 11-14 CR registers). -/
def CR_PORT_00 (i : Nat) : Nat := 0x80400 + 0x20 * i
/-- CR_PORT_04, R294 (Table 11-14 CR registers). -/
def CR_PORT_04 (i : Nat) : Nat := 0x80404 + 0x20 * i
/-- CR_PORT_08, R294 (Table 11-14 CR registers). -/
def CR_PORT_08 (i : Nat) : Nat := 0x80408 + 0x20 * i
/-- CR_PORT_0C, R294 (Table 11-14 CR registers). -/
def CR_PORT_0C (i : Nat) : Nat := 0x8040C + 0x20 * i
/-- CR_PORT_10, R294 (Table 11-14 CR registers). -/
def CR_PORT_10 (i : Nat) : Nat := 0x80410 + 0x20 * i
/-- CR_PORT_14, R294 (Table 11-14 CR registers). -/
def CR_PORT_14 (i : Nat) : Nat := 0x80414 + 0x20 * i
/-- CR_PORT_18, R294 (Table 11-14 CR registers). -/
def CR_PORT_18 (i : Nat) : Nat := 0x80418 + 0x20 * i
/-- CR_PORT_1C, R294 (Table 11-14 CR registers). -/
def CR_PORT_1C (i : Nat) : Nat := 0x8041C + 0x20 * i
/-- CR_MISS, R294 (Table 11-14 CR registers). -/
def CR_MISS (i : Nat) (j : Nat) : Nat := 0x80800 + 0x80 * i + 0x4 * j
/-- CB_STAT, R324 (Table 12-17 CB registers). -/
def CB_STAT : Nat := 0x90000
/-- CB_CFG, R324 (Table 12-17 CB registers). -/
def CB_CFG : Nat := 0x90004
/-- CB_BC, R324 (Table 12-17 CB registers). -/
def CB_BC : Nat := 0x90008
/-- CB_ETYPE, R324 (Table 12-17 CB registers). -/
def CB_ETYPE : Nat := 0x9000C
/-- CB_DA_LO, R324 (Table 12-17 CB registers). -/
def CB_DA_LO : Nat := 0x90010
/-- CB_DA_HI, R324 (Table 12-17 CB registers). -/
def CB_DA_HI : Nat := 0x90014
/-- CB_MAC_LO, R324 (Table 12-17 CB registers). -/
def CB_MAC_LO : Nat := 0x90018
/-- CB_MAC_HI, R324 (Table 12-17 CB registers). -/
def CB_MAC_HI : Nat := 0x9001C
/-- CB_SPAN, R324 (Table 12-17 CB registers). -/
def CB_SPAN : Nat := 0x90020
/-- CB_SYNCCHK, R324 (Table 12-17 CB registers). -/
def CB_SYNCCHK : Nat := 0x90024
/-- CB_ARB, R324 (Table 12-17 CB registers). -/
def CB_ARB : Nat := 0x90028
/-- CB_GRP_LO, R324 (Table 12-17 CB registers). -/
def CB_GRP_LO : Nat := 0x9002C
/-- CB_GRP_HI, R324 (Table 12-17 CB registers). -/
def CB_GRP_HI : Nat := 0x90030
/-- CB_BANK_ADDR, R324 (Table 12-17 CB registers). -/
def CB_BANK_ADDR : Nat := 0x90034
/-- CB_BANK_DATA, R324 (Table 12-17 CB registers). -/
def CB_BANK_DATA : Nat := 0x90038
/-- CB_BANKS, R324 (Table 12-17 CB registers). -/
def CB_BANKS : Nat := 0x9003C
/-- CB_ID0, R324 (Table 12-17 CB registers). -/
def CB_ID0 : Nat := 0x90040
/-- CB_ID1, R324 (Table 12-17 CB registers). -/
def CB_ID1 : Nat := 0x90044
/-- CB_ANN_ID, R324 (Table 12-17 CB registers). -/
def CB_ANN_ID : Nat := 0x90048
/-- CB_ACT_MCN, R324 (Table 12-17 CB registers). -/
def CB_ACT_MCN : Nat := 0x9004C
/-- CB_MCN, R324 (Table 12-17 CB registers). -/
def CB_MCN : Nat := 0x90050
/-- CB_POS, R324 (Table 12-17 CB registers). -/
def CB_POS : Nat := 0x90054
/-- CB_SYNCDEV, R324 (Table 12-17 CB registers). -/
def CB_SYNCDEV : Nat := 0x90058
/-- CB_CNT, R324 (Table 12-17 CB registers). -/
def CB_CNT : Nat := 0x9005C
/-- CB_CLR, R324 (Table 12-17 CB registers). -/
def CB_CLR : Nat := 0x90060
/-- CB_PORT_00, R324 (Table 12-17 CB registers). -/
def CB_PORT_00 (i : Nat) : Nat := 0x90400 + 0x20 * i
/-- CB_PORT_04, R324 (Table 12-17 CB registers). -/
def CB_PORT_04 (i : Nat) : Nat := 0x90404 + 0x20 * i
/-- CB_PORT_08, R324 (Table 12-17 CB registers). -/
def CB_PORT_08 (i : Nat) : Nat := 0x90408 + 0x20 * i
/-- CB_PORT_0C, R324 (Table 12-17 CB registers). -/
def CB_PORT_0C (i : Nat) : Nat := 0x9040C + 0x20 * i
/-- CB_PORT_10, R324 (Table 12-17 CB registers). -/
def CB_PORT_10 (i : Nat) : Nat := 0x90410 + 0x20 * i
/-- CB_PORT_14, R324 (Table 12-17 CB registers). -/
def CB_PORT_14 (i : Nat) : Nat := 0x90414 + 0x20 * i
/-- CB_PORT_18, R324 (Table 12-17 CB registers). -/
def CB_PORT_18 (i : Nat) : Nat := 0x90418 + 0x20 * i
/-- CB_PORT_1C, R324 (Table 12-17 CB registers). -/
def CB_PORT_1C (i : Nat) : Nat := 0x9041C + 0x20 * i
/-- SIG_STAT, R355 (Table 13-17 SIG registers). -/
def SIG_STAT : Nat := 0xA0000
/-- SIG_CFG, R355 (Table 13-17 SIG registers). -/
def SIG_CFG : Nat := 0xA0004
/-- SIG_STORE_BASE, R355 (Table 13-17 SIG registers). -/
def SIG_STORE_BASE : Nat := 0xA0008
/-- SIG_SLOTS, R355 (Table 13-17 SIG registers). -/
def SIG_SLOTS : Nat := 0xA000C
/-- SIG_MAP_BASE, R355 (Table 13-17 SIG registers). -/
def SIG_MAP_BASE : Nat := 0xA0010
/-- SIG_DSET_BASE, R355 (Table 13-17 SIG registers). -/
def SIG_DSET_BASE : Nat := 0xA0014
/-- SIG_BUF_BASE, R355 (Table 13-17 SIG registers). -/
def SIG_BUF_BASE : Nat := 0xA001C
/-- SIG_RANGE_BASE, R355 (Table 13-17 SIG registers). -/
def SIG_RANGE_BASE : Nat := 0xA0024
/-- SIG_ACC_BASE, R355 (Table 13-17 SIG registers). -/
def SIG_ACC_BASE : Nat := 0xA002C
/-- SIG_DSET_COUNT, R355 (Table 13-17 SIG registers). -/
def SIG_DSET_COUNT : Nat := 0xA0018
/-- SIG_BUF_SIZE, R355 (Table 13-17 SIG registers). -/
def SIG_BUF_SIZE : Nat := 0xA0020
/-- SIG_RANGE_COUNT, R355 (Table 13-17 SIG registers). -/
def SIG_RANGE_COUNT : Nat := 0xA0028
/-- SIG_ACC_COUNT, R355 (Table 13-17 SIG registers). -/
def SIG_ACC_COUNT : Nat := 0xA0030
/-- SIG_FORCES, R355 (Table 13-17 SIG registers). -/
def SIG_FORCES : Nat := 0xA0040
/-- SIG_DROPS, R355 (Table 13-17 SIG registers). -/
def SIG_DROPS : Nat := 0xA0044
/-- SIG_PASS, R355 (Table 13-17 SIG registers). -/
def SIG_PASS : Nat := 0xA0048
/-- SIG_CLR, R355 (Table 13-17 SIG registers). -/
def SIG_CLR : Nat := 0xA004C
/-- GW_STAT, R381 (Table 14-15 GW registers). -/
def GW_STAT : Nat := 0xB0000
/-- GW_ROUTE_BASE, R381 (Table 14-15 GW registers). -/
def GW_ROUTE_BASE : Nat := 0xB0004
/-- GW_GROUP_BASE, R381 (Table 14-15 GW registers). -/
def GW_GROUP_BASE : Nat := 0xB000C
/-- GW_ROUTE_COUNT, R381 (Table 14-15 GW registers). -/
def GW_ROUTE_COUNT : Nat := 0xB0008
/-- GW_GROUP_COUNT, R381 (Table 14-15 GW registers). -/
def GW_GROUP_COUNT : Nat := 0xB0010
/-- GW_RUNS, R381 (Table 14-15 GW registers). -/
def GW_RUNS : Nat := 0xB0020
/-- GW_WAIT, R381 (Table 14-15 GW registers). -/
def GW_WAIT : Nat := 0xB0024
/-- GW_CLR, R381 (Table 14-15 GW registers). -/
def GW_CLR : Nat := 0xB0028
/-- RB_STAT, R382 (Table 14-16 RB registers). -/
def RB_STAT : Nat := 0xC0000
/-- RB_CFG, R382 (Table 14-16 RB registers). -/
def RB_CFG : Nat := 0xC0004
/-- RB_WIN, R382 (Table 14-16 RB registers). -/
def RB_WIN (i : Nat) : Nat := 0xC0010 + 0x4 * i
/-- RB_PERR, R382 (Table 14-16 RB registers). -/
def RB_PERR : Nat := 0xC0060
/-- RB_PERR_OFS, R382 (Table 14-16 RB registers). -/
def RB_PERR_OFS : Nat := 0xC0064
/-- RB_PERR_CNT, R382 (Table 14-16 RB registers). -/
def RB_PERR_CNT : Nat := 0xC0068
/-- RB_AERR, R382 (Table 14-16 RB registers). -/
def RB_AERR : Nat := 0xC006C
/-- RB_AERR_OFS, R382 (Table 14-16 RB registers). -/
def RB_AERR_OFS : Nat := 0xC0070
/-- RB_AERR_CNT, R382 (Table 14-16 RB registers). -/
def RB_AERR_CNT : Nat := 0xC0074
/-- RB_CYCLES, R382 (Table 14-16 RB registers). -/
def RB_CYCLES : Nat := 0xC0078
/-- RB_STUCK, R382 (Table 14-16 RB registers). -/
def RB_STUCK : Nat := 0xC007C
/-- RB_CLR, R382 (Table 14-16 RB registers). -/
def RB_CLR : Nat := 0xC0080
/-- CYC_STAT, R406 (Table 15-12 CYC registers). -/
def CYC_STAT : Nat := 0xD0000
/-- CYC_CFG, R406 (Table 15-12 CYC registers). -/
def CYC_CFG : Nat := 0xD0004
/-- CYC_IDLE, R406 (Table 15-12 CYC registers). -/
def CYC_IDLE : Nat := 0xD0008
/-- CYC_FORCES, R406 (Table 15-12 CYC registers). -/
def CYC_FORCES : Nat := 0xD000C
/-- CYC_OVR, R406 (Table 15-12 CYC registers). -/
def CYC_OVR : Nat := 0xD0010
/-- CYC_CNT, R406 (Table 15-12 CYC registers). -/
def CYC_CNT : Nat := 0xD0014
/-- CYC_CLR, R406 (Table 15-12 CYC registers). -/
def CYC_CLR : Nat := 0xD0018
/-- CYC_TASK_END, R406 (Table 15-12 CYC registers). -/
def CYC_TASK_END : Nat := 0xD0100
/-- TASK_CTL, R406 (Table 15-12 CYC registers). -/
def TASK_CTL (i : Nat) : Nat := 0xD0400 + 0x40 * i
/-- TASK_DIV, R406 (Table 15-12 CYC registers). -/
def TASK_DIV (i : Nat) : Nat := 0xD0404 + 0x40 * i
/-- TASK_WDT, R406 (Table 15-12 CYC registers). -/
def TASK_WDT (i : Nat) : Nat := 0xD0408 + 0x40 * i
/-- TASK_IN, R406 (Table 15-12 CYC registers). -/
def TASK_IN (i : Nat) : Nat := 0xD040C + 0x40 * i
/-- TASK_LIST, R406 (Table 15-12 CYC registers). -/
def TASK_LIST (i : Nat) : Nat := 0xD0410 + 0x40 * i
/-- TASK_INMASK_LO, R406 (Table 15-12 CYC registers). -/
def TASK_INMASK_LO (i : Nat) : Nat := 0xD0414 + 0x40 * i
/-- TASK_INMASK_HI, R406 (Table 15-12 CYC registers). -/
def TASK_INMASK_HI (i : Nat) : Nat := 0xD0418 + 0x40 * i
/-- TASK_OUT0, R406 (Table 15-12 CYC registers). -/
def TASK_OUT0 (i : Nat) : Nat := 0xD041C + 0x40 * i
/-- TASK_OUT1, R406 (Table 15-12 CYC registers). -/
def TASK_OUT1 (i : Nat) : Nat := 0xD0420 + 0x40 * i
/-- TASK_SAFE, R406 (Table 15-12 CYC registers). -/
def TASK_SAFE (i : Nat) : Nat := 0xD0424 + 0x40 * i
/-- TASK_OUTMASK_LO, R406 (Table 15-12 CYC registers). -/
def TASK_OUTMASK_LO (i : Nat) : Nat := 0xD0428 + 0x40 * i
/-- TASK_OUTMASK_HI, R406 (Table 15-12 CYC registers). -/
def TASK_OUTMASK_HI (i : Nat) : Nat := 0xD042C + 0x40 * i
/-- TASK_DSET, R406 (Table 15-12 CYC registers). -/
def TASK_DSET (i : Nat) : Nat := 0xD0430 + 0x40 * i
/-- TASK_STAT, R406 (Table 15-12 CYC registers). -/
def TASK_STAT (i : Nat) : Nat := 0xD0434 + 0x40 * i
/-- TASK_CYCLE, R406 (Table 15-12 CYC registers). -/
def TASK_CYCLE (i : Nat) : Nat := 0xD0438 + 0x40 * i
/-- TASK_TIME, R406 (Table 15-12 CYC registers). -/
def TASK_TIME (i : Nat) : Nat := 0xD043C + 0x40 * i
/-- CYC_PART, R406 (Table 15-12 CYC registers). -/
def CYC_PART (i : Nat) : Nat := 0xD1400 + 0x8 * i
/-- CYC_RET, R406 (Table 15-12 CYC registers). -/
def CYC_RET (i : Nat) : Nat := 0xD1404 + 0x8 * i
/-- CYC_STN, R406 (Table 15-12 CYC registers). -/
def CYC_STN (i : Nat) : Nat := 0xD1C00 + 0x8 * i
/-- CYC_STD, R406 (Table 15-12 CYC registers). -/
def CYC_STD (i : Nat) : Nat := 0xD1C04 + 0x8 * i
/-- CYC_FORCE0, R406 (Table 15-12 CYC registers). -/
def CYC_FORCE0 (i : Nat) : Nat := 0xD4000 + 0x10 * i
/-- CYC_FORCE1, R406 (Table 15-12 CYC registers). -/
def CYC_FORCE1 (i : Nat) : Nat := 0xD4004 + 0x10 * i
/-- CYC_FORCE2, R406 (Table 15-12 CYC registers). -/
def CYC_FORCE2 (i : Nat) : Nat := 0xD4008 + 0x10 * i
/-- CYC_FORCE3, R406 (Table 15-12 CYC registers). -/
def CYC_FORCE3 (i : Nat) : Nat := 0xD400C + 0x10 * i
/-- FLD_STAT, R436 (Table 16-20 FLD registers). -/
def FLD_STAT : Nat := 0xE0000
/-- FLD_CLR, R436 (Table 16-20 FLD registers). -/
def FLD_CLR : Nat := 0xE0004
/-- FLD_LINKFLT_LO, R436 (Table 16-20 FLD registers). -/
def FLD_LINKFLT_LO : Nat := 0xE0008
/-- FLD_LINKFLT_HI, R436 (Table 16-20 FLD registers). -/
def FLD_LINKFLT_HI : Nat := 0xE000C
/-- FLD_ISL, R436 (Table 16-20 FLD registers). -/
def FLD_ISL (i : Nat) : Nat := 0xE0100 + 0x4 * i
/-- FLD_LNK, R436 (Table 16-20 FLD registers). -/
def FLD_LNK (i : Nat) : Nat := 0xE0200 + 0x4 * i
/-- FLD_DI, R436 (Table 16-20 FLD registers). -/
def FLD_DI (i : Nat) : Nat := 0xE0400 + 0x4 * i
/-- FLD_DIO, R436 (Table 16-20 FLD registers). -/
def FLD_DIO (i : Nat) (j : Nat) : Nat := 0xE0800 + 0x80 * i + 0x8 * j
/-- FLD_DIO1, R436 (Table 16-20 FLD registers). -/
def FLD_DIO1 (i : Nat) (j : Nat) : Nat := 0xE0804 + 0x80 * i + 0x8 * j
/-- FLD_AI_CFG, R463 (Table 17-12 FLD registers of current loops). -/
def FLD_AI_CFG : Nat := 0xE4000
/-- FLD_AI_SYNC_STAT, R463 (Table 17-12 FLD registers of current loops). -/
def FLD_AI_SYNC_STAT : Nat := 0xE4004
/-- FLD_AI_ALIGN_LO, R463 (Table 17-12 FLD registers of current loops). -/
def FLD_AI_ALIGN_LO : Nat := 0xE4008
/-- FLD_AI_ALIGN_HI, R463 (Table 17-12 FLD registers of current loops). -/
def FLD_AI_ALIGN_HI : Nat := 0xE400C
/-- FLD_AIL, R463 (Table 17-12 FLD registers of current loops). -/
def FLD_AIL (i : Nat) : Nat := 0xE4100 + 0x8 * i
/-- FLD_AIL1, R463 (Table 17-12 FLD registers of current loops). -/
def FLD_AIL1 (i : Nat) : Nat := 0xE4104 + 0x8 * i
/-- SAF_STAT, R485 (Table 18-8 SAF registers). -/
def SAF_STAT : Nat := 0xF0000
/-- SAF_CLR, R485 (Table 18-8 SAF registers). -/
def SAF_CLR : Nat := 0xF0004
/-- SAF_CNT, R485 (Table 18-8 SAF registers). -/
def SAF_CNT : Nat := 0xF0008
/-- SAF_TPS, R485 (Table 18-8 SAF registers). -/
def SAF_TPS (i : Nat) : Nat := 0xF0100 + 0x4 * i
/-- SAF_BCTL, R485 (Table 18-8 SAF registers). -/
def SAF_BCTL (i : Nat) : Nat := 0xF0200 + 0x10 * i
/-- SAF_BIN, R485 (Table 18-8 SAF registers). -/
def SAF_BIN (i : Nat) : Nat := 0xF0204 + 0x10 * i
/-- SAF_BOUT, R485 (Table 18-8 SAF registers). -/
def SAF_BOUT (i : Nat) : Nat := 0xF0208 + 0x10 * i
/-- SAF_BSTAT, R485 (Table 18-8 SAF registers). -/
def SAF_BSTAT (i : Nat) : Nat := 0xF020C + 0x10 * i
/-- PAIR_CFG, R517 (Table 19-13 PAIR registers). -/
def PAIR_CFG : Nat := 0x100000
/-- PAIR_STAT, R517 (Table 19-13 PAIR registers). -/
def PAIR_STAT : Nat := 0x100004
/-- PAIR_EPOCH_LO, R517 (Table 19-13 PAIR registers). -/
def PAIR_EPOCH_LO : Nat := 0x100008
/-- PAIR_EPOCH_HI, R517 (Table 19-13 PAIR registers). -/
def PAIR_EPOCH_HI : Nat := 0x10000C
/-- PAIR_PEER_EPOCH_LO, R517 (Table 19-13 PAIR registers). -/
def PAIR_PEER_EPOCH_LO : Nat := 0x100010
/-- PAIR_PEER_EPOCH_HI, R517 (Table 19-13 PAIR registers). -/
def PAIR_PEER_EPOCH_HI : Nat := 0x100014
/-- PAIR_LAST_LO, R517 (Table 19-13 PAIR registers). -/
def PAIR_LAST_LO : Nat := 0x100018
/-- PAIR_LAST_HI, R517 (Table 19-13 PAIR registers). -/
def PAIR_LAST_HI : Nat := 0x10001C
/-- PAIR_PEER_MAC_LO, R517 (Table 19-13 PAIR registers). -/
def PAIR_PEER_MAC_LO : Nat := 0x100020
/-- PAIR_PEER_MAC_HI, R517 (Table 19-13 PAIR registers). -/
def PAIR_PEER_MAC_HI : Nat := 0x100024
/-- PAIR_JOIN, R517 (Table 19-13 PAIR registers). -/
def PAIR_JOIN : Nat := 0x100028
/-- PAIR_MIRROR, R517 (Table 19-13 PAIR registers). -/
def PAIR_MIRROR : Nat := 0x10002C
/-- PAIR_STAGE, R517 (Table 19-13 PAIR registers). -/
def PAIR_STAGE : Nat := 0x100030
/-- PAIR_CNT, R517 (Table 19-13 PAIR registers). -/
def PAIR_CNT : Nat := 0x100034
/-- PAIR_RAW_DELTA_LO, R517 (Table 19-13 PAIR registers). -/
def PAIR_RAW_DELTA_LO : Nat := 0x100038
/-- PAIR_RAW_DELTA_HI, R517 (Table 19-13 PAIR registers). -/
def PAIR_RAW_DELTA_HI : Nat := 0x10003C
/-- PAIR_NT_DEV, R517 (Table 19-13 PAIR registers). -/
def PAIR_NT_DEV : Nat := 0x100040
/-- PAIR_GAP, R517 (Table 19-13 PAIR registers). -/
def PAIR_GAP : Nat := 0x100044
/-- PAIR_CLR, R517 (Table 19-13 PAIR registers). -/
def PAIR_CLR : Nat := 0x100048
/-- PAIR_MRANGE_00, R517 (Table 19-13 PAIR registers). -/
def PAIR_MRANGE_00 (i : Nat) : Nat := 0x100100 + 0x10 * i
/-- PAIR_MRANGE_04, R517 (Table 19-13 PAIR registers). -/
def PAIR_MRANGE_04 (i : Nat) : Nat := 0x100104 + 0x10 * i
/-- PAIR_MRANGE_08, R517 (Table 19-13 PAIR registers). -/
def PAIR_MRANGE_08 (i : Nat) : Nat := 0x100108 + 0x10 * i
/-- PAIR_MRANGE_0C, R517 (Table 19-13 PAIR registers). -/
def PAIR_MRANGE_0C (i : Nat) : Nat := 0x10010C + 0x10 * i
/-- REC_STAT, R535 (Table 20-11 REC registers). -/
def REC_STAT : Nat := 0x110000
/-- REC_CFG, R535 (Table 20-11 REC registers). -/
def REC_CFG : Nat := 0x110004
/-- REC_CHAN_BASE, R535 (Table 20-11 REC registers). -/
def REC_CHAN_BASE : Nat := 0x110008
/-- REC_CHAN_COUNT, R535 (Table 20-11 REC registers). -/
def REC_CHAN_COUNT : Nat := 0x11000C
/-- REC_CLEAR_GEN, R535 (Table 20-11 REC registers). -/
def REC_CLEAR_GEN : Nat := 0x110010
/-- REC_SAMPLES, R535 (Table 20-11 REC registers). -/
def REC_SAMPLES : Nat := 0x110014
/-- REC_DROP, R535 (Table 20-11 REC registers). -/
def REC_DROP : Nat := 0x110018
/-- REC_NOTE_STAT, R535 (Table 20-11 REC registers). -/
def REC_NOTE_STAT : Nat := 0x11001C
/-- REC_NOTE_CMD, R535 (Table 20-11 REC registers). -/
def REC_NOTE_CMD : Nat := 0x110020
/-- REC_NOTE_D, R535 (Table 20-11 REC registers). -/
def REC_NOTE_D (i : Nat) : Nat := 0x110024 + 0x4 * i
/-- REC_CLR, R535 (Table 20-11 REC registers). -/
def REC_CLR : Nat := 0x110050
/-- IST_STAT, R561 (Table 21-13 IST registers). -/
def IST_STAT : Nat := 0x120000
/-- IST_CFG, R561 (Table 21-13 IST registers). -/
def IST_CFG : Nat := 0x120004
/-- IST_CTL, R561 (Table 21-13 IST registers). -/
def IST_CTL : Nat := 0x120008
/-- IST_OFFP, R561 (Table 21-13 IST registers). -/
def IST_OFFP : Nat := 0x12000C
/-- IST_OFFP_MASK, R561 (Table 21-13 IST registers). -/
def IST_OFFP_MASK (i : Nat) : Nat := 0x120010 + 0x4 * i
/-- IST_OFFP_FAIL, R561 (Table 21-13 IST registers). -/
def IST_OFFP_FAIL (i : Nat) : Nat := 0x120020 + 0x4 * i
/-- IST_LBIST, R561 (Table 21-13 IST registers). -/
def IST_LBIST : Nat := 0x120030
/-- IST_SCRUB, R561 (Table 21-13 IST registers). -/
def IST_SCRUB : Nat := 0x120034
/-- IST_SCRUB_POS, R561 (Table 21-13 IST registers). -/
def IST_SCRUB_POS : Nat := 0x120038
/-- IST_SCRUB_UE_LO, R561 (Table 21-13 IST registers). -/
def IST_SCRUB_UE_LO : Nat := 0x12003C
/-- IST_SCRUB_UE_HI, R561 (Table 21-13 IST registers). -/
def IST_SCRUB_UE_HI : Nat := 0x120040
/-- IST_ISLFAIL_LO, R561 (Table 21-13 IST registers). -/
def IST_ISLFAIL_LO : Nat := 0x120044
/-- IST_ISLFAIL_HI, R561 (Table 21-13 IST registers). -/
def IST_ISLFAIL_HI : Nat := 0x120048
/-- IST_CAL, R561 (Table 21-13 IST registers). -/
def IST_CAL : Nat := 0x12004C
/-- IST_CLR, R561 (Table 21-13 IST registers). -/
def IST_CLR : Nat := 0x120050
/-- MPX_STAT, R562 (Table 21-14 MPX registers). -/
def MPX_STAT : Nat := 0x130000
/-- MPX_WDT, R562 (Table 21-14 MPX registers). -/
def MPX_WDT : Nat := 0x130004
/-- MPX_DBG, R562 (Table 21-14 MPX registers). -/
def MPX_DBG : Nat := 0x130008
/-- MPX_DWIN, R562 (Table 21-14 MPX registers). -/
def MPX_DWIN : Nat := 0x13000C
/-- MPX_IRQ_EN, R562 (Table 21-14 MPX registers). -/
def MPX_IRQ_EN : Nat := 0x130010
/-- MPX_IRQ_PEND, R562 (Table 21-14 MPX registers). -/
def MPX_IRQ_PEND : Nat := 0x130014
/-- MPX_L2M_D, R562 (Table 21-14 MPX registers). -/
def MPX_L2M_D (i : Nat) : Nat := 0x130020 + 0x4 * i
/-- MPX_L2M_CMD, R562 (Table 21-14 MPX registers). -/
def MPX_L2M_CMD : Nat := 0x130040
/-- MPX_L2M_ACK, R562 (Table 21-14 MPX registers). -/
def MPX_L2M_ACK : Nat := 0x130044
/-- MPX_M2L_D, R562 (Table 21-14 MPX registers). -/
def MPX_M2L_D (i : Nat) : Nat := 0x130060 + 0x4 * i
/-- MPX_M2L_CMD, R562 (Table 21-14 MPX registers). -/
def MPX_M2L_CMD : Nat := 0x130080
/-- MPX_M2L_ACK, R562 (Table 21-14 MPX registers). -/
def MPX_M2L_ACK : Nat := 0x130084
/-- MPX_TELEM, R562 (Table 21-14 MPX registers). -/
def MPX_TELEM : Nat := 0x130090
/-- MPX_IP0, R562 (Table 21-14 MPX registers). -/
def MPX_IP0 : Nat := 0x130094
/-- MPX_IP1, R562 (Table 21-14 MPX registers). -/
def MPX_IP1 : Nat := 0x130098
/-- SYS_IMG_ADDR_LO, R565 (Table 22-2 SYS image registers). -/
def SYS_IMG_ADDR_LO : Nat := 0x00060
/-- SYS_IMG_ADDR_HI, R565 (Table 22-2 SYS image registers). -/
def SYS_IMG_ADDR_HI : Nat := 0x00064
/-- SYS_IMG_CMD, R565 (Table 22-2 SYS image registers). -/
def SYS_IMG_CMD : Nat := 0x00068
/-- SYS_IMG_STAT, R565 (Table 22-2 SYS image registers). -/
def SYS_IMG_STAT : Nat := 0x0006C
/-- SYS_IMG_ID, R565 (Table 22-2 SYS image registers). -/
def SYS_IMG_ID : Nat := 0x00070
/-- SYS_IMG_VER, R565 (Table 22-2 SYS image registers). -/
def SYS_IMG_VER : Nat := 0x00074

end Reg

namespace F

def RAT_BASE_BASE (i : Nat) : Fld := ⟨0x00400 + 0x10 * i, 0, 28⟩
def RAT_LIMIT_LIMIT (i : Nat) : Fld := ⟨0x00404 + 0x10 * i, 0, 28⟩
def RAT_CTL_EN (i : Nat) : Fld := ⟨0x00408 + 0x10 * i, 0, 1⟩
def RAT_CTL_TYPE (i : Nat) : Fld := ⟨0x00408 + 0x10 * i, 1, 2⟩
def SYS_ID_TEMP_T : Fld := ⟨0x00000, 0, 1⟩
def SYS_ID_VARIANT : Fld := ⟨0x00000, 8, 8⟩
def SYS_ID_PART : Fld := ⟨0x00000, 16, 16⟩
def SYS_STEP_SOC_STEP : Fld := ⟨0x00004, 0, 8⟩
def SYS_STEP_ISL_STEP : Fld := ⟨0x00004, 8, 8⟩
def SYS_PHASE_OPERATE : Fld := ⟨0x00010, 0, 1⟩
def SYS_PHASE_LOCK_BUSY : Fld := ⟨0x00010, 1, 1⟩
def SYS_PHASE_LOCK_ERR : Fld := ⟨0x00010, 4, 4⟩
def SYS_LOCK_KEY : Fld := ⟨0x00014, 0, 16⟩
def SYS_STRAP_SLOT_ID : Fld := ⟨0x00020, 0, 4⟩
def SYS_STRAP_SLOT_PAR : Fld := ⟨0x00020, 4, 1⟩
def SYS_STRAP_PAR_OK : Fld := ⟨0x00020, 5, 1⟩
def SYS_STRAP_PREFER : Fld := ⟨0x00020, 6, 1⟩
def SYS_STRAP_CHANGED : Fld := ⟨0x00020, 7, 1⟩
def SYS_STRAP_LIVE_ID : Fld := ⟨0x00020, 8, 4⟩
def SYS_STRAP_LIVE_PAR : Fld := ⟨0x00020, 12, 1⟩
def SYS_STRAP_LIVE_PREFER : Fld := ⟨0x00020, 13, 1⟩
def PWR_STAT_FEED_A : Fld := ⟨0x10000, 0, 1⟩
def PWR_STAT_FEED_B : Fld := ⟨0x10000, 1, 1⟩
def PWR_STAT_PF : Fld := ⟨0x10000, 2, 1⟩
def PWR_STAT_FEED_CHG : Fld := ⟨0x10000, 3, 1⟩
def PWR_STAT_OT_WARN : Fld := ⟨0x10000, 4, 1⟩
def PWR_STAT_HU_OK : Fld := ⟨0x10000, 5, 1⟩
def PWR_STAT_VLOG : Fld := ⟨0x10000, 8, 8⟩
def PWR_STAT_DIE_TEMP : Fld := ⟨0x10000, 16, 8⟩
def PWR_PL_PL : Fld := ⟨0x10004, 0, 2⟩
def PWR_PL_PL_BUSY : Fld := ⟨0x10004, 2, 1⟩
def PWR_MODE_MODE : Fld := ⟨0x10008, 0, 2⟩
def PWR_EMBER_CFG_E2_EN : Fld := ⟨0x1000C, 0, 1⟩
def PWR_EMBER_CFG_E3_EN : Fld := ⟨0x1000C, 1, 1⟩
def PWR_SAVE_BASE : Fld := ⟨0x10010, 0, 18⟩
def PWR_EMBER_STAT_ENTRY_ERR : Fld := ⟨0x10014, 0, 4⟩
def PWR_EMBER_STAT_LAST_STATE : Fld := ⟨0x10014, 4, 2⟩
def PWR_EMBER_STAT_CFG_ERR : Fld := ⟨0x10014, 6, 1⟩
def WAKE_EN_RTC_ALARM : Fld := ⟨0x10018, 0, 1⟩
def WAKE_EN_PTO15 : Fld := ⟨0x10018, 1, 1⟩
def WAKE_EN_SYNC_IN : Fld := ⟨0x10018, 2, 1⟩
def WAKE_EN_DI : Fld := ⟨0x10018, 3, 1⟩
def WAKE_EN_ED_BACKBONE : Fld := ⟨0x10018, 4, 1⟩
def WAKE_EN_ED_CARRING : Fld := ⟨0x10018, 5, 1⟩
def WAKE_EN_ED_MA0 : Fld := ⟨0x10018, 6, 1⟩
def WAKE_EN_MP : Fld := ⟨0x10018, 7, 1⟩
def WAKE_EN_DI_MASK : Fld := ⟨0x10018, 16, 16⟩
def WAKE_SRC_SRC : Fld := ⟨0x1001C, 0, 8⟩
def WAKE_SRC_FROM : Fld := ⟨0x1001C, 8, 4⟩
def WAKE_SRC_INDEX : Fld := ⟨0x1001C, 16, 9⟩
def WAKE_PEND_PEND : Fld := ⟨0x10020, 0, 8⟩
def PWR_RTC_LO_COUNT_LO : Fld := ⟨0x10024, 0, 32⟩
def PWR_RTC_HI_COUNT_HI : Fld := ⟨0x10028, 0, 16⟩
def PWR_ALARM_LO_ALARM_LO : Fld := ⟨0x1002C, 0, 32⟩
def PWR_ALARM_HI_ALARM_HI : Fld := ⟨0x10030, 0, 16⟩
def PWR_RTC_ENTRY_LO_ENTRY : Fld := ⟨0x10034, 0, 32⟩
def PWR_RTC_ENTRY_HI_ENTRY : Fld := ⟨0x10038, 0, 16⟩
def PWR_RTC_WAKE_LO_WAKE : Fld := ⟨0x1003C, 0, 32⟩
def PWR_RTC_WAKE_HI_WAKE : Fld := ⟨0x10040, 0, 16⟩
def LP_STAT_LP_MODE : Fld := ⟨0x10044, 0, 1⟩
def LP_STAT_LP_PEAK : Fld := ⟨0x10044, 8, 8⟩
def PWR_MPWAKE_KEY : Fld := ⟨0x10048, 0, 16⟩
def SYS_RSTCAUSE_LAST : Fld := ⟨0x00040, 0, 4⟩
def SYS_RSTCAUSE_RAIL_ID : Fld := ⟨0x00040, 4, 3⟩
def SYS_RSTCAUSE_STICKY : Fld := ⟨0x00040, 16, 10⟩
def SYS_RESET_KEY : Fld := ⟨0x00044, 0, 16⟩
def SYS_BOOT_BANK : Fld := ⟨0x00048, 0, 1⟩
def SYS_BOOT_TRIAL : Fld := ⟨0x00048, 1, 1⟩
def SYS_BOOT_CONFIRM : Fld := ⟨0x00048, 2, 1⟩
def SYS_BOOT_FALLBACK : Fld := ⟨0x00048, 3, 1⟩
def SYS_BOOT_REFUSE_A : Fld := ⟨0x00048, 4, 4⟩
def SYS_BOOT_REFUSE_B : Fld := ⟨0x00048, 8, 4⟩
def SYS_BOOT_TRIAL_LEFT : Fld := ⟨0x00048, 12, 4⟩
def SYS_FWVER_IMG_VER : Fld := ⟨0x0004C, 0, 32⟩
def SYS_CLK_LANE_PLL_EN : Fld := ⟨0x00050, 0, 1⟩
def SYS_CLK_LANE_LOCK : Fld := ⟨0x00050, 1, 1⟩
def SYS_CLK_LANE_SRC : Fld := ⟨0x00050, 2, 1⟩
def SYS_CLK_CLK_ERR : Fld := ⟨0x00050, 3, 1⟩
def SYS_CLK_FAB_SRC : Fld := ⟨0x00050, 4, 1⟩
def SYS_CLK_MP_SRC : Fld := ⟨0x00050, 5, 1⟩
def LANE_CFG_MISMATCH_POLICY : Fld := ⟨0x20000, 0, 1⟩
def LANE_CFG_ROLLBACK_LIMIT : Fld := ⟨0x20000, 1, 3⟩
def LANE_CFG_REINT_MAX : Fld := ⟨0x20000, 4, 4⟩
def LANE_CFG_REINT_WINDOW : Fld := ⟨0x20000, 8, 8⟩
def LANE_STAT_STATE_A : Fld := ⟨0x20004, 0, 2⟩
def LANE_STAT_STATE_B : Fld := ⟨0x20004, 2, 2⟩
def LANE_STAT_STATE_C : Fld := ⟨0x20004, 4, 2⟩
def LANE_STAT_USABLE : Fld := ⟨0x20004, 6, 2⟩
def LANE_STAT_SAFE : Fld := ⟨0x20004, 8, 1⟩
def LANE_STAT_CFG_ERR : Fld := ⟨0x20004, 9, 1⟩
def LANE_STAT_ROLLBACKS : Fld := ⟨0x20004, 12, 3⟩
def LANE_FAULT_CLASS : Fld := ⟨0x20008, 0, 4⟩
def LANE_FAULT_LANES : Fld := ⟨0x20008, 4, 3⟩
def LANE_FAULT_UNRESOLVED : Fld := ⟨0x20008, 7, 1⟩
def LANE_FAULT_PARTID : Fld := ⟨0x20008, 8, 8⟩
def LANE_FAULT_HART : Fld := ⟨0x20008, 16, 2⟩
def LANE_FAULT_VALID : Fld := ⟨0x20008, 31, 1⟩
def LANE_FADDR_LO_ADDR_LO : Fld := ⟨0x2000C, 0, 32⟩
def LANE_FADDR_HI_ADDR_HI : Fld := ⟨0x20010, 0, 8⟩
def LANE_FCNT_FENCE_A : Fld := ⟨0x20014, 0, 8⟩
def LANE_FCNT_FENCE_B : Fld := ⟨0x20014, 8, 8⟩
def LANE_FCNT_FENCE_C : Fld := ⟨0x20014, 16, 8⟩
def LANE_RBCNT_TOTAL : Fld := ⟨0x20018, 0, 32⟩
def LANE_ECC_CORR_A : Fld := ⟨0x2001C, 0, 10⟩
def LANE_ECC_CORR_B : Fld := ⟨0x2001C, 10, 10⟩
def LANE_ECC_CORR_C : Fld := ⟨0x2001C, 20, 10⟩
def LANE_ECC_CLR : Fld := ⟨0x2001C, 31, 1⟩
def LANE_ECC_THR_THR : Fld := ⟨0x20020, 0, 10⟩
def LANE_SAFE_KEY : Fld := ⟨0x20024, 0, 16⟩
def LANE_REINT_HOLD : Fld := ⟨0x20028, 0, 1⟩
def LANE_SAFECAUSE_CAUSE : Fld := ⟨0x2002C, 0, 8⟩
def CORD_PERIOD_PERIOD : Fld := ⟨0x30000, 0, 14⟩
def CORD_CFG_BOUNDARY_EN : Fld := ⟨0x30004, 0, 1⟩
def CORD_STAT_ROLLING : Fld := ⟨0x30008, 0, 1⟩
def CORD_STAT_REPLAY : Fld := ⟨0x30008, 1, 1⟩
def CORD_STAT_CFG_ERR : Fld := ⟨0x30008, 2, 1⟩
def CORD_STAT_SAFE_CAUSE : Fld := ⟨0x30008, 4, 2⟩
def CORD_STAT_CAUSES : Fld := ⟨0x30008, 16, 10⟩
def CORD_LAST_LO_NUM_LO : Fld := ⟨0x3000C, 0, 32⟩
def CORD_LAST_HI_NUM_HI : Fld := ⟨0x30010, 0, 32⟩
def CORD_SEAL_RAW_LO_RAW_LO : Fld := ⟨0x30014, 0, 32⟩
def CORD_SEAL_RAW_HI_RAW_HI : Fld := ⟨0x30018, 0, 32⟩
def CORD_UNDO_USED : Fld := ⟨0x3001C, 0, 16⟩
def CORD_UNDO_PEAK : Fld := ⟨0x3001C, 16, 16⟩
def CORD_INLOG_USED_USED : Fld := ⟨0x30020, 0, 18⟩
def CORD_INLOG_PEAK_PEAK : Fld := ⟨0x30024, 0, 18⟩
def CORD_SEALTIME_LAST : Fld := ⟨0x30028, 0, 16⟩
def CORD_SEALTIME_MAX : Fld := ⟨0x30028, 16, 16⟩
def CORD_FCNT_UNDO_FORCED : Fld := ⟨0x3002C, 0, 16⟩
def CORD_FCNT_INLOG_FORCED : Fld := ⟨0x3002C, 16, 16⟩
def CORD_RB_RESTART : Fld := ⟨0x30030, 0, 16⟩
def CORD_RB_REPLAY : Fld := ⟨0x30030, 16, 16⟩
def CORD_RB_TO_LO_NUM_LO : Fld := ⟨0x30034, 0, 32⟩
def CORD_RB_TO_HI_NUM_HI : Fld := ⟨0x30038, 0, 32⟩
def CORD_CLR_PEAK : Fld := ⟨0x3003C, 0, 1⟩
def CORD_CLR_FCNT : Fld := ⟨0x3003C, 1, 1⟩
def FLUE_STAT_USED : Fld := ⟨0x30100, 0, 12⟩
def FLUE_STAT_FULL : Fld := ⟨0x30100, 12, 1⟩
def FLUE_STAT_CFG_ERR : Fld := ⟨0x30100, 13, 1⟩
def FLUE_STAT_SEQ_ERR : Fld := ⟨0x30100, 14, 1⟩
def FLUE_CFG_MERGE_EN : Fld := ⟨0x30104, 0, 1⟩
def FLUE_CFG_STALL_TMO : Fld := ⟨0x30104, 8, 8⟩
def FLUE_PEAK_PEAK : Fld := ⟨0x30108, 0, 12⟩
def FLUE_DISC_DISCARDED : Fld := ⟨0x3010C, 0, 32⟩
def FLUE_SAFEDISC_COUNT : Fld := ⟨0x30110, 0, 12⟩
def FLUE_FCNT_FULL_FORCED : Fld := ⟨0x30114, 0, 16⟩
def FLUE_FCNT_HELD : Fld := ⟨0x30114, 16, 16⟩
def FLUE_DUP_DUP : Fld := ⟨0x30118, 0, 16⟩
def FLUE_DUP_NOACK : Fld := ⟨0x30118, 16, 16⟩
def FLUE_STALL_DEST : Fld := ⟨0x3011C, 0, 16⟩
def FLUE_STALL_VALID : Fld := ⟨0x3011C, 31, 1⟩
def FLUE_SEQSEL_DEST : Fld := ⟨0x30120, 0, 16⟩
def FLUE_SEQ_SEALED_SEALED : Fld := ⟨0x30124, 0, 32⟩
def FLUE_SEQ_RELEASED_RELEASED : Fld := ⟨0x30128, 0, 32⟩
def FLUE_CLR_PEAK : Fld := ⟨0x3012C, 0, 1⟩
def FLUE_CLR_CNT : Fld := ⟨0x3012C, 1, 1⟩
def FLUE_QUOTA_QUOTA (i : Nat) : Fld := ⟨0x30400 + 0x4 * i, 0, 12⟩
def FLUE_QUOTA_HELD (i : Nat) : Fld := ⟨0x30400 + 0x4 * i, 16, 12⟩
def RING_DB_BASE_BASE : Fld := ⟨0x40000, 0, 20⟩
def RING_CTX_SEL_RING : Fld := ⟨0x40004, 0, 15⟩
def RING_CMD_OP : Fld := ⟨0x40008, 0, 2⟩
def RING_STAT_CFG_ERR : Fld := ⟨0x4000C, 0, 1⟩
def RING_STAT_CMD_ERR : Fld := ⟨0x4000C, 1, 1⟩
def RING_STAT_CFG_CODE : Fld := ⟨0x4000C, 4, 4⟩
def RING_STAT_CFG_RING : Fld := ⟨0x4000C, 16, 15⟩
def RING_DB_ERR_RING : Fld := ⟨0x40010, 0, 15⟩
def RING_DB_ERR_KIND : Fld := ⟨0x40010, 16, 2⟩
def RING_DB_ERR_VALID : Fld := ⟨0x40010, 31, 1⟩
def RING_DB_ERRCNT_COUNT : Fld := ⟨0x40014, 0, 32⟩
def RING_CTX_D_DATA (i : Nat) : Fld := ⟨0x40020 + 0x4 * i, 0, 32⟩
def PE_RINGS_RING_FIRST (i : Nat) : Fld := ⟨0x52000 + 0x20 * i, 0, 15⟩
def PE_RINGS_RING_COUNT (i : Nat) : Fld := ⟨0x52000 + 0x20 * i, 16, 16⟩
def PE_EVQ01_EVQ0 (i : Nat) : Fld := ⟨0x52004 + 0x20 * i, 0, 15⟩
def PE_EVQ01_EVQ0_EN (i : Nat) : Fld := ⟨0x52004 + 0x20 * i, 15, 1⟩
def PE_EVQ01_EVQ1 (i : Nat) : Fld := ⟨0x52004 + 0x20 * i, 16, 15⟩
def PE_EVQ01_EVQ1_EN (i : Nat) : Fld := ⟨0x52004 + 0x20 * i, 31, 1⟩
def PE_EVQ23_EVQ2 (i : Nat) : Fld := ⟨0x52008 + 0x20 * i, 0, 15⟩
def PE_EVQ23_EVQ2_EN (i : Nat) : Fld := ⟨0x52008 + 0x20 * i, 15, 1⟩
def PE_EVQ23_EVQ3 (i : Nat) : Fld := ⟨0x52008 + 0x20 * i, 16, 15⟩
def PE_EVQ23_EVQ3_EN (i : Nat) : Fld := ⟨0x52008 + 0x20 * i, 31, 1⟩
def PE_CTL_EN (i : Nat) : Fld := ⟨0x5200C + 0x20 * i, 0, 1⟩
def PE_CTL_MIRRORED (i : Nat) : Fld := ⟨0x5200C + 0x20 * i, 1, 1⟩
def PE_CTL_DRAM_UNITS (i : Nat) : Fld := ⟨0x5200C + 0x20 * i, 8, 11⟩
def PE_LOCKS_LOCK_FIRST (i : Nat) : Fld := ⟨0x52010 + 0x20 * i, 0, 10⟩
def PE_LOCKS_LOCK_COUNT (i : Nat) : Fld := ⟨0x52010 + 0x20 * i, 16, 11⟩
def PE_SIGMAP_SIGMAP (i : Nat) : Fld := ⟨0x52014 + 0x20 * i, 0, 32⟩
def PE_UNDO_DECL_UNDO_DECL (i : Nat) : Fld := ⟨0x52018 + 0x20 * i, 0, 16⟩
def PE_INLOG_DECL_INLOG_DECL (i : Nat) : Fld := ⟨0x5201C + 0x20 * i, 0, 18⟩
def PART_CFG_SYS_UNITS : Fld := ⟨0x50000, 0, 11⟩
def PART_CFG_WORK_CONSERVE : Fld := ⟨0x50000, 16, 1⟩
def PART_STAT_CFG_ERR : Fld := ⟨0x50004, 0, 1⟩
def PART_STAT_CFG_CODE : Fld := ⟨0x50004, 4, 4⟩
def PART_STAT_CFG_PART : Fld := ⟨0x50004, 8, 8⟩
def PART_ABANDON_PART : Fld := ⟨0x50008, 0, 8⟩
def PART_ABANDON_AGENT : Fld := ⟨0x50008, 8, 2⟩
def PART_ABANDON_KEY : Fld := ⟨0x50008, 16, 16⟩
def PART_MON_SEL_PART : Fld := ⟨0x5000C, 0, 8⟩
def PART_MON_DRAM_ACCESSES : Fld := ⟨0x50010, 0, 32⟩
def PART_MON_SPARE_SPARE : Fld := ⟨0x50014, 0, 32⟩
def PART_MON_UNDO_UNDO_PEAK : Fld := ⟨0x50018, 0, 16⟩
def PART_MON_INLOG_INLOG_PEAK : Fld := ⟨0x5001C, 0, 18⟩
def PART_MON_EVT_DROPS : Fld := ⟨0x50020, 0, 16⟩
def PART_MON_EVT_LOCKS : Fld := ⟨0x50020, 16, 11⟩
def PART_MON_CLR_CLR : Fld := ⟨0x50024, 0, 1⟩
def PART_LOCKERR_LOCK : Fld := ⟨0x50028, 0, 10⟩
def PART_LOCKERR_KIND : Fld := ⟨0x50028, 10, 2⟩
def PART_LOCKERR_PART : Fld := ⟨0x50028, 12, 8⟩
def PART_LOCKERR_VALID : Fld := ⟨0x50028, 31, 1⟩
def LOCK_GOT (i : Nat) : Fld := ⟨0x54000 + 0x4 * i, 0, 1⟩
def LOCK_ABANDONED (i : Nat) : Fld := ⟨0x54000 + 0x4 * i, 1, 1⟩
def LOCK_DENIED (i : Nat) : Fld := ⟨0x54000 + 0x4 * i, 2, 1⟩
def LOCK_MINE (i : Nat) : Fld := ⟨0x54000 + 0x4 * i, 3, 1⟩
def LOCK_HELD (i : Nat) : Fld := ⟨0x54000 + 0x4 * i, 4, 1⟩
def LOCK_OWNER_PART (i : Nat) : Fld := ⟨0x54000 + 0x4 * i, 8, 8⟩
def LOCK_OWNER_AGENT (i : Nat) : Fld := ⟨0x54000 + 0x4 * i, 16, 2⟩
def LOCK_OWNER_HART (i : Nat) : Fld := ⟨0x54000 + 0x4 * i, 18, 2⟩
def LOCK_REL (i : Nat) : Fld := ⟨0x54000 + 0x4 * i, 31, 1⟩
def ENG_SCHED_PART_LO (i : Nat) (j : Nat) : Fld := ⟨0x58000 + 0x200 * i + 0x4 * j, 0, 8⟩
def ENG_SCHED_FREE_LO (i : Nat) (j : Nat) : Fld := ⟨0x58000 + 0x200 * i + 0x4 * j, 8, 1⟩
def ENG_SCHED_PART_HI (i : Nat) (j : Nat) : Fld := ⟨0x58000 + 0x200 * i + 0x4 * j, 16, 8⟩
def ENG_SCHED_FREE_HI (i : Nat) (j : Nat) : Fld := ⟨0x58000 + 0x200 * i + 0x4 * j, 24, 1⟩
def EVT_ROUTE_PART (i : Nat) : Fld := ⟨0x60000 + 0x4 * i, 0, 8⟩
def EVT_ROUTE_EVQ (i : Nat) : Fld := ⟨0x60000 + 0x4 * i, 8, 2⟩
def EVT_ROUTE_RING_EN (i : Nat) : Fld := ⟨0x60000 + 0x4 * i, 10, 1⟩
def EVT_ROUTE_PLIC_EN (i : Nat) : Fld := ⟨0x60000 + 0x4 * i, 11, 1⟩
def EVT_STAT_CFG_ERR : Fld := ⟨0x60800, 0, 1⟩
def EVT_STAT_CFG_CODE : Fld := ⟨0x60800, 4, 4⟩
def EVT_STAT_CFG_SRC : Fld := ⟨0x60800, 8, 9⟩
def EVT_DROP_DROPS : Fld := ⟨0x60804, 0, 32⟩
def EVT_RAISED_RAISED : Fld := ⟨0x60808, 0, 32⟩
def TB_CFG_OWNER : Fld := ⟨0x70000, 0, 1⟩
def TB_CFG_BACK_STEP_EN : Fld := ⟨0x70000, 1, 1⟩
def TB_STAT_CFG_ERR : Fld := ⟨0x70004, 0, 1⟩
def TB_STAT_CFG_CODE : Fld := ⟨0x70004, 4, 4⟩
def TB_STAT_CMD_BUSY : Fld := ⟨0x70004, 8, 1⟩
def TB_STAT_CMD_ERR : Fld := ⟨0x70004, 9, 1⟩
def TB_STAT_PLL_LOST : Fld := ⟨0x70004, 10, 1⟩
def TB_STAT_ERR_CODE : Fld := ⟨0x70004, 12, 4⟩
def TB_NT_LO_NS_LO : Fld := ⟨0x70010, 0, 32⟩
def TB_NT_HI_NS_HI : Fld := ⟨0x70014, 0, 32⟩
def TB_NT_FRAC_FRAC : Fld := ⟨0x70018, 0, 16⟩
def TB_LRAW_LO_RAW : Fld := ⟨0x7001C, 0, 32⟩
def TB_LRAW_HI_RAW : Fld := ⟨0x70020, 0, 32⟩
def TB_INCR_LO_INCR_LO : Fld := ⟨0x70024, 0, 32⟩
def TB_INCR_HI_INCR_HI : Fld := ⟨0x70028, 0, 16⟩
def TB_OFS_FRAC_FRAC : Fld := ⟨0x7002C, 0, 16⟩
def TB_OFS_LO_OFS : Fld := ⟨0x70030, 0, 32⟩
def TB_OFS_HI_OFS : Fld := ⟨0x70034, 0, 32⟩
def TB_W0_DATA : Fld := ⟨0x70040, 0, 32⟩
def TB_W1_DATA : Fld := ⟨0x70044, 0, 32⟩
def TB_W2_DATA : Fld := ⟨0x70048, 0, 32⟩
def TB_AT_LO_AT : Fld := ⟨0x7004C, 0, 32⟩
def TB_AT_HI_AT : Fld := ⟨0x70050, 0, 32⟩
def TB_CMD_OP : Fld := ⟨0x70054, 0, 2⟩
def TB_CMD_AT : Fld := ⟨0x70054, 2, 1⟩
def TB_APPLY_RAW_LO_RAW : Fld := ⟨0x70058, 0, 32⟩
def TB_APPLY_RAW_HI_RAW : Fld := ⟨0x7005C, 0, 32⟩
def TB_SYNC_OUT_SEL : Fld := ⟨0x70060, 0, 4⟩
def TB_SYNC_OUT_EN : Fld := ⟨0x70060, 4, 1⟩
def TB_SYNC_IN_EN : Fld := ⟨0x70064, 0, 1⟩
def TB_SYNC_IN_HOLDOFF : Fld := ⟨0x70064, 8, 8⟩
def TB_SYNCIN_LO_NS : Fld := ⟨0x70068, 0, 32⟩
def TB_SYNCIN_HI_NS : Fld := ⟨0x7006C, 0, 32⟩
def TB_SYNCIN_FRAC_FRAC : Fld := ⟨0x70070, 0, 16⟩
def TB_SYNCIN_CNT_EDGES : Fld := ⟨0x70074, 0, 16⟩
def TB_SYNCIN_CNT_IGNORED : Fld := ⟨0x70074, 16, 16⟩
def TB_TSQ_OVF_OVF : Fld := ⟨0x70078, 0, 18⟩
def PTO_CTL_MODE (i : Nat) : Fld := ⟨0x70100 + 0x20 * i, 0, 2⟩
def PTO_CTL_BASE (i : Nat) : Fld := ⟨0x70100 + 0x20 * i, 2, 1⟩
def PTO_CTL_EVT_EN (i : Nat) : Fld := ⟨0x70100 + 0x20 * i, 3, 1⟩
def PTO_CTL_ARM_EN (i : Nat) : Fld := ⟨0x70100 + 0x20 * i, 4, 1⟩
def PTO_CTL_OWNER (i : Nat) : Fld := ⟨0x70100 + 0x20 * i, 8, 8⟩
def PTO_TGT_LO_TGT (i : Nat) : Fld := ⟨0x70104 + 0x20 * i, 0, 32⟩
def PTO_TGT_HI_TGT (i : Nat) : Fld := ⟨0x70108 + 0x20 * i, 0, 32⟩
def PTO_PER_LO_PER_LO (i : Nat) : Fld := ⟨0x7010C + 0x20 * i, 0, 32⟩
def PTO_PER_HI_PER_HI (i : Nat) : Fld := ⟨0x70110 + 0x20 * i, 0, 4⟩
def PTO_PER_HI_WIDTH (i : Nat) : Fld := ⟨0x70110 + 0x20 * i, 12, 19⟩
def PTO_STAT_ARMED (i : Nat) : Fld := ⟨0x70114 + 0x20 * i, 0, 1⟩
def PTO_STAT_OUT (i : Nat) : Fld := ⟨0x70114 + 0x20 * i, 1, 1⟩
def PTO_STAT_MISSED (i : Nat) : Fld := ⟨0x70114 + 0x20 * i, 16, 16⟩
def PTO_NEXT_LO_NEXT (i : Nat) : Fld := ⟨0x70118 + 0x20 * i, 0, 32⟩
def PTO_NEXT_HI_NEXT (i : Nat) : Fld := ⟨0x7011C + 0x20 * i, 0, 32⟩
def TB_TSQ_CFG_PART (i : Nat) : Fld := ⟨0x70300 + 0x4 * i, 0, 8⟩
def TB_TSQ_CFG_EN (i : Nat) : Fld := ⟨0x70300 + 0x4 * i, 8, 1⟩
def TB_TSQ_STAT_LEVEL (i : Nat) : Fld := ⟨0x70380 + 0x4 * i, 0, 6⟩
def TB_TSQ_STAT_DROPS (i : Nat) : Fld := ⟨0x70380 + 0x4 * i, 16, 16⟩
def CR_SLC_OFFSET (i : Nat) (j : Nat) : Fld := ⟨0x81000 + 0x800 * i + 0x8 * j, 0, 11⟩
def CR_SLC_LEN (i : Nat) (j : Nat) : Fld := ⟨0x81000 + 0x800 * i + 0x8 * j, 11, 11⟩
def CR_SLC_DIR (i : Nat) (j : Nat) : Fld := ⟨0x81000 + 0x800 * i + 0x8 * j, 22, 1⟩
def CR_SLC_EN (i : Nat) (j : Nat) : Fld := ⟨0x81000 + 0x800 * i + 0x8 * j, 23, 1⟩
def CR_SLC_POS (i : Nat) (j : Nat) : Fld := ⟨0x81000 + 0x800 * i + 0x8 * j, 24, 7⟩
def CR_SLD_DSET (i : Nat) (j : Nat) : Fld := ⟨0x81004 + 0x800 * i + 0x8 * j, 0, 18⟩
def CR_STAT_CFG_ERR : Fld := ⟨0x80000, 0, 1⟩
def CR_STAT_CFG_CODE : Fld := ⟨0x80000, 4, 4⟩
def CR_STAT_CFG_RING : Fld := ⟨0x80000, 8, 2⟩
def CR_CFG_ROLE (i : Nat) : Fld := ⟨0x80100 + 0x100 * i, 0, 2⟩
def CR_CFG_A_EN (i : Nat) : Fld := ⟨0x80100 + 0x100 * i, 2, 1⟩
def CR_CFG_B_EN (i : Nat) : Fld := ⟨0x80100 + 0x100 * i, 3, 1⟩
def CR_CFG_POS (i : Nat) : Fld := ⟨0x80100 + 0x100 * i, 4, 7⟩
def CR_CFG_RING_ID (i : Nat) : Fld := ⟨0x80100 + 0x100 * i, 12, 8⟩
def CR_CFG_LOSS_N (i : Nat) : Fld := ⟨0x80100 + 0x100 * i, 20, 4⟩
def CR_ETYPE_ETYPE (i : Nat) : Fld := ⟨0x80104 + 0x100 * i, 0, 16⟩
def CR_PERIOD_PERIOD (i : Nat) : Fld := ⟨0x80108 + 0x100 * i, 0, 14⟩
def CR_MASTER_PTO (i : Nat) : Fld := ⟨0x8010C + 0x100 * i, 0, 4⟩
def CR_MASTER_RET_TMO (i : Nat) : Fld := ⟨0x8010C + 0x100 * i, 8, 14⟩
def CR_LEN_SLICE_LEN (i : Nat) : Fld := ⟨0x80110 + 0x100 * i, 0, 11⟩
def CR_DA_LO_DA_LO (i : Nat) : Fld := ⟨0x80114 + 0x100 * i, 0, 32⟩
def CR_DA_HI_DA_HI (i : Nat) : Fld := ⟨0x80118 + 0x100 * i, 0, 16⟩
def CR_ACYC_OPEN (i : Nat) : Fld := ⟨0x8011C + 0x100 * i, 0, 14⟩
def CR_ACYC_CLOSE (i : Nat) : Fld := ⟨0x8011C + 0x100 * i, 16, 14⟩
def CR_STATE_STATE (i : Nat) : Fld := ⟨0x80120 + 0x100 * i, 0, 2⟩
def CR_STATE_A_OK (i : Nat) : Fld := ⟨0x80120 + 0x100 * i, 2, 1⟩
def CR_STATE_B_OK (i : Nat) : Fld := ⟨0x80120 + 0x100 * i, 3, 1⟩
def CR_STATE_LINK (i : Nat) : Fld := ⟨0x80120 + 0x100 * i, 4, 4⟩
def CR_CYCLE_CYCLE (i : Nat) : Fld := ⟨0x80124 + 0x100 * i, 0, 32⟩
def CR_MISSED_MISSED (i : Nat) : Fld := ⟨0x80128 + 0x100 * i, 0, 32⟩
def CR_RTT_LAST (i : Nat) : Fld := ⟨0x8012C + 0x100 * i, 0, 16⟩
def CR_RTT_MAX (i : Nat) : Fld := ⟨0x8012C + 0x100 * i, 16, 16⟩
def CR_CLR_CNT (i : Nat) : Fld := ⟨0x80130 + 0x100 * i, 0, 1⟩
def CR_MAC_LO_MAC_LO (i : Nat) : Fld := ⟨0x80134 + 0x100 * i, 0, 32⟩
def CR_MAC_HI_MAC_HI (i : Nat) : Fld := ⟨0x80138 + 0x100 * i, 0, 16⟩
def CR_PORT_00_RX_SUM (i : Nat) : Fld := ⟨0x80400 + 0x20 * i, 0, 32⟩
def CR_PORT_04_RX_FCS (i : Nat) : Fld := ⟨0x80404 + 0x20 * i, 0, 32⟩
def CR_PORT_08_RX_HDR (i : Nat) : Fld := ⟨0x80408 + 0x20 * i, 0, 32⟩
def CR_PORT_0C_RX_DUP (i : Nat) : Fld := ⟨0x8040C + 0x20 * i, 0, 16⟩
def CR_PORT_0C_OLD (i : Nat) : Fld := ⟨0x8040C + 0x20 * i, 16, 16⟩
def CR_PORT_10_FWD_STOMP (i : Nat) : Fld := ⟨0x80410 + 0x20 * i, 0, 32⟩
def CR_PORT_14_RX_ACYC (i : Nat) : Fld := ⟨0x80414 + 0x20 * i, 0, 32⟩
def CR_PORT_18_ACYC_DROP (i : Nat) : Fld := ⟨0x80418 + 0x20 * i, 0, 32⟩
def CR_PORT_1C_TX_ACYC (i : Nat) : Fld := ⟨0x8041C + 0x20 * i, 0, 32⟩
def CR_MISS_CNT0 (i : Nat) (j : Nat) : Fld := ⟨0x80800 + 0x80 * i + 0x4 * j, 0, 8⟩
def CR_MISS_CNT1 (i : Nat) (j : Nat) : Fld := ⟨0x80800 + 0x80 * i + 0x4 * j, 8, 8⟩
def CR_MISS_CNT2 (i : Nat) (j : Nat) : Fld := ⟨0x80800 + 0x80 * i + 0x4 * j, 16, 8⟩
def CR_MISS_CNT3 (i : Nat) (j : Nat) : Fld := ⟨0x80800 + 0x80 * i + 0x4 * j, 24, 8⟩
def CB_STAT_CFG_ERR : Fld := ⟨0x90000, 0, 1⟩
def CB_STAT_CFG_CODE : Fld := ⟨0x90000, 4, 4⟩
def CB_STAT_STATE : Fld := ⟨0x90000, 8, 3⟩
def CB_STAT_A_OK : Fld := ⟨0x90000, 11, 1⟩
def CB_STAT_B_OK : Fld := ⟨0x90000, 12, 1⟩
def CB_STAT_LISTEN_WHY : Fld := ⟨0x90000, 13, 3⟩
def CB_STAT_LINK : Fld := ⟨0x90000, 16, 4⟩
def CB_CFG_ROLE : Fld := ⟨0x90004, 0, 2⟩
def CB_CFG_A_EN : Fld := ⟨0x90004, 2, 1⟩
def CB_CFG_B_EN : Fld := ⟨0x90004, 3, 1⟩
def CB_CFG_PTO : Fld := ⟨0x90004, 4, 4⟩
def CB_CFG_NODE : Fld := ⟨0x90004, 8, 8⟩
def CB_CFG_TM_NODE : Fld := ⟨0x90004, 16, 8⟩
def CB_CFG_SYNC_HOLD : Fld := ⟨0x90004, 24, 1⟩
def CB_CFG_SYNC_LOSS_N : Fld := ⟨0x90004, 25, 4⟩
def CB_BC_BC_LEN : Fld := ⟨0x90008, 0, 14⟩
def CB_ETYPE_ETYPE : Fld := ⟨0x9000C, 0, 16⟩
def CB_DA_LO_DA_LO : Fld := ⟨0x90010, 0, 32⟩
def CB_DA_HI_DA_HI : Fld := ⟨0x90014, 0, 16⟩
def CB_MAC_LO_MAC_LO : Fld := ⟨0x90018, 0, 32⟩
def CB_MAC_HI_MAC_HI : Fld := ⟨0x9001C, 0, 16⟩
def CB_SPAN_SPAN : Fld := ⟨0x90020, 0, 20⟩
def CB_SYNCCHK_SYNC_DLY : Fld := ⟨0x90024, 0, 20⟩
def CB_SYNCCHK_SYNC_TOL : Fld := ⟨0x90024, 20, 8⟩
def CB_ARB_BO_SLOT : Fld := ⟨0x90028, 0, 16⟩
def CB_GRP_LO_GRP : Fld := ⟨0x9002C, 0, 32⟩
def CB_GRP_HI_GRP : Fld := ⟨0x90030, 0, 32⟩
def CB_BANK_ADDR_WORD : Fld := ⟨0x90034, 0, 16⟩
def CB_BANK_ADDR_BANK : Fld := ⟨0x90034, 16, 1⟩
def CB_BANK_DATA_DATA : Fld := ⟨0x90038, 0, 32⟩
def CB_BANKS_ACTIVE : Fld := ⟨0x9003C, 0, 1⟩
def CB_BANKS_VALID0 : Fld := ⟨0x9003C, 1, 1⟩
def CB_BANKS_VALID1 : Fld := ⟨0x9003C, 2, 1⟩
def CB_BANKS_ANN_PEND : Fld := ⟨0x9003C, 3, 1⟩
def CB_BANKS_LOADING : Fld := ⟨0x9003C, 4, 1⟩
def CB_ID0_SCHED_ID : Fld := ⟨0x90040, 0, 32⟩
def CB_ID1_SCHED_ID : Fld := ⟨0x90044, 0, 32⟩
def CB_ANN_ID_ANN_ID : Fld := ⟨0x90048, 0, 32⟩
def CB_ACT_MCN_ACT_MCN : Fld := ⟨0x9004C, 0, 32⟩
def CB_MCN_MCN : Fld := ⟨0x90050, 0, 32⟩
def CB_POS_BC : Fld := ⟨0x90054, 0, 8⟩
def CB_POS_N_BC : Fld := ⟨0x90054, 8, 8⟩
def CB_SYNCDEV_LAST : Fld := ⟨0x90058, 0, 16⟩
def CB_SYNCDEV_MAX : Fld := ⟨0x90058, 16, 16⟩
def CB_CNT_SYNC_MISS : Fld := ⟨0x9005C, 0, 16⟩
def CB_CNT_SYNC_FOREIGN : Fld := ⟨0x9005C, 16, 16⟩
def CB_CLR_CNT : Fld := ⟨0x90060, 0, 1⟩
def CB_PORT_00_RX_OK (i : Nat) : Fld := ⟨0x90400 + 0x20 * i, 0, 32⟩
def CB_PORT_04_RX_FCS (i : Nat) : Fld := ⟨0x90404 + 0x20 * i, 0, 32⟩
def CB_PORT_08_RX_HDR (i : Nat) : Fld := ⟨0x90408 + 0x20 * i, 0, 32⟩
def CB_PORT_0C_RX_DUP (i : Nat) : Fld := ⟨0x9040C + 0x20 * i, 0, 32⟩
def CB_PORT_10_RLY_FWD (i : Nat) : Fld := ⟨0x90410 + 0x20 * i, 0, 32⟩
def CB_PORT_14_RLY_DROP (i : Nat) : Fld := ⟨0x90414 + 0x20 * i, 0, 16⟩
def CB_PORT_14_LOOP (i : Nat) : Fld := ⟨0x90414 + 0x20 * i, 16, 16⟩
def CB_PORT_18_TX_FRAMES (i : Nat) : Fld := ⟨0x90418 + 0x20 * i, 0, 32⟩
def CB_PORT_1C_RX_DROP (i : Nat) : Fld := ⟨0x9041C + 0x20 * i, 0, 16⟩
def CB_PORT_1C_TX_MISSED (i : Nat) : Fld := ⟨0x9041C + 0x20 * i, 16, 16⟩
def SIG_STAT_CFG_ERR : Fld := ⟨0xA0000, 0, 1⟩
def SIG_STAT_CFG_CODE : Fld := ⟨0xA0000, 2, 4⟩
def SIG_STAT_CFG_INDEX : Fld := ⟨0xA0000, 6, 26⟩
def SIG_CFG_AGE_UNIT : Fld := ⟨0xA0004, 0, 2⟩
def SIG_STORE_BASE_BASE : Fld := ⟨0xA0008, 0, 11⟩
def SIG_SLOTS_SLOTS : Fld := ⟨0xA000C, 0, 26⟩
def SIG_MAP_BASE_BASE : Fld := ⟨0xA0010, 0, 28⟩
def SIG_DSET_BASE_BASE : Fld := ⟨0xA0014, 0, 28⟩
def SIG_BUF_BASE_BASE : Fld := ⟨0xA001C, 0, 28⟩
def SIG_RANGE_BASE_BASE : Fld := ⟨0xA0024, 0, 28⟩
def SIG_ACC_BASE_BASE : Fld := ⟨0xA002C, 0, 28⟩
def SIG_DSET_COUNT_COUNT : Fld := ⟨0xA0018, 0, 19⟩
def SIG_BUF_SIZE_SIZE : Fld := ⟨0xA0020, 0, 13⟩
def SIG_RANGE_COUNT_COUNT : Fld := ⟨0xA0028, 0, 17⟩
def SIG_ACC_COUNT_COUNT : Fld := ⟨0xA0030, 0, 21⟩
def SIG_FORCES_FORCES : Fld := ⟨0xA0040, 0, 26⟩
def SIG_DROPS_DROPS : Fld := ⟨0xA0044, 0, 32⟩
def SIG_PASS_WAIT_MAX : Fld := ⟨0xA0048, 0, 16⟩
def SIG_PASS_STALES : Fld := ⟨0xA0048, 16, 16⟩
def SIG_CLR_CNT : Fld := ⟨0xA004C, 0, 1⟩
def GW_STAT_CFG_ERR : Fld := ⟨0xB0000, 0, 1⟩
def GW_STAT_CFG_CODE : Fld := ⟨0xB0000, 4, 4⟩
def GW_STAT_CFG_INDEX : Fld := ⟨0xB0000, 8, 24⟩
def GW_ROUTE_BASE_BASE : Fld := ⟨0xB0004, 0, 28⟩
def GW_GROUP_BASE_BASE : Fld := ⟨0xB000C, 0, 28⟩
def GW_ROUTE_COUNT_COUNT : Fld := ⟨0xB0008, 0, 17⟩
def GW_GROUP_COUNT_COUNT : Fld := ⟨0xB0010, 0, 15⟩
def GW_RUNS_RUNS : Fld := ⟨0xB0020, 0, 32⟩
def GW_WAIT_WAIT_MAX : Fld := ⟨0xB0024, 0, 16⟩
def GW_CLR_CNT : Fld := ⟨0xB0028, 0, 1⟩
def RB_STAT_CFG_ERR : Fld := ⟨0xC0000, 0, 1⟩
def RB_STAT_CFG_CODE : Fld := ⟨0xC0000, 4, 4⟩
def RB_STAT_RST : Fld := ⟨0xC0000, 8, 1⟩
def RB_STAT_BUSY : Fld := ⟨0xC0000, 9, 1⟩
def RB_CFG_TMO : Fld := ⟨0xC0004, 0, 8⟩
def RB_CFG_RST_WAIT : Fld := ⟨0xC0004, 8, 8⟩
def RB_WIN_EN (i : Nat) : Fld := ⟨0xC0010 + 0x4 * i, 0, 1⟩
def RB_WIN_POSTED (i : Nat) : Fld := ⟨0xC0010 + 0x4 * i, 1, 1⟩
def RB_WIN_PART_EN (i : Nat) : Fld := ⟨0xC0010 + 0x4 * i, 2, 1⟩
def RB_WIN_PART (i : Nat) : Fld := ⟨0xC0010 + 0x4 * i, 8, 8⟩
def RB_PERR_WIN : Fld := ⟨0xC0060, 0, 4⟩
def RB_PERR_KIND : Fld := ⟨0xC0060, 4, 2⟩
def RB_PERR_VALID : Fld := ⟨0xC0060, 31, 1⟩
def RB_PERR_OFS_OFFSET : Fld := ⟨0xC0064, 0, 24⟩
def RB_PERR_CNT_COUNT : Fld := ⟨0xC0068, 0, 32⟩
def RB_AERR_WIN : Fld := ⟨0xC006C, 0, 4⟩
def RB_AERR_KIND : Fld := ⟨0xC006C, 4, 2⟩
def RB_AERR_HART : Fld := ⟨0xC006C, 6, 2⟩
def RB_AERR_VALID : Fld := ⟨0xC006C, 31, 1⟩
def RB_AERR_OFS_OFFSET : Fld := ⟨0xC0070, 0, 24⟩
def RB_AERR_CNT_COUNT : Fld := ⟨0xC0074, 0, 32⟩
def RB_CYCLES_CYCLES : Fld := ⟨0xC0078, 0, 32⟩
def RB_STUCK_RESETS : Fld := ⟨0xC007C, 0, 16⟩
def RB_CLR_CNT : Fld := ⟨0xC0080, 0, 1⟩
def CYC_STAT_CFG_ERR : Fld := ⟨0xD0000, 0, 1⟩
def CYC_STAT_CFG_CODE : Fld := ⟨0xD0000, 4, 4⟩
def CYC_STAT_FORCE : Fld := ⟨0xD0000, 8, 1⟩
def CYC_STAT_IDLE : Fld := ⟨0xD0000, 9, 1⟩
def CYC_STAT_CFG_INDEX : Fld := ⟨0xD0000, 16, 9⟩
def CYC_CFG_IDLE_GUARD : Fld := ⟨0xD0004, 0, 10⟩
def CYC_IDLE_LEN : Fld := ⟨0xD0008, 0, 16⟩
def CYC_IDLE_COUNT : Fld := ⟨0xD0008, 16, 16⟩
def CYC_FORCES_COUNT : Fld := ⟨0xD000C, 0, 11⟩
def CYC_OVR_TASK : Fld := ⟨0xD0010, 0, 6⟩
def CYC_OVR_PART : Fld := ⟨0xD0010, 8, 8⟩
def CYC_OVR_VALID : Fld := ⟨0xD0010, 31, 1⟩
def CYC_CNT_BAD_END : Fld := ⟨0xD0014, 0, 16⟩
def CYC_CNT_STOP_DISC : Fld := ⟨0xD0014, 16, 16⟩
def CYC_CLR_CNT : Fld := ⟨0xD0018, 0, 1⟩
def CYC_TASK_END_TASK : Fld := ⟨0xD0100, 0, 6⟩
def TASK_CTL_EN (i : Nat) : Fld := ⟨0xD0400 + 0x40 * i, 0, 1⟩
def TASK_CTL_TYPE (i : Nat) : Fld := ⟨0xD0400 + 0x40 * i, 1, 1⟩
def TASK_CTL_WDT_ACTION (i : Nat) : Fld := ⟨0xD0400 + 0x40 * i, 2, 2⟩
def TASK_CTL_LINE (i : Nat) : Fld := ⟨0xD0400 + 0x40 * i, 4, 4⟩
def TASK_CTL_PTO (i : Nat) : Fld := ⟨0xD0400 + 0x40 * i, 8, 4⟩
def TASK_CTL_PART (i : Nat) : Fld := ⟨0xD0400 + 0x40 * i, 16, 8⟩
def TASK_DIV_DIV (i : Nat) : Fld := ⟨0xD0404 + 0x40 * i, 0, 16⟩
def TASK_DIV_PHASE (i : Nat) : Fld := ⟨0xD0404 + 0x40 * i, 16, 16⟩
def TASK_WDT_WDT (i : Nat) : Fld := ⟨0xD0408 + 0x40 * i, 0, 24⟩
def TASK_IN_BASE (i : Nat) : Fld := ⟨0xD040C + 0x40 * i, 0, 28⟩
def TASK_IN_LIST_EN (i : Nat) : Fld := ⟨0xD040C + 0x40 * i, 28, 1⟩
def TASK_IN_FORMAT (i : Nat) : Fld := ⟨0xD040C + 0x40 * i, 29, 1⟩
def TASK_LIST_BASE (i : Nat) : Fld := ⟨0xD0410 + 0x40 * i, 0, 28⟩
def TASK_INMASK_LO_INMASK (i : Nat) : Fld := ⟨0xD0414 + 0x40 * i, 0, 32⟩
def TASK_INMASK_HI_INMASK (i : Nat) : Fld := ⟨0xD0418 + 0x40 * i, 0, 26⟩
def TASK_OUT0_BASE (i : Nat) : Fld := ⟨0xD041C + 0x40 * i, 0, 28⟩
def TASK_OUT1_BASE (i : Nat) : Fld := ⟨0xD0420 + 0x40 * i, 0, 28⟩
def TASK_SAFE_BASE (i : Nat) : Fld := ⟨0xD0424 + 0x40 * i, 0, 28⟩
def TASK_OUTMASK_LO_OUTMASK (i : Nat) : Fld := ⟨0xD0428 + 0x40 * i, 0, 32⟩
def TASK_OUTMASK_HI_OUTMASK (i : Nat) : Fld := ⟨0xD042C + 0x40 * i, 0, 26⟩
def TASK_DSET_FIRST (i : Nat) : Fld := ⟨0xD0430 + 0x40 * i, 0, 18⟩
def TASK_DSET_COUNT (i : Nat) : Fld := ⟨0xD0430 + 0x40 * i, 18, 9⟩
def TASK_STAT_STATE (i : Nat) : Fld := ⟨0xD0434 + 0x40 * i, 0, 3⟩
def TASK_STAT_BUF (i : Nat) : Fld := ⟨0xD0434 + 0x40 * i, 3, 1⟩
def TASK_STAT_COMMIT0 (i : Nat) : Fld := ⟨0xD0434 + 0x40 * i, 4, 1⟩
def TASK_STAT_COMMIT1 (i : Nat) : Fld := ⟨0xD0434 + 0x40 * i, 5, 1⟩
def TASK_STAT_OVERRUNS (i : Nat) : Fld := ⟨0xD0434 + 0x40 * i, 8, 8⟩
def TASK_STAT_START_LATE (i : Nat) : Fld := ⟨0xD0434 + 0x40 * i, 16, 16⟩
def TASK_CYCLE_CYCLE (i : Nat) : Fld := ⟨0xD0438 + 0x40 * i, 0, 32⟩
def TASK_TIME_LAST (i : Nat) : Fld := ⟨0xD043C + 0x40 * i, 0, 16⟩
def TASK_TIME_MAX (i : Nat) : Fld := ⟨0xD043C + 0x40 * i, 16, 16⟩
def CYC_PART_START (i : Nat) : Fld := ⟨0xD1400 + 0x8 * i, 0, 2⟩
def CYC_PART_ERR_EN (i : Nat) : Fld := ⟨0xD1400 + 0x8 * i, 2, 1⟩
def CYC_PART_ERR_TASK (i : Nat) : Fld := ⟨0xD1400 + 0x8 * i, 3, 6⟩
def CYC_PART_STATE (i : Nat) : Fld := ⟨0xD1400 + 0x8 * i, 12, 2⟩
def CYC_PART_FORCE_MAX (i : Nat) : Fld := ⟨0xD1400 + 0x8 * i, 16, 11⟩
def CYC_RET_FIRST (i : Nat) : Fld := ⟨0xD1404 + 0x8 * i, 0, 12⟩
def CYC_RET_COUNT (i : Nat) : Fld := ⟨0xD1404 + 0x8 * i, 12, 12⟩
def CYC_STN_EN (i : Nat) : Fld := ⟨0xD1C00 + 0x8 * i, 0, 1⟩
def CYC_STN_RING (i : Nat) : Fld := ⟨0xD1C00 + 0x8 * i, 1, 2⟩
def CYC_STN_POS (i : Nat) : Fld := ⟨0xD1C00 + 0x8 * i, 3, 7⟩
def CYC_STN_N (i : Nat) : Fld := ⟨0xD1C00 + 0x8 * i, 10, 4⟩
def CYC_STN_MISSING (i : Nat) : Fld := ⟨0xD1C00 + 0x8 * i, 30, 1⟩
def CYC_STD_DSET_FIRST (i : Nat) : Fld := ⟨0xD1C04 + 0x8 * i, 0, 18⟩
def CYC_STD_DSET_COUNT (i : Nat) : Fld := ⟨0xD1C04 + 0x8 * i, 18, 6⟩
def CYC_FORCE0_OFS (i : Nat) : Fld := ⟨0xD4000 + 0x10 * i, 0, 17⟩
def CYC_FORCE0_BIT (i : Nat) : Fld := ⟨0xD4000 + 0x10 * i, 17, 6⟩
def CYC_FORCE0_WIDTH (i : Nat) : Fld := ⟨0xD4000 + 0x10 * i, 23, 6⟩
def CYC_FORCE0_DIR (i : Nat) : Fld := ⟨0xD4000 + 0x10 * i, 29, 1⟩
def CYC_FORCE0_EN (i : Nat) : Fld := ⟨0xD4000 + 0x10 * i, 31, 1⟩
def CYC_FORCE1_TASK (i : Nat) : Fld := ⟨0xD4004 + 0x10 * i, 0, 6⟩
def CYC_FORCE1_PART (i : Nat) : Fld := ⟨0xD4004 + 0x10 * i, 8, 8⟩
def CYC_FORCE2_VALUE (i : Nat) : Fld := ⟨0xD4008 + 0x10 * i, 0, 32⟩
def CYC_FORCE3_VALUE (i : Nat) : Fld := ⟨0xD400C + 0x10 * i, 0, 32⟩
def FLD_STAT_CFG_ERR : Fld := ⟨0xE0000, 0, 1⟩
def FLD_STAT_CFG_CODE : Fld := ⟨0xE0000, 4, 4⟩
def FLD_STAT_CFG_ISL : Fld := ⟨0xE0000, 8, 6⟩
def FLD_STAT_CFG_CH : Fld := ⟨0xE0000, 16, 4⟩
def FLD_CLR_CNT : Fld := ⟨0xE0004, 0, 1⟩
def FLD_LINKFLT_LO_FLT : Fld := ⟨0xE0008, 0, 32⟩
def FLD_LINKFLT_HI_FLT : Fld := ⟨0xE000C, 0, 26⟩
def FLD_ISL_EN (i : Nat) : Fld := ⟨0xE0100 + 0x4 * i, 0, 1⟩
def FLD_ISL_MANUAL (i : Nat) : Fld := ⟨0xE0100 + 0x4 * i, 1, 1⟩
def FLD_ISL_SHARED_IN (i : Nat) : Fld := ⟨0xE0100 + 0x4 * i, 2, 1⟩
def FLD_ISL_PART (i : Nat) : Fld := ⟨0xE0100 + 0x4 * i, 8, 8⟩
def FLD_LNK_STATE (i : Nat) : Fld := ⟨0xE0200 + 0x4 * i, 0, 3⟩
def FLD_LNK_FAULTS (i : Nat) : Fld := ⟨0xE0200 + 0x4 * i, 8, 8⟩
def FLD_LNK_CRC_ERR (i : Nat) : Fld := ⟨0xE0200 + 0x4 * i, 16, 16⟩
def FLD_DI_TYPE (i : Nat) : Fld := ⟨0xE0400 + 0x4 * i, 0, 2⟩
def FLD_DI_VS_MON (i : Nat) : Fld := ⟨0xE0400 + 0x4 * i, 2, 1⟩
def FLD_DI_DEBOUNCE (i : Nat) : Fld := ⟨0xE0400 + 0x4 * i, 8, 8⟩
def FLD_DIO_FUNC (i : Nat) (j : Nat) : Fld := ⟨0xE0800 + 0x80 * i + 0x8 * j, 0, 2⟩
def FLD_DIO_RETRY_EN (i : Nat) (j : Nat) : Fld := ⟨0xE0800 + 0x80 * i + 0x8 * j, 2, 1⟩
def FLD_DIO_RETRY_MAX (i : Nat) (j : Nat) : Fld := ⟨0xE0800 + 0x80 * i + 0x8 * j, 3, 3⟩
def FLD_DIO_RETRY_DLY (i : Nat) (j : Nat) : Fld := ⟨0xE0800 + 0x80 * i + 0x8 * j, 6, 8⟩
def FLD_DIO_OFFDIAG_EN (i : Nat) (j : Nat) : Fld := ⟨0xE0800 + 0x80 * i + 0x8 * j, 14, 1⟩
def FLD_DIO_ONDIAG_EN (i : Nat) (j : Nat) : Fld := ⟨0xE0800 + 0x80 * i + 0x8 * j, 15, 1⟩
def FLD_DIO_FREQ (i : Nat) (j : Nat) : Fld := ⟨0xE0800 + 0x80 * i + 0x8 * j, 16, 11⟩
def FLD_DIO1_RAMP (i : Nat) (j : Nat) : Fld := ⟨0xE0804 + 0x80 * i + 0x8 * j, 0, 10⟩
def FLD_DIO1_DEBOUNCE (i : Nat) (j : Nat) : Fld := ⟨0xE0804 + 0x80 * i + 0x8 * j, 10, 8⟩
def FLD_AI_CFG_SYNC_SRC : Fld := ⟨0xE4000, 0, 2⟩
def FLD_AI_CFG_SYNC_CMD_EN : Fld := ⟨0xE4000, 2, 1⟩
def FLD_AI_CFG_PTO : Fld := ⟨0xE4000, 4, 4⟩
def FLD_AI_CFG_SYNC_PART : Fld := ⟨0xE4000, 8, 8⟩
def FLD_AI_SYNC_STAT_SYNCS : Fld := ⟨0xE4004, 0, 16⟩
def FLD_AI_SYNC_STAT_MERGED : Fld := ⟨0xE4004, 16, 15⟩
def FLD_AI_SYNC_STAT_CLR : Fld := ⟨0xE4004, 31, 1⟩
def FLD_AI_ALIGN_LO_NS : Fld := ⟨0xE4008, 0, 32⟩
def FLD_AI_ALIGN_HI_NS : Fld := ⟨0xE400C, 0, 32⟩
def FLD_AIL_MODE (i : Nat) : Fld := ⟨0xE4100 + 0x8 * i, 0, 2⟩
def FLD_AIL_SINC (i : Nat) : Fld := ⟨0xE4100 + 0x8 * i, 2, 3⟩
def FLD_AIL_FIR (i : Nat) : Fld := ⟨0xE4100 + 0x8 * i, 5, 2⟩
def FLD_AIL_SCS (i : Nat) : Fld := ⟨0xE4100 + 0x8 * i, 7, 1⟩
def FLD_AIL_ALIGN_EN (i : Nat) : Fld := ⟨0xE4100 + 0x8 * i, 8, 1⟩
def FLD_AIL_FSK_EN (i : Nat) : Fld := ⟨0xE4100 + 0x8 * i, 9, 1⟩
def FLD_AIL_MULTIDROP (i : Nat) : Fld := ⟨0xE4100 + 0x8 * i, 10, 1⟩
def FLD_AIL_OPEN_EN (i : Nat) : Fld := ⟨0xE4100 + 0x8 * i, 11, 1⟩
def FLD_AIL_COMP_EN (i : Nat) : Fld := ⟨0xE4100 + 0x8 * i, 12, 1⟩
def FLD_AIL1_LEAD (i : Nat) : Fld := ⟨0xE4104 + 0x8 * i, 0, 4⟩
def SAF_STAT_CFG_ERR : Fld := ⟨0xF0000, 0, 1⟩
def SAF_STAT_CFG_CODE : Fld := ⟨0xF0000, 4, 4⟩
def SAF_STAT_CFG_INDEX : Fld := ⟨0xF0000, 8, 5⟩
def SAF_STAT_SEQ_ERR : Fld := ⟨0xF0000, 16, 1⟩
def SAF_STAT_DEGRADED : Fld := ⟨0xF0000, 17, 1⟩
def SAF_STAT_TRIPPED : Fld := ⟨0xF0000, 18, 1⟩
def SAF_CLR_CNT : Fld := ⟨0xF0004, 0, 1⟩
def SAF_CNT_TP_FAILS : Fld := ⟨0xF0008, 0, 16⟩
def SAF_CNT_FB_FAILS : Fld := ⟨0xF0008, 16, 16⟩
def SAF_TPS_EN (i : Nat) : Fld := ⟨0xF0100 + 0x4 * i, 0, 1⟩
def SAF_TPS_PER (i : Nat) : Fld := ⟨0xF0100 + 0x4 * i, 8, 8⟩
def SAF_TPS_PHASE (i : Nat) : Fld := ⟨0xF0100 + 0x4 * i, 16, 8⟩
def SAF_TPS_SETTLE (i : Nat) : Fld := ⟨0xF0100 + 0x4 * i, 24, 7⟩
def SAF_BCTL_EN (i : Nat) : Fld := ⟨0xF0200 + 0x10 * i, 0, 1⟩
def SAF_BCTL_MODE (i : Nat) : Fld := ⟨0xF0200 + 0x10 * i, 1, 1⟩
def SAF_BCTL_ESCALATE (i : Nat) : Fld := ⟨0xF0200 + 0x10 * i, 2, 1⟩
def SAF_BCTL_RST_MODE (i : Nat) : Fld := ⟨0xF0200 + 0x10 * i, 3, 1⟩
def SAF_BCTL_FB1_INV (i : Nat) : Fld := ⟨0xF0200 + 0x10 * i, 4, 1⟩
def SAF_BCTL_FB2_INV (i : Nat) : Fld := ⟨0xF0200 + 0x10 * i, 5, 1⟩
def SAF_BCTL_FB1_EN (i : Nat) : Fld := ⟨0xF0200 + 0x10 * i, 6, 1⟩
def SAF_BCTL_FB2_EN (i : Nat) : Fld := ⟨0xF0200 + 0x10 * i, 7, 1⟩
def SAF_BCTL_PART (i : Nat) : Fld := ⟨0xF0200 + 0x10 * i, 8, 8⟩
def SAF_BCTL_DISC_TIME (i : Nat) : Fld := ⟨0xF0200 + 0x10 * i, 16, 8⟩
def SAF_BCTL_IN_FILT (i : Nat) : Fld := ⟨0xF0200 + 0x10 * i, 24, 8⟩
def SAF_BIN_IN1 (i : Nat) : Fld := ⟨0xF0204 + 0x10 * i, 0, 8⟩
def SAF_BIN_IN2 (i : Nat) : Fld := ⟨0xF0204 + 0x10 * i, 8, 8⟩
def SAF_BIN_TPS1 (i : Nat) : Fld := ⟨0xF0204 + 0x10 * i, 16, 4⟩
def SAF_BIN_TP1_EN (i : Nat) : Fld := ⟨0xF0204 + 0x10 * i, 20, 1⟩
def SAF_BIN_TPS2 (i : Nat) : Fld := ⟨0xF0204 + 0x10 * i, 21, 4⟩
def SAF_BIN_TP2_EN (i : Nat) : Fld := ⟨0xF0204 + 0x10 * i, 25, 1⟩
def SAF_BIN_DEG_LIMIT (i : Nat) : Fld := ⟨0xF0204 + 0x10 * i, 26, 6⟩
def SAF_BOUT_OUT1 (i : Nat) : Fld := ⟨0xF0208 + 0x10 * i, 0, 7⟩
def SAF_BOUT_OUT1_EN (i : Nat) : Fld := ⟨0xF0208 + 0x10 * i, 7, 1⟩
def SAF_BOUT_OUT2 (i : Nat) : Fld := ⟨0xF0208 + 0x10 * i, 8, 7⟩
def SAF_BOUT_OUT2_EN (i : Nat) : Fld := ⟨0xF0208 + 0x10 * i, 15, 1⟩
def SAF_BOUT_FB1 (i : Nat) : Fld := ⟨0xF0208 + 0x10 * i, 16, 8⟩
def SAF_BOUT_FB2 (i : Nat) : Fld := ⟨0xF0208 + 0x10 * i, 24, 8⟩
def SAF_BSTAT_STATE (i : Nat) : Fld := ⟨0xF020C + 0x10 * i, 0, 3⟩
def SAF_BSTAT_PERMIT1 (i : Nat) : Fld := ⟨0xF020C + 0x10 * i, 3, 1⟩
def SAF_BSTAT_PERMIT2 (i : Nat) : Fld := ⟨0xF020C + 0x10 * i, 4, 1⟩
def SAF_BSTAT_RESTART (i : Nat) : Fld := ⟨0xF020C + 0x10 * i, 5, 1⟩
def SAF_BSTAT_CH1_FLT (i : Nat) : Fld := ⟨0xF020C + 0x10 * i, 8, 1⟩
def SAF_BSTAT_CH2_FLT (i : Nat) : Fld := ⟨0xF020C + 0x10 * i, 9, 1⟩
def SAF_BSTAT_CAUSE (i : Nat) : Fld := ⟨0xF020C + 0x10 * i, 12, 4⟩
def SAF_BSTAT_DEG_LEFT (i : Nat) : Fld := ⟨0xF020C + 0x10 * i, 16, 16⟩
def PAIR_CFG_EN : Fld := ⟨0x100000, 0, 1⟩
def PAIR_CFG_REVERT : Fld := ⟨0x100000, 1, 1⟩
def PAIR_CFG_ALONE_EN : Fld := ⟨0x100000, 2, 1⟩
def PAIR_CFG_PRES_WAIT : Fld := ⟨0x100000, 8, 8⟩
def PAIR_CFG_JOIN_TMO : Fld := ⟨0x100000, 16, 8⟩
def PAIR_CFG_SW_PART : Fld := ⟨0x100000, 24, 8⟩
def PAIR_STAT_ROLE : Fld := ⟨0x100004, 0, 2⟩
def PAIR_STAT_PEER_ROLE : Fld := ⟨0x100004, 2, 2⟩
def PAIR_STAT_PEER : Fld := ⟨0x100004, 4, 1⟩
def PAIR_STAT_LANE0 : Fld := ⟨0x100004, 5, 1⟩
def PAIR_STAT_LANE1 : Fld := ⟨0x100004, 6, 1⟩
def PAIR_STAT_PREFER_UNIT : Fld := ⟨0x100004, 7, 1⟩
def PAIR_STAT_OUT_OF_STEP : Fld := ⟨0x100004, 8, 1⟩
def PAIR_STAT_THROTTLE : Fld := ⟨0x100004, 9, 1⟩
def PAIR_STAT_CFG_ERR : Fld := ⟨0x100004, 10, 1⟩
def PAIR_STAT_JOINED : Fld := ⟨0x100004, 11, 1⟩
def PAIR_STAT_CFG_CODE : Fld := ⟨0x100004, 12, 4⟩
def PAIR_STAT_FENCE_WHY : Fld := ⟨0x100004, 16, 4⟩
def PAIR_EPOCH_LO_EPOCH : Fld := ⟨0x100008, 0, 32⟩
def PAIR_EPOCH_HI_EPOCH : Fld := ⟨0x10000C, 0, 32⟩
def PAIR_PEER_EPOCH_LO_EPOCH : Fld := ⟨0x100010, 0, 32⟩
def PAIR_PEER_EPOCH_HI_EPOCH : Fld := ⟨0x100014, 0, 32⟩
def PAIR_LAST_LO_CORD : Fld := ⟨0x100018, 0, 32⟩
def PAIR_LAST_HI_CORD : Fld := ⟨0x10001C, 0, 32⟩
def PAIR_PEER_MAC_LO_MAC_LO : Fld := ⟨0x100020, 0, 32⟩
def PAIR_PEER_MAC_HI_MAC_HI : Fld := ⟨0x100024, 0, 16⟩
def PAIR_JOIN_KEY : Fld := ⟨0x100028, 0, 16⟩
def PAIR_JOIN_FORCE : Fld := ⟨0x100028, 16, 1⟩
def PAIR_MIRROR_RATE : Fld := ⟨0x10002C, 0, 16⟩
def PAIR_MIRROR_PEAK : Fld := ⟨0x10002C, 16, 16⟩
def PAIR_STAGE_USED : Fld := ⟨0x100030, 0, 13⟩
def PAIR_STAGE_PEAK : Fld := ⟨0x100030, 16, 13⟩
def PAIR_CNT_HB_MISS : Fld := ⟨0x100034, 0, 16⟩
def PAIR_CNT_TAKEOVERS : Fld := ⟨0x100034, 16, 8⟩
def PAIR_CNT_YIELDS : Fld := ⟨0x100034, 24, 8⟩
def PAIR_RAW_DELTA_LO_DELTA : Fld := ⟨0x100038, 0, 32⟩
def PAIR_RAW_DELTA_HI_DELTA : Fld := ⟨0x10003C, 0, 32⟩
def PAIR_NT_DEV_LAST : Fld := ⟨0x100040, 0, 16⟩
def PAIR_NT_DEV_MAX : Fld := ⟨0x100040, 16, 16⟩
def PAIR_GAP_LAST : Fld := ⟨0x100044, 0, 16⟩
def PAIR_CLR_CNT : Fld := ⟨0x100048, 0, 1⟩
def PAIR_MRANGE_00_BASE (i : Nat) : Fld := ⟨0x100100 + 0x10 * i, 0, 28⟩
def PAIR_MRANGE_04_LIMIT (i : Nat) : Fld := ⟨0x100104 + 0x10 * i, 0, 28⟩
def PAIR_MRANGE_08_PART (i : Nat) : Fld := ⟨0x100108 + 0x10 * i, 0, 8⟩
def PAIR_MRANGE_08_EN (i : Nat) : Fld := ⟨0x100108 + 0x10 * i, 8, 1⟩
def REC_STAT_CFG_ERR : Fld := ⟨0x110000, 0, 1⟩
def REC_STAT_CFG_CODE : Fld := ⟨0x110000, 4, 4⟩
def REC_STAT_HDR_LOST : Fld := ⟨0x110000, 8, 1⟩
def REC_STAT_FLUSHING : Fld := ⟨0x110000, 9, 1⟩
def REC_STAT_CLEARING : Fld := ⟨0x110000, 10, 1⟩
def REC_STAT_CFG_INDEX : Fld := ⟨0x110000, 16, 12⟩
def REC_CFG_EN : Fld := ⟨0x110004, 0, 1⟩
def REC_CFG_FLUSH : Fld := ⟨0x110004, 8, 8⟩
def REC_CHAN_BASE_BASE : Fld := ⟨0x110008, 0, 28⟩
def REC_CHAN_COUNT_COUNT : Fld := ⟨0x11000C, 0, 13⟩
def REC_CLEAR_GEN_GEN : Fld := ⟨0x110010, 0, 32⟩
def REC_SAMPLES_SAMPLES : Fld := ⟨0x110014, 0, 32⟩
def REC_DROP_DROPS : Fld := ⟨0x110018, 0, 32⟩
def REC_NOTE_STAT_NEXT : Fld := ⟨0x11001C, 0, 7⟩
def REC_NOTE_STAT_BUSY : Fld := ⟨0x11001C, 7, 1⟩
def REC_NOTE_CMD_KIND : Fld := ⟨0x110020, 0, 8⟩
def REC_NOTE_CMD_LEN : Fld := ⟨0x110020, 8, 4⟩
def REC_NOTE_CMD_KEY : Fld := ⟨0x110020, 16, 16⟩
def REC_NOTE_D_DATA (i : Nat) : Fld := ⟨0x110024 + 0x4 * i, 0, 32⟩
def REC_CLR_CNT : Fld := ⟨0x110050, 0, 1⟩
def IST_STAT_CFG_ERR : Fld := ⟨0x120000, 0, 1⟩
def IST_STAT_CFG_CODE : Fld := ⟨0x120000, 4, 4⟩
def IST_STAT_LBIST_RUN : Fld := ⟨0x120000, 8, 1⟩
def IST_STAT_LBIST_LANE : Fld := ⟨0x120000, 9, 2⟩
def IST_STAT_SCRUB_RUN : Fld := ⟨0x120000, 11, 1⟩
def IST_CFG_LBIST_EN : Fld := ⟨0x120004, 0, 1⟩
def IST_CFG_SCRUB_EN : Fld := ⟨0x120004, 1, 1⟩
def IST_CFG_ISL_EN : Fld := ⟨0x120004, 2, 1⟩
def IST_CFG_OFFP_EN : Fld := ⟨0x120004, 3, 1⟩
def IST_CFG_CAL_EN : Fld := ⟨0x120004, 4, 1⟩
def IST_CFG_ROT_PERIOD : Fld := ⟨0x120004, 8, 8⟩
def IST_CFG_SCRUB_HOURS : Fld := ⟨0x120004, 16, 8⟩
def IST_CFG_ISL_PERIOD : Fld := ⟨0x120004, 24, 8⟩
def IST_CTL_PAUSE : Fld := ⟨0x120008, 0, 1⟩
def IST_OFFP_LEN : Fld := ⟨0x12000C, 0, 6⟩
def IST_OFFP_PERIOD : Fld := ⟨0x12000C, 8, 8⟩
def IST_OFFP_MASK_MASK (i : Nat) : Fld := ⟨0x120010 + 0x4 * i, 0, 32⟩
def IST_OFFP_FAIL_FAIL (i : Nat) : Fld := ⟨0x120020 + 0x4 * i, 0, 32⟩
def IST_LBIST_RUNS : Fld := ⟨0x120030, 0, 8⟩
def IST_LBIST_FAILS : Fld := ⟨0x120030, 8, 8⟩
def IST_LBIST_LAST : Fld := ⟨0x120030, 16, 2⟩
def IST_LBIST_LAST_PASS : Fld := ⟨0x120030, 18, 1⟩
def IST_SCRUB_PASSES : Fld := ⟨0x120034, 0, 16⟩
def IST_SCRUB_CORR : Fld := ⟨0x120034, 16, 16⟩
def IST_SCRUB_POS_LINE : Fld := ⟨0x120038, 0, 28⟩
def IST_SCRUB_UE_LO_ADDR_LO : Fld := ⟨0x12003C, 0, 32⟩
def IST_SCRUB_UE_HI_ADDR_HI : Fld := ⟨0x120040, 0, 8⟩
def IST_SCRUB_UE_HI_VALID : Fld := ⟨0x120040, 31, 1⟩
def IST_ISLFAIL_LO_FAIL : Fld := ⟨0x120044, 0, 32⟩
def IST_ISLFAIL_HI_FAIL : Fld := ⟨0x120048, 0, 26⟩
def IST_CAL_AGED : Fld := ⟨0x12004C, 0, 12⟩
def IST_CAL_RECAL : Fld := ⟨0x12004C, 16, 16⟩
def IST_CLR_CNT : Fld := ⟨0x120050, 0, 1⟩
def MPX_STAT_SHED : Fld := ⟨0x130000, 0, 2⟩
def MPX_STAT_LOAD : Fld := ⟨0x130000, 2, 7⟩
def MPX_STAT_UNLOCKED : Fld := ⟨0x130000, 9, 1⟩
def MPX_STAT_RECOVERY : Fld := ⟨0x130000, 10, 1⟩
def MPX_STAT_DBG_EN : Fld := ⟨0x130000, 11, 1⟩
def MPX_WDT_KEY : Fld := ⟨0x130004, 0, 16⟩
def MPX_WDT_TMO : Fld := ⟨0x130004, 16, 8⟩
def MPX_DBG_EN : Fld := ⟨0x130008, 0, 1⟩
def MPX_DWIN_BASE : Fld := ⟨0x13000C, 0, 9⟩
def MPX_IRQ_EN_IRQ : Fld := ⟨0x130010, 0, 10⟩
def MPX_IRQ_PEND_IRQ : Fld := ⟨0x130014, 0, 10⟩
def MPX_L2M_D_DATA (i : Nat) : Fld := ⟨0x130020 + 0x4 * i, 0, 32⟩
def MPX_L2M_CMD_SEQ : Fld := ⟨0x130040, 0, 16⟩
def MPX_L2M_CMD_CODE : Fld := ⟨0x130040, 16, 8⟩
def MPX_L2M_ACK_SEQ : Fld := ⟨0x130044, 0, 16⟩
def MPX_M2L_D_DATA (i : Nat) : Fld := ⟨0x130060 + 0x4 * i, 0, 32⟩
def MPX_M2L_CMD_SEQ : Fld := ⟨0x130080, 0, 16⟩
def MPX_M2L_CMD_CODE : Fld := ⟨0x130080, 16, 8⟩
def MPX_M2L_ACK_SEQ : Fld := ⟨0x130084, 0, 16⟩
def MPX_TELEM_PERIOD : Fld := ⟨0x130090, 0, 8⟩
def MPX_IP0_ADDR : Fld := ⟨0x130094, 0, 32⟩
def MPX_IP1_ADDR : Fld := ⟨0x130098, 0, 32⟩
def SYS_IMG_ADDR_LO_ADDR_LO : Fld := ⟨0x00060, 0, 32⟩
def SYS_IMG_ADDR_HI_ADDR_HI : Fld := ⟨0x00064, 0, 8⟩
def SYS_IMG_CMD_KEY : Fld := ⟨0x00068, 0, 16⟩
def SYS_IMG_STAT_BUSY : Fld := ⟨0x0006C, 0, 1⟩
def SYS_IMG_STAT_ACCEPTED : Fld := ⟨0x0006C, 1, 1⟩
def SYS_IMG_STAT_MODIFIED : Fld := ⟨0x0006C, 2, 1⟩
def SYS_IMG_STAT_SIGNED : Fld := ⟨0x0006C, 3, 1⟩
def SYS_IMG_STAT_ERR : Fld := ⟨0x0006C, 4, 4⟩
def SYS_IMG_STAT_SECT : Fld := ⟨0x0006C, 8, 6⟩
def SYS_IMG_STAT_SIG_REQ : Fld := ⟨0x0006C, 14, 1⟩
def SYS_IMG_ID_IMG_ID : Fld := ⟨0x00070, 0, 32⟩
def SYS_IMG_VER_IMG_VER : Fld := ⟨0x00074, 0, 32⟩

end F

/-- Register rows of block SYS, the largest arrays first. [DESIGN CHOICE, unsafe: notes/assumptions/5.md] -/
def regRowsSYS : List RegRow := [
  ⟨0x00400, 64, 0x10, 1, 0x10, 0x0, 0xFFFFFFF, 0x0, 0x0, 0x0, .any⟩, -- RAT_BASE
  ⟨0x00404, 64, 0x10, 1, 0x10, 0x0, 0xFFFFFFF, 0x0, 0x0, 0x0, .any⟩, -- RAT_LIMIT
  ⟨0x00408, 64, 0x10, 1, 0x10, 0x0, 0x7, 0x0, 0x0, 0x0, .any⟩, -- RAT_CTL
  ⟨0x0040C, 64, 0x10, 1, 0x10, 0x0, 0x0, 0x0, 0x0, 0x0, .any⟩, -- RAT_RSV
  ⟨0x00000, 1, 0x4, 1, 0x4, 0x0, 0x0, 0x0, 0x0, 0x64004E00, .any⟩, -- SYS_ID
  ⟨0x00004, 1, 0x4, 1, 0x4, 0x0, 0x0, 0x0, 0x0, 0x0, .any⟩, -- SYS_STEP
  ⟨0x00010, 1, 0x4, 1, 0x4, 0x0, 0x0, 0x0, 0x0, 0x0, .any⟩, -- SYS_PHASE
  ⟨0x00014, 1, 0x4, 1, 0x4, 0x0, 0x0, 0x0, 0x0, 0x0, .lane⟩, -- SYS_LOCK
  ⟨0x00020, 1, 0x4, 1, 0x4, 0x0, 0x0, 0x80, 0x0, 0x0, .any⟩, -- SYS_STRAP
  ⟨0x00040, 1, 0x4, 1, 0x4, 0x0, 0x0, 0x3FF0000, 0x0, 0x10000, .any⟩, -- SYS_RSTCAUSE
  ⟨0x00044, 1, 0x4, 1, 0x4, 0x0, 0x0, 0x0, 0x0, 0x0, .any⟩, -- SYS_RESET
  ⟨0x00048, 1, 0x4, 1, 0x4, 0x0, 0x0, 0x0, 0x4, 0x0, .any⟩, -- SYS_BOOT
  ⟨0x0004C, 1, 0x4, 1, 0x4, 0x0, 0x0, 0x0, 0x0, 0x0, .any⟩, -- SYS_FWVER
  ⟨0x00050, 1, 0x4, 1, 0x4, 0x5, 0x0, 0x8, 0x0, 0x0, .lane⟩, -- SYS_CLK
  ⟨0x00060, 1, 0x4, 1, 0x4, 0x0, 0xFFFFFFFF, 0x0, 0x0, 0x0, .any⟩, -- SYS_IMG_ADDR_LO
  ⟨0x00064, 1, 0x4, 1, 0x4, 0x0, 0xFF, 0x0, 0x0, 0x0, .any⟩, -- SYS_IMG_ADDR_HI
  ⟨0x00068, 1, 0x4, 1, 0x4, 0x0, 0x0, 0x0, 0x0, 0x0, .any⟩, -- SYS_IMG_CMD
  ⟨0x0006C, 1, 0x4, 1, 0x4, 0x0, 0x0, 0x0, 0x0, 0x0, .any⟩, -- SYS_IMG_STAT
  ⟨0x00070, 1, 0x4, 1, 0x4, 0x0, 0x0, 0x0, 0x0, 0x0, .any⟩, -- SYS_IMG_ID
  ⟨0x00074, 1, 0x4, 1, 0x4, 0x0, 0x0, 0x0, 0x0, 0x0, .any⟩ -- SYS_IMG_VER
]

/-- Register rows of block PWR, the largest arrays first. -/
def regRowsPWR : List RegRow := [
  ⟨0x10000, 1, 0x4, 1, 0x4, 0x0, 0x0, 0x18, 0x0, 0x0, .any⟩, -- PWR_STAT
  ⟨0x10004, 1, 0x4, 1, 0x4, 0x3, 0x0, 0x0, 0x0, 0x0, .lane⟩, -- PWR_PL
  ⟨0x10008, 1, 0x4, 1, 0x4, 0x3, 0x0, 0x0, 0x0, 0x1, .lane⟩, -- PWR_MODE
  ⟨0x1000C, 1, 0x4, 1, 0x4, 0x0, 0x3, 0x0, 0x0, 0x0, .any⟩, -- PWR_EMBER_CFG
  ⟨0x10010, 1, 0x4, 1, 0x4, 0x0, 0x3FFFF, 0x0, 0x0, 0x0, .any⟩, -- PWR_SAVE
  ⟨0x10014, 1, 0x4, 1, 0x4, 0x0, 0x0, 0x0, 0x0, 0x0, .any⟩, -- PWR_EMBER_STAT
  ⟨0x10018, 1, 0x4, 1, 0x4, 0xFFFF00FF, 0x0, 0x0, 0x0, 0x0, .any⟩, -- WAKE_EN
  ⟨0x1001C, 1, 0x4, 1, 0x4, 0x0, 0x0, 0x0, 0x0, 0x0, .any⟩, -- WAKE_SRC
  ⟨0x10020, 1, 0x4, 1, 0x4, 0x0, 0x0, 0x0, 0x0, 0x0, .any⟩, -- WAKE_PEND
  ⟨0x10024, 1, 0x4, 1, 0x4, 0x0, 0x0, 0x0, 0x0, 0x0, .any⟩, -- PWR_RTC_LO
  ⟨0x10028, 1, 0x4, 1, 0x4, 0x0, 0x0, 0x0, 0x0, 0x0, .any⟩, -- PWR_RTC_HI
  ⟨0x1002C, 1, 0x4, 1, 0x4, 0xFFFFFFFF, 0x0, 0x0, 0x0, 0xFFFFFFFF, .any⟩, -- PWR_ALARM_LO
  ⟨0x10030, 1, 0x4, 1, 0x4, 0xFFFF, 0x0, 0x0, 0x0, 0xFFFF, .any⟩, -- PWR_ALARM_HI
  ⟨0x10034, 1, 0x4, 1, 0x4, 0x0, 0x0, 0x0, 0x0, 0x0, .any⟩, -- PWR_RTC_ENTRY_LO
  ⟨0x10038, 1, 0x4, 1, 0x4, 0x0, 0x0, 0x0, 0x0, 0x0, .any⟩, -- PWR_RTC_ENTRY_HI
  ⟨0x1003C, 1, 0x4, 1, 0x4, 0x0, 0x0, 0x0, 0x0, 0x0, .any⟩, -- PWR_RTC_WAKE_LO
  ⟨0x10040, 1, 0x4, 1, 0x4, 0x0, 0x0, 0x0, 0x0, 0x0, .any⟩, -- PWR_RTC_WAKE_HI
  ⟨0x10044, 1, 0x4, 1, 0x4, 0x0, 0x0, 0x0, 0x0, 0x0, .any⟩, -- LP_STAT
  ⟨0x10048, 1, 0x4, 1, 0x4, 0x0, 0x0, 0x0, 0x0, 0x0, .mp⟩ -- PWR_MPWAKE
]

/-- Register rows of block LANE, the largest arrays first. -/
def regRowsLANE : List RegRow := [
  ⟨0x20000, 1, 0x4, 1, 0x4, 0x0, 0xFFFF, 0x0, 0x0, 0x3C36, .any⟩, -- LANE_CFG
  ⟨0x20004, 1, 0x4, 1, 0x4, 0x0, 0x0, 0x0, 0x0, 0xC0, .any⟩, -- LANE_STAT
  ⟨0x20008, 1, 0x4, 1, 0x4, 0x0, 0x0, 0x80000000, 0x0, 0x0, .any⟩, -- LANE_FAULT
  ⟨0x2000C, 1, 0x4, 1, 0x4, 0x0, 0x0, 0x0, 0x0, 0x0, .any⟩, -- LANE_FADDR_LO
  ⟨0x20010, 1, 0x4, 1, 0x4, 0x0, 0x0, 0x0, 0x0, 0x0, .any⟩, -- LANE_FADDR_HI
  ⟨0x20014, 1, 0x4, 1, 0x4, 0x0, 0x0, 0x0, 0x0, 0x0, .any⟩, -- LANE_FCNT
  ⟨0x20018, 1, 0x4, 1, 0x4, 0x0, 0x0, 0x0, 0x0, 0x0, .any⟩, -- LANE_RBCNT
  ⟨0x2001C, 1, 0x4, 1, 0x4, 0x0, 0x0, 0x0, 0x0, 0x0, .any⟩, -- LANE_ECC
  ⟨0x20020, 1, 0x4, 1, 0x4, 0x0, 0x3FF, 0x0, 0x0, 0x0, .any⟩, -- LANE_ECC_THR
  ⟨0x20024, 1, 0x4, 1, 0x4, 0x0, 0x0, 0x0, 0x0, 0x0, .any⟩, -- LANE_SAFE
  ⟨0x20028, 1, 0x4, 1, 0x4, 0x1, 0x0, 0x0, 0x0, 0x0, .any⟩, -- LANE_REINT
  ⟨0x2002C, 1, 0x4, 1, 0x4, 0x0, 0x0, 0x0, 0x0, 0x0, .any⟩ -- LANE_SAFECAUSE
]

/-- Register rows of block CORD, piece 1, the largest arrays first. -/
def regRowsCORD1 : List RegRow := [
  ⟨0x30400, 256, 0x4, 1, 0x4, 0x0, 0xFFF, 0x0, 0x0, 0x8, .any⟩, -- FLUE_QUOTA
  ⟨0x30000, 1, 0x4, 1, 0x4, 0x0, 0x3FFF, 0x0, 0x0, 0x3E8, .any⟩, -- CORD_PERIOD
  ⟨0x30004, 1, 0x4, 1, 0x4, 0x0, 0x1, 0x0, 0x0, 0x1, .any⟩, -- CORD_CFG
  ⟨0x30008, 1, 0x4, 1, 0x4, 0x0, 0x0, 0x0, 0x0, 0x0, .any⟩, -- CORD_STAT
  ⟨0x3000C, 1, 0x4, 1, 0x4, 0x0, 0x0, 0x0, 0x0, 0x0, .any⟩, -- CORD_LAST_LO
  ⟨0x30010, 1, 0x4, 1, 0x4, 0x0, 0x0, 0x0, 0x0, 0x0, .any⟩, -- CORD_LAST_HI
  ⟨0x30014, 1, 0x4, 1, 0x4, 0x0, 0x0, 0x0, 0x0, 0x0, .any⟩, -- CORD_SEAL_RAW_LO
  ⟨0x30018, 1, 0x4, 1, 0x4, 0x0, 0x0, 0x0, 0x0, 0x0, .any⟩, -- CORD_SEAL_RAW_HI
  ⟨0x3001C, 1, 0x4, 1, 0x4, 0x0, 0x0, 0x0, 0x0, 0x0, .any⟩, -- CORD_UNDO
  ⟨0x30020, 1, 0x4, 1, 0x4, 0x0, 0x0, 0x0, 0x0, 0x0, .any⟩, -- CORD_INLOG_USED
  ⟨0x30024, 1, 0x4, 1, 0x4, 0x0, 0x0, 0x0, 0x0, 0x0, .any⟩, -- CORD_INLOG_PEAK
  ⟨0x30028, 1, 0x4, 1, 0x4, 0x0, 0x0, 0x0, 0x0, 0x0, .any⟩, -- CORD_SEALTIME
  ⟨0x3002C, 1, 0x4, 1, 0x4, 0x0, 0x0, 0x0, 0x0, 0x0, .any⟩, -- CORD_FCNT
  ⟨0x30030, 1, 0x4, 1, 0x4, 0x0, 0x0, 0x0, 0x0, 0x0, .any⟩, -- CORD_RB
  ⟨0x30034, 1, 0x4, 1, 0x4, 0x0, 0x0, 0x0, 0x0, 0x0, .any⟩, -- CORD_RB_TO_LO
  ⟨0x30038, 1, 0x4, 1, 0x4, 0x0, 0x0, 0x0, 0x0, 0x0, .any⟩, -- CORD_RB_TO_HI
  ⟨0x3003C, 1, 0x4, 1, 0x4, 0x0, 0x0, 0x0, 0x0, 0x0, .any⟩, -- CORD_CLR
  ⟨0x30100, 1, 0x4, 1, 0x4, 0x0, 0x0, 0x0, 0x0, 0x0, .any⟩, -- FLUE_STAT
  ⟨0x30104, 1, 0x4, 1, 0x4, 0x0, 0xFF01, 0x0, 0x0, 0x6401, .any⟩, -- FLUE_CFG
  ⟨0x30108, 1, 0x4, 1, 0x4, 0x0, 0x0, 0x0, 0x0, 0x0, .any⟩, -- FLUE_PEAK
  ⟨0x3010C, 1, 0x4, 1, 0x4, 0x0, 0x0, 0x0, 0x0, 0x0, .any⟩, -- FLUE_DISC
  ⟨0x30110, 1, 0x4, 1, 0x4, 0x0, 0x0, 0x0, 0x0, 0x0, .any⟩, -- FLUE_SAFEDISC
  ⟨0x30114, 1, 0x4, 1, 0x4, 0x0, 0x0, 0x0, 0x0, 0x0, .any⟩, -- FLUE_FCNT
  ⟨0x30118, 1, 0x4, 1, 0x4, 0x0, 0x0, 0x0, 0x0, 0x0, .any⟩ -- FLUE_DUP
]

/-- Register rows of block CORD, piece 2, the largest arrays first. -/
def regRowsCORD2 : List RegRow := [
  ⟨0x3011C, 1, 0x4, 1, 0x4, 0x0, 0x0, 0x80000000, 0x0, 0x0, .any⟩, -- FLUE_STALL
  ⟨0x30120, 1, 0x4, 1, 0x4, 0xFFFF, 0x0, 0x0, 0x0, 0x0, .any⟩, -- FLUE_SEQSEL
  ⟨0x30124, 1, 0x4, 1, 0x4, 0x0, 0x0, 0x0, 0x0, 0x0, .any⟩, -- FLUE_SEQ_SEALED
  ⟨0x30128, 1, 0x4, 1, 0x4, 0x0, 0x0, 0x0, 0x0, 0x0, .any⟩, -- FLUE_SEQ_RELEASED
  ⟨0x3012C, 1, 0x4, 1, 0x4, 0x0, 0x0, 0x0, 0x0, 0x0, .any⟩ -- FLUE_CLR
]

/-- Register rows of block RING, the largest arrays first. -/
def regRowsRING : List RegRow := [
  ⟨0x40020, 8, 0x4, 1, 0x4, 0xFFFFFFFF, 0x0, 0x0, 0x0, 0x0, .any⟩, -- RING_CTX_D
  ⟨0x40000, 1, 0x4, 1, 0x4, 0x0, 0xFFFFF, 0x0, 0x0, 0x0, .any⟩, -- RING_DB_BASE
  ⟨0x40004, 1, 0x4, 1, 0x4, 0x7FFF, 0x0, 0x0, 0x0, 0x0, .any⟩, -- RING_CTX_SEL
  ⟨0x40008, 1, 0x4, 1, 0x4, 0x0, 0x0, 0x0, 0x0, 0x0, .any⟩, -- RING_CMD
  ⟨0x4000C, 1, 0x4, 1, 0x4, 0x0, 0x0, 0x2, 0x0, 0x0, .any⟩, -- RING_STAT
  ⟨0x40010, 1, 0x4, 1, 0x4, 0x0, 0x0, 0x80000000, 0x0, 0x0, .any⟩, -- RING_DB_ERR
  ⟨0x40014, 1, 0x4, 1, 0x4, 0x0, 0x0, 0x0, 0x0, 0x0, .any⟩ -- RING_DB_ERRCNT
]

/-- Register rows of block PART, the largest arrays first. -/
def regRowsPART : List RegRow := [
  ⟨0x58000, 25, 0x200, 128, 0x4, 0x0, 0x1FF01FF, 0x0, 0x0, 0x1000100, .any⟩, -- ENG_SCHED
  ⟨0x54000, 1024, 0x4, 1, 0x4, 0x0, 0x0, 0x0, 0x0, 0x0, .any⟩, -- LOCK
  ⟨0x52000, 256, 0x20, 1, 0x20, 0x0, 0xFFFF7FFF, 0x0, 0x0, 0x0, .any⟩, -- PE_RINGS
  ⟨0x52004, 256, 0x20, 1, 0x20, 0x0, 0xFFFFFFFF, 0x0, 0x0, 0x0, .any⟩, -- PE_EVQ01
  ⟨0x52008, 256, 0x20, 1, 0x20, 0x0, 0xFFFFFFFF, 0x0, 0x0, 0x0, .any⟩, -- PE_EVQ23
  ⟨0x5200C, 256, 0x20, 1, 0x20, 0x0, 0x7FF03, 0x0, 0x0, 0x0, .any⟩, -- PE_CTL
  ⟨0x52010, 256, 0x20, 1, 0x20, 0x0, 0x7FF03FF, 0x0, 0x0, 0x0, .any⟩, -- PE_LOCKS
  ⟨0x52014, 256, 0x20, 1, 0x20, 0x0, 0xFFFFFFFF, 0x0, 0x0, 0xFFFFFFFF, .any⟩, -- PE_SIGMAP
  ⟨0x52018, 256, 0x20, 1, 0x20, 0x0, 0xFFFF, 0x0, 0x0, 0x0, .any⟩, -- PE_UNDO_DECL
  ⟨0x5201C, 256, 0x20, 1, 0x20, 0x0, 0x3FFFF, 0x0, 0x0, 0x0, .any⟩, -- PE_INLOG_DECL
  ⟨0x50000, 1, 0x4, 1, 0x4, 0x0, 0x107FF, 0x0, 0x0, 0x10180, .any⟩, -- PART_CFG
  ⟨0x50004, 1, 0x4, 1, 0x4, 0x0, 0x0, 0x0, 0x0, 0x0, .any⟩, -- PART_STAT
  ⟨0x50008, 1, 0x4, 1, 0x4, 0x0, 0x0, 0x0, 0x0, 0x0, .any⟩, -- PART_ABANDON
  ⟨0x5000C, 1, 0x4, 1, 0x4, 0xFF, 0x0, 0x0, 0x0, 0x0, .any⟩, -- PART_MON_SEL
  ⟨0x50010, 1, 0x4, 1, 0x4, 0x0, 0x0, 0x0, 0x0, 0x0, .any⟩, -- PART_MON_DRAM
  ⟨0x50014, 1, 0x4, 1, 0x4, 0x0, 0x0, 0x0, 0x0, 0x0, .any⟩, -- PART_MON_SPARE
  ⟨0x50018, 1, 0x4, 1, 0x4, 0x0, 0x0, 0x0, 0x0, 0x0, .any⟩, -- PART_MON_UNDO
  ⟨0x5001C, 1, 0x4, 1, 0x4, 0x0, 0x0, 0x0, 0x0, 0x0, .any⟩, -- PART_MON_INLOG
  ⟨0x50020, 1, 0x4, 1, 0x4, 0x0, 0x0, 0x0, 0x0, 0x0, .any⟩, -- PART_MON_EVT
  ⟨0x50024, 1, 0x4, 1, 0x4, 0x0, 0x0, 0x0, 0x0, 0x0, .any⟩, -- PART_MON_CLR
  ⟨0x50028, 1, 0x4, 1, 0x4, 0x0, 0x0, 0x80000000, 0x0, 0x0, .any⟩ -- PART_LOCKERR
]

/-- Register rows of block EVT, the largest arrays first. -/
def regRowsEVT : List RegRow := [
  ⟨0x60000, 512, 0x4, 1, 0x4, 0x0, 0xFFF, 0x0, 0x0, 0x0, .any⟩, -- EVT_ROUTE
  ⟨0x60800, 1, 0x4, 1, 0x4, 0x0, 0x0, 0x0, 0x0, 0x0, .any⟩, -- EVT_STAT
  ⟨0x60804, 1, 0x4, 1, 0x4, 0x0, 0x0, 0x0, 0x0, 0x0, .any⟩, -- EVT_DROP
  ⟨0x60808, 1, 0x4, 1, 0x4, 0x0, 0x0, 0x0, 0x0, 0x0, .any⟩ -- EVT_RAISED
]

/-- Register rows of block TB, piece 1, the largest arrays first. -/
def regRowsTB1 : List RegRow := [
  ⟨0x70300, 18, 0x4, 1, 0x4, 0x0, 0x1FF, 0x0, 0x0, 0x0, .any⟩, -- TB_TSQ_CFG
  ⟨0x70380, 18, 0x4, 1, 0x4, 0x0, 0x0, 0x0, 0x0, 0x0, .any⟩, -- TB_TSQ_STAT
  ⟨0x70100, 16, 0x20, 1, 0x20, 0x0, 0xFF1F, 0x0, 0x0, 0x0, .any⟩, -- PTO_CTL
  ⟨0x70104, 16, 0x20, 1, 0x20, 0x0, 0xFFFFFFFF, 0x0, 0x0, 0x0, .any⟩, -- PTO_TGT_LO
  ⟨0x70108, 16, 0x20, 1, 0x20, 0x0, 0xFFFFFFFF, 0x0, 0x0, 0x0, .any⟩, -- PTO_TGT_HI
  ⟨0x7010C, 16, 0x20, 1, 0x20, 0x0, 0xFFFFFFFF, 0x0, 0x0, 0x0, .any⟩, -- PTO_PER_LO
  ⟨0x70110, 16, 0x20, 1, 0x20, 0x0, 0x7FFFF00F, 0x0, 0x0, 0x4000, .any⟩, -- PTO_PER_HI
  ⟨0x70114, 16, 0x20, 1, 0x20, 0x0, 0x0, 0x0, 0x0, 0x0, .any⟩, -- PTO_STAT
  ⟨0x70118, 16, 0x20, 1, 0x20, 0x0, 0x0, 0x0, 0x0, 0x0, .any⟩, -- PTO_NEXT_LO
  ⟨0x7011C, 16, 0x20, 1, 0x20, 0x0, 0x0, 0x0, 0x0, 0x0, .any⟩, -- PTO_NEXT_HI
  ⟨0x70000, 1, 0x4, 1, 0x4, 0x0, 0x3, 0x0, 0x0, 0x0, .any⟩, -- TB_CFG
  ⟨0x70004, 1, 0x4, 1, 0x4, 0x0, 0x0, 0x200, 0x0, 0x0, .any⟩, -- TB_STAT
  ⟨0x70010, 1, 0x4, 1, 0x4, 0x0, 0x0, 0x0, 0x0, 0x0, .any⟩, -- TB_NT_LO
  ⟨0x70014, 1, 0x4, 1, 0x4, 0x0, 0x0, 0x0, 0x0, 0x0, .any⟩, -- TB_NT_HI
  ⟨0x70018, 1, 0x4, 1, 0x4, 0x0, 0x0, 0x0, 0x0, 0x0, .any⟩, -- TB_NT_FRAC
  ⟨0x7001C, 1, 0x4, 1, 0x4, 0x0, 0x0, 0x0, 0x0, 0x0, .any⟩, -- TB_LRAW_LO
  ⟨0x70020, 1, 0x4, 1, 0x4, 0x0, 0x0, 0x0, 0x0, 0x0, .any⟩, -- TB_LRAW_HI
  ⟨0x70024, 1, 0x4, 1, 0x4, 0x0, 0x0, 0x0, 0x0, 0x0, .any⟩, -- TB_INCR_LO
  ⟨0x70028, 1, 0x4, 1, 0x4, 0x0, 0x0, 0x0, 0x0, 0x200, .any⟩, -- TB_INCR_HI
  ⟨0x7002C, 1, 0x4, 1, 0x4, 0x0, 0x0, 0x0, 0x0, 0x0, .any⟩, -- TB_OFS_FRAC
  ⟨0x70030, 1, 0x4, 1, 0x4, 0x0, 0x0, 0x0, 0x0, 0x0, .any⟩, -- TB_OFS_LO
  ⟨0x70034, 1, 0x4, 1, 0x4, 0x0, 0x0, 0x0, 0x0, 0x0, .any⟩, -- TB_OFS_HI
  ⟨0x70040, 1, 0x4, 1, 0x4, 0xFFFFFFFF, 0x0, 0x0, 0x0, 0x0, .any⟩, -- TB_W0
  ⟨0x70044, 1, 0x4, 1, 0x4, 0xFFFFFFFF, 0x0, 0x0, 0x0, 0x0, .any⟩ -- TB_W1
]

/-- Register rows of block TB, piece 2, the largest arrays first. -/
def regRowsTB2 : List RegRow := [
  ⟨0x70048, 1, 0x4, 1, 0x4, 0xFFFFFFFF, 0x0, 0x0, 0x0, 0x0, .any⟩, -- TB_W2
  ⟨0x7004C, 1, 0x4, 1, 0x4, 0xFFFFFFFF, 0x0, 0x0, 0x0, 0x0, .any⟩, -- TB_AT_LO
  ⟨0x70050, 1, 0x4, 1, 0x4, 0xFFFFFFFF, 0x0, 0x0, 0x0, 0x0, .any⟩, -- TB_AT_HI
  ⟨0x70054, 1, 0x4, 1, 0x4, 0x0, 0x0, 0x0, 0x0, 0x0, .any⟩, -- TB_CMD
  ⟨0x70058, 1, 0x4, 1, 0x4, 0x0, 0x0, 0x0, 0x0, 0x0, .any⟩, -- TB_APPLY_RAW_LO
  ⟨0x7005C, 1, 0x4, 1, 0x4, 0x0, 0x0, 0x0, 0x0, 0x0, .any⟩, -- TB_APPLY_RAW_HI
  ⟨0x70060, 1, 0x4, 1, 0x4, 0x0, 0x1F, 0x0, 0x0, 0x0, .any⟩, -- TB_SYNC_OUT
  ⟨0x70064, 1, 0x4, 1, 0x4, 0x0, 0xFF01, 0x0, 0x0, 0x100, .any⟩, -- TB_SYNC_IN
  ⟨0x70068, 1, 0x4, 1, 0x4, 0x0, 0x0, 0x0, 0x0, 0x0, .any⟩, -- TB_SYNCIN_LO
  ⟨0x7006C, 1, 0x4, 1, 0x4, 0x0, 0x0, 0x0, 0x0, 0x0, .any⟩, -- TB_SYNCIN_HI
  ⟨0x70070, 1, 0x4, 1, 0x4, 0x0, 0x0, 0x0, 0x0, 0x0, .any⟩, -- TB_SYNCIN_FRAC
  ⟨0x70074, 1, 0x4, 1, 0x4, 0x0, 0x0, 0x0, 0x0, 0x0, .any⟩, -- TB_SYNCIN_CNT
  ⟨0x70078, 1, 0x4, 1, 0x4, 0x0, 0x0, 0x3FFFF, 0x0, 0x0, .any⟩ -- TB_TSQ_OVF
]

/-- Register rows of block CR, piece 1, the largest arrays first. -/
def regRowsCR1 : List RegRow := [
  ⟨0x81000, 3, 0x800, 256, 0x8, 0x0, 0x7FFFFFFF, 0x0, 0x0, 0x0, .any⟩, -- CR_SLC
  ⟨0x81004, 3, 0x800, 256, 0x8, 0x0, 0x3FFFF, 0x0, 0x0, 0x0, .any⟩, -- CR_SLD
  ⟨0x80800, 3, 0x80, 32, 0x4, 0x0, 0x0, 0x0, 0x0, 0x0, .any⟩, -- CR_MISS
  ⟨0x80400, 12, 0x20, 1, 0x20, 0x0, 0x0, 0x0, 0x0, 0x0, .any⟩, -- CR_PORT_00
  ⟨0x80404, 12, 0x20, 1, 0x20, 0x0, 0x0, 0x0, 0x0, 0x0, .any⟩, -- CR_PORT_04
  ⟨0x80408, 12, 0x20, 1, 0x20, 0x0, 0x0, 0x0, 0x0, 0x0, .any⟩, -- CR_PORT_08
  ⟨0x8040C, 12, 0x20, 1, 0x20, 0x0, 0x0, 0x0, 0x0, 0x0, .any⟩, -- CR_PORT_0C
  ⟨0x80410, 12, 0x20, 1, 0x20, 0x0, 0x0, 0x0, 0x0, 0x0, .any⟩, -- CR_PORT_10
  ⟨0x80414, 12, 0x20, 1, 0x20, 0x0, 0x0, 0x0, 0x0, 0x0, .any⟩, -- CR_PORT_14
  ⟨0x80418, 12, 0x20, 1, 0x20, 0x0, 0x0, 0x0, 0x0, 0x0, .any⟩, -- CR_PORT_18
  ⟨0x8041C, 12, 0x20, 1, 0x20, 0x0, 0x0, 0x0, 0x0, 0x0, .any⟩, -- CR_PORT_1C
  ⟨0x80100, 3, 0x100, 1, 0x100, 0x0, 0xFFF7FF, 0x0, 0x0, 0x300000, .any⟩, -- CR_CFG
  ⟨0x80104, 3, 0x100, 1, 0x100, 0x0, 0xFFFF, 0x0, 0x0, 0x88B5, .any⟩, -- CR_ETYPE
  ⟨0x80108, 3, 0x100, 1, 0x100, 0x0, 0x3FFF, 0x0, 0x0, 0x3E8, .any⟩, -- CR_PERIOD
  ⟨0x8010C, 3, 0x100, 1, 0x100, 0x0, 0x3FFF0F, 0x0, 0x0, 0x3200, .any⟩, -- CR_MASTER
  ⟨0x80110, 3, 0x100, 1, 0x100, 0x0, 0x7FF, 0x0, 0x0, 0x14, .any⟩, -- CR_LEN
  ⟨0x80114, 3, 0x100, 1, 0x100, 0x0, 0xFFFFFFFF, 0x0, 0x0, 0x43524E00, .any⟩, -- CR_DA_LO
  ⟨0x80118, 3, 0x100, 1, 0x100, 0x0, 0xFFFF, 0x0, 0x0, 0x300, .any⟩, -- CR_DA_HI
  ⟨0x8011C, 3, 0x100, 1, 0x100, 0x0, 0x3FFF3FFF, 0x0, 0x0, 0x0, .any⟩, -- CR_ACYC
  ⟨0x80120, 3, 0x100, 1, 0x100, 0x0, 0x0, 0x0, 0x0, 0x0, .any⟩, -- CR_STATE
  ⟨0x80124, 3, 0x100, 1, 0x100, 0x0, 0x0, 0x0, 0x0, 0x0, .any⟩, -- CR_CYCLE
  ⟨0x80128, 3, 0x100, 1, 0x100, 0x0, 0x0, 0x0, 0x0, 0x0, .any⟩, -- CR_MISSED
  ⟨0x8012C, 3, 0x100, 1, 0x100, 0x0, 0x0, 0x0, 0x0, 0x0, .any⟩, -- CR_RTT
  ⟨0x80130, 3, 0x100, 1, 0x100, 0x0, 0x0, 0x0, 0x0, 0x0, .any⟩ -- CR_CLR
]

/-- Register rows of block CR, piece 2, the largest arrays first. -/
def regRowsCR2 : List RegRow := [
  ⟨0x80134, 3, 0x100, 1, 0x100, 0x0, 0xFFFFFFFF, 0x0, 0x0, 0x0, .any⟩, -- CR_MAC_LO
  ⟨0x80138, 3, 0x100, 1, 0x100, 0x0, 0xFFFF, 0x0, 0x0, 0x0, .any⟩, -- CR_MAC_HI
  ⟨0x80000, 1, 0x4, 1, 0x4, 0x0, 0x0, 0x0, 0x0, 0x0, .any⟩ -- CR_STAT
]

/-- Register rows of block CB, piece 1, the largest arrays first. -/
def regRowsCB1 : List RegRow := [
  ⟨0x90400, 4, 0x20, 1, 0x20, 0x0, 0x0, 0x0, 0x0, 0x0, .any⟩, -- CB_PORT_00
  ⟨0x90404, 4, 0x20, 1, 0x20, 0x0, 0x0, 0x0, 0x0, 0x0, .any⟩, -- CB_PORT_04
  ⟨0x90408, 4, 0x20, 1, 0x20, 0x0, 0x0, 0x0, 0x0, 0x0, .any⟩, -- CB_PORT_08
  ⟨0x9040C, 4, 0x20, 1, 0x20, 0x0, 0x0, 0x0, 0x0, 0x0, .any⟩, -- CB_PORT_0C
  ⟨0x90410, 4, 0x20, 1, 0x20, 0x0, 0x0, 0x0, 0x0, 0x0, .any⟩, -- CB_PORT_10
  ⟨0x90414, 4, 0x20, 1, 0x20, 0x0, 0x0, 0x0, 0x0, 0x0, .any⟩, -- CB_PORT_14
  ⟨0x90418, 4, 0x20, 1, 0x20, 0x0, 0x0, 0x0, 0x0, 0x0, .any⟩, -- CB_PORT_18
  ⟨0x9041C, 4, 0x20, 1, 0x20, 0x0, 0x0, 0x0, 0x0, 0x0, .any⟩, -- CB_PORT_1C
  ⟨0x90000, 1, 0x4, 1, 0x4, 0x0, 0x0, 0x0, 0x0, 0x0, .any⟩, -- CB_STAT
  ⟨0x90004, 1, 0x4, 1, 0x4, 0x0, 0x1FFFFFFF, 0x0, 0x0, 0x7000000, .any⟩, -- CB_CFG
  ⟨0x90008, 1, 0x4, 1, 0x4, 0x0, 0x3FFF, 0x0, 0x0, 0x3E8, .any⟩, -- CB_BC
  ⟨0x9000C, 1, 0x4, 1, 0x4, 0x0, 0xFFFF, 0x0, 0x0, 0x88B6, .any⟩, -- CB_ETYPE
  ⟨0x90010, 1, 0x4, 1, 0x4, 0x0, 0xFFFFFFFF, 0x0, 0x0, 0x43424B00, .any⟩, -- CB_DA_LO
  ⟨0x90014, 1, 0x4, 1, 0x4, 0x0, 0xFFFF, 0x0, 0x0, 0x300, .any⟩, -- CB_DA_HI
  ⟨0x90018, 1, 0x4, 1, 0x4, 0x0, 0xFFFFFFFF, 0x0, 0x0, 0x0, .any⟩, -- CB_MAC_LO
  ⟨0x9001C, 1, 0x4, 1, 0x4, 0x0, 0xFFFF, 0x0, 0x0, 0x0, .any⟩, -- CB_MAC_HI
  ⟨0x90020, 1, 0x4, 1, 0x4, 0x0, 0xFFFFF, 0x0, 0x0, 0x0, .any⟩, -- CB_SPAN
  ⟨0x90024, 1, 0x4, 1, 0x4, 0x0, 0xFFFFFFF, 0x0, 0x0, 0xA00000, .any⟩, -- CB_SYNCCHK
  ⟨0x90028, 1, 0x4, 1, 0x4, 0x0, 0xFFFF, 0x0, 0x0, 0xF0, .any⟩, -- CB_ARB
  ⟨0x9002C, 1, 0x4, 1, 0x4, 0x0, 0xFFFFFFFF, 0x0, 0x0, 0x0, .any⟩, -- CB_GRP_LO
  ⟨0x90030, 1, 0x4, 1, 0x4, 0x0, 0xFFFFFFFF, 0x0, 0x0, 0x0, .any⟩, -- CB_GRP_HI
  ⟨0x90034, 1, 0x4, 1, 0x4, 0x0, 0x1FFFF, 0x0, 0x0, 0x0, .any⟩, -- CB_BANK_ADDR
  ⟨0x90038, 1, 0x4, 1, 0x4, 0x0, 0xFFFFFFFF, 0x0, 0x0, 0x0, .any⟩, -- CB_BANK_DATA
  ⟨0x9003C, 1, 0x4, 1, 0x4, 0x0, 0x0, 0x0, 0x0, 0x0, .any⟩ -- CB_BANKS
]

/-- Register rows of block CB, piece 2, the largest arrays first. -/
def regRowsCB2 : List RegRow := [
  ⟨0x90040, 1, 0x4, 1, 0x4, 0x0, 0x0, 0x0, 0x0, 0x0, .any⟩, -- CB_ID0
  ⟨0x90044, 1, 0x4, 1, 0x4, 0x0, 0x0, 0x0, 0x0, 0x0, .any⟩, -- CB_ID1
  ⟨0x90048, 1, 0x4, 1, 0x4, 0x0, 0x0, 0x0, 0x0, 0x0, .any⟩, -- CB_ANN_ID
  ⟨0x9004C, 1, 0x4, 1, 0x4, 0x0, 0x0, 0x0, 0x0, 0x0, .any⟩, -- CB_ACT_MCN
  ⟨0x90050, 1, 0x4, 1, 0x4, 0x0, 0x0, 0x0, 0x0, 0x0, .any⟩, -- CB_MCN
  ⟨0x90054, 1, 0x4, 1, 0x4, 0x0, 0x0, 0x0, 0x0, 0x0, .any⟩, -- CB_POS
  ⟨0x90058, 1, 0x4, 1, 0x4, 0x0, 0x0, 0x0, 0x0, 0x0, .any⟩, -- CB_SYNCDEV
  ⟨0x9005C, 1, 0x4, 1, 0x4, 0x0, 0x0, 0x0, 0x0, 0x0, .any⟩, -- CB_CNT
  ⟨0x90060, 1, 0x4, 1, 0x4, 0x0, 0x0, 0x0, 0x0, 0x0, .any⟩ -- CB_CLR
]

/-- Register rows of block SIG, the largest arrays first. -/
def regRowsSIG : List RegRow := [
  ⟨0xA0000, 1, 0x4, 1, 0x4, 0x0, 0x0, 0x0, 0x0, 0x0, .any⟩, -- SIG_STAT
  ⟨0xA0004, 1, 0x4, 1, 0x4, 0x0, 0x3, 0x0, 0x0, 0x1, .any⟩, -- SIG_CFG
  ⟨0xA0008, 1, 0x4, 1, 0x4, 0x0, 0x7FF, 0x0, 0x0, 0x0, .any⟩, -- SIG_STORE_BASE
  ⟨0xA000C, 1, 0x4, 1, 0x4, 0x0, 0x3FFFFFF, 0x0, 0x0, 0x0, .any⟩, -- SIG_SLOTS
  ⟨0xA0010, 1, 0x4, 1, 0x4, 0x0, 0xFFFFFFF, 0x0, 0x0, 0x0, .any⟩, -- SIG_MAP_BASE
  ⟨0xA0014, 1, 0x4, 1, 0x4, 0x0, 0xFFFFFFF, 0x0, 0x0, 0x0, .any⟩, -- SIG_DSET_BASE
  ⟨0xA001C, 1, 0x4, 1, 0x4, 0x0, 0xFFFFFFF, 0x0, 0x0, 0x0, .any⟩, -- SIG_BUF_BASE
  ⟨0xA0024, 1, 0x4, 1, 0x4, 0x0, 0xFFFFFFF, 0x0, 0x0, 0x0, .any⟩, -- SIG_RANGE_BASE
  ⟨0xA002C, 1, 0x4, 1, 0x4, 0x0, 0xFFFFFFF, 0x0, 0x0, 0x0, .any⟩, -- SIG_ACC_BASE
  ⟨0xA0018, 1, 0x4, 1, 0x4, 0x0, 0x7FFFF, 0x0, 0x0, 0x0, .any⟩, -- SIG_DSET_COUNT
  ⟨0xA0020, 1, 0x4, 1, 0x4, 0x0, 0x1FFF, 0x0, 0x0, 0x0, .any⟩, -- SIG_BUF_SIZE
  ⟨0xA0028, 1, 0x4, 1, 0x4, 0x0, 0x1FFFF, 0x0, 0x0, 0x0, .any⟩, -- SIG_RANGE_COUNT
  ⟨0xA0030, 1, 0x4, 1, 0x4, 0x0, 0x1FFFFF, 0x0, 0x0, 0x0, .any⟩, -- SIG_ACC_COUNT
  ⟨0xA0040, 1, 0x4, 1, 0x4, 0x0, 0x0, 0x0, 0x0, 0x0, .any⟩, -- SIG_FORCES
  ⟨0xA0044, 1, 0x4, 1, 0x4, 0x0, 0x0, 0x0, 0x0, 0x0, .any⟩, -- SIG_DROPS
  ⟨0xA0048, 1, 0x4, 1, 0x4, 0x0, 0x0, 0x0, 0x0, 0x0, .any⟩, -- SIG_PASS
  ⟨0xA004C, 1, 0x4, 1, 0x4, 0x0, 0x0, 0x0, 0x0, 0x0, .any⟩ -- SIG_CLR
]

/-- Register rows of block GW, the largest arrays first. -/
def regRowsGW : List RegRow := [
  ⟨0xB0000, 1, 0x4, 1, 0x4, 0x0, 0x0, 0x0, 0x0, 0x0, .any⟩, -- GW_STAT
  ⟨0xB0004, 1, 0x4, 1, 0x4, 0x0, 0xFFFFFFF, 0x0, 0x0, 0x0, .any⟩, -- GW_ROUTE_BASE
  ⟨0xB000C, 1, 0x4, 1, 0x4, 0x0, 0xFFFFFFF, 0x0, 0x0, 0x0, .any⟩, -- GW_GROUP_BASE
  ⟨0xB0008, 1, 0x4, 1, 0x4, 0x0, 0x1FFFF, 0x0, 0x0, 0x0, .any⟩, -- GW_ROUTE_COUNT
  ⟨0xB0010, 1, 0x4, 1, 0x4, 0x0, 0x7FFF, 0x0, 0x0, 0x0, .any⟩, -- GW_GROUP_COUNT
  ⟨0xB0020, 1, 0x4, 1, 0x4, 0x0, 0x0, 0x0, 0x0, 0x0, .any⟩, -- GW_RUNS
  ⟨0xB0024, 1, 0x4, 1, 0x4, 0x0, 0x0, 0x0, 0x0, 0x0, .any⟩, -- GW_WAIT
  ⟨0xB0028, 1, 0x4, 1, 0x4, 0x0, 0x0, 0x0, 0x0, 0x0, .any⟩ -- GW_CLR
]

/-- Register rows of block RB, the largest arrays first. -/
def regRowsRB : List RegRow := [
  ⟨0xC0010, 16, 0x4, 1, 0x4, 0x0, 0xFF07, 0x0, 0x0, 0x0, .any⟩, -- RB_WIN
  ⟨0xC0000, 1, 0x4, 1, 0x4, 0x0, 0x0, 0x0, 0x0, 0x100, .any⟩, -- RB_STAT
  ⟨0xC0004, 1, 0x4, 1, 0x4, 0x0, 0xFFFF, 0x0, 0x0, 0xA0A, .any⟩, -- RB_CFG
  ⟨0xC0060, 1, 0x4, 1, 0x4, 0x0, 0x0, 0x80000000, 0x0, 0x0, .any⟩, -- RB_PERR
  ⟨0xC0064, 1, 0x4, 1, 0x4, 0x0, 0x0, 0x0, 0x0, 0x0, .any⟩, -- RB_PERR_OFS
  ⟨0xC0068, 1, 0x4, 1, 0x4, 0x0, 0x0, 0x0, 0x0, 0x0, .any⟩, -- RB_PERR_CNT
  ⟨0xC006C, 1, 0x4, 1, 0x4, 0x0, 0x0, 0x80000000, 0x0, 0x0, .any⟩, -- RB_AERR
  ⟨0xC0070, 1, 0x4, 1, 0x4, 0x0, 0x0, 0x0, 0x0, 0x0, .any⟩, -- RB_AERR_OFS
  ⟨0xC0074, 1, 0x4, 1, 0x4, 0x0, 0x0, 0x0, 0x0, 0x0, .any⟩, -- RB_AERR_CNT
  ⟨0xC0078, 1, 0x4, 1, 0x4, 0x0, 0x0, 0x0, 0x0, 0x0, .any⟩, -- RB_CYCLES
  ⟨0xC007C, 1, 0x4, 1, 0x4, 0x0, 0x0, 0x0, 0x0, 0x0, .any⟩, -- RB_STUCK
  ⟨0xC0080, 1, 0x4, 1, 0x4, 0x0, 0x0, 0x0, 0x0, 0x0, .any⟩ -- RB_CLR
]

/-- Register rows of block CYC, piece 1, the largest arrays first. -/
def regRowsCYC1 : List RegRow := [
  ⟨0xD4000, 1024, 0x10, 1, 0x10, 0x0, 0x0, 0x0, 0x0, 0x0, .any⟩, -- CYC_FORCE0
  ⟨0xD4004, 1024, 0x10, 1, 0x10, 0x0, 0x0, 0x0, 0x0, 0x0, .any⟩, -- CYC_FORCE1
  ⟨0xD4008, 1024, 0x10, 1, 0x10, 0x0, 0x0, 0x0, 0x0, 0x0, .any⟩, -- CYC_FORCE2
  ⟨0xD400C, 1024, 0x10, 1, 0x10, 0x0, 0x0, 0x0, 0x0, 0x0, .any⟩, -- CYC_FORCE3
  ⟨0xD1C00, 384, 0x8, 1, 0x8, 0x0, 0x3FFF, 0x0, 0x0, 0xC00, .any⟩, -- CYC_STN
  ⟨0xD1C04, 384, 0x8, 1, 0x8, 0x0, 0xFFFFFF, 0x0, 0x0, 0x0, .any⟩, -- CYC_STD
  ⟨0xD1400, 256, 0x8, 1, 0x8, 0x0, 0x7FF01FF, 0x0, 0x0, 0x2, .any⟩, -- CYC_PART
  ⟨0xD1404, 256, 0x8, 1, 0x8, 0x0, 0xFFFFFF, 0x0, 0x0, 0x0, .any⟩, -- CYC_RET
  ⟨0xD0400, 64, 0x40, 1, 0x40, 0x0, 0xFF0FFF, 0x0, 0x0, 0x0, .any⟩, -- TASK_CTL
  ⟨0xD0404, 64, 0x40, 1, 0x40, 0x0, 0xFFFFFFFF, 0x0, 0x0, 0x1, .any⟩, -- TASK_DIV
  ⟨0xD0408, 64, 0x40, 1, 0x40, 0x0, 0xFFFFFF, 0x0, 0x0, 0x0, .any⟩, -- TASK_WDT
  ⟨0xD040C, 64, 0x40, 1, 0x40, 0x0, 0x3FFFFFFF, 0x0, 0x0, 0x0, .any⟩, -- TASK_IN
  ⟨0xD0410, 64, 0x40, 1, 0x40, 0x0, 0xFFFFFFF, 0x0, 0x0, 0x0, .any⟩, -- TASK_LIST
  ⟨0xD0414, 64, 0x40, 1, 0x40, 0x0, 0xFFFFFFFF, 0x0, 0x0, 0x0, .any⟩, -- TASK_INMASK_LO
  ⟨0xD0418, 64, 0x40, 1, 0x40, 0x0, 0x3FFFFFF, 0x0, 0x0, 0x0, .any⟩, -- TASK_INMASK_HI
  ⟨0xD041C, 64, 0x40, 1, 0x40, 0x0, 0xFFFFFFF, 0x0, 0x0, 0x0, .any⟩, -- TASK_OUT0
  ⟨0xD0420, 64, 0x40, 1, 0x40, 0x0, 0xFFFFFFF, 0x0, 0x0, 0x0, .any⟩, -- TASK_OUT1
  ⟨0xD0424, 64, 0x40, 1, 0x40, 0x0, 0xFFFFFFF, 0x0, 0x0, 0x0, .any⟩, -- TASK_SAFE
  ⟨0xD0428, 64, 0x40, 1, 0x40, 0x0, 0xFFFFFFFF, 0x0, 0x0, 0x0, .any⟩, -- TASK_OUTMASK_LO
  ⟨0xD042C, 64, 0x40, 1, 0x40, 0x0, 0x3FFFFFF, 0x0, 0x0, 0x0, .any⟩, -- TASK_OUTMASK_HI
  ⟨0xD0430, 64, 0x40, 1, 0x40, 0x0, 0x7FFFFFF, 0x0, 0x0, 0x0, .any⟩, -- TASK_DSET
  ⟨0xD0434, 64, 0x40, 1, 0x40, 0x0, 0x0, 0x0, 0x0, 0x0, .any⟩, -- TASK_STAT
  ⟨0xD0438, 64, 0x40, 1, 0x40, 0x0, 0x0, 0x0, 0x0, 0x0, .any⟩, -- TASK_CYCLE
  ⟨0xD043C, 64, 0x40, 1, 0x40, 0x0, 0x0, 0x0, 0x0, 0x0, .any⟩ -- TASK_TIME
]

/-- Register rows of block CYC, piece 2, the largest arrays first. -/
def regRowsCYC2 : List RegRow := [
  ⟨0xD0000, 1, 0x4, 1, 0x4, 0x0, 0x0, 0x0, 0x0, 0x0, .any⟩, -- CYC_STAT
  ⟨0xD0004, 1, 0x4, 1, 0x4, 0x0, 0x3FF, 0x0, 0x0, 0x32, .any⟩, -- CYC_CFG
  ⟨0xD0008, 1, 0x4, 1, 0x4, 0x0, 0x0, 0x0, 0x0, 0x0, .any⟩, -- CYC_IDLE
  ⟨0xD000C, 1, 0x4, 1, 0x4, 0x0, 0x0, 0x0, 0x0, 0x0, .any⟩, -- CYC_FORCES
  ⟨0xD0010, 1, 0x4, 1, 0x4, 0x0, 0x0, 0x80000000, 0x0, 0x0, .any⟩, -- CYC_OVR
  ⟨0xD0014, 1, 0x4, 1, 0x4, 0x0, 0x0, 0x0, 0x0, 0x0, .any⟩, -- CYC_CNT
  ⟨0xD0018, 1, 0x4, 1, 0x4, 0x0, 0x0, 0x0, 0x0, 0x0, .any⟩, -- CYC_CLR
  ⟨0xD0100, 1, 0x4, 1, 0x4, 0x0, 0x0, 0x0, 0x0, 0x0, .any⟩ -- CYC_TASK_END
]

/-- Register rows of block FLD, the largest arrays first. -/
def regRowsFLD : List RegRow := [
  ⟨0xE0800, 8, 0x80, 16, 0x8, 0x0, 0x7FFFFFF, 0x0, 0x0, 0x64D918, .any⟩, -- FLD_DIO
  ⟨0xE0804, 8, 0x80, 16, 0x8, 0x0, 0x3FFFF, 0x0, 0x0, 0x7800, .any⟩, -- FLD_DIO1
  ⟨0xE4100, 64, 0x8, 1, 0x8, 0x0, 0x1FFF, 0x0, 0x0, 0x108, .any⟩, -- FLD_AIL
  ⟨0xE4104, 64, 0x8, 1, 0x8, 0x0, 0xF, 0x0, 0x0, 0x5, .any⟩, -- FLD_AIL1
  ⟨0xE0100, 58, 0x4, 1, 0x4, 0x0, 0xFF07, 0x0, 0x0, 0x0, .any⟩, -- FLD_ISL
  ⟨0xE0200, 58, 0x4, 1, 0x4, 0x0, 0x0, 0x0, 0x0, 0x0, .any⟩, -- FLD_LNK
  ⟨0xE0400, 16, 0x4, 1, 0x4, 0x0, 0xFF07, 0x0, 0x0, 0x1E01, .any⟩, -- FLD_DI
  ⟨0xE0000, 1, 0x4, 1, 0x4, 0x0, 0x0, 0x0, 0x0, 0x0, .any⟩, -- FLD_STAT
  ⟨0xE0004, 1, 0x4, 1, 0x4, 0x0, 0x0, 0x0, 0x0, 0x0, .any⟩, -- FLD_CLR
  ⟨0xE0008, 1, 0x4, 1, 0x4, 0x0, 0x0, 0x0, 0x0, 0x0, .any⟩, -- FLD_LINKFLT_LO
  ⟨0xE000C, 1, 0x4, 1, 0x4, 0x0, 0x0, 0x0, 0x0, 0x0, .any⟩, -- FLD_LINKFLT_HI
  ⟨0xE4000, 1, 0x4, 1, 0x4, 0x0, 0xFFF7, 0x0, 0x0, 0x0, .any⟩, -- FLD_AI_CFG
  ⟨0xE4004, 1, 0x4, 1, 0x4, 0x0, 0x0, 0x0, 0x0, 0x0, .any⟩, -- FLD_AI_SYNC_STAT
  ⟨0xE4008, 1, 0x4, 1, 0x4, 0x0, 0x0, 0x0, 0x0, 0x0, .any⟩, -- FLD_AI_ALIGN_LO
  ⟨0xE400C, 1, 0x4, 1, 0x4, 0x0, 0x0, 0x0, 0x0, 0x0, .any⟩ -- FLD_AI_ALIGN_HI
]

/-- Register rows of block SAF, the largest arrays first. -/
def regRowsSAF : List RegRow := [
  ⟨0xF0200, 32, 0x10, 1, 0x10, 0x0, 0xFFFFFFFF, 0x0, 0x0, 0x50004, .any⟩, -- SAF_BCTL
  ⟨0xF0204, 32, 0x10, 1, 0x10, 0x0, 0xFFFFFFFF, 0x0, 0x0, 0x28000000, .any⟩, -- SAF_BIN
  ⟨0xF0208, 32, 0x10, 1, 0x10, 0x0, 0xFFFFFFFF, 0x0, 0x0, 0x0, .any⟩, -- SAF_BOUT
  ⟨0xF020C, 32, 0x10, 1, 0x10, 0x0, 0x0, 0x0, 0x0, 0x0, .any⟩, -- SAF_BSTAT
  ⟨0xF0100, 16, 0x4, 1, 0x4, 0x0, 0x7FFFFF01, 0x0, 0x0, 0x14001000, .any⟩, -- SAF_TPS
  ⟨0xF0000, 1, 0x4, 1, 0x4, 0x0, 0x0, 0x0, 0x0, 0x0, .any⟩, -- SAF_STAT
  ⟨0xF0004, 1, 0x4, 1, 0x4, 0x0, 0x0, 0x0, 0x0, 0x0, .any⟩, -- SAF_CLR
  ⟨0xF0008, 1, 0x4, 1, 0x4, 0x0, 0x0, 0x0, 0x0, 0x0, .any⟩ -- SAF_CNT
]

/-- Register rows of block PAIR, the largest arrays first. -/
def regRowsPAIR : List RegRow := [
  ⟨0x100100, 16, 0x10, 1, 0x10, 0x0, 0xFFFFFFF, 0x0, 0x0, 0x0, .any⟩, -- PAIR_MRANGE_00
  ⟨0x100104, 16, 0x10, 1, 0x10, 0x0, 0xFFFFFFF, 0x0, 0x0, 0x0, .any⟩, -- PAIR_MRANGE_04
  ⟨0x100108, 16, 0x10, 1, 0x10, 0x0, 0x1FF, 0x0, 0x0, 0x0, .any⟩, -- PAIR_MRANGE_08
  ⟨0x10010C, 16, 0x10, 1, 0x10, 0x0, 0x0, 0x0, 0x0, 0x0, .any⟩, -- PAIR_MRANGE_0C
  ⟨0x100000, 1, 0x4, 1, 0x4, 0x0, 0xFFFFFF07, 0x0, 0x0, 0x329606, .any⟩, -- PAIR_CFG
  ⟨0x100004, 1, 0x4, 1, 0x4, 0x0, 0x0, 0x0, 0x0, 0x0, .any⟩, -- PAIR_STAT
  ⟨0x100008, 1, 0x4, 1, 0x4, 0x0, 0x0, 0x0, 0x0, 0x0, .any⟩, -- PAIR_EPOCH_LO
  ⟨0x10000C, 1, 0x4, 1, 0x4, 0x0, 0x0, 0x0, 0x0, 0x0, .any⟩, -- PAIR_EPOCH_HI
  ⟨0x100010, 1, 0x4, 1, 0x4, 0x0, 0x0, 0x0, 0x0, 0x0, .any⟩, -- PAIR_PEER_EPOCH_LO
  ⟨0x100014, 1, 0x4, 1, 0x4, 0x0, 0x0, 0x0, 0x0, 0x0, .any⟩, -- PAIR_PEER_EPOCH_HI
  ⟨0x100018, 1, 0x4, 1, 0x4, 0x0, 0x0, 0x0, 0x0, 0x0, .any⟩, -- PAIR_LAST_LO
  ⟨0x10001C, 1, 0x4, 1, 0x4, 0x0, 0x0, 0x0, 0x0, 0x0, .any⟩, -- PAIR_LAST_HI
  ⟨0x100020, 1, 0x4, 1, 0x4, 0x0, 0xFFFFFFFF, 0x0, 0x0, 0x0, .any⟩, -- PAIR_PEER_MAC_LO
  ⟨0x100024, 1, 0x4, 1, 0x4, 0x0, 0xFFFF, 0x0, 0x0, 0x0, .any⟩, -- PAIR_PEER_MAC_HI
  ⟨0x100028, 1, 0x4, 1, 0x4, 0x0, 0x0, 0x0, 0x0, 0x0, .any⟩, -- PAIR_JOIN
  ⟨0x10002C, 1, 0x4, 1, 0x4, 0x0, 0x0, 0x0, 0x0, 0x0, .any⟩, -- PAIR_MIRROR
  ⟨0x100030, 1, 0x4, 1, 0x4, 0x0, 0x0, 0x0, 0x0, 0x0, .any⟩, -- PAIR_STAGE
  ⟨0x100034, 1, 0x4, 1, 0x4, 0x0, 0x0, 0x0, 0x0, 0x0, .any⟩, -- PAIR_CNT
  ⟨0x100038, 1, 0x4, 1, 0x4, 0x0, 0x0, 0x0, 0x0, 0x0, .any⟩, -- PAIR_RAW_DELTA_LO
  ⟨0x10003C, 1, 0x4, 1, 0x4, 0x0, 0x0, 0x0, 0x0, 0x0, .any⟩, -- PAIR_RAW_DELTA_HI
  ⟨0x100040, 1, 0x4, 1, 0x4, 0x0, 0x0, 0x0, 0x0, 0x0, .any⟩, -- PAIR_NT_DEV
  ⟨0x100044, 1, 0x4, 1, 0x4, 0x0, 0x0, 0x0, 0x0, 0x0, .any⟩, -- PAIR_GAP
  ⟨0x100048, 1, 0x4, 1, 0x4, 0x0, 0x0, 0x0, 0x0, 0x0, .any⟩ -- PAIR_CLR
]

/-- Register rows of block REC, the largest arrays first. -/
def regRowsREC : List RegRow := [
  ⟨0x110024, 10, 0x4, 1, 0x4, 0xFFFFFFFF, 0x0, 0x0, 0x0, 0x0, .mp⟩, -- REC_NOTE_D
  ⟨0x110000, 1, 0x4, 1, 0x4, 0x0, 0x0, 0x0, 0x0, 0x0, .any⟩, -- REC_STAT
  ⟨0x110004, 1, 0x4, 1, 0x4, 0x0, 0xFF01, 0x0, 0x0, 0xA00, .any⟩, -- REC_CFG
  ⟨0x110008, 1, 0x4, 1, 0x4, 0x0, 0xFFFFFFF, 0x0, 0x0, 0x0, .any⟩, -- REC_CHAN_BASE
  ⟨0x11000C, 1, 0x4, 1, 0x4, 0x0, 0x1FFF, 0x0, 0x0, 0x0, .any⟩, -- REC_CHAN_COUNT
  ⟨0x110010, 1, 0x4, 1, 0x4, 0x0, 0x0, 0x0, 0x0, 0x0, .any⟩, -- REC_CLEAR_GEN
  ⟨0x110014, 1, 0x4, 1, 0x4, 0x0, 0x0, 0x0, 0x0, 0x0, .any⟩, -- REC_SAMPLES
  ⟨0x110018, 1, 0x4, 1, 0x4, 0x0, 0x0, 0x0, 0x0, 0x0, .any⟩, -- REC_DROP
  ⟨0x11001C, 1, 0x4, 1, 0x4, 0x0, 0x0, 0x0, 0x0, 0x0, .any⟩, -- REC_NOTE_STAT
  ⟨0x110020, 1, 0x4, 1, 0x4, 0x0, 0x0, 0x0, 0x0, 0x0, .mp⟩, -- REC_NOTE_CMD
  ⟨0x110050, 1, 0x4, 1, 0x4, 0x0, 0x0, 0x0, 0x0, 0x0, .any⟩ -- REC_CLR
]

/-- Register rows of block IST, the largest arrays first. -/
def regRowsIST : List RegRow := [
  ⟨0x120010, 4, 0x4, 1, 0x4, 0x0, 0xFFFFFFFF, 0x0, 0x0, 0x0, .any⟩, -- IST_OFFP_MASK
  ⟨0x120020, 4, 0x4, 1, 0x4, 0x0, 0x0, 0xFFFFFFFF, 0x0, 0x0, .any⟩, -- IST_OFFP_FAIL
  ⟨0x120000, 1, 0x4, 1, 0x4, 0x0, 0x0, 0x0, 0x0, 0x0, .any⟩, -- IST_STAT
  ⟨0x120004, 1, 0x4, 1, 0x4, 0x0, 0xFFFFFF1F, 0x0, 0x0, 0xA180612, .any⟩, -- IST_CFG
  ⟨0x120008, 1, 0x4, 1, 0x4, 0x1, 0x0, 0x0, 0x0, 0x0, .any⟩, -- IST_CTL
  ⟨0x12000C, 1, 0x4, 1, 0x4, 0x0, 0xFF3F, 0x0, 0x0, 0x3C25, .any⟩, -- IST_OFFP
  ⟨0x120030, 1, 0x4, 1, 0x4, 0x0, 0x0, 0x0, 0x0, 0x0, .any⟩, -- IST_LBIST
  ⟨0x120034, 1, 0x4, 1, 0x4, 0x0, 0x0, 0x0, 0x0, 0x0, .any⟩, -- IST_SCRUB
  ⟨0x120038, 1, 0x4, 1, 0x4, 0x0, 0x0, 0x0, 0x0, 0x0, .any⟩, -- IST_SCRUB_POS
  ⟨0x12003C, 1, 0x4, 1, 0x4, 0x0, 0x0, 0x0, 0x0, 0x0, .any⟩, -- IST_SCRUB_UE_LO
  ⟨0x120040, 1, 0x4, 1, 0x4, 0x0, 0x0, 0x80000000, 0x0, 0x0, .any⟩, -- IST_SCRUB_UE_HI
  ⟨0x120044, 1, 0x4, 1, 0x4, 0x0, 0x0, 0xFFFFFFFF, 0x0, 0x0, .any⟩, -- IST_ISLFAIL_LO
  ⟨0x120048, 1, 0x4, 1, 0x4, 0x0, 0x0, 0x3FFFFFF, 0x0, 0x0, .any⟩, -- IST_ISLFAIL_HI
  ⟨0x12004C, 1, 0x4, 1, 0x4, 0x0, 0x0, 0x0, 0x0, 0x0, .any⟩, -- IST_CAL
  ⟨0x120050, 1, 0x4, 1, 0x4, 0x0, 0x0, 0x0, 0x0, 0x0, .any⟩ -- IST_CLR
]

/-- Register rows of block MPX, the largest arrays first. -/
def regRowsMPX : List RegRow := [
  ⟨0x130020, 8, 0x4, 1, 0x4, 0xFFFFFFFF, 0x0, 0x0, 0x0, 0x0, .any⟩, -- MPX_L2M_D
  ⟨0x130060, 8, 0x4, 1, 0x4, 0xFFFFFFFF, 0x0, 0x0, 0x0, 0x0, .mp⟩, -- MPX_M2L_D
  ⟨0x130000, 1, 0x4, 1, 0x4, 0x0, 0x0, 0x0, 0x0, 0x0, .any⟩, -- MPX_STAT
  ⟨0x130004, 1, 0x4, 1, 0x4, 0xFF0000, 0x0, 0x0, 0x0, 0x640000, .mp⟩, -- MPX_WDT
  ⟨0x130008, 1, 0x4, 1, 0x4, 0x1, 0x0, 0x0, 0x0, 0x0, .mp⟩, -- MPX_DBG
  ⟨0x13000C, 1, 0x4, 1, 0x4, 0x1FF, 0x0, 0x0, 0x0, 0x20, .mp⟩, -- MPX_DWIN
  ⟨0x130010, 1, 0x4, 1, 0x4, 0x3FF, 0x0, 0x0, 0x0, 0x0, .mp⟩, -- MPX_IRQ_EN
  ⟨0x130014, 1, 0x4, 1, 0x4, 0x0, 0x0, 0x3FF, 0x0, 0x0, .mp⟩, -- MPX_IRQ_PEND
  ⟨0x130040, 1, 0x4, 1, 0x4, 0xFFFFFF, 0x0, 0x0, 0x0, 0x0, .any⟩, -- MPX_L2M_CMD
  ⟨0x130044, 1, 0x4, 1, 0x4, 0xFFFF, 0x0, 0x0, 0x0, 0x0, .mp⟩, -- MPX_L2M_ACK
  ⟨0x130080, 1, 0x4, 1, 0x4, 0xFFFFFF, 0x0, 0x0, 0x0, 0x0, .mp⟩, -- MPX_M2L_CMD
  ⟨0x130084, 1, 0x4, 1, 0x4, 0xFFFF, 0x0, 0x0, 0x0, 0x0, .any⟩, -- MPX_M2L_ACK
  ⟨0x130090, 1, 0x4, 1, 0x4, 0x0, 0xFF, 0x0, 0x0, 0x0, .any⟩, -- MPX_TELEM
  ⟨0x130094, 1, 0x4, 1, 0x4, 0x0, 0xFFFFFFFF, 0x0, 0x0, 0x0, .any⟩, -- MPX_IP0
  ⟨0x130098, 1, 0x4, 1, 0x4, 0x0, 0xFFFFFFFF, 0x0, 0x0, 0x0, .any⟩ -- MPX_IP1
]

/-- The register rows of block b, in the block order of Table 1-5 (R19, R563). -/
def blockRows : Nat → List RegRow
  | 0 => regRowsSYS
  | 1 => regRowsPWR
  | 2 => regRowsLANE
  | 3 => regRowsCORD1 ++ regRowsCORD2
  | 4 => regRowsRING
  | 5 => regRowsPART
  | 6 => regRowsEVT
  | 7 => regRowsTB1 ++ regRowsTB2
  | 8 => regRowsCR1 ++ regRowsCR2
  | 9 => regRowsCB1 ++ regRowsCB2
  | 10 => regRowsSIG
  | 11 => regRowsGW
  | 12 => regRowsRB
  | 13 => regRowsCYC1 ++ regRowsCYC2
  | 14 => regRowsFLD
  | 15 => regRowsSAF
  | 16 => regRowsPAIR
  | 17 => regRowsREC
  | 18 => regRowsIST
  | 19 => regRowsMPX
  | _ => []

/-- The row of the register at a setup offset, none for an unused offset (R19). -/
def regRow (off : Nat) : Option RegRow := (blockRows (off / 0x10000)).find? (·.covers off)

/-- The reset value of the register at a setup offset; 0 at an unused one. CR_DA_LO_n resets to 0x4352_4E00 + n
(Table 11-14), the one value that differs from one register of an array to the next. [DESIGN CHOICE, unsafe: notes/assumptions/3.md] -/
def regReset (off : Nat) : Word :=
  match regRow off with
  | none => 0
  | some r =>
    if r.base = Reg.CR_DA_LO 0 then BitVec.ofNat 32 (r.rst.toNat + (off - r.base) / 0x100) else r.rst

end Machine
end Sys2Proof
end

