-- ==== Sys2Proof/Machine/Sparse.lean ====
section
/-!
DEFINITION. Finite maps from Nat as lists of (key, value) pairs with keys strictly rising: the one representation of
memory, of the register file and of every array of the module. An absent key stands for the array's default value.
-/

namespace Sys2Proof
namespace Machine
namespace Sparse

variable {α : Type}

/-- The value listed for a key. -/
def lookup : List (Nat × α) → Nat → Option α
  | [], _ => none
  | (j, v) :: t, k => if j = k then some v else lookup t k

/-- Lists a value for a key, in key order, in place of any value listed before. -/
def insert : List (Nat × α) → Nat → α → List (Nat × α)
  | [], k, v => [(k, v)]
  | (j, w) :: t, k, v =>
    if k < j then (k, v) :: (j, w) :: t else if k = j then (k, v) :: t else (j, w) :: insert t k v

/-- Unlists a key. -/
def erase : List (Nat × α) → Nat → List (Nat × α)
  | [], _ => []
  | (j, w) :: t, k => if k = j then erase t k else (j, w) :: erase t k

/-- The value of a key where absent keys stand for d. -/
def get (m : List (Nat × α)) (d : α) (k : Nat) : α := (lookup m k).getD d

/-- Sets the value of a key where absent keys stand for d: the default is never listed. -/
def set [DecidableEq α] (m : List (Nat × α)) (d : α) (k : Nat) (v : α) : List (Nat × α) :=
  if v = d then erase m k else insert m k v

/-- Every key of the list is greater than k. -/
def above (k : Nat) : List (Nat × α) → Bool
  | [] => true
  | (j, _) :: t => decide (k < j) && above k t

/-- Keys strictly rise. -/
def sorted : List (Nat × α) → Bool
  | [] => true
  | (j, _) :: t => above j t && sorted t

/-- No entry holds the default of its key. -/
def noDefault [DecidableEq α] (d : Nat → α) : List (Nat × α) → Bool
  | [] => true
  | (j, v) :: t => decide (v ≠ d j) && noDefault d t

/-- The canonical form: keys strictly rise and no entry holds its key's default. -/
def wf [DecidableEq α] (d : Nat → α) (m : List (Nat × α)) : Bool := sorted m && noDefault d m

end Sparse
end Machine
end Sys2Proof
end

