-- ==== Sys2Proof/Machine/State.lean ====
section
/-!
DEFINITION. State: everything the spec gives the module, as plain data, and State.reset.
-/

namespace Sys2Proof
namespace Machine

/-- Error state of a 64-bit DRAM word (R16). -/
inductive Ecc where
  | corrected
  | uncorrectable
deriving DecidableEq, Repr

/-- The state of the block. -/
structure State where
  /-- Commands waiting, first in first out. [DEDUCED, safe: notes/assumptions/80.md] -/
  pending : List Instr
  /-- The phase (R29, Table 1-11). -/
  phase : Phase
  /-- The setup registers that differ from their reset values, by offset from 0x00_4000_0000 (R19, R563). -/
  regs : List (Nat × Word)
  /-- Memory: DRAM, MRAM and boot flash by physical address; bank A of the boot flash at 0x2000_0000, bank B at
  0x2800_0000 (R17, R546). Unlisted bytes read 0. [DESIGN CHOICE, unsafe: notes/assumptions/4.md] -/
  mem : List Host.Cell
  /-- DRAM words with an error, by address / 8 (R16). [DEDUCED, safe: notes/assumptions/10.md] -/
  ecc : List (Nat × Ecc)
  /-- Single-bit errors corrected, as the DRAM controller counts them (R16). -/
  eccCount : Nat
  /-- Setup-register writes held during Locking or an image load, oldest first (R30, R568). -/
  heldWrites : List (Requester × Nat × Word)
  /-- The blocks outside setup registers and memory: hearth and power, lanes, harts, interrupt controller, Cord engine, Flue,
  rings, events, locks and monitors, time base, management processor, recorder, Signal Engine, car rings, network ports,
  backbone, rack bridge, field islands, Safety Sequencer, cycle engine, in-service test, pair link. -/
  pwr : Power
  lanes : Lanes
  harts : Harts
  plic : Plic
  cord : Cord
  flue : Flue
  rings : Rings
  evt : Events
  parts : Parts
  tb : TimeBase
  mp : Mp
  recd : Rec
  sig : Sig
  car : Car
  ports : Ports
  cb : Cb
  rack : Rack
  fld : FldBlk
  saf : Saf
  cyc : Cyc
  ist : Ist
  pair : Pair
  /-- Word that the last setup-register read commanded on its own returned (LOCK_ACQUIRE, TB_NT_LATCH). -/
  busData : Word
  /-- Free values drawn so far (the model's own). [DESIGN CHOICE, safe: notes/assumptions/6.md] -/
  freeCtr : Nat
deriving DecidableEq, Repr

/-- A hart at its release from reset (R96); the release sets pc to LANE_ENTRY. [DESIGN CHOICE, unsafe: notes/assumptions/3.md] -/
def Hart.start : Hart :=
  { pc := 0, x := [], f := [], fcsr := 0, priv := .machine, mie := false, mpie := false, mpp := .machine, mprv := false,
    fs := 0, mieReg := 0, mtip := false, mtvec := 0, mepc := 0, mcause := 0, mtval := 0, mscratch := 0, mcycle := 0,
    minstret := 0, mcounteren := 0, mcountinhibit := 0, pmpcfg := [], pmpaddr := [], lpstart := 0, lpend := 0,
    lpCount := 0, lpMode := .user, dzpsel := 0, dztcmp := 0, dzpart := 0, ucord := false, insts := 0, wait := .run }

/-- The hearth domain and power at reset. [DESIGN CHOICE, unsafe: notes/assumptions/3.md] -/
def Power.start : Power :=
  { state := .run, hold := .unpowered, otArmed := true, lpTimer := false, level := 0, target := 0, srcPending := false,
    onPll := false, wakeTaken := false, rtc := 0, rtcFrac := 0, saved := false, relay := false, safeN := false,
    lampTestEnd := 0, rtcHi := 0, tapIr := 0b00001, tapOut := 0, fuseKeys := [0, 0, 0, 0], fuseRevoked := 0,
    fuseSvn := 0, fuseImgSig := false, laneEntry := 0, bootRaise := false, bootSvn := 0 }

/-- The debug module at reset. -/
def Dbg.start : Dbg :=
  { active := false, sel := 0, asked := [], halted := [], stepping := [], resumed := [], dcsr := [], dpc := [], data := [], cmderr := 0, dmi := 0 }

/-- The Cord engine at reset: no Cord sealed, every log empty. -/
def Cord.start : Cord :=
  { sealedRec := none, causes := 0, heldTrig := 0, reqRaw := 0, undo := [], log := [], replay := [], heldSrc := [],
    accIdx := [], lines := [], asked := [], rbRaw := 0, liveRaw := 0, exceeded := [], partUndo := [], partLog := [] }

/-- The MP's hart at reset. -/
def MpCore.start : MpCore :=
  { on := false, waits := false, pc := 0, x := [], mie := false, mpie := false, mieReg := 0, mtvec := 0, mepc := 0,
    mcause := 0, mtval := 0, mscratch := 0, mcycle := 0, minstret := 0, mcountinhibit := 0 }

/-- The MP at reset. [DESIGN CHOICE, unsafe: notes/assumptions/3.md] -/
def Mp.start : Mp :=
  { core := MpCore.start, mtimeOfs := 0, wdtFrom := 0, mtimecmp := 0xFFFFFFFFFFFFFFFF, sram := [], lowRun := 0, nonce := none, failed := [], lockedFrom := none,
    lastUnlocked := 0, replies := [], telem := none, telemFrom := 0, console := [], rx := [], mailWait := [],
    retrain := none, calPending := [], lastCal := 0 }

/-- The time base at reset (R246, R248). -/
def TimeBase.start : TimeBase :=
  { raw := 0, locked := false, ofs := 0, incr := 0x20000000000, latches := [], waiting := none, past := [], gens := [], syncLast := none
    tsq := [] }

/-- The backbone node at reset. [DESIGN CHOICE, unsafe: notes/assumptions/3.md] -/
def Cb.start0 : Cb :=
  { banks := [], written1 := false, start := 0, starts := 0, got := false, judged := true, hold := false, missRun := 0
    gotA := false, gotB := false, missA := 255, missB := 255, heard := 0, annSent := false, prog := none, frozen := []
    sending := [], busyEnd := [], seenEnd := [], relay := [] }

/-- The recorder at reset: no working copy and no sample. [DESIGN CHOICE, unsafe: notes/assumptions/3.md] -/
def Rec.start : Rec :=
  { chans := [], dirty := [], queue := [], dropRaised := false, noteSeq := 0, due := [], lastFlush := 0 }

/-- The pair link at reset: nothing heard, nothing queued. [DESIGN CHOICE, unsafe: notes/assumptions/3.md] -/
def Pair.start : Pair :=
  { out := [], credit := 0, sentBytes := 0, rateFrom := 0, copy := none, staged := [], copied := false, carried := none, hbTx := 0
    hbRx := none, lossAt := none, lossSeen := false, peerImg := 0, peerPrefer := false, peerJoins := false, join := none
    powerFrom := none, lanesUp := false, reviveFrom := 0, stepFrom := none, unacked := [], noack := none, switch := none, request := false
    gapFrom := none, resume := false, passed := [], unpub := [], sent := none }

/-- The module in the Reset state of Table 1-11 with no feed present: every register at its reset value, no memory
written, no command waiting. [DESIGN CHOICE, unsafe: notes/assumptions/3.md; DESIGN CHOICE, unsafe: notes/assumptions/5.md] -/
def State.reset : State :=
  { pending := []
    phase := .reset
    regs := []
    mem := []
    ecc := []
    eccCount := 0
    heldWrites := []
    pwr := Power.start
    lanes := { fencings := [], on := false, resuming := false, respData := 0, respFault := none, ready := [], resv := [], fetched := [], dbg := Dbg.start }
    harts := ⟨Hart.start, Hart.start, Hart.start, Hart.start⟩
    plic := { prio := [], pend := [], enab := [], thresh := [], claimed := [], merged := [] }
    cord := Cord.start
    flue := { recs := [], streams := [], held := [], fullAsked := false, stalled := [], shut := false }
    rings := { ctx := [], hand := [], out := [], lastRing := [], lastPart := [], slotRaw := [], batches := [] }
    evt := { queue := [], eseq := [], lost := [] }
    parts := { locks := [], mon := [] }
    tb := TimeBase.start
    mp := Mp.start
    recd := Rec.start
    sig := { passes := [], lockNt := 0, groups := [], gwLast := [], built := [], ops := 0, snaps := [], pubs := [] }
    car := { nodes := [], fwd := [] }
    ports := { now := [], sent := [], cut := [] }
    cb := Cb.start0
    rack := { queues := [], cycle := none, last := 15, waitEnd := none, ready := false }
    fld := { islands := [], ins := [], dios := [], ais := [], tps := [], frameRaw := 0, seq := 0, rampAt := none, align := none, alignAt := none, offp := none }
    saf := { chans := [], blks := [], differ := 0, evalAt := none }
    cyc := { tasks := [], fires := [], boundary := none, reasons := [], ovrRun := [], starts := [], commits := [], idleEnd := none }
    ist := { wait := none, next := .a, selRtc := 0, offp := [] }
    pair := Pair.start
    busData := 0
    freeCtr := 0 }

/-- Reasons to stop. -/
inductive Fault where
deriving DecidableEq, Repr

/-- Reasons to refuse a command. -/
inductive Refusal where
  /-- No meaning is written for the command. Raised by exec's arms only; safe, nothing follows of the command. -/
  | notModelled (mnemonic : String)
deriving DecidableEq, Repr

end Machine
end Sys2Proof
end

