-- ==== Sys2Proof/Machine/Ops.lean ====
section
/-!
DEFINITION. The named operations over registers, memory, network time and events that every meaning is written with.
-/

namespace Sys2Proof
namespace Machine

/-! ## Setup registers -/

/-- The word of the register at a setup offset. -/
def State.reg (s : State) (off : Nat) : Word :=
  match Sparse.lookup s.regs off with
  | some w => w
  | none => regReset off

/-- Gives the register at a setup offset a word; a register at its reset value is not listed. -/
def State.setReg (s : State) (off : Nat) (w : Word) : State :=
  { s with regs := if w = regReset off then Sparse.erase s.regs off else Sparse.insert s.regs off w }

/-- Bits [lo + w - 1 : lo] of a word. -/
def bits (x : Nat) (lo w : Nat) : Nat := x / 2 ^ lo % 2 ^ w

/-- x with bits [lo + w - 1 : lo] replaced by v modulo 2^w. -/
def setBits (x : Nat) (lo w v : Nat) : Nat :=
  x / 2 ^ (lo + w) * 2 ^ (lo + w) + v % 2 ^ w * 2 ^ lo + x % 2 ^ lo

/-- The value of a register field. -/
def State.rd (s : State) (f : Fld) : Nat := bits (s.reg f.off).toNat f.lo f.w

/-- Writes a register field, as the block itself does. -/
def State.wr (s : State) (f : Fld) (v : Nat) : State :=
  s.setReg f.off (BitVec.ofNat 32 (setBits (s.reg f.off).toNat f.lo f.w v))

/-- A field read as a flag. -/
def State.on (s : State) (f : Fld) : Bool := s.rd f == 1

/-- A flag as a number. -/
def b2n (b : Bool) : Nat := if b then 1 else 0

/-- Adds to a counter that saturates at its field's greatest value. -/
def State.satAdd (s : State) (f : Fld) (n : Nat) : State := s.wr f (min (s.rd f + n) (2 ^ f.w - 1))

/-- Adds to a counter that wraps. -/
def State.modAdd (s : State) (f : Fld) (n : Nat) : State := s.wr f (s.rd f + n)

/-- Raises a peak field to v where v is greater, saturating at the field's greatest value. -/
def State.peak (s : State) (f : Fld) (v : Nat) : State :=
  if s.rd f < v then s.wr f (min v (2 ^ f.w - 1)) else s

/-- Writes a 64-bit value into a pair of registers, low word first. -/
def State.wr64 (s : State) (lo hi : Nat) (v : Nat) : State :=
  (s.setReg lo (BitVec.ofNat 32 v)).setReg hi (BitVec.ofNat 32 (v / 2 ^ 32))

/-- The 64-bit value of a pair of registers. -/
def State.rd64 (s : State) (lo hi : Nat) : Nat := (s.reg lo).toNat + 2 ^ 32 * (s.reg hi).toNat

/-! ## Memory -/

/-- A byte of memory; a byte that nothing has written reads 0. [DESIGN CHOICE, unsafe: notes/assumptions/4.md] -/
def State.byte (s : State) (a : Nat) : Byte := Sparse.get s.mem 0 a

/-- Writes a byte of memory. -/
def State.setByte (s : State) (a : Nat) (b : Byte) : State := { s with mem := Sparse.set s.mem 0 a b }

/-- The canonical form of memory: addresses strictly rise, no listed byte is 0. -/
def Memory.wf (m : List Host.Cell) : Bool := Sparse.wf (fun _ => (0 : Byte)) m

/-- n bytes from an address. -/
def State.bytes (s : State) (a : Nat) : Nat → List Byte
  | 0 => []
  | n + 1 => s.byte a :: s.bytes (a + 1) n

/-- Writes bytes from an address. -/
def State.setBytes (s : State) (a : Nat) : List Byte → State
  | [] => s
  | b :: t => (s.setByte a b).setBytes (a + 1) t

/-- The little-endian value of bytes (R9). -/
def leNat : List Byte → Nat
  | [] => 0
  | b :: t => b.toNat + 256 * leNat t

/-- v as n bytes, little-endian. -/
def leBytes : Nat → Nat → List Byte
  | 0, _ => []
  | n + 1, v => BitVec.ofNat 8 v :: leBytes n (v / 256)

/-- The big-endian value of bytes. -/
def beNat (bs : List Byte) : Nat := leNat bs.reverse

/-- v as n bytes, big-endian. -/
def beBytes (n v : Nat) : List Byte := (leBytes n v).reverse

/-- n bytes from an address as one little-endian value. -/
def State.le (s : State) (a n : Nat) : Nat := leNat (s.bytes a n)

/-- Writes a value of n bytes little-endian. -/
def State.setLe (s : State) (a n v : Nat) : State := s.setBytes a (leBytes n v)

/-- A 32-bit word of memory. -/
def State.word (s : State) (a : Nat) : Word := BitVec.ofNat 32 (leNat (s.bytes a 4))

/-- A field of a 32-bit word of memory. -/
def State.memFld (s : State) (a lo w : Nat) : Nat := bits (leNat (s.bytes a 4)) lo w

/-- Writes a field of a 32-bit word of memory. -/
def State.setMemFld (s : State) (a lo w v : Nat) : State :=
  s.setLe a 4 (setBits (leNat (s.bytes a 4)) lo w v)

/-- n words from an address. -/
def State.words (s : State) (a : Nat) : Nat → List Word
  | 0 => []
  | n + 1 => s.word a :: s.words (a + 4) n

/-- The little-endian bytes of words. -/
def wordBytes : List Word → List Byte
  | [] => []
  | w :: t => leBytes 4 w.toNat ++ wordBytes t

/-- Writes words from an address. -/
def State.setWords (s : State) (a : Nat) (ws : List Word) : State := s.setBytes a (wordBytes ws)

/-- n zero bytes. -/
def zeros (n : Nat) : List Byte := List.replicate n 0

/-! ## Address map (R17, Tables 1-4 and 1-6) -/

/-- [a, a + n) lies within [lo, hi]. -/
def within (a n lo hi : Nat) : Bool := decide (lo ≤ a) && decide (a + n ≤ hi + 1)

/-- The range lies in DRAM. -/
def inDram (a n : Nat) : Bool := within a n 0x1000000000 0x13FFFFFFFF

/-- The range lies in MRAM. -/
def inMram (a n : Nat) : Bool := within a n 0x60000000 0x60FFFFFF

/-- Pair redundancy is configured (R18, PAIR_CFG.EN). -/
def State.pairOn (s : State) : Bool := s.on F.PAIR_CFG_EN

/-- The range touches the redo staging area, where one is configured (R18). -/
def State.inStaging (s : State) (a n : Nat) : Bool :=
  s.pairOn && decide (0x13F0000000 < a + n) && decide (a ≤ 0x13FFFFFFFF)

/-- Address of the doorbell array (R198). -/
def State.dbBase (s : State) : Nat := s.rd F.RING_DB_BASE_BASE * 0x100000

/-- The range touches the doorbell array. -/
def State.inDoorbells (s : State) (a n : Nat) : Bool :=
  decide (s.dbBase < a + n) && decide (a < s.dbBase + 0x40000)

/-- Region-attribute entry n covers page p (R22). -/
def State.ratCovers (s : State) (p n : Nat) : Bool :=
  s.on (F.RAT_CTL_EN n) && decide (s.rd (F.RAT_BASE_BASE n) ≤ p) && decide (p ≤ s.rd (F.RAT_LIMIT_LIMIT n))

/-- The enabled entry that covers a page, if any. -/
def State.ratEntry (s : State) (p : Nat) : Option Nat := (List.range 64).find? (s.ratCovers p)

/-- The DRAM range lies wholly within one enabled Volatile entry. -/
def State.inVolatile (s : State) (a n : Nat) : Bool :=
  match s.ratEntry (a / 4096) with
  | none => false
  | some e => decide (s.rd (F.RAT_CTL_TYPE e) = 1) && decide (s.ratEntry ((a + (n - 1)) / 4096) = some e) && inDram a n

/-- Every page of the range is Volatile; `k` pages from page `p`. -/
def State.pagesVolatile (s : State) (p : Nat) : Nat → Bool
  | 0 => true
  | k + 1 =>
    (match s.ratEntry p with
      | none => false
      | some e => decide (s.rd (F.RAT_CTL_TYPE e) = 1)) && s.pagesVolatile (p + 1) k

/-- Pages a range of n bytes touches. -/
def pagesOf (a n : Nat) : Nat := if n = 0 then 0 else (a + n - 1) / 4096 - a / 4096 + 1

/-- The Ember save area (R80). -/
def State.saveBase (s : State) : Nat := s.rd F.PWR_SAVE_BASE * 0x400000

/-- The range touches the configured Ember save area. -/
def State.inSave (s : State) (a n : Nat) : Bool :=
  s.on F.PWR_EMBER_CFG_E3_EN && decide (s.saveBase < a + n) && decide (a < s.saveBase + 0x400000)

/-- An engine may write n bytes at a: Volatile memory outside the Ember save area and the staging area (R14, R80, R18). -/
def State.engineMayWrite (s : State) (a n : Nat) : Bool :=
  inDram a n && s.pagesVolatile (a / 4096) (pagesOf a n) && !s.inSave a n && !s.inStaging a n

/-- An engine may read n bytes at a: DRAM or MRAM. -/
def State.engineMayRead (a n : Nat) : Bool := inDram a n || inMram a n

/-! ## Regions (R13, R17 to R21) -/

/-- Where a lane address falls (Table 1-3). -/
inductive Region where
  | plain
  | volatile
  | effect (entry : Nat)
  | doorbell (ring : RingId)
  | setup (off : Nat)
  | rack (window : Nat)
  | flash
  | unmapped
deriving DecidableEq, Repr

/-- The region of a lane address. [DEDUCED, unsafe: notes/assumptions/19.md] -/
def State.region (s : State) (a : Nat) : Region :=
  if 0x20000000 ≤ a ∧ a ≤ 0x27FFFFFF then .flash
  else if 0x40000000 ≤ a ∧ a ≤ 0x4013FFFF then .setup (a - 0x40000000)
  else if 0x60100000 ≤ a ∧ a ≤ 0x603FFFFF then .volatile
  else if 0x60400000 ≤ a ∧ a ≤ 0x60FFFFFF then .plain
  else if 0x70000000 ≤ a ∧ a ≤ 0x7FFFFFFF then .rack ((a - 0x70000000) / 0x1000000)
  else if 0x1000000000 ≤ a ∧ a ≤ 0x13FFFFFFFF then
    if s.inStaging a 1 then .unmapped
    else if s.inDoorbells a 1 ∧ s.dbBase ≠ 0 then .doorbell (BitVec.ofNat 15 ((a - s.dbBase) / 8))
    else match s.ratEntry (a / 4096) with
      | none => .plain
      | some n => if s.rd (F.RAT_CTL_TYPE n) = 1 then .volatile
                  else if s.rd (F.RAT_CTL_TYPE n) = 2 then .effect n else .plain
  else .unmapped

/-- Memory of which the lane complex alone is the writer: Plain DRAM and the Plain areas of MRAM (R149). -/
def State.plainAt (s : State) (a : Nat) : Bool :=
  match s.region a with
  | .plain => true
  | _ => false

/-- An access of an engine or the MP to n bytes is held: a rollback is in progress and it touches Plain memory (R157). -/
def State.rollHolds (s : State) (a n : Nat) : Bool :=
  s.on F.CORD_STAT_ROLLING && (s.plainAt a || s.plainAt (a + (n - 1)))

/-! ## Network time (R246, R248) -/

/-- TB_RAW. -/
def State.raw (s : State) : Nat := s.tb.raw.toNat

/-- NT at a value of TB_RAW, 104 bits in 2^-40 ns. -/
def State.ntFullAt (s : State) (r : Nat) : Nat := (s.tb.ofs.toNat + r * s.tb.incr.toNat) % 2 ^ 104

/-- NT now, 64-bit nanoseconds with a 16-bit fraction. -/
def State.nt80 (s : State) : Nat := s.ntFullAt s.raw / 2 ^ 24

/-- The conversion in force at a value of TB_RAW: the present one, or one replaced since. -/
def convAt (r : Nat) : Nat × Nat → List (Nat × BitVec 104 × BitVec 48) → Nat × Nat
  | c, [] => c
  | c, (a, o, i) :: t => if (r + 2 ^ 64 - a % 2 ^ 64) % 2 ^ 64 < 2 ^ 63 then c else convAt r (o.toNat, i.toNat) t

/-- A stamp: NT at a value r of TB_RAW, by the conversion in force at its capture (R263), 64-bit nanoseconds with a 16-bit fraction. -/
def State.ntCaptured (s : State) (r capture : Nat) : Nat :=
  let c := convAt capture (s.tb.ofs.toNat, s.tb.incr.toNat) s.tb.past
  (c.1 + r * c.2) % 2 ^ 104 / 2 ^ 24

/-- Replaces the conversion at a value of TB_RAW; the one before is kept for 200 µs, longer than any frame takes to arrive. -/
def State.setConv (s : State) (r : Nat) (ofs : BitVec 104) (incr : BitVec 48) : State :=
  let old := s.tb.past.filter (fun x => decide ((s.tb.raw.toNat + 2 ^ 64 - x.1 % 2 ^ 64) % 2 ^ 64 < 100000))
  { s with tb := { s.tb with ofs := ofs, incr := incr, past := (r, s.tb.ofs, s.tb.incr) :: old } }

/-- NT nanoseconds now. -/
def State.ntNs (s : State) : Nat := s.ntFullAt s.raw / 2 ^ 40

/-- a - b is 0 or greater as a signed 64-bit difference, the comparison of every TB_RAW instant. -/
def reached (a b : Nat) : Bool := decide ((a + 2 ^ 64 - b % 2 ^ 64) % 2 ^ 64 < 2 ^ 63)

/-- TB_RAW counts in a microsecond and in a millisecond (500 MHz). -/
def rawPerUs : Nat := 500
def rawPerMs : Nat := 500000

/-! ## Free values -/

/-- Draws a free value (Config.freeValue). [DESIGN CHOICE, safe: notes/assumptions/6.md] -/
def State.draw (s : State) : DWord × State := (Config.freeValue s.freeCtr, { s with freeCtr := s.freeCtr + 1 })

/-! ## Events (R233) -/

/-- A number as an INFO or result word. -/
def w32 (n : Nat) : Word := BitVec.ofNat 32 n

/-- Raises a source: its record and PLIC edge follow in the order of the raises (R235). In reset no block runs and
nothing is raised. -/
def State.raise (s : State) (src : Nat) (info : List Word) : State :=
  if s.phase = .reset then s else { s with evt := { s.evt with queue := s.evt.queue ++ [⟨src, info, BitVec.ofNat 64 s.ntNs, none⟩] } }

/-- Raises one of the sources 64 and 66 to 69, whose record goes to the event ring of the ring it names. -/
def State.raiseRing (s : State) (src : Nat) (info : List Word) (r : RingId) : State :=
  { s with evt := { s.evt with queue := s.evt.queue ++ [⟨src, info, BitVec.ofNat 64 s.ntNs, some r⟩] } }

/-- Latches an interrupt request of the MP: bit n of MPX_IRQ_PEND (R562). -/
def State.mpIrq (s : State) (n : Nat) : State := s.wr ⟨Reg.MPX_IRQ_PEND, n, 1⟩ 1

/-! ## Phase and safe state -/

/-- The Operate phase. -/
def State.operate (s : State) : Bool := s.phase == .operate

/-- The Setup phase, its Locking state included (Table 1-11). -/
def State.setupPhase (s : State) : Bool := s.phase == .setup || s.phase == .locking

/-- The safe state has been entered (LANE_STAT.SAFE). -/
def State.safe (s : State) : Bool := s.on F.LANE_STAT_SAFE

/-- Moves the phase and the bits of SYS_PHASE that show it (R29). -/
def State.setPhase (s : State) (p : Phase) : State :=
  (({ s with phase := p }).wr F.SYS_PHASE_OPERATE (b2n (p == Phase.operate))).wr F.SYS_PHASE_LOCK_BUSY (b2n (p == Phase.locking))

/-- The engines run: Operate phase, not in the safe state, not stopped by E2 or E3. -/
def State.running (s : State) : Bool :=
  s.operate && !s.safe && (s.pwr.state == .run || s.pwr.state == .entering || s.pwr.state == .e1)

/-! ## DRAM errors (R16) -/

/-- What a DRAM read of n bytes meets: the first uncorrectable word's address, or the count of corrected words. [DEDUCED, safe: notes/assumptions/10.md] -/
def eccScan (ecc : List (Nat × Ecc)) (lo hi : Nat) : Option Nat × Nat :=
  match ecc with
  | [] => (none, 0)
  | (w, e) :: t =>
    let r := eccScan t lo hi
    if lo ≤ w && w ≤ hi then
      match e with
      | .uncorrectable => (some (8 * w), r.2)
      | .corrected => (r.1, r.2 + 1)
    else r

/-- The address of an uncorrectable word in the n bytes at a, if any. -/
def State.badWord (s : State) (a n : Nat) : Option Nat :=
  if inDram a n then (eccScan s.ecc (a / 8) ((a + (n - 1)) / 8)).1 else none

/-- Raises DRAM_UNCORRECTABLE (source 485) for an address, a reader code and a partial write. -/
def State.raiseUe (s : State) (a reader : Nat) (part : Bool) : State :=
  s.raise 485 [w32 a, w32 (a / 2 ^ 32 % 256 + 256 * reader + 65536 * b2n part)]

/-- A DRAM read of n bytes by a reader: whether it returns data, and the state after the counting of corrected words or the
event of an uncorrectable one (R16). [DEDUCED, safe: notes/assumptions/10.md] -/
def State.readCheck (s : State) (a n reader : Nat) : Bool × State :=
  if !inDram a n then (true, s)
  else match eccScan s.ecc (a / 8) ((a + (n - 1)) / 8) with
    | (some w, _) => (false, s.raiseUe w reader false)
    | (none, k) => (true, { s with eccCount := s.eccCount + k })

/-- Reads areas, each base and length, one after the other up to the first that returns no data (R16). -/
def State.checkAll (s : State) (reader : Nat) : List (Nat × Nat) → Bool × State
  | [] => (true, s)
  | x :: t =>
    let r := s.readCheck x.1 x.2 reader
    if r.1 then r.2.checkAll reader t else r

/-- Clears the error of every DRAM word that a write of n bytes at a covers whole; a partial write renews a word with a
single-bit error and leaves an uncorrectable one poisoned, raising the event with the writer's code (R16). -/
def State.eccWriteWord (s : State) (a n writer : Nat) (w : Nat) : State :=
  match Sparse.lookup s.ecc w with
  | none => s
  | some e =>
    if a ≤ 8 * w && 8 * w + 8 ≤ a + n then { s with ecc := Sparse.erase s.ecc w }
    else match e with
      | .corrected => { s with ecc := Sparse.erase s.ecc w, eccCount := s.eccCount + 1 }
      | .uncorrectable => s.raiseUe (8 * w) writer true

/-- The error effects of a write of n bytes at a, over the words with an error that it touches. [DEDUCED, safe: notes/assumptions/10.md] -/
def State.eccWrite (s : State) (a n writer : Nat) : State :=
  (s.ecc.filter (fun p => decide (a / 8 ≤ p.1) && decide (p.1 ≤ (a + (n - 1)) / 8))).foldl
    (fun t p => t.eccWriteWord a n writer p.1) s

/-- The addresses of mirrored range n. -/
def State.inMrange (s : State) (a n : Nat) : Bool :=
  s.on (F.PAIR_MRANGE_08_EN n) && decide (s.rd (F.PAIR_MRANGE_00_BASE n) ≤ a / 4096) && decide (a / 4096 ≤ s.rd (F.PAIR_MRANGE_04_LIMIT n))

/-- The bytes of a value with their addresses. -/
def addrBytes (a : Nat) : List Byte → List (Nat × Byte)
  | [] => []
  | b :: t => (a, b) :: addrBytes (a + 1) t

/-- The Active module of a pair. -/
def State.isActive (s : State) : Bool := s.pairOn && s.rd F.PAIR_STAT_ROLE == 3

/-- Bytes of mirror traffic that a message counts. [DEDUCED, unsafe: notes/assumptions/66.md] -/
def PairMsg.size : PairMsg → Nat
  | .write cells => cells.length
  | .fill cells => cells.length
  | .flue r => r.bytes.length
  | _ => 0

/-- THROTTLE follows the traffic queued: above 64 KiB (R500). -/
def State.pairThrottle (s : State) : State :=
  let t := decide (65536 < (s.pair.out.map PairMsg.size).sum)
  if t == s.on F.PAIR_STAT_THROTTLE then s else (s.wr F.PAIR_STAT_THROTTLE (b2n t)).raise 423 [w32 (b2n t)]

/-- The partner takes mirror traffic: a lane of the link is up, and it is Reviving or Banked as last heard. -/
def State.pairTakes (s : State) : Bool :=
  s.isActive && !s.safe && (s.on F.PAIR_STAT_LANE0 || s.on F.PAIR_STAT_LANE1) && s.on F.PAIR_STAT_PEER &&
    (s.rd F.PAIR_STAT_PEER_ROLE == 1 || s.rd F.PAIR_STAT_PEER_ROLE == 2)

/-- Queues mirror traffic. -/
def State.pairPut (s : State) (m : PairMsg) : State :=
  if s.pairTakes then ({ s with pair := { s.pair with out := s.pair.out ++ [m] } }).pairThrottle else s

/-- Bytes written are copied to the partner where they fall into a mirrored range (R495). -/
def State.mirror (s : State) (a : Nat) (bs : List Byte) : State :=
  if !s.isActive then s
  else
    let cells := (addrBytes a bs).filter (fun p => (List.range 16).any (s.inMrange p.1))
    if cells = [] then s else s.pairPut (.write cells)

/-- The module acts on the vehicle: it stands alone or is the Active module of a pair (R491). -/
def State.acts (s : State) : Bool := !s.pairOn || s.rd F.PAIR_STAT_ROLE == 3

/-- The LR reservations whose 64-byte granule a write of n bytes at a touches are lost (Table 4-1). -/
def State.dropResv (s : State) (a n : Nat) : State :=
  { s with lanes := { s.lanes with resv := s.lanes.resv.filter (fun p => n == 0 || decide (p.2 + 64 ≤ a) || decide (a + n ≤ p.2)) } }

/-- A write of bytes by an engine, the EVT block, the MP, the Flue or the watcher: memory, its check bits, the reservations it
breaks and the mirror. -/
def State.busWrite (s : State) (a : Nat) (bs : List Byte) (writer : Nat) : State :=
  ((((if bs = [] then s else s.eccWrite a bs.length writer)).dropResv a bs.length).setBytes a bs).mirror a bs

/-! ## Writes held by the fabric (R30, R568) -/

/-- Writes to setup registers are held: in the Locking state, and while an image is loaded. -/
def State.writesHeld (s : State) : Bool := s.phase == .locking || s.on F.SYS_IMG_STAT_BUSY

/-- A write that arrives now waits: writes are held, or earlier ones wait still. -/
def State.mustWait (s : State) : Bool := s.writesHeld || s.heldWrites != []

/-- A write to the setup register at an offset arrives: it waits in the order of arrival, or has its effect f. [DEDUCED, unsafe: notes/assumptions/29.md] -/
def State.arrive (s : State) (who : Requester) (off : Nat) (w : Word) (f : State → State) : State :=
  if s.mustWait then { s with heldWrites := s.heldWrites ++ [(who, off, w)] } else f s

/-- n bytes of free values. [DESIGN CHOICE, safe: notes/assumptions/6.md] -/
def State.freeBytes (s : State) : Nat → List Byte × State
  | 0 => ([], s)
  | n + 1 =>
    let d := s.draw
    let r := d.2.freeBytes n
    (BitVec.ofNat 8 d.1.toNat :: r.1, r.2)

/-! ## CRC (R591) -/

/-- One bit of CRC-32C, reflected polynomial 0x82F63B78. -/
def crcBit (c : Word) : Word := if c.getLsbD 0 then (c >>> 1) ^^^ 0x82F63B78#32 else c >>> 1

/-- n bits of CRC-32C. -/
def crcBits : Nat → Word → Word
  | 0, c => c
  | n + 1, c => crcBits n (crcBit c)

/-- CRC-32C of bytes: all ones at the start and inverted at the end. -/
def crc32c (bs : List Byte) : Word := ~~~ (bs.foldl (fun c b => crcBits 8 (c ^^^ b.zeroExtend 32)) 0xFFFFFFFF#32)

/-- One bit of CRC-16, polynomial 0x1021, most significant bit first (R409). -/
def crc16Bit (c : BitVec 16) : BitVec 16 := if c.getLsbD 15 then (c <<< 1) ^^^ 0x1021#16 else c <<< 1

/-- n bits of CRC-16. -/
def crc16Bits : Nat → BitVec 16 → BitVec 16
  | 0, c => c
  | n + 1, c => crc16Bits n (crc16Bit c)

/-- CRC-16 of bytes, from all ones. -/
def crc16 (bs : List Byte) : BitVec 16 :=
  bs.foldl (fun c b => crc16Bits 8 (c ^^^ ((b.zeroExtend 16 : BitVec 16) <<< (8 : Nat)))) 0xFFFF#16

end Machine
end Sys2Proof
end

