-- ==== Sys2Proof/Machine/RingOps.lean ====
section
/-!
DEFINITION. Rings: contexts, the doorbell watcher, completion records, and the life of a command from taking its
descriptor to its final record (chapter 08).
-/

namespace Sys2Proof
namespace Machine

/-! ## Contexts -/

/-- A context that is all zero: a disabled ring. -/
def ringZero : RingCtx :=
  ⟨0, 0, 0, 0, false, false, false, 0, 0, 0, 0, 0, 0, 0, 0, 0, 0, .disabled, 0⟩

/-- The context of a ring. -/
def State.ctx (s : State) (r : RingId) : RingCtx := Sparse.get s.rings.ctx ringZero r.toNat

/-- Writes the context of a ring. -/
def State.setCtx (s : State) (r : RingId) (c : RingCtx) : State :=
  { s with rings := { s.rings with ctx := Sparse.set s.rings.ctx ringZero r.toNat c } }

/-- STATE codes (Table 8-7). -/
def RingSt.code : RingSt → Nat
  | .disabled => 0
  | .idle => 1
  | .busy => 2
  | .waitSpace => 3
  | .waitLong => 4
  | .waitFence => 5
  | .halted => 6

/-- The eight words of a context (Table 8-1). -/
def RingCtx.words (c : RingCtx) : List Word :=
  [ w32 (c.sqBase.toNat + 2 ^ 28 * c.sqLog.toNat)
  , w32 (c.cqBase.toNat + 2 ^ 28 * c.cqLog.toNat)
  , w32 (b2n c.en + 2 * b2n c.event + 4 * b2n c.mp + 8 * c.engine.toNat + 256 * c.part.toNat + 65536 * c.evtq.toNat +
      2 ^ 24 * c.longMax.toNat)
  , w32 c.sqTail.toNat
  , w32 (c.sqHead.toNat + 2 ^ 17 * c.longOut.toNat)
  , w32 c.cqTail.toNat
  , w32 (c.cqHead.toNat + 2 ^ 24 * c.st.code)
  , c.dbSeq ]

/-- The context that words 0x00 to 0x08 define, with its progress words 0; bits written to Reserved fields are not kept, so
that they read 0 (R10, R195, R215, Table 8-7). -/
def RingCtx.ofWords (d0 d1 d2 : Nat) : RingCtx :=
  { sqBase := BitVec.ofNat 28 d0, sqLog := BitVec.ofNat 4 (d0 / 2 ^ 28)
    cqBase := BitVec.ofNat 28 d1, cqLog := BitVec.ofNat 4 (d1 / 2 ^ 28)
    en := bits d2 0 1 == 1, event := bits d2 1 1 == 1, mp := bits d2 2 1 == 1
    engine := BitVec.ofNat 5 (d2 / 8), part := BitVec.ofNat 8 (d2 / 256), evtq := BitVec.ofNat 2 (d2 / 65536)
    need := 0, longMax := BitVec.ofNat 8 (d2 / 2 ^ 24)
    sqTail := 0, sqHead := 0, longOut := 0, cqTail := 0, cqHead := 0
    st := if bits d2 0 1 = 1 then .idle else .disabled
    dbSeq := 0 }

/-- Descriptor entries 2^(SQ_LOG + 4). -/
def RingCtx.sqEntries (c : RingCtx) : Nat := 2 ^ (c.sqLog.toNat + 4)

/-- Completion entries 2^(CQ_LOG + 4). -/
def RingCtx.cqEntries (c : RingCtx) : Nat := 2 ^ (c.cqLog.toNat + 4)

/-- Address of the descriptor slot of a position (R195, R203). -/
def RingCtx.slotAddr (c : RingCtx) (p : BitVec 17) : Nat := c.sqBase.toNat * 4096 + 64 * (p.toNat % c.sqEntries)

/-- Address of the completion slot of a position. -/
def RingCtx.recAddr (c : RingCtx) (p : BitVec 17) : Nat := c.cqBase.toNat * 4096 + 32 * (p.toNat % c.cqEntries)

/-- PHASE of the record at a completion position (R205). -/
def RingCtx.phase (c : RingCtx) (p : BitVec 17) : Nat := if p.toNat / c.cqEntries % 2 = 0 then 1 else 0

/-- Completion slots free beyond those kept for outstanding long commands (R206). -/
def RingCtx.free (c : RingCtx) : Int :=
  (c.cqEntries : Int) - ((c.cqTail - c.cqHead).toNat : Int) - (c.longOut.toNat : Int)

/-- Writes a 32-byte record at CQ_TAIL and advances it; the caller leaves PHASE, bit 16 of the first word, 0 (R204, R205). A
record on an MP ring requests the MP (Table 21-14). -/
def State.putRecord (s : State) (r : RingId) (ws : List Word) (writer : Nat) : State :=
  let c := s.ctx r
  let w0 := ((ws.headD 0).toNat + 65536 * c.phase c.cqTail)
  let s := if c.mp then s.mpIrq 1 else s
  (s.busWrite (c.recAddr c.cqTail) (wordBytes (w32 w0 :: ws.tail)) writer).setCtx r { c with cqTail := c.cqTail + 1 }

/-! ## Doorbells (R198 to R202) -/

/-- Who performed a write to the doorbell array. -/
inductive DbSource where
  | flue (part : PartId) (seq : Word)
  | mp
  | entry
deriving DecidableEq, Repr

/-- Records an ignored doorbell write or half (R200). kind: 1 range, 2 owner, 3 disabled. -/
def State.dbError (s : State) (r : RingId) (kind : Nat) (cqHalf : Bool) : State :=
  let s := s.satAdd F.RING_DB_ERRCNT_COUNT 1
  let s := if s.on F.RING_DB_ERR_VALID then s
    else ((s.wr F.RING_DB_ERR_RING r.toNat).wr F.RING_DB_ERR_KIND kind).wr F.RING_DB_ERR_VALID 1
  s.raiseRing 65 [w32 (r.toNat + 65536 * kind + 2 ^ 24 * b2n cqHalf)] r

/-- The SQ_TAIL half of a doorbell word (R200). -/
def State.watchTail (s : State) (r : RingId) (t : BitVec 17) : State :=
  let c := s.ctx r
  if c.event then s
  else if (t - c.sqHead).toNat < (c.sqTail - c.sqHead).toNat || c.sqEntries < (t - c.sqHead).toNat then s.dbError r 1 false
  else s.setCtx r { c with sqTail := t, st := if c.st = .idle && t != c.sqHead then .busy else c.st }

/-- An outstanding long command holds the position. -/
def State.posHeld (s : State) (r : RingId) (p : BitVec 17) : Bool := s.rings.out.any (fun d => d.ring == r && d.pos == p)

/-- What a waiting ring waits for has come: completion space for the descriptor at its head, a long command fewer, or no long
command at all (R206). -/
def State.waitClear (s : State) (r : RingId) : Bool :=
  let c := s.ctx r
  match c.st with
  | .waitSpace => decide ((c.need.toNat : Int) ≤ c.free)
  | .waitFence => c.longOut == 0
  | .waitLong => (c.longMax == 0 || c.longOut.toNat != c.longMax.toNat) && !s.posHeld r c.sqHead
  | _ => false

/-- A waiting ring turns Busy when its condition clears (Table 8-7). -/
def State.unwait (s : State) (r : RingId) : State := if s.waitClear r then s.setCtx r { s.ctx r with st := .busy } else s

/-- The CQ_HEAD half of a doorbell word (R200). -/
def State.watchHead (s : State) (r : RingId) (h : BitVec 17) : State :=
  let c := s.ctx r
  if (c.cqTail - c.cqHead).toNat < (h - c.cqHead).toNat then s.dbError r 1 true
  else (s.setCtx r { c with cqHead := h }).unwait r

/-- Remembers a doorbell that moved SQ_TAIL: the tail before it and the SEQ it submits under (R299). [DEDUCED, safe: notes/assumptions/41.md] -/
def State.noteBatch (s : State) (r : RingId) (old : BitVec 17) : State :=
  let c := s.ctx r
  if c.sqTail = old then s
  else { s with rings := { s.rings with
    batches := Sparse.insert s.rings.batches r.toNat (Sparse.get s.rings.batches [] r.toNat ++ [(old, c.dbSeq)]) } }

/-- Forgets the doorbells of descriptors taken: all but the one the head belongs to and later ones. -/
def dropBatches (head : BitVec 17) : List (BitVec 17 × Word) → List (BitVec 17 × Word)
  | [] => []
  | [b] => [b]
  | b :: c :: t =>
    if (head - c.1).toNat < 2 ^ 16 then dropBatches head (c :: t) else b :: c :: t

/-- The doorbell that submitted a position not yet behind the head: its SEQ, and how far into it the position stands. [DEDUCED, safe: notes/assumptions/41.md] -/
def State.batchOf (s : State) (r : RingId) (p : BitVec 17) : Word × Nat :=
  match dropBatches p (Sparse.get s.rings.batches [] r.toNat) with
  | [] => ((s.ctx r).dbSeq, 0)
  | b :: _ => (b.2, (p - b.1).toNat)

/-- The watcher judges the doorbell word of a ring after a write to it (R200, R202). -/
def State.watch (s : State) (r : RingId) (src : DbSource) : State :=
  let c := s.ctx r
  let w := s.le (s.dbBase + 8 * r.toNat) 8
  let judge (s : State) : State := (s.watchTail r (BitVec.ofNat 17 w)).watchHead r (BitVec.ofNat 17 (w / 2 ^ 32))
  if !c.en then s.dbError r 3 false
  else match src with
    | .flue p q =>
      if c.mp || p != c.part then s.dbError r 2 false
      else
        let s := judge s
        (s.setCtx r { s.ctx r with dbSeq := q }).noteBatch r c.sqTail
    | .mp => if c.mp then (judge s).noteBatch r c.sqTail else s.dbError r 2 false
    | .entry => (judge s).noteBatch r c.sqTail

/-! ## Descriptors and completions -/

/-- Status codes (Table 8-8). -/
def stOK : Nat := 0x00
def stAccepted : Nat := 0x01
def stMissedWindow : Nat := 0x10
def stPortNotReady : Nat := 0x11
def stLostArb : Nat := 0x12
def stBadDescriptor : Nat := 0x20
def stNotOwner : Nat := 0x21
def stBudget : Nat := 0x22
def stRolledBack : Nat := 0x30
def stAbandonedLock : Nat := 0x31
def stFarError : Nat := 0x40
def stTimeout : Nat := 0x41
def stCalAged : Nat := 0x50
def stInternal : Nat := 0xFF

/-- Word at byte offset o of a descriptor. -/
def Cmd.word (c : Cmd) (o : Nat) : Nat := (c.words.getD (o / 4) 0).toNat

/-- Field [lo + w - 1 : lo] of the word at byte offset o. -/
def Cmd.fld (c : Cmd) (o lo w : Nat) : Nat := bits (c.word o) lo w

/-- OPCODE of a descriptor. -/
def Cmd.opcode (c : Cmd) : Nat := c.fld 0 0 8

/-- TAG of a descriptor. -/
def Cmd.tag (c : Cmd) : Nat := c.fld 0 16 16

/-- A 40-bit address whose low word is at offset o and whose bits [39:32] are the low byte of the next word. -/
def Cmd.addr (c : Cmd) (o : Nat) : Nat := c.word o + 2 ^ 32 * c.fld (o + 4) 0 8

/-- The Reserved header bits of a descriptor are 0 (Table 8-4). -/
def Cmd.headerOk (c : Cmd) : Bool := c.fld 0 10 6 == 0 && c.word 4 == 0

/-- Every word from byte offset o to the end is 0. -/
def Cmd.zeroFrom (c : Cmd) (o : Nat) : Bool := (c.words.drop (o / 4)).all (· == 0)

/-- The handle of a command (R208). -/
def Cmd.handle (c : Cmd) : Nat := c.ring.toNat * 2 ^ 17 + c.pos.toNat

/-- The words of a completion record (Table 8-5), PHASE left 0. -/
def completionWords (c : Cmd) (status : Nat) (fin : Bool) (detail : Nat) (ntLo : Word) (res : List Word) : List Word :=
  [ w32 (status + 256 * c.opcode + 2 ^ 17 * b2n fin), w32 c.handle, w32 (c.tag + 65536 * detail), ntLo,
    res.getD 0 0, res.getD 1 0, res.getD 2 0, res.getD 3 0 ]

/-- The events a completion record raises (R218): 67 for BAD_DESCRIPTOR and NOT_OWNER, 68 for INTERNAL, 64 for a final
record of a descriptor with EVT = 1. -/
def State.recordEvents (s : State) (c : Cmd) (status : Nat) (fin : Bool) : State :=
  let s := if status = stBadDescriptor || status = stNotOwner then
      s.raiseRing 67 [w32 (c.ring.toNat + 65536 * status), w32 c.handle] c.ring else s
  let s := if status = stInternal then s.raiseRing 68 [w32 c.ring.toNat, w32 c.handle] c.ring else s
  if fin && c.fld 0 8 1 = 1 then s.raiseRing 64 [w32 (c.ring.toNat + 65536 * status), w32 c.handle] c.ring else s

/-- Writes a completion record of a command (R204); none after the safe-state decision (Table 8-7). -/
def State.complete (s : State) (c : Cmd) (status : Nat) (fin : Bool) (detail : Nat) (res : List Word) : State :=
  if s.safe then s
  else (s.putRecord c.ring (completionWords c status fin detail (w32 s.ntNs) res) (s.ctx c.ring).engine.toNat).recordEvents
    c status fin

/-- SQ_HEAD advances past a descriptor whose first record is written (R206); the ring goes Idle or stays Busy, and a ring that
has Halted meanwhile stays Halted (Table 8-7). -/
def State.advance (s : State) (r : RingId) : State :=
  let c := s.ctx r
  let h := c.sqHead + 1
  let s := { s with rings := { s.rings with
    batches := Sparse.set s.rings.batches [] r.toNat (if h = c.sqTail then [] else dropBatches h (Sparse.get s.rings.batches [] r.toNat)) } }
  s.setCtx r { c with sqHead := h, st := if c.st = .halted then .halted else if h = c.sqTail then .idle else .busy }

/-- The descriptor an engine has in hand. -/
def State.hand (s : State) (e : Nat) : Option Cmd := Sparse.lookup s.rings.hand e

/-- Empties an engine's hand. -/
def State.dropHand (s : State) (e : Nat) : State :=
  { s with rings := { s.rings with hand := Sparse.erase s.rings.hand e } }

/-- Ends a command in hand with its one record (R206). -/
def State.finish (s : State) (e : Nat) (c : Cmd) (f : Final) : State :=
  ((s.complete c f.status true f.detail f.res).advance c.ring).dropHand e

/-- Takes a long command in hand: its ACCEPTED record, LONG_OUT up by one, the command outstanding (R206). -/
def State.accept (s : State) (e : Nat) (c : Cmd) : State :=
  let nt := w32 s.ntNs
  let s := s.complete c stAccepted false 0 []
  let x := s.ctx c.ring
  let s := s.setCtx c.ring { x with longOut := x.longOut + 1 }
  let s := { s with rings := { s.rings with out := s.rings.out ++ [{ c with long := true, ntAcc := nt }] } }
  (s.advance c.ring).dropHand e

/-- The first outstanding command of a ring. -/
def firstOut (r : RingId) : List Cmd → Option Cmd
  | [] => none
  | c :: t => if c.ring = r then some c else firstOut r t

/-- Removes the first outstanding command of a ring. -/
def dropFirstOut (r : RingId) : List Cmd → List Cmd
  | [] => []
  | c :: t => if c.ring = r then t else c :: dropFirstOut r t

/-- Writes the final records of a ring's long commands that have ended, in submission order, up to the first that has
not (R207). `n` bounds the records written. -/
def State.flushOut (s : State) (r : RingId) : Nat → State
  | 0 => s
  | n + 1 =>
    match firstOut r s.rings.out with
    | none => s
    | some c =>
      match c.fin with
      | none => s
      | some f =>
        if s.safe then s
        else
          let s := s.complete c f.status true f.detail f.res
          let x := s.ctx r
          let s := s.setCtx r { x with longOut := x.longOut - 1 }
          (({ s with rings := { s.rings with out := dropFirstOut r s.rings.out } }).unwait r).flushOut r n

/-- Gives the outstanding command with a ring and position an end, in the list. -/
def markFin (r : RingId) (p : BitVec 17) (f : Final) : List Cmd → List Cmd
  | [] => []
  | c :: t => if c.ring = r ∧ c.pos = p then { c with fin := some f } :: t else c :: markFin r p f t

/-- Ends the work of a long command: its final record follows when the earlier ones are written (R207). -/
def State.endLong (s : State) (c : Cmd) (f : Final) : State :=
  ({ s with rings := { s.rings with out := markFin c.ring c.pos f s.rings.out } }).flushOut c.ring s.rings.out.length

/-- Replaces an outstanding command, keeping its place. -/
def putOut (c : Cmd) : List Cmd → List Cmd
  | [] => []
  | d :: t => if d.ring = c.ring ∧ d.pos = c.pos then c :: t else d :: putOut c t

/-- Updates an outstanding command's progress. -/
def State.setOut (s : State) (c : Cmd) : State :=
  { s with rings := { s.rings with out := putOut c s.rings.out } }

/-- The outstanding long commands of an engine whose work has not ended, in the order taken. -/
def State.outOf (s : State) (e : Nat) : List Cmd :=
  s.rings.out.filter (fun c => (s.ctx c.ring).engine.toNat == e && c.fin == none)

/-- The outstanding command of an engine with an opcode that satisfies p, oldest first. -/
def State.findOut (s : State) (e op : Nat) (p : Cmd → Bool) : Option Cmd :=
  (s.outOf e).find? (fun c => c.opcode == op && p c)

/-- The partition that owns a command's ring. -/
def State.cmdPart (s : State) (c : Cmd) : PartId := (s.ctx c.ring).part

/-- BAD_DESCRIPTOR, NOT_OWNER and OK ends without detail. -/
def finBad : Final := ⟨stBadDescriptor, 0, []⟩
def finNotOwner : Final := ⟨stNotOwner, 0, []⟩
def finOk (res : List Word) : Final := ⟨stOK, 0, res⟩

/-- The command's body names Plain memory while a rollback is in progress: its accesses are held (R157). -/
def State.cmdHeld (s : State) (c : Cmd) : Bool :=
  s.on F.CORD_STAT_ROLLING && (List.range 12).any (fun k => s.rollHolds (c.addr (8 + 4 * k)) 1)

/-- Performs the short command in an engine's hand when its opcode is op: `run` gives the state after its action and the
end that its record carries. Without such a descriptor in hand the command cannot arise and nothing changes. -/
def State.doShort (s : State) (e op : Nat) (run : Cmd → State → State × Final) : State :=
  match s.hand e with
  | none => s
  | some c => if c.opcode = op ∧ s.running ∧ s.cmdHeld c = false then let r := run c s; r.1.finish e c r.2 else s

/-- The Signal Engine spends operations of the present slot (Table 13-11). -/
def State.spend (s : State) (n : Nat) : State := { s with sig := { s.sig with ops := s.sig.ops - n } }

/-- Performs a short command in hand that is one unit: on the Signal Engine it costs one operation and waits where the slot has none
left (Table 13-11). -/
def State.doUnit (s : State) (e op : Nat) (run : Cmd → State → State × Final) : State :=
  if e ≠ 0 then s.doShort e op run
  else if s.sig.ops = 0 then s
  else s.doShort 0 op (fun c t => run c (t.spend 1))

/-- Starts the long command in an engine's hand when its opcode is op: one that failed its checks when it was taken ends with
their code; otherwise ACCEPTED is written and `start` acts on the outstanding command (R206). -/
def State.doLong (s : State) (e op : Nat) (start : Cmd → State → State) : State :=
  match s.hand e with
  | none => s
  | some c =>
    if c.opcode = op ∧ s.running ∧ s.cmdHeld c = false then
      match c.fin with
      | some f => s.finish e c f
      | none => start { c with long := true, ntAcc := w32 s.ntNs } (s.accept e c)
    else s

/-- Copies a buffer of bytes to an output buffer for an engine. -/
def State.outBuf (s : State) (c : Cmd) (a : Nat) (bs : List Byte) : State := s.busWrite a bs (s.ctx c.ring).engine.toNat

/-- True when a read of n bytes at a meets no uncorrectable word. -/
def State.readOk (s : State) (a n : Nat) : Bool := s.badWord a n == none

/-! ## NOP and HANDLE_QUERY (R211) -/

/-- NOP completes OK; its body is Reserved. -/
def runNop (c : Cmd) (s : State) : State × Final :=
  (s, if c.headerOk && c.zeroFrom 8 then finOk [] else finBad)

/-- HANDLE_QUERY reports whether an outstanding command holds a handle. -/
def runHandleQuery (c : Cmd) (s : State) : State × Final :=
  let h := c.word 8
  let r : RingId := BitVec.ofNat 15 (h / 2 ^ 17)
  let x := s.ctx r
  let me := s.ctx c.ring
  if !(c.headerOk && c.zeroFrom 12) then (s, finBad)
  else if x.part != me.part || x.engine != me.engine then (s, finNotOwner)
  else match s.rings.out.find? (fun d => d.ring == r && d.pos == BitVec.ofNat 17 h) with
    | some d => (s, finOk [1, d.ntAcc])
    | none => (s, finOk [0, 0])

/-! ## Taking descriptors (R206, R209) -/

/-- What an engine knows of a descriptor: unknown opcode, short, or long with the end its checks give if they fail. -/
inductive OpKind where
  | unknown
  | short
  | long (fails : Option Final)
deriving DecidableEq, Repr

/-- The outcome of the procedure of R206 for a ring's next descriptor, before any change. -/
inductive TakeStep where
  | empty
  | waitFence
  | waitSpace
  | waitLong
  | go
deriving DecidableEq, Repr

/-- The descriptor at a ring's head. [DEDUCED, safe: notes/assumptions/42.md] -/
def State.headCmd (s : State) (r : RingId) : Cmd :=
  let c := s.ctx r
  { ring := r, pos := c.sqHead, words := s.words (c.slotAddr c.sqHead) 16, long := false, ntAcc := 0, fin := none, prog := 0, aux := [] }

/-- The procedure of R206 up to the taking; `read` says that the slot's read meets no uncorrectable word. -/
def State.takeStep (s : State) (r : RingId) (read : Bool) (kind : Cmd → State → OpKind) : TakeStep :=
  let c := s.ctx r
  let d := s.headCmd r
  let isLong : Bool := match kind d s with
    | .long none => true
    | _ => false
  if c.sqHead = c.sqTail then .empty
  else if !read then (if c.free < 1 then .waitSpace else .go)
  else if d.fld 0 9 1 = 1 ∧ 0 < c.longOut.toNat then .waitFence
  else if c.free < (if isLong then 2 else 1) then .waitSpace
  else if isLong ∧ c.longMax ≠ 0 ∧ c.longOut.toNat = c.longMax.toNat then .waitLong
  else if isLong ∧ s.posHeld r c.sqHead then .waitLong
  else .go

/-- The ring has a descriptor to take: it is a command ring with one, and it does not wait for what has not come. -/
def State.ringReady (s : State) (r : RingId) (kind : Cmd → State → OpKind) : Bool :=
  let c := s.ctx r
  let step := s.takeStep r (s.readOk (c.slotAddr c.sqHead) 64) kind
  c.en && !c.event && c.st != .halted && c.st != .disabled && step != .empty &&
    !(c.st == .waitFence && step == .waitFence) && !(c.st == .waitSpace && step == .waitSpace) &&
    !(c.st == .waitLong && step == .waitLong)

/-- The completion slots that the descriptor at a ring's head needs free (R206). -/
def State.headNeeds (s : State) (r : RingId) (read : Bool) (kind : Cmd → State → OpKind) : BitVec 2 :=
  match kind (s.headCmd r) s with
  | .long none => if read then 2 else 1
  | _ => 1

/-- Moves a ring's state; RING_CQ_FULL is raised on entry to Wait-space (R209). -/
def State.ringTo (s : State) (r : RingId) (x : RingSt) : State :=
  let c := s.ctx r
  let t := s.setCtx r { c with st := x }
  if x = .waitSpace ∧ c.st ≠ .waitSpace then t.raiseRing 66 [w32 r.toNat] r else t

/-- DESCRIPTOR_TAKE: an engine takes a ring's next descriptor into its hand. An unreadable descriptor ends with INTERNAL (its
OPCODE and TAG are free values), one with an opcode unknown to the engine with BAD_DESCRIPTOR. -/
def State.takeFrom (s : State) (e : Nat) (r : RingId) (kind : Cmd → State → OpKind) : State :=
  let c := s.ctx r
  let rd := s.readCheck (c.slotAddr c.sqHead) 64 e
  let s := rd.2
  match s.takeStep r rd.1 kind with
  | .empty => s.ringTo r .idle
  | .waitFence => s.ringTo r .waitFence
  | .waitSpace => (s.setCtx r { s.ctx r with need := s.headNeeds r rd.1 kind }).ringTo r .waitSpace
  | .waitLong => s.ringTo r .waitLong
  | .go =>
    let s := s.ringTo r .busy
    let d := s.headCmd r
    if !rd.1 then
      let v := s.draw
      v.2.finish e { d with words := [w32 (v.1.toNat % 256 + 65536 * (v.1.toNat / 65536 % 65536))] } ⟨stInternal, 0, []⟩
    else match kind d s with
      | .unknown => s.finish e d finBad
      | .short => { s with rings := { s.rings with hand := Sparse.insert s.rings.hand e d } }
      | .long f => { s with rings := { s.rings with hand := Sparse.insert s.rings.hand e { d with fin := f } } }

end Machine
end Sys2Proof
end

