-- ==== Sys2Proof/Machine/CordOps.lean ====
section
/-!
DEFINITION. Lane states, Cord requests, the undo log, the input log and the Flue's entry and
discard (chapters 01, 05, 06 and 07).
-/

namespace Sys2Proof
namespace Machine

/-! ## Addresses of the boot flash (R92) -/

/-- The memory address behind a lane address: the running bank of the boot flash appears at 0x2000_0000 (R92). [DEDUCED, unsafe: notes/assumptions/8.md] -/
def State.phys (s : State) (a : Nat) : Nat :=
  if 0x20000000 ≤ a ∧ a ≤ 0x27FFFFFF ∧ s.on F.SYS_BOOT_BANK then a + 0x8000000 else a

/-! ## Lane states (Table 5-5) -/

/-- STATE field of a lane in LANE_STAT. -/
def laneField : LaneId → Fld
  | .a => F.LANE_STAT_STATE_A
  | .b => F.LANE_STAT_STATE_B
  | .c => F.LANE_STAT_STATE_C

/-- The state of a lane. -/
def State.laneSt (s : State) (l : LaneId) : LaneSt :=
  match s.rd (laneField l) with
  | 0 => .healthy
  | 1 => .fenced
  | 2 => .ready
  | _ => .failed

/-- The STATE code of a lane state. -/
def LaneSt.code : LaneSt → Nat
  | .healthy => 0
  | .fenced => 1
  | .ready => 2
  | .failed => 3

/-- A lane is usable while it is Healthy (Table 5-2). -/
def State.usable (s : State) (l : LaneId) : Bool := s.laneSt l == LaneSt.healthy

/-- The lanes in the order A, B, C. -/
def lanesABC : List LaneId := [.a, .b, .c]

/-- The usable lanes. -/
def State.usableLanes (s : State) : List LaneId := lanesABC.filter s.usable

/-- Sets a lane's state and LANE_STAT.USABLE with it. -/
def State.setLane (s : State) (l : LaneId) (x : LaneSt) : State :=
  let s := s.wr (laneField l) x.code
  s.wr F.LANE_STAT_USABLE s.usableLanes.length

/-! ## Harts -/

/-- A hart by its number. -/
def Harts.get (x : Harts) (h : HartId) : Hart := if h.val = 0 then x.h0 else if h.val = 1 then x.h1 else if h.val = 2 then x.h2 else x.h3

/-- One hart replaced. -/
def Harts.set (x : Harts) (h : HartId) (y : Hart) : Harts :=
  if h.val = 0 then { x with h0 := y } else if h.val = 1 then { x with h1 := y }
  else if h.val = 2 then { x with h2 := y } else { x with h3 := y }

/-- A change of every hart. -/
def Harts.map (x : Harts) (f : Hart → Hart) : Harts := ⟨f x.h0, f x.h1, f x.h2, f x.h3⟩

/-- Each hart with the hart of the same number of another set. -/
def Harts.zip (x : Harts) (f : Hart → Hart → Hart) (y : Harts) : Harts := ⟨f x.h0 y.h0, f x.h1 y.h1, f x.h2 y.h2, f x.h3 y.h3⟩

/-- The hart of a number. -/
def State.hart (s : State) (h : HartId) : Hart := s.harts.get h

/-- Replaces a hart. -/
def State.setHart (s : State) (h : HartId) (x : Hart) : State := { s with harts := s.harts.set h x }

/-- The four harts. -/
def allHarts : List HartId := [0, 1, 2, 3]

/-! ## Cord requests (R143, R144, R160) -/

/-- Triggers driven by time, held through a rollback and re-execution: PERIOD, BOUNDARY, COLD_RESUME (R157). -/
def timeDriven (code : Nat) : Bool := code == 1 || code == 2 || code == 9

/-- Cords are taken: Operate phase, lanes on, not in an Ember state (R27, R78). -/
def State.cordsOn (s : State) : Bool :=
  s.operate && !s.safe && s.lanes.on && (s.pwr.state == PowerState.run || s.pwr.state == PowerState.entering)

/-- A trigger requests a Cord, or joins the one requested (R144). -/
def State.requestCord (s : State) (code : Nat) : State :=
  if !s.cordsOn then s
  else if timeDriven code && (s.on F.CORD_STAT_REPLAY || s.on F.CORD_STAT_ROLLING) then
    { s with cord := { s.cord with heldTrig := s.cord.heldTrig ||| (1#10 <<< code) } }
  else
    { s with cord := { s.cord with
        causes := s.cord.causes ||| (1#10 <<< code)
        reqRaw := if s.cord.causes = 0 then s.raw else s.cord.reqRaw } }

/-- A Cord is requested and not yet sealed. -/
def State.cordDue (s : State) : Bool := s.cord.causes != 0

/-! ## Declarations of partitions (R231) -/

/-- Monitors that have counted nothing. -/
def monZero : PartMon := ⟨0, 0, 0, 0, 0⟩

/-- The monitors of a partition. -/
def State.mon (s : State) (p : PartId) : PartMon := Sparse.get s.parts.mon monZero p.toNat

/-- Sets the monitors of a partition. -/
def State.setMon (s : State) (p : PartId) (m : PartMon) : State :=
  { s with parts := { s.parts with mon := Sparse.set s.parts.mon monZero p.toNat m } }

/-- Counts n lane DRAM accesses of a partition, and those served in spare slots: all of them without reserved slots, else
the arbiter's own number (R229, R230, R244). [DESIGN CHOICE, safe: notes/assumptions/38.md] -/
def State.dramCharge (s : State) (p : PartId) (n : Nat) : State :=
  if n = 0 then s
  else
    let d := if s.rd (F.PE_CTL_DRAM_UNITS p.toNat) = 0 then (n, s) else (s.draw.1.toNat % (n + 1), s.draw.2)
    let m := d.2.mon p
    d.2.setMon p { m with
      dram := w32 (min (m.dram.toNat + n) (2 ^ 32 - 1))
      spare := w32 (min (m.spare.toNat + d.1) (2 ^ 32 - 1)) }

/-- The accesses of a request that misses in L2: the line it reads, and the line it evicts, where that one is dirty, which
only the cache knows. [DESIGN CHOICE, safe: notes/assumptions/38.md] -/
def State.missCharge (s : State) (p : PartId) (a : Nat) : State :=
  s.draw.2.dramCharge p (b2n (inDram a 1) + s.draw.1.toNat % 2)

/-- Raises PART_DECL_EXCEEDED once per partition and interval when a count passes its declaration. -/
def State.declCheck (s : State) (p : PartId) : State :=
  let u := Sparse.get s.cord.partUndo 0 p.toNat
  let l := Sparse.get s.cord.partLog 0 p.toNat
  let m := s.mon p
  let s := s.setMon p { m with
    undoPeak := if m.undoPeak.toNat < u then BitVec.ofNat 16 (min u 65535) else m.undoPeak
    logPeak := if m.logPeak.toNat < l then BitVec.ofNat 18 (min l 262143) else m.logPeak }
  if (s.rd (F.PE_UNDO_DECL_UNDO_DECL p.toNat) < u || s.rd (F.PE_INLOG_DECL_INLOG_DECL p.toNat) < l) &&
      !Sparse.get s.cord.exceeded false p.toNat then
    ({ s with cord := { s.cord with exceeded := Sparse.set s.cord.exceeded false p.toNat true } }).raise 80
      [w32 p.toNat, w32 u, w32 l]
  else s

/-! ## Undo log (R149 to R151) -/

/-- Capacity and trigger of the undo log. -/
def undoCap : Nat := 49152
def undoTrig : Nat := 36864

/-- An entry of the open epoch covers the line. -/
def State.undoHas (s : State) (line : Nat) : Bool := s.cord.undo.any (fun e => e.line == line)

/-- UNDO_NEAR_FULL: the trigger acts once in an interval, on the entry that reaches the limit (Table 6-1). -/
def State.undoForce (s : State) : State :=
  if decide (undoTrig ≤ s.cord.undo.length) && !s.cord.causes.getLsbD 4 && s.cordsOn then
    ((s.requestCord 4).satAdd F.CORD_FCNT_UNDO_FORCED 1).raise 16 []
  else s

/-- Takes the undo entry of a line, charged to a partition. -/
def State.undoPut (s : State) (line : Nat) (p : PartId) : State :=
  let e : UndoEntry := ⟨line, s.bytes line 64, p⟩
  let s := { s with cord := { s.cord with
    undo := e :: s.cord.undo
    partUndo := Sparse.set s.cord.partUndo 0 p.toNat (Sparse.get s.cord.partUndo 0 p.toNat + 1) } }
  let n := s.cord.undo.length
  ((((s.wr F.CORD_UNDO_USED n).peak F.CORD_UNDO_PEAK n).declCheck p).dramCharge p (b2n (inDram line 64))).undoForce

/-- The undo entry a write to a line needs is taken, if it needs one; none when the log is full (R149, R151). -/
def State.undoTake (s : State) (line : Nat) (p : PartId) : Option State :=
  if !s.operate || s.undoHas line then some s
  else if s.cord.undo.length < undoCap then some (s.undoPut line p)
  else none

/-! ## Input log (R153, R155) -/

/-- Capacity and trigger of the input log in units. -/
def logCap : Nat := 131072
def logTrig : Nat := 98304

/-- Units of a list of records. -/
def logUnits (l : List LogRec) : Nat := (l.map LogRec.units).sum

/-- Units in use, records not yet consumed included (R156). -/
def State.logUsed (s : State) : Nat := logUnits s.cord.log + logUnits s.cord.replay

/-- The INLOG trigger at n units in use: it acts once in an interval, while Cords are taken (Table 6-1). -/
def State.logForceAt (s : State) (n : Nat) : State :=
  if decide (logTrig ≤ n) && !s.cord.causes.getLsbD 5 && s.cordsOn then
    ((s.requestCord 5).satAdd F.CORD_FCNT_INLOG_FORCED 1).raise 17 []
  else s

/-- INLOG_NEAR_FULL, on the record that reaches the limit. -/
def State.logForce (s : State) : State := s.logForceAt s.logUsed

/-- Shows the units in use. -/
def State.logShow (s : State) : State :=
  (s.wr F.CORD_INLOG_USED_USED s.logUsed).peak F.CORD_INLOG_PEAK_PEAK s.logUsed

/-- Charges the units of a record to a partition. -/
def State.logCharge (s : State) (r : LogRec) (p : PartId) : State :=
  ({ s with cord := { s.cord with
      partLog := Sparse.set s.cord.partLog 0 p.toNat (Sparse.get s.cord.partLog 0 p.toNat + r.units) } }).declCheck p

/-- Appends a record charged to a partition (none for SRC). -/
def State.logPut (s : State) (r : LogRec) (p : Option PartId) : State :=
  let s := ({ s with cord := { s.cord with log := s.cord.log ++ [r] } }).logShow
  (match p with
    | none => s
    | some p => s.logCharge r p).logForce

/-- Takes a record charged to a partition (none for SRC); none when the log has no room (R155). -/
def State.logTake (s : State) (r : LogRec) (p : Option PartId) : Option State :=
  if !s.operate then some s
  else if logCap < s.logUsed + r.units then none
  else some (s.logPut r p)

/-! ## Order of accesses to one line (R154) -/

/-- Counts a hart's Plain access and records its order after the last conflicting accesses of the other harts to the line.
An order that re-execution has repeated is in the log already. -/
def State.orderTake (s : State) (h : HartId) (part : PartId) (line : Nat) (write : Bool) : Option State :=
  if !s.operate then some s
  else
    let i := Sparse.get s.cord.accIdx 0 h.val
    let old := s.cord.lines.filter (fun x => x.line == line && x.hart != h && (write || x.write))
    let step (o : Option State) (x : LineAcc) : Option State :=
      match o with
      | none => none
      | some t =>
        if t.cord.log.contains (.order h i x.hart x.idx) then some t
        else t.logTake (.order h i x.hart x.idx) (some part)
    match old.foldl step (some s) with
    | none => none
    | some t =>
      let keep := t.cord.lines.filter (fun x => !(x.line == line && (x.hart == h && x.write == write)))
      some { t with cord := { t.cord with
        accIdx := Sparse.set t.cord.accIdx 0 h.val (i + 1)
        lines := ⟨line, h, i, write⟩ :: (if write then keep.filter (fun x => x.line != line) else keep) } }

/-! ## Flue (R168 to R178, R189) -/

/-- Capacity of the Flue and the use at which FLUE_FULL asks for a Cord (R177). -/
def flueCap : Nat := 2048
def flueTrig : Nat := 1536

/-- Stream counters of a destination. -/
def State.stream (s : State) (d : BitVec 16) : Stream := Sparse.get s.flue.streams ⟨0, 0, 0⟩ d.toNat

/-- Sets the stream counters of a destination. -/
def State.setStream (s : State) (d : BitVec 16) (x : Stream) : State :=
  { s with flue := { s.flue with streams := Sparse.set s.flue.streams ⟨0, 0, 0⟩ d.toNat x } }

/-- Shows the records held in FLUE_STAT and FLUE_PEAK. -/
def State.flueShow (s : State) : State :=
  let n := s.flue.recs.length
  ((s.wr F.FLUE_STAT_USED n).wr F.FLUE_STAT_FULL (b2n (decide (flueCap ≤ n)))).peak F.FLUE_PEAK_PEAK n

/-- Replaces the records, and shows their number and each quota's HELD. -/
def State.setRecs (s : State) (rs : List FlueRec) : State := ({ s with flue := { s.flue with recs := rs } }).flueShow

/-- Counts one record more or one less against a partition's quota. -/
def State.quotaHeld (s : State) (p : PartId) (up : Bool) : State :=
  let f := F.FLUE_QUOTA_HELD p.toNat
  s.wr f (if up then s.rd f + 1 else s.rd f - 1)

/-- Why a request can't take a record now, if so (R178). -/
inductive FlueRoom where
  | room
  | held
  | quotaZero
deriving DecidableEq, Repr

/-- Room for a record of a partition. -/
def State.flueRoom (s : State) (p : PartId) : FlueRoom :=
  if s.rd (F.FLUE_QUOTA_QUOTA p.toNat) = 0 then .quotaZero
  else if flueCap ≤ s.flue.recs.length then .held
  else if s.rd (F.FLUE_QUOTA_QUOTA p.toNat) ≤ s.rd (F.FLUE_QUOTA_HELD p.toNat) then .held
  else .room

/-- The hart's most recent record. -/
def lastOf (h : HartId) (rs : List FlueRec) : Option FlueRec := (rs.reverse).find? (fun r => r.hart == h)

/-- Bytes written over bytes at the same addresses. -/
def mergeBytes (old new : List (Nat × Byte)) : List (Nat × Byte) :=
  new.foldl (fun m p => Sparse.insert m p.1 p.2) old

/-- Replaces a record in place. -/
def replaceRec (old new : FlueRec) : List FlueRec → List FlueRec
  | [] => []
  | r :: t => if r = old then new :: t else r :: replaceRec old new t

/-- The record into which an Effect-region store merges, if any (R170). -/
def State.mergeTarget (s : State) (h : HartId) (a : Nat) : Option FlueRec :=
  if !s.on F.FLUE_CFG_MERGE_EN then none
  else match lastOf h s.flue.recs with
    | none => none
    | some r => if r.kind = .store ∧ !r.releasable ∧ r.addr / 64 = a / 64 then some r else none

/-- FLUE_FULL: the trigger acts once in an interval, on the record that reaches the limit (R177). -/
def State.flueForce (s : State) : State :=
  if decide (flueTrig ≤ s.flue.recs.length) && !s.flue.fullAsked && s.cordsOn then
    ((({ s with flue := { s.flue with fullAsked := true } }).requestCord 6).satAdd F.FLUE_FCNT_FULL_FORCED 1).raise 32 []
  else s

/-- A record enters the Flue: it takes the stream's next sequence number, counts against its partition, and asks for a
Cord where the Flue is full for the first time in the interval (R172, R177). [DEDUCED, unsafe: notes/assumptions/66.md] -/
def State.flueEnter (s : State) (h : HartId) (p : PartId) (d : BitVec 16) (k : EffKind) (a size : Nat)
    (bs : List (Nat × Byte)) (info : List Nat) : State :=
  let x := s.stream d
  let q := x.entered + 1
  let r : FlueRec := ⟨h, p, d, q, k, a, size, bs, info, false, none, none, 0⟩
  let s := (s.setStream d { x with entered := q }).quotaHeld p true
  (s.setRecs (s.flue.recs ++ [r])).flueForce

/-- At the seal of a Cord every held record becomes releasable, and SEALED := ENTERED for every stream (R172, R173). Where the
pair gates, records of mirrored partitions wait for its acknowledgement (R174). -/
def State.flueSeal (s : State) (num : Nat) (gates : Bool) : State :=
  let rs := s.flue.recs.map (fun r =>
    if r.releasable then r
    else { r with
      releasable := true, cord := some (BitVec.ofNat 64 num), since := s.raw
      mirrorWait := if gates && s.on (F.PE_CTL_MIRRORED r.part.toNat) then some num else none })
  { s with flue := { s.flue with
      recs := rs
      streams := s.flue.streams.map (fun p => (p.1, { p.2 with sealedSeq := p.2.entered }))
      fullAsked := false } }

/-- Discards the records of the unsealed interval (R189); the trigger of R177 may act again. -/
def State.flueDiscard (s : State) : State :=
  let gone := s.flue.recs.filter (fun r => !r.releasable)
  let s := gone.foldl (fun t r => (t.satAdd F.FLUE_DISC_DISCARDED 1).quotaHeld r.part false) s
  let s := s.setRecs (s.flue.recs.filter (fun r => r.releasable))
  { s with flue := { s.flue with
      streams := s.flue.streams.map (fun p => (p.1, { p.2 with entered := p.2.sealedSeq }))
      held := [], fullAsked := false } }

/-- Discards every record at the safe-state decision and releases nothing more (R190). -/
def State.flueShut (s : State) : State :=
  let n := s.flue.recs.length
  let s := s.flue.recs.foldl (fun t r => t.quotaHeld r.part false) s
  let s := s.wr F.FLUE_SAFEDISC_COUNT n
  let s := s.setRecs []
  { s with flue := { s.flue with held := [], shut := true } }

end Machine
end Sys2Proof
end

