-- ==== Sys2Proof/Machine/PairState.lean ====
section
/-!
DEFINITION. The pair: roles, the pair record, and what a write, a Flue record, a rollback and a seal send to the partner
(R489 to R500).
-/

namespace Sys2Proof
namespace Machine

/-! ## Roles (R491, R492) -/

/-- Role codes of PAIR_STAT. -/
def rlFenced : Nat := 0
def rlReviving : Nat := 1
def rlBanked : Nat := 2
def rlActive : Nat := 3

/-- The role. -/
def State.role (s : State) : Nat := s.rd F.PAIR_STAT_ROLE

/-- Moves the role, with FENCE_WHY and the event of a change. -/
def State.setRole (s : State) (new why : Nat) : State :=
  let old := s.role
  let s := (s.wr F.PAIR_STAT_ROLE new).wr F.PAIR_STAT_FENCE_WHY (if new = rlFenced then why else 0)
  if old = new then s else s.raise 416 [w32 (old + 4 * new + 256 * (if new = rlFenced then why else 0))]

/-- Changes the pair's own state. -/
def State.pairSet (s : State) (f : Pair → Pair) : State := { s with pair := f s.pair }

/-- A lane of the pair link is up. -/
def State.pairLink (s : State) : Bool := s.on F.PAIR_STAT_LANE0 || s.on F.PAIR_STAT_LANE1

/-- Sends a control message on every lane that is up; a module in the safe state sends nothing. -/
def State.pairSend (s : State) (m : PairCtl) : State :=
  if s.pairLink && !s.safe then s.pairSet (fun p => { p with sent := some m }) else s

/-- Own and partner's epochs, and the last complete Cord. -/
def State.epoch (s : State) : Nat := s.rd64 Reg.PAIR_EPOCH_LO Reg.PAIR_EPOCH_HI
def State.peerEpoch (s : State) : Nat := s.rd64 Reg.PAIR_PEER_EPOCH_LO Reg.PAIR_PEER_EPOCH_HI
def State.pairLast (s : State) : Nat := s.rd64 Reg.PAIR_LAST_LO Reg.PAIR_LAST_HI

/-! ## The pair record (R494, Table 19-4) -/

/-- Address of a copy. -/
def pairRec (k : Nat) : Nat := 0x60001000 + 0x40 * k

/-- A copy is valid: VALID and CRC correct. -/
def State.pairRecValid (s : State) (k : Nat) : Bool :=
  s.le (pairRec k + 0x3C) 4 == 0x50414952 && (crc32c (s.bytes (pairRec k) 0x38)).toNat == s.le (pairRec k + 0x38) 4

/-- The copy in force: valid, with the higher SEQ. -/
def State.pairRecBest (s : State) : Option Nat :=
  match s.pairRecValid 0, s.pairRecValid 1 with
  | false, false => none
  | true, false => some 0
  | false, true => some 1
  | true, true => some (if s.le (pairRec 1) 4 < s.le (pairRec 0) 4 then 0 else 1)

/-- EPOCH and LAST_ROLE of the record in force; 0 and Fenced without one. -/
def State.pairRecEpoch (s : State) : Nat :=
  match s.pairRecBest with
  | none => 0
  | some k => s.le (pairRec k + 4) 8
def State.pairRecRole (s : State) : Nat :=
  match s.pairRecBest with
  | none => 0
  | some k => s.memFld (pairRec k + 0xC) 0 2

/-- Writes an epoch and a role into the other copy, VALID last. -/
def State.pairRecWrite (s : State) (epoch role : Nat) : State :=
  let seq := match s.pairRecBest with
    | none => 0
    | some k => s.le (pairRec k) 4 + 1
  let dst := match s.pairRecBest with
    | none => 0
    | some k => 1 - k
  let body := leBytes 4 seq ++ leBytes 8 epoch ++ leBytes 4 role ++ leBytes 4 (s.reg Reg.SYS_IMG_ID).toNat ++ zeros 36
  (s.wr64 Reg.PAIR_EPOCH_LO Reg.PAIR_EPOCH_HI epoch).setBytes (pairRec dst)
    (body ++ leBytes 4 (crc32c body).toNat ++ leBytes 4 0x50414952)

/-- PAIR_EPOCH and PREFER_UNIT as they stand after reset: from the pair record and the straps (R494, R60). -/
def State.pairReset (s : State) (prefer : Bool) : State :=
  (s.wr64 Reg.PAIR_EPOCH_LO Reg.PAIR_EPOCH_HI s.pairRecEpoch).wr F.PAIR_STAT_PREFER_UNIT (b2n prefer)

/-! ## Mirrored partitions (R495, R496, R500) -/

/-- A partition is mirrored. -/
def State.mirrored (s : State) (p : PartId) : Bool := s.pairOn && s.on (F.PE_CTL_MIRRORED p.toNat)

/-- An address lies in a range of a partition. -/
def State.inPartRange (s : State) (p : PartId) (a : Nat) : Bool :=
  (List.range 16).any (fun n => s.inMrange a n && s.rd (F.PAIR_MRANGE_08_PART n) == p.toNat)

/-- A lane store of a mirrored partition to a Plain or Effect address outside that partition's ranges faults (R496). -/
def State.mirrorFault (s : State) (p : PartId) (a n : Nat) : Bool :=
  s.mirrored p &&
    (match s.region a with
      | .plain => true
      | .effect _ => true
      | _ => false) && !(s.inPartRange p a && s.inPartRange p (a + (n - 1)))

/-- Lane stores of a mirrored partition are held at the voter (R500). -/
def State.mirrorHold (s : State) (p : PartId) : Bool := s.mirrored p && s.on F.PAIR_STAT_THROTTLE

/-- The latest Flue record of a mirrored partition is copied to the partner, as it enters or merges (R495). -/
def State.mirrorRec (s : State) (r : FlueRec) : State := if s.mirrored r.part then s.pairPut (.flue r) else s

/-- The discard mark sent at the start of a rollback (R499). -/
def State.pairDiscard (s : State) : State := s.pairPut .discard

/-- The records of mirrored partitions wait for the partner's acknowledgement of the Cord being sealed: the module is Active
and its partner Banked and in step, as last heard (R174). [DEDUCED, unsafe: notes/assumptions/66.md] -/
def State.pairGates (s : State) : Bool := s.isActive && s.rd F.PAIR_STAT_PEER_ROLE == rlBanked && !s.on F.PAIR_STAT_OUT_OF_STEP

/-- A dataset is published: it counts as published since the takeover (R504). -/
def State.pairPublished (s : State) (d : Nat) : State :=
  if s.pair.unpub = [] then s
  else s.pairSet (fun p => { p with unpub := (p.unpub.map (fun x => (x.1, x.2.filter (· != d)))).filter (fun x => x.2 != []) })

/-! ## Ports under split attachment (R487, R488) -/

/-- The channel of the module's own car-ring ports: 0 A, 1 B. -/
def State.ownChan (s : State) : Nat := s.rd F.SYS_STRAP_SLOT_ID % 2

/-- A channel of a car ring is reached over the pair link. -/
def State.farChan (s : State) (ch : Nat) : Bool := s.pairOn && ch != s.ownChan

end Machine
end Sys2Proof
end

