-- ==== Sys2Proof/Machine/Float.lean ====
section
/-!
DEFINITION. Binary floating point of IEEE 754 as exact numbers with one rounding at the end: binary64 values of signals and
recorder channels, and the F and D instructions of the lane cores (R94).
-/

namespace Sys2Proof
namespace Machine

/-- A floating-point datum: not a number (signalling or quiet), an infinity, or the exact number m * 2^e with a sign. -/
inductive Flo where
  | nan (signalling : Bool)
  | inf (neg : Bool)
  | fin (neg : Bool) (m : Nat) (e : Int)
deriving DecidableEq, Repr

/-- A binary format: width of the exponent and of the fraction. -/
structure FloFmt where
  eb : Nat
  mb : Nat
deriving DecidableEq, Repr

/-- binary32 and binary64. -/
def f32 : FloFmt := ⟨8, 23⟩
def f64 : FloFmt := ⟨11, 52⟩

/-- The exponent bias. -/
def FloFmt.bias (f : FloFmt) : Nat := 2 ^ (f.eb - 1) - 1

/-- The bits of the sign, the infinities and the canonical quiet NaN. -/
def FloFmt.sign (f : FloFmt) (neg : Bool) : Nat := if neg then 2 ^ (f.eb + f.mb) else 0
def FloFmt.infBits (f : FloFmt) (neg : Bool) : Nat := f.sign neg + (2 ^ f.eb - 1) * 2 ^ f.mb
def FloFmt.nanBits (f : FloFmt) : Nat := (2 ^ f.eb - 1) * 2 ^ f.mb + 2 ^ (f.mb - 1)

/-- The datum that bits encode. -/
def FloFmt.decode (f : FloFmt) (x : Nat) : Flo :=
  let m := x % 2 ^ f.mb
  let e := x / 2 ^ f.mb % 2 ^ f.eb
  let neg := x / 2 ^ (f.mb + f.eb) % 2 == 1
  if e = 2 ^ f.eb - 1 then (if m = 0 then .inf neg else .nan (m / 2 ^ (f.mb - 1) == 0))
  else if e = 0 then .fin neg m (1 - (f.bias : Int) - f.mb)
  else .fin neg (m + 2 ^ f.mb) ((e : Int) - f.bias - f.mb)

/-- Rounding modes of the F extension. -/
inductive Rm where
  | rne
  | rtz
  | rdn
  | rup
  | rmm
deriving DecidableEq, Repr

/-- Exception flags NX, UF, OF, DZ, NV of fcsr. -/
def fNX : Nat := 1
def fUF : Nat := 2
def fOF : Nat := 4
def fDZ : Nat := 8
def fNV : Nat := 16

/-- A magnitude m * 2^e, with more below it when `st`, rounded to a multiple of 2^q: the multiple and whether it is inexact. -/
def roundAt (rm : Rm) (neg : Bool) (m : Nat) (e : Int) (st : Bool) (q : Int) : Nat × Bool :=
  if q ≤ e then (m * 2 ^ (e - q).toNat, st)
  else
    let k := (q - e).toNat
    let fl := m / 2 ^ k
    let rem := m % 2 ^ k
    let half := 2 ^ (k - 1)
    let inexact := decide (rem ≠ 0) || st
    let up := match rm with
      | .rne => decide (half < rem) || (decide (rem = half) && (st || decide (fl % 2 = 1)))
      | .rtz => false
      | .rdn => neg && inexact
      | .rup => !neg && inexact
      | .rmm => decide (half ≤ rem)
    (if up then fl + 1 else fl, inexact)

/-- A number rounded into a format, with its flags. Tininess is detected after rounding. -/
def FloFmt.round (f : FloFmt) (rm : Rm) (neg : Bool) (m : Nat) (e : Int) (st : Bool) : Nat × Nat :=
  if m = 0 then (f.sign neg, if st then fNX + fUF else 0)
  else
    let top : Int := e + Nat.log2 m
    let emin : Int := 1 - (f.bias : Int)
    let r := roundAt rm neg m e st (top - f.mb)
    let top' : Int := if r.1 = 2 ^ (f.mb + 1) then top + 1 else top
    if (f.bias : Int) < top' then
      let toInf := match rm with
        | .rne => true
        | .rtz => false
        | .rdn => neg
        | .rup => !neg
        | .rmm => true
      (if toInf then f.infBits neg else f.infBits neg - 1, fOF + fNX)
    else if top < emin then
      let s := roundAt rm neg m e st (emin - f.mb)
      (f.sign neg + s.1, (if s.2 then fNX else 0) + (if s.2 && decide (top' < emin) then fUF else 0))
    else
      let r1 := if r.1 = 2 ^ (f.mb + 1) then 2 ^ f.mb else r.1
      (f.sign neg + (top' + f.bias).toNat * 2 ^ f.mb + (r1 - 2 ^ f.mb), if r.2 then fNX else 0)

/-- An exact signed number v * 2^e as bits; `nz` is the sign of an exact zero. -/
def FloFmt.ofInt (f : FloFmt) (rm : Rm) (v : Int) (e : Int) (nz : Bool) : Nat × Nat :=
  if v = 0 then (f.sign nz, 0) else f.round rm (decide (v < 0)) v.natAbs e false

/-- The signed significand of a finite datum. -/
def sgn (neg : Bool) (m : Nat) : Int := if neg then -(m : Int) else (m : Int)

/-- Flags of operands: a signalling NaN is invalid. -/
def Flo.snan : Flo → Bool
  | .nan s => s
  | _ => false

/-- True of a NaN. -/
def Flo.isNan : Flo → Bool
  | .nan _ => true
  | _ => false

/-- Addition of exact data. -/
def FloFmt.add (f : FloFmt) (rm : Rm) (a b : Flo) : Nat × Nat :=
  match a, b with
  | .nan s, y => (f.nanBits, if s || y.snan then fNV else 0)
  | _, .nan s => (f.nanBits, if s then fNV else 0)
  | .inf x, .inf y => if x = y then (f.infBits x, 0) else (f.nanBits, fNV)
  | .inf x, .fin .. => (f.infBits x, 0)
  | .fin .., .inf y => (f.infBits y, 0)
  | .fin n m e, .fin n' m' e' =>
    let q := min e e'
    let v := sgn n m * 2 ^ (e - q).toNat + sgn n' m' * 2 ^ (e' - q).toNat
    f.ofInt rm v q (if m = 0 ∧ m' = 0 ∧ n = n' then n else rm == .rdn)

/-- The negated datum. -/
def Flo.neg : Flo → Flo
  | .nan s => .nan s
  | .inf n => .inf (!n)
  | .fin n m e => .fin (!n) m e

/-- The exact product, NaN where it is invalid. -/
def Flo.mul (a b : Flo) : Flo :=
  match a, b with
  | .nan s, y => .nan (s || y.snan)
  | _, .nan s => .nan s
  | .inf x, .inf y => .inf (x != y)
  | .inf x, .fin y m _ => if m = 0 then .nan true else .inf (x != y)
  | .fin y m _, .inf x => if m = 0 then .nan true else .inf (x != y)
  | .fin n m e, .fin n' m' e' => .fin (n != n') (m * m') (e + e')

/-- A datum rounded into a format. -/
def FloFmt.pack (f : FloFmt) (rm : Rm) : Flo → Nat × Nat
  | .nan s => (f.nanBits, if s then fNV else 0)
  | .inf n => (f.infBits n, 0)
  | .fin n m e => f.round rm n m e false

/-- Division. -/
def FloFmt.div (f : FloFmt) (rm : Rm) (a b : Flo) : Nat × Nat :=
  match a, b with
  | .nan s, y => (f.nanBits, if s || y.snan then fNV else 0)
  | _, .nan s => (f.nanBits, if s then fNV else 0)
  | .inf _, .inf _ => (f.nanBits, fNV)
  | .inf x, .fin y _ _ => (f.infBits (x != y), 0)
  | .fin x _ _, .inf y => (f.sign (x != y), 0)
  | .fin n m e, .fin n' m' e' =>
    if m' = 0 then (if m = 0 then (f.nanBits, fNV) else (f.infBits (n != n'), fDZ))
    else if m = 0 then (f.sign (n != n'), 0)
    else
      let k := 2 * f.mb + 8
      let x := m * 2 ^ k
      f.round rm (n != n') (x / m') (e - e' - k) (decide (x % m' ≠ 0))

/-- Integer square root by bits, from bit n down. -/
def isqrt (x : Nat) : Nat → Nat → Nat
  | 0, r => r
  | n + 1, r => let t := r + 2 ^ n; isqrt x n (if t * t ≤ x then t else r)

/-- Square root. -/
def FloFmt.sqrt (f : FloFmt) (rm : Rm) (a : Flo) : Nat × Nat :=
  match a with
  | .nan s => (f.nanBits, if s then fNV else 0)
  | .inf n => if n then (f.nanBits, fNV) else (f.infBits false, 0)
  | .fin n m e =>
    if m = 0 then (f.sign n, 0)
    else if n then (f.nanBits, fNV)
    else
      let k := 2 * f.mb + 8 + (if e % 2 = 0 then 0 else 1)
      let x := m * 2 ^ k
      let r := isqrt x (f.mb + f.mb + 8) 0
      f.round rm false r ((e - k) / 2) (decide (r * r ≠ x))

/-- Fused multiply-add a * b + c. -/
def FloFmt.fma (f : FloFmt) (rm : Rm) (a b c : Flo) : Nat × Nat :=
  match a.mul b with
  | .nan s => (f.nanBits, if (s && !(a.isNan || b.isNan)) || a.snan || b.snan || c.snan then fNV else 0)
  | p => f.add rm p c

/-- The value of a finite datum in units of 2^-q, exact when e ≥ -q. -/
def Flo.scaled (q : Nat) : Flo → Int
  | .fin n m e => sgn n (m * 2 ^ (e + q).toNat)
  | _ => 0

/-- Order of two data: none when either is a NaN. Finite data are compared as exact numbers. -/
def Flo.cmp (a b : Flo) : Option Ordering :=
  match a, b with
  | .nan _, _ => none
  | _, .nan _ => none
  | .inf x, .inf y => some (if x = y then .eq else if x then .lt else .gt)
  | .inf x, .fin .. => some (if x then .lt else .gt)
  | .fin .., .inf y => some (if y then .gt else .lt)
  | .fin n m e, .fin n' m' e' =>
    let q := min e e'
    some (compare (sgn n m * 2 ^ (e - q).toNat) (sgn n' m' * 2 ^ (e' - q).toNat))

/-- a is less than b. -/
def Flo.lt (a b : Flo) : Bool := a.cmp b == some .lt

/-- A number rounded to an integer, with the inexact flag; none for a NaN or an infinity. -/
def Flo.toInt (rm : Rm) : Flo → Option (Int × Bool)
  | .fin n m e =>
    let r := roundAt rm n m e false 0
    some (sgn n r.1, r.2)
  | _ => none

/-- Conversion to an integer range, saturating (F extension): the result and its flags. -/
def Flo.toRange (rm : Rm) (lo hi : Int) (a : Flo) : Int × Nat :=
  match a with
  | .nan _ => (hi, fNV)
  | .inf n => (if n then lo else hi, fNV)
  | a =>
    match a.toInt rm with
    | none => (hi, fNV)
    | some (v, x) => if v < lo then (lo, fNV) else if hi < v then (hi, fNV) else (v, if x then fNX else 0)

end Machine
end Sys2Proof
end

