-- ==== Sys2Proof/Machine/RecOps.lean ====
section
/-!
DEFINITION. The recorder's operations: channel records, binning, flushing, clearing, restoring at reset release and notes
(chapter 20).
-/

namespace Sys2Proof
namespace Machine

/-! ## Layout (Tables 20-1, 20-4 and 20-5) -/

/-- Addresses of the recorder area. -/
def recHdr (copy : Nat) : Nat := 0x60100000 + 64 * copy
def recJournal : Nat := 0x60101000
def recNote (i : Nat) : Nat := 0x60102000 + 64 * i
def recHome (c : Nat) : Nat := 0x60110000 + 256 * c

/-- VALID words of a channel record, of a header copy and of a note. -/
def validChan : Nat := 0x52454344
def validHdr : Nat := 0x52454348
def validNote : Nat := 0x4E4F5445

/-- A channel with no sample and no clear. -/
def recZero : RecChan := ⟨0, 0, 0, 0, 0, 0, 0, 0, 0, [], 0⟩

/-- A 64-bit number as two words. -/
def dwords (x : DWord) : List Word := [w32 x.toNat, w32 (x.toNat / 2 ^ 32)]

/-- The first 0xF8 bytes of a channel record. -/
def recBody (c : Nat) (r : RecChan) : List Byte :=
  wordBytes ([r.seq, w32 c, r.clearGen, r.cfgCrc] ++ dwords r.n ++ dwords r.min ++ dwords r.minNt ++ dwords r.max ++
    dwords r.maxNt ++ dwords r.since ++ (List.range 32).map (Sparse.get r.bins 0) ++ [r.drops]) ++ zeros 52

/-- The record of a channel, with CRC and with VALID or 0. -/
def recBytes (c : Nat) (r : RecChan) (valid : Bool) : List Byte :=
  recBody c r ++ leBytes 4 (crc32c (recBody c r)).toNat ++ leBytes 4 (if valid then validChan else 0)

/-- A record at an address has VALID and CRC correct. -/
def State.recValid (s : State) (a : Nat) : Bool :=
  s.le (a + 0xFC) 4 == validChan && (crc32c (s.bytes a 0xF8)).toNat == s.le (a + 0xF8) 4

/-- A 64-bit number in memory. -/
def State.dword (s : State) (a : Nat) : DWord := BitVec.ofNat 64 (s.le a 8)

/-- The record at an address. -/
def State.recLoad (s : State) (a : Nat) : RecChan :=
  { seq := s.word a, clearGen := s.word (a + 8), cfgCrc := s.word (a + 12), n := s.dword (a + 0x10),
    min := s.dword (a + 0x18), minNt := s.dword (a + 0x20), max := s.dword (a + 0x28), maxNt := s.dword (a + 0x30),
    since := s.dword (a + 0x38),
    bins := (List.range 32).foldl (fun m b => Sparse.set m 0 b (s.word (a + 0x40 + 4 * b))) [],
    drops := s.word (a + 0xC0) }

/-- A header copy is valid. -/
def State.recHdrValid (s : State) (copy : Nat) : Bool :=
  s.le (recHdr copy + 0x3C) 4 == validHdr && (crc32c (s.bytes (recHdr copy) 0x38)).toNat == s.le (recHdr copy + 0x38) 4

/-- The header copy a reader takes: valid, with the higher SEQ (R526). -/
def State.recHdrBest (s : State) : Option Nat :=
  match s.recHdrValid 0, s.recHdrValid 1 with
  | false, false => none
  | true, false => some 0
  | false, true => some 1
  | true, true => some (if s.le (recHdr 1) 4 < s.le (recHdr 0) 4 then 0 else 1)

/-- Writes the header with a clear generation into the older copy (R526). -/
def State.recWriteHdr (s : State) (g : Nat) : State :=
  let best := s.recHdrBest
  let seq := match best with
    | none => 0
    | some k => s.le (recHdr k) 4 + 1
  let dst := match best with
    | none => 0
    | some k => 1 - k
  let body := leBytes 4 seq ++ leBytes 4 g ++ zeros 48
  s.setBytes (recHdr dst) (body ++ leBytes 4 (crc32c body).toNat ++ leBytes 4 validHdr)

/-! ## Channel table (R520) -/

/-- Address of a channel's table entry. -/
def State.recEntry (s : State) (c : Nat) : Nat := s.rd F.REC_CHAN_BASE_BASE * 4096 + 32 * c

/-- Channels of the table. -/
def State.recCount (s : State) : Nat := s.rd F.REC_CHAN_COUNT_COUNT

/-- Fields of a channel's entry. -/
def State.recEn (s : State) (c : Nat) : Bool := decide (c < s.recCount) && s.memFld (s.recEntry c) 0 1 == 1
def State.recVtype (s : State) (c : Nat) : Nat := s.memFld (s.recEntry c) 1 2
def State.recKind (s : State) (c : Nat) : Nat := s.memFld (s.recEntry c) 8 8
def State.recIndex (s : State) (c : Nat) : Nat := s.memFld (s.recEntry c + 4) 0 25
def State.recPeriod (s : State) (c : Nat) : Nat := s.memFld (s.recEntry c + 8) 0 16

/-- CRC-32C of a channel's table entry. -/
def State.recCfgCrc (s : State) (c : Nat) : Word := crc32c (s.bytes (s.recEntry c) 32)

/-- The working copy of a channel. -/
def State.recChan (s : State) (c : Nat) : RecChan := (Sparse.lookup s.recd.chans c).getD recZero

/-- Replaces a working copy and marks the channel changed or flushed. -/
def State.setRecChan (s : State) (c : Nat) (r : RecChan) (changed : Bool) : State :=
  { s with recd := { s.recd with
      chans := Sparse.insert s.recd.chans c r
      dirty := Sparse.set s.recd.dirty false c changed } }

/-! ## Flushing (R526) -/

/-- Flushes one channel: its SEQ advances and its record goes to the journal slot, then to its home slot. -/
def State.recFlushChan (s : State) (c : Nat) : State :=
  let r := s.recChan c
  let r := { r with seq := r.seq + 1 }
  let s := s.setRecChan c r false
  (s.setBytes recJournal (recBytes c r true)).setBytes (recHome c) (recBytes c r true)

/-- Flushes every enabled channel that has changed, in ascending order. [DEDUCED, unsafe: notes/assumptions/71.md] -/
def State.recFlush (s : State) : State :=
  let s := (s.recd.dirty.filter (fun p => p.2 && s.recEn p.1)).foldl (fun t p => t.recFlushChan p.1) s
  { s with recd := { s.recd with dropRaised := false, lastFlush := s.raw } }

/-! ## Samples (R521 to R524) -/

/-- a precedes b in a VTYPE (R522): 0 signed, 1 unsigned, 2 binary64. -/
def vLess (vt : Nat) (a b : DWord) : Bool :=
  match vt with
  | 0 => decide (a.toInt < b.toInt)
  | 1 => decide (a.toNat < b.toNat)
  | _ => (f64.decode a.toNat).lt (f64.decode b.toNat)

/-- A value as an exact number in units of 2^-1074, the finest of binary64. -/
def vExact (vt : Nat) (a : DWord) : Int :=
  match vt with
  | 0 => a.toInt * 2 ^ 1074
  | 1 => (a.toNat : Int) * 2 ^ 1074
  | _ => (f64.decode a.toNat).scaled 1074

/-- The value is a binary64 NaN. -/
def vNan (vt : Nat) (a : DWord) : Bool := vt == 2 && (f64.decode a.toNat).isNan

/-- The value is a number. -/
def vFinite (vt : Nat) (a : DWord) : Bool :=
  if vt = 2 then (match f64.decode a.toNat with
    | .fin .. => true
    | _ => false) else true

/-- The bin of a sample between limits (R522), with the state after a free value drawn where a limit is no number. [DESIGN CHOICE, safe: notes/assumptions/70.md] -/
def State.recBin (s : State) (vt : Nat) (lo hi v : DWord) : Nat × State :=
  if vNan vt v then (31, s)
  else if vLess vt v lo then (0, s)
  else if !vLess vt v hi && !vNan vt hi then (31, s)
  else if vFinite vt lo && vFinite vt hi then
    ((1 + 30 * (vExact vt v - vExact vt lo) / (vExact vt hi - vExact vt lo)).toNat, s)
  else
    let d := s.draw
    (1 + d.1.toNat % 30, d.2)

/-- Takes a sample of a channel: queued, or dropped where the queue is full (R524). Only an enabled recorder of a module
that is Active or alone samples, and not in the safe state (R528). -/
def State.recSample (s : State) (c : Nat) (v : DWord) : State :=
  if !(s.on F.REC_CFG_EN && s.operate && !s.safe && (!s.pairOn || s.rd F.PAIR_STAT_ROLE == 3)) then s
  else if 1024 ≤ s.recd.queue.length then
    let r := s.recChan c
    let s := (s.satAdd F.REC_DROP_DROPS 1).setRecChan c { r with drops := if r.drops = 0xFFFFFFFF then r.drops else r.drops + 1 } true
    if s.recd.dropRaised then s
    else ({ s with recd := { s.recd with dropRaised := true } }).raise 449 [w32 (s.rd F.REC_DROP_DROPS)]
  else
    let s := s.satAdd F.REC_SAMPLES_SAMPLES 1
    { s with recd := { s.recd with queue := s.recd.queue ++ [⟨c, v, BitVec.ofNat 64 s.ntNs⟩] } }

/-- Samples every enabled channel of an event kind and index (R521). -/
def State.recEvent (s : State) (kind index : Nat) (v : Nat) : State :=
  if !s.on F.REC_CFG_EN then s
  else (List.range s.recCount).foldl (fun t c =>
    if t.recEn c && t.recKind c == kind && t.recIndex c == index then t.recSample c (BitVec.ofNat 64 v) else t) s

/-- Applies a sample to its channel: bin, count and extremes (R522, R523). [DEDUCED, unsafe: notes/assumptions/71.md] -/
def State.recApply (s : State) (q : RecSample) : State :=
  let e := s.recEntry q.chan
  let vt := s.recVtype q.chan
  let b := s.recBin vt (s.dword (e + 0x10)) (s.dword (e + 0x18)) q.value
  let s := b.2
  let r := s.recChan q.chan
  let old := Sparse.get r.bins 0 b.1
  let first := r.n == 0
  let nan := vNan vt q.value
  let lower := !nan && (first || vLess vt q.value r.min)
  let upper := !nan && (first || vLess vt r.max q.value)
  s.setRecChan q.chan { r with
    n := r.n + 1
    bins := Sparse.set r.bins 0 b.1 (if old = 0xFFFFFFFF then old else old + 1)
    min := if lower then q.value else r.min
    minNt := if lower then q.nt else r.minNt
    max := if upper then q.value else r.max
    maxNt := if upper then q.nt else r.maxNt } true

/-! ## Clearing (R531) -/

/-- The next clear generation, saturating (R519). -/
def State.recNextGen (s : State) : Nat := min (s.rd F.REC_CLEAR_GEN_GEN + 1) 0xFFFFFFFF

/-- Clears and flushes one channel under a clear generation; its samples that still wait belong to the old record (Table 20-8). -/
def State.recClearChan (s : State) (g : Nat) (c : Nat) : State :=
  let s := { s with recd := { s.recd with queue := s.recd.queue.filter (fun q => q.chan != c) } }
  (s.setRecChan c { recZero with seq := (s.recChan c).seq, clearGen := w32 g, cfgCrc := s.recCfgCrc c, since := BitVec.ofNat 64 s.ntNs } true).recFlushChan c

/-- One clear over a list of channels (R531): channels, then the header, then REC_CLEAR_GEN. -/
def State.recClear (s : State) (cs : List Nat) : State :=
  let g := s.recNextGen
  let s := cs.foldl (fun t c => t.recClearChan g c) s
  (s.recWriteHdr g).wr F.REC_CLEAR_GEN_GEN g

/-! ## Reset release and SETUP_LOCK (R527, R529) -/

/-- The highest CLEAR_GEN in any valid home slot among the first n. -/
def State.recMaxGen (s : State) : Nat → Nat
  | 0 => 0
  | n + 1 => max (s.recMaxGen n) (if s.recValid (recHome n) then s.le (recHome n + 8) 4 else 0)

/-- SEQ of the highest valid note among the first n, plus one; 0 where none is valid. -/
def State.recNoteTop (s : State) : Nat → Nat
  | 0 => 0
  | n + 1 =>
    let a := recNote n
    max (s.recNoteTop n)
      (if s.le (a + 0x3C) 4 = validNote ∧ (crc32c (s.bytes a 0x38)).toNat = s.le (a + 0x38) 4 then s.le a 4 + 1 else 0)

/-- REC_RESTORE: the journal repairs its home slot, the clear generation is adopted and every valid home slot is loaded. -/
def State.recRestore (s : State) : State :=
  let jc := s.memFld (recJournal + 4) 0 12
  let s := if s.recValid recJournal && (!s.recValid (recHome jc) || decide (s.le (recHome jc) 4 < s.le recJournal 4)) then
      s.setBytes (recHome jc) (s.bytes recJournal 256) else s
  let top := max (s.recMaxGen 4096) (if s.recValid recJournal then s.le (recJournal + 8) 4 else 0)
  let hdr := s.recHdrBest
  let g := match hdr with
    | none => top
    | some k => max top (s.le (recHdr k + 4) 4)
  let s := match hdr with
    | none => (s.wr F.REC_STAT_HDR_LOST 1).raise 450 [w32 g]
    | some _ => s
  let s := (s.recWriteHdr g).wr F.REC_CLEAR_GEN_GEN g
  let n := s.recNoteTop 128
  let s := s.wr F.REC_NOTE_STAT_NEXT ((n - 1) % 128)
  { s with recd := { s.recd with
      noteSeq := w32 n
      chans := ((List.range 4096).filter (fun c => s.recValid (recHome c))).map (fun c => (c, s.recLoad (recHome c))) } }

/-- Enabled channels whose record is missing or was made under another configuration. -/
def State.recStale (s : State) : List Nat :=
  (List.range s.recCount).filter (fun c => s.recEn c && ((Sparse.lookup s.recd.chans c).isNone || (s.recChan c).cfgCrc != s.recCfgCrc c))

/-- REC_CHAN_RESET at SETUP_LOCK: changed and new channels are cleared as one clear. -/
def State.recLock (s : State) : State :=
  if !s.on F.REC_CFG_EN then s
  else
    let cs := s.recStale
    if cs = [] then s else (s.recClear cs).raise 451 [w32 cs.length]

/-! ## Notes (R529) -/

/-- The console sends a line (R554); its wording is the firmware's own. [DEDUCED, unsafe: notes/assumptions/78.md] -/
def State.consoleLine (s : State) (l : ConsoleLine) : State := { s with mp := { s.mp with console := s.mp.console ++ [l] } }

/-- Writes a note of a kind with its words, and a line to the console. -/
def State.recNoteWrite (s : State) (kind : Nat) (ws : List Word) : State :=
  let q := s.recd.noteSeq
  let i := q.toNat % 128
  let data := (wordBytes (ws.take 10) ++ zeros 40).take 40
  let body := leBytes 4 q.toNat ++ leBytes 4 (kind % 256 + 256 * (min ws.length 10)) ++ leBytes 8 s.ntNs ++ data
  let s := s.setBytes (recNote i) (body ++ zeros (0x38 - body.length) ++
    leBytes 4 (crc32c (body ++ zeros (0x38 - body.length))).toNat ++ leBytes 4 validNote)
  (({ s with recd := { s.recd with noteSeq := q + 1 } }).wr F.REC_NOTE_STAT_NEXT i).consoleLine (.note kind q)

end Machine
end Sys2Proof
end

