-- ==== Sys2Proof/Machine/MpOps.lean ====
section
/-!
DEFINITION. Calibration records and MP notes (chapter 21, R543 to R545 and R557).
-/

namespace Sys2Proof
namespace Machine

/-- RTC counts since a value of the RTC. [DEDUCED, unsafe: notes/assumptions/73.md] -/
def State.rtcSince (s : State) (r : Nat) : Nat := (s.pwr.rtc.toNat + 2 ^ 48 - r % 2 ^ 48) % 2 ^ 48

/-- The MP starts tests: no PAUSE, shed level below 3. -/
def State.mayTest (s : State) : Bool := !s.on F.IST_CTL_PAUSE && decide (s.rd F.MPX_STAT_SHED < 3)

/-- VALID of a calibration record (Table 21-2). -/
def validCal : Nat := 0x43414C42

/-- Address of a calibration slot (R543). -/
def calSlot (n : Nat) : Nat := 0x60300000 + 256 * n

/-- Slots that hold an item: 0 DRAM, 1 to 64 AI channels, 65 to 72 DIO groups (Table 21-3). -/
def calSlots : Nat := 73

/-- The island of an island item's slot (Table 21-3). -/
def calIsland (n : Nat) : Nat := if n ≤ 64 then 24 + (n - 1) / 2 else 16 + (n - 65)

/-- A slot's record is valid. -/
def State.calValid (s : State) (n : Nat) : Bool :=
  s.le (calSlot n + 0xFC) 4 == validCal && (crc32c (s.bytes (calSlot n) 0xF8)).toNat == s.le (calSlot n + 0xF8) 4

/-- A slot's record is aged. -/
def State.calAged (s : State) (n : Nat) : Bool := s.memFld (calSlot n) 16 1 == 1

/-- TEMP of a slot's record, °C + 64. -/
def State.calTemp (s : State) (n : Nat) : Nat := s.memFld (calSlot n + 4) 0 8

/-- Closes a record: CRC, then VALID. -/
def State.calClose (s : State) (n : Nat) : State :=
  (s.setLe (calSlot n + 0xF8) 4 (crc32c (s.bytes (calSlot n) 0xF8)).toNat).setLe (calSlot n + 0xFC) 4 validCal

/-- n words of free values. [DESIGN CHOICE, safe: notes/assumptions/6.md] -/
def State.freeWords (s : State) : Nat → List Word × State
  | 0 => ([], s)
  | n + 1 =>
    let d := s.draw
    let r := d.2.freeWords n
    (d.1.setWidth 32 :: r.1, r.2)

/-- KIND and INDEX of a slot (Tables 21-2 and 21-3). -/
def calKind (n : Nat) : Nat := if n = 0 then 1 else if n ≤ 64 then 2 else 3
def calIndex (n : Nat) : Nat := if n = 0 then 0 else if n ≤ 64 then n - 1 else n - 65

/-- Writes a new record of a slot, captured at a temperature; its 228 bytes of DATA are the module's own (Table 21-2). -/
def State.calWrite (s : State) (n : Nat) (temp : Nat) : State :=
  let seq := if s.calValid n then s.le (calSlot n + 0x10) 4 + 1 else 0
  let d := s.freeWords 57
  let s := d.2.setWords (calSlot n)
    ([w32 (calKind n + 256 * calIndex n), w32 (temp % 256 + 256 * b2n (decide (n ≠ 0))),
      w32 s.pwr.rtc.toNat, w32 (s.pwr.rtc.toNat / 2 ^ 32), w32 seq] ++ d.1)
  s.calClose n

/-- Records aged now. -/
def State.calAgedCount (s : State) : Nat :=
  ((List.range calSlots).filter (fun n => s.calValid n && s.calAged n)).length

/-- Two temperatures differ by more than 25 °C (R544). -/
def tempsApart (a b : Nat) : Bool := decide (a + 25 < b) || decide (b + 25 < a)

/-- Judges one slot against the present temperature of its source: a record that becomes aged gets AGED, an event and a
note, and its recalibration is scheduled where CAL_EN = 1 (R544, R545). -/
def State.calJudge (s : State) (n : Nat) (now : Nat) : State :=
  if s.calValid n && !s.calAged n && tempsApart (s.calTemp n) now then
    let t := s.calTemp n
    let s := (s.setMemFld (calSlot n) 16 1 1).calClose n
    let s := s.raise 462 [w32 (n + 65536 * t + 2 ^ 24 * now)]
    let s := s.recNoteWrite 0x05 [w32 n, w32 t, w32 now]
    if !s.on F.IST_CFG_CAL_EN then s
    else if n = 0 then { s with mp := { s.mp with retrain := some (100, 0) } }
    else { s with mp := { s.mp with calPending := s.mp.calPending.filter (fun p => p.1 != n) ++ [(n, none)] } }
  else s

/-- Shows the number of aged records in IST_CAL. -/
def State.calShow (s : State) : State := s.wr F.IST_CAL_AGED s.calAgedCount

/-- A recalibration writes its record (R545): IST_CAL.RECAL and CAL_DONE. -/
def State.calDone (s : State) (n : Nat) (temp : Nat) : State :=
  let s := ((s.calWrite n temp).satAdd F.IST_CAL_RECAL 1).raise 463 [w32 (n + 65536 * temp)]
  s.calShow

/-- The DRAM record at boot and at Kindle from E3: judged, used when it is valid and not aged; otherwise full training runs
and a new record is written (R544, R545). [DEDUCED, unsafe: notes/assumptions/36.md] -/
def State.calDram (s : State) : State :=
  let now := s.rd F.PWR_STAT_DIE_TEMP
  let s := s.calJudge 0 now
  if s.calValid 0 && !s.calAged 0 then s.calShow
  else ({ (s.calWrite 0 now) with mp := { s.mp with retrain := none } }).calShow

end Machine
end Sys2Proof
end

