-- ==== Sys2Proof/Machine/FieldCore.lean ====
section
/-!
DEFINITION. Field islands: access to their state, the input records they send, and what they do in and out of the safe
state (chapters 16 to 18).
-/

namespace Sys2Proof
namespace Machine

/-! ## Access -/

/-- An island at power-up: unconfigured and in its safe state (R415). -/
def islandZero : Island :=
  { upOk := 0, upLost := 0, cfgSent := 0, go := false, outEnd := none, held := zeros 24, heldRaw := 0, heldNt := 0,
    heldSafe := false, out := zeros 32, fresh := false, rearmed := 0, rearmMask := 0, rearmGroup := false, sinceTest := 16,
    testStep := 0, testLeft := 0, testRtc := none, down := none, up := none, conf := false, ready := false, safe := true, ack := false, downOk := 0, lastDown := 0, volt := 0,
    sampleAt := none, cur := 0, temp := 0, lowAt := none, fullAt := none, highAt := none, tripAt := none, low := false, high := false, grpOc := false, grpTrip := false }

/-- An input stage at power-up. -/
def inZero : InCh := ⟨false, false, 0, 0, 0⟩

/-- A high-side channel at power-up: off. -/
def dioZero : Dio :=
  { set := 0, setAt := 0, duty := 0, perAt := 0, perDuty := 0, perNext := 0, short := false, open_ := false, thermal := false,
    latched := false, ext := false, shut := false, shuts := 0, onSum := 0, onFrom := 0, offFrom := 0, retryAt := 0, onLow := 0, onHigh := 0,
    offOpen := 0, offShut := 0, coverAt := none }

/-- A current-loop channel at power-up: it measures nothing. -/
def aiZero : Ai :=
  { value := 0, seq := 0, valid := false, settling := true, ovr := false, mismatch := false, openLoop := false,
    compliance := false, supLimit := false, aligned := false, park := false, cd := false, supOff := false, cut := false,
    base := 0, count := 0, resetAt := 0, doneRaw := 0, doneNt := 0, isup := 0, head := 0, apart := 0, near := 0 }

/-- A test-pulse supply at power-up. -/
def tpsZero : Tps := ⟨false, false, false⟩

/-- An island. -/
def State.isl (s : State) (i : Nat) : Island := Sparse.get s.fld.islands islandZero i

/-- Replaces an island. -/
def State.setIsl (s : State) (i : Nat) (x : Island) : State :=
  { s with fld := { s.fld with islands := Sparse.set s.fld.islands islandZero i x } }

/-- Input stage j of island i (0 to 23). -/
def State.inCh (s : State) (i j : Nat) : InCh := Sparse.get s.fld.ins inZero (16 * i + j)

/-- Replaces an input stage. -/
def State.setIn (s : State) (i j : Nat) (x : InCh) : State :=
  { s with fld := { s.fld with ins := Sparse.set s.fld.ins inZero (16 * i + j) x } }

/-- High-side channel j of group g. -/
def State.dio (s : State) (g j : Nat) : Dio := Sparse.get s.fld.dios dioZero (16 * g + j)

/-- Replaces a high-side channel. -/
def State.setDio (s : State) (g j : Nat) (x : Dio) : State :=
  { s with fld := { s.fld with dios := Sparse.set s.fld.dios dioZero (16 * g + j) x } }

/-- Current-loop channel c. -/
def State.ai (s : State) (c : Nat) : Ai := Sparse.get s.fld.ais aiZero c

/-- Replaces a current-loop channel. -/
def State.setAi (s : State) (c : Nat) (x : Ai) : State :=
  { s with fld := { s.fld with ais := Sparse.set s.fld.ais aiZero c x } }

/-- Test-pulse supply t. -/
def State.tps (s : State) (t : Nat) : Tps := Sparse.get s.fld.tps tpsZero t

/-- Replaces a test-pulse supply. -/
def State.setTps (s : State) (t : Nat) (x : Tps) : State :=
  { s with fld := { s.fld with tps := Sparse.set s.fld.tps tpsZero t x } }

/-- Link states (Table 16-4). -/
def lnOff : Nat := 0
def lnHeld : Nat := 1
def lnLoading : Nat := 2
def lnRunning : Nat := 3
def lnFault : Nat := 4

/-- The link state of an island. -/
def State.link (s : State) (i : Nat) : Nat := s.rd (F.FLD_LNK_STATE i)

/-- The bit of FLD_LINKFLT of an island. -/
def fltBit (i : Nat) : Fld := if i < 32 then ⟨Reg.FLD_LINKFLT_LO, i, 1⟩ else ⟨Reg.FLD_LINKFLT_HI, i - 32, 1⟩

/-- Moves a link; its bit of FLD_LINKFLT shows Fault. -/
def State.setLink (s : State) (i st : Nat) : State :=
  (s.wr (F.FLD_LNK_STATE i) st).wr (fltBit i) (b2n (st == lnFault))

/-- An island is enabled (R408). -/
def State.islEn (s : State) (i : Nat) : Bool := decide (i < 58) && s.on (F.FLD_ISL_EN i)

/-- Island types (Table 16-1). -/
def isDi (i : Nat) : Bool := decide (i < 16)
def isDio (i : Nat) : Bool := decide (16 ≤ i) && decide (i < 24)
def isAi (i : Nat) : Bool := decide (24 ≤ i) && decide (i < 56)
def isSafety (i : Nat) : Bool := decide (56 ≤ i) && decide (i < 58)

/-- All islands, in order. -/
def allIslands : List Nat := List.range 58

/-- A detection with hysteresis: it sets below one level, clears at or above another, and stays between them. -/
def belowTo (was : Bool) (set clear v : Nat) : Bool := if v < set then true else if clear ≤ v then false else was

/-- A supply-low flag once a supply has stayed at a level for 1 ms: it sets below 18.0 V and clears at 18.5 V or above. -/
def supplyLow (was : Bool) (mV : Nat) : Bool := belowTo was 18000 18500 mV

/-- The sixteen channels of an island. -/
def sixteen : List Nat := List.range 16

/-- A bit mask over sixteen channels. -/
def mask16 (p : Nat → Bool) : Nat := (sixteen.map (fun j => b2n (p j) * 2 ^ j)).sum

/-- Counts of a barrier frame from its start to its end: 7.68 µs, and to the end of its SYNC byte: 0.32 µs. -/
def frameLen : Nat := 3840
def syncLen : Nat := 160

/-! ## Input records (Tables 16-8, 16-12, 17-3 and 18-1) -/

/-- The word at offset 0x04 of a DI island's record (R419). -/
def State.diSupply (s : State) (i : Nat) : Nat :=
  let x := s.isl i
  if s.on (F.FLD_DI_VS_MON i) then
    1 + 2 * b2n (!x.low && !x.high) + 4 * b2n x.low + 8 * b2n x.high + 256 * (x.volt.toNat / 200 % 256)
  else 0

/-- The record of a DI island. -/
def State.diRecord (s : State) (i : Nat) : List Byte :=
  leBytes 4 (mask16 (fun j => (s.inCh i j).state) + 65536 * mask16 (fun j => (s.inCh i j).sample)) ++
    leBytes 4 (s.diSupply i) ++ sixteen.map (fun j => (s.inCh i j).rise)

/-- FUNC of a channel. -/
def State.dioFunc (s : State) (g j : Nat) : Nat := s.rd (F.FLD_DIO_FUNC g j)

/-- LEVEL of a channel (R422). -/
def State.dioLevel (s : State) (g j : Nat) : Bool :=
  let x := s.inCh (16 + g) j
  if s.dioFunc g j = 2 then x.state else x.sample

/-- DIAG_COVER of a channel: an on-state measurement has completed within the last 100 ms (R426). -/
def State.dioCover (s : State) (g j : Nat) : Bool :=
  match (s.dio g j).coverAt with
  | some t => decide (s.raw ≤ t + 100 * rawPerMs)
  | none => false

/-- The record of a DIO island; `busy` is its FUNC_BUSY mask (R427). -/
def State.dioRecord (s : State) (g busy : Nat) : List Byte :=
  let x := s.isl (16 + g)
  let m (p : Dio → Bool) : Nat := mask16 (fun j => p (s.dio g j))
  leBytes 4 (mask16 (s.dioLevel g) + 65536 * mask16 (s.dioCover g)) ++
    leBytes 4 (m Dio.open_ + 65536 * m Dio.short) ++
    leBytes 4 (m Dio.thermal + 65536 * m Dio.latched) ++
    leBytes 4 (m Dio.ext + 65536 * busy) ++
    leBytes 4 (x.volt.toNat / 10 + 65536 * x.cur.toNat) ++
    leBytes 4 (b2n x.low + 2 * b2n x.grpOc + 4 * b2n x.grpTrip + 256 * x.temp.toNat)

/-- A privileged channel (AIL48 to AIL63). -/
def aiPrivileged (c : Nat) : Bool := decide (48 ≤ c)

/-- The loop supply of a channel is off (R438); pair hold opens it (R489). -/
def State.aiSupOff (s : State) (c : Nat) : Bool :=
  let a := s.ai c
  !s.acts || s.rd (F.FLD_AIL_MODE c) != 1 || a.supOff || a.cut || !(s.isl (24 + c / 2)).conf

/-- The conditions of R442 for the privileged detections hold. -/
def State.aiWatched (s : State) (c : Nat) : Bool := aiPrivileged c && !s.aiSupOff c

/-- The calibration record of a channel is marked aged (R440, R543). -/
def State.aiAged (s : State) (c : Nat) : Bool := s.calValid (1 + c) && s.calAged (1 + c)

/-- STATUS of a channel (Table 17-2). -/
def State.aiStatus (s : State) (c : Nat) : Nat :=
  let a := s.ai c
  let x := s.isl (24 + c / 2)
  let mode := s.rd (F.FLD_AIL_MODE c)
  b2n (a.valid && mode != 0 && x.conf) + 2 * b2n a.settling + 4 * b2n a.ovr + 8 * b2n a.mismatch +
    16 * b2n (a.openLoop && s.aiWatched c && s.on (F.FLD_AIL_OPEN_EN c)) +
    32 * b2n (a.compliance && s.aiWatched c && s.on (F.FLD_AIL_COMP_EN c)) +
    64 * b2n (a.supLimit && !s.aiSupOff c) + 128 * b2n (s.aiSupOff c) + 256 * b2n a.aligned + 512 * b2n (s.aiAged c) +
    1024 * s.rd (F.FLD_AIL_MULTIDROP c) + 2048 * b2n (a.park && s.on (F.FLD_AIL_MULTIDROP c)) + 4096 * b2n a.cd + 8192 * b2n x.low + 16384 * mode

/-- The record of an AI island sampled at a value of TB_RAW (R444). -/
def State.aiRecord (s : State) (i raw : Nat) : List Byte :=
  let c := 2 * (i - 24)
  let a := s.ai c
  let b := s.ai (c + 1)
  let lag (x : Ai) : Nat := min ((raw - x.doneRaw) / 5) 65535
  let head (k : Nat) : Nat := if s.aiWatched (c + k) then (s.ai (c + k)).head.toNat else 0
  leBytes 4 (a.value.toNat + 2 ^ 24 * a.seq.toNat) ++ leBytes 4 (b.value.toNat + 2 ^ 24 * b.seq.toNat) ++
    leBytes 4 (s.aiStatus c + 65536 * s.aiStatus (c + 1)) ++ leBytes 4 (lag a + 65536 * lag b) ++
    leBytes 4 (a.isup.toNat + 65536 * b.isup.toNat) ++ leBytes 4 (head 0 + 256 * head 1 + 65536 * (s.isl i).temp.toNat)

/-- The record of a safety island (R469). -/
def State.safRecord (s : State) (i : Nat) : List Byte :=
  let x := s.isl i
  let m (p : Tps → Bool) : Nat := ((List.range 8).map (fun j => b2n (p (s.tps (8 * (i - 56) + j))) * 2 ^ j)).sum
  let on := m (fun t => !x.safe && !t.pulsing && decide (18000 < x.volt.toNat))
  leBytes 4 (on + 256 * m Tps.pulsing + 65536 * m Tps.stuck + 2 ^ 24 * m Tps.ovl) ++
    leBytes 4 (x.volt.toNat / 200 % 256 + 256 * b2n x.low + 65536 * x.temp.toNat) ++
    leBytes 4 (s.raw / 500000 % 65536) ++ zeros 12

/-- The record an island takes at a sampling instant. -/
def State.islRecord (s : State) (i busy raw : Nat) : List Byte :=
  if isDi i then s.diRecord i
  else if isDio i then s.dioRecord (i - 16) busy
  else if isAi i then s.aiRecord i raw
  else s.safRecord i

/-! ## Barrier frames (Table 16-2) -/

/-- SYNC of a downlink and of an uplink frame. -/
def syncDown : Nat := 0xD5
def syncUp : Nat := 0x2B

/-- The 24 bytes of a barrier frame on the line: SYNC, TYPE with SEQ and RX_OK, PAYLOAD, CRC. [DEDUCED, unsafe: notes/assumptions/90.md] -/
def barrierFrame (sync ty seq : Nat) (rxOk : Bool) (payload : List Byte) : List Byte :=
  let body := BitVec.ofNat 8 (64 * ty + 4 * seq + 2 * b2n rxOk) :: payload
  BitVec.ofNat 8 sync :: body ++ beBytes 2 (crc16 body).toNat

/-- What has arrived is a frame with the right SYNC. -/
def frameSynced (sync : Nat) (f : List Byte) : Bool := f.length == 24 && f.headD 0 == BitVec.ofNat 8 sync

/-- The CRC of a frame checks, over bytes 0x01 to 0x15. -/
def frameChecks (f : List Byte) : Bool := beNat (f.drop 22) == (crc16 ((f.drop 1).take 21)).toNat

/-- What has arrived within its slot is a valid frame (R410). -/
def frameValid (sync : Nat) (f : List Byte) : Bool := frameSynced sync f && frameChecks f

/-- n bytes of content in an encoding internal to the module. -/
def internalBytes (what : List Nat) (n : Nat) : List Byte := (List.range n).map (Config.barrierByte what)

/-- Sixteen SET fields of 10 bits, channel 0 first, most significant bit first (R412). -/
def packSets (sets : List Nat) : List Byte := beBytes 20 (sixteen.foldl (fun n j => 1024 * n + sets.getD j 0 % 1024) 0)

/-- The configuration of an island, which CONFIG frames carry. -/
def State.islConfig (s : State) (i : Nat) : List Nat :=
  if isDi i then [s.rd (F.FLD_DI_TYPE i), s.rd (F.FLD_DI_VS_MON i), s.rd (F.FLD_DI_DEBOUNCE i)]
  else if isDio i then
    sixteen.flatMap (fun j => [(s.reg (Reg.FLD_DIO (i - 16) j)).toNat, (s.reg (Reg.FLD_DIO1 (i - 16) j)).toNat])
  else if isAi i then
    (List.range 2).flatMap (fun k => [(s.reg (Reg.FLD_AIL (2 * (i - 24) + k))).toNat, (s.reg (Reg.FLD_AIL1 (2 * (i - 24) + k))).toNat])
  else []

/-- PAYLOAD of a downlink frame (R409, R412, R445, R540). -/
def State.downPayload (s : State) (i : Nat) (align : Bool) : DownKind → List Byte
  | .output sets =>
    if isDio i then packSets sets else if isDi i then zeros 20 else internalBytes (0 :: b2n align :: sets) 20
  | .load => internalBytes (1 :: s.islConfig i) 20
  | .change ch w0 w1 => internalBytes [2, b2n align, ch, w0.toNat, w1.toNat] 20
  | .rearm mask group => internalBytes [3, mask, b2n group] 20
  | .safe => internalBytes [4, b2n align] 20
  | .test step => internalBytes [5, b2n align, step] 20

/-- TYPE of a downlink frame. -/
def DownKind.ty : DownKind → Nat
  | .output _ => 0
  | .load => 1
  | .change .. => 1
  | .rearm .. => 1
  | .safe => 2
  | .test _ => 3

/-- A downlink frame on the line. -/
def DownFrame.bytes (f : DownFrame) : List Byte := barrierFrame syncDown f.kind.ty f.seq false f.data

/-- An uplink frame on the line. -/
def UpFrame.bytes (f : UpFrame) : List Byte := barrierFrame syncUp f.ty f.seq f.rxOk f.data

/-- PAYLOAD of an uplink frame that carries an input record (R412, R445, R469, R540). -/
def upPayload (i : Nat) (rec : List Byte) (seq ty : Nat) : List Byte :=
  if isAi i then
    rec.take 16 ++
      (if ty = 3 then internalBytes [6, i, seq] 4
      else if seq % 4 = 0 then (rec.drop 16).take 4
      else if seq % 4 = 2 then (rec.drop 20).take 4
      else internalBytes [7, i, seq] 4)
  else
    (if isSafety i then rec.take 12 ++ zeros 2
    else rec.take 4 ++ (rec.drop (if seq % 2 = 0 then 4 else 14)).take 10) ++
      (if ty = 3 then internalBytes [6, i, seq] 6 else zeros 6)

/-- Bytes of a record replaced from an offset. -/
def graft (old : List Byte) (o : Nat) (new : List Byte) : List Byte := old.take o ++ new ++ old.drop (o + new.length)

/-- The held record after an uplink frame with a PAYLOAD, a SEQ and a TYPE (R412, R445, R469, R540). -/
def heldAfter (i : Nat) (old payload : List Byte) (seq ty : Nat) : List Byte :=
  if isAi i then
    let h := graft old 0 (payload.take 16)
    let w := (payload.drop 16).take 4
    if ty = 3 then h else if seq % 4 = 0 then graft h 16 w else if seq % 4 = 2 then graft h 20 w else h
  else if isSafety i then graft old 0 (payload.take 12)
  else graft (graft old 0 (payload.take 4)) (if seq % 2 = 0 then 4 else 14) ((payload.drop 4).take 10)

/-- The 32-byte input record of an island at a copy or read (R413). -/
def State.islandIn (s : State) (i : Nat) : List Byte :=
  let x := s.isl i
  let age := min ((s.raw - x.heldRaw) / rawPerUs) 0xFFFF
  x.held ++ leBytes 4 (b2n (s.link i == lnRunning) + 2 * b2n x.heldSafe + 65536 * age) ++ leBytes 4 x.heldNt.toNat

/-- The Field Engine accepts an output record for an island (R412): the next frame carries the latest one. -/
def State.islandOut (s : State) (i : Nat) (rec : List Byte) : State :=
  s.setIsl i { s.isl i with out := rec, fresh := true }

/-! ## Safe state (R415, Table 16-5) -/

/-- A PWM period in counts (R428). [DESIGN CHOICE, unsafe: notes/assumptions/62.md] -/
def State.pwmPeriod (s : State) (g j : Nat) : Nat := 500000000 / max 1 (s.rd (F.FLD_DIO_FREQ g j))

/-- A channel's outputs may be on: not latched, not shut down, its group not tripped, its island out of the safe state. -/
def State.dioMay (s : State) (g j : Nat) : Bool :=
  let d := s.dio g j
  let x := s.isl (16 + g)
  !d.latched && !d.shut && !x.grpTrip && !x.safe && x.conf && s.dioFunc g j != 2

/-- TB_RAW at which the on-time of the present PWM period ends. -/
def State.perOff (s : State) (g j : Nat) : Nat := (s.dio g j).perAt + (s.dio g j).perDuty * s.pwmPeriod g j / 1000

/-- A channel is on: SET in STATIC, its duty in PWM. -/
def State.dioOn (s : State) (g j : Nat) : Bool :=
  let d := s.dio g j
  s.dioMay g j && (if s.dioFunc g j = 1 then decide (0 < d.perDuty) && decide (s.raw < s.perOff g j) else d.set != 0)

/-- TB_RAW since which a channel is off; now where it is on. -/
def State.dioOffAt (s : State) (g j : Nat) : Nat :=
  if s.dioOn g j then s.raw
  else if s.dioFunc g j = 1 ∧ 0 < (s.dio g j).perDuty then s.perOff g j
  else (s.dio g j).offFrom

/-- The on-time of a channel since its last shutdown (R424). -/
def State.onTime (s : State) (g j : Nat) : Nat :=
  let d := s.dio g j
  d.onSum +
    (if s.dioFunc g j = 1 then (if d.perDuty = 0 then 0 else min s.raw (s.perOff g j) - d.perAt)
    else if s.dioOn g j then s.raw - d.onFrom else 0)

/-- SET of a channel changes. -/
def Dio.put (d : Dio) (v raw : Nat) : Dio := { d with set := v, setAt := if v = d.set then d.setAt else raw }

/-- A high-side channel goes off with P = 0; it keeps its latched faults. -/
def State.dioStop (s : State) (g j : Nat) : State :=
  s.setDio g j { (s.dio g j).put 0 s.raw with duty := 0, perDuty := 0, offFrom := s.dioOffAt g j, onSum := s.onTime g j }

/-- The outputs of a group go off. -/
def State.groupOff (s : State) (g : Nat) : State := sixteen.foldl (fun t j => t.dioStop g j) s

/-- A channel of an AI island takes its safe state: its supply stays on, its settings are kept (R447). -/
def Ai.safeNow (a : Ai) : Ai := { a with supOff := false, cut := false }

/-- An island takes its safe state, which it leaves only after a new configuration (R415). -/
def State.islandSafe (s : State) (i : Nat) : State :=
  let s := if isDio i then s.groupOff (i - 16) else s
  let s := s.setIsl i { s.isl i with safe := true, ready := false }
  if isDio i then s
  else if isAi i then
    let c := 2 * (i - 24)
    (s.setAi c (s.ai c).safeNow).setAi (c + 1) (s.ai (c + 1)).safeNow
  else if isSafety i then
    (List.range 8).foldl (fun t j => t.setTps (8 * (i - 56) + j) { t.tps (8 * (i - 56) + j) with pulsing := false }) s
  else s

/-- A link stops after its SAFE frames: it is Off, nothing is under way, and its island is in its safe state (Table 16-4). -/
def State.linkStop (s : State) (i : Nat) : State :=
  if s.link i = lnOff then s
  else
    let x := s.isl i
    let s := s.setIsl i { x with
      upOk := 0, upLost := 0, go := false, outEnd := none, fresh := false, rearmMask := 0, rearmGroup := false, down := none,
      up := none, ack := false, downOk := 0 }
    (s.islandSafe i).setLink i lnOff

/-- Every link stops. [DEDUCED, safe: notes/assumptions/61.md] -/
def State.fieldStop (s : State) : State :=
  let t := allIslands.foldl State.linkStop s
  { t with fld := { t.fld with offp := none, align := none, alignAt := none } }

/-- Every link moves from Off to Held, at reset release and at Kindle. -/
def State.linksHeld (s : State) : State :=
  allIslands.foldl (fun t i => if t.link i = lnOff then t.setLink i lnHeld else t) s

/-- The links of enabled islands may leave Held, after SETUP_LOCK and at Kindle. -/
def State.linksGo (s : State) : State :=
  allIslands.foldl (fun t i => if t.islEn i then t.setIsl i { t.isl i with go := true } else t) s

end Machine
end Sys2Proof
end

