-- ==== Sys2Proof/Machine/RackOps.lean ====
section
/-!
DEFINITION. The rack bridge: windows, queued accesses, the cycles of the bus, block commands and the RB_RST_N line (R365 to
R382).
-/

namespace Sys2Proof
namespace Machine

/-! ## Windows and queues (R366, R369, R370) -/

/-- A window is usable by a partition (R366). -/
def State.rackUsable (s : State) (w : Nat) (p : PartId) : Bool :=
  s.on (F.RB_WIN_EN w) && (!s.on (F.RB_WIN_PART_EN w) || s.rd (F.RB_WIN_PART w) == p.toNat)

/-- A window is posted. -/
def State.rackPosted (s : State) (w : Nat) : Bool := s.on (F.RB_WIN_POSTED w)

/-- The lane accesses of a window. -/
def State.rackQueue (s : State) (w : Nat) : List RackAcc := Sparse.get s.rack.queues [] w

/-- Replaces the lane accesses of a window. -/
def State.setRackQueue (s : State) (w : Nat) (q : List RackAcc) : State :=
  { s with rack := { s.rack with queues := Sparse.set s.rack.queues [] w q } }

/-- Replaces the cycle on the bus and shows RB_STAT.BUSY. -/
def State.setCycle (s : State) (c : Option RackCycle) : State :=
  ({ s with rack := { s.rack with cycle := c } }).wr F.RB_STAT_BUSY (b2n c.isSome)

/-- A lane access enters its window's queue. -/
def State.rackIssue (s : State) (h : HartId) (w off size : Nat) (write : Bool) (data : Nat) : State :=
  s.setRackQueue w (s.rackQueue w ++ [⟨some h, off, size, write, if write then data else 0, 0, false⟩])

/-- The bridge accepts a posted record of a window: no earlier lane write of it is unfinished (R370). -/
def State.rackAccepts (s : State) (w : Nat) : Bool := !(s.rackQueue w).any (fun a => a.write)

/-- A posted write enters its window's queue. -/
def State.rackPost (s : State) (w off size data : Nat) : State :=
  s.setRackQueue w (s.rackQueue w ++ [⟨none, off, size, true, data, 0, false⟩])

/-- A non-posted access is in the queue of its window: issued and not ended (R374). -/
def State.rackNpBusy (s : State) : Bool :=
  (List.range 16).any (fun w => !s.rackPosted w && (s.rackQueue w).any (fun a => a.hart.isSome))

/-- A rollback takes away the results of loads of posted windows: those not started leave the queue (R373). -/
def State.rackDrop (s : State) : State :=
  let busy (w : Nat) : Bool := match s.rack.cycle with
    | some c => c.win == w && c.block.isNone
    | none => false
  let gone (w : Nat) : List RackAcc → List RackAcc
    | [] => []
    | a :: t =>
      let rest := t.filter (fun x => x.hart.isNone)
      if a.hart.isNone then a :: rest else if a.done ≠ 0 || busy w then { a with dropped := true } :: rest else rest
  (List.range 16).foldl (fun t w => if t.rackPosted w then t.setRackQueue w (gone w (t.rackQueue w)) else t) s

/-! ## Block commands (R376, R377) -/

/-- Window, first offset, FIXED, buffer and COUNT of a block command. -/
def rbWin (c : Cmd) : Nat := c.fld 8 0 4
def rbOff (c : Cmd) : Nat := c.fld 0xC 0 24
def rbFixed (c : Cmd) : Bool := c.fld 0xC 24 1 == 1
def rbCount (c : Cmd) : Nat := c.fld 0x18 0 17

/-- Checks of a block command when it is taken. -/
def State.rbFails (s : State) (c : Cmd) : Option Final :=
  let w := rbWin c
  let n := rbCount c
  let a := c.addr 0x10
  if !(c.headerOk && c.fld 8 4 28 == 0 && c.fld 0xC 25 7 == 0 && c.fld 0x14 8 24 == 0 && c.fld 0x18 17 15 == 0 && c.zeroFrom 0x1C) ||
      rbOff c % 2 != 0 || a % 2 != 0 || n == 0 || decide (65536 < n) || !s.on (F.RB_WIN_EN w) ||
      (!rbFixed c && decide (2 ^ 24 < rbOff c + 2 * n)) ||
      !(if c.opcode = 0x10 then s.engineMayWrite a (2 * n) else State.engineMayRead a (2 * n)) then some finBad
  else if s.on (F.RB_WIN_PART_EN w) && !(s.ctx c.ring).mp && s.rd (F.RB_WIN_PART w) != (s.cmdPart c).toNat then some finNotOwner
  else none

/-- Offset of the next cycle of a block command. -/
def rbNext (c : Cmd) : Nat := if rbFixed c then rbOff c else rbOff c + 2 * c.prog

/-- The block command at the head of a window's queue. -/
def State.rackBlock (s : State) (w : Nat) : Option Cmd := (s.outOf 0x12).find? (fun c => rbWin c == w)

/-- Ends a block command with a status, its DONE and the offset of the failing cycle. -/
def State.rbFinish (s : State) (c : Cmd) (st err : Nat) : State := s.endLong c ⟨st, 0, [w32 c.prog, w32 err]⟩

/-! ## Cycles (R365, R367 to R369) -/

/-- The bridge may start a cycle: Operate, not in the safe state nor on the way to E2 or E3, RB_RST_N released for RST_WAIT,
and the module acts on the vehicle. -/
def State.rackRuns (s : State) : Bool := s.running && s.rack.ready && s.acts

/-- A window has a cycle ready. -/
def State.rackHas (s : State) (w : Nat) : Bool := s.rackQueue w != [] || (s.rackBlock w).isSome

/-- The window whose turn it is: round-robin after the window served last. [DEDUCED, unsafe: notes/assumptions/56.md] -/
def State.rackTurn (s : State) : Option Nat :=
  ((List.range 16).map (fun k => (s.rack.last + 1 + k) % 16)).find? s.rackHas

/-- Puts a cycle on the bus; it waits where a response input is low. -/
def State.rackDrive (s : State) (w off : Nat) (b : Option (RingId × BitVec 17)) (write : Bool) (data : BitVec 16) (low : Bool) : State :=
  ({ s with rack := { s.rack with last := w } }).setCycle
    (some ⟨w, b, off, write, data, s.raw, if low then .due else .strobes⟩)

/-- The next cycle of a block command starts; a block write whose input can't be read ends with INTERNAL. -/
def State.rackBlockStart (s : State) (c : Cmd) (low : Bool) : State :=
  let a := c.addr 0x10 + 2 * c.prog
  let write := c.opcode == 0x11
  let chk := if write then s.readCheck a 2 0x12 else (true, s)
  if !chk.1 then chk.2.rbFinish c stInternal (rbNext c)
  else chk.2.rackDrive (rbWin c) (rbNext c) (some (c.ring, c.pos)) write (if write then BitVec.ofNat 16 (chk.2.le a 2) else 0) low

/-- The next cycle of a window starts: that of its first lane access, or of its block command. -/
def State.rackStart (s : State) (w : Nat) (low : Bool) : State :=
  match s.rackQueue w with
  | a :: _ =>
    s.rackDrive w (a.off + 2 * a.done) none a.write (if a.write then BitVec.ofNat 16 (a.data / 2 ^ (16 * a.done)) else 0) low
  | [] => match s.rackBlock w with
    | some c => s.rackBlockStart c low
    | none => s

/-- The address of a window's offset. -/
def rackAddr (w off : Nat) : Nat := 0x70000000 + w * 0x1000000 + off

/-! ## Failures (R371, R372) -/

/-- A posted write fails. -/
def State.rackPostedFail (s : State) (w off kind : Nat) : State :=
  let s := if s.on F.RB_PERR_VALID then s
    else (((s.wr F.RB_PERR_WIN w).wr F.RB_PERR_KIND kind).wr F.RB_PERR_OFS_OFFSET off).wr F.RB_PERR_VALID 1
  (s.satAdd F.RB_PERR_CNT_COUNT 1).raise 156 [w32 (w + 16 * kind), w32 off]

/-- A lane read or a non-posted write fails. -/
def State.rackAccessFail (s : State) (h : HartId) (w off kind : Nat) : State :=
  let s := if s.on F.RB_AERR_VALID then s
    else ((((s.wr F.RB_AERR_WIN w).wr F.RB_AERR_KIND kind).wr F.RB_AERR_HART h.val).wr F.RB_AERR_OFS_OFFSET off).wr F.RB_AERR_VALID 1
  (s.satAdd F.RB_AERR_CNT_COUNT 1).raise 157 [w32 (w + 16 * kind + 64 * h.val), w32 off]

/-- A lane access has ended: its result waits for its hart with the input-log record it takes (R153, R372). -/
def State.rackResult (s : State) (w : Nat) (a : RackAcc) (fail : Option Nat) : State :=
  match a.hart with
  | none => s
  | some h =>
    if a.dropped then s
    else
      let addr := rackAddr w a.off
      let v : DWord := if a.write || fail.isSome then 0 else BitVec.ofNat 64 a.data
      let x : Ready := ⟨v, fail.map (fun f => (if a.write then 7 else 5, f)),
        some (if a.write then .npw h addr fail else .vread h a.size addr v fail)⟩
      { s with lanes := { s.lanes with ready := Sparse.insert s.lanes.ready h.val x } }

/-- A cycle of the first lane access of a window has ended: 0 RB_ACK_N, 1 RB_ERR_N, 2 timeout. -/
def State.rackLaneEnd (s : State) (c : RackCycle) (outcome : Nat) : State :=
  match s.rackQueue c.win with
  | [] => s
  | a :: t =>
    if outcome = 0 then
      let a := { a with done := a.done + 1, data := if a.write then a.data else a.data + c.data.toNat * 2 ^ (16 * a.done) }
      if 2 * a.done = a.size then (s.setRackQueue c.win t).rackResult c.win a none else s.setRackQueue c.win (a :: t)
    else
      let s := s.setRackQueue c.win t
      match a.hart with
      | none => s.rackPostedFail c.win c.off outcome
      | some h => (s.rackAccessFail h c.win c.off outcome).rackResult c.win a (some (rackAddr c.win c.off))

/-- A cycle of a block command has ended. -/
def State.rackBlockEnd (s : State) (cmd : Cmd) (c : RackCycle) (outcome : Nat) : State :=
  if outcome = 0 then
    let s := if c.write then s else s.busWrite (cmd.addr 0x10 + 2 * cmd.prog) (leBytes 2 c.data.toNat) 0x12
    let cmd := { cmd with prog := cmd.prog + 1 }
    let s := s.setOut cmd
    if cmd.prog = rbCount cmd then s.rbFinish cmd stOK 0 else s
  else s.rbFinish cmd (if outcome = 1 then stFarError else stTimeout) c.off

/-- The cycle on the bus ends. [DEDUCED, unsafe: notes/assumptions/56.md] -/
def State.rackEnd (s : State) (c : RackCycle) (outcome : Nat) (drove : Bool) : State :=
  let s := if drove then s.satAdd F.RB_CYCLES_CYCLES 1 else s
  let s := s.setCycle none
  match c.block with
  | none => s.rackLaneEnd c outcome
  | some (r, p) => match s.rings.out.find? (fun d => d.ring == r && d.pos == p) with
    | some cmd => s.rackBlockEnd cmd c outcome
    | none => s

/-- The bridge pulses RB_RST_N (R368). -/
def State.rackPulse (s : State) (c : RackCycle) (outcome : Nat) (drove : Bool) : State :=
  let s := (s.satAdd F.RB_STUCK_RESETS 1).wr F.RB_STAT_RST 1
  (s.setCycle (some { c with stage := .pulse outcome drove, start := s.raw })).raise 159 [s.reg Reg.RB_STUCK]

/-! ## RB_RST_N (R375) -/

/-- RB_RST_N is released and RST_WAIT starts. [DEDUCED, unsafe: notes/assumptions/56.md] -/
def State.rackRelease (s : State) : State :=
  ({ s with rack := { s.rack with waitEnd := some (s.raw + s.rd F.RB_CFG_RST_WAIT * 100 * rawPerUs), ready := false } }).wr F.RB_STAT_RST 0

/-- RB_RST_N goes low; the accesses in the queues stay. [DEDUCED, unsafe: notes/assumptions/56.md] -/
def State.rackHold (s : State) : State :=
  ({ s with rack := { s.rack with waitEnd := none, ready := false } }).wr F.RB_STAT_RST 1

/-- The safe state cuts the cycle short and nothing further starts. -/
def State.rackStop (s : State) : State :=
  let s := s.setCycle none
  ({ s with rack := { s.rack with queues := [] } }).rackHold

/-! ## Setup checks (R379) -/

/-- A check of one code fails. -/
def State.rbCheckFails (s : State) (code : Nat) : Bool :=
  match code with
  | 1 => s.rd F.RB_CFG_TMO == 0
  | 2 => (List.range 16).any (fun w => s.on (F.RB_WIN_EN w) && s.on (F.RB_WIN_PART_EN w) && !s.on (F.PE_CTL_EN (s.rd (F.RB_WIN_PART w))))
  | _ => s.rings.ctx.any (fun p => p.2.en && p.2.engine == 0x12) && (List.range 16).all (fun w => !s.on (F.RB_WIN_EN w))

/-- The checks of the RB block: whether they pass, and the record of the first failure. -/
def State.rbSetupCheck (s : State) : Bool × State :=
  match [1, 2, 3].find? s.rbCheckFails with
  | none => (true, s)
  | some k => (false, ((s.wr F.RB_STAT_CFG_ERR 1).wr F.RB_STAT_CFG_CODE k).raise 158 [w32 k])

end Machine
end Sys2Proof
end

