-- ==== Sys2Proof/Machine/Safe.lean ====
section
/-!
DEFINITION. The safe state (R136, Table 5-8) and the reset of the module (R69, R592).
-/

namespace Sys2Proof
namespace Machine

/-- The network ports and the pair link stop: rings and backbone Off, nothing sent, forwarded or relayed. -/
def State.netStop (s : State) : State :=
  let s := (List.range 3).foldl (fun t n => t.wr (F.CR_STATE_STATE n) 0) s
  let s := (s.wr F.CB_STAT_STATE 0).wr F.PAIR_STAT_THROTTLE 0
  { s with
    car := { s.car with fwd := [] }
    ports := { s.ports with now := [] }
    cb := { s.cb with relay := [], sending := [], frozen := [], prog := none }
    pair := { s.pair with out := [], copy := none } }

/-- Locks that a partition holds. -/
def State.locksOf (s : State) (p : Nat) : Nat :=
  (s.parts.locks.filter (fun x => match x.2 with
    | .held q _ _ => q.toNat == p
    | _ => false)).length

/-- The MP's notes of the safe state: SAFE_CAPTURE, and PART_MON for at most 16 partitions with drops (R530, R557). -/
def State.safeNotes (s : State) : State :=
  let s := s.recNoteWrite 0x02 [s.reg Reg.LANE_SAFECAUSE, s.reg Reg.LANE_STAT, s.reg Reg.LANE_FCNT, s.reg Reg.LANE_RBCNT,
    s.reg Reg.FLUE_SAFEDISC, s.reg Reg.EVT_DROP]
  ((s.parts.mon.filter (fun x => x.2.drops != 0)).take 16).foldl (fun t x =>
    t.recNoteWrite 0x03 [w32 x.1, x.2.dram, x.2.spare, w32 x.2.undoPeak.toNat, w32 x.2.logPeak.toNat,
      w32 (x.2.drops.toNat + 65536 * t.locksOf x.1)]) s

/-- What the blocks outside the lane complex do at the safe-state decision: steps 1 to 4 of Table 5-8, the recorder's flush
and the notes. [DEDUCED, unsafe: notes/assumptions/74.md] -/
def State.safeBlocks (s : State) : State :=
  let s := s.fieldStop.netStop.rackStop
  let s := { s with rings := { s.rings with hand := [] }, sig := { s.sig with passes := [], built := [] } }
  s.recFlush.safeNotes

/-- The power state once the lanes have stopped for good: an Ember entry that is not complete goes no further. -/
def PowerState.halted : PowerState → PowerState
  | .entering => .run
  | .quiesce _ => .run
  | .e1 => .run
  | p => p

/-- Entry to the safe state with a cause of Table 5-9. The first cause after reset stands; a later one changes nothing
(R137). The steps of Table 5-8 run in their order as one. A module in reset has nothing left to stop. -/
def State.enterSafe (s : State) (cause : Nat) : State :=
  if s.safe || s.phase == .reset then s
  else
    let s := (s.wr F.LANE_STAT_SAFE 1).wr F.LANE_SAFECAUSE_CAUSE cause
    let s := { s with lanes := { s.lanes with on := false, resuming := false } }
    let s := (s.flueShut.raise 6 []).mpIrq 7
    let s := s.safeBlocks
    { s with pwr := { s.pwr with relay := false, safeN := false, state := s.pwr.state.halted } }

/-- DRAM content does not survive a reset with this cause (Table 3-3a). -/
def dramLost (c : ResetCause) (rail : Nat) : Bool :=
  match c with
  | .por => true
  | .vlogFail => true
  | .borLp => true
  | .rail => rail == 5 || rail == 6
  | _ => false

/-- What holds the module in reset after a cause (R592). -/
def holdOf : ResetCause → Hold
  | .vlogFail => .feed
  | .thermal => .cool
  | _ => .none

/-- The fields that a reset does not change: those of SYS_ID and SYS_STEP that are the part's own (R2), and the measured fields of
PWR_STAT: feeds, their absence, hold-up, voltage, temperature. -/
def keptFields : List Fld :=
  [F.SYS_ID_TEMP_T, F.SYS_ID_VARIANT, F.SYS_STEP_SOC_STEP, F.SYS_STEP_ISL_STEP, F.PWR_STAT_FEED_A, F.PWR_STAT_FEED_B,
    F.PWR_STAT_PF, F.PWR_STAT_HU_OK, F.PWR_STAT_VLOG, F.PWR_STAT_DIE_TEMP]

/-- Takes the fields that a reset does not change from the state before it. -/
def State.keepMeasured (s old : State) : State := keptFields.foldl (fun t f => t.wr f (old.rd f)) s

/-- Records a reset's cause: LAST, RAIL_ID and the STICKY bit. A power-on reset leaves the bit of POR alone (R69). -/
def State.recordCause (s old : State) (c : ResetCause) (rail : Nat) : State :=
  if old.phase = Phase.reset then s.setReg Reg.SYS_RSTCAUSE (old.reg Reg.SYS_RSTCAUSE)
  else
    let sticky := if c = ResetCause.por then 1 else old.rd F.SYS_RSTCAUSE_STICKY ||| 2 ^ c.code
    ((s.wr F.SYS_RSTCAUSE_LAST c.code).wr F.SYS_RSTCAUSE_RAIL_ID rail).wr F.SYS_RSTCAUSE_STICKY sticky

/-- What a reset leaves of the hearth domain's state: what waits for the release, the fuses, and the RTC where the cause
leaves it. -/
def resetPower (s : State) (c : ResetCause) : Power :=
  let keepRtc := c != ResetCause.por && c != ResetCause.vlogFail
  { Power.start with
    hold := if s.phase = Phase.reset ∧ s.pwr.hold ≠ Hold.none ∧ c ≠ ResetCause.vlogFail then s.pwr.hold else holdOf c
    rtc := if keepRtc then s.pwr.rtc else 0
    rtcFrac := if keepRtc then s.pwr.rtcFrac else 0
    fuseKeys := s.pwr.fuseKeys
    fuseRevoked := s.pwr.fuseRevoked
    fuseSvn := s.pwr.fuseSvn
    fuseImgSig := s.pwr.fuseImgSig }

/-- What a reset leaves, with every setup register at its reset value: everything restarts but what R69 lists. MRAM and boot
flash keep their content, DRAM its where the cause leaves it. -/
def resetBase (s : State) (c : ResetCause) (rail : Nat) : State :=
  { State.reset with
    pending := s.pending
    mem := if dramLost c rail then s.mem.filter (fun p => decide (p.1 < 0x1000000000)) else s.mem
    ecc := if dramLost c rail then [] else s.ecc
    pwr := resetPower s c
    freeCtr := s.freeCtr }

/-- A reset of the module. A cause that arises in reset is not recorded. -/
def State.resetModule (s : State) (c : ResetCause) (rail : Nat) : State :=
  ((resetBase s c rail).keepMeasured s).recordCause s c rail

end Machine
end Sys2Proof
end

