-- ==== Sys2Proof/Machine/LaneRegs.lean ====
section
/-!
DEFINITION. Key and clear registers of the lane complex, the Cord engine and the Flue (R138, R141, R167, R194).
-/

namespace Sys2Proof
namespace Machine

/-- A write to CORD_CLR (R167). -/
def cordClr (_who : Requester) (w : Word) (s : State) : State :=
  let s := if w.getLsbD 0 then ((s.wr F.CORD_UNDO_PEAK 0).wr F.CORD_INLOG_PEAK_PEAK 0).wr F.CORD_SEALTIME_MAX 0 else s
  if w.getLsbD 1 then (s.wr F.CORD_FCNT_UNDO_FORCED 0).wr F.CORD_FCNT_INLOG_FORCED 0 else s

/-- A write to LANE_SAFE (R138): the key requests the safe state. -/
def laneSafe (who : Requester) (w : Word) (s : State) : State :=
  if bits w.toNat 0 16 = 0x5346 then
    match who with
    | .lane .. => s.enterSafe 4
    | .mp => s.enterSafe 5
    | _ => s
  else s

/-- A write to LANE_ECC (R141): CLR clears the three counts. -/
def laneEccClr (_who : Requester) (w : Word) (s : State) : State :=
  if w.getLsbD 31 then ((s.wr F.LANE_ECC_CORR_A 0).wr F.LANE_ECC_CORR_B 0).wr F.LANE_ECC_CORR_C 0 else s

/-- SAFE_STATE_ENTRY: the safe-state decision with a cause of Table 5-9. -/
def safeStateEntry (cause : Byte) (s : State) : State := s.enterSafe cause.toNat

/-- A write to FLUE_CLR (R194). -/
def flueClr (_who : Requester) (w : Word) (s : State) : State :=
  let s := if w.getLsbD 0 then s.wr F.FLUE_PEAK_PEAK 0 else s
  if w.getLsbD 1 then ((s.setReg Reg.FLUE_DISC 0).setReg Reg.FLUE_FCNT 0).setReg Reg.FLUE_DUP 0 else s

/-! ## Meanings -/

/-- The effect of LANE_SAFE. -/
def execLaneSafe (who : Requester) (w : Word) (s : State) : Host.Outcome State Fault Refusal :=
  .next (s.arrive who Reg.LANE_SAFE w (fun t => laneSafe who w t))
/-- The effect of LANE_ECC_CLR. -/
def execLaneEccClr (who : Requester) (w : Word) (s : State) : Host.Outcome State Fault Refusal :=
  .next (s.arrive who Reg.LANE_ECC w (fun t => laneEccClr who w t))
/-- The effect of CORD_CLR. -/
def execCordClr (who : Requester) (w : Word) (s : State) : Host.Outcome State Fault Refusal :=
  .next (s.arrive who Reg.CORD_CLR w (fun t => cordClr who w t))
/-- The effect of FLUE_CLR. -/
def execFlueClr (who : Requester) (w : Word) (s : State) : Host.Outcome State Fault Refusal :=
  .next (s.arrive who Reg.FLUE_CLR w (fun t => flueClr who w t))
/-- The effect of SAFE_STATE_ENTRY. -/
def execSafeStateEntry (cause : Byte) (s : State) : Host.Outcome State Fault Refusal := .next (safeStateEntry cause s)

end Machine
end Sys2Proof
end

