-- ==== Sys2Proof/Machine/Rings.lean ====
section
/-!
DEFINITION. The rows of the rings: the context window, the halting of a ring and the commands common to every engine
(R209, R211, R215, R217, R219).
-/

namespace Sys2Proof
namespace Machine

/-! ## The context window (R215, R219) -/

/-- RING_CTX_SEL.RING. -/
def State.ctxSel (s : State) : RingId := BitVec.ofNat 15 (s.rd F.RING_CTX_SEL_RING)

/-- RING_CMD READ copies the selected context into RING_CTX_D0 to D7. -/
def ringCtxRead (s : State) : State :=
  ((List.range 8).zip (s.ctx s.ctxSel).words).foldl (fun t p => t.setReg (Reg.RING_CTX_D p.1) p.2) s

/-- RING_CMD WRITE (R215, R234): refused in the Operate phase; otherwise the ring is defined anew, its progress words, its
event count and, where it is enabled, its doorbell word are 0. -/
def ringCtxWrite (s : State) : State :=
  if s.operate then s.wr F.RING_STAT_CMD_ERR 1
  else
    let r := s.ctxSel
    let c := RingCtx.ofWords (s.reg (Reg.RING_CTX_D 0)).toNat (s.reg (Reg.RING_CTX_D 1)).toNat (s.reg (Reg.RING_CTX_D 2)).toNat
    let s := s.setCtx r c
    let s := { s with evt := { s.evt with
      eseq := Sparse.set s.evt.eseq 0 r.toNat 0
      lost := Sparse.set s.evt.lost false r.toNat false } }
    if c.en && inDram s.dbBase 0x40000 then s.busWrite (s.dbBase + 8 * r.toNat) (zeros 8) 0x1F else s

/-- RING_HALTED: an uncorrectable error in a ring's context memory (R209). No further descriptor of the ring is taken; one in an
engine's hand is taken already and ends as any other. -/
def ringHalted (r : RingId) (s : State) : State :=
  let c := s.ctx r
  if c.st = .disabled ∨ c.st = .halted then s else (s.setCtx r { c with st := .halted }).raiseRing 69 [w32 r.toNat] r

/-! ## Common opcodes (R211) -/

/-- NOP in an engine's hand. -/
def nop (e : EngineId) (s : State) : State := s.doUnit e.val 0x00 runNop

/-- HANDLE_QUERY in an engine's hand. -/
def handleQuery (e : EngineId) (s : State) : State := s.doUnit e.val 0x01 runHandleQuery

/-! ## The setup check (R217, Table 8-14) -/

/-- Numbers of the enabled rings, ascending. -/
def State.enabledRings (s : State) : List Nat := (s.rings.ctx.filter (fun p => p.2.en)).map (fun p => p.1)

/-- The descriptor ring's bytes and the completion ring's. -/
def RingCtx.sqArea (c : RingCtx) : Nat × Nat := (c.sqBase.toNat * 4096, if c.event then 0 else 64 * c.sqEntries)
def RingCtx.cqArea (c : RingCtx) : Nat × Nat := (c.cqBase.toNat * 4096, 32 * c.cqEntries)

/-- Two areas, each base and length, share a byte. -/
def overlaps (x y : Nat × Nat) : Bool := decide (x.1 < y.1 + y.2) && decide (y.1 < x.1 + x.2)

/-- Some page of the range is of a type. -/
def State.pageAny (s : State) (ty p : Nat) : Nat → Bool
  | 0 => false
  | n + 1 =>
    (match s.ratEntry p with
      | none => false
      | some e => s.rd (F.RAT_CTL_TYPE e) == ty) || s.pageAny ty (p + 1) n

/-- Enabled partitions, ascending. -/
def State.parts' (s : State) : List Nat := (List.range 256).filter (fun p => s.on (F.PE_CTL_EN p))

/-- The partition whose range holds a ring. -/
def State.ringOwner (s : State) (r : Nat) : Option Nat :=
  s.parts'.find? (fun p => decide (s.rd (F.PE_RINGS_RING_FIRST p) ≤ r) &&
    decide (r < s.rd (F.PE_RINGS_RING_FIRST p) + s.rd (F.PE_RINGS_RING_COUNT p)))

/-- A check of one code fails for a ring. -/
def State.ringFails (s : State) (code r : Nat) : Bool :=
  let c := s.ctx (BitVec.ofNat 15 r)
  let sq := c.sqArea
  let cq := c.cqArea
  match code with
  | 1 =>
    !inDram s.dbBase 0x40000 ||
      (s.pairOn && overlaps (s.dbBase / 4096 * 4096, 0x40000) (0x13F0000000, 0x10000000))
  | 2 =>
    decide (12 < c.sqLog.toNat) || decide (12 < c.cqLog.toNat) || (!c.event && decide (c.cqLog.toNat < c.sqLog.toNat)) ||
      (c.event && (c.sqBase != 0 || c.sqLog != 0))
  | 3 =>
    !c.event && (!inDram sq.1 sq.2 || overlaps sq (s.dbBase, 0x40000) || s.pageAny 1 (sq.1 / 4096) (pagesOf sq.1 sq.2) ||
      s.inStaging sq.1 sq.2)
  | 4 => !s.inVolatile cq.1 cq.2
  | 5 =>
    let save := if s.on F.PWR_EMBER_CFG_E3_EN then [(s.saveBase, 0x400000)] else []
    let others := s.enabledRings.flatMap (fun q =>
      if q = r then [] else [(s.ctx (BitVec.ofNat 15 q)).sqArea, (s.ctx (BitVec.ofNat 15 q)).cqArea])
    (save ++ others).any (fun a => overlaps sq a || overlaps cq a) || overlaps sq cq
  | 6 =>
    (decide (0x18 < c.engine.toNat) && c.engine.toNat != 0x1F) || (c.event != (c.engine.toNat == 0x1F)) || (c.mp && c.event)
  | _ => s.ringOwner r != some c.part.toNat

/-- The first failure, ring by ring ascending and each ring's codes in order (R217): code and ring. -/
def State.ringCheck (s : State) : Option (Nat × Nat) :=
  (s.enabledRings.flatMap (fun r => (List.range 7).map (fun k => (k + 1, r)))).find? (fun p => s.ringFails p.1 p.2)

/-- Records the first failure (R217) and says whether the check passes. -/
def State.ringSetupCheck (s : State) : Bool × State :=
  match s.ringCheck with
  | none => (true, s)
  | some (k, r) =>
    (false, (((s.wr F.RING_STAT_CFG_ERR 1).wr F.RING_STAT_CFG_CODE k).wr F.RING_STAT_CFG_RING r).raise 70 [w32 (k + 65536 * r)])

/-- Step 5 of Table 1-12: the watcher evaluates the doorbell word of every enabled ring once (R202). -/
def State.watchAll (s : State) : State :=
  s.enabledRings.foldl (fun t r => t.watch (BitVec.ofNat 15 r) .entry) s

/-! ## Meanings -/

/-- The effect of RING_CTX_READ. -/
def execRingCtxRead (s : State) : Host.Outcome State Fault Refusal := .next (ringCtxRead s)
/-- The effect of RING_CTX_WRITE. -/
def execRingCtxWrite (s : State) : Host.Outcome State Fault Refusal := .next (ringCtxWrite s)
/-- The effect of RING_HALTED. -/
def execRingHalted (r : RingId) (s : State) : Host.Outcome State Fault Refusal := .next (ringHalted r s)
/-- The effect of NOP. -/
def execNop (e : EngineId) (s : State) : Host.Outcome State Fault Refusal := .next (nop e s)
/-- The effect of HANDLE_QUERY. -/
def execHandleQuery (e : EngineId) (s : State) : Host.Outcome State Fault Refusal := .next (handleQuery e s)

end Machine
end Sys2Proof
end

