-- ==== Sys2Proof/Machine/SigOps.lean ====
section
/-!
DEFINITION. The signal store: datasets, slots, fields, publication, passes and freshness (chapter 13).
-/

namespace Sys2Proof
namespace Machine

/-! ## Layout (Tables 13-1, 13-2, 13-6 and 13-7) -/

/-- A dataset number within the descriptor table. -/
def State.dsetCount (s : State) : Nat := s.rd F.SIG_DSET_COUNT_COUNT

/-- Address of a dataset's descriptor. -/
def State.dsAddr (s : State) (d : Nat) : Nat := s.rd F.SIG_DSET_BASE_BASE * 4096 + 64 * d

/-- A field of a descriptor word. -/
def State.ds (s : State) (d off lo w : Nat) : Nat := s.memFld (s.dsAddr d + off) lo w

/-- Writes a field of a descriptor word, for a writer's engine code. -/
def State.setDs (s : State) (e d off lo w v : Nat) : State :=
  let a := s.dsAddr d + off
  s.busWrite a (leBytes 4 (setBits (s.le a 4) lo w v)) e

/-- Fields of a descriptor (Table 13-6). -/
def State.dsid (s : State) (d : Nat) : Nat := s.ds d 0 0 26
def State.dsKind (s : State) (d : Nat) : Nat := s.ds d 0 26 2
def State.dsPart (s : State) (d : Nat) : Nat := s.ds d 4 0 8
def State.dlen (s : State) (d : Nat) : Nat := s.ds d 4 8 11
def State.nsig (s : State) (d : Nat) : Nat := s.ds d 4 19 6
def State.firstSlot (s : State) (d : Nat) : Nat := s.ds d 8 0 25
def State.staleN (s : State) (d : Nat) : Nat := s.ds d 8 25 4
def State.subst (s : State) (d : Nat) : Bool := s.ds d 8 29 1 == 1
def State.dsPeriod (s : State) (d : Nat) : Nat := s.ds d 0xC 0 20
def State.subAddr (s : State) (d : Nat) : Nat := s.ds d 0x14 0 32 + 2 ^ 32 * s.ds d 0x18 0 8
def State.gen32 (s : State) (d : Nat) : Nat := s.ds d 0x1C 0 32
def State.latest (s : State) (d : Nat) : Nat := s.ds d 0x24 0 2
/-- [DEDUCED, safe: notes/assumptions/47.md] -/
def State.pin (s : State) (d b : Nat) : Nat := s.ds d 0x24 (2 + 2 * b) 2
def State.dsStale (s : State) (d : Nat) : Bool := s.ds d 0x24 8 1 == 1
def State.clearPend (s : State) (d : Nat) : Bool := s.ds d 0x24 9 1 == 1
def State.lastNt (s : State) (d : Nat) : Nat := s.le (s.dsAddr d + 0x28) 8

/-- A dataset has been published: GEN or LAST_NT is not 0 (GEN wraps). -/
def State.published (s : State) (d : Nat) : Bool := s.gen32 d != 0 || s.lastNt d != 0

/-- A dataset is enabled: in the table, of kind receive (1) or publish (2). -/
def State.dsEnabled (s : State) (d : Nat) : Bool := decide (d < s.dsetCount) && (s.dsKind d == 1 || s.dsKind d == 2)

/-- Address of a buffer of a dataset (R336). -/
def State.bufAddr (s : State) (d b : Nat) : Nat :=
  s.rd F.SIG_BUF_BASE_BASE * 4096 + 64 * s.ds d 0x10 0 32 + b * ((s.dlen d + 63) / 64 * 64)

/-- Address of a slot and of its map entry. -/
def State.slotAt (s : State) (i : Nat) : Nat := s.rd F.SIG_STORE_BASE_BASE * 2 ^ 29 + 16 * i
def State.mapAt (s : State) (i : Nat) : Nat := s.rd F.SIG_MAP_BASE_BASE * 4096 + 8 * i

/-- A map entry: dataset, place, type and range of a signal (Table 13-7). -/
structure SigMap where
  dset : Nat
  ofs : Nat
  width : Nat
  ty : Nat
  le : Bool
  range : Nat
deriving DecidableEq, Repr

/-- The map entry of a slot. -/
def State.sigMap (s : State) (i : Nat) : SigMap :=
  let a := s.mapAt i
  { dset := s.memFld a 0 18, ofs := s.memFld a 18 14, width := s.memFld (a + 4) 0 6 + 1, ty := s.memFld (a + 4) 6 4,
    le := s.memFld (a + 4) 10 1 == 1, range := s.memFld (a + 4) 12 16 }

/-- A slot is in use: in the slot range of the enabled dataset its map entry names (R326). -/
def State.slotUsed (s : State) (i : Nat) : Bool :=
  let d := (s.sigMap i).dset
  decide (i < s.rd F.SIG_SLOTS_SLOTS) && s.dsEnabled d && decide (s.firstSlot d ≤ i) && decide (i < s.firstSlot d + s.nsig d)

/-- The slots of a dataset. -/
def State.dsSlots (s : State) (d : Nat) : List Nat := (List.range (s.nsig d)).map (· + s.firstSlot d)

/-! ## What the engine reads (R16) -/

/-- The map entry, the descriptor and the slot of a signal identifier. -/
def State.slotAreas (s : State) (i : Nat) : List (Nat × Nat) :=
  if i < s.rd F.SIG_SLOTS_SLOTS then [(s.mapAt i, 8), (s.dsAddr (s.sigMap i).dset, 64), (s.slotAt i, 16)] else []

/-- The range entries of a dataset's slots. -/
def State.rangeAreas (s : State) (d : Nat) : List (Nat × Nat) :=
  (s.dsSlots d).filterMap (fun i =>
    if (s.sigMap i).range = 0 then none else some (s.rd F.SIG_RANGE_BASE_BASE * 4096 + 16 * (s.sigMap i).range, 16))

/-- A dataset's descriptor, the map entries and slots of its signals and their range entries. -/
def State.dsAreas (s : State) (d : Nat) : List (Nat × Nat) :=
  [(s.dsAddr d, 64), (s.mapAt (s.firstSlot d), 8 * s.nsig d), (s.slotAt (s.firstSlot d), 16 * s.nsig d)] ++ s.rangeAreas d

/-- The access entries of a partition. -/
def State.accAreas (s : State) (p : PartId) : List (Nat × Nat) :=
  let m := s.rd (F.PE_SIGMAP_SIGMAP p.toNat)
  if m = 0xFFFFFFFF then [] else [(s.rd F.SIG_ACC_BASE_BASE * 4096 + 8 * (m % 2 ^ 20), 8 * (m / 2 ^ 20))]

/-- Every area is read without an uncorrectable word. -/
def State.areasOk (s : State) (l : List (Nat × Nat)) : Bool := l.all (fun x => s.readOk x.1 x.2)

/-! ## Access maps (R332) -/

/-- The right of bit `b` (25 R, 26 F) holds for a partition and a slot. -/
def State.sigRight (s : State) (p : PartId) (b slot : Nat) : Bool :=
  let m := s.rd (F.PE_SIGMAP_SIGMAP p.toNat)
  m != 0xFFFFFFFF && (List.range (m / 2 ^ 20)).any (fun k =>
    let a := s.rd F.SIG_ACC_BASE_BASE * 4096 + 8 * (m % 2 ^ 20 + k)
    s.memFld a b 1 == 1 && decide (s.memFld a 0 25 ≤ slot) && decide (slot < s.memFld a 0 25 + s.memFld (a + 4) 0 26))

/-! ## Fields (R338 to R340) -/

/-- The field of `w` bits from bit `o` of a dataset's bytes. -/
def fieldGet (bs : List Byte) (m : SigMap) : Nat :=
  let f := beNat bs / 2 ^ (8 * bs.length - m.ofs - m.width) % 2 ^ m.width
  if m.le then leNat (beBytes (m.width / 8) f) else f

/-- The bytes with a field replaced. -/
def fieldPut (bs : List Byte) (m : SigMap) (f : Nat) : List Byte :=
  let f := if m.le then leNat (beBytes (m.width / 8) f) else f
  beBytes bs.length (setBits (beNat bs) (8 * bs.length - m.ofs - m.width) m.width f)

/-- binary32 widened exactly to binary64, NaN payloads kept. -/
def widen (x : Nat) : Nat :=
  let neg := x / 2 ^ 31 % 2
  if x / 2 ^ 23 % 256 = 255 then neg * 2 ^ 63 + 2047 * 2 ^ 52 + x % 2 ^ 23 * 2 ^ 29
  else (f64.pack .rne (f32.decode x)).1

/-- The slot value of a field (Table 13-8). -/
def slotValue (m : SigMap) (f : Nat) : DWord :=
  match m.ty with
  | 1 => BitVec.ofInt 64 (BitVec.ofNat m.width f).toInt
  | 3 => BitVec.ofNat 64 (widen f)
  | _ => BitVec.ofNat 64 f

/-- A binary32 NaN from a free value: the spec states no payload. [DEDUCED, unsafe: notes/assumptions/46.md] -/
def freeNan32 (v : DWord) : Nat := v.toNat / 2 ^ 32 % 2 * 2 ^ 31 + 255 * 2 ^ 23 + (1 + v.toNat % (2 ^ 23 - 1))

/-- An exact integer saturated into an integer field: the field and whether it saturated. -/
def packInt (m : SigMap) (v : Int) : Nat × Bool :=
  let lo : Int := if m.ty = 1 then -(2 ^ (m.width - 1) : Int) else 0
  let hi : Int := if m.ty = 1 then 2 ^ (m.width - 1) - 1 else 2 ^ m.width - 1
  if v < lo then ((BitVec.ofInt m.width lo).toNat, true)
  else if hi < v then ((BitVec.ofInt m.width hi).toNat, true)
  else ((BitVec.ofInt m.width v).toNat, false)

/-- A slot value packed into its field (R340): the field, whether it saturated, and the state after a NaN's free payload. [DEDUCED, unsafe: notes/assumptions/46.md] -/
def State.packValue (s : State) (m : SigMap) (v : DWord) : Nat × Bool × State :=
  match m.ty with
  | 1 => let r := packInt m v.toInt; (r.1, r.2, s)
  | 2 => (b2n (v != 0), false, s)
  | 3 =>
    match f64.decode v.toNat with
    | .nan _ => let d := s.draw; (freeNan32 d.1, false, d.2)
    | .fin n a e =>
      let r := (f32.pack .rne (.fin n a e)).1
      (r, r / 2 ^ 23 % 256 == 255, s)
    | x => ((f32.pack .rne x).1, false, s)
  | 4 => (v.toNat, false, s)
  | _ => let r := packInt m v.toNat; (r.1, r.2, s)

/-- A value lies outside its range entry (R339). -/
def State.outOfRange (s : State) (m : SigMap) (v : DWord) : Bool :=
  if m.range = 0 ∨ m.ty = 5 then false
  else
    let a := s.rd F.SIG_RANGE_BASE_BASE * 4096 + 16 * m.range
    let vt := match m.ty with
      | 1 => 0
      | 3 => 2
      | 4 => 2
      | _ => 1
    let less (x y : DWord) : Bool := match vt with
      | 0 => decide (x.toInt < y.toInt)
      | 1 => decide (x.toNat < y.toNat)
      | _ => (f64.decode x.toNat).lt (f64.decode y.toNat)
    let lo : DWord := BitVec.ofNat 64 (s.le a 8)
    let hi : DWord := BitVec.ofNat 64 (s.le (a + 8) 8)
    less v lo || less hi v || (vt == 2 && (f64.decode v.toNat).isNan)

/-! ## Slots (R327 to R329) -/

/-- A slot's content. -/
structure Slot where
  value : DWord
  ts : Word
  valid : Bool
  stale : Bool
  forced : Bool
  subst : Bool
  range : Bool
  gen8 : Nat
deriving DecidableEq, Repr

/-- A slot as the store holds it. -/
def State.slot (s : State) (i : Nat) : Slot :=
  let a := s.slotAt i
  let st := s.memFld (a + 12) 0 16
  let bit (k : Nat) : Bool := bits st k 1 == 1
  { value := BitVec.ofNat 64 (s.le a 8), ts := s.word (a + 8), valid := bit 0, stale := bit 1, forced := bit 2,
    subst := bit 3, range := bit 4, gen8 := st / 256 }

/-- QUALITY (R328). -/
def Slot.quality (x : Slot) : Nat :=
  if !x.valid then 0 else if x.range then 1 else if x.stale || x.subst || x.forced then 2 else 3

/-- STATUS (Table 13-3). -/
def Slot.status (x : Slot) : Nat :=
  b2n x.valid + 2 * b2n x.stale + 4 * b2n x.forced + 8 * b2n x.subst + 16 * b2n x.range + 32 * x.quality + 256 * (x.gen8 % 256)

/-- The 16 bytes of a slot with an AGE. -/
def Slot.bytes (x : Slot) (age : Nat) : List Byte :=
  leBytes 8 x.value.toNat ++ leBytes 4 x.ts.toNat ++ leBytes 2 x.status ++ leBytes 2 age

/-- Writes a slot; its AGE is 0 in the store. -/
def State.putSlot (s : State) (i : Nat) (x : Slot) : State := s.busWrite (s.slotAt i) (x.bytes 0) 0

/-- The write of a slot by an unpack or a publication of generation g at NT t (Table 13-4). -/
def State.slotGen (s : State) (i : Nat) (v : DWord) (t : Word) (g : Nat) : State :=
  let x := s.slot i
  let v := if x.forced then x.value else v
  s.putSlot i { x with
    value := v, ts := if x.forced then x.ts else t, valid := true, stale := false, subst := false
    range := s.outOfRange (s.sigMap i) v, gen8 := g % 256 }

/-! ## Forces (R346, R399) -/

/-- A force is active (R399). -/
def State.forceActive (s : State) : Bool := decide (0 < s.rd F.CYC_FORCES_COUNT) || decide (0 < s.rd F.SIG_FORCES_FORCES)

/-- CYC_STAT.FORCE and its events follow a change of the force counts from those of an earlier state. -/
def State.forceNotice (s old : State) : State :=
  if s.forceActive && !old.forceActive then
    (s.wr F.CYC_STAT_FORCE 1).raise 491 [s.reg Reg.CYC_FORCES, s.reg Reg.SIG_FORCES]
  else if !s.forceActive && old.forceActive then (s.wr F.CYC_STAT_FORCE 0).raise 492 []
  else s

/-! ## Gateway triggers (R359) -/

/-- Address of a gateway group's entry and of a route's. -/
def State.gwGroup (s : State) (g : Nat) : Nat := s.rd F.GW_GROUP_BASE_BASE * 4096 + 32 * g
def State.gwRoute (s : State) (i : Nat) : Nat := s.rd F.GW_ROUTE_BASE_BASE * 4096 + 8 * i

/-- A group is enabled. -/
def State.gwOn (s : State) (g : Nat) : Bool := s.memFld (s.gwGroup g) 18 1 == 1

/-- Source and destination slots of a group's routes, in order. -/
def State.gwRoutes (s : State) (g : Nat) : List (Nat × Nat) :=
  (List.range (s.memFld (s.gwGroup g + 4) 16 6)).map (fun k =>
    let a := s.gwRoute (s.memFld (s.gwGroup g + 4) 0 16 + k)
    (s.memFld a 0 25, s.memFld (a + 4) 0 25))

/-- Sets or clears a group's PENDING bit. -/
def State.gwPend (s : State) (g : Nat) (on : Bool) : State :=
  let a := s.gwGroup g + 0x1C
  s.busWrite a (leBytes 4 (setBits (s.le a 4) 0 1 (b2n on))) 0x11

/-- A publication of a dataset makes the groups it feeds pending. -/
def State.gwTrigger (s : State) (d : Nat) : State :=
  if !s.operate then s
  else (List.range (s.rd F.GW_GROUP_COUNT_COUNT)).foldl (fun t g =>
    if t.gwOn g && (t.gwRoutes g).any (fun r => (t.sigMap r.1).dset == d) && !t.sig.groups.any (fun x => x.1 == g) then
      let t := t.gwPend g true
      { t with sig := { t.sig with groups := t.sig.groups ++ [(g, t.raw)] } }
    else t) s

/-! ## Passes (R342, R343) -/

/-- Priority of a pass. -/
def PassKind.prio : PassKind → Nat
  | .stale => 0
  | .clear => 1
  | .unpack => 2

/-- Replaces a dataset's pending pass of lower priority in its place. -/
def raisePass (d : Nat) (k : PassKind) : List Pass → List Pass
  | [] => []
  | p :: t => if p.dset = d then (if p.kind.prio < k.prio then { p with kind := k } else p) :: t else p :: raisePass d k t

/-- Queues a pass. -/
def State.queuePass (s : State) (d : Nat) (k : PassKind) : State :=
  let q := s.sig.passes
  let q := if q.any (fun p => p.dset == d) then raisePass d k q else q ++ [⟨d, k, s.raw⟩]
  { s with sig := { s.sig with passes := q } }

/-! ## Publication (R341) -/

/-- Datasets, watches (R352): a watch's condition holds. `aux` holds STALE when it was taken and TB_RAW at its limit. -/
def State.watchHolds (s : State) (c : Cmd) : Bool :=
  let d := c.fld 8 0 18
  if c.fld 8 18 1 = 0 then
    let x := (s.gen32 d + 2 ^ 32 - c.word 0x10) % 2 ^ 32
    decide (1 ≤ x) && decide (x < 2 ^ 31)
  else b2n (s.dsStale d) != c.aux.headD 0

/-- Result words of a watch. -/
def State.watchRes (s : State) (c : Cmd) : List Word := [w32 (s.gen32 (c.fld 8 0 18)), w32 (b2n (s.dsStale (c.fld 8 0 18)))]

/-- Ends the watches of a dataset whose condition holds. -/
def State.watchEnd (s : State) (d : Nat) : State :=
  (s.outOf 0).foldl (fun t c =>
    if c.opcode = 0x13 ∧ c.fld 8 0 18 = d ∧ t.watchHolds c then t.endLong c (finOk (t.watchRes c)) else t) s

/-- A free buffer of a dataset: not the latest and not pinned. -/
def State.freeBuf (s : State) (d : Nat) : Option Nat := [0, 1, 2].find? (fun b => s.pin d b == 0 && b != s.latest d)

/-- No buffer is free: the generation is dropped (R341). -/
def State.dropGen (s : State) (e d : Nat) : State :=
  (s.setDs e d 0x34 0 16 (min (s.ds d 0x34 0 16 + 1) 65535)).satAdd F.SIG_DROPS_DROPS 1

/-- DATASET_PUBLICATION: bytes become the next generation of a dataset; a receive dataset's unpack is queued. [DEDUCED, unsafe: notes/assumptions/45.md] -/
def State.publish (s : State) (e d : Nat) (bs : List Byte) : State :=
  match s.freeBuf d with
  | none => s.dropGen e d
  | some b =>
    let s := s.busWrite (s.bufAddr d b) bs e
    let s := (s.setDs e d 0x24 0 2 b).setDs e d 0x1C 0 32 (s.gen32 d + 1)
    let s := s.busWrite (s.dsAddr d + 0x28) (leBytes 8 s.ntNs) e
    let s := if s.dsKind d = 1 then s.queuePass d .unpack else s
    ((s.gwTrigger d).watchEnd d).pairPublished d

/-- The latest generation's bytes. -/
def State.latestBytes (s : State) (d : Nat) : List Byte := s.bytes (s.bufAddr d (s.latest d)) (s.dlen d)

/-- Clears a dataset's STALE bit. -/
def State.unstale (s : State) (d : Nat) : State := if s.dsStale d then (s.setDs 0 d 0x24 8 1 0).watchEnd d else s

/-- Packs a value into the field of a slot, within a dataset's bytes, a forced slot's own value in place of the one given (R340,
R346); counts what saturates. -/
def State.packSlot (x : List Byte × Nat × State) (p : Nat × DWord) : List Byte × Nat × State :=
  let m := x.2.2.sigMap p.1
  let o := x.2.2.slot p.1
  let r := x.2.2.packValue m (if o.forced then o.value else p.2)
  (fieldPut x.1 m r.1, x.2.1 + b2n r.2.1, r.2.2)

/-- Bytes become a publish dataset's slots and its next generation as one unit (R352). -/
def State.publishBytes (s : State) (d : Nat) (bs : List Byte) : State :=
  let g := s.gen32 d + 1
  let t : Word := w32 s.ntNs
  let s := (s.dsSlots d).foldl (fun t' i => t'.slotGen i (slotValue (t'.sigMap i) (fieldGet bs (t'.sigMap i))) t g) s
  (s.publish 0 d bs).unstale d

/-- SIG_PUBLISH of one dataset from values in slot order: packing with forces, slots and publication as one unit (R340,
R346, R352). The count of saturated values is added to `sat`; none where a read meets an uncorrectable error, and the dataset is
not published. -/
def State.publishValues (s : State) (d : Nat) (vs : List DWord) (sat : Nat) : Option Nat × State :=
  let chk := s.checkAll 0 (s.dsAreas d ++ [(s.bufAddr d (s.latest d), s.dlen d)])
  if !chk.1 then (none, chk.2)
  else match s.freeBuf d with
    | none => (some sat, chk.2.dropGen 0 d)
    | some _ =>
      let x := ((s.dsSlots d).zip vs).foldl State.packSlot (s.latestBytes d, sat, chk.2)
      (some x.2.1, x.2.2.publishBytes d x.1)

/-- SIG_PUBLISH of bytes that the gateway built: forced fields carry their forced value, every other byte stays as built (R357,
R358). -/
def State.publishBuilt (s : State) (d : Nat) (bs : List Byte) : State :=
  let chk := s.checkAll 0 (s.dsAreas d)
  if !chk.1 then chk.2
  else match s.freeBuf d with
    | none => chk.2.dropGen 0 d
    | some _ =>
      let fs := (s.dsSlots d).filter (fun i => (s.slot i).forced)
      let x := (fs.map (fun i => (i, (s.slot i).value))).foldl State.packSlot (bs, 0, chk.2)
      x.2.2.publishBytes d x.1

/-! ## Running a pass (Table 13-4) -/

/-- One pass. A pass that cannot read the descriptor, a map entry, a slot or a range entry changes nothing. [DEDUCED, unsafe: notes/assumptions/45.md; DEDUCED, unsafe: notes/assumptions/46.md] -/
def State.doPass (s : State) (p : Pass) : State :=
  let d := p.dset
  let slots := s.dsSlots d
  let all := s.checkAll 0 (s.dsAreas d)
  let s := all.2
  if !all.1 then s
  else match p.kind with
  | .unpack =>
    let chk := s.readCheck (s.bufAddr d (s.latest d)) (s.dlen d) 0
    if !chk.1 then chk.2
    else
      let s := chk.2
      let bs := s.latestBytes d
      let g := s.gen32 d
      let t := s.word (s.dsAddr d + 0x28)
      let s := slots.foldl (fun t' i => t'.slotGen i (slotValue (t'.sigMap i) (fieldGet bs (t'.sigMap i))) t g) s
      ((s.setDs 0 d 0x20 0 32 g).setDs 0 d 0x24 9 1 0).unstale d
  | .stale =>
    let chk := if s.subst d then s.readCheck (s.subAddr d) (s.dlen d) 0 else (false, s)
    let s := chk.2
    if chk.1 then
      let bs := s.bytes (s.subAddr d) (s.dlen d)
      let t := w32 s.ntNs
      slots.foldl (fun t' i =>
        let x := t'.slot i
        let m := t'.sigMap i
        let v := if x.forced then x.value else slotValue m (fieldGet bs m)
        t'.putSlot i { x with
          value := v, ts := if x.forced then x.ts else t, stale := true, subst := if x.forced then x.subst else true
          range := t'.outOfRange m v }) s
    else slots.foldl (fun t' i => t'.putSlot i { t'.slot i with stale := true }) s
  | .clear =>
    let s := slots.foldl (fun t' i => t'.putSlot i ⟨0, 0, false, false, (t'.slot i).forced, false, false, 0⟩) s
    s.setDs 0 d 0x24 9 1 0

/-- SIG_PASS: the first pending pass of a partition runs, and its wait is taken into WAIT_MAX. -/
def State.runPass (s : State) (p : Pass) : State :=
  let s := { s with sig := { s.sig with passes := s.sig.passes.filter (fun x => x.dset != p.dset) } }
  (s.doPass p).peak F.SIG_PASS_WAIT_MAX ((s.raw - p.raw) / rawPerUs)

/-- Pending passes of a partition, in queue order. -/
def State.passesOf (s : State) (p : Nat) : List Pass := s.sig.passes.filter (fun x => s.dsPart x.dset == p)

end Machine
end Sys2Proof
end

