-- ==== Sys2Proof/Machine/TbOps.lean ====
section
/-!
DEFINITION. The time base: commands on network time, pulse generators, SYNC_IN and the transmit time-stamp queues
(chapter 10).
-/

namespace Sys2Proof
namespace Machine

/-! ## Latches (R250) -/

/-- The latch of a requester: harts 0 to 3, the MP 4. -/
def latchOf : Requester → Nat
  | .lane h _ => h.val
  | _ => 4

/-- A read of TB_NT_LO latches NT and TB_RAW of the clock. -/
def State.ntLatch (s : State) (who : Requester) : State :=
  let l := (BitVec.ofNat 80 s.nt80, s.tb.raw)
  { s with tb := { s.tb with latches := Sparse.insert s.tb.latches (latchOf who) l } }

/-- What a requester's latch holds: NT and TB_RAW. -/
def State.latched (s : State) (who : Requester) : Nat × Nat :=
  let l := Sparse.get s.tb.latches (0, 0) (latchOf who)
  (l.1.toNat, l.2.toNat)

/-- TB_NT_LATCH: a read of TB_NT_LO commanded by a requester. -/
def tbNtLatch (who : Requester) (s : State) : State :=
  let s := s.ntLatch who
  { s with busData := w32 ((s.latched who).1 / 2 ^ 16) }

/-! ## Commands (R251 to R254) -/

/-- The requester is the master that TB_CFG.OWNER names. -/
def State.tbOwner (s : State) (who : Requester) : Bool :=
  match who with
  | .mp => s.on F.TB_CFG_OWNER
  | .loader => true
  | _ => !s.on F.TB_CFG_OWNER

/-- A refusal (R254). [DEDUCED, unsafe: notes/assumptions/44.md] -/
def State.tbRefuse (s : State) (code op : Nat) : State :=
  ((s.wr F.TB_STAT_CMD_ERR 1).wr F.TB_STAT_ERR_CODE code).raise 193 [w32 (code + 16 * op)]

/-- INCR_MIN and INCR_MAX (R249). -/
def incrMin : Nat := 0x1FF7CED9169
def incrMax : Nat := 0x20083126E97

/-- A signed difference of n-bit values is below 0. -/
def negDiff (n a b : Nat) : Bool := decide (2 ^ (n - 1) ≤ (a + 2 ^ n - b % 2 ^ n) % 2 ^ n)

/-- A signed 80-bit amount in 2^-16 ns as an integer. -/
def signed80 (d : Nat) : Int := (BitVec.ofNat 80 d).toInt

/-- Performs a command at the apply clock r, after its checks (R253, R254). -/
def State.tbApply (s : State) (c : TbCmd) (r : Nat) : State :=
  let ofs := s.tb.ofs.toNat
  let incr := s.tb.incr.toNat
  let x := bits c.w0.toNat 0 16 + 2 ^ 16 * c.w1.toNat + 2 ^ 48 * c.w2.toNat
  let v := c.w0.toNat + 2 ^ 32 * bits c.w1.toNat 0 16
  let back := s.on F.TB_CFG_BACK_STEP_EN
  let done (o : Int) (i : Nat) : State :=
    let s := s.setConv r (BitVec.ofInt 104 o) (BitVec.ofNat 48 i)
    (s.wr64 Reg.TB_APPLY_RAW_LO Reg.TB_APPLY_RAW_HI r).raise 192 [w32 c.op, w32 r, w32 (r / 2 ^ 32)]
  match c.op with
  | 1 =>
    if c.w1.toNat / 2 ^ 16 ≠ 0 ∨ v < incrMin ∨ incrMax < v then s.tbRefuse 1 1
    else done (Int.ofNat (ofs + r * incr) - Int.ofNat (r * v)) v
  | 2 =>
    if !back && negDiff 80 x (s.ntFullAt r / 2 ^ 24) then s.tbRefuse 2 2
    else if c.w0.toNat / 2 ^ 16 ≠ 0 then s.tbRefuse 6 2
    else done (Int.ofNat (x * 2 ^ 24) - Int.ofNat (r * incr)) incr
  | 3 =>
    if !back && decide (signed80 x < 0) then s.tbRefuse 2 3
    else if c.w0.toNat / 2 ^ 16 ≠ 0 then s.tbRefuse 6 3
    else done (Int.ofNat ofs + signed80 x * 2 ^ 24) incr
  | _ => s

/-- TB_AT. -/
def State.tbAt (s : State) : Nat := s.rd64 Reg.TB_AT_LO Reg.TB_AT_HI

/-- A command other than CANCEL reaches the time base with the staged words as they stand (R252, R254). -/
def State.tbCommand (s : State) (who : Requester) (op : Nat) (at_ : Bool) : State :=
  let c : TbCmd := ⟨op, s.reg Reg.TB_W0, s.reg Reg.TB_W1, s.reg Reg.TB_W2, BitVec.ofNat 64 s.tbAt⟩
  if !s.tbOwner who then s.tbRefuse 5 op
  else if s.on F.TB_STAT_CMD_BUSY then s.tbRefuse 4 op
  else if !at_ then s.tbApply c s.raw
  else if reached s.raw s.tbAt then s.tbRefuse 3 op
  else ({ s with tb := { s.tb with waiting := some c } }).wr F.TB_STAT_CMD_BUSY 1

/-- TB_CMD with SET_INCR, SET_NT and ADD_OFS. -/
def tbSetIncr (who : Requester) (at_ : Bool) (s : State) : State := s.tbCommand who 1 at_
def tbSetNt (who : Requester) (at_ : Bool) (s : State) : State := s.tbCommand who 2 at_
def tbAddOfs (who : Requester) (at_ : Bool) (s : State) : State := s.tbCommand who 3 at_

/-- TB_CMD with CANCEL: a waiting command is cancelled; with none waiting nothing happens. -/
def tbCancel (who : Requester) (s : State) : State :=
  if !s.tbOwner who then s.tbRefuse 5 0
  else if s.on F.TB_STAT_CMD_BUSY then
    ({ s with tb := { s.tb with waiting := none } }).wr F.TB_STAT_CMD_BUSY 0
  else s

/-- TB_RAW reaches TB_AT and the waiting command applies; TB_AT is its apply clock. -/
def tbAtApply (s : State) : State :=
  match s.tb.waiting with
  | none => s
  | some c =>
    if reached s.raw c.at_.toNat then
      (({ s with tb := { s.tb with waiting := none } }).wr F.TB_STAT_CMD_BUSY 0).tbApply c c.at_.toNat
    else s

/-- The word of TB_CMD for an operation, applied at TB_AT or at once. -/
def tbCmdWord (op : Nat) (at_ : Bool) : Word := w32 (op + 4 * b2n at_)

/-- A write of TB_CMD by its word. [DEDUCED, unsafe: notes/assumptions/44.md] -/
def State.tbCmdWrite (s : State) (who : Requester) (w : Word) : State :=
  match bits w.toNat 0 2 with
  | 0 => tbCancel who s
  | op => s.tbCommand who op (w.getLsbD 2)

/-- A write of a staging word by another master has no effect but the refusal (R251). [DEDUCED, unsafe: notes/assumptions/44.md] -/
def State.tbStage (s : State) (who : Requester) (off : Nat) (w : Word) : State :=
  if s.tbOwner who then s.setReg off w else s.tbRefuse 5 0

/-- The time-base PLL loses lock (R247). -/
def tbPllLost (s : State) : State :=
  if s.operate then ((s.wr F.TB_STAT_PLL_LOST 1).raise 196 []).enterSafe 0xFF
  else if s.setupPhase then (s.wr F.TB_STAT_PLL_LOST 1).raise 196 []
  else s

/-! ## Pulse generators (R256 to R259, R271) -/

/-- MODE codes (Table 10-4). -/
def PtoMode.code : PtoMode → Nat
  | .off => 0
  | .oneShot => 1
  | .periodic => 2
  | .syncArmed => 3

/-- The mode of a code. -/
def ptoMode (n : Nat) : PtoMode :=
  match n with
  | 0 => .off
  | 1 => .oneShot
  | 2 => .periodic
  | _ => .syncArmed

/-- A generator's working state. -/
def State.gen (s : State) (n : Nat) : Pto := Sparse.get s.tb.gens ⟨.off, 0, 0⟩ n

/-- Sets a generator's working state. -/
def State.setGen (s : State) (n : Nat) (g : Pto) : State :=
  { s with tb := { s.tb with gens := Sparse.set s.tb.gens ⟨.off, 0, 0⟩ n g } }

/-- What a generator compares: TB_RAW or NT nanoseconds. -/
def State.ptoNow (s : State) (n : Nat) : Nat := if s.on (F.PTO_CTL_BASE n) then s.ntNs else s.raw

/-- A generator's armed target. -/
def State.ptoTarget (s : State) (n : Nat) : Nat := s.rd64 (Reg.PTO_NEXT_LO n) (Reg.PTO_NEXT_HI n)

/-- Arms a generator at a target, or disarms it. -/
def State.ptoSet (s : State) (n : Nat) (armed : Bool) (target : Nat) : State :=
  (s.wr (F.PTO_STAT_ARMED n) (b2n armed)).wr64 (Reg.PTO_NEXT_LO n) (Reg.PTO_NEXT_HI n) (if armed then target else 0)

/-- PER and the initial target of a generator's registers. -/
def State.ptoPer (s : State) (n : Nat) : Nat := s.rd (F.PTO_PER_LO_PER_LO n) + 2 ^ 32 * s.rd (F.PTO_PER_HI_PER_HI n)
def State.ptoTgt (s : State) (n : Nat) : Nat := s.rd64 (Reg.PTO_TGT_LO n) (Reg.PTO_TGT_HI n)

/-- Gives a generator a mode, a target and a period; an output pulse in progress runs to its end. -/
def State.ptoArmAt (s : State) (n : Nat) (m : PtoMode) (target per : Nat) : State :=
  let s := s.setGen n { s.gen n with mode := m, per := per }
  s.ptoSet n (m == .oneShot || m == .periodic) target

/-- Loads a generator from its registers (R271). -/
def State.ptoLoad (s : State) (n : Nat) : State :=
  s.ptoArmAt n (ptoMode (s.rd (F.PTO_CTL_MODE n))) (s.ptoTgt n) (s.ptoPer n)

/-- PTO_SETUP_REARM: a Setup-phase write to a generator's registers re-arms it with the values then held. -/
def ptoSetupRearm (n : Fin 16) (s : State) : State := if s.operate then s else s.ptoLoad n.val

/-- At SETUP_LOCK every generator with MODE ≠ 0b00 arms afresh (R271). -/
def State.ptoLock (s : State) : State :=
  (List.range 16).foldl (fun t n => if t.rd (F.PTO_CTL_MODE n) = 0 then t else t.ptoLoad n) s

/-- A generator's armed target is reached, in a domain that runs. -/
def State.ptoDue (s : State) (n : Nat) : Bool :=
  s.on (F.PTO_STAT_ARMED n) && reached (s.ptoNow n) (s.ptoTarget n) && s.pwr.state != PowerState.e3

/-- The fire itself: the output, the event and the next target (R256 to R258). -/
def State.ptoFires (s : State) (n : Nat) : State :=
  let g := s.gen n
  let now := s.ptoNow n
  let t := s.ptoTarget n
  let late := (now + 2 ^ 64 - t) % 2 ^ 64
  let passed := if g.mode = .periodic ∧ g.per ≠ 0 then late / g.per else 0
  let s := s.setGen n { g with outEnd := s.raw + s.rd (F.PTO_PER_HI_WIDTH n) }
  let s := s.wr (F.PTO_STAT_OUT n) 1
  let s := s.satAdd (F.PTO_STAT_MISSED n) passed
  let s := if s.on (F.PTO_CTL_EVT_EN n) then
      s.raise (208 + n) [w32 t, w32 (t / 2 ^ 32), w32 (s.rd (F.PTO_STAT_MISSED n))] else s
  s.ptoSet n (g.mode == .periodic) ((t + (passed + 1) * g.per) % 2 ^ 64)

/-- PTO_PULSE_END: an output pulse has lasted WIDTH clocks. -/
def ptoPulseEnd (n : Fin 16) (s : State) : State :=
  if s.on (F.PTO_STAT_OUT n.val) && reached s.raw (s.gen n.val).outEnd then s.wr (F.PTO_STAT_OUT n.val) 0 else s

/-- The level of SYNC_OUT (R260). -/
def State.syncOut (s : State) : Bool :=
  s.operate && !s.safe && s.pwr.state != PowerState.e3 && s.on F.TB_SYNC_OUT_EN && s.on (F.PTO_STAT_OUT (s.rd F.TB_SYNC_OUT_SEL))

/-! ## SYNC_IN (R261) -/

/-- TB_RAW at which an edge reached the pin, three clocks before. -/
def State.edgeRaw (s : State) : Nat := (s.raw + 2 ^ 64 - 3) % 2 ^ 64

/-- An edge is accepted: enabled, and HOLDOFF µs since the last accepted one. -/
def State.syncAccepts (s : State) : Bool :=
  s.on F.TB_SYNC_IN_EN &&
    (match s.tb.syncLast with
      | none => true
      | some r => reached s.edgeRaw (r + s.rd F.TB_SYNC_IN_HOLDOFF * rawPerUs))

/-- The time base's part of an accepted edge: stamp, count, event and the sync-armed generators. -/
def State.syncEdge (s : State) : State :=
  let r := s.edgeRaw
  let nt := s.ntFullAt r / 2 ^ 24
  let s := { s with tb := { s.tb with syncLast := some r } }
  let s := (s.wr64 Reg.TB_SYNCIN_LO Reg.TB_SYNCIN_HI (nt / 2 ^ 16)).wr F.TB_SYNCIN_FRAC_FRAC (nt % 2 ^ 16)
  let s := s.satAdd F.TB_SYNCIN_CNT_EDGES 1
  let s := s.raise 194 [w32 (nt % 2 ^ 16), w32 (nt / 2 ^ 16), w32 (nt / 2 ^ 48)]
  (List.range 16).foldl (fun t n =>
    if (t.gen n).mode = .syncArmed then
      t.ptoSet n true (((if t.on (F.PTO_CTL_BASE n) then nt / 2 ^ 16 else r) + (t.gen n).per) % 2 ^ 64)
    else t) s

/-! ## Transmit time-stamp queues (R264, R265) -/

/-- The queue of a stamp port. -/
def State.tsQueue (s : State) (p : Nat) : List (BitVec 16 × BitVec 80) := Sparse.get s.tb.tsq [] p

/-- Sets a queue and its LEVEL. -/
def State.setTsQueue (s : State) (p : Nat) (q : List (BitVec 16 × BitVec 80)) : State :=
  ({ s with tb := { s.tb with tsq := Sparse.set s.tb.tsq [] p q } }).wr (F.TB_TSQ_STAT_LEVEL p) q.length

/-- A stamped frame passes its start-frame delimiter: its entry is appended, or discarded where the queue holds 32. -/
def State.tsqPut (s : State) (p tag stamp : Nat) : State :=
  let q := s.tsQueue p
  if 32 ≤ q.length then
    let s := (s.wr ⟨Reg.TB_TSQ_OVF, p, 1⟩ 1).satAdd (F.TB_TSQ_STAT_DROPS p) 1
    s.raise 195 [w32 (p + 65536 * (tag % 65536))]
  else s.setTsQueue p (q ++ [(BitVec.ofNat 16 tag, BitVec.ofNat 80 stamp)])

/-- A frame whose start-frame delimiter ends at a value r of TB_RAW is stamped (R263, R264). -/
def State.tsqStamp (s : State) (p tag r : Nat) : State := s.tsqPut p tag (s.ntCaptured r s.raw)

/-- The 16 bytes of a queue entry (Table 10-9). -/
def tsEntry (p : Nat) (x : BitVec 16 × BitVec 80) : List Byte :=
  leBytes 4 (x.1.toNat + 65536 * p) ++ leBytes 4 (x.2.toNat % 2 ^ 16) ++ leBytes 8 (x.2.toNat / 2 ^ 16)

/-- TSQ_READ (R266, R267). -/
def runTsqRead (c : Cmd) (s : State) : State × Final :=
  let p := c.fld 8 0 5
  let m := c.fld 8 8 8
  let buf := c.addr 0x10
  if !(c.headerOk && c.fld 8 5 3 == 0 && c.fld 8 17 15 == 0 && c.word 0xC == 0 && c.fld 0x14 8 24 == 0 && c.zeroFrom 0x18) ||
      decide (17 < p) || m == 0 || decide (32 < m) || buf % 16 != 0 || !s.engineMayWrite buf (16 * m) then (s, finBad)
  else if !(s.ctx c.ring).mp && (!s.on (F.TB_TSQ_CFG_EN p) || s.rd (F.TB_TSQ_CFG_PART p) != (s.cmdPart c).toNat) then (s, finNotOwner)
  else
    let q := s.tsQueue p
    let out := q.take m
    let ovf := s.rd ⟨Reg.TB_TSQ_OVF, p, 1⟩
    let s := s.outBuf c buf (out.flatMap (tsEntry p))
    let s := s.setTsQueue p (q.drop m)
    let s := if c.fld 8 16 1 = 1 then s.wr ⟨Reg.TB_TSQ_OVF, p, 1⟩ 0 else s
    (s, finOk [w32 (out.length + 256 * ovf), w32 (s.rd (F.TB_TSQ_STAT_DROPS p))])

/-- TSQ_READ in the Time Engine's hand. -/
def tsqRead (s : State) : State := s.doShort 0x16 0x10 runTsqRead

/-- PTO_ARM (R259, R266, R267). -/
def runPtoArm (c : Cmd) (s : State) : State × Final :=
  let n := c.fld 8 0 4
  let m := c.fld 8 4 2
  let tgt := c.word 0x10 + 2 ^ 32 * c.word 0x14
  let per := c.word 0x18 + 2 ^ 32 * c.fld 0x1C 0 4
  let minPer := if s.on (F.PTO_CTL_BASE n) then 1000 else 500
  if !(c.headerOk && c.fld 8 6 26 == 0 && c.word 0xC == 0 && c.fld 0x1C 4 28 == 0 && c.zeroFrom 0x20) || m == 3 ||
      (m == 2 && (decide (per < minPer) || decide (per ≤ s.rd (F.PTO_PER_HI_WIDTH n)))) then (s, finBad)
  else if !s.on (F.PTO_CTL_ARM_EN n) || s.rd (F.PTO_CTL_OWNER n) != (s.cmdPart c).toNat then (s, finNotOwner)
  else if m ≠ 0 ∧ reached (s.ptoNow n) tgt then (s, ⟨stMissedWindow, 0, []⟩)
  else (s.ptoArmAt n (ptoMode m) tgt per, finOk [])

/-- PTO_ARM in the Time Engine's hand. -/
def ptoArm (s : State) : State := s.doShort 0x16 0x11 runPtoArm

/-! ## The setup check (R270) -/

/-- A generator's registers fail code 0x2. -/
def State.ptoBad (s : State) (n : Nat) : Bool :=
  let m := s.rd (F.PTO_CTL_MODE n)
  let w := s.rd (F.PTO_PER_HI_WIDTH n)
  let per := s.ptoPer n
  m != 0 && (decide (w < 4) || decide (500000 < w) ||
    (decide (2 ≤ m) && (decide (per ≤ w) || decide (per < if s.on (F.PTO_CTL_BASE n) then 1000 else 500))))

/-- The first code that fails. -/
def State.tbCheck (s : State) : Option Nat :=
  let off (p : Nat) : Bool := !s.on (F.PE_CTL_EN p)
  if s.on F.TB_STAT_PLL_LOST then some 1
  else if (List.range 16).any s.ptoBad then some 2
  else if (List.range 16).any (fun n => s.on (F.PTO_CTL_ARM_EN n) && off (s.rd (F.PTO_CTL_OWNER n))) then some 3
  else if (List.range 18).any (fun n => s.on (F.TB_TSQ_CFG_EN n) && off (s.rd (F.TB_TSQ_CFG_PART n))) then some 4
  else if s.on F.TB_SYNC_IN_EN && s.rd F.TB_SYNC_IN_HOLDOFF == 0 then some 5
  else none

/-- The TB block's check, with its first failure recorded. -/
def State.tbSetupCheck (s : State) : Bool × State :=
  match s.tbCheck with
  | none => (true, s)
  | some k => (false, ((s.wr F.TB_STAT_CFG_ERR 1).wr F.TB_STAT_CFG_CODE k).raise 197 [w32 k])

/-- A read of a TB register that shows the time base or a latch; none where the register is stored. -/
def State.tbRead (s : State) (who : Requester) (off : Nat) : Option Nat :=
  let l := s.latched who
  if off = Reg.TB_NT_HI then some (l.1 / 2 ^ 48)
  else if off = Reg.TB_NT_FRAC then some (l.1 % 2 ^ 16)
  else if off = Reg.TB_LRAW_LO then some l.2
  else if off = Reg.TB_LRAW_HI then some (l.2 / 2 ^ 32)
  else if off = Reg.TB_INCR_LO then some s.tb.incr.toNat
  else if off = Reg.TB_INCR_HI then some (s.tb.incr.toNat / 2 ^ 32)
  else if off = Reg.TB_OFS_FRAC then some (s.tb.ofs.toNat / 2 ^ 24 % 2 ^ 16)
  else if off = Reg.TB_OFS_LO then some (s.tb.ofs.toNat / 2 ^ 40)
  else if off = Reg.TB_OFS_HI then some (s.tb.ofs.toNat / 2 ^ 72)
  else none

/-! ## Meanings -/

/-- The effect of TB_PLL_LOST. -/
def execTbPllLost (s : State) : Host.Outcome State Fault Refusal := .next (tbPllLost s)
/-- The effect of TB_NT_LATCH. -/
def execTbNtLatch (who : Requester) (s : State) : Host.Outcome State Fault Refusal := .next (tbNtLatch who s)
/-- The effect of TB_CANCEL. -/
def execTbCancel (who : Requester) (s : State) : Host.Outcome State Fault Refusal := 
  .next (s.arrive who Reg.TB_CMD 0 (fun t => tbCancel who t))
/-- The effect of TB_SET_INCR. -/
def execTbSetIncr (who : Requester) (at_ : Bool) (s : State) : Host.Outcome State Fault Refusal :=
  .next (s.arrive who Reg.TB_CMD (tbCmdWord 1 at_) (fun t => tbSetIncr who at_ t))
/-- The effect of TB_SET_NT. -/
def execTbSetNt (who : Requester) (at_ : Bool) (s : State) : Host.Outcome State Fault Refusal :=
  .next (s.arrive who Reg.TB_CMD (tbCmdWord 2 at_) (fun t => tbSetNt who at_ t))
/-- The effect of TB_ADD_OFS. -/
def execTbAddOfs (who : Requester) (at_ : Bool) (s : State) : Host.Outcome State Fault Refusal :=
  .next (s.arrive who Reg.TB_CMD (tbCmdWord 3 at_) (fun t => tbAddOfs who at_ t))
/-- The effect of TB_AT_APPLY. -/
def execTbAtApply (s : State) : Host.Outcome State Fault Refusal := .next (tbAtApply s)
/-- The effect of PTO_PULSE_END. -/
def execPtoPulseEnd (n : Fin 16) (s : State) : Host.Outcome State Fault Refusal := .next (ptoPulseEnd n s)
/-- The effect of PTO_SETUP_REARM. -/
def execPtoSetupRearm (n : Fin 16) (s : State) : Host.Outcome State Fault Refusal := .next (ptoSetupRearm n s)
/-- The effect of TSQ_READ. -/
def execTsqRead (s : State) : Host.Outcome State Fault Refusal := .next (tsqRead s)
/-- The effect of PTO_ARM. -/
def execPtoArm (s : State) : Host.Outcome State Fault Refusal := .next (ptoArm s)

end Machine
end Sys2Proof
end

