-- ==== Sys2Proof/Machine/CarOps.lean ====
section
/-!
DEFINITION. Car rings: the summation frame, the master's cycle, a member's copies, delivery, ring states and the acyclic
frames (chapter 11).
-/

namespace Sys2Proof
namespace Machine

/-! ## State of a ring -/

/-- A ring that has seen no cycle. -/
def carZero : CarNode := ⟨0, 0, true, false, false, false, 255, 255, 0, 0, false, 0, none⟩

/-- The state of ring n. -/
def State.node (s : State) (n : Nat) : CarNode := Sparse.get s.car.nodes carZero n

/-- Sets the state of ring n. -/
def State.setNode (s : State) (n : Nat) (x : CarNode) : State :=
  { s with car := { s.car with nodes := Sparse.set s.car.nodes carZero n x } }

/-- ROLE codes and STATE codes (Tables 11-6 and 11-14). -/
def State.crMaster (s : State) (n : Nat) : Bool := s.rd (F.CR_CFG_ROLE n) == 2
def State.crMember (s : State) (n : Nat) : Bool := s.rd (F.CR_CFG_ROLE n) == 1
def State.crState (s : State) (n : Nat) : Nat := s.rd (F.CR_STATE_STATE n)
def State.crOn (s : State) (n : Nat) : Bool := s.crState n != 0

/-- LOSS_N; 0 acts as 1. -/
def State.lossN (s : State) (n : Nat) : Nat := max 1 (s.rd (F.CR_CFG_LOSS_N n))

/-- Port m of ring n has link: 0 A_OUT, 1 A_IN, 2 B_OUT, 3 B_IN. -/
def State.crLink (s : State) (n m : Nat) : Bool := bits (s.rd (F.CR_STATE_LINK n)) m 1 == 1

/-- A channel of a ring is in use: 0 A, 1 B. -/
def State.crChan (s : State) (n ch : Nat) : Bool := if ch = 0 then s.on (F.CR_CFG_A_EN n) else s.on (F.CR_CFG_B_EN n)

/-- Event source k of ring n (R293). -/
def crSrc (n k : Nat) : Nat := 128 + 8 * n + k

/-- The MAC of a node and the DA of a ring. -/
def State.crMac (s : State) (n : Nat) : Nat := (s.reg (Reg.CR_MAC_LO n)).toNat + 2 ^ 32 * s.rd (F.CR_MAC_HI_MAC_HI n)
def State.crDa (s : State) (n : Nat) : Nat := (s.reg (Reg.CR_DA_LO n)).toNat + 2 ^ 32 * s.rd (F.CR_DA_HI_DA_HI n)

/-! ## Frames (R274, Table 11-2) -/

/-- A big-endian field of n bytes of a frame. -/
def frameFld (f : List Byte) (o n : Nat) : Nat := beNat ((f.drop o).take n)

/-- Bytes of a frame replaced from an offset, as far as the frame goes. -/
def frameSet (f : List Byte) (o : Nat) (bs : List Byte) : List Byte := (f.take o ++ bs ++ f.drop (o + bs.length)).take f.length

/-- Source and destination addresses and EtherType of a frame. -/
def frameDa (f : List Byte) : Nat := frameFld f 0 6
def frameSa (f : List Byte) : Nat := frameFld f 6 6
def frameType (f : List Byte) : Nat := frameFld f 12 2

/-- A PTP header at an offset: majorVersionPTP 2 and messageType 0 to 3 (Table 10-5). -/
def ptpAt (f : List Byte) (o : Nat) : Bool :=
  decide (o + 2 ≤ f.length) && frameFld f (o + 1) 1 % 16 == 2 && decide (frameFld f o 1 % 16 ≤ 3)

/-- A message stamped on receive (R262): EtherType 0x88F7, untagged or with one tag, or UDP over IPv4 to port 319. [DEDUCED, unsafe: notes/assumptions/44.md] -/
def ptpEvent (f : List Byte) : Bool :=
  let o := if frameType f = 0x8100 then 18 else 14
  let ty := frameFld f (o - 2) 2
  let u := o + 4 * (frameFld f o 1 % 16)
  (ty == 0x88F7 && ptpAt f o) ||
    (ty == 0x0800 && frameFld f o 1 / 16 == 4 && frameFld f (o + 9) 1 == 17 && frameFld f (o + 6) 2 % 2 ^ 13 == 0 && frameFld f (u + 2) 2 == 319 &&
      ptpAt f (u + 8))

/-- A frame, FCS excluded, is a summation copy by the ring's EtherType. -/
def State.crSum (s : State) (n : Nat) (f : List Byte) : Bool := frameType f == s.rd (F.CR_ETYPE_ETYPE n)

/-- A copy matches at a node on a channel (R274). -/
def State.crMatch (s : State) (n ch : Nat) (f : List Byte) : Bool :=
  s.crSum n f && frameFld f 14 1 / 16 == 1 && frameFld f 14 1 / 8 % 2 == ch && frameFld f 15 1 == s.rd (F.CR_CFG_RING_ID n) &&
    frameFld f 20 2 == s.rd (F.CR_LEN_SLICE_LEN n)

/-- CYCLE of a copy. -/
def copyCycle (f : List Byte) : Nat := frameFld f 16 4

/-- PRESENCE of a position in a copy. -/
def presence (f : List Byte) (i : Nat) : Bool := frameFld f (24 + i / 8) 1 / 2 ^ (i % 8) % 2 == 1

/-- A copy with a position's PRESENCE bit set or cleared. -/
def setPresence (f : List Byte) (i : Nat) (b : Bool) : List Byte :=
  frameSet f (24 + i / 8) (beBytes 1 (setBits (frameFld f (24 + i / 8) 1) (i % 8) 1 (b2n b)))

/-! ## Slice tables (R275) -/

/-- Enabled entries of a ring with a DIR. -/
def State.slices (s : State) (n dir : Nat) : List Nat :=
  (List.range 256).filter (fun e => s.on (F.CR_SLC_EN n e) && s.rd (F.CR_SLC_DIR n e) == dir)

/-- The output image: the bytes of the write entries by OFFSET (R282). [DEDUCED, unsafe: notes/assumptions/45.md] -/
def State.crImage (s : State) (n : Nat) : List (Nat × List Byte) :=
  (s.slices n 1).map (fun e => (s.rd (F.CR_SLC_OFFSET n e), s.latestBytes (s.rd (F.CR_SLD_DSET n e))))

/-- Writes an image's bytes into a copy's slice area. -/
def putImage (f : List Byte) (im : List (Nat × List Byte)) : List Byte :=
  im.foldl (fun f e => frameSet f (0x28 + e.1) e.2) f

/-- Every dataset of the write entries has been published (R277). -/
def State.crAllPublished (s : State) (n : Nat) : Bool := (s.slices n 1).all (fun e => s.published (s.rd (F.CR_SLD_DSET n e)))

/-! ## Sending -/

/-- A port sends a frame, with an FCS that checks or an inverted one: it is the last frame the port sent. A frame of the
partner's channel of a car ring goes over the pair link (R488). -/
def State.portSend (s : State) (p : Nat) (f : List Byte) (ok : Bool) : State :=
  if p < 12 ∧ s.farChan (p / 2 % 2) then s.pairSend (.copy (Fin.ofNat 3 (p / 4)) false f ok)
  else { s with ports := { s.ports with sent := Sparse.insert s.ports.sent p (ok, f) } }

/-- Channel ch of ring n can send: its OUT port has link, or the pair link carries it. -/
def State.crOut (s : State) (n ch : Nat) : Bool := if s.farChan ch then s.pairLink else s.crLink n (2 * ch)

/-- What a port sends now outside its cyclic frames; a forwarded frame that has ended is none. -/
def State.portNow (s : State) (p : Nat) : Option TxNow :=
  match Sparse.lookup s.ports.now p with
  | some (.forward t f) => if reached s.raw (t + (f.length + 12) * 40) then none else some (.forward t f)
  | x => x

/-- Sets or clears what a port sends. -/
def State.setPortNow (s : State) (p : Nat) (x : Option TxNow) : State :=
  { s with ports := { s.ports with now := match x with
      | none => Sparse.erase s.ports.now p
      | some y => Sparse.insert s.ports.now p y } }

/-- TB_RAW at the start of what a port sends, and its bytes. -/
def TxNow.frame : TxNow → Nat × List Byte
  | .own _ _ t f => (t, f)
  | .forward t f => (t, f)

/-- CR_ACYC_CUT: a copy cuts short the acyclic frame its port is sending: what has left of it ends with an inverted FCS (R287). -/
def State.crCut (s : State) (p : Nat) : State :=
  match s.portNow p with
  | none => s
  | some x =>
    let part := x.frame.2.take ((s.raw + 2 ^ 64 - x.frame.1 % 2 ^ 64) % 2 ^ 64 / 40 - 8)
    let s := (s.setPortNow p none).portSend p part false
    ({ s with ports := { s.ports with cut := Sparse.insert s.ports.cut p part } }).satAdd (F.CR_PORT_18_ACYC_DROP p) 1

/-- Wire bytes of a frame with its preamble and FCS, and its time at 100 Mbit/s in counts of TB_RAW. -/
def crWire (len : Nat) : Nat := (len + 12) * 40

/-- TB_RAW at the end of the SFD of a frame whose last byte passes now. -/
def State.sfdRaw (s : State) (len perByte : Nat) : Nat := (s.raw + 2 ^ 64 - (len + 4) * perByte) % 2 ^ 64

/-! ## Channels, losses and member counts (R284, R285) -/

/-- The OK flag of a channel in CR_STATE. -/
def okFld (n ch : Nat) : Fld := if ch = 0 then F.CR_STATE_A_OK n else F.CR_STATE_B_OK n

/-- Sets a channel's cycles without a valid copy, and its OK flag with the event of a change. -/
def State.crMissSet (s : State) (n ch k : Nat) : State :=
  let x := s.node n
  let s := s.setNode n (if ch = 0 then { x with missA := min k 255 } else { x with missB := min k 255 })
  let good := decide (k < s.lossN n)
  if good == s.on (okFld n ch) then s
  else (s.wr (okFld n ch) (b2n good)).raise (crSrc n (if good then 1 else 0)) [w32 ch]

/-- A valid copy arrives on a channel. -/
def State.crGot (s : State) (n ch : Nat) : State :=
  let x := s.node n
  (s.setNode n (if ch = 0 then { x with gotA := true } else { x with gotB := true })).crMissSet n ch 0

/-- A cycle ends: a channel that brought no valid copy has missed it. [DEDUCED, unsafe: notes/assumptions/49.md] -/
def State.crChanEnd (s : State) (n : Nat) : State :=
  let x := s.node n
  if !x.opened then s
  else
    let s := if x.gotA || !s.crChan n 0 then s else s.crMissSet n 0 (x.missA + 1)
    let s := if x.gotB || !s.crChan n 1 then s else s.crMissSet n 1 (x.missB + 1)
    s.setNode n { s.node n with opened := false, gotA := false, gotB := false }

/-- A cycle begins whose copies will be judged by channel; the one before has ended. -/
def State.crChanOpen (s : State) (n : Nat) : State :=
  let s := s.crChanEnd n
  s.setNode n { s.node n with opened := true }

/-- The CR_MISS field of a position. -/
def missFld (n i : Nat) : Fld := ⟨Reg.CR_MISS n (i / 4), 8 * (i % 4), 8⟩

/-- Positions that the ring's read entries name, each once. -/
def State.readPositions (s : State) (n : Nat) : List Nat :=
  (List.range 126).filter (fun i => (s.slices n 0).any (fun e => s.rd (F.CR_SLC_POS n e) == i))

/-- One position's count after a cycle with or without its bit, with the member events (R285). [DEDUCED, unsafe: notes/assumptions/49.md] -/
def State.crMissOne (s : State) (n i : Nat) (here : Bool) : State :=
  let old := s.rd (missFld n i)
  let s := s.wr (missFld n i) (if here then 0 else min (old + 1) 255)
  if here && decide (s.lossN n ≤ old) then s.raise (crSrc n 5) [w32 i]
  else if !here && old + 1 == s.lossN n then s.raise (crSrc n 4) [w32 i]
  else s

/-- Positions whose misses a node counts: all of them at the master, at a member those it reads (R285). -/
def State.missPositions (s : State) (n : Nat) : List Nat := if s.crMaster n then List.range 126 else s.readPositions n

/-- The counts after an accepted copy, or after a lost cycle. -/
def State.crMissAll (s : State) (n : Nat) (copy : Option (List Byte)) : State :=
  (s.missPositions n).foldl (fun t i => t.crMissOne n i (match copy with
    | none => false
    | some f => presence f i)) s

/-- A lost cycle: MISSED, the run of losses and the Lost state (Table 11-6). -/
def State.crLost (s : State) (n : Nat) : State :=
  let x := s.node n
  let s := (s.satAdd (F.CR_MISSED_MISSED n) 1).crMissAll n none
  let s := s.setNode n { s.node n with lostRun := x.lostRun + 1 }
  if s.crState n = 2 ∧ s.lossN n ≤ x.lostRun + 1 then
    let s := (s.wr (F.CR_STATE_STATE n) 3).raise (crSrc n 2) [x.acc]
    s.setNode n { s.node n with lastHeld := false }
  else s

/-- A valid copy makes a Starting or Lost ring Running. -/
def State.crRun (s : State) (n cyc : Nat) : State :=
  let was := s.crState n
  let s := s.setNode n { s.node n with lostRun := 0, acc := w32 cyc }
  let s := s.wr (F.CR_STATE_STATE n) 2
  if was = 3 then s.raise (crSrc n 3) [w32 cyc] else s

/-- CR_SLICE_DELIVERY: every fresh read slice becomes a generation of its dataset (R283). -/
def State.crDeliver (s : State) (n ch : Nat) (f : List Byte) : State :=
  (s.slices n 0).foldl (fun t e =>
    if presence f (t.rd (F.CR_SLC_POS n e)) then
      t.publish (2 + 4 * n + 2 * ch) (t.rd (F.CR_SLD_DSET n e))
        ((f.drop (0x28 + t.rd (F.CR_SLC_OFFSET n e))).take (t.rd (F.CR_SLC_LEN n e)))
    else t) s

/-! ## The master (R278, R279) -/

/-- A summation copy of the master for a channel. -/
def State.crCopy (s : State) (n ch cyc : Nat) (im : List (Nat × List Byte)) : List Byte :=
  let body := beBytes 6 (s.crDa n) ++ beBytes 6 (s.crMac n) ++ beBytes 2 (s.rd (F.CR_ETYPE_ETYPE n)) ++ beBytes 1 (16 + 8 * ch) ++
    beBytes 1 (s.rd (F.CR_CFG_RING_ID n)) ++ beBytes 4 cyc ++ beBytes 2 (s.rd (F.CR_LEN_SLICE_LEN n)) ++ zeros 2 ++ zeros 16 ++
    zeros (s.rd (F.CR_LEN_SLICE_LEN n))
  putImage (setPresence body 0 (Sparse.get s.pair.unpub [] n == [])) im

/-- A copy leaves on a channel whose OUT port has link. -/
def State.crSendCopy (s : State) (n ch cyc : Nat) (im : List (Nat × List Byte)) : State :=
  let p := 4 * n + 2 * ch
  if s.crChan n ch && s.crOut n ch then (s.crCut p).portSend p (s.crCopy n ch cyc im) true else s

/-- CR_CYCLE_START at the master's fire: a previous cycle still open is lost, CYCLE advances, the image is frozen and both
copies are sent. -/
def State.crFire (s : State) (n : Nat) : State :=
  let s := if (s.node n).closed then s else s.crLost n
  let s := s.crChanOpen n
  let cyc := (s.rd (F.CR_CYCLE_CYCLE n) + 1) % 2 ^ 32
  let im := s.crImage n
  let s := s.wr (F.CR_CYCLE_CYCLE n) cyc
  let x := s.node n
  let s := s.setNode n { x with ref := s.raw, refs := x.refs + 1, closed := false, image := some ⟨cyc, s.raw, true, im⟩ }
  (s.crSendCopy n 0 cyc im).crSendCopy n 1 cyc im

/-- The rings whose cycle a generator starts. A module that does not act counts the cycles that its partner starts, so that CYCLE keeps
increasing at a takeover (Table 11-9). [DEDUCED, unsafe: notes/assumptions/67.md] -/
def State.crFires (s : State) (g : Nat) : State :=
  (List.range 3).foldl (fun t n =>
    if t.crMaster n && t.crOn n && t.running && t.rd (F.CR_MASTER_PTO n) == g then
      (if t.acts then t.crFire n else t.wr (F.CR_CYCLE_CYCLE n) (t.rd (F.CR_CYCLE_CYCLE n) + 1))
    else t) s

/-- CR_MASTER_RX: a copy arrives whole at the master on a channel; `ok` says that its FCS checks. -/
def State.crMasterRx (s : State) (n ch : Nat) (f : List Byte) (ok : Bool) : State :=
  if !(s.running && s.acts && s.crOn n && s.crMaster n && s.crSum n f) then s
  else
    let p := 4 * n + 2 * ch + 1
    let s := s.satAdd (F.CR_PORT_00_RX_SUM p) 1
    if !ok then s.satAdd (F.CR_PORT_04_RX_FCS p) 1
    else if !s.crMatch n ch f then s.satAdd (F.CR_PORT_08_RX_HDR p) 1
    else
      let x := s.node n
      let age := s.raw - x.ref
      if copyCycle f ≠ s.rd (F.CR_CYCLE_CYCLE n) ∨ x.refs = 0 ∨ s.rd (F.CR_MASTER_RET_TMO n) * rawPerUs < age then s
      else
        let s := s.crGot n ch
        if x.closed then s.satAdd (F.CR_PORT_0C_RX_DUP p) 1
        else
          let rtt := min (age / 5) 65535
          let s := ((s.wr (F.CR_RTT_LAST n) rtt).peak (F.CR_RTT_MAX n) rtt).crRun n (copyCycle f)
          let s := s.setNode n { s.node n with closed := true }
          let s := (s.crDeliver n ch f).crMissAll n (some f)
          s.recEvent 13 n rtt

/-- CR_RETURN_TIMEOUT: RET_TMO has passed with no valid copy. -/
def State.crReturnTimeout (s : State) (n : Nat) : State :=
  let x := s.node n
  if s.running && s.acts && s.crMaster n && s.crOn n && !x.closed && reached s.raw (x.ref + s.rd (F.CR_MASTER_RET_TMO n) * rawPerUs) then
    (s.setNode n { x with closed := true }).crLost n
  else s

/-! ## A member (R280 to R282) -/

/-- A CYCLE is newer than the last one accepted, or none is held (R281). -/
def State.crNewer (s : State) (n cyc : Nat) : Bool :=
  let d := (cyc + 2 ^ 32 - s.rd (F.CR_CYCLE_CYCLE n)) % 2 ^ 32
  !(s.node n).lastHeld || (decide (1 ≤ d) && decide (d < 2 ^ 31))

/-- The PRESENCE bit and the image for a copy of a CYCLE whose SFD ended at `sfd`: frozen at the first copy of a new CYCLE, until
PERIOD / 2 has passed (R277, R282). The first copy of a newer cycle is the reference of the acyclic window (R288). -/
def State.crFreeze (s : State) (n cyc sfd : Nat) : (Bool × List (Nat × List Byte)) × State :=
  let x := s.node n
  let here := s.crState n == 2 && s.crAllPublished n
  let y := { x with image := some ⟨cyc, s.raw, here, s.crImage n⟩ }
  let fresh := ((here, s.crImage n), s.setNode n (if s.crNewer n cyc then { y with ref := sfd, refs := x.refs + 1 } else y))
  match x.image with
  | none => fresh
  | some i => if i.cyc = cyc ∧ !reached s.raw (i.at_ + s.rd (F.CR_PERIOD_PERIOD n) * rawPerUs / 2) then ((i.here, i.data), s) else fresh

/-- The copy that a member forwards: its PRESENCE bit and its bytes in a matching copy. -/
def State.crForward (s : State) (n ch : Nat) (f : List Byte) : List Byte × State :=
  if !s.crMatch n ch f then (f, s)
  else
    let r := s.crFreeze n (copyCycle f) (s.sfdRaw f.length 40)
    (putImage (setPresence f (s.rd (F.CR_CFG_POS n)) r.1.1) r.1.2, r.2)

/-- CR_COPY_ACCEPT: a newer valid copy is accepted. -/
def State.crAccept (s : State) (n ch : Nat) (f : List Byte) : State :=
  let x := s.node n
  let cyc := copyCycle f
  let gap := (cyc + 2 ^ 32 - s.rd (F.CR_CYCLE_CYCLE n) - 1) % 2 ^ 32
  let s := if x.lastHeld then s.satAdd (F.CR_MISSED_MISSED n) gap else s
  let s := s.crChanOpen n
  let s := (s.wr (F.CR_CYCLE_CYCLE n) cyc).crRun n cyc
  let s := s.setNode n { s.node n with closed := true, lastHeld := true, lossFrom := s.sfdRaw f.length 40 }
  ((s.crGot n ch).crDeliver n ch f).crMissAll n (some f)

/-- CR_MEMBER_RX: a copy passes a member on a channel. -/
def State.crMemberRx (s : State) (n ch : Nat) (f : List Byte) (ok : Bool) : State :=
  if !(s.running && s.crOn n && s.crMember n && s.crChan n ch && s.crSum n f) then s
  else
    let p := 4 * n + 2 * ch + 1
    let out := 4 * n + 2 * ch
    let s := (s.crCut out).satAdd (F.CR_PORT_00_RX_SUM p) 1
    let r := s.crForward n ch f
    let s := if s.crOut n ch then r.2.portSend out r.1 ok else r.2
    let s := if ok || !s.crOut n ch then s else s.satAdd (F.CR_PORT_10_FWD_STOMP p) 1
    let s := if ok then s else s.satAdd (F.CR_PORT_04_RX_FCS p) 1
    if !s.crMatch n ch f then s.satAdd (F.CR_PORT_08_RX_HDR p) 1
    else if !ok then s
    else
      let d := (copyCycle f + 2 ^ 32 - s.rd (F.CR_CYCLE_CYCLE n)) % 2 ^ 32
      if s.crNewer n (copyCycle f) then s.crAccept n ch f
      else if d = 0 then (s.crGot n ch).satAdd (F.CR_PORT_0C_RX_DUP p) 1
      else s.satAdd (F.CR_PORT_0C_OLD p) 1

/-- CR_MEMBER_CYCLE_TIMEOUT: PERIOD + PERIOD / 8 has passed without an accepted copy. -/
def State.crMemberTimeout (s : State) (n : Nat) : State :=
  let x := s.node n
  let t := s.rd (F.CR_PERIOD_PERIOD n) * rawPerUs * 9 / 8
  if s.running && s.crMember n && s.crOn n && reached s.raw (x.lossFrom + t) then
    (((s.setNode n { x with lossFrom := x.lossFrom + t }).crChanOpen n).crChanEnd n).crLost n
  else s

/-! ## Acyclic frames (R286 to R290) -/

/-- Buffered forwarded frames of a channel. -/
def State.fwdBuf (s : State) (n ch : Nat) : List (List Byte) := Sparse.get s.car.fwd [] (2 * n + ch)

/-- Sets them. -/
def State.setFwd (s : State) (n ch : Nat) (q : List (List Byte)) : State :=
  { s with car := { s.car with fwd := Sparse.set s.car.fwd [] (2 * n + ch) q } }

/-- The receive stamp of a frame whose SFD ended at `sfd` and was captured `comp` clocks later (R263, Table 10-6). A frame that is no PTP
event message is not stamped: a free value stands in its record. [DESIGN CHOICE, safe: notes/assumptions/6.md] -/
def State.rxStamp (s : State) (f : List Byte) (sfd comp : Nat) : Nat × State :=
  if ptpEvent f then (s.ntCaptured sfd (sfd + comp), s)
  else
    let a := s.draw
    let b := a.2.draw
    (a.1.toNat + 2 ^ 64 * (b.1.toNat % 2 ^ 16), b.2)

/-- Delivers a frame to the oldest posted buffer of an engine with a receive opcode: SIZE limits it, the stamp is NT at its
SFD. None where no buffer is posted. -/
def State.rxDeliver (s : State) (e op : Nat) (f : List Byte) (sfd comp : Nat) : Option State :=
  match s.findOut e op (fun _ => true) with
  | none => none
  | some c =>
    let size := c.fld 8 0 11
    let st := s.rxStamp f sfd comp
    let s := st.2.outBuf c (c.addr 0x10) (f.take size)
    let res := [w32 (min f.length 2047 + 65536 * (st.1 % 65536)), w32 (st.1 / 2 ^ 16), w32 (st.1 / 2 ^ 48)]
    some (s.endLong c ⟨stOK, if size < f.length then 1 else 0, res⟩)

/-- A frame is delivered on an IN port, or dropped for lack of a posted buffer. -/
def State.crDeliverAcyc (s : State) (n ch : Nat) (f : List Byte) : State :=
  let p := 4 * n + 2 * ch + 1
  match s.rxDeliver (1 + p) 0x11 f (s.sfdRaw f.length 40) 118 with
  | some t => t.satAdd (F.CR_PORT_14_RX_ACYC p) 1
  | none => (s.satAdd (F.CR_PORT_18_ACYC_DROP p) 1).raise (crSrc n 7) [w32 (2 * ch + 1)]

/-- A frame enters the forwarding buffer of two frames, or is dropped. -/
def State.crBuffer (s : State) (n ch : Nat) (f : List Byte) : State :=
  let q := s.fwdBuf n ch
  if 2 ≤ q.length then s.satAdd (F.CR_PORT_18_ACYC_DROP (4 * n + 2 * ch + 1)) 1 else s.setFwd n ch (q ++ [f])

/-- CR_ACYC_RX (R286). -/
def State.crAcycRx (s : State) (n ch : Nat) (f : List Byte) (ok : Bool) : State :=
  if !(s.running && s.acts && s.crOn n && s.crChan n ch && !s.crSum n f) then s
  else if !ok then s.satAdd (F.CR_PORT_04_RX_FCS (4 * n + 2 * ch + 1)) 1
  else if frameSa f = s.crMac n then s
  else if frameDa f = s.crMac n then s.crDeliverAcyc n ch f
  else if frameFld f 0 1 % 2 = 1 then (s.crDeliverAcyc n ch f).crBuffer n ch f
  else s.crBuffer n ch f

/-- CR_ACYC_FORWARD: the oldest buffered frame of a channel is sent. -/
def State.crAcycForward (s : State) (n ch : Nat) : State :=
  let p := 4 * n + 2 * ch
  match s.fwdBuf n ch with
  | [] => s
  | f :: q =>
    if s.running && s.crOn n && s.crOut n ch && s.portNow p == none then
      ((s.setFwd n ch q).portSend p f true).setPortNow p (some (.forward s.raw f))
    else s

/-- The ring has an acyclic window, and a frame of `len` bytes fits it (R288, R290). -/
def State.crFits (s : State) (n len : Nat) : Bool :=
  let o := s.rd (F.CR_ACYC_OPEN n)
  let c := s.rd (F.CR_ACYC_CLOSE n)
  !(o == 0 && c == 0) && decide (crWire len + 2 * rawPerUs ≤ (c - o) * rawPerUs)

/-- The end of a CR_TX that fails its checks. -/
def State.crTxFails (s : State) (e : Nat) (c : Cmd) : Option Final :=
  let n := (e - 1) / 4
  let len := c.fld 8 0 11
  if !(c.headerOk && c.fld 8 11 5 == 0 && c.fld 8 17 7 == 0 && c.word 0xC == 0 && c.fld 0x14 8 24 == 0 && c.zeroFrom 0x18) ||
      (e - 1) % 2 != 0 || decide (len < 60) || decide (1514 < len) || s.rd (F.CR_CFG_ROLE n) == 0 ||
      !State.engineMayRead (c.addr 0x10) len then some finBad
  else if !s.crFits n len then some ⟨stBudget, 0, []⟩
  else none

/-- CR_TX is taken: it remembers the ring's references so far and whether its port has had link. -/
def State.crTx (s : State) (p : Nat) : State :=
  s.doLong (1 + p) 0x10 (fun c s =>
    s.setOut { c with aux := [(s.node (p / 4)).refs, b2n (s.crLink (p / 4) (p % 4))] })

/-- Windows that have passed since a CR_TX was taken. -/
def State.crPassed (s : State) (n : Nat) (c : Cmd) : Nat :=
  let x := s.node n
  let first := max 1 (c.aux.headD 0)
  if x.refs < first then 0 else (x.refs - first) + b2n (reached s.raw (x.ref + s.rd (F.CR_ACYC_CLOSE n) * rawPerUs))

/-- What a port sends is a command's own frame. -/
def TxNow.isOwn (c : Cmd) : TxNow → Bool
  | .own r p _ _ => r == c.ring && p == c.pos
  | .forward _ _ => false

/-- A CR_TX has waited through the window of acceptance and AGE further ones. -/
def State.crOld (s : State) (n : Nat) (c : Cmd) : Bool := decide (c.fld 8 24 8 < s.crPassed n c)

/-- CR_TX_EXPIRY: the window of acceptance and AGE further ones have passed without a start, for the first frame of which that holds. -/
def State.crTxExpiry (s : State) (p : Nat) : State :=
  match (s.outOf (1 + p)).find? (fun c => c.opcode == 0x10 && !((s.portNow p).any (TxNow.isOwn c)) && s.crOld (p / 4) c) with
  | none => s
  | some c =>
    if s.running then
      s.endLong c ⟨if c.aux.getD 1 0 = 0 then stPortNotReady else stMissedWindow, 0, []⟩
    else s

/-- The window of a ring is open for a frame of `len` bytes. -/
def State.crWindow (s : State) (n len : Nat) : Bool :=
  let x := s.node n
  decide (0 < x.refs) && reached s.raw (x.ref + s.rd (F.CR_ACYC_OPEN n) * rawPerUs) &&
    reached (x.ref + s.rd (F.CR_ACYC_CLOSE n) * rawPerUs) (s.raw + crWire len + 2 * rawPerUs)

/-- CR_TX_START: the oldest own frame of an OUT port starts in the window; its SFD is stamped where it asks for one. -/
def State.crTxStart (s : State) (p : Nat) : State :=
  let n := p / 4
  match s.findOut (1 + p) 0x10 (fun _ => true) with
  | none => s
  | some c =>
    let len := c.fld 8 0 11
    if !(s.running && s.crOn n && s.crOut n (p % 4 / 2) && s.portNow p == none && s.fwdBuf n (p % 4 / 2) == [] && s.crWindow n len && !s.crOld n c) then s
    else
      let chk := s.readCheck (c.addr 0x10) len (1 + p)
      if !chk.1 then chk.2.endLong c ⟨stInternal, 0, []⟩
      else
        let f := s.bytes (c.addr 0x10) len
        let s := (chk.2.portSend p f true).setPortNow p (some (.own c.ring c.pos s.raw f))
        if c.fld 8 16 1 = 1 then s.tsqStamp p c.tag (s.raw + 320) else s

/-- TX_FRAME_END at a car-ring port. -/
def State.crTxEnd (s : State) (p : Nat) : State :=
  match s.portNow p with
  | some (.own r q t f) =>
    if !reached s.raw (t + crWire f.length) then s
    else (match s.findOut (1 + p) 0x10 (fun c => c.ring == r && c.pos == q) with
      | none => s.setPortNow p none
      | some c => ((s.setPortNow p none).satAdd (F.CR_PORT_1C_TX_ACYC p) 1).endLong c (finOk []))
  | _ => s

/-- The end of a CR_RX_POST that fails its checks. -/
def State.crRxFails (s : State) (e : Nat) (c : Cmd) : Option Final :=
  let size := c.fld 8 0 11
  if !(c.headerOk && c.fld 8 11 21 == 0 && c.word 0xC == 0 && c.fld 0x14 8 24 == 0 && c.zeroFrom 0x18) || (e - 1) % 2 != 1 ||
      decide (size < 64) || decide (1518 < size) || s.rd (F.CR_CFG_ROLE ((e - 1) / 4)) == 0 || c.addr 0x10 % 64 != 0 ||
      !s.engineMayWrite (c.addr 0x10) size then some finBad
  else none

/-- CR_STATUS. -/
def runCrStatus (n : Nat) (c : Cmd) (s : State) : State × Final :=
  if !(c.headerOk && c.word 8 == 0 && c.word 0xC == 0 && c.fld 0x14 8 24 == 0 && c.zeroFrom 0x18) || c.addr 0x10 % 64 != 0 ||
      s.rd (F.CR_CFG_ROLE n) == 0 || !s.engineMayWrite (c.addr 0x10) 144 then (s, finBad)
  else
    let ws := [s.reg (Reg.CR_CYCLE n), s.reg (Reg.CR_STATE n), s.reg (Reg.CR_MISSED n), s.reg (Reg.CR_RTT n)] ++
      (List.range 32).map (fun w => s.reg (Reg.CR_MISS n w))
    (s.outBuf c (c.addr 0x10) (wordBytes ws), finOk [])

/-! ## Links, start and stop -/

/-- CR_LINK_CHANGE: a port gains or loses link; waiting CR_TX commands have seen it. -/
def State.crLinkChange (s : State) (p : Nat) (up : Bool) : State :=
  let n := p / 4
  let m := p % 4
  if s.crLink n m == up then s
  else
    let s := s.wr ⟨Reg.CR_STATE n, 4 + m, 1⟩ (b2n up)
    let s := if up then (s.outOf (1 + p)).foldl (fun t c => t.setOut { c with aux := [c.aux.headD 0, 1] }) s else s.setPortNow p none
    s.raise (crSrc n 6) [w32 (m + 256 * b2n up)]

/-- The rings start at SETUP_LOCK, or after Kindle, where `kindle` keeps a master's CYCLE (Table 11-6). -/
def State.crStart (s : State) (kindle : Bool) : State :=
  (List.range 3).foldl (fun t n =>
    if t.rd (F.CR_CFG_ROLE n) = 0 then t
    else
      let t := (t.wr (F.CR_STATE_STATE n) 1).setNode n { carZero with
        lossFrom := t.raw, refs := if kindle then (t.node n).refs else 0, ref := if kindle then (t.node n).ref else 0 }
      if t.crMaster n && !kindle then t.wr (F.CR_CYCLE_CYCLE n) 0xFFFFFFFF else t) s

/-- The rings stop: safe state, E2 or E3. -/
def State.crStop (s : State) : State :=
  let s := (List.range 3).foldl (fun t n => t.wr (F.CR_STATE_STATE n) 0) s
  { s with car := { s.car with fwd := [] }, ports := { s.ports with now := s.ports.now.filter (fun p => decide (12 ≤ p.1)) } }

/-- A write to CR_CLR of a ring (R294). -/
def State.crClear (s : State) (n : Nat) (w : Word) : State :=
  if w.getLsbD 0 then
    let s := (s.wr (F.CR_MISSED_MISSED n) 0).wr (F.CR_RTT_MAX n) 0
    (List.range 4).foldl (fun t m =>
      (List.range 8).foldl (fun t k => t.setReg (Reg.CR_PORT_00 (4 * n + m) + 4 * k) 0) t) s
  else s

/-! ## The setup check (R292) -/

/-- A read or write entry breaks code 0x5. -/
def State.sliceBad (s : State) (n e : Nat) : Bool :=
  let o := s.rd (F.CR_SLC_OFFSET n e)
  let l := s.rd (F.CR_SLC_LEN n e)
  let pos := s.rd (F.CR_SLC_POS n e)
  let me := s.rd (F.CR_CFG_POS n)
  l == 0 || decide (s.rd (F.CR_LEN_SLICE_LEN n) < o + l) ||
    (if s.rd (F.CR_SLC_DIR n e) = 1 then
      pos != me || (s.slices n 1).any (fun k => k != e && overlaps (o, l) (s.rd (F.CR_SLC_OFFSET n k), s.rd (F.CR_SLC_LEN n k)))
    else if s.crMaster n then pos == 0 else decide (me ≤ pos))

/-- A check of one code fails for a ring. -/
def State.crFails (s : State) (code n : Nat) : Bool :=
  let role := s.rd (F.CR_CFG_ROLE n)
  let pos := s.rd (F.CR_CFG_POS n)
  let per := s.rd (F.CR_PERIOD_PERIOD n)
  let g := s.rd (F.CR_MASTER_PTO n)
  let len := s.rd (F.CR_LEN_SLICE_LEN n)
  let et := s.rd (F.CR_ETYPE_ETYPE n)
  let tmo := s.rd (F.CR_MASTER_RET_TMO n)
  let o := s.rd (F.CR_ACYC_OPEN n)
  let c := s.rd (F.CR_ACYC_CLOSE n)
  match code with
  | 1 => role == 3 || (!s.crChan n 0 && !s.crChan n 1)
  | 2 => if role = 2 then pos != 0 else pos == 0 || decide (125 < pos)
  | 3 =>
    decide (per < 250) || decide (16000 < per) ||
      (role == 2 && (s.rd (F.PTO_CTL_MODE g) != 2 || s.on (F.PTO_CTL_ARM_EN g) ||
        s.ptoPer g != per * (if s.on (F.PTO_CTL_BASE g) then 1000 else 500)))
  | 4 => decide (len < 20) || decide (1474 < len) || decide (et < 0x600) || et == 0x88F7 || s.crMac n == 0 || bits (s.crMac n) 40 1 == 1
  | 5 => (s.slices n 0 ++ s.slices n 1).any (s.sliceBad n)
  | 6 => role == 2 && (decide (tmo * 1000 < (52 + len) * 80) || decide (per < tmo + 10))
  | _ => !(o == 0 && c == 0) && (decide (c ≤ o) || decide (per < c + 10) || (role == 2 && decide (o < tmo)))

/-- The CR block's check, its first failure recorded. -/
def State.crSetupCheck (s : State) : Bool × State :=
  match ((List.range 3).flatMap (fun n => (List.range 7).map (fun k => (k + 1, n)))).find? (fun x =>
    s.rd (F.CR_CFG_ROLE x.2) != 0 && s.crFails x.1 x.2) with
  | none => (true, s)
  | some (k, n) =>
    (false, (((s.wr F.CR_STAT_CFG_ERR 1).wr F.CR_STAT_CFG_CODE k).wr F.CR_STAT_CFG_RING n).raise 152 [w32 (k + 256 * n)])

end Machine
end Sys2Proof
end

