-- ==== Sys2Proof/Machine/FieldOps.lean ====
section
/-!
DEFINITION. The Field Engine's links and frames and what an island does with them: outputs, function changes, re-arming,
alignment and the link state machine (chapters 16 and 17).
-/

namespace Sys2Proof
namespace Machine

/-! ## Current loops: schedule and resets (R448 to R454) -/

/-- Results per output period in modulator periods: 1 result of N periods, ×2 with a FIR stage, ×3 single-cycle (R449, R450). -/
def State.aiPeriod (s : State) (c : Nat) : Nat :=
  let n := 64 * 2 ^ s.rd (F.FLD_AIL_SINC c)
  let k := if s.rd (F.FLD_AIL_FIR c) ≠ 0 then 2 else if s.on (F.FLD_AIL_SCS c) then 3 else 1
  n / 32 * 3125 * k

/-- The number of the first settled result after a reset (R451). -/
def State.aiSettled (s : State) (c : Nat) : Nat :=
  match s.rd (F.FLD_AIL_FIR c) with
  | 1 => 17
  | 2 => 33
  | _ => if s.on (F.FLD_AIL_SCS c) then 1 else 3

/-- TB_RAW at which a channel's next result completes: on its schedule, after its reset and its last result. -/
def State.aiNext (s : State) (c : Nat) : Nat :=
  let a := s.ai c
  let p := s.aiPeriod c
  a.base + (max (a.doneRaw + p / 2) (max a.resetAt a.base) - a.base) / p * p + p

/-- The chain of a channel is reset at an instant. -/
def Ai.reset (a : Ai) (t : Nat) : Ai := { a with base := t, resetAt := t, count := 0, settling := true, valid := false }

/-- Modulator periods of 97.65625 counts: two of them. -/
def alignTol : Nat := 195

/-- At t_r a channel takes the new schedule: retained where its old one had a result within two modulator periods of one of
the new one's, else reset (R454). -/
def State.aiAlign (s : State) (c t : Nat) (changed : Bool) : State :=
  let a := s.ai c
  let p := s.aiPeriod c
  let d := (t + p - a.base % p) % p
  if !s.on (F.FLD_AIL_ALIGN_EN c) || s.rd (F.FLD_AIL_MODE c) == 0 then s
  else if a.aligned && !changed && (decide (d ≤ alignTol) || decide (p ≤ d + alignTol)) then s.setAi c { a with base := t }
  else s.setAi c { a.reset t with aligned := true }

/-- TB_RAW of the alignment instant of an event at t: the end of the first frame that starts at least 1 µs later (R453). -/
def alignInstant (t : Nat) : Nat := (t + 500 + 3999) / 4000 * 4000 + frameLen

/-- An alignment instant has been reached: FLD_AI_ALIGN, SYNCS and FLD_AI_SYNCED. -/
def State.alignDone (s : State) : State :=
  match s.fld.alignAt with
  | none => s
  | some t =>
    let n := s.ntFullAt t / 2 ^ 40 % 2 ^ 64
    let s := { s with fld := { s.fld with alignAt := none } }
    ((s.wr64 Reg.FLD_AI_ALIGN_LO Reg.FLD_AI_ALIGN_HI n).satAdd F.FLD_AI_SYNC_STAT_SYNCS 1).raise 376 [w32 n, w32 (n / 2 ^ 32)]

/-- The alignment instant still to come, if any. -/
def State.alignPending (s : State) : Option Nat :=
  match s.fld.align, s.fld.alignAt with
  | some t, _ => some (alignInstant t)
  | none, some t => if s.raw < t then some t else none
  | none, none => none

/-- An alignment event from a source (1 SYNC_IN, 2 generator, 3 command) at TB_RAW t, merged into one that is pending. -/
def State.alignEvent (s : State) (src t : Nat) : State :=
  match s.alignPending with
  | some _ => (s.satAdd F.FLD_AI_SYNC_STAT_MERGED 1).raise 377 [w32 src]
  | none => let s := s.alignDone; { s with fld := { s.fld with align := some t } }

/-! ## Commands under way on an island -/

/-- Opcodes of the Field Engine's long commands. -/
def opSetFunc : Nat := 0x11
def opCapture : Nat := 0x16
def opFsk : Nat := 0x17

/-- ISLAND and CH of a Field Engine command. -/
def Cmd.island (c : Cmd) : Nat := c.fld 8 0 6
def Cmd.chan (c : Cmd) : Nat := c.fld 8 8 4

/-- The function change that an island runs: the first outstanding one. Its `aux` holds the number of its next frame. -/
def State.funcChange (s : State) (i : Nat) : Option Cmd := s.findOut 0x14 opSetFunc (fun c => c.island == i)

/-- Next frame of a function change. -/
def Cmd.stage (c : Cmd) : Nat := c.aux.headD 1

/-- The FUNC_BUSY mask of an island: its channels with an outstanding FLD_SET_FUNC (R430). -/
def State.busyMask (s : State) (i : Nat) : Nat :=
  mask16 (fun j => (s.outOf 0x14).any (fun c => c.opcode == opSetFunc && c.island == i && c.chan == j))

/-- The long command that runs on a current-loop channel: the first outstanding capture or transfer (R459). -/
def State.aiCmd (s : State) (c : Nat) : Option Cmd :=
  (s.outOf 0x14).find? (fun d => (d.opcode == opCapture || d.opcode == opFsk) && d.island == 24 + c / 2 && d.chan == c % 2)

/-- Final results of a capture and of a transfer as far as it has come. A capture's `aux` holds the results written and whether
one had CAL_AGED; a transfer's holds its phase (0 none, 1 sending, 2 awaiting carrier, 3 receiving), TB_RAW of the start
of sending or of the wait, characters received, low NT of the carrier, and whether a character was in error. -/
def Cmd.loopRes (d : Cmd) : List Word :=
  if d.opcode = opCapture then [w32 (d.aux.getD 0 0)] else [w32 (d.aux.getD 2 0), w32 (d.aux.getD 3 0)]

/-- Starts the command that runs next on a current-loop channel, a transfer by sending or by listening (R455, R459). -/
def State.aiStart (s : State) (c : Nat) : State :=
  match s.aiCmd c with
  | none => s
  | some d =>
    if d.aux ≠ [] then s
    else if d.opcode = opCapture then s.setOut { d with aux := [0, 0] }
    else
      let n := d.fld 8 16 8
      if n = 0 then
        if (s.ai c).cd then s.setOut { d with aux := [3, s.raw, 0, s.ntNs % 2 ^ 32, 0] } else s.setOut { d with aux := [2, s.raw, 0, 0, 0] }
      else
        let rd := s.readCheck (d.addr 0x10) n 0x14
        if !rd.1 then rd.2.endLong d ⟨stInternal, 0, [0, 0]⟩
        else if (s.ai c).cd then rd.2.endLong d ⟨stLostArb, 0, [0, 0]⟩
        else rd.2.setOut { d with aux := [1, s.raw, 0, 0, 0] }

/-- Commands of a channel start one after the other while the one started ends at once; `fuel` bounds them. -/
def State.aiRun (s : State) (c : Nat) : Nat → State
  | 0 => s
  | fuel + 1 =>
    let t := s.aiStart c
    if (t.aiCmd c).any (fun d => d.aux == []) then t.aiRun c fuel else t

/-- The next command of a current-loop channel runs, where none does. -/
def State.aiGoOn (s : State) (c : Nat) : State := s.aiRun c (s.outOf 0x14).length

/-- Ends the command that runs on a channel; the next one starts. -/
def State.aiEnd (s : State) (c : Nat) (d : Cmd) (f : Final) : State := (s.endLong d f).aiGoOn c

/-- Ends every capture and transfer of a channel with PORT_NOT_READY; `p` selects. -/
def State.aiAbort (s : State) (c : Nat) (p : Cmd → Bool) : State :=
  (s.outOf 0x14).foldl (fun t d =>
    if (d.opcode = opCapture ∨ d.opcode = opFsk) ∧ d.island = 24 + c / 2 ∧ d.chan = c % 2 ∧ p d then
      t.endLong d ⟨stPortNotReady, 0, d.loopRes⟩
    else t) s

/-! ## Link state machine (R414, Table 16-4) -/

/-- Raises FLD_LINK of an island: fault or restored, and who saw it first. [DEDUCED, unsafe: notes/assumptions/63.md] -/
def State.linkEvent (s : State) (i : Nat) (fault byIsland : Bool) : State :=
  s.raise (256 + i) [w32 (b2n fault + 2 * b2n byIsland + 256 * s.rd (F.FLD_LNK_FAULTS i))]

/-- ALIGNED := 0 on the channels of an AI island whose link leaves Running. -/
def State.unalign (s : State) (i : Nat) : State :=
  if isAi i then
    let c := 2 * (i - 24)
    (s.setAi c { s.ai c with aligned := false }).setAi (c + 1) { s.ai (c + 1) with aligned := false }
  else s

/-- The commands that a link's fault ends (Tables 16-17 and 17-9). -/
def State.linkAbort (s : State) (i : Nat) : State :=
  (s.outOf 0x14).foldl (fun t d =>
    if d.island = i ∧ d.opcode = opSetFunc then t.endLong d ⟨stPortNotReady, 0, [t.reg (if isAi i then Reg.FLD_AIL (2 * (i - 24) + d.chan) else Reg.FLD_DIO (i - 16) d.chan)]⟩
    else if d.island = i ∧ (d.opcode = opCapture ∨ d.opcode = opFsk) then t.endLong d ⟨stPortNotReady, 0, d.loopRes⟩
    else t) s

/-- A link enters Fault. -/
def State.linkFault (s : State) (i : Nat) (byIsland : Bool) : State :=
  let x := s.isl i
  let s := s.setIsl i { x with outEnd := none, upOk := 0, rearmMask := 0, rearmGroup := false }
  let s := ((s.setLink i lnFault).satAdd (F.FLD_LNK_FAULTS i) 1).linkEvent i true byIsland
  let s := (s.unalign i).linkAbort i
  match s.fld.offp with
  | some o => if 16 + o.chan / 16 = i then { s with fld := { s.fld with offp := none } } else s
  | none => s

/-- A link enters Loading. [DEDUCED, unsafe: notes/assumptions/60.md] -/
def State.linkLoad (s : State) (i : Nat) : State :=
  (s.setIsl i { s.isl i with cfgSent := 0, ack := false }).setLink i lnLoading

/-- Transitions that a valid uplink frame of a TYPE brings; `at_` is TB_RAW at its start. -/
def State.linkHeard (s : State) (i ty at_ : Nat) : State :=
  let x := s.isl i
  let st := s.link i
  if st = lnHeld then
    if x.go ∧ s.islEn i ∧ x.upOk = 3 then s.linkLoad i else s
  else if st = lnLoading then
    if ty = 1 then (s.setIsl i { x with outEnd := none, fresh := true }).setLink i lnRunning else s
  else if st = lnRunning then
    match x.outEnd with
    | some e => if ty = 2 ∧ e ≤ at_ then s.linkFault i true else s
    | none => s
  else if st = lnFault then
    if x.upOk = 3 then
      if s.on (F.FLD_ISL_MANUAL i) then
        ((s.setIsl i { x with go := false }).setLink i lnHeld).linkEvent i false false
      else (s.linkLoad i).linkEvent i false false
    else s
  else s

/-! ## Downlink frames (R412) -/

/-- Safety outputs whose permit is 0: every enabled OUTx of an enabled block (R472). -/
def State.safGated (s : State) : List Nat :=
  (List.range 32).flatMap (fun n =>
    if s.on (F.SAF_BCTL_EN n) then
      (if s.on (F.SAF_BOUT_OUT1_EN n) && !s.on (F.SAF_BSTAT_PERMIT1 n) then [s.rd (F.SAF_BOUT_OUT1 n)] else []) ++
        (if s.on (F.SAF_BOUT_OUT2_EN n) && !s.on (F.SAF_BSTAT_PERMIT2 n) then [s.rd (F.SAF_BOUT_OUT2 n)] else [])
    else [])

/-- The 16-bit word of channel j of an output record. -/
def recWord (rec : List Byte) (j : Nat) : Nat := leNat ((rec.drop (2 * j)).take 2)

/-- SET of channel j in the next OUTPUT frame of group g: 0 where a gate, an off-pulse or a function change holds it, kept
where a function change waits, else the record's. `gated` are the safety outputs without a permit. -/
def State.setOf (s : State) (gated : List Nat) (g j : Nat) : Nat :=
  let i := 16 + g
  let off : Bool := match s.fld.offp with
    | some o => o.chan == 16 * g + j && decide (0 < o.left)
    | none => false
  let r := bits (recWord (s.isl i).out j) 0 10
  if gated.contains (16 * g + j) || off then 0
  else match s.funcChange i with
    | some d => if d.chan = j then (if d.stage = 3 then r else 0)
      else if bits (s.busyMask i) j 1 = 1 then (s.dio g j).set else r
    | none => r

/-- The content of an OUTPUT frame. -/
def State.outSets (s : State) (gated : List Nat) (i : Nat) : List Nat :=
  if isDio i then sixteen.map (s.setOf gated (i - 16))
  else if isAi i then [recWord (s.isl i).out 0 % 2, recWord (s.isl i).out 0 / 2 % 2]
  else []

/-- Channels whose REARM goes from 0 in the record sent last to 1 in the one sent now (R421). [DEDUCED, unsafe: notes/assumptions/60.md] -/
def rearmEdges (rec : List Byte) (old : Nat) : Nat := mask16 (fun j => bits (recWord rec j) 10 1 == 1 && bits old j 1 == 0)

/-- REARM bits of a record. -/
def rearmBits (rec : List Byte) : Nat := mask16 (fun j => bits (recWord rec j) 10 1 == 1)

/-- An FSK transfer is in progress on an AI island (R540). -/
def State.fskBusy (s : State) (i : Nat) : Bool :=
  (s.outOf 0x14).any (fun d => d.opcode == opFsk && d.island == i && d.aux.headD 0 != 0)

/-- A recalibration of an item of an island is under way, or waits for the MP to start it (R545, R547). -/
def State.calFrames (s : State) (i : Nat) : Bool :=
  s.mp.calPending.any (fun p => calIsland p.1 == i && (p.2.isSome || s.mayTest))

/-- The MP starts a self-test of an island: ISL_EN, and ISL_PERIOD seconds since the last one began (Table 21-1). -/
def State.selfTestDue (s : State) (i : Nat) : Bool :=
  s.on F.IST_CFG_ISL_EN && s.mayTest && (match (s.isl i).testRtc with
    | some r => decide (s.rd F.IST_CFG_ISL_PERIOD * 32768 ≤ s.rtcSince r)
    | none => true)

/-- A TEST frame has work on an island: a self-test of four steps, in progress or due, or a recalibration's measurement. [DESIGN CHOICE, unsafe: notes/assumptions/92.md] -/
def State.testWork (s : State) (i : Nat) : Bool := decide (0 < (s.isl i).testLeft) || s.selfTestDue i || s.calFrames i

/-- What the MP notes as a TEST frame goes out: a self-test that begins or goes on, and measurements that begin. -/
def State.testSent (s : State) (i step : Nat) : State :=
  let x := s.isl i
  let x := { x with sinceTest := 0, testStep := (step + 1) % 4 }
  let s := s.setIsl i (if 0 < x.testLeft then { x with testLeft := x.testLeft - 1 }
    else if s.selfTestDue i then { x with testLeft := 3, testRtc := some s.pwr.rtc.toNat } else x)
  { s with mp := { s.mp with calPending := s.mp.calPending.map (fun p =>
    if calIsland p.1 = i then (p.1, some (p.2.getD s.pwr.rtc.toNat)) else p) } }

/-- An idle frame of a Running link, which may carry a TEST frame (R539, R540). -/
def State.idleFrame (s : State) (i : Nat) : Bool :=
  let x := s.isl i
  s.link i == lnRunning && !x.fresh && x.outEnd.isSome && x.rearmMask == 0 && !x.rearmGroup && (s.funcChange i).isNone &&
    !(isAi i && (s.fld.align.isSome || s.fld.alignAt.isSome)) && decide (16 ≤ x.sinceTest) &&
    (!isAi i || (s.fld.seq % 2 == 1 && !s.fskBusy i)) &&
    !(match s.fld.offp with
      | some o => 16 + o.chan / 16 == i
      | none => false)

/-- A channel of a DIO island is being pulsed: a function change of it begins after the pulse's last frame (R558). -/
def State.pulsed (s : State) (i ch : Nat) : Bool :=
  match s.fld.offp with
  | some o => isDio i && o.chan == 16 * (i - 16) + ch && decide (0 < o.left)
  | none => false

/-- The content of a Running link's next frame, with the stage of a function change it is. [DEDUCED, unsafe: notes/assumptions/60.md] -/
def State.runContent (s : State) (gated : List Nat) (test : Bool) (i : Nat) : DownKind × Nat :=
  let x := s.isl i
  if x.rearmMask ≠ 0 ∨ x.rearmGroup then (.rearm x.rearmMask x.rearmGroup, 0)
  else match s.funcChange i with
    | some d =>
      if s.pulsed i d.chan then (.output (s.outSets gated i), 0)
      else if d.stage = 2 then (.change d.chan (w32 (d.word 0xC)) (w32 (d.word 0x10)), 2) else (.output (s.outSets gated i), d.stage)
    | none => if test ∧ s.idleFrame i ∧ s.testWork i then (.test x.testStep, 0) else (.output (s.outSets gated i), 0)

/-- What sending a frame changes at the Field Engine's side. -/
def State.sentContent (s : State) (i : Nat) (k : DownKind) : State :=
  let x := s.isl i
  match k with
  | .output _ =>
    let edges := if isDio i && x.fresh then rearmEdges x.out x.rearmed else 0
    s.setIsl i { x with
      fresh := false, outEnd := some (x.outEnd.getD (s.fld.frameRaw + frameLen))
      rearmed := if x.fresh then rearmBits x.out else x.rearmed, rearmMask := x.rearmMask ||| edges }
  | .rearm .. => s.setIsl i { x with rearmMask := 0, rearmGroup := false }
  | .test k => s.testSent i k
  | _ => s

/-- TYPE of an island's uplink frame of this slot. -/
def Island.upType (x : Island) (test : Bool) : Nat := if test then 3 else if x.ack then 1 else if x.safe then 2 else 0

/-- The frame is a TEST frame. -/
def DownKind.isTest : DownKind → Bool
  | .test _ => true
  | _ => false

/-- The SYNC byte of a downlink frame ends: the island takes its input record and starts its uplink frame (R411). [DEDUCED, unsafe: notes/assumptions/60.md] -/
def State.upStart (s : State) (i : Nat) : State :=
  let x := s.isl i
  match x.down with
  | none => s
  | some f =>
    let ty := x.upType f.kind.isTest
    s.setIsl i { x with
      ack := false
      up := some ⟨ty, decide (3 ≤ x.downOk), s.fld.seq, upPayload i (s.islRecord i (s.busyMask i) s.raw) s.fld.seq ty, s.raw, BitVec.ofNat 64 s.ntNs⟩ }

/-- The SYNC bytes of this slot's downlink frames end. -/
def State.upsStart (s : State) : State := allIslands.foldl State.upStart s

/-- A downlink frame of this slot goes out to an island. -/
def State.downSend (s : State) (i : Nat) (k : DownKind) (align : Bool) (stage : Nat) : State :=
  s.setIsl i { s.isl i with down := some ⟨k, align, stage, s.fld.seq, s.downPayload i align k⟩ }

/-- A downlink frame starts on a link that runs; a link whose fourth CONFIG frame brought no acknowledgement goes to Fault. [DESIGN CHOICE, safe: notes/assumptions/59.md] -/
def State.frameStart (s : State) (gated : List Nat) (align test : Bool) (i : Nat) : State :=
  let s := s.setIsl i { s.isl i with sinceTest := min ((s.isl i).sinceTest + 1) 16 }
  let s := if s.link i = lnLoading ∧ 4 ≤ (s.isl i).cfgSent then s.linkFault i false else s
  let st := s.link i
  let al := align && isAi i && s.islEn i
  if st = lnOff then s
  else if st = lnRunning then
    let k := s.runContent gated test i
    (s.sentContent i k.1).downSend i k.1 al k.2
  else if st = lnLoading then (s.setIsl i { s.isl i with cfgSent := (s.isl i).cfgSent + 1 }).downSend i .load al 0
  else s.downSend i .safe al 0

/-- An alignment event at least 1 µs old waits for a frame (R453). -/
def State.alignDue (s : State) : Bool :=
  match s.fld.align with
  | some t => decide (t + 500 ≤ s.raw)
  | none => false

/-- The frames of all links start: the grid of R448. An alignment event at least 1 µs old goes with them; a channel's off-pulse
counts its frames. `tests` are the islands offered a TEST frame. -/
def State.framesStart (s : State) (tests : List Nat) : State :=
  let s := s.alignDone
  let s := { s with fld := { s.fld with frameRaw := s.raw, seq := (s.fld.seq + 1) % 16 } }
  let al := s.alignDue
  let s := if al then { s with fld := { s.fld with align := none, alignAt := some (s.raw + frameLen) } } else s
  let gated := s.safGated
  let s := allIslands.foldl (fun t i => t.frameStart gated al (tests.contains i) i) s
  match s.fld.offp with
  | some o =>
    { s with fld := { s.fld with offp := some { o with left := o.left - 1, start := some (o.start.getD s.raw) } } }
  | none => s

/-! ## What an island does with a frame (R411) -/

/-- A channel's PWM periods start j/16 of a period after an instant. -/
def State.pwmStart (s : State) (g j t : Nat) : State :=
  let p := s.pwmPeriod g j
  s.setDio g j { s.dio g j with duty := 0, perDuty := 0, perAt := t, perNext := t + j * p / 16 }

/-- A DIO island applies the SET of a channel. -/
def State.applySet (s : State) (g j v : Nat) : State :=
  let was := s.dioOn g j
  let sum := s.onTime g j
  let s := s.setDio g j ((s.dio g j).put v s.raw)
  if s.dioFunc g j = 1 ∨ was = s.dioOn g j then s
  else if was then s.setDio g j { s.dio g j with offFrom := s.raw, onSum := sum }
  else s.setDio g j { s.dio g j with onFrom := s.raw }

/-- A DIO island applies the SETs of an OUTPUT frame. -/
def State.applySets (s : State) (g : Nat) (sets : List Nat) : State :=
  sixteen.foldl (fun t j => t.applySet g j (sets.getD j 0)) s

/-- Re-arming of a channel: LATCHED and the retry count clear; it starts when it has cooled (R424). -/
def Dio.rearm (d : Dio) (raw : Nat) : Dio :=
  { d with latched := false, shuts := 0, onSum := 0, retryAt := raw, shut := d.shut && d.thermal, onFrom := raw }

/-- A DIO island re-arms channels and, with GROUP, its group. -/
def State.applyRearm (s : State) (g mask : Nat) (group : Bool) : State :=
  let s := sixteen.foldl (fun t j => if bits mask j 1 = 1 then t.setDio g j ((t.dio g j).rearm t.raw) else t) s
  if group && (s.isl (16 + g)).grpTrip then
    let s := s.setIsl (16 + g) { s.isl (16 + g) with grpTrip := false }
    sixteen.foldl (fun t j => if t.dioOn g j then t.setDio g j { t.dio g j with onFrom := t.raw } else t) s
  else s

/-- A configured DIO channel's settings take effect at a frame end. -/
def State.dioTake (s : State) (g j t : Nat) : State := if s.dioFunc g j = 1 then s.pwmStart g j t else s

/-- An AI channel is configured for the first time since power-up: its chain starts. -/
def State.aiTake (s : State) (c t : Nat) : State := s.setAi c ((s.ai c).reset t)

/-- The configuration of an island is complete at a frame end. -/
def State.applyLoad (s : State) (i t : Nat) : State :=
  let x := s.isl i
  let s := if isDio i then sixteen.foldl (fun u j => u.dioTake (i - 16) j t) s
    else if isAi i && !x.conf then (s.aiTake (2 * (i - 24)) t).aiTake (2 * (i - 24) + 1) t
    else s
  s.setIsl i { s.isl i with conf := true, ready := true, ack := true }

/-- Final record of a function change with word 0 in force. -/
def State.funcDone (s : State) (i : Nat) (d : Cmd) : State :=
  s.endLong d (finOk [s.reg (if isAi i then Reg.FLD_AIL (2 * (i - 24) + d.chan) else Reg.FLD_DIO (i - 16) d.chan)])

/-- MODE, SINC, FIR and SCS of a word 0 of FLD_AIL. -/
def aiChain (w : Nat) : Nat × Nat := (bits w 0 2, bits w 2 6)

/-- The detections of a channel whose conditions no longer hold end (R438, R442). -/
def State.aiKeep (s : State) (c : Nat) : State :=
  let a := s.ai c
  let w := s.aiWatched c
  s.setAi c { a with
    openLoop := a.openLoop && w && s.on (F.FLD_AIL_OPEN_EN c), compliance := a.compliance && w && s.on (F.FLD_AIL_COMP_EN c)
    supLimit := a.supLimit && !s.aiSupOff c, park := a.park && s.on (F.FLD_AIL_MULTIDROP c) }

/-- Frame 2 of a function change ends at an AI channel (R457). -/
def State.aiChange (s : State) (c t : Nat) (align : Bool) (w0 w1 : Word) : State :=
  let old := (s.reg (Reg.FLD_AIL c)).toNat
  let changed := aiChain old != aiChain w0.toNat
  let s := ((s.setReg (Reg.FLD_AIL c) w0).setReg (Reg.FLD_AIL1 c) w1).aiKeep c
  let s := if changed then (s.setAi c { (s.ai c).reset t with aligned := false }).aiAbort c (fun d => d.opcode == opCapture) else s
  let s := s.aiAbort c (fun d => d.opcode == opFsk && (bits w0.toNat 9 1 == 0 || bits w0.toNat 0 2 == 0))
  let s := if bits w0.toNat 0 2 = 0 then s.aiAbort c (fun _ => true) else s
  let s := if align then s.aiAlign c t changed else s
  s.aiGoOn c

/-- Frame 1 of a function change ends at an AI channel: its supply goes off where MODE goes into or out of two-wire, and an FSK
transmission ends (R457). -/
def State.aiCut (s : State) (c : Nat) (w0 : Nat) : State :=
  let s := if (s.rd (F.FLD_AIL_MODE c) == 1) != (bits w0 0 2 == 1) then (s.setAi c { s.ai c with cut := true }).aiKeep c else s
  (s.aiAbort c (fun d => d.opcode == opFsk && d.aux.headD 0 == 1)).aiGoOn c

/-- SUP_OFF of an AI channel is applied; the detections end with the supply. -/
def State.applySup (s : State) (c : Nat) (v : Nat) : State := (s.setAi c { s.ai c with supOff := v == 1 }).aiKeep c

/-- An OUTPUT frame ends at an island; one that is not configured since it took its safe state stays in it (R415). -/
def State.applyOutput (s : State) (i stage : Nat) (sets : List Nat) : State :=
  let x := s.isl i
  if !x.ready then s
  else
    let s := s.setIsl i { x with safe := false }
    let s := if isDio i then s.applySets (i - 16) sets
      else if isAi i then (s.applySup (2 * (i - 24)) (sets.getD 0 0)).applySup (2 * (i - 24) + 1) (sets.getD 1 0)
      else s
    match s.funcChange i with
    | none => s
    | some d =>
      if stage = 0 ∨ d.stage ≠ stage then s
      else if stage = 1 then
        let s := s.setOut { d with aux := [2] }
        if isDio i then s.dioStop (i - 16) d.chan else s.aiCut (2 * (i - 24) + d.chan) (d.word 0xC)
      else
        let s := if isAi i then s.setAi (2 * (i - 24) + d.chan) { s.ai (2 * (i - 24) + d.chan) with cut := false } else s
        s.funcDone i d

/-- Frame 2 of a function change ends at an island. -/
def State.applyChange (s : State) (i t ch : Nat) (align : Bool) (w0 w1 : Word) : State :=
  match s.funcChange i with
  | none => s
  | some d =>
    if d.stage ≠ 2 then s
    else
      let s := s.setOut { d with aux := [3] }
      if isDio i then
        let g := i - 16
        let s := ((s.dioStop g ch).setReg (Reg.FLD_DIO g ch) w0).setReg (Reg.FLD_DIO1 g ch) w1
        s.dioTake g ch t
      else s.aiChange (2 * (i - 24) + ch) t align w0 w1

/-- A whole valid downlink frame that ends at TB_RAW t acts; `done` says that it completes the island's configuration. -/
def State.frameEnd (s : State) (i t : Nat) (f : DownFrame) (done : Bool) : State :=
  let x := s.isl i
  let s := s.setIsl i { x with down := none, downOk := min 3 (x.downOk + 1), lastDown := t }
  let al (s : State) : State :=
    if f.align && s.link i == lnRunning then
      let c := 2 * (i - 24)
      (s.aiAlign c t false).aiAlign (c + 1) t false
    else s
  match f.kind with
  | .output sets => (al s).applyOutput i f.stage sets
  | .load => if done then s.applyLoad i t else s
  | .change ch w0 w1 => (al s).applyChange i t ch f.align w0 w1
  | .rearm m g => if isDio i then s.applyRearm (i - 16) m g else s
  | .safe => s.islandSafe i
  | .test _ => al s

/-! ## Uplink frames (R411, R427) -/

/-- Kinds 0 to 4 of a channel in a DIO record. -/
def dioKinds (rec : List Byte) (j : Nat) : Nat :=
  let w (o lo : Nat) : Nat := bits (leNat ((rec.drop o).take 4)) (lo + j) 1
  w 4 16 + 2 * w 8 0 + 4 * w 8 16 + 8 * w 12 0 + 16 * w 4 0

/-- Kinds 5 to 7 of a group: GRP_OC, GRP_TRIP, VDO_LOW. -/
def grpKinds (rec : List Byte) : Nat :=
  let w := leNat ((rec.drop 0x14).take 4)
  bits w 1 1 + 2 * bits w 2 1 + 4 * bits w 0 1

/-- Bits of b that were not in a. -/
def newBits (a b : Nat) : Nat := b - (a &&& b)

/-- FLD_DIO_FAULT events of one record update. -/
def State.dioEvents (s : State) (g : Nat) (old new : List Byte) : State :=
  let s := sixteen.foldl (fun t j =>
    let k := newBits (dioKinds old j) (dioKinds new j)
    if k = 0 then t else t.raise (314 + g) [w32 (j + 16 * k)]) s
  let k := newBits (grpKinds old) (grpKinds new)
  if k = 0 then s else s.raise (314 + g) [w32 (16 * 32 * k + 4096)]

/-- The held record of an island is updated from an uplink frame. -/
def State.heldUpdate (s : State) (i : Nat) (u : UpFrame) : State :=
  let x := s.isl i
  let h := heldAfter i x.held u.data u.seq u.ty
  let s := s.setIsl i { x with
    held := h, heldRaw := u.raw, heldNt := u.nt, heldSafe := u.ty == 2, up := none, upLost := 0
    upOk := if u.rxOk then min 3 (x.upOk + 1) else 0 }
  if isDio i then s.dioEvents (i - 16) x.held h else s

/-- The end of an off-pulse: its check (R542). -/
def State.offPulseEnd (s : State) (o : OffPulse) : State :=
  let s := { s with fld := { s.fld with offp := none } }
  if o.seen then s
  else (s.wr ⟨Reg.IST_OFFP_FAIL (o.chan / 32), o.chan % 32, 1⟩ 1).raise 461 [w32 o.chan]

/-- An uplink frame of the pulsed channel's island: LEVEL is looked at once 24 µs have passed. -/
def State.offPulseSee (s : State) (i : Nat) (u : UpFrame) : State :=
  match s.fld.offp with
  | none => s
  | some o =>
    match o.start with
    | none => s
    | some t =>
      if 16 + o.chan / 16 ≠ i then s
      else
        let low := bits (leNat (u.data.take 4)) (o.chan % 16) 1 == 0
        { s with fld := { s.fld with offp := some { o with seen := o.seen || (low && decide (t + 12000 < u.raw + frameLen)) } } }

/-- The response of a TEST uplink frame's payload in words: 4 bytes of an AI island, 6 of the others (R540). -/
def testResponse (i : Nat) (payload : List Byte) : List Word :=
  if isAi i then [w32 (leNat ((payload.drop 16).take 4))]
  else [w32 (leNat ((payload.drop 14).take 4)), w32 (leNat ((payload.drop 18).take 2))]

/-- A failed island test: the island's bit, the event and a note of kind ISLAND (R541, Table 21-9). [DESIGN CHOICE, unsafe: notes/assumptions/92.md] -/
def State.testFailed (s : State) (i step : Nat) (payload : List Byte) : State :=
  let s := s.recNoteWrite 0x06 ([w32 i, w32 step] ++ testResponse i payload)
  (s.wr (if i < 32 then ⟨Reg.IST_ISLFAIL_LO, i, 1⟩ else ⟨Reg.IST_ISLFAIL_HI, i - 32, 1⟩) 1).raise 460 [w32 (i + 256 * step)]

end Machine
end Sys2Proof
end

