-- ==== Sys2Proof/Machine/PairMirror.lean ====
section
/-!
DEFINITION. Leaving the Active role: pair hold, the stop of the lanes and of everything the module sends, the yield and the
frames of the partner on the backbone (R489, R490, R503, R508).
-/

namespace Sys2Proof
namespace Machine

/-- A link in pair hold: Held, its island in its safe state (R489). -/
def State.linkPairHold (s : State) (i : Nat) : State :=
  if s.link i = lnOff then s else (s.linkStop i).setLink i lnHeld

/-- Every island enters pair hold. -/
def State.pairHold (s : State) : State :=
  let t := allIslands.foldl State.linkPairHold s
  { t with fld := { t.fld with offp := none, align := none, alignAt := none } }

/-- The rack-bus drivers go to high impedance (R490). -/
def State.rackFloat (s : State) : State :=
  let s := s.setCycle none
  ({ s with rack := { s.rack with queues := [], waitEnd := none, ready := false } }).wr F.RB_STAT_RST 0

/-- The lanes stop and lose their supply; what their present interval held is gone. -/
def State.lanesOff (s : State) : State :=
  let s := (s.wr F.CORD_STAT_ROLLING 0).wr F.CORD_STAT_REPLAY 0
  let s := (s.wr F.CORD_UNDO_USED 0).wr F.CORD_INLOG_USED_USED 0
  { s with
    lanes := { s.lanes with on := false, resuming := false, ready := [], fetched := [] }
    cord := { s.cord with
      causes := 0, heldTrig := 0, undo := [], log := [], replay := [], heldSrc := [], accIdx := [], lines := [], asked := []
      exceeded := [], partUndo := [], partLog := [] } }

/-- The Flue discards every record. -/
def State.flueDrop (s : State) : State :=
  let s := s.flue.recs.foldl (fun t r => t.quotaHeld r.part false) s
  let s := s.setRecs []
  { s with flue := { s.flue with held := [], fullAsked := false, stalled := [] } }

/-- The module stops acting on the vehicle: engines, own frames, lanes, islands and rack bus. -/
def State.stopActing (s : State) : State :=
  let s := s.lanesOff.flueDrop
  let s := { s with
    rings := { s.rings with hand := [], out := [], batches := [] }
    sig := { s.sig with passes := [], built := [] }
    ports := { s.ports with now := s.ports.now.filter (fun p => match p.2 with
      | .own .. => false
      | .forward .. => true) }
    cb := { s.cb with sending := [], frozen := [], prog := none }
    pair := { s.pair with out := [], copy := none, unacked := [], switch := none, request := false, gapFrom := none, resume := false
                          unpub := [], stepFrom := none } }
  (s.pairHold.rackFloat).pairThrottle

/-- The Active module yields (R508). -/
def State.pairYield (s : State) : State :=
  let s := s.stopActing.setRole rlFenced 5
  ((s.satAdd F.PAIR_CNT_YIELDS 1).raise 424 []).pairSet (fun p => { p with lossSeen := false })

/-- A Banked module falls back to Fenced: its lanes lose their supply and its staging is gone. -/
def State.pairFence (s : State) (why : Nat) : State :=
  (s.setRole rlFenced why).pairSet (fun p =>
    { p with staged := [], copied := false, lossAt := none, powerFrom := none, lanesUp := false, stepFrom := none, switch := none
             request := false })

/-- Address of the partner's backbone ports. -/
def State.peerMac (s : State) : Nat := s.rd F.PAIR_PEER_MAC_LO_MAC_LO + 2 ^ 32 * s.rd F.PAIR_PEER_MAC_HI_MAC_HI

/-- A backbone frame is heard at a port: one from the partner makes an Active module with a heartbeat loss yield, and a Banked
one that waits to take over Fenced (R503, R508). -/
def State.pairHears (s : State) (f : List Byte) : State :=
  if !s.pairOn || frameSa f != s.peerMac then s
  else if s.role = rlActive ∧ s.pair.lossSeen then s.pairYield
  else if s.role = rlBanked ∧ s.pair.lossAt.isSome then s.pairFence 3
  else s

end Machine
end Sys2Proof
end

