-- ==== Sys2Proof/Machine/Part.lean ====
section
/-!
DEFINITION. Hardware locks, owner resets, the monitors of partitions and the setup checks of the PART and EVT blocks
(R238 to R244).
-/

namespace Sys2Proof
namespace Machine

/-! ## Locks -/

/-- The state of a lock. -/
def State.lock (s : State) (n : Nat) : LockSt := Sparse.get s.parts.locks .free n

/-- Sets the state of a lock. -/
def State.setLock (s : State) (n : Nat) (x : LockSt) : State :=
  { s with parts := { s.parts with locks := Sparse.set s.parts.locks .free n x } }

/-- Partition, agent and hart of a requester (R238). -/
def lockOwner : Requester → PartId × Agent × HartId
  | .lane h p => (p, .lane, h)
  | .mp => (0, .mp, 0)
  | .engine _ p => (p, .engine, 0)
  | .loader => (0, .mp, 0)

/-- OWNER_AGENT codes. -/
def Agent.code : Agent → Nat
  | .lane => 0
  | .mp => 1
  | .engine => 2

/-- The lock lies in the requester's range; no range limits the MP. -/
def State.lockAllowed (s : State) (who : Requester) (n : Nat) : Bool :=
  match who with
  | .mp => true
  | .loader => true
  | _ =>
    let p := (lockOwner who).1.toNat
    s.on (F.PE_CTL_EN p) && decide (s.rd (F.PE_LOCKS_LOCK_FIRST p) ≤ n) &&
      decide (n < s.rd (F.PE_LOCKS_LOCK_FIRST p) + s.rd (F.PE_LOCKS_LOCK_COUNT p))

/-- The lock word of Table 9-9. -/
def lockWord (got abandoned denied mine : Bool) (x : LockSt) : Word :=
  let base := b2n got + 2 * b2n abandoned + 4 * b2n denied + 8 * b2n mine
  match x with
  | .held p a h => w32 (base + 16 + 256 * p.toNat + 65536 * a.code + 2 ^ 18 * h.val)
  | _ => w32 base

/-- Records the first denied acquire (kind 1) or bad release (kind 2) and raises its event. -/
def State.lockError (s : State) (n : Nat) (p : PartId) (kind : Nat) : State :=
  let s := if s.on F.PART_LOCKERR_VALID then s
    else (((s.wr F.PART_LOCKERR_LOCK n).wr F.PART_LOCKERR_KIND kind).wr F.PART_LOCKERR_PART p.toNat).wr F.PART_LOCKERR_VALID 1
  s.raise (80 + kind) [w32 (n + 65536 * p.toNat)]

/-- The requester owns a held lock: the same partition and agent, and for the MP any lock of the MP. -/
def lockMine (who : Requester) (x : LockSt) : Bool :=
  match x with
  | .held p a _ => (lockOwner who).1 == p && (lockOwner who).2.1 == a
  | _ => false

/-- A read of LOCK_n: the word it returns, and the state after it (R238, Table 9-6). -/
def State.lockRead (s : State) (who : Requester) (n : Nat) : Word × State :=
  let o := lockOwner who
  let x := s.lock n
  if !s.lockAllowed who n then (lockWord false false true (lockMine who x) x, s.lockError n o.1 1)
  else match x with
    | .held .. => (lockWord false false false (lockMine who x) x, s)
    | .free => (lockWord true false false false (.held o.1 o.2.1 o.2.2), s.setLock n (.held o.1 o.2.1 o.2.2))
    | .abandoned => (lockWord true true false false (.held o.1 o.2.1 o.2.2), s.setLock n (.held o.1 o.2.1 o.2.2))

/-- LOCK_ACQUIRE: a read of LOCK_n by a requester. -/
def lockAcquire (who : Requester) (n : Fin 1024) (s : State) : State :=
  let r := s.lockRead who n.val
  { r.2 with busData := r.1 }

/-- LOCK_RELEASE: a write to LOCK_n (R239). -/
def lockRelease (who : Requester) (n : Fin 1024) (w : Word) (s : State) : State :=
  if !w.getLsbD 31 then s
  else if lockMine who (s.lock n.val) then s.setLock n.val .free
  else s.lockError n.val (lockOwner who).1 2

/-- The lock is owned by a partition and an agent. -/
def ownedBy (p : PartId) (a : Nat) : LockSt → Bool
  | .held q b _ => q == p && b.code == a
  | _ => false

/-- An owner reset (R241): every matching lock becomes Free-abandoned, and LOCK_ABANDONED is raised once. -/
def State.ownerReset (s : State) (p : PartId) (a : Nat) : State :=
  let n := (s.parts.locks.filter (fun x => ownedBy p a x.2)).length
  let locks : List (Nat × LockSt) := s.parts.locks.map (fun x => (x.1, if ownedBy p a x.2 then .abandoned else x.2))
  if n = 0 then s
  else ({ s with parts := { s.parts with locks := locks } }).raise 83 [w32 (p.toNat + 256 * a), w32 n]

/-- A write to PART_ABANDON: the key performs the owner reset. [DESIGN CHOICE, safe: notes/assumptions/38.md] -/
def partAbandon (_who : Requester) (w : Word) (s : State) : State :=
  if bits w.toNat 16 16 = 0x4142 then s.ownerReset (BitVec.ofNat 8 w.toNat) (bits w.toNat 8 2) else s

/-- A write to PART_MON_CLR clears the monitors of every partition. -/
def partMonClr (_who : Requester) (w : Word) (s : State) : State :=
  if w.getLsbD 0 then { s with parts := { s.parts with mon := [] } } else s

/-- Locks a partition holds now. -/
def State.locksHeld (s : State) (p : PartId) : Nat :=
  (s.parts.locks.filter (fun x => match x.2 with
    | .held q _ _ => q == p
    | _ => false)).length

/-- The monitor registers 0x0010 to 0x0020 of the selected partition, by their index 0 to 4. [DESIGN CHOICE, safe: notes/assumptions/38.md] -/
def State.monWord (s : State) (i : Nat) : Word :=
  let p : PartId := BitVec.ofNat 8 (s.rd F.PART_MON_SEL_PART)
  let m := s.mon p
  match i with
  | 0 => m.dram
  | 1 => m.spare
  | 2 => w32 m.undoPeak.toNat
  | 3 => w32 m.logPeak.toNat
  | _ => w32 (m.drops.toNat + 65536 * s.locksHeld p)

/-! ## Event rings and schedules -/

/-- Event ring q of a partition, where it is defined. -/
def State.evRing (s : State) (p : PartId) (q : Nat) : Option RingId :=
  let f : Fld × Fld := match q with
    | 0 => (F.PE_EVQ01_EVQ0_EN p.toNat, F.PE_EVQ01_EVQ0 p.toNat)
    | 1 => (F.PE_EVQ01_EVQ1_EN p.toNat, F.PE_EVQ01_EVQ1 p.toNat)
    | 2 => (F.PE_EVQ23_EVQ2_EN p.toNat, F.PE_EVQ23_EVQ2 p.toNat)
    | _ => (F.PE_EVQ23_EVQ3_EN p.toNat, F.PE_EVQ23_EVQ3 p.toNat)
  if s.on f.1 then some (BitVec.ofNat 15 (s.rd f.2)) else none

/-- The owner of slot i of an engine's schedule, none for a free slot (R225). -/
def State.slotOwner (s : State) (e i : Nat) : Option Nat :=
  let w := (s.reg (0x58000 + 0x200 * e + 4 * (i / 2))).toNat
  let h := bits w (16 * (i % 2)) 9
  if h / 256 = 1 then none else some h

/-! ## Setup checks (R243, Table 9-8) -/

/-- Ranges of two enabled partitions overlap; p's own partner is any other. -/
def State.rangeClash (s : State) (first count : Nat → Fld) (p : Nat) : Bool :=
  s.parts'.any (fun q => q != p && overlaps (s.rd (first p), s.rd (count p)) (s.rd (first q), s.rd (count q)) &&
    decide (0 < s.rd (count p)) && decide (0 < s.rd (count q)))

/-- Defined event rings of a partition. -/
def State.evRings (s : State) (p : Nat) : List RingId := (List.range 4).filterMap (s.evRing (BitVec.ofNat 8 p))

/-- Sum over enabled partitions of a field. -/
def State.partSum (s : State) (f : Nat → Fld) : Nat := (s.parts'.map (fun p => s.rd (f p))).sum

/-- No element appears twice. -/
def distinct : List RingId → Bool
  | [] => true
  | x :: t => !t.contains x && distinct t

/-- Command rings of a partition. -/
def State.cmdRingsOf (s : State) (p : Nat) : List RingCtx :=
  (s.rings.ctx.filter (fun x => x.2.en && !x.2.event && x.2.part.toNat == p)).map (fun x => x.2)

/-- The engine has a slot of the partition. -/
def State.hasSlot (s : State) (e p : Nat) : Bool := (List.range 256).any (fun i => s.slotOwner e i == some p)

/-- The partitions that own a slot of an engine. -/
def State.slotOwners (s : State) : List Nat := (List.range 25).flatMap (fun e => (List.range 256).filterMap (s.slotOwner e))

/-- A check of one code fails for a partition; `own` are the partitions that own a slot. Codes 1 and 6 judge all partitions
together. [DEDUCED, unsafe: notes/assumptions/30.md] -/
def State.partFails (s : State) (own : List Nat) (code p : Nat) : Bool :=
  match code with
  | 1 => decide (s.rd F.PART_CFG_SYS_UNITS < 320) || decide (1024 < s.rd F.PART_CFG_SYS_UNITS + s.partSum F.PE_CTL_DRAM_UNITS)
  | 2 =>
    s.on (F.PE_CTL_EN p) &&
      (decide (32768 < s.rd (F.PE_RINGS_RING_FIRST p) + s.rd (F.PE_RINGS_RING_COUNT p)) ||
        s.rangeClash F.PE_RINGS_RING_FIRST F.PE_RINGS_RING_COUNT p)
  | 3 =>
    (s.evRings p).any (fun r => s.ringOwner r.toNat != some p || !(s.ctx r).en || !(s.ctx r).event) || !distinct (s.evRings p) ||
      (s.on (F.PE_CTL_EN p) && (s.cmdRingsOf p).any (fun c => (s.evRing (BitVec.ofNat 8 p) c.evtq.toNat).isNone))
  | 4 =>
    (s.on (F.PE_CTL_EN p) && (s.cmdRingsOf p).any (fun c => !s.hasSlot c.engine.toNat p)) ||
      (!s.on (F.PE_CTL_EN p) && own.contains p)
  | 5 =>
    s.on (F.PE_CTL_EN p) &&
      (decide (1024 < s.rd (F.PE_LOCKS_LOCK_FIRST p) + s.rd (F.PE_LOCKS_LOCK_COUNT p)) ||
        s.rangeClash F.PE_LOCKS_LOCK_FIRST F.PE_LOCKS_LOCK_COUNT p)
  | _ => decide (36864 < s.partSum F.PE_UNDO_DECL_UNDO_DECL) || decide (98304 < s.partSum F.PE_INLOG_DECL_INLOG_DECL)

/-- The first failure of the PART block: code and partition. -/
def State.partCheck (s : State) : Option (Nat × Nat) :=
  let own := s.slotOwners
  ((List.range 6).flatMap (fun k => (List.range (if k = 0 ∨ k = 5 then 1 else 256)).map (fun p => (k + 1, p)))).find?
    (fun x => s.partFails own x.1 x.2)

/-- A route fails code 0x7. -/
def State.routeFails (s : State) (n : Nat) : Bool :=
  let p := s.rd (F.EVT_ROUTE_PART n)
  s.on (F.EVT_ROUTE_RING_EN n) &&
    (!s.on (F.PE_CTL_EN p) || (s.evRing (BitVec.ofNat 8 p) (s.rd (F.EVT_ROUTE_EVQ n))).isNone)

/-- The checks of both blocks: whether they pass, and the state with the first failure recorded. -/
def State.partSetupCheck (s : State) : Bool × State :=
  match s.partCheck with
  | some (k, p) =>
    (false, (((s.wr F.PART_STAT_CFG_ERR 1).wr F.PART_STAT_CFG_CODE k).wr F.PART_STAT_CFG_PART p).raise 85 [w32 k])
  | none =>
    match (List.range 512).find? s.routeFails with
    | some n => (false, (((s.wr F.EVT_STAT_CFG_ERR 1).wr F.EVT_STAT_CFG_CODE 7).wr F.EVT_STAT_CFG_SRC n).raise 85 [7])
    | none => (true, s)

/-! ## Meanings -/

/-- The effect of LOCK_ACQUIRE. -/
def execLockAcquire (who : Requester) (n : Fin 1024) (s : State) : Host.Outcome State Fault Refusal :=
  .next (lockAcquire who n s)
/-- The effect of LOCK_RELEASE. -/
def execLockRelease (who : Requester) (n : Fin 1024) (w : Word) (s : State) : Host.Outcome State Fault Refusal :=
  .next (s.arrive who (Reg.LOCK n.val) w (fun t => lockRelease who n w t))
/-- The effect of PART_ABANDON. -/
def execPartAbandon (who : Requester) (w : Word) (s : State) : Host.Outcome State Fault Refusal :=
  .next (s.arrive who Reg.PART_ABANDON w (fun t => partAbandon who w t))
/-- The effect of PART_MON_CLR. -/
def execPartMonClr (who : Requester) (w : Word) (s : State) : Host.Outcome State Fault Refusal :=
  .next (s.arrive who Reg.PART_MON_CLR w (fun t => partMonClr who w t))

end Machine
end Sys2Proof
end

