-- ==== Sys2Proof/Machine/CbOps.lean ====
section
/-!
DEFINITION. The consist backbone: schedule banks, the basic cycle, sync, node states, relaying, sending and receiving
(chapter 12).
-/

namespace Sys2Proof
namespace Machine

/-! ## Banks (R300 to R302) -/

/-- Words of a bank image. -/
def cbBankWords : Nat := 33796

/-- Word i of bank b. -/
def State.cbWord (s : State) (b i : Nat) : Nat := (Sparse.get s.cb.banks (0 : Word) (65536 * b + i)).toNat

/-- Writes a word of a bank. -/
def State.setCbWord (s : State) (b i : Nat) (w : Word) : State :=
  { s with cb := { s.cb with banks := Sparse.set s.cb.banks 0 (65536 * b + i) w } }

/-- A window entry (Table 12-5). -/
structure CbWin where
  start : Nat
  kind : Nat
  who : Nat
  len : Nat
  prioMin : Nat
  cyc : Bool
deriving DecidableEq, Repr

/-- Entry w of basic cycle bc of bank b. -/
def State.cbWin (s : State) (b bc w : Nat) : CbWin :=
  let x := s.cbWord b (4 + 2 * (256 * bc + w))
  let y := s.cbWord b (5 + 2 * (256 * bc + w))
  { start := bits x 0 20, kind := bits x 20 2, who := bits x 24 8, len := bits y 0 20, prioMin := bits y 20 3, cyc := bits y 23 1 == 1 }

/-- Window entry and dataset of cyclic entry j of bank b (Table 12-6). -/
def State.cbCyc (s : State) (b j : Nat) : Nat × Nat := (s.cbWord b (32772 + j) % 2 ^ 14, s.cbWord b (32772 + j) / 2 ^ 14)

/-- N_BC and NCYC of a bank. -/
def State.cbNbc (s : State) (b : Nat) : Nat := s.cbWord b 1 % 128
def State.cbNcyc (s : State) (b : Nat) : Nat := s.cbWord b 2 % 2048

/-- The datasets of a window's cyclic entries, in order. -/
def State.cbCycOf (s : State) (b idx : Nat) : List Nat :=
  ((List.range (s.cbNcyc b)).map (s.cbCyc b)).filterMap (fun e => if e.1 = idx then some e.2 else none)

/-- The active bank and the other. -/
def State.cbActive (s : State) : Nat := s.rd F.CB_BANKS_ACTIVE
def State.cbOther (s : State) : Nat := 1 - s.cbActive

/-- Fields of a bank: VALID and SCHED_ID. -/
def cbValidFld (b : Nat) : Fld := if b = 0 then F.CB_BANKS_VALID0 else F.CB_BANKS_VALID1
def cbIdFld (b : Nat) : Fld := if b = 0 then F.CB_ID0_SCHED_ID else F.CB_ID1_SCHED_ID
def State.cbValid (s : State) (b : Nat) : Bool := s.on (cbValidFld b)
def State.cbId (s : State) (b : Nat) : Nat := s.rd (cbIdFld b)

/-- Marks a bank valid under its SCHED_ID, or not valid. -/
def State.setCbValid (s : State) (b : Nat) (v : Bool) : State :=
  (s.wr (cbValidFld b) (b2n v)).wr (cbIdFld b) (if v then s.cbWord b 0 else 0)

/-! ## Node -/

/-- Roles: a time master that does not act on the vehicle follows its partner (R491). -/
def State.cbRole (s : State) : Nat := s.rd F.CB_CFG_ROLE
/-- [DEDUCED, unsafe: notes/assumptions/50.md] -/
def State.cbMaster (s : State) : Bool := s.cbRole == 2 && s.acts
def State.cbFollower (s : State) : Bool := s.cbRole == 1 || (s.cbRole == 2 && !s.acts)

/-- STATE codes (Table 12-7): 0 Off, 1 Starting, 2 Synced, 3 Listen, 4 Lost. -/
def State.cbState (s : State) : Nat := s.rd F.CB_STAT_STATE
def State.cbOn (s : State) : Bool := s.cbState != 0 && s.running

def State.cbChan (s : State) (ch : Nat) : Bool := if ch = 0 then s.on F.CB_CFG_A_EN else s.on F.CB_CFG_B_EN
def State.cbLink (s : State) (q : Nat) : Bool := bits (s.rd F.CB_STAT_LINK) q 1 == 1
def State.cbMac (s : State) : Nat := s.rd F.CB_MAC_LO_MAC_LO + 2 ^ 32 * s.rd F.CB_MAC_HI_MAC_HI
def State.cbMcn (s : State) : Nat := s.rd F.CB_MCN_MCN
def State.cbPos (s : State) : Nat := s.rd F.CB_POS_BC

/-- The linked ports of an enabled channel. -/
def State.cbPorts (s : State) (ch : Nat) : List Nat :=
  if s.cbChan ch then [2 * ch, 2 * ch + 1].filter s.cbLink else []

/-- The window entry w of the present basic cycle, and TB_RAW at its start and end. -/
def State.cbNow (s : State) (w : Nat) : CbWin := s.cbWin s.cbActive s.cbPos w
def State.winStart (s : State) (w : Nat) : Nat := s.cb.start + (s.cbNow w).start * 5
def State.winEnd (s : State) (w : Nat) : Nat := s.winStart w + (s.cbNow w).len * 5

/-- Changes the backbone's own state. -/
def State.cbSet (s : State) (f : Cb → Cb) : State := { s with cb := f s.cb }

/-! ## Channels -/

/-- The OK flag of a channel. -/
def cbOkFld (ch : Nat) : Fld := if ch = 0 then F.CB_STAT_A_OK else F.CB_STAT_B_OK

/-- Sets a channel good or not, with the event of a change. -/
def State.cbGood (s : State) (ch : Nat) (good : Bool) : State :=
  if good == s.on (cbOkFld ch) then s else (s.wr (cbOkFld ch) (b2n good)).raise (if good then 168 else 167) [w32 ch]

/-- The time master judges a channel by link (R305). [DEDUCED, unsafe: notes/assumptions/55.md] -/
def State.cbByLink (s : State) : State :=
  if s.cbMaster && s.cbState != 0 then (s.cbGood 0 (s.cbPorts 0 != [])).cbGood 1 (s.cbPorts 1 != []) else s

/-- Cycles without a valid copy on a channel of a follower. -/
def State.cbMissSet (s : State) (ch k : Nat) : State :=
  let s := s.cbSet (fun c => if ch = 0 then { c with missA := min k 255 } else { c with missB := min k 255 })
  s.cbGood ch (decide (k < s.rd F.CB_CFG_SYNC_LOSS_N))

/-- A valid sync copy arrives on a channel. -/
def State.cbGot (s : State) (ch : Nat) : State :=
  (s.cbSet (fun c => if ch = 0 then { c with gotA := true } else { c with gotB := true })).cbMissSet ch 0

/-- A basic cycle ends at a follower. -/
def State.cbChanEnd (s : State) : State :=
  let c := s.cb
  let s := if c.gotA || !s.cbChan 0 then s else s.cbMissSet 0 (c.missA + 1)
  let s := if c.gotB || !s.cbChan 1 then s else s.cbMissSet 1 (c.missB + 1)
  s.cbSet (fun c => { c with gotA := false, gotB := false })

/-! ## States of the node (Table 12-7) -/

/-- Entry to Synced, from Lost with CB_SYNC_RESTORED too. -/
def State.cbToSynced (s : State) : State :=
  let was := s.cbState
  if was = 2 then s
  else
    let s := (s.wr F.CB_STAT_STATE 2).wr F.CB_STAT_LISTEN_WHY 0
    let s := if was = 4 then s.raise 161 [w32 s.cbMcn] else s
    s.raise 163 [w32 s.cbMcn, w32 s.cbPos]

/-- Entry to Listen. [DEDUCED, unsafe: notes/assumptions/52.md] -/
def State.cbToListen (s : State) (why : Nat) : State :=
  let was := s.cbState
  let s := (s.wr F.CB_STAT_STATE 3).wr F.CB_STAT_LISTEN_WHY why
  if was = 3 then s else s.raise 162 [w32 why, s.cb.heard]

/-- Banks are swapped. -/
def State.cbSwap (s : State) : State :=
  let b := s.cbOther
  ((s.wr F.CB_BANKS_ACTIVE b).wr F.CB_POS_N_BC (s.cbNbc b)).raise 165 [w32 (s.cbId b), w32 s.cbMcn]

/-- No announcement is pending. -/
def State.cbUnann (s : State) : State :=
  ((s.wr F.CB_BANKS_ANN_PEND 0).wr F.CB_ANN_ID_ANN_ID 0).wr F.CB_ACT_MCN_ACT_MCN 0

/-- A basic cycle passes without a valid sync copy (R305). -/
def State.cbMiss (s : State) : State :=
  let s := s.cbSet (fun c => { c with judged := true, missRun := c.missRun + 1 })
  let s := s.satAdd F.CB_CNT_SYNC_MISS 1
  let st := s.cbState
  if st ≠ 4 ∧ s.rd F.CB_CFG_SYNC_LOSS_N ≤ s.cb.missRun then (s.wr F.CB_STAT_STATE 4).raise 160 [w32 s.cbMcn]
  else if st = 2 ∧ !(s.on F.CB_CFG_SYNC_HOLD && s.cb.hold) then s.cbToListen 1
  else s

/-- CB_SYNC_MISSED: window 0 of the follower's present basic cycle has ended without a valid copy. -/
def State.cbSyncMissed (s : State) : State :=
  if s.cbOn && s.cbFollower && decide (0 < s.cb.starts) && !s.cb.got && !s.cb.judged && reached s.raw (s.winEnd 0) then s.cbMiss
  else s

/-! ## CB_TX (R299, R310 to R314, R320) -/

/-- Wire time of a frame of `len` bytes without its FCS, in counts of TB_RAW. -/
def cbWire (len : Nat) : Nat := (len + 24) * 4

/-- Bytes of a data frame of DLEN without its FCS. -/
def cbDataLen (dlen : Nat) : Nat := 32 + max 28 dlen

/-- A frame of the module's own format. -/
def State.cbFrame (s : State) (ch ty : Nat) (body : List Byte) : List Byte :=
  let f := beBytes 6 (s.rd F.CB_DA_LO_DA_LO + 2 ^ 32 * s.rd F.CB_DA_HI_DA_HI) ++ beBytes 6 s.cbMac ++ beBytes 2 (s.rd F.CB_ETYPE_ETYPE) ++
    beBytes 1 (16 + 8 * ch + ty) ++ beBytes 1 (s.rd F.CB_CFG_NODE) ++ body
  f ++ zeros (60 - f.length)

/-- A data frame for a channel. -/
def State.cbData (s : State) (ch w dsid wseq : Nat) (bs : List Byte) : List Byte :=
  s.cbFrame ch 1 (beBytes 4 s.cbMcn ++ beBytes 1 s.cbPos ++ beBytes 1 w ++ beBytes 2 bs.length ++ beBytes 4 dsid ++ beBytes 4 wseq ++ bs)

/-- The sync frame of the present basic cycle for a channel. -/
def State.cbSync (s : State) (ch : Nat) : List Byte :=
  let nt := s.ntFullAt s.cb.start / 2 ^ 24
  s.cbFrame ch 0 (beBytes 4 s.cbMcn ++ beBytes 1 s.cbPos ++ beBytes 1 (s.rd F.CB_POS_N_BC) ++ beBytes 2 (s.rd F.CB_BANKS_ANN_PEND) ++
    beBytes 4 (s.cbId s.cbActive) ++ beBytes 4 (s.rd F.CB_ANN_ID_ANN_ID) ++ beBytes 4 (s.rd F.CB_ACT_MCN_ACT_MCN) ++
    beBytes 8 (nt / 2 ^ 16) ++ beBytes 2 (nt % 2 ^ 16) ++ zeros 14)

/-- A CB_TX command's fields. -/
def cbTxLen (c : Cmd) : Nat := if c.fld 8 11 1 = 0 then cbDataLen (c.fld 8 0 11) else c.fld 8 0 11
def cbTxWin (c : Cmd) : Nat := c.fld 0xC 0 14
def cbTxArb (c : Cmd) : Bool := cbTxWin c == 0x3FFF

/-- What the engine keeps with a CB_TX (aux): basic cycles started and TB_RAW when it was taken, link seen since, copies on
their way, channels used, result words, WSEQ, whether its occurrence has passed with an earlier cycle, the end of its occurrence under
the schedule it was taken by, and its frame once it has started, as channel A sends it (R312). -/
structure CbTx where
  starts : Nat
  raw : Nat
  link : Nat
  copies : Nat
  chans : Nat
  mcn : Nat
  place : Nat
  wseq : Nat
  missed : Nat
  oldEnd : Nat
  frame : List Byte
deriving DecidableEq, Repr

/-- A CB_TX's notes. -/
def cbTxOf (c : Cmd) : CbTx :=
  let a (i : Nat) : Nat := c.aux.getD i 0
  ⟨a 0, a 1, a 2, a 3, a 4, a 5, a 6, a 7, a 8, a 9, (c.aux.drop 10).map (BitVec.ofNat 8)⟩

/-- A CB_TX with notes. -/
def CbTx.into (x : CbTx) (c : Cmd) : Cmd :=
  { c with aux := [x.starts, x.raw, x.link, x.copies, x.chans, x.mcn, x.place, x.wseq, x.missed, x.oldEnd] ++ x.frame.map (fun b => b.toNat) }

/-- Window entries of the active bank in which the node may send an arbitrating frame of a priority. -/
def State.cbMayArb (s : State) (x : CbWin) (prio : Nat) : Bool :=
  x.kind == 3 && decide (x.prioMin ≤ prio) && bits (s.rd F.CB_GRP_LO_GRP + 2 ^ 32 * s.rd F.CB_GRP_HI_GRP) x.who 1 == 1

/-- Wire time, offset, span and margin of a frame fit a window's length. -/
def State.cbFits (s : State) (x : CbWin) (len : Nat) : Bool :=
  decide (cbWire len + 500 + s.rd F.CB_SPAN_SPAN * 5 + 1000 ≤ x.len * 5)

/-- Some permitted arbitrating window of the active bank holds the frame. [DEDUCED, unsafe: notes/assumptions/54.md] -/
def State.cbArbFits (s : State) (prio len : Nat) : Bool :=
  (List.range (s.cbNbc s.cbActive)).any (fun b => (List.range 256).any (fun w =>
    let x := s.cbWin s.cbActive b w
    s.cbMayArb x prio && s.cbFits x len))

/-- The window entry is one of the node's exclusive windows in the active bank. -/
def State.cbOwnWin (s : State) (idx : Nat) : Bool :=
  let x := s.cbWin s.cbActive (idx / 256) (idx % 256)
  s.cbValid s.cbActive && x.kind == 2 && x.who == s.rd F.CB_CFG_NODE

/-- TB_RAW at the occurrence of a window in a macro cycle, by the nominal basic cycle. -/
def State.cbOccur (s : State) (idx mcn : Nat) : Nat :=
  let n := (mcn + 2 ^ 32 - s.cbMcn) % 2 ^ 32 * s.rd F.CB_POS_N_BC + idx / 256
  s.cb.start + (n - s.cbPos) * (s.rd F.CB_BC_BC_LEN * rawPerUs) + (s.cbWin s.cbActive (idx / 256) (idx % 256)).start * 5

/-- The occurrence lies behind the present basic cycle in the present macro cycle. -/
def State.cbBehind (s : State) (idx mcn : Nat) : Bool := mcn == s.cbMcn && decide (idx / 256 < s.cbPos)

/-- An engine's slots of a partition that start after now and end by an instant (R228). -/
def State.slotsUntil (s : State) (e p until_ : Nat) : Nat :=
  ((List.range 256).map (fun i =>
    let d := (200 * i + 51200 - s.raw % 51200) % 51200
    let first := s.raw + (if d = 0 then 51200 else d) + 200
    if s.slotOwner e i == some p && decide (first ≤ until_) then 1 + (until_ - first) / 51200 else 0)).sum

/-- Slots that a partition's work queued on an engine ahead of a command needs, one for each descriptor of its other rings and for each
CB_TX that has not ended (R228). [DEDUCED, unsafe: notes/assumptions/54.md] -/
def State.workAhead (s : State) (e : Nat) (c : Cmd) : Nat :=
  let p := s.cmdPart c
  let rings := s.rings.ctx.filter (fun x => x.2.engine.toNat == e && x.2.part == p && x.2.en && x.1 != c.ring.toNat)
  (rings.map (fun x => (x.2.sqTail - x.2.sqHead).toNat)).sum + ((s.outOf e).filter (fun d => s.cmdPart d == p && d.opcode == 0x20)).length

/-- The partition's slots up to an instant carry a command of one slot behind what is queued ahead of it (R228). [DEDUCED, unsafe: notes/assumptions/54.md] -/
def State.slotBefore (s : State) (e : Nat) (c : Cmd) (until_ : Nat) : Bool :=
  decide (s.workAhead e c < s.slotsUntil e (s.cmdPart c).toNat until_)

/-- WSEQ and k of a CB_TX (R299). -/
def State.cbWseq (s : State) (c : Cmd) : Nat × Nat :=
  let b := s.batchOf c.ring c.pos
  ((b.1.toNat * 256 + b.2) % 2 ^ 32, b.2)

/-- The end of a CB_TX that fails its checks. -/
def State.cbTxFails (s : State) (e : Nat) (c : Cmd) : Option Final :=
  let raw := c.fld 8 11 1 == 1
  let n := c.fld 8 0 11
  let buf := c.addr 0x18
  let at_ := c.fld 0xC 14 1 == 1
  let mcn := c.word 0x10
  let ahead := (mcn + 2 ^ 32 - s.cbMcn) % 2 ^ 32
  let win := cbTxWin c
  let x := s.cbWin s.cbActive (win / 256) (win % 256)
  if !(c.headerOk && c.fld 8 24 8 == 0 && c.fld 0xC 15 17 == 0 && c.fld 0x14 26 6 == 0 && c.fld 0x1C 8 24 == 0 && c.zeroFrom 0x20) ||
      (if raw then decide (n < 60) || decide (1514 < n) else n == 0 || decide (1482 < n)) || !State.engineMayRead buf n then some finBad
  else if !cbTxArb c && !s.cbOwnWin win then some finBad
  else if !cbTxArb c && at_ && decide (2 ^ 31 < ahead) then some finBad
  else if 256 ≤ (s.cbWseq c).2 then some ⟨stBadDescriptor, 2, []⟩
  else if cbTxArb c then (if s.cbArbFits (c.fld 8 13 3) (cbTxLen c) then none else some ⟨stBudget, 0, []⟩)
  else if !s.cbFits x (cbTxLen c) then some ⟨stBudget, 0, []⟩
  else if at_ && (s.cbBehind win mcn || !s.slotBefore e c (s.cbOccur win mcn - 2500)) then some ⟨stBudget, 0, []⟩
  else none

/-- Some enabled channel has link. -/
def State.cbAnyLink (s : State) : Bool := s.cbPorts 0 ++ s.cbPorts 1 != []

/-- CB_TX is taken. -/
def State.cbTxTake (s : State) (q : Nat) : State :=
  let ws := match s.hand (0x0D + q) with
    | none => 0
    | some c => (s.cbWseq c).1
  s.doLong (0x0D + q) 0x20 (fun c s =>
    let win := cbTxWin c
    let x := s.cbWin s.cbActive (win / 256) (win % 256)
    s.setOut (CbTx.into ⟨s.cb.starts, s.raw, b2n s.cbAnyLink, 0, 0, 0, 0, ws, 0, (x.start + x.len) * 5, []⟩ c))

/-- Outstanding CB_TX commands of the node, in the order taken. -/
def State.cbTxs (s : State) : List Cmd :=
  s.rings.out.filter (fun c =>
    let e := (s.ctx c.ring).engine.toNat
    decide (0x0D ≤ e) && decide (e ≤ 0x10) && c.opcode == 0x20 && c.fin == none)

/-- The present occurrence of an exclusive CB_TX's window is the one it is bound to. -/
def State.cbBound (s : State) (c : Cmd) : Bool :=
  let win := cbTxWin c
  let x := cbTxOf c
  !cbTxArb c && win / 256 == s.cbPos && decide (0 < s.cb.starts) &&
    (if c.fld 0xC 14 1 = 1 then c.word 0x10 == s.cbMcn
     else reached (s.cb.start + (s.cbWin s.cbActive s.cbPos (win % 256)).start * 5) (x.raw + 2500))

/-- TB_RAW at which the present occurrence of a command's window ends: by the schedule it was taken under where a swap has
removed the window (Table 12-14). -/
def State.cbOccEnd (s : State) (c : Cmd) : Nat :=
  if s.cbOwnWin (cbTxWin c) then s.winEnd (cbTxWin c % 256) else s.cb.start + (cbTxOf c).oldEnd

/-- The bound occurrence of an exclusive CB_TX has passed. -/
def State.cbPassed (s : State) (c : Cmd) : Bool :=
  let win := cbTxWin c
  let late := (s.cbMcn + 2 ^ 32 - c.word 0x10) % 2 ^ 32
  (cbTxOf c).missed == 1 || (s.cbBound c && reached s.raw (s.cbOccEnd c)) ||
    (c.fld 0xC 14 1 == 1 && ((decide (1 ≤ late) && decide (late < 2 ^ 31)) || (late == 0 && decide (win / 256 < s.cbPos)))) ||
    (!s.cbOwnWin win && decide (s.rd F.CB_POS_N_BC ≤ win / 256))

/-- Basic cycles begun since the one in which a CB_TX was taken, or since the first (R314). -/
def State.cbWaited (s : State) (c : Cmd) : Nat := s.cb.starts - max 1 (cbTxOf c).starts

/-- A frame of a ring may start: every earlier CB_TX of its ring has started or missed its occurrence (R320, OP-3). -/
def State.cbInOrder (s : State) (c : Cmd) : Bool :=
  (s.cbTxs.find? (fun d => d.ring == c.ring && (d.pos == c.pos || ((cbTxOf d).chans == 0 && !s.cbPassed d)))).any (fun d => d.pos == c.pos)

/-- Commands bound to an occurrence in the basic cycle that ends have missed it. -/
def State.cbMarkMissed (s : State) : State :=
  s.cbTxs.foldl (fun t c => if t.cbBound c then t.setOut (CbTx.into { cbTxOf c with missed := 1 } c) else t) s

/-- Ends a CB_TX: MISSED_WINDOW counts at its engine. [DEDUCED, unsafe: notes/assumptions/54.md] -/
def State.cbTxEnd (s : State) (c : Cmd) (status : Nat) : State :=
  let x := cbTxOf c
  let q := (s.ctx c.ring).engine.toNat - 0x0D
  let s := if status = stMissedWindow then s.satAdd (F.CB_PORT_1C_TX_MISSED q) 1 else s
  s.endLong c ⟨status, 0, if status = stOK then [w32 x.mcn, w32 (x.place + 65536 * x.chans), w32 (if c.fld 8 11 1 = 0 then x.wseq else 0)] else []⟩

/-- CB_TX_EXPIRY on a port's engine: the oldest CB_TX whose time has passed without a start ends (R314); an arbitrating frame
that one channel sent and the other could not ends OK. -/
def State.cbTxExpiry (s : State) (q : Nat) : State :=
  let old (c : Cmd) : Bool := if cbTxArb c then decide (c.fld 8 16 8 < s.cbWaited c) else s.cbPassed c
  match (s.outOf (0x0D + q)).find? (fun c => c.opcode == 0x20 && (cbTxOf c).copies == 0 && old c) with
  | none => s
  | some c =>
    if !s.running then s
    else if (cbTxOf c).chans ≠ 0 then s.cbTxEnd c stOK
    else if cbTxArb c && (cbTxOf c).link == 0 then s.cbTxEnd c stPortNotReady
    else s.cbTxEnd c stMissedWindow

/-! ## Ports -/

/-- Own CB_TX frames on their way out of a port. -/
def State.cbSending (s : State) (q : Nat) : List CbSend := Sparse.get s.cb.sending [] q

/-- TB_RAW at which a port's frames end. -/
def State.cbBusyEnd (s : State) (q : Nat) : Nat := Sparse.get s.cb.busyEnd 0 q

/-- A port is sending. -/
def State.cbBusy (s : State) (q : Nat) : Bool := !reached s.raw (s.cbBusyEnd q)

/-- A frame on a channel, sent or heard, ends at an instant: the last one seen there is the one that ends latest (R310). -/
def State.cbSee (s : State) (ch ends : Nat) : State :=
  s.cbSet (fun c => { c with seenEnd := if reached ends (Sparse.get c.seenEnd 0 ch) then Sparse.insert c.seenEnd ch ends else c.seenEnd })

/-- A frame goes out of a port and ends at an instant; it is the last one seen on its channel where it ends latest. -/
def State.cbOut (s : State) (q : Nat) (f : List Byte) (ok : Bool) (ends : Nat) : State :=
  ((s.portSend (12 + q) f ok).cbSet (fun c => { c with busyEnd := Sparse.insert c.busyEnd q ends })).cbSee (q / 2) ends

/-- An own frame starts on a channel at an instant: it leaves every linked port, stamped for `tag` where one is given. -/
def State.cbOwn (s : State) (ch : Nat) (f : List Byte) (start : Nat) (tag : Option Nat) : State :=
  (s.cbPorts ch).foldl (fun t q =>
    let t := (t.cbOut q f true (start + (f.length + 12) * 4)).satAdd (F.CB_PORT_18_TX_FRAMES q) 1
    match tag with
    | none => t
    | some g => t.tsqStamp (12 + q) g (start + 32)) s

/-- A frame of the module's own format with the CH of a channel. -/
def onChan (ch : Nat) (f : List Byte) : List Byte := frameSet f 14 (beBytes 1 (setBits (frameFld f 14 1) 3 1 ch))

/-- A CB_TX starts on a channel at an instant in window w: its frame leaves, and its copies are on their way. -/
def State.cbStart (s : State) (c : Cmd) (ch w start : Nat) : State :=
  let x := cbTxOf c
  let n := c.fld 8 0 11
  let raw := c.fld 8 11 1 == 1
  let bs := s.bytes (c.addr 0x18) n
  let a := if x.chans ≠ 0 then x.frame else if raw then bs else s.cbData 0 w (c.fld 0x14 0 26) x.wseq bs
  let f := if raw then a else onChan ch a
  let ports := s.cbPorts ch
  if ports = [] then s
  else
    let s := s.cbOwn ch f start (if c.fld 8 12 1 = 1 then some c.tag else none)
    let s := ports.foldl (fun t q => t.cbSet (fun b => { b with
      sending := Sparse.insert b.sending q (Sparse.get b.sending [] q ++ [⟨c.ring, c.pos, start + (f.length + 12) * 4⟩]) })) s
    let x := { x with
      copies := x.copies + ports.length, chans := x.chans + 2 ^ ch, frame := a
      mcn := if x.chans = 0 then s.cbMcn else x.mcn
      place := if x.chans = 0 then s.cbPos + 256 * w else x.place }
    s.setOut (x.into c)

/-- The outstanding command with a ring and position. -/
def State.outAt (s : State) (r : RingId) (p : BitVec 17) : Option Cmd := s.rings.out.find? (fun c => c.ring == r && c.pos == p)

/-- Channels on which a frame is still to be sent: enabled, with link, not used yet. -/
def State.cbLeft (s : State) (x : CbTx) : List Nat := [0, 1].filter (fun ch => s.cbPorts ch != [] && bits x.chans ch 1 == 0)

/-- TX_FRAME_END at a backbone port: the oldest own frame on its way has been sent whole; the command ends with its last
copy. -/
def State.cbFrameEnd (s : State) (q : Nat) : State :=
  match s.cbSending q with
  | [] => s
  | g :: t =>
    if !reached s.raw g.endRaw then s
    else
      let s := s.cbSet (fun b => { b with sending := Sparse.set b.sending [] q t })
      match s.outAt g.ring g.pos with
      | none => s
      | some c =>
        let x := { cbTxOf c with copies := (cbTxOf c).copies - 1 }
        let s := s.setOut (x.into c)
        if x.copies = 0 ∧ (!cbTxArb c ∨ s.cbLeft x = []) then s.cbTxEnd (x.into c) stOK else s

/-! ## Windows (R310 to R313) -/

/-- The node may send own frames in the present basic cycle (R305, R306). -/
def State.cbMaySend (s : State) : Bool :=
  s.cbOn && s.acts && s.cbState == 2 && (s.cbMaster || s.cb.got || (s.on F.CB_CFG_SYNC_HOLD && s.cb.hold))

/-- The image of a window entry of a bank: what its cyclic entries name, of the datasets published. [DEDUCED, unsafe: notes/assumptions/53.md] -/
def State.cbImage (s : State) (b idx : Nat) : List (Nat × Word × List Byte) :=
  (s.cbCycOf b idx).filterMap (fun d => if !s.published d then none else some (s.dsid d, w32 (s.gen32 d), s.latestBytes d))

/-- The image frozen for a window entry of a bank in a basic cycle. -/
def State.cbFrozen (s : State) (n b idx : Nat) : Option (List (Nat × Word × List Byte)) :=
  (s.cb.frozen.find? (fun x => x.count == n && x.bank == b && x.idx == idx)).map (fun x => x.frames)

/-- Freezes the image of a window entry in a basic cycle that starts at an instant, 5 µs before the window (R313). -/
def State.cbFreezeAt (s : State) (n b idx start : Nat) : State :=
  let x := s.cbWin b (idx / 256) (idx % 256)
  if x.kind == 2 && x.who == s.rd F.CB_CFG_NODE && x.cyc && reached (s.raw + 2500) (start + x.start * 5) && (s.cbFrozen n b idx).isNone then
    s.cbSet (fun c => { c with frozen := ⟨n, b, idx, s.cbImage b idx⟩ :: c.frozen })
  else s

/-- Bank and index of the next basic cycle, as the node expects them now. -/
def State.cbNext (s : State) : Nat × Nat :=
  if s.cbPos + 1 < s.rd F.CB_POS_N_BC then (s.cbActive, s.cbPos + 1)
  else
    let swap := s.on F.CB_BANKS_ANN_PEND && (s.cbMcn + 1) % 2 ^ 32 == s.rd F.CB_ACT_MCN_ACT_MCN && s.cbValid s.cbOther &&
      s.cbId s.cbOther == s.rd F.CB_ANN_ID_ANN_ID
    (if swap then s.cbOther else s.cbActive, 0)

/-- CB_IMAGE_FREEZE: the image of window w of the present basic cycle, or of the next one, freezes 5 µs before the window's start. -/
def State.cbFreeze (s : State) (w : Nat) : State :=
  if s.cbOn && decide (0 < s.cb.starts) then
    let nx := s.cbNext
    (s.cbFreezeAt s.cb.starts s.cbActive (256 * s.cbPos + w) s.cb.start).cbFreezeAt (s.cb.starts + 1) nx.1 (256 * nx.2 + w)
      (s.cb.start + s.rd F.CB_BC_BC_LEN * rawPerUs)
  else s

/-- A frame of `len` bytes may start at an instant in a window (R311). -/
def State.cbInTime (s : State) (w start len : Nat) : Bool :=
  reached (s.winEnd w) (start + cbWire len + s.rd F.CB_SPAN_SPAN * 5 + 1000)

/-- A port is free for an own frame: 96 ns have passed since its last frame, and no frame waits to be relayed there (R297). -/
def State.cbFree (s : State) (q : Nat) : Bool :=
  reached s.raw (s.cbBusyEnd q + 48) && (Sparse.lookup s.cb.relay q).isNone

/-- The ports of both channels that send. -/
def State.cbAllPorts (s : State) : List Nat := s.cbPorts 0 ++ s.cbPorts 1

/-- The start of the next own frame: as planned, or now where a relayed frame went ahead. -/
def State.cbStartAt (s : State) (next : Nat) : Nat :=
  if s.cbAllPorts.all (fun q => reached next (s.cbBusyEnd q + 48)) then next else s.raw

/-- The cyclic frames of a window of the present basic cycle. -/
def State.winImage (s : State) (w : Nat) : List (Nat × Word × List Byte) :=
  let idx := 256 * s.cbPos + w
  if (s.cbNow w).cyc then (s.cbFrozen s.cb.starts s.cbActive idx).getD (s.cbImage s.cbActive idx) else []

/-- The window's own frames not yet sent, at its start those of its image. -/
def State.cbProgOf (s : State) (w : Nat) : CbProg :=
  match s.cb.prog with
  | some p => if p.win = w then p else ⟨w, s.winImage w, s.winStart w + 500⟩
  | none => ⟨w, s.winImage w, s.winStart w + 500⟩

/-- Sends one cyclic frame on both channels. -/
def State.cbSendCyc (s : State) (w at_ dsid gen : Nat) (bs : List Byte) : State :=
  (s.cbOwn 0 (s.cbData 0 w dsid gen bs) at_ none).cbOwn 1 (s.cbData 1 w dsid gen bs) at_ none

/-- A CB_TX may start in window w at an instant (R311, R314, R320). -/
def State.cbTxReady (s : State) (w at_ : Nat) (c : Cmd) : Bool :=
  cbTxWin c % 256 == w && s.cbBound c && (cbTxOf c).missed == 0 && (cbTxOf c).chans == 0 && s.cbAnyLink &&
    reached at_ ((cbTxOf c).raw + 2500) && s.cbInTime w at_ (cbTxLen c) && s.cbInOrder c

/-- A CB_TX frame leaves on both channels, or ends with INTERNAL. -/
def State.cbSendTx (s : State) (w at_ : Nat) (c : Cmd) : State :=
  let chk := s.readCheck (c.addr 0x18) (c.fld 8 0 11) (s.ctx c.ring).engine.toNat
  if !chk.1 then chk.2.endLong c ⟨stInternal, 0, []⟩
  else
    let s := (chk.2.cbStart c 0 w at_).cbSet (fun b => { b with prog := some ⟨w, [], at_ + cbWire (cbTxLen c)⟩ })
    match s.outAt c.ring c.pos with
    | none => s
    | some d => s.cbStart d 1 w at_

/-- The time master sends the sync frame of the cycle. -/
def State.cbSendSync (s : State) (at_ : Nat) : State :=
  let s := (s.cbOwn 0 (s.cbSync 0) at_ none).cbOwn 1 (s.cbSync 1) at_ none
  if s.on F.CB_BANKS_ANN_PEND && !s.cb.annSent then
    (s.cbSet (fun c => { c with annSent := true })).raise 164 [s.reg Reg.CB_ANN_ID, s.reg Reg.CB_ACT_MCN]
  else s

/-- The next own frame of a window leaves at an instant: the sync frame; a cyclic frame that still fits; then a CB_TX frame. -/
def State.cbSendNext (s : State) (w at_ : Nat) (p : CbProg) : State :=
  let put (t : State) (cyc : List (Nat × Word × List Byte)) (next : Nat) : State := t.cbSet (fun c => { c with prog := some ⟨w, cyc, next⟩ })
  if (s.cbNow w).kind = 1 then
    (if s.cb.prog.any (fun x => x.win == w) then s else put (s.cbSendSync at_) [] (at_ + cbWire 60))
  else match p.cyc.dropWhile (fun f => !s.cbInTime w at_ (cbDataLen f.2.2.length)) with
    | f :: t => put (s.cbSendCyc w at_ f.1 f.2.1.toNat f.2.2) t (at_ + cbWire (cbDataLen f.2.2.length))
    | [] => match s.cbTxs.find? (s.cbTxReady w at_) with
      | none => put s [] p.next
      | some c => (put s [] p.next).cbSendTx w at_ c

/-- CB_WINDOW_SEND: the exclusive or sync window w of the node has started; its next own frame leaves, at the window's start + 1,000 ns
or 96 ns after the one before, behind every frame that waits to be relayed (R297, R310). [DEDUCED, unsafe: notes/assumptions/55.md] -/
def State.cbWindowSend (s : State) (w : Nat) : State :=
  let x := s.cbNow w
  let p := s.cbProgOf w
  if s.cbMaySend && decide (0 < s.cb.starts) && ((x.kind == 1 && s.cbMaster) || x.kind == 2) && x.who == s.rd F.CB_CFG_NODE &&
      !reached s.raw (s.winEnd w) && reached s.raw p.next && s.cbAllPorts.all s.cbFree then s.cbSendNext w (s.cbStartAt p.next) p
  else s

/-- A frame may be the next of its ring on a channel: no earlier one of the ring is still to start, or to follow there. -/
def State.cbArbTurn (s : State) (ch : Nat) (c : Cmd) : Bool :=
  (s.cbTxs.find? (fun d => d.ring == c.ring && (d.pos == c.pos || ((cbTxOf d).chans == 0 && !s.cbPassed d) ||
    (cbTxArb d && bits (cbTxOf d).chans ch 1 == 0 && decide (s.cbWaited d ≤ d.fld 8 16 8))))).any (fun d => d.pos == c.pos)

/-- The next arbitrating frame of a channel: of the first one of each ring not yet sent there, the one of greatest priority, the
oldest of them. [DEDUCED, unsafe: notes/assumptions/54.md] -/
def State.cbArbNext (s : State) (ch : Nat) : Option Cmd :=
  let open_ (c : Cmd) : Bool := cbTxArb c && bits (cbTxOf c).chans ch 1 == 0 && decide (s.cbWaited c ≤ c.fld 8 16 8)
  (s.cbTxs.filter (fun c => open_ c && s.cbArbTurn ch c)).foldl (fun best c => match best with
    | none => some c
    | some b => if b.fld 8 13 3 < c.fld 8 13 3 then some c else best) none

/-- The arbitrating window open now. -/
def State.cbArbWin (s : State) : Option Nat :=
  (List.range 256).find? (fun w => (s.cbNow w).kind == 3 && reached s.raw (s.winStart w) && !reached s.raw (s.winEnd w))

/-- CB_ARB_SEND: after its back-off on an idle channel the node starts an arbitrating frame. -/
def State.cbArbSend (s : State) (ch : Nat) : State :=
  match s.cbArbWin, s.cbArbNext ch with
  | some w, some c =>
    let prio := c.fld 8 13 3
    let len := cbTxLen c
    let seen := Sparse.get s.cb.seenEnd 0 ch
    let from0 := s.winStart w + 500
    let from_ := if reached seen from0 then seen else from0
    let wait := 48 + (7 - prio) * s.rd F.CB_ARB_BO_SLOT * 5 + s.rd F.CB_CFG_NODE % 8 * 40
    let idle := !s.cbBusy (2 * ch) && !s.cbBusy (2 * ch + 1) && (Sparse.lookup s.cb.relay (2 * ch)).isNone && (Sparse.lookup s.cb.relay (2 * ch + 1)).isNone
    if s.cbMaySend && decide (0 < s.cb.starts) && s.cbMayArb (s.cbNow w) prio && idle && reached s.raw (from_ + wait) && s.cbPorts ch != [] &&
        reached s.raw ((cbTxOf c).raw + 2500) && s.cbInTime w s.raw len then
      let chk := s.readCheck (c.addr 0x18) (c.fld 8 0 11) (s.ctx c.ring).engine.toNat
      if !chk.1 then chk.2.endLong c ⟨stInternal, 0, []⟩ else chk.2.cbStart c ch w s.raw
    else s
  | _, _ => s

/-! ## The basic cycle (R303 to R308) -/

/-- CB_BANK_SWITCH at the start of macro cycle ACT_MCN (R307, R308). -/
def State.cbActivate (s : State) : State :=
  if s.cbPos = 0 ∧ s.on F.CB_BANKS_ANN_PEND ∧ s.cbMcn = s.rd F.CB_ACT_MCN_ACT_MCN then
    let id := s.rd F.CB_ANN_ID_ANN_ID
    let s := s.cbUnann
    if s.cbValid s.cbOther && s.cbId s.cbOther == id then s.cbSwap
    else if s.cbMaster then s else s.cbToListen 2
  else s

/-- CB_CYCLE_START: a basic cycle starts. [DEDUCED, unsafe: notes/assumptions/50.md] -/
def State.cbCycle (s : State) : State :=
  let s := if s.cbFollower && decide (0 < s.cb.starts) && !s.cb.got && !s.cb.judged then s.cbMiss else s
  let s := if s.cbFollower && decide (0 < s.cb.starts) then s.cbChanEnd else s
  let s := s.cbMarkMissed
  let hold := s.cb.got && s.cbState == 2
  let s := s.cbSet (fun c => { c with
    start := s.raw, starts := c.starts + 1, got := false, judged := false, hold := hold, prog := none,
    frozen := c.frozen.filter (fun x => x.count == c.starts + 1) })
  let wrap := decide (s.rd F.CB_POS_N_BC ≤ s.cbPos + 1)
  let s := if wrap then (s.wr F.CB_POS_BC 0).wr F.CB_MCN_MCN (s.cbMcn + 1) else s.wr F.CB_POS_BC (s.cbPos + 1)
  let s := s.cbActivate
  if s.cbMaster && !s.cbValid s.cbActive then s.enterSafe 0xFF else s

/-- The cycle start that a generator's fire brings. -/
def State.cbFires (s : State) (g : Nat) : State := if s.cbRole != 0 && s.cbOn && s.rd F.CB_CFG_PTO == g then s.cbCycle else s

/-! ## Receiving (R304, R315, R316) -/

/-- DEV in counts of TB_RAW: the end of the copy's SFD less the expected one (R304). [DESIGN CHOICE, unsafe: notes/assumptions/51.md] -/
def State.cbDev (s : State) (f : List Byte) : Int :=
  let d := (s.sfdRaw f.length 4 + 2 ^ 64 - (s.cb.start + 532 + s.rd F.CB_SYNCCHK_SYNC_DLY * 5) % 2 ^ 64) % 2 ^ 64
  (BitVec.ofNat 64 d).toInt

/-- DEV in 10 ns units within 16 bits. [DESIGN CHOICE, unsafe: notes/assumptions/51.md] -/
def devUnits (d : Int) : Int := max (-32768) (min 32767 (d / 5))

/-- The announcement in a sync copy is taken over, or cancelled (R308). [DEDUCED, unsafe: notes/assumptions/52.md] -/
def State.cbHearAnn (s : State) (f : List Byte) : State :=
  if frameFld f 0x16 2 % 2 = 0 then s.cbUnann
  else
    let id := frameFld f 0x1C 4
    let act := frameFld f 0x20 4
    if s.on F.CB_BANKS_ANN_PEND && s.rd F.CB_ANN_ID_ANN_ID == id && s.rd F.CB_ACT_MCN_ACT_MCN == act then s
    else (((s.wr F.CB_BANKS_ANN_PEND 1).wr F.CB_ANN_ID_ANN_ID id).wr F.CB_ACT_MCN_ACT_MCN act).raise 164 [w32 id, w32 act]

/-- The node's state after a valid sync copy (Table 12-7). [DESIGN CHOICE, unsafe: notes/assumptions/51.md] -/
def State.cbJudge (s : State) (id : Nat) (near : Bool) (dev : Word) : State :=
  let s := if near then s else s.raise 166 [dev]
  if s.cbValid s.cbActive && s.cbId s.cbActive == id then (if near then s.cbToSynced else s.cbToListen 3)
  else if s.cbValid s.cbOther && s.cbId s.cbOther == id then (if near then s.cbSwap.cbToSynced else s.cbSwap.cbToListen 3)
  else if s.cbState = 3 then (if near then s else s.cbToListen 3)
  else s.cbToListen 2

/-- The first valid sync copy of a basic cycle at a follower. [DEDUCED, unsafe: notes/assumptions/52.md] -/
def State.cbTakeSync (s : State) (f : List Byte) : State :=
  let dev := s.cbDev f
  let u := devUnits dev
  let s := ((s.wr F.CB_MCN_MCN (frameFld f 0x10 4)).wr F.CB_POS_BC (frameFld f 0x14 1)).wr F.CB_POS_N_BC (frameFld f 0x15 1)
  let s := (s.wr F.CB_SYNCDEV_LAST (BitVec.ofInt 16 u).toNat).peak F.CB_SYNCDEV_MAX u.natAbs
  let s := s.recEvent 12 0 (BitVec.ofInt 64 u).toNat
  let s := s.cbSet (fun c => { c with got := true, missRun := 0, heard := w32 (frameFld f 0x18 4) })
  (s.cbHearAnn f).cbJudge (frameFld f 0x18 4) (decide (dev.natAbs ≤ s.rd F.CB_SYNCCHK_SYNC_TOL * 50)) (w32 (BitVec.ofInt 32 u).toNat)

/-- A frame of the module's own format (ETYPE), of its version, and its TYPE. -/
def State.cbOurs (s : State) (f : List Byte) : Bool := frameType f == s.rd F.CB_ETYPE_ETYPE
def cbVer (f : List Byte) : Bool := frameFld f 14 1 / 16 == 1
def cbType (f : List Byte) : Nat := frameFld f 14 1 % 8

/-- A frame at a port is received at all: node on, channel in use, not an own frame come back. -/
def State.cbHears (s : State) (q : Nat) (f : List Byte) : Bool := s.cbOn && s.cbChan (q / 2) && frameSa f != s.cbMac

/-- CB_SYNC_RX: a sync frame has arrived at a port. -/
def State.cbSyncRx (s : State) (q : Nat) (f : List Byte) (ok : Bool) : State :=
  if !(s.cbHears q f && s.cbOurs f && cbType f == 0) then s
  else if !ok then s.satAdd (F.CB_PORT_04_RX_FCS q) 1
  else if !cbVer f then s.satAdd (F.CB_PORT_08_RX_HDR q) 1
  else if frameFld f 15 1 ≠ s.rd F.CB_CFG_TM_NODE then s.satAdd F.CB_CNT_SYNC_FOREIGN 1
  else if !s.cbFollower || s.cb.starts == 0 || reached s.raw (s.winEnd 0) then s
  else
    let s := (s.satAdd (F.CB_PORT_00_RX_OK q) 1).cbGot (q / 2)
    if s.cb.got then s.satAdd (F.CB_PORT_0C_RX_DUP q) 1 else s.cbTakeSync f

/-- The receive dataset with a DSID. -/
def State.rxDataset (s : State) (dsid : Nat) : Option Nat :=
  (List.range s.dsetCount).find? (fun d => s.dsKind d == 1 && s.dsid d == dsid)

/-- CB_DATA_RX: a data frame has arrived at a port. -/
def State.cbDataRx (s : State) (q : Nat) (f : List Byte) (ok : Bool) : State :=
  if !(s.cbHears q f && s.cbOurs f && cbType f != 0) then s
  else if !ok then s.satAdd (F.CB_PORT_04_RX_FCS q) 1
  else
    let n := frameFld f 0x16 2
    if !cbVer f || cbType f != 1 || frameFld f 14 1 / 8 % 2 != q / 2 then s.satAdd (F.CB_PORT_08_RX_HDR q) 1
    else
      let s := s.satAdd (F.CB_PORT_00_RX_OK q) 1
      match s.rxDataset (frameFld f 0x18 4 % 2 ^ 26) with
      | none => s.satAdd (F.CB_PORT_08_RX_HDR q) 1
      | some d =>
        let ws := frameFld f 0x1C 4
        let x := (ws + 2 ^ 32 - s.ds d 0x30 0 32) % 2 ^ 32
        let e := 0x0D + q
        if n ≠ s.dlen d ∨ f.length < 0x20 + n then s.satAdd (F.CB_PORT_08_RX_HDR q) 1
        else if s.ds d 0x24 10 1 = 1 ∧ !(decide (1 ≤ x) && decide (x < 2 ^ 31)) then s.satAdd (F.CB_PORT_0C_RX_DUP q) 1
        else ((s.setDs e d 0x30 0 32 ws).setDs e d 0x24 10 1 1).publish e d ((f.drop 0x20).take n)

/-- CB_RAW_RX: a raw frame has arrived at a port. -/
def State.cbRawRx (s : State) (q : Nat) (f : List Byte) (ok : Bool) : State :=
  if !(s.cbHears q f && !s.cbOurs f) then s
  else if !ok then s.satAdd (F.CB_PORT_04_RX_FCS q) 1
  else if frameDa f ≠ s.cbMac ∧ frameFld f 0 1 % 2 = 0 then s
  else match s.rxDeliver (0x0D + q) 0x21 f (s.sfdRaw f.length 4) 156 with
    | some t => t
    | none => (s.satAdd (F.CB_PORT_1C_RX_DROP q) 1).raise 170 [w32 q]

/-! ## Relaying (R296, R297) -/

/-- CB_RELAY: a frame arrives at a port and leaves the other port of its channel, waits there, or is dropped. -/
def State.cbRelay (s : State) (q : Nat) (f : List Byte) (ok : Bool) : State :=
  let o := 2 * (q / 2) + (1 - q % 2)
  if !(s.cbOn && s.cbChan (q / 2)) then s
  else
  let s := s.cbSee (q / 2) (s.raw + (f.length + 12) * 4)
  if frameSa f = s.cbMac then (s.satAdd (F.CB_PORT_14_LOOP q) 1).raise 172 [w32 q]
  else
    let s := s.pairHears f
    if !(s.cbOn && s.cbLink o) then s
    else if (Sparse.lookup s.cb.relay o).isSome then (s.satAdd (F.CB_PORT_14_RLY_DROP o) 1).raise 171 [w32 o]
    else if s.cbBusy o then s.cbSet (fun c => { c with relay := Sparse.insert c.relay o (ok, f) })
    else (s.cbOut o f ok (s.raw + (f.length + 12) * 4)).satAdd (F.CB_PORT_10_RLY_FWD o) 1

/-- CB_RELAY_BUFFERED: the frame held for a port leaves whole, 96 ns after the own frame's end. -/
def State.cbRelayBuffered (s : State) (o : Nat) : State :=
  match Sparse.lookup s.cb.relay o with
  | none => s
  | some x =>
    if s.cbOn && reached s.raw (s.cbBusyEnd o + 48) then
      let s := s.cbSet (fun c => { c with relay := Sparse.erase c.relay o })
      if s.cbLink o then (s.cbOut o x.2 x.1 (s.raw + (x.2.length + 12) * 4)).satAdd (F.CB_PORT_10_RLY_FWD o) 1 else s
    else s

/-! ## Links and the other commands (R319, R320) -/

/-- CB_LINK_CHANGE: a port gains or loses link; waiting CB_TX commands have seen it. -/
def State.cbLinkChange (s : State) (q : Nat) (up : Bool) : State :=
  if s.cbLink q == up then s
  else
    let s := s.wr ⟨Reg.CB_STAT, 16 + q, 1⟩ (b2n up)
    let s := if up && s.cbChan (q / 2) then
        s.cbTxs.foldl (fun t c => t.setOut (CbTx.into { cbTxOf c with link := 1 } c)) s else s
    (s.raise 169 [w32 (q + 256 * b2n up)]).cbByLink

/-- The end of a CB_RX_POST that fails its checks. -/
def State.cbRxFails (s : State) (c : Cmd) : Option Final :=
  let size := c.fld 8 0 11
  if !(c.headerOk && c.fld 8 11 21 == 0 && c.word 0xC == 0 && c.fld 0x14 8 24 == 0 && c.zeroFrom 0x18) ||
      decide (size < 64) || decide (1518 < size) || c.addr 0x10 % 64 != 0 || !s.engineMayWrite (c.addr 0x10) size then some finBad
  else none

/-- The end of a CB_SCHED_LOAD that fails its checks. -/
def State.cbLoadFails (s : State) (c : Cmd) : Option Final :=
  if !(c.headerOk && c.word 8 == 0 && c.word 0xC == 0 && c.fld 0x14 8 24 == 0 && c.zeroFrom 0x18) || c.addr 0x10 % 64 != 0 ||
      !State.engineMayRead (c.addr 0x10) 135184 then some finBad
  else if s.cbMaster && s.on F.CB_BANKS_ANN_PEND then some ⟨stBadDescriptor, 3, []⟩
  else none

/-- CB_SCHED_LOAD is taken: the inactive bank is not valid any more. [DEDUCED, unsafe: notes/assumptions/55.md] -/
def State.cbLoad (s : State) (q : Nat) : State :=
  s.doLong (0x0D + q) 0x22 (fun _ s => (s.setCbValid s.cbOther false).wr F.CB_BANKS_LOADING 1)

/-- CB_ANNOUNCE. -/
def runCbAnnounce (c : Cmd) (s : State) : State × Final :=
  let ahead (m : Nat) : Bool :=
    let d := (m + 2 ^ 32 - s.cbMcn) % 2 ^ 32
    decide (2 ≤ d) && decide (d < 2 ^ 31)
  let cancel := c.fld 8 0 1 == 1
  let pend := s.on F.CB_BANKS_ANN_PEND
  if !(c.headerOk && c.fld 8 1 31 == 0 && c.word 0xC == 0 && c.zeroFrom 0x18) || !s.cbMaster then (s, finBad)
  else if cancel then
    (if pend && ahead (s.rd F.CB_ACT_MCN_ACT_MCN) then (s.cbUnann, finOk []) else (s, ⟨stMissedWindow, 0, []⟩))
  else if !(s.cbValid s.cbOther && s.cbId s.cbOther == c.word 0x10) || !ahead (c.word 0x14) then (s, finBad)
  else if pend then (s, ⟨stLostArb, 0, []⟩)
  else
    let s := ((s.wr F.CB_BANKS_ANN_PEND 1).wr F.CB_ANN_ID_ANN_ID (c.word 0x10)).wr F.CB_ACT_MCN_ACT_MCN (c.word 0x14)
    (s.cbSet (fun b => { b with annSent := false }), finOk [])

/-- CB_STATUS. -/
def runCbStatus (c : Cmd) (s : State) : State × Final :=
  if !(c.headerOk && c.word 8 == 0 && c.word 0xC == 0 && c.fld 0x14 8 24 == 0 && c.zeroFrom 0x18) || c.addr 0x10 % 64 != 0 ||
      !s.engineMayWrite (c.addr 0x10) 64 then (s, finBad)
  else
    let ws := [s.reg Reg.CB_STAT, s.reg Reg.CB_MCN, s.reg Reg.CB_POS, s.reg Reg.CB_ID0, s.reg Reg.CB_ID1, s.reg Reg.CB_BANKS,
      s.reg Reg.CB_ANN_ID, s.reg Reg.CB_ACT_MCN, s.reg Reg.CB_SYNCDEV, s.reg Reg.CB_CNT]
    (s.outBuf c (c.addr 0x10) (wordBytes ws ++ zeros 24), finOk [])

/-! ## Bank checks (R317, R322) -/

/-- The bytes of a bank from offset 0x10. -/
def State.cbBody (s : State) (b : Nat) : List Byte := (List.range 33792).flatMap (fun i => leBytes 4 (s.cbWord b (4 + i)))

/-- The least length of a window, in counts of TB_RAW (R317). -/
def State.cbMinLen (s : State) (b idx : Nat) (x : CbWin) : Nat :=
  500 + s.rd F.CB_SPAN_SPAN * 5 + 1000 +
    (if x.kind = 2 then ((s.cbCycOf b idx).map (fun d => cbWire (cbDataLen (s.dlen d)))).foldl (· + ·) 0 else cbWire 60)

/-- Used windows of one basic cycle, in table order. -/
def State.cbUsed (s : State) (b bc : Nat) : List CbWin := ((List.range 256).map (s.cbWin b bc)).filter (fun x => x.kind != 0)

/-- Windows rise in START and do not overlap. -/
def winsRise : List CbWin → Bool
  | [] => true
  | [_] => true
  | x :: y :: t => decide (x.start < y.start) && decide (x.start + x.len ≤ y.start) && winsRise (y :: t)

/-- A check of codes 0x3 to 0x6 fails for a bank. -/
def State.cbBankFails (s : State) (code b : Nat) : Bool :=
  let n := s.cbNbc b
  match code with
  | 3 => (crc32c (s.cbBody b)).toNat != s.cbWord b 0 || n == 0 || decide (64 < n) || decide (1024 < s.cbNcyc b)
  | 4 =>
    (List.range n).any (fun bc =>
      let z := s.cbWin b bc 0
      z.kind != 1 || z.start != 0 || z.who != s.rd F.CB_CFG_TM_NODE || !winsRise (s.cbUsed b bc) ||
        (List.range 256).any (fun w =>
          let x := s.cbWin b bc w
          (decide (0 < w) && x.kind == 1) || (x.kind != 0 && decide (s.rd F.CB_BC_BC_LEN * 100 < x.start + x.len)) ||
            (x.kind == 3 && decide (63 < x.who)))) ||
      (List.range (64 - n)).any (fun k => s.cbUsed b (n + k) != [])
  | 5 =>
    (List.range n).any (fun bc => (List.range 256).any (fun w =>
      let x := s.cbWin b bc w
      x.kind != 0 && decide (x.len * 5 < s.cbMinLen b (256 * bc + w) x)))
  | _ =>
    let es := (List.range (s.cbNcyc b)).map (s.cbCyc b)
    (es.zip es.tail).any (fun p => decide (p.2.1 < p.1.1)) ||
      es.any (fun e =>
        let x := s.cbWin b (e.1 / 256) (e.1 % 256)
        x.kind != 2 || !x.cyc || s.dlen e.2 == 0 || decide (1482 < s.dlen e.2))

/-- CB_SCHED_LOAD_DONE: the oldest load writes the inactive bank and ends with its checks. [DEDUCED, unsafe: notes/assumptions/55.md] -/
def State.cbLoadDone (s : State) : State :=
  let loads (t : State) : List Cmd := t.rings.out.filter (fun c =>
    let e := (t.ctx c.ring).engine.toNat
    decide (0x0D ≤ e) && decide (e ≤ 0x10) && c.opcode == 0x22 && c.fin == none)
  match loads s with
  | [] => s
  | c :: _ =>
    if !s.running then s
    else
      let b := s.cbOther
      let chk := s.readCheck (c.addr 0x10) 135184 (s.ctx c.ring).engine.toNat
      let s := chk.2
      let fin (t : State) (f : Final) : State :=
        let t := t.endLong c f
        t.wr F.CB_BANKS_LOADING (b2n (loads t != []))
      if !chk.1 then fin s ⟨stInternal, 0, []⟩
      else
        let s := (List.range cbBankWords).foldl (fun t i => t.setCbWord b i (t.word (c.addr 0x10 + 4 * i))) (s.setCbValid b false)
        if (crc32c (s.cbBody b)).toNat ≠ s.cbWord b 0 then fin s ⟨stBadDescriptor, 1, []⟩
        else if [3, 4, 5, 6].any (fun k => s.cbBankFails k b) then fin s ⟨stBadDescriptor, 2, []⟩
        else fin (s.setCbValid b true) (finOk [w32 (s.cbWord b 0), w32 b])

/-- Codes 0x1, 0x2 and 0x7. -/
def State.cbNodeFails (s : State) (code : Nat) : Bool :=
  let et := s.rd F.CB_ETYPE_ETYPE
  let bc := s.rd F.CB_BC_BC_LEN
  let g := s.rd F.CB_CFG_PTO
  match code with
  | 1 =>
    s.cbRole == 3 || (!s.cbChan 0 && !s.cbChan 1) || s.cbMac == 0 || bits s.cbMac 40 1 == 1 || decide (et < 0x600) || et == 0x88F7 ||
      (List.range 3).any (fun n => s.rd (F.CR_CFG_ROLE n) != 0 && s.rd (F.CR_ETYPE_ETYPE n) == et) ||
      (s.cbRole == 2 && s.rd F.CB_CFG_NODE != s.rd F.CB_CFG_TM_NODE)
  | 2 =>
    decide (bc < 125) || decide (8000 < bc) || s.rd (F.PTO_CTL_MODE g) != 2 || s.on (F.PTO_CTL_ARM_EN g) ||
      s.ptoPer g != bc * (if s.on (F.PTO_CTL_BASE g) then 1000 else 500)
  | _ => decide (s.rd F.CB_CFG_SYNC_LOSS_N ≤ s.rd F.CB_CFG_SYNC_HOLD) || (s.cbRole == 1 && s.rd F.CB_SYNCCHK_SYNC_TOL == 0)

/-- A check of one code fails. -/
def State.cbFails (s : State) (code : Nat) : Bool :=
  if code = 1 ∨ code = 2 ∨ code = 7 then s.cbNodeFails code
  else s.cbBankFails code 0 || (s.cb.written1 && s.cbBankFails code 1)

/-- The CB block's check. -/
def State.cbSetupCheck (s : State) : Bool × State :=
  if s.cbRole = 0 then (true, s)
  else match [1, 2, 3, 4, 5, 6, 7].find? s.cbFails with
    | none => (true, s)
    | some k => (false, ((s.wr F.CB_STAT_CFG_ERR 1).wr F.CB_STAT_CFG_CODE k).raise 173 [w32 k])

/-! ## Start (Table 12-7) -/

/-- SETUP_LOCK, or Kindle, where MCN and b continue. -/
def State.cbStartUp (s : State) (kindle : Bool) : State :=
  if s.cbRole = 0 then s
  else
    let s := s.cbSet (fun c => { Cb.start0 with banks := c.banks, written1 := c.written1 })
    let s := if kindle then s
      else
        let s := (s.setCbValid 0 true).wr F.CB_BANKS_ACTIVE 0
        let s := if s.cb.written1 then s.setCbValid 1 true else s
        s.wr F.CB_POS_N_BC (s.cbNbc 0)
    if s.cbMaster then
      let s := if kindle then s else (s.wr F.CB_MCN_MCN 0).wr F.CB_POS_BC (s.rd F.CB_POS_N_BC - 1)
      s.cbToSynced.cbByLink
    else s.wr F.CB_STAT_STATE 1

/-- A write to CB_CLR (R324). -/
def State.cbClear (s : State) (w : Word) : State :=
  if w.getLsbD 0 then
    let s := (s.setReg Reg.CB_CNT 0).wr F.CB_SYNCDEV_MAX 0
    (List.range 4).foldl (fun t q => (List.range 8).foldl (fun t k => t.setReg (Reg.CB_PORT_00 q + 4 * k) 0) t) s
  else s

/-- A write to CB_BANK_DATA in the Setup phase stores the word at WORD of BANK; WORD advances (R324). [DEDUCED, unsafe: notes/assumptions/53.md] -/
def State.cbBankData (s : State) (w : Word) : State :=
  if !s.setupPhase then s
  else
    let i := s.rd F.CB_BANK_ADDR_WORD
    let b := s.rd F.CB_BANK_ADDR_BANK
    let s := if i < cbBankWords then s.setCbWord b i w else s
    let s := if b = 1 then s.cbSet (fun c => { c with written1 := true }) else s
    s.wr F.CB_BANK_ADDR_WORD (i + 1)

end Machine
end Sys2Proof
end

