-- ==== Sys2Proof/Machine/Backbone.lean ====
section
/-!
DEFINITION. The rows of the consist backbone (chapter 12).
-/

namespace Sys2Proof
namespace Machine

/-- A frame arrives at port q; `ok` says that its FCS checks. -/
def cbSyncRx (q : Fin 4) (f : List Byte) (ok : Bool) (s : State) : State := s.cbSyncRx q.val f ok
/-- [DEDUCED, unsafe: notes/assumptions/53.md] -/
def cbRelay (q : Fin 4) (f : List Byte) (ok : Bool) (s : State) : State := s.cbRelay q.val f ok
/-- [DEDUCED, unsafe: notes/assumptions/53.md] -/
def cbDataRx (q : Fin 4) (f : List Byte) (ok : Bool) (s : State) : State := s.cbDataRx q.val f ok
def cbRawRx (q : Fin 4) (f : List Byte) (ok : Bool) (s : State) : State := s.cbRawRx q.val f ok

/-- Window 0 has ended without a valid sync copy. [DEDUCED, unsafe: notes/assumptions/50.md] -/
def cbSyncMissed (s : State) : State := s.cbSyncMissed

/-- The frame waiting for port q is relayed. -/
def cbRelayBuffered (q : Fin 4) (s : State) : State := s.cbRelayBuffered q.val

/-- Window w of the present basic cycle freezes, or starts. -/
def cbImageFreeze (w : Fin 256) (s : State) : State := s.cbFreeze w.val
def cbWindowSend (w : Fin 256) (s : State) : State := s.cbWindowSend w.val

/-- The node starts an arbitrating frame on a channel. -/
def cbArbSend (ch : Fin 2) (s : State) : State := s.cbArbSend ch.val

/-- The commands of port q's engine. -/
def cbTx (q : Fin 4) (s : State) : State := s.cbTxTake q.val
def cbTxExpiry (q : Fin 4) (s : State) : State := s.cbTxExpiry q.val
def cbRxPost (q : Fin 4) (s : State) : State := s.doLong (0x0D + q.val) 0x21 (fun _ s => s)
def cbSchedLoad (q : Fin 4) (s : State) : State := s.cbLoad q.val
def cbSchedLoadDone (s : State) : State := s.cbLoadDone
def cbAnnounce (q : Fin 4) (s : State) : State := s.doShort (0x0D + q.val) 0x23 runCbAnnounce
def cbStatus (q : Fin 4) (s : State) : State := s.doShort (0x0D + q.val) 0x24 runCbStatus

/-- Port q gains or loses link. -/
def cbLinkChange (q : Fin 4) (up : Bool) (s : State) : State := s.cbLinkChange q.val up

/-- Writes of CB_BANK_DATA and CB_CLR. -/
def cbBankDataWrite (_who : Requester) (w : Word) (s : State) : State := s.cbBankData w
def cbClr (_who : Requester) (w : Word) (s : State) : State := s.cbClear w

/-! ## Meanings -/

/-- The effect of CB_SYNC_RX. -/
def execCbSyncRx (q : Fin 4) (f : List Byte) (ok : Bool) (s : State) : Host.Outcome State Fault Refusal :=
  .next (cbSyncRx q f ok s)
/-- The effect of CB_SYNC_MISSED. -/
def execCbSyncMissed (s : State) : Host.Outcome State Fault Refusal := .next (cbSyncMissed s)
/-- The effect of CB_RELAY. -/
def execCbRelay (q : Fin 4) (f : List Byte) (ok : Bool) (s : State) : Host.Outcome State Fault Refusal :=
  .next (cbRelay q f ok s)
/-- The effect of CB_RELAY_BUFFERED. -/
def execCbRelayBuffered (q : Fin 4) (s : State) : Host.Outcome State Fault Refusal := .next (cbRelayBuffered q s)
/-- The effect of CB_DATA_RX. -/
def execCbDataRx (q : Fin 4) (f : List Byte) (ok : Bool) (s : State) : Host.Outcome State Fault Refusal :=
  .next (cbDataRx q f ok s)
/-- The effect of CB_RAW_RX. -/
def execCbRawRx (q : Fin 4) (f : List Byte) (ok : Bool) (s : State) : Host.Outcome State Fault Refusal :=
  .next (cbRawRx q f ok s)
/-- The effect of CB_IMAGE_FREEZE. -/
def execCbImageFreeze (w : Fin 256) (s : State) : Host.Outcome State Fault Refusal := .next (cbImageFreeze w s)
/-- The effect of CB_WINDOW_SEND. -/
def execCbWindowSend (w : Fin 256) (s : State) : Host.Outcome State Fault Refusal := .next (cbWindowSend w s)
/-- The effect of CB_ARB_SEND. -/
def execCbArbSend (ch : Fin 2) (s : State) : Host.Outcome State Fault Refusal := .next (cbArbSend ch s)
/-- The effect of CB_TX. -/
def execCbTx (q : Fin 4) (s : State) : Host.Outcome State Fault Refusal := .next (cbTx q s)
/-- The effect of CB_TX_EXPIRY. -/
def execCbTxExpiry (q : Fin 4) (s : State) : Host.Outcome State Fault Refusal := .next (cbTxExpiry q s)
/-- The effect of CB_RX_POST. -/
def execCbRxPost (q : Fin 4) (s : State) : Host.Outcome State Fault Refusal := .next (cbRxPost q s)
/-- The effect of CB_SCHED_LOAD. -/
def execCbSchedLoad (q : Fin 4) (s : State) : Host.Outcome State Fault Refusal := .next (cbSchedLoad q s)
/-- The effect of CB_SCHED_LOAD_DONE. -/
def execCbSchedLoadDone (s : State) : Host.Outcome State Fault Refusal := .next (cbSchedLoadDone s)
/-- The effect of CB_ANNOUNCE. -/
def execCbAnnounce (q : Fin 4) (s : State) : Host.Outcome State Fault Refusal := .next (cbAnnounce q s)
/-- The effect of CB_STATUS. -/
def execCbStatus (q : Fin 4) (s : State) : Host.Outcome State Fault Refusal := .next (cbStatus q s)
/-- The effect of CB_LINK_CHANGE. -/
def execCbLinkChange (q : Fin 4) (up : Bool) (s : State) : Host.Outcome State Fault Refusal :=
  .next (cbLinkChange q up s)
/-- The effect of CB_BANK_DATA_WRITE. -/
def execCbBankDataWrite (who : Requester) (w : Word) (s : State) : Host.Outcome State Fault Refusal :=
  .next (s.arrive who Reg.CB_BANK_DATA w (fun t => cbBankDataWrite who w t))
/-- The effect of CB_CLR. -/
def execCbClr (who : Requester) (w : Word) (s : State) : Host.Outcome State Fault Refusal :=
  .next (s.arrive who Reg.CB_CLR w (fun t => cbClr who w t))

end Machine
end Sys2Proof
end

