-- ==== Sys2Proof/Machine/Crypto.lean ====
section
/-!
DEFINITION. SHA-256 and the verification of an ECDSA P-256 signature (FIPS 180-4 and FIPS 186, which R89, R90 and R552 name).
-/

namespace Sys2Proof
namespace Machine

/-! ## SHA-256 -/

/-- A number has no divisor from 2 up to itself. -/
def isPrime (p : Nat) : Bool := decide (2 ≤ p) && (List.range p).all (fun d => decide (d < 2) || p % d != 0)

/-- The 64 primes up to 311, from which FIPS 180-4 takes its constants. -/
def shaPrimes : List Nat := (List.range 312).filter isPrime

/-- The greatest r below 2^n whose e-th power is at most x. -/
def rootBits (e x : Nat) : Nat → Nat
  | 0 => 0
  | n + 1 =>
    let r := 2 * rootBits e (x / 2 ^ e) n
    if (r + 1) ^ e ≤ x then r + 1 else r

/-- The first 32 bits of the fractional part of the e-th root of p. -/
def rootFraction (e p : Nat) : Word := w32 (rootBits e (p * 2 ^ (32 * e)) 37)

/-- The round constants, from the cube roots of the 64 primes. -/
def shaK : List Word := shaPrimes.map (rootFraction 3)

/-- The initial hash value, from the square roots of the first 8 primes. -/
def shaInit : List Word := (shaPrimes.take 8).map (rootFraction 2)

/-- Rotation of a word to the right. -/
def rotr (x : Word) (n : Nat) : Word := (x >>> n) ||| (x <<< (32 - n))

/-- The message schedule, newest word first, extended by n words. -/
def shaExtend : Nat → List Word → List Word
  | 0, w => w
  | n + 1, w =>
    let a := w.getD 14 0
    let b := w.getD 1 0
    let mix (x : Word) (i j k : Nat) : Word := rotr x i ^^^ rotr x j ^^^ (x >>> k)
    shaExtend n ((mix a 7 18 3 + mix b 17 19 10 + w.getD 15 0 + w.getD 6 0) :: w)

/-- Three rotations of a word, combined bit by bit. -/
def rot3 (x : Word) (i j k : Nat) : Word := rotr x i ^^^ rotr x j ^^^ rotr x k

/-- Bit by bit: y where x is 1, otherwise z. -/
def pick (x y z : Word) : Word := z ^^^ (x &&& (y ^^^ z))

/-- Bit by bit: the value that two of three words have. -/
def major (x y z : Word) : Word := (x &&& y) ||| (z &&& (x ||| y))

/-- One round over the eight working words. -/
def shaRound (v : List Word) (k w : Word) : List Word :=
  match v with
  | [a, b, c, d, e, f, g, h] =>
    let t := k + w + h + pick e f g + rot3 e 6 11 25
    [t + major a b c + rot3 a 2 13 22, a, b, c, d + t, e, f, g]
  | _ => v

/-- The compression of one block of sixteen big-endian words. -/
def shaBlock (h : List Word) (block : List Word) : List Word :=
  let w := (shaExtend 48 block.reverse).reverse
  let v := (List.zip shaK w).foldl (fun v p => shaRound v p.1 p.2) h
  List.zipWith (· + ·) h v

/-- n big-endian words of a byte list. -/
def beWords : Nat → List Byte → List Word
  | 0, _ => []
  | n + 1, bs => w32 (beNat (bs.take 4)) :: beWords n (bs.drop 4)

/-- The compression of n blocks. -/
def shaBlocks : Nat → List Word → List Byte → List Word
  | 0, h, _ => h
  | n + 1, h, bs => shaBlocks n (shaBlock h (beWords 16 (bs.take 64))) (bs.drop 64)

/-- The padded message. -/
def shaPad (bs : List Byte) : List Byte :=
  bs ++ [0x80] ++ zeros ((119 - bs.length % 64) % 64) ++ beBytes 8 (8 * bs.length)

/-- The SHA-256 digest of bytes, as a 256-bit number. -/
def sha256 (bs : List Byte) : BitVec 256 :=
  let p := shaPad bs
  BitVec.ofNat 256 ((shaBlocks (p.length / 64) shaInit p).foldl (fun a w => a * 2 ^ 32 + w.toNat) 0)

/-! ## ECDSA on P-256 -/

/-- The field's prime, the order of the base point, the curve's coefficient b and the base point. -/
def p256p : Nat := 0xffffffff00000001000000000000000000000000ffffffffffffffffffffffff
def p256n : Nat := 0xffffffff00000000ffffffffffffffffbce6faada7179e84f3b9cac2fc632551
def p256b : Nat := 0x5ac635d8aa3a93e7b3ebbd55769886bc651d06b0cc53b0f63bce3c3e27d2604b
def p256gx : Nat := 0x6b17d1f2e12c4247f8bce6e563a440f277037d812deb33a0f4a13945d898c296
def p256gy : Nat := 0x4fe342e2fe1a7f9b8ee7eb4a7c0f9e162bce33576b315ececbb6406837bf51f5

/-- x^e modulo m, over the n low bits of e. -/
def powMod (m x e : Nat) : Nat → Nat
  | 0 => 1 % m
  | n + 1 => let h := powMod m (x * x % m) (e / 2) n; if e % 2 = 1 then h * x % m else h

/-- The inverse modulo a prime. -/
def invMod (m x : Nat) : Nat := powMod m (x % m) (m - 2) 256

/-- A point of the curve; none is the point at infinity. -/
abbrev EcPoint := Option (Nat × Nat)

/-- The sum of two points. -/
def ecAdd (a b : EcPoint) : EcPoint :=
  match a, b with
  | none, q => q
  | q, none => q
  | some (x1, y1), some (x2, y2) =>
    if x1 = x2 ∧ (y1 + y2) % p256p = 0 then none
    else
      let l := if x1 = x2 then (3 * x1 * x1 + (p256p - 3)) * invMod p256p (2 * y1) % p256p
        else (y2 + (p256p - y1)) * invMod p256p (x2 + (p256p - x1)) % p256p
      let x3 := (l * l + 2 * p256p - x1 - x2) % p256p
      some (x3, (l * (x1 + (p256p - x3)) + (p256p - y1)) % p256p)

/-- k times a point, over the n low bits of k. -/
def ecMul (k : Nat) (q : EcPoint) : Nat → EcPoint
  | 0 => none
  | n + 1 => let h := ecMul (k / 2) (ecAdd q q) n; if k % 2 = 1 then ecAdd h q else h

/-- A public key lies on the curve. -/
def ecOnCurve (x y : Nat) : Bool :=
  decide (x < p256p) && decide (y < p256p) && y * y % p256p == (x * x * x + (p256p - 3) * x + p256b) % p256p

/-- Verifies the signature (r, s) of a digest under the public key (x, y). -/
def ecdsaOk (digest : BitVec 256) (x y r s : Nat) : Bool :=
  let w := invMod p256n s
  let u1 := digest.toNat * w % p256n
  let u2 := r * w % p256n
  ecOnCurve x y && decide (0 < r) && decide (r < p256n) && decide (0 < s) && decide (s < p256n) &&
    (match ecAdd (ecMul u1 (some (p256gx, p256gy)) 256) (ecMul u2 (some (x, y)) 256) with
      | none => false
      | some q => q.1 % p256n == r)

end Machine
end Sys2Proof
end

