-- ==== Sys2Proof/Machine/Power.lean ====
section
/-!
DEFINITION. Power: supply events, the resets, straps, performance levels and the lane clock (chapters 02 and 03).
-/

namespace Sys2Proof
namespace Machine

/-! ## Feeds and hold-up (R64 to R66) -/

/-- The FEED bit of a feed. -/
def feedFld : Feed → Fld
  | .feedA => F.PWR_STAT_FEED_A
  | .feedB => F.PWR_STAT_FEED_B

/-- Both feeds are absent. -/
def State.noFeed (s : State) : Bool := !s.on F.PWR_STAT_FEED_A && !s.on F.PWR_STAT_FEED_B

/-- A FEED bit changes, and PF with it (R66): FEED_CHG, the feed-change event and the MP's request. The bits are not recorded in reset. [DEDUCED, unsafe: notes/assumptions/26.md] -/
def State.feedChange (s : State) (f : Feed) (present : Bool) (vlog : Byte) : State :=
  let s := (s.wr (feedFld f) (b2n present)).wr F.PWR_STAT_VLOG vlog.toNat
  let s := s.wr F.PWR_STAT_PF (b2n s.noFeed)
  if s.phase = Phase.reset then s
  else
    let s := s.wr F.PWR_STAT_FEED_CHG 1
    (s.raise 480 [s.reg Reg.PWR_STAT]).mpIrq 6

/-- POWER_FAIL: both feeds are absent, and the recorder starts a flush (R66, R528). In reset PF alone follows the feeds. -/
def State.powerFail (s : State) : State :=
  if s.phase = Phase.reset then s else (s.raise 481 [s.reg Reg.PWR_STAT]).recFlush

/-- The first feed rises through 16.8 V on a module without power: the RTC counts from 0 and reset waits for its release
(R64, Table 3-3a). -/
def vlogRise (f : Feed) (vlog : Byte) (s : State) : State :=
  if s.phase = Phase.reset ∧ s.pwr.hold = Hold.unpowered ∧ 84 ≤ vlog.toNat then
    let s := ((s.wr (feedFld f) 1).wr F.PWR_STAT_VLOG vlog.toNat).wr F.PWR_STAT_PF 0
    let s := (s.wr F.SYS_RSTCAUSE_LAST 0).wr F.SYS_RSTCAUSE_STICKY 1
    { s with pwr := { s.pwr with hold := .none, rtc := 0, rtcFrac := 0 } }
  else s

/-- A feed falls below 16.8 V (R65, R66). -/
def feedAbsent (f : Feed) (vlog : Byte) (s : State) : State :=
  if s.on (feedFld f) then
    let s := s.feedChange f false vlog
    if s.noFeed then s.powerFail else s
  else s

/-- A feed reported absent has stayed at or above 17.2 V for 10 ms (R65). A module held in reset after VLOG_FAIL waits for
this (R66). -/
def feedPresentTimer (f : Feed) (vlog : Byte) (s : State) : State :=
  if s.on (feedFld f) || s.pwr.hold == .unpowered || decide (vlog.toNat < 86) then s
  else
    let s := s.feedChange f true vlog
    if s.pwr.hold = Hold.feed then { s with pwr := { s.pwr with hold := .none } } else s

/-- The hold-up bus falls below 14.0 V with both feeds absent (R66). -/
def holdupExhausted (s : State) : State :=
  if s.noFeed && s.pwr.hold != .unpowered then (s.enterSafe 8).resetModule .vlogFail 0 else s

/-- The hold-up bus crosses 38.0 V (R66). -/
def holdupLevelChange (ok : Bool) (s : State) : State := s.wr F.PWR_STAT_HU_OK (b2n ok)

/-! ## Rails and temperature (R67, R68) -/

/-- A fault on VHEARTH (R67). -/
def vhearthFault (s : State) : State :=
  if s.pwr.hold = Hold.unpowered then s
  else s.resetModule (if s.on F.LP_STAT_LP_MODE then .borLp else .por) 0

/-- The lanes have their supply: Setup and Operate phases, in Run, while entering an Ember state, in E1, and not in the
Banked role (Table 3-1). -/
def State.laneRail (s : State) : Bool :=
  (s.setupPhase || s.operate) &&
    (match s.pwr.state with
      | .run => true
      | .entering => true
      | .e1 => true
      | .quiesce _ => true
      | .e2 => false
      | .e3 => false) && !(s.operate && s.pairOn && s.rd F.PAIR_STAT_ROLE == 2)

/-- The module's state requires a rail (Table 3-1). -/
def State.railNeeded (s : State) (r : Rail) : Bool :=
  s.phase != .reset &&
    (match r with
      | .vddq => true
      | .vpp => true
      | .vlane => s.laneRail
      | _ => s.pwr.state != .e3)

/-- A required rail has been outside its limits for 10 µs (R67). -/
def railFault (r : Rail) (s : State) : State :=
  if s.railNeeded r then (s.enterSafe 9).resetModule .rail r.id else s

/-- The hottest sensor reads t; where it rises from below to 115 °C or above while the warning is armed, the module warns (R68).
Temperatures are °C + 64. -/
def overTemp (t : Byte) (s : State) : State :=
  let rises := decide (s.rd F.PWR_STAT_DIE_TEMP < 179) && decide (179 ≤ t.toNat)
  let s := s.wr F.PWR_STAT_DIE_TEMP t.toNat
  if s.pwr.otArmed && rises && s.phase != .reset then
    let s := s.wr F.PWR_STAT_OT_WARN 1
    let s := s.raise 482 [s.reg Reg.PWR_STAT]
    { s with pwr := { s.pwr with otArmed := false } }
  else s

/-- The hottest sensor reads t; below 110 °C the warning is armed, and a module held in reset after THERMAL may leave it (R68). -/
def otWarnRearm (t : Byte) (s : State) : State :=
  let s := s.wr F.PWR_STAT_DIE_TEMP t.toNat
  if t.toNat < 174 then
    { s with pwr := { s.pwr with otArmed := true, hold := if s.pwr.hold = Hold.cool then .none else s.pwr.hold } }
  else s

/-- The die has been at 125 °C or above for 1 ms (R68). -/
def thermalTrip (t : Byte) (s : State) : State :=
  if 189 ≤ t.toNat ∧ s.pwr.hold ≠ Hold.unpowered then
    ((s.wr F.PWR_STAT_DIE_TEMP t.toNat).enterSafe 0xA).resetModule .thermal 0
  else s

/-! ## Low-power mode (R81) -/

/-- The regulator's draw changes: above 120 mA starts the 50 µs timer; at or below it for 10 µs resets it. -/
def lpDrawChange (mA : Nat) (s : State) : State :=
  if s.on F.LP_STAT_LP_MODE then
    let s := s.peak F.LP_STAT_LP_PEAK mA
    { s with pwr := { s.pwr with lpTimer := decide (120 < mA) } }
  else s

/-- The overload timer expires. -/
def borLp (s : State) : State :=
  if s.on F.LP_STAT_LP_MODE && s.pwr.lpTimer then s.resetModule .borLp 0 else s

/-! ## Release from reset, straps and debug (R54, R58, R592) -/

/-- An odd number of ones among SLOT_ID and SLOT_PAR (R59). -/
def strapsOdd (x : Straps) : Bool :=
  ((List.range 4).map (fun i => b2n (x.slotId.getLsbD i))).sum % 2 + b2n x.slotPar == 1

/-- The live strap fields of SYS_STRAP. -/
def State.setLiveStraps (s : State) (x : Straps) : State :=
  ((s.wr F.SYS_STRAP_LIVE_ID x.slotId.toNat).wr F.SYS_STRAP_LIVE_PAR (b2n x.slotPar)).wr F.SYS_STRAP_LIVE_PREFER
    (b2n x.prefer)

/-- Reset is released: straps sampled and held, the lamp test, the recorder restored, the pair record read, every
island link held, Tinder ROM started (R592, R62, R527, R494, R414). The lamp test lasts 500 ms, 16,384 counts of the RTC. -/
def resetRelease (x : Straps) (s : State) : State :=
  if s.phase = Phase.reset ∧ s.pwr.hold = Hold.none then
    let s := s.setPhase .boot
    let s := (((s.wr F.SYS_STRAP_SLOT_ID x.slotId.toNat).wr F.SYS_STRAP_SLOT_PAR (b2n x.slotPar)).wr F.SYS_STRAP_PAR_OK
      (b2n (strapsOdd x))).wr F.SYS_STRAP_PREFER (b2n x.prefer)
    let s := s.setLiveStraps x
    let s := { s with pwr := { s.pwr with lampTestEnd := s.pwr.rtc.toNat + 16384, relay := false, safeN := false }
                      mp := { s.mp with wdtFrom := s.pwr.rtc } }
    ((s.recRestore.pairReset x.prefer).linksHeld).consoleLine (.step 0)
  else s

/-- The straps differ from the held values. -/
def State.strapsDiffer (s : State) (x : Straps) : Bool :=
  s.rd F.SYS_STRAP_SLOT_ID != x.slotId.toNat || s.rd F.SYS_STRAP_SLOT_PAR != b2n x.slotPar ||
    s.rd F.SYS_STRAP_PREFER != b2n x.prefer

/-- The strap-change event (R58, R60). -/
def State.strapEvent (s : State) : State := s.raise 484 [s.reg Reg.SYS_STRAP]

/-- A later sample of the straps (R58). -/
def strapSample (x : Straps) (s : State) : State :=
  if s.phase = Phase.reset then s
  else
    let s := s.setLiveStraps x
    if s.strapsDiffer x then (s.wr F.SYS_STRAP_CHANGED 1).strapEvent.mpIrq 9 else s

/-- The reset key of SYS_RESET (R88): SW_LANE from the lane complex, SW_MP from the MP. -/
def sysReset (who : Requester) (w : Word) (s : State) : State :=
  if bits w.toNat 0 16 = 0x5253 ∧ s.phase ≠ Phase.reset then
    match who with
    | .lane .. => s.resetModule .swLane 0
    | .mp => s.resetModule .swMp 0
    | _ => s
  else s

/-- DTMCS and DMI are accepted: Setup phase, with debug enabled by the MP (R54). -/
def State.debugOn (s : State) : Bool := s.setupPhase && s.on F.MPX_DBG_EN

/-- A debugger requests a system reset through DMI (R69). -/
def jtagReset (s : State) : State := if s.debugOn then s.resetModule .jtag 0 else s

/-- BYPASS, the instruction that acts for every code not accepted (R54). -/
def tapBypass : BitVec 5 := 0b11111

/-- A TAP instruction is accepted in the present phase (Table 2-11). -/
def State.tapAccepts (s : State) (c : BitVec 5) : Bool :=
  if c = 0b00001 ∨ c = 0b00010 ∨ c = 0b11111 then true
  else if c = 0b00100 ∨ c = 0b00101 ∨ c = 0b00110 then !s.operate
  else if c = 0b10000 ∨ c = 0b10001 then s.debugOn
  else false

/-- The instruction in force: one that the present phase does not accept acts as BYPASS. -/
def State.tapNow (s : State) : BitVec 5 := if s.tapAccepts s.pwr.tapIr then s.pwr.tapIr else tapBypass

/-- What the instruction register captures. -/
def tapIrCapture : BitVec 64 := 0b00001

/-- The IDCODE register for a silicon step and a manufacturer identity (R54). -/
def idcode (step : BitVec 4) (maker : BitVec 11) : Word :=
  BitVec.ofNat 32 (step.toNat * 2 ^ 28 + 0x6400 * 2 ^ 12 + maker.toNat * 2 + 1)

/-! ## Performance levels and the lane clock (R71 to R73, R86) -/

/-- The write comes from the lane complex (R73). -/
def byLane : Requester → Bool
  | .lane .. => true
  | _ => false

/-- The write comes from the MP. -/
def byMp : Requester → Bool
  | .mp => true
  | _ => false

/-- A write to PWR_PL starts a change of level, or is taken up when the change in progress ends (R71, R72). [DEDUCED, unsafe: notes/assumptions/27.md] -/
def pwrPlWrite (who : Requester) (w : Word) (s : State) : State :=
  if !byLane who then s
  else
    let s := s.wr F.PWR_PL_PL (bits w.toNat 0 2)
    if s.on F.PWR_PL_PL_BUSY || s.pwr.level.toNat == s.rd F.PWR_PL_PL then s
    else ({ s with pwr := { s.pwr with target := BitVec.ofNat 2 (s.rd F.PWR_PL_PL) } }).wr F.PWR_PL_PL_BUSY 1

/-- A change of level ends; a level written meanwhile starts the next change (R72). -/
def plChangeDone (s : State) : State :=
  if s.on F.PWR_PL_PL_BUSY then
    let s := { s with pwr := { s.pwr with level := s.pwr.target } }
    if s.rd F.PWR_PL_PL = s.pwr.level.toNat then s.wr F.PWR_PL_PL_BUSY 0
    else { s with pwr := { s.pwr with target := BitVec.ofNat 2 (s.rd F.PWR_PL_PL) } }
  else s

/-- A write to SYS_CLK (R86). A refused write does nothing but set CLK_ERR. -/
def sysClkWrite (who : Requester) (w : Word) (s : State) : State :=
  let en := w.getLsbD 0
  let src := w.getLsbD 2
  if !byLane who then s
  else if (src && !s.on F.SYS_CLK_LANE_LOCK) || (!en && s.on F.SYS_CLK_LANE_SRC) then s.wr F.SYS_CLK_CLK_ERR 1
  else
    let s := (s.wr F.SYS_CLK_LANE_PLL_EN (b2n en)).wr F.SYS_CLK_LANE_SRC (b2n src)
    let s := if en then s else s.wr F.SYS_CLK_LANE_LOCK 0
    let s := if w.getLsbD 3 then s.wr F.SYS_CLK_CLK_ERR 0 else s
    { s with pwr := { s.pwr with srcPending := src && !s.pwr.onPll, onPll := src && s.pwr.onPll } }

/-- The lane PLL locks. -/
def lanePllLock (s : State) : State := if s.on F.SYS_CLK_LANE_PLL_EN then s.wr F.SYS_CLK_LANE_LOCK 1 else s

/-- The lanes switch to their PLL once the change of VLANE is complete. -/
def laneSrcSwitch (s : State) : State :=
  if s.pwr.srcPending && !s.on F.PWR_PL_PL_BUSY then { s with pwr := { s.pwr with srcPending := false, onPll := true } }
  else s

/-! ## Meanings -/

/-- The effect of VLOG_RISE. -/
def execVlogRise (f : Feed) (vlog : Byte) (s : State) : Host.Outcome State Fault Refusal := .next (vlogRise f vlog s)
/-- The effect of FEED_ABSENT. -/
def execFeedAbsent (f : Feed) (vlog : Byte) (s : State) : Host.Outcome State Fault Refusal :=
  .next (feedAbsent f vlog s)
/-- The effect of FEED_PRESENT_TIMER. -/
def execFeedPresentTimer (f : Feed) (vlog : Byte) (s : State) : Host.Outcome State Fault Refusal :=
  .next (feedPresentTimer f vlog s)
/-- The effect of HOLDUP_EXHAUSTED. -/
def execHoldupExhausted (s : State) : Host.Outcome State Fault Refusal := .next (holdupExhausted s)
/-- The effect of HOLDUP_LEVEL_CHANGE. -/
def execHoldupLevelChange (ok : Bool) (s : State) : Host.Outcome State Fault Refusal := .next (holdupLevelChange ok s)
/-- The effect of VHEARTH_FAULT. -/
def execVhearthFault (s : State) : Host.Outcome State Fault Refusal := .next (vhearthFault s)
/-- The effect of RAIL_FAULT. -/
def execRailFault (r : Rail) (s : State) : Host.Outcome State Fault Refusal := .next (railFault r s)
/-- The effect of OVER_TEMP. -/
def execOverTemp (t : Byte) (s : State) : Host.Outcome State Fault Refusal := .next (overTemp t s)
/-- The effect of THERMAL_TRIP. -/
def execThermalTrip (t : Byte) (s : State) : Host.Outcome State Fault Refusal := .next (thermalTrip t s)
/-- The effect of OT_WARN_REARM. -/
def execOtWarnRearm (t : Byte) (s : State) : Host.Outcome State Fault Refusal := .next (otWarnRearm t s)
/-- The effect of LP_DRAW_CHANGE. -/
def execLpDrawChange (mA : Nat) (s : State) : Host.Outcome State Fault Refusal := .next (lpDrawChange mA s)
/-- The effect of BOR_LP. -/
def execBorLp (s : State) : Host.Outcome State Fault Refusal := .next (borLp s)
/-- The effect of RESET_RELEASE. -/
def execResetRelease (x : Straps) (s : State) : Host.Outcome State Fault Refusal := .next (resetRelease x s)
/-- The effect of STRAP_SAMPLE. -/
def execStrapSample (x : Straps) (s : State) : Host.Outcome State Fault Refusal := .next (strapSample x s)
/-- The effect of SYS_RESET. -/
def execSysReset (who : Requester) (w : Word) (s : State) : Host.Outcome State Fault Refusal :=
  .next (s.arrive who Reg.SYS_RESET w (fun t => sysReset who w t))
/-- The effect of JTAG_RESET. -/
def execJtagReset (s : State) : Host.Outcome State Fault Refusal := .next (jtagReset s)
/-- The effect of PWR_PL_WRITE. -/
def execPwrPlWrite (who : Requester) (w : Word) (s : State) : Host.Outcome State Fault Refusal :=
  .next (s.arrive who Reg.PWR_PL w (fun t => pwrPlWrite who w t))
/-- The effect of PL_CHANGE_DONE. -/
def execPlChangeDone (s : State) : Host.Outcome State Fault Refusal := .next (plChangeDone s)
/-- The effect of SYS_CLK_WRITE. -/
def execSysClkWrite (who : Requester) (w : Word) (s : State) : Host.Outcome State Fault Refusal :=
  .next (s.arrive who Reg.SYS_CLK w (fun t => sysClkWrite who w t))
/-- The effect of LANE_PLL_LOCK. -/
def execLanePllLock (s : State) : Host.Outcome State Fault Refusal := .next (lanePllLock s)
/-- The effect of LANE_SRC_SWITCH. -/
def execLaneSrcSwitch (s : State) : Host.Outcome State Fault Refusal := .next (laneSrcSwitch s)

end Machine
end Sys2Proof
end

