-- ==== Sys2Proof/Machine/Boot.lean ====
section
/-!
DEFINITION. Tinder ROM, the firmware banks and the boot control record (R89 to R92, R96).
-/

namespace Sys2Proof
namespace Machine

/-! ## Firmware banks (R89, R90) -/

/-- Base of a bank: 0 A, 1 B. [DEDUCED, unsafe: notes/assumptions/8.md] -/
def bankBase (b : Nat) : Nat := 0x20000000 + 0x8000000 * b

/-- Every byte of the range is 0. -/
def State.allZero (s : State) (a n : Nat) : Bool := (s.bytes a n).all (· == 0)

/-- The minimum SVN: ones of the thermometer code. -/
def State.minSvn (s : State) : Nat := ((List.range 32).map (fun i => b2n (s.pwr.fuseSvn.getLsbD i))).sum

/-- Header fields of a bank (Table 3-15). -/
def State.hdr (s : State) (b off : Nat) : Nat := s.le (bankBase b + off) 4

/-- PAYLOAD_LEN of a bank. -/
def State.payloadLen (s : State) (b : Nat) : Nat := s.hdr b 0x10

/-- A key slot accepts a public key: its digest is the fuses' and the slot is not revoked (R90). [DEDUCED, unsafe: notes/assumptions/95.md] -/
def State.keyOk (s : State) (slot : Nat) (pubkey : List Byte) : Bool :=
  decide (slot < 4) && !s.pwr.fuseRevoked.getLsbD slot && sha256 pubkey == s.pwr.fuseKeys.getD slot 0

/-- A signature of a digest under a public key, all integers 32-byte big-endian. -/
def sigOk (digest : BitVec 256) (pubkey sig : List Byte) : Bool :=
  ecdsaOk digest (beNat (pubkey.take 32)) (beNat (pubkey.drop 32)) (beNat (sig.take 32)) (beNat (sig.drop 32))

/-- The result of Tinder ROM's check of a bank (Table 3-16). -/
def State.checkBank (s : State) (b : Nat) : Nat :=
  let a := bankBase b
  let pub := s.bytes (a + 0x40) 64
  if s.hdr b 0 ≠ 0x57465A44 ∨ s.memFld (a + 4) 0 16 ≠ 1 ∨ s.memFld (a + 4) 17 15 ≠ 0 ∨ s.memFld (a + 0xC) 16 16 ≠ 0 ∨
      s.payloadLen b % 4096 ≠ 0 ∨ 0x7FFF000 < s.payloadLen b ∨ 524288 < s.hdr b 0x14 ∨
      s.allZero (a + 0x80) 64 = false ∨ s.allZero (a + 0x100) 0xF00 = false then 1
  else if !s.keyOk (s.memFld (a + 0xC) 8 8) pub then 2
  else if !sigOk (sha256 (s.bytes a 0xC0)) pub (s.bytes (a + 0xC0) 64) then 3
  else if sha256 (s.bytes (a + 0x1000) (s.payloadLen b)) != BitVec.ofNat 256 (beNat (s.bytes (a + 0x20) 32)) then 4
  else if s.memFld (a + 0xC) 0 8 < s.minSvn then 5
  else 0

/-! ## Boot control record (R91) -/

/-- Address of a copy. -/
def bootRec (k : Nat) : Nat := 0x600FE000 + 0x1000 * k

/-- A copy is valid: VALID and CRC correct. -/
def State.bootRecValid (s : State) (k : Nat) : Bool :=
  s.le (bootRec k + 0x1C) 4 == 0xA5A55A5A && (crc32c (s.bytes (bootRec k) 0x18)).toNat == s.le (bootRec k + 0x18) 4

/-- The copy in force: valid, with the higher SEQ. [DESIGN CHOICE, unsafe: notes/assumptions/94.md] -/
def State.bootRecBest (s : State) : Option Nat :=
  match s.bootRecValid 0, s.bootRecValid 1 with
  | false, false => none
  | true, false => some 0
  | false, true => some 1
  | true, true => some (if s.le (bootRec 1) 4 < s.le (bootRec 0) 4 then 0 else 1)

/-- Writes a record into the older copy, VALID last. [DESIGN CHOICE, unsafe: notes/assumptions/94.md] -/
def State.bootRecWrite (s : State) (pref : Nat) (trial : Bool) (left confirmed : Nat) : State :=
  let best := s.bootRecBest
  let seq := match best with
    | none => 0
    | some k => s.le (bootRec k) 4 + 1
  let dst := match best with
    | none => 0
    | some k => 1 - k
  let body := leBytes 4 seq ++ leBytes 4 (pref + 2 * b2n trial + 16 * left) ++ leBytes 4 confirmed ++ zeros 12
  s.setBytes (bootRec dst) (body ++ leBytes 4 (crc32c body).toNat ++ leBytes 4 0xA5A55A5A)

/-- The fields of the record in force: PREF_BANK, TRIAL, TRIAL_LEFT, CONFIRMED_VER. -/
def State.bootFields (s : State) : Nat × Bool × Nat × Nat :=
  match s.bootRecBest with
  | none => (0, false, 0, 0)
  | some k => (s.memFld (bootRec k + 4) 0 1, s.memFld (bootRec k + 4) 1 1 == 1, s.memFld (bootRec k + 4) 4 4, s.le (bootRec k + 8) 4)

/-- What Tinder ROM decides (R92). -/
structure BootChoice where
  /-- The bank to run; none: recovery. -/
  bank : Option Nat
  fallback : Bool
  trial : Bool
  left : Nat
  /-- Results of the banks it checked; 0 where it did not. -/
  resA : Nat
  resB : Nat
deriving DecidableEq, Repr

/-- The choice of the bank (R92). A trial that is exhausted starts the other bank and clears TRIAL in the record. [DEDUCED, unsafe: notes/assumptions/25.md] -/
def State.bootChoose (s : State) : BootChoice :=
  let f := s.bootFields
  let exhausted := f.2.1 && f.2.2.1 == 0
  let pref := if exhausted then 1 - f.1 else f.1
  let trial := f.2.1 && !exhausted
  let rp := s.checkBank pref
  let ro := if rp = 0 then 0 else s.checkBank (1 - pref)
  let ra := if pref = 0 then rp else ro
  let rb := if pref = 0 then ro else rp
  if rp = 0 then ⟨some pref, false, trial, if trial then f.2.2.1 - 1 else f.2.2.1, ra, rb⟩
  else if ro = 0 then ⟨some (1 - pref), true, false, f.2.2.1, ra, rb⟩
  else ⟨none, false, trial, f.2.2.1, ra, rb⟩

/-- Shows the boot in SYS_BOOT and SYS_FWVER (Table 3-14). [DEDUCED, unsafe: notes/assumptions/25.md] -/
def State.bootShow (s : State) (c : BootChoice) : State :=
  let s := ((s.wr F.SYS_BOOT_REFUSE_A c.resA).wr F.SYS_BOOT_REFUSE_B c.resB).wr F.SYS_BOOT_FALLBACK (b2n c.fallback)
  match c.bank with
  | none => s
  | some b =>
    ((((s.wr F.SYS_BOOT_BANK b).wr F.SYS_BOOT_TRIAL (b2n c.trial)).wr F.SYS_BOOT_TRIAL_LEFT c.left).wr F.SYS_FWVER_IMG_VER
      (s.hdr b 8))

/-- Copies the MP's part of the payload into MP SRAM. -/
def State.copySram (s : State) (b : Nat) : State :=
  let src := bankBase b + 0x1000
  { s with mp := { s.mp with
      sram := (List.range (s.hdr b 0x14)).foldl (fun m i => Sparse.set m 0 i (s.byte (src + i))) s.mp.sram } }

/-- The MP starts its firmware at MP_ENTRY of a bank, from its registers at reset (R92). -/
def State.startMp (s : State) (b : Nat) : State :=
  { s with mp := { s.mp with core := { MpCore.start with on := true, pc := w32 (s.hdr b 0x18) } } }

/-- A hart released at an address (R96). -/
def hartAt (pc : Nat) : Hart := { Hart.start with pc := BitVec.ofNat 64 pc }

/-- All four harts released at LANE_ENTRY, in all three lanes (R92, R96). -/
def State.releaseLanes (s : State) : State :=
  let h := hartAt (0x20000000 + s.pwr.laneEntry.toNat)
  { s with harts := ⟨h, h, h, h⟩, lanes := { s.lanes with on := true } }

/-- Tinder ROM ends (R92): the record is written where it changed, the MP starts, and either the lanes start in the Setup
phase or the module stays in recovery. The fabric and the MP run on their PLLs, the time base locks, DRAM is trained. -/
def tinderBootDone (s : State) : State :=
  if s.phase ≠ Phase.boot then s
  else
    let f := s.bootFields
    let c := s.bootChoose
    let s := ((s.bootShow c).consoleLine (.cause (s.reg Reg.SYS_RSTCAUSE))).consoleLine (.bank c.bank c.trial)
    let s := if (c.trial, c.left) = (f.2.1, f.2.2.1) then s else s.bootRecWrite f.1 c.trial c.left f.2.2.2
    let s := (s.wr F.SYS_CLK_FAB_SRC 1).wr F.SYS_CLK_MP_SRC 1
    let s := { s with tb := { s.tb with locked := true } }
    match c.bank with
    | none => { (s.wr F.MPX_STAT_RECOVERY 1) with phase := .recovery }
    | some b =>
      let s := s.calDram
      let s := { s with pwr := { s.pwr with
                  laneEntry := w32 (s.hdr b 0x1C)
                  bootRaise := s.memFld (bankBase b + 4) 16 1 == 1
                  bootSvn := s.memFld (bankBase b + 0xC) 0 8 } }
      let s := ((s.copySram b).startMp b).recNoteWrite 0x01 [s.reg Reg.SYS_BOOT, s.reg Reg.SYS_FWVER, s.reg Reg.SYS_RSTCAUSE]
      let s := ((s.setPhase .setup).wr F.SYS_PHASE_LOCK_ERR 0).consoleLine (.step 1)
      s.releaseLanes

/-- Setting SYS_BOOT.CONFIRM: the MP confirms the trial image, and raises the minimum SVN where the image asks (R92). -/
def sysBootConfirm (_who : Requester) (w : Word) (s : State) : State :=
  if w.getLsbD 2 && !s.on F.SYS_BOOT_CONFIRM && (s.setupPhase || s.operate) then
    let s := s.wr F.SYS_BOOT_CONFIRM 1
    let f := s.bootFields
    let s := s.bootRecWrite f.1 false f.2.2.1 (s.rd F.SYS_FWVER_IMG_VER)
    if s.pwr.bootRaise && decide (s.minSvn < s.pwr.bootSvn) then
      { s with pwr := { s.pwr with fuseSvn := BitVec.ofNat 32 (2 ^ s.pwr.bootSvn - 1) } }
    else s
  else s

/-! ## Meanings -/

/-- The effect of TINDER_BOOT_DONE. -/
def execTinderBootDone (s : State) : Host.Outcome State Fault Refusal := .next (tinderBootDone s)
/-- The effect of SYS_BOOT_CONFIRM. -/
def execSysBootConfirm (who : Requester) (w : Word) (s : State) : Host.Outcome State Fault Refusal :=
  .next (s.arrive who Reg.SYS_BOOT w (fun t => sysBootConfirm who w t))

end Machine
end Sys2Proof
end

