-- ==== Sys2Proof/Machine/Signal.lean ====
section
/-!
DEFINITION. The Signal Engine's commands and events (R344, R346 to R352, R355).
-/

namespace Sys2Proof
namespace Machine

/-! ## Units of work (R350) -/

/-- Starts the command in the Signal Engine's hand when its opcode is op. -/
def State.sigStart (s : State) (op : Nat) (go : Cmd → State → State) : State :=
  match s.hand 0 with
  | none => s
  | some c => if c.opcode = op ∧ s.running ∧ s.cmdHeld c = false then go c s else s

/-- Starts a long command of the Signal Engine; one whose checks met an uncorrectable word raises its event when it ends with
INTERNAL (R16). -/
def State.sigLong (s : State) (op : Nat) (areas : Cmd → State → List (Nat × Nat)) (go : Cmd → State → State) : State :=
  s.sigStart op (fun c s =>
    match c.fin with
    | some f => (if f.status = stInternal then (s.checkAll 0 (areas c s)).2 else s).finish 0 c f
    | none => go { c with long := true, ntAcc := w32 s.ntNs } ((s.checkAll 0 (areas c s)).2.accept 0 c))

/-- Ends a command: one in the engine's hand (`fresh`), a long one, or a short one that went on over several slots. -/
def State.sigEnd (s : State) (fresh : Bool) (c : Cmd) (f : Final) : State :=
  if c.long then s.endLong c f
  else if fresh then s.finish 0 c f
  else (s.complete c f.status true f.detail f.res).advance c.ring

/-- A command goes on in a later slot; the engine's hand is free for other rings. -/
def State.sigLater (s : State) (fresh : Bool) : State := if fresh then s.dropHand 0 else s

/-! ## SIG_PUBLISH and SIG_BULK_LOAD (R352) -/

/-- The datasets a publish command names. -/
def pubSets (c : Cmd) : List Nat := (List.range (c.fld 0xC 0 19)).map (· + c.fld 8 0 18)

/-- The descriptors a publish command names. -/
def pubAreas (c : Cmd) (s : State) : List (Nat × Nat) := [(s.dsAddr (c.fld 8 0 18), 64 * min (c.fld 0xC 0 19) s.dsetCount)]

/-- The end of a publish command that fails its checks: `most` is the greatest COUNT. -/
def State.pubFails (s : State) (c : Cmd) (most : Nat) : Option Final :=
  let n := c.fld 0xC 0 19
  let buf := c.addr 0x10
  if !(c.headerOk && c.fld 8 18 14 == 0 && c.fld 0xC 19 13 == 0 && c.fld 0x14 8 24 == 0 && c.zeroFrom 0x18) || n == 0 ||
      decide (most < n) || buf % 8 != 0 then some finBad
  else if !s.areasOk (pubAreas c s) then some ⟨stInternal, 0, []⟩
  else
    match (pubSets c).find? (fun d => !(s.dsEnabled d && s.dsKind d == 2) || s.dsPart d != (s.cmdPart c).toNat) with
    | some d => if s.dsEnabled d && s.dsKind d == 2 then some finNotOwner else some finBad
    | none => if State.engineMayRead buf (8 * ((pubSets c).map s.nsig).sum) then none else some finBad

/-- A publish command keeps what it has done for the next slot of its partition. -/
def State.pubKeep (s : State) (fresh : Bool) (j : PubJob) : State :=
  ({ s with sig := { s.sig with pubs := s.sig.pubs ++ [j] } }).sigLater (fresh && !j.cmd.long)

/-- Publishes datasets in ascending order, each one unit, as far as the slot carries them (R350, R352); `fuel` bounds them. -/
def State.pubGo (s : State) (fresh : Bool) (j : PubJob) : Nat → State
  | 0 => s.pubKeep fresh j
  | fuel + 1 =>
    let d := j.cmd.fld 8 0 18 + j.next
    let n := s.nsig d
    if j.cmd.fld 0xC 0 19 ≤ j.next then s.sigEnd fresh j.cmd (finOk [w32 (s.gen32 (d - 1)), w32 (min j.sat 65535)])
    else if s.sig.ops < n then s.pubKeep fresh j
    else
      let chk := s.readCheck j.addr (8 * n) 0
      if !chk.1 then chk.2.sigEnd fresh j.cmd ⟨stInternal, 0, []⟩
      else
        let r := chk.2.publishValues d ((List.range n).map (fun k => BitVec.ofNat 64 (s.le (j.addr + 8 * k) 8))) j.sat
        match r.1 with
        | none => r.2.sigEnd fresh j.cmd ⟨stInternal, 0, []⟩
        | some m => (r.2.spend n).pubGo fresh { j with next := j.next + 1, addr := j.addr + 8 * n, sat := m } fuel

/-- Units of one operation or more that a slot carries at most, with the look at the end. -/
def slotUnits : Nat := 49

/-- SIG_PUBLISH in the Signal Engine's hand: refused, or its datasets published. -/
def sigPublish (s : State) : State :=
  s.sigStart 0x10 (fun c s =>
    match s.pubFails c 256 with
    | some f => (if f.status = stInternal then (s.checkAll 0 (pubAreas c s)).2 else s).finish 0 c f
    | none => (s.checkAll 0 (pubAreas c s)).2.pubGo true ⟨c, 0, c.addr 0x10, 0⟩ slotUnits)

/-- SIG_BULK_LOAD: ACCEPTED, the publications, the final record. -/
def sigBulkLoad (s : State) : State :=
  s.sigLong 0x14 pubAreas (fun c s => s.pubGo true ⟨c, 0, c.addr 0x10, 0⟩ slotUnits)

/-! ## SIG_SNAPSHOT (R347 to R349, R352) -/

/-- AGE of a slot of a dataset (R348). -/
def State.slotAge (s : State) (d : Nat) (x : Slot) : Nat :=
  if !x.valid then 0xFFFF
  else if x.forced then 0
  else min ((s.ntNs + 2 ^ 64 - s.lastNt d) % 2 ^ 64 / (1000 * 10 ^ s.rd F.SIG_CFG_AGE_UNIT)) 0xFFFF

/-- A slot as a snapshot reports it. -/
def State.reported (s : State) (i : Nat) : Slot :=
  let x := s.slot i
  let d := (s.sigMap i).dset
  { x with valid := x.valid && !s.clearPend d, stale := x.stale || s.dsStale d }

/-- Copies one entry, slot i to index j of the output, in a FORMAT. -/
def State.snapOne (s : State) (out fmt : Nat) (x : SnapCount) (i j : Nat) : SnapCount × State :=
  let v := s.reported i
  let s := if fmt = 0 then s.busWrite (out + 16 * j) (v.bytes (s.slotAge (s.sigMap i).dset v)) 0
    else s.busWrite (out + 8 * j) (leBytes 8 v.value.toNat) 0
  let good := v.quality == 3
  (⟨x.n + 1, if good then x.notGood else x.notGood + 1, if good then x.first else min x.first j⟩, s)

/-- Copies entries in list order. -/
def State.snapList (s : State) (out fmt : Nat) : List (Nat × Nat) → SnapCount → SnapCount × State
  | [], x => (x, s)
  | (i, j) :: t, x => let r := s.snapOne out fmt x i j; r.2.snapList out fmt t r.1

/-- A raw list's entries with their indices. -/
def State.rawList (s : State) (a n : Nat) : List (Nat × Nat) := (List.range n).map (fun k => (s.memFld (a + 4 * k) 0 25, k))

/-- A compiled list's entries: GSTART, the slot and its output index. -/
def State.compiledList (s : State) (a : Nat) : List (Bool × Nat × Nat) :=
  (List.range (s.memFld (a + 4) 16 16)).map (fun k =>
    (s.memFld (a + 0x10 + 8 * k) 25 1 == 1, s.memFld (a + 0x10 + 8 * k) 0 25, s.memFld (a + 0x14 + 8 * k) 0 12))

/-- A raw list's entries, each with whether it names another dataset than the entry before it, which is `d`. -/
def State.marked (s : State) : List (Nat × Nat) → Option Nat → List (Bool × Nat × Nat)
  | [], _ => []
  | e :: t, d => (d != some (s.sigMap e.1).dset, e) :: s.marked t (some (s.sigMap e.1).dset)

/-- Cuts a list into groups at each entry marked as a start and after every 48th entry (R347); `k` entries stand in the group that
the next entry would join. -/
def cutGroups : List (Bool × Nat × Nat) → Nat → List (List (Nat × Nat))
  | [], _ => []
  | (b, e) :: t, k =>
    let n := if b || k == 0 || k == 48 then 1 else k + 1
    match t, cutGroups t n with
    | (b', _) :: _, g :: gs => if b' || n == 48 then [e] :: g :: gs else (e :: g) :: gs
    | _, gs => [e] :: gs

/-- MAGIC of a compiled list. -/
def subMagic : Nat := 0x5355424C

/-- A compiled list's header is right for a partition. -/
def State.compiledOk (s : State) (a : Nat) (p : PartId) : Bool :=
  s.le a 4 == subMagic && s.memFld (a + 4) 0 8 == p.toNat &&
    (crc32c (s.bytes (a + 0x10) (8 * s.memFld (a + 4) 16 16))).toNat == s.le (a + 8) 4

/-- The output of a snapshot that fails at an entry is undefined: free bytes. -/
def State.freeOut (s : State) (j : Snap) : State :=
  let d := s.freeBytes j.size
  d.2.busWrite j.out d.1 0

/-- Reads one group in one operation: the end it gives where an entry cannot be read or, in a raw list, is not in use or not the
partition's to read; the snapshot with its counts; the state with the group copied (R347, R352). -/
def State.readGroup (s : State) (j : Snap) (g : List (Nat × Nat)) : Option Final × Snap × State :=
  let chk := s.checkAll 0 ((if j.raw then s.accAreas j.part else []) ++ g.flatMap (fun e => s.slotAreas e.1))
  if !chk.1 then (some ⟨stInternal, 0, []⟩, j, chk.2)
  else match if j.raw then g.find? (fun e => !s.slotUsed e.1 || !s.sigRight j.part 25 e.1) else none with
    | some e => (some ⟨if s.slotUsed e.1 then stNotOwner else stBadDescriptor, e.2, []⟩, j, chk.2.freeOut j)
    | none =>
      let r := chk.2.snapList j.out j.fmt g j.count
      let nt := w32 s.ntNs
      (none, { j with
        count := r.1
        nts := some (match j.nts with
          | none => (nt, nt)
          | some x => (x.1, nt)) }, r.2)

/-- RESULT of a snapshot whose last group is read. -/
def State.snapRes (s : State) (j : Snap) : Final :=
  let nts := match j.nts with
    | none => (w32 s.ntNs, w32 s.ntNs)
    | some x => x
  finOk [w32 (j.count.n + 65536 * j.count.notGood), w32 j.count.first, nts.1, nts.2]

/-- Reads groups as far as the slot carries them (R350): the snapshot's end, if it comes, and what it has left otherwise. -/
def State.snapGo (s : State) (j : Snap) : List (List (Nat × Nat)) → Option Final × Snap × State
  | [] => (some (s.snapRes j), { j with rest := [] }, s)
  | g :: t =>
    if s.sig.ops < g.length then (none, { j with rest := g :: t }, s)
    else
      let r := s.readGroup j g
      match r.1 with
      | some f => (some f, r.2.1, r.2.2)
      | none => (r.2.2.spend g.length).snapGo r.2.1 t

/-- A snapshot goes on in the next slot of its partition. -/
def State.snapKeep (s : State) (j : Snap) : State := { s with sig := { s.sig with snaps := s.sig.snaps ++ [j] } }

/-- Runs the snapshot of a command: its record where it ends, else it goes on later. -/
def State.snapCmd (s : State) (fresh : Bool) (c : Cmd) (j : Snap) : State :=
  let r := s.snapGo j j.rest
  match r.1 with
  | some f => r.2.2.sigEnd fresh c f
  | none => (r.2.2.snapKeep r.2.1).sigLater fresh

/-- Entries of a command's output: one past the highest index. -/
def outTop (es : List (Bool × Nat × Nat)) : Nat := es.foldl (fun m e => max m (e.2.2 + 1)) 0

/-- The snapshot that a SIG_SNAPSHOT opens, or the end that its checks give (R349, R352). -/
def State.snapOpen (s : State) (c : Cmd) : Option Final × Snap × State :=
  let list := c.addr 0x10
  let out := c.addr 0x18
  let n := c.fld 8 0 13
  let esz := if c.fld 8 14 1 = 0 then 16 else 8
  let p := s.cmdPart c
  let job (raw : Bool) (size : Nat) (rest : List (List (Nat × Nat))) : Snap :=
    ⟨some c, 0, p, raw, out, c.fld 8 14 1, size, rest, ⟨0, 0, 0x1FFF⟩, none⟩
  let none' := job false 0 []
  if !(c.headerOk && c.fld 8 15 17 == 0 && c.word 0xC == 0 && c.fld 0x14 8 24 == 0 && c.fld 0x1C 8 24 == 0 && c.zeroFrom 0x20) ||
      list % 16 != 0 || out % 64 != 0 then (some finBad, none', s)
  else if c.fld 8 13 1 = 1 then
    if !State.engineMayRead list 16 then (some finBad, none', s)
    else
      let chk := s.checkAll 0 [(list, 16), (list + 16, 8 * s.memFld (list + 4) 16 16)]
      let es := s.compiledList list
      if !chk.1 then (some ⟨stInternal, 0, []⟩, none', chk.2)
      else if !s.compiledOk list p then (some ⟨stBadDescriptor, 1, []⟩, none', chk.2)
      else if !s.engineMayWrite out (esz * outTop es) then (some finBad, none', chk.2)
      else (none, job false (esz * outTop es) (cutGroups es 0), chk.2)
  else if n = 0 ∨ 4096 < n ∨ !State.engineMayRead list (4 * n) ∨ !s.engineMayWrite out (esz * n) then (some finBad, none', s)
  else
    let chk := s.readCheck list (4 * n) 0
    if !chk.1 then (some ⟨stInternal, 0, []⟩, none', chk.2)
    else (none, job true (esz * n) (cutGroups (s.marked (s.rawList list n) none) 0), chk.2)

/-- SIG_SNAPSHOT in the Signal Engine's hand: its start costs one operation. -/
def sigSnapshot (s : State) : State :=
  if s.sig.ops = 0 then s
  else s.sigStart 0x11 (fun c s =>
    let r := (s.spend 1).snapOpen c
    match r.1 with
    | some f => r.2.2.finish 0 c f
    | none => r.2.2.snapCmd true c r.2.1)

/-! ## SIG_FORCE (R346, R352) -/

/-- SIG_FORCE: sets or clears a slot's force. -/
def runForce (c : Cmd) (s : State) : State × Final :=
  let i := c.fld 8 0 25
  let v : DWord := BitVec.ofNat 64 (c.word 0x10 + 2 ^ 32 * c.word 0x14)
  let chk := s.checkAll 0 (s.accAreas (s.cmdPart c) ++ s.slotAreas i ++ s.rangeAreas (s.sigMap i).dset)
  let s := chk.2
  if !(c.headerOk && c.fld 8 26 6 == 0 && c.word 0xC == 0 && c.zeroFrom 0x18) then (s, finBad)
  else if !chk.1 then (s, ⟨stInternal, 0, []⟩)
  else if !s.slotUsed i then (s, finBad)
  else if !s.sigRight (s.cmdPart c) 26 i then (s, finNotOwner)
  else
    let x := s.slot i
    if c.fld 8 25 1 = 1 then
      if x.forced then
        let t := (s.putSlot i { x with forced := false }).wr F.SIG_FORCES_FORCES (s.rd F.SIG_FORCES_FORCES - 1)
        (t.forceNotice s, finOk [])
      else (s, finOk [])
    else
      let m := s.sigMap i
      let r := s.packValue m v
      let w := slotValue m r.1
      let t := r.2.2.putSlot i { x with value := w, ts := w32 s.ntNs, forced := true, range := s.outOfRange m w }
      let t := if x.forced then t else t.wr F.SIG_FORCES_FORCES (s.rd F.SIG_FORCES_FORCES + 1)
      (t.forceNotice s, finOk [])

/-- The SIG_FORCE in hand has this UNFORCE bit. -/
def State.forceInHand (s : State) (un : Nat) : Bool :=
  match s.hand 0 with
  | some c => c.fld 8 25 1 == un
  | none => false

/-- SIG_FORCE forces a slot. -/
def sigForce (s : State) : State := if s.forceInHand 0 then s.doUnit 0 0x12 runForce else s

/-- SIG_FORCE with UNFORCE = 1. -/
def sigUnforce (s : State) : State := if s.forceInHand 1 then s.doUnit 0 0x12 runForce else s

/-! ## SIG_WATCH (R352) -/

/-- What the checks of a watch read. -/
def watchAreas (c : Cmd) (s : State) : List (Nat × Nat) := (s.dsAddr (c.fld 8 0 18), 64) :: s.accAreas (s.cmdPart c)

/-- The end of a watch that fails its checks. -/
def State.watchFails (s : State) (c : Cmd) : Option Final :=
  let d := c.fld 8 0 18
  if !(c.headerOk && c.fld 8 19 13 == 0 && c.fld 0xC 16 16 == 0 && c.zeroFrom 0x14) || decide (s.dsetCount ≤ d) then some finBad
  else if !s.areasOk (watchAreas c s) then some ⟨stInternal, 0, []⟩
  else if !s.dsEnabled d then some finBad
  else if !s.sigRight (s.cmdPart c) 25 (s.firstSlot d) then some finNotOwner
  else none

/-- SIG_WATCH: its final record follows at once where the condition holds. -/
def sigWatch (s : State) : State :=
  if s.sig.ops = 0 then s
  else s.sigLong 0x13 watchAreas (fun c s =>
    let s := s.spend 1
    let c := { c with aux := [b2n (s.dsStale (c.fld 8 0 18)), s.raw + c.fld 0xC 0 16 * rawPerMs] }
    let s := s.setOut c
    if s.watchHolds c then s.endLong c (finOk (s.watchRes c)) else s)

/-- SIG_WATCH_TIMEOUT: TMO of an outstanding watch passes. -/
def sigWatchTimeout (r : RingId) (p : BitVec 17) (s : State) : State :=
  match s.findOut 0 0x13 (fun c => c.ring == r && c.pos == p) with
  | some c => if c.fld 0xC 0 16 ≠ 0 ∧ reached s.raw (c.aux.getD 1 0) then s.endLong c ⟨stTimeout, 0, s.watchRes c⟩ else s
  | none => s

/-! ## SIG_REINDEX (R331, R352) -/

/-- The pairs of a reindex: dataset and new DSID. -/
def State.pairsOf (s : State) (c : Cmd) : List (Nat × Nat) :=
  (List.range (c.fld 8 0 13)).map (fun k => let a := c.addr 0x10 + 8 * k; (s.memFld a 0 18, s.memFld (a + 4) 0 26))

/-- The DSID of a dataset after the pairs. -/
def newDsid (ps : List (Nat × Nat)) (d old : Nat) : Nat :=
  match ps.reverse.find? (fun p => p.1 == d) with
  | some p => p.2
  | none => old

/-- Some value stands twice. -/
def anyTwice : List Nat → Bool
  | [] => false
  | x :: t => t.contains x || anyTwice t

/-- The DSIDs of all receive datasets after the pairs are not unique. -/
def State.dsidClash (s : State) (ps : List (Nat × Nat)) : Bool :=
  anyTwice (((List.range s.dsetCount).filter (fun d => s.dsKind d == 1)).map (fun d => newDsid ps d (s.dsid d)))

/-- What the checks of a reindex read: its pairs, and the descriptors of all datasets. -/
def reindexAreas (c : Cmd) (s : State) : List (Nat × Nat) := [(c.addr 0x10, 8 * c.fld 8 0 13), (s.dsAddr 0, 64 * s.dsetCount)]

/-- The end of a reindex that fails its checks. -/
def State.reindexFails (s : State) (c : Cmd) : Option Final :=
  let n := c.fld 8 0 13
  let a := c.addr 0x10
  if !(c.headerOk && c.fld 8 13 19 == 0 && c.word 0xC == 0 && c.fld 0x14 8 24 == 0 && c.zeroFrom 0x18) || n == 0 ||
      decide (4096 < n) || a % 8 != 0 || !State.engineMayRead a (8 * n) then some finBad
  else if !s.areasOk (reindexAreas c s) then some ⟨stInternal, 0, []⟩
  else
    let ps := s.pairsOf c
    if ps.any (fun p => !s.dsEnabled p.1) then some finBad
    else if ps.any (fun p => s.dsPart p.1 != (s.cmdPart c).toNat) then some finNotOwner
    else if s.dsidClash ps then some ⟨stBadDescriptor, 3, []⟩
    else none

/-- Parts of a long command of n entries, w to a part. -/
def unitParts (n w : Nat) : Nat := (n + (w - 1)) / w

/-- The oldest taken reindex is this command: reindexes of all partitions run one at a time. -/
def State.reindexTurn (s : State) (c : Cmd) : Bool :=
  match s.findOut 0 0x15 (fun _ => true) with
  | some d => d.ring == c.ring && d.pos == c.pos
  | none => false

/-- A reindex reads 48 pairs as one unit that takes a whole slot (Table 13-11). -/
def State.reindexPart (s : State) (c : Cmd) : State :=
  if 48 ≤ s.sig.ops ∧ s.reindexTurn c ∧ c.prog < unitParts (c.fld 8 0 13) 48 then (s.spend 48).setOut { c with prog := c.prog + 1 } else s

/-- SIG_REINDEX is taken; its pairs are kept until the switch. -/
def sigReindex (s : State) : State :=
  s.sigLong 0x15 reindexAreas (fun c s =>
    let c := { c with aux := (s.pairsOf c).flatMap (fun p => [p.1, p.2]) }
    (s.setOut c).reindexPart c)

/-- The pairs that a taken reindex keeps. -/
def keptPairs : List Nat → List (Nat × Nat)
  | d :: i :: t => (d, i) :: keptPairs t
  | _ => []

/-- One dataset takes its new DSID; a receive dataset also restarts and is cleared. -/
def State.reindexOne (s : State) (p : Nat × Nat) : State :=
  let d := p.1
  let s := s.setDs 0 d 0 0 26 p.2
  if s.dsKind d = 1 then
    let s := ((s.setDs 0 d 0x24 9 1 1).setDs 0 d 0x1C 0 32 0).setDs 0 d 0x20 0 32 0
    ((s.setDs 0 d 0x24 10 1 0).queuePass d .clear).watchEnd d
  else s

/-- The slot that the Signal Engine serves is one of a command's partition. -/
def State.sigServes (s : State) (c : Cmd) : Bool := Sparse.lookup s.rings.lastPart 0 == some (s.cmdPart c).toNat

/-- SIG_REINDEX_SWITCH: the oldest taken reindex, its pairs read, applies them all at one instant, as one unit of a slot of its
partition. [DEDUCED, unsafe: notes/assumptions/46.md] -/
def sigReindexSwitch (s : State) : State :=
  if !s.running then s
  else match s.findOut 0 0x15 (fun _ => true) with
    | none => s
    | some c =>
      let ps := keptPairs c.aux
      if c.prog < unitParts (c.fld 8 0 13) 48 ∨ s.sig.ops < 48 ∨ !s.sigServes c then s
      else if s.dsidClash ps then s.endLong c ⟨stBadDescriptor, 3, []⟩
      else (ps.foldl State.reindexOne (s.spend 48)).endLong c (finOk [])

/-! ## SIG_SUB_BUILD (R349, R352) -/

/-- An entry (dataset, slot, index) precedes another in a compiled list. -/
def subLess (x y : Nat × Nat × Nat) : Bool := decide (x.1 < y.1) || (x.1 == y.1 && decide (x.2.1 < y.2.1))

/-- Inserts an entry behind those it does not precede. -/
def subInsert (x : Nat × Nat × Nat) : List (Nat × Nat × Nat) → List (Nat × Nat × Nat)
  | [] => [x]
  | y :: t => if subLess x y then x :: y :: t else y :: subInsert x t

/-- The words of a compiled list's entries and the number of groups: `d` and `k` are the dataset and length of the group so
far. -/
def subWords : List (Nat × Nat × Nat) → Option Nat → Nat → List Word × Nat
  | [], _, _ => ([], 0)
  | (d, i, j) :: t, cur, k =>
    let start := cur != some d || decide (48 ≤ k)
    let r := subWords t (some d) (if start then 1 else k + 1)
    (w32 (i + 2 ^ 25 * b2n start) :: w32 j :: r.1, r.2 + b2n start)

/-- What the checks of a build read: the raw list, the access map, and each entry's map entry and descriptor. -/
def subAreas (c : Cmd) (s : State) : List (Nat × Nat) :=
  (c.addr 0x10, 4 * c.fld 8 0 13) :: s.accAreas (s.cmdPart c) ++
    (s.rawList (c.addr 0x10) (min (c.fld 8 0 13) 4096)).flatMap (fun e =>
      if e.1 < s.rd F.SIG_SLOTS_SLOTS then [(s.mapAt e.1, 8), (s.dsAddr (s.sigMap e.1).dset, 64)] else [])

/-- The end of a build that fails its checks. -/
def State.subFails (s : State) (c : Cmd) : Option Final :=
  let n := c.fld 8 0 13
  let inp := c.addr 0x10
  let out := c.addr 0x18
  if !(c.headerOk && c.fld 8 13 19 == 0 && c.word 0xC == 0 && c.fld 0x14 8 24 == 0 && c.fld 0x1C 8 24 == 0 && c.zeroFrom 0x20) ||
      n == 0 || decide (4096 < n) || inp % 16 != 0 || out % 64 != 0 || !State.engineMayRead inp (4 * n) ||
      !s.engineMayWrite out (16 + 8 * n) then some finBad
  else if !s.areasOk (subAreas c s) then some ⟨stInternal, 0, []⟩
  else match (s.rawList inp n).find? (fun e => !s.slotUsed e.1 || !s.sigRight (s.cmdPart c) 25 e.1) with
    | some e => some ⟨if s.slotUsed e.1 then stNotOwner else stBadDescriptor, e.2, []⟩
    | none => none

/-- Writes a compiled list: the entries sorted and grouped, the header last, and the final record. -/
def State.subWrite (s : State) (c : Cmd) : State :=
  let n := c.fld 8 0 13
  let out := c.addr 0x18
  let es := (s.rawList (c.addr 0x10) n).foldl (fun l e => subInsert ((s.sigMap e.1).dset, e.1, e.2) l) []
  let r := subWords es none 0
  let body := wordBytes r.1
  let s := s.outBuf c (out + 0x10) body
  let s := s.outBuf c out (wordBytes [w32 subMagic, w32 ((s.cmdPart c).toNat + 65536 * n), crc32c body, 0])
  s.endLong c (finOk [w32 r.2])

/-- A build reads 24 entries as one unit that takes a whole slot; after the last it writes the list (Table 13-11). -/
def State.subPart (s : State) (c : Cmd) : State :=
  if s.sig.ops < 48 then s
  else if c.prog + 1 < unitParts (c.fld 8 0 13) 24 then (s.spend 48).setOut { c with prog := c.prog + 1 }
  else (s.spend 48).subWrite c

/-- SIG_SUB_BUILD is taken and its first entries are read. -/
def sigSubBuild (s : State) : State := s.sigLong 0x16 subAreas (fun c s => s.subPart c)

/-! ## Freshness (R344) -/

/-- NT nanoseconds at which a dataset's deadline lies. -/
def State.deadline (s : State) (d : Nat) : Nat :=
  (if s.gen32 d = 0 ∧ s.lastNt d = 0 then s.sig.lockNt else s.lastNt d) + s.staleN d * s.dsPeriod d * 1000

/-- SIG_STALE_DEADLINE: a dataset's deadline has passed with no publication. -/
def sigStaleDeadline (d : BitVec 18) (s : State) : State :=
  let d := d.toNat
  if s.running && s.dsEnabled d && s.staleN d != 0 && !s.dsStale d && decide (s.deadline d < s.ntNs) then
    let s := (s.setDs 0 d 0x24 8 1 1).setDs 0 d 0x34 16 16 (min (s.ds d 0x34 16 16 + 1) 65535)
    ((s.satAdd F.SIG_PASS_STALES 1).queuePass d .stale).watchEnd d
  else s

/-- A write to SIG_CLR (R355). -/
def sigClr (_who : Requester) (w : Word) (s : State) : State :=
  if w.getLsbD 0 then (s.setReg Reg.SIG_DROPS 0).setReg Reg.SIG_PASS 0 else s

/-! ## Meanings -/

/-- The effect of SIG_PUBLISH. -/
def execSigPublish (s : State) : Host.Outcome State Fault Refusal := .next (sigPublish s)
/-- The effect of SIG_SNAPSHOT. -/
def execSigSnapshot (s : State) : Host.Outcome State Fault Refusal := .next (sigSnapshot s)
/-- The effect of SIG_FORCE. -/
def execSigForce (s : State) : Host.Outcome State Fault Refusal := .next (sigForce s)
/-- The effect of SIG_UNFORCE. -/
def execSigUnforce (s : State) : Host.Outcome State Fault Refusal := .next (sigUnforce s)
/-- The effect of SIG_WATCH. -/
def execSigWatch (s : State) : Host.Outcome State Fault Refusal := .next (sigWatch s)
/-- The effect of SIG_WATCH_TIMEOUT. -/
def execSigWatchTimeout (r : RingId) (p : BitVec 17) (s : State) : Host.Outcome State Fault Refusal :=
  .next (sigWatchTimeout r p s)
/-- The effect of SIG_BULK_LOAD. -/
def execSigBulkLoad (s : State) : Host.Outcome State Fault Refusal := .next (sigBulkLoad s)
/-- The effect of SIG_REINDEX. -/
def execSigReindex (s : State) : Host.Outcome State Fault Refusal := .next (sigReindex s)
/-- The effect of SIG_REINDEX_SWITCH. -/
def execSigReindexSwitch (s : State) : Host.Outcome State Fault Refusal := .next (sigReindexSwitch s)
/-- The effect of SIG_SUB_BUILD. -/
def execSigSubBuild (s : State) : Host.Outcome State Fault Refusal := .next (sigSubBuild s)
/-- The effect of SIG_STALE_DEADLINE. -/
def execSigStaleDeadline (d : BitVec 18) (s : State) : Host.Outcome State Fault Refusal := .next (sigStaleDeadline d s)
/-- The effect of SIG_CLR. -/
def execSigClr (who : Requester) (w : Word) (s : State) : Host.Outcome State Fault Refusal :=
  .next (s.arrive who Reg.SIG_CLR w (fun t => sigClr who w t))

end Machine
end Sys2Proof
end

