-- ==== Sys2Proof/Machine/CycOps.lean ====
section
/-!
DEFINITION. The cycle engine: cycle starts, process images, commits, controllers, stations, forces and idle windows
(chapter 15), with what the in-service test does at the start of an idle window (R537, R542, R545).
-/

namespace Sys2Proof
namespace Machine

/-! ## Access -/

/-- A task that has not started. -/
def taskZero : Task := ⟨0, 0, 0, 0, false, false, [], 0⟩

/-- Task t outside its registers. -/
def State.task (s : State) (t : Nat) : Task := Sparse.get s.cyc.tasks taskZero t

/-- Replaces a task. -/
def State.setTask (s : State) (t : Nat) (x : Task) : State :=
  { s with cyc := { s.cyc with tasks := Sparse.set s.cyc.tasks taskZero t x } }

/-- All tasks, in order. -/
def allTasks : List Nat := List.range 64

/-- A task is enabled, and is a cyclic or an error task (R383). -/
def State.taskEn (s : State) (t : Nat) : Bool := s.on (F.TASK_CTL_EN t)
def State.taskErr (s : State) (t : Nat) : Bool := s.on (F.TASK_CTL_TYPE t)
def State.taskCyc (s : State) (t : Nat) : Bool := s.taskEn t && !s.taskErr t

/-- The partition and the state of a task. -/
def State.taskPart (s : State) (t : Nat) : Nat := s.rd (F.TASK_CTL_PART t)
def State.taskSt (s : State) (t : Nat) : Nat := s.rd (F.TASK_STAT_STATE t)

/-- Task states (Table 15-3). -/
def tsIdle : Nat := 1
def tsDeferred : Nat := 2
def tsInput : Nat := 3
def tsRunning : Nat := 4
def tsStopped : Nat := 5

/-- Controller states (Table 15-4) and the state of a partition's controller. -/
def ctStarting : Nat := 1
def ctRunning : Nat := 2
def ctStopped : Nat := 3
def State.ctl (s : State) (p : Nat) : Nat := s.rd (F.CYC_PART_STATE p)

/-- A snapshot of a task's input image that is in progress is dropped. -/
def State.dropSnap (s : State) (t : Nat) : State :=
  { s with sig := { s.sig with snaps := s.sig.snaps.filter (fun j => j.cmd.isSome || j.task != t) } }

/-- Moves a task; its watchdog stops unless `wdt`, and a pending input phase is dropped. -/
def State.taskTo (s : State) (t st : Nat) (wdt : Bool) : State :=
  ((s.dropSnap t).wr (F.TASK_STAT_STATE t) st).setTask t { s.task t with wdt := wdt }

/-- The COMMIT bit of a buffer of a task. -/
def commitBit (t b : Nat) : Fld := if b = 0 then F.TASK_STAT_COMMIT0 t else F.TASK_STAT_COMMIT1 t

/-- The islands of a mask, in ascending number. -/
def State.maskIslands (s : State) (lo hi : Nat) : List Nat :=
  (List.range 58).filter (fun i => if i < 32 then (s.reg lo).getLsbD i else (s.reg hi).getLsbD (i - 32))

/-- Islands of a task's input image and of its output buffers. -/
def State.inIslands (s : State) (t : Nat) : List Nat := s.maskIslands (Reg.TASK_INMASK_LO t) (Reg.TASK_INMASK_HI t)
def State.outIslands (s : State) (t : Nat) : List Nat := s.maskIslands (Reg.TASK_OUTMASK_LO t) (Reg.TASK_OUTMASK_HI t)

/-- Addresses of a task's input image, of an output buffer and of its safe image. -/
def State.inAddr (s : State) (t : Nat) : Nat := s.rd (F.TASK_IN_BASE t) * 4096
def State.outAddr (s : State) (t b : Nat) : Nat := (if b = 0 then s.rd (F.TASK_OUT0_BASE t) else s.rd (F.TASK_OUT1_BASE t)) * 4096
def State.safeAddr (s : State) (t : Nat) : Nat := s.rd (F.TASK_SAFE_BASE t) * 4096

/-- Offset of the signal section (Table 15-1). -/
def sigOfs (ni : Nat) : Nat := (32 + 32 * ni + 63) / 64 * 64

/-- Datasets that a task publishes. -/
def State.taskSets (s : State) (t : Nat) : List Nat :=
  (List.range (s.rd (F.TASK_DSET_COUNT t))).map (· + s.rd (F.TASK_DSET_FIRST t))

/-- The stations, and the partition that owns one: its datasets' (R397). -/
def allStations : List Nat := List.range 384
def State.stnPart (s : State) (k : Nat) : Nat := s.dsPart (s.rd (F.CYC_STD_DSET_FIRST k))

/-! ## Forces (R398) -/

/-- A value with the forced bits of an entry. -/
def State.forceWord (s : State) (f v : Nat) : Nat :=
  let b := s.rd (F.CYC_FORCE0_BIT f)
  let w := s.rd (F.CYC_FORCE0_WIDTH f) + 1
  setBits v b w (bits ((s.reg (Reg.CYC_FORCE2 f)).toNat + 2 ^ 32 * (s.reg (Reg.CYC_FORCE3 f)).toNat) b w)

/-- The force entries of a task and direction. -/
def State.forcesOf (s : State) (t dir : Nat) : List Nat :=
  if s.rd F.CYC_FORCES_COUNT = 0 then []
  else (List.range 1024).filter (fun f =>
    s.on (F.CYC_FORCE0_EN f) && s.rd (F.CYC_FORCE0_DIR f) == dir && s.rd (F.CYC_FORCE1_TASK f) == t)

/-- Output forces written into bytes read at an offset of a buffer. -/
def State.forced (s : State) (t ofs : Nat) (bs : List Byte) : List Byte :=
  (s.forcesOf t 1).foldl (fun l f =>
    let o := s.rd (F.CYC_FORCE0_OFS f)
    if ofs ≤ o ∧ o + 8 ≤ ofs + bs.length then
      let k := o - ofs
      l.take k ++ leBytes 8 (s.forceWord f (leNat ((l.drop k).take 8))) ++ l.drop (k + 8)
    else l) bs

/-- Input forces written into a task's image. -/
def State.forceInput (s : State) (t : Nat) : State :=
  (s.forcesOf t 0).foldl (fun u f =>
    let a := u.inAddr t + u.rd (F.CYC_FORCE0_OFS f)
    u.busWrite a (leBytes 8 (u.forceWord f (u.le a 8))) 0x13) s

/-! ## Idle windows (R400) -/

/-- Nanoseconds from now to a generator's target, at its nominal rate. -/
def State.ptoAhead (s : State) (g : Nat) : Nat :=
  let t := s.rd64 (Reg.PTO_NEXT_LO g) (Reg.PTO_NEXT_HI g)
  if s.on (F.PTO_CTL_BASE g) then t - s.ntNs else 2 * (t - s.raw)

/-- Period of a generator in nanoseconds, nominal. -/
def State.ptoPeriod (s : State) (g : Nat) : Nat :=
  let p := s.rd (F.PTO_PER_LO_PER_LO g) + 2 ^ 32 * s.rd (F.PTO_PER_HI_PER_HI g)
  if s.on (F.PTO_CTL_BASE g) then p else 2 * p

/-- Fires of a generator since SETUP_LOCK. -/
def State.fires (s : State) (g : Nat) : Nat := Sparse.get s.cyc.fires 0 g

/-- Counts of TB_RAW from now to a task's next cycle start. -/
def State.startAhead (s : State) (t : Nat) : Nat :=
  let g := s.rd (F.TASK_CTL_PTO t)
  let d := max 1 (s.rd (F.TASK_DIV_DIV t))
  (s.ptoAhead g + (s.rd (F.TASK_DIV_PHASE t) + d - s.fires g % d) % d * s.ptoPeriod g) / 2

/-- Every enabled task is Idle or Stopped. -/
def State.tasksRest (s : State) : Bool := allTasks.all (fun t => !s.taskEn t || s.taskSt t == tsIdle || s.taskSt t == tsStopped)

/-- The least of a list. -/
def least : List Nat → Option Nat
  | [] => none
  | x :: t => match least t with
    | none => some x
    | some y => some (min x y)

/-- The counts to the next cycle start of any cyclic task whose controller is in one of the states. -/
def State.nextStart (s : State) (sts : List Nat) : Option Nat :=
  least ((allTasks.filter (fun t => s.taskCyc t && sts.contains (s.ctl (s.taskPart t)))).map s.startAhead)

/-- Ready lanes wait for admission: HOLD = 0, and re-execution has reached live time (Tables 5-5 and 5-7). -/
def State.canAdmit (s : State) : Bool :=
  lanesABC.any (fun l => s.laneSt l == LaneSt.ready) && !s.on F.LANE_REINT_HOLD && !s.on F.CORD_STAT_REPLAY && !s.on F.CORD_STAT_ROLLING

/-- The lane selected for LBIST is fenced at the start of an idle window (R537). -/
def State.lbistFence (s : State) : State :=
  match s.ist.wait with
  | none => s
  | some l =>
    if lanesABC.all (fun k => s.laneSt k == LaneSt.healthy) && !s.on F.CORD_STAT_ROLLING && !s.on F.CORD_STAT_REPLAY &&
        !s.on F.LANE_REINT_HOLD && s.mayTest && s.acts then
      let s := { s with ist := { s.ist with wait := none } }
      (((s.setLane l .fenced).raise 0 []).wr F.IST_STAT_LBIST_RUN 1).wr F.IST_STAT_LBIST_LANE l.num
    else s

/-- A channel is due for an off-pulse: its bit is set, PERIOD seconds have passed, it is STATIC and on, its link is Running. -/
def State.offPulseDue (s : State) (o : Nat) : Bool :=
  s.on ⟨Reg.IST_OFFP_MASK (o / 32), o % 32, 1⟩ && s.rd (F.FLD_DIO_FUNC (o / 16) (o % 16)) == 0 && s.link (16 + o / 16) == lnRunning &&
    s.dioOn (o / 16) (o % 16) &&
    (match Sparse.lookup s.ist.offp o with
      | none => true
      | some r => decide (r + s.rd F.IST_OFFP_PERIOD * 32768 ≤ s.pwr.rtc.toNat))

/-- An off-pulse starts at the start of an idle window long enough for it; `len` is the window's counts, none without limit
(R542). [DEDUCED, unsafe: notes/assumptions/58.md] -/
def State.offPulseStart (s : State) (len : Option Nat) : State :=
  let need := (s.rd F.IST_OFFP_LEN + 3) * 4000
  let fits : Bool := match len with
    | none => true
    | some n => decide (need ≤ n)
  if s.on F.IST_CFG_OFFP_EN && s.mayTest && fits && s.fld.offp.isNone then
    match (List.range 128).find? s.offPulseDue with
    | none => s
    | some o =>
      { s with
        fld := { s.fld with offp := some ⟨o, s.rd F.IST_OFFP_LEN, none, false⟩ }
        ist := { s.ist with offp := Sparse.insert s.ist.offp o s.pwr.rtc.toNat } }
  else s

/-- A step of DRAM retraining starts with an idle window, at most one per 100 µs and none in a
rollback; the last one brings the new record (R545, R558). -/
def State.retrainStep (s : State) : State :=
  match s.mp.retrain with
  | none => s
  | some (n, last) =>
    if (s.raw < last + 50000 ∧ last ≠ 0) ∨ s.on F.CORD_STAT_ROLLING = true ∨ (n = 100 ∧ s.mayTest = false) then s
    else if n ≤ 1 then ({ s with mp := { s.mp with retrain := none } }).calDone 0 (s.rd F.PWR_STAT_DIE_TEMP)
    else { s with mp := { s.mp with retrain := some (n - 1, s.raw) } }

/-- An idle window opens, of a number of counts (none: without limit). A Ready lane asks for the Cord of its cold resume in one
of at least 150 µs (R132, trigger 9). [DEDUCED, unsafe: notes/assumptions/57.md] -/
def State.idleOpen (s : State) (len : Option Nat) : State :=
  let us := match len with
    | none => 0xFFFF
    | some n => n / rawPerUs
  let s := ((s.wr F.CYC_STAT_IDLE 1).wr F.CYC_IDLE_LEN (min us 0xFFFF)).satAdd F.CYC_IDLE_COUNT 1
  let s := { s with cyc := { s.cyc with idleEnd := len.map (· + s.raw) } }
  let s := if s.canAdmit && decide (150 ≤ us) then s.requestCord 9 else s
  ((s.lbistFence).offPulseStart len).retrainStep

/-- The window closes. -/
def State.idleClose (s : State) : State := { (s.wr F.CYC_STAT_IDLE 0) with cyc := { s.cyc with idleEnd := none } }

/-- A window opens where every task rests and the next start of a Starting or Running controller is far enough. -/
def State.idleCheck (s : State) : State :=
  if !s.running || s.on F.CYC_STAT_IDLE || !s.tasksRest then s
  else match s.nextStart [ctStarting, ctRunning] with
    | none => s
    | some n =>
      let guard := s.rd F.CYC_CFG_IDLE_GUARD * rawPerUs
      if guard + 20 * rawPerUs ≤ n then s.idleOpen (some (n - guard)) else s

/-- An open window ends IDLE_GUARD before the next start of a Starting or Running controller, also where a controller starts after
it opened (R400). -/
def State.idleLimit (s : State) : State :=
  if !s.on F.CYC_STAT_IDLE then s
  else match s.nextStart [ctStarting, ctRunning] with
    | none => s
    | some n =>
      let guard := s.rd F.CYC_CFG_IDLE_GUARD * rawPerUs
      if n ≤ guard then s.idleClose
      else
        let e := s.raw + (n - guard)
        { s with cyc := { s.cyc with idleEnd := some (match s.cyc.idleEnd with
          | none => e
          | some o => min o e) } }

/-- Just after a sealed Cord a window without limit opens where no cyclic task is enabled in a Running controller (R132). -/
def State.idleAtSeal (s : State) : State :=
  if s.running && s.tasksRest && (s.nextStart [ctRunning]).isNone then (s.idleOpen none).idleLimit else s

/-! ## Starts (R384 to R387) -/

/-- A task starts: the event of its line. -/
def State.taskStart (s : State) (t reasons : Nat) : State :=
  let x := s.task t
  let b := s.rd (F.TASK_STAT_BUF t)
  let s := s.taskTo t tsRunning true
  s.raise (496 + s.rd (F.TASK_CTL_LINE t))
    [w32 (t + 64 * x.kind + 256 * b + 512 * b2n x.late + 65536 * reasons), w32 (s.rd (F.TASK_CYCLE_CYCLE t) + 2 ^ 32 - 1), w32 x.tsNt.toNat]

/-- The header of a task's image with a snapshot's status and counts (Table 15-1). [DEDUCED, unsafe: notes/assumptions/57.md] -/
def State.imageHead (s : State) (t status ng first : Nat) : List Byte :=
  let x := s.task t
  wordBytes [w32 (s.rd (F.TASK_CYCLE_CYCLE t) + 2 ^ 32 - 1), w32 (x.kind + 4 * b2n x.late + 8 * s.rd (F.TASK_STAT_BUF t)),
    w32 x.tsNt.toNat, w32 (x.tsNt.toNat / 2 ^ 32), w32 status, w32 (ng + 65536 * first), w32 x.miss, 0]

/-- The image is complete: input forces, then the start. -/
def State.imageDone (s : State) (t : Nat) : State := (s.forceInput t).taskStart t 0

/-- Stations of a task's partition declared missing. -/
def State.stnsMissing (s : State) (t : Nat) : Nat :=
  (allStations.filter (fun k => s.on (F.CYC_STN_EN k) && s.on (F.CYC_STN_MISSING k) && s.stnPart k == s.taskPart t)).length

/-- The input phase begins: header and the island records held at the cycle start; without a signal section the image is
complete. -/
def State.inputBegin (s : State) (t : Nat) : State :=
  let s := (s.taskTo t tsInput true).busWrite (s.inAddr t) (s.imageHead t 0 0 0 ++ (s.task t).recs) 0x13
  if s.on (F.TASK_IN_LIST_EN t) then s else s.imageDone t

/-- The signal section of a task's image is done with a status, and the image with it: SNAP_STATUS, NOT_GOOD and FIRST_NG, then the
start. -/
def State.inputFill (s : State) (t status ng first : Nat) : State :=
  (s.busWrite (s.inAddr t + 0x10) (wordBytes [w32 status, w32 (ng + 65536 * first)]) 0x13).imageDone t

/-- The snapshot of a task's signal section opens in a Signal Engine slot of its partition, as a SIG_SNAPSHOT of the compiled list
does: its status where it fails, the snapshot, the state after the reads (R386, R352). -/
def State.inputOpen (s : State) (t : Nat) : Nat × Snap × State :=
  let list := s.rd (F.TASK_LIST_BASE t) * 4096
  let fmt := s.rd (F.TASK_IN_FORMAT t)
  let out := s.inAddr t + sigOfs (s.inIslands t).length
  let p : PartId := BitVec.ofNat 8 (s.taskPart t)
  let es := s.compiledList list
  let size := (if fmt = 0 then 16 else 8) * outTop es
  let job : Snap := ⟨none, t, p, false, out, fmt, size, cutGroups es 0, ⟨0, 0, 0x1FFF⟩, none⟩
  let chk := s.checkAll 0 [(list, 16), (list + 16, 8 * s.memFld (list + 4) 16 16)]
  (if !chk.1 then stInternal else if !s.compiledOk list p || !s.engineMayWrite out size then stBadDescriptor else stOK, job, chk.2)

/-- Runs the snapshot of a task as far as the slot carries it. -/
def State.inputSnap (s : State) (j : Snap) : State :=
  let r := s.snapGo j j.rest
  match r.1 with
  | some f => r.2.2.inputFill j.task f.status (if f.status = stOK then r.2.1.count.notGood else 0) (if f.status = stOK then r.2.1.count.first else 0)
  | none => r.2.2.snapKeep r.2.1

/-- A task's snapshot starts in a slot that has an operation left for it. -/
def State.inputStart (s : State) (t : Nat) : State :=
  if s.sig.ops = 0 then s
  else
    let r := (s.spend 1).inputOpen t
    if r.1 = stOK then r.2.2.inputSnap r.2.1 else r.2.2.inputFill t r.1 0 0

/-- A cycle start of a task (R384, R390): its CYCLE advances; a buffer in commit defers it. The first start after a takeover
sets PAIR_GAP (R507), and a start of kind 3 is late (R504). [DEDUCED, unsafe: notes/assumptions/57.md] -/
def State.cycleStart (s : State) (t : Nat) : State :=
  if !(s.taskCyc t && s.ctl (s.taskPart t) == ctRunning && s.taskSt t == tsIdle) then s
  else
    let c := s.rd (F.TASK_CYCLE_CYCLE t)
    let x := s.task t
    let s := (s.modAdd (F.TASK_CYCLE_CYCLE t) 1).wr (F.TASK_STAT_BUF t) (c % 2)
    let s := s.setTask t { x with
      ts := s.raw, tsNt := BitVec.ofNat 64 s.ntNs, kind := x.next, next := 0, late := x.next == 3, wdt := true
      recs := (s.inIslands t).flatMap s.islandIn, miss := s.stnsMissing t }
    let s := if s.on F.CYC_STAT_IDLE then s.idleClose else s
    let s := match s.pair.gapFrom with
      | none => s
      | some r => (s.wr F.PAIR_GAP_LAST (min ((s.raw - r) / rawPerUs) 65535)).pairSet (fun p => { p with gapFrom := none })
    if s.on (commitBit t (c % 2)) then s.taskTo t tsDeferred true else s.inputBegin t

/-- A fire of a generator: its number decides which tasks start. A module that is not Active remembers them (R504). -/
def State.cycFires (s : State) (g : Nat) : State :=
  let f := s.fires g
  let s := { s with cyc := { s.cyc with fires := Sparse.set s.cyc.fires 0 g (f + 1) } }
  let due (t : Nat) : Bool :=
    s.taskCyc t && s.rd (F.TASK_CTL_PTO t) == g && f % max 1 (s.rd (F.TASK_DIV_DIV t)) == s.rd (F.TASK_DIV_PHASE t)
  if !s.acts then s.pairSet (fun p => { p with passed := p.passed ++ (allTasks.filter due).filter (fun t => !p.passed.contains t) })
  else (allTasks.filter due).foldl State.cycleStart s

/-! ## Error tasks (R395) -/

/-- Reasons (Table 15-5). -/
def rsCold : Nat := 0
def rsWarm : Nat := 1
def rsOverrun : Nat := 2
def rsMissing : Nat := 3
def rsReturned : Nat := 4

/-- Pending reasons of a partition. -/
def State.reasons (s : State) (p : Nat) : BitVec 5 := Sparse.get s.cyc.reasons 0 p

/-- Replaces the pending reasons of a partition. -/
def State.setReasons (s : State) (p : Nat) (m : BitVec 5) : State :=
  { s with cyc := { s.cyc with reasons := Sparse.set s.cyc.reasons 0 p m } }

/-- The error task of a partition. -/
def State.errTask (s : State) (p : Nat) : Option Nat :=
  let t := s.rd (F.CYC_PART_ERR_TASK p)
  if s.on (F.CYC_PART_ERR_EN p) && s.taskEn t && s.taskErr t && s.taskPart t == p then some t else none

/-- The error task starts with the pending reasons, which are then cleared. An idle window ends. [DEDUCED, unsafe: notes/assumptions/57.md] -/
def State.errStart (s : State) (p t : Nat) (kind : Nat) : State :=
  let m := s.reasons p
  let s := (s.setReasons p 0).modAdd (F.TASK_CYCLE_CYCLE t) 1
  let s := s.setTask t { s.task t with ts := s.raw, tsNt := BitVec.ofNat 64 s.ntNs, kind := kind, late := false }
  let s := if s.on F.CYC_STAT_IDLE then s.idleClose else s
  s.taskStart t m.toNat

/-- A reason arises: it starts the error task at once where that is Idle and its controller Starting or Running. -/
def State.addReason (s : State) (p r : Nat) : State :=
  let s := s.setReasons p (s.reasons p ||| (1#5 <<< r))
  match s.errTask p with
  | some t => if s.taskSt t = tsIdle ∧ (s.ctl p = ctStarting ∨ s.ctl p = ctRunning) then s.errStart p t 0 else s
  | none => s

/-! ## Applying buffers (R389) -/

/-- The island record at an address, with the output forces where they are applied; the task's safe record, or zeros, unforced, where
a read meets an uncorrectable error (R389). -/
def State.outRecord (s : State) (t a k : Nat) (force : Bool) : List Byte × State :=
  let r := s.readCheck a 32 0x13
  if r.1 then (if force then s.forced t (32 * k) (s.bytes a 32) else s.bytes a 32, r.2)
  else
    let b := s.safeAddr t + 32 * k
    let q := r.2.readCheck b 32 0x13
    if q.1 && a != b then (s.bytes b 32, q.2) else (zeros 32, q.2)

/-- Hands a buffer's island records to the Field Engine; `force` applies the output forces. -/
def State.applyIslands (s : State) (t base : Nat) (force : Bool) : State :=
  let is := s.outIslands t
  (List.range is.length).foldl (fun u k =>
    let r := u.outRecord t (base + 32 * k) k force
    r.2.islandOut (is.getD k 0) r.1) s

/-- A buffer leaves commit; a start deferred for it begins (R390). -/
def State.leaveCommit (s : State) (t b : Nat) : State :=
  let s := s.wr (commitBit t b) 0
  if s.taskSt t = tsDeferred ∧ s.rd (F.TASK_STAT_BUF t) = b then
    let s := (s.satAdd (F.TASK_STAT_START_LATE t) 1).setTask t { s.task t with late := true }
    (s.raise 493 [w32 t, w32 (s.rd (F.TASK_CYCLE_CYCLE t) + 2 ^ 32 - 1)]).inputBegin t
  else s

/-- Applies a buffer: its records at once, its datasets as publications in the Signal Engine's slots. -/
def State.applyBuffer (s : State) (t : Nat) (buf : Option Nat) : State :=
  let s := match buf with
    | some b => s.applyIslands t (s.outAddr t b) true
    | none => s.applyIslands t (s.safeAddr t) false
  if s.taskSets t = [] then
    match buf with
    | some b => s.leaveCommit t b
    | none => s
  else { s with cyc := { s.cyc with commits := s.cyc.commits ++ [⟨t, buf, 0⟩] } }

/-- Publishes one dataset of a commit or safe image, whose values lie at an offset of the buffer, as a SIG_PUBLISH unit; one whose
values cannot be read keeps its generation (R389). -/
def State.commitSet (s : State) (c : Commit) (ofs d : Nat) : State :=
  let a := (match c.buf with
    | some b => s.outAddr c.task b
    | none => s.safeAddr c.task) + ofs
  let n := 8 * s.nsig d
  let r := s.readCheck a n 0x13
  if !r.1 then r.2
  else
    let bs := if c.buf.isSome then s.forced c.task ofs (s.bytes a n) else s.bytes a n
    (r.2.publishValues d ((List.range (s.nsig d)).map (fun k => BitVec.ofNat 64 (leNat ((bs.drop (8 * k)).take 8)))) 0).2

/-- Publishes the datasets of a commit or safe image in ascending order as far as the slot carries them; after the last the buffer
leaves commit. `fuel` bounds the units. -/
def State.publishCommit (s : State) (c : Commit) : Nat → State
  | 0 => s
  | fuel + 1 =>
    match (s.taskSets c.task)[c.next]? with
    | none =>
      let s := { s with cyc := { s.cyc with commits := s.cyc.commits.erase c } }
      match c.buf with
      | some b => s.leaveCommit c.task b
      | none => s
    | some d =>
      if s.sig.ops < s.nsig d then s
      else
        let ofs := 32 * (s.outIslands c.task).length + 8 * (((s.taskSets c.task).take c.next).map s.nsig).sum
        let c' : Commit := { c with next := c.next + 1 }
        let s := (s.commitSet c ofs d).spend (s.nsig d)
        ({ s with cyc := { s.cyc with commits := s.cyc.commits.map (fun x => if x = c then c' else x) } }).publishCommit c' fuel

/-! ## Controllers (R394, R396) -/

/-- Tasks of a partition that are enabled. -/
def State.partTasks (s : State) (p : Nat) : List Nat := allTasks.filter (fun t => s.taskEn t && s.taskPart t == p)

/-- The safe image of every cyclic task of a partition is applied. -/
def State.applySafe (s : State) (p : Nat) : State :=
  (s.partTasks p).foldl (fun u t => if u.taskErr t then u else u.applyBuffer t none) s

/-- The controller of a partition enters Running. -/
def State.ctlRun (s : State) (p : Nat) : State := s.wr (F.CYC_PART_STATE p) ctRunning

/-- The controller of a partition enters Stopped. -/
def State.ctlStop (s : State) (p : Nat) (overrun : Bool) : State :=
  let s := s.wr (F.CYC_PART_STATE p) ctStopped
  let s := (s.partTasks p).foldl (fun u t => u.taskTo t tsStopped false) s
  let s := { s with cyc := { s.cyc with ovrRun := Sparse.erase s.cyc.ovrRun p } }
  (s.applySafe p).raise 487 [w32 (p + 256 * b2n overrun)]

/-- The number of force entries in use, with the notices of R399. -/
def State.forceCount (s : State) : State :=
  let n := ((List.range 1024).filter (fun f => s.on (F.CYC_FORCE0_EN f))).length
  (s.wr F.CYC_FORCES_COUNT n).forceNotice s

/-- Clears the force entries of a partition. -/
def State.forceClear (s : State) (p : Nat) : State :=
  if s.rd F.CYC_FORCES_COUNT = 0 then s
  else
    let t := (List.range 1024).foldl (fun u f =>
      if u.on (F.CYC_FORCE0_EN f) ∧ u.rd (F.CYC_FORCE1_PART f) = p then
        (((u.setReg (Reg.CYC_FORCE0 f) 0).setReg (Reg.CYC_FORCE1 f) 0).setReg (Reg.CYC_FORCE2 f) 0).setReg (Reg.CYC_FORCE3 f) 0
      else u) s
    t.forceCount

/-! ## Stations (R397) -/

/-- The R285 count of a station's position on its ring. -/
def State.stnCount (s : State) (k : Nat) : Nat :=
  let i := s.rd (F.CYC_STN_POS k)
  s.rd ⟨Reg.CR_MISS (s.rd (F.CYC_STN_RING k)) (i / 4), 8 * (i % 4), 8⟩

/-- Marks a dataset STALE and queues its stale pass. -/
def State.markStale (s : State) (d : Nat) : State :=
  if s.dsStale d then s
  else
    let s := (s.setDs 0x13 d 0x24 8 1 1).setDs 0x13 d 0x34 16 16 (min (s.ds d 0x34 16 16 + 1) 65535)
    ((s.satAdd F.SIG_PASS_STALES 1).queuePass d .stale).watchEnd d

/-- INFO of a station event. -/
def State.stnInfo (s : State) (k : Nat) : List Word :=
  [w32 (k + 512 * s.rd (F.CYC_STN_RING k) + 2048 * s.rd (F.CYC_STN_POS k))]

/-- A station is judged by its count. -/
def State.stnJudge (s : State) (k : Nat) : State :=
  if !s.on (F.CYC_STN_EN k) then s
  else
    let c := s.stnCount k
    let missing := s.on (F.CYC_STN_MISSING k)
    if !missing ∧ s.rd (F.CYC_STN_N k) ≤ c then
      let s := s.wr (F.CYC_STN_MISSING k) 1
      let s := (List.range (s.rd (F.CYC_STD_DSET_COUNT k))).foldl (fun u j => u.markStale (u.rd (F.CYC_STD_DSET_FIRST k) + j)) s
      (s.raise 489 (s.stnInfo k)).addReason (s.stnPart k) rsMissing
    else if missing ∧ c = 0 then
      let s := s.wr (F.CYC_STN_MISSING k) 0
      (s.raise 490 (s.stnInfo k)).addReason (s.stnPart k) rsReturned
    else s

/-- Every station is judged, after the counts of a ring have changed. -/
def State.stations (s : State) : State := if s.running && s.acts then allStations.foldl State.stnJudge s else s

/-- What a cold start clears (Table 15-6). -/
def State.coldClear (s : State) (p : Nat) : State :=
  let s := (s.partTasks p).foldl (fun u t =>
    ((((u.setReg (Reg.TASK_CYCLE t) 0).wr (F.TASK_STAT_OVERRUNS t) 0).wr (F.TASK_STAT_START_LATE t) 0).setReg (Reg.TASK_TIME t) 0)) s
  let s := s.forceClear p
  allStations.foldl (fun u k => if u.on (F.CYC_STN_EN k) && u.stnPart k == p then u.wr (F.CYC_STN_MISSING k) 0 else u) s

/-- Entries of a partition's controller to Starting. -/
def State.ctlStarts (s : State) (p : Nat) : Nat := Sparse.get s.cyc.starts 0 p

/-- The controller of a partition enters Starting by a kind (1 warm, 2 cold); without an error task it runs at once. -/
def State.ctlStart (s : State) (p kind : Nat) : State :=
  let s := s.wr (F.CYC_PART_STATE p) ctStarting
  let s := { s with cyc := { s.cyc with starts := Sparse.insert s.cyc.starts p (s.ctlStarts p + 1) } }
  let s := (s.partTasks p).foldl (fun u t =>
    (u.taskTo t tsIdle false).setTask t { u.task t with next := if u.taskErr t then 0 else kind, wdt := false }) s
  let s := if kind = 2 then s.coldClear p else s
  let s := s.applySafe p
  match s.errTask p with
  | none =>
    let s := s.ctlRun p
    if kind = 2 then s.stations else s
  | some t =>
    let s := s.setReasons p (s.reasons p ||| (1#5 <<< (if kind = 2 then rsCold else rsWarm)))
    let s := s.errStart p t kind
    if kind = 2 then s.stations else s

/-! ## Commits (R389, R391) -/

/-- Task, buffer, CYCLE and validity of an end store by a partition, and the start of the controller that it belongs to; the task's
state when the record enters decides. -/
def State.commitInfo (s : State) (t : Nat) (part : PartId) : List Nat :=
  let ok := s.taskEn t && s.taskSt t == tsRunning && s.taskPart t == part.toNat
  [t, s.rd (F.TASK_STAT_BUF t), s.rd (F.TASK_CYCLE_CYCLE t), b2n ok, s.ctlStarts (s.taskPart t)]

/-- A commit record has entered the Flue: a valid one ends its task's cycle. -/
def State.commitEntered (s : State) (info : List Nat) : State :=
  let t := info.getD 0 0
  if info.getD 3 0 = 0 then s
  else
    let us := min ((s.raw - (s.task t).ts) / rawPerUs) 65535
    let s := ((s.taskTo t tsIdle false).wr (F.TASK_TIME_LAST t) us).peak (F.TASK_TIME_MAX t) us
    if s.taskErr t then s.idleCheck
    else
      let s := s.wr (commitBit t (info.getD 1 0)) 1
      let s := if s.cyc.boundary == some t && s.on F.CORD_CFG_BOUNDARY_EN && s.ctl (s.taskPart t) == ctRunning then s.requestCord 2 else s
      s.idleCheck

/-- A rollback discards a commit record: its task runs again, still timed from its cycle start (R392). [DEDUCED, unsafe: notes/assumptions/58.md] -/
def State.commitUndone (s : State) (info : List Nat) : State :=
  let t := info.getD 0 0
  if info.getD 3 0 = 0 then s
  else
    let s := if s.taskErr t then s else s.wr (commitBit t (info.getD 1 0)) 0
    if s.taskSt t = tsIdle then
      let s := s.taskTo t tsRunning true
      if s.on F.CYC_STAT_IDLE then s.idleClose else s
    else s

/-- An error task's record is released: a Starting controller runs, and reasons that have come meanwhile start it again. An end store
from before the controller's last start is discarded (R403). -/
def State.errReleased (s : State) (t start : Nat) : State :=
  let p := s.taskPart t
  if s.ctlStarts p ≠ start then s
  else
    let s := if s.ctl p = ctStarting then s.ctlRun p else s
    let s := if s.reasons p ≠ 0 ∧ s.taskSt t = tsIdle ∧ s.ctl p = ctRunning then s.errStart p t 0 else s
    s.idleCheck

/-- The Flue releases a commit record. [DEDUCED, unsafe: notes/assumptions/57.md] -/
def State.commitReleased (s : State) (info : List Nat) : State :=
  let t := info.getD 0 0
  let b := info.getD 1 0
  if info.getD 3 0 = 0 then s.satAdd F.CYC_CNT_BAD_END 1
  else if s.taskErr t then s.errReleased t (info.getD 4 0)
  else if s.ctl (s.taskPart t) ≠ ctRunning then (s.satAdd F.CYC_CNT_STOP_DISC 1).leaveCommit t b
  else (s.recEvent 2 t (s.rd (F.TASK_TIME_LAST t))).applyBuffer t (some b)

/-- The discard of the unsealed interval: commits undone, then the records (R189). -/
def State.discardInterval (s : State) : State :=
  let gone := s.flue.recs.filter (fun r => !r.releasable && r.kind == EffKind.commit)
  (gone.foldl (fun u r => u.commitUndone r.info) s).flueDiscard

/-! ## Phase and power -/

/-- The boundary task: the enabled cyclic task of the shortest period, the lowest number on a tie (R391). -/
def State.boundaryTask (s : State) : Option Nat :=
  let per (t : Nat) : Nat := s.ptoPeriod (s.rd (F.TASK_CTL_PTO t)) * max 1 (s.rd (F.TASK_DIV_DIV t))
  (allTasks.filter s.taskCyc).foldl (fun best t =>
    match best with
    | none => some t
    | some b => if per t < per b then some t else some b) none

/-- SETUP_LOCK: tasks Stopped, fires numbered from 0, the boundary task fixed, controllers started by their START. -/
def State.cycLock (s : State) : State :=
  let s := allTasks.foldl (fun u t => if u.taskEn t then u.taskTo t tsStopped false else u) s
  let s := { s with cyc := { s.cyc with fires := [], boundary := s.boundaryTask, starts := [], commits := [], reasons := [], ovrRun := [] } }
  (List.range 256).foldl (fun u p =>
    let k := u.rd (F.CYC_PART_START p)
    if k = 1 ∨ k = 2 then u.ctlStart p k else u) s

/-- A window may open at entry to the Operate phase, where the tasks rest from the start (R400). -/
def State.cycOpen (s : State) : State := s.idleLimit.idleCheck

/-- Kindle: every watchdog that ran resumes from 0 (Table 15-10). -/
def State.cycKindle (s : State) : State :=
  allTasks.foldl (fun u t => if (u.task t).wdt then u.setTask t { u.task t with ts := u.raw } else u) s

/-- What waits for the Signal Engine's slots of a partition: tasks whose snapshot has not started, their snapshots in progress, and
the commits whose datasets are to be published, in order. -/
def State.cycSnapsOf (s : State) (p : Nat) : List Nat :=
  allTasks.filter (fun t => s.taskSt t == tsInput && s.on (F.TASK_IN_LIST_EN t) && s.taskPart t == p &&
    !s.sig.snaps.any (fun j => j.cmd.isNone && j.task == t))
def State.snapsOf (s : State) (p : Nat) : List Snap := s.sig.snaps.filter (fun j => j.cmd.isNone && j.part.toNat == p)
def State.cycCommitsOf (s : State) (p : Nat) : List Commit := s.cyc.commits.filter (fun c => s.taskPart c.task == p)

end Machine
end Sys2Proof
end

