-- ==== Sys2Proof/Machine/CarRing.lean ====
section
/-!
DEFINITION. The car rings' commands and events (chapter 11). After the counts of a ring's positions have changed the cycle
engine judges its stations (R397).
-/

namespace Sys2Proof
namespace Machine

/-- CR_MASTER_RX: a copy arrives whole at the master of ring n on channel ch; `ok` says that its FCS checks. -/
def crMasterRx (n : Fin 3) (ch : Fin 2) (f : List Byte) (ok : Bool) (s : State) : State :=
  (s.crMasterRx n.val ch.val f ok).stations

/-- CR_MEMBER_RX: a copy passes a member of ring n on channel ch. -/
def crMemberRx (n : Fin 3) (ch : Fin 2) (f : List Byte) (ok : Bool) (s : State) : State :=
  (s.crMemberRx n.val ch.val f ok).stations

/-- CR_RETURN_TIMEOUT: RET_TMO has passed at the master without a valid copy. -/
def crReturnTimeout (n : Fin 3) (s : State) : State := (s.crReturnTimeout n.val).stations

/-- CR_MEMBER_CYCLE_TIMEOUT: a member has accepted no copy for PERIOD + PERIOD / 8. -/
def crMemberCycleTimeout (n : Fin 3) (s : State) : State := (s.crMemberTimeout n.val).stations

/-- CR_ACYC_RX: an acyclic frame arrives at an IN port. -/
def crAcycRx (n : Fin 3) (ch : Fin 2) (f : List Byte) (ok : Bool) (s : State) : State := s.crAcycRx n.val ch.val f ok

/-- CR_ACYC_FORWARD: a buffered acyclic frame is sent. -/
def crAcycForward (n : Fin 3) (ch : Fin 2) (s : State) : State := s.crAcycForward n.val ch.val

/-- CR_TX_START: an own acyclic frame of port p starts. -/
def crTxStart (p : Fin 12) (s : State) : State := s.crTxStart p.val

/-- CR_TX: an acyclic frame is queued at port p. -/
def crTx (p : Fin 12) (s : State) : State := s.crTx p.val

/-- CR_TX_EXPIRY: the oldest acyclic frame of port p has missed its windows. -/
def crTxExpiry (p : Fin 12) (s : State) : State := s.crTxExpiry p.val

/-- CR_RX_POST: a receive buffer is posted at port p. -/
def crRxPost (p : Fin 12) (s : State) : State := s.doLong (1 + p.val) 0x11 (fun _ s => s)

/-- CR_STATUS: the status of port p's ring. -/
def crStatus (p : Fin 12) (s : State) : State := s.doShort (1 + p.val) 0x12 (runCrStatus (p.val / 4))

/-- CR_LINK_CHANGE: port p gains or loses link. -/
def crLinkChange (p : Fin 12) (up : Bool) (s : State) : State := s.crLinkChange p.val up

/-- A write to CR_CLR of ring n (R294). -/
def crClr (n : Fin 3) (_who : Requester) (w : Word) (s : State) : State := s.crClear n.val w

/-- TX_FRAME_END: the frame that port p sends outside its cyclic frames has ended: car-ring ports 0 to 11, backbone ports 12
to 15. -/
def txFrameEnd (p : Fin 16) (s : State) : State := if p.val < 12 then s.crTxEnd p.val else s.cbFrameEnd (p.val - 12)

/-! ## Meanings -/

/-- The effect of CR_MASTER_RX. -/
def execCrMasterRx (n : Fin 3) (ch : Fin 2) (f : List Byte) (ok : Bool) (s : State) : Host.Outcome State Fault Refusal :=
  .next (crMasterRx n ch f ok s)
/-- The effect of CR_MEMBER_RX. -/
def execCrMemberRx (n : Fin 3) (ch : Fin 2) (f : List Byte) (ok : Bool) (s : State) : Host.Outcome State Fault Refusal :=
  .next (crMemberRx n ch f ok s)
/-- The effect of CR_RETURN_TIMEOUT. -/
def execCrReturnTimeout (n : Fin 3) (s : State) : Host.Outcome State Fault Refusal := .next (crReturnTimeout n s)
/-- The effect of CR_MEMBER_CYCLE_TIMEOUT. -/
def execCrMemberCycleTimeout (n : Fin 3) (s : State) : Host.Outcome State Fault Refusal :=
  .next (crMemberCycleTimeout n s)
/-- The effect of CR_ACYC_RX. -/
def execCrAcycRx (n : Fin 3) (ch : Fin 2) (f : List Byte) (ok : Bool) (s : State) : Host.Outcome State Fault Refusal :=
  .next (crAcycRx n ch f ok s)
/-- The effect of CR_ACYC_FORWARD. -/
def execCrAcycForward (n : Fin 3) (ch : Fin 2) (s : State) : Host.Outcome State Fault Refusal :=
  .next (crAcycForward n ch s)
/-- The effect of CR_TX_START. -/
def execCrTxStart (p : Fin 12) (s : State) : Host.Outcome State Fault Refusal := .next (crTxStart p s)
/-- The effect of CR_TX. -/
def execCrTx (p : Fin 12) (s : State) : Host.Outcome State Fault Refusal := .next (crTx p s)
/-- The effect of CR_TX_EXPIRY. -/
def execCrTxExpiry (p : Fin 12) (s : State) : Host.Outcome State Fault Refusal := .next (crTxExpiry p s)
/-- The effect of CR_RX_POST. -/
def execCrRxPost (p : Fin 12) (s : State) : Host.Outcome State Fault Refusal := .next (crRxPost p s)
/-- The effect of CR_STATUS. -/
def execCrStatus (p : Fin 12) (s : State) : Host.Outcome State Fault Refusal := .next (crStatus p s)
/-- The effect of CR_LINK_CHANGE. -/
def execCrLinkChange (p : Fin 12) (up : Bool) (s : State) : Host.Outcome State Fault Refusal :=
  .next (crLinkChange p up s)
/-- The effect of CR_CLR. -/
def execCrClr (n : Fin 3) (who : Requester) (w : Word) (s : State) : Host.Outcome State Fault Refusal :=
  .next (s.arrive who (Reg.CR_CLR n.val) w (fun t => crClr n who w t))
/-- The effect of TX_FRAME_END. -/
def execTxFrameEnd (p : Fin 16) (s : State) : Host.Outcome State Fault Refusal := .next (txFrameEnd p s)

end Machine
end Sys2Proof
end

