-- ==== Sys2Proof/Machine/Wake.lean ====
section
/-!
DEFINITION. Wake sources and their latch (R83, R84, Table 3-10).
-/

namespace Sys2Proof
namespace Machine

/-- The wake sources of Table 3-10 that are not PLIC interrupts. -/
def wkAlarm : Nat := 2
def wkPto : Nat := 3
def wkSync : Nat := 4
def wkDi : Nat := 5
def wkEnergy : Nat := 6
def wkMp : Nat := 7

/-- WAKE_EN enables a source with its INDEX. -/
def State.wakeOn (s : State) (src idx : Nat) : Bool :=
  match src with
  | 2 => s.on F.WAKE_EN_RTC_ALARM && idx == 0
  | 3 => s.on F.WAKE_EN_PTO15 && idx == 15
  | 4 => s.on F.WAKE_EN_SYNC_IN && idx == 0
  | 5 => s.on F.WAKE_EN_DI && decide (idx < 16) && (s.rd F.WAKE_EN_DI_MASK).testBit idx
  | 6 =>
    if idx < 12 then s.on F.WAKE_EN_ED_CARRING
    else if idx < 16 then s.on F.WAKE_EN_ED_BACKBONE
    else idx == 16 && s.on F.WAKE_EN_ED_MA0
  | 7 => s.on F.WAKE_EN_MP && idx == 0
  | _ => false

/-- Table 3-10 allows a source in E3; in E2 it allows every one that WAKE_EN can enable. -/
def wakeInE3 (src idx : Nat) : Bool := src == 2 || src == 5 || src == 7 || (src == 6 && decide (12 ≤ idx))

/-- The state that an entry past its decision point leads to, or that the module is in: true for E3. -/
def State.asleep (s : State) : Option Bool :=
  match s.pwr.state with
  | .quiesce x => some x
  | .e2 => some false
  | .e3 => some true
  | _ => none

/-- The lower of two wake sources. -/
def wakeLess (x y : Nat × Nat) : Bool := decide (x.1 < y.1) || (x.1 == y.1 && decide (x.2 < y.2))

/-- The lowest source of a sample, and within it the lowest INDEX. -/
def wakeFirst : List (Nat × Nat) → Option (Nat × Nat)
  | [] => none
  | x :: t => match wakeFirst t with
    | none => some x
    | some y => some (if wakeLess y x then y else x)

/-- Records the wake in WAKE_SRC and the RTC in PWR_RTC_WAKE; `from_` is the state woken from. -/
def State.wakeRecord (s : State) (src idx from_ : Nat) : State :=
  let s := ((s.wr F.WAKE_SRC_SRC src).wr F.WAKE_SRC_FROM from_).wr F.WAKE_SRC_INDEX idx
  s.wr64 Reg.PWR_RTC_WAKE_LO Reg.PWR_RTC_WAKE_HI s.pwr.rtc.toNat

/-- WAKE_PEND takes a source. [DEDUCED, unsafe: notes/assumptions/31.md] -/
def State.wakePend (s : State) (src : Nat) : State := s.wr F.WAKE_PEND_PEND (s.rd F.WAKE_PEND_PEND ||| 2 ^ src)

/-- One sample of the wake logic: the enabled sources that the present state allows latch, and the first one after the
decision point is the wake that is recorded (R84). -/
def State.wakeLatch (s : State) (srcs : List (Nat × Nat)) : State :=
  if s.phase = Phase.reset then s
  else
    let ok := srcs.filter (fun x => s.wakeOn x.1 x.2 && !(s.asleep == some true && !wakeInE3 x.1 x.2))
    let t := ok.foldl (fun u x => u.wakePend x.1) (if ok = [] then s else s.mpIrq 8)
    match s.asleep, wakeFirst ok with
    | some toE3, some x =>
      if s.pwr.wakeTaken then t
      else
        let t := t.wakeRecord x.1 x.2 (if toE3 then 3 else 2)
        { t with pwr := { t.pwr with wakeTaken := true } }
    | _, _ => t

/-- Wake sources latch together. [DEDUCED, unsafe: notes/assumptions/32.md] -/
def wakeLatch (srcs : List (Fin 8 × Fin 512)) (s : State) : State := s.wakeLatch (srcs.map (fun x => (x.1.val, x.2.val)))

/-- The RTC reaches PWR_ALARM. -/
def rtcAlarm (s : State) : State :=
  if s.pwr.rtc.toNat = s.rd64 Reg.PWR_ALARM_LO Reg.PWR_ALARM_HI then s.wakeLatch [(wkAlarm, 0)] else s

/-- Energy appears on a network port in E2 or E3. [DEDUCED, unsafe: notes/assumptions/32.md] -/
def energyDetect (port : Fin 17) (s : State) : State :=
  if s.pwr.state = PowerState.e2 ∨ s.pwr.state = PowerState.e3 then s.wakeLatch [(wkEnergy, port.val)] else s

/-- A write to PWR_MPWAKE: the MP's key latches its source. -/
def pwrMpwake (who : Requester) (w : Word) (s : State) : State :=
  if byMp who && bits w.toNat 0 16 == 0x4D57 then s.wakeLatch [(wkMp, 0)] else s

/-! ## Meanings -/

/-- The effect of WAKE_LATCH. -/
def execWakeLatch (srcs : List (Fin 8 × Fin 512)) (s : State) : Host.Outcome State Fault Refusal :=
  .next (wakeLatch srcs s)
/-- The effect of RTC_ALARM. -/
def execRtcAlarm (s : State) : Host.Outcome State Fault Refusal := .next (rtcAlarm s)
/-- The effect of ENERGY_DETECT. -/
def execEnergyDetect (port : Fin 17) (s : State) : Host.Outcome State Fault Refusal := .next (energyDetect port s)
/-- The effect of PWR_MPWAKE. -/
def execPwrMpwake (who : Requester) (w : Word) (s : State) : Host.Outcome State Fault Refusal :=
  .next (s.arrive who Reg.PWR_MPWAKE w (fun t => pwrMpwake who w t))

end Machine
end Sys2Proof
end

