-- ==== Sys2Proof/Machine/Plic.lean ====
section
/-!
DEFINITION. The interrupt controller and the timers of the harts: PLIC registers, claims and completions, and the delivery
of source changes with their records (R101 to R106, R153, R155, R158).
-/

namespace Sys2Proof
namespace Machine

/-! ## PLIC registers (R104, R105, Table 4-3) -/

/-- Interrupt identities 1 to 512. -/
def plicIds : List Nat := (List.range 512).map (· + 1)

/-- Priority of an identity. -/
def Plic.prioOf (p : Plic) (id : Nat) : Nat := (Sparse.get p.prio 0 id).toNat

/-- An identity is pending. -/
def Plic.isPend (p : Plic) (id : Nat) : Bool := Sparse.get p.pend false id

/-- An identity is enabled for a context. -/
def Plic.isEnab (p : Plic) (h id : Nat) : Bool := Sparse.get p.enab false (1024 * h + id)

/-- Threshold of a context. -/
def Plic.threshOf (p : Plic) (h : Nat) : Nat := (Sparse.get p.thresh 0 h).toNat

/-- A source edge: the gateway holds one request, and an edge on a claimed source is merged behind the claim (R104). -/
def Plic.edge (p : Plic) (id : Nat) : Plic :=
  if Sparse.get p.claimed false id then { p with merged := Sparse.set p.merged false id true }
  else { p with pend := Sparse.set p.pend false id true }

/-- The better of two candidates: higher priority, then lower identity; 0 is none. -/
def Plic.better (p : Plic) (best id : Nat) : Nat := if best = 0 ∨ p.prioOf best < p.prioOf id then id else best

/-- The identity a claim of a context returns, 0 for none: pending, enabled, priority not 0. -/
def Plic.best (p : Plic) (h : Nat) : Nat :=
  (plicIds.filter (fun id => p.isPend id && p.isEnab h id && decide (0 < p.prioOf id))).foldl p.better 0

/-- A claim of a context. -/
def Plic.claim (p : Plic) (h : Nat) : Nat × Plic :=
  let id := p.best h
  if id = 0 then (0, p)
  else (id, { p with pend := Sparse.set p.pend false id false, claimed := Sparse.set p.claimed false id true })

/-- A completion by a context; one for a source not enabled there is ignored. A merged request becomes pending. -/
def Plic.complete (p : Plic) (h id : Nat) : Plic :=
  if id = 0 ∨ 512 < id ∨ p.isEnab h id = false ∨ Sparse.get p.claimed false id = false then p
  else
    let m := Sparse.get p.merged false id
    { p with
      claimed := Sparse.set p.claimed false id false
      merged := Sparse.set p.merged false id false
      pend := if m then Sparse.set p.pend false id true else p.pend }

/-- The external interrupt of a context: a pending, enabled source above the threshold. -/
def Plic.meip (p : Plic) (h : Nat) : Bool :=
  plicIds.any (fun id => p.isPend id && p.isEnab h id && decide (p.threshOf h < p.prioOf id))

/-- 32 flags as a word, for the identities from base; identity 0 and those above 512 read 0. -/
def flagWord (f : Nat → Bool) (base : Nat) : Nat → Nat
  | 0 => 0
  | n + 1 => flagWord f base n + (if f (base + n) ∧ 0 < base + n ∧ base + n ≤ 512 then 2 ^ n else 0)

/-- What an offset of the register map names. -/
inductive PlicReg where
  | prio (id : Nat)
  | pend (w : Nat)
  | enab (h w : Nat)
  | thresh (h : Nat)
  | claim (h : Nat)
  | none
deriving DecidableEq, Repr

/-- The register at an offset (Table 4-3). -/
def plicReg (off : Nat) : PlicReg :=
  if off % 4 ≠ 0 then .none
  else if 4 ≤ off ∧ off ≤ 0x800 then .prio (off / 4)
  else if 0x1000 ≤ off ∧ off ≤ 0x1040 then .pend ((off - 0x1000) / 4)
  else if 0x2000 ≤ off ∧ off < 0x2200 ∧ (off - 0x2000) % 0x80 ≤ 0x40 then .enab ((off - 0x2000) / 0x80) ((off - 0x2000) % 0x80 / 4)
  else if 0x200000 ≤ off ∧ off < 0x204000 ∧ off % 0x1000 = 0 then .thresh ((off - 0x200000) / 0x1000)
  else if 0x200000 ≤ off ∧ off < 0x204000 ∧ off % 0x1000 = 4 then .claim ((off - 0x200000) / 0x1000)
  else .none

/-- A DZPDATA read: its value and the PLIC after it. -/
def Plic.read (p : Plic) (off : Nat) : Nat × Plic :=
  match plicReg off with
  | .prio id => (p.prioOf id, p)
  | .pend w => (flagWord p.isPend (32 * w) 32, p)
  | .enab h w => (flagWord (p.isEnab h) (32 * w) 32, p)
  | .thresh h => (p.threshOf h, p)
  | .claim h => p.claim h
  | .none => (0, p)

/-- Sets 32 enable flags of a context. -/
def plicSetEnab (m : List (Nat × Bool)) (h base v : Nat) : Nat → List (Nat × Bool)
  | 0 => m
  | n + 1 =>
    let m := plicSetEnab m h base v n
    if 0 < base + n ∧ base + n ≤ 512 then Sparse.set m false (1024 * h + base + n) (v / 2 ^ n % 2 == 1) else m

/-- A DZPDATA write. -/
def Plic.write (p : Plic) (off v : Nat) : Plic :=
  match plicReg off with
  | .prio id => { p with prio := Sparse.set p.prio 0 id (BitVec.ofNat 3 v) }
  | .pend _ => p
  | .enab h w => { p with enab := plicSetEnab p.enab h (32 * w) v 32 }
  | .thresh h => { p with thresh := Sparse.set p.thresh 0 h (BitVec.ofNat 3 v) }
  | .claim h => p.complete h v
  | .none => p

/-! ## Delivery to the lanes (R153, R155, R160) -/

/-- Instructions retired by each hart since the sealed Cord: its minstret counted from the Cord, whatever software writes to
minstret or mcountinhibit. [DEDUCED, unsafe: notes/assumptions/87.md] -/
def State.instCounts (s : State) : List Nat :=
  allHarts.map (fun h =>
    ((s.hart h).insts - (match s.cord.sealedRec with
      | none => 0
      | some r => (r.harts.get h).insts)).toNat)

/-- A hart has an access under way or ended, which it retires before it takes an interrupt. -/
def State.midAccess (s : State) (h : HartId) : Bool :=
  (s.hart h).wait == .rack || (s.hart h).wait == .held || (Sparse.lookup s.lanes.ready h.val).isSome

/-- The counts before which a change that arrives now is seen: an instruction whose access is under way counts as retired. [DEDUCED, unsafe: notes/assumptions/87.md] -/
def State.srcCounts (s : State) : List Nat :=
  List.zipWith (fun n h => n + b2n (s.midAccess h)) s.instCounts allHarts

/-- The level of a source or of a hart's timer reaches the PLIC replicas and the harts. -/
def State.applySrc (s : State) (src : Nat) (level : Bool) : State :=
  if src < 512 then (if level then { s with plic := s.plic.edge (src + 1) } else s)
  else
    let h : HartId := Fin.ofNat 4 (src - 512)
    s.setHart h { s.hart h with mtip := level }

/-- A change is delivered with its SRC record, or held at the fabric where the record finds no room (R155). Lanes without
clock and supply take none. -/
def State.deliverNow (s : State) (src : Nat) (level : Bool) : State :=
  if !s.lanes.on then s
  else if s.operate then
    match s.logTake (.src src level s.srcCounts) none with
    | some t => t.applySrc src level
    | none => { s with cord := { s.cord with heldSrc := s.cord.heldSrc ++ [(src, level)] } }
  else s.applySrc src level

/-- A change arrives at the fabric: held behind earlier held ones, and while a rollback, a re-execution or a cold resume
lasts. -/
def State.deliver (s : State) (src : Nat) (level : Bool) : State :=
  if s.cord.heldSrc ≠ [] ∨ s.on F.CORD_STAT_ROLLING ∨ s.on F.CORD_STAT_REPLAY ∨ s.lanes.resuming then
    { s with cord := { s.cord with heldSrc := s.cord.heldSrc ++ [(src, level)] } }
  else s.deliverNow src level

/-- Delivers held changes in their order, until one finds no room; `n` bounds them. -/
def State.deliverHeld (s : State) : Nat → State
  | 0 => s
  | n + 1 =>
    match s.cord.heldSrc with
    | [] => s
    | (x, l) :: t =>
      if s.operate && decide (logCap < s.logUsed + 2) then s
      else (({ s with cord := { s.cord with heldSrc := t } }).deliverNow x l).deliverHeld n

/-- MTIP as the comparison with TB_RAW gives it (R106). -/
def State.mtipNow (s : State) (h : HartId) : Bool := reached s.raw (s.hart h).dztcmp.toNat

/-- MTIP that the fabric has last sent to a hart: delivered, or the last held change. -/
def State.mtipSent (s : State) (h : HartId) : Bool :=
  match (s.cord.heldSrc.filter (fun p => p.1 == 512 + h.val)).getLast? with
  | some p => p.2
  | none => (s.hart h).mtip

/-- mip of a hart: MEIP and MTIP. -/
def State.mip (s : State) (h : HartId) : DWord :=
  (if s.plic.meip h.val then 0x800#64 else 0) ||| (if (s.hart h).mtip then 0x80#64 else 0)

/-- An interrupt that ends WFI: pending and enabled in mie, whatever mstatus.MIE. [DEDUCED, unsafe: notes/assumptions/32.md] -/
def State.wakes (s : State) (h : HartId) : Bool := s.mip h &&& (s.hart h).mieReg != 0

/-- Conditions that hold when E1 ends request a Cord at once (R144). -/
def State.e1Cords (s : State) : State := s.undoForce.logForce.flueForce

/-- In E1 an interrupt that would end a WFI in some hart wakes the lane complex (R83); WAKE_SRC names a PLIC source. Every
hart goes on at the instruction after its WFI. -/
def State.kindleE1 (s : State) (src : Nat) : State :=
  if s.pwr.state = PowerState.e1 ∧ allHarts.any s.wakes = true then
    let s := { s with pwr := { s.pwr with state := .run } }
    let s := if src < 512 then (s.wakeRecord 1 src 1).wakePend 1 else s
    (allHarts.foldl (fun t h => t.setHart h { t.hart h with wait := .run }) s).e1Cords
  else s

/-- MTIP_CHANGE: the comparison of a hart has changed. -/
def mtipChange (h : HartId) (s : State) : State :=
  if s.mtipNow h == s.mtipSent h || !s.lanes.on then s
  else (s.deliver (512 + h.val) (s.mtipNow h)).kindleE1 (512 + h.val)

/-! ## Meanings -/

/-- The effect of MTIP_CHANGE. -/
def execMtipChange (h : HartId) (s : State) : Host.Outcome State Fault Refusal := .next (mtipChange h s)

end Machine
end Sys2Proof
end

