-- ==== Sys2Proof/Machine/HartOps.lean ====
section
/-!
DEFINITION. A hart's registers, CSRs, traps, memory protection and the loop rule (chapter 04).
-/

namespace Sys2Proof
namespace Machine

/-! ## Registers -/

/-- x register r; x0 reads 0. -/
def Hart.xr (h : Hart) (r : Nat) : DWord := if r = 0 then 0 else Sparse.get h.x 0 r

/-- Writes x register r; a write to x0 is lost. -/
def Hart.setX (h : Hart) (r : Nat) (v : DWord) : Hart := if r = 0 then h else { h with x := Sparse.set h.x 0 r v }

/-- f register r. -/
def Hart.fr (h : Hart) (r : Nat) : DWord := Sparse.get h.f 0 r

/-- Writes f register r; FS becomes Dirty. -/
def Hart.setF (h : Hart) (r : Nat) (v : DWord) : Hart := { h with f := Sparse.set h.f 0 r v, fs := 3 }

/-- Privilege codes of MPP. -/
def privCode : Priv → Nat
  | .user => 0
  | .machine => 3

/-! ## Traps and MRET (R95, R107, R108) -/

/-- Trap entry into M-mode: mepc, mcause, mtval, the mstatus stack and the vector. Loop state is unchanged (R115). -/
def Hart.trap (h : Hart) (irq : Bool) (cause : Nat) (tval : DWord) : Hart :=
  let base := h.mtvec &&& ~~~ 3#64
  { h with
    mepc := h.pc &&& ~~~ 1#64
    mcause := BitVec.ofNat 64 (cause + (if irq then 2 ^ 63 else 0))
    mtval := tval
    mpie := h.mie
    mie := false
    mpp := h.priv
    priv := .machine
    pc := if irq ∧ h.mtvec.toNat % 4 = 1 then base + BitVec.ofNat 64 (4 * cause) else base
    wait := .run }

/-- The loop state after an instruction of `len` bytes at pc completes, and the next pc; `tgt` is the target of a taken
transfer (R113). -/
def Hart.complete (h : Hart) (len : Nat) (tgt : Option DWord) : Hart :=
  let seq := h.pc + BitVec.ofNat 64 len
  let rule := seq == h.lpend && h.lpCount != 0 && h.priv == h.lpMode
  { h with
    pc := match tgt with
      | some t => t
      | none => if rule && decide (2 ≤ h.lpCount.toNat) then h.lpstart else seq
    lpCount := if rule then h.lpCount - 1 else h.lpCount
    minstret := if h.mcountinhibit.getLsbD 2 then h.minstret else h.minstret + 1
    insts := h.insts + 1
    wait := .run }

/-- MRET: the privilege and MIE from mstatus, the pc from mepc; MPP becomes U and MPRV clears on a return to U-mode. -/
def Hart.mret (h : Hart) : Hart :=
  let d := h.complete 4 (some h.mepc)
  { d with
    priv := h.mpp
    mie := h.mpie
    mpie := true
    mpp := .user
    mprv := if h.mpp = Priv.user then false else h.mprv }

/-! ## Interrupts (R101, R109) -/

/-- The interrupt a hart takes before its next instruction, by its cause code: external 11 before timer 7. -/
def State.irqOf (s : State) (h : HartId) : Option Nat :=
  let x := s.hart h
  if x.priv = Priv.machine ∧ x.mie = false then none
  else
    let p := s.mip h &&& x.mieReg
    if p.getLsbD 11 then some 11 else if p.getLsbD 7 then some 7 else none

/-! ## Physical memory protection (Table 4-1) -/

/-- The configuration byte and the address register of a PMP entry. -/
def Hart.pcfg (h : Hart) (i : Nat) : Nat := (Sparse.get h.pmpcfg 0 i).toNat
def Hart.paddr (h : Hart) (i : Nat) : Nat := (Sparse.get h.pmpaddr 0 i).toNat

/-- Low address bits that 4 KiB granularity (G = 10) leaves out of a TOR bound. -/
def torBound (a : Nat) : Nat := a / 1024 * 1024 * 4

/-- Trailing ones of a number, over n bits. -/
def ones : Nat → Nat → Nat
  | 0, _ => 0
  | n + 1, a => if a % 2 = 1 then 1 + ones n (a / 2) else 0

/-- Entry i matches an address. -/
def Hart.pmpHits (h : Hart) (a i : Nat) : Bool :=
  match bits (h.pcfg i) 3 2 with
  | 1 => decide ((if i = 0 then 0 else torBound (h.paddr (i - 1))) ≤ a) && decide (a < torBound (h.paddr i))
  | 3 =>
    let p := h.paddr i / 512 * 512 + 511
    let k := 2 ^ (ones 54 p + 3)
    a / k == p * 4 / k
  | _ => false

/-- The permission an access needs. -/
inductive Perm where
  | r
  | w
  | x
deriving DecidableEq, Repr

/-- The bit of a permission in a configuration byte. -/
def Perm.bit : Perm → Nat
  | .r => 0
  | .w => 1
  | .x => 2

/-- The PMP allows an access by a privilege mode. -/
def Hart.pmpOk (h : Hart) (m : Priv) (p : Perm) (a : Nat) : Bool :=
  match (List.range 16).find? (h.pmpHits a) with
  | none => m == .machine
  | some i => (m == .machine && bits (h.pcfg i) 7 1 == 0) || bits (h.pcfg i) p.bit 1 == 1

/-- The privilege of loads and stores: MPP where MPRV is set in M-mode. -/
def Hart.dataPriv (h : Hart) : Priv := if h.priv = Priv.machine ∧ h.mprv then h.mpp else h.priv

/-- A configuration byte as stored: bits 6 and 5 read 0, NA4 stores OFF, W without R stores neither. [PRESUMED, unsafe: notes/assumptions/13.md] -/
def pmpLegal (v : Nat) : Nat :=
  let v := v % 32 + v / 128 % 2 * 128
  let v := if bits v 3 2 = 2 then setBits v 3 2 0 else v
  if bits v 0 2 = 2 then setBits v 0 2 0 else v

/-- Writes eight configuration bytes from entry i; locked entries keep theirs. -/
def Hart.setPcfg (h : Hart) (i : Nat) (v : Nat) : Nat → Hart
  | 0 => h
  | n + 1 =>
    let d := h.setPcfg i v n
    if bits (h.pcfg (i + n)) 7 1 = 1 then d
    else { d with pmpcfg := Sparse.set d.pmpcfg 0 (i + n) (BitVec.ofNat 8 (pmpLegal (bits v (8 * n) 8))) }

/-- Eight configuration bytes from entry i. -/
def Hart.getPcfg (h : Hart) (i : Nat) : Nat := leNat ((List.range 8).map (fun n => BitVec.ofNat 8 (h.pcfg (i + n))))

/-- Writes an address register unless its entry, or a TOR entry above it, is locked. -/
def Hart.setPaddr (h : Hart) (i : Nat) (v : Nat) : Hart :=
  if bits (h.pcfg i) 7 1 = 1 ∨ (i < 15 ∧ bits (h.pcfg (i + 1)) 7 1 = 1 ∧ bits (h.pcfg (i + 1)) 3 2 = 1) then h
  else { h with pmpaddr := Sparse.set h.pmpaddr 0 i (BitVec.ofNat 64 (v % 2 ^ 54)) }

/-- An address register as read: low bits ones under NAPOT, zeros under OFF and TOR (G = 10). -/
def Hart.getPaddr (h : Hart) (i : Nat) : Nat :=
  if bits (h.pcfg i) 3 2 = 3 then h.paddr i / 512 * 512 + 511 else h.paddr i / 1024 * 1024

/-! ## CSRs (R94, R123) -/

/-- mstatus as read: TW reads 1, SD shows FS = Dirty. [PRESUMED, unsafe: notes/assumptions/12.md] -/
def Hart.mstatus (h : Hart) : Nat :=
  8 * b2n h.mie + 128 * b2n h.mpie + 2048 * privCode h.mpp + 8192 * h.fs.toNat + 131072 * b2n h.mprv + 2 ^ 21 +
    2 ^ 63 * b2n (h.fs == 3)

/-- misa (Table 4-1). -/
def misaValue : Nat := 0x800000000090112D

/-- A read of a CSR that is no access to time or the cycle counter: its value, or none where the hart has no such CSR. [PRESUMED, unsafe: notes/assumptions/12.md] -/
def State.csrPlain (s : State) (h : HartId) (c : Nat) : Option Nat :=
  let x := s.hart h
  if c = 0x001 then (if x.fs = 0 then none else some (x.fcsr.toNat % 32))
  else if c = 0x002 then (if x.fs = 0 then none else some (x.fcsr.toNat / 32))
  else if c = 0x003 then (if x.fs = 0 then none else some x.fcsr.toNat)
  else if c = 0x300 then some x.mstatus
  else if c = 0x301 then some misaValue
  else if c = 0x304 then some x.mieReg.toNat
  else if c = 0x305 then some x.mtvec.toNat
  else if c = 0x306 then some x.mcounteren.toNat
  else if c = 0x30A then some 0
  else if c = 0x320 then some x.mcountinhibit.toNat
  else if 0x323 ≤ c ∧ c ≤ 0x33F then some 0
  else if c = 0x340 then some x.mscratch.toNat
  else if c = 0x341 then some x.mepc.toNat
  else if c = 0x342 then some x.mcause.toNat
  else if c = 0x343 then some x.mtval.toNat
  else if c = 0x344 then some (s.mip h).toNat
  else if c = 0x3A0 then some (x.getPcfg 0)
  else if c = 0x3A2 then some (x.getPcfg 8)
  else if 0x3B0 ≤ c ∧ c ≤ 0x3BF then some (x.getPaddr (c - 0x3B0))
  else if c = 0x7A0 then some 0
  else if c = 0x7C0 then some x.dzpsel.toNat
  else if c = 0x7C2 then some x.dztcmp.toNat
  else if c = 0x7C4 then some x.dzpart.toNat
  else if c = 0x7C5 then some (b2n x.ucord)
  else if c = 0x800 then some x.lpstart.toNat
  else if c = 0x801 then some x.lpend.toNat
  else if c = 0x802 then some (x.lpCount.toNat + 2 ^ 32 * privCode x.lpMode)
  else if c = 0xB02 ∨ c = 0xC02 then some x.minstret.toNat
  else if (0xB03 ≤ c ∧ c ≤ 0xB1F) ∨ (0xC03 ≤ c ∧ c ≤ 0xC1F) then some 0
  else if c = 0xF11 then some 0
  else if c = 0xF12 then some 0x8000000000006400
  else if c = 0xF13 then some (s.rd F.SYS_STEP_SOC_STEP)
  else if c = 0xF14 then some h.val
  else if c = 0xF15 then some 0
  else none

/-- time, cycle and mcycle, whose reads are logged (R102). -/
def csrTimed (c : Nat) : Bool := c == 0xB00 || c == 0xC00 || c == 0xC01

/-- The hart's mode may access a CSR: the privilege in bits [9:8] of its number, and mcounteren for the user counters. -/
def Hart.csrAllowed (h : Hart) (c : Nat) : Bool :=
  (h.priv == .machine || bits c 8 2 == 0) &&
    (h.priv == .machine || !(decide (0xC00 ≤ c) && decide (c ≤ 0xC1F)) ||
      (decide (c ≤ 0xC02) && h.mcounteren.getLsbD (c - 0xC00)))

/-- A write to a CSR; a write to one that ignores it changes nothing. [PRESUMED, unsafe: notes/assumptions/96.md] -/
def State.csrPut (s : State) (h : HartId) (c v : Nat) : State :=
  let x := s.hart h
  let v64 : DWord := BitVec.ofNat 64 v
  if c = 0x001 then s.setHart h { x with fcsr := BitVec.ofNat 8 (x.fcsr.toNat / 32 * 32 + v % 32), fs := 3 }
  else if c = 0x002 then s.setHart h { x with fcsr := BitVec.ofNat 8 (x.fcsr.toNat % 32 + v % 8 * 32), fs := 3 }
  else if c = 0x003 then s.setHart h { x with fcsr := BitVec.ofNat 8 v, fs := 3 }
  else if c = 0x300 then
    s.setHart h { x with
      mie := v64.getLsbD 3
      mpie := v64.getLsbD 7
      mpp := if bits v 11 2 = 3 then .machine else .user
      fs := BitVec.ofNat 2 (v / 8192)
      mprv := v64.getLsbD 17 }
  else if c = 0x304 then s.setHart h { x with mieReg := v64 &&& 0x888#64 }
  else if c = 0x305 then s.setHart h { x with mtvec := v64 &&& ~~~ 2#64 }
  else if c = 0x306 then s.setHart h { x with mcounteren := BitVec.ofNat 3 v }
  else if c = 0x320 then
    let y := { x with mcountinhibit := BitVec.ofNat 3 v &&& 0b101#3 }
    if v % 2 = 1 ∧ x.mcountinhibit.getLsbD 0 = false then
      let d := s.draw
      d.2.setHart h { y with mcycle := d.1 }
    else s.setHart h y
  else if c = 0x340 then s.setHart h { x with mscratch := v64 }
  else if c = 0x341 then s.setHart h { x with mepc := v64 &&& ~~~ 1#64 }
  else if c = 0x342 then s.setHart h { x with mcause := v64 }
  else if c = 0x343 then s.setHart h { x with mtval := v64 }
  else if c = 0x3A0 then s.setHart h (x.setPcfg 0 v 8)
  else if c = 0x3A2 then s.setHart h (x.setPcfg 8 v 8)
  else if 0x3B0 ≤ c ∧ c ≤ 0x3BF then s.setHart h (x.setPaddr (c - 0x3B0) v)
  else if c = 0x7C0 then s.setHart h { x with dzpsel := BitVec.ofNat 26 v }
  else if c = 0x7C1 then { s with plic := s.plic.write x.dzpsel.toNat (v % 2 ^ 32) }
  else if c = 0x7C2 then s.setHart h { x with dztcmp := v64 }
  else if c = 0x7C4 then s.setHart h { x with dzpart := BitVec.ofNat 8 v }
  else if c = 0x7C5 then s.setHart h { x with ucord := v64.getLsbD 0 }
  else if c = 0x800 then s.setHart h { x with lpstart := v64 &&& ~~~ 1#64 }
  else if c = 0x801 then s.setHart h { x with lpend := v64 &&& ~~~ 1#64 }
  else if c = 0x802 then
    s.setHart h { x with
      lpCount := BitVec.ofNat 32 v
      lpMode := if x.priv = Priv.machine ∧ bits v 32 2 = 3 then .machine else .user }
  else if c = 0xB00 then s.setHart h { x with mcycle := v64 }
  else if c = 0xB02 then s.setHart h { x with minstret := v64 }
  else s

end Machine
end Sys2Proof
end

