-- ==== Sys2Proof/Machine/Isa.lean ====
section
/-!
DEFINITION. The instructions of the lane profile (R94, Table 4-1): RV64IMAFDC with Zicsr and Zifencei under the
Unprivileged specification 20191213, and the Xdzl and Xdzc instructions (R111, R118). Decoding, arithmetic and floating
point; memory access and what waits are in Machine/Harts.lean.
-/

namespace Sys2Proof
namespace Machine

/-! ## Decoded instructions -/

/-- The operation of a register or immediate arithmetic instruction. -/
inductive Alu where
  | add
  | sub
  | sll
  | slt
  | sltu
  | xor
  | srl
  | sra
  | or
  | and
  | mul
  | mulh
  | mulhsu
  | mulhu
  | div
  | divu
  | rem
  | remu
deriving DecidableEq, Repr

/-- One instruction. Register numbers are fields of its word. -/
inductive Rv where
  | lui (rd : Nat) (imm : DWord)
  | auipc (rd : Nat) (imm : DWord)
  | jal (rd : Nat) (off : DWord)
  | jalr (rd rs1 : Nat) (off : DWord)
  | branch (f3 rs1 rs2 : Nat) (off : DWord)
  | load (f3 rd rs1 : Nat) (off : DWord)
  | store (f3 rs1 rs2 : Nat) (off : DWord)
  | aluImm (op : Alu) (w : Bool) (rd rs1 : Nat) (imm : DWord)
  | alu (op : Alu) (w : Bool) (rd rs1 rs2 : Nat)
  | fence
  | ecall
  | ebreak
  | mret
  | wfi
  | csr (op : CsrOp) (useImm : Bool) (rd src c : Nat)
  | lr (size rd rs1 : Nat)
  | sc (size rd rs1 rs2 : Nat)
  | amo (op : AmoOp) (size rd rs1 rs2 : Nat)
  | fload (size rd rs1 : Nat) (off : DWord)
  | fstore (size rs1 rs2 : Nat) (off : DWord)
  | fma (dbl : Bool) (k rm rd rs1 rs2 rs3 : Nat)
  | fop (dbl : Bool) (f5 rm rd rs1 rs2 : Nat)
  | dzlSetup (rs1 uimm : Nat)
  | cfence
  | cord (rd : Nat)
  | dzcWfi (ember : Bool)
deriving DecidableEq, Repr

/-! ## Decoding -/

/-- A field of n bits sign-extended to 64 bits. -/
def sx (n v : Nat) : DWord := BitVec.ofInt 64 (BitVec.ofNat n v).toInt

/-- Immediates of the five formats. -/
def immI (w : Nat) : DWord := sx 12 (bits w 20 12)
def immS (w : Nat) : DWord := sx 12 (bits w 25 7 * 32 + bits w 7 5)
def immB (w : Nat) : DWord := sx 13 (bits w 31 1 * 4096 + bits w 7 1 * 2048 + bits w 25 6 * 32 + bits w 8 4 * 2)
def immU (w : Nat) : DWord := sx 32 (bits w 12 20 * 4096)
def immJ (w : Nat) : DWord := sx 21 (bits w 31 1 * 2 ^ 20 + bits w 12 8 * 4096 + bits w 20 1 * 2048 + bits w 21 10 * 2)

/-- Register-register operations by funct7 and funct3. -/
def aluOf (f7 f3 : Nat) (w : Bool) : Option Alu :=
  if f7 = 0 then
    match f3 with
    | 0 => some .add
    | 1 => some .sll
    | 2 => if w then none else some .slt
    | 3 => if w then none else some .sltu
    | 4 => if w then none else some .xor
    | 5 => some .srl
    | 6 => if w then none else some .or
    | _ => if w then none else some .and
  else if f7 = 32 then
    match f3 with
    | 0 => some .sub
    | 5 => some .sra
    | _ => none
  else if f7 = 1 then
    match f3 with
    | 0 => some .mul
    | 1 => if w then none else some .mulh
    | 2 => if w then none else some .mulhsu
    | 3 => if w then none else some .mulhu
    | 4 => some .div
    | 5 => some .divu
    | 6 => some .rem
    | _ => some .remu
  else none

/-- AMO operations by funct5. -/
def amoOf (f5 : Nat) : Option AmoOp :=
  match f5 with
  | 0 => some .add
  | 1 => some .swap
  | 4 => some .xor
  | 8 => some .or
  | 12 => some .and
  | 16 => some .min
  | 20 => some .max
  | 24 => some .minu
  | 28 => some .maxu
  | _ => none

/-- Immediate arithmetic. -/
def decodeImm (w : Nat) (word : Bool) : Option Rv :=
  let f3 := bits w 12 3
  let rd := bits w 7 5
  let rs1 := bits w 15 5
  let sh := if word then 5 else 6
  let shamt : DWord := BitVec.ofNat 64 (bits w 20 sh)
  let hi := bits w (20 + sh) (12 - sh)
  let sraHi := if word then 32 else 16
  if f3 = 1 then (if hi = 0 then some (.aluImm .sll word rd rs1 shamt) else none)
  else if f3 = 5 then
    if hi = 0 then some (.aluImm .srl word rd rs1 shamt)
    else if hi = sraHi then some (.aluImm .sra word rd rs1 shamt) else none
  else if f3 = 0 then some (.aluImm .add word rd rs1 (immI w))
  else if word then none
  else (aluOf 0 f3 false).map (fun op => .aluImm op false rd rs1 (immI w))

/-- The formats' rounding-mode field names a mode: 5 and 6 are reserved. -/
def rmOk (rm : Nat) : Bool := rm < 5 || rm == 7

/-- Floating-point operations: the encodings that exist. -/
def decodeFop (w : Nat) : Option Rv :=
  let f7 := bits w 25 7
  let f5 := f7 / 4
  let fmt := f7 % 4
  let rm := bits w 12 3
  let rd := bits w 7 5
  let rs1 := bits w 15 5
  let rs2 := bits w 20 5
  let dbl := fmt == 1
  let ok := fmt < 2 && (match f5 with
    | 0 => rmOk rm
    | 1 => rmOk rm
    | 2 => rmOk rm
    | 3 => rmOk rm
    | 11 => rmOk rm && rs2 == 0
    | 4 => rm < 3
    | 5 => rm < 2
    | 20 => rm < 3
    | 8 => rmOk rm && rs2 == (if dbl then 0 else 1)
    | 24 => rmOk rm && rs2 < 4
    | 26 => rmOk rm && rs2 < 4
    | 28 => rs2 == 0 && rm < 2
    | 30 => rs2 == 0 && rm == 0
    | _ => false)
  if ok then some (.fop dbl f5 rm rd rs1 rs2) else none

/-- SYSTEM instructions. -/
def decodeSystem (w : Nat) : Option Rv :=
  let f3 := bits w 12 3
  let rd := bits w 7 5
  let rs1 := bits w 15 5
  let c := bits w 20 12
  match f3 with
  | 0 =>
    if w = 0x73 then some .ecall else if w = 0x100073 then some .ebreak else if w = 0x30200073 then some .mret
    else if w = 0x10500073 then some .wfi else none
  | 1 => some (.csr .rw false rd rs1 c)
  | 2 => some (.csr .rs false rd rs1 c)
  | 3 => some (.csr .rc false rd rs1 c)
  | 5 => some (.csr .rw true rd rs1 c)
  | 6 => some (.csr .rs true rd rs1 c)
  | 7 => some (.csr .rc true rd rs1 c)
  | _ => none

/-- A 32-bit instruction; none is illegal. -/
def decode32 (w : Nat) : Option Rv :=
  let f3 := bits w 12 3
  let f7 := bits w 25 7
  let rd := bits w 7 5
  let rs1 := bits w 15 5
  let rs2 := bits w 20 5
  match bits w 0 7 with
  | 0x37 => some (.lui rd (immU w))
  | 0x17 => some (.auipc rd (immU w))
  | 0x6F => some (.jal rd (immJ w))
  | 0x67 => if f3 = 0 then some (.jalr rd rs1 (immI w)) else none
  | 0x63 => if f3 = 2 ∨ f3 = 3 then none else some (.branch f3 rs1 rs2 (immB w))
  | 0x03 => if f3 = 7 then none else some (.load f3 rd rs1 (immI w))
  | 0x23 => if 3 < f3 then none else some (.store f3 rs1 rs2 (immS w))
  | 0x13 => decodeImm w false
  | 0x1B => decodeImm w true
  | 0x33 => (aluOf f7 f3 false).map (fun op => .alu op false rd rs1 rs2)
  | 0x3B => (aluOf f7 f3 true).map (fun op => .alu op true rd rs1 rs2)
  | 0x0F => if f3 < 2 then some .fence else none
  | 0x73 => decodeSystem w
  | 0x2F =>
    if f3 ≠ 2 ∧ f3 ≠ 3 then none
    else
      let size := 2 ^ f3
      if f7 / 4 = 2 then (if rs2 = 0 then some (.lr size rd rs1) else none)
      else if f7 / 4 = 3 then some (.sc size rd rs1 rs2)
      else (amoOf (f7 / 4)).map (fun op => .amo op size rd rs1 rs2)
  | 0x07 => if f3 = 2 ∨ f3 = 3 then some (.fload (2 ^ f3) rd rs1 (immI w)) else none
  | 0x27 => if f3 = 2 ∨ f3 = 3 then some (.fstore (2 ^ f3) rs1 rs2 (immS w)) else none
  | 0x43 => if f7 % 4 < 2 && rmOk f3 then some (.fma (f7 % 4 == 1) 0 f3 rd rs1 rs2 (f7 / 4)) else none
  | 0x47 => if f7 % 4 < 2 && rmOk f3 then some (.fma (f7 % 4 == 1) 1 f3 rd rs1 rs2 (f7 / 4)) else none
  | 0x4B => if f7 % 4 < 2 && rmOk f3 then some (.fma (f7 % 4 == 1) 2 f3 rd rs1 rs2 (f7 / 4)) else none
  | 0x4F => if f7 % 4 < 2 && rmOk f3 then some (.fma (f7 % 4 == 1) 3 f3 rd rs1 rs2 (f7 / 4)) else none
  | 0x53 => decodeFop w
  | 0x0B => if f3 = 0 ∧ rd = 0 then some (.dzlSetup rs1 (bits w 20 12)) else none
  | 0x2B =>
    if w = 0x2B then some .cfence
    else if f3 = 1 ∧ bits w 15 17 = 0 then some (.cord rd)
    else if w = 0x202B then some (.dzcWfi false)
    else if w = 0x10202B then some (.dzcWfi true)
    else none
  | _ => none

/-- x8 to x15 by a three-bit field. -/
def creg (c lo : Nat) : Nat := 8 + bits c lo 3

/-- A 16-bit instruction (C extension, RV64); none is illegal. -/
def decode16 (c : Nat) : Option Rv :=
  let f3 := bits c 13 3
  let rd := bits c 7 5
  let rs2 := bits c 2 5
  let imm6 := sx 6 (bits c 12 1 * 32 + bits c 2 5)
  let sh : DWord := BitVec.ofNat 64 (bits c 12 1 * 32 + bits c 2 5)
  let offD : DWord := BitVec.ofNat 64 (bits c 10 3 * 8 + bits c 5 2 * 64)
  let offW : DWord := BitVec.ofNat 64 (bits c 10 3 * 8 + bits c 6 1 * 4 + bits c 5 1 * 64)
  match c % 4, f3 with
  | 0, 0 =>
    let n := bits c 7 4 * 64 + bits c 11 2 * 16 + bits c 5 1 * 8 + bits c 6 1 * 4
    if n = 0 then none else some (.aluImm .add false (creg c 2) 2 (BitVec.ofNat 64 n))
  | 0, 1 => some (.fload 8 (creg c 2) (creg c 7) offD)
  | 0, 2 => some (.load 2 (creg c 2) (creg c 7) offW)
  | 0, 3 => some (.load 3 (creg c 2) (creg c 7) offD)
  | 0, 5 => some (.fstore 8 (creg c 7) (creg c 2) offD)
  | 0, 6 => some (.store 2 (creg c 7) (creg c 2) offW)
  | 0, 7 => some (.store 3 (creg c 7) (creg c 2) offD)
  | 1, 0 => some (.aluImm .add false rd rd imm6)
  | 1, 1 => if rd = 0 then none else some (.aluImm .add true rd rd imm6)
  | 1, 2 => some (.aluImm .add false rd 0 imm6)
  | 1, 3 =>
    if rd = 2 then
      let n := bits c 12 1 * 512 + bits c 3 2 * 128 + bits c 5 1 * 64 + bits c 2 1 * 32 + bits c 6 1 * 16
      if n = 0 then none else some (.aluImm .add false 2 2 (sx 10 n))
    else
      let n := bits c 12 1 * 2 ^ 17 + bits c 2 5 * 4096
      if n = 0 then none else some (.lui rd (sx 18 n))
  | 1, 4 =>
    let d := creg c 7
    let r := creg c 2
    match bits c 10 2 with
    | 0 => some (.aluImm .srl false d d sh)
    | 1 => some (.aluImm .sra false d d sh)
    | 2 => some (.aluImm .and false d d imm6)
    | _ =>
      match bits c 12 1, bits c 5 2 with
      | 0, 0 => some (.alu .sub false d d r)
      | 0, 1 => some (.alu .xor false d d r)
      | 0, 2 => some (.alu .or false d d r)
      | 0, 3 => some (.alu .and false d d r)
      | 1, 0 => some (.alu .sub true d d r)
      | 1, 1 => some (.alu .add true d d r)
      | _, _ => none
  | 1, 5 =>
    some (.jal 0 (sx 12 (bits c 12 1 * 2048 + bits c 8 1 * 1024 + bits c 9 2 * 256 + bits c 6 1 * 128 + bits c 7 1 * 64 +
      bits c 2 1 * 32 + bits c 11 1 * 16 + bits c 3 3 * 2)))
  | 1, 6 =>
    some (.branch 0 (creg c 7) 0 (sx 9 (bits c 12 1 * 256 + bits c 5 2 * 64 + bits c 2 1 * 32 + bits c 10 2 * 8 + bits c 3 2 * 2)))
  | 1, 7 =>
    some (.branch 1 (creg c 7) 0 (sx 9 (bits c 12 1 * 256 + bits c 5 2 * 64 + bits c 2 1 * 32 + bits c 10 2 * 8 + bits c 3 2 * 2)))
  | 2, 0 => some (.aluImm .sll false rd rd sh)
  | 2, 1 => some (.fload 8 rd 2 (BitVec.ofNat 64 (bits c 12 1 * 32 + bits c 5 2 * 8 + bits c 2 3 * 64)))
  | 2, 2 =>
    if rd = 0 then none
    else some (.load 2 rd 2 (BitVec.ofNat 64 (bits c 12 1 * 32 + bits c 4 3 * 4 + bits c 2 2 * 64)))
  | 2, 3 =>
    if rd = 0 then none
    else some (.load 3 rd 2 (BitVec.ofNat 64 (bits c 12 1 * 32 + bits c 5 2 * 8 + bits c 2 3 * 64)))
  | 2, 4 =>
    if bits c 12 1 = 0 then
      (if rs2 = 0 then (if rd = 0 then none else some (.jalr 0 rd 0)) else some (.alu .add false rd 0 rs2))
    else if rs2 = 0 then (if rd = 0 then some .ebreak else some (.jalr 1 rd 0))
    else some (.alu .add false rd rd rs2)
  | 2, 5 => some (.fstore 8 2 rs2 (BitVec.ofNat 64 (bits c 10 3 * 8 + bits c 7 3 * 64)))
  | 2, 6 => some (.store 2 2 rs2 (BitVec.ofNat 64 (bits c 9 4 * 4 + bits c 7 2 * 64)))
  | 2, 7 => some (.store 3 2 rs2 (BitVec.ofNat 64 (bits c 10 3 * 8 + bits c 7 3 * 64)))
  | _, _ => none

/-! ## Arithmetic -/

/-- The low 32 bits sign-extended. -/
def sxw (v : DWord) : DWord := sx 32 (v.toNat % 2 ^ 32)

/-- Signed division as the M extension gives it: by zero all ones, overflow the dividend. -/
def divS (n : Nat) (a b : Int) : Int := if b = 0 then -1 else if a = -(2 ^ (n - 1) : Int) ∧ b = -1 then a else Int.tdiv a b
def remS (n : Nat) (a b : Int) : Int := if b = 0 then a else if a = -(2 ^ (n - 1) : Int) ∧ b = -1 then 0 else Int.tmod a b

/-- An operation on n-bit operands, n = 64 or 32. -/
def aluRun (op : Alu) (n : Nat) (x y : DWord) : DWord :=
  let a := x.toNat % 2 ^ n
  let b := y.toNat % 2 ^ n
  let sa := (BitVec.ofNat n a).toInt
  let sb := (BitVec.ofNat n b).toInt
  let k := b % n
  let r : Nat := match op with
    | .add => a + b
    | .sub => a + (2 ^ n - b)
    | .sll => a * 2 ^ k
    | .slt => b2n (decide (sa < sb))
    | .sltu => b2n (decide (a < b))
    | .xor => (x ^^^ y).toNat
    | .srl => a / 2 ^ k
    | .sra => (BitVec.ofInt n (sa / 2 ^ k)).toNat
    | .or => (x ||| y).toNat
    | .and => (x &&& y).toNat
    | .mul => a * b
    | .mulh => (BitVec.ofInt n (sa * sb / 2 ^ n)).toNat
    | .mulhsu => (BitVec.ofInt n (sa * b / 2 ^ n)).toNat
    | .mulhu => a * b / 2 ^ n
    | .div => (BitVec.ofInt n (divS n sa sb)).toNat
    | .divu => if b = 0 then 2 ^ n - 1 else a / b
    | .rem => (BitVec.ofInt n (remS n sa sb)).toNat
    | .remu => if b = 0 then a else a % b
  sx n r

/-- An operation on doublewords or on words with a sign-extended result. -/
def aluDo (op : Alu) (w : Bool) (x y : DWord) : DWord := aluRun op (if w then 32 else 64) x y

/-- A branch is taken. -/
def branchTaken (f3 : Nat) (x y : DWord) : Bool :=
  match f3 with
  | 0 => x == y
  | 1 => x != y
  | 4 => decide (x.toInt < y.toInt)
  | 5 => decide (y.toInt ≤ x.toInt)
  | 6 => decide (x.toNat < y.toNat)
  | _ => decide (y.toNat ≤ x.toNat)

/-- The value a CSR instruction writes. -/
def csrValue (op : CsrOp) (old v : DWord) : DWord :=
  match op with
  | .rw => v
  | .rs => old ||| v
  | .rc => old &&& ~~~ v

/-- The value an AMO writes, on operands of `size` bytes. -/
def amoRun (op : AmoOp) (size : Nat) (old v : Nat) : Nat :=
  let n := 8 * size
  let a := old % 2 ^ n
  let b := v % 2 ^ n
  let sa := (BitVec.ofNat n a).toInt
  let sb := (BitVec.ofNat n b).toInt
  match op with
  | .swap => b
  | .add => (a + b) % 2 ^ n
  | .xor => a ^^^ b
  | .and => a &&& b
  | .or => a ||| b
  | .min => if sa < sb then a else b
  | .max => if sa < sb then b else a
  | .minu => if a < b then a else b
  | .maxu => if a < b then b else a

/-- Size in bytes and sign of a load by funct3, and the loaded value extended. -/
def loadSize (f3 : Nat) : Nat := 2 ^ (f3 % 4)
def loadExt (f3 : Nat) (v : DWord) : DWord :=
  let n := 8 * loadSize f3
  if f3 < 4 then sx n (v.toNat % 2 ^ n) else BitVec.ofNat 64 (v.toNat % 2 ^ n)

/-! ## Floating point (F and D) -/

/-- The format of an operation. -/
def fmtOf (dbl : Bool) : FloFmt := if dbl then f64 else f32

/-- A register read at a width: a binary32 that is not NaN-boxed reads as the canonical NaN. -/
def unbox (dbl : Bool) (v : DWord) : Nat :=
  if dbl then v.toNat else if v.toNat / 2 ^ 32 = 0xFFFFFFFF then v.toNat % 2 ^ 32 else f32.nanBits

/-- A result boxed into a register. -/
def box (dbl : Bool) (n : Nat) : DWord := BitVec.ofNat 64 (if dbl then n else n % 2 ^ 32 + 2 ^ 32 * 0xFFFFFFFF)

/-- The rounding mode of an instruction: its field, or frm; none where frm holds a reserved value. -/
def rmOf (rm frm : Nat) : Option Rm :=
  match (if rm = 7 then frm else rm) with
  | 0 => some .rne
  | 1 => some .rtz
  | 2 => some .rdn
  | 3 => some .rup
  | 4 => some .rmm
  | _ => none

/-- The class mask of FCLASS. -/
def fclass (f : FloFmt) (x : Nat) : Nat :=
  match f.decode x with
  | .nan s => if s then 256 else 512
  | .inf n => if n then 1 else 128
  | .fin n m _ =>
    if m = 0 then (if n then 8 else 16)
    else if m < 2 ^ f.mb then (if n then 4 else 32) else (if n then 2 else 64)

/-- FMIN and FMAX: the other operand of a NaN, -0 below +0. -/
def fminmax (f : FloFmt) (mx : Bool) (x y : Nat) : Nat × Nat :=
  let a := f.decode x
  let b := f.decode y
  let nv := if a.snan || b.snan then fNV else 0
  let less := match a.cmp b with
    | some .lt => true
    | some .eq => x / 2 ^ (f.eb + f.mb) == 1
    | _ => false
  if a.isNan && b.isNan then (f.nanBits, nv)
  else if a.isNan then (y, nv)
  else if b.isNan then (x, nv)
  else (if less != mx then x else y, nv)

/-- FLE, FLT and FEQ by rm 0, 1, 2. -/
def fcompare (f : FloFmt) (rm x y : Nat) : Nat × Nat :=
  let a := f.decode x
  let b := f.decode y
  let nan := a.isNan || b.isNan
  let nv := if rm = 2 then a.snan || b.snan else nan
  let r := match a.cmp b with
    | some .lt => decide (rm < 2)
    | some .eq => rm != 1
    | _ => false
  (b2n r, if nv then fNV else 0)

/-- Bounds of the conversion targets: signed and unsigned 32 and 64 bits. -/
def cvtRange (k : Nat) : Int × Int :=
  match k with
  | 0 => (-2 ^ 31, 2 ^ 31 - 1)
  | 1 => (0, 2 ^ 32 - 1)
  | 2 => (-2 ^ 63, 2 ^ 63 - 1)
  | _ => (0, 2 ^ 64 - 1)

/-- The integer source of a conversion. -/
def cvtSource (k : Nat) (v : DWord) : Int :=
  match k with
  | 0 => (v.setWidth 32).toInt
  | 1 => (v.toNat % 2 ^ 32 : Nat)
  | 2 => v.toInt
  | _ => v.toNat

/-- The result of a floating-point operation: to an x register or an f register, with flags. -/
inductive FRes where
  | toX (v : DWord) (flags : Nat)
  | toF (v : DWord) (flags : Nat)
deriving DecidableEq, Repr

/-- Boxes a result pair. -/
def fres (dbl : Bool) (r : Nat × Nat) : FRes := .toF (box dbl r.1) r.2

/-- Floating-point operations by funct5; none where the rounding mode is reserved. -/
def fopRun (dbl : Bool) (f5 rm rs2 frm : Nat) (a b x : DWord) : Option FRes :=
  let f := fmtOf dbl
  let ua := unbox dbl a
  let ub := unbox dbl b
  let da := f.decode ua
  let db := f.decode ub
  let sb := 2 ^ (f.eb + f.mb)
  match f5 with
  | 0 => (rmOf rm frm).map (fun m => fres dbl (f.add m da db))
  | 1 => (rmOf rm frm).map (fun m => fres dbl (f.add m da db.neg))
  | 2 => (rmOf rm frm).map (fun m => fres dbl (f.pack m (da.mul db)))
  | 3 => (rmOf rm frm).map (fun m => fres dbl (f.div m da db))
  | 11 => (rmOf rm frm).map (fun m => fres dbl (f.sqrt m da))
  | 4 =>
    let s := match rm with
      | 0 => ub / sb
      | 1 => 1 - ub / sb
      | _ => (ua / sb + ub / sb) % 2
    some (.toF (box dbl (ua % sb + s * sb)) 0)
  | 5 => some (fres dbl (fminmax f (rm == 1) ua ub))
  | 20 => let r := fcompare f rm ua ub; some (.toX (BitVec.ofNat 64 r.1) r.2)
  | 8 =>
    let src := (fmtOf (!dbl)).decode (unbox (!dbl) a)
    (rmOf rm frm).map (fun m => fres dbl (f.pack m src))
  | 24 =>
    (rmOf rm frm).map (fun m =>
      let r := da.toRange m (cvtRange rs2).1 (cvtRange rs2).2
      .toX (sx (if rs2 < 2 then 32 else 64) (BitVec.ofInt 64 r.1).toNat) r.2)
  | 26 => (rmOf rm frm).map (fun m => fres dbl (f.ofInt m (cvtSource rs2 x) 0 false))
  | 28 =>
    if rm = 0 then some (.toX (if dbl then a else sx 32 (a.toNat % 2 ^ 32)) 0)
    else some (.toX (BitVec.ofNat 64 (fclass f ua)) 0)
  | _ => some (.toF (box dbl x.toNat) 0)

/-- The four fused multiply-adds: 0 a*b+c, 1 a*b-c, 2 -a*b+c, 3 -a*b-c. -/
def fmaRun (dbl : Bool) (k rm frm : Nat) (a b c : DWord) : Option FRes :=
  let f := fmtOf dbl
  let da := f.decode (unbox dbl a)
  let db := f.decode (unbox dbl b)
  let dc := f.decode (unbox dbl c)
  (rmOf rm frm).map (fun m =>
    fres dbl (f.fma m (if k < 2 then da else da.neg) db (if k % 2 = 0 then dc else dc.neg)))

end Machine
end Sys2Proof
end

