-- ==== Sys2Proof/Machine/Cycle.lean ====
section
/-!
DEFINITION. The cycle engine's overruns, commands and registers (R393 to R406).
-/

namespace Sys2Proof
namespace Machine

/-- A task's watchdog has reached WDT. -/
def State.wdtDue (s : State) (t : Nat) : Bool :=
  let w := s.rd (F.TASK_WDT_WDT t)
  (s.task t).wdt && s.taskEn t && w != 0 && decide ((s.task t).ts + w * rawPerUs ≤ s.raw) &&
    (s.taskSt t == tsDeferred || s.taskSt t == tsInput || s.taskSt t == tsRunning)

/-- The error task starts once in Stopped with OVERRUN among its reasons. -/
def State.overrunStart (s : State) (p : Nat) : State :=
  let s := s.setReasons p (s.reasons p ||| (1#5 <<< rsOverrun))
  match s.errTask p with
  | some t =>
    if Sparse.get s.cyc.ovrRun false p then s
    else ({ s with cyc := { s.cyc with ovrRun := Sparse.insert s.cyc.ovrRun p true } }).errStart p t 0
  | none => s

/-- CYC_OVERRUN: a task's watchdog expires; overruns of several tasks are handled in ascending task number (R393). -/
def cycOverrun (t : Fin 64) (s : State) : State :=
  if !(s.running && s.wdtDue t.val) || (List.range t.val).any s.wdtDue then s
  else
    let p := s.taskPart t.val
    let act := s.rd (F.TASK_CTL_WDT_ACTION t.val)
    let s := (s.taskTo t.val tsIdle false).satAdd (F.TASK_STAT_OVERRUNS t.val) 1
    let s := if s.on F.CYC_OVR_VALID then s
      else ((s.wr F.CYC_OVR_TASK t.val).wr F.CYC_OVR_PART p).wr F.CYC_OVR_VALID 1
    let s := s.raise 486 [w32 (t.val + 256 * p + 65536 * act), w32 (s.rd (F.TASK_CYCLE_CYCLE t.val) + 2 ^ 32 - 1)]
    if act = 1 then s.enterSafe 6
    else
      let s := if s.ctl p = ctStopped then s else s.ctlStop p true
      (s.overrunStart p).idleCheck

/-- The ring may command a partition's controller. -/
def State.cycOwner (s : State) (c : Cmd) (p : Nat) : Bool := (s.ctx c.ring).mp || (s.cmdPart c).toNat == p

/-- CYC_RESTART. -/
def runCycRestart (c : Cmd) (s : State) : State × Final :=
  let p := c.fld 8 0 8
  let k := c.fld 8 8 2
  if !(c.headerOk && c.fld 8 10 22 == 0 && c.zeroFrom 0xC) || (k != 1 && k != 2) then (s, finBad)
  else if !s.cycOwner c p then (s, finNotOwner)
  else
    let s := [0, 2].foldl (fun u a => u.ownerReset (BitVec.ofNat 8 p) a) s
    (((s.raise 488 [w32 (p + 256 * k)]).ctlStart p k).cycOpen, finOk [])

/-- CYC_RESTART in the Cycle Engine's hand. -/
def cycRestart (s : State) : State := s.doShort 0x13 0x10 runCycRestart

/-- CYC_STOP. -/
def runCycStop (c : Cmd) (s : State) : State × Final :=
  let p := c.fld 8 0 8
  if !(c.headerOk && c.fld 8 8 24 == 0 && c.zeroFrom 0xC) then (s, finBad)
  else if !s.cycOwner c p then (s, finNotOwner)
  else if s.ctl p = ctRunning then ((s.ctlStop p false).idleCheck, finOk [])
  else (s, finOk [])

/-- CYC_STOP in the Cycle Engine's hand. -/
def cycStop (s : State) : State := s.doShort 0x13 0x11 runCycStop

/-- Length of a task's input image. -/
def State.inLen (s : State) (t : Nat) : Nat :=
  let ni := (s.inIslands t).length
  if s.on (F.TASK_IN_LIST_EN t) then
    let es := s.compiledList (s.rd (F.TASK_LIST_BASE t) * 4096)
    sigOfs ni + (if s.on (F.TASK_IN_FORMAT t) then 8 else 16) * outTop es
  else 32 + 32 * ni

/-- Length of a task's output buffers. -/
def State.outLen (s : State) (t : Nat) : Nat := 32 * (s.outIslands t).length + 8 * ((s.taskSets t).map s.nsig).sum

/-- The force entry with a key. -/
def State.forceFind (s : State) (t dir ofs bit : Nat) : Option Nat :=
  (s.forcesOf t dir).find? (fun f => s.rd (F.CYC_FORCE0_OFS f) == ofs && s.rd (F.CYC_FORCE0_BIT f) == bit)

/-- CYC_FORCE. -/
def runCycForce (c : Cmd) (s : State) : State × Final :=
  let t := c.fld 8 0 6
  let dir := c.fld 8 6 1
  let bit := c.fld 8 8 6
  let width := c.fld 8 14 6
  let ofs := c.fld 0xC 0 17
  let p := s.taskPart t
  if !(c.headerOk && c.fld 8 20 12 == 0 && c.fld 0xC 17 15 == 0 && c.zeroFrom 0x18) || !s.taskEn t then (s, finBad)
  else if !s.cycOwner c p then (s, finNotOwner)
  else if ofs % 8 != 0 || decide ((if dir = 0 then s.inLen t else s.outLen t) < ofs + 8) || decide (64 < bit + width + 1) ||
      (dir == 0 && s.taskErr t) then (s, finBad)
  else match s.forceFind t dir ofs bit, c.fld 8 7 1 with
    | none, 1 => (s, finBad)
    | some f, 1 =>
      let s := (((s.setReg (Reg.CYC_FORCE0 f) 0).setReg (Reg.CYC_FORCE1 f) 0).setReg (Reg.CYC_FORCE2 f) 0).setReg (Reg.CYC_FORCE3 f) 0
      (s.forceCount, finOk [w32 f])
    | some f, _ =>
      let s := (s.wr (F.CYC_FORCE0_WIDTH f) width).setReg (Reg.CYC_FORCE2 f) (w32 (c.word 0x10))
      (s.setReg (Reg.CYC_FORCE3 f) (w32 (c.word 0x14)), finOk [w32 f])
    | none, _ =>
      let mine := ((List.range 1024).filter (fun f => s.on (F.CYC_FORCE0_EN f) && s.rd (F.CYC_FORCE1_PART f) == p)).length
      match (List.range 1024).find? (fun f => !s.on (F.CYC_FORCE0_EN f)) with
      | none => (s, ⟨stBudget, 0, []⟩)
      | some f =>
        if s.rd (F.CYC_PART_FORCE_MAX p) ≤ mine then (s, ⟨stBudget, 0, []⟩)
        else
          let s := s.setReg (Reg.CYC_FORCE0 f) (w32 (ofs + 2 ^ 17 * bit + 2 ^ 23 * width + 2 ^ 29 * dir + 2 ^ 31))
          let s := (s.setReg (Reg.CYC_FORCE1 f) (w32 (t + 256 * p))).setReg (Reg.CYC_FORCE2 f) (w32 (c.word 0x10))
          ((s.setReg (Reg.CYC_FORCE3 f) (w32 (c.word 0x14))).forceCount, finOk [w32 f])

/-- CYC_FORCE in the Cycle Engine's hand. -/
def cycForce (s : State) : State := s.doShort 0x13 0x12 runCycForce

/-- The sixteen bytes of CYC_STATUS for a task. -/
def State.taskStatus (s : State) (p t : Nat) : List Byte :=
  if s.taskPart t = p then
    wordBytes [s.reg (Reg.TASK_CTL t), s.reg (Reg.TASK_STAT t), s.reg (Reg.TASK_CYCLE t), s.reg (Reg.TASK_TIME t)]
  else zeros 16

/-- CYC_STATUS. -/
def runCycStatus (c : Cmd) (s : State) : State × Final :=
  let p := c.fld 8 0 8
  let buf := c.addr 0x10
  if !(c.headerOk && c.fld 8 8 24 == 0 && c.word 0xC == 0 && c.fld 0x14 8 24 == 0 && c.zeroFrom 0x18) || buf % 64 != 0 then (s, finBad)
  else if !s.cycOwner c p then (s, finNotOwner)
  else if !s.engineMayWrite buf 1024 then (s, finBad)
  else (s.outBuf c buf (allTasks.flatMap (s.taskStatus p)), finOk [w32 (s.ctl p)])

/-- CYC_STATUS in the Cycle Engine's hand. -/
def cycStatus (s : State) : State := s.doShort 0x13 0x13 runCycStatus

/-- IDLE_WINDOW_END: the window ends IDLE_GUARD before the next start. -/
def idleWindowEnd (s : State) : State :=
  match s.cyc.idleEnd with
  | some t => if s.on F.CYC_STAT_IDLE ∧ t ≤ s.raw then s.idleClose else s
  | none => s

/-- A write to CYC_CLR (R406). -/
def cycClr (_who : Requester) (w : Word) (s : State) : State :=
  if w.getLsbD 0 then
    allTasks.foldl (fun u t => u.wr (F.TASK_TIME_MAX t) 0) ((s.setReg Reg.CYC_IDLE 0).setReg Reg.CYC_CNT 0)
  else s

/-! ## Meanings -/

/-- The effect of CYC_OVERRUN. -/
def execCycOverrun (t : Fin 64) (s : State) : Host.Outcome State Fault Refusal := .next (cycOverrun t s)
/-- The effect of CYC_RESTART. -/
def execCycRestart (s : State) : Host.Outcome State Fault Refusal := .next (cycRestart s)
/-- The effect of CYC_STOP. -/
def execCycStop (s : State) : Host.Outcome State Fault Refusal := .next (cycStop s)
/-- The effect of CYC_FORCE. -/
def execCycForce (s : State) : Host.Outcome State Fault Refusal := .next (cycForce s)
/-- The effect of CYC_STATUS. -/
def execCycStatus (s : State) : Host.Outcome State Fault Refusal := .next (cycStatus s)
/-- The effect of IDLE_WINDOW_END. -/
def execIdleWindowEnd (s : State) : Host.Outcome State Fault Refusal := .next (idleWindowEnd s)
/-- The effect of CYC_CLR. -/
def execCycClr (who : Requester) (w : Word) (s : State) : Host.Outcome State Fault Refusal :=
  .next (s.arrive who Reg.CYC_CLR w (fun t => cycClr who w t))

end Machine
end Sys2Proof
end

