-- ==== Sys2Proof/Machine/Gateway.lean ====
section
/-!
DEFINITION. The gateway: runs of groups, their control and the setup check (R356 to R364, R381).
-/

namespace Sys2Proof
namespace Machine

/-! ## Runs (R357 to R361) -/

/-- The partition that owns a group's destination. -/
def State.gwPart (s : State) (g : Nat) : Nat := s.dsPart (s.memFld (s.gwGroup g) 0 18)

/-- A field of a group entry's word, written by the gateway. -/
def State.setGw (s : State) (g off lo w v : Nat) : State :=
  let a := s.gwGroup g + off
  s.busWrite a (leBytes 4 (setBits (s.le a 4) lo w v)) 0x11

/-- HOLD of a group, µs. -/
def State.gwHold (s : State) (g : Nat) : Nat := s.memFld (s.gwGroup g + 8) 0 20

/-- A pending group is held: NT has not come to its last publication plus HOLD (R359). [DEDUCED, unsafe: notes/assumptions/48.md] -/
def State.gwHeld (s : State) (g : Nat) : Bool :=
  match Sparse.lookup s.sig.gwLast g with
  | none => false
  | some x => decide (s.ntNs < x.1 + 1000 * s.gwHold g)

/-- TB_RAW at which a group pending since `r` became eligible: that instant, or HOLD after its last publication where that is later
(R360). -/
def State.gwElig (s : State) (g r : Nat) : Nat :=
  match Sparse.lookup s.sig.gwLast g with
  | none => r
  | some x => max r (x.2 + rawPerUs * s.gwHold g)

/-- A route's value as an exact integer: SINT signed, other integers unsigned. -/
def intOf (m : SigMap) (f : Nat) : Int := if m.ty = 1 then (BitVec.ofNat m.width f).toInt else f

/-- A routed value in the destination's field, with whether it saturated (R357). -/
def State.route (s : State) (src dst : SigMap) (f : Nat) : Nat × Bool × State :=
  if dst.ty = 3 ∨ dst.ty = 4 then s.packValue dst (slotValue src f)
  else let r := packInt dst (intOf src f); (r.1, r.2, s)

/-- Packs one route into the destination's bytes. -/
def State.routeStep (x : List Byte × Nat × State) (r : Nat × Nat) : List Byte × Nat × State :=
  let a := x.2.2.sigMap r.1
  let b := x.2.2.sigMap r.2
  let v := x.2.2.route a b (fieldGet (x.2.2.latestBytes a.dset) a)
  (fieldPut x.1 b v.1, x.2.1 + b2n v.2.1, v.2.2)

/-- SRC_STALE, STALE_RUNS and the events of R361. -/
def State.gwStaleNote (s : State) (g : Nat) (stale : Bool) : State :=
  let was := s.memFld (s.gwGroup g + 0x1C) 1 1
  let n := s.memFld (s.gwGroup g + 0x14) 0 16
  let s := if stale then s.setGw g 0x14 0 16 (min (n + 1) 65535) else s
  let s := if stale && was == 0 then s.raise 153 [w32 g] else if !stale && was == 1 then s.raise 154 [w32 g] else s
  s.setGw g 0x1C 1 1 (b2n stale)

/-- A group's publication is made: RUNS and LAST_NT, and its wait since it became eligible is taken into WAIT_MAX (R381). -/
def State.gwPublished (s : State) (g elig : Nat) : State :=
  let s := s.setGw g 0x10 0 32 (s.memFld (s.gwGroup g + 0x10) 0 32 + 1)
  let s := { s with sig := { s.sig with gwLast := Sparse.insert s.sig.gwLast g (s.ntNs, s.raw) } }
  ((s.setGw g 0x18 0 32 s.ntNs).satAdd F.GW_RUNS_RUNS 1).peak F.GW_WAIT_WAIT_MAX ((s.raw - elig) / rawPerUs)

/-- The built bytes go to the destination's publication: at once for a receive dataset, through the Signal Engine for a
publish dataset (R358). -/
def State.gwHand (s : State) (g elig : Nat) (bs : List Byte) : State :=
  let d := s.memFld (s.gwGroup g) 0 18
  if s.dsKind d = 1 then (s.publish 0x11 d bs).gwPublished g elig
  else { s with sig := { s.sig with built := s.sig.built ++ [(g, elig, bs)] } }

/-- Routes of a group. -/
def State.gwCount (s : State) (g : Nat) : Nat := s.memFld (s.gwGroup g + 4) 16 6

/-- What a run reads: its group and routes, their map entries, and the descriptors and latest buffers of its datasets. -/
def State.gwRunAreas (s : State) (g : Nat) : List (Nat × Nat) :=
  let rs := s.gwRoutes g
  let ds := s.memFld (s.gwGroup g) 0 18 :: rs.map (fun r => (s.sigMap r.1).dset)
  [(s.gwGroup g, 32), (s.gwRoute (s.memFld (s.gwGroup g + 4) 0 16), 8 * s.gwCount g)] ++
    rs.flatMap (fun r => [(s.mapAt r.1, 8), (s.mapAt r.2, 8)]) ++
    ds.flatMap (fun d => [(s.dsAddr d, 64), (s.bufAddr d (s.latest d), s.dlen d)])

/-- GW_RUN: a group pending since `r` builds and publishes one generation of its destination; one that meets an uncorrectable error
builds none. [DEDUCED, unsafe: notes/assumptions/48.md] -/
def State.gwRun (s : State) (g r : Nat) : State :=
  let s := ({ s with sig := { s.sig with groups := s.sig.groups.filter (fun x => x.1 != g) } }).gwPend g false
  let chk := s.checkAll 0x11 (s.gwRunAreas g)
  if !chk.1 then chk.2
  else
    let routes := s.gwRoutes g
    let stale := routes.any (fun r => s.dsStale (s.sigMap r.1).dset)
    let x := routes.foldl State.routeStep (s.latestBytes (s.memFld (s.gwGroup g) 0 18), 0, chk.2)
    let n := x.2.2.memFld (s.gwGroup g + 0x14) 16 16
    ((x.2.2.setGw g 0x14 16 16 (min (n + x.2.1) 65535)).gwStaleNote g stale).gwHand g (s.gwElig g r) x.1

/-- Groups of a partition that may run, in the order they became pending. -/
def State.gwReady (s : State) (p : Nat) : List (Nat × Nat) :=
  s.sig.groups.filter (fun x => s.gwPart x.1 == p && !s.gwHeld x.1)

/-- The pending groups of a slot run in order, up to the first that its 48 routes no longer hold (R359, Table 14-3). [DEDUCED, unsafe: notes/assumptions/48.md] -/
def State.gwRuns (s : State) : List (Nat × Nat) → Nat → State
  | [], _ => s
  | x :: t, room => if room < s.gwCount x.1 then s else (s.gwRun x.1 x.2).gwRuns t (room - s.gwCount x.1)

/-- The Signal Engine publishes bytes the gateway built for a group. -/
def State.builtRun (s : State) (x : Nat × Nat × List Byte) : State :=
  let d := s.memFld (s.gwGroup x.1) 0 18
  (({ s with sig := { s.sig with built := s.sig.built.erase x } }).publishBuilt d x.2.2).gwPublished x.1 x.2.1

/-- Built bytes waiting for a partition's Signal Engine slot, in order. -/
def State.builtOf (s : State) (p : Nat) : List (Nat × Nat × List Byte) := s.sig.built.filter (fun x => s.gwPart x.1 == p)

/-! ## Commands (R363) -/

/-- GW_GROUP_CTL. -/
def runGwCtl (c : Cmd) (s : State) : State × Final :=
  let g := c.fld 8 0 14
  if !(c.headerOk && c.fld 8 14 2 == 0 && c.fld 8 18 14 == 0 && c.fld 0xC 20 12 == 0 && c.zeroFrom 0x10) ||
      decide (s.rd F.GW_GROUP_COUNT_COUNT ≤ g) then (s, finBad)
  else if !(s.ctx c.ring).mp && s.gwPart g != (s.cmdPart c).toNat then (s, finNotOwner)
  else
    let en := c.fld 8 16 1
    let s := s.setGw g 0 18 1 en
    let s := if c.fld 8 17 1 = 1 then s.setGw g 8 0 20 (c.fld 0xC 0 20) else s
    let s := if en = 1 then s
      else ({ s with sig := { s.sig with groups := s.sig.groups.filter (fun x => x.1 != g) } }).gwPend g false
    (s, finOk [])

/-- GW_GROUP_CTL in the Gateway's hand. -/
def gwGroupCtl (s : State) : State := s.doShort 0x11 0x10 runGwCtl

/-- A write to GW_CLR. -/
def gwClr (_who : Requester) (w : Word) (s : State) : State :=
  if w.getLsbD 0 then (s.setReg Reg.GW_RUNS 0).setReg Reg.GW_WAIT 0 else s

/-! ## Meanings -/

/-- The effect of GW_GROUP_CTL. -/
def execGwGroupCtl (s : State) : Host.Outcome State Fault Refusal := .next (gwGroupCtl s)
/-- The effect of GW_CLR. -/
def execGwClr (who : Requester) (w : Word) (s : State) : Host.Outcome State Fault Refusal :=
  .next (s.arrive who Reg.GW_CLR w (fun t => gwClr who w t))

end Machine
end Sys2Proof
end

