-- ==== Sys2Proof/Machine/SafOps.lean ====
section
/-!
DEFINITION. The Safety Sequencer: levels, faults, the block state machine and SAF_RESET (chapter 18).
-/

namespace Sys2Proof
namespace Machine

/-! ## Access -/

/-- A block channel at SETUP_LOCK. -/
def safChZero : SafCh := ⟨false, none, 0, 0, 0, 0, 0, none⟩

/-- Block channel x (0 or 1) of block n. -/
def State.safCh (s : State) (n x : Nat) : SafCh := Sparse.get s.saf.chans safChZero (2 * n + x)

/-- Replaces a block channel. -/
def State.setSafCh (s : State) (n x : Nat) (c : SafCh) : State :=
  { s with saf := { s.saf with chans := Sparse.set s.saf.chans safChZero (2 * n + x) c } }

/-- A block's timers at rest. -/
def safBlkZero : SafBlk := ⟨none, 0⟩

/-- Timers of block n. -/
def State.safBlk (s : State) (n : Nat) : SafBlk := Sparse.get s.saf.blks safBlkZero n

/-- Replaces a block's timers. -/
def State.setSafBlk (s : State) (n : Nat) (b : SafBlk) : State :=
  { s with saf := { s.saf with blks := Sparse.set s.saf.blks safBlkZero n b } }

/-- The parts of block channel x, from the block's registers: input, supply and whether it is checked, output and whether it
is enabled, feedback input, whether it is enabled and inverted (Table 18-8). -/
def State.safIn (s : State) (n x : Nat) : Nat := if x = 0 then s.rd (F.SAF_BIN_IN1 n) else s.rd (F.SAF_BIN_IN2 n)
def State.safTps (s : State) (n x : Nat) : Nat := if x = 0 then s.rd (F.SAF_BIN_TPS1 n) else s.rd (F.SAF_BIN_TPS2 n)
def State.safTpEn (s : State) (n x : Nat) : Bool := if x = 0 then s.on (F.SAF_BIN_TP1_EN n) else s.on (F.SAF_BIN_TP2_EN n)
def State.safOut (s : State) (n x : Nat) : Nat := if x = 0 then s.rd (F.SAF_BOUT_OUT1 n) else s.rd (F.SAF_BOUT_OUT2 n)
def State.safOutEn (s : State) (n x : Nat) : Bool := if x = 0 then s.on (F.SAF_BOUT_OUT1_EN n) else s.on (F.SAF_BOUT_OUT2_EN n)
def State.safFb (s : State) (n x : Nat) : Nat := if x = 0 then s.rd (F.SAF_BOUT_FB1 n) else s.rd (F.SAF_BOUT_FB2 n)
def State.safFbEn (s : State) (n x : Nat) : Bool := if x = 0 then s.on (F.SAF_BCTL_FB1_EN n) else s.on (F.SAF_BCTL_FB2_EN n)
def State.safFbInv (s : State) (n x : Nat) : Bool := if x = 0 then s.on (F.SAF_BCTL_FB1_INV n) else s.on (F.SAF_BCTL_FB2_INV n)

/-- Fields of SAF_BSTAT of block channel x. -/
def safFlt (n x : Nat) : Fld := if x = 0 then F.SAF_BSTAT_CH1_FLT n else F.SAF_BSTAT_CH2_FLT n
def safPermit (n x : Nat) : Fld := if x = 0 then F.SAF_BSTAT_PERMIT1 n else F.SAF_BSTAT_PERMIT2 n

/-- States of a block (Table 18-2). -/
def sbStopped : Nat := 1
def sbRun : Nat := 2
def sbDegraded : Nat := 3
def sbTripped : Nat := 4

/-- Causes (SAF_BSTAT.CAUSE). -/
def scTpFail : Nat := 1
def scTps : Nat := 2
def scLink : Nat := 3
def scDisc : Nat := 4
def scFeedback : Nat := 5
def scOutDiag : Nat := 6
def scDegExp : Nat := 7

/-- The state of a block. -/
def State.safState (s : State) (n : Nat) : Nat := s.rd (F.SAF_BSTAT_STATE n)

/-- SAF_STAT.DEGRADED and TRIPPED follow the blocks. -/
def State.safShow (s : State) : State :=
  let any (st : Nat) : Bool := (List.range 32).any (fun n => s.safState n == st)
  (s.wr F.SAF_STAT_DEGRADED (b2n (any sbDegraded))).wr F.SAF_STAT_TRIPPED (b2n (any sbTripped))

/-- A block changes state (source 384). -/
def State.safTo (s : State) (n st : Nat) : State :=
  let old := s.safState n
  if old = st then s
  else ((s.wr (F.SAF_BSTAT_STATE n) st).safShow).raise 384 [w32 (n + 256 * old + 4096 * st)]

/-- Sets the permit of a block channel; a permit is 1 for an enabled output only. -/
def State.safAllow (s : State) (n x : Nat) (on : Bool) : State := s.wr (safPermit n x) (b2n (on && s.safOutEn n x))

/-- Sets both permits. -/
def State.safBoth (s : State) (n : Nat) (on : Bool) : State := (s.safAllow n 0 on).safAllow n 1 on

/-! ## Test pulses (R466, R468) -/

/-- Counts of a pulse slot, and of the start and end of a pulse within it. -/
def slotLen : Nat := 500000
def pulseOn : Nat := 128000
def pulseOff : Nat := 378000

/-- Supply t pulses in slot n. -/
def State.pulses (s : State) (t n : Nat) : Bool := s.on (F.SAF_TPS_EN t) && n % max 1 (s.rd (F.SAF_TPS_PER t)) == s.rd (F.SAF_TPS_PHASE t)

/-- SETTLE of a supply in counts. -/
def State.settle (s : State) (t : Nat) : Nat := s.rd (F.SAF_TPS_SETTLE t) * 5000

/-- An instant lies in a check window of supply t. [DEDUCED, unsafe: notes/assumptions/65.md] -/
def State.inCheck (s : State) (t raw : Nat) : Bool :=
  let o := raw % slotLen
  s.pulses t (raw / slotLen) && decide (pulseOn + s.settle t ≤ o) && decide (o ≤ pulseOff)

/-- An instant lies in a mask of supply t, which may reach into the slot after the pulse. -/
def State.inMask (s : State) (t raw : Nat) : Bool :=
  let o := raw % slotLen
  let n := raw / slotLen
  (s.pulses t n && decide (pulseOn ≤ o) && decide (o < pulseOff + s.settle t)) ||
    (decide (0 < n) && s.pulses t (n - 1) && decide (o + slotLen < pulseOff + s.settle t))

/-! ## Levels (R468, R470) -/

/-- Bit j of the RAW half and of the STATE half of a DI record. -/
def diRaw (rec : List Byte) (j : Nat) : Bool := bits (leNat (rec.take 4)) (16 + j) 1 == 1
def diState (rec : List Byte) (j : Nat) : Bool := bits (leNat (rec.take 4)) j 1 == 1

/-- A RAW sample of block channel x's input taken at TB_RAW t. -/
def State.safSampleCh (s : State) (n x t : Nat) (raw : Bool) : State :=
  let c := s.safCh n x
  let tp := s.safTpEn n x
  let k := t / slotLen
  let c := if tp && s.inCheck (s.safTps n x) t then
      { c with slot := k, samples := (if c.slot = k then c.samples else 0) + 1, ones := (if c.slot = k then c.ones else 0) + b2n raw }
    else c
  if tp && s.inMask (s.safTps n x) t then s.setSafCh n x { c with newFrom := none }
  else if raw = c.level then s.setSafCh n x { c with newFrom := none }
  else if s.rd (F.SAF_BCTL_IN_FILT n) = 0 then s.setSafCh n x { c with level := raw, newFrom := none }
  else s.setSafCh n x { c with newFrom := some (c.newFrom.getD t) }

/-- A DI island's uplink frame gives its samples to the blocks that read it. -/
def State.safSample (s : State) (i : Nat) (rec : List Byte) (t : Nat) : State :=
  if !isDi i then s
  else (List.range 32).foldl (fun u n =>
    if !u.on (F.SAF_BCTL_EN n) then u
    else [0, 1].foldl (fun v x =>
      let d := v.safIn n x
      if d / 16 = i then v.safSampleCh n x t (diRaw rec (d % 16)) else v) u) s

/-! ## Conditions (R469, R471, R473, R474) -/

/-- The held record's words. -/
def State.heldWord (s : State) (i o : Nat) : Nat := leNat (((s.isl i).held.drop o).take 4)

/-- STUCK, OVL or VS_LOW of a supply. -/
def State.tpsFault (s : State) (t : Nat) : Bool :=
  let i := 56 + t / 8
  bits (s.heldWord i 0) (16 + t % 8) 1 == 1 || bits (s.heldWord i 0) (24 + t % 8) 1 == 1 || bits (s.heldWord i 4) 8 1 == 1

/-- LINK_OK = 0 on an island of block channel x. -/
def State.safLinkBad (s : State) (n x : Nat) : Bool :=
  let bad (i : Nat) : Bool := s.link i != lnRunning
  bad (s.safIn n x / 16) || (s.safOutEn n x && bad (16 + s.safOut n x / 16)) || (s.safFbEn n x && bad (s.safFb n x / 16)) ||
    (s.safTpEn n x && bad (56 + s.safTps n x / 8))

/-- SHORT, THERMAL, LATCHED or EXT_FEED of OUTx, or GRP_TRIP of its group. -/
def State.safOutBad (s : State) (n x : Nat) : Bool :=
  let o := s.safOut n x
  let h := (s.isl (16 + o / 16)).held
  s.safOutEn n x && (dioKinds h (o % 16) % 16 != 0 || bits (leNat ((h.drop 0x14).take 4)) 2 1 == 1)

/-- FBx disagrees with the commanded state of OUTx. -/
def State.fbDiffers (s : State) (n x : Nat) : Bool :=
  let f := s.safFb n x
  let o := s.safOut n x
  let v := diState (s.isl (f / 16)).held (f % 16) != s.safFbInv n x
  s.safFbEn n x && v != ((s.dio (o / 16) (o % 16)).set != 0)

/-- An off-pulse runs on OUTx. -/
def State.safPulsed (s : State) (n x : Nat) : Bool :=
  match s.fld.offp with
  | some o => s.safOutEn n x && o.chan == s.safOut n x
  | none => false

/-- Block channel x is faulty. -/
def State.safFaulty (s : State) (n x : Nat) : Bool := s.on (safFlt n x)

/-- The input of block channel x is at its run level (R471). -/
def State.atRunLevel (s : State) (n x : Nat) : Bool :=
  if x = 1 ∧ s.on (F.SAF_BCTL_MODE n) then !(s.safCh n x).level else (s.safCh n x).level

/-- The block's inputs are at run. -/
def State.inputsAtRun (s : State) (n : Nat) : Bool :=
  (s.safFaulty n 0 || s.atRunLevel n 0) && (s.safFaulty n 1 || s.atRunLevel n 1)

/-! ## Faults and trips (R475 to R477) -/

/-- A block enters Tripped with a cause. [DEDUCED, unsafe: notes/assumptions/65.md] -/
def State.safTrip (s : State) (n cause : Nat) (escalate : Bool) : State :=
  let s := (s.safBoth n false).wr (F.SAF_BSTAT_CAUSE n) cause
  let s := (s.wr (F.SAF_BSTAT_DEG_LEFT n) 0).setSafBlk n safBlkZero
  let esc := escalate && s.on (F.SAF_BCTL_ESCALATE n)
  let s := (s.safTo n sbTripped).raise 386 [w32 (n + 4096 * cause + 65536 * b2n (s.on (F.SAF_BCTL_ESCALATE n)))]
  if esc then s.enterSafe 7 else s

/-- A failed check or a supply's fault is counted and raised (source 387); `d` is the DI channel or 0xFF. -/
def State.safTpNote (s : State) (n x d : Nat) : State :=
  (s.satAdd F.SAF_CNT_TP_FAILS 1).raise 387 [w32 (s.safTps n x + 256 * d)]

/-- Notes a fault of block channel x; its count and its event where the cause has one. -/
def State.safMark (s : State) (n x cause : Nat) : State :=
  let s := (s.wr (safFlt n x) 1).setSafCh n x { s.safCh n x with cause := cause, passed := 0 }
  if cause = scTpFail then s.safTpNote n x (s.safIn n x)
  else if cause = scTps then s.safTpNote n x 0xFF
  else if cause = scFeedback then s.satAdd F.SAF_CNT_FB_FAILS 1
  else s

/-- A block enters Degraded on block channel x. -/
def State.safDegrade (s : State) (n x cause : Nat) : State :=
  let lim := s.rd (F.SAF_BIN_DEG_LIMIT n)
  let s := (s.safAllow n x false).wr (F.SAF_BSTAT_CAUSE n) cause
  let s := (s.wr (F.SAF_BSTAT_DEG_LEFT n) (100 * lim)).setSafBlk n ⟨none, s.raw + lim * 500000000⟩
  (s.safTo n sbDegraded).raise 385 [w32 (n + 256 * x + 4096 * cause)]

/-- One block channel becomes faulty; one that is already faulty changes nothing. -/
def State.safFault (s : State) (n x cause : Nat) : State :=
  if s.safFaulty n x || s.safState n == 0 then s
  else
    let s := s.safMark n x cause
    if s.safState n = sbTripped then s
    else if s.safState n = sbDegraded ∨ s.rd (F.SAF_BIN_DEG_LIMIT n) = 0 then s.safTrip n cause true
    else s.safDegrade n x cause

/-- A failed check of block channel x; of a channel that is faulty already it is counted and raised only.
 [DEDUCED, unsafe: notes/assumptions/65.md] -/
def State.safCheckFails (s : State) (n x : Nat) : State :=
  if s.safFaulty n x then s.safTpNote n x (s.safIn n x) else s.safFault n x scTpFail

/-- The fault that an evaluation finds on block channel x, 0 for none. -/
def State.safCause (s : State) (n x : Nat) : Nat :=
  if s.safFaulty n x then 0
  else if s.safTpEn n x && s.tpsFault (s.safTps n x) then scTps
  else if s.safLinkBad n x then scLink
  else if s.safOutBad n x then scOutDiag
  else 0

/-- Faults of an evaluation: on both block channels at once the block trips (Table 18-6). -/
def State.safJudge (s : State) (n : Nat) : State :=
  let a := s.safCause n 0
  let b := s.safCause n 1
  if a ≠ 0 ∧ b ≠ 0 then
    let s := (s.safMark n 0 a).safMark n 1 b
    if s.safState n = sbTripped then s else s.safTrip n a true
  else if a ≠ 0 then s.safFault n 0 a
  else if b ≠ 0 then s.safFault n 1 b
  else s

/-- Permits and transitions by the inputs (Table 18-2). -/
def State.safDemand (s : State) (n : Nat) : State :=
  let run := s.inputsAtRun n
  let auto := s.on (F.SAF_BCTL_RST_MODE n) && !s.on (F.SAF_BSTAT_RESTART n)
  let healthy := if s.safFaulty n 0 then 1 else 0
  if s.safState n = sbRun then (if run then s else (s.safBoth n false).safTo n sbStopped)
  else if s.safState n = sbStopped then (if run && auto then (s.safBoth n true).safTo n sbRun else s)
  else if s.safState n = sbDegraded then
    (if !run then s.safAllow n healthy false else if auto then s.safAllow n healthy true else s)
  else s

/-- Timers of an evaluation: feedback, discrepancy and DEG_LEFT. [DEDUCED, unsafe: notes/assumptions/65.md] -/
def State.safTimers (s : State) (n : Nat) : State :=
  let fb (s : State) (x : Nat) : State :=
    if s.safPulsed n x then s
    else
      let c := s.safCh n x
      s.setSafCh n x { c with fbFrom := if s.fbDiffers n x then some (c.fbFrom.getD s.raw) else none }
  let s := fb (fb s 0) 1
  let b := s.safBlk n
  let apart := !s.safFaulty n 0 && !s.safFaulty n 1 && s.safState n != sbTripped && s.atRunLevel n 0 != s.atRunLevel n 1
  let s := s.setSafBlk n { b with discFrom := if apart then some (b.discFrom.getD s.raw) else none }
  if s.safState n = sbDegraded then s.wr (F.SAF_BSTAT_DEG_LEFT n) ((b.degEnd - s.raw + 4999999) / 5000000) else s

/-- Both sequencer channels evaluate an enabled block: faults first, then demand. -/
def State.safEvalBlock (s : State) (n : Nat) : State :=
  if !s.on (F.SAF_BCTL_EN n) || s.safState n == 0 || s.safe then s else (((s.safJudge n).safTimers n).safDemand n)

/-! ## SAF_RESET (R481, Table 18-2) -/

/-- The cause of block channel x's fault is present. -/
def State.causePresent (s : State) (n x : Nat) : Bool :=
  let c := s.safCh n x
  if c.cause = scTpFail ∨ c.cause = scTps then decide (c.passed < 3)
  else if c.cause = scFeedback then c.fbFrom.isSome
  else if c.cause = scOutDiag then s.safOutBad n x
  else if c.cause = scLink then s.safLinkBad n x
  else false

/-- Faults of a block are cleared. -/
def State.safClearFaults (s : State) (n : Nat) : State :=
  let one (s : State) (x : Nat) : State := (s.wr (safFlt n x) 0).setSafCh n x { s.safCh n x with cause := 0 }
  (((one (one s 0) 1).wr (F.SAF_BSTAT_CAUSE n) 0).wr (F.SAF_BSTAT_DEG_LEFT n) 0).setSafBlk n safBlkZero

/-- A block enters Run by a reset. [DEDUCED, unsafe: notes/assumptions/65.md] -/
def State.safRun (s : State) (n : Nat) : State := ((s.safBoth n true).wr (F.SAF_BSTAT_RESTART n) 0).safTo n sbRun

/-- SAF_RESET acts on a block: the state after it, and DETAIL. -/
def State.safResetBlock (s : State) (n : Nat) : State × Nat :=
  let st := s.safState n
  let run := s.inputsAtRun n
  let present := s.causePresent n 0 || s.causePresent n 1
  if st = sbRun then (s, 4)
  else if st = sbStopped then (if run then (s.safRun n, 0) else (s, 1))
  else if st = sbDegraded then
    if !run then (s, 1)
    else if present then
      ((s.safAllow n (if s.safFaulty n 0 then 1 else 0) true).wr (F.SAF_BSTAT_RESTART n) 0, 2)
    else ((s.safClearFaults n).safRun n, 0)
  else if present then (s, 3)
  else
    let s := s.safClearFaults n
    if s.inputsAtRun n then (s.safRun n, 0) else ((s.wr (F.SAF_BSTAT_RESTART n) 1).safTo n sbStopped, 0)

/-! ## Phase and power -/

/-- Every enabled block enters Stopped at SETUP_LOCK. -/
def State.safLock (s : State) : State :=
  (List.range 32).foldl (fun t n =>
    if t.on (F.SAF_BCTL_EN n) then ((t.safBoth n false).wr (F.SAF_BSTAT_RESTART n) 1).safTo n sbStopped else t) s

/-- Entry to E2 or E3 (Table 18-2). -/
def State.safSleep (s : State) : State :=
  (List.range 32).foldl (fun t n =>
    if t.safState n = sbRun ∨ t.safState n = sbStopped then ((t.safBoth n false).wr (F.SAF_BSTAT_RESTART n) 1).safTo n sbStopped
    else if t.safState n = sbDegraded then t.safTrip n (t.rd (F.SAF_BSTAT_CAUSE n)) false
    else t) s

end Machine
end Sys2Proof
end

