-- ==== Sys2Proof/Machine/Field.lean ====
section
/-!
DEFINITION. Barrier frames, digital inputs, high-side channels and their Field Engine commands (chapter 16). What comes from
the field, such as sampled levels, measured voltages and currents, and whether a frame arrives whole, comes as operands.
-/

namespace Sys2Proof
namespace Machine

/-- Islands sample and time by their own clock while they are powered: not in reset and not in E3. -/
def State.islandsLive (s : State) : Bool := s.phase != .reset && s.pwr.state != .e3

/-! ## Frames -/

/-- FLD_DOWNLINK_FRAME: at TB_RAW mod 4,000 = 0 a downlink frame starts on every link. [DESIGN CHOICE, safe: notes/assumptions/59.md] -/
def fldDownlinkFrame (tests : List IslandId) (s : State) : State :=
  if s.tb.locked && s.raw % 4000 == 0 && s.raw != s.fld.frameRaw && allIslands.any (fun i => s.link i != lnOff) then
    s.framesStart (tests.map Fin.val)
  else s

/-- ISLAND_FRAME_APPLY: a downlink frame has ended valid; `done` says that it completes the island's configuration. [DESIGN CHOICE, safe: notes/assumptions/59.md] -/
def islandFrameApply (i : IslandId) (done : Bool) (s : State) : State :=
  let t := s.fld.frameRaw + frameLen
  match (s.isl i.val).down with
  | some f =>
    if t ≤ s.raw then
      let s := s.frameEnd i.val t f done
      if f.align then s.alignDone else s
    else s
  | none => s

/-- FLD_UPLINK_FRAME: an uplink frame has ended valid; `pass` is the outcome of a TEST frame's step. -/
def fldUplinkFrame (i : IslandId) (pass : Bool) (s : State) : State :=
  match (s.isl i.val).up with
  | some u =>
    if u.raw + frameLen ≤ s.raw then
      let s := s.heldUpdate i.val u
      let s := if u.ty = 3 ∧ !pass then s.testFailed i.val (((s.isl i.val).testStep + 3) % 4) u.data else s
      let s := s.safSample i.val (s.isl i.val).held u.raw
      let s := s.offPulseSee i.val u
      s.linkHeard i.val u.ty u.raw
    else s
  | none => s

/-- CRC_ERR counts what has arrived in a slot with the right SYNC and a CRC that fails (R410). -/
def State.crcCount (s : State) (i sync : Nat) (arrived : Option (List Byte)) : State :=
  if arrived.any (fun f => frameSynced sync f && !frameChecks f) then s.satAdd (F.FLD_LNK_CRC_ERR i) 1 else s

/-- FLD_FRAME_LOST: a slot of the uplink or the downlink ends with no frame in it or with the bytes that have arrived, which are
judged; a valid frame is not lost. -/
def fldFrameLost (i : IslandId) (up : Bool) (arrived : Option (List Byte)) (s : State) : State :=
  let x := s.isl i.val
  if arrived.any (frameValid (if up then syncUp else syncDown)) then s
  else if up then
    match x.up with
    | none => s
    | some u =>
      if s.raw < u.raw + frameLen then s
      else
        let s := (s.setIsl i.val { x with up := none, upOk := 0, upLost := x.upLost + 1 }).crcCount i.val syncUp arrived
        if 3 ≤ x.upLost + 1 ∧ (s.link i.val = lnLoading ∨ s.link i.val = lnRunning) then s.linkFault i.val false else s
  else
    match x.down with
    | none => s
    | some _ =>
      if s.raw < s.fld.frameRaw + frameLen then s
      else (s.setIsl i.val { x with down := none, downOk := 0 }).crcCount i.val syncDown arrived

/-- An island that takes its safe state ends its FSK transmissions, with PORT_NOT_READY while its link still runs (R447, R459). -/
def State.fskSilent (s : State) (i : Nat) : State :=
  let p (d : Cmd) : Bool := d.opcode == opFsk && d.aux.headD 0 == 1
  let go (s : State) (c : Nat) : State := (s.aiAbort c p).aiGoOn c
  if isAi i && s.link i == lnRunning then go (go s (2 * (i - 24))) (2 * (i - 24) + 1) else s

/-- ISLAND_LINK_LOSS: 24 µs have passed at an island since its last valid downlink frame. -/
def islandLinkLoss (i : IslandId) (s : State) : State :=
  let x := s.isl i.val
  if s.islandsLive && !x.safe && decide (x.lastDown + 12000 ≤ s.raw) then
    ((s.setIsl i.val { x with downOk := 0 }).islandSafe i.val).fskSilent i.val
  else s

/-! ## Inputs (R417, R419) -/

/-- DEBOUNCE of an input stage in samples. -/
def State.debounce (s : State) (i j : Nat) : Nat :=
  10 * (if isDi i then s.rd (F.FLD_DI_DEBOUNCE i) else s.rd (F.FLD_DIO1_DEBOUNCE (i - 16) j))

/-- STATE of an input stage follows its last sample. -/
def InCh.follow (x : InCh) : InCh :=
  if x.state = x.sample then x else { x with state := x.sample, rise := if x.sample then x.rise + 1 else x.rise }

/-- STATE of an input stage follows; a rising edge on DI000 to DI015 is a wake source (Table 3-10). -/
def State.inFollow (s : State) (i j : Nat) (x : InCh) : State :=
  let t := s.setIn i j x.follow
  if i = 0 ∧ x.sample = true ∧ x.state = false then t.wakeLatch [(wkDi, j)] else t

/-- The input type of an island's stages: FLD_DI_k.TYPE, and Type 3 on a DIO island (R416, R422). -/
def State.inType (s : State) (i : Nat) : Nat := if isDi i then s.rd (F.FLD_DI_TYPE i) else 3

/-- Falling threshold of an input stage in mV: from the least of its type's up to what the hysteresis leaves below the greatest rising
one (Table 16-7). [DESIGN CHOICE, unsafe: notes/assumptions/91.md] -/
def State.fallAt (s : State) (i j : Nat) : Nat :=
  if s.inType i < 2 then 7000 + Config.diFall (16 * i + j) % 5001 else 6000 + Config.diFall (16 * i + j) % 3501

/-- Rising threshold of an input stage in mV: at least 1.0 V above the falling one, at most the greatest of its type (Table 16-7). [DESIGN CHOICE, unsafe: notes/assumptions/91.md] -/
def State.riseAt (s : State) (i j : Nat) : Nat :=
  let lo := s.fallAt i j + 1000
  lo + Config.diRise (16 * i + j) % ((if s.inType i < 2 then 13000 else 10500) + 1 - lo)

/-- The level an input stage reads at a contact voltage in mV: between its thresholds the one it read before. -/
def State.inLevel (s : State) (i j : Nat) (mV : Int) : Bool :=
  if (s.inCh i j).sample then decide ((s.fallAt i j : Int) < mV) else decide ((s.riseAt i j : Int) ≤ mV)

/-- One sample of an input stage. -/
def State.sampleIn (s : State) (i j : Nat) (v : Bool) : State :=
  let x := s.inCh i j
  let y := { x with
    sample := v, held := if v = x.state then 0 else if x.sample = x.state then 0 else x.held + 1
    since := if v = x.sample then x.since else s.raw }
  if s.debounce i j = 0 then s.inFollow i j y else s.setIn i j y

/-- TB_RAW since which every sample has met a condition. -/
def sinceMet (was : Option Nat) (raw : Nat) (met : Bool) : Option Nat := if met then some (was.getD raw) else none

/-- A condition has been met for n counts. -/
def metFor (since : Option Nat) (raw n : Nat) : Bool :=
  match since with
  | some t => decide (t + n ≤ raw)
  | none => false

/-- What an island notes of its supply and its group current. -/
def Island.measure (x : Island) (v cur : BitVec 16) (temp : Byte) (raw : Nat) : Island :=
  { x with
    sampleAt := some raw, volt := v, cur := cur, temp := temp, lowAt := sinceMet x.lowAt raw (decide (v.toNat < 18000))
    fullAt := sinceMet x.fullAt raw (decide (18500 ≤ v.toNat)), highAt := sinceMet x.highAt raw (decide (31000 < v.toNat))
    tripAt := sinceMet x.tripAt raw (decide (5000 < cur.toNat)) }

/-- DI_SAMPLE: an island samples the voltages of its 16 contacts and its supply in mV, its group current in mA and its
temperature (°C + 64). [DESIGN CHOICE, unsafe: notes/assumptions/62.md] -/
def diSample (i : Fin 24) (mV : List Int) (v cur : BitVec 16) (temp : Byte) (s : State) : State :=
  if s.islandsLive && (!s.tb.locked || (s.raw % 5000 == 0 && (s.isl i.val).sampleAt != some s.raw)) then
    let s := sixteen.foldl (fun t j => t.sampleIn i.val j (t.inLevel i.val j (mV.getD j 0))) s
    s.setIsl i.val ((s.isl i.val).measure v cur temp s.raw)
  else s

/-- DI_DEBOUNCE_EXPIRY: the sampled level has held its new value for DEBOUNCE. -/
def diDebounceExpiry (i : Fin 24) (j : Fin 16) (s : State) : State :=
  let x := s.inCh i.val j.val
  if s.islandsLive && x.sample != x.state && decide (s.debounce i.val j.val ≤ x.held) then s.inFollow i.val j.val x else s

/-- VS_LOW and VS_HIGH of a group by its measured supply: each sets after 1 ms and clears at once (R419). -/
def Island.vsLow (x : Island) (raw : Nat) : Bool := if x.low then decide (x.volt.toNat < 18500) else metFor x.lowAt raw rawPerMs
def Island.vsHigh (x : Island) (raw : Nat) : Bool := if x.high then decide (30500 < x.volt.toNat) else metFor x.highAt raw rawPerMs

/-- DI_VS_CHANGE: VS_LOW and VS_HIGH of a group are judged; FLD_DI_SUPPLY where VS_OK falls. -/
def diVsChange (k : Fin 16) (s : State) : State :=
  let x := s.isl k.val
  if s.islandsLive && s.on (F.FLD_DI_VS_MON k.val) then
    let low := x.vsLow s.raw
    let high := x.vsHigh s.raw
    let t := s.setIsl k.val { x with low := low, high := high }
    if (!x.low && !x.high) && (low || high) then t.raise (322 + k.val) [w32 (t.diSupply k.val)] else t
  else s

/-! ## Protection and diagnostics (R423 to R426) -/

/-- An off-pulse runs on a channel. -/
def State.dioPulsed (s : State) (g j : Nat) : Bool :=
  match s.fld.offp with
  | some o => o.chan == 16 * g + j
  | none => false

/-- TB_RAW at which a channel last turned on. -/
def State.dioOnAt (s : State) (g j : Nat) : Nat := if s.dioFunc g j = 1 then (s.dio g j).perAt else (s.dio g j).onFrom

/-- The readback of a channel has stood at a level for n counts. -/
def State.levelFor (s : State) (g j : Nat) (v : Bool) (n : Nat) : Bool :=
  let x := s.inCh (16 + g) j
  x.sample == v && decide (x.since + n ≤ s.raw)

/-- DIO_SHORT_DETECT: an on channel's current limit (`some true` in it for 50 µs without a break, `some false` not in it for
100 µs) and its readback set SHORT 50 µs after blanking, or clear it after 100 µs with neither. -/
def dioShortDetect (g : Fin 8) (j : Fin 16) (limit : Option Bool) (s : State) : State :=
  let d := s.dio g.val j.val
  let on := s.dioOnAt g.val j.val
  if !s.islandsLive || (s.isl (16 + g.val)).low || !s.dioOn g.val j.val || s.dioPulsed g.val j.val then s
  else if limit = some true ∨ s.levelFor g.val j.val false 25000 then
    if on + 75000 ≤ s.raw then s.setDio g.val j.val { d with short := true } else s
  else if limit = some false ∧ s.levelFor g.val j.val true 50000 ∧ on + 50000 ≤ s.raw then s.setDio g.val j.val { d with short := false }
  else s

/-- DIO_THERMAL_SHUTDOWN: a junction reaches 170 °C. The channel goes off with P = 0; the first shutdown latches it without
RETRY_EN, RETRY_MAX consecutive ones with it. -/
def dioThermalShutdown (g : Fin 8) (j : Fin 16) (s : State) : State :=
  let d := s.dio g.val j.val
  if !s.islandsLive || d.shut then s
  else
    let n := (if 500000000 ≤ s.onTime g.val j.val then 0 else d.shuts) + 1
    let latch := !s.on (F.FLD_DIO_RETRY_EN g.val j.val) || decide (s.rd (F.FLD_DIO_RETRY_MAX g.val j.val) ≤ n)
    s.setDio g.val j.val { d with
      thermal := true, shut := true, duty := 0, perDuty := 0, shuts := n, onSum := 0, latched := d.latched || latch, offFrom := s.dioOffAt g.val j.val
      retryAt := s.raw + s.rd (F.FLD_DIO_RETRY_DLY g.val j.val) * rawPerMs }

/-- A channel that has cooled turns on again where nothing holds it. -/
def State.dioRestart (s : State) (g j : Nat) : State :=
  let d := s.dio g j
  if d.shut && !d.latched && !d.thermal && (decide (d.retryAt ≤ s.raw) || !s.on (F.FLD_DIO_RETRY_EN g j)) then
    s.setDio g j { d with shut := false, onFrom := s.raw }
  else s

/-- DIO_THERMAL_COOL: a shut-down channel cools to 155 °C. -/
def dioThermalCool (g : Fin 8) (j : Fin 16) (s : State) : State :=
  let d := s.dio g.val j.val
  if s.islandsLive && d.thermal then
    (s.setDio g.val j.val { d with thermal := false, shut := d.shut }).dioRestart g.val j.val
  else s

/-- DIO_RETRY_TIMER: RETRY_DLY after a shutdown has passed. [DESIGN CHOICE, unsafe: notes/assumptions/62.md] -/
def dioRetryTimer (g : Fin 8) (j : Fin 16) (s : State) : State := if s.islandsLive then s.dioRestart g.val j.val else s

/-- A channel has been commanded off, and has been off, for n counts. -/
def State.offFor (s : State) (g j n : Nat) : Bool :=
  let d := s.dio g j
  s.dioFunc g j != 2 && d.set == 0 && decide (d.setAt + n ≤ s.raw) && decide (s.dioOffAt g j + n ≤ s.raw)

/-- DIO_EXT_FEED: a channel commanded off has read 1 for 1 ms, or has read 0 for 1 ms. [DEDUCED, unsafe: notes/assumptions/63.md] -/
def dioExtFeed (g : Fin 8) (j : Fin 16) (s : State) : State :=
  let d := s.dio g.val j.val
  if !s.islandsLive then s
  else if s.offFor g.val j.val rawPerMs && s.levelFor g.val j.val true rawPerMs then s.setDio g.val j.val { d with ext := true }
  else if s.levelFor g.val j.val false rawPerMs then s.setDio g.val j.val { d with ext := false }
  else s

/-- DIO_VDO_LOW: VDOg has been below 18.0 V, or at or above 18.5 V, for 1 ms. -/
def dioVdoLow (g : Fin 8) (s : State) : State :=
  let x := s.isl (16 + g.val)
  if !s.islandsLive then s
  else if metFor x.lowAt s.raw rawPerMs then s.setIsl (16 + g.val) { x with low := true }
  else if metFor x.fullAt s.raw rawPerMs then s.setIsl (16 + g.val) { x with low := false }
  else s

/-- DIO_GROUP_OC: the mean of the group current over 100 ms, in mA: GRP_OC sets above 4.0 A and clears at 3.8 A or below. -/
def dioGroupOc (g : Fin 8) (mean : Nat) (s : State) : State :=
  let x := s.isl (16 + g.val)
  if s.islandsLive then
    s.setIsl (16 + g.val) { x with grpOc := if 4000 < mean then true else if mean ≤ 3800 then false else x.grpOc }
  else s

/-- A channel of a tripped group goes off with P = 0; it stays commanded. -/
def State.dioTrip (s : State) (g j : Nat) : State :=
  s.setDio g j { s.dio g j with duty := 0, perDuty := 0, offFrom := s.dioOffAt g j, onSum := s.onTime g j }

/-- DIO_GROUP_TRIP: the group current has exceeded 5.0 A for 10 ms: every channel of the group goes off. -/
def dioGroupTrip (g : Fin 8) (s : State) : State :=
  if s.islandsLive && metFor (s.isl (16 + g.val)).tripAt s.raw (10 * rawPerMs) then
    let s := sixteen.foldl (fun t j => t.dioTrip g.val j) s
    s.setIsl (16 + g.val) { s.isl (16 + g.val) with grpTrip := true }
  else s

/-- DIO_ONDIAG_MEASURE: the load current from 300 µs to 400 µs after turn-on, in µA. -/
def dioOndiagMeasure (g : Fin 8) (j : Fin 16) (uA : Nat) (s : State) : State :=
  let d := s.dio g.val j.val
  if s.islandsLive && s.on (F.FLD_DIO_ONDIAG_EN g.val j.val) && s.dioOn g.val j.val && !s.dioPulsed g.val j.val &&
      !(s.isl (16 + g.val)).low && decide (s.dioOnAt g.val j.val + 200000 ≤ s.raw) then
    let lo := if uA < 8000 then min 3 (d.onLow + 1) else 0
    let hi := if 12000 ≤ uA then min 3 (d.onHigh + 1) else 0
    s.setDio g.val j.val { d with
      onLow := lo, onHigh := hi, coverAt := some s.raw
      open_ := if lo = 3 then true else if hi = 3 then false else d.open_ }
  else s

/-- A channel that does not switch has been off for 300 µs. -/
def State.staticOff (s : State) (g j : Nat) : Bool :=
  (s.dioFunc g j != 1 || (s.dio g j).perDuty == 0) && !s.dioPulsed g j && decide (s.dioOffAt g j + 150000 ≤ s.raw)

/-- DIO_OFFDIAG_CHECK: the contact voltage at the end of an off-period of at least 100 µs, in mV, or of a channel that stays off. [DESIGN CHOICE, unsafe: notes/assumptions/62.md] -/
def dioOffdiagCheck (g : Fin 8) (j : Fin 16) (mV : Int) (s : State) : State :=
  let d := s.dio g.val j.val
  if s.islandsLive && s.on (F.FLD_DIO_OFFDIAG_EN g.val j.val) && s.dioFunc g.val j.val != 2 && !(s.isl (16 + g.val)).low &&
      decide (s.dioOffAt g.val j.val + 50000 ≤ s.raw) then
    let op := decide (2000 ≤ mV) && decide (mV ≤ 6000)
    let a := if op then min 3 (d.offOpen + 1) else 0
    let b := if mV < 2000 then min 3 (d.offShut + 1) else 0
    s.setDio g.val j.val { d with
      offOpen := a, offShut := b
      open_ := if a = 3 || (op && s.staticOff g.val j.val) then true else if b = 3 then false else d.open_ }
  else s

/-! ## PWM (R428, R429) -/

/-- PWM_PERIOD_START: a period of a PWM channel starts with the present duty. -/
def pwmPeriodStart (g : Fin 8) (j : Fin 16) (s : State) : State :=
  let d := s.dio g.val j.val
  if s.islandsLive && (s.isl (16 + g.val)).conf && s.dioFunc g.val j.val == 1 && decide (d.perNext ≤ s.raw) then
    let p := if !s.dioMay g.val j.val then 0 else if s.rd (F.FLD_DIO1_RAMP g.val j.val) = 0 then min d.set 1000 else d.duty
    let off := if p = 0 ∧ 0 < d.perDuty then s.perOff g.val j.val else d.offFrom
    s.setDio g.val j.val { d with
      duty := p, onSum := s.onTime g.val j.val, perAt := d.perNext, perDuty := p, perNext := d.perNext + s.pwmPeriod g.val j.val, offFrom := off }
  else s

/-- The duty after a ramp tick: from p toward s by at most r. -/
def rampStep (p s r : Nat) : Nat := if p < s then min s (p + r) else max s (p - r)

/-- PWM_RAMP_TICK: every PWM channel with a RAMP moves its duty toward its set point. -/
def pwmRampTick (s : State) : State :=
  if s.islandsLive && s.raw % 500000 == frameLen && s.fld.rampAt != some s.raw then
    let s := { s with fld := { s.fld with rampAt := some s.raw } }
    (List.range 8).foldl (fun t g => sixteen.foldl (fun u j =>
      let r := u.rd (F.FLD_DIO1_RAMP g j)
      if u.dioFunc g j = 1 ∧ r ≠ 0 ∧ u.dioMay g j then
        u.setDio g j { u.dio g j with duty := rampStep (u.dio g j).duty (min (u.dio g j).set 1000) r }
      else u) t) s
  else s

/-! ## Commands (R431, R432) -/

/-- The ring of a command has MP = 1. -/
def State.cmdMp (s : State) (c : Cmd) : Bool := (s.ctx c.ring).mp

/-- What the island a command names allows: a disabled one is a BAD_DESCRIPTOR, another partition's NOT_OWNER. -/
def State.fldOwner (s : State) (c : Cmd) (read : Bool) : Option Final :=
  let i := c.island
  if !s.islEn i then some finBad
  else if s.cmdMp c || s.rd (F.FLD_ISL_PART i) == (s.cmdPart c).toNat || (read && s.on (F.FLD_ISL_SHARED_IN i)) then none
  else some finNotOwner

/-- A task's TASK_OUTMASK or TASK_INMASK names an island. -/
def State.inMask2 (s : State) (lo hi i : Nat) : Bool :=
  if i < 32 then (s.reg lo).getLsbD i else (s.reg hi).getLsbD (i - 32)

/-- Some enabled task drives an island. -/
def State.taskDrives (s : State) (i : Nat) : Bool :=
  (List.range 64).any (fun t => s.on (F.TASK_CTL_EN t) && s.inMask2 (Reg.TASK_OUTMASK_LO t) (Reg.TASK_OUTMASK_HI t) i)

/-- The 32 bytes of a FLD_WRITE record. -/
def Cmd.record (c : Cmd) : List Byte := wordBytes ((c.words.drop 4).take 8)

/-- Reserved bits of an output record are 0 (Table 16-10, R446). -/
def recordOk (i : Nat) (r : List Byte) : Bool :=
  if isDio i then sixteen.all (fun j => recWord r j / 2 ^ 11 == 0) else leNat r / 4 == 0

/-- FLD_WRITE. -/
def runFldWrite (c : Cmd) (s : State) : State × Final :=
  let i := c.island
  if !(c.headerOk && c.fld 8 6 26 == 0 && c.word 0xC == 0 && c.zeroFrom 0x30) then (s, finBad)
  else match s.fldOwner c false with
    | some f => (s, f)
    | none =>
      if !(isDio i || isAi i) || !recordOk i c.record then (s, finBad)
      else if s.taskDrives i then (s, ⟨stBadDescriptor, 0x20, []⟩)
      else if s.link i ≠ lnRunning then (s, ⟨stPortNotReady, 0, []⟩)
      else (s.islandOut i c.record, finOk [])

/-- FLD_WRITE in the Field Engine's hand. -/
def fldWrite (s : State) : State := s.doShort 0x14 0x10 runFldWrite

/-- The module is an -F module. [DESIGN CHOICE, unsafe: notes/assumptions/5.md] -/
def State.variantF (s : State) : Bool := s.rd F.SYS_ID_VARIANT == 0x46

/-- The words of a DIO channel that check 0x4 of Table 16-18 refuses: DETAIL of the refusal. -/
def State.dioCfgBad (s : State) (w0 w1 : Nat) : Option Nat :=
  if bits w0 0 2 = 3 then some 0
  else if bits w0 0 2 = 2 ∧ s.variantF then some 0x10
  else if bits w0 16 11 < 20 ∨ 2000 < bits w0 16 11 ∨ 1000 < bits w1 0 10 then some 0
  else if bits w0 2 1 = 1 ∧ (bits w0 3 3 = 0 ∨ bits w0 6 8 = 0) then some 0
  else none

/-- The words of an AI channel that check 0x8 of Table 17-10 refuses. -/
def aiCfgBad (c w0 w1 : Nat) : Bool :=
  let mode := bits w0 0 2
  let fsk := bits w0 9 1 == 1
  mode == 3 || decide (4 < bits w0 2 3) || bits w0 5 2 == 3 || (bits w0 7 1 == 1 && bits w0 5 2 != 0) || (fsk && mode == 0) ||
    (bits w0 10 1 == 1 && !fsk) || (fsk && bits w1 0 4 == 0) || (bits w0 11 2 != 0 && (!aiPrivileged c || mode != 1))

/-- A DIO channel is an enabled output of an enabled safety block. -/
def State.safDrives (s : State) (o : Nat) : Bool :=
  (List.range 32).any (fun n => s.on (F.SAF_BCTL_EN n) &&
    ((s.on (F.SAF_BOUT_OUT1_EN n) && s.rd (F.SAF_BOUT_OUT1 n) == o) || (s.on (F.SAF_BOUT_OUT2_EN n) && s.rd (F.SAF_BOUT_OUT2 n) == o)))

/-- The end of an FLD_SET_FUNC that fails its checks. [DEDUCED, unsafe: notes/assumptions/63.md] -/
def State.setFuncFails (s : State) (c : Cmd) : Option Final :=
  let i := c.island
  let w0 := c.word 0xC
  let w1 := c.word 0x10
  if !(c.headerOk && c.fld 8 6 2 == 0 && c.fld 8 12 20 == 0 && c.zeroFrom 0x14) then some finBad
  else match s.fldOwner c false with
    | some f => some f
    | none =>
      if isDio i then
        if w0 / 2 ^ 27 ≠ 0 ∨ w1 / 2 ^ 18 ≠ 0 then some finBad
        else match s.dioCfgBad w0 w1 with
          | some d => some ⟨stBadDescriptor, d, []⟩
          | none =>
            if s.safDrives (16 * (i - 16) + c.chan) then some ⟨stBadDescriptor, 0x30, []⟩
            else if s.link i ≠ lnRunning then some ⟨stPortNotReady, 0, []⟩ else none
      else if isAi i then
        if 1 < c.chan ∨ w0 / 2 ^ 13 ≠ 0 ∨ w1 / 2 ^ 4 ≠ 0 ∨ aiCfgBad (2 * (i - 24) + c.chan) w0 w1 then some finBad
        else if s.link i ≠ lnRunning then some ⟨stPortNotReady, 0, []⟩ else none
      else some finBad

/-- FLD_SET_FUNC: ACCEPTED; its three frames follow, after those of an earlier change of the island. -/
def fldSetFunc (s : State) : State := s.doLong 0x14 opSetFunc (fun c s => s.setOut { c with aux := [1] })

/-- FLD_REARM. -/
def runFldRearm (c : Cmd) (s : State) : State × Final :=
  let i := c.island
  if !(c.headerOk && c.fld 8 6 10 == 0 && c.fld 8 17 15 == 0 && c.fld 0xC 16 16 == 0 && c.zeroFrom 0x10) then (s, finBad)
  else match s.fldOwner c false with
    | some f => (s, f)
    | none =>
      if !isDio i then (s, finBad)
      else
        let x := s.isl i
        (s.setIsl i { x with
          rearmMask := x.rearmMask ||| c.fld 0xC 0 16, rearmGroup := x.rearmGroup || c.fld 8 16 1 == 1 }, finOk [])

/-- FLD_REARM in the Field Engine's hand. -/
def fldRearm (s : State) : State := s.doShort 0x14 0x12 runFldRearm

/-- FLD_READ. -/
def runFldRead (c : Cmd) (s : State) : State × Final :=
  let buf := c.addr 0x10
  if !(c.headerOk && c.fld 8 6 26 == 0 && c.word 0xC == 0 && c.fld 0x14 8 24 == 0 && c.zeroFrom 0x18) || buf % 32 != 0 then (s, finBad)
  else match s.fldOwner c true with
    | some f => (s, f)
    | none => if s.engineMayWrite buf 32 then (s.outBuf c buf (s.islandIn c.island), finOk []) else (s, finBad)

/-- FLD_READ in the Field Engine's hand. -/
def fldRead (s : State) : State := s.doShort 0x14 0x13 runFldRead

/-- FLD_LINK_RESTART. -/
def runFldLinkRestart (c : Cmd) (s : State) : State × Final :=
  let i := c.island
  if !(c.headerOk && c.fld 8 6 26 == 0 && c.zeroFrom 0xC) then (s, finBad)
  else match s.fldOwner c false with
    | some f => (s, f)
    | none =>
      if s.link i ≠ lnHeld then (s, finBad)
      else if (s.isl i).upOk < 3 then (s, ⟨stPortNotReady, 0, []⟩)
      else (s.linkLoad i, finOk [])

/-- FLD_LINK_RESTART in the Field Engine's hand. -/
def fldLinkRestart (s : State) : State := s.doShort 0x14 0x14 runFldLinkRestart

/-- A write to FLD_CLR (R436). -/
def fldClr (_who : Requester) (w : Word) (s : State) : State :=
  if w.getLsbD 0 then
    allIslands.foldl (fun t i => (t.wr (F.FLD_LNK_FAULTS i) 0).wr (F.FLD_LNK_CRC_ERR i) 0) s
  else s

/-! ## Meanings -/

/-- The effect of FLD_DOWNLINK_FRAME. -/
def execFldDownlinkFrame (tests : List IslandId) (s : State) : Host.Outcome State Fault Refusal :=
  .next (fldDownlinkFrame tests s)
/-- The effect of ISLAND_FRAME_APPLY. -/
def execIslandFrameApply (i : IslandId) (done : Bool) (s : State) : Host.Outcome State Fault Refusal :=
  .next (islandFrameApply i done s)
/-- The effect of FLD_UPLINK_FRAME. -/
def execFldUplinkFrame (i : IslandId) (pass : Bool) (s : State) : Host.Outcome State Fault Refusal :=
  .next (fldUplinkFrame i pass s)
/-- The effect of FLD_FRAME_LOST. -/
def execFldFrameLost (i : IslandId) (up : Bool) (arrived : Option (List Byte)) (s : State) : Host.Outcome State Fault Refusal :=
  .next (fldFrameLost i up arrived s)
/-- The effect of ISLAND_LINK_LOSS. -/
def execIslandLinkLoss (i : IslandId) (s : State) : Host.Outcome State Fault Refusal := .next (islandLinkLoss i s)
/-- The effect of DI_SAMPLE. -/
def execDiSample (i : Fin 24) (mV : List Int) (v : BitVec 16) (cur : BitVec 16) (temp : Byte) (s : State) : Host.Outcome State Fault Refusal :=
  .next (diSample i mV v cur temp s)
/-- The effect of DI_DEBOUNCE_EXPIRY. -/
def execDiDebounceExpiry (i : Fin 24) (j : Fin 16) (s : State) : Host.Outcome State Fault Refusal :=
  .next (diDebounceExpiry i j s)
/-- The effect of DI_VS_CHANGE. -/
def execDiVsChange (k : Fin 16) (s : State) : Host.Outcome State Fault Refusal :=
  .next (diVsChange k s)
/-- The effect of DIO_SHORT_DETECT. -/
def execDioShortDetect (g : Fin 8) (j : Fin 16) (limit : Option Bool) (s : State) : Host.Outcome State Fault Refusal :=
  .next (dioShortDetect g j limit s)
/-- The effect of DIO_THERMAL_SHUTDOWN. -/
def execDioThermalShutdown (g : Fin 8) (j : Fin 16) (s : State) : Host.Outcome State Fault Refusal :=
  .next (dioThermalShutdown g j s)
/-- The effect of DIO_THERMAL_COOL. -/
def execDioThermalCool (g : Fin 8) (j : Fin 16) (s : State) : Host.Outcome State Fault Refusal :=
  .next (dioThermalCool g j s)
/-- The effect of DIO_RETRY_TIMER. -/
def execDioRetryTimer (g : Fin 8) (j : Fin 16) (s : State) : Host.Outcome State Fault Refusal :=
  .next (dioRetryTimer g j s)
/-- The effect of DIO_EXT_FEED. -/
def execDioExtFeed (g : Fin 8) (j : Fin 16) (s : State) : Host.Outcome State Fault Refusal :=
  .next (dioExtFeed g j s)
/-- The effect of DIO_VDO_LOW. -/
def execDioVdoLow (g : Fin 8) (s : State) : Host.Outcome State Fault Refusal :=
  .next (dioVdoLow g s)
/-- The effect of DIO_GROUP_OC. -/
def execDioGroupOc (g : Fin 8) (mean : Nat) (s : State) : Host.Outcome State Fault Refusal :=
  .next (dioGroupOc g mean s)
/-- The effect of DIO_GROUP_TRIP. -/
def execDioGroupTrip (g : Fin 8) (s : State) : Host.Outcome State Fault Refusal := .next (dioGroupTrip g s)
/-- The effect of DIO_ONDIAG_MEASURE. -/
def execDioOndiagMeasure (g : Fin 8) (j : Fin 16) (uA : Nat) (s : State) : Host.Outcome State Fault Refusal :=
  .next (dioOndiagMeasure g j uA s)
/-- The effect of DIO_OFFDIAG_CHECK. -/
def execDioOffdiagCheck (g : Fin 8) (j : Fin 16) (mV : Int) (s : State) : Host.Outcome State Fault Refusal :=
  .next (dioOffdiagCheck g j mV s)
/-- The effect of PWM_PERIOD_START. -/
def execPwmPeriodStart (g : Fin 8) (j : Fin 16) (s : State) : Host.Outcome State Fault Refusal :=
  .next (pwmPeriodStart g j s)
/-- The effect of PWM_RAMP_TICK. -/
def execPwmRampTick (s : State) : Host.Outcome State Fault Refusal := .next (pwmRampTick s)
/-- The effect of FLD_WRITE. -/
def execFldWrite (s : State) : Host.Outcome State Fault Refusal := .next (fldWrite s)
/-- The effect of FLD_SET_FUNC. -/
def execFldSetFunc (s : State) : Host.Outcome State Fault Refusal := .next (fldSetFunc s)
/-- The effect of FLD_REARM. -/
def execFldRearm (s : State) : Host.Outcome State Fault Refusal := .next (fldRearm s)
/-- The effect of FLD_READ. -/
def execFldRead (s : State) : Host.Outcome State Fault Refusal := .next (fldRead s)
/-- The effect of FLD_LINK_RESTART. -/
def execFldLinkRestart (s : State) : Host.Outcome State Fault Refusal := .next (fldLinkRestart s)
/-- The effect of FLD_CLR. -/
def execFldClr (who : Requester) (w : Word) (s : State) : Host.Outcome State Fault Refusal :=
  .next (s.arrive who Reg.FLD_CLR w (fun t => fldClr who w t))

end Machine
end Sys2Proof
end

