-- ==== Sys2Proof/Machine/Loops.lean ====
section
/-!
DEFINITION. Current loops: results, detections, captures, FSK transfers and alignment commands (chapter 17). Measured currents,
voltages and received characters come as operands.
-/

namespace Sys2Proof
namespace Machine

/-- An AI channel measures: its island is powered and configured and its MODE is not Off. -/
def State.aiLive (s : State) (c : Nat) : Bool := s.islandsLive && (s.isl (24 + c / 2)).conf && s.rd (F.FLD_AIL_MODE c) != 0

/-- FLD_AI_FAULT where a STATUS bit of a channel goes from 0 to 1 (R462). -/
def State.aiRise (s old : State) (c bit : Nat) : State :=
  if bits (old.aiStatus c) bit 1 = 0 ∧ bits (s.aiStatus c) bit 1 = 1 ∧ s.link (24 + c / 2) ≠ lnOff then
    s.raise (344 + c / 2) [w32 (c % 2 + 256 * bit), w32 (s.aiStatus c)]
  else s

/-- The result of a channel goes to the capture that runs on it. [DEDUCED, unsafe: notes/assumptions/64.md] -/
def State.aiCaptureTake (s : State) (c : Nat) : State :=
  match s.aiCmd c with
  | none => s
  | some d =>
    if d.opcode ≠ opCapture ∨ d.aux = [] then s
    else
      let n := d.aux.getD 0 0
      let a := s.ai c
      let s := s.outBuf d (d.addr 0x10 + 8 * n)
        (leBytes 4 (a.value.toNat + 2 ^ 24 * (s.aiStatus c % 256)) ++ leBytes 4 a.doneNt.toNat)
      let aged := if s.aiAged c then 1 else d.aux.getD 1 0
      let d := { d with aux := [n + 1, aged] }
      let s := s.setOut d
      if n + 1 = d.fld 0xC 0 17 then s.aiEnd c d ⟨if aged = 1 then stCalAged else stOK, 0, d.loopRes⟩ else s

/-- What the chain of a path (0 burden, 1 supply) gives, corrected by the channel's calibration record (R440). [DESIGN CHOICE, safe: notes/assumptions/99.md] -/
def State.aiCorrect (s : State) (c path : Nat) (raw : Int) : Int := Config.calibrated (s.bytes (calSlot (1 + c) + 0x14) 228) path raw

/-- AI_RESULT: the chain of a channel completes a result; `raw` is what it gives before its correction, in units of 4 nA. -/
def aiResult (c : Fin 64) (raw : Int) (s : State) : State :=
  let t := s.aiNext c.val
  let v := s.aiCorrect c.val 0 raw
  if s.aiLive c.val && decide (t ≤ s.raw) then
    let a := s.ai c.val
    let settled := decide (s.aiSettled c.val ≤ a.count + 1)
    let u := s.setAi c.val { a with
      value := BitVec.ofInt 24 (max (-250000) (min 7500000 v)), ovr := decide (v < -250000) || decide (7500000 < v)
      seq := a.seq + 1, count := a.count + 1, settling := !settled, valid := settled, doneRaw := t
      doneNt := BitVec.ofNat 64 (s.ntFullAt t / 2 ^ 40) }
    (u.aiRise s c.val 2).aiCaptureTake c.val
  else s

/-- AI_READBACK_WINDOW: a 10 ms window ends with the means of both paths before their correction in µA, the headroom in 100 mV
units and the island's temperature. -/
def aiReadbackWindow (c : Fin 64) (burden supply : Int) (head temp : Byte) (s : State) : State :=
  if s.aiLive c.val then
    let a := s.ai c.val
    let supply := s.aiCorrect c.val 1 supply
    let d := (s.aiCorrect c.val 0 burden - supply).natAbs
    let far := if 200 < d then min 3 (a.apart + 1) else 0
    let near := if d ≤ 150 then min 3 (a.near + 1) else 0
    let i := 24 + c.val / 2
    let u := (s.setIsl i { s.isl i with temp := temp }).setAi c.val { a with
      apart := far, near := near, isup := BitVec.ofInt 16 supply, head := head
      mismatch := if far = 3 then true else if near = 3 then false else a.mismatch }
    u.aiRise s c.val 3
  else s

/-- AI_OPEN_LOOP: the supply-path current of a privileged channel, in µA, at which it has stayed for 10 ms: OPEN_LOOP sets below
0.5 mA and clears at 1.0 mA or above. -/
def aiOpenLoop (c : Fin 64) (uA : Nat) (s : State) : State :=
  if s.aiLive c.val && s.aiWatched c.val && s.on (F.FLD_AIL_OPEN_EN c.val) then
    (s.setAi c.val { s.ai c.val with openLoop := belowTo (s.ai c.val).openLoop 500 1000 uA }).aiRise s c.val 4
  else s

/-- AI_COMPLIANCE: the headroom of a privileged channel, in mV, at which it has stayed for 10 ms: COMPLIANCE sets below 2.0 V and
clears at 2.5 V or above. -/
def aiCompliance (c : Fin 64) (mV : Nat) (s : State) : State :=
  if s.aiLive c.val && s.aiWatched c.val && s.on (F.FLD_AIL_COMP_EN c.val) then
    (s.setAi c.val { s.ai c.val with compliance := belowTo (s.ai c.val).compliance 2000 2500 mV }).aiRise s c.val 5
  else s

/-- AI_VLP_LOW: the level in mV at which VLP of an AI island has stayed for 1 ms. -/
def aiVlpLow (i : Fin 32) (mV : Nat) (s : State) : State :=
  if s.islandsLive then
    let u := s.setIsl (24 + i.val) { s.isl (24 + i.val) with low := supplyLow (s.isl (24 + i.val)).low mV }
    (u.aiRise s (2 * i.val) 13).aiRise s (2 * i.val + 1) 13
  else s

/-- AI_SUP_LIMIT: a loop supply enters or leaves current limit. -/
def aiSupLimit (c : Fin 64) (limit : Bool) (s : State) : State :=
  if s.islandsLive && !s.aiSupOff c.val then (s.setAi c.val { s.ai c.val with supLimit := limit }).aiRise s c.val 6 else s

/-- AI_PARK_WINDOW: a 100 ms mean of a multi-drop channel's burden path, in µA. -/
def aiParkWindow (c : Fin 64) (mean : Int) (s : State) : State :=
  if s.aiLive c.val && s.on (F.FLD_AIL_MULTIDROP c.val) then
    (s.setAi c.val { s.ai c.val with park := decide (s.aiCorrect c.val 0 mean < 3500) || decide (4500 < s.aiCorrect c.val 0 mean) }).aiRise s c.val 11
  else s

/-! ## FLD_AI_SYNC (R453, R459) -/

/-- FLD_AI_SYNC: an alignment event at the taking. [DEDUCED, unsafe: notes/assumptions/64.md] -/
def runAiSync (c : Cmd) (s : State) : State × Final :=
  if !(c.headerOk && c.zeroFrom 8) then (s, finBad)
  else if !(s.cmdMp c || (s.on F.FLD_AI_CFG_SYNC_CMD_EN && s.rd F.FLD_AI_CFG_SYNC_PART == (s.cmdPart c).toNat)) then (s, finNotOwner)
  else
    let s := s.alignEvent 3 s.raw
    (s, finOk [w32 (s.ntFullAt (s.alignPending.getD s.raw) / 2 ^ 40)])

/-- FLD_AI_SYNC in the Field Engine's hand. -/
def fldAiSync (s : State) : State := s.doShort 0x14 0x15 runAiSync

/-! ## FLD_AI_CAPTURE and FLD_FSK_XFER (R459) -/

/-- The checks that both long commands share, once their own fields are right. -/
def State.loopFails (s : State) (c : Cmd) (buf n : Nat) : Option Final :=
  match s.fldOwner c false with
  | some f => some f
  | none =>
    if !isAi c.island || decide (1 < c.chan) || s.rd (F.FLD_AIL_MODE (2 * (c.island - 24) + c.chan)) == 0 ||
        !(n == 0 || s.engineMayWrite buf n) then some finBad
    else if s.link c.island ≠ lnRunning then some ⟨stPortNotReady, 0, []⟩
    else none

/-- The end of a capture that fails its checks. -/
def State.captureFails (s : State) (c : Cmd) : Option Final :=
  let n := c.fld 0xC 0 17
  let buf := c.addr 0x10
  if !(c.headerOk && c.fld 8 6 2 == 0 && c.fld 8 12 20 == 0 && c.fld 0xC 17 15 == 0 && c.fld 0x14 8 24 == 0 && c.zeroFrom 0x18) ||
      n == 0 || decide (65536 < n) || buf % 8 != 0 then some finBad
  else s.loopFails c buf (8 * n)

/-- FLD_AI_CAPTURE: ACCEPTED; it begins when no earlier command runs on the channel. -/
def fldAiCapture (s : State) : State := s.doLong 0x14 opCapture (fun c s => s.aiStart (2 * (c.island - 24) + c.chan))

/-- The end of a transfer that fails its checks. -/
def State.fskFails (s : State) (c : Cmd) : Option Final :=
  let tmo := c.fld 0xC 16 16
  let rx := c.addr 0x18
  let tx := c.addr 0x10
  let n := c.fld 8 16 8
  if !(c.headerOk && c.fld 8 6 2 == 0 && c.fld 8 12 4 == 0 && c.fld 8 24 8 == 0 && c.fld 0xC 8 8 == 0 && c.fld 0x14 8 24 == 0 &&
      c.fld 0x1C 8 24 == 0 && c.zeroFrom 0x20) || rx % 2 != 0 || (n == 0 && tmo == 0) ||
      !(n == 0 || State.engineMayRead tx n) then some finBad
  else match s.loopFails c rx (if tmo = 0 then 0 else 2 * c.fld 0xC 0 8) with
    | some f => some f
    | none => if s.on (F.FLD_AIL_FSK_EN (2 * (c.island - 24) + c.chan)) then none else some finBad

/-- FLD_FSK_XFER: ACCEPTED; it begins when no earlier command runs on the channel. [DEDUCED, unsafe: notes/assumptions/64.md] -/
def fldFskXfer (s : State) : State := s.doLong 0x14 opFsk (fun c s => s.aiStart (2 * (c.island - 24) + c.chan))

/-- The transfer that runs on a channel, in a phase. -/
def State.fskIn (s : State) (c phase : Nat) : Option Cmd :=
  match s.aiCmd c with
  | some d => if d.opcode = opFsk ∧ d.aux.headD 0 = phase then some d else none
  | none => none

/-- Bit times of a transmission: LEAD, 11 per character, 1 of mark. -/
def State.fskBits (s : State) (c : Nat) (d : Cmd) : Nat := s.rd (F.FLD_AIL1_LEAD c) + 11 * d.fld 8 16 8 + 1

/-- FSK_TX_END: a transmission has run its bit times; the carrier goes off. -/
def fskTxEnd (c : Fin 64) (s : State) : State :=
  match s.fskIn c.val 1 with
  | some d =>
    if 3 * d.aux.getD 1 0 + 1250000 * s.fskBits c.val d ≤ 3 * s.raw then
      if d.fld 0xC 16 16 = 0 then s.aiEnd c.val d (finOk [0, 0])
      else if (s.ai c.val).cd then s.setOut { d with aux := [3, s.raw, 0, s.ntNs % 2 ^ 32, 0] }
      else s.setOut { d with aux := [2, s.raw, 0, 0, 0] }
    else s
  | none => s

/-- FSK_CARRIER_DETECT: carrier appears on a channel with its modem on. -/
def fskCarrierDetect (c : Fin 64) (s : State) : State :=
  if s.aiLive c.val && s.on (F.FLD_AIL_FSK_EN c.val) && (s.fskIn c.val 1).isNone then
    let s := s.setAi c.val { s.ai c.val with cd := true }
    match s.fskIn c.val 2 with
    | some d => s.setOut { d with aux := [3, s.raw, 0, s.ntNs % 2 ^ 32, 0] }
    | none => s
  else s

/-- FSK_CHAR_RX: a character arrives, with its parity and stop-bit errors. -/
def fskCharRx (c : Fin 64) (b : Byte) (par frm : Bool) (s : State) : State :=
  match s.fskIn c.val 3 with
  | some d =>
    let n := d.aux.getD 2 0
    if n < d.fld 0xC 0 8 then
      let s := s.outBuf d (d.addr 0x18 + 2 * n) (leBytes 2 (b.toNat + 256 * b2n par + 512 * b2n frm))
      s.setOut { d with aux := [3, d.aux.getD 1 0, n + 1, d.aux.getD 3 0, if par || frm then 1 else d.aux.getD 4 0] }
    else s
  | none => s

/-- FSK_RX_END: the carrier has been absent for 4 bit times, or RX_MAX characters have arrived. -/
def fskRxEnd (c : Fin 64) (absent : Bool) (s : State) : State :=
  let s := if absent then s.setAi c.val { s.ai c.val with cd := false } else s
  match s.fskIn c.val 3 with
  | some d =>
    if absent || decide (d.fld 0xC 0 8 ≤ d.aux.getD 2 0) then
      s.aiEnd c.val d ⟨if d.aux.getD 4 0 = 0 then stOK else stFarError, 0, d.loopRes⟩
    else s
  | none => s

/-- FSK_RX_TIMEOUT: no carrier has appeared within RX_TMO. -/
def fskRxTimeout (c : Fin 64) (s : State) : State :=
  match s.fskIn c.val 2 with
  | some d => if d.aux.getD 1 0 + d.fld 0xC 16 16 * rawPerMs ≤ s.raw then s.aiEnd c.val d ⟨stTimeout, 0, [0, 0]⟩ else s
  | none => s

/-- A write to FLD_AI_SYNC_STAT (R463). -/
def fldAiSyncStatClr (_who : Requester) (w : Word) (s : State) : State :=
  if w.getLsbD 31 then (s.wr F.FLD_AI_SYNC_STAT_SYNCS 0).wr F.FLD_AI_SYNC_STAT_MERGED 0 else s

/-! ## Meanings -/

/-- The effect of AI_RESULT. -/
def execAiResult (c : Fin 64) (raw : Int) (s : State) : Host.Outcome State Fault Refusal := .next (aiResult c raw s)
/-- The effect of AI_READBACK_WINDOW. -/
def execAiReadbackWindow (c : Fin 64) (burden : Int) (supply : Int) (head : Byte) (temp : Byte) (s : State) : Host.Outcome State Fault Refusal :=
  .next (aiReadbackWindow c burden supply head temp s)
/-- The effect of AI_OPEN_LOOP. -/
def execAiOpenLoop (c : Fin 64) (uA : Nat) (s : State) : Host.Outcome State Fault Refusal :=
  .next (aiOpenLoop c uA s)
/-- The effect of AI_COMPLIANCE. -/
def execAiCompliance (c : Fin 64) (mV : Nat) (s : State) : Host.Outcome State Fault Refusal :=
  .next (aiCompliance c mV s)
/-- The effect of AI_VLP_LOW. -/
def execAiVlpLow (i : Fin 32) (mV : Nat) (s : State) : Host.Outcome State Fault Refusal := .next (aiVlpLow i mV s)
/-- The effect of AI_SUP_LIMIT. -/
def execAiSupLimit (c : Fin 64) (limit : Bool) (s : State) : Host.Outcome State Fault Refusal :=
  .next (aiSupLimit c limit s)
/-- The effect of AI_PARK_WINDOW. -/
def execAiParkWindow (c : Fin 64) (mean : Int) (s : State) : Host.Outcome State Fault Refusal :=
  .next (aiParkWindow c mean s)
/-- The effect of FLD_AI_SYNC. -/
def execFldAiSync (s : State) : Host.Outcome State Fault Refusal := .next (fldAiSync s)
/-- The effect of FLD_AI_CAPTURE. -/
def execFldAiCapture (s : State) : Host.Outcome State Fault Refusal := .next (fldAiCapture s)
/-- The effect of FLD_FSK_XFER. -/
def execFldFskXfer (s : State) : Host.Outcome State Fault Refusal := .next (fldFskXfer s)
/-- The effect of FSK_TX_END. -/
def execFskTxEnd (c : Fin 64) (s : State) : Host.Outcome State Fault Refusal := .next (fskTxEnd c s)
/-- The effect of FSK_CARRIER_DETECT. -/
def execFskCarrierDetect (c : Fin 64) (s : State) : Host.Outcome State Fault Refusal := .next (fskCarrierDetect c s)
/-- The effect of FSK_CHAR_RX. -/
def execFskCharRx (c : Fin 64) (b : Byte) (par : Bool) (frm : Bool) (s : State) : Host.Outcome State Fault Refusal :=
  .next (fskCharRx c b par frm s)
/-- The effect of FSK_RX_END. -/
def execFskRxEnd (c : Fin 64) (absent : Bool) (s : State) : Host.Outcome State Fault Refusal :=
  .next (fskRxEnd c absent s)
/-- The effect of FSK_RX_TIMEOUT. -/
def execFskRxTimeout (c : Fin 64) (s : State) : Host.Outcome State Fault Refusal := .next (fskRxTimeout c s)
/-- The effect of FLD_AI_SYNC_STAT_CLR. -/
def execFldAiSyncStatClr (who : Requester) (w : Word) (s : State) : Host.Outcome State Fault Refusal :=
  .next (s.arrive who Reg.FLD_AI_SYNC_STAT w (fun t => fldAiSyncStatClr who w t))

end Machine
end Sys2Proof
end

