-- ==== Sys2Proof/Machine/Recorder.lean ====
section
/-!
DEFINITION. The commands and events of the recorder (chapter 20).
-/

namespace Sys2Proof
namespace Machine

/-! ## Periodic samples (R521) -/

/-- The TEMP byte of an island's record, °C + 64. -/
def State.heldTemp (s : State) (i : Nat) : Nat :=
  ((s.isl i).held.getD (if i < 24 then 21 else if i < 56 then 22 else 6) 0).toNat

/-- A byte range of an island's record as a little-endian number. -/
def State.heldNum (s : State) (i o n : Nat) : Nat := leNat (((s.isl i).held.drop o).take n)

/-- What a periodic channel samples now; none where its source gives no sample. [DESIGN CHOICE, safe: notes/assumptions/70.md] -/
def State.recSource (s : State) (kind i : Nat) : Option DWord :=
  let run (k : Nat) : Bool := s.link k == lnRunning
  match kind with
  | 1 => if (s.slot i).valid then some (s.slot i).value else none
  | 3 => some (BitVec.ofInt 64 (Int.ofNat (s.rd F.PWR_STAT_DIE_TEMP) - 64))
  | 4 => if run i then some (BitVec.ofInt 64 (Int.ofNat (s.heldTemp i) - 64)) else none
  | 5 => some (BitVec.ofNat 64 (s.rd F.PWR_STAT_VLOG * 200))
  | 6 => if run (16 + i) then some (BitVec.ofNat 64 (s.heldNum (16 + i) 16 2 * 10)) else none
  | 7 =>
    if s.heldNum (24 + i / 2) (8 + 2 * (i % 2)) 2 % 2 = 1 then
      some (BitVec.ofInt 64 (BitVec.ofNat 24 (s.heldNum (24 + i / 2) (4 * (i % 2)) 3)).toInt)
    else none
  | _ => none

/-- TB_RAW has advanced by PERIOD ms since a periodic channel's previous sample, or its first sample falls at SETUP_LOCK. -/
def recPeriodicSample (c : BitVec 12) (s : State) : State :=
  let n := c.toNat
  let per := s.recPeriod n
  if s.on F.REC_CFG_EN && s.running && s.recEn n && !(s.recKind n == 2 || decide (8 ≤ s.recKind n)) &&
      reached s.raw (Sparse.get s.recd.due 0 n) then
    let s := { s with recd := { s.recd with due := Sparse.insert s.recd.due n (Sparse.get s.recd.due 0 n + per * rawPerMs) } }
    let chk := if s.recKind n = 1 then s.checkAll 0x17 (s.slotAreas (s.recIndex n)) else (true, s)
    if !chk.1 then chk.2
    else match chk.2.recSource (s.recKind n) (s.recIndex n) with
      | none => chk.2
      | some v => chk.2.recSample n v
  else s

/-- The oldest sample of the queue is applied to its channel (R522 to R524). -/
def recSampleApply (s : State) : State :=
  match s.recd.queue with
  | [] => s
  | q :: t => ({ s with recd := { s.recd with queue := t } }).recApply q

/-! ## Flushing (R526) -/

/-- FLUSH × 100 ms have passed since the last flush. -/
def recFlush (s : State) : State :=
  if s.on F.REC_CFG_EN && s.running && reached s.raw (s.recd.lastFlush + s.rd F.REC_CFG_FLUSH * 100 * rawPerMs) then s.recFlush else s

/-! ## Notes (R529) -/

/-- A write to REC_NOTE_CMD by the MP: with its key and LEN 1 to 10 it writes a note. [DEDUCED, unsafe: notes/assumptions/71.md] -/
def recNoteCmd (who : Requester) (w : Word) (s : State) : State :=
  let n := bits w.toNat 8 4
  if byMp who && bits w.toNat 16 16 == 0x4E54 && decide (1 ≤ n) && decide (n ≤ 10) then
    s.recNoteWrite (bits w.toNat 0 8) ((List.range n).map (fun k => s.reg (Reg.REC_NOTE_D k)))
  else s

/-! ## Commands (R530, R531) -/

/-- The channel range of a command is bad. -/
def State.recRangeBad (s : State) (c : Cmd) : Bool :=
  let n := c.fld 0xC 0 13
  !c.headerOk || c.fld 8 12 20 != 0 || c.fld 0xC 13 19 != 0 || n == 0 || decide (4096 < n) || decide (s.recCount < c.fld 8 0 12 + n)

/-- Checks of REC_EXPORT and of REC_CLEAR when they are taken. -/
def State.exportFails (s : State) (c : Cmd) : Option Final :=
  if s.recRangeBad c || c.fld 0x10 0 6 != 0 || c.fld 0x14 8 24 != 0 || !c.zeroFrom 0x18 ||
      !s.engineMayWrite (c.addr 0x10) (256 * c.fld 0xC 0 13) then some finBad else none
def State.clearFails (s : State) (c : Cmd) : Option Final := if s.recRangeBad c || !c.zeroFrom 0x10 then some finBad else none

/-- REC_EXPORT is taken; its records move in the engine's slots. -/
def recExport (s : State) : State := s.doLong 0x17 0x10 (fun _ t => t)

/-- One slot of an export: up to 16 records, a disabled channel's with VALID 0, and the end after the last. -/
def State.exportStep (s : State) (c : Cmd) : State :=
  let first := c.fld 8 0 12
  let n := c.fld 0xC 0 13
  let k := min 16 (n - c.prog)
  let s := (List.range k).foldl (fun t i =>
    let ch := first + c.prog + i
    t.outBuf c (c.addr 0x10 + 256 * (c.prog + i)) (recBytes ch (t.recChan ch) (t.recEn ch))) s
  if n ≤ c.prog + k then s.endLong c (finOk [w32 n]) else s.setOut { c with prog := c.prog + k }

/-- The oldest export of a partition. -/
def State.exportOf (s : State) (p : Nat) : Option Cmd := s.findOut 0x17 0x10 (fun c => (s.cmdPart c).toNat == p)

/-- REC_CLEAR: one clear over its channels, its final record and REC_CLEARED (R531). [DEDUCED, unsafe: notes/assumptions/71.md] -/
def recClear (s : State) : State :=
  s.doLong 0x17 0x11 (fun c t =>
    let n := c.fld 0xC 0 13
    let first := c.fld 8 0 12
    let t := t.recClear ((List.range n).map (· + first))
    let g := w32 (t.rd F.REC_CLEAR_GEN_GEN)
    (t.endLong c (finOk [g])).raise 448 [w32 (first + 65536 * n), g])

/-- A write to REC_CLR: bit 0 clears REC_SAMPLES and REC_DROP. -/
def recClr (_who : Requester) (w : Word) (s : State) : State :=
  if w.getLsbD 0 then (s.wr F.REC_SAMPLES_SAMPLES 0).wr F.REC_DROP_DROPS 0 else s

/-! ## Meanings -/

/-- The effect of REC_PERIODIC_SAMPLE. -/
def execRecPeriodicSample (c : BitVec 12) (s : State) : Host.Outcome State Fault Refusal :=
  .next (recPeriodicSample c s)
/-- The effect of REC_SAMPLE_APPLY. -/
def execRecSampleApply (s : State) : Host.Outcome State Fault Refusal := .next (recSampleApply s)
/-- The effect of REC_FLUSH. -/
def execRecFlush (s : State) : Host.Outcome State Fault Refusal := .next (recFlush s)
/-- The effect of REC_NOTE_CMD. -/
def execRecNoteCmd (who : Requester) (w : Word) (s : State) : Host.Outcome State Fault Refusal :=
  .next (s.arrive who Reg.REC_NOTE_CMD w (fun t => recNoteCmd who w t))
/-- The effect of REC_EXPORT. -/
def execRecExport (s : State) : Host.Outcome State Fault Refusal := .next (recExport s)
/-- The effect of REC_CLEAR. -/
def execRecClear (s : State) : Host.Outcome State Fault Refusal := .next (recClear s)
/-- The effect of REC_CLR. -/
def execRecClr (who : Requester) (w : Word) (s : State) : Host.Outcome State Fault Refusal :=
  .next (s.arrive who Reg.REC_CLR w (fun t => recClr who w t))

end Machine
end Sys2Proof
end

