-- ==== Sys2Proof/Machine/Mp.lean ====
section
/-!
DEFINITION. In-service tests, calibration and the services of the management processor (chapter 21), but for the maintenance
protocol.
-/

namespace Sys2Proof
namespace Machine

/-! ## In-service tests (R536 to R542) -/

/-- The lane after one in the rotation. -/
def nextLane : LaneId → LaneId
  | .a => .b
  | .b => .c
  | .c => .a

/-- The MP selects the next lane for LBIST, one every ROT_PERIOD × 10 s (R537). -/
def istLbistSelect (s : State) : State :=
  if s.on F.IST_CFG_LBIST_EN && s.running && s.mayTest && s.ist.wait.isNone && s.acts &&
      decide (s.rd F.IST_CFG_ROT_PERIOD * 327680 ≤ s.rtcSince s.ist.selRtc) then
    { s with ist := { s.ist with wait := some s.ist.next, next := nextLane s.ist.next, selRtc := s.pwr.rtc.toNat } }
  else s

/-- Address of a DRAM line of the scrub. -/
def scrubAddr (line : Nat) : Nat := 0x1000000000 + 64 * line

/-- The error words of a line. -/
def State.lineErrors (s : State) (a : Nat) : List (Nat × Ecc) := s.ecc.filter (fun x => decide (a / 8 ≤ x.1) && decide (x.1 < a / 8 + 8))

/-- IST_SCRUB_UE holds the first uncorrectable address since VALID was cleared (Table 21-13). -/
def State.scrubUe (s : State) (a : Nat) : State :=
  if s.on F.IST_SCRUB_UE_HI_VALID then s
  else ((s.wr F.IST_SCRUB_UE_LO_ADDR_LO a).wr F.IST_SCRUB_UE_HI_ADDR_HI (a / 2 ^ 32)).wr F.IST_SCRUB_UE_HI_VALID 1

/-- What a scrub read does with one word in error: a single-bit error is written back corrected, an uncorrectable one reported. [DEDUCED, unsafe: notes/assumptions/72.md] -/
def State.scrubWord (s : State) (x : Nat × Ecc) : State :=
  match x.2 with
  | .corrected => { s with ecc := Sparse.erase s.ecc x.1, eccCount := s.eccCount + 1 }
  | .uncorrectable =>
    let a := 8 * x.1
    let s := s.scrubUe a
    (s.raise 458 [w32 a, w32 (a / 2 ^ 32 % 256)]).recNoteWrite 0x09 [s.reg Reg.IST_SCRUB_UE_LO, s.reg Reg.IST_SCRUB_UE_HI]

/-- A scrub read of one line: its words in error, and one count in CORR where it corrected some. -/
def State.scrubLine (s : State) (n : Nat) : State :=
  let es := s.lineErrors (scrubAddr n)
  let s := if es.any (fun x => x.2 == Ecc.corrected) then s.satAdd F.IST_SCRUB_CORR 1 else s
  es.foldl State.scrubWord s

/-- The scrubber runs: from the Setup phase on, in Run and E1, not in the safe state (R538, Table 3-6). -/
def State.scrubs (s : State) : Bool :=
  s.on F.IST_CFG_SCRUB_EN && (s.setupPhase || s.operate) && !s.safe && (s.pwr.state == .run || s.pwr.state == .entering || s.pwr.state == .e1)

/-- One scrub read (R538): the line at the recorded position; after the last line a pass ends. -/
def dramScrubRead (s : State) : State :=
  if !s.scrubs then s
  else
    let n := s.rd F.IST_SCRUB_POS_LINE
    let s := (s.wr F.IST_STAT_SCRUB_RUN 1).scrubLine n
    if n + 1 < 0x10000000 then s.wr F.IST_SCRUB_POS_LINE (n + 1)
    else
      let s := (s.wr F.IST_SCRUB_POS_LINE 0).satAdd F.IST_SCRUB_PASSES 1
      s.raise 459 [s.reg Reg.IST_SCRUB]

/-- An off-pulse has sent its frames and the uplink frame after the last one has ended: its check is judged (R542). -/
def istOffpulseEnd (s : State) : State :=
  match s.fld.offp with
  | some ⟨ch, 0, some t, seen⟩ =>
    if reached s.raw (t + (s.rd F.IST_OFFP_LEN + 1) * 4000) then s.offPulseEnd ⟨ch, 0, some t, seen⟩ else s
  | _ => s

/-- The temperature of a calibration slot's source, °C + 64: the die, or the item's island record. -/
def State.calNow (s : State) (n : Nat) : Nat :=
  if n = 0 then s.rd F.PWR_STAT_DIE_TEMP else s.heldTemp (calIsland n)

/-- The temperature of a slot's source is known: the die's always, an island's while its link is Running. [DEDUCED, unsafe: notes/assumptions/36.md] -/
def State.calSeen (s : State) (n : Nat) : Bool := n == 0 || s.link (calIsland n) == lnRunning

/-- The MP's judgement of every calibration record, once a second (R544). -/
def calAgeCheck (s : State) : State :=
  if s.phase = Phase.reset ∨ s.rtcSince s.mp.lastCal < 32768 then s
  else
    let s := (List.range calSlots).foldl (fun t n => if t.calSeen n then t.calJudge n (t.calNow n) else t) s
    ({ s with mp := { s.mp with lastCal := s.pwr.rtc.toNat } }).calShow

/-- RTC counts that the measurement of an island item takes: 1 s for an AI channel, 100 ms for a DIO group (R545). -/
def calTime (n : Nat) : Nat := if n ≤ 64 then 32768 else 3277

/-- The measurement of an item has run its time, and its link runs. -/
def State.calMeasured (s : State) (n : Nat) : Bool :=
  s.mp.calPending.any (fun p => p.1 == n && (match p.2 with
    | some r => decide (calTime n ≤ s.rtcSince r)
    | none => false)) && s.link (calIsland n) == lnRunning

/-- The measurement of an island item scheduled for recalibration ends: its new record is written (R545). -/
def calIslandDone (n : Fin 73) (s : State) : State :=
  if n.val ≠ 0 ∧ s.calMeasured n.val = true ∧ s.operate then
    let s := { s with mp := { s.mp with calPending := s.mp.calPending.filter (fun p => p.1 != n.val) } }
    s.calDone n.val (s.calNow n.val)
  else s

/-- A write to IST_CLR: bit 0 clears the counters. -/
def istClr (_who : Requester) (w : Word) (s : State) : State :=
  if w.getLsbD 0 then
    ((((s.wr F.IST_LBIST_RUNS 0).wr F.IST_LBIST_FAILS 0).wr F.IST_SCRUB_PASSES 0).wr F.IST_SCRUB_CORR 0).wr F.IST_CAL_RECAL 0
  else s

/-! ## Load, telemetry and watchdog (R547, R548) -/

/-- A change of the shed level: a note and MP_SHED. -/
def State.setShed (s : State) (new : Nat) : State :=
  let old := s.rd F.MPX_STAT_SHED
  if old = new then s
  else
    let load := s.rd F.MPX_STAT_LOAD
    let s := (s.wr F.MPX_STAT_SHED new).recNoteWrite 0x07 [w32 old, w32 new, w32 load]
    s.raise 464 [w32 (old + 4 * new + 256 * load)]

/-- A 10 ms window of the MP's load ends, with its load in per cent. -/
def mpLoadWindow (load : BitVec 7) (s : State) : State :=
  if s.phase = Phase.reset then s
  else
    let n := min load.toNat 100
    let s := s.wr F.MPX_STAT_LOAD n
    let shed := s.rd F.MPX_STAT_SHED
    let run := if n < 70 then s.mp.lowRun + 1 else 0
    let s := { s with mp := { s.mp with lowRun := if run = 10 then 0 else run } }
    if 90 < n then s.setShed (min (shed + 1) 3) else if run = 10 then s.setShed (shed - 1) else s

/-- The registers of an IDENT reply (Table 21-8). -/
def State.identRegs (s : State) : List Word :=
  [Reg.SYS_ID, Reg.SYS_STEP, Reg.SYS_STRAP, Reg.SYS_BOOT, Reg.SYS_FWVER, Reg.SYS_IMG_ID, Reg.MPX_STAT].map s.reg

/-- The manufactured addresses of MA0 and MA1, the part's own. [DESIGN CHOICE, safe: notes/assumptions/7.md] -/
def identMacs : List Byte := beBytes 6 (Config.maMac 0).toNat ++ beBytes 6 (Config.maMac 1).toNat

/-- Words of a message, big-endian (R9). -/
def wireWords (ws : List Word) : List Byte := ws.flatMap (fun w => beBytes 4 w.toNat)

/-- The maintenance ports transmit and receive: not in E2, which leaves energy detection alone, nor in E3 (Table 3-6). [DEDUCED, unsafe: notes/assumptions/78.md] -/
def State.maPorts (s : State) : Bool := s.pwr.state != .e2 && s.pwr.state != .e3

/-- PERIOD × 100 ms have passed since the last telemetry datagram: the IDENT reply and four status words; shed from level 1. -/
def mpTelemetry (s : State) : State :=
  let per := s.rd F.MPX_TELEM_PERIOD
  if s.phase ≠ Phase.reset ∧ s.maPorts = true ∧ per ≠ 0 ∧ s.rd F.MPX_STAT_SHED = 0 ∧ reached s.raw (s.mp.telemFrom + per * 100 * rawPerMs) then
    { s with mp := { s.mp with
      telem := some (wireWords s.identRegs ++ identMacs ++ wireWords ([Reg.LANE_STAT, Reg.CORD_STAT, Reg.PAIR_STAT, Reg.PWR_STAT].map s.reg))
      telemFrom := s.raw } }
  else s

/-- A write to MPX_WDT by the MP: TMO, and the key services the watchdog. -/
def mpxWdt (who : Requester) (w : Word) (s : State) : State :=
  if !byMp who then s
  else
    let s := s.wr F.MPX_WDT_TMO (bits w.toNat 16 8)
    if bits w.toNat 0 16 = 0x5744 then { s with mp := { s.mp with wdtFrom := s.pwr.rtc } } else s

/-- TMO ms have passed without service: the safe state, then a reset with cause MP_WDT. [DEDUCED, unsafe: notes/assumptions/73.md] -/
def mpWdtExpiry (s : State) : State :=
  if s.phase ≠ Phase.reset ∧ s.rd F.MPX_WDT_TMO * 32768 ≤ s.rtcSince s.mp.wdtFrom.toNat * 1000 then
    (s.enterSafe 0xFF).resetModule .mpWdt 0
  else s

/-! ## The mailbox (R549) -/

/-- The MP sends a mailbox message with one word, when the lanes have read the last one; otherwise it waits. -/
def State.mailSend (s : State) (code : Nat) (w : Word) : State :=
  if s.rd F.MPX_M2L_CMD_SEQ ≠ s.rd F.MPX_M2L_ACK_SEQ then { s with mp := { s.mp with mailWait := s.mp.mailWait ++ [(code, w)] } }
  else
    let q := (s.rd F.MPX_M2L_CMD_SEQ + 1) % 65536
    let s := ((s.setReg (Reg.MPX_M2L_D 0) w).wr F.MPX_M2L_CMD_SEQ q).wr F.MPX_M2L_CMD_CODE code
    s.raise 466 [w32 (q + 65536 * code)]

/-- The maintenance state: UNLOCKED, the shed level, the inactive bank's check result. -/
def State.maintState (s : State) : Word :=
  w32 (s.rd F.MPX_STAT_UNLOCKED + 2 * s.rd F.MPX_STAT_SHED + 16 * s.checkBank (1 - s.rd F.SYS_BOOT_BANK))

/-- A write to MPX_L2M_CMD stores SEQ and CODE; from software it is a message: the MP's request, and what its firmware does with
it. -/
def mpxL2mCmd (who : Requester) (w : Word) (s : State) : State :=
  let code := bits w.toNat 16 8
  let s := (s.wr F.MPX_L2M_CMD_SEQ (bits w.toNat 0 16)).wr F.MPX_L2M_CMD_CODE code
  if byMp who then s
  else
    let s := (s.mpIrq 0).wr F.MPX_L2M_ACK_SEQ (bits w.toNat 0 16)
    if code = 1 then s.recNoteWrite 0x80 ((List.range 8).map (fun k => s.reg (Reg.MPX_L2M_D k)))
    else if code = 2 then s.mailSend 2 s.maintState
    else s.mailSend 0xFF 0

/-- A write to MPX_M2L_CMD by the MP raises MP_MAILBOX. -/
def mpxM2lCmd (who : Requester) (w : Word) (s : State) : State :=
  if byMp who then
    let s := (s.wr F.MPX_M2L_CMD_SEQ (bits w.toNat 0 16)).wr F.MPX_M2L_CMD_CODE (bits w.toNat 16 8)
    s.raise 466 [w32 (bits w.toNat 0 24)]
  else s

/-- A write to MPX_M2L_ACK by the lanes: the next message that waits is sent. -/
def State.mailAck (s : State) (w : Word) : State :=
  let s := s.wr F.MPX_M2L_ACK_SEQ (bits w.toNat 0 16)
  match s.mp.mailWait with
  | [] => s
  | (c, x) :: t => if s.rd F.MPX_M2L_CMD_SEQ = s.rd F.MPX_M2L_ACK_SEQ then ({ s with mp := { s.mp with mailWait := t } }).mailSend c x else s

/-! ## Maintenance ports (R550) -/

/-- The receive stamp of a frame, FCS included, whose last byte arrives now: 1000BASE-T at MA0, 100BASE-TX at MA1 (Table 10-6). -/
def State.maStamp (s : State) (port : Fin 2) (f : List Byte) : Option (BitVec 80) :=
  let sfd := (s.raw + 2 ^ 64 - f.length * (if port = 0 then 4 else 40)) % 2 ^ 64
  if ptpEvent f then some (BitVec.ofNat 80 (s.ntCaptured sfd (sfd + (if port = 0 then 148 else 118)))) else none

/-- A frame of at most 1,518 bytes arrives at a maintenance port: handed to the MP with its receive stamp. -/
def maFrameRx (port : Fin 2) (f : List Byte) (s : State) : State :=
  if s.phase = Phase.reset ∨ 1518 < f.length ∨ s.maPorts = false then s
  else ({ s with mp := { s.mp with rx := s.mp.rx ++ [MaFrame.mk port f (s.maStamp port f)] } }).mpIrq (2 + port.val)

/-! ## Meanings -/

/-- The effect of IST_LBIST_SELECT. -/
def execIstLbistSelect (s : State) : Host.Outcome State Fault Refusal := .next (istLbistSelect s)
/-- The effect of DRAM_SCRUB_READ. -/
def execDramScrubRead (s : State) : Host.Outcome State Fault Refusal := .next (dramScrubRead s)
/-- The effect of IST_OFFPULSE_END. -/
def execIstOffpulseEnd (s : State) : Host.Outcome State Fault Refusal := .next (istOffpulseEnd s)
/-- The effect of CAL_AGE_CHECK. -/
def execCalAgeCheck (s : State) : Host.Outcome State Fault Refusal := .next (calAgeCheck s)
/-- The effect of CAL_ISLAND_DONE. -/
def execCalIslandDone (n : Fin 73) (s : State) : Host.Outcome State Fault Refusal := .next (calIslandDone n s)
/-- The effect of MP_LOAD_WINDOW. -/
def execMpLoadWindow (load : BitVec 7) (s : State) : Host.Outcome State Fault Refusal := .next (mpLoadWindow load s)
/-- The effect of MP_TELEMETRY. -/
def execMpTelemetry (s : State) : Host.Outcome State Fault Refusal := .next (mpTelemetry s)
/-- The effect of MPX_L2M_CMD. -/
def execMpxL2mCmd (who : Requester) (w : Word) (s : State) : Host.Outcome State Fault Refusal :=
  .next (s.arrive who Reg.MPX_L2M_CMD w (fun t => mpxL2mCmd who w t))
/-- The effect of MPX_M2L_CMD. -/
def execMpxM2lCmd (who : Requester) (w : Word) (s : State) : Host.Outcome State Fault Refusal :=
  .next (s.arrive who Reg.MPX_M2L_CMD w (fun t => mpxM2lCmd who w t))
/-- The effect of MA_FRAME_RX. -/
def execMaFrameRx (port : Fin 2) (f : List Byte) (s : State) : Host.Outcome State Fault Refusal := .next (maFrameRx port f s)
/-- The effect of IST_CLR. -/
def execIstClr (who : Requester) (w : Word) (s : State) : Host.Outcome State Fault Refusal :=
  .next (s.arrive who Reg.IST_CLR w (fun t => istClr who w t))
/-- The effect of MP_WDT_EXPIRY. -/
def execMpWdtExpiry (s : State) : Host.Outcome State Fault Refusal := .next (mpWdtExpiry s)
/-- The effect of MPX_WDT. -/
def execMpxWdt (who : Requester) (w : Word) (s : State) : Host.Outcome State Fault Refusal :=
  .next (s.arrive who Reg.MPX_WDT w (fun t => mpxWdt who w t))

end Machine
end Sys2Proof
end

