-- ==== Sys2Proof/Machine/RackBridge.lean ====
section
/-!
DEFINITION. The rows of the rack bridge (chapter 14).
-/

namespace Sys2Proof
namespace Machine

/-- A cycle of the next window in turn falls due, or one that waits finds both response inputs high. `low`: RB_ACK_N or
RB_ERR_N is seen low. -/
def rbCycleStart (low : Bool) (s : State) : State :=
  match s.rack.cycle with
  | some c =>
    if c.stage = .due ∧ low = false ∧ s.raw ≤ c.start + s.rd F.RB_CFG_TMO * rawPerUs then
      s.setCycle (some { c with stage := .strobes, start := s.raw })
    else s
  | none =>
    if s.rackRuns then
      match s.rackTurn with
      | some w => s.rackStart w low
      | none => s
    else s

/-- The slave answers: `err` where RB_ERR_N is low, and the data of a read (steps 4 to 6 of Table 14-8). -/
def rbCycleResponse (err : Bool) (data : BitVec 16) (s : State) : State :=
  match s.rack.cycle with
  | some c =>
    if c.stage = .strobes ∧ s.raw < c.start + s.rd F.RB_CFG_TMO * rawPerUs then
      s.setCycle (some { c with stage := .answered err, data := if c.write then c.data else data })
    else s
  | none => s

/-- Both response inputs are high again, at t0 + 2 × TMO at the latest: an answered cycle ends not before 250 ns, a timeout at once
(R367, R368). -/
def rbCycleEnd (s : State) : State :=
  match s.rack.cycle with
  | some c =>
    let tmo := s.rd F.RB_CFG_TMO * rawPerUs
    match c.stage with
    | .answered err => if c.start + 125 ≤ s.raw ∧ s.raw ≤ c.start + 2 * tmo then s.rackEnd c (b2n err) true else s
    | .released => if s.raw ≤ c.start + 2 * tmo then s.rackEnd c 2 true else s
    | _ => s
  | none => s

/-- TMO passes without an answer, or a response input stays low (R368): the strobes are released at t0 + TMO, and RB_RST_N is
pulsed at t0 + 2 × TMO, or at once where no strobe was driven. [DEDUCED, unsafe: notes/assumptions/56.md] -/
def rbCycleTimeout (s : State) : State :=
  match s.rack.cycle with
  | some c =>
    let tmo := s.rd F.RB_CFG_TMO * rawPerUs
    (match c.stage with
      | .strobes => if c.start + tmo ≤ s.raw then s.setCycle (some { c with stage := .released }) else s
      | .due => if c.start + tmo ≤ s.raw then s.rackPulse c 2 false else s
      | .released => if c.start + 2 * tmo ≤ s.raw then s.rackPulse c 2 true else s
      | .answered err => if c.start + 2 * tmo ≤ s.raw then s.rackPulse c (b2n err) true else s
      | .pulse .. => s)
  | none => s

/-- The RB_RST_N pulse of 10 µs ends, and the cycle with it. -/
def rbBusResetEnd (s : State) : State :=
  match s.rack.cycle with
  | some c =>
    (match c.stage with
      | .pulse outcome drove =>
        if c.start + 10 * rawPerUs ≤ s.raw then (s.wr F.RB_STAT_RST 0).rackEnd c outcome drove else s
      | _ => s)
  | none => s

/-- RST_WAIT has passed since RB_RST_N was released. -/
def rbRstWaitEnd (s : State) : State :=
  match s.rack.waitEnd with
  | some r => if r ≤ s.raw then { s with rack := { s.rack with waitEnd := none, ready := true } } else s
  | none => s

/-- RB_BLOCK_READ and RB_BLOCK_WRITE in the hand of engine 0x12: the accepted command waits in its window's queue. -/
def rbBlockRead (s : State) : State := s.doLong 0x12 0x10 (fun _ s => s)
def rbBlockWrite (s : State) : State := s.doLong 0x12 0x11 (fun _ s => s)

/-- A write to RB_CLR (R382). -/
def rbClr (_who : Requester) (w : Word) (s : State) : State :=
  if w.getLsbD 0 then (((s.setReg Reg.RB_PERR_CNT 0).setReg Reg.RB_AERR_CNT 0).setReg Reg.RB_CYCLES 0).setReg Reg.RB_STUCK 0 else s

/-! ## Meanings -/

/-- The effect of RB_CYCLE_START. -/
def execRbCycleStart (low : Bool) (s : State) : Host.Outcome State Fault Refusal := .next (rbCycleStart low s)
/-- The effect of RB_CYCLE_RESPONSE. -/
def execRbCycleResponse (err : Bool) (data : BitVec 16) (s : State) : Host.Outcome State Fault Refusal :=
  .next (rbCycleResponse err data s)
/-- The effect of RB_CYCLE_END. -/
def execRbCycleEnd (s : State) : Host.Outcome State Fault Refusal := .next (rbCycleEnd s)
/-- The effect of RB_CYCLE_TIMEOUT. -/
def execRbCycleTimeout (s : State) : Host.Outcome State Fault Refusal := .next (rbCycleTimeout s)
/-- The effect of RB_BUS_RESET_END. -/
def execRbBusResetEnd (s : State) : Host.Outcome State Fault Refusal := .next (rbBusResetEnd s)
/-- The effect of RB_RST_WAIT_END. -/
def execRbRstWaitEnd (s : State) : Host.Outcome State Fault Refusal := .next (rbRstWaitEnd s)
/-- The effect of RB_BLOCK_READ. -/
def execRbBlockRead (s : State) : Host.Outcome State Fault Refusal := .next (rbBlockRead s)
/-- The effect of RB_BLOCK_WRITE. -/
def execRbBlockWrite (s : State) : Host.Outcome State Fault Refusal := .next (rbBlockWrite s)
/-- The effect of RB_CLR. -/
def execRbClr (who : Requester) (w : Word) (s : State) : Host.Outcome State Fault Refusal :=
  .next (s.arrive who Reg.RB_CLR w (fun t => rbClr who w t))

end Machine
end Sys2Proof
end

