-- ==== Sys2Proof/Machine/Saf.lean ====
section
/-!
DEFINITION. The Safety Sequencer's events and commands (chapter 18).
-/

namespace Sys2Proof
namespace Machine

/-- SAF_EVALUATION: 1 µs before each frame start both sequencer channels evaluate every enabled block; `differ` says that their
results differ. -/
def safEvaluation (differ : Bool) (s : State) : State :=
  if s.running && s.acts && s.raw % 4000 == 3500 && s.saf.evalAt != some s.raw then
    let s := { s with saf := { s.saf with evalAt := some s.raw } }
    if differ ∧ s.saf.differ = 1 then
      let s := (List.range 32).foldl (fun t n => t.safBoth n false) s
      (s.wr F.SAF_STAT_SEQ_ERR 1).enterSafe 7
    else
      let s := { s with saf := { s.saf with differ := b2n differ } }
      (List.range 32).foldl State.safEvalBlock s
  else s

/-- A safety island is powered, configured and out of its safe state, so that it pulses its supplies. [DEDUCED, unsafe: notes/assumptions/65.md] -/
def State.tpsLive (s : State) (t : Nat) : Bool :=
  s.phase != .reset && s.pwr.state != .e3 && (s.isl (56 + t / 8)).conf && !(s.isl (56 + t / 8)).safe

/-- TPS_PULSE_START: a supply switches off at slot start + 256 µs. -/
def tpsPulseStart (t : Fin 16) (s : State) : State :=
  let o := s.raw % slotLen
  if s.tpsLive t.val && s.pulses t.val (s.raw / slotLen) && decide (pulseOn - 500 ≤ o) && decide (o < pulseOff) then
    s.setTps t.val { s.tps t.val with pulsing := true }
  else s

/-- TPS_PULSE_END: a supply switches on again at slot start + 756 µs; `stuck` says that its output had not fallen below 2.0 V
in time. -/
def tpsPulseEnd (t : Fin 16) (stuck : Bool) (s : State) : State :=
  if (s.tps t.val).pulsing && decide (pulseOff - 500 ≤ s.raw % slotLen) then
    s.setTps t.val { s.tps t.val with pulsing := false, stuck := stuck }
  else s

/-- TP_CHECK_END: the check window of a block's input has ended, its last sample has arrived, and its samples are judged; a
window without samples is not judged. -/
def tpCheckEnd (n : Fin 32) (x : Fin 2) (s : State) : State :=
  let t := s.safTps n.val x.val
  if s.running && s.acts && s.on (F.SAF_BCTL_EN n.val) && s.safTpEn n.val x.val && s.pulses t (s.raw / slotLen) &&
      decide (pulseOff + frameLen ≤ s.raw % slotLen) then
    let c := s.safCh n.val x.val
    let judged := c.slot == s.raw / slotLen && decide (4 ≤ c.samples)
    let failed := judged && decide (0 < c.ones)
    let good := judged && c.ones == 0 && !s.tpsFault t
    let s := s.setSafCh n.val x.val { c with
      samples := 0, ones := 0, passed := if good then min 3 (c.passed + 1) else 0 }
    if failed then s.safCheckFails n.val x.val else s
  else s

/-- TPS_OVERLOAD: a supply has been in current limit for 1 ms, or has left it. -/
def tpsOverload (t : Fin 16) (limit : Bool) (s : State) : State :=
  if s.tpsLive t.val then s.setTps t.val { s.tps t.val with ovl := limit } else s

/-- SAF_IN_FILT_EXPIRY: a new RAW value has held for IN_FILT outside a mask and becomes the block level. -/
def safInFiltExpiry (n : Fin 32) (x : Fin 2) (s : State) : State :=
  let c := s.safCh n.val x.val
  match c.newFrom with
  | some t =>
    if s.running && s.acts && s.on (F.SAF_BCTL_EN n.val) && decide (t + s.rd (F.SAF_BCTL_IN_FILT n.val) * 50000 ≤ s.raw) &&
        !(s.safTpEn n.val x.val && s.inMask (s.safTps n.val x.val) s.raw) then
      s.setSafCh n.val x.val { c with level := !c.level, newFrom := none }
    else s
  | none => s

/-- SAF_DISCREPANCY: the inputs of a block have disagreed for longer than DISC_TIME. -/
def safDiscrepancy (n : Fin 32) (s : State) : State :=
  match (s.safBlk n.val).discFrom with
  | some t =>
    if s.running && s.acts && decide (t + s.rd (F.SAF_BCTL_DISC_TIME n.val) * 5000000 < s.raw) then s.safTrip n.val scDisc true else s
  | none => s

/-- SAF_FEEDBACK_TIMEOUT: the feedback of a block channel has disagreed for longer than 150 ms. -/
def safFeedbackTimeout (n : Fin 32) (x : Fin 2) (s : State) : State :=
  match (s.safCh n.val x.val).fbFrom with
  | some t => if s.running && s.acts && decide (t + 75000000 < s.raw) then s.safFault n.val x.val scFeedback else s
  | none => s

/-- SAF_DEG_EXPIRY: the Degraded timer of a block has run out. -/
def safDegExpiry (n : Fin 32) (s : State) : State :=
  if s.running && s.acts && s.safState n.val == sbDegraded && decide ((s.safBlk n.val).degEnd ≤ s.raw) then s.safTrip n.val scDegExp true
  else s

/-- SAF_RESET (R481). -/
def runSafReset (c : Cmd) (s : State) : State × Final :=
  let n := c.fld 8 0 5
  if !(c.headerOk && c.fld 8 5 27 == 0 && c.zeroFrom 0xC) || !s.on (F.SAF_BCTL_EN n) then (s, finBad)
  else if (s.ctx c.ring).mp || s.rd (F.SAF_BCTL_PART n) != (s.cmdPart c).toNat then (s, finNotOwner)
  else
    let r := s.safResetBlock n
    let t := if r.2 = 0 then r.1 else r.1.raise 388 [w32 (n + 65536 * r.2)]
    (t, ⟨stOK, r.2, [w32 (t.safState n)]⟩)

/-- SAF_RESET in the Sequencer's hand. -/
def safReset (s : State) : State := s.doShort 0x15 0x10 runSafReset

/-- SAF_STATUS. -/
def runSafStatus (c : Cmd) (s : State) : State × Final :=
  let buf := c.addr 0x10
  if !(c.headerOk && c.word 8 == 0 && c.word 0xC == 0 && c.fld 0x14 8 24 == 0 && c.zeroFrom 0x18) || buf % 128 != 0 ||
      !s.engineMayWrite buf 128 then (s, finBad)
  else (s.outBuf c buf (wordBytes ((List.range 32).map (fun n => s.reg (Reg.SAF_BSTAT n)))), finOk [])

/-- SAF_STATUS in the Sequencer's hand. -/
def safStatus (s : State) : State := s.doShort 0x15 0x11 runSafStatus

/-- A write to SAF_CLR (R485). -/
def safClr (_who : Requester) (w : Word) (s : State) : State := if w.getLsbD 0 then s.setReg Reg.SAF_CNT 0 else s

/-- VS_SAF_LOW: the level in mV at which VS_SAFs has stayed for 1 ms, and the island's temperature. -/
def vsSafLow (k : Fin 2) (mV : BitVec 16) (temp : Byte) (s : State) : State :=
  if s.phase != .reset && s.pwr.state != .e3 then
    let x := s.isl (56 + k.val)
    s.setIsl (56 + k.val) { x with low := supplyLow x.low mV.toNat, volt := mV, temp := temp }
  else s

/-! ## Meanings -/

/-- The effect of SAF_EVALUATION. -/
def execSafEvaluation (differ : Bool) (s : State) : Host.Outcome State Fault Refusal := .next (safEvaluation differ s)
/-- The effect of TPS_PULSE_START. -/
def execTpsPulseStart (t : Fin 16) (s : State) : Host.Outcome State Fault Refusal := .next (tpsPulseStart t s)
/-- The effect of TPS_PULSE_END. -/
def execTpsPulseEnd (t : Fin 16) (stuck : Bool) (s : State) : Host.Outcome State Fault Refusal :=
  .next (tpsPulseEnd t stuck s)
/-- The effect of TP_CHECK_END. -/
def execTpCheckEnd (n : Fin 32) (x : Fin 2) (s : State) : Host.Outcome State Fault Refusal := .next (tpCheckEnd n x s)
/-- The effect of TPS_OVERLOAD. -/
def execTpsOverload (t : Fin 16) (limit : Bool) (s : State) : Host.Outcome State Fault Refusal :=
  .next (tpsOverload t limit s)
/-- The effect of SAF_IN_FILT_EXPIRY. -/
def execSafInFiltExpiry (n : Fin 32) (x : Fin 2) (s : State) : Host.Outcome State Fault Refusal :=
  .next (safInFiltExpiry n x s)
/-- The effect of SAF_DISCREPANCY. -/
def execSafDiscrepancy (n : Fin 32) (s : State) : Host.Outcome State Fault Refusal := .next (safDiscrepancy n s)
/-- The effect of SAF_FEEDBACK_TIMEOUT. -/
def execSafFeedbackTimeout (n : Fin 32) (x : Fin 2) (s : State) : Host.Outcome State Fault Refusal :=
  .next (safFeedbackTimeout n x s)
/-- The effect of SAF_DEG_EXPIRY. -/
def execSafDegExpiry (n : Fin 32) (s : State) : Host.Outcome State Fault Refusal := .next (safDegExpiry n s)
/-- The effect of SAF_RESET. -/
def execSafReset (s : State) : Host.Outcome State Fault Refusal := .next (safReset s)
/-- The effect of SAF_STATUS. -/
def execSafStatus (s : State) : Host.Outcome State Fault Refusal := .next (safStatus s)
/-- The effect of SAF_CLR. -/
def execSafClr (who : Requester) (w : Word) (s : State) : Host.Outcome State Fault Refusal :=
  .next (s.arrive who Reg.SAF_CLR w (fun t => safClr who w t))
/-- The effect of VS_SAF_LOW. -/
def execVsSafLow (k : Fin 2) (mV : BitVec 16) (temp : Byte) (s : State) : Host.Outcome State Fault Refusal :=
  .next (vsSafLow k mV temp s)

end Machine
end Sys2Proof
end

