-- ==== Sys2Proof/Machine/Checks.lean ====
section
/-!
DEFINITION. The setup checks that SETUP_LOCK runs (R23, R354, R364, R404, R434, R461, R483, R515, R533, R559, R572).
-/

namespace Sys2Proof
namespace Machine

/-! ## Shared parts -/

/-- One row of a check table: its code, the numbers it goes over, and the numbers that fail. -/
structure CheckRow where
  code : Nat
  nums : List Nat
  fails : Nat → Bool

/-- The first failure of a table: code and number. -/
def firstFail : List CheckRow → Option (Nat × Nat)
  | [] => none
  | r :: t => match r.nums.find? r.fails with
    | some i => some (r.code, i)
    | none => firstFail t

/-- Some element shares something with a later one. -/
def anyPair {α : Type} (f : α → α → Bool) : List α → Bool
  | [] => false
  | x :: t => t.any (f x) || anyPair f t

/-- What no table of an engine may overlap: the doorbell array, the Ember save area, the staging area. -/
def State.keepOut (s : State) (a n : Nat) : Bool := decide (0 < n) && (s.inDoorbells a n || s.inSave a n || s.inStaging a n)

/-- A table lies wholly in DRAM, inside enabled Volatile entries. -/
def State.tableOk (s : State) (a n : Nat) : Bool := n == 0 || (inDram a n && s.pagesVolatile (a / 4096) (pagesOf a n))

/-- The range is Plain memory. -/
def State.plainRange (s : State) (a n : Nat) : Bool :=
  n == 0 || (s.region a == .plain && s.region (a + (n - 1)) == .plain &&
    (List.range (pagesOf a n)).all (fun k => s.region (max a ((a / 4096 + k) * 4096)) == .plain))

/-- A partition is enabled. -/
def State.partOn (s : State) (p : Nat) : Bool := s.on (F.PE_CTL_EN p)

/-! ## Region attributes (R23) -/

/-- Pages of an enabled entry. -/
def State.ratPages (s : State) (n : Nat) : Nat × Nat :=
  (s.rd (F.RAT_BASE_BASE n), s.rd (F.RAT_LIMIT_LIMIT n) + 1 - s.rd (F.RAT_BASE_BASE n))

/-- The region attribute table is valid. -/
def State.ratValid (s : State) : Bool :=
  let es := (List.range 64).filter (fun n => s.on (F.RAT_CTL_EN n))
  let others := [(s.dbBase / 4096, 64)] ++ (if s.pairOn then [(0x13F0000, 0x10000)] else [])
  es.all (fun n =>
    decide (0x1000000 ≤ s.rd (F.RAT_BASE_BASE n)) && decide (s.rd (F.RAT_LIMIT_LIMIT n) ≤ 0x13FFFFF) &&
      decide (s.rd (F.RAT_BASE_BASE n) ≤ s.rd (F.RAT_LIMIT_LIMIT n)) && s.rd (F.RAT_CTL_TYPE n) != 3 &&
      !others.any (overlaps (s.ratPages n))) &&
    !anyPair (fun x y => overlaps (s.ratPages x) (s.ratPages y)) es

/-! ## Signal store (Table 13-16) -/

/-- The areas of Table 13-1 in use. -/
def State.sigAreas (s : State) : List (Nat × Nat) :=
  ((if s.dsetCount = 0 then [] else [(s.rd F.SIG_STORE_BASE_BASE * 2 ^ 29, 2 ^ 29)]) ++
    [ (s.rd F.SIG_MAP_BASE_BASE * 4096, 8 * s.rd F.SIG_SLOTS_SLOTS), (s.rd F.SIG_RANGE_BASE_BASE * 4096, 16 * s.rd F.SIG_RANGE_COUNT_COUNT)
    , (s.rd F.SIG_ACC_BASE_BASE * 4096, 8 * s.rd F.SIG_ACC_COUNT_COUNT), (s.rd F.SIG_DSET_BASE_BASE * 4096, 64 * s.dsetCount)
    , (s.rd F.SIG_BUF_BASE_BASE * 4096, s.rd F.SIG_BUF_SIZE_SIZE * 0x100000) ]).filter (fun a => a.2 != 0)

/-- Datasets of the table, and the enabled ones. -/
def State.allSets (s : State) : List Nat := List.range s.dsetCount
def State.liveSets (s : State) : List Nat := s.allSets.filter s.dsEnabled

/-- A descriptor fails code 0x2. -/
def State.dsBad (s : State) (d : Nat) : Bool :=
  s.dsKind d == 3 || (s.dsEnabled d &&
    (s.dlen d == 0 || decide (1482 < s.dlen d) || s.nsig d == 0 || decide (48 < s.nsig d) ||
      (s.staleN d != 0 && s.dsPeriod d == 0) || decide (s.rd F.SIG_SLOTS_SLOTS < s.firstSlot d + s.nsig d) || !s.partOn (s.dsPart d) ||
      decide (s.rd F.SIG_BUF_SIZE_SIZE * 0x100000 < 64 * s.ds d 0x10 0 32 + 3 * ((s.dlen d + 63) / 64 * 64)) ||
      (s.words (s.dsAddr d + 0x1C) 9).any (· != 0) || (s.subst d && !inDram (s.subAddr d) (s.dlen d))))

/-- Slots and buffer bytes of a dataset. -/
def State.dsSpan (s : State) (d : Nat) : Nat × Nat := (s.firstSlot d, s.nsig d)
def State.dsBufs (s : State) (d : Nat) : Nat × Nat := (64 * s.ds d 0x10 0 32, 3 * ((s.dlen d + 63) / 64 * 64))

/-- Numbers in ascending order. -/
def ascending : List Nat → List Nat
  | [] => []
  | x :: t => let r := ascending t; r.takeWhile (fun y => decide (y < x)) ++ x :: r.dropWhile (fun y => decide (y < x))

/-- Slots in use, in ascending order. -/
def State.usedSlots (s : State) : List Nat := ascending (s.liveSets.flatMap s.dsSlots)

/-- The map entry of a slot of dataset d fails code 0x4. -/
def State.mapBad (s : State) (d i : Nat) : Bool :=
  let m := s.sigMap i
  let aligned := m.ofs % 8 == 0
  m.dset != d || decide (5 < m.ty) || decide (64 < m.width) || (m.ty == 1 && decide (m.width < 2)) || (m.ty == 2 && m.width != 1) ||
    (m.ty == 3 && (m.width != 32 || !aligned)) || (m.ty == 4 && (m.width != 64 || !aligned)) ||
    (m.le && (!aligned || m.width % 8 != 0)) || decide (8 * s.dlen d < m.ofs + m.width) ||
    decide (s.rd F.SIG_RANGE_COUNT_COUNT ≤ m.range)

/-- Datasets that the configured networks name in a direction, with the length they give: 0 received, 1 sent. -/
def State.netSets (s : State) (dir : Nat) : List (Nat × Nat) :=
  ((List.range 3).filter (fun n => s.rd (F.CR_CFG_ROLE n) != 0)).flatMap (fun n =>
    (s.slices n dir).map (fun e => (s.rd (F.CR_SLD_DSET n e), s.rd (F.CR_SLC_LEN n e)))) ++
  (if dir = 1 ∧ s.cbRole ≠ 0 then
    ([0] ++ (if s.cb.written1 then [1] else [])).flatMap (fun b =>
      (List.range (s.cbNcyc b)).map (fun j => ((s.cbCyc b j).2, s.dlen (s.cbCyc b j).2)))
   else [])

/-- R335 is broken at a dataset: a network names it the wrong way, or two receive datasets carry its DSID. -/
def State.netBad (s : State) (d : Nat) : Bool :=
  (s.netSets 0).any (fun x => x.1 == d && (!s.dsEnabled d || s.dsKind d != 1 || s.dlen d != x.2)) ||
    (s.netSets 1).any (fun x => x.1 == d && (!s.dsEnabled d || s.dsKind d != 2 || s.dlen d != x.2)) ||
    (decide (d < s.dsetCount) && s.dsKind d == 1 && s.allSets.any (fun e => decide (e < d) && s.dsKind e == 1 && s.dsid e == s.dsid d))

/-- A partition's access map fails code 0x6. -/
def State.sigmapBad (s : State) (p : Nat) : Bool :=
  let m := s.rd (F.PE_SIGMAP_SIGMAP p)
  s.partOn p && m != 0xFFFFFFFF &&
    (decide (s.rd F.SIG_ACC_COUNT_COUNT < m % 2 ^ 20 + m / 2 ^ 20) || (List.range (m / 2 ^ 20)).any (fun k =>
      let a := s.rd F.SIG_ACC_BASE_BASE * 4096 + 8 * (m % 2 ^ 20 + k)
      s.memFld (a + 4) 0 26 == 0 || decide (2 ^ 25 < s.memFld a 0 25 + s.memFld (a + 4) 0 26)))

/-- Table 13-16. -/
def State.sigRows (s : State) : List CheckRow :=
  [ ⟨1, [0], fun _ =>
      decide (262144 < s.dsetCount) || (s.dsetCount != 0 && !s.inVolatile (s.rd F.SIG_STORE_BASE_BASE * 2 ^ 29) (2 ^ 29)) ||
        s.sigAreas.any (fun a => !s.tableOk a.1 a.2 || s.keepOut a.1 a.2) || anyPair overlaps s.sigAreas⟩
  , ⟨2, s.allSets, s.dsBad⟩
  , ⟨3, s.liveSets, fun d => s.liveSets.any (fun e => e != d &&
      (overlaps (s.dsSpan e) (s.dsSpan d) || overlaps (s.dsBufs e) (s.dsBufs d)))⟩
  , ⟨4, s.usedSlots, fun i => (s.liveSets.filter (fun d => decide (s.firstSlot d ≤ i) && decide (i < s.firstSlot d + s.nsig d))).any (fun d => s.mapBad d i)⟩
  , ⟨5, s.allSets ++ ascending (((s.netSets 0 ++ s.netSets 1).map (fun x => x.1)).filter (fun d => decide (s.dsetCount ≤ d))), s.netBad⟩
  , ⟨6, List.range 256, s.sigmapBad⟩ ]

/-! ## Gateway (Table 14-6) -/

/-- The two tables. -/
def State.gwAreas (s : State) : List (Nat × Nat) :=
  [(s.rd F.GW_ROUTE_BASE_BASE * 4096, 8 * s.rd F.GW_ROUTE_COUNT_COUNT), (s.rd F.GW_GROUP_BASE_BASE * 4096, 32 * s.rd F.GW_GROUP_COUNT_COUNT)].filter
    (fun a => a.2 != 0)

/-- Enabled groups; a group's dataset and routes. -/
def State.liveGroups (s : State) : List Nat := (List.range (s.rd F.GW_GROUP_COUNT_COUNT)).filter s.gwOn
def State.gwDset (s : State) (g : Nat) : Nat := s.memFld (s.gwGroup g) 0 18
def State.gwSpan (s : State) (g : Nat) : Nat × Nat := (s.memFld (s.gwGroup g + 4) 0 16, s.memFld (s.gwGroup g + 4) 16 6)

/-- Route i of group g fails code 0x4. -/
def State.routeBad (s : State) (g i : Nat) : Bool :=
  let src := s.memFld (s.gwRoute i) 0 25
  let dst := s.memFld (s.gwRoute i + 4) 0 25
  let d := s.gwDset g
  let float (t : Nat) : Bool := t == 3 || t == 4
  !s.slotUsed src || !s.slotUsed dst || (s.sigMap dst).dset != d || (s.sigMap src).dset == d ||
    float (s.sigMap src).ty != float (s.sigMap dst).ty ||
    (List.range (s.gwSpan g).2).any (fun k => decide ((s.gwSpan g).1 + k < i) && s.memFld (s.gwRoute ((s.gwSpan g).1 + k) + 4) 0 25 == dst)

/-- Table 14-6. [DEDUCED, unsafe: notes/assumptions/30.md] -/
def State.gwRows (s : State) : List CheckRow :=
  let gs := s.liveGroups
  [ ⟨1, [0], fun _ =>
      decide (65536 < s.rd F.GW_ROUTE_COUNT_COUNT) || decide (16384 < s.rd F.GW_GROUP_COUNT_COUNT) ||
        s.gwAreas.any (fun a => !s.tableOk a.1 a.2 || s.keepOut a.1 a.2 || s.sigAreas.any (overlaps a))⟩
  , ⟨2, gs, fun g =>
      !s.dsEnabled (s.gwDset g) || (s.gwSpan g).2 == 0 || decide (48 < (s.gwSpan g).2) ||
        decide (s.rd F.GW_ROUTE_COUNT_COUNT < (s.gwSpan g).1 + (s.gwSpan g).2) ||
        (List.range (s.rd F.GW_GROUP_COUNT_COUNT)).any (fun h => h != g && (s.gwSpan h).2 != 0 && overlaps (s.gwSpan g) (s.gwSpan h))⟩
  , ⟨3, gs, fun g => gs.any (fun h => h != g && s.gwDset h == s.gwDset g)⟩
  , ⟨4, List.range (s.rd F.GW_ROUTE_COUNT_COUNT), fun i => (gs.filter (fun g => decide ((s.gwSpan g).1 ≤ i) && decide (i < (s.gwSpan g).1 + (s.gwSpan g).2))).any
      (fun g => s.routeBad g i)⟩
  , ⟨5, gs, fun g => !s.hasSlot 0x11 (s.dsPart (s.gwDset g))⟩ ]

/-! ## Cycle engine (Table 15-11) -/

/-- Enabled cyclic and error tasks. -/
def State.cycTasks (s : State) : List Nat := allTasks.filter s.taskCyc
def State.errTasks (s : State) : List Nat := allTasks.filter (fun t => s.taskEn t && s.taskErr t)
def State.liveTasks (s : State) : List Nat := allTasks.filter s.taskEn

/-- A task's period is outside its limits, or its generator, divider or watchdog is (code 0x1). -/
def State.taskBad (s : State) (t : Nat) : Bool :=
  let g := s.rd (F.TASK_CTL_PTO t)
  let per := s.ptoPeriod g * s.rd (F.TASK_DIV_DIV t)
  let wdt := s.rd (F.TASK_WDT_WDT t)
  !s.partOn (s.taskPart t) || decide (2 ≤ s.rd (F.TASK_CTL_WDT_ACTION t)) ||
    (s.taskCyc t && (s.rd (F.PTO_CTL_MODE g) != 2 || s.on (F.PTO_CTL_ARM_EN g) || s.rd (F.TASK_DIV_DIV t) == 0 ||
      decide (s.rd (F.TASK_DIV_DIV t) ≤ s.rd (F.TASK_DIV_PHASE t)) || decide (per < 250000) || decide (10 ^ 10 < per) ||
      wdt == 0 || decide (per < wdt * 1000)))

/-- The images and buffers of a cyclic task: its input image, and its output buffers and safe image. -/
def State.inArea (s : State) (t : Nat) : Nat × Nat := (s.inAddr t, s.inLen t)
def State.outAreas (s : State) (t : Nat) : List (Nat × Nat) :=
  if s.outLen t = 0 then [] else [(s.outAddr t 0, s.outLen t), (s.outAddr t 1, s.outLen t), (s.safeAddr t, s.outLen t)]

/-- A task's datasets fail code 0x4. -/
def State.taskSetBad (s : State) (t d : Nat) : Bool :=
  !s.dsEnabled d || s.dsKind d != 2 || s.dsPart d != s.taskPart t || s.liveTasks.any (fun u => u != t && (s.taskSets u).contains d) ||
    s.liveGroups.any (fun g => s.gwDset g == d)

/-- An error task has what only a cyclic task may have. -/
def State.errTaskBad (s : State) (t : Nat) : Bool :=
  [Reg.TASK_IN t, Reg.TASK_LIST t, Reg.TASK_INMASK_LO t, Reg.TASK_INMASK_HI t, Reg.TASK_OUTMASK_LO t, Reg.TASK_OUTMASK_HI t, Reg.TASK_OUT0 t,
    Reg.TASK_OUT1 t, Reg.TASK_SAFE t].any (fun r => s.reg r != 0) || s.rd (F.TASK_DSET_COUNT t) != 0 ||
    s.errTasks.any (fun u => u != t && s.taskPart u == s.taskPart t)

/-- Enabled stations, and a station's datasets. -/
def State.stnSets (s : State) (k : Nat) : List Nat :=
  (List.range (s.rd (F.CYC_STD_DSET_COUNT k))).map (· + s.rd (F.CYC_STD_DSET_FIRST k))

/-- A station fails code 0x6. -/
def State.stnBad (s : State) (k : Nat) : Bool :=
  let r := s.rd (F.CYC_STN_RING k)
  let pos := s.rd (F.CYC_STN_POS k)
  s.on (F.CYC_STN_EN k) &&
    (r == 3 || s.rd (F.CR_CFG_ROLE r) == 0 || pos == 0 || decide (125 < pos) || s.rd (F.CYC_STN_N k) == 0 ||
      (s.stnSets k).any (fun d => !s.dsEnabled d || s.dsKind d != 1 || !s.subst d || s.dsPart d != s.stnPart k) ||
      allStations.any (fun j => j != k && s.on (F.CYC_STN_EN j) && s.rd (F.CYC_STN_RING j) == r && s.rd (F.CYC_STN_POS j) == pos))

/-- A partition's retained memory. -/
def State.retArea (s : State) (p : Nat) : Nat × Nat := (s.rd (F.CYC_RET_FIRST p), s.rd (F.CYC_RET_COUNT p))

/-- Table 15-11. -/
def State.cycRows (s : State) : List CheckRow :=
  let ts := s.cycTasks
  let areas (t : Nat) : List (Nat × Nat) := s.inArea t :: s.outAreas t
  [ ⟨1, s.liveTasks, s.taskBad⟩
  , ⟨2, ts, fun t =>
      !s.inVolatile (s.inArea t).1 (s.inArea t).2 || (s.outAreas t).any (fun a => !s.plainRange a.1 a.2) || anyPair overlaps (areas t) ||
        ts.any (fun u => u != t && (areas t).any (fun a => (areas u).any (overlaps a)))⟩
  , ⟨3, s.liveTasks, fun t =>
      (s.outIslands t).any (fun i => s.liveTasks.any (fun u => u != t && (s.outIslands u).contains i)) ||
        (s.on (F.TASK_IN_LIST_EN t) && !s.compiledOk (s.rd (F.TASK_LIST_BASE t) * 4096) (BitVec.ofNat 8 (s.taskPart t)))⟩
  , ⟨4, s.liveTasks, fun t => (s.taskSets t).any (s.taskSetBad t)⟩
  , ⟨5, s.liveTasks, fun t =>
      s.liveTasks.any (fun u => s.taskPart u != s.taskPart t && s.rd (F.TASK_CTL_LINE u) == s.rd (F.TASK_CTL_LINE t)) ||
        (s.taskErr t && s.errTaskBad t)⟩
  , ⟨5, List.range 256, fun p =>
      let t := s.rd (F.CYC_PART_ERR_TASK p)
      s.on (F.CYC_PART_ERR_EN p) && !(s.taskEn t && s.taskErr t && s.taskPart t == p)⟩
  , ⟨6, allStations, s.stnBad⟩
  , ⟨7, List.range 256, fun p =>
      (p == 0 && decide (1024 < ((s.parts'.map (fun q => s.rd (F.CYC_PART_FORCE_MAX q))).sum))) ||
        ((s.retArea p).2 != 0 && (decide (3072 < (s.retArea p).1 + (s.retArea p).2) ||
          (List.range 256).any (fun q => q != p && (s.retArea q).2 != 0 && overlaps (s.retArea p) (s.retArea q))))⟩ ]

/-! ## Field islands (Tables 16-18 and 17-10): numbers are 16 × island + channel -/

/-- An island is enabled; tasks that take its inputs and that drive it. -/
def State.islOn (s : State) (i : Nat) : Bool := s.on (F.FLD_ISL_EN i)
def State.tasksIn (s : State) (i : Nat) : List Nat := s.cycTasks.filter (fun t => (s.inIslands t).contains i)
def State.tasksOut (s : State) (i : Nat) : List Nat := s.cycTasks.filter (fun t => (s.outIslands t).contains i)

/-- Tables 16-18 and 17-10. -/
def State.fldRows (s : State) : List CheckRow :=
  let isl := (List.range 58).map (16 * ·)
  let own (i t : Nat) : Bool := s.taskPart t == s.rd (F.FLD_ISL_PART i)
  [ ⟨1, isl, fun x =>
      let i := x / 16
      (s.islOn i && !s.partOn (s.rd (F.FLD_ISL_PART i))) || (!s.islOn i && ((s.tasksIn i) ++ (s.tasksOut i)) != [])⟩
  , ⟨2, isl, fun x =>
      let i := x / 16
      (s.tasksOut i).any (fun t => !own i t) || (!s.on (F.FLD_ISL_SHARED_IN i) && (s.tasksIn i).any (fun t => !own i t)) ||
        (decide (i < 16) && s.tasksOut i != [])⟩
  , ⟨3, (List.range 16).map (16 * ·), fun x => s.islOn (x / 16) && s.rd (F.FLD_DI_TYPE (x / 16)) == 0⟩
  , ⟨4, (List.range 128).map (256 + ·), fun x =>
      let g := x / 16 - 16
      s.islOn (x / 16) && (s.dioCfgBad (s.reg (F.FLD_DIO_FUNC g (x % 16)).off).toNat (s.reg (F.FLD_DIO1_RAMP g (x % 16)).off).toNat).isSome⟩
  , ⟨8, (List.range 64).map (fun c => 16 * (24 + c / 2) + c % 2), fun x =>
      let c := 2 * (x / 16 - 24) + x % 16
      s.islOn (x / 16) && aiCfgBad c (s.reg (F.FLD_AIL_MODE c).off).toNat (s.reg (F.FLD_AIL1_LEAD c).off).toNat⟩
  , ⟨9, [0], fun _ =>
      let src := s.rd F.FLD_AI_CFG_SYNC_SRC
      src == 3 || (src == 1 && !s.on F.TB_SYNC_IN_EN) || (src == 2 && s.rd (F.PTO_CTL_MODE (s.rd F.FLD_AI_CFG_PTO)) == 0) ||
        (s.on F.FLD_AI_CFG_SYNC_CMD_EN && !s.partOn (s.rd F.FLD_AI_CFG_SYNC_PART))⟩ ]

/-! ## Safety (Table 18-7) -/

/-- Two enabled supplies pulse in one slot (R467). -/
def State.tpsMeet (s : State) (a b : Nat) : Bool :=
  let g := Nat.gcd (s.rd (F.SAF_TPS_PER a)) (s.rd (F.SAF_TPS_PER b))
  s.on (F.SAF_TPS_EN a) && s.on (F.SAF_TPS_EN b) && s.rd (F.SAF_TPS_PHASE a) % g == s.rd (F.SAF_TPS_PHASE b) % g

/-- A supply fails code 0x1. -/
def State.tpsBad (s : State) (t : Nat) : Bool :=
  s.on (F.SAF_TPS_EN t) &&
    (decide (s.rd (F.SAF_TPS_PER t) < 2) || decide (s.rd (F.SAF_TPS_PER t) ≤ s.rd (F.SAF_TPS_PHASE t)) ||
      decide (s.rd (F.SAF_TPS_SETTLE t) < 10) || decide (40 < s.rd (F.SAF_TPS_SETTLE t)) || !s.islOn (56 + t / 8) ||
      (List.range 16).any (fun u => u != t && s.tpsMeet t u))

/-- A block fails code 0x2. -/
def State.blockBad (s : State) (n : Nat) : Bool :=
  let i1 := s.rd (F.SAF_BIN_IN1 n)
  let i2 := s.rd (F.SAF_BIN_IN2 n)
  let t1 := s.rd (F.SAF_BIN_TPS1 n)
  let t2 := s.rd (F.SAF_BIN_TPS2 n)
  let tp := s.on (F.SAF_BIN_TP1_EN n)
  let out := s.on (F.SAF_BOUT_OUT1_EN n)
  !s.partOn (s.rd (F.SAF_BCTL_PART n)) || s.rd (F.SAF_BCTL_DISC_TIME n) == 0 || decide (60 < s.rd (F.SAF_BIN_DEG_LIMIT n)) ||
    i1 / 16 == i2 / 16 || tp != s.on (F.SAF_BIN_TP2_EN n) ||
    (tp && (!s.on (F.SAF_TPS_EN t1) || !s.on (F.SAF_TPS_EN t2) || t1 / 8 == t2 / 8)) || out != s.on (F.SAF_BOUT_OUT2_EN n) ||
    (out && s.rd (F.SAF_BOUT_OUT1 n) / 16 == s.rd (F.SAF_BOUT_OUT2 n) / 16) ||
    (s.on (F.SAF_BCTL_FB1_EN n) && !out) || (s.on (F.SAF_BCTL_FB2_EN n) && !s.on (F.SAF_BOUT_OUT2_EN n))

/-- Enabled outputs of a block as DIO channels. -/
def State.blockOuts (s : State) (n : Nat) : List Nat :=
  (if s.on (F.SAF_BOUT_OUT1_EN n) then [s.rd (F.SAF_BOUT_OUT1 n)] else []) ++
    (if s.on (F.SAF_BOUT_OUT2_EN n) then [s.rd (F.SAF_BOUT_OUT2 n)] else [])

/-- Table 18-7. -/
def State.safRows (s : State) : List CheckRow :=
  let bs := (List.range 32).filter (fun n => s.on (F.SAF_BCTL_EN n))
  [ ⟨1, List.range 16, s.tpsBad⟩
  , ⟨2, bs, s.blockBad⟩
  , ⟨3, bs, fun n =>
      let ins := [s.rd (F.SAF_BIN_IN1 n), s.rd (F.SAF_BIN_IN2 n)] ++
        (if s.on (F.SAF_BCTL_FB1_EN n) then [s.rd (F.SAF_BOUT_FB1 n)] else []) ++
        (if s.on (F.SAF_BCTL_FB2_EN n) then [s.rd (F.SAF_BOUT_FB2 n)] else [])
      ins.any (fun x => !s.islOn (x / 16)) || (s.blockOuts n).any (fun o =>
        !s.islOn (16 + o / 16) || s.rd (F.FLD_ISL_PART (16 + o / 16)) != s.rd (F.SAF_BCTL_PART n))⟩
  , ⟨4, bs, fun n =>
      (s.blockOuts n).any (fun o => s.dioFunc (o / 16) (o % 16) != 0 || bs.any (fun m => m != n && (s.blockOuts m).contains o))⟩
  , ⟨4, [0], fun _ => ((s.tasksOut 56) ++ (s.tasksOut 57)) != []⟩ ]

/-! ## Pair (Table 19-11) -/

/-- Enabled mirrored ranges, and a range's pages. -/
def State.mranges (s : State) : List Nat := (List.range 16).filter (fun n => s.on (F.PAIR_MRANGE_08_EN n))
def State.mrPages (s : State) (n : Nat) : Nat × Nat :=
  (s.rd (F.PAIR_MRANGE_00_BASE n), s.rd (F.PAIR_MRANGE_04_LIMIT n) + 1 - s.rd (F.PAIR_MRANGE_00_BASE n))

/-- A range fails code 0x2. -/
def State.mrangeBad (s : State) (n : Nat) : Bool :=
  let b := s.rd (F.PAIR_MRANGE_00_BASE n)
  let l := s.rd (F.PAIR_MRANGE_04_LIMIT n)
  let p := s.rd (F.PAIR_MRANGE_08_PART n)
  decide (l < b) || !((decide (0x1000000 ≤ b) && decide (l < 0x13F0000)) || (decide (0x60400 ≤ b) && decide (l ≤ 0x60FFF))) ||
    s.mranges.any (fun m => m != n && overlaps (s.mrPages n) (s.mrPages m)) || !s.partOn p || !s.on (F.PE_CTL_MIRRORED p)

/-- Every page of a completion ring lies in its partition's ranges. -/
def State.cqMirrored (s : State) (c : RingCtx) : Bool :=
  (List.range (pagesOf c.cqArea.1 c.cqArea.2)).all (fun k => s.inPartRange c.part ((c.cqArea.1 / 4096 + k) * 4096))

/-- Starts of the pair's windows over the macro cycle of bank 0, in 10 ns, and whether every basic cycle has one. -/
def State.pairWins (s : State) (bc : Nat) : List Nat :=
  ((List.range 256).map (s.cbWin 0 bc)).filterMap (fun x =>
    if x.kind = 2 ∧ x.who = s.rd F.CB_CFG_NODE ∧ x.cyc then some (bc * s.rd F.CB_BC_BC_LEN * 100 + x.start) else none)

/-- The longest step of a rising list that wraps at `len`. -/
def longestGap (len : Nat) (xs : List Nat) : Nat :=
  match xs with
  | [] => len
  | x :: _ => ((xs.zip (xs.tail ++ [x + len])).map (fun p => p.2 - p.1)).foldl max 0

/-- Code 0x6. -/
def State.pairCbBad (s : State) : Bool :=
  let n := s.cbNbc 0
  let wins := (List.range n).map s.pairWins
  let w := s.rd F.PAIR_CFG_PRES_WAIT
  s.cbRole != 0 && (wins.any (· == []) || decide (w < 10) || decide (150 < w) ||
    decide (w * 1000 < longestGap (n * s.rd F.CB_BC_BC_LEN * 100) wins.flatten + 10000))

/-- Table 19-11; code 0x8 belongs to the lanes' SYS_LOCK. -/
def State.pairRows (s : State) (lanes : Bool) : List CheckRow :=
  [ ⟨1, [0], fun _ => !s.on F.SYS_STRAP_PAR_OK || s.peerMac == 0 || s.peerMac == s.cbMac⟩
  , ⟨2, s.mranges, s.mrangeBad⟩
  , ⟨2, s.parts', fun p => s.on (F.PE_CTL_MIRRORED p) && s.mranges.all (fun n => s.rd (F.PAIR_MRANGE_08_PART n) != p)⟩
  , ⟨3, s.enabledRings, fun r =>
      s.on (F.PE_CTL_MIRRORED (s.ctx (BitVec.ofNat 15 r)).part.toNat) && !s.cqMirrored (s.ctx (BitVec.ofNat 15 r))⟩
  , ⟨4, List.range 16, fun n => s.rd (F.PTO_CTL_MODE n) != 0 && !s.on (F.PTO_CTL_BASE n)⟩
  , ⟨5, List.range 3, fun n => s.rd (F.CR_CFG_ROLE n) == 1 || (s.rd (F.CR_CFG_ROLE n) == 2 && !(s.on (F.CR_CFG_A_EN n) && s.on (F.CR_CFG_B_EN n)))⟩
  , ⟨6, [0], fun _ => s.pairCbBad⟩
  , ⟨7, [0], fun _ => s.on F.PWR_EMBER_CFG_E2_EN || s.on F.PWR_EMBER_CFG_E3_EN⟩
  , ⟨8, [0], fun _ => lanes && (!s.on F.PAIR_STAT_JOINED || s.role != rlActive)⟩ ]

/-! ## Recorder (Table 20-9) -/

/-- INDEX of a kind lies in Table 20-3. -/
def recIndexOk (kind i : Nat) : Bool :=
  match kind with
  | 1 => true
  | 2 => decide (i < 64)
  | 4 => decide (16 ≤ i) && decide (i ≤ 57)
  | 6 => decide (i < 8)
  | 7 => decide (i < 64)
  | 0xD => decide (i < 3)
  | _ => i == 0

/-- VTYPE of a measure; none for a signal. -/
def recVtypeOf (kind : Nat) : Option Nat :=
  match kind with
  | 1 => none
  | 3 => some 0
  | 4 => some 0
  | 7 => some 0
  | 0xC => some 0
  | _ => some 1

/-- Event kinds: 0x02 and 0x08 to 0x0D. -/
def recEventKind (kind : Nat) : Bool := kind == 2 || decide (8 ≤ kind)

/-- A channel fails code 0x2. -/
def State.recBad (s : State) (c : Nat) : Bool :=
  let k := s.recKind c
  let vt := s.recVtype c
  let lo := s.dword (s.recEntry c + 0x10)
  let hi := s.dword (s.recEntry c + 0x18)
  s.recEn c && (k == 0 || decide (0xD < k) || vt == 3 || !recIndexOk k (s.recIndex c) || (recEventKind k == (s.recPeriod c != 0)) ||
    (recVtypeOf k != none && recVtypeOf k != some vt) || (!vNan vt lo && !vNan vt hi && !vLess vt lo hi))

/-- Table 20-9. -/
def State.recRows (s : State) : List CheckRow :=
  let a := s.rd F.REC_CHAN_BASE_BASE * 4096
  let n := 32 * s.recCount
  [ ⟨1, [0], fun _ => decide (4096 < s.recCount) || !s.tableOk a n || s.keepOut a n || (n != 0 && (s.sigAreas ++ s.gwAreas).any (overlaps (a, n)))⟩
  , ⟨2, List.range s.recCount, s.recBad⟩
  , ⟨3, List.range s.recCount, fun c => s.recEn c && s.recKind c == 1 && !s.slotUsed (s.recIndex c)⟩
  , ⟨4, [0], fun _ => s.rd F.REC_CFG_FLUSH == 0 || decide (100 < s.rd F.REC_CFG_FLUSH)⟩ ]

/-! ## In-service test (Table 21-11) -/

/-- Table 21-11. -/
def State.istRows (s : State) : List CheckRow :=
  let m (c : Nat) : Bool := (s.reg (Reg.IST_OFFP_MASK (c / 32))).getLsbD (c % 32)
  [ ⟨1, [0], fun _ => s.on F.IST_CFG_LBIST_EN && s.rd F.IST_CFG_ROT_PERIOD == 0⟩
  , ⟨2, [0], fun _ => s.on F.IST_CFG_SCRUB_EN && s.rd F.IST_CFG_SCRUB_HOURS == 0⟩
  , ⟨3, [0], fun _ => s.on F.IST_CFG_ISL_EN && s.rd F.IST_CFG_ISL_PERIOD == 0⟩
  , ⟨4, [0], fun _ => s.on F.IST_CFG_OFFP_EN &&
      (decide (s.rd F.IST_OFFP_LEN < 6) || decide (37 < s.rd F.IST_OFFP_LEN) || s.rd F.IST_OFFP_PERIOD == 0 ||
        (List.range 128).any (fun c => m c && (s.dioFunc (c / 16) (c % 16) != 0 || !s.islOn (16 + c / 16))))⟩ ]

/-! ## All blocks (R572, Table 1-5) -/

/-- The outcome of a block's table. [DEDUCED, unsafe: notes/assumptions/30.md] -/
def State.judgeRows (s : State) (rows : List CheckRow) (note : Nat → Nat → State → State) : Bool × State :=
  match firstFail rows with
  | none => (true, s)
  | some (k, i) => (false, note k i s)

/-- Checks of PWR, LANE, CORD and the Flue (R80, R130, R143, R176). -/
def State.coreCheck (s : State) : Bool × State :=
  if s.on F.PWR_EMBER_CFG_E3_EN && !s.inVolatile s.saveBase 0x400000 then (false, s.wr F.PWR_EMBER_STAT_CFG_ERR 1)
  else if s.rd F.LANE_CFG_MISMATCH_POLICY == 1 && s.rd F.LANE_CFG_ROLLBACK_LIMIT == 0 then
    (false, (s.wr F.LANE_STAT_CFG_ERR 1).raise 7 [])
  else if decide (s.rd F.CORD_PERIOD_PERIOD < 100) || decide (10000 < s.rd F.CORD_PERIOD_PERIOD) then (false, s.wr F.CORD_STAT_CFG_ERR 1)
  else if 2048 < ((List.range 256).map (fun p => s.rd (F.FLUE_QUOTA_QUOTA p))).sum then (false, s.wr F.FLUE_STAT_CFG_ERR 1)
  else (true, s)

/-- The checks of the blocks from RING on, in the order of Table 1-5; `lanes` says that the lanes' SYS_LOCK runs them. -/
def blockChecks (lanes : Bool) : List (State → Bool × State) :=
  [ State.coreCheck, State.ringSetupCheck, State.partSetupCheck, State.tbSetupCheck, State.crSetupCheck, State.cbSetupCheck
  , fun s => s.judgeRows s.sigRows (fun k i t => ((t.wr F.SIG_STAT_CFG_ERR 1).wr F.SIG_STAT_CFG_CODE k).wr F.SIG_STAT_CFG_INDEX i)
  , fun s => s.judgeRows s.gwRows (fun k i t =>
      (((t.wr F.GW_STAT_CFG_ERR 1).wr F.GW_STAT_CFG_CODE k).wr F.GW_STAT_CFG_INDEX i).raise 155 [w32 k, w32 i])
  , State.rbSetupCheck
  , fun s => s.judgeRows s.cycRows (fun k i t =>
      (((t.wr F.CYC_STAT_CFG_ERR 1).wr F.CYC_STAT_CFG_CODE k).wr F.CYC_STAT_CFG_INDEX i).raise 494 [w32 k, w32 i])
  , fun s => s.judgeRows s.fldRows (fun k x t =>
      ((((t.wr F.FLD_STAT_CFG_ERR 1).wr F.FLD_STAT_CFG_CODE k).wr F.FLD_STAT_CFG_ISL (x / 16)).wr F.FLD_STAT_CFG_CH (x % 16)).raise 338
        [w32 k, w32 (x / 16 + 256 * (x % 16))])
  , fun s => s.judgeRows s.safRows (fun k i t =>
      (((t.wr F.SAF_STAT_CFG_ERR 1).wr F.SAF_STAT_CFG_CODE k).wr F.SAF_STAT_CFG_INDEX i).raise 389 [w32 k, w32 i])
  , fun s => if !s.pairOn then (true, s) else s.judgeRows (s.pairRows lanes) (fun k _ t =>
      ((t.wr F.PAIR_STAT_CFG_ERR 1).wr F.PAIR_STAT_CFG_CODE k).raise 427 [w32 k])
  , fun s => if !s.on F.REC_CFG_EN then (true, s) else s.judgeRows s.recRows (fun k i t =>
      (((t.wr F.REC_STAT_CFG_ERR 1).wr F.REC_STAT_CFG_CODE k).wr F.REC_STAT_CFG_INDEX i).raise 452 [w32 k, w32 i])
  , fun s => s.judgeRows s.istRows (fun k _ t => ((t.wr F.IST_STAT_CFG_ERR 1).wr F.IST_STAT_CFG_CODE k).raise 467 [w32 k]) ]

/-- Runs checks in order up to the first that fails. -/
def State.runChecks (s : State) : List (State → Bool × State) → Bool × State
  | [] => (true, s)
  | f :: t =>
    let r := f s
    if r.1 then r.2.runChecks t else r

/-- LOCK_ERR of the lock checks (Table 1-12 step 2): 0 pass, 1 no accepted image, 2 region attributes, 3 fewer than two
Healthy lanes, 4 a block's check. -/
def State.lockErr (s : State) (lanes : Bool) : Nat × State :=
  if !s.on F.SYS_IMG_STAT_ACCEPTED then (1, s)
  else if !s.ratValid then (2, s)
  else if lanes && decide (s.usableLanes.length < 2) then (3, s)
  else
    let r := s.runChecks (blockChecks lanes)
    (if r.1 then 0 else 4, r.2)

end Machine
end Sys2Proof
end

