-- ==== Sys2Proof/Machine/DebugMode.lean ====
section
/-!
DEFINITION. Debug Mode of the lane cores (Table 4-1, R54): entering it, leaving it, and the end of debug.
-/

namespace Sys2Proof
namespace Machine

/-! ## Debug Mode -/

/-- Changes the debug module. -/
def State.dbgSet (s : State) (f : Dbg → Dbg) : State := { s with lanes := { s.lanes with dbg := f s.lanes.dbg } }

/-- dcsr of a hart: xdebugver 4 and prv M at reset. -/
def State.dcsr (s : State) (h : HartId) : Word := Sparse.get s.lanes.dbg.dcsr 0x40000003 h.val

/-- The hart is in Debug Mode. -/
def State.halted (s : State) (h : HartId) : Bool := s.lanes.dbg.halted.contains h.val

/-- A hart enters Debug Mode: dpc takes its pc, dcsr the cause and the privilege. [DESIGN CHOICE, unsafe: notes/assumptions/88.md] -/
def State.dbgHalt (s : State) (h : HartId) (cause : Nat) : State :=
  let x := s.hart h
  let w := setBits (setBits (s.dcsr h).toNat 6 3 cause) 0 2 (privCode x.priv)
  (s.dbgSet (fun d => { d with
    halted := h.val :: d.halted.filter (· != h.val), stepping := d.stepping.filter (· != h.val)
    dcsr := Sparse.insert d.dcsr h.val (w32 w), dpc := Sparse.insert d.dpc h.val x.pc })).setHart h { x with wait := .run }

/-- A hart runs one step and then halts again. -/
def State.stepping (s : State) (h : HartId) : Bool := s.lanes.dbg.stepping.contains h.val

/-- A hart leaves Debug Mode at dpc, in the privilege that dcsr names. -/
def State.dbgResume (s : State) (h : HartId) : State :=
  if !s.halted h then s
  else
    let x := s.hart h
    let step := (s.dcsr h).getLsbD 2
    (s.dbgSet (fun d => { d with
      halted := d.halted.filter (· != h.val), resumed := h.val :: d.resumed.filter (· != h.val)
      stepping := if step then h.val :: d.stepping else d.stepping })).setHart h
      { x with pc := Sparse.get s.lanes.dbg.dpc 0 h.val &&& ~~~ 1#64
               priv := if bits (s.dcsr h).toNat 0 2 = 3 then .machine else .user }

/-- EBREAK of a hart enters Debug Mode where its dcsr says so for its privilege. -/
def State.ebreakHalts (s : State) (h : HartId) : Bool :=
  (s.dcsr h).getLsbD (if (s.hart h).priv = Priv.machine then 15 else 12)

/-- Debug ends: every hart goes on where it stands (R54). [DESIGN CHOICE, unsafe: notes/assumptions/88.md] -/
def State.dbgEnd (s : State) : State := (allHarts.foldl State.dbgResume s).dbgSet (fun _ => Dbg.start)

end Machine
end Sys2Proof
end

