-- ==== Sys2Proof/Machine/Locking.lean ====
section
/-!
DEFINITION. Entry to the Operate phase for everything but the lanes (Table 1-12, steps 2 and 5).
-/

namespace Sys2Proof
namespace Machine

/-- What only a module that acts on the vehicle starts: its island links, safety blocks, cycle controllers and rack bus. [DEDUCED, unsafe: notes/assumptions/58.md; DEDUCED, unsafe: notes/assumptions/69.md] -/
def State.actStart (s : State) : State :=
  if s.acts then (s.linksGo.safLock.cycLock).rackRelease.cycOpen
  else
    let s := allTasks.foldl (fun u t => if u.taskEn t then u.taskTo t tsStopped false else u) s.rackFloat
    { s with cyc := { s.cyc with fires := [], boundary := s.boundaryTask } }

/-- The first samples of the recorder's periodic channels fall now (R521). [DESIGN CHOICE, safe: notes/assumptions/70.md] -/
def State.recStart (s : State) : State :=
  let s := s.recLock
  { s with recd := { s.recd with
      lastFlush := s.raw
      due := (List.range s.recCount).foldl (fun m c => Sparse.insert m c s.raw) [] } }

/-- The Operate phase begins: registers lock, the watcher evaluates every doorbell, engines, ports and islands start, the
FAULT relay closes and SAFE_N rises (Tables 1-12 and 2-3); the MP's debug enable clears and core debug ends (R54, R555). -/
def State.operateStart (s : State) : State :=
  let s := ((s.dbgEnd.setPhase .operate).wr F.MPX_DBG_EN 0).wr F.MPX_STAT_DBG_EN 0
  let s := { s with
    sig := { s.sig with lockNt := s.ntNs }
    pwr := { s.pwr with relay := true, safeN := true }
    ist := { s.ist with selRtc := s.pwr.rtc.toNat } }
  let s := s.ptoLock.watchAll
  ((s.crStart false).cbStartUp false).actStart.recStart

end Machine
end Sys2Proof
end

