-- ==== Sys2Proof/Machine/PairOps.lean ====
section
/-!
DEFINITION. The close records of the pair and the stages of a takeover (R493, R494, R497 to R506, R509).
-/

namespace Sys2Proof
namespace Machine

/-! ## Carried state (Table 19-5) -/

/-- Setup registers that hold carried state of the cycle engine, and of the networks: task and controller states, CYCLE, force
entries, stations; car-ring CYCLE, MCN, banks and announcement. -/
def cycCarried (off : Nat) : Bool :=
  off == Reg.CYC_FORCES || (decide (0xD0400 ≤ off) && decide (off < 0xD1400) && (off % 64 == 0x34 || off % 64 == 0x38)) ||
    (decide (0xD1400 ≤ off) && decide (off < 0xD2800) && off % 8 == 0) || (decide (0xD4000 ≤ off) && decide (off < 0xD8000))
def cbCarried (off : Nat) : Bool :=
  off == Reg.CB_MCN || off == Reg.CB_POS || off == Reg.CB_BANKS || off == Reg.CB_ID0 || off == Reg.CB_ID1 || off == Reg.CB_ANN_ID || off == Reg.CB_ACT_MCN
def netCarried (off : Nat) : Bool := (List.range 3).any (fun n => off == Reg.CR_CYCLE n) || cbCarried off

/-- Enabled datasets of mirrored partitions. -/
def State.mirrorSets (s : State) : List Nat := s.liveSets.filter (fun d => s.mirrored (BitVec.ofNat 8 (s.dsPart d)))

/-- A lock lies in the lock range of a mirrored partition. -/
def State.lockMirrored (s : State) (n : Nat) : Bool :=
  s.parts'.any (fun p => s.on (F.PE_CTL_MIRRORED p) && decide (s.rd (F.PE_LOCKS_LOCK_FIRST p) ≤ n) &&
    decide (n < s.rd (F.PE_LOCKS_LOCK_FIRST p) + s.rd (F.PE_LOCKS_LOCK_COUNT p)))

/-- The state that a close record of the last sealed Cord carries. [DEDUCED, unsafe: notes/assumptions/67.md] -/
def State.pairCarry (s : State) (switch : Bool) : Carried :=
  let c := match s.cord.sealedRec with
    | some r => r
    | none => ⟨0, s.harts, s.plic⟩
  { cord := c.num
    nt := BitVec.ofNat 64 s.ntNs
    harts := c.harts
    plic := c.plic
    streams := s.flue.streams
    rings := s.rings.ctx
    batches := s.rings.batches
    locks := s.parts.locks.filter (fun x => match x.2 with
      | .held p a _ => s.mirrored p || a == .mp
      | .abandoned => s.lockMirrored x.1
      | .free => false)
    regs := s.regs.filter (fun x => cycCarried x.1 || netCarried x.1)
    cyc := s.cyc
    dsets := s.mirrorSets.flatMap (fun d => addrBytes (s.dsAddr d + 0x1C) (s.bytes (s.dsAddr d + 0x1C) 28))
    last := (List.range 3).map (fun n => (n, (s.node n).lastHeld))
    banks := s.cb.banks
    waiting := s.tb.waiting
    switch := switch
    cmd := if switch then s.pair.switch.bind (fun x => x.cmd) else none }

/-- A seal is the switch Cord of a planned switch: READY has come, and the Cord is the next boundary Cord (Table 19-7). -/
def State.switchCord (s : State) : Bool :=
  (match s.pair.switch with
    | some x => x.stage == .ready
    | none => false) && (s.cyc.boundary.isNone || (BitVec.ofNat 10 (s.rd F.CORD_STAT_CAUSES)).getLsbD 2)

/-- The end of a seal: the close record leaves, its acknowledgement is awaited where R174 gates on it, and a switch Cord keeps
the harts stopped (R497, R498, R509). [DEDUCED, unsafe: notes/assumptions/69.md] -/
def State.pairClose (s : State) : State :=
  let k := s.rd64 Reg.CORD_LAST_LO Reg.CORD_LAST_HI
  let s := if s.pairGates then s.pairSet (fun p => { p with unacked := p.unacked ++ [(k, s.raw)] }) else s
  if !s.pairTakes then s
  else
    let sw := s.switchCord
    let s := s.pairPut (.close (s.pairCarry sw))
    if sw then
      let s := { s with lanes := { s.lanes with on := false } }
      s.pairSet (fun p => { p with switch := p.switch.map (fun x => { x with stage := .sealed k, start := s.raw }) })
    else s

/-! ## Becoming Active, Reviving and Banked (R493, R494) -/

/-- The unit becomes Active: its epoch rises above both, and the pair record says so before anything is sent or driven. -/
def State.becomeActive (s : State) : State :=
  let e := (max s.epoch s.peerEpoch + 1) % 2 ^ 64
  ((s.pairRecWrite e rlActive).setRole rlActive 0).pairSet (fun p =>
    { p with lossSeen := false, lossAt := none, staged := [], copied := false, stepFrom := none, reviveFrom := 0 })

/-- The join is over: JOINED. -/
def State.joined (s : State) : State := (s.wr F.PAIR_STAT_JOINED 1).pairSet (fun p => { p with join := none })

/-- The Pair Engine's SET_NT at the entry to Reviving, to the partner's NT (R506). -/
def State.pairSetNt (s : State) (ns : Nat) : State :=
  s.setConv s.raw (BitVec.ofInt 104 (Int.ofNat (ns * 2 ^ 40) - Int.ofNat (s.raw * s.tb.incr.toNat))) s.tb.incr

/-- Entry to Reviving: staging empty, NT set. -/
def State.revive (s : State) (ns : Nat) : State :=
  ((s.setRole rlReviving 0).pairSetNt ns).pairSet (fun p =>
    { p with staged := [], copied := false, reviveFrom := s.raw, stepFrom := none, lossAt := none })

/-- A unit that becomes Reviving in the Setup phase: its Pair Engine runs the setup checks. On a pass it enters the Operate phase
with its lanes off; on a failure it stays Fenced with LOCK_ERR. -/
def State.reviveJoin (s : State) (ns : Nat) : State :=
  let r := s.joined.lockErr false
  if r.1 = 0 then (r.2.lanesOff.revive ns).operateStart else r.2.wr F.SYS_PHASE_LOCK_ERR r.1

/-- The unit goes Active alone where R493 allows it, or stays Fenced. -/
def State.joinAlone (s : State) (force : Bool) : State :=
  let alone := s.on F.PAIR_CFG_ALONE_EN
  if force || (alone && (s.pairRecRole == rlActive || s.epoch == 0)) then s.joined.becomeActive
  else (s.joined).setRole rlFenced (if alone then 1 else 7)

/-! ## Applying a close record (R497) -/

/-- Sorts the addressed bytes into memory, one by one, with the partner's check bits. -/
def State.applyCells (s : State) (cells : List (Nat × Byte)) : State :=
  cells.foldl (fun t x => (t.eccWrite x.1 1 0x18).setByte x.1 x.2) s

/-- Destinations whose records are written to memory (Table 7-1): doorbells and Effect regions. -/
def memDest (d : BitVec 16) : Bool := decide (d.toNat < 0x8040)

/-- The Flue records staged, in entry order; a record sent again after a merge stands at its first place. -/
def stagedRecs : List PairMsg → List FlueRec → List FlueRec
  | [], acc => acc
  | .flue r :: t, acc =>
    stagedRecs t (if acc.any (fun x => x.dest == r.dest && x.seq == r.seq)
      then acc.map (fun x => if x.dest = r.dest ∧ x.seq = r.seq then r else x) else acc ++ [r])
  | _ :: t, acc => stagedRecs t acc

/-- Writes a memory-written record as its release would: an AMO works on the memory it meets. -/
def State.applyRec (s : State) (r : FlueRec) : State :=
  if !memDest r.dest then s
  else match r.kind with
    | .amo op =>
      let v := amoRun op r.size (s.le r.addr r.size) (leNat (r.bytes.map (fun x => x.2)))
      s.applyCells (addrBytes r.addr (leBytes r.size v))
    | _ => s.applyCells r.bytes

/-- Replaces the registers that satisfy p by carried ones. -/
def State.takeRegs (s : State) (p : Nat → Bool) (rs : List (Nat × Word)) : State :=
  (rs.filter (fun x => p x.1)).foldl (fun t x => t.setReg x.1 x.2) { s with regs := s.regs.filter (fun x => !p x.1) }

/-- CYCLE of a ring that this module would master stands ahead of a carried one: the partner's cycle starts were counted here. -/
def State.cycleAhead (s : State) (rs : List (Nat × Word)) (off : Nat) : Bool :=
  (List.range 3).any (fun n =>
    let d := (s.reg off - Sparse.get rs 0 off).toNat
    off == Reg.CR_CYCLE n && s.crMaster n && decide (0 < d) && decide (d < 2 ^ 16))

/-- Takes the carried state of a Cord; a backbone node that tracks sync itself keeps its own position. [DEDUCED, unsafe: notes/assumptions/67.md] -/
def State.takeCarried (s : State) (c : Carried) : State :=
  let s := s.takeRegs cycCarried c.regs
  let s := s.takeRegs (fun off => netCarried off && !((off == Reg.CB_MCN || off == Reg.CB_POS) && s.cbState == 2) && !s.cycleAhead c.regs off) c.regs
  let s := s.applyCells c.dsets
  let s := c.last.foldl (fun t x => t.setNode x.1 { t.node x.1 with lastHeld := x.2 }) s
  let s := { s with
    flue := { s.flue with streams := c.streams }
    rings := { s.rings with ctx := c.rings, batches := c.batches }
    parts := { s.parts with locks := c.locks }
    cyc := c.cyc
    cb := { s.cb with banks := c.banks }
    tb := { s.tb with waiting := c.waiting } }
  (s.wr64 Reg.PAIR_LAST_LO Reg.PAIR_LAST_HI c.cord.toNat).pairSet (fun p => { p with carried := some c, passed := [] })

/-- Applies staging up to its close record: writes in arrival order, records in entry order, then the carried state. -/
def State.applyStaged (s : State) (c : Carried) : State :=
  let st := s.pair.staged
  let s := st.foldl (fun t m => match m with
    | .write cells => t.applyCells cells
    | .fill cells => t.applyCells cells
    | _ => t) s
  let s := (stagedRecs st []).foldl State.applyRec s
  ((s.takeCarried c).pairSet (fun p => { p with staged := [] })).wr F.PAIR_STAGE_USED 0

/-! ## Takeover (R504, R505) -/

/-- Partitions that are enabled and not mirrored. -/
def State.looseParts (s : State) : List Nat := s.parts'.filter (fun p => !s.on (F.PE_CTL_MIRRORED p))

/-- A stream at a takeover: everything up to the sealed number counts as released. -/
def streamTaken (x : Stream) : Stream := ⟨x.sealedSeq, x.sealedSeq, x.sealedSeq⟩

/-- A ring evaluated by the watcher at a takeover; its DB_SEQ is its stream's number (R299, R504). -/
def State.ringTaken (s : State) (r : Nat) : State :=
  let i : RingId := BitVec.ofNat 15 r
  (s.setCtx i { s.ctx i with dbSeq := (s.stream (BitVec.ofNat 16 r)).released }).watch i .entry

/-- A ring of a partition that is not mirrored restarts: its descriptors are dropped, its numbers rise by 2^20 (R505). -/
def State.ringLoose (s : State) (r : Nat) : State :=
  let i : RingId := BitVec.ofNat 15 r
  let c := s.ctx i
  let up (x : BitVec 32) : BitVec 32 := x + 0x100000
  let x := s.stream (BitVec.ofNat 16 r)
  let s := s.setStream (BitVec.ofNat 16 r) ⟨up x.entered, up x.sealedSeq, up x.released⟩
  s.setCtx i { c with sqHead := c.sqTail, longOut := 0, dbSeq := up c.dbSeq, st := if c.en then .idle else c.st }

/-- A partition that is not mirrored restarts (R505). -/
def State.partLoose (s : State) (p : Nat) : State :=
  let s := (s.enabledRings.filter (fun r => (s.ctx (BitVec.ofNat 15 r)).part.toNat == p)).foldl State.ringLoose s
  let s := (List.range (s.rd (F.PE_LOCKS_LOCK_COUNT p))).foldl (fun t k => t.setLock (t.rd (F.PE_LOCKS_LOCK_FIRST p) + k) .abandoned) s
  if s.rd (F.CYC_PART_START p) = 0 then s else s.ctlStart p 2

/-- Locks that the failed module's MP held become abandoned. -/
def State.mpLocksGone (s : State) : State :=
  { s with parts := { s.parts with locks := s.parts.locks.map (fun x => match x.2 with
      | .held _ .mp _ => (x.1, .abandoned)
      | _ => x) } }

/-- Datasets of the write entries of the rings that the module masters, until each is published (R504). -/
def State.toPublish (s : State) : List (Nat × List Nat) :=
  ((List.range 3).filter s.crMaster).map (fun n => (n, (s.slices n 1).map (fun e => s.rd (F.CR_SLD_DSET n e))))

/-- The restore of R504 up to the start of ports, islands and rack bus; `loose` runs R505, as a planned switch does not. [DEDUCED, unsafe: notes/assumptions/67.md; DEDUCED, unsafe: notes/assumptions/69.md] -/
def State.restore (s : State) (loose : Bool) : State :=
  let s := s.becomeActive
  let s := { s with
    flue := { s.flue with recs := [], held := [], shut := false, streams := s.flue.streams.map (fun (x : Nat × Stream) => (x.1, streamTaken x.2)) }
    rings := { s.rings with hand := [], out := [] }
    ist := { s.ist with next := .a, wait := none } }
  let s := s.enabledRings.foldl State.ringTaken s
  let s := (if loose then s.looseParts.foldl State.partLoose s else s).mpLocksGone
  let s := (s.linksGo.safLock).wr F.RB_STAT_RST 0
  let s := { s with rack := { s.rack with ready := true, waitEnd := none } }
  let s := if s.cbMaster && s.cbState != 0 then s.cbToSynced.cbByLink else s
  s.pairSet (fun p => { p with
    unpub := s.toPublish.filter (fun x => x.2 != []), gapFrom := p.hbRx
    powerFrom := if p.lanesUp then p.powerFrom else some (p.powerFrom.getD s.raw) })

/-- The cold resume of a takeover begins: the harts of the last complete Cord, their timer comparisons moved to this module's
time base (R504, R506). -/
def State.takeHarts (s : State) : State :=
  let delta : DWord := BitVec.ofNat 64 (s.rd64 Reg.PAIR_RAW_DELTA_LO Reg.PAIR_RAW_DELTA_HI)
  match s.pair.carried with
  | none => s
  | some c =>
    let hs := c.harts.map (fun h => { h with dztcmp := h.dztcmp + delta })
    let s := { s with
      harts := hs
      plic := c.plic
      cord := { s.cord with sealedRec := some ⟨c.cord, hs, c.plic⟩ }
      lanes := { s.lanes with on := true, resuming := true, ready := [], fetched := [] } }
    (s.wr64 Reg.CORD_LAST_LO Reg.CORD_LAST_HI c.cord.toNat).pairSet (fun p => { p with resume := true, powerFrom := none, lanesUp := true })

/-- The cold resume of a takeover has ended: watchdogs restart, and the cycle starts that passed are raised with START_KIND 3. -/
def State.pairResumed (s : State) : State :=
  if !s.pair.resume then s
  else
    let ts := s.pair.passed
    let s := (s.pairSet (fun p => { p with resume := false, passed := [] })).cycKindle
    ts.foldl (fun t k => (t.setTask k { t.task k with next := 3 }).cycleStart k) s

/-! ## Safe steps of a planned switch -/

/-- The end of a switch command on this module. -/
def State.switchEnd (s : State) (f : Final) : State :=
  match s.pair.switch with
  | none => s
  | some x =>
    let s := s.pairSet (fun p => { p with switch := none, request := false })
    match x.cmd with
    | none => s
    | some c => s.endLong c f

/-- A switch starts on the outgoing module with its command. -/
def State.switchAsk (s : State) (cmd : Option Cmd) : State :=
  (s.pairSend .request).pairSet (fun p => { p with switch := some ⟨cmd, s.raw, .asked⟩ })

/-- The outgoing module becomes Banked: pair hold, lanes off (Table 19-7 step 9). -/
def State.handedOver (s : State) (k : Nat) : State :=
  let s := s.stopActing.setRole rlBanked 0
  (s.pairRecWrite s.epoch rlBanked).raise 425 [w32 k]

end Machine
end Sys2Proof
end

