-- ==== Sys2Proof/Machine/PairLink.lean ====
section
/-!
DEFINITION. The commands and events of the Pair Engine (chapter 19).
-/

namespace Sys2Proof
namespace Machine

/-- The Pair Engine runs: a pair is configured, the module is in the Setup or Operate phase and not in the safe state. -/
def State.pairRuns (s : State) : Bool := s.pairOn && (s.setupPhase || s.operate) && !s.safe

/-! ## Joining (R493) -/

/-- A write to PAIR_JOIN: the key starts the join; FORCE counts only from the MP. -/
def pairJoin (who : Requester) (w : Word) (s : State) : State :=
  if s.phase = Phase.setup ∧ s.pairOn ∧ bits w.toNat 0 16 = 0x504A ∧ s.on F.PAIR_STAT_JOINED = false ∧ s.pair.join = none then
    s.pairSet (fun p => { p with join := some (s.raw, w.getLsbD 16 && byMp who) })
  else s

/-- JOIN_TMO × 10 ms have passed since the key and no partner has been heard. -/
def pairJoinTimeout (s : State) : State :=
  match s.pair.join with
  | none => s
  | some (r, force) =>
    if s.pairRuns && !s.on F.PAIR_STAT_PEER && reached s.raw (r + s.rd F.PAIR_CFG_JOIN_TMO * 10 * rawPerMs) then s.joinAlone force else s

/-! ## The link (R500, R502) -/

/-- A lane of the link goes up or down. -/
def pairLinkLane (lane : Fin 2) (up : Bool) (s : State) : State :=
  let f := if lane = 0 then F.PAIR_STAT_LANE0 else F.PAIR_STAT_LANE1
  if !s.pairRuns || s.on f == up then s
  else
    let s := ((s.wr f (b2n up)).raise 422 [w32 (lane.val + 256 * b2n up)]).mpIrq 5
    if s.role = rlReviving ∧ s.pairLink = false then s.pairFence 6 else s

/-- The major steps of SOC_STEP and ISL_STEP (R556). -/
def State.majorSteps (s : State) : Byte := BitVec.ofNat 8 (s.rd F.SYS_STEP_SOC_STEP / 16 * 16 + s.rd F.SYS_STEP_ISL_STEP / 16)

/-- The heartbeat that the module sends now. [DEDUCED, unsafe: notes/assumptions/69.md] -/
def State.heartbeat (s : State) : Heartbeat :=
  { role := BitVec.ofNat 2 s.role, epoch := BitVec.ofNat 64 s.epoch, last := BitVec.ofNat 64 s.pairLast, img := s.reg Reg.SYS_IMG_ID
    prefer := s.on F.SYS_STRAP_PREFER, joining := s.pair.join.isSome, request := s.pair.request, steps := s.majorSteps, nt := BitVec.ofNat 64 s.ntNs, raw := s.tb.raw
    noack := s.pair.noack }

/-- 100 µs have passed since the last heartbeat. -/
def pairHeartbeatTx (s : State) : State :=
  if s.pairRuns && s.pairLink && reached s.raw (s.pair.hbTx + 100 * rawPerUs) then
    (s.pairSend (.heartbeat s.heartbeat)).pairSet (fun p => { p with hbTx := s.raw })
  else s

/-- The partner has the same image and the same major steps (R493, R556). -/
def State.sameImage (s : State) (h : Heartbeat) : Bool := h.img != 0 && h.img == s.reg Reg.SYS_IMG_ID && h.steps == s.majorSteps

/-- What a heartbeat says of the partner: registers, missed heartbeats, and the PREFER unit by R60 when it is first heard. [DEDUCED, unsafe: notes/assumptions/69.md] -/
def State.hearPeer (s : State) (h : Heartbeat) : State :=
  let first := !s.on F.PAIR_STAT_PEER
  let own := s.on F.SYS_STRAP_PREFER
  let missed := match s.pair.hbRx with
    | none => 0
    | some r => (s.raw - r + 25000) / 50000 - 1
  let s := (s.satAdd F.PAIR_CNT_HB_MISS (if first then 0 else missed)).wr F.PAIR_STAT_PEER 1
  let s := (s.wr F.PAIR_STAT_PEER_ROLE h.role.toNat).wr64 Reg.PAIR_PEER_EPOCH_LO Reg.PAIR_PEER_EPOCH_HI h.epoch.toNat
  let s := s.pairSet (fun p => { p with hbRx := some s.raw, peerImg := h.img, peerPrefer := h.prefer, peerJoins := h.joining })
  if first && own == h.prefer then (s.wr F.PAIR_STAT_PREFER_UNIT (b2n (s.rd F.SYS_STRAP_SLOT_ID % 2 == 0))).strapEvent
  else if first then s.wr F.PAIR_STAT_PREFER_UNIT (b2n own) else s

/-- The partner's role has changed, as the Active module answers it: a new copy for one that revives, in step with one newly
Banked, out of step with one that was Banked and has fenced itself (R498, R501). [DEDUCED, unsafe: notes/assumptions/69.md] -/
def State.peerMoved (s : State) (old new : Nat) : State :=
  if old = new ∨ s.role ≠ rlActive then s
  else if new = rlReviving then (s.raise 420 [s.reg Reg.PAIR_PEER_EPOCH_LO]).pairSet (fun p => { p with copy := some (0, 0) })
  else if new = rlBanked then (s.wr F.PAIR_STAT_OUT_OF_STEP 0).pairSet (fun p => { p with noack := none })
  else if old = rlBanked ∧ new = rlFenced ∧ s.on F.PAIR_STAT_OUT_OF_STEP = false then (s.wr F.PAIR_STAT_OUT_OF_STEP 1).raise 421 [w32 2]
  else s

/-- NT of the partner now: its stamp and half the link's measured round trip. -/
def hbNt (h : Heartbeat) (trip : Nat) : Nat := h.nt.toNat + trip / 2

/-- Steering to the Active's NT: the deviation is shown, INCR set by the Pair Engine's own rule, and the difference of the two
TB_RAW at one NT taken (R506). [DESIGN CHOICE, safe: notes/assumptions/68.md] -/
def State.pairSteer (s : State) (h : Heartbeat) (trip : Nat) : State :=
  let n := hbNt h trip
  let dev := min (if s.ntNs < n then n - s.ntNs else s.ntNs - n) 65535
  let s := (s.wr F.PAIR_NT_DEV_LAST dev).peak F.PAIR_NT_DEV_MAX dev
  let d := s.draw
  let incr := incrMin + d.1.toNat % (incrMax - incrMin + 1)
  let s := d.2
  let ofs := Int.ofNat (s.tb.ofs.toNat + s.raw * s.tb.incr.toNat) - Int.ofNat (s.raw * incr)
  let s := s.setConv s.raw (BitVec.ofInt 104 ofs) (BitVec.ofNat 48 incr)
  s.wr64 Reg.PAIR_RAW_DELTA_LO Reg.PAIR_RAW_DELTA_HI ((s.raw + 2 ^ 64 - (h.raw.toNat + trip / 4) % 2 ^ 64) % 2 ^ 64)

/-- The join decided on the partner's heartbeat (R493). -/
def State.joinHeard (s : State) (h : Heartbeat) (trip : Nat) (force : Bool) : State :=
  if !s.sameImage h then (s.joined).setRole rlFenced 4
  else if h.role.toNat = rlActive then s.reviveJoin (hbNt h trip)
  else if h.joining then
    (if h.epoch.toNat < s.epoch ∨ (h.epoch.toNat = s.epoch ∧ s.on F.PAIR_STAT_PREFER_UNIT) then s.joined.becomeActive
     else s.reviveJoin (hbNt h trip))
  else if force then s.joinAlone true else s

/-- The two-wire loops of the outgoing module open when the partner is heard Active in a planned switch (R509). -/
def State.loopsOpen (s : State) : State := ((List.range 32).map (24 + ·)).foldl State.linkPairHold s

/-- The partner is out of step here: PAIR_OUT_OF_STEP with its reason, and Fenced. -/
def State.stepLost (s : State) (why : Nat) : State :=
  (s.raise 421 [w32 why]).pairFence (if s.role = rlBanked then 2 else 6)

/-- The partner has released records of a Cord that this module has not applied: it may not go Active before it has
resynchronised (R186). -/
def State.behind (s : State) (h : Heartbeat) : Bool :=
  match h.noack with
  | none => false
  | some k => s.role == rlBanked && decide (s.pairLast < k.toNat)

/-- What the role makes of a heartbeat (Table 19-3, R506, R509). -/
def State.roleHears (s : State) (h : Heartbeat) (trip : Nat) : State :=
  if s.role = rlReviving ∧ h.role.toNat ≠ rlActive then s.pairFence 6
  else if s.behind h then s.stepLost 1
  else if s.role = rlReviving ∨ (s.role = rlBanked ∧ s.pair.lossAt.isNone) then s.pairSteer h trip
  else if s.role = rlFenced ∧ s.operate ∧ h.role.toNat = rlActive ∧ s.sameImage h then s.revive (hbNt h trip)
  else match s.pair.switch with
    | some ⟨_, _, .sealed _⟩ => if s.role = rlActive ∧ h.role.toNat = rlActive then s.loopsOpen else s
    | _ => s

/-- A valid heartbeat arrives; `trip` is the link's measured round trip in ns. [DESIGN CHOICE, safe: notes/assumptions/68.md] -/
def pairHeartbeatRx (h : Heartbeat) (trip : Nat) (s : State) : State :=
  if !(s.pairRuns && s.pairLink) then s
  else
    let old := s.rd F.PAIR_STAT_PEER_ROLE
    let s := ((s.hearPeer h).peerMoved old h.role.toNat).mpIrq 5
    match s.pair.join with
    | some (_, force) => s.joinHeard h trip force
    | none => s.roleHears h trip

/-! ## Heartbeat loss and takeover (R502 to R504) -/

/-- A takeover is confirmed: restore, PAIR_TAKEOVER with the Cord, the epoch and the gap so far. -/
def State.takeOver (s : State) : State :=
  let k := s.pairLast
  let s := (s.restore true).satAdd F.PAIR_CNT_TAKEOVERS 1
  let d := s.draw
  let s := d.2.raise 418 [w32 k, w32 s.epoch, w32 (d.1.toNat % 2 ^ 16)]
  if s.pair.lanesUp then s.takeHarts else s

/-- 510 µs have passed without a valid heartbeat. [DEDUCED, unsafe: notes/assumptions/66.md] -/
def pairHbLoss (s : State) : State :=
  match s.pair.hbRx with
  | none => s
  | some r =>
    if !(s.pairRuns && s.on F.PAIR_STAT_PEER && reached s.raw (r + 510 * rawPerUs)) then s
    else
      let s := (s.wr F.PAIR_STAT_PEER 0).satAdd F.PAIR_CNT_HB_MISS 5
      if s.role = rlBanked then
        let s := (s.raise 417 [w32 s.pairLast]).pairSet (fun p =>
          { p with staged := [], lossAt := some s.raw, powerFrom := some (p.powerFrom.getD s.raw), stepFrom := none })
        let s := s.wr F.PAIR_STAGE_USED 0
        if s.cbRole = 0 then s.takeOver else s
      else if s.role = rlActive then (s.raise 419 []).pairSet (fun p => { p with lossSeen := true })
      else if s.role = rlReviving then s.pairFence 6
      else s

/-- PRES_WAIT has passed since a heartbeat loss without a frame of the partner. -/
def pairPresWaitEnd (s : State) : State :=
  match s.pair.lossAt with
  | none => s
  | some r => if s.pairRuns && s.role == rlBanked && reached s.raw (r + s.rd F.PAIR_CFG_PRES_WAIT * 10 * rawPerUs) then s.takeOver else s

/-- A lane power-up ends: a module that has taken over resumes its harts, one asked to switch reports READY. [DESIGN CHOICE, safe: notes/assumptions/68.md] -/
def pairTakeoverResume (s : State) : State :=
  if !s.pairRuns || s.pair.powerFrom.isNone || s.lanes.on then s
  else if s.role = rlActive then s.takeHarts
  else
    let s := s.pairSet (fun p => { p with powerFrom := none, lanesUp := true })
    match s.pair.switch with
    | some ⟨_, _, .powering⟩ => (s.pairSend .ready).pairSet (fun p => { p with switch := p.switch.map (fun x => { x with stage := .up }) })
    | _ => s

/-! ## Mirror traffic (R497 to R501) -/

/-- Bytes staged. -/
def State.stagedBytes (s : State) : Nat := (s.pair.staged.map PairMsg.size).sum

/-- Staging is shown in units of 64 KiB, and 256 MiB of it is out of step. -/
def State.stageShow (s : State) : State :=
  let n := (s.stagedBytes + 65535) / 65536
  let s := (s.wr F.PAIR_STAGE_USED n).peak F.PAIR_STAGE_PEAK n
  if 0x10000000 ≤ s.stagedBytes then s.stepLost 3 else s

/-- The module stages mirror traffic. -/
def State.pairStages (s : State) : Bool := s.pairRuns && (s.role == rlReviving || s.role == rlBanked) && s.pair.lossAt.isNone

/-- Mirror traffic arrives: staged in arrival order; a time-base command waits for its NT. -/
def pairMirrorRx (m : PairMsg) (s : State) : State :=
  if !s.pairStages then s
  else match m with
    | .write _ => (s.pairSet (fun p => { p with staged := p.staged ++ [m] })).stageShow
    | .fill _ => (s.pairSet (fun p => { p with staged := p.staged ++ [m] })).stageShow
    | .flue _ => (s.pairSet (fun p => { p with staged := p.staged ++ [m] })).stageShow
    | .copied => s.pairSet (fun p => { p with copied := true })
    | .time c => ({ s with tb := { s.tb with waiting := some c } }).wr F.TB_STAT_CMD_BUSY 1
    | .discard => s
    | .close _ => s

/-- A line of the catch-up copy. -/
def PairMsg.isFill : PairMsg → Bool
  | .fill _ => true
  | _ => false

/-- The discard mark: every write and Flue record staged since the last close record is dropped; lines of the catch-up copy stay. -/
def pairDiscardRx (s : State) : State :=
  if !s.pairStages then s
  else (s.pairSet (fun p => { p with staged := p.staged.filter PairMsg.isFill })).stageShow

/-- Reviving ends (R494, R501): Banked, with the partner's epoch; PAIR_CATCHUP_DONE with the time it took in ms. -/
def State.revived (s : State) : State :=
  let ms := min ((s.raw - s.pair.reviveFrom) / rawPerMs) (2 ^ 32 - 1)
  let s := (s.setRole rlBanked 0).pairRecWrite s.peerEpoch rlBanked
  (s.raise 426 [w32 ms]).pairSet (fun p => { p with copied := false, stepFrom := some s.raw })

/-- The switch Cord's restore on the incoming module: Active, harts from the Cord, and the command's final record. -/
def State.switchTaken (s : State) (c : Carried) : State :=
  let s := (s.restore false).takeHarts
  let s := s.pairSet (fun p => { p with switch := none, request := false })
  match c.cmd with
  | none => s
  | some d =>
    let x := s.ctx d.ring
    let s := s.setCtx d.ring { x with longOut := x.longOut - 1 }
    s.complete d stOK true 0 [w32 c.cord.toNat, w32 s.epoch]

/-- A close record arrives; `valid` says that it is whole. -/
def pairCloseRx (c : Carried) (valid : Bool) (s : State) : State :=
  if !s.pairStages then s
  else if !valid || (s.role == rlBanked && c.cord.toNat != (s.pairLast + 1) % 2 ^ 64) then s.stepLost 2
  else
    let copied := s.pair.copied
    let s := (s.applyStaged c).pairSend (.closeAck c.cord)
    let s := if s.role = rlReviving ∧ copied then s.revived else s
    if c.switch && s.role == rlBanked && s.pair.lanesUp then s.switchTaken c else s

/-- The partner acknowledges a close record: the records of its Cord and of earlier ones are released (R174, R498). -/
def pairCloseAckRx (k : Nat) (s : State) : State :=
  if !(s.pairRuns && s.role == rlActive) then s
  else
    let s := s.pairSet (fun p => { p with unacked := p.unacked.filter (fun x => decide (k < x.1)) })
    { s with flue := { s.flue with recs := s.flue.recs.map (fun r => match r.mirrorWait with
        | some n => if n ≤ k then { r with mirrorWait := none } else r
        | none => r) } }

/-- A car-ring copy of the partner's channel passes: out of the own OUT port, or back over the link (R488). -/
def pairCopyRelay (n : Fin 3) (back : Bool) (f : List Byte) (ok : Bool) (s : State) : State :=
  if !(s.pairRuns && s.operate && s.pairLink) || s.role == rlActive || s.role == rlFenced then s
  else if back then s.pairSend (.copy n true f ok)
  else s.portSend (4 * n.val + 2 * s.ownChan) f ok

/-! ## Planned switch (R509 to R513) -/

/-- Checks of a PAIR_SWITCH when it is taken. -/
def State.switchFails (s : State) (c : Cmd) : Option Final :=
  let x := s.ctx c.ring
  if !c.headerOk || c.fld 8 1 31 != 0 || !c.zeroFrom 0xC then some finBad
  else if !x.mp && x.part.toNat != s.rd F.PAIR_CFG_SW_PART then some finNotOwner
  else if c.fld 8 0 1 = 1 then some ⟨stOK, 1, []⟩
  else if !(s.pairGates && s.on F.PAIR_STAT_PEER) || s.pair.switch.isSome then some ⟨stPortNotReady, 0, []⟩
  else none

/-- PAIR_SWITCH: the request goes to the partner and is pending until its acknowledgement. -/
def pairSwitch (s : State) : State :=
  s.doLong 0x18 0x10 (fun c t => (t.switchAsk (some c)).pairSet (fun p => { p with request := true }))

/-- The incoming module powers its lanes for a switch, or has them up and is ready (Table 19-7 step 2); `m` goes to the partner
while they power up. -/
def State.switchPowers (s : State) (m : Option PairCtl) : State :=
  if s.pair.lanesUp then
    (s.pairSend .ready).pairSet (fun p => { p with switch := some ⟨none, s.raw, .up⟩, request := false, powerFrom := none })
  else
    let s := match m with
      | some c => s.pairSend c
      | none => s
    s.pairSet (fun p => { p with switch := some ⟨none, s.raw, .powering⟩, request := false, powerFrom := some (p.powerFrom.getD s.raw) })

/-- The partner's switch request, or its acknowledgement of the own one, arrives. Of crossed requests the PREFER unit's proceeds:
once acknowledged it goes on from step 2 of Table 19-7 (R511). -/
def pairSwitchRequestRx (ack : Bool) (s : State) : State :=
  if !s.pairRuns then s
  else if ack then
    if s.pair.request && s.role == rlBanked then s.switchPowers none else s.pairSet (fun p => { p with request := false })
  else if s.pair.request && s.on F.PAIR_STAT_PREFER_UNIT then s
  else
    let s := if s.pair.request then s.switchEnd ⟨stLostArb, 0, []⟩ else s
    if s.role = rlBanked then s.switchPowers (some .grant)
    else
      let s := s.pairSend .grant
      if s.role == rlActive && s.pairGates && s.pair.switch.isNone then s.pairSet (fun p => { p with switch := some ⟨none, s.raw, .asked⟩ })
      else s

/-- READY arrives: the next boundary Cord is the switch Cord. -/
def pairReadyRx (s : State) : State :=
  match s.pair.switch with
  | some ⟨c, r, .asked⟩ => if s.role = rlActive then s.pairSet (fun p => { p with switch := some ⟨c, r, .ready⟩, request := false }) else s
  | _ => s

/-- READY has not arrived within 10 ms. On an incoming module that has not sent it the lanes power off again. -/
def pairSwitchTimeout (s : State) : State :=
  match s.pair.switch with
  | none => s
  | some x =>
    if !(s.pairRuns && reached s.raw (x.start + 10 * rawPerMs)) then s
    else if s.role = rlActive then (if x.stage = .asked then s.switchEnd ⟨stTimeout, 0, []⟩ else s)
    else if x.stage = .powering then s.pairSet (fun p => { p with switch := none, powerFrom := none, lanesUp := false })
    else s

/-- The handover ends: every island of an output mask has its first commit on the incoming module (`done`), or 100 ms have
passed. The outgoing module becomes Banked. -/
def pairSwitchHandoverEnd (done : Bool) (s : State) : State :=
  match s.pair.switch with
  | some ⟨_, r, .sealed k⟩ =>
    if s.role = rlActive ∧ s.rd F.PAIR_STAT_PEER_ROLE = rlActive ∧ (done ∨ reached s.raw (r + 100 * rawPerMs)) then s.handedOver k else s
  | _ => s

/-- A PREFER unit with REVERT = 1 has been Banked and in step for 10 s: it asks for the Active role (R510). -/
def pairRevertTimer (s : State) : State :=
  match s.pair.stepFrom with
  | none => s
  | some r =>
    if s.pairRuns && s.role == rlBanked && s.on F.PAIR_CFG_REVERT && s.on F.PAIR_STAT_PREFER_UNIT && !s.pair.request &&
        s.pair.switch.isNone && reached s.raw (r + 10000 * rawPerMs) then
      (s.pairSend .request).pairSet (fun p => { p with request := true, stepFrom := some s.raw })
    else s

/-- PAIR_STATUS: 44 bytes of registers in order; the other 20 bytes are free values. [DESIGN CHOICE, safe: notes/assumptions/68.md] -/
def runPairStatus (c : Cmd) (s : State) : State × Final :=
  let a := c.addr 0x10
  if !c.headerOk || c.word 8 != 0 || c.word 0xC != 0 || c.fld 0x10 0 6 != 0 || c.fld 0x14 8 24 != 0 || !c.zeroFrom 0x18 then (s, finBad)
  else if !s.engineMayWrite a 64 then (s, finBad)
  else
    let regs := [Reg.PAIR_STAT, Reg.PAIR_EPOCH_LO, Reg.PAIR_EPOCH_HI, Reg.PAIR_PEER_EPOCH_LO, Reg.PAIR_PEER_EPOCH_HI, Reg.PAIR_LAST_LO,
      Reg.PAIR_LAST_HI, Reg.PAIR_MIRROR, Reg.PAIR_STAGE, Reg.PAIR_CNT, Reg.PAIR_NT_DEV]
    let d := s.freeBytes 20
    (d.2.outBuf c a (wordBytes (regs.map s.reg) ++ d.1), finOk [])
def pairStatus (s : State) : State := s.doShort 0x18 0x11 runPairStatus

/-- A write to PAIR_CLR: bit 0 clears PAIR_CNT and every PEAK and MAX. -/
def pairClr (_who : Requester) (w : Word) (s : State) : State :=
  if w.getLsbD 0 then (((s.setReg Reg.PAIR_CNT 0).wr F.PAIR_MIRROR_PEAK 0).wr F.PAIR_STAGE_PEAK 0).wr F.PAIR_NT_DEV_MAX 0 else s

/-! ## The clock's part (R500, R501): called by the time-base tick -/

/-- Bytes that one tick of 2 ns earns, in fifths: 16 with both lanes up, 8 with one. -/
def State.pairEarns (s : State) : Nat :=
  8 * (b2n (s.on F.PAIR_STAT_LANE0) + b2n (s.on F.PAIR_STAT_LANE1))

/-- The next line of the catch-up copy leaves, or the copy ends. -/
def State.copyLine (s : State) : State :=
  match s.pair.copy with
  | none => s
  | some (i, k) =>
    match s.mranges[i]? with
    | none => (s.pairSet (fun p => { p with copy := none })).pairPut .copied
    | some n =>
      let a := (s.mrPages n).1 * 4096 + 64 * k
      let s := s.pairPut (.fill (addrBytes a (s.bytes a 64)))
      s.pairSet (fun p => { p with copy := some (if k + 1 < 64 * (s.mrPages n).2 then (i, k + 1) else (i + 1, 0)) })

/-- RATE over windows of 10 ms, in MB/s. [DEDUCED, unsafe: notes/assumptions/67.md] -/
def State.rateShow (s : State) : State :=
  if reached s.raw (s.pair.rateFrom + 10 * rawPerMs) then
    let r := min (s.pair.sentBytes / 10000) 65535
    ((s.wr F.PAIR_MIRROR_RATE r).peak F.PAIR_MIRROR_PEAK r).pairSet (fun p => { p with sentBytes := 0, rateFrom := s.raw })
  else s

/-- One tick of the mirror link: the budget earned, the oldest message sent when it is covered, the copy where nothing waits. [DESIGN CHOICE, unsafe: notes/assumptions/1.md] -/
def State.pairTick (s : State) : State :=
  if !s.pairTakes then s
  else
    let s := if s.pair.out = [] then s.copyLine else s
    match s.pair.out with
    | [] => (s.pairSet (fun p => { p with credit := 0 })).rateShow
    | m :: t =>
      let c := s.pair.credit + s.pairEarns
      let n := PairMsg.size m
      (if 5 * n ≤ c then
        (s.pairSet (fun p => { p with out := t, credit := c - 5 * n, sentBytes := p.sentBytes + n })).pairThrottle
       else s.pairSet (fun p => { p with credit := c })).rateShow

/-! ## Meanings -/

/-- The effect of PAIR_JOIN. -/
def execPairJoin (who : Requester) (w : Word) (s : State) : Host.Outcome State Fault Refusal :=
  .next (s.arrive who Reg.PAIR_JOIN w (fun t => pairJoin who w t))
/-- The effect of PAIR_JOIN_TIMEOUT. -/
def execPairJoinTimeout (s : State) : Host.Outcome State Fault Refusal := .next (pairJoinTimeout s)
/-- The effect of PAIR_LINK_LANE. -/
def execPairLinkLane (lane : Fin 2) (up : Bool) (s : State) : Host.Outcome State Fault Refusal :=
  .next (pairLinkLane lane up s)
/-- The effect of PAIR_HEARTBEAT_TX. -/
def execPairHeartbeatTx (s : State) : Host.Outcome State Fault Refusal := .next (pairHeartbeatTx s)
/-- The effect of PAIR_HEARTBEAT_RX. -/
def execPairHeartbeatRx (h : Machine.Heartbeat) (trip : Nat) (s : State) : Host.Outcome State Fault Refusal :=
  .next (pairHeartbeatRx h trip s)
/-- The effect of PAIR_HB_LOSS. -/
def execPairHbLoss (s : State) : Host.Outcome State Fault Refusal := .next (pairHbLoss s)
/-- The effect of PAIR_PRES_WAIT_END. -/
def execPairPresWaitEnd (s : State) : Host.Outcome State Fault Refusal := .next (pairPresWaitEnd s)
/-- The effect of PAIR_TAKEOVER_RESUME. -/
def execPairTakeoverResume (s : State) : Host.Outcome State Fault Refusal := .next (pairTakeoverResume s)
/-- The effect of PAIR_MIRROR_RX. -/
def execPairMirrorRx (m : Machine.PairMsg) (s : State) : Host.Outcome State Fault Refusal := .next (pairMirrorRx m s)
/-- The effect of PAIR_DISCARD_RX. -/
def execPairDiscardRx (s : State) : Host.Outcome State Fault Refusal := .next (pairDiscardRx s)
/-- The effect of PAIR_CLOSE_RX. -/
def execPairCloseRx (c : Machine.Carried) (valid : Bool) (s : State) : Host.Outcome State Fault Refusal :=
  .next (pairCloseRx c valid s)
/-- The effect of PAIR_CLOSE_ACK_RX. -/
def execPairCloseAckRx (k : Nat) (s : State) : Host.Outcome State Fault Refusal := .next (pairCloseAckRx k s)
/-- The effect of PAIR_COPY_RELAY. -/
def execPairCopyRelay (n : Fin 3) (back : Bool) (f : List Byte) (ok : Bool) (s : State) : Host.Outcome State Fault Refusal :=
  .next (pairCopyRelay n back f ok s)
/-- The effect of PAIR_SWITCH. -/
def execPairSwitch (s : State) : Host.Outcome State Fault Refusal := .next (pairSwitch s)
/-- The effect of PAIR_SWITCH_REQUEST_RX. -/
def execPairSwitchRequestRx (ack : Bool) (s : State) : Host.Outcome State Fault Refusal :=
  .next (pairSwitchRequestRx ack s)
/-- The effect of PAIR_READY_RX. -/
def execPairReadyRx (s : State) : Host.Outcome State Fault Refusal := .next (pairReadyRx s)
/-- The effect of PAIR_SWITCH_TIMEOUT. -/
def execPairSwitchTimeout (s : State) : Host.Outcome State Fault Refusal := .next (pairSwitchTimeout s)
/-- The effect of PAIR_SWITCH_HANDOVER_END. -/
def execPairSwitchHandoverEnd (done : Bool) (s : State) : Host.Outcome State Fault Refusal :=
  .next (pairSwitchHandoverEnd done s)
/-- The effect of PAIR_REVERT_TIMER. -/
def execPairRevertTimer (s : State) : Host.Outcome State Fault Refusal := .next (pairRevertTimer s)
/-- The effect of PAIR_STATUS. -/
def execPairStatus (s : State) : Host.Outcome State Fault Refusal := .next (pairStatus s)
/-- The effect of PAIR_CLR. -/
def execPairClr (who : Requester) (w : Word) (s : State) : Host.Outcome State Fault Refusal :=
  .next (s.arrive who Reg.PAIR_CLR w (fun t => pairClr who w t))

end Machine
end Sys2Proof
end

