-- ==== Sys2Proof/Machine/SetupRW.lean ====
section
/-!
DEFINITION. Reads and writes of setup registers (R8, R11, R19, R30, R563, R564, R568, R571): the registers with an effect of
their own, and every other by its field types.
-/

namespace Sys2Proof
namespace Machine

/-! ## Writes by field types -/

/-- The requester may write a row's fields. -/
def mayWrite (r : RegRow) (who : Requester) : Bool :=
  match r.who with
  | .any => true
  | .lane => byLane who
  | .mp => byMp who

/-- A register's word after a write by its field types: RW stored, RWL stored in the Setup phase only, W1C cleared, W1S
set, RO and WO unchanged (R11). -/
def typedWrite (r : RegRow) (unlocked : Bool) (old w : Word) : Word :=
  let st := if unlocked then r.rw ||| r.rwl else r.rw
  (((old &&& ~~~ st) ||| (w &&& st)) &&& ~~~ (w &&& r.w1c)) ||| (w &&& r.w1s)

/-- A write by the field types of the register at an offset; an unused offset takes none (R19). -/
def State.plainWrite (s : State) (who : Requester) (off : Nat) (w : Word) : State :=
  match regRow off with
  | none => s
  | some r => if mayWrite r who then s.setReg off (typedWrite r (!s.operate) (s.reg off) w) else s

/-- A write to an RWL field by the lane complex or the MP after an image is accepted (R571). -/
def State.imgTouched (s : State) (who : Requester) (off : Nat) : State :=
  match regRow off with
  | none => s
  | some r =>
    if (byLane who || byMp who) && r.rwl != 0 && mayWrite r who && s.setupPhase && s.on F.SYS_IMG_STAT_ACCEPTED then
      (s.wr F.SYS_IMG_STAT_MODIFIED 1).setReg Reg.SYS_IMG_ID 0
    else s

/-! ## Requests of the SYS block (R29, R567) -/

/-- The key that requests SETUP_LOCK, from the lane complex in the Setup phase. -/
def State.locks (s : State) (who : Requester) (off : Nat) (w : Word) : Bool :=
  s.phase == .setup && off == Reg.SYS_LOCK && byLane who && bits w.toNat 0 16 == 0x4C4B

/-- A write to SYS_LOCK as it reaches the SYS block: the key starts the lock checks. -/
def State.lockWrite (s : State) (who : Requester) (w : Word) : State :=
  if s.locks who Reg.SYS_LOCK w then s.setPhase .locking else s

/-- IMG_LOAD_START: a write to SYS_IMG_CMD; the key starts a load unless one runs. [DEDUCED, unsafe: notes/assumptions/76.md] -/
def imgLoadStart (_who : Requester) (w : Word) (s : State) : State :=
  if s.phase = Phase.setup ∧ s.on F.SYS_IMG_STAT_BUSY = false ∧ bits w.toNat 0 16 = 0x494C then
    let s := ((s.wr F.SYS_IMG_STAT_BUSY 1).wr F.SYS_IMG_STAT_ACCEPTED 0).wr F.SYS_IMG_STAT_MODIFIED 0
    (s.wr F.SYS_IMG_STAT_ERR 0).setReg Reg.SYS_IMG_ID 0
  else s

/-! ## Writes by block -/

/-- SYS and PWR. -/
def State.writeSys (s : State) (who : Requester) (off : Nat) (w : Word) : State :=
  if off = Reg.SYS_LOCK then s.lockWrite who w
  else if off = Reg.SYS_RESET then sysReset who w s
  else if off = Reg.SYS_BOOT then sysBootConfirm who w s
  else if off = Reg.SYS_CLK then sysClkWrite who w s
  else if off = Reg.SYS_IMG_CMD then imgLoadStart who w s
  else if off = Reg.PWR_PL then pwrPlWrite who w s
  else if off = Reg.PWR_MPWAKE then pwrMpwake who w s
  else s.plainWrite who off w

/-- LANE, CORD with the Flue, and RING. -/
def State.writeCore (s : State) (who : Requester) (off : Nat) (w : Word) : State :=
  if off = Reg.LANE_ECC then laneEccClr who w s
  else if off = Reg.LANE_SAFE then laneSafe who w s
  else if off = Reg.CORD_CLR then cordClr who w s
  else if off = Reg.FLUE_CLR then flueClr who w s
  else if off = Reg.RING_CMD then
    (match bits w.toNat 0 2 with
      | 1 => ringCtxRead s
      | 2 => ringCtxWrite s
      | _ => s)
  else s.plainWrite who off w

/-- PART. -/
def State.writePart (s : State) (who : Requester) (off : Nat) (w : Word) : State :=
  if off = Reg.PART_ABANDON then partAbandon who w s
  else if off = Reg.PART_MON_CLR then partMonClr who w s
  else if Reg.LOCK 0 ≤ off ∧ off ≤ Reg.LOCK 1023 then lockRelease who (Fin.ofNat 1024 ((off - Reg.LOCK 0) / 4)) w s
  else s.plainWrite who off w

/-- The generator whose control, target or period register lies at an offset. -/
def ptoAt (off : Nat) : Option (Fin 16) :=
  if Reg.PTO_CTL 0 ≤ off ∧ off < Reg.PTO_CTL 16 ∧ (off - Reg.PTO_CTL 0) % 0x20 ≤ 0x10 then
    some (Fin.ofNat 16 ((off - Reg.PTO_CTL 0) / 0x20))
  else none

/-- TB: commands and their staging words; a Setup-phase write to a generator re-arms it (R271). -/
def State.writeTb (s : State) (who : Requester) (off : Nat) (w : Word) : State :=
  if off = Reg.TB_CMD then s.tbCmdWrite who w
  else if Reg.TB_W0 ≤ off ∧ off < Reg.TB_CMD then s.tbStage who off w
  else
    let t := s.plainWrite who off w
    match ptoAt off with
    | some n => ptoSetupRearm n t
    | none => t

/-- CR, CB, SIG, GW and RB. -/
def State.writeNet (s : State) (who : Requester) (off : Nat) (w : Word) : State :=
  if off = Reg.CR_CLR 0 then crClr 0 who w s
  else if off = Reg.CR_CLR 1 then crClr 1 who w s
  else if off = Reg.CR_CLR 2 then crClr 2 who w s
  else if off = Reg.CB_CLR then cbClr who w s
  else if off = Reg.CB_BANK_DATA then cbBankDataWrite who w s
  else if off = Reg.SIG_CLR then sigClr who w s
  else if off = Reg.GW_CLR then gwClr who w s
  else if off = Reg.RB_CLR then rbClr who w s
  else s.plainWrite who off w

/-- CYC, FLD and SAF. CYC_TASK_END acts only through the Flue (R389). -/
def State.writeField (s : State) (who : Requester) (off : Nat) (w : Word) : State :=
  if off = Reg.CYC_CLR then cycClr who w s
  else if off = Reg.FLD_CLR then fldClr who w s
  else if off = Reg.FLD_AI_SYNC_STAT then fldAiSyncStatClr who w s
  else if off = Reg.SAF_CLR then safClr who w s
  else s.plainWrite who off w

/-- PAIR, REC and IST. -/
def State.writePair (s : State) (who : Requester) (off : Nat) (w : Word) : State :=
  if off = Reg.PAIR_JOIN then pairJoin who w s
  else if off = Reg.PAIR_CLR then pairClr who w s
  else if off = Reg.REC_NOTE_CMD then recNoteCmd who w s
  else if off = Reg.REC_CLR then recClr who w s
  else if off = Reg.IST_CLR then istClr who w s
  else s.plainWrite who off w

/-- MPX. MPX_DBG.EN is written by DEBUG_EN alone (R555). -/
def State.writeMpx (s : State) (who : Requester) (off : Nat) (w : Word) : State :=
  if off = Reg.MPX_WDT then mpxWdt who w s
  else if off = Reg.MPX_DBG then s
  else if off = Reg.MPX_L2M_CMD then mpxL2mCmd who w s
  else if off = Reg.MPX_M2L_CMD then mpxM2lCmd who w s
  else if off = Reg.MPX_M2L_ACK then (if byMp who then s else s.mailAck w)
  else s.plainWrite who off w

/-- A write to the setup register at an offset, as it reaches its block. -/
def State.setupWrite (s : State) (who : Requester) (off : Nat) (w : Word) : State :=
  let s := s.imgTouched who off
  match off / 0x10000 with
  | 0 => s.writeSys who off w
  | 1 => s.writeSys who off w
  | 2 => s.writeCore who off w
  | 3 => s.writeCore who off w
  | 4 => s.writeCore who off w
  | 5 => s.writePart who off w
  | 7 => s.writeTb who off w
  | 8 => s.writeNet who off w
  | 9 => s.writeNet who off w
  | 10 => s.writeNet who off w
  | 11 => s.writeNet who off w
  | 12 => s.writeNet who off w
  | 13 => s.writeField who off w
  | 14 => s.writeField who off w
  | 15 => s.writeField who off w
  | 16 => s.writePair who off w
  | 17 => s.writePair who off w
  | 18 => s.writePair who off w
  | 19 => s.writeMpx who off w
  | _ => s.plainWrite who off w

/-! ## Reads -/

/-- A read of the setup register at an offset: its word and the state after it. -/
def State.setupRead (s : State) (who : Requester) (off : Nat) : Word × State :=
  if off = Reg.TB_NT_LO then
    let t := s.ntLatch who
    (w32 ((t.latched who).1 / 2 ^ 16), t)
  else if off = Reg.PWR_RTC_LO then
    (w32 s.pwr.rtc.toNat, { s with pwr := { s.pwr with rtcHi := BitVec.ofNat 16 (s.pwr.rtc.toNat / 2 ^ 32) } })
  else if off = Reg.SYS_IMG_STAT then (w32 (setBits (s.reg off).toNat 14 1 (b2n s.pwr.fuseImgSig)), s)
  else if off = Reg.PWR_RTC_HI then (w32 s.pwr.rtcHi.toNat, s)
  else if off = Reg.FLUE_SEQ_SEALED then ((s.stream (BitVec.ofNat 16 (s.rd F.FLUE_SEQSEL_DEST))).sealedSeq, s)
  else if off = Reg.FLUE_SEQ_RELEASED then ((s.stream (BitVec.ofNat 16 (s.rd F.FLUE_SEQSEL_DEST))).released, s)
  else if Reg.PART_MON_DRAM ≤ off ∧ off ≤ Reg.PART_MON_EVT then (s.monWord ((off - Reg.PART_MON_DRAM) / 4), s)
  else if Reg.LOCK 0 ≤ off ∧ off ≤ Reg.LOCK 1023 then s.lockRead who ((off - Reg.LOCK 0) / 4)
  else if off = Reg.CB_BANK_DATA then (w32 (s.cbWord (s.rd F.CB_BANK_ADDR_BANK) (s.rd F.CB_BANK_ADDR_WORD)), s)
  else
    match s.tbRead who off with
    | some v => (w32 v, s)
    | none => (s.reg off, s)

/-! ## Writes held by the fabric (R30, R568) -/

/-- Writes wait in the order in which they arrive. The load key while a load runs has no effect and does not wait. [DEDUCED, unsafe: notes/assumptions/29.md] -/
def State.setupStore (s : State) (who : Requester) (off : Nat) (w : Word) : State :=
  if off = Reg.SYS_IMG_CMD ∧ s.on F.SYS_IMG_STAT_BUSY then s
  else s.arrive who off w (fun t => t.setupWrite who off w)

/-- HELD_SETUP_WRITE_APPLY: the oldest held write is performed once nothing holds it. [DEDUCED, unsafe: notes/assumptions/29.md] -/
def heldSetupWriteApply (s : State) : State :=
  if s.writesHeld then s
  else match s.heldWrites with
    | [] => s
    | (who, off, w) :: t => ({ s with heldWrites := t }).setupWrite who off w

/-- SETUP_REG_WRITE: a write to a setup register; a lane's write in the Operate phase comes as the Flue releases it. -/
def setupRegWrite (who : Requester) (off : BitVec 22) (w : Word) (s : State) : State :=
  if s.phase = Phase.reset ∨ off.toNat % 4 ≠ 0 then s else s.setupStore who off.toNat w

/-- SETUP_LOCK_REQUEST: the lane complex writes SYS_LOCK; with the key its hart waits for the end of the checks (R29). -/
def setupLockRequest (h : HartId) (part : PartId) (w : Word) (s : State) : State :=
  let who := Requester.lane h part
  if s.phase = Phase.reset then s
  else if s.locks who Reg.SYS_LOCK w then (s.setHart h { s.hart h with wait := .lock }).setupStore who Reg.SYS_LOCK w
  else s.setupStore who Reg.SYS_LOCK w

/-! ## Meanings -/

/-- The effect of IMG_LOAD_START. -/
def execImgLoadStart (who : Requester) (w : Word) (s : State) : Host.Outcome State Fault Refusal :=
  .next (s.setupStore who Reg.SYS_IMG_CMD w)
/-- The effect of HELD_SETUP_WRITE_APPLY. -/
def execHeldSetupWriteApply (s : State) : Host.Outcome State Fault Refusal := .next (heldSetupWriteApply s)
/-- The effect of SETUP_REG_WRITE. -/
def execSetupRegWrite (who : Requester) (off : BitVec 22) (w : Word) (s : State) : Host.Outcome State Fault Refusal :=
  .next (setupRegWrite who off w s)
/-- The effect of SETUP_LOCK_REQUEST. -/
def execSetupLockRequest (h : HartId) (part : PartId) (w : Word) (s : State) : Host.Outcome State Fault Refusal :=
  .next (setupLockRequest h part w s)

end Machine
end Sys2Proof
end

