-- ==== Sys2Proof/Machine/Access.lean ====
section
/-!
DEFINITION. The handling of a voted lane request by its region (R8, R12, R13, R16, R18, R149 to R155, R168 to R178, R187,
R366), and re-execution from the input log (R158 to R160).
-/

namespace Sys2Proof
namespace Machine

/-- What a request gets: data, an access fault with its mcause and address, a wait, or a divergence of re-execution. -/
inductive Resp where
  | data (v : DWord)
  | fault (code : Nat) (addr : Nat)
  | hold (w : HartWait)
  | diverged
deriving DecidableEq, Repr

/-- The access-fault code of a request: 1 fetch, 5 load and LR, 7 store, AMO and SC. -/
def accFault : ReqKind → Nat
  | .fetch => 1
  | .load => 5
  | .lr => 5
  | _ => 7

/-- The request reads only. -/
def readsOnly : ReqKind → Bool
  | .load => true
  | .fetch => true
  | .lr => true
  | _ => false

/-! ## Re-execution (R158 to R160) -/

/-- Removes the first record equal to one given. -/
def dropRec (r : LogRec) : List LogRec → List LogRec
  | [] => []
  | x :: t => if x = r then t else x :: dropRec r t

/-- Live time is reached (R160). -/
def State.goLive (s : State) : State :=
  let us := min ((s.raw - s.cord.liveRaw) / rawPerUs) 65535
  let s := (s.wr F.CORD_STAT_REPLAY 0).wr F.CORD_RB_REPLAY us
  let s := s.raise 19 [w32 (s.rd F.CORD_RB_RESTART), w32 us]
  let s := s.deliverHeld s.cord.heldSrc.length
  let t := s.cord.heldTrig
  let s := { s with cord := { s.cord with heldTrig := 0 } }
  if t = 0 then s
  else { s with cord := { s.cord with causes := s.cord.causes ||| t, reqRaw := if s.cord.causes = 0 then s.raw else s.cord.reqRaw } }

/-- A record is consumed; the one at which the first run requested a Cord for a full log requests it again, and the last one
ends re-execution. -/
def State.consume (s : State) (r : LogRec) : State :=
  let s := { s with cord := { s.cord with replay := dropRec r s.cord.replay, log := s.cord.log ++ [r] } }
  let s := s.logForceAt (logUnits s.cord.log)
  if s.cord.replay = [] then s.goLive else s

/-- Every hart has reached the counts of an SRC record. -/
def countsReached : List Nat → List Nat → Bool
  | c :: cs, n :: ns => decide (c ≤ n) && countsReached cs ns
  | _, _ => true

/-- The first SRC record not consumed. -/
def firstSrc : List LogRec → Option (LogRec × Nat × Bool × List Nat)
  | [] => none
  | .src x l c :: _ => some (.src x l c, x, l, c)
  | _ :: t => firstSrc t

/-- Applies SRC records whose counts the harts have reached, in their order; `n` bounds them. -/
def State.applyDue (s : State) : Nat → State
  | 0 => s
  | n + 1 =>
    if !s.on F.CORD_STAT_REPLAY then s
    else match firstSrc s.cord.replay with
      | none => s
      | some (r, x, l, c) => if countsReached c s.instCounts then ((s.applySrc x l).consume r).applyDue n else s

/-- A pending SRC record names the count a hart has reached: the hart retires nothing more until it applies. -/
def State.srcBlocks (s : State) (h : HartId) : Bool :=
  s.on F.CORD_STAT_REPLAY && s.cord.replay.any (fun r => match r with
    | .src _ _ c => decide (c.getD h.val 0 ≤ s.instCounts.getD h.val 0)
    | _ => false)

/-- The hart of a VREAD record. -/
def vreadHart : LogRec → Option HartId
  | .vread h .. => some h
  | _ => none

/-- A read that took a VREAD record in the first run is served from it. -/
def State.replayRead (s : State) (r : LaneReq) : Resp × State :=
  match s.cord.replay.find? (fun x => vreadHart x == some r.hart) with
  | some (.vread h size a v f) =>
    if size = r.size ∧ a = r.addr.toNat then
      (match f with
        | none => .data v
        | some fa => .fault (accFault r.kind) fa, s.consume (.vread h size a v f))
    else (.diverged, s)
  | _ => (.hold .access, s)

/-- The hart of an NPW record. -/
def npwHart : LogRec → Option HartId
  | .npw h .. => some h
  | _ => none

/-- A non-posted write that took an NPW record is completed from it. -/
def State.replayNpw (s : State) (r : LaneReq) : Resp × State :=
  match s.cord.replay.find? (fun x => npwHart x == some r.hart) with
  | some (.npw h a f) =>
    if a = r.addr.toNat then
      (match f with
        | none => .data 0
        | some fa => .fault 7 fa, s.consume (.npw h a f))
    else (.diverged, s)
  | _ => (.hold .access, s)

/-- The hart of a TIME record. -/
def timeHart : LogRec → Option HartId
  | .time h .. => some h
  | _ => none

/-- An ORDER record names this access of a hart as the later one, and the earlier one is not performed yet. [DEDUCED, unsafe: notes/assumptions/21.md] -/
def State.orderWaits (s : State) (h : HartId) : Bool :=
  s.cord.replay.any (fun r => match r with
    | .order l i e j => l == h && i == Sparse.get s.cord.accIdx 0 h.val && decide (Int.ofNat (Sparse.get s.cord.accIdx 0 e.val) ≤ j)
    | _ => false)

/-- Consumes the ORDER records that name this access as the later one. [DEDUCED, unsafe: notes/assumptions/21.md] -/
def State.orderConsume (s : State) (h : HartId) : State :=
  let i := Sparse.get s.cord.accIdx 0 h.val
  (s.cord.replay.filter (fun r => match r with
    | .order l k _ _ => l == h && k == i
    | _ => false)).foldl (fun t r => if t.cord.replay.contains r then t.consume r else t) s

/-! ## Memory -/

/-- The bytes a request writes over an old value: a store's or SC's data where its mask says so, an AMO's result. -/
def reqBytes (r : LaneReq) (old : Nat) : List Byte :=
  match r.kind with
  | .amo op => leBytes r.size (amoRun op r.size old r.data.toNat)
  | _ => List.zipWith (fun n (p : Byte × Byte) => if r.mask.getLsbD n then p.1 else p.2) (List.range r.size)
      ((leBytes r.size r.data.toNat).zip (leBytes r.size old))

/-- The bytes that a request's data and mask give, by address. -/
def reqCells (r : LaneReq) : List (Nat × Byte) :=
  (addrBytes r.addr.toNat (leBytes r.size r.data.toNat)).filter (fun p => r.mask.getLsbD (p.1 - r.addr.toNat))

/-- Hart h holds a reservation on a line, or none. -/
def State.setResv (s : State) (h : HartId) (line : Option Nat) : State :=
  { s with lanes := { s.lanes with resv := match line with
      | some l => Sparse.insert s.lanes.resv h.val l
      | none => Sparse.erase s.lanes.resv h.val } }

/-- Writes of a hart clear the other harts' reservations of the line. -/
def State.clearResv (s : State) (h : HartId) (line : Nat) : State :=
  { s with lanes := { s.lanes with resv := s.lanes.resv.filter (fun p => p.1 == h.val || p.2 != line) } }

/-- The lane complex writes DRAM by whole lines, so a write renews every word of its line (R16). [DEDUCED, safe: notes/assumptions/18.md] -/
def State.renewLine (s : State) (line : Nat) : State :=
  { s with ecc := s.ecc.filter (fun p => decide (p.1 < line / 8) || decide (line / 8 + 8 ≤ p.1)) }

/-- The memory write of a lane request. -/
def State.laneWrite (s : State) (r : LaneReq) (bs : List Byte) : State :=
  let a := r.addr.toNat
  let line := a / 64 * 64
  (((s.clearResv r.hart line).renewLine line).setBytes a bs).mirror a bs

/-- Performs a request on memory whose reads are allowed: the value, and the state after it. -/
def State.memDo (s : State) (r : LaneReq) : Resp × State :=
  let a := s.phys r.addr.toNat
  let line := r.addr.toNat / 64 * 64
  let old := s.le a r.size
  let v : DWord := BitVec.ofNat 64 old
  match r.kind with
  | .load => (.data v, s)
  | .fetch => (.data v, s)
  | .lr => (.data v, s.setResv r.hart (some line))
  | .store => (.data 0, s.laneWrite r (reqBytes r old))
  | .amo _ => (.data v, s.laneWrite r (reqBytes r old))
  | .sc =>
    let ok := Sparse.lookup s.lanes.resv r.hart.val == some line
    let s := s.setResv r.hart none
    if ok then (.data 0, s.laneWrite r (reqBytes r old)) else (.data 1, s)

/-- An SC that will fail. -/
def State.scFails (s : State) (r : LaneReq) : Bool :=
  r.kind == .sc && Sparse.lookup s.lanes.resv r.hart.val != some (r.addr.toNat / 64 * 64)

/-- A request to Plain memory in the Operate phase: order, DRAM error, undo entry, access (R13, R16, R149, R154). `miss`
says that the access misses in L2 and its line is read from DRAM. -/
def State.plainReq (s : State) (r : LaneReq) (miss : Bool) : Resp × State :=
  let a := r.addr.toNat
  let line := a / 64 * 64
  let writes := !readsOnly r.kind && !s.scFails r
  if s.on F.CORD_STAT_REPLAY && s.orderWaits r.hart then (.hold .access, s)
  else
    let chk := if miss then (s.missCharge r.part line).readCheck line 64 0xFF else (true, s)
    if !chk.1 then (.fault (accFault r.kind) a, chk.2)
    else
      let s := if s.on F.CORD_STAT_REPLAY then chk.2.orderConsume r.hart else chk.2
      match (if r.kind = .fetch then some s else s.orderTake r.hart r.part line writes) with
      | none => (.hold .access, s)
      | some s1 =>
        match (if writes then s1.undoTake line r.part else some s1) with
        | none => (.hold .access, s)
        | some s2 => s2.memDo r

/-- A read that takes a VREAD record (R153): served from the record in re-execution, otherwise performed and logged. -/
def State.loggedRead (s : State) (r : LaneReq) (act : State → Resp × State) : Resp × State :=
  if s.on F.CORD_STAT_REPLAY then s.replayRead r
  else
    let x := act s
    match x.1 with
    | .data v =>
      match x.2.logTake (.vread r.hart r.size r.addr.toNat v none) (some r.part) with
      | some t => (x.1, t)
      | none => (.hold .access, s)
    | .fault _ a =>
      match x.2.logTake (.vread r.hart r.size r.addr.toNat 0 (some a)) (some r.part) with
      | some t => (x.1, t)
      | none => (.hold .access, s)
    | _ => x

/-- A request to Volatile memory in the Operate phase. -/
def State.volatileReq (s : State) (r : LaneReq) : Resp × State :=
  if !readsOnly r.kind then (.fault 7 r.addr.toNat, s)
  else s.loggedRead r (fun s =>
    let chk := (s.dramCharge r.part (b2n (inDram r.addr.toNat 1))).readCheck r.addr.toNat r.size 0xFF
    if chk.1 then chk.2.memDo r else (.fault (accFault r.kind) r.addr.toNat, chk.2))

/-! ## Effects (R168 to R178) -/

/-- A request enters the Flue as a record, or merges, or is held, or faults on a quota of 0. The value is what its
instruction gets. -/
def State.effectReq (s : State) (r : LaneReq) (d : BitVec 16) (k : EffKind) (bs : List (Nat × Byte)) (info : List Nat) :
    Resp × State :=
  let target := if k = .store then s.mergeTarget r.hart r.addr.toNat else none
  match target with
  | some t =>
    let t' := { t with bytes := mergeBytes t.bytes bs }
    (.data 0, (s.setRecs (replaceRec t t' s.flue.recs)).mirrorRec t')
  | none =>
    match s.flueRoom r.part with
    | .quotaZero => (.fault 7 r.addr.toNat, s.raise 34 [])
    | .held =>
      let s := (s.satAdd F.FLUE_FCNT_HELD 1).raise 33 [w32 r.part.toNat]
      (.hold .held, { s with flue := { s.flue with held := s.flue.held ++ [r] } })
    | .room =>
      let s := s.flueEnter r.hart r.part d k r.addr.toNat r.size bs info
      (.data 0, match s.flue.recs.getLast? with
        | some x => s.mirrorRec x
        | none => s)

/-- A request to an Effect region or the doorbell array in the Operate phase. -/
def State.effectMem (s : State) (r : LaneReq) (d : BitVec 16) (k : EffKind) : Resp × State :=
  let a := r.addr.toNat
  match r.kind with
  | .load => (.fault 5 a, s)
  | .lr => (.fault 5 a, s)
  | .fetch => (.fault 1 a, s)
  | .sc => (.data 1, s.setResv r.hart none)
  | .store => s.effectReq r d k (reqCells r) []
  | .amo op => s.effectReq r d (.amo op) (addrBytes a (leBytes r.size r.data.toNat)) []

/-! ## Setup registers (R8, R389) -/

/-- A request to setup-register space. -/
def State.setupReq (s : State) (r : LaneReq) (off : Nat) : Resp × State :=
  let a := r.addr.toNat
  let who := Requester.lane r.hart r.part
  if r.size ≠ 4 ∨ a % 4 ≠ 0 then (.fault (accFault r.kind) a, s)
  else match r.kind with
    | .load =>
      let act (s : State) : Resp × State := let x := s.setupRead who off; (.data (x.1.setWidth 64), x.2)
      if s.operate then s.loggedRead r act else act s
    | .store =>
      if s.locks who off (r.data.setWidth 32) then (.hold .lock, s.setupStore who off (r.data.setWidth 32))
      else if !s.operate then (.data 0, s.setupStore who off (r.data.setWidth 32))
      else if off = Reg.CYC_TASK_END then
        let k := r.data.toNat % 64
        let info := s.commitInfo k r.part
        let x := s.effectReq { r with part := BitVec.ofNat 8 (s.taskPart k) } 0x8070 .commit [] info
        (match x.1 with
          | .data _ => (x.1, x.2.commitEntered info)
          | _ => x)
      else s.effectReq r (BitVec.ofNat 16 (0x8050 + off / 0x10000)) .setup (addrBytes a (leBytes 4 r.data.toNat)) []
    | _ => (.fault (accFault r.kind) a, s)

/-! ## Rack-bus windows (R187, R366) -/

/-- The hart has made no request in the interval. -/
def State.firstAsk (s : State) (h : HartId) : Bool := !Sparse.get s.cord.asked false h.val

/-- The Flue holds a record for a window. -/
def State.windowHeld (s : State) (w : Nat) : Bool := s.flue.recs.any (fun r => r.dest == BitVec.ofNat 16 (0x8040 + w))

/-- A request to a rack-bus window (Table 14-7). -/
def State.rackReq (s : State) (r : LaneReq) (w : Nat) : Resp × State :=
  let a := r.addr.toNat
  let off := a % 0x1000000
  if !s.operate || !s.rackUsable w r.part then (.fault (accFault r.kind) a, s)
  else
    let write := r.kind == .store
    if !(r.kind == .load || write) || !(r.size == 2 || r.size == 4 || r.size == 8) || a % r.size != 0 then
      (.fault (accFault r.kind) a, s)
    else if s.rackPosted w then
      if write then
        s.effectReq r (BitVec.ofNat 16 (0x8040 + w)) .rack (addrBytes a (leBytes r.size r.data.toNat)) []
      else if s.on F.CORD_STAT_REPLAY then s.replayRead r
      else (.hold .rack, s.rackIssue r.hart w off r.size false 0)
    else if s.on F.CORD_STAT_REPLAY then (if write then s.replayNpw r else s.replayRead r)
    else if !s.firstAsk r.hart then (.hold .access, s.requestCord 7)
    else if s.windowHeld w then (.hold .access, s)
    else (.hold .rack, s.rackIssue r.hart w off r.size write r.data.toNat)

/-! ## The whole request -/

/-- The hart has made a request in the interval. -/
def State.asks (s : State) (h : HartId) : State :=
  { s with cord := { s.cord with asked := Sparse.set s.cord.asked false h.val true } }

/-- An access that has ended is retired: its input-log record is taken first (R153, R155). One whose record finds no room is
performed again after the seal. -/
def State.takeReady (s : State) (r : LaneReq) (x : Ready) : Resp × State :=
  match (match x.logged with
    | none => some s
    | some l => s.logTake l (some r.part)) with
  | none => (.hold .access, { s with lanes := { s.lanes with ready := Sparse.erase s.lanes.ready r.hart.val } })
  | some s =>
    (match x.fault with
      | none => .data x.value
      | some (c, a) => .fault c a, ({ s with lanes := { s.lanes with ready := Sparse.erase s.lanes.ready r.hart.val } }).asks r.hart)

/-- A memory request in the Setup phase, when the lane caches serve all of DRAM alike: a miss reads the line (R16, R27). [DEDUCED, unsafe: notes/assumptions/19.md] -/
def State.setupMem (s : State) (r : LaneReq) (miss : Bool) : Resp × State :=
  let line := r.addr.toNat / 64 * 64
  let chk := if miss then (s.missCharge r.part line).readCheck line 64 0xFF else (true, s)
  if chk.1 then chk.2.memDo r else (.fault (accFault r.kind) r.addr.toNat, chk.2)

/-- A voted request outside the rack-bus windows, by its region. In the Setup phase the region attribute table has no
effect yet, every memory access is performed at once and nothing is logged (R27, Table 1-12). [DEDUCED, unsafe: notes/assumptions/19.md] -/
def State.regionReq (s : State) (r : LaneReq) (miss : Bool) : Resp × State :=
  let a := r.addr.toNat
  match s.region a with
  | .unmapped => (.fault (accFault r.kind) a, s)
  | .flash => if readsOnly r.kind then s.memDo r else (.fault 7 a, s)
  | .setup off => s.setupReq r off
  | .rack w => s.rackReq r w
  | .plain => if s.operate then s.plainReq r miss else s.setupMem r miss
  | .volatile => if s.operate then s.volatileReq r else s.setupMem r miss
  | .effect n => if s.operate then s.effectMem r (BitVec.ofNat 16 (0x8000 + n)) .store else s.setupMem r miss
  | .doorbell ring => if s.operate then s.effectMem r (ring.setWidth 16) .doorbell else s.setupMem r miss

/-- A voted lane request: a result waiting for its hart, the rules of the mirrored partitions, then its region. `miss`
says that a Plain access leaves the lane complex. -/
def State.laneAccess (s : State) (r : LaneReq) (miss : Bool) : Resp × State :=
  match (if r.kind = .fetch then none else Sparse.lookup s.lanes.ready r.hart.val) with
  | some x => s.takeReady r x
  | none =>
    let store := !readsOnly r.kind
    if store && s.operate && s.mirrorFault r.part r.addr.toNat r.size then (.fault 7 r.addr.toNat, s)
    else if store && s.operate && s.mirrorHold r.part then (.hold .access, s)
    else
      let x := s.regionReq r miss
      match x.1 with
      | .hold _ => x
      | _ => if miss || s.region r.addr.toNat != .plain then (x.1, x.2.asks r.hart) else x

end Machine
end Sys2Proof
end

