-- ==== Sys2Proof/Machine/Voter.lean ====
section
/-!
DEFINITION. The voter: classes of disagreement, fencing, unresolved mismatches and the start of a rollback (R124 to R132,
R157, R189).
-/

namespace Sys2Proof
namespace Machine

/-! ## Classes (Table 5-2) -/

/-- Classes of mismatch. -/
inductive MisClass where
  | data
  | address
  | kind
  | skew
  | missing
  | signature
  | localFault
  | threeWay
  | combined
  | replay
deriving DecidableEq, Repr

/-- LANE_FAULT.CLASS. -/
def MisClass.code : MisClass → Nat
  | .data => 1
  | .address => 2
  | .kind => 3
  | .skew => 4
  | .missing => 5
  | .signature => 6
  | .localFault => 7
  | .threeWay => 8
  | .combined => 9
  | .replay => 10

/-- What a vote decides. -/
inductive Verdict where
  | agreed
  | odd (l : LaneId) (c : MisClass)
  | unresolved (c : MisClass)
deriving DecidableEq, Repr

/-- Two offers of a request agree in every field of Table 5-1 and in their offer clocks. -/
def offersEq (x y : LaneOffer) : Bool := x.req == y.req && x.clock == y.clock && x.req.isSome

/-- The class of a difference between two offers: the first row of Table 5-2 that fits. [DEDUCED, unsafe: notes/assumptions/22.md] -/
def classOf (x y : LaneOffer) : MisClass :=
  match x.req, y.req with
  | some p, some q =>
    let same := p.kind == q.kind && p.size == q.size && p.hart == q.hart && p.priv == q.priv && p.part == q.part
    if p.addr == q.addr && same && x.clock == y.clock && (p.data != q.data || p.mask != q.mask) then .data
    else if p.addr != q.addr then .address
    else if !same then .kind
    else if x.clock != y.clock then .skew
    else .data
  | _, _ => .missing

/-- A vote over offers of which `eq` says that two agree, `cls` the class of a difference, `loc` the reports of a local
fault, for three or two usable lanes (R127, R128). [DEDUCED, unsafe: notes/assumptions/22.md] -/
def vote {α : Type} (eq : α → α → Bool) (cls : α → α → MisClass) (loc : α → Bool) : List (LaneId × α) → Verdict
  | [(i, x), (j, y), (k, z)] =>
    let ls := [(i, x), (j, y), (k, z)].filter (fun p => loc p.2)
    match ls with
    | [] =>
      if eq x y && eq y z then .agreed
      else if eq x y then .odd k (cls x z)
      else if eq x z then .odd j (cls x y)
      else if eq y z then .odd i (cls y x)
      else .unresolved .threeWay
    | [(l, _)] =>
      let rest := [(i, x), (j, y), (k, z)].filter (fun p => p.1 != l)
      let own := [(i, x), (j, y), (k, z)].find? (fun p => p.1 == l)
      (match rest, own with
        | [(_, p), (_, q)], some (_, o) =>
          if !eq p q then .unresolved .combined else if eq p o then .odd l .localFault else .odd l (cls p o)
        | _, _ => .unresolved .combined)
    | _ => .unresolved .combined
  | [(_, x), (_, y)] =>
    if eq x y then (if loc x || loc y then .unresolved .localFault else .agreed) else .unresolved (cls x y)
  | _ => .agreed

/-- The offer of a lane. -/
def Offers.of (o : Offers) : LaneId → LaneOffer
  | .a => o.a
  | .b => o.b
  | .c => o.c

/-! ## The fault record (Table 5-12) -/

/-- Bits of LANE_FAULT.LANES. -/
def laneBits (ls : List LaneId) : Nat := (ls.map (fun l => 2 ^ l.num)).sum

/-- Records a mismatch unless a record is held. -/
def State.faultRecord (s : State) (c : MisClass) (ls : List LaneId) (unres : Bool) (part hart addr : Nat) : State :=
  if s.on F.LANE_FAULT_VALID then s
  else
    let s := (((s.wr F.LANE_FAULT_CLASS c.code).wr F.LANE_FAULT_LANES (laneBits ls)).wr F.LANE_FAULT_UNRESOLVED (b2n unres))
    let s := (s.wr F.LANE_FAULT_PARTID part).wr F.LANE_FAULT_HART hart
    ((s.wr F.LANE_FADDR_LO_ADDR_LO addr).wr F.LANE_FADDR_HI_ADDR_HI (addr / 2 ^ 32)).wr F.LANE_FAULT_VALID 1

/-! ## Fencing (R132, Table 5-5) -/

/-- FENCE counter of a lane. -/
def fenceFld : LaneId → Fld
  | .a => F.LANE_FCNT_FENCE_A
  | .b => F.LANE_FCNT_FENCE_B
  | .c => F.LANE_FCNT_FENCE_C

/-- Voter fencings of a lane in the last REINT_WINDOW seconds, or since reset where it is 0. -/
def State.recentFencings (s : State) (l : LaneId) : Nat :=
  let win := s.rd F.LANE_CFG_REINT_WINDOW
  (s.lanes.fencings.filter (fun p => p.1 == l && (win == 0 || decide (s.raw - p.2 ≤ win * 1000 * rawPerMs)))).length

/-- The voter fences a lane: Fenced with its LBIST, or Failed where the fencings exceed REINT_MAX. -/
def State.fence (s : State) (l : LaneId) : State :=
  let s := { s with lanes := { s.lanes with fencings := (l, s.raw) :: s.lanes.fencings } }
  let s := (s.satAdd (fenceFld l) 1).raise 0 []
  if s.rd F.LANE_CFG_REINT_MAX < s.recentFencings l then (s.setLane l .failed).raise 2 []
  else s.setLane l .fenced

/-! ## Unresolved mismatches (R28, R129, R130, R157) -/

/-- Triggers that are driven by time, as bits. -/
def timeBits : BitVec 10 := (1#10 <<< (1 : Nat)) ||| (1#10 <<< (2 : Nat)) ||| (1#10 <<< (9 : Nat))

/-- ROLLBACK_START: the unsealed effects are discarded, the seal in progress is abandoned, time-driven triggers are held,
and an Ember request that has not reached its decision point is cancelled. -/
def State.rollbackStart (s : State) : State :=
  let s := (s.modAdd F.LANE_STAT_ROLLBACKS 1).satAdd F.LANE_RBCNT_TOTAL 1
  let s := (s.wr F.CORD_STAT_ROLLING 1).wr F.CORD_STAT_REPLAY 0
  let s := s.discardInterval.pairDiscard
  let s := { s with
    cord := { s.cord with heldTrig := s.cord.heldTrig ||| (s.cord.causes &&& timeBits), causes := 0, rbRaw := s.raw }
    pwr := { s.pwr with state := if s.pwr.state = PowerState.entering then .run else s.pwr.state } }
  let lo := s.reg Reg.CORD_LAST_LO
  let hi := s.reg Reg.CORD_LAST_HI
  ((s.setReg Reg.CORD_RB_TO_LO lo).setReg Reg.CORD_RB_TO_HI hi).raise 18 [lo, hi]

/-- An unresolved mismatch: recorded, raised, and answered by the Setup phase's rule or by MISMATCH_POLICY. -/
def State.unresolved (s : State) (c : MisClass) (part hart addr : Nat) : State :=
  let s := (s.faultRecord c s.usableLanes true part hart addr).raise 3 []
  if !s.operate then s.enterSafe 3
  else if s.rd F.LANE_CFG_MISMATCH_POLICY = 0 then s.enterSafe 1
  else if s.rd F.LANE_STAT_ROLLBACKS = s.rd F.LANE_CFG_ROLLBACK_LIMIT then (s.raise 4 []).enterSafe 2
  else s.rollbackStart

/-- Re-execution diverges (R159): an unresolved mismatch of class REPLAY. -/
def State.diverge (s : State) (r : LaneReq) : State :=
  (s.raise 20 []).unresolved .replay r.part.toNat r.hart.val r.addr.toNat

/-- A verdict on a request or a signature in re-execution counts as unresolved even when one lane is odd (R131). -/
def State.judge (s : State) (v : Verdict) : Verdict :=
  match v with
  | .odd _ c => if s.on F.CORD_STAT_REPLAY then .unresolved c else v
  | _ => v

end Machine
end Sys2Proof
end

