-- ==== Sys2Proof/Machine/Cord.lean ====
section
/-!
DEFINITION. Cords: requests, the seal, the rollback's restore, the cold resume and the anchor (R133, R142 to R164).
-/

namespace Sys2Proof
namespace Machine

/-! ## Numbers -/

/-- Number of the last sealed Cord. -/
def State.lastCord (s : State) : Nat := s.rd64 Reg.CORD_LAST_LO Reg.CORD_LAST_HI

/-- TB_RAW at the last seal. -/
def State.sealRaw (s : State) : Nat := s.rd64 Reg.CORD_SEAL_RAW_LO Reg.CORD_SEAL_RAW_HI

/-- Number that the next seal gives (R142). -/
def State.nextCord (s : State) : Nat := if s.cord.sealedRec.isNone then 0 else (s.lastCord + 1) % 2 ^ 64

/-! ## The Cord record (R103, R119, R145) -/

/-- A hart as a Cord seals it: a DZC.CORD is retired with the Cord's number, a hart stopped on an instruction has its pc on
it, and a hart whose Ember entry waits for its decision goes on waiting. -/
def sealHart (num : Nat) (ember : Bool) (h : Hart) : Hart :=
  match h.wait with
  | .cord rd => (h.complete 4 none).setX rd.toNat (BitVec.ofNat 64 num)
  | .wfiEmber => if ember then h else { h with wait := .run }
  | _ => { h with wait := .run }

/-- Waits are no part of a sealed record: a hart restarted from it runs. -/
def restartHart (h : Hart) : Hart := { h with wait := .run }

/-- An unconsumed record counts from the new Cord (R156). -/
def rebase (insts : List Nat) (acc : List (Nat × Nat)) : LogRec → LogRec
  | .src x l c => .src x l (List.zipWith (· - ·) c insts)
  | .order l i e j => .order l (i - Sparse.get acc 0 l.val) e (j - Int.ofNat (Sparse.get acc 0 e.val))
  | r => r

/-! ## The anchor (R164) -/

/-- Address of an anchor slot. -/
def anchorSlot (n : Nat) : Nat := 0x60000000 + 0x40 * (n % 2)

/-- Writes the anchor record of the last sealed Cord. -/
def State.anchorWrite (s : State) : State :=
  let n := s.lastCord
  let body := leBytes 8 n ++ leBytes 8 s.sealRaw ++ leBytes 4 (s.rd F.LANE_RBCNT_TOTAL) ++
    leBytes 4 (s.rd F.CORD_STAT_CAUSES) ++ zeros 32
  s.setBytes (anchorSlot n) (body ++ leBytes 4 (crc32c body).toNat ++ leBytes 4 0x434F5244)

/-! ## The seal (R146 to R148, R156, R161) -/

/-- Steps 4 to 6 of Table 6-2: the epochs close, the Cord takes its number, the record is sealed, the Flue's records become
releasable, the harts resume and the anchor is written; changes of interrupt sources held for want of room are delivered, but
not before live time (R155, R160). `ns` is the seal time. [DEDUCED, safe: notes/assumptions/39.md] -/
def State.seal (s : State) (ns : Nat) : State :=
  let num := s.nextCord
  let ember := s.pwr.state == .entering
  let replaying := s.on F.CORD_STAT_REPLAY
  let undoN := s.cord.undo.length
  let logN := s.logUsed
  let insts := s.instCounts
  let hs := s.harts.map (sealHart num ember)
  let rep := s.cord.replay.map (rebase insts s.cord.accIdx)
  let causes := s.cord.causes.toNat
  let s := { s with
    harts := hs
    flue := { s.flue with held := [] }
    lanes := { s.lanes with fetched := [], resv := [] }
    cord := { s.cord with
      sealedRec := some ⟨BitVec.ofNat 64 num, hs.map restartHart, s.plic⟩
      causes := 0, undo := [], log := [], replay := rep, accIdx := [], lines := [], asked := [], exceeded := []
      partUndo := [], partLog := [] } }
  let s := (s.wr64 Reg.CORD_LAST_LO Reg.CORD_LAST_HI num).wr64 Reg.CORD_SEAL_RAW_LO Reg.CORD_SEAL_RAW_HI s.raw
  let s := ((s.wr F.CORD_STAT_CAUSES causes).wr F.CORD_SEALTIME_LAST ns).peak F.CORD_SEALTIME_MAX ns
  let s := (s.wr F.CORD_UNDO_USED 0).wr F.CORD_INLOG_USED_USED s.logUsed
  let s := s.flueSeal num s.pairGates
  let s := if replaying then s else s.wr F.LANE_STAT_ROLLBACKS 0
  let s := ((s.recEvent 8 0 ns).recEvent 9 0 undoN).recEvent 10 0 logN
  let s := s.recEvent 11 0 (s.rd F.FLUE_STAT_USED)
  let s := if replaying then s else s.deliverHeld s.cord.heldSrc.length
  s.anchorWrite.pairClose

/-- COLD_RESUME_START: the harts stop at the Cord's pc until the resume ends (R133). -/
def State.coldResume (s : State) : State := { s with lanes := { s.lanes with resuming := true } }

/-- No hart has an access in flight or ended and not retired (R145). -/
def State.quietHarts (s : State) : Bool := s.lanes.ready == [] && allHarts.all (fun h => (s.hart h).wait != .rack)

/-- The vote on the Cord signatures of the usable lanes (R126, R127). [DESIGN CHOICE, safe: notes/assumptions/98.md] -/
def State.sigVote (s : State) (a b c : SigOffer) : Verdict :=
  let of (l : LaneId) : SigOffer := match l with
    | .a => a
    | .b => b
    | .c => c
  s.judge (vote (fun x y => x.sig == y.sig) (fun _ _ => .signature) (fun x => x.localFault) (s.usableLanes.map (fun l => (l, of l))))

/-- A requested Cord is sealed, or its signatures leave the mismatch unresolved (R146, R148). -/
def cordSeal (a b c : SigOffer) (ns : Nat) (s : State) : State :=
  if !(s.cordsOn && s.cordDue && s.quietHarts && !s.on F.CORD_STAT_ROLLING && !s.lanes.resuming) then s
  else
    let joins := s.cord.causes.getLsbD 9 && s.canAdmit
    match s.sigVote a b c with
    | .unresolved k => s.unresolved k 0 0 0
    | .odd l k => (((s.faultRecord k [l] false 0 0 0).fence l).seal ns).idleAtSeal
    | .agreed => if joins then (s.seal ns).coldResume else (s.seal ns).idleAtSeal

/-- The cold resume ends: Ready lanes are Healthy, and all lanes start at the Cord's pc (Table 5-6). -/
def coldResumeDone (s : State) : State :=
  if s.lanes.resuming then
    let s := lanesABC.foldl (fun t l => if t.laneSt l = LaneSt.ready then (t.setLane l .healthy).raise 1 [] else t) s
    let s := { s with lanes := { s.lanes with resuming := false } }
    (s.deliverHeld s.cord.heldSrc.length).pairResumed
  else s

/-- TB_RAW has advanced by CORD_PERIOD since the last seal (R143, R144). -/
def cordPeriodExpiry (s : State) : State :=
  if s.cordsOn && reached s.raw (s.sealRaw + s.rd F.CORD_PERIOD_PERIOD * rawPerUs) then s.requestCord 1 else s

/-! ## Rollback (R157, R162) -/

/-- A non-posted rack-bus access is in flight: issued and not ended. -/
def State.npInFlight (s : State) : Bool := s.rackNpBusy

/-- An ended access to a non-posted window: its record is taken before the restore (R157). -/
def State.npReady (s : State) (x : Ready) : Bool :=
  match x.logged with
  | some (.npw ..) => true
  | some (.vread _ _ a _ _) => !s.rackPosted ((a - 0x70000000) / 0x1000000)
  | _ => false

/-- Restores one undo entry: a whole line with fresh check bits. -/
def State.undoLine (s : State) (e : UndoEntry) : State := (s.renewLine e.line).setBytes e.line e.old

/-- Restores entries, newest first. -/
def State.undoLines (s : State) (es : List UndoEntry) : State := es.foldl State.undoLine s

/-- Records of ended non-posted accesses, taken before the restore (R157). -/
def State.takenRecs (s : State) : List LogRec := (s.lanes.ready.filter (fun p => s.npReady p.2)).filterMap (fun p => p.2.logged)

/-- Memory and the fabric's queues as the sealed Cord left them. -/
def State.undoAll (s : State) : State := ((s.undoLines s.cord.undo).rackDrop).wr F.CORD_UNDO_USED 0

/-- The harts and the PLIC of the sealed Cord; the closing epoch's records become the replay. -/
def State.rewind (s : State) (taken : List LogRec) : State :=
  let hs := match s.cord.sealedRec with
    | none => s.harts
    | some r => r.harts
  let pl := match s.cord.sealedRec with
    | none => s.plic
    | some r => r.plic
  { s with
    harts := hs
    plic := pl
    lanes := { s.lanes with ready := [], fetched := [], resv := [] }
    cord := { s.cord with
      undo := [], replay := s.cord.log ++ taken ++ s.cord.replay, log := [], accIdx := [], lines := [], asked := []
      partUndo := [], liveRaw := s.raw } }

/-- The restore fails: an end in the safe state (R157). -/
def State.restoreFails (s : State) : State := ((s.wr F.CORD_STAT_SAFE_CAUSE 1).raise 21 []).enterSafe 0xFF

/-- The restore of a rollback. `disagree`: a dirty line without an undo entry has no agreed copy; `undoErr`: the entry that
can't be read, counted from the newest, before which the newer ones are restored. -/
def rollbackRestore (disagree : Bool) (undoErr : Option Nat) (s : State) : State :=
  if !s.on F.CORD_STAT_ROLLING || s.npInFlight || s.safe then s
  else if disagree then s.restoreFails
  else if decide (undoErr.getD s.cord.undo.length < s.cord.undo.length) then
    (s.undoLines (s.cord.undo.take (undoErr.getD 0))).restoreFails
  else
    let t := (s.undoAll.rewind s.takenRecs).logShow
    let t := t.wr F.CORD_RB_RESTART (min ((t.raw - t.cord.rbRaw) / rawPerUs) 65535)
    let t := (t.wr F.CORD_STAT_ROLLING 0).wr F.CORD_STAT_REPLAY 1
    if t.cord.replay = [] then t.goLive else t.applyDue t.cord.replay.length

/-- Re-execution has not reached live time within 4 × CORD_PERIOD (R162). -/
def replayTimeout (s : State) : State :=
  if s.on F.CORD_STAT_REPLAY && reached s.raw (s.cord.liveRaw + 4 * s.rd F.CORD_PERIOD_PERIOD * rawPerUs) then
    ((s.raise 22 []).wr F.CORD_STAT_SAFE_CAUSE 2).enterSafe 0xFF
  else s

/-! ## LBIST (R132, R537) -/

/-- A lane's LBIST ends: Ready on a pass, Failed otherwise. -/
def State.lbistEnd (s : State) (l : LaneId) (pass : Bool) : State :=
  if pass then s.setLane l .ready else (s.setLane l .failed).raise 2 []

/-- What the IST block does when the LBIST it started ends: IST_LBIST, its event and its note. [DEDUCED, unsafe: notes/assumptions/72.md] -/
def State.lbistReport (s : State) (l : LaneId) (pass : Bool) : State :=
  let s := ((s.wr F.IST_STAT_LBIST_RUN 0).satAdd F.IST_LBIST_RUNS 1).satAdd F.IST_LBIST_FAILS (b2n (!pass))
  let s := (s.wr F.IST_LBIST_LAST l.num).wr F.IST_LBIST_LAST_PASS (b2n pass)
  (s.raise (if pass then 456 else 457) [w32 l.num]).recNoteWrite 0x04 [w32 l.num, w32 (b2n pass), s.reg Reg.IST_LBIST]

/-- LANE_LBIST_END: the LBIST of a fenced lane ends with a result. -/
def laneLbistEnd (l : LaneId) (pass : Bool) (s : State) : State :=
  if s.phase = Phase.reset ∨ s.laneSt l ≠ LaneSt.fenced ∨ s.pwr.state = PowerState.e2 ∨ s.pwr.state = PowerState.e3 then s
  else
    let t := s.lbistEnd l pass
    if s.on F.IST_STAT_LBIST_RUN && s.rd F.IST_STAT_LBIST_LANE == l.num then t.lbistReport l pass else t

/-! ## Meanings -/

/-- The effect of CORD_SEAL. -/
def execCordSeal (a : SigOffer) (b : SigOffer) (c : SigOffer) (ns : Nat) (s : State) : Host.Outcome State Fault Refusal :=
  .next (cordSeal a b c ns s)
/-- The effect of COLD_RESUME_DONE. -/
def execColdResumeDone (s : State) : Host.Outcome State Fault Refusal := .next (coldResumeDone s)
/-- The effect of CORD_PERIOD_EXPIRY. -/
def execCordPeriodExpiry (s : State) : Host.Outcome State Fault Refusal := .next (cordPeriodExpiry s)
/-- The effect of ROLLBACK_RESTORE. -/
def execRollbackRestore (disagree : Bool) (undoErr : Option Nat) (s : State) : Host.Outcome State Fault Refusal :=
  .next (rollbackRestore disagree undoErr s)
/-- The effect of REPLAY_TIMEOUT. -/
def execReplayTimeout (s : State) : Host.Outcome State Fault Refusal := .next (replayTimeout s)
/-- The effect of LANE_LBIST_END. -/
def execLaneLbistEnd (l : LaneId) (pass : Bool) (s : State) : Host.Outcome State Fault Refusal :=
  .next (laneLbistEnd l pass s)

end Machine
end Sys2Proof
end

