-- ==== Sys2Proof/Machine/Harts.lean ====
section
/-!
DEFINITION. Execution by the harts (chapter 04): fetch, memory instructions, CSR instructions, waits and interrupts.
-/

namespace Sys2Proof
namespace Machine

/-! ## Ends of an instruction -/

/-- An exception of a hart at its pc. [DESIGN CHOICE, safe: notes/assumptions/14.md] -/
def State.except (s : State) (h : HartId) (cause : Nat) (tval : DWord) : State := s.setHart h ((s.hart h).trap false cause tval)

/-- An illegal-instruction exception; the spec gives mtval no value. [DESIGN CHOICE, safe: notes/assumptions/14.md] -/
def State.illegal (s : State) (h : HartId) : State :=
  let d := s.draw
  d.2.except h 2 d.1

/-- An instruction of `len` bytes completes; `tgt` is the target of a taken transfer. [DEDUCED, unsafe: notes/assumptions/15.md] -/
def State.retire (s : State) (h : HartId) (len : Nat) (tgt : Option DWord) : State := s.setHart h ((s.hart h).complete len tgt)

/-- An instruction completes with a value for an x register. -/
def State.retireX (s : State) (h : HartId) (len rd : Nat) (v : DWord) : State :=
  s.setHart h (((s.hart h).complete len none).setX rd v)

/-- An instruction completes with a value for an f register. -/
def State.retireF (s : State) (h : HartId) (len rd : Nat) (v : DWord) : State :=
  s.setHart h (((s.hart h).complete len none).setF rd v)

/-- A hart waits. -/
def State.park (s : State) (h : HartId) (w : HartWait) : State := s.setHart h { s.hart h with wait := w }

/-! ## Requests of a hart -/

/-- A request of a hart with its attributes (Table 5-1). -/
def State.reqOf (s : State) (h : HartId) (k : ReqKind) (priv : Priv) (a size : Nat) (data : DWord) : LaneReq :=
  let mask : BitVec 64 := if readsOnly k then 0 else BitVec.ofNat 64 (2 ^ size - 1)
  ⟨k, BitVec.ofNat 40 a, size, BitVec.ofNat 512 (data.toNat % 2 ^ (8 * size)), mask, h, priv, (s.hart h).dzpart⟩

/-- Setup-register space and the rack-bus windows judge size and alignment themselves (R8, R366). -/
def State.ownRules (s : State) (a : Nat) : Bool :=
  match s.region a with
  | .setup _ => true
  | .rack _ => true
  | _ => false

/-- The misaligned code of a request: 4 load and LR, 6 store, SC and AMO. [PRESUMED, unsafe: notes/assumptions/16.md] -/
def misCode (k : ReqKind) : Nat := if readsOnly k then 4 else 6

/-- PMP permits a data request. -/
def Hart.dataOk (h : Hart) (k : ReqKind) (a : Nat) : Bool :=
  let m := h.dataPriv
  match k with
  | .load => h.pmpOk m .r a
  | .lr => h.pmpOk m .r a
  | .amo _ => h.pmpOk m .r a && h.pmpOk m .w a
  | _ => h.pmpOk m .w a

/-- A data access of a hart: alignment, address space, PMP, then the voted request. [PRESUMED, unsafe: notes/assumptions/16.md] -/
def State.dataAccess (s : State) (h : HartId) (k : ReqKind) (a size : Nat) (data : DWord) (miss : Bool) : Resp × State :=
  if a % size ≠ 0 ∧ (decide (a < 2 ^ 40) && s.ownRules a) = false then (.fault (misCode k) a, s)
  else if 2 ^ 40 ≤ a ∨ (s.hart h).dataOk k a = false then (.fault (accFault k) a, s)
  else s.laneAccess (s.reqOf h k (s.hart h).dataPriv a size data) miss

/-- What follows a response: the instruction's own effect on data, an exception, a wait or a divergence. -/
def State.onResp (s : State) (h : HartId) (r : LaneReq) (x : Resp) (k : DWord → State) : State :=
  match x with
  | .data v => k v
  | .fault c a => s.except h c (BitVec.ofNat 64 a)
  | .hold w => s.park h w
  | .diverged => s.diverge r

/-- A memory instruction: its access, then `k` with the value. -/
def State.doMem (s : State) (h : HartId) (kind : ReqKind) (a size : Nat) (data : DWord) (miss : Bool) (k : DWord → State → State) :
    State :=
  let x := s.dataAccess h kind a size data miss
  x.2.onResp h (s.reqOf h kind (s.hart h).dataPriv a size data) x.1 (fun v => k v x.2)

/-! ## CSR instructions (R94, R102, R107, R123) -/

/-- The hart can access a CSR: it exists, and the mode reaches it. -/
def State.csrExists (s : State) (h : HartId) (c : Nat) : Bool :=
  (s.hart h).csrAllowed c && ((s.csrPlain h c).isSome || csrTimed c || c == 0x7C1)

/-- The live value of time, cycle or mcycle: TB_RAW, or the count of clocks, which only the hardware gives unless
mcountinhibit.CY stops it. -/
def State.timeNow (s : State) (h : HartId) (c : Nat) : DWord × State :=
  if c = 0xC01 then (s.tb.raw, s) else if (s.hart h).mcountinhibit.getLsbD 0 then ((s.hart h).mcycle, s) else s.draw

/-- A read of time, cycle or mcycle: logged in the Operate phase, and served from the log in re-execution. -/
def State.timedRead (s : State) (h : HartId) (c : Nat) : Resp × State :=
  if !s.operate then
    let v := s.timeNow h c
    (.data v.1, v.2)
  else if s.on F.CORD_STAT_REPLAY then
    match s.cord.replay.find? (fun x => timeHart x == some h) with
    | some (.time k c' v) => if c' = c then (.data v, s.consume (.time k c' v)) else (.diverged, s)
    | _ => (.hold .access, s)
  else
    let v := s.timeNow h c
    match v.2.logTake (.time h c v.1) (some (s.hart h).dzpart) with
    | some t => (.data v.1, t)
    | none => (.hold .access, s)

/-- A read of a CSR. -/
def State.csrRead (s : State) (h : HartId) (c : Nat) : Resp × State :=
  if csrTimed c then s.timedRead h c
  else if c = 0x7C1 then
    let r := s.plic.read (s.hart h).dzpsel.toNat
    (.data (BitVec.ofNat 64 r.1), { s with plic := r.2 })
  else (.data (BitVec.ofNat 64 ((s.csrPlain h c).getD 0)), s)

/-- A CSR instruction; `src` is a register number or an immediate. [DEDUCED, unsafe: notes/assumptions/15.md; DEDUCED, unsafe: notes/assumptions/97.md] -/
def State.csrDo (s : State) (h : HartId) (op : CsrOp) (useImm : Bool) (rd src c : Nat) : State :=
  let writes := op == .rw || src != 0
  let reads := op != .rw || rd != 0
  let v : DWord := if useImm then BitVec.ofNat 64 src else (s.hart h).xr src
  if !s.csrExists h c || (writes && bits c 10 2 == 3) then s.illegal h
  else
    let x := if reads then s.csrRead h c else (.data 0, s)
    x.2.onResp h (s.reqOf h .load (s.hart h).priv 0 4 0) x.1 (fun old =>
      let t := x.2.retireX h 4 rd old
      if writes then t.csrPut h c (csrValue op old v).toNat else t)

/-! ## Waits (R76, R95, R119 to R122) -/

/-- The Setup phase or the Operate phase, with the lanes released and running. -/
def State.lanesRun (s : State) : Bool :=
  s.lanes.on && !s.lanes.resuming && (s.phase == .setup || s.operate) && !s.on F.CORD_STAT_ROLLING &&
    (s.pwr.state == PowerState.run || s.pwr.state == PowerState.entering)

/-- All four harts are in a qualified WFI: the entry sequence starts. Each goes on from the next instruction, and in the
Operate phase a Cord is forced (R76). -/
def State.emberStart (s : State) : State :=
  let s := allHarts.foldl (fun t h => t.setHart h { (t.hart h).complete 4 none with wait := .wfiEmber }) s
  let s := { s with pwr := { s.pwr with state := .entering } }
  s.requestCord 8

/-- WFI: it retires where an interrupt that ends it is pending, and waits otherwise. -/
def State.doWfi (s : State) (h : HartId) : State :=
  if (s.hart h).priv = Priv.user then s.illegal h else if s.wakes h then s.retire h 4 none else s.park h .wfi

/-- The Ember-qualified WFI. -/
def State.doWfiEmber (s : State) (h : HartId) : State :=
  if (s.hart h).priv = Priv.user then s.illegal h
  else if s.wakes h then s.retire h 4 none
  else
    let t := s.park h .wfiEmber
    if allHarts.all (fun k => (t.hart k).wait == .wfiEmber) then t.emberStart else t

/-- DZC.CORD. -/
def State.doCord (s : State) (h : HartId) (rd : BitVec 5) : State :=
  let x := s.hart h
  if x.priv = Priv.user ∧ x.ucord = false then s.illegal h
  else if !s.operate then s.retireX h 4 rd.toNat (~~~ 0#64)
  else (s.requestCord 3).park h (.cord rd)

/-- A setup-register write of a hart waits still in the fabric (R30, R568). -/
def State.hartWrites (s : State) (h : HartId) : Bool :=
  s.heldWrites.any (fun x => match x.1 with
    | .lane k _ => k == h
    | _ => false)

/-- DZC.CFENCE: it retires once the Flue holds no record of its hart, and in the Setup phase once its earlier stores have
completed (R121). -/
def State.doCfence (s : State) (h : HartId) : State :=
  if if s.operate then s.flue.recs.any (fun r => r.hart == h) else s.hartWrites h then s.park h .cfence else s.retire h 4 none

/-- DZL.SETUP (R111, R112). -/
def State.doDzlSetup (s : State) (h : HartId) (rs1 uimm : Nat) : State :=
  let x := s.hart h
  if uimm < 3 ∨ (x.lpCount ≠ 0 ∧ x.lpMode = x.priv) then s.illegal h
  else
    let stop := x.pc + BitVec.ofNat 64 (2 * uimm)
    let n : Word := (x.xr rs1).setWidth 32
    s.setHart h { x.complete 4 (if n = 0 then some stop else none) with
      lpstart := x.pc + 4, lpend := stop, lpCount := n, lpMode := x.priv }

/-- MRET is illegal in U-mode. -/
def State.doMret (s : State) (h : HartId) : State :=
  if (s.hart h).priv = Priv.user then s.illegal h else s.setHart h (s.hart h).mret

/-! ## Floating point -/

/-- Flags accumulate in fcsr, and FS becomes Dirty. [PRESUMED, unsafe: notes/assumptions/96.md] -/
def Hart.flags (h : Hart) (fl : Nat) : Hart := { h with fcsr := h.fcsr ||| BitVec.ofNat 8 (fl % 32), fs := 3 }

/-- A floating-point result is written; none stands for a reserved rounding mode. -/
def State.fpDone (s : State) (h : HartId) (len rd : Nat) (r : Option FRes) : State :=
  match r with
  | none => s.illegal h
  | some (.toX v fl) => s.setHart h ((((s.hart h).complete len none).setX rd v).flags fl)
  | some (.toF v fl) => s.setHart h ((((s.hart h).complete len none).setF rd v).flags fl)

/-! ## One instruction -/

/-- Loads and stores of both register files. -/
def State.execMem (s : State) (h : HartId) (len : Nat) (i : Rv) (miss : Bool) : State :=
  let x := s.hart h
  let at_ (rs1 : Nat) (off : DWord) : Nat := (x.xr rs1 + off).toNat
  match i with
  | .load f3 rd rs1 off =>
    s.doMem h .load (at_ rs1 off) (loadSize f3) 0 miss (fun v t => t.retireX h len rd (loadExt f3 v))
  | .store f3 rs1 rs2 off => s.doMem h .store (at_ rs1 off) (2 ^ f3) (x.xr rs2) miss (fun _ t => t.retire h len none)
  | .lr size rd rs1 =>
    s.doMem h .lr (x.xr rs1).toNat size 0 miss (fun v t => t.retireX h len rd (if size = 4 then sxw v else v))
  | .sc size rd rs1 rs2 => s.doMem h .sc (x.xr rs1).toNat size (x.xr rs2) miss (fun v t => t.retireX h len rd v)
  | .amo op size rd rs1 rs2 =>
    s.doMem h (.amo op) (x.xr rs1).toNat size (x.xr rs2) miss (fun v t => t.retireX h len rd (if size = 4 then sxw v else v))
  | .fload size rd rs1 off =>
    if x.fs = 0 then s.illegal h
    else s.doMem h .load (at_ rs1 off) size 0 miss (fun v t => t.retireF h len rd (if size = 4 then box false v.toNat else v))
  | .fstore size rs1 rs2 off =>
    if x.fs = 0 then s.illegal h else s.doMem h .store (at_ rs1 off) size (x.fr rs2) miss (fun _ t => t.retire h len none)
  | _ => s

/-- Register instructions, transfers and floating point. -/
def State.execReg (s : State) (h : HartId) (len : Nat) (i : Rv) : State :=
  let x := s.hart h
  let next := x.pc + BitVec.ofNat 64 len
  let frm := x.fcsr.toNat / 32
  match i with
  | .lui rd imm => s.retireX h len rd imm
  | .auipc rd imm => s.retireX h len rd (x.pc + imm)
  | .jal rd off => s.setHart h ((x.complete len (some (x.pc + off))).setX rd next)
  | .jalr rd rs1 off => s.setHart h ((x.complete len (some ((x.xr rs1 + off) &&& ~~~ 1#64))).setX rd next)
  | .branch f3 rs1 rs2 off =>
    s.retire h len (if branchTaken f3 (x.xr rs1) (x.xr rs2) then some (x.pc + off) else none)
  | .aluImm op w rd rs1 imm => s.retireX h len rd (aluDo op w (x.xr rs1) imm)
  | .alu op w rd rs1 rs2 => s.retireX h len rd (aluDo op w (x.xr rs1) (x.xr rs2))
  | .fma dbl k rm rd rs1 rs2 rs3 =>
    if x.fs = 0 then s.illegal h else s.fpDone h len rd (fmaRun dbl k rm frm (x.fr rs1) (x.fr rs2) (x.fr rs3))
  | .fop dbl f5 rm rd rs1 rs2 =>
    if x.fs = 0 then s.illegal h else s.fpDone h len rd (fopRun dbl f5 rm rs2 frm (x.fr rs1) (x.fr rs2) (x.xr rs1))
  | _ => s.retire h len none

/-- A decoded instruction of `len` bytes at a hart's pc. `miss` says that a Plain access leaves the lane complex. -/
def State.execRv (s : State) (h : HartId) (len : Nat) (i : Rv) (miss : Bool) : State :=
  match i with
  | .load .. => s.execMem h len i miss
  | .store .. => s.execMem h len i miss
  | .lr .. => s.execMem h len i miss
  | .sc .. => s.execMem h len i miss
  | .amo .. => s.execMem h len i miss
  | .fload .. => s.execMem h len i miss
  | .fstore .. => s.execMem h len i miss
  | .ecall => s.except h (if (s.hart h).priv = Priv.user then 8 else 11) 0
  | .ebreak =>
    if s.ebreakHalts h then s.dbgHalt h 1
    else
      let d := s.draw
      d.2.except h 3 d.1
  | .mret => s.doMret h
  | .wfi => s.doWfi h
  | .csr op useImm rd src c => s.csrDo h op useImm rd src c
  | .dzlSetup rs1 uimm => s.doDzlSetup h rs1 uimm
  | .cfence => s.doCfence h
  | .cord rd => s.doCord h (BitVec.ofNat 5 rd)
  | .dzcWfi ember => if ember then s.doWfiEmber h else s.doWfi h
  | .lui .. => s.execReg h len i
  | .auipc .. => s.execReg h len i
  | .jal .. => s.execReg h len i
  | .jalr .. => s.execReg h len i
  | .branch .. => s.execReg h len i
  | .aluImm .. => s.execReg h len i
  | .alu .. => s.execReg h len i
  | .fence => s.execReg h len i
  | .fma .. => s.execReg h len i
  | .fop .. => s.execReg h len i

/-! ## Fetch -/

/-- The fetch of one 2-byte parcel. [DEDUCED, unsafe: notes/assumptions/17.md] -/
def State.fetchParcel (s : State) (h : HartId) (a : Nat) (miss : Bool) : Resp × State :=
  let x := s.hart h
  if 2 ^ 40 ≤ a ∨ x.pmpOk x.priv .x a = false then (.fault 1 a, s)
  else s.laneAccess (s.reqOf h .fetch x.priv a 2 0) miss

/-- The word of the instruction at a hart's pc: one parcel, or two where its low bits are 0b11. [DEDUCED, unsafe: notes/assumptions/17.md] -/
def State.fetch (s : State) (h : HartId) (miss : Bool) : Resp × State :=
  let a := (s.hart h).pc.toNat
  let p := s.fetchParcel h a miss
  match p.1 with
  | .data lo =>
    if lo.toNat % 4 ≠ 3 then p
    else
      let q := p.2.fetchParcel h (a + 2) miss
      (match q.1 with
        | .data hi => .data (BitVec.ofNat 64 (lo.toNat + 65536 * hi.toNat))
        | x => x, q.2)
  | _ => p

/-- A fetched word is decoded and executed. -/
def State.runWord (s : State) (h : HartId) (w : Nat) (miss : Bool) : State :=
  let long := w % 4 == 3
  match (if long then decode32 w else decode16 w) with
  | none => s.illegal h
  | some i => s.execRv h (if long then 4 else 2) i miss

/-- The hart has no instruction in hand any more. -/
def State.dropFetched (s : State) (h : HartId) : State :=
  { s with lanes := { s.lanes with fetched := Sparse.erase s.lanes.fetched h.val } }

/-- A wait in the middle of an instruction that goes on with the word in hand. -/
def HartWait.midway : HartWait → Bool
  | .held => true
  | .access => true
  | .rack => true
  | .cfence => true
  | _ => false

/-- A word executes; where it stalls on its own access it stays in hand, and the hart does not fetch it again. [DEDUCED, unsafe: notes/assumptions/17.md] -/
def State.runHand (s : State) (h : HartId) (w : Nat) (miss : Bool) : State :=
  let t := (s.dropFetched h).runWord h w miss
  if (t.hart h).wait.midway then
    { t with lanes := { t.lanes with fetched := Sparse.insert t.lanes.fetched h.val (w32 w) } }
  else t

/-- The instruction at a hart's pc is fetched, unless it is in hand, and executed. A fetch that can't be performed now leaves
nothing behind. -/
def State.runPc (s : State) (h : HartId) (fmiss miss : Bool) : State :=
  match Sparse.lookup s.lanes.fetched h.val with
  | some w => s.runHand h w.toNat miss
  | none =>
    let f := s.fetch h fmiss
    match f.1 with
    | .hold w => s.park h w
    | x => f.2.onResp h (s.reqOf h .fetch (s.hart h).priv (s.hart h).pc.toNat 2 0) x (fun w => f.2.runHand h w.toNat miss)

/-! ## When a hart steps -/

/-- An ended access of a hart waits for its retirement. -/
def State.hasReady (s : State) (h : HartId) : Bool := (Sparse.lookup s.lanes.ready h.val).isSome

/-- Nothing stops the harts at this instruction boundary: no Cord is due (R145), and no logged source change applies first
(R158). A hart with an ended access retires it all the same, and one in Debug Mode does nothing. -/
def State.mayStep (s : State) (h : HartId) : Bool := s.lanesRun && (s.hasReady h || !s.cordDue) && !s.srcBlocks h && !s.halted h

/-- A hart that waits for an end of its access. -/
def HartWait.access? : HartWait → Bool
  | .rack => true
  | .held => true
  | _ => false

/-- A hart executes the instruction at its pc: it runs, or tries again what it waits on. -/
def State.canRun (s : State) (h : HartId) : Bool :=
  s.mayStep h &&
    (match (s.hart h).wait with
      | .run => true
      | .access => true
      | .cfence => true
      | w => w.access? && s.hasReady h)

/-- A hart waits in a WFI that an interrupt ends. -/
def State.wfiEnds (s : State) (h : HartId) : Bool :=
  s.mayStep h && s.wakes h &&
    ((s.hart h).wait == .wfi || ((s.hart h).wait == .wfiEmber && s.pwr.state == PowerState.run))

/-- Source changes of the input log that have become due apply (R158). -/
def State.applyLogged (s : State) : State := s.applyDue s.cord.replay.length

/-- A hart takes an interrupt first (R109), but for one that has an ended access to retire or runs one step of a debugger. -/
def State.irqFirst (s : State) (h : HartId) : Bool := (s.irqOf h).isSome && !s.hasReady h && !s.stepping h

/-- A hart executes the instruction at its pc, or a WFI it waits in ends. `fmiss` and `miss` say that the fetch
and the data access leave the lane complex. [DEDUCED, safe: notes/assumptions/18.md] -/
def instruction (h : HartId) (fmiss miss : Bool) (s : State) : State :=
  if s.irqFirst h then s
  else if s.canRun h then (s.runPc h fmiss miss).applyLogged
  else if s.wfiEnds h then (s.retire h 4 none).applyLogged
  else s

/-- A pending enabled interrupt is taken between instructions; a WFI it ends has completed. -/
def interruptTake (h : HartId) (s : State) : State :=
  match s.irqOf h with
  | none => s
  | some c =>
    if s.hasReady h || s.stepping h then s
    else if s.canRun h then (s.dropFetched h).setHart h ((s.hart h).trap true c 0)
    else if s.wfiEnds h then
      let t := s.retire h 4 none
      (t.setHart h ((t.hart h).trap true c 0)).applyLogged
    else s

/-- A hart executes a given instruction next; none is in its hand. [DESIGN CHOICE, safe: notes/assumptions/20.md] -/
def State.hartDo (s : State) (h : HartId) (i : Rv) : State :=
  if s.canRun h && !s.irqFirst h && !s.hasReady h && (Sparse.lookup s.lanes.fetched h.val).isNone then
    (s.execRv h 4 i false).applyLogged
  else s

/-! ## Rows of single instructions -/

/-- WFI. -/
def wfi (h : HartId) (s : State) : State := s.hartDo h .wfi
/-- DZC.WFI with qualifier 0. -/
def dzcWfi (h : HartId) (s : State) : State := s.hartDo h (.dzcWfi false)
/-- DZC.WFI with qualifier 1. -/
def dzcWfiEmber (h : HartId) (s : State) : State := s.hartDo h (.dzcWfi true)
/-- MRET. -/
def mret (h : HartId) (s : State) : State := s.hartDo h .mret
/-- A CSR instruction. -/
def csrWrite (h : HartId) (op : CsrOp) (useImm : Bool) (rd src : BitVec 5) (c : BitVec 12) (s : State) : State :=
  s.hartDo h (.csr op useImm rd.toNat src.toNat c.toNat)
/-- DZL.SETUP. -/
def dzlSetup (h : HartId) (rs1 : BitVec 5) (uimm : BitVec 12) (s : State) : State := s.hartDo h (.dzlSetup rs1.toNat uimm.toNat)
/-- DZC.CORD. -/
def dzcCord (h : HartId) (rd : BitVec 5) (s : State) : State := s.hartDo h (.cord rd.toNat)
/-- DZC.CFENCE. -/
def dzcCfence (h : HartId) (s : State) : State := s.hartDo h .cfence

/-- DZPSEL names a claim offset. -/
def State.atClaim (s : State) (h : HartId) : Bool :=
  match plicReg (s.hart h).dzpsel.toNat with
  | .claim _ => true
  | _ => false

/-- PLIC_CLAIM: a DZPDATA read at a claim offset. -/
def plicClaim (h : HartId) (rd : BitVec 5) (s : State) : State :=
  if s.atClaim h then s.hartDo h (.csr .rs false rd.toNat 0 0x7C1) else s

/-- PLIC_COMPLETE: a DZPDATA write at a claim offset. -/
def plicComplete (h : HartId) (rs : BitVec 5) (s : State) : State :=
  if s.atClaim h then s.hartDo h (.csr .rw false 0 rs.toNat 0x7C1) else s

/-! ## Meanings -/

/-- The effect of WFI. -/
def execWfi (h : HartId) (s : State) : Host.Outcome State Fault Refusal := .next (wfi h s)
/-- The effect of DZC_WFI. -/
def execDzcWfi (h : HartId) (s : State) : Host.Outcome State Fault Refusal := .next (dzcWfi h s)
/-- The effect of DZC_WFI_EMBER. -/
def execDzcWfiEmber (h : HartId) (s : State) : Host.Outcome State Fault Refusal := .next (dzcWfiEmber h s)
/-- The effect of MRET. -/
def execMret (h : HartId) (s : State) : Host.Outcome State Fault Refusal := .next (mret h s)
/-- The effect of CSR_WRITE. -/
def execCsrWrite (h : HartId) (op : CsrOp) (useImm : Bool) (rd : BitVec 5) (src : BitVec 5) (c : BitVec 12) (s : State) : Host.Outcome State Fault Refusal :=
  .next (csrWrite h op useImm rd src c s)
/-- The effect of DZL_SETUP. -/
def execDzlSetup (h : HartId) (rs1 : BitVec 5) (uimm : BitVec 12) (s : State) : Host.Outcome State Fault Refusal :=
  .next (dzlSetup h rs1 uimm s)
/-- The effect of DZC_CORD. -/
def execDzcCord (h : HartId) (rd : BitVec 5) (s : State) : Host.Outcome State Fault Refusal := .next (dzcCord h rd s)
/-- The effect of DZC_CFENCE. -/
def execDzcCfence (h : HartId) (s : State) : Host.Outcome State Fault Refusal := .next (dzcCfence h s)
/-- The effect of PLIC_CLAIM. -/
def execPlicClaim (h : HartId) (rd : BitVec 5) (s : State) : Host.Outcome State Fault Refusal :=
  .next (plicClaim h rd s)
/-- The effect of PLIC_COMPLETE. -/
def execPlicComplete (h : HartId) (rs : BitVec 5) (s : State) : Host.Outcome State Fault Refusal :=
  .next (plicComplete h rs s)

end Machine
end Sys2Proof
end

