-- ==== Sys2Proof/Machine/MpCore.lean ====
section
/-!
DEFINITION. The hart of the management processor (R97, R546): RV32IMC with Zicsr in M-mode, over the address map of
Table 21-5. It is not voted, takes no Cords and is not stopped by them.
-/

namespace Sys2Proof
namespace Machine

/-! ## Registers and traps -/

/-- x register r; x0 reads 0. -/
def MpCore.xr (m : MpCore) (r : Nat) : Word := if r = 0 then 0 else Sparse.get m.x 0 r

/-- Writes x register r; a write to x0 is lost. -/
def MpCore.setX (m : MpCore) (r : Nat) (v : Word) : MpCore := if r = 0 then m else { m with x := Sparse.set m.x 0 r v }

/-- Trap entry: mepc, mcause, mtval, the mstatus stack and the vector. -/
def MpCore.trap (m : MpCore) (irq : Bool) (cause : Nat) (tval : Word) : MpCore :=
  let base := m.mtvec &&& ~~~ 3#32
  { m with
    mepc := m.pc &&& ~~~ 1#32
    mcause := w32 (cause + (if irq then 2 ^ 31 else 0))
    mtval := tval
    mpie := m.mie
    mie := false
    pc := if irq ∧ m.mtvec.toNat % 4 = 1 then base + w32 (4 * cause) else base
    waits := false }

/-- An instruction completes, and the next one is at an address. -/
def MpCore.goes (m : MpCore) (pc : Word) : MpCore :=
  { m with pc := pc, waits := false, minstret := if m.mcountinhibit.getLsbD 2 then m.minstret else m.minstret + 1 }

/-- MRET. -/
def MpCore.mret (m : MpCore) : MpCore := { m.goes m.mepc with mie := m.mpie, mpie := true }

/-- Replaces the hart of the MP. -/
def State.setMp (s : State) (m : MpCore) : State := { s with mp := { s.mp with core := m } }

/-- mtime: the RTC, from where a write has put it (Table 21-5). -/
def State.mtime (s : State) : DWord := s.pwr.rtc.setWidth 64 + s.mp.mtimeOfs

/-- mip: MEIP and MTIP (R546). -/
def State.mpMip (s : State) : Word :=
  w32 (2048 * b2n (s.rd F.MPX_IRQ_PEND_IRQ &&& s.rd F.MPX_IRQ_EN_IRQ != 0) + 128 * b2n (decide (s.mp.mtimecmp.toNat ≤ s.mtime.toNat)))

/-- The interrupt the MP takes next, by its cause code: external 11 before timer 7. -/
def State.mpIrqOf (s : State) : Option Nat :=
  let p := s.mpMip &&& s.mp.core.mieReg
  if !s.mp.core.mie then none else if p.getLsbD 11 then some 11 else if p.getLsbD 7 then some 7 else none

/-! ## The address map (Table 21-5) -/

/-- Where an address of the MP falls. -/
inductive MpPlace where
  | sram (a : Nat)
  | rom (a : Nat)
  | timer (a : Nat)
  | device
  | flash (a : Nat)
  | setup (off : Nat)
  | mram (a : Nat)
  | dram (a : Nat)
  | unmapped
deriving DecidableEq, Repr

/-- The place of an address; a window address outside DRAM names nothing. [DEDUCED, unsafe: notes/assumptions/85.md] -/
def State.mpPlace (s : State) (a : Nat) : MpPlace :=
  let w := s.rd F.MPX_DWIN_BASE * 2 ^ 31 + a % 2 ^ 31
  if a < 0x80000 then .sram a
  else if 0x1000000 ≤ a ∧ a < 0x1010000 then .rom (a - 0x1000000)
  else if 0x2000000 ≤ a ∧ a < 0x2000010 then .timer (a - 0x2000000)
  else if 0x3000000 ≤ a ∧ a < 0x3100000 then .device
  else if 0x20000000 ≤ a ∧ a < 0x30000000 then .flash a
  else if 0x40000000 ≤ a ∧ a < 0x40140000 then .setup (a - 0x40000000)
  else if 0x60000000 ≤ a ∧ a < 0x61000000 then .mram a
  else if 0x80000000 ≤ a ∧ inDram w 1 then .dram w
  else .unmapped

/-- What an access of the MP gets: data, an access fault, or a wait. -/
inductive MpResp where
  | data (v : Nat)
  | fault
  | hold
deriving DecidableEq, Repr

/-- An access of the MP to DRAM waits: the DRAM is in self-refresh, or the line is Plain memory while the Cord engine rolls
back (R157). -/
def State.mpHeld (s : State) (a : Nat) : Bool :=
  s.pwr.state == .e2 || s.pwr.state == .e3 || s.rollHolds a 1

/-- A read of n bytes by the MP, aligned to n; `exec` for a fetch. The controllers of the ports answer what their firmware
alone knows. [DEDUCED, unsafe: notes/assumptions/85.md] -/
def State.mpRead (s : State) (a n : Nat) (exec : Bool) : MpResp × State :=
  match s.mpPlace a with
  | .sram a => (.data (leNat ((List.range n).map (fun i => Sparse.get s.mp.sram 0 (a + i)))), s)
  | .rom a => (.data (leNat ((List.range n).map (fun i => Config.tinderRom (a + i)))), s)
  | .timer a =>
    if exec then (.fault, s)
    else (.data (leNat (((leBytes 8 s.mtime.toNat ++ leBytes 8 s.mp.mtimecmp.toNat).drop a).take n)), s)
  | .device => if exec then (.fault, s) else let d := s.draw; (.data (d.1.toNat % 2 ^ (8 * n)), d.2)
  | .flash a => (.data (s.le a n), s)
  | .setup off =>
    if exec || n != 4 then (.fault, s) else let x := s.setupRead .mp off; (.data x.1.toNat, x.2)
  | .mram a => (.data (s.le a n), s)
  | .dram a =>
    if s.mpHeld a then (.hold, s)
    else
      let d := s.draw
      let r := d.2.readCheck a n (d.1.toNat % 256)
      (if r.1 then .data (s.le a n) else .fault, r.2)
  | .unmapped => (.fault, s)

/-- The 16 bytes of mtime and mtimecmp take a store of n bytes at offset a; mtime counts on from what is written. -/
def State.mpTimer (s : State) (a : Nat) (bs : List Byte) : State :=
  let all := leBytes 8 s.mtime.toNat ++ leBytes 8 s.mp.mtimecmp.toNat
  let new := all.take a ++ bs ++ all.drop (a + bs.length)
  { s with mp := { s.mp with
      mtimeOfs := s.mp.mtimeOfs + (BitVec.ofNat 64 (leNat (new.take 8)) - s.mtime)
      mtimecmp := BitVec.ofNat 64 (leNat (new.drop 8)) } }

/-- A store by the MP to DRAM: Volatile memory, or a word of the doorbell array, whose ring the watcher judges (R14, R200,
R202). [DEDUCED, unsafe: notes/assumptions/85.md] -/
def State.mpDram (s : State) (a : Nat) (bs : List Byte) : MpResp × State :=
  let bell := s.inDoorbells a bs.length
  if s.mpHeld a then (.hold, s)
  else if !(bell || s.engineMayWrite a bs.length) then (.fault, s)
  else
    let d := s.draw
    let t := d.2.busWrite a bs (d.1.toNat % 256)
    (.data 0, if bell && t.operate then t.watch (BitVec.ofNat 15 ((a - t.dbBase) / 8)) .mp else t)

/-- A store of the MP, aligned to its size (R14). [DEDUCED, unsafe: notes/assumptions/85.md] -/
def State.mpWrite (s : State) (a : Nat) (bs : List Byte) : MpResp × State :=
  match s.mpPlace a with
  | .sram a =>
    (.data 0, { s with mp := { s.mp with sram := (addrBytes a bs).foldl (fun m p => Sparse.set m 0 p.1 p.2) s.mp.sram } })
  | .timer a => (.data 0, s.mpTimer a bs)
  | .device => (.data 0, s)
  | .setup off => if bs.length ≠ 4 then (.fault, s) else (.data 0, s.setupStore .mp off (w32 (leNat bs)))
  | .mram a =>
    if a < 0x60100000 ∨ (0x60300000 ≤ a ∧ a < 0x60400000) then (.data 0, s.setBytes a bs) else (.fault, s)
  | .dram a => s.mpDram a bs
  | .rom _ => (.fault, s)
  | .flash _ => (.fault, s)
  | .unmapped => (.fault, s)

/-! ## CSRs -/

/-- mstatus of the MP: MIE, MPIE, and MPP, which reads M. [PRESUMED, unsafe: notes/assumptions/86.md] -/
def MpCore.mstatus (m : MpCore) : Word := w32 (8 * b2n m.mie + 128 * b2n m.mpie + 0x1800)

/-- A CSR of the MP that needs no free value, or none where it has no such CSR. [PRESUMED, unsafe: notes/assumptions/86.md] -/
def State.mpCsr (s : State) (c : Nat) : Option Word :=
  let m := s.mp.core
  if c = 0x300 then some m.mstatus
  else if c = 0x301 then some 0x40001104
  else if c = 0x304 then some m.mieReg
  else if c = 0x305 then some m.mtvec
  else if c = 0x310 then some 0
  else if c = 0x320 then some (m.mcountinhibit.setWidth 32)
  else if 0x323 ≤ c ∧ c ≤ 0x33F then some 0
  else if c = 0x340 then some m.mscratch
  else if c = 0x341 then some m.mepc
  else if c = 0x342 then some m.mcause
  else if c = 0x343 then some m.mtval
  else if c = 0x344 then some s.mpMip
  else if c = 0xB02 then some (m.minstret.setWidth 32)
  else if c = 0xB82 then some (w32 (m.minstret.toNat / 2 ^ 32))
  else if (0xB03 ≤ c ∧ c ≤ 0xB1F) ∨ (0xB83 ≤ c ∧ c ≤ 0xB9F) then some 0
  else if 0xF11 ≤ c ∧ c ≤ 0xF14 then some (Config.mpIdent c)
  else if c = 0xF15 then some 0
  else none

/-- mcycle and mcycleh. -/
def mpClock (c : Nat) : Bool := c == 0xB00 || c == 0xB80

/-- A read of a CSR of the MP; mcycle counts clocks, which only the hardware gives unless it is stopped. -/
def State.mpCsrRead (s : State) (c : Nat) : Word × State :=
  if mpClock c then
    let x := if s.mp.core.mcountinhibit.getLsbD 0 then (s.mp.core.mcycle, s) else s.draw
    (if c = 0xB00 then x.1.setWidth 32 else w32 (x.1.toNat / 2 ^ 32), x.2)
  else ((s.mpCsr c).getD 0, s)

/-- One half of a 64-bit counter replaced. -/
def setHalf (old : DWord) (hi : Bool) (v : Word) : DWord :=
  BitVec.ofNat 64 (setBits old.toNat (if hi then 32 else 0) 32 v.toNat)

/-- A write to a CSR of the MP. [PRESUMED, unsafe: notes/assumptions/86.md] -/
def State.mpCsrPut (s : State) (c : Nat) (v : Word) : State :=
  let m := s.mp.core
  if c = 0x300 then s.setMp { m with mie := v.getLsbD 3, mpie := v.getLsbD 7 }
  else if c = 0x304 then s.setMp { m with mieReg := v &&& 0x888#32 }
  else if c = 0x305 then s.setMp { m with mtvec := v &&& ~~~ 2#32 }
  else if c = 0x320 then
    let y := { m with mcountinhibit := v.setWidth 3 &&& 0b101#3 }
    if v.getLsbD 0 && !m.mcountinhibit.getLsbD 0 then
      let d := s.draw
      d.2.setMp { y with mcycle := d.1 }
    else s.setMp y
  else if c = 0x340 then s.setMp { m with mscratch := v }
  else if c = 0x341 then s.setMp { m with mepc := v &&& ~~~ 1#32 }
  else if c = 0x342 then s.setMp { m with mcause := v }
  else if c = 0x343 then s.setMp { m with mtval := v }
  else if c = 0xB00 ∨ c = 0xB80 then s.setMp { m with mcycle := setHalf m.mcycle (c == 0xB80) v }
  else if c = 0xB02 ∨ c = 0xB82 then s.setMp { m with minstret := setHalf m.minstret (c == 0xB82) v }
  else s

/-! ## Decoding: RV32IMC with Zicsr -/

/-- An instruction of RV32IM with Zicsr: no doubleword, no word form of RV64, no A, F or D, and a shift by less than 32. -/
def rv32 (i : Rv) : Option Rv :=
  match i with
  | .load f3 .. => if f3 = 3 ∨ f3 = 6 then none else some i
  | .store f3 .. => if f3 = 3 then none else some i
  | .aluImm op w _ _ imm =>
    if w || ((op == .sll || op == .srl || op == .sra) && decide (32 ≤ imm.toNat)) then none else some i
  | .alu _ w .. => if w then none else some i
  | .lui .. => some i
  | .auipc .. => some i
  | .jal .. => some i
  | .jalr .. => some i
  | .branch .. => some i
  | .fence => some i
  | .ecall => some i
  | .ebreak => some i
  | .mret => some i
  | .wfi => some i
  | .csr .. => some i
  | _ => none

/-- The instruction of a word of the MP; none is illegal. FENCE.I is not of its profile, and C.JAL stands where RV64 has
C.ADDIW. -/
def mpDecode (w : Nat) : Option Rv :=
  if w % 4 = 3 then (if w % 128 = 0x0F ∧ bits w 12 3 ≠ 0 then none else (decode32 w).bind rv32)
  else if w % 4 = 1 ∧ bits w 13 3 = 1 then
    (match decode16 (setBits w 13 3 5) with
      | some (.jal _ off) => some (.jal 1 off)
      | _ => none)
  else (decode16 w).bind rv32

/-! ## Execution -/

/-- An exception of the MP. -/
def State.mpExcept (s : State) (cause : Nat) (tval : Word) : State := s.setMp (s.mp.core.trap false cause tval)

/-- An exception to whose mtval the spec gives no value. -/
def State.mpExceptFree (s : State) (cause : Nat) : State := s.draw.2.mpExcept cause (s.draw.1.setWidth 32)

/-- The MP completes an instruction of `len` bytes with a value for an x register. -/
def State.mpRetire (s : State) (len rd : Nat) (v : Word) : State :=
  s.setMp ((s.mp.core.goes (s.mp.core.pc + w32 len)).setX rd v)

/-- A load of the MP. -/
def State.mpLoad (s : State) (len f3 rd : Nat) (a : Word) : State :=
  let n := loadSize f3
  if a.toNat % n ≠ 0 then s.mpExcept 4 a
  else
    let x := s.mpRead a.toNat n false
    match x.1 with
    | .data v => x.2.mpRetire len rd ((loadExt f3 (BitVec.ofNat 64 v)).setWidth 32)
    | .fault => x.2.mpExcept 5 a
    | .hold => s

/-- A store of the MP. A store that resets the module is the last thing the MP does before it. [DEDUCED, unsafe: notes/assumptions/85.md] -/
def State.mpStore (s : State) (len f3 : Nat) (a v : Word) : State :=
  if a.toNat % 2 ^ f3 ≠ 0 then s.mpExcept 6 a
  else
    let x := s.mpWrite a.toNat (leBytes (2 ^ f3) v.toNat)
    match x.1 with
    | .data _ => if x.2.mp.core.on then x.2.mpRetire len 0 0 else x.2
    | .fault => x.2.mpExcept 7 a
    | .hold => s

/-- A CSR instruction of the MP. -/
def State.mpCsrDo (s : State) (op : CsrOp) (useImm : Bool) (rd src c : Nat) : State :=
  let writes := op == .rw || src != 0
  let v : Word := if useImm then w32 src else s.mp.core.xr src
  if !((s.mpCsr c).isSome || mpClock c) || (writes && bits c 10 2 == 3) then s.mpExceptFree 2
  else
    let x := s.mpCsrRead c
    let t := x.2.mpRetire 4 rd x.1
    if writes then t.mpCsrPut c ((csrValue op (x.1.setWidth 64) (v.setWidth 64)).setWidth 32) else t

/-- 32-bit arithmetic. -/
def alu32 (op : Alu) (x y : Word) : Word := (aluRun op 32 (x.setWidth 64) (y.setWidth 64)).setWidth 32

/-- An instruction of `len` bytes of the MP. -/
def State.mpExec (s : State) (len : Nat) (i : Rv) : State :=
  let m := s.mp.core
  let next := m.pc + w32 len
  match i with
  | .lui rd imm => s.mpRetire len rd (imm.setWidth 32)
  | .auipc rd imm => s.mpRetire len rd (m.pc + imm.setWidth 32)
  | .jal rd off => s.setMp ((m.goes (m.pc + off.setWidth 32)).setX rd next)
  | .jalr rd rs1 off => s.setMp ((m.goes ((m.xr rs1 + off.setWidth 32) &&& ~~~ 1#32)).setX rd next)
  | .branch f3 rs1 rs2 off =>
    s.setMp (m.goes (if branchTaken f3 ((m.xr rs1).signExtend 64) ((m.xr rs2).signExtend 64) then m.pc + off.setWidth 32 else next))
  | .aluImm op _ rd rs1 imm => s.mpRetire len rd (alu32 op (m.xr rs1) (imm.setWidth 32))
  | .alu op _ rd rs1 rs2 => s.mpRetire len rd (alu32 op (m.xr rs1) (m.xr rs2))
  | .load f3 rd rs1 off => s.mpLoad len f3 rd (m.xr rs1 + off.setWidth 32)
  | .store f3 rs1 rs2 off => s.mpStore len f3 (m.xr rs1 + off.setWidth 32) (m.xr rs2)
  | .csr op useImm rd src c => s.mpCsrDo op useImm rd src c
  | .ecall => s.mpExcept 11 0
  | .ebreak => s.mpExceptFree 3
  | .mret => s.setMp m.mret
  | .wfi => if s.mpMip &&& m.mieReg = 0 then s.setMp { m with waits := true } else s.mpRetire len 0 0
  | _ => s.mpRetire len 0 0

/-- The word at the pc of the MP: one parcel, or two where its low bits are 0b11; with the address of the parcel that fails. -/
def State.mpFetch (s : State) : MpResp × Nat × State :=
  let a := s.mp.core.pc.toNat
  let p := s.mpRead a 2 true
  match p.1 with
  | .data lo =>
    if lo % 4 ≠ 3 then (.data lo, a, p.2)
    else
      let b := (a + 2) % 2 ^ 32
      let q := p.2.mpRead b 2 true
      (match q.1 with
        | .data hi => .data (lo + 65536 * hi)
        | x => x, b, q.2)
  | x => (x, a, p.2)

/-- The MP executes the instruction at its pc; an access that has to wait leaves nothing behind. -/
def State.mpRun (s : State) : State :=
  let f := s.mpFetch
  match f.1 with
  | .hold => s
  | .fault => f.2.2.mpExcept 1 (w32 f.2.1)
  | .data w =>
    match mpDecode w with
    | none => f.2.2.mpExceptFree 2
    | some i =>
      if w % 4 = 3 then f.2.2.mpExec 4 i else f.2.2.mpExec 2 i

/-- One step of the MP: an instruction, or the end of a WFI it waits in. A pending enabled interrupt is taken first. -/
def State.mpInstruction (s : State) : State :=
  let m := s.mp.core
  if !m.on || s.mpIrqOf.isSome then s
  else if !m.waits then s.mpRun
  else if s.mpMip &&& m.mieReg = 0 then s else s.mpRetire 4 0 0

/-- The MP takes a pending enabled interrupt; a WFI it ends has completed. -/
def State.mpInterrupt (s : State) : State :=
  match s.mpIrqOf with
  | none => s
  | some c =>
    if !s.mp.core.on then s
    else
      let t := if s.mp.core.waits then s.mpRetire 4 0 0 else s
      t.setMp (t.mp.core.trap true c 0)

end Machine
end Sys2Proof
end

