-- ==== Sys2Proof/Machine/Debug.lean ====
section
/-!
DEFINITION. Debug of the lane cores under RISC-V External Debug Support v0.13.2 (Table 4-1, R54): the debug module and its
abstract commands, reached through the TAP in the Setup phase while the MP has enabled debug; and the rows of single
instructions, which halted harts do not execute. The debug module's registers are those of that specification.
-/

namespace Sys2Proof
namespace Machine

/-! ## Abstract commands -/

/-- A 64-bit argument held in two data registers. -/
def Dbg.arg (d : Dbg) (k : Nat) : DWord :=
  (Sparse.get d.data 0 (k + 1) : Word) ++ (Sparse.get d.data 0 k : Word)

/-- Stores a 64-bit value into two data registers. -/
def Dbg.setArg (d : Dbg) (k : Nat) (v : DWord) : Dbg :=
  { d with data := Sparse.set (Sparse.set d.data 0 k (v.setWidth 32)) 0 (k + 1) (w32 (v.toNat / 2 ^ 32)) }

/-- An abstract command fails with a code. -/
def State.cmdErr (s : State) (code : Nat) : State := s.dbgSet (fun d => { d with cmderr := BitVec.ofNat 3 code })

/-- A register of a halted hart by its abstract number: CSRs, x and f registers; none where there is none. -/
def State.dbgGet (s : State) (h : HartId) (r : Nat) : Option DWord × State :=
  if r = 0x7B0 then (some ((s.dcsr h).setWidth 64), s)
  else if r = 0x7B1 then (some (Sparse.get s.lanes.dbg.dpc 0 h.val), s)
  else if csrTimed r then let x := s.timeNow h r; (some x.1, x.2)
  else if r = 0x7C1 then let x := s.csrRead h r; (match x.1 with
    | .data v => some v
    | _ => none, x.2)
  else if r < 0x1000 then ((s.csrPlain h r).map (BitVec.ofNat 64), s)
  else if r < 0x1020 then (some ((s.hart h).xr (r - 0x1000)), s)
  else if r < 0x1040 then (some ((s.hart h).fr (r - 0x1020)), s)
  else (none, s)

/-- dcsr as written: ebreakm, ebreaku, step and prv. -/
def dcsrPut (old v : Word) : Word := (old &&& ~~~ 0x9007#32) ||| (v &&& 0x9007#32)

/-- Writes a register of a halted hart. -/
def State.dbgPut (s : State) (h : HartId) (r : Nat) (v : DWord) : State :=
  if r = 0x7B0 then s.dbgSet (fun d => { d with dcsr := Sparse.insert d.dcsr h.val (dcsrPut (s.dcsr h) (v.setWidth 32)) })
  else if r = 0x7B1 then s.dbgSet (fun d => { d with dpc := Sparse.insert d.dpc h.val (v &&& ~~~ 1#64) })
  else if r < 0x1000 then s.csrPut h r v.toNat
  else if r < 0x1020 then s.setHart h ((s.hart h).setX (r - 0x1000) v)
  else s.setHart h ((s.hart h).setF (r - 0x1020) v)

/-- Access Register: 64-bit transfers, and 32-bit reads; there is no program buffer. [DESIGN CHOICE, unsafe: notes/assumptions/88.md] -/
def State.accessReg (s : State) (w : Nat) : State :=
  let h := s.lanes.dbg.sel
  let size := bits w 20 3
  let r := bits w 0 16
  let write := bits w 16 1 = 1
  if bits w 18 1 = 1 ∨ !(size == 3 || (size == 2 && !write)) then s.cmdErr 2
  else if bits w 17 1 = 0 then s
  else if write then
    (if (s.dbgGet h r).1.isNone || (decide (r < 0x1000) && r / 0x400 == 3) then s.cmdErr 3 else s.dbgPut h r (s.lanes.dbg.arg 0))
  else
    let x := s.dbgGet h r
    match x.1 with
    | none => s.cmdErr 3
    | some v =>
      if size = 3 then x.2.dbgSet (fun d => d.setArg 0 v)
      else x.2.dbgSet (fun d => { d with data := Sparse.set d.data 0 0 (v.setWidth 32) })

/-- Access Memory: an access of the selected hart in M-mode, of 1 to 8 bytes. [DESIGN CHOICE, unsafe: notes/assumptions/88.md] -/
def State.accessMem (s : State) (w : Nat) : State :=
  let h := s.lanes.dbg.sel
  let size := 2 ^ bits w 20 3
  let a := (s.lanes.dbg.arg 2).toNat
  let write := bits w 16 1 = 1
  if 8 < size then s.cmdErr 2
  else if a % size ≠ 0 ∨ 2 ^ 40 ≤ a then s.cmdErr 5
  else
    let x := s.laneAccess (s.reqOf h (if write then .store else .load) .machine a size (if write then s.lanes.dbg.arg 0 else 0)) false
    match x.1 with
    | .data v =>
      let t := if write then x.2 else x.2.dbgSet (fun d =>
        if size = 8 then d.setArg 0 v else { d with data := Sparse.set d.data 0 0 (v.setWidth 32) })
      if bits w 19 1 = 1 then t.dbgSet (fun d => d.setArg 2 (BitVec.ofNat 64 (a + size))) else t
    | _ => x.2.cmdErr 5

/-- A write to `command`. -/
def State.dbgCommand (s : State) (w : Nat) : State :=
  if s.lanes.dbg.cmderr ≠ 0 then s
  else if !s.halted s.lanes.dbg.sel then s.cmdErr 4
  else match bits w 24 8 with
    | 0 => s.accessReg w
    | 2 => s.accessMem w
    | _ => s.cmdErr 2

/-! ## The debug module's registers -/

/-- dmstatus: version 2, authenticated, and the state of the selected hart. -/
def State.dmstatus (s : State) : Nat :=
  let d := s.lanes.dbg
  let one (b : Bool) (k : Nat) : Nat := b2n b * (2 ^ k + 2 ^ (k + 1))
  2 + 0x80 + one (s.halted d.sel) 8 + one (!s.halted d.sel) 10 + one (d.resumed.contains d.sel.val) 16

/-- A DMI read. -/
def State.dmiRead (s : State) (a : Nat) : Word :=
  let d := s.lanes.dbg
  if !d.active then 0
  else match a with
    | 0x10 => w32 (1 + 65536 * d.sel.val)
    | 0x11 => w32 s.dmstatus
    | 0x16 => w32 (4 + 256 * d.cmderr.toNat)
    | 0x40 => w32 ((d.halted.map (fun h => 2 ^ h)).sum)
    | _ => if 4 ≤ a ∧ a < 8 then Sparse.get d.data 0 (a - 4) else 0

/-- A write to dmcontrol: dmactive = 0 resets the module, ndmreset resets the IVM-6400 (R69); hart selection, then halt or
resume. [DESIGN CHOICE, unsafe: notes/assumptions/88.md] -/
def State.dmcontrol (s : State) (w : Word) : State :=
  if w.getLsbD 1 then jtagReset s
  else if !w.getLsbD 0 then s.dbgEnd
  else
    let h : HartId := Fin.ofNat 4 (bits w.toNat 16 2)
    let t := s.dbgSet (fun d => { d with active := true, sel := h })
    if w.getLsbD 31 then
      if t.halted h || !t.lanes.on then t
      else if (t.hart h).wait = HartWait.lock then t.dbgSet (fun d => { d with asked := h.val :: d.asked })
      else t.dbgHalt h 3
    else if w.getLsbD 30 then (t.dbgSet (fun d => { d with resumed := d.resumed.filter (· != h.val) })).dbgResume h
    else t

/-- A DMI write. -/
def State.dmiWrite (s : State) (a : Nat) (w : Word) : State :=
  if a = 0x10 then s.dmcontrol w
  else if !s.lanes.dbg.active then s
  else if a = 0x16 then s.dbgSet (fun d => { d with cmderr := d.cmderr &&& ~~~ BitVec.ofNat 3 (bits w.toNat 8 3) })
  else if a = 0x17 then s.dbgCommand w.toNat
  else if 4 ≤ a ∧ a < 8 then s.dbgSet (fun d => { d with data := Sparse.set d.data 0 (a - 4) w })
  else s

/-- The DMI register is updated: op 1 reads, op 2 writes, and the answer is captured by the next scan. [DESIGN CHOICE, unsafe: notes/assumptions/88.md] -/
def State.dmiScan (s : State) (v : BitVec 41) : State :=
  let a := bits v.toNat 34 7
  let w := w32 (v.toNat / 4)
  match bits v.toNat 0 2 with
  | 1 => s.dbgSet (fun d => { d with dmi := BitVec.ofNat 41 (a * 2 ^ 34 + (s.dmiRead a).toNat * 4) })
  | 2 =>
    let t := s.dmiWrite a w
    if t.phase = Phase.reset then t else t.dbgSet (fun d => { d with dmi := BitVec.ofNat 41 (a * 2 ^ 34 + w.toNat * 4) })
  | _ => s

/-! ## The TAP (R54, Table 2-11) -/

/-- What a data-register scan captures under an instruction: IDCODE, dtmcs (version 1, 7 address bits), the DMI's answer, the
contacts, or the bypass bit. [DESIGN CHOICE, safe: notes/assumptions/89.md] -/
def State.tapCapture (s : State) (c : BitVec 5) : BitVec 64 × State :=
  if c = 0b00001 then ((idcode (BitVec.ofNat 4 (s.rd F.SYS_STEP_SOC_STEP)) Config.jtagMaker).setWidth 64, s)
  else if c = 0b10000 then (0x71, s)
  else if c = 0b10001 then (s.lanes.dbg.dmi.setWidth 64, s)
  else if c = 0b00010 ∨ c = 0b00100 then s.draw
  else (0, s)

/-- A data-register scan. -/
def State.tapScan (s : State) (v : BitVec 64) : State :=
  let c := s.tapNow
  let x := s.tapCapture c
  let t := { x.2 with pwr := { x.2.pwr with tapOut := x.1 } }
  if c = 0b10001 then t.dmiScan (v.setWidth 41) else t

/-- TAP_INSTRUCTION: the TAP takes an instruction, whose scan shifts out 0b00001; a data-register scan may follow. [DESIGN CHOICE, safe: notes/assumptions/89.md] -/
def tapInstruction (c : BitVec 5) (dr : Option (BitVec 64)) (s : State) : State :=
  let t := { s with pwr := { s.pwr with tapIr := c, tapOut := tapIrCapture } }
  match dr with
  | none => t
  | some v => t.tapScan v

/-! ## Instructions and interrupts of a hart -/

/-- A hart that ran one step halts again; a WFI that it has reached counts as done. -/
def State.stepEnds (s : State) (h : HartId) : State :=
  let w := (s.hart h).wait
  if !s.stepping h || w.midway then s
  else if w = .wfi ∨ w = .wfiEmber then (s.retire h 4 none).dbgHalt h 4
  else s.dbgHalt h 4

/-- A hart steps: one asked to halt does, and one that runs one step halts after it. -/
def State.laneStep (s : State) (h : HartId) (fmiss miss : Bool) : State :=
  if s.lanes.dbg.asked.contains h.val && (s.hart h).wait != .lock then
    (s.dbgSet (fun d => { d with asked := d.asked.filter (· != h.val) })).dbgHalt h 3
  else (instruction h fmiss miss s).stepEnds h

/-- INSTRUCTION: a core executes the instruction at its pc. -/
def coreInstruction (k : CoreId) (fmiss miss : Bool) (s : State) : State :=
  match k with
  | .lane h => s.laneStep h fmiss miss
  | .mp => s.mpInstruction

/-- INTERRUPT_TAKE: a core takes a pending enabled interrupt. -/
def coreInterrupt (k : CoreId) (s : State) : State :=
  match k with
  | .lane h => interruptTake h s
  | .mp => s.mpInterrupt

/-! ## Meanings -/

/-- The effect of TAP_INSTRUCTION. -/
def execTapInstruction (c : BitVec 5) (dr : Option (BitVec 64)) (s : State) : Host.Outcome State Fault Refusal :=
  .next (tapInstruction c dr s)
/-- The effect of INSTRUCTION. -/
def execInstruction (k : CoreId) (fmiss : Bool) (miss : Bool) (s : State) : Host.Outcome State Fault Refusal :=
  .next (coreInstruction k fmiss miss s)
/-- The effect of INTERRUPT_TAKE. -/
def execInterruptTake (k : CoreId) (s : State) : Host.Outcome State Fault Refusal := .next (coreInterrupt k s)

end Machine
end Sys2Proof
end

