-- ==== Sys2Proof/Machine/Ember.lean ====
section
/-!
DEFINITION. Entry to the Ember states and Kindle (R76 to R80, R85, Tables 3-7, 3-8, 3-11, 3-12).
-/

namespace Sys2Proof
namespace Machine

/-! ## The entry checks (Table 3-7) -/

/-- MODE of PWR_MODE: 1 E1, 2 E2, 3 E3. -/
def State.emberMode (s : State) : Nat := s.rd F.PWR_MODE_MODE

/-- MODE selects E2 or E3. -/
def State.emberDeep (s : State) : Bool := decide (2 ≤ s.emberMode)

/-- WAKE_EN enables some source that Table 3-10 allows in the requested state. [DEDUCED, unsafe: notes/assumptions/31.md] -/
def State.wakeEnabled (s : State) : Bool :=
  let both := s.on F.WAKE_EN_RTC_ALARM || s.on F.WAKE_EN_DI || s.on F.WAKE_EN_ED_BACKBONE || s.on F.WAKE_EN_ED_MA0 || s.on F.WAKE_EN_MP
  if s.emberMode = 3 then both else both || s.on F.WAKE_EN_PTO15 || s.on F.WAKE_EN_SYNC_IN || s.on F.WAKE_EN_ED_CARRING

/-- A wake source allowed in the requested state is latched, or for E1 an interrupt that ends WFI. -/
def State.wakeHeld (s : State) : Bool :=
  let p := s.rd F.WAKE_PEND_PEND
  match s.emberMode with
  | 1 => allHarts.any s.wakes
  | 2 => [2, 3, 4, 5, 6, 7].any p.testBit
  | _ => [2, 5, 6, 7].any p.testBit

/-- An entry check fails. [DEDUCED, unsafe: notes/assumptions/31.md] -/
def State.entryFails (s : State) (code : Nat) : Bool :=
  match code with
  | 1 => s.emberMode == 0
  | 2 => (s.emberMode == 2 && !s.on F.PWR_EMBER_CFG_E2_EN) || (s.emberMode == 3 && !s.on F.PWR_EMBER_CFG_E3_EN)
  | 3 => s.emberDeep && s.setupPhase
  | 4 => s.emberDeep && s.pairOn
  | 5 => s.emberDeep && !s.wakeEnabled
  | _ => s.wakeHeld

/-- The code of the first check that fails; none when the request proceeds. -/
def State.entryErr (s : State) : Option Nat := [1, 2, 3, 4, 5, 6].find? s.entryFails

/-! ## The decision (R76 to R78, Table 3-8 steps 3 and 4) -/

/-- Every hart goes on from the pc it has. -/
def State.hartsRun (s : State) : State :=
  allHarts.foldl (fun t h => t.setHart h { t.hart h with wait := .run }) s

/-- The request is refused. -/
def State.emberRefuse (s : State) (code : Nat) : State :=
  let s := s.wr F.PWR_EMBER_STAT_ENTRY_ERR code
  let s := s.raise 483 [s.reg Reg.PWR_EMBER_STAT]
  let s := s.hartsRun
  { s with pwr := { s.pwr with state := .run } }

/-- A completed entry in PWR_EMBER_STAT. -/
def State.emberReached (s : State) (n : Nat) : State :=
  (s.wr F.PWR_EMBER_STAT_ENTRY_ERR 0).wr F.PWR_EMBER_STAT_LAST_STATE n

/-- The network ports start no further frame; the frames in progress end. -/
def State.netQuiesce (s : State) : State :=
  let s := (List.range 3).foldl (fun t n => t.wr (F.CR_STATE_STATE n) 0) s
  { s.wr F.CB_STAT_STATE 0 with car := { s.car with fwd := [] }, cb := { s.cb with relay := [], frozen := [], prog := none } }

/-- The engines quiesce on the way to E2 or E3. -/
def State.emberQuiesce (s : State) (toE3 : Bool) : State :=
  let s := s.netQuiesce.fieldStop.safSleep
  { s with pwr := { s.pwr with state := .quiesce toE3, wakeTaken := false } }

/-- EMBER_DECISION: the entry Cord is sealed and the Flue is empty. [DEDUCED, unsafe: notes/assumptions/31.md] -/
def emberDecision (s : State) : State :=
  if s.pwr.state ≠ PowerState.entering ∨ s.flue.recs ≠ [] ∨ s.cordDue = true ∨ s.on F.CORD_STAT_ROLLING = true then s
  else
    let t := s.wr F.WAKE_PEND_PEND 0
    match s.entryErr with
    | some code => t.emberRefuse code
    | none =>
      if s.emberMode = 1 then
        let t := t.emberReached 1
        { t with pwr := { t.pwr with state := .e1, wakeTaken := false } }
      else t.emberQuiesce (s.emberMode == 3)

/-! ## The state reached (R79, R80) -/

/-- No port sends and no rack-bus cycle runs. [DEDUCED, safe: notes/assumptions/34.md] -/
def State.quiet (s : State) : Bool :=
  s.ports.now == [] && s.cb.sending == [] && (List.range 4).all (fun q => !s.cbBusy q) && s.rack.cycle == none

/-- An island without supply: not configured, its counters at 0. DI islands are 0 to 15 with 16 channels each. -/
def State.islandOff (s : State) (i : Nat) : State :=
  let s := s.setIsl i { s.isl i with conf := false, ready := false, safe := true, ack := false }
  if i < 16 then
    { s with fld := { s.fld with ins := s.fld.ins.map (fun p => if p.1 / 16 = i then (p.1, { p.2 with rise := 0 }) else p) } }
  else s

/-- Islands lose their supply in E3, but DI island 0 where DI wake is enabled. -/
def State.islandsOff (s : State) : State :=
  (allIslands.filter (fun i => !(i == 0 && s.on F.WAKE_EN_DI))).foldl State.islandOff s

/-- Writes the content of the save area and marks it written. [DESIGN CHOICE, safe: notes/assumptions/35.md] -/
def State.saveWrite (base : Nat) (x : List Byte × State) : State :=
  let t := x.2.setBytes base x.1
  { t with pwr := { t.pwr with saved := true } }

/-- Bytes of the save area that its CRC-32C covers: all but the last four, which hold it. [DESIGN CHOICE, safe: notes/assumptions/35.md] -/
def saveLen : Nat := 4194300

/-- Bytes with their CRC-32C behind them, as a little-endian word (R591). -/
def withCrc (bs : List Byte) : List Byte := bs ++ leBytes 4 (crc32c bs).toNat

/-- The 4 MiB of the save area take a content whose layout is the module's own, free values, with its CRC-32C (R79, R80, R591). -/
def State.emberSave (s : State) : State :=
  let x := s.freeBytes saveLen
  State.saveWrite s.saveBase (withCrc x.1, x.2)

/-- The save area passes its CRC-32C (R85, R591). -/
def State.saveOk (s : State) : Bool :=
  decide (s.le (s.saveBase + saveLen) 4 = (crc32c (s.bytes s.saveBase saveLen)).toNat)

/-- Bytes of the save area that DRAM has lost in self-refresh, each an offset and what it now holds. -/
def State.saveLost (s : State) (lost : List (Fin 4194304 × Byte)) : State :=
  lost.foldl (fun t x => t.setByte (t.saveBase + x.1.val) x.2) s

/-- The clocks and the regulator in E3: low-power mode, the fabric and the MP off their PLLs, the time base stopped. [DEDUCED, unsafe: notes/assumptions/37.md] -/
def State.clocksDeep (s : State) : State :=
  let s := ((s.wr F.LP_STAT_LP_MODE 1).wr F.LP_STAT_LP_PEAK 0).wr F.SYS_CLK_FAB_SRC 0
  let s := s.wr F.SYS_CLK_MP_SRC 0
  { s with tb := { s.tb with locked := false } }

/-- What E3 adds to E2: the save area, and everything but the hearth domain, DRAM and the MP without supply. -/
def State.deepSleep (s : State) : State := s.emberSave.islandsOff.clocksDeep

/-- The power state that an entry reaches. -/
def State.powerTo (s : State) (p : PowerState) : State := { s with pwr := { s.pwr with state := p } }

/-- The lanes lose their supply, their clock returns to the oscillator at level 0, and the scrub pauses. -/
def State.lanesDark (s : State) : State :=
  let s := s.wr64 Reg.PWR_RTC_ENTRY_LO Reg.PWR_RTC_ENTRY_HI s.pwr.rtc.toNat
  let s := ((s.wr F.PWR_PL_PL 0).wr F.PWR_PL_PL_BUSY 0).wr F.SYS_CLK_LANE_PLL_EN 0
  let s := ((s.wr F.SYS_CLK_LANE_SRC 0).wr F.SYS_CLK_LANE_LOCK 0).wr F.IST_STAT_SCRUB_RUN 0
  { s with
    lanes := { s.lanes with on := false }
    pwr := { s.pwr with level := 0, target := 0, srcPending := false, onPll := false } }

/-- EMBER_ENTRY_COMPLETE: E2 or E3 is reached. [DEDUCED, safe: notes/assumptions/34.md; DEDUCED, unsafe: notes/assumptions/37.md] -/
def emberEntryComplete (s : State) : State :=
  match s.pwr.state with
  | .quiesce deep =>
    if !s.quiet then s
    else
      let t := s.rackHold.lanesDark.emberReached (if deep then 3 else 2)
      if deep then t.deepSleep.powerTo .e3 else t.powerTo .e2
  | _ => s

/-! ## Kindle (R85, Tables 3-11 and 3-12) -/

/-- All lanes but the Fenced and Failed ones start together; a Ready lane is admitted unless HOLD keeps it. [DEDUCED, unsafe: notes/assumptions/33.md] -/
def State.kindleLanes (s : State) : State :=
  if s.on F.LANE_REINT_HOLD then s
  else lanesABC.foldl (fun t l => if t.laneSt l = LaneSt.ready then (t.setLane l .healthy).raise 1 [] else t) s

/-- A hart with the register state of the entry Cord; the level of its timer input is the one last delivered. [DEDUCED, unsafe: notes/assumptions/33.md] -/
def kindleHart (old h : Hart) : Hart := { h with mtip := old.mtip, wait := .run }

/-- The harts load the register state of the entry Cord. -/
def State.kindleHarts (s : State) : State :=
  let hs := match s.cord.sealedRec with
    | none => s.harts
    | some r => r.harts
  { s with harts := s.harts.zip kindleHart hs, lanes := { s.lanes with on := true, resv := [] } }

/-- The fabric comes back from E3: clocks, time base, the DRAM record; it leaves low-power mode. [DEDUCED, unsafe: notes/assumptions/36.md] -/
def State.kindleE3 (s : State) : State :=
  let s := ((s.wr F.LP_STAT_LP_MODE 0).wr F.SYS_CLK_FAB_SRC 1).wr F.SYS_CLK_MP_SRC 1
  let s := { s with
    tb := { s.tb with locked := true }
    pwr := { s.pwr with saved := false, lpTimer := false } }
  s.calDram

/-- Engines, ports and links resume. [DEDUCED, unsafe: notes/assumptions/33.md] -/
def State.kindleBlocks (s : State) : State :=
  let s := s.linksHeld.linksGo.rackRelease.cycKindle
  (s.crStart true).cbStartUp true

/-- KINDLE_COMPLETE: a wake source has ended E2 or E3. `lost` are the bytes of the save area that DRAM lost in E3; an area that fails
its CRC-32C resets the module. [DESIGN CHOICE, safe: notes/assumptions/35.md] -/
def kindleComplete (lost : List (Fin 4194304 × Byte)) (s : State) : State :=
  let deep := s.pwr.state == PowerState.e3
  let u := if deep then s.saveLost lost else s
  if !(deep || s.pwr.state == PowerState.e2) || !s.pwr.wakeTaken then s
  else if deep && !u.saveOk then u.resetModule .saveBad 0
  else
    let s := u
    let t := if deep then s.kindleE3 else (s.calJudge 0 (s.rd F.PWR_STAT_DIE_TEMP)).calShow
    let t := { t with pwr := { t.pwr with state := .run } }
    if t.safe then t else t.kindleLanes.kindleHarts.kindleBlocks

/-! ## Meanings -/

/-- The effect of EMBER_DECISION. -/
def execEmberDecision (s : State) : Host.Outcome State Fault Refusal := .next (emberDecision s)
/-- The effect of EMBER_ENTRY_COMPLETE. -/
def execEmberEntryComplete (s : State) : Host.Outcome State Fault Refusal := .next (emberEntryComplete s)
/-- The effect of KINDLE_COMPLETE. -/
def execKindleComplete (lost : List (Fin 4194304 × Byte)) (s : State) : Host.Outcome State Fault Refusal :=
  .next (kindleComplete lost s)

end Machine
end Sys2Proof
end

