-- ==== Sys2Proof/Machine/Engines.lean ====
section
/-!
DEFINITION. The engines' time-division slots and the EVT block (R206, R225, R226, R233 to R236, R343, R359).
-/

namespace Sys2Proof
namespace Machine

/-! ## What an engine knows of an opcode -/

/-- Car-ring opcodes (Table 11-7). -/
def carKind (e : Nat) (c : Cmd) (s : State) : OpKind :=
  match c.opcode with
  | 0x10 => .long (s.crTxFails e c)
  | 0x11 => .long (s.crRxFails e c)
  | 0x12 => .short
  | _ => .unknown

/-- Backbone opcodes (Table 12-12). -/
def cbKind (e : Nat) (c : Cmd) (s : State) : OpKind :=
  match c.opcode with
  | 0x20 => .long (s.cbTxFails e c)
  | 0x21 => .long (s.cbRxFails c)
  | 0x22 => .long (s.cbLoadFails c)
  | 0x23 => .short
  | 0x24 => .short
  | _ => .unknown

/-- Signal Engine opcodes (Table 13-12). -/
def sigKind (c : Cmd) (s : State) : OpKind :=
  match c.opcode with
  | 0x10 => .short
  | 0x11 => .short
  | 0x12 => .short
  | 0x13 => .long (s.watchFails c)
  | 0x14 => .long (s.pubFails c 262144)
  | 0x15 => .long (s.reindexFails c)
  | 0x16 => .long (s.subFails c)
  | _ => .unknown

/-- Field Engine opcodes (Tables 16-15 and 17-7). -/
def fldKind (c : Cmd) (s : State) : OpKind :=
  match c.opcode with
  | 0x10 => .short
  | 0x11 => .long (s.setFuncFails c)
  | 0x12 => .short
  | 0x13 => .short
  | 0x14 => .short
  | 0x15 => .short
  | 0x16 => .long (s.captureFails c)
  | 0x17 => .long (s.fskFails c)
  | _ => .unknown

/-- Opcodes of the other engines: Gateway, Rack Bridge, Cycle Engine, Sequencer, Time, Recorder and Pair Engine. -/
def restKind (e : Nat) (c : Cmd) (s : State) : OpKind :=
  match e, c.opcode with
  | 0x11, 0x10 => .short
  | 0x12, 0x10 => .long (s.rbFails c)
  | 0x12, 0x11 => .long (s.rbFails c)
  | 0x13, 0x10 => .short
  | 0x13, 0x11 => .short
  | 0x13, 0x12 => .short
  | 0x13, 0x13 => .short
  | 0x15, 0x10 => .short
  | 0x15, 0x11 => .short
  | 0x16, 0x10 => .short
  | 0x16, 0x11 => .short
  | 0x17, 0x10 => .long (s.exportFails c)
  | 0x17, 0x11 => .long (s.clearFails c)
  | 0x18, 0x10 => .long (s.switchFails c)
  | 0x18, 0x11 => .short
  | _, _ => .unknown

/-- An engine's judgement of a descriptor: the common opcodes 0x00 and 0x01 are short on every engine (R211). -/
def engKind (e : Nat) (c : Cmd) (s : State) : OpKind :=
  if c.opcode < 2 then .short
  else if e = 0 then sigKind c s
  else if e ≤ 0x0C then carKind e c s
  else if e ≤ 0x10 then cbKind e c s
  else if e = 0x14 then fldKind c s
  else restKind e c s

/-! ## Work ready at the start of a slot (R226, R343) -/

/-- A ring's command goes on over several slots of the Signal Engine: a snapshot, a publish command, a build or a reindex (R350). -/
def State.ringLong (s : State) (r : Nat) : Bool :=
  s.sig.snaps.any (fun j => match j.cmd with
    | some c => c.ring.toNat == r
    | none => false) ||
    s.sig.pubs.any (fun j => j.cmd.ring.toNat == r) ||
    (s.outOf 0).any (fun c => c.ring.toNat == r && (c.opcode == 0x16 || (c.opcode == 0x15 && s.reindexTurn c)))

/-- A ring has a descriptor that an engine could take now: none while the engine has one in hand, while a short command of the ring
goes on, or while the descriptor lies in Plain memory during a rollback (R157). -/
def State.ringTakes (s : State) (e r : Nat) : Bool :=
  (s.hand e).isNone && s.ringReady (BitVec.ofNat 15 r) (engKind e) &&
    !s.rollHolds ((s.ctx (BitVec.ofNat 15 r)).slotAddr (s.ctx (BitVec.ofNat 15 r)).sqHead) 64 &&
    !(e == 0 && (s.sig.snaps.any (fun j => match j.cmd with
      | some c => c.ring.toNat == r
      | none => false) || s.sig.pubs.any (fun j => !j.cmd.long && j.cmd.ring.toNat == r)))

/-- Rings of a partition that an engine could serve now, by rising number: a descriptor to take or long-command work to continue. -/
def State.readyRings (s : State) (e p : Nat) : List Nat :=
  ((s.rings.ctx.filter (fun x => x.2.engine.toNat == e && x.2.part.toNat == p)).map (fun x => x.1)).filter
    (fun r => s.ringTakes e r || (e == 0 && s.ringLong r))

/-- Work of an engine for a partition besides its rings. [DEDUCED, unsafe: notes/assumptions/40.md] -/
def State.ownWork (s : State) (e p : Nat) : Bool :=
  match e with
  | 0x00 => s.passesOf p != [] || s.builtOf p != [] || s.snapsOf p != [] || s.cycSnapsOf p != [] || s.cycCommitsOf p != []
  | 0x11 => s.gwReady p != []
  | 0x17 => (s.exportOf p).isSome
  | _ => false

/-- A partition has work ready on an engine. -/
def State.hasWork (s : State) (e p : Nat) : Bool := s.ownWork e p || s.readyRings e p != []

/-- The first partition with work, searching upwards from a number and wrapping at 255. -/
def State.searchWork (s : State) (e from_ : Nat) : Option Nat :=
  ((List.range 256).map (fun k => (from_ + k) % 256)).find? (s.hasWork e)

/-- Counts of TB_RAW of a time-division slot: 400 ns. -/
def tdSlot : Nat := 200

/-- Number of the present slot of the 256-slot calendar. -/
def State.slotNow (s : State) : Nat := s.raw % (256 * tdSlot) / tdSlot

/-- The partition that a slot serves. -/
def State.slotServes (s : State) (e : Nat) : Option Nat :=
  let lend (from_ : Nat) : Option Nat := if s.on F.PART_CFG_WORK_CONSERVE then s.searchWork e from_ else none
  match s.slotOwner e s.slotNow with
  | some p => if s.hasWork e p then some p else lend (p + 1)
  | none => lend (Sparse.get s.rings.lastPart 255 e + 1)

/-! ## The slot -/

/-- Passes run in queue order, up to the first that the slot no longer carries (R343, R350). -/
def State.runPasses (s : State) : List Pass → State
  | [] => s
  | x :: t => if s.sig.ops < s.nsig x.dset then s else ((s.runPass x).spend (s.nsig x.dset)).runPasses t

/-- Bytes the gateway built are published, each one unit (R358). -/
def State.runBuilt (s : State) : List (Nat × Nat × List Byte) → State
  | [] => s
  | x :: t =>
    let n := s.nsig (s.memFld (s.gwGroup x.1) 0 18)
    if s.sig.ops < n then s else ((s.builtRun x).spend n).runBuilt t

/-- Snapshots of tasks' input images go on. -/
def State.runSnaps (s : State) (js : List Snap) : State :=
  js.foldl (fun t j => ({ t with sig := { t.sig with snaps := t.sig.snaps.erase j } }).inputSnap j) s

/-- The Signal Engine's own work for a partition: passes in queue order, publications of the gateway, tasks' snapshots, commits'
publications; what the slot's 48 operations do not carry waits for the next, and with it what comes after. -/
def State.sigSlot (s : State) (p : Nat) : State :=
  let s := s.runPasses (s.passesOf p)
  if s.passesOf p ≠ [] then s
  else
    let s := s.runBuilt (s.builtOf p)
    if s.builtOf p ≠ [] then s
    else
      let s := s.runSnaps (s.snapsOf p)
      let s := (s.cycSnapsOf p).foldl State.inputStart s
      (s.cycCommitsOf p).foldl (fun t c => t.publishCommit c slotUnits) s

/-- An engine's own work in a slot for a partition. -/
def State.slotWork (s : State) (e p : Nat) : State :=
  match e with
  | 0x00 => ({ s with sig := { s.sig with ops := 48 } }).sigSlot p
  | 0x11 => s.gwRuns (s.gwReady p) 48
  | 0x17 =>
    (match s.exportOf p with
      | some c => s.exportStep c
      | none => s)
  | _ => s

/-- The ring whose turn it is: the next ready one after the ring served last for the partition. -/
def State.ringTurn (s : State) (e p : Nat) : Option Nat :=
  let rs := s.readyRings e p
  match Sparse.lookup s.rings.lastRing (256 * e + p) with
  | none => rs.head?
  | some l => match rs.find? (fun r => decide (l < r)) with
    | some r => some r
    | none => rs.head?

/-- Signal operations of the first unit of a command (Table 13-11). -/
def State.firstCost (s : State) (c : Cmd) : Nat :=
  match c.opcode with
  | 0x10 => max 1 (s.nsig (c.fld 8 0 18))
  | 0x14 => max 1 (s.nsig (c.fld 8 0 18))
  | 0x15 => 48
  | 0x16 => 48
  | _ => 1

/-- A ring's command goes on in the present slot: each kind of unit as far as the operations left carry it. The switch of a reindex
whose pairs are read is left to its own step (R352). -/
def State.ringGoOn (s : State) (r : Nat) : State :=
  let s := match s.sig.snaps.find? (fun j => match j.cmd with
      | some c => c.ring.toNat == r
      | none => false) with
    | some j => (match j.cmd with
      | some c => ({ s with sig := { s.sig with snaps := s.sig.snaps.erase j } }).snapCmd false c j
      | none => s)
    | none => s
  let s := match s.sig.pubs.find? (fun j => j.cmd.ring.toNat == r) with
    | some j => ({ s with sig := { s.sig with pubs := s.sig.pubs.erase j } }).pubGo false j slotUnits
    | none => s
  match (s.outOf 0).find? (fun c => c.ring.toNat == r && (c.opcode == 0x16 || c.opcode == 0x15)) with
  | some c => if c.opcode = 0x16 then s.subPart c else s.reindexPart c
  | none => s

/-- A partition's rings are served in turn: commands that go on, up to the first descriptor taken; a descriptor whose first unit the
slot does not carry waits. `fuel` bounds the rings looked at. -/
def State.slotRings (s : State) (e p : Nat) : Nat → State
  | 0 => s
  | fuel + 1 =>
    match s.ringTurn e p with
    | none => s
    | some r =>
      let s := { s with rings := { s.rings with lastRing := Sparse.insert s.rings.lastRing (256 * e + p) r } }
      if e == 0 && s.ringLong r then (s.ringGoOn r).slotRings e p fuel
      else if e == 0 && decide (s.sig.ops < s.firstCost (s.headCmd (BitVec.ofNat 15 r))) then s
      else s.takeFrom e (BitVec.ofNat 15 r) (engKind e)

/-- Serves a partition in a slot. [DEDUCED, unsafe: notes/assumptions/40.md] -/
def State.serve (s : State) (e p : Nat) : State :=
  let s := { s with rings := { s.rings with
    lastPart := Sparse.insert s.rings.lastPart e p, slotRaw := Sparse.insert s.rings.slotRaw e s.raw } }
  let s := s.slotWork e p
  s.slotRings e p (s.readyRings e p).length

/-- The engine serves a partition in the present slot already. -/
def State.slotRuns (s : State) (e : Nat) : Option Nat :=
  match Sparse.lookup s.rings.slotRaw e with
  | some r => if r + s.raw % tdSlot = s.raw then Sparse.lookup s.rings.lastPart e else none
  | none => none

/-- ENGINE_SLOT_START: a 400 ns slot of an engine starts and is given to its owner, or lent. Within a slot that the engine serves
already it goes on to the partition's next descriptor. [DEDUCED, unsafe: notes/assumptions/40.md] -/
def engineSlotStart (e : EngineId) (s : State) : State :=
  if !(s.running && s.acts && s.tb.locked) then s
  else match s.slotRuns e.val with
    | some p => if (s.hand e.val).isSome then s else s.slotRings e.val p (s.readyRings e.val p).length
    | none =>
      if s.raw % tdSlot ≠ 0 then s
      else match s.slotServes e.val with
        | none => s
        | some p => s.serve e.val p

/-! ## The EVT block (R233 to R236) -/

/-- The event ring of a source's route. -/
def State.evtRoute (s : State) (src : Nat) : Option RingId :=
  if s.on (F.EVT_ROUTE_RING_EN src) then
    s.evRing (BitVec.ofNat 8 (s.rd (F.EVT_ROUTE_PART src))) (s.rd (F.EVT_ROUTE_EVQ src))
  else none

/-- The event ring that a raise goes to: for sources 64 and 66 to 69 that of the ring it names, else that of its route. -/
def State.evtTarget (s : State) (x : Raise) : Option RingId :=
  let q := match x.ring with
    | some r => if x.src = 65 then s.evtRoute 65 else s.evRing (s.ctx r).part (s.ctx r).evtq.toNat
    | none => s.evtRoute x.src
  match q with
  | some q => if (s.ctx q).en && (s.ctx q).event then some q else none
  | none => none

/-- The next record of an event ring takes its ESEQ. -/
def State.esTake (s : State) (q : RingId) : State :=
  { s with evt := { s.evt with eseq := Sparse.set s.evt.eseq 0 q.toNat (Sparse.get s.evt.eseq 0 q.toNat + 1) } }

/-- Whether the next record of an event ring carries LOST. -/
def State.setLost (s : State) (q : RingId) (b : Bool) : State :=
  { s with evt := { s.evt with lost := Sparse.set s.evt.lost false q.toNat b } }

/-- A record is dropped: counted, and EVT_DROPPED raised but for a dropped EVT_DROPPED. [DEDUCED, unsafe: notes/assumptions/43.md] -/
def State.evtDrop (s : State) (q : RingId) (src : Nat) : State :=
  let n := Sparse.get s.evt.eseq 0 q.toNat
  let p := (s.ctx q).part
  let m := s.mon p
  let s := (s.satAdd F.EVT_DROP_DROPS 1).setMon p { m with drops := if m.drops = 0xFFFF then m.drops else m.drops + 1 }
  let s := (s.esTake q).setLost q true
  if src = 84 then s else s.raise 84 [w32 q.toNat, n]

/-- The words of an event record, PHASE left 0 (Table 9-4). -/
def evtWords (x : Raise) (eseq : Word) (lost : Bool) : List Word :=
  [w32 (x.src + 2 ^ 17 * b2n lost), eseq, w32 x.nt.toNat, w32 (x.nt.toNat / 2 ^ 32),
    x.info.getD 0 0, x.info.getD 1 0, x.info.getD 2 0, x.info.getD 3 0]

/-- A record is written to an event ring, or dropped where the ring is full. -/
def State.evtRecord (s : State) (q : RingId) (x : Raise) : State :=
  let c := s.ctx q
  if (c.cqTail - c.cqHead).toNat = c.cqEntries then s.evtDrop q x.src
  else
    let ws := evtWords x (Sparse.get s.evt.eseq 0 q.toNat) (Sparse.get s.evt.lost false q.toNat)
    ((s.putRecord q ws 0x1F).esTake q).setLost q false

/-- The PLIC edge of a raised source. -/
def State.evtEdge (s : State) (src : Nat) : State := (s.deliver src true).kindleE1 src

/-- The raise has been handled: a record, a PLIC edge, or a count. -/
def State.evtHandle (s : State) (x : Raise) : State :=
  let q := s.evtTarget x
  let plic := s.on (F.EVT_ROUTE_PLIC_EN x.src)
  let s := match q with
    | some r => s.evtRecord r x
    | none => if plic then s else s.satAdd F.EVT_RAISED_RAISED 1
  if plic then s.evtEdge x.src else s

/-- The fabric runs: out of reset, and not stopped in E2 or E3. -/
def State.fabricOn (s : State) : Bool := s.phase != .reset && s.pwr.state != .e2 && s.pwr.state != .e3

/-- EVT_RECORD_WRITE: the oldest raise is handled. -/
def evtRecordWrite (s : State) : State :=
  if !s.fabricOn then s
  else match s.evt.queue with
    | [] => s
    | x :: t => ({ s with evt := { s.evt with queue := t } }).evtHandle x

/-! ## Meanings -/

/-- The effect of ENGINE_SLOT_START. -/
def execEngineSlotStart (e : EngineId) (s : State) : Host.Outcome State Fault Refusal := .next (engineSlotStart e s)
/-- The effect of EVT_RECORD_WRITE. -/
def execEvtRecordWrite (s : State) : Host.Outcome State Fault Refusal := .next (evtRecordWrite s)

end Machine
end Sys2Proof
end

