-- ==== Sys2Proof/Machine/Fires.lean ====
section
/-!
DEFINITION. What a pulse generator's fire and a SYNC_IN edge set going (R256 to R261, R278, R303, R384, R453).
-/

namespace Sys2Proof
namespace Machine

/-- The Field Engine takes alignment events: it runs, and the module acts on the vehicle. -/
def State.aligns (s : State) : Bool := s.running && s.acts

/-- The alignment event of a generator's fire (R453). -/
def State.ptoAligns (s : State) (n : Nat) : State :=
  if s.aligns && s.rd F.FLD_AI_CFG_SYNC_SRC == 2 && s.rd F.FLD_AI_CFG_PTO == n then s.alignEvent 2 s.raw else s

/-- The internal consumers of a fire: car rings, backbone, tasks and the loops' alignment. -/
def State.ptoConsumers (s : State) (n : Nat) : State :=
  let s := ((s.crFires n).stations).cbFires n
  let s := if s.running then s.cycFires n else s
  s.ptoAligns n

/-- PTO_FIRE: a generator has reached its target. PTO15 is a wake source. -/
def ptoFire (n : Fin 16) (s : State) : State :=
  if s.ptoDue n.val then
    let t := (s.ptoFires n.val).ptoConsumers n.val
    if n.val = 15 then t.wakeLatch [(wkPto, 15)] else t
  else s

/-- SYNC_IN_EDGE: a rising edge of SYNC_IN, accepted or counted in IGNORED. -/
def syncInEdge (s : State) : State :=
  if !s.on F.TB_SYNC_IN_EN || s.phase == .reset || s.pwr.state == .e3 then s
  else if !s.syncAccepts then s.satAdd F.TB_SYNCIN_CNT_IGNORED 1
  else
    let r := s.edgeRaw
    let t := s.syncEdge
    let t := if t.aligns && t.rd F.FLD_AI_CFG_SYNC_SRC == 1 then t.alignEvent 1 r else t
    t.wakeLatch [(wkSync, 0)]

/-! ## Meanings -/

/-- The effect of PTO_FIRE. -/
def execPtoFire (n : Fin 16) (s : State) : Host.Outcome State Fault Refusal := .next (ptoFire n s)
/-- The effect of SYNC_IN_EDGE. -/
def execSyncInEdge (s : State) : Host.Outcome State Fault Refusal := .next (syncInEdge s)

end Machine
end Sys2Proof
end

