-- ==== Sys2Proof/Machine/FlueOut.lean ====
section
/-!
DEFINITION. Releases of the Flue, its stalls, its held requests and the missing pair acknowledgement (R121, R173 to R178).
-/

namespace Sys2Proof
namespace Machine

/-! ## Which record is next (R173, R174) -/

/-- A record released by a DRAM write. -/
def EffKind.memory : EffKind → Bool
  | .doorbell => true
  | .store => true
  | .amo _ => true
  | _ => false

/-- The record may leave: its Cord is sealed and, where it is mirrored, acknowledged. -/
def FlueRec.free (r : FlueRec) : Bool := r.releasable && r.mirrorWait.isNone

/-- The destination of an engine-accepted record takes it now. -/
def State.accepts (s : State) (r : FlueRec) : Bool :=
  match r.kind with
  | .rack => s.rackAccepts (r.dest.toNat - 0x8040)
  | _ => true

/-- The oldest record of a destination. -/
def State.oldestOf (s : State) (d : BitVec 16) : Option FlueRec := s.flue.recs.find? (fun r => r.dest == d)

/-- The record of a destination that is released next, if one can be: memory-written records in the order of all of them,
others when their destination accepts. -/
def State.releaseNext (s : State) (d : BitVec 16) : Option FlueRec :=
  match s.oldestOf d with
  | none => none
  | some r =>
    let turn := if r.kind.memory then s.flue.recs.find? (fun x => x.kind.memory) == some r else s.accepts r
    if r.free && turn then some r else none

/-! ## What the destination takes -/

/-- Reader code of the Flue. -/
def flueReader : Nat := 0xFE

/-- Runs of consecutive addresses of a record's bytes, last address first. -/
def runsOf (bs : List (Nat × Byte)) : List (Nat × List Byte) :=
  bs.foldr (fun p acc => match acc with
    | (a, l) :: t => if p.1 + 1 = a then (p.1, p.2 :: l) :: t else (p.1, [p.2]) :: (a, l) :: t
    | [] => [(p.1, [p.2])]) []

/-- A DRAM write of a record's bytes. -/
def State.flueWrite (s : State) (r : FlueRec) : State :=
  (runsOf r.bytes).foldl (fun t p => t.busWrite p.1 p.2 flueReader) s

/-- The operation of an AMO record on memory; an uncorrectable old value leaves it as it is (R169). [DEDUCED, unsafe: notes/assumptions/24.md] -/
def State.flueAmo (s : State) (r : FlueRec) (op : AmoOp) : State :=
  let chk := s.readCheck r.addr r.size flueReader
  if !chk.1 then chk.2
  else
    let src := leNat (r.bytes.map (fun p => p.2))
    chk.2.busWrite r.addr (leBytes r.size (amoRun op r.size (chk.2.le r.addr r.size) src)) flueReader

/-- The doorbell watcher sees a write to the doorbell word of a ring. -/
def State.flueWatch (s : State) (r : FlueRec) : State :=
  if r.dest.toNat < 0x8000 then s.watch (r.dest.setWidth 15) (.flue r.part r.seq) else s

/-- A record's destination takes it. -/
def State.takeRec (s : State) (r : FlueRec) : State :=
  let data := leNat (r.bytes.map (fun p => p.2))
  match r.kind with
  | .doorbell => (s.flueWrite r).flueWatch r
  | .store => s.flueWrite r
  | .amo op => (s.flueAmo r op).flueWatch r
  | .rack => s.rackPost (r.dest.toNat - 0x8040) (r.addr % 0x1000000) r.size data
  | .setup => s.setupWrite (.lane r.hart r.part) (r.addr - 0x40000000) (w32 data)
  | .commit => s.commitReleased r.info

/-! ## Release (R173, R175) -/

/-- A destination has an oldest record that has not stalled yet. -/
def State.unstall (s : State) (dest : Nat) : State :=
  { s with flue := { s.flue with stalled := Sparse.erase s.flue.stalled dest } }

/-- A record leaves the Flue. -/
def State.dropFlue (s : State) (r : FlueRec) : State :=
  ((s.quotaHeld r.part false).setRecs (s.flue.recs.erase r)).unstall r.dest.toNat

/-- A DZC.CFENCE retires once the Flue holds no record of its hart (the Operate phase's rule, R121). -/
def State.fenceRetire (s : State) (h : HartId) : State :=
  if (s.hart h).wait == .cfence && s.mayStep h && !s.flue.recs.any (fun r => r.hart == h) then
    (s.dropFetched h).retire h 4 none
  else s

/-- The sequence check of a record, and its release. [DEDUCED, unsafe: notes/assumptions/24.md] -/
def State.releaseRec (s : State) (r : FlueRec) : State :=
  let x := s.stream r.dest
  let d := (r.seq - x.released).toInt
  let t := s.dropFlue r
  if d = 1 then ((t.setStream r.dest { x with released := r.seq }).takeRec r)
  else if d ≤ 0 then (t.satAdd F.FLUE_DUP_DUP 1).raise 36 [w32 r.dest.toNat, r.seq]
  else ((s.wr F.FLUE_STAT_SEQ_ERR 1).raise 38 []).enterSafe 0xFF

/-- FLUE_RELEASE: the next record of a destination is released. -/
def flueRelease (dest : BitVec 16) (s : State) : State :=
  if !s.operate || s.flue.shut then s
  else match s.releaseNext dest with
    | none => s
    | some r => allHarts.foldl State.fenceRetire (s.releaseRec r)

/-! ## Held requests (R178) -/

/-- A hart's held request may take a record now. -/
def State.heldFits (s : State) (r : LaneReq) : Bool := s.flueRoom r.part == FlueRoom.room

/-- FLUE_HELD_ENTRY: the oldest held request that may take a slot enters the Flue, and its store waits for its retirement. With a
Cord requested none enters: the store executes again after the seal (R145, R192). [DEDUCED, unsafe: notes/assumptions/24.md] -/
def flueHeldEntry (s : State) : State :=
  if !s.operate || s.flue.shut || s.cordDue then s
  else match s.flue.held.find? s.heldFits with
    | none => s
    | some r =>
      let t := { s with flue := { s.flue with held := s.flue.held.erase r } }
      let x := t.regionReq r false
      match x.1 with
      | .data v =>
        let u := x.2
        { u with lanes := { u.lanes with ready := Sparse.insert u.lanes.ready r.hart.val ⟨v, none, none⟩ } }
      | _ => s

/-! ## Stalls and acknowledgements (R174, R176) -/

/-- FLUE_DEST_STALL: the oldest record of an engine-accepted destination has been releasable for STALL_TMO. [DEDUCED, unsafe: notes/assumptions/24.md] -/
def flueDestStall (dest : BitVec 16) (s : State) : State :=
  let tmo := s.rd F.FLUE_CFG_STALL_TMO
  match s.oldestOf dest with
  | none => s
  | some r =>
    if s.operate && !r.kind.memory && r.releasable && tmo != 0 && !Sparse.get s.flue.stalled false dest.toNat &&
        reached s.raw (r.since + tmo * 100 * rawPerUs) then
      let s := { s with flue := { s.flue with stalled := Sparse.insert s.flue.stalled dest.toNat true } }
      let s := if s.on F.FLUE_STALL_VALID then s else (s.wr F.FLUE_STALL_DEST dest.toNat).wr F.FLUE_STALL_VALID 1
      s.raise 35 [w32 dest.toNat]
    else s

/-- Time within which the partner's acknowledgement is due: 1.5 µs. -/
def noackTime : Nat := 750

/-- The partner is out of step (R498). -/
def State.partnerLost (s : State) : State := (s.wr F.PAIR_STAT_OUT_OF_STEP 1).raise 421 [w32 1]

/-- Records that wait for the acknowledgement of a Cord or an earlier one wait no longer. -/
def State.ackWait (s : State) (k : Nat) : State :=
  { s with flue := { s.flue with recs := s.flue.recs.map (fun r => match r.mirrorWait with
      | some n => if n ≤ k then { r with mirrorWait := none } else r
      | none => r) } }

/-- FLUE_PAIR_NOACK: the oldest close record sent is not acknowledged 1.5 µs after its seal. -/
def fluePairNoack (s : State) : State :=
  match s.pair.unacked with
  | [] => s
  | (k, raw) :: t =>
    if s.operate && s.isActive && reached s.raw (raw + noackTime) then
      let s := s.pairSet (fun p => { p with unacked := t, noack := some (BitVec.ofNat 64 k) })
      ((s.ackWait k).satAdd F.FLUE_DUP_NOACK 1).raise 37 [w32 k, w32 (k / 2 ^ 32)] |>.partnerLost
    else s

/-! ## Meanings -/

/-- The effect of FLUE_RELEASE. -/
def execFlueRelease (dest : BitVec 16) (s : State) : Host.Outcome State Fault Refusal := .next (flueRelease dest s)
/-- The effect of FLUE_PAIR_NOACK. -/
def execFluePairNoack (s : State) : Host.Outcome State Fault Refusal := .next (fluePairNoack s)
/-- The effect of FLUE_DEST_STALL. -/
def execFlueDestStall (dest : BitVec 16) (s : State) : Host.Outcome State Fault Refusal := .next (flueDestStall dest s)
/-- The effect of FLUE_HELD_ENTRY. -/
def execFlueHeldEntry (s : State) : Host.Outcome State Fault Refusal := .next (flueHeldEntry s)

end Machine
end Sys2Proof
end

