-- ==== Sys2Proof/Machine/Image.lean ====
section
/-!
DEFINITION. The image loader (R566, R567, R569, R570): the checks of Table 22-5 and the sections of Table 22-7.
-/

namespace Sys2Proof
namespace Machine

/-! ## Reading the image (R566) -/

/-- SYS_IMG_ADDR. -/
def State.imgAddr (s : State) : Nat := s.rd F.SYS_IMG_ADDR_LO_ADDR_LO + 2 ^ 32 * s.rd F.SYS_IMG_ADDR_HI_ADDR_HI

/-- n bytes at an address lie wholly in DRAM, in MRAM or in the active boot-flash bank. -/
def imgMemory (a n : Nat) : Bool := inDram a n || inMram a n || within a n 0x20000000 0x27FFFFFF

/-- n bytes of the image from an offset. -/
def State.imgBytes (s : State) (off n : Nat) : List Byte := s.bytes (s.phys (s.imgAddr + off)) n

/-- A field of an image word. -/
def State.imgFld (s : State) (off lo w : Nat) : Nat := s.memFld (s.phys (s.imgAddr + off)) lo w

/-- Header fields (Table 22-4). -/
def State.imgLen (s : State) : Nat := s.imgFld 8 0 32
def State.imgSects (s : State) : Nat := s.imgFld 0xC 8 8
def State.imgSigned (s : State) : Bool := s.imgFld 4 16 1 == 1
def State.imgCrc (s : State) : Nat := s.imgFld 0x1C 0 32

/-! ## Section table (Tables 22-6 and 22-7) -/

/-- A section-table entry. -/
structure ImgSect where
  idx : Nat
  ty : Nat
  rsv : Nat
  off : Nat
  len : Nat
  crc : Nat
deriving DecidableEq, Repr

/-- Entry i of the section table. -/
def State.imgSect (s : State) (i : Nat) : ImgSect :=
  let a := 0x100 + 16 * i
  ⟨i, s.imgFld a 0 8, s.imgFld a 8 24, s.imgFld (a + 4) 0 32, s.imgFld (a + 8) 0 32, s.imgFld (a + 0xC) 0 32⟩

/-- The section table. -/
def State.imgTable (s : State) : List ImgSect := (List.range s.imgSects).map s.imgSect

/-- Types that may occur once. -/
def imgSingle (ty : Nat) : Bool := ty == 2 || decide (5 ≤ ty)

/-- Words of a section's content. -/
def State.imgWords (s : State) (x : ImgSect) : List Word := s.words (s.phys (s.imgAddr + x.off)) (x.len / 4)

/-- Pairs of setup offset and value. -/
def regPairs : List Word → List (Nat × Word)
  | o :: v :: t => (o.toNat, v) :: regPairs t
  | _ => []

/-- Every register write of the REGS sections, in their order. -/
def State.imgRegs (s : State) : List (Nat × Word) :=
  (s.imgTable.filter (fun x => x.ty == 1)).flatMap (fun x => regPairs (s.imgWords x))

/-- A register field as the REGS sections leave it. -/
def State.imgVal (s : State) (prs : List (Nat × Word)) (f : Fld) : Nat :=
  match regRow f.off with
  | none => 0
  | some r =>
    bits ((prs.filter (fun p => p.1 == f.off)).foldl (fun old p => typedWrite r true old p.2) (s.reg f.off)).toNat f.lo f.w

/-- Rings of the enabled entries of a PARTITION section. -/
def State.imgRings (s : State) (off : Nat) : Nat :=
  ((List.range 256).map (fun p =>
    let a := off + 32 * p
    if s.imgFld (a + 0xC) 0 1 = 1 then s.imgFld a 16 16 else 0)).sum

/-- LENGTH fits the section's type. -/
def State.imgLenOk (s : State) (prs : List (Nat × Word)) (x : ImgSect) : Bool :=
  let v := s.imgVal prs
  match x.ty with
  | 1 => x.len % 8 == 0
  | 2 => x.len == 1024
  | 3 => x.len % 16 == 0
  | 4 => decide (72 ≤ x.len)
  | 5 => decide (22016 ≤ x.len) && x.len == 22016 + 32 * s.imgRings x.off
  | 6 => x.len == 135184 || x.len == 270368
  | 7 => x.len == 64 * v F.SIG_DSET_COUNT_COUNT
  | 8 => x.len == 8 * v F.SIG_SLOTS_SLOTS + 16 * v F.SIG_RANGE_COUNT_COUNT + 8 * v F.SIG_ACC_COUNT_COUNT
  | 9 => x.len == 8 * v F.GW_ROUTE_COUNT_COUNT + 32 * v F.GW_GROUP_COUNT_COUNT
  | 10 => x.len == 4352
  | _ => false

/-- Two sections share a byte. -/
def imgOverlap (x y : ImgSect) : Bool := decide (x.off < y.off + y.len) && decide (y.off < x.off + x.len)

/-- A section that breaks Table 22-6 or 22-7, or clashes with one before it in the table (check 0x6). [DEDUCED, unsafe: notes/assumptions/75.md] -/
def State.imgSectBad (s : State) (prs : List (Nat × Word)) (x : ImgSect) : Bool :=
  let before := s.imgTable.take x.idx
  x.rsv != 0 || x.off % 64 != 0 || decide (x.off < 0x100 + 16 * s.imgSects) || decide (s.imgLen < x.off + x.len) ||
    !s.imgLenOk prs x || before.any (imgOverlap x) || (imgSingle x.ty && before.any (fun y => y.ty == x.ty))

/-- A section's CRC fails (check 0x7). -/
def State.imgCrcBad (s : State) (x : ImgSect) : Bool := (crc32c (s.imgBytes x.off x.len)).toNat != x.crc

/-! ## Phase 1 (Table 22-5) -/

/-- Check 0x1. [DEDUCED, unsafe: notes/assumptions/75.md] -/
def State.imgHeaderBad (s : State) : Bool :=
  s.imgAddr % 64 != 0 || s.imgFld 0 0 32 != 0x474D495A || s.imgFld 4 0 16 != 1 || s.imgFld 4 17 15 != 0 ||
    s.imgLen % 64 != 0 || decide (0x10000000 < s.imgLen) || decide (s.imgLen < 0x100 + 16 * s.imgSects) ||
    s.imgSects == 0 || decide (64 < s.imgSects) || s.imgFld 0xC 16 16 != 0 || s.imgFld 0x14 8 24 != 0 ||
    !(s.imgBytes 0x80 64).all (· == 0) || !imgMemory s.imgAddr s.imgLen ||
    (crc32c (s.imgBytes 0 0x1C)).toNat != s.imgCrc

/-- Checks 0x4 and 0x5, the signature: the key, then the digest and the signature itself. [DEDUCED, unsafe: notes/assumptions/75.md] -/
def State.imgSignature (s : State) : Nat :=
  if !s.imgSigned then (if s.pwr.fuseImgSig then 4 else 0)
  else
    let pub := s.imgBytes 0x40 64
    if !s.keyOk (s.imgFld 0x14 0 8) pub then 4
    else if sha256 (s.imgBytes 0x100 (s.imgLen - 0x100)) != BitVec.ofNat 256 (beNat (s.imgBytes 0x20 32)) ||
        !sigOk (sha256 (s.imgBytes 0 0xC0)) pub (s.imgBytes 0xC0 64) then 5
    else 0

/-- Phase 1 with codes 0x1 to 0x7, in code order: the code, and the failing section where one fails. -/
def State.imgCheck (s : State) : Nat × Option Nat :=
  if s.imgHeaderBad then (1, none)
  else if s.imgFld 0xC 0 8 ≠ s.rd F.SYS_ID_VARIANT then (2, none)
  else if (crc32c (s.imgBytes 0x100 (s.imgLen - 0x100))).toNat ≠ s.imgFld 0x18 0 32 then (3, none)
  else if s.imgSignature ≠ 0 then (s.imgSignature, none)
  else
    match s.imgTable.find? (s.imgSectBad s.imgRegs) with
    | some x => (6, some x.idx)
    | none =>
      if !s.imgTable.any (fun x => x.ty == 5) then (6, none)
      else match s.imgTable.find? s.imgCrcBad with
        | some x => (7, some x.idx)
        | none => (0, none)

/-! ## Phase 2 (R570, Table 22-7) -/

/-- A setup offset that a REGS section may not write. [DEDUCED, unsafe: notes/assumptions/76.md] -/
def imgRegBad (off : Nat) : Bool :=
  off % 4 != 0 || decide (0x13FFFC < off) ||
    [Reg.SYS_LOCK, Reg.SYS_RESET, Reg.SYS_BOOT, Reg.SYS_IMG_ADDR_LO, Reg.SYS_IMG_ADDR_HI, Reg.SYS_IMG_CMD, Reg.SYS_IMG_STAT,
      Reg.SYS_IMG_ID, Reg.SYS_IMG_VER, Reg.LANE_SAFE, Reg.RING_CMD, Reg.PART_ABANDON, Reg.TB_CMD, Reg.CYC_TASK_END,
      Reg.PAIR_JOIN, Reg.PWR_MPWAKE, Reg.REC_NOTE_CMD].contains off ||
    (decide (Reg.LOCK 0 ≤ off) && decide (off ≤ Reg.LOCK 1023)) || (decide (0x130000 ≤ off) && (regRow off).isSome)

/-- Writes of a REGS section in order, up to one that is refused. -/
def State.imgApplyRegs (s : State) : List (Nat × Word) → Bool × State
  | [] => (true, s)
  | (o, v) :: t => if imgRegBad o then (false, s) else (s.setupWrite .loader o v).imgApplyRegs t

/-- One register write per word, from a setup offset. -/
def State.imgApplyWords (s : State) (off : Nat) : List Word → State
  | [] => s
  | w :: t => (s.setupWrite .loader off w).imgApplyWords (off + 4) t

/-- A write of the loader to memory; `code` is the loader's in an error report. [DEDUCED, unsafe: notes/assumptions/76.md] -/
def State.imgPut (s : State) (code a : Nat) (bs : List Byte) : State :=
  if inDram a bs.length || inMram a bs.length then s.busWrite a bs code else s

/-- Entries of a ZERO section in order: address, then byte count. -/
def State.imgApplyZero (s : State) (code : Nat) : List Word → Bool × State
  | a0 :: a1 :: n0 :: n1 :: t =>
    let a := a0.toNat + 2 ^ 32 * (a1.toNat % 256)
    let n := n0.toNat + 2 ^ 32 * n1.toNat
    if !inDram a n || a % 64 != 0 || n % 64 != 0 then (false, s)
    else (s.imgPut code a (zeros n)).imgApplyZero code t
  | _ => (true, s)

/-- A DATA section: destination, then the bytes. -/
def State.imgApplyData (s : State) (code : Nat) (bs : List Byte) : Bool × State :=
  let a := leNat (bs.take 8)
  let d := bs.drop 8
  if a % 64 ≠ 0 ∨ (inDram a d.length || within a d.length 0x60400000 0x60FFFFFF) = false then (false, s)
  else (true, s.imgPut code a d)

/-- Rings inside the range of an enabled partition entry, ascending. -/
def State.entryRings (s : State) : List Nat :=
  (List.range 32768).filter (fun r => (List.range 256).any (fun p =>
    s.on (F.PE_CTL_EN p) && decide (s.rd (F.PE_RINGS_RING_FIRST p) ≤ r) &&
      decide (r < s.rd (F.PE_RINGS_RING_FIRST p) + s.rd (F.PE_RINGS_RING_COUNT p))))

/-- The ring contexts of a PARTITION section, each a WRITE of R215. [DEDUCED, unsafe: notes/assumptions/76.md] -/
def State.imgApplyRings (s : State) : List Nat → List Word → State
  | [], _ => s
  | r :: rs, ws =>
    let t := (List.range 8).foldl (fun t k => t.setReg (Reg.RING_CTX_D k) (ws.getD k 0)) (s.wr F.RING_CTX_SEL_RING r)
    (ringCtxWrite t).imgApplyRings rs (ws.drop 8)

/-- A PARTITION section (R224). -/
def State.imgApplyPart (s : State) (ws : List Word) : Bool × State :=
  if s.rd F.RING_DB_BASE_BASE = 0 then (false, s)
  else
    let s := s.imgApplyWords (Reg.PE_RINGS 0) (ws.take 2048)
    let s := s.imgApplyWords (Reg.FLUE_QUOTA 0) ((ws.drop 2048).take 256)
    let s := s.imgApplyWords (Reg.ENG_SCHED 0 0) ((ws.drop 2304).take 3200)
    (true, s.imgApplyRings s.entryRings (ws.drop 5504))

/-- Words of a schedule bank, as through CB_BANK_DATA. -/
def State.imgApplyBank (s : State) (b : Nat) : Nat → List Word → State
  | _, [] => s
  | i, w :: t => (s.setCbWord b i w).imgApplyBank b (i + 1) t

/-- A SCHED_BANK section: bank 0, then bank 1 when present. -/
def State.imgApplyBanks (s : State) (ws : List Word) : State :=
  let s := s.imgApplyBank 0 0 (ws.take cbBankWords)
  match ws.drop cbBankWords with
  | [] => s
  | two => (s.imgApplyBank 1 0 two).cbSet (fun c => { c with written1 := true })

/-- Parts of a table section: base page and length of each, copied one after another; a part with bytes needs a base. -/
def State.imgApplyParts (s : State) (code : Nat) (bs : List Byte) : List (Nat × Nat) → Bool × State
  | [] => (true, s)
  | (base, n) :: t =>
    if n = 0 then s.imgApplyParts code bs t
    else if base = 0 then (false, s)
    else (s.imgPut code (base * 4096) (bs.take n)).imgApplyParts code (bs.drop n) t

/-- One section is applied: whether it was accepted, and the state after it. -/
def State.imgApply (s : State) (code : Nat) (x : ImgSect) : Bool × State :=
  let ws := s.imgWords x
  let bs := s.imgBytes x.off x.len
  match x.ty with
  | 1 => s.imgApplyRegs (regPairs ws)
  | 2 => (true, s.imgApplyWords (Reg.RAT_BASE 0) ws)
  | 3 => s.imgApplyZero code ws
  | 4 => s.imgApplyData code bs
  | 5 => s.imgApplyPart ws
  | 6 => (true, s.imgApplyBanks ws)
  | 7 =>
    if s.rd F.SIG_DSET_BASE_BASE = 0 then (false, s) else (true, s.imgPut code (s.rd F.SIG_DSET_BASE_BASE * 4096) bs)
  | 8 =>
    s.imgApplyParts code bs
      [(s.rd F.SIG_MAP_BASE_BASE, 8 * s.rd F.SIG_SLOTS_SLOTS), (s.rd F.SIG_RANGE_BASE_BASE, 16 * s.rd F.SIG_RANGE_COUNT_COUNT),
        (s.rd F.SIG_ACC_BASE_BASE, 8 * s.rd F.SIG_ACC_COUNT_COUNT)]
  | 9 =>
    s.imgApplyParts code bs
      [(s.rd F.GW_ROUTE_BASE_BASE, 8 * s.rd F.GW_ROUTE_COUNT_COUNT), (s.rd F.GW_GROUP_BASE_BASE, 32 * s.rd F.GW_GROUP_COUNT_COUNT)]
  | 10 =>
    let s := (s.imgApplyWords (Reg.FLD_ISL 0) (ws.take 704)).imgApplyWords 0xE4000 ((ws.drop 704).take 192)
    (true, s.imgApplyWords (Reg.SAF_TPS 0) (ws.drop 896))
  | _ => (true, s)

/-- Sections in the order of application: by TYPE, then by table index. -/
def imgOrder (t : List ImgSect) : List ImgSect :=
  (List.range 11).flatMap (fun ty => t.filter (fun x => x.ty == ty))

/-- Applies sections up to one that is refused; what was applied before it stands. -/
def State.imgApplyAll (s : State) (code : Nat) : List ImgSect → Option Nat × State
  | [] => (none, s)
  | x :: t =>
    let r := s.imgApply code x
    if r.1 then r.2.imgApplyAll code t else (some x.idx, r.2)

/-! ## Phase 3 -/

/-- The load fails: ERR, and SECT, which is a free value where no section is at fault. [DEDUCED, unsafe: notes/assumptions/75.md] -/
def State.imgFail (s : State) (err : Nat) (sect : Option Nat) : State :=
  let d := s.draw
  let x := match sect with
    | some i => (i, s)
    | none => (d.1.toNat, d.2)
  ((x.2.wr F.SYS_IMG_STAT_ERR err).wr F.SYS_IMG_STAT_SECT x.1).wr F.SYS_IMG_STAT_BUSY 0

/-- The load is accepted. -/
def State.imgAccept (s : State) (id ver : Nat) (signed : Bool) : State :=
  let s := (s.setReg Reg.SYS_IMG_ID (w32 id)).setReg Reg.SYS_IMG_VER (w32 ver)
  ((s.wr F.SYS_IMG_STAT_SIGNED (b2n signed)).wr F.SYS_IMG_STAT_ACCEPTED 1).wr F.SYS_IMG_STAT_BUSY 0

/-- Bytes that the loader reads: the header, and with a header that holds, the whole image. -/
def State.imgSpan (s : State) : Nat := if s.imgHeaderBad then 256 else s.imgLen

/-- IMG_LOAD_END: the load that runs reads, checks and applies its image and ends. [DESIGN CHOICE, safe: notes/assumptions/11.md] -/
def imgLoadEnd (s : State) : State :=
  if s.phase ≠ Phase.setup ∨ s.on F.SYS_IMG_STAT_BUSY = false then s
  else
    let d := s.draw
    let code := d.1.toNat % 256
    let r := d.2.readCheck s.imgAddr (if imgMemory s.imgAddr 256 then s.imgSpan else 0) code
    if !r.1 then r.2.imgFail 0xA none
    else
      let c := s.imgCheck
      if c.1 ≠ 0 then r.2.imgFail c.1 c.2
      else
        let a := r.2.imgApplyAll code (imgOrder s.imgTable)
        match a.1 with
        | some i => a.2.imgFail 8 (some i)
        | none => a.2.imgAccept s.imgCrc (s.imgFld 0x10 0 32) s.imgSigned

/-! ## Meanings -/

/-- The effect of IMG_LOAD_END. -/
def execImgLoadEnd (s : State) : Host.Outcome State Fault Refusal := .next (imgLoadEnd s)

end Machine
end Sys2Proof
end

