-- ==== Sys2Proof/Machine/Maint.lean ====
section
/-!
DEFINITION. The maintenance protocol and the console (R551 to R555). A row stands for a whole request: its header is read from its
bytes, and the values of its payload are operands.
-/

namespace Sys2Proof
namespace Machine

/-! ## Requests and replies (R551, R553) -/

/-- The MP answers requests: it has booted or runs in recovery, and its ports transmit. -/
def State.mpServes (s : State) : Bool := s.phase != .reset && s.phase != .boot && s.maPorts

/-- Fields of a request's header (Table 21-7), big-endian (R9). -/
def MaintReq.magic (q : MaintReq) : Nat := bits q.head.toNat 80 16
def MaintReq.ver (q : MaintReq) : Nat := bits q.head.toNat 72 8
def MaintReq.op (q : MaintReq) : Nat := bits q.head.toNat 64 8
def MaintReq.seq (q : MaintReq) : Word := w32 (q.head.toNat / 2 ^ 32)
def MaintReq.len (q : MaintReq) : Nat := bits q.head.toNat 16 16

/-- A message: the header of Table 21-7 and a payload. -/
def maintMsg (op : Nat) (seq : Word) (status : Nat) (body : List Byte) : List Byte :=
  beBytes 2 0x444D ++ beBytes 1 1 ++ beBytes 1 op ++ beBytes 4 seq.toNat ++ beBytes 2 body.length ++ beBytes 1 status ++ [0] ++ body

/-- Operations of Table 21-8. -/
def maintOps : List Nat := [0x01, 0x02, 0x03, 0x04, 0x10, 0x11, 0x20, 0x21, 0x22, 0x23, 0x24, 0x25, 0x26]

/-- The address at which a port answers: MPX_IPn, or the link-local address where that is 0, and always in recovery (R551). -/
def State.maintAddr (s : State) (port : Fin 2) : Word :=
  let ip := s.reg (Reg.MPX_IP0 + 4 * port.val)
  if s.phase = Phase.recovery ∨ ip = 0 then w32 (0xA9FE4001 + 4 * s.rd F.SYS_STRAP_SLOT_ID + port.val) else ip

/-- The MP takes a request up: its MAGIC, VER and destination are right, and its OP is the row's, or one that Table 21-8 does not name. -/
def State.takesUp (s : State) (q : MaintReq) (op : Nat) : Bool :=
  q.magic == 0x444D && q.ver == 1 && q.dst == s.maintAddr q.port && (q.op == op || !maintOps.contains q.op)

/-- Operations that the MP serves in recovery. -/
def inRecovery (op : Nat) : Bool := [0x01, 0x10, 0x11, 0x23, 0x24, 0x26].contains op

/-- Operations that need an unlock. -/
def needsUnlock (op : Nat) : Bool := decide (0x20 ≤ op)

/-- The reply given before to the same request, at most 1 s ago. -/
def State.sentBefore (s : State) (q : MaintReq) : Option MaintSent :=
  s.mp.replies.find? (fun x => x.port == q.port && x.ip == q.ip && x.udp == q.udp && x.seq == q.seq && decide (s.rtcSince x.rtc ≤ 32768))

/-- Sends a reply; replies older than 1 s are no longer kept. [DESIGN CHOICE, safe: notes/assumptions/77.md] -/
def State.sendReply (s : State) (x : MaintSent) : State :=
  { s with mp := { s.mp with replies := x :: s.mp.replies.filter (fun y => decide (s.rtcSince y.rtc ≤ 32768)) } }

/-- Answers a request with a status, payload words and payload bytes. -/
def State.answer (s : State) (q : MaintReq) (op status : Nat) (ws : List Word) (bs : List Byte) : State :=
  s.sendReply ⟨q.port, q.ip, q.udp, q.seq, s.pwr.rtc.toNat, maintMsg op q.seq status (wireWords ws ++ bs)⟩

/-- A request of an operation with `len` payload bytes. `bad` says that a value is out of range, `addr` is the offset or address of
its note, and `run` performs it and answers. [DESIGN CHOICE, safe: notes/assumptions/77.md; DEDUCED, unsafe: notes/assumptions/78.md] -/
def State.maint (s : State) (q : MaintReq) (op len : Nat) (bad : Bool) (addr : Word) (run : State → State) : State :=
  if !s.mpServes then s
  else
    let s := s.mpIrq (2 + q.port.val)
    if !s.takesUp q op then s
    else match s.sentBefore q with
    | some x => s.sendReply x
    | none =>
      if q.op ≠ op ∨ (s.phase = Phase.recovery ∧ inRecovery op = false) ∨ q.len ≠ len then s.answer q q.op stBadDescriptor [] []
      else if needsUnlock op && !s.on F.MPX_STAT_UNLOCKED then s.answer q op stNotOwner [] []
      else
        let s := if needsUnlock op then { s with mp := { s.mp with lastUnlocked := s.pwr.rtc.toNat } } else s
        if bad then s.answer q op stBadDescriptor [] []
        else if needsUnlock op then run ((s.recNoteWrite 0x08 [w32 op, q.ip, addr]).raise 465 [w32 op])
        else run s

/-! ## Operations without an unlock -/

/-- IDENT. -/
def ident (q : MaintReq) (s : State) : State := s.maint q 0x01 0 false 0 (fun t => t.answer q 0x01 stOK t.identRegs identMacs)

/-- Setup-register space holds n words from an offset. -/
def regSpan (off n : Nat) : Bool := off % 4 == 0 && decide (1 ≤ n) && decide (n ≤ 64) && decide (off + 4 * n ≤ 0x140000)

/-- Reads n setup registers as the MP. -/
def State.readRegs (s : State) (off : Nat) : Nat → List Word × State
  | 0 => ([], s)
  | n + 1 =>
    let x := s.setupRead .mp off
    let r := x.2.readRegs (off + 4) n
    (x.1 :: r.1, r.2)

/-- READ_REG. -/
def readReg (q : MaintReq) (off : BitVec 22) (count : Nat) (s : State) : State :=
  s.maint q 0x02 8 (!regSpan off.toNat count) 0 (fun t =>
    let r := t.readRegs off.toNat count
    r.2.answer q 0x02 stOK r.1 [])

/-- Slot of the note with a SEQ, where it is held and valid. -/
def State.noteOf (s : State) (seq : Word) : Option Nat :=
  let a := recNote (seq.toNat % 128)
  if s.word a = seq ∧ s.le (a + 0x3C) 4 = validNote ∧ (crc32c (s.bytes a 0x38)).toNat = s.le (a + 0x38) 4 then some a else none

/-- Addresses of up to 16 notes from a SEQ on. -/
def State.notesFrom (s : State) (first : Word) : List Nat :=
  (List.range 16).filterMap (fun i => s.noteOf (first + w32 i))

/-- NOTES. -/
def notes (q : MaintReq) (first : Word) (s : State) : State :=
  s.maint q 0x03 4 false 0 (fun t => t.answer q 0x03 stOK [] ((t.notesFrom first).flatMap (fun a => t.bytes a 64)))

/-- REC_EXPORT for a maintenance port. -/
def maintRecExport (q : MaintReq) (first : BitVec 12) (count : BitVec 13) (s : State) : State :=
  let n := count.toNat
  s.maint q 0x04 8 (n == 0 || decide (4 < n) || decide (s.recCount < first.toNat + n)) 0 (fun t =>
    if 2 ≤ t.rd F.MPX_STAT_SHED then t.answer q 0x04 stBudget [] []
    else t.answer q 0x04 stOK [] ((List.range n).flatMap (fun i => recBytes (first.toNat + i) (t.recChan (first.toNat + i)) (t.recEn (first.toNat + i)))))

/-! ## Unlocking (R552) -/

/-- UNLOCK_REQ: a nonce of free values. -/
def unlockReq (q : MaintReq) (s : State) : State :=
  s.maint q 0x10 0 false 0 (fun t =>
    let a := t.draw
    let b := a.2.draw
    let n : BitVec 128 := a.1 ++ b.1
    ({ b.2 with mp := { b.2.mp with nonce := some n } }).answer q 0x10 stOK [] (beBytes 16 n.toNat))

/-- RTC counts of a minute. -/
def rtcMinute : Nat := 60 * 32768

/-- The nonce of an UNLOCK with its key and signature verifies. [DEDUCED, unsafe: notes/assumptions/78.md] -/
def State.unlockOk (s : State) (slot : Nat) (pub sig : List Byte) : Bool :=
  match s.mp.nonce with
  | none => false
  | some n =>
    s.keyOk slot pub &&
      sigOk (sha256 (beBytes 16 n.toNat ++ beBytes 4 (s.reg Reg.SYS_ID).toNat ++ beBytes 4 (s.reg Reg.SYS_STRAP).toNat)) pub sig

/-- After the third failure within 60 s, no UNLOCK is taken for 60 s. -/
def State.unlockBarred (s : State) : Bool :=
  match s.mp.lockedFrom with
  | none => false
  | some r => decide (s.rtcSince r < rtcMinute)

/-- A failed UNLOCK. -/
def State.unlockFailed (s : State) : State :=
  let fs := s.pwr.rtc.toNat :: s.mp.failed.filter (fun r => decide (s.rtcSince r < rtcMinute))
  if 3 ≤ fs.length then { s with mp := { s.mp with failed := [], lockedFrom := some s.pwr.rtc.toNat } }
  else { s with mp := { s.mp with failed := fs } }

/-- UNLOCK. [DEDUCED, unsafe: notes/assumptions/78.md] -/
def unlock (q : MaintReq) (slot : Byte) (pub sig : List Byte) (s : State) : State :=
  s.maint q 0x11 132 (decide (3 < slot.toNat) || pub.length != 64 || sig.length != 64) 0 (fun t =>
    let ok := !t.unlockBarred && t.unlockOk slot.toNat pub sig
    let u := { t with mp := { t.mp with nonce := none } }
    if ok then
      (({ u with mp := { u.mp with lastUnlocked := u.pwr.rtc.toNat } }).wr F.MPX_STAT_UNLOCKED 1).answer q 0x11 stOK [] []
    else (if t.unlockBarred then u else u.unlockFailed).answer q 0x11 stNotOwner [] [])

/-- UNLOCK_EXPIRY: ten minutes have passed without an unlocked request. -/
def unlockExpiry (s : State) : State :=
  if s.on F.MPX_STAT_UNLOCKED && decide (10 * rtcMinute ≤ s.rtcSince s.mp.lastUnlocked) then s.wr F.MPX_STAT_UNLOCKED 0 else s

/-! ## Unlocked operations -/

/-- READ_MEM. [DESIGN CHOICE, safe: notes/assumptions/11.md] -/
def readMem (q : MaintReq) (addr : BitVec 40) (len : Nat) (s : State) : State :=
  let a := addr.toNat
  s.maint q 0x20 12 (len == 0 || decide (1024 < len) || !State.engineMayRead a len) (w32 a) (fun t =>
    let d := t.draw
    let r := d.2.readCheck a len (d.1.toNat % 256)
    if r.1 then r.2.answer q 0x20 stOK [] (r.2.bytes a len) else r.2.answer q 0x20 stInternal [] [])

/-- WRITE_REG: a register write of the MP. -/
def writeReg (q : MaintReq) (off : BitVec 22) (w : Word) (s : State) : State :=
  s.maint q 0x21 8 (!regSpan off.toNat 1) (w32 off.toNat) (fun t => (t.answer q 0x21 stOK [] []).setupStore .mp off.toNat w)

/-- REC_CLEAR from a maintenance port. -/
def maintRecClear (q : MaintReq) (first : BitVec 12) (count : BitVec 13) (s : State) : State :=
  let f := first.toNat
  let n := count.toNat
  s.maint q 0x22 8 (n == 0 || decide (s.recCount < f + n)) (w32 f) (fun t =>
    let t := t.recClear ((List.range n).map (· + f))
    let g := w32 (t.rd F.REC_CLEAR_GEN_GEN)
    (t.answer q 0x22 stOK [g] []).raise 448 [w32 (f + 65536 * n), g])

/-- A bank that FW_WRITE may write: the inactive one, and in recovery either. [DEDUCED, unsafe: notes/assumptions/78.md] -/
def State.fwBank (s : State) (bank : Nat) : Bool :=
  decide (bank < 2) && (s.phase == .recovery || bank == 1 - s.rd F.SYS_BOOT_BANK)

/-- FW_WRITE. -/
def fwWrite (q : MaintReq) (bank : Byte) (off : Word) (bs : List Byte) (s : State) : State :=
  let b := bank.toNat
  s.maint q 0x23 (8 + bs.length) (!s.fwBank b || bs == [] || decide (1024 < bs.length) || decide (0x8000000 < off.toNat + bs.length)) off
    (fun t => (t.setBytes (bankBase b + off.toNat) bs).answer q 0x23 stOK [] [])

/-- FW_TRIAL: the check of a bank, and on code 0 the trial record. -/
def fwTrial (q : MaintReq) (bank : Byte) (s : State) : State :=
  let b := bank.toNat
  s.maint q 0x24 4 (decide (1 < b)) (w32 b) (fun t =>
    let c := t.checkBank b
    (if c = 0 then t.bootRecWrite b true 3 t.bootFields.2.2.2 else t).answer q 0x24 stOK [w32 c] [])

/-- DEBUG_EN: in the Setup phase it sets or clears MPX_DBG.EN (R555). [DEDUCED, unsafe: notes/assumptions/78.md] -/
def debugEn (q : MaintReq) (on : Bool) (s : State) : State :=
  s.maint q 0x25 4 false (w32 (b2n on)) (fun t =>
    (if t.setupPhase then (t.wr F.MPX_DBG_EN (b2n on)).wr F.MPX_STAT_DBG_EN (b2n on) else t).answer q 0x25 stOK [] [])

/-- RESET: the reply, then the reset with cause SW_MP. -/
def maintReset (q : MaintReq) (s : State) : State :=
  s.maint q 0x26 0 false 0 (fun t => (t.answer q 0x26 stOK [] []).resetModule .swMp 0)

/-! ## The console (R554) -/

/-- A text request at the console: its answer's words in one line. It writes nothing to the module. [DEDUCED, unsafe: notes/assumptions/78.md] -/
def consoleCommand (op : ConsoleOp) (s : State) : State :=
  if s.phase = Phase.reset ∨ s.phase = Phase.boot then s
  else
    let s := s.mpIrq 4
    let ws : List Word := match op with
      | .ident => s.identRegs ++ (List.range 2).flatMap (fun k => [w32 ((Config.maMac k).toNat / 2 ^ 32), w32 (Config.maMac k).toNat])
      | .readReg off n => if regSpan off.toNat n then (List.range n).map (fun i => (s.setupRead .mp (off.toNat + 4 * i)).1) else []
      | .notes first => (s.notesFrom first).flatMap (fun a => s.words a 16)
    s.consoleLine (.answer ws)

/-! ## Meanings -/

/-- The effect of IDENT. -/
def execIdent (q : Machine.MaintReq) (s : State) : Host.Outcome State Fault Refusal := .next (ident q s)
/-- The effect of READ_REG. -/
def execReadReg (q : Machine.MaintReq) (off : BitVec 22) (count : Nat) (s : State) : Host.Outcome State Fault Refusal :=
  .next (readReg q off count s)
/-- The effect of NOTES. -/
def execNotes (q : Machine.MaintReq) (first : Word) (s : State) : Host.Outcome State Fault Refusal :=
  .next (notes q first s)
/-- The effect of MAINT_REC_EXPORT. -/
def execMaintRecExport (q : Machine.MaintReq) (first : BitVec 12) (count : BitVec 13) (s : State) : Host.Outcome State Fault Refusal :=
  .next (maintRecExport q first count s)
/-- The effect of UNLOCK_REQ. -/
def execUnlockReq (q : Machine.MaintReq) (s : State) : Host.Outcome State Fault Refusal := .next (unlockReq q s)
/-- The effect of UNLOCK. -/
def execUnlock (q : Machine.MaintReq) (slot : Byte) (pub : List Byte) (sig : List Byte) (s : State) : Host.Outcome State Fault Refusal :=
  .next (unlock q slot pub sig s)
/-- The effect of UNLOCK_EXPIRY. -/
def execUnlockExpiry (s : State) : Host.Outcome State Fault Refusal := .next (unlockExpiry s)
/-- The effect of READ_MEM. -/
def execReadMem (q : Machine.MaintReq) (addr : BitVec 40) (len : Nat) (s : State) : Host.Outcome State Fault Refusal :=
  .next (readMem q addr len s)
/-- The effect of WRITE_REG. -/
def execWriteReg (q : Machine.MaintReq) (off : BitVec 22) (w : Word) (s : State) : Host.Outcome State Fault Refusal :=
  .next (writeReg q off w s)
/-- The effect of MAINT_REC_CLEAR. -/
def execMaintRecClear (q : Machine.MaintReq) (first : BitVec 12) (count : BitVec 13) (s : State) : Host.Outcome State Fault Refusal :=
  .next (maintRecClear q first count s)
/-- The effect of FW_WRITE. -/
def execFwWrite (q : Machine.MaintReq) (bank : Byte) (off : Word) (bs : List Byte) (s : State) : Host.Outcome State Fault Refusal :=
  .next (fwWrite q bank off bs s)
/-- The effect of FW_TRIAL. -/
def execFwTrial (q : Machine.MaintReq) (bank : Byte) (s : State) : Host.Outcome State Fault Refusal :=
  .next (fwTrial q bank s)
/-- The effect of DEBUG_EN. -/
def execDebugEn (q : Machine.MaintReq) (on : Bool) (s : State) : Host.Outcome State Fault Refusal :=
  .next (debugEn q on s)
/-- The effect of MAINT_RESET. -/
def execMaintReset (q : Machine.MaintReq) (s : State) : Host.Outcome State Fault Refusal := .next (maintReset q s)
/-- The effect of CONSOLE_COMMAND. -/
def execConsoleCommand (op : Machine.ConsoleOp) (s : State) : Host.Outcome State Fault Refusal :=
  .next (consoleCommand op s)

end Machine
end Sys2Proof
end

