-- ==== Sys2Proof/Machine/SetupLock.lean ====
section
/-!
DEFINITION. The end of the checks of SETUP_LOCK (R29, R30, Tables 1-11 and 1-12).
-/

namespace Sys2Proof
namespace Machine

/-- Length of the instruction a hart stands on. -/
def State.instLen (s : State) (h : HartId) : Nat := if s.memFld (s.phys (s.hart h).pc.toNat) 0 2 = 3 then 4 else 2

/-- The SYS_LOCK store retires in the harts that wait on it. -/
def State.lockRetire (s : State) : State :=
  allHarts.foldl (fun t h => if (t.hart h).wait = HartWait.lock then t.setHart h ((t.hart h).complete (t.instLen h) none) else t) s

/-- Cord 0, requested by SETUP_LOCK, is sealed at entry to the Operate phase, and the first idle window may open (R132, R142,
R143). -/
def State.cordZero (s : State) (ns : Nat) : State :=
  let s := s.lockRetire.operateStart
  (({ s with cord := { s.cord with causes := s.cord.causes ||| 1#10 } }).seal ns).idleAtSeal

/-- SETUP_LOCK_CHECKS_END, which the safe state never reaches: a failing check names itself in LOCK_ERR; otherwise Cord 0 is sealed in `ns` and the Operate phase
begins. [DEDUCED, safe: notes/assumptions/28.md; DEDUCED, safe: notes/assumptions/39.md] -/
def setupLockChecksEnd (a b c : SigOffer) (ns : Nat) (s : State) : State :=
  if s.phase ≠ Phase.locking ∨ s.safe = true then s
  else
    let r := s.lockErr true
    if r.1 ≠ 0 then ((r.2.setPhase .setup).wr F.SYS_PHASE_LOCK_ERR r.1).lockRetire
    else match s.sigVote a b c with
      | .unresolved k => r.2.unresolved k 0 0 0
      | .odd l k => ((r.2.faultRecord k [l] false 0 0 0).fence l).cordZero ns
      | .agreed => r.2.cordZero ns

/-! ## Meanings -/

/-- The effect of SETUP_LOCK_CHECKS_END. -/
def execSetupLockChecksEnd (a : SigOffer) (b : SigOffer) (c : SigOffer) (ns : Nat) (s : State) : Host.Outcome State Fault Refusal :=
  .next (setupLockChecksEnd a b c ns s)

end Machine
end Sys2Proof
end

