-- ==== Sys2Proof/Machine/Vote.lean ====
section
/-!
DEFINITION. Votes on requests (R125 to R132), and the issue of non-posted rack-bus accesses (R187).
-/

namespace Sys2Proof
namespace Machine

/-! ## Corrected errors of the lanes' L2 caches (R141) -/

/-- LANE_ECC count of a lane. -/
def eccFld : LaneId → Fld
  | .a => F.LANE_ECC_CORR_A
  | .b => F.LANE_ECC_CORR_B
  | .c => F.LANE_ECC_CORR_C

/-- A lane has corrected n errors; L2_ECC is raised when its count reaches LANE_ECC_THR. [DEDUCED, safe: notes/assumptions/23.md] -/
def State.eccCount1 (s : State) (l : LaneId) (n : Nat) : State :=
  let t := s.satAdd (eccFld l) n
  let thr := s.rd F.LANE_ECC_THR_THR
  if thr ≠ 0 ∧ s.rd (eccFld l) < thr ∧ thr ≤ t.rd (eccFld l) then t.raise 5 [] else t

/-! ## The vote (R125, R127, R128) -/

/-- The offers of the usable lanes. -/
def State.offersOf (s : State) (o : Offers) : List (LaneId × LaneOffer) := s.usableLanes.map (fun l => (l, Offers.of o l))

/-- The verdict on an nth request. -/
def State.reqVote (s : State) (o : Offers) : Verdict :=
  s.judge (vote offersEq classOf (fun x => x.localFault) (s.offersOf o))

/-- The request of the first usable lane that has offered one, of those that `keep` takes. -/
def State.firstReq (s : State) (o : Offers) (keep : LaneId → Bool) : Option LaneReq :=
  ((s.offersOf o).filter (fun p => keep p.1)).findSome? (fun p => p.2.req)

/-- The data of a response: a read of a whole line gets its 64 bytes. -/
def State.respWord (s : State) (r : LaneReq) (v : DWord) : BitVec 512 :=
  if r.size = 64 ∧ readsOnly r.kind then BitVec.ofNat 512 (s.le (s.phys r.addr.toNat) 64) else v.setWidth 512

/-- The fabric's response to a request goes back to every usable lane; a hart that gets none yet waits. -/
def State.respond (s : State) (r : LaneReq) (x : Resp) : State :=
  match x with
  | .data v => { s with lanes := { s.lanes with respData := s.respWord r v, respFault := none } }
  | .fault c _ => { s with lanes := { s.lanes with respData := 0, respFault := some c } }
  | .hold w => s.park r.hart w
  | .diverged => s.diverge r

/-- The agreed request goes on to the fabric. [DEDUCED, safe: notes/assumptions/23.md] -/
def State.passReq (s : State) (r : LaneReq) (miss : Bool) : State :=
  let x := s.laneAccess r miss
  x.2.respond r x.1

/-- A vote on the nth requests, and what follows it. -/
def State.voteReq (s : State) (o : Offers) (miss : Bool) : State :=
  match s.firstReq o (fun _ => true) with
  | none => s
  | some r =>
    match s.reqVote o with
    | .agreed => s.passReq r miss
    | .odd l c =>
      let t := (s.faultRecord c [l] false r.part.toNat r.hart.val r.addr.toNat).fence l
      (match s.firstReq o (fun k => k != l) with
        | none => t
        | some q => t.passReq q miss)
    | .unresolved c => s.unresolved c r.part.toNat r.hart.val r.addr.toNat

/-- Requests are voted: the lanes run. A request offered before its hart stopped for a Cord completes before the seal (R145), and
one whose vote is left unresolved abandons it (R163). -/
def State.votes (s : State) : Bool := s.lanesRun

/-- VOTED_REQUEST: the usable lanes have offered their nth requests. `nA`, `nB` and `nC` are the L2 errors that each lane has
corrected since its last offer. -/
def votedRequest (o : Offers) (miss : Bool) (nA nB nC : Nat) (s : State) : State :=
  if !s.votes || (s.offersOf o).any (fun p => p.2.req.isNone) then s
  else (((s.eccCount1 .a nA).eccCount1 .b nB).eccCount1 .c nC).voteReq o miss

/-- The offers with a lane that has not offered. -/
def Offers.without (o : Offers) (l : LaneId) : Offers :=
  match l with
  | .a => { o with a := ⟨none, 0, false⟩ }
  | .b => { o with b := ⟨none, 0, false⟩ }
  | .c => { o with c := ⟨none, 0, false⟩ }

/-- VOTE_MISSING_TIMEOUT: 64 lane clocks after the first offer a usable lane has made none. -/
def voteMissingTimeout (l : LaneId) (o : Offers) (miss : Bool) (s : State) : State :=
  if !s.votes || !s.usableLanes.contains l then s else s.voteReq (Offers.without o l) miss

/-! ## Non-posted accesses (R187) -/

/-- NONPOSTED_ISSUE: an access to a non-posted window whose hart waits for it issues: it is the hart's first request of the
interval, and the Flue holds nothing for the window. -/
def nonpostedIssue (r : LaneReq) (s : State) : State :=
  match s.region r.addr.toNat with
  | .rack w =>
    if s.votes && !s.cordDue && (s.hart r.hart).wait == .access && !s.rackPosted w && s.firstAsk r.hart && !s.windowHeld w &&
        !s.hasReady r.hart then
      s.passReq r false
    else s
  | _ => s

/-! ## Meanings -/

/-- The effect of VOTED_REQUEST. -/
def execVotedRequest (o : Offers) (miss : Bool) (nA : Nat) (nB : Nat) (nC : Nat) (s : State) : Host.Outcome State Fault Refusal :=
  .next (votedRequest o miss nA nB nC s)
/-- The effect of VOTE_MISSING_TIMEOUT. -/
def execVoteMissingTimeout (l : LaneId) (o : Offers) (miss : Bool) (s : State) : Host.Outcome State Fault Refusal :=
  .next (voteMissingTimeout l o miss s)
/-- The effect of NONPOSTED_ISSUE. -/
def execNonpostedIssue (r : LaneReq) (s : State) : Host.Outcome State Fault Refusal := .next (nonpostedIssue r s)

end Machine
end Sys2Proof
end

