-- ==== Sys2Proof/Machine/Dispatch.lean ====
section
/-!
DEFINITION. exec: one arm per command, each a direct call of that command's meaning.
-/

namespace Sys2Proof
namespace Machine

/-- The effect of a command on everything but the queue. [DESIGN CHOICE, safe: notes/assumptions/2.md; DESIGN CHOICE, safe: notes/assumptions/20.md; DEDUCED, unsafe: notes/assumptions/81.md; DEDUCED, safe: notes/assumptions/82.md] -/
def exec (i : Instr) (s : State) : Host.Outcome State Fault Refusal :=
  match i with
  | .vlogRise f vlog => Sys2Proof.Machine.execVlogRise f vlog s
  | .feedAbsent f vlog => Sys2Proof.Machine.execFeedAbsent f vlog s
  | .feedPresentTimer f vlog => Sys2Proof.Machine.execFeedPresentTimer f vlog s
  | .holdupExhausted => Sys2Proof.Machine.execHoldupExhausted s
  | .holdupLevelChange ok => Sys2Proof.Machine.execHoldupLevelChange ok s
  | .vhearthFault => Sys2Proof.Machine.execVhearthFault s
  | .railFault r => Sys2Proof.Machine.execRailFault r s
  | .overTemp t => Sys2Proof.Machine.execOverTemp t s
  | .thermalTrip t => Sys2Proof.Machine.execThermalTrip t s
  | .lpDrawChange mA => Sys2Proof.Machine.execLpDrawChange mA s
  | .borLp => Sys2Proof.Machine.execBorLp s
  | .resetRelease x => Sys2Proof.Machine.execResetRelease x s
  | .tinderBootDone => Sys2Proof.Machine.execTinderBootDone s
  | .strapSample x => Sys2Proof.Machine.execStrapSample x s
  | .sysReset who w => Sys2Proof.Machine.execSysReset who w s
  | .jtagReset => Sys2Proof.Machine.execJtagReset s
  | .mpWdtExpiry => Sys2Proof.Machine.execMpWdtExpiry s
  | .mpxWdt who w => Sys2Proof.Machine.execMpxWdt who w s
  | .sysBootConfirm who w => Sys2Proof.Machine.execSysBootConfirm who w s
  | .pwrPlWrite who w => Sys2Proof.Machine.execPwrPlWrite who w s
  | .plChangeDone => Sys2Proof.Machine.execPlChangeDone s
  | .sysClkWrite who w => Sys2Proof.Machine.execSysClkWrite who w s
  | .lanePllLock => Sys2Proof.Machine.execLanePllLock s
  | .laneSrcSwitch => Sys2Proof.Machine.execLaneSrcSwitch s
  | .wfi h => Sys2Proof.Machine.execWfi h s
  | .dzcWfi h => Sys2Proof.Machine.execDzcWfi h s
  | .dzcWfiEmber h => Sys2Proof.Machine.execDzcWfiEmber h s
  | .emberDecision => Sys2Proof.Machine.execEmberDecision s
  | .emberEntryComplete => Sys2Proof.Machine.execEmberEntryComplete s
  | .wakeLatch srcs => Sys2Proof.Machine.execWakeLatch srcs s
  | .rtcAlarm => Sys2Proof.Machine.execRtcAlarm s
  | .pwrMpwake who w => Sys2Proof.Machine.execPwrMpwake who w s
  | .kindleComplete lost => Sys2Proof.Machine.execKindleComplete lost s
  | .votedRequest o miss nA nB nC => Sys2Proof.Machine.execVotedRequest o miss nA nB nC s
  | .voteMissingTimeout l o miss => Sys2Proof.Machine.execVoteMissingTimeout l o miss s
  | .setupRegWrite who off w => Sys2Proof.Machine.execSetupRegWrite who off w s
  | .setupLockRequest h part w => Sys2Proof.Machine.execSetupLockRequest h part w s
  | .setupLockChecksEnd a b c ns => Sys2Proof.Machine.execSetupLockChecksEnd a b c ns s
  | .heldSetupWriteApply => Sys2Proof.Machine.execHeldSetupWriteApply s
  | .instruction k fmiss miss => Sys2Proof.Machine.execInstruction k fmiss miss s
  | .interruptTake k => Sys2Proof.Machine.execInterruptTake k s
  | .mret h => Sys2Proof.Machine.execMret h s
  | .csrWrite h op useImm rd src c => Sys2Proof.Machine.execCsrWrite h op useImm rd src c s
  | .dzlSetup h rs1 uimm => Sys2Proof.Machine.execDzlSetup h rs1 uimm s
  | .dzcCord h rd => Sys2Proof.Machine.execDzcCord h rd s
  | .dzcCfence h => Sys2Proof.Machine.execDzcCfence h s
  | .plicClaim h rd => Sys2Proof.Machine.execPlicClaim h rd s
  | .plicComplete h rs => Sys2Proof.Machine.execPlicComplete h rs s
  | .mtipChange h => Sys2Proof.Machine.execMtipChange h s
  | .tapInstruction c dr => Sys2Proof.Machine.execTapInstruction c dr s
  | .laneLbistEnd l pass => Sys2Proof.Machine.execLaneLbistEnd l pass s
  | .coldResumeDone => Sys2Proof.Machine.execColdResumeDone s
  | .safeStateEntry cause => Sys2Proof.Machine.execSafeStateEntry cause s
  | .laneSafe who w => Sys2Proof.Machine.execLaneSafe who w s
  | .laneEccClr who w => Sys2Proof.Machine.execLaneEccClr who w s
  | .cordPeriodExpiry => Sys2Proof.Machine.execCordPeriodExpiry s
  | .cordSeal a b c ns => Sys2Proof.Machine.execCordSeal a b c ns s
  | .rollbackRestore disagree undoErr => Sys2Proof.Machine.execRollbackRestore disagree undoErr s
  | .replayTimeout => Sys2Proof.Machine.execReplayTimeout s
  | .cordClr who w => Sys2Proof.Machine.execCordClr who w s
  | .flueRelease dest => Sys2Proof.Machine.execFlueRelease dest s
  | .fluePairNoack => Sys2Proof.Machine.execFluePairNoack s
  | .flueDestStall dest => Sys2Proof.Machine.execFlueDestStall dest s
  | .flueHeldEntry => Sys2Proof.Machine.execFlueHeldEntry s
  | .flueClr who w => Sys2Proof.Machine.execFlueClr who w s
  | .nonpostedIssue r => Sys2Proof.Machine.execNonpostedIssue r s
  | .engineSlotStart e => Sys2Proof.Machine.execEngineSlotStart e s
  | .ringHalted r => Sys2Proof.Machine.execRingHalted r s
  | .nop e => Sys2Proof.Machine.execNop e s
  | .handleQuery e => Sys2Proof.Machine.execHandleQuery e s
  | .ringCtxRead => Sys2Proof.Machine.execRingCtxRead s
  | .ringCtxWrite => Sys2Proof.Machine.execRingCtxWrite s
  | .evtRecordWrite => Sys2Proof.Machine.execEvtRecordWrite s
  | .lockAcquire who n => Sys2Proof.Machine.execLockAcquire who n s
  | .lockRelease who n w => Sys2Proof.Machine.execLockRelease who n w s
  | .partAbandon who w => Sys2Proof.Machine.execPartAbandon who w s
  | .partMonClr who w => Sys2Proof.Machine.execPartMonClr who w s
  | .tbPllLost => Sys2Proof.Machine.execTbPllLost s
  | .tbNtLatch who => Sys2Proof.Machine.execTbNtLatch who s
  | .tbCancel who => Sys2Proof.Machine.execTbCancel who s
  | .tbSetIncr who at_ => Sys2Proof.Machine.execTbSetIncr who at_ s
  | .tbSetNt who at_ => Sys2Proof.Machine.execTbSetNt who at_ s
  | .tbAddOfs who at_ => Sys2Proof.Machine.execTbAddOfs who at_ s
  | .tbAtApply => Sys2Proof.Machine.execTbAtApply s
  | .ptoFire n => Sys2Proof.Machine.execPtoFire n s
  | .ptoPulseEnd n => Sys2Proof.Machine.execPtoPulseEnd n s
  | .ptoSetupRearm n => Sys2Proof.Machine.execPtoSetupRearm n s
  | .syncInEdge => Sys2Proof.Machine.execSyncInEdge s
  | .tsqRead => Sys2Proof.Machine.execTsqRead s
  | .ptoArm => Sys2Proof.Machine.execPtoArm s
  | .crMasterRx n ch f ok => Sys2Proof.Machine.execCrMasterRx n ch f ok s
  | .crMemberRx n ch f ok => Sys2Proof.Machine.execCrMemberRx n ch f ok s
  | .crReturnTimeout n => Sys2Proof.Machine.execCrReturnTimeout n s
  | .crMemberCycleTimeout n => Sys2Proof.Machine.execCrMemberCycleTimeout n s
  | .crAcycRx n ch f ok => Sys2Proof.Machine.execCrAcycRx n ch f ok s
  | .crAcycForward n ch => Sys2Proof.Machine.execCrAcycForward n ch s
  | .crTxStart p => Sys2Proof.Machine.execCrTxStart p s
  | .crTx p => Sys2Proof.Machine.execCrTx p s
  | .crTxExpiry p => Sys2Proof.Machine.execCrTxExpiry p s
  | .crRxPost p => Sys2Proof.Machine.execCrRxPost p s
  | .crStatus p => Sys2Proof.Machine.execCrStatus p s
  | .crLinkChange p up => Sys2Proof.Machine.execCrLinkChange p up s
  | .crClr n who w => Sys2Proof.Machine.execCrClr n who w s
  | .cbSyncRx q f ok => Sys2Proof.Machine.execCbSyncRx q f ok s
  | .cbSyncMissed => Sys2Proof.Machine.execCbSyncMissed s
  | .cbRelay q f ok => Sys2Proof.Machine.execCbRelay q f ok s
  | .cbRelayBuffered q => Sys2Proof.Machine.execCbRelayBuffered q s
  | .cbDataRx q f ok => Sys2Proof.Machine.execCbDataRx q f ok s
  | .cbRawRx q f ok => Sys2Proof.Machine.execCbRawRx q f ok s
  | .cbImageFreeze w => Sys2Proof.Machine.execCbImageFreeze w s
  | .cbWindowSend w => Sys2Proof.Machine.execCbWindowSend w s
  | .cbArbSend ch => Sys2Proof.Machine.execCbArbSend ch s
  | .cbTx q => Sys2Proof.Machine.execCbTx q s
  | .cbTxExpiry q => Sys2Proof.Machine.execCbTxExpiry q s
  | .cbRxPost q => Sys2Proof.Machine.execCbRxPost q s
  | .cbSchedLoad q => Sys2Proof.Machine.execCbSchedLoad q s
  | .cbSchedLoadDone => Sys2Proof.Machine.execCbSchedLoadDone s
  | .cbAnnounce q => Sys2Proof.Machine.execCbAnnounce q s
  | .cbStatus q => Sys2Proof.Machine.execCbStatus q s
  | .cbLinkChange q up => Sys2Proof.Machine.execCbLinkChange q up s
  | .cbBankDataWrite who w => Sys2Proof.Machine.execCbBankDataWrite who w s
  | .cbClr who w => Sys2Proof.Machine.execCbClr who w s
  | .sigPublish => Sys2Proof.Machine.execSigPublish s
  | .sigSnapshot => Sys2Proof.Machine.execSigSnapshot s
  | .sigForce => Sys2Proof.Machine.execSigForce s
  | .sigUnforce => Sys2Proof.Machine.execSigUnforce s
  | .sigWatch => Sys2Proof.Machine.execSigWatch s
  | .sigWatchTimeout r p => Sys2Proof.Machine.execSigWatchTimeout r p s
  | .sigBulkLoad => Sys2Proof.Machine.execSigBulkLoad s
  | .sigReindex => Sys2Proof.Machine.execSigReindex s
  | .sigReindexSwitch => Sys2Proof.Machine.execSigReindexSwitch s
  | .sigSubBuild => Sys2Proof.Machine.execSigSubBuild s
  | .sigStaleDeadline d => Sys2Proof.Machine.execSigStaleDeadline d s
  | .sigClr who w => Sys2Proof.Machine.execSigClr who w s
  | .gwGroupCtl => Sys2Proof.Machine.execGwGroupCtl s
  | .gwClr who w => Sys2Proof.Machine.execGwClr who w s
  | .rbCycleStart low => Sys2Proof.Machine.execRbCycleStart low s
  | .rbCycleResponse err data => Sys2Proof.Machine.execRbCycleResponse err data s
  | .rbCycleEnd => Sys2Proof.Machine.execRbCycleEnd s
  | .rbCycleTimeout => Sys2Proof.Machine.execRbCycleTimeout s
  | .rbBusResetEnd => Sys2Proof.Machine.execRbBusResetEnd s
  | .rbRstWaitEnd => Sys2Proof.Machine.execRbRstWaitEnd s
  | .rbBlockRead => Sys2Proof.Machine.execRbBlockRead s
  | .rbBlockWrite => Sys2Proof.Machine.execRbBlockWrite s
  | .rbClr who w => Sys2Proof.Machine.execRbClr who w s
  | .cycOverrun t => Sys2Proof.Machine.execCycOverrun t s
  | .cycRestart => Sys2Proof.Machine.execCycRestart s
  | .cycStop => Sys2Proof.Machine.execCycStop s
  | .cycForce => Sys2Proof.Machine.execCycForce s
  | .cycStatus => Sys2Proof.Machine.execCycStatus s
  | .idleWindowEnd => Sys2Proof.Machine.execIdleWindowEnd s
  | .cycClr who w => Sys2Proof.Machine.execCycClr who w s
  | .fldDownlinkFrame tests => Sys2Proof.Machine.execFldDownlinkFrame tests s
  | .islandFrameApply isle done => Sys2Proof.Machine.execIslandFrameApply isle done s
  | .fldUplinkFrame isle pass => Sys2Proof.Machine.execFldUplinkFrame isle pass s
  | .fldFrameLost isle up arrived => Sys2Proof.Machine.execFldFrameLost isle up arrived s
  | .islandLinkLoss isle => Sys2Proof.Machine.execIslandLinkLoss isle s
  | .diSample isle mV v cur temp => Sys2Proof.Machine.execDiSample isle mV v cur temp s
  | .diDebounceExpiry isle j => Sys2Proof.Machine.execDiDebounceExpiry isle j s
  | .diVsChange k => Sys2Proof.Machine.execDiVsChange k s
  | .dioShortDetect g j limit => Sys2Proof.Machine.execDioShortDetect g j limit s
  | .dioThermalShutdown g j => Sys2Proof.Machine.execDioThermalShutdown g j s
  | .dioThermalCool g j => Sys2Proof.Machine.execDioThermalCool g j s
  | .dioRetryTimer g j => Sys2Proof.Machine.execDioRetryTimer g j s
  | .dioExtFeed g j => Sys2Proof.Machine.execDioExtFeed g j s
  | .dioVdoLow g => Sys2Proof.Machine.execDioVdoLow g s
  | .dioGroupOc g mean => Sys2Proof.Machine.execDioGroupOc g mean s
  | .dioGroupTrip g => Sys2Proof.Machine.execDioGroupTrip g s
  | .dioOndiagMeasure g j uA => Sys2Proof.Machine.execDioOndiagMeasure g j uA s
  | .dioOffdiagCheck g j mV => Sys2Proof.Machine.execDioOffdiagCheck g j mV s
  | .pwmPeriodStart g j => Sys2Proof.Machine.execPwmPeriodStart g j s
  | .pwmRampTick => Sys2Proof.Machine.execPwmRampTick s
  | .fldWrite => Sys2Proof.Machine.execFldWrite s
  | .fldSetFunc => Sys2Proof.Machine.execFldSetFunc s
  | .fldRearm => Sys2Proof.Machine.execFldRearm s
  | .fldRead => Sys2Proof.Machine.execFldRead s
  | .fldLinkRestart => Sys2Proof.Machine.execFldLinkRestart s
  | .fldClr who w => Sys2Proof.Machine.execFldClr who w s
  | .aiResult c raw => Sys2Proof.Machine.execAiResult c raw s
  | .aiReadbackWindow c burden supply head temp => Sys2Proof.Machine.execAiReadbackWindow c burden supply head temp s
  | .aiOpenLoop c uA => Sys2Proof.Machine.execAiOpenLoop c uA s
  | .aiCompliance c mV => Sys2Proof.Machine.execAiCompliance c mV s
  | .aiVlpLow isle mV => Sys2Proof.Machine.execAiVlpLow isle mV s
  | .aiSupLimit c limit => Sys2Proof.Machine.execAiSupLimit c limit s
  | .aiParkWindow c mean => Sys2Proof.Machine.execAiParkWindow c mean s
  | .fldAiSync => Sys2Proof.Machine.execFldAiSync s
  | .fldAiCapture => Sys2Proof.Machine.execFldAiCapture s
  | .fldFskXfer => Sys2Proof.Machine.execFldFskXfer s
  | .fskTxEnd c => Sys2Proof.Machine.execFskTxEnd c s
  | .fskCarrierDetect c => Sys2Proof.Machine.execFskCarrierDetect c s
  | .fskCharRx c b par frm => Sys2Proof.Machine.execFskCharRx c b par frm s
  | .fskRxEnd c absent => Sys2Proof.Machine.execFskRxEnd c absent s
  | .fskRxTimeout c => Sys2Proof.Machine.execFskRxTimeout c s
  | .fldAiSyncStatClr who w => Sys2Proof.Machine.execFldAiSyncStatClr who w s
  | .safEvaluation differ => Sys2Proof.Machine.execSafEvaluation differ s
  | .tpsPulseStart t => Sys2Proof.Machine.execTpsPulseStart t s
  | .tpsPulseEnd t stuck => Sys2Proof.Machine.execTpsPulseEnd t stuck s
  | .tpCheckEnd n x => Sys2Proof.Machine.execTpCheckEnd n x s
  | .tpsOverload t limit => Sys2Proof.Machine.execTpsOverload t limit s
  | .safInFiltExpiry n x => Sys2Proof.Machine.execSafInFiltExpiry n x s
  | .safDiscrepancy n => Sys2Proof.Machine.execSafDiscrepancy n s
  | .safFeedbackTimeout n x => Sys2Proof.Machine.execSafFeedbackTimeout n x s
  | .safDegExpiry n => Sys2Proof.Machine.execSafDegExpiry n s
  | .safReset => Sys2Proof.Machine.execSafReset s
  | .safStatus => Sys2Proof.Machine.execSafStatus s
  | .safClr who w => Sys2Proof.Machine.execSafClr who w s
  | .pairJoin who w => Sys2Proof.Machine.execPairJoin who w s
  | .pairJoinTimeout => Sys2Proof.Machine.execPairJoinTimeout s
  | .pairLinkLane lane up => Sys2Proof.Machine.execPairLinkLane lane up s
  | .pairHeartbeatTx => Sys2Proof.Machine.execPairHeartbeatTx s
  | .pairHeartbeatRx h trip => Sys2Proof.Machine.execPairHeartbeatRx h trip s
  | .pairHbLoss => Sys2Proof.Machine.execPairHbLoss s
  | .pairPresWaitEnd => Sys2Proof.Machine.execPairPresWaitEnd s
  | .pairTakeoverResume => Sys2Proof.Machine.execPairTakeoverResume s
  | .pairMirrorRx m => Sys2Proof.Machine.execPairMirrorRx m s
  | .pairCloseRx c valid => Sys2Proof.Machine.execPairCloseRx c valid s
  | .pairCloseAckRx k => Sys2Proof.Machine.execPairCloseAckRx k s
  | .pairDiscardRx => Sys2Proof.Machine.execPairDiscardRx s
  | .pairCopyRelay n back f ok => Sys2Proof.Machine.execPairCopyRelay n back f ok s
  | .pairSwitch => Sys2Proof.Machine.execPairSwitch s
  | .pairSwitchRequestRx ack => Sys2Proof.Machine.execPairSwitchRequestRx ack s
  | .pairReadyRx => Sys2Proof.Machine.execPairReadyRx s
  | .pairSwitchTimeout => Sys2Proof.Machine.execPairSwitchTimeout s
  | .pairSwitchHandoverEnd done => Sys2Proof.Machine.execPairSwitchHandoverEnd done s
  | .pairRevertTimer => Sys2Proof.Machine.execPairRevertTimer s
  | .pairStatus => Sys2Proof.Machine.execPairStatus s
  | .pairClr who w => Sys2Proof.Machine.execPairClr who w s
  | .recPeriodicSample c => Sys2Proof.Machine.execRecPeriodicSample c s
  | .recSampleApply => Sys2Proof.Machine.execRecSampleApply s
  | .recFlush => Sys2Proof.Machine.execRecFlush s
  | .recNoteCmd who w => Sys2Proof.Machine.execRecNoteCmd who w s
  | .recExport => Sys2Proof.Machine.execRecExport s
  | .recClear => Sys2Proof.Machine.execRecClear s
  | .recClr who w => Sys2Proof.Machine.execRecClr who w s
  | .istLbistSelect => Sys2Proof.Machine.execIstLbistSelect s
  | .dramScrubRead => Sys2Proof.Machine.execDramScrubRead s
  | .istOffpulseEnd => Sys2Proof.Machine.execIstOffpulseEnd s
  | .calAgeCheck => Sys2Proof.Machine.execCalAgeCheck s
  | .calIslandDone n => Sys2Proof.Machine.execCalIslandDone n s
  | .mpLoadWindow load => Sys2Proof.Machine.execMpLoadWindow load s
  | .mpTelemetry => Sys2Proof.Machine.execMpTelemetry s
  | .mpxL2mCmd who w => Sys2Proof.Machine.execMpxL2mCmd who w s
  | .mpxM2lCmd who w => Sys2Proof.Machine.execMpxM2lCmd who w s
  | .maFrameRx port f => Sys2Proof.Machine.execMaFrameRx port f s
  | .ident q => Sys2Proof.Machine.execIdent q s
  | .readReg q off count => Sys2Proof.Machine.execReadReg q off count s
  | .notes q first => Sys2Proof.Machine.execNotes q first s
  | .maintRecExport q first count => Sys2Proof.Machine.execMaintRecExport q first count s
  | .unlockReq q => Sys2Proof.Machine.execUnlockReq q s
  | .unlock q slot pub sig => Sys2Proof.Machine.execUnlock q slot pub sig s
  | .unlockExpiry => Sys2Proof.Machine.execUnlockExpiry s
  | .readMem q addr len => Sys2Proof.Machine.execReadMem q addr len s
  | .writeReg q off w => Sys2Proof.Machine.execWriteReg q off w s
  | .maintRecClear q first count => Sys2Proof.Machine.execMaintRecClear q first count s
  | .fwWrite q bank off bs => Sys2Proof.Machine.execFwWrite q bank off bs s
  | .fwTrial q bank => Sys2Proof.Machine.execFwTrial q bank s
  | .debugEn q on => Sys2Proof.Machine.execDebugEn q on s
  | .maintReset q => Sys2Proof.Machine.execMaintReset q s
  | .consoleCommand op => Sys2Proof.Machine.execConsoleCommand op s
  | .istClr who w => Sys2Proof.Machine.execIstClr who w s
  | .imgLoadStart who w => Sys2Proof.Machine.execImgLoadStart who w s
  | .imgLoadEnd => Sys2Proof.Machine.execImgLoadEnd s
  | .energyDetect port => Sys2Proof.Machine.execEnergyDetect port s
  | .vsSafLow k mV temp => Sys2Proof.Machine.execVsSafLow k mV temp s
  | .otWarnRearm t => Sys2Proof.Machine.execOtWarnRearm t s
  | .txFrameEnd p => Sys2Proof.Machine.execTxFrameEnd p s

end Machine
end Sys2Proof
end

