-- ==== Sys2Proof/Machine/Status.lean ====
section
/-!
DEFINITION. The front lamps as functions of the state (R62, Table 2-14), and the FAULT relay and SAFE_N (R42, R43).
-/

namespace Sys2Proof
namespace Machine

/-- Lamp patterns. -/
inductive Pattern where
  | off
  | steady
  | slow
  | fast
  | pulse
deriving DecidableEq, Repr

/-- The six lamps; ROLE lights yellow where `roleYellow` is true, green otherwise. -/
structure Lamps where
  run : Pattern
  role : Pattern
  roleYellow : Bool
  force : Pattern
  fault : Pattern
  safe : Pattern
  link : Pattern
deriving DecidableEq, Repr

/-- VLOG is absent: the module has no power, or its hold-up has ended and no feed is back. No lamp lights. [DEDUCED, unsafe: notes/assumptions/79.md] -/
def State.dark (s : State) : Bool := s.pwr.hold == .unpowered || s.pwr.hold == .feed

/-- The lamp test runs: 500 ms from reset release. -/
def State.lampTest (s : State) : Bool := s.phase != .reset && decide (s.pwr.rtc.toNat < s.pwr.lampTestEnd)

/-- RUN. -/
def State.lampRun (s : State) : Pattern :=
  if s.phase = Phase.reset then .off
  else if s.phase = Phase.boot ∨ s.phase = Phase.recovery ∨ s.setupPhase = true then .slow
  else if s.safe then .off
  else if s.pwr.state = PowerState.e2 ∨ s.pwr.state = PowerState.e3 ∨ (s.pairOn = true ∧ s.rd F.PAIR_STAT_ROLE ≠ 3) then .pulse
  else .steady

/-- ROLE: the codes of PAIR_STAT.ROLE are 0 Fenced, 1 Reviving, 2 Banked, 3 Active. -/
def State.lampRole (s : State) : Pattern × Bool :=
  if !s.pairOn then (.off, false)
  else match s.rd F.PAIR_STAT_ROLE with
    | 3 => (.steady, false)
    | 2 => (.steady, true)
    | 1 => (.slow, true)
    | _ => (.fast, true)

/-- FAULT. [DEDUCED, unsafe: notes/assumptions/79.md] -/
def State.lampFault (s : State) : Pattern :=
  if s.safe || s.rd F.SYS_PHASE_LOCK_ERR != 0 then .steady
  else if s.usableLanes.length == 2 || (List.range 32).any (fun n => s.safState n == sbDegraded) ||
      allIslands.any (fun i => s.link i == lnFault) then .slow
  else .off

/-- The configured car-ring, backbone and pair-link ports, each with whether it has link. -/
def State.linkPorts (s : State) : List Bool :=
  let cr := (List.range 3).flatMap (fun n => (List.range 4).filterMap (fun m =>
    if s.rd (F.CR_CFG_ROLE n) ≠ 0 ∧ s.crChan n (m / 2) = true then some (s.crLink n m) else none))
  let cb := (List.range 4).filterMap (fun q => if s.cbRole ≠ 0 ∧ s.cbChan (q / 2) = true then some (s.cbLink q) else none)
  cr ++ cb ++ (if s.pairOn then [s.on F.PAIR_STAT_LANE0, s.on F.PAIR_STAT_LANE1] else [])

/-- LINK. -/
def State.lampLink (s : State) : Pattern :=
  let ps := s.linkPorts
  if ps.all (fun x => !x) then .off else if ps.all (fun x => x) then .steady else .slow

/-- The lamps as they stand. [DESIGN CHOICE, unsafe: notes/assumptions/93.md] -/
def State.lamps (s : State) : Lamps :=
  if s.dark then ⟨.off, .off, false, .off, .off, .off, .off⟩
  else if s.lampTest then ⟨.steady, .steady, false, .steady, .steady, .steady, .steady⟩
  else
    let r := s.lampRole
    ⟨s.lampRun, r.1, r.2, if s.forceActive then .steady else .off, s.lampFault, if s.pwr.safeN then .off else .steady, s.lampLink⟩

/-- FAULT relay energised, and SAFE_N high. -/
def State.faultRelay (s : State) : Bool := s.pwr.relay
def State.safeHigh (s : State) : Bool := s.pwr.safeN

end Machine
end Sys2Proof
end

