-- ==== Sys2Proof/Machine/Tick.lean ====
section
/-!
DEFINITION. What a clock of the time base, 2 ns, brings by itself: TB_RAW, the islands' sampling instant, the RTC and the mirror link's
traffic (R87, R246, R411, R500). Everything else that time brings is a command of its own, which finds in these counts whether its instant has come.
-/

namespace Sys2Proof
namespace Machine

/-- TB_RAW counts while its clock is locked, but not in E3 (R75, R246). [DESIGN CHOICE, unsafe: notes/assumptions/1.md] -/
def State.tickRaw (s : State) : State :=
  if s.tb.locked ∧ s.pwr.state ≠ PowerState.e3 then { s with tb := { s.tb with raw := s.tb.raw + 1 } } else s

/-- The clock at which the SYNC bytes of the downlink frames under way end: every island takes its input record (R411). -/
def State.tickFld (s : State) : State :=
  if s.tb.locked ∧ s.pwr.state ≠ PowerState.e3 ∧ s.raw = s.fld.frameRaw + syncLen then s.upsStart else s

/-- The RTC counts at 32.768 kHz while the module has power: 2 ns are 32,768 parts of the 500,000,000 of one count (R87). [DESIGN CHOICE, unsafe: notes/assumptions/1.md] -/
def State.tickRtc (s : State) : State :=
  if s.pwr.hold = Hold.unpowered then s
  else
    let f := s.pwr.rtcFrac + 32768
    if f < 500000000 then { s with pwr := { s.pwr with rtcFrac := f } }
    else { s with pwr := { s.pwr with rtcFrac := f - 500000000, rtc := s.pwr.rtc + 1 } }

/-- One clock. [DESIGN CHOICE, unsafe: notes/assumptions/1.md] -/
def State.tick (s : State) : State := s.tickRaw.tickFld.tickRtc.pairTick

end Machine
end Sys2Proof
end

