-- ==== Sys2Proof/Machine/Step.lean ====
section
/-!
DEFINITION. The step: the command at the front of the queue, or a tick of the clocks on an empty queue.
-/

namespace Sys2Proof
namespace Machine

/-- The commands that wait, without the first. -/
def State.withQueue (s : State) (q : List Instr) : State := { s with pending := q }

/-- Takes the command at the front and runs it on the state with the queue's rest. With none waiting, a clock of the time base
passes. [DESIGN CHOICE, unsafe: notes/assumptions/1.md; DEDUCED, safe: notes/assumptions/80.md] -/
def step (s : State) : Host.Outcome State Fault Refusal :=
  match s.pending with
  | [] => .next s.tick
  | c :: q => exec c (s.withQueue q)

/-- The state with the command that a table word spells at the front of its queue. No row of the table has bits. -/
def State.withFetchWord (s : State) (nbits w : Nat) : State :=
  match decodeTableWord nbits w with
  | some c => s.withQueue (c :: s.pending)
  | none => s

end Machine
end Sys2Proof
end

