-- ==== Sys2Proof/WellFormed.lean ====
section
/-!
DEFINITION. The commands that can arise: what an operand's type leaves open and the spec closes. A command that is not well
formed has the meaning its arm gives all the same; no statement is about it.
-/

namespace Sys2Proof

/-- Sizes of a lane request (Table 5-1). -/
def reqSize (n : Nat) : Bool := n == 1 || n == 2 || n == 4 || n == 8 || n == 64

/-- A lane request has a size of Table 5-1. -/
def LaneReq.wellFormed (r : LaneReq) : Bool := reqSize r.size

/-- The requests that the lanes offer have sizes of Table 5-1. -/
def Offers.wellFormed (o : Offers) : Bool :=
  [o.a, o.b, o.c].all (fun x => match x.req with
    | some r => r.wellFormed
    | none => true)

/-- A cause of the safe state (Table 5-9). -/
def safeCause (n : Nat) : Bool := (decide (1 ≤ n) && decide (n ≤ 0x0B)) || n == 0xFF

/-- A wake source of Table 3-10 that latches by itself, with an INDEX of its own. -/
def wakeSource (src idx : Nat) : Bool :=
  match src with
  | 2 => idx == 0
  | 3 => idx == 15
  | 4 => idx == 0
  | 5 => decide (idx < 16)
  | 6 => decide (idx ≤ 16)
  | 7 => idx == 0
  | _ => false

/-- A frame as it passes a port has at least its two addresses and its type. -/
def frameOk (f : List Byte) : Bool := decide (14 ≤ f.length)

/-- The command can arise. -/
def Instr.wellFormed (i : Instr) : Bool :=
  match i with
  | .vlogRise .. => true
  | .feedAbsent .. => true
  | .feedPresentTimer .. => true
  | .holdupExhausted => true
  | .holdupLevelChange .. => true
  | .vhearthFault => true
  | .railFault .. => true
  | .overTemp .. => true
  | .thermalTrip .. => true
  | .lpDrawChange .. => true
  | .borLp => true
  | .resetRelease .. => true
  | .tinderBootDone => true
  | .strapSample .. => true
  | .sysReset .. => true
  | .jtagReset => true
  | .mpWdtExpiry => true
  | .mpxWdt .. => true
  | .sysBootConfirm .. => true
  | .pwrPlWrite .. => true
  | .plChangeDone => true
  | .sysClkWrite .. => true
  | .lanePllLock => true
  | .laneSrcSwitch => true
  | .wfi .. => true
  | .dzcWfi .. => true
  | .dzcWfiEmber .. => true
  | .emberDecision => true
  | .emberEntryComplete => true
  | .wakeLatch srcs => !srcs.isEmpty && srcs.all (fun x => wakeSource x.1.val x.2.val)
  | .rtcAlarm => true
  | .pwrMpwake .. => true
  | .kindleComplete .. => true
  | .votedRequest o _ _ _ _ => o.wellFormed
  | .voteMissingTimeout _ o _ => o.wellFormed
  | .setupRegWrite _ off _ => off.toNat % 4 == 0
  | .setupLockRequest .. => true
  | .setupLockChecksEnd .. => true
  | .heldSetupWriteApply => true
  | .instruction .. => true
  | .interruptTake .. => true
  | .mret .. => true
  | .csrWrite .. => true
  | .dzlSetup .. => true
  | .dzcCord .. => true
  | .dzcCfence .. => true
  | .plicClaim .. => true
  | .plicComplete .. => true
  | .mtipChange .. => true
  | .tapInstruction .. => true
  | .laneLbistEnd .. => true
  | .coldResumeDone => true
  | .safeStateEntry cause => safeCause cause.toNat
  | .laneSafe .. => true
  | .laneEccClr .. => true
  | .cordPeriodExpiry => true
  | .cordSeal .. => true
  | .rollbackRestore .. => true
  | .replayTimeout => true
  | .cordClr .. => true
  | .flueRelease .. => true
  | .fluePairNoack => true
  | .flueDestStall .. => true
  | .flueHeldEntry => true
  | .flueClr .. => true
  | .nonpostedIssue r => r.wellFormed
  | .engineSlotStart .. => true
  | .ringHalted .. => true
  | .nop .. => true
  | .handleQuery .. => true
  | .ringCtxRead => true
  | .ringCtxWrite => true
  | .evtRecordWrite => true
  | .lockAcquire .. => true
  | .lockRelease .. => true
  | .partAbandon .. => true
  | .partMonClr .. => true
  | .tbPllLost => true
  | .tbNtLatch .. => true
  | .tbCancel .. => true
  | .tbSetIncr .. => true
  | .tbSetNt .. => true
  | .tbAddOfs .. => true
  | .tbAtApply => true
  | .ptoFire .. => true
  | .ptoPulseEnd .. => true
  | .ptoSetupRearm .. => true
  | .syncInEdge => true
  | .tsqRead => true
  | .ptoArm => true
  | .crMasterRx _ _ f _ => frameOk f
  | .crMemberRx _ _ f _ => frameOk f
  | .crReturnTimeout .. => true
  | .crMemberCycleTimeout .. => true
  | .crAcycRx _ _ f _ => frameOk f
  | .crAcycForward .. => true
  | .crTxStart .. => true
  | .crTx .. => true
  | .crTxExpiry .. => true
  | .crRxPost .. => true
  | .crStatus .. => true
  | .crLinkChange .. => true
  | .crClr .. => true
  | .cbSyncRx _ f _ => frameOk f
  | .cbSyncMissed => true
  | .cbRelay _ f _ => frameOk f
  | .cbRelayBuffered .. => true
  | .cbDataRx _ f _ => frameOk f
  | .cbRawRx _ f _ => frameOk f
  | .cbImageFreeze .. => true
  | .cbWindowSend .. => true
  | .cbArbSend .. => true
  | .cbTx .. => true
  | .cbTxExpiry .. => true
  | .cbRxPost .. => true
  | .cbSchedLoad .. => true
  | .cbSchedLoadDone => true
  | .cbAnnounce .. => true
  | .cbStatus .. => true
  | .cbLinkChange .. => true
  | .cbBankDataWrite .. => true
  | .cbClr .. => true
  | .sigPublish => true
  | .sigSnapshot => true
  | .sigForce => true
  | .sigUnforce => true
  | .sigWatch => true
  | .sigWatchTimeout .. => true
  | .sigBulkLoad => true
  | .sigReindex => true
  | .sigReindexSwitch => true
  | .sigSubBuild => true
  | .sigStaleDeadline .. => true
  | .sigClr .. => true
  | .gwGroupCtl => true
  | .gwClr .. => true
  | .rbCycleStart .. => true
  | .rbCycleResponse .. => true
  | .rbCycleEnd => true
  | .rbCycleTimeout => true
  | .rbBusResetEnd => true
  | .rbRstWaitEnd => true
  | .rbBlockRead => true
  | .rbBlockWrite => true
  | .rbClr .. => true
  | .cycOverrun .. => true
  | .cycRestart => true
  | .cycStop => true
  | .cycForce => true
  | .cycStatus => true
  | .idleWindowEnd => true
  | .cycClr .. => true
  | .fldDownlinkFrame .. => true
  | .islandFrameApply .. => true
  | .fldUplinkFrame .. => true
  | .fldFrameLost .. => true
  | .islandLinkLoss .. => true
  | .diSample _ mV _ _ _ => mV.length == 16
  | .diDebounceExpiry .. => true
  | .diVsChange .. => true
  | .dioShortDetect .. => true
  | .dioThermalShutdown .. => true
  | .dioThermalCool .. => true
  | .dioRetryTimer .. => true
  | .dioExtFeed .. => true
  | .dioVdoLow .. => true
  | .dioGroupOc .. => true
  | .dioGroupTrip .. => true
  | .dioOndiagMeasure .. => true
  | .dioOffdiagCheck .. => true
  | .pwmPeriodStart .. => true
  | .pwmRampTick => true
  | .fldWrite => true
  | .fldSetFunc => true
  | .fldRearm => true
  | .fldRead => true
  | .fldLinkRestart => true
  | .fldClr .. => true
  | .aiResult _ v => decide (-8388608 ≤ v) && decide (v < 8388608)
  | .aiReadbackWindow .. => true
  | .aiOpenLoop .. => true
  | .aiCompliance .. => true
  | .aiVlpLow .. => true
  | .aiSupLimit .. => true
  | .aiParkWindow .. => true
  | .fldAiSync => true
  | .fldAiCapture => true
  | .fldFskXfer => true
  | .fskTxEnd .. => true
  | .fskCarrierDetect .. => true
  | .fskCharRx .. => true
  | .fskRxEnd .. => true
  | .fskRxTimeout .. => true
  | .fldAiSyncStatClr .. => true
  | .safEvaluation .. => true
  | .tpsPulseStart .. => true
  | .tpsPulseEnd .. => true
  | .tpCheckEnd .. => true
  | .tpsOverload .. => true
  | .safInFiltExpiry .. => true
  | .safDiscrepancy .. => true
  | .safFeedbackTimeout .. => true
  | .safDegExpiry .. => true
  | .safReset => true
  | .safStatus => true
  | .safClr .. => true
  | .pairJoin .. => true
  | .pairJoinTimeout => true
  | .pairLinkLane .. => true
  | .pairHeartbeatTx => true
  | .pairHeartbeatRx .. => true
  | .pairHbLoss => true
  | .pairPresWaitEnd => true
  | .pairTakeoverResume => true
  | .pairMirrorRx .. => true
  | .pairCloseRx .. => true
  | .pairCloseAckRx .. => true
  | .pairDiscardRx => true
  | .pairCopyRelay _ _ f _ => frameOk f
  | .pairSwitch => true
  | .pairSwitchRequestRx .. => true
  | .pairReadyRx => true
  | .pairSwitchTimeout => true
  | .pairSwitchHandoverEnd .. => true
  | .pairRevertTimer => true
  | .pairStatus => true
  | .pairClr .. => true
  | .recPeriodicSample .. => true
  | .recSampleApply => true
  | .recFlush => true
  | .recNoteCmd .. => true
  | .recExport => true
  | .recClear => true
  | .recClr .. => true
  | .istLbistSelect => true
  | .dramScrubRead => true
  | .istOffpulseEnd => true
  | .calAgeCheck => true
  | .calIslandDone .. => true
  | .mpLoadWindow .. => true
  | .mpTelemetry => true
  | .mpxL2mCmd .. => true
  | .mpxM2lCmd .. => true
  | .maFrameRx _ f => frameOk f
  | .ident .. => true
  | .readReg _ off _ => off.toNat % 4 == 0
  | .notes .. => true
  | .maintRecExport .. => true
  | .unlockReq .. => true
  | .unlock _ _ pub sig => pub.length == 64 && sig.length == 64
  | .unlockExpiry => true
  | .readMem .. => true
  | .writeReg _ off _ => off.toNat % 4 == 0
  | .maintRecClear .. => true
  | .fwWrite .. => true
  | .fwTrial .. => true
  | .debugEn .. => true
  | .maintReset .. => true
  | .consoleCommand .. => true
  | .istClr .. => true
  | .imgLoadStart .. => true
  | .imgLoadEnd => true
  | .energyDetect .. => true
  | .vsSafLow .. => true
  | .otWarnRearm .. => true
  | .txFrameEnd .. => true

end Sys2Proof
end

