-- ==== Sys2Proof/Safety.lean ====
section
/-!
DEFINITION. What claims call a good state and a safe run.
-/

namespace Sys2Proof
namespace Machine

/-- Memory and the setup registers are in canonical form: keys strictly rise, and no byte 0 and no register at its reset value
is listed. -/
def State.canonical (s : State) : Bool := Memory.wf s.mem && Sparse.wf regReset s.regs

/-- The outputs that tell the vehicle of the safe state: FAULT relay de-energised and SAFE_N low (R43, R136). -/
def State.outputsSafe (s : State) : Bool := !s.pwr.relay && !s.pwr.safeN

/-- The state of an outcome, where it has one. -/
def nextOf (o : Host.Outcome State Fault Refusal) : Option State :=
  match o with
  | .next s => some s
  | .fault _ => none
  | .refused _ => none

/-- A run of k steps that neither faults nor is refused. -/
def safeRun (k : Nat) (s : State) : Bool := (nextOf (Sys2Proof.core.run k s)).isSome

/-! ## Frames -/

/-- Two register fields share no bit. -/
def Fld.apart (f g : Fld) : Prop := f.off ≠ g.off ∨ f.lo + f.w ≤ g.lo ∨ g.lo + g.w ≤ f.lo

/-- Every field of a setup register that shares no bit with a named field reads in t as in s: of all the setup registers only
the named fields may differ. -/
def onlyFlds (fs : List Fld) (s t : State) : Prop :=
  ∀ g : Fld, g.lo + g.w ≤ 32 → (∀ f ∈ fs, Fld.apart f g) → t.rd g = s.rd g

/-- Every setup register but those at the named offsets reads in t as in s. -/
def onlyRegs (os : List Nat) (s t : State) : Prop := ∀ o, o ∉ os → t.reg o = s.reg o

/-- Every byte of memory reads in t as in s. -/
def sameMem (s t : State) : Prop := ∀ a, t.byte a = s.byte a

/-- Every byte of memory outside the n bytes at a reads in t as in s. -/
def sameMemBut (a n : Nat) (s t : State) : Prop := ∀ x, x < a ∨ a + n ≤ x → t.byte x = s.byte x

/-- t has queued the events of a list after those of s, each with the NT of s, and changed nothing else of the EVT block. -/
def raised (l : List (Nat × List Word)) (s t : State) : Prop :=
  t.evt = { s.evt with queue := s.evt.queue ++ l.map (fun x => ⟨x.1, x.2, BitVec.ofNat 64 s.ntNs, none⟩) }

/-- The field of an interrupt request of the MP. -/
def mpIrqFld (n : Nat) : Fld := ⟨Reg.MPX_IRQ_PEND, n, 1⟩

/-- The lane complex and its surroundings are as they were: phase, harts, PLIC, time base, and the hearth domain's state; or the safe
state has turned off the FAULT relay and SAFE_N and ended an Ember entry under way. -/
def sameCore (s t : State) : Prop :=
  t.phase = s.phase ∧ t.harts = s.harts ∧ t.plic = s.plic ∧ t.tb = s.tb ∧
    (t.pwr = s.pwr ∨ t.pwr = { s.pwr with state := s.pwr.state.halted, relay := false, safeN := false })

/-- What a reset with a cause leaves of a state that was not in reset (R69, Table 3-3a, R592): the cause and its STICKY bit, the
part's own identity and the measured fields, the fuses, MRAM and boot flash stay; DRAM and the RTC stay where the cause leaves them; everything else is
as State.reset has it. -/
def resetFrom (c : ResetCause) (rail : Nat) (s t : State) : Prop :=
  t.rd F.SYS_RSTCAUSE_LAST = c.code ∧ t.rd F.SYS_RSTCAUSE_RAIL_ID = rail ∧
  t.rd F.SYS_RSTCAUSE_STICKY = (if c = ResetCause.por then 1 else s.rd F.SYS_RSTCAUSE_STICKY ||| 2 ^ c.code) ∧
  (∀ f ∈ [F.SYS_ID_TEMP_T, F.SYS_ID_VARIANT, F.SYS_STEP_SOC_STEP, F.SYS_STEP_ISL_STEP, F.PWR_STAT_FEED_A, F.PWR_STAT_FEED_B,
    F.PWR_STAT_PF, F.PWR_STAT_HU_OK, F.PWR_STAT_VLOG, F.PWR_STAT_DIE_TEMP], t.rd f = s.rd f) ∧
  onlyFlds [F.SYS_RSTCAUSE_LAST, F.SYS_RSTCAUSE_RAIL_ID, F.SYS_RSTCAUSE_STICKY, F.SYS_ID_TEMP_T, F.SYS_ID_VARIANT,
    F.SYS_STEP_SOC_STEP, F.SYS_STEP_ISL_STEP, F.PWR_STAT_FEED_A, F.PWR_STAT_FEED_B, F.PWR_STAT_PF, F.PWR_STAT_HU_OK,
    F.PWR_STAT_VLOG, F.PWR_STAT_DIE_TEMP] State.reset t ∧
  (∀ a, t.byte a = if a < 0x1000000000 ∨ dramLost c rail = false then s.byte a else 0) ∧
  t.ecc = (if dramLost c rail then [] else s.ecc) ∧
  t.pwr = { Power.start with
    hold := holdOf c
    rtc := if c = ResetCause.por ∨ c = ResetCause.vlogFail then 0 else s.pwr.rtc
    rtcFrac := if c = ResetCause.por ∨ c = ResetCause.vlogFail then 0 else s.pwr.rtcFrac
    fuseKeys := s.pwr.fuseKeys
    fuseRevoked := s.pwr.fuseRevoked
    fuseSvn := s.pwr.fuseSvn
    fuseImgSig := s.pwr.fuseImgSig } ∧
  t = { State.reset with
    pending := s.pending, regs := t.regs, mem := t.mem, ecc := t.ecc, pwr := t.pwr, freeCtr := s.freeCtr }

/-- What the entry to the safe state leaves (R136, Table 5-8): its cause, the outputs that tell of it, the lanes stopped, the
Flue empty, networks, field links, rack bus and rings stopped, source 6 raised first, the request to the MP. Of memory it
writes the recorder's area only. -/
def safeFrom (cause : Nat) (s t : State) : Prop :=
  t.rd F.LANE_STAT_SAFE = 1 ∧ t.rd F.LANE_SAFECAUSE_CAUSE = cause ∧ t.outputsSafe = true ∧ t.lanes.on = false ∧
  t.flue.recs = [] ∧ t.flue.shut = true ∧ (s.flue.recs.length < 4096 → t.rd F.FLUE_SAFEDISC_COUNT = s.flue.recs.length) ∧
  (∀ n < 3, t.rd (F.CR_STATE_STATE n) = 0) ∧ t.rd F.CB_STAT_STATE = 0 ∧ (∀ i ∈ allIslands, t.link i = lnOff) ∧
  t.rd F.RB_STAT_RST = 1 ∧ t.rack.cycle = none ∧ t.rings.hand = [] ∧ t.ports.now = [] ∧ t.pair.out = [] ∧
  t.rd (mpIrqFld 7) = 1 ∧ (t.evt.queue.drop s.evt.queue.length).head? = some ⟨6, [], BitVec.ofNat 64 s.ntNs, none⟩ ∧
  (∀ a, a < 0x60100000 ∨ 0x60400000 ≤ a → t.byte a = s.byte a) ∧ sameCore s t

/-! ## Time base -/

/-- A command on network time has taken effect at the apply clock r: the conversion it gives, the one before kept for later stamps,
TB_APPLY_RAW and the event; nothing else changed (R253, R254, R263). -/
def tbApplied (op r : Nat) (ofs : BitVec 104) (incr : BitVec 48) (s t : State) : Prop :=
  t.tb.ofs = ofs ∧ t.tb.incr = incr ∧ t.tb.past.head? = some (r, s.tb.ofs, s.tb.incr) ∧
  (∀ x ∈ t.tb.past.tail, x ∈ s.tb.past) ∧ t.rd64 Reg.TB_APPLY_RAW_LO Reg.TB_APPLY_RAW_HI = r ∧
  raised [(192, [BitVec.ofNat 32 op, BitVec.ofNat 32 r, BitVec.ofNat 32 (r / 2 ^ 32)])] { s with tb := t.tb } t ∧
  t = { s with regs := t.regs, evt := t.evt, tb := { s.tb with ofs := ofs, incr := incr, past := t.tb.past } } ∧
  onlyRegs [Reg.TB_APPLY_RAW_LO, Reg.TB_APPLY_RAW_HI] s t

/-- A command on network time is refused with a code: the code, the event, and nothing else (R254). -/
def tbRefused (op code : Nat) (s t : State) : Prop :=
  t.rd F.TB_STAT_CMD_ERR = 1 ∧ t.rd F.TB_STAT_ERR_CODE = code ∧ raised [(193, [BitVec.ofNat 32 (code + 16 * op)])] s t ∧
  t = { s with regs := t.regs, evt := t.evt } ∧ onlyFlds [F.TB_STAT_CMD_ERR, F.TB_STAT_ERR_CODE] s t

/-! ## Harts -/

/-- Hart h executes its next instruction: it runs, no interrupt comes first, no access of it has ended, no debugger has asked it
to halt or to run one step, and no logged source change waits to apply. -/
abbrev hartFree (h : HartId) (s : State) : Prop :=
  s.canRun h = true ∧ s.irqFirst h = false ∧ s.hasReady h = false ∧ s.lanes.dbg.asked.contains h.val = false ∧
    s.stepping h = false ∧ s.cord.replay = []

/-- The instruction word w is in the hand of hart h, and h executes it now. -/
abbrev holdsWord (h : HartId) (w : Word) (s : State) : Prop := hartFree h s ∧ s.lanes.fetched = [(h.val, w)]

/-- Hart x after an instruction of n bytes that transfers to an address (R113). -/
def jumped (x : Hart) (n : Nat) (tgt : DWord) : Hart :=
  { x with
    pc := tgt
    lpCount := if x.pc + BitVec.ofNat 64 n = x.lpend ∧ x.lpCount ≠ 0 ∧ x.priv = x.lpMode then x.lpCount - 1 else x.lpCount
    minstret := if x.mcountinhibit.getLsbD 2 = true then x.minstret else x.minstret + 1
    insts := x.insts + 1
    wait := .run }

/-- Hart x after an instruction of n bytes that transfers nowhere: at the next instruction, or at the start of its loop where
the loop has iterations left (R113). -/
def passed (x : Hart) (n : Nat) : Hart :=
  jumped x n (if x.pc + BitVec.ofNat 64 n = x.lpend ∧ 1 < x.lpCount.toNat ∧ x.priv = x.lpMode then x.lpstart
    else x.pc + BitVec.ofNat 64 n)

/-- Hart x after a trap into M-mode, its loop state as it was (R107, R108, R115). -/
def trapped (x : Hart) (cause : Nat) (tval tgt : DWord) : Hart :=
  { x with
    mepc := x.pc &&& ~~~ 1#64, mcause := BitVec.ofNat 64 cause, mtval := tval, mpie := x.mie, mie := false, mpp := x.priv,
    priv := .machine, pc := tgt, wait := .run }

/-- Of the state only hart h and the word in its hand changed, which it has used up. -/
def onlyHart (h : HartId) (s t : State) : Prop :=
  t = { s with harts := s.harts.set h (t.hart h), lanes := { s.lanes with fetched := [] } }

/-- The MP executes its next instruction, the word w: it runs firmware, waits in no WFI, no interrupt comes first, and the fetch gives
w without a change. -/
abbrev mpHolds (w : Nat) (s : State) : Prop :=
  s.mp.core.on = true ∧ s.mp.core.waits = false ∧ s.mpIrqOf = none ∧ s.mpFetch.1 = MpResp.data w ∧ s.mpFetch.2.2 = s

/-- The hart of the MP after an instruction that goes on at an address. -/
def mpGone (m : MpCore) (pc : Word) : MpCore :=
  { m with pc := pc, minstret := if m.mcountinhibit.getLsbD 2 = true then m.minstret else m.minstret + 1 }

/-- The hart of the MP after a trap with a cause (R97). -/
def mpTrapped (m : MpCore) (cause : Nat) (tval tgt : Word) : MpCore :=
  { m with mepc := m.pc &&& ~~~ 1#32, mcause := BitVec.ofNat 32 cause, mtval := tval, mpie := m.mie, mie := false, pc := tgt, waits := false }

/-- Of the state only the hart of the MP changed. -/
def onlyMp (s t : State) : Prop := t = { s with mp := { s.mp with core := t.mp.core } }

/-! ## Commands of the rings -/

/-- Engine e has a descriptor with an opcode in its hand, the engines run, and no rollback holds the command's accesses (R157). -/
abbrev inHand (e op : Nat) (c : Cmd) (s : State) : Prop :=
  s.hand e = some c ∧ c.opcode = op ∧ s.running = true ∧ s.cmdHeld c = false

/-- The eight words of a completion record (Table 8-5): status, OPCODE, PHASE and FINAL; handle; TAG and detail; NT_LO; results. -/
def recordWords (c : Cmd) (status : Nat) (fin : Bool) (phase detail : Nat) (nt : Word) (res : List Word) : List Word :=
  [BitVec.ofNat 32 (status + 256 * c.opcode + 65536 * phase + 131072 * b2n fin), BitVec.ofNat 32 (c.ring.toNat * 131072 + c.pos.toNat),
    BitVec.ofNat 32 (c.tag + 65536 * detail), nt, res.getD 0 0, res.getD 1 0, res.getD 2 0, res.getD 3 0]

/-- The events of a completion record (R218). -/
def recordRaises (c : Cmd) (status : Nat) (fin : Bool) (nt : DWord) : List Raise :=
  (if status = 0x20 ∨ status = 0x21 then
    [⟨67, [BitVec.ofNat 32 (c.ring.toNat + 65536 * status), BitVec.ofNat 32 c.handle], nt, some c.ring⟩] else []) ++
  (if status = 0xFF then [⟨68, [BitVec.ofNat 32 c.ring.toNat, BitVec.ofNat 32 c.handle], nt, some c.ring⟩] else []) ++
  (if fin = true ∧ (c.word 0).testBit 8 = true then
    [⟨64, [BitVec.ofNat 32 (c.ring.toNat + 65536 * status), BitVec.ofNat 32 c.handle], nt, some c.ring⟩] else [])

/-- A completion record stands in the next completion slot of its command's ring, and nothing else of memory changed (R204,
R205). -/
def recordStands (c : Cmd) (status : Nat) (fin : Bool) (detail : Nat) (res : List Word) (s t : State) : Prop :=
  let x := s.ctx c.ring
  let a := x.cqBase.toNat * 4096 + 32 * (x.cqTail.toNat % x.cqEntries)
  t.words a 8 = recordWords c status fin (if x.cqTail.toNat / x.cqEntries % 2 = 0 then 1 else 0) detail (BitVec.ofNat 32 s.ntNs) res ∧
    sameMemBut a 32 s t ∧ t.evt.queue = s.evt.queue ++ recordRaises c status fin (BitVec.ofNat 64 s.ntNs)

/-! ## Networks -/

/-- A saturating count has gone up by one. -/
def counted (f : Fld) (s t : State) : Prop := t.rd f = min (s.rd f + 1) (2 ^ f.w - 1)

/-- No station of the cycle engine is judged. -/
abbrev noStations (s : State) : Prop := ∀ k ∈ allStations, s.rd (F.CYC_STN_EN k) = 0

/-- Every byte under an entry of the undo log reads as the oldest entry of its line has it; the others read as before (R149,
R157). -/
def restored (s t : State) : Prop :=
  ∀ a, t.byte a = (match s.cord.undo.reverse.find? (fun e => decide (e.line ≤ a) && decide (a < e.line + 64)) with
    | some e => e.old.getD (a - e.line) 0
    | none => s.byte a)

/-- A set bit of a word written to a clear register clears the fields of its list, and of all the state nothing else changes.
The entries give the bit and its fields. -/
def clears (w : Word) (l : List (Nat × List Fld)) (s t : State) : Prop :=
  (∀ x ∈ l, w.getLsbD x.1 = true → ∀ f ∈ x.2, t.rd f = 0) ∧ t = { s with regs := t.regs } ∧
    onlyFlds ((l.filter (fun x => w.getLsbD x.1)).flatMap (fun x => x.2)) s t

/-- Of all the state only one island, input stage, high-side channel, current-loop channel or safety block channel differs. -/
abbrev onlyIsl (i : Nat) (s t : State) : Prop := t = s.setIsl i (t.isl i)
abbrev onlyIn (i j : Nat) (s t : State) : Prop := t = s.setIn i j (t.inCh i j)
abbrev onlyDio (g j : Nat) (s t : State) : Prop := t = s.setDio g j (t.dio g j)
abbrev onlyAi (c : Nat) (s t : State) : Prop := t = s.setAi c (t.ai c)
abbrev onlyTps (k : Nat) (s t : State) : Prop := t = s.setTps k (t.tps k)
abbrev onlySafCh (n x : Nat) (s t : State) : Prop := t = s.setSafCh n x (t.safCh n x)

/-- Safety block n has tripped with a cause, with no escalation to the safe state (R475, Table 18-2). -/
def blockTripped (n cause : Nat) (s t : State) : Prop :=
  t.safState n = 4 ∧ t.rd (F.SAF_BSTAT_CAUSE n) = cause ∧ t.rd (F.SAF_BSTAT_PERMIT1 n) = 0 ∧ t.rd (F.SAF_BSTAT_PERMIT2 n) = 0 ∧
  t.rd (F.SAF_BSTAT_DEG_LEFT n) = 0 ∧ t.safBlk n = ⟨none, 0⟩ ∧ t.rd F.SAF_STAT_TRIPPED = 1 ∧
  t = { s with regs := t.regs, evt := t.evt, saf := t.saf }

/-! ## Notes -/

/-- The 64 bytes of a note with its SEQ, KIND, words and NT (Table 20-6). -/
def noteBytes (seq : Word) (kind : Nat) (ws : List Word) (nt : Nat) : List Byte :=
  let b := leBytes 4 seq.toNat ++ leBytes 4 (kind + 256 * ws.length) ++ leBytes 8 nt ++ wordBytes ws ++ zeros (40 - 4 * ws.length)
  b ++ leBytes 4 (crc32c b).toNat ++ leBytes 4 0x4E4F5445

/-- A note stands in the slot of its SEQ, NEXT shows the slot, and nothing else of memory and of the recorder changed (R529). -/
def noted (kind : Nat) (ws : List Word) (s t : State) : Prop :=
  let i := s.recd.noteSeq.toNat % 128
  t.bytes (0x60102000 + 64 * i) 64 = noteBytes s.recd.noteSeq kind ws s.ntNs ∧ sameMemBut (0x60102000 + 64 * i) 64 s t ∧
    t.recd = { s.recd with noteSeq := s.recd.noteSeq + 1 } ∧ t.rd F.REC_NOTE_STAT_NEXT = i

/-! ## Maintenance protocol -/

/-- A request of an operation with `len` payload bytes that the module performs: it serves requests, this one is meant for its port,
has the right header, and is no repetition (R551, R553). -/
abbrev asked (q : MaintReq) (op len : Nat) (s : State) : Prop :=
  s.mpServes = true ∧ (s.phase ≠ Phase.recovery ∨ inRecovery op = true) ∧ s.sentBefore q = none ∧ q.dst = s.maintAddr q.port ∧
    q.magic = 0x444D ∧ q.ver = 1 ∧ q.op = op ∧ q.len = len

/-- A request has a header of the protocol and is meant for its port (R551). -/
abbrev headed (q : MaintReq) (s : State) : Prop :=
  s.mpServes = true ∧ q.magic = 0x444D ∧ q.ver = 1 ∧ q.dst = s.maintAddr q.port

/-- The request, the operation and the payload length of a row of the maintenance protocol (Table 21-8). -/
def maintRow : Instr → Option (MaintReq × Nat × Nat)
  | .ident q => some (q, 0x01, 0)
  | .readReg q _ _ => some (q, 0x02, 8)
  | .notes q _ => some (q, 0x03, 4)
  | .maintRecExport q _ _ => some (q, 0x04, 8)
  | .unlockReq q => some (q, 0x10, 0)
  | .unlock q _ _ _ => some (q, 0x11, 132)
  | .readMem q _ _ => some (q, 0x20, 12)
  | .writeReg q _ _ => some (q, 0x21, 8)
  | .maintRecClear q _ _ => some (q, 0x22, 8)
  | .fwWrite q _ _ bs => some (q, 0x23, 8 + bs.length)
  | .fwTrial q _ => some (q, 0x24, 4)
  | .debugEn q _ => some (q, 0x25, 4)
  | .maintReset q => some (q, 0x26, 0)
  | _ => none

/-- The 12 bytes of a reply's header (Table 21-7): MAGIC, VER, OP, SEQ, LEN, STATUS, 0, big-endian. -/
def replyHead (op : Nat) (seq : Word) (len status : Nat) : List Byte :=
  [0x44, 0x4D, 0x01, BitVec.ofNat 8 op, BitVec.ofNat 8 (seq.toNat / 2 ^ 24), BitVec.ofNat 8 (seq.toNat / 2 ^ 16),
    BitVec.ofNat 8 (seq.toNat / 2 ^ 8), BitVec.ofNat 8 seq.toNat, BitVec.ofNat 8 (len / 2 ^ 8), BitVec.ofNat 8 len,
    BitVec.ofNat 8 status, 0]

/-- The reply to a request, its words big-endian and then its bytes, stands first among the replies of the last second (R551), and
the port's interrupt request is set. -/
def replied (q : MaintReq) (op status : Nat) (ws : List Word) (bs : List Byte) (s t : State) : Prop :=
  t.mp.replies = ⟨q.port, q.ip, q.udp, q.seq, s.pwr.rtc.toNat,
      replyHead op q.seq (4 * ws.length + bs.length) status ++ ws.flatMap (fun w => beBytes 4 w.toNat) ++ bs⟩ ::
      s.mp.replies.filter (fun y => decide (s.rtcSince y.rtc ≤ 32768)) ∧
    t.rd (mpIrqFld (2 + q.port.val)) = 1

/-- A request changed nothing but the replies and its port's interrupt request. -/
def onlyReply (q : MaintReq) (s t : State) : Prop :=
  t = { s with regs := t.regs, mp := { s.mp with replies := t.mp.replies } } ∧ onlyFlds [mpIrqFld (2 + q.port.val)] s t

/-- What an unlocked operation does before its own effect (R552): the interrupt request of its port, the time of the last unlocked
request, its MAINT note and MP_MAINT_WRITE. -/
def unlockedCall (q : MaintReq) (op : Nat) (addr : Word) (s : State) : State :=
  let v := s.wr (mpIrqFld (2 + q.port.val)) 1
  let v := { v with mp := { v.mp with lastUnlocked := v.pwr.rtc.toNat } }
  (v.recNoteWrite 8 [BitVec.ofNat 32 op, q.ip, addr]).raise 465 [BitVec.ofNat 32 op]

/-- The requester, register and word of a command that writes one setup register. -/
def regWrite : Instr → Option (Requester × Nat × Word)
  | .mpxWdt who w => some (who, Reg.MPX_WDT, w)
  | .sysBootConfirm who w => some (who, Reg.SYS_BOOT, w)
  | .pwrPlWrite who w => some (who, Reg.PWR_PL, w)
  | .sysClkWrite who w => some (who, Reg.SYS_CLK, w)
  | .pwrMpwake who w => some (who, Reg.PWR_MPWAKE, w)
  | .sysReset who w => some (who, Reg.SYS_RESET, w)
  | .laneSafe who w => some (who, Reg.LANE_SAFE, w)
  | .laneEccClr who w => some (who, Reg.LANE_ECC, w)
  | .cordClr who w => some (who, Reg.CORD_CLR, w)
  | .flueClr who w => some (who, Reg.FLUE_CLR, w)
  | .partAbandon who w => some (who, Reg.PART_ABANDON, w)
  | .partMonClr who w => some (who, Reg.PART_MON_CLR, w)
  | .cbBankDataWrite who w => some (who, Reg.CB_BANK_DATA, w)
  | .cbClr who w => some (who, Reg.CB_CLR, w)
  | .sigClr who w => some (who, Reg.SIG_CLR, w)
  | .gwClr who w => some (who, Reg.GW_CLR, w)
  | .rbClr who w => some (who, Reg.RB_CLR, w)
  | .cycClr who w => some (who, Reg.CYC_CLR, w)
  | .fldClr who w => some (who, Reg.FLD_CLR, w)
  | .fldAiSyncStatClr who w => some (who, Reg.FLD_AI_SYNC_STAT, w)
  | .safClr who w => some (who, Reg.SAF_CLR, w)
  | .pairJoin who w => some (who, Reg.PAIR_JOIN, w)
  | .pairClr who w => some (who, Reg.PAIR_CLR, w)
  | .recNoteCmd who w => some (who, Reg.REC_NOTE_CMD, w)
  | .recClr who w => some (who, Reg.REC_CLR, w)
  | .mpxL2mCmd who w => some (who, Reg.MPX_L2M_CMD, w)
  | .mpxM2lCmd who w => some (who, Reg.MPX_M2L_CMD, w)
  | .istClr who w => some (who, Reg.IST_CLR, w)
  | .crClr n who w => some (who, Reg.CR_CLR n.val, w)
  | .lockRelease who n w => some (who, Reg.LOCK n.val, w)
  | .tbCancel who => some (who, Reg.TB_CMD, 0)
  | .tbSetIncr who at_ => some (who, Reg.TB_CMD, tbCmdWord 1 at_)
  | .tbSetNt who at_ => some (who, Reg.TB_CMD, tbCmdWord 2 at_)
  | .tbAddOfs who at_ => some (who, Reg.TB_CMD, tbCmdWord 3 at_)
  | _ => none

/-- Commands of the networks, the field, the rings, the cycle engine, the recorder and the other blocks beside the lane complex.
The rest are the commands that act on harts, the PLIC, the phase, power and reset or the time base: what a lane executes, what
the voter and the Cord engine do, the setup-register writes, and what a pair takes over. -/
def blockCmd : Instr → Bool
  | .vlogRise .. | .feedPresentTimer .. | .holdupExhausted | .vhearthFault | .railFault .. | .overTemp .. | .thermalTrip
    .. | .lpDrawChange .. | .borLp | .resetRelease .. | .tinderBootDone | .sysReset .. | .jtagReset | .mpWdtExpiry |
    .sysBootConfirm .. | .pwrPlWrite .. | .plChangeDone | .sysClkWrite .. | .laneSrcSwitch | .wfi .. | .dzcWfi .. |
    .dzcWfiEmber .. | .emberDecision | .emberEntryComplete | .wakeLatch .. | .rtcAlarm | .pwrMpwake .. | .kindleComplete
    .. | .votedRequest .. | .voteMissingTimeout .. | .setupRegWrite .. | .setupLockRequest .. | .setupLockChecksEnd .. |
    .heldSetupWriteApply | .instruction .. | .interruptTake .. | .mret .. | .csrWrite .. | .dzlSetup .. | .dzcCord .. |
    .dzcCfence .. | .plicClaim .. | .plicComplete .. | .mtipChange .. | .tapInstruction .. | .coldResumeDone | .cordSeal
    .. | .rollbackRestore .. | .flueRelease .. | .flueHeldEntry | .nonpostedIssue .. | .evtRecordWrite | .tbNtLatch .. |
    .tbCancel .. | .tbSetIncr .. | .tbSetNt .. | .tbAddOfs .. | .tbAtApply | .ptoFire .. | .ptoSetupRearm .. | .syncInEdge
    | .tsqRead | .ptoArm | .crTxStart .. | .cbWindowSend .. | .cbArbSend .. | .diSample .. | .diDebounceExpiry .. |
    .pairHeartbeatRx .. | .pairHbLoss | .pairPresWaitEnd | .pairTakeoverResume | .pairMirrorRx .. | .pairCloseRx .. |
    .readReg .. | .writeReg .. | .maintReset .. | .imgLoadEnd | .energyDetect .. | .otWarnRearm .. => false
  | .feedAbsent .. | .holdupLevelChange .. | .strapSample .. | .mpxWdt .. | .lanePllLock | .laneLbistEnd .. |
    .safeStateEntry .. | .laneSafe .. | .laneEccClr .. | .cordPeriodExpiry | .replayTimeout | .cordClr .. | .fluePairNoack
    | .flueDestStall .. | .flueClr .. | .engineSlotStart .. | .ringHalted .. | .nop .. | .handleQuery .. | .ringCtxRead |
    .ringCtxWrite | .lockAcquire .. | .lockRelease .. | .partAbandon .. | .partMonClr .. | .tbPllLost | .ptoPulseEnd .. |
    .crMasterRx .. | .crMemberRx .. | .crReturnTimeout .. | .crMemberCycleTimeout .. | .crAcycRx .. | .crAcycForward .. |
    .crTx .. | .crTxExpiry .. | .crRxPost .. | .crStatus .. | .crLinkChange .. | .crClr .. | .cbSyncRx .. | .cbSyncMissed
    | .cbRelay .. | .cbRelayBuffered .. | .cbDataRx .. | .cbRawRx .. | .cbImageFreeze .. | .cbTx .. | .cbTxExpiry .. |
    .cbRxPost .. | .cbSchedLoad .. | .cbSchedLoadDone | .cbAnnounce .. | .cbStatus .. | .cbLinkChange .. |
    .cbBankDataWrite .. | .cbClr .. | .sigPublish | .sigSnapshot | .sigForce | .sigUnforce | .sigWatch | .sigWatchTimeout
    .. | .sigBulkLoad | .sigReindex | .sigReindexSwitch | .sigSubBuild | .sigStaleDeadline .. | .sigClr .. | .gwGroupCtl |
    .gwClr .. | .rbCycleStart .. | .rbCycleResponse .. | .rbCycleEnd | .rbCycleTimeout | .rbBusResetEnd | .rbRstWaitEnd |
    .rbBlockRead | .rbBlockWrite | .rbClr .. | .cycOverrun .. | .cycRestart | .cycStop | .cycForce | .cycStatus |
    .idleWindowEnd | .cycClr .. | .fldDownlinkFrame .. | .islandFrameApply .. | .fldUplinkFrame .. | .fldFrameLost .. |
    .islandLinkLoss .. | .diVsChange .. | .dioShortDetect .. | .dioThermalShutdown .. | .dioThermalCool .. |
    .dioRetryTimer .. | .dioExtFeed .. | .dioVdoLow .. | .dioGroupOc .. | .dioGroupTrip .. | .dioOndiagMeasure .. |
    .dioOffdiagCheck .. | .pwmPeriodStart .. | .pwmRampTick | .fldWrite | .fldSetFunc | .fldRearm | .fldRead |
    .fldLinkRestart | .fldClr .. | .aiResult .. | .aiReadbackWindow .. | .aiOpenLoop .. | .aiCompliance .. | .aiVlpLow ..
    | .aiSupLimit .. | .aiParkWindow .. | .fldAiSync | .fldAiCapture | .fldFskXfer | .fskTxEnd .. | .fskCarrierDetect .. |
    .fskCharRx .. | .fskRxEnd .. | .fskRxTimeout .. | .fldAiSyncStatClr .. | .safEvaluation .. | .tpsPulseStart .. |
    .tpsPulseEnd .. | .tpCheckEnd .. | .tpsOverload .. | .safInFiltExpiry .. | .safDiscrepancy .. | .safFeedbackTimeout ..
    | .safDegExpiry .. | .safReset | .safStatus | .safClr .. | .pairJoin .. | .pairJoinTimeout | .pairLinkLane .. |
    .pairHeartbeatTx | .pairCloseAckRx .. | .pairDiscardRx | .pairCopyRelay .. | .pairSwitch | .pairSwitchRequestRx .. |
    .pairReadyRx | .pairSwitchTimeout | .pairSwitchHandoverEnd .. | .pairRevertTimer | .pairStatus | .pairClr .. |
    .recPeriodicSample .. | .recSampleApply | .recFlush | .recNoteCmd .. | .recExport | .recClear | .recClr .. |
    .istLbistSelect | .dramScrubRead | .istOffpulseEnd | .calAgeCheck | .calIslandDone .. | .mpLoadWindow .. |
    .mpTelemetry | .mpxL2mCmd .. | .mpxM2lCmd .. | .maFrameRx .. | .ident .. | .notes .. | .maintRecExport .. | .unlockReq
    .. | .unlock .. | .unlockExpiry | .readMem .. | .maintRecClear .. | .fwWrite .. | .fwTrial .. | .debugEn .. |
    .consoleCommand .. | .istClr .. | .imgLoadStart .. | .vsSafLow .. | .txFrameEnd .. => true

end Machine
end Sys2Proof
end

