-- ==== Sys2Proof/Certificates/Slice0/Obligations.lean ====
section
/-!
DEFINITION. The obligations. Each says for every state and operands what commands do: that exec answers a next state, what
that state holds, and what stays as it was. A clause that ends in t = s says that an event that comes before its instant or
without its condition changes nothing: the model's choice, notes/assumptions/2.md.
-/

open Sys2Proof Sys2Proof.Machine

/-- Supply feeds (R64, R65, R66): the rise of the first feed on an unpowered module; a feed that falls, with the other one present or not,
outside reset and in it; a feed that is present again; and the level of the hold-up bus. Each form sets exactly the fields the rules name
and raises the feed-change and power-fail events, and reports that say nothing new change nothing. A clause that ends in t = s (an event
before its instant or without its condition changes nothing) is the model's choice, notes/assumptions/2.md. Where the clauses meet what
notes/assumptions/26.md records, they say the model's choice. -/
def Obligations.FeedsAreReported : Prop :=
  (∀ (f : Feed) (vlog : Byte) (s : State), s.phase = Phase.reset → s.pwr.hold = Hold.unpowered → 84 ≤ vlog.toNat →
    ∃ t, exec (.vlogRise f vlog) s = .next t ∧ t.rd (feedFld f) = 1 ∧ t.rd F.PWR_STAT_VLOG = vlog.toNat ∧ t.rd F.PWR_STAT_PF = 0 ∧
      t.rd F.SYS_RSTCAUSE_LAST = 0 ∧ t.rd F.SYS_RSTCAUSE_STICKY = 1 ∧
      t = { s with regs := t.regs, pwr := { s.pwr with hold := .none, rtc := 0, rtcFrac := 0 } } ∧
      onlyFlds [feedFld f, F.PWR_STAT_VLOG, F.PWR_STAT_PF, F.SYS_RSTCAUSE_LAST, F.SYS_RSTCAUSE_STICKY] s t) ∧
  (∀ (f g : Feed) (vlog : Byte) (s : State), f ≠ g → s.phase ≠ Phase.reset → s.rd (feedFld f) = 1 → s.rd (feedFld g) = 1 →
    ∃ t, exec (.feedAbsent f vlog) s = .next t ∧ t.rd (feedFld f) = 0 ∧ t.rd F.PWR_STAT_VLOG = vlog.toNat ∧
      t.rd F.PWR_STAT_PF = 0 ∧ t.rd F.PWR_STAT_FEED_CHG = 1 ∧ t.rd (mpIrqFld 6) = 1 ∧ raised [(480, [t.reg Reg.PWR_STAT])] s t ∧
      t = { s with regs := t.regs, evt := t.evt } ∧
      onlyFlds [feedFld f, F.PWR_STAT_VLOG, F.PWR_STAT_PF, F.PWR_STAT_FEED_CHG, mpIrqFld 6] s t) ∧
  (∀ (f g : Feed) (vlog : Byte) (s : State), f ≠ g → s.phase ≠ Phase.reset → s.rd (feedFld f) = 1 → s.rd (feedFld g) = 0 →
    ∃ t v, exec (.feedAbsent f vlog) s = .next t ∧ v = { s with regs := t.regs, evt := t.evt } ∧ t = State.recFlush v ∧
      t.rd (feedFld f) = 0 ∧ t.rd F.PWR_STAT_VLOG = vlog.toNat ∧ t.rd F.PWR_STAT_PF = 1 ∧ t.rd F.PWR_STAT_FEED_CHG = 1 ∧
      t.rd (mpIrqFld 6) = 1 ∧ raised [(480, [t.reg Reg.PWR_STAT]), (481, [t.reg Reg.PWR_STAT])] s t ∧
      onlyFlds [feedFld f, F.PWR_STAT_VLOG, F.PWR_STAT_PF, F.PWR_STAT_FEED_CHG, mpIrqFld 6] s t) ∧
  (∀ (f g : Feed) (vlog : Byte) (s : State), f ≠ g → s.phase = Phase.reset → s.rd (feedFld f) = 1 →
    ∃ t, exec (.feedAbsent f vlog) s = .next t ∧ t.rd (feedFld f) = 0 ∧ t.rd F.PWR_STAT_VLOG = vlog.toNat ∧
      t.rd F.PWR_STAT_PF = 1 - s.rd (feedFld g) ∧ t = { s with regs := t.regs } ∧
      onlyFlds [feedFld f, F.PWR_STAT_VLOG, F.PWR_STAT_PF] s t) ∧
  (∀ (f : Feed) (vlog : Byte) (s : State), s.rd (feedFld f) = 0 → ∃ t, exec (.feedAbsent f vlog) s = .next t ∧ t = s) ∧
  (∀ (f : Feed) (vlog : Byte) (s : State), s.phase ≠ Phase.reset → s.pwr.hold = Hold.none → s.rd (feedFld f) = 0 →
    86 ≤ vlog.toNat →
    ∃ t, exec (.feedPresentTimer f vlog) s = .next t ∧ t.rd (feedFld f) = 1 ∧ t.rd F.PWR_STAT_VLOG = vlog.toNat ∧
      t.rd F.PWR_STAT_FEED_CHG = 1 ∧ t.rd F.PWR_STAT_PF = 0 ∧ t.rd (mpIrqFld 6) = 1 ∧ raised [(480, [t.reg Reg.PWR_STAT])] s t ∧
      t = { s with regs := t.regs, evt := t.evt } ∧
      onlyFlds [feedFld f, F.PWR_STAT_VLOG, F.PWR_STAT_FEED_CHG, F.PWR_STAT_PF, mpIrqFld 6] s t) ∧
  (∀ (f : Feed) (vlog : Byte) (s : State), s.phase = Phase.reset → s.pwr.hold ≠ Hold.unpowered → s.rd (feedFld f) = 0 →
    86 ≤ vlog.toNat →
    ∃ t, exec (.feedPresentTimer f vlog) s = .next t ∧ t.rd (feedFld f) = 1 ∧ t.rd F.PWR_STAT_VLOG = vlog.toNat ∧
      t.rd F.PWR_STAT_PF = 0 ∧
      t = { s with regs := t.regs, pwr := { s.pwr with hold := if s.pwr.hold = Hold.feed then Hold.none else s.pwr.hold } } ∧
      onlyFlds [feedFld f, F.PWR_STAT_VLOG, F.PWR_STAT_PF] s t) ∧
  (∀ (f : Feed) (vlog : Byte) (s : State), s.rd (feedFld f) = 1 → ∃ t, exec (.feedPresentTimer f vlog) s = .next t ∧ t = s) ∧
  (∀ (ok : Bool) (s : State), ∃ t, exec (.holdupLevelChange ok) s = .next t ∧ t.rd F.PWR_STAT_HU_OK = b2n ok ∧
    t = { s with regs := t.regs } ∧ onlyFlds [F.PWR_STAT_HU_OK] s t)

/-- The resets that pass through no safe state (R67, R69, R81, R88). A clause that ends in t = s (an event before its instant or without
its condition changes nothing) is the model's choice, notes/assumptions/2.md. -/
def Obligations.ResetsRestartTheModule : Prop :=
  (∀ s : State, s.phase ≠ Phase.reset → s.pwr.hold ≠ Hold.unpowered →
    ∃ t, exec .vhearthFault s = .next t ∧
      resetFrom (if s.rd F.LP_STAT_LP_MODE = 1 then ResetCause.borLp else ResetCause.por) 0 s t) ∧
  (∀ s : State, s.phase ≠ Phase.reset → s.rd F.LP_STAT_LP_MODE = 1 → s.pwr.lpTimer = true →
    ∃ t, exec .borLp s = .next t ∧ resetFrom .borLp 0 s t) ∧
  (∀ (h : HartId) (p : PartId) (w : Word) (s : State), s.mustWait = false → s.phase ≠ Phase.reset → w.toNat % 65536 = 0x5253 →
    ∃ t, exec (.sysReset (.lane h p) w) s = .next t ∧ resetFrom .swLane 0 s t) ∧
  (∀ (w : Word) (s : State), s.mustWait = false → s.phase ≠ Phase.reset → w.toNat % 65536 = 0x5253 →
    ∃ t, exec (.sysReset .mp w) s = .next t ∧ resetFrom .swMp 0 s t) ∧
  (∀ (who : Requester) (w : Word) (s : State), s.mustWait = false → w.toNat % 65536 ≠ 0x5253 →
    ∃ t, exec (.sysReset who w) s = .next t ∧ t = s) ∧
  (∀ s : State, s.phase = Phase.setup ∨ s.phase = Phase.locking → s.rd F.MPX_DBG_EN = 1 →
    ∃ t, exec .jtagReset s = .next t ∧ resetFrom .jtag 0 s t)

/-- The resets behind a safe-state entry (R66, R67, R68): the module first enters the safe state, and that state resets. -/
def Obligations.SafeStateThenReset : Prop :=
  (∀ s : State, s.phase ≠ Phase.reset → s.pwr.hold ≠ Hold.unpowered → s.rd F.PWR_STAT_FEED_A = 0 → s.rd F.PWR_STAT_FEED_B = 0 →
    ∃ t u, exec .holdupExhausted s = .next t ∧ exec (.safeStateEntry 8) s = .next u ∧ resetFrom .vlogFail 0 u t) ∧
  (∀ (r : Rail) (s : State), s.railNeeded r = true →
    ∃ t u, exec (.railFault r) s = .next t ∧ exec (.safeStateEntry 9) s = .next u ∧ resetFrom .rail r.id u t) ∧
  (∀ (x : Byte) (s : State), s.phase ≠ Phase.reset → s.pwr.hold ≠ Hold.unpowered → 189 ≤ x.toNat →
    ∃ t u v, exec (.thermalTrip x) s = .next t ∧ v = s.wr F.PWR_STAT_DIE_TEMP x.toNat ∧ exec (.safeStateEntry 10) v = .next u ∧
      resetFrom .thermal 0 u t)

/-- The safe state (R136, R137, R138): its entry out of reset with any cause, and the key writes of LANE_SAFE by a hart and by the MP; a
second entry, or a write without the key, changes nothing. A clause that ends in t = s (an event before its instant or without its
condition changes nothing) is the model's choice, notes/assumptions/2.md. Where the clauses meet what notes/assumptions/61.md,
notes/assumptions/74.md record, they say the model's choice. -/
def Obligations.SafeStateStopsTheModule : Prop :=
  (∀ (cause : Byte) (s : State), s.phase ≠ Phase.reset → s.rd F.LANE_STAT_SAFE = 0 →
    ∃ t, exec (.safeStateEntry cause) s = .next t ∧ safeFrom cause.toNat s t) ∧
  (∀ (h : HartId) (p : PartId) (w : Word) (s : State), s.mustWait = false → s.phase ≠ Phase.reset → s.rd F.LANE_STAT_SAFE = 0 → w.toNat % 65536 = 0x5346 →
    ∃ t, exec (.laneSafe (.lane h p) w) s = .next t ∧ safeFrom 4 s t) ∧
  (∀ (w : Word) (s : State), s.mustWait = false → s.phase ≠ Phase.reset → s.rd F.LANE_STAT_SAFE = 0 → w.toNat % 65536 = 0x5346 →
    ∃ t, exec (.laneSafe .mp w) s = .next t ∧ safeFrom 5 s t) ∧
  (∀ (who : Requester) (w : Word) (s : State), s.mustWait = false → w.toNat % 65536 ≠ 0x5346 →
    ∃ t, exec (.laneSafe who w) s = .next t ∧ t = s) ∧
  (∀ (cause : Byte) (s : State), s.rd F.LANE_STAT_SAFE = 1 → ∃ t, exec (.safeStateEntry cause) s = .next t ∧ t = s)

/-- Release from reset, straps and the TAP (R54, R58, R592): what the release sets and holds, what a later strap sample shows, and what
the TAP shifts out and hands to the debug module. Where the clauses meet what notes/assumptions/3.md, notes/assumptions/88.md,
notes/assumptions/89.md record, they say the model's choice. -/
def Obligations.ReleaseStrapsAndTap : Prop :=
  (∀ (x : Straps) (s : State), s.phase = Phase.reset → s.pwr.hold = Hold.none →
    ∃ t, exec (.resetRelease x) s = .next t ∧ t.phase = Phase.boot ∧ t.rd F.SYS_STRAP_SLOT_ID = x.slotId.toNat ∧
      t.rd F.SYS_STRAP_SLOT_PAR = b2n x.slotPar ∧ t.rd F.SYS_STRAP_PREFER = b2n x.prefer ∧
      t.rd F.SYS_STRAP_PAR_OK = b2n (strapsOdd x) ∧ t.rd F.SYS_STRAP_LIVE_ID = x.slotId.toNat ∧
      t.rd F.SYS_STRAP_LIVE_PAR = b2n x.slotPar ∧ t.rd F.SYS_STRAP_LIVE_PREFER = b2n x.prefer ∧ t.outputsSafe = true ∧
      t.lampTest = decide (s.pwr.rtc.toNat < t.pwr.lampTestEnd) ∧ t.pwr.lampTestEnd = s.pwr.rtc.toNat + 16384 ∧
      t.mp = { s.mp with wdtFrom := s.pwr.rtc, console := s.mp.console ++ [Machine.ConsoleLine.step 0] } ∧ (∀ i ∈ allIslands, s.link i = lnOff → t.link i = lnHeld) ∧
      t.pwr = { s.pwr with lampTestEnd := t.pwr.lampTestEnd, relay := false, safeN := false } ∧ t.harts = s.harts ∧
      t.plic = s.plic ∧ t.tb = s.tb ∧ t.cord = s.cord ∧ t.flue = s.flue ∧ sameMemBut 0x60100000 0x300000 s t) ∧
  (∀ (x : Straps) (s : State), s.phase ≠ Phase.reset →
    s.rd F.SYS_STRAP_SLOT_ID = x.slotId.toNat ∧ s.rd F.SYS_STRAP_SLOT_PAR = b2n x.slotPar ∧ s.rd F.SYS_STRAP_PREFER = b2n x.prefer →
    ∃ t, exec (.strapSample x) s = .next t ∧ t.rd F.SYS_STRAP_LIVE_ID = x.slotId.toNat ∧ t.rd F.SYS_STRAP_LIVE_PAR = b2n x.slotPar ∧
      t.rd F.SYS_STRAP_LIVE_PREFER = b2n x.prefer ∧ t = { s with regs := t.regs } ∧
      onlyFlds [F.SYS_STRAP_LIVE_ID, F.SYS_STRAP_LIVE_PAR, F.SYS_STRAP_LIVE_PREFER] s t) ∧
  (∀ (x : Straps) (s : State), s.phase ≠ Phase.reset →
    s.rd F.SYS_STRAP_SLOT_ID ≠ x.slotId.toNat ∨ s.rd F.SYS_STRAP_SLOT_PAR ≠ b2n x.slotPar ∨ s.rd F.SYS_STRAP_PREFER ≠ b2n x.prefer →
    ∃ t, exec (.strapSample x) s = .next t ∧ t.rd F.SYS_STRAP_LIVE_ID = x.slotId.toNat ∧ t.rd F.SYS_STRAP_LIVE_PAR = b2n x.slotPar ∧
      t.rd F.SYS_STRAP_LIVE_PREFER = b2n x.prefer ∧ t.rd F.SYS_STRAP_CHANGED = 1 ∧ t.rd (mpIrqFld 9) = 1 ∧
      raised [(484, [t.reg Reg.SYS_STRAP])] s t ∧ t = { s with regs := t.regs, evt := t.evt } ∧
      onlyFlds [F.SYS_STRAP_LIVE_ID, F.SYS_STRAP_LIVE_PAR, F.SYS_STRAP_LIVE_PREFER, F.SYS_STRAP_CHANGED, mpIrqFld 9] s t) ∧
  (∀ (c : BitVec 5) (s : State), ∃ t, exec (.tapInstruction c none) s = .next t ∧
    t = { s with pwr := { s.pwr with tapIr := c, tapOut := 1 } }) ∧
  (∀ (v : BitVec 64) (s : State), ∃ t, exec (.tapInstruction 1 (some v)) s = .next t ∧
    t = { s with pwr := { s.pwr with
      tapIr := 1,
      tapOut := BitVec.ofNat 64 (s.rd F.SYS_STEP_SOC_STEP * 2 ^ 28 + 0x6400 * 2 ^ 12 + Config.jtagMaker.toNat * 2 + 1) } }) ∧
  (∀ (c : BitVec 5) (v : BitVec 64) (s : State), c ≠ 1 → c ≠ 2 → c ≠ 4 ∨ s.phase = Phase.operate →
    (c ≠ 16 ∧ c ≠ 17) ∨ s.setupPhase = false ∨ s.rd F.MPX_DBG_EN = 0 →
    ∃ t, exec (.tapInstruction c (some v)) s = .next t ∧ t = { s with pwr := { s.pwr with tapIr := c, tapOut := 0 } }) ∧
  (∀ (v : BitVec 64) (s : State), s.setupPhase = true → s.rd F.MPX_DBG_EN = 1 →
    ∃ t, exec (.tapInstruction 16 (some v)) s = .next t ∧ t = { s with pwr := { s.pwr with tapIr := 16, tapOut := 0x71 } }) ∧
  (∀ (h : HartId) (s : State), s.setupPhase = true → s.rd F.MPX_DBG_EN = 1 → s.lanes.on = true → s.halted h = false →
    (s.hart h).wait ≠ HartWait.lock →
    ∃ t, exec (.tapInstruction 17 (some (BitVec.ofNat 64 (0x10 * 2 ^ 34 + (0x80000001 + 65536 * h.val) * 4 + 2)))) s = .next t ∧
      State.halted t h = true ∧ Sparse.get t.lanes.dbg.dpc 0 h.val = (s.hart h).pc ∧
      bits (State.dcsr t h).toNat 6 3 = 3 ∧ bits (State.dcsr t h).toNat 0 2 = privCode (s.hart h).priv ∧
      t.hart h = { s.hart h with wait := .run } ∧
      t = { s with harts := s.harts.set h (t.hart h), lanes := { s.lanes with dbg := t.lanes.dbg },
                   pwr := { s.pwr with tapIr := 17, tapOut := s.lanes.dbg.dmi.setWidth 64 } }) ∧
  (∀ (h : HartId) (s : State), s.setupPhase = true → s.rd F.MPX_DBG_EN = 1 → s.halted h = true →
    ∃ t, exec (.tapInstruction 17 (some (BitVec.ofNat 64 (0x10 * 2 ^ 34 + (0x40000001 + 65536 * h.val) * 4 + 2)))) s = .next t ∧
      State.halted t h = false ∧ (t.hart h).pc = Sparse.get s.lanes.dbg.dpc 0 h.val &&& ~~~ 1#64 ∧
      (∀ k ∈ allHarts, k = h ∨ t.hart k = s.hart k) ∧ t.mem = s.mem ∧ t.regs = s.regs) ∧
  (∀ (n : Fin 32) (s : State), s.setupPhase = true → s.rd F.MPX_DBG_EN = 1 → s.lanes.dbg.active = true →
    s.lanes.dbg.cmderr = 0 → s.halted s.lanes.dbg.sel = true →
    ∃ t, exec (.tapInstruction 17 (some (BitVec.ofNat 64 (0x17 * 2 ^ 34 + (0x321000 + n.val) * 4 + 2)))) s = .next t ∧
      (Sparse.get t.lanes.dbg.data 0 1 : Word) ++ (Sparse.get t.lanes.dbg.data 0 0 : Word) = Hart.xr (s.hart s.lanes.dbg.sel) n.val ∧
      t.harts = s.harts ∧ t.mem = s.mem ∧ t.regs = s.regs)

/-- Temperature and low-power mode (R68, R81): the warning and its re-arming, and the overload timer of low-power mode. A clause that ends
in t = s (an event before its instant or without its condition changes nothing) is the model's choice, notes/assumptions/2.md. -/
def Obligations.TemperatureAndLowPower : Prop :=
  (∀ (x : Byte) (s : State), s.phase ≠ Phase.reset → s.pwr.otArmed = true → s.rd F.PWR_STAT_DIE_TEMP < 179 → 179 ≤ x.toNat →
    ∃ t, exec (.overTemp x) s = .next t ∧ t.rd F.PWR_STAT_DIE_TEMP = x.toNat ∧ t.rd F.PWR_STAT_OT_WARN = 1 ∧
      raised [(482, [t.reg Reg.PWR_STAT])] s t ∧
      t = { s with regs := t.regs, evt := t.evt, pwr := { s.pwr with otArmed := false } } ∧
      onlyFlds [F.PWR_STAT_DIE_TEMP, F.PWR_STAT_OT_WARN] s t) ∧
  (∀ (x : Byte) (s : State), s.phase = Phase.reset ∨ s.pwr.otArmed = false ∨ 179 ≤ s.rd F.PWR_STAT_DIE_TEMP ∨ x.toNat < 179 →
    ∃ t, exec (.overTemp x) s = .next t ∧ t.rd F.PWR_STAT_DIE_TEMP = x.toNat ∧ t = { s with regs := t.regs } ∧
      onlyFlds [F.PWR_STAT_DIE_TEMP] s t) ∧
  (∀ (x : Byte) (s : State), x.toNat < 174 →
    ∃ t, exec (.otWarnRearm x) s = .next t ∧ t.rd F.PWR_STAT_DIE_TEMP = x.toNat ∧
      t = { s with regs := t.regs, pwr := { s.pwr with
        otArmed := true, hold := if s.pwr.hold = Hold.cool then .none else s.pwr.hold } } ∧
      onlyFlds [F.PWR_STAT_DIE_TEMP] s t) ∧
  (∀ (x : Byte) (s : State), 174 ≤ x.toNat →
    ∃ t, exec (.otWarnRearm x) s = .next t ∧ t.rd F.PWR_STAT_DIE_TEMP = x.toNat ∧ t = { s with regs := t.regs } ∧
      onlyFlds [F.PWR_STAT_DIE_TEMP] s t) ∧
  (∀ (mA : Nat) (s : State), s.rd F.LP_STAT_LP_MODE = 0 → ∃ t, exec (.lpDrawChange mA) s = .next t ∧ t = s) ∧
  (∀ (mA : Nat) (s : State), s.rd F.LP_STAT_LP_MODE = 1 →
    ∃ t, exec (.lpDrawChange mA) s = .next t ∧ t.rd F.LP_STAT_LP_PEAK = max (s.rd F.LP_STAT_LP_PEAK) (min mA (2 ^ F.LP_STAT_LP_PEAK.w - 1)) ∧
      t = { s with regs := t.regs, pwr := { s.pwr with lpTimer := decide (120 < mA) } } ∧ onlyFlds [F.LP_STAT_LP_PEAK] s t)

/-- Performance levels and the lane clock (R71, R72, R73, R86): writes of the lane complex, those of others without effect, and the ends
of what they start. A clause that ends in t = s (an event before its instant or without its condition changes nothing) is the model's
choice, notes/assumptions/2.md. Where the clauses meet what notes/assumptions/27.md records, they say the model's choice. -/
def Obligations.LevelsAndLaneClock : Prop :=
  (∀ (h : HartId) (p : PartId) (w : Word) (s : State), s.mustWait = false → s.rd F.PWR_PL_PL_BUSY = 0 → s.pwr.level.toNat ≠ w.toNat % 4 →
    ∃ t, exec (.pwrPlWrite (.lane h p) w) s = .next t ∧ t.rd F.PWR_PL_PL = w.toNat % 4 ∧ t.rd F.PWR_PL_PL_BUSY = 1 ∧
      t = { s with regs := t.regs, pwr := { s.pwr with target := BitVec.ofNat 2 w.toNat } } ∧
      onlyFlds [F.PWR_PL_PL, F.PWR_PL_PL_BUSY] s t) ∧
  (∀ (h : HartId) (p : PartId) (w : Word) (s : State), s.mustWait = false → s.rd F.PWR_PL_PL_BUSY = 1 ∨ s.pwr.level.toNat = w.toNat % 4 →
    ∃ t, exec (.pwrPlWrite (.lane h p) w) s = .next t ∧ t.rd F.PWR_PL_PL = w.toNat % 4 ∧ t = { s with regs := t.regs } ∧
      onlyFlds [F.PWR_PL_PL] s t) ∧
  (∀ s : State, s.rd F.PWR_PL_PL_BUSY = 1 → s.rd F.PWR_PL_PL = s.pwr.target.toNat →
    ∃ t, exec .plChangeDone s = .next t ∧ t.rd F.PWR_PL_PL_BUSY = 0 ∧
      t = { s with regs := t.regs, pwr := { s.pwr with level := s.pwr.target } } ∧ onlyFlds [F.PWR_PL_PL_BUSY] s t) ∧
  (∀ s : State, s.rd F.PWR_PL_PL_BUSY = 1 → s.rd F.PWR_PL_PL ≠ s.pwr.target.toNat →
    ∃ t, exec .plChangeDone s = .next t ∧
      t = { s with pwr := { s.pwr with level := s.pwr.target, target := BitVec.ofNat 2 (s.rd F.PWR_PL_PL) } }) ∧
  (∀ (h : HartId) (p : PartId) (w : Word) (s : State), s.mustWait = false →
    (w.getLsbD 2 = true ∧ s.rd F.SYS_CLK_LANE_LOCK = 0) ∨ (w.getLsbD 0 = false ∧ s.rd F.SYS_CLK_LANE_SRC = 1) →
    ∃ t, exec (.sysClkWrite (.lane h p) w) s = .next t ∧ t.rd F.SYS_CLK_CLK_ERR = 1 ∧ t = { s with regs := t.regs } ∧
      onlyFlds [F.SYS_CLK_CLK_ERR] s t) ∧
  (∀ (h : HartId) (p : PartId) (w : Word) (s : State), s.mustWait = false → w.getLsbD 2 = false ∨ s.rd F.SYS_CLK_LANE_LOCK = 1 →
    w.getLsbD 0 = true ∨ s.rd F.SYS_CLK_LANE_SRC = 0 →
    ∃ t, exec (.sysClkWrite (.lane h p) w) s = .next t ∧ t.rd F.SYS_CLK_LANE_PLL_EN = b2n (w.getLsbD 0) ∧
      t.rd F.SYS_CLK_LANE_SRC = b2n (w.getLsbD 2) ∧
      t.rd F.SYS_CLK_LANE_LOCK = (if w.getLsbD 0 = true then s.rd F.SYS_CLK_LANE_LOCK else 0) ∧
      t.rd F.SYS_CLK_CLK_ERR = (if w.getLsbD 3 = true then 0 else s.rd F.SYS_CLK_CLK_ERR) ∧
      t = { s with regs := t.regs, pwr := { s.pwr with
        srcPending := w.getLsbD 2 && !s.pwr.onPll, onPll := w.getLsbD 2 && s.pwr.onPll } } ∧
      onlyFlds [F.SYS_CLK_LANE_PLL_EN, F.SYS_CLK_LANE_SRC, F.SYS_CLK_LANE_LOCK, F.SYS_CLK_CLK_ERR] s t) ∧
  (∀ (who : Requester) (w : Word) (s : State), s.mustWait = false → byLane who = false →
    ∃ t u, exec (.pwrPlWrite who w) s = .next t ∧ exec (.sysClkWrite who w) s = .next u ∧ t = s ∧ u = s) ∧
  (∀ s : State, s.rd F.SYS_CLK_LANE_PLL_EN = 1 →
    ∃ t, exec .lanePllLock s = .next t ∧ t.rd F.SYS_CLK_LANE_LOCK = 1 ∧ t = { s with regs := t.regs } ∧ onlyFlds [F.SYS_CLK_LANE_LOCK] s t) ∧
  (∀ s : State, s.pwr.srcPending = true → s.rd F.PWR_PL_PL_BUSY = 0 →
    ∃ t, exec .laneSrcSwitch s = .next t ∧ t = { s with pwr := { s.pwr with srcPending := false, onPll := true } })

/-- The end of Tinder ROM and the confirmation of a trial image (R89, R91, R92, R96). A clause that ends in t = s (an event before its
instant or without its condition changes nothing) is the model's choice, notes/assumptions/2.md. Where the clauses meet what
notes/assumptions/8.md, notes/assumptions/25.md, notes/assumptions/94.md, notes/assumptions/95.md record, they say the model's choice. -/
def Obligations.BootStartsTheLanes : Prop :=
  (∀ (b : Nat) (s : State), s.phase = Phase.boot → s.bootChoose.bank = some b →
    ∃ t, exec .tinderBootDone s = .next t ∧ t.phase = Phase.setup ∧ t.rd F.SYS_PHASE_LOCK_ERR = 0 ∧ t.rd F.SYS_PHASE_OPERATE = 0 ∧
      t.lanes = { s.lanes with on := true } ∧
      (∀ h ∈ allHarts, t.hart h = { Hart.start with pc := BitVec.ofNat 64 (0x20000000 + s.le (0x20000000 + 0x8000000 * b + 0x1C) 4) }) ∧
      t.rd F.SYS_BOOT_BANK = b ∧ t.rd F.SYS_FWVER_IMG_VER = s.le (0x20000000 + 0x8000000 * b + 8) 4 ∧
      t.rd F.SYS_BOOT_TRIAL = b2n s.bootChoose.trial ∧ t.rd F.SYS_BOOT_FALLBACK = b2n s.bootChoose.fallback ∧
      t.rd F.SYS_CLK_FAB_SRC = 1 ∧ t.rd F.SYS_CLK_MP_SRC = 1 ∧ t.tb = { s.tb with locked := true } ∧
      t.pwr = { s.pwr with laneEntry := t.pwr.laneEntry, bootRaise := t.pwr.bootRaise, bootSvn := t.pwr.bootSvn } ∧
      t.plic = s.plic ∧ t.cord = s.cord ∧ t.flue = s.flue ∧ t.rings = s.rings ∧
      t.mp.core = { MpCore.start with on := true, pc := BitVec.ofNat 32 (s.le (0x20000000 + 0x8000000 * b + 0x18) 4) } ∧
      (∀ a, a < 0x600FE000 ∨ (0x60100000 ≤ a ∧ a < 0x60102000 + 64 * (s.recd.noteSeq.toNat % 128)) ∨
        0x60102000 + 64 * (s.recd.noteSeq.toNat % 128) + 64 ≤ a → t.byte a = s.byte a)) ∧
  (∀ s : State, s.phase = Phase.boot → s.bootChoose.bank = none →
    ∃ t, exec .tinderBootDone s = .next t ∧ t.phase = Phase.recovery ∧ t.rd F.MPX_STAT_RECOVERY = 1 ∧
      t.rd F.SYS_BOOT_REFUSE_A = s.bootChoose.resA ∧ t.rd F.SYS_BOOT_REFUSE_B = s.bootChoose.resB ∧
      t = { s with
        phase := .recovery, regs := t.regs, mem := t.mem, tb := { s.tb with locked := true },
        mp := { s.mp with console := s.mp.console ++
          [Machine.ConsoleLine.cause (s.reg Reg.SYS_RSTCAUSE), Machine.ConsoleLine.bank none s.bootChoose.trial] } } ∧
      sameMemBut 0x600FE000 0x2000 s t) ∧
  (∀ (who : Requester) (w : Word) (s : State), s.mustWait = false → w.getLsbD 2 = true → s.rd F.SYS_BOOT_CONFIRM = 0 → s.setupPhase = true ∨ s.phase = Phase.operate →
    ∃ t, exec (.sysBootConfirm who w) s = .next t ∧ t.rd F.SYS_BOOT_CONFIRM = 1 ∧
      t.pwr = { s.pwr with
        fuseSvn := if s.pwr.bootRaise = true ∧ s.minSvn < s.pwr.bootSvn then BitVec.ofNat 32 (2 ^ s.pwr.bootSvn - 1) else s.pwr.fuseSvn } ∧
      (∀ k ∈ s.bootRecBest.toList, t.memFld (bootRec (1 - k) + 4) 1 1 = 0 ∧ t.le (bootRec (1 - k) + 8) 4 = s.rd F.SYS_FWVER_IMG_VER ∧
        sameMemBut (bootRec (1 - k)) 32 s t) ∧
      t = { s with regs := t.regs, mem := t.mem, pwr := t.pwr } ∧ onlyFlds [F.SYS_BOOT_CONFIRM] s t ∧ sameMemBut 0x600FE000 0x2000 s t) ∧
  (∀ (who : Requester) (w : Word) (s : State), s.mustWait = false → w.getLsbD 2 = false ∨ s.rd F.SYS_BOOT_CONFIRM = 1 →
    ∃ t, exec (.sysBootConfirm who w) s = .next t ∧ t = s)

/-- Wake sources (R83, R84): what each latches while the module runs, and what the first wake in an Ember state records. A clause that
ends in t = s (an event before its instant or without its condition changes nothing) is the model's choice, notes/assumptions/2.md. Where
the clauses meet what notes/assumptions/31.md, notes/assumptions/32.md record, they say the model's choice. -/
def Obligations.WakesAreLatched : Prop :=
  (∀ (src : Fin 8) (idx : Fin 512) (s : State), s.phase ≠ Phase.reset → s.wakeOn src.val idx.val = true → s.asleep = none →
    ∃ t, exec (.wakeLatch [(src, idx)]) s = .next t ∧ t.rd F.WAKE_PEND_PEND = s.rd F.WAKE_PEND_PEND ||| 2 ^ src.val ∧
      t.rd (mpIrqFld 8) = 1 ∧ t = { s with regs := t.regs } ∧ onlyFlds [F.WAKE_PEND_PEND, mpIrqFld 8] s t) ∧
  (∀ (src : Fin 8) (idx : Fin 512) (deep : Bool) (s : State), s.phase ≠ Phase.reset → s.wakeOn src.val idx.val = true →
    s.asleep = some deep → s.pwr.wakeTaken = false → deep = false ∨ wakeInE3 src.val idx.val = true →
    ∃ t, exec (.wakeLatch [(src, idx)]) s = .next t ∧ t.rd F.WAKE_PEND_PEND = s.rd F.WAKE_PEND_PEND ||| 2 ^ src.val ∧
      t.rd (mpIrqFld 8) = 1 ∧ t.rd F.WAKE_SRC_SRC = src.val ∧ t.rd F.WAKE_SRC_INDEX = idx.val ∧
      t.rd F.WAKE_SRC_FROM = (if deep then 3 else 2) ∧ t.rd64 Reg.PWR_RTC_WAKE_LO Reg.PWR_RTC_WAKE_HI = s.pwr.rtc.toNat ∧
      t = { s with regs := t.regs, pwr := { s.pwr with wakeTaken := true } } ∧
      onlyRegs [Reg.WAKE_PEND, Reg.MPX_IRQ_PEND, Reg.WAKE_SRC, Reg.PWR_RTC_WAKE_LO, Reg.PWR_RTC_WAKE_HI] s t) ∧
  (∀ (src : Fin 8) (idx : Fin 512) (deep : Bool) (s : State), s.phase ≠ Phase.reset → s.wakeOn src.val idx.val = true →
    s.asleep = some deep → s.pwr.wakeTaken = true → deep = false ∨ wakeInE3 src.val idx.val = true →
    ∃ t, exec (.wakeLatch [(src, idx)]) s = .next t ∧ t.rd F.WAKE_PEND_PEND = s.rd F.WAKE_PEND_PEND ||| 2 ^ src.val ∧
      t.rd (mpIrqFld 8) = 1 ∧ t = { s with regs := t.regs } ∧ onlyFlds [F.WAKE_PEND_PEND, mpIrqFld 8] s t) ∧
  (∀ (src : Fin 8) (idx : Fin 512) (s : State),
    s.wakeOn src.val idx.val = false ∨ (s.asleep = some true ∧ wakeInE3 src.val idx.val = false) →
    ∃ t, exec (.wakeLatch [(src, idx)]) s = .next t ∧ t = s) ∧
  (∀ s : State, s.pwr.rtc.toNat = s.rd64 Reg.PWR_ALARM_LO Reg.PWR_ALARM_HI →
    ∃ t u, exec .rtcAlarm s = .next t ∧ exec (.wakeLatch [(2, 0)]) s = .next u ∧ t = u) ∧
  (∀ (w : Word) (s : State), s.mustWait = false → w.toNat % 65536 = 0x4D57 →
    ∃ t u, exec (.pwrMpwake .mp w) s = .next t ∧ exec (.wakeLatch [(7, 0)]) s = .next u ∧ t = u) ∧
  (∀ (who : Requester) (w : Word) (s : State), s.mustWait = false → byMp who = false ∨ w.toNat % 65536 ≠ 0x4D57 →
    ∃ t, exec (.pwrMpwake who w) s = .next t ∧ t = s) ∧
  (∀ (port : Fin 17) (idx : Fin 512) (s : State), s.pwr.state = PowerState.e2 ∨ s.pwr.state = PowerState.e3 → idx.val = port.val →
    ∃ t u, exec (.energyDetect port) s = .next t ∧ exec (.wakeLatch [(6, idx)]) s = .next u ∧ t = u) ∧
  (∀ (port : Fin 17) (s : State), s.pwr.state ≠ PowerState.e2 → s.pwr.state ≠ PowerState.e3 →
    ∃ t, exec (.energyDetect port) s = .next t ∧ t = s)

/-- Ember (R76 to R80, R85): the decision for E1 and for the deep states, a refused request, the state reached, and Kindle. A clause that
ends in t = s (an event before its instant or without its condition changes nothing) is the model's choice, notes/assumptions/2.md. Where
the clauses meet what notes/assumptions/31.md, notes/assumptions/33.md, notes/assumptions/34.md, notes/assumptions/35.md,
notes/assumptions/36.md, notes/assumptions/37.md record, they say the model's choice. -/
def Obligations.EmberEntersAndKindles : Prop :=
  (∀ (code : Nat) (s : State), s.phase ≠ Phase.reset → s.pwr.state = PowerState.entering → s.flue.recs = [] → s.cordDue = false →
    s.rd F.CORD_STAT_ROLLING = 0 → s.entryErr = some code →
    ∃ t, exec .emberDecision s = .next t ∧ t.pwr = { s.pwr with state := .run } ∧ t.rd F.PWR_EMBER_STAT_ENTRY_ERR = code ∧
      t.rd F.WAKE_PEND_PEND = 0 ∧ (∀ h ∈ allHarts, (t.hart h).wait = HartWait.run ∧ (t.hart h).pc = (s.hart h).pc) ∧
      raised [(483, [t.reg Reg.PWR_EMBER_STAT])] s t ∧ t = { s with regs := t.regs, evt := t.evt, harts := t.harts, pwr := t.pwr } ∧
      onlyFlds [F.PWR_EMBER_STAT_ENTRY_ERR, F.WAKE_PEND_PEND] s t) ∧
  (∀ s : State, s.pwr.state = PowerState.entering → s.flue.recs = [] → s.cordDue = false → s.rd F.CORD_STAT_ROLLING = 0 →
    s.entryErr = none → s.rd F.PWR_MODE_MODE = 1 →
    ∃ t, exec .emberDecision s = .next t ∧ t.rd F.PWR_EMBER_STAT_ENTRY_ERR = 0 ∧ t.rd F.PWR_EMBER_STAT_LAST_STATE = 1 ∧
      t.rd F.WAKE_PEND_PEND = 0 ∧ t = { s with regs := t.regs, pwr := { s.pwr with state := .e1, wakeTaken := false } } ∧
      onlyFlds [F.PWR_EMBER_STAT_ENTRY_ERR, F.PWR_EMBER_STAT_LAST_STATE, F.WAKE_PEND_PEND] s t) ∧
  (∀ s : State, s.pwr.state = PowerState.entering → s.flue.recs = [] → s.cordDue = false → s.rd F.CORD_STAT_ROLLING = 0 →
    s.entryErr = none → s.rd F.PWR_MODE_MODE ≠ 1 →
    ∃ t, exec .emberDecision s = .next t ∧ t.pwr = { s.pwr with state := .quiesce (s.rd F.PWR_MODE_MODE == 3), wakeTaken := false } ∧
      t.rd F.WAKE_PEND_PEND = 0 ∧ (∀ n < 3, t.rd (F.CR_STATE_STATE n) = 0) ∧ t.rd F.CB_STAT_STATE = 0 ∧
      (∀ i ∈ allIslands, t.link i = lnOff) ∧ t.phase = s.phase ∧ t.harts = s.harts ∧ t.plic = s.plic ∧ t.tb = s.tb ∧
      t.lanes = s.lanes ∧ t.cord = s.cord ∧ t.mem = s.mem) ∧
  (∀ s : State, s.pwr.state = PowerState.quiesce false → s.quiet = true →
    ∃ t, exec .emberEntryComplete s = .next t ∧ t.rd F.PWR_EMBER_STAT_LAST_STATE = 2 ∧ t.rd F.RB_STAT_RST = 1 ∧ t.rd F.PWR_PL_PL = 0 ∧
      t.rd F.SYS_CLK_LANE_SRC = 0 ∧ t.rd F.IST_STAT_SCRUB_RUN = 0 ∧ t.rd64 Reg.PWR_RTC_ENTRY_LO Reg.PWR_RTC_ENTRY_HI = s.pwr.rtc.toNat ∧
      t = { s with
        regs := t.regs, rack := { s.rack with waitEnd := none, ready := false }, lanes := { s.lanes with on := false },
        pwr := { s.pwr with state := .e2, level := 0, target := 0, srcPending := false, onPll := false } } ∧
      onlyFlds [F.PWR_EMBER_STAT_LAST_STATE, F.PWR_EMBER_STAT_ENTRY_ERR, F.RB_STAT_RST, F.PWR_PL_PL, F.PWR_PL_PL_BUSY,
        F.SYS_CLK_LANE_PLL_EN, F.SYS_CLK_LANE_SRC, F.SYS_CLK_LANE_LOCK, F.IST_STAT_SCRUB_RUN, ⟨Reg.PWR_RTC_ENTRY_LO, 0, 32⟩, ⟨Reg.PWR_RTC_ENTRY_HI, 0, 32⟩] s t) ∧
  (∀ s : State, s.pwr.state = PowerState.quiesce true → s.quiet = true →
    ∃ t, exec .emberEntryComplete s = .next t ∧ t.pwr.state = PowerState.e3 ∧ t.pwr.saved = true ∧ t.rd F.LP_STAT_LP_MODE = 1 ∧
      t.rd F.PWR_EMBER_STAT_LAST_STATE = 3 ∧ t.lanes.on = false ∧ t.tb = { s.tb with locked := false } ∧ t.harts = s.harts ∧
      State.saveOk t = true ∧ sameMemBut (s.rd F.PWR_SAVE_BASE * 4194304) 4194304 s t) ∧
  (∀ (lost : List (Fin 4194304 × Byte)) (s : State), s.pwr.state = PowerState.e2 → s.pwr.wakeTaken = true → s.rd F.LANE_STAT_SAFE = 0 →
    ∃ t, exec (.kindleComplete lost) s = .next t ∧ t.pwr = { s.pwr with state := .run } ∧ t.lanes = { s.lanes with on := true, resv := [] } ∧
      t.phase = s.phase ∧
      (∀ r ∈ s.cord.sealedRec.toList, ∀ h ∈ allHarts, t.hart h = { r.harts.get h with mtip := (s.hart h).mtip, wait := .run }) ∧
      t.tb = s.tb ∧ t.plic = s.plic ∧ t.flue = s.flue ∧ t.rd F.RB_STAT_RST = 0 ∧ (∀ i ∈ allIslands, s.link i = lnOff → t.link i = lnHeld)) ∧
  (∀ (lost : List (Fin 4194304 × Byte)) (s : State), s.pwr.state = PowerState.e2 → s.pwr.wakeTaken = true → s.rd F.LANE_STAT_SAFE = 1 →
    ∃ t, exec (.kindleComplete lost) s = .next t ∧ t.pwr = { s.pwr with state := .run } ∧ t.lanes = s.lanes ∧ t.harts = s.harts ∧
      t.phase = s.phase ∧ t.mem = s.mem) ∧
  (∀ (lost : List (Fin 4194304 × Byte)) (s : State), s.pwr.state = PowerState.e3 → s.pwr.wakeTaken = true →
    (s.saveLost lost).saveOk = true → s.rd F.LANE_STAT_SAFE = 0 →
    ∃ t, exec (.kindleComplete lost) s = .next t ∧ t.pwr = { s.pwr with state := .run, saved := false, lpTimer := false } ∧
      t.lanes = { s.lanes with on := true, resv := [] } ∧ t.rd F.LP_STAT_LP_MODE = 0 ∧ t.rd F.SYS_CLK_FAB_SRC = 1 ∧ t.rd F.SYS_CLK_MP_SRC = 1 ∧
      t.tb = { s.tb with locked := true } ∧
      (∀ r ∈ s.cord.sealedRec.toList, ∀ h ∈ allHarts, t.hart h = { r.harts.get h with mtip := (s.hart h).mtip, wait := .run })) ∧
  (∀ (lost : List (Fin 4194304 × Byte)) (s : State), s.pwr.state = PowerState.e3 → s.pwr.wakeTaken = true →
    (s.saveLost lost).saveOk = false →
    ∃ t, exec (.kindleComplete lost) s = .next t ∧ resetFrom .saveBad 0 (s.saveLost lost) t) ∧
  (∀ s : State, s.pwr.state ≠ PowerState.entering → ∃ t, exec .emberDecision s = .next t ∧ t = s) ∧
  (∀ s : State, s.pwr.state = PowerState.run → ∃ t, exec .emberEntryComplete s = .next t ∧ t = s) ∧
  (∀ (lost : List (Fin 4194304 × Byte)) (s : State), s.pwr.state = PowerState.e2 → s.pwr.wakeTaken = false →
    ∃ t, exec (.kindleComplete lost) s = .next t ∧ t = s)

/-- The voter (R125, R127, R128, R132, R141): an agreed request is served and its response goes back; a lane that differs or that has made
no offer is fenced and the two others are served; three different offers are unresolved. In the Setup phase, where every access to Plain
memory is performed at once; in every phase the agreed request is passed to the fabric. A clause that ends in t = s (an event before its
instant or without its condition changes nothing) is the model's choice, notes/assumptions/2.md. Where the clauses meet what
notes/assumptions/19.md, notes/assumptions/22.md, notes/assumptions/23.md record, they say the model's choice. -/
def Obligations.VotesServeAgreedRequests : Prop :=
  (∀ (o : Offers) (r : LaneReq) (s : State), s.votes = true → s.phase = Phase.setup → s.usableLanes = lanesABC →
    o.a = ⟨some r, o.a.clock, false⟩ → o.b = o.a → o.c = o.a → r.kind = ReqKind.load → s.region r.addr.toNat = Region.plain →
    s.hasReady r.hart = false →
    ∃ t, exec (.votedRequest o false 0 0 0) s = .next t ∧ t.lanes.respData = BitVec.ofNat 512 (s.le r.addr.toNat r.size) ∧
      t.lanes.respFault = none ∧ t = { s with regs := t.regs, lanes := { s.lanes with respData := t.lanes.respData, respFault := none } } ∧
      onlyFlds [] s t) ∧
  (∀ (o : Offers) (r : LaneReq) (s : State), s.votes = true → s.phase = Phase.setup → s.usableLanes = lanesABC →
    o.a = ⟨some r, o.a.clock, false⟩ → o.b = o.a → o.c = o.a → r.kind = ReqKind.store → s.region r.addr.toNat = Region.plain →
    s.hasReady r.hart = false → s.pairOn = false → r.size ≤ 64 → (∀ n < r.size, r.mask.getLsbD n = true) →
    ∃ t, exec (.votedRequest o false 0 0 0) s = .next t ∧ t.le r.addr.toNat r.size = r.data.toNat % 256 ^ r.size ∧
      sameMemBut r.addr.toNat r.size s t ∧ t.lanes.respFault = none ∧
      t.lanes.resv = s.lanes.resv.filter (fun p : Nat × Nat => p.1 == r.hart.val || p.2 != r.addr.toNat / 64 * 64) ∧
      t.ecc = s.ecc.filter (fun p : Nat × Ecc => decide (p.1 < r.addr.toNat / 64 * 8 ∨ r.addr.toNat / 64 * 8 + 8 ≤ p.1)) ∧
      t = { s with regs := t.regs, mem := t.mem, ecc := t.ecc, lanes := { s.lanes with respData := 0, respFault := none, resv := t.lanes.resv } } ∧
      onlyFlds [] s t) ∧
  (∀ (o : Offers) (r q : LaneReq) (s : State), s.votes = true → s.phase = Phase.setup → s.usableLanes = lanesABC →
    s.rd F.CORD_STAT_REPLAY = 0 → s.rd F.LANE_FAULT_VALID = 0 →
    o.a = ⟨some r, o.a.clock, false⟩ → o.b = o.a → o.c = ⟨some q, o.a.clock, false⟩ → q = { r with data := q.data } → q.data ≠ r.data →
    r.kind = ReqKind.load → s.region r.addr.toNat = Region.plain → s.hasReady r.hart = false →
    ∃ t, exec (.votedRequest o false 0 0 0) s = .next t ∧ t.lanes.respData = BitVec.ofNat 512 (s.le r.addr.toNat r.size) ∧
      t.usableLanes = [LaneId.a, LaneId.b] ∧ t.rd F.LANE_STAT_USABLE = 2 ∧ t.rd F.LANE_FCNT_FENCE_C = min (s.rd F.LANE_FCNT_FENCE_C + 1) (2 ^ F.LANE_FCNT_FENCE_C.w - 1) ∧
      t.rd F.LANE_FAULT_VALID = 1 ∧ t.rd F.LANE_FAULT_CLASS = 1 ∧ t.rd F.LANE_FAULT_LANES = 4 ∧ t.rd F.LANE_FAULT_UNRESOLVED = 0 ∧
      t.lanes.fencings = (LaneId.c, s.raw) :: s.lanes.fencings ∧ t = { s with regs := t.regs, evt := t.evt, lanes := t.lanes } ∧
      onlyRegs [Reg.LANE_STAT, Reg.LANE_FCNT, Reg.LANE_FAULT, Reg.LANE_FADDR_LO, Reg.LANE_FADDR_HI] s t) ∧
  (∀ (o : Offers) (r : LaneReq) (s : State), s.votes = true → s.phase = Phase.setup → s.usableLanes = lanesABC →
    s.rd F.CORD_STAT_REPLAY = 0 → s.rd F.LANE_FAULT_VALID = 0 → o.a = ⟨some r, o.a.clock, false⟩ → o.b = o.a →
    r.kind = ReqKind.load → s.region r.addr.toNat = Region.plain → s.hasReady r.hart = false →
    ∃ t, exec (.voteMissingTimeout .c o false) s = .next t ∧ t.lanes.respData = BitVec.ofNat 512 (s.le r.addr.toNat r.size) ∧
      t.usableLanes = [LaneId.a, LaneId.b] ∧ t.rd F.LANE_FAULT_CLASS = 5 ∧ t.rd F.LANE_FAULT_LANES = 4 ∧
      t = { s with regs := t.regs, evt := t.evt, lanes := t.lanes } ∧
      onlyRegs [Reg.LANE_STAT, Reg.LANE_FCNT, Reg.LANE_FAULT, Reg.LANE_FADDR_LO, Reg.LANE_FADDR_HI] s t) ∧
  (∀ (o : Offers) (r p q : LaneReq) (s : State), s.votes = true → s.operate = true → s.rd F.LANE_STAT_SAFE = 0 →
    s.usableLanes = lanesABC → s.rd F.LANE_CFG_MISMATCH_POLICY = 0 → s.rd F.LANE_FAULT_VALID = 0 →
    o.a = ⟨some r, o.a.clock, false⟩ → o.b = ⟨some p, o.a.clock, false⟩ → o.c = ⟨some q, o.a.clock, false⟩ → r ≠ p → r ≠ q → p ≠ q →
    ∃ t, exec (.votedRequest o false 0 0 0) s = .next t ∧ t.rd F.LANE_STAT_SAFE = 1 ∧ t.rd F.LANE_SAFECAUSE_CAUSE = 1 ∧
      t.rd F.LANE_FAULT_CLASS = 8 ∧ t.rd F.LANE_FAULT_UNRESOLVED = 1 ∧ t.rd F.LANE_FAULT_LANES = 7 ∧ t.outputsSafe = true ∧
      t.lanes.on = false ∧ sameCore s t ∧ sameMemBut 0x60100000 0x300000 s t) ∧
  (∀ (r : LaneReq) (w : Nat) (s : State), s.votes = true → s.cordDue = false → s.operate = true → s.pairOn = false →
    s.rd F.CORD_STAT_REPLAY = 0 → s.region r.addr.toNat = Region.rack w → (s.hart r.hart).wait = HartWait.access →
    s.rackPosted w = false → s.rackUsable w r.part = true → s.firstAsk r.hart = true → s.windowHeld w = false → s.hasReady r.hart = false →
    r.kind = ReqKind.load ∨ r.kind = ReqKind.store → r.size = 2 ∨ r.size = 4 ∨ r.size = 8 → r.addr.toNat % r.size = 0 →
    ∃ t, exec (.nonpostedIssue r) s = .next t ∧ (t.hart r.hart).wait = HartWait.rack ∧
      t.rackQueue w = s.rackQueue w ++ [(⟨some r.hart, r.addr.toNat % 0x1000000, r.size, r.kind == ReqKind.store,
        if r.kind = ReqKind.store then r.data.toNat else 0, 0, false⟩ : RackAcc)] ∧
      t = { s with harts := s.harts.set r.hart { s.hart r.hart with wait := .rack }, rack := { s.rack with queues := t.rack.queues } }) ∧
  (∀ (who : Requester) (w : Word) (s : State), s.mustWait = false → w.getLsbD 31 = true →
    ∃ t, exec (.laneEccClr who w) s = .next t ∧ t.rd F.LANE_ECC_CORR_A = 0 ∧ t.rd F.LANE_ECC_CORR_B = 0 ∧ t.rd F.LANE_ECC_CORR_C = 0 ∧
      t = { s with regs := t.regs } ∧ onlyFlds [F.LANE_ECC_CORR_A, F.LANE_ECC_CORR_B, F.LANE_ECC_CORR_C] s t) ∧
  (∀ (who : Requester) (w : Word) (s : State), s.mustWait = false → w.getLsbD 31 = false → ∃ t, exec (.laneEccClr who w) s = .next t ∧ t = s) ∧
  (∀ (o : Offers) (r : LaneReq) (k : Nat) (miss : Bool) (nA nB nC : Nat) (s : State), s.votes = true → 2 ≤ s.usableLanes.length →
    (∀ l ∈ s.usableLanes, Offers.of o l = ⟨some r, k, false⟩) →
    ∃ v t, v = State.eccCount1 (State.eccCount1 (State.eccCount1 s .a nA) .b nB) .c nC ∧ exec (.votedRequest o miss nA nB nC) s = .next t ∧
      v.rd F.LANE_ECC_CORR_A = min (s.rd F.LANE_ECC_CORR_A + nA) (2 ^ F.LANE_ECC_CORR_A.w - 1) ∧
      v.rd F.LANE_ECC_CORR_B = min (s.rd F.LANE_ECC_CORR_B + nB) (2 ^ F.LANE_ECC_CORR_B.w - 1) ∧
      v.rd F.LANE_ECC_CORR_C = min (s.rd F.LANE_ECC_CORR_C + nC) (2 ^ F.LANE_ECC_CORR_C.w - 1) ∧ t = State.passReq v r miss) ∧
  (∀ (l : LaneId) (o : Offers) (r : LaneReq) (k : Nat) (miss : Bool) (s : State), s.votes = true → s.usableLanes = lanesABC →
    s.rd F.CORD_STAT_REPLAY = 0 → (∀ m ∈ lanesABC, m = l ∨ Offers.of o m = ⟨some r, k, false⟩) →
    ∃ t, exec (.voteMissingTimeout l o miss) s = .next t ∧
      t = State.passReq (State.fence (State.faultRecord s .missing [l] false r.part.toNat r.hart.val r.addr.toNat) l) r miss) ∧
  (∀ (l m : LaneId) (o : Offers) (r : LaneReq) (k : Nat) (miss : Bool) (s : State), s.votes = true →
    s.usableLanes = [l, m] ∨ s.usableLanes = [m, l] → Offers.of o m = ⟨some r, k, false⟩ → l ≠ m →
    ∃ t, exec (.voteMissingTimeout l o miss) s = .next t ∧ t = State.unresolved s .missing r.part.toNat r.hart.val r.addr.toNat) ∧
  (∀ (r : LaneReq) (w : Nat) (s : State), s.region r.addr.toNat = Region.rack w →
    s.cordDue = true ∨ (s.hart r.hart).wait ≠ HartWait.access ∨ s.firstAsk r.hart = false ∨ s.windowHeld w = true ∨ s.rackPosted w = true →
    ∃ t, exec (.nonpostedIssue r) s = .next t ∧ t = s)

/-- Setup registers and SETUP_LOCK (R11, R22, R29, R30, R567, R568, R571): a locked field takes a write in the Setup phase only, a write
of any register is held while the lock checks or an image load runs, and the checks end in the Operate phase or name what failed. A clause
that ends in t = s (an event before its instant or without its condition changes nothing) is the model's choice, notes/assumptions/2.md.
Where the clauses meet what notes/assumptions/28.md, notes/assumptions/29.md, notes/assumptions/39.md record, they say the model's choice. -/
def Obligations.SetupRegistersAndLock : Prop :=
  (∀ (h : HartId) (p : PartId) (n : Nat) (w : Word) (s : State), n < 64 → s.phase = Phase.setup → s.mustWait = false →
    ∃ t, exec (.setupRegWrite (.lane h p) (BitVec.ofNat 22 (Reg.RAT_BASE n)) w) s = .next t ∧
      t.rd (F.RAT_BASE_BASE n) = w.toNat % 2 ^ 28 ∧
      (s.rd F.SYS_IMG_STAT_ACCEPTED = 1 → t.rd F.SYS_IMG_STAT_MODIFIED = 1 ∧ t.reg Reg.SYS_IMG_ID = 0) ∧
      t = { s with regs := t.regs } ∧ onlyRegs [Reg.RAT_BASE n, Reg.SYS_IMG_STAT, Reg.SYS_IMG_ID] s t ∧
      (s.rd F.SYS_IMG_STAT_ACCEPTED = 0 → onlyRegs [Reg.RAT_BASE n] s t)) ∧
  (∀ (who : Requester) (n : Nat) (w : Word) (s : State), n < 64 → s.phase = Phase.operate → s.mustWait = false →
    ∃ t, exec (.setupRegWrite who (BitVec.ofNat 22 (Reg.RAT_BASE n)) w) s = .next t ∧ t = { s with regs := t.regs } ∧ onlyFlds [] s t) ∧
  (∀ (who : Requester) (off : BitVec 22) (w : Word) (s : State), s.phase = Phase.locking → off.toNat % 4 = 0 →
    off.toNat ≠ Reg.SYS_IMG_CMD ∨ s.rd F.SYS_IMG_STAT_BUSY = 0 →
    ∃ t, exec (.setupRegWrite who off w) s = .next t ∧ t = { s with heldWrites := s.heldWrites ++ [(who, off.toNat, w)] }) ∧
  (∀ (who : Requester) (off : BitVec 22) (w : Word) (s : State), s.phase ≠ Phase.reset → s.mustWait = false → off.toNat % 4 = 0 →
    ∃ t, exec (.setupRegWrite who off w) s = .next t ∧ t = State.setupWrite s who off.toNat w) ∧
  (∀ (who : Requester) (off : BitVec 22) (w : Word) (s : State), s.phase = Phase.reset ∨ off.toNat % 4 ≠ 0 →
    ∃ t, exec (.setupRegWrite who off w) s = .next t ∧ t = s) ∧
  (∀ (who : Requester) (off : Nat) (w : Word) (l : List (Requester × Nat × Word)) (s : State), s.writesHeld = false →
    s.heldWrites = (who, off, w) :: l →
    ∃ t, exec .heldSetupWriteApply s = .next t ∧ t = State.setupWrite { s with heldWrites := l } who off w) ∧
  (∀ s : State, s.writesHeld = true ∨ s.heldWrites = [] → ∃ t, exec .heldSetupWriteApply s = .next t ∧ t = s) ∧
  (∀ (h : HartId) (p : PartId) (w : Word) (s : State), s.phase = Phase.setup → s.mustWait = false →
    w.toNat % 65536 = 0x4C4B →
    ∃ t, exec (.setupLockRequest h p w) s = .next t ∧ t.phase = Phase.locking ∧ t.rd F.SYS_PHASE_LOCK_BUSY = 1 ∧
      t = { s with phase := .locking, regs := t.regs, harts := s.harts.set h { s.hart h with wait := .lock } } ∧
      onlyFlds [F.SYS_PHASE_OPERATE, F.SYS_PHASE_LOCK_BUSY] s t) ∧
  (∀ (h : HartId) (p : PartId) (w : Word) (s : State), s.mustWait = true → s.locks (.lane h p) Reg.SYS_LOCK w = true →
    ∃ t, exec (.setupLockRequest h p w) s = .next t ∧ t = { s with
      harts := s.harts.set h { s.hart h with wait := .lock }, heldWrites := s.heldWrites ++ [(Requester.lane h p, Reg.SYS_LOCK, w)] }) ∧
  (∀ (h : HartId) (p : PartId) (w : Word) (s : State), s.phase ≠ Phase.reset → s.mustWait = true → s.locks (.lane h p) Reg.SYS_LOCK w = false →
    ∃ t, exec (.setupLockRequest h p w) s = .next t ∧ t = { s with heldWrites := s.heldWrites ++ [(Requester.lane h p, Reg.SYS_LOCK, w)] }) ∧
  (∀ (h : HartId) (p : PartId) (w : Word) (s : State), s.mustWait = false → s.phase ≠ Phase.setup ∨ w.toNat % 65536 ≠ 0x4C4B →
    ∃ t, exec (.setupLockRequest h p w) s = .next t ∧ t = s) ∧
  (∀ (a b c : SigOffer) (ns k : Nat) (s : State), s.phase = Phase.locking → s.rd F.LANE_STAT_SAFE = 0 → (s.lockErr true).1 = k → k ≠ 0 →
    ∃ t, exec (.setupLockChecksEnd a b c ns) s = .next t ∧ t.phase = Phase.setup ∧ t.rd F.SYS_PHASE_LOCK_ERR = k ∧
      t.rd F.SYS_PHASE_LOCK_BUSY = 0 ∧ (∀ h ∈ allHarts, (s.hart h).wait = HartWait.lock → (t.hart h).wait = HartWait.run) ∧
      t.pwr = s.pwr ∧ t.tb = s.tb ∧ t.mem = s.mem) ∧
  (∀ (a b c : SigOffer) (ns : Nat) (s : State), s.phase = Phase.locking → s.rd F.LANE_STAT_SAFE = 0 → (s.lockErr true).1 = 0 → s.sigVote a b c = Verdict.agreed →
    ∃ t, exec (.setupLockChecksEnd a b c ns) s = .next t ∧ t.phase = Phase.operate ∧ t.rd F.SYS_PHASE_OPERATE = 1 ∧
      t.rd F.SYS_PHASE_LOCK_BUSY = 0 ∧ t.rd F.SYS_PHASE_LOCK_ERR = s.rd F.SYS_PHASE_LOCK_ERR ∧ t.pwr.relay = true ∧ t.pwr.safeN = true ∧
      t.rd F.MPX_DBG_EN = 0 ∧ (t.cord.sealedRec.map (fun r : CordRec => r.num.toNat)) = some s.nextCord ∧ t.cord.undo = [] ∧ t.cord.log = [] ∧
      t.tb.raw = s.tb.raw) ∧
  (∀ (a b c : SigOffer) (ns : Nat) (l : LaneId) (k : MisClass) (s : State), s.phase = Phase.locking → s.rd F.LANE_STAT_SAFE = 0 →
    (s.lockErr true).1 = 0 → s.sigVote a b c = Verdict.odd l k →
    ∃ t, exec (.setupLockChecksEnd a b c ns) s = .next t ∧
      t = State.cordZero (State.fence (State.faultRecord (s.lockErr true).2 k [l] false 0 0 0) l) ns) ∧
  (∀ (a b c : SigOffer) (ns : Nat) (k : MisClass) (s : State), s.phase = Phase.locking → s.rd F.LANE_STAT_SAFE = 0 →
    (s.lockErr true).1 = 0 → s.sigVote a b c = Verdict.unresolved k →
    ∃ t, exec (.setupLockChecksEnd a b c ns) s = .next t ∧ t = State.unresolved (s.lockErr true).2 k 0 0 0) ∧
  (∀ (who : Requester) (w : Word) (s : State), s.phase = Phase.setup → s.mustWait = false → w.toNat % 65536 = 0x494C →
    ∃ t, exec (.imgLoadStart who w) s = .next t ∧ t.rd F.SYS_IMG_STAT_BUSY = 1 ∧ t.rd F.SYS_IMG_STAT_ACCEPTED = 0 ∧
      t.rd F.SYS_IMG_STAT_MODIFIED = 0 ∧ t.rd F.SYS_IMG_STAT_ERR = 0 ∧ t.reg Reg.SYS_IMG_ID = 0 ∧ t = { s with regs := t.regs } ∧
      onlyFlds [F.SYS_IMG_STAT_BUSY, F.SYS_IMG_STAT_ACCEPTED, F.SYS_IMG_STAT_MODIFIED, F.SYS_IMG_STAT_ERR, ⟨Reg.SYS_IMG_ID, 0, 32⟩] s t) ∧
  (∀ (who : Requester) (w : Word) (s : State), s.rd F.SYS_IMG_STAT_BUSY = 1 → ∃ t, exec (.imgLoadStart who w) s = .next t ∧ t = s) ∧
  (∀ (who : Requester) (w : Word) (s : State), s.rd F.SYS_IMG_STAT_BUSY = 0 → s.mustWait = true →
    ∃ t, exec (.imgLoadStart who w) s = .next t ∧ t = { s with heldWrites := s.heldWrites ++ [(who, Reg.SYS_IMG_CMD, w)] }) ∧
  (∀ (c : Instr) (who : Requester) (off : Nat) (w : Word) (s : State), s.mustWait = true → regWrite c = some (who, off, w) →
    ∃ t, exec c s = .next t ∧ t = { s with heldWrites := s.heldWrites ++ [(who, off, w)] })

/-- What a hart executes (R13, R94, R95, R107, R108, R113, Table 4-1): the fetch of a word; integer instructions of the RISC-V encoding
with their results, their next pc and their frame; loads and stores; branches and jumps; environment calls; words that decode to nothing;
misaligned loads; one step of a debugger. The same for the hart of the MP (R97). A clause that ends in t = s (an event before its instant
or without its condition changes nothing) is the model's choice, notes/assumptions/2.md. Where the clauses meet what
notes/assumptions/12.md, notes/assumptions/14.md, notes/assumptions/16.md, notes/assumptions/17.md, notes/assumptions/20.md,
notes/assumptions/85.md, notes/assumptions/86.md, notes/assumptions/88.md record, they say the model's choice. -/
def Obligations.HartsExecuteInstructions : Prop :=
  (∀ (h : HartId) (miss : Bool) (a : Nat) (s : State), hartFree h s → s.lanes.fetched = [] → a = (s.hart h).pc.toNat → a + 2 < 2 ^ 40 →
    s.region a = Region.plain → s.region (a + 2) = Region.plain → s.byte (s.phys a) &&& 3 = 3 →
    (s.hart h).pmpOk (s.hart h).priv Perm.x a = true → (s.hart h).pmpOk (s.hart h).priv Perm.x (a + 2) = true →
    ∃ t, exec (.instruction (.lane h) false miss) s = .next t ∧
      exec (.instruction (.lane h) false miss) { s with lanes := { s.lanes with
        fetched := [(h.val, BitVec.ofNat 32 (s.le (s.phys a) 2 + 65536 * s.le (s.phys (a + 2)) 2))] } } = .next t) ∧
  (∀ (h : HartId) (fm m : Bool) (w : Word) (f7 f3 : Nat) (rd rs1 rs2 : BitVec 5) (s : State), holdsWord h w s →
    w.toNat = f7 * 2 ^ 25 + rs2.toNat * 2 ^ 20 + rs1.toNat * 2 ^ 15 + f3 * 2 ^ 12 + rd.toNat * 2 ^ 7 + 0x33 →
    (f7, f3) ∈ [(0, 0), (0, 1), (0, 2), (0, 3), (0, 4), (0, 5), (0, 6), (0, 7), (32, 0), (32, 5), (1, 0), (1, 4), (1, 5), (1, 6), (1, 7)] →
    ∃ t, exec (.instruction (.lane h) fm m) s = .next t ∧ onlyHart h s t ∧ t.hart h = { passed (s.hart h) 4 with x := (t.hart h).x } ∧
      (∀ r < 32, r ≠ rd.toNat ∨ r = 0 → (t.hart h).xr r = (s.hart h).xr r) ∧
      (rd ≠ 0 → (t.hart h).xr rd.toNat =
        (if (f7, f3) = (0, 0) then (s.hart h).xr rs1.toNat + (s.hart h).xr rs2.toNat
        else if (f7, f3) = (32, 0) then (s.hart h).xr rs1.toNat - (s.hart h).xr rs2.toNat
        else if (f7, f3) = (0, 1) then (s.hart h).xr rs1.toNat <<< (((s.hart h).xr rs2.toNat).toNat % 64)
        else if (f7, f3) = (0, 2) then (if ((s.hart h).xr rs1.toNat).slt ((s.hart h).xr rs2.toNat) then 1 else 0)
        else if (f7, f3) = (0, 3) then (if ((s.hart h).xr rs1.toNat).ult ((s.hart h).xr rs2.toNat) then 1 else 0)
        else if (f7, f3) = (0, 4) then (s.hart h).xr rs1.toNat ^^^ (s.hart h).xr rs2.toNat
        else if (f7, f3) = (0, 5) then (s.hart h).xr rs1.toNat >>> (((s.hart h).xr rs2.toNat).toNat % 64)
        else if (f7, f3) = (32, 5) then ((s.hart h).xr rs1.toNat).sshiftRight (((s.hart h).xr rs2.toNat).toNat % 64)
        else if (f7, f3) = (0, 6) then (s.hart h).xr rs1.toNat ||| (s.hart h).xr rs2.toNat
        else if (f7, f3) = (0, 7) then (s.hart h).xr rs1.toNat &&& (s.hart h).xr rs2.toNat
        else if (f7, f3) = (1, 0) then (s.hart h).xr rs1.toNat * (s.hart h).xr rs2.toNat
        else if (f7, f3) = (1, 4) then
          (if (s.hart h).xr rs2.toNat = 0 then ~~~ 0#64 else ((s.hart h).xr rs1.toNat).sdiv ((s.hart h).xr rs2.toNat))
        else if (f7, f3) = (1, 5) then
          (if (s.hart h).xr rs2.toNat = 0 then ~~~ 0#64 else (s.hart h).xr rs1.toNat / (s.hart h).xr rs2.toNat)
        else if (f7, f3) = (1, 6) then
          (if (s.hart h).xr rs2.toNat = 0 then (s.hart h).xr rs1.toNat else ((s.hart h).xr rs1.toNat).srem ((s.hart h).xr rs2.toNat))
        else (s.hart h).xr rs1.toNat % (s.hart h).xr rs2.toNat))) ∧
  (∀ (h : HartId) (fm m : Bool) (w : Word) (imm : BitVec 12) (rd rs1 : BitVec 5) (s : State), holdsWord h w s →
    w.toNat = imm.toNat * 2 ^ 20 + rs1.toNat * 2 ^ 15 + rd.toNat * 2 ^ 7 + 0x13 →
    ∃ t, exec (.instruction (.lane h) fm m) s = .next t ∧ onlyHart h s t ∧ t.hart h = { passed (s.hart h) 4 with x := (t.hart h).x } ∧
      (∀ r < 32, r ≠ rd.toNat ∨ r = 0 → (t.hart h).xr r = (s.hart h).xr r) ∧
      (rd ≠ 0 → (t.hart h).xr rd.toNat = (s.hart h).xr rs1.toNat + imm.signExtend 64)) ∧
  (∀ (h : HartId) (fm : Bool) (w : Word) (imm : BitVec 12) (rd rs1 : BitVec 5) (a : Nat) (s : State), holdsWord h w s → s.operate = false →
    w.toNat = imm.toNat * 2 ^ 20 + rs1.toNat * 2 ^ 15 + 3 * 2 ^ 12 + rd.toNat * 2 ^ 7 + 0x03 →
    a = ((s.hart h).xr rs1.toNat + imm.signExtend 64).toNat → a % 8 = 0 → a < 2 ^ 40 → s.region a = Region.plain →
    (s.hart h).pmpOk (s.hart h).dataPriv Perm.r a = true →
    ∃ t, exec (.instruction (.lane h) fm false) s = .next t ∧ onlyHart h s t ∧ t.hart h = { passed (s.hart h) 4 with x := (t.hart h).x } ∧
      (∀ r < 32, r ≠ rd.toNat ∨ r = 0 → (t.hart h).xr r = (s.hart h).xr r) ∧
      (rd ≠ 0 → (t.hart h).xr rd.toNat = BitVec.ofNat 64 (s.le (s.phys a) 8))) ∧
  (∀ (h : HartId) (fm : Bool) (w : Word) (imm : BitVec 12) (rs1 rs2 : BitVec 5) (a : Nat) (s : State), holdsWord h w s → s.operate = false →
    s.pairOn = false →
    w.toNat = imm.toNat / 32 * 2 ^ 25 + rs2.toNat * 2 ^ 20 + rs1.toNat * 2 ^ 15 + 3 * 2 ^ 12 + imm.toNat % 32 * 2 ^ 7 + 0x23 →
    a = ((s.hart h).xr rs1.toNat + imm.signExtend 64).toNat → a % 8 = 0 → a < 2 ^ 40 → s.region a = Region.plain →
    (s.hart h).pmpOk (s.hart h).dataPriv Perm.w a = true →
    ∃ t, exec (.instruction (.lane h) fm false) s = .next t ∧ t.le (s.phys a) 8 = ((s.hart h).xr rs2.toNat).toNat ∧
      sameMemBut (s.phys a) 8 s t ∧ t.hart h = passed (s.hart h) 4 ∧
      t.lanes = { s.lanes with fetched := [], resv := s.lanes.resv.filter (fun p : Nat × Nat => p.1 == h.val || p.2 != a / 64 * 64) } ∧
      t.ecc = s.ecc.filter (fun p : Nat × Ecc => decide (p.1 < a / 64 * 8 ∨ a / 64 * 8 + 8 ≤ p.1)) ∧
      t = { s with harts := s.harts.set h (t.hart h), mem := t.mem, ecc := t.ecc, lanes := t.lanes }) ∧
  (∀ (h : HartId) (fm m : Bool) (w : Word) (imm : BitVec 13) (rs1 rs2 : BitVec 5) (s : State), holdsWord h w s → imm.toNat % 2 = 0 →
    w.toNat = imm.toNat / 4096 * 2 ^ 31 + imm.toNat / 32 % 64 * 2 ^ 25 + rs2.toNat * 2 ^ 20 + rs1.toNat * 2 ^ 15 +
      imm.toNat / 2 % 16 * 2 ^ 8 + imm.toNat / 2048 % 2 * 2 ^ 7 + 0x63 →
    ∃ t, exec (.instruction (.lane h) fm m) s = .next t ∧ onlyHart h s t ∧
      t.hart h = (if (s.hart h).xr rs1.toNat = (s.hart h).xr rs2.toNat then jumped (s.hart h) 4 ((s.hart h).pc + imm.signExtend 64)
        else passed (s.hart h) 4)) ∧
  (∀ (h : HartId) (fm m : Bool) (w : Word) (imm : BitVec 12) (rd rs1 : BitVec 5) (s : State), holdsWord h w s →
    w.toNat = imm.toNat * 2 ^ 20 + rs1.toNat * 2 ^ 15 + rd.toNat * 2 ^ 7 + 0x67 →
    ∃ t, exec (.instruction (.lane h) fm m) s = .next t ∧ onlyHart h s t ∧
      t.hart h = { jumped (s.hart h) 4 (((s.hart h).xr rs1.toNat + imm.signExtend 64) &&& ~~~ 1#64) with x := (t.hart h).x } ∧
      (∀ r < 32, r ≠ rd.toNat ∨ r = 0 → (t.hart h).xr r = (s.hart h).xr r) ∧
      (rd ≠ 0 → (t.hart h).xr rd.toNat = (s.hart h).pc + 4)) ∧
  (∀ (h : HartId) (fm m : Bool) (s : State), holdsWord h 0x73 s →
    ∃ t, exec (.instruction (.lane h) fm m) s = .next t ∧ onlyHart h s t ∧
      t.hart h = trapped (s.hart h) (if (s.hart h).priv = Priv.user then 8 else 11) 0 ((s.hart h).mtvec &&& ~~~ 3#64)) ∧
  (∀ (h : HartId) (fm m : Bool) (w : Word) (s : State), holdsWord h w s → w.toNat % 4 = 3 → decode32 w.toNat = none →
    ∃ t, exec (.instruction (.lane h) fm m) s = .next t ∧
      t.hart h = trapped (s.hart h) 2 (t.hart h).mtval ((s.hart h).mtvec &&& ~~~ 3#64) ∧
      t = { s with
        harts := s.harts.set h (t.hart h), lanes := { s.lanes with fetched := [] }, freeCtr := s.freeCtr + 1 }) ∧
  (∀ (h : HartId) (fm m : Bool) (w : Word) (imm : BitVec 12) (rd rs1 : BitVec 5) (a : Nat) (s : State), holdsWord h w s →
    w.toNat = imm.toNat * 2 ^ 20 + rs1.toNat * 2 ^ 15 + 3 * 2 ^ 12 + rd.toNat * 2 ^ 7 + 0x03 →
    a = ((s.hart h).xr rs1.toNat + imm.signExtend 64).toNat → a % 8 ≠ 0 → s.ownRules a = false →
    ∃ t, exec (.instruction (.lane h) fm m) s = .next t ∧ onlyHart h s t ∧
      t.hart h = trapped (s.hart h) 4 (BitVec.ofNat 64 a) ((s.hart h).mtvec &&& ~~~ 3#64)) ∧
  (∀ (h : HartId) (fm m : Bool) (w : Word) (imm : BitVec 12) (rd rs1 : BitVec 5) (s : State), s.canRun h = true → s.hasReady h = false →
    s.lanes.dbg.asked.contains h.val = false → s.stepping h = true → s.cord.replay = [] → s.lanes.fetched = [(h.val, w)] →
    w.toNat = imm.toNat * 2 ^ 20 + rs1.toNat * 2 ^ 15 + rd.toNat * 2 ^ 7 + 0x13 →
    ∃ t, exec (.instruction (.lane h) fm m) s = .next t ∧ State.halted t h = true ∧ State.stepping t h = false ∧
      Sparse.get t.lanes.dbg.dpc 0 h.val = (passed (s.hart h) 4).pc ∧ bits (State.dcsr t h).toNat 6 3 = 4 ∧
      (rd ≠ 0 → (t.hart h).xr rd.toNat = (s.hart h).xr rs1.toNat + imm.signExtend 64) ∧
      t = { s with harts := s.harts.set h (t.hart h), lanes := { s.lanes with fetched := [], dbg := t.lanes.dbg } }) ∧
  (∀ (h : HartId) (fm m : Bool) (s : State), s.halted h = true → s.lanes.dbg.asked.contains h.val = false → s.stepping h = false →
    ∃ t, exec (.instruction (.lane h) fm m) s = .next t ∧ t = s) ∧
  (∀ (fm m : Bool) (w : Nat) (imm : BitVec 12) (rd rs1 : BitVec 5) (s : State), mpHolds w s →
    w = imm.toNat * 2 ^ 20 + rs1.toNat * 2 ^ 15 + rd.toNat * 2 ^ 7 + 0x13 →
    ∃ t, exec (.instruction .mp fm m) s = .next t ∧ onlyMp s t ∧
      t.mp.core = { mpGone s.mp.core (s.mp.core.pc + 4) with x := t.mp.core.x } ∧
      (∀ r < 32, r ≠ rd.toNat ∨ r = 0 → MpCore.xr t.mp.core r = MpCore.xr s.mp.core r) ∧
      (rd ≠ 0 → MpCore.xr t.mp.core rd.toNat = MpCore.xr s.mp.core rs1.toNat + imm.signExtend 32)) ∧
  (∀ (fm m : Bool) (w : Nat) (imm : BitVec 12) (rs1 rs2 : BitVec 5) (a : Nat) (s : State), mpHolds w s →
    w = imm.toNat / 32 * 2 ^ 25 + rs2.toNat * 2 ^ 20 + rs1.toNat * 2 ^ 15 + 2 * 2 ^ 12 + imm.toNat % 32 * 2 ^ 7 + 0x23 →
    a = (MpCore.xr s.mp.core rs1.toNat + imm.signExtend 32).toNat → a % 4 = 0 → a < 0x80000 →
    ∃ t, exec (.instruction .mp fm m) s = .next t ∧
      (∀ k < 4, Sparse.get t.mp.sram 0 (a + k) = BitVec.ofNat 8 ((MpCore.xr s.mp.core rs2.toNat).toNat / 256 ^ k)) ∧
      (∀ p ∈ s.mp.sram, (a ≤ p.1 ∧ p.1 < a + 4) ∨ Sparse.get t.mp.sram 0 p.1 = p.2) ∧
      t = { s with mp := { s.mp with core := mpGone s.mp.core (s.mp.core.pc + 4), sram := t.mp.sram } }) ∧
  (∀ (fm m : Bool) (w : Nat) (imm : BitVec 12) (rd rs1 : BitVec 5) (a : Word) (s : State), mpHolds w s →
    w = imm.toNat * 2 ^ 20 + rs1.toNat * 2 ^ 15 + 2 * 2 ^ 12 + rd.toNat * 2 ^ 7 + 0x03 →
    a = MpCore.xr s.mp.core rs1.toNat + imm.signExtend 32 → a.toNat % 4 ≠ 0 →
    ∃ t, exec (.instruction .mp fm m) s = .next t ∧ onlyMp s t ∧
      t.mp.core = mpTrapped s.mp.core 4 a (s.mp.core.mtvec &&& ~~~ 3#32)) ∧
  (∀ (fm m : Bool) (s : State), mpHolds 0x73 s →
    ∃ t, exec (.instruction .mp fm m) s = .next t ∧ onlyMp s t ∧
      t.mp.core = mpTrapped s.mp.core 11 0 (s.mp.core.mtvec &&& ~~~ 3#32)) ∧
  (∀ (fm m : Bool) (w : Nat) (s : State), mpHolds w s → mpDecode w = none →
    ∃ t, exec (.instruction .mp fm m) s = .next t ∧
      t.mp.core = mpTrapped s.mp.core 2 t.mp.core.mtval (s.mp.core.mtvec &&& ~~~ 3#32) ∧
      t = { s with mp := { s.mp with core := t.mp.core }, freeCtr := s.freeCtr + 1 }) ∧
  (∀ (fm m : Bool) (s : State), s.mp.core.on = false ∨ s.mpIrqOf ≠ none ∨
      (s.mp.core.waits = true ∧ s.mpMip &&& s.mp.core.mieReg = 0) →
    ∃ t, exec (.instruction .mp fm m) s = .next t ∧ t = s)

/-- Interrupts of a hart, MRET, CSR instructions and DZL.SETUP (R94, R95, R107 to R109, R111, R112, R123): what a taken interrupt saves
and where it goes, at a lane hart and at the MP; what MRET restores; what a CSR instruction writes; where each of them is illegal. A
clause that ends in t = s (an event before its instant or without its condition changes nothing) is the model's choice,
notes/assumptions/2.md. Where the clauses meet what notes/assumptions/12.md, notes/assumptions/14.md, notes/assumptions/15.md,
notes/assumptions/20.md, notes/assumptions/86.md, notes/assumptions/88.md, notes/assumptions/96.md record, they say the model's choice. -/
def Obligations.TrapsReturnsAndCsrs : Prop :=
  (∀ (h : HartId) (c : Nat) (s : State), s.irqOf h = some c → s.canRun h = true → s.hasReady h = false → s.stepping h = false →
    ∃ t, exec (.interruptTake (.lane h)) s = .next t ∧
      t.hart h = trapped (s.hart h) (c + 2 ^ 63) 0 (((s.hart h).mtvec &&& ~~~ 3#64) +
        (if (s.hart h).mtvec.toNat % 4 = 1 then BitVec.ofNat 64 (4 * c) else 0)) ∧
      Sparse.lookup t.lanes.fetched h.val = none ∧
      t = { s with harts := s.harts.set h (t.hart h), lanes := { s.lanes with fetched := t.lanes.fetched } }) ∧
  (∀ (h : HartId) (c : Nat) (s : State), s.irqOf h = some c → s.canRun h = false → s.wfiEnds h = true →
    s.hasReady h = false → s.stepping h = false → s.cord.replay = [] →
    ∃ t, exec (.interruptTake (.lane h)) s = .next t ∧
      t.hart h = trapped (passed (s.hart h) 4) (c + 2 ^ 63) 0 (((s.hart h).mtvec &&& ~~~ 3#64) +
        (if (s.hart h).mtvec.toNat % 4 = 1 then BitVec.ofNat 64 (4 * c) else 0)) ∧
      t = { s with harts := s.harts.set h (t.hart h) }) ∧
  (∀ (h : HartId) (s : State), (s.mip h &&& (s.hart h).mieReg).getLsbD 11 = true → (s.hart h).priv = Priv.user ∨ (s.hart h).mie = true →
    s.irqOf h = some 11) ∧
  (∀ (h : HartId) (s : State), (s.hart h).priv = Priv.machine → (s.hart h).mie = false → s.irqOf h = none) ∧
  (∀ (h : HartId) (s : State), s.irqOf h = none → ∃ t, exec (.interruptTake (.lane h)) s = .next t ∧ t = s) ∧
  (∀ (c : Nat) (s : State), s.mpIrqOf = some c → s.mp.core.on = true → s.mp.core.waits = false →
    ∃ t, exec (.interruptTake .mp) s = .next t ∧ onlyMp s t ∧
      t.mp.core = mpTrapped s.mp.core (c + 2 ^ 31) 0 ((s.mp.core.mtvec &&& ~~~ 3#32) +
        (if s.mp.core.mtvec.toNat % 4 = 1 then BitVec.ofNat 32 (4 * c) else 0))) ∧
  (∀ s : State, s.mpIrqOf = none ∨ s.mp.core.on = false → ∃ t, exec (.interruptTake .mp) s = .next t ∧ t = s) ∧
  (∀ (h : HartId) (s : State), hartFree h s → s.lanes.fetched = [] → (s.hart h).priv = Priv.machine →
    ∃ t, exec (.mret h) s = .next t ∧ onlyHart h s t ∧
      t.hart h = { jumped (s.hart h) 4 (s.hart h).mepc with
        priv := (s.hart h).mpp, mie := (s.hart h).mpie, mpie := true, mpp := .user,
        mprv := (s.hart h).mprv && decide ((s.hart h).mpp = Priv.machine) }) ∧
  (∀ (h : HartId) (c : Instr) (s : State), hartFree h s → s.lanes.fetched = [] → (s.hart h).priv = Priv.user →
    c = .mret h ∨ c = .wfi h ∨ c = .dzcWfi h ∨ c = .dzcWfiEmber h ∨ c = .csrWrite h .rw false 1 2 0x300 ∨ c = .csrWrite h .rs false 0 3 0x7C0 →
    ∃ t, exec c s = .next t ∧ t.hart h = trapped (s.hart h) 2 (t.hart h).mtval ((s.hart h).mtvec &&& ~~~ 3#64) ∧
      t = { s with harts := s.harts.set h (t.hart h), freeCtr := s.freeCtr + 1 }) ∧
  (∀ (h : HartId) (rd rs : BitVec 5) (c : BitVec 12) (s : State), hartFree h s → s.lanes.fetched = [] → (s.hart h).priv = Priv.machine →
    c = 0x305 ∨ c = 0x340 ∨ c = 0x341 ∨ c = 0x342 ∨ c = 0x7C2 →
    ∃ t, exec (.csrWrite h .rw false rd rs c) s = .next t ∧ onlyHart h s t ∧
      t.hart h = { passed (s.hart h) 4 with
        x := (t.hart h).x,
        mtvec := if c = 0x305 then (s.hart h).xr rs.toNat &&& ~~~ 2#64 else (s.hart h).mtvec,
        mscratch := if c = 0x340 then (s.hart h).xr rs.toNat else (s.hart h).mscratch,
        mepc := if c = 0x341 then (s.hart h).xr rs.toNat &&& ~~~ 1#64 else (s.hart h).mepc,
        mcause := if c = 0x342 then (s.hart h).xr rs.toNat else (s.hart h).mcause,
        dztcmp := if c = 0x7C2 then (s.hart h).xr rs.toNat else (s.hart h).dztcmp } ∧
      (∀ r < 32, r ≠ rd.toNat ∨ r = 0 → (t.hart h).xr r = (s.hart h).xr r) ∧
      (rd ≠ 0 → (t.hart h).xr rd.toNat =
        (if c = 0x305 then (s.hart h).mtvec else if c = 0x340 then (s.hart h).mscratch else if c = 0x341 then (s.hart h).mepc
        else if c = 0x342 then (s.hart h).mcause else (s.hart h).dztcmp))) ∧
  (∀ (h : HartId) (op : CsrOp) (useImm : Bool) (rd src : BitVec 5) (c : BitVec 12) (s : State), hartFree h s → s.lanes.fetched = [] →
    s.csrExists h c.toNat = true → (op ≠ CsrOp.rw ∧ src = 0) ∨ bits c.toNat 10 2 ≠ 3 → csrTimed c.toNat = false → c ≠ 0x7C1 →
    ∃ v t, v = State.retireX s h 4 rd.toNat (if op ≠ CsrOp.rw ∨ rd ≠ 0 then BitVec.ofNat 64 ((s.csrPlain h c.toNat).getD 0) else 0) ∧
      exec (.csrWrite h op useImm rd src c) s = .next t ∧
      t = (if op = CsrOp.rw ∨ src ≠ 0 then State.csrPut v h c.toNat (csrValue op (if op ≠ CsrOp.rw ∨ rd ≠ 0 then
          BitVec.ofNat 64 ((s.csrPlain h c.toNat).getD 0) else 0) (if useImm then BitVec.ofNat 64 src.toNat else (s.hart h).xr src.toNat)).toNat
        else v)) ∧
  (∀ (h : HartId) (op : CsrOp) (useImm : Bool) (rd src : BitVec 5) (c : BitVec 12) (s : State), hartFree h s → s.lanes.fetched = [] →
    s.csrExists h c.toNat = false ∨ ((op = CsrOp.rw ∨ src ≠ 0) ∧ bits c.toNat 10 2 = 3) →
    ∃ t, exec (.csrWrite h op useImm rd src c) s = .next t ∧
      t.hart h = trapped (s.hart h) 2 (t.hart h).mtval ((s.hart h).mtvec &&& ~~~ 3#64) ∧
      t = { s with harts := s.harts.set h (t.hart h), freeCtr := s.freeCtr + 1 }) ∧
  (∀ (h : HartId) (rs1 : BitVec 5) (uimm : BitVec 12) (s : State), hartFree h s → s.lanes.fetched = [] → 3 ≤ uimm.toNat →
    (s.hart h).lpCount = 0 ∨ (s.hart h).lpMode ≠ (s.hart h).priv →
    ∃ t, exec (.dzlSetup h rs1 uimm) s = .next t ∧ onlyHart h s t ∧
      t.hart h = { (if ((s.hart h).xr rs1.toNat).setWidth 32 = 0#32 then jumped (s.hart h) 4 ((s.hart h).pc + BitVec.ofNat 64 (2 * uimm.toNat))
          else passed (s.hart h) 4) with
        lpstart := (s.hart h).pc + 4,
        lpend := (s.hart h).pc + BitVec.ofNat 64 (2 * uimm.toNat),
        lpCount := ((s.hart h).xr rs1.toNat).setWidth 32,
        lpMode := (s.hart h).priv }) ∧
  (∀ (h : HartId) (rs1 : BitVec 5) (uimm : BitVec 12) (s : State), hartFree h s → s.lanes.fetched = [] →
    uimm.toNat < 3 ∨ (s.hart h).lpCount ≠ 0 ∧ (s.hart h).lpMode = (s.hart h).priv →
    ∃ t, exec (.dzlSetup h rs1 uimm) s = .next t ∧ t.hart h = trapped (s.hart h) 2 (t.hart h).mtval ((s.hart h).mtvec &&& ~~~ 3#64) ∧
      t = { s with harts := s.harts.set h (t.hart h), freeCtr := s.freeCtr + 1 })

/-- Waits and Cord instructions of a hart (R76, R95, R119 to R122). Where the clauses meet what notes/assumptions/20.md records, they say
the model's choice. -/
def Obligations.WaitsOfHarts : Prop :=
  (∀ (h : HartId) (c : Instr) (s : State), hartFree h s → s.lanes.fetched = [] → (s.hart h).priv = Priv.machine →
    c = .wfi h ∨ c = .dzcWfi h →
    ∃ t, exec c s = .next t ∧ onlyHart h s t ∧
      t.hart h = (if s.mip h &&& (s.hart h).mieReg ≠ 0 then passed (s.hart h) 4 else { s.hart h with wait := .wfi })) ∧
  (∀ (h : HartId) (s : State), hartFree h s → s.lanes.fetched = [] → (s.hart h).priv = Priv.machine →
    s.mip h &&& (s.hart h).mieReg ≠ 0 ∨ (∃ k ∈ allHarts, k ≠ h ∧ (s.hart k).wait ≠ HartWait.wfiEmber) →
    ∃ t, exec (.dzcWfiEmber h) s = .next t ∧ onlyHart h s t ∧
      t.hart h = (if s.mip h &&& (s.hart h).mieReg ≠ 0 then passed (s.hart h) 4 else { s.hart h with wait := .wfiEmber })) ∧
  (∀ (h : HartId) (s : State), hartFree h s → s.lanes.fetched = [] → (s.hart h).priv = Priv.machine → s.operate = true → s.rd F.LANE_STAT_SAFE = 0 →
    s.mip h &&& (s.hart h).mieReg = 0 → (∀ k ∈ allHarts, k = h ∨ (s.hart k).wait = HartWait.wfiEmber) →
    ∃ t, exec (.dzcWfiEmber h) s = .next t ∧ t.pwr = { s.pwr with state := .entering } ∧
      (∀ k ∈ allHarts, t.hart k = { passed (s.hart k) 4 with wait := .wfiEmber }) ∧ t.cord.causes = s.cord.causes ||| 0x100#10 ∧
      t = { s with harts := t.harts, pwr := t.pwr, cord := { s.cord with causes := t.cord.causes, reqRaw := t.cord.reqRaw } }) ∧
  (∀ (h : HartId) (fm m : Bool) (s : State), s.irqOf h = none → s.canRun h = false → s.wfiEnds h = true →
    s.lanes.dbg.asked.contains h.val = false → s.stepping h = false → s.cord.replay = [] →
    ∃ t, exec (.instruction (.lane h) fm m) s = .next t ∧ t = { s with harts := s.harts.set h (passed (s.hart h) 4) }) ∧
  (∀ (h : HartId) (rd : BitVec 5) (s : State), hartFree h s → s.lanes.fetched = [] → (s.hart h).priv = Priv.machine ∨ (s.hart h).ucord = true →
    s.operate = true → s.rd F.LANE_STAT_SAFE = 0 →
    ∃ t, exec (.dzcCord h rd) s = .next t ∧ t.hart h = { s.hart h with wait := .cord rd } ∧ t.cord.causes = s.cord.causes ||| 8#10 ∧
      t = { s with harts := s.harts.set h (t.hart h), cord := { s.cord with causes := t.cord.causes, reqRaw := t.cord.reqRaw } }) ∧
  (∀ (h : HartId) (rd : BitVec 5) (s : State), hartFree h s → s.lanes.fetched = [] → (s.hart h).priv = Priv.machine ∨ (s.hart h).ucord = true →
    s.operate = false →
    ∃ t, exec (.dzcCord h rd) s = .next t ∧ onlyHart h s t ∧ t.hart h = { passed (s.hart h) 4 with x := (t.hart h).x } ∧
      (∀ r < 32, r ≠ rd.toNat ∨ r = 0 → (t.hart h).xr r = (s.hart h).xr r) ∧ (rd ≠ 0 → (t.hart h).xr rd.toNat = ~~~ 0#64)) ∧
  (∀ (h : HartId) (rd : BitVec 5) (s : State), hartFree h s → s.lanes.fetched = [] → (s.hart h).priv = Priv.user → (s.hart h).ucord = false →
    ∃ t, exec (.dzcCord h rd) s = .next t ∧ t.hart h = trapped (s.hart h) 2 (t.hart h).mtval ((s.hart h).mtvec &&& ~~~ 3#64) ∧
      t = { s with harts := s.harts.set h (t.hart h), freeCtr := s.freeCtr + 1 }) ∧
  (∀ (h : HartId) (s : State), hartFree h s → s.lanes.fetched = [] →
    ∃ t, exec (.dzcCfence h) s = .next t ∧ onlyHart h s t ∧
      t.hart h = (if (s.operate = true ∧ (∃ r ∈ s.flue.recs, r.hart = h)) ∨ (s.operate = false ∧ s.hartWrites h = true) then { s.hart h with wait := .cfence } else passed (s.hart h) 4))

/-- The interrupt controller and the timers of the harts (R101, R104 to R106, R155): claims, completions, MTIP. A clause that ends in t =
s (an event before its instant or without its condition changes nothing) is the model's choice, notes/assumptions/2.md. Where the clauses
meet what notes/assumptions/20.md, notes/assumptions/87.md record, they say the model's choice. -/
def Obligations.ClaimsAndTimers : Prop :=
  (∀ (h : HartId) (rd : BitVec 5) (k n : Nat) (s : State), hartFree h s → s.lanes.fetched = [] → (s.hart h).priv = Priv.machine →
    k < 4 → (s.hart h).dzpsel.toNat = 0x200004 + 0x1000 * k → s.plic.best k = n → n ≠ 0 →
    ∃ t, exec (.plicClaim h rd) s = .next t ∧ t.hart h = { passed (s.hart h) 4 with x := (t.hart h).x } ∧
      (∀ r < 32, r ≠ rd.toNat ∨ r = 0 → (t.hart h).xr r = (s.hart h).xr r) ∧
      (rd ≠ 0 → (t.hart h).xr rd.toNat = BitVec.ofNat 64 n) ∧
      (∀ j < 513, t.plic.isPend j = (s.plic.isPend j && decide (j ≠ n))) ∧
      (∀ j < 513, Sparse.get t.plic.claimed false j = (Sparse.get s.plic.claimed false j || decide (j = n))) ∧
      t = { s with harts := s.harts.set h (t.hart h), plic := { s.plic with pend := t.plic.pend, claimed := t.plic.claimed } }) ∧
  (∀ (h : HartId) (rd : BitVec 5) (k : Nat) (s : State), hartFree h s → s.lanes.fetched = [] → (s.hart h).priv = Priv.machine →
    k < 4 → (s.hart h).dzpsel.toNat = 0x200004 + 0x1000 * k → s.plic.best k = 0 →
    ∃ t, exec (.plicClaim h rd) s = .next t ∧ onlyHart h s t ∧ (t.hart h).xr rd.toNat = 0) ∧
  (∀ (k : Nat) (p : Plic), p.best k ≠ 0 → p.isPend (p.best k) = true ∧ p.isEnab k (p.best k) = true ∧ 0 < p.prioOf (p.best k) ∧
    (∀ j ∈ plicIds, p.isPend j = true → p.isEnab k j = true →
      p.prioOf j < p.prioOf (p.best k) ∨ p.prioOf j = p.prioOf (p.best k) ∧ p.best k ≤ j)) ∧
  (∀ (h : HartId) (rs : BitVec 5) (k n : Nat) (s : State), hartFree h s → s.lanes.fetched = [] → (s.hart h).priv = Priv.machine →
    k < 4 → (s.hart h).dzpsel.toNat = 0x200004 + 0x1000 * k → ((s.hart h).xr rs.toNat).toNat % 2 ^ 32 = n → 0 < n → n < 513 →
    s.plic.isEnab k n = true → Sparse.get s.plic.claimed false n = true →
    ∃ t, exec (.plicComplete h rs) s = .next t ∧ t.hart h = passed (s.hart h) 4 ∧
      (∀ j < 513, t.plic.isPend j = (s.plic.isPend j || (decide (j = n) && Sparse.get s.plic.merged false n))) ∧
      (∀ j < 513, Sparse.get t.plic.claimed false j = (Sparse.get s.plic.claimed false j && decide (j ≠ n))) ∧
      (∀ j < 513, Sparse.get t.plic.merged false j = (Sparse.get s.plic.merged false j && decide (j ≠ n))) ∧
      t = { s with
        harts := s.harts.set h (t.hart h),
        plic := { s.plic with pend := t.plic.pend, claimed := t.plic.claimed, merged := t.plic.merged } }) ∧
  (∀ (h : HartId) (rs : BitVec 5) (k n : Nat) (s : State), hartFree h s → s.lanes.fetched = [] → (s.hart h).priv = Priv.machine →
    k < 4 → (s.hart h).dzpsel.toNat = 0x200004 + 0x1000 * k → ((s.hart h).xr rs.toNat).toNat % 2 ^ 32 = n → s.plic.isEnab k n = false →
    ∃ t, exec (.plicComplete h rs) s = .next t ∧ onlyHart h s t ∧ t.hart h = passed (s.hart h) 4) ∧
  (∀ (h : HartId) (s : State), s.lanes.on = true → s.lanes.resuming = false → s.cord.heldSrc = [] → s.rd F.CORD_STAT_ROLLING = 0 →
    s.rd F.CORD_STAT_REPLAY = 0 → s.operate = false → s.pwr.state = PowerState.run → s.mtipNow h ≠ (s.hart h).mtip →
    ∃ t, exec (.mtipChange h) s = .next t ∧ t = { s with harts := s.harts.set h { s.hart h with mtip := s.mtipNow h } }) ∧
  (∀ (h : HartId) (s : State), s.lanes.on = true → s.cord.heldSrc = [] → s.rd F.CORD_STAT_REPLAY = 1 → s.operate = true →
    s.pwr.state = PowerState.run → s.mtipNow h ≠ (s.hart h).mtip →
    ∃ t, exec (.mtipChange h) s = .next t ∧ t = { s with cord := { s.cord with heldSrc := [(512 + h.val, s.mtipNow h)] } }) ∧
  (∀ (h : HartId) (s : State), s.mtipNow h = s.mtipSent h ∨ s.lanes.on = false → ∃ t, exec (.mtipChange h) s = .next t ∧ t = s) ∧
  (∀ (h : HartId) (rd : BitVec 5) (s : State), s.atClaim h = false →
    ∃ t v, exec (.plicClaim h rd) s = .next t ∧ exec (.plicComplete h rd) s = .next v ∧ t = s ∧ v = s) ∧
  (∀ (h : HartId) (s : State), s.mtipNow h = decide (0 ≤ (s.tb.raw - (s.hart h).dztcmp).toInt))

/-- Cords and rollback (R103, R126, R142 to R148, R156 to R164): the period's request; what a seal leaves; a lane that differs at a seal
is fenced; what a rollback restores; where restore and re-execution end in the safe state; the end of a cold resume. A clause that ends in
t = s (an event before its instant or without its condition changes nothing) is the model's choice, notes/assumptions/2.md. Where the
clauses meet what notes/assumptions/21.md, notes/assumptions/98.md record, they say the model's choice. -/
def Obligations.CordsSealAndRestore : Prop :=
  (∀ s : State, s.operate = true → s.rd F.LANE_STAT_SAFE = 0 → s.lanes.on = true → s.pwr.state = PowerState.run →
    s.rd F.CORD_STAT_REPLAY = 0 → s.rd F.CORD_STAT_ROLLING = 0 → reached s.raw (s.sealRaw + s.rd F.CORD_PERIOD_PERIOD * 500) = true →
    ∃ t, exec .cordPeriodExpiry s = .next t ∧ t.cord.causes = s.cord.causes ||| 2#10 ∧
      t.cord.reqRaw = (if s.cord.causes = 0 then s.raw else s.cord.reqRaw) ∧
      t = { s with cord := { s.cord with causes := t.cord.causes, reqRaw := t.cord.reqRaw } }) ∧
  (∀ s : State, s.operate = true → s.rd F.LANE_STAT_SAFE = 0 → s.lanes.on = true → s.pwr.state = PowerState.run →
    s.rd F.CORD_STAT_REPLAY = 1 → reached s.raw (s.sealRaw + s.rd F.CORD_PERIOD_PERIOD * 500) = true →
    ∃ t, exec .cordPeriodExpiry s = .next t ∧ t = { s with cord := { s.cord with heldTrig := s.cord.heldTrig ||| 2#10 } }) ∧
  (∀ (a b c : SigOffer) (ns : Nat) (s : State), s.operate = true → s.rd F.LANE_STAT_SAFE = 0 → s.lanes.on = true → s.lanes.resuming = false →
    s.pwr.state = PowerState.run → s.pairOn = false → s.cord.causes ≠ 0 → s.cord.causes.getLsbD 9 = false → s.quietHarts = true →
    s.rd F.CORD_STAT_REPLAY = 0 → s.rd F.CORD_STAT_ROLLING = 0 → s.cord.heldSrc = [] → s.cord.replay = [] → s.tasksRest = false →
    s.sigVote a b c = Verdict.agreed →
    ∃ t, exec (.cordSeal a b c ns) s = .next t ∧ t.rd64 Reg.CORD_LAST_LO Reg.CORD_LAST_HI = s.nextCord ∧ t.sealRaw = s.raw % 2 ^ 64 ∧
      t.rd F.CORD_STAT_CAUSES = s.cord.causes.toNat ∧ t.cord.causes = 0 ∧ t.cord.undo = [] ∧ t.cord.log = [] ∧
      t.rd F.CORD_SEALTIME_LAST = ns % 2 ^ F.CORD_SEALTIME_LAST.w ∧ t.rd F.CORD_UNDO_USED = 0 ∧
      (∀ h ∈ allHarts, t.hart h = (match (s.hart h).wait with
        | .cord rd => (passed (s.hart h) 4).setX rd.toNat (BitVec.ofNat 64 s.nextCord)
        | _ => { s.hart h with wait := .run })) ∧
      (∀ x ∈ t.cord.sealedRec.toList, x.num = BitVec.ofNat 64 s.nextCord ∧ x.harts = t.harts ∧ x.plic = s.plic) ∧ t.cord.sealedRec ≠ none ∧
      (∀ r ∈ t.flue.recs, r.releasable = true ∧ (r ∈ s.flue.recs ∨ r.cord = some (BitVec.ofNat 64 s.nextCord))) ∧
      t.flue.recs.length = s.flue.recs.length ∧ t.flue.held = [] ∧
      t.le (anchorSlot s.nextCord) 8 = s.nextCord ∧ t.le (anchorSlot s.nextCord + 0x3C) 4 = 0x434F5244 ∧
      sameMemBut (anchorSlot s.nextCord) 64 s t ∧
      t = { s with
        regs := t.regs, mem := t.mem, evt := t.evt, harts := t.harts, flue := t.flue, cord := t.cord, recd := t.recd,
        lanes := { s.lanes with fetched := [], resv := [] } }) ∧
  (∀ (a b c : SigOffer) (ns : Nat) (s : State), s.operate = true → s.rd F.LANE_STAT_SAFE = 0 → s.lanes.on = true → s.lanes.resuming = false →
    s.pwr.state = PowerState.run → s.pairOn = false → s.cord.causes ≠ 0 → s.quietHarts = true → s.usableLanes = lanesABC →
    s.rd F.CORD_STAT_REPLAY = 0 → s.rd F.CORD_STAT_ROLLING = 0 → s.cord.heldSrc = [] → s.tasksRest = false → s.rd F.LANE_FAULT_VALID = 0 →
    a = ⟨a.sig, false⟩ → b = a → c.sig ≠ a.sig →
    ∃ t, exec (.cordSeal a b c ns) s = .next t ∧ t.usableLanes = [LaneId.a, LaneId.b] ∧ t.rd F.LANE_FAULT_LANES = 4 ∧
      t.rd F.LANE_FAULT_UNRESOLVED = 0 ∧ t.rd64 Reg.CORD_LAST_LO Reg.CORD_LAST_HI = s.nextCord ∧ t.cord.undo = [] ∧ t.cord.causes = 0) ∧
  (∀ s : State, s.rd F.CORD_STAT_ROLLING = 1 → s.npInFlight = false → s.rd F.LANE_STAT_SAFE = 0 → s.lanes.ready = [] →
    firstSrc (s.cord.log ++ s.cord.replay) = none → s.cord.log ≠ [] → (∀ e ∈ s.cord.undo, e.old.length = 64) →
    ∃ t, exec (.rollbackRestore false none) s = .next t ∧ restored s t ∧ t.rd F.CORD_STAT_ROLLING = 0 ∧ t.rd F.CORD_STAT_REPLAY = 1 ∧
      t.rd F.CORD_UNDO_USED = 0 ∧ t.cord.undo = [] ∧ t.cord.log = [] ∧ t.cord.replay = s.cord.log ++ s.cord.replay ∧ t.cord.liveRaw = s.raw ∧
      (∀ r ∈ s.cord.sealedRec.toList, t.harts = r.harts ∧ t.plic = r.plic) ∧ t.lanes = { s.lanes with ready := [], fetched := [], resv := [] } ∧
      t.rd F.CORD_INLOG_USED_USED = logUnits (s.cord.log ++ s.cord.replay) % 2 ^ F.CORD_INLOG_USED_USED.w ∧
      t = { s with
        regs := t.regs, mem := t.mem, ecc := t.ecc, harts := t.harts, plic := t.plic, lanes := t.lanes, cord := t.cord, rack := t.rack } ∧
      onlyFlds [F.CORD_STAT_ROLLING, F.CORD_STAT_REPLAY, F.CORD_UNDO_USED, F.CORD_RB_RESTART, F.CORD_INLOG_USED_USED,
        F.CORD_INLOG_PEAK_PEAK] s t) ∧
  (∀ (d : Bool) (u : Option Nat) (n : Nat) (s : State), s.rd F.CORD_STAT_ROLLING = 1 → s.npInFlight = false → s.rd F.LANE_STAT_SAFE = 0 →
    s.phase ≠ Phase.reset → (d = true ∧ n = 0) ∨ (d = false ∧ u = some n ∧ n < s.cord.undo.length) →
    ∃ t v, exec (.rollbackRestore d u) s = .next t ∧ v = State.undoLines s (s.cord.undo.take n) ∧ sameMemBut 0x60100000 0x300000 v t ∧ t.rd F.CORD_STAT_SAFE_CAUSE = 1 ∧ t.rd F.LANE_STAT_SAFE = 1 ∧ t.outputsSafe = true ∧
      t.lanes.on = false ∧ sameCore s t ∧ (t.evt.queue.drop s.evt.queue.length).head? = some (⟨21, [], BitVec.ofNat 64 s.ntNs, none⟩ : Raise)) ∧
  (∀ (d : Bool) (u : Option Nat) (s : State), s.rd F.CORD_STAT_ROLLING = 0 ∨ s.npInFlight = true ∨ s.rd F.LANE_STAT_SAFE = 1 →
    ∃ t, exec (.rollbackRestore d u) s = .next t ∧ t = s) ∧
  (∀ (a b c : SigOffer) (ns : Nat) (s : State), s.cord.causes = 0 ∨ s.quietHarts = false ∨ s.rd F.CORD_STAT_ROLLING = 1 ∨ s.operate = false →
    ∃ t, exec (.cordSeal a b c ns) s = .next t ∧ t = s) ∧
  (∀ (a b c : SigOffer) (ns : Nat) (k : MisClass) (s : State), s.cordsOn = true → s.cord.causes ≠ 0 → s.quietHarts = true →
    s.rd F.CORD_STAT_ROLLING = 0 → s.lanes.resuming = false → s.sigVote a b c = Verdict.unresolved k →
    ∃ t, exec (.cordSeal a b c ns) s = .next t ∧ t = State.unresolved s k 0 0 0) ∧
  (∀ (a b c : SigOffer) (ns : Nat) (s : State), s.cordsOn = true → s.cord.causes.getLsbD 9 = true → s.quietHarts = true →
    s.rd F.CORD_STAT_ROLLING = 0 → s.lanes.resuming = false → s.canAdmit = true → s.sigVote a b c = Verdict.agreed →
    ∃ t v, v = State.seal s ns ∧ exec (.cordSeal a b c ns) s = .next t ∧ t = { v with lanes := { v.lanes with resuming := true } }) ∧
  (∀ s : State, s.rd F.CORD_STAT_REPLAY = 0 → ∃ t, exec .replayTimeout s = .next t ∧ t = s) ∧
  (∀ s : State, s.lanes.resuming = false → ∃ t, exec .coldResumeDone s = .next t ∧ t = s) ∧
  (∀ s : State, reached s.raw (s.sealRaw + s.rd F.CORD_PERIOD_PERIOD * 500) = false → ∃ t, exec .cordPeriodExpiry s = .next t ∧ t = s) ∧
  (∀ (l : LaneId) (pass : Bool) (s : State), s.laneSt l ≠ LaneSt.fenced → ∃ t, exec (.laneLbistEnd l pass) s = .next t ∧ t = s) ∧
  (∀ (l : LaneId) (pass : Bool) (s : State), s.phase ≠ Phase.reset → s.laneSt l = LaneSt.fenced → s.pwr.state = PowerState.run →
    s.rd F.IST_STAT_LBIST_RUN = 1 → s.rd F.IST_STAT_LBIST_LANE = l.num →
    ∃ t, exec (.laneLbistEnd l pass) s = .next t ∧ t.laneSt l = (if pass then LaneSt.ready else LaneSt.failed) ∧
      t.rd F.IST_STAT_LBIST_RUN = 0 ∧ counted F.IST_LBIST_RUNS s t ∧ t.rd F.IST_LBIST_LAST = l.num ∧ t.rd F.IST_LBIST_LAST_PASS = b2n pass ∧
      (pass = false → counted F.IST_LBIST_FAILS s t) ∧ noted 4 [BitVec.ofNat 32 l.num, BitVec.ofNat 32 (b2n pass), t.reg Reg.IST_LBIST] s t ∧
      sameCore s t) ∧
  (∀ s : State, s.rd F.CORD_STAT_REPLAY = 1 → s.rd F.LANE_STAT_SAFE = 0 → s.phase ≠ Phase.reset →
    reached s.raw (s.cord.liveRaw + 4 * s.rd F.CORD_PERIOD_PERIOD * 500) = true →
    ∃ t, exec .replayTimeout s = .next t ∧ t.rd F.CORD_STAT_SAFE_CAUSE = 2 ∧ t.rd F.LANE_STAT_SAFE = 1 ∧ t.outputsSafe = true ∧
      t.lanes.on = false ∧ sameCore s t ∧ (t.evt.queue.drop s.evt.queue.length).head? = some (⟨22, [], BitVec.ofNat 64 s.ntNs, none⟩ : Raise)) ∧
  (∀ s : State, s.lanes.resuming = true → s.cord.heldSrc = [] → s.pair.resume = false → s.phase ≠ Phase.reset →
    ∃ t, exec .coldResumeDone s = .next t ∧ t.lanes = { s.lanes with resuming := false } ∧
      (∀ l ∈ lanesABC, t.laneSt l = (if s.laneSt l = LaneSt.ready then LaneSt.healthy else s.laneSt l)) ∧
      raised ((lanesABC.filter (fun l => s.laneSt l == LaneSt.ready)).map (fun _ => (1, ([] : List Word)))) s t ∧
      t = { s with regs := t.regs, evt := t.evt, lanes := t.lanes } ∧ onlyRegs [Reg.LANE_STAT] s t) ∧
  (∀ (l : LaneId) (s : State), s.phase ≠ Phase.reset → s.laneSt l = LaneSt.fenced → s.pwr.state = PowerState.run →
    s.rd F.IST_STAT_LBIST_RUN = 0 ∨ s.rd F.IST_STAT_LBIST_LANE ≠ l.num →
    ∃ t, exec (.laneLbistEnd l true) s = .next t ∧ t.laneSt l = LaneSt.ready ∧ t = { s with regs := t.regs } ∧ onlyFlds [laneField l, F.LANE_STAT_USABLE] s t) ∧
  (∀ (l : LaneId) (s : State), s.phase ≠ Phase.reset → s.laneSt l = LaneSt.fenced → s.pwr.state = PowerState.run →
    s.rd F.IST_STAT_LBIST_RUN = 0 ∨ s.rd F.IST_STAT_LBIST_LANE ≠ l.num →
    ∃ t, exec (.laneLbistEnd l false) s = .next t ∧ t.laneSt l = LaneSt.failed ∧ raised [(2, [])] s t ∧
      t = { s with regs := t.regs, evt := t.evt } ∧ onlyFlds [laneField l, F.LANE_STAT_USABLE] s t)

/-- The Flue (R121, R173 to R178): a sealed record in sequence reaches its destination and leaves; a duplicate is dropped; a gap ends in
the safe state; a held request enters when there is room; stalls and missing acknowledgements are reported. A clause that ends in t = s
(an event before its instant or without its condition changes nothing) is the model's choice, notes/assumptions/2.md. Where the clauses
meet what notes/assumptions/24.md, notes/assumptions/66.md record, they say the model's choice. -/
def Obligations.FlueReleasesInSequence : Prop :=
  (∀ (r : FlueRec) (rest : List FlueRec) (a : Nat) (bs : List Byte) (s : State), s.operate = true → s.flue.shut = false → s.pairOn = false →
    s.ecc = [] → s.flue.recs = r :: rest → r.kind = EffKind.store → r.bytes = addrBytes a bs → r.releasable = true → r.mirrorWait = none →
    r.seq = (s.stream r.dest).released + 1 → r ∉ rest → s.rd (F.FLUE_QUOTA_HELD r.part.toNat) ≠ 0 →
    ∃ t, exec (.flueRelease r.dest) s = .next t ∧ t.bytes a bs.length = bs ∧ sameMemBut a bs.length s t ∧ t.flue.recs = rest ∧
      t.stream r.dest = { s.stream r.dest with released := r.seq } ∧ t.rd F.FLUE_STAT_USED = rest.length % 2 ^ F.FLUE_STAT_USED.w ∧
      t.rd (F.FLUE_QUOTA_HELD r.part.toNat) = s.rd (F.FLUE_QUOTA_HELD r.part.toNat) - 1 ∧
      (∀ h ∈ allHarts, t.hart h = (if (s.hart h).wait = HartWait.cfence ∧ s.mayStep h = true ∧ (∀ x ∈ rest, x.hart ≠ h) then passed (s.hart h) 4
        else s.hart h)) ∧
      t = { s with
        regs := t.regs, mem := t.mem, flue := { s.flue with recs := rest, streams := t.flue.streams, stalled := t.flue.stalled },
        harts := t.harts, lanes := { s.lanes with fetched := t.lanes.fetched } } ∧
      onlyFlds [F.FLUE_STAT_USED, F.FLUE_STAT_FULL, F.FLUE_QUOTA_HELD r.part.toNat, F.FLUE_PEAK_PEAK] s t) ∧
  (∀ (r : FlueRec) (rest : List FlueRec) (w : Nat) (s : State), s.operate = true → s.flue.shut = false → w < 16 →
    s.flue.recs = r :: rest → r.kind = EffKind.rack → r.dest.toNat = 0x8040 + w → r.releasable = true → r.mirrorWait = none →
    s.rackAccepts w = true → r.seq = (s.stream r.dest).released + 1 → (∀ h ∈ allHarts, (s.hart h).wait ≠ HartWait.cfence) →
    ∃ t, exec (.flueRelease r.dest) s = .next t ∧ t.flue.recs = rest ∧ (t.stream r.dest).released = r.seq ∧
      t.rackQueue w = s.rackQueue w ++ [(⟨none, r.addr % 0x1000000, r.size, true, leNat (r.bytes.map (fun p : Nat × Byte => p.2)), 0, false⟩ : RackAcc)] ∧
      t = { s with
        regs := t.regs, flue := { s.flue with recs := rest, streams := t.flue.streams, stalled := t.flue.stalled },
        rack := { s.rack with queues := t.rack.queues } }) ∧
  (∀ (r : FlueRec) (rest : List FlueRec) (s : State), s.operate = true → s.flue.shut = false →
    s.flue.recs = r :: rest → r.kind = EffKind.store → r.releasable = true → r.mirrorWait = none →
    r.seq = (s.stream r.dest).released → (∀ h ∈ allHarts, (s.hart h).wait ≠ HartWait.cfence) →
    ∃ t, exec (.flueRelease r.dest) s = .next t ∧ t.flue.recs = rest ∧
      t.rd F.FLUE_DUP_DUP = min (s.rd F.FLUE_DUP_DUP + 1) (2 ^ F.FLUE_DUP_DUP.w - 1) ∧ raised [(36, [r.dest.setWidth 32, r.seq])] s t ∧
      t = { s with regs := t.regs, evt := t.evt, flue := { s.flue with recs := rest, stalled := t.flue.stalled } }) ∧
  (∀ (r : FlueRec) (rest : List FlueRec) (s : State), s.operate = true → s.flue.shut = false → s.rd F.LANE_STAT_SAFE = 0 →
    s.flue.recs = r :: rest → r.kind = EffKind.store → r.releasable = true → r.mirrorWait = none → r.seq = (s.stream r.dest).released + 2 →
    (∀ h ∈ allHarts, (s.hart h).wait ≠ HartWait.cfence) →
    ∃ t, exec (.flueRelease r.dest) s = .next t ∧ t.rd F.FLUE_STAT_SEQ_ERR = 1 ∧ t.rd F.LANE_STAT_SAFE = 1 ∧ t.flue.recs = [] ∧
      t.flue.shut = true ∧ t.outputsSafe = true ∧ sameCore s t) ∧
  (∀ (r : LaneReq) (n : Nat) (s : State), s.operate = true → s.flue.shut = false → s.cordDue = false → s.flue.held = [r] →
    r.kind = ReqKind.store → r.size ≤ 8 → (∀ k < r.size, r.mask.getLsbD k = true) →
    s.region r.addr.toNat = Region.effect n → n < 64 → s.rd (F.FLUE_QUOTA_QUOTA r.part.toNat) ≠ 0 →
    s.rd (F.FLUE_QUOTA_HELD r.part.toNat) < s.rd (F.FLUE_QUOTA_QUOTA r.part.toNat) → s.flue.recs.length < 1535 →
    s.rd F.FLUE_CFG_MERGE_EN = 0 → s.pairOn = false →
    ∃ t, exec .flueHeldEntry s = .next t ∧ t.flue.held = [] ∧
      t.flue.recs = s.flue.recs ++ [(⟨r.hart, r.part, BitVec.ofNat 16 (0x8000 + n), (s.stream (BitVec.ofNat 16 (0x8000 + n))).entered + 1, .store,
        r.addr.toNat, r.size, addrBytes r.addr.toNat (leBytes r.size r.data.toNat), [], false, none, none, 0⟩ : FlueRec)] ∧
      t.rd (F.FLUE_QUOTA_HELD r.part.toNat) = s.rd (F.FLUE_QUOTA_HELD r.part.toNat) + 1 ∧
      Sparse.lookup t.lanes.ready r.hart.val = some (⟨0, none, none⟩ : Ready) ∧
      t = { s with
        regs := t.regs, flue := { s.flue with recs := t.flue.recs, held := [], streams := t.flue.streams },
        lanes := { s.lanes with ready := t.lanes.ready } }) ∧
  (∀ (r : FlueRec) (rest : List FlueRec) (s : State), s.operate = true → s.flue.recs = r :: rest → r.kind = EffKind.rack → r.releasable = true →
    s.rd F.FLUE_CFG_STALL_TMO ≠ 0 → Sparse.get s.flue.stalled false r.dest.toNat = false →
    reached s.raw (r.since + s.rd F.FLUE_CFG_STALL_TMO * 50000) = true → s.rd F.FLUE_STALL_VALID = 0 →
    ∃ t, exec (.flueDestStall r.dest) s = .next t ∧ t.rd F.FLUE_STALL_DEST = r.dest.toNat ∧ t.rd F.FLUE_STALL_VALID = 1 ∧
      raised [(35, [r.dest.setWidth 32])] s t ∧ Sparse.get t.flue.stalled false r.dest.toNat = true ∧
      t = { s with regs := t.regs, evt := t.evt, flue := { s.flue with stalled := t.flue.stalled } } ∧
      onlyFlds [F.FLUE_STALL_DEST, F.FLUE_STALL_VALID] s t) ∧
  (∀ (k raw : Nat) (l : List (Nat × Nat)) (s : State), s.operate = true → s.isActive = true → s.pair.unacked = (k, raw) :: l →
    reached s.raw (raw + 750) = true →
    ∃ t, exec .fluePairNoack s = .next t ∧ t.pair.unacked = l ∧ t.rd F.PAIR_STAT_OUT_OF_STEP = 1 ∧
      t.rd F.FLUE_DUP_NOACK = min (s.rd F.FLUE_DUP_NOACK + 1) (2 ^ F.FLUE_DUP_NOACK.w - 1) ∧
      raised [(37, [BitVec.ofNat 32 k, BitVec.ofNat 32 (k / 2 ^ 32)]), (421, [1])] s t ∧
      (∀ r ∈ t.flue.recs, ∀ n ∈ r.mirrorWait.toList, k < n) ∧
      t = { s with regs := t.regs, evt := t.evt, pair := { s.pair with unacked := l, noack := some (BitVec.ofNat 64 k) }, flue := { s.flue with recs := t.flue.recs } } ∧
      onlyFlds [F.PAIR_STAT_OUT_OF_STEP, F.FLUE_DUP_NOACK] s t) ∧
  (∀ (d : BitVec 16) (r : FlueRec) (s : State), s.operate = true → s.flue.shut = false → s.releaseNext d = some r →
    r.seq = (s.stream r.dest).released + 1 →
    ∃ t v, v = State.setStream (State.dropFlue s r) r.dest { s.stream r.dest with released := r.seq } ∧ exec (.flueRelease d) s = .next t ∧
      t = allHarts.foldl State.fenceRetire (State.takeRec v r)) ∧
  (∀ (d : BitVec 16) (s : State), s.operate = false ∨ s.flue.shut = true ∨ s.releaseNext d = none →
    ∃ t, exec (.flueRelease d) s = .next t ∧ t = s) ∧
  (∀ s : State, s.operate = false ∨ s.cordDue = true ∨ s.flue.held = [] → ∃ t, exec .flueHeldEntry s = .next t ∧ t = s) ∧
  (∀ (d : BitVec 16) (s : State), s.rd F.FLUE_CFG_STALL_TMO = 0 ∨ s.oldestOf d = none ∨ Sparse.get s.flue.stalled false d.toNat = true →
    ∃ t, exec (.flueDestStall d) s = .next t ∧ t = s) ∧
  (∀ s : State, s.pair.unacked = [] → ∃ t, exec .fluePairNoack s = .next t ∧ t = s)

/-- The clear registers (R141, R167, R194, R292 and their like): a 1 in a CLR bit sets the counters and peaks it names to 0 and changes
nothing else; a 0 changes nothing. -/
def Obligations.ClearRegistersClear : Prop :=
  (∀ (who : Requester) (w : Word) (s : State), s.mustWait = false → ∃ t, exec (.cordClr who w) s = .next t ∧
    clears w [(0, [F.CORD_UNDO_PEAK, F.CORD_INLOG_PEAK_PEAK, F.CORD_SEALTIME_MAX]), (1, [F.CORD_FCNT_UNDO_FORCED, F.CORD_FCNT_INLOG_FORCED])] s t) ∧
  (∀ (who : Requester) (w : Word) (s : State), s.mustWait = false → ∃ t, exec (.flueClr who w) s = .next t ∧
    clears w [(0, [F.FLUE_PEAK_PEAK]), (1, [⟨Reg.FLUE_DISC, 0, 32⟩, ⟨Reg.FLUE_FCNT, 0, 32⟩, ⟨Reg.FLUE_DUP, 0, 32⟩])] s t) ∧
  (∀ (who : Requester) (w : Word) (s : State), s.mustWait = false → ∃ t, exec (.partMonClr who w) s = .next t ∧
    t = (if w.getLsbD 0 = true then { s with parts := { s.parts with mon := [] } } else s)) ∧
  (∀ (n : Fin 3) (who : Requester) (w : Word) (s : State), s.mustWait = false → ∃ t, exec (.crClr n who w) s = .next t ∧
    clears w [(0, [F.CR_MISSED_MISSED n.val, F.CR_RTT_MAX n.val] ++
      (List.range 32).map (fun k => (⟨Reg.CR_PORT_00 (4 * n.val + k / 8) + 4 * (k % 8), 0, 32⟩ : Fld)))] s t) ∧
  (∀ (who : Requester) (w : Word) (s : State), s.mustWait = false → ∃ t, exec (.cbClr who w) s = .next t ∧
    clears w [(0, [(⟨Reg.CB_CNT, 0, 32⟩ : Fld), F.CB_SYNCDEV_MAX] ++
      (List.range 32).map (fun k => (⟨Reg.CB_PORT_00 (k / 8) + 4 * (k % 8), 0, 32⟩ : Fld)))] s t) ∧
  (∀ (who : Requester) (w : Word) (s : State), s.mustWait = false → ∃ t, exec (.sigClr who w) s = .next t ∧
    clears w [(0, [⟨Reg.SIG_DROPS, 0, 32⟩, ⟨Reg.SIG_PASS, 0, 32⟩])] s t) ∧
  (∀ (who : Requester) (w : Word) (s : State), s.mustWait = false → ∃ t, exec (.gwClr who w) s = .next t ∧
    clears w [(0, [⟨Reg.GW_RUNS, 0, 32⟩, ⟨Reg.GW_WAIT, 0, 32⟩])] s t) ∧
  (∀ (who : Requester) (w : Word) (s : State), s.mustWait = false → ∃ t, exec (.rbClr who w) s = .next t ∧
    clears w [(0, [⟨Reg.RB_PERR_CNT, 0, 32⟩, ⟨Reg.RB_AERR_CNT, 0, 32⟩, ⟨Reg.RB_CYCLES, 0, 32⟩, ⟨Reg.RB_STUCK, 0, 32⟩])] s t) ∧
  (∀ (who : Requester) (w : Word) (s : State), s.mustWait = false → ∃ t, exec (.cycClr who w) s = .next t ∧
    clears w [(0, [(⟨Reg.CYC_IDLE, 0, 32⟩ : Fld), (⟨Reg.CYC_CNT, 0, 32⟩ : Fld)] ++ (List.range 64).map (fun k => F.TASK_TIME_MAX k))] s t) ∧
  (∀ (who : Requester) (w : Word) (s : State), s.mustWait = false → ∃ t, exec (.fldClr who w) s = .next t ∧
    clears w [(0, allIslands.flatMap (fun i => [F.FLD_LNK_FAULTS i, F.FLD_LNK_CRC_ERR i]))] s t) ∧
  (∀ (who : Requester) (w : Word) (s : State), s.mustWait = false → ∃ t, exec (.fldAiSyncStatClr who w) s = .next t ∧
    clears w [(31, [F.FLD_AI_SYNC_STAT_SYNCS, F.FLD_AI_SYNC_STAT_MERGED])] s t) ∧
  (∀ (who : Requester) (w : Word) (s : State), s.mustWait = false → ∃ t, exec (.safClr who w) s = .next t ∧ clears w [(0, [⟨Reg.SAF_CNT, 0, 32⟩])] s t) ∧
  (∀ (who : Requester) (w : Word) (s : State), s.mustWait = false → ∃ t, exec (.pairClr who w) s = .next t ∧
    clears w [(0, [⟨Reg.PAIR_CNT, 0, 32⟩, F.PAIR_MIRROR_PEAK, F.PAIR_STAGE_PEAK, F.PAIR_NT_DEV_MAX])] s t) ∧
  (∀ (who : Requester) (w : Word) (s : State), s.mustWait = false → ∃ t, exec (.recClr who w) s = .next t ∧
    clears w [(0, [F.REC_SAMPLES_SAMPLES, F.REC_DROP_DROPS])] s t) ∧
  (∀ (who : Requester) (w : Word) (s : State), s.mustWait = false → ∃ t, exec (.istClr who w) s = .next t ∧
    clears w [(0, [F.IST_LBIST_RUNS, F.IST_LBIST_FAILS, F.IST_SCRUB_PASSES, F.IST_SCRUB_CORR, F.IST_CAL_RECAL])] s t)

/-- Records end commands (R203 to R207, R218): what the one record of a short command is and where it stands; a long command's ACCEPTED
record; final records in submission order. Every statement about a command of a ring says its end in these operations. Where the clauses
meet what notes/assumptions/42.md records, they say the model's choice. -/
def Obligations.RecordsEndCommands : Prop :=
  (∀ (e : Nat) (c : Cmd) (f : Final) (s : State), s.rd F.LANE_STAT_SAFE = 0 → s.ecc = [] → s.pairOn = false → (s.ctx c.ring).mp = false →
    ∃ v, v = s.finish e c f ∧ recordStands c f.status true f.detail f.res s v ∧ v.hand e = none ∧
      v.ctx c.ring = { s.ctx c.ring with
        cqTail := (s.ctx c.ring).cqTail + 1, sqHead := (s.ctx c.ring).sqHead + 1,
        st := if (s.ctx c.ring).sqHead + 1 = (s.ctx c.ring).sqTail then .idle else .busy } ∧
      (∀ k < 25, k ≠ e → v.hand k = s.hand k) ∧
      v = { s with
        mem := v.mem, evt := { s.evt with queue := v.evt.queue },
        rings := { s.rings with ctx := v.rings.ctx, hand := v.rings.hand, batches := v.rings.batches } }) ∧
  (∀ (e : Nat) (c : Cmd) (s : State), s.rd F.LANE_STAT_SAFE = 0 → s.ecc = [] → s.pairOn = false → (s.ctx c.ring).mp = false →
    ∃ v, v = s.accept e c ∧ recordStands c 0x01 false 0 [] s v ∧ v.hand e = none ∧
      v.rings.out = s.rings.out ++ [{ c with long := true, ntAcc := BitVec.ofNat 32 s.ntNs }] ∧
      v.ctx c.ring = { s.ctx c.ring with
        cqTail := (s.ctx c.ring).cqTail + 1, sqHead := (s.ctx c.ring).sqHead + 1, longOut := (s.ctx c.ring).longOut + 1,
        st := if (s.ctx c.ring).sqHead + 1 = (s.ctx c.ring).sqTail then .idle else .busy } ∧
      v = { s with
        mem := v.mem, evt := { s.evt with queue := v.evt.queue },
        rings := { s.rings with ctx := v.rings.ctx, hand := v.rings.hand, batches := v.rings.batches, out := v.rings.out } }) ∧
  (∀ (c d : Cmd) (rest : List Cmd) (f : Final) (s : State), s.rings.out = d :: rest → d.ring = c.ring → d.pos ≠ c.pos → d.fin = none →
    s.endLong c f = { s with rings := { s.rings with out := d :: markFin c.ring c.pos f rest } }) ∧
  (∀ (c : Cmd) (rest : List Cmd) (f : Final) (s : State), s.rd F.LANE_STAT_SAFE = 0 → s.ecc = [] → s.pairOn = false →
    (s.ctx c.ring).mp = false → s.rings.out = c :: rest → (∀ d ∈ rest, d.ring ≠ c.ring) →
    ∃ v, v = s.endLong c f ∧ recordStands c f.status true f.detail f.res s v ∧ v.rings.out = rest ∧
      v.ctx c.ring = { s.ctx c.ring with cqTail := (s.ctx c.ring).cqTail + 1, longOut := (s.ctx c.ring).longOut - 1 } ∧
      v = { s with
        mem := v.mem, evt := { s.evt with queue := v.evt.queue }, rings := { s.rings with ctx := v.rings.ctx, out := rest } }) ∧
  (∀ (c d : Cmd) (rest : List Cmd) (f g : Final) (s : State), s.rd F.LANE_STAT_SAFE = 0 → s.rings.out = c :: d :: rest → d.ring = c.ring →
    d.pos ≠ c.pos → d.fin = some g → (∀ x ∈ rest, x.ring ≠ c.ring) →
    ∃ v, v = s.endLong c f ∧ v.rings.out = rest ∧ (v.ctx c.ring).cqTail = (s.ctx c.ring).cqTail + 2)

/-- Engines take descriptors (R206, R209, R211, R225, R226): the slot of an engine with work, the common opcodes, the halting of a ring
and the context window. A clause that ends in t = s (an event before its instant or without its condition changes nothing) is the model's
choice, notes/assumptions/2.md. Where the clauses meet what notes/assumptions/40.md, notes/assumptions/41.md record, they say the model's
choice. -/
def Obligations.EnginesTakeDescriptors : Prop :=
  (∀ (e : EngineId) (p r : Nat) (s : State), e ≠ 0 → s.running = true → s.acts = true → s.tb.locked = true → s.slotRuns e.val = none →
    s.raw % 200 = 0 → s.ecc = [] →
    s.slotServes e.val = some p → s.ownWork e.val p = false → s.ringTurn e.val p = some r → (s.ctx (BitVec.ofNat 15 r)).st = RingSt.busy →
    s.takeStep (BitVec.ofNat 15 r) true (engKind e.val) = TakeStep.go → engKind e.val (s.headCmd (BitVec.ofNat 15 r)) s = OpKind.short →
    ∃ t, exec (.engineSlotStart e) s = .next t ∧ t.hand e.val = some (s.headCmd (BitVec.ofNat 15 r)) ∧
      Sparse.lookup t.rings.lastPart e.val = some p ∧ Sparse.lookup t.rings.lastRing (256 * e.val + p) = some r ∧
      Sparse.lookup t.rings.slotRaw e.val = some s.raw ∧
      t = { s with rings := { s.rings with
        ctx := t.rings.ctx, hand := t.rings.hand, lastPart := t.rings.lastPart, lastRing := t.rings.lastRing, slotRaw := t.rings.slotRaw } } ∧
      (t.ctx (BitVec.ofNat 15 r)) = s.ctx (BitVec.ofNat 15 r)) ∧
  (∀ (e : EngineId) (p r : Nat) (s : State), e ≠ 0 → s.running = true → s.acts = true → s.tb.locked = true → s.slotRuns e.val = none →
    s.raw % 200 = 0 → s.ecc = [] →
    s.slotServes e.val = some p → s.ownWork e.val p = false → s.ringTurn e.val p = some r → (s.ctx (BitVec.ofNat 15 r)).st = RingSt.busy →
    s.takeStep (BitVec.ofNat 15 r) true (engKind e.val) = TakeStep.go → engKind e.val (s.headCmd (BitVec.ofNat 15 r)) s = OpKind.unknown →
    ∃ t, exec (.engineSlotStart e) s = .next t ∧ t.hand e.val = s.hand e.val ∧
      (t.ctx (BitVec.ofNat 15 r)).sqHead = (s.ctx (BitVec.ofNat 15 r)).sqHead + 1 ∧
      (t.ctx (BitVec.ofNat 15 r)).cqTail = (s.ctx (BitVec.ofNat 15 r)).cqTail + 1 ∧
      t.evt.queue = s.evt.queue ++ recordRaises (s.headCmd (BitVec.ofNat 15 r)) 0x20 true (BitVec.ofNat 64 s.ntNs)) ∧
  (∀ (e : EngineId) (p r : Nat) (s : State), e ≠ 0 → s.running = true → s.acts = true → s.tb.locked = true → s.slotRuns e.val = none →
    s.raw % 200 = 0 → s.ecc = [] → s.slotServes e.val = some p → s.ownWork e.val p = false → s.ringTurn e.val p = some r →
    s.takeStep (BitVec.ofNat 15 r) true (engKind e.val) = TakeStep.waitFence ∨ s.takeStep (BitVec.ofNat 15 r) true (engKind e.val) = TakeStep.waitLong →
    ∃ t, exec (.engineSlotStart e) s = .next t ∧ t.hand e.val = s.hand e.val ∧
      t.ctx (BitVec.ofNat 15 r) = { s.ctx (BitVec.ofNat 15 r) with
        st := if s.takeStep (BitVec.ofNat 15 r) true (engKind e.val) = TakeStep.waitFence then .waitFence else .waitLong } ∧ t.evt = s.evt ∧ t.mem = s.mem) ∧
  (∀ (e : EngineId) (p r : Nat) (s : State), e ≠ 0 → s.running = true → s.acts = true → s.tb.locked = true → s.slotRuns e.val = none →
    s.raw % 200 = 0 → s.ecc = [] → s.slotServes e.val = some p → s.ownWork e.val p = false → s.ringTurn e.val p = some r →
    s.takeStep (BitVec.ofNat 15 r) true (engKind e.val) = TakeStep.waitSpace → (s.ctx (BitVec.ofNat 15 r)).st ≠ RingSt.waitSpace →
    ∃ t, exec (.engineSlotStart e) s = .next t ∧ t.hand e.val = s.hand e.val ∧ (t.ctx (BitVec.ofNat 15 r)).st = RingSt.waitSpace ∧
      (t.ctx (BitVec.ofNat 15 r)).sqHead = (s.ctx (BitVec.ofNat 15 r)).sqHead ∧
      t.evt.queue = s.evt.queue ++ [(⟨66, [BitVec.ofNat 32 ((BitVec.ofNat 15 r).toNat)], BitVec.ofNat 64 s.ntNs, some (BitVec.ofNat 15 r)⟩ : Raise)] ∧
      t.mem = s.mem) ∧
  (∀ (e : EngineId) (s : State), s.running = false ∨ s.acts = false ∨ s.tb.locked = false ∨
      (s.slotRuns e.val = none ∧ (s.raw % 200 ≠ 0 ∨ s.slotServes e.val = none)) ∨ (s.slotRuns e.val ≠ none ∧ (s.hand e.val).isSome = true) →
    ∃ t, exec (.engineSlotStart e) s = .next t ∧ t = s) ∧
  (∀ (e : EngineId) (c : Cmd) (s : State), inHand e.val 0x00 c s → e ≠ 0 ∨ s.sig.ops ≠ 0 →
    ∃ t, exec (.nop e) s = .next t ∧ t = State.finish (if e = 0 then s.spend 1 else s) e.val c
      (if c.headerOk = true ∧ c.zeroFrom 8 = true then ⟨0x00, 0, []⟩ else ⟨0x20, 0, []⟩)) ∧
  (∀ (c : Cmd) (s : State), inHand 0 0x00 c s → s.sig.ops = 0 → ∃ t, exec (.nop 0) s = .next t ∧ t = s) ∧
  (∀ (e : EngineId) (c : Cmd) (r : RingId) (s : State), inHand e.val 0x01 c s → e ≠ 0 ∨ s.sig.ops ≠ 0 →
    r = BitVec.ofNat 15 (c.word 8 / 131072) →
    ∃ t, exec (.handleQuery e) s = .next t ∧ t = State.finish (if e = 0 then s.spend 1 else s) e.val c
      (if c.headerOk = false ∨ c.zeroFrom 12 = false then ⟨0x20, 0, []⟩
      else if (s.ctx r).part ≠ (s.ctx c.ring).part ∨ (s.ctx r).engine ≠ (s.ctx c.ring).engine then ⟨0x21, 0, []⟩
      else match s.rings.out.find? (fun d : Cmd => d.ring == r && d.pos == BitVec.ofNat 17 (c.word 8)) with
        | some d => ⟨0x00, 0, [1, d.ntAcc]⟩
        | none => ⟨0x00, 0, [0, 0]⟩)) ∧
  (∀ (e : EngineId) (s : State), s.hand e.val = none ∨ s.running = false →
    ∃ t v, exec (.nop e) s = .next t ∧ exec (.handleQuery e) s = .next v ∧ t = s ∧ v = s) ∧
  (∀ (r : RingId) (s : State), (s.ctx r).st ≠ RingSt.disabled → (s.ctx r).st ≠ RingSt.halted →
    ∃ t, exec (.ringHalted r) s = .next t ∧ t.ctx r = { s.ctx r with st := .halted } ∧
      t.evt = { s.evt with queue := s.evt.queue ++ [(⟨69, [r.setWidth 32], BitVec.ofNat 64 s.ntNs, some r⟩ : Raise)] } ∧
      t = { s with evt := t.evt, rings := { s.rings with ctx := t.rings.ctx } }) ∧
  (∀ (r : RingId) (s : State), (s.ctx r).st = RingSt.disabled ∨ (s.ctx r).st = RingSt.halted → ∃ t, exec (.ringHalted r) s = .next t ∧ t = s) ∧
  (∀ s : State, ∃ t, exec .ringCtxRead s = .next t ∧
    t.reg (Reg.RING_CTX_D 0) = BitVec.ofNat 32 ((s.ctx s.ctxSel).sqBase.toNat + 2 ^ 28 * (s.ctx s.ctxSel).sqLog.toNat) ∧
    t.reg (Reg.RING_CTX_D 1) = BitVec.ofNat 32 ((s.ctx s.ctxSel).cqBase.toNat + 2 ^ 28 * (s.ctx s.ctxSel).cqLog.toNat) ∧
    t.reg (Reg.RING_CTX_D 3) = (s.ctx s.ctxSel).sqTail.setWidth 32 ∧
    t.reg (Reg.RING_CTX_D 4) = BitVec.ofNat 32 ((s.ctx s.ctxSel).sqHead.toNat + 2 ^ 17 * (s.ctx s.ctxSel).longOut.toNat) ∧
    t.reg (Reg.RING_CTX_D 5) = (s.ctx s.ctxSel).cqTail.setWidth 32 ∧
    t.reg (Reg.RING_CTX_D 6) = BitVec.ofNat 32 ((s.ctx s.ctxSel).cqHead.toNat + 2 ^ 24 * (s.ctx s.ctxSel).st.code) ∧
    t.reg (Reg.RING_CTX_D 7) = (s.ctx s.ctxSel).dbSeq ∧
    t = { s with regs := t.regs } ∧ onlyRegs ((List.range 8).map Reg.RING_CTX_D) s t) ∧
  (∀ s : State, s.operate = true →
    ∃ t, exec .ringCtxWrite s = .next t ∧ t.rd F.RING_STAT_CMD_ERR = 1 ∧ t = { s with regs := t.regs } ∧ onlyFlds [F.RING_STAT_CMD_ERR] s t) ∧
  (∀ s : State, s.operate = false → inDram s.dbBase 0x40000 = true → s.reg (Reg.RING_CTX_D 2) &&& 1 = 1 →
    ∃ t, exec .ringCtxWrite s = .next t ∧ (t.ctx s.ctxSel).en = true ∧ (t.ctx s.ctxSel).st = RingSt.idle ∧
      (t.ctx s.ctxSel).sqBase = (s.reg (Reg.RING_CTX_D 0)).setWidth 28 ∧ (t.ctx s.ctxSel).cqBase = (s.reg (Reg.RING_CTX_D 1)).setWidth 28 ∧
      (t.ctx s.ctxSel).sqTail = 0 ∧ (t.ctx s.ctxSel).sqHead = 0 ∧ (t.ctx s.ctxSel).cqTail = 0 ∧ (t.ctx s.ctxSel).cqHead = 0 ∧
      (t.ctx s.ctxSel).longOut = 0 ∧ (t.ctx s.ctxSel).engine = BitVec.extractLsb' 3 5 (s.reg (Reg.RING_CTX_D 2)) ∧
      (t.ctx s.ctxSel).part = BitVec.extractLsb' 8 8 (s.reg (Reg.RING_CTX_D 2)) ∧ Sparse.get t.evt.eseq 0 s.ctxSel.toNat = 0 ∧
      t.le (s.dbBase + 8 * s.ctxSel.toNat) 8 = 0 ∧ sameMemBut (s.dbBase + 8 * s.ctxSel.toNat) 8 s t ∧
      t = { s with
        mem := t.mem, rings := { s.rings with ctx := t.rings.ctx }, evt := { s.evt with eseq := t.evt.eseq, lost := t.evt.lost } }) ∧
  (∀ s : State, s.operate = false → s.reg (Reg.RING_CTX_D 2) &&& 1 = 0 →
    ∃ t, exec .ringCtxWrite s = .next t ∧ (t.ctx s.ctxSel).en = false ∧ (t.ctx s.ctxSel).st = RingSt.disabled ∧
      (t.ctx s.ctxSel).sqHead = 0 ∧ (t.ctx s.ctxSel).sqTail = 0 ∧ Sparse.get t.evt.eseq 0 s.ctxSel.toNat = 0 ∧
      t = { s with rings := { s.rings with ctx := t.rings.ctx }, evt := { s.evt with eseq := t.evt.eseq, lost := t.evt.lost } })

/-- Events and locks (R233 to R241): where the oldest raise goes; what a read and a write of a lock do; an owner reset. A clause that ends
in t = s (an event before its instant or without its condition changes nothing) is the model's choice, notes/assumptions/2.md. Where the
clauses meet what notes/assumptions/38.md, notes/assumptions/43.md record, they say the model's choice. -/
def Obligations.EventsAndLocks : Prop :=
  (∀ (x : Raise) (l : List Raise) (s : State), s.fabricOn = true → s.evt.queue = x :: l → s.evtTarget x = none → s.rd (F.EVT_ROUTE_PLIC_EN x.src) = 0 →
    ∃ t, exec .evtRecordWrite s = .next t ∧ t.rd F.EVT_RAISED_RAISED = min (s.rd F.EVT_RAISED_RAISED + 1) (2 ^ F.EVT_RAISED_RAISED.w - 1) ∧
      t = { s with regs := t.regs, evt := { s.evt with queue := l } } ∧ onlyFlds [F.EVT_RAISED_RAISED] s t) ∧
  (∀ (x : Raise) (l : List Raise) (q : RingId) (s : State), s.fabricOn = true → s.evt.queue = x :: l → s.evtTarget x = some q →
    s.rd (F.EVT_ROUTE_PLIC_EN x.src) = 0 → ((s.ctx q).cqTail - (s.ctx q).cqHead).toNat < (s.ctx q).cqEntries → s.ecc = [] → s.pairOn = false →
    (s.ctx q).mp = false → x.src < 512 →
    ∃ t, exec .evtRecordWrite s = .next t ∧
      t.words ((s.ctx q).cqBase.toNat * 4096 + 32 * ((s.ctx q).cqTail.toNat % (s.ctx q).cqEntries)) 8 =
        [BitVec.ofNat 32 (x.src + (if (s.ctx q).cqTail.toNat / (s.ctx q).cqEntries % 2 = 0 then 65536 else 0) +
          131072 * b2n (Sparse.get s.evt.lost false q.toNat)), Sparse.get s.evt.eseq 0 q.toNat, x.nt.setWidth 32, (x.nt >>> 32).setWidth 32,
          x.info.getD 0 0, x.info.getD 1 0, x.info.getD 2 0, x.info.getD 3 0] ∧
      sameMemBut ((s.ctx q).cqBase.toNat * 4096 + 32 * ((s.ctx q).cqTail.toNat % (s.ctx q).cqEntries)) 32 s t ∧
      t.ctx q = { s.ctx q with cqTail := (s.ctx q).cqTail + 1 } ∧ Sparse.get t.evt.eseq 0 q.toNat = Sparse.get s.evt.eseq 0 q.toNat + 1 ∧
      Sparse.get t.evt.lost false q.toNat = false ∧
      t = { s with
        mem := t.mem, rings := { s.rings with ctx := t.rings.ctx }, evt := { s.evt with queue := l, eseq := t.evt.eseq, lost := t.evt.lost } }) ∧
  (∀ (x : Raise) (l : List Raise) (q : RingId) (s : State), s.fabricOn = true → s.evt.queue = x :: l → s.evtTarget x = some q → x.src ≠ 84 →
    s.rd (F.EVT_ROUTE_PLIC_EN x.src) = 0 → ((s.ctx q).cqTail - (s.ctx q).cqHead).toNat = (s.ctx q).cqEntries →
    ∃ t, exec .evtRecordWrite s = .next t ∧ t.rd F.EVT_DROP_DROPS = min (s.rd F.EVT_DROP_DROPS + 1) (2 ^ F.EVT_DROP_DROPS.w - 1) ∧
      t.evt.queue = l ++ [(⟨84, [q.setWidth 32, Sparse.get s.evt.eseq 0 q.toNat], BitVec.ofNat 64 s.ntNs, none⟩ : Raise)] ∧
      Sparse.get t.evt.lost false q.toNat = true ∧ Sparse.get t.evt.eseq 0 q.toNat = Sparse.get s.evt.eseq 0 q.toNat + 1 ∧
      t = { s with regs := t.regs, evt := t.evt, parts := { s.parts with mon := t.parts.mon } }) ∧
  (∀ (x : Raise) (l : List Raise) (s : State), s.phase = Phase.setup → s.pwr.state = PowerState.run → s.evt.queue = x :: l → s.evtTarget x = none →
    x.src < 512 → s.rd (F.EVT_ROUTE_PLIC_EN x.src) = 1 → s.lanes.on = true → s.lanes.resuming = false → s.cord.heldSrc = [] →
    s.rd F.CORD_STAT_ROLLING = 0 → s.rd F.CORD_STAT_REPLAY = 0 →
    ∃ t, exec .evtRecordWrite s = .next t ∧
      (if Sparse.get s.plic.claimed false (x.src + 1) = true then Sparse.get t.plic.merged false (x.src + 1) = true else t.plic.isPend (x.src + 1) = true) ∧
      t = { s with plic := { s.plic with pend := t.plic.pend, merged := t.plic.merged }, evt := { s.evt with queue := l } }) ∧
  (∀ (who : Requester) (n : Fin 1024) (s : State), s.lockAllowed who n.val = true → s.lock n.val = LockSt.free →
    ∃ t, exec (.lockAcquire who n) s = .next t ∧
      t.lock n.val = LockSt.held (lockOwner who).1 (lockOwner who).2.1 (lockOwner who).2.2 ∧ t.busData.getLsbD 0 = true ∧
      t.busData.getLsbD 1 = false ∧ t.busData.getLsbD 2 = false ∧
      t = { s with parts := { s.parts with locks := t.parts.locks }, busData := t.busData }) ∧
  (∀ (who : Requester) (n : Fin 1024) (s : State), s.lockAllowed who n.val = true → s.lock n.val = LockSt.abandoned →
    ∃ t, exec (.lockAcquire who n) s = .next t ∧
      t.lock n.val = LockSt.held (lockOwner who).1 (lockOwner who).2.1 (lockOwner who).2.2 ∧ t.busData.getLsbD 0 = true ∧
      t.busData.getLsbD 1 = true ∧ t = { s with parts := { s.parts with locks := t.parts.locks }, busData := t.busData }) ∧
  (∀ (who : Requester) (n : Fin 1024) (p : PartId) (a : Agent) (h : HartId) (s : State), s.lockAllowed who n.val = true →
    s.lock n.val = LockSt.held p a h →
    ∃ t, exec (.lockAcquire who n) s = .next t ∧ t.busData.getLsbD 0 = false ∧ t.busData.getLsbD 2 = false ∧
      t.busData.getLsbD 3 = (decide (p = (lockOwner who).1) && decide (a = (lockOwner who).2.1)) ∧
      (t.busData >>> 8).setWidth 8 = p ∧ t = { s with busData := t.busData }) ∧
  (∀ (h : HartId) (p : PartId) (n : Fin 1024) (s : State), s.lockAllowed (.lane h p) n.val = false → s.phase ≠ Phase.reset → s.rd F.PART_LOCKERR_VALID = 0 →
    ∃ t, exec (.lockAcquire (.lane h p) n) s = .next t ∧ t.busData.getLsbD 0 = false ∧ t.busData.getLsbD 2 = true ∧
      t.rd F.PART_LOCKERR_VALID = 1 ∧ t.rd F.PART_LOCKERR_LOCK = n.val ∧ t.rd F.PART_LOCKERR_KIND = 1 ∧ t.rd F.PART_LOCKERR_PART = p.toNat ∧
      raised [(81, [BitVec.ofNat 32 (n.val + 65536 * p.toNat)])] s t ∧ t = { s with regs := t.regs, evt := t.evt, busData := t.busData } ∧
      onlyRegs [Reg.PART_LOCKERR] s t) ∧
  (∀ (who : Requester) (n : Fin 1024) (w : Word) (h : HartId) (s : State), s.mustWait = false → w.getLsbD 31 = true →
    s.lock n.val = LockSt.held (lockOwner who).1 (lockOwner who).2.1 h →
    ∃ t, exec (.lockRelease who n w) s = .next t ∧ t.lock n.val = LockSt.free ∧ t = { s with parts := { s.parts with locks := t.parts.locks } }) ∧
  (∀ (h : HartId) (p q : PartId) (n : Fin 1024) (w : Word) (a : Agent) (k : HartId) (s : State), s.mustWait = false → w.getLsbD 31 = true →
    s.phase ≠ Phase.reset → s.lock n.val = LockSt.held q a k → q ≠ p → s.rd F.PART_LOCKERR_VALID = 1 →
    ∃ t, exec (.lockRelease (.lane h p) n w) s = .next t ∧ raised [(82, [BitVec.ofNat 32 (n.val + 65536 * p.toNat)])] s t ∧
      t = { s with evt := t.evt }) ∧
  (∀ (who : Requester) (w : Word) (p : PartId) (n : Nat) (s : State), s.mustWait = false → w.toNat / 65536 = 0x4142 → s.phase ≠ Phase.reset → p = w.setWidth 8 →
    n = (s.parts.locks.filter (fun x => ownedBy p (w.toNat / 256 % 4) x.2)).length → n ≠ 0 →
    ∃ t, exec (.partAbandon who w) s = .next t ∧
      (∀ k < 1024, t.lock k = (if ownedBy p (w.toNat / 256 % 4) (s.lock k) = true then LockSt.abandoned else s.lock k)) ∧
      raised [(83, [BitVec.ofNat 32 (p.toNat + 256 * (w.toNat / 256 % 4)), BitVec.ofNat 32 n])] s t ∧
      t = { s with parts := { s.parts with locks := t.parts.locks }, evt := t.evt }) ∧
  (∀ (who : Requester) (w : Word) (s : State), s.mustWait = false →
    w.toNat / 65536 ≠ 0x4142 ∨ s.parts.locks.filter (fun x => ownedBy (w.setWidth 8) (w.toNat / 256 % 4) x.2) = [] →
    ∃ t, exec (.partAbandon who w) s = .next t ∧ t = s) ∧
  (∀ (who : Requester) (n : Fin 1024) (w : Word) (s : State), s.mustWait = false → w.getLsbD 31 = false →
    ∃ t, exec (.lockRelease who n w) s = .next t ∧ t = s) ∧
  (∀ (h : HartId) (p : PartId) (n : Fin 1024) (w : Word) (s : State), s.mustWait = false → w.getLsbD 31 = true → s.phase ≠ Phase.reset →
    s.lock n.val = LockSt.free ∨ s.lock n.val = LockSt.abandoned → s.rd F.PART_LOCKERR_VALID = 0 →
    ∃ t, exec (.lockRelease (.lane h p) n w) s = .next t ∧ t.rd F.PART_LOCKERR_VALID = 1 ∧ t.rd F.PART_LOCKERR_LOCK = n.val ∧
      t.rd F.PART_LOCKERR_KIND = 2 ∧ t.rd F.PART_LOCKERR_PART = p.toNat ∧ raised [(82, [BitVec.ofNat 32 (n.val + 65536 * p.toNat)])] s t ∧
      t = { s with regs := t.regs, evt := t.evt } ∧ onlyRegs [Reg.PART_LOCKERR] s t) ∧
  (∀ s : State, s.fabricOn = false ∨ s.evt.queue = [] → ∃ t, exec .evtRecordWrite s = .next t ∧ t = s)

/-- Network time (R247 to R254): what each command does to NT at its apply clock, what refuses it, what waits, and the latches. SET_INCR
leaves NT at the apply clock as it is. A clause that ends in t = s (an event before its instant or without its condition changes nothing)
is the model's choice, notes/assumptions/2.md. Where the clauses meet what notes/assumptions/44.md records, they say the model's choice. -/
def Obligations.TimeBaseCommands : Prop :=
  (∀ (who : Requester) (v : Nat) (s : State), s.phase ≠ Phase.reset → s.mustWait = false → s.tbOwner who = true → s.rd F.TB_STAT_CMD_BUSY = 0 →
    v = (s.reg Reg.TB_W0).toNat + 2 ^ 32 * (s.reg Reg.TB_W1).toNat → 0x1FF7CED9169 ≤ v → v ≤ 0x20083126E97 →
    ∃ t, exec (.tbSetIncr who false) s = .next t ∧ t.tb.incr.toNat = v ∧ t.ntFullAt s.raw = s.ntFullAt s.raw ∧
      tbApplied 1 s.raw t.tb.ofs (BitVec.ofNat 48 v) s t) ∧
  (∀ (who : Requester) (x : Nat) (s : State), s.phase ≠ Phase.reset → s.mustWait = false → s.tbOwner who = true → s.rd F.TB_STAT_CMD_BUSY = 0 →
    (s.reg Reg.TB_W0).toNat < 65536 → x = (s.reg Reg.TB_W0).toNat + 2 ^ 16 * (s.reg Reg.TB_W1).toNat + 2 ^ 48 * (s.reg Reg.TB_W2).toNat →
    s.rd F.TB_CFG_BACK_STEP_EN = 1 ∨ (x + 2 ^ 80 - s.nt80) % 2 ^ 80 < 2 ^ 79 →
    ∃ t, exec (.tbSetNt who false) s = .next t ∧ t.nt80 = x ∧ t.ntFullAt s.raw = x * 2 ^ 24 ∧ tbApplied 2 s.raw t.tb.ofs s.tb.incr s t) ∧
  (∀ (who : Requester) (x : Nat) (s : State), s.phase ≠ Phase.reset → s.mustWait = false → s.tbOwner who = true → s.rd F.TB_STAT_CMD_BUSY = 0 →
    (s.reg Reg.TB_W0).toNat < 65536 → x = (s.reg Reg.TB_W0).toNat + 2 ^ 16 * (s.reg Reg.TB_W1).toNat + 2 ^ 48 * (s.reg Reg.TB_W2).toNat →
    s.rd F.TB_CFG_BACK_STEP_EN = 1 ∨ x < 2 ^ 79 →
    ∃ t, exec (.tbAddOfs who false) s = .next t ∧ t.ntFullAt s.raw = (s.ntFullAt s.raw + x * 2 ^ 24) % 2 ^ 104 ∧
      tbApplied 3 s.raw t.tb.ofs s.tb.incr s t) ∧
  (∀ (who : Requester) (v : Nat) (s : State), s.phase ≠ Phase.reset → s.mustWait = false → s.tbOwner who = true → s.rd F.TB_STAT_CMD_BUSY = 0 →
    v = (s.reg Reg.TB_W0).toNat + 2 ^ 32 * (s.reg Reg.TB_W1).toNat → v < 0x1FF7CED9169 ∨ 0x20083126E97 < v →
    ∃ t, exec (.tbSetIncr who false) s = .next t ∧ tbRefused 1 1 s t) ∧
  (∀ (who : Requester) (x : Nat) (s : State), s.phase ≠ Phase.reset → s.mustWait = false → s.tbOwner who = true → s.rd F.TB_STAT_CMD_BUSY = 0 →
    x = (s.reg Reg.TB_W0).toNat % 65536 + 2 ^ 16 * (s.reg Reg.TB_W1).toNat + 2 ^ 48 * (s.reg Reg.TB_W2).toNat →
    65536 ≤ (s.reg Reg.TB_W0).toNat ∨ (s.rd F.TB_CFG_BACK_STEP_EN = 0 ∧ 2 ^ 79 ≤ (x + 2 ^ 80 - s.nt80) % 2 ^ 80) →
    ∃ t, exec (.tbSetNt who false) s = .next t ∧
      tbRefused 2 (if s.rd F.TB_CFG_BACK_STEP_EN = 0 ∧ 2 ^ 79 ≤ (x + 2 ^ 80 - s.nt80) % 2 ^ 80 then 2 else 6) s t) ∧
  (∀ (who : Requester) (x : Nat) (s : State), s.phase ≠ Phase.reset → s.mustWait = false → s.tbOwner who = true → s.rd F.TB_STAT_CMD_BUSY = 0 →
    x = (s.reg Reg.TB_W0).toNat % 65536 + 2 ^ 16 * (s.reg Reg.TB_W1).toNat + 2 ^ 48 * (s.reg Reg.TB_W2).toNat →
    65536 ≤ (s.reg Reg.TB_W0).toNat ∨ (s.rd F.TB_CFG_BACK_STEP_EN = 0 ∧ 2 ^ 79 ≤ x) →
    ∃ t, exec (.tbAddOfs who false) s = .next t ∧ tbRefused 3 (if s.rd F.TB_CFG_BACK_STEP_EN = 0 ∧ 2 ^ 79 ≤ x then 2 else 6) s t) ∧
  (∀ (who : Requester) (at_ : Bool) (c : Instr) (op : Nat) (s : State), s.phase ≠ Phase.reset → s.mustWait = false → s.tbOwner who = false →
    (c, op) ∈ [(Instr.tbCancel who, 0), (Instr.tbSetIncr who at_, 1), (Instr.tbSetNt who at_, 2), (Instr.tbAddOfs who at_, 3)] →
    ∃ t, exec c s = .next t ∧ tbRefused op 5 s t) ∧
  (∀ (who : Requester) (at_ : Bool) (c : Instr) (op : Nat) (s : State), s.phase ≠ Phase.reset → s.mustWait = false → s.tbOwner who = true →
    s.rd F.TB_STAT_CMD_BUSY = 1 → (c, op) ∈ [(Instr.tbSetIncr who at_, 1), (Instr.tbSetNt who at_, 2), (Instr.tbAddOfs who at_, 3)] →
    ∃ t, exec c s = .next t ∧ tbRefused op 4 s t) ∧
  (∀ (who : Requester) (c : Instr) (op : Nat) (s : State), s.phase ≠ Phase.reset → s.mustWait = false → s.tbOwner who = true →
    s.rd F.TB_STAT_CMD_BUSY = 0 → reached s.raw (s.rd64 Reg.TB_AT_LO Reg.TB_AT_HI) = true →
    (c, op) ∈ [(Instr.tbSetIncr who true, 1), (Instr.tbSetNt who true, 2), (Instr.tbAddOfs who true, 3)] →
    ∃ t, exec c s = .next t ∧ tbRefused op 3 s t) ∧
  (∀ (who : Requester) (c : Instr) (op : Nat) (s : State), s.mustWait = false → s.tbOwner who = true → s.rd F.TB_STAT_CMD_BUSY = 0 →
    reached s.raw (s.rd64 Reg.TB_AT_LO Reg.TB_AT_HI) = false →
    (c, op) ∈ [(Instr.tbSetIncr who true, 1), (Instr.tbSetNt who true, 2), (Instr.tbAddOfs who true, 3)] →
    ∃ t, exec c s = .next t ∧ t.rd F.TB_STAT_CMD_BUSY = 1 ∧
      t.tb = { s.tb with waiting := some ⟨op, s.reg Reg.TB_W0, s.reg Reg.TB_W1, s.reg Reg.TB_W2, BitVec.ofNat 64 (s.rd64 Reg.TB_AT_LO Reg.TB_AT_HI)⟩ } ∧
      t = { s with regs := t.regs, tb := t.tb } ∧ onlyFlds [F.TB_STAT_CMD_BUSY] s t) ∧
  (∀ (c : TbCmd) (v : Nat) (w0 : State) (s : State), s.phase ≠ Phase.reset → s.tb.waiting = some c → reached s.raw c.at_.toNat = true →
    c.op = 1 → v = c.w0.toNat + 2 ^ 32 * c.w1.toNat → w0 = State.wr { s with tb := { s.tb with waiting := none } } F.TB_STAT_CMD_BUSY 0 →
    ∃ t, exec .tbAtApply s = .next t ∧ t.tb.waiting = none ∧ t.rd F.TB_STAT_CMD_BUSY = 0 ∧
      (if 0x1FF7CED9169 ≤ v ∧ v ≤ 0x20083126E97 then
        t.ntFullAt c.at_.toNat = s.ntFullAt c.at_.toNat ∧ tbApplied 1 c.at_.toNat t.tb.ofs (BitVec.ofNat 48 v) w0 t
      else tbRefused 1 1 w0 t)) ∧
  (∀ (c : TbCmd) (x : Nat) (w0 : State) (s : State), s.phase ≠ Phase.reset → s.tb.waiting = some c → reached s.raw c.at_.toNat = true →
    c.op = 2 → x = c.w0.toNat % 65536 + 2 ^ 16 * c.w1.toNat + 2 ^ 48 * c.w2.toNat →
    w0 = State.wr { s with tb := { s.tb with waiting := none } } F.TB_STAT_CMD_BUSY 0 →
    ∃ t, exec .tbAtApply s = .next t ∧ t.tb.waiting = none ∧ t.rd F.TB_STAT_CMD_BUSY = 0 ∧
      (if s.rd F.TB_CFG_BACK_STEP_EN = 0 ∧ 2 ^ 79 ≤ (x + 2 ^ 80 - s.ntFullAt c.at_.toNat / 2 ^ 24) % 2 ^ 80 then tbRefused 2 2 w0 t
      else if 65536 ≤ c.w0.toNat then tbRefused 2 6 w0 t
      else t.ntFullAt c.at_.toNat = x * 2 ^ 24 ∧ tbApplied 2 c.at_.toNat t.tb.ofs s.tb.incr w0 t)) ∧
  (∀ (c : TbCmd) (x : Nat) (w0 : State) (s : State), s.phase ≠ Phase.reset → s.tb.waiting = some c → reached s.raw c.at_.toNat = true →
    c.op = 3 → x = c.w0.toNat % 65536 + 2 ^ 16 * c.w1.toNat + 2 ^ 48 * c.w2.toNat →
    w0 = State.wr { s with tb := { s.tb with waiting := none } } F.TB_STAT_CMD_BUSY 0 →
    ∃ t, exec .tbAtApply s = .next t ∧ t.tb.waiting = none ∧ t.rd F.TB_STAT_CMD_BUSY = 0 ∧
      (if s.rd F.TB_CFG_BACK_STEP_EN = 0 ∧ 2 ^ 79 ≤ x then tbRefused 3 2 w0 t
      else if 65536 ≤ c.w0.toNat then tbRefused 3 6 w0 t
      else t.ntFullAt c.at_.toNat = (s.ntFullAt c.at_.toNat + x * 2 ^ 24) % 2 ^ 104 ∧ tbApplied 3 c.at_.toNat t.tb.ofs s.tb.incr w0 t)) ∧
  (∀ s : State, s.tb.waiting = none ∨ (∀ c ∈ s.tb.waiting, reached s.raw c.at_.toNat = false) → ∃ t, exec .tbAtApply s = .next t ∧ t = s) ∧
  (∀ (who : Requester) (s : State), s.mustWait = false → s.tbOwner who = true →
    ∃ t, exec (.tbCancel who) s = .next t ∧ t.rd F.TB_STAT_CMD_BUSY = 0 ∧
      t = { s with regs := t.regs, tb := { s.tb with waiting := if s.rd F.TB_STAT_CMD_BUSY = 1 then none else s.tb.waiting } } ∧
      onlyFlds [F.TB_STAT_CMD_BUSY] s t) ∧
  (∀ (who : Requester) (n : Nat) (s : State), n = (match who with | Requester.lane h p => h.val | _ => 4) →
    ∃ t, exec (.tbNtLatch who) s = .next t ∧
    Sparse.lookup t.tb.latches n = some (BitVec.ofNat 80 s.nt80, s.tb.raw) ∧ t.busData = BitVec.ofNat 32 (s.nt80 / 65536) ∧
    (∀ k < 5, k ≠ n → Sparse.lookup t.tb.latches k = Sparse.lookup s.tb.latches k) ∧
    t = { s with tb := { s.tb with latches := t.tb.latches }, busData := t.busData }) ∧
  (∀ s : State, s.phase = Phase.setup ∨ s.phase = Phase.locking → ∃ t, exec .tbPllLost s = .next t ∧ t.rd F.TB_STAT_PLL_LOST = 1 ∧ raised [(196, [])] s t ∧
    t = { s with regs := t.regs, evt := t.evt } ∧ onlyFlds [F.TB_STAT_PLL_LOST] s t) ∧
  (∀ s : State, s.operate = true → s.rd F.LANE_STAT_SAFE = 0 → ∃ t, exec .tbPllLost s = .next t ∧ t.rd F.TB_STAT_PLL_LOST = 1 ∧
    safeFrom 0xFF ((s.wr F.TB_STAT_PLL_LOST 1).raise 196 []) t ∧
    (t.evt.queue.drop s.evt.queue.length).head? = some (⟨196, [], BitVec.ofNat 64 s.ntNs, none⟩ : Raise)) ∧
  (∀ s : State, s.operate = true → s.rd F.LANE_STAT_SAFE = 1 → ∃ t, exec .tbPllLost s = .next t ∧ t.rd F.TB_STAT_PLL_LOST = 1 ∧
    raised [(196, [])] s t ∧ t = { s with regs := t.regs, evt := t.evt } ∧ onlyFlds [F.TB_STAT_PLL_LOST] s t) ∧
  (∀ s : State, s.operate = false → s.setupPhase = false → ∃ t, exec .tbPllLost s = .next t ∧ t = s)

/-- Pulse generators, SYNC_IN and the time-stamp queues (R256 to R267, R271): a fire, the end of a pulse, arming by command and by
registers, an edge accepted or ignored, and a read of a queue. A clause that ends in t = s (an event before its instant or without its
condition changes nothing) is the model's choice, notes/assumptions/2.md. -/
def Obligations.PulsesAndEdges : Prop :=
  (∀ (n : Fin 16) (s : State), s.phase = Phase.setup → s.cbOn = false → s.wakeOn wkPto 15 = false → s.pwr.state = PowerState.run →
    s.rd (F.PTO_STAT_ARMED n.val) = 1 → reached (s.ptoNow n.val) (s.ptoTarget n.val) = true → (s.gen n.val).mode = PtoMode.oneShot →
    s.rd (F.PTO_CTL_EVT_EN n.val) = 1 →
    ∃ t, exec (.ptoFire n) s = .next t ∧ t.rd (F.PTO_STAT_ARMED n.val) = 0 ∧ t.rd (F.PTO_STAT_OUT n.val) = 1 ∧ t.ptoTarget n.val = 0 ∧
      (t.gen n.val).outEnd = s.raw + s.rd (F.PTO_PER_HI_WIDTH n.val) ∧
      raised [(208 + n.val, [BitVec.ofNat 32 (s.ptoTarget n.val), BitVec.ofNat 32 (s.ptoTarget n.val / 2 ^ 32), BitVec.ofNat 32 (s.rd (F.PTO_STAT_MISSED n.val))])] s t ∧
      t = { s with regs := t.regs, evt := t.evt, tb := { s.tb with gens := t.tb.gens } } ∧
      onlyFlds [F.PTO_STAT_ARMED n.val, F.PTO_STAT_OUT n.val, F.PTO_STAT_MISSED n.val, F.PTO_NEXT_LO_NEXT n.val, F.PTO_NEXT_HI_NEXT n.val] s t) ∧
  (∀ (n : Fin 16) (late : Nat) (s : State), s.phase = Phase.setup → s.cbOn = false → s.wakeOn wkPto 15 = false → s.pwr.state = PowerState.run →
    s.rd (F.PTO_STAT_ARMED n.val) = 1 → (s.gen n.val).mode = PtoMode.periodic → 0 < (s.gen n.val).per → s.ptoNow n.val = s.ptoTarget n.val + late →
    s.ptoNow n.val < 2 ^ 63 → s.rd (F.PTO_CTL_EVT_EN n.val) = 0 → s.ptoTarget n.val + (late / (s.gen n.val).per + 1) * (s.gen n.val).per < 2 ^ 64 →
    ∃ t, exec (.ptoFire n) s = .next t ∧ t.rd (F.PTO_STAT_ARMED n.val) = 1 ∧ t.rd (F.PTO_STAT_OUT n.val) = 1 ∧
      t.ptoTarget n.val = s.ptoTarget n.val + (late / (s.gen n.val).per + 1) * (s.gen n.val).per ∧
      t.rd (F.PTO_STAT_MISSED n.val) = min (s.rd (F.PTO_STAT_MISSED n.val) + late / (s.gen n.val).per) (2 ^ (F.PTO_STAT_MISSED n.val).w - 1) ∧
      t = { s with regs := t.regs, tb := { s.tb with gens := t.tb.gens } }) ∧
  (∀ (n : Fin 16) (late missed : Nat) (s : State), s.ptoDue n.val = true → late = (s.ptoNow n.val + 2 ^ 64 - s.ptoTarget n.val) % 2 ^ 64 →
    missed = (if (s.gen n.val).mode = PtoMode.periodic ∧ (s.gen n.val).per ≠ 0 then late / (s.gen n.val).per else 0) →
    ∃ t, exec (.ptoFire n) s = .next t ∧ t.rd (F.PTO_STAT_OUT n.val) = 1 ∧
      t.rd (F.PTO_STAT_ARMED n.val) = (if (s.gen n.val).mode = PtoMode.periodic then 1 else 0) ∧
      t.ptoTarget n.val = (if (s.gen n.val).mode = PtoMode.periodic then (s.ptoTarget n.val + (missed + 1) * (s.gen n.val).per) % 2 ^ 64 else 0) ∧
      t.gen n.val = { s.gen n.val with outEnd := s.raw + s.rd (F.PTO_PER_HI_WIDTH n.val) } ∧
      t.rd (F.PTO_STAT_MISSED n.val) = min (s.rd (F.PTO_STAT_MISSED n.val) + missed) (2 ^ (F.PTO_STAT_MISSED n.val).w - 1)) ∧
  (∀ (n : Fin 16) (s : State), s.ptoDue n.val = false → ∃ t, exec (.ptoFire n) s = .next t ∧ t = s) ∧
  (∀ (n : Fin 16) (s : State), s.rd (F.PTO_STAT_OUT n.val) = 0 ∨ reached s.raw (s.gen n.val).outEnd = false →
    ∃ t, exec (.ptoPulseEnd n) s = .next t ∧ t = s) ∧
  (∀ (n : Fin 16) (s : State), s.rd (F.PTO_STAT_OUT n.val) = 1 → reached s.raw (s.gen n.val).outEnd = true →
    ∃ t, exec (.ptoPulseEnd n) s = .next t ∧ t.rd (F.PTO_STAT_OUT n.val) = 0 ∧ t = { s with regs := t.regs } ∧ onlyFlds [F.PTO_STAT_OUT n.val] s t) ∧
  (∀ (n : Fin 16) (s : State), s.operate = true → ∃ t, exec (.ptoSetupRearm n) s = .next t ∧ t = s) ∧
  (∀ (n : Fin 16) (m : Nat) (s : State), s.operate = false → m = s.rd (F.PTO_CTL_MODE n.val) →
    ∃ t, exec (.ptoSetupRearm n) s = .next t ∧
      t.gen n.val = { s.gen n.val with
        mode := if m = 0 then PtoMode.off else if m = 1 then PtoMode.oneShot else if m = 2 then PtoMode.periodic else PtoMode.syncArmed,
        per := s.rd (F.PTO_PER_LO_PER_LO n.val) + 2 ^ 32 * s.rd (F.PTO_PER_HI_PER_HI n.val) } ∧
      t.rd (F.PTO_STAT_ARMED n.val) = (if m = 1 ∨ m = 2 then 1 else 0) ∧
      t.ptoTarget n.val = (if m = 1 ∨ m = 2 then s.rd (F.PTO_TGT_LO_TGT n.val) + 2 ^ 32 * s.rd (F.PTO_TGT_HI_TGT n.val) else 0) ∧
      (∀ k < 16, k ≠ n.val → t.gen k = s.gen k) ∧
      t = { s with regs := t.regs, tb := { s.tb with gens := t.tb.gens } } ∧
      onlyFlds [F.PTO_STAT_ARMED n.val, F.PTO_NEXT_LO_NEXT n.val, F.PTO_NEXT_HI_NEXT n.val] s t) ∧
  (∀ (c : Cmd) (n m tgt per : Nat) (bad : Bool) (s : State), inHand 0x16 0x11 c s → n = c.word 8 % 16 → m = c.word 8 / 16 % 4 →
    tgt = c.word 0x10 + 2 ^ 32 * c.word 0x14 → per = c.word 0x18 + 2 ^ 32 * (c.word 0x1C % 16) →
    bad = decide (c.headerOk = false ∨ 64 ≤ c.word 8 ∨ c.word 0xC ≠ 0 ∨ 16 ≤ c.word 0x1C ∨ c.zeroFrom 0x20 = false ∨ m = 3 ∨
      (m = 2 ∧ (per < (if s.rd (F.PTO_CTL_BASE n) = 1 then 1000 else 500) ∨ per ≤ s.rd (F.PTO_PER_HI_WIDTH n)))) →
    ∃ t, exec .ptoArm s = .next t ∧ (∀ k < 16, k ≠ n → t.gen k = s.gen k) ∧
      (if bad = true then t = s.finish 0x16 c ⟨0x20, 0, []⟩
      else if s.rd (F.PTO_CTL_ARM_EN n) = 0 ∨ s.rd (F.PTO_CTL_OWNER n) ≠ (s.cmdPart c).toNat then t = s.finish 0x16 c ⟨0x21, 0, []⟩
      else if m ≠ 0 ∧ reached (s.ptoNow n) tgt = true then t = s.finish 0x16 c ⟨0x10, 0, []⟩
      else t.gen n = { s.gen n with mode := if m = 0 then PtoMode.off else if m = 1 then PtoMode.oneShot else PtoMode.periodic, per := per } ∧
        t.rd (F.PTO_STAT_ARMED n) = (if m = 0 then 0 else 1) ∧ t.ptoTarget n = (if m = 0 then 0 else tgt) ∧
        t = State.finish { s with regs := t.regs, tb := { s.tb with gens := t.tb.gens } } 0x16 c ⟨0x00, 0, []⟩ ∧
        onlyFlds [F.PTO_STAT_ARMED n, F.PTO_NEXT_LO_NEXT n, F.PTO_NEXT_HI_NEXT n, mpIrqFld 1] s t)) ∧
  (∀ s : State, s.phase ≠ Phase.reset → s.pwr.state = PowerState.run → s.rd F.TB_SYNC_IN_EN = 1 → s.tb.syncLast = none → s.aligns = false →
    s.wakeOn wkSync 0 = false → (∀ n ∈ List.range 16, (s.gen n).mode ≠ PtoMode.syncArmed) →
    ∃ t, exec .syncInEdge s = .next t ∧ t.tb = { s.tb with syncLast := some s.edgeRaw } ∧
      t.rd64 Reg.TB_SYNCIN_LO Reg.TB_SYNCIN_HI = s.ntFullAt s.edgeRaw / 2 ^ 40 ∧
      t.rd F.TB_SYNCIN_FRAC_FRAC = s.ntFullAt s.edgeRaw / 2 ^ 24 % 2 ^ 16 ∧
      t.rd F.TB_SYNCIN_CNT_EDGES = min (s.rd F.TB_SYNCIN_CNT_EDGES + 1) (2 ^ F.TB_SYNCIN_CNT_EDGES.w - 1) ∧
      raised [(194, [BitVec.ofNat 32 (s.ntFullAt s.edgeRaw / 2 ^ 24 % 2 ^ 16), BitVec.ofNat 32 (s.ntFullAt s.edgeRaw / 2 ^ 40),
        BitVec.ofNat 32 (s.ntFullAt s.edgeRaw / 2 ^ 72)])] s t ∧
      t = { s with regs := t.regs, evt := t.evt, tb := t.tb } ∧
      onlyFlds [F.TB_SYNCIN_LO_NS, F.TB_SYNCIN_HI_NS, F.TB_SYNCIN_FRAC_FRAC, F.TB_SYNCIN_CNT_EDGES] s t) ∧
  (∀ s : State, s.phase ≠ Phase.reset → s.pwr.state ≠ PowerState.e3 → s.syncAccepts = true →
    ∃ t, exec .syncInEdge s = .next t ∧ t.tb.syncLast = some s.edgeRaw ∧
      t.rd64 Reg.TB_SYNCIN_LO Reg.TB_SYNCIN_HI = s.ntFullAt s.edgeRaw / 2 ^ 40 ∧
      t.rd F.TB_SYNCIN_FRAC_FRAC = s.ntFullAt s.edgeRaw / 2 ^ 24 % 2 ^ 16 ∧
      t.rd F.TB_SYNCIN_CNT_EDGES = min (s.rd F.TB_SYNCIN_CNT_EDGES + 1) (2 ^ F.TB_SYNCIN_CNT_EDGES.w - 1) ∧
      (t.evt.queue.drop s.evt.queue.length).head? = some (⟨194, [BitVec.ofNat 32 (s.ntFullAt s.edgeRaw / 2 ^ 24 % 2 ^ 16),
        BitVec.ofNat 32 (s.ntFullAt s.edgeRaw / 2 ^ 40), BitVec.ofNat 32 (s.ntFullAt s.edgeRaw / 2 ^ 72)], BitVec.ofNat 64 s.ntNs, none⟩ : Raise) ∧
      (∀ n < 16, (s.gen n).mode = PtoMode.syncArmed → t.rd (F.PTO_STAT_ARMED n) = 1 ∧
        t.ptoTarget n = ((if s.rd (F.PTO_CTL_BASE n) = 1 then s.ntFullAt s.edgeRaw / 2 ^ 40 else s.edgeRaw) + (s.gen n).per) % 2 ^ 64)) ∧
  (∀ s : State, s.phase = Phase.reset ∨ s.pwr.state = PowerState.e3 ∨ s.rd F.TB_SYNC_IN_EN = 0 → ∃ t, exec .syncInEdge s = .next t ∧ t = s) ∧
  (∀ (r : Nat) (s : State), s.phase ≠ Phase.reset → s.pwr.state ≠ PowerState.e3 → s.rd F.TB_SYNC_IN_EN = 1 → s.tb.syncLast = some r →
    reached s.edgeRaw (r + s.rd F.TB_SYNC_IN_HOLDOFF * 500) = false →
    ∃ t, exec .syncInEdge s = .next t ∧ t.rd F.TB_SYNCIN_CNT_IGNORED = min (s.rd F.TB_SYNCIN_CNT_IGNORED + 1) (2 ^ F.TB_SYNCIN_CNT_IGNORED.w - 1) ∧
      t = { s with regs := t.regs } ∧ onlyFlds [F.TB_SYNCIN_CNT_IGNORED] s t) ∧
  (∀ (c : Cmd) (p m a : Nat) (bad : Bool) (s : State), inHand 0x16 0x10 c s → p = c.word 8 % 32 → m = c.word 8 / 256 % 256 →
    a = c.word 0x10 + 2 ^ 32 * (c.word 0x14 % 256) →
    bad = decide (c.headerOk = false ∨ 0x20000 ≤ c.word 8 ∨ c.word 8 / 32 % 8 ≠ 0 ∨ 17 < p ∨ m = 0 ∨ 32 < m ∨ c.word 0xC ≠ 0 ∨
      c.word 0x14 / 256 ≠ 0 ∨ c.zeroFrom 0x18 = false ∨ a % 16 ≠ 0 ∨ s.engineMayWrite a (16 * m) = false) →
    bad = true ∨ ((s.ctx c.ring).mp = false ∧ (s.rd (F.TB_TSQ_CFG_EN p) = 0 ∨ s.rd (F.TB_TSQ_CFG_PART p) ≠ (s.cmdPart c).toNat)) →
    ∃ t, exec .tsqRead s = .next t ∧ t = s.finish 0x16 c (if bad = true then ⟨0x20, 0, []⟩ else ⟨0x21, 0, []⟩)) ∧
  (∀ (c : Cmd) (p m a : Nat) (s : State), inHand 0x16 0x10 c s → p = c.word 8 % 32 → m = c.word 8 / 256 % 256 → c.headerOk = true →
    c.word 8 < 0x20000 → c.word 8 / 32 % 8 = 0 → p < 18 → 0 < m → m ≤ 32 → c.word 0xC = 0 → c.word 0x14 / 256 = 0 → c.zeroFrom 0x18 = true →
    a = c.word 0x10 + 2 ^ 32 * (c.word 0x14 % 256) → a % 16 = 0 → s.engineMayWrite a (16 * m) = true → s.ecc = [] → s.pairOn = false →
    (s.ctx c.ring).mp = true ∨ (s.rd (F.TB_TSQ_CFG_EN p) = 1 ∧ s.rd (F.TB_TSQ_CFG_PART p) = (s.cmdPart c).toNat) →
    ∃ v t, v = (let u := ((s.dropResv a (16 * min m (s.tsQueue p).length)).setBytes a ((s.tsQueue p).take m |>.flatMap (tsEntry p))).setTsQueue p ((s.tsQueue p).drop m);
        if c.word 8 / 65536 = 1 then u.wr ⟨Reg.TB_TSQ_OVF, p, 1⟩ 0 else u) ∧
      v.tsQueue p = (s.tsQueue p).drop m ∧ v.rd (F.TB_TSQ_STAT_LEVEL p) = ((s.tsQueue p).length - m) % 64 ∧
      sameMemBut a (16 * min m (s.tsQueue p).length) s v ∧
      v.words a (4 * min m (s.tsQueue p).length) = ((s.tsQueue p).take m).flatMap (fun (x : BitVec 16 × BitVec 80) =>
        [BitVec.ofNat 32 (x.1.toNat + 65536 * p), BitVec.ofNat 32 (x.2.toNat % 65536), BitVec.ofNat 32 (x.2.toNat / 65536),
          BitVec.ofNat 32 (x.2.toNat / 2 ^ 48)]) ∧
      v.rd ⟨Reg.TB_TSQ_OVF, p, 1⟩ = (if c.word 8 / 65536 = 1 then 0 else s.rd ⟨Reg.TB_TSQ_OVF, p, 1⟩) ∧
      exec .tsqRead s = .next t ∧ t = v.finish 0x16 c ⟨0x00, 0, [BitVec.ofNat 32 (min m (s.tsQueue p).length + 256 * s.rd ⟨Reg.TB_TSQ_OVF, p, 1⟩),
        BitVec.ofNat 32 (s.rd (F.TB_TSQ_STAT_DROPS p))]⟩)

/-- The summation frame of a car ring (R274 to R285): a copy at the master and at a member, what a member forwards, a copy that does not
check, an older copy, and the timeouts that count a lost cycle. A clause that ends in t = s (an event before its instant or without its
condition changes nothing) is the model's choice, notes/assumptions/2.md. Where the clauses meet what notes/assumptions/49.md records,
they say the model's choice. -/
def Obligations.CarRingCopies : Prop :=
  (∀ (n : Fin 3) (ch : Fin 2) (f : List Byte) (s : State), s.running = true → s.acts = true → s.rd (F.CR_STATE_STATE n.val) = 2 →
    s.rd (F.CR_CFG_ROLE n.val) = 2 → s.crMatch n.val ch.val f = true → copyCycle f = s.rd (F.CR_CYCLE_CYCLE n.val) → (s.node n.val).refs ≠ 0 →
    s.raw - (s.node n.val).ref ≤ s.rd (F.CR_MASTER_RET_TMO n.val) * 500 → (s.node n.val).closed = false → s.slices n.val 0 = [] →
    s.rd (okFld n.val ch.val) = 1 → s.rd F.REC_CFG_EN = 0 → noStations s →
    ∃ t, exec (.crMasterRx n ch f true) s = .next t ∧ counted (F.CR_PORT_00_RX_SUM (4 * n.val + 2 * ch.val + 1)) s t ∧
      t.rd (F.CR_RTT_LAST n.val) = min ((s.raw - (s.node n.val).ref) / 5) 65535 ∧
      t.rd (F.CR_RTT_MAX n.val) = max (s.rd (F.CR_RTT_MAX n.val)) (min ((s.raw - (s.node n.val).ref) / 5) 65535) ∧
      (t.node n.val).closed = true ∧ (t.node n.val).lostRun = 0 ∧ (t.node n.val).acc = BitVec.ofNat 32 (copyCycle f) ∧
      (∀ i < 126, t.rd (missFld n.val i) = (if presence f i = true then 0 else min (s.rd (missFld n.val i) + 1) 255)) ∧
      (if ch.val = 0 then (t.node n.val).gotA = true ∧ (t.node n.val).missA = 0 else (t.node n.val).gotB = true ∧ (t.node n.val).missB = 0) ∧
      t = { s with regs := t.regs, evt := t.evt, car := { s.car with nodes := t.car.nodes } } ∧
      onlyFlds ([F.CR_PORT_00_RX_SUM (4 * n.val + 2 * ch.val + 1), F.CR_RTT_LAST n.val, F.CR_RTT_MAX n.val] ++
        (List.range 126).map (missFld n.val)) s t) ∧
  (∀ (n : Fin 3) (ch : Fin 2) (f : List Byte) (e : Nat) (w0 : State) (s : State), s.running = true → s.acts = true → s.rd (F.CR_STATE_STATE n.val) ≠ 0 →
    s.rd (F.CR_CFG_ROLE n.val) = 2 → s.crMatch n.val ch.val f = true → copyCycle f = s.rd (F.CR_CYCLE_CYCLE n.val) → (s.node n.val).refs ≠ 0 →
    s.raw - (s.node n.val).ref ≤ s.rd (F.CR_MASTER_RET_TMO n.val) * 500 → (s.node n.val).closed = false → s.slices n.val 0 = [e] →
    s.rd F.REC_CFG_EN = 0 → noStations s → s.pairOn = false →
    w0 = (if presence f (s.rd (F.CR_SLC_POS n.val e)) = true then s.publish (2 + 4 * n.val + 2 * ch.val) (s.rd (F.CR_SLD_DSET n.val e))
      ((f.drop (0x28 + s.rd (F.CR_SLC_OFFSET n.val e))).take (s.rd (F.CR_SLC_LEN n.val e))) else s) →
    ∃ t, exec (.crMasterRx n ch f true) s = .next t ∧ t.mem = w0.mem ∧ t.sig = w0.sig ∧ t.rd (F.CR_STATE_STATE n.val) = 2 ∧
      (t.node n.val).closed = true) ∧
  (∀ (n : Fin 3) (ch : Fin 2) (f : List Byte) (s : State), s.running = true → s.acts = true → s.rd (F.CR_STATE_STATE n.val) ≠ 0 →
    s.rd (F.CR_CFG_ROLE n.val) = 2 → s.crSum n.val f = true → noStations s →
    s.crMatch n.val ch.val f = false ∨ copyCycle f ≠ s.rd (F.CR_CYCLE_CYCLE n.val) ∨ (s.node n.val).refs = 0 ∨
      s.rd (F.CR_MASTER_RET_TMO n.val) * 500 < s.raw - (s.node n.val).ref →
    ∃ t, exec (.crMasterRx n ch f true) s = .next t ∧ counted (F.CR_PORT_00_RX_SUM (4 * n.val + 2 * ch.val + 1)) s t ∧
      (if s.crMatch n.val ch.val f = true then t.rd (F.CR_PORT_08_RX_HDR (4 * n.val + 2 * ch.val + 1)) = s.rd (F.CR_PORT_08_RX_HDR (4 * n.val + 2 * ch.val + 1))
        else counted (F.CR_PORT_08_RX_HDR (4 * n.val + 2 * ch.val + 1)) s t) ∧ t = { s with regs := t.regs } ∧
      onlyFlds [F.CR_PORT_00_RX_SUM (4 * n.val + 2 * ch.val + 1), F.CR_PORT_08_RX_HDR (4 * n.val + 2 * ch.val + 1)] s t) ∧
  (∀ (n : Fin 3) (ch : Fin 2) (f : List Byte) (ok : Bool) (s : State), noStations s → s.running = false ∨ s.rd (F.CR_STATE_STATE n.val) = 0 ∨
      s.crSum n.val f = false →
    ∃ t v, exec (.crMasterRx n ch f ok) s = .next t ∧ exec (.crMemberRx n ch f ok) s = .next v ∧ t = s ∧ v = s) ∧
  (∀ (n : Fin 3) (ch : Fin 2) (f : List Byte) (ok : Bool) (s : State), noStations s → s.acts = false ∨ s.rd (F.CR_CFG_ROLE n.val) ≠ 2 →
    ∃ t, exec (.crMasterRx n ch f ok) s = .next t ∧ t = s) ∧
  (∀ (n : Fin 3) (ch : Fin 2) (f : List Byte) (ok : Bool) (s : State), noStations s → s.crChan n.val ch.val = false ∨ s.rd (F.CR_CFG_ROLE n.val) ≠ 1 →
    ∃ t, exec (.crMemberRx n ch f ok) s = .next t ∧ t = s) ∧
  (∀ (n : Fin 3) (ch : Fin 2) (f : List Byte) (s : State), s.running = true → s.acts = true → s.rd (F.CR_STATE_STATE n.val) ≠ 0 →
    s.rd (F.CR_CFG_ROLE n.val) = 2 → s.crMatch n.val ch.val f = true → copyCycle f = s.rd (F.CR_CYCLE_CYCLE n.val) → (s.node n.val).refs ≠ 0 →
    s.raw - (s.node n.val).ref ≤ s.rd (F.CR_MASTER_RET_TMO n.val) * 500 → (s.node n.val).closed = true → s.rd (okFld n.val ch.val) = 1 → noStations s →
    ∃ t, exec (.crMasterRx n ch f true) s = .next t ∧ counted (F.CR_PORT_00_RX_SUM (4 * n.val + 2 * ch.val + 1)) s t ∧
      counted (F.CR_PORT_0C_RX_DUP (4 * n.val + 2 * ch.val + 1)) s t ∧ t = { s with regs := t.regs, car := { s.car with nodes := t.car.nodes } } ∧
      onlyFlds [F.CR_PORT_00_RX_SUM (4 * n.val + 2 * ch.val + 1), F.CR_PORT_0C_RX_DUP (4 * n.val + 2 * ch.val + 1)] s t) ∧
  (∀ (n : Fin 3) (ch : Fin 2) (f : List Byte) (s : State), s.running = true → s.acts = true → s.rd (F.CR_STATE_STATE n.val) ≠ 0 →
    s.rd (F.CR_CFG_ROLE n.val) = 2 → s.crSum n.val f = true → noStations s →
    ∃ t, exec (.crMasterRx n ch f false) s = .next t ∧ counted (F.CR_PORT_00_RX_SUM (4 * n.val + 2 * ch.val + 1)) s t ∧
      counted (F.CR_PORT_04_RX_FCS (4 * n.val + 2 * ch.val + 1)) s t ∧ t = { s with regs := t.regs } ∧
      onlyFlds [F.CR_PORT_00_RX_SUM (4 * n.val + 2 * ch.val + 1), F.CR_PORT_04_RX_FCS (4 * n.val + 2 * ch.val + 1)] s t) ∧
  (∀ (n : Fin 3) (ch : Fin 2) (f : List Byte) (s : State), s.running = true → s.pairOn = false → s.rd (F.CR_STATE_STATE n.val) = 2 →
    s.rd (F.CR_CFG_ROLE n.val) = 1 → s.crChan n.val ch.val = true → s.crMatch n.val ch.val f = true → s.crLink n.val (2 * ch.val) = true →
    s.portNow (4 * n.val + 2 * ch.val) = none → (s.node n.val).refs = 0 → (s.node n.val).lastHeld = false → (s.node n.val).image = none →
    (s.node n.val).opened = false → s.slices n.val 0 = [] → s.slices n.val 1 = [] → s.rd (okFld n.val ch.val) = 1 → noStations s →
    ∃ t, exec (.crMemberRx n ch f true) s = .next t ∧ t.rd (F.CR_CYCLE_CYCLE n.val) = copyCycle f % 2 ^ 32 ∧
      counted (F.CR_PORT_00_RX_SUM (4 * n.val + 2 * ch.val + 1)) s t ∧
      Sparse.lookup t.ports.sent (4 * n.val + 2 * ch.val) = some (true, setPresence f (s.rd (F.CR_CFG_POS n.val)) true) ∧
      (t.node n.val).refs = 1 ∧ (t.node n.val).lastHeld = true ∧ (t.node n.val).ref = s.sfdRaw f.length 40 ∧ (t.node n.val).lostRun = 0 ∧
      t = { s with
        regs := t.regs, car := { s.car with nodes := t.car.nodes }, ports := { s.ports with sent := t.ports.sent } } ∧
      onlyFlds [F.CR_PORT_00_RX_SUM (4 * n.val + 2 * ch.val + 1), F.CR_CYCLE_CYCLE n.val] s t) ∧
  (∀ (n : Fin 3) (ch : Fin 2) (f : List Byte) (e : Nat) (ok : Bool) (s : State), s.running = true → s.pairOn = false → s.rd (F.CR_STATE_STATE n.val) = 2 →
    s.rd (F.CR_CFG_ROLE n.val) = 1 → s.crChan n.val ch.val = true → s.crMatch n.val ch.val f = true → s.crLink n.val (2 * ch.val) = true →
    s.slices n.val 1 = [e] → (s.node n.val).image = none →
    ∃ t, exec (.crMemberRx n ch f ok) s = .next t ∧ Sparse.lookup t.ports.sent (4 * n.val + 2 * ch.val) = some (ok,
      frameSet (setPresence f (s.rd (F.CR_CFG_POS n.val)) (s.published (s.rd (F.CR_SLD_DSET n.val e)))) (0x28 + s.rd (F.CR_SLC_OFFSET n.val e))
        (s.latestBytes (s.rd (F.CR_SLD_DSET n.val e))))) ∧
  (∀ (n : Fin 3) (ch : Fin 2) (f : List Byte) (im : CarImage) (ok : Bool) (s : State), s.running = true → s.pairOn = false → s.rd (F.CR_STATE_STATE n.val) ≠ 0 →
    s.rd (F.CR_CFG_ROLE n.val) = 1 → s.crChan n.val ch.val = true → s.crMatch n.val ch.val f = true → s.crLink n.val (2 * ch.val) = true →
    (s.node n.val).image = some im → im.cyc = copyCycle f → reached s.raw (im.at_ + s.rd (F.CR_PERIOD_PERIOD n.val) * 500 / 2) = false →
    ∃ t, exec (.crMemberRx n ch f ok) s = .next t ∧ Sparse.lookup t.ports.sent (4 * n.val + 2 * ch.val) =
      some (ok, putImage (setPresence f (s.rd (F.CR_CFG_POS n.val)) im.here) im.data)) ∧
  (∀ (n : Fin 3) (ch : Fin 2) (f : List Byte) (ok : Bool) (s : State), s.running = true → s.pairOn = false → s.rd (F.CR_STATE_STATE n.val) ≠ 0 →
    s.rd (F.CR_CFG_ROLE n.val) = 1 → s.crChan n.val ch.val = true → s.crSum n.val f = true → s.crMatch n.val ch.val f = false →
    s.crLink n.val (2 * ch.val) = true → s.portNow (4 * n.val + 2 * ch.val) = none → noStations s →
    ∃ t, exec (.crMemberRx n ch f ok) s = .next t ∧ Sparse.lookup t.ports.sent (4 * n.val + 2 * ch.val) = some (ok, f) ∧
      counted (F.CR_PORT_08_RX_HDR (4 * n.val + 2 * ch.val + 1)) s t ∧ t = { s with regs := t.regs, ports := { s.ports with sent := t.ports.sent } } ∧
      onlyFlds [F.CR_PORT_00_RX_SUM (4 * n.val + 2 * ch.val + 1), F.CR_PORT_04_RX_FCS (4 * n.val + 2 * ch.val + 1),
        F.CR_PORT_08_RX_HDR (4 * n.val + 2 * ch.val + 1), F.CR_PORT_10_FWD_STOMP (4 * n.val + 2 * ch.val + 1)] s t) ∧
  (∀ (n : Fin 3) (ch : Fin 2) (f : List Byte) (x : TxNow) (ok : Bool) (s : State), s.running = true → s.pairOn = false → s.rd (F.CR_STATE_STATE n.val) ≠ 0 →
    s.rd (F.CR_CFG_ROLE n.val) = 1 → s.crChan n.val ch.val = true → s.crSum n.val f = true → s.portNow (4 * n.val + 2 * ch.val) = some x →
    ∃ t, exec (.crMemberRx n ch f ok) s = .next t ∧ t.portNow (4 * n.val + 2 * ch.val) = none ∧
      Sparse.lookup t.ports.cut (4 * n.val + 2 * ch.val) = some (x.frame.2.take ((s.raw + 2 ^ 64 - x.frame.1 % 2 ^ 64) % 2 ^ 64 / 40 - 8)) ∧
      counted (F.CR_PORT_18_ACYC_DROP (4 * n.val + 2 * ch.val)) s t) ∧
  (∀ (n : Fin 3) (ch : Fin 2) (f : List Byte) (s : State), s.running = true → s.pairOn = false → s.rd (F.CR_STATE_STATE n.val) ≠ 0 →
    s.rd (F.CR_CFG_ROLE n.val) = 1 → s.crChan n.val ch.val = true → s.crMatch n.val ch.val f = true → (s.node n.val).lastHeld = true →
    copyCycle f = s.rd (F.CR_CYCLE_CYCLE n.val) → s.rd (okFld n.val ch.val) = 1 → s.portNow (4 * n.val + 2 * ch.val) = none → noStations s →
    ∃ t, exec (.crMemberRx n ch f true) s = .next t ∧ counted (F.CR_PORT_0C_RX_DUP (4 * n.val + 2 * ch.val + 1)) s t ∧
      (if ch.val = 0 then (t.node n.val).gotA = true else (t.node n.val).gotB = true) ∧
      t = { s with regs := t.regs, car := { s.car with nodes := t.car.nodes }, ports := { s.ports with sent := t.ports.sent } } ∧
      onlyFlds [F.CR_PORT_00_RX_SUM (4 * n.val + 2 * ch.val + 1), F.CR_PORT_0C_RX_DUP (4 * n.val + 2 * ch.val + 1)] s t) ∧
  (∀ (n : Fin 3) (ch : Fin 2) (f : List Byte) (s : State), s.running = true → s.pairOn = false → s.rd (F.CR_STATE_STATE n.val) ≠ 0 →
    s.rd (F.CR_CFG_ROLE n.val) = 1 → s.crChan n.val ch.val = true → s.crMatch n.val ch.val f = true → s.crLink n.val (2 * ch.val) = true →
    s.portNow (4 * n.val + 2 * ch.val) = none → noStations s →
    ∃ t, exec (.crMemberRx n ch f false) s = .next t ∧ counted (F.CR_PORT_10_FWD_STOMP (4 * n.val + 2 * ch.val + 1)) s t ∧
      counted (F.CR_PORT_04_RX_FCS (4 * n.val + 2 * ch.val + 1)) s t ∧
      (Sparse.lookup t.ports.sent (4 * n.val + 2 * ch.val)).map (fun x : Bool × List Byte => x.1) = some false ∧ t.rd (F.CR_CYCLE_CYCLE n.val) = s.rd (F.CR_CYCLE_CYCLE n.val) ∧
      t = { s with regs := t.regs, car := { s.car with nodes := t.car.nodes }, ports := { s.ports with sent := t.ports.sent } }) ∧
  (∀ (n : Fin 3) (ch : Fin 2) (f : List Byte) (s : State), s.running = true → s.pairOn = false → s.rd (F.CR_STATE_STATE n.val) ≠ 0 →
    s.rd (F.CR_CFG_ROLE n.val) = 1 → s.crChan n.val ch.val = true → s.crMatch n.val ch.val f = true → s.crLink n.val (2 * ch.val) = false →
    s.portNow (4 * n.val + 2 * ch.val) = none → (s.node n.val).lastHeld = true →
    2 ^ 31 ≤ (copyCycle f + 2 ^ 32 - s.rd (F.CR_CYCLE_CYCLE n.val)) % 2 ^ 32 → noStations s →
    ∃ t, exec (.crMemberRx n ch f true) s = .next t ∧ counted (F.CR_PORT_0C_OLD (4 * n.val + 2 * ch.val + 1)) s t ∧
      t.rd (F.CR_CYCLE_CYCLE n.val) = s.rd (F.CR_CYCLE_CYCLE n.val) ∧ t = { s with regs := t.regs, car := { s.car with nodes := t.car.nodes } }) ∧
  (∀ (n : Fin 3) (s : State), s.running = true → s.acts = true → s.rd (F.CR_CFG_ROLE n.val) = 2 → s.rd (F.CR_STATE_STATE n.val) = 2 →
    (s.node n.val).closed = false → reached s.raw ((s.node n.val).ref + s.rd (F.CR_MASTER_RET_TMO n.val) * 500) = true →
    s.slices n.val 0 = [] → s.lossN n.val ≤ (s.node n.val).lostRun + 1 → noStations s →
    ∃ t, exec (.crReturnTimeout n) s = .next t ∧ counted (F.CR_MISSED_MISSED n.val) s t ∧ t.rd (F.CR_STATE_STATE n.val) = 3 ∧
      (t.node n.val).closed = true ∧ (t.node n.val).lostRun = (s.node n.val).lostRun + 1 ∧
      (t.evt.queue.drop s.evt.queue.length).getLast? = some (⟨130 + 8 * n.val, [(s.node n.val).acc], BitVec.ofNat 64 s.ntNs, none⟩ : Raise) ∧
      (∀ i < 126, t.rd (missFld n.val i) = min (s.rd (missFld n.val i) + 1) 255) ∧
      t = { s with regs := t.regs, evt := t.evt, car := { s.car with nodes := t.car.nodes } } ∧
      onlyFlds ([F.CR_MISSED_MISSED n.val, F.CR_STATE_STATE n.val] ++ (List.range 126).map (missFld n.val)) s t) ∧
  (∀ (n : Fin 3) (s : State), s.running = true → s.acts = true → s.rd (F.CR_CFG_ROLE n.val) = 2 → s.rd (F.CR_STATE_STATE n.val) ≠ 0 →
    (s.node n.val).closed = false → reached s.raw ((s.node n.val).ref + s.rd (F.CR_MASTER_RET_TMO n.val) * 500) = true →
    s.rd (F.CR_STATE_STATE n.val) ≠ 2 ∨ (s.node n.val).lostRun + 1 < s.lossN n.val → noStations s →
    ∃ t, exec (.crReturnTimeout n) s = .next t ∧ counted (F.CR_MISSED_MISSED n.val) s t ∧ t.rd (F.CR_STATE_STATE n.val) = s.rd (F.CR_STATE_STATE n.val) ∧
      (t.node n.val).closed = true ∧ (t.node n.val).lostRun = (s.node n.val).lostRun + 1 ∧
      t = { s with regs := t.regs, evt := t.evt, car := { s.car with nodes := t.car.nodes } } ∧
      onlyFlds ([F.CR_MISSED_MISSED n.val] ++ (List.range 126).map (missFld n.val)) s t) ∧
  (∀ (n : Fin 3) (s : State), noStations s → s.running = false ∨ s.acts = false ∨ s.rd (F.CR_CFG_ROLE n.val) ≠ 2 ∨ s.rd (F.CR_STATE_STATE n.val) = 0 ∨
      (s.node n.val).closed = true ∨ reached s.raw ((s.node n.val).ref + s.rd (F.CR_MASTER_RET_TMO n.val) * 500) = false →
    ∃ t, exec (.crReturnTimeout n) s = .next t ∧ t = s) ∧
  (∀ (n : Fin 3) (s : State), noStations s → s.running = false ∨ s.rd (F.CR_CFG_ROLE n.val) ≠ 1 ∨ s.rd (F.CR_STATE_STATE n.val) = 0 ∨
      reached s.raw ((s.node n.val).lossFrom + s.rd (F.CR_PERIOD_PERIOD n.val) * 500 * 9 / 8) = false →
    ∃ t, exec (.crMemberCycleTimeout n) s = .next t ∧ t = s) ∧
  (∀ (n : Fin 3) (s : State), s.running = true → s.rd (F.CR_CFG_ROLE n.val) = 1 → s.rd (F.CR_STATE_STATE n.val) = 2 →
    reached s.raw ((s.node n.val).lossFrom + s.rd (F.CR_PERIOD_PERIOD n.val) * 500 * 9 / 8) = true →
    s.lossN n.val ≤ (s.node n.val).lostRun + 1 → noStations s →
    ∃ t, exec (.crMemberCycleTimeout n) s = .next t ∧ counted (F.CR_MISSED_MISSED n.val) s t ∧ t.rd (F.CR_STATE_STATE n.val) = 3 ∧
      (t.node n.val).lastHeld = false ∧
      (t.evt.queue.drop s.evt.queue.length).getLast? = some (⟨130 + 8 * n.val, [(s.node n.val).acc], BitVec.ofNat 64 s.ntNs, none⟩ : Raise) ∧
      t = { s with regs := t.regs, evt := t.evt, car := { s.car with nodes := t.car.nodes } }) ∧
  (∀ (n : Fin 3) (s : State), s.running = true → s.rd (F.CR_CFG_ROLE n.val) = 1 → s.rd (F.CR_STATE_STATE n.val) = 2 →
    reached s.raw ((s.node n.val).lossFrom + s.rd (F.CR_PERIOD_PERIOD n.val) * 500 * 9 / 8) = true → s.slices n.val 0 = [] →
    (s.node n.val).lostRun + 1 < s.lossN n.val → s.rd (F.CR_CFG_A_EN n.val) = 0 → s.rd (F.CR_CFG_B_EN n.val) = 0 → noStations s →
    ∃ t, exec (.crMemberCycleTimeout n) s = .next t ∧ counted (F.CR_MISSED_MISSED n.val) s t ∧ (t.node n.val).lostRun = (s.node n.val).lostRun + 1 ∧
      (t.node n.val).lossFrom = (s.node n.val).lossFrom + s.rd (F.CR_PERIOD_PERIOD n.val) * 500 * 9 / 8 ∧
      t = { s with regs := t.regs, car := { s.car with nodes := t.car.nodes } } ∧ onlyFlds [F.CR_MISSED_MISSED n.val] s t)

/-- Acyclic frames and ports of the car rings (R286 to R290, R293): reception, forwarding, the commands of a port, the start and the end
of an own frame, links. A clause that ends in t = s (an event before its instant or without its condition changes nothing) is the model's
choice, notes/assumptions/2.md. -/
def Obligations.CarRingAcyclicFrames : Prop :=
  (∀ (n : Fin 3) (ch : Fin 2) (f : List Byte) (c : Cmd) (a size sfd stamp : Nat) (s : State), s.running = true → s.acts = true → s.rd (F.CR_STATE_STATE n.val) ≠ 0 →
    s.crChan n.val ch.val = true → s.crSum n.val f = false → frameDa f = s.crMac n.val → frameSa f ≠ s.crMac n.val → a = c.addr 0x10 →
    s.findOut (4 * n.val + 2 * ch.val + 2) 0x11 (fun _ => true) = some c → size = c.fld 8 0 11 → f.length < 2048 → s.ecc = [] → s.pairOn = false →
    ptpEvent f = true → sfd = s.sfdRaw f.length 40 → stamp = s.ntCaptured sfd (sfd + 118) →
    ∃ v t, v = (s.dropResv a (min size f.length)).setBytes a (f.take size) ∧ v.bytes a (min size f.length) = f.take size ∧ exec (.crAcycRx n ch f true) s = .next t ∧
      t = (v.endLong c ⟨0x00, if size < f.length then 1 else 0, [BitVec.ofNat 32 (f.length + 65536 * (stamp % 65536)), BitVec.ofNat 32 (stamp / 65536),
        BitVec.ofNat 32 (stamp / 2 ^ 48)]⟩).satAdd (F.CR_PORT_14_RX_ACYC (4 * n.val + 2 * ch.val + 1)) 1) ∧
  (∀ (n : Fin 3) (ch : Fin 2) (f : List Byte) (c : Cmd) (a size : Nat) (s : State), s.running = true → s.acts = true → s.rd (F.CR_STATE_STATE n.val) ≠ 0 →
    s.crChan n.val ch.val = true → s.crSum n.val f = false → frameDa f = s.crMac n.val → frameSa f ≠ s.crMac n.val → a = c.addr 0x10 →
    s.findOut (4 * n.val + 2 * ch.val + 2) 0x11 (fun _ => true) = some c → size = c.fld 8 0 11 → f.length < 2048 → s.ecc = [] → s.pairOn = false →
    ptpEvent f = false →
    ∃ v t, v = (State.dropResv { s with freeCtr := s.freeCtr + 2 } a (min size f.length)).setBytes a (f.take size) ∧ exec (.crAcycRx n ch f true) s = .next t ∧
      t = (v.endLong c ⟨0x00, if size < f.length then 1 else 0,
        [BitVec.ofNat 32 (f.length + 65536 * ((Config.freeValue s.freeCtr).toNat % 65536)), BitVec.ofNat 32 ((Config.freeValue s.freeCtr).toNat / 65536),
          BitVec.ofNat 32 ((Config.freeValue s.freeCtr).toNat / 2 ^ 48 + 65536 * (Config.freeValue (s.freeCtr + 1)).toNat)]⟩).satAdd
        (F.CR_PORT_14_RX_ACYC (4 * n.val + 2 * ch.val + 1)) 1) ∧
  (∀ (n : Fin 3) (ch : Fin 2) (f : List Byte) (s : State), s.phase ≠ Phase.reset → s.running = true → s.acts = true → s.rd (F.CR_STATE_STATE n.val) ≠ 0 →
    s.crChan n.val ch.val = true → s.crSum n.val f = false → frameDa f = s.crMac n.val → frameSa f ≠ s.crMac n.val →
    s.findOut (4 * n.val + 2 * ch.val + 2) 0x11 (fun _ => true) = none →
    ∃ t, exec (.crAcycRx n ch f true) s = .next t ∧ counted (F.CR_PORT_18_ACYC_DROP (4 * n.val + 2 * ch.val + 1)) s t ∧
      raised [(135 + 8 * n.val, [BitVec.ofNat 32 (2 * ch.val + 1)])] s t ∧ t = { s with regs := t.regs, evt := t.evt } ∧
      onlyFlds [F.CR_PORT_18_ACYC_DROP (4 * n.val + 2 * ch.val + 1)] s t) ∧
  (∀ (n : Fin 3) (ch : Fin 2) (f : List Byte) (s : State), s.running = true → s.acts = true → s.rd (F.CR_STATE_STATE n.val) ≠ 0 →
    s.crChan n.val ch.val = true → s.crSum n.val f = false → frameDa f ≠ s.crMac n.val → frameSa f ≠ s.crMac n.val → frameFld f 0 1 % 2 = 0 →
    ∃ t, exec (.crAcycRx n ch f true) s = .next t ∧
      (if (s.fwdBuf n.val ch.val).length < 2 then t.fwdBuf n.val ch.val = s.fwdBuf n.val ch.val ++ [f] ∧ t = { s with car := { s.car with fwd := t.car.fwd } }
      else counted (F.CR_PORT_18_ACYC_DROP (4 * n.val + 2 * ch.val + 1)) s t ∧ t = { s with regs := t.regs } ∧
        onlyFlds [F.CR_PORT_18_ACYC_DROP (4 * n.val + 2 * ch.val + 1)] s t)) ∧
  (∀ (n : Fin 3) (ch : Fin 2) (f : List Byte) (s : State), s.running = true → s.acts = true → s.rd (F.CR_STATE_STATE n.val) ≠ 0 →
    s.crChan n.val ch.val = true → s.crSum n.val f = false → frameDa f ≠ s.crMac n.val → frameSa f ≠ s.crMac n.val → frameFld f 0 1 % 2 = 1 →
    (s.fwdBuf n.val ch.val).length < 2 →
    ∃ t, exec (.crAcycRx n ch f true) s = .next t ∧ t.fwdBuf n.val ch.val = s.fwdBuf n.val ch.val ++ [f] ∧
      (if (s.findOut (4 * n.val + 2 * ch.val + 2) 0x11 (fun _ => true)).isSome = true then counted (F.CR_PORT_14_RX_ACYC (4 * n.val + 2 * ch.val + 1)) s t
        else counted (F.CR_PORT_18_ACYC_DROP (4 * n.val + 2 * ch.val + 1)) s t)) ∧
  (∀ (n : Fin 3) (ch : Fin 2) (f : List Byte) (s : State), s.running = true → s.acts = true → s.rd (F.CR_STATE_STATE n.val) ≠ 0 →
    s.crChan n.val ch.val = true → s.crSum n.val f = false →
    ∃ t, exec (.crAcycRx n ch f false) s = .next t ∧ counted (F.CR_PORT_04_RX_FCS (4 * n.val + 2 * ch.val + 1)) s t ∧ t = { s with regs := t.regs } ∧
      onlyFlds [F.CR_PORT_04_RX_FCS (4 * n.val + 2 * ch.val + 1)] s t) ∧
  (∀ (n : Fin 3) (ch : Fin 2) (f : List Byte) (ok : Bool) (s : State), s.running = false ∨ s.acts = false ∨ s.rd (F.CR_STATE_STATE n.val) = 0 ∨
      s.crChan n.val ch.val = false ∨ s.crSum n.val f = true ∨ (ok = true ∧ frameSa f = s.crMac n.val) →
    ∃ t, exec (.crAcycRx n ch f ok) s = .next t ∧ t = s) ∧
  (∀ (n : Fin 3) (ch : Fin 2) (f : List Byte) (q : List (List Byte)) (s : State), s.fwdBuf n.val ch.val = f :: q → s.running = true →
    s.rd (F.CR_STATE_STATE n.val) ≠ 0 → s.crLink n.val (2 * ch.val) = true → s.pairOn = false → s.portNow (4 * n.val + 2 * ch.val) = none →
    ∃ t, exec (.crAcycForward n ch) s = .next t ∧ t.fwdBuf n.val ch.val = q ∧ Sparse.lookup t.ports.sent (4 * n.val + 2 * ch.val) = some (true, f) ∧
      Sparse.lookup t.ports.now (4 * n.val + 2 * ch.val) = some (TxNow.forward s.raw f) ∧
      t = { s with car := { s.car with fwd := t.car.fwd }, ports := t.ports }) ∧
  (∀ (n : Fin 3) (ch : Fin 2) (s : State), s.fwdBuf n.val ch.val = [] ∨ s.running = false ∨ s.rd (F.CR_STATE_STATE n.val) = 0 ∨
      s.crOut n.val ch.val = false ∨ s.portNow (4 * n.val + 2 * ch.val) ≠ none →
    ∃ t, exec (.crAcycForward n ch) s = .next t ∧ t = s) ∧
  (∀ (p : Fin 12) (c : Cmd) (s : State), inHand (1 + p.val) 0x10 c s → c.fin = none →
    ∃ v t, v = s.accept (1 + p.val) c ∧ exec (.crTx p) s = .next t ∧
      t = v.setOut { c with long := true, ntAcc := BitVec.ofNat 32 s.ntNs, aux := [(s.node (p.val / 4)).refs, b2n (s.crLink (p.val / 4) (p.val % 4))] }) ∧
  (∀ (p : Fin 12) (c : Cmd) (f : Final) (s : State), inHand (1 + p.val) 0x10 c s → c.fin = some f →
    ∃ t, exec (.crTx p) s = .next t ∧ t = s.finish (1 + p.val) c f) ∧
  (∀ (p : Fin 12) (c : Cmd) (s : State), inHand (1 + p.val) 0x11 c s →
    ∃ t, exec (.crRxPost p) s = .next t ∧ t = (match c.fin with
      | none => s.accept (1 + p.val) c
      | some f => s.finish (1 + p.val) c f)) ∧
  (∀ (p : Fin 12) (s : State), s.hand (1 + p.val) = none ∨ s.running = false →
    ∃ t v w0, exec (.crTx p) s = .next t ∧ exec (.crRxPost p) s = .next v ∧ exec (.crStatus p) s = .next w0 ∧ t = s ∧ v = s ∧ w0 = s) ∧
  (∀ (p : Fin 12) (c : Cmd) (s : State), s.findOut (1 + p.val) 0x10 (fun _ => true) = some c → s.running = true → s.pairOn = false → s.ecc = [] →
    s.rd (F.CR_STATE_STATE (p.val / 4)) ≠ 0 → s.crLink (p.val / 4) (2 * (p.val % 4 / 2)) = true → s.portNow p.val = none →
    s.fwdBuf (p.val / 4) (p.val % 4 / 2) = [] → s.crWindow (p.val / 4) (c.fld 8 0 11) = true → s.crOld (p.val / 4) c = false →
    ∃ t, exec (.crTxStart p) s = .next t ∧ Sparse.lookup t.ports.sent p.val = some (true, s.bytes (c.addr 0x10) (c.fld 8 0 11)) ∧
      Sparse.lookup t.ports.now p.val = some (TxNow.own c.ring c.pos s.raw (s.bytes (c.addr 0x10) (c.fld 8 0 11))) ∧
      (if c.fld 8 16 1 = 0 then t = { s with ports := t.ports }
      else if (s.tsQueue p.val).length < 32 then
        t.tsQueue p.val = s.tsQueue p.val ++ [(BitVec.ofNat 16 c.tag, BitVec.ofNat 80 (s.ntCaptured (s.raw + 320) s.raw))] ∧
        t.rd (F.TB_TSQ_STAT_LEVEL p.val) = (s.tsQueue p.val).length + 1 ∧
        t = { s with regs := t.regs, ports := t.ports, tb := { s.tb with tsq := t.tb.tsq } } ∧ onlyFlds [F.TB_TSQ_STAT_LEVEL p.val] s t
      else t.rd ⟨Reg.TB_TSQ_OVF, p.val, 1⟩ = 1 ∧ counted (F.TB_TSQ_STAT_DROPS p.val) s t ∧
        raised [(195, [BitVec.ofNat 32 (p.val + 65536 * (c.tag % 65536))])] s t ∧
        t = { s with regs := t.regs, evt := t.evt, ports := t.ports } ∧ onlyFlds [⟨Reg.TB_TSQ_OVF, p.val, 1⟩, F.TB_TSQ_STAT_DROPS p.val] s t)) ∧
  (∀ (p : Fin 12) (s : State), s.running = false ∨ s.rd (F.CR_STATE_STATE (p.val / 4)) = 0 ∨ s.crOut (p.val / 4) (p.val % 4 / 2) = false ∨
      s.portNow p.val ≠ none ∨ s.fwdBuf (p.val / 4) (p.val % 4 / 2) ≠ [] ∨
      (s.findOut (1 + p.val) 0x10 (fun _ => true)).all (fun c : Cmd => !s.crWindow (p.val / 4) (c.fld 8 0 11) || s.crOld (p.val / 4) c) = true →
    ∃ t, exec (.crTxStart p) s = .next t ∧ t = s) ∧
  (∀ (p : Fin 16) (c : Cmd) (r : Nat) (f : List Byte) (s : State), p.val < 12 → s.portNow p.val = some (TxNow.own c.ring c.pos r f) →
    reached s.raw (r + (f.length + 12) * 40) = true → s.findOut (1 + p.val) 0x10 (fun d => d.ring == c.ring && d.pos == c.pos) = some c →
    ∃ v t, v = (s.setPortNow p.val none).satAdd (F.CR_PORT_1C_TX_ACYC p.val) 1 ∧ v.portNow p.val = none ∧
      counted (F.CR_PORT_1C_TX_ACYC p.val) s v ∧ exec (.txFrameEnd p) s = .next t ∧ t = v.endLong c ⟨0x00, 0, []⟩) ∧
  (∀ (p : Fin 16) (c : Cmd) (r : Nat) (f : List Byte) (s : State), p.val < 12 → s.portNow p.val = some (TxNow.own c.ring c.pos r f) →
    reached s.raw (r + (f.length + 12) * 40) = false → ∃ t, exec (.txFrameEnd p) s = .next t ∧ t = s) ∧
  (∀ (p : Fin 16) (s : State), p.val < 12 → s.portNow p.val = none → ∃ t, exec (.txFrameEnd p) s = .next t ∧ t = s) ∧
  (∀ (p : Fin 12) (c : Cmd) (s : State),
    (s.outOf (1 + p.val)).find? (fun c => c.opcode == 0x10 && !((s.portNow p.val).any (TxNow.isOwn c)) && s.crOld (p.val / 4) c) = some c →
    s.running = true →
    ∃ t, exec (.crTxExpiry p) s = .next t ∧ t = s.endLong c ⟨if c.aux.getD 1 0 = 0 then 0x11 else 0x10, 0, []⟩) ∧
  (∀ (p : Fin 12) (s : State), s.running = false ∨ (s.outOf (1 + p.val)).all (fun c : Cmd => c.opcode != 0x10 || decide (s.crPassed (p.val / 4) c ≤ c.fld 8 24 8)) = true →
    ∃ t, exec (.crTxExpiry p) s = .next t ∧ t = s) ∧
  (∀ (p : Fin 12) (c : Cmd) (a : Nat) (s : State), inHand (1 + p.val) 0x12 c s → a = c.addr 0x10 → s.ecc = [] → s.pairOn = false →
    c.headerOk = true → c.word 8 = 0 → c.word 0xC = 0 → c.fld 0x14 8 24 = 0 → c.zeroFrom 0x18 = true → a % 64 = 0 →
    s.rd (F.CR_CFG_ROLE (p.val / 4)) ≠ 0 → s.engineMayWrite a 144 = true →
    ∃ v t, v = (s.dropResv a 144).setBytes a (wordBytes ([s.reg (Reg.CR_CYCLE (p.val / 4)), s.reg (Reg.CR_STATE (p.val / 4)), s.reg (Reg.CR_MISSED (p.val / 4)),
        s.reg (Reg.CR_RTT (p.val / 4))] ++ (List.range 32).map (fun w => s.reg (Reg.CR_MISS (p.val / 4) w)))) ∧
      v.words a 4 = [s.reg (Reg.CR_CYCLE (p.val / 4)), s.reg (Reg.CR_STATE (p.val / 4)), s.reg (Reg.CR_MISSED (p.val / 4)), s.reg (Reg.CR_RTT (p.val / 4))] ∧
      sameMemBut a 144 s v ∧ exec (.crStatus p) s = .next t ∧ t = v.finish (1 + p.val) c ⟨0x00, 0, []⟩) ∧
  (∀ (p : Fin 12) (c : Cmd) (a : Nat) (s : State), inHand (1 + p.val) 0x12 c s → a = c.addr 0x10 →
    c.headerOk = false ∨ c.word 8 ≠ 0 ∨ c.word 0xC ≠ 0 ∨ c.fld 0x14 8 24 ≠ 0 ∨ c.zeroFrom 0x18 = false ∨ a % 64 ≠ 0 ∨
      s.rd (F.CR_CFG_ROLE (p.val / 4)) = 0 ∨ s.engineMayWrite a 144 = false →
    ∃ t, exec (.crStatus p) s = .next t ∧ t = s.finish (1 + p.val) c ⟨0x20, 0, []⟩) ∧
  (∀ (p : Fin 12) (up : Bool) (s : State), s.phase ≠ Phase.reset → s.crLink (p.val / 4) (p.val % 4) = !up →
    ∃ t, exec (.crLinkChange p up) s = .next t ∧ t.crLink (p.val / 4) (p.val % 4) = up ∧
      raised [(134 + 8 * (p.val / 4), [BitVec.ofNat 32 (p.val % 4 + 256 * b2n up)])] s t ∧
      (up = false → Sparse.lookup t.ports.now p.val = none) ∧
      (up = true → t.ports = s.ports ∧ (t.outOf (1 + p.val)).all (fun c : Cmd => c.aux.getD 1 0 == 1) = true) ∧
      t = { s with regs := t.regs, evt := t.evt, ports := { s.ports with now := t.ports.now }, rings := { s.rings with out := t.rings.out } } ∧
      onlyFlds [⟨Reg.CR_STATE (p.val / 4), 4 + p.val % 4, 1⟩] s t) ∧
  (∀ (p : Fin 12) (up : Bool) (s : State), s.crLink (p.val / 4) (p.val % 4) = up → ∃ t, exec (.crLinkChange p up) s = .next t ∧ t = s)

/-- Receiving on the consist backbone (R296, R297, R304, R305, R315, R316): a sync copy at a follower, a second one, one that does not
check or is of another time master; a basic cycle without one; relaying; data frames and raw frames. A clause that ends in t = s (an event
before its instant or without its condition changes nothing) is the model's choice, notes/assumptions/2.md. Where the clauses meet what
notes/assumptions/50.md, notes/assumptions/51.md, notes/assumptions/52.md, notes/assumptions/53.md record, they say the model's choice. -/
def Obligations.BackboneReceives : Prop :=
  (∀ (q : Fin 4) (f : List Byte) (s : State), s.cbHears q.val f = true → s.cbOurs f = true → cbType f = 0 → cbVer f = true →
    frameFld f 15 1 = s.rd F.CB_CFG_TM_NODE → s.rd F.CB_CFG_ROLE = 1 → s.cb.starts ≠ 0 → reached s.raw (s.winEnd 0) = false → s.cb.got = false →
    s.rd (cbOkFld (q.val / 2)) = 1 → 0 < s.rd F.CB_CFG_SYNC_LOSS_N → frameFld f 0x16 2 % 2 = 0 → s.rd F.REC_CFG_EN = 0 →
    s.cbState = 2 → s.cbValid s.cbActive = true → s.cbId s.cbActive = frameFld f 0x18 4 → (s.cbDev f).natAbs ≤ s.rd F.CB_SYNCCHK_SYNC_TOL * 50 →
    ∃ t, exec (.cbSyncRx q f true) s = .next t ∧ counted (F.CB_PORT_00_RX_OK q.val) s t ∧ t.rd F.CB_MCN_MCN = frameFld f 0x10 4 % 2 ^ 32 ∧
      t.rd F.CB_POS_BC = frameFld f 0x14 1 % 2 ^ F.CB_POS_BC.w ∧ t.rd F.CB_POS_N_BC = frameFld f 0x15 1 % 2 ^ F.CB_POS_N_BC.w ∧
      t.cb.got = true ∧ t.cb.missRun = 0 ∧ t.rd F.CB_STAT_STATE = 2 ∧ t.rd F.CB_BANKS_ANN_PEND = 0 ∧
      t = { s with regs := t.regs, cb := t.cb } ∧
      onlyFlds [F.CB_PORT_00_RX_OK q.val, F.CB_MCN_MCN, F.CB_POS_BC, F.CB_POS_N_BC, F.CB_SYNCDEV_LAST, F.CB_SYNCDEV_MAX, F.CB_BANKS_ANN_PEND,
        F.CB_ANN_ID_ANN_ID, F.CB_ACT_MCN_ACT_MCN] s t) ∧
  (∀ (q : Fin 4) (f : List Byte) (s : State), s.cbHears q.val f = true → s.cbOurs f = true → cbType f = 0 → cbVer f = true →
    frameFld f 15 1 = s.rd F.CB_CFG_TM_NODE → s.rd F.CB_CFG_ROLE = 1 → s.cb.starts ≠ 0 → reached s.raw (s.winEnd 0) = false → s.cb.got = true →
    s.rd (cbOkFld (q.val / 2)) = 1 → 0 < s.rd F.CB_CFG_SYNC_LOSS_N →
    ∃ t, exec (.cbSyncRx q f true) s = .next t ∧ counted (F.CB_PORT_00_RX_OK q.val) s t ∧ counted (F.CB_PORT_0C_RX_DUP q.val) s t ∧
      t = { s with regs := t.regs, cb := t.cb } ∧ onlyFlds [F.CB_PORT_00_RX_OK q.val, F.CB_PORT_0C_RX_DUP q.val] s t) ∧
  (∀ (q : Fin 4) (f : List Byte) (s : State), s.cbHears q.val f = true → s.cbOurs f = true → cbType f = 0 →
    ∃ t, exec (.cbSyncRx q f false) s = .next t ∧ counted (F.CB_PORT_04_RX_FCS q.val) s t ∧ t = { s with regs := t.regs } ∧
      onlyFlds [F.CB_PORT_04_RX_FCS q.val] s t) ∧
  (∀ (q : Fin 4) (f : List Byte) (s : State), s.cbHears q.val f = true → s.cbOurs f = true → cbType f = 0 → cbVer f = true →
    frameFld f 15 1 ≠ s.rd F.CB_CFG_TM_NODE →
    ∃ t, exec (.cbSyncRx q f true) s = .next t ∧ counted F.CB_CNT_SYNC_FOREIGN s t ∧ t = { s with regs := t.regs } ∧
      onlyFlds [F.CB_CNT_SYNC_FOREIGN] s t) ∧
  (∀ s : State, s.running = true → s.rd F.CB_CFG_ROLE = 1 → s.cbState = 2 → 0 < s.cb.starts → s.cb.got = false → s.cb.judged = false →
    reached s.raw (s.winEnd 0) = true → s.cb.missRun + 1 < s.rd F.CB_CFG_SYNC_LOSS_N → s.rd F.CB_CFG_SYNC_HOLD = 0 →
    ∃ t, exec .cbSyncMissed s = .next t ∧ counted F.CB_CNT_SYNC_MISS s t ∧ t.cbState = 3 ∧ t.rd F.CB_STAT_LISTEN_WHY = 1 ∧
      raised [(162, [1, s.cb.heard])] s t ∧ t.cb = { s.cb with judged := true, missRun := s.cb.missRun + 1 } ∧
      t = { s with regs := t.regs, evt := t.evt, cb := t.cb } ∧ onlyFlds [F.CB_CNT_SYNC_MISS, F.CB_STAT_STATE, F.CB_STAT_LISTEN_WHY] s t) ∧
  (∀ s : State, s.running = true → s.rd F.CB_CFG_ROLE = 1 → s.cbState = 2 → 0 < s.cb.starts → s.cb.got = false → s.cb.judged = false →
    reached s.raw (s.winEnd 0) = true → s.rd F.CB_CFG_SYNC_LOSS_N ≤ s.cb.missRun + 1 →
    ∃ t, exec .cbSyncMissed s = .next t ∧ counted F.CB_CNT_SYNC_MISS s t ∧ t.cbState = 4 ∧ raised [(160, [BitVec.ofNat 32 (s.rd F.CB_MCN_MCN)])] s t ∧
      t = { s with regs := t.regs, evt := t.evt, cb := t.cb } ∧ onlyFlds [F.CB_CNT_SYNC_MISS, F.CB_STAT_STATE] s t) ∧
  (∀ (q : Fin 4) (f : List Byte) (ok : Bool) (o : Nat) (s : State), o = 2 * (q.val / 2) + (1 - q.val % 2) → s.cbHears q.val f = true → s.pairOn = false →
    s.cbLink o = true → Sparse.lookup s.cb.relay o = none → s.cbBusy o = false →
    ∃ t, exec (.cbRelay q f ok) s = .next t ∧ Sparse.lookup t.ports.sent (12 + o) = some (ok, f) ∧ counted (F.CB_PORT_10_RLY_FWD o) s t ∧
      t.cbBusyEnd o = s.raw + (f.length + 12) * 4 ∧
      t = { s with regs := t.regs, ports := { s.ports with sent := t.ports.sent }, cb := { s.cb with busyEnd := t.cb.busyEnd, seenEnd := t.cb.seenEnd } } ∧
      onlyFlds [F.CB_PORT_10_RLY_FWD o] s t) ∧
  (∀ (q : Fin 4) (f : List Byte) (ok : Bool) (o : Nat) (s : State), o = 2 * (q.val / 2) + (1 - q.val % 2) → s.cbHears q.val f = true → s.pairOn = false →
    s.cbLink o = true → Sparse.lookup s.cb.relay o = none → s.cbBusy o = true →
    ∃ t, exec (.cbRelay q f ok) s = .next t ∧ Sparse.lookup t.cb.relay o = some (ok, f) ∧
      t = { s with cb := { s.cb with relay := t.cb.relay, seenEnd := t.cb.seenEnd } }) ∧
  (∀ (q : Fin 4) (f : List Byte) (ok : Bool) (s : State), s.cbOn = true → s.phase ≠ Phase.reset → s.cbChan (q.val / 2) = true → frameSa f = s.cbMac →
    ∃ t, exec (.cbRelay q f ok) s = .next t ∧ counted (F.CB_PORT_14_LOOP q.val) s t ∧ raised [(172, [BitVec.ofNat 32 q.val])] s t ∧
      t = { s with regs := t.regs, evt := t.evt, cb := { s.cb with seenEnd := t.cb.seenEnd } } ∧ onlyFlds [F.CB_PORT_14_LOOP q.val] s t) ∧
  (∀ (q : Fin 4) (ok : Bool) (f : List Byte) (s : State), Sparse.lookup s.cb.relay q.val = some (ok, f) → s.cbOn = true →
    reached s.raw (s.cbBusyEnd q.val + 48) = true → s.cbLink q.val = true → s.pairOn = false →
    ∃ t, exec (.cbRelayBuffered q) s = .next t ∧ Sparse.lookup t.cb.relay q.val = none ∧ Sparse.lookup t.ports.sent (12 + q.val) = some (ok, f) ∧
      counted (F.CB_PORT_10_RLY_FWD q.val) s t ∧
      t = { s with
        regs := t.regs, ports := { s.ports with sent := t.ports.sent },
        cb := { s.cb with relay := t.cb.relay, busyEnd := t.cb.busyEnd, seenEnd := t.cb.seenEnd } }) ∧
  (∀ (q : Fin 4) (f : List Byte) (s : State), s.cbHears q.val f = true → s.cbOurs f = true → cbType f = 1 → cbVer f = true →
    frameFld f 14 1 / 8 % 2 = q.val / 2 → s.rxDataset (frameFld f 0x18 4 % 2 ^ 26) = none →
    ∃ t, exec (.cbDataRx q f true) s = .next t ∧ counted (F.CB_PORT_00_RX_OK q.val) s t ∧ counted (F.CB_PORT_08_RX_HDR q.val) s t ∧
      t = { s with regs := t.regs } ∧ onlyFlds [F.CB_PORT_00_RX_OK q.val, F.CB_PORT_08_RX_HDR q.val] s t) ∧
  (∀ (q : Fin 4) (f : List Byte) (d : Nat) (s : State), s.cbHears q.val f = true → s.cbOurs f = true → cbType f = 1 → cbVer f = true →
    frameFld f 14 1 / 8 % 2 = q.val / 2 → s.rxDataset (frameFld f 0x18 4 % 2 ^ 26) = some d → frameFld f 0x16 2 = s.dlen d → 0x20 + s.dlen d ≤ f.length →
    s.ds d 0x24 10 1 = 0 →
    ∃ v t, v = ((s.satAdd (F.CB_PORT_00_RX_OK q.val) 1).setDs (0x0D + q.val) d 0x30 0 32 (frameFld f 0x1C 4)).setDs (0x0D + q.val) d 0x24 10 1 1 ∧
      counted (F.CB_PORT_00_RX_OK q.val) s v ∧ v.ds d 0x30 0 32 = frameFld f 0x1C 4 % 2 ^ 32 ∧ v.ds d 0x24 10 1 = 1 ∧
      exec (.cbDataRx q f true) s = .next t ∧ t = v.publish (0x0D + q.val) d ((f.drop 0x20).take (s.dlen d))) ∧
  (∀ (q : Fin 4) (f : List Byte) (c : Cmd) (a size sfd stamp : Nat) (s : State), s.cbHears q.val f = true → s.cbOurs f = false →
    frameDa f = s.cbMac ∨ frameFld f 0 1 % 2 = 1 → a = c.addr 0x10 → s.findOut (0x0D + q.val) 0x21 (fun _ => true) = some c →
    size = c.fld 8 0 11 → f.length < 2048 → s.ecc = [] → s.pairOn = false → ptpEvent f = true → sfd = s.sfdRaw f.length 4 →
    stamp = s.ntCaptured sfd (sfd + 156) →
    ∃ v t, v = (s.dropResv a (min size f.length)).setBytes a (f.take size) ∧ v.bytes a (min size f.length) = f.take size ∧
      exec (.cbRawRx q f true) s = .next t ∧
      t = v.endLong c ⟨0x00, if size < f.length then 1 else 0, [BitVec.ofNat 32 (f.length + 65536 * (stamp % 65536)), BitVec.ofNat 32 (stamp / 65536),
        BitVec.ofNat 32 (stamp / 2 ^ 48)]⟩) ∧
  (∀ (q : Fin 4) (f : List Byte) (c : Cmd) (a size : Nat) (s : State), s.cbHears q.val f = true → s.cbOurs f = false →
    frameDa f = s.cbMac ∨ frameFld f 0 1 % 2 = 1 → a = c.addr 0x10 → s.findOut (0x0D + q.val) 0x21 (fun _ => true) = some c →
    size = c.fld 8 0 11 → f.length < 2048 → s.ecc = [] → s.pairOn = false → ptpEvent f = false →
    ∃ v t, v = (State.dropResv { s with freeCtr := s.freeCtr + 2 } a (min size f.length)).setBytes a (f.take size) ∧
      exec (.cbRawRx q f true) s = .next t ∧
      t = v.endLong c ⟨0x00, if size < f.length then 1 else 0,
        [BitVec.ofNat 32 (f.length + 65536 * ((Config.freeValue s.freeCtr).toNat % 65536)), BitVec.ofNat 32 ((Config.freeValue s.freeCtr).toNat / 65536),
          BitVec.ofNat 32 ((Config.freeValue s.freeCtr).toNat / 2 ^ 48 + 65536 * (Config.freeValue (s.freeCtr + 1)).toNat)]⟩) ∧
  (∀ (q : Fin 4) (f : List Byte) (s : State), s.cbHears q.val f = true → s.phase ≠ Phase.reset → s.cbOurs f = false →
    frameDa f = s.cbMac ∨ frameFld f 0 1 % 2 = 1 → s.findOut (0x0D + q.val) 0x21 (fun _ => true) = none →
    ∃ t, exec (.cbRawRx q f true) s = .next t ∧ counted (F.CB_PORT_1C_RX_DROP q.val) s t ∧ raised [(170, [BitVec.ofNat 32 q.val])] s t ∧
      t = { s with regs := t.regs, evt := t.evt } ∧ onlyFlds [F.CB_PORT_1C_RX_DROP q.val] s t) ∧
  (∀ (q : Fin 4) (f : List Byte) (s : State), s.cbHears q.val f = true → s.cbOurs f = false →
    ∃ t, exec (.cbRawRx q f false) s = .next t ∧ counted (F.CB_PORT_04_RX_FCS q.val) s t ∧ t = { s with regs := t.regs } ∧
      onlyFlds [F.CB_PORT_04_RX_FCS q.val] s t) ∧
  (∀ (q : Fin 4) (f : List Byte) (ok : Bool) (s : State), s.cbHears q.val f = false →
    ∃ t v w0, exec (.cbRawRx q f ok) s = .next t ∧ exec (.cbDataRx q f ok) s = .next v ∧ exec (.cbSyncRx q f ok) s = .next w0 ∧ t = s ∧ v = s ∧ w0 = s) ∧
  (∀ (q : Fin 4) (f : List Byte) (s : State), s.cbOurs f = true ∨ (frameDa f ≠ s.cbMac ∧ frameFld f 0 1 % 2 = 0) →
    ∃ t, exec (.cbRawRx q f true) s = .next t ∧ t = s) ∧
  (∀ (q : Fin 4) (f : List Byte) (ok : Bool) (s : State), s.cbOurs f = false ∨ cbType f = 0 → ∃ t, exec (.cbDataRx q f ok) s = .next t ∧ t = s) ∧
  (∀ (q : Fin 4) (f : List Byte) (ok : Bool) (s : State), s.cbOurs f = false ∨ cbType f ≠ 0 → ∃ t, exec (.cbSyncRx q f ok) s = .next t ∧ t = s) ∧
  (∀ (q : Fin 4) (f : List Byte) (s : State), s.cbHears q.val f = true → s.cbOurs f = true → cbType f ≠ 0 →
    ∃ t, exec (.cbDataRx q f false) s = .next t ∧ counted (F.CB_PORT_04_RX_FCS q.val) s t ∧ t = { s with regs := t.regs } ∧
      onlyFlds [F.CB_PORT_04_RX_FCS q.val] s t) ∧
  (∀ (q : Fin 4) (f : List Byte) (s : State), s.cbHears q.val f = true → s.cbOurs f = true → cbType f ≠ 0 →
    cbVer f = false ∨ cbType f ≠ 1 ∨ frameFld f 14 1 / 8 % 2 ≠ q.val / 2 →
    ∃ t, exec (.cbDataRx q f true) s = .next t ∧ counted (F.CB_PORT_08_RX_HDR q.val) s t ∧ t = { s with regs := t.regs } ∧
      onlyFlds [F.CB_PORT_08_RX_HDR q.val] s t) ∧
  (∀ (q : Fin 4) (f : List Byte) (d x : Nat) (s : State), s.cbHears q.val f = true → s.cbOurs f = true → cbType f = 1 → cbVer f = true →
    frameFld f 14 1 / 8 % 2 = q.val / 2 → s.rxDataset (frameFld f 0x18 4 % 2 ^ 26) = some d →
    x = (frameFld f 0x1C 4 + 2 ^ 32 - s.ds d 0x30 0 32) % 2 ^ 32 →
    frameFld f 0x16 2 ≠ s.dlen d ∨ f.length < 0x20 + s.dlen d ∨ (s.ds d 0x24 10 1 = 1 ∧ (x = 0 ∨ 2 ^ 31 ≤ x)) →
    ∃ t, exec (.cbDataRx q f true) s = .next t ∧ counted (F.CB_PORT_00_RX_OK q.val) s t ∧
      (if frameFld f 0x16 2 ≠ s.dlen d ∨ f.length < 0x20 + s.dlen d then counted (F.CB_PORT_08_RX_HDR q.val) s t else counted (F.CB_PORT_0C_RX_DUP q.val) s t) ∧
      t = { s with regs := t.regs } ∧ onlyFlds [F.CB_PORT_00_RX_OK q.val, F.CB_PORT_08_RX_HDR q.val, F.CB_PORT_0C_RX_DUP q.val] s t) ∧
  (∀ (q : Fin 4) (f : List Byte) (s : State), s.cbHears q.val f = true → s.cbOurs f = true → cbType f = 0 → cbVer f = false →
    ∃ t, exec (.cbSyncRx q f true) s = .next t ∧ counted (F.CB_PORT_08_RX_HDR q.val) s t ∧ t = { s with regs := t.regs } ∧
      onlyFlds [F.CB_PORT_08_RX_HDR q.val] s t) ∧
  (∀ (q : Fin 4) (f : List Byte) (s : State), s.cbHears q.val f = true → s.cbOurs f = true → cbType f = 0 → cbVer f = true →
    frameFld f 15 1 = s.rd F.CB_CFG_TM_NODE → s.cbFollower = false ∨ s.cb.starts = 0 ∨ reached s.raw (s.winEnd 0) = true →
    ∃ t, exec (.cbSyncRx q f true) s = .next t ∧ t = s) ∧
  (∀ (q : Fin 4) (f : List Byte) (aid : Nat) (near : Bool) (s : State), s.cbHears q.val f = true → s.cbOurs f = true → cbType f = 0 → cbVer f = true →
    frameFld f 15 1 = s.rd F.CB_CFG_TM_NODE → s.cbFollower = true → s.cb.starts ≠ 0 → reached s.raw (s.winEnd 0) = false → s.cb.got = false →
    aid = frameFld f 0x18 4 → near = decide ((s.cbDev f).natAbs ≤ s.rd F.CB_SYNCCHK_SYNC_TOL * 50) →
    ∃ t, exec (.cbSyncRx q f true) s = .next t ∧ t.rd F.CB_MCN_MCN = frameFld f 0x10 4 % 2 ^ 32 ∧ t.cb.got = true ∧ t.cb.missRun = 0 ∧
      t.cb.heard = BitVec.ofNat 32 aid ∧ t.rd F.CB_BANKS_ANN_PEND = frameFld f 0x16 2 % 2 ∧
      (frameFld f 0x16 2 % 2 = 1 → t.rd F.CB_ANN_ID_ANN_ID = frameFld f 0x1C 4 ∧ t.rd F.CB_ACT_MCN_ACT_MCN = frameFld f 0x20 4) ∧
      t.cbState = (if s.cbValid s.cbActive = true ∧ s.cbId s.cbActive = aid ∨ s.cbValid s.cbOther = true ∧ s.cbId s.cbOther = aid then (if near = true then 2 else 3) else 3) ∧
      t.cbActive = (if (s.cbValid s.cbActive = false ∨ s.cbId s.cbActive ≠ aid) ∧ s.cbValid s.cbOther = true ∧ s.cbId s.cbOther = aid then s.cbOther else s.cbActive) ∧
      t.mem = s.mem ∧ sameCore s t) ∧
  (∀ s : State, s.running = true → s.cbFollower = true → s.cbState = 2 → 0 < s.cb.starts → s.cb.got = false → s.cb.judged = false →
    reached s.raw (s.winEnd 0) = true → s.cb.missRun + 1 < s.rd F.CB_CFG_SYNC_LOSS_N → s.rd F.CB_CFG_SYNC_HOLD = 1 → s.cb.hold = true →
    ∃ t, exec .cbSyncMissed s = .next t ∧ counted F.CB_CNT_SYNC_MISS s t ∧ t.cbState = 2 ∧
      t = { s with regs := t.regs, cb := { s.cb with judged := true, missRun := s.cb.missRun + 1 } } ∧ onlyFlds [F.CB_CNT_SYNC_MISS] s t) ∧
  (∀ s : State, s.cbOn = false ∨ s.cbFollower = false ∨ s.cb.starts = 0 ∨ s.cb.got = true ∨ s.cb.judged = true ∨ reached s.raw (s.winEnd 0) = false →
    ∃ t, exec .cbSyncMissed s = .next t ∧ t = s) ∧
  (∀ (q : Fin 4) (f : List Byte) (ok : Bool) (s : State), s.cbOn = false ∨ s.cbChan (q.val / 2) = false → ∃ t, exec (.cbRelay q f ok) s = .next t ∧ t = s) ∧
  (∀ (q : Fin 4) (f : List Byte) (ok : Bool) (o : Nat) (s : State), o = 2 * (q.val / 2) + (1 - q.val % 2) → s.cbHears q.val f = true → s.pairOn = false →
    s.cbLink o = false → ∃ t, exec (.cbRelay q f ok) s = .next t ∧ t = { s with cb := { s.cb with seenEnd := t.cb.seenEnd } }) ∧
  (∀ (q : Fin 4) (f : List Byte) (ok : Bool) (o : Nat) (s : State), o = 2 * (q.val / 2) + (1 - q.val % 2) → s.phase ≠ Phase.reset → s.cbHears q.val f = true →
    s.pairOn = false → s.cbLink o = true → (Sparse.lookup s.cb.relay o).isSome = true →
    ∃ t, exec (.cbRelay q f ok) s = .next t ∧ counted (F.CB_PORT_14_RLY_DROP o) s t ∧ raised [(171, [BitVec.ofNat 32 o])] s t ∧
      t = { s with regs := t.regs, evt := t.evt, cb := { s.cb with seenEnd := t.cb.seenEnd } } ∧ onlyFlds [F.CB_PORT_14_RLY_DROP o] s t) ∧
  (∀ (q : Fin 4) (s : State), Sparse.lookup s.cb.relay q.val = none ∨ s.cbOn = false ∨ reached s.raw (s.cbBusyEnd q.val + 48) = false →
    ∃ t, exec (.cbRelayBuffered q) s = .next t ∧ t = s) ∧
  (∀ (q : Fin 4) (x : Bool × List Byte) (s : State), Sparse.lookup s.cb.relay q.val = some x → s.cbOn = true → reached s.raw (s.cbBusyEnd q.val + 48) = true →
    s.cbLink q.val = false →
    ∃ t, exec (.cbRelayBuffered q) s = .next t ∧ Sparse.lookup t.cb.relay q.val = none ∧ t = { s with cb := { s.cb with relay := t.cb.relay } })

/-- Sending on the consist backbone (R299, R310 to R314): the frozen image, an exclusive window, an arbitrating frame, the commands of a
port, the end of a frame and the expiry of a command. A clause that ends in t = s (an event before its instant or without its condition
changes nothing) is the model's choice, notes/assumptions/2.md. Where the clauses meet what notes/assumptions/53.md,
notes/assumptions/54.md, notes/assumptions/55.md record, they say the model's choice. -/
def Obligations.BackboneSends : Prop :=
  (∀ (w : Fin 256) (idx : Nat) (s : State), s.cbOn = true → 0 < s.cb.starts → (s.cbNow w.val).kind = 2 → (s.cbNow w.val).who = s.rd F.CB_CFG_NODE →
    (s.cbNow w.val).cyc = true → reached (s.raw + 2500) (s.winStart w.val) = true → idx = 256 * s.cbPos + w.val →
    s.cbFrozen s.cb.starts s.cbActive idx = none →
    ∃ t, exec (.cbImageFreeze w) s = .next t ∧ t.cbFrozen s.cb.starts s.cbActive idx = some (s.cbImage s.cbActive idx) ∧
      t = { s with cb := { s.cb with frozen := t.cb.frozen } }) ∧
  (∀ (w : Fin 256) (nx : Nat × Nat) (idx : Nat) (x : CbWin) (s : State), s.cbOn = true → 0 < s.cb.starts → nx = s.cbNext → idx = 256 * nx.2 + w.val →
    x = s.cbWin nx.1 (idx / 256) (idx % 256) → x.kind = 2 → x.who = s.rd F.CB_CFG_NODE → x.cyc = true →
    reached (s.raw + 2500) (s.cb.start + s.rd F.CB_BC_BC_LEN * 500 + x.start * 5) = true → s.cbFrozen (s.cb.starts + 1) nx.1 idx = none →
    ∃ t, exec (.cbImageFreeze w) s = .next t ∧ t.cbFrozen (s.cb.starts + 1) nx.1 idx = some (s.cbImage nx.1 idx) ∧
      t = { s with cb := { s.cb with frozen := t.cb.frozen } }) ∧
  (∀ (w : Fin 256) (s : State), s.cbOn = false ∨ s.cb.starts = 0 → ∃ t, exec (.cbImageFreeze w) s = .next t ∧ t = s) ∧
  (∀ (w : Fin 256) (c : Cmd) (at_ : Nat) (s : State), s.cbMaySend = true → 0 < s.cb.starts → (s.cbNow w.val).kind = 2 → (s.cbNow w.val).who = s.rd F.CB_CFG_NODE →
    (s.cbNow w.val).cyc = false → s.cb.prog = none → reached s.raw (s.winStart w.val + 500) = true → reached s.raw (s.winEnd w.val) = false →
    s.rings.out = [c] → s.cbTxs = [c] → cbTxWin c % 256 = w.val → s.cbBound c = true → (cbTxOf c).missed = 0 → (cbTxOf c).chans = 0 → s.cbPorts 0 = [0] → s.cbPorts 1 = [] →
    s.cbFree 0 = true → at_ = s.cbStartAt (s.winStart w.val + 500) → reached at_ ((cbTxOf c).raw + 2500) = true → s.cbInTime w.val at_ (cbTxLen c) = true →
    s.ecc = [] → s.pairOn = false → c.fld 8 12 1 = 0 →
    ∃ t, exec (.cbWindowSend w) s = .next t ∧ Sparse.lookup t.ports.sent 12 = some (true,
        if c.fld 8 11 1 = 1 then s.bytes (c.addr 0x18) (c.fld 8 0 11)
        else onChan 0 (s.cbData 0 w.val (c.fld 0x14 0 26) (cbTxOf c).wseq (s.bytes (c.addr 0x18) (c.fld 8 0 11)))) ∧
      counted (F.CB_PORT_18_TX_FRAMES 0) s t ∧ t.cb.prog = some (⟨w.val, [], at_ + (cbTxLen c + 24) * 4⟩ : CbProg) ∧
      (t.cbTxs.map (fun d => (cbTxOf d).copies)) = [(cbTxOf c).copies + 1] ∧
      t = { s with regs := t.regs, ports := { s.ports with sent := t.ports.sent }, rings := { s.rings with out := t.rings.out }, cb := t.cb } ∧
      onlyFlds [F.CB_PORT_18_TX_FRAMES 0] s t) ∧
  (∀ (w : Fin 256) (at_ : Nat) (d : Nat × Word × List Byte) (rest : List (Nat × Word × List Byte)) (s : State), s.cbMaySend = true → 0 < s.cb.starts →
    (s.cbNow w.val).kind = 2 → (s.cbNow w.val).who = s.rd F.CB_CFG_NODE → reached s.raw (s.cbProgOf w.val).next = true → reached s.raw (s.winEnd w.val) = false →
    (s.cbProgOf w.val).cyc = d :: rest → s.cbPorts 0 = [0] → s.cbPorts 1 = [] → s.cbFree 0 = true → s.pairOn = false →
    at_ = s.cbStartAt (s.cbProgOf w.val).next → s.cbInTime w.val at_ (cbDataLen d.2.2.length) = true →
    ∃ t, exec (.cbWindowSend w) s = .next t ∧ Sparse.lookup t.ports.sent 12 = some (true, s.cbData 0 w.val d.1 d.2.1.toNat d.2.2) ∧
      counted (F.CB_PORT_18_TX_FRAMES 0) s t ∧ t.cb.prog = some (⟨w.val, rest, at_ + (cbDataLen d.2.2.length + 24) * 4⟩ : CbProg) ∧
      t = { s with regs := t.regs, ports := { s.ports with sent := t.ports.sent }, cb := t.cb } ∧ onlyFlds [F.CB_PORT_18_TX_FRAMES 0] s t) ∧
  (∀ (w : Fin 256) (at_ : Nat) (s : State), s.phase ≠ Phase.reset → s.cbMaySend = true → s.cbMaster = true → 0 < s.cb.starts → (s.cbNow w.val).kind = 1 →
    (s.cbNow w.val).who = s.rd F.CB_CFG_NODE → s.cb.prog = none → reached s.raw (s.winStart w.val + 500) = true → reached s.raw (s.winEnd w.val) = false →
    (s.cbNow w.val).cyc = false → s.cbPorts 0 = [0] → s.cbPorts 1 = [] → s.cbFree 0 = true → s.pairOn = false → at_ = s.cbStartAt (s.winStart w.val + 500) →
    ∃ t, exec (.cbWindowSend w) s = .next t ∧ Sparse.lookup t.ports.sent 12 = some (true, s.cbSync 0) ∧ counted (F.CB_PORT_18_TX_FRAMES 0) s t ∧
      t.cb.prog = some (⟨w.val, [], at_ + 336⟩ : CbProg) ∧
      (if s.rd F.CB_BANKS_ANN_PEND = 1 ∧ s.cb.annSent = false then t.cb.annSent = true ∧ raised [(164, [s.reg Reg.CB_ANN_ID, s.reg Reg.CB_ACT_MCN])] s t
        else t.cb.annSent = s.cb.annSent ∧ t.evt = s.evt) ∧
      t = { s with regs := t.regs, evt := t.evt, ports := { s.ports with sent := t.ports.sent }, cb := t.cb } ∧ onlyFlds [F.CB_PORT_18_TX_FRAMES 0] s t) ∧
  (∀ (w : Fin 256) (s : State), s.cbMaySend = false ∨ s.cb.starts = 0 ∨ (s.cbNow w.val).who ≠ s.rd F.CB_CFG_NODE ∨ ((s.cbNow w.val).kind ≠ 1 ∧ (s.cbNow w.val).kind ≠ 2) ∨
      ((s.cbNow w.val).kind = 1 ∧ s.cbMaster = false) ∨ reached s.raw (s.winEnd w.val) = true ∨ reached s.raw (s.cbProgOf w.val).next = false ∨
      s.cbAllPorts.all s.cbFree = false →
    ∃ t, exec (.cbWindowSend w) s = .next t ∧ t = s) ∧
  (∀ (ch : Fin 2) (s : State), s.cbArbWin = none ∨ s.cbArbNext ch.val = none ∨ s.cbMaySend = false ∨ s.cb.starts = 0 ∨ s.cbBusy (2 * ch.val) = true ∨
      s.cbBusy (2 * ch.val + 1) = true ∨ s.cbPorts ch.val = [] →
    ∃ t, exec (.cbArbSend ch) s = .next t ∧ t = s) ∧
  (∀ (w : Nat) (c : Cmd) (s : State), s.cbArbWin = some w → s.cbArbNext 0 = some c → s.cbMaySend = true → 0 < s.cb.starts → s.rings.out = [c] →
    s.cbMayArb (s.cbNow w) (c.fld 8 13 3) = true → s.cbBusy 0 = false → s.cbBusy 1 = false → s.cb.relay = [] → s.cbPorts 0 = [1] →
    Sparse.lookup s.cb.seenEnd 0 = none → reached s.raw (s.winStart w + 548 + (7 - c.fld 8 13 3) * s.rd F.CB_ARB_BO_SLOT * 5 + s.rd F.CB_CFG_NODE % 8 * 40) = true →
    reached 0 (s.winStart w + 500) = false → reached s.raw ((cbTxOf c).raw + 2500) = true → s.cbInTime w s.raw (cbTxLen c) = true → s.ecc = [] →
    s.pairOn = false → c.fld 8 11 1 = 1 → c.fld 8 12 1 = 0 →
    ∃ t, exec (.cbArbSend 0) s = .next t ∧ Sparse.lookup t.ports.sent 13 = some (true, s.bytes (c.addr 0x18) (c.fld 8 0 11)) ∧
      counted (F.CB_PORT_18_TX_FRAMES 1) s t ∧ t.cbBusyEnd 1 = s.raw + (c.fld 8 0 11 + 12) * 4 ∧
      t = { s with regs := t.regs, ports := { s.ports with sent := t.ports.sent }, rings := { s.rings with out := t.rings.out }, cb := t.cb }) ∧
  (∀ (q : Fin 4) (c : Cmd) (s : State), inHand (0x0D + q.val) 0x20 c s → c.fin = none →
    ∃ v t, v = s.accept (0x0D + q.val) c ∧ exec (.cbTx q) s = .next t ∧
      t = v.setOut { c with
        long := true, ntAcc := BitVec.ofNat 32 s.ntNs,
        aux := [v.cb.starts, v.raw, b2n v.cbAnyLink, 0, 0, 0, 0, (s.cbWseq c).1, 0,
          ((v.cbWin v.cbActive (cbTxWin c / 256) (cbTxWin c % 256)).start + (v.cbWin v.cbActive (cbTxWin c / 256) (cbTxWin c % 256)).len) * 5] }) ∧
  (∀ (q : Fin 4) (c : Cmd) (f : Final) (s : State), inHand (0x0D + q.val) 0x20 c s → c.fin = some f →
    ∃ t, exec (.cbTx q) s = .next t ∧ t = s.finish (0x0D + q.val) c f) ∧
  (∀ (q : Fin 4) (c : Cmd) (s : State), inHand (0x0D + q.val) 0x21 c s → c.fin = none →
    ∃ t, exec (.cbRxPost q) s = .next t ∧ t = s.accept (0x0D + q.val) c) ∧
  (∀ (q : Fin 4) (c : Cmd) (f : Final) (s : State), inHand (0x0D + q.val) 0x21 c s → c.fin = some f →
    ∃ t, exec (.cbRxPost q) s = .next t ∧ t = s.finish (0x0D + q.val) c f) ∧
  (∀ (q : Fin 4) (s : State), s.hand (0x0D + q.val) = none ∨ s.running = false →
    ∃ t v w0, exec (.cbTx q) s = .next t ∧ exec (.cbRxPost q) s = .next v ∧ exec (.cbSchedLoad q) s = .next w0 ∧ t = s ∧ v = s ∧ w0 = s) ∧
  (∀ (p : Fin 16) (s : State), 12 ≤ p.val → (s.cbSending (p.val - 12)).all (fun g : CbSend => !reached s.raw g.endRaw) = true →
    ∃ t, exec (.txFrameEnd p) s = .next t ∧ t = s) ∧
  (∀ (p : Fin 16) (c : Cmd) (e : Nat) (s : State), p.val = 13 → s.cbSending 1 = [⟨c.ring, c.pos, e⟩] → reached s.raw e = true → s.rings.out = [c] →
    (cbTxOf c).copies = 1 → cbTxArb c = false → c.fld 8 11 1 = 1 →
    ∃ v t, v = (s.cbSet (fun b => { b with sending := Sparse.erase b.sending 1 })).setOut (CbTx.into { cbTxOf c with copies := 0 } c) ∧
      v.cbSending 1 = [] ∧ exec (.txFrameEnd p) s = .next t ∧
      t = v.endLong (CbTx.into { cbTxOf c with copies := 0 } c) ⟨0x00, 0, [BitVec.ofNat 32 (cbTxOf c).mcn,
        BitVec.ofNat 32 ((cbTxOf c).place + 65536 * (cbTxOf c).chans), 0]⟩) ∧
  (∀ (q : Fin 4) (c : Cmd) (s : State), s.running = true → s.outOf (0x0D + q.val) = [c] → c.opcode = 0x20 → (cbTxOf c).copies = 0 →
    (cbTxOf c).chans = 0 → cbTxArb c = false → s.cbPassed c = true → (s.ctx c.ring).engine.toNat = 0x0D + q.val →
    ∃ v t, v = s.satAdd (F.CB_PORT_1C_TX_MISSED q.val) 1 ∧ counted (F.CB_PORT_1C_TX_MISSED q.val) s v ∧ exec (.cbTxExpiry q) s = .next t ∧
      t = v.endLong c ⟨0x10, 0, []⟩) ∧
  (∀ (q : Fin 4) (c : Cmd) (s : State), s.running = true → s.outOf (0x0D + q.val) = [c] → c.opcode = 0x20 → (cbTxOf c).copies = 0 → cbTxArb c = true →
    c.fld 8 16 8 < s.cbWaited c → (s.ctx c.ring).engine.toNat = 0x0D + q.val →
    ∃ v t, v = (if (cbTxOf c).chans = 0 ∧ (cbTxOf c).link = 1 then s.satAdd (F.CB_PORT_1C_TX_MISSED q.val) 1 else s) ∧ exec (.cbTxExpiry q) s = .next t ∧
      t = v.endLong c (if (cbTxOf c).chans ≠ 0 then ⟨0x00, 0, [BitVec.ofNat 32 (cbTxOf c).mcn, BitVec.ofNat 32 ((cbTxOf c).place + 65536 * (cbTxOf c).chans),
        if c.fld 8 11 1 = 0 then BitVec.ofNat 32 (cbTxOf c).wseq else 0]⟩ else if (cbTxOf c).link = 0 then ⟨0x11, 0, []⟩ else ⟨0x10, 0, []⟩)) ∧
  (∀ (q : Fin 4) (s : State), s.running = false ∨ (s.outOf (0x0D + q.val)).all (fun c : Cmd => c.opcode != 0x20 || (cbTxOf c).copies != 0 ||
      (if cbTxArb c = true then decide (s.cbWaited c ≤ c.fld 8 16 8) else !s.cbPassed c)) = true →
    ∃ t, exec (.cbTxExpiry q) s = .next t ∧ t = s)

/-- Schedule banks and the rest of the backbone's commands (R300 to R302, R307, R308, R317, R319, R324): loading a bank, the announcement
of a switch, the status, links and the bank window. A clause that ends in t = s (an event before its instant or without its condition
changes nothing) is the model's choice, notes/assumptions/2.md. Where the clauses meet what notes/assumptions/52.md,
notes/assumptions/55.md record, they say the model's choice. -/
def Obligations.BackboneBanks : Prop :=
  (∀ (q : Fin 4) (c : Cmd) (s : State), inHand (0x0D + q.val) 0x22 c s → c.fin = none →
    ∃ v t, v = s.accept (0x0D + q.val) c ∧ exec (.cbSchedLoad q) s = .next t ∧ t.rd F.CB_BANKS_LOADING = 1 ∧ t.cbValid v.cbOther = false ∧
      t = { v with regs := t.regs } ∧ onlyFlds [F.CB_BANKS_LOADING, cbValidFld v.cbOther, cbIdFld v.cbOther] v t) ∧
  (∀ (c : Cmd) (s : State), s.running = true → s.rings.out = [c] → c.opcode = 0x22 → c.fin = none → (s.ctx c.ring).engine.toNat = 0x0D → s.ecc = [] →
    ∃ v t, v = (List.range cbBankWords).foldl (fun x i => x.setCbWord s.cbOther i (x.word (c.addr 0x10 + 4 * i))) (s.setCbValid s.cbOther false) ∧
      exec .cbSchedLoadDone s = .next t ∧
      t = (if (crc32c (v.cbBody s.cbOther)).toNat ≠ v.cbWord s.cbOther 0 then (v.endLong c ⟨0x20, 1, []⟩).wr F.CB_BANKS_LOADING 0
        else if v.cbBankFails 3 s.cbOther = true ∨ v.cbBankFails 4 s.cbOther = true ∨ v.cbBankFails 5 s.cbOther = true ∨ v.cbBankFails 6 s.cbOther = true then
          (v.endLong c ⟨0x20, 2, []⟩).wr F.CB_BANKS_LOADING 0
        else ((v.setCbValid s.cbOther true).endLong c ⟨0x00, 0, [BitVec.ofNat 32 (v.cbWord s.cbOther 0), BitVec.ofNat 32 s.cbOther]⟩).wr F.CB_BANKS_LOADING 0)) ∧
  (∀ (q : Fin 4) (c : Cmd) (f : Final) (s : State), inHand (0x0D + q.val) 0x22 c s → c.fin = some f →
    ∃ t, exec (.cbSchedLoad q) s = .next t ∧ t = s.finish (0x0D + q.val) c f) ∧
  (∀ s : State, s.running = false ∨ s.rings.out = [] → ∃ t, exec .cbSchedLoadDone s = .next t ∧ t = s) ∧
  (∀ (q : Fin 4) (c : Cmd) (bad pend : Bool) (d e : Nat) (s : State), inHand (0x0D + q.val) 0x23 c s →
    bad = decide (c.headerOk = false ∨ 2 ≤ c.word 8 ∨ c.word 0xC ≠ 0 ∨ c.zeroFrom 0x18 = false ∨ s.cbMaster = false) → pend = s.on F.CB_BANKS_ANN_PEND →
    d = (c.word 0x14 + 2 ^ 32 - s.cbMcn) % 2 ^ 32 → e = (s.rd F.CB_ACT_MCN_ACT_MCN + 2 ^ 32 - s.cbMcn) % 2 ^ 32 →
    ∃ v t, v = (if bad = true then s
        else if c.word 8 = 1 then
          (if pend = true ∧ 2 ≤ e ∧ e < 2 ^ 31 then ((s.wr F.CB_BANKS_ANN_PEND 0).wr F.CB_ANN_ID_ANN_ID 0).wr F.CB_ACT_MCN_ACT_MCN 0 else s)
        else if s.cbValid s.cbOther = true ∧ s.cbId s.cbOther = c.word 0x10 ∧ 2 ≤ d ∧ d < 2 ^ 31 ∧ pend = false then
          ((((s.wr F.CB_BANKS_ANN_PEND 1).wr F.CB_ANN_ID_ANN_ID (c.word 0x10)).wr F.CB_ACT_MCN_ACT_MCN (c.word 0x14)).cbSet (fun b => { b with annSent := false }))
        else s) ∧
      exec (.cbAnnounce q) s = .next t ∧ t = v.finish (0x0D + q.val) c
        (if bad = true then ⟨0x20, 0, []⟩
        else if c.word 8 = 1 then (if pend = true ∧ 2 ≤ e ∧ e < 2 ^ 31 then ⟨0x00, 0, []⟩ else ⟨0x10, 0, []⟩)
        else if s.cbValid s.cbOther = false ∨ s.cbId s.cbOther ≠ c.word 0x10 ∨ d < 2 ∨ 2 ^ 31 ≤ d then ⟨0x20, 0, []⟩
        else if pend = true then ⟨0x12, 0, []⟩ else ⟨0x00, 0, []⟩)) ∧
  (∀ (q : Fin 4) (c : Cmd) (s : State), inHand (0x0D + q.val) 0x23 c s → c.headerOk = true → c.word 8 = 0 → c.word 0xC = 0 → c.zeroFrom 0x18 = true →
    s.cbMaster = true → s.cbValid s.cbOther = true → s.cbId s.cbOther = c.word 0x10 → 2 ≤ (c.word 0x14 + 2 ^ 32 - s.cbMcn) % 2 ^ 32 →
    (c.word 0x14 + 2 ^ 32 - s.cbMcn) % 2 ^ 32 < 2 ^ 31 → s.rd F.CB_BANKS_ANN_PEND = 0 →
    ∃ t, exec (.cbAnnounce q) s = .next t ∧ t.rd F.CB_BANKS_ANN_PEND = 1 ∧ t.rd F.CB_ANN_ID_ANN_ID = c.word 0x10 ∧
      t.rd F.CB_ACT_MCN_ACT_MCN = c.word 0x14 ∧ t.cb.annSent = false) ∧
  (∀ (q : Fin 4) (c : Cmd) (a : Nat) (s : State), inHand (0x0D + q.val) 0x24 c s → c.headerOk = true → c.word 8 = 0 → c.word 0xC = 0 →
    c.fld 0x14 8 24 = 0 → c.zeroFrom 0x18 = true → a = c.addr 0x10 → a % 64 = 0 → s.engineMayWrite a 64 = true → s.ecc = [] → s.pairOn = false →
    ∃ v t, v = (s.dropResv a 64).setBytes a (wordBytes [s.reg Reg.CB_STAT, s.reg Reg.CB_MCN, s.reg Reg.CB_POS, s.reg Reg.CB_ID0, s.reg Reg.CB_ID1, s.reg Reg.CB_BANKS,
        s.reg Reg.CB_ANN_ID, s.reg Reg.CB_ACT_MCN, s.reg Reg.CB_SYNCDEV, s.reg Reg.CB_CNT] ++ zeros 24) ∧
      v.words a 4 = [s.reg Reg.CB_STAT, s.reg Reg.CB_MCN, s.reg Reg.CB_POS, s.reg Reg.CB_ID0] ∧ sameMemBut a 64 s v ∧
      exec (.cbStatus q) s = .next t ∧ t = v.finish (0x0D + q.val) c ⟨0x00, 0, []⟩) ∧
  (∀ (q : Fin 4) (c : Cmd) (a : Nat) (s : State), inHand (0x0D + q.val) 0x24 c s → a = c.addr 0x10 →
    c.headerOk = false ∨ c.word 8 ≠ 0 ∨ c.word 0xC ≠ 0 ∨ c.fld 0x14 8 24 ≠ 0 ∨ c.zeroFrom 0x18 = false ∨ a % 64 ≠ 0 ∨ s.engineMayWrite a 64 = false →
    ∃ t, exec (.cbStatus q) s = .next t ∧ t = s.finish (0x0D + q.val) c ⟨0x20, 0, []⟩) ∧
  (∀ (q : Fin 4) (s : State), s.hand (0x0D + q.val) = none ∨ s.running = false →
    ∃ t v, exec (.cbAnnounce q) s = .next t ∧ exec (.cbStatus q) s = .next v ∧ t = s ∧ v = s) ∧
  (∀ (q : Fin 4) (up : Bool) (s : State), s.phase ≠ Phase.reset → s.cbMaster = false → s.cbLink q.val = !up →
    ∃ t, exec (.cbLinkChange q up) s = .next t ∧ t.cbLink q.val = up ∧ raised [(169, [BitVec.ofNat 32 (q.val + 256 * b2n up)])] s t ∧
      (up = false ∨ s.cbChan (q.val / 2) = false → t.rings = s.rings) ∧
      (up = true → s.cbChan (q.val / 2) = true → t.cbTxs.all (fun c : Cmd => (cbTxOf c).link == 1) = true) ∧
      t = { s with regs := t.regs, evt := t.evt, rings := { s.rings with out := t.rings.out } } ∧ onlyFlds [⟨Reg.CB_STAT, 16 + q.val, 1⟩] s t) ∧
  (∀ (q : Fin 4) (up : Bool) (s : State), s.phase ≠ Phase.reset → s.cbMaster = true → s.cbState ≠ 0 → s.cbLink q.val = !up → s.rings.out = [] →
    ∃ t, exec (.cbLinkChange q up) s = .next t ∧ t.cbLink q.val = up ∧ t.rd F.CB_STAT_A_OK = b2n (t.cbPorts 0 != []) ∧ t.rd F.CB_STAT_B_OK = b2n (t.cbPorts 1 != []) ∧
      (t.evt.queue.drop s.evt.queue.length).head? = some (⟨169, [BitVec.ofNat 32 (q.val + 256 * b2n up)], BitVec.ofNat 64 s.ntNs, none⟩ : Raise) ∧
      t = { s with regs := t.regs, evt := t.evt } ∧ onlyFlds [⟨Reg.CB_STAT, 16 + q.val, 1⟩, F.CB_STAT_A_OK, F.CB_STAT_B_OK] s t) ∧
  (∀ (q : Fin 4) (up : Bool) (s : State), s.cbLink q.val = up → ∃ t, exec (.cbLinkChange q up) s = .next t ∧ t = s) ∧
  (∀ (who : Requester) (w : Word) (i b : Nat) (s : State), s.mustWait = false → s.setupPhase = true → i = s.rd F.CB_BANK_ADDR_WORD → b = s.rd F.CB_BANK_ADDR_BANK →
    ∃ t, exec (.cbBankDataWrite who w) s = .next t ∧ (i < cbBankWords → t.cbWord b i = w.toNat) ∧ (cbBankWords ≤ i → t.cb.banks = s.cb.banks) ∧
      t.rd F.CB_BANK_ADDR_WORD = (i + 1) % 2 ^ F.CB_BANK_ADDR_WORD.w ∧
      t.cb.written1 = (s.cb.written1 || decide (b = 1)) ∧
      t = { s with regs := t.regs, cb := { s.cb with banks := t.cb.banks, written1 := t.cb.written1 } } ∧ onlyFlds [F.CB_BANK_ADDR_WORD] s t) ∧
  (∀ (who : Requester) (w : Word) (s : State), s.mustWait = false → s.setupPhase = false → ∃ t, exec (.cbBankDataWrite who w) s = .next t ∧ t = s)

/-- The commands that publish and reindex datasets (R331, R341, R344, R350 to R352): SIG_PUBLISH of datasets with and without a free
buffer, as far as the slot carries them, SIG_BULK_LOAD, SIG_REINDEX, its switch, and a deadline that passes. A clause that ends in t = s
(an event before its instant or without its condition changes nothing) is the model's choice, notes/assumptions/2.md. Where the clauses
meet what notes/assumptions/45.md, notes/assumptions/46.md record, they say the model's choice. -/
def Obligations.SignalDatasets : Prop :=
  (∀ (c : Cmd) (d a : Nat) (vs : List DWord) (r : Option Nat × State) (s : State), inHand 0 0x10 c s → d = c.fld 8 0 18 → c.fld 0xC 0 19 = 1 → a = c.addr 0x10 →
    s.pubFails c 256 = none → s.ecc = [] → s.nsig d ≤ s.sig.ops → vs = (List.range (s.nsig d)).map (fun k => BitVec.ofNat 64 (s.le (a + 8 * k) 8)) →
    r = s.publishValues d vs 0 →
    ∃ t, exec .sigPublish s = .next t ∧
      t = (r.2.spend (s.nsig d)).finish 0 c ⟨0x00, 0, [BitVec.ofNat 32 (r.2.gen32 d), BitVec.ofNat 32 (min (r.1.getD 0) 65535)]⟩) ∧
  (∀ (d i : Nat) (vs : List DWord) (r : Option Nat × State) (s : State), s.ecc = [] → s.freeBuf d = some 1 → s.dsSlots d = [i] → (s.slot i).forced = false →
    s.rings.out = [] → s.pairOn = false → s.rd F.GW_GROUP_COUNT_COUNT = 0 → s.dsKind d = 2 → s.dsStale d = false →
    s.dsAddr d + 64 ≤ s.bufAddr d 0 → s.bufAddr d 0 + 4096 ≤ s.slotAt i → s.mapAt i + 8 ≤ s.dsAddr d → s.rd F.SIG_RANGE_BASE_BASE * 4096 + 2 ^ 20 ≤ s.mapAt i →
    (s.sigMap i).ty = 0 → (s.sigMap i).width = 32 → (s.sigMap i).le = false → s.dlen d = 8 → (s.sigMap i).ofs = 0 → vs = [7] → r = s.publishValues d vs 0 →
    r.1 = some 0 ∧ r.2.gen32 d = (s.gen32 d + 1) % 2 ^ 32 ∧ r.2.latest d = 1 ∧ r.2.lastNt d = s.ntNs % 2 ^ 64 ∧ r.2.latestBytes d = [0, 0, 0, 7] ++ (s.latestBytes d).drop 4 ∧
      (r.2.slot i).value = 7 ∧ (r.2.slot i).ts = BitVec.ofNat 32 s.ntNs ∧ (r.2.slot i).valid = true ∧ (r.2.slot i).stale = false) ∧
  (∀ (c : Cmd) (d : Nat) (s : State), inHand 0 0x10 c s → d = c.fld 8 0 18 → c.fld 0xC 0 19 = 1 → s.pubFails c 256 = none → s.ecc = [] →
    s.nsig d ≤ s.sig.ops → s.freeBuf d = none → s.pairOn = false →
    ∃ v t, v = s.dropGen 0 d ∧ counted F.SIG_DROPS_DROPS s v ∧ sameMemBut (s.dsAddr d + 0x34) 4 s v ∧ exec .sigPublish s = .next t ∧
      t = (v.spend (s.nsig d)).finish 0 c ⟨0x00, 0, [BitVec.ofNat 32 (v.gen32 d), 0]⟩) ∧
  (∀ (c : Cmd) (d n a : Nat) (v0 w0 : State) (vs ws : List DWord) (s : State), inHand 0 0x10 c s → d = c.fld 8 0 18 → c.fld 0xC 0 19 = 2 → a = c.addr 0x10 →
    s.pubFails c 256 = none → s.ecc = [] → n = s.nsig d → n ≤ s.sig.ops → vs = (List.range n).map (fun k => BitVec.ofNat 64 (s.le (a + 8 * k) 8)) →
    v0 = (s.publishValues d vs 0).2.spend n → v0.ecc = [] → v0.nsig (d + 1) ≤ v0.sig.ops →
    ws = (List.range (v0.nsig (d + 1))).map (fun k => BitVec.ofNat 64 (v0.le (a + 8 * n + 8 * k) 8)) →
    w0 = (v0.publishValues (d + 1) ws ((s.publishValues d vs 0).1.getD 0)).2.spend (v0.nsig (d + 1)) →
    ∃ t, exec .sigPublish s = .next t ∧ t = w0.finish 0 c ⟨0x00, 0, [BitVec.ofNat 32 (w0.gen32 (d + 1)),
      BitVec.ofNat 32 (min ((v0.publishValues (d + 1) ws ((s.publishValues d vs 0).1.getD 0)).1.getD 0) 65535)]⟩) ∧
  (∀ (c : Cmd) (d : Nat) (s : State), inHand 0 0x10 c s → d = c.fld 8 0 18 → 0 < c.fld 0xC 0 19 → s.pubFails c 256 = none → s.ecc = [] → c.long = false →
    s.sig.ops < s.nsig d →
    ∃ t, exec .sigPublish s = .next t ∧ t.hand 0 = none ∧
      t = State.dropHand { s with sig := { s.sig with pubs := s.sig.pubs ++ [(⟨c, 0, c.addr 0x10, 0⟩ : PubJob)] } } 0) ∧
  (∀ (c : Cmd) (f : Final) (s : State), inHand 0 0x10 c s → s.pubFails c 256 = some f →
    ∃ t, exec .sigPublish s = .next t ∧ t = State.finish (if f.status = 0xFF then (s.checkAll 0 (pubAreas c s)).2 else s) 0 c f) ∧
  (∀ s : State, s.hand 0 = none ∨ s.running = false →
    ∃ t v w0, exec .sigPublish s = .next t ∧ exec .sigBulkLoad s = .next v ∧ exec .sigReindex s = .next w0 ∧ t = s ∧ v = s ∧ w0 = s) ∧
  (∀ (c c1 : Cmd) (d a n : Nat) (v0 : State) (vs : List DWord) (r : Option Nat × State) (s : State), inHand 0 0x14 c s → c.fin = none → s.ecc = [] →
    c1 = { c with long := true, ntAcc := BitVec.ofNat 32 s.ntNs } → d = c.fld 8 0 18 → c.fld 0xC 0 19 = 1 → a = c.addr 0x10 → v0 = s.accept 0 c → v0.ecc = [] →
    n = v0.nsig d → n ≤ v0.sig.ops → vs = (List.range n).map (fun k => BitVec.ofNat 64 (v0.le (a + 8 * k) 8)) → r = v0.publishValues d vs 0 →
    ∃ t, exec .sigBulkLoad s = .next t ∧
      t = (r.2.spend n).endLong c1 ⟨0x00, 0, [BitVec.ofNat 32 (r.2.gen32 d), BitVec.ofNat 32 (min (r.1.getD 0) 65535)]⟩) ∧
  (∀ (c c1 : Cmd) (v0 : State) (s : State), inHand 0 0x14 c s → c.fin = none → s.ecc = [] → c1 = { c with long := true, ntAcc := BitVec.ofNat 32 s.ntNs } →
    0 < c.fld 0xC 0 19 → v0 = s.accept 0 c → v0.sig.ops < v0.nsig (c.fld 8 0 18) →
    ∃ t, exec .sigBulkLoad s = .next t ∧ t = { v0 with sig := { v0.sig with pubs := v0.sig.pubs ++ [(⟨c1, 0, c.addr 0x10, 0⟩ : PubJob)] } }) ∧
  (∀ (c : Cmd) (f : Final) (s : State), inHand 0 0x14 c s → c.fin = some f → s.ecc = [] → ∃ t, exec .sigBulkLoad s = .next t ∧ t = s.finish 0 c f) ∧
  (∀ (c c1 : Cmd) (ps : List (Nat × Nat)) (v0 : State) (s : State), inHand 0 0x15 c s → c.fin = none → s.ecc = [] → v0 = s.accept 0 c → ps = v0.pairsOf c →
    c1 = { c with long := true, ntAcc := BitVec.ofNat 32 s.ntNs, aux := ps.flatMap (fun p : Nat × Nat => [p.1, p.2]) } →
    ∃ t, exec .sigReindex s = .next t ∧
      t = (if 48 ≤ s.sig.ops ∧ State.reindexTurn (v0.setOut c1) c1 = true ∧ c.prog < unitParts (c.fld 8 0 13) 48 then
          State.setOut ((v0.setOut c1).spend 48) { c1 with prog := c.prog + 1 }
        else v0.setOut c1)) ∧
  (∀ (c : Cmd) (f : Final) (s : State), inHand 0 0x15 c s → c.fin = some f → s.ecc = [] → ∃ t, exec .sigReindex s = .next t ∧ t = s.finish 0 c f) ∧
  (∀ (c : Cmd) (d n : Nat) (s : State), s.running = true → s.findOut 0 0x15 (fun _ => true) = some c → c.aux = [d, n] → s.dsidClash [(d, n)] = false →
    unitParts (c.fld 8 0 13) 48 ≤ c.prog → 48 ≤ s.sig.ops → s.sigServes c = true →
    s.dsKind d = 2 → s.ecc = [] → s.pairOn = false → n < 2 ^ 26 → inDram (s.dsAddr d) 4 = true →
    ∃ v t, v = (s.dropResv (s.dsAddr d) 4).setBytes (s.dsAddr d) (leBytes 4 (s.le (s.dsAddr d) 4 / 2 ^ 26 * 2 ^ 26 + n)) ∧ v.dsid d = n ∧ v.dsKind d = 2 ∧
      sameMemBut (s.dsAddr d) 4 s v ∧ exec .sigReindexSwitch s = .next t ∧ t = (v.spend 48).endLong c ⟨0x00, 0, []⟩) ∧
  (∀ (c : Cmd) (d n : Nat) (s : State), s.running = true → s.findOut 0 0x15 (fun _ => true) = some c → c.aux = [d, n] → s.dsidClash [(d, n)] = false →
    unitParts (c.fld 8 0 13) 48 ≤ c.prog → 48 ≤ s.sig.ops → s.sigServes c = true →
    s.dsKind d = 1 → s.ecc = [] → s.pairOn = false → n < 2 ^ 26 → inDram (s.dsAddr d) 64 = true → s.rings.out = [c] →
    ∃ v t, v = State.reindexOne (s.spend 48) (d, n) ∧ v.dsid d = n ∧ v.dsKind d = 1 ∧ v.clearPend d = true ∧ v.ds d 0x24 10 1 = 0 ∧
      v.ds d 0x1C 0 32 = 0 ∧ v.ds d 0x20 0 32 = 0 ∧ v.sig.passes.any (fun p => p.dset == d && (p.kind == PassKind.clear || p.kind == PassKind.unpack)) = true ∧ sameMemBut (s.dsAddr d) 64 s v ∧
      exec .sigReindexSwitch s = .next t ∧ t = v.endLong c ⟨0x00, 0, []⟩) ∧
  (∀ (c : Cmd) (s : State), s.running = true → s.findOut 0 0x15 (fun _ => true) = some c → unitParts (c.fld 8 0 13) 48 ≤ c.prog → 48 ≤ s.sig.ops →
    s.sigServes c = true → s.dsidClash (keptPairs c.aux) = true →
    ∃ t, exec .sigReindexSwitch s = .next t ∧ t = s.endLong c ⟨0x20, 3, []⟩) ∧
  (∀ s : State, s.running = false ∨ s.sig.ops < 48 ∨
      (s.findOut 0 0x15 (fun _ => true)).all (fun c : Cmd => decide (c.prog < unitParts (c.fld 8 0 13) 48) || !s.sigServes c) = true →
    ∃ t, exec .sigReindexSwitch s = .next t ∧ t = s) ∧
  (∀ (d : BitVec 18) (s : State), s.running = true → s.dsEnabled d.toNat = true → s.staleN d.toNat ≠ 0 → s.dsStale d.toNat = false →
    s.deadline d.toNat < s.ntNs → s.rings.out = [] →
    ∃ v t, v = (s.setDs 0 d.toNat 0x24 8 1 1).setDs 0 d.toNat 0x34 16 16 (min ((s.setDs 0 d.toNat 0x24 8 1 1).ds d.toNat 0x34 16 16 + 1) 65535) ∧
      exec (.sigStaleDeadline d) s = .next t ∧ t.sig.passes.any (fun p => p.dset == d.toNat) = true ∧
      t = { v with regs := t.regs, sig := { v.sig with passes := t.sig.passes } } ∧ counted F.SIG_PASS_STALES v t ∧
      onlyFlds [F.SIG_PASS_STALES] v t) ∧
  (∀ (d : BitVec 18) (s : State), s.running = false ∨ s.dsEnabled d.toNat = false ∨ s.staleN d.toNat = 0 ∨ s.dsStale d.toNat = true ∨ s.ntNs ≤ s.deadline d.toNat →
    ∃ t, exec (.sigStaleDeadline d) s = .next t ∧ t = s) ∧
  (∀ (p : Nat) (x : Pass) (w0 v0 : State) (s : State), s.running = true → s.acts = true → s.tb.locked = true → s.slotRuns 0 = none → s.raw % 200 = 0 →
    s.slotServes 0 = some p → s.passesOf p = [x] → s.nsig x.dset ≤ 48 →
    w0 = { s with
      sig := { s.sig with ops := 48 },
      rings := { s.rings with lastPart := Sparse.insert s.rings.lastPart 0 p, slotRaw := Sparse.insert s.rings.slotRaw 0 s.raw } } →
    v0 = (w0.runPass x).spend (s.nsig x.dset) → v0.passesOf p = [] → v0.builtOf p = [] → v0.snapsOf p = [] → v0.cycSnapsOf p = [] → v0.cycCommitsOf p = [] →
    v0.readyRings 0 p = [] →
    ∃ t, exec (.engineSlotStart 0) s = .next t ∧ t = v0) ∧
  (∀ (x : Pass) (i : Nat) (s : State), s.ecc = [] → x.kind = PassKind.stale → s.subst x.dset = false → s.dsSlots x.dset = [i] → s.pairOn = false →
    (State.slot (s.runPass x) i) = { s.slot i with stale := true } ∧ sameMemBut (s.slotAt i) 16 s (s.runPass x) ∧
      (s.runPass x).sig.passes = s.sig.passes.filter (fun y => y.dset != x.dset)) ∧
  (∀ (x : Pass) (i : Nat) (s : State), s.ecc = [] → x.kind = PassKind.unpack → s.dsSlots x.dset = [i] → s.pairOn = false → s.rings.out = [] →
    (s.slot i).forced = false → s.dsAddr x.dset + 64 ≤ s.slotAt i →
    (State.slot (s.runPass x) i).value = slotValue (s.sigMap i) (fieldGet (s.latestBytes x.dset) (s.sigMap i)) ∧
      (State.slot (s.runPass x) i).ts = s.word (s.dsAddr x.dset + 0x28) ∧ (State.slot (s.runPass x) i).valid = true ∧ (State.slot (s.runPass x) i).stale = false ∧
      (State.slot (s.runPass x) i).gen8 = s.gen32 x.dset % 256) ∧
  (∀ (x : Pass) (i : Nat) (s : State), s.ecc = [] → x.kind = PassKind.clear → s.dsSlots x.dset = [i] → s.pairOn = false → s.dsAddr x.dset + 64 ≤ s.slotAt i →
    (State.slot (s.runPass x) i) = ⟨0, 0, false, false, (s.slot i).forced, false, false, 0⟩ ∧ (s.runPass x).clearPend x.dset = false)

/-- The commands on slots and lists (R328, R332, R346 to R350, R352): a snapshot of a raw list and one of a compiled list, over one and
over several slots, a list with an entry the ring may not read, forcing and unforcing a slot, watches and building a compiled list. A
clause that ends in t = s (an event before its instant or without its condition changes nothing) is the model's choice,
notes/assumptions/2.md. Where the clauses meet what notes/assumptions/46.md records, they say the model's choice. -/
def Obligations.SignalSlots : Prop :=
  (∀ (c : Cmd) (es : List (Nat × Nat)) (n list out : Nat) (w0 : State) (r : SnapCount × State) (s : State), inHand 0 0x11 c s → c.headerOk = true → n = c.fld 8 0 13 →
    c.fld 8 13 1 = 0 → c.fld 8 15 17 = 0 → c.word 0xC = 0 → c.fld 0x14 8 24 = 0 → c.fld 0x1C 8 24 = 0 → c.zeroFrom 0x20 = true → list = c.addr 0x10 →
    out = c.addr 0x18 → list % 16 = 0 → out % 64 = 0 → 0 < n → n ≤ 4096 → State.engineMayRead list (4 * n) = true →
    s.engineMayWrite out ((if c.fld 8 14 1 = 0 then 16 else 8) * n) = true → s.ecc = [] → es = s.rawList list n →
    (∀ e ∈ es, s.slotUsed e.1 = true ∧ s.sigRight (s.cmdPart c) 25 e.1 = true) → cutGroups (s.marked es none) 0 = [es] → 1 + n ≤ s.sig.ops →
    w0 = s.spend 1 → r = w0.snapList out (c.fld 8 14 1) es ⟨0, 0, 0x1FFF⟩ →
    ∃ t, exec .sigSnapshot s = .next t ∧ t = (r.2.spend n).finish 0 c ⟨0x00, 0, [BitVec.ofNat 32 (r.1.n + 65536 * r.1.notGood), BitVec.ofNat 32 r.1.first,
      BitVec.ofNat 32 s.ntNs, BitVec.ofNat 32 s.ntNs]⟩) ∧
  (∀ (c : Cmd) (g1 g2 : List (Nat × Nat)) (n list out : Nat) (r : SnapCount × State) (s : State), inHand 0 0x11 c s → c.headerOk = true → n = c.fld 8 0 13 →
    c.fld 8 13 1 = 0 → c.fld 8 15 17 = 0 → c.word 0xC = 0 → c.fld 0x14 8 24 = 0 → c.fld 0x1C 8 24 = 0 → c.zeroFrom 0x20 = true → list = c.addr 0x10 →
    out = c.addr 0x18 → list % 16 = 0 → out % 64 = 0 → 0 < n → n ≤ 4096 → State.engineMayRead list (4 * n) = true →
    s.engineMayWrite out ((if c.fld 8 14 1 = 0 then 16 else 8) * n) = true → s.ecc = [] →
    (∀ e ∈ g1, s.slotUsed e.1 = true ∧ s.sigRight (s.cmdPart c) 25 e.1 = true) → cutGroups (s.marked (s.rawList list n) none) 0 = [g1, g2] →
    s.sig.ops = 1 + g1.length → g2 ≠ [] → r = State.snapList (s.spend 1) out (c.fld 8 14 1) g1 ⟨0, 0, 0x1FFF⟩ →
    ∃ t, exec .sigSnapshot s = .next t ∧ t.hand 0 = none ∧ t = State.dropHand { r.2 with sig := { r.2.sig with
      ops := 0, snaps := s.sig.snaps ++ [(⟨some c, 0, s.cmdPart c, true, out, c.fld 8 14 1, (if c.fld 8 14 1 = 0 then 16 else 8) * n, [g2], r.1,
        some (BitVec.ofNat 32 s.ntNs, BitVec.ofNat 32 s.ntNs)⟩ : Snap)] } } 0) ∧
  (∀ (i j out : Nat) (x : SnapCount) (r : SnapCount × State) (s : State), s.ecc = [] → s.pairOn = false → r = s.snapList out 0 [(i, j)] x →
    r.2.bytes (out + 16 * j) 16 = (s.reported i).bytes (s.slotAge (s.sigMap i).dset (s.reported i)) ∧ sameMemBut (out + 16 * j) 16 s r.2 ∧
      r.1.n = x.n + 1 ∧ r.1.notGood = x.notGood + (if (s.reported i).quality = 3 then 0 else 1) ∧
      r.1.first = (if (s.reported i).quality = 3 then x.first else min x.first j)) ∧
  (∀ (i j out : Nat) (x : SnapCount) (r : SnapCount × State) (s : State), s.ecc = [] → s.pairOn = false → r = s.snapList out 1 [(i, j)] x →
    r.2.bytes (out + 8 * j) 8 = leBytes 8 (s.slot i).value.toNat ∧ sameMemBut (out + 8 * j) 8 s r.2) ∧
  (∀ (c : Cmd) (e : Nat × Nat) (k n list out : Nat) (u : State) (s : State), inHand 0 0x11 c s → c.headerOk = true → n = c.fld 8 0 13 →
    c.fld 8 13 1 = 0 → c.fld 8 15 17 = 0 → c.word 0xC = 0 → c.fld 0x14 8 24 = 0 → c.fld 0x1C 8 24 = 0 → c.zeroFrom 0x20 = true → list = c.addr 0x10 →
    out = c.addr 0x18 → list % 16 = 0 → out % 64 = 0 → 0 < n → n ≤ 4096 → State.engineMayRead list (4 * n) = true →
    k = (if c.fld 8 14 1 = 0 then 16 else 8) * n → s.engineMayWrite out k = true → s.ecc = [] →
    cutGroups (s.marked (s.rawList list n) none) 0 = [s.rawList list n] → 1 + n ≤ s.sig.ops →
    (s.rawList list n).find? (fun e => !s.slotUsed e.1 || !s.sigRight (s.cmdPart c) 25 e.1) = some e → u = s.spend 1 →
    ∃ t, exec .sigSnapshot s = .next t ∧
      t = ((u.freeBytes k).2.busWrite out (u.freeBytes k).1 0).finish 0 c ⟨if s.slotUsed e.1 = true then 0x21 else 0x20, e.2, []⟩) ∧
  (∀ (c : Cmd) (bad : Bool) (n list out : Nat) (s : State), inHand 0 0x11 c s → s.sig.ops ≠ 0 → n = c.fld 8 0 13 → list = c.addr 0x10 → out = c.addr 0x18 →
    bad = decide (c.headerOk = false ∨ c.fld 8 15 17 ≠ 0 ∨ c.word 0xC ≠ 0 ∨ c.fld 0x14 8 24 ≠ 0 ∨ c.fld 0x1C 8 24 ≠ 0 ∨ c.zeroFrom 0x20 = false ∨
      list % 16 ≠ 0 ∨ out % 64 ≠ 0) →
    bad = true ∨ (c.fld 8 13 1 = 1 ∧ State.engineMayRead list 16 = false) ∨ (c.fld 8 13 1 = 0 ∧ (n = 0 ∨ 4096 < n ∨ State.engineMayRead list (4 * n) = false ∨
      s.engineMayWrite out ((if c.fld 8 14 1 = 0 then 16 else 8) * n) = false)) →
    ∃ t, exec .sigSnapshot s = .next t ∧ t = (s.spend 1).finish 0 c ⟨0x20, 0, []⟩) ∧
  (∀ (c : Cmd) (list out : Nat) (s : State), inHand 0 0x11 c s → s.sig.ops ≠ 0 → c.headerOk = true →
    c.fld 8 13 1 = 1 → c.fld 8 15 17 = 0 → c.word 0xC = 0 → c.fld 0x14 8 24 = 0 → c.fld 0x1C 8 24 = 0 → c.zeroFrom 0x20 = true → list = c.addr 0x10 →
    out = c.addr 0x18 → list % 16 = 0 → out % 64 = 0 → State.engineMayRead list 16 = true → s.compiledOk list (s.cmdPart c) = false → s.ecc = [] →
    ∃ t, exec .sigSnapshot s = .next t ∧ t = (s.spend 1).finish 0 c ⟨0x20, 1, []⟩) ∧
  (∀ (c : Cmd) (es : List (Bool × Nat × Nat)) (list out : Nat) (r : SnapCount × State) (s : State), inHand 0 0x11 c s → c.headerOk = true →
    c.fld 8 13 1 = 1 → c.fld 8 15 17 = 0 → c.word 0xC = 0 → c.fld 0x14 8 24 = 0 → c.fld 0x1C 8 24 = 0 → c.zeroFrom 0x20 = true → list = c.addr 0x10 →
    out = c.addr 0x18 → list % 16 = 0 → out % 64 = 0 → State.engineMayRead list 16 = true → s.compiledOk list (s.cmdPart c) = true → s.ecc = [] →
    es = s.compiledList list → s.engineMayWrite out ((if c.fld 8 14 1 = 0 then 16 else 8) * es.foldl (fun m e => max m (e.2.2 + 1)) 0) = true →
    cutGroups es 0 = [es.map (fun e : Bool × Nat × Nat => e.2)] → 1 + es.length ≤ s.sig.ops →
    r = State.snapList (s.spend 1) out (c.fld 8 14 1) (es.map (fun e : Bool × Nat × Nat => e.2)) ⟨0, 0, 0x1FFF⟩ →
    ∃ t, exec .sigSnapshot s = .next t ∧ t = (r.2.spend es.length).finish 0 c ⟨0x00, 0, [BitVec.ofNat 32 (r.1.n + 65536 * r.1.notGood), BitVec.ofNat 32 r.1.first,
      BitVec.ofNat 32 s.ntNs, BitVec.ofNat 32 s.ntNs]⟩) ∧
  (∀ s : State, s.hand 0 = none ∨ s.running = false ∨ s.sig.ops = 0 →
    ∃ t v w0, exec .sigSnapshot s = .next t ∧ exec .sigForce s = .next v ∧ exec .sigUnforce s = .next w0 ∧ t = s ∧ v = s ∧ w0 = s) ∧
  (∀ (c : Cmd) (i : Nat) (m : SigMap) (w : DWord) (w0 : State) (r : Nat × Bool × State) (s : State), inHand 0 0x12 c s → s.sig.ops ≠ 0 → c.headerOk = true → i = c.fld 8 0 25 →
    c.fld 8 25 7 = 0 → c.word 0xC = 0 → c.zeroFrom 0x18 = true → s.slotUsed i = true → s.sigRight (s.cmdPart c) 26 i = true → (s.slot i).forced = false →
    s.forceActive = false → s.ecc = [] → s.pairOn = false → m = s.sigMap i → w0 = s.spend 1 →
    r = w0.packValue m (BitVec.ofNat 64 (c.word 0x10 + 2 ^ 32 * c.word 0x14)) → w = slotValue m r.1 →
    ∃ v t, v = ((r.2.2.putSlot i
          { s.slot i with value := w, ts := BitVec.ofNat 32 s.ntNs, forced := true, range := s.outOfRange m w }).wr F.SIG_FORCES_FORCES 1).forceNotice w0 ∧
      v.rd F.SIG_FORCES_FORCES = 1 ∧ v.rd F.CYC_STAT_FORCE = 1 ∧ raised [(491, [s.reg Reg.CYC_FORCES, v.reg Reg.SIG_FORCES])] s v ∧
      (v.slot i).value = w ∧ (v.slot i).forced = true ∧ (v.slot i).ts = BitVec.ofNat 32 s.ntNs ∧ sameMemBut (s.slotAt i) 16 s v ∧
      exec .sigForce s = .next t ∧ t = v.finish 0 c ⟨0x00, 0, []⟩) ∧
  (∀ (c : Cmd) (i : Nat) (m : SigMap) (w : DWord) (w0 : State) (r : Nat × Bool × State) (s : State), inHand 0 0x12 c s → s.sig.ops ≠ 0 → c.headerOk = true → i = c.fld 8 0 25 →
    c.fld 8 25 7 = 0 → c.word 0xC = 0 → c.zeroFrom 0x18 = true → s.slotUsed i = true → s.sigRight (s.cmdPart c) 26 i = true → (s.slot i).forced = true →
    s.ecc = [] → s.pairOn = false → m = s.sigMap i → w0 = s.spend 1 →
    r = w0.packValue m (BitVec.ofNat 64 (c.word 0x10 + 2 ^ 32 * c.word 0x14)) → w = slotValue m r.1 →
    ∃ v t, v = r.2.2.putSlot i { s.slot i with value := w, ts := BitVec.ofNat 32 s.ntNs, forced := true, range := s.outOfRange m w } ∧
      (v.slot i).value = w ∧ sameMemBut (s.slotAt i) 16 s v ∧ exec .sigForce s = .next t ∧ t = v.finish 0 c ⟨0x00, 0, []⟩) ∧
  (∀ (c : Cmd) (i : Nat) (w0 : State) (s : State), inHand 0 0x12 c s → s.sig.ops ≠ 0 → c.headerOk = true → i = c.fld 8 0 25 → c.fld 8 25 7 = 1 → c.word 0xC = 0 →
    c.zeroFrom 0x18 = true → s.slotUsed i = true → s.sigRight (s.cmdPart c) 26 i = true → (s.slot i).forced = true → s.ecc = [] → s.pairOn = false →
    s.rd F.SIG_FORCES_FORCES = 1 → s.rd F.CYC_FORCES_COUNT = 0 → w0 = s.spend 1 →
    ∃ v t, v = ((w0.putSlot i { s.slot i with forced := false }).wr F.SIG_FORCES_FORCES 0).forceNotice w0 ∧ v.rd F.SIG_FORCES_FORCES = 0 ∧
      v.rd F.CYC_STAT_FORCE = 0 ∧ raised [(492, [])] s v ∧ (v.slot i).forced = false ∧ (v.slot i).value = (s.slot i).value ∧ sameMemBut (s.slotAt i) 16 s v ∧
      exec .sigUnforce s = .next t ∧ t = v.finish 0 c ⟨0x00, 0, []⟩) ∧
  (∀ (c : Cmd) (i : Nat) (s : State), inHand 0 0x12 c s → s.sig.ops ≠ 0 → c.headerOk = true → i = c.fld 8 0 25 → c.fld 8 25 7 = 1 → c.word 0xC = 0 →
    c.zeroFrom 0x18 = true → s.slotUsed i = true → s.sigRight (s.cmdPart c) 26 i = true → (s.slot i).forced = false → s.ecc = [] →
    ∃ t, exec .sigUnforce s = .next t ∧ t = (s.spend 1).finish 0 c ⟨0x00, 0, []⟩) ∧
  (∀ (c : Cmd) (i : Nat) (bad : Bool) (s : State), inHand 0 0x12 c s → s.sig.ops ≠ 0 → i = c.fld 8 0 25 → s.ecc = [] → c.fld 8 25 1 = 0 →
    bad = decide (c.headerOk = false ∨ c.fld 8 26 6 ≠ 0 ∨ c.word 0xC ≠ 0 ∨ c.zeroFrom 0x18 = false ∨ s.slotUsed i = false) →
    bad = true ∨ s.sigRight (s.cmdPart c) 26 i = false →
    ∃ t v, exec .sigForce s = .next t ∧ exec .sigUnforce s = .next v ∧
      t = (s.spend 1).finish 0 c (if bad = true then ⟨0x20, 0, []⟩ else ⟨0x21, 0, []⟩) ∧ v = s) ∧
  (∀ (c : Cmd) (i : Nat) (bad : Bool) (s : State), inHand 0 0x12 c s → s.sig.ops ≠ 0 → i = c.fld 8 0 25 → s.ecc = [] → c.fld 8 25 1 = 1 →
    bad = decide (c.headerOk = false ∨ c.fld 8 26 6 ≠ 0 ∨ c.word 0xC ≠ 0 ∨ c.zeroFrom 0x18 = false ∨ s.slotUsed i = false) →
    bad = true ∨ s.sigRight (s.cmdPart c) 26 i = false →
    ∃ t v, exec .sigUnforce s = .next t ∧ exec .sigForce s = .next v ∧
      t = (s.spend 1).finish 0 c (if bad = true then ⟨0x20, 0, []⟩ else ⟨0x21, 0, []⟩) ∧ v = s) ∧
  (∀ (c c1 : Cmd) (s : State), inHand 0 0x13 c s → s.sig.ops ≠ 0 → s.ecc = [] → c.fin = none → s.pairOn = false →
    c1 = { c with
      long := true, ntAcc := BitVec.ofNat 32 s.ntNs,
      aux := [b2n ((s.accept 0 c).dsStale (c.fld 8 0 18)), (s.accept 0 c).raw + c.fld 0xC 0 16 * 500000] } →
    ∃ v t, v = ((s.accept 0 c).spend 1).setOut c1 ∧ exec .sigWatch s = .next t ∧
      t = (if v.watchHolds c1 then v.endLong c1 ⟨0x00, 0, [BitVec.ofNat 32 (v.gen32 (c.fld 8 0 18)), BitVec.ofNat 32 (b2n (v.dsStale (c.fld 8 0 18)))]⟩
        else v)) ∧
  (∀ (c : Cmd) (f : Final) (s : State), inHand 0 0x13 c s → s.sig.ops ≠ 0 → s.ecc = [] → c.fin = some f → ∃ t, exec .sigWatch s = .next t ∧ t = s.finish 0 c f) ∧
  (∀ s : State, s.hand 0 = none ∨ s.running = false ∨ s.sig.ops = 0 → ∃ t, exec .sigWatch s = .next t ∧ t = s) ∧
  (∀ (r : RingId) (p : BitVec 17) (c : Cmd) (s : State), s.findOut 0 0x13 (fun c => c.ring == r && c.pos == p) = some c → c.fld 0xC 0 16 ≠ 0 →
    reached s.raw (c.aux.getD 1 0) = true →
    ∃ t, exec (.sigWatchTimeout r p) s = .next t ∧
      t = s.endLong c ⟨0x41, 0, [BitVec.ofNat 32 (s.gen32 (c.fld 8 0 18)), BitVec.ofNat 32 (b2n (s.dsStale (c.fld 8 0 18)))]⟩) ∧
  (∀ (r : RingId) (p : BitVec 17) (s : State),
    (s.findOut 0 0x13 (fun c => c.ring == r && c.pos == p)).all (fun c : Cmd => c.fld 0xC 0 16 == 0 || !reached s.raw (c.aux.getD 1 0)) = true →
    ∃ t, exec (.sigWatchTimeout r p) s = .next t ∧ t = s) ∧
  (∀ (c c1 : Cmd) (v0 : State) (n out : Nat) (es : List (Nat × Nat × Nat)) (body : List Byte) (s : State), inHand 0 0x16 c s → c.fin = none → s.ecc = [] → 48 ≤ s.sig.ops →
    c.prog = 0 → c1 = { c with long := true, ntAcc := BitVec.ofNat 32 s.ntNs } → v0 = (s.accept 0 c).spend 48 → n = c.fld 8 0 13 → n ≤ 24 → out = c.addr 0x18 →
    es = (v0.rawList (c.addr 0x10) n).foldl (fun l e => subInsert ((v0.sigMap e.1).dset, e.1, e.2) l) [] → body = wordBytes (subWords es none 0).1 →
    ∃ t, exec .sigSubBuild s = .next t ∧
      t = ((v0.outBuf c (out + 0x10) body).outBuf c out (wordBytes [0x5355424C, BitVec.ofNat 32 ((v0.cmdPart c).toNat + 65536 * n), crc32c body, 0])).endLong
        c1 ⟨0x00, 0, [BitVec.ofNat 32 (subWords es none 0).2]⟩) ∧
  (∀ (c c1 : Cmd) (v0 : State) (s : State), inHand 0 0x16 c s → c.fin = none → s.ecc = [] → c1 = { c with long := true, ntAcc := BitVec.ofNat 32 s.ntNs } → c.prog = 0 →
    v0 = s.accept 0 c → s.sig.ops < 48 ∨ 24 < c.fld 8 0 13 →
    ∃ t, exec .sigSubBuild s = .next t ∧ t = (if s.sig.ops < 48 then v0 else State.setOut (v0.spend 48) { c1 with prog := 1 })) ∧
  (∀ (c : Cmd) (f : Final) (s : State), inHand 0 0x16 c s → c.fin = some f → s.ecc = [] → ∃ t, exec .sigSubBuild s = .next t ∧ t = s.finish 0 c f) ∧
  (∀ s : State, s.hand 0 = none ∨ s.running = false → ∃ t, exec .sigSubBuild s = .next t ∧ t = s) ∧
  (∀ (p r : Nat) (s : State), s.running = true → s.acts = true → s.tb.locked = true → s.slotRuns 0 = none → s.raw % 200 = 0 → s.ecc = [] →
    s.slotServes 0 = some p → s.ownWork 0 p = false → s.ringTurn 0 p = some r → s.ringLong r = false → s.firstCost (s.headCmd (BitVec.ofNat 15 r)) ≤ 48 →
    (s.ctx (BitVec.ofNat 15 r)).st = RingSt.busy → s.takeStep (BitVec.ofNat 15 r) true (engKind 0) = TakeStep.go →
    engKind 0 (s.headCmd (BitVec.ofNat 15 r)) s = OpKind.short →
    ∃ t, exec (.engineSlotStart 0) s = .next t ∧ t.hand 0 = some (s.headCmd (BitVec.ofNat 15 r)) ∧ t.sig = { s.sig with ops := 48 } ∧
      Sparse.lookup t.rings.lastPart 0 = some p ∧ Sparse.lookup t.rings.lastRing p = some r ∧ Sparse.lookup t.rings.slotRaw 0 = some s.raw ∧
      t = { s with sig := t.sig, rings := { s.rings with
        ctx := t.rings.ctx, hand := t.rings.hand, lastPart := t.rings.lastPart, lastRing := t.rings.lastRing, slotRaw := t.rings.slotRaw } }) ∧
  (∀ (e : EngineId) (p r : Nat) (s : State), s.running = true → s.acts = true → s.tb.locked = true → s.slotRuns e.val = some p → s.hand e.val = none → s.ecc = [] →
    s.ringTurn e.val p = some r → e ≠ 0 ∨ (s.ringLong r = false ∧ s.firstCost (s.headCmd (BitVec.ofNat 15 r)) ≤ s.sig.ops) →
    (s.ctx (BitVec.ofNat 15 r)).st = RingSt.busy → s.takeStep (BitVec.ofNat 15 r) true (engKind e.val) = TakeStep.go →
    engKind e.val (s.headCmd (BitVec.ofNat 15 r)) s = OpKind.short →
    ∃ t, exec (.engineSlotStart e) s = .next t ∧ t.hand e.val = some (s.headCmd (BitVec.ofNat 15 r)) ∧ Sparse.lookup t.rings.lastRing (256 * e.val + p) = some r ∧
      t = { s with rings := { s.rings with ctx := t.rings.ctx, hand := t.rings.hand, lastRing := t.rings.lastRing } }) ∧
  (∀ (p r : Nat) (s : State), s.running = true → s.acts = true → s.tb.locked = true → s.slotRuns 0 = some p → s.hand 0 = none → s.readyRings 0 p = [r] →
    s.ringTurn 0 p = some r → s.ringLong r = false → s.sig.ops < s.firstCost (s.headCmd (BitVec.ofNat 15 r)) →
    ∃ t, exec (.engineSlotStart 0) s = .next t ∧ t = { s with rings := { s.rings with lastRing := t.rings.lastRing } } ∧
      Sparse.lookup t.rings.lastRing p = some r)

/-- GW_GROUP_CTL and the gateway's slots (R359, R363): enabling a group with and without a new HOLD, disabling one, commands that are
malformed or name a group of another partition, and the runs of the groups that are ready. A clause that ends in t = s (an event before
its instant or without its condition changes nothing) is the model's choice, notes/assumptions/2.md. Where the clauses meet what
notes/assumptions/48.md records, they say the model's choice. -/
def Obligations.GatewayGroups : Prop :=
  (∀ (c : Cmd) (g : Nat) (s : State), inHand 0x11 0x10 c s → c.headerOk = true → g = c.fld 8 0 14 → c.fld 8 14 2 = 0 → c.fld 8 18 14 = 0 →
    c.fld 0xC 20 12 = 0 → c.zeroFrom 0x10 = true → g < s.rd F.GW_GROUP_COUNT_COUNT → s.gwPart g = (s.cmdPart c).toNat ∨ (s.ctx c.ring).mp = true →
    c.fld 8 16 1 = 1 →
    ∃ v t, v = (if c.fld 8 17 1 = 1 then (s.setGw g 0 18 1 1).setGw g 8 0 20 (c.fld 0xC 0 20) else s.setGw g 0 18 1 1) ∧
      exec .gwGroupCtl s = .next t ∧ t = v.finish 0x11 c ⟨0x00, 0, []⟩) ∧
  (∀ (c : Cmd) (g : Nat) (v0 : State) (s : State), inHand 0x11 0x10 c s → c.headerOk = true → g = c.fld 8 0 14 → c.fld 8 14 2 = 0 → c.fld 8 18 14 = 0 →
    c.fld 0xC 20 12 = 0 → c.zeroFrom 0x10 = true → g < s.rd F.GW_GROUP_COUNT_COUNT → s.gwPart g = (s.cmdPart c).toNat ∨ (s.ctx c.ring).mp = true →
    c.fld 8 16 1 = 0 → v0 = (if c.fld 8 17 1 = 1 then (s.setGw g 0 18 1 0).setGw g 8 0 20 (c.fld 0xC 0 20) else s.setGw g 0 18 1 0) →
    ∃ v t, v = State.setGw { v0 with sig := { v0.sig with groups := v0.sig.groups.filter (fun x => x.1 != g) } } g 0x1C 0 1 0 ∧
      exec .gwGroupCtl s = .next t ∧ t = v.finish 0x11 c ⟨0x00, 0, []⟩) ∧
  (∀ (g h : Nat) (s : State), s.ecc = [] → s.pairOn = false → h < 2 ^ 20 → inDram (s.gwGroup g) 32 = true →
    ((s.setGw g 0 18 1 1).setGw g 8 0 20 h).gwOn g = true ∧ State.memFld ((s.setGw g 0 18 1 1).setGw g 8 0 20 h) (s.gwGroup g + 8) 0 20 = h ∧
      (s.setGw g 0 18 1 0).gwOn g = false ∧ State.memFld (s.setGw g 0x1C 0 1 0) (s.gwGroup g + 0x1C) 0 1 = 0 ∧
      sameMemBut (s.gwGroup g) 12 s ((s.setGw g 0 18 1 1).setGw g 8 0 20 h) ∧ sameMemBut (s.gwGroup g + 0x1C) 4 s (s.setGw g 0x1C 0 1 0)) ∧
  (∀ (c : Cmd) (g : Nat) (s : State), inHand 0x11 0x10 c s → c.headerOk = true → g = c.fld 8 0 14 → c.fld 8 14 2 = 0 → c.fld 8 18 14 = 0 →
    c.fld 0xC 20 12 = 0 → c.zeroFrom 0x10 = true → g < s.rd F.GW_GROUP_COUNT_COUNT → s.gwPart g ≠ (s.cmdPart c).toNat → (s.ctx c.ring).mp = false →
    ∃ t, exec .gwGroupCtl s = .next t ∧ t = s.finish 0x11 c ⟨0x21, 0, []⟩) ∧
  (∀ (c : Cmd) (s : State), inHand 0x11 0x10 c s → c.headerOk = false ∨ c.fld 8 14 2 ≠ 0 ∨ c.fld 8 18 14 ≠ 0 ∨ c.fld 0xC 20 12 ≠ 0 ∨ c.zeroFrom 0x10 = false ∨
    s.rd F.GW_GROUP_COUNT_COUNT ≤ c.fld 8 0 14 →
    ∃ t, exec .gwGroupCtl s = .next t ∧ t = s.finish 0x11 c ⟨0x20, 0, []⟩) ∧
  (∀ s : State, s.hand 0x11 = none ∨ s.running = false → ∃ t, exec .gwGroupCtl s = .next t ∧ t = s) ∧
  (∀ (c : Cmd) (s : State), s.hand 0x11 = some c → c.opcode ≠ 0x10 ∨ s.cmdHeld c = true → ∃ t, exec .gwGroupCtl s = .next t ∧ t = s) ∧
  (∀ (p : Nat) (v0 : State) (s : State), s.running = true → s.acts = true → s.tb.locked = true → s.slotRuns 0x11 = none → s.raw % 200 = 0 →
    s.slotServes 0x11 = some p →
    v0 = { s with
      rings := { s.rings with lastPart := Sparse.insert s.rings.lastPart 0x11 p, slotRaw := Sparse.insert s.rings.slotRaw 0x11 s.raw } } →
    ∃ v t, v = v0.gwRuns (v0.gwReady p) 48 ∧ exec (.engineSlotStart 0x11) s = .next t ∧ t = v.slotRings 0x11 p (v.readyRings 0x11 p).length) ∧
  (∀ (g r d : Nat) (bs : List Byte) (s : State), s.ecc = [] → s.gwRoutes g = [] → d = s.memFld (s.gwGroup g) 0 18 → s.dsKind d = 2 → s.pairOn = false →
    s.memFld (s.gwGroup g + 0x1C) 1 1 = 0 → bs = s.latestBytes d → inDram (s.gwGroup g) 32 = true → s.dsAddr d + 64 ≤ s.gwGroup g →
    s.bufAddr d 0 + 4 * s.dlen d ≤ s.gwGroup g →
    State.memFld (s.gwRun g r) (s.gwGroup g + 0x1C) 0 2 = 0 ∧ (s.gwRun g r).sig.built = s.sig.built ++ [(g, s.gwElig g r, bs)] ∧
      (s.gwRun g r).sig.groups = s.sig.groups.filter (fun x => x.1 != g) ∧ sameMemBut (s.gwGroup g) 32 s (s.gwRun g r))

/-- The rack bridge (R365 to R377): a cycle starts, waits for the response inputs, is answered and ends; a posted write that fails; the
two timeouts, the RB_RST_N pulse and its end; the block commands and a cycle of one. A clause that ends in t = s (an event before its
instant or without its condition changes nothing) is the model's choice, notes/assumptions/2.md. Where the clauses meet what
notes/assumptions/56.md records, they say the model's choice. -/
def Obligations.RackCycles : Prop :=
  (∀ (low : Bool) (w : Nat) (a : RackAcc) (q : List RackAcc) (s : State), s.rack.cycle = none → s.rackRuns = true → s.rackTurn = some w →
    s.rackQueue w = a :: q →
    ∃ t, exec (.rbCycleStart low) s = .next t ∧ t.rd F.RB_STAT_BUSY = 1 ∧
      t.rack = { s.rack with
        last := w,
        cycle := some (⟨w, none, a.off + 2 * a.done, a.write, if a.write then BitVec.ofNat 16 (a.data / 2 ^ (16 * a.done)) else 0, s.raw,
          if low then .due else .strobes⟩ : RackCycle) } ∧
      t = { s with regs := t.regs, rack := t.rack } ∧ onlyFlds [F.RB_STAT_BUSY] s t) ∧
  (∀ (low : Bool) (w : Nat) (c : Cmd) (s : State), s.rack.cycle = none → s.rackRuns = true → s.rackTurn = some w → s.rackQueue w = [] →
    s.rackBlock w = some c → s.ecc = [] →
    ∃ t, exec (.rbCycleStart low) s = .next t ∧ t.rd F.RB_STAT_BUSY = 1 ∧
      t.rack = { s.rack with
        last := w,
        cycle := some (⟨rbWin c, some (c.ring, c.pos), if rbFixed c then rbOff c else rbOff c + 2 * c.prog, c.opcode == 0x11,
          if c.opcode == 0x11 then BitVec.ofNat 16 (s.le (c.addr 0x10 + 2 * c.prog) 2) else 0, s.raw, if low then .due else .strobes⟩ : RackCycle) } ∧
      (∀ x ∈ t.rack.cycle.toList, x.off = (if rbFixed c then rbOff c else rbOff c + 2 * c.prog)) ∧
      t = { s with regs := t.regs, rack := { s.rack with last := t.rack.last, cycle := t.rack.cycle } } ∧ onlyFlds [F.RB_STAT_BUSY] s t) ∧
  (∀ (low : Bool) (w : Nat) (c : Cmd) (s : State), s.rack.cycle = none → s.rackRuns = true → s.rackTurn = some w → s.rackQueue w = [] →
    s.rackBlock w = some c → c.opcode = 0x11 → (s.readCheck (c.addr 0x10 + 2 * c.prog) 2 0x12).1 = false →
    ∃ t, exec (.rbCycleStart low) s = .next t ∧
      t = (s.readCheck (c.addr 0x10 + 2 * c.prog) 2 0x12).2.endLong c ⟨0xFF, 0, [BitVec.ofNat 32 c.prog,
        BitVec.ofNat 32 (if rbFixed c then rbOff c else rbOff c + 2 * c.prog)]⟩) ∧
  (∀ (c : RackCycle) (s : State), s.rack.cycle = some c → c.stage = .due → s.raw ≤ c.start + s.rd F.RB_CFG_TMO * 500 →
    ∃ t, exec (.rbCycleStart false) s = .next t ∧ t.rd F.RB_STAT_BUSY = 1 ∧
      t = { s with
        regs := t.regs, rack := { s.rack with cycle := some { c with stage := .strobes, start := s.raw } } } ∧
      onlyFlds [F.RB_STAT_BUSY] s t) ∧
  (∀ (err : Bool) (data : BitVec 16) (c : RackCycle) (s : State), s.rack.cycle = some c → c.stage = .strobes →
    s.raw < c.start + s.rd F.RB_CFG_TMO * 500 →
    ∃ t, exec (.rbCycleResponse err data) s = .next t ∧ t.rd F.RB_STAT_BUSY = 1 ∧
      t = { s with
        regs := t.regs, rack := { s.rack with cycle := some { c with stage := .answered err, data := if c.write then c.data else data } } } ∧
      onlyFlds [F.RB_STAT_BUSY] s t) ∧
  (∀ (c : RackCycle) (a : RackAcc) (h : HartId) (q : List RackAcc) (s : State), s.rack.cycle = some c → c.stage = .answered false →
    c.start + 125 ≤ s.raw → s.raw ≤ c.start + 2 * (s.rd F.RB_CFG_TMO * 500) → c.block = none → s.rackQueue c.win = a :: q → a.hart = some h → a.write = false → a.dropped = false → 2 * (a.done + 1) = a.size →
    ∃ t, exec .rbCycleEnd s = .next t ∧ counted F.RB_CYCLES_CYCLES s t ∧ t.rd F.RB_STAT_BUSY = 0 ∧ t.rack.cycle = none ∧ t.rackQueue c.win = q ∧
      (∀ x ∈ (Sparse.lookup t.lanes.ready h.val).toList, x.value = BitVec.ofNat 64 (a.data + c.data.toNat * 2 ^ (16 * a.done)) ∧ x.fault = none) ∧
      t = { s with
        regs := t.regs, rack := { s.rack with cycle := none, queues := t.rack.queues }, lanes := { s.lanes with ready := t.lanes.ready } } ∧
      onlyFlds [F.RB_CYCLES_CYCLES, F.RB_STAT_BUSY] s t) ∧
  (∀ (c : RackCycle) (a : RackAcc) (q : List RackAcc) (s : State), s.rack.cycle = some c → c.stage = .answered true → c.start + 125 ≤ s.raw →
    s.raw ≤ c.start + 2 * (s.rd F.RB_CFG_TMO * 500) → c.block = none → s.rackQueue c.win = a :: q → a.hart = none → s.rd F.RB_PERR_VALID = 0 →
    ∃ t, exec .rbCycleEnd s = .next t ∧ counted F.RB_CYCLES_CYCLES s t ∧ counted F.RB_PERR_CNT_COUNT s t ∧ t.rd F.RB_STAT_BUSY = 0 ∧
      t.rd F.RB_PERR_VALID = 1 ∧ t.rd F.RB_PERR_KIND = 1 ∧ t.rd F.RB_PERR_WIN = c.win % 16 ∧ t.rd F.RB_PERR_OFS_OFFSET = c.off % 2 ^ F.RB_PERR_OFS_OFFSET.w ∧
      raised [(156, [BitVec.ofNat 32 (c.win + 16), BitVec.ofNat 32 c.off])] s t ∧ t.rackQueue c.win = q ∧
      t = { s with regs := t.regs, evt := t.evt, rack := { s.rack with cycle := none, queues := t.rack.queues } } ∧
      onlyFlds [F.RB_CYCLES_CYCLES, F.RB_PERR_CNT_COUNT, F.RB_STAT_BUSY, F.RB_PERR_VALID, F.RB_PERR_KIND, F.RB_PERR_WIN, F.RB_PERR_OFS_OFFSET] s t) ∧
  (∀ (c : RackCycle) (o : Nat) (s : State), s.rack.cycle = some c →
    ((c.stage = .answered false ∧ o = 0 ∧ c.start + 125 ≤ s.raw) ∨ (c.stage = .answered true ∧ o = 1 ∧ c.start + 125 ≤ s.raw) ∨ (c.stage = .released ∧ o = 2)) →
    s.raw ≤ c.start + 2 * (s.rd F.RB_CFG_TMO * 500) →
    ∃ v t, v = State.setCycle (s.satAdd F.RB_CYCLES_CYCLES 1) none ∧ v.rack.cycle = none ∧ v.rd F.RB_STAT_BUSY = 0 ∧ exec .rbCycleEnd s = .next t ∧
      t = (match c.block with
        | none => v.rackLaneEnd c o
        | some (r, p) => match s.rings.out.find? (fun d : Cmd => d.ring == r && d.pos == p) with
          | some d => v.rackBlockEnd d c o
          | none => v)) ∧
  (∀ (c : RackCycle) (a : RackAcc) (q : List RackAcc) (s : State), s.rackQueue c.win = a :: q → 2 * (a.done + 1) < a.size → a.write = false →
    (s.rackLaneEnd c 0).rackQueue c.win = { a with done := a.done + 1, data := a.data + c.data.toNat * 2 ^ (16 * a.done) } :: q ∧
      (s.rackLaneEnd c 0).lanes = s.lanes ∧ (s.rackLaneEnd c 0).regs = s.regs) ∧
  (∀ (c : RackCycle) (a : RackAcc) (h : HartId) (o : Nat) (q : List RackAcc) (s : State), s.rackQueue c.win = a :: q → a.hart = some h → a.dropped = false →
    o = 1 ∨ o = 2 → s.rd F.RB_AERR_VALID = 0 → c.win < 16 →
    counted F.RB_AERR_CNT_COUNT s (s.rackLaneEnd c o) ∧ (s.rackLaneEnd c o).rd F.RB_AERR_VALID = 1 ∧ (s.rackLaneEnd c o).rd F.RB_AERR_KIND = o ∧
      (s.rackLaneEnd c o).rd F.RB_AERR_WIN = c.win ∧ (s.rackLaneEnd c o).rd F.RB_AERR_HART = h.val ∧
      raised [(157, [BitVec.ofNat 32 (c.win + 16 * o + 64 * h.val), BitVec.ofNat 32 c.off])] s (s.rackLaneEnd c o) ∧
      (s.rackLaneEnd c o).rackQueue c.win = q ∧
      Sparse.lookup (s.rackLaneEnd c o).lanes.ready h.val = some (⟨0, some (if a.write then 7 else 5, rackAddr c.win c.off),
        some (if a.write then LogRec.npw h (rackAddr c.win a.off) (some (rackAddr c.win c.off))
          else LogRec.vread h a.size (rackAddr c.win a.off) 0 (some (rackAddr c.win c.off)))⟩ : Ready)) ∧
  (∀ (c : RackCycle) (a : RackAcc) (h : HartId) (q : List RackAcc) (s : State), s.rackQueue c.win = a :: q → a.hart = some h → a.dropped = false →
    a.write = true → 2 * (a.done + 1) = a.size →
    (s.rackLaneEnd c 0).rackQueue c.win = q ∧
      Sparse.lookup (s.rackLaneEnd c 0).lanes.ready h.val = some (⟨0, none, some (.npw h (rackAddr c.win a.off) none)⟩ : Ready)) ∧
  (∀ (c : RackCycle) (d : Cmd) (s : State), s.rack.cycle = some c → c.stage = .answered false → c.start + 125 ≤ s.raw →
    s.raw ≤ c.start + 2 * (s.rd F.RB_CFG_TMO * 500) → c.block = some (d.ring, d.pos) → s.rings.out = [d] → c.write = false → d.prog + 1 < rbCount d →
    ∃ v t, v = State.busWrite (State.setCycle (s.satAdd F.RB_CYCLES_CYCLES 1) none) (d.addr 0x10 + 2 * d.prog) (leBytes 2 c.data.toNat) 0x12 ∧
      exec .rbCycleEnd s = .next t ∧ t = v.setOut { d with prog := d.prog + 1 } ∧ t.rings.out = [{ d with prog := d.prog + 1 }]) ∧
  (∀ (a n : Nat) (s : State), s.ecc = [] → s.pairOn = false → inDram a 2 = true →
    State.bytes (s.busWrite a (leBytes 2 n) 0x12) a 2 = leBytes 2 n ∧ sameMemBut a 2 s (s.busWrite a (leBytes 2 n) 0x12)) ∧
  (∀ (c : RackCycle) (d : Cmd) (s : State), s.rack.cycle = some c → c.stage = .answered false → c.start + 125 ≤ s.raw →
    s.raw ≤ c.start + 2 * (s.rd F.RB_CFG_TMO * 500) → c.block = some (d.ring, d.pos) → s.rings.out = [d] → c.write = true → d.prog + 1 = rbCount d →
    ∃ v t, v = State.setOut (State.setCycle (s.satAdd F.RB_CYCLES_CYCLES 1) none) { d with prog := d.prog + 1 } ∧ exec .rbCycleEnd s = .next t ∧
      t = v.endLong { d with prog := d.prog + 1 } ⟨0x00, 0, [BitVec.ofNat 32 (d.prog + 1), 0]⟩) ∧
  (∀ (c : RackCycle) (d : Cmd) (o : Nat) (s : State), s.rack.cycle = some c → (c.stage = .answered true ∧ o = 1 ∧ c.start + 125 ≤ s.raw) ∨ (c.stage = .released ∧ o = 2) →
    s.raw ≤ c.start + 2 * (s.rd F.RB_CFG_TMO * 500) → c.block = some (d.ring, d.pos) → s.rings.out = [d] →
    ∃ v t, v = State.setCycle (s.satAdd F.RB_CYCLES_CYCLES 1) none ∧ exec .rbCycleEnd s = .next t ∧
      t = v.endLong d ⟨if o = 1 then 0x40 else 0x41, 0, [BitVec.ofNat 32 d.prog, BitVec.ofNat 32 c.off]⟩) ∧
  (∀ (c : RackCycle) (s : State), s.rack.cycle = some c → c.stage = .strobes → c.start + s.rd F.RB_CFG_TMO * 500 ≤ s.raw →
    ∃ t, exec .rbCycleTimeout s = .next t ∧ t = { s with regs := t.regs, rack := { s.rack with cycle := some { c with stage := .released } } } ∧
      onlyFlds [F.RB_STAT_BUSY] s t) ∧
  (∀ (c : RackCycle) (s : State), s.rack.cycle = some c → c.stage = .released → c.start + 2 * (s.rd F.RB_CFG_TMO * 500) ≤ s.raw →
    ∃ t, exec .rbCycleTimeout s = .next t ∧ counted F.RB_STUCK_RESETS s t ∧ t.rd F.RB_STAT_RST = 1 ∧ raised [(159, [t.reg Reg.RB_STUCK])] s t ∧
      t = { s with
        regs := t.regs, evt := t.evt, rack := { s.rack with cycle := some { c with stage := .pulse 2 true, start := s.raw } } } ∧
      onlyFlds [F.RB_STUCK_RESETS, F.RB_STAT_RST, F.RB_STAT_BUSY] s t) ∧
  (∀ (c : RackCycle) (b : Bool) (s : State), s.rack.cycle = some c →
    (c.stage = RackStage.due ∧ b = false ∧ c.start + s.rd F.RB_CFG_TMO * 500 ≤ s.raw) ∨
      ((c.stage = RackStage.answered false ∨ c.stage = RackStage.answered true) ∧ b = true ∧ c.start + 2 * (s.rd F.RB_CFG_TMO * 500) ≤ s.raw) →
    ∃ t, exec .rbCycleTimeout s = .next t ∧ counted F.RB_STUCK_RESETS s t ∧ t.rd F.RB_STAT_RST = 1 ∧ raised [(159, [t.reg Reg.RB_STUCK])] s t ∧
      t = { s with
        regs := t.regs, evt := t.evt,
        rack := { s.rack with
          cycle := some { c with
            stage := .pulse (if c.stage = RackStage.due then 2 else if c.stage = RackStage.answered true then 1 else 0) b, start := s.raw } } } ∧
      onlyFlds [F.RB_STUCK_RESETS, F.RB_STAT_RST, F.RB_STAT_BUSY] s t) ∧
  (∀ (c : RackCycle) (o : Nat) (s : State), s.rack.cycle = some c → c.stage = .pulse o false → c.start + 5000 ≤ s.raw →
    ∃ v t, v = State.setCycle (s.wr F.RB_STAT_RST 0) none ∧ v.rd F.RB_STAT_RST = 0 ∧ v.rack.cycle = none ∧ exec .rbBusResetEnd s = .next t ∧
      t = (match c.block with
        | none => v.rackLaneEnd c o
        | some (r, p) => match s.rings.out.find? (fun d : Cmd => d.ring == r && d.pos == p) with
          | some d => v.rackBlockEnd d c o
          | none => v)) ∧
  (∀ (c : RackCycle) (d : Cmd) (s : State), s.rack.cycle = some c → c.stage = .pulse 2 true → c.start + 5000 ≤ s.raw → c.block = some (d.ring, d.pos) →
    s.rings.out = [d] →
    ∃ v t, v = (((s.wr F.RB_STAT_RST 0).satAdd F.RB_CYCLES_CYCLES 1).setCycle none) ∧ v.rd F.RB_STAT_RST = 0 ∧ v.rack.cycle = none ∧
      exec .rbBusResetEnd s = .next t ∧ t = v.endLong d ⟨0x41, 0, [BitVec.ofNat 32 d.prog, BitVec.ofNat 32 c.off]⟩) ∧
  (∀ (r : Nat) (s : State), s.rack.waitEnd = some r → r ≤ s.raw →
    ∃ t, exec .rbRstWaitEnd s = .next t ∧ t = { s with rack := { s.rack with waitEnd := none, ready := true } }) ∧
  (∀ (c : Cmd) (s : State), inHand 0x12 0x10 c s → c.fin = none → ∃ t, exec .rbBlockRead s = .next t ∧ t = s.accept 0x12 c) ∧
  (∀ (c : Cmd) (s : State), inHand 0x12 0x11 c s → c.fin = none → ∃ t, exec .rbBlockWrite s = .next t ∧ t = s.accept 0x12 c) ∧
  (∀ (c : Cmd) (f : Final) (s : State), inHand 0x12 0x10 c s → c.fin = some f → ∃ t, exec .rbBlockRead s = .next t ∧ t = s.finish 0x12 c f) ∧
  (∀ (c : Cmd) (f : Final) (s : State), inHand 0x12 0x11 c s → c.fin = some f → ∃ t, exec .rbBlockWrite s = .next t ∧ t = s.finish 0x12 c f) ∧
  (∀ s : State, s.hand 0x12 = none ∨ s.running = false →
    ∃ t v, exec .rbBlockRead s = .next t ∧ exec .rbBlockWrite s = .next v ∧ t = s ∧ v = s) ∧
  (∀ (low err : Bool) (data : BitVec 16) (s : State), s.rack.cycle = none → s.rackRuns = false ∨ s.rackTurn = none →
    ∃ t v w0, exec (.rbCycleStart low) s = .next t ∧ exec (.rbCycleResponse err data) s = .next v ∧ exec .rbCycleEnd s = .next w0 ∧ t = s ∧ v = s ∧ w0 = s) ∧
  (∀ s : State, s.rack.cycle = none →
    ∃ t v w0, exec .rbCycleTimeout s = .next t ∧ exec .rbBusResetEnd s = .next v ∧ exec .rbCycleEnd s = .next w0 ∧ t = s ∧ v = s ∧ w0 = s) ∧
  (∀ (c : RackCycle) (o : Nat) (b : Bool) (s : State), s.rack.cycle = some c → c.stage = .pulse o b →
    ∃ t v w0, exec .rbCycleTimeout s = .next t ∧ exec .rbCycleEnd s = .next v ∧ exec (.rbCycleResponse b c.data) s = .next w0 ∧ t = s ∧ v = s ∧ w0 = s) ∧
  (∀ (c : RackCycle) (o : Nat) (b : Bool) (s : State), s.rack.cycle = some c → c.stage = .pulse o b → s.raw < c.start + 5000 →
    ∃ t, exec .rbBusResetEnd s = .next t ∧ t = s) ∧
  (∀ s : State, Option.all (fun r => decide (s.raw < r)) s.rack.waitEnd = true → ∃ t, exec .rbRstWaitEnd s = .next t ∧ t = s)

/-- The cycle engine's commands (R393, R394, R398 to R402): an overrun with each WDT_ACTION, CYC_RESTART, CYC_STOP, CYC_FORCE that takes
an entry and one that frees it, CYC_STATUS, and the end of an idle window. A clause that ends in t = s (an event before its instant or
without its condition changes nothing) is the model's choice, notes/assumptions/2.md. Where the clauses meet what notes/assumptions/57.md,
notes/assumptions/58.md record, they say the model's choice. -/
def Obligations.CycleCommands : Prop :=
  (∀ (k : Fin 64) (p : Nat) (s : State), s.running = true → s.wdtDue k.val = true → (List.range k.val).any s.wdtDue = false → s.rd (F.TASK_CTL_WDT_ACTION k.val) = 1 → p = s.taskPart k.val →
    s.rd F.CYC_OVR_VALID = 1 →
    ∃ v t, v = ((s.taskTo k.val 1 false).satAdd (F.TASK_STAT_OVERRUNS k.val) 1).raise
        486 [BitVec.ofNat 32 (k.val + 256 * p + 65536), BitVec.ofNat 32 (s.rd (F.TASK_CYCLE_CYCLE k.val) + 2 ^ 32 - 1)] ∧
      v.taskSt k.val = 1 ∧ counted (F.TASK_STAT_OVERRUNS k.val) s v ∧ exec (.cycOverrun k) s = .next t ∧ safeFrom 6 v t) ∧
  (∀ (k : Fin 64) (p : Nat) (s : State), s.running = true → s.wdtDue k.val = true → (List.range k.val).any s.wdtDue = false → s.rd (F.TASK_CTL_WDT_ACTION k.val) = 0 → p = s.taskPart k.val →
    s.ctl p ≠ 3 → s.rd F.CYC_OVR_VALID = 0 →
    ∃ v t, v = ((((((s.taskTo k.val 1 false).satAdd (F.TASK_STAT_OVERRUNS k.val) 1).wr F.CYC_OVR_TASK k.val).wr F.CYC_OVR_PART p).wr F.CYC_OVR_VALID 1).raise
        486 [BitVec.ofNat 32 (k.val + 256 * p), BitVec.ofNat 32 (s.rd (F.TASK_CYCLE_CYCLE k.val) + 2 ^ 32 - 1)]) ∧
      v.taskSt k.val = 1 ∧ counted (F.TASK_STAT_OVERRUNS k.val) s v ∧ v.rd F.CYC_OVR_TASK = k.val ∧ v.rd F.CYC_OVR_PART = p ∧ v.rd F.CYC_OVR_VALID = 1 ∧
      exec (.cycOverrun k) s = .next t ∧ t = ((v.ctlStop p true).overrunStart p).idleCheck) ∧
  (∀ (k : Fin 64) (p act : Nat) (v0 : State) (s : State), s.running = true → s.wdtDue k.val = true → (List.range k.val).any s.wdtDue = false →
    p = s.taskPart k.val → act = s.rd (F.TASK_CTL_WDT_ACTION k.val) →
    v0 = State.raise (if s.rd F.CYC_OVR_VALID = 1 then (s.taskTo k.val 1 false).satAdd (F.TASK_STAT_OVERRUNS k.val) 1
        else ((((s.taskTo k.val 1 false).satAdd (F.TASK_STAT_OVERRUNS k.val) 1).wr F.CYC_OVR_TASK k.val).wr F.CYC_OVR_PART p).wr F.CYC_OVR_VALID 1)
      486 [BitVec.ofNat 32 (k.val + 256 * p + 65536 * act), BitVec.ofNat 32 (s.rd (F.TASK_CYCLE_CYCLE k.val) + 2 ^ 32 - 1)] →
    ∃ t, exec (.cycOverrun k) s = .next t ∧
      t = (if act = 1 then v0.enterSafe 6 else if s.ctl p = 3 then (v0.overrunStart p).idleCheck else ((v0.ctlStop p true).overrunStart p).idleCheck)) ∧
  (∀ (k : Fin 64) (s : State), s.wdtDue k.val = false ∨ s.running = false ∨ (List.range k.val).any s.wdtDue = true → ∃ t, exec (.cycOverrun k) s = .next t ∧ t = s) ∧
  (∀ (c : Cmd) (p k : Nat) (s : State), inHand 0x13 0x10 c s → c.headerOk = true → c.fld 8 10 22 = 0 → c.zeroFrom 0xC = true → p = c.fld 8 0 8 →
    k = c.fld 8 8 2 → k = 1 ∨ k = 2 → s.cycOwner c p = true →
    ∃ v t, v = ((s.ownerReset (BitVec.ofNat 8 p) 0).ownerReset (BitVec.ofNat 8 p) 2).raise 488 [BitVec.ofNat 32 (p + 256 * k)] ∧
      exec .cycRestart s = .next t ∧ t = (v.ctlStart p k).cycOpen.finish 0x13 c ⟨0x00, 0, []⟩) ∧
  (∀ (c : Cmd) (s : State), inHand 0x13 0x10 c s → c.headerOk = true → c.fld 8 10 22 = 0 → c.zeroFrom 0xC = true →
    c.fld 8 8 2 = 1 ∨ c.fld 8 8 2 = 2 → s.cycOwner c (c.fld 8 0 8) = false →
    ∃ t, exec .cycRestart s = .next t ∧ t = s.finish 0x13 c ⟨0x21, 0, []⟩) ∧
  (∀ (c : Cmd) (s : State), inHand 0x13 0x10 c s → c.headerOk = false ∨ c.fld 8 10 22 ≠ 0 ∨ c.zeroFrom 0xC = false ∨ c.fld 8 8 2 = 0 ∨ c.fld 8 8 2 = 3 →
    ∃ t, exec .cycRestart s = .next t ∧ t = s.finish 0x13 c ⟨0x20, 0, []⟩) ∧
  (∀ (c : Cmd) (s : State), inHand 0x13 0x11 c s → c.headerOk = false ∨ c.fld 8 8 24 ≠ 0 ∨ c.zeroFrom 0xC = false →
    ∃ t, exec .cycStop s = .next t ∧ t = s.finish 0x13 c ⟨0x20, 0, []⟩) ∧
  (∀ (c : Cmd) (p : Nat) (s : State), inHand 0x13 0x11 c s → c.headerOk = true → c.fld 8 8 24 = 0 → c.zeroFrom 0xC = true → p = c.fld 8 0 8 →
    s.cycOwner c p = true →
    ∃ t, exec .cycStop s = .next t ∧ t = (if s.ctl p = 2 then (s.ctlStop p false).idleCheck else s).finish 0x13 c ⟨0x00, 0, []⟩) ∧
  (∀ (c : Cmd) (p : Nat) (s : State), inHand 0x13 0x11 c s → c.headerOk = true → c.fld 8 8 24 = 0 → c.zeroFrom 0xC = true → p = c.fld 8 0 8 →
    s.cycOwner c p = false →
    ∃ t, exec .cycStop s = .next t ∧ t = s.finish 0x13 c ⟨0x21, 0, []⟩) ∧
  (∀ (c : Cmd) (k dir bit width ofs : Nat) (s : State), inHand 0x13 0x12 c s → c.headerOk = true → k = c.fld 8 0 6 → dir = c.fld 8 6 1 → c.fld 8 7 1 = 0 →
    bit = c.fld 8 8 6 → width = c.fld 8 14 6 → ofs = c.fld 0xC 0 17 → c.fld 8 20 12 = 0 → c.fld 0xC 17 15 = 0 → c.zeroFrom 0x18 = true → s.taskEn k = true →
    s.cycOwner c (s.taskPart k) = true → ofs % 8 = 0 → ofs + 8 ≤ (if dir = 0 then s.inLen k else s.outLen k) → bit + width + 1 ≤ 64 →
    (dir = 0 → s.taskErr k = false) → s.rd F.CYC_FORCES_COUNT = 0 → (∀ f ∈ List.range 1024, s.rd (F.CYC_FORCE0_EN f) = 0) →
    0 < s.rd (F.CYC_PART_FORCE_MAX (s.taskPart k)) → s.rd F.SIG_FORCES_FORCES = 0 →
    ∃ v t, v = ((((((s.setReg (Reg.CYC_FORCE0 0) (BitVec.ofNat 32 (ofs + 2 ^ 17 * bit + 2 ^ 23 * width + 2 ^ 29 * dir + 2 ^ 31))).setReg (Reg.CYC_FORCE1 0)
        (BitVec.ofNat 32 (k + 256 * s.taskPart k))).setReg (Reg.CYC_FORCE2 0) (BitVec.ofNat 32 (c.word 0x10))).setReg (Reg.CYC_FORCE3 0)
        (BitVec.ofNat 32 (c.word 0x14))).wr F.CYC_FORCES_COUNT 1).wr F.CYC_STAT_FORCE 1).raise 491 [(s.wr F.CYC_FORCES_COUNT 1).reg Reg.CYC_FORCES, s.reg Reg.SIG_FORCES] ∧
      v.rd (F.CYC_FORCE0_EN 0) = 1 ∧ v.rd (F.CYC_FORCE0_OFS 0) = ofs ∧ v.rd (F.CYC_FORCE0_BIT 0) = bit ∧ v.rd (F.CYC_FORCE0_WIDTH 0) = width ∧
      v.rd (F.CYC_FORCE0_DIR 0) = dir ∧ v.rd (F.CYC_FORCE1_TASK 0) = k ∧ v.rd F.CYC_STAT_FORCE = 1 ∧
      exec .cycForce s = .next t ∧ t = v.finish 0x13 c ⟨0x00, 0, [0]⟩) ∧
  (∀ (c : Cmd) (k f : Nat) (s : State), inHand 0x13 0x12 c s → c.headerOk = true → k = c.fld 8 0 6 → c.fld 8 7 1 = 1 →
    c.fld 8 20 12 = 0 → c.fld 0xC 17 15 = 0 → c.zeroFrom 0x18 = true → s.taskEn k = true → s.cycOwner c (s.taskPart k) = true → c.fld 0xC 0 17 % 8 = 0 →
    c.fld 0xC 0 17 + 8 ≤ (if c.fld 8 6 1 = 0 then s.inLen k else s.outLen k) → c.fld 8 8 6 + c.fld 8 14 6 + 1 ≤ 64 → (c.fld 8 6 1 = 0 → s.taskErr k = false) →
    s.forceFind k (c.fld 8 6 1) (c.fld 0xC 0 17) (c.fld 8 8 6) = some f →
    ∃ v t, v = (((s.setReg (Reg.CYC_FORCE0 f) 0).setReg (Reg.CYC_FORCE1 f) 0).setReg (Reg.CYC_FORCE2 f) 0).setReg (Reg.CYC_FORCE3 f) 0 ∧
      v.rd (F.CYC_FORCE0_EN f) = 0 ∧ exec .cycForce s = .next t ∧ t = v.forceCount.finish 0x13 c ⟨0x00, 0, [BitVec.ofNat 32 f]⟩) ∧
  (∀ (c : Cmd) (k dir bit ofs f : Nat) (s : State), inHand 0x13 0x12 c s → c.headerOk = true → k = c.fld 8 0 6 → dir = c.fld 8 6 1 →
    bit = c.fld 8 8 6 → ofs = c.fld 0xC 0 17 → c.fld 8 20 12 = 0 → c.fld 0xC 17 15 = 0 → c.zeroFrom 0x18 = true → s.taskEn k = true →
    s.cycOwner c (s.taskPart k) = true → ofs % 8 = 0 → ofs + 8 ≤ (if dir = 0 then s.inLen k else s.outLen k) → bit + c.fld 8 14 6 + 1 ≤ 64 →
    (dir = 0 → s.taskErr k = false) → c.fld 8 7 1 = 0 → s.forceFind k dir ofs bit = some f →
    ∃ v t, v = ((s.wr (F.CYC_FORCE0_WIDTH f) (c.fld 8 14 6)).setReg (Reg.CYC_FORCE2 f) (BitVec.ofNat 32 (c.word 0x10))).setReg (Reg.CYC_FORCE3 f)
        (BitVec.ofNat 32 (c.word 0x14)) ∧ exec .cycForce s = .next t ∧ t = v.finish 0x13 c ⟨0x00, 0, [BitVec.ofNat 32 f]⟩) ∧
  (∀ (c : Cmd) (k dir bit ofs f : Nat) (s : State), inHand 0x13 0x12 c s → c.headerOk = true → k = c.fld 8 0 6 → dir = c.fld 8 6 1 →
    bit = c.fld 8 8 6 → ofs = c.fld 0xC 0 17 → c.fld 8 20 12 = 0 → c.fld 0xC 17 15 = 0 → c.zeroFrom 0x18 = true → s.taskEn k = true →
    s.cycOwner c (s.taskPart k) = true → ofs % 8 = 0 → ofs + 8 ≤ (if dir = 0 then s.inLen k else s.outLen k) → bit + c.fld 8 14 6 + 1 ≤ 64 →
    (dir = 0 → s.taskErr k = false) → c.fld 8 7 1 = 0 → s.forceFind k dir ofs bit = none →
    (List.range 1024).find? (fun f => !s.on (F.CYC_FORCE0_EN f)) = some f →
    ((List.range 1024).filter (fun x => s.on (F.CYC_FORCE0_EN x) && s.rd (F.CYC_FORCE1_PART x) == s.taskPart k)).length < s.rd (F.CYC_PART_FORCE_MAX (s.taskPart k)) →
    ∃ v t, v = (((s.setReg (Reg.CYC_FORCE0 f) (BitVec.ofNat 32 (ofs + 2 ^ 17 * bit + 2 ^ 23 * c.fld 8 14 6 + 2 ^ 29 * dir + 2 ^ 31))).setReg (Reg.CYC_FORCE1 f)
        (BitVec.ofNat 32 (k + 256 * s.taskPart k))).setReg (Reg.CYC_FORCE2 f) (BitVec.ofNat 32 (c.word 0x10))).setReg (Reg.CYC_FORCE3 f)
        (BitVec.ofNat 32 (c.word 0x14)) ∧ exec .cycForce s = .next t ∧ t = v.forceCount.finish 0x13 c ⟨0x00, 0, [BitVec.ofNat 32 f]⟩) ∧
  (∀ (c : Cmd) (k dir bit ofs : Nat) (s : State), inHand 0x13 0x12 c s → c.headerOk = true → k = c.fld 8 0 6 → dir = c.fld 8 6 1 →
    bit = c.fld 8 8 6 → ofs = c.fld 0xC 0 17 → c.fld 8 20 12 = 0 → c.fld 0xC 17 15 = 0 → c.zeroFrom 0x18 = true → s.taskEn k = true →
    s.cycOwner c (s.taskPart k) = true → ofs % 8 = 0 → ofs + 8 ≤ (if dir = 0 then s.inLen k else s.outLen k) → bit + c.fld 8 14 6 + 1 ≤ 64 →
    (dir = 0 → s.taskErr k = false) → c.fld 8 7 1 = 0 → s.forceFind k dir ofs bit = none →
    (List.range 1024).find? (fun f => !s.on (F.CYC_FORCE0_EN f)) = none ∨
      s.rd (F.CYC_PART_FORCE_MAX (s.taskPart k)) ≤
        ((List.range 1024).filter (fun x => s.on (F.CYC_FORCE0_EN x) && s.rd (F.CYC_FORCE1_PART x) == s.taskPart k)).length →
    ∃ t, exec .cycForce s = .next t ∧ t = s.finish 0x13 c ⟨0x22, 0, []⟩) ∧
  (∀ (c : Cmd) (k dir bit ofs : Nat) (s : State), inHand 0x13 0x12 c s → c.headerOk = true → k = c.fld 8 0 6 → dir = c.fld 8 6 1 →
    bit = c.fld 8 8 6 → ofs = c.fld 0xC 0 17 → c.fld 8 20 12 = 0 → c.fld 0xC 17 15 = 0 → c.zeroFrom 0x18 = true → s.taskEn k = true →
    s.cycOwner c (s.taskPart k) = true → ofs % 8 = 0 → ofs + 8 ≤ (if dir = 0 then s.inLen k else s.outLen k) → bit + c.fld 8 14 6 + 1 ≤ 64 →
    (dir = 0 → s.taskErr k = false) → c.fld 8 7 1 = 1 → s.forceFind k dir ofs bit = none →
    ∃ t, exec .cycForce s = .next t ∧ t = s.finish 0x13 c ⟨0x20, 0, []⟩) ∧
  (∀ (c : Cmd) (k : Nat) (bad : Bool) (s : State), inHand 0x13 0x12 c s → k = c.fld 8 0 6 →
    bad = (!c.headerOk || c.fld 8 20 12 != 0 || c.fld 0xC 17 15 != 0 || !c.zeroFrom 0x18 || !s.taskEn k) →
    bad = true ∨ s.cycOwner c (s.taskPart k) = false ∨ c.fld 0xC 0 17 % 8 ≠ 0 ∨
      (if c.fld 8 6 1 = 0 then s.inLen k else s.outLen k) < c.fld 0xC 0 17 + 8 ∨ 64 < c.fld 8 8 6 + c.fld 8 14 6 + 1 ∨ (c.fld 8 6 1 = 0 ∧ s.taskErr k = true) →
    ∃ t, exec .cycForce s = .next t ∧ t = s.finish 0x13 c ⟨if bad = false ∧ s.cycOwner c (s.taskPart k) = false then 0x21 else 0x20, 0, []⟩) ∧
  (∀ (c : Cmd) (p a : Nat) (s : State), inHand 0x13 0x13 c s → c.headerOk = true → c.fld 8 8 24 = 0 → c.word 0xC = 0 → c.fld 0x14 8 24 = 0 →
    c.zeroFrom 0x18 = true → p = c.fld 8 0 8 → a = c.addr 0x10 → a % 64 = 0 → s.cycOwner c p = true → s.engineMayWrite a 1024 = true → s.ecc = [] →
    s.pairOn = false →
    ∃ v t, v = (s.dropResv a 1024).setBytes a ((List.range 64).flatMap (s.taskStatus p)) ∧ sameMemBut a 1024 s v ∧
      v.words a 4 = (if s.taskPart 0 = p then [s.reg (Reg.TASK_CTL 0), s.reg (Reg.TASK_STAT 0), s.reg (Reg.TASK_CYCLE 0), s.reg (Reg.TASK_TIME 0)] else [0, 0, 0, 0]) ∧
      exec .cycStatus s = .next t ∧ t = v.finish 0x13 c ⟨0x00, 0, [BitVec.ofNat 32 (s.ctl p)]⟩) ∧
  (∀ (c : Cmd) (p a : Nat) (s : State), inHand 0x13 0x13 c s → c.headerOk = true → c.fld 8 8 24 = 0 → c.word 0xC = 0 → c.fld 0x14 8 24 = 0 →
    c.zeroFrom 0x18 = true → p = c.fld 8 0 8 → a = c.addr 0x10 → a % 64 = 0 → s.cycOwner c p = true → s.engineMayWrite a 1024 = true →
    ∃ v t, v = s.busWrite a ((List.range 64).flatMap (s.taskStatus p)) (s.ctx c.ring).engine.toNat ∧
      exec .cycStatus s = .next t ∧ t = v.finish 0x13 c ⟨0x00, 0, [BitVec.ofNat 32 (s.ctl p)]⟩) ∧
  (∀ (c : Cmd) (bad : Bool) (s : State), inHand 0x13 0x13 c s →
    bad = (!c.headerOk || c.fld 8 8 24 != 0 || c.word 0xC != 0 || c.fld 0x14 8 24 != 0 || !c.zeroFrom 0x18 || c.addr 0x10 % 64 != 0) →
    bad = true ∨ s.cycOwner c (c.fld 8 0 8) = false ∨ s.engineMayWrite (c.addr 0x10) 1024 = false →
    ∃ t, exec .cycStatus s = .next t ∧ t = s.finish 0x13 c ⟨if bad = false ∧ s.cycOwner c (c.fld 8 0 8) = false then 0x21 else 0x20, 0, []⟩) ∧
  (∀ s : State, s.hand 0x13 = none ∨ s.running = false →
    ∃ t v w0, exec .cycRestart s = .next t ∧ exec .cycStop s = .next v ∧ exec .cycForce s = .next w0 ∧ t = s ∧ v = s ∧ w0 = s) ∧
  (∀ s : State, s.hand 0x13 = none ∨ s.running = false → ∃ t, exec .cycStatus s = .next t ∧ t = s) ∧
  (∀ (c : Cmd) (s : State), s.hand 0x13 = some c → s.cmdHeld c = true →
    ∃ t v w0, exec .cycRestart s = .next t ∧ exec .cycStop s = .next v ∧ exec .cycForce s = .next w0 ∧ t = s ∧ v = s ∧ w0 = s) ∧
  (∀ (r : Nat) (s : State), s.cyc.idleEnd = some r → s.rd F.CYC_STAT_IDLE = 1 → r ≤ s.raw →
    ∃ t, exec .idleWindowEnd s = .next t ∧ t.rd F.CYC_STAT_IDLE = 0 ∧ t = { s with regs := t.regs, cyc := { s.cyc with idleEnd := none } } ∧
      onlyFlds [F.CYC_STAT_IDLE] s t) ∧
  (∀ s : State, s.rd F.CYC_STAT_IDLE = 0 ∨ Option.all (fun r => decide (s.raw < r)) s.cyc.idleEnd = true → ∃ t, exec .idleWindowEnd s = .next t ∧ t = s)

/-- Barrier frames (R409 to R415, R541): frames start on Held and on Running links, end at islands of each type, an uplink frame ends and
moves its link, frames are lost, and an island that hears nothing takes its safe state. A clause that ends in t = s (an event before its
instant or without its condition changes nothing) is the model's choice, notes/assumptions/2.md. Where the clauses meet what
notes/assumptions/59.md, notes/assumptions/60.md, notes/assumptions/90.md, notes/assumptions/92.md record, they say the model's choice. -/
def Obligations.FieldFrames : Prop :=
  (∀ (tests : List IslandId) (s : State), s.tb.locked = true → s.raw % 4000 = 0 → s.raw ≠ s.fld.frameRaw → s.fld.align = none →
    s.fld.alignAt = none → s.fld.offp = none → (∀ i ∈ List.range 58, s.link i = 0 ∨ s.link i = 1) → s.link 0 = 1 →
    ∃ t, exec (.fldDownlinkFrame tests) s = .next t ∧ t.fld.frameRaw = s.raw ∧ t.fld.seq = (s.fld.seq + 1) % 16 ∧
      (∀ i ∈ allIslands, (t.isl i).down =
        if s.link i = 1 then some (⟨.safe, false, 0, (s.fld.seq + 1) % 16, s.downPayload i false .safe⟩ : DownFrame) else (s.isl i).down) ∧
      t = { s with fld := { s.fld with frameRaw := s.raw, seq := t.fld.seq, islands := t.fld.islands } }) ∧
  (∀ (i : Nat) (s : State), s.tb.locked = true → s.raw % 4000 = 0 → s.raw ≠ s.fld.frameRaw → s.fld.align = none → s.fld.alignAt = none →
    s.fld.offp = none → i < 58 → s.link i = 3 → (∀ k ∈ List.range 58, k ≠ i → s.link k = 0) → (s.isl i).rearmMask = 0 → (s.isl i).rearmGroup = false →
    s.funcChange i = none →
    ∃ t, exec (.fldDownlinkFrame []) s = .next t ∧
      t.isl i = { s.isl i with
        sinceTest := min ((s.isl i).sinceTest + 1) 16, fresh := false, outEnd := some ((s.isl i).outEnd.getD (s.raw + 3840)),
        rearmed := if (s.isl i).fresh then rearmBits (s.isl i).out else (s.isl i).rearmed,
        rearmMask := if isDio i && (s.isl i).fresh then rearmEdges (s.isl i).out (s.isl i).rearmed else 0,
        down := some (⟨.output (s.outSets s.safGated i), false, 0, (s.fld.seq + 1) % 16, s.downPayload i false (.output (s.outSets s.safGated i))⟩ : DownFrame) } ∧
      t = { s with fld := { s.fld with frameRaw := s.raw, seq := (s.fld.seq + 1) % 16, islands := t.fld.islands } }) ∧
  (∀ (tests : List IslandId) (s : State), s.tb.locked = true → s.raw % 4000 = 0 → s.raw ≠ s.fld.frameRaw → (List.range 58).any (fun i => s.link i != 0) = true →
    ∃ t, exec (.fldDownlinkFrame tests) s = .next t ∧ t.fld.frameRaw = s.raw ∧ t.fld.seq = (s.fld.seq + 1) % 16 ∧
      t = s.framesStart (tests.map (fun i : IslandId => i.val))) ∧
  (∀ (tests : List IslandId) (s : State), s.tb.locked = false ∨ s.raw % 4000 ≠ 0 ∨ s.raw = s.fld.frameRaw ∨ (List.range 58).any (fun i => s.link i != 0) = false →
    ∃ t, exec (.fldDownlinkFrame tests) s = .next t ∧ t = s) ∧
  (∀ (i : Nat) (gated : List Nat) (al test : Bool) (w0 : State) (s : State), w0 = s.setIsl i { s.isl i with
        sinceTest := min ((s.isl i).sinceTest + 1) 16 } → s.link i = 2 → (s.isl i).cfgSent < 4 →
    s.frameStart gated al test i = (w0.setIsl i { w0.isl i with
        cfgSent := (s.isl i).cfgSent + 1 }).downSend i .load (al && isAi i && s.islEn i) 0) ∧
  (∀ (i : Nat) (gated : List Nat) (al test : Bool) (w0 : State) (s : State), w0 = (s.setIsl i { s.isl i with
        sinceTest := min ((s.isl i).sinceTest + 1) 16 }).linkFault i false → s.link i = 2 → 4 ≤ (s.isl i).cfgSent → i < 58 →
    s.frameStart gated al test i = w0.downSend i .safe (al && isAi i && s.islEn i) 0) ∧
  (∀ (i : Nat) (gated : List Nat) (al : Bool) (w0 : State) (s : State), w0 = s.setIsl i { s.isl i with
        sinceTest := min ((s.isl i).sinceTest + 1) 16 } → s.link i = 3 → w0.idleFrame i = true → w0.testWork i = true →
    s.frameStart gated al true i = (w0.testSent i (s.isl i).testStep).downSend i (.test (s.isl i).testStep) (al && isAi i && s.islEn i) 0) ∧
  (∀ (i : Nat) (f : DownFrame) (s : State), (s.isl i).down = some f →
    (s.upStart i).isl i = { s.isl i with
      ack := false,
      up := some (⟨(s.isl i).upType f.kind.isTest, decide (3 ≤ (s.isl i).downOk), s.fld.seq,
        upPayload i (s.islRecord i (s.busyMask i) s.raw) s.fld.seq ((s.isl i).upType f.kind.isTest), s.raw, BitVec.ofNat 64 s.ntNs⟩ : UpFrame) } ∧
      onlyIsl i s (s.upStart i)) ∧
  (∀ (f : DownFrame) (u : UpFrame), f.data.length = 20 → u.data.length = 20 →
    frameValid 0xD5 f.bytes = true ∧ frameValid 0x2B u.bytes = true ∧ (DownFrame.bytes f).length = 24 ∧ (UpFrame.bytes u).length = 24 ∧
      (UpFrame.bytes u).getD 1 0 = BitVec.ofNat 8 (64 * u.ty + 4 * u.seq + 2 * b2n u.rxOk) ∧ ((UpFrame.bytes u).drop 2).take 20 = u.data) ∧
  (∀ (i : IslandId) (done : Bool) (f : DownFrame) (s : State), (s.isl i.val).down = some f → f.kind = DownKind.safe → f.align = false →
    s.fld.frameRaw + 3840 ≤ s.raw → i.val < 16 →
    ∃ t, exec (.islandFrameApply i done) s = .next t ∧ onlyIsl i.val s t ∧
      t.isl i.val = { s.isl i.val with
        down := none, downOk := min 3 ((s.isl i.val).downOk + 1), lastDown := s.fld.frameRaw + 3840, safe := true, ready := false }) ∧
  (∀ (i : IslandId) (done : Bool) (g : Nat) (f : DownFrame) (sets : List Nat) (s : State), (s.isl i.val).down = some f → f.kind = DownKind.output sets →
    f.align = false → s.fld.frameRaw + 3840 ≤ s.raw → i.val = 16 + g → g < 8 → (s.isl i.val).ready = true → s.funcChange i.val = none →
    ∃ t, exec (.islandFrameApply i done) s = .next t ∧ (∀ j < 16, (t.dio g j).set = sets.getD j 0) ∧
      t.isl i.val = { s.isl i.val with
        down := none, downOk := min 3 ((s.isl i.val).downOk + 1), lastDown := s.fld.frameRaw + 3840, safe := false } ∧
      t = { s with fld := { s.fld with islands := t.fld.islands, dios := t.fld.dios } }) ∧
  (∀ (i : IslandId) (done : Bool) (g m : Nat) (grp : Bool) (f : DownFrame) (s : State), (s.isl i.val).down = some f → f.kind = DownKind.rearm m grp →
    s.fld.frameRaw + 3840 ≤ s.raw → f.align = false → i.val = 16 + g → g < 8 → grp = false ∨ (s.isl i.val).grpTrip = false →
    ∃ t, exec (.islandFrameApply i done) s = .next t ∧
      (∀ j < 16, t.dio g j = if bits m j 1 = 1 then (s.dio g j).rearm s.raw else s.dio g j) ∧
      t.isl i.val = { s.isl i.val with
        down := none, downOk := min 3 ((s.isl i.val).downOk + 1), lastDown := s.fld.frameRaw + 3840 } ∧
      t = { s with fld := { s.fld with islands := t.fld.islands, dios := t.fld.dios } }) ∧
  (∀ (i : IslandId) (done : Bool) (f : DownFrame) (s : State), (s.isl i.val).down = some f → f.kind = DownKind.load → f.align = false →
    s.fld.frameRaw + 3840 ≤ s.raw → i.val < 16 →
    ∃ t, exec (.islandFrameApply i done) s = .next t ∧ onlyIsl i.val s t ∧
      t.isl i.val = { s.isl i.val with
        down := none, downOk := min 3 ((s.isl i.val).downOk + 1), lastDown := s.fld.frameRaw + 3840,
        conf := if done then true else (s.isl i.val).conf, ready := if done then true else (s.isl i.val).ready, ack := if done then true else (s.isl i.val).ack }) ∧
  (∀ (i : IslandId) (done : Bool) (f : DownFrame) (s : State), (s.isl i.val).down = some f → f.align = false → s.fld.frameRaw + 3840 ≤ s.raw →
    ∃ v t, v = s.setIsl i.val { s.isl i.val with
        down := none, downOk := min 3 ((s.isl i.val).downOk + 1), lastDown := s.fld.frameRaw + 3840 } ∧ exec (.islandFrameApply i done) s = .next t ∧
      t = (match f.kind with
        | .output sets => v.applyOutput i.val f.stage sets
        | .load => if done then v.applyLoad i.val (s.fld.frameRaw + 3840) else v
        | .change ch p q => v.applyChange i.val (s.fld.frameRaw + 3840) ch false p q
        | .rearm m g => if isDio i.val then v.applyRearm (i.val - 16) m g else v
        | .safe => v.islandSafe i.val
        | .test _ => v)) ∧
  (∀ (i : IslandId) (done : Bool) (f : DownFrame) (s : State), (s.isl i.val).down = some f → f.align = true → s.fld.frameRaw + 3840 ≤ s.raw →
    ∃ v t, v = s.frameEnd i.val (s.fld.frameRaw + 3840) f done ∧ exec (.islandFrameApply i done) s = .next t ∧ t = v.alignDone) ∧
  (∀ (i : IslandId) (done : Bool) (s : State), (s.isl i.val).down = none ∨ s.raw < s.fld.frameRaw + 3840 →
    ∃ t, exec (.islandFrameApply i done) s = .next t ∧ t = s) ∧
  (∀ (i : IslandId) (done : Bool) (f : DownFrame) (sets : List Nat) (s : State), (s.isl i.val).down = some f → f.kind = DownKind.output sets →
    f.align = false → s.fld.frameRaw + 3840 ≤ s.raw → (s.isl i.val).ready = false →
    ∃ t, exec (.islandFrameApply i done) s = .next t ∧ onlyIsl i.val s t ∧ t.isl i.val = { s.isl i.val with
        down := none, downOk := min 3 ((s.isl i.val).downOk + 1), lastDown := s.fld.frameRaw + 3840 }) ∧
  (∀ (i : IslandId) (done : Bool) (f : DownFrame) (d : Cmd) (sets : List Nat) (s : State), (s.isl i.val).down = some f → f.kind = DownKind.output sets →
    f.align = false → s.fld.frameRaw + 3840 ≤ s.raw → (s.isl i.val).ready = true → isDio i.val = true → s.funcChange i.val = some d → d.stage = 1 → f.stage = 1 →
    ∃ v w0 t, v = s.setIsl i.val { s.isl i.val with
        down := none, downOk := min 3 ((s.isl i.val).downOk + 1), lastDown := s.fld.frameRaw + 3840 } ∧
      w0 = State.applySets (v.setIsl i.val { v.isl i.val with
        safe := false }) (i.val - 16) sets ∧ exec (.islandFrameApply i done) s = .next t ∧
      t = (w0.setOut { d with aux := [2] }).dioStop (i.val - 16) d.chan) ∧
  (∀ (i : IslandId) (done : Bool) (f : DownFrame) (d : Cmd) (ch : Nat) (p q : Word) (s : State), (s.isl i.val).down = some f → f.kind = DownKind.change ch p q →
    f.align = false → s.fld.frameRaw + 3840 ≤ s.raw → isDio i.val = true → s.funcChange i.val = some d → d.stage = 2 →
    ∃ v w0 t, v = s.setIsl i.val { s.isl i.val with
        down := none, downOk := min 3 ((s.isl i.val).downOk + 1), lastDown := s.fld.frameRaw + 3840 } ∧
      w0 = (((v.setOut { d with aux := [3] }).dioStop (i.val - 16) ch).setReg (Reg.FLD_DIO (i.val - 16) ch) p).setReg (Reg.FLD_DIO1 (i.val - 16) ch) q ∧
      exec (.islandFrameApply i done) s = .next t ∧
      t = (if w0.dioFunc (i.val - 16) ch = 1 then w0.pwmStart (i.val - 16) ch (s.fld.frameRaw + 3840) else w0)) ∧
  (∀ (i : IslandId) (done : Bool) (f : DownFrame) (d : Cmd) (sets : List Nat) (s : State), (s.isl i.val).down = some f → f.kind = DownKind.output sets →
    f.align = false → s.fld.frameRaw + 3840 ≤ s.raw → (s.isl i.val).ready = true → isDio i.val = true → s.funcChange i.val = some d → d.stage = 3 → f.stage = 3 →
    ∃ v w0 t, v = s.setIsl i.val { s.isl i.val with
        down := none, downOk := min 3 ((s.isl i.val).downOk + 1), lastDown := s.fld.frameRaw + 3840 } ∧
      w0 = State.applySets (v.setIsl i.val { v.isl i.val with
        safe := false }) (i.val - 16) sets ∧ exec (.islandFrameApply i done) s = .next t ∧
      t = w0.endLong d ⟨0x00, 0, [s.reg (Reg.FLD_DIO (i.val - 16) d.chan)]⟩) ∧
  (∀ (i : IslandId) (pass : Bool) (u : UpFrame) (s : State), (s.isl i.val).up = some u → u.raw + 3840 ≤ s.raw → u.ty = 0 → s.fld.offp = none →
    i.val < 16 → (∀ n ∈ List.range 32, s.rd (F.SAF_BCTL_EN n) = 0) → s.link i.val = 3 →
    ∃ t, exec (.fldUplinkFrame i pass) s = .next t ∧ onlyIsl i.val s t ∧
      t.isl i.val = { s.isl i.val with
        held := heldAfter i.val (s.isl i.val).held u.data u.seq 0, heldRaw := u.raw, heldNt := u.nt, heldSafe := false, up := none, upLost := 0,
        upOk := if u.rxOk then min 3 ((s.isl i.val).upOk + 1) else 0 }) ∧
  (∀ (i : IslandId) (pass : Bool) (u : UpFrame) (s : State), (s.isl i.val).up = some u → u.raw + 3840 ≤ s.raw → u.ty = 1 → s.fld.offp = none →
    56 ≤ i.val → s.link i.val = 2 →
    ∃ t, exec (.fldUplinkFrame i pass) s = .next t ∧ t.link i.val = 3 ∧ (t.isl i.val).outEnd = none ∧ (t.isl i.val).fresh = true ∧
      t = { s with regs := t.regs, fld := { s.fld with islands := t.fld.islands } } ∧ onlyFlds [F.FLD_LNK_STATE i.val, fltBit i.val] s t) ∧
  (∀ (i : IslandId) (pass : Bool) (u : UpFrame) (s : State), (s.isl i.val).up = some u → u.raw + 3840 ≤ s.raw → u.ty = 0 → u.rxOk = true →
    s.fld.offp = none → 56 ≤ i.val → s.link i.val = 1 → (s.isl i.val).go = true → s.islEn i.val = true → 2 ≤ (s.isl i.val).upOk →
    ∃ t, exec (.fldUplinkFrame i pass) s = .next t ∧ t.link i.val = 2 ∧ (t.isl i.val).cfgSent = 0 ∧ (t.isl i.val).ack = false ∧
      t = { s with regs := t.regs, fld := { s.fld with islands := t.fld.islands } } ∧ onlyFlds [F.FLD_LNK_STATE i.val, fltBit i.val] s t) ∧
  (∀ (i : IslandId) (pass : Bool) (u : UpFrame) (s : State), (s.isl i.val).up = some u → u.raw + 3840 ≤ s.raw → u.ty = 0 → u.rxOk = true →
    s.fld.offp = none → 56 ≤ i.val → s.link i.val = 4 → 2 ≤ (s.isl i.val).upOk → s.rd (F.FLD_ISL_MANUAL i.val) = 0 →
    ∃ t, exec (.fldUplinkFrame i pass) s = .next t ∧ t.link i.val = 2 ∧ t.rd (fltBit i.val) = 0 ∧ (t.isl i.val).cfgSent = 0 ∧
      raised [(256 + i.val, [BitVec.ofNat 32 (256 * s.rd (F.FLD_LNK_FAULTS i.val))])] s t ∧
      t = { s with regs := t.regs, evt := t.evt, fld := { s.fld with islands := t.fld.islands } } ∧ onlyFlds [F.FLD_LNK_STATE i.val, fltBit i.val] s t) ∧
  (∀ (i : IslandId) (pass : Bool) (u : UpFrame) (s : State), (s.isl i.val).up = some u → u.raw + 3840 ≤ s.raw → u.ty = 0 → u.rxOk = true →
    s.fld.offp = none → 56 ≤ i.val → s.link i.val = 4 → 2 ≤ (s.isl i.val).upOk → s.rd (F.FLD_ISL_MANUAL i.val) = 1 →
    ∃ t, exec (.fldUplinkFrame i pass) s = .next t ∧ t.link i.val = 1 ∧ t.rd (fltBit i.val) = 0 ∧ (t.isl i.val).go = false ∧
      raised [(256 + i.val, [BitVec.ofNat 32 (256 * s.rd (F.FLD_LNK_FAULTS i.val))])] s t) ∧
  (∀ (i : IslandId) (pass : Bool) (u : UpFrame) (s : State), (s.isl i.val).up = some u → u.raw + 3840 ≤ s.raw → u.ty ≠ 3 ∨ pass = true →
    ∃ v t, v = s.heldUpdate i.val u ∧ exec (.fldUplinkFrame i pass) s = .next t ∧
      t = ((v.safSample i.val (v.isl i.val).held u.raw).offPulseSee i.val u).linkHeard i.val u.ty u.raw) ∧
  (∀ (i : IslandId) (u : UpFrame) (s : State), (s.isl i.val).up = some u → u.raw + 3840 ≤ s.raw → u.ty = 3 → s.fld.offp = none → 56 ≤ i.val →
    s.link i.val = 3 → (s.isl i.val).outEnd = none →
    ∃ v t, v = (s.heldUpdate i.val u).recNoteWrite 0x06 ([BitVec.ofNat 32 i.val, BitVec.ofNat 32 (((s.isl i.val).testStep + 3) % 4)] ++ testResponse i.val u.data) ∧
      exec (.fldUplinkFrame i false) s = .next t ∧
      t = (v.wr ⟨Reg.IST_ISLFAIL_HI, i.val - 32, 1⟩ 1).raise 460 [BitVec.ofNat 32 (i.val + 256 * (((s.isl i.val).testStep + 3) % 4))]) ∧
  (∀ (i : IslandId) (pass : Bool) (s : State), Option.all (fun u : UpFrame => decide (s.raw < u.raw + 3840)) (s.isl i.val).up = true →
    ∃ t, exec (.fldUplinkFrame i pass) s = .next t ∧ t = s) ∧
  (∀ (i : IslandId) (arrived : Option (List Byte)) (u : UpFrame) (s : State), arrived.any (frameValid 0x2B) = false → (s.isl i.val).up = some u →
    u.raw + 3840 ≤ s.raw → (s.isl i.val).upLost < 2 →
    ∃ t, exec (.fldFrameLost i true arrived) s = .next t ∧ t.isl i.val = { s.isl i.val with
        up := none, upOk := 0, upLost := (s.isl i.val).upLost + 1 } ∧
      (if arrived.any (fun f : List Byte => f.length == 24 && f.headD 0 == 0x2B#8 && !frameChecks f) then counted (F.FLD_LNK_CRC_ERR i.val) s t else t.regs = s.regs) ∧
      t = { s with regs := t.regs, fld := { s.fld with islands := t.fld.islands } } ∧ onlyFlds [F.FLD_LNK_CRC_ERR i.val] s t) ∧
  (∀ (i : IslandId) (arrived : Option (List Byte)) (u : UpFrame) (s : State), arrived.any (frameValid 0x2B) = false → (s.isl i.val).up = some u →
    u.raw + 3840 ≤ s.raw → 2 ≤ (s.isl i.val).upLost → s.link i.val = 2 ∨ s.link i.val = 3 → s.rings.out = [] → s.fld.offp = none → 56 ≤ i.val →
    ∃ t, exec (.fldFrameLost i true arrived) s = .next t ∧ t.link i.val = 4 ∧ t.rd (fltBit i.val) = 1 ∧ counted (F.FLD_LNK_FAULTS i.val) s t ∧
      raised [(256 + i.val, [BitVec.ofNat 32 (1 + 256 * t.rd (F.FLD_LNK_FAULTS i.val))])] s t ∧ (t.isl i.val).upOk = 0 ∧
      t = { s with regs := t.regs, evt := t.evt, fld := { s.fld with islands := t.fld.islands } } ∧
      onlyFlds [F.FLD_LNK_STATE i.val, fltBit i.val, F.FLD_LNK_FAULTS i.val, F.FLD_LNK_CRC_ERR i.val] s t) ∧
  (∀ (i : IslandId) (arrived : Option (List Byte)) (f : DownFrame) (s : State), arrived.any (frameValid 0xD5) = false → (s.isl i.val).down = some f →
    s.fld.frameRaw + 3840 ≤ s.raw →
    ∃ t, exec (.fldFrameLost i false arrived) s = .next t ∧ t.isl i.val = { s.isl i.val with
        down := none, downOk := 0 } ∧
      (if arrived.any (fun f : List Byte => f.length == 24 && f.headD 0 == 0xD5#8 && !frameChecks f) then counted (F.FLD_LNK_CRC_ERR i.val) s t else t.regs = s.regs) ∧
      t = { s with regs := t.regs, fld := { s.fld with islands := t.fld.islands } } ∧ onlyFlds [F.FLD_LNK_CRC_ERR i.val] s t) ∧
  (∀ (i : IslandId) (up : Bool) (arrived : Option (List Byte)) (s : State), arrived.any (frameValid (if up then 0x2B else 0xD5)) = true ∨
      (if up then (s.isl i.val).up.isNone else (s.isl i.val).down.isNone) = true →
    ∃ t, exec (.fldFrameLost i up arrived) s = .next t ∧ t = s) ∧
  (∀ (i : IslandId) (g : Nat) (s : State), s.islandsLive = true → (s.isl i.val).safe = false → (s.isl i.val).lastDown + 12000 ≤ s.raw → i.val = 16 + g →
    g < 8 →
    ∃ t, exec (.islandLinkLoss i) s = .next t ∧ t.isl i.val = { s.isl i.val with
        downOk := 0, safe := true, ready := false } ∧
      (∀ j < 16, t.dio g j = { (s.dio g j).put 0 s.raw with
        duty := 0, perDuty := 0, offFrom := s.dioOffAt g j, onSum := s.onTime g j } ∧ (t.dio g j).set = 0) ∧
      t = { s with fld := { s.fld with islands := t.fld.islands, dios := t.fld.dios } }) ∧
  (∀ (i : IslandId) (s : State), s.islandsLive = true → (s.isl i.val).safe = false → (s.isl i.val).lastDown + 12000 ≤ s.raw →
    ∃ v t, v = State.islandSafe (s.setIsl i.val { s.isl i.val with
        downOk := 0 }) i.val ∧ (v.isl i.val).safe = true ∧ (v.isl i.val).ready = false ∧ exec (.islandLinkLoss i) s = .next t ∧ t = v.fskSilent i.val) ∧
  (∀ (i : IslandId) (s : State), s.islandsLive = false ∨ (s.isl i.val).safe = true ∨ s.raw < (s.isl i.val).lastDown + 12000 →
    ∃ t, exec (.islandLinkLoss i) s = .next t ∧ t = s)

/-- The Field Engine's commands on islands (R430 to R432): FLD_WRITE to a Running and to another link, FLD_SET_FUNC, FLD_REARM, FLD_READ,
FLD_LINK_RESTART, and one command for an island of another partition. A clause that ends in t = s (an event before its instant or without
its condition changes nothing) is the model's choice, notes/assumptions/2.md. Where the clauses meet what notes/assumptions/63.md records,
they say the model's choice. -/
def Obligations.FieldCommands : Prop :=
  (∀ (c : Cmd) (i : Nat) (s : State), inHand 0x14 0x10 c s → c.headerOk = true → i = c.fld 8 0 6 → c.fld 8 6 26 = 0 → c.word 0xC = 0 →
    c.zeroFrom 0x30 = true → s.fldOwner c false = none → isDio i = true ∨ isAi i = true → recordOk i c.record = true → s.taskDrives i = false → s.link i = 3 →
    ∃ v t, v = s.setIsl i { s.isl i with out := wordBytes ((c.words.drop 4).take 8), fresh := true } ∧ exec .fldWrite s = .next t ∧
      t = v.finish 0x14 c ⟨0x00, 0, []⟩) ∧
  (∀ (c : Cmd) (i : Nat) (s : State), inHand 0x14 0x10 c s → c.headerOk = true → i = c.fld 8 0 6 → c.fld 8 6 26 = 0 → c.word 0xC = 0 →
    c.zeroFrom 0x30 = true → s.fldOwner c false = none → isDio i = true ∨ isAi i = true → recordOk i c.record = true → s.taskDrives i = false → s.link i ≠ 3 →
    ∃ t, exec .fldWrite s = .next t ∧ t = s.finish 0x14 c ⟨0x11, 0, []⟩) ∧
  (∀ (c : Cmd) (i : Nat) (s : State), inHand 0x14 0x10 c s → c.headerOk = true → i = c.fld 8 0 6 → c.fld 8 6 26 = 0 → c.word 0xC = 0 →
    c.zeroFrom 0x30 = true → s.islEn i = true → (s.ctx c.ring).mp = false → s.rd (F.FLD_ISL_PART i) ≠ (s.cmdPart c).toNat →
    ∃ t, exec .fldWrite s = .next t ∧ t = s.finish 0x14 c ⟨0x21, 0, []⟩) ∧
  (∀ (c : Cmd) (i : Nat) (f : Final) (s : State), inHand 0x14 0x10 c s → c.headerOk = true → i = c.fld 8 0 6 → c.fld 8 6 26 = 0 → c.word 0xC = 0 →
    c.zeroFrom 0x30 = true → s.fldOwner c false = some f →
    ∃ t, exec .fldWrite s = .next t ∧ t = s.finish 0x14 c f) ∧
  (∀ (c : Cmd) (s : State), s.islEn (c.fld 8 0 6) = false → s.fldOwner c false = some ⟨0x20, 0, []⟩ ∧ s.fldOwner c true = some ⟨0x20, 0, []⟩) ∧
  (∀ (c : Cmd) (i : Nat) (s : State), inHand 0x14 0x10 c s → c.headerOk = true → i = c.fld 8 0 6 → c.fld 8 6 26 = 0 → c.word 0xC = 0 →
    c.zeroFrom 0x30 = true → s.fldOwner c false = none →
    (isDio i = false ∧ isAi i = false) ∨ recordOk i c.record = false →
    ∃ t, exec .fldWrite s = .next t ∧ t = s.finish 0x14 c ⟨0x20, 0, []⟩) ∧
  (∀ (c : Cmd) (i : Nat) (s : State), inHand 0x14 0x10 c s → c.headerOk = true → i = c.fld 8 0 6 → c.fld 8 6 26 = 0 → c.word 0xC = 0 →
    c.zeroFrom 0x30 = true → s.fldOwner c false = none →
    isDio i = true ∨ isAi i = true → recordOk i c.record = true → s.taskDrives i = true →
    ∃ t, exec .fldWrite s = .next t ∧ t = s.finish 0x14 c ⟨0x20, 0x20, []⟩) ∧
  (∀ (c : Cmd) (s : State), inHand 0x14 0x10 c s → c.headerOk = false ∨ c.fld 8 6 26 ≠ 0 ∨ c.word 0xC ≠ 0 ∨ c.zeroFrom 0x30 = false →
    ∃ t, exec .fldWrite s = .next t ∧ t = s.finish 0x14 c ⟨0x20, 0, []⟩) ∧
  (∀ (c : Cmd) (f : Final) (s : State), inHand 0x14 0x11 c s → c.fin = some f → ∃ t, exec .fldSetFunc s = .next t ∧ t = s.finish 0x14 c f) ∧
  (∀ s : State, s.hand 0x14 = none ∨ s.running = false →
    ∃ t v w0, exec .fldWrite s = .next t ∧ exec .fldSetFunc s = .next v ∧ exec .fldRearm s = .next w0 ∧ t = s ∧ v = s ∧ w0 = s) ∧
  (∀ s : State, s.hand 0x14 = none ∨ s.running = false →
    ∃ t v, exec .fldRead s = .next t ∧ exec .fldLinkRestart s = .next v ∧ t = s ∧ v = s) ∧
  (∀ (c : Cmd) (i : Nat) (s : State), inHand 0x14 0x12 c s → i = c.fld 8 0 6 →
    c.headerOk = false ∨ c.fld 8 6 10 ≠ 0 ∨ c.fld 8 17 15 ≠ 0 ∨ c.fld 0xC 16 16 ≠ 0 ∨ c.zeroFrom 0x10 = false ∨ s.islEn i = false ∨
      (s.fldOwner c false = none ∧ isDio i = false) →
    ∃ t, exec .fldRearm s = .next t ∧ t = s.finish 0x14 c ⟨0x20, 0, []⟩) ∧
  (∀ (c : Cmd) (f : Final) (s : State), inHand 0x14 0x12 c s → c.headerOk = true → c.fld 8 6 10 = 0 → c.fld 8 17 15 = 0 →
    c.fld 0xC 16 16 = 0 → c.zeroFrom 0x10 = true → s.fldOwner c false = some f →
    ∃ t, exec .fldRearm s = .next t ∧ t = s.finish 0x14 c f) ∧
  (∀ (c : Cmd) (i a : Nat) (s : State), inHand 0x14 0x13 c s → c.headerOk = true → i = c.fld 8 0 6 → c.fld 8 6 26 = 0 → c.word 0xC = 0 →
    c.fld 0x14 8 24 = 0 → c.zeroFrom 0x18 = true → a = c.addr 0x10 → a % 32 = 0 → s.fldOwner c true = none → s.engineMayWrite a 32 = true →
    ∃ v t, v = s.busWrite a (s.islandIn i) (s.ctx c.ring).engine.toNat ∧ exec .fldRead s = .next t ∧ t = v.finish 0x14 c ⟨0x00, 0, []⟩) ∧
  (∀ (c : Cmd) (s : State), inHand 0x14 0x13 c s → c.headerOk = false ∨ c.fld 8 6 26 ≠ 0 ∨ c.word 0xC ≠ 0 ∨ c.fld 0x14 8 24 ≠ 0 ∨ c.zeroFrom 0x18 = false ∨
    c.addr 0x10 % 32 ≠ 0 ∨ s.islEn (c.fld 8 0 6) = false ∨ (s.fldOwner c true = none ∧ s.engineMayWrite (c.addr 0x10) 32 = false) →
    ∃ t, exec .fldRead s = .next t ∧ t = s.finish 0x14 c ⟨0x20, 0, []⟩) ∧
  (∀ (c : Cmd) (f : Final) (s : State), inHand 0x14 0x13 c s → c.headerOk = true → c.fld 8 6 26 = 0 → c.word 0xC = 0 → c.fld 0x14 8 24 = 0 →
    c.zeroFrom 0x18 = true → c.addr 0x10 % 32 = 0 → s.fldOwner c true = some f →
    ∃ t, exec .fldRead s = .next t ∧ t = s.finish 0x14 c f) ∧
  (∀ (c : Cmd) (i : Nat) (s : State), inHand 0x14 0x14 c s → i = c.fld 8 0 6 → c.headerOk = false ∨ c.fld 8 6 26 ≠ 0 ∨ c.zeroFrom 0xC = false ∨
    s.islEn i = false ∨ (s.fldOwner c false = none ∧ s.link i ≠ 1) →
    ∃ t, exec .fldLinkRestart s = .next t ∧ t = s.finish 0x14 c ⟨0x20, 0, []⟩) ∧
  (∀ (c : Cmd) (f : Final) (s : State), inHand 0x14 0x14 c s → c.headerOk = true → c.fld 8 6 26 = 0 → c.zeroFrom 0xC = true → s.fldOwner c false = some f →
    ∃ t, exec .fldLinkRestart s = .next t ∧ t = s.finish 0x14 c f) ∧
  (∀ (c : Cmd) (s : State), inHand 0x14 0x11 c s → c.fin = none →
    ∃ v t, v = s.accept 0x14 c ∧ exec .fldSetFunc s = .next t ∧ t = v.setOut { c with long := true, ntAcc := BitVec.ofNat 32 s.ntNs, aux := [1] }) ∧
  (∀ (c : Cmd) (i : Nat) (s : State), inHand 0x14 0x12 c s → c.headerOk = true → i = c.fld 8 0 6 → c.fld 8 6 10 = 0 → c.fld 8 17 15 = 0 →
    c.fld 0xC 16 16 = 0 → c.zeroFrom 0x10 = true → s.fldOwner c false = none → isDio i = true →
    ∃ v t, v = s.setIsl i { s.isl i with
        rearmMask := (s.isl i).rearmMask ||| c.fld 0xC 0 16, rearmGroup := (s.isl i).rearmGroup || c.fld 8 16 1 == 1 } ∧
      exec .fldRearm s = .next t ∧ t = v.finish 0x14 c ⟨0x00, 0, []⟩) ∧
  (∀ (c : Cmd) (i a : Nat) (s : State), inHand 0x14 0x13 c s → c.headerOk = true → i = c.fld 8 0 6 → c.fld 8 6 26 = 0 → c.word 0xC = 0 →
    c.fld 0x14 8 24 = 0 → c.zeroFrom 0x18 = true → a = c.addr 0x10 → a % 32 = 0 → s.fldOwner c true = none → s.engineMayWrite a 32 = true →
    s.ecc = [] → s.pairOn = false →
    ∃ v t, v = (s.dropResv a (s.islandIn i).length).setBytes a (s.islandIn i) ∧ sameMemBut a (s.islandIn i).length s v ∧ exec .fldRead s = .next t ∧ t = v.finish 0x14 c ⟨0x00, 0, []⟩) ∧
  (∀ (c : Cmd) (i : Nat) (s : State), inHand 0x14 0x14 c s → c.headerOk = true → i = c.fld 8 0 6 → c.fld 8 6 26 = 0 → c.zeroFrom 0xC = true →
    s.fldOwner c false = none → s.link i = 1 → 3 ≤ (s.isl i).upOk →
    ∃ v t, v = s.linkLoad i ∧ v.link i = 2 ∧ (v.isl i).cfgSent = 0 ∧ onlyFlds [F.FLD_LNK_STATE i, fltBit i] s v ∧ exec .fldLinkRestart s = .next t ∧
      t = v.finish 0x14 c ⟨0x00, 0, []⟩) ∧
  (∀ (c : Cmd) (i : Nat) (s : State), inHand 0x14 0x14 c s → c.headerOk = true → i = c.fld 8 0 6 → c.fld 8 6 26 = 0 → c.zeroFrom 0xC = true →
    s.fldOwner c false = none → s.link i = 1 → (s.isl i).upOk < 3 →
    ∃ t, exec .fldLinkRestart s = .next t ∧ t = s.finish 0x14 c ⟨0x11, 0, []⟩)

/-- Input stages (R417, R418, R419): a sample with and without a debounce time, a debounce time that expires, a wake input, and the supply
of a group. A clause that ends in t = s (an event before its instant or without its condition changes nothing) is the model's choice,
notes/assumptions/2.md. Where the clauses meet what notes/assumptions/62.md, notes/assumptions/91.md record, they say the model's choice. -/
def Obligations.InputStages : Prop :=
  (∀ (i : Fin 24) (mV : List Int) (v cur : BitVec 16) (temp : Byte) (s : State), s.islandsLive = true →
    s.tb.locked = false ∨ (s.raw % 5000 = 0 ∧ (s.isl i.val).sampleAt ≠ some s.raw) → (∀ j ∈ List.range 16, s.debounce i.val j ≠ 0) →
    ∃ t, exec (.diSample i mV v cur temp) s = .next t ∧
      (∀ j < 16, t.inCh i.val j = { s.inCh i.val j with
        sample := s.inLevel i.val j (mV.getD j 0),
        held := if s.inLevel i.val j (mV.getD j 0) = (s.inCh i.val j).state then 0
          else if (s.inCh i.val j).sample = (s.inCh i.val j).state then 0 else (s.inCh i.val j).held + 1,
        since := if s.inLevel i.val j (mV.getD j 0) = (s.inCh i.val j).sample then (s.inCh i.val j).since else s.raw }) ∧
      t.isl i.val = { s.isl i.val with
        sampleAt := some s.raw, volt := v, cur := cur, temp := temp,
        lowAt := if v.toNat < 18000 then some ((s.isl i.val).lowAt.getD s.raw) else none,
        fullAt := if 18500 ≤ v.toNat then some ((s.isl i.val).fullAt.getD s.raw) else none,
        highAt := if 31000 < v.toNat then some ((s.isl i.val).highAt.getD s.raw) else none,
        tripAt := if 5000 < cur.toNat then some ((s.isl i.val).tripAt.getD s.raw) else none } ∧ t = { s with fld := { s.fld with islands := t.fld.islands, ins := t.fld.ins } }) ∧
  (∀ (i : Fin 24) (mV : List Int) (v cur : BitVec 16) (temp : Byte) (s : State), s.islandsLive = true →
    s.tb.locked = false ∨ (s.raw % 5000 = 0 ∧ (s.isl i.val).sampleAt ≠ some s.raw) → i.val ≠ 0 → (∀ j ∈ List.range 16, s.debounce i.val j = 0) →
    ∃ t, exec (.diSample i mV v cur temp) s = .next t ∧
      (∀ j < 16, (t.inCh i.val j).sample = s.inLevel i.val j (mV.getD j 0) ∧ (t.inCh i.val j).state = s.inLevel i.val j (mV.getD j 0) ∧
        (t.inCh i.val j).rise =
          (if s.inLevel i.val j (mV.getD j 0) && !(s.inCh i.val j).state then (s.inCh i.val j).rise + 1 else (s.inCh i.val j).rise)) ∧
      t.isl i.val = { s.isl i.val with
        sampleAt := some s.raw, volt := v, cur := cur, temp := temp,
        lowAt := if v.toNat < 18000 then some ((s.isl i.val).lowAt.getD s.raw) else none,
        fullAt := if 18500 ≤ v.toNat then some ((s.isl i.val).fullAt.getD s.raw) else none,
        highAt := if 31000 < v.toNat then some ((s.isl i.val).highAt.getD s.raw) else none,
        tripAt := if 5000 < cur.toNat then some ((s.isl i.val).tripAt.getD s.raw) else none } ∧ t = { s with fld := { s.fld with islands := t.fld.islands, ins := t.fld.ins } }) ∧
  (∀ (i : Fin 24) (mV : List Int) (v cur : BitVec 16) (temp : Byte) (s : State), s.islandsLive = true →
    s.tb.locked = false ∨ (s.raw % 5000 = 0 ∧ (s.isl i.val).sampleAt ≠ some s.raw) →
    ∃ w0 t, w0 = (List.range 16).foldl (fun (u : State) (j : Nat) => u.sampleIn i.val j (u.inLevel i.val j (mV.getD j 0))) s ∧
      exec (.diSample i mV v cur temp) s = .next t ∧ t = w0.setIsl i.val ((w0.isl i.val).measure v cur temp w0.raw)) ∧
  (∀ (i : Fin 24) (mV : List Int) (v cur : BitVec 16) (temp : Byte) (s : State),
    s.islandsLive = false ∨ (s.tb.locked = true ∧ (s.raw % 5000 ≠ 0 ∨ (s.isl i.val).sampleAt = some s.raw)) →
    ∃ t, exec (.diSample i mV v cur temp) s = .next t ∧ t = s) ∧
  (∀ (i j : Nat) (mV : Int) (s : State), s.inType i < 2 →
    (if mV ≤ 7000 then s.inLevel i j mV = false else if 13000 ≤ mV then s.inLevel i j mV = true
      else if (s.fallAt i j : Int) < mV ∧ mV < (s.riseAt i j : Int) then s.inLevel i j mV = (s.inCh i j).sample else s.fallAt i j + 1000 ≤ s.riseAt i j)) ∧
  (∀ (i j : Nat) (mV : Int) (s : State), 2 ≤ s.inType i →
    (if mV ≤ 6000 then s.inLevel i j mV = false else if 10500 ≤ mV then s.inLevel i j mV = true
      else if (s.fallAt i j : Int) < mV ∧ mV < (s.riseAt i j : Int) then s.inLevel i j mV = (s.inCh i j).sample else s.fallAt i j + 1000 ≤ s.riseAt i j)) ∧
  (∀ (j : Nat) (x : InCh) (s : State), x.sample = true → x.state = false →
    ∃ v, v = s.setIn 0 j { x with state := true, rise := x.rise + 1 } ∧ s.inFollow 0 j x = v.wakeLatch [(wkDi, j)]) ∧
  (∀ (i : Fin 24) (j : Fin 16) (s : State), s.islandsLive = true → (s.inCh i.val j.val).sample ≠ (s.inCh i.val j.val).state →
    s.debounce i.val j.val ≤ (s.inCh i.val j.val).held → i.val ≠ 0 ∨ (s.inCh i.val j.val).sample = false →
    ∃ t, exec (.diDebounceExpiry i j) s = .next t ∧ onlyIn i.val j.val s t ∧
      t.inCh i.val j.val = { s.inCh i.val j.val with
        state := (s.inCh i.val j.val).sample,
        rise := if (s.inCh i.val j.val).sample then (s.inCh i.val j.val).rise + 1 else (s.inCh i.val j.val).rise }) ∧
  (∀ (i : Fin 24) (j : Fin 16) (s : State), s.islandsLive = true → (s.inCh 0 j.val).sample = true → (s.inCh 0 j.val).state = false → i.val = 0 →
    s.debounce 0 j.val ≤ (s.inCh 0 j.val).held →
    ∃ v t, v = s.setIn 0 j.val { s.inCh 0 j.val with state := true, rise := (s.inCh 0 j.val).rise + 1 } ∧
      exec (.diDebounceExpiry i j) s = .next t ∧ t = v.wakeLatch [(wkDi, j.val)]) ∧
  (∀ (i : Fin 24) (j : Fin 16) (s : State), s.islandsLive = false ∨ (s.inCh i.val j.val).sample = (s.inCh i.val j.val).state ∨
    (s.inCh i.val j.val).held < s.debounce i.val j.val →
    ∃ t, exec (.diDebounceExpiry i j) s = .next t ∧ t = s) ∧
  (∀ (k : Fin 16) (s : State), s.islandsLive = true → s.rd (F.FLD_DI_VS_MON k.val) = 1 → (s.isl k.val).low = false → (s.isl k.val).high = false →
    (s.isl k.val).vsLow s.raw = true ∨ (s.isl k.val).vsHigh s.raw = true →
    ∃ t, exec (.diVsChange k) s = .next t ∧ t.isl k.val = { s.isl k.val with
        low := (s.isl k.val).vsLow s.raw, high := (s.isl k.val).vsHigh s.raw } ∧
      raised [(322 + k.val, [BitVec.ofNat 32 (1 + 4 * b2n ((s.isl k.val).vsLow s.raw) + 8 * b2n ((s.isl k.val).vsHigh s.raw) +
        256 * ((s.isl k.val).volt.toNat / 200 % 256))])] s t ∧
      t = { s with evt := t.evt, regs := t.regs, fld := { s.fld with islands := t.fld.islands } } ∧ t.regs = s.regs) ∧
  (∀ (k : Fin 16) (s : State), s.islandsLive = true → s.rd (F.FLD_DI_VS_MON k.val) = 1 →
    (s.isl k.val).low = true ∨ (s.isl k.val).high = true ∨ ((s.isl k.val).vsLow s.raw = false ∧ (s.isl k.val).vsHigh s.raw = false) →
    ∃ t, exec (.diVsChange k) s = .next t ∧ onlyIsl k.val s t ∧ t.isl k.val = { s.isl k.val with
        low := (s.isl k.val).vsLow s.raw, high := (s.isl k.val).vsHigh s.raw }) ∧
  (∀ (k : Fin 16) (s : State), s.islandsLive = false ∨ s.rd (F.FLD_DI_VS_MON k.val) = 0 → ∃ t, exec (.diVsChange k) s = .next t ∧ t = s) ∧
  (∀ (x : Island) (a raw : Nat), x.lowAt = some a → x.vsLow raw = (if x.low then decide (x.volt.toNat < 18500) else decide (a + 500000 ≤ raw))) ∧
  (∀ (x : Island) (a raw : Nat), x.highAt = some a → x.vsHigh raw = (if x.high then decide (30500 < x.volt.toNat) else decide (a + 500000 ≤ raw))) ∧
  (∀ (x : Island) (raw : Nat), x.low = false → x.lowAt = none → x.high = false → x.highAt = none → x.vsLow raw = false ∧ x.vsHigh raw = false)

/-- Protection of high-side channels (R423, R424, R425): a short, a thermal shutdown that latches or not, cooling, the retry, a feed from
outside, the supply and the currents of a group; and where none of them acts. A clause that ends in t = s (an event before its instant or
without its condition changes nothing) is the model's choice, notes/assumptions/2.md. Where the clauses meet what notes/assumptions/62.md,
notes/assumptions/63.md record, they say the model's choice. -/
def Obligations.HighSideProtection : Prop :=
  (∀ (g : Fin 8) (j : Fin 16) (limit : Option Bool) (s : State), s.islandsLive = true → (s.isl (16 + g.val)).low = false → s.dioOn g.val j.val = true →
    s.dioPulsed g.val j.val = false → limit = some true ∨ s.levelFor g.val j.val false 25000 = true →
    ∃ t, exec (.dioShortDetect g j limit) s = .next t ∧ onlyDio g.val j.val s t ∧
      t.dio g.val j.val = if s.dioOnAt g.val j.val + 75000 ≤ s.raw then { s.dio g.val j.val with short := true } else s.dio g.val j.val) ∧
  (∀ (g : Fin 8) (j : Fin 16) (s : State), s.islandsLive = true → (s.isl (16 + g.val)).low = false → s.dioOn g.val j.val = true →
    s.dioPulsed g.val j.val = false → s.levelFor g.val j.val true 50000 = true → s.dioOnAt g.val j.val + 50000 ≤ s.raw →
    ∃ t, exec (.dioShortDetect g j (some false)) s = .next t ∧ onlyDio g.val j.val s t ∧ t.dio g.val j.val = { s.dio g.val j.val with short := false }) ∧
  (∀ (g : Fin 8) (j : Fin 16) (limit : Option Bool) (s : State), s.islandsLive = false ∨ (s.isl (16 + g.val)).low = true ∨ s.dioOn g.val j.val = false ∨
    s.dioPulsed g.val j.val = true ∨ (limit = none ∧ s.levelFor g.val j.val false 25000 = false) ∨
    (limit = some false ∧ s.levelFor g.val j.val false 25000 = false ∧ (s.levelFor g.val j.val true 50000 = false ∨ s.raw < s.dioOnAt g.val j.val + 50000)) →
    ∃ t, exec (.dioShortDetect g j limit) s = .next t ∧ t = s) ∧
  (∀ (g : Fin 8) (j : Fin 16) (n : Nat) (s : State), s.islandsLive = true → (s.dio g.val j.val).shut = false →
    n = (if 500000000 ≤ s.onTime g.val j.val then 0 else (s.dio g.val j.val).shuts) + 1 →
    ∃ t, exec (.dioThermalShutdown g j) s = .next t ∧ onlyDio g.val j.val s t ∧ t.dioOn g.val j.val = false ∧
      t.dio g.val j.val = { s.dio g.val j.val with
        thermal := true, shut := true, duty := 0, perDuty := 0, shuts := n, onSum := 0, offFrom := s.dioOffAt g.val j.val,
        latched := if s.rd (F.FLD_DIO_RETRY_EN g.val j.val) = 0 ∨ s.rd (F.FLD_DIO_RETRY_MAX g.val j.val) ≤ n then true else (s.dio g.val j.val).latched,
        retryAt := s.raw + s.rd (F.FLD_DIO_RETRY_DLY g.val j.val) * 500000 }) ∧
  (∀ (g : Fin 8) (j : Fin 16) (s : State), s.islandsLive = false ∨ (s.dio g.val j.val).shut = true →
    ∃ t, exec (.dioThermalShutdown g j) s = .next t ∧ t = s) ∧
  (∀ (g : Fin 8) (j : Fin 16) (s : State), s.islandsLive = true → (s.dio g.val j.val).thermal = true →
    ∃ t, exec (.dioThermalCool g j) s = .next t ∧ onlyDio g.val j.val s t ∧
      t.dio g.val j.val = (if (s.dio g.val j.val).shut = true ∧ (s.dio g.val j.val).latched = false ∧
          ((s.dio g.val j.val).retryAt ≤ s.raw ∨ s.rd (F.FLD_DIO_RETRY_EN g.val j.val) = 0) then { s.dio g.val j.val with
            thermal := false, shut := false, onFrom := s.raw }
        else { s.dio g.val j.val with thermal := false })) ∧
  (∀ (g : Fin 8) (j : Fin 16) (s : State), s.islandsLive = false ∨ (s.dio g.val j.val).thermal = false → ∃ t, exec (.dioThermalCool g j) s = .next t ∧ t = s) ∧
  (∀ (g : Fin 8) (j : Fin 16) (s : State), s.islandsLive = true → (s.dio g.val j.val).thermal = false → (s.dio g.val j.val).shut = true →
    (s.dio g.val j.val).latched = false → (s.dio g.val j.val).retryAt ≤ s.raw ∨ s.rd (F.FLD_DIO_RETRY_EN g.val j.val) = 0 →
    ∃ t, exec (.dioRetryTimer g j) s = .next t ∧ onlyDio g.val j.val s t ∧ t.dio g.val j.val = { s.dio g.val j.val with
        shut := false, onFrom := s.raw }) ∧
  (∀ (g : Fin 8) (j : Fin 16) (s : State), s.islandsLive = false ∨ (s.dio g.val j.val).thermal = true ∨ (s.dio g.val j.val).shut = false ∨
    (s.dio g.val j.val).latched = true ∨ (s.raw < (s.dio g.val j.val).retryAt ∧ s.rd (F.FLD_DIO_RETRY_EN g.val j.val) = 1) →
    ∃ t, exec (.dioRetryTimer g j) s = .next t ∧ t = s) ∧
  (∀ (g : Fin 8) (j : Fin 16) (s : State), s.islandsLive = true → s.dioFunc g.val j.val ≠ 2 → (s.dio g.val j.val).set = 0 →
    (s.dio g.val j.val).setAt + 500000 ≤ s.raw → s.dioOffAt g.val j.val + 500000 ≤ s.raw → (s.inCh (16 + g.val) j.val).sample = true →
    (s.inCh (16 + g.val) j.val).since + 500000 ≤ s.raw →
    ∃ t, exec (.dioExtFeed g j) s = .next t ∧ onlyDio g.val j.val s t ∧ t.dio g.val j.val = { s.dio g.val j.val with ext := true }) ∧
  (∀ (g : Fin 8) (j : Fin 16) (s : State), s.islandsLive = true → (s.inCh (16 + g.val) j.val).sample = false →
    (s.inCh (16 + g.val) j.val).since + 500000 ≤ s.raw →
    ∃ t, exec (.dioExtFeed g j) s = .next t ∧ onlyDio g.val j.val s t ∧ t.dio g.val j.val = { s.dio g.val j.val with ext := false }) ∧
  (∀ (g : Fin 8) (j : Fin 16) (s : State), s.islandsLive = false ∨ s.raw < (s.inCh (16 + g.val) j.val).since + 500000 ∨
    ((s.inCh (16 + g.val) j.val).sample = true ∧ s.offFor g.val j.val 500000 = false) →
    ∃ t, exec (.dioExtFeed g j) s = .next t ∧ t = s) ∧
  (∀ (g : Fin 8) (a : Nat) (s : State), s.islandsLive = true → (s.isl (16 + g.val)).lowAt = some a → a + 500000 ≤ s.raw →
    ∃ t, exec (.dioVdoLow g) s = .next t ∧ onlyIsl (16 + g.val) s t ∧ t.isl (16 + g.val) = { s.isl (16 + g.val) with low := true }) ∧
  (∀ (g : Fin 8) (a : Nat) (s : State), s.islandsLive = true → (s.isl (16 + g.val)).lowAt = none → (s.isl (16 + g.val)).fullAt = some a → a + 500000 ≤ s.raw →
    ∃ t, exec (.dioVdoLow g) s = .next t ∧ onlyIsl (16 + g.val) s t ∧ t.isl (16 + g.val) = { s.isl (16 + g.val) with low := false }) ∧
  (∀ (g : Fin 8) (s : State), s.islandsLive = false ∨
    (Option.all (fun a : Nat => decide (s.raw < a + 500000)) (s.isl (16 + g.val)).lowAt = true ∧
      Option.all (fun a : Nat => decide (s.raw < a + 500000)) (s.isl (16 + g.val)).fullAt = true) →
    ∃ t, exec (.dioVdoLow g) s = .next t ∧ t = s) ∧
  (∀ (g : Fin 8) (mean : Nat) (s : State), s.islandsLive = true →
    ∃ t, exec (.dioGroupOc g mean) s = .next t ∧ onlyIsl (16 + g.val) s t ∧ t.isl (16 + g.val) = { s.isl (16 + g.val) with
        grpOc := if 4000 < mean then true else if mean ≤ 3800 then false else (s.isl (16 + g.val)).grpOc }) ∧
  (∀ (g : Fin 8) (a : Nat) (s : State), s.islandsLive = true → (s.isl (16 + g.val)).tripAt = some a → a + 5000000 ≤ s.raw →
    ∃ t, exec (.dioGroupTrip g) s = .next t ∧ t.isl (16 + g.val) = { s.isl (16 + g.val) with grpTrip := true } ∧
      (∀ j < 16, t.dio g.val j = { s.dio g.val j with
        duty := 0, perDuty := 0, offFrom := s.dioOffAt g.val j, onSum := s.onTime g.val j } ∧ t.dioOn g.val j = false) ∧
      t = { s with fld := { s.fld with islands := t.fld.islands, dios := t.fld.dios } }) ∧
  (∀ (g : Fin 8) (mean : Nat) (s : State), s.islandsLive = false →
    ∃ t v, exec (.dioGroupOc g mean) s = .next t ∧ exec (.dioGroupTrip g) s = .next v ∧ t = s ∧ v = s) ∧
  (∀ (g : Fin 8) (s : State), Option.all (fun a : Nat => decide (s.raw < a + 5000000)) (s.isl (16 + g.val)).tripAt = true →
    ∃ t, exec (.dioGroupTrip g) s = .next t ∧ t = s)

/-- Load diagnostics and PWM of high-side channels (R425, R426, R428, R429). A clause that ends in t = s (an event before its instant or
without its condition changes nothing) is the model's choice, notes/assumptions/2.md. Where the clauses meet what notes/assumptions/62.md
records, they say the model's choice. -/
def Obligations.HighSideDiagnosticsAndPwm : Prop :=
  (∀ (g : Fin 8) (j : Fin 16) (uA : Nat) (s : State), s.islandsLive = true → s.rd (F.FLD_DIO_ONDIAG_EN g.val j.val) = 1 → s.dioOn g.val j.val = true →
    s.dioPulsed g.val j.val = false → (s.isl (16 + g.val)).low = false → s.dioOnAt g.val j.val + 200000 ≤ s.raw →
    ∃ t, exec (.dioOndiagMeasure g j uA) s = .next t ∧ onlyDio g.val j.val s t ∧ (t.dio g.val j.val).coverAt = some s.raw ∧
      t.dioCover g.val j.val = true ∧
      (t.dio g.val j.val).onLow = (if uA < 8000 then min 3 ((s.dio g.val j.val).onLow + 1) else 0) ∧
      (t.dio g.val j.val).onHigh = (if 12000 ≤ uA then min 3 ((s.dio g.val j.val).onHigh + 1) else 0) ∧
      (t.dio g.val j.val).open_ = (if (t.dio g.val j.val).onLow = 3 then true else if (t.dio g.val j.val).onHigh = 3 then false
        else (s.dio g.val j.val).open_)) ∧
  (∀ (g : Fin 8) (j : Fin 16) (uA : Nat) (s : State), s.islandsLive = false ∨ s.rd (F.FLD_DIO_ONDIAG_EN g.val j.val) = 0 ∨ s.dioOn g.val j.val = false ∨
    s.dioPulsed g.val j.val = true ∨ (s.isl (16 + g.val)).low = true ∨ s.raw < s.dioOnAt g.val j.val + 200000 →
    ∃ t, exec (.dioOndiagMeasure g j uA) s = .next t ∧ t = s) ∧
  (∀ (g : Fin 8) (j : Fin 16) (mV : Int) (s : State), s.islandsLive = true → s.rd (F.FLD_DIO_OFFDIAG_EN g.val j.val) = 1 →
    s.dioFunc g.val j.val ≠ 2 → (s.isl (16 + g.val)).low = false → s.dioOffAt g.val j.val + 50000 ≤ s.raw →
    ∃ t, exec (.dioOffdiagCheck g j mV) s = .next t ∧ onlyDio g.val j.val s t ∧
      (t.dio g.val j.val).offOpen = (if 2000 ≤ mV ∧ mV ≤ 6000 then min 3 ((s.dio g.val j.val).offOpen + 1) else 0) ∧
      (t.dio g.val j.val).offShut = (if mV < 2000 then min 3 ((s.dio g.val j.val).offShut + 1) else 0) ∧
      (t.dio g.val j.val).open_ = (if (t.dio g.val j.val).offOpen = 3 ∨ (2000 ≤ mV ∧ mV ≤ 6000 ∧ s.dioPulsed g.val j.val = false ∧
          (s.dioFunc g.val j.val ≠ 1 ∨ (s.dio g.val j.val).perDuty = 0) ∧ s.dioOffAt g.val j.val + 150000 ≤ s.raw) then true
        else if (t.dio g.val j.val).offShut = 3 then false else (s.dio g.val j.val).open_) ∧
      t.dio g.val j.val = { s.dio g.val j.val with
        offOpen := (t.dio g.val j.val).offOpen, offShut := (t.dio g.val j.val).offShut, open_ := (t.dio g.val j.val).open_ }) ∧
  (∀ (g : Fin 8) (j : Fin 16) (mV : Int) (s : State), s.islandsLive = false ∨ s.rd (F.FLD_DIO_OFFDIAG_EN g.val j.val) = 0 ∨ s.dioFunc g.val j.val = 2 ∨
    (s.isl (16 + g.val)).low = true ∨ s.raw < s.dioOffAt g.val j.val + 50000 →
    ∃ t, exec (.dioOffdiagCheck g j mV) s = .next t ∧ t = s) ∧
  (∀ (g : Fin 8) (j : Fin 16) (p : Nat) (s : State), s.islandsLive = true → (s.isl (16 + g.val)).conf = true → s.dioFunc g.val j.val = 1 →
    (s.dio g.val j.val).perNext ≤ s.raw →
    p = (if s.dioMay g.val j.val = false then 0 else if s.rd (F.FLD_DIO1_RAMP g.val j.val) = 0 then min (s.dio g.val j.val).set 1000
      else (s.dio g.val j.val).duty) →
    ∃ t, exec (.pwmPeriodStart g j) s = .next t ∧ onlyDio g.val j.val s t ∧ t.dio g.val j.val = { s.dio g.val j.val with
        duty := p, perDuty := p, perAt := (s.dio g.val j.val).perNext,
        perNext := (s.dio g.val j.val).perNext + 500000000 / max 1 (s.rd (F.FLD_DIO_FREQ g.val j.val)), onSum := s.onTime g.val j.val,
        offFrom := if p = 0 ∧ 0 < (s.dio g.val j.val).perDuty then s.perOff g.val j.val else (s.dio g.val j.val).offFrom }) ∧
  (∀ (g : Fin 8) (j : Fin 16) (s : State), s.islandsLive = false ∨ (s.isl (16 + g.val)).conf = false ∨ s.dioFunc g.val j.val ≠ 1 ∨
    s.raw < (s.dio g.val j.val).perNext →
    ∃ t, exec (.pwmPeriodStart g j) s = .next t ∧ t = s) ∧
  (∀ s : State, s.islandsLive = true → s.raw % 500000 = 3840 → s.fld.rampAt ≠ some s.raw →
    ∃ t, exec .pwmRampTick s = .next t ∧
      (∀ g < 8, (∀ j < 16, t.dio g j = if s.dioFunc g j = 1 ∧ s.rd (F.FLD_DIO1_RAMP g j) ≠ 0 ∧ s.dioMay g j = true then
        { s.dio g j with
          duty := if (s.dio g j).duty < min (s.dio g j).set 1000 then min (min (s.dio g j).set 1000) ((s.dio g j).duty + s.rd (F.FLD_DIO1_RAMP g j))
            else max (min (s.dio g j).set 1000) ((s.dio g j).duty - s.rd (F.FLD_DIO1_RAMP g j)) }
        else s.dio g j)) ∧
      t = { s with fld := { s.fld with dios := t.fld.dios, rampAt := some s.raw } }) ∧
  (∀ s : State, s.islandsLive = false ∨ s.raw % 500000 ≠ 3840 ∨ s.fld.rampAt = some s.raw → ∃ t, exec .pwmRampTick s = .next t ∧ t = s)

/-- Current loops (R438 to R444, R449 to R451, R462): a result corrected, kept within the range and given to a capture, the comparison of
the two paths, the detections of the supply, the headroom and a multi-drop channel, STATUS, and the event of a bit that rises. A clause
that ends in t = s (an event before its instant or without its condition changes nothing) is the model's choice, notes/assumptions/2.md.
Where the clauses meet what notes/assumptions/64.md, notes/assumptions/99.md record, they say the model's choice. -/
def Obligations.CurrentLoops : Prop :=
  (∀ (c : Fin 64) (raw : Int) (s : State), s.aiLive c.val = true → s.aiNext c.val ≤ s.raw →
    ∃ v w0 t, v = Config.calibrated (s.bytes (calSlot (1 + c.val) + 0x14) 228) 0 raw ∧
      w0 = s.setAi c.val { s.ai c.val with
        value := BitVec.ofInt 24 (max (-250000) (min 7500000 v)), ovr := decide (v < -250000) || decide (7500000 < v),
        seq := (s.ai c.val).seq + 1, count := (s.ai c.val).count + 1,
        settling := !decide (s.aiSettled c.val ≤ (s.ai c.val).count + 1), valid := decide (s.aiSettled c.val ≤ (s.ai c.val).count + 1),
        doneRaw := s.aiNext c.val, doneNt := BitVec.ofNat 64 (s.ntFullAt (s.aiNext c.val) / 2 ^ 40) } ∧
      exec (.aiResult c raw) s = .next t ∧ t = (w0.aiRise s c.val 2).aiCaptureTake c.val) ∧
  (∀ (c : Fin 64) (raw : Int) (s : State), s.aiLive c.val = false ∨ s.raw < s.aiNext c.val → ∃ t, exec (.aiResult c raw) s = .next t ∧ t = s) ∧
  (∀ (c bit : Nat) (s0 s : State), bits (s0.aiStatus c) bit 1 = 0 → bits (s.aiStatus c) bit 1 = 1 → s.link (24 + c / 2) ≠ 0 →
    raised [(344 + c / 2, [BitVec.ofNat 32 (c % 2 + 256 * bit), BitVec.ofNat 32 (s.aiStatus c)])] s (s.aiRise s0 c bit) ∧
      (s.aiRise s0 c bit).regs = s.regs ∧ (s.aiRise s0 c bit).fld = s.fld) ∧
  (∀ (c bit : Nat) (s0 s : State), bits (s0.aiStatus c) bit 1 = 1 ∨ bits (s.aiStatus c) bit 1 = 0 ∨ s.link (24 + c / 2) = 0 → s.aiRise s0 c bit = s) ∧
  (∀ (c : Nat) (s : State),
    bits (s.aiStatus c) 0 4 = b2n ((s.ai c).valid && s.rd (F.FLD_AIL_MODE c) != 0 && (s.isl (24 + c / 2)).conf) + 2 * b2n (s.ai c).settling +
        4 * b2n (s.ai c).ovr + 8 * b2n (s.ai c).mismatch ∧
      bits (s.aiStatus c) 4 1 = b2n ((s.ai c).openLoop && s.aiWatched c && s.on (F.FLD_AIL_OPEN_EN c)) ∧
      bits (s.aiStatus c) 5 1 = b2n ((s.ai c).compliance && s.aiWatched c && s.on (F.FLD_AIL_COMP_EN c)) ∧
      bits (s.aiStatus c) 6 1 = b2n ((s.ai c).supLimit && !s.aiSupOff c) ∧ bits (s.aiStatus c) 7 1 = b2n (s.aiSupOff c) ∧
      bits (s.aiStatus c) 8 1 = b2n (s.ai c).aligned ∧ bits (s.aiStatus c) 10 1 = s.rd (F.FLD_AIL_MULTIDROP c) ∧
      bits (s.aiStatus c) 11 1 = b2n ((s.ai c).park && s.on (F.FLD_AIL_MULTIDROP c)) ∧ bits (s.aiStatus c) 12 1 = b2n (s.ai c).cd ∧
      bits (s.aiStatus c) 13 1 = b2n (s.isl (24 + c / 2)).low ∧ bits (s.aiStatus c) 14 2 = s.rd (F.FLD_AIL_MODE c)) ∧
  (∀ (c n k a : Nat) (d : Cmd) (s : State), s.aiCmd c = some d → d.opcode = 0x16 → d.aux = [n, k] → a = d.addr 0x10 + 8 * n → n + 1 ≠ d.fld 0xC 0 17 →
    ∃ v, v = s.busWrite a (leBytes 4 ((s.ai c).value.toNat + 2 ^ 24 * (s.aiStatus c % 256)) ++ leBytes 4 (s.ai c).doneNt.toNat) (s.ctx d.ring).engine.toNat ∧
      s.aiCaptureTake c = v.setOut { d with aux := [n + 1, if s.aiAged c then 1 else k] }) ∧
  (∀ (c n k a : Nat) (d : Cmd) (s : State), s.aiCmd c = some d → d.opcode = 0x16 → d.aux = [n, k] → a = d.addr 0x10 + 8 * n → n + 1 = d.fld 0xC 0 17 →
    ∃ v w0, v = { d with aux := [n + 1, if s.aiAged c then 1 else k] } ∧
      w0 = s.busWrite a (leBytes 4 ((s.ai c).value.toNat + 2 ^ 24 * (s.aiStatus c % 256)) ++ leBytes 4 (s.ai c).doneNt.toNat) (s.ctx d.ring).engine.toNat ∧
      s.aiCaptureTake c = ((w0.setOut v).endLong v ⟨if s.aiAged c = true ∨ k = 1 then 0x50 else 0x00, 0, [BitVec.ofNat 32 (n + 1)]⟩).aiGoOn c) ∧
  (∀ (c : Nat) (s : State), Option.all (fun d : Cmd => d.opcode != 0x16 || d.aux == []) (s.aiCmd c) = true → s.aiCaptureTake c = s) ∧
  (∀ (e a : Nat) (bs : List Byte) (s : State), s.ecc = [] → s.pairOn = false → inDram a bs.length = true →
    State.bytes (s.busWrite a bs e) a bs.length = bs ∧ sameMemBut a bs.length s (s.busWrite a bs e)) ∧
  (∀ (c : Fin 64) (burden supply : Int) (head temp : Byte) (s : State), s.aiLive c.val = true →
    ∃ v w0 t, v = (s.aiCorrect c.val 0 burden - s.aiCorrect c.val 1 supply).natAbs ∧
      w0 = (s.setIsl (24 + c.val / 2) { s.isl (24 + c.val / 2) with temp := temp }).setAi c.val { s.ai c.val with
        apart := if 200 < v then min 3 ((s.ai c.val).apart + 1) else 0, near := if v ≤ 150 then min 3 ((s.ai c.val).near + 1) else 0,
        isup := BitVec.ofInt 16 (s.aiCorrect c.val 1 supply), head := head,
        mismatch := if 200 < v ∧ 2 ≤ (s.ai c.val).apart then true else if v ≤ 150 ∧ 2 ≤ (s.ai c.val).near then false else (s.ai c.val).mismatch } ∧
      exec (.aiReadbackWindow c burden supply head temp) s = .next t ∧ t = w0.aiRise s c.val 3) ∧
  (∀ (c : Fin 64) (burden supply : Int) (head temp : Byte) (s : State), s.aiLive c.val = false →
    ∃ t, exec (.aiReadbackWindow c burden supply head temp) s = .next t ∧ t = s) ∧
  (∀ (c : Fin 64) (uA : Nat) (s : State), s.aiLive c.val = true → s.aiWatched c.val = true → s.rd (F.FLD_AIL_OPEN_EN c.val) = 1 →
    ∃ v t, v = s.setAi c.val { s.ai c.val with
        openLoop := if uA < 500 then true else if 1000 ≤ uA then false else (s.ai c.val).openLoop } ∧
      exec (.aiOpenLoop c uA) s = .next t ∧ t = v.aiRise s c.val 4) ∧
  (∀ (c : Fin 64) (uA : Nat) (s : State), s.aiLive c.val = false ∨ s.aiWatched c.val = false ∨ s.rd (F.FLD_AIL_OPEN_EN c.val) = 0 →
    ∃ t, exec (.aiOpenLoop c uA) s = .next t ∧ t = s) ∧
  (∀ (c : Fin 64) (mV : Nat) (s : State), s.aiLive c.val = true → s.aiWatched c.val = true → s.rd (F.FLD_AIL_COMP_EN c.val) = 1 →
    ∃ v t, v = s.setAi c.val { s.ai c.val with
        compliance := if mV < 2000 then true else if 2500 ≤ mV then false else (s.ai c.val).compliance } ∧
      exec (.aiCompliance c mV) s = .next t ∧ t = v.aiRise s c.val 5) ∧
  (∀ (c : Fin 64) (mV : Nat) (s : State), s.aiLive c.val = false ∨ s.aiWatched c.val = false ∨ s.rd (F.FLD_AIL_COMP_EN c.val) = 0 →
    ∃ t, exec (.aiCompliance c mV) s = .next t ∧ t = s) ∧
  (∀ (i : Fin 32) (mV : Nat) (s : State), s.islandsLive = true →
    ∃ v t, v = s.setIsl (24 + i.val) { s.isl (24 + i.val) with
        low := if mV < 18000 then true else if 18500 ≤ mV then false else (s.isl (24 + i.val)).low } ∧
      exec (.aiVlpLow i mV) s = .next t ∧ t = (v.aiRise s (2 * i.val) 13).aiRise s (2 * i.val + 1) 13) ∧
  (∀ (i : Fin 32) (mV : Nat) (s : State), s.islandsLive = false → ∃ t, exec (.aiVlpLow i mV) s = .next t ∧ t = s) ∧
  (∀ (c : Fin 64) (limit : Bool) (s : State), s.islandsLive = true → s.aiSupOff c.val = false →
    ∃ v t, v = s.setAi c.val { s.ai c.val with supLimit := limit } ∧ exec (.aiSupLimit c limit) s = .next t ∧ t = v.aiRise s c.val 6) ∧
  (∀ (c : Fin 64) (limit : Bool) (s : State), s.islandsLive = false ∨ s.aiSupOff c.val = true →
    ∃ t, exec (.aiSupLimit c limit) s = .next t ∧ t = s) ∧
  (∀ (c : Fin 64) (mean : Int) (s : State), s.aiLive c.val = true → s.rd (F.FLD_AIL_MULTIDROP c.val) = 1 →
    ∃ v t, v = s.setAi c.val { s.ai c.val with
        park := decide (s.aiCorrect c.val 0 mean < 3500) || decide (4500 < s.aiCorrect c.val 0 mean) } ∧
      exec (.aiParkWindow c mean) s = .next t ∧ t = v.aiRise s c.val 11) ∧
  (∀ (c : Fin 64) (mean : Int) (s : State), s.aiLive c.val = false ∨ s.rd (F.FLD_AIL_MULTIDROP c.val) = 0 →
    ∃ t, exec (.aiParkWindow c mean) s = .next t ∧ t = s) ∧
  (∀ (c : Fin 64) (s : State), s.aiLive c.val = true → s.aiWatched c.val = true → s.rd (F.FLD_AIL_OPEN_EN c.val) = 1 → (s.ai c.val).openLoop = false →
    s.link (24 + c.val / 2) ≠ 0 →
    ∃ t, exec (.aiOpenLoop c 499) s = .next t ∧ t.ai c.val = { s.ai c.val with openLoop := true } ∧
      raised [(344 + c.val / 2, [BitVec.ofNat 32 (c.val % 2 + 1024), BitVec.ofNat 32 (t.aiStatus c.val)])] s t ∧
      t = { s with evt := t.evt, regs := t.regs, fld := { s.fld with ais := t.fld.ais } } ∧ t.regs = s.regs) ∧
  (∀ (c : Fin 64) (s : State), s.aiLive c.val = true → s.aiWatched c.val = true → s.rd (F.FLD_AIL_OPEN_EN c.val) = 1 →
    ∃ t, exec (.aiOpenLoop c 1000) s = .next t ∧ onlyAi c.val s t ∧ t.ai c.val = { s.ai c.val with openLoop := false }) ∧
  (∀ (c : Fin 64) (s : State), s.aiLive c.val = true → s.aiWatched c.val = true → s.rd (F.FLD_AIL_COMP_EN c.val) = 1 → (s.ai c.val).compliance = false →
    s.link (24 + c.val / 2) ≠ 0 →
    ∃ t, exec (.aiCompliance c 1999) s = .next t ∧ t.ai c.val = { s.ai c.val with compliance := true } ∧
      raised [(344 + c.val / 2, [BitVec.ofNat 32 (c.val % 2 + 1280), BitVec.ofNat 32 (t.aiStatus c.val)])] s t ∧
      t = { s with evt := t.evt, regs := t.regs, fld := { s.fld with ais := t.fld.ais } } ∧ t.regs = s.regs) ∧
  (∀ (i : Fin 32) (s : State), s.islandsLive = true → (s.isl (24 + i.val)).low = false → s.link (24 + i.val) ≠ 0 →
    ∃ t, exec (.aiVlpLow i 17999) s = .next t ∧ t.isl (24 + i.val) = { s.isl (24 + i.val) with low := true } ∧
      raised [(344 + i.val, [3328, BitVec.ofNat 32 (t.aiStatus (2 * i.val))]), (344 + i.val, [3329, BitVec.ofNat 32 (t.aiStatus (2 * i.val + 1))])] s t ∧
      t = { s with evt := t.evt, regs := t.regs, fld := { s.fld with islands := t.fld.islands } } ∧ t.regs = s.regs) ∧
  (∀ (c : Fin 64) (s : State), s.islandsLive = true → s.aiSupOff c.val = false → (s.ai c.val).supLimit = false → s.link (24 + c.val / 2) ≠ 0 →
    ∃ t, exec (.aiSupLimit c true) s = .next t ∧ t.ai c.val = { s.ai c.val with supLimit := true } ∧
      raised [(344 + c.val / 2, [BitVec.ofNat 32 (c.val % 2 + 1536), BitVec.ofNat 32 (t.aiStatus c.val)])] s t ∧
      t = { s with evt := t.evt, regs := t.regs, fld := { s.fld with ais := t.fld.ais } } ∧ t.regs = s.regs)

/-- Alignment, captures and FSK transfers (R453, R455, R456, R459): the commands that start them and the events of a transfer. A clause
that ends in t = s (an event before its instant or without its condition changes nothing) is the model's choice, notes/assumptions/2.md.
Where the clauses meet what notes/assumptions/64.md records, they say the model's choice. -/
def Obligations.LoopTransfers : Prop :=
  (∀ (c : Cmd) (s : State), inHand 0x14 0x15 c s → c.headerOk = true → c.zeroFrom 8 = true → s.cmdMp c = true ∨
      (s.rd F.FLD_AI_CFG_SYNC_CMD_EN = 1 ∧ s.rd F.FLD_AI_CFG_SYNC_PART = (s.cmdPart c).toNat) → s.fld.align = none → s.fld.alignAt = none →
    ∃ v t, v = { s with fld := { s.fld with align := some s.raw } } ∧ exec .fldAiSync s = .next t ∧
      t = v.finish 0x14 c ⟨0x00, 0, [BitVec.ofNat 32 (s.ntFullAt ((s.raw + 4499) / 4000 * 4000 + 3840) / 2 ^ 40)]⟩) ∧
  (∀ (c : Cmd) (r : Nat) (s : State), inHand 0x14 0x15 c s → c.headerOk = true → c.zeroFrom 8 = true → s.cmdMp c = true ∨
      (s.rd F.FLD_AI_CFG_SYNC_CMD_EN = 1 ∧ s.rd F.FLD_AI_CFG_SYNC_PART = (s.cmdPart c).toNat) → s.fld.align = some r →
    ∃ v t, v = (s.satAdd F.FLD_AI_SYNC_STAT_MERGED 1).raise 377 [3] ∧ counted F.FLD_AI_SYNC_STAT_MERGED s v ∧ exec .fldAiSync s = .next t ∧
      t = v.finish 0x14 c ⟨0x00, 0, [BitVec.ofNat 32 (s.ntFullAt ((r + 4499) / 4000 * 4000 + 3840) / 2 ^ 40)]⟩) ∧
  (∀ (c : Cmd) (r : Nat) (s : State), inHand 0x14 0x15 c s → c.headerOk = true → c.zeroFrom 8 = true → s.cmdMp c = true ∨
      (s.rd F.FLD_AI_CFG_SYNC_CMD_EN = 1 ∧ s.rd F.FLD_AI_CFG_SYNC_PART = (s.cmdPart c).toNat) → s.fld.align = none → s.fld.alignAt = some r → s.raw < r →
    ∃ v t, v = (s.satAdd F.FLD_AI_SYNC_STAT_MERGED 1).raise 377 [3] ∧ exec .fldAiSync s = .next t ∧
      t = v.finish 0x14 c ⟨0x00, 0, [BitVec.ofNat 32 (s.ntFullAt r / 2 ^ 40)]⟩) ∧
  (∀ (c : Cmd) (r : Nat) (s : State), inHand 0x14 0x15 c s → c.headerOk = true → c.zeroFrom 8 = true → s.cmdMp c = true ∨
      (s.rd F.FLD_AI_CFG_SYNC_CMD_EN = 1 ∧ s.rd F.FLD_AI_CFG_SYNC_PART = (s.cmdPart c).toNat) → s.fld.align = none → s.fld.alignAt = some r → r ≤ s.raw →
    ∃ v t, v = State.alignDone s ∧ v.fld.alignAt = none ∧ counted F.FLD_AI_SYNC_STAT_SYNCS s v ∧ exec .fldAiSync s = .next t ∧
      t = State.finish { v with fld := { v.fld with align := some s.raw } } 0x14 c
        ⟨0x00, 0, [BitVec.ofNat 32 (s.ntFullAt ((s.raw + 4499) / 4000 * 4000 + 3840) / 2 ^ 40)]⟩) ∧
  (∀ (c : Cmd) (s : State), inHand 0x14 0x15 c s → c.headerOk = true → c.zeroFrom 8 = true → s.cmdMp c = false →
      s.rd F.FLD_AI_CFG_SYNC_CMD_EN = 0 ∨ s.rd F.FLD_AI_CFG_SYNC_PART ≠ (s.cmdPart c).toNat →
    ∃ t, exec .fldAiSync s = .next t ∧ t = s.finish 0x14 c ⟨0x21, 0, []⟩) ∧
  (∀ (c : Cmd) (s : State), inHand 0x14 0x15 c s → c.headerOk = false ∨ c.zeroFrom 8 = false →
    ∃ t, exec .fldAiSync s = .next t ∧ t = s.finish 0x14 c ⟨0x20, 0, []⟩) ∧
  (∀ (c : Cmd) (s : State), inHand 0x14 0x16 c s → c.fin = none →
    ∃ v t, v = s.accept 0x14 c ∧ exec .fldAiCapture s = .next t ∧ t = v.aiStart (2 * (c.fld 8 0 6 - 24) + c.fld 8 8 4)) ∧
  (∀ (c : Cmd) (s : State), inHand 0x14 0x17 c s → c.fin = none →
    ∃ v t, v = s.accept 0x14 c ∧ exec .fldFskXfer s = .next t ∧ t = v.aiStart (2 * (c.fld 8 0 6 - 24) + c.fld 8 8 4)) ∧
  (∀ (c : Cmd) (f : Final) (s : State), inHand 0x14 0x16 c s → c.fin = some f → ∃ t, exec .fldAiCapture s = .next t ∧ t = s.finish 0x14 c f) ∧
  (∀ (c : Cmd) (f : Final) (s : State), inHand 0x14 0x17 c s → c.fin = some f → ∃ t, exec .fldFskXfer s = .next t ∧ t = s.finish 0x14 c f) ∧
  (∀ s : State, s.hand 0x14 = none ∨ s.running = false →
    ∃ t v w0, exec .fldAiSync s = .next t ∧ exec .fldAiCapture s = .next v ∧ exec .fldFskXfer s = .next w0 ∧ t = s ∧ v = s ∧ w0 = s) ∧
  (∀ (k : Nat) (d : Cmd) (s : State), s.aiCmd k = some d → d.aux = [] → d.opcode = 0x16 → s.aiStart k = s.setOut { d with aux := [0, 0] }) ∧
  (∀ (k : Nat) (d : Cmd) (s : State), s.aiCmd k = some d → d.aux = [] → d.opcode = 0x17 → d.fld 8 16 8 = 0 →
    s.aiStart k = s.setOut { d with aux := if (s.ai k).cd then [3, s.raw, 0, s.ntNs % 2 ^ 32, 0] else [2, s.raw, 0, 0, 0] }) ∧
  (∀ (k n : Nat) (d : Cmd) (s : State), s.aiCmd k = some d → d.aux = [] → d.opcode = 0x17 → n = d.fld 8 16 8 → n ≠ 0 →
    ∃ v, v = s.readCheck (d.addr 0x10) n 0x14 ∧
      s.aiStart k = if v.1 = false then v.2.endLong d ⟨0xFF, 0, [0, 0]⟩ else if (s.ai k).cd then v.2.endLong d ⟨0x12, 0, [0, 0]⟩
        else v.2.setOut { d with aux := [1, s.raw, 0, 0, 0] }) ∧
  (∀ (k : Nat) (s : State), Option.all (fun d : Cmd => d.aux != []) (s.aiCmd k) = true → s.aiStart k = s) ∧
  (∀ (c : Fin 64) (d : Cmd) (s : State), s.fskIn c.val 1 = some d → 3 * d.aux.getD 1 0 + 1250000 * (s.rd (F.FLD_AIL1_LEAD c.val) + 11 * d.fld 8 16 8 + 1) ≤ 3 * s.raw →
    d.fld 0xC 16 16 ≠ 0 → (s.ai c.val).cd = false →
    ∃ t, exec (.fskTxEnd c) s = .next t ∧ t = s.setOut { d with aux := [2, s.raw, 0, 0, 0] }) ∧
  (∀ (c : Fin 64) (d : Cmd) (s : State), s.fskIn c.val 1 = some d → 3 * d.aux.getD 1 0 + 1250000 * (s.rd (F.FLD_AIL1_LEAD c.val) + 11 * d.fld 8 16 8 + 1) ≤ 3 * s.raw →
    d.fld 0xC 16 16 = 0 →
    ∃ t, exec (.fskTxEnd c) s = .next t ∧ t = (s.endLong d ⟨0x00, 0, [0, 0]⟩).aiGoOn c.val) ∧
  (∀ (c : Fin 64) (d : Cmd) (s : State), s.fskIn c.val 1 = some d → 3 * d.aux.getD 1 0 + 1250000 * (s.rd (F.FLD_AIL1_LEAD c.val) + 11 * d.fld 8 16 8 + 1) ≤ 3 * s.raw →
    d.fld 0xC 16 16 ≠ 0 → (s.ai c.val).cd = true →
    ∃ t, exec (.fskTxEnd c) s = .next t ∧ t = s.setOut { d with aux := [3, s.raw, 0, s.ntNs % 2 ^ 32, 0] }) ∧
  (∀ (c : Fin 64) (s : State), Option.all (fun d : Cmd => decide (3 * s.raw <
      3 * d.aux.getD 1 0 + 1250000 * (s.rd (F.FLD_AIL1_LEAD c.val) + 11 * d.fld 8 16 8 + 1))) (s.fskIn c.val 1) = true →
    ∃ t, exec (.fskTxEnd c) s = .next t ∧ t = s) ∧
  (∀ (c : Fin 64) (s : State), s.aiLive c.val = false ∨ s.rd (F.FLD_AIL_FSK_EN c.val) = 0 ∨ (s.fskIn c.val 1).isSome = true →
    ∃ t, exec (.fskCarrierDetect c) s = .next t ∧ t = s) ∧
  (∀ (c : Fin 64) (d : Cmd) (s : State), s.aiLive c.val = true → s.rd (F.FLD_AIL_FSK_EN c.val) = 1 → s.fskIn c.val 2 = some d →
    ∃ v t, v = s.setAi c.val { s.ai c.val with cd := true } ∧ exec (.fskCarrierDetect c) s = .next t ∧
      t = v.setOut { d with aux := [3, s.raw, 0, s.ntNs % 2 ^ 32, 0] }) ∧
  (∀ (c : Fin 64) (s : State), s.aiLive c.val = true → s.rd (F.FLD_AIL_FSK_EN c.val) = 1 → s.fskIn c.val 1 = none → s.fskIn c.val 2 = none →
    ∃ t, exec (.fskCarrierDetect c) s = .next t ∧ onlyAi c.val s t ∧ t.ai c.val = { s.ai c.val with cd := true }) ∧
  (∀ (c : Fin 64) (b : Byte) (par frm : Bool) (d : Cmd) (n a r0 nt e : Nat) (s : State), s.fskIn c.val 3 = some d → d.aux = [3, r0, n, nt, e] →
    n < d.fld 0xC 0 8 → a = d.addr 0x18 + 2 * n →
    ∃ v t, v = s.busWrite a (leBytes 2 (b.toNat + 256 * b2n par + 512 * b2n frm)) (s.ctx d.ring).engine.toNat ∧ exec (.fskCharRx c b par frm) s = .next t ∧
      t = v.setOut { d with aux := [3, r0, n + 1, nt, if par = true ∨ frm = true then 1 else e] }) ∧
  (∀ (c : Fin 64) (b : Byte) (par frm : Bool) (s : State), Option.all (fun d : Cmd => decide (d.fld 0xC 0 8 ≤ d.aux.getD 2 0)) (s.fskIn c.val 3) = true →
    ∃ t, exec (.fskCharRx c b par frm) s = .next t ∧ t = s) ∧
  (∀ (c : Fin 64) (d : Cmd) (n r0 nt e : Nat) (s : State), s.fskIn c.val 3 = some d → d.aux = [3, r0, n, nt, e] → d.opcode = 0x17 → d.fld 0xC 0 8 ≤ n →
    ∃ t, exec (.fskRxEnd c false) s = .next t ∧
      t = (s.endLong d ⟨if e = 0 then 0x00 else 0x40, 0, [BitVec.ofNat 32 n, BitVec.ofNat 32 nt]⟩).aiGoOn c.val) ∧
  (∀ (c : Fin 64) (s : State), Option.all (fun d : Cmd => decide (d.aux.getD 2 0 < d.fld 0xC 0 8)) (s.fskIn c.val 3) = true →
    ∃ t, exec (.fskRxEnd c false) s = .next t ∧ t = s) ∧
  (∀ (c : Fin 64) (s : State), Option.all (fun d : Cmd => decide (s.raw < d.aux.getD 1 0 + d.fld 0xC 16 16 * 500000)) (s.fskIn c.val 2) = true →
    ∃ t, exec (.fskRxTimeout c) s = .next t ∧ t = s) ∧
  (∀ (c : Fin 64) (d : Cmd) (n r0 nt e : Nat) (s : State), s.fskIn c.val 3 = some d → d.aux = [3, r0, n, nt, e] → d.opcode = 0x17 →
    ∃ v t, v = s.setAi c.val { s.ai c.val with cd := false } ∧ exec (.fskRxEnd c true) s = .next t ∧
      t = (v.endLong d ⟨if e = 0 then 0x00 else 0x40, 0, [BitVec.ofNat 32 n, BitVec.ofNat 32 nt]⟩).aiGoOn c.val) ∧
  (∀ (c : Fin 64) (s : State), s.fskIn c.val 3 = none →
    ∃ t, exec (.fskRxEnd c true) s = .next t ∧ onlyAi c.val s t ∧ t.ai c.val = { s.ai c.val with cd := false }) ∧
  (∀ (c : Fin 64) (d : Cmd) (s : State), s.fskIn c.val 2 = some d → d.aux.getD 1 0 + d.fld 0xC 16 16 * 500000 ≤ s.raw →
    ∃ t, exec (.fskRxTimeout c) s = .next t ∧ t = (s.endLong d ⟨0x41, 0, [0, 0]⟩).aiGoOn c.val) ∧
  (∀ (k : Nat) (s : State), s.outOf 0x14 ≠ [] → Option.all (fun d : Cmd => d.aux != []) ((s.aiStart k).aiCmd k) = true → s.aiGoOn k = s.aiStart k) ∧
  (∀ (k : Nat) (s : State), s.outOf 0x14 = [] → s.aiGoOn k = s)

/-- The Safety Sequencer's evaluations and timers (R470, R471, R474 to R479): demands and automatic restarts of a block, channels of the
sequencer that differ, a level that holds its filter time, a discrepancy, a feedback fault and an expired Degraded timer. A clause that
ends in t = s (an event before its instant or without its condition changes nothing) is the model's choice, notes/assumptions/2.md. Where
the clauses meet what notes/assumptions/65.md records, they say the model's choice. -/
def Obligations.SafetyBlocks : Prop :=
  (∀ (n : Nat) (s : State), s.running = true → s.acts = true → s.raw % 4000 = 3500 → s.saf.evalAt ≠ some s.raw → n < 32 → s.rd (F.SAF_BCTL_EN n) = 1 →
    (∀ k ∈ List.range 32, k ≠ n → s.rd (F.SAF_BCTL_EN k) = 0) → s.safState n = 2 → s.safCause n 0 = 0 → s.safCause n 1 = 0 → s.inputsAtRun n = false →
    ∃ t, exec (.safEvaluation false) s = .next t ∧ t.safState n = 1 ∧ t.rd (F.SAF_BSTAT_PERMIT1 n) = 0 ∧ t.rd (F.SAF_BSTAT_PERMIT2 n) = 0 ∧
      raised [(384, [BitVec.ofNat 32 (n + 256 * 2 + 4096)])] s t ∧ t.saf.differ = 0 ∧
      t = { s with regs := t.regs, evt := t.evt, saf := t.saf } ∧
      onlyFlds [F.SAF_BSTAT_STATE n, F.SAF_BSTAT_PERMIT1 n, F.SAF_BSTAT_PERMIT2 n, F.SAF_STAT_DEGRADED, F.SAF_STAT_TRIPPED] s t) ∧
  (∀ (n : Nat) (s : State), s.running = true → s.acts = true → s.raw % 4000 = 3500 → s.saf.evalAt ≠ some s.raw → n < 32 → s.rd (F.SAF_BCTL_EN n) = 1 →
    (∀ k ∈ List.range 32, k ≠ n → s.rd (F.SAF_BCTL_EN k) = 0) → s.safState n = 1 → s.safCause n 0 = 0 → s.safCause n 1 = 0 → s.inputsAtRun n = true →
    s.rd (F.SAF_BCTL_RST_MODE n) = 1 → s.rd (F.SAF_BSTAT_RESTART n) = 0 →
    ∃ t, exec (.safEvaluation false) s = .next t ∧ t.safState n = 2 ∧ t.rd (F.SAF_BSTAT_PERMIT1 n) = s.rd (F.SAF_BOUT_OUT1_EN n) ∧
      t.rd (F.SAF_BSTAT_PERMIT2 n) = s.rd (F.SAF_BOUT_OUT2_EN n) ∧ raised [(384, [BitVec.ofNat 32 (n + 256 + 4096 * 2)])] s t ∧
      t = { s with regs := t.regs, evt := t.evt, saf := t.saf } ∧
      onlyFlds [F.SAF_BSTAT_STATE n, F.SAF_BSTAT_PERMIT1 n, F.SAF_BSTAT_PERMIT2 n, F.SAF_STAT_DEGRADED, F.SAF_STAT_TRIPPED] s t) ∧
  (∀ (differ : Bool) (s : State), s.running = true → s.acts = true → s.raw % 4000 = 3500 → s.saf.evalAt ≠ some s.raw → s.saf.differ = 0 →
    (∀ k ∈ List.range 32, s.rd (F.SAF_BCTL_EN k) = 0) →
    ∃ t, exec (.safEvaluation differ) s = .next t ∧ t = { s with saf := { s.saf with differ := b2n differ, evalAt := some s.raw } }) ∧
  (∀ s : State, s.running = true → s.acts = true → s.raw % 4000 = 3500 → s.saf.evalAt ≠ some s.raw → s.saf.differ = 1 → s.safGated = [] → (∀ k ∈ List.range 32, s.rd (F.SAF_BCTL_EN k) = 0) →
    ∃ v t, v = State.wr ((List.range 32).foldl (fun (u : State) (n : Nat) => u.safBoth n false) { s with saf := { s.saf with evalAt := some s.raw } }) F.SAF_STAT_SEQ_ERR 1 ∧ v.rd F.SAF_STAT_SEQ_ERR = 1 ∧
      (∀ n < 32, v.rd (F.SAF_BSTAT_PERMIT1 n) = 0 ∧ v.rd (F.SAF_BSTAT_PERMIT2 n) = 0) ∧ exec (.safEvaluation true) s = .next t ∧ safeFrom 7 v t) ∧
  (∀ (s : State), s.running = true → s.acts = true → s.raw % 4000 = 3500 → s.saf.evalAt ≠ some s.raw → s.saf.differ = 1 →
    ∃ v t, v = State.wr ((List.range 32).foldl (fun (u : State) (n : Nat) => u.safBoth n false) { s with saf := { s.saf with evalAt := some s.raw } })
        F.SAF_STAT_SEQ_ERR 1 ∧ exec (.safEvaluation true) s = .next t ∧ t = v.enterSafe 7) ∧
  (∀ (differ : Bool) (s : State), s.running = true → s.acts = true → s.raw % 4000 = 3500 → s.saf.evalAt ≠ some s.raw → differ = false ∨ s.saf.differ ≠ 1 →
    ∃ v t, v = { s with saf := { s.saf with differ := b2n differ, evalAt := some s.raw } } ∧ exec (.safEvaluation differ) s = .next t ∧
      t = (List.range 32).foldl State.safEvalBlock v) ∧
  (∀ (differ : Bool) (s : State), s.running = false ∨ s.acts = false ∨ s.raw % 4000 ≠ 3500 ∨ s.saf.evalAt = some s.raw →
    ∃ t, exec (.safEvaluation differ) s = .next t ∧ t = s) ∧
  (∀ (n : Nat) (s : State), s.rd (F.SAF_BCTL_EN n) = 0 ∨ s.safState n = 0 ∨ s.safe = true → s.safEvalBlock n = s) ∧
  (∀ (n : Nat) (s : State), s.rd (F.SAF_BCTL_EN n) = 1 → s.safState n ≠ 0 → s.safe = false →
    s.safEvalBlock n = ((s.safJudge n).safTimers n).safDemand n) ∧
  (∀ (n : Nat) (s : State), s.safCause n 0 ≠ 0 → s.safCause n 1 ≠ 0 → s.safState n ≠ 4 →
    s.safJudge n = ((s.safMark n 0 (s.safCause n 0)).safMark n 1 (s.safCause n 1)).safTrip n (s.safCause n 0) true) ∧
  (∀ (n x : Nat) (s : State), x < 2 → s.safCause n x ≠ 0 → s.safCause n (1 - x) = 0 → s.safJudge n = s.safFault n x (s.safCause n x)) ∧
  (∀ (n x : Nat) (s : State), s.safFaulty n x = false →
    s.safCause n x = (if s.safTpEn n x = true ∧ s.tpsFault (s.safTps n x) = true then 2 else if s.safLinkBad n x then 3 else if s.safOutBad n x then 6 else 0)) ∧
  (∀ (n : Nat) (s : State), s.safState n = 3 → s.inputsAtRun n = false → s.safDemand n = s.safAllow n (if s.safFaulty n 0 then 1 else 0) false) ∧
  (∀ (n : Nat) (s : State), s.safState n = 3 → s.inputsAtRun n = true → s.rd (F.SAF_BCTL_RST_MODE n) = 1 → s.rd (F.SAF_BSTAT_RESTART n) = 0 →
    s.safDemand n = s.safAllow n (if s.safFaulty n 0 then 1 else 0) true) ∧
  (∀ (n : Nat) (s : State), (s.safState n = 2 ∧ s.inputsAtRun n = true) ∨ s.safState n = 4 ∨
      ((s.safState n = 1 ∨ s.safState n = 3) ∧ s.inputsAtRun n = true ∧ (s.rd (F.SAF_BCTL_RST_MODE n) = 0 ∨ s.rd (F.SAF_BSTAT_RESTART n) = 1)) ∨
      (s.safState n = 1 ∧ s.inputsAtRun n = false) → s.safDemand n = s) ∧
  (∀ (n x : Nat) (s : State), x < 2 → s.safPulsed n 0 = false → s.safPulsed n 1 = false → s.safState n ≠ 3 →
    (s.safTimers n).safBlk n = { s.safBlk n with
        discFrom := if s.safFaulty n 0 = false ∧ s.safFaulty n 1 = false ∧ s.safState n ≠ 4 ∧ s.atRunLevel n 0 ≠ s.atRunLevel n 1
          then some ((s.safBlk n).discFrom.getD s.raw) else none } ∧
      (s.safTimers n).safCh n x = { s.safCh n x with
        fbFrom := if s.fbDiffers n x then some ((s.safCh n x).fbFrom.getD s.raw) else none } ∧ (s.safTimers n).regs = s.regs) ∧
  (∀ (n : Fin 32) (x : Fin 2) (r : Nat) (s : State), (s.safCh n.val x.val).newFrom = some r → s.running = true → s.acts = true →
    s.rd (F.SAF_BCTL_EN n.val) = 1 → r + s.rd (F.SAF_BCTL_IN_FILT n.val) * 50000 ≤ s.raw →
    s.safTpEn n.val x.val = false ∨ s.inMask (s.safTps n.val x.val) s.raw = false →
    ∃ t, exec (.safInFiltExpiry n x) s = .next t ∧ onlySafCh n.val x.val s t ∧ t.safCh n.val x.val = { s.safCh n.val x.val with
        level := !(s.safCh n.val x.val).level, newFrom := none }) ∧
  (∀ (n : Fin 32) (x : Fin 2) (r : Nat) (s : State), (s.safCh n.val x.val).newFrom = some r → s.safTpEn n.val x.val = true →
    s.inMask (s.safTps n.val x.val) s.raw = true →
    ∃ t, exec (.safInFiltExpiry n x) s = .next t ∧ t = s) ∧
  (∀ (n : Fin 32) (x : Fin 2) (s : State), s.running = false ∨ s.acts = false ∨ s.rd (F.SAF_BCTL_EN n.val) = 0 ∨
      Option.all (fun r : Nat => decide (s.raw < r + s.rd (F.SAF_BCTL_IN_FILT n.val) * 50000)) (s.safCh n.val x.val).newFrom = true →
    ∃ t, exec (.safInFiltExpiry n x) s = .next t ∧ t = s) ∧
  (∀ (n : Fin 32) (r : Nat) (s : State), (s.safBlk n.val).discFrom = some r → s.running = true → s.acts = true →
    r + s.rd (F.SAF_BCTL_DISC_TIME n.val) * 5000000 < s.raw →
    ∃ t, exec (.safDiscrepancy n) s = .next t ∧ t = s.safTrip n.val 4 true) ∧
  (∀ (n : Fin 32) (s : State), s.running = false ∨ s.acts = false ∨
      Option.all (fun r : Nat => decide (s.raw ≤ r + s.rd (F.SAF_BCTL_DISC_TIME n.val) * 5000000)) (s.safBlk n.val).discFrom = true →
    ∃ t, exec (.safDiscrepancy n) s = .next t ∧ t = s) ∧
  (∀ (n : Nat) (cause : Nat) (e : Bool) (v0 : State) (s : State), v0 = (((s.safBoth n false).wr (F.SAF_BSTAT_CAUSE n) cause).wr (F.SAF_BSTAT_DEG_LEFT n) 0).setSafBlk n ⟨none, 0⟩ →
    ∃ v, v = (v0.safTo n 4).raise 386 [BitVec.ofNat 32 (n + 4096 * cause + 65536 * v0.rd (F.SAF_BCTL_ESCALATE n))] ∧
      s.safTrip n cause e = (if e = true ∧ s.rd (F.SAF_BCTL_ESCALATE n) = 1 then v.enterSafe 7 else v)) ∧
  (∀ (n : Fin 32) (r : Nat) (s : State), (s.safBlk n.val).discFrom = some r → s.running = true → s.acts = true →
    r + s.rd (F.SAF_BCTL_DISC_TIME n.val) * 5000000 < s.raw → s.rd (F.SAF_BCTL_ESCALATE n.val) = 0 → s.safState n.val ≠ 4 →
    ∃ t, exec (.safDiscrepancy n) s = .next t ∧ blockTripped n.val 4 s t ∧
      raised [(384, [BitVec.ofNat 32 (n.val + 256 * s.safState n.val + 4096 * 4)]), (386, [BitVec.ofNat 32 (n.val + 4096 * 4)])] s t) ∧
  (∀ (n : Fin 32) (r : Nat) (s : State), (s.safBlk n.val).discFrom = some r → s.running = true → s.acts = true →
    r + s.rd (F.SAF_BCTL_DISC_TIME n.val) * 5000000 < s.raw → s.rd (F.SAF_BCTL_ESCALATE n.val) = 1 → s.safState n.val ≠ 4 →
    ∃ t, exec (.safDiscrepancy n) s = .next t ∧ t.rd F.LANE_STAT_SAFE = 1 ∧ t.rd F.LANE_SAFECAUSE_CAUSE = 7 ∧ t.safState n.val = 4) ∧
  (∀ (n : Fin 32) (x : Fin 2) (r : Nat) (s : State), (s.safCh n.val x.val).fbFrom = some r → s.running = true → s.acts = true →
    r + 75000000 < s.raw → s.safFaulty n.val x.val = false → s.safState n.val = 2 → 0 < s.rd (F.SAF_BIN_DEG_LIMIT n.val) →
    ∃ t, exec (.safFeedbackTimeout n x) s = .next t ∧ t.safState n.val = 3 ∧ t.rd (safFlt n.val x.val) = 1 ∧ t.rd (safPermit n.val x.val) = 0 ∧
      t.rd (F.SAF_BSTAT_CAUSE n.val) = 5 ∧ counted F.SAF_CNT_FB_FAILS s t ∧ (t.safCh n.val x.val).cause = 5 ∧
      t.safBlk n.val = (⟨none, s.raw + s.rd (F.SAF_BIN_DEG_LIMIT n.val) * 500000000⟩ : SafBlk) ∧ t.rd F.SAF_STAT_DEGRADED = 1 ∧
      raised [(384, [BitVec.ofNat 32 (n.val + 256 * 2 + 4096 * 3)]), (385, [BitVec.ofNat 32 (n.val + 256 * x.val + 4096 * 5)])] s t ∧
      t = { s with regs := t.regs, evt := t.evt, saf := t.saf } ∧
      onlyFlds [F.SAF_BSTAT_STATE n.val, safFlt n.val x.val, safPermit n.val x.val, F.SAF_BSTAT_CAUSE n.val, F.SAF_BSTAT_DEG_LEFT n.val,
        F.SAF_CNT_FB_FAILS, F.SAF_STAT_DEGRADED, F.SAF_STAT_TRIPPED] s t) ∧
  (∀ (n : Fin 32) (x : Fin 2) (r : Nat) (s : State), (s.safCh n.val x.val).fbFrom = some r → s.running = true → s.acts = true →
    r + 75000000 < s.raw → s.safFaulty n.val x.val = false → s.safState n.val = 3 → s.rd (F.SAF_BCTL_ESCALATE n.val) = 0 →
    ∃ t, exec (.safFeedbackTimeout n x) s = .next t ∧ blockTripped n.val 5 s t) ∧
  (∀ (n : Fin 32) (x : Fin 2) (r : Nat) (s : State), (s.safCh n.val x.val).fbFrom = some r → s.running = true → s.acts = true → r + 75000000 < s.raw →
    ∃ t, exec (.safFeedbackTimeout n x) s = .next t ∧ t = s.safFault n.val x.val 5) ∧
  (∀ (n : Fin 32) (x : Fin 2) (s : State), s.running = false ∨ s.acts = false ∨
      Option.all (fun r : Nat => decide (s.raw ≤ r + 75000000)) (s.safCh n.val x.val).fbFrom = true →
    ∃ t, exec (.safFeedbackTimeout n x) s = .next t ∧ t = s) ∧
  (∀ (n x cause : Nat) (s : State), s.safFaulty n x = true ∨ s.safState n = 0 → s.safFault n x cause = s) ∧
  (∀ (n x cause : Nat) (s : State), s.safFaulty n x = false → s.safState n ≠ 0 → n < 32 → x < 2 →
    s.safFault n x cause = (if s.safState n = 4 then s.safMark n x cause
      else if s.safState n = 3 ∨ s.rd (F.SAF_BIN_DEG_LIMIT n) = 0 then (s.safMark n x cause).safTrip n cause true
      else (s.safMark n x cause).safDegrade n x cause)) ∧
  (∀ (n : Fin 32) (s : State), s.running = true → s.acts = true → s.safState n.val = 3 → (s.safBlk n.val).degEnd ≤ s.raw →
    ∃ t, exec (.safDegExpiry n) s = .next t ∧ t = s.safTrip n.val 7 true) ∧
  (∀ (n : Fin 32) (s : State), s.running = false ∨ s.acts = false ∨ s.safState n.val ≠ 3 ∨ s.raw < (s.safBlk n.val).degEnd →
    ∃ t, exec (.safDegExpiry n) s = .next t ∧ t = s) ∧
  (∀ (n : Fin 32) (s : State), s.running = true → s.acts = true → s.safState n.val = 3 → (s.safBlk n.val).degEnd ≤ s.raw →
    s.rd (F.SAF_BCTL_ESCALATE n.val) = 0 →
    ∃ t, exec (.safDegExpiry n) s = .next t ∧ blockTripped n.val 7 s t ∧
      raised [(384, [BitVec.ofNat 32 (n.val + 256 * 3 + 4096 * 4)]), (386, [BitVec.ofNat 32 (n.val + 4096 * 7)])] s t)

/-- Test pulses and the Sequencer's commands (R464 to R469, R473, R481, R483): a pulse and its end, the check of an input, an overload,
the supply of a safety island, SAF_RESET and SAF_STATUS. A clause that ends in t = s (an event before its instant or without its condition
changes nothing) is the model's choice, notes/assumptions/2.md. Where the clauses meet what notes/assumptions/65.md records, they say the
model's choice. -/
def Obligations.TestPulsesAndResets : Prop :=
  (∀ (k : Fin 16) (s : State), s.tpsLive k.val = true → s.pulses k.val (s.raw / 500000) = true → 127500 ≤ s.raw % 500000 → s.raw % 500000 < 378000 →
    ∃ t, exec (.tpsPulseStart k) s = .next t ∧ onlyTps k.val s t ∧ t.tps k.val = { s.tps k.val with pulsing := true }) ∧
  (∀ (k : Fin 16) (s : State), s.tpsLive k.val = false ∨ s.pulses k.val (s.raw / 500000) = false ∨ s.raw % 500000 < 127500 ∨ 378000 ≤ s.raw % 500000 → ∃ t, exec (.tpsPulseStart k) s = .next t ∧ t = s) ∧
  (∀ (k : Fin 16) (stuck : Bool) (s : State), (s.tps k.val).pulsing = true → 377500 ≤ s.raw % 500000 →
    ∃ t, exec (.tpsPulseEnd k stuck) s = .next t ∧ onlyTps k.val s t ∧ t.tps k.val = { s.tps k.val with pulsing := false, stuck := stuck }) ∧
  (∀ (k : Fin 16) (stuck : Bool) (s : State), (s.tps k.val).pulsing = false ∨ s.raw % 500000 < 377500 →
    ∃ t, exec (.tpsPulseEnd k stuck) s = .next t ∧ t = s) ∧
  (∀ (n : Fin 32) (x : Fin 2) (s : State), s.running = true → s.acts = true → s.rd (F.SAF_BCTL_EN n.val) = 1 → s.safTpEn n.val x.val = true →
    s.pulses (s.safTps n.val x.val) (s.raw / 500000) = true → 381840 ≤ s.raw % 500000 → (s.safCh n.val x.val).slot = s.raw / 500000 → 4 ≤ (s.safCh n.val x.val).samples →
    (s.safCh n.val x.val).ones = 0 → s.tpsFault (s.safTps n.val x.val) = false →
    ∃ t, exec (.tpCheckEnd n x) s = .next t ∧ onlySafCh n.val x.val s t ∧ t.safCh n.val x.val = { s.safCh n.val x.val with
        samples := 0, ones := 0, passed := min 3 ((s.safCh n.val x.val).passed + 1) }) ∧
  (∀ (n : Fin 32) (x : Fin 2) (s : State), s.running = true → s.acts = true → s.rd (F.SAF_BCTL_EN n.val) = 1 → s.safTpEn n.val x.val = true →
    s.pulses (s.safTps n.val x.val) (s.raw / 500000) = true → 381840 ≤ s.raw % 500000 → (s.safCh n.val x.val).slot = s.raw / 500000 → 4 ≤ (s.safCh n.val x.val).samples →
    0 < (s.safCh n.val x.val).ones → s.safFaulty n.val x.val = false → s.safState n.val = 2 → s.rd (F.SAF_BIN_DEG_LIMIT n.val) = 0 →
    s.rd (F.SAF_BCTL_ESCALATE n.val) = 0 →
    ∃ t, exec (.tpCheckEnd n x) s = .next t ∧ blockTripped n.val 1 s t ∧ counted F.SAF_CNT_TP_FAILS s t ∧ t.rd (safFlt n.val x.val) = 1 ∧
      raised [(387, [BitVec.ofNat 32 (s.safTps n.val x.val + 256 * s.safIn n.val x.val)]), (384, [BitVec.ofNat 32 (n.val + 256 * 2 + 4096 * 4)]),
        (386, [BitVec.ofNat 32 (n.val + 4096)])] s t) ∧
  (∀ (n : Fin 32) (x : Fin 2) (s : State), s.running = true → s.acts = true → s.rd (F.SAF_BCTL_EN n.val) = 1 → s.safTpEn n.val x.val = true →
    s.pulses (s.safTps n.val x.val) (s.raw / 500000) = true → 381840 ≤ s.raw % 500000 → (s.safCh n.val x.val).slot = s.raw / 500000 → (s.safCh n.val x.val).samples < 4 →
    ∃ t, exec (.tpCheckEnd n x) s = .next t ∧ onlySafCh n.val x.val s t ∧ t.safCh n.val x.val = { s.safCh n.val x.val with
        samples := 0, ones := 0, passed := 0 }) ∧
  (∀ (n : Fin 32) (x : Fin 2) (s : State), s.running = true → s.acts = true → s.rd (F.SAF_BCTL_EN n.val) = 1 → s.safTpEn n.val x.val = true →
    s.pulses (s.safTps n.val x.val) (s.raw / 500000) = true → 381840 ≤ s.raw % 500000 → (s.safCh n.val x.val).slot = s.raw / 500000 →
    4 ≤ (s.safCh n.val x.val).samples → 0 < (s.safCh n.val x.val).ones → s.safFaulty n.val x.val = false →
    ∃ v t, v = s.setSafCh n.val x.val { s.safCh n.val x.val with
        samples := 0, ones := 0, passed := 0 } ∧ exec (.tpCheckEnd n x) s = .next t ∧ t = v.safFault n.val x.val 1) ∧
  (∀ (n : Fin 32) (x : Fin 2) (s : State), s.running = true → s.acts = true → s.rd (F.SAF_BCTL_EN n.val) = 1 → s.safTpEn n.val x.val = true →
    s.pulses (s.safTps n.val x.val) (s.raw / 500000) = true → 381840 ≤ s.raw % 500000 → (s.safCh n.val x.val).slot = s.raw / 500000 →
    4 ≤ (s.safCh n.val x.val).samples → 0 < (s.safCh n.val x.val).ones → s.safFaulty n.val x.val = true →
    ∃ v t, v = s.setSafCh n.val x.val { s.safCh n.val x.val with
        samples := 0, ones := 0, passed := 0 } ∧ exec (.tpCheckEnd n x) s = .next t ∧ counted F.SAF_CNT_TP_FAILS v t ∧
      t = (v.satAdd F.SAF_CNT_TP_FAILS 1).raise 387 [BitVec.ofNat 32 (s.safTps n.val x.val + 256 * s.safIn n.val x.val)]) ∧
  (∀ (n : Fin 32) (x : Fin 2) (s : State), s.running = true → s.acts = true → s.rd (F.SAF_BCTL_EN n.val) = 1 → s.safTpEn n.val x.val = true →
    s.pulses (s.safTps n.val x.val) (s.raw / 500000) = true → 381840 ≤ s.raw % 500000 →
    (s.safCh n.val x.val).slot ≠ s.raw / 500000 ∨ (s.safCh n.val x.val).samples < 4 ∨ ((s.safCh n.val x.val).ones = 0 ∧ s.tpsFault (s.safTps n.val x.val) = true) →
    ∃ t, exec (.tpCheckEnd n x) s = .next t ∧ t = s.setSafCh n.val x.val { s.safCh n.val x.val with
        samples := 0, ones := 0, passed := 0 }) ∧
  (∀ (n : Fin 32) (x : Fin 2) (s : State), s.running = false ∨ s.acts = false ∨ s.rd (F.SAF_BCTL_EN n.val) = 0 ∨ s.safTpEn n.val x.val = false ∨
    s.pulses (s.safTps n.val x.val) (s.raw / 500000) = false ∨ s.raw % 500000 < 381840 →
    ∃ t, exec (.tpCheckEnd n x) s = .next t ∧ t = s) ∧
  (∀ (k : Fin 16) (limit : Bool) (s : State), s.tpsLive k.val = true →
    ∃ t, exec (.tpsOverload k limit) s = .next t ∧ onlyTps k.val s t ∧ t.tps k.val = { s.tps k.val with ovl := limit }) ∧
  (∀ (k : Fin 16) (limit : Bool) (s : State), s.tpsLive k.val = false → ∃ t, exec (.tpsOverload k limit) s = .next t ∧ t = s) ∧
  (∀ (k : Fin 2) (mV : BitVec 16) (temp : Byte) (s : State), s.phase ≠ Phase.reset → s.pwr.state ≠ PowerState.e3 →
    ∃ t, exec (.vsSafLow k mV temp) s = .next t ∧ onlyIsl (56 + k.val) s t ∧ t.isl (56 + k.val) = { s.isl (56 + k.val) with
        low := if mV.toNat < 18000 then true else if 18500 ≤ mV.toNat then false else (s.isl (56 + k.val)).low, volt := mV, temp := temp }) ∧
  (∀ (k : Fin 2) (mV : BitVec 16) (temp : Byte) (s : State), s.phase = Phase.reset ∨ s.pwr.state = PowerState.e3 →
    ∃ t, exec (.vsSafLow k mV temp) s = .next t ∧ t = s) ∧
  (∀ (c : Cmd) (n : Nat) (s : State), inHand 0x15 0x10 c s → c.headerOk = true → n = c.fld 8 0 5 → c.fld 8 5 27 = 0 → c.zeroFrom 0xC = true →
    s.rd (F.SAF_BCTL_EN n) = 1 → (s.ctx c.ring).mp = false → s.rd (F.SAF_BCTL_PART n) = (s.cmdPart c).toNat → s.safState n = 1 → s.inputsAtRun n = true →
    ∃ v t, v = ((s.safBoth n true).wr (F.SAF_BSTAT_RESTART n) 0).safTo n 2 ∧ v.safState n = 2 ∧ v.rd (F.SAF_BSTAT_PERMIT1 n) = s.rd (F.SAF_BOUT_OUT1_EN n) ∧
      v.rd (F.SAF_BSTAT_PERMIT2 n) = s.rd (F.SAF_BOUT_OUT2_EN n) ∧ raised [(384, [BitVec.ofNat 32 (n + 256 + 4096 * 2)])] s v ∧
      exec .safReset s = .next t ∧ t = v.finish 0x15 c ⟨0x00, 0, [2]⟩) ∧
  (∀ (c : Cmd) (n : Nat) (s : State), inHand 0x15 0x10 c s → c.headerOk = true → n = c.fld 8 0 5 → c.fld 8 5 27 = 0 → c.zeroFrom 0xC = true →
    s.rd (F.SAF_BCTL_EN n) = 1 → (s.ctx c.ring).mp = false → s.rd (F.SAF_BCTL_PART n) = (s.cmdPart c).toNat → s.safState n = 1 → s.inputsAtRun n = false →
    ∃ v t, v = s.raise 388 [BitVec.ofNat 32 (n + 65536)] ∧ exec .safReset s = .next t ∧ t = v.finish 0x15 c ⟨0x00, 1, [1]⟩) ∧
  (∀ (c : Cmd) (n : Nat) (s : State), inHand 0x15 0x10 c s → c.headerOk = true → n = c.fld 8 0 5 → c.fld 8 5 27 = 0 → c.zeroFrom 0xC = true →
    s.rd (F.SAF_BCTL_EN n) = 1 → (s.ctx c.ring).mp = false → s.rd (F.SAF_BCTL_PART n) = (s.cmdPart c).toNat → s.safState n = 4 →
    s.causePresent n 0 = false → s.causePresent n 1 = false → (s.safClearFaults n).inputsAtRun n = true →
    ∃ v t, v = (s.safClearFaults n).safRun n ∧ v.safState n = 2 ∧ v.rd (F.SAF_BSTAT_CH1_FLT n) = 0 ∧ v.rd (F.SAF_BSTAT_CH2_FLT n) = 0 ∧
      v.rd (F.SAF_BSTAT_CAUSE n) = 0 ∧ exec .safReset s = .next t ∧ t = v.finish 0x15 c ⟨0x00, 0, [2]⟩) ∧
  (∀ (c : Cmd) (n : Nat) (s : State), inHand 0x15 0x10 c s → c.headerOk = true → n = c.fld 8 0 5 → c.fld 8 5 27 = 0 → c.zeroFrom 0xC = true →
    s.rd (F.SAF_BCTL_EN n) = 1 → (s.ctx c.ring).mp = true ∨ s.rd (F.SAF_BCTL_PART n) ≠ (s.cmdPart c).toNat →
    ∃ t, exec .safReset s = .next t ∧ t = s.finish 0x15 c ⟨0x21, 0, []⟩) ∧
  (∀ (c : Cmd) (s : State), inHand 0x15 0x10 c s → c.headerOk = false ∨ c.fld 8 5 27 ≠ 0 ∨ c.zeroFrom 0xC = false ∨ s.rd (F.SAF_BCTL_EN (c.fld 8 0 5)) = 0 →
    ∃ t, exec .safReset s = .next t ∧ t = s.finish 0x15 c ⟨0x20, 0, []⟩) ∧
  (∀ (c : Cmd) (n : Nat) (s : State), inHand 0x15 0x10 c s → c.headerOk = true → n = c.fld 8 0 5 → c.fld 8 5 27 = 0 → c.zeroFrom 0xC = true →
    s.rd (F.SAF_BCTL_EN n) = 1 → (s.ctx c.ring).mp = false → s.rd (F.SAF_BCTL_PART n) = (s.cmdPart c).toNat → s.safState n = 2 →
    ∃ v t, v = s.raise 388 [BitVec.ofNat 32 (n + 65536 * 4)] ∧ exec .safReset s = .next t ∧ t = v.finish 0x15 c ⟨0x00, 4, [2]⟩) ∧
  (∀ (c : Cmd) (n : Nat) (s : State), inHand 0x15 0x10 c s → c.headerOk = true → n = c.fld 8 0 5 → c.fld 8 5 27 = 0 → c.zeroFrom 0xC = true →
    s.rd (F.SAF_BCTL_EN n) = 1 → (s.ctx c.ring).mp = false → s.rd (F.SAF_BCTL_PART n) = (s.cmdPart c).toNat → s.safState n = 3 → s.inputsAtRun n = false →
    ∃ v t, v = s.raise 388 [BitVec.ofNat 32 (n + 65536)] ∧ exec .safReset s = .next t ∧ t = v.finish 0x15 c ⟨0x00, 1, [3]⟩) ∧
  (∀ (c : Cmd) (n : Nat) (s : State), inHand 0x15 0x10 c s → c.headerOk = true → n = c.fld 8 0 5 → c.fld 8 5 27 = 0 → c.zeroFrom 0xC = true →
    s.rd (F.SAF_BCTL_EN n) = 1 → (s.ctx c.ring).mp = false → s.rd (F.SAF_BCTL_PART n) = (s.cmdPart c).toNat → s.safState n = 3 → s.inputsAtRun n = true → s.causePresent n 0 = true ∨ s.causePresent n 1 = true →
    ∃ v t, v = (State.wr (s.safAllow n (if s.safFaulty n 0 then 1 else 0) true) (F.SAF_BSTAT_RESTART n) 0).raise 388 [BitVec.ofNat 32 (n + 65536 * 2)] ∧
      v.safState n = 3 ∧ exec .safReset s = .next t ∧ t = v.finish 0x15 c ⟨0x00, 2, [3]⟩) ∧
  (∀ (c : Cmd) (n : Nat) (s : State), inHand 0x15 0x10 c s → c.headerOk = true → n = c.fld 8 0 5 → c.fld 8 5 27 = 0 → c.zeroFrom 0xC = true →
    s.rd (F.SAF_BCTL_EN n) = 1 → (s.ctx c.ring).mp = false → s.rd (F.SAF_BCTL_PART n) = (s.cmdPart c).toNat → s.safState n = 3 → s.inputsAtRun n = true → s.causePresent n 0 = false → s.causePresent n 1 = false →
    ∃ v t, v = (s.safClearFaults n).safRun n ∧ v.safState n = 2 ∧ exec .safReset s = .next t ∧ t = v.finish 0x15 c ⟨0x00, 0, [2]⟩) ∧
  (∀ (c : Cmd) (n : Nat) (s : State), inHand 0x15 0x10 c s → c.headerOk = true → n = c.fld 8 0 5 → c.fld 8 5 27 = 0 → c.zeroFrom 0xC = true →
    s.rd (F.SAF_BCTL_EN n) = 1 → (s.ctx c.ring).mp = false → s.rd (F.SAF_BCTL_PART n) = (s.cmdPart c).toNat → s.safState n = 4 → s.causePresent n 0 = true ∨ s.causePresent n 1 = true →
    ∃ v t, v = s.raise 388 [BitVec.ofNat 32 (n + 65536 * 3)] ∧ exec .safReset s = .next t ∧ t = v.finish 0x15 c ⟨0x00, 3, [4]⟩) ∧
  (∀ (c : Cmd) (n : Nat) (s : State), inHand 0x15 0x10 c s → c.headerOk = true → n = c.fld 8 0 5 → c.fld 8 5 27 = 0 → c.zeroFrom 0xC = true →
    s.rd (F.SAF_BCTL_EN n) = 1 → (s.ctx c.ring).mp = false → s.rd (F.SAF_BCTL_PART n) = (s.cmdPart c).toNat → s.safState n = 4 → s.causePresent n 0 = false → s.causePresent n 1 = false →
    (s.safClearFaults n).inputsAtRun n = false →
    ∃ v t, v = (State.wr (s.safClearFaults n) (F.SAF_BSTAT_RESTART n) 1).safTo n 1 ∧ v.safState n = 1 ∧ v.rd (F.SAF_BSTAT_RESTART n) = 1 ∧
      exec .safReset s = .next t ∧ t = v.finish 0x15 c ⟨0x00, 0, [1]⟩) ∧
  (∀ (c : Cmd) (a : Nat) (s : State), inHand 0x15 0x11 c s → c.headerOk = true → c.word 8 = 0 → c.word 0xC = 0 → c.fld 0x14 8 24 = 0 →
    c.zeroFrom 0x18 = true → a = c.addr 0x10 → a % 128 = 0 → s.engineMayWrite a 128 = true →
    ∃ v t, v = s.busWrite a (wordBytes ((List.range 32).map (fun n => s.reg (Reg.SAF_BSTAT n)))) (s.ctx c.ring).engine.toNat ∧
      exec .safStatus s = .next t ∧ t = v.finish 0x15 c ⟨0x00, 0, []⟩) ∧
  (∀ (c : Cmd) (s : State), inHand 0x15 0x11 c s → c.headerOk = false ∨ c.word 8 ≠ 0 ∨ c.word 0xC ≠ 0 ∨ c.fld 0x14 8 24 ≠ 0 ∨ c.zeroFrom 0x18 = false ∨
    c.addr 0x10 % 128 ≠ 0 ∨ s.engineMayWrite (c.addr 0x10) 128 = false →
    ∃ t, exec .safStatus s = .next t ∧ t = s.finish 0x15 c ⟨0x20, 0, []⟩) ∧
  (∀ s : State, s.hand 0x15 = none ∨ s.running = false → ∃ t v, exec .safReset s = .next t ∧ exec .safStatus s = .next v ∧ t = s ∧ v = s) ∧
  (∀ (c : Cmd) (a : Nat) (s : State), inHand 0x15 0x11 c s → c.headerOk = true → c.word 8 = 0 → c.word 0xC = 0 → c.fld 0x14 8 24 = 0 →
    c.zeroFrom 0x18 = true → a = c.addr 0x10 → a % 128 = 0 → s.engineMayWrite a 128 = true → s.ecc = [] → s.pairOn = false →
    ∃ v t, v = (s.dropResv a 128).setBytes a (wordBytes ((List.range 32).map (fun n => s.reg (Reg.SAF_BSTAT n)))) ∧ v.words a 2 = [s.reg (Reg.SAF_BSTAT 0), s.reg (Reg.SAF_BSTAT 1)] ∧
      sameMemBut a 128 s v ∧ exec .safStatus s = .next t ∧ t = v.finish 0x15 c ⟨0x00, 0, []⟩)

/-- Joining a pair and its heartbeats (R493, R500, R502, R506): the key and its timeout, a lane of the link, a heartbeat sent, and one
heard by an Active, a Banked, a Reviving and a joining module. A clause that ends in t = s (an event before its instant or without its
condition changes nothing) is the model's choice, notes/assumptions/2.md. Where the clauses meet what notes/assumptions/66.md,
notes/assumptions/68.md, notes/assumptions/69.md record, they say the model's choice. -/
def Obligations.PairJoinsAndHeartbeats : Prop :=
  (∀ (who : Requester) (w : Word) (s : State), s.mustWait = false → s.phase = Phase.setup → s.pairOn = true → w.toNat % 65536 = 0x504A → s.rd F.PAIR_STAT_JOINED = 0 →
    s.pair.join = none →
    ∃ t, exec (.pairJoin who w) s = .next t ∧ t = { s with pair := { s.pair with join := some (s.raw, w.getLsbD 16 && byMp who) } }) ∧
  (∀ (who : Requester) (w : Word) (s : State), s.mustWait = false →
    w.toNat % 65536 ≠ 0x504A ∨ s.phase ≠ Phase.setup ∨ s.pairOn = false ∨ s.rd F.PAIR_STAT_JOINED = 1 ∨ s.pair.join.isSome = true →
    ∃ t, exec (.pairJoin who w) s = .next t ∧ t = s) ∧
  (∀ (who : Requester) (w : Word) (s : State), s.mustWait = true →
    ∃ t, exec (.pairJoin who w) s = .next t ∧ t = { s with heldWrites := s.heldWrites ++ [(who, Reg.PAIR_JOIN, w)] }) ∧
  (∀ (r : Nat) (f : Bool) (s : State), s.pair.join = some (r, f) → s.pairRuns = true → s.rd F.PAIR_STAT_PEER = 0 →
    reached s.raw (r + s.rd F.PAIR_CFG_JOIN_TMO * 10 * 500000) = true → ∃ t, exec .pairJoinTimeout s = .next t ∧ t = s.joinAlone f) ∧
  (∀ (s : State), Option.all (fun x : Nat × Bool => !(reached s.raw (x.1 + s.rd F.PAIR_CFG_JOIN_TMO * 10 * 500000))) s.pair.join = true ∨
    s.pairRuns = false ∨ s.rd F.PAIR_STAT_PEER = 1 → ∃ t, exec .pairJoinTimeout s = .next t ∧ t = s) ∧
  (∀ (f : Bool) (s : State), f = true ∨ (s.rd F.PAIR_CFG_ALONE_EN = 1 ∧ (s.pairRecRole = 3 ∨ s.epoch = 0)) →
    s.joinAlone f = s.joined.becomeActive) ∧
  (∀ (s : State), s.rd F.PAIR_CFG_ALONE_EN = 0 → s.joinAlone false = s.joined.setRole 0 7) ∧
  (∀ (s : State), s.rd F.PAIR_CFG_ALONE_EN = 1 → s.pairRecRole ≠ 3 → s.epoch ≠ 0 → s.joinAlone false = s.joined.setRole 0 1) ∧
  (∀ (r : Nat) (s : State), s.pair.join = some (r, true) → s.pairRuns = true → s.rd F.PAIR_STAT_PEER = 0 →
    reached s.raw (r + s.rd F.PAIR_CFG_JOIN_TMO * 10 * 500000) = true → s.role = 0 → s.pairRecBest = none →
    ∃ t, exec .pairJoinTimeout s = .next t ∧ t.role = 3 ∧ t.rd F.PAIR_STAT_JOINED = 1 ∧ t.epoch = (max s.epoch s.peerEpoch + 1) % 2 ^ 64 ∧
      t.pair.join = none ∧ raised [(416, [12])] s t ∧ t.le 0x60001004 8 = t.epoch ∧ t.memFld 0x6000100C 0 2 = 3 ∧ sameMemBut 0x60001000 64 s t ∧
      t = { s with regs := t.regs, evt := t.evt, mem := t.mem, pair := t.pair } ∧
      onlyFlds [F.PAIR_STAT_ROLE, F.PAIR_STAT_FENCE_WHY, F.PAIR_STAT_JOINED, F.PAIR_EPOCH_LO_EPOCH, F.PAIR_EPOCH_HI_EPOCH] s t) ∧
  (∀ (r : Nat) (s : State), s.pair.join = some (r, false) → s.pairRuns = true → s.rd F.PAIR_STAT_PEER = 0 →
    reached s.raw (r + s.rd F.PAIR_CFG_JOIN_TMO * 10 * 500000) = true → s.role = 0 → s.rd F.PAIR_CFG_ALONE_EN = 0 →
    ∃ t, exec .pairJoinTimeout s = .next t ∧ t.role = 0 ∧ t.rd F.PAIR_STAT_FENCE_WHY = 7 ∧ t.rd F.PAIR_STAT_JOINED = 1 ∧
      t = { s with regs := t.regs, pair := { s.pair with join := none } } ∧ onlyFlds [F.PAIR_STAT_FENCE_WHY, F.PAIR_STAT_JOINED, F.PAIR_STAT_ROLE] s t) ∧
  (∀ (lane : Fin 2) (up : Bool) (f : Fld) (s : State), s.pairRuns = true → f = (if lane = 0 then F.PAIR_STAT_LANE0 else F.PAIR_STAT_LANE1) →
    s.rd f = b2n (!up) →
    s.role ≠ 1 ∨ up = true ∨ s.rd (if lane = 0 then F.PAIR_STAT_LANE1 else F.PAIR_STAT_LANE0) = 1 →
    ∃ t, exec (.pairLinkLane lane up) s = .next t ∧ t.rd f = b2n up ∧ raised [(422, [BitVec.ofNat 32 (lane.val + 256 * b2n up)])] s t ∧
      t.rd (mpIrqFld 5) = 1 ∧ t = { s with regs := t.regs, evt := t.evt } ∧ onlyFlds [f, mpIrqFld 5] s t) ∧
  (∀ (lane : Fin 2) (s : State), s.pairRuns = true → s.role = 1 → s.rd (if lane = 0 then F.PAIR_STAT_LANE0 else F.PAIR_STAT_LANE1) = 1 →
    s.rd (if lane = 0 then F.PAIR_STAT_LANE1 else F.PAIR_STAT_LANE0) = 0 →
    ∃ t, exec (.pairLinkLane lane false) s = .next t ∧ t.role = 0 ∧ t.rd F.PAIR_STAT_FENCE_WHY = 6 ∧
      t.rd (if lane = 0 then F.PAIR_STAT_LANE0 else F.PAIR_STAT_LANE1) = 0 ∧ t.pair.staged = [] ∧
      raised [(422, [BitVec.ofNat 32 lane.val]), (416, [0x601])] s t) ∧
  (∀ (lane : Fin 2) (up : Bool) (s : State), s.pairRuns = false ∨ s.rd (if lane = 0 then F.PAIR_STAT_LANE0 else F.PAIR_STAT_LANE1) = b2n up →
    ∃ t, exec (.pairLinkLane lane up) s = .next t ∧ t = s) ∧
  (∀ s : State, s.pairRuns = true → s.pairLink = true → reached s.raw (s.pair.hbTx + 50000) = true →
    ∃ t, exec .pairHeartbeatTx s = .next t ∧
      t.pair.sent = some (PairCtl.heartbeat (⟨BitVec.ofNat 2 s.role, BitVec.ofNat 64 s.epoch, BitVec.ofNat 64 s.pairLast,
        s.reg Reg.SYS_IMG_ID, s.rd F.SYS_STRAP_PREFER == 1, s.pair.join.isSome, s.pair.request,
        BitVec.ofNat 8 (s.rd F.SYS_STEP_SOC_STEP / 16 * 16 + s.rd F.SYS_STEP_ISL_STEP / 16), BitVec.ofNat 64 s.ntNs, s.tb.raw, s.pair.noack⟩ : Machine.Heartbeat)) ∧
      t = { s with pair := { s.pair with hbTx := s.raw, sent := t.pair.sent } }) ∧
  (∀ s : State, s.pairRuns = false ∨ s.pairLink = false ∨ reached s.raw (s.pair.hbTx + 50000) = false →
    ∃ t, exec .pairHeartbeatTx s = .next t ∧ t = s) ∧
  (∀ (h : Machine.Heartbeat) (trip : Nat) (s : State), s.pairRuns = false ∨ s.pairLink = false →
    ∃ t, exec (.pairHeartbeatRx h trip) s = .next t ∧ t = s) ∧
  (∀ (h : Machine.Heartbeat) (trip : Nat) (s : State), s.pairRuns = true → s.pairLink = true → s.pair.join = none →
    ∃ v t, v = ((s.hearPeer h).peerMoved (s.rd F.PAIR_STAT_PEER_ROLE) h.role.toNat).mpIrq 5 ∧ exec (.pairHeartbeatRx h trip) s = .next t ∧
      t = v.roleHears h trip) ∧
  (∀ (h : Machine.Heartbeat) (trip r : Nat) (f : Bool) (s : State), s.pairRuns = true → s.pairLink = true → s.pair.join = some (r, f) →
    ∃ v t, v = ((s.hearPeer h).peerMoved (s.rd F.PAIR_STAT_PEER_ROLE) h.role.toNat).mpIrq 5 ∧ exec (.pairHeartbeatRx h trip) s = .next t ∧
      t = v.joinHeard h trip f) ∧
  (∀ (h : Machine.Heartbeat) (s : State), s.rd F.PAIR_STAT_PEER = 0 → s.rd F.SYS_STRAP_PREFER = b2n (!h.prefer) →
    (s.hearPeer h).rd F.PAIR_STAT_PREFER_UNIT = s.rd F.SYS_STRAP_PREFER ∧ (s.hearPeer h).evt = s.evt ∧
      (s.hearPeer h).rd F.PAIR_CNT_HB_MISS = s.rd F.PAIR_CNT_HB_MISS) ∧
  (∀ (h : Machine.Heartbeat) (s : State), s.rd F.PAIR_STAT_PEER = 0 → s.rd F.SYS_STRAP_PREFER = b2n h.prefer →
    (s.hearPeer h).rd F.PAIR_STAT_PREFER_UNIT = b2n (s.rd F.SYS_STRAP_SLOT_ID % 2 == 0) ∧ raised [(484, [s.reg Reg.SYS_STRAP])] s (s.hearPeer h) ∧
      (s.hearPeer h).reg Reg.SYS_STRAP = s.reg Reg.SYS_STRAP) ∧
  (∀ (h : Machine.Heartbeat) (r : Nat) (s : State), s.rd F.PAIR_STAT_PEER = 1 → s.pair.hbRx = some r →
    (s.hearPeer h).rd F.PAIR_CNT_HB_MISS = min (s.rd F.PAIR_CNT_HB_MISS + ((s.raw - r + 25000) / 50000 - 1)) 65535 ∧
      (s.hearPeer h).rd F.PAIR_STAT_PREFER_UNIT = s.rd F.PAIR_STAT_PREFER_UNIT ∧ (s.hearPeer h).rd F.PAIR_STAT_PEER_ROLE = h.role.toNat ∧
      (s.hearPeer h).peerEpoch = h.epoch.toNat ∧ (s.hearPeer h).evt = s.evt) ∧
  (∀ (o n : Nat) (s : State), o = n ∨ s.role ≠ 3 → s.peerMoved o n = s) ∧
  (∀ (o : Nat) (s : State), o ≠ 1 → s.role = 3 →
    s.peerMoved o 1 = (s.raise 420 [s.reg Reg.PAIR_PEER_EPOCH_LO]).pairSet (fun p : Pair => { p with copy := some (0, 0) })) ∧
  (∀ (o : Nat) (s : State), o ≠ 2 → s.role = 3 →
    s.peerMoved o 2 = (s.wr F.PAIR_STAT_OUT_OF_STEP 0).pairSet (fun p : Pair => { p with noack := none })) ∧
  (∀ (s : State), s.role = 3 → s.rd F.PAIR_STAT_OUT_OF_STEP = 0 → s.peerMoved 2 0 = (s.wr F.PAIR_STAT_OUT_OF_STEP 1).raise 421 [2]) ∧
  (∀ (o n : Nat) (s : State), n = 3 ∨ (n = 0 ∧ (o ≠ 2 ∨ s.rd F.PAIR_STAT_OUT_OF_STEP = 1)) → s.peerMoved o n = s) ∧
  (∀ (h : Machine.Heartbeat) (trip : Nat) (s : State), s.role = 1 → h.role ≠ 3 → s.roleHears h trip = s.pairFence 6) ∧
  (∀ (h : Machine.Heartbeat) (trip k : Nat) (s : State), s.role = 2 → h.noack = some (BitVec.ofNat 64 k) → k < 2 ^ 64 → s.pairLast < k →
    s.roleHears h trip = s.stepLost 1) ∧
  (∀ (h : Machine.Heartbeat) (trip : Nat) (s : State), (s.role = 1 ∧ h.role = 3) ∨ (s.role = 2 ∧ s.pair.lossAt = none ∧ s.behind h = false) →
    s.roleHears h trip = s.pairSteer h trip) ∧
  (∀ (h : Machine.Heartbeat) (trip : Nat) (s : State), s.role = 0 → s.operate = true → h.role = 3 → s.sameImage h = true →
    s.roleHears h trip = s.revive (h.nt.toNat + trip / 2)) ∧
  (∀ (h : Machine.Heartbeat) (trip k : Nat) (x : PairSwitch) (s : State), s.role = 3 → h.role = 3 → s.pair.switch = some x → x.stage = .sealed k →
    s.roleHears h trip = s.loopsOpen) ∧
  (∀ (h : Machine.Heartbeat) (trip : Nat) (s : State), (s.role = 0 ∧ (s.operate = false ∨ h.role ≠ 3 ∨ s.sameImage h = false)) ∨
      (s.role = 2 ∧ s.pair.lossAt.isSome = true ∧ s.behind h = false) ∨ (s.role = 3 ∧ (s.pair.switch = none ∨ h.role ≠ 3)) →
    s.roleHears h trip = s) ∧
  (∀ (i : Nat) (s : State), i < 80 → s.loopsOpen.link i = (if 24 ≤ i ∧ i < 56 ∧ s.link i ≠ 0 then 1 else s.link i)) ∧
  (∀ (h : Machine.Heartbeat) (s : State), s.sameImage h = true ↔ h.img ≠ 0 ∧ h.img = s.reg Reg.SYS_IMG_ID ∧
    h.steps.toNat = s.rd F.SYS_STEP_SOC_STEP / 16 * 16 + s.rd F.SYS_STEP_ISL_STEP / 16) ∧
  (∀ (h : Machine.Heartbeat) (trip : Nat) (f : Bool) (s : State), s.sameImage h = false → s.joinHeard h trip f = s.joined.setRole 0 4) ∧
  (∀ (h : Machine.Heartbeat) (trip : Nat) (f : Bool) (s : State), s.sameImage h = true → h.role = 3 ∨
      (h.joining = true ∧ (s.epoch < h.epoch.toNat ∨ (h.epoch.toNat = s.epoch ∧ s.rd F.PAIR_STAT_PREFER_UNIT = 0))) →
    s.joinHeard h trip f = s.reviveJoin (h.nt.toNat + trip / 2)) ∧
  (∀ (h : Machine.Heartbeat) (trip : Nat) (f : Bool) (s : State), s.sameImage h = true → h.role ≠ 3 → h.joining = true →
    h.epoch.toNat < s.epoch ∨ (h.epoch.toNat = s.epoch ∧ s.rd F.PAIR_STAT_PREFER_UNIT = 1) → s.joinHeard h trip f = s.joined.becomeActive) ∧
  (∀ (h : Machine.Heartbeat) (trip : Nat) (f : Bool) (s : State), s.sameImage h = true → h.role ≠ 3 → h.joining = false →
    s.joinHeard h trip f = (if f = true then s.joinAlone true else s)) ∧
  (∀ (n : Nat) (s : State), (s.joined.lockErr false).1 = 0 →
    s.reviveJoin n = ((s.joined.lockErr false).2.lanesOff.revive n).operateStart ∧ (s.reviveJoin n).phase = Phase.operate ∧ (s.reviveJoin n).role = 1 ∧
      (s.reviveJoin n).lanes.on = false ∧ (s.reviveJoin n).pair.reviveFrom = s.raw ∧ (s.reviveJoin n).pair.staged = []) ∧
  (∀ (n : Nat) (s : State), (s.joined.lockErr false).1 ≠ 0 →
    s.reviveJoin n = (s.joined.lockErr false).2.wr F.SYS_PHASE_LOCK_ERR (s.joined.lockErr false).1 ∧ (s.reviveJoin n).role = s.role ∧
      (s.reviveJoin n).phase = s.phase) ∧
  (∀ (h : Machine.Heartbeat) (trip : Nat) (s : State), s.pairRuns = true → s.pairLink = true → s.pair.join = none → s.pair.switch = none → s.role = 3 →
    s.rd F.PAIR_STAT_PEER = 1 → h.role.toNat = s.rd F.PAIR_STAT_PEER_ROLE →
    ∃ t, exec (.pairHeartbeatRx h trip) s = .next t ∧ t.rd F.PAIR_STAT_PEER = 1 ∧ t.peerEpoch = h.epoch.toNat ∧ t.rd (mpIrqFld 5) = 1 ∧
      t.pair = { s.pair with hbRx := some s.raw, peerImg := h.img, peerPrefer := h.prefer, peerJoins := h.joining } ∧
      t = { s with regs := t.regs, pair := t.pair } ∧
      onlyFlds [F.PAIR_STAT_PEER, F.PAIR_STAT_PEER_ROLE, F.PAIR_PEER_EPOCH_LO_EPOCH, F.PAIR_PEER_EPOCH_HI_EPOCH, F.PAIR_CNT_HB_MISS, mpIrqFld 5] s t) ∧
  (∀ (h : Machine.Heartbeat) (trip n : Nat) (s : State), s.pairRuns = true → s.pairLink = true → s.pair.join = none → s.role = 2 → s.pair.lossAt = none →
    s.behind h = false → s.rd F.PAIR_STAT_PEER = 1 → n = h.nt.toNat + trip / 2 →
    ∃ t, exec (.pairHeartbeatRx h trip) s = .next t ∧ t.rd F.PAIR_NT_DEV_LAST = min (if s.ntNs < n then n - s.ntNs else s.ntNs - n) 65535 ∧
      incrMin ≤ t.tb.incr.toNat ∧ t.tb.incr.toNat ≤ incrMax ∧ t.rd F.PAIR_STAT_PEER_ROLE = h.role.toNat ∧ t.peerEpoch = h.epoch.toNat ∧
      t.rd64 Reg.PAIR_RAW_DELTA_LO Reg.PAIR_RAW_DELTA_HI = (s.raw + 2 ^ 64 - (h.raw.toNat + trip / 4) % 2 ^ 64) % 2 ^ 64 ∧
      t = { s with
        regs := t.regs, freeCtr := t.freeCtr, tb := { s.tb with ofs := t.tb.ofs, incr := t.tb.incr, past := t.tb.past },
        pair := { s.pair with hbRx := some s.raw, peerImg := h.img, peerPrefer := h.prefer, peerJoins := h.joining } }) ∧
  (∀ (h : Machine.Heartbeat) (trip : Nat) (s : State), s.pairRuns = true → s.pairLink = true → s.pair.join = none → s.role = 1 → h.role ≠ 3 →
    s.rd F.PAIR_STAT_PEER = 1 →
    ∃ t, exec (.pairHeartbeatRx h trip) s = .next t ∧ t.role = 0 ∧ t.rd F.PAIR_STAT_FENCE_WHY = 6 ∧ t.pair.staged = [] ∧ raised [(416, [0x601])] s t) ∧
  (∀ (h : Machine.Heartbeat) (trip r : Nat) (f : Bool) (s : State), s.pairRuns = true → s.pairLink = true → s.pair.join = some (r, f) →
    s.sameImage h = false → s.rd F.PAIR_STAT_PEER = 1 → s.role = 0 →
    ∃ t, exec (.pairHeartbeatRx h trip) s = .next t ∧ t.role = 0 ∧ t.rd F.PAIR_STAT_FENCE_WHY = 4 ∧ t.rd F.PAIR_STAT_JOINED = 1 ∧ t.pair.join = none ∧
      t = { s with regs := t.regs, pair := t.pair }) ∧
  (∀ (h : Machine.Heartbeat) (trip r : Nat) (f : Bool) (s : State), s.pairRuns = true → s.pairLink = true → s.pair.join = some (r, f) →
    s.sameImage h = true → s.rd F.PAIR_STAT_PEER = 1 → s.role = 0 → h.role ≠ 3 → h.joining = true → h.epoch.toNat < s.epoch →
    ∃ t, exec (.pairHeartbeatRx h trip) s = .next t ∧ t.role = 3 ∧ t.epoch = (s.epoch + 1) % 2 ^ 64 ∧ t.rd F.PAIR_STAT_JOINED = 1 ∧ t.pair.join = none ∧
      raised [(416, [12])] s t ∧ t = { s with regs := t.regs, evt := t.evt, mem := t.mem, pair := t.pair })

/-- Heartbeat loss, takeover and the traffic of the mirror (R174, R488, R495 to R505): what a loss does to an Active and to a Banked
module, the takeover and its resume, staging, the discard mark, close records and their acknowledgement, and copies on the link. A clause
that ends in t = s (an event before its instant or without its condition changes nothing) is the model's choice, notes/assumptions/2.md.
Where the clauses meet what notes/assumptions/66.md, notes/assumptions/67.md, notes/assumptions/68.md, notes/assumptions/69.md record,
they say the model's choice. -/
def Obligations.PairMirrorsAndTakesOver : Prop :=
  (∀ (r : Nat) (s : State), s.pair.hbRx = some r → s.pairRuns = true → s.rd F.PAIR_STAT_PEER = 1 → reached s.raw (r + 255000) = true → s.role = 3 →
    ∃ t, exec .pairHbLoss s = .next t ∧ t.rd F.PAIR_STAT_PEER = 0 ∧ t.rd F.PAIR_CNT_HB_MISS = min (s.rd F.PAIR_CNT_HB_MISS + 5) 65535 ∧
      raised [(419, [])] s t ∧ t = { s with regs := t.regs, evt := t.evt, pair := { s.pair with lossSeen := true } } ∧
      onlyFlds [F.PAIR_STAT_PEER, F.PAIR_CNT_HB_MISS] s t) ∧
  (∀ (r : Nat) (s : State), s.pair.hbRx = some r → s.pairRuns = true → s.rd F.PAIR_STAT_PEER = 1 → reached s.raw (r + 255000) = true → s.role = 2 →
    s.rd F.CB_CFG_ROLE ≠ 0 →
    ∃ t, exec .pairHbLoss s = .next t ∧ t.rd F.PAIR_STAT_PEER = 0 ∧ t.rd F.PAIR_STAGE_USED = 0 ∧ raised [(417, [BitVec.ofNat 32 s.pairLast])] s t ∧
      t = { s with
        regs := t.regs, evt := t.evt,
        pair := { s.pair with staged := [], lossAt := some s.raw, powerFrom := some (s.pair.powerFrom.getD s.raw), stepFrom := none } } ∧
      onlyFlds [F.PAIR_STAT_PEER, F.PAIR_CNT_HB_MISS, F.PAIR_STAGE_USED] s t) ∧
  (∀ (r : Nat) (s : State), s.pair.hbRx = some r → s.pairRuns = true → s.rd F.PAIR_STAT_PEER = 1 → reached s.raw (r + 255000) = true → s.role = 2 →
    s.rd F.CB_CFG_ROLE = 0 →
    ∃ v t, v = State.wr (State.pairSet (((s.wr F.PAIR_STAT_PEER 0).satAdd F.PAIR_CNT_HB_MISS 5).raise 417 [BitVec.ofNat 32 s.pairLast])
        (fun p : Pair => { p with staged := [], lossAt := some s.raw, powerFrom := some (p.powerFrom.getD s.raw), stepFrom := none })) F.PAIR_STAGE_USED 0 ∧
      exec .pairHbLoss s = .next t ∧ t = v.takeOver) ∧
  (∀ (r : Nat) (s : State), s.pair.hbRx = some r → s.pairRuns = true → s.rd F.PAIR_STAT_PEER = 1 → reached s.raw (r + 255000) = true → s.role = 1 →
    ∃ t, exec .pairHbLoss s = .next t ∧ t.role = 0 ∧ t.rd F.PAIR_STAT_FENCE_WHY = 6 ∧ t.rd F.PAIR_STAT_PEER = 0 ∧ t.pair.staged = [] ∧
      raised [(416, [0x601])] s t) ∧
  (∀ (r : Nat) (s : State), s.pair.hbRx = some r → s.pairRuns = true → s.rd F.PAIR_STAT_PEER = 1 → reached s.raw (r + 255000) = true → s.role = 0 →
    ∃ t, exec .pairHbLoss s = .next t ∧ t.rd F.PAIR_STAT_PEER = 0 ∧ t.rd F.PAIR_CNT_HB_MISS = min (s.rd F.PAIR_CNT_HB_MISS + 5) 65535 ∧
      t = { s with regs := t.regs } ∧ onlyFlds [F.PAIR_STAT_PEER, F.PAIR_CNT_HB_MISS] s t) ∧
  (∀ (s : State), Option.all (fun r : Nat => !(reached s.raw (r + 255000))) s.pair.hbRx = true ∨ s.pairRuns = false ∨ s.rd F.PAIR_STAT_PEER = 0 →
    ∃ t, exec .pairHbLoss s = .next t ∧ t = s) ∧
  (∀ (r : Nat) (s : State), s.pair.lossAt = some r → s.pairRuns = true → s.role = 2 → reached s.raw (r + s.rd F.PAIR_CFG_PRES_WAIT * 5000) = true →
    ∃ t, exec .pairPresWaitEnd s = .next t ∧ t = s.takeOver) ∧
  (∀ (s : State), ∃ v w0, v = (s.restore true).satAdd F.PAIR_CNT_TAKEOVERS 1 ∧
    w0 = v.draw.2.raise 418 [BitVec.ofNat 32 s.pairLast, BitVec.ofNat 32 v.epoch, BitVec.ofNat 32 (v.draw.1.toNat % 65536)] ∧
    s.takeOver = (if w0.pair.lanesUp = true then w0.takeHarts else w0)) ∧
  (∀ (r : Nat) (s : State), s.pair.lossAt = some r → s.pairRuns = true → s.role = 2 → reached s.raw (r + s.rd F.PAIR_CFG_PRES_WAIT * 5000) = true →
    s.enabledRings = [] → s.looseParts = [] →
    ∃ t, exec .pairPresWaitEnd s = .next t ∧ t.role = 3 ∧ t.epoch = (max s.epoch s.peerEpoch + 1) % 2 ^ 64 ∧ counted F.PAIR_CNT_TAKEOVERS s t ∧
      t.rings.out = [] ∧ t.flue.recs = [] ∧ t.flue.shut = false ∧ t.rack.ready = true ∧ t.rd F.RB_STAT_RST = 0 ∧ t.pair.gapFrom = s.pair.hbRx) ∧
  (∀ s : State, Option.all (fun r : Nat => !(reached s.raw (r + s.rd F.PAIR_CFG_PRES_WAIT * 5000))) s.pair.lossAt = true ∨ s.pairRuns = false ∨ s.role ≠ 2 →
    ∃ t, exec .pairPresWaitEnd s = .next t ∧ t = s) ∧
  (∀ (r : Nat) (x : PairSwitch) (s : State), s.pairRuns = true → s.pair.powerFrom = some r → s.lanes.on = false → s.role ≠ 3 →
    s.pair.switch = some x → x.stage = .powering →
    ∃ t, exec .pairTakeoverResume s = .next t ∧
      t = { s with pair := { s.pair with powerFrom := none, lanesUp := true, sent := if s.pairLink = true then some .ready else s.pair.sent, switch := some { x with stage := .up } } }) ∧
  (∀ (r : Nat) (c : Carried) (s : State), s.pairRuns = true → s.pair.powerFrom = some r → s.lanes.on = false → s.role = 3 → s.pair.carried = some c →
    ∃ t, exec .pairTakeoverResume s = .next t ∧ t.lanes = { s.lanes with on := true, resuming := true, ready := [], fetched := [] } ∧
      t.harts = c.harts.map (fun h : Hart => { h with dztcmp := h.dztcmp + BitVec.ofNat 64 (s.rd64 Reg.PAIR_RAW_DELTA_LO Reg.PAIR_RAW_DELTA_HI) }) ∧
      t.plic = c.plic ∧ t.rd64 Reg.CORD_LAST_LO Reg.CORD_LAST_HI = c.cord.toNat ∧ t.pair = { s.pair with resume := true, powerFrom := none, lanesUp := true } ∧
      onlyRegs [Reg.CORD_LAST_LO, Reg.CORD_LAST_HI] s t) ∧
  (∀ (r : Nat) (s : State), s.pairRuns = true → s.pair.powerFrom = some r → s.lanes.on = false → s.role ≠ 3 →
    Option.all (fun x : PairSwitch => !(x.stage == .powering)) s.pair.switch = true →
    ∃ t, exec .pairTakeoverResume s = .next t ∧ t = { s with pair := { s.pair with powerFrom := none, lanesUp := true } }) ∧
  (∀ (s : State), s.pairRuns = false ∨ s.pair.powerFrom = none ∨ s.lanes.on = true ∨ (s.role = 3 ∧ s.pair.carried = none) →
    ∃ t, exec .pairTakeoverResume s = .next t ∧ t = s) ∧
  (∀ (cells : List (Nat × Byte)) (s : State), s.pairStages = true → s.pair.staged = [] → cells.length < 65536 * 4096 - 65536 →
    ∃ t, exec (.pairMirrorRx (.write cells)) s = .next t ∧ t.rd F.PAIR_STAGE_USED = (cells.length + 65535) / 65536 ∧
      t = { s with regs := t.regs, pair := { s.pair with staged := [.write cells] } } ∧ onlyFlds [F.PAIR_STAGE_USED, F.PAIR_STAGE_PEAK] s t) ∧
  (∀ (cells : List (Nat × Byte)) (s : State), s.pairStages = true →
    ∃ v t, v = { s with pair := { s.pair with staged := s.pair.staged ++ [PairMsg.write cells] } } ∧ exec (.pairMirrorRx (.write cells)) s = .next t ∧ t = v.stageShow) ∧
  (∀ (cells : List (Nat × Byte)) (s : State), s.pairStages = true →
    ∃ v t, v = { s with pair := { s.pair with staged := s.pair.staged ++ [PairMsg.fill cells] } } ∧ exec (.pairMirrorRx (.fill cells)) s = .next t ∧ t = v.stageShow) ∧
  (∀ (r : FlueRec) (s : State), s.pairStages = true →
    ∃ v t, v = { s with pair := { s.pair with staged := s.pair.staged ++ [PairMsg.flue r] } } ∧ exec (.pairMirrorRx (.flue r)) s = .next t ∧ t = v.stageShow) ∧
  (∀ (v : State) (s : State), v = (s.wr F.PAIR_STAGE_USED ((s.stagedBytes + 65535) / 65536)).peak F.PAIR_STAGE_PEAK ((s.stagedBytes + 65535) / 65536) →
    s.stageShow = (if 0x10000000 ≤ s.stagedBytes then v.stepLost 3 else v)) ∧
  (∀ (why : Nat) (s : State), s.stepLost why = (s.raise 421 [BitVec.ofNat 32 why]).pairFence (if s.role = 2 then 2 else 6)) ∧
  (∀ (s : State), s.pairStages = true →
    ∃ t, exec (.pairMirrorRx .copied) s = .next t ∧ t = { s with pair := { s.pair with copied := true } }) ∧
  (∀ (m : Machine.PairMsg) (c : Machine.Carried) (s : State), m = .discard ∨ m = .close c →
    ∃ t, exec (.pairMirrorRx m) s = .next t ∧ t = s) ∧
  (∀ (c : TbCmd) (s : State), s.pairStages = true →
    ∃ t, exec (.pairMirrorRx (.time c)) s = .next t ∧ t = { s with regs := t.regs, tb := { s.tb with waiting := some c } } ∧
      t.rd F.TB_STAT_CMD_BUSY = 1 ∧ onlyFlds [F.TB_STAT_CMD_BUSY] s t) ∧
  (∀ (m : Machine.PairMsg) (s : State), s.pairStages = false → ∃ t, exec (.pairMirrorRx m) s = .next t ∧ t = s) ∧
  (∀ s : State, s.pairStages = true →
    ∃ v t, v = { s with pair := { s.pair with staged := s.pair.staged.filter PairMsg.isFill } } ∧ exec .pairDiscardRx s = .next t ∧ t = v.stageShow) ∧
  (∀ s : State, s.pairStages = false → ∃ t, exec .pairDiscardRx s = .next t ∧ t = s) ∧
  (∀ s : State, s.pairStages = true → s.pair.staged.filter PairMsg.isFill = [] →
    ∃ t, exec .pairDiscardRx s = .next t ∧ t.rd F.PAIR_STAGE_USED = 0 ∧ t = { s with regs := t.regs, pair := { s.pair with staged := [] } } ∧
      onlyFlds [F.PAIR_STAGE_USED] s t) ∧
  (∀ (c : Machine.Carried) (valid : Bool) (s : State), s.pairStages = true → s.role = 2 → valid = false ∨ c.cord.toNat ≠ (s.pairLast + 1) % 2 ^ 64 →
    ∃ t, exec (.pairCloseRx c valid) s = .next t ∧ t.role = 0 ∧ t.rd F.PAIR_STAT_FENCE_WHY = 2 ∧ t.pair.staged = [] ∧
      raised [(421, [2]), (416, [0x202])] s t ∧ t = { s with regs := t.regs, evt := t.evt, pair := t.pair } ∧
      onlyFlds [F.PAIR_STAT_ROLE, F.PAIR_STAT_FENCE_WHY] s t) ∧
  (∀ (c : Machine.Carried) (s : State), s.pairStages = true → s.role = 1 →
    ∃ t, exec (.pairCloseRx c false) s = .next t ∧ t.role = 0 ∧ t.rd F.PAIR_STAT_FENCE_WHY = 6 ∧ t.pair.staged = [] ∧
      raised [(421, [2]), (416, [0x601])] s t ∧ t = { s with regs := t.regs, evt := t.evt, pair := t.pair }) ∧
  (∀ (c : Machine.Carried) (valid : Bool) (s : State), s.pairStages = false → ∃ t, exec (.pairCloseRx c valid) s = .next t ∧ t = s) ∧
  (∀ (c : Machine.Carried) (s : State), s.pairStages = true → s.role = 1 → s.pair.copied = false →
    ∃ v t, v = (s.applyStaged c).pairSend (.closeAck c.cord) ∧ exec (.pairCloseRx c true) s = .next t ∧ t = v) ∧
  (∀ (c : Machine.Carried) (s : State), s.pairStages = true → s.role = 1 → s.pair.copied = true → c.switch = false ∨ s.pair.lanesUp = false →
    ∃ v t, v = (s.applyStaged c).pairSend (.closeAck c.cord) ∧ exec (.pairCloseRx c true) s = .next t ∧ t = v.revived ∧ t.role = 2 ∧
      t.epoch = s.peerEpoch ∧ t.pair.stepFrom = some s.raw ∧
      raised [(416, [9]), (426, [BitVec.ofNat 32 (min ((s.raw - s.pair.reviveFrom) / 500000) (2 ^ 32 - 1))])] s t) ∧
  (∀ (c : Machine.Carried) (s : State), s.pairStages = true → s.role = 2 → c.cord.toNat = (s.pairLast + 1) % 2 ^ 64 → c.switch = false ∨ s.pair.lanesUp = false →
    ∃ v t, v = (s.applyStaged c).pairSend (.closeAck c.cord) ∧ exec (.pairCloseRx c true) s = .next t ∧ t = v) ∧
  (∀ (c : Machine.Carried) (s : State), s.pairStages = true → s.role = 2 → c.cord.toNat = (s.pairLast + 1) % 2 ^ 64 → c.switch = true →
    s.pair.lanesUp = true →
    ∃ v t, v = (s.applyStaged c).pairSend (.closeAck c.cord) ∧ exec (.pairCloseRx c true) s = .next t ∧ t = v.switchTaken c ∧ t.role = 3 ∧
      t.lanes.on = true ∧ t.harts = c.harts.map (fun h : Hart => { h with dztcmp := h.dztcmp + BitVec.ofNat 64 (s.rd64 Reg.PAIR_RAW_DELTA_LO Reg.PAIR_RAW_DELTA_HI) }) ∧
      t.pair.switch = none) ∧
  (∀ (c : Machine.Carried) (d : Cmd) (v w0 : State) (s : State), c.cmd = some d → v = (s.restore false).takeHarts →
    w0 = { v with pair := { v.pair with switch := none, request := false } } →
    s.switchTaken c = (w0.setCtx d.ring { w0.ctx d.ring with longOut := (w0.ctx d.ring).longOut - 1 }).complete d 0 true 0 [BitVec.ofNat 32 c.cord.toNat, BitVec.ofNat 32 v.epoch]) ∧
  (∀ (c : Machine.Carried) (s : State), s.pairStages = true → s.pairLink = true → s.role = 2 → c.cord.toNat = (s.pairLast + 1) % 2 ^ 64 → c.switch = false →
    ∃ t, exec (.pairCloseRx c true) s = .next t ∧ t.pairLast = c.cord.toNat ∧ t.pair.sent = some (PairCtl.closeAck c.cord) ∧ t.pair.staged = [] ∧
      t.pair.carried = some c ∧ t.cyc = c.cyc ∧ t.rings.ctx = c.rings ∧ t.parts.locks = c.locks ∧ t.flue.streams = c.streams ∧ t.cb.banks = c.banks ∧
      t.role = 2 ∧ t.rd F.PAIR_STAGE_USED = 0) ∧
  (∀ (k : Nat) (s : State), s.pairRuns = true → s.role = 3 →
    ∃ t, exec (.pairCloseAckRx k) s = .next t ∧
      t = { s with
        pair := { s.pair with unacked := s.pair.unacked.filter (fun x => decide (k < x.1)) },
        flue := { s.flue with recs := s.flue.recs.map (fun r : FlueRec => if r.mirrorWait.any (fun n => decide (n ≤ k)) then { r with mirrorWait := none } else r) } }) ∧
  (∀ (k : Nat) (s : State), s.pairRuns = false ∨ s.role ≠ 3 → ∃ t, exec (.pairCloseAckRx k) s = .next t ∧ t = s) ∧
  (∀ (n : Fin 3) (b : Bool) (f : List Byte) (ok : Bool) (s : State), s.pairRuns = false ∨ s.operate = false ∨ s.pairLink = false ∨ s.role = 3 ∨ s.role = 0 →
    ∃ t, exec (.pairCopyRelay n b f ok) s = .next t ∧ t = s) ∧
  (∀ (n : Fin 3) (f : List Byte) (ok : Bool) (s : State), s.pairRuns = true → s.operate = true → s.pairLink = true → s.role = 1 ∨ s.role = 2 →
    ∃ t, exec (.pairCopyRelay n false f ok) s = .next t ∧ t = s.portSend (4 * n.val + 2 * s.ownChan) f ok ∧
      Sparse.lookup t.ports.sent (4 * n.val + 2 * s.ownChan) = some (ok, f)) ∧
  (∀ (n : Fin 3) (f : List Byte) (ok : Bool) (s : State), s.pairRuns = true → s.operate = true → s.pairLink = true → s.role = 1 ∨ s.role = 2 →
    ∃ t, exec (.pairCopyRelay n true f ok) s = .next t ∧ t = { s with pair := { s.pair with sent := some (.copy n true f ok) } })

/-- A planned switch (R509 to R513, R518): PAIR_SWITCH and its checks, the partner's request and READY, the timeouts, the end of the
handover, the timer of REVERT, and PAIR_STATUS. A clause that ends in t = s (an event before its instant or without its condition changes
nothing) is the model's choice, notes/assumptions/2.md. Where the clauses meet what notes/assumptions/68.md records, they say the model's
choice. -/
def Obligations.PairSwitches : Prop :=
  (∀ (c : Cmd) (s : State), inHand 0x18 0x10 c s → c.fin = none →
    ∃ v t, v = s.accept 0x18 c ∧ exec .pairSwitch s = .next t ∧
      t = { v with
        pair := { v.pair with
          request := true, sent := if s.pairLink = true then some .request else s.pair.sent,
          switch := some ⟨some { c with long := true, ntAcc := BitVec.ofNat 32 s.ntNs }, v.raw, .asked⟩ } }) ∧
  (∀ (c : Cmd) (f : Final) (s : State), inHand 0x18 0x10 c s → c.fin = some f → ∃ t, exec .pairSwitch s = .next t ∧ t = s.finish 0x18 c f) ∧
  (∀ (s : State), s.hand 0x18 = none ∨ s.running = false → ∃ t, exec .pairSwitch s = .next t ∧ t = s) ∧
  (∀ (c : Cmd) (s : State), c.headerOk = false ∨ c.fld 8 1 31 ≠ 0 ∨ c.zeroFrom 0xC = false → s.switchFails c = some ⟨0x20, 0, []⟩) ∧
  (∀ (c : Cmd) (s : State), c.headerOk = true → c.fld 8 1 31 = 0 → c.zeroFrom 0xC = true → (s.ctx c.ring).mp = false →
    (s.ctx c.ring).part.toNat ≠ s.rd F.PAIR_CFG_SW_PART → s.switchFails c = some ⟨0x21, 0, []⟩) ∧
  (∀ (c : Cmd) (s : State), c.headerOk = true → c.fld 8 1 31 = 0 → c.zeroFrom 0xC = true →
    (s.ctx c.ring).mp = true ∨ (s.ctx c.ring).part.toNat = s.rd F.PAIR_CFG_SW_PART →
    s.switchFails c = (if c.fld 8 0 1 = 1 then some ⟨0, 1, []⟩
      else if s.pairGates = true ∧ s.rd F.PAIR_STAT_PEER = 1 ∧ s.pair.switch = none then none else some ⟨0x11, 0, []⟩)) ∧
  (∀ (ack : Bool) (s : State), s.pairRuns = false → ∃ t, exec (.pairSwitchRequestRx ack) s = .next t ∧ t = s) ∧
  (∀ s : State, s.pairRuns = true → s.role ≠ 2 ∨ s.pair.request = false →
    ∃ t, exec (.pairSwitchRequestRx true) s = .next t ∧ t = { s with pair := { s.pair with request := false } }) ∧
  (∀ s : State, s.pairRuns = true → s.role = 2 → s.pair.request = true → s.pair.lanesUp = false →
    ∃ t, exec (.pairSwitchRequestRx true) s = .next t ∧
      t = { s with pair := { s.pair with switch := some ⟨none, s.raw, .powering⟩, request := false, powerFrom := some (s.pair.powerFrom.getD s.raw) } }) ∧
  (∀ s : State, s.pairRuns = true → s.role = 2 → s.pair.request = true → s.pair.lanesUp = true →
    ∃ t, exec (.pairSwitchRequestRx true) s = .next t ∧
      t = { s with
        pair := { s.pair with sent := if s.pairLink = true then some .ready else s.pair.sent, switch := some ⟨none, s.raw, .up⟩, request := false, powerFrom := none } }) ∧
  (∀ s : State, s.pairRuns = true → s.pair.request = false → s.role = 2 → s.pair.lanesUp = false →
    ∃ t, exec (.pairSwitchRequestRx false) s = .next t ∧
      t = { s with
        pair := { s.pair with sent := if s.pairLink = true then some .grant else s.pair.sent, switch := some ⟨none, s.raw, .powering⟩, powerFrom := some (s.pair.powerFrom.getD s.raw) } }) ∧
  (∀ s : State, s.pairRuns = true → s.pair.request = false → s.role = 2 → s.pair.lanesUp = true →
    ∃ t, exec (.pairSwitchRequestRx false) s = .next t ∧
      t = { s with
        pair := { s.pair with sent := if s.pairLink = true then some .ready else s.pair.sent, switch := some ⟨none, s.raw, .up⟩, powerFrom := none } }) ∧
  (∀ s : State, s.pairRuns = true → s.pair.request = false → s.role = 3 → s.pairGates = true → s.pair.switch = none →
    ∃ t, exec (.pairSwitchRequestRx false) s = .next t ∧
      t = { s with pair := { s.pair with sent := if s.pairLink = true then some .grant else s.pair.sent, switch := some ⟨none, s.raw, .asked⟩ } }) ∧
  (∀ s : State, s.pairRuns = true → s.pair.request = false → (s.role = 3 ∧ (s.pairGates = false ∨ s.pair.switch.isSome = true)) ∨ s.role = 0 ∨ s.role = 1 →
    ∃ t, exec (.pairSwitchRequestRx false) s = .next t ∧ t = { s with pair := { s.pair with sent := if s.pairLink = true then some .grant else s.pair.sent } }) ∧
  (∀ (x : PairSwitch) (s : State), s.pairRuns = true → s.pair.request = true → s.rd F.PAIR_STAT_PREFER_UNIT = 0 → s.pair.switch = some x →
    ∃ v t, v = s.switchEnd ⟨0x12, 0, []⟩ ∧ exec (.pairSwitchRequestRx false) v = .next t ∧ exec (.pairSwitchRequestRx false) s = .next t) ∧
  (∀ (x : PairSwitch) (c : Cmd) (f : Final) (v : State) (s : State), s.pair.switch = some x → x.cmd = some c →
    v = { s with pair := { s.pair with switch := none, request := false } } → s.switchEnd f = v.endLong c f) ∧
  (∀ (x : PairSwitch) (f : Final) (s : State), s.pair.switch = some x → x.cmd = none →
    s.switchEnd f = { s with pair := { s.pair with switch := none, request := false } }) ∧
  (∀ s : State, s.pairRuns = true → s.pair.request = true → s.rd F.PAIR_STAT_PREFER_UNIT = 1 →
    ∃ t, exec (.pairSwitchRequestRx false) s = .next t ∧ t = s) ∧
  (∀ (x : PairSwitch) (s : State), s.pair.switch = some x → x.stage = .asked → s.role = 3 →
    ∃ t, exec .pairReadyRx s = .next t ∧ t = { s with pair := { s.pair with switch := some { x with stage := .ready }, request := false } }) ∧
  (∀ (s : State), s.role ≠ 3 ∨ Option.all (fun x : PairSwitch => !(x.stage == .asked)) s.pair.switch = true → ∃ t, exec .pairReadyRx s = .next t ∧ t = s) ∧
  (∀ (x : PairSwitch) (s : State), s.pair.switch = some x → x.stage = .asked → x.cmd = none → s.role = 3 → s.pairRuns = true →
    reached s.raw (x.start + 5000000) = true →
    ∃ t, exec .pairSwitchTimeout s = .next t ∧ t = { s with pair := { s.pair with switch := none, request := false } }) ∧
  (∀ (s : State), s.pairRuns = false ∨ Option.all (fun x : PairSwitch => !(reached s.raw (x.start + 5000000))) s.pair.switch = true ∨
    (s.role = 3 ∧ Option.all (fun x : PairSwitch => !(x.stage == .asked)) s.pair.switch = true) ∨
    (s.role ≠ 3 ∧ Option.all (fun x : PairSwitch => !(x.stage == .powering)) s.pair.switch = true) →
    ∃ t, exec .pairSwitchTimeout s = .next t ∧ t = s) ∧
  (∀ (x : PairSwitch) (c : Cmd) (s : State), s.pair.switch = some x → x.stage = .asked → x.cmd = some c → s.role = 3 → s.pairRuns = true →
    reached s.raw (x.start + 5000000) = true →
    ∃ v t, v = { s with pair := { s.pair with switch := none, request := false } } ∧ exec .pairSwitchTimeout s = .next t ∧
      t = v.endLong c ⟨0x41, 0, []⟩) ∧
  (∀ (x : PairSwitch) (s : State), s.pair.switch = some x → x.stage = .powering → s.role ≠ 3 → s.pairRuns = true → reached s.raw (x.start + 5000000) = true →
    ∃ t, exec .pairSwitchTimeout s = .next t ∧ t = { s with pair := { s.pair with switch := none, powerFrom := none, lanesUp := false } }) ∧
  (∀ (x : PairSwitch) (k : Nat) (done : Bool) (s : State), s.pair.switch = some x → x.stage = .sealed k → s.role = 3 → s.rd F.PAIR_STAT_PEER_ROLE = 3 →
    done = true ∨ reached s.raw (x.start + 50000000) = true →
    ∃ t, exec (.pairSwitchHandoverEnd done) s = .next t ∧ t.role = 2 ∧ t.lanes.on = false ∧ t.flue.recs = [] ∧ t.rings.out = [] ∧ t.rack.cycle = none ∧
      (∀ g < 8, (∀ j < 16, t.dioOn g j = false)) ∧ (∀ i ∈ allIslands, s.link i ≠ 0 → t.link i = 1) ∧
      t.epoch = s.epoch ∧ (t.evt.queue.drop s.evt.queue.length).getLast?.map (fun e : Raise => (e.src, e.info)) = some (425, [BitVec.ofNat 32 k])) ∧
  (∀ (x : PairSwitch) (k : Nat) (done : Bool) (s : State), s.pair.switch = some x → x.stage = .sealed k →
    s.role ≠ 3 ∨ s.rd F.PAIR_STAT_PEER_ROLE ≠ 3 ∨ (done = false ∧ reached s.raw (x.start + 50000000) = false) →
    ∃ t, exec (.pairSwitchHandoverEnd done) s = .next t ∧ t = s) ∧
  (∀ (done : Bool) (s : State), Option.all (fun x : PairSwitch => x.stage == .asked || x.stage == .ready || x.stage == .powering || x.stage == .up) s.pair.switch = true →
    ∃ t, exec (.pairSwitchHandoverEnd done) s = .next t ∧ t = s) ∧
  (∀ (s : State), Option.all (fun r : Nat => !(reached s.raw (r + 5000000000))) s.pair.stepFrom = true ∨ s.pairRuns = false ∨ s.role ≠ 2 ∨ s.rd F.PAIR_CFG_REVERT = 0 ∨
    s.rd F.PAIR_STAT_PREFER_UNIT = 0 ∨ s.pair.request = true ∨ s.pair.switch.isSome = true → ∃ t, exec .pairRevertTimer s = .next t ∧ t = s) ∧
  (∀ (r : Nat) (s : State), s.pair.stepFrom = some r → s.pairRuns = true → s.role = 2 → s.rd F.PAIR_CFG_REVERT = 1 →
    s.rd F.PAIR_STAT_PREFER_UNIT = 1 → s.pair.request = false → s.pair.switch = none → reached s.raw (r + 5000000000) = true →
    ∃ t, exec .pairRevertTimer s = .next t ∧
      t = { s with pair := { s.pair with sent := if s.pairLink = true then some .request else s.pair.sent, request := true, stepFrom := some s.raw } }) ∧
  (∀ (s : State), s.hand 0x18 = none ∨ s.running = false → ∃ t, exec .pairStatus s = .next t ∧ t = s) ∧
  (∀ (c : Cmd) (s : State), inHand 0x18 0x11 c s → c.headerOk = false ∨ c.word 8 ≠ 0 ∨ c.word 0xC ≠ 0 ∨ c.fld 0x10 0 6 ≠ 0 ∨ c.fld 0x14 8 24 ≠ 0 ∨
    c.zeroFrom 0x18 = false ∨ s.engineMayWrite (c.addr 0x10) 64 = false → ∃ t, exec .pairStatus s = .next t ∧ t = s.finish 0x18 c ⟨0x20, 0, []⟩) ∧
  (∀ (c : Cmd) (a : Nat) (s : State), inHand 0x18 0x11 c s → c.headerOk = true → c.word 8 = 0 → c.word 0xC = 0 → c.fld 0x10 0 6 = 0 → c.fld 0x14 8 24 = 0 →
    c.zeroFrom 0x18 = true → a = c.addr 0x10 → s.engineMayWrite a 64 = true →
    ∃ v t, v = (s.freeBytes 20).2.outBuf c a (wordBytes ([Reg.PAIR_STAT, Reg.PAIR_EPOCH_LO, Reg.PAIR_EPOCH_HI, Reg.PAIR_PEER_EPOCH_LO,
        Reg.PAIR_PEER_EPOCH_HI, Reg.PAIR_LAST_LO, Reg.PAIR_LAST_HI, Reg.PAIR_MIRROR, Reg.PAIR_STAGE, Reg.PAIR_CNT, Reg.PAIR_NT_DEV].map s.reg) ++
        (s.freeBytes 20).1) ∧ exec .pairStatus s = .next t ∧ t = v.finish 0x18 c ⟨0x00, 0, []⟩) ∧
  (∀ (c : Cmd) (a : Nat) (s : State), inHand 0x18 0x11 c s → c.headerOk = true → c.word 8 = 0 → c.word 0xC = 0 → c.fld 0x10 0 6 = 0 → c.fld 0x14 8 24 = 0 →
    c.zeroFrom 0x18 = true → a = c.addr 0x10 → s.engineMayWrite a 64 = true → s.ecc = [] → s.lanes.resv = [] → s.isActive = false →
    ∃ v t, v = (s.freeBytes 20).2.setBytes a (wordBytes ([Reg.PAIR_STAT, Reg.PAIR_EPOCH_LO, Reg.PAIR_EPOCH_HI, Reg.PAIR_PEER_EPOCH_LO,
        Reg.PAIR_PEER_EPOCH_HI, Reg.PAIR_LAST_LO, Reg.PAIR_LAST_HI, Reg.PAIR_MIRROR, Reg.PAIR_STAGE, Reg.PAIR_CNT, Reg.PAIR_NT_DEV].map s.reg) ++
        (s.freeBytes 20).1) ∧
      v.words a 2 = [s.reg Reg.PAIR_STAT, s.reg Reg.PAIR_EPOCH_LO] ∧ sameMemBut a 64 s v ∧ exec .pairStatus s = .next t ∧ t = v.finish 0x18 c ⟨0x00, 0, []⟩)

/-- The recorder (R519 to R531): a periodic sample and a dropped one, the binning of a sample, a flush, a note of the management
processor, REC_EXPORT and REC_CLEAR. A clause that ends in t = s (an event before its instant or without its condition changes nothing) is
the model's choice, notes/assumptions/2.md. Where the clauses meet what notes/assumptions/70.md, notes/assumptions/71.md record, they say
the model's choice. -/
def Obligations.RecorderEngine : Prop :=
  (∀ (c : BitVec 12) (n per : Nat) (x : DWord) (s : State), n = c.toNat → per = s.recPeriod n * 500000 → s.rd F.REC_CFG_EN = 1 → s.running = true →
    s.pairOn = false ∨ s.role = 3 → s.recEn n = true → s.recKind n ≠ 2 → s.recKind n < 8 → Sparse.get s.recd.due 0 n ≤ s.raw →
    s.recKind n ≠ 1 ∨ s.ecc = [] → s.recSource (s.recKind n) (s.recIndex n) = some x → s.recd.queue.length < 1024 →
    ∃ t, exec (.recPeriodicSample c) s = .next t ∧ counted F.REC_SAMPLES_SAMPLES s t ∧ t.recd = { s.recd with
        due := Sparse.insert s.recd.due n (Sparse.get s.recd.due 0 n + per), queue := s.recd.queue ++ [(⟨n, x, BitVec.ofNat 64 s.ntNs⟩ : RecSample)] } ∧
      t = { s with regs := t.regs, recd := t.recd } ∧ onlyFlds [F.REC_SAMPLES_SAMPLES] s t) ∧
  (∀ (c : BitVec 12) (n per : Nat) (x : DWord) (s : State), n = c.toNat → per = s.recPeriod n * 500000 → s.rd F.REC_CFG_EN = 1 → s.running = true →
    s.pairOn = false ∨ s.role = 3 → s.recEn n = true → s.recKind n ≠ 2 → s.recKind n < 8 → Sparse.get s.recd.due 0 n ≤ s.raw →
    s.recKind n ≠ 1 ∨ s.ecc = [] → s.recSource (s.recKind n) (s.recIndex n) = some x → 1024 ≤ s.recd.queue.length → s.recd.dropRaised = false → s.rd F.REC_DROP_DROPS < 0xFFFFFFFF →
    (s.recChan n).drops.toNat < 0xFFFFFFFF →
    ∃ t, exec (.recPeriodicSample c) s = .next t ∧ counted F.REC_DROP_DROPS s t ∧ t.recChan n = { s.recChan n with drops := (s.recChan n).drops + 1 } ∧
      t.recd.queue = s.recd.queue ∧ t.recd.dropRaised = true ∧ raised [(449, [BitVec.ofNat 32 (s.rd F.REC_DROP_DROPS + 1)])] s t ∧
      t = { s with regs := t.regs, evt := t.evt, recd := t.recd } ∧ onlyFlds [F.REC_DROP_DROPS] s t) ∧
  (∀ (c : BitVec 12) (n : Nat) (s : State), n = c.toNat → s.rd F.REC_CFG_EN = 1 → s.running = true → s.recEn n = true → s.recKind n ≠ 2 →
    s.recKind n < 8 → Sparse.get s.recd.due 0 n ≤ s.raw →
    ∃ v w0 t, v = { s with recd := { s.recd with due := Sparse.insert s.recd.due n (Sparse.get s.recd.due 0 n + s.recPeriod n * 500000) } } ∧
      w0 = (if s.recKind n = 1 then v.checkAll 0x17 (s.slotAreas (s.recIndex n)) else (true, v)) ∧ exec (.recPeriodicSample c) s = .next t ∧
      t = (if w0.1 = false then w0.2 else ((w0.2.recSource (s.recKind n) (s.recIndex n)).map (fun x : DWord => w0.2.recSample n x)).getD w0.2)) ∧
  (∀ (c : BitVec 12) (n : Nat) (s : State), n = c.toNat → s.raw < Sparse.get s.recd.due 0 n ∨ s.rd F.REC_CFG_EN = 0 ∨ s.running = false ∨ s.recEn n = false ∨
    s.recKind n = 2 ∨ 8 ≤ s.recKind n → ∃ t, exec (.recPeriodicSample c) s = .next t ∧ t = s) ∧
  (∀ (n : Nat) (x : DWord) (s : State), s.rd F.REC_CFG_EN = 0 ∨ s.operate = false ∨ s.safe = true ∨ (s.pairOn = true ∧ s.role ≠ 3) → s.recSample n x = s) ∧
  (∀ (n : Nat) (x : DWord) (v : State) (s : State), s.rd F.REC_CFG_EN = 1 → s.operate = true → s.safe = false → s.pairOn = false ∨ s.role = 3 →
    1024 ≤ s.recd.queue.length → v = (s.satAdd F.REC_DROP_DROPS 1).setRecChan n { s.recChan n with
        drops := if (s.recChan n).drops = 0xFFFFFFFF then 0xFFFFFFFF else (s.recChan n).drops + 1 } true →
    s.recSample n x = (if s.recd.dropRaised = true then v
      else ({ v with recd := { v.recd with dropRaised := true } }).raise 449 [BitVec.ofNat 32 (v.rd F.REC_DROP_DROPS)])) ∧
  (∀ (i : Nat) (s : State), s.recSource 1 i = (if (s.slot i).valid = true then some (s.slot i).value else none) ∧
    s.recSource 3 i = some (BitVec.ofInt 64 ((s.rd F.PWR_STAT_DIE_TEMP : Int) - 64)) ∧ s.recSource 5 i = some (BitVec.ofNat 64 (s.rd F.PWR_STAT_VLOG * 200))) ∧
  (∀ (i : Nat) (s : State), s.recSource 4 i = (if s.link i = 3 then some (BitVec.ofInt 64 ((s.heldTemp i : Int) - 64)) else none) ∧
    s.recSource 6 i = (if s.link (16 + i) = 3 then some (BitVec.ofNat 64 (leNat (((s.isl (16 + i)).held.drop 16).take 2) * 10)) else none)) ∧
  (∀ (q : RecSample) (l : List RecSample) (s : State), s.recd.queue = q :: l →
    ∃ w0 v t, w0 = { s with recd := { s.recd with queue := l } } ∧
      v = w0.recBin (s.recVtype q.chan) (s.dword (s.recEntry q.chan + 0x10)) (s.dword (s.recEntry q.chan + 0x18)) q.value ∧
      exec .recSampleApply s = .next t ∧ t = v.2.setRecChan q.chan (t.recChan q.chan) true ∧
      t.recChan q.chan = { s.recChan q.chan with
        n := (s.recChan q.chan).n + 1,
        bins := Sparse.set (s.recChan q.chan).bins 0 v.1 (if Sparse.get (s.recChan q.chan).bins 0 v.1 = 0xFFFFFFFF then 0xFFFFFFFF
          else Sparse.get (s.recChan q.chan).bins 0 v.1 + 1),
        min := (t.recChan q.chan).min, minNt := (t.recChan q.chan).minNt, max := (t.recChan q.chan).max, maxNt := (t.recChan q.chan).maxNt } ∧
      (t.recChan q.chan).min = (if vNan (s.recVtype q.chan) q.value = false ∧ ((s.recChan q.chan).n = 0 ∨ vLess (s.recVtype q.chan) q.value (s.recChan q.chan).min = true)
        then q.value else (s.recChan q.chan).min) ∧
      (t.recChan q.chan).minNt = (if vNan (s.recVtype q.chan) q.value = false ∧ ((s.recChan q.chan).n = 0 ∨ vLess (s.recVtype q.chan) q.value (s.recChan q.chan).min = true)
        then q.nt else (s.recChan q.chan).minNt) ∧
      (t.recChan q.chan).max = (if vNan (s.recVtype q.chan) q.value = false ∧ ((s.recChan q.chan).n = 0 ∨ vLess (s.recVtype q.chan) (s.recChan q.chan).max q.value = true)
        then q.value else (s.recChan q.chan).max) ∧
      (t.recChan q.chan).maxNt = (if vNan (s.recVtype q.chan) q.value = false ∧ ((s.recChan q.chan).n = 0 ∨ vLess (s.recVtype q.chan) (s.recChan q.chan).max q.value = true)
        then q.nt else (s.recChan q.chan).maxNt)) ∧
  (∀ (a b : DWord), vLess 0 a b = decide (a.toInt < b.toInt) ∧ vLess 1 a b = decide (a.toNat < b.toNat) ∧
    vLess 2 a b = (f64.decode a.toNat).lt (f64.decode b.toNat)) ∧
  (∀ (k : Nat) (lo hi x : DWord) (s : State), vNan k x = true → s.recBin k lo hi x = (31, s)) ∧
  (∀ (k : Nat) (lo hi x : DWord) (s : State), vNan k x = false → vLess k x lo = true → s.recBin k lo hi x = (0, s)) ∧
  (∀ (k : Nat) (lo hi x : DWord) (s : State), vNan k x = false → vLess k x lo = false → vLess k x hi = false → vNan k hi = false → s.recBin k lo hi x = (31, s)) ∧
  (∀ (lo hi x : DWord) (s : State), lo.toInt ≤ x.toInt → x.toInt < hi.toInt →
    s.recBin 0 lo hi x = ((1 + 30 * (x.toInt - lo.toInt) / (hi.toInt - lo.toInt)).toNat, s)) ∧
  (∀ (lo hi x : DWord) (s : State), lo.toNat ≤ x.toNat → x.toNat < hi.toNat →
    s.recBin 1 lo hi x = (1 + 30 * (x.toNat - lo.toNat) / (hi.toNat - lo.toNat), s)) ∧
  (∀ (lo hi x : DWord) (s : State), vNan 2 x = false → vLess 2 x lo = false → vLess 2 x hi = true → vFinite 2 lo = true → vFinite 2 hi = true →
    s.recBin 2 lo hi x = ((1 + 30 * ((f64.decode x.toNat).scaled 1074 - (f64.decode lo.toNat).scaled 1074) /
      ((f64.decode hi.toNat).scaled 1074 - (f64.decode lo.toNat).scaled 1074)).toNat, s)) ∧
  (∀ (lo hi x : DWord) (s : State), vNan 2 x = false → vLess 2 x lo = false → vLess 2 x hi = true ∨ vNan 2 hi = true → vFinite 2 lo = false ∨ vFinite 2 hi = false →
    1 ≤ (s.recBin 2 lo hi x).1 ∧ (s.recBin 2 lo hi x).1 ≤ 30 ∧ (s.recBin 2 lo hi x).2 = s.draw.2) ∧
  (∀ (q : RecSample) (l : List RecSample) (e b lo hi v0 : Nat) (r : RecChan) (s : State), s.recd.queue = q :: l → e = s.recEntry q.chan →
    s.recVtype q.chan = 1 → lo = (s.dword (e + 0x10)).toNat → hi = (s.dword (e + 0x18)).toNat → v0 = q.value.toNat → lo < hi →
    b = (if v0 < lo then 0 else if hi ≤ v0 then 31 else 1 + 30 * (v0 - lo) / (hi - lo)) → r = s.recChan q.chan → r.n.toNat < 0xFFFFFFFFFFFFFFFF →
    (Sparse.get r.bins 0 b).toNat < 0xFFFFFFFF →
    ∃ t, exec .recSampleApply s = .next t ∧ t = { s with recd := t.recd } ∧ t.recd.queue = l ∧ Sparse.get t.recd.dirty false q.chan = true ∧
      t.recChan q.chan = { r with
        n := r.n + 1, bins := Sparse.set r.bins 0 b (Sparse.get r.bins 0 b + 1), min := if r.n = 0 ∨ v0 < r.min.toNat then q.value else r.min,
        minNt := if r.n = 0 ∨ v0 < r.min.toNat then q.nt else r.minNt, max := if r.n = 0 ∨ r.max.toNat < v0 then q.value else r.max,
        maxNt := if r.n = 0 ∨ r.max.toNat < v0 then q.nt else r.maxNt }) ∧
  (∀ s : State, s.recd.queue = [] → ∃ t, exec .recSampleApply s = .next t ∧ t = s) ∧
  (∀ (c : Nat) (r : RecChan) (s : State), s.rd F.REC_CFG_EN = 1 → s.running = true → s.recd.lastFlush + s.rd F.REC_CFG_FLUSH * 50000000 ≤ s.raw →
    s.recd.dirty = [(c, true)] → s.recEn c = true → c < 4096 → r = { s.recChan c with seq := (s.recChan c).seq + 1 } →
    ∃ v t, v = s.setBytes 0x60101000 (recBytes c r true) ∧ v.bytes 0x60101000 256 = recBytes c r true ∧ sameMemBut 0x60101000 256 s v ∧
      exec .recFlush s = .next t ∧ t.bytes (0x60110000 + 256 * c) 256 = recBytes c r true ∧ sameMemBut (0x60110000 + 256 * c) 256 v t ∧
      t.recd = { s.recd with
        chans := Sparse.insert s.recd.chans c r, dirty := Sparse.set s.recd.dirty false c false, dropRaised := false, lastFlush := s.raw } ∧
      t = { s with mem := t.mem, recd := t.recd }) ∧
  (∀ (l : List Nat) (s : State), s.rd F.REC_CFG_EN = 1 → s.running = true → s.recd.lastFlush + s.rd F.REC_CFG_FLUSH * 50000000 ≤ s.raw →
    l = (s.recd.dirty.filter (fun p : Nat × Bool => p.2 && s.recEn p.1)).map (fun p : Nat × Bool => p.1) →
    ∃ v t, v = l.foldl State.recFlushChan s ∧ exec .recFlush s = .next t ∧ t = { v with recd := { v.recd with dropRaised := false, lastFlush := s.raw } }) ∧
  (∀ (c : Nat) (x : RecChan) (s : State), x = { s.recChan c with seq := (s.recChan c).seq + 1 } →
    s.recFlushChan c = ((s.setRecChan c x false).setBytes 0x60101000 (recBytes c x true)).setBytes (0x60110000 + 256 * c) (recBytes c x true)) ∧
  (∀ s : State, s.raw < s.recd.lastFlush + s.rd F.REC_CFG_FLUSH * 50000000 ∨ s.rd F.REC_CFG_EN = 0 ∨ s.running = false →
    ∃ t, exec .recFlush s = .next t ∧ t = s) ∧
  (∀ (w : Word) (n : Nat) (s : State), s.mustWait = false → w.toNat / 65536 = 0x4E54 → n = w.toNat / 256 % 16 → 1 ≤ n → n ≤ 10 →
    ∃ t, exec (.recNoteCmd .mp w) s = .next t ∧ noted (w.toNat % 256) ((List.range n).map (fun k => s.reg (Reg.REC_NOTE_D k))) s t ∧
      t = { s with
        mem := t.mem, regs := t.regs, recd := t.recd, mp := { s.mp with console := s.mp.console ++ [ConsoleLine.note (w.toNat % 256) s.recd.noteSeq] } } ∧
      onlyFlds [F.REC_NOTE_STAT_NEXT] s t) ∧
  (∀ (w : Word) (s : State), s.mustWait = false → w.toNat / 65536 ≠ 0x4E54 ∨ w.toNat / 256 % 16 = 0 ∨ 10 < w.toNat / 256 % 16 →
    ∃ t, exec (.recNoteCmd .mp w) s = .next t ∧ t = s) ∧
  (∀ (who : Requester) (w : Word) (s : State), s.mustWait = true →
    ∃ t, exec (.recNoteCmd who w) s = .next t ∧ t = { s with heldWrites := s.heldWrites ++ [(who, Reg.REC_NOTE_CMD, w)] }) ∧
  (∀ (h : HartId) (p : PartId) (w : Word) (s : State), s.mustWait = false → ∃ t, exec (.recNoteCmd (.lane h p) w) s = .next t ∧ t = s) ∧
  (∀ (c : Cmd) (s : State), inHand 0x17 0x10 c s → c.fin = none → ∃ t, exec .recExport s = .next t ∧ t = s.accept 0x17 c) ∧
  (∀ (c : Cmd) (s : State), c.headerOk = false ∨ c.fld 8 12 20 ≠ 0 ∨ c.fld 0xC 13 19 ≠ 0 ∨ c.fld 0xC 0 13 = 0 ∨ 4096 < c.fld 0xC 0 13 ∨ s.recCount < c.fld 8 0 12 + c.fld 0xC 0 13 →
    s.exportFails c = some ⟨0x20, 0, []⟩ ∧ s.clearFails c = some ⟨0x20, 0, []⟩) ∧
  (∀ (c : Cmd) (s : State), c.headerOk = true → c.fld 8 12 20 = 0 → c.fld 0xC 13 19 = 0 → 1 ≤ c.fld 0xC 0 13 → c.fld 0xC 0 13 ≤ 4096 → c.fld 8 0 12 + c.fld 0xC 0 13 ≤ s.recCount →
    s.clearFails c = (if c.zeroFrom 0x10 = true then none else some ⟨0x20, 0, []⟩) ∧
    s.exportFails c = (if c.fld 0x10 0 6 = 0 ∧ c.fld 0x14 8 24 = 0 ∧ c.zeroFrom 0x18 = true ∧ s.engineMayWrite (c.addr 0x10) (256 * c.fld 0xC 0 13) = true
      then none else some ⟨0x20, 0, []⟩)) ∧
  (∀ (c : Cmd) (k : Nat) (s : State), k = min 16 (c.fld 0xC 0 13 - c.prog) →
    ∃ v, v = (List.range k).foldl (fun (u : State) (i : Nat) => u.outBuf c (c.addr 0x10 + 256 * (c.prog + i))
        (recBytes (c.fld 8 0 12 + c.prog + i) (u.recChan (c.fld 8 0 12 + c.prog + i)) (u.recEn (c.fld 8 0 12 + c.prog + i)))) s ∧
      s.exportStep c = (if c.fld 0xC 0 13 ≤ c.prog + k then v.endLong c ⟨0x00, 0, [BitVec.ofNat 32 (c.fld 0xC 0 13)]⟩ else v.setOut { c with prog := c.prog + k })) ∧
  (∀ (s : State), s.hand 0x17 = none ∨ s.running = false → ∃ t, exec .recExport s = .next t ∧ t = s) ∧
  (∀ (s : State), s.hand 0x17 = none ∨ s.running = false → ∃ t, exec .recClear s = .next t ∧ t = s) ∧
  (∀ (c : Cmd) (f : Final) (s : State), inHand 0x17 0x11 c s → c.fin = some f → ∃ t, exec .recClear s = .next t ∧ t = s.finish 0x17 c f) ∧
  (∀ (c : Cmd) (s : State), inHand 0x17 0x11 c s → c.fin = none →
    ∃ v t, v = (s.accept 0x17 c).recClear ((List.range (c.fld 0xC 0 13)).map (fun k : Nat => k + c.fld 8 0 12)) ∧ exec .recClear s = .next t ∧
      t = (v.endLong { c with long := true, ntAcc := BitVec.ofNat 32 s.ntNs } ⟨0x00, 0, [BitVec.ofNat 32 (v.rd F.REC_CLEAR_GEN_GEN)]⟩).raise 448
        [BitVec.ofNat 32 (c.fld 8 0 12 + 65536 * c.fld 0xC 0 13), BitVec.ofNat 32 (v.rd F.REC_CLEAR_GEN_GEN)]) ∧
  (∀ (l : List Nat) (g : Nat) (s : State), g = min (s.rd F.REC_CLEAR_GEN_GEN + 1) 0xFFFFFFFF →
    s.recClear l = State.wr ((l.foldl (fun (u : State) (c : Nat) => u.recClearChan g c) s).recWriteHdr g) F.REC_CLEAR_GEN_GEN g) ∧
  (∀ (c : Cmd) (n g : Nat) (r : RecChan) (s : State), inHand 0x17 0x11 c s → c.fin = none → n = c.fld 8 0 12 → c.fld 0xC 0 13 = 1 →
    g = s.rd F.REC_CLEAR_GEN_GEN + 1 → g < 0x100000000 → r = (⟨(s.recChan n).seq + 1, BitVec.ofNat 32 g, 0, 0, 0, 0, 0, 0, 0, [], 0⟩ : RecChan) →
    ∃ w0 v t, w0 = s.accept 0x17 c ∧ v = w0.recClear [n] ∧ v.recChan n = { r with cfgCrc := crc32c (w0.bytes (s.recEntry n) 32), since := BitVec.ofNat 64 s.ntNs } ∧
      v.rd F.REC_CLEAR_GEN_GEN = g ∧ v.bytes (recHome n) 256 = recBytes n (v.recChan n) true ∧ v = { w0 with mem := v.mem, regs := v.regs, recd := v.recd } ∧
      onlyFlds [F.REC_CLEAR_GEN_GEN] w0 v ∧ exec .recClear s = .next t ∧
      t = (v.endLong { c with long := true, ntAcc := BitVec.ofNat 32 s.ntNs } ⟨0x00, 0, [BitVec.ofNat 32 g]⟩).raise 448 [BitVec.ofNat 32 (n + 65536), BitVec.ofNat 32 g]) ∧
  (∀ (c : Cmd) (f : Final) (s : State), inHand 0x17 0x10 c s → c.fin = some f → ∃ t, exec .recExport s = .next t ∧ t = s.finish 0x17 c f)

/-- In-service tests and calibration (R537, R538, R542 to R545): the selection for LBIST, a scrub read, the end of an off-pulse, the
ageing of calibration records and the record that an island's recalibration writes. A clause that ends in t = s (an event before its
instant or without its condition changes nothing) is the model's choice, notes/assumptions/2.md. Where the clauses meet what
notes/assumptions/72.md, notes/assumptions/73.md, notes/assumptions/92.md record, they say the model's choice. -/
def Obligations.TestsAndCalibration : Prop :=
  (∀ s : State, s.rd F.IST_CFG_LBIST_EN = 1 → s.running = true → s.rd F.IST_CTL_PAUSE = 0 → s.rd F.MPX_STAT_SHED < 3 → s.acts = true →
    s.ist.wait = none → s.rd F.IST_CFG_ROT_PERIOD * 327680 ≤ s.rtcSince s.ist.selRtc →
    ∃ t, exec .istLbistSelect s = .next t ∧ t = { s with ist := { s.ist with
        wait := some s.ist.next, selRtc := s.pwr.rtc.toNat, next := (match s.ist.next with | .a => LaneId.b | .b => LaneId.c | .c => LaneId.a) } }) ∧
  (∀ s : State, s.rd F.IST_CFG_LBIST_EN = 0 ∨ s.running = false ∨ s.rd F.IST_CTL_PAUSE = 1 ∨ s.rd F.MPX_STAT_SHED = 3 ∨ s.acts = false ∨
    s.ist.wait.isSome = true ∨ s.rtcSince s.ist.selRtc < s.rd F.IST_CFG_ROT_PERIOD * 327680 →
    ∃ t, exec .istLbistSelect s = .next t ∧ t = s) ∧
  (∀ s : State, s.scrubs = true ↔ s.rd F.IST_CFG_SCRUB_EN = 1 ∧ (s.phase = Phase.setup ∨ s.phase = Phase.locking ∨ s.phase = Phase.operate) ∧ s.safe = false ∧
    (s.pwr.state = PowerState.run ∨ s.pwr.state = PowerState.entering ∨ s.pwr.state = PowerState.e1)) ∧
  (∀ (n : Nat) (s : State), s.scrubs = true → n = s.rd F.IST_SCRUB_POS_LINE →
    ∃ w0 v t, w0 = (s.wr F.IST_STAT_SCRUB_RUN 1).scrubLine n ∧ v = State.satAdd (w0.wr F.IST_SCRUB_POS_LINE 0) F.IST_SCRUB_PASSES 1 ∧
      exec .dramScrubRead s = .next t ∧ t = (if n = 0xFFFFFFF then v.raise 459 [v.reg Reg.IST_SCRUB] else w0.wr F.IST_SCRUB_POS_LINE (n + 1))) ∧
  (∀ (n : Nat) (l : List (Nat × Ecc)) (s : State), l = s.lineErrors (0x1000000000 + 64 * n) →
    ∃ v, v = (if l.any (fun x : Nat × Ecc => x.2 == Ecc.corrected) = true then s.satAdd F.IST_SCRUB_CORR 1 else s) ∧ s.scrubLine n = l.foldl State.scrubWord v) ∧
  (∀ (a : Nat) (s : State), s.scrubWord (a, Ecc.corrected) = { s with ecc := Sparse.erase s.ecc a, eccCount := s.eccCount + 1 }) ∧
  (∀ (a : Nat) (s : State), s.rd F.IST_SCRUB_UE_HI_VALID = 1 →
    s.scrubWord (a, Ecc.uncorrectable) = (s.raise 458 [BitVec.ofNat 32 (8 * a), BitVec.ofNat 32 (8 * a / 2 ^ 32 % 256)]).recNoteWrite 9
      [s.reg Reg.IST_SCRUB_UE_LO, s.reg Reg.IST_SCRUB_UE_HI]) ∧
  (∀ (n : Nat) (s : State), s.scrubs = true → n = s.rd F.IST_SCRUB_POS_LINE →
    s.lineErrors (0x1000000000 + 64 * n) = [] → n < 0xFFFFFFF →
    ∃ t, exec .dramScrubRead s = .next t ∧ t.rd F.IST_SCRUB_POS_LINE = n + 1 ∧ t.rd F.IST_STAT_SCRUB_RUN = 1 ∧ t = { s with regs := t.regs } ∧
      onlyFlds [F.IST_SCRUB_POS_LINE, F.IST_STAT_SCRUB_RUN] s t) ∧
  (∀ (n a : Nat) (s : State), s.scrubs = true → n = s.rd F.IST_SCRUB_POS_LINE →
    s.lineErrors (0x1000000000 + 64 * n) = [(a, Ecc.corrected)] → n < 0xFFFFFFF →
    ∃ t, exec .dramScrubRead s = .next t ∧ t.rd F.IST_SCRUB_POS_LINE = n + 1 ∧ counted F.IST_SCRUB_CORR s t ∧ t.ecc = Sparse.erase s.ecc a ∧
      t.eccCount = s.eccCount + 1 ∧ t = { s with regs := t.regs, ecc := t.ecc, eccCount := t.eccCount } ∧
      onlyFlds [F.IST_SCRUB_POS_LINE, F.IST_STAT_SCRUB_RUN, F.IST_SCRUB_CORR] s t) ∧
  (∀ (n a : Nat) (s : State), s.scrubs = true → n = s.rd F.IST_SCRUB_POS_LINE →
    s.lineErrors (0x1000000000 + 64 * n) = [(a, Ecc.uncorrectable)] → n < 0xFFFFFFF →
    s.rd F.IST_SCRUB_UE_HI_VALID = 0 →
    ∃ v t, v = (((((s.wr F.IST_STAT_SCRUB_RUN 1).wr F.IST_SCRUB_UE_LO_ADDR_LO (8 * a)).wr F.IST_SCRUB_UE_HI_ADDR_HI (8 * a / 2 ^ 32)).wr F.IST_SCRUB_UE_HI_VALID 1)) ∧
      exec .dramScrubRead s = .next t ∧ t.rd F.IST_SCRUB_POS_LINE = n + 1 ∧ t.rd F.IST_SCRUB_UE_LO_ADDR_LO = 8 * a % 2 ^ 32 ∧
      t.rd F.IST_SCRUB_UE_HI_ADDR_HI = 8 * a / 2 ^ 32 % 256 ∧ t.rd F.IST_SCRUB_UE_HI_VALID = 1 ∧
      raised [(458, [BitVec.ofNat 32 (8 * a), BitVec.ofNat 32 (8 * a / 2 ^ 32 % 256)])] s t ∧ noted 9 [v.reg Reg.IST_SCRUB_UE_LO, v.reg Reg.IST_SCRUB_UE_HI] s t ∧
      t = { s with
        mem := t.mem, regs := t.regs, evt := t.evt, recd := t.recd, mp := { s.mp with console := s.mp.console ++ [ConsoleLine.note 9 s.recd.noteSeq] } } ∧
      onlyFlds [F.IST_SCRUB_POS_LINE, F.IST_STAT_SCRUB_RUN,
        F.IST_SCRUB_UE_LO_ADDR_LO, F.IST_SCRUB_UE_HI_ADDR_HI, F.IST_SCRUB_UE_HI_VALID, F.REC_NOTE_STAT_NEXT] s t) ∧
  (∀ s : State, s.scrubs = true → s.rd F.IST_SCRUB_POS_LINE = 0xFFFFFFF →
    s.lineErrors 0x13FFFFFFC0 = [] →
    ∃ t, exec .dramScrubRead s = .next t ∧ t.rd F.IST_SCRUB_POS_LINE = 0 ∧ counted F.IST_SCRUB_PASSES s t ∧ raised [(459, [t.reg Reg.IST_SCRUB])] s t ∧
      t = { s with regs := t.regs, evt := t.evt } ∧ onlyFlds [F.IST_SCRUB_POS_LINE, F.IST_STAT_SCRUB_RUN, F.IST_SCRUB_PASSES] s t) ∧
  (∀ s : State, s.scrubs = false → ∃ t, exec .dramScrubRead s = .next t ∧ t = s) ∧
  (∀ (ch r : Nat) (s : State), s.fld.offp = some ⟨ch, 0, some r, false⟩ → r + (s.rd F.IST_OFFP_LEN + 1) * 4000 ≤ s.raw → ch < 128 →
    ∃ t, exec .istOffpulseEnd s = .next t ∧ t.rd (⟨Reg.IST_OFFP_FAIL (ch / 32), ch % 32, 1⟩ : Fld) = 1 ∧ raised [(461, [BitVec.ofNat 32 ch])] s t ∧
      t = { s with regs := t.regs, evt := t.evt, fld := { s.fld with offp := none } } ∧ onlyFlds [(⟨Reg.IST_OFFP_FAIL (ch / 32), ch % 32, 1⟩ : Fld)] s t) ∧
  (∀ (ch r : Nat) (s : State), s.fld.offp = some ⟨ch, 0, some r, true⟩ → r + (s.rd F.IST_OFFP_LEN + 1) * 4000 ≤ s.raw →
    ∃ t, exec .istOffpulseEnd s = .next t ∧ t = { s with fld := { s.fld with offp := none } }) ∧
  (∀ s : State, Option.all (fun o : OffPulse => o.left != 0 || Option.all (fun r : Nat => decide (s.raw < r + (s.rd F.IST_OFFP_LEN + 1) * 4000)) o.start) s.fld.offp = true →
    ∃ t, exec .istOffpulseEnd s = .next t ∧ t = s) ∧
  (∀ s : State, s.phase ≠ Phase.reset → 32768 ≤ s.rtcSince s.mp.lastCal →
    ∃ v t, v = (List.range 73).foldl (fun (u : State) (n : Nat) => if n = 0 ∨ u.link (calIsland n) = 3 then u.calJudge n (u.calNow n) else u) s ∧ exec .calAgeCheck s = .next t ∧
      t = State.wr { v with mp := { v.mp with lastCal := s.pwr.rtc.toNat } } F.IST_CAL_AGED ((List.range 73).filter (fun n : Nat => v.calValid n && v.calAged n)).length) ∧
  (∀ s : State, s.phase = Phase.reset ∨ s.rtcSince s.mp.lastCal < 32768 → ∃ t, exec .calAgeCheck s = .next t ∧ t = s) ∧
  (∀ (n now : Nat) (s : State), s.calValid n = false ∨ s.calAged n = true ∨ (s.calTemp n ≤ now + 25 ∧ now ≤ s.calTemp n + 25) → s.calJudge n now = s) ∧
  (∀ (n now : Nat) (s : State), s.calValid n = true → s.calAged n = false → s.calTemp n + 25 < now ∨ now + 25 < s.calTemp n →
    ∃ v, v = ((((s.setMemFld (calSlot n) 16 1 1).calClose n).raise 462 [BitVec.ofNat 32 (n + 65536 * s.calTemp n + 2 ^ 24 * now)]).recNoteWrite 5
        [BitVec.ofNat 32 n, BitVec.ofNat 32 (s.calTemp n), BitVec.ofNat 32 now]) ∧
      s.calJudge n now = (if s.rd F.IST_CFG_CAL_EN = 0 then v else if n = 0 then { v with mp := { v.mp with retrain := some (100, 0) } }
        else { v with mp := { v.mp with calPending := s.mp.calPending.filter (fun p : Nat × Option Nat => p.1 != n) ++ [(n, none)] } })) ∧
  (∀ (k : Nat) (s : State), s.phase ≠ Phase.reset → 32768 ≤ s.rtcSince s.mp.lastCal → 0 < k → k < 73 → (∀ n ∈ List.range 73, n ≠ k → s.calValid n = false) →
    s.calValid k = true → s.calAged k = false → s.link (calIsland k) = 3 → s.calTemp k + 25 < s.calNow k → s.rd F.IST_CFG_CAL_EN = 1 →
    ∃ v t, v = (s.setMemFld (calSlot k) 16 1 1).calClose k ∧ v.calValid k = true ∧ v.calAged k = true ∧ sameMemBut (calSlot k) 256 s v ∧
      exec .calAgeCheck s = .next t ∧ noted 5 [BitVec.ofNat 32 k, BitVec.ofNat 32 (s.calTemp k), BitVec.ofNat 32 (s.calNow k)] v t ∧
      raised [(462, [BitVec.ofNat 32 (k + 65536 * s.calTemp k + 2 ^ 24 * s.calNow k)])] s t ∧ t.rd F.IST_CAL_AGED = 1 ∧
      t = { s with
        mem := t.mem, regs := t.regs, evt := t.evt, recd := t.recd,
        mp := { s.mp with
          calPending := s.mp.calPending.filter (fun p : Nat × Option Nat => p.1 != k) ++ [(k, none)], lastCal := s.pwr.rtc.toNat,
          console := s.mp.console ++ [ConsoleLine.note 5 s.recd.noteSeq] } } ∧
      onlyFlds [F.IST_CAL_AGED, F.REC_NOTE_STAT_NEXT] s t) ∧
  (∀ s : State, s.phase ≠ Phase.reset → 32768 ≤ s.rtcSince s.mp.lastCal → (∀ n ∈ List.range 73, s.calValid n = true → s.calAged n = false ∧
      ((n ≠ 0 ∧ s.link (calIsland n) ≠ 3) ∨ (s.calTemp n ≤ s.calNow n + 25 ∧ s.calNow n ≤ s.calTemp n + 25))) →
    ∃ t, exec .calAgeCheck s = .next t ∧ t.rd F.IST_CAL_AGED = 0 ∧ t = { s with regs := t.regs, mp := { s.mp with lastCal := s.pwr.rtc.toNat } } ∧
      onlyFlds [F.IST_CAL_AGED] s t) ∧
  (∀ (n : Fin 73) (q : Nat) (s : State), n.val ≠ 0 → s.mp.calPending.any (fun p : Nat × Option Nat => p.1 == n.val &&
      Option.any (fun x : Nat => decide ((if n.val ≤ 64 then 32768 else 3277) ≤ s.rtcSince x)) p.2) = true →
    s.link (if n.val ≤ 64 then 24 + (n.val - 1) / 2 else 16 + (n.val - 65)) = 3 → s.operate = true →
    q = (if s.calValid n.val = true then s.le (calSlot n.val + 0x10) 4 + 1 else 0) →
    ∃ t, exec (.calIslandDone n) s = .next t ∧ t.words (calSlot n.val) 5 = [BitVec.ofNat 32 (if n.val ≤ 64 then 2 + 256 * (n.val - 1) else 3 + 256 * (n.val - 65)),
        BitVec.ofNat 32 (s.calNow n.val % 256 + 256), s.pwr.rtc.setWidth 32, BitVec.ofNat 32 (s.pwr.rtc.toNat / 2 ^ 32), BitVec.ofNat 32 q] ∧
      t.calValid n.val = true ∧ sameMemBut (calSlot n.val) 256 s t ∧ raised [(463, [BitVec.ofNat 32 (n.val + 65536 * s.calNow n.val)])] s t ∧
      counted F.IST_CAL_RECAL s t ∧ t.mp = { s.mp with calPending := s.mp.calPending.filter (fun p : Nat × Option Nat => p.1 != n.val) } ∧
      t = { s with mem := t.mem, regs := t.regs, evt := t.evt, mp := t.mp, freeCtr := t.freeCtr } ∧ onlyFlds [F.IST_CAL_RECAL, F.IST_CAL_AGED] s t) ∧
  (∀ (n : Fin 73) (s : State), n.val = 0 ∨ s.mp.calPending.all (fun p : Nat × Option Nat => p.1 != n.val ||
      Option.all (fun x : Nat => decide (s.rtcSince x < (if n.val ≤ 64 then 32768 else 3277))) p.2) = true ∨
    s.link (if n.val ≤ 64 then 24 + (n.val - 1) / 2 else 16 + (n.val - 65)) ≠ 3 ∨ s.operate = false → ∃ t, exec (.calIslandDone n) s = .next t ∧ t = s)

/-- Load, telemetry, mailbox and maintenance ports of the management processor (R547, R549, R550). A clause that ends in t = s (an event
before its instant or without its condition changes nothing) is the model's choice, notes/assumptions/2.md. Where the clauses meet what
notes/assumptions/77.md records, they say the model's choice. -/
def Obligations.ManagementServices : Prop :=
  (∀ (load : BitVec 7) (n : Nat) (s : State), s.phase ≠ Phase.reset → n = min load.toNat 100 → 90 < n → s.rd F.MPX_STAT_SHED < 3 →
    ∃ t, exec (.mpLoadWindow load) s = .next t ∧ t.rd F.MPX_STAT_LOAD = n ∧ t.rd F.MPX_STAT_SHED = s.rd F.MPX_STAT_SHED + 1 ∧
      noted 7 [BitVec.ofNat 32 (s.rd F.MPX_STAT_SHED), BitVec.ofNat 32 (s.rd F.MPX_STAT_SHED + 1), BitVec.ofNat 32 n] s t ∧
      raised [(464, [BitVec.ofNat 32 (s.rd F.MPX_STAT_SHED + 4 * (s.rd F.MPX_STAT_SHED + 1) + 256 * n)])] s t ∧
      t = { s with mem := t.mem, regs := t.regs, evt := t.evt, recd := t.recd, mp := { s.mp with lowRun := 0, console := s.mp.console ++ [ConsoleLine.note 7 s.recd.noteSeq] } } ∧
      onlyFlds [F.MPX_STAT_LOAD, F.MPX_STAT_SHED, F.REC_NOTE_STAT_NEXT] s t) ∧
  (∀ (load : BitVec 7) (n : Nat) (s : State), s.phase ≠ Phase.reset → n = min load.toNat 100 → (70 ≤ n ∧ n ≤ 90) ∨ (90 < n ∧ s.rd F.MPX_STAT_SHED = 3) →
    ∃ t, exec (.mpLoadWindow load) s = .next t ∧ t.rd F.MPX_STAT_LOAD = n ∧ t = { s with regs := t.regs, mp := { s.mp with lowRun := 0 } } ∧
      onlyFlds [F.MPX_STAT_LOAD] s t) ∧
  (∀ (load : BitVec 7) (s : State), s.phase ≠ Phase.reset → load.toNat < 70 → s.mp.lowRun ≠ 9 →
    ∃ t, exec (.mpLoadWindow load) s = .next t ∧ t.rd F.MPX_STAT_LOAD = load.toNat ∧ t = { s with regs := t.regs, mp := { s.mp with lowRun := s.mp.lowRun + 1 } } ∧
      onlyFlds [F.MPX_STAT_LOAD] s t) ∧
  (∀ (load : BitVec 7) (s : State), s.phase ≠ Phase.reset → load.toNat < 70 → s.mp.lowRun = 9 → 0 < s.rd F.MPX_STAT_SHED →
    ∃ t, exec (.mpLoadWindow load) s = .next t ∧ t.rd F.MPX_STAT_LOAD = load.toNat ∧ t.rd F.MPX_STAT_SHED = s.rd F.MPX_STAT_SHED - 1 ∧
      noted 7 [BitVec.ofNat 32 (s.rd F.MPX_STAT_SHED), BitVec.ofNat 32 (s.rd F.MPX_STAT_SHED - 1), load.zeroExtend 32] s t ∧
      raised [(464, [BitVec.ofNat 32 (s.rd F.MPX_STAT_SHED + 4 * (s.rd F.MPX_STAT_SHED - 1) + 256 * load.toNat)])] s t ∧
      t = { s with mem := t.mem, regs := t.regs, evt := t.evt, recd := t.recd, mp := { s.mp with lowRun := 0, console := s.mp.console ++ [ConsoleLine.note 7 s.recd.noteSeq] } } ∧
      onlyFlds [F.MPX_STAT_LOAD, F.MPX_STAT_SHED, F.REC_NOTE_STAT_NEXT] s t) ∧
  (∀ (load : BitVec 7) (s : State), s.phase ≠ Phase.reset → load.toNat < 70 → s.mp.lowRun = 9 → s.rd F.MPX_STAT_SHED = 0 →
    ∃ t, exec (.mpLoadWindow load) s = .next t ∧ t.rd F.MPX_STAT_LOAD = load.toNat ∧ t = { s with regs := t.regs, mp := { s.mp with lowRun := 0 } } ∧
      onlyFlds [F.MPX_STAT_LOAD] s t) ∧
  (∀ (load : BitVec 7) (s : State), s.phase = Phase.reset → ∃ t, exec (.mpLoadWindow load) s = .next t ∧ t = s) ∧
  (∀ s : State, s.phase ≠ Phase.reset → s.pwr.state ≠ PowerState.e2 → s.pwr.state ≠ PowerState.e3 → 0 < s.rd F.MPX_TELEM_PERIOD →
    s.rd F.MPX_STAT_SHED = 0 → s.mp.telemFrom + s.rd F.MPX_TELEM_PERIOD * 50000000 ≤ s.raw →
    ∃ t, exec .mpTelemetry s = .next t ∧ t = { s with mp := { s.mp with
        telemFrom := s.raw, telem := some (([Reg.SYS_ID, Reg.SYS_STEP, Reg.SYS_STRAP, Reg.SYS_BOOT, Reg.SYS_FWVER, Reg.SYS_IMG_ID,
          Reg.MPX_STAT].flatMap (fun k : Nat => beBytes 4 (s.reg k).toNat)) ++ beBytes 6 (Config.maMac 0).toNat ++ beBytes 6 (Config.maMac 1).toNat ++
          ([Reg.LANE_STAT, Reg.CORD_STAT, Reg.PAIR_STAT, Reg.PWR_STAT].flatMap (fun k : Nat => beBytes 4 (s.reg k).toNat))) } }) ∧
  (∀ s : State, s.rd F.MPX_TELEM_PERIOD = 0 ∨ 0 < s.rd F.MPX_STAT_SHED ∨ s.raw < s.mp.telemFrom + s.rd F.MPX_TELEM_PERIOD * 50000000 ∨ s.phase = Phase.reset ∨
    s.pwr.state = PowerState.e2 ∨ s.pwr.state = PowerState.e3 → ∃ t, exec .mpTelemetry s = .next t ∧ t = s) ∧
  (∀ (w : Word) (s : State), s.mp.mailWait = [] →
    s.mailAck w = s.wr F.MPX_M2L_ACK_SEQ (w.toNat % 65536)) ∧
  (∀ (c : Nat) (x : Word) (l : List (Nat × Word)) (w : Word) (s : State), s.mp.mailWait = (c, x) :: l →
    ∃ v, v = s.wr F.MPX_M2L_ACK_SEQ (w.toNat % 65536) ∧
      s.mailAck w = (if v.rd F.MPX_M2L_CMD_SEQ = w.toNat % 65536 then ({ v with mp := { v.mp with mailWait := l } }).mailSend c x else v)) ∧
  (∀ (h : HartId) (p : PartId) (w : Word) (s : State), s.mustWait = false → w.toNat / 65536 % 256 = 1 →
    ∃ t, exec (.mpxL2mCmd (.lane h p) w) s = .next t ∧ t.rd F.MPX_L2M_CMD_SEQ = w.toNat % 65536 ∧ t.rd F.MPX_L2M_CMD_CODE = 1 ∧ t.rd (mpIrqFld 0) = 1 ∧
      t.rd F.MPX_L2M_ACK_SEQ = w.toNat % 65536 ∧ noted 0x80 ((List.range 8).map (fun k => s.reg (Reg.MPX_L2M_D k))) s t ∧
      t = { s with
        mem := t.mem, regs := t.regs, recd := t.recd, mp := { s.mp with console := s.mp.console ++ [ConsoleLine.note 0x80 s.recd.noteSeq] } } ∧
      onlyFlds [F.MPX_L2M_CMD_SEQ, F.MPX_L2M_CMD_CODE, mpIrqFld 0, F.MPX_L2M_ACK_SEQ, F.REC_NOTE_STAT_NEXT] s t) ∧
  (∀ (h : HartId) (p : PartId) (w : Word) (n q a : Nat) (s : State), s.mustWait = false → n = w.toNat / 65536 % 256 → n ≠ 1 → s.rd F.MPX_M2L_CMD_SEQ = s.rd F.MPX_M2L_ACK_SEQ →
    q = (s.rd F.MPX_M2L_CMD_SEQ + 1) % 65536 → a = (if n = 2 then 2 else 0xFF) →
    ∃ t, exec (.mpxL2mCmd (.lane h p) w) s = .next t ∧ t.rd F.MPX_L2M_CMD_SEQ = w.toNat % 65536 ∧ t.rd F.MPX_L2M_CMD_CODE = n ∧ t.rd (mpIrqFld 0) = 1 ∧
      t.rd F.MPX_L2M_ACK_SEQ = w.toNat % 65536 ∧ t.rd F.MPX_M2L_CMD_SEQ = q ∧ t.rd F.MPX_M2L_CMD_CODE = a ∧
      t.reg (Reg.MPX_M2L_D 0) = (if n = 2 then s.maintState else 0) ∧ raised [(466, [BitVec.ofNat 32 (q + 65536 * a)])] s t ∧
      t = { s with regs := t.regs, evt := t.evt } ∧
      onlyFlds [F.MPX_L2M_CMD_SEQ, F.MPX_L2M_CMD_CODE, mpIrqFld 0, F.MPX_L2M_ACK_SEQ, F.MPX_M2L_CMD_SEQ, F.MPX_M2L_CMD_CODE, F.MPX_M2L_D_DATA 0] s t) ∧
  (∀ (h : HartId) (p : PartId) (w : Word) (n : Nat) (s : State), s.mustWait = false → n = w.toNat / 65536 % 256 → n ≠ 1 → s.rd F.MPX_M2L_CMD_SEQ ≠ s.rd F.MPX_M2L_ACK_SEQ →
    ∃ t, exec (.mpxL2mCmd (.lane h p) w) s = .next t ∧ t.rd F.MPX_L2M_ACK_SEQ = w.toNat % 65536 ∧ t.rd F.MPX_L2M_CMD_CODE = n ∧
      t = { s with regs := t.regs, mp := { s.mp with mailWait := s.mp.mailWait ++ [(if n = 2 then (2, s.maintState) else (0xFF, 0))] } } ∧
      onlyFlds [F.MPX_L2M_CMD_SEQ, F.MPX_L2M_CMD_CODE, mpIrqFld 0, F.MPX_L2M_ACK_SEQ] s t) ∧
  (∀ (w : Word) (s : State), s.mustWait = false →
    ∃ t, exec (.mpxL2mCmd .mp w) s = .next t ∧ t.rd F.MPX_L2M_CMD_SEQ = w.toNat % 65536 ∧ t.rd F.MPX_L2M_CMD_CODE = w.toNat / 65536 % 256 ∧
      t = { s with regs := t.regs } ∧ onlyFlds [F.MPX_L2M_CMD_SEQ, F.MPX_L2M_CMD_CODE] s t) ∧
  (∀ (who : Requester) (w : Word) (s : State), s.mustWait = true →
    ∃ t, exec (.mpxL2mCmd who w) s = .next t ∧ t = { s with heldWrites := s.heldWrites ++ [(who, Reg.MPX_L2M_CMD, w)] }) ∧
  (∀ (who : Requester) (w : Word) (s : State), s.mustWait = true →
    ∃ t, exec (.mpxM2lCmd who w) s = .next t ∧ t = { s with heldWrites := s.heldWrites ++ [(who, Reg.MPX_M2L_CMD, w)] }) ∧
  (∀ (w : Word) (s : State), s.mustWait = false →
    ∃ t, exec (.mpxM2lCmd .mp w) s = .next t ∧ t.rd F.MPX_M2L_CMD_SEQ = w.toNat % 65536 ∧ t.rd F.MPX_M2L_CMD_CODE = w.toNat / 65536 % 256 ∧
      raised [(466, [BitVec.ofNat 32 (w.toNat % 16777216)])] s t ∧ t = { s with regs := t.regs, evt := t.evt } ∧
      onlyFlds [F.MPX_M2L_CMD_SEQ, F.MPX_M2L_CMD_CODE] s t) ∧
  (∀ (h : HartId) (p : PartId) (w : Word) (s : State), s.mustWait = false → ∃ t, exec (.mpxM2lCmd (.lane h p) w) s = .next t ∧ t = s) ∧
  (∀ (port : Fin 2) (f : List Byte) (s : State), s.phase ≠ Phase.reset → f.length ≤ 1518 → s.pwr.state ≠ PowerState.e2 → s.pwr.state ≠ PowerState.e3 →
    ∃ t, exec (.maFrameRx port f) s = .next t ∧ t.rd (mpIrqFld (2 + port.val)) = 1 ∧
      t = { s with regs := t.regs, mp := { s.mp with rx := s.mp.rx ++ [MaFrame.mk port f (s.maStamp port f)] } } ∧ onlyFlds [mpIrqFld (2 + port.val)] s t) ∧
  (∀ (port : Fin 2) (f : List Byte) (s : State), 1518 < f.length ∨ s.phase = Phase.reset ∨ s.pwr.state = PowerState.e2 ∨ s.pwr.state = PowerState.e3 →
    ∃ t, exec (.maFrameRx port f) s = .next t ∧ t = s) ∧
  (∀ (port : Fin 2) (f : List Byte) (s : State), ptpEvent f = false → s.maStamp port f = none) ∧
  (∀ (port : Fin 2) (f : List Byte) (n : Nat) (s : State), ptpEvent f = true → n = (s.raw + 2 ^ 64 - f.length * (if port = 0 then 4 else 40)) % 2 ^ 64 →
    s.maStamp port f = some (BitVec.ofNat 80 (s.ntCaptured n (n + (if port = 0 then 148 else 118)))))

/-- IMG_LOAD_END (R566, R567, R569, R570): a read that meets an uncorrectable word, a header with another magic number, a failed check
with its section, an image whose checks pass and whose sections are applied or refused, and no load in progress. A clause that ends in t =
s (an event before its instant or without its condition changes nothing) is the model's choice, notes/assumptions/2.md. Where the clauses
meet what notes/assumptions/11.md, notes/assumptions/75.md, notes/assumptions/76.md record, they say the model's choice. -/
def Obligations.ImageLoads : Prop :=
  (∀ (n b : Nat) (s : State), s.phase = Phase.setup → s.rd F.SYS_IMG_STAT_BUSY = 1 → n = (if s.imgHeaderBad = true then 256 else s.imgLen) →
    imgMemory s.imgAddr 256 = true → s.badWord s.imgAddr n = some b →
    ∃ t, exec .imgLoadEnd s = .next t ∧ t.rd F.SYS_IMG_STAT_ERR = 0xA ∧ t.rd F.SYS_IMG_STAT_BUSY = 0 ∧
      raised [(485, [BitVec.ofNat 32 b, BitVec.ofNat 32 (b / 2 ^ 32 % 256 + 256 * (s.draw.1.toNat % 256))])] s t ∧
      t = { s with regs := t.regs, evt := t.evt, freeCtr := t.freeCtr } ∧ onlyFlds [F.SYS_IMG_STAT_ERR, F.SYS_IMG_STAT_SECT, F.SYS_IMG_STAT_BUSY] s t) ∧
  (∀ (n : Nat) (s : State), s.phase = Phase.setup → s.rd F.SYS_IMG_STAT_BUSY = 1 → n = (if s.imgHeaderBad = true then 256 else s.imgLen) → imgMemory s.imgAddr 256 = false ∨ s.badWord s.imgAddr n = none → s.imgCheck.1 ≠ 0 →
    ∃ v t, v = s.draw.2.readCheck s.imgAddr (if imgMemory s.imgAddr 256 = true then n else 0) (s.draw.1.toNat % 256) ∧ exec .imgLoadEnd s = .next t ∧ t = v.2.imgFail s.imgCheck.1 s.imgCheck.2) ∧
  (∀ (n : Nat) (s : State), s.phase = Phase.setup → s.rd F.SYS_IMG_STAT_BUSY = 1 → n = (if s.imgHeaderBad = true then 256 else s.imgLen) → imgMemory s.imgAddr 256 = false ∨ s.badWord s.imgAddr n = none → s.imgCheck = (0, none) →
    ∃ v w0 t, v = s.draw.2.readCheck s.imgAddr (if imgMemory s.imgAddr 256 = true then n else 0) (s.draw.1.toNat % 256) ∧ w0 = v.2.imgApplyAll (s.draw.1.toNat % 256) (imgOrder s.imgTable) ∧ exec .imgLoadEnd s = .next t ∧
      t = (w0.1.map (fun i : Nat => w0.2.imgFail 8 (some i))).getD (w0.2.imgAccept s.imgCrc (s.imgFld 0x10 0 32) s.imgSigned)) ∧
  (∀ (e i : Nat) (s : State), s.imgFail e (some i) = ((s.wr F.SYS_IMG_STAT_ERR e).wr F.SYS_IMG_STAT_SECT i).wr F.SYS_IMG_STAT_BUSY 0) ∧
  (∀ (e : Nat) (s : State), s.imgFail e none = ((s.draw.2.wr F.SYS_IMG_STAT_ERR e).wr F.SYS_IMG_STAT_SECT s.draw.1.toNat).wr F.SYS_IMG_STAT_BUSY 0) ∧
  (∀ s : State, s.imgHeaderBad = true → s.imgCheck = (1, none)) ∧
  (∀ s : State, s.imgHeaderBad = false ↔ s.imgAddr % 64 = 0 ∧ s.imgFld 0 0 32 = 0x474D495A ∧ s.imgFld 4 0 16 = 1 ∧ s.imgFld 4 17 15 = 0 ∧
    s.imgLen % 64 = 0 ∧ s.imgLen ≤ 0x10000000 ∧ 0x100 + 16 * s.imgSects ≤ s.imgLen ∧ s.imgSects ≠ 0 ∧ s.imgSects ≤ 64 ∧ s.imgFld 0xC 16 16 = 0 ∧
    s.imgFld 0x14 8 24 = 0 ∧ (s.imgBytes 0x80 64).all (· == 0) = true ∧ imgMemory s.imgAddr s.imgLen = true ∧ (crc32c (s.imgBytes 0 0x1C)).toNat = s.imgCrc) ∧
  (∀ s : State, s.imgHeaderBad = false → s.imgFld 0xC 0 8 ≠ s.rd F.SYS_ID_VARIANT → s.imgCheck = (2, none)) ∧
  (∀ s : State, s.imgHeaderBad = false → s.imgFld 0xC 0 8 = s.rd F.SYS_ID_VARIANT → (crc32c (s.imgBytes 0x100 (s.imgLen - 0x100))).toNat ≠ s.imgFld 0x18 0 32 →
    s.imgCheck = (3, none)) ∧
  (∀ s : State, s.imgHeaderBad = false → s.imgFld 0xC 0 8 = s.rd F.SYS_ID_VARIANT → (crc32c (s.imgBytes 0x100 (s.imgLen - 0x100))).toNat = s.imgFld 0x18 0 32 →
    s.imgSignature ≠ 0 → s.imgCheck = (s.imgSignature, none)) ∧
  (∀ s : State, s.imgSigned = false → s.imgSignature = (if s.pwr.fuseImgSig = true then 4 else 0)) ∧
  (∀ s : State, s.imgSigned = true → s.keyOk (s.imgFld 0x14 0 8) (s.imgBytes 0x40 64) = false → s.imgSignature = 4) ∧
  (∀ (x : ImgSect) (s : State), s.imgHeaderBad = false → s.imgFld 0xC 0 8 = s.rd F.SYS_ID_VARIANT →
    (crc32c (s.imgBytes 0x100 (s.imgLen - 0x100))).toNat = s.imgFld 0x18 0 32 → s.imgSignature = 0 → s.imgTable.find? (s.imgSectBad s.imgRegs) = some x →
    s.imgCheck = (6, some x.idx)) ∧
  (∀ (s : State), s.imgHeaderBad = false → s.imgFld 0xC 0 8 = s.rd F.SYS_ID_VARIANT →
    (crc32c (s.imgBytes 0x100 (s.imgLen - 0x100))).toNat = s.imgFld 0x18 0 32 → s.imgSignature = 0 → s.imgTable.find? (s.imgSectBad s.imgRegs) = none →
    s.imgCheck = (if s.imgTable.any (fun x : ImgSect => x.ty == 5) = true then ((s.imgTable.find? s.imgCrcBad).map (fun x : ImgSect => (7, some x.idx))).getD (0, none)
      else (6, none))) ∧
  (∀ (k : Nat) (x : ImgSect) (l : List ImgSect) (s : State), s.imgApplyAll k [] = (none, s) ∧
    s.imgApplyAll k (x :: l) = (if (s.imgApply k x).1 = true then (s.imgApply k x).2.imgApplyAll k l else (some x.idx, (s.imgApply k x).2))) ∧
  (∀ (k : Nat) (x : ImgSect) (s : State), x.ty = 1 → s.imgApply k x = s.imgApplyRegs (regPairs (s.imgWords x))) ∧
  (∀ (o : Nat) (y : Word) (l : List (Nat × Word)) (s : State), s.imgApplyRegs [] = (true, s) ∧
    s.imgApplyRegs ((o, y) :: l) = (if imgRegBad o = true then (false, s) else (s.setupWrite .loader o y).imgApplyRegs l)) ∧
  (∀ (k : Nat) (x : ImgSect) (s : State), x.ty = 2 → s.imgApply k x = (true, s.imgApplyWords (Reg.RAT_BASE 0) (s.imgWords x))) ∧
  (∀ (k : Nat) (x : ImgSect) (s : State), x.ty = 3 → s.imgApply k x = s.imgApplyZero k (s.imgWords x)) ∧
  (∀ (k : Nat) (x : ImgSect) (s : State), x.ty = 4 → s.imgApply k x = s.imgApplyData k (s.imgBytes x.off x.len)) ∧
  (∀ (k : Nat) (bs : List Byte) (s : State), s.imgApplyData k bs = (if leNat (bs.take 8) % 64 = 0 ∧ (inDram (leNat (bs.take 8)) (bs.drop 8).length = true ∨
    within (leNat (bs.take 8)) (bs.drop 8).length 0x60400000 0x60FFFFFF = true) then (true, s.imgPut k (leNat (bs.take 8)) (bs.drop 8)) else (false, s))) ∧
  (∀ (k : Nat) (x : ImgSect) (s : State), x.ty = 5 → s.rd F.RING_DB_BASE_BASE = 0 → s.imgApply k x = (false, s)) ∧
  (∀ (k : Nat) (l : List Word) (x : ImgSect) (s : State), x.ty = 5 → s.rd F.RING_DB_BASE_BASE ≠ 0 → l = s.imgWords x →
    ∃ v, v = ((s.imgApplyWords (Reg.PE_RINGS 0) (l.take 2048)).imgApplyWords (Reg.FLUE_QUOTA 0) ((l.drop 2048).take 256)).imgApplyWords (Reg.ENG_SCHED 0 0)
        ((l.drop 2304).take 3200) ∧ s.imgApply k x = (true, v.imgApplyRings v.entryRings (l.drop 5504))) ∧
  (∀ (k : Nat) (x : ImgSect) (s : State), x.ty = 6 → s.imgApply k x = (true, s.imgApplyBanks (s.imgWords x))) ∧
  (∀ (k : Nat) (x : ImgSect) (s : State), x.ty = 7 → s.imgApply k x = (if s.rd F.SIG_DSET_BASE_BASE = 0 then (false, s)
    else (true, s.imgPut k (s.rd F.SIG_DSET_BASE_BASE * 4096) (s.imgBytes x.off x.len)))) ∧
  (∀ (k : Nat) (x : ImgSect) (s : State), x.ty = 8 → s.imgApply k x = s.imgApplyParts k (s.imgBytes x.off x.len)
    [(s.rd F.SIG_MAP_BASE_BASE, 8 * s.rd F.SIG_SLOTS_SLOTS), (s.rd F.SIG_RANGE_BASE_BASE, 16 * s.rd F.SIG_RANGE_COUNT_COUNT),
      (s.rd F.SIG_ACC_BASE_BASE, 8 * s.rd F.SIG_ACC_COUNT_COUNT)]) ∧
  (∀ (k : Nat) (x : ImgSect) (s : State), x.ty = 9 → s.imgApply k x = s.imgApplyParts k (s.imgBytes x.off x.len)
    [(s.rd F.GW_ROUTE_BASE_BASE, 8 * s.rd F.GW_ROUTE_COUNT_COUNT), (s.rd F.GW_GROUP_BASE_BASE, 32 * s.rd F.GW_GROUP_COUNT_COUNT)]) ∧
  (∀ (k : Nat) (l : List Word) (x : ImgSect) (s : State), x.ty = 10 → l = s.imgWords x →
    s.imgApply k x = (true, ((s.imgApplyWords (Reg.FLD_ISL 0) (l.take 704)).imgApplyWords 0xE4000 ((l.drop 704).take 192)).imgApplyWords (Reg.SAF_TPS 0) (l.drop 896))) ∧
  (∀ s : State, s.phase = Phase.setup → s.rd F.SYS_IMG_STAT_BUSY = 1 → s.ecc = [] → s.imgFld 0 0 32 ≠ 0x474D495A →
    ∃ t, exec .imgLoadEnd s = .next t ∧ t.rd F.SYS_IMG_STAT_ERR = 1 ∧ t.rd F.SYS_IMG_STAT_BUSY = 0 ∧
      t = { s with regs := t.regs, freeCtr := t.freeCtr } ∧ onlyFlds [F.SYS_IMG_STAT_ERR, F.SYS_IMG_STAT_SECT, F.SYS_IMG_STAT_BUSY] s t) ∧
  (∀ (e i : Nat) (s : State), s.phase = Phase.setup → s.rd F.SYS_IMG_STAT_BUSY = 1 → s.ecc = [] → s.imgCheck = (e, some i) →
    ∃ t, exec .imgLoadEnd s = .next t ∧ t.rd F.SYS_IMG_STAT_ERR = e ∧ (e = 6 ∨ e = 7) ∧ t.rd F.SYS_IMG_STAT_SECT = i ∧ t.rd F.SYS_IMG_STAT_BUSY = 0 ∧
      t = { s with regs := t.regs, freeCtr := t.freeCtr } ∧ onlyFlds [F.SYS_IMG_STAT_ERR, F.SYS_IMG_STAT_SECT, F.SYS_IMG_STAT_BUSY] s t) ∧
  (∀ s : State, s.phase = Phase.setup → s.rd F.SYS_IMG_STAT_BUSY = 1 → s.ecc = [] → s.imgCheck = (0, none) →
    ∃ v t, v = s.draw.2.imgApplyAll (s.draw.1.toNat % 256) (imgOrder s.imgTable) ∧ exec .imgLoadEnd s = .next t ∧ t.rd F.SYS_IMG_STAT_BUSY = 0 ∧
      (if v.1 = none then t.rd F.SYS_IMG_STAT_ACCEPTED = 1 ∧ t.rd F.SYS_IMG_STAT_SIGNED = b2n s.imgSigned ∧ t.reg Reg.SYS_IMG_ID = BitVec.ofNat 32 s.imgCrc ∧
          t.reg Reg.SYS_IMG_VER = BitVec.ofNat 32 (s.imgFld 0x10 0 32) ∧
          onlyFlds [F.SYS_IMG_STAT_ACCEPTED, F.SYS_IMG_STAT_SIGNED, F.SYS_IMG_STAT_BUSY, F.SYS_IMG_ID_IMG_ID, F.SYS_IMG_VER_IMG_VER] v.2 t
        else t.rd F.SYS_IMG_STAT_ERR = 8 ∧ some (t.rd F.SYS_IMG_STAT_SECT) = v.1 ∧
          onlyFlds [F.SYS_IMG_STAT_ERR, F.SYS_IMG_STAT_SECT, F.SYS_IMG_STAT_BUSY] v.2 t) ∧ t = { v.2 with regs := t.regs }) ∧
  (∀ s : State, s.phase ≠ Phase.setup ∨ s.rd F.SYS_IMG_STAT_BUSY = 0 → ∃ t, exec .imgLoadEnd s = .next t ∧ t = s)

/-- The maintenance protocol without unlocked operations (R551 to R554): which requests every row takes up and how it refuses the others,
IDENT, READ_REG, NOTES, REC_EXPORT, UNLOCK_REQ, UNLOCK and its expiry, and the console. A clause that ends in t = s (an event before its
instant or without its condition changes nothing) is the model's choice, notes/assumptions/2.md. Where the clauses meet what
notes/assumptions/77.md, notes/assumptions/78.md record, they say the model's choice. -/
def Obligations.MaintenanceReads : Prop :=
  (∀ (c : Instr) (q : MaintReq) (op len : Nat) (s : State), maintRow c = some (q, op, len) → s.mpServes = false → ∃ t, exec c s = .next t ∧ t = s) ∧
  (∀ (c : Instr) (q : MaintReq) (op len : Nat) (s : State), maintRow c = some (q, op, len) → s.mpServes = true → q.magic ≠ 0x444D ∨ q.ver ≠ 1 ∨ q.dst ≠ s.maintAddr q.port ∨ (q.op ≠ op ∧ maintOps.contains q.op = true) →
    ∃ t, exec c s = .next t ∧ t.rd (mpIrqFld (2 + q.port.val)) = 1 ∧ t = { s with regs := t.regs } ∧ onlyFlds [mpIrqFld (2 + q.port.val)] s t) ∧
  (∀ (c : Instr) (q : MaintReq) (op len : Nat) (x : MaintSent) (s : State), maintRow c = some (q, op, len) → headed q s → q.op = op ∨ maintOps.contains q.op = false → s.sentBefore q = some x →
    ∃ t, exec c s = .next t ∧ t.mp.replies = x :: s.mp.replies.filter (fun y : MaintSent => decide (s.rtcSince y.rtc ≤ 32768)) ∧
      t.rd (mpIrqFld (2 + q.port.val)) = 1 ∧ onlyReply q s t) ∧
  (∀ (c : Instr) (q : MaintReq) (op len : Nat) (s : State), maintRow c = some (q, op, len) → headed q s → s.sentBefore q = none →
    maintOps.contains q.op = false ∨ (q.op = op ∧ (q.len ≠ len ∨ (s.phase = Phase.recovery ∧ inRecovery op = false))) →
    ∃ t, exec c s = .next t ∧ replied q q.op 0x20 [] [] s t ∧ onlyReply q s t) ∧
  (∀ (port : Fin 2) (s : State), s.maintAddr port = (if s.phase = Phase.recovery ∨ s.reg (if port = 0 then Reg.MPX_IP0 else Reg.MPX_IP1) = 0
    then BitVec.ofNat 32 (0xA9FE4001 + 4 * s.rd F.SYS_STRAP_SLOT_ID + port.val) else s.reg (if port = 0 then Reg.MPX_IP0 else Reg.MPX_IP1))) ∧
  (∀ (q : MaintReq) (s : State), asked q 0x01 0 s → ∃ t, exec (.ident q) s = .next t ∧ replied q 0x01 0 [s.reg Reg.SYS_ID, s.reg Reg.SYS_STEP,
      s.reg Reg.SYS_STRAP, s.reg Reg.SYS_BOOT, s.reg Reg.SYS_FWVER, s.reg Reg.SYS_IMG_ID, s.reg Reg.MPX_STAT]
      (beBytes 6 (Config.maMac 0).toNat ++ beBytes 6 (Config.maMac 1).toNat) s t ∧ onlyReply q s t) ∧
  (∀ (q : MaintReq) (off : BitVec 22) (n : Nat) (s : State), asked q 0x02 8 s → off.toNat % 4 ≠ 0 ∨ n = 0 ∨ 64 < n ∨ 0x140000 < off.toNat + 4 * n →
    ∃ t, exec (.readReg q off n) s = .next t ∧ replied q 0x02 0x20 [] [] s t ∧ onlyReply q s t) ∧
  (∀ (q : MaintReq) (off : BitVec 22) (n : Nat) (s : State), asked q 0x02 8 s → off.toNat % 4 = 0 → 1 ≤ n → n ≤ 64 → off.toNat + 4 * n ≤ 0x140000 →
    ∃ w0 v t, w0 = s.wr (mpIrqFld (2 + q.port.val)) 1 ∧ v = w0.readRegs off.toNat n ∧ v.1.length = n ∧ v.1.getD 0 0 = (w0.setupRead .mp off.toNat).1 ∧
      exec (.readReg q off n) s = .next t ∧ t = v.2.answer q 0x02 0 v.1 []) ∧
  (∀ (off n : Nat) (s : State), s.readRegs off 0 = ([], s) ∧ s.readRegs off (n + 1) =
    ((s.setupRead .mp off).1 :: ((s.setupRead .mp off).2.readRegs (off + 4) n).1, ((s.setupRead .mp off).2.readRegs (off + 4) n).2)) ∧
  (∀ (q : MaintReq) (s : State), asked q 0x02 8 s → ∃ t, exec (.readReg q 0 1) s = .next t ∧ replied q 0x02 0 [s.reg Reg.SYS_ID] [] s t ∧ onlyReply q s t) ∧
  (∀ (q : MaintReq) (k0 : Word) (s : State), asked q 0x03 4 s →
    ∃ t, exec (.notes q k0) s = .next t ∧ replied q 0x03 0 [] ((s.notesFrom k0).flatMap (fun a : Nat => s.bytes a 64)) s t ∧ onlyReply q s t) ∧
  (∀ (k0 : Word) (a : Nat) (s : State), a = 0x60102000 + 64 * (k0.toNat % 128) →
    s.noteOf k0 = (if s.word a = k0 ∧ s.le (a + 0x3C) 4 = 0x4E4F5445 ∧ (crc32c (s.bytes a 0x38)).toNat = s.le (a + 0x38) 4 then some a else none) ∧
      s.notesFrom k0 = (List.range 16).filterMap (fun i : Nat => s.noteOf (k0 + BitVec.ofNat 32 i))) ∧
  (∀ (q : MaintReq) (k0 : BitVec 12) (n : BitVec 13) (s : State), asked q 0x04 8 s → 0 < n.toNat → n.toNat ≤ 4 → k0.toNat + n.toNat ≤ s.rd F.REC_CHAN_COUNT_COUNT → s.rd F.MPX_STAT_SHED < 2 →
    ∃ t, exec (.maintRecExport q k0 n) s = .next t ∧ replied q 0x04 0 [] ((List.range n.toNat).flatMap (fun i : Nat => recBytes (k0.toNat + i)
      (s.recChan (k0.toNat + i)) (s.recEn (k0.toNat + i)))) s t ∧ onlyReply q s t) ∧
  (∀ (q : MaintReq) (k0 : BitVec 12) (n : BitVec 13) (s : State), asked q 0x04 8 s → 0 < n.toNat → n.toNat ≤ 4 → k0.toNat + n.toNat ≤ s.rd F.REC_CHAN_COUNT_COUNT → 2 ≤ s.rd F.MPX_STAT_SHED →
    ∃ t, exec (.maintRecExport q k0 n) s = .next t ∧ replied q 0x04 0x22 [] [] s t ∧ onlyReply q s t) ∧
  (∀ (q : MaintReq) (k0 : BitVec 12) (n : BitVec 13) (s : State), asked q 0x04 8 s → n.toNat = 0 ∨ 4 < n.toNat ∨ s.rd F.REC_CHAN_COUNT_COUNT < k0.toNat + n.toNat →
    ∃ t, exec (.maintRecExport q k0 n) s = .next t ∧ replied q 0x04 0x20 [] [] s t ∧ onlyReply q s t) ∧
  (∀ (q : MaintReq) (s : State), asked q 0x10 0 s →
    ∃ v w0 t, v = (s.draw.1 ++ s.draw.2.draw.1 : BitVec 128) ∧ w0 = { s with mp := { s.mp with nonce := some v }, freeCtr := s.freeCtr + 2 } ∧
      exec (.unlockReq q) s = .next t ∧ replied q 0x10 0 [] (beBytes 16 v.toNat) w0 t ∧ onlyReply q w0 t) ∧
  (∀ (q : MaintReq) (slot : Byte) (pub sig : List Byte) (n : BitVec 128) (e : BitVec 256) (s : State), asked q 0x11 132 s → slot.toNat < 4 → pub.length = 64 → sig.length = 64 →
    Option.all (fun r : Nat => decide (1966080 ≤ s.rtcSince r)) s.mp.lockedFrom = true → s.mp.nonce = some n → s.pwr.fuseRevoked.getLsbD slot.toNat = false →
    sha256 pub = s.pwr.fuseKeys.getD slot.toNat 0 →
    e = sha256 (beBytes 16 n.toNat ++ beBytes 4 (s.reg Reg.SYS_ID).toNat ++ beBytes 4 (s.reg Reg.SYS_STRAP).toNat) → sigOk e pub sig = true →
    ∃ w0 t, w0 = { s with mp := { s.mp with nonce := none, lastUnlocked := s.pwr.rtc.toNat } } ∧ exec (.unlock q slot pub sig) s = .next t ∧
      t.rd F.MPX_STAT_UNLOCKED = 1 ∧ replied q 0x11 0 [] [] w0 t ∧ t = { w0 with regs := t.regs, mp := { w0.mp with replies := t.mp.replies } } ∧
      onlyFlds [F.MPX_STAT_UNLOCKED, mpIrqFld (2 + q.port.val)] w0 t) ∧
  (∀ (q : MaintReq) (slot : Byte) (pub sig : List Byte) (l : List Nat) (s : State), asked q 0x11 132 s → slot.toNat < 4 → pub.length = 64 → sig.length = 64 →
    Option.all (fun r : Nat => decide (1966080 ≤ s.rtcSince r)) s.mp.lockedFrom = true → s.unlockOk slot.toNat pub sig = false →
    l = s.pwr.rtc.toNat :: s.mp.failed.filter (fun r : Nat => decide (s.rtcSince r < 1966080)) →
    ∃ w0 t, w0 = { s with mp := { s.mp with nonce := none, failed := if 3 ≤ l.length then [] else l, lockedFrom := if 3 ≤ l.length then some s.pwr.rtc.toNat else s.mp.lockedFrom } } ∧
      exec (.unlock q slot pub sig) s = .next t ∧ replied q 0x11 0x21 [] [] w0 t ∧ onlyReply q w0 t) ∧
  (∀ (q : MaintReq) (slot : Byte) (pub sig : List Byte) (r : Nat) (s : State), asked q 0x11 132 s → slot.toNat < 4 → pub.length = 64 → sig.length = 64 →
    s.mp.lockedFrom = some r → s.rtcSince r < 1966080 →
    ∃ w0 t, w0 = { s with mp := { s.mp with nonce := none } } ∧ exec (.unlock q slot pub sig) s = .next t ∧ replied q 0x11 0x21 [] [] w0 t ∧ onlyReply q w0 t) ∧
  (∀ (q : MaintReq) (slot : Byte) (pub sig : List Byte) (s : State), asked q 0x11 132 s → 4 ≤ slot.toNat ∨ pub.length ≠ 64 ∨ sig.length ≠ 64 →
    ∃ t, exec (.unlock q slot pub sig) s = .next t ∧ replied q 0x11 0x20 [] [] s t ∧ onlyReply q s t) ∧
  (∀ (slot : Nat) (pub sig : List Byte) (s : State), s.mp.nonce = none → s.unlockOk slot pub sig = false) ∧
  (∀ (slot : Nat) (pub sig : List Byte) (n : BitVec 128) (s : State), s.mp.nonce = some n →
    4 ≤ slot ∨ s.pwr.fuseRevoked.getLsbD slot = true ∨ sha256 pub ≠ s.pwr.fuseKeys.getD slot 0 → s.unlockOk slot pub sig = false) ∧
  (∀ s : State, s.rd F.MPX_STAT_UNLOCKED = 1 → 19660800 ≤ s.rtcSince s.mp.lastUnlocked →
    ∃ t, exec .unlockExpiry s = .next t ∧ t.rd F.MPX_STAT_UNLOCKED = 0 ∧ t = { s with regs := t.regs } ∧ onlyFlds [F.MPX_STAT_UNLOCKED] s t) ∧
  (∀ s : State, s.rtcSince s.mp.lastUnlocked < 19660800 ∨ s.rd F.MPX_STAT_UNLOCKED = 0 → ∃ t, exec .unlockExpiry s = .next t ∧ t = s) ∧
  (∀ (s : State), s.phase ≠ Phase.reset → s.phase ≠ Phase.boot →
    ∃ t, exec (.consoleCommand .ident) s = .next t ∧ t.rd (mpIrqFld 4) = 1 ∧
      t = { s with regs := t.regs, mp := { s.mp with console := s.mp.console ++ [ConsoleLine.answer ([Reg.SYS_ID, Reg.SYS_STEP, Reg.SYS_STRAP, Reg.SYS_BOOT, Reg.SYS_FWVER, Reg.SYS_IMG_ID, Reg.MPX_STAT].map s.reg ++
        [BitVec.ofNat 32 ((Config.maMac 0).toNat / 2 ^ 32), BitVec.ofNat 32 (Config.maMac 0).toNat, BitVec.ofNat 32 ((Config.maMac 1).toNat / 2 ^ 32),
          BitVec.ofNat 32 (Config.maMac 1).toNat])] } } ∧ onlyFlds [mpIrqFld 4] s t) ∧
  (∀ (k0 : Word) (s : State), s.phase ≠ Phase.reset → s.phase ≠ Phase.boot →
    ∃ t, exec (.consoleCommand (.notes k0)) s = .next t ∧ t.rd (mpIrqFld 4) = 1 ∧
      t = { s with regs := t.regs, mp := { s.mp with console := s.mp.console ++ [ConsoleLine.answer ((s.notesFrom k0).flatMap (fun a : Nat => s.words a 16))] } } ∧ onlyFlds [mpIrqFld 4] s t) ∧
  (∀ (s : State), s.phase ≠ Phase.reset → s.phase ≠ Phase.boot →
    ∃ t, exec (.consoleCommand (.readReg 0 1)) s = .next t ∧ t.rd (mpIrqFld 4) = 1 ∧
      t = { s with regs := t.regs, mp := { s.mp with console := s.mp.console ++ [ConsoleLine.answer ([s.reg Reg.SYS_ID])] } } ∧ onlyFlds [mpIrqFld 4] s t) ∧
  (∀ (off : BitVec 22) (n : Nat) (s : State), s.phase ≠ Phase.reset → s.phase ≠ Phase.boot →
    off.toNat % 4 ≠ 0 ∨ n = 0 ∨ 64 < n ∨ 0x140000 < off.toNat + 4 * n → ∃ t, exec (.consoleCommand (.readReg off n)) s = .next t ∧ t.rd (mpIrqFld 4) = 1 ∧
      t = { s with regs := t.regs, mp := { s.mp with console := s.mp.console ++ [ConsoleLine.answer ([])] } } ∧ onlyFlds [mpIrqFld 4] s t) ∧
  (∀ (off : BitVec 22) (n : Nat) (s : State), s.phase ≠ Phase.reset → s.phase ≠ Phase.boot →
    off.toNat % 4 = 0 → 1 ≤ n → n ≤ 64 → off.toNat + 4 * n ≤ 0x140000 →
    ∃ v t, v = s.wr (mpIrqFld 4) 1 ∧ exec (.consoleCommand (.readReg off n)) s = .next t ∧
      t = { v with mp := { v.mp with console := v.mp.console ++ [ConsoleLine.answer ((List.range n).map (fun i : Nat => (v.setupRead .mp (off.toNat + 4 * i)).1))] } }) ∧
  (∀ (op : ConsoleOp) (s : State), s.phase = Phase.reset ∨ s.phase = Phase.boot → ∃ t, exec (.consoleCommand op) s = .next t ∧ t = s)

/-- The unlocked operations of the maintenance protocol (R551 to R553, R555): what each does first, one refused while locked, READ_MEM,
WRITE_REG, REC_CLEAR, FW_WRITE, FW_TRIAL, DEBUG_EN and RESET. Where the clauses meet what notes/assumptions/77.md, notes/assumptions/78.md
record, they say the model's choice. -/
def Obligations.MaintenanceWrites : Prop :=
  (∀ (q : MaintReq) (op : Nat) (addr : Word) (v s : State), v = unlockedCall q op addr s → noted 8 [BitVec.ofNat 32 op, q.ip, addr] s { v with mp := s.mp } ∧
    raised [(465, [BitVec.ofNat 32 op])] s v ∧ v.rd (mpIrqFld (2 + q.port.val)) = 1 ∧
    v = { s with mem := v.mem, regs := v.regs, evt := v.evt, recd := v.recd, mp := { s.mp with lastUnlocked := s.pwr.rtc.toNat, console := s.mp.console ++ [ConsoleLine.note 8 s.recd.noteSeq] } } ∧
    onlyFlds [mpIrqFld (2 + q.port.val), F.REC_NOTE_STAT_NEXT] s v) ∧
  (∀ (c : Instr) (q : MaintReq) (op len : Nat) (s : State), maintRow c = some (q, op, len) → 0x20 ≤ op → asked q op len s → s.rd F.MPX_STAT_UNLOCKED = 0 →
    ∃ t, exec c s = .next t ∧ replied q op 0x21 [] [] s t ∧ onlyReply q s t) ∧
  (∀ (q : MaintReq) (a : BitVec 40) (n : Nat) (s : State), asked q 0x20 12 s → s.rd F.MPX_STAT_UNLOCKED = 1 → 0 < n → n ≤ 1024 →
    State.engineMayRead a.toNat n = true → s.badWord a.toNat n = none →
    ∃ v w0 t, v = unlockedCall q 0x20 (a.setWidth 32) s ∧ w0 = (v.draw.2.readCheck a.toNat n (v.draw.1.toNat % 256)).2 ∧ exec (.readMem q a n) s = .next t ∧
      replied q 0x20 0 [] (v.bytes a.toNat n) w0 t ∧ onlyReply q w0 t ∧ w0 = { v with freeCtr := s.freeCtr + 1, eccCount := w0.eccCount }) ∧
  (∀ (q : MaintReq) (a : BitVec 40) (n b : Nat) (s : State), asked q 0x20 12 s → s.rd F.MPX_STAT_UNLOCKED = 1 → 0 < n → n ≤ 1024 →
    State.engineMayRead a.toNat n = true → s.badWord a.toNat n = some b →
    ∃ v w0 t, v = unlockedCall q 0x20 (a.setWidth 32) s ∧ w0 = ({ v with freeCtr := s.freeCtr + 1 }).raise 485 [BitVec.ofNat 32 b,
        BitVec.ofNat 32 (b / 2 ^ 32 % 256 + 256 * (s.draw.1.toNat % 256))] ∧
      exec (.readMem q a n) s = .next t ∧ replied q 0x20 0xFF [] [] w0 t ∧ onlyReply q w0 t) ∧
  (∀ (q : MaintReq) (a : BitVec 40) (n : Nat) (s : State), asked q 0x20 12 s → s.rd F.MPX_STAT_UNLOCKED = 1 → n = 0 ∨ 1024 < n ∨ State.engineMayRead a.toNat n = false →
    ∃ w0 t, w0 = { s with mp := { s.mp with lastUnlocked := s.pwr.rtc.toNat } } ∧ exec (.readMem q a n) s = .next t ∧ replied q 0x20 0x20 [] [] w0 t ∧ onlyReply q w0 t) ∧
  (∀ (q : MaintReq) (off : BitVec 22) (w : Word) (s : State), asked q 0x21 8 s → s.rd F.MPX_STAT_UNLOCKED = 1 → off.toNat % 4 = 0 → off.toNat < 0x140000 →
    ∃ v w0 t, v = unlockedCall q 0x21 (BitVec.ofNat 32 off.toNat) s ∧ w0 = v.answer q 0x21 0 [] [] ∧ replied q 0x21 0 [] [] v w0 ∧ onlyReply q v w0 ∧
      exec (.writeReg q off w) s = .next t ∧ t = w0.setupStore .mp off.toNat w) ∧
  (∀ (q : MaintReq) (off : BitVec 22) (w : Word) (s : State), asked q 0x21 8 s → s.rd F.MPX_STAT_UNLOCKED = 1 → off.toNat % 4 ≠ 0 ∨ 0x140000 ≤ off.toNat →
    ∃ w0 t, w0 = { s with mp := { s.mp with lastUnlocked := s.pwr.rtc.toNat } } ∧ exec (.writeReg q off w) s = .next t ∧ replied q 0x21 0x20 [] [] w0 t ∧ onlyReply q w0 t) ∧
  (∀ (q : MaintReq) (k0 : BitVec 12) (n : BitVec 13) (g : Word) (s : State), asked q 0x22 8 s → s.rd F.MPX_STAT_UNLOCKED = 1 → 0 < n.toNat →
    k0.toNat + n.toNat ≤ s.rd F.REC_CHAN_COUNT_COUNT → g = BitVec.ofNat 32 (min (s.rd F.REC_CLEAR_GEN_GEN + 1) 0xFFFFFFFF) →
    ∃ v w0 t, v = unlockedCall q 0x22 (BitVec.ofNat 32 k0.toNat) s ∧ w0 = v.recClear ((List.range n.toNat).map (fun i : Nat => i + k0.toNat)) ∧
      w0.rd F.REC_CLEAR_GEN_GEN = g.toNat ∧ exec (.maintRecClear q k0 n) s = .next t ∧ replied q 0x22 0 [g] [] w0 t ∧
      raised [(448, [BitVec.ofNat 32 (k0.toNat + 65536 * n.toNat), g])] w0 t ∧ t = { w0 with evt := t.evt, mp := t.mp } ∧
      t.mp = { v.mp with replies := t.mp.replies }) ∧
  (∀ (q : MaintReq) (k0 : BitVec 12) (n : BitVec 13) (s : State), asked q 0x22 8 s → s.rd F.MPX_STAT_UNLOCKED = 1 → n.toNat = 0 ∨ s.rd F.REC_CHAN_COUNT_COUNT < k0.toNat + n.toNat →
    ∃ w0 t, w0 = { s with mp := { s.mp with lastUnlocked := s.pwr.rtc.toNat } } ∧ exec (.maintRecClear q k0 n) s = .next t ∧ replied q 0x22 0x20 [] [] w0 t ∧ onlyReply q w0 t) ∧
  (∀ (q : MaintReq) (bank : Byte) (off : Word) (bs : List Byte) (a : Nat) (s : State), asked q 0x23 (8 + bs.length) s → s.rd F.MPX_STAT_UNLOCKED = 1 → 
    bank.toNat = 1 - s.rd F.SYS_BOOT_BANK ∨ (s.phase = Phase.recovery ∧ bank.toNat < 2) → 0 < bs.length → bs.length ≤ 1024 → off.toNat + bs.length ≤ 0x8000000 →
    a = 0x20000000 + 0x8000000 * bank.toNat + off.toNat →
    ∃ v w0 t, v = unlockedCall q 0x23 off s ∧ w0 = v.setBytes a bs ∧ w0.bytes a bs.length = bs ∧ sameMemBut a bs.length v w0 ∧
      exec (.fwWrite q bank off bs) s = .next t ∧ replied q 0x23 0 [] [] w0 t ∧ onlyReply q w0 t) ∧
  (∀ (q : MaintReq) (bank : Byte) (off : Word) (bs : List Byte) (s : State), asked q 0x23 (8 + bs.length) s → s.rd F.MPX_STAT_UNLOCKED = 1 → (s.phase ≠ Phase.recovery ∧ bank.toNat ≠ 1 - s.rd F.SYS_BOOT_BANK) ∨ 2 ≤ bank.toNat ∨ bs.length = 0 ∨ 1024 < bs.length ∨ 0x8000000 < off.toNat + bs.length →
    ∃ w0 t, w0 = { s with mp := { s.mp with lastUnlocked := s.pwr.rtc.toNat } } ∧ exec (.fwWrite q bank off bs) s = .next t ∧ replied q 0x23 0x20 [] [] w0 t ∧ onlyReply q w0 t) ∧
  (∀ (q : MaintReq) (bank : Byte) (s : State), asked q 0x24 4 s → s.rd F.MPX_STAT_UNLOCKED = 1 → bank.toNat ≤ 1 →
    ∃ v w0 t, v = unlockedCall q 0x24 (BitVec.ofNat 32 bank.toNat) s ∧
      w0 = (if v.checkBank bank.toNat = 0 then v.bootRecWrite bank.toNat true 3 v.bootFields.2.2.2 else v) ∧ sameMemBut 0x600FE000 0x1020 v w0 ∧
      exec (.fwTrial q bank) s = .next t ∧ replied q 0x24 0 [BitVec.ofNat 32 (v.checkBank bank.toNat)] [] w0 t ∧ onlyReply q w0 t) ∧
  (∀ (q : MaintReq) (bank : Byte) (s : State), asked q 0x24 4 s → s.rd F.MPX_STAT_UNLOCKED = 1 → 2 ≤ bank.toNat →
    ∃ w0 t, w0 = { s with mp := { s.mp with lastUnlocked := s.pwr.rtc.toNat } } ∧ exec (.fwTrial q bank) s = .next t ∧ replied q 0x24 0x20 [] [] w0 t ∧ onlyReply q w0 t) ∧
  (∀ (q : MaintReq) (on : Bool) (s : State), asked q 0x25 4 s → s.rd F.MPX_STAT_UNLOCKED = 1 → s.phase = Phase.setup ∨ s.phase = Phase.locking →
    ∃ v t, v = unlockedCall q 0x25 (BitVec.ofNat 32 (b2n on)) s ∧ exec (.debugEn q on) s = .next t ∧ t.rd F.MPX_DBG_EN = b2n on ∧
      t.rd F.MPX_STAT_DBG_EN = b2n on ∧ replied q 0x25 0 [] [] v t ∧ t = { v with regs := t.regs, mp := { v.mp with replies := t.mp.replies } } ∧
      onlyFlds [F.MPX_DBG_EN, F.MPX_STAT_DBG_EN] v t) ∧
  (∀ (q : MaintReq) (on : Bool) (s : State), asked q 0x25 4 s → s.rd F.MPX_STAT_UNLOCKED = 1 → s.phase ≠ Phase.setup → s.phase ≠ Phase.locking →
    ∃ v t, v = unlockedCall q 0x25 (BitVec.ofNat 32 (b2n on)) s ∧ exec (.debugEn q on) s = .next t ∧ replied q 0x25 0 [] [] v t ∧ onlyReply q v t) ∧
  (∀ (q : MaintReq) (s : State), asked q 0x26 0 s → s.rd F.MPX_STAT_UNLOCKED = 1 → 
    ∃ v w0 t, v = unlockedCall q 0x26 0 s ∧ w0 = v.answer q 0x26 0 [] [] ∧ replied q 0x26 0 [] [] v w0 ∧ exec (.maintReset q) s = .next t ∧
      resetFrom .swMp 0 w0 t)

/-- LANE and CORD setup checks at SETUP_LOCK (R140, R166). -/
def Obligations.LaneAndCordChecks : Prop :=
  (∀ (a b c : SigOffer) (ns : Nat) (s : State), s.phase = Phase.locking → s.rd F.LANE_STAT_SAFE = 0 → s.rd F.SYS_IMG_STAT_ACCEPTED = 1 →
    s.ratValid = true → 2 ≤ s.usableLanes.length → s.rd F.PWR_EMBER_CFG_E3_EN = 0 ∨ s.inVolatile s.saveBase 0x400000 = true → s.rd F.LANE_CFG_MISMATCH_POLICY = 1 → s.rd F.LANE_CFG_ROLLBACK_LIMIT = 0 →
    ∃ t, exec (.setupLockChecksEnd a b c ns) s = .next t ∧ t.rd F.LANE_STAT_CFG_ERR = 1 ∧ t.rd F.SYS_PHASE_LOCK_ERR = 4 ∧ t.phase = Phase.setup ∧
      raised [(7, [])] s t) ∧
  (∀ (a b c : SigOffer) (ns : Nat) (s : State), s.phase = Phase.locking → s.rd F.LANE_STAT_SAFE = 0 → s.rd F.SYS_IMG_STAT_ACCEPTED = 1 →
    s.ratValid = true → 2 ≤ s.usableLanes.length → s.rd F.PWR_EMBER_CFG_E3_EN = 0 ∨ s.inVolatile s.saveBase 0x400000 = true → s.rd F.LANE_CFG_MISMATCH_POLICY ≠ 1 ∨ s.rd F.LANE_CFG_ROLLBACK_LIMIT ≠ 0 →
    s.rd F.CORD_PERIOD_PERIOD < 100 ∨ 10000 < s.rd F.CORD_PERIOD_PERIOD →
    ∃ t, exec (.setupLockChecksEnd a b c ns) s = .next t ∧ t.rd F.CORD_STAT_CFG_ERR = 1 ∧ t.rd F.LANE_STAT_CFG_ERR = s.rd F.LANE_STAT_CFG_ERR ∧
      t.rd F.SYS_PHASE_LOCK_ERR = 4 ∧ t.phase = Phase.setup ∧ t.evt = s.evt) ∧
  (∀ s : State, s.rd F.PWR_EMBER_CFG_E3_EN = 0 ∨ s.inVolatile s.saveBase 0x400000 = true → s.rd F.LANE_CFG_MISMATCH_POLICY ≠ 1 ∨ s.rd F.LANE_CFG_ROLLBACK_LIMIT ≠ 0 →
    100 ≤ s.rd F.CORD_PERIOD_PERIOD → s.rd F.CORD_PERIOD_PERIOD ≤ 10000 →
    s.coreCheck.2.rd F.LANE_STAT_CFG_ERR = s.rd F.LANE_STAT_CFG_ERR ∧ s.coreCheck.2.rd F.CORD_STAT_CFG_ERR = s.rd F.CORD_STAT_CFG_ERR)

/-- The watchdog of the management processor (R548). A clause that ends in t = s (an event before its instant or without its condition
changes nothing) is the model's choice, notes/assumptions/2.md. Where the clauses meet what notes/assumptions/73.md records, they say the
model's choice. -/
def Obligations.MpWatchdog : Prop :=
  (∀ (w : Word) (s : State), s.mustWait = false →
    ∃ t, exec (.mpxWdt .mp w) s = .next t ∧ t.rd F.MPX_WDT_TMO = w.toNat / 65536 % 256 ∧ onlyFlds [F.MPX_WDT_TMO] s t ∧
      t = { s with regs := t.regs, mp := { s.mp with wdtFrom := if w.toNat % 65536 = 0x5744 then s.pwr.rtc else s.mp.wdtFrom } }) ∧
  (∀ (h : HartId) (p : PartId) (w : Word) (s : State), s.mustWait = false → ∃ t, exec (.mpxWdt (.lane h p) w) s = .next t ∧ t = s) ∧
  (∀ (who : Requester) (w : Word) (s : State), s.mustWait = true →
    ∃ t, exec (.mpxWdt who w) s = .next t ∧ t = { s with heldWrites := s.heldWrites ++ [(who, Reg.MPX_WDT, w)] }) ∧
  (∀ s : State, s.phase ≠ Phase.reset → s.rd F.MPX_WDT_TMO * 32768 ≤ (s.pwr.rtc - s.mp.wdtFrom).toNat * 1000 →
    ∃ t u, exec .mpWdtExpiry s = .next t ∧ exec (.safeStateEntry 255) s = .next u ∧ resetFrom .mpWdt 0 u t) ∧
  (∀ s : State, s.phase ≠ Phase.reset → s.rd F.LANE_STAT_SAFE = 0 → ∃ t, exec (.safeStateEntry 255) s = .next t ∧ safeFrom 255 s t) ∧
  (∀ (cause : Byte) (s : State), s.phase = Phase.reset ∨ s.rd F.LANE_STAT_SAFE = 1 → ∃ t, exec (.safeStateEntry cause) s = .next t ∧ t = s) ∧
  (∀ s : State, (s.pwr.rtc - s.mp.wdtFrom).toNat * 1000 < s.rd F.MPX_WDT_TMO * 32768 ∨ s.phase = Phase.reset → ∃ t, exec .mpWdtExpiry s = .next t ∧ t = s)

/-- A step takes the command at the front of the queue and is its effect on the state with the rest of the queue. With no command waiting
(the model's choice, notes/assumptions/1.md) one clock of the time base passes. A clause that ends in t = s (an event before its instant
or without its condition changes nothing) is the model's choice, notes/assumptions/2.md. -/
def Obligations.StepTakesTheFront : Prop :=
  (∀ (c : Instr) (q : List Instr) (s : State), s.pending = c :: q → step s = exec c { s with pending := q }) ∧
  (∀ s : State, s.pending = [] → s.tb.locked = true → s.pwr.state ≠ PowerState.e3 → s.pwr.hold ≠ Hold.unpowered → s.pairTakes = false →
    (s.tb.raw + 1).toNat ≠ s.fld.frameRaw + 160 →
    ∃ t, step s = .next t ∧ t = { s with
      tb := { s.tb with raw := s.tb.raw + 1 }
      pwr := { s.pwr with
        rtcFrac := if s.pwr.rtcFrac + 32768 < 500000000 then s.pwr.rtcFrac + 32768 else s.pwr.rtcFrac + 32768 - 500000000
        rtc := if s.pwr.rtcFrac + 32768 < 500000000 then s.pwr.rtc else s.pwr.rtc + 1 } }) ∧
  (∀ s : State, s.pending = [] → s.tb.locked = false ∨ s.pwr.state = PowerState.e3 → s.pwr.hold = Hold.unpowered → s.pairTakes = false →
    ∃ t, step s = .next t ∧ t = s) ∧
  (∀ s : State, s.pending = [] → s.tb.locked = true → s.pwr.state ≠ PowerState.e3 → s.pwr.hold = Hold.unpowered → s.pairTakes = false →
    (s.tb.raw + 1).toNat = s.fld.frameRaw + 160 →
    ∃ v t, v = { s with tb := { s.tb with raw := s.tb.raw + 1 } } ∧ step s = .next t ∧ t = allIslands.foldl State.upStart v) ∧
  (∀ s : State, s.pending = [] → ∃ t, step s = .next t ∧ t = s.tick)

/-- The state after reset: no command waits, the module is in reset with its outputs safe, nothing runs, and registers read the reset
values that their tables give. Where the clauses meet what notes/assumptions/3.md, notes/assumptions/5.md record, they say the model's
choice. -/
def Obligations.ResetState : Prop :=
  State.reset.pending = [] ∧ State.reset.phase = Phase.reset ∧ State.reset.canonical = true ∧ State.reset.outputsSafe = true ∧
  State.reset.lanes.on = false ∧ State.reset.mem = [] ∧ State.reset.tb.raw = 0 ∧
  (∀ x ∈ [(F.PWR_MODE_MODE, 1), (F.LANE_STAT_STATE_A, 0), (F.LANE_STAT_STATE_B, 0), (F.LANE_STAT_STATE_C, 0), (F.LANE_STAT_SAFE, 0), (F.CORD_PERIOD_PERIOD, 1000),
      (F.FLUE_QUOTA_QUOTA 0, 8), (F.FLUE_QUOTA_QUOTA 255, 8), (F.CR_PERIOD_PERIOD 2, 1000), (F.CB_BC_BC_LEN, 1000), (F.CYC_PART_START 7, 2), (F.TASK_DIV_DIV 3, 1), (F.MPX_WDT_TMO, 100),
      (F.SYS_PHASE_OPERATE, 0), (F.SYS_IMG_STAT_ACCEPTED, 0)], State.reset.rd x.1 = x.2)

/-- Whatever command a module runs, it leaves the queue alone, neither advances nor sets TB_RAW and the RTC but to 0, and burns no fuse
but those of the minimum security version. Where the clauses meet what notes/assumptions/9.md records, they say the model's choice. -/
def Obligations.CommandsKeepQueueClocksAndFuses : Prop :=
  ∀ (c : Instr) (s t : State), exec c s = .next t →
    t.pending = s.pending ∧ (t.tb.raw = s.tb.raw ∨ t.tb.raw = 0) ∧ (t.pwr.rtc = s.pwr.rtc ∨ t.pwr.rtc = 0) ∧
      t.pwr.fuseKeys = s.pwr.fuseKeys ∧ t.pwr.fuseRevoked = s.pwr.fuseRevoked ∧ t.pwr.fuseImgSig = s.pwr.fuseImgSig

/-- Every step, a command or a clock, keeps memory and the setup registers in canonical form. -/
def Obligations.StepKeepsCanonicalForm : Prop :=
  ∀ s t : State, s.canonical = true → step s = .next t → t.canonical = true

/-- No command of the networks, the field, the rings, the cycle engine, the recorder and the other blocks beside the lane complex changes
the phase, a hart, the interrupt controller, the time base or the power state, but to open the FAULT relay and assert SAFE_N. -/
def Obligations.BlockCommandsSpareTheCore : Prop :=
  ∀ (c : Instr) (s t : State), blockCmd c = true → exec c s = .next t → sameCore s t ∧ t.pending = s.pending

/-- TB_INCR lies within INCR_MIN and INCR_MAX, both included (R249): every step keeps it there and reset puts it there; the range is 2 ns
± 2,199,023,255 units of 2^-40 ns; and between two clocks without a command network time rises with the count. -/
def Obligations.NetworkRateStaysInLimits : Prop :=
  (∀ s t : State, incrMin ≤ s.tb.incr.toNat → s.tb.incr.toNat ≤ incrMax → step s = .next t →
    incrMin ≤ t.tb.incr.toNat ∧ t.tb.incr.toNat ≤ incrMax) ∧
  (incrMin ≤ State.reset.tb.incr.toNat ∧ State.reset.tb.incr.toNat ≤ incrMax) ∧
  (incrMin = 0x1FF7CED9169 ∧ incrMax = 0x20083126E97 ∧ incrMin = 2 * 2 ^ 40 - 2199023255 ∧ incrMax = 2 * 2 ^ 40 + 2199023255) ∧
  (∀ (s : State) (r q : Nat), incrMin ≤ s.tb.incr.toNat → r < q → s.tb.ofs.toNat + q * s.tb.incr.toNat < 2 ^ 104 → s.ntFullAt r < s.ntFullAt q)
end

