-- ==== Sys2Proof/Laws/Sparse.lean ====
section
/-!
SUPPORT. Laws of the finite maps: what a lookup finds after an insertion or a removal, and that both keep the canonical form.
-/

set_option Elab.async false

namespace Sys2Proof
namespace Machine
namespace Sparse

variable {α : Type}

@[simp] theorem lookup_insert_same (m : List (Nat × α)) (k : Nat) (v : α) : lookup (insert m k v) k = some v := by
  induction m with
  | nil => simp [insert, lookup]
  | cons p t ih =>
    obtain ⟨j, w⟩ := p
    simp only [insert]
    split
    · simp [lookup]
    · split
      · simp [lookup]
      · rename_i h1 h2
        have : j ≠ k := fun h => h2 h.symm
        simp [lookup, this, ih]

theorem lookup_insert_ne (m : List (Nat × α)) {k i : Nat} (v : α) (h : i ≠ k) : lookup (insert m k v) i = lookup m i := by
  induction m with
  | nil =>
    have : k ≠ i := fun e => h e.symm
    simp [insert, lookup, this]
  | cons p t ih =>
    obtain ⟨j, w⟩ := p
    have hk : k ≠ i := fun e => h e.symm
    simp only [insert]
    split
    · simp [lookup, hk]
    · split
      · rename_i h2
        subst h2
        simp [lookup, hk]
      · simp only [lookup]
        split
        · rfl
        · exact ih

/-- A key that no entry has is absent. -/
theorem lookup_none {m : List (Nat × α)} {k : Nat} (h : ∀ x ∈ m, x.1 ≠ k) : lookup m k = none := by
  induction m with
  | nil => rfl
  | cons x t ih =>
    obtain ⟨j, v⟩ := x
    simp only [lookup]
    rw [if_neg (h (j, v) (List.mem_cons_self ..))]
    exact ih fun y hy => h y (List.mem_cons_of_mem _ hy)

@[simp] theorem lookup_erase_same (m : List (Nat × α)) (k : Nat) : lookup (erase m k) k = none := by
  induction m with
  | nil => rfl
  | cons p t ih =>
    obtain ⟨j, w⟩ := p
    simp only [erase]
    split
    · exact ih
    · rename_i h
      have : j ≠ k := fun e => h e.symm
      simp [lookup, this, ih]

theorem lookup_erase_ne (m : List (Nat × α)) {k i : Nat} (h : i ≠ k) : lookup (erase m k) i = lookup m i := by
  induction m with
  | nil => rfl
  | cons p t ih =>
    obtain ⟨j, w⟩ := p
    simp only [erase]
    split
    · rename_i e
      subst e
      have : k ≠ i := fun e => h e.symm
      simp [lookup, this, ih]
    · simp only [lookup]
      split
      · rfl
      · exact ih

@[simp] theorem get_set_same [DecidableEq α] (m : List (Nat × α)) (d : α) (k : Nat) (v : α) : get (set m d k v) d k = v := by
  unfold get set
  split
  · rename_i h
    simp [h]
  · simp

theorem get_set_ne [DecidableEq α] (m : List (Nat × α)) (d : α) {k i : Nat} (v : α) (h : i ≠ k) :
    get (set m d k v) d i = get m d i := by
  unfold get set
  split
  · rw [lookup_erase_ne m h]
  · rw [lookup_insert_ne m v h]

theorem above_trans {m : List (Nat × α)} {i j : Nat} (h : i ≤ j) (ha : above j m = true) : above i m = true := by
  induction m with
  | nil => rfl
  | cons p t ih =>
    obtain ⟨k, w⟩ := p
    simp only [above, Bool.and_eq_true, decide_eq_true_eq] at ha ⊢
    exact ⟨by omega, ih ha.2⟩

theorem above_insert {m : List (Nat × α)} {i k : Nat} (v : α) (hk : i < k) (ha : above i m = true) :
    above i (insert m k v) = true := by
  induction m with
  | nil => simp [insert, above, hk]
  | cons p t ih =>
    obtain ⟨j, w⟩ := p
    simp only [above, Bool.and_eq_true, decide_eq_true_eq] at ha
    simp only [insert]
    split
    · simp [above, hk, ha.1, ha.2]
    · split
      · simp [above, hk, ha.2]
      · simp [above, ha.1, ih ha.2]

theorem above_erase {m : List (Nat × α)} {i k : Nat} (ha : above i m = true) : above i (erase m k) = true := by
  induction m with
  | nil => rfl
  | cons p t ih =>
    obtain ⟨j, w⟩ := p
    simp only [above, Bool.and_eq_true, decide_eq_true_eq] at ha
    simp only [erase]
    split
    · exact ih ha.2
    · simp [above, ha.1, ih ha.2]

theorem sorted_insert {m : List (Nat × α)} (k : Nat) (v : α) (h : sorted m = true) : sorted (insert m k v) = true := by
  induction m with
  | nil => simp [insert, sorted, above]
  | cons p t ih =>
    obtain ⟨j, w⟩ := p
    simp only [sorted, Bool.and_eq_true] at h
    simp only [insert]
    split
    · rename_i hk
      simp [sorted, above, hk, h.1, h.2, above_trans (Nat.le_of_lt hk) h.1]
    · split
      · rename_i hk
        subst hk
        simp [sorted, h.1, h.2]
      · rename_i h1 h2
        have hj : j < k := by omega
        simp [sorted, above_insert v hj h.1, ih h.2]

theorem sorted_erase {m : List (Nat × α)} (k : Nat) (h : sorted m = true) : sorted (erase m k) = true := by
  induction m with
  | nil => rfl
  | cons p t ih =>
    obtain ⟨j, w⟩ := p
    simp only [sorted, Bool.and_eq_true] at h
    simp only [erase]
    split
    · exact ih h.2
    · simp [sorted, above_erase h.1, ih h.2]

theorem noDefault_insert [DecidableEq α] {d : Nat → α} {m : List (Nat × α)} {k : Nat} {v : α} (hv : v ≠ d k)
    (h : noDefault d m = true) : noDefault d (insert m k v) = true := by
  induction m with
  | nil => simp [insert, noDefault, hv]
  | cons p t ih =>
    obtain ⟨j, w⟩ := p
    simp only [noDefault, Bool.and_eq_true, decide_eq_true_eq] at h
    simp only [insert]
    split
    · simp [noDefault, hv, h.1, h.2]
    · split
      · simp [noDefault, hv, h.2]
      · simp [noDefault, h.1, ih h.2]

theorem noDefault_erase [DecidableEq α] {d : Nat → α} {m : List (Nat × α)} (k : Nat) (h : noDefault d m = true) :
    noDefault d (erase m k) = true := by
  induction m with
  | nil => rfl
  | cons p t ih =>
    obtain ⟨j, w⟩ := p
    simp only [noDefault, Bool.and_eq_true, decide_eq_true_eq] at h
    simp only [erase]
    split
    · exact ih h.2
    · simp [noDefault, h.1, ih h.2]

theorem wf_insert [DecidableEq α] {d : Nat → α} {m : List (Nat × α)} {k : Nat} {v : α} (hv : v ≠ d k)
    (h : wf d m = true) : wf d (insert m k v) = true := by
  simp only [wf, Bool.and_eq_true] at h ⊢
  exact ⟨sorted_insert k v h.1, noDefault_insert hv h.2⟩

theorem wf_erase [DecidableEq α] {d : Nat → α} {m : List (Nat × α)} (k : Nat) (h : wf d m = true) :
    wf d (erase m k) = true := by
  simp only [wf, Bool.and_eq_true] at h ⊢
  exact ⟨sorted_erase k h.1, noDefault_erase k h.2⟩

theorem above_filter {m : List (Nat × α)} {i : Nat} (p : Nat × α → Bool) (h : above i m = true) :
    above i (m.filter p) = true := by
  induction m with
  | nil => rfl
  | cons q t ih =>
    obtain ⟨j, w⟩ := q
    simp only [above, Bool.and_eq_true, decide_eq_true_eq] at h
    simp only [List.filter_cons]
    split
    · simp [above, h.1, ih h.2]
    · exact ih h.2

/-- A filtered map keeps the canonical form. -/
theorem wf_filter [DecidableEq α] {d : Nat → α} {m : List (Nat × α)} (p : Nat × α → Bool) (h : wf d m = true) :
    wf d (m.filter p) = true := by
  induction m with
  | nil => rfl
  | cons q t ih =>
    obtain ⟨j, w⟩ := q
    simp only [wf, sorted, noDefault, Bool.and_eq_true, decide_eq_true_eq] at h
    have ht : wf d t = true := by simp [wf, h.1.2, h.2.2]
    simp only [List.filter_cons]
    split
    · have := ih ht
      simp only [wf, Bool.and_eq_true] at this
      simp [wf, sorted, noDefault, above_filter p h.1.1, this.1, this.2, h.2.1]
    · exact ih ht

end Sparse
end Machine
end Sys2Proof
end

