-- ==== Sys2Proof/Laws/Memory.lean ====
section
/-!
SUPPORT. Laws of memory: a read after a write, and the canonical form that every memory operation keeps.
-/

set_option Elab.async false

namespace Sys2Proof
namespace Machine

@[simp] theorem byte_setByte_same (s : State) (a : Nat) (b : Byte) : (s.setByte a b).byte a = b := by
  simp [State.byte, State.setByte]

theorem byte_setByte_ne (s : State) {a i : Nat} (b : Byte) (h : i ≠ a) : (s.setByte a b).byte i = s.byte i := by
  simp [State.byte, State.setByte, Sparse.get_set_ne _ _ _ h]

/-- A write leaves every byte outside its range alone. -/
theorem byte_setBytes_outside (bs : List Byte) (s : State) (a i : Nat) (h : i < a ∨ a + bs.length ≤ i) :
    (s.setBytes a bs).byte i = s.byte i := by
  induction bs generalizing s a with
  | nil => rfl
  | cons b t ih =>
    simp only [List.length_cons] at h
    simp only [State.setBytes]
    rw [ih _ _ (by omega), byte_setByte_ne _ _ (by omega)]

/-- A read after a write of the same range gives what was written. -/
theorem bytes_setBytes (bs : List Byte) (s : State) (a : Nat) : (s.setBytes a bs).bytes a bs.length = bs := by
  induction bs generalizing s a with
  | nil => rfl
  | cons b t ih =>
    simp only [State.setBytes, List.length_cons, State.bytes]
    rw [ih, byte_setBytes_outside _ _ _ _ (by omega), byte_setByte_same]

/-- A byte that no entry lists reads 0. -/
theorem byte_unlisted {s : State} {a : Nat} (h : ∀ x ∈ s.mem, x.1 ≠ a) : s.byte a = 0 := by
  unfold State.byte Sparse.get
  rw [Sparse.lookup_none h]
  rfl

/-- A range that no entry lists reads 0 throughout. -/
theorem bytes_unlisted {s : State} {a n : Nat} (h : ∀ x ∈ s.mem, x.1 < a ∨ a + n ≤ x.1) : s.bytes a n = zeros n := by
  induction n generalizing a with
  | zero => rfl
  | succ n ih =>
    simp only [State.bytes, zeros, List.replicate_succ]
    rw [byte_unlisted fun x hx => by have := h x hx; omega, ih fun x hx => by have := h x hx; omega]
    rfl

/-- A range is its first part and its second. -/
theorem bytes_append (s : State) (a m n : Nat) : s.bytes a (m + n) = s.bytes a m ++ s.bytes (a + m) n := by
  induction m generalizing a with
  | zero => simp [State.bytes]
  | succ m ih =>
    rw [Nat.succ_add]
    simp only [State.bytes, List.cons_append]
    rw [ih, show a + 1 + m = a + (m + 1) by omega]

theorem setByte_wf {s : State} {a : Nat} {b : Byte} (h : Memory.wf s.mem = true) : Memory.wf (s.setByte a b).mem = true := by
  have h' : Sparse.wf (fun _ => (0 : Byte)) s.mem = true := h
  show Sparse.wf (fun _ => (0 : Byte)) (if b = 0 then Sparse.erase s.mem a else Sparse.insert s.mem a b) = true
  split
  · exact Sparse.wf_erase _ h'
  · exact Sparse.wf_insert ‹_› h'

/-- Every memory operation keeps the canonical form: they all write through setBytes. -/
theorem setBytes_wf (bs : List Byte) {s : State} {a : Nat} (h : Memory.wf s.mem = true) :
    Memory.wf (s.setBytes a bs).mem = true := by
  induction bs generalizing s a with
  | nil => exact h
  | cons b t ih => exact ih (setByte_wf h)

theorem setLe_wf {s : State} {a n v : Nat} (h : Memory.wf s.mem = true) : Memory.wf (s.setLe a n v).mem = true :=
  setBytes_wf _ h

theorem setWords_wf {s : State} {a : Nat} {ws : List Word} (h : Memory.wf s.mem = true) :
    Memory.wf (s.setWords a ws).mem = true :=
  setBytes_wf _ h

theorem setMemFld_wf {s : State} {a lo w v : Nat} (h : Memory.wf s.mem = true) :
    Memory.wf (s.setMemFld a lo w v).mem = true :=
  setLe_wf h

/-- A reset that loses DRAM keeps the rest of memory in canonical form. -/
theorem filter_wf {m : List Host.Cell} (p : Host.Cell → Bool) (h : Memory.wf m = true) : Memory.wf (m.filter p) = true :=
  Sparse.wf_filter p h

theorem reset_mem_wf : Memory.wf State.reset.mem = true := rfl

end Machine
end Sys2Proof
end

