-- ==== Sys2Proof/Laws/Regs.lean ====
section
/-!
SUPPORT. Laws of the setup registers and their fields.
-/

set_option Elab.async false

namespace Sys2Proof
namespace Machine

@[simp] theorem reg_setReg_same (s : State) (o : Nat) (w : Word) : (s.setReg o w).reg o = w := by
  unfold State.setReg State.reg
  by_cases h : w = regReset o <;> simp [h]

theorem reg_setReg_ne (s : State) {o p : Nat} (w : Word) (h : p ≠ o) : (s.setReg o w).reg p = s.reg p := by
  unfold State.setReg State.reg
  by_cases e : w = regReset o
  · simp [e, Sparse.lookup_erase_ne _ h]
  · simp [e, Sparse.lookup_insert_ne _ _ h]

theorem setReg_regs_wf {s : State} {o : Nat} {w : Word} (h : Sparse.wf regReset s.regs = true) :
    Sparse.wf regReset (s.setReg o w).regs = true := by
  unfold State.setReg
  by_cases e : w = regReset o
  · simp [e, Sparse.wf_erase _ h]
  · simp [e, Sparse.wf_insert e h]

/-- A field of a word whose own bits have been replaced. -/
theorem bits_setBits_same (x lo w v : Nat) : bits (setBits x lo w v) lo w = v % 2 ^ w := by
  unfold bits setBits
  have h1 : x / 2 ^ (lo + w) * 2 ^ (lo + w) + v % 2 ^ w * 2 ^ lo + x % 2 ^ lo =
      (x / 2 ^ (lo + w) * 2 ^ w + v % 2 ^ w) * 2 ^ lo + x % 2 ^ lo := by
    rw [Nat.pow_add, Nat.add_mul, Nat.mul_assoc, Nat.mul_comm (2 ^ lo) (2 ^ w)]
  rw [h1, Nat.add_comm _ (x % 2 ^ lo), Nat.add_mul_div_right _ _ (Nat.two_pow_pos lo),
    Nat.div_eq_of_lt (Nat.mod_lt _ (Nat.two_pow_pos lo)), Nat.zero_add, Nat.add_comm, Nat.add_mul_mod_self_right,
    Nat.mod_mod]

theorem setBits_lt {x lo w : Nat} (v : Nat) (hx : x < 2 ^ 32) (h : lo + w ≤ 32) : setBits x lo w v < 2 ^ 32 := by
  unfold setBits
  have hp : 2 ^ (lo + w) = 2 ^ w * 2 ^ lo := by rw [Nat.pow_add, Nat.mul_comm]
  have hv : v % 2 ^ w * 2 ^ lo + x % 2 ^ lo < 2 ^ (lo + w) := by
    have h1 : v % 2 ^ w + 1 ≤ 2 ^ w := Nat.mod_lt _ (Nat.two_pow_pos w)
    have h2 : x % 2 ^ lo < 2 ^ lo := Nat.mod_lt _ (Nat.two_pow_pos lo)
    calc v % 2 ^ w * 2 ^ lo + x % 2 ^ lo < v % 2 ^ w * 2 ^ lo + 2 ^ lo := by omega
      _ = (v % 2 ^ w + 1) * 2 ^ lo := by rw [Nat.add_mul, Nat.one_mul]
      _ ≤ 2 ^ w * 2 ^ lo := Nat.mul_le_mul_right _ h1
      _ = 2 ^ (lo + w) := hp.symm
  have hd : 2 ^ 32 = 2 ^ (32 - (lo + w)) * 2 ^ (lo + w) := by rw [← Nat.pow_add]; congr 1; omega
  have hq : x / 2 ^ (lo + w) < 2 ^ (32 - (lo + w)) := by
    rw [Nat.div_lt_iff_lt_mul (Nat.two_pow_pos _), ← hd]; exact hx
  have hm : (x / 2 ^ (lo + w) + 1) * 2 ^ (lo + w) ≤ 2 ^ 32 := by
    rw [hd]; exact Nat.mul_le_mul_right _ hq
  rw [Nat.add_mul, Nat.one_mul] at hm
  omega

/-- Reading back a field that has just been written. -/
theorem rd_wr_same (s : State) (f : Fld) (v : Nat) (h : f.lo + f.w ≤ 32) : (s.wr f v).rd f = v % 2 ^ f.w := by
  unfold State.wr State.rd
  rw [reg_setReg_same, BitVec.toNat_ofNat, Nat.mod_eq_of_lt (setBits_lt v (s.reg f.off).isLt h), bits_setBits_same]

/-- A field of another register is as it was. -/
theorem rd_wr_off (s : State) {f g : Fld} (v : Nat) (h : g.off ≠ f.off) : (s.wr f v).rd g = s.rd g := by
  unfold State.wr State.rd
  rw [reg_setReg_ne _ _ h]

theorem rd_setReg_off (s : State) {o : Nat} {g : Fld} (w : Word) (h : g.off ≠ o) : (s.setReg o w).rd g = s.rd g := by
  unfold State.rd
  rw [reg_setReg_ne _ _ h]

/-- A field below the bits replaced. -/
theorem bits_setBits_below {x lo w v l n : Nat} (h : l + n ≤ lo) : bits (setBits x lo w v) l n = bits x l n := by
  unfold bits setBits
  have e1 : (2 : Nat) ^ (lo + w) = 2 ^ (lo + w - (l + n)) * 2 ^ (l + n) := by rw [← Nat.pow_add]; congr 1; omega
  have e2 : (2 : Nat) ^ lo = 2 ^ (lo - (l + n)) * 2 ^ (l + n) := by rw [← Nat.pow_add]; congr 1; omega
  have hm : ∀ y : Nat, y / 2 ^ l % 2 ^ n = y % 2 ^ (l + n) / 2 ^ l := fun y => by
    rw [Nat.pow_add, Nat.mod_mul_right_div_self]
  rw [hm, hm]
  congr 1
  have e3 : x % 2 ^ lo % 2 ^ (l + n) = x % 2 ^ (l + n) :=
    Nat.mod_mod_of_dvd x (Nat.pow_dvd_pow 2 h)
  rw [Nat.add_mod, Nat.add_mod (x / 2 ^ (lo + w) * 2 ^ (lo + w)), e3]
  have z1 : x / 2 ^ (lo + w) * 2 ^ (lo + w) % 2 ^ (l + n) = 0 := by rw [e1, ← Nat.mul_assoc, Nat.mul_mod_left]
  have z2 : v % 2 ^ w * 2 ^ lo % 2 ^ (l + n) = 0 := by
    rw [e2, ← Nat.mul_assoc, Nat.mul_mod_left]
  rw [z1, z2]; simp

/-- A field above the bits replaced. -/
theorem bits_setBits_above {x lo w v l n : Nat} (h : lo + w ≤ l) : bits (setBits x lo w v) l n = bits x l n := by
  unfold bits setBits
  have hv : v % 2 ^ w * 2 ^ lo + x % 2 ^ lo < 2 ^ (lo + w) := by
    have h1 : v % 2 ^ w + 1 ≤ 2 ^ w := Nat.mod_lt _ (Nat.two_pow_pos w)
    have h2 : x % 2 ^ lo < 2 ^ lo := Nat.mod_lt _ (Nat.two_pow_pos lo)
    calc v % 2 ^ w * 2 ^ lo + x % 2 ^ lo < v % 2 ^ w * 2 ^ lo + 2 ^ lo := by omega
      _ = (v % 2 ^ w + 1) * 2 ^ lo := by rw [Nat.add_mul, Nat.one_mul]
      _ ≤ 2 ^ w * 2 ^ lo := Nat.mul_le_mul_right _ h1
      _ = 2 ^ (lo + w) := by rw [Nat.pow_add, Nat.mul_comm]
  have e : (2 : Nat) ^ l = 2 ^ (lo + w) * 2 ^ (l - (lo + w)) := by rw [← Nat.pow_add]; congr 1; omega
  congr 1
  rw [e, ← Nat.div_div_eq_div_mul, ← Nat.div_div_eq_div_mul, Nat.add_assoc,
    Nat.add_comm (x / 2 ^ (lo + w) * 2 ^ (lo + w)), Nat.add_mul_div_right _ _ (Nat.two_pow_pos _), Nat.div_eq_of_lt hv,
    Nat.zero_add]

/-- A field of the same register beside the one written is as it was. -/
theorem rd_wr_beside (s : State) {f g : Fld} (v : Nat) (ho : g.off = f.off) (hf : f.lo + f.w ≤ 32)
    (hd : g.lo + g.w ≤ f.lo ∨ f.lo + f.w ≤ g.lo) : (s.wr f v).rd g = s.rd g := by
  unfold State.wr State.rd
  rw [ho, reg_setReg_same, BitVec.toNat_ofNat, Nat.mod_eq_of_lt (setBits_lt v (s.reg f.off).isLt hf)]
  rcases hd with h | h
  · exact bits_setBits_below h
  · exact bits_setBits_above h

end Machine
end Sys2Proof
end

