-- ==== Sys2Proof/Laws/State.lean ====
section
/-!
SUPPORT. The fields of State that each named update leaves alone, one law per field and update, and what each reads as
through the registers and memory.
-/

set_option Elab.async false

namespace Sys2Proof
namespace Machine

/-! ## State.setReg -/

@[simp] theorem setReg_pending (s : State) (o : Nat) (w : Word) : (s.setReg o w).pending = s.pending := rfl
@[simp] theorem setReg_phase (s : State) (o : Nat) (w : Word) : (s.setReg o w).phase = s.phase := rfl
@[simp] theorem setReg_mem (s : State) (o : Nat) (w : Word) : (s.setReg o w).mem = s.mem := rfl
@[simp] theorem setReg_ecc (s : State) (o : Nat) (w : Word) : (s.setReg o w).ecc = s.ecc := rfl
@[simp] theorem setReg_eccCount (s : State) (o : Nat) (w : Word) : (s.setReg o w).eccCount = s.eccCount := rfl
@[simp] theorem setReg_heldWrites (s : State) (o : Nat) (w : Word) : (s.setReg o w).heldWrites = s.heldWrites := rfl
@[simp] theorem setReg_pwr (s : State) (o : Nat) (w : Word) : (s.setReg o w).pwr = s.pwr := rfl
@[simp] theorem setReg_lanes (s : State) (o : Nat) (w : Word) : (s.setReg o w).lanes = s.lanes := rfl
@[simp] theorem setReg_harts (s : State) (o : Nat) (w : Word) : (s.setReg o w).harts = s.harts := rfl
@[simp] theorem setReg_plic (s : State) (o : Nat) (w : Word) : (s.setReg o w).plic = s.plic := rfl
@[simp] theorem setReg_cord (s : State) (o : Nat) (w : Word) : (s.setReg o w).cord = s.cord := rfl
@[simp] theorem setReg_flue (s : State) (o : Nat) (w : Word) : (s.setReg o w).flue = s.flue := rfl
@[simp] theorem setReg_rings (s : State) (o : Nat) (w : Word) : (s.setReg o w).rings = s.rings := rfl
@[simp] theorem setReg_evt (s : State) (o : Nat) (w : Word) : (s.setReg o w).evt = s.evt := rfl
@[simp] theorem setReg_parts (s : State) (o : Nat) (w : Word) : (s.setReg o w).parts = s.parts := rfl
@[simp] theorem setReg_tb (s : State) (o : Nat) (w : Word) : (s.setReg o w).tb = s.tb := rfl
@[simp] theorem setReg_mp (s : State) (o : Nat) (w : Word) : (s.setReg o w).mp = s.mp := rfl
@[simp] theorem setReg_recd (s : State) (o : Nat) (w : Word) : (s.setReg o w).recd = s.recd := rfl
@[simp] theorem setReg_sig (s : State) (o : Nat) (w : Word) : (s.setReg o w).sig = s.sig := rfl
@[simp] theorem setReg_car (s : State) (o : Nat) (w : Word) : (s.setReg o w).car = s.car := rfl
@[simp] theorem setReg_ports (s : State) (o : Nat) (w : Word) : (s.setReg o w).ports = s.ports := rfl
@[simp] theorem setReg_cb (s : State) (o : Nat) (w : Word) : (s.setReg o w).cb = s.cb := rfl
@[simp] theorem setReg_rack (s : State) (o : Nat) (w : Word) : (s.setReg o w).rack = s.rack := rfl
@[simp] theorem setReg_fld (s : State) (o : Nat) (w : Word) : (s.setReg o w).fld = s.fld := rfl
@[simp] theorem setReg_saf (s : State) (o : Nat) (w : Word) : (s.setReg o w).saf = s.saf := rfl
@[simp] theorem setReg_cyc (s : State) (o : Nat) (w : Word) : (s.setReg o w).cyc = s.cyc := rfl
@[simp] theorem setReg_ist (s : State) (o : Nat) (w : Word) : (s.setReg o w).ist = s.ist := rfl
@[simp] theorem setReg_pair (s : State) (o : Nat) (w : Word) : (s.setReg o w).pair = s.pair := rfl
@[simp] theorem setReg_busData (s : State) (o : Nat) (w : Word) : (s.setReg o w).busData = s.busData := rfl
@[simp] theorem setReg_freeCtr (s : State) (o : Nat) (w : Word) : (s.setReg o w).freeCtr = s.freeCtr := rfl
@[simp] theorem setReg_byte (s : State) (o : Nat) (w : Word) (a : Nat) : (s.setReg o w).byte a = s.byte a := rfl

/-! ## State.wr -/

@[simp] theorem wr_pending (s : State) (f : Fld) (v : Nat) : (s.wr f v).pending = s.pending := rfl
@[simp] theorem wr_phase (s : State) (f : Fld) (v : Nat) : (s.wr f v).phase = s.phase := rfl
@[simp] theorem wr_mem (s : State) (f : Fld) (v : Nat) : (s.wr f v).mem = s.mem := rfl
@[simp] theorem wr_ecc (s : State) (f : Fld) (v : Nat) : (s.wr f v).ecc = s.ecc := rfl
@[simp] theorem wr_eccCount (s : State) (f : Fld) (v : Nat) : (s.wr f v).eccCount = s.eccCount := rfl
@[simp] theorem wr_heldWrites (s : State) (f : Fld) (v : Nat) : (s.wr f v).heldWrites = s.heldWrites := rfl
@[simp] theorem wr_pwr (s : State) (f : Fld) (v : Nat) : (s.wr f v).pwr = s.pwr := rfl
@[simp] theorem wr_lanes (s : State) (f : Fld) (v : Nat) : (s.wr f v).lanes = s.lanes := rfl
@[simp] theorem wr_harts (s : State) (f : Fld) (v : Nat) : (s.wr f v).harts = s.harts := rfl
@[simp] theorem wr_plic (s : State) (f : Fld) (v : Nat) : (s.wr f v).plic = s.plic := rfl
@[simp] theorem wr_cord (s : State) (f : Fld) (v : Nat) : (s.wr f v).cord = s.cord := rfl
@[simp] theorem wr_flue (s : State) (f : Fld) (v : Nat) : (s.wr f v).flue = s.flue := rfl
@[simp] theorem wr_rings (s : State) (f : Fld) (v : Nat) : (s.wr f v).rings = s.rings := rfl
@[simp] theorem wr_evt (s : State) (f : Fld) (v : Nat) : (s.wr f v).evt = s.evt := rfl
@[simp] theorem wr_parts (s : State) (f : Fld) (v : Nat) : (s.wr f v).parts = s.parts := rfl
@[simp] theorem wr_tb (s : State) (f : Fld) (v : Nat) : (s.wr f v).tb = s.tb := rfl
@[simp] theorem wr_mp (s : State) (f : Fld) (v : Nat) : (s.wr f v).mp = s.mp := rfl
@[simp] theorem wr_recd (s : State) (f : Fld) (v : Nat) : (s.wr f v).recd = s.recd := rfl
@[simp] theorem wr_sig (s : State) (f : Fld) (v : Nat) : (s.wr f v).sig = s.sig := rfl
@[simp] theorem wr_car (s : State) (f : Fld) (v : Nat) : (s.wr f v).car = s.car := rfl
@[simp] theorem wr_ports (s : State) (f : Fld) (v : Nat) : (s.wr f v).ports = s.ports := rfl
@[simp] theorem wr_cb (s : State) (f : Fld) (v : Nat) : (s.wr f v).cb = s.cb := rfl
@[simp] theorem wr_rack (s : State) (f : Fld) (v : Nat) : (s.wr f v).rack = s.rack := rfl
@[simp] theorem wr_fld (s : State) (f : Fld) (v : Nat) : (s.wr f v).fld = s.fld := rfl
@[simp] theorem wr_saf (s : State) (f : Fld) (v : Nat) : (s.wr f v).saf = s.saf := rfl
@[simp] theorem wr_cyc (s : State) (f : Fld) (v : Nat) : (s.wr f v).cyc = s.cyc := rfl
@[simp] theorem wr_ist (s : State) (f : Fld) (v : Nat) : (s.wr f v).ist = s.ist := rfl
@[simp] theorem wr_pair (s : State) (f : Fld) (v : Nat) : (s.wr f v).pair = s.pair := rfl
@[simp] theorem wr_busData (s : State) (f : Fld) (v : Nat) : (s.wr f v).busData = s.busData := rfl
@[simp] theorem wr_freeCtr (s : State) (f : Fld) (v : Nat) : (s.wr f v).freeCtr = s.freeCtr := rfl
@[simp] theorem wr_byte (s : State) (f : Fld) (v : Nat) (a : Nat) : (s.wr f v).byte a = s.byte a := rfl

/-! ## State.satAdd -/

@[simp] theorem satAdd_pending (s : State) (f : Fld) (n : Nat) : (s.satAdd f n).pending = s.pending := rfl
@[simp] theorem satAdd_phase (s : State) (f : Fld) (n : Nat) : (s.satAdd f n).phase = s.phase := rfl
@[simp] theorem satAdd_mem (s : State) (f : Fld) (n : Nat) : (s.satAdd f n).mem = s.mem := rfl
@[simp] theorem satAdd_ecc (s : State) (f : Fld) (n : Nat) : (s.satAdd f n).ecc = s.ecc := rfl
@[simp] theorem satAdd_eccCount (s : State) (f : Fld) (n : Nat) : (s.satAdd f n).eccCount = s.eccCount := rfl
@[simp] theorem satAdd_heldWrites (s : State) (f : Fld) (n : Nat) : (s.satAdd f n).heldWrites = s.heldWrites := rfl
@[simp] theorem satAdd_pwr (s : State) (f : Fld) (n : Nat) : (s.satAdd f n).pwr = s.pwr := rfl
@[simp] theorem satAdd_lanes (s : State) (f : Fld) (n : Nat) : (s.satAdd f n).lanes = s.lanes := rfl
@[simp] theorem satAdd_harts (s : State) (f : Fld) (n : Nat) : (s.satAdd f n).harts = s.harts := rfl
@[simp] theorem satAdd_plic (s : State) (f : Fld) (n : Nat) : (s.satAdd f n).plic = s.plic := rfl
@[simp] theorem satAdd_cord (s : State) (f : Fld) (n : Nat) : (s.satAdd f n).cord = s.cord := rfl
@[simp] theorem satAdd_flue (s : State) (f : Fld) (n : Nat) : (s.satAdd f n).flue = s.flue := rfl
@[simp] theorem satAdd_rings (s : State) (f : Fld) (n : Nat) : (s.satAdd f n).rings = s.rings := rfl
@[simp] theorem satAdd_evt (s : State) (f : Fld) (n : Nat) : (s.satAdd f n).evt = s.evt := rfl
@[simp] theorem satAdd_parts (s : State) (f : Fld) (n : Nat) : (s.satAdd f n).parts = s.parts := rfl
@[simp] theorem satAdd_tb (s : State) (f : Fld) (n : Nat) : (s.satAdd f n).tb = s.tb := rfl
@[simp] theorem satAdd_mp (s : State) (f : Fld) (n : Nat) : (s.satAdd f n).mp = s.mp := rfl
@[simp] theorem satAdd_recd (s : State) (f : Fld) (n : Nat) : (s.satAdd f n).recd = s.recd := rfl
@[simp] theorem satAdd_sig (s : State) (f : Fld) (n : Nat) : (s.satAdd f n).sig = s.sig := rfl
@[simp] theorem satAdd_car (s : State) (f : Fld) (n : Nat) : (s.satAdd f n).car = s.car := rfl
@[simp] theorem satAdd_ports (s : State) (f : Fld) (n : Nat) : (s.satAdd f n).ports = s.ports := rfl
@[simp] theorem satAdd_cb (s : State) (f : Fld) (n : Nat) : (s.satAdd f n).cb = s.cb := rfl
@[simp] theorem satAdd_rack (s : State) (f : Fld) (n : Nat) : (s.satAdd f n).rack = s.rack := rfl
@[simp] theorem satAdd_fld (s : State) (f : Fld) (n : Nat) : (s.satAdd f n).fld = s.fld := rfl
@[simp] theorem satAdd_saf (s : State) (f : Fld) (n : Nat) : (s.satAdd f n).saf = s.saf := rfl
@[simp] theorem satAdd_cyc (s : State) (f : Fld) (n : Nat) : (s.satAdd f n).cyc = s.cyc := rfl
@[simp] theorem satAdd_ist (s : State) (f : Fld) (n : Nat) : (s.satAdd f n).ist = s.ist := rfl
@[simp] theorem satAdd_pair (s : State) (f : Fld) (n : Nat) : (s.satAdd f n).pair = s.pair := rfl
@[simp] theorem satAdd_busData (s : State) (f : Fld) (n : Nat) : (s.satAdd f n).busData = s.busData := rfl
@[simp] theorem satAdd_freeCtr (s : State) (f : Fld) (n : Nat) : (s.satAdd f n).freeCtr = s.freeCtr := rfl
@[simp] theorem satAdd_byte (s : State) (f : Fld) (n : Nat) (a : Nat) : (s.satAdd f n).byte a = s.byte a := rfl

/-! ## State.modAdd -/

@[simp] theorem modAdd_pending (s : State) (f : Fld) (n : Nat) : (s.modAdd f n).pending = s.pending := rfl
@[simp] theorem modAdd_phase (s : State) (f : Fld) (n : Nat) : (s.modAdd f n).phase = s.phase := rfl
@[simp] theorem modAdd_mem (s : State) (f : Fld) (n : Nat) : (s.modAdd f n).mem = s.mem := rfl
@[simp] theorem modAdd_ecc (s : State) (f : Fld) (n : Nat) : (s.modAdd f n).ecc = s.ecc := rfl
@[simp] theorem modAdd_eccCount (s : State) (f : Fld) (n : Nat) : (s.modAdd f n).eccCount = s.eccCount := rfl
@[simp] theorem modAdd_heldWrites (s : State) (f : Fld) (n : Nat) : (s.modAdd f n).heldWrites = s.heldWrites := rfl
@[simp] theorem modAdd_pwr (s : State) (f : Fld) (n : Nat) : (s.modAdd f n).pwr = s.pwr := rfl
@[simp] theorem modAdd_lanes (s : State) (f : Fld) (n : Nat) : (s.modAdd f n).lanes = s.lanes := rfl
@[simp] theorem modAdd_harts (s : State) (f : Fld) (n : Nat) : (s.modAdd f n).harts = s.harts := rfl
@[simp] theorem modAdd_plic (s : State) (f : Fld) (n : Nat) : (s.modAdd f n).plic = s.plic := rfl
@[simp] theorem modAdd_cord (s : State) (f : Fld) (n : Nat) : (s.modAdd f n).cord = s.cord := rfl
@[simp] theorem modAdd_flue (s : State) (f : Fld) (n : Nat) : (s.modAdd f n).flue = s.flue := rfl
@[simp] theorem modAdd_rings (s : State) (f : Fld) (n : Nat) : (s.modAdd f n).rings = s.rings := rfl
@[simp] theorem modAdd_evt (s : State) (f : Fld) (n : Nat) : (s.modAdd f n).evt = s.evt := rfl
@[simp] theorem modAdd_parts (s : State) (f : Fld) (n : Nat) : (s.modAdd f n).parts = s.parts := rfl
@[simp] theorem modAdd_tb (s : State) (f : Fld) (n : Nat) : (s.modAdd f n).tb = s.tb := rfl
@[simp] theorem modAdd_mp (s : State) (f : Fld) (n : Nat) : (s.modAdd f n).mp = s.mp := rfl
@[simp] theorem modAdd_recd (s : State) (f : Fld) (n : Nat) : (s.modAdd f n).recd = s.recd := rfl
@[simp] theorem modAdd_sig (s : State) (f : Fld) (n : Nat) : (s.modAdd f n).sig = s.sig := rfl
@[simp] theorem modAdd_car (s : State) (f : Fld) (n : Nat) : (s.modAdd f n).car = s.car := rfl
@[simp] theorem modAdd_ports (s : State) (f : Fld) (n : Nat) : (s.modAdd f n).ports = s.ports := rfl
@[simp] theorem modAdd_cb (s : State) (f : Fld) (n : Nat) : (s.modAdd f n).cb = s.cb := rfl
@[simp] theorem modAdd_rack (s : State) (f : Fld) (n : Nat) : (s.modAdd f n).rack = s.rack := rfl
@[simp] theorem modAdd_fld (s : State) (f : Fld) (n : Nat) : (s.modAdd f n).fld = s.fld := rfl
@[simp] theorem modAdd_saf (s : State) (f : Fld) (n : Nat) : (s.modAdd f n).saf = s.saf := rfl
@[simp] theorem modAdd_cyc (s : State) (f : Fld) (n : Nat) : (s.modAdd f n).cyc = s.cyc := rfl
@[simp] theorem modAdd_ist (s : State) (f : Fld) (n : Nat) : (s.modAdd f n).ist = s.ist := rfl
@[simp] theorem modAdd_pair (s : State) (f : Fld) (n : Nat) : (s.modAdd f n).pair = s.pair := rfl
@[simp] theorem modAdd_busData (s : State) (f : Fld) (n : Nat) : (s.modAdd f n).busData = s.busData := rfl
@[simp] theorem modAdd_freeCtr (s : State) (f : Fld) (n : Nat) : (s.modAdd f n).freeCtr = s.freeCtr := rfl
@[simp] theorem modAdd_byte (s : State) (f : Fld) (n : Nat) (a : Nat) : (s.modAdd f n).byte a = s.byte a := rfl

/-! ## State.wr64 -/

@[simp] theorem wr64_pending (s : State) (lo hi v : Nat) : (s.wr64 lo hi v).pending = s.pending := rfl
@[simp] theorem wr64_phase (s : State) (lo hi v : Nat) : (s.wr64 lo hi v).phase = s.phase := rfl
@[simp] theorem wr64_mem (s : State) (lo hi v : Nat) : (s.wr64 lo hi v).mem = s.mem := rfl
@[simp] theorem wr64_ecc (s : State) (lo hi v : Nat) : (s.wr64 lo hi v).ecc = s.ecc := rfl
@[simp] theorem wr64_eccCount (s : State) (lo hi v : Nat) : (s.wr64 lo hi v).eccCount = s.eccCount := rfl
@[simp] theorem wr64_heldWrites (s : State) (lo hi v : Nat) : (s.wr64 lo hi v).heldWrites = s.heldWrites := rfl
@[simp] theorem wr64_pwr (s : State) (lo hi v : Nat) : (s.wr64 lo hi v).pwr = s.pwr := rfl
@[simp] theorem wr64_lanes (s : State) (lo hi v : Nat) : (s.wr64 lo hi v).lanes = s.lanes := rfl
@[simp] theorem wr64_harts (s : State) (lo hi v : Nat) : (s.wr64 lo hi v).harts = s.harts := rfl
@[simp] theorem wr64_plic (s : State) (lo hi v : Nat) : (s.wr64 lo hi v).plic = s.plic := rfl
@[simp] theorem wr64_cord (s : State) (lo hi v : Nat) : (s.wr64 lo hi v).cord = s.cord := rfl
@[simp] theorem wr64_flue (s : State) (lo hi v : Nat) : (s.wr64 lo hi v).flue = s.flue := rfl
@[simp] theorem wr64_rings (s : State) (lo hi v : Nat) : (s.wr64 lo hi v).rings = s.rings := rfl
@[simp] theorem wr64_evt (s : State) (lo hi v : Nat) : (s.wr64 lo hi v).evt = s.evt := rfl
@[simp] theorem wr64_parts (s : State) (lo hi v : Nat) : (s.wr64 lo hi v).parts = s.parts := rfl
@[simp] theorem wr64_tb (s : State) (lo hi v : Nat) : (s.wr64 lo hi v).tb = s.tb := rfl
@[simp] theorem wr64_mp (s : State) (lo hi v : Nat) : (s.wr64 lo hi v).mp = s.mp := rfl
@[simp] theorem wr64_recd (s : State) (lo hi v : Nat) : (s.wr64 lo hi v).recd = s.recd := rfl
@[simp] theorem wr64_sig (s : State) (lo hi v : Nat) : (s.wr64 lo hi v).sig = s.sig := rfl
@[simp] theorem wr64_car (s : State) (lo hi v : Nat) : (s.wr64 lo hi v).car = s.car := rfl
@[simp] theorem wr64_ports (s : State) (lo hi v : Nat) : (s.wr64 lo hi v).ports = s.ports := rfl
@[simp] theorem wr64_cb (s : State) (lo hi v : Nat) : (s.wr64 lo hi v).cb = s.cb := rfl
@[simp] theorem wr64_rack (s : State) (lo hi v : Nat) : (s.wr64 lo hi v).rack = s.rack := rfl
@[simp] theorem wr64_fld (s : State) (lo hi v : Nat) : (s.wr64 lo hi v).fld = s.fld := rfl
@[simp] theorem wr64_saf (s : State) (lo hi v : Nat) : (s.wr64 lo hi v).saf = s.saf := rfl
@[simp] theorem wr64_cyc (s : State) (lo hi v : Nat) : (s.wr64 lo hi v).cyc = s.cyc := rfl
@[simp] theorem wr64_ist (s : State) (lo hi v : Nat) : (s.wr64 lo hi v).ist = s.ist := rfl
@[simp] theorem wr64_pair (s : State) (lo hi v : Nat) : (s.wr64 lo hi v).pair = s.pair := rfl
@[simp] theorem wr64_busData (s : State) (lo hi v : Nat) : (s.wr64 lo hi v).busData = s.busData := rfl
@[simp] theorem wr64_freeCtr (s : State) (lo hi v : Nat) : (s.wr64 lo hi v).freeCtr = s.freeCtr := rfl
@[simp] theorem wr64_byte (s : State) (lo hi v : Nat) (a : Nat) : (s.wr64 lo hi v).byte a = s.byte a := rfl

/-! ## State.mpIrq -/

@[simp] theorem mpIrq_pending (s : State) (n : Nat) : (s.mpIrq n).pending = s.pending := rfl
@[simp] theorem mpIrq_phase (s : State) (n : Nat) : (s.mpIrq n).phase = s.phase := rfl
@[simp] theorem mpIrq_mem (s : State) (n : Nat) : (s.mpIrq n).mem = s.mem := rfl
@[simp] theorem mpIrq_ecc (s : State) (n : Nat) : (s.mpIrq n).ecc = s.ecc := rfl
@[simp] theorem mpIrq_eccCount (s : State) (n : Nat) : (s.mpIrq n).eccCount = s.eccCount := rfl
@[simp] theorem mpIrq_heldWrites (s : State) (n : Nat) : (s.mpIrq n).heldWrites = s.heldWrites := rfl
@[simp] theorem mpIrq_pwr (s : State) (n : Nat) : (s.mpIrq n).pwr = s.pwr := rfl
@[simp] theorem mpIrq_lanes (s : State) (n : Nat) : (s.mpIrq n).lanes = s.lanes := rfl
@[simp] theorem mpIrq_harts (s : State) (n : Nat) : (s.mpIrq n).harts = s.harts := rfl
@[simp] theorem mpIrq_plic (s : State) (n : Nat) : (s.mpIrq n).plic = s.plic := rfl
@[simp] theorem mpIrq_cord (s : State) (n : Nat) : (s.mpIrq n).cord = s.cord := rfl
@[simp] theorem mpIrq_flue (s : State) (n : Nat) : (s.mpIrq n).flue = s.flue := rfl
@[simp] theorem mpIrq_rings (s : State) (n : Nat) : (s.mpIrq n).rings = s.rings := rfl
@[simp] theorem mpIrq_evt (s : State) (n : Nat) : (s.mpIrq n).evt = s.evt := rfl
@[simp] theorem mpIrq_parts (s : State) (n : Nat) : (s.mpIrq n).parts = s.parts := rfl
@[simp] theorem mpIrq_tb (s : State) (n : Nat) : (s.mpIrq n).tb = s.tb := rfl
@[simp] theorem mpIrq_mp (s : State) (n : Nat) : (s.mpIrq n).mp = s.mp := rfl
@[simp] theorem mpIrq_recd (s : State) (n : Nat) : (s.mpIrq n).recd = s.recd := rfl
@[simp] theorem mpIrq_sig (s : State) (n : Nat) : (s.mpIrq n).sig = s.sig := rfl
@[simp] theorem mpIrq_car (s : State) (n : Nat) : (s.mpIrq n).car = s.car := rfl
@[simp] theorem mpIrq_ports (s : State) (n : Nat) : (s.mpIrq n).ports = s.ports := rfl
@[simp] theorem mpIrq_cb (s : State) (n : Nat) : (s.mpIrq n).cb = s.cb := rfl
@[simp] theorem mpIrq_rack (s : State) (n : Nat) : (s.mpIrq n).rack = s.rack := rfl
@[simp] theorem mpIrq_fld (s : State) (n : Nat) : (s.mpIrq n).fld = s.fld := rfl
@[simp] theorem mpIrq_saf (s : State) (n : Nat) : (s.mpIrq n).saf = s.saf := rfl
@[simp] theorem mpIrq_cyc (s : State) (n : Nat) : (s.mpIrq n).cyc = s.cyc := rfl
@[simp] theorem mpIrq_ist (s : State) (n : Nat) : (s.mpIrq n).ist = s.ist := rfl
@[simp] theorem mpIrq_pair (s : State) (n : Nat) : (s.mpIrq n).pair = s.pair := rfl
@[simp] theorem mpIrq_busData (s : State) (n : Nat) : (s.mpIrq n).busData = s.busData := rfl
@[simp] theorem mpIrq_freeCtr (s : State) (n : Nat) : (s.mpIrq n).freeCtr = s.freeCtr := rfl
@[simp] theorem mpIrq_byte (s : State) (n : Nat) (a : Nat) : (s.mpIrq n).byte a = s.byte a := rfl

/-! ## State.peak -/

@[simp] theorem peak_pending (s : State) (f : Fld) (v : Nat) : (s.peak f v).pending = s.pending := by unfold State.peak; split <;> rfl
@[simp] theorem peak_phase (s : State) (f : Fld) (v : Nat) : (s.peak f v).phase = s.phase := by unfold State.peak; split <;> rfl
@[simp] theorem peak_mem (s : State) (f : Fld) (v : Nat) : (s.peak f v).mem = s.mem := by unfold State.peak; split <;> rfl
@[simp] theorem peak_ecc (s : State) (f : Fld) (v : Nat) : (s.peak f v).ecc = s.ecc := by unfold State.peak; split <;> rfl
@[simp] theorem peak_eccCount (s : State) (f : Fld) (v : Nat) : (s.peak f v).eccCount = s.eccCount := by unfold State.peak; split <;> rfl
@[simp] theorem peak_heldWrites (s : State) (f : Fld) (v : Nat) : (s.peak f v).heldWrites = s.heldWrites := by unfold State.peak; split <;> rfl
@[simp] theorem peak_pwr (s : State) (f : Fld) (v : Nat) : (s.peak f v).pwr = s.pwr := by unfold State.peak; split <;> rfl
@[simp] theorem peak_lanes (s : State) (f : Fld) (v : Nat) : (s.peak f v).lanes = s.lanes := by unfold State.peak; split <;> rfl
@[simp] theorem peak_harts (s : State) (f : Fld) (v : Nat) : (s.peak f v).harts = s.harts := by unfold State.peak; split <;> rfl
@[simp] theorem peak_plic (s : State) (f : Fld) (v : Nat) : (s.peak f v).plic = s.plic := by unfold State.peak; split <;> rfl
@[simp] theorem peak_cord (s : State) (f : Fld) (v : Nat) : (s.peak f v).cord = s.cord := by unfold State.peak; split <;> rfl
@[simp] theorem peak_flue (s : State) (f : Fld) (v : Nat) : (s.peak f v).flue = s.flue := by unfold State.peak; split <;> rfl
@[simp] theorem peak_rings (s : State) (f : Fld) (v : Nat) : (s.peak f v).rings = s.rings := by unfold State.peak; split <;> rfl
@[simp] theorem peak_evt (s : State) (f : Fld) (v : Nat) : (s.peak f v).evt = s.evt := by unfold State.peak; split <;> rfl
@[simp] theorem peak_parts (s : State) (f : Fld) (v : Nat) : (s.peak f v).parts = s.parts := by unfold State.peak; split <;> rfl
@[simp] theorem peak_tb (s : State) (f : Fld) (v : Nat) : (s.peak f v).tb = s.tb := by unfold State.peak; split <;> rfl
@[simp] theorem peak_mp (s : State) (f : Fld) (v : Nat) : (s.peak f v).mp = s.mp := by unfold State.peak; split <;> rfl
@[simp] theorem peak_recd (s : State) (f : Fld) (v : Nat) : (s.peak f v).recd = s.recd := by unfold State.peak; split <;> rfl
@[simp] theorem peak_sig (s : State) (f : Fld) (v : Nat) : (s.peak f v).sig = s.sig := by unfold State.peak; split <;> rfl
@[simp] theorem peak_car (s : State) (f : Fld) (v : Nat) : (s.peak f v).car = s.car := by unfold State.peak; split <;> rfl
@[simp] theorem peak_ports (s : State) (f : Fld) (v : Nat) : (s.peak f v).ports = s.ports := by unfold State.peak; split <;> rfl
@[simp] theorem peak_cb (s : State) (f : Fld) (v : Nat) : (s.peak f v).cb = s.cb := by unfold State.peak; split <;> rfl
@[simp] theorem peak_rack (s : State) (f : Fld) (v : Nat) : (s.peak f v).rack = s.rack := by unfold State.peak; split <;> rfl
@[simp] theorem peak_fld (s : State) (f : Fld) (v : Nat) : (s.peak f v).fld = s.fld := by unfold State.peak; split <;> rfl
@[simp] theorem peak_saf (s : State) (f : Fld) (v : Nat) : (s.peak f v).saf = s.saf := by unfold State.peak; split <;> rfl
@[simp] theorem peak_cyc (s : State) (f : Fld) (v : Nat) : (s.peak f v).cyc = s.cyc := by unfold State.peak; split <;> rfl
@[simp] theorem peak_ist (s : State) (f : Fld) (v : Nat) : (s.peak f v).ist = s.ist := by unfold State.peak; split <;> rfl
@[simp] theorem peak_pair (s : State) (f : Fld) (v : Nat) : (s.peak f v).pair = s.pair := by unfold State.peak; split <;> rfl
@[simp] theorem peak_busData (s : State) (f : Fld) (v : Nat) : (s.peak f v).busData = s.busData := by unfold State.peak; split <;> rfl
@[simp] theorem peak_freeCtr (s : State) (f : Fld) (v : Nat) : (s.peak f v).freeCtr = s.freeCtr := by unfold State.peak; split <;> rfl
@[simp] theorem peak_byte (s : State) (f : Fld) (v : Nat) (a : Nat) : (s.peak f v).byte a = s.byte a := by unfold State.byte; rw [peak_mem]

/-! ## State.raise -/

@[simp] theorem raise_pending (s : State) (n : Nat) (i : List Word) : (s.raise n i).pending = s.pending := by unfold State.raise; split <;> rfl
@[simp] theorem raise_phase (s : State) (n : Nat) (i : List Word) : (s.raise n i).phase = s.phase := by unfold State.raise; split <;> rfl
@[simp] theorem raise_regs (s : State) (n : Nat) (i : List Word) : (s.raise n i).regs = s.regs := by unfold State.raise; split <;> rfl
@[simp] theorem raise_mem (s : State) (n : Nat) (i : List Word) : (s.raise n i).mem = s.mem := by unfold State.raise; split <;> rfl
@[simp] theorem raise_ecc (s : State) (n : Nat) (i : List Word) : (s.raise n i).ecc = s.ecc := by unfold State.raise; split <;> rfl
@[simp] theorem raise_eccCount (s : State) (n : Nat) (i : List Word) : (s.raise n i).eccCount = s.eccCount := by unfold State.raise; split <;> rfl
@[simp] theorem raise_heldWrites (s : State) (n : Nat) (i : List Word) : (s.raise n i).heldWrites = s.heldWrites := by unfold State.raise; split <;> rfl
@[simp] theorem raise_pwr (s : State) (n : Nat) (i : List Word) : (s.raise n i).pwr = s.pwr := by unfold State.raise; split <;> rfl
@[simp] theorem raise_lanes (s : State) (n : Nat) (i : List Word) : (s.raise n i).lanes = s.lanes := by unfold State.raise; split <;> rfl
@[simp] theorem raise_harts (s : State) (n : Nat) (i : List Word) : (s.raise n i).harts = s.harts := by unfold State.raise; split <;> rfl
@[simp] theorem raise_plic (s : State) (n : Nat) (i : List Word) : (s.raise n i).plic = s.plic := by unfold State.raise; split <;> rfl
@[simp] theorem raise_cord (s : State) (n : Nat) (i : List Word) : (s.raise n i).cord = s.cord := by unfold State.raise; split <;> rfl
@[simp] theorem raise_flue (s : State) (n : Nat) (i : List Word) : (s.raise n i).flue = s.flue := by unfold State.raise; split <;> rfl
@[simp] theorem raise_rings (s : State) (n : Nat) (i : List Word) : (s.raise n i).rings = s.rings := by unfold State.raise; split <;> rfl
@[simp] theorem raise_parts (s : State) (n : Nat) (i : List Word) : (s.raise n i).parts = s.parts := by unfold State.raise; split <;> rfl
@[simp] theorem raise_tb (s : State) (n : Nat) (i : List Word) : (s.raise n i).tb = s.tb := by unfold State.raise; split <;> rfl
@[simp] theorem raise_mp (s : State) (n : Nat) (i : List Word) : (s.raise n i).mp = s.mp := by unfold State.raise; split <;> rfl
@[simp] theorem raise_recd (s : State) (n : Nat) (i : List Word) : (s.raise n i).recd = s.recd := by unfold State.raise; split <;> rfl
@[simp] theorem raise_sig (s : State) (n : Nat) (i : List Word) : (s.raise n i).sig = s.sig := by unfold State.raise; split <;> rfl
@[simp] theorem raise_car (s : State) (n : Nat) (i : List Word) : (s.raise n i).car = s.car := by unfold State.raise; split <;> rfl
@[simp] theorem raise_ports (s : State) (n : Nat) (i : List Word) : (s.raise n i).ports = s.ports := by unfold State.raise; split <;> rfl
@[simp] theorem raise_cb (s : State) (n : Nat) (i : List Word) : (s.raise n i).cb = s.cb := by unfold State.raise; split <;> rfl
@[simp] theorem raise_rack (s : State) (n : Nat) (i : List Word) : (s.raise n i).rack = s.rack := by unfold State.raise; split <;> rfl
@[simp] theorem raise_fld (s : State) (n : Nat) (i : List Word) : (s.raise n i).fld = s.fld := by unfold State.raise; split <;> rfl
@[simp] theorem raise_saf (s : State) (n : Nat) (i : List Word) : (s.raise n i).saf = s.saf := by unfold State.raise; split <;> rfl
@[simp] theorem raise_cyc (s : State) (n : Nat) (i : List Word) : (s.raise n i).cyc = s.cyc := by unfold State.raise; split <;> rfl
@[simp] theorem raise_ist (s : State) (n : Nat) (i : List Word) : (s.raise n i).ist = s.ist := by unfold State.raise; split <;> rfl
@[simp] theorem raise_pair (s : State) (n : Nat) (i : List Word) : (s.raise n i).pair = s.pair := by unfold State.raise; split <;> rfl
@[simp] theorem raise_busData (s : State) (n : Nat) (i : List Word) : (s.raise n i).busData = s.busData := by unfold State.raise; split <;> rfl
@[simp] theorem raise_freeCtr (s : State) (n : Nat) (i : List Word) : (s.raise n i).freeCtr = s.freeCtr := by unfold State.raise; split <;> rfl
@[simp] theorem raise_reg (s : State) (n : Nat) (i : List Word) (o : Nat) : (s.raise n i).reg o = s.reg o := by unfold State.reg; rw [raise_regs]
@[simp] theorem raise_rd (s : State) (n : Nat) (i : List Word) (fl : Fld) : (s.raise n i).rd fl = s.rd fl := by unfold State.rd; rw [raise_reg]
@[simp] theorem raise_byte (s : State) (n : Nat) (i : List Word) (a : Nat) : (s.raise n i).byte a = s.byte a := by unfold State.byte; rw [raise_mem]

/-! ## State.raiseRing -/

@[simp] theorem raiseRing_pending (s : State) (n : Nat) (i : List Word) (r : RingId) : (s.raiseRing n i r).pending = s.pending := rfl
@[simp] theorem raiseRing_phase (s : State) (n : Nat) (i : List Word) (r : RingId) : (s.raiseRing n i r).phase = s.phase := rfl
@[simp] theorem raiseRing_regs (s : State) (n : Nat) (i : List Word) (r : RingId) : (s.raiseRing n i r).regs = s.regs := rfl
@[simp] theorem raiseRing_mem (s : State) (n : Nat) (i : List Word) (r : RingId) : (s.raiseRing n i r).mem = s.mem := rfl
@[simp] theorem raiseRing_ecc (s : State) (n : Nat) (i : List Word) (r : RingId) : (s.raiseRing n i r).ecc = s.ecc := rfl
@[simp] theorem raiseRing_eccCount (s : State) (n : Nat) (i : List Word) (r : RingId) : (s.raiseRing n i r).eccCount = s.eccCount := rfl
@[simp] theorem raiseRing_heldWrites (s : State) (n : Nat) (i : List Word) (r : RingId) : (s.raiseRing n i r).heldWrites = s.heldWrites := rfl
@[simp] theorem raiseRing_pwr (s : State) (n : Nat) (i : List Word) (r : RingId) : (s.raiseRing n i r).pwr = s.pwr := rfl
@[simp] theorem raiseRing_lanes (s : State) (n : Nat) (i : List Word) (r : RingId) : (s.raiseRing n i r).lanes = s.lanes := rfl
@[simp] theorem raiseRing_harts (s : State) (n : Nat) (i : List Word) (r : RingId) : (s.raiseRing n i r).harts = s.harts := rfl
@[simp] theorem raiseRing_plic (s : State) (n : Nat) (i : List Word) (r : RingId) : (s.raiseRing n i r).plic = s.plic := rfl
@[simp] theorem raiseRing_cord (s : State) (n : Nat) (i : List Word) (r : RingId) : (s.raiseRing n i r).cord = s.cord := rfl
@[simp] theorem raiseRing_flue (s : State) (n : Nat) (i : List Word) (r : RingId) : (s.raiseRing n i r).flue = s.flue := rfl
@[simp] theorem raiseRing_rings (s : State) (n : Nat) (i : List Word) (r : RingId) : (s.raiseRing n i r).rings = s.rings := rfl
@[simp] theorem raiseRing_parts (s : State) (n : Nat) (i : List Word) (r : RingId) : (s.raiseRing n i r).parts = s.parts := rfl
@[simp] theorem raiseRing_tb (s : State) (n : Nat) (i : List Word) (r : RingId) : (s.raiseRing n i r).tb = s.tb := rfl
@[simp] theorem raiseRing_mp (s : State) (n : Nat) (i : List Word) (r : RingId) : (s.raiseRing n i r).mp = s.mp := rfl
@[simp] theorem raiseRing_recd (s : State) (n : Nat) (i : List Word) (r : RingId) : (s.raiseRing n i r).recd = s.recd := rfl
@[simp] theorem raiseRing_sig (s : State) (n : Nat) (i : List Word) (r : RingId) : (s.raiseRing n i r).sig = s.sig := rfl
@[simp] theorem raiseRing_car (s : State) (n : Nat) (i : List Word) (r : RingId) : (s.raiseRing n i r).car = s.car := rfl
@[simp] theorem raiseRing_ports (s : State) (n : Nat) (i : List Word) (r : RingId) : (s.raiseRing n i r).ports = s.ports := rfl
@[simp] theorem raiseRing_cb (s : State) (n : Nat) (i : List Word) (r : RingId) : (s.raiseRing n i r).cb = s.cb := rfl
@[simp] theorem raiseRing_rack (s : State) (n : Nat) (i : List Word) (r : RingId) : (s.raiseRing n i r).rack = s.rack := rfl
@[simp] theorem raiseRing_fld (s : State) (n : Nat) (i : List Word) (r : RingId) : (s.raiseRing n i r).fld = s.fld := rfl
@[simp] theorem raiseRing_saf (s : State) (n : Nat) (i : List Word) (r : RingId) : (s.raiseRing n i r).saf = s.saf := rfl
@[simp] theorem raiseRing_cyc (s : State) (n : Nat) (i : List Word) (r : RingId) : (s.raiseRing n i r).cyc = s.cyc := rfl
@[simp] theorem raiseRing_ist (s : State) (n : Nat) (i : List Word) (r : RingId) : (s.raiseRing n i r).ist = s.ist := rfl
@[simp] theorem raiseRing_pair (s : State) (n : Nat) (i : List Word) (r : RingId) : (s.raiseRing n i r).pair = s.pair := rfl
@[simp] theorem raiseRing_busData (s : State) (n : Nat) (i : List Word) (r : RingId) : (s.raiseRing n i r).busData = s.busData := rfl
@[simp] theorem raiseRing_freeCtr (s : State) (n : Nat) (i : List Word) (r : RingId) : (s.raiseRing n i r).freeCtr = s.freeCtr := rfl
@[simp] theorem raiseRing_reg (s : State) (n : Nat) (i : List Word) (r : RingId) (o : Nat) : (s.raiseRing n i r).reg o = s.reg o := rfl
@[simp] theorem raiseRing_rd (s : State) (n : Nat) (i : List Word) (r : RingId) (fl : Fld) : (s.raiseRing n i r).rd fl = s.rd fl := rfl
@[simp] theorem raiseRing_byte (s : State) (n : Nat) (i : List Word) (r : RingId) (a : Nat) : (s.raiseRing n i r).byte a = s.byte a := rfl

/-! ## State.setByte -/

@[simp] theorem setByte_pending (s : State) (a : Nat) (b : Byte) : (s.setByte a b).pending = s.pending := rfl
@[simp] theorem setByte_phase (s : State) (a : Nat) (b : Byte) : (s.setByte a b).phase = s.phase := rfl
@[simp] theorem setByte_regs (s : State) (a : Nat) (b : Byte) : (s.setByte a b).regs = s.regs := rfl
@[simp] theorem setByte_ecc (s : State) (a : Nat) (b : Byte) : (s.setByte a b).ecc = s.ecc := rfl
@[simp] theorem setByte_eccCount (s : State) (a : Nat) (b : Byte) : (s.setByte a b).eccCount = s.eccCount := rfl
@[simp] theorem setByte_heldWrites (s : State) (a : Nat) (b : Byte) : (s.setByte a b).heldWrites = s.heldWrites := rfl
@[simp] theorem setByte_pwr (s : State) (a : Nat) (b : Byte) : (s.setByte a b).pwr = s.pwr := rfl
@[simp] theorem setByte_lanes (s : State) (a : Nat) (b : Byte) : (s.setByte a b).lanes = s.lanes := rfl
@[simp] theorem setByte_harts (s : State) (a : Nat) (b : Byte) : (s.setByte a b).harts = s.harts := rfl
@[simp] theorem setByte_plic (s : State) (a : Nat) (b : Byte) : (s.setByte a b).plic = s.plic := rfl
@[simp] theorem setByte_cord (s : State) (a : Nat) (b : Byte) : (s.setByte a b).cord = s.cord := rfl
@[simp] theorem setByte_flue (s : State) (a : Nat) (b : Byte) : (s.setByte a b).flue = s.flue := rfl
@[simp] theorem setByte_rings (s : State) (a : Nat) (b : Byte) : (s.setByte a b).rings = s.rings := rfl
@[simp] theorem setByte_evt (s : State) (a : Nat) (b : Byte) : (s.setByte a b).evt = s.evt := rfl
@[simp] theorem setByte_parts (s : State) (a : Nat) (b : Byte) : (s.setByte a b).parts = s.parts := rfl
@[simp] theorem setByte_tb (s : State) (a : Nat) (b : Byte) : (s.setByte a b).tb = s.tb := rfl
@[simp] theorem setByte_mp (s : State) (a : Nat) (b : Byte) : (s.setByte a b).mp = s.mp := rfl
@[simp] theorem setByte_recd (s : State) (a : Nat) (b : Byte) : (s.setByte a b).recd = s.recd := rfl
@[simp] theorem setByte_sig (s : State) (a : Nat) (b : Byte) : (s.setByte a b).sig = s.sig := rfl
@[simp] theorem setByte_car (s : State) (a : Nat) (b : Byte) : (s.setByte a b).car = s.car := rfl
@[simp] theorem setByte_ports (s : State) (a : Nat) (b : Byte) : (s.setByte a b).ports = s.ports := rfl
@[simp] theorem setByte_cb (s : State) (a : Nat) (b : Byte) : (s.setByte a b).cb = s.cb := rfl
@[simp] theorem setByte_rack (s : State) (a : Nat) (b : Byte) : (s.setByte a b).rack = s.rack := rfl
@[simp] theorem setByte_fld (s : State) (a : Nat) (b : Byte) : (s.setByte a b).fld = s.fld := rfl
@[simp] theorem setByte_saf (s : State) (a : Nat) (b : Byte) : (s.setByte a b).saf = s.saf := rfl
@[simp] theorem setByte_cyc (s : State) (a : Nat) (b : Byte) : (s.setByte a b).cyc = s.cyc := rfl
@[simp] theorem setByte_ist (s : State) (a : Nat) (b : Byte) : (s.setByte a b).ist = s.ist := rfl
@[simp] theorem setByte_pair (s : State) (a : Nat) (b : Byte) : (s.setByte a b).pair = s.pair := rfl
@[simp] theorem setByte_busData (s : State) (a : Nat) (b : Byte) : (s.setByte a b).busData = s.busData := rfl
@[simp] theorem setByte_freeCtr (s : State) (a : Nat) (b : Byte) : (s.setByte a b).freeCtr = s.freeCtr := rfl
@[simp] theorem setByte_reg (s : State) (a : Nat) (b : Byte) (o : Nat) : (s.setByte a b).reg o = s.reg o := rfl
@[simp] theorem setByte_rd (s : State) (a : Nat) (b : Byte) (fl : Fld) : (s.setByte a b).rd fl = s.rd fl := rfl

/-! ## State.setHart -/

@[simp] theorem setHart_pending (s : State) (h : HartId) (x : Hart) : (s.setHart h x).pending = s.pending := rfl
@[simp] theorem setHart_phase (s : State) (h : HartId) (x : Hart) : (s.setHart h x).phase = s.phase := rfl
@[simp] theorem setHart_regs (s : State) (h : HartId) (x : Hart) : (s.setHart h x).regs = s.regs := rfl
@[simp] theorem setHart_mem (s : State) (h : HartId) (x : Hart) : (s.setHart h x).mem = s.mem := rfl
@[simp] theorem setHart_ecc (s : State) (h : HartId) (x : Hart) : (s.setHart h x).ecc = s.ecc := rfl
@[simp] theorem setHart_eccCount (s : State) (h : HartId) (x : Hart) : (s.setHart h x).eccCount = s.eccCount := rfl
@[simp] theorem setHart_heldWrites (s : State) (h : HartId) (x : Hart) : (s.setHart h x).heldWrites = s.heldWrites := rfl
@[simp] theorem setHart_pwr (s : State) (h : HartId) (x : Hart) : (s.setHart h x).pwr = s.pwr := rfl
@[simp] theorem setHart_lanes (s : State) (h : HartId) (x : Hart) : (s.setHart h x).lanes = s.lanes := rfl
@[simp] theorem setHart_plic (s : State) (h : HartId) (x : Hart) : (s.setHart h x).plic = s.plic := rfl
@[simp] theorem setHart_cord (s : State) (h : HartId) (x : Hart) : (s.setHart h x).cord = s.cord := rfl
@[simp] theorem setHart_flue (s : State) (h : HartId) (x : Hart) : (s.setHart h x).flue = s.flue := rfl
@[simp] theorem setHart_rings (s : State) (h : HartId) (x : Hart) : (s.setHart h x).rings = s.rings := rfl
@[simp] theorem setHart_evt (s : State) (h : HartId) (x : Hart) : (s.setHart h x).evt = s.evt := rfl
@[simp] theorem setHart_parts (s : State) (h : HartId) (x : Hart) : (s.setHart h x).parts = s.parts := rfl
@[simp] theorem setHart_tb (s : State) (h : HartId) (x : Hart) : (s.setHart h x).tb = s.tb := rfl
@[simp] theorem setHart_mp (s : State) (h : HartId) (x : Hart) : (s.setHart h x).mp = s.mp := rfl
@[simp] theorem setHart_recd (s : State) (h : HartId) (x : Hart) : (s.setHart h x).recd = s.recd := rfl
@[simp] theorem setHart_sig (s : State) (h : HartId) (x : Hart) : (s.setHart h x).sig = s.sig := rfl
@[simp] theorem setHart_car (s : State) (h : HartId) (x : Hart) : (s.setHart h x).car = s.car := rfl
@[simp] theorem setHart_ports (s : State) (h : HartId) (x : Hart) : (s.setHart h x).ports = s.ports := rfl
@[simp] theorem setHart_cb (s : State) (h : HartId) (x : Hart) : (s.setHart h x).cb = s.cb := rfl
@[simp] theorem setHart_rack (s : State) (h : HartId) (x : Hart) : (s.setHart h x).rack = s.rack := rfl
@[simp] theorem setHart_fld (s : State) (h : HartId) (x : Hart) : (s.setHart h x).fld = s.fld := rfl
@[simp] theorem setHart_saf (s : State) (h : HartId) (x : Hart) : (s.setHart h x).saf = s.saf := rfl
@[simp] theorem setHart_cyc (s : State) (h : HartId) (x : Hart) : (s.setHart h x).cyc = s.cyc := rfl
@[simp] theorem setHart_ist (s : State) (h : HartId) (x : Hart) : (s.setHart h x).ist = s.ist := rfl
@[simp] theorem setHart_pair (s : State) (h : HartId) (x : Hart) : (s.setHart h x).pair = s.pair := rfl
@[simp] theorem setHart_busData (s : State) (h : HartId) (x : Hart) : (s.setHart h x).busData = s.busData := rfl
@[simp] theorem setHart_freeCtr (s : State) (h : HartId) (x : Hart) : (s.setHart h x).freeCtr = s.freeCtr := rfl
@[simp] theorem setHart_reg (s : State) (h : HartId) (x : Hart) (o : Nat) : (s.setHart h x).reg o = s.reg o := rfl
@[simp] theorem setHart_rd (s : State) (h : HartId) (x : Hart) (fl : Fld) : (s.setHart h x).rd fl = s.rd fl := rfl
@[simp] theorem setHart_byte (s : State) (h : HartId) (x : Hart) (a : Nat) : (s.setHart h x).byte a = s.byte a := rfl

/-! ## State.setCtx -/

@[simp] theorem setCtx_pending (s : State) (r : RingId) (c : RingCtx) : (s.setCtx r c).pending = s.pending := rfl
@[simp] theorem setCtx_phase (s : State) (r : RingId) (c : RingCtx) : (s.setCtx r c).phase = s.phase := rfl
@[simp] theorem setCtx_regs (s : State) (r : RingId) (c : RingCtx) : (s.setCtx r c).regs = s.regs := rfl
@[simp] theorem setCtx_mem (s : State) (r : RingId) (c : RingCtx) : (s.setCtx r c).mem = s.mem := rfl
@[simp] theorem setCtx_ecc (s : State) (r : RingId) (c : RingCtx) : (s.setCtx r c).ecc = s.ecc := rfl
@[simp] theorem setCtx_eccCount (s : State) (r : RingId) (c : RingCtx) : (s.setCtx r c).eccCount = s.eccCount := rfl
@[simp] theorem setCtx_heldWrites (s : State) (r : RingId) (c : RingCtx) : (s.setCtx r c).heldWrites = s.heldWrites := rfl
@[simp] theorem setCtx_pwr (s : State) (r : RingId) (c : RingCtx) : (s.setCtx r c).pwr = s.pwr := rfl
@[simp] theorem setCtx_lanes (s : State) (r : RingId) (c : RingCtx) : (s.setCtx r c).lanes = s.lanes := rfl
@[simp] theorem setCtx_harts (s : State) (r : RingId) (c : RingCtx) : (s.setCtx r c).harts = s.harts := rfl
@[simp] theorem setCtx_plic (s : State) (r : RingId) (c : RingCtx) : (s.setCtx r c).plic = s.plic := rfl
@[simp] theorem setCtx_cord (s : State) (r : RingId) (c : RingCtx) : (s.setCtx r c).cord = s.cord := rfl
@[simp] theorem setCtx_flue (s : State) (r : RingId) (c : RingCtx) : (s.setCtx r c).flue = s.flue := rfl
@[simp] theorem setCtx_evt (s : State) (r : RingId) (c : RingCtx) : (s.setCtx r c).evt = s.evt := rfl
@[simp] theorem setCtx_parts (s : State) (r : RingId) (c : RingCtx) : (s.setCtx r c).parts = s.parts := rfl
@[simp] theorem setCtx_tb (s : State) (r : RingId) (c : RingCtx) : (s.setCtx r c).tb = s.tb := rfl
@[simp] theorem setCtx_mp (s : State) (r : RingId) (c : RingCtx) : (s.setCtx r c).mp = s.mp := rfl
@[simp] theorem setCtx_recd (s : State) (r : RingId) (c : RingCtx) : (s.setCtx r c).recd = s.recd := rfl
@[simp] theorem setCtx_sig (s : State) (r : RingId) (c : RingCtx) : (s.setCtx r c).sig = s.sig := rfl
@[simp] theorem setCtx_car (s : State) (r : RingId) (c : RingCtx) : (s.setCtx r c).car = s.car := rfl
@[simp] theorem setCtx_ports (s : State) (r : RingId) (c : RingCtx) : (s.setCtx r c).ports = s.ports := rfl
@[simp] theorem setCtx_cb (s : State) (r : RingId) (c : RingCtx) : (s.setCtx r c).cb = s.cb := rfl
@[simp] theorem setCtx_rack (s : State) (r : RingId) (c : RingCtx) : (s.setCtx r c).rack = s.rack := rfl
@[simp] theorem setCtx_fld (s : State) (r : RingId) (c : RingCtx) : (s.setCtx r c).fld = s.fld := rfl
@[simp] theorem setCtx_saf (s : State) (r : RingId) (c : RingCtx) : (s.setCtx r c).saf = s.saf := rfl
@[simp] theorem setCtx_cyc (s : State) (r : RingId) (c : RingCtx) : (s.setCtx r c).cyc = s.cyc := rfl
@[simp] theorem setCtx_ist (s : State) (r : RingId) (c : RingCtx) : (s.setCtx r c).ist = s.ist := rfl
@[simp] theorem setCtx_pair (s : State) (r : RingId) (c : RingCtx) : (s.setCtx r c).pair = s.pair := rfl
@[simp] theorem setCtx_busData (s : State) (r : RingId) (c : RingCtx) : (s.setCtx r c).busData = s.busData := rfl
@[simp] theorem setCtx_freeCtr (s : State) (r : RingId) (c : RingCtx) : (s.setCtx r c).freeCtr = s.freeCtr := rfl
@[simp] theorem setCtx_reg (s : State) (r : RingId) (c : RingCtx) (o : Nat) : (s.setCtx r c).reg o = s.reg o := rfl
@[simp] theorem setCtx_rd (s : State) (r : RingId) (c : RingCtx) (fl : Fld) : (s.setCtx r c).rd fl = s.rd fl := rfl
@[simp] theorem setCtx_byte (s : State) (r : RingId) (c : RingCtx) (a : Nat) : (s.setCtx r c).byte a = s.byte a := rfl

/-! ## State.setGen -/

@[simp] theorem setGen_pending (s : State) (n : Nat) (g : Pto) : (s.setGen n g).pending = s.pending := rfl
@[simp] theorem setGen_phase (s : State) (n : Nat) (g : Pto) : (s.setGen n g).phase = s.phase := rfl
@[simp] theorem setGen_regs (s : State) (n : Nat) (g : Pto) : (s.setGen n g).regs = s.regs := rfl
@[simp] theorem setGen_mem (s : State) (n : Nat) (g : Pto) : (s.setGen n g).mem = s.mem := rfl
@[simp] theorem setGen_ecc (s : State) (n : Nat) (g : Pto) : (s.setGen n g).ecc = s.ecc := rfl
@[simp] theorem setGen_eccCount (s : State) (n : Nat) (g : Pto) : (s.setGen n g).eccCount = s.eccCount := rfl
@[simp] theorem setGen_heldWrites (s : State) (n : Nat) (g : Pto) : (s.setGen n g).heldWrites = s.heldWrites := rfl
@[simp] theorem setGen_pwr (s : State) (n : Nat) (g : Pto) : (s.setGen n g).pwr = s.pwr := rfl
@[simp] theorem setGen_lanes (s : State) (n : Nat) (g : Pto) : (s.setGen n g).lanes = s.lanes := rfl
@[simp] theorem setGen_harts (s : State) (n : Nat) (g : Pto) : (s.setGen n g).harts = s.harts := rfl
@[simp] theorem setGen_plic (s : State) (n : Nat) (g : Pto) : (s.setGen n g).plic = s.plic := rfl
@[simp] theorem setGen_cord (s : State) (n : Nat) (g : Pto) : (s.setGen n g).cord = s.cord := rfl
@[simp] theorem setGen_flue (s : State) (n : Nat) (g : Pto) : (s.setGen n g).flue = s.flue := rfl
@[simp] theorem setGen_rings (s : State) (n : Nat) (g : Pto) : (s.setGen n g).rings = s.rings := rfl
@[simp] theorem setGen_evt (s : State) (n : Nat) (g : Pto) : (s.setGen n g).evt = s.evt := rfl
@[simp] theorem setGen_parts (s : State) (n : Nat) (g : Pto) : (s.setGen n g).parts = s.parts := rfl
@[simp] theorem setGen_mp (s : State) (n : Nat) (g : Pto) : (s.setGen n g).mp = s.mp := rfl
@[simp] theorem setGen_recd (s : State) (n : Nat) (g : Pto) : (s.setGen n g).recd = s.recd := rfl
@[simp] theorem setGen_sig (s : State) (n : Nat) (g : Pto) : (s.setGen n g).sig = s.sig := rfl
@[simp] theorem setGen_car (s : State) (n : Nat) (g : Pto) : (s.setGen n g).car = s.car := rfl
@[simp] theorem setGen_ports (s : State) (n : Nat) (g : Pto) : (s.setGen n g).ports = s.ports := rfl
@[simp] theorem setGen_cb (s : State) (n : Nat) (g : Pto) : (s.setGen n g).cb = s.cb := rfl
@[simp] theorem setGen_rack (s : State) (n : Nat) (g : Pto) : (s.setGen n g).rack = s.rack := rfl
@[simp] theorem setGen_fld (s : State) (n : Nat) (g : Pto) : (s.setGen n g).fld = s.fld := rfl
@[simp] theorem setGen_saf (s : State) (n : Nat) (g : Pto) : (s.setGen n g).saf = s.saf := rfl
@[simp] theorem setGen_cyc (s : State) (n : Nat) (g : Pto) : (s.setGen n g).cyc = s.cyc := rfl
@[simp] theorem setGen_ist (s : State) (n : Nat) (g : Pto) : (s.setGen n g).ist = s.ist := rfl
@[simp] theorem setGen_pair (s : State) (n : Nat) (g : Pto) : (s.setGen n g).pair = s.pair := rfl
@[simp] theorem setGen_busData (s : State) (n : Nat) (g : Pto) : (s.setGen n g).busData = s.busData := rfl
@[simp] theorem setGen_freeCtr (s : State) (n : Nat) (g : Pto) : (s.setGen n g).freeCtr = s.freeCtr := rfl
@[simp] theorem setGen_reg (s : State) (n : Nat) (g : Pto) (o : Nat) : (s.setGen n g).reg o = s.reg o := rfl
@[simp] theorem setGen_rd (s : State) (n : Nat) (g : Pto) (fl : Fld) : (s.setGen n g).rd fl = s.rd fl := rfl
@[simp] theorem setGen_byte (s : State) (n : Nat) (g : Pto) (a : Nat) : (s.setGen n g).byte a = s.byte a := rfl

/-! ## State.setMon -/

@[simp] theorem setMon_pending (s : State) (p : PartId) (m : PartMon) : (s.setMon p m).pending = s.pending := rfl
@[simp] theorem setMon_phase (s : State) (p : PartId) (m : PartMon) : (s.setMon p m).phase = s.phase := rfl
@[simp] theorem setMon_regs (s : State) (p : PartId) (m : PartMon) : (s.setMon p m).regs = s.regs := rfl
@[simp] theorem setMon_mem (s : State) (p : PartId) (m : PartMon) : (s.setMon p m).mem = s.mem := rfl
@[simp] theorem setMon_ecc (s : State) (p : PartId) (m : PartMon) : (s.setMon p m).ecc = s.ecc := rfl
@[simp] theorem setMon_eccCount (s : State) (p : PartId) (m : PartMon) : (s.setMon p m).eccCount = s.eccCount := rfl
@[simp] theorem setMon_heldWrites (s : State) (p : PartId) (m : PartMon) : (s.setMon p m).heldWrites = s.heldWrites := rfl
@[simp] theorem setMon_pwr (s : State) (p : PartId) (m : PartMon) : (s.setMon p m).pwr = s.pwr := rfl
@[simp] theorem setMon_lanes (s : State) (p : PartId) (m : PartMon) : (s.setMon p m).lanes = s.lanes := rfl
@[simp] theorem setMon_harts (s : State) (p : PartId) (m : PartMon) : (s.setMon p m).harts = s.harts := rfl
@[simp] theorem setMon_plic (s : State) (p : PartId) (m : PartMon) : (s.setMon p m).plic = s.plic := rfl
@[simp] theorem setMon_cord (s : State) (p : PartId) (m : PartMon) : (s.setMon p m).cord = s.cord := rfl
@[simp] theorem setMon_flue (s : State) (p : PartId) (m : PartMon) : (s.setMon p m).flue = s.flue := rfl
@[simp] theorem setMon_rings (s : State) (p : PartId) (m : PartMon) : (s.setMon p m).rings = s.rings := rfl
@[simp] theorem setMon_evt (s : State) (p : PartId) (m : PartMon) : (s.setMon p m).evt = s.evt := rfl
@[simp] theorem setMon_tb (s : State) (p : PartId) (m : PartMon) : (s.setMon p m).tb = s.tb := rfl
@[simp] theorem setMon_mp (s : State) (p : PartId) (m : PartMon) : (s.setMon p m).mp = s.mp := rfl
@[simp] theorem setMon_recd (s : State) (p : PartId) (m : PartMon) : (s.setMon p m).recd = s.recd := rfl
@[simp] theorem setMon_sig (s : State) (p : PartId) (m : PartMon) : (s.setMon p m).sig = s.sig := rfl
@[simp] theorem setMon_car (s : State) (p : PartId) (m : PartMon) : (s.setMon p m).car = s.car := rfl
@[simp] theorem setMon_ports (s : State) (p : PartId) (m : PartMon) : (s.setMon p m).ports = s.ports := rfl
@[simp] theorem setMon_cb (s : State) (p : PartId) (m : PartMon) : (s.setMon p m).cb = s.cb := rfl
@[simp] theorem setMon_rack (s : State) (p : PartId) (m : PartMon) : (s.setMon p m).rack = s.rack := rfl
@[simp] theorem setMon_fld (s : State) (p : PartId) (m : PartMon) : (s.setMon p m).fld = s.fld := rfl
@[simp] theorem setMon_saf (s : State) (p : PartId) (m : PartMon) : (s.setMon p m).saf = s.saf := rfl
@[simp] theorem setMon_cyc (s : State) (p : PartId) (m : PartMon) : (s.setMon p m).cyc = s.cyc := rfl
@[simp] theorem setMon_ist (s : State) (p : PartId) (m : PartMon) : (s.setMon p m).ist = s.ist := rfl
@[simp] theorem setMon_pair (s : State) (p : PartId) (m : PartMon) : (s.setMon p m).pair = s.pair := rfl
@[simp] theorem setMon_busData (s : State) (p : PartId) (m : PartMon) : (s.setMon p m).busData = s.busData := rfl
@[simp] theorem setMon_freeCtr (s : State) (p : PartId) (m : PartMon) : (s.setMon p m).freeCtr = s.freeCtr := rfl
@[simp] theorem setMon_reg (s : State) (p : PartId) (m : PartMon) (o : Nat) : (s.setMon p m).reg o = s.reg o := rfl
@[simp] theorem setMon_rd (s : State) (p : PartId) (m : PartMon) (fl : Fld) : (s.setMon p m).rd fl = s.rd fl := rfl
@[simp] theorem setMon_byte (s : State) (p : PartId) (m : PartMon) (a : Nat) : (s.setMon p m).byte a = s.byte a := rfl

/-! ## State.setLock -/

@[simp] theorem setLock_pending (s : State) (n : Nat) (x : LockSt) : (s.setLock n x).pending = s.pending := rfl
@[simp] theorem setLock_phase (s : State) (n : Nat) (x : LockSt) : (s.setLock n x).phase = s.phase := rfl
@[simp] theorem setLock_regs (s : State) (n : Nat) (x : LockSt) : (s.setLock n x).regs = s.regs := rfl
@[simp] theorem setLock_mem (s : State) (n : Nat) (x : LockSt) : (s.setLock n x).mem = s.mem := rfl
@[simp] theorem setLock_ecc (s : State) (n : Nat) (x : LockSt) : (s.setLock n x).ecc = s.ecc := rfl
@[simp] theorem setLock_eccCount (s : State) (n : Nat) (x : LockSt) : (s.setLock n x).eccCount = s.eccCount := rfl
@[simp] theorem setLock_heldWrites (s : State) (n : Nat) (x : LockSt) : (s.setLock n x).heldWrites = s.heldWrites := rfl
@[simp] theorem setLock_pwr (s : State) (n : Nat) (x : LockSt) : (s.setLock n x).pwr = s.pwr := rfl
@[simp] theorem setLock_lanes (s : State) (n : Nat) (x : LockSt) : (s.setLock n x).lanes = s.lanes := rfl
@[simp] theorem setLock_harts (s : State) (n : Nat) (x : LockSt) : (s.setLock n x).harts = s.harts := rfl
@[simp] theorem setLock_plic (s : State) (n : Nat) (x : LockSt) : (s.setLock n x).plic = s.plic := rfl
@[simp] theorem setLock_cord (s : State) (n : Nat) (x : LockSt) : (s.setLock n x).cord = s.cord := rfl
@[simp] theorem setLock_flue (s : State) (n : Nat) (x : LockSt) : (s.setLock n x).flue = s.flue := rfl
@[simp] theorem setLock_rings (s : State) (n : Nat) (x : LockSt) : (s.setLock n x).rings = s.rings := rfl
@[simp] theorem setLock_evt (s : State) (n : Nat) (x : LockSt) : (s.setLock n x).evt = s.evt := rfl
@[simp] theorem setLock_tb (s : State) (n : Nat) (x : LockSt) : (s.setLock n x).tb = s.tb := rfl
@[simp] theorem setLock_mp (s : State) (n : Nat) (x : LockSt) : (s.setLock n x).mp = s.mp := rfl
@[simp] theorem setLock_recd (s : State) (n : Nat) (x : LockSt) : (s.setLock n x).recd = s.recd := rfl
@[simp] theorem setLock_sig (s : State) (n : Nat) (x : LockSt) : (s.setLock n x).sig = s.sig := rfl
@[simp] theorem setLock_car (s : State) (n : Nat) (x : LockSt) : (s.setLock n x).car = s.car := rfl
@[simp] theorem setLock_ports (s : State) (n : Nat) (x : LockSt) : (s.setLock n x).ports = s.ports := rfl
@[simp] theorem setLock_cb (s : State) (n : Nat) (x : LockSt) : (s.setLock n x).cb = s.cb := rfl
@[simp] theorem setLock_rack (s : State) (n : Nat) (x : LockSt) : (s.setLock n x).rack = s.rack := rfl
@[simp] theorem setLock_fld (s : State) (n : Nat) (x : LockSt) : (s.setLock n x).fld = s.fld := rfl
@[simp] theorem setLock_saf (s : State) (n : Nat) (x : LockSt) : (s.setLock n x).saf = s.saf := rfl
@[simp] theorem setLock_cyc (s : State) (n : Nat) (x : LockSt) : (s.setLock n x).cyc = s.cyc := rfl
@[simp] theorem setLock_ist (s : State) (n : Nat) (x : LockSt) : (s.setLock n x).ist = s.ist := rfl
@[simp] theorem setLock_pair (s : State) (n : Nat) (x : LockSt) : (s.setLock n x).pair = s.pair := rfl
@[simp] theorem setLock_busData (s : State) (n : Nat) (x : LockSt) : (s.setLock n x).busData = s.busData := rfl
@[simp] theorem setLock_freeCtr (s : State) (n : Nat) (x : LockSt) : (s.setLock n x).freeCtr = s.freeCtr := rfl
@[simp] theorem setLock_reg (s : State) (n : Nat) (x : LockSt) (o : Nat) : (s.setLock n x).reg o = s.reg o := rfl
@[simp] theorem setLock_rd (s : State) (n : Nat) (x : LockSt) (fl : Fld) : (s.setLock n x).rd fl = s.rd fl := rfl
@[simp] theorem setLock_byte (s : State) (n : Nat) (x : LockSt) (a : Nat) : (s.setLock n x).byte a = s.byte a := rfl

/-! ## State.setStream -/

@[simp] theorem setStream_pending (s : State) (d : BitVec 16) (x : Stream) : (s.setStream d x).pending = s.pending := rfl
@[simp] theorem setStream_phase (s : State) (d : BitVec 16) (x : Stream) : (s.setStream d x).phase = s.phase := rfl
@[simp] theorem setStream_regs (s : State) (d : BitVec 16) (x : Stream) : (s.setStream d x).regs = s.regs := rfl
@[simp] theorem setStream_mem (s : State) (d : BitVec 16) (x : Stream) : (s.setStream d x).mem = s.mem := rfl
@[simp] theorem setStream_ecc (s : State) (d : BitVec 16) (x : Stream) : (s.setStream d x).ecc = s.ecc := rfl
@[simp] theorem setStream_eccCount (s : State) (d : BitVec 16) (x : Stream) : (s.setStream d x).eccCount = s.eccCount := rfl
@[simp] theorem setStream_heldWrites (s : State) (d : BitVec 16) (x : Stream) : (s.setStream d x).heldWrites = s.heldWrites := rfl
@[simp] theorem setStream_pwr (s : State) (d : BitVec 16) (x : Stream) : (s.setStream d x).pwr = s.pwr := rfl
@[simp] theorem setStream_lanes (s : State) (d : BitVec 16) (x : Stream) : (s.setStream d x).lanes = s.lanes := rfl
@[simp] theorem setStream_harts (s : State) (d : BitVec 16) (x : Stream) : (s.setStream d x).harts = s.harts := rfl
@[simp] theorem setStream_plic (s : State) (d : BitVec 16) (x : Stream) : (s.setStream d x).plic = s.plic := rfl
@[simp] theorem setStream_cord (s : State) (d : BitVec 16) (x : Stream) : (s.setStream d x).cord = s.cord := rfl
@[simp] theorem setStream_rings (s : State) (d : BitVec 16) (x : Stream) : (s.setStream d x).rings = s.rings := rfl
@[simp] theorem setStream_evt (s : State) (d : BitVec 16) (x : Stream) : (s.setStream d x).evt = s.evt := rfl
@[simp] theorem setStream_parts (s : State) (d : BitVec 16) (x : Stream) : (s.setStream d x).parts = s.parts := rfl
@[simp] theorem setStream_tb (s : State) (d : BitVec 16) (x : Stream) : (s.setStream d x).tb = s.tb := rfl
@[simp] theorem setStream_mp (s : State) (d : BitVec 16) (x : Stream) : (s.setStream d x).mp = s.mp := rfl
@[simp] theorem setStream_recd (s : State) (d : BitVec 16) (x : Stream) : (s.setStream d x).recd = s.recd := rfl
@[simp] theorem setStream_sig (s : State) (d : BitVec 16) (x : Stream) : (s.setStream d x).sig = s.sig := rfl
@[simp] theorem setStream_car (s : State) (d : BitVec 16) (x : Stream) : (s.setStream d x).car = s.car := rfl
@[simp] theorem setStream_ports (s : State) (d : BitVec 16) (x : Stream) : (s.setStream d x).ports = s.ports := rfl
@[simp] theorem setStream_cb (s : State) (d : BitVec 16) (x : Stream) : (s.setStream d x).cb = s.cb := rfl
@[simp] theorem setStream_rack (s : State) (d : BitVec 16) (x : Stream) : (s.setStream d x).rack = s.rack := rfl
@[simp] theorem setStream_fld (s : State) (d : BitVec 16) (x : Stream) : (s.setStream d x).fld = s.fld := rfl
@[simp] theorem setStream_saf (s : State) (d : BitVec 16) (x : Stream) : (s.setStream d x).saf = s.saf := rfl
@[simp] theorem setStream_cyc (s : State) (d : BitVec 16) (x : Stream) : (s.setStream d x).cyc = s.cyc := rfl
@[simp] theorem setStream_ist (s : State) (d : BitVec 16) (x : Stream) : (s.setStream d x).ist = s.ist := rfl
@[simp] theorem setStream_pair (s : State) (d : BitVec 16) (x : Stream) : (s.setStream d x).pair = s.pair := rfl
@[simp] theorem setStream_busData (s : State) (d : BitVec 16) (x : Stream) : (s.setStream d x).busData = s.busData := rfl
@[simp] theorem setStream_freeCtr (s : State) (d : BitVec 16) (x : Stream) : (s.setStream d x).freeCtr = s.freeCtr := rfl
@[simp] theorem setStream_reg (s : State) (d : BitVec 16) (x : Stream) (o : Nat) : (s.setStream d x).reg o = s.reg o := rfl
@[simp] theorem setStream_rd (s : State) (d : BitVec 16) (x : Stream) (fl : Fld) : (s.setStream d x).rd fl = s.rd fl := rfl
@[simp] theorem setStream_byte (s : State) (d : BitVec 16) (x : Stream) (a : Nat) : (s.setStream d x).byte a = s.byte a := rfl

/-! ## State.setTask -/

@[simp] theorem setTask_pending (s : State) (t : Nat) (x : Task) : (s.setTask t x).pending = s.pending := rfl
@[simp] theorem setTask_phase (s : State) (t : Nat) (x : Task) : (s.setTask t x).phase = s.phase := rfl
@[simp] theorem setTask_regs (s : State) (t : Nat) (x : Task) : (s.setTask t x).regs = s.regs := rfl
@[simp] theorem setTask_mem (s : State) (t : Nat) (x : Task) : (s.setTask t x).mem = s.mem := rfl
@[simp] theorem setTask_ecc (s : State) (t : Nat) (x : Task) : (s.setTask t x).ecc = s.ecc := rfl
@[simp] theorem setTask_eccCount (s : State) (t : Nat) (x : Task) : (s.setTask t x).eccCount = s.eccCount := rfl
@[simp] theorem setTask_heldWrites (s : State) (t : Nat) (x : Task) : (s.setTask t x).heldWrites = s.heldWrites := rfl
@[simp] theorem setTask_pwr (s : State) (t : Nat) (x : Task) : (s.setTask t x).pwr = s.pwr := rfl
@[simp] theorem setTask_lanes (s : State) (t : Nat) (x : Task) : (s.setTask t x).lanes = s.lanes := rfl
@[simp] theorem setTask_harts (s : State) (t : Nat) (x : Task) : (s.setTask t x).harts = s.harts := rfl
@[simp] theorem setTask_plic (s : State) (t : Nat) (x : Task) : (s.setTask t x).plic = s.plic := rfl
@[simp] theorem setTask_cord (s : State) (t : Nat) (x : Task) : (s.setTask t x).cord = s.cord := rfl
@[simp] theorem setTask_flue (s : State) (t : Nat) (x : Task) : (s.setTask t x).flue = s.flue := rfl
@[simp] theorem setTask_rings (s : State) (t : Nat) (x : Task) : (s.setTask t x).rings = s.rings := rfl
@[simp] theorem setTask_evt (s : State) (t : Nat) (x : Task) : (s.setTask t x).evt = s.evt := rfl
@[simp] theorem setTask_parts (s : State) (t : Nat) (x : Task) : (s.setTask t x).parts = s.parts := rfl
@[simp] theorem setTask_tb (s : State) (t : Nat) (x : Task) : (s.setTask t x).tb = s.tb := rfl
@[simp] theorem setTask_mp (s : State) (t : Nat) (x : Task) : (s.setTask t x).mp = s.mp := rfl
@[simp] theorem setTask_recd (s : State) (t : Nat) (x : Task) : (s.setTask t x).recd = s.recd := rfl
@[simp] theorem setTask_sig (s : State) (t : Nat) (x : Task) : (s.setTask t x).sig = s.sig := rfl
@[simp] theorem setTask_car (s : State) (t : Nat) (x : Task) : (s.setTask t x).car = s.car := rfl
@[simp] theorem setTask_ports (s : State) (t : Nat) (x : Task) : (s.setTask t x).ports = s.ports := rfl
@[simp] theorem setTask_cb (s : State) (t : Nat) (x : Task) : (s.setTask t x).cb = s.cb := rfl
@[simp] theorem setTask_rack (s : State) (t : Nat) (x : Task) : (s.setTask t x).rack = s.rack := rfl
@[simp] theorem setTask_fld (s : State) (t : Nat) (x : Task) : (s.setTask t x).fld = s.fld := rfl
@[simp] theorem setTask_saf (s : State) (t : Nat) (x : Task) : (s.setTask t x).saf = s.saf := rfl
@[simp] theorem setTask_ist (s : State) (t : Nat) (x : Task) : (s.setTask t x).ist = s.ist := rfl
@[simp] theorem setTask_pair (s : State) (t : Nat) (x : Task) : (s.setTask t x).pair = s.pair := rfl
@[simp] theorem setTask_busData (s : State) (t : Nat) (x : Task) : (s.setTask t x).busData = s.busData := rfl
@[simp] theorem setTask_freeCtr (s : State) (t : Nat) (x : Task) : (s.setTask t x).freeCtr = s.freeCtr := rfl
@[simp] theorem setTask_reg (s : State) (t : Nat) (x : Task) (o : Nat) : (s.setTask t x).reg o = s.reg o := rfl
@[simp] theorem setTask_rd (s : State) (t : Nat) (x : Task) (fl : Fld) : (s.setTask t x).rd fl = s.rd fl := rfl
@[simp] theorem setTask_byte (s : State) (t : Nat) (x : Task) (a : Nat) : (s.setTask t x).byte a = s.byte a := rfl

/-! ## State.setIsl -/

@[simp] theorem setIsl_pending (s : State) (i : Nat) (x : Island) : (s.setIsl i x).pending = s.pending := rfl
@[simp] theorem setIsl_phase (s : State) (i : Nat) (x : Island) : (s.setIsl i x).phase = s.phase := rfl
@[simp] theorem setIsl_regs (s : State) (i : Nat) (x : Island) : (s.setIsl i x).regs = s.regs := rfl
@[simp] theorem setIsl_mem (s : State) (i : Nat) (x : Island) : (s.setIsl i x).mem = s.mem := rfl
@[simp] theorem setIsl_ecc (s : State) (i : Nat) (x : Island) : (s.setIsl i x).ecc = s.ecc := rfl
@[simp] theorem setIsl_eccCount (s : State) (i : Nat) (x : Island) : (s.setIsl i x).eccCount = s.eccCount := rfl
@[simp] theorem setIsl_heldWrites (s : State) (i : Nat) (x : Island) : (s.setIsl i x).heldWrites = s.heldWrites := rfl
@[simp] theorem setIsl_pwr (s : State) (i : Nat) (x : Island) : (s.setIsl i x).pwr = s.pwr := rfl
@[simp] theorem setIsl_lanes (s : State) (i : Nat) (x : Island) : (s.setIsl i x).lanes = s.lanes := rfl
@[simp] theorem setIsl_harts (s : State) (i : Nat) (x : Island) : (s.setIsl i x).harts = s.harts := rfl
@[simp] theorem setIsl_plic (s : State) (i : Nat) (x : Island) : (s.setIsl i x).plic = s.plic := rfl
@[simp] theorem setIsl_cord (s : State) (i : Nat) (x : Island) : (s.setIsl i x).cord = s.cord := rfl
@[simp] theorem setIsl_flue (s : State) (i : Nat) (x : Island) : (s.setIsl i x).flue = s.flue := rfl
@[simp] theorem setIsl_rings (s : State) (i : Nat) (x : Island) : (s.setIsl i x).rings = s.rings := rfl
@[simp] theorem setIsl_evt (s : State) (i : Nat) (x : Island) : (s.setIsl i x).evt = s.evt := rfl
@[simp] theorem setIsl_parts (s : State) (i : Nat) (x : Island) : (s.setIsl i x).parts = s.parts := rfl
@[simp] theorem setIsl_tb (s : State) (i : Nat) (x : Island) : (s.setIsl i x).tb = s.tb := rfl
@[simp] theorem setIsl_mp (s : State) (i : Nat) (x : Island) : (s.setIsl i x).mp = s.mp := rfl
@[simp] theorem setIsl_recd (s : State) (i : Nat) (x : Island) : (s.setIsl i x).recd = s.recd := rfl
@[simp] theorem setIsl_sig (s : State) (i : Nat) (x : Island) : (s.setIsl i x).sig = s.sig := rfl
@[simp] theorem setIsl_car (s : State) (i : Nat) (x : Island) : (s.setIsl i x).car = s.car := rfl
@[simp] theorem setIsl_ports (s : State) (i : Nat) (x : Island) : (s.setIsl i x).ports = s.ports := rfl
@[simp] theorem setIsl_cb (s : State) (i : Nat) (x : Island) : (s.setIsl i x).cb = s.cb := rfl
@[simp] theorem setIsl_rack (s : State) (i : Nat) (x : Island) : (s.setIsl i x).rack = s.rack := rfl
@[simp] theorem setIsl_saf (s : State) (i : Nat) (x : Island) : (s.setIsl i x).saf = s.saf := rfl
@[simp] theorem setIsl_cyc (s : State) (i : Nat) (x : Island) : (s.setIsl i x).cyc = s.cyc := rfl
@[simp] theorem setIsl_ist (s : State) (i : Nat) (x : Island) : (s.setIsl i x).ist = s.ist := rfl
@[simp] theorem setIsl_pair (s : State) (i : Nat) (x : Island) : (s.setIsl i x).pair = s.pair := rfl
@[simp] theorem setIsl_busData (s : State) (i : Nat) (x : Island) : (s.setIsl i x).busData = s.busData := rfl
@[simp] theorem setIsl_freeCtr (s : State) (i : Nat) (x : Island) : (s.setIsl i x).freeCtr = s.freeCtr := rfl
@[simp] theorem setIsl_reg (s : State) (i : Nat) (x : Island) (o : Nat) : (s.setIsl i x).reg o = s.reg o := rfl
@[simp] theorem setIsl_rd (s : State) (i : Nat) (x : Island) (fl : Fld) : (s.setIsl i x).rd fl = s.rd fl := rfl
@[simp] theorem setIsl_byte (s : State) (i : Nat) (x : Island) (a : Nat) : (s.setIsl i x).byte a = s.byte a := rfl

/-! ## State.setIn -/

@[simp] theorem setIn_pending (s : State) (i j : Nat) (x : InCh) : (s.setIn i j x).pending = s.pending := rfl
@[simp] theorem setIn_phase (s : State) (i j : Nat) (x : InCh) : (s.setIn i j x).phase = s.phase := rfl
@[simp] theorem setIn_regs (s : State) (i j : Nat) (x : InCh) : (s.setIn i j x).regs = s.regs := rfl
@[simp] theorem setIn_mem (s : State) (i j : Nat) (x : InCh) : (s.setIn i j x).mem = s.mem := rfl
@[simp] theorem setIn_ecc (s : State) (i j : Nat) (x : InCh) : (s.setIn i j x).ecc = s.ecc := rfl
@[simp] theorem setIn_eccCount (s : State) (i j : Nat) (x : InCh) : (s.setIn i j x).eccCount = s.eccCount := rfl
@[simp] theorem setIn_heldWrites (s : State) (i j : Nat) (x : InCh) : (s.setIn i j x).heldWrites = s.heldWrites := rfl
@[simp] theorem setIn_pwr (s : State) (i j : Nat) (x : InCh) : (s.setIn i j x).pwr = s.pwr := rfl
@[simp] theorem setIn_lanes (s : State) (i j : Nat) (x : InCh) : (s.setIn i j x).lanes = s.lanes := rfl
@[simp] theorem setIn_harts (s : State) (i j : Nat) (x : InCh) : (s.setIn i j x).harts = s.harts := rfl
@[simp] theorem setIn_plic (s : State) (i j : Nat) (x : InCh) : (s.setIn i j x).plic = s.plic := rfl
@[simp] theorem setIn_cord (s : State) (i j : Nat) (x : InCh) : (s.setIn i j x).cord = s.cord := rfl
@[simp] theorem setIn_flue (s : State) (i j : Nat) (x : InCh) : (s.setIn i j x).flue = s.flue := rfl
@[simp] theorem setIn_rings (s : State) (i j : Nat) (x : InCh) : (s.setIn i j x).rings = s.rings := rfl
@[simp] theorem setIn_evt (s : State) (i j : Nat) (x : InCh) : (s.setIn i j x).evt = s.evt := rfl
@[simp] theorem setIn_parts (s : State) (i j : Nat) (x : InCh) : (s.setIn i j x).parts = s.parts := rfl
@[simp] theorem setIn_tb (s : State) (i j : Nat) (x : InCh) : (s.setIn i j x).tb = s.tb := rfl
@[simp] theorem setIn_mp (s : State) (i j : Nat) (x : InCh) : (s.setIn i j x).mp = s.mp := rfl
@[simp] theorem setIn_recd (s : State) (i j : Nat) (x : InCh) : (s.setIn i j x).recd = s.recd := rfl
@[simp] theorem setIn_sig (s : State) (i j : Nat) (x : InCh) : (s.setIn i j x).sig = s.sig := rfl
@[simp] theorem setIn_car (s : State) (i j : Nat) (x : InCh) : (s.setIn i j x).car = s.car := rfl
@[simp] theorem setIn_ports (s : State) (i j : Nat) (x : InCh) : (s.setIn i j x).ports = s.ports := rfl
@[simp] theorem setIn_cb (s : State) (i j : Nat) (x : InCh) : (s.setIn i j x).cb = s.cb := rfl
@[simp] theorem setIn_rack (s : State) (i j : Nat) (x : InCh) : (s.setIn i j x).rack = s.rack := rfl
@[simp] theorem setIn_saf (s : State) (i j : Nat) (x : InCh) : (s.setIn i j x).saf = s.saf := rfl
@[simp] theorem setIn_cyc (s : State) (i j : Nat) (x : InCh) : (s.setIn i j x).cyc = s.cyc := rfl
@[simp] theorem setIn_ist (s : State) (i j : Nat) (x : InCh) : (s.setIn i j x).ist = s.ist := rfl
@[simp] theorem setIn_pair (s : State) (i j : Nat) (x : InCh) : (s.setIn i j x).pair = s.pair := rfl
@[simp] theorem setIn_busData (s : State) (i j : Nat) (x : InCh) : (s.setIn i j x).busData = s.busData := rfl
@[simp] theorem setIn_freeCtr (s : State) (i j : Nat) (x : InCh) : (s.setIn i j x).freeCtr = s.freeCtr := rfl
@[simp] theorem setIn_reg (s : State) (i j : Nat) (x : InCh) (o : Nat) : (s.setIn i j x).reg o = s.reg o := rfl
@[simp] theorem setIn_rd (s : State) (i j : Nat) (x : InCh) (fl : Fld) : (s.setIn i j x).rd fl = s.rd fl := rfl
@[simp] theorem setIn_byte (s : State) (i j : Nat) (x : InCh) (a : Nat) : (s.setIn i j x).byte a = s.byte a := rfl

/-! ## State.setDio -/

@[simp] theorem setDio_pending (s : State) (g j : Nat) (x : Dio) : (s.setDio g j x).pending = s.pending := rfl
@[simp] theorem setDio_phase (s : State) (g j : Nat) (x : Dio) : (s.setDio g j x).phase = s.phase := rfl
@[simp] theorem setDio_regs (s : State) (g j : Nat) (x : Dio) : (s.setDio g j x).regs = s.regs := rfl
@[simp] theorem setDio_mem (s : State) (g j : Nat) (x : Dio) : (s.setDio g j x).mem = s.mem := rfl
@[simp] theorem setDio_ecc (s : State) (g j : Nat) (x : Dio) : (s.setDio g j x).ecc = s.ecc := rfl
@[simp] theorem setDio_eccCount (s : State) (g j : Nat) (x : Dio) : (s.setDio g j x).eccCount = s.eccCount := rfl
@[simp] theorem setDio_heldWrites (s : State) (g j : Nat) (x : Dio) : (s.setDio g j x).heldWrites = s.heldWrites := rfl
@[simp] theorem setDio_pwr (s : State) (g j : Nat) (x : Dio) : (s.setDio g j x).pwr = s.pwr := rfl
@[simp] theorem setDio_lanes (s : State) (g j : Nat) (x : Dio) : (s.setDio g j x).lanes = s.lanes := rfl
@[simp] theorem setDio_harts (s : State) (g j : Nat) (x : Dio) : (s.setDio g j x).harts = s.harts := rfl
@[simp] theorem setDio_plic (s : State) (g j : Nat) (x : Dio) : (s.setDio g j x).plic = s.plic := rfl
@[simp] theorem setDio_cord (s : State) (g j : Nat) (x : Dio) : (s.setDio g j x).cord = s.cord := rfl
@[simp] theorem setDio_flue (s : State) (g j : Nat) (x : Dio) : (s.setDio g j x).flue = s.flue := rfl
@[simp] theorem setDio_rings (s : State) (g j : Nat) (x : Dio) : (s.setDio g j x).rings = s.rings := rfl
@[simp] theorem setDio_evt (s : State) (g j : Nat) (x : Dio) : (s.setDio g j x).evt = s.evt := rfl
@[simp] theorem setDio_parts (s : State) (g j : Nat) (x : Dio) : (s.setDio g j x).parts = s.parts := rfl
@[simp] theorem setDio_tb (s : State) (g j : Nat) (x : Dio) : (s.setDio g j x).tb = s.tb := rfl
@[simp] theorem setDio_mp (s : State) (g j : Nat) (x : Dio) : (s.setDio g j x).mp = s.mp := rfl
@[simp] theorem setDio_recd (s : State) (g j : Nat) (x : Dio) : (s.setDio g j x).recd = s.recd := rfl
@[simp] theorem setDio_sig (s : State) (g j : Nat) (x : Dio) : (s.setDio g j x).sig = s.sig := rfl
@[simp] theorem setDio_car (s : State) (g j : Nat) (x : Dio) : (s.setDio g j x).car = s.car := rfl
@[simp] theorem setDio_ports (s : State) (g j : Nat) (x : Dio) : (s.setDio g j x).ports = s.ports := rfl
@[simp] theorem setDio_cb (s : State) (g j : Nat) (x : Dio) : (s.setDio g j x).cb = s.cb := rfl
@[simp] theorem setDio_rack (s : State) (g j : Nat) (x : Dio) : (s.setDio g j x).rack = s.rack := rfl
@[simp] theorem setDio_saf (s : State) (g j : Nat) (x : Dio) : (s.setDio g j x).saf = s.saf := rfl
@[simp] theorem setDio_cyc (s : State) (g j : Nat) (x : Dio) : (s.setDio g j x).cyc = s.cyc := rfl
@[simp] theorem setDio_ist (s : State) (g j : Nat) (x : Dio) : (s.setDio g j x).ist = s.ist := rfl
@[simp] theorem setDio_pair (s : State) (g j : Nat) (x : Dio) : (s.setDio g j x).pair = s.pair := rfl
@[simp] theorem setDio_busData (s : State) (g j : Nat) (x : Dio) : (s.setDio g j x).busData = s.busData := rfl
@[simp] theorem setDio_freeCtr (s : State) (g j : Nat) (x : Dio) : (s.setDio g j x).freeCtr = s.freeCtr := rfl
@[simp] theorem setDio_reg (s : State) (g j : Nat) (x : Dio) (o : Nat) : (s.setDio g j x).reg o = s.reg o := rfl
@[simp] theorem setDio_rd (s : State) (g j : Nat) (x : Dio) (fl : Fld) : (s.setDio g j x).rd fl = s.rd fl := rfl
@[simp] theorem setDio_byte (s : State) (g j : Nat) (x : Dio) (a : Nat) : (s.setDio g j x).byte a = s.byte a := rfl

/-! ## State.setAi -/

@[simp] theorem setAi_pending (s : State) (c : Nat) (x : Ai) : (s.setAi c x).pending = s.pending := rfl
@[simp] theorem setAi_phase (s : State) (c : Nat) (x : Ai) : (s.setAi c x).phase = s.phase := rfl
@[simp] theorem setAi_regs (s : State) (c : Nat) (x : Ai) : (s.setAi c x).regs = s.regs := rfl
@[simp] theorem setAi_mem (s : State) (c : Nat) (x : Ai) : (s.setAi c x).mem = s.mem := rfl
@[simp] theorem setAi_ecc (s : State) (c : Nat) (x : Ai) : (s.setAi c x).ecc = s.ecc := rfl
@[simp] theorem setAi_eccCount (s : State) (c : Nat) (x : Ai) : (s.setAi c x).eccCount = s.eccCount := rfl
@[simp] theorem setAi_heldWrites (s : State) (c : Nat) (x : Ai) : (s.setAi c x).heldWrites = s.heldWrites := rfl
@[simp] theorem setAi_pwr (s : State) (c : Nat) (x : Ai) : (s.setAi c x).pwr = s.pwr := rfl
@[simp] theorem setAi_lanes (s : State) (c : Nat) (x : Ai) : (s.setAi c x).lanes = s.lanes := rfl
@[simp] theorem setAi_harts (s : State) (c : Nat) (x : Ai) : (s.setAi c x).harts = s.harts := rfl
@[simp] theorem setAi_plic (s : State) (c : Nat) (x : Ai) : (s.setAi c x).plic = s.plic := rfl
@[simp] theorem setAi_cord (s : State) (c : Nat) (x : Ai) : (s.setAi c x).cord = s.cord := rfl
@[simp] theorem setAi_flue (s : State) (c : Nat) (x : Ai) : (s.setAi c x).flue = s.flue := rfl
@[simp] theorem setAi_rings (s : State) (c : Nat) (x : Ai) : (s.setAi c x).rings = s.rings := rfl
@[simp] theorem setAi_evt (s : State) (c : Nat) (x : Ai) : (s.setAi c x).evt = s.evt := rfl
@[simp] theorem setAi_parts (s : State) (c : Nat) (x : Ai) : (s.setAi c x).parts = s.parts := rfl
@[simp] theorem setAi_tb (s : State) (c : Nat) (x : Ai) : (s.setAi c x).tb = s.tb := rfl
@[simp] theorem setAi_mp (s : State) (c : Nat) (x : Ai) : (s.setAi c x).mp = s.mp := rfl
@[simp] theorem setAi_recd (s : State) (c : Nat) (x : Ai) : (s.setAi c x).recd = s.recd := rfl
@[simp] theorem setAi_sig (s : State) (c : Nat) (x : Ai) : (s.setAi c x).sig = s.sig := rfl
@[simp] theorem setAi_car (s : State) (c : Nat) (x : Ai) : (s.setAi c x).car = s.car := rfl
@[simp] theorem setAi_ports (s : State) (c : Nat) (x : Ai) : (s.setAi c x).ports = s.ports := rfl
@[simp] theorem setAi_cb (s : State) (c : Nat) (x : Ai) : (s.setAi c x).cb = s.cb := rfl
@[simp] theorem setAi_rack (s : State) (c : Nat) (x : Ai) : (s.setAi c x).rack = s.rack := rfl
@[simp] theorem setAi_saf (s : State) (c : Nat) (x : Ai) : (s.setAi c x).saf = s.saf := rfl
@[simp] theorem setAi_cyc (s : State) (c : Nat) (x : Ai) : (s.setAi c x).cyc = s.cyc := rfl
@[simp] theorem setAi_ist (s : State) (c : Nat) (x : Ai) : (s.setAi c x).ist = s.ist := rfl
@[simp] theorem setAi_pair (s : State) (c : Nat) (x : Ai) : (s.setAi c x).pair = s.pair := rfl
@[simp] theorem setAi_busData (s : State) (c : Nat) (x : Ai) : (s.setAi c x).busData = s.busData := rfl
@[simp] theorem setAi_freeCtr (s : State) (c : Nat) (x : Ai) : (s.setAi c x).freeCtr = s.freeCtr := rfl
@[simp] theorem setAi_reg (s : State) (c : Nat) (x : Ai) (o : Nat) : (s.setAi c x).reg o = s.reg o := rfl
@[simp] theorem setAi_rd (s : State) (c : Nat) (x : Ai) (fl : Fld) : (s.setAi c x).rd fl = s.rd fl := rfl
@[simp] theorem setAi_byte (s : State) (c : Nat) (x : Ai) (a : Nat) : (s.setAi c x).byte a = s.byte a := rfl

/-! ## State.setTps -/

@[simp] theorem setTps_pending (s : State) (t : Nat) (x : Tps) : (s.setTps t x).pending = s.pending := rfl
@[simp] theorem setTps_phase (s : State) (t : Nat) (x : Tps) : (s.setTps t x).phase = s.phase := rfl
@[simp] theorem setTps_regs (s : State) (t : Nat) (x : Tps) : (s.setTps t x).regs = s.regs := rfl
@[simp] theorem setTps_mem (s : State) (t : Nat) (x : Tps) : (s.setTps t x).mem = s.mem := rfl
@[simp] theorem setTps_ecc (s : State) (t : Nat) (x : Tps) : (s.setTps t x).ecc = s.ecc := rfl
@[simp] theorem setTps_eccCount (s : State) (t : Nat) (x : Tps) : (s.setTps t x).eccCount = s.eccCount := rfl
@[simp] theorem setTps_heldWrites (s : State) (t : Nat) (x : Tps) : (s.setTps t x).heldWrites = s.heldWrites := rfl
@[simp] theorem setTps_pwr (s : State) (t : Nat) (x : Tps) : (s.setTps t x).pwr = s.pwr := rfl
@[simp] theorem setTps_lanes (s : State) (t : Nat) (x : Tps) : (s.setTps t x).lanes = s.lanes := rfl
@[simp] theorem setTps_harts (s : State) (t : Nat) (x : Tps) : (s.setTps t x).harts = s.harts := rfl
@[simp] theorem setTps_plic (s : State) (t : Nat) (x : Tps) : (s.setTps t x).plic = s.plic := rfl
@[simp] theorem setTps_cord (s : State) (t : Nat) (x : Tps) : (s.setTps t x).cord = s.cord := rfl
@[simp] theorem setTps_flue (s : State) (t : Nat) (x : Tps) : (s.setTps t x).flue = s.flue := rfl
@[simp] theorem setTps_rings (s : State) (t : Nat) (x : Tps) : (s.setTps t x).rings = s.rings := rfl
@[simp] theorem setTps_evt (s : State) (t : Nat) (x : Tps) : (s.setTps t x).evt = s.evt := rfl
@[simp] theorem setTps_parts (s : State) (t : Nat) (x : Tps) : (s.setTps t x).parts = s.parts := rfl
@[simp] theorem setTps_tb (s : State) (t : Nat) (x : Tps) : (s.setTps t x).tb = s.tb := rfl
@[simp] theorem setTps_mp (s : State) (t : Nat) (x : Tps) : (s.setTps t x).mp = s.mp := rfl
@[simp] theorem setTps_recd (s : State) (t : Nat) (x : Tps) : (s.setTps t x).recd = s.recd := rfl
@[simp] theorem setTps_sig (s : State) (t : Nat) (x : Tps) : (s.setTps t x).sig = s.sig := rfl
@[simp] theorem setTps_car (s : State) (t : Nat) (x : Tps) : (s.setTps t x).car = s.car := rfl
@[simp] theorem setTps_ports (s : State) (t : Nat) (x : Tps) : (s.setTps t x).ports = s.ports := rfl
@[simp] theorem setTps_cb (s : State) (t : Nat) (x : Tps) : (s.setTps t x).cb = s.cb := rfl
@[simp] theorem setTps_rack (s : State) (t : Nat) (x : Tps) : (s.setTps t x).rack = s.rack := rfl
@[simp] theorem setTps_saf (s : State) (t : Nat) (x : Tps) : (s.setTps t x).saf = s.saf := rfl
@[simp] theorem setTps_cyc (s : State) (t : Nat) (x : Tps) : (s.setTps t x).cyc = s.cyc := rfl
@[simp] theorem setTps_ist (s : State) (t : Nat) (x : Tps) : (s.setTps t x).ist = s.ist := rfl
@[simp] theorem setTps_pair (s : State) (t : Nat) (x : Tps) : (s.setTps t x).pair = s.pair := rfl
@[simp] theorem setTps_busData (s : State) (t : Nat) (x : Tps) : (s.setTps t x).busData = s.busData := rfl
@[simp] theorem setTps_freeCtr (s : State) (t : Nat) (x : Tps) : (s.setTps t x).freeCtr = s.freeCtr := rfl
@[simp] theorem setTps_reg (s : State) (t : Nat) (x : Tps) (o : Nat) : (s.setTps t x).reg o = s.reg o := rfl
@[simp] theorem setTps_rd (s : State) (t : Nat) (x : Tps) (fl : Fld) : (s.setTps t x).rd fl = s.rd fl := rfl
@[simp] theorem setTps_byte (s : State) (t : Nat) (x : Tps) (a : Nat) : (s.setTps t x).byte a = s.byte a := rfl

/-! ## State.setSafCh -/

@[simp] theorem setSafCh_pending (s : State) (n x : Nat) (c : SafCh) : (s.setSafCh n x c).pending = s.pending := rfl
@[simp] theorem setSafCh_phase (s : State) (n x : Nat) (c : SafCh) : (s.setSafCh n x c).phase = s.phase := rfl
@[simp] theorem setSafCh_regs (s : State) (n x : Nat) (c : SafCh) : (s.setSafCh n x c).regs = s.regs := rfl
@[simp] theorem setSafCh_mem (s : State) (n x : Nat) (c : SafCh) : (s.setSafCh n x c).mem = s.mem := rfl
@[simp] theorem setSafCh_ecc (s : State) (n x : Nat) (c : SafCh) : (s.setSafCh n x c).ecc = s.ecc := rfl
@[simp] theorem setSafCh_eccCount (s : State) (n x : Nat) (c : SafCh) : (s.setSafCh n x c).eccCount = s.eccCount := rfl
@[simp] theorem setSafCh_heldWrites (s : State) (n x : Nat) (c : SafCh) : (s.setSafCh n x c).heldWrites = s.heldWrites := rfl
@[simp] theorem setSafCh_pwr (s : State) (n x : Nat) (c : SafCh) : (s.setSafCh n x c).pwr = s.pwr := rfl
@[simp] theorem setSafCh_lanes (s : State) (n x : Nat) (c : SafCh) : (s.setSafCh n x c).lanes = s.lanes := rfl
@[simp] theorem setSafCh_harts (s : State) (n x : Nat) (c : SafCh) : (s.setSafCh n x c).harts = s.harts := rfl
@[simp] theorem setSafCh_plic (s : State) (n x : Nat) (c : SafCh) : (s.setSafCh n x c).plic = s.plic := rfl
@[simp] theorem setSafCh_cord (s : State) (n x : Nat) (c : SafCh) : (s.setSafCh n x c).cord = s.cord := rfl
@[simp] theorem setSafCh_flue (s : State) (n x : Nat) (c : SafCh) : (s.setSafCh n x c).flue = s.flue := rfl
@[simp] theorem setSafCh_rings (s : State) (n x : Nat) (c : SafCh) : (s.setSafCh n x c).rings = s.rings := rfl
@[simp] theorem setSafCh_evt (s : State) (n x : Nat) (c : SafCh) : (s.setSafCh n x c).evt = s.evt := rfl
@[simp] theorem setSafCh_parts (s : State) (n x : Nat) (c : SafCh) : (s.setSafCh n x c).parts = s.parts := rfl
@[simp] theorem setSafCh_tb (s : State) (n x : Nat) (c : SafCh) : (s.setSafCh n x c).tb = s.tb := rfl
@[simp] theorem setSafCh_mp (s : State) (n x : Nat) (c : SafCh) : (s.setSafCh n x c).mp = s.mp := rfl
@[simp] theorem setSafCh_recd (s : State) (n x : Nat) (c : SafCh) : (s.setSafCh n x c).recd = s.recd := rfl
@[simp] theorem setSafCh_sig (s : State) (n x : Nat) (c : SafCh) : (s.setSafCh n x c).sig = s.sig := rfl
@[simp] theorem setSafCh_car (s : State) (n x : Nat) (c : SafCh) : (s.setSafCh n x c).car = s.car := rfl
@[simp] theorem setSafCh_ports (s : State) (n x : Nat) (c : SafCh) : (s.setSafCh n x c).ports = s.ports := rfl
@[simp] theorem setSafCh_cb (s : State) (n x : Nat) (c : SafCh) : (s.setSafCh n x c).cb = s.cb := rfl
@[simp] theorem setSafCh_rack (s : State) (n x : Nat) (c : SafCh) : (s.setSafCh n x c).rack = s.rack := rfl
@[simp] theorem setSafCh_fld (s : State) (n x : Nat) (c : SafCh) : (s.setSafCh n x c).fld = s.fld := rfl
@[simp] theorem setSafCh_cyc (s : State) (n x : Nat) (c : SafCh) : (s.setSafCh n x c).cyc = s.cyc := rfl
@[simp] theorem setSafCh_ist (s : State) (n x : Nat) (c : SafCh) : (s.setSafCh n x c).ist = s.ist := rfl
@[simp] theorem setSafCh_pair (s : State) (n x : Nat) (c : SafCh) : (s.setSafCh n x c).pair = s.pair := rfl
@[simp] theorem setSafCh_busData (s : State) (n x : Nat) (c : SafCh) : (s.setSafCh n x c).busData = s.busData := rfl
@[simp] theorem setSafCh_freeCtr (s : State) (n x : Nat) (c : SafCh) : (s.setSafCh n x c).freeCtr = s.freeCtr := rfl
@[simp] theorem setSafCh_reg (s : State) (n x : Nat) (c : SafCh) (o : Nat) : (s.setSafCh n x c).reg o = s.reg o := rfl
@[simp] theorem setSafCh_rd (s : State) (n x : Nat) (c : SafCh) (fl : Fld) : (s.setSafCh n x c).rd fl = s.rd fl := rfl
@[simp] theorem setSafCh_byte (s : State) (n x : Nat) (c : SafCh) (a : Nat) : (s.setSafCh n x c).byte a = s.byte a := rfl

/-! ## State.setSafBlk -/

@[simp] theorem setSafBlk_pending (s : State) (n : Nat) (b : SafBlk) : (s.setSafBlk n b).pending = s.pending := rfl
@[simp] theorem setSafBlk_phase (s : State) (n : Nat) (b : SafBlk) : (s.setSafBlk n b).phase = s.phase := rfl
@[simp] theorem setSafBlk_regs (s : State) (n : Nat) (b : SafBlk) : (s.setSafBlk n b).regs = s.regs := rfl
@[simp] theorem setSafBlk_mem (s : State) (n : Nat) (b : SafBlk) : (s.setSafBlk n b).mem = s.mem := rfl
@[simp] theorem setSafBlk_ecc (s : State) (n : Nat) (b : SafBlk) : (s.setSafBlk n b).ecc = s.ecc := rfl
@[simp] theorem setSafBlk_eccCount (s : State) (n : Nat) (b : SafBlk) : (s.setSafBlk n b).eccCount = s.eccCount := rfl
@[simp] theorem setSafBlk_heldWrites (s : State) (n : Nat) (b : SafBlk) : (s.setSafBlk n b).heldWrites = s.heldWrites := rfl
@[simp] theorem setSafBlk_pwr (s : State) (n : Nat) (b : SafBlk) : (s.setSafBlk n b).pwr = s.pwr := rfl
@[simp] theorem setSafBlk_lanes (s : State) (n : Nat) (b : SafBlk) : (s.setSafBlk n b).lanes = s.lanes := rfl
@[simp] theorem setSafBlk_harts (s : State) (n : Nat) (b : SafBlk) : (s.setSafBlk n b).harts = s.harts := rfl
@[simp] theorem setSafBlk_plic (s : State) (n : Nat) (b : SafBlk) : (s.setSafBlk n b).plic = s.plic := rfl
@[simp] theorem setSafBlk_cord (s : State) (n : Nat) (b : SafBlk) : (s.setSafBlk n b).cord = s.cord := rfl
@[simp] theorem setSafBlk_flue (s : State) (n : Nat) (b : SafBlk) : (s.setSafBlk n b).flue = s.flue := rfl
@[simp] theorem setSafBlk_rings (s : State) (n : Nat) (b : SafBlk) : (s.setSafBlk n b).rings = s.rings := rfl
@[simp] theorem setSafBlk_evt (s : State) (n : Nat) (b : SafBlk) : (s.setSafBlk n b).evt = s.evt := rfl
@[simp] theorem setSafBlk_parts (s : State) (n : Nat) (b : SafBlk) : (s.setSafBlk n b).parts = s.parts := rfl
@[simp] theorem setSafBlk_tb (s : State) (n : Nat) (b : SafBlk) : (s.setSafBlk n b).tb = s.tb := rfl
@[simp] theorem setSafBlk_mp (s : State) (n : Nat) (b : SafBlk) : (s.setSafBlk n b).mp = s.mp := rfl
@[simp] theorem setSafBlk_recd (s : State) (n : Nat) (b : SafBlk) : (s.setSafBlk n b).recd = s.recd := rfl
@[simp] theorem setSafBlk_sig (s : State) (n : Nat) (b : SafBlk) : (s.setSafBlk n b).sig = s.sig := rfl
@[simp] theorem setSafBlk_car (s : State) (n : Nat) (b : SafBlk) : (s.setSafBlk n b).car = s.car := rfl
@[simp] theorem setSafBlk_ports (s : State) (n : Nat) (b : SafBlk) : (s.setSafBlk n b).ports = s.ports := rfl
@[simp] theorem setSafBlk_cb (s : State) (n : Nat) (b : SafBlk) : (s.setSafBlk n b).cb = s.cb := rfl
@[simp] theorem setSafBlk_rack (s : State) (n : Nat) (b : SafBlk) : (s.setSafBlk n b).rack = s.rack := rfl
@[simp] theorem setSafBlk_fld (s : State) (n : Nat) (b : SafBlk) : (s.setSafBlk n b).fld = s.fld := rfl
@[simp] theorem setSafBlk_cyc (s : State) (n : Nat) (b : SafBlk) : (s.setSafBlk n b).cyc = s.cyc := rfl
@[simp] theorem setSafBlk_ist (s : State) (n : Nat) (b : SafBlk) : (s.setSafBlk n b).ist = s.ist := rfl
@[simp] theorem setSafBlk_pair (s : State) (n : Nat) (b : SafBlk) : (s.setSafBlk n b).pair = s.pair := rfl
@[simp] theorem setSafBlk_busData (s : State) (n : Nat) (b : SafBlk) : (s.setSafBlk n b).busData = s.busData := rfl
@[simp] theorem setSafBlk_freeCtr (s : State) (n : Nat) (b : SafBlk) : (s.setSafBlk n b).freeCtr = s.freeCtr := rfl
@[simp] theorem setSafBlk_reg (s : State) (n : Nat) (b : SafBlk) (o : Nat) : (s.setSafBlk n b).reg o = s.reg o := rfl
@[simp] theorem setSafBlk_rd (s : State) (n : Nat) (b : SafBlk) (fl : Fld) : (s.setSafBlk n b).rd fl = s.rd fl := rfl
@[simp] theorem setSafBlk_byte (s : State) (n : Nat) (b : SafBlk) (a : Nat) : (s.setSafBlk n b).byte a = s.byte a := rfl

/-! ## State.setNode -/

@[simp] theorem setNode_pending (s : State) (n : Nat) (x : CarNode) : (s.setNode n x).pending = s.pending := rfl
@[simp] theorem setNode_phase (s : State) (n : Nat) (x : CarNode) : (s.setNode n x).phase = s.phase := rfl
@[simp] theorem setNode_regs (s : State) (n : Nat) (x : CarNode) : (s.setNode n x).regs = s.regs := rfl
@[simp] theorem setNode_mem (s : State) (n : Nat) (x : CarNode) : (s.setNode n x).mem = s.mem := rfl
@[simp] theorem setNode_ecc (s : State) (n : Nat) (x : CarNode) : (s.setNode n x).ecc = s.ecc := rfl
@[simp] theorem setNode_eccCount (s : State) (n : Nat) (x : CarNode) : (s.setNode n x).eccCount = s.eccCount := rfl
@[simp] theorem setNode_heldWrites (s : State) (n : Nat) (x : CarNode) : (s.setNode n x).heldWrites = s.heldWrites := rfl
@[simp] theorem setNode_pwr (s : State) (n : Nat) (x : CarNode) : (s.setNode n x).pwr = s.pwr := rfl
@[simp] theorem setNode_lanes (s : State) (n : Nat) (x : CarNode) : (s.setNode n x).lanes = s.lanes := rfl
@[simp] theorem setNode_harts (s : State) (n : Nat) (x : CarNode) : (s.setNode n x).harts = s.harts := rfl
@[simp] theorem setNode_plic (s : State) (n : Nat) (x : CarNode) : (s.setNode n x).plic = s.plic := rfl
@[simp] theorem setNode_cord (s : State) (n : Nat) (x : CarNode) : (s.setNode n x).cord = s.cord := rfl
@[simp] theorem setNode_flue (s : State) (n : Nat) (x : CarNode) : (s.setNode n x).flue = s.flue := rfl
@[simp] theorem setNode_rings (s : State) (n : Nat) (x : CarNode) : (s.setNode n x).rings = s.rings := rfl
@[simp] theorem setNode_evt (s : State) (n : Nat) (x : CarNode) : (s.setNode n x).evt = s.evt := rfl
@[simp] theorem setNode_parts (s : State) (n : Nat) (x : CarNode) : (s.setNode n x).parts = s.parts := rfl
@[simp] theorem setNode_tb (s : State) (n : Nat) (x : CarNode) : (s.setNode n x).tb = s.tb := rfl
@[simp] theorem setNode_mp (s : State) (n : Nat) (x : CarNode) : (s.setNode n x).mp = s.mp := rfl
@[simp] theorem setNode_recd (s : State) (n : Nat) (x : CarNode) : (s.setNode n x).recd = s.recd := rfl
@[simp] theorem setNode_sig (s : State) (n : Nat) (x : CarNode) : (s.setNode n x).sig = s.sig := rfl
@[simp] theorem setNode_ports (s : State) (n : Nat) (x : CarNode) : (s.setNode n x).ports = s.ports := rfl
@[simp] theorem setNode_cb (s : State) (n : Nat) (x : CarNode) : (s.setNode n x).cb = s.cb := rfl
@[simp] theorem setNode_rack (s : State) (n : Nat) (x : CarNode) : (s.setNode n x).rack = s.rack := rfl
@[simp] theorem setNode_fld (s : State) (n : Nat) (x : CarNode) : (s.setNode n x).fld = s.fld := rfl
@[simp] theorem setNode_saf (s : State) (n : Nat) (x : CarNode) : (s.setNode n x).saf = s.saf := rfl
@[simp] theorem setNode_cyc (s : State) (n : Nat) (x : CarNode) : (s.setNode n x).cyc = s.cyc := rfl
@[simp] theorem setNode_ist (s : State) (n : Nat) (x : CarNode) : (s.setNode n x).ist = s.ist := rfl
@[simp] theorem setNode_pair (s : State) (n : Nat) (x : CarNode) : (s.setNode n x).pair = s.pair := rfl
@[simp] theorem setNode_busData (s : State) (n : Nat) (x : CarNode) : (s.setNode n x).busData = s.busData := rfl
@[simp] theorem setNode_freeCtr (s : State) (n : Nat) (x : CarNode) : (s.setNode n x).freeCtr = s.freeCtr := rfl
@[simp] theorem setNode_reg (s : State) (n : Nat) (x : CarNode) (o : Nat) : (s.setNode n x).reg o = s.reg o := rfl
@[simp] theorem setNode_rd (s : State) (n : Nat) (x : CarNode) (fl : Fld) : (s.setNode n x).rd fl = s.rd fl := rfl
@[simp] theorem setNode_byte (s : State) (n : Nat) (x : CarNode) (a : Nat) : (s.setNode n x).byte a = s.byte a := rfl

/-! ## State.withQueue -/

@[simp] theorem withQueue_phase (s : State) (q : List Instr) : (s.withQueue q).phase = s.phase := rfl
@[simp] theorem withQueue_regs (s : State) (q : List Instr) : (s.withQueue q).regs = s.regs := rfl
@[simp] theorem withQueue_mem (s : State) (q : List Instr) : (s.withQueue q).mem = s.mem := rfl
@[simp] theorem withQueue_ecc (s : State) (q : List Instr) : (s.withQueue q).ecc = s.ecc := rfl
@[simp] theorem withQueue_eccCount (s : State) (q : List Instr) : (s.withQueue q).eccCount = s.eccCount := rfl
@[simp] theorem withQueue_heldWrites (s : State) (q : List Instr) : (s.withQueue q).heldWrites = s.heldWrites := rfl
@[simp] theorem withQueue_pwr (s : State) (q : List Instr) : (s.withQueue q).pwr = s.pwr := rfl
@[simp] theorem withQueue_lanes (s : State) (q : List Instr) : (s.withQueue q).lanes = s.lanes := rfl
@[simp] theorem withQueue_harts (s : State) (q : List Instr) : (s.withQueue q).harts = s.harts := rfl
@[simp] theorem withQueue_plic (s : State) (q : List Instr) : (s.withQueue q).plic = s.plic := rfl
@[simp] theorem withQueue_cord (s : State) (q : List Instr) : (s.withQueue q).cord = s.cord := rfl
@[simp] theorem withQueue_flue (s : State) (q : List Instr) : (s.withQueue q).flue = s.flue := rfl
@[simp] theorem withQueue_rings (s : State) (q : List Instr) : (s.withQueue q).rings = s.rings := rfl
@[simp] theorem withQueue_evt (s : State) (q : List Instr) : (s.withQueue q).evt = s.evt := rfl
@[simp] theorem withQueue_parts (s : State) (q : List Instr) : (s.withQueue q).parts = s.parts := rfl
@[simp] theorem withQueue_tb (s : State) (q : List Instr) : (s.withQueue q).tb = s.tb := rfl
@[simp] theorem withQueue_mp (s : State) (q : List Instr) : (s.withQueue q).mp = s.mp := rfl
@[simp] theorem withQueue_recd (s : State) (q : List Instr) : (s.withQueue q).recd = s.recd := rfl
@[simp] theorem withQueue_sig (s : State) (q : List Instr) : (s.withQueue q).sig = s.sig := rfl
@[simp] theorem withQueue_car (s : State) (q : List Instr) : (s.withQueue q).car = s.car := rfl
@[simp] theorem withQueue_ports (s : State) (q : List Instr) : (s.withQueue q).ports = s.ports := rfl
@[simp] theorem withQueue_cb (s : State) (q : List Instr) : (s.withQueue q).cb = s.cb := rfl
@[simp] theorem withQueue_rack (s : State) (q : List Instr) : (s.withQueue q).rack = s.rack := rfl
@[simp] theorem withQueue_fld (s : State) (q : List Instr) : (s.withQueue q).fld = s.fld := rfl
@[simp] theorem withQueue_saf (s : State) (q : List Instr) : (s.withQueue q).saf = s.saf := rfl
@[simp] theorem withQueue_cyc (s : State) (q : List Instr) : (s.withQueue q).cyc = s.cyc := rfl
@[simp] theorem withQueue_ist (s : State) (q : List Instr) : (s.withQueue q).ist = s.ist := rfl
@[simp] theorem withQueue_pair (s : State) (q : List Instr) : (s.withQueue q).pair = s.pair := rfl
@[simp] theorem withQueue_busData (s : State) (q : List Instr) : (s.withQueue q).busData = s.busData := rfl
@[simp] theorem withQueue_freeCtr (s : State) (q : List Instr) : (s.withQueue q).freeCtr = s.freeCtr := rfl
@[simp] theorem withQueue_reg (s : State) (q : List Instr) (o : Nat) : (s.withQueue q).reg o = s.reg o := rfl
@[simp] theorem withQueue_rd (s : State) (q : List Instr) (fl : Fld) : (s.withQueue q).rd fl = s.rd fl := rfl
@[simp] theorem withQueue_byte (s : State) (q : List Instr) (a : Nat) : (s.withQueue q).byte a = s.byte a := rfl

/-! ## What the updates do -/

/-- A raise out of reset queues its record with the NT of the raise. -/
theorem raise_queue (s : State) (n : Nat) (i : List Word) (h : s.phase ≠ Phase.reset) :
    (s.raise n i).evt.queue = s.evt.queue ++ [⟨n, i, BitVec.ofNat 64 s.ntNs, none⟩] := by
  unfold State.raise; rw [if_neg h]

/-- A raise in reset does nothing. -/
theorem raise_reset (s : State) (n : Nat) (i : List Word) (h : s.phase = Phase.reset) : s.raise n i = s := by
  unfold State.raise; rw [if_pos h]

/-- The hart that was written. -/
theorem hart_setHart (s : State) (h : HartId) (x : Hart) : (s.setHart h x).hart h = x := by
  obtain ⟨n, hn⟩ := h
  match n, hn with
  | 0, _ => rfl
  | 1, _ => rfl
  | 2, _ => rfl
  | 3, _ => rfl

/-- The other harts. -/
theorem hart_setHart_ne (s : State) (h k : HartId) (x : Hart) (hk : k ≠ h) : (s.setHart h x).hart k = s.hart k := by
  obtain ⟨n, hn⟩ := h
  obtain ⟨m, hm⟩ := k
  rcases n with _ | _ | _ | _ | n <;> rcases m with _ | _ | _ | _ | m <;> first | rfl | exact absurd rfl hk | omega

end Machine
end Sys2Proof
end

