-- ==== Sys2Proof/Laws/Frames.lean ====
section
/-!
SUPPORT. Laws of the frames that claims state: what a write of a field leaves alone.
-/

set_option Elab.async false

namespace Sys2Proof
namespace Machine

theorem onlyFlds_refl (fs : List Fld) (s : State) : onlyFlds fs s s := fun _ _ _ => rfl

/-- A write of a named field keeps the frame. -/
theorem onlyFlds_wr {fs : List Fld} {s t : State} {f : Fld} (v : Nat) (h : onlyFlds fs s t) (hf : f ∈ fs)
    (hw : f.lo + f.w ≤ 32) : onlyFlds fs s (t.wr f v) := by
  intro g hg ha
  rw [← h g hg ha]
  rcases ha f hf with e | e | e
  · exact rd_wr_off t v (fun x => e x.symm)
  · by_cases o : g.off = f.off
    · exact rd_wr_beside t v o hw (.inr e)
    · exact rd_wr_off t v o
  · by_cases o : g.off = f.off
    · exact rd_wr_beside t v o hw (.inl e)
    · exact rd_wr_off t v o

/-- A change that keeps every setup register keeps the frame. -/
theorem onlyFlds_regs {fs : List Fld} {s t u : State} (h : onlyFlds fs s t) (e : u.regs = t.regs) : onlyFlds fs s u := by
  intro g hg ha
  rw [← h g hg ha]
  unfold State.rd State.reg
  rw [e]

theorem onlyFlds_mpIrq {fs : List Fld} {s t : State} {n : Nat} (h : onlyFlds fs s t) (hf : mpIrqFld n ∈ fs) (hn : n < 32) :
    onlyFlds fs s (t.mpIrq n) := onlyFlds_wr 1 h hf (by show n + 1 ≤ 32; omega)

theorem onlyRegs_refl (os : List Nat) (s : State) : onlyRegs os s s := fun _ _ => rfl

theorem onlyRegs_setReg {os : List Nat} {s t : State} {o : Nat} (w : Word) (h : onlyRegs os s t) (ho : o ∈ os) :
    onlyRegs os s (t.setReg o w) := by
  intro x hx
  rw [← h x hx]
  exact reg_setReg_ne t w (fun e => hx (e ▸ ho))

theorem onlyRegs_wr {os : List Nat} {s t : State} {f : Fld} (v : Nat) (h : onlyRegs os s t) (ho : f.off ∈ os) :
    onlyRegs os s (t.wr f v) := onlyRegs_setReg _ h ho

theorem onlyRegs_regs {os : List Nat} {s t u : State} (h : onlyRegs os s t) (e : u.regs = t.regs) : onlyRegs os s u := by
  intro x hx
  rw [← h x hx]
  unfold State.reg
  rw [e]

theorem sameMem_refl (s : State) : sameMem s s := fun _ => rfl

theorem sameMem_of_mem {s t : State} (e : t.mem = s.mem) : sameMem s t := by
  intro a; unfold State.byte; rw [e]

theorem sameMemBut_setBytes {a n : Nat} {s t : State} (bs : List Byte) (h : sameMemBut a n s t) (e : bs.length = n) :
    sameMemBut a n s (t.setBytes a bs) := by
  intro x hx
  rw [byte_setBytes_outside bs t a x (by omega)]
  exact h x hx

end Machine
end Sys2Proof
end

