-- ==== Sys2Proof/Laws/Keeps.lean ====
section
/-!
SUPPORT. Keeps: what every operation of the model leaves as it is, the queue and the canonical form of memory and of the
setup registers. Each operation has its lemma in Keeps01 and the files after it, named after it; a proof about a command
chains them and unfolds none.
-/

set_option Elab.async false

namespace Sys2Proof
namespace Machine

/-- t comes from s by operations that keep the queue, the canonical form of memory and of the setup registers and the fuses
but the minimum SVN, that leave TB_RAW and the RTC as they are or at 0, and that set TB_INCR within its limits only. -/
structure Keeps (s t : State) : Prop where
  pending : t.pending = s.pending
  mem : Memory.wf s.mem = true → Memory.wf t.mem = true
  regs : Sparse.wf regReset s.regs = true → Sparse.wf regReset t.regs = true
  raw : t.tb.raw = s.tb.raw ∨ t.tb.raw = 0
  rtc : t.pwr.rtc = s.pwr.rtc ∨ t.pwr.rtc = 0
  keys : t.pwr.fuseKeys = s.pwr.fuseKeys
  revoked : t.pwr.fuseRevoked = s.pwr.fuseRevoked
  imgSig : t.pwr.fuseImgSig = s.pwr.fuseImgSig
  rate : t.tb.incr = s.tb.incr ∨ (incrMin ≤ t.tb.incr.toNat ∧ t.tb.incr.toNat ≤ incrMax)

theorem Keeps.refl (s : State) : Keeps s s := ⟨rfl, id, id, .inl rfl, .inl rfl, rfl, rfl, rfl, .inl rfl⟩

/-- An update of other parts of the state. -/

theorem Keeps.same {s t u : State} (h : Keeps s t) (hp : u.pending = t.pending) (hm : u.mem = t.mem)
    (hr : u.regs = t.regs) (ht : u.tb.raw = t.tb.raw := by rfl) (hc : u.pwr.rtc = t.pwr.rtc := by rfl)
    (hk : u.pwr.fuseKeys = t.pwr.fuseKeys := by rfl) (hv : u.pwr.fuseRevoked = t.pwr.fuseRevoked := by rfl)
    (hi : u.pwr.fuseImgSig = t.pwr.fuseImgSig := by rfl) (hn : u.tb.incr = t.tb.incr := by rfl) : Keeps s u :=
  ⟨hp.trans h.pending, fun x => hm ▸ h.mem x, fun x => hr ▸ h.regs x, ht ▸ h.raw, hc ▸ h.rtc, hk.trans h.keys, hv.trans h.revoked,
    hi.trans h.imgSig, hn ▸ h.rate⟩
/-- An update of other parts of the state that starts the RTC from 0. -/

theorem Keeps.same0 {s t u : State} (h : Keeps s t) (hp : u.pending = t.pending) (hm : u.mem = t.mem)
    (hr : u.regs = t.regs) (ht : u.tb.raw = t.tb.raw := by rfl) (hc : u.pwr.rtc = 0 := by rfl)
    (hk : u.pwr.fuseKeys = t.pwr.fuseKeys := by rfl) (hv : u.pwr.fuseRevoked = t.pwr.fuseRevoked := by rfl)
    (hi : u.pwr.fuseImgSig = t.pwr.fuseImgSig := by rfl) (hn : u.tb.incr = t.tb.incr := by rfl) : Keeps s u :=
  ⟨hp.trans h.pending, fun x => hm ▸ h.mem x, fun x => hr ▸ h.regs x, ht ▸ h.raw, .inr hc, hk.trans h.keys, hv.trans h.revoked,
    hi.trans h.imgSig, hn ▸ h.rate⟩
/-- An update that sets TB_INCR within its limits. -/

theorem Keeps.rated {s t u : State} (h : Keeps s t) (hn : incrMin ≤ u.tb.incr.toNat ∧ u.tb.incr.toNat ≤ incrMax)
    (hp : u.pending = t.pending := by rfl) (hm : u.mem = t.mem := by rfl) (hr : u.regs = t.regs := by rfl)
    (ht : u.tb.raw = t.tb.raw := by rfl) (hc : u.pwr.rtc = t.pwr.rtc := by rfl)
    (hk : u.pwr.fuseKeys = t.pwr.fuseKeys := by rfl) (hv : u.pwr.fuseRevoked = t.pwr.fuseRevoked := by rfl)
    (hi : u.pwr.fuseImgSig = t.pwr.fuseImgSig := by rfl) : Keeps s u :=
  ⟨hp.trans h.pending, fun x => hm ▸ h.mem x, fun x => hr ▸ h.regs x, ht ▸ h.raw, hc ▸ h.rtc, hk.trans h.keys, hv.trans h.revoked,
    hi.trans h.imgSig, .inr hn⟩

theorem Keeps.ite {s a b : State} {c : Prop} [Decidable c] (ha : Keeps s a) (hb : Keeps s b) :
    Keeps s (if c then a else b) := by split <;> assumption

theorem Keeps.ite_fst {β : Type} {s : State} {a b : State × β} {c : Prop} [Decidable c] (ha : Keeps s a.1) (hb : Keeps s b.1) :
    Keeps s (if c then a else b).1 := by split <;> assumption

theorem Keeps.ite_snd {β : Type} {s : State} {a b : β × State} {c : Prop} [Decidable c] (ha : Keeps s a.2) (hb : Keeps s b.2) :
    Keeps s (if c then a else b).2 := by split <;> assumption

theorem Keeps.foldl {α : Type} {s t : State} {g : State → α → State} {l : List α} (h : Keeps s t)
    (hg : ∀ t x, Keeps s t → Keeps s (g t x)) : Keeps s (l.foldl g t) := by
  induction l generalizing t with
  | nil => exact h
  | cons a l ih => exact ih (hg t a h)

theorem Keeps.foldl_fst {α β : Type} {s : State} {g : State × β → α → State × β} {l : List α} {t : State × β}
    (h : Keeps s t.1) (hg : ∀ t x, Keeps s t.1 → Keeps s (g t x).1) : Keeps s (l.foldl g t).1 := by
  induction l generalizing t with
  | nil => exact h
  | cons a l ih => exact ih (hg t a h)

theorem Keeps.foldl_snd {α β : Type} {s : State} {g : β × State → α → β × State} {l : List α} {t : β × State}
    (h : Keeps s t.2) (hg : ∀ t x, Keeps s t.2 → Keeps s (g t x).2) : Keeps s (l.foldl g t).2 := by
  induction l generalizing t with
  | nil => exact h
  | cons a l ih => exact ih (hg t a h)

theorem Keeps.foldl_snd2 {α β γ : Type} {s : State} {g : γ × β × State → α → γ × β × State} {l : List α} {t : γ × β × State}
    (h : Keeps s t.2.2) (hg : ∀ t x, Keeps s t.2.2 → Keeps s (g t x).2.2) : Keeps s (l.foldl g t).2.2 := by
  induction l generalizing t with
  | nil => exact h
  | cons a l ih => exact ih (hg t a h)

theorem Keeps.of_snd {β : Type} {s t : State} {x : β × State} {b : β} (e : x = (b, t)) (h : Keeps s x.2) : Keeps s t := by
  subst e; exact h

theorem Keeps.of_fst {β : Type} {s t : State} {x : State × β} {b : β} (e : x = (t, b)) (h : Keeps s x.1) : Keeps s t := by
  subst e; exact h

theorem Keeps.of_snd2 {β γ : Type} {s t : State} {x : γ × β × State} {b : β} {c : γ} (e : x = (c, b, t)) (h : Keeps s x.2.2) :
    Keeps s t := by
  subst e; exact h
/-- Keeps of a pair's first component. -/
structure KeepsF {β : Type} (s : State) (r : State × β) : Prop where
  out : Keeps s r.1
/-- Keeps of a pair's second component. -/
structure KeepsS {β : Type} (s : State) (r : β × State) : Prop where
  out : Keeps s r.2
/-- Keeps of a triple's third component. -/
structure KeepsS2 {β γ : Type} (s : State) (r : γ × β × State) : Prop where
  out : Keeps s r.2.2

theorem KeepsF.ite {β : Type} {s : State} {a b : State × β} {c : Prop} [Decidable c] (ha : KeepsF s a) (hb : KeepsF s b) :
    KeepsF s (if c then a else b) := by split <;> assumption

theorem KeepsS.ite {β : Type} {s : State} {a b : β × State} {c : Prop} [Decidable c] (ha : KeepsS s a) (hb : KeepsS s b) :
    KeepsS s (if c then a else b) := by split <;> assumption

theorem KeepsS2.ite {β γ : Type} {s : State} {a b : γ × β × State} {c : Prop} [Decidable c] (ha : KeepsS2 s a)
    (hb : KeepsS2 s b) : KeepsS2 s (if c then a else b) := by split <;> assumption

theorem KeepsF.pair {β : Type} {s t : State} {b : β} (h : Keeps s t) : KeepsF s (t, b) := ⟨h⟩

theorem KeepsS.pair {β : Type} {s t : State} {b : β} (h : Keeps s t) : KeepsS s (b, t) := ⟨h⟩

theorem KeepsS2.pair {β γ : Type} {s t : State} {b : β} {c : γ} (h : Keeps s t) : KeepsS2 s (c, b, t) := ⟨h⟩

theorem KeepsS2.pair1 {β γ : Type} {s : State} {r : β × State} {c : γ} (h : KeepsS s r) : KeepsS2 s (c, r) := ⟨h.out⟩

theorem keeps_State_setReg {s t : State} {o : Nat} {w : Word} (h : Keeps s t) : Keeps s (t.setReg o w) :=
  ⟨h.pending, h.mem, fun x => setReg_regs_wf (h.regs x), h.raw, h.rtc, h.keys, h.revoked, h.imgSig, h.rate⟩

theorem keeps_State_setByte {s t : State} {a : Nat} {b : Byte} (h : Keeps s t) : Keeps s (t.setByte a b) :=
  ⟨h.pending, fun x => setByte_wf (h.mem x), h.regs, h.raw, h.rtc, h.keys, h.revoked, h.imgSig, h.rate⟩

theorem keeps_State_setBytes {s t : State} {a : Nat} {bs : List Byte} (h : Keeps s t) : Keeps s (t.setBytes a bs) := by
  induction bs generalizing t a with
  | nil => exact h
  | cons b l ih => exact ih (keeps_State_setByte h)

end Machine
end Sys2Proof
end

