-- ==== Sys2Proof/Laws/Keeps01.lean ====
section
/-!
SUPPORT. Keeps of the operations of Ops, RingOps, CordOps, RecOps, MpOps, FieldCore, RackOps.
-/

set_option Elab.async false

namespace Sys2Proof
namespace Machine

theorem keeps_State_raise {s t : State} {a1 : _} {a2 : _} (h : Keeps s t) :
    Keeps s (State.raise t a1 a2) := by
  unfold State.raise
  refine Keeps.ite ?_ ?_
  · assumption
  · refine Keeps.same (t := t) ?_ rfl rfl rfl
    assumption

theorem keeps_State_wr {s t : State} {a1 : _} {a2 : _} (h : Keeps s t) :
    Keeps s (State.wr t a1 a2) := by
  unfold State.wr
  refine keeps_State_setReg ?_
  assumption

theorem keeps_State_pairThrottle {s t : State} (h : Keeps s t) :
    Keeps s (State.pairThrottle t) := by
  unfold State.pairThrottle
  extract_lets +onlyGivenNames x1
  clear_value x1
  refine Keeps.ite ?_ ?_
  · assumption
  · refine keeps_State_raise ?_
    refine keeps_State_wr ?_
    assumption

theorem keeps_State_pairPut {s t : State} {a1 : _} (h : Keeps s t) :
    Keeps s (State.pairPut t a1) := by
  unfold State.pairPut
  refine Keeps.ite ?_ ?_
  · refine keeps_State_pairThrottle ?_
    refine Keeps.same (t := t) ?_ rfl rfl rfl
    assumption
  · assumption

theorem keeps_State_setConv {s t : State} {a1 : _} {a2 : _} {a3 : BitVec 48} (h : Keeps s t)
    (hi : a3 = t.tb.incr ∨ (incrMin ≤ a3.toNat ∧ a3.toNat ≤ incrMax)) : Keeps s (State.setConv t a1 a2 a3) := by
  unfold State.setConv
  rcases hi with hi | hi
  · exact Keeps.same (t := t) h rfl rfl rfl (hn := hi)
  · exact Keeps.rated (t := t) h hi

theorem keeps_State_raiseUe {s t : State} {a1 : _} {a2 : _} {a3 : _} (h : Keeps s t) :
    Keeps s (State.raiseUe t a1 a2 a3) := by
  unfold State.raiseUe
  refine keeps_State_raise ?_
  assumption

theorem keeps_State_eccWriteWord {s t : State} {a1 : _} {a2 : _} {a3 : _} {a4 : _} (h : Keeps s t) :
    Keeps s (State.eccWriteWord t a1 a2 a3 a4) := by
  unfold State.eccWriteWord
  split
  · assumption
  · refine Keeps.ite ?_ ?_
    · refine Keeps.same (t := t) ?_ rfl rfl rfl
      assumption
    · split
      · refine Keeps.same (t := t) ?_ rfl rfl rfl
        assumption
      · refine keeps_State_raiseUe ?_
        assumption

theorem keeps_State_modAdd {s t : State} {a1 : _} {a2 : _} (h : Keeps s t) :
    Keeps s (State.modAdd t a1 a2) := by
  unfold State.modAdd
  refine keeps_State_wr ?_
  assumption

theorem keeps_State_mirror {s t : State} {a1 : _} {a2 : _} (h : Keeps s t) :
    Keeps s (State.mirror t a1 a2) := by
  unfold State.mirror
  refine Keeps.ite ?_ ?_
  · assumption
  · extract_lets +onlyGivenNames x1
    clear_value x1
    refine Keeps.ite ?_ ?_
    · assumption
    · refine keeps_State_pairPut ?_
      assumption

theorem keeps_State_arrive {s t : State} {a1 : _} {a2 : _} {a3 : _} {a4 : State → State}
    (hf : ∀ u, Keeps s u → Keeps s (a4 u)) (h : Keeps s t) : Keeps s (State.arrive t a1 a2 a3 a4) := by
  unfold State.arrive
  split
  · exact Keeps.same (t := t) h rfl rfl rfl
  · exact hf _ h

theorem keeps_State_draw {s t : State} (h : Keeps s t) :
    Keeps s (State.draw t).2 := by
  refine KeepsS.out ?_
  unfold State.draw
  refine KeepsS.pair ?_
  refine Keeps.same (t := t) ?_ rfl rfl rfl
  assumption

theorem keeps_State_freeBytes {s t : State} {a1 : _} (h : Keeps s t) :
    Keeps s (State.freeBytes t a1).2 := by
  induction a1 generalizing t
  · unfold State.freeBytes
    dsimp -zeta only
    assumption
  · rename_i ih
    unfold State.freeBytes
    refine KeepsS.out ?_
    extract_lets +onlyGivenNames x1
    have hx1 : Keeps s x1.2 := ?_
    · clear_value x1
      extract_lets +onlyGivenNames x2
      have hx2 : Keeps s x2.2 := ?_
      · clear_value x2
        refine KeepsS.pair ?_
        assumption
      · unfold x2
        apply ih
        assumption
    · unfold x1
      refine keeps_State_draw ?_
      assumption

theorem keeps_State_raiseRing {s t : State} {a1 : _} {a2 : _} {a3 : _} (h : Keeps s t) :
    Keeps s (State.raiseRing t a1 a2 a3) := by
  unfold State.raiseRing
  refine Keeps.same (t := t) ?_ rfl rfl rfl
  assumption

theorem keeps_State_setPhase {s t : State} {a1 : _} (h : Keeps s t) :
    Keeps s (State.setPhase t a1) := by
  unfold State.setPhase
  refine keeps_State_wr ?_
  refine keeps_State_wr ?_
  refine Keeps.same (t := t) ?_ rfl rfl rfl
  assumption

theorem keeps_State_mpIrq {s t : State} {a1 : _} (h : Keeps s t) :
    Keeps s (State.mpIrq t a1) := by
  unfold State.mpIrq
  refine keeps_State_wr ?_
  assumption

theorem keeps_State_peak {s t : State} {a1 : _} {a2 : _} (h : Keeps s t) :
    Keeps s (State.peak t a1 a2) := by
  unfold State.peak
  refine Keeps.ite ?_ ?_
  · refine keeps_State_wr ?_
    assumption
  · assumption

theorem keeps_State_dropResv {s t : State} {a1 : _} {a2 : _} (h : Keeps s t) :
    Keeps s (State.dropResv t a1 a2) := by
  unfold State.dropResv
  refine Keeps.same (t := t) ?_ rfl rfl rfl
  assumption

theorem keeps_State_wr64 {s t : State} {a1 : _} {a2 : _} {a3 : _} (h : Keeps s t) :
    Keeps s (State.wr64 t a1 a2 a3) := by
  unfold State.wr64
  refine keeps_State_setReg ?_
  refine keeps_State_setReg ?_
  assumption

theorem keeps_State_readCheck {s t : State} {a1 : _} {a2 : _} {a3 : _} (h : Keeps s t) :
    Keeps s (State.readCheck t a1 a2 a3).2 := by
  refine KeepsS.out ?_
  unfold State.readCheck
  refine KeepsS.ite ?_ ?_
  · refine KeepsS.pair ?_
    assumption
  · split
    · refine KeepsS.pair ?_
      refine keeps_State_raiseUe ?_
      assumption
    · refine KeepsS.pair ?_
      refine Keeps.same (t := t) ?_ rfl rfl rfl
      assumption

theorem keeps_State_checkAll {s t : State} {a1 : _} {a2 : _} (h : Keeps s t) :
    Keeps s (State.checkAll t a1 a2).2 := by
  induction a2 generalizing t a1
  · unfold State.checkAll
    dsimp -zeta only
    assumption
  · rename_i ih
    unfold State.checkAll
    refine KeepsS.out ?_
    extract_lets +onlyGivenNames x4
    have hx4 : Keeps s x4.2 := ?_
    · clear_value x4
      refine KeepsS.ite ?_ ?_
      · refine ⟨?_⟩
        apply ih
        assumption
      · refine ⟨?_⟩
        assumption
    · unfold x4
      refine keeps_State_readCheck ?_
      assumption

theorem keeps_State_eccWrite {s t : State} {a1 : _} {a2 : _} {a3 : _} (h : Keeps s t) :
    Keeps s (State.eccWrite t a1 a2 a3) := by
  unfold State.eccWrite
  refine Keeps.foldl ?_ (fun u1 y2 hu1 => ?_)
  · assumption
  · refine keeps_State_eccWriteWord ?_
    assumption

theorem keeps_State_setLe {s t : State} {a1 : _} {a2 : _} {a3 : _} (h : Keeps s t) :
    Keeps s (State.setLe t a1 a2 a3) := by
  unfold State.setLe
  refine keeps_State_setBytes ?_
  assumption

theorem keeps_State_setMemFld {s t : State} {a1 : _} {a2 : _} {a3 : _} {a4 : _} (h : Keeps s t) :
    Keeps s (State.setMemFld t a1 a2 a3 a4) := by
  unfold State.setMemFld
  refine keeps_State_setLe ?_
  assumption

theorem keeps_State_setWords {s t : State} {a1 : _} {a2 : _} (h : Keeps s t) :
    Keeps s (State.setWords t a1 a2) := by
  unfold State.setWords
  refine keeps_State_setBytes ?_
  assumption

theorem keeps_State_satAdd {s t : State} {a1 : _} {a2 : _} (h : Keeps s t) :
    Keeps s (State.satAdd t a1 a2) := by
  unfold State.satAdd
  refine keeps_State_wr ?_
  assumption

theorem keeps_State_busWrite {s t : State} {a1 : _} {a2 : _} {a3 : _} (h : Keeps s t) :
    Keeps s (State.busWrite t a1 a2 a3) := by
  unfold State.busWrite
  refine keeps_State_mirror ?_
  refine keeps_State_setBytes ?_
  refine keeps_State_dropResv ?_
  refine Keeps.ite ?_ ?_
  · assumption
  · refine keeps_State_eccWrite ?_
    assumption

theorem keeps_State_setCtx {s t : State} {a1 : _} {a2 : _} (h : Keeps s t) :
    Keeps s (State.setCtx t a1 a2) := by
  unfold State.setCtx
  refine Keeps.same (t := t) ?_ rfl rfl rfl
  assumption

theorem keeps_State_putRecord {s t : State} {a1 : _} {a2 : _} {a3 : _} (h : Keeps s t) :
    Keeps s (State.putRecord t a1 a2 a3) := by
  unfold State.putRecord
  extract_lets +onlyGivenNames x1
  clear_value x1
  extract_lets +onlyGivenNames x2
  clear_value x2
  extract_lets +onlyGivenNames x3
  have hx3 : Keeps s x3 := ?_
  · clear_value x3
    refine keeps_State_setCtx ?_
    refine keeps_State_busWrite ?_
    assumption
  · unfold x3
    refine Keeps.ite ?_ ?_
    · refine keeps_State_mpIrq ?_
      assumption
    · assumption

theorem keeps_State_dropHand {s t : State} {a1 : _} (h : Keeps s t) :
    Keeps s (State.dropHand t a1) := by
  unfold State.dropHand
  refine Keeps.same (t := t) ?_ rfl rfl rfl
  assumption

theorem keeps_State_advance {s t : State} {a1 : _} (h : Keeps s t) :
    Keeps s (State.advance t a1) := by
  unfold State.advance
  extract_lets +onlyGivenNames x1
  clear_value x1
  extract_lets +onlyGivenNames x2
  clear_value x2
  extract_lets +onlyGivenNames x3
  clear_value x3
  extract_lets +onlyGivenNames x4
  have hx4 : Keeps s x4 := ?_
  · clear_value x4
    refine keeps_State_setCtx ?_
    assumption
  · unfold x4
    refine Keeps.same (t := t) ?_ rfl rfl rfl
    assumption

theorem keeps_State_recordEvents {s t : State} {a1 : _} {a2 : _} {a3 : _} (h : Keeps s t) :
    Keeps s (State.recordEvents t a1 a2 a3) := by
  unfold State.recordEvents
  extract_lets +onlyGivenNames x1
  have hx1 : Keeps s x1 := ?_
  · clear_value x1
    extract_lets +onlyGivenNames x2
    have hx2 : Keeps s x2 := ?_
    · clear_value x2
      refine Keeps.ite ?_ ?_
      · refine keeps_State_raiseRing ?_
        assumption
      · assumption
    · unfold x2
      refine Keeps.ite ?_ ?_
      · refine keeps_State_raiseRing ?_
        assumption
      · assumption
  · unfold x1
    refine Keeps.ite ?_ ?_
    · refine keeps_State_raiseRing ?_
      assumption
    · assumption

theorem keeps_State_complete {s t : State} {a1 : _} {a2 : _} {a3 : _} {a4 : _} {a5 : _} (h : Keeps s t) :
    Keeps s (State.complete t a1 a2 a3 a4 a5) := by
  unfold State.complete
  refine Keeps.ite ?_ ?_
  · assumption
  · refine keeps_State_recordEvents ?_
    refine keeps_State_putRecord ?_
    assumption

theorem keeps_State_finish {s t : State} {a1 : _} {a2 : _} {a3 : _} (h : Keeps s t) :
    Keeps s (State.finish t a1 a2 a3) := by
  unfold State.finish
  refine keeps_State_dropHand ?_
  refine keeps_State_advance ?_
  refine keeps_State_complete ?_
  assumption

theorem keeps_State_accept {s t : State} {a1 : _} {a2 : _} (h : Keeps s t) :
    Keeps s (State.accept t a1 a2) := by
  unfold State.accept
  extract_lets +onlyGivenNames x1
  clear_value x1
  extract_lets +onlyGivenNames x2
  have hx2 : Keeps s x2 := ?_
  · clear_value x2
    extract_lets +onlyGivenNames x3
    clear_value x3
    extract_lets +onlyGivenNames x4
    have hx4 : Keeps s x4 := ?_
    · clear_value x4
      extract_lets +onlyGivenNames x5
      clear_value x5
      extract_lets +onlyGivenNames x6
      have hx6 : Keeps s x6 := ?_
      · clear_value x6
        refine keeps_State_dropHand ?_
        refine keeps_State_advance ?_
        assumption
      · unfold x6
        refine Keeps.same (t := x4) ?_ rfl rfl rfl
        assumption
    · unfold x4
      refine keeps_State_setCtx ?_
      assumption
  · unfold x2
    refine keeps_State_complete ?_
    assumption

theorem keeps_State_doLong {s t : State} {a1 : _} {a2 : _} {a3 : Cmd → State → State}
    (hf : ∀ c u, Keeps s u → Keeps s (a3 c u)) (h : Keeps s t) : Keeps s (State.doLong t a1 a2 a3) := by
  unfold State.doLong
  split
  · exact h
  · split
    · split
      · exact keeps_State_finish h
      · exact hf _ _ (keeps_State_accept h)
    · exact h

theorem keeps_State_unwait {s t : State} {a1 : _} (h : Keeps s t) :
    Keeps s (State.unwait t a1) := by
  unfold State.unwait
  refine Keeps.ite ?_ ?_
  · refine keeps_State_setCtx ?_
    assumption
  · assumption

theorem keeps_State_noteBatch {s t : State} {a1 : _} {a2 : _} (h : Keeps s t) :
    Keeps s (State.noteBatch t a1 a2) := by
  unfold State.noteBatch
  extract_lets +onlyGivenNames x1
  clear_value x1
  refine Keeps.ite ?_ ?_
  · assumption
  · refine Keeps.same (t := t) ?_ rfl rfl rfl
    assumption

theorem keeps_State_spend {s t : State} {a1 : _} (h : Keeps s t) :
    Keeps s (State.spend t a1) := by
  unfold State.spend
  refine Keeps.same (t := t) ?_ rfl rfl rfl
  assumption

theorem keeps_State_dbError {s t : State} {a1 : _} {a2 : _} {a3 : _} (h : Keeps s t) :
    Keeps s (State.dbError t a1 a2 a3) := by
  unfold State.dbError
  extract_lets +onlyGivenNames x1
  have hx1 : Keeps s x1 := ?_
  · clear_value x1
    extract_lets +onlyGivenNames x2
    have hx2 : Keeps s x2 := ?_
    · clear_value x2
      refine keeps_State_raiseRing ?_
      assumption
    · unfold x2
      refine Keeps.ite ?_ ?_
      · assumption
      · refine keeps_State_wr ?_
        refine keeps_State_wr ?_
        refine keeps_State_wr ?_
        assumption
  · unfold x1
    refine keeps_State_satAdd ?_
    assumption

theorem keeps_State_watchTail {s t : State} {a1 : _} {a2 : _} (h : Keeps s t) :
    Keeps s (State.watchTail t a1 a2) := by
  unfold State.watchTail
  extract_lets +onlyGivenNames x1
  clear_value x1
  refine Keeps.ite ?_ ?_
  · assumption
  · refine Keeps.ite ?_ ?_
    · refine keeps_State_dbError ?_
      assumption
    · refine keeps_State_setCtx ?_
      assumption

theorem keeps_runHandleQuery {s t : State} {a0 : _} (h : Keeps s t) :
    Keeps s (runHandleQuery a0 t).1 := by
  refine KeepsF.out ?_
  unfold runHandleQuery
  extract_lets +onlyGivenNames x1
  clear_value x1
  extract_lets +onlyGivenNames x2
  clear_value x2
  extract_lets +onlyGivenNames x3
  clear_value x3
  extract_lets +onlyGivenNames x4
  clear_value x4
  refine KeepsF.ite ?_ ?_
  · refine KeepsF.pair ?_
    assumption
  · refine KeepsF.ite ?_ ?_
    · refine KeepsF.pair ?_
      assumption
    · split
      · refine KeepsF.pair ?_
        assumption
      · refine KeepsF.pair ?_
        assumption

theorem keeps_State_watchHead {s t : State} {a1 : _} {a2 : _} (h : Keeps s t) :
    Keeps s (State.watchHead t a1 a2) := by
  unfold State.watchHead
  extract_lets +onlyGivenNames x1
  clear_value x1
  refine Keeps.ite ?_ ?_
  · refine keeps_State_dbError ?_
    assumption
  · refine keeps_State_unwait ?_
    refine keeps_State_setCtx ?_
    assumption

theorem keeps_State_watch {s t : State} {a1 : _} {a2 : _} (h : Keeps s t) :
    Keeps s (State.watch t a1 a2) := by
  unfold State.watch
  extract_lets +onlyGivenNames x1
  clear_value x1
  extract_lets +onlyGivenNames x2
  clear_value x2
  extract_lets +onlyGivenNames x3
  refine Keeps.ite ?_ ?_
  · refine keeps_State_dbError ?_
    assumption
  · split
    · refine Keeps.ite ?_ ?_
      · refine keeps_State_dbError ?_
        assumption
      · extract_lets +onlyGivenNames x4
        have hx4 : Keeps s x4 := ?_
        · clear_value x4
          refine keeps_State_noteBatch ?_
          refine keeps_State_setCtx ?_
          assumption
        · unfold x4
          unfold x3
          refine keeps_State_watchHead ?_
          refine keeps_State_watchTail ?_
          assumption
    · refine Keeps.ite ?_ ?_
      · refine keeps_State_noteBatch ?_
        unfold x3
        refine keeps_State_watchHead ?_
        refine keeps_State_watchTail ?_
        assumption
      · refine keeps_State_dbError ?_
        assumption
    · refine keeps_State_noteBatch ?_
      unfold x3
      refine keeps_State_watchHead ?_
      refine keeps_State_watchTail ?_
      assumption

theorem keeps_State_ringTo {s t : State} {a1 : _} {a2 : _} (h : Keeps s t) :
    Keeps s (State.ringTo t a1 a2) := by
  unfold State.ringTo
  extract_lets +onlyGivenNames x1
  clear_value x1
  extract_lets +onlyGivenNames x2
  have hx2 : Keeps s x2 := ?_
  · clear_value x2
    refine Keeps.ite ?_ ?_
    · refine keeps_State_raiseRing ?_
      assumption
    · assumption
  · unfold x2
    refine keeps_State_setCtx ?_
    assumption

theorem keeps_runNop {s t : State} {a0 : _} (h : Keeps s t) :
    Keeps s (runNop a0 t).1 := by
  refine KeepsF.out ?_
  unfold runNop
  refine KeepsF.pair ?_
  assumption

theorem keeps_State_flushOut {s t : State} {a1 : _} {a2 : _} (h : Keeps s t) :
    Keeps s (State.flushOut t a1 a2) := by
  induction a2 generalizing t a1
  · unfold State.flushOut
    assumption
  · rename_i ih
    unfold State.flushOut
    split
    · assumption
    · split
      · assumption
      · refine Keeps.ite ?_ ?_
        · assumption
        · extract_lets +onlyGivenNames x1
          have hx1 : Keeps s x1 := ?_
          · clear_value x1
            extract_lets +onlyGivenNames x2
            clear_value x2
            extract_lets +onlyGivenNames x3
            have hx3 : Keeps s x3 := ?_
            · clear_value x3
              apply ih
              refine keeps_State_unwait ?_
              refine Keeps.same (t := x3) ?_ rfl rfl rfl
              assumption
            · unfold x3
              refine keeps_State_setCtx ?_
              assumption
          · unfold x1
            refine keeps_State_complete ?_
            assumption

theorem keeps_State_endLong {s t : State} {a1 : _} {a2 : _} (h : Keeps s t) :
    Keeps s (State.endLong t a1 a2) := by
  unfold State.endLong
  refine keeps_State_flushOut ?_
  refine Keeps.same (t := t) ?_ rfl rfl rfl
  assumption

theorem keeps_State_outBuf {s t : State} {a1 : _} {a2 : _} {a3 : _} (h : Keeps s t) :
    Keeps s (State.outBuf t a1 a2 a3) := by
  unfold State.outBuf
  refine keeps_State_busWrite ?_
  assumption

theorem keeps_State_doShort {s t : State} {a1 : _} {a2 : _} {a3 : Cmd → State → State × Final}
    (hf : ∀ c u, Keeps s u → Keeps s (a3 c u).1) (h : Keeps s t) : Keeps s (State.doShort t a1 a2 a3) := by
  unfold State.doShort
  split
  · exact h
  · split
    · exact keeps_State_finish (hf _ _ h)
    · exact h

theorem keeps_State_doUnit {s t : State} {a1 : _} {a2 : _} {a3 : Cmd → State → State × Final}
    (hf : ∀ c u, Keeps s u → Keeps s (a3 c u).1) (h : Keeps s t) : Keeps s (State.doUnit t a1 a2 a3) := by
  unfold State.doUnit
  split
  · exact keeps_State_doShort hf h
  split
  · exact h
  · exact keeps_State_doShort (fun c u hu => hf _ _ (keeps_State_spend hu)) h

theorem keeps_State_setOut {s t : State} {a1 : _} (h : Keeps s t) :
    Keeps s (State.setOut t a1) := by
  unfold State.setOut
  refine Keeps.same (t := t) ?_ rfl rfl rfl
  assumption

theorem keeps_State_takeFrom {s t : State} {a1 : _} {a2 : _} {a3 : _} (h : Keeps s t) :
    Keeps s (State.takeFrom t a1 a2 a3) := by
  unfold State.takeFrom
  extract_lets +onlyGivenNames x1
  clear_value x1
  extract_lets +onlyGivenNames x2
  have hx2 : Keeps s x2.2 := ?_
  · clear_value x2
    extract_lets +onlyGivenNames x3
    have hx3 : Keeps s x3 := ?_
    · clear_value x3
      split
      · refine keeps_State_ringTo ?_
        assumption
      · refine keeps_State_ringTo ?_
        assumption
      · refine keeps_State_ringTo ?_
        refine keeps_State_setCtx ?_
        assumption
      · refine keeps_State_ringTo ?_
        assumption
      · extract_lets +onlyGivenNames x4
        have hx4 : Keeps s x4 := ?_
        · clear_value x4
          extract_lets +onlyGivenNames x5
          clear_value x5
          refine Keeps.ite ?_ ?_
          · extract_lets +onlyGivenNames x6
            have hx6 : Keeps s x6.2 := ?_
            · clear_value x6
              refine keeps_State_finish ?_
              assumption
            · unfold x6
              refine keeps_State_draw ?_
              assumption
          · split
            · refine keeps_State_finish ?_
              assumption
            · refine Keeps.same (t := x4) ?_ rfl rfl rfl
              assumption
            · refine Keeps.same (t := x4) ?_ rfl rfl rfl
              assumption
        · unfold x4
          refine keeps_State_ringTo ?_
          assumption
    · unfold x3
      assumption
  · unfold x2
    refine keeps_State_readCheck ?_
    assumption

theorem keeps_State_flueShow {s t : State} (h : Keeps s t) :
    Keeps s (State.flueShow t) := by
  unfold State.flueShow
  extract_lets +onlyGivenNames x1
  clear_value x1
  refine keeps_State_peak ?_
  refine keeps_State_wr ?_
  refine keeps_State_wr ?_
  assumption

theorem keeps_State_setRecs {s t : State} {a1 : _} (h : Keeps s t) :
    Keeps s (State.setRecs t a1) := by
  unfold State.setRecs
  refine keeps_State_flueShow ?_
  refine Keeps.same (t := t) ?_ rfl rfl rfl
  assumption

theorem keeps_State_setLane {s t : State} {a1 : _} {a2 : _} (h : Keeps s t) :
    Keeps s (State.setLane t a1 a2) := by
  unfold State.setLane
  extract_lets +onlyGivenNames x1
  have hx1 : Keeps s x1 := ?_
  · clear_value x1
    refine keeps_State_wr ?_
    assumption
  · unfold x1
    refine keeps_State_wr ?_
    assumption

theorem keeps_State_setMon {s t : State} {a1 : _} {a2 : _} (h : Keeps s t) :
    Keeps s (State.setMon t a1 a2) := by
  unfold State.setMon
  refine Keeps.same (t := t) ?_ rfl rfl rfl
  assumption

theorem keeps_State_dramCharge {s t : State} {a1 : _} {a2 : _} (h : Keeps s t) :
    Keeps s (State.dramCharge t a1 a2) := by
  unfold State.dramCharge
  refine Keeps.ite ?_ ?_
  · assumption
  · extract_lets +onlyGivenNames x1
    have hx1 : Keeps s x1.2 := ?_
    · clear_value x1
      extract_lets +onlyGivenNames x2
      clear_value x2
      refine keeps_State_setMon ?_
      assumption
    · unfold x1
      refine KeepsS.out ?_
      refine KeepsS.ite ?_ ?_
      · refine KeepsS.pair ?_
        assumption
      · refine KeepsS.pair ?_
        refine keeps_State_draw ?_
        assumption

theorem keeps_State_missCharge {s t : State} {a1 : _} {a2 : _} (h : Keeps s t) :
    Keeps s (State.missCharge t a1 a2) := by
  unfold State.missCharge
  refine keeps_State_dramCharge ?_
  refine keeps_State_draw ?_
  assumption

theorem keeps_State_setStream {s t : State} {a1 : _} {a2 : _} (h : Keeps s t) :
    Keeps s (State.setStream t a1 a2) := by
  unfold State.setStream
  refine Keeps.same (t := t) ?_ rfl rfl rfl
  assumption

theorem keeps_State_requestCord {s t : State} {a1 : _} (h : Keeps s t) :
    Keeps s (State.requestCord t a1) := by
  unfold State.requestCord
  refine Keeps.ite ?_ ?_
  · assumption
  · refine Keeps.ite ?_ ?_
    · refine Keeps.same (t := t) ?_ rfl rfl rfl
      assumption
    · refine Keeps.same (t := t) ?_ rfl rfl rfl
      assumption

theorem keeps_State_logForceAt {s t : State} {a1 : _} (h : Keeps s t) :
    Keeps s (State.logForceAt t a1) := by
  unfold State.logForceAt
  refine Keeps.ite ?_ ?_
  · refine keeps_State_raise ?_
    refine keeps_State_satAdd ?_
    refine keeps_State_requestCord ?_
    assumption
  · assumption

theorem keeps_State_logForce {s t : State} (h : Keeps s t) :
    Keeps s (State.logForce t) := by
  unfold State.logForce
  refine keeps_State_logForceAt ?_
  assumption

theorem keeps_State_flueForce {s t : State} (h : Keeps s t) :
    Keeps s (State.flueForce t) := by
  unfold State.flueForce
  refine Keeps.ite ?_ ?_
  · refine keeps_State_raise ?_
    refine keeps_State_satAdd ?_
    refine keeps_State_requestCord ?_
    refine Keeps.same (t := t) ?_ rfl rfl rfl
    assumption
  · assumption

theorem keeps_State_quotaHeld {s t : State} {a1 : _} {a2 : _} (h : Keeps s t) :
    Keeps s (State.quotaHeld t a1 a2) := by
  unfold State.quotaHeld
  extract_lets +onlyGivenNames x1
  clear_value x1
  refine keeps_State_wr ?_
  assumption

theorem keeps_State_flueDiscard {s t : State} (h : Keeps s t) :
    Keeps s (State.flueDiscard t) := by
  unfold State.flueDiscard
  extract_lets +onlyGivenNames x1
  clear_value x1
  extract_lets +onlyGivenNames x2
  have hx2 : Keeps s x2 := ?_
  · clear_value x2
    extract_lets +onlyGivenNames x3
    have hx3 : Keeps s x3 := ?_
    · clear_value x3
      refine Keeps.same (t := x3) ?_ rfl rfl rfl
      assumption
    · unfold x3
      refine keeps_State_setRecs ?_
      assumption
  · unfold x2
    refine Keeps.foldl ?_ (fun u4 y5 hu4 => ?_)
    · assumption
    · refine keeps_State_quotaHeld ?_
      refine keeps_State_satAdd ?_
      assumption

theorem keeps_State_declCheck {s t : State} {a1 : _} (h : Keeps s t) :
    Keeps s (State.declCheck t a1) := by
  unfold State.declCheck
  extract_lets +onlyGivenNames x1
  clear_value x1
  extract_lets +onlyGivenNames x2
  clear_value x2
  extract_lets +onlyGivenNames x3
  clear_value x3
  extract_lets +onlyGivenNames x4
  have hx4 : Keeps s x4 := ?_
  · clear_value x4
    refine Keeps.ite ?_ ?_
    · refine keeps_State_raise ?_
      refine Keeps.same (t := x4) ?_ rfl rfl rfl
      assumption
    · assumption
  · unfold x4
    refine keeps_State_setMon ?_
    assumption

theorem keeps_State_logCharge {s t : State} {a1 : _} {a2 : _} (h : Keeps s t) :
    Keeps s (State.logCharge t a1 a2) := by
  unfold State.logCharge
  refine keeps_State_declCheck ?_
  refine Keeps.same (t := t) ?_ rfl rfl rfl
  assumption

theorem keeps_State_setHart {s t : State} {a1 : _} {a2 : _} (h : Keeps s t) :
    Keeps s (State.setHart t a1 a2) := by
  unfold State.setHart
  refine Keeps.same (t := t) ?_ rfl rfl rfl
  assumption

theorem keeps_State_logShow {s t : State} (h : Keeps s t) :
    Keeps s (State.logShow t) := by
  unfold State.logShow
  refine keeps_State_peak ?_
  refine keeps_State_wr ?_
  assumption

theorem keeps_State_logPut {s t : State} {a1 : _} {a2 : _} (h : Keeps s t) :
    Keeps s (State.logPut t a1 a2) := by
  unfold State.logPut
  extract_lets +onlyGivenNames x1
  clear_value x1
  extract_lets +onlyGivenNames x2
  have hx2 : Keeps s x2 := ?_
  · clear_value x2
    refine keeps_State_logForce ?_
    split
    · assumption
    · refine keeps_State_logCharge ?_
      assumption
  · unfold x2
    refine keeps_State_logShow ?_
    refine Keeps.same (t := t) ?_ rfl rfl rfl
    assumption

theorem keeps_State_logTake {s t : State} {a1 : _} {a2 : _} {u : State} (h : Keeps s t)
    (e : State.logTake t a1 a2 = some u) : Keeps s u := by
  unfold State.logTake at e
  split at e
  · injection e with e; subst e; exact h
  split at e
  · contradiction
  · injection e with e; subst e; exact keeps_State_logPut h

theorem keeps_orderFold {s : State} {g : State → LineAcc → Option State} {l : List LineAcc} {o : Option State} {u : State}
    (ho : ∀ v, o = some v → Keeps s v) (hg : ∀ v x w, Keeps s v → g v x = some w → Keeps s w)
    (e : l.foldl (fun o x => match o with | none => none | some t => g t x) o = some u) : Keeps s u := by
  induction l generalizing o with
  | nil => exact ho u e
  | cons a l ih =>
    cases o with
    | none => exact ih (o := none) (fun v hv => nomatch hv) e
    | some t => exact ih (o := g t a) (fun v hv => hg t a v (ho t rfl) hv) e

theorem keeps_State_orderTake {s t : State} {a1 : _} {a2 : _} {a3 : _} {a4 : _} {u : State} (h : Keeps s t)
    (e : State.orderTake t a1 a2 a3 a4 = some u) : Keeps s u := by
  unfold State.orderTake at e
  split at e
  · injection e with e; subst e; exact h
  extract_lets x1 x2 x3 at e
  split at e
  · contradiction
  · rename_i v hv
    extract_lets x4 at e
    injection e with e; subst e
    refine Keeps.same (t := v) ?_ rfl rfl rfl
    refine keeps_orderFold (o := some t) (fun w hw => ?_) (fun w x y hw hy => ?_) hv
    · injection hw with hw; subst hw; exact h
    · split at hy
      · injection hy with hy; subst hy; exact hw
      · exact keeps_State_logTake hw hy

theorem keeps_State_undoForce {s t : State} (h : Keeps s t) :
    Keeps s (State.undoForce t) := by
  unfold State.undoForce
  refine Keeps.ite ?_ ?_
  · refine keeps_State_raise ?_
    refine keeps_State_satAdd ?_
    refine keeps_State_requestCord ?_
    assumption
  · assumption

theorem keeps_State_undoPut {s t : State} {a1 : _} {a2 : _} (h : Keeps s t) :
    Keeps s (State.undoPut t a1 a2) := by
  unfold State.undoPut
  extract_lets +onlyGivenNames x1
  clear_value x1
  extract_lets +onlyGivenNames x2
  clear_value x2
  extract_lets +onlyGivenNames x3
  have hx3 : Keeps s x3 := ?_
  · clear_value x3
    extract_lets +onlyGivenNames x4
    clear_value x4
    refine keeps_State_undoForce ?_
    refine keeps_State_dramCharge ?_
    refine keeps_State_declCheck ?_
    refine keeps_State_peak ?_
    refine keeps_State_wr ?_
    assumption
  · unfold x3
    refine Keeps.same (t := t) ?_ rfl rfl rfl
    assumption

theorem keeps_State_undoTake {s t : State} {a1 : _} {a2 : _} {u : State} (h : Keeps s t)
    (e : State.undoTake t a1 a2 = some u) : Keeps s u := by
  unfold State.undoTake at e
  split at e
  · injection e with e; subst e; exact h
  split at e
  · injection e with e; subst e; exact keeps_State_undoPut h
  · contradiction

theorem keeps_State_flueShut {s t : State} (h : Keeps s t) :
    Keeps s (State.flueShut t) := by
  unfold State.flueShut
  extract_lets +onlyGivenNames x1
  clear_value x1
  extract_lets +onlyGivenNames x2
  have hx2 : Keeps s x2 := ?_
  · clear_value x2
    extract_lets +onlyGivenNames x3
    have hx3 : Keeps s x3 := ?_
    · clear_value x3
      extract_lets +onlyGivenNames x4
      have hx4 : Keeps s x4 := ?_
      · clear_value x4
        refine Keeps.same (t := x4) ?_ rfl rfl rfl
        assumption
      · unfold x4
        refine keeps_State_setRecs ?_
        assumption
    · unfold x3
      refine keeps_State_wr ?_
      assumption
  · unfold x2
    refine Keeps.foldl ?_ (fun u5 y6 hu5 => ?_)
    · assumption
    · refine keeps_State_quotaHeld ?_
      assumption

theorem keeps_State_flueEnter {s t : State} {a1 : _} {a2 : _} {a3 : _} {a4 : _} {a5 : _} {a6 : _} {a7 : _} {a8 : _} (h : Keeps s t) :
    Keeps s (State.flueEnter t a1 a2 a3 a4 a5 a6 a7 a8) := by
  unfold State.flueEnter
  extract_lets +onlyGivenNames x1
  clear_value x1
  extract_lets +onlyGivenNames x2
  clear_value x2
  extract_lets +onlyGivenNames x3
  clear_value x3
  extract_lets +onlyGivenNames x4
  have hx4 : Keeps s x4 := ?_
  · clear_value x4
    refine keeps_State_flueForce ?_
    refine keeps_State_setRecs ?_
    assumption
  · unfold x4
    refine keeps_State_quotaHeld ?_
    refine keeps_State_setStream ?_
    assumption

theorem keeps_State_flueSeal {s t : State} {a1 : _} {a2 : _} (h : Keeps s t) :
    Keeps s (State.flueSeal t a1 a2) := by
  unfold State.flueSeal
  extract_lets +onlyGivenNames x1
  clear_value x1
  refine Keeps.same (t := t) ?_ rfl rfl rfl
  assumption

theorem keeps_State_setRecChan {s t : State} {a1 : _} {a2 : _} {a3 : _} (h : Keeps s t) :
    Keeps s (State.setRecChan t a1 a2 a3) := by
  unfold State.setRecChan
  refine Keeps.same (t := t) ?_ rfl rfl rfl
  assumption

theorem keeps_State_recSample {s t : State} {a1 : _} {a2 : _} (h : Keeps s t) :
    Keeps s (State.recSample t a1 a2) := by
  unfold State.recSample
  refine Keeps.ite ?_ ?_
  · assumption
  · refine Keeps.ite ?_ ?_
    · extract_lets +onlyGivenNames x1
      clear_value x1
      extract_lets +onlyGivenNames x2
      have hx2 : Keeps s x2 := ?_
      · clear_value x2
        refine Keeps.ite ?_ ?_
        · assumption
        · refine keeps_State_raise ?_
          refine Keeps.same (t := x2) ?_ rfl rfl rfl
          assumption
      · unfold x2
        refine keeps_State_setRecChan ?_
        refine keeps_State_satAdd ?_
        assumption
    · extract_lets +onlyGivenNames x3
      have hx3 : Keeps s x3 := ?_
      · clear_value x3
        refine Keeps.same (t := x3) ?_ rfl rfl rfl
        assumption
      · unfold x3
        refine keeps_State_satAdd ?_
        assumption

theorem keeps_State_recBin {s t : State} {a1 : _} {a2 : _} {a3 : _} {a4 : _} (h : Keeps s t) :
    Keeps s (State.recBin t a1 a2 a3 a4).2 := by
  refine KeepsS.out ?_
  unfold State.recBin
  refine KeepsS.ite ?_ ?_
  · refine KeepsS.pair ?_
    assumption
  · refine KeepsS.ite ?_ ?_
    · refine KeepsS.pair ?_
      assumption
    · refine KeepsS.ite ?_ ?_
      · refine KeepsS.pair ?_
        assumption
      · refine KeepsS.ite ?_ ?_
        · refine KeepsS.pair ?_
          assumption
        · extract_lets +onlyGivenNames x1
          have hx1 : Keeps s x1.2 := ?_
          · clear_value x1
            refine KeepsS.pair ?_
            assumption
          · unfold x1
            refine keeps_State_draw ?_
            assumption

theorem keeps_State_recApply {s t : State} {a1 : _} (h : Keeps s t) :
    Keeps s (State.recApply t a1) := by
  unfold State.recApply
  extract_lets +onlyGivenNames x1
  clear_value x1
  extract_lets +onlyGivenNames x2
  clear_value x2
  extract_lets +onlyGivenNames x3
  have hx3 : Keeps s x3.2 := ?_
  · clear_value x3
    extract_lets +onlyGivenNames x4
    have hx4 : Keeps s x4 := ?_
    · clear_value x4
      extract_lets +onlyGivenNames x5
      clear_value x5
      extract_lets +onlyGivenNames x6
      clear_value x6
      extract_lets +onlyGivenNames x7
      clear_value x7
      extract_lets +onlyGivenNames x8
      clear_value x8
      extract_lets +onlyGivenNames x9
      clear_value x9
      extract_lets +onlyGivenNames x10
      clear_value x10
      refine keeps_State_setRecChan ?_
      assumption
    · unfold x4
      assumption
  · unfold x3
    refine keeps_State_recBin ?_
    assumption

theorem keeps_State_recWriteHdr {s t : State} {a1 : _} (h : Keeps s t) :
    Keeps s (State.recWriteHdr t a1) := by
  unfold State.recWriteHdr
  extract_lets +onlyGivenNames x1
  clear_value x1
  extract_lets +onlyGivenNames x2
  clear_value x2
  extract_lets +onlyGivenNames x3
  clear_value x3
  extract_lets +onlyGivenNames x4
  clear_value x4
  refine keeps_State_setBytes ?_
  assumption

theorem keeps_State_recFlushChan {s t : State} {a1 : _} (h : Keeps s t) :
    Keeps s (State.recFlushChan t a1) := by
  unfold State.recFlushChan
  extract_lets +onlyGivenNames x1
  clear_value x1
  extract_lets +onlyGivenNames x2
  clear_value x2
  extract_lets +onlyGivenNames x3
  have hx3 : Keeps s x3 := ?_
  · clear_value x3
    refine keeps_State_setBytes ?_
    refine keeps_State_setBytes ?_
    assumption
  · unfold x3
    refine keeps_State_setRecChan ?_
    assumption

theorem keeps_State_recClearChan {s t : State} {a1 : _} {a2 : _} (h : Keeps s t) :
    Keeps s (State.recClearChan t a1 a2) := by
  unfold State.recClearChan
  extract_lets +onlyGivenNames x1
  clear_value x1
  extract_lets +onlyGivenNames x2
  have hx2 : Keeps s x2 := ?_
  · clear_value x2
    refine keeps_State_recFlushChan ?_
    refine keeps_State_setRecChan ?_
    assumption
  · unfold x2
    refine Keeps.same (t := t) ?_ rfl rfl rfl
    assumption

theorem keeps_State_recClear {s t : State} {a1 : _} (h : Keeps s t) :
    Keeps s (State.recClear t a1) := by
  unfold State.recClear
  extract_lets +onlyGivenNames x1
  clear_value x1
  extract_lets +onlyGivenNames x2
  have hx2 : Keeps s x2 := ?_
  · clear_value x2
    refine keeps_State_wr ?_
    refine keeps_State_recWriteHdr ?_
    assumption
  · unfold x2
    refine Keeps.foldl ?_ (fun u3 y4 hu3 => ?_)
    · assumption
    · refine keeps_State_recClearChan ?_
      assumption

theorem keeps_State_consoleLine {s t : State} {a1 : _} (h : Keeps s t) :
    Keeps s (State.consoleLine t a1) := by
  unfold State.consoleLine
  refine Keeps.same (t := t) ?_ rfl rfl rfl
  assumption

theorem keeps_State_recLock {s t : State} (h : Keeps s t) :
    Keeps s (State.recLock t) := by
  unfold State.recLock
  refine Keeps.ite ?_ ?_
  · assumption
  · extract_lets +onlyGivenNames x1
    clear_value x1
    refine Keeps.ite ?_ ?_
    · assumption
    · refine keeps_State_raise ?_
      refine keeps_State_recClear ?_
      assumption

theorem keeps_State_recEvent {s t : State} {a1 : _} {a2 : _} {a3 : _} (h : Keeps s t) :
    Keeps s (State.recEvent t a1 a2 a3) := by
  unfold State.recEvent
  refine Keeps.ite ?_ ?_
  · assumption
  · refine Keeps.foldl ?_ (fun u1 y2 hu1 => ?_)
    · assumption
    · refine Keeps.ite ?_ ?_
      · refine keeps_State_recSample ?_
        assumption
      · assumption

theorem keeps_State_recNoteWrite {s t : State} {a1 : _} {a2 : _} (h : Keeps s t) :
    Keeps s (State.recNoteWrite t a1 a2) := by
  unfold State.recNoteWrite
  extract_lets +onlyGivenNames x1
  clear_value x1
  extract_lets +onlyGivenNames x2
  clear_value x2
  extract_lets +onlyGivenNames x3
  clear_value x3
  extract_lets +onlyGivenNames x4
  clear_value x4
  extract_lets +onlyGivenNames x5
  have hx5 : Keeps s x5 := ?_
  · clear_value x5
    refine keeps_State_consoleLine ?_
    refine keeps_State_wr ?_
    refine Keeps.same (t := x5) ?_ rfl rfl rfl
    assumption
  · unfold x5
    refine keeps_State_setBytes ?_
    assumption

theorem keeps_State_recRestore {s t : State} (h : Keeps s t) :
    Keeps s (State.recRestore t) := by
  unfold State.recRestore
  extract_lets +onlyGivenNames x1
  clear_value x1
  extract_lets +onlyGivenNames x2
  have hx2 : Keeps s x2 := ?_
  · clear_value x2
    extract_lets +onlyGivenNames x3
    clear_value x3
    extract_lets +onlyGivenNames x4
    clear_value x4
    extract_lets +onlyGivenNames x5
    clear_value x5
    extract_lets +onlyGivenNames x6
    have hx6 : Keeps s x6 := ?_
    · clear_value x6
      extract_lets +onlyGivenNames x7
      have hx7 : Keeps s x7 := ?_
      · clear_value x7
        extract_lets +onlyGivenNames x8
        clear_value x8
        extract_lets +onlyGivenNames x9
        have hx9 : Keeps s x9 := ?_
        · clear_value x9
          refine Keeps.same (t := x9) ?_ rfl rfl rfl
          assumption
        · unfold x9
          refine keeps_State_wr ?_
          assumption
      · unfold x7
        refine keeps_State_wr ?_
        refine keeps_State_recWriteHdr ?_
        assumption
    · unfold x6
      split
      · refine keeps_State_raise ?_
        refine keeps_State_wr ?_
        assumption
      · assumption
  · unfold x2
    refine Keeps.ite ?_ ?_
    · refine keeps_State_setBytes ?_
      assumption
    · assumption

theorem keeps_State_recFlush {s t : State} (h : Keeps s t) :
    Keeps s (State.recFlush t) := by
  unfold State.recFlush
  extract_lets +onlyGivenNames x1
  have hx1 : Keeps s x1 := ?_
  · clear_value x1
    refine Keeps.same (t := x1) ?_ rfl rfl rfl
    assumption
  · unfold x1
    refine Keeps.foldl ?_ (fun u2 y3 hu2 => ?_)
    · assumption
    · refine keeps_State_recFlushChan ?_
      assumption

theorem keeps_State_freeWords {s t : State} {a1 : _} (h : Keeps s t) :
    Keeps s (State.freeWords t a1).2 := by
  induction a1 generalizing t
  · unfold State.freeWords
    dsimp -zeta only
    assumption
  · rename_i ih
    unfold State.freeWords
    refine KeepsS.out ?_
    extract_lets +onlyGivenNames x1
    have hx1 : Keeps s x1.2 := ?_
    · clear_value x1
      extract_lets +onlyGivenNames x2
      have hx2 : Keeps s x2.2 := ?_
      · clear_value x2
        refine KeepsS.pair ?_
        assumption
      · unfold x2
        apply ih
        assumption
    · unfold x1
      refine keeps_State_draw ?_
      assumption

theorem keeps_State_calClose {s t : State} {a1 : _} (h : Keeps s t) :
    Keeps s (State.calClose t a1) := by
  unfold State.calClose
  refine keeps_State_setLe ?_
  refine keeps_State_setLe ?_
  assumption

theorem keeps_State_calWrite {s t : State} {a1 : _} {a2 : _} (h : Keeps s t) :
    Keeps s (State.calWrite t a1 a2) := by
  unfold State.calWrite
  extract_lets +onlyGivenNames x1
  clear_value x1
  extract_lets +onlyGivenNames x2
  have hx2 : Keeps s x2.2 := ?_
  · clear_value x2
    extract_lets +onlyGivenNames x3
    have hx3 : Keeps s x3 := ?_
    · clear_value x3
      refine keeps_State_calClose ?_
      assumption
    · unfold x3
      refine keeps_State_setWords ?_
      assumption
  · unfold x2
    refine keeps_State_freeWords ?_
    assumption

theorem keeps_State_calShow {s t : State} (h : Keeps s t) :
    Keeps s (State.calShow t) := by
  unfold State.calShow
  refine keeps_State_wr ?_
  assumption

theorem keeps_State_calDone {s t : State} {a1 : _} {a2 : _} (h : Keeps s t) :
    Keeps s (State.calDone t a1 a2) := by
  unfold State.calDone
  extract_lets +onlyGivenNames x1
  have hx1 : Keeps s x1 := ?_
  · clear_value x1
    refine keeps_State_calShow ?_
    assumption
  · unfold x1
    refine keeps_State_raise ?_
    refine keeps_State_satAdd ?_
    refine keeps_State_calWrite ?_
    assumption

theorem keeps_State_calJudge {s t : State} {a1 : _} {a2 : _} (h : Keeps s t) :
    Keeps s (State.calJudge t a1 a2) := by
  unfold State.calJudge
  refine Keeps.ite ?_ ?_
  · extract_lets +onlyGivenNames x1
    clear_value x1
    extract_lets +onlyGivenNames x2
    have hx2 : Keeps s x2 := ?_
    · clear_value x2
      extract_lets +onlyGivenNames x3
      have hx3 : Keeps s x3 := ?_
      · clear_value x3
        extract_lets +onlyGivenNames x4
        have hx4 : Keeps s x4 := ?_
        · clear_value x4
          refine Keeps.ite ?_ ?_
          · assumption
          · refine Keeps.ite ?_ ?_
            · refine Keeps.same (t := x4) ?_ rfl rfl rfl
              assumption
            · refine Keeps.same (t := x4) ?_ rfl rfl rfl
              assumption
        · unfold x4
          refine keeps_State_recNoteWrite ?_
          assumption
      · unfold x3
        refine keeps_State_raise ?_
        assumption
    · unfold x2
      refine keeps_State_calClose ?_
      refine keeps_State_setMemFld ?_
      assumption
  · assumption

theorem keeps_State_calDram {s t : State} (h : Keeps s t) :
    Keeps s (State.calDram t) := by
  unfold State.calDram
  extract_lets +onlyGivenNames x1
  clear_value x1
  extract_lets +onlyGivenNames x2
  have hx2 : Keeps s x2 := ?_
  · clear_value x2
    refine Keeps.ite ?_ ?_
    · refine keeps_State_calShow ?_
      assumption
    · refine keeps_State_calShow ?_
      extract_lets +onlyGivenNames x3
      have hx3 : Keeps s x3 := ?_
      · clear_value x3
        refine Keeps.same (t := x3) ?_ rfl rfl rfl
        assumption
      · unfold x3
        refine keeps_State_calWrite ?_
        assumption
  · unfold x2
    refine keeps_State_calJudge ?_
    assumption

theorem keeps_State_setLink {s t : State} {a1 : _} {a2 : _} (h : Keeps s t) :
    Keeps s (State.setLink t a1 a2) := by
  unfold State.setLink
  refine keeps_State_wr ?_
  refine keeps_State_wr ?_
  assumption

theorem keeps_State_setAi {s t : State} {a1 : _} {a2 : _} (h : Keeps s t) :
    Keeps s (State.setAi t a1 a2) := by
  unfold State.setAi
  refine Keeps.same (t := t) ?_ rfl rfl rfl
  assumption

theorem keeps_State_setIn {s t : State} {a1 : _} {a2 : _} {a3 : _} (h : Keeps s t) :
    Keeps s (State.setIn t a1 a2 a3) := by
  unfold State.setIn
  refine Keeps.same (t := t) ?_ rfl rfl rfl
  assumption

theorem keeps_State_setDio {s t : State} {a1 : _} {a2 : _} {a3 : _} (h : Keeps s t) :
    Keeps s (State.setDio t a1 a2 a3) := by
  unfold State.setDio
  refine Keeps.same (t := t) ?_ rfl rfl rfl
  assumption

theorem keeps_State_dioStop {s t : State} {a1 : _} {a2 : _} (h : Keeps s t) :
    Keeps s (State.dioStop t a1 a2) := by
  unfold State.dioStop
  refine keeps_State_setDio ?_
  assumption

theorem keeps_State_setIsl {s t : State} {a1 : _} {a2 : _} (h : Keeps s t) :
    Keeps s (State.setIsl t a1 a2) := by
  unfold State.setIsl
  refine Keeps.same (t := t) ?_ rfl rfl rfl
  assumption

theorem keeps_State_groupOff {s t : State} {a1 : _} (h : Keeps s t) :
    Keeps s (State.groupOff t a1) := by
  unfold State.groupOff
  refine Keeps.foldl ?_ (fun u1 y2 hu1 => ?_)
  · assumption
  · refine keeps_State_dioStop ?_
    assumption

theorem keeps_State_setTps {s t : State} {a1 : _} {a2 : _} (h : Keeps s t) :
    Keeps s (State.setTps t a1 a2) := by
  unfold State.setTps
  refine Keeps.same (t := t) ?_ rfl rfl rfl
  assumption

theorem keeps_State_islandSafe {s t : State} {a1 : _} (h : Keeps s t) :
    Keeps s (State.islandSafe t a1) := by
  unfold State.islandSafe
  extract_lets +onlyGivenNames x1
  have hx1 : Keeps s x1 := ?_
  · clear_value x1
    extract_lets +onlyGivenNames x2
    clear_value x2
    extract_lets +onlyGivenNames x3
    have hx3 : Keeps s x3 := ?_
    · clear_value x3
      refine Keeps.ite ?_ ?_
      · assumption
      · refine Keeps.ite ?_ ?_
        · extract_lets +onlyGivenNames x4
          clear_value x4
          refine keeps_State_setAi ?_
          refine keeps_State_setAi ?_
          assumption
        · refine Keeps.ite ?_ ?_
          · refine Keeps.foldl ?_ (fun u5 y6 hu5 => ?_)
            · assumption
            · refine keeps_State_setTps ?_
              assumption
          · assumption
    · unfold x3
      refine keeps_State_setIsl ?_
      assumption
  · unfold x1
    refine Keeps.ite ?_ ?_
    · refine keeps_State_groupOff ?_
      assumption
    · assumption

theorem keeps_State_linkStop {s t : State} {a1 : _} (h : Keeps s t) :
    Keeps s (State.linkStop t a1) := by
  unfold State.linkStop
  refine Keeps.ite ?_ ?_
  · assumption
  · extract_lets +onlyGivenNames x1
    clear_value x1
    extract_lets +onlyGivenNames x2
    have hx2 : Keeps s x2 := ?_
    · clear_value x2
      refine keeps_State_setLink ?_
      refine keeps_State_islandSafe ?_
      assumption
    · unfold x2
      refine keeps_State_setIsl ?_
      assumption

theorem keeps_State_fieldStop {s t : State} (h : Keeps s t) :
    Keeps s (State.fieldStop t) := by
  unfold State.fieldStop
  extract_lets +onlyGivenNames x1
  have hx1 : Keeps s x1 := ?_
  · clear_value x1
    refine Keeps.same (t := x1) ?_ rfl rfl rfl
    assumption
  · unfold x1
    refine Keeps.foldl ?_ (fun u2 y3 hu2 => ?_)
    · assumption
    · refine keeps_State_linkStop ?_
      assumption

theorem keeps_State_linksGo {s t : State} (h : Keeps s t) :
    Keeps s (State.linksGo t) := by
  unfold State.linksGo
  refine Keeps.foldl ?_ (fun u1 y2 hu1 => ?_)
  · assumption
  · refine Keeps.ite ?_ ?_
    · refine keeps_State_setIsl ?_
      assumption
    · assumption

theorem keeps_State_islandOut {s t : State} {a1 : _} {a2 : _} (h : Keeps s t) :
    Keeps s (State.islandOut t a1 a2) := by
  unfold State.islandOut
  refine keeps_State_setIsl ?_
  assumption

theorem keeps_State_linksHeld {s t : State} (h : Keeps s t) :
    Keeps s (State.linksHeld t) := by
  unfold State.linksHeld
  refine Keeps.foldl ?_ (fun u1 y2 hu1 => ?_)
  · assumption
  · refine Keeps.ite ?_ ?_
    · refine keeps_State_setLink ?_
      assumption
    · assumption

theorem keeps_State_setRackQueue {s t : State} {a1 : _} {a2 : _} (h : Keeps s t) :
    Keeps s (State.setRackQueue t a1 a2) := by
  unfold State.setRackQueue
  refine Keeps.same (t := t) ?_ rfl rfl rfl
  assumption

theorem keeps_State_rackIssue {s t : State} {a1 : _} {a2 : _} {a3 : _} {a4 : _} {a5 : _} {a6 : _} (h : Keeps s t) :
    Keeps s (State.rackIssue t a1 a2 a3 a4 a5 a6) := by
  unfold State.rackIssue
  refine keeps_State_setRackQueue ?_
  assumption

end Machine
end Sys2Proof
end

