-- ==== Sys2Proof/Laws/Keeps02.lean ====
section
/-!
SUPPORT. Keeps of the operations of RackOps, Safe, PairState, Power, Boot, LaneRegs, Rings, Part.
-/

set_option Elab.async false

namespace Sys2Proof
namespace Machine

theorem keeps_State_rackPostedFail {s t : State} {a1 : _} {a2 : _} {a3 : _} (h : Keeps s t) :
    Keeps s (State.rackPostedFail t a1 a2 a3) := by
  unfold State.rackPostedFail
  extract_lets +onlyGivenNames x1
  have hx1 : Keeps s x1 := ?_
  · clear_value x1
    refine keeps_State_raise ?_
    refine keeps_State_satAdd ?_
    assumption
  · unfold x1
    refine Keeps.ite ?_ ?_
    · assumption
    · refine keeps_State_wr ?_
      refine keeps_State_wr ?_
      refine keeps_State_wr ?_
      refine keeps_State_wr ?_
      assumption

theorem keeps_State_setCycle {s t : State} {a1 : _} (h : Keeps s t) :
    Keeps s (State.setCycle t a1) := by
  unfold State.setCycle
  refine keeps_State_wr ?_
  refine Keeps.same (t := t) ?_ rfl rfl rfl
  assumption

theorem keeps_State_rackHold {s t : State} (h : Keeps s t) :
    Keeps s (State.rackHold t) := by
  unfold State.rackHold
  refine keeps_State_wr ?_
  refine Keeps.same (t := t) ?_ rfl rfl rfl
  assumption

theorem keeps_State_rackStop {s t : State} (h : Keeps s t) :
    Keeps s (State.rackStop t) := by
  unfold State.rackStop
  extract_lets +onlyGivenNames x1
  have hx1 : Keeps s x1 := ?_
  · clear_value x1
    refine keeps_State_rackHold ?_
    refine Keeps.same (t := x1) ?_ rfl rfl rfl
    assumption
  · unfold x1
    refine keeps_State_setCycle ?_
    assumption

theorem keeps_State_rackDrive {s t : State} {a1 : _} {a2 : _} {a3 : _} {a4 : _} {a5 : _} {a6 : _} (h : Keeps s t) :
    Keeps s (State.rackDrive t a1 a2 a3 a4 a5 a6) := by
  unfold State.rackDrive
  refine keeps_State_setCycle ?_
  refine Keeps.same (t := t) ?_ rfl rfl rfl
  assumption

theorem keeps_State_rbFinish {s t : State} {a1 : _} {a2 : _} {a3 : _} (h : Keeps s t) :
    Keeps s (State.rbFinish t a1 a2 a3) := by
  unfold State.rbFinish
  refine keeps_State_endLong ?_
  assumption

theorem keeps_State_rackBlockStart {s t : State} {a1 : _} {a2 : _} (h : Keeps s t) :
    Keeps s (State.rackBlockStart t a1 a2) := by
  unfold State.rackBlockStart
  extract_lets +onlyGivenNames x1
  clear_value x1
  extract_lets +onlyGivenNames x2
  clear_value x2
  extract_lets +onlyGivenNames x3
  have hx3 : Keeps s x3.2 := ?_
  · clear_value x3
    refine Keeps.ite ?_ ?_
    · refine keeps_State_rbFinish ?_
      assumption
    · refine keeps_State_rackDrive ?_
      assumption
  · unfold x3
    refine KeepsS.out ?_
    refine KeepsS.ite ?_ ?_
    · refine ⟨?_⟩
      refine keeps_State_readCheck ?_
      assumption
    · refine KeepsS.pair ?_
      assumption

theorem keeps_State_rackStart {s t : State} {a1 : _} {a2 : _} (h : Keeps s t) :
    Keeps s (State.rackStart t a1 a2) := by
  unfold State.rackStart
  split
  · refine keeps_State_rackDrive ?_
    assumption
  · split
    · refine keeps_State_rackBlockStart ?_
      assumption
    · assumption

theorem keeps_State_rackPost {s t : State} {a1 : _} {a2 : _} {a3 : _} {a4 : _} (h : Keeps s t) :
    Keeps s (State.rackPost t a1 a2 a3 a4) := by
  unfold State.rackPost
  refine keeps_State_setRackQueue ?_
  assumption

theorem keeps_State_rackResult {s t : State} {a1 : _} {a2 : _} {a3 : _} (h : Keeps s t) :
    Keeps s (State.rackResult t a1 a2 a3) := by
  unfold State.rackResult
  split
  · assumption
  · refine Keeps.ite ?_ ?_
    · assumption
    · extract_lets +onlyGivenNames x1
      clear_value x1
      extract_lets +onlyGivenNames x2
      clear_value x2
      extract_lets +onlyGivenNames x3
      clear_value x3
      refine Keeps.same (t := t) ?_ rfl rfl rfl
      assumption

theorem keeps_State_rackRelease {s t : State} (h : Keeps s t) :
    Keeps s (State.rackRelease t) := by
  unfold State.rackRelease
  refine keeps_State_wr ?_
  refine Keeps.same (t := t) ?_ rfl rfl rfl
  assumption

theorem keeps_State_rackAccessFail {s t : State} {a1 : _} {a2 : _} {a3 : _} {a4 : _} (h : Keeps s t) :
    Keeps s (State.rackAccessFail t a1 a2 a3 a4) := by
  unfold State.rackAccessFail
  extract_lets +onlyGivenNames x1
  have hx1 : Keeps s x1 := ?_
  · clear_value x1
    refine keeps_State_raise ?_
    refine keeps_State_satAdd ?_
    assumption
  · unfold x1
    refine Keeps.ite ?_ ?_
    · assumption
    · refine keeps_State_wr ?_
      refine keeps_State_wr ?_
      refine keeps_State_wr ?_
      refine keeps_State_wr ?_
      refine keeps_State_wr ?_
      assumption

theorem keeps_State_rackLaneEnd {s t : State} {a1 : _} {a2 : _} (h : Keeps s t) :
    Keeps s (State.rackLaneEnd t a1 a2) := by
  unfold State.rackLaneEnd
  split
  · assumption
  · refine Keeps.ite ?_ ?_
    · extract_lets +onlyGivenNames x1
      refine Keeps.ite ?_ ?_
      · refine keeps_State_rackResult ?_
        refine keeps_State_setRackQueue ?_
        assumption
      · refine keeps_State_setRackQueue ?_
        assumption
    · extract_lets +onlyGivenNames x2
      have hx2 : Keeps s x2 := ?_
      · clear_value x2
        split
        · refine keeps_State_rackPostedFail ?_
          assumption
        · refine keeps_State_rackResult ?_
          refine keeps_State_rackAccessFail ?_
          assumption
      · unfold x2
        refine keeps_State_setRackQueue ?_
        assumption

theorem keeps_State_rackBlockEnd {s t : State} {a1 : _} {a2 : _} {a3 : _} (h : Keeps s t) :
    Keeps s (State.rackBlockEnd t a1 a2 a3) := by
  unfold State.rackBlockEnd
  refine Keeps.ite ?_ ?_
  · extract_lets +onlyGivenNames x1
    have hx1 : Keeps s x1 := ?_
    · clear_value x1
      extract_lets +onlyGivenNames x2
      clear_value x2
      extract_lets +onlyGivenNames x3
      have hx3 : Keeps s x3 := ?_
      · clear_value x3
        refine Keeps.ite ?_ ?_
        · refine keeps_State_rbFinish ?_
          assumption
        · assumption
      · unfold x3
        refine keeps_State_setOut ?_
        assumption
    · unfold x1
      refine Keeps.ite ?_ ?_
      · assumption
      · refine keeps_State_busWrite ?_
        assumption
  · refine keeps_State_rbFinish ?_
    assumption

theorem keeps_State_rackEnd {s t : State} {a1 : _} {a2 : _} {a3 : _} (h : Keeps s t) :
    Keeps s (State.rackEnd t a1 a2 a3) := by
  unfold State.rackEnd
  extract_lets +onlyGivenNames x1
  have hx1 : Keeps s x1 := ?_
  · clear_value x1
    extract_lets +onlyGivenNames x2
    have hx2 : Keeps s x2 := ?_
    · clear_value x2
      split
      · refine keeps_State_rackLaneEnd ?_
        assumption
      · split
        · refine keeps_State_rackBlockEnd ?_
          assumption
        · assumption
    · unfold x2
      refine keeps_State_setCycle ?_
      assumption
  · unfold x1
    refine Keeps.ite ?_ ?_
    · refine keeps_State_satAdd ?_
      assumption
    · assumption

theorem keeps_State_rbSetupCheck {s t : State} (h : Keeps s t) :
    Keeps s (State.rbSetupCheck t).2 := by
  refine KeepsS.out ?_
  unfold State.rbSetupCheck
  split
  · refine KeepsS.pair ?_
    assumption
  · refine KeepsS.pair ?_
    refine keeps_State_raise ?_
    refine keeps_State_wr ?_
    refine keeps_State_wr ?_
    assumption

theorem keeps_State_rackDrop {s t : State} (h : Keeps s t) :
    Keeps s (State.rackDrop t) := by
  unfold State.rackDrop
  extract_lets +onlyGivenNames x1
  clear_value x1
  extract_lets +onlyGivenNames x2
  clear_value x2
  refine Keeps.foldl ?_ (fun u3 y4 hu3 => ?_)
  · assumption
  · refine Keeps.ite ?_ ?_
    · refine keeps_State_setRackQueue ?_
      assumption
    · assumption

theorem keeps_State_rackPulse {s t : State} {a1 : _} {a2 : _} {a3 : _} (h : Keeps s t) :
    Keeps s (State.rackPulse t a1 a2 a3) := by
  unfold State.rackPulse
  extract_lets +onlyGivenNames x1
  have hx1 : Keeps s x1 := ?_
  · clear_value x1
    refine keeps_State_raise ?_
    refine keeps_State_setCycle ?_
    assumption
  · unfold x1
    refine keeps_State_wr ?_
    refine keeps_State_satAdd ?_
    assumption

theorem keeps_State_safeNotes {s t : State} (h : Keeps s t) :
    Keeps s (State.safeNotes t) := by
  unfold State.safeNotes
  extract_lets +onlyGivenNames x1
  have hx1 : Keeps s x1 := ?_
  · clear_value x1
    refine Keeps.foldl ?_ (fun u2 y3 hu2 => ?_)
    · assumption
    · refine keeps_State_recNoteWrite ?_
      assumption
  · unfold x1
    refine keeps_State_recNoteWrite ?_
    assumption

theorem keeps_State_recordCause {s t : State} {a1 : _} {a2 : _} {a3 : _} (h : Keeps s t) :
    Keeps s (State.recordCause t a1 a2 a3) := by
  unfold State.recordCause
  refine Keeps.ite ?_ ?_
  · refine keeps_State_setReg ?_
    assumption
  · extract_lets +onlyGivenNames x1
    clear_value x1
    refine keeps_State_wr ?_
    refine keeps_State_wr ?_
    refine keeps_State_wr ?_
    assumption

theorem keeps_State_keepMeasured {s t : State} {a1 : _} (h : Keeps s t) :
    Keeps s (State.keepMeasured t a1) := by
  unfold State.keepMeasured
  refine Keeps.foldl ?_ (fun u1 y2 hu1 => ?_)
  · assumption
  · refine keeps_State_wr ?_
    assumption

theorem keeps_State_netStop {s t : State} (h : Keeps s t) :
    Keeps s (State.netStop t) := by
  unfold State.netStop
  extract_lets +onlyGivenNames x1
  have hx1 : Keeps s x1 := ?_
  · clear_value x1
    extract_lets +onlyGivenNames x2
    have hx2 : Keeps s x2 := ?_
    · clear_value x2
      refine Keeps.same (t := x2) ?_ rfl rfl rfl
      assumption
    · unfold x2
      refine keeps_State_wr ?_
      refine keeps_State_wr ?_
      assumption
  · unfold x1
    refine Keeps.foldl ?_ (fun u3 y4 hu3 => ?_)
    · assumption
    · refine keeps_State_wr ?_
      assumption

theorem keeps_State_resetModule {s t : State} {a1 : _} {a2 : _} (h : Keeps s t) :
    Keeps s (State.resetModule t a1 a2) := by
  unfold State.resetModule
  refine keeps_State_recordCause (keeps_State_keepMeasured ?_)
  refine ⟨h.pending, fun x => ?_, fun _ => rfl, .inr rfl, ?_, h.keys, h.revoked, h.imgSig, .inr ?_⟩
  · show Memory.wf (if dramLost a1 a2 = true then _ else t.mem) = true
    split
    · exact filter_wf _ (h.mem x)
    · exact h.mem x
  · show (if (_ && _) = true then t.pwr.rtc else 0) = s.pwr.rtc ∨ (if (_ && _) = true then t.pwr.rtc else 0) = 0
    split
    · exact h.rtc
    · exact .inr rfl
  · show incrMin ≤ TimeBase.start.incr.toNat ∧ TimeBase.start.incr.toNat ≤ incrMax
    decide

theorem keeps_State_safeBlocks {s t : State} (h : Keeps s t) :
    Keeps s (State.safeBlocks t) := by
  unfold State.safeBlocks
  extract_lets +onlyGivenNames x1
  have hx1 : Keeps s x1 := ?_
  · clear_value x1
    extract_lets +onlyGivenNames x2
    clear_value x2
    extract_lets +onlyGivenNames x3
    clear_value x3
    extract_lets +onlyGivenNames x4
    have hx4 : Keeps s x4 := ?_
    · clear_value x4
      refine keeps_State_safeNotes ?_
      refine keeps_State_recFlush ?_
      assumption
    · unfold x4
      refine Keeps.same (t := x1) ?_ rfl rfl rfl
      assumption
  · unfold x1
    refine keeps_State_rackStop ?_
    refine keeps_State_netStop ?_
    refine keeps_State_fieldStop ?_
    assumption

theorem keeps_State_enterSafe {s t : State} {a1 : _} (h : Keeps s t) :
    Keeps s (State.enterSafe t a1) := by
  unfold State.enterSafe
  refine Keeps.ite ?_ ?_
  · assumption
  · extract_lets +onlyGivenNames x1
    have hx1 : Keeps s x1 := ?_
    · clear_value x1
      extract_lets +onlyGivenNames x2
      clear_value x2
      extract_lets +onlyGivenNames x3
      have hx3 : Keeps s x3 := ?_
      · clear_value x3
        extract_lets +onlyGivenNames x4
        have hx4 : Keeps s x4 := ?_
        · clear_value x4
          extract_lets +onlyGivenNames x5
          have hx5 : Keeps s x5 := ?_
          · clear_value x5
            refine Keeps.same (t := x5) ?_ rfl rfl rfl
            assumption
          · unfold x5
            refine keeps_State_safeBlocks ?_
            assumption
        · unfold x4
          refine keeps_State_mpIrq ?_
          refine keeps_State_raise ?_
          refine keeps_State_flueShut ?_
          assumption
      · unfold x3
        refine Keeps.same (t := x1) ?_ rfl rfl rfl
        assumption
    · unfold x1
      refine keeps_State_wr ?_
      refine keeps_State_wr ?_
      assumption

theorem keeps_State_pairRecWrite {s t : State} {a1 : _} {a2 : _} (h : Keeps s t) :
    Keeps s (State.pairRecWrite t a1 a2) := by
  unfold State.pairRecWrite
  extract_lets +onlyGivenNames x1
  clear_value x1
  extract_lets +onlyGivenNames x2
  clear_value x2
  extract_lets +onlyGivenNames x3
  clear_value x3
  refine keeps_State_setBytes ?_
  refine keeps_State_wr64 ?_
  assumption

theorem keeps_State_pairDiscard {s t : State} (h : Keeps s t) :
    Keeps s (State.pairDiscard t) := by
  unfold State.pairDiscard
  refine keeps_State_pairPut ?_
  assumption

theorem keeps_State_pairReset {s t : State} {a1 : _} (h : Keeps s t) :
    Keeps s (State.pairReset t a1) := by
  unfold State.pairReset
  refine keeps_State_wr ?_
  refine keeps_State_wr64 ?_
  assumption

theorem keeps_State_pairSet {s t : State} {a1 : _} (h : Keeps s t) :
    Keeps s (State.pairSet t a1) := by
  unfold State.pairSet
  refine Keeps.same (t := t) ?_ rfl rfl rfl
  assumption

theorem keeps_State_pairPublished {s t : State} {a1 : _} (h : Keeps s t) :
    Keeps s (State.pairPublished t a1) := by
  unfold State.pairPublished
  refine Keeps.ite ?_ ?_
  · assumption
  · refine keeps_State_pairSet ?_
    assumption

theorem keeps_State_setRole {s t : State} {a1 : _} {a2 : _} (h : Keeps s t) :
    Keeps s (State.setRole t a1 a2) := by
  unfold State.setRole
  extract_lets +onlyGivenNames x1
  clear_value x1
  extract_lets +onlyGivenNames x2
  have hx2 : Keeps s x2 := ?_
  · clear_value x2
    refine Keeps.ite ?_ ?_
    · assumption
    · refine keeps_State_raise ?_
      assumption
  · unfold x2
    refine keeps_State_wr ?_
    refine keeps_State_wr ?_
    assumption

theorem keeps_State_pairSend {s t : State} {a1 : _} (h : Keeps s t) :
    Keeps s (State.pairSend t a1) := by
  unfold State.pairSend
  refine Keeps.ite ?_ ?_
  · refine keeps_State_pairSet ?_
    assumption
  · assumption

theorem keeps_State_mirrorRec {s t : State} {a1 : _} (h : Keeps s t) :
    Keeps s (State.mirrorRec t a1) := by
  unfold State.mirrorRec
  refine Keeps.ite ?_ ?_
  · refine keeps_State_pairPut ?_
    assumption
  · assumption

theorem keeps_State_feedChange {s t : State} {a1 : _} {a2 : _} {a3 : _} (h : Keeps s t) :
    Keeps s (State.feedChange t a1 a2 a3) := by
  unfold State.feedChange
  extract_lets +onlyGivenNames x1
  have hx1 : Keeps s x1 := ?_
  · clear_value x1
    extract_lets +onlyGivenNames x2
    have hx2 : Keeps s x2 := ?_
    · clear_value x2
      refine Keeps.ite ?_ ?_
      · assumption
      · extract_lets +onlyGivenNames x3
        have hx3 : Keeps s x3 := ?_
        · clear_value x3
          refine keeps_State_mpIrq ?_
          refine keeps_State_raise ?_
          assumption
        · unfold x3
          refine keeps_State_wr ?_
          assumption
    · unfold x2
      refine keeps_State_wr ?_
      assumption
  · unfold x1
    refine keeps_State_wr ?_
    refine keeps_State_wr ?_
    assumption

theorem keeps_feedPresentTimer {s t : State} {a0 : _} {a1 : _} (h : Keeps s t) :
    Keeps s (feedPresentTimer a0 a1 t) := by
  unfold feedPresentTimer
  refine Keeps.ite ?_ ?_
  · assumption
  · extract_lets +onlyGivenNames x1
    have hx1 : Keeps s x1 := ?_
    · clear_value x1
      refine Keeps.ite ?_ ?_
      · refine Keeps.same (t := x1) ?_ rfl rfl rfl
        assumption
      · assumption
    · unfold x1
      refine keeps_State_feedChange ?_
      assumption

theorem keeps_State_setLiveStraps {s t : State} {a1 : _} (h : Keeps s t) :
    Keeps s (State.setLiveStraps t a1) := by
  unfold State.setLiveStraps
  refine keeps_State_wr ?_
  refine keeps_State_wr ?_
  refine keeps_State_wr ?_
  assumption

theorem keeps_resetRelease {s t : State} {a0 : _} (h : Keeps s t) :
    Keeps s (resetRelease a0 t) := by
  unfold resetRelease
  refine Keeps.ite ?_ ?_
  · extract_lets +onlyGivenNames x1
    have hx1 : Keeps s x1 := ?_
    · clear_value x1
      extract_lets +onlyGivenNames x2
      have hx2 : Keeps s x2 := ?_
      · clear_value x2
        extract_lets +onlyGivenNames x3
        have hx3 : Keeps s x3 := ?_
        · clear_value x3
          extract_lets +onlyGivenNames x4
          extract_lets +onlyGivenNames x5
          clear_value x5
          extract_lets +onlyGivenNames x6
          have hx6 : Keeps s x6 := ?_
          · clear_value x6
            refine keeps_State_consoleLine ?_
            refine keeps_State_linksHeld ?_
            refine keeps_State_pairReset ?_
            refine keeps_State_recRestore ?_
            assumption
          · unfold x6
            refine Keeps.same (t := x3) ?_ rfl rfl rfl
            assumption
        · unfold x3
          refine keeps_State_setLiveStraps ?_
          assumption
      · unfold x2
        refine keeps_State_wr ?_
        refine keeps_State_wr ?_
        refine keeps_State_wr ?_
        refine keeps_State_wr ?_
        assumption
    · unfold x1
      refine keeps_State_setPhase ?_
      assumption
  · assumption

theorem keeps_execResetRelease {s t : State} {a0 : _} {u : State} (h : Keeps s t)
    (e : execResetRelease a0 t = .next u) : Keeps s u := by
  unfold execResetRelease at e
  injection e with e
  subst e
  refine keeps_resetRelease ?_
  assumption

theorem keeps_lanePllLock {s t : State} (h : Keeps s t) :
    Keeps s (lanePllLock t) := by
  unfold lanePllLock
  refine Keeps.ite ?_ ?_
  · refine keeps_State_wr ?_
    assumption
  · assumption

theorem keeps_execLanePllLock {s t : State} {u : State} (h : Keeps s t)
    (e : execLanePllLock t = .next u) : Keeps s u := by
  unfold execLanePllLock at e
  injection e with e
  subst e
  refine keeps_lanePllLock ?_
  assumption

theorem keeps_railFault {s t : State} {a0 : _} (h : Keeps s t) :
    Keeps s (railFault a0 t) := by
  unfold railFault
  refine Keeps.ite ?_ ?_
  · refine keeps_State_resetModule ?_
    refine keeps_State_enterSafe ?_
    assumption
  · assumption

theorem keeps_execRailFault {s t : State} {a0 : _} {u : State} (h : Keeps s t)
    (e : execRailFault a0 t = .next u) : Keeps s u := by
  unfold execRailFault at e
  injection e with e
  subst e
  refine keeps_railFault ?_
  assumption

theorem keeps_holdupLevelChange {s t : State} {a0 : _} (h : Keeps s t) :
    Keeps s (holdupLevelChange a0 t) := by
  unfold holdupLevelChange
  refine keeps_State_wr ?_
  assumption

theorem keeps_execHoldupLevelChange {s t : State} {a0 : _} {u : State} (h : Keeps s t)
    (e : execHoldupLevelChange a0 t = .next u) : Keeps s u := by
  unfold execHoldupLevelChange at e
  injection e with e
  subst e
  refine keeps_holdupLevelChange ?_
  assumption

theorem keeps_borLp {s t : State} (h : Keeps s t) :
    Keeps s (borLp t) := by
  unfold borLp
  refine Keeps.ite ?_ ?_
  · refine keeps_State_resetModule ?_
    assumption
  · assumption

theorem keeps_execBorLp {s t : State} {u : State} (h : Keeps s t)
    (e : execBorLp t = .next u) : Keeps s u := by
  unfold execBorLp at e
  injection e with e
  subst e
  refine keeps_borLp ?_
  assumption

theorem keeps_holdupExhausted {s t : State} (h : Keeps s t) :
    Keeps s (holdupExhausted t) := by
  unfold holdupExhausted
  refine Keeps.ite ?_ ?_
  · refine keeps_State_resetModule ?_
    refine keeps_State_enterSafe ?_
    assumption
  · assumption

theorem keeps_State_powerFail {s t : State} (h : Keeps s t) :
    Keeps s (State.powerFail t) := by
  unfold State.powerFail
  refine Keeps.ite ?_ ?_
  · assumption
  · refine keeps_State_recFlush ?_
    refine keeps_State_raise ?_
    assumption

theorem keeps_feedAbsent {s t : State} {a0 : _} {a1 : _} (h : Keeps s t) :
    Keeps s (feedAbsent a0 a1 t) := by
  unfold feedAbsent
  refine Keeps.ite ?_ ?_
  · extract_lets +onlyGivenNames x1
    have hx1 : Keeps s x1 := ?_
    · clear_value x1
      refine Keeps.ite ?_ ?_
      · refine keeps_State_powerFail ?_
        assumption
      · assumption
    · unfold x1
      refine keeps_State_feedChange ?_
      assumption
  · assumption

theorem keeps_execFeedAbsent {s t : State} {a0 : _} {a1 : _} {u : State} (h : Keeps s t)
    (e : execFeedAbsent a0 a1 t = .next u) : Keeps s u := by
  unfold execFeedAbsent at e
  injection e with e
  subst e
  refine keeps_feedAbsent ?_
  assumption

theorem keeps_overTemp {s t : State} {a0 : _} (h : Keeps s t) :
    Keeps s (overTemp a0 t) := by
  unfold overTemp
  extract_lets +onlyGivenNames x1
  clear_value x1
  extract_lets +onlyGivenNames x2
  have hx2 : Keeps s x2 := ?_
  · clear_value x2
    refine Keeps.ite ?_ ?_
    · extract_lets +onlyGivenNames x3
      have hx3 : Keeps s x3 := ?_
      · clear_value x3
        extract_lets +onlyGivenNames x4
        have hx4 : Keeps s x4 := ?_
        · clear_value x4
          refine Keeps.same (t := x4) ?_ rfl rfl rfl
          assumption
        · unfold x4
          refine keeps_State_raise ?_
          assumption
      · unfold x3
        refine keeps_State_wr ?_
        assumption
    · assumption
  · unfold x2
    refine keeps_State_wr ?_
    assumption

theorem keeps_execOverTemp {s t : State} {a0 : _} {u : State} (h : Keeps s t)
    (e : execOverTemp a0 t = .next u) : Keeps s u := by
  unfold execOverTemp at e
  injection e with e
  subst e
  refine keeps_overTemp ?_
  assumption

theorem keeps_lpDrawChange {s t : State} {a0 : _} (h : Keeps s t) :
    Keeps s (lpDrawChange a0 t) := by
  unfold lpDrawChange
  refine Keeps.ite ?_ ?_
  · extract_lets +onlyGivenNames x1
    have hx1 : Keeps s x1 := ?_
    · clear_value x1
      refine Keeps.same (t := x1) ?_ rfl rfl rfl
      assumption
    · unfold x1
      refine keeps_State_peak ?_
      assumption
  · assumption

theorem keeps_execLpDrawChange {s t : State} {a0 : _} {u : State} (h : Keeps s t)
    (e : execLpDrawChange a0 t = .next u) : Keeps s u := by
  unfold execLpDrawChange at e
  injection e with e
  subst e
  refine keeps_lpDrawChange ?_
  assumption

theorem keeps_vhearthFault {s t : State} (h : Keeps s t) :
    Keeps s (vhearthFault t) := by
  unfold vhearthFault
  refine Keeps.ite ?_ ?_
  · assumption
  · refine keeps_State_resetModule ?_
    assumption

theorem keeps_thermalTrip {s t : State} {a0 : _} (h : Keeps s t) :
    Keeps s (thermalTrip a0 t) := by
  unfold thermalTrip
  refine Keeps.ite ?_ ?_
  · refine keeps_State_resetModule ?_
    refine keeps_State_enterSafe ?_
    refine keeps_State_wr ?_
    assumption
  · assumption

theorem keeps_sysReset {s t : State} {a0 : _} {a1 : _} (h : Keeps s t) :
    Keeps s (sysReset a0 a1 t) := by
  unfold sysReset
  refine Keeps.ite ?_ ?_
  · split
    · refine keeps_State_resetModule ?_
      assumption
    · refine keeps_State_resetModule ?_
      assumption
    · assumption
  · assumption

theorem keeps_execSysReset {s t : State} {a0 : _} {a1 : _} {u : State} (h : Keeps s t)
    (e : execSysReset a0 a1 t = .next u) : Keeps s u := by
  unfold execSysReset at e
  injection e with e
  subst e
  refine keeps_State_arrive (fun u1 hu1 => ?_) ?_
  · refine keeps_sysReset ?_
    assumption
  · assumption

theorem keeps_State_strapEvent {s t : State} (h : Keeps s t) :
    Keeps s (State.strapEvent t) := by
  unfold State.strapEvent
  refine keeps_State_raise ?_
  assumption

theorem keeps_strapSample {s t : State} {a0 : _} (h : Keeps s t) :
    Keeps s (strapSample a0 t) := by
  unfold strapSample
  refine Keeps.ite ?_ ?_
  · assumption
  · extract_lets +onlyGivenNames x1
    have hx1 : Keeps s x1 := ?_
    · clear_value x1
      refine Keeps.ite ?_ ?_
      · refine keeps_State_mpIrq ?_
        refine keeps_State_strapEvent ?_
        refine keeps_State_wr ?_
        assumption
      · assumption
    · unfold x1
      refine keeps_State_setLiveStraps ?_
      assumption

theorem keeps_pwrPlWrite {s t : State} {a0 : _} {a1 : _} (h : Keeps s t) :
    Keeps s (pwrPlWrite a0 a1 t) := by
  unfold pwrPlWrite
  refine Keeps.ite ?_ ?_
  · assumption
  · extract_lets +onlyGivenNames x1
    have hx1 : Keeps s x1 := ?_
    · clear_value x1
      refine Keeps.ite ?_ ?_
      · assumption
      · refine keeps_State_wr ?_
        refine Keeps.same (t := x1) ?_ rfl rfl rfl
        assumption
    · unfold x1
      refine keeps_State_wr ?_
      assumption

theorem keeps_execFeedPresentTimer {s t : State} {a0 : _} {a1 : _} {u : State} (h : Keeps s t)
    (e : execFeedPresentTimer a0 a1 t = .next u) : Keeps s u := by
  unfold execFeedPresentTimer at e
  injection e with e
  subst e
  refine keeps_feedPresentTimer ?_
  assumption

theorem keeps_laneSrcSwitch {s t : State} (h : Keeps s t) :
    Keeps s (laneSrcSwitch t) := by
  unfold laneSrcSwitch
  refine Keeps.ite ?_ ?_
  · refine Keeps.same (t := t) ?_ rfl rfl rfl
    assumption
  · assumption

theorem keeps_otWarnRearm {s t : State} {a0 : _} (h : Keeps s t) :
    Keeps s (otWarnRearm a0 t) := by
  unfold otWarnRearm
  extract_lets +onlyGivenNames x1
  have hx1 : Keeps s x1 := ?_
  · clear_value x1
    refine Keeps.ite ?_ ?_
    · refine Keeps.same (t := x1) ?_ rfl rfl rfl
      assumption
    · assumption
  · unfold x1
    refine keeps_State_wr ?_
    assumption

theorem keeps_jtagReset {s t : State} (h : Keeps s t) :
    Keeps s (jtagReset t) := by
  unfold jtagReset
  refine Keeps.ite ?_ ?_
  · refine keeps_State_resetModule ?_
    assumption
  · assumption

theorem keeps_execPwrPlWrite {s t : State} {a0 : _} {a1 : _} {u : State} (h : Keeps s t)
    (e : execPwrPlWrite a0 a1 t = .next u) : Keeps s u := by
  unfold execPwrPlWrite at e
  injection e with e
  subst e
  refine keeps_State_arrive (fun u1 hu1 => ?_) ?_
  · refine keeps_pwrPlWrite ?_
    assumption
  · assumption

theorem keeps_plChangeDone {s t : State} (h : Keeps s t) :
    Keeps s (plChangeDone t) := by
  unfold plChangeDone
  refine Keeps.ite ?_ ?_
  · extract_lets +onlyGivenNames x1
    extract_lets +onlyGivenNames x2
    have hx2 : Keeps s x2 := ?_
    · skip
      refine Keeps.ite ?_ ?_
      · refine keeps_State_wr ?_
        assumption
      · refine Keeps.same (t := x2) ?_ rfl rfl rfl
        assumption
    · unfold x2
      refine Keeps.same (t := t) ?_ rfl rfl rfl
      assumption
  · assumption

theorem keeps_execPlChangeDone {s t : State} {u : State} (h : Keeps s t)
    (e : execPlChangeDone t = .next u) : Keeps s u := by
  unfold execPlChangeDone at e
  injection e with e
  subst e
  refine keeps_plChangeDone ?_
  assumption

theorem keeps_execHoldupExhausted {s t : State} {u : State} (h : Keeps s t)
    (e : execHoldupExhausted t = .next u) : Keeps s u := by
  unfold execHoldupExhausted at e
  injection e with e
  subst e
  refine keeps_holdupExhausted ?_
  assumption

theorem keeps_execLaneSrcSwitch {s t : State} {u : State} (h : Keeps s t)
    (e : execLaneSrcSwitch t = .next u) : Keeps s u := by
  unfold execLaneSrcSwitch at e
  injection e with e
  subst e
  refine keeps_laneSrcSwitch ?_
  assumption

theorem keeps_execOtWarnRearm {s t : State} {a0 : _} {u : State} (h : Keeps s t)
    (e : execOtWarnRearm a0 t = .next u) : Keeps s u := by
  unfold execOtWarnRearm at e
  injection e with e
  subst e
  refine keeps_otWarnRearm ?_
  assumption

theorem keeps_execJtagReset {s t : State} {u : State} (h : Keeps s t)
    (e : execJtagReset t = .next u) : Keeps s u := by
  unfold execJtagReset at e
  injection e with e
  subst e
  refine keeps_jtagReset ?_
  assumption

theorem keeps_execStrapSample {s t : State} {a0 : _} {u : State} (h : Keeps s t)
    (e : execStrapSample a0 t = .next u) : Keeps s u := by
  unfold execStrapSample at e
  injection e with e
  subst e
  refine keeps_strapSample ?_
  assumption

theorem keeps_execThermalTrip {s t : State} {a0 : _} {u : State} (h : Keeps s t)
    (e : execThermalTrip a0 t = .next u) : Keeps s u := by
  unfold execThermalTrip at e
  injection e with e
  subst e
  refine keeps_thermalTrip ?_
  assumption

theorem keeps_execVhearthFault {s t : State} {u : State} (h : Keeps s t)
    (e : execVhearthFault t = .next u) : Keeps s u := by
  unfold execVhearthFault at e
  injection e with e
  subst e
  refine keeps_vhearthFault ?_
  assumption

theorem keeps_vlogRise {s t : State} {a0 : _} {a1 : _} (h : Keeps s t) :
    Keeps s (vlogRise a0 a1 t) := by
  unfold vlogRise
  refine Keeps.ite ?_ ?_
  · extract_lets +onlyGivenNames x1
    have hx1 : Keeps s x1 := ?_
    · clear_value x1
      extract_lets +onlyGivenNames x2
      have hx2 : Keeps s x2 := ?_
      · clear_value x2
        refine Keeps.same0 (t := x2) ?_ rfl rfl rfl
        assumption
      · unfold x2
        refine keeps_State_wr ?_
        refine keeps_State_wr ?_
        assumption
    · unfold x1
      refine keeps_State_wr ?_
      refine keeps_State_wr ?_
      refine keeps_State_wr ?_
      assumption
  · assumption

theorem keeps_execVlogRise {s t : State} {a0 : _} {a1 : _} {u : State} (h : Keeps s t)
    (e : execVlogRise a0 a1 t = .next u) : Keeps s u := by
  unfold execVlogRise at e
  injection e with e
  subst e
  refine keeps_vlogRise ?_
  assumption

theorem keeps_sysClkWrite {s t : State} {a0 : _} {a1 : _} (h : Keeps s t) :
    Keeps s (sysClkWrite a0 a1 t) := by
  unfold sysClkWrite
  extract_lets +onlyGivenNames x1
  clear_value x1
  extract_lets +onlyGivenNames x2
  clear_value x2
  refine Keeps.ite ?_ ?_
  · assumption
  · refine Keeps.ite ?_ ?_
    · refine keeps_State_wr ?_
      assumption
    · extract_lets +onlyGivenNames x3
      have hx3 : Keeps s x3 := ?_
      · clear_value x3
        extract_lets +onlyGivenNames x4
        have hx4 : Keeps s x4 := ?_
        · clear_value x4
          extract_lets +onlyGivenNames x5
          have hx5 : Keeps s x5 := ?_
          · clear_value x5
            refine Keeps.same (t := x5) ?_ rfl rfl rfl
            assumption
          · unfold x5
            refine Keeps.ite ?_ ?_
            · refine keeps_State_wr ?_
              assumption
            · assumption
        · unfold x4
          refine Keeps.ite ?_ ?_
          · assumption
          · refine keeps_State_wr ?_
            assumption
      · unfold x3
        refine keeps_State_wr ?_
        refine keeps_State_wr ?_
        assumption

theorem keeps_execSysClkWrite {s t : State} {a0 : _} {a1 : _} {u : State} (h : Keeps s t)
    (e : execSysClkWrite a0 a1 t = .next u) : Keeps s u := by
  unfold execSysClkWrite at e
  injection e with e
  subst e
  refine keeps_State_arrive (fun u1 hu1 => ?_) ?_
  · refine keeps_sysClkWrite ?_
    assumption
  · assumption

theorem keeps_State_releaseLanes {s t : State} (h : Keeps s t) :
    Keeps s (State.releaseLanes t) := by
  unfold State.releaseLanes
  extract_lets +onlyGivenNames x1
  clear_value x1
  refine Keeps.same (t := t) ?_ rfl rfl rfl
  assumption

theorem keeps_State_bootShow {s t : State} {a1 : _} (h : Keeps s t) :
    Keeps s (State.bootShow t a1) := by
  unfold State.bootShow
  extract_lets +onlyGivenNames x1
  have hx1 : Keeps s x1 := ?_
  · clear_value x1
    split
    · assumption
    · refine keeps_State_wr ?_
      refine keeps_State_wr ?_
      refine keeps_State_wr ?_
      refine keeps_State_wr ?_
      assumption
  · unfold x1
    refine keeps_State_wr ?_
    refine keeps_State_wr ?_
    refine keeps_State_wr ?_
    assumption

theorem keeps_State_bootRecWrite {s t : State} {a1 : _} {a2 : _} {a3 : _} {a4 : _} (h : Keeps s t) :
    Keeps s (State.bootRecWrite t a1 a2 a3 a4) := by
  unfold State.bootRecWrite
  extract_lets +onlyGivenNames x1
  clear_value x1
  extract_lets +onlyGivenNames x2
  clear_value x2
  extract_lets +onlyGivenNames x3
  clear_value x3
  extract_lets +onlyGivenNames x4
  clear_value x4
  refine keeps_State_setBytes ?_
  assumption

theorem keeps_sysBootConfirm {s t : State} {a0 : _} {a1 : _} (h : Keeps s t) :
    Keeps s (sysBootConfirm a0 a1 t) := by
  unfold sysBootConfirm
  refine Keeps.ite ?_ ?_
  · extract_lets +onlyGivenNames x1
    have hx1 : Keeps s x1 := ?_
    · clear_value x1
      extract_lets +onlyGivenNames x2
      clear_value x2
      extract_lets +onlyGivenNames x3
      have hx3 : Keeps s x3 := ?_
      · clear_value x3
        refine Keeps.ite ?_ ?_
        · refine Keeps.same (t := x3) ?_ rfl rfl rfl
          assumption
        · assumption
      · unfold x3
        refine keeps_State_bootRecWrite ?_
        assumption
    · unfold x1
      refine keeps_State_wr ?_
      assumption
  · assumption

theorem keeps_execSysBootConfirm {s t : State} {a0 : _} {a1 : _} {u : State} (h : Keeps s t)
    (e : execSysBootConfirm a0 a1 t = .next u) : Keeps s u := by
  unfold execSysBootConfirm at e
  injection e with e
  subst e
  refine keeps_State_arrive (fun u1 hu1 => ?_) ?_
  · refine keeps_sysBootConfirm ?_
    assumption
  · assumption

theorem keeps_State_startMp {s t : State} {a1 : _} (h : Keeps s t) :
    Keeps s (State.startMp t a1) := by
  unfold State.startMp
  refine Keeps.same (t := t) ?_ rfl rfl rfl
  assumption

theorem keeps_State_copySram {s t : State} {a1 : _} (h : Keeps s t) :
    Keeps s (State.copySram t a1) := by
  unfold State.copySram
  extract_lets +onlyGivenNames x1
  clear_value x1
  refine Keeps.same (t := t) ?_ rfl rfl rfl
  assumption

theorem keeps_tinderBootDone {s t : State} (h : Keeps s t) :
    Keeps s (tinderBootDone t) := by
  unfold tinderBootDone
  refine Keeps.ite ?_ ?_
  · assumption
  · extract_lets +onlyGivenNames x1
    clear_value x1
    extract_lets +onlyGivenNames x2
    clear_value x2
    extract_lets +onlyGivenNames x3
    have hx3 : Keeps s x3 := ?_
    · clear_value x3
      extract_lets +onlyGivenNames x4
      have hx4 : Keeps s x4 := ?_
      · clear_value x4
        extract_lets +onlyGivenNames x5
        have hx5 : Keeps s x5 := ?_
        · clear_value x5
          extract_lets +onlyGivenNames x6
          extract_lets +onlyGivenNames x7
          have hx7 : Keeps s x7 := ?_
          · clear_value x7
            split
            · extract_lets +onlyGivenNames x8
              have hx8 : Keeps s x8 := ?_
              · clear_value x8
                refine Keeps.same (t := x8) ?_ rfl rfl rfl
                assumption
              · unfold x8
                refine keeps_State_wr ?_
                assumption
            · extract_lets +onlyGivenNames x9
              have hx9 : Keeps s x9 := ?_
              · clear_value x9
                extract_lets +onlyGivenNames x10
                extract_lets +onlyGivenNames x11
                have hx11 : Keeps s x11 := ?_
                · clear_value x11
                  extract_lets +onlyGivenNames x12
                  have hx12 : Keeps s x12 := ?_
                  · clear_value x12
                    extract_lets +onlyGivenNames x13
                    have hx13 : Keeps s x13 := ?_
                    · clear_value x13
                      refine keeps_State_releaseLanes ?_
                      assumption
                    · unfold x13
                      refine keeps_State_consoleLine ?_
                      refine keeps_State_wr ?_
                      refine keeps_State_setPhase ?_
                      assumption
                  · unfold x12
                    refine keeps_State_recNoteWrite ?_
                    refine keeps_State_startMp ?_
                    refine keeps_State_copySram ?_
                    assumption
                · unfold x11
                  refine Keeps.same (t := x9) ?_ rfl rfl rfl
                  assumption
              · unfold x9
                refine keeps_State_calDram ?_
                assumption
          · unfold x7
            refine Keeps.same (t := x5) ?_ rfl rfl rfl
            assumption
        · unfold x5
          refine keeps_State_wr ?_
          refine keeps_State_wr ?_
          assumption
      · unfold x4
        refine Keeps.ite ?_ ?_
        · assumption
        · refine keeps_State_bootRecWrite ?_
          assumption
    · unfold x3
      refine keeps_State_consoleLine ?_
      refine keeps_State_consoleLine ?_
      refine keeps_State_bootShow ?_
      assumption

theorem keeps_execTinderBootDone {s t : State} {u : State} (h : Keeps s t)
    (e : execTinderBootDone t = .next u) : Keeps s u := by
  unfold execTinderBootDone at e
  injection e with e
  subst e
  refine keeps_tinderBootDone ?_
  assumption

theorem keeps_laneEccClr {s t : State} {a0 : _} {a1 : _} (h : Keeps s t) :
    Keeps s (laneEccClr a0 a1 t) := by
  unfold laneEccClr
  refine Keeps.ite ?_ ?_
  · refine keeps_State_wr ?_
    refine keeps_State_wr ?_
    refine keeps_State_wr ?_
    assumption
  · assumption

theorem keeps_execLaneEccClr {s t : State} {a0 : _} {a1 : _} {u : State} (h : Keeps s t)
    (e : execLaneEccClr a0 a1 t = .next u) : Keeps s u := by
  unfold execLaneEccClr at e
  injection e with e
  subst e
  refine keeps_State_arrive (fun u1 hu1 => ?_) ?_
  · refine keeps_laneEccClr ?_
    assumption
  · assumption

theorem keeps_flueClr {s t : State} {a0 : _} {a1 : _} (h : Keeps s t) :
    Keeps s (flueClr a0 a1 t) := by
  unfold flueClr
  extract_lets +onlyGivenNames x1
  have hx1 : Keeps s x1 := ?_
  · clear_value x1
    refine Keeps.ite ?_ ?_
    · refine keeps_State_setReg ?_
      refine keeps_State_setReg ?_
      refine keeps_State_setReg ?_
      assumption
    · assumption
  · unfold x1
    refine Keeps.ite ?_ ?_
    · refine keeps_State_wr ?_
      assumption
    · assumption

theorem keeps_execFlueClr {s t : State} {a0 : _} {a1 : _} {u : State} (h : Keeps s t)
    (e : execFlueClr a0 a1 t = .next u) : Keeps s u := by
  unfold execFlueClr at e
  injection e with e
  subst e
  refine keeps_State_arrive (fun u1 hu1 => ?_) ?_
  · refine keeps_flueClr ?_
    assumption
  · assumption

theorem keeps_cordClr {s t : State} {a0 : _} {a1 : _} (h : Keeps s t) :
    Keeps s (cordClr a0 a1 t) := by
  unfold cordClr
  extract_lets +onlyGivenNames x1
  have hx1 : Keeps s x1 := ?_
  · clear_value x1
    refine Keeps.ite ?_ ?_
    · refine keeps_State_wr ?_
      refine keeps_State_wr ?_
      assumption
    · assumption
  · unfold x1
    refine Keeps.ite ?_ ?_
    · refine keeps_State_wr ?_
      refine keeps_State_wr ?_
      refine keeps_State_wr ?_
      assumption
    · assumption

theorem keeps_safeStateEntry {s t : State} {a0 : _} (h : Keeps s t) :
    Keeps s (safeStateEntry a0 t) := by
  unfold safeStateEntry
  refine keeps_State_enterSafe ?_
  assumption

theorem keeps_execSafeStateEntry {s t : State} {a0 : _} {u : State} (h : Keeps s t)
    (e : execSafeStateEntry a0 t = .next u) : Keeps s u := by
  unfold execSafeStateEntry at e
  injection e with e
  subst e
  refine keeps_safeStateEntry ?_
  assumption

theorem keeps_laneSafe {s t : State} {a0 : _} {a1 : _} (h : Keeps s t) :
    Keeps s (laneSafe a0 a1 t) := by
  unfold laneSafe
  refine Keeps.ite ?_ ?_
  · split
    · refine keeps_State_enterSafe ?_
      assumption
    · refine keeps_State_enterSafe ?_
      assumption
    · assumption
  · assumption

theorem keeps_execLaneSafe {s t : State} {a0 : _} {a1 : _} {u : State} (h : Keeps s t)
    (e : execLaneSafe a0 a1 t = .next u) : Keeps s u := by
  unfold execLaneSafe at e
  injection e with e
  subst e
  refine keeps_State_arrive (fun u1 hu1 => ?_) ?_
  · refine keeps_laneSafe ?_
    assumption
  · assumption

theorem keeps_execCordClr {s t : State} {a0 : _} {a1 : _} {u : State} (h : Keeps s t)
    (e : execCordClr a0 a1 t = .next u) : Keeps s u := by
  unfold execCordClr at e
  injection e with e
  subst e
  refine keeps_State_arrive (fun u1 hu1 => ?_) ?_
  · refine keeps_cordClr ?_
    assumption
  · assumption

theorem keeps_ringHalted {s t : State} {a0 : _} (h : Keeps s t) :
    Keeps s (ringHalted a0 t) := by
  unfold ringHalted
  extract_lets +onlyGivenNames x1
  clear_value x1
  refine Keeps.ite ?_ ?_
  · assumption
  · refine keeps_State_raiseRing ?_
    refine keeps_State_setCtx ?_
    assumption

theorem keeps_State_watchAll {s t : State} (h : Keeps s t) :
    Keeps s (State.watchAll t) := by
  unfold State.watchAll
  refine Keeps.foldl ?_ (fun u1 y2 hu1 => ?_)
  · assumption
  · refine keeps_State_watch ?_
    assumption

theorem keeps_ringCtxRead {s t : State} (h : Keeps s t) :
    Keeps s (ringCtxRead t) := by
  unfold ringCtxRead
  refine Keeps.foldl ?_ (fun u1 y2 hu1 => ?_)
  · assumption
  · refine keeps_State_setReg ?_
    assumption

theorem keeps_handleQuery {s t : State} {a0 : _} (h : Keeps s t) :
    Keeps s (handleQuery a0 t) := by
  unfold handleQuery
  refine keeps_State_doUnit (fun _ u1 hu1 => ?_) ?_
  · refine keeps_runHandleQuery ?_
    assumption
  · assumption

theorem keeps_execHandleQuery {s t : State} {a0 : _} {u : State} (h : Keeps s t)
    (e : execHandleQuery a0 t = .next u) : Keeps s u := by
  unfold execHandleQuery at e
  injection e with e
  subst e
  refine keeps_handleQuery ?_
  assumption

theorem keeps_execRingHalted {s t : State} {a0 : _} {u : State} (h : Keeps s t)
    (e : execRingHalted a0 t = .next u) : Keeps s u := by
  unfold execRingHalted at e
  injection e with e
  subst e
  refine keeps_ringHalted ?_
  assumption

theorem keeps_State_ringSetupCheck {s t : State} (h : Keeps s t) :
    Keeps s (State.ringSetupCheck t).2 := by
  refine KeepsS.out ?_
  unfold State.ringSetupCheck
  split
  · refine KeepsS.pair ?_
    assumption
  · refine KeepsS.pair ?_
    refine keeps_State_raise ?_
    refine keeps_State_wr ?_
    refine keeps_State_wr ?_
    refine keeps_State_wr ?_
    assumption

theorem keeps_nop {s t : State} {a0 : _} (h : Keeps s t) :
    Keeps s (nop a0 t) := by
  unfold nop
  refine keeps_State_doUnit (fun _ u1 hu1 => ?_) ?_
  · refine keeps_runNop ?_
    assumption
  · assumption

theorem keeps_execRingCtxRead {s t : State} {u : State} (h : Keeps s t)
    (e : execRingCtxRead t = .next u) : Keeps s u := by
  unfold execRingCtxRead at e
  injection e with e
  subst e
  refine keeps_ringCtxRead ?_
  assumption

theorem keeps_ringCtxWrite {s t : State} (h : Keeps s t) :
    Keeps s (ringCtxWrite t) := by
  unfold ringCtxWrite
  refine Keeps.ite ?_ ?_
  · refine keeps_State_wr ?_
    assumption
  · extract_lets +onlyGivenNames x1
    clear_value x1
    extract_lets +onlyGivenNames x2
    clear_value x2
    extract_lets +onlyGivenNames x3
    have hx3 : Keeps s x3 := ?_
    · clear_value x3
      extract_lets +onlyGivenNames x4
      clear_value x4
      extract_lets +onlyGivenNames x5
      have hx5 : Keeps s x5 := ?_
      · clear_value x5
        refine Keeps.ite ?_ ?_
        · refine keeps_State_busWrite ?_
          assumption
        · assumption
      · unfold x5
        refine Keeps.same (t := x3) ?_ rfl rfl rfl
        assumption
    · unfold x3
      refine keeps_State_setCtx ?_
      assumption

theorem keeps_execRingCtxWrite {s t : State} {u : State} (h : Keeps s t)
    (e : execRingCtxWrite t = .next u) : Keeps s u := by
  unfold execRingCtxWrite at e
  injection e with e
  subst e
  refine keeps_ringCtxWrite ?_
  assumption

theorem keeps_execNop {s t : State} {a0 : _} {u : State} (h : Keeps s t)
    (e : execNop a0 t = .next u) : Keeps s u := by
  unfold execNop at e
  injection e with e
  subst e
  refine keeps_nop ?_
  assumption

theorem keeps_State_ownerReset {s t : State} {a1 : _} {a2 : _} (h : Keeps s t) :
    Keeps s (State.ownerReset t a1 a2) := by
  unfold State.ownerReset
  extract_lets +onlyGivenNames x1
  clear_value x1
  extract_lets +onlyGivenNames x2
  clear_value x2
  refine Keeps.ite ?_ ?_
  · assumption
  · refine keeps_State_raise ?_
    refine Keeps.same (t := t) ?_ rfl rfl rfl
    assumption

theorem keeps_partAbandon {s t : State} {a0 : _} {a1 : _} (h : Keeps s t) :
    Keeps s (partAbandon a0 a1 t) := by
  unfold partAbandon
  refine Keeps.ite ?_ ?_
  · refine keeps_State_ownerReset ?_
    assumption
  · assumption

theorem keeps_partMonClr {s t : State} {a0 : _} {a1 : _} (h : Keeps s t) :
    Keeps s (partMonClr a0 a1 t) := by
  unfold partMonClr
  refine Keeps.ite ?_ ?_
  · refine Keeps.same (t := t) ?_ rfl rfl rfl
    assumption
  · assumption

theorem keeps_State_partSetupCheck {s t : State} (h : Keeps s t) :
    Keeps s (State.partSetupCheck t).2 := by
  refine KeepsS.out ?_
  unfold State.partSetupCheck
  split
  · refine KeepsS.pair ?_
    refine keeps_State_raise ?_
    refine keeps_State_wr ?_
    refine keeps_State_wr ?_
    refine keeps_State_wr ?_
    assumption
  · split
    · refine KeepsS.pair ?_
      refine keeps_State_raise ?_
      refine keeps_State_wr ?_
      refine keeps_State_wr ?_
      refine keeps_State_wr ?_
      assumption
    · refine KeepsS.pair ?_
      assumption

theorem keeps_execPartAbandon {s t : State} {a0 : _} {a1 : _} {u : State} (h : Keeps s t)
    (e : execPartAbandon a0 a1 t = .next u) : Keeps s u := by
  unfold execPartAbandon at e
  injection e with e
  subst e
  refine keeps_State_arrive (fun u1 hu1 => ?_) ?_
  · refine keeps_partAbandon ?_
    assumption
  · assumption

end Machine
end Sys2Proof
end

