-- ==== Sys2Proof/Laws/Keeps03.lean ====
section
/-!
SUPPORT. Keeps of the operations of Part, TbOps, SigOps, Signal, Gateway.
-/

set_option Elab.async false

namespace Sys2Proof
namespace Machine

theorem keeps_State_setLock {s t : State} {a1 : _} {a2 : _} (h : Keeps s t) :
    Keeps s (State.setLock t a1 a2) := by
  unfold State.setLock
  refine Keeps.same (t := t) ?_ rfl rfl rfl
  assumption

theorem keeps_State_lockError {s t : State} {a1 : _} {a2 : _} {a3 : _} (h : Keeps s t) :
    Keeps s (State.lockError t a1 a2 a3) := by
  unfold State.lockError
  extract_lets +onlyGivenNames x1
  have hx1 : Keeps s x1 := ?_
  · clear_value x1
    refine keeps_State_raise ?_
    assumption
  · unfold x1
    refine Keeps.ite ?_ ?_
    · assumption
    · refine keeps_State_wr ?_
      refine keeps_State_wr ?_
      refine keeps_State_wr ?_
      refine keeps_State_wr ?_
      assumption

theorem keeps_State_lockRead {s t : State} {a1 : _} {a2 : _} (h : Keeps s t) :
    Keeps s (State.lockRead t a1 a2).2 := by
  refine KeepsS.out ?_
  unfold State.lockRead
  extract_lets +onlyGivenNames x1
  clear_value x1
  extract_lets +onlyGivenNames x2
  clear_value x2
  refine KeepsS.ite ?_ ?_
  · refine KeepsS.pair ?_
    refine keeps_State_lockError ?_
    assumption
  · split
    · refine KeepsS.pair ?_
      assumption
    · refine KeepsS.pair ?_
      refine keeps_State_setLock ?_
      assumption
    · refine KeepsS.pair ?_
      refine keeps_State_setLock ?_
      assumption

theorem keeps_lockAcquire {s t : State} {a0 : _} {a1 : _} (h : Keeps s t) :
    Keeps s (lockAcquire a0 a1 t) := by
  unfold lockAcquire
  extract_lets +onlyGivenNames x1
  have hx1 : Keeps s x1.2 := ?_
  · clear_value x1
    extract_lets +onlyGivenNames x2
    have hx2 : Keeps s x2 := ?_
    · clear_value x2
      refine Keeps.same (t := x2) ?_ rfl rfl rfl
      assumption
    · unfold x2
      assumption
  · unfold x1
    refine keeps_State_lockRead ?_
    assumption

theorem keeps_lockRelease {s t : State} {a0 : _} {a1 : _} {a2 : _} (h : Keeps s t) :
    Keeps s (lockRelease a0 a1 a2 t) := by
  unfold lockRelease
  refine Keeps.ite ?_ ?_
  · assumption
  · refine Keeps.ite ?_ ?_
    · refine keeps_State_setLock ?_
      assumption
    · refine keeps_State_lockError ?_
      assumption

theorem keeps_execLockRelease {s t : State} {a0 : _} {a1 : _} {a2 : _} {u : State} (h : Keeps s t)
    (e : execLockRelease a0 a1 a2 t = .next u) : Keeps s u := by
  unfold execLockRelease at e
  injection e with e
  subst e
  refine keeps_State_arrive (fun u1 hu1 => ?_) ?_
  · refine keeps_lockRelease ?_
    assumption
  · assumption

theorem keeps_execPartMonClr {s t : State} {a0 : _} {a1 : _} {u : State} (h : Keeps s t)
    (e : execPartMonClr a0 a1 t = .next u) : Keeps s u := by
  unfold execPartMonClr at e
  injection e with e
  subst e
  refine keeps_State_arrive (fun u1 hu1 => ?_) ?_
  · refine keeps_partMonClr ?_
    assumption
  · assumption

theorem keeps_execLockAcquire {s t : State} {a0 : _} {a1 : _} {u : State} (h : Keeps s t)
    (e : execLockAcquire a0 a1 t = .next u) : Keeps s u := by
  unfold execLockAcquire at e
  injection e with e
  subst e
  refine keeps_lockAcquire ?_
  assumption

theorem keeps_State_ptoSet {s t : State} {a1 : _} {a2 : _} {a3 : _} (h : Keeps s t) :
    Keeps s (State.ptoSet t a1 a2 a3) := by
  unfold State.ptoSet
  refine keeps_State_wr64 ?_
  refine keeps_State_wr ?_
  assumption

theorem keeps_State_syncEdge {s t : State} (h : Keeps s t) :
    Keeps s (State.syncEdge t) := by
  unfold State.syncEdge
  extract_lets +onlyGivenNames x1
  clear_value x1
  extract_lets +onlyGivenNames x2
  clear_value x2
  extract_lets +onlyGivenNames x3
  extract_lets +onlyGivenNames x4
  have hx4 : Keeps s x4 := ?_
  · clear_value x4
    extract_lets +onlyGivenNames x5
    have hx5 : Keeps s x5 := ?_
    · clear_value x5
      extract_lets +onlyGivenNames x6
      have hx6 : Keeps s x6 := ?_
      · clear_value x6
        extract_lets +onlyGivenNames x7
        have hx7 : Keeps s x7 := ?_
        · clear_value x7
          refine Keeps.foldl ?_ (fun u8 y9 hu8 => ?_)
          · assumption
          · refine Keeps.ite ?_ ?_
            · refine keeps_State_ptoSet ?_
              assumption
            · assumption
        · unfold x7
          refine keeps_State_raise ?_
          assumption
      · unfold x6
        refine keeps_State_satAdd ?_
        assumption
    · unfold x5
      refine keeps_State_wr ?_
      refine keeps_State_wr64 ?_
      assumption
  · unfold x4
    refine Keeps.same (t := t) ?_ rfl rfl rfl
    assumption

theorem keeps_State_tbRefuse {s t : State} {a1 : _} {a2 : _} (h : Keeps s t) :
    Keeps s (State.tbRefuse t a1 a2) := by
  unfold State.tbRefuse
  refine keeps_State_raise ?_
  refine keeps_State_wr ?_
  refine keeps_State_wr ?_
  assumption

theorem keeps_State_tbApply {s t : State} {a1 : _} {a2 : _} (h : Keeps s t) : Keeps s (State.tbApply t a1 a2) := by
  have hd : ∀ (o : BitVec 104) (i : Nat) (w v : Nat), (BitVec.ofNat 48 i = t.tb.incr ∨ (incrMin ≤ i ∧ i ≤ incrMax)) →
      Keeps s (((t.setConv a2 o (BitVec.ofNat 48 i)).wr64 Reg.TB_APPLY_RAW_LO
        Reg.TB_APPLY_RAW_HI w).raise 192 [w32 v, w32 w, w32 (w / 2 ^ 32)]) := by
    intro o i w v hi
    refine keeps_State_raise (keeps_State_wr64 (keeps_State_setConv h ?_))
    rcases hi with hi | hi
    · exact .inl hi
    · have : i < 2 ^ 48 := Nat.lt_of_le_of_lt hi.2 (by decide)
      rw [BitVec.toNat_ofNat, Nat.mod_eq_of_lt this]
      exact .inr hi
  unfold State.tbApply
  extract_lets +onlyGivenNames ofs incr x v back done
  split
  · split
    · exact keeps_State_tbRefuse h
    · rename_i hx
      refine hd _ _ _ _ (.inr ?_)
      exact ⟨Nat.le_of_not_lt fun y => hx (.inr (.inl y)), Nat.le_of_not_lt fun y => hx (.inr (.inr y))⟩
  · split
    · exact keeps_State_tbRefuse h
    · split
      · exact keeps_State_tbRefuse h
      · exact hd _ _ _ _ (.inl (BitVec.ofNat_toNat ..))
  · split
    · exact keeps_State_tbRefuse h
    · split
      · exact keeps_State_tbRefuse h
      · exact hd _ _ _ _ (.inl (BitVec.ofNat_toNat ..))
  · exact h

theorem keeps_State_setGen {s t : State} {a1 : _} {a2 : _} (h : Keeps s t) :
    Keeps s (State.setGen t a1 a2) := by
  unfold State.setGen
  refine Keeps.same (t := t) ?_ rfl rfl rfl
  assumption

theorem keeps_State_ptoArmAt {s t : State} {a1 : _} {a2 : _} {a3 : _} {a4 : _} (h : Keeps s t) :
    Keeps s (State.ptoArmAt t a1 a2 a3 a4) := by
  unfold State.ptoArmAt
  extract_lets +onlyGivenNames x1
  clear_value x1
  extract_lets +onlyGivenNames x2
  have hx2 : Keeps s x2 := ?_
  · clear_value x2
    refine keeps_State_ptoSet ?_
    assumption
  · unfold x2
    refine keeps_State_setGen ?_
    assumption

theorem keeps_State_setTsQueue {s t : State} {a1 : _} {a2 : _} (h : Keeps s t) :
    Keeps s (State.setTsQueue t a1 a2) := by
  unfold State.setTsQueue
  refine keeps_State_wr ?_
  refine Keeps.same (t := t) ?_ rfl rfl rfl
  assumption

theorem keeps_State_tsqPut {s t : State} {a1 : _} {a2 : _} {a3 : _} (h : Keeps s t) :
    Keeps s (State.tsqPut t a1 a2 a3) := by
  unfold State.tsqPut
  extract_lets +onlyGivenNames x1
  clear_value x1
  refine Keeps.ite ?_ ?_
  · extract_lets +onlyGivenNames x2
    have hx2 : Keeps s x2 := ?_
    · clear_value x2
      refine keeps_State_raise ?_
      assumption
    · unfold x2
      refine keeps_State_satAdd ?_
      refine keeps_State_wr ?_
      assumption
  · refine keeps_State_setTsQueue ?_
    assumption

theorem keeps_State_tbStage {s t : State} {a1 : _} {a2 : _} {a3 : _} (h : Keeps s t) :
    Keeps s (State.tbStage t a1 a2 a3) := by
  unfold State.tbStage
  refine Keeps.ite ?_ ?_
  · refine keeps_State_setReg ?_
    assumption
  · refine keeps_State_tbRefuse ?_
    assumption

theorem keeps_State_tbSetupCheck {s t : State} (h : Keeps s t) :
    Keeps s (State.tbSetupCheck t).2 := by
  refine KeepsS.out ?_
  unfold State.tbSetupCheck
  split
  · refine KeepsS.pair ?_
    assumption
  · refine KeepsS.pair ?_
    refine keeps_State_raise ?_
    refine keeps_State_wr ?_
    refine keeps_State_wr ?_
    assumption

theorem keeps_tbCancel {s t : State} {a0 : _} (h : Keeps s t) :
    Keeps s (tbCancel a0 t) := by
  unfold tbCancel
  refine Keeps.ite ?_ ?_
  · refine keeps_State_tbRefuse ?_
    assumption
  · refine Keeps.ite ?_ ?_
    · refine keeps_State_wr ?_
      refine Keeps.same (t := t) ?_ rfl rfl rfl
      assumption
    · assumption

theorem keeps_State_tbCommand {s t : State} {a1 : _} {a2 : _} {a3 : _} (h : Keeps s t) :
    Keeps s (State.tbCommand t a1 a2 a3) := by
  unfold State.tbCommand
  extract_lets +onlyGivenNames x1
  clear_value x1
  refine Keeps.ite ?_ ?_
  · refine keeps_State_tbRefuse ?_
    assumption
  · refine Keeps.ite ?_ ?_
    · refine keeps_State_tbRefuse ?_
      assumption
    · refine Keeps.ite ?_ ?_
      · refine keeps_State_tbApply ?_
        assumption
      · refine Keeps.ite ?_ ?_
        · refine keeps_State_tbRefuse ?_
          assumption
        · refine keeps_State_wr ?_
          refine Keeps.same (t := t) ?_ rfl rfl rfl
          assumption

theorem keeps_State_tbCmdWrite {s t : State} {a1 : _} {a2 : _} (h : Keeps s t) :
    Keeps s (State.tbCmdWrite t a1 a2) := by
  unfold State.tbCmdWrite
  split
  · refine keeps_tbCancel ?_
    assumption
  · refine keeps_State_tbCommand ?_
    assumption

theorem keeps_State_ptoLoad {s t : State} {a1 : _} (h : Keeps s t) :
    Keeps s (State.ptoLoad t a1) := by
  unfold State.ptoLoad
  refine keeps_State_ptoArmAt ?_
  assumption

theorem keeps_ptoSetupRearm {s t : State} {a0 : _} (h : Keeps s t) :
    Keeps s (ptoSetupRearm a0 t) := by
  unfold ptoSetupRearm
  refine Keeps.ite ?_ ?_
  · assumption
  · refine keeps_State_ptoLoad ?_
    assumption

theorem keeps_execPtoSetupRearm {s t : State} {a0 : _} {u : State} (h : Keeps s t)
    (e : execPtoSetupRearm a0 t = .next u) : Keeps s u := by
  unfold execPtoSetupRearm at e
  injection e with e
  subst e
  refine keeps_ptoSetupRearm ?_
  assumption

theorem keeps_State_ntLatch {s t : State} {a1 : _} (h : Keeps s t) :
    Keeps s (State.ntLatch t a1) := by
  unfold State.ntLatch
  extract_lets +onlyGivenNames x1
  clear_value x1
  refine Keeps.same (t := t) ?_ rfl rfl rfl
  assumption

theorem keeps_tbNtLatch {s t : State} {a0 : _} (h : Keeps s t) :
    Keeps s (tbNtLatch a0 t) := by
  unfold tbNtLatch
  extract_lets +onlyGivenNames x1
  have hx1 : Keeps s x1 := ?_
  · clear_value x1
    refine Keeps.same (t := x1) ?_ rfl rfl rfl
    assumption
  · unfold x1
    refine keeps_State_ntLatch ?_
    assumption

theorem keeps_tbSetNt {s t : State} {a0 : _} {a1 : _} (h : Keeps s t) :
    Keeps s (tbSetNt a0 a1 t) := by
  unfold tbSetNt
  refine keeps_State_tbCommand ?_
  assumption

theorem keeps_execTbNtLatch {s t : State} {a0 : _} {u : State} (h : Keeps s t)
    (e : execTbNtLatch a0 t = .next u) : Keeps s u := by
  unfold execTbNtLatch at e
  injection e with e
  subst e
  refine keeps_tbNtLatch ?_
  assumption

theorem keeps_tbPllLost {s t : State} (h : Keeps s t) :
    Keeps s (tbPllLost t) := by
  unfold tbPllLost
  refine Keeps.ite ?_ ?_
  · refine keeps_State_enterSafe ?_
    refine keeps_State_raise ?_
    refine keeps_State_wr ?_
    assumption
  · refine Keeps.ite ?_ ?_
    · refine keeps_State_raise ?_
      refine keeps_State_wr ?_
      assumption
    · assumption

theorem keeps_tbSetIncr {s t : State} {a0 : _} {a1 : _} (h : Keeps s t) :
    Keeps s (tbSetIncr a0 a1 t) := by
  unfold tbSetIncr
  refine keeps_State_tbCommand ?_
  assumption

theorem keeps_tbAtApply {s t : State} (h : Keeps s t) :
    Keeps s (tbAtApply t) := by
  unfold tbAtApply
  split
  · assumption
  · refine Keeps.ite ?_ ?_
    · refine keeps_State_tbApply ?_
      refine keeps_State_wr ?_
      refine Keeps.same (t := t) ?_ rfl rfl rfl
      assumption
    · assumption

theorem keeps_State_ptoFires {s t : State} {a1 : _} (h : Keeps s t) :
    Keeps s (State.ptoFires t a1) := by
  unfold State.ptoFires
  extract_lets +onlyGivenNames x1
  clear_value x1
  extract_lets +onlyGivenNames x2
  clear_value x2
  extract_lets +onlyGivenNames x3
  clear_value x3
  extract_lets +onlyGivenNames x4
  clear_value x4
  extract_lets +onlyGivenNames x5
  clear_value x5
  extract_lets +onlyGivenNames x6
  have hx6 : Keeps s x6 := ?_
  · clear_value x6
    extract_lets +onlyGivenNames x7
    have hx7 : Keeps s x7 := ?_
    · clear_value x7
      extract_lets +onlyGivenNames x8
      have hx8 : Keeps s x8 := ?_
      · clear_value x8
        extract_lets +onlyGivenNames x9
        have hx9 : Keeps s x9 := ?_
        · clear_value x9
          refine keeps_State_ptoSet ?_
          assumption
        · unfold x9
          refine Keeps.ite ?_ ?_
          · refine keeps_State_raise ?_
            assumption
          · assumption
      · unfold x8
        refine keeps_State_satAdd ?_
        assumption
    · unfold x7
      refine keeps_State_wr ?_
      assumption
  · unfold x6
    refine keeps_State_setGen ?_
    assumption

theorem keeps_execTbPllLost {s t : State} {u : State} (h : Keeps s t)
    (e : execTbPllLost t = .next u) : Keeps s u := by
  unfold execTbPllLost at e
  injection e with e
  subst e
  refine keeps_tbPllLost ?_
  assumption

theorem keeps_execTbSetNt {s t : State} {a0 : _} {a1 : _} {u : State} (h : Keeps s t)
    (e : execTbSetNt a0 a1 t = .next u) : Keeps s u := by
  unfold execTbSetNt at e
  injection e with e
  subst e
  refine keeps_State_arrive (fun u1 hu1 => ?_) ?_
  · refine keeps_tbSetNt ?_
    assumption
  · assumption

theorem keeps_runTsqRead {s t : State} {a0 : _} (h : Keeps s t) :
    Keeps s (runTsqRead a0 t).1 := by
  refine KeepsF.out ?_
  unfold runTsqRead
  extract_lets +onlyGivenNames x1
  clear_value x1
  extract_lets +onlyGivenNames x2
  clear_value x2
  extract_lets +onlyGivenNames x3
  clear_value x3
  refine KeepsF.ite ?_ ?_
  · refine KeepsF.pair ?_
    assumption
  · refine KeepsF.ite ?_ ?_
    · refine KeepsF.pair ?_
      assumption
    · extract_lets +onlyGivenNames x4
      clear_value x4
      extract_lets +onlyGivenNames x5
      clear_value x5
      extract_lets +onlyGivenNames x6
      clear_value x6
      extract_lets +onlyGivenNames x7
      have hx7 : Keeps s x7 := ?_
      · clear_value x7
        extract_lets +onlyGivenNames x8
        have hx8 : Keeps s x8 := ?_
        · clear_value x8
          extract_lets +onlyGivenNames x9
          have hx9 : Keeps s x9 := ?_
          · clear_value x9
            refine KeepsF.pair ?_
            assumption
          · unfold x9
            refine Keeps.ite ?_ ?_
            · refine keeps_State_wr ?_
              assumption
            · assumption
        · unfold x8
          refine keeps_State_setTsQueue ?_
          assumption
      · unfold x7
        refine keeps_State_outBuf ?_
        assumption

theorem keeps_tsqRead {s t : State} (h : Keeps s t) :
    Keeps s (tsqRead t) := by
  unfold tsqRead
  refine keeps_State_doShort (fun _ u1 hu1 => ?_) ?_
  · refine keeps_runTsqRead ?_
    assumption
  · assumption

theorem keeps_execTsqRead {s t : State} {u : State} (h : Keeps s t)
    (e : execTsqRead t = .next u) : Keeps s u := by
  unfold execTsqRead at e
  injection e with e
  subst e
  refine keeps_tsqRead ?_
  assumption

theorem keeps_runPtoArm {s t : State} {a0 : _} (h : Keeps s t) :
    Keeps s (runPtoArm a0 t).1 := by
  refine KeepsF.out ?_
  unfold runPtoArm
  extract_lets +onlyGivenNames x1
  extract_lets +onlyGivenNames x2
  clear_value x2
  extract_lets +onlyGivenNames x3
  clear_value x3
  extract_lets +onlyGivenNames x4
  extract_lets +onlyGivenNames x5
  refine KeepsF.ite ?_ ?_
  · refine KeepsF.pair ?_
    assumption
  · refine KeepsF.ite ?_ ?_
    · refine KeepsF.pair ?_
      assumption
    · refine KeepsF.ite ?_ ?_
      · refine KeepsF.pair ?_
        assumption
      · refine KeepsF.pair ?_
        refine keeps_State_ptoArmAt ?_
        assumption

theorem keeps_ptoArm {s t : State} (h : Keeps s t) :
    Keeps s (ptoArm t) := by
  unfold ptoArm
  refine keeps_State_doShort (fun _ u1 hu1 => ?_) ?_
  · refine keeps_runPtoArm ?_
    assumption
  · assumption

theorem keeps_tbAddOfs {s t : State} {a0 : _} {a1 : _} (h : Keeps s t) :
    Keeps s (tbAddOfs a0 a1 t) := by
  unfold tbAddOfs
  refine keeps_State_tbCommand ?_
  assumption

theorem keeps_execTbAddOfs {s t : State} {a0 : _} {a1 : _} {u : State} (h : Keeps s t)
    (e : execTbAddOfs a0 a1 t = .next u) : Keeps s u := by
  unfold execTbAddOfs at e
  injection e with e
  subst e
  refine keeps_State_arrive (fun u1 hu1 => ?_) ?_
  · refine keeps_tbAddOfs ?_
    assumption
  · assumption

theorem keeps_execTbAtApply {s t : State} {u : State} (h : Keeps s t)
    (e : execTbAtApply t = .next u) : Keeps s u := by
  unfold execTbAtApply at e
  injection e with e
  subst e
  refine keeps_tbAtApply ?_
  assumption

theorem keeps_execTbCancel {s t : State} {a0 : _} {u : State} (h : Keeps s t)
    (e : execTbCancel a0 t = .next u) : Keeps s u := by
  unfold execTbCancel at e
  injection e with e
  subst e
  refine keeps_State_arrive (fun u1 hu1 => ?_) ?_
  · refine keeps_tbCancel ?_
    assumption
  · assumption

theorem keeps_State_ptoLock {s t : State} (h : Keeps s t) :
    Keeps s (State.ptoLock t) := by
  unfold State.ptoLock
  refine Keeps.foldl ?_ (fun u1 y2 hu1 => ?_)
  · assumption
  · refine Keeps.ite ?_ ?_
    · assumption
    · refine keeps_State_ptoLoad ?_
      assumption

theorem keeps_execPtoArm {s t : State} {u : State} (h : Keeps s t)
    (e : execPtoArm t = .next u) : Keeps s u := by
  unfold execPtoArm at e
  injection e with e
  subst e
  refine keeps_ptoArm ?_
  assumption

theorem keeps_State_tsqStamp {s t : State} {a1 : _} {a2 : _} {a3 : _} (h : Keeps s t) :
    Keeps s (State.tsqStamp t a1 a2 a3) := by
  unfold State.tsqStamp
  refine keeps_State_tsqPut ?_
  assumption

theorem keeps_ptoPulseEnd {s t : State} {a0 : _} (h : Keeps s t) :
    Keeps s (ptoPulseEnd a0 t) := by
  unfold ptoPulseEnd
  refine Keeps.ite ?_ ?_
  · refine keeps_State_wr ?_
    assumption
  · assumption

theorem keeps_execPtoPulseEnd {s t : State} {a0 : _} {u : State} (h : Keeps s t)
    (e : execPtoPulseEnd a0 t = .next u) : Keeps s u := by
  unfold execPtoPulseEnd at e
  injection e with e
  subst e
  refine keeps_ptoPulseEnd ?_
  assumption

theorem keeps_execTbSetIncr {s t : State} {a0 : _} {a1 : _} {u : State} (h : Keeps s t)
    (e : execTbSetIncr a0 a1 t = .next u) : Keeps s u := by
  unfold execTbSetIncr at e
  injection e with e
  subst e
  refine keeps_State_arrive (fun u1 hu1 => ?_) ?_
  · refine keeps_tbSetIncr ?_
    assumption
  · assumption

theorem keeps_State_queuePass {s t : State} {a1 : _} {a2 : _} (h : Keeps s t) :
    Keeps s (State.queuePass t a1 a2) := by
  unfold State.queuePass
  extract_lets +onlyGivenNames x1
  clear_value x1
  extract_lets +onlyGivenNames x2
  clear_value x2
  refine Keeps.same (t := t) ?_ rfl rfl rfl
  assumption

theorem keeps_State_setDs {s t : State} {a1 : _} {a2 : _} {a3 : _} {a4 : _} {a5 : _} {a6 : _} (h : Keeps s t) :
    Keeps s (State.setDs t a1 a2 a3 a4 a5 a6) := by
  unfold State.setDs
  extract_lets +onlyGivenNames x1
  clear_value x1
  refine keeps_State_busWrite ?_
  assumption

theorem keeps_State_dropGen {s t : State} {a1 : _} {a2 : _} (h : Keeps s t) :
    Keeps s (State.dropGen t a1 a2) := by
  unfold State.dropGen
  refine keeps_State_satAdd ?_
  refine keeps_State_setDs ?_
  assumption

theorem keeps_State_watchEnd {s t : State} {a1 : _} (h : Keeps s t) :
    Keeps s (State.watchEnd t a1) := by
  unfold State.watchEnd
  refine Keeps.foldl ?_ (fun u1 y2 hu1 => ?_)
  · assumption
  · refine Keeps.ite ?_ ?_
    · refine keeps_State_endLong ?_
      assumption
    · assumption

theorem keeps_State_gwPend {s t : State} {a1 : _} {a2 : _} (h : Keeps s t) :
    Keeps s (State.gwPend t a1 a2) := by
  unfold State.gwPend
  extract_lets +onlyGivenNames x1
  clear_value x1
  refine keeps_State_busWrite ?_
  assumption

theorem keeps_State_gwTrigger {s t : State} {a1 : _} (h : Keeps s t) :
    Keeps s (State.gwTrigger t a1) := by
  unfold State.gwTrigger
  refine Keeps.ite ?_ ?_
  · assumption
  · refine Keeps.foldl ?_ (fun u1 y2 hu1 => ?_)
    · assumption
    · refine Keeps.ite ?_ ?_
      · extract_lets +onlyGivenNames x3
        have hx3 : Keeps s x3 := ?_
        · clear_value x3
          refine Keeps.same (t := x3) ?_ rfl rfl rfl
          assumption
        · unfold x3
          refine keeps_State_gwPend ?_
          assumption
      · assumption

theorem keeps_State_publish {s t : State} {a1 : _} {a2 : _} {a3 : _} (h : Keeps s t) :
    Keeps s (State.publish t a1 a2 a3) := by
  unfold State.publish
  split
  · refine keeps_State_dropGen ?_
    assumption
  · extract_lets +onlyGivenNames x1
    have hx1 : Keeps s x1 := ?_
    · clear_value x1
      extract_lets +onlyGivenNames x2
      have hx2 : Keeps s x2 := ?_
      · clear_value x2
        extract_lets +onlyGivenNames x3
        have hx3 : Keeps s x3 := ?_
        · clear_value x3
          extract_lets +onlyGivenNames x4
          have hx4 : Keeps s x4 := ?_
          · clear_value x4
            refine keeps_State_pairPublished ?_
            refine keeps_State_watchEnd ?_
            refine keeps_State_gwTrigger ?_
            assumption
          · unfold x4
            refine Keeps.ite ?_ ?_
            · refine keeps_State_queuePass ?_
              assumption
            · assumption
        · unfold x3
          refine keeps_State_busWrite ?_
          assumption
      · unfold x2
        refine keeps_State_setDs ?_
        refine keeps_State_setDs ?_
        assumption
    · unfold x1
      refine keeps_State_busWrite ?_
      assumption

theorem keeps_State_unstale {s t : State} {a1 : _} (h : Keeps s t) :
    Keeps s (State.unstale t a1) := by
  unfold State.unstale
  refine Keeps.ite ?_ ?_
  · refine keeps_State_watchEnd ?_
    refine keeps_State_setDs ?_
    assumption
  · assumption

theorem keeps_State_putSlot {s t : State} {a1 : _} {a2 : _} (h : Keeps s t) :
    Keeps s (State.putSlot t a1 a2) := by
  unfold State.putSlot
  refine keeps_State_busWrite ?_
  assumption

theorem keeps_State_slotGen {s t : State} {a1 : _} {a2 : _} {a3 : _} {a4 : _} (h : Keeps s t) :
    Keeps s (State.slotGen t a1 a2 a3 a4) := by
  unfold State.slotGen
  extract_lets +onlyGivenNames x1
  clear_value x1
  extract_lets +onlyGivenNames x2
  clear_value x2
  refine keeps_State_putSlot ?_
  assumption

theorem keeps_State_forceNotice {s t : State} {a1 : _} (h : Keeps s t) :
    Keeps s (State.forceNotice t a1) := by
  unfold State.forceNotice
  refine Keeps.ite ?_ ?_
  · refine keeps_State_raise ?_
    refine keeps_State_wr ?_
    assumption
  · refine Keeps.ite ?_ ?_
    · refine keeps_State_raise ?_
      refine keeps_State_wr ?_
      assumption
    · assumption

theorem keeps_State_packValue {s t : State} {a1 : _} {a2 : _} (h : Keeps s t) :
    Keeps s (State.packValue t a1 a2).2.2 := by
  refine KeepsS2.out ?_
  unfold State.packValue
  split
  · extract_lets +onlyGivenNames x1
    clear_value x1
    refine KeepsS2.pair ?_
    assumption
  · refine KeepsS2.pair ?_
    assumption
  · split
    · extract_lets +onlyGivenNames x2
      have hx2 : Keeps s x2.2 := ?_
      · clear_value x2
        refine KeepsS2.pair ?_
        assumption
      · unfold x2
        refine keeps_State_draw ?_
        assumption
    · extract_lets +onlyGivenNames x3
      clear_value x3
      refine KeepsS2.pair ?_
      assumption
    · refine KeepsS2.pair ?_
      assumption
  · refine KeepsS2.pair ?_
    assumption
  · extract_lets +onlyGivenNames x4
    clear_value x4
    refine KeepsS2.pair ?_
    assumption

theorem keeps_State_doPass {s t : State} {a1 : _} (h : Keeps s t) :
    Keeps s (State.doPass t a1) := by
  unfold State.doPass
  extract_lets +onlyGivenNames x1
  clear_value x1
  extract_lets +onlyGivenNames x2
  clear_value x2
  extract_lets +onlyGivenNames x3
  have hx3 : Keeps s x3.2 := ?_
  · clear_value x3
    extract_lets +onlyGivenNames x4
    have hx4 : Keeps s x4 := ?_
    · clear_value x4
      refine Keeps.ite ?_ ?_
      · assumption
      · split
        · extract_lets +onlyGivenNames x5
          have hx5 : Keeps s x5.2 := ?_
          · clear_value x5
            refine Keeps.ite ?_ ?_
            · assumption
            · extract_lets +onlyGivenNames x6
              have hx6 : Keeps s x6 := ?_
              · clear_value x6
                extract_lets +onlyGivenNames x7
                clear_value x7
                extract_lets +onlyGivenNames x8
                clear_value x8
                extract_lets +onlyGivenNames x9
                clear_value x9
                extract_lets +onlyGivenNames x10
                have hx10 : Keeps s x10 := ?_
                · clear_value x10
                  refine keeps_State_unstale ?_
                  refine keeps_State_setDs ?_
                  refine keeps_State_setDs ?_
                  assumption
                · unfold x10
                  refine Keeps.foldl ?_ (fun u11 y12 hu11 => ?_)
                  · assumption
                  · refine keeps_State_slotGen ?_
                    assumption
              · unfold x6
                assumption
          · unfold x5
            refine keeps_State_readCheck ?_
            assumption
        · extract_lets +onlyGivenNames x13
          have hx13 : Keeps s x13.2 := ?_
          · clear_value x13
            extract_lets +onlyGivenNames x14
            have hx14 : Keeps s x14 := ?_
            · clear_value x14
              refine Keeps.ite ?_ ?_
              · extract_lets +onlyGivenNames x15
                clear_value x15
                extract_lets +onlyGivenNames x16
                clear_value x16
                refine Keeps.foldl ?_ (fun u17 y18 hu17 => ?_)
                · assumption
                · extract_lets +onlyGivenNames x19
                  clear_value x19
                  extract_lets +onlyGivenNames x20
                  clear_value x20
                  extract_lets +onlyGivenNames x21
                  clear_value x21
                  refine keeps_State_putSlot ?_
                  assumption
              · refine Keeps.foldl ?_ (fun u22 y23 hu22 => ?_)
                · assumption
                · refine keeps_State_putSlot ?_
                  assumption
            · unfold x14
              assumption
          · unfold x13
            refine KeepsS.out ?_
            refine KeepsS.ite ?_ ?_
            · refine ⟨?_⟩
              refine keeps_State_readCheck ?_
              assumption
            · refine KeepsS.pair ?_
              assumption
        · extract_lets +onlyGivenNames x24
          have hx24 : Keeps s x24 := ?_
          · clear_value x24
            refine keeps_State_setDs ?_
            assumption
          · unfold x24
            refine Keeps.foldl ?_ (fun u25 y26 hu25 => ?_)
            · assumption
            · refine keeps_State_putSlot ?_
              assumption
    · unfold x4
      assumption
  · unfold x3
    refine keeps_State_checkAll ?_
    assumption

theorem keeps_State_publishBytes {s t : State} {a1 : _} {a2 : _} (h : Keeps s t) :
    Keeps s (State.publishBytes t a1 a2) := by
  unfold State.publishBytes
  extract_lets +onlyGivenNames x1
  clear_value x1
  extract_lets +onlyGivenNames x2
  clear_value x2
  extract_lets +onlyGivenNames x3
  have hx3 : Keeps s x3 := ?_
  · clear_value x3
    refine keeps_State_unstale ?_
    refine keeps_State_publish ?_
    assumption
  · unfold x3
    refine Keeps.foldl ?_ (fun u4 y5 hu4 => ?_)
    · assumption
    · refine keeps_State_slotGen ?_
      assumption

theorem keeps_State_packSlot {s : State} {x : List Byte × Nat × State} {p : Nat × DWord} (h : Keeps s x.2.2) :
    Keeps s (State.packSlot x p).2.2 := by
  unfold State.packSlot
  exact keeps_State_packValue h

theorem keeps_State_publishBuilt {s t : State} {a1 : _} {a2 : _} (h : Keeps s t) : Keeps s (State.publishBuilt t a1 a2) := by
  unfold State.publishBuilt
  extract_lets +onlyGivenNames chk
  have h1 : Keeps s chk.2 := keeps_State_checkAll h
  clear_value chk
  split
  · exact h1
  split
  · exact keeps_State_dropGen h1
  · exact keeps_State_publishBytes (Keeps.foldl_snd2 h1 (fun _ _ hu => keeps_State_packSlot hu))

theorem keeps_State_publishValues {s t : State} {a1 : _} {a2 : _} {a3 : _} (h : Keeps s t) :
    Keeps s (State.publishValues t a1 a2 a3).2 := by
  unfold State.publishValues
  extract_lets +onlyGivenNames chk
  have h1 : Keeps s chk.2 := keeps_State_checkAll h
  clear_value chk
  split
  · exact h1
  split
  · exact keeps_State_dropGen h1
  · exact keeps_State_publishBytes (Keeps.foldl_snd2 h1 (fun _ _ hu => keeps_State_packSlot hu))

theorem keeps_State_runPass {s t : State} {a1 : _} (h : Keeps s t) :
    Keeps s (State.runPass t a1) := by
  unfold State.runPass
  extract_lets +onlyGivenNames x1
  clear_value x1
  extract_lets +onlyGivenNames x2
  have hx2 : Keeps s x2 := ?_
  · clear_value x2
    refine keeps_State_peak ?_
    refine keeps_State_doPass ?_
    assumption
  · unfold x2
    refine Keeps.same (t := t) ?_ rfl rfl rfl
    assumption

theorem keeps_State_sigStart {s t : State} {a1 : _} {a2 : Cmd → State → State}
    (hf : ∀ c u, Keeps s u → Keeps s (a2 c u)) (h : Keeps s t) : Keeps s (State.sigStart t a1 a2) := by
  unfold State.sigStart
  split
  · exact h
  split
  · exact hf _ _ h
  · exact h

theorem keeps_State_snapOpen {s t : State} {a1 : _} (h : Keeps s t) :
    Keeps s (State.snapOpen t a1).2.2 := by
  refine KeepsS2.out ?_
  unfold State.snapOpen
  extract_lets +onlyGivenNames x1
  clear_value x1
  extract_lets +onlyGivenNames x2
  clear_value x2
  extract_lets +onlyGivenNames x3
  clear_value x3
  extract_lets +onlyGivenNames x4
  clear_value x4
  extract_lets +onlyGivenNames x5
  clear_value x5
  extract_lets +onlyGivenNames x6
  clear_value x6
  extract_lets +onlyGivenNames x7
  clear_value x7
  refine KeepsS2.ite ?_ ?_
  · refine KeepsS2.pair ?_
    assumption
  · refine KeepsS2.ite ?_ ?_
    · refine KeepsS2.ite ?_ ?_
      · refine KeepsS2.pair ?_
        assumption
      · extract_lets +onlyGivenNames x8
        have hx8 : Keeps s x8.2 := ?_
        · clear_value x8
          extract_lets +onlyGivenNames x9
          clear_value x9
          refine KeepsS2.ite ?_ ?_
          · refine KeepsS2.pair ?_
            assumption
          · refine KeepsS2.ite ?_ ?_
            · refine KeepsS2.pair ?_
              assumption
            · refine KeepsS2.ite ?_ ?_
              · refine KeepsS2.pair ?_
                assumption
              · refine KeepsS2.pair ?_
                assumption
        · unfold x8
          refine keeps_State_checkAll ?_
          assumption
    · refine KeepsS2.ite ?_ ?_
      · refine KeepsS2.pair ?_
        assumption
      · extract_lets +onlyGivenNames x10
        have hx10 : Keeps s x10.2 := ?_
        · clear_value x10
          refine KeepsS2.ite ?_ ?_
          · refine KeepsS2.pair ?_
            assumption
          · refine KeepsS2.pair ?_
            assumption
        · unfold x10
          refine keeps_State_readCheck ?_
          assumption

theorem keeps_State_reindexOne {s t : State} {a1 : _} (h : Keeps s t) :
    Keeps s (State.reindexOne t a1) := by
  unfold State.reindexOne
  extract_lets +onlyGivenNames x1
  clear_value x1
  extract_lets +onlyGivenNames x2
  have hx2 : Keeps s x2 := ?_
  · clear_value x2
    refine Keeps.ite ?_ ?_
    · extract_lets +onlyGivenNames x3
      have hx3 : Keeps s x3 := ?_
      · clear_value x3
        refine keeps_State_watchEnd ?_
        refine keeps_State_queuePass ?_
        refine keeps_State_setDs ?_
        assumption
      · unfold x3
        refine keeps_State_setDs ?_
        refine keeps_State_setDs ?_
        refine keeps_State_setDs ?_
        assumption
    · assumption
  · unfold x2
    refine keeps_State_setDs ?_
    assumption

theorem keeps_sigReindexSwitch {s t : State} (h : Keeps s t) :
    Keeps s (sigReindexSwitch t) := by
  unfold sigReindexSwitch
  refine Keeps.ite ?_ ?_
  · assumption
  · split
    · assumption
    · extract_lets +onlyGivenNames x1
      clear_value x1
      refine Keeps.ite ?_ ?_
      · assumption
      · refine Keeps.ite ?_ ?_
        · refine keeps_State_endLong ?_
          assumption
        · refine keeps_State_endLong ?_
          refine Keeps.foldl ?_ (fun u2 y3 hu2 => ?_)
          · refine keeps_State_spend ?_
            assumption
          · refine keeps_State_reindexOne ?_
            assumption

theorem keeps_State_freeOut {s t : State} {a1 : _} (h : Keeps s t) :
    Keeps s (State.freeOut t a1) := by
  unfold State.freeOut
  extract_lets +onlyGivenNames x1
  have hx1 : Keeps s x1.2 := ?_
  · clear_value x1
    refine keeps_State_busWrite ?_
    assumption
  · unfold x1
    refine keeps_State_freeBytes ?_
    assumption

theorem keeps_State_snapOne {s t : State} {a1 : _} {a2 : _} {a3 : _} {a4 : _} {a5 : _} (h : Keeps s t) :
    Keeps s (State.snapOne t a1 a2 a3 a4 a5).2 := by
  refine KeepsS.out ?_
  unfold State.snapOne
  extract_lets +onlyGivenNames x1
  clear_value x1
  extract_lets +onlyGivenNames x2
  have hx2 : Keeps s x2 := ?_
  · clear_value x2
    extract_lets +onlyGivenNames x3
    clear_value x3
    refine KeepsS.pair ?_
    assumption
  · unfold x2
    refine Keeps.ite ?_ ?_
    · refine keeps_State_busWrite ?_
      assumption
    · refine keeps_State_busWrite ?_
      assumption

theorem keeps_State_snapList {s t : State} {a1 : _} {a2 : _} {a3 : _} {a4 : _} (h : Keeps s t) :
    Keeps s (State.snapList t a1 a2 a3 a4).2 := by
  induction a3 generalizing t a1 a2 a4
  · unfold State.snapList
    dsimp -zeta only
    assumption
  · rename_i ih
    unfold State.snapList
    refine KeepsS.out ?_
    extract_lets +onlyGivenNames x7
    have hx7 : Keeps s x7.2 := ?_
    · clear_value x7
      refine ⟨?_⟩
      apply ih
      assumption
    · unfold x7
      refine keeps_State_snapOne ?_
      assumption

theorem keeps_State_readGroup {s t : State} {a1 : _} {a2 : _} (h : Keeps s t) :
    Keeps s (State.readGroup t a1 a2).2.2 := by
  refine KeepsS2.out ?_
  unfold State.readGroup
  extract_lets +onlyGivenNames x1
  have hx1 : Keeps s x1.2 := ?_
  · clear_value x1
    refine KeepsS2.ite ?_ ?_
    · refine KeepsS2.pair ?_
      assumption
    · split
      · refine KeepsS2.pair ?_
        refine keeps_State_freeOut ?_
        assumption
      · extract_lets +onlyGivenNames x2
        have hx2 : Keeps s x2.2 := ?_
        · clear_value x2
          extract_lets +onlyGivenNames x3
          clear_value x3
          refine KeepsS2.pair ?_
          assumption
        · unfold x2
          refine keeps_State_snapList ?_
          assumption
  · unfold x1
    refine keeps_State_checkAll ?_
    assumption

theorem keeps_State_snapGo {s t : State} {a1 : _} {a2 : _} (h : Keeps s t) :
    Keeps s (State.snapGo t a1 a2).2.2 := by
  induction a2 generalizing t a1
  · unfold State.snapGo
    dsimp -zeta only
    assumption
  · rename_i ih
    unfold State.snapGo
    refine KeepsS2.out ?_
    refine KeepsS2.ite ?_ ?_
    · refine KeepsS2.pair ?_
      assumption
    · extract_lets +onlyGivenNames x1
      have hx1 : Keeps s x1.2.2 := ?_
      · clear_value x1
        split
        · refine KeepsS2.pair ?_
          assumption
        · refine ⟨?_⟩
          apply ih
          refine keeps_State_spend ?_
          assumption
      · unfold x1
        refine keeps_State_readGroup ?_
        assumption

theorem keeps_State_sigEnd {s t : State} {a1 : _} {a2 : _} {a3 : _} (h : Keeps s t) :
    Keeps s (State.sigEnd t a1 a2 a3) := by
  unfold State.sigEnd
  refine Keeps.ite ?_ ?_
  · refine keeps_State_endLong ?_
    assumption
  · refine Keeps.ite ?_ ?_
    · refine keeps_State_finish ?_
      assumption
    · refine keeps_State_advance ?_
      refine keeps_State_complete ?_
      assumption

theorem keeps_State_sigLater {s t : State} {a1 : _} (h : Keeps s t) :
    Keeps s (State.sigLater t a1) := by
  unfold State.sigLater
  refine Keeps.ite ?_ ?_
  · refine keeps_State_dropHand ?_
    assumption
  · assumption

theorem keeps_State_snapKeep {s t : State} {a1 : _} (h : Keeps s t) :
    Keeps s (State.snapKeep t a1) := by
  unfold State.snapKeep
  refine Keeps.same (t := t) ?_ rfl rfl rfl
  assumption

theorem keeps_State_snapCmd {s t : State} {a1 : _} {a2 : _} {a3 : _} (h : Keeps s t) :
    Keeps s (State.snapCmd t a1 a2 a3) := by
  unfold State.snapCmd
  extract_lets +onlyGivenNames x1
  have hx1 : Keeps s x1.2.2 := ?_
  · clear_value x1
    split
    · refine keeps_State_sigEnd ?_
      assumption
    · refine keeps_State_sigLater ?_
      refine keeps_State_snapKeep ?_
      assumption
  · unfold x1
    refine keeps_State_snapGo ?_
    assumption

theorem keeps_sigSnapshot {s t : State} (h : Keeps s t) :
    Keeps s (sigSnapshot t) := by
  unfold sigSnapshot
  refine Keeps.ite ?_ ?_
  · assumption
  · refine keeps_State_sigStart (fun _ u1 hu1 => ?_) ?_
    · extract_lets +onlyGivenNames x2
      have hx2 : Keeps s x2.2.2 := ?_
      · clear_value x2
        split
        · refine keeps_State_finish ?_
          assumption
        · refine keeps_State_snapCmd ?_
          assumption
      · unfold x2
        refine keeps_State_snapOpen ?_
        refine keeps_State_spend ?_
        assumption
    · assumption

theorem keeps_execSigSnapshot {s t : State} {u : State} (h : Keeps s t)
    (e : execSigSnapshot t = .next u) : Keeps s u := by
  unfold execSigSnapshot at e
  injection e with e
  subst e
  refine keeps_sigSnapshot ?_
  assumption

theorem keeps_State_sigLong {s t : State} {a1 : _} {a2 : _} {a3 : Cmd → State → State}
    (hf : ∀ c u, Keeps s u → Keeps s (a3 c u)) (h : Keeps s t) : Keeps s (State.sigLong t a1 a2 a3) := by
  unfold State.sigLong
  refine keeps_State_sigStart (fun c u hu => ?_) h
  split
  · exact keeps_State_finish (Keeps.ite (keeps_State_checkAll hu) hu)
  · exact hf _ _ (keeps_State_accept (keeps_State_checkAll hu))

theorem keeps_sigWatch {s t : State} (h : Keeps s t) :
    Keeps s (sigWatch t) := by
  unfold sigWatch
  refine Keeps.ite ?_ ?_
  · assumption
  · refine keeps_State_sigLong (fun _ u1 hu1 => ?_) ?_
    · extract_lets +onlyGivenNames x2
      have hx2 : Keeps s x2 := ?_
      · clear_value x2
        extract_lets +onlyGivenNames x3
        clear_value x3
        extract_lets +onlyGivenNames x4
        have hx4 : Keeps s x4 := ?_
        · clear_value x4
          refine Keeps.ite ?_ ?_
          · refine keeps_State_endLong ?_
            assumption
          · assumption
        · unfold x4
          refine keeps_State_setOut ?_
          assumption
      · unfold x2
        refine keeps_State_spend ?_
        assumption
    · assumption

theorem keeps_State_reindexPart {s t : State} {a1 : _} (h : Keeps s t) :
    Keeps s (State.reindexPart t a1) := by
  unfold State.reindexPart
  refine Keeps.ite ?_ ?_
  · refine keeps_State_setOut ?_
    refine keeps_State_spend ?_
    assumption
  · assumption

theorem keeps_sigReindex {s t : State} (h : Keeps s t) :
    Keeps s (sigReindex t) := by
  unfold sigReindex
  refine keeps_State_sigLong (fun _ u1 hu1 => ?_) ?_
  · extract_lets +onlyGivenNames x2
    clear_value x2
    refine keeps_State_reindexPart ?_
    refine keeps_State_setOut ?_
    assumption
  · assumption

theorem keeps_execSigReindex {s t : State} {u : State} (h : Keeps s t)
    (e : execSigReindex t = .next u) : Keeps s u := by
  unfold execSigReindex at e
  injection e with e
  subst e
  refine keeps_sigReindex ?_
  assumption

theorem keeps_State_subWrite {s t : State} {a1 : _} (h : Keeps s t) :
    Keeps s (State.subWrite t a1) := by
  unfold State.subWrite
  extract_lets +onlyGivenNames x1
  clear_value x1
  extract_lets +onlyGivenNames x2
  clear_value x2
  extract_lets +onlyGivenNames x3
  clear_value x3
  extract_lets +onlyGivenNames x4
  clear_value x4
  extract_lets +onlyGivenNames x5
  clear_value x5
  extract_lets +onlyGivenNames x6
  have hx6 : Keeps s x6 := ?_
  · clear_value x6
    extract_lets +onlyGivenNames x7
    have hx7 : Keeps s x7 := ?_
    · clear_value x7
      refine keeps_State_endLong ?_
      assumption
    · unfold x7
      refine keeps_State_outBuf ?_
      assumption
  · unfold x6
    refine keeps_State_outBuf ?_
    assumption

theorem keeps_State_subPart {s t : State} {a1 : _} (h : Keeps s t) :
    Keeps s (State.subPart t a1) := by
  unfold State.subPart
  refine Keeps.ite ?_ ?_
  · assumption
  · refine Keeps.ite ?_ ?_
    · refine keeps_State_setOut ?_
      refine keeps_State_spend ?_
      assumption
    · refine keeps_State_subWrite ?_
      refine keeps_State_spend ?_
      assumption

theorem keeps_runForce {s t : State} {a0 : _} (h : Keeps s t) :
    Keeps s (runForce a0 t).1 := by
  refine KeepsF.out ?_
  unfold runForce
  extract_lets +onlyGivenNames x1
  clear_value x1
  extract_lets +onlyGivenNames x2
  clear_value x2
  extract_lets +onlyGivenNames x3
  have hx3 : Keeps s x3.2 := ?_
  · clear_value x3
    extract_lets +onlyGivenNames x4
    have hx4 : Keeps s x4 := ?_
    · clear_value x4
      refine KeepsF.ite ?_ ?_
      · refine KeepsF.pair ?_
        assumption
      · refine KeepsF.ite ?_ ?_
        · refine KeepsF.pair ?_
          assumption
        · refine KeepsF.ite ?_ ?_
          · refine KeepsF.pair ?_
            assumption
          · refine KeepsF.ite ?_ ?_
            · refine KeepsF.pair ?_
              assumption
            · extract_lets +onlyGivenNames x5
              clear_value x5
              refine KeepsF.ite ?_ ?_
              · refine KeepsF.ite ?_ ?_
                · extract_lets +onlyGivenNames x6
                  have hx6 : Keeps s x6 := ?_
                  · clear_value x6
                    refine KeepsF.pair ?_
                    refine keeps_State_forceNotice ?_
                    assumption
                  · unfold x6
                    refine keeps_State_wr ?_
                    refine keeps_State_putSlot ?_
                    assumption
                · refine KeepsF.pair ?_
                  assumption
              · extract_lets +onlyGivenNames x7
                clear_value x7
                extract_lets +onlyGivenNames x8
                have hx8 : Keeps s x8.2.2 := ?_
                · clear_value x8
                  extract_lets +onlyGivenNames x9
                  clear_value x9
                  extract_lets +onlyGivenNames x10
                  have hx10 : Keeps s x10 := ?_
                  · clear_value x10
                    extract_lets +onlyGivenNames x11
                    have hx11 : Keeps s x11 := ?_
                    · clear_value x11
                      refine KeepsF.pair ?_
                      refine keeps_State_forceNotice ?_
                      assumption
                    · unfold x11
                      refine Keeps.ite ?_ ?_
                      · assumption
                      · refine keeps_State_wr ?_
                        assumption
                  · unfold x10
                    refine keeps_State_putSlot ?_
                    assumption
                · unfold x8
                  refine keeps_State_packValue ?_
                  assumption
    · unfold x4
      assumption
  · unfold x3
    refine keeps_State_checkAll ?_
    assumption

theorem keeps_sigForce {s t : State} (h : Keeps s t) :
    Keeps s (sigForce t) := by
  unfold sigForce
  refine Keeps.ite ?_ ?_
  · refine keeps_State_doUnit (fun _ u1 hu1 => ?_) ?_
    · refine keeps_runForce ?_
      assumption
    · assumption
  · assumption

theorem keeps_sigUnforce {s t : State} (h : Keeps s t) :
    Keeps s (sigUnforce t) := by
  unfold sigUnforce
  refine Keeps.ite ?_ ?_
  · refine keeps_State_doUnit (fun _ u1 hu1 => ?_) ?_
    · refine keeps_runForce ?_
      assumption
    · assumption
  · assumption

theorem keeps_execSigUnforce {s t : State} {u : State} (h : Keeps s t)
    (e : execSigUnforce t = .next u) : Keeps s u := by
  unfold execSigUnforce at e
  injection e with e
  subst e
  refine keeps_sigUnforce ?_
  assumption

theorem keeps_State_pubKeep {s t : State} {a1 : _} {a2 : _} (h : Keeps s t) :
    Keeps s (State.pubKeep t a1 a2) := by
  unfold State.pubKeep
  refine keeps_State_sigLater ?_
  refine Keeps.same (t := t) ?_ rfl rfl rfl
  assumption

theorem keeps_State_pubGo {s t : State} {a1 : _} {a2 : _} {a3 : _} (h : Keeps s t) :
    Keeps s (State.pubGo t a1 a2 a3) := by
  induction a3 generalizing t a1 a2
  · unfold State.pubGo
    refine keeps_State_pubKeep ?_
    assumption
  · rename_i ih
    unfold State.pubGo
    extract_lets +onlyGivenNames x1
    clear_value x1
    extract_lets +onlyGivenNames x2
    clear_value x2
    refine Keeps.ite ?_ ?_
    · refine keeps_State_sigEnd ?_
      assumption
    · refine Keeps.ite ?_ ?_
      · refine keeps_State_pubKeep ?_
        assumption
      · extract_lets +onlyGivenNames x3
        have hx3 : Keeps s x3.2 := ?_
        · clear_value x3
          refine Keeps.ite ?_ ?_
          · refine keeps_State_sigEnd ?_
            assumption
          · extract_lets +onlyGivenNames x4
            have hx4 : Keeps s x4.2 := ?_
            · clear_value x4
              split
              · refine keeps_State_sigEnd ?_
                assumption
              · apply ih
                refine keeps_State_spend ?_
                assumption
            · unfold x4
              refine keeps_State_publishValues ?_
              assumption
        · unfold x3
          refine keeps_State_readCheck ?_
          assumption

theorem keeps_sigBulkLoad {s t : State} (h : Keeps s t) :
    Keeps s (sigBulkLoad t) := by
  unfold sigBulkLoad
  refine keeps_State_sigLong (fun _ u1 hu1 => ?_) ?_
  · refine keeps_State_pubGo ?_
    assumption
  · assumption

theorem keeps_execSigBulkLoad {s t : State} {u : State} (h : Keeps s t)
    (e : execSigBulkLoad t = .next u) : Keeps s u := by
  unfold execSigBulkLoad at e
  injection e with e
  subst e
  refine keeps_sigBulkLoad ?_
  assumption

theorem keeps_execSigWatch {s t : State} {u : State} (h : Keeps s t)
    (e : execSigWatch t = .next u) : Keeps s u := by
  unfold execSigWatch at e
  injection e with e
  subst e
  refine keeps_sigWatch ?_
  assumption

theorem keeps_execSigForce {s t : State} {u : State} (h : Keeps s t)
    (e : execSigForce t = .next u) : Keeps s u := by
  unfold execSigForce at e
  injection e with e
  subst e
  refine keeps_sigForce ?_
  assumption

theorem keeps_execSigReindexSwitch {s t : State} {u : State} (h : Keeps s t)
    (e : execSigReindexSwitch t = .next u) : Keeps s u := by
  unfold execSigReindexSwitch at e
  injection e with e
  subst e
  refine keeps_sigReindexSwitch ?_
  assumption

theorem keeps_sigPublish {s t : State} (h : Keeps s t) :
    Keeps s (sigPublish t) := by
  unfold sigPublish
  refine keeps_State_sigStart (fun _ u1 hu1 => ?_) ?_
  · split
    · refine keeps_State_finish ?_
      refine Keeps.ite ?_ ?_
      · refine keeps_State_checkAll ?_
        assumption
      · assumption
    · refine keeps_State_pubGo ?_
      refine keeps_State_checkAll ?_
      assumption
  · assumption

theorem keeps_execSigPublish {s t : State} {u : State} (h : Keeps s t)
    (e : execSigPublish t = .next u) : Keeps s u := by
  unfold execSigPublish at e
  injection e with e
  subst e
  refine keeps_sigPublish ?_
  assumption

theorem keeps_sigClr {s t : State} {a0 : _} {a1 : _} (h : Keeps s t) :
    Keeps s (sigClr a0 a1 t) := by
  unfold sigClr
  refine Keeps.ite ?_ ?_
  · refine keeps_State_setReg ?_
    refine keeps_State_setReg ?_
    assumption
  · assumption

theorem keeps_execSigClr {s t : State} {a0 : _} {a1 : _} {u : State} (h : Keeps s t)
    (e : execSigClr a0 a1 t = .next u) : Keeps s u := by
  unfold execSigClr at e
  injection e with e
  subst e
  refine keeps_State_arrive (fun u1 hu1 => ?_) ?_
  · refine keeps_sigClr ?_
    assumption
  · assumption

theorem keeps_sigWatchTimeout {s t : State} {a0 : _} {a1 : _} (h : Keeps s t) :
    Keeps s (sigWatchTimeout a0 a1 t) := by
  unfold sigWatchTimeout
  split
  · refine Keeps.ite ?_ ?_
    · refine keeps_State_endLong ?_
      assumption
    · assumption
  · assumption

theorem keeps_sigStaleDeadline {s t : State} {a0 : _} (h : Keeps s t) :
    Keeps s (sigStaleDeadline a0 t) := by
  unfold sigStaleDeadline
  extract_lets +onlyGivenNames x1
  clear_value x1
  refine Keeps.ite ?_ ?_
  · extract_lets +onlyGivenNames x2
    have hx2 : Keeps s x2 := ?_
    · clear_value x2
      refine keeps_State_watchEnd ?_
      refine keeps_State_queuePass ?_
      refine keeps_State_satAdd ?_
      assumption
    · unfold x2
      refine keeps_State_setDs ?_
      refine keeps_State_setDs ?_
      assumption
  · assumption

theorem keeps_execSigStaleDeadline {s t : State} {a0 : _} {u : State} (h : Keeps s t)
    (e : execSigStaleDeadline a0 t = .next u) : Keeps s u := by
  unfold execSigStaleDeadline at e
  injection e with e
  subst e
  refine keeps_sigStaleDeadline ?_
  assumption

theorem keeps_execSigWatchTimeout {s t : State} {a0 : _} {a1 : _} {u : State} (h : Keeps s t)
    (e : execSigWatchTimeout a0 a1 t = .next u) : Keeps s u := by
  unfold execSigWatchTimeout at e
  injection e with e
  subst e
  refine keeps_sigWatchTimeout ?_
  assumption

theorem keeps_sigSubBuild {s t : State} (h : Keeps s t) :
    Keeps s (sigSubBuild t) := by
  unfold sigSubBuild
  refine keeps_State_sigLong (fun _ u1 hu1 => ?_) ?_
  · refine keeps_State_subPart ?_
    assumption
  · assumption

theorem keeps_execSigSubBuild {s t : State} {u : State} (h : Keeps s t)
    (e : execSigSubBuild t = .next u) : Keeps s u := by
  unfold execSigSubBuild at e
  injection e with e
  subst e
  refine keeps_sigSubBuild ?_
  assumption

theorem keeps_State_route {s t : State} {a1 : _} {a2 : _} {a3 : _} (h : Keeps s t) :
    Keeps s (State.route t a1 a2 a3).2.2 := by
  refine KeepsS2.out ?_
  unfold State.route
  refine KeepsS2.ite ?_ ?_
  · refine ⟨?_⟩
    refine keeps_State_packValue ?_
    assumption
  · extract_lets +onlyGivenNames x1
    clear_value x1
    refine KeepsS2.pair ?_
    assumption

theorem keeps_State_setGw {s t : State} {a1 : _} {a2 : _} {a3 : _} {a4 : _} {a5 : _} (h : Keeps s t) :
    Keeps s (State.setGw t a1 a2 a3 a4 a5) := by
  unfold State.setGw
  extract_lets +onlyGivenNames x1
  clear_value x1
  refine keeps_State_busWrite ?_
  assumption

theorem keeps_State_gwPublished {s t : State} {a1 : _} {a2 : _} (h : Keeps s t) :
    Keeps s (State.gwPublished t a1 a2) := by
  unfold State.gwPublished
  extract_lets +onlyGivenNames x1
  have hx1 : Keeps s x1 := ?_
  · clear_value x1
    extract_lets +onlyGivenNames x2
    clear_value x2
    extract_lets +onlyGivenNames x3
    have hx3 : Keeps s x3 := ?_
    · clear_value x3
      refine keeps_State_peak ?_
      refine keeps_State_satAdd ?_
      refine keeps_State_setGw ?_
      assumption
    · unfold x3
      refine Keeps.same (t := x1) ?_ rfl rfl rfl
      assumption
  · unfold x1
    refine keeps_State_setGw ?_
    assumption

theorem keeps_State_gwHand {s t : State} {a1 : _} {a2 : _} {a3 : _} (h : Keeps s t) :
    Keeps s (State.gwHand t a1 a2 a3) := by
  unfold State.gwHand
  extract_lets +onlyGivenNames x1
  clear_value x1
  refine Keeps.ite ?_ ?_
  · refine keeps_State_gwPublished ?_
    refine keeps_State_publish ?_
    assumption
  · refine Keeps.same (t := t) ?_ rfl rfl rfl
    assumption

theorem keeps_State_gwStaleNote {s t : State} {a1 : _} {a2 : _} (h : Keeps s t) :
    Keeps s (State.gwStaleNote t a1 a2) := by
  unfold State.gwStaleNote
  extract_lets +onlyGivenNames x1
  clear_value x1
  extract_lets +onlyGivenNames x2
  clear_value x2
  extract_lets +onlyGivenNames x3
  have hx3 : Keeps s x3 := ?_
  · clear_value x3
    extract_lets +onlyGivenNames x4
    have hx4 : Keeps s x4 := ?_
    · clear_value x4
      refine keeps_State_setGw ?_
      assumption
    · unfold x4
      refine Keeps.ite ?_ ?_
      · refine keeps_State_raise ?_
        assumption
      · refine Keeps.ite ?_ ?_
        · refine keeps_State_raise ?_
          assumption
        · assumption
  · unfold x3
    refine Keeps.ite ?_ ?_
    · refine keeps_State_setGw ?_
      assumption
    · assumption

theorem keeps_State_routeStep {s : State} {x : List Byte × Nat × State} {r : Nat × Nat} (h : Keeps s x.2.2) :
    Keeps s (State.routeStep x r).2.2 := by
  unfold State.routeStep
  exact keeps_State_route h

theorem keeps_State_gwRun {s t : State} {a1 : _} {a2 : _} (h : Keeps s t) : Keeps s (State.gwRun t a1 a2) := by
  unfold State.gwRun
  extract_lets +onlyGivenNames c0 s1 chk
  have h1 : Keeps s s1 := keeps_State_gwPend (Keeps.same (t := t) h rfl rfl rfl)
  have h2 : Keeps s chk.2 := keeps_State_checkAll h1
  clear_value chk s1
  split
  · exact h2
  extract_lets +onlyGivenNames routes stale x n
  have h3 : Keeps s x.2.2 := Keeps.foldl_snd2 h2 (fun _ _ hu => keeps_State_routeStep hu)
  exact keeps_State_gwHand (keeps_State_gwStaleNote (keeps_State_setGw h3))

end Machine
end Sys2Proof
end

