-- ==== Sys2Proof/Laws/Keeps04.lean ====
section
/-!
SUPPORT. Keeps of the operations of Gateway, CarOps, FieldOps, PairMirror, CbOps.
-/

set_option Elab.async false

namespace Sys2Proof
namespace Machine

theorem keeps_gwClr {s t : State} {a0 : _} {a1 : _} (h : Keeps s t) :
    Keeps s (gwClr a0 a1 t) := by
  unfold gwClr
  refine Keeps.ite ?_ ?_
  · refine keeps_State_setReg ?_
    refine keeps_State_setReg ?_
    assumption
  · assumption

theorem keeps_execGwClr {s t : State} {a0 : _} {a1 : _} {u : State} (h : Keeps s t)
    (e : execGwClr a0 a1 t = .next u) : Keeps s u := by
  unfold execGwClr at e
  injection e with e
  subst e
  refine keeps_State_arrive (fun u1 hu1 => ?_) ?_
  · refine keeps_gwClr ?_
    assumption
  · assumption

theorem keeps_runGwCtl {s t : State} {a0 : _} (h : Keeps s t) :
    Keeps s (runGwCtl a0 t).1 := by
  refine KeepsF.out ?_
  unfold runGwCtl
  extract_lets +onlyGivenNames x1
  clear_value x1
  refine KeepsF.ite ?_ ?_
  · refine KeepsF.pair ?_
    assumption
  · refine KeepsF.ite ?_ ?_
    · refine KeepsF.pair ?_
      assumption
    · extract_lets +onlyGivenNames x2
      clear_value x2
      extract_lets +onlyGivenNames x3
      have hx3 : Keeps s x3 := ?_
      · clear_value x3
        extract_lets +onlyGivenNames x4
        have hx4 : Keeps s x4 := ?_
        · clear_value x4
          extract_lets +onlyGivenNames x5
          clear_value x5
          extract_lets +onlyGivenNames x6
          have hx6 : Keeps s x6 := ?_
          · clear_value x6
            refine KeepsF.pair ?_
            assumption
          · unfold x6
            refine Keeps.ite ?_ ?_
            · assumption
            · refine keeps_State_gwPend ?_
              refine Keeps.same (t := x4) ?_ rfl rfl rfl
              assumption
        · unfold x4
          refine Keeps.ite ?_ ?_
          · refine keeps_State_setGw ?_
            assumption
          · assumption
      · unfold x3
        refine keeps_State_setGw ?_
        assumption

theorem keeps_gwGroupCtl {s t : State} (h : Keeps s t) :
    Keeps s (gwGroupCtl t) := by
  unfold gwGroupCtl
  refine keeps_State_doShort (fun _ u1 hu1 => ?_) ?_
  · refine keeps_runGwCtl ?_
    assumption
  · assumption

theorem keeps_execGwGroupCtl {s t : State} {u : State} (h : Keeps s t)
    (e : execGwGroupCtl t = .next u) : Keeps s u := by
  unfold execGwGroupCtl at e
  injection e with e
  subst e
  refine keeps_gwGroupCtl ?_
  assumption

theorem keeps_State_builtRun {s t : State} {a1 : _} (h : Keeps s t) :
    Keeps s (State.builtRun t a1) := by
  unfold State.builtRun
  extract_lets +onlyGivenNames x1
  clear_value x1
  refine keeps_State_gwPublished ?_
  refine keeps_State_publishBuilt ?_
  refine Keeps.same (t := t) ?_ rfl rfl rfl
  assumption

theorem keeps_State_gwRuns {s t : State} {a1 : _} {a2 : _} (h : Keeps s t) :
    Keeps s (State.gwRuns t a1 a2) := by
  induction a1 generalizing t a2
  · unfold State.gwRuns
    assumption
  · rename_i ih
    unfold State.gwRuns
    refine Keeps.ite ?_ ?_
    · assumption
    · apply ih
      refine keeps_State_gwRun ?_
      assumption

theorem keeps_State_setNode {s t : State} {a1 : _} {a2 : _} (h : Keeps s t) :
    Keeps s (State.setNode t a1 a2) := by
  unfold State.setNode
  refine Keeps.same (t := t) ?_ rfl rfl rfl
  assumption

theorem keeps_State_crMissSet {s t : State} {a1 : _} {a2 : _} {a3 : _} (h : Keeps s t) :
    Keeps s (State.crMissSet t a1 a2 a3) := by
  unfold State.crMissSet
  extract_lets +onlyGivenNames x1
  clear_value x1
  extract_lets +onlyGivenNames x2
  have hx2 : Keeps s x2 := ?_
  · clear_value x2
    extract_lets +onlyGivenNames x3
    clear_value x3
    refine Keeps.ite ?_ ?_
    · assumption
    · refine keeps_State_raise ?_
      refine keeps_State_wr ?_
      assumption
  · unfold x2
    refine keeps_State_setNode ?_
    assumption

theorem keeps_State_crGot {s t : State} {a1 : _} {a2 : _} (h : Keeps s t) :
    Keeps s (State.crGot t a1 a2) := by
  unfold State.crGot
  extract_lets +onlyGivenNames x1
  clear_value x1
  refine keeps_State_crMissSet ?_
  refine keeps_State_setNode ?_
  assumption

theorem keeps_State_crDeliver {s t : State} {a1 : _} {a2 : _} {a3 : _} (h : Keeps s t) :
    Keeps s (State.crDeliver t a1 a2 a3) := by
  unfold State.crDeliver
  refine Keeps.foldl ?_ (fun u1 y2 hu1 => ?_)
  · assumption
  · refine Keeps.ite ?_ ?_
    · refine keeps_State_publish ?_
      assumption
    · assumption

theorem keeps_State_crChanEnd {s t : State} {a1 : _} (h : Keeps s t) :
    Keeps s (State.crChanEnd t a1) := by
  unfold State.crChanEnd
  extract_lets +onlyGivenNames x1
  clear_value x1
  refine Keeps.ite ?_ ?_
  · assumption
  · extract_lets +onlyGivenNames x2
    have hx2 : Keeps s x2 := ?_
    · clear_value x2
      extract_lets +onlyGivenNames x3
      have hx3 : Keeps s x3 := ?_
      · clear_value x3
        refine keeps_State_setNode ?_
        assumption
      · unfold x3
        refine Keeps.ite ?_ ?_
        · assumption
        · refine keeps_State_crMissSet ?_
          assumption
    · unfold x2
      refine Keeps.ite ?_ ?_
      · assumption
      · refine keeps_State_crMissSet ?_
        assumption

theorem keeps_State_crChanOpen {s t : State} {a1 : _} (h : Keeps s t) :
    Keeps s (State.crChanOpen t a1) := by
  unfold State.crChanOpen
  extract_lets +onlyGivenNames x1
  have hx1 : Keeps s x1 := ?_
  · clear_value x1
    refine keeps_State_setNode ?_
    assumption
  · unfold x1
    refine keeps_State_crChanEnd ?_
    assumption

theorem keeps_State_portSend {s t : State} {a1 : _} {a2 : _} {a3 : _} (h : Keeps s t) :
    Keeps s (State.portSend t a1 a2 a3) := by
  unfold State.portSend
  refine Keeps.ite ?_ ?_
  · refine keeps_State_pairSend ?_
    assumption
  · refine Keeps.same (t := t) ?_ rfl rfl rfl
    assumption

theorem keeps_State_setPortNow {s t : State} {a1 : _} {a2 : _} (h : Keeps s t) :
    Keeps s (State.setPortNow t a1 a2) := by
  unfold State.setPortNow
  refine Keeps.same (t := t) ?_ rfl rfl rfl
  assumption

theorem keeps_State_crCut {s t : State} {a1 : _} (h : Keeps s t) :
    Keeps s (State.crCut t a1) := by
  unfold State.crCut
  split
  · assumption
  · extract_lets +onlyGivenNames x1
    clear_value x1
    extract_lets +onlyGivenNames x2
    have hx2 : Keeps s x2 := ?_
    · clear_value x2
      refine keeps_State_satAdd ?_
      refine Keeps.same (t := x2) ?_ rfl rfl rfl
      assumption
    · unfold x2
      refine keeps_State_portSend ?_
      refine keeps_State_setPortNow ?_
      assumption

theorem keeps_State_crFreeze {s t : State} {a1 : _} {a2 : _} {a3 : _} (h : Keeps s t) :
    Keeps s (State.crFreeze t a1 a2 a3).2 := by
  refine KeepsS.out ?_
  unfold State.crFreeze
  extract_lets +onlyGivenNames x1
  clear_value x1
  extract_lets +onlyGivenNames x2
  clear_value x2
  extract_lets +onlyGivenNames x3
  clear_value x3
  extract_lets +onlyGivenNames x4
  have hx4 : Keeps s x4.2 := ?_
  · clear_value x4
    split
    · refine ⟨?_⟩
      assumption
    · refine KeepsS.ite ?_ ?_
      · refine KeepsS.pair ?_
        assumption
      · refine ⟨?_⟩
        assumption
  · unfold x4
    dsimp -zeta only
    refine keeps_State_setNode ?_
    assumption

theorem keeps_State_crForward {s t : State} {a1 : _} {a2 : _} {a3 : _} (h : Keeps s t) :
    Keeps s (State.crForward t a1 a2 a3).2 := by
  refine KeepsS.out ?_
  unfold State.crForward
  refine KeepsS.ite ?_ ?_
  · refine KeepsS.pair ?_
    assumption
  · extract_lets +onlyGivenNames x1
    have hx1 : Keeps s x1.2 := ?_
    · clear_value x1
      refine KeepsS.pair ?_
      assumption
    · unfold x1
      refine keeps_State_crFreeze ?_
      assumption

theorem keeps_State_crRun {s t : State} {a1 : _} {a2 : _} (h : Keeps s t) :
    Keeps s (State.crRun t a1 a2) := by
  unfold State.crRun
  extract_lets +onlyGivenNames x1
  clear_value x1
  extract_lets +onlyGivenNames x2
  clear_value x2
  extract_lets +onlyGivenNames x3
  have hx3 : Keeps s x3 := ?_
  · clear_value x3
    extract_lets +onlyGivenNames x4
    have hx4 : Keeps s x4 := ?_
    · clear_value x4
      refine Keeps.ite ?_ ?_
      · refine keeps_State_raise ?_
        assumption
      · assumption
    · unfold x4
      refine keeps_State_wr ?_
      assumption
  · unfold x3
    refine keeps_State_setNode ?_
    assumption

theorem keeps_State_crMissOne {s t : State} {a1 : _} {a2 : _} {a3 : _} (h : Keeps s t) :
    Keeps s (State.crMissOne t a1 a2 a3) := by
  unfold State.crMissOne
  extract_lets +onlyGivenNames x1
  clear_value x1
  extract_lets +onlyGivenNames x2
  have hx2 : Keeps s x2 := ?_
  · clear_value x2
    refine Keeps.ite ?_ ?_
    · refine keeps_State_raise ?_
      assumption
    · refine Keeps.ite ?_ ?_
      · refine keeps_State_raise ?_
        assumption
      · assumption
  · unfold x2
    refine keeps_State_wr ?_
    assumption

theorem keeps_State_crMissAll {s t : State} {a1 : _} {a2 : _} (h : Keeps s t) :
    Keeps s (State.crMissAll t a1 a2) := by
  unfold State.crMissAll
  refine Keeps.foldl ?_ (fun u1 y2 hu1 => ?_)
  · assumption
  · refine keeps_State_crMissOne ?_
    assumption

theorem keeps_State_crAccept {s t : State} {a1 : _} {a2 : _} {a3 : _} (h : Keeps s t) :
    Keeps s (State.crAccept t a1 a2 a3) := by
  unfold State.crAccept
  extract_lets +onlyGivenNames x1
  clear_value x1
  extract_lets +onlyGivenNames x2
  clear_value x2
  extract_lets +onlyGivenNames x3
  clear_value x3
  extract_lets +onlyGivenNames x4
  have hx4 : Keeps s x4 := ?_
  · clear_value x4
    extract_lets +onlyGivenNames x5
    have hx5 : Keeps s x5 := ?_
    · clear_value x5
      extract_lets +onlyGivenNames x6
      have hx6 : Keeps s x6 := ?_
      · clear_value x6
        extract_lets +onlyGivenNames x7
        clear_value x7
        extract_lets +onlyGivenNames x8
        have hx8 : Keeps s x8 := ?_
        · clear_value x8
          refine keeps_State_crMissAll ?_
          refine keeps_State_crDeliver ?_
          refine keeps_State_crGot ?_
          assumption
        · unfold x8
          refine keeps_State_setNode ?_
          assumption
      · unfold x6
        refine keeps_State_crRun ?_
        refine keeps_State_wr ?_
        assumption
    · unfold x5
      refine keeps_State_crChanOpen ?_
      assumption
  · unfold x4
    refine Keeps.ite ?_ ?_
    · refine keeps_State_satAdd ?_
      assumption
    · assumption

theorem keeps_State_crMemberRx {s t : State} {a1 : _} {a2 : _} {a3 : _} {a4 : _} (h : Keeps s t) :
    Keeps s (State.crMemberRx t a1 a2 a3 a4) := by
  unfold State.crMemberRx
  split
  · exact h
  extract_lets +onlyGivenNames p out s1 r s2 s3 s4
  have h1 : Keeps s s1 := keeps_State_satAdd (keeps_State_crCut h)
  have h2 : Keeps s r.2 := keeps_State_crForward h1
  have h3 : Keeps s s2 := Keeps.ite (keeps_State_portSend h2) h2
  have h3' : Keeps s s3 := Keeps.ite h3 (keeps_State_satAdd h3)
  have h4 : Keeps s s4 := Keeps.ite h3' (keeps_State_satAdd h3')
  refine Keeps.ite (keeps_State_satAdd h4) (Keeps.ite h4 ?_)
  refine Keeps.ite (keeps_State_crAccept h4) (Keeps.ite (keeps_State_satAdd (keeps_State_crGot h4)) (keeps_State_satAdd h4))

theorem keeps_State_crLost {s t : State} {a1 : _} (h : Keeps s t) :
    Keeps s (State.crLost t a1) := by
  unfold State.crLost
  extract_lets +onlyGivenNames x1
  clear_value x1
  extract_lets +onlyGivenNames x2
  have hx2 : Keeps s x2 := ?_
  · clear_value x2
    extract_lets +onlyGivenNames x3
    clear_value x3
    extract_lets +onlyGivenNames x4
    have hx4 : Keeps s x4 := ?_
    · clear_value x4
      refine Keeps.ite ?_ ?_
      · extract_lets +onlyGivenNames x5
        have hx5 : Keeps s x5 := ?_
        · clear_value x5
          refine keeps_State_setNode ?_
          assumption
        · unfold x5
          refine keeps_State_raise ?_
          refine keeps_State_wr ?_
          assumption
      · assumption
    · unfold x4
      refine keeps_State_setNode ?_
      assumption
  · unfold x2
    refine keeps_State_crMissAll ?_
    refine keeps_State_satAdd ?_
    assumption

theorem keeps_State_crReturnTimeout {s t : State} {a1 : _} (h : Keeps s t) :
    Keeps s (State.crReturnTimeout t a1) := by
  unfold State.crReturnTimeout
  extract_lets +onlyGivenNames x1
  clear_value x1
  refine Keeps.ite ?_ ?_
  · refine keeps_State_crLost ?_
    refine keeps_State_setNode ?_
    assumption
  · assumption

theorem keeps_State_setFwd {s t : State} {a1 : _} {a2 : _} {a3 : _} (h : Keeps s t) :
    Keeps s (State.setFwd t a1 a2 a3) := by
  unfold State.setFwd
  refine Keeps.same (t := t) ?_ rfl rfl rfl
  assumption

theorem keeps_State_crMemberTimeout {s t : State} {a1 : _} (h : Keeps s t) :
    Keeps s (State.crMemberTimeout t a1) := by
  unfold State.crMemberTimeout
  extract_lets +onlyGivenNames x1
  clear_value x1
  extract_lets +onlyGivenNames x2
  clear_value x2
  refine Keeps.ite ?_ ?_
  · refine keeps_State_crLost ?_
    refine keeps_State_crChanEnd ?_
    refine keeps_State_crChanOpen ?_
    refine keeps_State_setNode ?_
    assumption
  · assumption

theorem keeps_State_rxStamp {s t : State} {a1 : _} {a2 : _} {a3 : _} (h : Keeps s t) :
    Keeps s (State.rxStamp t a1 a2 a3).2 := by
  refine KeepsS.out ?_
  unfold State.rxStamp
  refine KeepsS.ite ?_ ?_
  · refine KeepsS.pair ?_
    assumption
  · extract_lets +onlyGivenNames x1
    have hx1 : Keeps s x1.2 := ?_
    · clear_value x1
      extract_lets +onlyGivenNames x2
      have hx2 : Keeps s x2.2 := ?_
      · clear_value x2
        refine KeepsS.pair ?_
        assumption
      · unfold x2
        refine keeps_State_draw ?_
        assumption
    · unfold x1
      refine keeps_State_draw ?_
      assumption

theorem keeps_State_rxDeliver {s t : State} {a1 : _} {a2 : _} {a3 : _} {a4 : _} {a5 : _} {u : State} (h : Keeps s t)
    (e : State.rxDeliver t a1 a2 a3 a4 a5 = some u) : Keeps s u := by
  unfold State.rxDeliver at e
  split at e
  · contradiction
  · injection e with e; subst e
    exact keeps_State_endLong (keeps_State_outBuf (keeps_State_rxStamp h))

theorem keeps_State_crDeliverAcyc {s t : State} {a1 : _} {a2 : _} {a3 : _} (h : Keeps s t) :
    Keeps s (State.crDeliverAcyc t a1 a2 a3) := by
  unfold State.crDeliverAcyc
  extract_lets +onlyGivenNames x1
  clear_value x1
  split
  · refine keeps_State_satAdd ?_
    refine keeps_State_rxDeliver ?_ (by assumption)
    assumption
  · refine keeps_State_raise ?_
    refine keeps_State_satAdd ?_
    assumption

theorem keeps_State_crBuffer {s t : State} {a1 : _} {a2 : _} {a3 : _} (h : Keeps s t) :
    Keeps s (State.crBuffer t a1 a2 a3) := by
  unfold State.crBuffer
  extract_lets +onlyGivenNames x1
  clear_value x1
  refine Keeps.ite ?_ ?_
  · refine keeps_State_satAdd ?_
    assumption
  · refine keeps_State_setFwd ?_
    assumption

theorem keeps_State_crAcycRx {s t : State} {a1 : _} {a2 : _} {a3 : _} {a4 : _} (h : Keeps s t) :
    Keeps s (State.crAcycRx t a1 a2 a3 a4) := by
  unfold State.crAcycRx
  refine Keeps.ite ?_ ?_
  · assumption
  · refine Keeps.ite ?_ ?_
    · refine keeps_State_satAdd ?_
      assumption
    · refine Keeps.ite ?_ ?_
      · assumption
      · refine Keeps.ite ?_ ?_
        · refine keeps_State_crDeliverAcyc ?_
          assumption
        · refine Keeps.ite ?_ ?_
          · refine keeps_State_crBuffer ?_
            refine keeps_State_crDeliverAcyc ?_
            assumption
          · refine keeps_State_crBuffer ?_
            assumption

theorem keeps_State_crTx {s t : State} {a1 : _} (h : Keeps s t) :
    Keeps s (State.crTx t a1) := by
  unfold State.crTx
  refine keeps_State_doLong (fun _ u1 hu1 => ?_) ?_
  · refine keeps_State_setOut ?_
    assumption
  · assumption

theorem keeps_State_crLinkChange {s t : State} {a1 : _} {a2 : _} (h : Keeps s t) :
    Keeps s (State.crLinkChange t a1 a2) := by
  unfold State.crLinkChange
  extract_lets +onlyGivenNames x1
  clear_value x1
  extract_lets +onlyGivenNames x2
  clear_value x2
  refine Keeps.ite ?_ ?_
  · assumption
  · extract_lets +onlyGivenNames x3
    have hx3 : Keeps s x3 := ?_
    · clear_value x3
      extract_lets +onlyGivenNames x4
      have hx4 : Keeps s x4 := ?_
      · clear_value x4
        refine keeps_State_raise ?_
        assumption
      · unfold x4
        refine Keeps.ite ?_ ?_
        · refine Keeps.foldl ?_ (fun u5 y6 hu5 => ?_)
          · assumption
          · refine keeps_State_setOut ?_
            assumption
        · refine keeps_State_setPortNow ?_
          assumption
    · unfold x3
      refine keeps_State_wr ?_
      assumption

theorem keeps_State_crAcycForward {s t : State} {a1 : _} {a2 : _} (h : Keeps s t) :
    Keeps s (State.crAcycForward t a1 a2) := by
  unfold State.crAcycForward
  extract_lets +onlyGivenNames x1
  clear_value x1
  split
  · assumption
  · refine Keeps.ite ?_ ?_
    · refine keeps_State_setPortNow ?_
      refine keeps_State_portSend ?_
      refine keeps_State_setFwd ?_
      assumption
    · assumption

theorem keeps_State_crStop {s t : State} (h : Keeps s t) :
    Keeps s (State.crStop t) := by
  unfold State.crStop
  extract_lets +onlyGivenNames x1
  have hx1 : Keeps s x1 := ?_
  · clear_value x1
    refine Keeps.same (t := x1) ?_ rfl rfl rfl
    assumption
  · unfold x1
    refine Keeps.foldl ?_ (fun u2 y3 hu2 => ?_)
    · assumption
    · refine keeps_State_wr ?_
      assumption

theorem keeps_State_crMasterRx {s t : State} {a1 : _} {a2 : _} {a3 : _} {a4 : _} (h : Keeps s t) :
    Keeps s (State.crMasterRx t a1 a2 a3 a4) := by
  unfold State.crMasterRx
  refine Keeps.ite ?_ ?_
  · assumption
  · extract_lets +onlyGivenNames x1
    clear_value x1
    extract_lets +onlyGivenNames x2
    have hx2 : Keeps s x2 := ?_
    · clear_value x2
      refine Keeps.ite ?_ ?_
      · refine keeps_State_satAdd ?_
        assumption
      · refine Keeps.ite ?_ ?_
        · refine keeps_State_satAdd ?_
          assumption
        · extract_lets +onlyGivenNames x3
          clear_value x3
          extract_lets +onlyGivenNames x4
          clear_value x4
          refine Keeps.ite ?_ ?_
          · assumption
          · extract_lets +onlyGivenNames x5
            have hx5 : Keeps s x5 := ?_
            · clear_value x5
              refine Keeps.ite ?_ ?_
              · refine keeps_State_satAdd ?_
                assumption
              · extract_lets +onlyGivenNames x6
                clear_value x6
                extract_lets +onlyGivenNames x7
                have hx7 : Keeps s x7 := ?_
                · clear_value x7
                  extract_lets +onlyGivenNames x8
                  clear_value x8
                  extract_lets +onlyGivenNames x9
                  have hx9 : Keeps s x9 := ?_
                  · clear_value x9
                    extract_lets +onlyGivenNames x10
                    have hx10 : Keeps s x10 := ?_
                    · clear_value x10
                      refine keeps_State_recEvent ?_
                      assumption
                    · unfold x10
                      refine keeps_State_crMissAll ?_
                      refine keeps_State_crDeliver ?_
                      assumption
                  · unfold x9
                    refine keeps_State_setNode ?_
                    assumption
                · unfold x7
                  refine keeps_State_crRun ?_
                  refine keeps_State_peak ?_
                  refine keeps_State_wr ?_
                  assumption
            · unfold x5
              refine keeps_State_crGot ?_
              assumption
    · unfold x2
      refine keeps_State_satAdd ?_
      assumption

theorem keeps_State_crSendCopy {s t : State} {a1 : _} {a2 : _} {a3 : _} {a4 : _} (h : Keeps s t) :
    Keeps s (State.crSendCopy t a1 a2 a3 a4) := by
  unfold State.crSendCopy
  extract_lets +onlyGivenNames x1
  clear_value x1
  refine Keeps.ite ?_ ?_
  · refine keeps_State_portSend ?_
    refine keeps_State_crCut ?_
    assumption
  · assumption

theorem keeps_State_crFire {s t : State} {a1 : _} (h : Keeps s t) :
    Keeps s (State.crFire t a1) := by
  unfold State.crFire
  extract_lets +onlyGivenNames x1
  have hx1 : Keeps s x1 := ?_
  · clear_value x1
    extract_lets +onlyGivenNames x2
    have hx2 : Keeps s x2 := ?_
    · clear_value x2
      extract_lets +onlyGivenNames x3
      clear_value x3
      extract_lets +onlyGivenNames x4
      clear_value x4
      extract_lets +onlyGivenNames x5
      have hx5 : Keeps s x5 := ?_
      · clear_value x5
        extract_lets +onlyGivenNames x6
        clear_value x6
        extract_lets +onlyGivenNames x7
        have hx7 : Keeps s x7 := ?_
        · clear_value x7
          refine keeps_State_crSendCopy ?_
          refine keeps_State_crSendCopy ?_
          assumption
        · unfold x7
          refine keeps_State_setNode ?_
          assumption
      · unfold x5
        refine keeps_State_wr ?_
        assumption
    · unfold x2
      refine keeps_State_crChanOpen ?_
      assumption
  · unfold x1
    refine Keeps.ite ?_ ?_
    · assumption
    · refine keeps_State_crLost ?_
      assumption

theorem keeps_State_crFires {s t : State} {a1 : _} (h : Keeps s t) :
    Keeps s (State.crFires t a1) := by
  unfold State.crFires
  refine Keeps.foldl ?_ (fun u1 y2 hu1 => ?_)
  · assumption
  · refine Keeps.ite ?_ ?_
    · refine Keeps.ite ?_ ?_
      · refine keeps_State_crFire ?_
        assumption
      · refine keeps_State_wr ?_
        assumption
    · assumption

theorem keeps_State_crClear {s t : State} {a1 : _} {a2 : _} (h : Keeps s t) :
    Keeps s (State.crClear t a1 a2) := by
  unfold State.crClear
  refine Keeps.ite ?_ ?_
  · extract_lets +onlyGivenNames x1
    have hx1 : Keeps s x1 := ?_
    · clear_value x1
      refine Keeps.foldl ?_ (fun u2 y3 hu2 => ?_)
      · assumption
      · refine Keeps.foldl ?_ (fun u4 y5 hu4 => ?_)
        · assumption
        · refine keeps_State_setReg ?_
          assumption
    · unfold x1
      refine keeps_State_wr ?_
      refine keeps_State_wr ?_
      assumption
  · assumption

theorem keeps_runCrStatus {s t : State} {a0 : _} {a1 : _} (h : Keeps s t) :
    Keeps s (runCrStatus a0 a1 t).1 := by
  refine KeepsF.out ?_
  unfold runCrStatus
  refine KeepsF.ite ?_ ?_
  · refine KeepsF.pair ?_
    assumption
  · extract_lets +onlyGivenNames x1
    clear_value x1
    refine KeepsF.pair ?_
    refine keeps_State_outBuf ?_
    assumption

theorem keeps_State_crTxStart {s t : State} {a1 : _} (h : Keeps s t) :
    Keeps s (State.crTxStart t a1) := by
  unfold State.crTxStart
  extract_lets +onlyGivenNames x1
  clear_value x1
  split
  · assumption
  · extract_lets +onlyGivenNames x2
    clear_value x2
    refine Keeps.ite ?_ ?_
    · assumption
    · extract_lets +onlyGivenNames x3
      have hx3 : Keeps s x3.2 := ?_
      · clear_value x3
        refine Keeps.ite ?_ ?_
        · refine keeps_State_endLong ?_
          assumption
        · extract_lets +onlyGivenNames x4
          clear_value x4
          extract_lets +onlyGivenNames x5
          have hx5 : Keeps s x5 := ?_
          · clear_value x5
            refine Keeps.ite ?_ ?_
            · refine keeps_State_tsqStamp ?_
              assumption
            · assumption
          · unfold x5
            refine keeps_State_setPortNow ?_
            refine keeps_State_portSend ?_
            assumption
      · unfold x3
        refine keeps_State_readCheck ?_
        assumption

theorem keeps_State_crTxExpiry {s t : State} {a1 : _} (h : Keeps s t) :
    Keeps s (State.crTxExpiry t a1) := by
  unfold State.crTxExpiry
  split
  · assumption
  · refine Keeps.ite ?_ ?_
    · refine keeps_State_endLong ?_
      assumption
    · assumption

theorem keeps_State_crSetupCheck {s t : State} (h : Keeps s t) :
    Keeps s (State.crSetupCheck t).2 := by
  refine KeepsS.out ?_
  unfold State.crSetupCheck
  split
  · refine KeepsS.pair ?_
    assumption
  · refine KeepsS.pair ?_
    refine keeps_State_raise ?_
    refine keeps_State_wr ?_
    refine keeps_State_wr ?_
    refine keeps_State_wr ?_
    assumption

theorem keeps_State_crTxEnd {s t : State} {a1 : _} (h : Keeps s t) :
    Keeps s (State.crTxEnd t a1) := by
  unfold State.crTxEnd
  split
  · refine Keeps.ite ?_ ?_
    · assumption
    · split
      · refine keeps_State_setPortNow ?_
        assumption
      · refine keeps_State_endLong ?_
        refine keeps_State_satAdd ?_
        refine keeps_State_setPortNow ?_
        assumption
  · assumption

theorem keeps_State_crStart {s t : State} {a1 : _} (h : Keeps s t) :
    Keeps s (State.crStart t a1) := by
  unfold State.crStart
  refine Keeps.foldl ?_ (fun u1 y2 hu1 => ?_)
  · assumption
  · refine Keeps.ite ?_ ?_
    · assumption
    · extract_lets +onlyGivenNames x3
      clear_value x3
      extract_lets +onlyGivenNames x4
      have hx4 : Keeps s x4 := ?_
      · clear_value x4
        refine Keeps.ite ?_ ?_
        · refine keeps_State_wr ?_
          assumption
        · assumption
      · unfold x4
        refine keeps_State_setNode ?_
        refine keeps_State_wr ?_
        assumption

theorem keeps_State_pwmStart {s t : State} {a1 : _} {a2 : _} {a3 : _} (h : Keeps s t) :
    Keeps s (State.pwmStart t a1 a2 a3) := by
  unfold State.pwmStart
  extract_lets +onlyGivenNames x1
  clear_value x1
  refine keeps_State_setDio ?_
  assumption

theorem keeps_State_dioTake {s t : State} {a1 : _} {a2 : _} {a3 : _} (h : Keeps s t) :
    Keeps s (State.dioTake t a1 a2 a3) := by
  unfold State.dioTake
  refine Keeps.ite ?_ ?_
  · refine keeps_State_pwmStart ?_
    assumption
  · assumption

theorem keeps_State_aiKeep {s t : State} {a1 : _} (h : Keeps s t) :
    Keeps s (State.aiKeep t a1) := by
  unfold State.aiKeep
  extract_lets +onlyGivenNames x1
  clear_value x1
  extract_lets +onlyGivenNames x2
  clear_value x2
  refine keeps_State_setAi ?_
  assumption

theorem keeps_State_aiAbort {s t : State} {a1 : _} {a2 : _} (h : Keeps s t) :
    Keeps s (State.aiAbort t a1 a2) := by
  unfold State.aiAbort
  refine Keeps.foldl ?_ (fun u1 y2 hu1 => ?_)
  · assumption
  · refine Keeps.ite ?_ ?_
    · refine keeps_State_endLong ?_
      assumption
    · assumption

theorem keeps_State_aiAlign {s t : State} {a1 : _} {a2 : _} {a3 : _} (h : Keeps s t) :
    Keeps s (State.aiAlign t a1 a2 a3) := by
  unfold State.aiAlign
  extract_lets +onlyGivenNames x1
  clear_value x1
  extract_lets +onlyGivenNames x2
  clear_value x2
  extract_lets +onlyGivenNames x3
  clear_value x3
  refine Keeps.ite ?_ ?_
  · assumption
  · refine Keeps.ite ?_ ?_
    · refine keeps_State_setAi ?_
      assumption
    · refine keeps_State_setAi ?_
      assumption

theorem keeps_State_aiStart {s t : State} {a1 : _} (h : Keeps s t) :
    Keeps s (State.aiStart t a1) := by
  unfold State.aiStart
  split
  · assumption
  · refine Keeps.ite ?_ ?_
    · assumption
    · refine Keeps.ite ?_ ?_
      · refine keeps_State_setOut ?_
        assumption
      · extract_lets +onlyGivenNames x1
        clear_value x1
        refine Keeps.ite ?_ ?_
        · refine Keeps.ite ?_ ?_
          · refine keeps_State_setOut ?_
            assumption
          · refine keeps_State_setOut ?_
            assumption
        · extract_lets +onlyGivenNames x2
          have hx2 : Keeps s x2.2 := ?_
          · clear_value x2
            refine Keeps.ite ?_ ?_
            · refine keeps_State_endLong ?_
              assumption
            · refine Keeps.ite ?_ ?_
              · refine keeps_State_endLong ?_
                assumption
              · refine keeps_State_setOut ?_
                assumption
          · unfold x2
            refine keeps_State_readCheck ?_
            assumption

theorem keeps_State_aiRun {s t : State} {a1 : _} {a2 : _} (h : Keeps s t) : Keeps s (State.aiRun t a1 a2) := by
  induction a2 generalizing t with
  | zero => exact h
  | succ n ih =>
    unfold State.aiRun
    extract_lets +onlyGivenNames x1
    have h1 : Keeps s x1 := keeps_State_aiStart h
    exact Keeps.ite (ih h1) h1

theorem keeps_State_aiGoOn {s t : State} {a1 : _} (h : Keeps s t) :
    Keeps s (State.aiGoOn t a1) := by
  unfold State.aiGoOn
  refine keeps_State_aiRun ?_
  assumption

theorem keeps_State_aiChange {s t : State} {a1 : _} {a2 : _} {a3 : _} {a4 : _} {a5 : _} (h : Keeps s t) :
    Keeps s (State.aiChange t a1 a2 a3 a4 a5) := by
  unfold State.aiChange
  extract_lets +onlyGivenNames x1
  clear_value x1
  extract_lets +onlyGivenNames x2
  clear_value x2
  extract_lets +onlyGivenNames x3
  have hx3 : Keeps s x3 := ?_
  · clear_value x3
    extract_lets +onlyGivenNames x4
    clear_value x4
    extract_lets +onlyGivenNames x5
    have hx5 : Keeps s x5 := ?_
    · clear_value x5
      extract_lets +onlyGivenNames x6
      have hx6 : Keeps s x6 := ?_
      · clear_value x6
        extract_lets +onlyGivenNames x7
        have hx7 : Keeps s x7 := ?_
        · clear_value x7
          extract_lets +onlyGivenNames x8
          have hx8 : Keeps s x8 := ?_
          · clear_value x8
            refine keeps_State_aiGoOn ?_
            assumption
          · unfold x8
            refine Keeps.ite ?_ ?_
            · refine keeps_State_aiAlign ?_
              assumption
            · assumption
        · unfold x7
          refine Keeps.ite ?_ ?_
          · refine keeps_State_aiAbort ?_
            assumption
          · assumption
      · unfold x6
        refine keeps_State_aiAbort ?_
        assumption
    · unfold x5
      refine Keeps.ite ?_ ?_
      · refine keeps_State_aiAbort ?_
        refine keeps_State_setAi ?_
        assumption
      · assumption
  · unfold x3
    refine keeps_State_aiKeep ?_
    refine keeps_State_setReg ?_
    refine keeps_State_setReg ?_
    assumption

theorem keeps_State_applyChange {s t : State} {a1 : _} {a2 : _} {a3 : _} {a4 : _} {a5 : _} {a6 : _} (h : Keeps s t) :
    Keeps s (State.applyChange t a1 a2 a3 a4 a5 a6) := by
  unfold State.applyChange
  split
  · assumption
  · refine Keeps.ite ?_ ?_
    · assumption
    · extract_lets +onlyGivenNames x1
      have hx1 : Keeps s x1 := ?_
      · clear_value x1
        refine Keeps.ite ?_ ?_
        · extract_lets +onlyGivenNames x2
          clear_value x2
          extract_lets +onlyGivenNames x3
          have hx3 : Keeps s x3 := ?_
          · clear_value x3
            refine keeps_State_dioTake ?_
            assumption
          · unfold x3
            refine keeps_State_setReg ?_
            refine keeps_State_setReg ?_
            refine keeps_State_dioStop ?_
            assumption
        · refine keeps_State_aiChange ?_
          assumption
      · unfold x1
        refine keeps_State_setOut ?_
        assumption

theorem keeps_State_alignDone {s t : State} (h : Keeps s t) :
    Keeps s (State.alignDone t) := by
  unfold State.alignDone
  split
  · assumption
  · extract_lets +onlyGivenNames x1
    clear_value x1
    extract_lets +onlyGivenNames x2
    clear_value x2
    extract_lets +onlyGivenNames x3
    have hx3 : Keeps s x3 := ?_
    · clear_value x3
      refine keeps_State_raise ?_
      refine keeps_State_satAdd ?_
      refine keeps_State_wr64 ?_
      assumption
    · unfold x3
      refine Keeps.same (t := t) ?_ rfl rfl rfl
      assumption

theorem keeps_State_aiEnd {s t : State} {a1 : _} {a2 : _} {a3 : _} (h : Keeps s t) :
    Keeps s (State.aiEnd t a1 a2 a3) := by
  unfold State.aiEnd
  refine keeps_State_aiGoOn ?_
  refine keeps_State_endLong ?_
  assumption

theorem keeps_State_funcDone {s t : State} {a1 : _} {a2 : _} (h : Keeps s t) :
    Keeps s (State.funcDone t a1 a2) := by
  unfold State.funcDone
  refine keeps_State_endLong ?_
  assumption

theorem keeps_State_downSend {s t : State} {a1 : _} {a2 : _} {a3 : _} {a4 : _} (h : Keeps s t) :
    Keeps s (State.downSend t a1 a2 a3 a4) := by
  unfold State.downSend
  refine keeps_State_setIsl ?_
  assumption

theorem keeps_State_upStart {s t : State} {a1 : _} (h : Keeps s t) :
    Keeps s (State.upStart t a1) := by
  unfold State.upStart
  extract_lets +onlyGivenNames x1
  clear_value x1
  split
  · assumption
  · extract_lets +onlyGivenNames x2
    clear_value x2
    refine keeps_State_setIsl ?_
    assumption

theorem keeps_State_upsStart {s t : State} (h : Keeps s t) :
    Keeps s (State.upsStart t) := by
  unfold State.upsStart
  refine Keeps.foldl ?_ (fun u1 y2 hu1 => ?_)
  · assumption
  · refine keeps_State_upStart ?_
    assumption

theorem keeps_State_applySet {s t : State} {a1 : _} {a2 : _} {a3 : _} (h : Keeps s t) :
    Keeps s (State.applySet t a1 a2 a3) := by
  unfold State.applySet
  extract_lets +onlyGivenNames x1
  clear_value x1
  extract_lets +onlyGivenNames x2
  clear_value x2
  extract_lets +onlyGivenNames x3
  have hx3 : Keeps s x3 := ?_
  · clear_value x3
    refine Keeps.ite ?_ ?_
    · assumption
    · refine Keeps.ite ?_ ?_
      · refine keeps_State_setDio ?_
        assumption
      · refine keeps_State_setDio ?_
        assumption
  · unfold x3
    refine keeps_State_setDio ?_
    assumption

theorem keeps_State_applySets {s t : State} {a1 : _} {a2 : _} (h : Keeps s t) :
    Keeps s (State.applySets t a1 a2) := by
  unfold State.applySets
  refine Keeps.foldl ?_ (fun u1 y2 hu1 => ?_)
  · assumption
  · refine keeps_State_applySet ?_
    assumption

theorem keeps_State_applySup {s t : State} {a1 : _} {a2 : _} (h : Keeps s t) :
    Keeps s (State.applySup t a1 a2) := by
  unfold State.applySup
  refine keeps_State_aiKeep ?_
  refine keeps_State_setAi ?_
  assumption

theorem keeps_State_aiCut {s t : State} {a1 : _} {a2 : _} (h : Keeps s t) :
    Keeps s (State.aiCut t a1 a2) := by
  unfold State.aiCut
  extract_lets +onlyGivenNames x1
  clear_value x1
  extract_lets +onlyGivenNames x2
  have hx2 : Keeps s x2 := ?_
  · clear_value x2
    refine keeps_State_aiGoOn ?_
    refine keeps_State_aiAbort ?_
    assumption
  · unfold x2
    refine Keeps.ite ?_ ?_
    · refine keeps_State_aiKeep ?_
      refine keeps_State_setAi ?_
      assumption
    · assumption

theorem keeps_State_applyOutput {s t : State} {a1 : _} {a2 : _} {a3 : _} (h : Keeps s t) :
    Keeps s (State.applyOutput t a1 a2 a3) := by
  unfold State.applyOutput
  extract_lets +onlyGivenNames x1
  clear_value x1
  refine Keeps.ite ?_ ?_
  · assumption
  · extract_lets +onlyGivenNames x2
    have hx2 : Keeps s x2 := ?_
    · clear_value x2
      extract_lets +onlyGivenNames x3
      have hx3 : Keeps s x3 := ?_
      · clear_value x3
        split
        · assumption
        · refine Keeps.ite ?_ ?_
          · assumption
          · refine Keeps.ite ?_ ?_
            · extract_lets +onlyGivenNames x4
              have hx4 : Keeps s x4 := ?_
              · clear_value x4
                refine Keeps.ite ?_ ?_
                · refine keeps_State_dioStop ?_
                  assumption
                · refine keeps_State_aiCut ?_
                  assumption
              · unfold x4
                refine keeps_State_setOut ?_
                assumption
            · extract_lets +onlyGivenNames x5
              clear_value x5
              extract_lets +onlyGivenNames x6
              have hx6 : Keeps s x6 := ?_
              · clear_value x6
                refine keeps_State_funcDone ?_
                assumption
              · unfold x6
                refine Keeps.ite ?_ ?_
                · refine keeps_State_setAi ?_
                  assumption
                · assumption
      · unfold x3
        refine Keeps.ite ?_ ?_
        · refine keeps_State_applySets ?_
          assumption
        · refine Keeps.ite ?_ ?_
          · refine keeps_State_applySup ?_
            refine keeps_State_applySup ?_
            assumption
          · assumption
    · unfold x2
      refine keeps_State_setIsl ?_
      assumption

theorem keeps_State_linkAbort {s t : State} {a1 : _} (h : Keeps s t) :
    Keeps s (State.linkAbort t a1) := by
  unfold State.linkAbort
  refine Keeps.foldl ?_ (fun u1 y2 hu1 => ?_)
  · assumption
  · refine Keeps.ite ?_ ?_
    · refine keeps_State_endLong ?_
      assumption
    · refine Keeps.ite ?_ ?_
      · refine keeps_State_endLong ?_
        assumption
      · assumption

theorem keeps_State_linkEvent {s t : State} {a1 : _} {a2 : _} {a3 : _} (h : Keeps s t) :
    Keeps s (State.linkEvent t a1 a2 a3) := by
  unfold State.linkEvent
  refine keeps_State_raise ?_
  assumption

theorem keeps_State_unalign {s t : State} {a1 : _} (h : Keeps s t) :
    Keeps s (State.unalign t a1) := by
  unfold State.unalign
  refine Keeps.ite ?_ ?_
  · extract_lets +onlyGivenNames x1
    clear_value x1
    refine keeps_State_setAi ?_
    refine keeps_State_setAi ?_
    assumption
  · assumption

theorem keeps_State_linkFault {s t : State} {a1 : _} {a2 : _} (h : Keeps s t) :
    Keeps s (State.linkFault t a1 a2) := by
  unfold State.linkFault
  extract_lets +onlyGivenNames x1
  clear_value x1
  extract_lets +onlyGivenNames x2
  have hx2 : Keeps s x2 := ?_
  · clear_value x2
    extract_lets +onlyGivenNames x3
    have hx3 : Keeps s x3 := ?_
    · clear_value x3
      extract_lets +onlyGivenNames x4
      have hx4 : Keeps s x4 := ?_
      · clear_value x4
        split
        · refine Keeps.ite ?_ ?_
          · refine Keeps.same (t := x4) ?_ rfl rfl rfl
            assumption
          · assumption
        · assumption
      · unfold x4
        refine keeps_State_linkAbort ?_
        refine keeps_State_unalign ?_
        assumption
    · unfold x3
      refine keeps_State_linkEvent ?_
      refine keeps_State_satAdd ?_
      refine keeps_State_setLink ?_
      assumption
  · unfold x2
    refine keeps_State_setIsl ?_
    assumption

theorem keeps_State_linkLoad {s t : State} {a1 : _} (h : Keeps s t) :
    Keeps s (State.linkLoad t a1) := by
  unfold State.linkLoad
  refine keeps_State_setLink ?_
  refine keeps_State_setIsl ?_
  assumption

theorem keeps_State_linkHeard {s t : State} {a1 : _} {a2 : _} {a3 : _} (h : Keeps s t) :
    Keeps s (State.linkHeard t a1 a2 a3) := by
  unfold State.linkHeard
  extract_lets +onlyGivenNames x1
  clear_value x1
  extract_lets +onlyGivenNames x2
  clear_value x2
  refine Keeps.ite ?_ ?_
  · refine Keeps.ite ?_ ?_
    · refine keeps_State_linkLoad ?_
      assumption
    · assumption
  · refine Keeps.ite ?_ ?_
    · refine Keeps.ite ?_ ?_
      · refine keeps_State_setLink ?_
        refine keeps_State_setIsl ?_
        assumption
      · assumption
    · refine Keeps.ite ?_ ?_
      · split
        · refine Keeps.ite ?_ ?_
          · refine keeps_State_linkFault ?_
            assumption
          · assumption
        · assumption
      · refine Keeps.ite ?_ ?_
        · refine Keeps.ite ?_ ?_
          · refine Keeps.ite ?_ ?_
            · refine keeps_State_linkEvent ?_
              refine keeps_State_setLink ?_
              refine keeps_State_setIsl ?_
              assumption
            · refine keeps_State_linkEvent ?_
              refine keeps_State_linkLoad ?_
              assumption
          · assumption
        · assumption

theorem keeps_State_dioEvents {s t : State} {a1 : _} {a2 : _} {a3 : _} (h : Keeps s t) :
    Keeps s (State.dioEvents t a1 a2 a3) := by
  unfold State.dioEvents
  extract_lets +onlyGivenNames x1
  have hx1 : Keeps s x1 := ?_
  · clear_value x1
    extract_lets +onlyGivenNames x2
    clear_value x2
    refine Keeps.ite ?_ ?_
    · assumption
    · refine keeps_State_raise ?_
      assumption
  · unfold x1
    refine Keeps.foldl ?_ (fun u3 y4 hu3 => ?_)
    · assumption
    · extract_lets +onlyGivenNames x5
      clear_value x5
      refine Keeps.ite ?_ ?_
      · assumption
      · refine keeps_State_raise ?_
        assumption

theorem keeps_State_heldUpdate {s t : State} {a1 : _} {a2 : _} (h : Keeps s t) :
    Keeps s (State.heldUpdate t a1 a2) := by
  unfold State.heldUpdate
  extract_lets +onlyGivenNames x1
  clear_value x1
  extract_lets +onlyGivenNames x2
  clear_value x2
  extract_lets +onlyGivenNames x3
  have hx3 : Keeps s x3 := ?_
  · clear_value x3
    refine Keeps.ite ?_ ?_
    · refine keeps_State_dioEvents ?_
      assumption
    · assumption
  · unfold x3
    refine keeps_State_setIsl ?_
    assumption

theorem keeps_State_alignEvent {s t : State} {a1 : _} {a2 : _} (h : Keeps s t) :
    Keeps s (State.alignEvent t a1 a2) := by
  unfold State.alignEvent
  split
  · refine keeps_State_raise ?_
    refine keeps_State_satAdd ?_
    assumption
  · extract_lets +onlyGivenNames x1
    have hx1 : Keeps s x1 := ?_
    · clear_value x1
      refine Keeps.same (t := x1) ?_ rfl rfl rfl
      assumption
    · unfold x1
      refine keeps_State_alignDone ?_
      assumption

theorem keeps_State_aiTake {s t : State} {a1 : _} {a2 : _} (h : Keeps s t) :
    Keeps s (State.aiTake t a1 a2) := by
  unfold State.aiTake
  refine keeps_State_setAi ?_
  assumption

theorem keeps_State_applyLoad {s t : State} {a1 : _} {a2 : _} (h : Keeps s t) :
    Keeps s (State.applyLoad t a1 a2) := by
  unfold State.applyLoad
  extract_lets +onlyGivenNames x1
  clear_value x1
  extract_lets +onlyGivenNames x2
  have hx2 : Keeps s x2 := ?_
  · clear_value x2
    refine keeps_State_setIsl ?_
    assumption
  · unfold x2
    refine Keeps.ite ?_ ?_
    · refine Keeps.foldl ?_ (fun u3 y4 hu3 => ?_)
      · assumption
      · refine keeps_State_dioTake ?_
        assumption
    · refine Keeps.ite ?_ ?_
      · refine keeps_State_aiTake ?_
        refine keeps_State_aiTake ?_
        assumption
      · assumption

theorem keeps_State_applyRearm {s t : State} {a1 : _} {a2 : _} {a3 : _} (h : Keeps s t) :
    Keeps s (State.applyRearm t a1 a2 a3) := by
  unfold State.applyRearm
  extract_lets +onlyGivenNames x1
  have hx1 : Keeps s x1 := ?_
  · clear_value x1
    refine Keeps.ite ?_ ?_
    · extract_lets +onlyGivenNames x2
      clear_value x2
      extract_lets +onlyGivenNames x3
      have hx3 : Keeps s x3 := ?_
      · clear_value x3
        refine Keeps.foldl ?_ (fun u4 y5 hu4 => ?_)
        · assumption
        · refine Keeps.ite ?_ ?_
          · refine keeps_State_setDio ?_
            assumption
          · assumption
      · unfold x3
        refine keeps_State_setIsl ?_
        assumption
    · assumption
  · unfold x1
    refine Keeps.foldl ?_ (fun u6 y7 hu6 => ?_)
    · assumption
    · refine Keeps.ite ?_ ?_
      · refine keeps_State_setDio ?_
        assumption
      · assumption

theorem keeps_State_frameEnd {s t : State} {a1 : _} {a2 : _} {a3 : _} {a4 : _} (h : Keeps s t) :
    Keeps s (State.frameEnd t a1 a2 a3 a4) := by
  unfold State.frameEnd
  extract_lets +onlyGivenNames x1
  clear_value x1
  extract_lets +onlyGivenNames x2
  have hx2 : Keeps s x2 := ?_
  · clear_value x2
    extract_lets +onlyGivenNames x3
    clear_value x3
    extract_lets +onlyGivenNames x4
    split
    · refine keeps_State_applyOutput ?_
      unfold x4
      refine Keeps.ite ?_ ?_
      · refine keeps_State_aiAlign ?_
        refine keeps_State_aiAlign ?_
        assumption
      · assumption
    · refine Keeps.ite ?_ ?_
      · refine keeps_State_applyLoad ?_
        assumption
      · assumption
    · refine keeps_State_applyChange ?_
      unfold x4
      refine Keeps.ite ?_ ?_
      · refine keeps_State_aiAlign ?_
        refine keeps_State_aiAlign ?_
        assumption
      · assumption
    · refine Keeps.ite ?_ ?_
      · refine keeps_State_applyRearm ?_
        assumption
      · assumption
    · refine keeps_State_islandSafe ?_
      assumption
    · unfold x4
      refine Keeps.ite ?_ ?_
      · refine keeps_State_aiAlign ?_
        refine keeps_State_aiAlign ?_
        assumption
      · assumption
  · unfold x2
    refine keeps_State_setIsl ?_
    assumption

theorem keeps_State_offPulseEnd {s t : State} {a1 : _} (h : Keeps s t) :
    Keeps s (State.offPulseEnd t a1) := by
  unfold State.offPulseEnd
  extract_lets +onlyGivenNames x1
  clear_value x1
  extract_lets +onlyGivenNames x2
  have hx2 : Keeps s x2 := ?_
  · clear_value x2
    refine Keeps.ite ?_ ?_
    · assumption
    · refine keeps_State_raise ?_
      refine keeps_State_wr ?_
      assumption
  · unfold x2
    refine Keeps.same (t := t) ?_ rfl rfl rfl
    assumption

theorem keeps_State_testSent {s t : State} {a1 : _} {a2 : _} (h : Keeps s t) :
    Keeps s (State.testSent t a1 a2) := by
  unfold State.testSent
  extract_lets +onlyGivenNames x1
  extract_lets +onlyGivenNames x2
  extract_lets +onlyGivenNames x3
  have hx3 : Keeps s x3 := ?_
  · clear_value x3
    refine Keeps.same (t := x3) ?_ rfl rfl rfl
    assumption
  · unfold x3
    refine keeps_State_setIsl ?_
    assumption

theorem keeps_State_sentContent {s t : State} {a1 : _} {a2 : _} (h : Keeps s t) :
    Keeps s (State.sentContent t a1 a2) := by
  unfold State.sentContent
  extract_lets +onlyGivenNames x1
  clear_value x1
  split
  · extract_lets +onlyGivenNames x2
    clear_value x2
    refine keeps_State_setIsl ?_
    assumption
  · refine keeps_State_setIsl ?_
    assumption
  · refine keeps_State_testSent ?_
    assumption
  · assumption

theorem keeps_State_frameStart {s t : State} {a1 : _} {a2 : _} {a3 : _} {a4 : _} (h : Keeps s t) :
    Keeps s (State.frameStart t a1 a2 a3 a4) := by
  unfold State.frameStart
  extract_lets +onlyGivenNames x1
  clear_value x1
  extract_lets +onlyGivenNames x2
  have hx2 : Keeps s x2 := ?_
  · clear_value x2
    extract_lets +onlyGivenNames x3
    have hx3 : Keeps s x3 := ?_
    · clear_value x3
      extract_lets +onlyGivenNames x4
      clear_value x4
      extract_lets +onlyGivenNames x5
      clear_value x5
      refine Keeps.ite ?_ ?_
      · assumption
      · refine Keeps.ite ?_ ?_
        · extract_lets +onlyGivenNames x6
          clear_value x6
          refine keeps_State_downSend ?_
          refine keeps_State_sentContent ?_
          assumption
        · refine Keeps.ite ?_ ?_
          · refine keeps_State_downSend ?_
            refine keeps_State_setIsl ?_
            assumption
          · refine keeps_State_downSend ?_
            assumption
    · unfold x3
      refine Keeps.ite ?_ ?_
      · refine keeps_State_linkFault ?_
        assumption
      · assumption
  · unfold x2
    refine keeps_State_setIsl ?_
    assumption

theorem keeps_State_framesStart {s t : State} {a1 : _} (h : Keeps s t) :
    Keeps s (State.framesStart t a1) := by
  unfold State.framesStart
  extract_lets +onlyGivenNames x1
  have hx1 : Keeps s x1 := ?_
  · clear_value x1
    extract_lets +onlyGivenNames x2
    clear_value x2
    extract_lets +onlyGivenNames x3
    have hx3 : Keeps s x3 := ?_
    · clear_value x3
      extract_lets +onlyGivenNames x4
      clear_value x4
      extract_lets +onlyGivenNames x5
      clear_value x5
      extract_lets +onlyGivenNames x6
      have hx6 : Keeps s x6 := ?_
      · clear_value x6
        extract_lets +onlyGivenNames x7
        clear_value x7
        extract_lets +onlyGivenNames x8
        have hx8 : Keeps s x8 := ?_
        · clear_value x8
          split
          · refine Keeps.same (t := x8) ?_ rfl rfl rfl
            assumption
          · assumption
        · unfold x8
          refine Keeps.foldl ?_ (fun u9 y10 hu9 => ?_)
          · assumption
          · refine keeps_State_frameStart ?_
            assumption
      · unfold x6
        refine Keeps.ite ?_ ?_
        · refine Keeps.same (t := x3) ?_ rfl rfl rfl
          assumption
        · assumption
    · unfold x3
      refine Keeps.same (t := x1) ?_ rfl rfl rfl
      assumption
  · unfold x1
    refine keeps_State_alignDone ?_
    assumption

theorem keeps_State_testFailed {s t : State} {a1 : _} {a2 : _} {a3 : _} (h : Keeps s t) :
    Keeps s (State.testFailed t a1 a2 a3) := by
  unfold State.testFailed
  extract_lets +onlyGivenNames x1
  have hx1 : Keeps s x1 := ?_
  · clear_value x1
    refine keeps_State_raise ?_
    refine keeps_State_wr ?_
    assumption
  · unfold x1
    refine keeps_State_recNoteWrite ?_
    assumption

theorem keeps_State_offPulseSee {s t : State} {a1 : _} {a2 : _} (h : Keeps s t) :
    Keeps s (State.offPulseSee t a1 a2) := by
  unfold State.offPulseSee
  split
  · assumption
  · split
    · assumption
    · refine Keeps.ite ?_ ?_
      · assumption
      · extract_lets +onlyGivenNames x1
        clear_value x1
        refine Keeps.same (t := t) ?_ rfl rfl rfl
        assumption

theorem keeps_State_linkPairHold {s t : State} {a1 : _} (h : Keeps s t) :
    Keeps s (State.linkPairHold t a1) := by
  unfold State.linkPairHold
  refine Keeps.ite ?_ ?_
  · assumption
  · refine keeps_State_setLink ?_
    refine keeps_State_linkStop ?_
    assumption

theorem keeps_State_pairHold {s t : State} (h : Keeps s t) :
    Keeps s (State.pairHold t) := by
  unfold State.pairHold
  extract_lets +onlyGivenNames x1
  have hx1 : Keeps s x1 := ?_
  · clear_value x1
    refine Keeps.same (t := x1) ?_ rfl rfl rfl
    assumption
  · unfold x1
    refine Keeps.foldl ?_ (fun u2 y3 hu2 => ?_)
    · assumption
    · refine keeps_State_linkPairHold ?_
      assumption

theorem keeps_State_flueDrop {s t : State} (h : Keeps s t) :
    Keeps s (State.flueDrop t) := by
  unfold State.flueDrop
  extract_lets +onlyGivenNames x1
  have hx1 : Keeps s x1 := ?_
  · clear_value x1
    extract_lets +onlyGivenNames x2
    have hx2 : Keeps s x2 := ?_
    · clear_value x2
      refine Keeps.same (t := x2) ?_ rfl rfl rfl
      assumption
    · unfold x2
      refine keeps_State_setRecs ?_
      assumption
  · unfold x1
    refine Keeps.foldl ?_ (fun u3 y4 hu3 => ?_)
    · assumption
    · refine keeps_State_quotaHeld ?_
      assumption

theorem keeps_State_lanesOff {s t : State} (h : Keeps s t) :
    Keeps s (State.lanesOff t) := by
  unfold State.lanesOff
  extract_lets +onlyGivenNames x1
  have hx1 : Keeps s x1 := ?_
  · clear_value x1
    extract_lets +onlyGivenNames x2
    have hx2 : Keeps s x2 := ?_
    · clear_value x2
      refine Keeps.same (t := x2) ?_ rfl rfl rfl
      assumption
    · unfold x2
      refine keeps_State_wr ?_
      refine keeps_State_wr ?_
      assumption
  · unfold x1
    refine keeps_State_wr ?_
    refine keeps_State_wr ?_
    assumption

theorem keeps_State_rackFloat {s t : State} (h : Keeps s t) :
    Keeps s (State.rackFloat t) := by
  unfold State.rackFloat
  extract_lets +onlyGivenNames x1
  have hx1 : Keeps s x1 := ?_
  · clear_value x1
    refine keeps_State_wr ?_
    refine Keeps.same (t := x1) ?_ rfl rfl rfl
    assumption
  · unfold x1
    refine keeps_State_setCycle ?_
    assumption

theorem keeps_State_stopActing {s t : State} (h : Keeps s t) :
    Keeps s (State.stopActing t) := by
  unfold State.stopActing
  extract_lets +onlyGivenNames x1
  have hx1 : Keeps s x1 := ?_
  · clear_value x1
    extract_lets +onlyGivenNames x2
    clear_value x2
    extract_lets +onlyGivenNames x3
    clear_value x3
    extract_lets +onlyGivenNames x4
    clear_value x4
    extract_lets +onlyGivenNames x5
    clear_value x5
    extract_lets +onlyGivenNames x6
    clear_value x6
    extract_lets +onlyGivenNames x7
    have hx7 : Keeps s x7 := ?_
    · clear_value x7
      refine keeps_State_pairThrottle ?_
      refine keeps_State_rackFloat ?_
      refine keeps_State_pairHold ?_
      assumption
    · unfold x7
      refine Keeps.same (t := x1) ?_ rfl rfl rfl
      assumption
  · unfold x1
    refine keeps_State_flueDrop ?_
    refine keeps_State_lanesOff ?_
    assumption

theorem keeps_State_pairYield {s t : State} (h : Keeps s t) :
    Keeps s (State.pairYield t) := by
  unfold State.pairYield
  extract_lets +onlyGivenNames x1
  have hx1 : Keeps s x1 := ?_
  · clear_value x1
    refine keeps_State_pairSet ?_
    refine keeps_State_raise ?_
    refine keeps_State_satAdd ?_
    assumption
  · unfold x1
    refine keeps_State_setRole ?_
    refine keeps_State_stopActing ?_
    assumption

theorem keeps_State_pairFence {s t : State} {a1 : _} (h : Keeps s t) :
    Keeps s (State.pairFence t a1) := by
  unfold State.pairFence
  refine keeps_State_pairSet ?_
  refine keeps_State_setRole ?_
  assumption

theorem keeps_State_pairHears {s t : State} {a1 : _} (h : Keeps s t) :
    Keeps s (State.pairHears t a1) := by
  unfold State.pairHears
  refine Keeps.ite ?_ ?_
  · assumption
  · refine Keeps.ite ?_ ?_
    · refine keeps_State_pairYield ?_
      assumption
    · refine Keeps.ite ?_ ?_
      · refine keeps_State_pairFence ?_
        assumption
      · assumption

theorem keeps_State_cbUnann {s t : State} (h : Keeps s t) :
    Keeps s (State.cbUnann t) := by
  unfold State.cbUnann
  refine keeps_State_wr ?_
  refine keeps_State_wr ?_
  refine keeps_State_wr ?_
  assumption

theorem keeps_State_cbSet {s t : State} {a1 : _} (h : Keeps s t) :
    Keeps s (State.cbSet t a1) := by
  unfold State.cbSet
  refine Keeps.same (t := t) ?_ rfl rfl rfl
  assumption

theorem keeps_runCbAnnounce {s t : State} {a0 : _} (h : Keeps s t) :
    Keeps s (runCbAnnounce a0 t).1 := by
  refine KeepsF.out ?_
  unfold runCbAnnounce
  extract_lets +onlyGivenNames x1
  clear_value x1
  extract_lets +onlyGivenNames x2
  clear_value x2
  extract_lets +onlyGivenNames x3
  clear_value x3
  refine KeepsF.ite ?_ ?_
  · refine KeepsF.pair ?_
    assumption
  · refine KeepsF.ite ?_ ?_
    · refine KeepsF.ite ?_ ?_
      · refine KeepsF.pair ?_
        refine keeps_State_cbUnann ?_
        assumption
      · refine KeepsF.pair ?_
        assumption
    · refine KeepsF.ite ?_ ?_
      · refine KeepsF.pair ?_
        assumption
      · refine KeepsF.ite ?_ ?_
        · refine KeepsF.pair ?_
          assumption
        · extract_lets +onlyGivenNames x4
          have hx4 : Keeps s x4 := ?_
          · clear_value x4
            refine KeepsF.pair ?_
            refine keeps_State_cbSet ?_
            assumption
          · unfold x4
            refine keeps_State_wr ?_
            refine keeps_State_wr ?_
            refine keeps_State_wr ?_
            assumption

theorem keeps_State_cbGood {s t : State} {a1 : _} {a2 : _} (h : Keeps s t) :
    Keeps s (State.cbGood t a1 a2) := by
  unfold State.cbGood
  refine Keeps.ite ?_ ?_
  · assumption
  · refine keeps_State_raise ?_
    refine keeps_State_wr ?_
    assumption

theorem keeps_State_cbMissSet {s t : State} {a1 : _} {a2 : _} (h : Keeps s t) :
    Keeps s (State.cbMissSet t a1 a2) := by
  unfold State.cbMissSet
  extract_lets +onlyGivenNames x1
  have hx1 : Keeps s x1 := ?_
  · clear_value x1
    refine keeps_State_cbGood ?_
    assumption
  · unfold x1
    refine keeps_State_cbSet ?_
    assumption

theorem keeps_State_cbGot {s t : State} {a1 : _} (h : Keeps s t) :
    Keeps s (State.cbGot t a1) := by
  unfold State.cbGot
  refine keeps_State_cbMissSet ?_
  refine keeps_State_cbSet ?_
  assumption

theorem keeps_State_cbSee {s t : State} {a1 : _} {a2 : _} (h : Keeps s t) :
    Keeps s (State.cbSee t a1 a2) := by
  unfold State.cbSee
  refine keeps_State_cbSet ?_
  assumption

theorem keeps_State_cbOut {s t : State} {a1 : _} {a2 : _} {a3 : _} {a4 : _} (h : Keeps s t) :
    Keeps s (State.cbOut t a1 a2 a3 a4) := by
  unfold State.cbOut
  refine keeps_State_cbSee ?_
  refine keeps_State_cbSet ?_
  refine keeps_State_portSend ?_
  assumption

theorem keeps_State_cbRelayBuffered {s t : State} {a1 : _} (h : Keeps s t) :
    Keeps s (State.cbRelayBuffered t a1) := by
  unfold State.cbRelayBuffered
  split
  · assumption
  · refine Keeps.ite ?_ ?_
    · extract_lets +onlyGivenNames x1
      have hx1 : Keeps s x1 := ?_
      · clear_value x1
        refine Keeps.ite ?_ ?_
        · refine keeps_State_satAdd ?_
          refine keeps_State_cbOut ?_
          assumption
        · assumption
      · unfold x1
        refine keeps_State_cbSet ?_
        assumption
    · assumption

theorem keeps_State_setCbValid {s t : State} {a1 : _} {a2 : _} (h : Keeps s t) :
    Keeps s (State.setCbValid t a1 a2) := by
  unfold State.setCbValid
  refine keeps_State_wr ?_
  refine keeps_State_wr ?_
  assumption

theorem keeps_State_cbLoad {s t : State} {a1 : _} (h : Keeps s t) :
    Keeps s (State.cbLoad t a1) := by
  unfold State.cbLoad
  refine keeps_State_doLong (fun _ u1 hu1 => ?_) ?_
  · refine keeps_State_wr ?_
    refine keeps_State_setCbValid ?_
    assumption
  · assumption

theorem keeps_State_cbOwn {s t : State} {a1 : _} {a2 : _} {a3 : _} {a4 : _} (h : Keeps s t) :
    Keeps s (State.cbOwn t a1 a2 a3 a4) := by
  unfold State.cbOwn
  refine Keeps.foldl ?_ (fun u1 y2 hu1 => ?_)
  · assumption
  · extract_lets +onlyGivenNames x3
    have hx3 : Keeps s x3 := ?_
    · clear_value x3
      split
      · assumption
      · refine keeps_State_tsqStamp ?_
        assumption
    · unfold x3
      refine keeps_State_satAdd ?_
      refine keeps_State_cbOut ?_
      assumption

theorem keeps_State_cbSendSync {s t : State} {a1 : _} (h : Keeps s t) :
    Keeps s (State.cbSendSync t a1) := by
  unfold State.cbSendSync
  extract_lets +onlyGivenNames x1
  have hx1 : Keeps s x1 := ?_
  · clear_value x1
    refine Keeps.ite ?_ ?_
    · refine keeps_State_raise ?_
      refine keeps_State_cbSet ?_
      assumption
    · assumption
  · unfold x1
    refine keeps_State_cbOwn ?_
    refine keeps_State_cbOwn ?_
    assumption

theorem keeps_State_cbSendCyc {s t : State} {a1 : _} {a2 : _} {a3 : _} {a4 : _} {a5 : _} (h : Keeps s t) :
    Keeps s (State.cbSendCyc t a1 a2 a3 a4 a5) := by
  unfold State.cbSendCyc
  refine keeps_State_cbOwn ?_
  refine keeps_State_cbOwn ?_
  assumption

theorem keeps_State_cbStart {s t : State} {a1 : _} {a2 : _} {a3 : _} {a4 : _} (h : Keeps s t) :
    Keeps s (State.cbStart t a1 a2 a3 a4) := by
  unfold State.cbStart
  extract_lets +onlyGivenNames x1
  clear_value x1
  extract_lets +onlyGivenNames x2
  clear_value x2
  extract_lets +onlyGivenNames x3
  clear_value x3
  extract_lets +onlyGivenNames x4
  clear_value x4
  extract_lets +onlyGivenNames x5
  clear_value x5
  extract_lets +onlyGivenNames x6
  clear_value x6
  extract_lets +onlyGivenNames x7
  clear_value x7
  refine Keeps.ite ?_ ?_
  · assumption
  · extract_lets +onlyGivenNames x8
    have hx8 : Keeps s x8 := ?_
    · clear_value x8
      extract_lets +onlyGivenNames x9
      have hx9 : Keeps s x9 := ?_
      · clear_value x9
        extract_lets +onlyGivenNames x10
        clear_value x10
        refine keeps_State_setOut ?_
        assumption
      · unfold x9
        refine Keeps.foldl ?_ (fun u11 y12 hu11 => ?_)
        · assumption
        · refine keeps_State_cbSet ?_
          assumption
    · unfold x8
      refine keeps_State_cbOwn ?_
      assumption

theorem keeps_State_cbSendTx {s t : State} {a1 : _} {a2 : _} {a3 : _} (h : Keeps s t) :
    Keeps s (State.cbSendTx t a1 a2 a3) := by
  unfold State.cbSendTx
  extract_lets +onlyGivenNames x1
  have hx1 : Keeps s x1.2 := ?_
  · clear_value x1
    refine Keeps.ite ?_ ?_
    · refine keeps_State_endLong ?_
      assumption
    · extract_lets +onlyGivenNames x2
      have hx2 : Keeps s x2 := ?_
      · clear_value x2
        split
        · assumption
        · refine keeps_State_cbStart ?_
          assumption
      · unfold x2
        refine keeps_State_cbSet ?_
        refine keeps_State_cbStart ?_
        assumption
  · unfold x1
    refine keeps_State_readCheck ?_
    assumption

theorem keeps_State_cbSendNext {s t : State} {a1 : _} {a2 : _} {a3 : _} (h : Keeps s t) :
    Keeps s (State.cbSendNext t a1 a2 a3) := by
  unfold State.cbSendNext
  extract_lets +onlyGivenNames x1
  refine Keeps.ite ?_ ?_
  · refine Keeps.ite ?_ ?_
    · assumption
    · unfold x1
      refine keeps_State_cbSet ?_
      refine keeps_State_cbSendSync ?_
      assumption
  · split
    · unfold x1
      refine keeps_State_cbSet ?_
      refine keeps_State_cbSendCyc ?_
      assumption
    · split
      · unfold x1
        refine keeps_State_cbSet ?_
        assumption
      · refine keeps_State_cbSendTx ?_
        unfold x1
        refine keeps_State_cbSet ?_
        assumption

theorem keeps_State_cbWindowSend {s t : State} {a1 : _} (h : Keeps s t) :
    Keeps s (State.cbWindowSend t a1) := by
  unfold State.cbWindowSend
  extract_lets +onlyGivenNames x1
  clear_value x1
  extract_lets +onlyGivenNames x2
  clear_value x2
  refine Keeps.ite ?_ ?_
  · refine keeps_State_cbSendNext ?_
    assumption
  · assumption

end Machine
end Sys2Proof
end

