-- ==== Sys2Proof/Laws/Keeps05.lean ====
section
/-!
SUPPORT. Keeps of the operations of CbOps, Backbone, SafOps, Wake, Field.
-/

set_option Elab.async false

namespace Sys2Proof
namespace Machine

theorem keeps_State_setCbWord {s t : State} {a1 : _} {a2 : _} {a3 : _} (h : Keeps s t) :
    Keeps s (State.setCbWord t a1 a2 a3) := by
  unfold State.setCbWord
  refine Keeps.same (t := t) ?_ rfl rfl rfl
  assumption

theorem keeps_State_cbBankData {s t : State} {a1 : _} (h : Keeps s t) :
    Keeps s (State.cbBankData t a1) := by
  unfold State.cbBankData
  refine Keeps.ite ?_ ?_
  · assumption
  · extract_lets +onlyGivenNames x1
    clear_value x1
    extract_lets +onlyGivenNames x2
    clear_value x2
    extract_lets +onlyGivenNames x3
    have hx3 : Keeps s x3 := ?_
    · clear_value x3
      extract_lets +onlyGivenNames x4
      have hx4 : Keeps s x4 := ?_
      · clear_value x4
        refine keeps_State_wr ?_
        assumption
      · unfold x4
        refine Keeps.ite ?_ ?_
        · refine keeps_State_cbSet ?_
          assumption
        · assumption
    · unfold x3
      refine Keeps.ite ?_ ?_
      · refine keeps_State_setCbWord ?_
        assumption
      · assumption

theorem keeps_State_cbByLink {s t : State} (h : Keeps s t) :
    Keeps s (State.cbByLink t) := by
  unfold State.cbByLink
  refine Keeps.ite ?_ ?_
  · refine keeps_State_cbGood ?_
    refine keeps_State_cbGood ?_
    assumption
  · assumption

theorem keeps_State_cbArbSend {s t : State} {a1 : _} (h : Keeps s t) :
    Keeps s (State.cbArbSend t a1) := by
  unfold State.cbArbSend
  split
  · extract_lets +onlyGivenNames x1
    clear_value x1
    extract_lets +onlyGivenNames x2
    clear_value x2
    extract_lets +onlyGivenNames x3
    clear_value x3
    extract_lets +onlyGivenNames x4
    clear_value x4
    extract_lets +onlyGivenNames x5
    clear_value x5
    extract_lets +onlyGivenNames x6
    clear_value x6
    extract_lets +onlyGivenNames x7
    clear_value x7
    refine Keeps.ite ?_ ?_
    · extract_lets +onlyGivenNames x8
      have hx8 : Keeps s x8.2 := ?_
      · clear_value x8
        refine Keeps.ite ?_ ?_
        · refine keeps_State_endLong ?_
          assumption
        · refine keeps_State_cbStart ?_
          assumption
      · unfold x8
        refine keeps_State_readCheck ?_
        assumption
    · assumption
  · assumption

theorem keeps_State_cbToListen {s t : State} {a1 : _} (h : Keeps s t) :
    Keeps s (State.cbToListen t a1) := by
  unfold State.cbToListen
  extract_lets +onlyGivenNames x1
  clear_value x1
  extract_lets +onlyGivenNames x2
  have hx2 : Keeps s x2 := ?_
  · clear_value x2
    refine Keeps.ite ?_ ?_
    · assumption
    · refine keeps_State_raise ?_
      assumption
  · unfold x2
    refine keeps_State_wr ?_
    refine keeps_State_wr ?_
    assumption

theorem keeps_State_cbMiss {s t : State} (h : Keeps s t) :
    Keeps s (State.cbMiss t) := by
  unfold State.cbMiss
  extract_lets +onlyGivenNames x1
  have hx1 : Keeps s x1 := ?_
  · clear_value x1
    extract_lets +onlyGivenNames x2
    have hx2 : Keeps s x2 := ?_
    · clear_value x2
      extract_lets +onlyGivenNames x3
      clear_value x3
      refine Keeps.ite ?_ ?_
      · refine keeps_State_raise ?_
        refine keeps_State_wr ?_
        assumption
      · refine Keeps.ite ?_ ?_
        · refine keeps_State_cbToListen ?_
          assumption
        · assumption
    · unfold x2
      refine keeps_State_satAdd ?_
      assumption
  · unfold x1
    refine keeps_State_cbSet ?_
    assumption

theorem keeps_State_cbClear {s t : State} {a1 : _} (h : Keeps s t) :
    Keeps s (State.cbClear t a1) := by
  unfold State.cbClear
  refine Keeps.ite ?_ ?_
  · extract_lets +onlyGivenNames x1
    have hx1 : Keeps s x1 := ?_
    · clear_value x1
      refine Keeps.foldl ?_ (fun u2 y3 hu2 => ?_)
      · assumption
      · refine Keeps.foldl ?_ (fun u4 y5 hu4 => ?_)
        · assumption
        · refine keeps_State_setReg ?_
          assumption
    · unfold x1
      refine keeps_State_wr ?_
      refine keeps_State_setReg ?_
      assumption
  · assumption

theorem keeps_State_cbTxEnd {s t : State} {a1 : _} {a2 : _} (h : Keeps s t) :
    Keeps s (State.cbTxEnd t a1 a2) := by
  unfold State.cbTxEnd
  extract_lets +onlyGivenNames x1
  clear_value x1
  extract_lets +onlyGivenNames x2
  clear_value x2
  extract_lets +onlyGivenNames x3
  have hx3 : Keeps s x3 := ?_
  · clear_value x3
    refine keeps_State_endLong ?_
    assumption
  · unfold x3
    refine Keeps.ite ?_ ?_
    · refine keeps_State_satAdd ?_
      assumption
    · assumption

theorem keeps_State_cbFrameEnd {s t : State} {a1 : _} (h : Keeps s t) :
    Keeps s (State.cbFrameEnd t a1) := by
  unfold State.cbFrameEnd
  split
  · assumption
  · refine Keeps.ite ?_ ?_
    · assumption
    · extract_lets +onlyGivenNames x1
      have hx1 : Keeps s x1 := ?_
      · clear_value x1
        split
        · assumption
        · extract_lets +onlyGivenNames x2
          extract_lets +onlyGivenNames x3
          extract_lets +onlyGivenNames x4
          have hx4 : Keeps s x4 := ?_
          · skip
            refine Keeps.ite ?_ ?_
            · refine keeps_State_cbTxEnd ?_
              assumption
            · assumption
          · unfold x4
            refine keeps_State_setOut ?_
            assumption
      · unfold x1
        refine keeps_State_cbSet ?_
        assumption

theorem keeps_State_cbRawRx {s t : State} {a1 : _} {a2 : _} {a3 : _} (h : Keeps s t) :
    Keeps s (State.cbRawRx t a1 a2 a3) := by
  unfold State.cbRawRx
  refine Keeps.ite ?_ ?_
  · assumption
  · refine Keeps.ite ?_ ?_
    · refine keeps_State_satAdd ?_
      assumption
    · refine Keeps.ite ?_ ?_
      · assumption
      · split
        · refine keeps_State_rxDeliver ?_ (by assumption)
          assumption
        · refine keeps_State_raise ?_
          refine keeps_State_satAdd ?_
          assumption

theorem keeps_State_cbToSynced {s t : State} (h : Keeps s t) :
    Keeps s (State.cbToSynced t) := by
  unfold State.cbToSynced
  extract_lets +onlyGivenNames x1
  clear_value x1
  refine Keeps.ite ?_ ?_
  · assumption
  · extract_lets +onlyGivenNames x2
    have hx2 : Keeps s x2 := ?_
    · clear_value x2
      extract_lets +onlyGivenNames x3
      have hx3 : Keeps s x3 := ?_
      · clear_value x3
        refine keeps_State_raise ?_
        assumption
      · unfold x3
        refine Keeps.ite ?_ ?_
        · refine keeps_State_raise ?_
          assumption
        · assumption
    · unfold x2
      refine keeps_State_wr ?_
      refine keeps_State_wr ?_
      assumption

theorem keeps_State_cbSwap {s t : State} (h : Keeps s t) :
    Keeps s (State.cbSwap t) := by
  unfold State.cbSwap
  extract_lets +onlyGivenNames x1
  clear_value x1
  refine keeps_State_raise ?_
  refine keeps_State_wr ?_
  refine keeps_State_wr ?_
  assumption

theorem keeps_State_cbJudge {s t : State} {a1 : _} {a2 : _} {a3 : _} (h : Keeps s t) :
    Keeps s (State.cbJudge t a1 a2 a3) := by
  unfold State.cbJudge
  extract_lets +onlyGivenNames x1
  have hx1 : Keeps s x1 := ?_
  · clear_value x1
    refine Keeps.ite ?_ ?_
    · refine Keeps.ite ?_ ?_
      · refine keeps_State_cbToSynced ?_
        assumption
      · refine keeps_State_cbToListen ?_
        assumption
    · refine Keeps.ite ?_ ?_
      · refine Keeps.ite ?_ ?_
        · refine keeps_State_cbToSynced ?_
          refine keeps_State_cbSwap ?_
          assumption
        · refine keeps_State_cbToListen ?_
          refine keeps_State_cbSwap ?_
          assumption
      · refine Keeps.ite ?_ ?_
        · refine Keeps.ite ?_ ?_
          · assumption
          · refine keeps_State_cbToListen ?_
            assumption
        · refine keeps_State_cbToListen ?_
          assumption
  · unfold x1
    refine Keeps.ite ?_ ?_
    · assumption
    · refine keeps_State_raise ?_
      assumption

theorem keeps_State_cbHearAnn {s t : State} {a1 : _} (h : Keeps s t) :
    Keeps s (State.cbHearAnn t a1) := by
  unfold State.cbHearAnn
  refine Keeps.ite ?_ ?_
  · refine keeps_State_cbUnann ?_
    assumption
  · extract_lets +onlyGivenNames x1
    clear_value x1
    extract_lets +onlyGivenNames x2
    clear_value x2
    refine Keeps.ite ?_ ?_
    · assumption
    · refine keeps_State_raise ?_
      refine keeps_State_wr ?_
      refine keeps_State_wr ?_
      refine keeps_State_wr ?_
      assumption

theorem keeps_State_cbTakeSync {s t : State} {a1 : _} (h : Keeps s t) :
    Keeps s (State.cbTakeSync t a1) := by
  unfold State.cbTakeSync
  extract_lets +onlyGivenNames x1
  clear_value x1
  extract_lets +onlyGivenNames x2
  clear_value x2
  extract_lets +onlyGivenNames x3
  have hx3 : Keeps s x3 := ?_
  · clear_value x3
    extract_lets +onlyGivenNames x4
    have hx4 : Keeps s x4 := ?_
    · clear_value x4
      extract_lets +onlyGivenNames x5
      have hx5 : Keeps s x5 := ?_
      · clear_value x5
        extract_lets +onlyGivenNames x6
        have hx6 : Keeps s x6 := ?_
        · clear_value x6
          refine keeps_State_cbJudge ?_
          refine keeps_State_cbHearAnn ?_
          assumption
        · unfold x6
          refine keeps_State_cbSet ?_
          assumption
      · unfold x5
        refine keeps_State_recEvent ?_
        assumption
    · unfold x4
      refine keeps_State_peak ?_
      refine keeps_State_wr ?_
      assumption
  · unfold x3
    refine keeps_State_wr ?_
    refine keeps_State_wr ?_
    refine keeps_State_wr ?_
    assumption

theorem keeps_State_cbFreezeAt {s t : State} {a1 : _} {a2 : _} {a3 : _} {a4 : _} (h : Keeps s t) :
    Keeps s (State.cbFreezeAt t a1 a2 a3 a4) := by
  unfold State.cbFreezeAt
  extract_lets +onlyGivenNames x1
  clear_value x1
  refine Keeps.ite ?_ ?_
  · refine keeps_State_cbSet ?_
    assumption
  · assumption

theorem keeps_State_cbFreeze {s t : State} {a1 : _} (h : Keeps s t) :
    Keeps s (State.cbFreeze t a1) := by
  unfold State.cbFreeze
  refine Keeps.ite ?_ ?_
  · extract_lets +onlyGivenNames x1
    clear_value x1
    refine keeps_State_cbFreezeAt ?_
    refine keeps_State_cbFreezeAt ?_
    assumption
  · assumption

theorem keeps_State_cbMarkMissed {s t : State} (h : Keeps s t) :
    Keeps s (State.cbMarkMissed t) := by
  unfold State.cbMarkMissed
  refine Keeps.foldl ?_ (fun u1 y2 hu1 => ?_)
  · assumption
  · refine Keeps.ite ?_ ?_
    · refine keeps_State_setOut ?_
      assumption
    · assumption

theorem keeps_State_cbStartUp {s t : State} {a1 : _} (h : Keeps s t) :
    Keeps s (State.cbStartUp t a1) := by
  unfold State.cbStartUp
  refine Keeps.ite ?_ ?_
  · assumption
  · extract_lets +onlyGivenNames x1
    clear_value x1
    extract_lets +onlyGivenNames x2
    have hx2 : Keeps s x2 := ?_
    · clear_value x2
      extract_lets +onlyGivenNames x3
      have hx3 : Keeps s x3 := ?_
      · clear_value x3
        extract_lets +onlyGivenNames x4
        have hx4 : Keeps s x4 := ?_
        · clear_value x4
          extract_lets +onlyGivenNames x5
          have hx5 : Keeps s x5 := ?_
          · clear_value x5
            refine Keeps.ite ?_ ?_
            · extract_lets +onlyGivenNames x6
              have hx6 : Keeps s x6 := ?_
              · clear_value x6
                refine keeps_State_cbByLink ?_
                refine keeps_State_cbToSynced ?_
                assumption
              · unfold x6
                refine Keeps.ite ?_ ?_
                · assumption
                · refine keeps_State_wr ?_
                  refine keeps_State_wr ?_
                  assumption
            · refine keeps_State_wr ?_
              assumption
          · unfold x5
            refine Keeps.ite ?_ ?_
            · assumption
            · refine keeps_State_wr ?_
              assumption
        · unfold x4
          refine Keeps.ite ?_ ?_
          · refine keeps_State_setCbValid ?_
            assumption
          · assumption
      · unfold x3
        refine keeps_State_wr ?_
        refine keeps_State_setCbValid ?_
        assumption
    · unfold x2
      refine keeps_State_cbSet ?_
      assumption

theorem keeps_State_cbChanEnd {s t : State} (h : Keeps s t) :
    Keeps s (State.cbChanEnd t) := by
  unfold State.cbChanEnd
  extract_lets +onlyGivenNames x1
  clear_value x1
  extract_lets +onlyGivenNames x2
  have hx2 : Keeps s x2 := ?_
  · clear_value x2
    extract_lets +onlyGivenNames x3
    have hx3 : Keeps s x3 := ?_
    · clear_value x3
      refine keeps_State_cbSet ?_
      assumption
    · unfold x3
      refine Keeps.ite ?_ ?_
      · assumption
      · refine keeps_State_cbMissSet ?_
        assumption
  · unfold x2
    refine Keeps.ite ?_ ?_
    · assumption
    · refine keeps_State_cbMissSet ?_
      assumption

theorem keeps_State_cbActivate {s t : State} (h : Keeps s t) :
    Keeps s (State.cbActivate t) := by
  unfold State.cbActivate
  refine Keeps.ite ?_ ?_
  · extract_lets +onlyGivenNames x1
    clear_value x1
    extract_lets +onlyGivenNames x2
    have hx2 : Keeps s x2 := ?_
    · clear_value x2
      refine Keeps.ite ?_ ?_
      · refine keeps_State_cbSwap ?_
        assumption
      · refine Keeps.ite ?_ ?_
        · assumption
        · refine keeps_State_cbToListen ?_
          assumption
    · unfold x2
      refine keeps_State_cbUnann ?_
      assumption
  · assumption

theorem keeps_State_cbCycle {s t : State} (h : Keeps s t) :
    Keeps s (State.cbCycle t) := by
  unfold State.cbCycle
  extract_lets +onlyGivenNames x1
  have hx1 : Keeps s x1 := ?_
  · clear_value x1
    extract_lets +onlyGivenNames x2
    have hx2 : Keeps s x2 := ?_
    · clear_value x2
      extract_lets +onlyGivenNames x3
      have hx3 : Keeps s x3 := ?_
      · clear_value x3
        extract_lets +onlyGivenNames x4
        clear_value x4
        extract_lets +onlyGivenNames x5
        have hx5 : Keeps s x5 := ?_
        · clear_value x5
          extract_lets +onlyGivenNames x6
          clear_value x6
          extract_lets +onlyGivenNames x7
          have hx7 : Keeps s x7 := ?_
          · clear_value x7
            extract_lets +onlyGivenNames x8
            have hx8 : Keeps s x8 := ?_
            · clear_value x8
              refine Keeps.ite ?_ ?_
              · refine keeps_State_enterSafe ?_
                assumption
              · assumption
            · unfold x8
              refine keeps_State_cbActivate ?_
              assumption
          · unfold x7
            refine Keeps.ite ?_ ?_
            · refine keeps_State_wr ?_
              refine keeps_State_wr ?_
              assumption
            · refine keeps_State_wr ?_
              assumption
        · unfold x5
          refine keeps_State_cbSet ?_
          assumption
      · unfold x3
        refine keeps_State_cbMarkMissed ?_
        assumption
    · unfold x2
      refine Keeps.ite ?_ ?_
      · refine keeps_State_cbChanEnd ?_
        assumption
      · assumption
  · unfold x1
    refine Keeps.ite ?_ ?_
    · refine keeps_State_cbMiss ?_
      assumption
    · assumption

theorem keeps_State_cbFires {s t : State} {a1 : _} (h : Keeps s t) :
    Keeps s (State.cbFires t a1) := by
  unfold State.cbFires
  refine Keeps.ite ?_ ?_
  · refine keeps_State_cbCycle ?_
    assumption
  · assumption

theorem keeps_State_cbRelay {s t : State} {a1 : _} {a2 : _} {a3 : _} (h : Keeps s t) :
    Keeps s (State.cbRelay t a1 a2 a3) := by
  unfold State.cbRelay
  extract_lets +onlyGivenNames x1
  clear_value x1
  refine Keeps.ite ?_ ?_
  · assumption
  · extract_lets +onlyGivenNames x2
    have hx2 : Keeps s x2 := ?_
    · clear_value x2
      refine Keeps.ite ?_ ?_
      · refine keeps_State_raise ?_
        refine keeps_State_satAdd ?_
        assumption
      · extract_lets +onlyGivenNames x3
        have hx3 : Keeps s x3 := ?_
        · clear_value x3
          refine Keeps.ite ?_ ?_
          · assumption
          · refine Keeps.ite ?_ ?_
            · refine keeps_State_raise ?_
              refine keeps_State_satAdd ?_
              assumption
            · refine Keeps.ite ?_ ?_
              · refine keeps_State_cbSet ?_
                assumption
              · refine keeps_State_satAdd ?_
                refine keeps_State_cbOut ?_
                assumption
        · unfold x3
          refine keeps_State_pairHears ?_
          assumption
    · unfold x2
      refine keeps_State_cbSee ?_
      assumption

theorem keeps_runCbStatus {s t : State} {a0 : _} (h : Keeps s t) :
    Keeps s (runCbStatus a0 t).1 := by
  refine KeepsF.out ?_
  unfold runCbStatus
  refine KeepsF.ite ?_ ?_
  · refine KeepsF.pair ?_
    assumption
  · extract_lets +onlyGivenNames x1
    clear_value x1
    refine KeepsF.pair ?_
    refine keeps_State_outBuf ?_
    assumption

theorem keeps_State_cbLoadDone {s t : State} (h : Keeps s t) :
    Keeps s (State.cbLoadDone t) := by
  unfold State.cbLoadDone
  extract_lets +onlyGivenNames x1
  clear_value x1
  split
  · assumption
  · refine Keeps.ite ?_ ?_
    · assumption
    · extract_lets +onlyGivenNames x2
      clear_value x2
      extract_lets +onlyGivenNames x3
      have hx3 : Keeps s x3.2 := ?_
      · clear_value x3
        extract_lets +onlyGivenNames x4
        have hx4 : Keeps s x4 := ?_
        · clear_value x4
          extract_lets +onlyGivenNames x5
          refine Keeps.ite ?_ ?_
          · unfold x5
            extract_lets +onlyGivenNames x6
            have hx6 : Keeps s x6 := ?_
            · clear_value x6
              refine keeps_State_wr ?_
              assumption
            · unfold x6
              refine keeps_State_endLong ?_
              assumption
          · extract_lets +onlyGivenNames x7
            have hx7 : Keeps s x7 := ?_
            · clear_value x7
              refine Keeps.ite ?_ ?_
              · unfold x5
                extract_lets +onlyGivenNames x8
                have hx8 : Keeps s x8 := ?_
                · clear_value x8
                  refine keeps_State_wr ?_
                  assumption
                · unfold x8
                  refine keeps_State_endLong ?_
                  assumption
              · refine Keeps.ite ?_ ?_
                · unfold x5
                  extract_lets +onlyGivenNames x9
                  have hx9 : Keeps s x9 := ?_
                  · clear_value x9
                    refine keeps_State_wr ?_
                    assumption
                  · unfold x9
                    refine keeps_State_endLong ?_
                    assumption
                · unfold x5
                  extract_lets +onlyGivenNames x10
                  have hx10 : Keeps s x10 := ?_
                  · clear_value x10
                    refine keeps_State_wr ?_
                    assumption
                  · unfold x10
                    refine keeps_State_endLong ?_
                    refine keeps_State_setCbValid ?_
                    assumption
            · unfold x7
              refine Keeps.foldl ?_ (fun u11 y12 hu11 => ?_)
              · refine keeps_State_setCbValid ?_
                assumption
              · refine keeps_State_setCbWord ?_
                assumption
        · unfold x4
          assumption
      · unfold x3
        refine keeps_State_readCheck ?_
        assumption

theorem keeps_State_cbTxTake {s t : State} {a1 : _} (h : Keeps s t) :
    Keeps s (State.cbTxTake t a1) := by
  unfold State.cbTxTake
  extract_lets +onlyGivenNames x1
  clear_value x1
  refine keeps_State_doLong (fun _ u2 hu2 => ?_) ?_
  · extract_lets +onlyGivenNames x3
    clear_value x3
    extract_lets +onlyGivenNames x4
    clear_value x4
    refine keeps_State_setOut ?_
    assumption
  · assumption

theorem keeps_State_cbSyncMissed {s t : State} (h : Keeps s t) :
    Keeps s (State.cbSyncMissed t) := by
  unfold State.cbSyncMissed
  refine Keeps.ite ?_ ?_
  · refine keeps_State_cbMiss ?_
    assumption
  · assumption

theorem keeps_State_cbTxExpiry {s t : State} {a1 : _} (h : Keeps s t) :
    Keeps s (State.cbTxExpiry t a1) := by
  unfold State.cbTxExpiry
  extract_lets +onlyGivenNames x1
  clear_value x1
  split
  · assumption
  · refine Keeps.ite ?_ ?_
    · assumption
    · refine Keeps.ite ?_ ?_
      · refine keeps_State_cbTxEnd ?_
        assumption
      · refine Keeps.ite ?_ ?_
        · refine keeps_State_cbTxEnd ?_
          assumption
        · refine keeps_State_cbTxEnd ?_
          assumption

theorem keeps_State_cbSetupCheck {s t : State} (h : Keeps s t) :
    Keeps s (State.cbSetupCheck t).2 := by
  refine KeepsS.out ?_
  unfold State.cbSetupCheck
  refine KeepsS.ite ?_ ?_
  · refine KeepsS.pair ?_
    assumption
  · split
    · refine KeepsS.pair ?_
      assumption
    · refine KeepsS.pair ?_
      refine keeps_State_raise ?_
      refine keeps_State_wr ?_
      refine keeps_State_wr ?_
      assumption

theorem keeps_State_cbLinkChange {s t : State} {a1 : _} {a2 : _} (h : Keeps s t) :
    Keeps s (State.cbLinkChange t a1 a2) := by
  unfold State.cbLinkChange
  refine Keeps.ite ?_ ?_
  · assumption
  · extract_lets +onlyGivenNames x1
    have hx1 : Keeps s x1 := ?_
    · clear_value x1
      extract_lets +onlyGivenNames x2
      have hx2 : Keeps s x2 := ?_
      · clear_value x2
        refine keeps_State_cbByLink ?_
        refine keeps_State_raise ?_
        assumption
      · unfold x2
        refine Keeps.ite ?_ ?_
        · refine Keeps.foldl ?_ (fun u3 y4 hu3 => ?_)
          · assumption
          · refine keeps_State_setOut ?_
            assumption
        · assumption
    · unfold x1
      refine keeps_State_wr ?_
      assumption

theorem keeps_State_cbSyncRx {s t : State} {a1 : _} {a2 : _} {a3 : _} (h : Keeps s t) :
    Keeps s (State.cbSyncRx t a1 a2 a3) := by
  unfold State.cbSyncRx
  refine Keeps.ite ?_ ?_
  · assumption
  · refine Keeps.ite ?_ ?_
    · refine keeps_State_satAdd ?_
      assumption
    · refine Keeps.ite ?_ ?_
      · refine keeps_State_satAdd ?_
        assumption
      · refine Keeps.ite ?_ ?_
        · refine keeps_State_satAdd ?_
          assumption
        · refine Keeps.ite ?_ ?_
          · assumption
          · extract_lets +onlyGivenNames x1
            have hx1 : Keeps s x1 := ?_
            · clear_value x1
              refine Keeps.ite ?_ ?_
              · refine keeps_State_satAdd ?_
                assumption
              · refine keeps_State_cbTakeSync ?_
                assumption
            · unfold x1
              refine keeps_State_cbGot ?_
              refine keeps_State_satAdd ?_
              assumption

theorem keeps_State_cbDataRx {s t : State} {a1 : _} {a2 : _} {a3 : _} (h : Keeps s t) :
    Keeps s (State.cbDataRx t a1 a2 a3) := by
  unfold State.cbDataRx
  refine Keeps.ite ?_ ?_
  · assumption
  · refine Keeps.ite ?_ ?_
    · refine keeps_State_satAdd ?_
      assumption
    · extract_lets +onlyGivenNames x1
      clear_value x1
      refine Keeps.ite ?_ ?_
      · refine keeps_State_satAdd ?_
        assumption
      · extract_lets +onlyGivenNames x2
        have hx2 : Keeps s x2 := ?_
        · clear_value x2
          split
          · refine keeps_State_satAdd ?_
            assumption
          · extract_lets +onlyGivenNames x3
            extract_lets +onlyGivenNames x4
            extract_lets +onlyGivenNames x5
            clear_value x5
            refine Keeps.ite ?_ ?_
            · refine keeps_State_satAdd ?_
              assumption
            · refine Keeps.ite ?_ ?_
              · refine keeps_State_satAdd ?_
                assumption
              · refine keeps_State_publish ?_
                refine keeps_State_setDs ?_
                refine keeps_State_setDs ?_
                assumption
        · unfold x2
          refine keeps_State_satAdd ?_
          assumption

theorem keeps_cbWindowSend {s t : State} {a0 : _} (h : Keeps s t) :
    Keeps s (cbWindowSend a0 t) := by
  unfold cbWindowSend
  refine keeps_State_cbWindowSend ?_
  assumption

theorem keeps_execCbWindowSend {s t : State} {a0 : _} {u : State} (h : Keeps s t)
    (e : execCbWindowSend a0 t = .next u) : Keeps s u := by
  unfold execCbWindowSend at e
  injection e with e
  subst e
  refine keeps_cbWindowSend ?_
  assumption

theorem keeps_cbAnnounce {s t : State} {a0 : _} (h : Keeps s t) :
    Keeps s (cbAnnounce a0 t) := by
  unfold cbAnnounce
  refine keeps_State_doShort (fun _ u1 hu1 => ?_) ?_
  · refine keeps_runCbAnnounce ?_
    assumption
  · assumption

theorem keeps_cbBankDataWrite {s t : State} {a0 : _} {a1 : _} (h : Keeps s t) :
    Keeps s (cbBankDataWrite a0 a1 t) := by
  unfold cbBankDataWrite
  refine keeps_State_cbBankData ?_
  assumption

theorem keeps_cbLinkChange {s t : State} {a0 : _} {a1 : _} (h : Keeps s t) :
    Keeps s (cbLinkChange a0 a1 t) := by
  unfold cbLinkChange
  refine keeps_State_cbLinkChange ?_
  assumption

theorem keeps_cbRawRx {s t : State} {a0 : _} {a1 : _} {a2 : _} (h : Keeps s t) :
    Keeps s (cbRawRx a0 a1 a2 t) := by
  unfold cbRawRx
  refine keeps_State_cbRawRx ?_
  assumption

theorem keeps_execCbRawRx {s t : State} {a0 : _} {a1 : _} {a2 : _} {u : State} (h : Keeps s t)
    (e : execCbRawRx a0 a1 a2 t = .next u) : Keeps s u := by
  unfold execCbRawRx at e
  injection e with e
  subst e
  refine keeps_cbRawRx ?_
  assumption

theorem keeps_cbTx {s t : State} {a0 : _} (h : Keeps s t) :
    Keeps s (cbTx a0 t) := by
  unfold cbTx
  refine keeps_State_cbTxTake ?_
  assumption

theorem keeps_execCbAnnounce {s t : State} {a0 : _} {u : State} (h : Keeps s t)
    (e : execCbAnnounce a0 t = .next u) : Keeps s u := by
  unfold execCbAnnounce at e
  injection e with e
  subst e
  refine keeps_cbAnnounce ?_
  assumption

theorem keeps_cbSyncRx {s t : State} {a0 : _} {a1 : _} {a2 : _} (h : Keeps s t) :
    Keeps s (cbSyncRx a0 a1 a2 t) := by
  unfold cbSyncRx
  refine keeps_State_cbSyncRx ?_
  assumption

theorem keeps_cbSyncMissed {s t : State} (h : Keeps s t) :
    Keeps s (cbSyncMissed t) := by
  unfold cbSyncMissed
  refine keeps_State_cbSyncMissed ?_
  assumption

theorem keeps_cbStatus {s t : State} {a0 : _} (h : Keeps s t) :
    Keeps s (cbStatus a0 t) := by
  unfold cbStatus
  refine keeps_State_doShort (fun _ u1 hu1 => ?_) ?_
  · refine keeps_runCbStatus ?_
    assumption
  · assumption

theorem keeps_cbSchedLoadDone {s t : State} (h : Keeps s t) :
    Keeps s (cbSchedLoadDone t) := by
  unfold cbSchedLoadDone
  refine keeps_State_cbLoadDone ?_
  assumption

theorem keeps_execCbSchedLoadDone {s t : State} {u : State} (h : Keeps s t)
    (e : execCbSchedLoadDone t = .next u) : Keeps s u := by
  unfold execCbSchedLoadDone at e
  injection e with e
  subst e
  refine keeps_cbSchedLoadDone ?_
  assumption

theorem keeps_cbTxExpiry {s t : State} {a0 : _} (h : Keeps s t) :
    Keeps s (cbTxExpiry a0 t) := by
  unfold cbTxExpiry
  refine keeps_State_cbTxExpiry ?_
  assumption

theorem keeps_cbRxPost {s t : State} {a0 : _} (h : Keeps s t) :
    Keeps s (cbRxPost a0 t) := by
  unfold cbRxPost
  refine keeps_State_doLong (fun _ u1 hu1 => ?_) ?_
  · assumption
  · assumption

theorem keeps_cbRelayBuffered {s t : State} {a0 : _} (h : Keeps s t) :
    Keeps s (cbRelayBuffered a0 t) := by
  unfold cbRelayBuffered
  refine keeps_State_cbRelayBuffered ?_
  assumption

theorem keeps_execCbRxPost {s t : State} {a0 : _} {u : State} (h : Keeps s t)
    (e : execCbRxPost a0 t = .next u) : Keeps s u := by
  unfold execCbRxPost at e
  injection e with e
  subst e
  refine keeps_cbRxPost ?_
  assumption

theorem keeps_cbClr {s t : State} {a0 : _} {a1 : _} (h : Keeps s t) :
    Keeps s (cbClr a0 a1 t) := by
  unfold cbClr
  refine keeps_State_cbClear ?_
  assumption

theorem keeps_cbRelay {s t : State} {a0 : _} {a1 : _} {a2 : _} (h : Keeps s t) :
    Keeps s (cbRelay a0 a1 a2 t) := by
  unfold cbRelay
  refine keeps_State_cbRelay ?_
  assumption

theorem keeps_execCbRelay {s t : State} {a0 : _} {a1 : _} {a2 : _} {u : State} (h : Keeps s t)
    (e : execCbRelay a0 a1 a2 t = .next u) : Keeps s u := by
  unfold execCbRelay at e
  injection e with e
  subst e
  refine keeps_cbRelay ?_
  assumption

theorem keeps_cbSchedLoad {s t : State} {a0 : _} (h : Keeps s t) :
    Keeps s (cbSchedLoad a0 t) := by
  unfold cbSchedLoad
  refine keeps_State_cbLoad ?_
  assumption

theorem keeps_execCbSchedLoad {s t : State} {a0 : _} {u : State} (h : Keeps s t)
    (e : execCbSchedLoad a0 t = .next u) : Keeps s u := by
  unfold execCbSchedLoad at e
  injection e with e
  subst e
  refine keeps_cbSchedLoad ?_
  assumption

theorem keeps_execCbSyncRx {s t : State} {a0 : _} {a1 : _} {a2 : _} {u : State} (h : Keeps s t)
    (e : execCbSyncRx a0 a1 a2 t = .next u) : Keeps s u := by
  unfold execCbSyncRx at e
  injection e with e
  subst e
  refine keeps_cbSyncRx ?_
  assumption

theorem keeps_cbDataRx {s t : State} {a0 : _} {a1 : _} {a2 : _} (h : Keeps s t) :
    Keeps s (cbDataRx a0 a1 a2 t) := by
  unfold cbDataRx
  refine keeps_State_cbDataRx ?_
  assumption

theorem keeps_cbImageFreeze {s t : State} {a0 : _} (h : Keeps s t) :
    Keeps s (cbImageFreeze a0 t) := by
  unfold cbImageFreeze
  refine keeps_State_cbFreeze ?_
  assumption

theorem keeps_execCbTx {s t : State} {a0 : _} {u : State} (h : Keeps s t)
    (e : execCbTx a0 t = .next u) : Keeps s u := by
  unfold execCbTx at e
  injection e with e
  subst e
  refine keeps_cbTx ?_
  assumption

theorem keeps_execCbDataRx {s t : State} {a0 : _} {a1 : _} {a2 : _} {u : State} (h : Keeps s t)
    (e : execCbDataRx a0 a1 a2 t = .next u) : Keeps s u := by
  unfold execCbDataRx at e
  injection e with e
  subst e
  refine keeps_cbDataRx ?_
  assumption

theorem keeps_execCbLinkChange {s t : State} {a0 : _} {a1 : _} {u : State} (h : Keeps s t)
    (e : execCbLinkChange a0 a1 t = .next u) : Keeps s u := by
  unfold execCbLinkChange at e
  injection e with e
  subst e
  refine keeps_cbLinkChange ?_
  assumption

theorem keeps_execCbBankDataWrite {s t : State} {a0 : _} {a1 : _} {u : State} (h : Keeps s t)
    (e : execCbBankDataWrite a0 a1 t = .next u) : Keeps s u := by
  unfold execCbBankDataWrite at e
  injection e with e
  subst e
  refine keeps_State_arrive (fun u1 hu1 => ?_) ?_
  · refine keeps_cbBankDataWrite ?_
    assumption
  · assumption

theorem keeps_cbArbSend {s t : State} {a0 : _} (h : Keeps s t) :
    Keeps s (cbArbSend a0 t) := by
  unfold cbArbSend
  refine keeps_State_cbArbSend ?_
  assumption

theorem keeps_execCbArbSend {s t : State} {a0 : _} {u : State} (h : Keeps s t)
    (e : execCbArbSend a0 t = .next u) : Keeps s u := by
  unfold execCbArbSend at e
  injection e with e
  subst e
  refine keeps_cbArbSend ?_
  assumption

theorem keeps_execCbStatus {s t : State} {a0 : _} {u : State} (h : Keeps s t)
    (e : execCbStatus a0 t = .next u) : Keeps s u := by
  unfold execCbStatus at e
  injection e with e
  subst e
  refine keeps_cbStatus ?_
  assumption

theorem keeps_execCbSyncMissed {s t : State} {u : State} (h : Keeps s t)
    (e : execCbSyncMissed t = .next u) : Keeps s u := by
  unfold execCbSyncMissed at e
  injection e with e
  subst e
  refine keeps_cbSyncMissed ?_
  assumption

theorem keeps_execCbRelayBuffered {s t : State} {a0 : _} {u : State} (h : Keeps s t)
    (e : execCbRelayBuffered a0 t = .next u) : Keeps s u := by
  unfold execCbRelayBuffered at e
  injection e with e
  subst e
  refine keeps_cbRelayBuffered ?_
  assumption

theorem keeps_execCbClr {s t : State} {a0 : _} {a1 : _} {u : State} (h : Keeps s t)
    (e : execCbClr a0 a1 t = .next u) : Keeps s u := by
  unfold execCbClr at e
  injection e with e
  subst e
  refine keeps_State_arrive (fun u1 hu1 => ?_) ?_
  · refine keeps_cbClr ?_
    assumption
  · assumption

theorem keeps_execCbTxExpiry {s t : State} {a0 : _} {u : State} (h : Keeps s t)
    (e : execCbTxExpiry a0 t = .next u) : Keeps s u := by
  unfold execCbTxExpiry at e
  injection e with e
  subst e
  refine keeps_cbTxExpiry ?_
  assumption

theorem keeps_execCbImageFreeze {s t : State} {a0 : _} {u : State} (h : Keeps s t)
    (e : execCbImageFreeze a0 t = .next u) : Keeps s u := by
  unfold execCbImageFreeze at e
  injection e with e
  subst e
  refine keeps_cbImageFreeze ?_
  assumption

theorem keeps_State_setSafCh {s t : State} {a1 : _} {a2 : _} {a3 : _} (h : Keeps s t) :
    Keeps s (State.setSafCh t a1 a2 a3) := by
  unfold State.setSafCh
  refine Keeps.same (t := t) ?_ rfl rfl rfl
  assumption

theorem keeps_State_safTpNote {s t : State} {a1 : _} {a2 : _} {a3 : _} (h : Keeps s t) :
    Keeps s (State.safTpNote t a1 a2 a3) := by
  unfold State.safTpNote
  refine keeps_State_raise ?_
  refine keeps_State_satAdd ?_
  assumption

theorem keeps_State_safMark {s t : State} {a1 : _} {a2 : _} {a3 : _} (h : Keeps s t) :
    Keeps s (State.safMark t a1 a2 a3) := by
  unfold State.safMark
  extract_lets +onlyGivenNames x1
  clear_value x1
  extract_lets +onlyGivenNames x2
  have hx2 : Keeps s x2 := ?_
  · clear_value x2
    refine Keeps.ite ?_ ?_
    · refine keeps_State_safTpNote ?_
      assumption
    · refine Keeps.ite ?_ ?_
      · refine keeps_State_safTpNote ?_
        assumption
      · refine Keeps.ite ?_ ?_
        · refine keeps_State_satAdd ?_
          assumption
        · assumption
  · unfold x2
    refine keeps_State_setSafCh ?_
    refine keeps_State_wr ?_
    assumption

theorem keeps_State_safAllow {s t : State} {a1 : _} {a2 : _} {a3 : _} (h : Keeps s t) :
    Keeps s (State.safAllow t a1 a2 a3) := by
  unfold State.safAllow
  refine keeps_State_wr ?_
  assumption

theorem keeps_State_safBoth {s t : State} {a1 : _} {a2 : _} (h : Keeps s t) :
    Keeps s (State.safBoth t a1 a2) := by
  unfold State.safBoth
  refine keeps_State_safAllow ?_
  refine keeps_State_safAllow ?_
  assumption

theorem keeps_State_safShow {s t : State} (h : Keeps s t) :
    Keeps s (State.safShow t) := by
  unfold State.safShow
  extract_lets +onlyGivenNames x1
  clear_value x1
  refine keeps_State_wr ?_
  refine keeps_State_wr ?_
  assumption

theorem keeps_State_safTo {s t : State} {a1 : _} {a2 : _} (h : Keeps s t) :
    Keeps s (State.safTo t a1 a2) := by
  unfold State.safTo
  extract_lets +onlyGivenNames x1
  clear_value x1
  refine Keeps.ite ?_ ?_
  · assumption
  · refine keeps_State_raise ?_
    refine keeps_State_safShow ?_
    refine keeps_State_wr ?_
    assumption

theorem keeps_State_safDemand {s t : State} {a1 : _} (h : Keeps s t) :
    Keeps s (State.safDemand t a1) := by
  unfold State.safDemand
  extract_lets +onlyGivenNames x1
  clear_value x1
  extract_lets +onlyGivenNames x2
  clear_value x2
  extract_lets +onlyGivenNames x3
  clear_value x3
  refine Keeps.ite ?_ ?_
  · refine Keeps.ite ?_ ?_
    · assumption
    · refine keeps_State_safTo ?_
      refine keeps_State_safBoth ?_
      assumption
  · refine Keeps.ite ?_ ?_
    · refine Keeps.ite ?_ ?_
      · refine keeps_State_safTo ?_
        refine keeps_State_safBoth ?_
        assumption
      · assumption
    · refine Keeps.ite ?_ ?_
      · refine Keeps.ite ?_ ?_
        · refine keeps_State_safAllow ?_
          assumption
        · refine Keeps.ite ?_ ?_
          · refine keeps_State_safAllow ?_
            assumption
          · assumption
      · assumption

theorem keeps_State_safRun {s t : State} {a1 : _} (h : Keeps s t) :
    Keeps s (State.safRun t a1) := by
  unfold State.safRun
  refine keeps_State_safTo ?_
  refine keeps_State_wr ?_
  refine keeps_State_safBoth ?_
  assumption

theorem keeps_State_setSafBlk {s t : State} {a1 : _} {a2 : _} (h : Keeps s t) :
    Keeps s (State.setSafBlk t a1 a2) := by
  unfold State.setSafBlk
  refine Keeps.same (t := t) ?_ rfl rfl rfl
  assumption

theorem keeps_State_safClearFaults {s t : State} {a1 : _} (h : Keeps s t) :
    Keeps s (State.safClearFaults t a1) := by
  unfold State.safClearFaults
  extract_lets +onlyGivenNames x1
  refine keeps_State_setSafBlk ?_
  refine keeps_State_wr ?_
  refine keeps_State_wr ?_
  unfold x1
  refine keeps_State_setSafCh ?_
  refine keeps_State_wr ?_
  refine keeps_State_setSafCh ?_
  refine keeps_State_wr ?_
  assumption

theorem keeps_State_safResetBlock {s t : State} {a1 : _} (h : Keeps s t) :
    Keeps s (State.safResetBlock t a1).1 := by
  refine KeepsF.out ?_
  unfold State.safResetBlock
  extract_lets +onlyGivenNames x1
  clear_value x1
  extract_lets +onlyGivenNames x2
  clear_value x2
  extract_lets +onlyGivenNames x3
  clear_value x3
  refine KeepsF.ite ?_ ?_
  · refine KeepsF.pair ?_
    assumption
  · refine KeepsF.ite ?_ ?_
    · refine KeepsF.ite ?_ ?_
      · refine KeepsF.pair ?_
        refine keeps_State_safRun ?_
        assumption
      · refine KeepsF.pair ?_
        assumption
    · refine KeepsF.ite ?_ ?_
      · refine KeepsF.ite ?_ ?_
        · refine KeepsF.pair ?_
          assumption
        · refine KeepsF.ite ?_ ?_
          · refine KeepsF.pair ?_
            refine keeps_State_wr ?_
            refine keeps_State_safAllow ?_
            assumption
          · refine KeepsF.pair ?_
            refine keeps_State_safRun ?_
            refine keeps_State_safClearFaults ?_
            assumption
      · refine KeepsF.ite ?_ ?_
        · refine KeepsF.pair ?_
          assumption
        · extract_lets +onlyGivenNames x4
          have hx4 : Keeps s x4 := ?_
          · clear_value x4
            refine KeepsF.ite ?_ ?_
            · refine KeepsF.pair ?_
              refine keeps_State_safRun ?_
              assumption
            · refine KeepsF.pair ?_
              refine keeps_State_safTo ?_
              refine keeps_State_wr ?_
              assumption
          · unfold x4
            refine keeps_State_safClearFaults ?_
            assumption

theorem keeps_State_safDegrade {s t : State} {a1 : _} {a2 : _} {a3 : _} (h : Keeps s t) :
    Keeps s (State.safDegrade t a1 a2 a3) := by
  unfold State.safDegrade
  extract_lets +onlyGivenNames x1
  clear_value x1
  extract_lets +onlyGivenNames x2
  have hx2 : Keeps s x2 := ?_
  · clear_value x2
    extract_lets +onlyGivenNames x3
    have hx3 : Keeps s x3 := ?_
    · clear_value x3
      refine keeps_State_raise ?_
      refine keeps_State_safTo ?_
      assumption
    · unfold x3
      refine keeps_State_setSafBlk ?_
      refine keeps_State_wr ?_
      assumption
  · unfold x2
    refine keeps_State_wr ?_
    refine keeps_State_safAllow ?_
    assumption

theorem keeps_State_safTimers {s t : State} {a1 : _} (h : Keeps s t) :
    Keeps s (State.safTimers t a1) := by
  unfold State.safTimers
  extract_lets +onlyGivenNames x1
  extract_lets +onlyGivenNames x2
  have hx2 : Keeps s x2 := ?_
  · clear_value x2
    extract_lets +onlyGivenNames x3
    clear_value x3
    extract_lets +onlyGivenNames x4
    clear_value x4
    extract_lets +onlyGivenNames x5
    have hx5 : Keeps s x5 := ?_
    · clear_value x5
      refine Keeps.ite ?_ ?_
      · refine keeps_State_wr ?_
        assumption
      · assumption
    · unfold x5
      refine keeps_State_setSafBlk ?_
      assumption
  · unfold x2
    unfold x1
    refine Keeps.ite ?_ ?_
    · refine Keeps.ite ?_ ?_
      · assumption
      · extract_lets +onlyGivenNames x6
        clear_value x6
        refine keeps_State_setSafCh ?_
        assumption
    · extract_lets +onlyGivenNames x7
      extract_lets +onlyGivenNames x8
      clear_value x8
      refine keeps_State_setSafCh ?_
      refine Keeps.ite ?_ ?_
      · assumption
      · refine keeps_State_setSafCh ?_
        assumption

theorem keeps_State_safLock {s t : State} (h : Keeps s t) :
    Keeps s (State.safLock t) := by
  unfold State.safLock
  refine Keeps.foldl ?_ (fun u1 y2 hu1 => ?_)
  · assumption
  · refine Keeps.ite ?_ ?_
    · refine keeps_State_safTo ?_
      refine keeps_State_wr ?_
      refine keeps_State_safBoth ?_
      assumption
    · assumption

theorem keeps_State_safTrip {s t : State} {a1 : _} {a2 : _} {a3 : _} (h : Keeps s t) :
    Keeps s (State.safTrip t a1 a2 a3) := by
  unfold State.safTrip
  extract_lets +onlyGivenNames x1
  have hx1 : Keeps s x1 := ?_
  · clear_value x1
    extract_lets +onlyGivenNames x2
    have hx2 : Keeps s x2 := ?_
    · clear_value x2
      extract_lets +onlyGivenNames x3
      clear_value x3
      extract_lets +onlyGivenNames x4
      have hx4 : Keeps s x4 := ?_
      · clear_value x4
        refine Keeps.ite ?_ ?_
        · refine keeps_State_enterSafe ?_
          assumption
        · assumption
      · unfold x4
        refine keeps_State_raise ?_
        refine keeps_State_safTo ?_
        assumption
    · unfold x2
      refine keeps_State_setSafBlk ?_
      refine keeps_State_wr ?_
      assumption
  · unfold x1
    refine keeps_State_wr ?_
    refine keeps_State_safBoth ?_
    assumption

theorem keeps_State_safFault {s t : State} {a1 : _} {a2 : _} {a3 : _} (h : Keeps s t) :
    Keeps s (State.safFault t a1 a2 a3) := by
  unfold State.safFault
  refine Keeps.ite ?_ ?_
  · assumption
  · extract_lets +onlyGivenNames x1
    have hx1 : Keeps s x1 := ?_
    · clear_value x1
      refine Keeps.ite ?_ ?_
      · assumption
      · refine Keeps.ite ?_ ?_
        · refine keeps_State_safTrip ?_
          assumption
        · refine keeps_State_safDegrade ?_
          assumption
    · unfold x1
      refine keeps_State_safMark ?_
      assumption

theorem keeps_State_safJudge {s t : State} {a1 : _} (h : Keeps s t) :
    Keeps s (State.safJudge t a1) := by
  unfold State.safJudge
  extract_lets +onlyGivenNames x1
  clear_value x1
  extract_lets +onlyGivenNames x2
  clear_value x2
  refine Keeps.ite ?_ ?_
  · extract_lets +onlyGivenNames x3
    have hx3 : Keeps s x3 := ?_
    · clear_value x3
      refine Keeps.ite ?_ ?_
      · assumption
      · refine keeps_State_safTrip ?_
        assumption
    · unfold x3
      refine keeps_State_safMark ?_
      refine keeps_State_safMark ?_
      assumption
  · refine Keeps.ite ?_ ?_
    · refine keeps_State_safFault ?_
      assumption
    · refine Keeps.ite ?_ ?_
      · refine keeps_State_safFault ?_
        assumption
      · assumption

theorem keeps_State_safCheckFails {s t : State} {a1 : _} {a2 : _} (h : Keeps s t) :
    Keeps s (State.safCheckFails t a1 a2) := by
  unfold State.safCheckFails
  refine Keeps.ite ?_ ?_
  · refine keeps_State_safTpNote ?_
    assumption
  · refine keeps_State_safFault ?_
    assumption

theorem keeps_State_safSleep {s t : State} (h : Keeps s t) :
    Keeps s (State.safSleep t) := by
  unfold State.safSleep
  refine Keeps.foldl ?_ (fun u1 y2 hu1 => ?_)
  · assumption
  · refine Keeps.ite ?_ ?_
    · refine keeps_State_safTo ?_
      refine keeps_State_wr ?_
      refine keeps_State_safBoth ?_
      assumption
    · refine Keeps.ite ?_ ?_
      · refine keeps_State_safTrip ?_
        assumption
      · assumption

theorem keeps_State_safEvalBlock {s t : State} {a1 : _} (h : Keeps s t) :
    Keeps s (State.safEvalBlock t a1) := by
  unfold State.safEvalBlock
  refine Keeps.ite ?_ ?_
  · assumption
  · refine keeps_State_safDemand ?_
    refine keeps_State_safTimers ?_
    refine keeps_State_safJudge ?_
    assumption

theorem keeps_State_safSampleCh {s t : State} {a1 : _} {a2 : _} {a3 : _} {a4 : _} (h : Keeps s t) :
    Keeps s (State.safSampleCh t a1 a2 a3 a4) := by
  unfold State.safSampleCh
  extract_lets +onlyGivenNames x1
  clear_value x1
  extract_lets +onlyGivenNames x2
  clear_value x2
  extract_lets +onlyGivenNames x3
  clear_value x3
  extract_lets +onlyGivenNames x4
  clear_value x4
  refine Keeps.ite ?_ ?_
  · refine keeps_State_setSafCh ?_
    assumption
  · refine Keeps.ite ?_ ?_
    · refine keeps_State_setSafCh ?_
      assumption
    · refine Keeps.ite ?_ ?_
      · refine keeps_State_setSafCh ?_
        assumption
      · refine keeps_State_setSafCh ?_
        assumption

theorem keeps_State_safSample {s t : State} {a1 : _} {a2 : _} {a3 : _} (h : Keeps s t) :
    Keeps s (State.safSample t a1 a2 a3) := by
  unfold State.safSample
  refine Keeps.ite ?_ ?_
  · assumption
  · refine Keeps.foldl ?_ (fun u1 y2 hu1 => ?_)
    · assumption
    · refine Keeps.ite ?_ ?_
      · assumption
      · refine Keeps.foldl ?_ (fun u3 y4 hu3 => ?_)
        · assumption
        · extract_lets +onlyGivenNames x5
          clear_value x5
          refine Keeps.ite ?_ ?_
          · refine keeps_State_safSampleCh ?_
            assumption
          · assumption

theorem keeps_State_wakePend {s t : State} {a1 : _} (h : Keeps s t) :
    Keeps s (State.wakePend t a1) := by
  unfold State.wakePend
  refine keeps_State_wr ?_
  assumption

theorem keeps_State_wakeRecord {s t : State} {a1 : _} {a2 : _} {a3 : _} (h : Keeps s t) :
    Keeps s (State.wakeRecord t a1 a2 a3) := by
  unfold State.wakeRecord
  extract_lets +onlyGivenNames x1
  have hx1 : Keeps s x1 := ?_
  · clear_value x1
    refine keeps_State_wr64 ?_
    assumption
  · unfold x1
    refine keeps_State_wr ?_
    refine keeps_State_wr ?_
    refine keeps_State_wr ?_
    assumption

theorem keeps_State_wakeLatch {s t : State} {a1 : _} (h : Keeps s t) :
    Keeps s (State.wakeLatch t a1) := by
  unfold State.wakeLatch
  refine Keeps.ite ?_ ?_
  · assumption
  · extract_lets +onlyGivenNames x1
    clear_value x1
    extract_lets +onlyGivenNames x2
    have hx2 : Keeps s x2 := ?_
    · clear_value x2
      split
      · refine Keeps.ite ?_ ?_
        · assumption
        · extract_lets +onlyGivenNames x3
          have hx3 : Keeps s x3 := ?_
          · clear_value x3
            refine Keeps.same (t := x3) ?_ rfl rfl rfl
            assumption
          · unfold x3
            refine keeps_State_wakeRecord ?_
            assumption
      · assumption
    · unfold x2
      refine Keeps.foldl ?_ (fun u4 y5 hu4 => ?_)
      · refine Keeps.ite ?_ ?_
        · assumption
        · refine keeps_State_mpIrq ?_
          assumption
      · refine keeps_State_wakePend ?_
        assumption

theorem keeps_wakeLatch {s t : State} {a0 : _} (h : Keeps s t) :
    Keeps s (wakeLatch a0 t) := by
  unfold wakeLatch
  refine keeps_State_wakeLatch ?_
  assumption

theorem keeps_rtcAlarm {s t : State} (h : Keeps s t) :
    Keeps s (rtcAlarm t) := by
  unfold rtcAlarm
  refine Keeps.ite ?_ ?_
  · refine keeps_State_wakeLatch ?_
    assumption
  · assumption

theorem keeps_execRtcAlarm {s t : State} {u : State} (h : Keeps s t)
    (e : execRtcAlarm t = .next u) : Keeps s u := by
  unfold execRtcAlarm at e
  injection e with e
  subst e
  refine keeps_rtcAlarm ?_
  assumption

theorem keeps_pwrMpwake {s t : State} {a0 : _} {a1 : _} (h : Keeps s t) :
    Keeps s (pwrMpwake a0 a1 t) := by
  unfold pwrMpwake
  refine Keeps.ite ?_ ?_
  · refine keeps_State_wakeLatch ?_
    assumption
  · assumption

theorem keeps_execPwrMpwake {s t : State} {a0 : _} {a1 : _} {u : State} (h : Keeps s t)
    (e : execPwrMpwake a0 a1 t = .next u) : Keeps s u := by
  unfold execPwrMpwake at e
  injection e with e
  subst e
  refine keeps_State_arrive (fun u1 hu1 => ?_) ?_
  · refine keeps_pwrMpwake ?_
    assumption
  · assumption

theorem keeps_energyDetect {s t : State} {a0 : _} (h : Keeps s t) :
    Keeps s (energyDetect a0 t) := by
  unfold energyDetect
  refine Keeps.ite ?_ ?_
  · refine keeps_State_wakeLatch ?_
    assumption
  · assumption

theorem keeps_execEnergyDetect {s t : State} {a0 : _} {u : State} (h : Keeps s t)
    (e : execEnergyDetect a0 t = .next u) : Keeps s u := by
  unfold execEnergyDetect at e
  injection e with e
  subst e
  refine keeps_energyDetect ?_
  assumption

theorem keeps_execWakeLatch {s t : State} {a0 : _} {u : State} (h : Keeps s t)
    (e : execWakeLatch a0 t = .next u) : Keeps s u := by
  unfold execWakeLatch at e
  injection e with e
  subst e
  refine keeps_wakeLatch ?_
  assumption

theorem keeps_dioOffdiagCheck {s t : State} {a0 : _} {a1 : _} {a2 : _} (h : Keeps s t) :
    Keeps s (dioOffdiagCheck a0 a1 a2 t) := by
  unfold dioOffdiagCheck
  extract_lets +onlyGivenNames x1
  clear_value x1
  refine Keeps.ite ?_ ?_
  · extract_lets +onlyGivenNames x2
    clear_value x2
    extract_lets +onlyGivenNames x3
    clear_value x3
    extract_lets +onlyGivenNames x4
    clear_value x4
    refine keeps_State_setDio ?_
    assumption
  · assumption

theorem keeps_islandFrameApply {s t : State} {a0 : _} {a1 : _} (h : Keeps s t) :
    Keeps s (islandFrameApply a0 a1 t) := by
  unfold islandFrameApply
  extract_lets +onlyGivenNames x1
  clear_value x1
  split
  · refine Keeps.ite ?_ ?_
    · extract_lets +onlyGivenNames x2
      have hx2 : Keeps s x2 := ?_
      · clear_value x2
        refine Keeps.ite ?_ ?_
        · refine keeps_State_alignDone ?_
          assumption
        · assumption
      · unfold x2
        refine keeps_State_frameEnd ?_
        assumption
    · assumption
  · assumption

theorem keeps_State_inFollow {s t : State} {a1 : _} {a2 : _} {a3 : _} (h : Keeps s t) :
    Keeps s (State.inFollow t a1 a2 a3) := by
  unfold State.inFollow
  extract_lets +onlyGivenNames x1
  have hx1 : Keeps s x1 := ?_
  · clear_value x1
    refine Keeps.ite ?_ ?_
    · refine keeps_State_wakeLatch ?_
      assumption
    · assumption
  · unfold x1
    refine keeps_State_setIn ?_
    assumption

theorem keeps_State_sampleIn {s t : State} {a1 : _} {a2 : _} {a3 : _} (h : Keeps s t) :
    Keeps s (State.sampleIn t a1 a2 a3) := by
  unfold State.sampleIn
  extract_lets +onlyGivenNames x1
  clear_value x1
  extract_lets +onlyGivenNames x2
  clear_value x2
  refine Keeps.ite ?_ ?_
  · refine keeps_State_inFollow ?_
    assumption
  · refine keeps_State_setIn ?_
    assumption

theorem keeps_diSample {s t : State} {a0 : _} {a1 : _} {a2 : _} {a3 : _} {a4 : _} (h : Keeps s t) :
    Keeps s (diSample a0 a1 a2 a3 a4 t) := by
  unfold diSample
  refine Keeps.ite ?_ ?_
  · extract_lets +onlyGivenNames x1
    have hx1 : Keeps s x1 := ?_
    · clear_value x1
      refine keeps_State_setIsl ?_
      assumption
    · unfold x1
      refine Keeps.foldl ?_ (fun u2 y3 hu2 => ?_)
      · assumption
      · refine keeps_State_sampleIn ?_
        assumption
  · assumption

theorem keeps_runFldRearm {s t : State} {a0 : _} (h : Keeps s t) :
    Keeps s (runFldRearm a0 t).1 := by
  refine KeepsF.out ?_
  unfold runFldRearm
  extract_lets +onlyGivenNames x1
  clear_value x1
  refine KeepsF.ite ?_ ?_
  · refine KeepsF.pair ?_
    assumption
  · split
    · refine KeepsF.pair ?_
      assumption
    · refine KeepsF.ite ?_ ?_
      · refine KeepsF.pair ?_
        assumption
      · extract_lets +onlyGivenNames x2
        clear_value x2
        refine KeepsF.pair ?_
        refine keeps_State_setIsl ?_
        assumption

theorem keeps_fldRearm {s t : State} (h : Keeps s t) :
    Keeps s (fldRearm t) := by
  unfold fldRearm
  refine keeps_State_doShort (fun _ u1 hu1 => ?_) ?_
  · refine keeps_runFldRearm ?_
    assumption
  · assumption

theorem keeps_execFldRearm {s t : State} {u : State} (h : Keeps s t)
    (e : execFldRearm t = .next u) : Keeps s u := by
  unfold execFldRearm at e
  injection e with e
  subst e
  refine keeps_fldRearm ?_
  assumption

theorem keeps_fldClr {s t : State} {a0 : _} {a1 : _} (h : Keeps s t) :
    Keeps s (fldClr a0 a1 t) := by
  unfold fldClr
  refine Keeps.ite ?_ ?_
  · refine Keeps.foldl ?_ (fun u1 y2 hu1 => ?_)
    · assumption
    · refine keeps_State_wr ?_
      refine keeps_State_wr ?_
      assumption
  · assumption

theorem keeps_execFldClr {s t : State} {a0 : _} {a1 : _} {u : State} (h : Keeps s t)
    (e : execFldClr a0 a1 t = .next u) : Keeps s u := by
  unfold execFldClr at e
  injection e with e
  subst e
  refine keeps_State_arrive (fun u1 hu1 => ?_) ?_
  · refine keeps_fldClr ?_
    assumption
  · assumption

end Machine
end Sys2Proof
end

