-- ==== Sys2Proof/Laws/Keeps06.lean ====
section
/-!
SUPPORT. Keeps of the operations of Field, Loops, Saf.
-/

set_option Elab.async false

namespace Sys2Proof
namespace Machine

theorem keeps_dioExtFeed {s t : State} {a0 : _} {a1 : _} (h : Keeps s t) :
    Keeps s (dioExtFeed a0 a1 t) := by
  unfold dioExtFeed
  extract_lets +onlyGivenNames x1
  clear_value x1
  refine Keeps.ite ?_ ?_
  · assumption
  · refine Keeps.ite ?_ ?_
    · refine keeps_State_setDio ?_
      assumption
    · refine Keeps.ite ?_ ?_
      · refine keeps_State_setDio ?_
        assumption
      · assumption

theorem keeps_execDioExtFeed {s t : State} {a0 : _} {a1 : _} {u : State} (h : Keeps s t)
    (e : execDioExtFeed a0 a1 t = .next u) : Keeps s u := by
  unfold execDioExtFeed at e
  injection e with e
  subst e
  refine keeps_dioExtFeed ?_
  assumption

theorem keeps_runFldWrite {s t : State} {a0 : _} (h : Keeps s t) :
    Keeps s (runFldWrite a0 t).1 := by
  refine KeepsF.out ?_
  unfold runFldWrite
  extract_lets +onlyGivenNames x1
  clear_value x1
  refine KeepsF.ite ?_ ?_
  · refine KeepsF.pair ?_
    assumption
  · split
    · refine KeepsF.pair ?_
      assumption
    · refine KeepsF.ite ?_ ?_
      · refine KeepsF.pair ?_
        assumption
      · refine KeepsF.ite ?_ ?_
        · refine KeepsF.pair ?_
          assumption
        · refine KeepsF.ite ?_ ?_
          · refine KeepsF.pair ?_
            assumption
          · refine KeepsF.pair ?_
            refine keeps_State_islandOut ?_
            assumption

theorem keeps_fldWrite {s t : State} (h : Keeps s t) :
    Keeps s (fldWrite t) := by
  unfold fldWrite
  refine keeps_State_doShort (fun _ u1 hu1 => ?_) ?_
  · refine keeps_runFldWrite ?_
    assumption
  · assumption

theorem keeps_execFldWrite {s t : State} {u : State} (h : Keeps s t)
    (e : execFldWrite t = .next u) : Keeps s u := by
  unfold execFldWrite at e
  injection e with e
  subst e
  refine keeps_fldWrite ?_
  assumption

theorem keeps_State_crcCount {s t : State} {a1 : _} {a2 : _} {a3 : _} (h : Keeps s t) :
    Keeps s (State.crcCount t a1 a2 a3) := by
  unfold State.crcCount
  refine Keeps.ite ?_ ?_
  · refine keeps_State_satAdd ?_
    assumption
  · assumption

theorem keeps_fldFrameLost {s t : State} {a0 : _} {a1 : _} {a2 : _} (h : Keeps s t) :
    Keeps s (fldFrameLost a0 a1 a2 t) := by
  unfold fldFrameLost
  extract_lets +onlyGivenNames x1
  clear_value x1
  refine Keeps.ite ?_ ?_
  · assumption
  · refine Keeps.ite ?_ ?_
    · split
      · assumption
      · refine Keeps.ite ?_ ?_
        · assumption
        · extract_lets +onlyGivenNames x2
          have hx2 : Keeps s x2 := ?_
          · clear_value x2
            refine Keeps.ite ?_ ?_
            · refine keeps_State_linkFault ?_
              assumption
            · assumption
          · unfold x2
            refine keeps_State_crcCount ?_
            refine keeps_State_setIsl ?_
            assumption
    · split
      · assumption
      · refine Keeps.ite ?_ ?_
        · assumption
        · refine keeps_State_crcCount ?_
          refine keeps_State_setIsl ?_
          assumption

theorem keeps_execFldFrameLost {s t : State} {a0 : _} {a1 : _} {a2 : _} {u : State} (h : Keeps s t)
    (e : execFldFrameLost a0 a1 a2 t = .next u) : Keeps s u := by
  unfold execFldFrameLost at e
  injection e with e
  subst e
  refine keeps_fldFrameLost ?_
  assumption

theorem keeps_diVsChange {s t : State} {a0 : _} (h : Keeps s t) :
    Keeps s (diVsChange a0 t) := by
  unfold diVsChange
  extract_lets +onlyGivenNames x1
  clear_value x1
  refine Keeps.ite ?_ ?_
  · extract_lets +onlyGivenNames x2
    clear_value x2
    extract_lets +onlyGivenNames x3
    clear_value x3
    extract_lets +onlyGivenNames x4
    have hx4 : Keeps s x4 := ?_
    · clear_value x4
      refine Keeps.ite ?_ ?_
      · refine keeps_State_raise ?_
        assumption
      · assumption
    · unfold x4
      refine keeps_State_setIsl ?_
      assumption
  · assumption

theorem keeps_execDiVsChange {s t : State} {a0 : _} {u : State} (h : Keeps s t)
    (e : execDiVsChange a0 t = .next u) : Keeps s u := by
  unfold execDiVsChange at e
  injection e with e
  subst e
  refine keeps_diVsChange ?_
  assumption

theorem keeps_pwmRampTick {s t : State} (h : Keeps s t) :
    Keeps s (pwmRampTick t) := by
  unfold pwmRampTick
  refine Keeps.ite ?_ ?_
  · extract_lets +onlyGivenNames x1
    clear_value x1
    extract_lets +onlyGivenNames x2
    have hx2 : Keeps s x2 := ?_
    · clear_value x2
      refine Keeps.foldl ?_ (fun u3 y4 hu3 => ?_)
      · assumption
      · refine Keeps.foldl ?_ (fun u5 y6 hu5 => ?_)
        · assumption
        · extract_lets +onlyGivenNames x7
          clear_value x7
          refine Keeps.ite ?_ ?_
          · refine keeps_State_setDio ?_
            assumption
          · assumption
    · unfold x2
      refine Keeps.same (t := t) ?_ rfl rfl rfl
      assumption
  · assumption

theorem keeps_execPwmRampTick {s t : State} {u : State} (h : Keeps s t)
    (e : execPwmRampTick t = .next u) : Keeps s u := by
  unfold execPwmRampTick at e
  injection e with e
  subst e
  refine keeps_pwmRampTick ?_
  assumption

theorem keeps_dioOndiagMeasure {s t : State} {a0 : _} {a1 : _} {a2 : _} (h : Keeps s t) :
    Keeps s (dioOndiagMeasure a0 a1 a2 t) := by
  unfold dioOndiagMeasure
  extract_lets +onlyGivenNames x1
  clear_value x1
  refine Keeps.ite ?_ ?_
  · extract_lets +onlyGivenNames x2
    clear_value x2
    extract_lets +onlyGivenNames x3
    clear_value x3
    refine keeps_State_setDio ?_
    assumption
  · assumption

theorem keeps_runFldLinkRestart {s t : State} {a0 : _} (h : Keeps s t) :
    Keeps s (runFldLinkRestart a0 t).1 := by
  refine KeepsF.out ?_
  unfold runFldLinkRestart
  extract_lets +onlyGivenNames x1
  clear_value x1
  refine KeepsF.ite ?_ ?_
  · refine KeepsF.pair ?_
    assumption
  · split
    · refine KeepsF.pair ?_
      assumption
    · refine KeepsF.ite ?_ ?_
      · refine KeepsF.pair ?_
        assumption
      · refine KeepsF.ite ?_ ?_
        · refine KeepsF.pair ?_
          assumption
        · refine KeepsF.pair ?_
          refine keeps_State_linkLoad ?_
          assumption

theorem keeps_fldLinkRestart {s t : State} (h : Keeps s t) :
    Keeps s (fldLinkRestart t) := by
  unfold fldLinkRestart
  refine keeps_State_doShort (fun _ u1 hu1 => ?_) ?_
  · refine keeps_runFldLinkRestart ?_
    assumption
  · assumption

theorem keeps_State_dioRestart {s t : State} {a1 : _} {a2 : _} (h : Keeps s t) :
    Keeps s (State.dioRestart t a1 a2) := by
  unfold State.dioRestart
  extract_lets +onlyGivenNames x1
  clear_value x1
  refine Keeps.ite ?_ ?_
  · refine keeps_State_setDio ?_
    assumption
  · assumption

theorem keeps_dioShortDetect {s t : State} {a0 : _} {a1 : _} {a2 : _} (h : Keeps s t) :
    Keeps s (dioShortDetect a0 a1 a2 t) := by
  unfold dioShortDetect
  extract_lets +onlyGivenNames x1
  clear_value x1
  extract_lets +onlyGivenNames x2
  clear_value x2
  refine Keeps.ite ?_ ?_
  · assumption
  · refine Keeps.ite ?_ ?_
    · refine Keeps.ite ?_ ?_
      · refine keeps_State_setDio ?_
        assumption
      · assumption
    · refine Keeps.ite ?_ ?_
      · refine keeps_State_setDio ?_
        assumption
      · assumption

theorem keeps_fldUplinkFrame {s t : State} {a0 : _} {a1 : _} (h : Keeps s t) :
    Keeps s (fldUplinkFrame a0 a1 t) := by
  unfold fldUplinkFrame
  split
  · refine Keeps.ite ?_ ?_
    · extract_lets +onlyGivenNames x1
      have hx1 : Keeps s x1 := ?_
      · clear_value x1
        extract_lets +onlyGivenNames x2
        have hx2 : Keeps s x2 := ?_
        · clear_value x2
          extract_lets +onlyGivenNames x3
          have hx3 : Keeps s x3 := ?_
          · clear_value x3
            extract_lets +onlyGivenNames x4
            have hx4 : Keeps s x4 := ?_
            · clear_value x4
              refine keeps_State_linkHeard ?_
              assumption
            · unfold x4
              refine keeps_State_offPulseSee ?_
              assumption
          · unfold x3
            refine keeps_State_safSample ?_
            assumption
        · unfold x2
          refine Keeps.ite ?_ ?_
          · refine keeps_State_testFailed ?_
            assumption
          · assumption
      · unfold x1
        refine keeps_State_heldUpdate ?_
        assumption
    · assumption
  · assumption

theorem keeps_fldSetFunc {s t : State} (h : Keeps s t) :
    Keeps s (fldSetFunc t) := by
  unfold fldSetFunc
  refine keeps_State_doLong (fun _ u1 hu1 => ?_) ?_
  · refine keeps_State_setOut ?_
    assumption
  · assumption

theorem keeps_dioThermalShutdown {s t : State} {a0 : _} {a1 : _} (h : Keeps s t) :
    Keeps s (dioThermalShutdown a0 a1 t) := by
  unfold dioThermalShutdown
  extract_lets +onlyGivenNames x1
  clear_value x1
  refine Keeps.ite ?_ ?_
  · assumption
  · extract_lets +onlyGivenNames x2
    clear_value x2
    extract_lets +onlyGivenNames x3
    clear_value x3
    refine keeps_State_setDio ?_
    assumption

theorem keeps_runFldRead {s t : State} {a0 : _} (h : Keeps s t) :
    Keeps s (runFldRead a0 t).1 := by
  refine KeepsF.out ?_
  unfold runFldRead
  extract_lets +onlyGivenNames x1
  clear_value x1
  refine KeepsF.ite ?_ ?_
  · refine KeepsF.pair ?_
    assumption
  · split
    · refine KeepsF.pair ?_
      assumption
    · refine KeepsF.ite ?_ ?_
      · refine KeepsF.pair ?_
        refine keeps_State_outBuf ?_
        assumption
      · refine KeepsF.pair ?_
        assumption

theorem keeps_State_dioTrip {s t : State} {a1 : _} {a2 : _} (h : Keeps s t) :
    Keeps s (State.dioTrip t a1 a2) := by
  unfold State.dioTrip
  refine keeps_State_setDio ?_
  assumption

theorem keeps_execDiSample {s t : State} {a0 : _} {a1 : _} {a2 : _} {a3 : _} {a4 : _} {u : State} (h : Keeps s t)
    (e : execDiSample a0 a1 a2 a3 a4 t = .next u) : Keeps s u := by
  unfold execDiSample at e
  injection e with e
  subst e
  refine keeps_diSample ?_
  assumption

theorem keeps_fldDownlinkFrame {s t : State} {a0 : _} (h : Keeps s t) :
    Keeps s (fldDownlinkFrame a0 t) := by
  unfold fldDownlinkFrame
  refine Keeps.ite ?_ ?_
  · refine keeps_State_framesStart ?_
    assumption
  · assumption

theorem keeps_diDebounceExpiry {s t : State} {a0 : _} {a1 : _} (h : Keeps s t) :
    Keeps s (diDebounceExpiry a0 a1 t) := by
  unfold diDebounceExpiry
  extract_lets +onlyGivenNames x1
  clear_value x1
  refine Keeps.ite ?_ ?_
  · refine keeps_State_inFollow ?_
    assumption
  · assumption

theorem keeps_execDioThermalShutdown {s t : State} {a0 : _} {a1 : _} {u : State} (h : Keeps s t)
    (e : execDioThermalShutdown a0 a1 t = .next u) : Keeps s u := by
  unfold execDioThermalShutdown at e
  injection e with e
  subst e
  refine keeps_dioThermalShutdown ?_
  assumption

theorem keeps_execDioOffdiagCheck {s t : State} {a0 : _} {a1 : _} {a2 : _} {u : State} (h : Keeps s t)
    (e : execDioOffdiagCheck a0 a1 a2 t = .next u) : Keeps s u := by
  unfold execDioOffdiagCheck at e
  injection e with e
  subst e
  refine keeps_dioOffdiagCheck ?_
  assumption

theorem keeps_execFldDownlinkFrame {s t : State} {a0 : _} {u : State} (h : Keeps s t)
    (e : execFldDownlinkFrame a0 t = .next u) : Keeps s u := by
  unfold execFldDownlinkFrame at e
  injection e with e
  subst e
  refine keeps_fldDownlinkFrame ?_
  assumption

theorem keeps_dioGroupOc {s t : State} {a0 : _} {a1 : _} (h : Keeps s t) :
    Keeps s (dioGroupOc a0 a1 t) := by
  unfold dioGroupOc
  extract_lets +onlyGivenNames x1
  clear_value x1
  refine Keeps.ite ?_ ?_
  · refine keeps_State_setIsl ?_
    assumption
  · assumption

theorem keeps_dioGroupTrip {s t : State} {a0 : _} (h : Keeps s t) :
    Keeps s (dioGroupTrip a0 t) := by
  unfold dioGroupTrip
  refine Keeps.ite ?_ ?_
  · extract_lets +onlyGivenNames x1
    have hx1 : Keeps s x1 := ?_
    · clear_value x1
      refine keeps_State_setIsl ?_
      assumption
    · unfold x1
      refine Keeps.foldl ?_ (fun u2 y3 hu2 => ?_)
      · assumption
      · refine keeps_State_dioTrip ?_
        assumption
  · assumption

theorem keeps_fldRead {s t : State} (h : Keeps s t) :
    Keeps s (fldRead t) := by
  unfold fldRead
  refine keeps_State_doShort (fun _ u1 hu1 => ?_) ?_
  · refine keeps_runFldRead ?_
    assumption
  · assumption

theorem keeps_dioThermalCool {s t : State} {a0 : _} {a1 : _} (h : Keeps s t) :
    Keeps s (dioThermalCool a0 a1 t) := by
  unfold dioThermalCool
  extract_lets +onlyGivenNames x1
  clear_value x1
  refine Keeps.ite ?_ ?_
  · refine keeps_State_dioRestart ?_
    refine keeps_State_setDio ?_
    assumption
  · assumption

theorem keeps_execDioThermalCool {s t : State} {a0 : _} {a1 : _} {u : State} (h : Keeps s t)
    (e : execDioThermalCool a0 a1 t = .next u) : Keeps s u := by
  unfold execDioThermalCool at e
  injection e with e
  subst e
  refine keeps_dioThermalCool ?_
  assumption

theorem keeps_pwmPeriodStart {s t : State} {a0 : _} {a1 : _} (h : Keeps s t) :
    Keeps s (pwmPeriodStart a0 a1 t) := by
  unfold pwmPeriodStart
  extract_lets +onlyGivenNames x1
  clear_value x1
  refine Keeps.ite ?_ ?_
  · extract_lets +onlyGivenNames x2
    clear_value x2
    extract_lets +onlyGivenNames x3
    clear_value x3
    refine keeps_State_setDio ?_
    assumption
  · assumption

theorem keeps_execFldLinkRestart {s t : State} {u : State} (h : Keeps s t)
    (e : execFldLinkRestart t = .next u) : Keeps s u := by
  unfold execFldLinkRestart at e
  injection e with e
  subst e
  refine keeps_fldLinkRestart ?_
  assumption

theorem keeps_execFldSetFunc {s t : State} {u : State} (h : Keeps s t)
    (e : execFldSetFunc t = .next u) : Keeps s u := by
  unfold execFldSetFunc at e
  injection e with e
  subst e
  refine keeps_fldSetFunc ?_
  assumption

theorem keeps_execDioGroupTrip {s t : State} {a0 : _} {u : State} (h : Keeps s t)
    (e : execDioGroupTrip a0 t = .next u) : Keeps s u := by
  unfold execDioGroupTrip at e
  injection e with e
  subst e
  refine keeps_dioGroupTrip ?_
  assumption

theorem keeps_execFldUplinkFrame {s t : State} {a0 : _} {a1 : _} {u : State} (h : Keeps s t)
    (e : execFldUplinkFrame a0 a1 t = .next u) : Keeps s u := by
  unfold execFldUplinkFrame at e
  injection e with e
  subst e
  refine keeps_fldUplinkFrame ?_
  assumption

theorem keeps_dioRetryTimer {s t : State} {a0 : _} {a1 : _} (h : Keeps s t) :
    Keeps s (dioRetryTimer a0 a1 t) := by
  unfold dioRetryTimer
  refine Keeps.ite ?_ ?_
  · refine keeps_State_dioRestart ?_
    assumption
  · assumption

theorem keeps_dioVdoLow {s t : State} {a0 : _} (h : Keeps s t) :
    Keeps s (dioVdoLow a0 t) := by
  unfold dioVdoLow
  extract_lets +onlyGivenNames x1
  clear_value x1
  refine Keeps.ite ?_ ?_
  · assumption
  · refine Keeps.ite ?_ ?_
    · refine keeps_State_setIsl ?_
      assumption
    · refine Keeps.ite ?_ ?_
      · refine keeps_State_setIsl ?_
        assumption
      · assumption

theorem keeps_State_fskSilent {s t : State} {a1 : _} (h : Keeps s t) :
    Keeps s (State.fskSilent t a1) := by
  unfold State.fskSilent
  extract_lets +onlyGivenNames x1
  clear_value x1
  extract_lets +onlyGivenNames x2
  refine Keeps.ite ?_ ?_
  · unfold x2
    refine keeps_State_aiGoOn ?_
    refine keeps_State_aiAbort ?_
    refine keeps_State_aiGoOn ?_
    refine keeps_State_aiAbort ?_
    assumption
  · assumption

theorem keeps_islandLinkLoss {s t : State} {a0 : _} (h : Keeps s t) :
    Keeps s (islandLinkLoss a0 t) := by
  unfold islandLinkLoss
  extract_lets +onlyGivenNames x1
  clear_value x1
  refine Keeps.ite ?_ ?_
  · refine keeps_State_fskSilent ?_
    refine keeps_State_islandSafe ?_
    refine keeps_State_setIsl ?_
    assumption
  · assumption

theorem keeps_execIslandLinkLoss {s t : State} {a0 : _} {u : State} (h : Keeps s t)
    (e : execIslandLinkLoss a0 t = .next u) : Keeps s u := by
  unfold execIslandLinkLoss at e
  injection e with e
  subst e
  refine keeps_islandLinkLoss ?_
  assumption

theorem keeps_execPwmPeriodStart {s t : State} {a0 : _} {a1 : _} {u : State} (h : Keeps s t)
    (e : execPwmPeriodStart a0 a1 t = .next u) : Keeps s u := by
  unfold execPwmPeriodStart at e
  injection e with e
  subst e
  refine keeps_pwmPeriodStart ?_
  assumption

theorem keeps_execDioRetryTimer {s t : State} {a0 : _} {a1 : _} {u : State} (h : Keeps s t)
    (e : execDioRetryTimer a0 a1 t = .next u) : Keeps s u := by
  unfold execDioRetryTimer at e
  injection e with e
  subst e
  refine keeps_dioRetryTimer ?_
  assumption

theorem keeps_execDioShortDetect {s t : State} {a0 : _} {a1 : _} {a2 : _} {u : State} (h : Keeps s t)
    (e : execDioShortDetect a0 a1 a2 t = .next u) : Keeps s u := by
  unfold execDioShortDetect at e
  injection e with e
  subst e
  refine keeps_dioShortDetect ?_
  assumption

theorem keeps_execDioVdoLow {s t : State} {a0 : _} {u : State} (h : Keeps s t)
    (e : execDioVdoLow a0 t = .next u) : Keeps s u := by
  unfold execDioVdoLow at e
  injection e with e
  subst e
  refine keeps_dioVdoLow ?_
  assumption

theorem keeps_execFldRead {s t : State} {u : State} (h : Keeps s t)
    (e : execFldRead t = .next u) : Keeps s u := by
  unfold execFldRead at e
  injection e with e
  subst e
  refine keeps_fldRead ?_
  assumption

theorem keeps_execDioOndiagMeasure {s t : State} {a0 : _} {a1 : _} {a2 : _} {u : State} (h : Keeps s t)
    (e : execDioOndiagMeasure a0 a1 a2 t = .next u) : Keeps s u := by
  unfold execDioOndiagMeasure at e
  injection e with e
  subst e
  refine keeps_dioOndiagMeasure ?_
  assumption

theorem keeps_execDioGroupOc {s t : State} {a0 : _} {a1 : _} {u : State} (h : Keeps s t)
    (e : execDioGroupOc a0 a1 t = .next u) : Keeps s u := by
  unfold execDioGroupOc at e
  injection e with e
  subst e
  refine keeps_dioGroupOc ?_
  assumption

theorem keeps_execDiDebounceExpiry {s t : State} {a0 : _} {a1 : _} {u : State} (h : Keeps s t)
    (e : execDiDebounceExpiry a0 a1 t = .next u) : Keeps s u := by
  unfold execDiDebounceExpiry at e
  injection e with e
  subst e
  refine keeps_diDebounceExpiry ?_
  assumption

theorem keeps_execIslandFrameApply {s t : State} {a0 : _} {a1 : _} {u : State} (h : Keeps s t)
    (e : execIslandFrameApply a0 a1 t = .next u) : Keeps s u := by
  unfold execIslandFrameApply at e
  injection e with e
  subst e
  refine keeps_islandFrameApply ?_
  assumption

theorem keeps_State_aiRise {s t : State} {a1 : _} {a2 : _} {a3 : _} (h : Keeps s t) :
    Keeps s (State.aiRise t a1 a2 a3) := by
  unfold State.aiRise
  refine Keeps.ite ?_ ?_
  · refine keeps_State_raise ?_
    assumption
  · assumption

theorem keeps_aiParkWindow {s t : State} {a0 : _} {a1 : _} (h : Keeps s t) :
    Keeps s (aiParkWindow a0 a1 t) := by
  unfold aiParkWindow
  refine Keeps.ite ?_ ?_
  · refine keeps_State_aiRise ?_
    refine keeps_State_setAi ?_
    assumption
  · assumption

theorem keeps_execAiParkWindow {s t : State} {a0 : _} {a1 : _} {u : State} (h : Keeps s t)
    (e : execAiParkWindow a0 a1 t = .next u) : Keeps s u := by
  unfold execAiParkWindow at e
  injection e with e
  subst e
  refine keeps_aiParkWindow ?_
  assumption

theorem keeps_aiVlpLow {s t : State} {a0 : _} {a1 : _} (h : Keeps s t) :
    Keeps s (aiVlpLow a0 a1 t) := by
  unfold aiVlpLow
  refine Keeps.ite ?_ ?_
  · extract_lets +onlyGivenNames x1
    clear_value x1
    extract_lets +onlyGivenNames x2
    have hx2 : Keeps s x2 := ?_
    · clear_value x2
      refine keeps_State_aiRise ?_
      refine keeps_State_aiRise ?_
      assumption
    · unfold x2
      refine keeps_State_setIsl ?_
      assumption
  · assumption

theorem keeps_fskCharRx {s t : State} {a0 : _} {a1 : _} {a2 : _} {a3 : _} (h : Keeps s t) :
    Keeps s (fskCharRx a0 a1 a2 a3 t) := by
  unfold fskCharRx
  split
  · extract_lets +onlyGivenNames x1
    clear_value x1
    refine Keeps.ite ?_ ?_
    · extract_lets +onlyGivenNames x2
      have hx2 : Keeps s x2 := ?_
      · clear_value x2
        refine keeps_State_setOut ?_
        assumption
      · unfold x2
        refine keeps_State_outBuf ?_
        assumption
    · assumption
  · assumption

theorem keeps_aiSupLimit {s t : State} {a0 : _} {a1 : _} (h : Keeps s t) :
    Keeps s (aiSupLimit a0 a1 t) := by
  unfold aiSupLimit
  refine Keeps.ite ?_ ?_
  · refine keeps_State_aiRise ?_
    refine keeps_State_setAi ?_
    assumption
  · assumption

theorem keeps_fskCarrierDetect {s t : State} {a0 : _} (h : Keeps s t) :
    Keeps s (fskCarrierDetect a0 t) := by
  unfold fskCarrierDetect
  refine Keeps.ite ?_ ?_
  · extract_lets +onlyGivenNames x1
    clear_value x1
    extract_lets +onlyGivenNames x2
    have hx2 : Keeps s x2 := ?_
    · clear_value x2
      split
      · refine keeps_State_setOut ?_
        assumption
      · assumption
    · unfold x2
      refine keeps_State_setAi ?_
      assumption
  · assumption

theorem keeps_fskTxEnd {s t : State} {a0 : _} (h : Keeps s t) :
    Keeps s (fskTxEnd a0 t) := by
  unfold fskTxEnd
  split
  · refine Keeps.ite ?_ ?_
    · refine Keeps.ite ?_ ?_
      · refine keeps_State_aiEnd ?_
        assumption
      · refine Keeps.ite ?_ ?_
        · refine keeps_State_setOut ?_
          assumption
        · refine keeps_State_setOut ?_
          assumption
    · assumption
  · assumption

theorem keeps_execFskTxEnd {s t : State} {a0 : _} {u : State} (h : Keeps s t)
    (e : execFskTxEnd a0 t = .next u) : Keeps s u := by
  unfold execFskTxEnd at e
  injection e with e
  subst e
  refine keeps_fskTxEnd ?_
  assumption

theorem keeps_execAiVlpLow {s t : State} {a0 : _} {a1 : _} {u : State} (h : Keeps s t)
    (e : execAiVlpLow a0 a1 t = .next u) : Keeps s u := by
  unfold execAiVlpLow at e
  injection e with e
  subst e
  refine keeps_aiVlpLow ?_
  assumption

theorem keeps_fldFskXfer {s t : State} (h : Keeps s t) :
    Keeps s (fldFskXfer t) := by
  unfold fldFskXfer
  refine keeps_State_doLong (fun _ u1 hu1 => ?_) ?_
  · refine keeps_State_aiStart ?_
    assumption
  · assumption

theorem keeps_fldAiCapture {s t : State} (h : Keeps s t) :
    Keeps s (fldAiCapture t) := by
  unfold fldAiCapture
  refine keeps_State_doLong (fun _ u1 hu1 => ?_) ?_
  · refine keeps_State_aiStart ?_
    assumption
  · assumption

theorem keeps_execFldAiCapture {s t : State} {u : State} (h : Keeps s t)
    (e : execFldAiCapture t = .next u) : Keeps s u := by
  unfold execFldAiCapture at e
  injection e with e
  subst e
  refine keeps_fldAiCapture ?_
  assumption

theorem keeps_execFldFskXfer {s t : State} {u : State} (h : Keeps s t)
    (e : execFldFskXfer t = .next u) : Keeps s u := by
  unfold execFldFskXfer at e
  injection e with e
  subst e
  refine keeps_fldFskXfer ?_
  assumption

theorem keeps_execFskCharRx {s t : State} {a0 : _} {a1 : _} {a2 : _} {a3 : _} {u : State} (h : Keeps s t)
    (e : execFskCharRx a0 a1 a2 a3 t = .next u) : Keeps s u := by
  unfold execFskCharRx at e
  injection e with e
  subst e
  refine keeps_fskCharRx ?_
  assumption

theorem keeps_fskRxTimeout {s t : State} {a0 : _} (h : Keeps s t) :
    Keeps s (fskRxTimeout a0 t) := by
  unfold fskRxTimeout
  split
  · refine Keeps.ite ?_ ?_
    · refine keeps_State_aiEnd ?_
      assumption
    · assumption
  · assumption

theorem keeps_execFskRxTimeout {s t : State} {a0 : _} {u : State} (h : Keeps s t)
    (e : execFskRxTimeout a0 t = .next u) : Keeps s u := by
  unfold execFskRxTimeout at e
  injection e with e
  subst e
  refine keeps_fskRxTimeout ?_
  assumption

theorem keeps_fldAiSyncStatClr {s t : State} {a0 : _} {a1 : _} (h : Keeps s t) :
    Keeps s (fldAiSyncStatClr a0 a1 t) := by
  unfold fldAiSyncStatClr
  refine Keeps.ite ?_ ?_
  · refine keeps_State_wr ?_
    refine keeps_State_wr ?_
    assumption
  · assumption

theorem keeps_execFldAiSyncStatClr {s t : State} {a0 : _} {a1 : _} {u : State} (h : Keeps s t)
    (e : execFldAiSyncStatClr a0 a1 t = .next u) : Keeps s u := by
  unfold execFldAiSyncStatClr at e
  injection e with e
  subst e
  refine keeps_State_arrive (fun u1 hu1 => ?_) ?_
  · refine keeps_fldAiSyncStatClr ?_
    assumption
  · assumption

theorem keeps_aiOpenLoop {s t : State} {a0 : _} {a1 : _} (h : Keeps s t) :
    Keeps s (aiOpenLoop a0 a1 t) := by
  unfold aiOpenLoop
  refine Keeps.ite ?_ ?_
  · refine keeps_State_aiRise ?_
    refine keeps_State_setAi ?_
    assumption
  · assumption

theorem keeps_execAiOpenLoop {s t : State} {a0 : _} {a1 : _} {u : State} (h : Keeps s t)
    (e : execAiOpenLoop a0 a1 t = .next u) : Keeps s u := by
  unfold execAiOpenLoop at e
  injection e with e
  subst e
  refine keeps_aiOpenLoop ?_
  assumption

theorem keeps_runAiSync {s t : State} {a0 : _} (h : Keeps s t) :
    Keeps s (runAiSync a0 t).1 := by
  refine KeepsF.out ?_
  unfold runAiSync
  refine KeepsF.ite ?_ ?_
  · refine KeepsF.pair ?_
    assumption
  · refine KeepsF.ite ?_ ?_
    · refine KeepsF.pair ?_
      assumption
    · extract_lets +onlyGivenNames x1
      have hx1 : Keeps s x1 := ?_
      · clear_value x1
        refine KeepsF.pair ?_
        assumption
      · unfold x1
        refine keeps_State_alignEvent ?_
        assumption

theorem keeps_execAiSupLimit {s t : State} {a0 : _} {a1 : _} {u : State} (h : Keeps s t)
    (e : execAiSupLimit a0 a1 t = .next u) : Keeps s u := by
  unfold execAiSupLimit at e
  injection e with e
  subst e
  refine keeps_aiSupLimit ?_
  assumption

theorem keeps_aiCompliance {s t : State} {a0 : _} {a1 : _} (h : Keeps s t) :
    Keeps s (aiCompliance a0 a1 t) := by
  unfold aiCompliance
  refine Keeps.ite ?_ ?_
  · refine keeps_State_aiRise ?_
    refine keeps_State_setAi ?_
    assumption
  · assumption

theorem keeps_execAiCompliance {s t : State} {a0 : _} {a1 : _} {u : State} (h : Keeps s t)
    (e : execAiCompliance a0 a1 t = .next u) : Keeps s u := by
  unfold execAiCompliance at e
  injection e with e
  subst e
  refine keeps_aiCompliance ?_
  assumption

theorem keeps_aiReadbackWindow {s t : State} {a0 : _} {a1 : _} {a2 : _} {a3 : _} {a4 : _} (h : Keeps s t) :
    Keeps s (aiReadbackWindow a0 a1 a2 a3 a4 t) := by
  unfold aiReadbackWindow
  refine Keeps.ite ?_ ?_
  · extract_lets +onlyGivenNames x1
    clear_value x1
    extract_lets +onlyGivenNames x2
    clear_value x2
    extract_lets +onlyGivenNames x3
    clear_value x3
    extract_lets +onlyGivenNames x4
    clear_value x4
    extract_lets +onlyGivenNames x5
    clear_value x5
    extract_lets +onlyGivenNames x6
    clear_value x6
    extract_lets +onlyGivenNames x7
    clear_value x7
    extract_lets +onlyGivenNames x8
    have hx8 : Keeps s x8 := ?_
    · clear_value x8
      refine keeps_State_aiRise ?_
      assumption
    · unfold x8
      refine keeps_State_setAi ?_
      refine keeps_State_setIsl ?_
      assumption
  · assumption

theorem keeps_fldAiSync {s t : State} (h : Keeps s t) :
    Keeps s (fldAiSync t) := by
  unfold fldAiSync
  refine keeps_State_doShort (fun _ u1 hu1 => ?_) ?_
  · refine keeps_runAiSync ?_
    assumption
  · assumption

theorem keeps_State_aiCaptureTake {s t : State} {a1 : _} (h : Keeps s t) :
    Keeps s (State.aiCaptureTake t a1) := by
  unfold State.aiCaptureTake
  split
  · assumption
  · refine Keeps.ite ?_ ?_
    · assumption
    · extract_lets +onlyGivenNames x1
      clear_value x1
      extract_lets +onlyGivenNames x2
      clear_value x2
      extract_lets +onlyGivenNames x3
      have hx3 : Keeps s x3 := ?_
      · clear_value x3
        extract_lets +onlyGivenNames x4
        clear_value x4
        extract_lets +onlyGivenNames x5
        clear_value x5
        extract_lets +onlyGivenNames x6
        have hx6 : Keeps s x6 := ?_
        · clear_value x6
          refine Keeps.ite ?_ ?_
          · refine keeps_State_aiEnd ?_
            assumption
          · assumption
        · unfold x6
          refine keeps_State_setOut ?_
          assumption
      · unfold x3
        refine keeps_State_outBuf ?_
        assumption

theorem keeps_fskRxEnd {s t : State} {a0 : _} {a1 : _} (h : Keeps s t) :
    Keeps s (fskRxEnd a0 a1 t) := by
  unfold fskRxEnd
  extract_lets +onlyGivenNames x1
  clear_value x1
  extract_lets +onlyGivenNames x2
  have hx2 : Keeps s x2 := ?_
  · clear_value x2
    split
    · refine Keeps.ite ?_ ?_
      · refine keeps_State_aiEnd ?_
        assumption
      · assumption
    · assumption
  · unfold x2
    refine Keeps.ite ?_ ?_
    · refine keeps_State_setAi ?_
      assumption
    · assumption

theorem keeps_aiResult {s t : State} {a0 : _} {a1 : _} (h : Keeps s t) :
    Keeps s (aiResult a0 a1 t) := by
  unfold aiResult
  extract_lets +onlyGivenNames x1
  clear_value x1
  extract_lets +onlyGivenNames x2
  clear_value x2
  refine Keeps.ite ?_ ?_
  · extract_lets +onlyGivenNames x3
    clear_value x3
    extract_lets +onlyGivenNames x4
    clear_value x4
    extract_lets +onlyGivenNames x5
    have hx5 : Keeps s x5 := ?_
    · clear_value x5
      refine keeps_State_aiCaptureTake ?_
      refine keeps_State_aiRise ?_
      assumption
    · unfold x5
      refine keeps_State_setAi ?_
      assumption
  · assumption

theorem keeps_execAiResult {s t : State} {a0 : _} {a1 : _} {u : State} (h : Keeps s t)
    (e : execAiResult a0 a1 t = .next u) : Keeps s u := by
  unfold execAiResult at e
  injection e with e
  subst e
  refine keeps_aiResult ?_
  assumption

theorem keeps_execAiReadbackWindow {s t : State} {a0 : _} {a1 : _} {a2 : _} {a3 : _} {a4 : _} {u : State} (h : Keeps s t)
    (e : execAiReadbackWindow a0 a1 a2 a3 a4 t = .next u) : Keeps s u := by
  unfold execAiReadbackWindow at e
  injection e with e
  subst e
  refine keeps_aiReadbackWindow ?_
  assumption

theorem keeps_execFldAiSync {s t : State} {u : State} (h : Keeps s t)
    (e : execFldAiSync t = .next u) : Keeps s u := by
  unfold execFldAiSync at e
  injection e with e
  subst e
  refine keeps_fldAiSync ?_
  assumption

theorem keeps_execFskCarrierDetect {s t : State} {a0 : _} {u : State} (h : Keeps s t)
    (e : execFskCarrierDetect a0 t = .next u) : Keeps s u := by
  unfold execFskCarrierDetect at e
  injection e with e
  subst e
  refine keeps_fskCarrierDetect ?_
  assumption

theorem keeps_execFskRxEnd {s t : State} {a0 : _} {a1 : _} {u : State} (h : Keeps s t)
    (e : execFskRxEnd a0 a1 t = .next u) : Keeps s u := by
  unfold execFskRxEnd at e
  injection e with e
  subst e
  refine keeps_fskRxEnd ?_
  assumption

theorem keeps_safEvaluation {s t : State} {a0 : _} (h : Keeps s t) :
    Keeps s (safEvaluation a0 t) := by
  unfold safEvaluation
  refine Keeps.ite ?_ ?_
  · extract_lets +onlyGivenNames x1
    extract_lets +onlyGivenNames x2
    have hx2 : Keeps s x2 := ?_
    · skip
      refine Keeps.ite ?_ ?_
      · extract_lets +onlyGivenNames x3
        have hx3 : Keeps s x3 := ?_
        · clear_value x3
          refine keeps_State_enterSafe ?_
          refine keeps_State_wr ?_
          assumption
        · unfold x3
          refine Keeps.foldl ?_ (fun u4 y5 hu4 => ?_)
          · assumption
          · refine keeps_State_safBoth ?_
            assumption
      · extract_lets +onlyGivenNames x6
        clear_value x6
        extract_lets +onlyGivenNames x7
        have hx7 : Keeps s x7 := ?_
        · clear_value x7
          refine Keeps.foldl ?_ (fun u8 y9 hu8 => ?_)
          · assumption
          · refine keeps_State_safEvalBlock ?_
            assumption
        · unfold x7
          refine Keeps.same (t := x2) ?_ rfl rfl rfl
          assumption
    · unfold x2
      refine Keeps.same (t := t) ?_ rfl rfl rfl
      assumption
  · assumption

theorem keeps_execSafEvaluation {s t : State} {a0 : _} {u : State} (h : Keeps s t)
    (e : execSafEvaluation a0 t = .next u) : Keeps s u := by
  unfold execSafEvaluation at e
  injection e with e
  subst e
  refine keeps_safEvaluation ?_
  assumption

theorem keeps_tpCheckEnd {s t : State} {a0 : _} {a1 : _} (h : Keeps s t) :
    Keeps s (tpCheckEnd a0 a1 t) := by
  unfold tpCheckEnd
  extract_lets +onlyGivenNames x1
  clear_value x1
  refine Keeps.ite ?_ ?_
  · extract_lets +onlyGivenNames x2
    clear_value x2
    extract_lets +onlyGivenNames x3
    clear_value x3
    extract_lets +onlyGivenNames x4
    clear_value x4
    extract_lets +onlyGivenNames x5
    clear_value x5
    extract_lets +onlyGivenNames x6
    have hx6 : Keeps s x6 := ?_
    · clear_value x6
      refine Keeps.ite ?_ ?_
      · refine keeps_State_safCheckFails ?_
        assumption
      · assumption
    · unfold x6
      refine keeps_State_setSafCh ?_
      assumption
  · assumption

theorem keeps_execTpCheckEnd {s t : State} {a0 : _} {a1 : _} {u : State} (h : Keeps s t)
    (e : execTpCheckEnd a0 a1 t = .next u) : Keeps s u := by
  unfold execTpCheckEnd at e
  injection e with e
  subst e
  refine keeps_tpCheckEnd ?_
  assumption

theorem keeps_runSafStatus {s t : State} {a0 : _} (h : Keeps s t) :
    Keeps s (runSafStatus a0 t).1 := by
  refine KeepsF.out ?_
  unfold runSafStatus
  extract_lets +onlyGivenNames x1
  clear_value x1
  refine KeepsF.ite ?_ ?_
  · refine KeepsF.pair ?_
    assumption
  · refine KeepsF.pair ?_
    refine keeps_State_outBuf ?_
    assumption

theorem keeps_safInFiltExpiry {s t : State} {a0 : _} {a1 : _} (h : Keeps s t) :
    Keeps s (safInFiltExpiry a0 a1 t) := by
  unfold safInFiltExpiry
  extract_lets +onlyGivenNames x1
  clear_value x1
  split
  · refine Keeps.ite ?_ ?_
    · refine keeps_State_setSafCh ?_
      assumption
    · assumption
  · assumption

theorem keeps_execSafInFiltExpiry {s t : State} {a0 : _} {a1 : _} {u : State} (h : Keeps s t)
    (e : execSafInFiltExpiry a0 a1 t = .next u) : Keeps s u := by
  unfold execSafInFiltExpiry at e
  injection e with e
  subst e
  refine keeps_safInFiltExpiry ?_
  assumption

theorem keeps_safDegExpiry {s t : State} {a0 : _} (h : Keeps s t) :
    Keeps s (safDegExpiry a0 t) := by
  unfold safDegExpiry
  refine Keeps.ite ?_ ?_
  · refine keeps_State_safTrip ?_
    assumption
  · assumption

theorem keeps_execSafDegExpiry {s t : State} {a0 : _} {u : State} (h : Keeps s t)
    (e : execSafDegExpiry a0 t = .next u) : Keeps s u := by
  unfold execSafDegExpiry at e
  injection e with e
  subst e
  refine keeps_safDegExpiry ?_
  assumption

theorem keeps_tpsOverload {s t : State} {a0 : _} {a1 : _} (h : Keeps s t) :
    Keeps s (tpsOverload a0 a1 t) := by
  unfold tpsOverload
  refine Keeps.ite ?_ ?_
  · refine keeps_State_setTps ?_
    assumption
  · assumption

theorem keeps_safFeedbackTimeout {s t : State} {a0 : _} {a1 : _} (h : Keeps s t) :
    Keeps s (safFeedbackTimeout a0 a1 t) := by
  unfold safFeedbackTimeout
  split
  · refine Keeps.ite ?_ ?_
    · refine keeps_State_safFault ?_
      assumption
    · assumption
  · assumption

theorem keeps_safClr {s t : State} {a0 : _} {a1 : _} (h : Keeps s t) :
    Keeps s (safClr a0 a1 t) := by
  unfold safClr
  refine Keeps.ite ?_ ?_
  · refine keeps_State_setReg ?_
    assumption
  · assumption

theorem keeps_execSafClr {s t : State} {a0 : _} {a1 : _} {u : State} (h : Keeps s t)
    (e : execSafClr a0 a1 t = .next u) : Keeps s u := by
  unfold execSafClr at e
  injection e with e
  subst e
  refine keeps_State_arrive (fun u1 hu1 => ?_) ?_
  · refine keeps_safClr ?_
    assumption
  · assumption

theorem keeps_runSafReset {s t : State} {a0 : _} (h : Keeps s t) :
    Keeps s (runSafReset a0 t).1 := by
  refine KeepsF.out ?_
  unfold runSafReset
  extract_lets +onlyGivenNames x1
  clear_value x1
  refine KeepsF.ite ?_ ?_
  · refine KeepsF.pair ?_
    assumption
  · refine KeepsF.ite ?_ ?_
    · refine KeepsF.pair ?_
      assumption
    · extract_lets +onlyGivenNames x2
      have hx2 : Keeps s x2.1 := ?_
      · clear_value x2
        extract_lets +onlyGivenNames x3
        have hx3 : Keeps s x3 := ?_
        · clear_value x3
          refine KeepsF.pair ?_
          assumption
        · unfold x3
          refine Keeps.ite ?_ ?_
          · assumption
          · refine keeps_State_raise ?_
            assumption
      · unfold x2
        refine keeps_State_safResetBlock ?_
        assumption

theorem keeps_safReset {s t : State} (h : Keeps s t) :
    Keeps s (safReset t) := by
  unfold safReset
  refine keeps_State_doShort (fun _ u1 hu1 => ?_) ?_
  · refine keeps_runSafReset ?_
    assumption
  · assumption

theorem keeps_execSafReset {s t : State} {u : State} (h : Keeps s t)
    (e : execSafReset t = .next u) : Keeps s u := by
  unfold execSafReset at e
  injection e with e
  subst e
  refine keeps_safReset ?_
  assumption

theorem keeps_tpsPulseEnd {s t : State} {a0 : _} {a1 : _} (h : Keeps s t) :
    Keeps s (tpsPulseEnd a0 a1 t) := by
  unfold tpsPulseEnd
  refine Keeps.ite ?_ ?_
  · refine keeps_State_setTps ?_
    assumption
  · assumption

theorem keeps_safDiscrepancy {s t : State} {a0 : _} (h : Keeps s t) :
    Keeps s (safDiscrepancy a0 t) := by
  unfold safDiscrepancy
  split
  · refine Keeps.ite ?_ ?_
    · refine keeps_State_safTrip ?_
      assumption
    · assumption
  · assumption

theorem keeps_safStatus {s t : State} (h : Keeps s t) :
    Keeps s (safStatus t) := by
  unfold safStatus
  refine keeps_State_doShort (fun _ u1 hu1 => ?_) ?_
  · refine keeps_runSafStatus ?_
    assumption
  · assumption

theorem keeps_execSafStatus {s t : State} {u : State} (h : Keeps s t)
    (e : execSafStatus t = .next u) : Keeps s u := by
  unfold execSafStatus at e
  injection e with e
  subst e
  refine keeps_safStatus ?_
  assumption

theorem keeps_vsSafLow {s t : State} {a0 : _} {a1 : _} {a2 : _} (h : Keeps s t) :
    Keeps s (vsSafLow a0 a1 a2 t) := by
  unfold vsSafLow
  refine Keeps.ite ?_ ?_
  · extract_lets +onlyGivenNames x1
    clear_value x1
    refine keeps_State_setIsl ?_
    assumption
  · assumption

theorem keeps_tpsPulseStart {s t : State} {a0 : _} (h : Keeps s t) :
    Keeps s (tpsPulseStart a0 t) := by
  unfold tpsPulseStart
  extract_lets +onlyGivenNames x1
  clear_value x1
  refine Keeps.ite ?_ ?_
  · refine keeps_State_setTps ?_
    assumption
  · assumption

theorem keeps_execTpsPulseStart {s t : State} {a0 : _} {u : State} (h : Keeps s t)
    (e : execTpsPulseStart a0 t = .next u) : Keeps s u := by
  unfold execTpsPulseStart at e
  injection e with e
  subst e
  refine keeps_tpsPulseStart ?_
  assumption

theorem keeps_execTpsPulseEnd {s t : State} {a0 : _} {a1 : _} {u : State} (h : Keeps s t)
    (e : execTpsPulseEnd a0 a1 t = .next u) : Keeps s u := by
  unfold execTpsPulseEnd at e
  injection e with e
  subst e
  refine keeps_tpsPulseEnd ?_
  assumption

theorem keeps_execSafFeedbackTimeout {s t : State} {a0 : _} {a1 : _} {u : State} (h : Keeps s t)
    (e : execSafFeedbackTimeout a0 a1 t = .next u) : Keeps s u := by
  unfold execSafFeedbackTimeout at e
  injection e with e
  subst e
  refine keeps_safFeedbackTimeout ?_
  assumption

theorem keeps_execTpsOverload {s t : State} {a0 : _} {a1 : _} {u : State} (h : Keeps s t)
    (e : execTpsOverload a0 a1 t = .next u) : Keeps s u := by
  unfold execTpsOverload at e
  injection e with e
  subst e
  refine keeps_tpsOverload ?_
  assumption

theorem keeps_execSafDiscrepancy {s t : State} {a0 : _} {u : State} (h : Keeps s t)
    (e : execSafDiscrepancy a0 t = .next u) : Keeps s u := by
  unfold execSafDiscrepancy at e
  injection e with e
  subst e
  refine keeps_safDiscrepancy ?_
  assumption

theorem keeps_execVsSafLow {s t : State} {a0 : _} {a1 : _} {a2 : _} {u : State} (h : Keeps s t)
    (e : execVsSafLow a0 a1 a2 t = .next u) : Keeps s u := by
  unfold execVsSafLow at e
  injection e with e
  subst e
  refine keeps_vsSafLow ?_
  assumption

end Machine
end Sys2Proof
end

