-- ==== Sys2Proof/Laws/Keeps07.lean ====
section
/-!
SUPPORT. Keeps of the operations of CycOps, Cycle, CarRing, RackBridge, Checks.
-/

set_option Elab.async false

namespace Sys2Proof
namespace Machine

theorem keeps_State_idleClose {s t : State} (h : Keeps s t) :
    Keeps s (State.idleClose t) := by
  unfold State.idleClose
  extract_lets +onlyGivenNames x1
  have hx1 : Keeps s x1 := ?_
  · clear_value x1
    refine Keeps.same (t := x1) ?_ rfl rfl rfl
    assumption
  · unfold x1
    refine keeps_State_wr ?_
    assumption

theorem keeps_State_inputOpen {s t : State} {a1 : _} (h : Keeps s t) :
    Keeps s (State.inputOpen t a1).2.2 := by
  refine KeepsS2.out ?_
  unfold State.inputOpen
  extract_lets +onlyGivenNames x1
  clear_value x1
  extract_lets +onlyGivenNames x2
  clear_value x2
  extract_lets +onlyGivenNames x3
  clear_value x3
  extract_lets +onlyGivenNames x4
  clear_value x4
  extract_lets +onlyGivenNames x5
  clear_value x5
  extract_lets +onlyGivenNames x6
  clear_value x6
  extract_lets +onlyGivenNames x7
  clear_value x7
  extract_lets +onlyGivenNames x8
  have hx8 : Keeps s x8.2 := ?_
  · clear_value x8
    refine KeepsS2.pair ?_
    assumption
  · unfold x8
    refine keeps_State_checkAll ?_
    assumption

theorem keeps_State_setReasons {s t : State} {a1 : _} {a2 : _} (h : Keeps s t) :
    Keeps s (State.setReasons t a1 a2) := by
  unfold State.setReasons
  refine Keeps.same (t := t) ?_ rfl rfl rfl
  assumption

theorem keeps_State_setTask {s t : State} {a1 : _} {a2 : _} (h : Keeps s t) :
    Keeps s (State.setTask t a1 a2) := by
  unfold State.setTask
  refine Keeps.same (t := t) ?_ rfl rfl rfl
  assumption

theorem keeps_State_dropSnap {s t : State} {a1 : _} (h : Keeps s t) :
    Keeps s (State.dropSnap t a1) := by
  unfold State.dropSnap
  refine Keeps.same (t := t) ?_ rfl rfl rfl
  assumption

theorem keeps_State_taskTo {s t : State} {a1 : _} {a2 : _} {a3 : _} (h : Keeps s t) :
    Keeps s (State.taskTo t a1 a2 a3) := by
  unfold State.taskTo
  refine keeps_State_setTask ?_
  refine keeps_State_wr ?_
  refine keeps_State_dropSnap ?_
  assumption

theorem keeps_State_taskStart {s t : State} {a1 : _} {a2 : _} (h : Keeps s t) :
    Keeps s (State.taskStart t a1 a2) := by
  unfold State.taskStart
  extract_lets +onlyGivenNames x1
  clear_value x1
  extract_lets +onlyGivenNames x2
  clear_value x2
  extract_lets +onlyGivenNames x3
  have hx3 : Keeps s x3 := ?_
  · clear_value x3
    refine keeps_State_raise ?_
    assumption
  · unfold x3
    refine keeps_State_taskTo ?_
    assumption

theorem keeps_State_errStart {s t : State} {a1 : _} {a2 : _} {a3 : _} (h : Keeps s t) :
    Keeps s (State.errStart t a1 a2 a3) := by
  unfold State.errStart
  extract_lets +onlyGivenNames x1
  clear_value x1
  extract_lets +onlyGivenNames x2
  have hx2 : Keeps s x2 := ?_
  · clear_value x2
    extract_lets +onlyGivenNames x3
    clear_value x3
    extract_lets +onlyGivenNames x4
    have hx4 : Keeps s x4 := ?_
    · clear_value x4
      extract_lets +onlyGivenNames x5
      have hx5 : Keeps s x5 := ?_
      · clear_value x5
        refine keeps_State_taskStart ?_
        assumption
      · unfold x5
        refine Keeps.ite ?_ ?_
        · refine keeps_State_idleClose ?_
          assumption
        · assumption
    · unfold x4
      refine keeps_State_setTask ?_
      assumption
  · unfold x2
    refine keeps_State_modAdd ?_
    refine keeps_State_setReasons ?_
    assumption

theorem keeps_State_addReason {s t : State} {a1 : _} {a2 : _} (h : Keeps s t) :
    Keeps s (State.addReason t a1 a2) := by
  unfold State.addReason
  extract_lets +onlyGivenNames x1
  have hx1 : Keeps s x1 := ?_
  · clear_value x1
    split
    · refine Keeps.ite ?_ ?_
      · refine keeps_State_errStart ?_
        assumption
      · assumption
    · assumption
  · unfold x1
    refine keeps_State_setReasons ?_
    assumption

theorem keeps_State_outRecord {s t : State} {a1 : _} {a2 : _} {a3 : _} {a4 : _} (h : Keeps s t) :
    Keeps s (State.outRecord t a1 a2 a3 a4).2 := by
  refine KeepsS.out ?_
  unfold State.outRecord
  extract_lets +onlyGivenNames x1
  have hx1 : Keeps s x1.2 := ?_
  · clear_value x1
    refine KeepsS.ite ?_ ?_
    · refine KeepsS.pair ?_
      assumption
    · extract_lets +onlyGivenNames x2
      clear_value x2
      extract_lets +onlyGivenNames x3
      have hx3 : Keeps s x3.2 := ?_
      · clear_value x3
        refine KeepsS.ite ?_ ?_
        · refine KeepsS.pair ?_
          assumption
        · refine KeepsS.pair ?_
          assumption
      · unfold x3
        refine keeps_State_readCheck ?_
        assumption
  · unfold x1
    refine keeps_State_readCheck ?_
    assumption

theorem keeps_State_applyIslands {s t : State} {a1 : _} {a2 : _} {a3 : _} (h : Keeps s t) :
    Keeps s (State.applyIslands t a1 a2 a3) := by
  unfold State.applyIslands
  extract_lets +onlyGivenNames x1
  clear_value x1
  refine Keeps.foldl ?_ (fun u2 y3 hu2 => ?_)
  · assumption
  · extract_lets +onlyGivenNames x4
    have hx4 : Keeps s x4.2 := ?_
    · clear_value x4
      refine keeps_State_islandOut ?_
      assumption
    · unfold x4
      refine keeps_State_outRecord ?_
      assumption

theorem keeps_State_forceInput {s t : State} {a1 : _} (h : Keeps s t) :
    Keeps s (State.forceInput t a1) := by
  unfold State.forceInput
  refine Keeps.foldl ?_ (fun u1 y2 hu1 => ?_)
  · assumption
  · extract_lets +onlyGivenNames x3
    clear_value x3
    refine keeps_State_busWrite ?_
    assumption

theorem keeps_State_imageDone {s t : State} {a1 : _} (h : Keeps s t) :
    Keeps s (State.imageDone t a1) := by
  unfold State.imageDone
  refine keeps_State_taskStart ?_
  refine keeps_State_forceInput ?_
  assumption

theorem keeps_State_inputBegin {s t : State} {a1 : _} (h : Keeps s t) :
    Keeps s (State.inputBegin t a1) := by
  unfold State.inputBegin
  extract_lets +onlyGivenNames x1
  have hx1 : Keeps s x1 := ?_
  · clear_value x1
    refine Keeps.ite ?_ ?_
    · assumption
    · refine keeps_State_imageDone ?_
      assumption
  · unfold x1
    refine keeps_State_busWrite ?_
    refine keeps_State_taskTo ?_
    assumption

theorem keeps_State_leaveCommit {s t : State} {a1 : _} {a2 : _} (h : Keeps s t) :
    Keeps s (State.leaveCommit t a1 a2) := by
  unfold State.leaveCommit
  extract_lets +onlyGivenNames x1
  have hx1 : Keeps s x1 := ?_
  · clear_value x1
    refine Keeps.ite ?_ ?_
    · extract_lets +onlyGivenNames x2
      clear_value x2
      extract_lets +onlyGivenNames x3
      have hx3 : Keeps s x3 := ?_
      · clear_value x3
        refine keeps_State_inputBegin ?_
        refine keeps_State_raise ?_
        assumption
      · unfold x3
        refine keeps_State_setTask ?_
        refine keeps_State_satAdd ?_
        assumption
    · assumption
  · unfold x1
    refine keeps_State_wr ?_
    assumption

theorem keeps_State_applyBuffer {s t : State} {a1 : _} {a2 : _} (h : Keeps s t) :
    Keeps s (State.applyBuffer t a1 a2) := by
  unfold State.applyBuffer
  extract_lets +onlyGivenNames x1
  have hx1 : Keeps s x1 := ?_
  · clear_value x1
    refine Keeps.ite ?_ ?_
    · split
      · refine keeps_State_leaveCommit ?_
        assumption
      · assumption
    · refine Keeps.same (t := x1) ?_ rfl rfl rfl
      assumption
  · unfold x1
    split
    · refine keeps_State_applyIslands ?_
      assumption
    · refine keeps_State_applyIslands ?_
      assumption

theorem keeps_State_applySafe {s t : State} {a1 : _} (h : Keeps s t) :
    Keeps s (State.applySafe t a1) := by
  unfold State.applySafe
  refine Keeps.foldl ?_ (fun u1 y2 hu1 => ?_)
  · assumption
  · refine Keeps.ite ?_ ?_
    · assumption
    · refine keeps_State_applyBuffer ?_
      assumption

theorem keeps_State_commitSet {s t : State} {a1 : _} {a2 : _} {a3 : _} (h : Keeps s t) :
    Keeps s (State.commitSet t a1 a2 a3) := by
  unfold State.commitSet
  extract_lets +onlyGivenNames x1
  clear_value x1
  extract_lets +onlyGivenNames x2
  clear_value x2
  extract_lets +onlyGivenNames x3
  have hx3 : Keeps s x3.2 := ?_
  · clear_value x3
    refine Keeps.ite ?_ ?_
    · assumption
    · extract_lets +onlyGivenNames x4
      clear_value x4
      refine keeps_State_publishValues ?_
      assumption
  · unfold x3
    refine keeps_State_readCheck ?_
    assumption

theorem keeps_State_retrainStep {s t : State} (h : Keeps s t) :
    Keeps s (State.retrainStep t) := by
  unfold State.retrainStep
  split
  · assumption
  · refine Keeps.ite ?_ ?_
    · assumption
    · refine Keeps.ite ?_ ?_
      · refine keeps_State_calDone ?_
        refine Keeps.same (t := t) ?_ rfl rfl rfl
        assumption
      · refine Keeps.same (t := t) ?_ rfl rfl rfl
        assumption

theorem keeps_State_offPulseStart {s t : State} {a1 : _} (h : Keeps s t) :
    Keeps s (State.offPulseStart t a1) := by
  unfold State.offPulseStart
  extract_lets +onlyGivenNames x1
  clear_value x1
  extract_lets +onlyGivenNames x2
  clear_value x2
  refine Keeps.ite ?_ ?_
  · split
    · assumption
    · refine Keeps.same (t := t) ?_ rfl rfl rfl
      assumption
  · assumption

theorem keeps_State_lbistFence {s t : State} (h : Keeps s t) :
    Keeps s (State.lbistFence t) := by
  unfold State.lbistFence
  split
  · assumption
  · refine Keeps.ite ?_ ?_
    · extract_lets +onlyGivenNames x1
      clear_value x1
      extract_lets +onlyGivenNames x2
      have hx2 : Keeps s x2 := ?_
      · clear_value x2
        refine keeps_State_wr ?_
        refine keeps_State_wr ?_
        refine keeps_State_raise ?_
        refine keeps_State_setLane ?_
        assumption
      · unfold x2
        refine Keeps.same (t := t) ?_ rfl rfl rfl
        assumption
    · assumption

theorem keeps_State_idleOpen {s t : State} {a1 : _} (h : Keeps s t) :
    Keeps s (State.idleOpen t a1) := by
  unfold State.idleOpen
  extract_lets +onlyGivenNames x1
  clear_value x1
  extract_lets +onlyGivenNames x2
  have hx2 : Keeps s x2 := ?_
  · clear_value x2
    extract_lets +onlyGivenNames x3
    clear_value x3
    extract_lets +onlyGivenNames x4
    have hx4 : Keeps s x4 := ?_
    · clear_value x4
      extract_lets +onlyGivenNames x5
      have hx5 : Keeps s x5 := ?_
      · clear_value x5
        refine keeps_State_retrainStep ?_
        refine keeps_State_offPulseStart ?_
        refine keeps_State_lbistFence ?_
        assumption
      · unfold x5
        refine Keeps.ite ?_ ?_
        · refine keeps_State_requestCord ?_
          assumption
        · assumption
    · unfold x4
      refine Keeps.same (t := x2) ?_ rfl rfl rfl
      assumption
  · unfold x2
    refine keeps_State_satAdd ?_
    refine keeps_State_wr ?_
    refine keeps_State_wr ?_
    assumption

theorem keeps_State_idleCheck {s t : State} (h : Keeps s t) :
    Keeps s (State.idleCheck t) := by
  unfold State.idleCheck
  refine Keeps.ite ?_ ?_
  · assumption
  · split
    · assumption
    · extract_lets +onlyGivenNames x1
      clear_value x1
      refine Keeps.ite ?_ ?_
      · refine keeps_State_idleOpen ?_
        assumption
      · assumption

theorem keeps_State_idleLimit {s t : State} (h : Keeps s t) :
    Keeps s (State.idleLimit t) := by
  unfold State.idleLimit
  refine Keeps.ite ?_ ?_
  · assumption
  · split
    · assumption
    · extract_lets +onlyGivenNames x1
      clear_value x1
      refine Keeps.ite ?_ ?_
      · refine keeps_State_idleClose ?_
        assumption
      · extract_lets +onlyGivenNames x2
        clear_value x2
        refine Keeps.same (t := t) ?_ rfl rfl rfl
        assumption

theorem keeps_State_cycOpen {s t : State} (h : Keeps s t) :
    Keeps s (State.cycOpen t) := by
  unfold State.cycOpen
  refine keeps_State_idleCheck ?_
  refine keeps_State_idleLimit ?_
  assumption

theorem keeps_State_inputFill {s t : State} {a1 : _} {a2 : _} {a3 : _} {a4 : _} (h : Keeps s t) :
    Keeps s (State.inputFill t a1 a2 a3 a4) := by
  unfold State.inputFill
  refine keeps_State_imageDone ?_
  refine keeps_State_busWrite ?_
  assumption

theorem keeps_State_forceCount {s t : State} (h : Keeps s t) :
    Keeps s (State.forceCount t) := by
  unfold State.forceCount
  extract_lets +onlyGivenNames x1
  clear_value x1
  refine keeps_State_forceNotice ?_
  refine keeps_State_wr ?_
  assumption

theorem keeps_State_forceClear {s t : State} {a1 : _} (h : Keeps s t) :
    Keeps s (State.forceClear t a1) := by
  unfold State.forceClear
  refine Keeps.ite ?_ ?_
  · assumption
  · extract_lets +onlyGivenNames x1
    have hx1 : Keeps s x1 := ?_
    · clear_value x1
      refine keeps_State_forceCount ?_
      assumption
    · unfold x1
      refine Keeps.foldl ?_ (fun u2 y3 hu2 => ?_)
      · assumption
      · refine Keeps.ite ?_ ?_
        · refine keeps_State_setReg ?_
          refine keeps_State_setReg ?_
          refine keeps_State_setReg ?_
          refine keeps_State_setReg ?_
          assumption
        · assumption

theorem keeps_State_markStale {s t : State} {a1 : _} (h : Keeps s t) :
    Keeps s (State.markStale t a1) := by
  unfold State.markStale
  refine Keeps.ite ?_ ?_
  · assumption
  · extract_lets +onlyGivenNames x1
    have hx1 : Keeps s x1 := ?_
    · clear_value x1
      refine keeps_State_watchEnd ?_
      refine keeps_State_queuePass ?_
      refine keeps_State_satAdd ?_
      assumption
    · unfold x1
      refine keeps_State_setDs ?_
      refine keeps_State_setDs ?_
      assumption

theorem keeps_State_stnJudge {s t : State} {a1 : _} (h : Keeps s t) :
    Keeps s (State.stnJudge t a1) := by
  unfold State.stnJudge
  refine Keeps.ite ?_ ?_
  · assumption
  · extract_lets +onlyGivenNames x1
    clear_value x1
    extract_lets +onlyGivenNames x2
    clear_value x2
    refine Keeps.ite ?_ ?_
    · extract_lets +onlyGivenNames x3
      have hx3 : Keeps s x3 := ?_
      · clear_value x3
        extract_lets +onlyGivenNames x4
        have hx4 : Keeps s x4 := ?_
        · clear_value x4
          refine keeps_State_addReason ?_
          refine keeps_State_raise ?_
          assumption
        · unfold x4
          refine Keeps.foldl ?_ (fun u5 y6 hu5 => ?_)
          · assumption
          · refine keeps_State_markStale ?_
            assumption
      · unfold x3
        refine keeps_State_wr ?_
        assumption
    · refine Keeps.ite ?_ ?_
      · extract_lets +onlyGivenNames x7
        have hx7 : Keeps s x7 := ?_
        · clear_value x7
          refine keeps_State_addReason ?_
          refine keeps_State_raise ?_
          assumption
        · unfold x7
          refine keeps_State_wr ?_
          assumption
      · assumption

theorem keeps_State_coldClear {s t : State} {a1 : _} (h : Keeps s t) :
    Keeps s (State.coldClear t a1) := by
  unfold State.coldClear
  extract_lets +onlyGivenNames x1
  have hx1 : Keeps s x1 := ?_
  · clear_value x1
    extract_lets +onlyGivenNames x2
    have hx2 : Keeps s x2 := ?_
    · clear_value x2
      refine Keeps.foldl ?_ (fun u3 y4 hu3 => ?_)
      · assumption
      · refine Keeps.ite ?_ ?_
        · refine keeps_State_wr ?_
          assumption
        · assumption
    · unfold x2
      refine keeps_State_forceClear ?_
      assumption
  · unfold x1
    refine Keeps.foldl ?_ (fun u5 y6 hu5 => ?_)
    · assumption
    · refine keeps_State_setReg ?_
      refine keeps_State_wr ?_
      refine keeps_State_wr ?_
      refine keeps_State_setReg ?_
      assumption

theorem keeps_State_ctlRun {s t : State} {a1 : _} (h : Keeps s t) :
    Keeps s (State.ctlRun t a1) := by
  unfold State.ctlRun
  refine keeps_State_wr ?_
  assumption

theorem keeps_State_stations {s t : State} (h : Keeps s t) :
    Keeps s (State.stations t) := by
  unfold State.stations
  refine Keeps.ite ?_ ?_
  · refine Keeps.foldl ?_ (fun u1 y2 hu1 => ?_)
    · assumption
    · refine keeps_State_stnJudge ?_
      assumption
  · assumption

theorem keeps_State_ctlStart {s t : State} {a1 : _} {a2 : _} (h : Keeps s t) :
    Keeps s (State.ctlStart t a1 a2) := by
  unfold State.ctlStart
  extract_lets +onlyGivenNames x1
  have hx1 : Keeps s x1 := ?_
  · clear_value x1
    extract_lets +onlyGivenNames x2
    clear_value x2
    extract_lets +onlyGivenNames x3
    have hx3 : Keeps s x3 := ?_
    · clear_value x3
      extract_lets +onlyGivenNames x4
      have hx4 : Keeps s x4 := ?_
      · clear_value x4
        extract_lets +onlyGivenNames x5
        have hx5 : Keeps s x5 := ?_
        · clear_value x5
          extract_lets +onlyGivenNames x6
          have hx6 : Keeps s x6 := ?_
          · clear_value x6
            split
            · extract_lets +onlyGivenNames x7
              have hx7 : Keeps s x7 := ?_
              · clear_value x7
                refine Keeps.ite ?_ ?_
                · refine keeps_State_stations ?_
                  assumption
                · assumption
              · unfold x7
                refine keeps_State_ctlRun ?_
                assumption
            · extract_lets +onlyGivenNames x8
              have hx8 : Keeps s x8 := ?_
              · clear_value x8
                extract_lets +onlyGivenNames x9
                have hx9 : Keeps s x9 := ?_
                · clear_value x9
                  refine Keeps.ite ?_ ?_
                  · refine keeps_State_stations ?_
                    assumption
                  · assumption
                · unfold x9
                  refine keeps_State_errStart ?_
                  assumption
              · unfold x8
                refine keeps_State_setReasons ?_
                assumption
          · unfold x6
            refine keeps_State_applySafe ?_
            assumption
        · unfold x5
          refine Keeps.ite ?_ ?_
          · refine keeps_State_coldClear ?_
            assumption
          · assumption
      · unfold x4
        refine Keeps.foldl ?_ (fun u10 y11 hu10 => ?_)
        · assumption
        · refine keeps_State_setTask ?_
          refine keeps_State_taskTo ?_
          assumption
    · unfold x3
      refine Keeps.same (t := x1) ?_ rfl rfl rfl
      assumption
  · unfold x1
    refine keeps_State_wr ?_
    assumption

theorem keeps_State_cycLock {s t : State} (h : Keeps s t) :
    Keeps s (State.cycLock t) := by
  unfold State.cycLock
  extract_lets +onlyGivenNames x1
  have hx1 : Keeps s x1 := ?_
  · clear_value x1
    extract_lets +onlyGivenNames x2
    clear_value x2
    extract_lets +onlyGivenNames x3
    have hx3 : Keeps s x3 := ?_
    · clear_value x3
      refine Keeps.foldl ?_ (fun u4 y5 hu4 => ?_)
      · assumption
      · extract_lets +onlyGivenNames x6
        clear_value x6
        refine Keeps.ite ?_ ?_
        · refine keeps_State_ctlStart ?_
          assumption
        · assumption
    · unfold x3
      refine Keeps.same (t := x1) ?_ rfl rfl rfl
      assumption
  · unfold x1
    refine Keeps.foldl ?_ (fun u7 y8 hu7 => ?_)
    · assumption
    · refine Keeps.ite ?_ ?_
      · refine keeps_State_taskTo ?_
        assumption
      · assumption

theorem keeps_State_commitUndone {s t : State} {a1 : _} (h : Keeps s t) :
    Keeps s (State.commitUndone t a1) := by
  unfold State.commitUndone
  extract_lets +onlyGivenNames x1
  clear_value x1
  refine Keeps.ite ?_ ?_
  · assumption
  · extract_lets +onlyGivenNames x2
    have hx2 : Keeps s x2 := ?_
    · clear_value x2
      refine Keeps.ite ?_ ?_
      · extract_lets +onlyGivenNames x3
        have hx3 : Keeps s x3 := ?_
        · clear_value x3
          refine Keeps.ite ?_ ?_
          · refine keeps_State_idleClose ?_
            assumption
          · assumption
        · unfold x3
          refine keeps_State_taskTo ?_
          assumption
      · assumption
    · unfold x2
      refine Keeps.ite ?_ ?_
      · assumption
      · refine keeps_State_wr ?_
        assumption

theorem keeps_State_discardInterval {s t : State} (h : Keeps s t) :
    Keeps s (State.discardInterval t) := by
  unfold State.discardInterval
  extract_lets +onlyGivenNames x1
  clear_value x1
  refine keeps_State_flueDiscard ?_
  refine Keeps.foldl ?_ (fun u2 y3 hu2 => ?_)
  · assumption
  · refine keeps_State_commitUndone ?_
    assumption

theorem keeps_State_cycleStart {s t : State} {a1 : _} (h : Keeps s t) :
    Keeps s (State.cycleStart t a1) := by
  unfold State.cycleStart
  refine Keeps.ite ?_ ?_
  · assumption
  · extract_lets +onlyGivenNames x1
    clear_value x1
    extract_lets +onlyGivenNames x2
    clear_value x2
    extract_lets +onlyGivenNames x3
    have hx3 : Keeps s x3 := ?_
    · clear_value x3
      extract_lets +onlyGivenNames x4
      have hx4 : Keeps s x4 := ?_
      · clear_value x4
        extract_lets +onlyGivenNames x5
        have hx5 : Keeps s x5 := ?_
        · clear_value x5
          extract_lets +onlyGivenNames x6
          have hx6 : Keeps s x6 := ?_
          · clear_value x6
            refine Keeps.ite ?_ ?_
            · refine keeps_State_taskTo ?_
              assumption
            · refine keeps_State_inputBegin ?_
              assumption
          · unfold x6
            split
            · assumption
            · refine keeps_State_pairSet ?_
              refine keeps_State_wr ?_
              assumption
        · unfold x5
          refine Keeps.ite ?_ ?_
          · refine keeps_State_idleClose ?_
            assumption
          · assumption
      · unfold x4
        refine keeps_State_setTask ?_
        assumption
    · unfold x3
      refine keeps_State_wr ?_
      refine keeps_State_modAdd ?_
      assumption

theorem keeps_State_inputSnap {s t : State} {a1 : _} (h : Keeps s t) :
    Keeps s (State.inputSnap t a1) := by
  unfold State.inputSnap
  extract_lets +onlyGivenNames x1
  have hx1 : Keeps s x1.2.2 := ?_
  · clear_value x1
    split
    · refine keeps_State_inputFill ?_
      assumption
    · refine keeps_State_snapKeep ?_
      assumption
  · unfold x1
    refine keeps_State_snapGo ?_
    assumption

theorem keeps_State_inputStart {s t : State} {a1 : _} (h : Keeps s t) :
    Keeps s (State.inputStart t a1) := by
  unfold State.inputStart
  refine Keeps.ite ?_ ?_
  · assumption
  · extract_lets +onlyGivenNames x1
    have hx1 : Keeps s x1.2.2 := ?_
    · clear_value x1
      refine Keeps.ite ?_ ?_
      · refine keeps_State_inputSnap ?_
        assumption
      · refine keeps_State_inputFill ?_
        assumption
    · unfold x1
      refine keeps_State_inputOpen ?_
      refine keeps_State_spend ?_
      assumption

theorem keeps_State_ctlStop {s t : State} {a1 : _} {a2 : _} (h : Keeps s t) :
    Keeps s (State.ctlStop t a1 a2) := by
  unfold State.ctlStop
  extract_lets +onlyGivenNames x1
  have hx1 : Keeps s x1 := ?_
  · clear_value x1
    extract_lets +onlyGivenNames x2
    have hx2 : Keeps s x2 := ?_
    · clear_value x2
      extract_lets +onlyGivenNames x3
      clear_value x3
      extract_lets +onlyGivenNames x4
      have hx4 : Keeps s x4 := ?_
      · clear_value x4
        refine keeps_State_raise ?_
        refine keeps_State_applySafe ?_
        assumption
      · unfold x4
        refine Keeps.same (t := x2) ?_ rfl rfl rfl
        assumption
    · unfold x2
      refine Keeps.foldl ?_ (fun u5 y6 hu5 => ?_)
      · assumption
      · refine keeps_State_taskTo ?_
        assumption
  · unfold x1
    refine keeps_State_wr ?_
    assumption

theorem keeps_State_cycKindle {s t : State} (h : Keeps s t) :
    Keeps s (State.cycKindle t) := by
  unfold State.cycKindle
  refine Keeps.foldl ?_ (fun u1 y2 hu1 => ?_)
  · assumption
  · refine Keeps.ite ?_ ?_
    · refine keeps_State_setTask ?_
      assumption
    · assumption

theorem keeps_State_cycFires {s t : State} {a1 : _} (h : Keeps s t) :
    Keeps s (State.cycFires t a1) := by
  unfold State.cycFires
  extract_lets +onlyGivenNames x1
  clear_value x1
  extract_lets +onlyGivenNames x2
  clear_value x2
  extract_lets +onlyGivenNames x3
  have hx3 : Keeps s x3 := ?_
  · clear_value x3
    extract_lets +onlyGivenNames x4
    clear_value x4
    refine Keeps.ite ?_ ?_
    · refine keeps_State_pairSet ?_
      assumption
    · refine Keeps.foldl ?_ (fun u5 y6 hu5 => ?_)
      · assumption
      · refine keeps_State_cycleStart ?_
        assumption
  · unfold x3
    refine Keeps.same (t := t) ?_ rfl rfl rfl
    assumption

theorem keeps_State_errReleased {s t : State} {a1 : _} {a2 : _} (h : Keeps s t) :
    Keeps s (State.errReleased t a1 a2) := by
  unfold State.errReleased
  extract_lets +onlyGivenNames x1
  clear_value x1
  refine Keeps.ite ?_ ?_
  · assumption
  · extract_lets +onlyGivenNames x2
    have hx2 : Keeps s x2 := ?_
    · clear_value x2
      extract_lets +onlyGivenNames x3
      have hx3 : Keeps s x3 := ?_
      · clear_value x3
        refine keeps_State_idleCheck ?_
        assumption
      · unfold x3
        refine Keeps.ite ?_ ?_
        · refine keeps_State_errStart ?_
          assumption
        · assumption
    · unfold x2
      refine Keeps.ite ?_ ?_
      · refine keeps_State_ctlRun ?_
        assumption
      · assumption

theorem keeps_State_idleAtSeal {s t : State} (h : Keeps s t) :
    Keeps s (State.idleAtSeal t) := by
  unfold State.idleAtSeal
  refine Keeps.ite ?_ ?_
  · refine keeps_State_idleLimit ?_
    refine keeps_State_idleOpen ?_
    assumption
  · assumption

theorem keeps_State_commitReleased {s t : State} {a1 : _} (h : Keeps s t) :
    Keeps s (State.commitReleased t a1) := by
  unfold State.commitReleased
  extract_lets +onlyGivenNames x1
  clear_value x1
  extract_lets +onlyGivenNames x2
  clear_value x2
  refine Keeps.ite ?_ ?_
  · refine keeps_State_satAdd ?_
    assumption
  · refine Keeps.ite ?_ ?_
    · refine keeps_State_errReleased ?_
      assumption
    · refine Keeps.ite ?_ ?_
      · refine keeps_State_leaveCommit ?_
        refine keeps_State_satAdd ?_
        assumption
      · refine keeps_State_applyBuffer ?_
        refine keeps_State_recEvent ?_
        assumption

theorem keeps_State_publishCommit {s t : State} {a1 : _} {a2 : _} (h : Keeps s t) :
    Keeps s (State.publishCommit t a1 a2) := by
  induction a2 generalizing t a1
  · unfold State.publishCommit
    assumption
  · rename_i ih
    unfold State.publishCommit
    split
    · extract_lets +onlyGivenNames x1
      clear_value x1
      extract_lets +onlyGivenNames x2
      have hx2 : Keeps s x2 := ?_
      · clear_value x2
        split
        · refine keeps_State_leaveCommit ?_
          assumption
        · assumption
      · unfold x2
        refine Keeps.same (t := t) ?_ rfl rfl rfl
        assumption
    · refine Keeps.ite ?_ ?_
      · assumption
      · extract_lets +onlyGivenNames x3
        clear_value x3
        extract_lets +onlyGivenNames x4
        clear_value x4
        extract_lets +onlyGivenNames x5
        have hx5 : Keeps s x5 := ?_
        · clear_value x5
          apply ih
          refine Keeps.same (t := x5) ?_ rfl rfl rfl
          assumption
        · unfold x5
          refine keeps_State_spend ?_
          refine keeps_State_commitSet ?_
          assumption

theorem keeps_State_commitEntered {s t : State} {a1 : _} (h : Keeps s t) :
    Keeps s (State.commitEntered t a1) := by
  unfold State.commitEntered
  extract_lets +onlyGivenNames x1
  clear_value x1
  refine Keeps.ite ?_ ?_
  · assumption
  · extract_lets +onlyGivenNames x2
    clear_value x2
    extract_lets +onlyGivenNames x3
    have hx3 : Keeps s x3 := ?_
    · clear_value x3
      refine Keeps.ite ?_ ?_
      · refine keeps_State_idleCheck ?_
        assumption
      · extract_lets +onlyGivenNames x4
        have hx4 : Keeps s x4 := ?_
        · clear_value x4
          extract_lets +onlyGivenNames x5
          have hx5 : Keeps s x5 := ?_
          · clear_value x5
            refine keeps_State_idleCheck ?_
            assumption
          · unfold x5
            refine Keeps.ite ?_ ?_
            · refine keeps_State_requestCord ?_
              assumption
            · assumption
        · unfold x4
          refine keeps_State_wr ?_
          assumption
    · unfold x3
      refine keeps_State_peak ?_
      refine keeps_State_wr ?_
      refine keeps_State_taskTo ?_
      assumption

theorem keeps_runCycRestart {s t : State} {a0 : _} (h : Keeps s t) :
    Keeps s (runCycRestart a0 t).1 := by
  refine KeepsF.out ?_
  unfold runCycRestart
  extract_lets +onlyGivenNames x1
  clear_value x1
  extract_lets +onlyGivenNames x2
  clear_value x2
  refine KeepsF.ite ?_ ?_
  · refine KeepsF.pair ?_
    assumption
  · refine KeepsF.ite ?_ ?_
    · refine KeepsF.pair ?_
      assumption
    · extract_lets +onlyGivenNames x3
      have hx3 : Keeps s x3 := ?_
      · clear_value x3
        refine KeepsF.pair ?_
        refine keeps_State_cycOpen ?_
        refine keeps_State_ctlStart ?_
        refine keeps_State_raise ?_
        assumption
      · unfold x3
        refine Keeps.foldl ?_ (fun u4 y5 hu4 => ?_)
        · assumption
        · refine keeps_State_ownerReset ?_
          assumption

theorem keeps_cycRestart {s t : State} (h : Keeps s t) :
    Keeps s (cycRestart t) := by
  unfold cycRestart
  refine keeps_State_doShort (fun _ u1 hu1 => ?_) ?_
  · refine keeps_runCycRestart ?_
    assumption
  · assumption

theorem keeps_runCycStatus {s t : State} {a0 : _} (h : Keeps s t) :
    Keeps s (runCycStatus a0 t).1 := by
  refine KeepsF.out ?_
  unfold runCycStatus
  extract_lets +onlyGivenNames x1
  clear_value x1
  extract_lets +onlyGivenNames x2
  clear_value x2
  refine KeepsF.ite ?_ ?_
  · refine KeepsF.pair ?_
    assumption
  · refine KeepsF.ite ?_ ?_
    · refine KeepsF.pair ?_
      assumption
    · refine KeepsF.ite ?_ ?_
      · refine KeepsF.pair ?_
        assumption
      · refine KeepsF.pair ?_
        refine keeps_State_outBuf ?_
        assumption

theorem keeps_cycStatus {s t : State} (h : Keeps s t) :
    Keeps s (cycStatus t) := by
  unfold cycStatus
  refine keeps_State_doShort (fun _ u1 hu1 => ?_) ?_
  · refine keeps_runCycStatus ?_
    assumption
  · assumption

theorem keeps_State_overrunStart {s t : State} {a1 : _} (h : Keeps s t) :
    Keeps s (State.overrunStart t a1) := by
  unfold State.overrunStart
  extract_lets +onlyGivenNames x1
  have hx1 : Keeps s x1 := ?_
  · clear_value x1
    split
    · refine Keeps.ite ?_ ?_
      · assumption
      · refine keeps_State_errStart ?_
        refine Keeps.same (t := x1) ?_ rfl rfl rfl
        assumption
    · assumption
  · unfold x1
    refine keeps_State_setReasons ?_
    assumption

theorem keeps_runCycStop {s t : State} {a0 : _} (h : Keeps s t) :
    Keeps s (runCycStop a0 t).1 := by
  refine KeepsF.out ?_
  unfold runCycStop
  extract_lets +onlyGivenNames x1
  clear_value x1
  refine KeepsF.ite ?_ ?_
  · refine KeepsF.pair ?_
    assumption
  · refine KeepsF.ite ?_ ?_
    · refine KeepsF.pair ?_
      assumption
    · refine KeepsF.ite ?_ ?_
      · refine KeepsF.pair ?_
        refine keeps_State_idleCheck ?_
        refine keeps_State_ctlStop ?_
        assumption
      · refine KeepsF.pair ?_
        assumption

theorem keeps_idleWindowEnd {s t : State} (h : Keeps s t) :
    Keeps s (idleWindowEnd t) := by
  unfold idleWindowEnd
  split
  · refine Keeps.ite ?_ ?_
    · refine keeps_State_idleClose ?_
      assumption
    · assumption
  · assumption

theorem keeps_execIdleWindowEnd {s t : State} {u : State} (h : Keeps s t)
    (e : execIdleWindowEnd t = .next u) : Keeps s u := by
  unfold execIdleWindowEnd at e
  injection e with e
  subst e
  refine keeps_idleWindowEnd ?_
  assumption

theorem keeps_runCycForce {s t : State} {a0 : _} (h : Keeps s t) :
    Keeps s (runCycForce a0 t).1 := by
  refine KeepsF.out ?_
  unfold runCycForce
  extract_lets +onlyGivenNames x1
  clear_value x1
  extract_lets +onlyGivenNames x2
  clear_value x2
  extract_lets +onlyGivenNames x3
  clear_value x3
  extract_lets +onlyGivenNames x4
  clear_value x4
  extract_lets +onlyGivenNames x5
  clear_value x5
  extract_lets +onlyGivenNames x6
  clear_value x6
  refine KeepsF.ite ?_ ?_
  · refine KeepsF.pair ?_
    assumption
  · refine KeepsF.ite ?_ ?_
    · refine KeepsF.pair ?_
      assumption
    · refine KeepsF.ite ?_ ?_
      · refine KeepsF.pair ?_
        assumption
      · split
        · refine KeepsF.pair ?_
          assumption
        · extract_lets +onlyGivenNames x7
          have hx7 : Keeps s x7 := ?_
          · clear_value x7
            refine KeepsF.pair ?_
            refine keeps_State_forceCount ?_
            assumption
          · unfold x7
            refine keeps_State_setReg ?_
            refine keeps_State_setReg ?_
            refine keeps_State_setReg ?_
            refine keeps_State_setReg ?_
            assumption
        · extract_lets +onlyGivenNames x8
          have hx8 : Keeps s x8 := ?_
          · clear_value x8
            refine KeepsF.pair ?_
            refine keeps_State_setReg ?_
            assumption
          · unfold x8
            refine keeps_State_setReg ?_
            refine keeps_State_wr ?_
            assumption
        · extract_lets +onlyGivenNames x9
          clear_value x9
          split
          · refine KeepsF.pair ?_
            assumption
          · refine KeepsF.ite ?_ ?_
            · refine KeepsF.pair ?_
              assumption
            · extract_lets +onlyGivenNames x10
              have hx10 : Keeps s x10 := ?_
              · clear_value x10
                extract_lets +onlyGivenNames x11
                have hx11 : Keeps s x11 := ?_
                · clear_value x11
                  refine KeepsF.pair ?_
                  refine keeps_State_forceCount ?_
                  refine keeps_State_setReg ?_
                  assumption
                · unfold x11
                  refine keeps_State_setReg ?_
                  refine keeps_State_setReg ?_
                  assumption
              · unfold x10
                refine keeps_State_setReg ?_
                assumption

theorem keeps_execCycRestart {s t : State} {u : State} (h : Keeps s t)
    (e : execCycRestart t = .next u) : Keeps s u := by
  unfold execCycRestart at e
  injection e with e
  subst e
  refine keeps_cycRestart ?_
  assumption

theorem keeps_cycClr {s t : State} {a0 : _} {a1 : _} (h : Keeps s t) :
    Keeps s (cycClr a0 a1 t) := by
  unfold cycClr
  refine Keeps.ite ?_ ?_
  · refine Keeps.foldl ?_ (fun u1 y2 hu1 => ?_)
    · refine keeps_State_setReg ?_
      refine keeps_State_setReg ?_
      assumption
    · refine keeps_State_wr ?_
      assumption
  · assumption

theorem keeps_cycStop {s t : State} (h : Keeps s t) :
    Keeps s (cycStop t) := by
  unfold cycStop
  refine keeps_State_doShort (fun _ u1 hu1 => ?_) ?_
  · refine keeps_runCycStop ?_
    assumption
  · assumption

theorem keeps_execCycStop {s t : State} {u : State} (h : Keeps s t)
    (e : execCycStop t = .next u) : Keeps s u := by
  unfold execCycStop at e
  injection e with e
  subst e
  refine keeps_cycStop ?_
  assumption

theorem keeps_cycForce {s t : State} (h : Keeps s t) :
    Keeps s (cycForce t) := by
  unfold cycForce
  refine keeps_State_doShort (fun _ u1 hu1 => ?_) ?_
  · refine keeps_runCycForce ?_
    assumption
  · assumption

theorem keeps_execCycForce {s t : State} {u : State} (h : Keeps s t)
    (e : execCycForce t = .next u) : Keeps s u := by
  unfold execCycForce at e
  injection e with e
  subst e
  refine keeps_cycForce ?_
  assumption

theorem keeps_cycOverrun {s t : State} {a0 : _} (h : Keeps s t) :
    Keeps s (cycOverrun a0 t) := by
  unfold cycOverrun
  refine Keeps.ite ?_ ?_
  · assumption
  · extract_lets +onlyGivenNames x1
    clear_value x1
    extract_lets +onlyGivenNames x2
    clear_value x2
    extract_lets +onlyGivenNames x3
    have hx3 : Keeps s x3 := ?_
    · clear_value x3
      extract_lets +onlyGivenNames x4
      have hx4 : Keeps s x4 := ?_
      · clear_value x4
        extract_lets +onlyGivenNames x5
        have hx5 : Keeps s x5 := ?_
        · clear_value x5
          refine Keeps.ite ?_ ?_
          · refine keeps_State_enterSafe ?_
            assumption
          · extract_lets +onlyGivenNames x6
            have hx6 : Keeps s x6 := ?_
            · clear_value x6
              refine keeps_State_idleCheck ?_
              refine keeps_State_overrunStart ?_
              assumption
            · unfold x6
              refine Keeps.ite ?_ ?_
              · assumption
              · refine keeps_State_ctlStop ?_
                assumption
        · unfold x5
          refine keeps_State_raise ?_
          assumption
      · unfold x4
        refine Keeps.ite ?_ ?_
        · assumption
        · refine keeps_State_wr ?_
          refine keeps_State_wr ?_
          refine keeps_State_wr ?_
          assumption
    · unfold x3
      refine keeps_State_satAdd ?_
      refine keeps_State_taskTo ?_
      assumption

theorem keeps_execCycOverrun {s t : State} {a0 : _} {u : State} (h : Keeps s t)
    (e : execCycOverrun a0 t = .next u) : Keeps s u := by
  unfold execCycOverrun at e
  injection e with e
  subst e
  refine keeps_cycOverrun ?_
  assumption

theorem keeps_execCycStatus {s t : State} {u : State} (h : Keeps s t)
    (e : execCycStatus t = .next u) : Keeps s u := by
  unfold execCycStatus at e
  injection e with e
  subst e
  refine keeps_cycStatus ?_
  assumption

theorem keeps_execCycClr {s t : State} {a0 : _} {a1 : _} {u : State} (h : Keeps s t)
    (e : execCycClr a0 a1 t = .next u) : Keeps s u := by
  unfold execCycClr at e
  injection e with e
  subst e
  refine keeps_State_arrive (fun u1 hu1 => ?_) ?_
  · refine keeps_cycClr ?_
    assumption
  · assumption

theorem keeps_crAcycForward {s t : State} {a0 : _} {a1 : _} (h : Keeps s t) :
    Keeps s (crAcycForward a0 a1 t) := by
  unfold crAcycForward
  refine keeps_State_crAcycForward ?_
  assumption

theorem keeps_execCrAcycForward {s t : State} {a0 : _} {a1 : _} {u : State} (h : Keeps s t)
    (e : execCrAcycForward a0 a1 t = .next u) : Keeps s u := by
  unfold execCrAcycForward at e
  injection e with e
  subst e
  refine keeps_crAcycForward ?_
  assumption

theorem keeps_crMasterRx {s t : State} {a0 : _} {a1 : _} {a2 : _} {a3 : _} (h : Keeps s t) :
    Keeps s (crMasterRx a0 a1 a2 a3 t) := by
  unfold crMasterRx
  refine keeps_State_stations ?_
  refine keeps_State_crMasterRx ?_
  assumption

theorem keeps_execCrMasterRx {s t : State} {a0 : _} {a1 : _} {a2 : _} {a3 : _} {u : State} (h : Keeps s t)
    (e : execCrMasterRx a0 a1 a2 a3 t = .next u) : Keeps s u := by
  unfold execCrMasterRx at e
  injection e with e
  subst e
  refine keeps_crMasterRx ?_
  assumption

theorem keeps_crMemberCycleTimeout {s t : State} {a0 : _} (h : Keeps s t) :
    Keeps s (crMemberCycleTimeout a0 t) := by
  unfold crMemberCycleTimeout
  refine keeps_State_stations ?_
  refine keeps_State_crMemberTimeout ?_
  assumption

theorem keeps_crTxExpiry {s t : State} {a0 : _} (h : Keeps s t) :
    Keeps s (crTxExpiry a0 t) := by
  unfold crTxExpiry
  refine keeps_State_crTxExpiry ?_
  assumption

theorem keeps_crRxPost {s t : State} {a0 : _} (h : Keeps s t) :
    Keeps s (crRxPost a0 t) := by
  unfold crRxPost
  refine keeps_State_doLong (fun _ u1 hu1 => ?_) ?_
  · assumption
  · assumption

theorem keeps_crTxStart {s t : State} {a0 : _} (h : Keeps s t) :
    Keeps s (crTxStart a0 t) := by
  unfold crTxStart
  refine keeps_State_crTxStart ?_
  assumption

theorem keeps_execCrTxStart {s t : State} {a0 : _} {u : State} (h : Keeps s t)
    (e : execCrTxStart a0 t = .next u) : Keeps s u := by
  unfold execCrTxStart at e
  injection e with e
  subst e
  refine keeps_crTxStart ?_
  assumption

theorem keeps_crStatus {s t : State} {a0 : _} (h : Keeps s t) :
    Keeps s (crStatus a0 t) := by
  unfold crStatus
  refine keeps_State_doShort (fun _ u1 hu1 => ?_) ?_
  · refine keeps_runCrStatus ?_
    assumption
  · assumption

theorem keeps_execCrStatus {s t : State} {a0 : _} {u : State} (h : Keeps s t)
    (e : execCrStatus a0 t = .next u) : Keeps s u := by
  unfold execCrStatus at e
  injection e with e
  subst e
  refine keeps_crStatus ?_
  assumption

theorem keeps_crClr {s t : State} {a0 : _} {a1 : _} {a2 : _} (h : Keeps s t) :
    Keeps s (crClr a0 a1 a2 t) := by
  unfold crClr
  refine keeps_State_crClear ?_
  assumption

theorem keeps_crTx {s t : State} {a0 : _} (h : Keeps s t) :
    Keeps s (crTx a0 t) := by
  unfold crTx
  refine keeps_State_crTx ?_
  assumption

theorem keeps_execCrTx {s t : State} {a0 : _} {u : State} (h : Keeps s t)
    (e : execCrTx a0 t = .next u) : Keeps s u := by
  unfold execCrTx at e
  injection e with e
  subst e
  refine keeps_crTx ?_
  assumption

theorem keeps_crReturnTimeout {s t : State} {a0 : _} (h : Keeps s t) :
    Keeps s (crReturnTimeout a0 t) := by
  unfold crReturnTimeout
  refine keeps_State_stations ?_
  refine keeps_State_crReturnTimeout ?_
  assumption

theorem keeps_execCrReturnTimeout {s t : State} {a0 : _} {u : State} (h : Keeps s t)
    (e : execCrReturnTimeout a0 t = .next u) : Keeps s u := by
  unfold execCrReturnTimeout at e
  injection e with e
  subst e
  refine keeps_crReturnTimeout ?_
  assumption

theorem keeps_crMemberRx {s t : State} {a0 : _} {a1 : _} {a2 : _} {a3 : _} (h : Keeps s t) :
    Keeps s (crMemberRx a0 a1 a2 a3 t) := by
  unfold crMemberRx
  refine keeps_State_stations ?_
  refine keeps_State_crMemberRx ?_
  assumption

theorem keeps_execCrMemberRx {s t : State} {a0 : _} {a1 : _} {a2 : _} {a3 : _} {u : State} (h : Keeps s t)
    (e : execCrMemberRx a0 a1 a2 a3 t = .next u) : Keeps s u := by
  unfold execCrMemberRx at e
  injection e with e
  subst e
  refine keeps_crMemberRx ?_
  assumption

theorem keeps_txFrameEnd {s t : State} {a0 : _} (h : Keeps s t) :
    Keeps s (txFrameEnd a0 t) := by
  unfold txFrameEnd
  refine Keeps.ite ?_ ?_
  · refine keeps_State_crTxEnd ?_
    assumption
  · refine keeps_State_cbFrameEnd ?_
    assumption

theorem keeps_execTxFrameEnd {s t : State} {a0 : _} {u : State} (h : Keeps s t)
    (e : execTxFrameEnd a0 t = .next u) : Keeps s u := by
  unfold execTxFrameEnd at e
  injection e with e
  subst e
  refine keeps_txFrameEnd ?_
  assumption

theorem keeps_execCrClr {s t : State} {a0 : _} {a1 : _} {a2 : _} {u : State} (h : Keeps s t)
    (e : execCrClr a0 a1 a2 t = .next u) : Keeps s u := by
  unfold execCrClr at e
  injection e with e
  subst e
  refine keeps_State_arrive (fun u1 hu1 => ?_) ?_
  · refine keeps_crClr ?_
    assumption
  · assumption

theorem keeps_crAcycRx {s t : State} {a0 : _} {a1 : _} {a2 : _} {a3 : _} (h : Keeps s t) :
    Keeps s (crAcycRx a0 a1 a2 a3 t) := by
  unfold crAcycRx
  refine keeps_State_crAcycRx ?_
  assumption

theorem keeps_execCrAcycRx {s t : State} {a0 : _} {a1 : _} {a2 : _} {a3 : _} {u : State} (h : Keeps s t)
    (e : execCrAcycRx a0 a1 a2 a3 t = .next u) : Keeps s u := by
  unfold execCrAcycRx at e
  injection e with e
  subst e
  refine keeps_crAcycRx ?_
  assumption

theorem keeps_crLinkChange {s t : State} {a0 : _} {a1 : _} (h : Keeps s t) :
    Keeps s (crLinkChange a0 a1 t) := by
  unfold crLinkChange
  refine keeps_State_crLinkChange ?_
  assumption

theorem keeps_execCrRxPost {s t : State} {a0 : _} {u : State} (h : Keeps s t)
    (e : execCrRxPost a0 t = .next u) : Keeps s u := by
  unfold execCrRxPost at e
  injection e with e
  subst e
  refine keeps_crRxPost ?_
  assumption

theorem keeps_execCrMemberCycleTimeout {s t : State} {a0 : _} {u : State} (h : Keeps s t)
    (e : execCrMemberCycleTimeout a0 t = .next u) : Keeps s u := by
  unfold execCrMemberCycleTimeout at e
  injection e with e
  subst e
  refine keeps_crMemberCycleTimeout ?_
  assumption

theorem keeps_execCrTxExpiry {s t : State} {a0 : _} {u : State} (h : Keeps s t)
    (e : execCrTxExpiry a0 t = .next u) : Keeps s u := by
  unfold execCrTxExpiry at e
  injection e with e
  subst e
  refine keeps_crTxExpiry ?_
  assumption

theorem keeps_execCrLinkChange {s t : State} {a0 : _} {a1 : _} {u : State} (h : Keeps s t)
    (e : execCrLinkChange a0 a1 t = .next u) : Keeps s u := by
  unfold execCrLinkChange at e
  injection e with e
  subst e
  refine keeps_crLinkChange ?_
  assumption

theorem keeps_rbRstWaitEnd {s t : State} (h : Keeps s t) :
    Keeps s (rbRstWaitEnd t) := by
  unfold rbRstWaitEnd
  split
  · refine Keeps.ite ?_ ?_
    · refine Keeps.same (t := t) ?_ rfl rfl rfl
      assumption
    · assumption
  · assumption

theorem keeps_execRbRstWaitEnd {s t : State} {u : State} (h : Keeps s t)
    (e : execRbRstWaitEnd t = .next u) : Keeps s u := by
  unfold execRbRstWaitEnd at e
  injection e with e
  subst e
  refine keeps_rbRstWaitEnd ?_
  assumption

theorem keeps_rbCycleResponse {s t : State} {a0 : _} {a1 : _} (h : Keeps s t) :
    Keeps s (rbCycleResponse a0 a1 t) := by
  unfold rbCycleResponse
  split
  · refine Keeps.ite ?_ ?_
    · refine keeps_State_setCycle ?_
      assumption
    · assumption
  · assumption

theorem keeps_execRbCycleResponse {s t : State} {a0 : _} {a1 : _} {u : State} (h : Keeps s t)
    (e : execRbCycleResponse a0 a1 t = .next u) : Keeps s u := by
  unfold execRbCycleResponse at e
  injection e with e
  subst e
  refine keeps_rbCycleResponse ?_
  assumption

theorem keeps_rbCycleStart {s t : State} {a0 : _} (h : Keeps s t) :
    Keeps s (rbCycleStart a0 t) := by
  unfold rbCycleStart
  split
  · refine Keeps.ite ?_ ?_
    · refine keeps_State_setCycle ?_
      assumption
    · assumption
  · refine Keeps.ite ?_ ?_
    · split
      · refine keeps_State_rackStart ?_
        assumption
      · assumption
    · assumption

theorem keeps_execRbCycleStart {s t : State} {a0 : _} {u : State} (h : Keeps s t)
    (e : execRbCycleStart a0 t = .next u) : Keeps s u := by
  unfold execRbCycleStart at e
  injection e with e
  subst e
  refine keeps_rbCycleStart ?_
  assumption

theorem keeps_rbCycleEnd {s t : State} (h : Keeps s t) :
    Keeps s (rbCycleEnd t) := by
  unfold rbCycleEnd
  split
  · extract_lets +onlyGivenNames x1
    clear_value x1
    split
    · refine Keeps.ite ?_ ?_
      · refine keeps_State_rackEnd ?_
        assumption
      · assumption
    · refine Keeps.ite ?_ ?_
      · refine keeps_State_rackEnd ?_
        assumption
      · assumption
    · assumption
  · assumption

theorem keeps_execRbCycleEnd {s t : State} {u : State} (h : Keeps s t)
    (e : execRbCycleEnd t = .next u) : Keeps s u := by
  unfold execRbCycleEnd at e
  injection e with e
  subst e
  refine keeps_rbCycleEnd ?_
  assumption

theorem keeps_rbBlockWrite {s t : State} (h : Keeps s t) :
    Keeps s (rbBlockWrite t) := by
  unfold rbBlockWrite
  refine keeps_State_doLong (fun _ u1 hu1 => ?_) ?_
  · assumption
  · assumption

theorem keeps_execRbBlockWrite {s t : State} {u : State} (h : Keeps s t)
    (e : execRbBlockWrite t = .next u) : Keeps s u := by
  unfold execRbBlockWrite at e
  injection e with e
  subst e
  refine keeps_rbBlockWrite ?_
  assumption

theorem keeps_rbCycleTimeout {s t : State} (h : Keeps s t) :
    Keeps s (rbCycleTimeout t) := by
  unfold rbCycleTimeout
  split
  · extract_lets +onlyGivenNames x1
    clear_value x1
    split
    · refine Keeps.ite ?_ ?_
      · refine keeps_State_setCycle ?_
        assumption
      · assumption
    · refine Keeps.ite ?_ ?_
      · refine keeps_State_rackPulse ?_
        assumption
      · assumption
    · refine Keeps.ite ?_ ?_
      · refine keeps_State_rackPulse ?_
        assumption
      · assumption
    · refine Keeps.ite ?_ ?_
      · refine keeps_State_rackPulse ?_
        assumption
      · assumption
    · assumption
  · assumption

theorem keeps_rbBusResetEnd {s t : State} (h : Keeps s t) :
    Keeps s (rbBusResetEnd t) := by
  unfold rbBusResetEnd
  split
  · split
    · refine Keeps.ite ?_ ?_
      · refine keeps_State_rackEnd ?_
        refine keeps_State_wr ?_
        assumption
      · assumption
    · assumption
  · assumption

theorem keeps_execRbCycleTimeout {s t : State} {u : State} (h : Keeps s t)
    (e : execRbCycleTimeout t = .next u) : Keeps s u := by
  unfold execRbCycleTimeout at e
  injection e with e
  subst e
  refine keeps_rbCycleTimeout ?_
  assumption

theorem keeps_rbBlockRead {s t : State} (h : Keeps s t) :
    Keeps s (rbBlockRead t) := by
  unfold rbBlockRead
  refine keeps_State_doLong (fun _ u1 hu1 => ?_) ?_
  · assumption
  · assumption

theorem keeps_execRbBlockRead {s t : State} {u : State} (h : Keeps s t)
    (e : execRbBlockRead t = .next u) : Keeps s u := by
  unfold execRbBlockRead at e
  injection e with e
  subst e
  refine keeps_rbBlockRead ?_
  assumption

theorem keeps_execRbBusResetEnd {s t : State} {u : State} (h : Keeps s t)
    (e : execRbBusResetEnd t = .next u) : Keeps s u := by
  unfold execRbBusResetEnd at e
  injection e with e
  subst e
  refine keeps_rbBusResetEnd ?_
  assumption

theorem keeps_rbClr {s t : State} {a0 : _} {a1 : _} (h : Keeps s t) :
    Keeps s (rbClr a0 a1 t) := by
  unfold rbClr
  refine Keeps.ite ?_ ?_
  · refine keeps_State_setReg ?_
    refine keeps_State_setReg ?_
    refine keeps_State_setReg ?_
    refine keeps_State_setReg ?_
    assumption
  · assumption

theorem keeps_execRbClr {s t : State} {a0 : _} {a1 : _} {u : State} (h : Keeps s t)
    (e : execRbClr a0 a1 t = .next u) : Keeps s u := by
  unfold execRbClr at e
  injection e with e
  subst e
  refine keeps_State_arrive (fun u1 hu1 => ?_) ?_
  · refine keeps_rbClr ?_
    assumption
  · assumption

theorem keeps_State_judgeRows {s t : State} {a1 : _} {a2 : Nat → Nat → State → State}
    (hf : ∀ k i u, Keeps s u → Keeps s (a2 k i u)) (h : Keeps s t) : Keeps s (State.judgeRows t a1 a2).2 := by
  unfold State.judgeRows
  split
  · exact h
  · exact hf _ _ _ h

theorem keeps_State_runChecks {s t : State} {l : List (State → Bool × State)}
    (hf : ∀ f ∈ l, ∀ u, Keeps s u → Keeps s (f u).2) (h : Keeps s t) : Keeps s (State.runChecks t l).2 := by
  induction l generalizing t with
  | nil => exact h
  | cons f l ih =>
    unfold State.runChecks
    have h1 := hf f (List.mem_cons_self ..) t h
    extract_lets r
    split
    · exact ih (fun g hg => hf g (List.mem_cons_of_mem _ hg)) h1
    · exact h1

end Machine
end Sys2Proof
end

