-- ==== Sys2Proof/Laws/Keeps08.lean ====
section
/-!
SUPPORT. Keeps of the operations of Checks, Plic, HartOps, DebugMode, Locking, PairOps, PairLink, Recorder, Mp.
-/

set_option Elab.async false

namespace Sys2Proof
namespace Machine

theorem keeps_State_coreCheck {s t : State} (h : Keeps s t) :
    Keeps s (State.coreCheck t).2 := by
  refine KeepsS.out ?_
  unfold State.coreCheck
  refine KeepsS.ite ?_ ?_
  · refine KeepsS.pair ?_
    refine keeps_State_wr ?_
    assumption
  · refine KeepsS.ite ?_ ?_
    · refine KeepsS.pair ?_
      refine keeps_State_raise ?_
      refine keeps_State_wr ?_
      assumption
    · refine KeepsS.ite ?_ ?_
      · refine KeepsS.pair ?_
        refine keeps_State_wr ?_
        assumption
      · refine KeepsS.ite ?_ ?_
        · refine KeepsS.pair ?_
          refine keeps_State_wr ?_
          assumption
        · refine KeepsS.pair ?_
          assumption

theorem keeps_blockChecks {s : State} {b : Bool} (f : State → Bool × State) (hf : f ∈ blockChecks b) (u : State)
    (h : Keeps s u) : Keeps s (f u).2 := by
  unfold blockChecks at hf
  simp only [List.mem_cons, List.not_mem_nil, or_false] at hf
  rcases hf with rfl | rfl | rfl | rfl | rfl | rfl | rfl | rfl | rfl | rfl | rfl | rfl | rfl | rfl | rfl
  · exact keeps_State_coreCheck h
  · exact keeps_State_ringSetupCheck h
  · exact keeps_State_partSetupCheck h
  · exact keeps_State_tbSetupCheck h
  · exact keeps_State_crSetupCheck h
  · exact keeps_State_cbSetupCheck h
  · exact keeps_State_judgeRows (fun _ _ _ hv => keeps_State_wr (keeps_State_wr (keeps_State_wr hv))) h
  · exact keeps_State_judgeRows (fun _ _ _ hv => keeps_State_raise (keeps_State_wr (keeps_State_wr (keeps_State_wr hv)))) h
  · exact keeps_State_rbSetupCheck h
  · exact keeps_State_judgeRows (fun _ _ _ hv => keeps_State_raise (keeps_State_wr (keeps_State_wr (keeps_State_wr hv)))) h
  · exact keeps_State_judgeRows (fun _ _ _ hv => keeps_State_raise (keeps_State_wr (keeps_State_wr (keeps_State_wr
      (keeps_State_wr hv))))) h
  · exact keeps_State_judgeRows (fun _ _ _ hv => keeps_State_raise (keeps_State_wr (keeps_State_wr (keeps_State_wr hv)))) h
  · dsimp only
    split
    · exact h
    · exact keeps_State_judgeRows (fun _ _ _ hv => keeps_State_raise (keeps_State_wr (keeps_State_wr hv))) h
  · dsimp only
    split
    · exact h
    · exact keeps_State_judgeRows (fun _ _ _ hv => keeps_State_raise (keeps_State_wr (keeps_State_wr (keeps_State_wr hv)))) h
  · exact keeps_State_judgeRows (fun _ _ _ hv => keeps_State_raise (keeps_State_wr (keeps_State_wr hv))) h

theorem keeps_State_lockErr {s t : State} {a1 : _} (h : Keeps s t) : Keeps s (State.lockErr t a1).2 := by
  unfold State.lockErr
  split
  · exact h
  split
  · exact h
  split
  · exact h
  · exact keeps_State_runChecks keeps_blockChecks h

theorem keeps_State_applySrc {s t : State} {a1 : _} {a2 : _} (h : Keeps s t) :
    Keeps s (State.applySrc t a1 a2) := by
  unfold State.applySrc
  refine Keeps.ite ?_ ?_
  · refine Keeps.ite ?_ ?_
    · refine Keeps.same (t := t) ?_ rfl rfl rfl
      assumption
    · assumption
  · extract_lets +onlyGivenNames x1
    clear_value x1
    refine keeps_State_setHart ?_
    assumption

theorem keeps_State_e1Cords {s t : State} (h : Keeps s t) :
    Keeps s (State.e1Cords t) := by
  unfold State.e1Cords
  refine keeps_State_flueForce ?_
  refine keeps_State_logForce ?_
  refine keeps_State_undoForce ?_
  assumption

theorem keeps_State_kindleE1 {s t : State} {a1 : _} (h : Keeps s t) :
    Keeps s (State.kindleE1 t a1) := by
  unfold State.kindleE1
  refine Keeps.ite ?_ ?_
  · extract_lets +onlyGivenNames x1
    extract_lets +onlyGivenNames x2
    have hx2 : Keeps s x2 := ?_
    · clear_value x2
      extract_lets +onlyGivenNames x3
      have hx3 : Keeps s x3 := ?_
      · clear_value x3
        refine keeps_State_e1Cords ?_
        refine Keeps.foldl ?_ (fun u4 y5 hu4 => ?_)
        · assumption
        · refine keeps_State_setHart ?_
          assumption
      · unfold x3
        refine Keeps.ite ?_ ?_
        · refine keeps_State_wakePend ?_
          refine keeps_State_wakeRecord ?_
          assumption
        · assumption
    · unfold x2
      refine Keeps.same (t := t) ?_ rfl rfl rfl
      assumption
  · assumption

theorem keeps_State_deliverNow {s t : State} {a1 : _} {a2 : _} (h : Keeps s t) :
    Keeps s (State.deliverNow t a1 a2) := by
  unfold State.deliverNow
  refine Keeps.ite ?_ ?_
  · assumption
  · refine Keeps.ite ?_ ?_
    · split
      · refine keeps_State_applySrc ?_
        refine keeps_State_logTake ?_ (by assumption)
        assumption
      · refine Keeps.same (t := t) ?_ rfl rfl rfl
        assumption
    · refine keeps_State_applySrc ?_
      assumption

theorem keeps_State_deliver {s t : State} {a1 : _} {a2 : _} (h : Keeps s t) :
    Keeps s (State.deliver t a1 a2) := by
  unfold State.deliver
  refine Keeps.ite ?_ ?_
  · refine Keeps.same (t := t) ?_ rfl rfl rfl
    assumption
  · refine keeps_State_deliverNow ?_
    assumption

theorem keeps_mtipChange {s t : State} {a0 : _} (h : Keeps s t) :
    Keeps s (mtipChange a0 t) := by
  unfold mtipChange
  refine Keeps.ite ?_ ?_
  · assumption
  · refine keeps_State_kindleE1 ?_
    refine keeps_State_deliver ?_
    assumption

theorem keeps_execMtipChange {s t : State} {a0 : _} {u : State} (h : Keeps s t)
    (e : execMtipChange a0 t = .next u) : Keeps s u := by
  unfold execMtipChange at e
  injection e with e
  subst e
  refine keeps_mtipChange ?_
  assumption

theorem keeps_State_deliverHeld {s t : State} {a1 : _} (h : Keeps s t) :
    Keeps s (State.deliverHeld t a1) := by
  induction a1 generalizing t
  · unfold State.deliverHeld
    assumption
  · rename_i ih
    unfold State.deliverHeld
    split
    · assumption
    · refine Keeps.ite ?_ ?_
      · assumption
      · apply ih
        refine keeps_State_deliverNow ?_
        refine Keeps.same (t := t) ?_ rfl rfl rfl
        assumption

theorem keeps_State_csrPut {s t : State} {a1 : _} {a2 : _} {a3 : _} (h : Keeps s t) :
    Keeps s (State.csrPut t a1 a2 a3) := by
  unfold State.csrPut
  extract_lets +onlyGivenNames x1
  clear_value x1
  extract_lets +onlyGivenNames x2
  clear_value x2
  refine Keeps.ite ?_ ?_
  · refine keeps_State_setHart ?_
    assumption
  · refine Keeps.ite ?_ ?_
    · refine keeps_State_setHart ?_
      assumption
    · refine Keeps.ite ?_ ?_
      · refine keeps_State_setHart ?_
        assumption
      · refine Keeps.ite ?_ ?_
        · refine keeps_State_setHart ?_
          assumption
        · refine Keeps.ite ?_ ?_
          · refine keeps_State_setHart ?_
            assumption
          · refine Keeps.ite ?_ ?_
            · refine keeps_State_setHart ?_
              assumption
            · refine Keeps.ite ?_ ?_
              · refine keeps_State_setHart ?_
                assumption
              · refine Keeps.ite ?_ ?_
                · extract_lets +onlyGivenNames x3
                  clear_value x3
                  refine Keeps.ite ?_ ?_
                  · extract_lets +onlyGivenNames x4
                    have hx4 : Keeps s x4.2 := ?_
                    · clear_value x4
                      refine keeps_State_setHart ?_
                      assumption
                    · unfold x4
                      refine keeps_State_draw ?_
                      assumption
                  · refine keeps_State_setHart ?_
                    assumption
                · refine Keeps.ite ?_ ?_
                  · refine keeps_State_setHart ?_
                    assumption
                  · refine Keeps.ite ?_ ?_
                    · refine keeps_State_setHart ?_
                      assumption
                    · refine Keeps.ite ?_ ?_
                      · refine keeps_State_setHart ?_
                        assumption
                      · refine Keeps.ite ?_ ?_
                        · refine keeps_State_setHart ?_
                          assumption
                        · refine Keeps.ite ?_ ?_
                          · refine keeps_State_setHart ?_
                            assumption
                          · refine Keeps.ite ?_ ?_
                            · refine keeps_State_setHart ?_
                              assumption
                            · refine Keeps.ite ?_ ?_
                              · refine keeps_State_setHart ?_
                                assumption
                              · refine Keeps.ite ?_ ?_
                                · refine keeps_State_setHart ?_
                                  assumption
                                · refine Keeps.ite ?_ ?_
                                  · refine Keeps.same (t := t) ?_ rfl rfl rfl
                                    assumption
                                  · refine Keeps.ite ?_ ?_
                                    · refine keeps_State_setHart ?_
                                      assumption
                                    · refine Keeps.ite ?_ ?_
                                      · refine keeps_State_setHart ?_
                                        assumption
                                      · refine Keeps.ite ?_ ?_
                                        · refine keeps_State_setHart ?_
                                          assumption
                                        · refine Keeps.ite ?_ ?_
                                          · refine keeps_State_setHart ?_
                                            assumption
                                          · refine Keeps.ite ?_ ?_
                                            · refine keeps_State_setHart ?_
                                              assumption
                                            · refine Keeps.ite ?_ ?_
                                              · refine keeps_State_setHart ?_
                                                assumption
                                              · refine Keeps.ite ?_ ?_
                                                · refine keeps_State_setHart ?_
                                                  assumption
                                                · refine Keeps.ite ?_ ?_
                                                  · refine keeps_State_setHart ?_
                                                    assumption
                                                  · assumption

theorem keeps_State_dbgSet {s t : State} {a1 : _} (h : Keeps s t) :
    Keeps s (State.dbgSet t a1) := by
  unfold State.dbgSet
  refine Keeps.same (t := t) ?_ rfl rfl rfl
  assumption

theorem keeps_State_dbgHalt {s t : State} {a1 : _} {a2 : _} (h : Keeps s t) :
    Keeps s (State.dbgHalt t a1 a2) := by
  unfold State.dbgHalt
  extract_lets +onlyGivenNames x1
  clear_value x1
  extract_lets +onlyGivenNames x2
  clear_value x2
  refine keeps_State_setHart ?_
  refine keeps_State_dbgSet ?_
  assumption

theorem keeps_State_dbgResume {s t : State} {a1 : _} (h : Keeps s t) :
    Keeps s (State.dbgResume t a1) := by
  unfold State.dbgResume
  refine Keeps.ite ?_ ?_
  · assumption
  · extract_lets +onlyGivenNames x1
    clear_value x1
    extract_lets +onlyGivenNames x2
    clear_value x2
    refine keeps_State_setHart ?_
    refine keeps_State_dbgSet ?_
    assumption

theorem keeps_State_dbgEnd {s t : State} (h : Keeps s t) :
    Keeps s (State.dbgEnd t) := by
  unfold State.dbgEnd
  refine keeps_State_dbgSet ?_
  refine Keeps.foldl ?_ (fun u1 y2 hu1 => ?_)
  · assumption
  · refine keeps_State_dbgResume ?_
    assumption

theorem keeps_State_actStart {s t : State} (h : Keeps s t) :
    Keeps s (State.actStart t) := by
  unfold State.actStart
  refine Keeps.ite ?_ ?_
  · refine keeps_State_cycOpen ?_
    refine keeps_State_rackRelease ?_
    refine keeps_State_cycLock ?_
    refine keeps_State_safLock ?_
    refine keeps_State_linksGo ?_
    assumption
  · extract_lets +onlyGivenNames x1
    have hx1 : Keeps s x1 := ?_
    · clear_value x1
      refine Keeps.same (t := x1) ?_ rfl rfl rfl
      assumption
    · unfold x1
      refine Keeps.foldl ?_ (fun u2 y3 hu2 => ?_)
      · refine keeps_State_rackFloat ?_
        assumption
      · refine Keeps.ite ?_ ?_
        · refine keeps_State_taskTo ?_
          assumption
        · assumption

theorem keeps_State_recStart {s t : State} (h : Keeps s t) :
    Keeps s (State.recStart t) := by
  unfold State.recStart
  extract_lets +onlyGivenNames x1
  have hx1 : Keeps s x1 := ?_
  · clear_value x1
    refine Keeps.same (t := x1) ?_ rfl rfl rfl
    assumption
  · unfold x1
    refine keeps_State_recLock ?_
    assumption

theorem keeps_State_operateStart {s t : State} (h : Keeps s t) :
    Keeps s (State.operateStart t) := by
  unfold State.operateStart
  extract_lets +onlyGivenNames x1
  have hx1 : Keeps s x1 := ?_
  · clear_value x1
    extract_lets +onlyGivenNames x2
    extract_lets +onlyGivenNames x3
    clear_value x3
    extract_lets +onlyGivenNames x4
    clear_value x4
    extract_lets +onlyGivenNames x5
    have hx5 : Keeps s x5 := ?_
    · clear_value x5
      extract_lets +onlyGivenNames x6
      have hx6 : Keeps s x6 := ?_
      · clear_value x6
        refine keeps_State_recStart ?_
        refine keeps_State_actStart ?_
        refine keeps_State_cbStartUp ?_
        refine keeps_State_crStart ?_
        assumption
      · unfold x6
        refine keeps_State_watchAll ?_
        refine keeps_State_ptoLock ?_
        assumption
    · unfold x5
      refine Keeps.same (t := x1) ?_ rfl rfl rfl
      assumption
  · unfold x1
    refine keeps_State_wr ?_
    refine keeps_State_wr ?_
    refine keeps_State_setPhase ?_
    refine keeps_State_dbgEnd ?_
    assumption

theorem keeps_State_joined {s t : State} (h : Keeps s t) :
    Keeps s (State.joined t) := by
  unfold State.joined
  refine keeps_State_pairSet ?_
  refine keeps_State_wr ?_
  assumption

theorem keeps_State_pairSetNt {s t : State} {a1 : _} (h : Keeps s t) : Keeps s (State.pairSetNt t a1) := by
  unfold State.pairSetNt
  exact keeps_State_setConv h (.inl rfl)

theorem keeps_State_revive {s t : State} {a1 : _} (h : Keeps s t) :
    Keeps s (State.revive t a1) := by
  unfold State.revive
  refine keeps_State_pairSet ?_
  refine keeps_State_pairSetNt ?_
  refine keeps_State_setRole ?_
  assumption

theorem keeps_State_reviveJoin {s t : State} {a1 : _} (h : Keeps s t) :
    Keeps s (State.reviveJoin t a1) := by
  unfold State.reviveJoin
  extract_lets +onlyGivenNames x1
  have hx1 : Keeps s x1.2 := ?_
  · clear_value x1
    refine Keeps.ite ?_ ?_
    · refine keeps_State_operateStart ?_
      refine keeps_State_revive ?_
      refine keeps_State_lanesOff ?_
      assumption
    · refine keeps_State_wr ?_
      assumption
  · unfold x1
    refine keeps_State_lockErr ?_
    refine keeps_State_joined ?_
    assumption

theorem keeps_State_becomeActive {s t : State} (h : Keeps s t) :
    Keeps s (State.becomeActive t) := by
  unfold State.becomeActive
  extract_lets +onlyGivenNames x1
  clear_value x1
  refine keeps_State_pairSet ?_
  refine keeps_State_setRole ?_
  refine keeps_State_pairRecWrite ?_
  assumption

theorem keeps_State_ringTaken {s t : State} {a1 : _} (h : Keeps s t) :
    Keeps s (State.ringTaken t a1) := by
  unfold State.ringTaken
  extract_lets +onlyGivenNames x1
  clear_value x1
  refine keeps_State_watch ?_
  refine keeps_State_setCtx ?_
  assumption

theorem keeps_State_mpLocksGone {s t : State} (h : Keeps s t) :
    Keeps s (State.mpLocksGone t) := by
  unfold State.mpLocksGone
  refine Keeps.same (t := t) ?_ rfl rfl rfl
  assumption

theorem keeps_State_ringLoose {s t : State} {a1 : _} (h : Keeps s t) :
    Keeps s (State.ringLoose t a1) := by
  unfold State.ringLoose
  extract_lets +onlyGivenNames x1
  clear_value x1
  extract_lets +onlyGivenNames x2
  clear_value x2
  extract_lets +onlyGivenNames x3
  clear_value x3
  extract_lets +onlyGivenNames x4
  clear_value x4
  extract_lets +onlyGivenNames x5
  have hx5 : Keeps s x5 := ?_
  · clear_value x5
    refine keeps_State_setCtx ?_
    assumption
  · unfold x5
    refine keeps_State_setStream ?_
    assumption

theorem keeps_State_partLoose {s t : State} {a1 : _} (h : Keeps s t) :
    Keeps s (State.partLoose t a1) := by
  unfold State.partLoose
  extract_lets +onlyGivenNames x1
  have hx1 : Keeps s x1 := ?_
  · clear_value x1
    extract_lets +onlyGivenNames x2
    have hx2 : Keeps s x2 := ?_
    · clear_value x2
      refine Keeps.ite ?_ ?_
      · assumption
      · refine keeps_State_ctlStart ?_
        assumption
    · unfold x2
      refine Keeps.foldl ?_ (fun u3 y4 hu3 => ?_)
      · assumption
      · refine keeps_State_setLock ?_
        assumption
  · unfold x1
    refine Keeps.foldl ?_ (fun u5 y6 hu5 => ?_)
    · assumption
    · refine keeps_State_ringLoose ?_
      assumption

theorem keeps_State_restore {s t : State} {a1 : _} (h : Keeps s t) :
    Keeps s (State.restore t a1) := by
  unfold State.restore
  extract_lets +onlyGivenNames x1
  have hx1 : Keeps s x1 := ?_
  · clear_value x1
    extract_lets +onlyGivenNames x2
    clear_value x2
    extract_lets +onlyGivenNames x3
    clear_value x3
    extract_lets +onlyGivenNames x4
    clear_value x4
    extract_lets +onlyGivenNames x5
    have hx5 : Keeps s x5 := ?_
    · clear_value x5
      extract_lets +onlyGivenNames x6
      have hx6 : Keeps s x6 := ?_
      · clear_value x6
        extract_lets +onlyGivenNames x7
        have hx7 : Keeps s x7 := ?_
        · clear_value x7
          extract_lets +onlyGivenNames x8
          have hx8 : Keeps s x8 := ?_
          · clear_value x8
            extract_lets +onlyGivenNames x9
            clear_value x9
            extract_lets +onlyGivenNames x10
            have hx10 : Keeps s x10 := ?_
            · clear_value x10
              extract_lets +onlyGivenNames x11
              have hx11 : Keeps s x11 := ?_
              · clear_value x11
                refine keeps_State_pairSet ?_
                assumption
              · unfold x11
                refine Keeps.ite ?_ ?_
                · refine keeps_State_cbByLink ?_
                  refine keeps_State_cbToSynced ?_
                  assumption
                · assumption
            · unfold x10
              refine Keeps.same (t := x8) ?_ rfl rfl rfl
              assumption
          · unfold x8
            refine keeps_State_wr ?_
            refine keeps_State_safLock ?_
            refine keeps_State_linksGo ?_
            assumption
        · unfold x7
          refine keeps_State_mpLocksGone ?_
          refine Keeps.ite ?_ ?_
          · refine Keeps.foldl ?_ (fun u12 y13 hu12 => ?_)
            · assumption
            · refine keeps_State_partLoose ?_
              assumption
          · assumption
      · unfold x6
        refine Keeps.foldl ?_ (fun u14 y15 hu14 => ?_)
        · assumption
        · refine keeps_State_ringTaken ?_
          assumption
    · unfold x5
      refine Keeps.same (t := x1) ?_ rfl rfl rfl
      assumption
  · unfold x1
    refine keeps_State_becomeActive ?_
    assumption

theorem keeps_State_switchEnd {s t : State} {a1 : _} (h : Keeps s t) :
    Keeps s (State.switchEnd t a1) := by
  unfold State.switchEnd
  split
  · assumption
  · extract_lets +onlyGivenNames x1
    have hx1 : Keeps s x1 := ?_
    · clear_value x1
      split
      · assumption
      · refine keeps_State_endLong ?_
        assumption
    · unfold x1
      refine keeps_State_pairSet ?_
      assumption

theorem keeps_State_switchAsk {s t : State} {a1 : _} (h : Keeps s t) :
    Keeps s (State.switchAsk t a1) := by
  unfold State.switchAsk
  refine keeps_State_pairSet ?_
  refine keeps_State_pairSend ?_
  assumption

theorem keeps_State_applyCells {s t : State} {a1 : _} (h : Keeps s t) :
    Keeps s (State.applyCells t a1) := by
  unfold State.applyCells
  refine Keeps.foldl ?_ (fun u1 y2 hu1 => ?_)
  · assumption
  · refine keeps_State_setByte ?_
    refine keeps_State_eccWrite ?_
    assumption

theorem keeps_State_applyRec {s t : State} {a1 : _} (h : Keeps s t) :
    Keeps s (State.applyRec t a1) := by
  unfold State.applyRec
  refine Keeps.ite ?_ ?_
  · assumption
  · split
    · extract_lets +onlyGivenNames x1
      clear_value x1
      refine keeps_State_applyCells ?_
      assumption
    · refine keeps_State_applyCells ?_
      assumption

theorem keeps_State_takeRegs {s t : State} {a1 : _} {a2 : _} (h : Keeps s t) :
    Keeps s (State.takeRegs t a1 a2) := by
  unfold State.takeRegs
  refine Keeps.foldl ?_ (fun u x hu => keeps_State_setReg hu)
  exact ⟨h.pending, h.mem, fun x => Sparse.wf_filter _ (h.regs x), h.raw, h.rtc, h.keys, h.revoked, h.imgSig, h.rate⟩

theorem keeps_State_takeCarried {s t : State} {a1 : _} (h : Keeps s t) :
    Keeps s (State.takeCarried t a1) := by
  unfold State.takeCarried
  extract_lets +onlyGivenNames x1
  have hx1 : Keeps s x1 := ?_
  · clear_value x1
    extract_lets +onlyGivenNames x2
    have hx2 : Keeps s x2 := ?_
    · clear_value x2
      extract_lets +onlyGivenNames x3
      have hx3 : Keeps s x3 := ?_
      · clear_value x3
        extract_lets +onlyGivenNames x4
        have hx4 : Keeps s x4 := ?_
        · clear_value x4
          extract_lets +onlyGivenNames x5
          clear_value x5
          extract_lets +onlyGivenNames x6
          clear_value x6
          extract_lets +onlyGivenNames x7
          clear_value x7
          extract_lets +onlyGivenNames x8
          extract_lets +onlyGivenNames x9
          clear_value x9
          extract_lets +onlyGivenNames x10
          have hx10 : Keeps s x10 := ?_
          · clear_value x10
            refine keeps_State_pairSet ?_
            refine keeps_State_wr64 ?_
            assumption
          · unfold x10
            refine Keeps.same (t := x4) ?_ rfl rfl rfl
            assumption
        · unfold x4
          refine Keeps.foldl ?_ (fun u11 y12 hu11 => ?_)
          · assumption
          · refine keeps_State_setNode ?_
            assumption
      · unfold x3
        refine keeps_State_applyCells ?_
        assumption
    · unfold x2
      refine keeps_State_takeRegs ?_
      assumption
  · unfold x1
    refine keeps_State_takeRegs ?_
    assumption

theorem keeps_State_applyStaged {s t : State} {a1 : _} (h : Keeps s t) :
    Keeps s (State.applyStaged t a1) := by
  unfold State.applyStaged
  extract_lets +onlyGivenNames x1
  clear_value x1
  extract_lets +onlyGivenNames x2
  have hx2 : Keeps s x2 := ?_
  · clear_value x2
    extract_lets +onlyGivenNames x3
    have hx3 : Keeps s x3 := ?_
    · clear_value x3
      refine keeps_State_wr ?_
      refine keeps_State_pairSet ?_
      refine keeps_State_takeCarried ?_
      assumption
    · unfold x3
      refine Keeps.foldl ?_ (fun u4 y5 hu4 => ?_)
      · assumption
      · refine keeps_State_applyRec ?_
        assumption
  · unfold x2
    refine Keeps.foldl ?_ (fun u6 y7 hu6 => ?_)
    · assumption
    · split
      · refine keeps_State_applyCells ?_
        assumption
      · refine keeps_State_applyCells ?_
        assumption
      · assumption

theorem keeps_State_pairResumed {s t : State} (h : Keeps s t) :
    Keeps s (State.pairResumed t) := by
  unfold State.pairResumed
  refine Keeps.ite ?_ ?_
  · assumption
  · extract_lets +onlyGivenNames x1
    clear_value x1
    extract_lets +onlyGivenNames x2
    have hx2 : Keeps s x2 := ?_
    · clear_value x2
      refine Keeps.foldl ?_ (fun u3 y4 hu3 => ?_)
      · assumption
      · refine keeps_State_cycleStart ?_
        refine keeps_State_setTask ?_
        assumption
    · unfold x2
      refine keeps_State_cycKindle ?_
      refine keeps_State_pairSet ?_
      assumption

theorem keeps_State_takeHarts {s t : State} (h : Keeps s t) :
    Keeps s (State.takeHarts t) := by
  unfold State.takeHarts
  extract_lets +onlyGivenNames x1
  clear_value x1
  split
  · assumption
  · extract_lets +onlyGivenNames x2
    clear_value x2
    extract_lets +onlyGivenNames x3
    clear_value x3
    extract_lets +onlyGivenNames x4
    clear_value x4
    extract_lets +onlyGivenNames x5
    have hx5 : Keeps s x5 := ?_
    · clear_value x5
      refine keeps_State_pairSet ?_
      refine keeps_State_wr64 ?_
      assumption
    · unfold x5
      refine Keeps.same (t := t) ?_ rfl rfl rfl
      assumption

theorem keeps_State_joinAlone {s t : State} {a1 : _} (h : Keeps s t) :
    Keeps s (State.joinAlone t a1) := by
  unfold State.joinAlone
  extract_lets +onlyGivenNames x1
  clear_value x1
  refine Keeps.ite ?_ ?_
  · refine keeps_State_becomeActive ?_
    refine keeps_State_joined ?_
    assumption
  · refine keeps_State_setRole ?_
    refine keeps_State_joined ?_
    assumption

theorem keeps_State_pairClose {s t : State} (h : Keeps s t) :
    Keeps s (State.pairClose t) := by
  unfold State.pairClose
  extract_lets +onlyGivenNames x1
  clear_value x1
  extract_lets +onlyGivenNames x2
  have hx2 : Keeps s x2 := ?_
  · clear_value x2
    refine Keeps.ite ?_ ?_
    · assumption
    · extract_lets +onlyGivenNames x3
      clear_value x3
      extract_lets +onlyGivenNames x4
      have hx4 : Keeps s x4 := ?_
      · clear_value x4
        refine Keeps.ite ?_ ?_
        · extract_lets +onlyGivenNames x5
          clear_value x5
          extract_lets +onlyGivenNames x6
          have hx6 : Keeps s x6 := ?_
          · clear_value x6
            refine keeps_State_pairSet ?_
            assumption
          · unfold x6
            refine Keeps.same (t := x4) ?_ rfl rfl rfl
            assumption
        · assumption
      · unfold x4
        refine keeps_State_pairPut ?_
        assumption
  · unfold x2
    refine Keeps.ite ?_ ?_
    · refine keeps_State_pairSet ?_
      assumption
    · assumption

theorem keeps_State_handedOver {s t : State} {a1 : _} (h : Keeps s t) :
    Keeps s (State.handedOver t a1) := by
  unfold State.handedOver
  extract_lets +onlyGivenNames x1
  have hx1 : Keeps s x1 := ?_
  · clear_value x1
    refine keeps_State_raise ?_
    refine keeps_State_pairRecWrite ?_
    assumption
  · unfold x1
    refine keeps_State_setRole ?_
    refine keeps_State_stopActing ?_
    assumption

theorem keeps_pairSwitch {s t : State} (h : Keeps s t) :
    Keeps s (pairSwitch t) := by
  unfold pairSwitch
  refine keeps_State_doLong (fun _ u1 hu1 => ?_) ?_
  · refine keeps_State_pairSet ?_
    refine keeps_State_switchAsk ?_
    assumption
  · assumption

theorem keeps_State_stepLost {s t : State} {a1 : _} (h : Keeps s t) :
    Keeps s (State.stepLost t a1) := by
  unfold State.stepLost
  refine keeps_State_pairFence ?_
  refine keeps_State_raise ?_
  assumption

theorem keeps_State_revived {s t : State} (h : Keeps s t) :
    Keeps s (State.revived t) := by
  unfold State.revived
  extract_lets +onlyGivenNames x1
  clear_value x1
  extract_lets +onlyGivenNames x2
  have hx2 : Keeps s x2 := ?_
  · clear_value x2
    refine keeps_State_pairSet ?_
    refine keeps_State_raise ?_
    assumption
  · unfold x2
    refine keeps_State_pairRecWrite ?_
    refine keeps_State_setRole ?_
    assumption

theorem keeps_State_switchTaken {s t : State} {a1 : _} (h : Keeps s t) :
    Keeps s (State.switchTaken t a1) := by
  unfold State.switchTaken
  extract_lets +onlyGivenNames x1
  have hx1 : Keeps s x1 := ?_
  · clear_value x1
    extract_lets +onlyGivenNames x2
    have hx2 : Keeps s x2 := ?_
    · clear_value x2
      split
      · assumption
      · extract_lets +onlyGivenNames x3
        clear_value x3
        extract_lets +onlyGivenNames x4
        have hx4 : Keeps s x4 := ?_
        · clear_value x4
          refine keeps_State_complete ?_
          assumption
        · unfold x4
          refine keeps_State_setCtx ?_
          assumption
    · unfold x2
      refine keeps_State_pairSet ?_
      assumption
  · unfold x1
    refine keeps_State_takeHarts ?_
    refine keeps_State_restore ?_
    assumption

theorem keeps_pairCloseRx {s t : State} {a0 : _} {a1 : _} (h : Keeps s t) :
    Keeps s (pairCloseRx a0 a1 t) := by
  unfold pairCloseRx
  refine Keeps.ite ?_ ?_
  · assumption
  · refine Keeps.ite ?_ ?_
    · refine keeps_State_stepLost ?_
      assumption
    · extract_lets +onlyGivenNames x1
      clear_value x1
      extract_lets +onlyGivenNames x2
      have hx2 : Keeps s x2 := ?_
      · clear_value x2
        extract_lets +onlyGivenNames x3
        have hx3 : Keeps s x3 := ?_
        · clear_value x3
          refine Keeps.ite ?_ ?_
          · refine keeps_State_switchTaken ?_
            assumption
          · assumption
        · unfold x3
          refine Keeps.ite ?_ ?_
          · refine keeps_State_revived ?_
            assumption
          · assumption
      · unfold x2
        refine keeps_State_pairSend ?_
        refine keeps_State_applyStaged ?_
        assumption

theorem keeps_execPairCloseRx {s t : State} {a0 : _} {a1 : _} {u : State} (h : Keeps s t)
    (e : execPairCloseRx a0 a1 t = .next u) : Keeps s u := by
  unfold execPairCloseRx at e
  injection e with e
  subst e
  refine keeps_pairCloseRx ?_
  assumption

theorem keeps_State_stageShow {s t : State} (h : Keeps s t) :
    Keeps s (State.stageShow t) := by
  unfold State.stageShow
  extract_lets +onlyGivenNames x1
  clear_value x1
  extract_lets +onlyGivenNames x2
  have hx2 : Keeps s x2 := ?_
  · clear_value x2
    refine Keeps.ite ?_ ?_
    · refine keeps_State_stepLost ?_
      assumption
    · assumption
  · unfold x2
    refine keeps_State_peak ?_
    refine keeps_State_wr ?_
    assumption

theorem keeps_pairMirrorRx {s t : State} {a0 : _} (h : Keeps s t) :
    Keeps s (pairMirrorRx a0 t) := by
  unfold pairMirrorRx
  refine Keeps.ite ?_ ?_
  · assumption
  · split
    · refine keeps_State_stageShow ?_
      refine keeps_State_pairSet ?_
      assumption
    · refine keeps_State_stageShow ?_
      refine keeps_State_pairSet ?_
      assumption
    · refine keeps_State_stageShow ?_
      refine keeps_State_pairSet ?_
      assumption
    · refine keeps_State_pairSet ?_
      assumption
    · refine keeps_State_wr ?_
      refine Keeps.same (t := t) ?_ rfl rfl rfl
      assumption
    · assumption
    · assumption

theorem keeps_pairTakeoverResume {s t : State} (h : Keeps s t) :
    Keeps s (pairTakeoverResume t) := by
  unfold pairTakeoverResume
  refine Keeps.ite ?_ ?_
  · assumption
  · refine Keeps.ite ?_ ?_
    · refine keeps_State_takeHarts ?_
      assumption
    · extract_lets +onlyGivenNames x1
      have hx1 : Keeps s x1 := ?_
      · clear_value x1
        split
        · refine keeps_State_pairSet ?_
          refine keeps_State_pairSend ?_
          assumption
        · assumption
      · unfold x1
        refine keeps_State_pairSet ?_
        assumption

theorem keeps_execPairTakeoverResume {s t : State} {u : State} (h : Keeps s t)
    (e : execPairTakeoverResume t = .next u) : Keeps s u := by
  unfold execPairTakeoverResume at e
  injection e with e
  subst e
  refine keeps_pairTakeoverResume ?_
  assumption

theorem keeps_pairSwitchTimeout {s t : State} (h : Keeps s t) :
    Keeps s (pairSwitchTimeout t) := by
  unfold pairSwitchTimeout
  split
  · assumption
  · refine Keeps.ite ?_ ?_
    · assumption
    · refine Keeps.ite ?_ ?_
      · refine Keeps.ite ?_ ?_
        · refine keeps_State_switchEnd ?_
          assumption
        · assumption
      · refine Keeps.ite ?_ ?_
        · refine keeps_State_pairSet ?_
          assumption
        · assumption

theorem keeps_execPairSwitchTimeout {s t : State} {u : State} (h : Keeps s t)
    (e : execPairSwitchTimeout t = .next u) : Keeps s u := by
  unfold execPairSwitchTimeout at e
  injection e with e
  subst e
  refine keeps_pairSwitchTimeout ?_
  assumption

theorem keeps_State_switchPowers {s t : State} {a1 : _} (h : Keeps s t) :
    Keeps s (State.switchPowers t a1) := by
  unfold State.switchPowers
  refine Keeps.ite ?_ ?_
  · refine keeps_State_pairSet ?_
    refine keeps_State_pairSend ?_
    assumption
  · extract_lets +onlyGivenNames x1
    have hx1 : Keeps s x1 := ?_
    · clear_value x1
      refine keeps_State_pairSet ?_
      assumption
    · unfold x1
      split
      · refine keeps_State_pairSend ?_
        assumption
      · assumption

theorem keeps_pairSwitchRequestRx {s t : State} {a0 : _} (h : Keeps s t) :
    Keeps s (pairSwitchRequestRx a0 t) := by
  unfold pairSwitchRequestRx
  refine Keeps.ite ?_ ?_
  · assumption
  · refine Keeps.ite ?_ ?_
    · refine Keeps.ite ?_ ?_
      · refine keeps_State_switchPowers ?_
        assumption
      · refine keeps_State_pairSet ?_
        assumption
    · refine Keeps.ite ?_ ?_
      · assumption
      · extract_lets +onlyGivenNames x1
        have hx1 : Keeps s x1 := ?_
        · clear_value x1
          refine Keeps.ite ?_ ?_
          · refine keeps_State_switchPowers ?_
            assumption
          · extract_lets +onlyGivenNames x2
            have hx2 : Keeps s x2 := ?_
            · clear_value x2
              refine Keeps.ite ?_ ?_
              · refine keeps_State_pairSet ?_
                assumption
              · assumption
            · unfold x2
              refine keeps_State_pairSend ?_
              assumption
        · unfold x1
          refine Keeps.ite ?_ ?_
          · refine keeps_State_switchEnd ?_
            assumption
          · assumption

theorem keeps_pairJoin {s t : State} {a0 : _} {a1 : _} (h : Keeps s t) :
    Keeps s (pairJoin a0 a1 t) := by
  unfold pairJoin
  refine Keeps.ite ?_ ?_
  · refine keeps_State_pairSet ?_
    assumption
  · assumption

theorem keeps_execPairJoin {s t : State} {a0 : _} {a1 : _} {u : State} (h : Keeps s t)
    (e : execPairJoin a0 a1 t = .next u) : Keeps s u := by
  unfold execPairJoin at e
  injection e with e
  subst e
  refine keeps_State_arrive (fun u1 hu1 => ?_) ?_
  · refine keeps_pairJoin ?_
    assumption
  · assumption

theorem keeps_execPairSwitch {s t : State} {u : State} (h : Keeps s t)
    (e : execPairSwitch t = .next u) : Keeps s u := by
  unfold execPairSwitch at e
  injection e with e
  subst e
  refine keeps_pairSwitch ?_
  assumption

theorem keeps_State_peerMoved {s t : State} {a1 : _} {a2 : _} (h : Keeps s t) :
    Keeps s (State.peerMoved t a1 a2) := by
  unfold State.peerMoved
  refine Keeps.ite ?_ ?_
  · assumption
  · refine Keeps.ite ?_ ?_
    · refine keeps_State_pairSet ?_
      refine keeps_State_raise ?_
      assumption
    · refine Keeps.ite ?_ ?_
      · refine keeps_State_pairSet ?_
        refine keeps_State_wr ?_
        assumption
      · refine Keeps.ite ?_ ?_
        · refine keeps_State_raise ?_
          refine keeps_State_wr ?_
          assumption
        · assumption

theorem keeps_State_hearPeer {s t : State} {a1 : _} (h : Keeps s t) :
    Keeps s (State.hearPeer t a1) := by
  unfold State.hearPeer
  extract_lets +onlyGivenNames x1
  clear_value x1
  extract_lets +onlyGivenNames x2
  clear_value x2
  extract_lets +onlyGivenNames x3
  clear_value x3
  extract_lets +onlyGivenNames x4
  have hx4 : Keeps s x4 := ?_
  · clear_value x4
    extract_lets +onlyGivenNames x5
    have hx5 : Keeps s x5 := ?_
    · clear_value x5
      extract_lets +onlyGivenNames x6
      have hx6 : Keeps s x6 := ?_
      · clear_value x6
        refine Keeps.ite ?_ ?_
        · refine keeps_State_strapEvent ?_
          refine keeps_State_wr ?_
          assumption
        · refine Keeps.ite ?_ ?_
          · refine keeps_State_wr ?_
            assumption
          · assumption
      · unfold x6
        refine keeps_State_pairSet ?_
        assumption
    · unfold x5
      refine keeps_State_wr64 ?_
      refine keeps_State_wr ?_
      assumption
  · unfold x4
    refine keeps_State_wr ?_
    refine keeps_State_satAdd ?_
    assumption

theorem keeps_State_joinHeard {s t : State} {a1 : _} {a2 : _} {a3 : _} (h : Keeps s t) :
    Keeps s (State.joinHeard t a1 a2 a3) := by
  unfold State.joinHeard
  refine Keeps.ite ?_ ?_
  · refine keeps_State_setRole ?_
    refine keeps_State_joined ?_
    assumption
  · refine Keeps.ite ?_ ?_
    · refine keeps_State_reviveJoin ?_
      assumption
    · refine Keeps.ite ?_ ?_
      · refine Keeps.ite ?_ ?_
        · refine keeps_State_becomeActive ?_
          refine keeps_State_joined ?_
          assumption
        · refine keeps_State_reviveJoin ?_
          assumption
      · refine Keeps.ite ?_ ?_
        · refine keeps_State_joinAlone ?_
          assumption
        · assumption

theorem keeps_State_pairSteer {s t : State} {a1 : _} {a2 : _} (h : Keeps s t) : Keeps s (State.pairSteer t a1 a2) := by
  unfold State.pairSteer
  extract_lets +onlyGivenNames n dev s1 d i s2 o
  have h1 : Keeps s s1 := keeps_State_peak (keeps_State_wr h)
  have h2 : Keeps s s2 := keeps_State_draw h1
  refine keeps_State_wr64 (keeps_State_setConv h2 (.inr ?_))
  have hi : incrMin ≤ i ∧ i ≤ incrMax := by
    have := Nat.mod_lt d.1.toNat (show 0 < incrMax - incrMin + 1 by decide)
    have hm : incrMin ≤ incrMax := by decide
    show incrMin ≤ incrMin + _ ∧ incrMin + _ ≤ incrMax
    omega
  have : i < 2 ^ 48 := Nat.lt_of_le_of_lt hi.2 (by decide)
  rw [BitVec.toNat_ofNat, Nat.mod_eq_of_lt this]
  exact hi

theorem keeps_State_loopsOpen {s t : State} (h : Keeps s t) :
    Keeps s (State.loopsOpen t) := by
  unfold State.loopsOpen
  refine Keeps.foldl ?_ (fun u1 y2 hu1 => ?_)
  · assumption
  · refine keeps_State_linkPairHold ?_
    assumption

theorem keeps_State_roleHears {s t : State} {a1 : _} {a2 : _} (h : Keeps s t) :
    Keeps s (State.roleHears t a1 a2) := by
  unfold State.roleHears
  refine Keeps.ite ?_ ?_
  · refine keeps_State_pairFence ?_
    assumption
  · refine Keeps.ite ?_ ?_
    · refine keeps_State_stepLost ?_
      assumption
    · refine Keeps.ite ?_ ?_
      · refine keeps_State_pairSteer ?_
        assumption
      · refine Keeps.ite ?_ ?_
        · refine keeps_State_revive ?_
          assumption
        · split
          · refine Keeps.ite ?_ ?_
            · refine keeps_State_loopsOpen ?_
              assumption
            · assumption
          · assumption

theorem keeps_pairHeartbeatRx {s t : State} {a0 : _} {a1 : _} (h : Keeps s t) :
    Keeps s (pairHeartbeatRx a0 a1 t) := by
  unfold pairHeartbeatRx
  refine Keeps.ite ?_ ?_
  · assumption
  · extract_lets +onlyGivenNames x1
    clear_value x1
    extract_lets +onlyGivenNames x2
    have hx2 : Keeps s x2 := ?_
    · clear_value x2
      split
      · refine keeps_State_joinHeard ?_
        assumption
      · refine keeps_State_roleHears ?_
        assumption
    · unfold x2
      refine keeps_State_mpIrq ?_
      refine keeps_State_peerMoved ?_
      refine keeps_State_hearPeer ?_
      assumption

theorem keeps_execPairHeartbeatRx {s t : State} {a0 : _} {a1 : _} {u : State} (h : Keeps s t)
    (e : execPairHeartbeatRx a0 a1 t = .next u) : Keeps s u := by
  unfold execPairHeartbeatRx at e
  injection e with e
  subst e
  refine keeps_pairHeartbeatRx ?_
  assumption

theorem keeps_pairRevertTimer {s t : State} (h : Keeps s t) :
    Keeps s (pairRevertTimer t) := by
  unfold pairRevertTimer
  split
  · assumption
  · refine Keeps.ite ?_ ?_
    · refine keeps_State_pairSet ?_
      refine keeps_State_pairSend ?_
      assumption
    · assumption

theorem keeps_pairClr {s t : State} {a0 : _} {a1 : _} (h : Keeps s t) :
    Keeps s (pairClr a0 a1 t) := by
  unfold pairClr
  refine Keeps.ite ?_ ?_
  · refine keeps_State_wr ?_
    refine keeps_State_wr ?_
    refine keeps_State_wr ?_
    refine keeps_State_setReg ?_
    assumption
  · assumption

theorem keeps_execPairClr {s t : State} {a0 : _} {a1 : _} {u : State} (h : Keeps s t)
    (e : execPairClr a0 a1 t = .next u) : Keeps s u := by
  unfold execPairClr at e
  injection e with e
  subst e
  refine keeps_State_arrive (fun u1 hu1 => ?_) ?_
  · refine keeps_pairClr ?_
    assumption
  · assumption

theorem keeps_pairLinkLane {s t : State} {a0 : _} {a1 : _} (h : Keeps s t) :
    Keeps s (pairLinkLane a0 a1 t) := by
  unfold pairLinkLane
  extract_lets +onlyGivenNames x1
  clear_value x1
  refine Keeps.ite ?_ ?_
  · assumption
  · extract_lets +onlyGivenNames x2
    have hx2 : Keeps s x2 := ?_
    · clear_value x2
      refine Keeps.ite ?_ ?_
      · refine keeps_State_pairFence ?_
        assumption
      · assumption
    · unfold x2
      refine keeps_State_mpIrq ?_
      refine keeps_State_raise ?_
      refine keeps_State_wr ?_
      assumption

theorem keeps_State_takeOver {s t : State} (h : Keeps s t) :
    Keeps s (State.takeOver t) := by
  unfold State.takeOver
  extract_lets +onlyGivenNames x1
  clear_value x1
  extract_lets +onlyGivenNames x2
  have hx2 : Keeps s x2 := ?_
  · clear_value x2
    extract_lets +onlyGivenNames x3
    have hx3 : Keeps s x3.2 := ?_
    · clear_value x3
      extract_lets +onlyGivenNames x4
      have hx4 : Keeps s x4 := ?_
      · clear_value x4
        refine Keeps.ite ?_ ?_
        · refine keeps_State_takeHarts ?_
          assumption
        · assumption
      · unfold x4
        refine keeps_State_raise ?_
        assumption
    · unfold x3
      refine keeps_State_draw ?_
      assumption
  · unfold x2
    refine keeps_State_satAdd ?_
    refine keeps_State_restore ?_
    assumption

theorem keeps_pairPresWaitEnd {s t : State} (h : Keeps s t) :
    Keeps s (pairPresWaitEnd t) := by
  unfold pairPresWaitEnd
  split
  · assumption
  · refine Keeps.ite ?_ ?_
    · refine keeps_State_takeOver ?_
      assumption
    · assumption

theorem keeps_execPairPresWaitEnd {s t : State} {u : State} (h : Keeps s t)
    (e : execPairPresWaitEnd t = .next u) : Keeps s u := by
  unfold execPairPresWaitEnd at e
  injection e with e
  subst e
  refine keeps_pairPresWaitEnd ?_
  assumption

theorem keeps_pairReadyRx {s t : State} (h : Keeps s t) :
    Keeps s (pairReadyRx t) := by
  unfold pairReadyRx
  split
  · refine Keeps.ite ?_ ?_
    · refine keeps_State_pairSet ?_
      assumption
    · assumption
  · assumption

theorem keeps_execPairReadyRx {s t : State} {u : State} (h : Keeps s t)
    (e : execPairReadyRx t = .next u) : Keeps s u := by
  unfold execPairReadyRx at e
  injection e with e
  subst e
  refine keeps_pairReadyRx ?_
  assumption

theorem keeps_pairJoinTimeout {s t : State} (h : Keeps s t) :
    Keeps s (pairJoinTimeout t) := by
  unfold pairJoinTimeout
  split
  · assumption
  · refine Keeps.ite ?_ ?_
    · refine keeps_State_joinAlone ?_
      assumption
    · assumption

theorem keeps_pairHbLoss {s t : State} (h : Keeps s t) :
    Keeps s (pairHbLoss t) := by
  unfold pairHbLoss
  split
  · assumption
  · refine Keeps.ite ?_ ?_
    · assumption
    · extract_lets +onlyGivenNames x1
      have hx1 : Keeps s x1 := ?_
      · clear_value x1
        refine Keeps.ite ?_ ?_
        · extract_lets +onlyGivenNames x2
          have hx2 : Keeps s x2 := ?_
          · clear_value x2
            extract_lets +onlyGivenNames x3
            have hx3 : Keeps s x3 := ?_
            · clear_value x3
              refine Keeps.ite ?_ ?_
              · refine keeps_State_takeOver ?_
                assumption
              · assumption
            · unfold x3
              refine keeps_State_wr ?_
              assumption
          · unfold x2
            refine keeps_State_pairSet ?_
            refine keeps_State_raise ?_
            assumption
        · refine Keeps.ite ?_ ?_
          · refine keeps_State_pairSet ?_
            refine keeps_State_raise ?_
            assumption
          · refine Keeps.ite ?_ ?_
            · refine keeps_State_pairFence ?_
              assumption
            · assumption
      · unfold x1
        refine keeps_State_satAdd ?_
        refine keeps_State_wr ?_
        assumption

theorem keeps_execPairHbLoss {s t : State} {u : State} (h : Keeps s t)
    (e : execPairHbLoss t = .next u) : Keeps s u := by
  unfold execPairHbLoss at e
  injection e with e
  subst e
  refine keeps_pairHbLoss ?_
  assumption

theorem keeps_pairCopyRelay {s t : State} {a0 : _} {a1 : _} {a2 : _} {a3 : _} (h : Keeps s t) :
    Keeps s (pairCopyRelay a0 a1 a2 a3 t) := by
  unfold pairCopyRelay
  refine Keeps.ite ?_ ?_
  · assumption
  · refine Keeps.ite ?_ ?_
    · refine keeps_State_pairSend ?_
      assumption
    · refine keeps_State_portSend ?_
      assumption

theorem keeps_execPairMirrorRx {s t : State} {a0 : _} {u : State} (h : Keeps s t)
    (e : execPairMirrorRx a0 t = .next u) : Keeps s u := by
  unfold execPairMirrorRx at e
  injection e with e
  subst e
  refine keeps_pairMirrorRx ?_
  assumption

theorem keeps_execPairSwitchRequestRx {s t : State} {a0 : _} {u : State} (h : Keeps s t)
    (e : execPairSwitchRequestRx a0 t = .next u) : Keeps s u := by
  unfold execPairSwitchRequestRx at e
  injection e with e
  subst e
  refine keeps_pairSwitchRequestRx ?_
  assumption

theorem keeps_pairSwitchHandoverEnd {s t : State} {a0 : _} (h : Keeps s t) :
    Keeps s (pairSwitchHandoverEnd a0 t) := by
  unfold pairSwitchHandoverEnd
  split
  · refine Keeps.ite ?_ ?_
    · refine keeps_State_handedOver ?_
      assumption
    · assumption
  · assumption

theorem keeps_execPairJoinTimeout {s t : State} {u : State} (h : Keeps s t)
    (e : execPairJoinTimeout t = .next u) : Keeps s u := by
  unfold execPairJoinTimeout at e
  injection e with e
  subst e
  refine keeps_pairJoinTimeout ?_
  assumption

theorem keeps_runPairStatus {s t : State} {a0 : _} (h : Keeps s t) :
    Keeps s (runPairStatus a0 t).1 := by
  refine KeepsF.out ?_
  unfold runPairStatus
  extract_lets +onlyGivenNames x1
  clear_value x1
  refine KeepsF.ite ?_ ?_
  · refine KeepsF.pair ?_
    assumption
  · refine KeepsF.ite ?_ ?_
    · refine KeepsF.pair ?_
      assumption
    · extract_lets +onlyGivenNames x2
      clear_value x2
      extract_lets +onlyGivenNames x3
      have hx3 : Keeps s x3.2 := ?_
      · clear_value x3
        refine KeepsF.pair ?_
        refine keeps_State_outBuf ?_
        assumption
      · unfold x3
        refine keeps_State_freeBytes ?_
        assumption

theorem keeps_pairStatus {s t : State} (h : Keeps s t) :
    Keeps s (pairStatus t) := by
  unfold pairStatus
  refine keeps_State_doShort (fun _ u1 hu1 => ?_) ?_
  · refine keeps_runPairStatus ?_
    assumption
  · assumption

theorem keeps_execPairStatus {s t : State} {u : State} (h : Keeps s t)
    (e : execPairStatus t = .next u) : Keeps s u := by
  unfold execPairStatus at e
  injection e with e
  subst e
  refine keeps_pairStatus ?_
  assumption

theorem keeps_State_copyLine {s t : State} (h : Keeps s t) :
    Keeps s (State.copyLine t) := by
  unfold State.copyLine
  split
  · assumption
  · split
    · refine keeps_State_pairPut ?_
      refine keeps_State_pairSet ?_
      assumption
    · extract_lets +onlyGivenNames x1
      clear_value x1
      extract_lets +onlyGivenNames x2
      have hx2 : Keeps s x2 := ?_
      · clear_value x2
        refine keeps_State_pairSet ?_
        assumption
      · unfold x2
        refine keeps_State_pairPut ?_
        assumption

theorem keeps_State_rateShow {s t : State} (h : Keeps s t) :
    Keeps s (State.rateShow t) := by
  unfold State.rateShow
  refine Keeps.ite ?_ ?_
  · extract_lets +onlyGivenNames x1
    clear_value x1
    refine keeps_State_pairSet ?_
    refine keeps_State_peak ?_
    refine keeps_State_wr ?_
    assumption
  · assumption

theorem keeps_State_pairTick {s t : State} (h : Keeps s t) :
    Keeps s (State.pairTick t) := by
  unfold State.pairTick
  refine Keeps.ite ?_ ?_
  · assumption
  · extract_lets +onlyGivenNames x1
    have hx1 : Keeps s x1 := ?_
    · clear_value x1
      split
      · refine keeps_State_rateShow ?_
        refine keeps_State_pairSet ?_
        assumption
      · extract_lets +onlyGivenNames x2
        clear_value x2
        extract_lets +onlyGivenNames x3
        clear_value x3
        refine keeps_State_rateShow ?_
        refine Keeps.ite ?_ ?_
        · refine keeps_State_pairThrottle ?_
          refine keeps_State_pairSet ?_
          assumption
        · refine keeps_State_pairSet ?_
          assumption
    · unfold x1
      refine Keeps.ite ?_ ?_
      · refine keeps_State_copyLine ?_
        assumption
      · assumption

theorem keeps_execPairRevertTimer {s t : State} {u : State} (h : Keeps s t)
    (e : execPairRevertTimer t = .next u) : Keeps s u := by
  unfold execPairRevertTimer at e
  injection e with e
  subst e
  refine keeps_pairRevertTimer ?_
  assumption

theorem keeps_execPairCopyRelay {s t : State} {a0 : _} {a1 : _} {a2 : _} {a3 : _} {u : State} (h : Keeps s t)
    (e : execPairCopyRelay a0 a1 a2 a3 t = .next u) : Keeps s u := by
  unfold execPairCopyRelay at e
  injection e with e
  subst e
  refine keeps_pairCopyRelay ?_
  assumption

theorem keeps_execPairSwitchHandoverEnd {s t : State} {a0 : _} {u : State} (h : Keeps s t)
    (e : execPairSwitchHandoverEnd a0 t = .next u) : Keeps s u := by
  unfold execPairSwitchHandoverEnd at e
  injection e with e
  subst e
  refine keeps_pairSwitchHandoverEnd ?_
  assumption

theorem keeps_pairHeartbeatTx {s t : State} (h : Keeps s t) :
    Keeps s (pairHeartbeatTx t) := by
  unfold pairHeartbeatTx
  refine Keeps.ite ?_ ?_
  · refine keeps_State_pairSet ?_
    refine keeps_State_pairSend ?_
    assumption
  · assumption

theorem keeps_execPairHeartbeatTx {s t : State} {u : State} (h : Keeps s t)
    (e : execPairHeartbeatTx t = .next u) : Keeps s u := by
  unfold execPairHeartbeatTx at e
  injection e with e
  subst e
  refine keeps_pairHeartbeatTx ?_
  assumption

theorem keeps_pairDiscardRx {s t : State} (h : Keeps s t) :
    Keeps s (pairDiscardRx t) := by
  unfold pairDiscardRx
  refine Keeps.ite ?_ ?_
  · assumption
  · refine keeps_State_stageShow ?_
    refine keeps_State_pairSet ?_
    assumption

theorem keeps_pairCloseAckRx {s t : State} {a0 : _} (h : Keeps s t) :
    Keeps s (pairCloseAckRx a0 t) := by
  unfold pairCloseAckRx
  refine Keeps.ite ?_ ?_
  · assumption
  · extract_lets +onlyGivenNames x1
    have hx1 : Keeps s x1 := ?_
    · clear_value x1
      refine Keeps.same (t := x1) ?_ rfl rfl rfl
      assumption
    · unfold x1
      refine keeps_State_pairSet ?_
      assumption

theorem keeps_execPairCloseAckRx {s t : State} {a0 : _} {u : State} (h : Keeps s t)
    (e : execPairCloseAckRx a0 t = .next u) : Keeps s u := by
  unfold execPairCloseAckRx at e
  injection e with e
  subst e
  refine keeps_pairCloseAckRx ?_
  assumption

theorem keeps_execPairDiscardRx {s t : State} {u : State} (h : Keeps s t)
    (e : execPairDiscardRx t = .next u) : Keeps s u := by
  unfold execPairDiscardRx at e
  injection e with e
  subst e
  refine keeps_pairDiscardRx ?_
  assumption

theorem keeps_execPairLinkLane {s t : State} {a0 : _} {a1 : _} {u : State} (h : Keeps s t)
    (e : execPairLinkLane a0 a1 t = .next u) : Keeps s u := by
  unfold execPairLinkLane at e
  injection e with e
  subst e
  refine keeps_pairLinkLane ?_
  assumption

theorem keeps_recClear {s t : State} (h : Keeps s t) :
    Keeps s (recClear t) := by
  unfold recClear
  refine keeps_State_doLong (fun _ u1 hu1 => ?_) ?_
  · extract_lets +onlyGivenNames x2
    clear_value x2
    extract_lets +onlyGivenNames x3
    clear_value x3
    extract_lets +onlyGivenNames x4
    have hx4 : Keeps s x4 := ?_
    · clear_value x4
      extract_lets +onlyGivenNames x5
      clear_value x5
      refine keeps_State_raise ?_
      refine keeps_State_endLong ?_
      assumption
    · unfold x4
      refine keeps_State_recClear ?_
      assumption
  · assumption

theorem keeps_execRecClear {s t : State} {u : State} (h : Keeps s t)
    (e : execRecClear t = .next u) : Keeps s u := by
  unfold execRecClear at e
  injection e with e
  subst e
  refine keeps_recClear ?_
  assumption

theorem keeps_recNoteCmd {s t : State} {a0 : _} {a1 : _} (h : Keeps s t) :
    Keeps s (recNoteCmd a0 a1 t) := by
  unfold recNoteCmd
  extract_lets +onlyGivenNames x1
  clear_value x1
  refine Keeps.ite ?_ ?_
  · refine keeps_State_recNoteWrite ?_
    assumption
  · assumption

theorem keeps_State_exportStep {s t : State} {a1 : _} (h : Keeps s t) :
    Keeps s (State.exportStep t a1) := by
  unfold State.exportStep
  extract_lets +onlyGivenNames x1
  clear_value x1
  extract_lets +onlyGivenNames x2
  clear_value x2
  extract_lets +onlyGivenNames x3
  clear_value x3
  extract_lets +onlyGivenNames x4
  have hx4 : Keeps s x4 := ?_
  · clear_value x4
    refine Keeps.ite ?_ ?_
    · refine keeps_State_endLong ?_
      assumption
    · refine keeps_State_setOut ?_
      assumption
  · unfold x4
    refine Keeps.foldl ?_ (fun u5 y6 hu5 => ?_)
    · assumption
    · extract_lets +onlyGivenNames x7
      clear_value x7
      refine keeps_State_outBuf ?_
      assumption

theorem keeps_recClr {s t : State} {a0 : _} {a1 : _} (h : Keeps s t) :
    Keeps s (recClr a0 a1 t) := by
  unfold recClr
  refine Keeps.ite ?_ ?_
  · refine keeps_State_wr ?_
    refine keeps_State_wr ?_
    assumption
  · assumption

theorem keeps_recPeriodicSample {s t : State} {a0 : _} (h : Keeps s t) :
    Keeps s (recPeriodicSample a0 t) := by
  unfold recPeriodicSample
  extract_lets +onlyGivenNames x1
  clear_value x1
  extract_lets +onlyGivenNames x2
  clear_value x2
  refine Keeps.ite ?_ ?_
  · extract_lets +onlyGivenNames x3
    clear_value x3
    extract_lets +onlyGivenNames x4
    have hx4 : Keeps s x4 := ?_
    · clear_value x4
      extract_lets +onlyGivenNames x5
      have hx5 : Keeps s x5.2 := ?_
      · clear_value x5
        refine Keeps.ite ?_ ?_
        · assumption
        · split
          · assumption
          · refine keeps_State_recSample ?_
            assumption
      · unfold x5
        refine KeepsS.out ?_
        refine KeepsS.ite ?_ ?_
        · refine ⟨?_⟩
          refine keeps_State_checkAll ?_
          assumption
        · refine KeepsS.pair ?_
          assumption
    · unfold x4
      refine Keeps.same (t := t) ?_ rfl rfl rfl
      assumption
  · assumption

theorem keeps_recExport {s t : State} (h : Keeps s t) :
    Keeps s (recExport t) := by
  unfold recExport
  refine keeps_State_doLong (fun _ u1 hu1 => ?_) ?_
  · assumption
  · assumption

theorem keeps_execRecExport {s t : State} {u : State} (h : Keeps s t)
    (e : execRecExport t = .next u) : Keeps s u := by
  unfold execRecExport at e
  injection e with e
  subst e
  refine keeps_recExport ?_
  assumption

theorem keeps_recFlush {s t : State} (h : Keeps s t) :
    Keeps s (recFlush t) := by
  unfold recFlush
  refine Keeps.ite ?_ ?_
  · refine keeps_State_recFlush ?_
    assumption
  · assumption

theorem keeps_execRecFlush {s t : State} {u : State} (h : Keeps s t)
    (e : execRecFlush t = .next u) : Keeps s u := by
  unfold execRecFlush at e
  injection e with e
  subst e
  refine keeps_recFlush ?_
  assumption

theorem keeps_execRecNoteCmd {s t : State} {a0 : _} {a1 : _} {u : State} (h : Keeps s t)
    (e : execRecNoteCmd a0 a1 t = .next u) : Keeps s u := by
  unfold execRecNoteCmd at e
  injection e with e
  subst e
  refine keeps_State_arrive (fun u1 hu1 => ?_) ?_
  · refine keeps_recNoteCmd ?_
    assumption
  · assumption

theorem keeps_execRecClr {s t : State} {a0 : _} {a1 : _} {u : State} (h : Keeps s t)
    (e : execRecClr a0 a1 t = .next u) : Keeps s u := by
  unfold execRecClr at e
  injection e with e
  subst e
  refine keeps_State_arrive (fun u1 hu1 => ?_) ?_
  · refine keeps_recClr ?_
    assumption
  · assumption

theorem keeps_recSampleApply {s t : State} (h : Keeps s t) :
    Keeps s (recSampleApply t) := by
  unfold recSampleApply
  split
  · assumption
  · refine keeps_State_recApply ?_
    refine Keeps.same (t := t) ?_ rfl rfl rfl
    assumption

theorem keeps_execRecPeriodicSample {s t : State} {a0 : _} {u : State} (h : Keeps s t)
    (e : execRecPeriodicSample a0 t = .next u) : Keeps s u := by
  unfold execRecPeriodicSample at e
  injection e with e
  subst e
  refine keeps_recPeriodicSample ?_
  assumption

theorem keeps_execRecSampleApply {s t : State} {u : State} (h : Keeps s t)
    (e : execRecSampleApply t = .next u) : Keeps s u := by
  unfold execRecSampleApply at e
  injection e with e
  subst e
  refine keeps_recSampleApply ?_
  assumption

theorem keeps_mpTelemetry {s t : State} (h : Keeps s t) :
    Keeps s (mpTelemetry t) := by
  unfold mpTelemetry
  extract_lets +onlyGivenNames x1
  clear_value x1
  refine Keeps.ite ?_ ?_
  · refine Keeps.same (t := t) ?_ rfl rfl rfl
    assumption
  · assumption

theorem keeps_istClr {s t : State} {a0 : _} {a1 : _} (h : Keeps s t) :
    Keeps s (istClr a0 a1 t) := by
  unfold istClr
  refine Keeps.ite ?_ ?_
  · refine keeps_State_wr ?_
    refine keeps_State_wr ?_
    refine keeps_State_wr ?_
    refine keeps_State_wr ?_
    refine keeps_State_wr ?_
    assumption
  · assumption

end Machine
end Sys2Proof
end

