-- ==== Sys2Proof/Laws/Keeps09.lean ====
section
/-!
SUPPORT. Keeps of the operations of Mp, SetupRW, Image, Maint, Access.
-/

set_option Elab.async false

namespace Sys2Proof
namespace Machine

theorem keeps_execIstClr {s t : State} {a0 : _} {a1 : _} {u : State} (h : Keeps s t)
    (e : execIstClr a0 a1 t = .next u) : Keeps s u := by
  unfold execIstClr at e
  injection e with e
  subst e
  refine keeps_State_arrive (fun u1 hu1 => ?_) ?_
  · refine keeps_istClr ?_
    assumption
  · assumption

theorem keeps_istOffpulseEnd {s t : State} (h : Keeps s t) :
    Keeps s (istOffpulseEnd t) := by
  unfold istOffpulseEnd
  split
  · refine Keeps.ite ?_ ?_
    · refine keeps_State_offPulseEnd ?_
      assumption
    · assumption
  · assumption

theorem keeps_State_scrubUe {s t : State} {a1 : _} (h : Keeps s t) :
    Keeps s (State.scrubUe t a1) := by
  unfold State.scrubUe
  refine Keeps.ite ?_ ?_
  · assumption
  · refine keeps_State_wr ?_
    refine keeps_State_wr ?_
    refine keeps_State_wr ?_
    assumption

theorem keeps_State_scrubWord {s t : State} {a1 : _} (h : Keeps s t) :
    Keeps s (State.scrubWord t a1) := by
  unfold State.scrubWord
  split
  · refine Keeps.same (t := t) ?_ rfl rfl rfl
    assumption
  · extract_lets +onlyGivenNames x1
    clear_value x1
    extract_lets +onlyGivenNames x2
    have hx2 : Keeps s x2 := ?_
    · clear_value x2
      refine keeps_State_recNoteWrite ?_
      refine keeps_State_raise ?_
      assumption
    · unfold x2
      refine keeps_State_scrubUe ?_
      assumption

theorem keeps_maFrameRx {s t : State} {a0 : _} {a1 : _} (h : Keeps s t) :
    Keeps s (maFrameRx a0 a1 t) := by
  unfold maFrameRx
  refine Keeps.ite ?_ ?_
  · assumption
  · refine keeps_State_mpIrq ?_
    refine Keeps.same (t := t) ?_ rfl rfl rfl
    assumption

theorem keeps_execMaFrameRx {s t : State} {a0 : _} {a1 : _} {u : State} (h : Keeps s t)
    (e : execMaFrameRx a0 a1 t = .next u) : Keeps s u := by
  unfold execMaFrameRx at e
  injection e with e
  subst e
  refine keeps_maFrameRx ?_
  assumption

theorem keeps_execMpTelemetry {s t : State} {u : State} (h : Keeps s t)
    (e : execMpTelemetry t = .next u) : Keeps s u := by
  unfold execMpTelemetry at e
  injection e with e
  subst e
  refine keeps_mpTelemetry ?_
  assumption

theorem keeps_State_scrubLine {s t : State} {a1 : _} (h : Keeps s t) :
    Keeps s (State.scrubLine t a1) := by
  unfold State.scrubLine
  extract_lets +onlyGivenNames x1
  clear_value x1
  extract_lets +onlyGivenNames x2
  have hx2 : Keeps s x2 := ?_
  · clear_value x2
    refine Keeps.foldl ?_ (fun u3 y4 hu3 => ?_)
    · assumption
    · refine keeps_State_scrubWord ?_
      assumption
  · unfold x2
    refine Keeps.ite ?_ ?_
    · refine keeps_State_satAdd ?_
      assumption
    · assumption

theorem keeps_dramScrubRead {s t : State} (h : Keeps s t) :
    Keeps s (dramScrubRead t) := by
  unfold dramScrubRead
  refine Keeps.ite ?_ ?_
  · assumption
  · extract_lets +onlyGivenNames x1
    clear_value x1
    extract_lets +onlyGivenNames x2
    have hx2 : Keeps s x2 := ?_
    · clear_value x2
      refine Keeps.ite ?_ ?_
      · refine keeps_State_wr ?_
        assumption
      · extract_lets +onlyGivenNames x3
        have hx3 : Keeps s x3 := ?_
        · clear_value x3
          refine keeps_State_raise ?_
          assumption
        · unfold x3
          refine keeps_State_satAdd ?_
          refine keeps_State_wr ?_
          assumption
    · unfold x2
      refine keeps_State_scrubLine ?_
      refine keeps_State_wr ?_
      assumption

theorem keeps_mpxWdt {s t : State} {a0 : _} {a1 : _} (h : Keeps s t) :
    Keeps s (mpxWdt a0 a1 t) := by
  unfold mpxWdt
  refine Keeps.ite ?_ ?_
  · assumption
  · extract_lets +onlyGivenNames x1
    have hx1 : Keeps s x1 := ?_
    · clear_value x1
      refine Keeps.ite ?_ ?_
      · refine Keeps.same (t := x1) ?_ rfl rfl rfl
        assumption
      · assumption
    · unfold x1
      refine keeps_State_wr ?_
      assumption

theorem keeps_execMpxWdt {s t : State} {a0 : _} {a1 : _} {u : State} (h : Keeps s t)
    (e : execMpxWdt a0 a1 t = .next u) : Keeps s u := by
  unfold execMpxWdt at e
  injection e with e
  subst e
  refine keeps_State_arrive (fun u1 hu1 => ?_) ?_
  · refine keeps_mpxWdt ?_
    assumption
  · assumption

theorem keeps_State_setShed {s t : State} {a1 : _} (h : Keeps s t) :
    Keeps s (State.setShed t a1) := by
  unfold State.setShed
  extract_lets +onlyGivenNames x1
  clear_value x1
  refine Keeps.ite ?_ ?_
  · assumption
  · extract_lets +onlyGivenNames x2
    clear_value x2
    extract_lets +onlyGivenNames x3
    have hx3 : Keeps s x3 := ?_
    · clear_value x3
      refine keeps_State_raise ?_
      assumption
    · unfold x3
      refine keeps_State_recNoteWrite ?_
      refine keeps_State_wr ?_
      assumption

theorem keeps_mpWdtExpiry {s t : State} (h : Keeps s t) :
    Keeps s (mpWdtExpiry t) := by
  unfold mpWdtExpiry
  refine Keeps.ite ?_ ?_
  · refine keeps_State_resetModule ?_
    refine keeps_State_enterSafe ?_
    assumption
  · assumption

theorem keeps_mpxM2lCmd {s t : State} {a0 : _} {a1 : _} (h : Keeps s t) :
    Keeps s (mpxM2lCmd a0 a1 t) := by
  unfold mpxM2lCmd
  refine Keeps.ite ?_ ?_
  · extract_lets +onlyGivenNames x1
    have hx1 : Keeps s x1 := ?_
    · clear_value x1
      refine keeps_State_raise ?_
      assumption
    · unfold x1
      refine keeps_State_wr ?_
      refine keeps_State_wr ?_
      assumption
  · assumption

theorem keeps_execMpxM2lCmd {s t : State} {a0 : _} {a1 : _} {u : State} (h : Keeps s t)
    (e : execMpxM2lCmd a0 a1 t = .next u) : Keeps s u := by
  unfold execMpxM2lCmd at e
  injection e with e
  subst e
  refine keeps_State_arrive (fun u1 hu1 => ?_) ?_
  · refine keeps_mpxM2lCmd ?_
    assumption
  · assumption

theorem keeps_istLbistSelect {s t : State} (h : Keeps s t) :
    Keeps s (istLbistSelect t) := by
  unfold istLbistSelect
  refine Keeps.ite ?_ ?_
  · refine Keeps.same (t := t) ?_ rfl rfl rfl
    assumption
  · assumption

theorem keeps_execIstLbistSelect {s t : State} {u : State} (h : Keeps s t)
    (e : execIstLbistSelect t = .next u) : Keeps s u := by
  unfold execIstLbistSelect at e
  injection e with e
  subst e
  refine keeps_istLbistSelect ?_
  assumption

theorem keeps_State_mailSend {s t : State} {a1 : _} {a2 : _} (h : Keeps s t) :
    Keeps s (State.mailSend t a1 a2) := by
  unfold State.mailSend
  refine Keeps.ite ?_ ?_
  · refine Keeps.same (t := t) ?_ rfl rfl rfl
    assumption
  · extract_lets +onlyGivenNames x1
    clear_value x1
    extract_lets +onlyGivenNames x2
    have hx2 : Keeps s x2 := ?_
    · clear_value x2
      refine keeps_State_raise ?_
      assumption
    · unfold x2
      refine keeps_State_wr ?_
      refine keeps_State_wr ?_
      refine keeps_State_setReg ?_
      assumption

theorem keeps_execIstOffpulseEnd {s t : State} {u : State} (h : Keeps s t)
    (e : execIstOffpulseEnd t = .next u) : Keeps s u := by
  unfold execIstOffpulseEnd at e
  injection e with e
  subst e
  refine keeps_istOffpulseEnd ?_
  assumption

theorem keeps_mpLoadWindow {s t : State} {a0 : _} (h : Keeps s t) :
    Keeps s (mpLoadWindow a0 t) := by
  unfold mpLoadWindow
  refine Keeps.ite ?_ ?_
  · assumption
  · extract_lets +onlyGivenNames x1
    clear_value x1
    extract_lets +onlyGivenNames x2
    have hx2 : Keeps s x2 := ?_
    · clear_value x2
      extract_lets +onlyGivenNames x3
      clear_value x3
      extract_lets +onlyGivenNames x4
      clear_value x4
      extract_lets +onlyGivenNames x5
      clear_value x5
      extract_lets +onlyGivenNames x6
      have hx6 : Keeps s x6 := ?_
      · clear_value x6
        refine Keeps.ite ?_ ?_
        · refine keeps_State_setShed ?_
          assumption
        · refine Keeps.ite ?_ ?_
          · refine keeps_State_setShed ?_
            assumption
          · assumption
      · unfold x6
        refine Keeps.same (t := x2) ?_ rfl rfl rfl
        assumption
    · unfold x2
      refine keeps_State_wr ?_
      assumption

theorem keeps_execMpLoadWindow {s t : State} {a0 : _} {u : State} (h : Keeps s t)
    (e : execMpLoadWindow a0 t = .next u) : Keeps s u := by
  unfold execMpLoadWindow at e
  injection e with e
  subst e
  refine keeps_mpLoadWindow ?_
  assumption

theorem keeps_calAgeCheck {s t : State} (h : Keeps s t) :
    Keeps s (calAgeCheck t) := by
  unfold calAgeCheck
  refine Keeps.ite ?_ ?_
  · assumption
  · extract_lets +onlyGivenNames x1
    have hx1 : Keeps s x1 := ?_
    · clear_value x1
      refine keeps_State_calShow ?_
      refine Keeps.same (t := x1) ?_ rfl rfl rfl
      assumption
    · unfold x1
      refine Keeps.foldl ?_ (fun u2 y3 hu2 => ?_)
      · assumption
      · refine Keeps.ite ?_ ?_
        · refine keeps_State_calJudge ?_
          assumption
        · assumption

theorem keeps_execCalAgeCheck {s t : State} {u : State} (h : Keeps s t)
    (e : execCalAgeCheck t = .next u) : Keeps s u := by
  unfold execCalAgeCheck at e
  injection e with e
  subst e
  refine keeps_calAgeCheck ?_
  assumption

theorem keeps_State_mailAck {s t : State} {a1 : _} (h : Keeps s t) :
    Keeps s (State.mailAck t a1) := by
  unfold State.mailAck
  extract_lets +onlyGivenNames x1
  have hx1 : Keeps s x1 := ?_
  · clear_value x1
    split
    · assumption
    · refine Keeps.ite ?_ ?_
      · refine keeps_State_mailSend ?_
        refine Keeps.same (t := x1) ?_ rfl rfl rfl
        assumption
      · assumption
  · unfold x1
    refine keeps_State_wr ?_
    assumption

theorem keeps_mpxL2mCmd {s t : State} {a0 : _} {a1 : _} (h : Keeps s t) :
    Keeps s (mpxL2mCmd a0 a1 t) := by
  unfold mpxL2mCmd
  extract_lets +onlyGivenNames x1
  clear_value x1
  extract_lets +onlyGivenNames x2
  have hx2 : Keeps s x2 := ?_
  · clear_value x2
    refine Keeps.ite ?_ ?_
    · assumption
    · extract_lets +onlyGivenNames x3
      have hx3 : Keeps s x3 := ?_
      · clear_value x3
        refine Keeps.ite ?_ ?_
        · refine keeps_State_recNoteWrite ?_
          assumption
        · refine Keeps.ite ?_ ?_
          · refine keeps_State_mailSend ?_
            assumption
          · refine keeps_State_mailSend ?_
            assumption
      · unfold x3
        refine keeps_State_wr ?_
        refine keeps_State_mpIrq ?_
        assumption
  · unfold x2
    refine keeps_State_wr ?_
    refine keeps_State_wr ?_
    assumption

theorem keeps_calIslandDone {s t : State} {a0 : _} (h : Keeps s t) :
    Keeps s (calIslandDone a0 t) := by
  unfold calIslandDone
  refine Keeps.ite ?_ ?_
  · extract_lets +onlyGivenNames x1
    clear_value x1
    extract_lets +onlyGivenNames x2
    have hx2 : Keeps s x2 := ?_
    · clear_value x2
      refine keeps_State_calDone ?_
      assumption
    · unfold x2
      refine Keeps.same (t := t) ?_ rfl rfl rfl
      assumption
  · assumption

theorem keeps_execCalIslandDone {s t : State} {a0 : _} {u : State} (h : Keeps s t)
    (e : execCalIslandDone a0 t = .next u) : Keeps s u := by
  unfold execCalIslandDone at e
  injection e with e
  subst e
  refine keeps_calIslandDone ?_
  assumption

theorem keeps_execMpWdtExpiry {s t : State} {u : State} (h : Keeps s t)
    (e : execMpWdtExpiry t = .next u) : Keeps s u := by
  unfold execMpWdtExpiry at e
  injection e with e
  subst e
  refine keeps_mpWdtExpiry ?_
  assumption

theorem keeps_execDramScrubRead {s t : State} {u : State} (h : Keeps s t)
    (e : execDramScrubRead t = .next u) : Keeps s u := by
  unfold execDramScrubRead at e
  injection e with e
  subst e
  refine keeps_dramScrubRead ?_
  assumption

theorem keeps_execMpxL2mCmd {s t : State} {a0 : _} {a1 : _} {u : State} (h : Keeps s t)
    (e : execMpxL2mCmd a0 a1 t = .next u) : Keeps s u := by
  unfold execMpxL2mCmd at e
  injection e with e
  subst e
  refine keeps_State_arrive (fun u1 hu1 => ?_) ?_
  · refine keeps_mpxL2mCmd ?_
    assumption
  · assumption

theorem keeps_State_imgTouched {s t : State} {a1 : _} {a2 : _} (h : Keeps s t) :
    Keeps s (State.imgTouched t a1 a2) := by
  unfold State.imgTouched
  split
  · assumption
  · refine Keeps.ite ?_ ?_
    · refine keeps_State_setReg ?_
      refine keeps_State_wr ?_
      assumption
    · assumption

theorem keeps_State_lockWrite {s t : State} {a1 : _} {a2 : _} (h : Keeps s t) :
    Keeps s (State.lockWrite t a1 a2) := by
  unfold State.lockWrite
  refine Keeps.ite ?_ ?_
  · refine keeps_State_setPhase ?_
    assumption
  · assumption

theorem keeps_imgLoadStart {s t : State} {a0 : _} {a1 : _} (h : Keeps s t) :
    Keeps s (imgLoadStart a0 a1 t) := by
  unfold imgLoadStart
  refine Keeps.ite ?_ ?_
  · extract_lets +onlyGivenNames x1
    have hx1 : Keeps s x1 := ?_
    · clear_value x1
      refine keeps_State_setReg ?_
      refine keeps_State_wr ?_
      assumption
    · unfold x1
      refine keeps_State_wr ?_
      refine keeps_State_wr ?_
      refine keeps_State_wr ?_
      assumption
  · assumption

theorem keeps_State_plainWrite {s t : State} {a1 : _} {a2 : _} {a3 : _} (h : Keeps s t) :
    Keeps s (State.plainWrite t a1 a2 a3) := by
  unfold State.plainWrite
  split
  · assumption
  · refine Keeps.ite ?_ ?_
    · refine keeps_State_setReg ?_
      assumption
    · assumption

theorem keeps_State_writeSys {s t : State} {a1 : _} {a2 : _} {a3 : _} (h : Keeps s t) :
    Keeps s (State.writeSys t a1 a2 a3) := by
  unfold State.writeSys
  refine Keeps.ite ?_ ?_
  · refine keeps_State_lockWrite ?_
    assumption
  · refine Keeps.ite ?_ ?_
    · refine keeps_sysReset ?_
      assumption
    · refine Keeps.ite ?_ ?_
      · refine keeps_sysBootConfirm ?_
        assumption
      · refine Keeps.ite ?_ ?_
        · refine keeps_sysClkWrite ?_
          assumption
        · refine Keeps.ite ?_ ?_
          · refine keeps_imgLoadStart ?_
            assumption
          · refine Keeps.ite ?_ ?_
            · refine keeps_pwrPlWrite ?_
              assumption
            · refine Keeps.ite ?_ ?_
              · refine keeps_pwrMpwake ?_
                assumption
              · refine keeps_State_plainWrite ?_
                assumption

theorem keeps_State_writeCore {s t : State} {a1 : _} {a2 : _} {a3 : _} (h : Keeps s t) :
    Keeps s (State.writeCore t a1 a2 a3) := by
  unfold State.writeCore
  refine Keeps.ite ?_ ?_
  · refine keeps_laneEccClr ?_
    assumption
  · refine Keeps.ite ?_ ?_
    · refine keeps_laneSafe ?_
      assumption
    · refine Keeps.ite ?_ ?_
      · refine keeps_cordClr ?_
        assumption
      · refine Keeps.ite ?_ ?_
        · refine keeps_flueClr ?_
          assumption
        · refine Keeps.ite ?_ ?_
          · split
            · refine keeps_ringCtxRead ?_
              assumption
            · refine keeps_ringCtxWrite ?_
              assumption
            · assumption
          · refine keeps_State_plainWrite ?_
            assumption

theorem keeps_State_writePart {s t : State} {a1 : _} {a2 : _} {a3 : _} (h : Keeps s t) :
    Keeps s (State.writePart t a1 a2 a3) := by
  unfold State.writePart
  refine Keeps.ite ?_ ?_
  · refine keeps_partAbandon ?_
    assumption
  · refine Keeps.ite ?_ ?_
    · refine keeps_partMonClr ?_
      assumption
    · refine Keeps.ite ?_ ?_
      · refine keeps_lockRelease ?_
        assumption
      · refine keeps_State_plainWrite ?_
        assumption

theorem keeps_State_writeTb {s t : State} {a1 : _} {a2 : _} {a3 : _} (h : Keeps s t) :
    Keeps s (State.writeTb t a1 a2 a3) := by
  unfold State.writeTb
  refine Keeps.ite ?_ ?_
  · refine keeps_State_tbCmdWrite ?_
    assumption
  · refine Keeps.ite ?_ ?_
    · refine keeps_State_tbStage ?_
      assumption
    · extract_lets +onlyGivenNames x1
      have hx1 : Keeps s x1 := ?_
      · clear_value x1
        split
        · refine keeps_ptoSetupRearm ?_
          assumption
        · assumption
      · unfold x1
        refine keeps_State_plainWrite ?_
        assumption

theorem keeps_State_writeNet {s t : State} {a1 : _} {a2 : _} {a3 : _} (h : Keeps s t) :
    Keeps s (State.writeNet t a1 a2 a3) := by
  unfold State.writeNet
  refine Keeps.ite ?_ ?_
  · refine keeps_crClr ?_
    assumption
  · refine Keeps.ite ?_ ?_
    · refine keeps_crClr ?_
      assumption
    · refine Keeps.ite ?_ ?_
      · refine keeps_crClr ?_
        assumption
      · refine Keeps.ite ?_ ?_
        · refine keeps_cbClr ?_
          assumption
        · refine Keeps.ite ?_ ?_
          · refine keeps_cbBankDataWrite ?_
            assumption
          · refine Keeps.ite ?_ ?_
            · refine keeps_sigClr ?_
              assumption
            · refine Keeps.ite ?_ ?_
              · refine keeps_gwClr ?_
                assumption
              · refine Keeps.ite ?_ ?_
                · refine keeps_rbClr ?_
                  assumption
                · refine keeps_State_plainWrite ?_
                  assumption

theorem keeps_State_writeField {s t : State} {a1 : _} {a2 : _} {a3 : _} (h : Keeps s t) :
    Keeps s (State.writeField t a1 a2 a3) := by
  unfold State.writeField
  refine Keeps.ite ?_ ?_
  · refine keeps_cycClr ?_
    assumption
  · refine Keeps.ite ?_ ?_
    · refine keeps_fldClr ?_
      assumption
    · refine Keeps.ite ?_ ?_
      · refine keeps_fldAiSyncStatClr ?_
        assumption
      · refine Keeps.ite ?_ ?_
        · refine keeps_safClr ?_
          assumption
        · refine keeps_State_plainWrite ?_
          assumption

theorem keeps_State_writePair {s t : State} {a1 : _} {a2 : _} {a3 : _} (h : Keeps s t) :
    Keeps s (State.writePair t a1 a2 a3) := by
  unfold State.writePair
  refine Keeps.ite ?_ ?_
  · refine keeps_pairJoin ?_
    assumption
  · refine Keeps.ite ?_ ?_
    · refine keeps_pairClr ?_
      assumption
    · refine Keeps.ite ?_ ?_
      · refine keeps_recNoteCmd ?_
        assumption
      · refine Keeps.ite ?_ ?_
        · refine keeps_recClr ?_
          assumption
        · refine Keeps.ite ?_ ?_
          · refine keeps_istClr ?_
            assumption
          · refine keeps_State_plainWrite ?_
            assumption

theorem keeps_State_writeMpx {s t : State} {a1 : _} {a2 : _} {a3 : _} (h : Keeps s t) :
    Keeps s (State.writeMpx t a1 a2 a3) := by
  unfold State.writeMpx
  refine Keeps.ite ?_ ?_
  · refine keeps_mpxWdt ?_
    assumption
  · refine Keeps.ite ?_ ?_
    · assumption
    · refine Keeps.ite ?_ ?_
      · refine keeps_mpxL2mCmd ?_
        assumption
      · refine Keeps.ite ?_ ?_
        · refine keeps_mpxM2lCmd ?_
          assumption
        · refine Keeps.ite ?_ ?_
          · refine Keeps.ite ?_ ?_
            · assumption
            · refine keeps_State_mailAck ?_
              assumption
          · refine keeps_State_plainWrite ?_
            assumption

theorem keeps_State_setupWrite {s t : State} {a1 : _} {a2 : _} {a3 : _} (h : Keeps s t) :
    Keeps s (State.setupWrite t a1 a2 a3) := by
  unfold State.setupWrite
  extract_lets +onlyGivenNames x1
  have hx1 : Keeps s x1 := ?_
  · clear_value x1
    split
    · refine keeps_State_writeSys ?_
      assumption
    · refine keeps_State_writeSys ?_
      assumption
    · refine keeps_State_writeCore ?_
      assumption
    · refine keeps_State_writeCore ?_
      assumption
    · refine keeps_State_writeCore ?_
      assumption
    · refine keeps_State_writePart ?_
      assumption
    · refine keeps_State_writeTb ?_
      assumption
    · refine keeps_State_writeNet ?_
      assumption
    · refine keeps_State_writeNet ?_
      assumption
    · refine keeps_State_writeNet ?_
      assumption
    · refine keeps_State_writeNet ?_
      assumption
    · refine keeps_State_writeNet ?_
      assumption
    · refine keeps_State_writeField ?_
      assumption
    · refine keeps_State_writeField ?_
      assumption
    · refine keeps_State_writeField ?_
      assumption
    · refine keeps_State_writePair ?_
      assumption
    · refine keeps_State_writePair ?_
      assumption
    · refine keeps_State_writePair ?_
      assumption
    · refine keeps_State_writeMpx ?_
      assumption
    · refine keeps_State_plainWrite ?_
      assumption
  · unfold x1
    refine keeps_State_imgTouched ?_
    assumption

theorem keeps_heldSetupWriteApply {s t : State} (h : Keeps s t) :
    Keeps s (heldSetupWriteApply t) := by
  unfold heldSetupWriteApply
  refine Keeps.ite ?_ ?_
  · assumption
  · split
    · assumption
    · refine keeps_State_setupWrite ?_
      refine Keeps.same (t := t) ?_ rfl rfl rfl
      assumption

theorem keeps_State_setupStore {s t : State} {a1 : _} {a2 : _} {a3 : _} (h : Keeps s t) :
    Keeps s (State.setupStore t a1 a2 a3) := by
  unfold State.setupStore
  refine Keeps.ite ?_ ?_
  · assumption
  · refine keeps_State_arrive (fun u1 hu1 => ?_) ?_
    · refine keeps_State_setupWrite ?_
      assumption
    · assumption

theorem keeps_execImgLoadStart {s t : State} {a0 : _} {a1 : _} {u : State} (h : Keeps s t)
    (e : execImgLoadStart a0 a1 t = .next u) : Keeps s u := by
  unfold execImgLoadStart at e
  injection e with e
  subst e
  refine keeps_State_setupStore ?_
  assumption

theorem keeps_setupRegWrite {s t : State} {a0 : _} {a1 : _} {a2 : _} (h : Keeps s t) :
    Keeps s (setupRegWrite a0 a1 a2 t) := by
  unfold setupRegWrite
  refine Keeps.ite ?_ ?_
  · assumption
  · refine keeps_State_setupStore ?_
    assumption

theorem keeps_execSetupRegWrite {s t : State} {a0 : _} {a1 : _} {a2 : _} {u : State} (h : Keeps s t)
    (e : execSetupRegWrite a0 a1 a2 t = .next u) : Keeps s u := by
  unfold execSetupRegWrite at e
  injection e with e
  subst e
  refine keeps_setupRegWrite ?_
  assumption

theorem keeps_setupLockRequest {s t : State} {a0 : _} {a1 : _} {a2 : _} (h : Keeps s t) :
    Keeps s (setupLockRequest a0 a1 a2 t) := by
  unfold setupLockRequest
  extract_lets +onlyGivenNames x1
  clear_value x1
  refine Keeps.ite ?_ ?_
  · assumption
  · refine Keeps.ite ?_ ?_
    · refine keeps_State_setupStore ?_
      refine keeps_State_setHart ?_
      assumption
    · refine keeps_State_setupStore ?_
      assumption

theorem keeps_State_setupRead {s t : State} {a1 : _} {a2 : _} (h : Keeps s t) :
    Keeps s (State.setupRead t a1 a2).2 := by
  refine KeepsS.out ?_
  unfold State.setupRead
  refine KeepsS.ite ?_ ?_
  · extract_lets +onlyGivenNames x1
    have hx1 : Keeps s x1 := ?_
    · clear_value x1
      refine KeepsS.pair ?_
      assumption
    · unfold x1
      refine keeps_State_ntLatch ?_
      assumption
  · refine KeepsS.ite ?_ ?_
    · refine KeepsS.pair ?_
      refine Keeps.same (t := t) ?_ rfl rfl rfl
      assumption
    · refine KeepsS.ite ?_ ?_
      · refine KeepsS.pair ?_
        assumption
      · refine KeepsS.ite ?_ ?_
        · refine KeepsS.pair ?_
          assumption
        · refine KeepsS.ite ?_ ?_
          · refine KeepsS.pair ?_
            assumption
          · refine KeepsS.ite ?_ ?_
            · refine KeepsS.pair ?_
              assumption
            · refine KeepsS.ite ?_ ?_
              · refine KeepsS.pair ?_
                assumption
              · refine KeepsS.ite ?_ ?_
                · refine ⟨?_⟩
                  refine keeps_State_lockRead ?_
                  assumption
                · refine KeepsS.ite ?_ ?_
                  · refine KeepsS.pair ?_
                    assumption
                  · split
                    · refine KeepsS.pair ?_
                      assumption
                    · refine KeepsS.pair ?_
                      assumption

theorem keeps_execSetupLockRequest {s t : State} {a0 : _} {a1 : _} {a2 : _} {u : State} (h : Keeps s t)
    (e : execSetupLockRequest a0 a1 a2 t = .next u) : Keeps s u := by
  unfold execSetupLockRequest at e
  injection e with e
  subst e
  refine keeps_setupLockRequest ?_
  assumption

theorem keeps_execHeldSetupWriteApply {s t : State} {u : State} (h : Keeps s t)
    (e : execHeldSetupWriteApply t = .next u) : Keeps s u := by
  unfold execHeldSetupWriteApply at e
  injection e with e
  subst e
  refine keeps_heldSetupWriteApply ?_
  assumption

theorem keeps_State_imgApplyWords {s t : State} {a1 : _} {a2 : _} (h : Keeps s t) :
    Keeps s (State.imgApplyWords t a1 a2) := by
  induction a2 generalizing t a1
  · unfold State.imgApplyWords
    assumption
  · rename_i ih
    unfold State.imgApplyWords
    apply ih
    refine keeps_State_setupWrite ?_
    assumption

theorem keeps_State_imgPut {s t : State} {a1 : _} {a2 : _} {a3 : _} (h : Keeps s t) :
    Keeps s (State.imgPut t a1 a2 a3) := by
  unfold State.imgPut
  refine Keeps.ite ?_ ?_
  · refine keeps_State_busWrite ?_
    assumption
  · assumption

theorem keeps_State_imgApplyZero {s t : State} {a1 : _} {a2 : _} (h : Keeps s t) :
    Keeps s (State.imgApplyZero t a1 a2).2 := by
  fun_induction State.imgApplyZero t a1 a2 with
  | case1 => exact h
  | case2 _ _ _ _ _ _ _ _ _ ih => exact ih (keeps_State_imgPut h)
  | case3 => exact h

theorem keeps_State_imgFail {s t : State} {a1 : _} {a2 : _} (h : Keeps s t) :
    Keeps s (State.imgFail t a1 a2) := by
  unfold State.imgFail
  extract_lets +onlyGivenNames x1
  have hx1 : Keeps s x1.2 := ?_
  · clear_value x1
    extract_lets +onlyGivenNames x2
    have hx2 : Keeps s x2.2 := ?_
    · clear_value x2
      refine keeps_State_wr ?_
      refine keeps_State_wr ?_
      refine keeps_State_wr ?_
      assumption
    · unfold x2
      refine KeepsS.out ?_
      split
      · refine KeepsS.pair ?_
        assumption
      · refine KeepsS.pair ?_
        assumption
  · unfold x1
    refine keeps_State_draw ?_
    assumption

theorem keeps_State_imgApplyParts {s t : State} {a1 : _} {a2 : _} {a3 : _} (h : Keeps s t) :
    Keeps s (State.imgApplyParts t a1 a2 a3).2 := by
  induction a3 generalizing t a1 a2
  · unfold State.imgApplyParts
    dsimp -zeta only
    assumption
  · rename_i ih
    unfold State.imgApplyParts
    refine KeepsS.out ?_
    refine KeepsS.ite ?_ ?_
    · refine ⟨?_⟩
      apply ih
      assumption
    · refine KeepsS.ite ?_ ?_
      · refine KeepsS.pair ?_
        assumption
      · refine ⟨?_⟩
        apply ih
        refine keeps_State_imgPut ?_
        assumption

theorem keeps_State_imgApplyRegs {s t : State} {a1 : _} (h : Keeps s t) :
    Keeps s (State.imgApplyRegs t a1).2 := by
  induction a1 generalizing t
  · unfold State.imgApplyRegs
    dsimp -zeta only
    assumption
  · rename_i ih
    unfold State.imgApplyRegs
    refine KeepsS.out ?_
    refine KeepsS.ite ?_ ?_
    · refine KeepsS.pair ?_
      assumption
    · refine ⟨?_⟩
      apply ih
      refine keeps_State_setupWrite ?_
      assumption

theorem keeps_State_imgApplyBank {s t : State} {a1 : _} {a2 : _} {a3 : _} (h : Keeps s t) :
    Keeps s (State.imgApplyBank t a1 a2 a3) := by
  induction a3 generalizing t a1 a2
  · unfold State.imgApplyBank
    assumption
  · rename_i ih
    unfold State.imgApplyBank
    apply ih
    refine keeps_State_setCbWord ?_
    assumption

theorem keeps_State_imgAccept {s t : State} {a1 : _} {a2 : _} {a3 : _} (h : Keeps s t) :
    Keeps s (State.imgAccept t a1 a2 a3) := by
  unfold State.imgAccept
  extract_lets +onlyGivenNames x1
  have hx1 : Keeps s x1 := ?_
  · clear_value x1
    refine keeps_State_wr ?_
    refine keeps_State_wr ?_
    refine keeps_State_wr ?_
    assumption
  · unfold x1
    refine keeps_State_setReg ?_
    refine keeps_State_setReg ?_
    assumption

theorem keeps_State_imgApplyData {s t : State} {a1 : _} {a2 : _} (h : Keeps s t) :
    Keeps s (State.imgApplyData t a1 a2).2 := by
  refine KeepsS.out ?_
  unfold State.imgApplyData
  extract_lets +onlyGivenNames x1
  clear_value x1
  extract_lets +onlyGivenNames x2
  clear_value x2
  refine KeepsS.ite ?_ ?_
  · refine KeepsS.pair ?_
    assumption
  · refine KeepsS.pair ?_
    refine keeps_State_imgPut ?_
    assumption

theorem keeps_State_imgApplyRings {s t : State} {a1 : _} {a2 : _} (h : Keeps s t) :
    Keeps s (State.imgApplyRings t a1 a2) := by
  induction a1 generalizing t a2
  · unfold State.imgApplyRings
    assumption
  · rename_i ih
    unfold State.imgApplyRings
    extract_lets +onlyGivenNames x1
    have hx1 : Keeps s x1 := ?_
    · clear_value x1
      apply ih
      refine keeps_ringCtxWrite ?_
      assumption
    · unfold x1
      refine Keeps.foldl ?_ (fun u2 y3 hu2 => ?_)
      · refine keeps_State_wr ?_
        assumption
      · refine keeps_State_setReg ?_
        assumption

theorem keeps_State_imgApplyPart {s t : State} {a1 : _} (h : Keeps s t) :
    Keeps s (State.imgApplyPart t a1).2 := by
  refine KeepsS.out ?_
  unfold State.imgApplyPart
  refine KeepsS.ite ?_ ?_
  · refine KeepsS.pair ?_
    assumption
  · extract_lets +onlyGivenNames x1
    have hx1 : Keeps s x1 := ?_
    · clear_value x1
      extract_lets +onlyGivenNames x2
      have hx2 : Keeps s x2 := ?_
      · clear_value x2
        extract_lets +onlyGivenNames x3
        have hx3 : Keeps s x3 := ?_
        · clear_value x3
          refine KeepsS.pair ?_
          refine keeps_State_imgApplyRings ?_
          assumption
        · unfold x3
          refine keeps_State_imgApplyWords ?_
          assumption
      · unfold x2
        refine keeps_State_imgApplyWords ?_
        assumption
    · unfold x1
      refine keeps_State_imgApplyWords ?_
      assumption

theorem keeps_State_imgApplyBanks {s t : State} {a1 : _} (h : Keeps s t) :
    Keeps s (State.imgApplyBanks t a1) := by
  unfold State.imgApplyBanks
  extract_lets +onlyGivenNames x1
  have hx1 : Keeps s x1 := ?_
  · clear_value x1
    split
    · assumption
    · refine keeps_State_cbSet ?_
      refine keeps_State_imgApplyBank ?_
      assumption
  · unfold x1
    refine keeps_State_imgApplyBank ?_
    assumption

theorem keeps_State_imgApply {s t : State} {a1 : _} {a2 : _} (h : Keeps s t) :
    Keeps s (State.imgApply t a1 a2).2 := by
  refine KeepsS.out ?_
  unfold State.imgApply
  extract_lets +onlyGivenNames x1
  clear_value x1
  extract_lets +onlyGivenNames x2
  clear_value x2
  split
  · refine ⟨?_⟩
    refine keeps_State_imgApplyRegs ?_
    assumption
  · refine KeepsS.pair ?_
    refine keeps_State_imgApplyWords ?_
    assumption
  · refine ⟨?_⟩
    refine keeps_State_imgApplyZero ?_
    assumption
  · refine ⟨?_⟩
    refine keeps_State_imgApplyData ?_
    assumption
  · refine ⟨?_⟩
    refine keeps_State_imgApplyPart ?_
    assumption
  · refine KeepsS.pair ?_
    refine keeps_State_imgApplyBanks ?_
    assumption
  · refine KeepsS.ite ?_ ?_
    · refine KeepsS.pair ?_
      assumption
    · refine KeepsS.pair ?_
      refine keeps_State_imgPut ?_
      assumption
  · refine ⟨?_⟩
    refine keeps_State_imgApplyParts ?_
    assumption
  · refine ⟨?_⟩
    refine keeps_State_imgApplyParts ?_
    assumption
  · extract_lets +onlyGivenNames x3
    have hx3 : Keeps s x3 := ?_
    · clear_value x3
      refine KeepsS.pair ?_
      refine keeps_State_imgApplyWords ?_
      assumption
    · unfold x3
      refine keeps_State_imgApplyWords ?_
      refine keeps_State_imgApplyWords ?_
      assumption
  · refine KeepsS.pair ?_
    assumption

theorem keeps_State_imgApplyAll {s t : State} {a1 : _} {a2 : _} (h : Keeps s t) :
    Keeps s (State.imgApplyAll t a1 a2).2 := by
  induction a2 generalizing t with
  | nil => exact h
  | cons x l ih =>
    unfold State.imgApplyAll
    have h1 : Keeps s (State.imgApply t a1 x).2 := keeps_State_imgApply h
    extract_lets r
    split
    · exact ih h1
    · exact h1

theorem keeps_imgLoadEnd {s t : State} (h : Keeps s t) :
    Keeps s (imgLoadEnd t) := by
  unfold imgLoadEnd
  refine Keeps.ite ?_ ?_
  · assumption
  · extract_lets +onlyGivenNames x1
    have hx1 : Keeps s x1.2 := ?_
    · clear_value x1
      extract_lets +onlyGivenNames x2
      clear_value x2
      extract_lets +onlyGivenNames x3
      have hx3 : Keeps s x3.2 := ?_
      · clear_value x3
        refine Keeps.ite ?_ ?_
        · refine keeps_State_imgFail ?_
          assumption
        · extract_lets +onlyGivenNames x4
          clear_value x4
          refine Keeps.ite ?_ ?_
          · refine keeps_State_imgFail ?_
            assumption
          · extract_lets +onlyGivenNames x5
            have hx5 : Keeps s x5.2 := ?_
            · clear_value x5
              split
              · refine keeps_State_imgFail ?_
                assumption
              · refine keeps_State_imgAccept ?_
                assumption
            · unfold x5
              refine keeps_State_imgApplyAll ?_
              assumption
      · unfold x3
        refine keeps_State_readCheck ?_
        assumption
    · unfold x1
      refine keeps_State_draw ?_
      assumption

theorem keeps_execImgLoadEnd {s t : State} {u : State} (h : Keeps s t)
    (e : execImgLoadEnd t = .next u) : Keeps s u := by
  unfold execImgLoadEnd at e
  injection e with e
  subst e
  refine keeps_imgLoadEnd ?_
  assumption

theorem keeps_State_sendReply {s t : State} {a1 : _} (h : Keeps s t) :
    Keeps s (State.sendReply t a1) := by
  unfold State.sendReply
  refine Keeps.same (t := t) ?_ rfl rfl rfl
  assumption

theorem keeps_State_answer {s t : State} {a1 : _} {a2 : _} {a3 : _} {a4 : _} {a5 : _} (h : Keeps s t) :
    Keeps s (State.answer t a1 a2 a3 a4 a5) := by
  unfold State.answer
  refine keeps_State_sendReply ?_
  assumption

theorem keeps_State_maint {s t : State} {a1 : _} {a2 : _} {a3 : _} {a4 : _} {a5 : _} {a6 : State → State}
    (hf : ∀ u, Keeps s u → Keeps s (a6 u)) (h : Keeps s t) : Keeps s (State.maint t a1 a2 a3 a4 a5 a6) := by
  unfold State.maint
  split
  · exact h
  extract_lets +onlyGivenNames x1
  have h1 : Keeps s x1 := keeps_State_mpIrq h
  split
  · exact h1
  split
  · exact keeps_State_sendReply h1
  split
  · exact keeps_State_answer h1
  split
  · exact keeps_State_answer h1
  extract_lets +onlyGivenNames c2 x2
  have h2 : Keeps s x2 := by
    unfold x2
    split
    · exact Keeps.same (t := x1) h1 rfl rfl rfl
    · exact h1
  split
  · exact keeps_State_answer h2
  split
  · exact hf _ (keeps_State_raise (keeps_State_recNoteWrite h2))
  · exact hf _ h2

theorem keeps_fwWrite {s t : State} {a0 : _} {a1 : _} {a2 : _} {a3 : _} (h : Keeps s t) :
    Keeps s (fwWrite a0 a1 a2 a3 t) := by
  unfold fwWrite
  extract_lets +onlyGivenNames x1
  clear_value x1
  refine keeps_State_maint (fun u2 hu2 => ?_) ?_
  · refine keeps_State_answer ?_
    refine keeps_State_setBytes ?_
    assumption
  · assumption

theorem keeps_State_unlockFailed {s t : State} (h : Keeps s t) :
    Keeps s (State.unlockFailed t) := by
  unfold State.unlockFailed
  extract_lets +onlyGivenNames x1
  clear_value x1
  refine Keeps.ite ?_ ?_
  · refine Keeps.same (t := t) ?_ rfl rfl rfl
    assumption
  · refine Keeps.same (t := t) ?_ rfl rfl rfl
    assumption

theorem keeps_unlock {s t : State} {a0 : _} {a1 : _} {a2 : _} {a3 : _} (h : Keeps s t) :
    Keeps s (unlock a0 a1 a2 a3 t) := by
  unfold unlock
  refine keeps_State_maint (fun u1 hu1 => ?_) ?_
  · extract_lets +onlyGivenNames x2
    clear_value x2
    extract_lets +onlyGivenNames x3
    clear_value x3
    extract_lets +onlyGivenNames x4
    have hx4 : Keeps s x4 := ?_
    · clear_value x4
      refine Keeps.ite ?_ ?_
      · refine keeps_State_answer ?_
        refine keeps_State_wr ?_
        refine Keeps.same (t := x4) ?_ rfl rfl rfl
        assumption
      · refine keeps_State_answer ?_
        refine Keeps.ite ?_ ?_
        · assumption
        · refine keeps_State_unlockFailed ?_
          assumption
    · unfold x4
      refine Keeps.same (t := u1) ?_ rfl rfl rfl
      assumption
  · assumption

theorem keeps_execUnlock {s t : State} {a0 : _} {a1 : _} {a2 : _} {a3 : _} {u : State} (h : Keeps s t)
    (e : execUnlock a0 a1 a2 a3 t = .next u) : Keeps s u := by
  unfold execUnlock at e
  injection e with e
  subst e
  refine keeps_unlock ?_
  assumption

theorem keeps_debugEn {s t : State} {a0 : _} {a1 : _} (h : Keeps s t) :
    Keeps s (debugEn a0 a1 t) := by
  unfold debugEn
  refine keeps_State_maint (fun u1 hu1 => ?_) ?_
  · refine keeps_State_answer ?_
    refine Keeps.ite ?_ ?_
    · refine keeps_State_wr ?_
      refine keeps_State_wr ?_
      assumption
    · assumption
  · assumption

theorem keeps_execDebugEn {s t : State} {a0 : _} {a1 : _} {u : State} (h : Keeps s t)
    (e : execDebugEn a0 a1 t = .next u) : Keeps s u := by
  unfold execDebugEn at e
  injection e with e
  subst e
  refine keeps_debugEn ?_
  assumption

theorem keeps_State_readRegs {s t : State} {a1 : _} {a2 : _} (h : Keeps s t) :
    Keeps s (State.readRegs t a1 a2).2 := by
  induction a2 generalizing t a1
  · unfold State.readRegs
    dsimp -zeta only
    assumption
  · rename_i ih
    unfold State.readRegs
    refine KeepsS.out ?_
    extract_lets +onlyGivenNames x8
    have hx8 : Keeps s x8.2 := ?_
    · clear_value x8
      extract_lets +onlyGivenNames x9
      have hx9 : Keeps s x9.2 := ?_
      · clear_value x9
        refine KeepsS.pair ?_
        assumption
      · unfold x9
        apply ih
        assumption
    · unfold x8
      refine keeps_State_setupRead ?_
      assumption

theorem keeps_readReg {s t : State} {a0 : _} {a1 : _} {a2 : _} (h : Keeps s t) :
    Keeps s (readReg a0 a1 a2 t) := by
  unfold readReg
  refine keeps_State_maint (fun u1 hu1 => ?_) ?_
  · extract_lets +onlyGivenNames x2
    have hx2 : Keeps s x2.2 := ?_
    · clear_value x2
      refine keeps_State_answer ?_
      assumption
    · unfold x2
      refine keeps_State_readRegs ?_
      assumption
  · assumption

theorem keeps_execReadReg {s t : State} {a0 : _} {a1 : _} {a2 : _} {u : State} (h : Keeps s t)
    (e : execReadReg a0 a1 a2 t = .next u) : Keeps s u := by
  unfold execReadReg at e
  injection e with e
  subst e
  refine keeps_readReg ?_
  assumption

theorem keeps_maintRecExport {s t : State} {a0 : _} {a1 : _} {a2 : _} (h : Keeps s t) :
    Keeps s (maintRecExport a0 a1 a2 t) := by
  unfold maintRecExport
  extract_lets +onlyGivenNames x1
  clear_value x1
  refine keeps_State_maint (fun u2 hu2 => ?_) ?_
  · refine Keeps.ite ?_ ?_
    · refine keeps_State_answer ?_
      assumption
    · refine keeps_State_answer ?_
      assumption
  · assumption

theorem keeps_maintRecClear {s t : State} {a0 : _} {a1 : _} {a2 : _} (h : Keeps s t) :
    Keeps s (maintRecClear a0 a1 a2 t) := by
  unfold maintRecClear
  extract_lets +onlyGivenNames x1
  clear_value x1
  extract_lets +onlyGivenNames x2
  clear_value x2
  refine keeps_State_maint (fun u3 hu3 => ?_) ?_
  · extract_lets +onlyGivenNames x4
    have hx4 : Keeps s x4 := ?_
    · clear_value x4
      extract_lets +onlyGivenNames x5
      clear_value x5
      refine keeps_State_raise ?_
      refine keeps_State_answer ?_
      assumption
    · unfold x4
      refine keeps_State_recClear ?_
      assumption
  · assumption

theorem keeps_execMaintRecClear {s t : State} {a0 : _} {a1 : _} {a2 : _} {u : State} (h : Keeps s t)
    (e : execMaintRecClear a0 a1 a2 t = .next u) : Keeps s u := by
  unfold execMaintRecClear at e
  injection e with e
  subst e
  refine keeps_maintRecClear ?_
  assumption

theorem keeps_ident {s t : State} {a0 : _} (h : Keeps s t) :
    Keeps s (ident a0 t) := by
  unfold ident
  refine keeps_State_maint (fun u1 hu1 => ?_) ?_
  · refine keeps_State_answer ?_
    assumption
  · assumption

theorem keeps_maintReset {s t : State} {a0 : _} (h : Keeps s t) :
    Keeps s (maintReset a0 t) := by
  unfold maintReset
  refine keeps_State_maint (fun u1 hu1 => ?_) ?_
  · refine keeps_State_resetModule ?_
    refine keeps_State_answer ?_
    assumption
  · assumption

theorem keeps_execMaintReset {s t : State} {a0 : _} {u : State} (h : Keeps s t)
    (e : execMaintReset a0 t = .next u) : Keeps s u := by
  unfold execMaintReset at e
  injection e with e
  subst e
  refine keeps_maintReset ?_
  assumption

theorem keeps_consoleCommand {s t : State} {a0 : _} (h : Keeps s t) :
    Keeps s (consoleCommand a0 t) := by
  unfold consoleCommand
  refine Keeps.ite ?_ ?_
  · assumption
  · extract_lets +onlyGivenNames x1
    have hx1 : Keeps s x1 := ?_
    · clear_value x1
      extract_lets +onlyGivenNames x2
      clear_value x2
      refine keeps_State_consoleLine ?_
      assumption
    · unfold x1
      refine keeps_State_mpIrq ?_
      assumption

theorem keeps_execConsoleCommand {s t : State} {a0 : _} {u : State} (h : Keeps s t)
    (e : execConsoleCommand a0 t = .next u) : Keeps s u := by
  unfold execConsoleCommand at e
  injection e with e
  subst e
  refine keeps_consoleCommand ?_
  assumption

theorem keeps_readMem {s t : State} {a0 : _} {a1 : _} {a2 : _} (h : Keeps s t) :
    Keeps s (readMem a0 a1 a2 t) := by
  unfold readMem
  extract_lets +onlyGivenNames x1
  clear_value x1
  refine keeps_State_maint (fun u2 hu2 => ?_) ?_
  · extract_lets +onlyGivenNames x3
    have hx3 : Keeps s x3.2 := ?_
    · clear_value x3
      extract_lets +onlyGivenNames x4
      have hx4 : Keeps s x4.2 := ?_
      · clear_value x4
        refine Keeps.ite ?_ ?_
        · refine keeps_State_answer ?_
          assumption
        · refine keeps_State_answer ?_
          assumption
      · unfold x4
        refine keeps_State_readCheck ?_
        assumption
    · unfold x3
      refine keeps_State_draw ?_
      assumption
  · assumption

theorem keeps_execReadMem {s t : State} {a0 : _} {a1 : _} {a2 : _} {u : State} (h : Keeps s t)
    (e : execReadMem a0 a1 a2 t = .next u) : Keeps s u := by
  unfold execReadMem at e
  injection e with e
  subst e
  refine keeps_readMem ?_
  assumption

theorem keeps_writeReg {s t : State} {a0 : _} {a1 : _} {a2 : _} (h : Keeps s t) :
    Keeps s (writeReg a0 a1 a2 t) := by
  unfold writeReg
  refine keeps_State_maint (fun u1 hu1 => ?_) ?_
  · refine keeps_State_setupStore ?_
    refine keeps_State_answer ?_
    assumption
  · assumption

theorem keeps_execWriteReg {s t : State} {a0 : _} {a1 : _} {a2 : _} {u : State} (h : Keeps s t)
    (e : execWriteReg a0 a1 a2 t = .next u) : Keeps s u := by
  unfold execWriteReg at e
  injection e with e
  subst e
  refine keeps_writeReg ?_
  assumption

theorem keeps_unlockExpiry {s t : State} (h : Keeps s t) :
    Keeps s (unlockExpiry t) := by
  unfold unlockExpiry
  refine Keeps.ite ?_ ?_
  · refine keeps_State_wr ?_
    assumption
  · assumption

theorem keeps_execUnlockExpiry {s t : State} {u : State} (h : Keeps s t)
    (e : execUnlockExpiry t = .next u) : Keeps s u := by
  unfold execUnlockExpiry at e
  injection e with e
  subst e
  refine keeps_unlockExpiry ?_
  assumption

theorem keeps_execFwWrite {s t : State} {a0 : _} {a1 : _} {a2 : _} {a3 : _} {u : State} (h : Keeps s t)
    (e : execFwWrite a0 a1 a2 a3 t = .next u) : Keeps s u := by
  unfold execFwWrite at e
  injection e with e
  subst e
  refine keeps_fwWrite ?_
  assumption

theorem keeps_notes {s t : State} {a0 : _} {a1 : _} (h : Keeps s t) :
    Keeps s (notes a0 a1 t) := by
  unfold notes
  refine keeps_State_maint (fun u1 hu1 => ?_) ?_
  · refine keeps_State_answer ?_
    assumption
  · assumption

theorem keeps_fwTrial {s t : State} {a0 : _} {a1 : _} (h : Keeps s t) :
    Keeps s (fwTrial a0 a1 t) := by
  unfold fwTrial
  extract_lets +onlyGivenNames x1
  clear_value x1
  refine keeps_State_maint (fun u2 hu2 => ?_) ?_
  · extract_lets +onlyGivenNames x3
    clear_value x3
    refine keeps_State_answer ?_
    refine Keeps.ite ?_ ?_
    · refine keeps_State_bootRecWrite ?_
      assumption
    · assumption
  · assumption

theorem keeps_execIdent {s t : State} {a0 : _} {u : State} (h : Keeps s t)
    (e : execIdent a0 t = .next u) : Keeps s u := by
  unfold execIdent at e
  injection e with e
  subst e
  refine keeps_ident ?_
  assumption

theorem keeps_execFwTrial {s t : State} {a0 : _} {a1 : _} {u : State} (h : Keeps s t)
    (e : execFwTrial a0 a1 t = .next u) : Keeps s u := by
  unfold execFwTrial at e
  injection e with e
  subst e
  refine keeps_fwTrial ?_
  assumption

theorem keeps_unlockReq {s t : State} {a0 : _} (h : Keeps s t) :
    Keeps s (unlockReq a0 t) := by
  unfold unlockReq
  refine keeps_State_maint (fun u1 hu1 => ?_) ?_
  · extract_lets +onlyGivenNames x2
    have hx2 : Keeps s x2.2 := ?_
    · clear_value x2
      extract_lets +onlyGivenNames x3
      have hx3 : Keeps s x3.2 := ?_
      · clear_value x3
        extract_lets +onlyGivenNames x4
        clear_value x4
        refine keeps_State_answer ?_
        extract_lets +onlyGivenNames x5
        have hx5 : Keeps s x5 := ?_
        · clear_value x5
          refine Keeps.same (t := x5) ?_ rfl rfl rfl
          assumption
        · unfold x5
          assumption
      · unfold x3
        refine keeps_State_draw ?_
        assumption
    · unfold x2
      refine keeps_State_draw ?_
      assumption
  · assumption

theorem keeps_execUnlockReq {s t : State} {a0 : _} {u : State} (h : Keeps s t)
    (e : execUnlockReq a0 t = .next u) : Keeps s u := by
  unfold execUnlockReq at e
  injection e with e
  subst e
  refine keeps_unlockReq ?_
  assumption

theorem keeps_execMaintRecExport {s t : State} {a0 : _} {a1 : _} {a2 : _} {u : State} (h : Keeps s t)
    (e : execMaintRecExport a0 a1 a2 t = .next u) : Keeps s u := by
  unfold execMaintRecExport at e
  injection e with e
  subst e
  refine keeps_maintRecExport ?_
  assumption

theorem keeps_execNotes {s t : State} {a0 : _} {a1 : _} {u : State} (h : Keeps s t)
    (e : execNotes a0 a1 t = .next u) : Keeps s u := by
  unfold execNotes at e
  injection e with e
  subst e
  refine keeps_notes ?_
  assumption

theorem keeps_State_goLive {s t : State} (h : Keeps s t) :
    Keeps s (State.goLive t) := by
  unfold State.goLive
  extract_lets +onlyGivenNames x1
  clear_value x1
  extract_lets +onlyGivenNames x2
  have hx2 : Keeps s x2 := ?_
  · clear_value x2
    extract_lets +onlyGivenNames x3
    have hx3 : Keeps s x3 := ?_
    · clear_value x3
      extract_lets +onlyGivenNames x4
      have hx4 : Keeps s x4 := ?_
      · clear_value x4
        extract_lets +onlyGivenNames x5
        clear_value x5
        extract_lets +onlyGivenNames x6
        clear_value x6
        extract_lets +onlyGivenNames x7
        have hx7 : Keeps s x7 := ?_
        · clear_value x7
          refine Keeps.ite ?_ ?_
          · assumption
          · refine Keeps.same (t := x7) ?_ rfl rfl rfl
            assumption
        · unfold x7
          refine Keeps.same (t := x4) ?_ rfl rfl rfl
          assumption
      · unfold x4
        refine keeps_State_deliverHeld ?_
        assumption
    · unfold x3
      refine keeps_State_raise ?_
      assumption
  · unfold x2
    refine keeps_State_wr ?_
    refine keeps_State_wr ?_
    assumption

theorem keeps_State_effectReq {s t : State} {a1 : _} {a2 : _} {a3 : _} {a4 : _} {a5 : _} (h : Keeps s t) :
    Keeps s (State.effectReq t a1 a2 a3 a4 a5).2 := by
  refine KeepsS.out ?_
  unfold State.effectReq
  extract_lets +onlyGivenNames x1
  clear_value x1
  split
  · extract_lets +onlyGivenNames x2
    clear_value x2
    refine KeepsS.pair ?_
    refine keeps_State_mirrorRec ?_
    refine keeps_State_setRecs ?_
    assumption
  · split
    · refine KeepsS.pair ?_
      refine keeps_State_raise ?_
      assumption
    · extract_lets +onlyGivenNames x3
      have hx3 : Keeps s x3 := ?_
      · clear_value x3
        refine KeepsS.pair ?_
        refine Keeps.same (t := x3) ?_ rfl rfl rfl
        assumption
      · unfold x3
        refine keeps_State_raise ?_
        refine keeps_State_satAdd ?_
        assumption
    · extract_lets +onlyGivenNames x4
      have hx4 : Keeps s x4 := ?_
      · clear_value x4
        refine KeepsS.pair ?_
        split
        · refine keeps_State_mirrorRec ?_
          assumption
        · assumption
      · unfold x4
        refine keeps_State_flueEnter ?_
        assumption

theorem keeps_State_consume {s t : State} {a1 : _} (h : Keeps s t) : Keeps s (State.consume t a1) := by
  unfold State.consume
  extract_lets +onlyGivenNames c1 x1 x2
  have h1 : Keeps s x1 := Keeps.same (t := t) h rfl rfl rfl
  have h2 : Keeps s x2 := keeps_State_logForceAt h1
  exact Keeps.ite (keeps_State_goLive h2) h2

theorem keeps_State_replayRead {s t : State} {a1 : _} (h : Keeps s t) :
    Keeps s (State.replayRead t a1).2 := by
  refine KeepsS.out ?_
  unfold State.replayRead
  split
  · refine KeepsS.ite ?_ ?_
    · refine KeepsS.pair ?_
      refine keeps_State_consume ?_
      assumption
    · refine KeepsS.pair ?_
      assumption
  · refine KeepsS.pair ?_
    assumption

theorem keeps_State_replayNpw {s t : State} {a1 : _} (h : Keeps s t) :
    Keeps s (State.replayNpw t a1).2 := by
  refine KeepsS.out ?_
  unfold State.replayNpw
  split
  · refine KeepsS.ite ?_ ?_
    · refine KeepsS.pair ?_
      refine keeps_State_consume ?_
      assumption
    · refine KeepsS.pair ?_
      assumption
  · refine KeepsS.pair ?_
    assumption

theorem keeps_State_rackReq {s t : State} {a1 : _} {a2 : _} (h : Keeps s t) :
    Keeps s (State.rackReq t a1 a2).2 := by
  refine KeepsS.out ?_
  unfold State.rackReq
  extract_lets +onlyGivenNames x1
  clear_value x1
  extract_lets +onlyGivenNames x2
  clear_value x2
  refine KeepsS.ite ?_ ?_
  · refine KeepsS.pair ?_
    assumption
  · extract_lets +onlyGivenNames x3
    clear_value x3
    refine KeepsS.ite ?_ ?_
    · refine KeepsS.pair ?_
      assumption
    · refine KeepsS.ite ?_ ?_
      · refine KeepsS.ite ?_ ?_
        · refine ⟨?_⟩
          refine keeps_State_effectReq ?_
          assumption
        · refine KeepsS.ite ?_ ?_
          · refine ⟨?_⟩
            refine keeps_State_replayRead ?_
            assumption
          · refine KeepsS.pair ?_
            refine keeps_State_rackIssue ?_
            assumption
      · refine KeepsS.ite ?_ ?_
        · refine KeepsS.ite ?_ ?_
          · refine ⟨?_⟩
            refine keeps_State_replayNpw ?_
            assumption
          · refine ⟨?_⟩
            refine keeps_State_replayRead ?_
            assumption
        · refine KeepsS.ite ?_ ?_
          · refine KeepsS.pair ?_
            refine keeps_State_requestCord ?_
            assumption
          · refine KeepsS.ite ?_ ?_
            · refine KeepsS.pair ?_
              assumption
            · refine KeepsS.pair ?_
              refine keeps_State_rackIssue ?_
              assumption

theorem keeps_State_renewLine {s t : State} {a1 : _} (h : Keeps s t) :
    Keeps s (State.renewLine t a1) := by
  unfold State.renewLine
  refine Keeps.same (t := t) ?_ rfl rfl rfl
  assumption

theorem keeps_State_asks {s t : State} {a1 : _} (h : Keeps s t) :
    Keeps s (State.asks t a1) := by
  unfold State.asks
  refine Keeps.same (t := t) ?_ rfl rfl rfl
  assumption

theorem keeps_State_setResv {s t : State} {a1 : _} {a2 : _} (h : Keeps s t) :
    Keeps s (State.setResv t a1 a2) := by
  unfold State.setResv
  refine Keeps.same (t := t) ?_ rfl rfl rfl
  assumption

theorem keeps_State_clearResv {s t : State} {a1 : _} {a2 : _} (h : Keeps s t) :
    Keeps s (State.clearResv t a1 a2) := by
  unfold State.clearResv
  refine Keeps.same (t := t) ?_ rfl rfl rfl
  assumption

theorem keeps_State_laneWrite {s t : State} {a1 : _} {a2 : _} (h : Keeps s t) :
    Keeps s (State.laneWrite t a1 a2) := by
  unfold State.laneWrite
  extract_lets +onlyGivenNames x1
  clear_value x1
  extract_lets +onlyGivenNames x2
  clear_value x2
  refine keeps_State_mirror ?_
  refine keeps_State_setBytes ?_
  refine keeps_State_renewLine ?_
  refine keeps_State_clearResv ?_
  assumption

theorem keeps_State_memDo {s t : State} {a1 : _} (h : Keeps s t) :
    Keeps s (State.memDo t a1).2 := by
  refine KeepsS.out ?_
  unfold State.memDo
  extract_lets +onlyGivenNames x1
  clear_value x1
  extract_lets +onlyGivenNames x2
  clear_value x2
  extract_lets +onlyGivenNames x3
  clear_value x3
  extract_lets +onlyGivenNames x4
  clear_value x4
  split
  · refine KeepsS.pair ?_
    assumption
  · refine KeepsS.pair ?_
    assumption
  · refine KeepsS.pair ?_
    refine keeps_State_setResv ?_
    assumption
  · refine KeepsS.pair ?_
    refine keeps_State_laneWrite ?_
    assumption
  · refine KeepsS.pair ?_
    refine keeps_State_laneWrite ?_
    assumption
  · extract_lets +onlyGivenNames x5
    clear_value x5
    extract_lets +onlyGivenNames x6
    have hx6 : Keeps s x6 := ?_
    · clear_value x6
      refine KeepsS.ite ?_ ?_
      · refine KeepsS.pair ?_
        refine keeps_State_laneWrite ?_
        assumption
      · refine KeepsS.pair ?_
        assumption
    · unfold x6
      refine keeps_State_setResv ?_
      assumption

end Machine
end Sys2Proof
end

