-- ==== Sys2Proof/Laws/Keeps10.lean ====
section
/-!
SUPPORT. Keeps of the operations of Access, Voter, Cord, SetupLock, Harts, Ember.
-/

set_option Elab.async false

namespace Sys2Proof
namespace Machine

theorem keeps_State_loggedRead {s t : State} {a1 : _} {a2 : State → Resp × State}
    (hf : ∀ u, Keeps s u → Keeps s (a2 u).2) (h : Keeps s t) : Keeps s (State.loggedRead t a1 a2).2 := by
  unfold State.loggedRead
  split
  · exact keeps_State_replayRead h
  · have h1 := hf t h
    extract_lets x
    split
    · split
      · exact keeps_State_logTake h1 (by assumption)
      · exact h
    · split
      · exact keeps_State_logTake h1 (by assumption)
      · exact h
    · exact h1

theorem keeps_State_setupReq {s t : State} {a1 : _} {a2 : _} (h : Keeps s t) :
    Keeps s (State.setupReq t a1 a2).2 := by
  refine KeepsS.out ?_
  unfold State.setupReq
  extract_lets +onlyGivenNames x1
  clear_value x1
  extract_lets +onlyGivenNames x2
  clear_value x2
  refine KeepsS.ite ?_ ?_
  · refine KeepsS.pair ?_
    assumption
  · split
    · extract_lets +onlyGivenNames x3
      refine KeepsS.ite ?_ ?_
      · refine ⟨?_⟩
        refine keeps_State_loggedRead (fun u4 hu4 => ?_) ?_
        · unfold x3
          refine KeepsS.out ?_
          extract_lets +onlyGivenNames x5
          have hx5 : Keeps s x5.2 := ?_
          · clear_value x5
            refine KeepsS.pair ?_
            assumption
          · unfold x5
            refine keeps_State_setupRead ?_
            assumption
        · assumption
      · refine ⟨?_⟩
        unfold x3
        refine KeepsS.out ?_
        extract_lets +onlyGivenNames x6
        have hx6 : Keeps s x6.2 := ?_
        · clear_value x6
          refine KeepsS.pair ?_
          assumption
        · unfold x6
          refine keeps_State_setupRead ?_
          assumption
    · refine KeepsS.ite ?_ ?_
      · refine KeepsS.pair ?_
        refine keeps_State_setupStore ?_
        assumption
      · refine KeepsS.ite ?_ ?_
        · refine KeepsS.pair ?_
          refine keeps_State_setupStore ?_
          assumption
        · refine KeepsS.ite ?_ ?_
          · extract_lets +onlyGivenNames x7
            clear_value x7
            extract_lets +onlyGivenNames x8
            clear_value x8
            extract_lets +onlyGivenNames x9
            have hx9 : Keeps s x9.2 := ?_
            · clear_value x9
              split
              · refine KeepsS.pair ?_
                refine keeps_State_commitEntered ?_
                assumption
              · refine ⟨?_⟩
                assumption
            · unfold x9
              refine keeps_State_effectReq ?_
              assumption
          · refine ⟨?_⟩
            refine keeps_State_effectReq ?_
            assumption
    · refine KeepsS.pair ?_
      assumption

theorem keeps_State_orderConsume {s t : State} {a1 : _} (h : Keeps s t) :
    Keeps s (State.orderConsume t a1) := by
  unfold State.orderConsume
  extract_lets +onlyGivenNames x1
  clear_value x1
  refine Keeps.foldl ?_ (fun u2 y3 hu2 => ?_)
  · assumption
  · refine Keeps.ite ?_ ?_
    · refine keeps_State_consume ?_
      assumption
    · assumption

theorem keeps_State_plainReq {s t : State} {a1 : _} {a2 : _} (h : Keeps s t) : Keeps s (State.plainReq t a1 a2).2 := by
  unfold State.plainReq
  extract_lets +onlyGivenNames a line writes
  split
  · exact h
  extract_lets +onlyGivenNames chk
  have hc : Keeps s chk.2 := by
    unfold chk
    split
    · exact keeps_State_readCheck (keeps_State_missCharge h)
    · exact h
  clear_value chk
  split
  · exact hc
  extract_lets +onlyGivenNames s1
  have h1 : Keeps s s1 := Keeps.ite (keeps_State_orderConsume hc) hc
  clear_value s1
  split
  · exact h1
  · rename_i s2 e2
    have h2 : Keeps s s2 := by
      split at e2
      · injection e2 with e2; subst e2; exact h1
      · exact keeps_State_orderTake h1 e2
    split
    · exact h1
    · rename_i s3 e3
      refine keeps_State_memDo ?_
      split at e3
      · exact keeps_State_undoTake h2 e3
      · injection e3 with e3; subst e3; exact h2

theorem keeps_State_setupMem {s t : State} {a1 : _} {a2 : _} (h : Keeps s t) :
    Keeps s (State.setupMem t a1 a2).2 := by
  refine KeepsS.out ?_
  unfold State.setupMem
  extract_lets +onlyGivenNames x1
  clear_value x1
  extract_lets +onlyGivenNames x2
  have hx2 : Keeps s x2.2 := ?_
  · clear_value x2
    refine KeepsS.ite ?_ ?_
    · refine ⟨?_⟩
      refine keeps_State_memDo ?_
      assumption
    · refine KeepsS.pair ?_
      assumption
  · unfold x2
    refine KeepsS.out ?_
    refine KeepsS.ite ?_ ?_
    · refine ⟨?_⟩
      refine keeps_State_readCheck ?_
      refine keeps_State_missCharge ?_
      assumption
    · refine KeepsS.pair ?_
      assumption

theorem keeps_State_volatileReq {s t : State} {a1 : _} (h : Keeps s t) :
    Keeps s (State.volatileReq t a1).2 := by
  refine KeepsS.out ?_
  unfold State.volatileReq
  refine KeepsS.ite ?_ ?_
  · refine KeepsS.pair ?_
    assumption
  · refine ⟨?_⟩
    refine keeps_State_loggedRead (fun u1 hu1 => ?_) ?_
    · refine KeepsS.out ?_
      extract_lets +onlyGivenNames x2
      have hx2 : Keeps s x2.2 := ?_
      · clear_value x2
        refine KeepsS.ite ?_ ?_
        · refine ⟨?_⟩
          refine keeps_State_memDo ?_
          assumption
        · refine KeepsS.pair ?_
          assumption
      · unfold x2
        refine keeps_State_readCheck ?_
        refine keeps_State_dramCharge ?_
        assumption
    · assumption

theorem keeps_State_effectMem {s t : State} {a1 : _} {a2 : _} {a3 : _} (h : Keeps s t) :
    Keeps s (State.effectMem t a1 a2 a3).2 := by
  refine KeepsS.out ?_
  unfold State.effectMem
  extract_lets +onlyGivenNames x1
  clear_value x1
  split
  · refine KeepsS.pair ?_
    assumption
  · refine KeepsS.pair ?_
    assumption
  · refine KeepsS.pair ?_
    assumption
  · refine KeepsS.pair ?_
    refine keeps_State_setResv ?_
    assumption
  · refine ⟨?_⟩
    refine keeps_State_effectReq ?_
    assumption
  · refine ⟨?_⟩
    refine keeps_State_effectReq ?_
    assumption

theorem keeps_State_regionReq {s t : State} {a1 : _} {a2 : _} (h : Keeps s t) :
    Keeps s (State.regionReq t a1 a2).2 := by
  refine KeepsS.out ?_
  unfold State.regionReq
  extract_lets +onlyGivenNames x1
  clear_value x1
  split
  · refine KeepsS.pair ?_
    assumption
  · refine KeepsS.ite ?_ ?_
    · refine ⟨?_⟩
      refine keeps_State_memDo ?_
      assumption
    · refine KeepsS.pair ?_
      assumption
  · refine ⟨?_⟩
    refine keeps_State_setupReq ?_
    assumption
  · refine ⟨?_⟩
    refine keeps_State_rackReq ?_
    assumption
  · refine KeepsS.ite ?_ ?_
    · refine ⟨?_⟩
      refine keeps_State_plainReq ?_
      assumption
    · refine ⟨?_⟩
      refine keeps_State_setupMem ?_
      assumption
  · refine KeepsS.ite ?_ ?_
    · refine ⟨?_⟩
      refine keeps_State_volatileReq ?_
      assumption
    · refine ⟨?_⟩
      refine keeps_State_setupMem ?_
      assumption
  · refine KeepsS.ite ?_ ?_
    · refine ⟨?_⟩
      refine keeps_State_effectMem ?_
      assumption
    · refine ⟨?_⟩
      refine keeps_State_setupMem ?_
      assumption
  · refine KeepsS.ite ?_ ?_
    · refine ⟨?_⟩
      refine keeps_State_effectMem ?_
      assumption
    · refine ⟨?_⟩
      refine keeps_State_setupMem ?_
      assumption

theorem keeps_State_takeReady {s t : State} {a1 : _} {a2 : _} (h : Keeps s t) : Keeps s (State.takeReady t a1 a2).2 := by
  unfold State.takeReady
  split
  · exact Keeps.same (t := t) h rfl rfl rfl
  · rename_i v hv
    have h1 : Keeps s v := by
      split at hv
      · injection hv with hv; subst hv; exact h
      · exact keeps_State_logTake h hv
    exact keeps_State_asks (Keeps.same (t := v) h1 rfl rfl rfl)

theorem keeps_State_laneAccess {s t : State} {a1 : _} {a2 : _} (h : Keeps s t) :
    Keeps s (State.laneAccess t a1 a2).2 := by
  refine KeepsS.out ?_
  unfold State.laneAccess
  split
  · refine ⟨?_⟩
    refine keeps_State_takeReady ?_
    assumption
  · extract_lets +onlyGivenNames x1
    clear_value x1
    refine KeepsS.ite ?_ ?_
    · refine KeepsS.pair ?_
      assumption
    · refine KeepsS.ite ?_ ?_
      · refine KeepsS.pair ?_
        assumption
      · extract_lets +onlyGivenNames x2
        have hx2 : Keeps s x2.2 := ?_
        · clear_value x2
          split
          · refine ⟨?_⟩
            assumption
          · refine KeepsS.ite ?_ ?_
            · refine KeepsS.pair ?_
              refine keeps_State_asks ?_
              assumption
            · refine ⟨?_⟩
              assumption
        · unfold x2
          refine keeps_State_regionReq ?_
          assumption

theorem keeps_State_applyDue {s t : State} {a1 : _} (h : Keeps s t) :
    Keeps s (State.applyDue t a1) := by
  induction a1 generalizing t
  · unfold State.applyDue
    assumption
  · rename_i ih
    unfold State.applyDue
    refine Keeps.ite ?_ ?_
    · assumption
    · split
      · assumption
      · refine Keeps.ite ?_ ?_
        · apply ih
          refine keeps_State_consume ?_
          refine keeps_State_applySrc ?_
          assumption
        · assumption

theorem keeps_State_faultRecord {s t : State} {a1 : _} {a2 : _} {a3 : _} {a4 : _} {a5 : _} {a6 : _} (h : Keeps s t) :
    Keeps s (State.faultRecord t a1 a2 a3 a4 a5 a6) := by
  unfold State.faultRecord
  refine Keeps.ite ?_ ?_
  · assumption
  · extract_lets +onlyGivenNames x1
    have hx1 : Keeps s x1 := ?_
    · clear_value x1
      extract_lets +onlyGivenNames x2
      have hx2 : Keeps s x2 := ?_
      · clear_value x2
        refine keeps_State_wr ?_
        refine keeps_State_wr ?_
        refine keeps_State_wr ?_
        assumption
      · unfold x2
        refine keeps_State_wr ?_
        refine keeps_State_wr ?_
        assumption
    · unfold x1
      refine keeps_State_wr ?_
      refine keeps_State_wr ?_
      refine keeps_State_wr ?_
      assumption

theorem keeps_State_rollbackStart {s t : State} (h : Keeps s t) :
    Keeps s (State.rollbackStart t) := by
  unfold State.rollbackStart
  extract_lets +onlyGivenNames x1
  have hx1 : Keeps s x1 := ?_
  · clear_value x1
    extract_lets +onlyGivenNames x2
    have hx2 : Keeps s x2 := ?_
    · clear_value x2
      extract_lets +onlyGivenNames x3
      have hx3 : Keeps s x3 := ?_
      · clear_value x3
        extract_lets +onlyGivenNames x4
        extract_lets +onlyGivenNames x5
        clear_value x5
        extract_lets +onlyGivenNames x6
        have hx6 : Keeps s x6 := ?_
        · clear_value x6
          extract_lets +onlyGivenNames x7
          clear_value x7
          extract_lets +onlyGivenNames x8
          clear_value x8
          refine keeps_State_raise ?_
          refine keeps_State_setReg ?_
          refine keeps_State_setReg ?_
          assumption
        · unfold x6
          refine Keeps.same (t := x3) ?_ rfl rfl rfl
          assumption
      · unfold x3
        refine keeps_State_pairDiscard ?_
        refine keeps_State_discardInterval ?_
        assumption
    · unfold x2
      refine keeps_State_wr ?_
      refine keeps_State_wr ?_
      assumption
  · unfold x1
    refine keeps_State_satAdd ?_
    refine keeps_State_modAdd ?_
    assumption

theorem keeps_State_unresolved {s t : State} {a1 : _} {a2 : _} {a3 : _} {a4 : _} (h : Keeps s t) :
    Keeps s (State.unresolved t a1 a2 a3 a4) := by
  unfold State.unresolved
  extract_lets +onlyGivenNames x1
  have hx1 : Keeps s x1 := ?_
  · clear_value x1
    refine Keeps.ite ?_ ?_
    · refine keeps_State_enterSafe ?_
      assumption
    · refine Keeps.ite ?_ ?_
      · refine keeps_State_enterSafe ?_
        assumption
      · refine Keeps.ite ?_ ?_
        · refine keeps_State_enterSafe ?_
          refine keeps_State_raise ?_
          assumption
        · refine keeps_State_rollbackStart ?_
          assumption
  · unfold x1
    refine keeps_State_raise ?_
    refine keeps_State_faultRecord ?_
    assumption

theorem keeps_State_diverge {s t : State} {a1 : _} (h : Keeps s t) :
    Keeps s (State.diverge t a1) := by
  unfold State.diverge
  refine keeps_State_unresolved ?_
  refine keeps_State_raise ?_
  assumption

theorem keeps_State_fence {s t : State} {a1 : _} (h : Keeps s t) :
    Keeps s (State.fence t a1) := by
  unfold State.fence
  extract_lets +onlyGivenNames x1
  extract_lets +onlyGivenNames x2
  have hx2 : Keeps s x2 := ?_
  · skip
    extract_lets +onlyGivenNames x3
    have hx3 : Keeps s x3 := ?_
    · skip
      refine Keeps.ite ?_ ?_
      · refine keeps_State_raise ?_
        refine keeps_State_setLane ?_
        assumption
      · refine keeps_State_setLane ?_
        assumption
    · unfold x3
      refine keeps_State_raise ?_
      refine keeps_State_satAdd ?_
      assumption
  · unfold x2
    refine Keeps.same (t := t) ?_ rfl rfl rfl
    assumption

theorem keeps_State_anchorWrite {s t : State} (h : Keeps s t) :
    Keeps s (State.anchorWrite t) := by
  unfold State.anchorWrite
  extract_lets +onlyGivenNames x1
  clear_value x1
  extract_lets +onlyGivenNames x2
  clear_value x2
  refine keeps_State_setBytes ?_
  assumption

theorem keeps_State_seal {s t : State} {a1 : _} (h : Keeps s t) :
    Keeps s (State.seal t a1) := by
  unfold State.seal
  extract_lets +onlyGivenNames x1
  clear_value x1
  extract_lets +onlyGivenNames x2
  clear_value x2
  extract_lets +onlyGivenNames x3
  clear_value x3
  extract_lets +onlyGivenNames x4
  clear_value x4
  extract_lets +onlyGivenNames x5
  clear_value x5
  extract_lets +onlyGivenNames x6
  clear_value x6
  extract_lets +onlyGivenNames x7
  clear_value x7
  extract_lets +onlyGivenNames x8
  clear_value x8
  extract_lets +onlyGivenNames x9
  clear_value x9
  extract_lets +onlyGivenNames x10
  clear_value x10
  extract_lets +onlyGivenNames x11
  clear_value x11
  extract_lets +onlyGivenNames x12
  clear_value x12
  extract_lets +onlyGivenNames x13
  have hx13 : Keeps s x13 := ?_
  · clear_value x13
    extract_lets +onlyGivenNames x14
    have hx14 : Keeps s x14 := ?_
    · clear_value x14
      extract_lets +onlyGivenNames x15
      have hx15 : Keeps s x15 := ?_
      · clear_value x15
        extract_lets +onlyGivenNames x16
        have hx16 : Keeps s x16 := ?_
        · clear_value x16
          extract_lets +onlyGivenNames x17
          have hx17 : Keeps s x17 := ?_
          · clear_value x17
            extract_lets +onlyGivenNames x18
            have hx18 : Keeps s x18 := ?_
            · clear_value x18
              extract_lets +onlyGivenNames x19
              have hx19 : Keeps s x19 := ?_
              · clear_value x19
                extract_lets +onlyGivenNames x20
                have hx20 : Keeps s x20 := ?_
                · clear_value x20
                  extract_lets +onlyGivenNames x21
                  have hx21 : Keeps s x21 := ?_
                  · clear_value x21
                    refine keeps_State_pairClose ?_
                    refine keeps_State_anchorWrite ?_
                    assumption
                  · unfold x21
                    refine Keeps.ite ?_ ?_
                    · assumption
                    · refine keeps_State_deliverHeld ?_
                      assumption
                · unfold x20
                  refine keeps_State_recEvent ?_
                  assumption
              · unfold x19
                refine keeps_State_recEvent ?_
                refine keeps_State_recEvent ?_
                refine keeps_State_recEvent ?_
                assumption
            · unfold x18
              refine Keeps.ite ?_ ?_
              · assumption
              · refine keeps_State_wr ?_
                assumption
          · unfold x17
            refine keeps_State_flueSeal ?_
            assumption
        · unfold x16
          refine keeps_State_wr ?_
          refine keeps_State_wr ?_
          assumption
      · unfold x15
        refine keeps_State_peak ?_
        refine keeps_State_wr ?_
        refine keeps_State_wr ?_
        assumption
    · unfold x14
      refine keeps_State_wr64 ?_
      refine keeps_State_wr64 ?_
      assumption
  · unfold x13
    refine Keeps.same (t := t) ?_ rfl rfl rfl
    assumption

theorem keeps_State_coldResume {s t : State} (h : Keeps s t) :
    Keeps s (State.coldResume t) := by
  unfold State.coldResume
  refine Keeps.same (t := t) ?_ rfl rfl rfl
  assumption

theorem keeps_cordSeal {s t : State} {a0 : _} {a1 : _} {a2 : _} {a3 : _} (h : Keeps s t) :
    Keeps s (cordSeal a0 a1 a2 a3 t) := by
  unfold cordSeal
  refine Keeps.ite ?_ ?_
  · assumption
  · extract_lets +onlyGivenNames x1
    clear_value x1
    split
    · refine keeps_State_unresolved ?_
      assumption
    · refine keeps_State_idleAtSeal ?_
      refine keeps_State_seal ?_
      refine keeps_State_fence ?_
      refine keeps_State_faultRecord ?_
      assumption
    · refine Keeps.ite ?_ ?_
      · refine keeps_State_coldResume ?_
        refine keeps_State_seal ?_
        assumption
      · refine keeps_State_idleAtSeal ?_
        refine keeps_State_seal ?_
        assumption

theorem keeps_State_restoreFails {s t : State} (h : Keeps s t) :
    Keeps s (State.restoreFails t) := by
  unfold State.restoreFails
  refine keeps_State_enterSafe ?_
  refine keeps_State_raise ?_
  refine keeps_State_wr ?_
  assumption

theorem keeps_State_lbistEnd {s t : State} {a1 : _} {a2 : _} (h : Keeps s t) :
    Keeps s (State.lbistEnd t a1 a2) := by
  unfold State.lbistEnd
  refine Keeps.ite ?_ ?_
  · refine keeps_State_setLane ?_
    assumption
  · refine keeps_State_raise ?_
    refine keeps_State_setLane ?_
    assumption

theorem keeps_State_lbistReport {s t : State} {a1 : _} {a2 : _} (h : Keeps s t) :
    Keeps s (State.lbistReport t a1 a2) := by
  unfold State.lbistReport
  extract_lets +onlyGivenNames x1
  have hx1 : Keeps s x1 := ?_
  · clear_value x1
    extract_lets +onlyGivenNames x2
    have hx2 : Keeps s x2 := ?_
    · clear_value x2
      refine keeps_State_recNoteWrite ?_
      refine keeps_State_raise ?_
      assumption
    · unfold x2
      refine keeps_State_wr ?_
      refine keeps_State_wr ?_
      assumption
  · unfold x1
    refine keeps_State_satAdd ?_
    refine keeps_State_satAdd ?_
    refine keeps_State_wr ?_
    assumption

theorem keeps_laneLbistEnd {s t : State} {a0 : _} {a1 : _} (h : Keeps s t) :
    Keeps s (laneLbistEnd a0 a1 t) := by
  unfold laneLbistEnd
  refine Keeps.ite ?_ ?_
  · assumption
  · extract_lets +onlyGivenNames x1
    have hx1 : Keeps s x1 := ?_
    · clear_value x1
      refine Keeps.ite ?_ ?_
      · refine keeps_State_lbistReport ?_
        assumption
      · assumption
    · unfold x1
      refine keeps_State_lbistEnd ?_
      assumption

theorem keeps_execLaneLbistEnd {s t : State} {a0 : _} {a1 : _} {u : State} (h : Keeps s t)
    (e : execLaneLbistEnd a0 a1 t = .next u) : Keeps s u := by
  unfold execLaneLbistEnd at e
  injection e with e
  subst e
  refine keeps_laneLbistEnd ?_
  assumption

theorem keeps_execCordSeal {s t : State} {a0 : _} {a1 : _} {a2 : _} {a3 : _} {u : State} (h : Keeps s t)
    (e : execCordSeal a0 a1 a2 a3 t = .next u) : Keeps s u := by
  unfold execCordSeal at e
  injection e with e
  subst e
  refine keeps_cordSeal ?_
  assumption

theorem keeps_State_undoLine {s t : State} {a1 : _} (h : Keeps s t) :
    Keeps s (State.undoLine t a1) := by
  unfold State.undoLine
  refine keeps_State_setBytes ?_
  refine keeps_State_renewLine ?_
  assumption

theorem keeps_State_undoLines {s t : State} {a1 : _} (h : Keeps s t) :
    Keeps s (State.undoLines t a1) := by
  unfold State.undoLines
  refine Keeps.foldl ?_ (fun u1 y2 hu1 => ?_)
  · assumption
  · refine keeps_State_undoLine ?_
    assumption

theorem keeps_cordPeriodExpiry {s t : State} (h : Keeps s t) :
    Keeps s (cordPeriodExpiry t) := by
  unfold cordPeriodExpiry
  refine Keeps.ite ?_ ?_
  · refine keeps_State_requestCord ?_
    assumption
  · assumption

theorem keeps_execCordPeriodExpiry {s t : State} {u : State} (h : Keeps s t)
    (e : execCordPeriodExpiry t = .next u) : Keeps s u := by
  unfold execCordPeriodExpiry at e
  injection e with e
  subst e
  refine keeps_cordPeriodExpiry ?_
  assumption

theorem keeps_coldResumeDone {s t : State} (h : Keeps s t) :
    Keeps s (coldResumeDone t) := by
  unfold coldResumeDone
  refine Keeps.ite ?_ ?_
  · extract_lets +onlyGivenNames x1
    have hx1 : Keeps s x1 := ?_
    · clear_value x1
      extract_lets +onlyGivenNames x2
      clear_value x2
      extract_lets +onlyGivenNames x3
      have hx3 : Keeps s x3 := ?_
      · clear_value x3
        refine keeps_State_pairResumed ?_
        refine keeps_State_deliverHeld ?_
        assumption
      · unfold x3
        refine Keeps.same (t := x1) ?_ rfl rfl rfl
        assumption
    · unfold x1
      refine Keeps.foldl ?_ (fun u4 y5 hu4 => ?_)
      · assumption
      · refine Keeps.ite ?_ ?_
        · refine keeps_State_raise ?_
          refine keeps_State_setLane ?_
          assumption
        · assumption
  · assumption

theorem keeps_State_rewind {s t : State} {a1 : _} (h : Keeps s t) :
    Keeps s (State.rewind t a1) := by
  unfold State.rewind
  extract_lets +onlyGivenNames x1
  clear_value x1
  extract_lets +onlyGivenNames x2
  clear_value x2
  refine Keeps.same (t := t) ?_ rfl rfl rfl
  assumption

theorem keeps_State_undoAll {s t : State} (h : Keeps s t) :
    Keeps s (State.undoAll t) := by
  unfold State.undoAll
  refine keeps_State_wr ?_
  refine keeps_State_rackDrop ?_
  refine keeps_State_undoLines ?_
  assumption

theorem keeps_rollbackRestore {s t : State} {a0 : _} {a1 : _} (h : Keeps s t) :
    Keeps s (rollbackRestore a0 a1 t) := by
  unfold rollbackRestore
  refine Keeps.ite ?_ ?_
  · assumption
  · refine Keeps.ite ?_ ?_
    · refine keeps_State_restoreFails ?_
      assumption
    · refine Keeps.ite ?_ ?_
      · refine keeps_State_restoreFails ?_
        refine keeps_State_undoLines ?_
        assumption
      · extract_lets +onlyGivenNames x1
        have hx1 : Keeps s x1 := ?_
        · clear_value x1
          extract_lets +onlyGivenNames x2
          have hx2 : Keeps s x2 := ?_
          · clear_value x2
            extract_lets +onlyGivenNames x3
            have hx3 : Keeps s x3 := ?_
            · clear_value x3
              refine Keeps.ite ?_ ?_
              · refine keeps_State_goLive ?_
                assumption
              · refine keeps_State_applyDue ?_
                assumption
            · unfold x3
              refine keeps_State_wr ?_
              refine keeps_State_wr ?_
              assumption
          · unfold x2
            refine keeps_State_wr ?_
            assumption
        · unfold x1
          refine keeps_State_logShow ?_
          refine keeps_State_rewind ?_
          refine keeps_State_undoAll ?_
          assumption

theorem keeps_execRollbackRestore {s t : State} {a0 : _} {a1 : _} {u : State} (h : Keeps s t)
    (e : execRollbackRestore a0 a1 t = .next u) : Keeps s u := by
  unfold execRollbackRestore at e
  injection e with e
  subst e
  refine keeps_rollbackRestore ?_
  assumption

theorem keeps_execColdResumeDone {s t : State} {u : State} (h : Keeps s t)
    (e : execColdResumeDone t = .next u) : Keeps s u := by
  unfold execColdResumeDone at e
  injection e with e
  subst e
  refine keeps_coldResumeDone ?_
  assumption

theorem keeps_replayTimeout {s t : State} (h : Keeps s t) :
    Keeps s (replayTimeout t) := by
  unfold replayTimeout
  refine Keeps.ite ?_ ?_
  · refine keeps_State_enterSafe ?_
    refine keeps_State_wr ?_
    refine keeps_State_raise ?_
    assumption
  · assumption

theorem keeps_execReplayTimeout {s t : State} {u : State} (h : Keeps s t)
    (e : execReplayTimeout t = .next u) : Keeps s u := by
  unfold execReplayTimeout at e
  injection e with e
  subst e
  refine keeps_replayTimeout ?_
  assumption

theorem keeps_State_lockRetire {s t : State} (h : Keeps s t) :
    Keeps s (State.lockRetire t) := by
  unfold State.lockRetire
  refine Keeps.foldl ?_ (fun u1 y2 hu1 => ?_)
  · assumption
  · refine Keeps.ite ?_ ?_
    · refine keeps_State_setHart ?_
      assumption
    · assumption

theorem keeps_State_cordZero {s t : State} {a1 : _} (h : Keeps s t) :
    Keeps s (State.cordZero t a1) := by
  unfold State.cordZero
  extract_lets +onlyGivenNames x1
  have hx1 : Keeps s x1 := ?_
  · clear_value x1
    refine keeps_State_idleAtSeal ?_
    refine keeps_State_seal ?_
    refine Keeps.same (t := x1) ?_ rfl rfl rfl
    assumption
  · unfold x1
    refine keeps_State_operateStart ?_
    refine keeps_State_lockRetire ?_
    assumption

theorem keeps_setupLockChecksEnd {s t : State} {a0 : _} {a1 : _} {a2 : _} {a3 : _} (h : Keeps s t) :
    Keeps s (setupLockChecksEnd a0 a1 a2 a3 t) := by
  unfold setupLockChecksEnd
  refine Keeps.ite ?_ ?_
  · assumption
  · extract_lets +onlyGivenNames x1
    have hx1 : Keeps s x1.2 := ?_
    · clear_value x1
      refine Keeps.ite ?_ ?_
      · refine keeps_State_lockRetire ?_
        refine keeps_State_wr ?_
        refine keeps_State_setPhase ?_
        assumption
      · split
        · refine keeps_State_unresolved ?_
          assumption
        · refine keeps_State_cordZero ?_
          refine keeps_State_fence ?_
          refine keeps_State_faultRecord ?_
          assumption
        · refine keeps_State_cordZero ?_
          assumption
    · unfold x1
      refine keeps_State_lockErr ?_
      assumption

theorem keeps_execSetupLockChecksEnd {s t : State} {a0 : _} {a1 : _} {a2 : _} {a3 : _} {u : State} (h : Keeps s t)
    (e : execSetupLockChecksEnd a0 a1 a2 a3 t = .next u) : Keeps s u := by
  unfold execSetupLockChecksEnd at e
  injection e with e
  subst e
  refine keeps_setupLockChecksEnd ?_
  assumption

theorem keeps_State_except {s t : State} {a1 : _} {a2 : _} {a3 : _} (h : Keeps s t) :
    Keeps s (State.except t a1 a2 a3) := by
  unfold State.except
  refine keeps_State_setHart ?_
  assumption

theorem keeps_State_illegal {s t : State} {a1 : _} (h : Keeps s t) :
    Keeps s (State.illegal t a1) := by
  unfold State.illegal
  extract_lets +onlyGivenNames x1
  have hx1 : Keeps s x1.2 := ?_
  · clear_value x1
    refine keeps_State_except ?_
    assumption
  · unfold x1
    refine keeps_State_draw ?_
    assumption

theorem keeps_State_fpDone {s t : State} {a1 : _} {a2 : _} {a3 : _} {a4 : _} (h : Keeps s t) :
    Keeps s (State.fpDone t a1 a2 a3 a4) := by
  unfold State.fpDone
  split
  · refine keeps_State_illegal ?_
    assumption
  · refine keeps_State_setHart ?_
    assumption
  · refine keeps_State_setHart ?_
    assumption

theorem keeps_State_applyLogged {s t : State} (h : Keeps s t) :
    Keeps s (State.applyLogged t) := by
  unfold State.applyLogged
  refine keeps_State_applyDue ?_
  assumption

theorem keeps_State_dataAccess {s t : State} {a1 : _} {a2 : _} {a3 : _} {a4 : _} {a5 : _} {a6 : _} (h : Keeps s t) :
    Keeps s (State.dataAccess t a1 a2 a3 a4 a5 a6).2 := by
  refine KeepsS.out ?_
  unfold State.dataAccess
  refine KeepsS.ite ?_ ?_
  · refine KeepsS.pair ?_
    assumption
  · refine KeepsS.ite ?_ ?_
    · refine KeepsS.pair ?_
      assumption
    · refine ⟨?_⟩
      refine keeps_State_laneAccess ?_
      assumption

theorem keeps_State_park {s t : State} {a1 : _} {a2 : _} (h : Keeps s t) :
    Keeps s (State.park t a1 a2) := by
  unfold State.park
  refine keeps_State_setHart ?_
  assumption

theorem keeps_State_onResp {s t : State} {a1 : _} {a2 : _} {a3 : _} {a4 : DWord → State}
    (hf : ∀ v, Keeps s (a4 v)) (h : Keeps s t) : Keeps s (State.onResp t a1 a2 a3 a4) := by
  unfold State.onResp
  split
  · exact hf _
  · exact keeps_State_except h
  · exact keeps_State_park h
  · exact keeps_State_diverge h

theorem keeps_State_doMem {s t : State} {a1 : _} {a2 : _} {a3 : _} {a4 : _} {a5 : _} {a6 : _} {a7 : DWord → State → State}
    (hf : ∀ v u, Keeps s u → Keeps s (a7 v u)) (h : Keeps s t) : Keeps s (State.doMem t a1 a2 a3 a4 a5 a6 a7) := by
  unfold State.doMem
  have h1 : Keeps s (State.dataAccess t a1 a2 a3 a4 a5 a6).2 := keeps_State_dataAccess h
  extract_lets x
  exact keeps_State_onResp (fun v => hf v _ h1) h1

theorem keeps_State_retireX {s t : State} {a1 : _} {a2 : _} {a3 : _} {a4 : _} (h : Keeps s t) :
    Keeps s (State.retireX t a1 a2 a3 a4) := by
  unfold State.retireX
  refine keeps_State_setHart ?_
  assumption

theorem keeps_State_retire {s t : State} {a1 : _} {a2 : _} {a3 : _} (h : Keeps s t) :
    Keeps s (State.retire t a1 a2 a3) := by
  unfold State.retire
  refine keeps_State_setHart ?_
  assumption

theorem keeps_State_retireF {s t : State} {a1 : _} {a2 : _} {a3 : _} {a4 : _} (h : Keeps s t) :
    Keeps s (State.retireF t a1 a2 a3 a4) := by
  unfold State.retireF
  refine keeps_State_setHart ?_
  assumption

theorem keeps_State_execMem {s t : State} {a1 : _} {a2 : _} {a3 : _} {a4 : _} (h : Keeps s t) :
    Keeps s (State.execMem t a1 a2 a3 a4) := by
  unfold State.execMem
  extract_lets +onlyGivenNames x1
  clear_value x1
  extract_lets +onlyGivenNames x2
  clear_value x2
  split
  · refine keeps_State_doMem (fun _ u3 hu3 => ?_) ?_
    · refine keeps_State_retireX ?_
      assumption
    · assumption
  · refine keeps_State_doMem (fun _ u4 hu4 => ?_) ?_
    · refine keeps_State_retire ?_
      assumption
    · assumption
  · refine keeps_State_doMem (fun _ u5 hu5 => ?_) ?_
    · refine keeps_State_retireX ?_
      assumption
    · assumption
  · refine keeps_State_doMem (fun _ u6 hu6 => ?_) ?_
    · refine keeps_State_retireX ?_
      assumption
    · assumption
  · refine keeps_State_doMem (fun _ u7 hu7 => ?_) ?_
    · refine keeps_State_retireX ?_
      assumption
    · assumption
  · refine Keeps.ite ?_ ?_
    · refine keeps_State_illegal ?_
      assumption
    · refine keeps_State_doMem (fun _ u8 hu8 => ?_) ?_
      · refine keeps_State_retireF ?_
        assumption
      · assumption
  · refine Keeps.ite ?_ ?_
    · refine keeps_State_illegal ?_
      assumption
    · refine keeps_State_doMem (fun _ u9 hu9 => ?_) ?_
      · refine keeps_State_retire ?_
        assumption
      · assumption
  · assumption

theorem keeps_State_doMret {s t : State} {a1 : _} (h : Keeps s t) :
    Keeps s (State.doMret t a1) := by
  unfold State.doMret
  refine Keeps.ite ?_ ?_
  · refine keeps_State_illegal ?_
    assumption
  · refine keeps_State_setHart ?_
    assumption

theorem keeps_State_doWfi {s t : State} {a1 : _} (h : Keeps s t) :
    Keeps s (State.doWfi t a1) := by
  unfold State.doWfi
  refine Keeps.ite ?_ ?_
  · refine keeps_State_illegal ?_
    assumption
  · refine Keeps.ite ?_ ?_
    · refine keeps_State_retire ?_
      assumption
    · refine keeps_State_park ?_
      assumption

theorem keeps_State_timeNow {s t : State} {a1 : _} {a2 : _} (h : Keeps s t) :
    Keeps s (State.timeNow t a1 a2).2 := by
  refine KeepsS.out ?_
  unfold State.timeNow
  refine KeepsS.ite ?_ ?_
  · refine KeepsS.pair ?_
    assumption
  · refine KeepsS.ite ?_ ?_
    · refine KeepsS.pair ?_
      assumption
    · refine ⟨?_⟩
      refine keeps_State_draw ?_
      assumption

theorem keeps_State_timedRead {s t : State} {a1 : _} {a2 : _} (h : Keeps s t) :
    Keeps s (State.timedRead t a1 a2).2 := by
  refine KeepsS.out ?_
  unfold State.timedRead
  refine KeepsS.ite ?_ ?_
  · extract_lets +onlyGivenNames x1
    have hx1 : Keeps s x1.2 := ?_
    · clear_value x1
      refine KeepsS.pair ?_
      assumption
    · unfold x1
      refine keeps_State_timeNow ?_
      assumption
  · refine KeepsS.ite ?_ ?_
    · split
      · refine KeepsS.ite ?_ ?_
        · refine KeepsS.pair ?_
          refine keeps_State_consume ?_
          assumption
        · refine KeepsS.pair ?_
          assumption
      · refine KeepsS.pair ?_
        assumption
    · extract_lets +onlyGivenNames x2
      have hx2 : Keeps s x2.2 := ?_
      · clear_value x2
        split
        · refine KeepsS.pair ?_
          refine keeps_State_logTake ?_ (by assumption)
          assumption
        · refine KeepsS.pair ?_
          assumption
      · unfold x2
        refine keeps_State_timeNow ?_
        assumption

theorem keeps_State_csrRead {s t : State} {a1 : _} {a2 : _} (h : Keeps s t) :
    Keeps s (State.csrRead t a1 a2).2 := by
  refine KeepsS.out ?_
  unfold State.csrRead
  refine KeepsS.ite ?_ ?_
  · refine ⟨?_⟩
    refine keeps_State_timedRead ?_
    assumption
  · refine KeepsS.ite ?_ ?_
    · extract_lets +onlyGivenNames x1
      clear_value x1
      refine KeepsS.pair ?_
      refine Keeps.same (t := t) ?_ rfl rfl rfl
      assumption
    · refine KeepsS.pair ?_
      assumption

theorem keeps_State_csrDo {s t : State} {a1 : _} {a2 : _} {a3 : _} {a4 : _} {a5 : _} {a6 : _} (h : Keeps s t) :
    Keeps s (State.csrDo t a1 a2 a3 a4 a5 a6) := by
  unfold State.csrDo
  extract_lets +onlyGivenNames x1
  clear_value x1
  extract_lets +onlyGivenNames x2
  clear_value x2
  extract_lets +onlyGivenNames x3
  clear_value x3
  refine Keeps.ite ?_ ?_
  · refine keeps_State_illegal ?_
    assumption
  · extract_lets +onlyGivenNames x4
    have hx4 : Keeps s x4.2 := ?_
    · clear_value x4
      refine keeps_State_onResp (fun _ => ?_) ?_
      · extract_lets +onlyGivenNames x5
        have hx5 : Keeps s x5 := ?_
        · clear_value x5
          refine Keeps.ite ?_ ?_
          · refine keeps_State_csrPut ?_
            assumption
          · assumption
        · unfold x5
          refine keeps_State_retireX ?_
          assumption
      · assumption
    · unfold x4
      refine KeepsS.out ?_
      refine KeepsS.ite ?_ ?_
      · refine ⟨?_⟩
        refine keeps_State_csrRead ?_
        assumption
      · refine KeepsS.pair ?_
        assumption

theorem keeps_State_doDzlSetup {s t : State} {a1 : _} {a2 : _} {a3 : _} (h : Keeps s t) :
    Keeps s (State.doDzlSetup t a1 a2 a3) := by
  unfold State.doDzlSetup
  extract_lets +onlyGivenNames x1
  clear_value x1
  refine Keeps.ite ?_ ?_
  · refine keeps_State_illegal ?_
    assumption
  · extract_lets +onlyGivenNames x2
    clear_value x2
    extract_lets +onlyGivenNames x3
    clear_value x3
    refine keeps_State_setHart ?_
    assumption

theorem keeps_State_doCfence {s t : State} {a1 : _} (h : Keeps s t) :
    Keeps s (State.doCfence t a1) := by
  unfold State.doCfence
  refine Keeps.ite ?_ ?_
  · refine keeps_State_park ?_
    assumption
  · refine keeps_State_retire ?_
    assumption

theorem keeps_State_doCord {s t : State} {a1 : _} {a2 : _} (h : Keeps s t) :
    Keeps s (State.doCord t a1 a2) := by
  unfold State.doCord
  extract_lets +onlyGivenNames x1
  clear_value x1
  refine Keeps.ite ?_ ?_
  · refine keeps_State_illegal ?_
    assumption
  · refine Keeps.ite ?_ ?_
    · refine keeps_State_retireX ?_
      assumption
    · refine keeps_State_park ?_
      refine keeps_State_requestCord ?_
      assumption

theorem keeps_State_emberStart {s t : State} (h : Keeps s t) :
    Keeps s (State.emberStart t) := by
  unfold State.emberStart
  extract_lets +onlyGivenNames x1
  have hx1 : Keeps s x1 := ?_
  · clear_value x1
    extract_lets +onlyGivenNames x2
    extract_lets +onlyGivenNames x3
    have hx3 : Keeps s x3 := ?_
    · clear_value x3
      refine keeps_State_requestCord ?_
      assumption
    · unfold x3
      refine Keeps.same (t := x1) ?_ rfl rfl rfl
      assumption
  · unfold x1
    refine Keeps.foldl ?_ (fun u4 y5 hu4 => ?_)
    · assumption
    · refine keeps_State_setHart ?_
      assumption

theorem keeps_State_doWfiEmber {s t : State} {a1 : _} (h : Keeps s t) :
    Keeps s (State.doWfiEmber t a1) := by
  unfold State.doWfiEmber
  refine Keeps.ite ?_ ?_
  · refine keeps_State_illegal ?_
    assumption
  · refine Keeps.ite ?_ ?_
    · refine keeps_State_retire ?_
      assumption
    · extract_lets +onlyGivenNames x1
      have hx1 : Keeps s x1 := ?_
      · clear_value x1
        refine Keeps.ite ?_ ?_
        · refine keeps_State_emberStart ?_
          assumption
        · assumption
      · unfold x1
        refine keeps_State_park ?_
        assumption

theorem keeps_State_execReg {s t : State} {a1 : _} {a2 : _} {a3 : _} (h : Keeps s t) :
    Keeps s (State.execReg t a1 a2 a3) := by
  unfold State.execReg
  extract_lets +onlyGivenNames x1
  clear_value x1
  extract_lets +onlyGivenNames x2
  clear_value x2
  extract_lets +onlyGivenNames x3
  clear_value x3
  split
  · refine keeps_State_retireX ?_
    assumption
  · refine keeps_State_retireX ?_
    assumption
  · refine keeps_State_setHart ?_
    assumption
  · refine keeps_State_setHart ?_
    assumption
  · refine keeps_State_retire ?_
    assumption
  · refine keeps_State_retireX ?_
    assumption
  · refine keeps_State_retireX ?_
    assumption
  · refine Keeps.ite ?_ ?_
    · refine keeps_State_illegal ?_
      assumption
    · refine keeps_State_fpDone ?_
      assumption
  · refine Keeps.ite ?_ ?_
    · refine keeps_State_illegal ?_
      assumption
    · refine keeps_State_fpDone ?_
      assumption
  · refine keeps_State_retire ?_
    assumption

theorem keeps_State_execRv {s t : State} {a1 : _} {a2 : _} {a3 : _} {a4 : _} (h : Keeps s t) :
    Keeps s (State.execRv t a1 a2 a3 a4) := by
  unfold State.execRv
  split
  · refine keeps_State_execMem ?_
    assumption
  · refine keeps_State_execMem ?_
    assumption
  · refine keeps_State_execMem ?_
    assumption
  · refine keeps_State_execMem ?_
    assumption
  · refine keeps_State_execMem ?_
    assumption
  · refine keeps_State_execMem ?_
    assumption
  · refine keeps_State_execMem ?_
    assumption
  · refine keeps_State_except ?_
    assumption
  · refine Keeps.ite ?_ ?_
    · refine keeps_State_dbgHalt ?_
      assumption
    · extract_lets +onlyGivenNames x1
      have hx1 : Keeps s x1.2 := ?_
      · clear_value x1
        refine keeps_State_except ?_
        assumption
      · unfold x1
        refine keeps_State_draw ?_
        assumption
  · refine keeps_State_doMret ?_
    assumption
  · refine keeps_State_doWfi ?_
    assumption
  · refine keeps_State_csrDo ?_
    assumption
  · refine keeps_State_doDzlSetup ?_
    assumption
  · refine keeps_State_doCfence ?_
    assumption
  · refine keeps_State_doCord ?_
    assumption
  · refine Keeps.ite ?_ ?_
    · refine keeps_State_doWfiEmber ?_
      assumption
    · refine keeps_State_doWfi ?_
      assumption
  · refine keeps_State_execReg ?_
    assumption
  · refine keeps_State_execReg ?_
    assumption
  · refine keeps_State_execReg ?_
    assumption
  · refine keeps_State_execReg ?_
    assumption
  · refine keeps_State_execReg ?_
    assumption
  · refine keeps_State_execReg ?_
    assumption
  · refine keeps_State_execReg ?_
    assumption
  · refine keeps_State_execReg ?_
    assumption
  · refine keeps_State_execReg ?_
    assumption
  · refine keeps_State_execReg ?_
    assumption

theorem keeps_State_hartDo {s t : State} {a1 : _} {a2 : _} (h : Keeps s t) :
    Keeps s (State.hartDo t a1 a2) := by
  unfold State.hartDo
  refine Keeps.ite ?_ ?_
  · refine keeps_State_applyLogged ?_
    refine keeps_State_execRv ?_
    assumption
  · assumption

theorem keeps_dzcCfence {s t : State} {a0 : _} (h : Keeps s t) :
    Keeps s (dzcCfence a0 t) := by
  unfold dzcCfence
  refine keeps_State_hartDo ?_
  assumption

theorem keeps_execDzcCfence {s t : State} {a0 : _} {u : State} (h : Keeps s t)
    (e : execDzcCfence a0 t = .next u) : Keeps s u := by
  unfold execDzcCfence at e
  injection e with e
  subst e
  refine keeps_dzcCfence ?_
  assumption

theorem keeps_dzcWfiEmber {s t : State} {a0 : _} (h : Keeps s t) :
    Keeps s (dzcWfiEmber a0 t) := by
  unfold dzcWfiEmber
  refine keeps_State_hartDo ?_
  assumption

theorem keeps_dzlSetup {s t : State} {a0 : _} {a1 : _} {a2 : _} (h : Keeps s t) :
    Keeps s (dzlSetup a0 a1 a2 t) := by
  unfold dzlSetup
  refine keeps_State_hartDo ?_
  assumption

theorem keeps_execDzlSetup {s t : State} {a0 : _} {a1 : _} {a2 : _} {u : State} (h : Keeps s t)
    (e : execDzlSetup a0 a1 a2 t = .next u) : Keeps s u := by
  unfold execDzlSetup at e
  injection e with e
  subst e
  refine keeps_dzlSetup ?_
  assumption

theorem keeps_wfi {s t : State} {a0 : _} (h : Keeps s t) :
    Keeps s (wfi a0 t) := by
  unfold wfi
  refine keeps_State_hartDo ?_
  assumption

theorem keeps_csrWrite {s t : State} {a0 : _} {a1 : _} {a2 : _} {a3 : _} {a4 : _} {a5 : _} (h : Keeps s t) :
    Keeps s (csrWrite a0 a1 a2 a3 a4 a5 t) := by
  unfold csrWrite
  refine keeps_State_hartDo ?_
  assumption

theorem keeps_execCsrWrite {s t : State} {a0 : _} {a1 : _} {a2 : _} {a3 : _} {a4 : _} {a5 : _} {u : State} (h : Keeps s t)
    (e : execCsrWrite a0 a1 a2 a3 a4 a5 t = .next u) : Keeps s u := by
  unfold execCsrWrite at e
  injection e with e
  subst e
  refine keeps_csrWrite ?_
  assumption

theorem keeps_dzcWfi {s t : State} {a0 : _} (h : Keeps s t) :
    Keeps s (dzcWfi a0 t) := by
  unfold dzcWfi
  refine keeps_State_hartDo ?_
  assumption

theorem keeps_dzcCord {s t : State} {a0 : _} {a1 : _} (h : Keeps s t) :
    Keeps s (dzcCord a0 a1 t) := by
  unfold dzcCord
  refine keeps_State_hartDo ?_
  assumption

theorem keeps_State_fetchParcel {s t : State} {a1 : _} {a2 : _} {a3 : _} (h : Keeps s t) :
    Keeps s (State.fetchParcel t a1 a2 a3).2 := by
  refine KeepsS.out ?_
  unfold State.fetchParcel
  extract_lets +onlyGivenNames x1
  clear_value x1
  refine KeepsS.ite ?_ ?_
  · refine KeepsS.pair ?_
    assumption
  · refine ⟨?_⟩
    refine keeps_State_laneAccess ?_
    assumption

theorem keeps_execDzcWfiEmber {s t : State} {a0 : _} {u : State} (h : Keeps s t)
    (e : execDzcWfiEmber a0 t = .next u) : Keeps s u := by
  unfold execDzcWfiEmber at e
  injection e with e
  subst e
  refine keeps_dzcWfiEmber ?_
  assumption

theorem keeps_plicClaim {s t : State} {a0 : _} {a1 : _} (h : Keeps s t) :
    Keeps s (plicClaim a0 a1 t) := by
  unfold plicClaim
  refine Keeps.ite ?_ ?_
  · refine keeps_State_hartDo ?_
    assumption
  · assumption

theorem keeps_State_runWord {s t : State} {a1 : _} {a2 : _} {a3 : _} (h : Keeps s t) :
    Keeps s (State.runWord t a1 a2 a3) := by
  unfold State.runWord
  extract_lets +onlyGivenNames x1
  clear_value x1
  split
  · refine keeps_State_illegal ?_
    assumption
  · refine keeps_State_execRv ?_
    assumption

theorem keeps_State_dropFetched {s t : State} {a1 : _} (h : Keeps s t) :
    Keeps s (State.dropFetched t a1) := by
  unfold State.dropFetched
  refine Keeps.same (t := t) ?_ rfl rfl rfl
  assumption

theorem keeps_State_runHand {s t : State} {a1 : _} {a2 : _} {a3 : _} (h : Keeps s t) :
    Keeps s (State.runHand t a1 a2 a3) := by
  unfold State.runHand
  extract_lets +onlyGivenNames x1
  have hx1 : Keeps s x1 := ?_
  · clear_value x1
    refine Keeps.ite ?_ ?_
    · refine Keeps.same (t := x1) ?_ rfl rfl rfl
      assumption
    · assumption
  · unfold x1
    refine keeps_State_runWord ?_
    refine keeps_State_dropFetched ?_
    assumption

theorem keeps_State_fetch {s t : State} {a1 : _} {a2 : _} (h : Keeps s t) :
    Keeps s (State.fetch t a1 a2).2 := by
  refine KeepsS.out ?_
  unfold State.fetch
  extract_lets +onlyGivenNames x1
  clear_value x1
  extract_lets +onlyGivenNames x2
  have hx2 : Keeps s x2.2 := ?_
  · clear_value x2
    split
    · refine KeepsS.ite ?_ ?_
      · refine ⟨?_⟩
        assumption
      · extract_lets +onlyGivenNames x3
        have hx3 : Keeps s x3.2 := ?_
        · clear_value x3
          refine KeepsS.pair ?_
          assumption
        · unfold x3
          refine keeps_State_fetchParcel ?_
          assumption
    · refine ⟨?_⟩
      assumption
  · unfold x2
    refine keeps_State_fetchParcel ?_
    assumption

theorem keeps_State_runPc {s t : State} {a1 : _} {a2 : _} {a3 : _} (h : Keeps s t) :
    Keeps s (State.runPc t a1 a2 a3) := by
  unfold State.runPc
  split
  · refine keeps_State_runHand ?_
    assumption
  · extract_lets +onlyGivenNames x1
    have hx1 : Keeps s x1.2 := ?_
    · clear_value x1
      split
      · refine keeps_State_park ?_
        assumption
      · refine keeps_State_onResp (fun _ => ?_) ?_
        · refine keeps_State_runHand ?_
          assumption
        · assumption
    · unfold x1
      refine keeps_State_fetch ?_
      assumption

theorem keeps_instruction {s t : State} {a0 : _} {a1 : _} {a2 : _} (h : Keeps s t) :
    Keeps s (instruction a0 a1 a2 t) := by
  unfold instruction
  refine Keeps.ite ?_ ?_
  · assumption
  · refine Keeps.ite ?_ ?_
    · refine keeps_State_applyLogged ?_
      refine keeps_State_runPc ?_
      assumption
    · refine Keeps.ite ?_ ?_
      · refine keeps_State_applyLogged ?_
        refine keeps_State_retire ?_
        assumption
      · assumption

theorem keeps_execDzcWfi {s t : State} {a0 : _} {u : State} (h : Keeps s t)
    (e : execDzcWfi a0 t = .next u) : Keeps s u := by
  unfold execDzcWfi at e
  injection e with e
  subst e
  refine keeps_dzcWfi ?_
  assumption

theorem keeps_plicComplete {s t : State} {a0 : _} {a1 : _} (h : Keeps s t) :
    Keeps s (plicComplete a0 a1 t) := by
  unfold plicComplete
  refine Keeps.ite ?_ ?_
  · refine keeps_State_hartDo ?_
    assumption
  · assumption

theorem keeps_execPlicComplete {s t : State} {a0 : _} {a1 : _} {u : State} (h : Keeps s t)
    (e : execPlicComplete a0 a1 t = .next u) : Keeps s u := by
  unfold execPlicComplete at e
  injection e with e
  subst e
  refine keeps_plicComplete ?_
  assumption

theorem keeps_interruptTake {s t : State} {a0 : _} (h : Keeps s t) :
    Keeps s (interruptTake a0 t) := by
  unfold interruptTake
  split
  · assumption
  · refine Keeps.ite ?_ ?_
    · assumption
    · refine Keeps.ite ?_ ?_
      · refine keeps_State_setHart ?_
        refine keeps_State_dropFetched ?_
        assumption
      · refine Keeps.ite ?_ ?_
        · extract_lets +onlyGivenNames x1
          have hx1 : Keeps s x1 := ?_
          · clear_value x1
            refine keeps_State_applyLogged ?_
            refine keeps_State_setHart ?_
            assumption
          · unfold x1
            refine keeps_State_retire ?_
            assumption
        · assumption

theorem keeps_execPlicClaim {s t : State} {a0 : _} {a1 : _} {u : State} (h : Keeps s t)
    (e : execPlicClaim a0 a1 t = .next u) : Keeps s u := by
  unfold execPlicClaim at e
  injection e with e
  subst e
  refine keeps_plicClaim ?_
  assumption

theorem keeps_mret {s t : State} {a0 : _} (h : Keeps s t) :
    Keeps s (mret a0 t) := by
  unfold mret
  refine keeps_State_hartDo ?_
  assumption

theorem keeps_execMret {s t : State} {a0 : _} {u : State} (h : Keeps s t)
    (e : execMret a0 t = .next u) : Keeps s u := by
  unfold execMret at e
  injection e with e
  subst e
  refine keeps_mret ?_
  assumption

theorem keeps_execDzcCord {s t : State} {a0 : _} {a1 : _} {u : State} (h : Keeps s t)
    (e : execDzcCord a0 a1 t = .next u) : Keeps s u := by
  unfold execDzcCord at e
  injection e with e
  subst e
  refine keeps_dzcCord ?_
  assumption

theorem keeps_execWfi {s t : State} {a0 : _} {u : State} (h : Keeps s t)
    (e : execWfi a0 t = .next u) : Keeps s u := by
  unfold execWfi at e
  injection e with e
  subst e
  refine keeps_wfi ?_
  assumption

theorem keeps_State_islandOff {s t : State} {a1 : _} (h : Keeps s t) :
    Keeps s (State.islandOff t a1) := by
  unfold State.islandOff
  extract_lets +onlyGivenNames x1
  clear_value x1
  extract_lets +onlyGivenNames x2
  have hx2 : Keeps s x2 := ?_
  · clear_value x2
    refine Keeps.ite ?_ ?_
    · refine Keeps.same (t := x2) ?_ rfl rfl rfl
      assumption
    · assumption
  · unfold x2
    refine keeps_State_setIsl ?_
    assumption

theorem keeps_State_islandsOff {s t : State} (h : Keeps s t) :
    Keeps s (State.islandsOff t) := by
  unfold State.islandsOff
  refine Keeps.foldl ?_ (fun u1 y2 hu1 => ?_)
  · assumption
  · refine keeps_State_islandOff ?_
    assumption

theorem keeps_State_netQuiesce {s t : State} (h : Keeps s t) :
    Keeps s (State.netQuiesce t) := by
  unfold State.netQuiesce
  extract_lets +onlyGivenNames x1
  have hx1 : Keeps s x1 := ?_
  · clear_value x1
    extract_lets +onlyGivenNames x2
    have hx2 : Keeps s x2 := ?_
    · clear_value x2
      refine Keeps.same (t := x2) ?_ rfl rfl rfl
      assumption
    · unfold x2
      refine keeps_State_wr ?_
      assumption
  · unfold x1
    refine Keeps.foldl ?_ (fun u3 y4 hu3 => ?_)
    · assumption
    · refine keeps_State_wr ?_
      assumption

theorem keeps_State_kindleE3 {s t : State} (h : Keeps s t) :
    Keeps s (State.kindleE3 t) := by
  unfold State.kindleE3
  extract_lets +onlyGivenNames x1
  have hx1 : Keeps s x1 := ?_
  · clear_value x1
    extract_lets +onlyGivenNames x2
    extract_lets +onlyGivenNames x3
    extract_lets +onlyGivenNames x4
    have hx4 : Keeps s x4 := ?_
    · clear_value x4
      refine keeps_State_calDram ?_
      assumption
    · unfold x4
      refine Keeps.same (t := x1) ?_ rfl rfl rfl
      assumption
  · unfold x1
    refine keeps_State_wr ?_
    refine keeps_State_wr ?_
    refine keeps_State_wr ?_
    assumption

theorem keeps_State_kindleHarts {s t : State} (h : Keeps s t) :
    Keeps s (State.kindleHarts t) := by
  unfold State.kindleHarts
  extract_lets +onlyGivenNames x1
  clear_value x1
  refine Keeps.same (t := t) ?_ rfl rfl rfl
  assumption

theorem keeps_State_hartsRun {s t : State} (h : Keeps s t) :
    Keeps s (State.hartsRun t) := by
  unfold State.hartsRun
  refine Keeps.foldl ?_ (fun u1 y2 hu1 => ?_)
  · assumption
  · refine keeps_State_setHart ?_
    assumption

theorem keeps_State_emberRefuse {s t : State} {a1 : _} (h : Keeps s t) :
    Keeps s (State.emberRefuse t a1) := by
  unfold State.emberRefuse
  extract_lets +onlyGivenNames x1
  have hx1 : Keeps s x1 := ?_
  · clear_value x1
    extract_lets +onlyGivenNames x2
    have hx2 : Keeps s x2 := ?_
    · clear_value x2
      extract_lets +onlyGivenNames x3
      have hx3 : Keeps s x3 := ?_
      · clear_value x3
        refine Keeps.same (t := x3) ?_ rfl rfl rfl
        assumption
      · unfold x3
        refine keeps_State_hartsRun ?_
        assumption
    · unfold x2
      refine keeps_State_raise ?_
      assumption
  · unfold x1
    refine keeps_State_wr ?_
    assumption

theorem keeps_State_emberReached {s t : State} {a1 : _} (h : Keeps s t) :
    Keeps s (State.emberReached t a1) := by
  unfold State.emberReached
  refine keeps_State_wr ?_
  refine keeps_State_wr ?_
  assumption

theorem keeps_State_lanesDark {s t : State} (h : Keeps s t) :
    Keeps s (State.lanesDark t) := by
  unfold State.lanesDark
  extract_lets +onlyGivenNames x1
  have hx1 : Keeps s x1 := ?_
  · clear_value x1
    extract_lets +onlyGivenNames x2
    have hx2 : Keeps s x2 := ?_
    · clear_value x2
      extract_lets +onlyGivenNames x3
      have hx3 : Keeps s x3 := ?_
      · clear_value x3
        refine Keeps.same (t := x3) ?_ rfl rfl rfl
        assumption
      · unfold x3
        refine keeps_State_wr ?_
        refine keeps_State_wr ?_
        refine keeps_State_wr ?_
        assumption
    · unfold x2
      refine keeps_State_wr ?_
      refine keeps_State_wr ?_
      refine keeps_State_wr ?_
      assumption
  · unfold x1
    refine keeps_State_wr64 ?_
    assumption

theorem keeps_State_powerTo {s t : State} {a1 : _} (h : Keeps s t) :
    Keeps s (State.powerTo t a1) := by
  unfold State.powerTo
  refine Keeps.same (t := t) ?_ rfl rfl rfl
  assumption

theorem keeps_State_clocksDeep {s t : State} (h : Keeps s t) :
    Keeps s (State.clocksDeep t) := by
  unfold State.clocksDeep
  extract_lets +onlyGivenNames x1
  have hx1 : Keeps s x1 := ?_
  · clear_value x1
    extract_lets +onlyGivenNames x2
    have hx2 : Keeps s x2 := ?_
    · clear_value x2
      refine Keeps.same (t := x2) ?_ rfl rfl rfl
      assumption
    · unfold x2
      refine keeps_State_wr ?_
      assumption
  · unfold x1
    refine keeps_State_wr ?_
    refine keeps_State_wr ?_
    refine keeps_State_wr ?_
    assumption

theorem keeps_State_saveWrite {s : State} {b : Nat} {x : List Byte × State} (h : Keeps s x.2) :
    Keeps s (State.saveWrite b x) := by
  unfold State.saveWrite
  exact Keeps.same (t := x.2.setBytes b x.1) (keeps_State_setBytes h) rfl rfl rfl

theorem keeps_State_emberSave {s t : State} (h : Keeps s t) : Keeps s (State.emberSave t) := by
  unfold State.emberSave
  have key : ∀ n, Keeps s (let x := t.freeBytes n; State.saveWrite t.saveBase (withCrc x.1, x.2)) := by
    intro n
    have hx : Keeps s (t.freeBytes n).2 := keeps_State_freeBytes h
    exact keeps_State_saveWrite (x := (withCrc (t.freeBytes n).1, (t.freeBytes n).2)) hx
  exact key saveLen

theorem keeps_State_deepSleep {s t : State} (h : Keeps s t) :
    Keeps s (State.deepSleep t) := by
  unfold State.deepSleep
  refine keeps_State_clocksDeep ?_
  refine keeps_State_islandsOff ?_
  refine keeps_State_emberSave ?_
  assumption

theorem keeps_emberEntryComplete {s t : State} (h : Keeps s t) :
    Keeps s (emberEntryComplete t) := by
  unfold emberEntryComplete
  split
  · refine Keeps.ite ?_ ?_
    · assumption
    · extract_lets +onlyGivenNames x1
      have hx1 : Keeps s x1 := ?_
      · clear_value x1
        refine Keeps.ite ?_ ?_
        · refine keeps_State_powerTo ?_
          refine keeps_State_deepSleep ?_
          assumption
        · refine keeps_State_powerTo ?_
          assumption
      · unfold x1
        refine keeps_State_emberReached ?_
        refine keeps_State_lanesDark ?_
        refine keeps_State_rackHold ?_
        assumption
  · assumption

theorem keeps_State_emberQuiesce {s t : State} {a1 : _} (h : Keeps s t) :
    Keeps s (State.emberQuiesce t a1) := by
  unfold State.emberQuiesce
  extract_lets +onlyGivenNames x1
  have hx1 : Keeps s x1 := ?_
  · clear_value x1
    refine Keeps.same (t := x1) ?_ rfl rfl rfl
    assumption
  · unfold x1
    refine keeps_State_safSleep ?_
    refine keeps_State_fieldStop ?_
    refine keeps_State_netQuiesce ?_
    assumption

theorem keeps_emberDecision {s t : State} (h : Keeps s t) :
    Keeps s (emberDecision t) := by
  unfold emberDecision
  refine Keeps.ite ?_ ?_
  · assumption
  · extract_lets +onlyGivenNames x1
    have hx1 : Keeps s x1 := ?_
    · clear_value x1
      split
      · refine keeps_State_emberRefuse ?_
        assumption
      · refine Keeps.ite ?_ ?_
        · extract_lets +onlyGivenNames x2
          have hx2 : Keeps s x2 := ?_
          · clear_value x2
            refine Keeps.same (t := x2) ?_ rfl rfl rfl
            assumption
          · unfold x2
            refine keeps_State_emberReached ?_
            assumption
        · refine keeps_State_emberQuiesce ?_
          assumption
    · unfold x1
      refine keeps_State_wr ?_
      assumption

theorem keeps_State_saveLost {s t : State} {a1 : _} (h : Keeps s t) :
    Keeps s (State.saveLost t a1) := by
  unfold State.saveLost
  refine Keeps.foldl ?_ (fun u1 y2 hu1 => ?_)
  · assumption
  · refine keeps_State_setByte ?_
    assumption

theorem keeps_State_kindleBlocks {s t : State} (h : Keeps s t) :
    Keeps s (State.kindleBlocks t) := by
  unfold State.kindleBlocks
  extract_lets +onlyGivenNames x1
  have hx1 : Keeps s x1 := ?_
  · clear_value x1
    refine keeps_State_cbStartUp ?_
    refine keeps_State_crStart ?_
    assumption
  · unfold x1
    refine keeps_State_cycKindle ?_
    refine keeps_State_rackRelease ?_
    refine keeps_State_linksGo ?_
    refine keeps_State_linksHeld ?_
    assumption

theorem keeps_State_kindleLanes {s t : State} (h : Keeps s t) :
    Keeps s (State.kindleLanes t) := by
  unfold State.kindleLanes
  refine Keeps.ite ?_ ?_
  · assumption
  · refine Keeps.foldl ?_ (fun u1 y2 hu1 => ?_)
    · assumption
    · refine Keeps.ite ?_ ?_
      · refine keeps_State_raise ?_
        refine keeps_State_setLane ?_
        assumption
      · assumption

end Machine
end Sys2Proof
end

