-- ==== Sys2Proof/Laws/Keeps11.lean ====
section
/-!
SUPPORT. Keeps of the operations of Ember, Vote, FlueOut, Engines, Fires, MpCore, Debug, Dispatch, Tick, Safety.
-/

set_option Elab.async false

namespace Sys2Proof
namespace Machine

theorem keeps_kindleComplete {s t : State} {a0 : _} (h : Keeps s t) :
    Keeps s (kindleComplete a0 t) := by
  unfold kindleComplete
  extract_lets +onlyGivenNames x1
  clear_value x1
  extract_lets +onlyGivenNames x2
  have hx2 : Keeps s x2 := ?_
  · clear_value x2
    refine Keeps.ite ?_ ?_
    · assumption
    · refine Keeps.ite ?_ ?_
      · refine keeps_State_resetModule ?_
        assumption
      · extract_lets +onlyGivenNames x3
        have hx3 : Keeps s x3 := ?_
        · clear_value x3
          extract_lets +onlyGivenNames x4
          have hx4 : Keeps s x4 := ?_
          · clear_value x4
            extract_lets +onlyGivenNames x5
            extract_lets +onlyGivenNames x6
            have hx6 : Keeps s x6 := ?_
            · clear_value x6
              refine Keeps.ite ?_ ?_
              · assumption
              · refine keeps_State_kindleBlocks ?_
                refine keeps_State_kindleHarts ?_
                refine keeps_State_kindleLanes ?_
                assumption
            · unfold x6
              refine Keeps.same (t := x4) ?_ rfl rfl rfl
              assumption
          · unfold x4
            refine Keeps.ite ?_ ?_
            · refine keeps_State_kindleE3 ?_
              assumption
            · refine keeps_State_calShow ?_
              refine keeps_State_calJudge ?_
              assumption
        · unfold x3
          assumption
  · unfold x2
    refine Keeps.ite ?_ ?_
    · refine keeps_State_saveLost ?_
      assumption
    · assumption

theorem keeps_execEmberDecision {s t : State} {u : State} (h : Keeps s t)
    (e : execEmberDecision t = .next u) : Keeps s u := by
  unfold execEmberDecision at e
  injection e with e
  subst e
  refine keeps_emberDecision ?_
  assumption

theorem keeps_execEmberEntryComplete {s t : State} {u : State} (h : Keeps s t)
    (e : execEmberEntryComplete t = .next u) : Keeps s u := by
  unfold execEmberEntryComplete at e
  injection e with e
  subst e
  refine keeps_emberEntryComplete ?_
  assumption

theorem keeps_execKindleComplete {s t : State} {a0 : _} {u : State} (h : Keeps s t)
    (e : execKindleComplete a0 t = .next u) : Keeps s u := by
  unfold execKindleComplete at e
  injection e with e
  subst e
  refine keeps_kindleComplete ?_
  assumption

theorem keeps_State_eccCount1 {s t : State} {a1 : _} {a2 : _} (h : Keeps s t) :
    Keeps s (State.eccCount1 t a1 a2) := by
  unfold State.eccCount1
  extract_lets +onlyGivenNames x1
  have hx1 : Keeps s x1 := ?_
  · clear_value x1
    extract_lets +onlyGivenNames x2
    clear_value x2
    refine Keeps.ite ?_ ?_
    · refine keeps_State_raise ?_
      assumption
    · assumption
  · unfold x1
    refine keeps_State_satAdd ?_
    assumption

theorem keeps_State_respond {s t : State} {a1 : _} {a2 : _} (h : Keeps s t) :
    Keeps s (State.respond t a1 a2) := by
  unfold State.respond
  split
  · refine Keeps.same (t := t) ?_ rfl rfl rfl
    assumption
  · refine Keeps.same (t := t) ?_ rfl rfl rfl
    assumption
  · refine keeps_State_park ?_
    assumption
  · refine keeps_State_diverge ?_
    assumption

theorem keeps_State_passReq {s t : State} {a1 : _} {a2 : _} (h : Keeps s t) :
    Keeps s (State.passReq t a1 a2) := by
  unfold State.passReq
  extract_lets +onlyGivenNames x1
  have hx1 : Keeps s x1.2 := ?_
  · clear_value x1
    refine keeps_State_respond ?_
    assumption
  · unfold x1
    refine keeps_State_laneAccess ?_
    assumption

theorem keeps_State_voteReq {s t : State} {a1 : _} {a2 : _} (h : Keeps s t) :
    Keeps s (State.voteReq t a1 a2) := by
  unfold State.voteReq
  split
  · assumption
  · split
    · refine keeps_State_passReq ?_
      assumption
    · extract_lets +onlyGivenNames x1
      have hx1 : Keeps s x1 := ?_
      · clear_value x1
        split
        · assumption
        · refine keeps_State_passReq ?_
          assumption
      · unfold x1
        refine keeps_State_fence ?_
        refine keeps_State_faultRecord ?_
        assumption
    · refine keeps_State_unresolved ?_
      assumption

theorem keeps_voteMissingTimeout {s t : State} {a0 : _} {a1 : _} {a2 : _} (h : Keeps s t) :
    Keeps s (voteMissingTimeout a0 a1 a2 t) := by
  unfold voteMissingTimeout
  refine Keeps.ite ?_ ?_
  · assumption
  · refine keeps_State_voteReq ?_
    assumption

theorem keeps_execVoteMissingTimeout {s t : State} {a0 : _} {a1 : _} {a2 : _} {u : State} (h : Keeps s t)
    (e : execVoteMissingTimeout a0 a1 a2 t = .next u) : Keeps s u := by
  unfold execVoteMissingTimeout at e
  injection e with e
  subst e
  refine keeps_voteMissingTimeout ?_
  assumption

theorem keeps_votedRequest {s t : State} {a0 : _} {a1 : _} {a2 : _} {a3 : _} {a4 : _} (h : Keeps s t) :
    Keeps s (votedRequest a0 a1 a2 a3 a4 t) := by
  unfold votedRequest
  refine Keeps.ite ?_ ?_
  · assumption
  · refine keeps_State_voteReq ?_
    refine keeps_State_eccCount1 ?_
    refine keeps_State_eccCount1 ?_
    refine keeps_State_eccCount1 ?_
    assumption

theorem keeps_execVotedRequest {s t : State} {a0 : _} {a1 : _} {a2 : _} {a3 : _} {a4 : _} {u : State} (h : Keeps s t)
    (e : execVotedRequest a0 a1 a2 a3 a4 t = .next u) : Keeps s u := by
  unfold execVotedRequest at e
  injection e with e
  subst e
  refine keeps_votedRequest ?_
  assumption

theorem keeps_nonpostedIssue {s t : State} {a0 : _} (h : Keeps s t) :
    Keeps s (nonpostedIssue a0 t) := by
  unfold nonpostedIssue
  split
  · refine Keeps.ite ?_ ?_
    · refine keeps_State_passReq ?_
      assumption
    · assumption
  · assumption

theorem keeps_execNonpostedIssue {s t : State} {a0 : _} {u : State} (h : Keeps s t)
    (e : execNonpostedIssue a0 t = .next u) : Keeps s u := by
  unfold execNonpostedIssue at e
  injection e with e
  subst e
  refine keeps_nonpostedIssue ?_
  assumption

theorem keeps_State_partnerLost {s t : State} (h : Keeps s t) :
    Keeps s (State.partnerLost t) := by
  unfold State.partnerLost
  refine keeps_State_raise ?_
  refine keeps_State_wr ?_
  assumption

theorem keeps_State_ackWait {s t : State} {a1 : _} (h : Keeps s t) :
    Keeps s (State.ackWait t a1) := by
  unfold State.ackWait
  refine Keeps.same (t := t) ?_ rfl rfl rfl
  assumption

theorem keeps_State_flueWatch {s t : State} {a1 : _} (h : Keeps s t) :
    Keeps s (State.flueWatch t a1) := by
  unfold State.flueWatch
  refine Keeps.ite ?_ ?_
  · refine keeps_State_watch ?_
    assumption
  · assumption

theorem keeps_State_flueWrite {s t : State} {a1 : _} (h : Keeps s t) :
    Keeps s (State.flueWrite t a1) := by
  unfold State.flueWrite
  refine Keeps.foldl ?_ (fun u1 y2 hu1 => ?_)
  · assumption
  · refine keeps_State_busWrite ?_
    assumption

theorem keeps_State_flueAmo {s t : State} {a1 : _} {a2 : _} (h : Keeps s t) :
    Keeps s (State.flueAmo t a1 a2) := by
  unfold State.flueAmo
  extract_lets +onlyGivenNames x1
  have hx1 : Keeps s x1.2 := ?_
  · clear_value x1
    refine Keeps.ite ?_ ?_
    · assumption
    · extract_lets +onlyGivenNames x2
      clear_value x2
      refine keeps_State_busWrite ?_
      assumption
  · unfold x1
    refine keeps_State_readCheck ?_
    assumption

theorem keeps_State_takeRec {s t : State} {a1 : _} (h : Keeps s t) :
    Keeps s (State.takeRec t a1) := by
  unfold State.takeRec
  extract_lets +onlyGivenNames x1
  clear_value x1
  split
  · refine keeps_State_flueWatch ?_
    refine keeps_State_flueWrite ?_
    assumption
  · refine keeps_State_flueWrite ?_
    assumption
  · refine keeps_State_flueWatch ?_
    refine keeps_State_flueAmo ?_
    assumption
  · refine keeps_State_rackPost ?_
    assumption
  · refine keeps_State_setupWrite ?_
    assumption
  · refine keeps_State_commitReleased ?_
    assumption

theorem keeps_State_fenceRetire {s t : State} {a1 : _} (h : Keeps s t) :
    Keeps s (State.fenceRetire t a1) := by
  unfold State.fenceRetire
  refine Keeps.ite ?_ ?_
  · refine keeps_State_retire ?_
    refine keeps_State_dropFetched ?_
    assumption
  · assumption

theorem keeps_State_unstall {s t : State} {a1 : _} (h : Keeps s t) :
    Keeps s (State.unstall t a1) := by
  unfold State.unstall
  refine Keeps.same (t := t) ?_ rfl rfl rfl
  assumption

theorem keeps_State_dropFlue {s t : State} {a1 : _} (h : Keeps s t) :
    Keeps s (State.dropFlue t a1) := by
  unfold State.dropFlue
  refine keeps_State_unstall ?_
  refine keeps_State_setRecs ?_
  refine keeps_State_quotaHeld ?_
  assumption

theorem keeps_flueDestStall {s t : State} {a0 : _} (h : Keeps s t) :
    Keeps s (flueDestStall a0 t) := by
  unfold flueDestStall
  extract_lets +onlyGivenNames x1
  clear_value x1
  split
  · assumption
  · refine Keeps.ite ?_ ?_
    · extract_lets +onlyGivenNames x2
      clear_value x2
      extract_lets +onlyGivenNames x3
      have hx3 : Keeps s x3 := ?_
      · clear_value x3
        extract_lets +onlyGivenNames x4
        have hx4 : Keeps s x4 := ?_
        · clear_value x4
          refine keeps_State_raise ?_
          assumption
        · unfold x4
          refine Keeps.ite ?_ ?_
          · assumption
          · refine keeps_State_wr ?_
            refine keeps_State_wr ?_
            assumption
      · unfold x3
        refine Keeps.same (t := t) ?_ rfl rfl rfl
        assumption
    · assumption

theorem keeps_State_releaseRec {s t : State} {a1 : _} (h : Keeps s t) :
    Keeps s (State.releaseRec t a1) := by
  unfold State.releaseRec
  extract_lets +onlyGivenNames x1
  clear_value x1
  extract_lets +onlyGivenNames x2
  clear_value x2
  extract_lets +onlyGivenNames x3
  have hx3 : Keeps s x3 := ?_
  · clear_value x3
    refine Keeps.ite ?_ ?_
    · refine keeps_State_takeRec ?_
      refine keeps_State_setStream ?_
      assumption
    · refine Keeps.ite ?_ ?_
      · refine keeps_State_raise ?_
        refine keeps_State_satAdd ?_
        assumption
      · refine keeps_State_enterSafe ?_
        refine keeps_State_raise ?_
        refine keeps_State_wr ?_
        assumption
  · unfold x3
    refine keeps_State_dropFlue ?_
    assumption

theorem keeps_flueRelease {s t : State} {a0 : _} (h : Keeps s t) :
    Keeps s (flueRelease a0 t) := by
  unfold flueRelease
  refine Keeps.ite ?_ ?_
  · assumption
  · split
    · assumption
    · refine Keeps.foldl ?_ (fun u1 y2 hu1 => ?_)
      · refine keeps_State_releaseRec ?_
        assumption
      · refine keeps_State_fenceRetire ?_
        assumption

theorem keeps_execFlueRelease {s t : State} {a0 : _} {u : State} (h : Keeps s t)
    (e : execFlueRelease a0 t = .next u) : Keeps s u := by
  unfold execFlueRelease at e
  injection e with e
  subst e
  refine keeps_flueRelease ?_
  assumption

theorem keeps_flueHeldEntry {s t : State} (h : Keeps s t) :
    Keeps s (flueHeldEntry t) := by
  unfold flueHeldEntry
  refine Keeps.ite ?_ ?_
  · assumption
  · split
    · assumption
    · extract_lets +onlyGivenNames x1
      clear_value x1
      extract_lets +onlyGivenNames x2
      have hx2 : Keeps s x2 := ?_
      · clear_value x2
        extract_lets +onlyGivenNames x3
        have hx3 : Keeps s x3.2 := ?_
        · clear_value x3
          split
          · extract_lets +onlyGivenNames x4
            have hx4 : Keeps s x4 := ?_
            · clear_value x4
              refine Keeps.same (t := x4) ?_ rfl rfl rfl
              assumption
            · unfold x4
              assumption
          · assumption
        · unfold x3
          refine keeps_State_regionReq ?_
          assumption
      · unfold x2
        refine Keeps.same (t := t) ?_ rfl rfl rfl
        assumption

theorem keeps_execFlueHeldEntry {s t : State} {u : State} (h : Keeps s t)
    (e : execFlueHeldEntry t = .next u) : Keeps s u := by
  unfold execFlueHeldEntry at e
  injection e with e
  subst e
  refine keeps_flueHeldEntry ?_
  assumption

theorem keeps_fluePairNoack {s t : State} (h : Keeps s t) :
    Keeps s (fluePairNoack t) := by
  unfold fluePairNoack
  split
  · assumption
  · refine Keeps.ite ?_ ?_
    · extract_lets +onlyGivenNames x1
      have hx1 : Keeps s x1 := ?_
      · clear_value x1
        refine keeps_State_partnerLost ?_
        refine keeps_State_raise ?_
        refine keeps_State_satAdd ?_
        refine keeps_State_ackWait ?_
        assumption
      · unfold x1
        refine keeps_State_pairSet ?_
        assumption
    · assumption

theorem keeps_execFlueDestStall {s t : State} {a0 : _} {u : State} (h : Keeps s t)
    (e : execFlueDestStall a0 t = .next u) : Keeps s u := by
  unfold execFlueDestStall at e
  injection e with e
  subst e
  refine keeps_flueDestStall ?_
  assumption

theorem keeps_execFluePairNoack {s t : State} {u : State} (h : Keeps s t)
    (e : execFluePairNoack t = .next u) : Keeps s u := by
  unfold execFluePairNoack at e
  injection e with e
  subst e
  refine keeps_fluePairNoack ?_
  assumption

theorem keeps_State_runPasses {s t : State} {a1 : _} (h : Keeps s t) :
    Keeps s (State.runPasses t a1) := by
  induction a1 generalizing t
  · unfold State.runPasses
    assumption
  · rename_i ih
    unfold State.runPasses
    refine Keeps.ite ?_ ?_
    · assumption
    · apply ih
      refine keeps_State_spend ?_
      refine keeps_State_runPass ?_
      assumption

theorem keeps_State_setLost {s t : State} {a1 : _} {a2 : _} (h : Keeps s t) :
    Keeps s (State.setLost t a1 a2) := by
  unfold State.setLost
  refine Keeps.same (t := t) ?_ rfl rfl rfl
  assumption

theorem keeps_State_esTake {s t : State} {a1 : _} (h : Keeps s t) :
    Keeps s (State.esTake t a1) := by
  unfold State.esTake
  refine Keeps.same (t := t) ?_ rfl rfl rfl
  assumption

theorem keeps_State_evtDrop {s t : State} {a1 : _} {a2 : _} (h : Keeps s t) :
    Keeps s (State.evtDrop t a1 a2) := by
  unfold State.evtDrop
  extract_lets +onlyGivenNames x1
  clear_value x1
  extract_lets +onlyGivenNames x2
  clear_value x2
  extract_lets +onlyGivenNames x3
  clear_value x3
  extract_lets +onlyGivenNames x4
  have hx4 : Keeps s x4 := ?_
  · clear_value x4
    extract_lets +onlyGivenNames x5
    have hx5 : Keeps s x5 := ?_
    · clear_value x5
      refine Keeps.ite ?_ ?_
      · assumption
      · refine keeps_State_raise ?_
        assumption
    · unfold x5
      refine keeps_State_setLost ?_
      refine keeps_State_esTake ?_
      assumption
  · unfold x4
    refine keeps_State_setMon ?_
    refine keeps_State_satAdd ?_
    assumption

theorem keeps_State_evtRecord {s t : State} {a1 : _} {a2 : _} (h : Keeps s t) :
    Keeps s (State.evtRecord t a1 a2) := by
  unfold State.evtRecord
  extract_lets +onlyGivenNames x1
  clear_value x1
  refine Keeps.ite ?_ ?_
  · refine keeps_State_evtDrop ?_
    assumption
  · extract_lets +onlyGivenNames x2
    clear_value x2
    refine keeps_State_setLost ?_
    refine keeps_State_esTake ?_
    refine keeps_State_putRecord ?_
    assumption

theorem keeps_State_evtEdge {s t : State} {a1 : _} (h : Keeps s t) :
    Keeps s (State.evtEdge t a1) := by
  unfold State.evtEdge
  refine keeps_State_kindleE1 ?_
  refine keeps_State_deliver ?_
  assumption

theorem keeps_State_evtHandle {s t : State} {a1 : _} (h : Keeps s t) :
    Keeps s (State.evtHandle t a1) := by
  unfold State.evtHandle
  extract_lets +onlyGivenNames x1
  clear_value x1
  extract_lets +onlyGivenNames x2
  clear_value x2
  extract_lets +onlyGivenNames x3
  have hx3 : Keeps s x3 := ?_
  · clear_value x3
    refine Keeps.ite ?_ ?_
    · refine keeps_State_evtEdge ?_
      assumption
    · assumption
  · unfold x3
    split
    · refine keeps_State_evtRecord ?_
      assumption
    · refine Keeps.ite ?_ ?_
      · assumption
      · refine keeps_State_satAdd ?_
        assumption

theorem keeps_evtRecordWrite {s t : State} (h : Keeps s t) :
    Keeps s (evtRecordWrite t) := by
  unfold evtRecordWrite
  refine Keeps.ite ?_ ?_
  · assumption
  · split
    · assumption
    · refine keeps_State_evtHandle ?_
      refine Keeps.same (t := t) ?_ rfl rfl rfl
      assumption

theorem keeps_execEvtRecordWrite {s t : State} {u : State} (h : Keeps s t)
    (e : execEvtRecordWrite t = .next u) : Keeps s u := by
  unfold execEvtRecordWrite at e
  injection e with e
  subst e
  refine keeps_evtRecordWrite ?_
  assumption

theorem keeps_State_runBuilt {s t : State} {a1 : _} (h : Keeps s t) :
    Keeps s (State.runBuilt t a1) := by
  induction a1 generalizing t
  · unfold State.runBuilt
    assumption
  · rename_i ih
    unfold State.runBuilt
    extract_lets +onlyGivenNames x1
    clear_value x1
    refine Keeps.ite ?_ ?_
    · assumption
    · apply ih
      refine keeps_State_spend ?_
      refine keeps_State_builtRun ?_
      assumption

theorem keeps_State_runSnaps {s t : State} {a1 : _} (h : Keeps s t) :
    Keeps s (State.runSnaps t a1) := by
  unfold State.runSnaps
  refine Keeps.foldl ?_ (fun u1 y2 hu1 => ?_)
  · assumption
  · refine keeps_State_inputSnap ?_
    refine Keeps.same (t := u1) ?_ rfl rfl rfl
    assumption

theorem keeps_State_sigSlot {s t : State} {a1 : _} (h : Keeps s t) :
    Keeps s (State.sigSlot t a1) := by
  unfold State.sigSlot
  extract_lets +onlyGivenNames x1
  have hx1 : Keeps s x1 := ?_
  · clear_value x1
    refine Keeps.ite ?_ ?_
    · assumption
    · extract_lets +onlyGivenNames x2
      have hx2 : Keeps s x2 := ?_
      · clear_value x2
        refine Keeps.ite ?_ ?_
        · assumption
        · extract_lets +onlyGivenNames x3
          have hx3 : Keeps s x3 := ?_
          · clear_value x3
            extract_lets +onlyGivenNames x4
            have hx4 : Keeps s x4 := ?_
            · clear_value x4
              refine Keeps.foldl ?_ (fun u5 y6 hu5 => ?_)
              · assumption
              · refine keeps_State_publishCommit ?_
                assumption
            · unfold x4
              refine Keeps.foldl ?_ (fun u7 y8 hu7 => ?_)
              · assumption
              · refine keeps_State_inputStart ?_
                assumption
          · unfold x3
            refine keeps_State_runSnaps ?_
            assumption
      · unfold x2
        refine keeps_State_runBuilt ?_
        assumption
  · unfold x1
    refine keeps_State_runPasses ?_
    assumption

theorem keeps_State_slotWork {s t : State} {a1 : _} {a2 : _} (h : Keeps s t) :
    Keeps s (State.slotWork t a1 a2) := by
  unfold State.slotWork
  split
  · refine keeps_State_sigSlot ?_
    refine Keeps.same (t := t) ?_ rfl rfl rfl
    assumption
  · refine keeps_State_gwRuns ?_
    assumption
  · split
    · refine keeps_State_exportStep ?_
      assumption
    · assumption
  · assumption

theorem keeps_State_ringGoOn {s t : State} {a1 : _} (h : Keeps s t) :
    Keeps s (State.ringGoOn t a1) := by
  unfold State.ringGoOn
  extract_lets +onlyGivenNames x1
  clear_value x1
  extract_lets +onlyGivenNames x2
  have hx2 : Keeps s x2 := ?_
  · clear_value x2
    extract_lets +onlyGivenNames x3
    clear_value x3
    extract_lets +onlyGivenNames x4
    have hx4 : Keeps s x4 := ?_
    · clear_value x4
      split
      · refine Keeps.ite ?_ ?_
        · refine keeps_State_subPart ?_
          assumption
        · refine keeps_State_reindexPart ?_
          assumption
      · assumption
    · unfold x4
      split
      · refine keeps_State_pubGo ?_
        refine Keeps.same (t := x2) ?_ rfl rfl rfl
        assumption
      · assumption
  · unfold x2
    split
    · split
      · refine keeps_State_snapCmd ?_
        refine Keeps.same (t := t) ?_ rfl rfl rfl
        assumption
      · assumption
    · assumption

theorem keeps_State_slotRings {s t : State} {a1 : _} {a2 : _} {a3 : _} (h : Keeps s t) :
    Keeps s (State.slotRings t a1 a2 a3) := by
  induction a3 generalizing t with
  | zero => exact h
  | succ n ih =>
    unfold State.slotRings
    split
    · exact h
    · extract_lets +onlyGivenNames c1 x1
      have h1 : Keeps s x1 := Keeps.same (t := t) h rfl rfl rfl
      exact Keeps.ite (ih (keeps_State_ringGoOn h1)) (Keeps.ite h1 (keeps_State_takeFrom h1))

theorem keeps_State_serve {s t : State} {a1 : _} {a2 : _} (h : Keeps s t) :
    Keeps s (State.serve t a1 a2) := by
  unfold State.serve
  extract_lets +onlyGivenNames x1
  clear_value x1
  extract_lets +onlyGivenNames x2
  have hx2 : Keeps s x2 := ?_
  · clear_value x2
    extract_lets +onlyGivenNames x3
    have hx3 : Keeps s x3 := ?_
    · clear_value x3
      refine keeps_State_slotRings ?_
      assumption
    · unfold x3
      refine keeps_State_slotWork ?_
      assumption
  · unfold x2
    refine Keeps.same (t := t) ?_ rfl rfl rfl
    assumption

theorem keeps_engineSlotStart {s t : State} {a0 : _} (h : Keeps s t) :
    Keeps s (engineSlotStart a0 t) := by
  unfold engineSlotStart
  refine Keeps.ite ?_ ?_
  · assumption
  · split
    · refine Keeps.ite ?_ ?_
      · assumption
      · refine keeps_State_slotRings ?_
        assumption
    · refine Keeps.ite ?_ ?_
      · assumption
      · split
        · assumption
        · refine keeps_State_serve ?_
          assumption

theorem keeps_execEngineSlotStart {s t : State} {a0 : _} {u : State} (h : Keeps s t)
    (e : execEngineSlotStart a0 t = .next u) : Keeps s u := by
  unfold execEngineSlotStart at e
  injection e with e
  subst e
  refine keeps_engineSlotStart ?_
  assumption

theorem keeps_State_ptoAligns {s t : State} {a1 : _} (h : Keeps s t) :
    Keeps s (State.ptoAligns t a1) := by
  unfold State.ptoAligns
  refine Keeps.ite ?_ ?_
  · refine keeps_State_alignEvent ?_
    assumption
  · assumption

theorem keeps_syncInEdge {s t : State} (h : Keeps s t) :
    Keeps s (syncInEdge t) := by
  unfold syncInEdge
  refine Keeps.ite ?_ ?_
  · assumption
  · refine Keeps.ite ?_ ?_
    · refine keeps_State_satAdd ?_
      assumption
    · extract_lets +onlyGivenNames x1
      clear_value x1
      extract_lets +onlyGivenNames x2
      have hx2 : Keeps s x2 := ?_
      · clear_value x2
        extract_lets +onlyGivenNames x3
        have hx3 : Keeps s x3 := ?_
        · clear_value x3
          refine keeps_State_wakeLatch ?_
          assumption
        · unfold x3
          refine Keeps.ite ?_ ?_
          · refine keeps_State_alignEvent ?_
            assumption
          · assumption
      · unfold x2
        refine keeps_State_syncEdge ?_
        assumption

theorem keeps_execSyncInEdge {s t : State} {u : State} (h : Keeps s t)
    (e : execSyncInEdge t = .next u) : Keeps s u := by
  unfold execSyncInEdge at e
  injection e with e
  subst e
  refine keeps_syncInEdge ?_
  assumption

theorem keeps_State_ptoConsumers {s t : State} {a1 : _} (h : Keeps s t) :
    Keeps s (State.ptoConsumers t a1) := by
  unfold State.ptoConsumers
  extract_lets +onlyGivenNames x1
  have hx1 : Keeps s x1 := ?_
  · clear_value x1
    extract_lets +onlyGivenNames x2
    have hx2 : Keeps s x2 := ?_
    · clear_value x2
      refine keeps_State_ptoAligns ?_
      assumption
    · unfold x2
      refine Keeps.ite ?_ ?_
      · refine keeps_State_cycFires ?_
        assumption
      · assumption
  · unfold x1
    refine keeps_State_cbFires ?_
    refine keeps_State_stations ?_
    refine keeps_State_crFires ?_
    assumption

theorem keeps_ptoFire {s t : State} {a0 : _} (h : Keeps s t) :
    Keeps s (ptoFire a0 t) := by
  unfold ptoFire
  refine Keeps.ite ?_ ?_
  · extract_lets +onlyGivenNames x1
    have hx1 : Keeps s x1 := ?_
    · clear_value x1
      refine Keeps.ite ?_ ?_
      · refine keeps_State_wakeLatch ?_
        assumption
      · assumption
    · unfold x1
      refine keeps_State_ptoConsumers ?_
      refine keeps_State_ptoFires ?_
      assumption
  · assumption

theorem keeps_execPtoFire {s t : State} {a0 : _} {u : State} (h : Keeps s t)
    (e : execPtoFire a0 t = .next u) : Keeps s u := by
  unfold execPtoFire at e
  injection e with e
  subst e
  refine keeps_ptoFire ?_
  assumption

theorem keeps_State_setMp {s t : State} {a1 : _} (h : Keeps s t) :
    Keeps s (State.setMp t a1) := by
  unfold State.setMp
  refine Keeps.same (t := t) ?_ rfl rfl rfl
  assumption

theorem keeps_State_mpRetire {s t : State} {a1 : _} {a2 : _} {a3 : _} (h : Keeps s t) :
    Keeps s (State.mpRetire t a1 a2 a3) := by
  unfold State.mpRetire
  refine keeps_State_setMp ?_
  assumption

theorem keeps_State_mpExcept {s t : State} {a1 : _} {a2 : _} (h : Keeps s t) :
    Keeps s (State.mpExcept t a1 a2) := by
  unfold State.mpExcept
  refine keeps_State_setMp ?_
  assumption

theorem keeps_State_mpTimer {s t : State} {a1 : _} {a2 : _} (h : Keeps s t) :
    Keeps s (State.mpTimer t a1 a2) := by
  unfold State.mpTimer
  extract_lets +onlyGivenNames x1
  clear_value x1
  extract_lets +onlyGivenNames x2
  clear_value x2
  refine Keeps.same (t := t) ?_ rfl rfl rfl
  assumption

theorem keeps_State_mpDram {s t : State} {a1 : _} {a2 : _} (h : Keeps s t) :
    Keeps s (State.mpDram t a1 a2).2 := by
  refine KeepsS.out ?_
  unfold State.mpDram
  extract_lets +onlyGivenNames x1
  clear_value x1
  refine KeepsS.ite ?_ ?_
  · refine KeepsS.pair ?_
    assumption
  · refine KeepsS.ite ?_ ?_
    · refine KeepsS.pair ?_
      assumption
    · extract_lets +onlyGivenNames x2
      have hx2 : Keeps s x2.2 := ?_
      · clear_value x2
        extract_lets +onlyGivenNames x3
        have hx3 : Keeps s x3 := ?_
        · clear_value x3
          refine KeepsS.pair ?_
          refine Keeps.ite ?_ ?_
          · refine keeps_State_watch ?_
            assumption
          · assumption
        · unfold x3
          refine keeps_State_busWrite ?_
          assumption
      · unfold x2
        refine keeps_State_draw ?_
        assumption

theorem keeps_State_mpWrite {s t : State} {a1 : _} {a2 : _} (h : Keeps s t) :
    Keeps s (State.mpWrite t a1 a2).2 := by
  refine KeepsS.out ?_
  unfold State.mpWrite
  split
  · refine KeepsS.pair ?_
    refine Keeps.same (t := t) ?_ rfl rfl rfl
    assumption
  · refine KeepsS.pair ?_
    refine keeps_State_mpTimer ?_
    assumption
  · refine KeepsS.pair ?_
    assumption
  · refine KeepsS.ite ?_ ?_
    · refine KeepsS.pair ?_
      assumption
    · refine KeepsS.pair ?_
      refine keeps_State_setupStore ?_
      assumption
  · refine KeepsS.ite ?_ ?_
    · refine KeepsS.pair ?_
      refine keeps_State_setBytes ?_
      assumption
    · refine KeepsS.pair ?_
      assumption
  · refine ⟨?_⟩
    refine keeps_State_mpDram ?_
    assumption
  · refine KeepsS.pair ?_
    assumption
  · refine KeepsS.pair ?_
    assumption
  · refine KeepsS.pair ?_
    assumption

theorem keeps_State_mpStore {s t : State} {a1 : _} {a2 : _} {a3 : _} {a4 : _} (h : Keeps s t) :
    Keeps s (State.mpStore t a1 a2 a3 a4) := by
  unfold State.mpStore
  refine Keeps.ite ?_ ?_
  · refine keeps_State_mpExcept ?_
    assumption
  · extract_lets +onlyGivenNames x1
    have hx1 : Keeps s x1.2 := ?_
    · clear_value x1
      split
      · refine Keeps.ite ?_ ?_
        · refine keeps_State_mpRetire ?_
          assumption
        · assumption
      · refine keeps_State_mpExcept ?_
        assumption
      · assumption
    · unfold x1
      refine keeps_State_mpWrite ?_
      assumption

theorem keeps_State_mpRead {s t : State} {a1 : _} {a2 : _} {a3 : _} (h : Keeps s t) :
    Keeps s (State.mpRead t a1 a2 a3).2 := by
  refine KeepsS.out ?_
  unfold State.mpRead
  split
  · refine KeepsS.pair ?_
    assumption
  · refine KeepsS.pair ?_
    assumption
  · refine KeepsS.ite ?_ ?_
    · refine KeepsS.pair ?_
      assumption
    · refine KeepsS.pair ?_
      assumption
  · refine KeepsS.ite ?_ ?_
    · refine KeepsS.pair ?_
      assumption
    · extract_lets +onlyGivenNames x1
      have hx1 : Keeps s x1.2 := ?_
      · clear_value x1
        refine KeepsS.pair ?_
        assumption
      · unfold x1
        refine keeps_State_draw ?_
        assumption
  · refine KeepsS.pair ?_
    assumption
  · refine KeepsS.ite ?_ ?_
    · refine KeepsS.pair ?_
      assumption
    · extract_lets +onlyGivenNames x2
      have hx2 : Keeps s x2.2 := ?_
      · clear_value x2
        refine KeepsS.pair ?_
        assumption
      · unfold x2
        refine keeps_State_setupRead ?_
        assumption
  · refine KeepsS.pair ?_
    assumption
  · refine KeepsS.ite ?_ ?_
    · refine KeepsS.pair ?_
      assumption
    · extract_lets +onlyGivenNames x3
      have hx3 : Keeps s x3.2 := ?_
      · clear_value x3
        extract_lets +onlyGivenNames x4
        have hx4 : Keeps s x4.2 := ?_
        · clear_value x4
          refine KeepsS.pair ?_
          assumption
        · unfold x4
          refine keeps_State_readCheck ?_
          assumption
      · unfold x3
        refine keeps_State_draw ?_
        assumption
  · refine KeepsS.pair ?_
    assumption

theorem keeps_State_mpLoad {s t : State} {a1 : _} {a2 : _} {a3 : _} {a4 : _} (h : Keeps s t) :
    Keeps s (State.mpLoad t a1 a2 a3 a4) := by
  unfold State.mpLoad
  extract_lets +onlyGivenNames x1
  clear_value x1
  refine Keeps.ite ?_ ?_
  · refine keeps_State_mpExcept ?_
    assumption
  · extract_lets +onlyGivenNames x2
    have hx2 : Keeps s x2.2 := ?_
    · clear_value x2
      split
      · refine keeps_State_mpRetire ?_
        assumption
      · refine keeps_State_mpExcept ?_
        assumption
      · assumption
    · unfold x2
      refine keeps_State_mpRead ?_
      assumption

theorem keeps_State_mpExceptFree {s t : State} {a1 : _} (h : Keeps s t) :
    Keeps s (State.mpExceptFree t a1) := by
  unfold State.mpExceptFree
  refine keeps_State_mpExcept ?_
  refine keeps_State_draw ?_
  assumption

theorem keeps_State_mpCsrRead {s t : State} {a1 : _} (h : Keeps s t) :
    Keeps s (State.mpCsrRead t a1).2 := by
  refine KeepsS.out ?_
  unfold State.mpCsrRead
  refine KeepsS.ite ?_ ?_
  · extract_lets +onlyGivenNames x1
    have hx1 : Keeps s x1.2 := ?_
    · clear_value x1
      refine KeepsS.pair ?_
      assumption
    · unfold x1
      refine KeepsS.out ?_
      refine KeepsS.ite ?_ ?_
      · refine KeepsS.pair ?_
        assumption
      · refine ⟨?_⟩
        refine keeps_State_draw ?_
        assumption
  · refine KeepsS.pair ?_
    assumption

theorem keeps_State_mpCsrPut {s t : State} {a1 : _} {a2 : _} (h : Keeps s t) :
    Keeps s (State.mpCsrPut t a1 a2) := by
  unfold State.mpCsrPut
  extract_lets +onlyGivenNames x1
  clear_value x1
  refine Keeps.ite ?_ ?_
  · refine keeps_State_setMp ?_
    assumption
  · refine Keeps.ite ?_ ?_
    · refine keeps_State_setMp ?_
      assumption
    · refine Keeps.ite ?_ ?_
      · refine keeps_State_setMp ?_
        assumption
      · refine Keeps.ite ?_ ?_
        · extract_lets +onlyGivenNames x2
          clear_value x2
          refine Keeps.ite ?_ ?_
          · extract_lets +onlyGivenNames x3
            have hx3 : Keeps s x3.2 := ?_
            · clear_value x3
              refine keeps_State_setMp ?_
              assumption
            · unfold x3
              refine keeps_State_draw ?_
              assumption
          · refine keeps_State_setMp ?_
            assumption
        · refine Keeps.ite ?_ ?_
          · refine keeps_State_setMp ?_
            assumption
          · refine Keeps.ite ?_ ?_
            · refine keeps_State_setMp ?_
              assumption
            · refine Keeps.ite ?_ ?_
              · refine keeps_State_setMp ?_
                assumption
              · refine Keeps.ite ?_ ?_
                · refine keeps_State_setMp ?_
                  assumption
                · refine Keeps.ite ?_ ?_
                  · refine keeps_State_setMp ?_
                    assumption
                  · refine Keeps.ite ?_ ?_
                    · refine keeps_State_setMp ?_
                      assumption
                    · assumption

theorem keeps_State_mpCsrDo {s t : State} {a1 : _} {a2 : _} {a3 : _} {a4 : _} {a5 : _} (h : Keeps s t) :
    Keeps s (State.mpCsrDo t a1 a2 a3 a4 a5) := by
  unfold State.mpCsrDo
  extract_lets +onlyGivenNames x1
  clear_value x1
  extract_lets +onlyGivenNames x2
  clear_value x2
  refine Keeps.ite ?_ ?_
  · refine keeps_State_mpExceptFree ?_
    assumption
  · extract_lets +onlyGivenNames x3
    have hx3 : Keeps s x3.2 := ?_
    · clear_value x3
      extract_lets +onlyGivenNames x4
      have hx4 : Keeps s x4 := ?_
      · clear_value x4
        refine Keeps.ite ?_ ?_
        · refine keeps_State_mpCsrPut ?_
          assumption
        · assumption
      · unfold x4
        refine keeps_State_mpRetire ?_
        assumption
    · unfold x3
      refine keeps_State_mpCsrRead ?_
      assumption

theorem keeps_State_mpExec {s t : State} {a1 : _} {a2 : _} (h : Keeps s t) :
    Keeps s (State.mpExec t a1 a2) := by
  unfold State.mpExec
  extract_lets +onlyGivenNames x1
  clear_value x1
  extract_lets +onlyGivenNames x2
  clear_value x2
  split
  · refine keeps_State_mpRetire ?_
    assumption
  · refine keeps_State_mpRetire ?_
    assumption
  · refine keeps_State_setMp ?_
    assumption
  · refine keeps_State_setMp ?_
    assumption
  · refine keeps_State_setMp ?_
    assumption
  · refine keeps_State_mpRetire ?_
    assumption
  · refine keeps_State_mpRetire ?_
    assumption
  · refine keeps_State_mpLoad ?_
    assumption
  · refine keeps_State_mpStore ?_
    assumption
  · refine keeps_State_mpCsrDo ?_
    assumption
  · refine keeps_State_mpExcept ?_
    assumption
  · refine keeps_State_mpExceptFree ?_
    assumption
  · refine keeps_State_setMp ?_
    assumption
  · refine Keeps.ite ?_ ?_
    · refine keeps_State_setMp ?_
      assumption
    · refine keeps_State_mpRetire ?_
      assumption
  · refine keeps_State_mpRetire ?_
    assumption

theorem keeps_State_mpFetch {s t : State} (h : Keeps s t) :
    Keeps s (State.mpFetch t).2.2 := by
  refine KeepsS2.out ?_
  unfold State.mpFetch
  extract_lets +onlyGivenNames x1
  clear_value x1
  extract_lets +onlyGivenNames x2
  have hx2 : Keeps s x2.2 := ?_
  · clear_value x2
    split
    · refine KeepsS2.ite ?_ ?_
      · refine KeepsS2.pair ?_
        assumption
      · extract_lets +onlyGivenNames x3
        clear_value x3
        extract_lets +onlyGivenNames x4
        have hx4 : Keeps s x4.2 := ?_
        · clear_value x4
          refine KeepsS2.pair ?_
          assumption
        · unfold x4
          refine keeps_State_mpRead ?_
          assumption
    · refine KeepsS2.pair ?_
      assumption
  · unfold x2
    refine keeps_State_mpRead ?_
    assumption

theorem keeps_State_mpRun {s t : State} (h : Keeps s t) :
    Keeps s (State.mpRun t) := by
  unfold State.mpRun
  extract_lets +onlyGivenNames x1
  have hx1 : Keeps s x1.2.2 := ?_
  · clear_value x1
    split
    · assumption
    · refine keeps_State_mpExcept ?_
      assumption
    · split
      · refine keeps_State_mpExceptFree ?_
        assumption
      · refine Keeps.ite ?_ ?_
        · refine keeps_State_mpExec ?_
          assumption
        · refine keeps_State_mpExec ?_
          assumption
  · unfold x1
    refine keeps_State_mpFetch ?_
    assumption

theorem keeps_State_mpInstruction {s t : State} (h : Keeps s t) :
    Keeps s (State.mpInstruction t) := by
  unfold State.mpInstruction
  extract_lets +onlyGivenNames x1
  clear_value x1
  refine Keeps.ite ?_ ?_
  · assumption
  · refine Keeps.ite ?_ ?_
    · refine keeps_State_mpRun ?_
      assumption
    · refine Keeps.ite ?_ ?_
      · assumption
      · refine keeps_State_mpRetire ?_
        assumption

theorem keeps_State_mpInterrupt {s t : State} (h : Keeps s t) :
    Keeps s (State.mpInterrupt t) := by
  unfold State.mpInterrupt
  split
  · assumption
  · refine Keeps.ite ?_ ?_
    · assumption
    · extract_lets +onlyGivenNames x1
      have hx1 : Keeps s x1 := ?_
      · clear_value x1
        refine keeps_State_setMp ?_
        assumption
      · unfold x1
        refine Keeps.ite ?_ ?_
        · refine keeps_State_mpRetire ?_
          assumption
        · assumption

theorem keeps_State_dbgPut {s t : State} {a1 : _} {a2 : _} {a3 : _} (h : Keeps s t) :
    Keeps s (State.dbgPut t a1 a2 a3) := by
  unfold State.dbgPut
  refine Keeps.ite ?_ ?_
  · refine keeps_State_dbgSet ?_
    assumption
  · refine Keeps.ite ?_ ?_
    · refine keeps_State_dbgSet ?_
      assumption
    · refine Keeps.ite ?_ ?_
      · refine keeps_State_csrPut ?_
        assumption
      · refine Keeps.ite ?_ ?_
        · refine keeps_State_setHart ?_
          assumption
        · refine keeps_State_setHart ?_
          assumption

theorem keeps_State_dmcontrol {s t : State} {a1 : _} (h : Keeps s t) :
    Keeps s (State.dmcontrol t a1) := by
  unfold State.dmcontrol
  refine Keeps.ite ?_ ?_
  · refine keeps_jtagReset ?_
    assumption
  · refine Keeps.ite ?_ ?_
    · refine keeps_State_dbgEnd ?_
      assumption
    · extract_lets +onlyGivenNames x1
      clear_value x1
      extract_lets +onlyGivenNames x2
      have hx2 : Keeps s x2 := ?_
      · clear_value x2
        refine Keeps.ite ?_ ?_
        · refine Keeps.ite ?_ ?_
          · assumption
          · refine Keeps.ite ?_ ?_
            · refine keeps_State_dbgSet ?_
              assumption
            · refine keeps_State_dbgHalt ?_
              assumption
        · refine Keeps.ite ?_ ?_
          · refine keeps_State_dbgResume ?_
            refine keeps_State_dbgSet ?_
            assumption
          · assumption
      · unfold x2
        refine keeps_State_dbgSet ?_
        assumption

theorem keeps_State_cmdErr {s t : State} {a1 : _} (h : Keeps s t) :
    Keeps s (State.cmdErr t a1) := by
  unfold State.cmdErr
  refine keeps_State_dbgSet ?_
  assumption

theorem keeps_State_dbgGet {s t : State} {a1 : _} {a2 : _} (h : Keeps s t) :
    Keeps s (State.dbgGet t a1 a2).2 := by
  refine KeepsS.out ?_
  unfold State.dbgGet
  refine KeepsS.ite ?_ ?_
  · refine KeepsS.pair ?_
    assumption
  · refine KeepsS.ite ?_ ?_
    · refine KeepsS.pair ?_
      assumption
    · refine KeepsS.ite ?_ ?_
      · extract_lets +onlyGivenNames x1
        have hx1 : Keeps s x1.2 := ?_
        · clear_value x1
          refine KeepsS.pair ?_
          assumption
        · unfold x1
          refine keeps_State_timeNow ?_
          assumption
      · refine KeepsS.ite ?_ ?_
        · extract_lets +onlyGivenNames x2
          have hx2 : Keeps s x2.2 := ?_
          · clear_value x2
            refine KeepsS.pair ?_
            assumption
          · unfold x2
            refine keeps_State_csrRead ?_
            assumption
        · refine KeepsS.ite ?_ ?_
          · refine KeepsS.pair ?_
            assumption
          · refine KeepsS.ite ?_ ?_
            · refine KeepsS.pair ?_
              assumption
            · refine KeepsS.ite ?_ ?_
              · refine KeepsS.pair ?_
                assumption
              · refine KeepsS.pair ?_
                assumption

theorem keeps_State_accessReg {s t : State} {a1 : _} (h : Keeps s t) :
    Keeps s (State.accessReg t a1) := by
  unfold State.accessReg
  extract_lets +onlyGivenNames x1
  clear_value x1
  extract_lets +onlyGivenNames x2
  clear_value x2
  extract_lets +onlyGivenNames x3
  clear_value x3
  extract_lets +onlyGivenNames x4
  refine Keeps.ite ?_ ?_
  · refine keeps_State_cmdErr ?_
    assumption
  · refine Keeps.ite ?_ ?_
    · assumption
    · refine Keeps.ite ?_ ?_
      · refine Keeps.ite ?_ ?_
        · refine keeps_State_cmdErr ?_
          assumption
        · refine keeps_State_dbgPut ?_
          assumption
      · extract_lets +onlyGivenNames x5
        have hx5 : Keeps s x5.2 := ?_
        · clear_value x5
          split
          · refine keeps_State_cmdErr ?_
            assumption
          · refine Keeps.ite ?_ ?_
            · refine keeps_State_dbgSet ?_
              assumption
            · refine keeps_State_dbgSet ?_
              assumption
        · unfold x5
          refine keeps_State_dbgGet ?_
          assumption

theorem keeps_State_accessMem {s t : State} {a1 : _} (h : Keeps s t) :
    Keeps s (State.accessMem t a1) := by
  unfold State.accessMem
  extract_lets +onlyGivenNames x1
  clear_value x1
  extract_lets +onlyGivenNames x2
  clear_value x2
  extract_lets +onlyGivenNames x3
  clear_value x3
  extract_lets +onlyGivenNames x4
  refine Keeps.ite ?_ ?_
  · refine keeps_State_cmdErr ?_
    assumption
  · refine Keeps.ite ?_ ?_
    · refine keeps_State_cmdErr ?_
      assumption
    · extract_lets +onlyGivenNames x5
      have hx5 : Keeps s x5.2 := ?_
      · clear_value x5
        split
        · extract_lets +onlyGivenNames x6
          have hx6 : Keeps s x6 := ?_
          · clear_value x6
            refine Keeps.ite ?_ ?_
            · refine keeps_State_dbgSet ?_
              assumption
            · assumption
          · unfold x6
            refine Keeps.ite ?_ ?_
            · assumption
            · refine keeps_State_dbgSet ?_
              assumption
        · refine keeps_State_cmdErr ?_
          assumption
      · unfold x5
        refine keeps_State_laneAccess ?_
        assumption

theorem keeps_State_dbgCommand {s t : State} {a1 : _} (h : Keeps s t) :
    Keeps s (State.dbgCommand t a1) := by
  unfold State.dbgCommand
  refine Keeps.ite ?_ ?_
  · assumption
  · refine Keeps.ite ?_ ?_
    · refine keeps_State_cmdErr ?_
      assumption
    · split
      · refine keeps_State_accessReg ?_
        assumption
      · refine keeps_State_accessMem ?_
        assumption
      · refine keeps_State_cmdErr ?_
        assumption

theorem keeps_State_dmiWrite {s t : State} {a1 : _} {a2 : _} (h : Keeps s t) :
    Keeps s (State.dmiWrite t a1 a2) := by
  unfold State.dmiWrite
  refine Keeps.ite ?_ ?_
  · refine keeps_State_dmcontrol ?_
    assumption
  · refine Keeps.ite ?_ ?_
    · assumption
    · refine Keeps.ite ?_ ?_
      · refine keeps_State_dbgSet ?_
        assumption
      · refine Keeps.ite ?_ ?_
        · refine keeps_State_dbgCommand ?_
          assumption
        · refine Keeps.ite ?_ ?_
          · refine keeps_State_dbgSet ?_
            assumption
          · assumption

theorem keeps_State_tapCapture {s t : State} {a1 : _} (h : Keeps s t) :
    Keeps s (State.tapCapture t a1).2 := by
  refine KeepsS.out ?_
  unfold State.tapCapture
  refine KeepsS.ite ?_ ?_
  · refine KeepsS.pair ?_
    assumption
  · refine KeepsS.ite ?_ ?_
    · refine KeepsS.pair ?_
      assumption
    · refine KeepsS.ite ?_ ?_
      · refine KeepsS.pair ?_
        assumption
      · refine KeepsS.ite ?_ ?_
        · refine ⟨?_⟩
          refine keeps_State_draw ?_
          assumption
        · refine KeepsS.pair ?_
          assumption

theorem keeps_State_dmiScan {s t : State} {a1 : _} (h : Keeps s t) :
    Keeps s (State.dmiScan t a1) := by
  unfold State.dmiScan
  extract_lets +onlyGivenNames x1
  clear_value x1
  extract_lets +onlyGivenNames x2
  clear_value x2
  split
  · refine keeps_State_dbgSet ?_
    assumption
  · extract_lets +onlyGivenNames x3
    have hx3 : Keeps s x3 := ?_
    · clear_value x3
      refine Keeps.ite ?_ ?_
      · assumption
      · refine keeps_State_dbgSet ?_
        assumption
    · unfold x3
      refine keeps_State_dmiWrite ?_
      assumption
  · assumption

theorem keeps_State_tapScan {s t : State} {a1 : _} (h : Keeps s t) : Keeps s (State.tapScan t a1) := by
  unfold State.tapScan
  extract_lets +onlyGivenNames c x y z x2
  have h1 : Keeps s x.2 := keeps_State_tapCapture h
  have h2 : Keeps s x2 := Keeps.same (t := x.2) h1 rfl rfl rfl
  exact Keeps.ite (keeps_State_dmiScan h2) h2

theorem keeps_tapInstruction {s t : State} {a0 : _} {a1 : _} (h : Keeps s t) :
    Keeps s (tapInstruction a0 a1 t) := by
  unfold tapInstruction
  extract_lets +onlyGivenNames x1
  extract_lets +onlyGivenNames x2
  have hx2 : Keeps s x2 := ?_
  · clear_value x2
    split
    · assumption
    · refine keeps_State_tapScan ?_
      assumption
  · unfold x2
    refine Keeps.same (t := t) ?_ rfl rfl rfl
    assumption

theorem keeps_State_stepEnds {s t : State} {a1 : _} (h : Keeps s t) :
    Keeps s (State.stepEnds t a1) := by
  unfold State.stepEnds
  extract_lets +onlyGivenNames x1
  clear_value x1
  refine Keeps.ite ?_ ?_
  · assumption
  · refine Keeps.ite ?_ ?_
    · refine keeps_State_dbgHalt ?_
      refine keeps_State_retire ?_
      assumption
    · refine keeps_State_dbgHalt ?_
      assumption

theorem keeps_State_laneStep {s t : State} {a1 : _} {a2 : _} {a3 : _} (h : Keeps s t) :
    Keeps s (State.laneStep t a1 a2 a3) := by
  unfold State.laneStep
  refine Keeps.ite ?_ ?_
  · refine keeps_State_dbgHalt ?_
    refine keeps_State_dbgSet ?_
    assumption
  · refine keeps_State_stepEnds ?_
    refine keeps_instruction ?_
    assumption

theorem keeps_coreInstruction {s t : State} {a0 : _} {a1 : _} {a2 : _} (h : Keeps s t) :
    Keeps s (coreInstruction a0 a1 a2 t) := by
  unfold coreInstruction
  split
  · refine keeps_State_laneStep ?_
    assumption
  · refine keeps_State_mpInstruction ?_
    assumption

theorem keeps_execInstruction {s t : State} {a0 : _} {a1 : _} {a2 : _} {u : State} (h : Keeps s t)
    (e : execInstruction a0 a1 a2 t = .next u) : Keeps s u := by
  unfold execInstruction at e
  injection e with e
  subst e
  refine keeps_coreInstruction ?_
  assumption

theorem keeps_coreInterrupt {s t : State} {a0 : _} (h : Keeps s t) :
    Keeps s (coreInterrupt a0 t) := by
  unfold coreInterrupt
  split
  · refine keeps_interruptTake ?_
    assumption
  · refine keeps_State_mpInterrupt ?_
    assumption

theorem keeps_execTapInstruction {s t : State} {a0 : _} {a1 : _} {u : State} (h : Keeps s t)
    (e : execTapInstruction a0 a1 t = .next u) : Keeps s u := by
  unfold execTapInstruction at e
  injection e with e
  subst e
  refine keeps_tapInstruction ?_
  assumption

theorem keeps_execInterruptTake {s t : State} {a0 : _} {u : State} (h : Keeps s t)
    (e : execInterruptTake a0 t = .next u) : Keeps s u := by
  unfold execInterruptTake at e
  injection e with e
  subst e
  refine keeps_coreInterrupt ?_
  assumption

theorem keeps_exec {s t u : State} {c : Instr} (h : Keeps s t) (e : exec c t = .next u) : Keeps s u := by
  cases c with
  | vlogRise _ _ => exact keeps_execVlogRise h e
  | feedAbsent _ _ => exact keeps_execFeedAbsent h e
  | feedPresentTimer _ _ => exact keeps_execFeedPresentTimer h e
  | holdupExhausted => exact keeps_execHoldupExhausted h e
  | holdupLevelChange _ => exact keeps_execHoldupLevelChange h e
  | vhearthFault => exact keeps_execVhearthFault h e
  | railFault _ => exact keeps_execRailFault h e
  | overTemp _ => exact keeps_execOverTemp h e
  | thermalTrip _ => exact keeps_execThermalTrip h e
  | lpDrawChange _ => exact keeps_execLpDrawChange h e
  | borLp => exact keeps_execBorLp h e
  | resetRelease _ => exact keeps_execResetRelease h e
  | tinderBootDone => exact keeps_execTinderBootDone h e
  | strapSample _ => exact keeps_execStrapSample h e
  | sysReset _ _ => exact keeps_execSysReset h e
  | jtagReset => exact keeps_execJtagReset h e
  | mpWdtExpiry => exact keeps_execMpWdtExpiry h e
  | mpxWdt _ _ => exact keeps_execMpxWdt h e
  | sysBootConfirm _ _ => exact keeps_execSysBootConfirm h e
  | pwrPlWrite _ _ => exact keeps_execPwrPlWrite h e
  | plChangeDone => exact keeps_execPlChangeDone h e
  | sysClkWrite _ _ => exact keeps_execSysClkWrite h e
  | lanePllLock => exact keeps_execLanePllLock h e
  | laneSrcSwitch => exact keeps_execLaneSrcSwitch h e
  | wfi _ => exact keeps_execWfi h e
  | dzcWfi _ => exact keeps_execDzcWfi h e
  | dzcWfiEmber _ => exact keeps_execDzcWfiEmber h e
  | emberDecision => exact keeps_execEmberDecision h e
  | emberEntryComplete => exact keeps_execEmberEntryComplete h e
  | wakeLatch _ => exact keeps_execWakeLatch h e
  | rtcAlarm => exact keeps_execRtcAlarm h e
  | pwrMpwake _ _ => exact keeps_execPwrMpwake h e
  | kindleComplete _ => exact keeps_execKindleComplete h e
  | votedRequest _ _ _ _ _ => exact keeps_execVotedRequest h e
  | voteMissingTimeout _ _ _ => exact keeps_execVoteMissingTimeout h e
  | setupRegWrite _ _ _ => exact keeps_execSetupRegWrite h e
  | setupLockRequest _ _ _ => exact keeps_execSetupLockRequest h e
  | setupLockChecksEnd _ _ _ _ => exact keeps_execSetupLockChecksEnd h e
  | heldSetupWriteApply => exact keeps_execHeldSetupWriteApply h e
  | instruction _ _ _ => exact keeps_execInstruction h e
  | interruptTake _ => exact keeps_execInterruptTake h e
  | mret _ => exact keeps_execMret h e
  | csrWrite _ _ _ _ _ _ => exact keeps_execCsrWrite h e
  | dzlSetup _ _ _ => exact keeps_execDzlSetup h e
  | dzcCord _ _ => exact keeps_execDzcCord h e
  | dzcCfence _ => exact keeps_execDzcCfence h e
  | plicClaim _ _ => exact keeps_execPlicClaim h e
  | plicComplete _ _ => exact keeps_execPlicComplete h e
  | mtipChange _ => exact keeps_execMtipChange h e
  | tapInstruction _ _ => exact keeps_execTapInstruction h e
  | laneLbistEnd _ _ => exact keeps_execLaneLbistEnd h e
  | coldResumeDone => exact keeps_execColdResumeDone h e
  | safeStateEntry _ => exact keeps_execSafeStateEntry h e
  | laneSafe _ _ => exact keeps_execLaneSafe h e
  | laneEccClr _ _ => exact keeps_execLaneEccClr h e
  | cordPeriodExpiry => exact keeps_execCordPeriodExpiry h e
  | cordSeal _ _ _ _ => exact keeps_execCordSeal h e
  | rollbackRestore _ _ => exact keeps_execRollbackRestore h e
  | replayTimeout => exact keeps_execReplayTimeout h e
  | cordClr _ _ => exact keeps_execCordClr h e
  | flueRelease _ => exact keeps_execFlueRelease h e
  | fluePairNoack => exact keeps_execFluePairNoack h e
  | flueDestStall _ => exact keeps_execFlueDestStall h e
  | flueHeldEntry => exact keeps_execFlueHeldEntry h e
  | flueClr _ _ => exact keeps_execFlueClr h e
  | nonpostedIssue _ => exact keeps_execNonpostedIssue h e
  | engineSlotStart _ => exact keeps_execEngineSlotStart h e
  | ringHalted _ => exact keeps_execRingHalted h e
  | nop _ => exact keeps_execNop h e
  | handleQuery _ => exact keeps_execHandleQuery h e
  | ringCtxRead => exact keeps_execRingCtxRead h e
  | ringCtxWrite => exact keeps_execRingCtxWrite h e
  | evtRecordWrite => exact keeps_execEvtRecordWrite h e
  | lockAcquire _ _ => exact keeps_execLockAcquire h e
  | lockRelease _ _ _ => exact keeps_execLockRelease h e
  | partAbandon _ _ => exact keeps_execPartAbandon h e
  | partMonClr _ _ => exact keeps_execPartMonClr h e
  | tbPllLost => exact keeps_execTbPllLost h e
  | tbNtLatch _ => exact keeps_execTbNtLatch h e
  | tbCancel _ => exact keeps_execTbCancel h e
  | tbSetIncr _ _ => exact keeps_execTbSetIncr h e
  | tbSetNt _ _ => exact keeps_execTbSetNt h e
  | tbAddOfs _ _ => exact keeps_execTbAddOfs h e
  | tbAtApply => exact keeps_execTbAtApply h e
  | ptoFire _ => exact keeps_execPtoFire h e
  | ptoPulseEnd _ => exact keeps_execPtoPulseEnd h e
  | ptoSetupRearm _ => exact keeps_execPtoSetupRearm h e
  | syncInEdge => exact keeps_execSyncInEdge h e
  | tsqRead => exact keeps_execTsqRead h e
  | ptoArm => exact keeps_execPtoArm h e
  | crMasterRx _ _ _ _ => exact keeps_execCrMasterRx h e
  | crMemberRx _ _ _ _ => exact keeps_execCrMemberRx h e
  | crReturnTimeout _ => exact keeps_execCrReturnTimeout h e
  | crMemberCycleTimeout _ => exact keeps_execCrMemberCycleTimeout h e
  | crAcycRx _ _ _ _ => exact keeps_execCrAcycRx h e
  | crAcycForward _ _ => exact keeps_execCrAcycForward h e
  | crTxStart _ => exact keeps_execCrTxStart h e
  | crTx _ => exact keeps_execCrTx h e
  | crTxExpiry _ => exact keeps_execCrTxExpiry h e
  | crRxPost _ => exact keeps_execCrRxPost h e
  | crStatus _ => exact keeps_execCrStatus h e
  | crLinkChange _ _ => exact keeps_execCrLinkChange h e
  | crClr _ _ _ => exact keeps_execCrClr h e
  | cbSyncRx _ _ _ => exact keeps_execCbSyncRx h e
  | cbSyncMissed => exact keeps_execCbSyncMissed h e
  | cbRelay _ _ _ => exact keeps_execCbRelay h e
  | cbRelayBuffered _ => exact keeps_execCbRelayBuffered h e
  | cbDataRx _ _ _ => exact keeps_execCbDataRx h e
  | cbRawRx _ _ _ => exact keeps_execCbRawRx h e
  | cbImageFreeze _ => exact keeps_execCbImageFreeze h e
  | cbWindowSend _ => exact keeps_execCbWindowSend h e
  | cbArbSend _ => exact keeps_execCbArbSend h e
  | cbTx _ => exact keeps_execCbTx h e
  | cbTxExpiry _ => exact keeps_execCbTxExpiry h e
  | cbRxPost _ => exact keeps_execCbRxPost h e
  | cbSchedLoad _ => exact keeps_execCbSchedLoad h e
  | cbSchedLoadDone => exact keeps_execCbSchedLoadDone h e
  | cbAnnounce _ => exact keeps_execCbAnnounce h e
  | cbStatus _ => exact keeps_execCbStatus h e
  | cbLinkChange _ _ => exact keeps_execCbLinkChange h e
  | cbBankDataWrite _ _ => exact keeps_execCbBankDataWrite h e
  | cbClr _ _ => exact keeps_execCbClr h e
  | sigPublish => exact keeps_execSigPublish h e
  | sigSnapshot => exact keeps_execSigSnapshot h e
  | sigForce => exact keeps_execSigForce h e
  | sigUnforce => exact keeps_execSigUnforce h e
  | sigWatch => exact keeps_execSigWatch h e
  | sigWatchTimeout _ _ => exact keeps_execSigWatchTimeout h e
  | sigBulkLoad => exact keeps_execSigBulkLoad h e
  | sigReindex => exact keeps_execSigReindex h e
  | sigReindexSwitch => exact keeps_execSigReindexSwitch h e
  | sigSubBuild => exact keeps_execSigSubBuild h e
  | sigStaleDeadline _ => exact keeps_execSigStaleDeadline h e
  | sigClr _ _ => exact keeps_execSigClr h e
  | gwGroupCtl => exact keeps_execGwGroupCtl h e
  | gwClr _ _ => exact keeps_execGwClr h e
  | rbCycleStart _ => exact keeps_execRbCycleStart h e
  | rbCycleResponse _ _ => exact keeps_execRbCycleResponse h e
  | rbCycleEnd => exact keeps_execRbCycleEnd h e
  | rbCycleTimeout => exact keeps_execRbCycleTimeout h e
  | rbBusResetEnd => exact keeps_execRbBusResetEnd h e
  | rbRstWaitEnd => exact keeps_execRbRstWaitEnd h e
  | rbBlockRead => exact keeps_execRbBlockRead h e
  | rbBlockWrite => exact keeps_execRbBlockWrite h e
  | rbClr _ _ => exact keeps_execRbClr h e
  | cycOverrun _ => exact keeps_execCycOverrun h e
  | cycRestart => exact keeps_execCycRestart h e
  | cycStop => exact keeps_execCycStop h e
  | cycForce => exact keeps_execCycForce h e
  | cycStatus => exact keeps_execCycStatus h e
  | idleWindowEnd => exact keeps_execIdleWindowEnd h e
  | cycClr _ _ => exact keeps_execCycClr h e
  | fldDownlinkFrame _ => exact keeps_execFldDownlinkFrame h e
  | islandFrameApply _ _ => exact keeps_execIslandFrameApply h e
  | fldUplinkFrame _ _ => exact keeps_execFldUplinkFrame h e
  | fldFrameLost _ _ _ => exact keeps_execFldFrameLost h e
  | islandLinkLoss _ => exact keeps_execIslandLinkLoss h e
  | diSample _ _ _ _ _ => exact keeps_execDiSample h e
  | diDebounceExpiry _ _ => exact keeps_execDiDebounceExpiry h e
  | diVsChange _ => exact keeps_execDiVsChange h e
  | dioShortDetect _ _ _ => exact keeps_execDioShortDetect h e
  | dioThermalShutdown _ _ => exact keeps_execDioThermalShutdown h e
  | dioThermalCool _ _ => exact keeps_execDioThermalCool h e
  | dioRetryTimer _ _ => exact keeps_execDioRetryTimer h e
  | dioExtFeed _ _ => exact keeps_execDioExtFeed h e
  | dioVdoLow _ => exact keeps_execDioVdoLow h e
  | dioGroupOc _ _ => exact keeps_execDioGroupOc h e
  | dioGroupTrip _ => exact keeps_execDioGroupTrip h e
  | dioOndiagMeasure _ _ _ => exact keeps_execDioOndiagMeasure h e
  | dioOffdiagCheck _ _ _ => exact keeps_execDioOffdiagCheck h e
  | pwmPeriodStart _ _ => exact keeps_execPwmPeriodStart h e
  | pwmRampTick => exact keeps_execPwmRampTick h e
  | fldWrite => exact keeps_execFldWrite h e
  | fldSetFunc => exact keeps_execFldSetFunc h e
  | fldRearm => exact keeps_execFldRearm h e
  | fldRead => exact keeps_execFldRead h e
  | fldLinkRestart => exact keeps_execFldLinkRestart h e
  | fldClr _ _ => exact keeps_execFldClr h e
  | aiResult _ _ => exact keeps_execAiResult h e
  | aiReadbackWindow _ _ _ _ _ => exact keeps_execAiReadbackWindow h e
  | aiOpenLoop _ _ => exact keeps_execAiOpenLoop h e
  | aiCompliance _ _ => exact keeps_execAiCompliance h e
  | aiVlpLow _ _ => exact keeps_execAiVlpLow h e
  | aiSupLimit _ _ => exact keeps_execAiSupLimit h e
  | aiParkWindow _ _ => exact keeps_execAiParkWindow h e
  | fldAiSync => exact keeps_execFldAiSync h e
  | fldAiCapture => exact keeps_execFldAiCapture h e
  | fldFskXfer => exact keeps_execFldFskXfer h e
  | fskTxEnd _ => exact keeps_execFskTxEnd h e
  | fskCarrierDetect _ => exact keeps_execFskCarrierDetect h e
  | fskCharRx _ _ _ _ => exact keeps_execFskCharRx h e
  | fskRxEnd _ _ => exact keeps_execFskRxEnd h e
  | fskRxTimeout _ => exact keeps_execFskRxTimeout h e
  | fldAiSyncStatClr _ _ => exact keeps_execFldAiSyncStatClr h e
  | safEvaluation _ => exact keeps_execSafEvaluation h e
  | tpsPulseStart _ => exact keeps_execTpsPulseStart h e
  | tpsPulseEnd _ _ => exact keeps_execTpsPulseEnd h e
  | tpCheckEnd _ _ => exact keeps_execTpCheckEnd h e
  | tpsOverload _ _ => exact keeps_execTpsOverload h e
  | safInFiltExpiry _ _ => exact keeps_execSafInFiltExpiry h e
  | safDiscrepancy _ => exact keeps_execSafDiscrepancy h e
  | safFeedbackTimeout _ _ => exact keeps_execSafFeedbackTimeout h e
  | safDegExpiry _ => exact keeps_execSafDegExpiry h e
  | safReset => exact keeps_execSafReset h e
  | safStatus => exact keeps_execSafStatus h e
  | safClr _ _ => exact keeps_execSafClr h e
  | pairJoin _ _ => exact keeps_execPairJoin h e
  | pairJoinTimeout => exact keeps_execPairJoinTimeout h e
  | pairLinkLane _ _ => exact keeps_execPairLinkLane h e
  | pairHeartbeatTx => exact keeps_execPairHeartbeatTx h e
  | pairHeartbeatRx _ _ => exact keeps_execPairHeartbeatRx h e
  | pairHbLoss => exact keeps_execPairHbLoss h e
  | pairPresWaitEnd => exact keeps_execPairPresWaitEnd h e
  | pairTakeoverResume => exact keeps_execPairTakeoverResume h e
  | pairMirrorRx _ => exact keeps_execPairMirrorRx h e
  | pairCloseRx _ _ => exact keeps_execPairCloseRx h e
  | pairCloseAckRx _ => exact keeps_execPairCloseAckRx h e
  | pairDiscardRx => exact keeps_execPairDiscardRx h e
  | pairCopyRelay _ _ _ _ => exact keeps_execPairCopyRelay h e
  | pairSwitch => exact keeps_execPairSwitch h e
  | pairSwitchRequestRx _ => exact keeps_execPairSwitchRequestRx h e
  | pairReadyRx => exact keeps_execPairReadyRx h e
  | pairSwitchTimeout => exact keeps_execPairSwitchTimeout h e
  | pairSwitchHandoverEnd _ => exact keeps_execPairSwitchHandoverEnd h e
  | pairRevertTimer => exact keeps_execPairRevertTimer h e
  | pairStatus => exact keeps_execPairStatus h e
  | pairClr _ _ => exact keeps_execPairClr h e
  | recPeriodicSample _ => exact keeps_execRecPeriodicSample h e
  | recSampleApply => exact keeps_execRecSampleApply h e
  | recFlush => exact keeps_execRecFlush h e
  | recNoteCmd _ _ => exact keeps_execRecNoteCmd h e
  | recExport => exact keeps_execRecExport h e
  | recClear => exact keeps_execRecClear h e
  | recClr _ _ => exact keeps_execRecClr h e
  | istLbistSelect => exact keeps_execIstLbistSelect h e
  | dramScrubRead => exact keeps_execDramScrubRead h e
  | istOffpulseEnd => exact keeps_execIstOffpulseEnd h e
  | calAgeCheck => exact keeps_execCalAgeCheck h e
  | calIslandDone _ => exact keeps_execCalIslandDone h e
  | mpLoadWindow _ => exact keeps_execMpLoadWindow h e
  | mpTelemetry => exact keeps_execMpTelemetry h e
  | mpxL2mCmd _ _ => exact keeps_execMpxL2mCmd h e
  | mpxM2lCmd _ _ => exact keeps_execMpxM2lCmd h e
  | maFrameRx _ _ => exact keeps_execMaFrameRx h e
  | ident _ => exact keeps_execIdent h e
  | readReg _ _ _ => exact keeps_execReadReg h e
  | notes _ _ => exact keeps_execNotes h e
  | maintRecExport _ _ _ => exact keeps_execMaintRecExport h e
  | unlockReq _ => exact keeps_execUnlockReq h e
  | unlock _ _ _ _ => exact keeps_execUnlock h e
  | unlockExpiry => exact keeps_execUnlockExpiry h e
  | readMem _ _ _ => exact keeps_execReadMem h e
  | writeReg _ _ _ => exact keeps_execWriteReg h e
  | maintRecClear _ _ _ => exact keeps_execMaintRecClear h e
  | fwWrite _ _ _ _ => exact keeps_execFwWrite h e
  | fwTrial _ _ => exact keeps_execFwTrial h e
  | debugEn _ _ => exact keeps_execDebugEn h e
  | maintReset _ => exact keeps_execMaintReset h e
  | consoleCommand _ => exact keeps_execConsoleCommand h e
  | istClr _ _ => exact keeps_execIstClr h e
  | imgLoadStart _ _ => exact keeps_execImgLoadStart h e
  | imgLoadEnd => exact keeps_execImgLoadEnd h e
  | energyDetect _ => exact keeps_execEnergyDetect h e
  | vsSafLow _ _ _ => exact keeps_execVsSafLow h e
  | otWarnRearm _ => exact keeps_execOtWarnRearm h e
  | txFrameEnd _ => exact keeps_execTxFrameEnd h e

theorem keeps_State_tickFld {s t : State} (h : Keeps s t) :
    Keeps s (State.tickFld t) := by
  unfold State.tickFld
  refine Keeps.ite ?_ ?_
  · refine keeps_State_upsStart ?_
    assumption
  · assumption

theorem keeps_unlockedCall {s t : State} {a0 : _} {a1 : _} {a2 : _} (h : Keeps s t) :
    Keeps s (unlockedCall a0 a1 a2 t) := by
  unfold unlockedCall
  extract_lets +onlyGivenNames x1
  have hx1 : Keeps s x1 := ?_
  · clear_value x1
    extract_lets +onlyGivenNames x2
    clear_value x2
    extract_lets +onlyGivenNames x3
    have hx3 : Keeps s x3 := ?_
    · clear_value x3
      refine keeps_State_raise ?_
      refine keeps_State_recNoteWrite ?_
      assumption
    · unfold x3
      refine Keeps.same (t := x1) ?_ rfl rfl rfl
      assumption
  · unfold x1
    refine keeps_State_wr ?_
    assumption

end Machine
end Sys2Proof
end

