-- ==== Sys2Proof/Laws/Calm.lean ====
section
/-!
SUPPORT. Calm: what the operations of the networks, the field, the rings, the recorder and the other blocks beside the lane
complex leave as it is. Each such operation has its lemma in Calm01 and the files after it, named after it.
-/

set_option Elab.async false

namespace Sys2Proof
namespace Machine

/-- t comes from s by operations that leave alone the queue, the phase, the time base, the harts and the PLIC, and of the
hearth domain's state all but the FAULT relay and SAFE_N, which they may only turn off. -/
structure Calm (s t : State) : Prop where
  pending : t.pending = s.pending
  phase : t.phase = s.phase
  pwr : t.pwr = s.pwr ∨ t.pwr = { s.pwr with state := s.pwr.state.halted, relay := false, safeN := false }
  tb : t.tb = s.tb
  harts : t.harts = s.harts
  plic : t.plic = s.plic

theorem Calm.refl (s : State) : Calm s s := ⟨rfl, rfl, .inl rfl, rfl, rfl, rfl⟩

/-- An update of other parts of the state. -/

theorem Calm.same {s t u : State} (h : Calm s t) (hp : u.pending = t.pending) (hq : u.phase = t.phase)
    (hw : u.pwr = t.pwr) (ht : u.tb = t.tb := by rfl) (hh : u.harts = t.harts := by rfl) (hi : u.plic = t.plic := by rfl) : Calm s u :=
  ⟨hp.trans h.pending, hq.trans h.phase, hw ▸ h.pwr, ht.trans h.tb, hh.trans h.harts, hi.trans h.plic⟩

theorem Calm.ite {s a b : State} {c : Prop} [Decidable c] (ha : Calm s a) (hb : Calm s b) :
    Calm s (if c then a else b) := by split <;> assumption

theorem Calm.ite_fst {β : Type} {s : State} {a b : State × β} {c : Prop} [Decidable c] (ha : Calm s a.1) (hb : Calm s b.1) :
    Calm s (if c then a else b).1 := by split <;> assumption

theorem Calm.ite_snd {β : Type} {s : State} {a b : β × State} {c : Prop} [Decidable c] (ha : Calm s a.2) (hb : Calm s b.2) :
    Calm s (if c then a else b).2 := by split <;> assumption

theorem Calm.foldl {α : Type} {s t : State} {g : State → α → State} {l : List α} (h : Calm s t)
    (hg : ∀ t x, Calm s t → Calm s (g t x)) : Calm s (l.foldl g t) := by
  induction l generalizing t with
  | nil => exact h
  | cons a l ih => exact ih (hg t a h)

theorem Calm.foldl_fst {α β : Type} {s : State} {g : State × β → α → State × β} {l : List α} {t : State × β}
    (h : Calm s t.1) (hg : ∀ t x, Calm s t.1 → Calm s (g t x).1) : Calm s (l.foldl g t).1 := by
  induction l generalizing t with
  | nil => exact h
  | cons a l ih => exact ih (hg t a h)

theorem Calm.foldl_snd {α β : Type} {s : State} {g : β × State → α → β × State} {l : List α} {t : β × State}
    (h : Calm s t.2) (hg : ∀ t x, Calm s t.2 → Calm s (g t x).2) : Calm s (l.foldl g t).2 := by
  induction l generalizing t with
  | nil => exact h
  | cons a l ih => exact ih (hg t a h)

theorem Calm.foldl_snd2 {α β γ : Type} {s : State} {g : γ × β × State → α → γ × β × State} {l : List α} {t : γ × β × State}
    (h : Calm s t.2.2) (hg : ∀ t x, Calm s t.2.2 → Calm s (g t x).2.2) : Calm s (l.foldl g t).2.2 := by
  induction l generalizing t with
  | nil => exact h
  | cons a l ih => exact ih (hg t a h)

theorem Calm.of_snd {β : Type} {s t : State} {x : β × State} {b : β} (e : x = (b, t)) (h : Calm s x.2) : Calm s t := by
  subst e; exact h

theorem Calm.of_fst {β : Type} {s t : State} {x : State × β} {b : β} (e : x = (t, b)) (h : Calm s x.1) : Calm s t := by
  subst e; exact h

theorem Calm.of_snd2 {β γ : Type} {s t : State} {x : γ × β × State} {b : β} {c : γ} (e : x = (c, b, t)) (h : Calm s x.2.2) :
    Calm s t := by
  subst e; exact h
/-- Calm of a pair's first component. -/
structure CalmF {β : Type} (s : State) (r : State × β) : Prop where
  out : Calm s r.1
/-- Calm of a pair's second component. -/
structure CalmS {β : Type} (s : State) (r : β × State) : Prop where
  out : Calm s r.2
/-- Calm of a triple's third component. -/
structure CalmS2 {β γ : Type} (s : State) (r : γ × β × State) : Prop where
  out : Calm s r.2.2

theorem CalmF.ite {β : Type} {s : State} {a b : State × β} {c : Prop} [Decidable c] (ha : CalmF s a) (hb : CalmF s b) :
    CalmF s (if c then a else b) := by split <;> assumption

theorem CalmS.ite {β : Type} {s : State} {a b : β × State} {c : Prop} [Decidable c] (ha : CalmS s a) (hb : CalmS s b) :
    CalmS s (if c then a else b) := by split <;> assumption

theorem CalmS2.ite {β γ : Type} {s : State} {a b : γ × β × State} {c : Prop} [Decidable c] (ha : CalmS2 s a)
    (hb : CalmS2 s b) : CalmS2 s (if c then a else b) := by split <;> assumption

theorem CalmF.pair {β : Type} {s t : State} {b : β} (h : Calm s t) : CalmF s (t, b) := ⟨h⟩

theorem CalmS.pair {β : Type} {s t : State} {b : β} (h : Calm s t) : CalmS s (b, t) := ⟨h⟩

theorem CalmS2.pair {β γ : Type} {s t : State} {b : β} {c : γ} (h : Calm s t) : CalmS2 s (c, b, t) := ⟨h⟩

theorem CalmS2.pair1 {β γ : Type} {s : State} {r : β × State} {c : γ} (h : CalmS s r) : CalmS2 s (c, r) := ⟨h.out⟩

theorem Calm.off {s t u : State} (h : Calm s t) (hp : u.pending = t.pending) (hq : u.phase = t.phase)
    (hw : u.pwr = { t.pwr with state := t.pwr.state.halted, relay := false, safeN := false }) (ht : u.tb = t.tb := by rfl) (hh : u.harts = t.harts := by rfl)
    (hi : u.plic = t.plic := by rfl) : Calm s u :=
  ⟨hp.trans h.pending, hq.trans h.phase, .inr (by rw [hw]; rcases h.pwr with e | e <;> rw [e]; cases s.pwr.state <;> rfl), ht.trans h.tb, hh.trans h.harts,
    hi.trans h.plic⟩

theorem calm_State_setReg {s t : State} {o : Nat} {w : Word} (h : Calm s t) : Calm s (t.setReg o w) :=
  ⟨h.pending, h.phase, h.pwr, h.tb, h.harts, h.plic⟩

theorem calm_State_setByte {s t : State} {a : Nat} {b : Byte} (h : Calm s t) : Calm s (t.setByte a b) :=
  ⟨h.pending, h.phase, h.pwr, h.tb, h.harts, h.plic⟩

theorem calm_State_setBytes {s t : State} {a : Nat} {bs : List Byte} (h : Calm s t) : Calm s (t.setBytes a bs) := by
  induction bs generalizing t a with
  | nil => exact h
  | cons b l ih => exact ih (calm_State_setByte h)

end Machine
end Sys2Proof
end

