-- ==== Sys2Proof/Laws/Calm01.lean ====
section
/-!
SUPPORT. Calm: the operations of Ops, RingOps, CordOps, RecOps, MpOps, FieldCore, RackOps.
-/

set_option Elab.async false

namespace Sys2Proof
namespace Machine

theorem calm_State_raise {s t : State} {a1 : _} {a2 : _} (h : Calm s t) :
    Calm s (State.raise t a1 a2) := by
  unfold State.raise
  refine Calm.ite ?_ ?_
  · assumption
  · refine Calm.same (t := t) ?_ rfl rfl rfl
    assumption

theorem calm_State_wr {s t : State} {a1 : _} {a2 : _} (h : Calm s t) :
    Calm s (State.wr t a1 a2) := by
  unfold State.wr
  refine calm_State_setReg ?_
  assumption

theorem calm_State_pairThrottle {s t : State} (h : Calm s t) :
    Calm s (State.pairThrottle t) := by
  unfold State.pairThrottle
  extract_lets +onlyGivenNames x1
  clear_value x1
  refine Calm.ite ?_ ?_
  · assumption
  · refine calm_State_raise ?_
    refine calm_State_wr ?_
    assumption

theorem calm_State_pairPut {s t : State} {a1 : _} (h : Calm s t) :
    Calm s (State.pairPut t a1) := by
  unfold State.pairPut
  refine Calm.ite ?_ ?_
  · refine calm_State_pairThrottle ?_
    refine Calm.same (t := t) ?_ rfl rfl rfl
    assumption
  · assumption

theorem calm_State_raiseUe {s t : State} {a1 : _} {a2 : _} {a3 : _} (h : Calm s t) :
    Calm s (State.raiseUe t a1 a2 a3) := by
  unfold State.raiseUe
  refine calm_State_raise ?_
  assumption

theorem calm_State_eccWriteWord {s t : State} {a1 : _} {a2 : _} {a3 : _} {a4 : _} (h : Calm s t) :
    Calm s (State.eccWriteWord t a1 a2 a3 a4) := by
  unfold State.eccWriteWord
  split
  · assumption
  · refine Calm.ite ?_ ?_
    · refine Calm.same (t := t) ?_ rfl rfl rfl
      assumption
    · split
      · refine Calm.same (t := t) ?_ rfl rfl rfl
        assumption
      · refine calm_State_raiseUe ?_
        assumption

theorem calm_State_modAdd {s t : State} {a1 : _} {a2 : _} (h : Calm s t) :
    Calm s (State.modAdd t a1 a2) := by
  unfold State.modAdd
  refine calm_State_wr ?_
  assumption

theorem calm_State_mirror {s t : State} {a1 : _} {a2 : _} (h : Calm s t) :
    Calm s (State.mirror t a1 a2) := by
  unfold State.mirror
  refine Calm.ite ?_ ?_
  · assumption
  · extract_lets +onlyGivenNames x1
    clear_value x1
    refine Calm.ite ?_ ?_
    · assumption
    · refine calm_State_pairPut ?_
      assumption

theorem calm_State_arrive {s t : State} {a1 : _} {a2 : _} {a3 : _} {a4 : State → State}
    (hf : ∀ u, Calm s u → Calm s (a4 u)) (h : Calm s t) : Calm s (State.arrive t a1 a2 a3 a4) := by
  unfold State.arrive
  split
  · exact Calm.same (t := t) h rfl rfl rfl
  · exact hf _ h

theorem calm_State_draw {s t : State} (h : Calm s t) :
    Calm s (State.draw t).2 := by
  refine CalmS.out ?_
  unfold State.draw
  refine CalmS.pair ?_
  refine Calm.same (t := t) ?_ rfl rfl rfl
  assumption

theorem calm_State_freeBytes {s t : State} {a1 : _} (h : Calm s t) :
    Calm s (State.freeBytes t a1).2 := by
  induction a1 generalizing t
  · unfold State.freeBytes
    dsimp -zeta only
    assumption
  · rename_i ih
    unfold State.freeBytes
    refine CalmS.out ?_
    extract_lets +onlyGivenNames x1
    have hx1 : Calm s x1.2 := ?_
    · clear_value x1
      extract_lets +onlyGivenNames x2
      have hx2 : Calm s x2.2 := ?_
      · clear_value x2
        refine CalmS.pair ?_
        assumption
      · unfold x2
        apply ih
        assumption
    · unfold x1
      refine calm_State_draw ?_
      assumption

theorem calm_State_raiseRing {s t : State} {a1 : _} {a2 : _} {a3 : _} (h : Calm s t) :
    Calm s (State.raiseRing t a1 a2 a3) := by
  unfold State.raiseRing
  refine Calm.same (t := t) ?_ rfl rfl rfl
  assumption

theorem calm_State_mpIrq {s t : State} {a1 : _} (h : Calm s t) :
    Calm s (State.mpIrq t a1) := by
  unfold State.mpIrq
  refine calm_State_wr ?_
  assumption

theorem calm_State_peak {s t : State} {a1 : _} {a2 : _} (h : Calm s t) :
    Calm s (State.peak t a1 a2) := by
  unfold State.peak
  refine Calm.ite ?_ ?_
  · refine calm_State_wr ?_
    assumption
  · assumption

theorem calm_State_dropResv {s t : State} {a1 : _} {a2 : _} (h : Calm s t) :
    Calm s (State.dropResv t a1 a2) := by
  unfold State.dropResv
  refine Calm.same (t := t) ?_ rfl rfl rfl
  assumption

theorem calm_State_wr64 {s t : State} {a1 : _} {a2 : _} {a3 : _} (h : Calm s t) :
    Calm s (State.wr64 t a1 a2 a3) := by
  unfold State.wr64
  refine calm_State_setReg ?_
  refine calm_State_setReg ?_
  assumption

theorem calm_State_readCheck {s t : State} {a1 : _} {a2 : _} {a3 : _} (h : Calm s t) :
    Calm s (State.readCheck t a1 a2 a3).2 := by
  refine CalmS.out ?_
  unfold State.readCheck
  refine CalmS.ite ?_ ?_
  · refine CalmS.pair ?_
    assumption
  · split
    · refine CalmS.pair ?_
      refine calm_State_raiseUe ?_
      assumption
    · refine CalmS.pair ?_
      refine Calm.same (t := t) ?_ rfl rfl rfl
      assumption

theorem calm_State_checkAll {s t : State} {a1 : _} {a2 : _} (h : Calm s t) :
    Calm s (State.checkAll t a1 a2).2 := by
  induction a2 generalizing t a1
  · unfold State.checkAll
    dsimp -zeta only
    assumption
  · rename_i ih
    unfold State.checkAll
    refine CalmS.out ?_
    extract_lets +onlyGivenNames x4
    have hx4 : Calm s x4.2 := ?_
    · clear_value x4
      refine CalmS.ite ?_ ?_
      · refine ⟨?_⟩
        apply ih
        assumption
      · refine ⟨?_⟩
        assumption
    · unfold x4
      refine calm_State_readCheck ?_
      assumption

theorem calm_State_eccWrite {s t : State} {a1 : _} {a2 : _} {a3 : _} (h : Calm s t) :
    Calm s (State.eccWrite t a1 a2 a3) := by
  unfold State.eccWrite
  refine Calm.foldl ?_ (fun u1 y2 hu1 => ?_)
  · assumption
  · refine calm_State_eccWriteWord ?_
    assumption

theorem calm_State_setLe {s t : State} {a1 : _} {a2 : _} {a3 : _} (h : Calm s t) :
    Calm s (State.setLe t a1 a2 a3) := by
  unfold State.setLe
  refine calm_State_setBytes ?_
  assumption

theorem calm_State_setMemFld {s t : State} {a1 : _} {a2 : _} {a3 : _} {a4 : _} (h : Calm s t) :
    Calm s (State.setMemFld t a1 a2 a3 a4) := by
  unfold State.setMemFld
  refine calm_State_setLe ?_
  assumption

theorem calm_State_setWords {s t : State} {a1 : _} {a2 : _} (h : Calm s t) :
    Calm s (State.setWords t a1 a2) := by
  unfold State.setWords
  refine calm_State_setBytes ?_
  assumption

theorem calm_State_satAdd {s t : State} {a1 : _} {a2 : _} (h : Calm s t) :
    Calm s (State.satAdd t a1 a2) := by
  unfold State.satAdd
  refine calm_State_wr ?_
  assumption

theorem calm_State_busWrite {s t : State} {a1 : _} {a2 : _} {a3 : _} (h : Calm s t) :
    Calm s (State.busWrite t a1 a2 a3) := by
  unfold State.busWrite
  refine calm_State_mirror ?_
  refine calm_State_setBytes ?_
  refine calm_State_dropResv ?_
  refine Calm.ite ?_ ?_
  · assumption
  · refine calm_State_eccWrite ?_
    assumption

theorem calm_State_setCtx {s t : State} {a1 : _} {a2 : _} (h : Calm s t) :
    Calm s (State.setCtx t a1 a2) := by
  unfold State.setCtx
  refine Calm.same (t := t) ?_ rfl rfl rfl
  assumption

theorem calm_State_putRecord {s t : State} {a1 : _} {a2 : _} {a3 : _} (h : Calm s t) :
    Calm s (State.putRecord t a1 a2 a3) := by
  unfold State.putRecord
  extract_lets +onlyGivenNames x1
  clear_value x1
  extract_lets +onlyGivenNames x2
  clear_value x2
  extract_lets +onlyGivenNames x3
  have hx3 : Calm s x3 := ?_
  · clear_value x3
    refine calm_State_setCtx ?_
    refine calm_State_busWrite ?_
    assumption
  · unfold x3
    refine Calm.ite ?_ ?_
    · refine calm_State_mpIrq ?_
      assumption
    · assumption

theorem calm_State_dropHand {s t : State} {a1 : _} (h : Calm s t) :
    Calm s (State.dropHand t a1) := by
  unfold State.dropHand
  refine Calm.same (t := t) ?_ rfl rfl rfl
  assumption

theorem calm_State_advance {s t : State} {a1 : _} (h : Calm s t) :
    Calm s (State.advance t a1) := by
  unfold State.advance
  extract_lets +onlyGivenNames x1
  clear_value x1
  extract_lets +onlyGivenNames x2
  clear_value x2
  extract_lets +onlyGivenNames x3
  clear_value x3
  extract_lets +onlyGivenNames x4
  have hx4 : Calm s x4 := ?_
  · clear_value x4
    refine calm_State_setCtx ?_
    assumption
  · unfold x4
    refine Calm.same (t := t) ?_ rfl rfl rfl
    assumption

theorem calm_State_recordEvents {s t : State} {a1 : _} {a2 : _} {a3 : _} (h : Calm s t) :
    Calm s (State.recordEvents t a1 a2 a3) := by
  unfold State.recordEvents
  extract_lets +onlyGivenNames x1
  have hx1 : Calm s x1 := ?_
  · clear_value x1
    extract_lets +onlyGivenNames x2
    have hx2 : Calm s x2 := ?_
    · clear_value x2
      refine Calm.ite ?_ ?_
      · refine calm_State_raiseRing ?_
        assumption
      · assumption
    · unfold x2
      refine Calm.ite ?_ ?_
      · refine calm_State_raiseRing ?_
        assumption
      · assumption
  · unfold x1
    refine Calm.ite ?_ ?_
    · refine calm_State_raiseRing ?_
      assumption
    · assumption

theorem calm_State_complete {s t : State} {a1 : _} {a2 : _} {a3 : _} {a4 : _} {a5 : _} (h : Calm s t) :
    Calm s (State.complete t a1 a2 a3 a4 a5) := by
  unfold State.complete
  refine Calm.ite ?_ ?_
  · assumption
  · refine calm_State_recordEvents ?_
    refine calm_State_putRecord ?_
    assumption

theorem calm_State_finish {s t : State} {a1 : _} {a2 : _} {a3 : _} (h : Calm s t) :
    Calm s (State.finish t a1 a2 a3) := by
  unfold State.finish
  refine calm_State_dropHand ?_
  refine calm_State_advance ?_
  refine calm_State_complete ?_
  assumption

theorem calm_State_accept {s t : State} {a1 : _} {a2 : _} (h : Calm s t) :
    Calm s (State.accept t a1 a2) := by
  unfold State.accept
  extract_lets +onlyGivenNames x1
  clear_value x1
  extract_lets +onlyGivenNames x2
  have hx2 : Calm s x2 := ?_
  · clear_value x2
    extract_lets +onlyGivenNames x3
    clear_value x3
    extract_lets +onlyGivenNames x4
    have hx4 : Calm s x4 := ?_
    · clear_value x4
      extract_lets +onlyGivenNames x5
      clear_value x5
      extract_lets +onlyGivenNames x6
      have hx6 : Calm s x6 := ?_
      · clear_value x6
        refine calm_State_dropHand ?_
        refine calm_State_advance ?_
        assumption
      · unfold x6
        refine Calm.same (t := x4) ?_ rfl rfl rfl
        assumption
    · unfold x4
      refine calm_State_setCtx ?_
      assumption
  · unfold x2
    refine calm_State_complete ?_
    assumption

theorem calm_State_doLong {s t : State} {a1 : _} {a2 : _} {a3 : Cmd → State → State}
    (hf : ∀ c u, Calm s u → Calm s (a3 c u)) (h : Calm s t) : Calm s (State.doLong t a1 a2 a3) := by
  unfold State.doLong
  split
  · exact h
  · split
    · split
      · exact calm_State_finish h
      · exact hf _ _ (calm_State_accept h)
    · exact h

theorem calm_State_unwait {s t : State} {a1 : _} (h : Calm s t) :
    Calm s (State.unwait t a1) := by
  unfold State.unwait
  refine Calm.ite ?_ ?_
  · refine calm_State_setCtx ?_
    assumption
  · assumption

theorem calm_State_noteBatch {s t : State} {a1 : _} {a2 : _} (h : Calm s t) :
    Calm s (State.noteBatch t a1 a2) := by
  unfold State.noteBatch
  extract_lets +onlyGivenNames x1
  clear_value x1
  refine Calm.ite ?_ ?_
  · assumption
  · refine Calm.same (t := t) ?_ rfl rfl rfl
    assumption

theorem calm_State_spend {s t : State} {a1 : _} (h : Calm s t) :
    Calm s (State.spend t a1) := by
  unfold State.spend
  refine Calm.same (t := t) ?_ rfl rfl rfl
  assumption

theorem calm_State_dbError {s t : State} {a1 : _} {a2 : _} {a3 : _} (h : Calm s t) :
    Calm s (State.dbError t a1 a2 a3) := by
  unfold State.dbError
  extract_lets +onlyGivenNames x1
  have hx1 : Calm s x1 := ?_
  · clear_value x1
    extract_lets +onlyGivenNames x2
    have hx2 : Calm s x2 := ?_
    · clear_value x2
      refine calm_State_raiseRing ?_
      assumption
    · unfold x2
      refine Calm.ite ?_ ?_
      · assumption
      · refine calm_State_wr ?_
        refine calm_State_wr ?_
        refine calm_State_wr ?_
        assumption
  · unfold x1
    refine calm_State_satAdd ?_
    assumption

theorem calm_State_watchTail {s t : State} {a1 : _} {a2 : _} (h : Calm s t) :
    Calm s (State.watchTail t a1 a2) := by
  unfold State.watchTail
  extract_lets +onlyGivenNames x1
  clear_value x1
  refine Calm.ite ?_ ?_
  · assumption
  · refine Calm.ite ?_ ?_
    · refine calm_State_dbError ?_
      assumption
    · refine calm_State_setCtx ?_
      assumption

theorem calm_runHandleQuery {s t : State} {a0 : _} (h : Calm s t) :
    Calm s (runHandleQuery a0 t).1 := by
  refine CalmF.out ?_
  unfold runHandleQuery
  extract_lets +onlyGivenNames x1
  clear_value x1
  extract_lets +onlyGivenNames x2
  clear_value x2
  extract_lets +onlyGivenNames x3
  clear_value x3
  extract_lets +onlyGivenNames x4
  clear_value x4
  refine CalmF.ite ?_ ?_
  · refine CalmF.pair ?_
    assumption
  · refine CalmF.ite ?_ ?_
    · refine CalmF.pair ?_
      assumption
    · split
      · refine CalmF.pair ?_
        assumption
      · refine CalmF.pair ?_
        assumption

theorem calm_State_watchHead {s t : State} {a1 : _} {a2 : _} (h : Calm s t) :
    Calm s (State.watchHead t a1 a2) := by
  unfold State.watchHead
  extract_lets +onlyGivenNames x1
  clear_value x1
  refine Calm.ite ?_ ?_
  · refine calm_State_dbError ?_
    assumption
  · refine calm_State_unwait ?_
    refine calm_State_setCtx ?_
    assumption

theorem calm_State_watch {s t : State} {a1 : _} {a2 : _} (h : Calm s t) :
    Calm s (State.watch t a1 a2) := by
  unfold State.watch
  extract_lets +onlyGivenNames x1
  clear_value x1
  extract_lets +onlyGivenNames x2
  clear_value x2
  extract_lets +onlyGivenNames x3
  refine Calm.ite ?_ ?_
  · refine calm_State_dbError ?_
    assumption
  · split
    · refine Calm.ite ?_ ?_
      · refine calm_State_dbError ?_
        assumption
      · extract_lets +onlyGivenNames x4
        have hx4 : Calm s x4 := ?_
        · clear_value x4
          refine calm_State_noteBatch ?_
          refine calm_State_setCtx ?_
          assumption
        · unfold x4
          unfold x3
          refine calm_State_watchHead ?_
          refine calm_State_watchTail ?_
          assumption
    · refine Calm.ite ?_ ?_
      · refine calm_State_noteBatch ?_
        unfold x3
        refine calm_State_watchHead ?_
        refine calm_State_watchTail ?_
        assumption
      · refine calm_State_dbError ?_
        assumption
    · refine calm_State_noteBatch ?_
      unfold x3
      refine calm_State_watchHead ?_
      refine calm_State_watchTail ?_
      assumption

theorem calm_State_ringTo {s t : State} {a1 : _} {a2 : _} (h : Calm s t) :
    Calm s (State.ringTo t a1 a2) := by
  unfold State.ringTo
  extract_lets +onlyGivenNames x1
  clear_value x1
  extract_lets +onlyGivenNames x2
  have hx2 : Calm s x2 := ?_
  · clear_value x2
    refine Calm.ite ?_ ?_
    · refine calm_State_raiseRing ?_
      assumption
    · assumption
  · unfold x2
    refine calm_State_setCtx ?_
    assumption

theorem calm_runNop {s t : State} {a0 : _} (h : Calm s t) :
    Calm s (runNop a0 t).1 := by
  refine CalmF.out ?_
  unfold runNop
  refine CalmF.pair ?_
  assumption

theorem calm_State_flushOut {s t : State} {a1 : _} {a2 : _} (h : Calm s t) :
    Calm s (State.flushOut t a1 a2) := by
  induction a2 generalizing t a1
  · unfold State.flushOut
    assumption
  · rename_i ih
    unfold State.flushOut
    split
    · assumption
    · split
      · assumption
      · refine Calm.ite ?_ ?_
        · assumption
        · extract_lets +onlyGivenNames x1
          have hx1 : Calm s x1 := ?_
          · clear_value x1
            extract_lets +onlyGivenNames x2
            clear_value x2
            extract_lets +onlyGivenNames x3
            have hx3 : Calm s x3 := ?_
            · clear_value x3
              apply ih
              refine calm_State_unwait ?_
              refine Calm.same (t := x3) ?_ rfl rfl rfl
              assumption
            · unfold x3
              refine calm_State_setCtx ?_
              assumption
          · unfold x1
            refine calm_State_complete ?_
            assumption

theorem calm_State_endLong {s t : State} {a1 : _} {a2 : _} (h : Calm s t) :
    Calm s (State.endLong t a1 a2) := by
  unfold State.endLong
  refine calm_State_flushOut ?_
  refine Calm.same (t := t) ?_ rfl rfl rfl
  assumption

theorem calm_State_outBuf {s t : State} {a1 : _} {a2 : _} {a3 : _} (h : Calm s t) :
    Calm s (State.outBuf t a1 a2 a3) := by
  unfold State.outBuf
  refine calm_State_busWrite ?_
  assumption

theorem calm_State_doShort {s t : State} {a1 : _} {a2 : _} {a3 : Cmd → State → State × Final}
    (hf : ∀ c u, Calm s u → Calm s (a3 c u).1) (h : Calm s t) : Calm s (State.doShort t a1 a2 a3) := by
  unfold State.doShort
  split
  · exact h
  · split
    · exact calm_State_finish (hf _ _ h)
    · exact h

theorem calm_State_doUnit {s t : State} {a1 : _} {a2 : _} {a3 : Cmd → State → State × Final}
    (hf : ∀ c u, Calm s u → Calm s (a3 c u).1) (h : Calm s t) : Calm s (State.doUnit t a1 a2 a3) := by
  unfold State.doUnit
  split
  · exact calm_State_doShort hf h
  split
  · exact h
  · exact calm_State_doShort (fun c u hu => hf _ _ (calm_State_spend hu)) h

theorem calm_State_setOut {s t : State} {a1 : _} (h : Calm s t) :
    Calm s (State.setOut t a1) := by
  unfold State.setOut
  refine Calm.same (t := t) ?_ rfl rfl rfl
  assumption

theorem calm_State_takeFrom {s t : State} {a1 : _} {a2 : _} {a3 : _} (h : Calm s t) :
    Calm s (State.takeFrom t a1 a2 a3) := by
  unfold State.takeFrom
  extract_lets +onlyGivenNames x1
  clear_value x1
  extract_lets +onlyGivenNames x2
  have hx2 : Calm s x2.2 := ?_
  · clear_value x2
    extract_lets +onlyGivenNames x3
    have hx3 : Calm s x3 := ?_
    · clear_value x3
      split
      · refine calm_State_ringTo ?_
        assumption
      · refine calm_State_ringTo ?_
        assumption
      · refine calm_State_ringTo ?_
        refine calm_State_setCtx ?_
        assumption
      · refine calm_State_ringTo ?_
        assumption
      · extract_lets +onlyGivenNames x4
        have hx4 : Calm s x4 := ?_
        · clear_value x4
          extract_lets +onlyGivenNames x5
          clear_value x5
          refine Calm.ite ?_ ?_
          · extract_lets +onlyGivenNames x6
            have hx6 : Calm s x6.2 := ?_
            · clear_value x6
              refine calm_State_finish ?_
              assumption
            · unfold x6
              refine calm_State_draw ?_
              assumption
          · split
            · refine calm_State_finish ?_
              assumption
            · refine Calm.same (t := x4) ?_ rfl rfl rfl
              assumption
            · refine Calm.same (t := x4) ?_ rfl rfl rfl
              assumption
        · unfold x4
          refine calm_State_ringTo ?_
          assumption
    · unfold x3
      assumption
  · unfold x2
    refine calm_State_readCheck ?_
    assumption

theorem calm_State_flueShow {s t : State} (h : Calm s t) :
    Calm s (State.flueShow t) := by
  unfold State.flueShow
  extract_lets +onlyGivenNames x1
  clear_value x1
  refine calm_State_peak ?_
  refine calm_State_wr ?_
  refine calm_State_wr ?_
  assumption

theorem calm_State_setRecs {s t : State} {a1 : _} (h : Calm s t) :
    Calm s (State.setRecs t a1) := by
  unfold State.setRecs
  refine calm_State_flueShow ?_
  refine Calm.same (t := t) ?_ rfl rfl rfl
  assumption

theorem calm_State_setLane {s t : State} {a1 : _} {a2 : _} (h : Calm s t) :
    Calm s (State.setLane t a1 a2) := by
  unfold State.setLane
  extract_lets +onlyGivenNames x1
  have hx1 : Calm s x1 := ?_
  · clear_value x1
    refine calm_State_wr ?_
    assumption
  · unfold x1
    refine calm_State_wr ?_
    assumption

theorem calm_State_setMon {s t : State} {a1 : _} {a2 : _} (h : Calm s t) :
    Calm s (State.setMon t a1 a2) := by
  unfold State.setMon
  refine Calm.same (t := t) ?_ rfl rfl rfl
  assumption

theorem calm_State_dramCharge {s t : State} {a1 : _} {a2 : _} (h : Calm s t) :
    Calm s (State.dramCharge t a1 a2) := by
  unfold State.dramCharge
  refine Calm.ite ?_ ?_
  · assumption
  · extract_lets +onlyGivenNames x1
    have hx1 : Calm s x1.2 := ?_
    · clear_value x1
      extract_lets +onlyGivenNames x2
      clear_value x2
      refine calm_State_setMon ?_
      assumption
    · unfold x1
      refine CalmS.out ?_
      refine CalmS.ite ?_ ?_
      · refine CalmS.pair ?_
        assumption
      · refine CalmS.pair ?_
        refine calm_State_draw ?_
        assumption

theorem calm_State_missCharge {s t : State} {a1 : _} {a2 : _} (h : Calm s t) :
    Calm s (State.missCharge t a1 a2) := by
  unfold State.missCharge
  refine calm_State_dramCharge ?_
  refine calm_State_draw ?_
  assumption

theorem calm_State_setStream {s t : State} {a1 : _} {a2 : _} (h : Calm s t) :
    Calm s (State.setStream t a1 a2) := by
  unfold State.setStream
  refine Calm.same (t := t) ?_ rfl rfl rfl
  assumption

theorem calm_State_requestCord {s t : State} {a1 : _} (h : Calm s t) :
    Calm s (State.requestCord t a1) := by
  unfold State.requestCord
  refine Calm.ite ?_ ?_
  · assumption
  · refine Calm.ite ?_ ?_
    · refine Calm.same (t := t) ?_ rfl rfl rfl
      assumption
    · refine Calm.same (t := t) ?_ rfl rfl rfl
      assumption

theorem calm_State_logForceAt {s t : State} {a1 : _} (h : Calm s t) :
    Calm s (State.logForceAt t a1) := by
  unfold State.logForceAt
  refine Calm.ite ?_ ?_
  · refine calm_State_raise ?_
    refine calm_State_satAdd ?_
    refine calm_State_requestCord ?_
    assumption
  · assumption

theorem calm_State_logForce {s t : State} (h : Calm s t) :
    Calm s (State.logForce t) := by
  unfold State.logForce
  refine calm_State_logForceAt ?_
  assumption

theorem calm_State_flueForce {s t : State} (h : Calm s t) :
    Calm s (State.flueForce t) := by
  unfold State.flueForce
  refine Calm.ite ?_ ?_
  · refine calm_State_raise ?_
    refine calm_State_satAdd ?_
    refine calm_State_requestCord ?_
    refine Calm.same (t := t) ?_ rfl rfl rfl
    assumption
  · assumption

theorem calm_State_quotaHeld {s t : State} {a1 : _} {a2 : _} (h : Calm s t) :
    Calm s (State.quotaHeld t a1 a2) := by
  unfold State.quotaHeld
  extract_lets +onlyGivenNames x1
  clear_value x1
  refine calm_State_wr ?_
  assumption

theorem calm_State_flueDiscard {s t : State} (h : Calm s t) :
    Calm s (State.flueDiscard t) := by
  unfold State.flueDiscard
  extract_lets +onlyGivenNames x1
  clear_value x1
  extract_lets +onlyGivenNames x2
  have hx2 : Calm s x2 := ?_
  · clear_value x2
    extract_lets +onlyGivenNames x3
    have hx3 : Calm s x3 := ?_
    · clear_value x3
      refine Calm.same (t := x3) ?_ rfl rfl rfl
      assumption
    · unfold x3
      refine calm_State_setRecs ?_
      assumption
  · unfold x2
    refine Calm.foldl ?_ (fun u4 y5 hu4 => ?_)
    · assumption
    · refine calm_State_quotaHeld ?_
      refine calm_State_satAdd ?_
      assumption

theorem calm_State_declCheck {s t : State} {a1 : _} (h : Calm s t) :
    Calm s (State.declCheck t a1) := by
  unfold State.declCheck
  extract_lets +onlyGivenNames x1
  clear_value x1
  extract_lets +onlyGivenNames x2
  clear_value x2
  extract_lets +onlyGivenNames x3
  clear_value x3
  extract_lets +onlyGivenNames x4
  have hx4 : Calm s x4 := ?_
  · clear_value x4
    refine Calm.ite ?_ ?_
    · refine calm_State_raise ?_
      refine Calm.same (t := x4) ?_ rfl rfl rfl
      assumption
    · assumption
  · unfold x4
    refine calm_State_setMon ?_
    assumption

theorem calm_State_logCharge {s t : State} {a1 : _} {a2 : _} (h : Calm s t) :
    Calm s (State.logCharge t a1 a2) := by
  unfold State.logCharge
  refine calm_State_declCheck ?_
  refine Calm.same (t := t) ?_ rfl rfl rfl
  assumption

theorem calm_State_logShow {s t : State} (h : Calm s t) :
    Calm s (State.logShow t) := by
  unfold State.logShow
  refine calm_State_peak ?_
  refine calm_State_wr ?_
  assumption

theorem calm_State_logPut {s t : State} {a1 : _} {a2 : _} (h : Calm s t) :
    Calm s (State.logPut t a1 a2) := by
  unfold State.logPut
  extract_lets +onlyGivenNames x1
  clear_value x1
  extract_lets +onlyGivenNames x2
  have hx2 : Calm s x2 := ?_
  · clear_value x2
    refine calm_State_logForce ?_
    split
    · assumption
    · refine calm_State_logCharge ?_
      assumption
  · unfold x2
    refine calm_State_logShow ?_
    refine Calm.same (t := t) ?_ rfl rfl rfl
    assumption

theorem calm_State_logTake {s t : State} {a1 : _} {a2 : _} {u : State} (h : Calm s t)
    (e : State.logTake t a1 a2 = some u) : Calm s u := by
  unfold State.logTake at e
  split at e
  · injection e with e; subst e; exact h
  split at e
  · contradiction
  · injection e with e; subst e; exact calm_State_logPut h

theorem calm_orderFold {s : State} {g : State → LineAcc → Option State} {l : List LineAcc} {o : Option State} {u : State}
    (ho : ∀ v, o = some v → Calm s v) (hg : ∀ v x w, Calm s v → g v x = some w → Calm s w)
    (e : l.foldl (fun o x => match o with | none => none | some t => g t x) o = some u) : Calm s u := by
  induction l generalizing o with
  | nil => exact ho u e
  | cons a l ih =>
    cases o with
    | none => exact ih (o := none) (fun v hv => nomatch hv) e
    | some t => exact ih (o := g t a) (fun v hv => hg t a v (ho t rfl) hv) e

theorem calm_State_orderTake {s t : State} {a1 : _} {a2 : _} {a3 : _} {a4 : _} {u : State} (h : Calm s t)
    (e : State.orderTake t a1 a2 a3 a4 = some u) : Calm s u := by
  unfold State.orderTake at e
  split at e
  · injection e with e; subst e; exact h
  extract_lets x1 x2 x3 at e
  split at e
  · contradiction
  · rename_i v hv
    extract_lets x4 at e
    injection e with e; subst e
    refine Calm.same (t := v) ?_ rfl rfl rfl
    refine calm_orderFold (o := some t) (fun w hw => ?_) (fun w x y hw hy => ?_) hv
    · injection hw with hw; subst hw; exact h
    · split at hy
      · injection hy with hy; subst hy; exact hw
      · exact calm_State_logTake hw hy

theorem calm_State_undoForce {s t : State} (h : Calm s t) :
    Calm s (State.undoForce t) := by
  unfold State.undoForce
  refine Calm.ite ?_ ?_
  · refine calm_State_raise ?_
    refine calm_State_satAdd ?_
    refine calm_State_requestCord ?_
    assumption
  · assumption

theorem calm_State_undoPut {s t : State} {a1 : _} {a2 : _} (h : Calm s t) :
    Calm s (State.undoPut t a1 a2) := by
  unfold State.undoPut
  extract_lets +onlyGivenNames x1
  clear_value x1
  extract_lets +onlyGivenNames x2
  clear_value x2
  extract_lets +onlyGivenNames x3
  have hx3 : Calm s x3 := ?_
  · clear_value x3
    extract_lets +onlyGivenNames x4
    clear_value x4
    refine calm_State_undoForce ?_
    refine calm_State_dramCharge ?_
    refine calm_State_declCheck ?_
    refine calm_State_peak ?_
    refine calm_State_wr ?_
    assumption
  · unfold x3
    refine Calm.same (t := t) ?_ rfl rfl rfl
    assumption

theorem calm_State_undoTake {s t : State} {a1 : _} {a2 : _} {u : State} (h : Calm s t)
    (e : State.undoTake t a1 a2 = some u) : Calm s u := by
  unfold State.undoTake at e
  split at e
  · injection e with e; subst e; exact h
  split at e
  · injection e with e; subst e; exact calm_State_undoPut h
  · contradiction

theorem calm_State_flueShut {s t : State} (h : Calm s t) :
    Calm s (State.flueShut t) := by
  unfold State.flueShut
  extract_lets +onlyGivenNames x1
  clear_value x1
  extract_lets +onlyGivenNames x2
  have hx2 : Calm s x2 := ?_
  · clear_value x2
    extract_lets +onlyGivenNames x3
    have hx3 : Calm s x3 := ?_
    · clear_value x3
      extract_lets +onlyGivenNames x4
      have hx4 : Calm s x4 := ?_
      · clear_value x4
        refine Calm.same (t := x4) ?_ rfl rfl rfl
        assumption
      · unfold x4
        refine calm_State_setRecs ?_
        assumption
    · unfold x3
      refine calm_State_wr ?_
      assumption
  · unfold x2
    refine Calm.foldl ?_ (fun u5 y6 hu5 => ?_)
    · assumption
    · refine calm_State_quotaHeld ?_
      assumption

theorem calm_State_flueEnter {s t : State} {a1 : _} {a2 : _} {a3 : _} {a4 : _} {a5 : _} {a6 : _} {a7 : _} {a8 : _} (h : Calm s t) :
    Calm s (State.flueEnter t a1 a2 a3 a4 a5 a6 a7 a8) := by
  unfold State.flueEnter
  extract_lets +onlyGivenNames x1
  clear_value x1
  extract_lets +onlyGivenNames x2
  clear_value x2
  extract_lets +onlyGivenNames x3
  clear_value x3
  extract_lets +onlyGivenNames x4
  have hx4 : Calm s x4 := ?_
  · clear_value x4
    refine calm_State_flueForce ?_
    refine calm_State_setRecs ?_
    assumption
  · unfold x4
    refine calm_State_quotaHeld ?_
    refine calm_State_setStream ?_
    assumption

theorem calm_State_flueSeal {s t : State} {a1 : _} {a2 : _} (h : Calm s t) :
    Calm s (State.flueSeal t a1 a2) := by
  unfold State.flueSeal
  extract_lets +onlyGivenNames x1
  clear_value x1
  refine Calm.same (t := t) ?_ rfl rfl rfl
  assumption

theorem calm_State_setRecChan {s t : State} {a1 : _} {a2 : _} {a3 : _} (h : Calm s t) :
    Calm s (State.setRecChan t a1 a2 a3) := by
  unfold State.setRecChan
  refine Calm.same (t := t) ?_ rfl rfl rfl
  assumption

theorem calm_State_recSample {s t : State} {a1 : _} {a2 : _} (h : Calm s t) :
    Calm s (State.recSample t a1 a2) := by
  unfold State.recSample
  refine Calm.ite ?_ ?_
  · assumption
  · refine Calm.ite ?_ ?_
    · extract_lets +onlyGivenNames x1
      clear_value x1
      extract_lets +onlyGivenNames x2
      have hx2 : Calm s x2 := ?_
      · clear_value x2
        refine Calm.ite ?_ ?_
        · assumption
        · refine calm_State_raise ?_
          refine Calm.same (t := x2) ?_ rfl rfl rfl
          assumption
      · unfold x2
        refine calm_State_setRecChan ?_
        refine calm_State_satAdd ?_
        assumption
    · extract_lets +onlyGivenNames x3
      have hx3 : Calm s x3 := ?_
      · clear_value x3
        refine Calm.same (t := x3) ?_ rfl rfl rfl
        assumption
      · unfold x3
        refine calm_State_satAdd ?_
        assumption

theorem calm_State_recBin {s t : State} {a1 : _} {a2 : _} {a3 : _} {a4 : _} (h : Calm s t) :
    Calm s (State.recBin t a1 a2 a3 a4).2 := by
  refine CalmS.out ?_
  unfold State.recBin
  refine CalmS.ite ?_ ?_
  · refine CalmS.pair ?_
    assumption
  · refine CalmS.ite ?_ ?_
    · refine CalmS.pair ?_
      assumption
    · refine CalmS.ite ?_ ?_
      · refine CalmS.pair ?_
        assumption
      · refine CalmS.ite ?_ ?_
        · refine CalmS.pair ?_
          assumption
        · extract_lets +onlyGivenNames x1
          have hx1 : Calm s x1.2 := ?_
          · clear_value x1
            refine CalmS.pair ?_
            assumption
          · unfold x1
            refine calm_State_draw ?_
            assumption

theorem calm_State_recApply {s t : State} {a1 : _} (h : Calm s t) :
    Calm s (State.recApply t a1) := by
  unfold State.recApply
  extract_lets +onlyGivenNames x1
  clear_value x1
  extract_lets +onlyGivenNames x2
  clear_value x2
  extract_lets +onlyGivenNames x3
  have hx3 : Calm s x3.2 := ?_
  · clear_value x3
    extract_lets +onlyGivenNames x4
    have hx4 : Calm s x4 := ?_
    · clear_value x4
      extract_lets +onlyGivenNames x5
      clear_value x5
      extract_lets +onlyGivenNames x6
      clear_value x6
      extract_lets +onlyGivenNames x7
      clear_value x7
      extract_lets +onlyGivenNames x8
      clear_value x8
      extract_lets +onlyGivenNames x9
      clear_value x9
      extract_lets +onlyGivenNames x10
      clear_value x10
      refine calm_State_setRecChan ?_
      assumption
    · unfold x4
      assumption
  · unfold x3
    refine calm_State_recBin ?_
    assumption

theorem calm_State_recWriteHdr {s t : State} {a1 : _} (h : Calm s t) :
    Calm s (State.recWriteHdr t a1) := by
  unfold State.recWriteHdr
  extract_lets +onlyGivenNames x1
  clear_value x1
  extract_lets +onlyGivenNames x2
  clear_value x2
  extract_lets +onlyGivenNames x3
  clear_value x3
  extract_lets +onlyGivenNames x4
  clear_value x4
  refine calm_State_setBytes ?_
  assumption

theorem calm_State_recFlushChan {s t : State} {a1 : _} (h : Calm s t) :
    Calm s (State.recFlushChan t a1) := by
  unfold State.recFlushChan
  extract_lets +onlyGivenNames x1
  clear_value x1
  extract_lets +onlyGivenNames x2
  clear_value x2
  extract_lets +onlyGivenNames x3
  have hx3 : Calm s x3 := ?_
  · clear_value x3
    refine calm_State_setBytes ?_
    refine calm_State_setBytes ?_
    assumption
  · unfold x3
    refine calm_State_setRecChan ?_
    assumption

theorem calm_State_recClearChan {s t : State} {a1 : _} {a2 : _} (h : Calm s t) :
    Calm s (State.recClearChan t a1 a2) := by
  unfold State.recClearChan
  extract_lets +onlyGivenNames x1
  clear_value x1
  extract_lets +onlyGivenNames x2
  have hx2 : Calm s x2 := ?_
  · clear_value x2
    refine calm_State_recFlushChan ?_
    refine calm_State_setRecChan ?_
    assumption
  · unfold x2
    refine Calm.same (t := t) ?_ rfl rfl rfl
    assumption

theorem calm_State_recClear {s t : State} {a1 : _} (h : Calm s t) :
    Calm s (State.recClear t a1) := by
  unfold State.recClear
  extract_lets +onlyGivenNames x1
  clear_value x1
  extract_lets +onlyGivenNames x2
  have hx2 : Calm s x2 := ?_
  · clear_value x2
    refine calm_State_wr ?_
    refine calm_State_recWriteHdr ?_
    assumption
  · unfold x2
    refine Calm.foldl ?_ (fun u3 y4 hu3 => ?_)
    · assumption
    · refine calm_State_recClearChan ?_
      assumption

theorem calm_State_consoleLine {s t : State} {a1 : _} (h : Calm s t) :
    Calm s (State.consoleLine t a1) := by
  unfold State.consoleLine
  refine Calm.same (t := t) ?_ rfl rfl rfl
  assumption

theorem calm_State_recLock {s t : State} (h : Calm s t) :
    Calm s (State.recLock t) := by
  unfold State.recLock
  refine Calm.ite ?_ ?_
  · assumption
  · extract_lets +onlyGivenNames x1
    clear_value x1
    refine Calm.ite ?_ ?_
    · assumption
    · refine calm_State_raise ?_
      refine calm_State_recClear ?_
      assumption

theorem calm_State_recEvent {s t : State} {a1 : _} {a2 : _} {a3 : _} (h : Calm s t) :
    Calm s (State.recEvent t a1 a2 a3) := by
  unfold State.recEvent
  refine Calm.ite ?_ ?_
  · assumption
  · refine Calm.foldl ?_ (fun u1 y2 hu1 => ?_)
    · assumption
    · refine Calm.ite ?_ ?_
      · refine calm_State_recSample ?_
        assumption
      · assumption

theorem calm_State_recNoteWrite {s t : State} {a1 : _} {a2 : _} (h : Calm s t) :
    Calm s (State.recNoteWrite t a1 a2) := by
  unfold State.recNoteWrite
  extract_lets +onlyGivenNames x1
  clear_value x1
  extract_lets +onlyGivenNames x2
  clear_value x2
  extract_lets +onlyGivenNames x3
  clear_value x3
  extract_lets +onlyGivenNames x4
  clear_value x4
  extract_lets +onlyGivenNames x5
  have hx5 : Calm s x5 := ?_
  · clear_value x5
    refine calm_State_consoleLine ?_
    refine calm_State_wr ?_
    refine Calm.same (t := x5) ?_ rfl rfl rfl
    assumption
  · unfold x5
    refine calm_State_setBytes ?_
    assumption

theorem calm_State_recRestore {s t : State} (h : Calm s t) :
    Calm s (State.recRestore t) := by
  unfold State.recRestore
  extract_lets +onlyGivenNames x1
  clear_value x1
  extract_lets +onlyGivenNames x2
  have hx2 : Calm s x2 := ?_
  · clear_value x2
    extract_lets +onlyGivenNames x3
    clear_value x3
    extract_lets +onlyGivenNames x4
    clear_value x4
    extract_lets +onlyGivenNames x5
    clear_value x5
    extract_lets +onlyGivenNames x6
    have hx6 : Calm s x6 := ?_
    · clear_value x6
      extract_lets +onlyGivenNames x7
      have hx7 : Calm s x7 := ?_
      · clear_value x7
        extract_lets +onlyGivenNames x8
        clear_value x8
        extract_lets +onlyGivenNames x9
        have hx9 : Calm s x9 := ?_
        · clear_value x9
          refine Calm.same (t := x9) ?_ rfl rfl rfl
          assumption
        · unfold x9
          refine calm_State_wr ?_
          assumption
      · unfold x7
        refine calm_State_wr ?_
        refine calm_State_recWriteHdr ?_
        assumption
    · unfold x6
      split
      · refine calm_State_raise ?_
        refine calm_State_wr ?_
        assumption
      · assumption
  · unfold x2
    refine Calm.ite ?_ ?_
    · refine calm_State_setBytes ?_
      assumption
    · assumption

theorem calm_State_recFlush {s t : State} (h : Calm s t) :
    Calm s (State.recFlush t) := by
  unfold State.recFlush
  extract_lets +onlyGivenNames x1
  have hx1 : Calm s x1 := ?_
  · clear_value x1
    refine Calm.same (t := x1) ?_ rfl rfl rfl
    assumption
  · unfold x1
    refine Calm.foldl ?_ (fun u2 y3 hu2 => ?_)
    · assumption
    · refine calm_State_recFlushChan ?_
      assumption

theorem calm_State_freeWords {s t : State} {a1 : _} (h : Calm s t) :
    Calm s (State.freeWords t a1).2 := by
  induction a1 generalizing t
  · unfold State.freeWords
    dsimp -zeta only
    assumption
  · rename_i ih
    unfold State.freeWords
    refine CalmS.out ?_
    extract_lets +onlyGivenNames x1
    have hx1 : Calm s x1.2 := ?_
    · clear_value x1
      extract_lets +onlyGivenNames x2
      have hx2 : Calm s x2.2 := ?_
      · clear_value x2
        refine CalmS.pair ?_
        assumption
      · unfold x2
        apply ih
        assumption
    · unfold x1
      refine calm_State_draw ?_
      assumption

theorem calm_State_calClose {s t : State} {a1 : _} (h : Calm s t) :
    Calm s (State.calClose t a1) := by
  unfold State.calClose
  refine calm_State_setLe ?_
  refine calm_State_setLe ?_
  assumption

theorem calm_State_calWrite {s t : State} {a1 : _} {a2 : _} (h : Calm s t) :
    Calm s (State.calWrite t a1 a2) := by
  unfold State.calWrite
  extract_lets +onlyGivenNames x1
  clear_value x1
  extract_lets +onlyGivenNames x2
  have hx2 : Calm s x2.2 := ?_
  · clear_value x2
    extract_lets +onlyGivenNames x3
    have hx3 : Calm s x3 := ?_
    · clear_value x3
      refine calm_State_calClose ?_
      assumption
    · unfold x3
      refine calm_State_setWords ?_
      assumption
  · unfold x2
    refine calm_State_freeWords ?_
    assumption

theorem calm_State_calShow {s t : State} (h : Calm s t) :
    Calm s (State.calShow t) := by
  unfold State.calShow
  refine calm_State_wr ?_
  assumption

theorem calm_State_calDone {s t : State} {a1 : _} {a2 : _} (h : Calm s t) :
    Calm s (State.calDone t a1 a2) := by
  unfold State.calDone
  extract_lets +onlyGivenNames x1
  have hx1 : Calm s x1 := ?_
  · clear_value x1
    refine calm_State_calShow ?_
    assumption
  · unfold x1
    refine calm_State_raise ?_
    refine calm_State_satAdd ?_
    refine calm_State_calWrite ?_
    assumption

theorem calm_State_calJudge {s t : State} {a1 : _} {a2 : _} (h : Calm s t) :
    Calm s (State.calJudge t a1 a2) := by
  unfold State.calJudge
  refine Calm.ite ?_ ?_
  · extract_lets +onlyGivenNames x1
    clear_value x1
    extract_lets +onlyGivenNames x2
    have hx2 : Calm s x2 := ?_
    · clear_value x2
      extract_lets +onlyGivenNames x3
      have hx3 : Calm s x3 := ?_
      · clear_value x3
        extract_lets +onlyGivenNames x4
        have hx4 : Calm s x4 := ?_
        · clear_value x4
          refine Calm.ite ?_ ?_
          · assumption
          · refine Calm.ite ?_ ?_
            · refine Calm.same (t := x4) ?_ rfl rfl rfl
              assumption
            · refine Calm.same (t := x4) ?_ rfl rfl rfl
              assumption
        · unfold x4
          refine calm_State_recNoteWrite ?_
          assumption
      · unfold x3
        refine calm_State_raise ?_
        assumption
    · unfold x2
      refine calm_State_calClose ?_
      refine calm_State_setMemFld ?_
      assumption
  · assumption

theorem calm_State_calDram {s t : State} (h : Calm s t) :
    Calm s (State.calDram t) := by
  unfold State.calDram
  extract_lets +onlyGivenNames x1
  clear_value x1
  extract_lets +onlyGivenNames x2
  have hx2 : Calm s x2 := ?_
  · clear_value x2
    refine Calm.ite ?_ ?_
    · refine calm_State_calShow ?_
      assumption
    · refine calm_State_calShow ?_
      extract_lets +onlyGivenNames x3
      have hx3 : Calm s x3 := ?_
      · clear_value x3
        refine Calm.same (t := x3) ?_ rfl rfl rfl
        assumption
      · unfold x3
        refine calm_State_calWrite ?_
        assumption
  · unfold x2
    refine calm_State_calJudge ?_
    assumption

theorem calm_State_setLink {s t : State} {a1 : _} {a2 : _} (h : Calm s t) :
    Calm s (State.setLink t a1 a2) := by
  unfold State.setLink
  refine calm_State_wr ?_
  refine calm_State_wr ?_
  assumption

theorem calm_State_setAi {s t : State} {a1 : _} {a2 : _} (h : Calm s t) :
    Calm s (State.setAi t a1 a2) := by
  unfold State.setAi
  refine Calm.same (t := t) ?_ rfl rfl rfl
  assumption

theorem calm_State_setIn {s t : State} {a1 : _} {a2 : _} {a3 : _} (h : Calm s t) :
    Calm s (State.setIn t a1 a2 a3) := by
  unfold State.setIn
  refine Calm.same (t := t) ?_ rfl rfl rfl
  assumption

theorem calm_State_setDio {s t : State} {a1 : _} {a2 : _} {a3 : _} (h : Calm s t) :
    Calm s (State.setDio t a1 a2 a3) := by
  unfold State.setDio
  refine Calm.same (t := t) ?_ rfl rfl rfl
  assumption

theorem calm_State_dioStop {s t : State} {a1 : _} {a2 : _} (h : Calm s t) :
    Calm s (State.dioStop t a1 a2) := by
  unfold State.dioStop
  refine calm_State_setDio ?_
  assumption

theorem calm_State_setIsl {s t : State} {a1 : _} {a2 : _} (h : Calm s t) :
    Calm s (State.setIsl t a1 a2) := by
  unfold State.setIsl
  refine Calm.same (t := t) ?_ rfl rfl rfl
  assumption

theorem calm_State_groupOff {s t : State} {a1 : _} (h : Calm s t) :
    Calm s (State.groupOff t a1) := by
  unfold State.groupOff
  refine Calm.foldl ?_ (fun u1 y2 hu1 => ?_)
  · assumption
  · refine calm_State_dioStop ?_
    assumption

theorem calm_State_setTps {s t : State} {a1 : _} {a2 : _} (h : Calm s t) :
    Calm s (State.setTps t a1 a2) := by
  unfold State.setTps
  refine Calm.same (t := t) ?_ rfl rfl rfl
  assumption

theorem calm_State_islandSafe {s t : State} {a1 : _} (h : Calm s t) :
    Calm s (State.islandSafe t a1) := by
  unfold State.islandSafe
  extract_lets +onlyGivenNames x1
  have hx1 : Calm s x1 := ?_
  · clear_value x1
    extract_lets +onlyGivenNames x2
    clear_value x2
    extract_lets +onlyGivenNames x3
    have hx3 : Calm s x3 := ?_
    · clear_value x3
      refine Calm.ite ?_ ?_
      · assumption
      · refine Calm.ite ?_ ?_
        · extract_lets +onlyGivenNames x4
          clear_value x4
          refine calm_State_setAi ?_
          refine calm_State_setAi ?_
          assumption
        · refine Calm.ite ?_ ?_
          · refine Calm.foldl ?_ (fun u5 y6 hu5 => ?_)
            · assumption
            · refine calm_State_setTps ?_
              assumption
          · assumption
    · unfold x3
      refine calm_State_setIsl ?_
      assumption
  · unfold x1
    refine Calm.ite ?_ ?_
    · refine calm_State_groupOff ?_
      assumption
    · assumption

theorem calm_State_linkStop {s t : State} {a1 : _} (h : Calm s t) :
    Calm s (State.linkStop t a1) := by
  unfold State.linkStop
  refine Calm.ite ?_ ?_
  · assumption
  · extract_lets +onlyGivenNames x1
    clear_value x1
    extract_lets +onlyGivenNames x2
    have hx2 : Calm s x2 := ?_
    · clear_value x2
      refine calm_State_setLink ?_
      refine calm_State_islandSafe ?_
      assumption
    · unfold x2
      refine calm_State_setIsl ?_
      assumption

theorem calm_State_fieldStop {s t : State} (h : Calm s t) :
    Calm s (State.fieldStop t) := by
  unfold State.fieldStop
  extract_lets +onlyGivenNames x1
  have hx1 : Calm s x1 := ?_
  · clear_value x1
    refine Calm.same (t := x1) ?_ rfl rfl rfl
    assumption
  · unfold x1
    refine Calm.foldl ?_ (fun u2 y3 hu2 => ?_)
    · assumption
    · refine calm_State_linkStop ?_
      assumption

theorem calm_State_linksGo {s t : State} (h : Calm s t) :
    Calm s (State.linksGo t) := by
  unfold State.linksGo
  refine Calm.foldl ?_ (fun u1 y2 hu1 => ?_)
  · assumption
  · refine Calm.ite ?_ ?_
    · refine calm_State_setIsl ?_
      assumption
    · assumption

theorem calm_State_islandOut {s t : State} {a1 : _} {a2 : _} (h : Calm s t) :
    Calm s (State.islandOut t a1 a2) := by
  unfold State.islandOut
  refine calm_State_setIsl ?_
  assumption

theorem calm_State_linksHeld {s t : State} (h : Calm s t) :
    Calm s (State.linksHeld t) := by
  unfold State.linksHeld
  refine Calm.foldl ?_ (fun u1 y2 hu1 => ?_)
  · assumption
  · refine Calm.ite ?_ ?_
    · refine calm_State_setLink ?_
      assumption
    · assumption

theorem calm_State_setRackQueue {s t : State} {a1 : _} {a2 : _} (h : Calm s t) :
    Calm s (State.setRackQueue t a1 a2) := by
  unfold State.setRackQueue
  refine Calm.same (t := t) ?_ rfl rfl rfl
  assumption

theorem calm_State_rackIssue {s t : State} {a1 : _} {a2 : _} {a3 : _} {a4 : _} {a5 : _} {a6 : _} (h : Calm s t) :
    Calm s (State.rackIssue t a1 a2 a3 a4 a5 a6) := by
  unfold State.rackIssue
  refine calm_State_setRackQueue ?_
  assumption

theorem calm_State_rackPostedFail {s t : State} {a1 : _} {a2 : _} {a3 : _} (h : Calm s t) :
    Calm s (State.rackPostedFail t a1 a2 a3) := by
  unfold State.rackPostedFail
  extract_lets +onlyGivenNames x1
  have hx1 : Calm s x1 := ?_
  · clear_value x1
    refine calm_State_raise ?_
    refine calm_State_satAdd ?_
    assumption
  · unfold x1
    refine Calm.ite ?_ ?_
    · assumption
    · refine calm_State_wr ?_
      refine calm_State_wr ?_
      refine calm_State_wr ?_
      refine calm_State_wr ?_
      assumption

theorem calm_State_setCycle {s t : State} {a1 : _} (h : Calm s t) :
    Calm s (State.setCycle t a1) := by
  unfold State.setCycle
  refine calm_State_wr ?_
  refine Calm.same (t := t) ?_ rfl rfl rfl
  assumption

theorem calm_State_rackHold {s t : State} (h : Calm s t) :
    Calm s (State.rackHold t) := by
  unfold State.rackHold
  refine calm_State_wr ?_
  refine Calm.same (t := t) ?_ rfl rfl rfl
  assumption

end Machine
end Sys2Proof
end

