-- ==== Sys2Proof/Laws/Calm02.lean ====
section
/-!
SUPPORT. Calm: the operations of RackOps, Safe, PairState, Power, Boot, LaneRegs, Rings, Part, TbOps, SigOps, Signal.
-/

set_option Elab.async false

namespace Sys2Proof
namespace Machine

theorem calm_State_rackStop {s t : State} (h : Calm s t) :
    Calm s (State.rackStop t) := by
  unfold State.rackStop
  extract_lets +onlyGivenNames x1
  have hx1 : Calm s x1 := ?_
  · clear_value x1
    refine calm_State_rackHold ?_
    refine Calm.same (t := x1) ?_ rfl rfl rfl
    assumption
  · unfold x1
    refine calm_State_setCycle ?_
    assumption

theorem calm_State_rackDrive {s t : State} {a1 : _} {a2 : _} {a3 : _} {a4 : _} {a5 : _} {a6 : _} (h : Calm s t) :
    Calm s (State.rackDrive t a1 a2 a3 a4 a5 a6) := by
  unfold State.rackDrive
  refine calm_State_setCycle ?_
  refine Calm.same (t := t) ?_ rfl rfl rfl
  assumption

theorem calm_State_rbFinish {s t : State} {a1 : _} {a2 : _} {a3 : _} (h : Calm s t) :
    Calm s (State.rbFinish t a1 a2 a3) := by
  unfold State.rbFinish
  refine calm_State_endLong ?_
  assumption

theorem calm_State_rackBlockStart {s t : State} {a1 : _} {a2 : _} (h : Calm s t) :
    Calm s (State.rackBlockStart t a1 a2) := by
  unfold State.rackBlockStart
  extract_lets +onlyGivenNames x1
  clear_value x1
  extract_lets +onlyGivenNames x2
  clear_value x2
  extract_lets +onlyGivenNames x3
  have hx3 : Calm s x3.2 := ?_
  · clear_value x3
    refine Calm.ite ?_ ?_
    · refine calm_State_rbFinish ?_
      assumption
    · refine calm_State_rackDrive ?_
      assumption
  · unfold x3
    refine CalmS.out ?_
    refine CalmS.ite ?_ ?_
    · refine ⟨?_⟩
      refine calm_State_readCheck ?_
      assumption
    · refine CalmS.pair ?_
      assumption

theorem calm_State_rackStart {s t : State} {a1 : _} {a2 : _} (h : Calm s t) :
    Calm s (State.rackStart t a1 a2) := by
  unfold State.rackStart
  split
  · refine calm_State_rackDrive ?_
    assumption
  · split
    · refine calm_State_rackBlockStart ?_
      assumption
    · assumption

theorem calm_State_rackPost {s t : State} {a1 : _} {a2 : _} {a3 : _} {a4 : _} (h : Calm s t) :
    Calm s (State.rackPost t a1 a2 a3 a4) := by
  unfold State.rackPost
  refine calm_State_setRackQueue ?_
  assumption

theorem calm_State_rackResult {s t : State} {a1 : _} {a2 : _} {a3 : _} (h : Calm s t) :
    Calm s (State.rackResult t a1 a2 a3) := by
  unfold State.rackResult
  split
  · assumption
  · refine Calm.ite ?_ ?_
    · assumption
    · extract_lets +onlyGivenNames x1
      clear_value x1
      extract_lets +onlyGivenNames x2
      clear_value x2
      extract_lets +onlyGivenNames x3
      clear_value x3
      refine Calm.same (t := t) ?_ rfl rfl rfl
      assumption

theorem calm_State_rackRelease {s t : State} (h : Calm s t) :
    Calm s (State.rackRelease t) := by
  unfold State.rackRelease
  refine calm_State_wr ?_
  refine Calm.same (t := t) ?_ rfl rfl rfl
  assumption

theorem calm_State_rackAccessFail {s t : State} {a1 : _} {a2 : _} {a3 : _} {a4 : _} (h : Calm s t) :
    Calm s (State.rackAccessFail t a1 a2 a3 a4) := by
  unfold State.rackAccessFail
  extract_lets +onlyGivenNames x1
  have hx1 : Calm s x1 := ?_
  · clear_value x1
    refine calm_State_raise ?_
    refine calm_State_satAdd ?_
    assumption
  · unfold x1
    refine Calm.ite ?_ ?_
    · assumption
    · refine calm_State_wr ?_
      refine calm_State_wr ?_
      refine calm_State_wr ?_
      refine calm_State_wr ?_
      refine calm_State_wr ?_
      assumption

theorem calm_State_rackLaneEnd {s t : State} {a1 : _} {a2 : _} (h : Calm s t) :
    Calm s (State.rackLaneEnd t a1 a2) := by
  unfold State.rackLaneEnd
  split
  · assumption
  · refine Calm.ite ?_ ?_
    · extract_lets +onlyGivenNames x1
      refine Calm.ite ?_ ?_
      · refine calm_State_rackResult ?_
        refine calm_State_setRackQueue ?_
        assumption
      · refine calm_State_setRackQueue ?_
        assumption
    · extract_lets +onlyGivenNames x2
      have hx2 : Calm s x2 := ?_
      · clear_value x2
        split
        · refine calm_State_rackPostedFail ?_
          assumption
        · refine calm_State_rackResult ?_
          refine calm_State_rackAccessFail ?_
          assumption
      · unfold x2
        refine calm_State_setRackQueue ?_
        assumption

theorem calm_State_rackBlockEnd {s t : State} {a1 : _} {a2 : _} {a3 : _} (h : Calm s t) :
    Calm s (State.rackBlockEnd t a1 a2 a3) := by
  unfold State.rackBlockEnd
  refine Calm.ite ?_ ?_
  · extract_lets +onlyGivenNames x1
    have hx1 : Calm s x1 := ?_
    · clear_value x1
      extract_lets +onlyGivenNames x2
      clear_value x2
      extract_lets +onlyGivenNames x3
      have hx3 : Calm s x3 := ?_
      · clear_value x3
        refine Calm.ite ?_ ?_
        · refine calm_State_rbFinish ?_
          assumption
        · assumption
      · unfold x3
        refine calm_State_setOut ?_
        assumption
    · unfold x1
      refine Calm.ite ?_ ?_
      · assumption
      · refine calm_State_busWrite ?_
        assumption
  · refine calm_State_rbFinish ?_
    assumption

theorem calm_State_rackEnd {s t : State} {a1 : _} {a2 : _} {a3 : _} (h : Calm s t) :
    Calm s (State.rackEnd t a1 a2 a3) := by
  unfold State.rackEnd
  extract_lets +onlyGivenNames x1
  have hx1 : Calm s x1 := ?_
  · clear_value x1
    extract_lets +onlyGivenNames x2
    have hx2 : Calm s x2 := ?_
    · clear_value x2
      split
      · refine calm_State_rackLaneEnd ?_
        assumption
      · split
        · refine calm_State_rackBlockEnd ?_
          assumption
        · assumption
    · unfold x2
      refine calm_State_setCycle ?_
      assumption
  · unfold x1
    refine Calm.ite ?_ ?_
    · refine calm_State_satAdd ?_
      assumption
    · assumption

theorem calm_State_rbSetupCheck {s t : State} (h : Calm s t) :
    Calm s (State.rbSetupCheck t).2 := by
  refine CalmS.out ?_
  unfold State.rbSetupCheck
  split
  · refine CalmS.pair ?_
    assumption
  · refine CalmS.pair ?_
    refine calm_State_raise ?_
    refine calm_State_wr ?_
    refine calm_State_wr ?_
    assumption

theorem calm_State_rackDrop {s t : State} (h : Calm s t) :
    Calm s (State.rackDrop t) := by
  unfold State.rackDrop
  extract_lets +onlyGivenNames x1
  clear_value x1
  extract_lets +onlyGivenNames x2
  clear_value x2
  refine Calm.foldl ?_ (fun u3 y4 hu3 => ?_)
  · assumption
  · refine Calm.ite ?_ ?_
    · refine calm_State_setRackQueue ?_
      assumption
    · assumption

theorem calm_State_rackPulse {s t : State} {a1 : _} {a2 : _} {a3 : _} (h : Calm s t) :
    Calm s (State.rackPulse t a1 a2 a3) := by
  unfold State.rackPulse
  extract_lets +onlyGivenNames x1
  have hx1 : Calm s x1 := ?_
  · clear_value x1
    refine calm_State_raise ?_
    refine calm_State_setCycle ?_
    assumption
  · unfold x1
    refine calm_State_wr ?_
    refine calm_State_satAdd ?_
    assumption

theorem calm_State_safeNotes {s t : State} (h : Calm s t) :
    Calm s (State.safeNotes t) := by
  unfold State.safeNotes
  extract_lets +onlyGivenNames x1
  have hx1 : Calm s x1 := ?_
  · clear_value x1
    refine Calm.foldl ?_ (fun u2 y3 hu2 => ?_)
    · assumption
    · refine calm_State_recNoteWrite ?_
      assumption
  · unfold x1
    refine calm_State_recNoteWrite ?_
    assumption

theorem calm_State_recordCause {s t : State} {a1 : _} {a2 : _} {a3 : _} (h : Calm s t) :
    Calm s (State.recordCause t a1 a2 a3) := by
  unfold State.recordCause
  refine Calm.ite ?_ ?_
  · refine calm_State_setReg ?_
    assumption
  · extract_lets +onlyGivenNames x1
    clear_value x1
    refine calm_State_wr ?_
    refine calm_State_wr ?_
    refine calm_State_wr ?_
    assumption

theorem calm_State_keepMeasured {s t : State} {a1 : _} (h : Calm s t) :
    Calm s (State.keepMeasured t a1) := by
  unfold State.keepMeasured
  refine Calm.foldl ?_ (fun u1 y2 hu1 => ?_)
  · assumption
  · refine calm_State_wr ?_
    assumption

theorem calm_State_netStop {s t : State} (h : Calm s t) :
    Calm s (State.netStop t) := by
  unfold State.netStop
  extract_lets +onlyGivenNames x1
  have hx1 : Calm s x1 := ?_
  · clear_value x1
    extract_lets +onlyGivenNames x2
    have hx2 : Calm s x2 := ?_
    · clear_value x2
      refine Calm.same (t := x2) ?_ rfl rfl rfl
      assumption
    · unfold x2
      refine calm_State_wr ?_
      refine calm_State_wr ?_
      assumption
  · unfold x1
    refine Calm.foldl ?_ (fun u3 y4 hu3 => ?_)
    · assumption
    · refine calm_State_wr ?_
      assumption

theorem calm_State_safeBlocks {s t : State} (h : Calm s t) :
    Calm s (State.safeBlocks t) := by
  unfold State.safeBlocks
  extract_lets +onlyGivenNames x1
  have hx1 : Calm s x1 := ?_
  · clear_value x1
    extract_lets +onlyGivenNames x2
    clear_value x2
    extract_lets +onlyGivenNames x3
    clear_value x3
    extract_lets +onlyGivenNames x4
    have hx4 : Calm s x4 := ?_
    · clear_value x4
      refine calm_State_safeNotes ?_
      refine calm_State_recFlush ?_
      assumption
    · unfold x4
      refine Calm.same (t := x1) ?_ rfl rfl rfl
      assumption
  · unfold x1
    refine calm_State_rackStop ?_
    refine calm_State_netStop ?_
    refine calm_State_fieldStop ?_
    assumption

theorem calm_State_enterSafe {s t : State} {a1 : _} (h : Calm s t) :
    Calm s (State.enterSafe t a1) := by
  unfold State.enterSafe
  refine Calm.ite ?_ ?_
  · assumption
  · extract_lets +onlyGivenNames x1
    have hx1 : Calm s x1 := ?_
    · clear_value x1
      extract_lets +onlyGivenNames x2
      clear_value x2
      extract_lets +onlyGivenNames x3
      have hx3 : Calm s x3 := ?_
      · clear_value x3
        extract_lets +onlyGivenNames x4
        have hx4 : Calm s x4 := ?_
        · clear_value x4
          extract_lets +onlyGivenNames x5
          have hx5 : Calm s x5 := ?_
          · clear_value x5
            refine Calm.off (t := x5) ?_ rfl rfl rfl
            assumption
          · unfold x5
            refine calm_State_safeBlocks ?_
            assumption
        · unfold x4
          refine calm_State_mpIrq ?_
          refine calm_State_raise ?_
          refine calm_State_flueShut ?_
          assumption
      · unfold x3
        refine Calm.same (t := x1) ?_ rfl rfl rfl
        assumption
    · unfold x1
      refine calm_State_wr ?_
      refine calm_State_wr ?_
      assumption

theorem calm_State_pairRecWrite {s t : State} {a1 : _} {a2 : _} (h : Calm s t) :
    Calm s (State.pairRecWrite t a1 a2) := by
  unfold State.pairRecWrite
  extract_lets +onlyGivenNames x1
  clear_value x1
  extract_lets +onlyGivenNames x2
  clear_value x2
  extract_lets +onlyGivenNames x3
  clear_value x3
  refine calm_State_setBytes ?_
  refine calm_State_wr64 ?_
  assumption

theorem calm_State_pairDiscard {s t : State} (h : Calm s t) :
    Calm s (State.pairDiscard t) := by
  unfold State.pairDiscard
  refine calm_State_pairPut ?_
  assumption

theorem calm_State_pairReset {s t : State} {a1 : _} (h : Calm s t) :
    Calm s (State.pairReset t a1) := by
  unfold State.pairReset
  refine calm_State_wr ?_
  refine calm_State_wr64 ?_
  assumption

theorem calm_State_pairSet {s t : State} {a1 : _} (h : Calm s t) :
    Calm s (State.pairSet t a1) := by
  unfold State.pairSet
  refine Calm.same (t := t) ?_ rfl rfl rfl
  assumption

theorem calm_State_pairPublished {s t : State} {a1 : _} (h : Calm s t) :
    Calm s (State.pairPublished t a1) := by
  unfold State.pairPublished
  refine Calm.ite ?_ ?_
  · assumption
  · refine calm_State_pairSet ?_
    assumption

theorem calm_State_setRole {s t : State} {a1 : _} {a2 : _} (h : Calm s t) :
    Calm s (State.setRole t a1 a2) := by
  unfold State.setRole
  extract_lets +onlyGivenNames x1
  clear_value x1
  extract_lets +onlyGivenNames x2
  have hx2 : Calm s x2 := ?_
  · clear_value x2
    refine Calm.ite ?_ ?_
    · assumption
    · refine calm_State_raise ?_
      assumption
  · unfold x2
    refine calm_State_wr ?_
    refine calm_State_wr ?_
    assumption

theorem calm_State_pairSend {s t : State} {a1 : _} (h : Calm s t) :
    Calm s (State.pairSend t a1) := by
  unfold State.pairSend
  refine Calm.ite ?_ ?_
  · refine calm_State_pairSet ?_
    assumption
  · assumption

theorem calm_State_mirrorRec {s t : State} {a1 : _} (h : Calm s t) :
    Calm s (State.mirrorRec t a1) := by
  unfold State.mirrorRec
  refine Calm.ite ?_ ?_
  · refine calm_State_pairPut ?_
    assumption
  · assumption

theorem calm_State_feedChange {s t : State} {a1 : _} {a2 : _} {a3 : _} (h : Calm s t) :
    Calm s (State.feedChange t a1 a2 a3) := by
  unfold State.feedChange
  extract_lets +onlyGivenNames x1
  have hx1 : Calm s x1 := ?_
  · clear_value x1
    extract_lets +onlyGivenNames x2
    have hx2 : Calm s x2 := ?_
    · clear_value x2
      refine Calm.ite ?_ ?_
      · assumption
      · extract_lets +onlyGivenNames x3
        have hx3 : Calm s x3 := ?_
        · clear_value x3
          refine calm_State_mpIrq ?_
          refine calm_State_raise ?_
          assumption
        · unfold x3
          refine calm_State_wr ?_
          assumption
    · unfold x2
      refine calm_State_wr ?_
      assumption
  · unfold x1
    refine calm_State_wr ?_
    refine calm_State_wr ?_
    assumption

theorem calm_State_setLiveStraps {s t : State} {a1 : _} (h : Calm s t) :
    Calm s (State.setLiveStraps t a1) := by
  unfold State.setLiveStraps
  refine calm_State_wr ?_
  refine calm_State_wr ?_
  refine calm_State_wr ?_
  assumption

theorem calm_lanePllLock {s t : State} (h : Calm s t) :
    Calm s (lanePllLock t) := by
  unfold lanePllLock
  refine Calm.ite ?_ ?_
  · refine calm_State_wr ?_
    assumption
  · assumption

theorem calm_execLanePllLock {s t : State} {u : State} (h : Calm s t)
    (e : execLanePllLock t = .next u) : Calm s u := by
  unfold execLanePllLock at e
  injection e with e
  subst e
  refine calm_lanePllLock ?_
  assumption

theorem calm_holdupLevelChange {s t : State} {a0 : _} (h : Calm s t) :
    Calm s (holdupLevelChange a0 t) := by
  unfold holdupLevelChange
  refine calm_State_wr ?_
  assumption

theorem calm_execHoldupLevelChange {s t : State} {a0 : _} {u : State} (h : Calm s t)
    (e : execHoldupLevelChange a0 t = .next u) : Calm s u := by
  unfold execHoldupLevelChange at e
  injection e with e
  subst e
  refine calm_holdupLevelChange ?_
  assumption

theorem calm_State_powerFail {s t : State} (h : Calm s t) :
    Calm s (State.powerFail t) := by
  unfold State.powerFail
  refine Calm.ite ?_ ?_
  · assumption
  · refine calm_State_recFlush ?_
    refine calm_State_raise ?_
    assumption

theorem calm_feedAbsent {s t : State} {a0 : _} {a1 : _} (h : Calm s t) :
    Calm s (feedAbsent a0 a1 t) := by
  unfold feedAbsent
  refine Calm.ite ?_ ?_
  · extract_lets +onlyGivenNames x1
    have hx1 : Calm s x1 := ?_
    · clear_value x1
      refine Calm.ite ?_ ?_
      · refine calm_State_powerFail ?_
        assumption
      · assumption
    · unfold x1
      refine calm_State_feedChange ?_
      assumption
  · assumption

theorem calm_execFeedAbsent {s t : State} {a0 : _} {a1 : _} {u : State} (h : Calm s t)
    (e : execFeedAbsent a0 a1 t = .next u) : Calm s u := by
  unfold execFeedAbsent at e
  injection e with e
  subst e
  refine calm_feedAbsent ?_
  assumption

theorem calm_State_strapEvent {s t : State} (h : Calm s t) :
    Calm s (State.strapEvent t) := by
  unfold State.strapEvent
  refine calm_State_raise ?_
  assumption

theorem calm_strapSample {s t : State} {a0 : _} (h : Calm s t) :
    Calm s (strapSample a0 t) := by
  unfold strapSample
  refine Calm.ite ?_ ?_
  · assumption
  · extract_lets +onlyGivenNames x1
    have hx1 : Calm s x1 := ?_
    · clear_value x1
      refine Calm.ite ?_ ?_
      · refine calm_State_mpIrq ?_
        refine calm_State_strapEvent ?_
        refine calm_State_wr ?_
        assumption
      · assumption
    · unfold x1
      refine calm_State_setLiveStraps ?_
      assumption

theorem calm_execStrapSample {s t : State} {a0 : _} {u : State} (h : Calm s t)
    (e : execStrapSample a0 t = .next u) : Calm s u := by
  unfold execStrapSample at e
  injection e with e
  subst e
  refine calm_strapSample ?_
  assumption

theorem calm_State_bootShow {s t : State} {a1 : _} (h : Calm s t) :
    Calm s (State.bootShow t a1) := by
  unfold State.bootShow
  extract_lets +onlyGivenNames x1
  have hx1 : Calm s x1 := ?_
  · clear_value x1
    split
    · assumption
    · refine calm_State_wr ?_
      refine calm_State_wr ?_
      refine calm_State_wr ?_
      refine calm_State_wr ?_
      assumption
  · unfold x1
    refine calm_State_wr ?_
    refine calm_State_wr ?_
    refine calm_State_wr ?_
    assumption

theorem calm_State_bootRecWrite {s t : State} {a1 : _} {a2 : _} {a3 : _} {a4 : _} (h : Calm s t) :
    Calm s (State.bootRecWrite t a1 a2 a3 a4) := by
  unfold State.bootRecWrite
  extract_lets +onlyGivenNames x1
  clear_value x1
  extract_lets +onlyGivenNames x2
  clear_value x2
  extract_lets +onlyGivenNames x3
  clear_value x3
  extract_lets +onlyGivenNames x4
  clear_value x4
  refine calm_State_setBytes ?_
  assumption

theorem calm_State_startMp {s t : State} {a1 : _} (h : Calm s t) :
    Calm s (State.startMp t a1) := by
  unfold State.startMp
  refine Calm.same (t := t) ?_ rfl rfl rfl
  assumption

theorem calm_State_copySram {s t : State} {a1 : _} (h : Calm s t) :
    Calm s (State.copySram t a1) := by
  unfold State.copySram
  extract_lets +onlyGivenNames x1
  clear_value x1
  refine Calm.same (t := t) ?_ rfl rfl rfl
  assumption

theorem calm_laneEccClr {s t : State} {a0 : _} {a1 : _} (h : Calm s t) :
    Calm s (laneEccClr a0 a1 t) := by
  unfold laneEccClr
  refine Calm.ite ?_ ?_
  · refine calm_State_wr ?_
    refine calm_State_wr ?_
    refine calm_State_wr ?_
    assumption
  · assumption

theorem calm_execLaneEccClr {s t : State} {a0 : _} {a1 : _} {u : State} (h : Calm s t)
    (e : execLaneEccClr a0 a1 t = .next u) : Calm s u := by
  unfold execLaneEccClr at e
  injection e with e
  subst e
  refine calm_State_arrive (fun u1 hu1 => ?_) ?_
  · refine calm_laneEccClr ?_
    assumption
  · assumption

theorem calm_flueClr {s t : State} {a0 : _} {a1 : _} (h : Calm s t) :
    Calm s (flueClr a0 a1 t) := by
  unfold flueClr
  extract_lets +onlyGivenNames x1
  have hx1 : Calm s x1 := ?_
  · clear_value x1
    refine Calm.ite ?_ ?_
    · refine calm_State_setReg ?_
      refine calm_State_setReg ?_
      refine calm_State_setReg ?_
      assumption
    · assumption
  · unfold x1
    refine Calm.ite ?_ ?_
    · refine calm_State_wr ?_
      assumption
    · assumption

theorem calm_execFlueClr {s t : State} {a0 : _} {a1 : _} {u : State} (h : Calm s t)
    (e : execFlueClr a0 a1 t = .next u) : Calm s u := by
  unfold execFlueClr at e
  injection e with e
  subst e
  refine calm_State_arrive (fun u1 hu1 => ?_) ?_
  · refine calm_flueClr ?_
    assumption
  · assumption

theorem calm_cordClr {s t : State} {a0 : _} {a1 : _} (h : Calm s t) :
    Calm s (cordClr a0 a1 t) := by
  unfold cordClr
  extract_lets +onlyGivenNames x1
  have hx1 : Calm s x1 := ?_
  · clear_value x1
    refine Calm.ite ?_ ?_
    · refine calm_State_wr ?_
      refine calm_State_wr ?_
      assumption
    · assumption
  · unfold x1
    refine Calm.ite ?_ ?_
    · refine calm_State_wr ?_
      refine calm_State_wr ?_
      refine calm_State_wr ?_
      assumption
    · assumption

theorem calm_safeStateEntry {s t : State} {a0 : _} (h : Calm s t) :
    Calm s (safeStateEntry a0 t) := by
  unfold safeStateEntry
  refine calm_State_enterSafe ?_
  assumption

theorem calm_execSafeStateEntry {s t : State} {a0 : _} {u : State} (h : Calm s t)
    (e : execSafeStateEntry a0 t = .next u) : Calm s u := by
  unfold execSafeStateEntry at e
  injection e with e
  subst e
  refine calm_safeStateEntry ?_
  assumption

theorem calm_laneSafe {s t : State} {a0 : _} {a1 : _} (h : Calm s t) :
    Calm s (laneSafe a0 a1 t) := by
  unfold laneSafe
  refine Calm.ite ?_ ?_
  · split
    · refine calm_State_enterSafe ?_
      assumption
    · refine calm_State_enterSafe ?_
      assumption
    · assumption
  · assumption

theorem calm_execLaneSafe {s t : State} {a0 : _} {a1 : _} {u : State} (h : Calm s t)
    (e : execLaneSafe a0 a1 t = .next u) : Calm s u := by
  unfold execLaneSafe at e
  injection e with e
  subst e
  refine calm_State_arrive (fun u1 hu1 => ?_) ?_
  · refine calm_laneSafe ?_
    assumption
  · assumption

theorem calm_execCordClr {s t : State} {a0 : _} {a1 : _} {u : State} (h : Calm s t)
    (e : execCordClr a0 a1 t = .next u) : Calm s u := by
  unfold execCordClr at e
  injection e with e
  subst e
  refine calm_State_arrive (fun u1 hu1 => ?_) ?_
  · refine calm_cordClr ?_
    assumption
  · assumption

theorem calm_ringHalted {s t : State} {a0 : _} (h : Calm s t) :
    Calm s (ringHalted a0 t) := by
  unfold ringHalted
  extract_lets +onlyGivenNames x1
  clear_value x1
  refine Calm.ite ?_ ?_
  · assumption
  · refine calm_State_raiseRing ?_
    refine calm_State_setCtx ?_
    assumption

theorem calm_State_watchAll {s t : State} (h : Calm s t) :
    Calm s (State.watchAll t) := by
  unfold State.watchAll
  refine Calm.foldl ?_ (fun u1 y2 hu1 => ?_)
  · assumption
  · refine calm_State_watch ?_
    assumption

theorem calm_ringCtxRead {s t : State} (h : Calm s t) :
    Calm s (ringCtxRead t) := by
  unfold ringCtxRead
  refine Calm.foldl ?_ (fun u1 y2 hu1 => ?_)
  · assumption
  · refine calm_State_setReg ?_
    assumption

theorem calm_handleQuery {s t : State} {a0 : _} (h : Calm s t) :
    Calm s (handleQuery a0 t) := by
  unfold handleQuery
  refine calm_State_doUnit (fun _ u1 hu1 => ?_) ?_
  · refine calm_runHandleQuery ?_
    assumption
  · assumption

theorem calm_execHandleQuery {s t : State} {a0 : _} {u : State} (h : Calm s t)
    (e : execHandleQuery a0 t = .next u) : Calm s u := by
  unfold execHandleQuery at e
  injection e with e
  subst e
  refine calm_handleQuery ?_
  assumption

theorem calm_execRingHalted {s t : State} {a0 : _} {u : State} (h : Calm s t)
    (e : execRingHalted a0 t = .next u) : Calm s u := by
  unfold execRingHalted at e
  injection e with e
  subst e
  refine calm_ringHalted ?_
  assumption

theorem calm_State_ringSetupCheck {s t : State} (h : Calm s t) :
    Calm s (State.ringSetupCheck t).2 := by
  refine CalmS.out ?_
  unfold State.ringSetupCheck
  split
  · refine CalmS.pair ?_
    assumption
  · refine CalmS.pair ?_
    refine calm_State_raise ?_
    refine calm_State_wr ?_
    refine calm_State_wr ?_
    refine calm_State_wr ?_
    assumption

theorem calm_nop {s t : State} {a0 : _} (h : Calm s t) :
    Calm s (nop a0 t) := by
  unfold nop
  refine calm_State_doUnit (fun _ u1 hu1 => ?_) ?_
  · refine calm_runNop ?_
    assumption
  · assumption

theorem calm_execRingCtxRead {s t : State} {u : State} (h : Calm s t)
    (e : execRingCtxRead t = .next u) : Calm s u := by
  unfold execRingCtxRead at e
  injection e with e
  subst e
  refine calm_ringCtxRead ?_
  assumption

theorem calm_ringCtxWrite {s t : State} (h : Calm s t) :
    Calm s (ringCtxWrite t) := by
  unfold ringCtxWrite
  refine Calm.ite ?_ ?_
  · refine calm_State_wr ?_
    assumption
  · extract_lets +onlyGivenNames x1
    clear_value x1
    extract_lets +onlyGivenNames x2
    clear_value x2
    extract_lets +onlyGivenNames x3
    have hx3 : Calm s x3 := ?_
    · clear_value x3
      extract_lets +onlyGivenNames x4
      clear_value x4
      extract_lets +onlyGivenNames x5
      have hx5 : Calm s x5 := ?_
      · clear_value x5
        refine Calm.ite ?_ ?_
        · refine calm_State_busWrite ?_
          assumption
        · assumption
      · unfold x5
        refine Calm.same (t := x3) ?_ rfl rfl rfl
        assumption
    · unfold x3
      refine calm_State_setCtx ?_
      assumption

theorem calm_execRingCtxWrite {s t : State} {u : State} (h : Calm s t)
    (e : execRingCtxWrite t = .next u) : Calm s u := by
  unfold execRingCtxWrite at e
  injection e with e
  subst e
  refine calm_ringCtxWrite ?_
  assumption

theorem calm_execNop {s t : State} {a0 : _} {u : State} (h : Calm s t)
    (e : execNop a0 t = .next u) : Calm s u := by
  unfold execNop at e
  injection e with e
  subst e
  refine calm_nop ?_
  assumption

theorem calm_State_ownerReset {s t : State} {a1 : _} {a2 : _} (h : Calm s t) :
    Calm s (State.ownerReset t a1 a2) := by
  unfold State.ownerReset
  extract_lets +onlyGivenNames x1
  clear_value x1
  extract_lets +onlyGivenNames x2
  clear_value x2
  refine Calm.ite ?_ ?_
  · assumption
  · refine calm_State_raise ?_
    refine Calm.same (t := t) ?_ rfl rfl rfl
    assumption

theorem calm_partAbandon {s t : State} {a0 : _} {a1 : _} (h : Calm s t) :
    Calm s (partAbandon a0 a1 t) := by
  unfold partAbandon
  refine Calm.ite ?_ ?_
  · refine calm_State_ownerReset ?_
    assumption
  · assumption

theorem calm_partMonClr {s t : State} {a0 : _} {a1 : _} (h : Calm s t) :
    Calm s (partMonClr a0 a1 t) := by
  unfold partMonClr
  refine Calm.ite ?_ ?_
  · refine Calm.same (t := t) ?_ rfl rfl rfl
    assumption
  · assumption

theorem calm_State_partSetupCheck {s t : State} (h : Calm s t) :
    Calm s (State.partSetupCheck t).2 := by
  refine CalmS.out ?_
  unfold State.partSetupCheck
  split
  · refine CalmS.pair ?_
    refine calm_State_raise ?_
    refine calm_State_wr ?_
    refine calm_State_wr ?_
    refine calm_State_wr ?_
    assumption
  · split
    · refine CalmS.pair ?_
      refine calm_State_raise ?_
      refine calm_State_wr ?_
      refine calm_State_wr ?_
      refine calm_State_wr ?_
      assumption
    · refine CalmS.pair ?_
      assumption

theorem calm_execPartAbandon {s t : State} {a0 : _} {a1 : _} {u : State} (h : Calm s t)
    (e : execPartAbandon a0 a1 t = .next u) : Calm s u := by
  unfold execPartAbandon at e
  injection e with e
  subst e
  refine calm_State_arrive (fun u1 hu1 => ?_) ?_
  · refine calm_partAbandon ?_
    assumption
  · assumption

theorem calm_State_setLock {s t : State} {a1 : _} {a2 : _} (h : Calm s t) :
    Calm s (State.setLock t a1 a2) := by
  unfold State.setLock
  refine Calm.same (t := t) ?_ rfl rfl rfl
  assumption

theorem calm_State_lockError {s t : State} {a1 : _} {a2 : _} {a3 : _} (h : Calm s t) :
    Calm s (State.lockError t a1 a2 a3) := by
  unfold State.lockError
  extract_lets +onlyGivenNames x1
  have hx1 : Calm s x1 := ?_
  · clear_value x1
    refine calm_State_raise ?_
    assumption
  · unfold x1
    refine Calm.ite ?_ ?_
    · assumption
    · refine calm_State_wr ?_
      refine calm_State_wr ?_
      refine calm_State_wr ?_
      refine calm_State_wr ?_
      assumption

theorem calm_State_lockRead {s t : State} {a1 : _} {a2 : _} (h : Calm s t) :
    Calm s (State.lockRead t a1 a2).2 := by
  refine CalmS.out ?_
  unfold State.lockRead
  extract_lets +onlyGivenNames x1
  clear_value x1
  extract_lets +onlyGivenNames x2
  clear_value x2
  refine CalmS.ite ?_ ?_
  · refine CalmS.pair ?_
    refine calm_State_lockError ?_
    assumption
  · split
    · refine CalmS.pair ?_
      assumption
    · refine CalmS.pair ?_
      refine calm_State_setLock ?_
      assumption
    · refine CalmS.pair ?_
      refine calm_State_setLock ?_
      assumption

theorem calm_lockAcquire {s t : State} {a0 : _} {a1 : _} (h : Calm s t) :
    Calm s (lockAcquire a0 a1 t) := by
  unfold lockAcquire
  extract_lets +onlyGivenNames x1
  have hx1 : Calm s x1.2 := ?_
  · clear_value x1
    extract_lets +onlyGivenNames x2
    have hx2 : Calm s x2 := ?_
    · clear_value x2
      refine Calm.same (t := x2) ?_ rfl rfl rfl
      assumption
    · unfold x2
      assumption
  · unfold x1
    refine calm_State_lockRead ?_
    assumption

theorem calm_lockRelease {s t : State} {a0 : _} {a1 : _} {a2 : _} (h : Calm s t) :
    Calm s (lockRelease a0 a1 a2 t) := by
  unfold lockRelease
  refine Calm.ite ?_ ?_
  · assumption
  · refine Calm.ite ?_ ?_
    · refine calm_State_setLock ?_
      assumption
    · refine calm_State_lockError ?_
      assumption

theorem calm_execLockRelease {s t : State} {a0 : _} {a1 : _} {a2 : _} {u : State} (h : Calm s t)
    (e : execLockRelease a0 a1 a2 t = .next u) : Calm s u := by
  unfold execLockRelease at e
  injection e with e
  subst e
  refine calm_State_arrive (fun u1 hu1 => ?_) ?_
  · refine calm_lockRelease ?_
    assumption
  · assumption

theorem calm_execPartMonClr {s t : State} {a0 : _} {a1 : _} {u : State} (h : Calm s t)
    (e : execPartMonClr a0 a1 t = .next u) : Calm s u := by
  unfold execPartMonClr at e
  injection e with e
  subst e
  refine calm_State_arrive (fun u1 hu1 => ?_) ?_
  · refine calm_partMonClr ?_
    assumption
  · assumption

theorem calm_execLockAcquire {s t : State} {a0 : _} {a1 : _} {u : State} (h : Calm s t)
    (e : execLockAcquire a0 a1 t = .next u) : Calm s u := by
  unfold execLockAcquire at e
  injection e with e
  subst e
  refine calm_lockAcquire ?_
  assumption

theorem calm_State_ptoSet {s t : State} {a1 : _} {a2 : _} {a3 : _} (h : Calm s t) :
    Calm s (State.ptoSet t a1 a2 a3) := by
  unfold State.ptoSet
  refine calm_State_wr64 ?_
  refine calm_State_wr ?_
  assumption

theorem calm_State_tbRefuse {s t : State} {a1 : _} {a2 : _} (h : Calm s t) :
    Calm s (State.tbRefuse t a1 a2) := by
  unfold State.tbRefuse
  refine calm_State_raise ?_
  refine calm_State_wr ?_
  refine calm_State_wr ?_
  assumption

theorem calm_State_tbStage {s t : State} {a1 : _} {a2 : _} {a3 : _} (h : Calm s t) :
    Calm s (State.tbStage t a1 a2 a3) := by
  unfold State.tbStage
  refine Calm.ite ?_ ?_
  · refine calm_State_setReg ?_
    assumption
  · refine calm_State_tbRefuse ?_
    assumption

theorem calm_State_tbSetupCheck {s t : State} (h : Calm s t) :
    Calm s (State.tbSetupCheck t).2 := by
  refine CalmS.out ?_
  unfold State.tbSetupCheck
  split
  · refine CalmS.pair ?_
    assumption
  · refine CalmS.pair ?_
    refine calm_State_raise ?_
    refine calm_State_wr ?_
    refine calm_State_wr ?_
    assumption

theorem calm_tbPllLost {s t : State} (h : Calm s t) :
    Calm s (tbPllLost t) := by
  unfold tbPllLost
  refine Calm.ite ?_ ?_
  · refine calm_State_enterSafe ?_
    refine calm_State_raise ?_
    refine calm_State_wr ?_
    assumption
  · refine Calm.ite ?_ ?_
    · refine calm_State_raise ?_
      refine calm_State_wr ?_
      assumption
    · assumption

theorem calm_execTbPllLost {s t : State} {u : State} (h : Calm s t)
    (e : execTbPllLost t = .next u) : Calm s u := by
  unfold execTbPllLost at e
  injection e with e
  subst e
  refine calm_tbPllLost ?_
  assumption

theorem calm_ptoPulseEnd {s t : State} {a0 : _} (h : Calm s t) :
    Calm s (ptoPulseEnd a0 t) := by
  unfold ptoPulseEnd
  refine Calm.ite ?_ ?_
  · refine calm_State_wr ?_
    assumption
  · assumption

theorem calm_execPtoPulseEnd {s t : State} {a0 : _} {u : State} (h : Calm s t)
    (e : execPtoPulseEnd a0 t = .next u) : Calm s u := by
  unfold execPtoPulseEnd at e
  injection e with e
  subst e
  refine calm_ptoPulseEnd ?_
  assumption

theorem calm_State_queuePass {s t : State} {a1 : _} {a2 : _} (h : Calm s t) :
    Calm s (State.queuePass t a1 a2) := by
  unfold State.queuePass
  extract_lets +onlyGivenNames x1
  clear_value x1
  extract_lets +onlyGivenNames x2
  clear_value x2
  refine Calm.same (t := t) ?_ rfl rfl rfl
  assumption

theorem calm_State_setDs {s t : State} {a1 : _} {a2 : _} {a3 : _} {a4 : _} {a5 : _} {a6 : _} (h : Calm s t) :
    Calm s (State.setDs t a1 a2 a3 a4 a5 a6) := by
  unfold State.setDs
  extract_lets +onlyGivenNames x1
  clear_value x1
  refine calm_State_busWrite ?_
  assumption

theorem calm_State_dropGen {s t : State} {a1 : _} {a2 : _} (h : Calm s t) :
    Calm s (State.dropGen t a1 a2) := by
  unfold State.dropGen
  refine calm_State_satAdd ?_
  refine calm_State_setDs ?_
  assumption

theorem calm_State_watchEnd {s t : State} {a1 : _} (h : Calm s t) :
    Calm s (State.watchEnd t a1) := by
  unfold State.watchEnd
  refine Calm.foldl ?_ (fun u1 y2 hu1 => ?_)
  · assumption
  · refine Calm.ite ?_ ?_
    · refine calm_State_endLong ?_
      assumption
    · assumption

theorem calm_State_gwPend {s t : State} {a1 : _} {a2 : _} (h : Calm s t) :
    Calm s (State.gwPend t a1 a2) := by
  unfold State.gwPend
  extract_lets +onlyGivenNames x1
  clear_value x1
  refine calm_State_busWrite ?_
  assumption

theorem calm_State_gwTrigger {s t : State} {a1 : _} (h : Calm s t) :
    Calm s (State.gwTrigger t a1) := by
  unfold State.gwTrigger
  refine Calm.ite ?_ ?_
  · assumption
  · refine Calm.foldl ?_ (fun u1 y2 hu1 => ?_)
    · assumption
    · refine Calm.ite ?_ ?_
      · extract_lets +onlyGivenNames x3
        have hx3 : Calm s x3 := ?_
        · clear_value x3
          refine Calm.same (t := x3) ?_ rfl rfl rfl
          assumption
        · unfold x3
          refine calm_State_gwPend ?_
          assumption
      · assumption

theorem calm_State_publish {s t : State} {a1 : _} {a2 : _} {a3 : _} (h : Calm s t) :
    Calm s (State.publish t a1 a2 a3) := by
  unfold State.publish
  split
  · refine calm_State_dropGen ?_
    assumption
  · extract_lets +onlyGivenNames x1
    have hx1 : Calm s x1 := ?_
    · clear_value x1
      extract_lets +onlyGivenNames x2
      have hx2 : Calm s x2 := ?_
      · clear_value x2
        extract_lets +onlyGivenNames x3
        have hx3 : Calm s x3 := ?_
        · clear_value x3
          extract_lets +onlyGivenNames x4
          have hx4 : Calm s x4 := ?_
          · clear_value x4
            refine calm_State_pairPublished ?_
            refine calm_State_watchEnd ?_
            refine calm_State_gwTrigger ?_
            assumption
          · unfold x4
            refine Calm.ite ?_ ?_
            · refine calm_State_queuePass ?_
              assumption
            · assumption
        · unfold x3
          refine calm_State_busWrite ?_
          assumption
      · unfold x2
        refine calm_State_setDs ?_
        refine calm_State_setDs ?_
        assumption
    · unfold x1
      refine calm_State_busWrite ?_
      assumption

theorem calm_State_unstale {s t : State} {a1 : _} (h : Calm s t) :
    Calm s (State.unstale t a1) := by
  unfold State.unstale
  refine Calm.ite ?_ ?_
  · refine calm_State_watchEnd ?_
    refine calm_State_setDs ?_
    assumption
  · assumption

theorem calm_State_putSlot {s t : State} {a1 : _} {a2 : _} (h : Calm s t) :
    Calm s (State.putSlot t a1 a2) := by
  unfold State.putSlot
  refine calm_State_busWrite ?_
  assumption

theorem calm_State_slotGen {s t : State} {a1 : _} {a2 : _} {a3 : _} {a4 : _} (h : Calm s t) :
    Calm s (State.slotGen t a1 a2 a3 a4) := by
  unfold State.slotGen
  extract_lets +onlyGivenNames x1
  clear_value x1
  extract_lets +onlyGivenNames x2
  clear_value x2
  refine calm_State_putSlot ?_
  assumption

theorem calm_State_forceNotice {s t : State} {a1 : _} (h : Calm s t) :
    Calm s (State.forceNotice t a1) := by
  unfold State.forceNotice
  refine Calm.ite ?_ ?_
  · refine calm_State_raise ?_
    refine calm_State_wr ?_
    assumption
  · refine Calm.ite ?_ ?_
    · refine calm_State_raise ?_
      refine calm_State_wr ?_
      assumption
    · assumption

theorem calm_State_packValue {s t : State} {a1 : _} {a2 : _} (h : Calm s t) :
    Calm s (State.packValue t a1 a2).2.2 := by
  refine CalmS2.out ?_
  unfold State.packValue
  split
  · extract_lets +onlyGivenNames x1
    clear_value x1
    refine CalmS2.pair ?_
    assumption
  · refine CalmS2.pair ?_
    assumption
  · split
    · extract_lets +onlyGivenNames x2
      have hx2 : Calm s x2.2 := ?_
      · clear_value x2
        refine CalmS2.pair ?_
        assumption
      · unfold x2
        refine calm_State_draw ?_
        assumption
    · extract_lets +onlyGivenNames x3
      clear_value x3
      refine CalmS2.pair ?_
      assumption
    · refine CalmS2.pair ?_
      assumption
  · refine CalmS2.pair ?_
    assumption
  · extract_lets +onlyGivenNames x4
    clear_value x4
    refine CalmS2.pair ?_
    assumption

theorem calm_State_doPass {s t : State} {a1 : _} (h : Calm s t) :
    Calm s (State.doPass t a1) := by
  unfold State.doPass
  extract_lets +onlyGivenNames x1
  clear_value x1
  extract_lets +onlyGivenNames x2
  clear_value x2
  extract_lets +onlyGivenNames x3
  have hx3 : Calm s x3.2 := ?_
  · clear_value x3
    extract_lets +onlyGivenNames x4
    have hx4 : Calm s x4 := ?_
    · clear_value x4
      refine Calm.ite ?_ ?_
      · assumption
      · split
        · extract_lets +onlyGivenNames x5
          have hx5 : Calm s x5.2 := ?_
          · clear_value x5
            refine Calm.ite ?_ ?_
            · assumption
            · extract_lets +onlyGivenNames x6
              have hx6 : Calm s x6 := ?_
              · clear_value x6
                extract_lets +onlyGivenNames x7
                clear_value x7
                extract_lets +onlyGivenNames x8
                clear_value x8
                extract_lets +onlyGivenNames x9
                clear_value x9
                extract_lets +onlyGivenNames x10
                have hx10 : Calm s x10 := ?_
                · clear_value x10
                  refine calm_State_unstale ?_
                  refine calm_State_setDs ?_
                  refine calm_State_setDs ?_
                  assumption
                · unfold x10
                  refine Calm.foldl ?_ (fun u11 y12 hu11 => ?_)
                  · assumption
                  · refine calm_State_slotGen ?_
                    assumption
              · unfold x6
                assumption
          · unfold x5
            refine calm_State_readCheck ?_
            assumption
        · extract_lets +onlyGivenNames x13
          have hx13 : Calm s x13.2 := ?_
          · clear_value x13
            extract_lets +onlyGivenNames x14
            have hx14 : Calm s x14 := ?_
            · clear_value x14
              refine Calm.ite ?_ ?_
              · extract_lets +onlyGivenNames x15
                clear_value x15
                extract_lets +onlyGivenNames x16
                clear_value x16
                refine Calm.foldl ?_ (fun u17 y18 hu17 => ?_)
                · assumption
                · extract_lets +onlyGivenNames x19
                  clear_value x19
                  extract_lets +onlyGivenNames x20
                  clear_value x20
                  extract_lets +onlyGivenNames x21
                  clear_value x21
                  refine calm_State_putSlot ?_
                  assumption
              · refine Calm.foldl ?_ (fun u22 y23 hu22 => ?_)
                · assumption
                · refine calm_State_putSlot ?_
                  assumption
            · unfold x14
              assumption
          · unfold x13
            refine CalmS.out ?_
            refine CalmS.ite ?_ ?_
            · refine ⟨?_⟩
              refine calm_State_readCheck ?_
              assumption
            · refine CalmS.pair ?_
              assumption
        · extract_lets +onlyGivenNames x24
          have hx24 : Calm s x24 := ?_
          · clear_value x24
            refine calm_State_setDs ?_
            assumption
          · unfold x24
            refine Calm.foldl ?_ (fun u25 y26 hu25 => ?_)
            · assumption
            · refine calm_State_putSlot ?_
              assumption
    · unfold x4
      assumption
  · unfold x3
    refine calm_State_checkAll ?_
    assumption

theorem calm_State_publishBytes {s t : State} {a1 : _} {a2 : _} (h : Calm s t) :
    Calm s (State.publishBytes t a1 a2) := by
  unfold State.publishBytes
  extract_lets +onlyGivenNames x1
  clear_value x1
  extract_lets +onlyGivenNames x2
  clear_value x2
  extract_lets +onlyGivenNames x3
  have hx3 : Calm s x3 := ?_
  · clear_value x3
    refine calm_State_unstale ?_
    refine calm_State_publish ?_
    assumption
  · unfold x3
    refine Calm.foldl ?_ (fun u4 y5 hu4 => ?_)
    · assumption
    · refine calm_State_slotGen ?_
      assumption

theorem calm_State_packSlot {s : State} {x : List Byte × Nat × State} {p : Nat × DWord} (h : Calm s x.2.2) :
    Calm s (State.packSlot x p).2.2 := by
  unfold State.packSlot
  exact calm_State_packValue h

theorem calm_State_publishBuilt {s t : State} {a1 : _} {a2 : _} (h : Calm s t) : Calm s (State.publishBuilt t a1 a2) := by
  unfold State.publishBuilt
  extract_lets +onlyGivenNames chk
  have h1 : Calm s chk.2 := calm_State_checkAll h
  clear_value chk
  split
  · exact h1
  split
  · exact calm_State_dropGen h1
  · exact calm_State_publishBytes (Calm.foldl_snd2 h1 (fun _ _ hu => calm_State_packSlot hu))

theorem calm_State_publishValues {s t : State} {a1 : _} {a2 : _} {a3 : _} (h : Calm s t) :
    Calm s (State.publishValues t a1 a2 a3).2 := by
  unfold State.publishValues
  extract_lets +onlyGivenNames chk
  have h1 : Calm s chk.2 := calm_State_checkAll h
  clear_value chk
  split
  · exact h1
  split
  · exact calm_State_dropGen h1
  · exact calm_State_publishBytes (Calm.foldl_snd2 h1 (fun _ _ hu => calm_State_packSlot hu))

theorem calm_State_runPass {s t : State} {a1 : _} (h : Calm s t) :
    Calm s (State.runPass t a1) := by
  unfold State.runPass
  extract_lets +onlyGivenNames x1
  clear_value x1
  extract_lets +onlyGivenNames x2
  have hx2 : Calm s x2 := ?_
  · clear_value x2
    refine calm_State_peak ?_
    refine calm_State_doPass ?_
    assumption
  · unfold x2
    refine Calm.same (t := t) ?_ rfl rfl rfl
    assumption

theorem calm_State_sigStart {s t : State} {a1 : _} {a2 : Cmd → State → State}
    (hf : ∀ c u, Calm s u → Calm s (a2 c u)) (h : Calm s t) : Calm s (State.sigStart t a1 a2) := by
  unfold State.sigStart
  split
  · exact h
  split
  · exact hf _ _ h
  · exact h

theorem calm_State_snapOpen {s t : State} {a1 : _} (h : Calm s t) :
    Calm s (State.snapOpen t a1).2.2 := by
  refine CalmS2.out ?_
  unfold State.snapOpen
  extract_lets +onlyGivenNames x1
  clear_value x1
  extract_lets +onlyGivenNames x2
  clear_value x2
  extract_lets +onlyGivenNames x3
  clear_value x3
  extract_lets +onlyGivenNames x4
  clear_value x4
  extract_lets +onlyGivenNames x5
  clear_value x5
  extract_lets +onlyGivenNames x6
  clear_value x6
  extract_lets +onlyGivenNames x7
  clear_value x7
  refine CalmS2.ite ?_ ?_
  · refine CalmS2.pair ?_
    assumption
  · refine CalmS2.ite ?_ ?_
    · refine CalmS2.ite ?_ ?_
      · refine CalmS2.pair ?_
        assumption
      · extract_lets +onlyGivenNames x8
        have hx8 : Calm s x8.2 := ?_
        · clear_value x8
          extract_lets +onlyGivenNames x9
          clear_value x9
          refine CalmS2.ite ?_ ?_
          · refine CalmS2.pair ?_
            assumption
          · refine CalmS2.ite ?_ ?_
            · refine CalmS2.pair ?_
              assumption
            · refine CalmS2.ite ?_ ?_
              · refine CalmS2.pair ?_
                assumption
              · refine CalmS2.pair ?_
                assumption
        · unfold x8
          refine calm_State_checkAll ?_
          assumption
    · refine CalmS2.ite ?_ ?_
      · refine CalmS2.pair ?_
        assumption
      · extract_lets +onlyGivenNames x10
        have hx10 : Calm s x10.2 := ?_
        · clear_value x10
          refine CalmS2.ite ?_ ?_
          · refine CalmS2.pair ?_
            assumption
          · refine CalmS2.pair ?_
            assumption
        · unfold x10
          refine calm_State_readCheck ?_
          assumption

theorem calm_State_reindexOne {s t : State} {a1 : _} (h : Calm s t) :
    Calm s (State.reindexOne t a1) := by
  unfold State.reindexOne
  extract_lets +onlyGivenNames x1
  clear_value x1
  extract_lets +onlyGivenNames x2
  have hx2 : Calm s x2 := ?_
  · clear_value x2
    refine Calm.ite ?_ ?_
    · extract_lets +onlyGivenNames x3
      have hx3 : Calm s x3 := ?_
      · clear_value x3
        refine calm_State_watchEnd ?_
        refine calm_State_queuePass ?_
        refine calm_State_setDs ?_
        assumption
      · unfold x3
        refine calm_State_setDs ?_
        refine calm_State_setDs ?_
        refine calm_State_setDs ?_
        assumption
    · assumption
  · unfold x2
    refine calm_State_setDs ?_
    assumption

theorem calm_sigReindexSwitch {s t : State} (h : Calm s t) :
    Calm s (sigReindexSwitch t) := by
  unfold sigReindexSwitch
  refine Calm.ite ?_ ?_
  · assumption
  · split
    · assumption
    · extract_lets +onlyGivenNames x1
      clear_value x1
      refine Calm.ite ?_ ?_
      · assumption
      · refine Calm.ite ?_ ?_
        · refine calm_State_endLong ?_
          assumption
        · refine calm_State_endLong ?_
          refine Calm.foldl ?_ (fun u2 y3 hu2 => ?_)
          · refine calm_State_spend ?_
            assumption
          · refine calm_State_reindexOne ?_
            assumption

theorem calm_State_freeOut {s t : State} {a1 : _} (h : Calm s t) :
    Calm s (State.freeOut t a1) := by
  unfold State.freeOut
  extract_lets +onlyGivenNames x1
  have hx1 : Calm s x1.2 := ?_
  · clear_value x1
    refine calm_State_busWrite ?_
    assumption
  · unfold x1
    refine calm_State_freeBytes ?_
    assumption

theorem calm_State_snapOne {s t : State} {a1 : _} {a2 : _} {a3 : _} {a4 : _} {a5 : _} (h : Calm s t) :
    Calm s (State.snapOne t a1 a2 a3 a4 a5).2 := by
  refine CalmS.out ?_
  unfold State.snapOne
  extract_lets +onlyGivenNames x1
  clear_value x1
  extract_lets +onlyGivenNames x2
  have hx2 : Calm s x2 := ?_
  · clear_value x2
    extract_lets +onlyGivenNames x3
    clear_value x3
    refine CalmS.pair ?_
    assumption
  · unfold x2
    refine Calm.ite ?_ ?_
    · refine calm_State_busWrite ?_
      assumption
    · refine calm_State_busWrite ?_
      assumption

theorem calm_State_snapList {s t : State} {a1 : _} {a2 : _} {a3 : _} {a4 : _} (h : Calm s t) :
    Calm s (State.snapList t a1 a2 a3 a4).2 := by
  induction a3 generalizing t a1 a2 a4
  · unfold State.snapList
    dsimp -zeta only
    assumption
  · rename_i ih
    unfold State.snapList
    refine CalmS.out ?_
    extract_lets +onlyGivenNames x7
    have hx7 : Calm s x7.2 := ?_
    · clear_value x7
      refine ⟨?_⟩
      apply ih
      assumption
    · unfold x7
      refine calm_State_snapOne ?_
      assumption

theorem calm_State_readGroup {s t : State} {a1 : _} {a2 : _} (h : Calm s t) :
    Calm s (State.readGroup t a1 a2).2.2 := by
  refine CalmS2.out ?_
  unfold State.readGroup
  extract_lets +onlyGivenNames x1
  have hx1 : Calm s x1.2 := ?_
  · clear_value x1
    refine CalmS2.ite ?_ ?_
    · refine CalmS2.pair ?_
      assumption
    · split
      · refine CalmS2.pair ?_
        refine calm_State_freeOut ?_
        assumption
      · extract_lets +onlyGivenNames x2
        have hx2 : Calm s x2.2 := ?_
        · clear_value x2
          extract_lets +onlyGivenNames x3
          clear_value x3
          refine CalmS2.pair ?_
          assumption
        · unfold x2
          refine calm_State_snapList ?_
          assumption
  · unfold x1
    refine calm_State_checkAll ?_
    assumption

theorem calm_State_snapGo {s t : State} {a1 : _} {a2 : _} (h : Calm s t) :
    Calm s (State.snapGo t a1 a2).2.2 := by
  induction a2 generalizing t a1
  · unfold State.snapGo
    dsimp -zeta only
    assumption
  · rename_i ih
    unfold State.snapGo
    refine CalmS2.out ?_
    refine CalmS2.ite ?_ ?_
    · refine CalmS2.pair ?_
      assumption
    · extract_lets +onlyGivenNames x1
      have hx1 : Calm s x1.2.2 := ?_
      · clear_value x1
        split
        · refine CalmS2.pair ?_
          assumption
        · refine ⟨?_⟩
          apply ih
          refine calm_State_spend ?_
          assumption
      · unfold x1
        refine calm_State_readGroup ?_
        assumption

theorem calm_State_sigEnd {s t : State} {a1 : _} {a2 : _} {a3 : _} (h : Calm s t) :
    Calm s (State.sigEnd t a1 a2 a3) := by
  unfold State.sigEnd
  refine Calm.ite ?_ ?_
  · refine calm_State_endLong ?_
    assumption
  · refine Calm.ite ?_ ?_
    · refine calm_State_finish ?_
      assumption
    · refine calm_State_advance ?_
      refine calm_State_complete ?_
      assumption

end Machine
end Sys2Proof
end

