-- ==== Sys2Proof/Laws/Calm03.lean ====
section
/-!
SUPPORT. Calm: the operations of Signal, Gateway, CarOps, FieldOps.
-/

set_option Elab.async false

namespace Sys2Proof
namespace Machine

theorem calm_State_sigLater {s t : State} {a1 : _} (h : Calm s t) :
    Calm s (State.sigLater t a1) := by
  unfold State.sigLater
  refine Calm.ite ?_ ?_
  · refine calm_State_dropHand ?_
    assumption
  · assumption

theorem calm_State_snapKeep {s t : State} {a1 : _} (h : Calm s t) :
    Calm s (State.snapKeep t a1) := by
  unfold State.snapKeep
  refine Calm.same (t := t) ?_ rfl rfl rfl
  assumption

theorem calm_State_snapCmd {s t : State} {a1 : _} {a2 : _} {a3 : _} (h : Calm s t) :
    Calm s (State.snapCmd t a1 a2 a3) := by
  unfold State.snapCmd
  extract_lets +onlyGivenNames x1
  have hx1 : Calm s x1.2.2 := ?_
  · clear_value x1
    split
    · refine calm_State_sigEnd ?_
      assumption
    · refine calm_State_sigLater ?_
      refine calm_State_snapKeep ?_
      assumption
  · unfold x1
    refine calm_State_snapGo ?_
    assumption

theorem calm_sigSnapshot {s t : State} (h : Calm s t) :
    Calm s (sigSnapshot t) := by
  unfold sigSnapshot
  refine Calm.ite ?_ ?_
  · assumption
  · refine calm_State_sigStart (fun _ u1 hu1 => ?_) ?_
    · extract_lets +onlyGivenNames x2
      have hx2 : Calm s x2.2.2 := ?_
      · clear_value x2
        split
        · refine calm_State_finish ?_
          assumption
        · refine calm_State_snapCmd ?_
          assumption
      · unfold x2
        refine calm_State_snapOpen ?_
        refine calm_State_spend ?_
        assumption
    · assumption

theorem calm_execSigSnapshot {s t : State} {u : State} (h : Calm s t)
    (e : execSigSnapshot t = .next u) : Calm s u := by
  unfold execSigSnapshot at e
  injection e with e
  subst e
  refine calm_sigSnapshot ?_
  assumption

theorem calm_State_sigLong {s t : State} {a1 : _} {a2 : _} {a3 : Cmd → State → State}
    (hf : ∀ c u, Calm s u → Calm s (a3 c u)) (h : Calm s t) : Calm s (State.sigLong t a1 a2 a3) := by
  unfold State.sigLong
  refine calm_State_sigStart (fun c u hu => ?_) h
  split
  · exact calm_State_finish (Calm.ite (calm_State_checkAll hu) hu)
  · exact hf _ _ (calm_State_accept (calm_State_checkAll hu))

theorem calm_sigWatch {s t : State} (h : Calm s t) :
    Calm s (sigWatch t) := by
  unfold sigWatch
  refine Calm.ite ?_ ?_
  · assumption
  · refine calm_State_sigLong (fun _ u1 hu1 => ?_) ?_
    · extract_lets +onlyGivenNames x2
      have hx2 : Calm s x2 := ?_
      · clear_value x2
        extract_lets +onlyGivenNames x3
        clear_value x3
        extract_lets +onlyGivenNames x4
        have hx4 : Calm s x4 := ?_
        · clear_value x4
          refine Calm.ite ?_ ?_
          · refine calm_State_endLong ?_
            assumption
          · assumption
        · unfold x4
          refine calm_State_setOut ?_
          assumption
      · unfold x2
        refine calm_State_spend ?_
        assumption
    · assumption

theorem calm_State_reindexPart {s t : State} {a1 : _} (h : Calm s t) :
    Calm s (State.reindexPart t a1) := by
  unfold State.reindexPart
  refine Calm.ite ?_ ?_
  · refine calm_State_setOut ?_
    refine calm_State_spend ?_
    assumption
  · assumption

theorem calm_sigReindex {s t : State} (h : Calm s t) :
    Calm s (sigReindex t) := by
  unfold sigReindex
  refine calm_State_sigLong (fun _ u1 hu1 => ?_) ?_
  · extract_lets +onlyGivenNames x2
    clear_value x2
    refine calm_State_reindexPart ?_
    refine calm_State_setOut ?_
    assumption
  · assumption

theorem calm_execSigReindex {s t : State} {u : State} (h : Calm s t)
    (e : execSigReindex t = .next u) : Calm s u := by
  unfold execSigReindex at e
  injection e with e
  subst e
  refine calm_sigReindex ?_
  assumption

theorem calm_State_subWrite {s t : State} {a1 : _} (h : Calm s t) :
    Calm s (State.subWrite t a1) := by
  unfold State.subWrite
  extract_lets +onlyGivenNames x1
  clear_value x1
  extract_lets +onlyGivenNames x2
  clear_value x2
  extract_lets +onlyGivenNames x3
  clear_value x3
  extract_lets +onlyGivenNames x4
  clear_value x4
  extract_lets +onlyGivenNames x5
  clear_value x5
  extract_lets +onlyGivenNames x6
  have hx6 : Calm s x6 := ?_
  · clear_value x6
    extract_lets +onlyGivenNames x7
    have hx7 : Calm s x7 := ?_
    · clear_value x7
      refine calm_State_endLong ?_
      assumption
    · unfold x7
      refine calm_State_outBuf ?_
      assumption
  · unfold x6
    refine calm_State_outBuf ?_
    assumption

theorem calm_State_subPart {s t : State} {a1 : _} (h : Calm s t) :
    Calm s (State.subPart t a1) := by
  unfold State.subPart
  refine Calm.ite ?_ ?_
  · assumption
  · refine Calm.ite ?_ ?_
    · refine calm_State_setOut ?_
      refine calm_State_spend ?_
      assumption
    · refine calm_State_subWrite ?_
      refine calm_State_spend ?_
      assumption

theorem calm_runForce {s t : State} {a0 : _} (h : Calm s t) :
    Calm s (runForce a0 t).1 := by
  refine CalmF.out ?_
  unfold runForce
  extract_lets +onlyGivenNames x1
  clear_value x1
  extract_lets +onlyGivenNames x2
  clear_value x2
  extract_lets +onlyGivenNames x3
  have hx3 : Calm s x3.2 := ?_
  · clear_value x3
    extract_lets +onlyGivenNames x4
    have hx4 : Calm s x4 := ?_
    · clear_value x4
      refine CalmF.ite ?_ ?_
      · refine CalmF.pair ?_
        assumption
      · refine CalmF.ite ?_ ?_
        · refine CalmF.pair ?_
          assumption
        · refine CalmF.ite ?_ ?_
          · refine CalmF.pair ?_
            assumption
          · refine CalmF.ite ?_ ?_
            · refine CalmF.pair ?_
              assumption
            · extract_lets +onlyGivenNames x5
              clear_value x5
              refine CalmF.ite ?_ ?_
              · refine CalmF.ite ?_ ?_
                · extract_lets +onlyGivenNames x6
                  have hx6 : Calm s x6 := ?_
                  · clear_value x6
                    refine CalmF.pair ?_
                    refine calm_State_forceNotice ?_
                    assumption
                  · unfold x6
                    refine calm_State_wr ?_
                    refine calm_State_putSlot ?_
                    assumption
                · refine CalmF.pair ?_
                  assumption
              · extract_lets +onlyGivenNames x7
                clear_value x7
                extract_lets +onlyGivenNames x8
                have hx8 : Calm s x8.2.2 := ?_
                · clear_value x8
                  extract_lets +onlyGivenNames x9
                  clear_value x9
                  extract_lets +onlyGivenNames x10
                  have hx10 : Calm s x10 := ?_
                  · clear_value x10
                    extract_lets +onlyGivenNames x11
                    have hx11 : Calm s x11 := ?_
                    · clear_value x11
                      refine CalmF.pair ?_
                      refine calm_State_forceNotice ?_
                      assumption
                    · unfold x11
                      refine Calm.ite ?_ ?_
                      · assumption
                      · refine calm_State_wr ?_
                        assumption
                  · unfold x10
                    refine calm_State_putSlot ?_
                    assumption
                · unfold x8
                  refine calm_State_packValue ?_
                  assumption
    · unfold x4
      assumption
  · unfold x3
    refine calm_State_checkAll ?_
    assumption

theorem calm_sigForce {s t : State} (h : Calm s t) :
    Calm s (sigForce t) := by
  unfold sigForce
  refine Calm.ite ?_ ?_
  · refine calm_State_doUnit (fun _ u1 hu1 => ?_) ?_
    · refine calm_runForce ?_
      assumption
    · assumption
  · assumption

theorem calm_sigUnforce {s t : State} (h : Calm s t) :
    Calm s (sigUnforce t) := by
  unfold sigUnforce
  refine Calm.ite ?_ ?_
  · refine calm_State_doUnit (fun _ u1 hu1 => ?_) ?_
    · refine calm_runForce ?_
      assumption
    · assumption
  · assumption

theorem calm_execSigUnforce {s t : State} {u : State} (h : Calm s t)
    (e : execSigUnforce t = .next u) : Calm s u := by
  unfold execSigUnforce at e
  injection e with e
  subst e
  refine calm_sigUnforce ?_
  assumption

theorem calm_State_pubKeep {s t : State} {a1 : _} {a2 : _} (h : Calm s t) :
    Calm s (State.pubKeep t a1 a2) := by
  unfold State.pubKeep
  refine calm_State_sigLater ?_
  refine Calm.same (t := t) ?_ rfl rfl rfl
  assumption

theorem calm_State_pubGo {s t : State} {a1 : _} {a2 : _} {a3 : _} (h : Calm s t) :
    Calm s (State.pubGo t a1 a2 a3) := by
  induction a3 generalizing t a1 a2
  · unfold State.pubGo
    refine calm_State_pubKeep ?_
    assumption
  · rename_i ih
    unfold State.pubGo
    extract_lets +onlyGivenNames x1
    clear_value x1
    extract_lets +onlyGivenNames x2
    clear_value x2
    refine Calm.ite ?_ ?_
    · refine calm_State_sigEnd ?_
      assumption
    · refine Calm.ite ?_ ?_
      · refine calm_State_pubKeep ?_
        assumption
      · extract_lets +onlyGivenNames x3
        have hx3 : Calm s x3.2 := ?_
        · clear_value x3
          refine Calm.ite ?_ ?_
          · refine calm_State_sigEnd ?_
            assumption
          · extract_lets +onlyGivenNames x4
            have hx4 : Calm s x4.2 := ?_
            · clear_value x4
              split
              · refine calm_State_sigEnd ?_
                assumption
              · apply ih
                refine calm_State_spend ?_
                assumption
            · unfold x4
              refine calm_State_publishValues ?_
              assumption
        · unfold x3
          refine calm_State_readCheck ?_
          assumption

theorem calm_sigBulkLoad {s t : State} (h : Calm s t) :
    Calm s (sigBulkLoad t) := by
  unfold sigBulkLoad
  refine calm_State_sigLong (fun _ u1 hu1 => ?_) ?_
  · refine calm_State_pubGo ?_
    assumption
  · assumption

theorem calm_execSigBulkLoad {s t : State} {u : State} (h : Calm s t)
    (e : execSigBulkLoad t = .next u) : Calm s u := by
  unfold execSigBulkLoad at e
  injection e with e
  subst e
  refine calm_sigBulkLoad ?_
  assumption

theorem calm_execSigWatch {s t : State} {u : State} (h : Calm s t)
    (e : execSigWatch t = .next u) : Calm s u := by
  unfold execSigWatch at e
  injection e with e
  subst e
  refine calm_sigWatch ?_
  assumption

theorem calm_execSigForce {s t : State} {u : State} (h : Calm s t)
    (e : execSigForce t = .next u) : Calm s u := by
  unfold execSigForce at e
  injection e with e
  subst e
  refine calm_sigForce ?_
  assumption

theorem calm_execSigReindexSwitch {s t : State} {u : State} (h : Calm s t)
    (e : execSigReindexSwitch t = .next u) : Calm s u := by
  unfold execSigReindexSwitch at e
  injection e with e
  subst e
  refine calm_sigReindexSwitch ?_
  assumption

theorem calm_sigPublish {s t : State} (h : Calm s t) :
    Calm s (sigPublish t) := by
  unfold sigPublish
  refine calm_State_sigStart (fun _ u1 hu1 => ?_) ?_
  · split
    · refine calm_State_finish ?_
      refine Calm.ite ?_ ?_
      · refine calm_State_checkAll ?_
        assumption
      · assumption
    · refine calm_State_pubGo ?_
      refine calm_State_checkAll ?_
      assumption
  · assumption

theorem calm_execSigPublish {s t : State} {u : State} (h : Calm s t)
    (e : execSigPublish t = .next u) : Calm s u := by
  unfold execSigPublish at e
  injection e with e
  subst e
  refine calm_sigPublish ?_
  assumption

theorem calm_sigClr {s t : State} {a0 : _} {a1 : _} (h : Calm s t) :
    Calm s (sigClr a0 a1 t) := by
  unfold sigClr
  refine Calm.ite ?_ ?_
  · refine calm_State_setReg ?_
    refine calm_State_setReg ?_
    assumption
  · assumption

theorem calm_execSigClr {s t : State} {a0 : _} {a1 : _} {u : State} (h : Calm s t)
    (e : execSigClr a0 a1 t = .next u) : Calm s u := by
  unfold execSigClr at e
  injection e with e
  subst e
  refine calm_State_arrive (fun u1 hu1 => ?_) ?_
  · refine calm_sigClr ?_
    assumption
  · assumption

theorem calm_sigWatchTimeout {s t : State} {a0 : _} {a1 : _} (h : Calm s t) :
    Calm s (sigWatchTimeout a0 a1 t) := by
  unfold sigWatchTimeout
  split
  · refine Calm.ite ?_ ?_
    · refine calm_State_endLong ?_
      assumption
    · assumption
  · assumption

theorem calm_sigStaleDeadline {s t : State} {a0 : _} (h : Calm s t) :
    Calm s (sigStaleDeadline a0 t) := by
  unfold sigStaleDeadline
  extract_lets +onlyGivenNames x1
  clear_value x1
  refine Calm.ite ?_ ?_
  · extract_lets +onlyGivenNames x2
    have hx2 : Calm s x2 := ?_
    · clear_value x2
      refine calm_State_watchEnd ?_
      refine calm_State_queuePass ?_
      refine calm_State_satAdd ?_
      assumption
    · unfold x2
      refine calm_State_setDs ?_
      refine calm_State_setDs ?_
      assumption
  · assumption

theorem calm_execSigStaleDeadline {s t : State} {a0 : _} {u : State} (h : Calm s t)
    (e : execSigStaleDeadline a0 t = .next u) : Calm s u := by
  unfold execSigStaleDeadline at e
  injection e with e
  subst e
  refine calm_sigStaleDeadline ?_
  assumption

theorem calm_execSigWatchTimeout {s t : State} {a0 : _} {a1 : _} {u : State} (h : Calm s t)
    (e : execSigWatchTimeout a0 a1 t = .next u) : Calm s u := by
  unfold execSigWatchTimeout at e
  injection e with e
  subst e
  refine calm_sigWatchTimeout ?_
  assumption

theorem calm_sigSubBuild {s t : State} (h : Calm s t) :
    Calm s (sigSubBuild t) := by
  unfold sigSubBuild
  refine calm_State_sigLong (fun _ u1 hu1 => ?_) ?_
  · refine calm_State_subPart ?_
    assumption
  · assumption

theorem calm_execSigSubBuild {s t : State} {u : State} (h : Calm s t)
    (e : execSigSubBuild t = .next u) : Calm s u := by
  unfold execSigSubBuild at e
  injection e with e
  subst e
  refine calm_sigSubBuild ?_
  assumption

theorem calm_State_route {s t : State} {a1 : _} {a2 : _} {a3 : _} (h : Calm s t) :
    Calm s (State.route t a1 a2 a3).2.2 := by
  refine CalmS2.out ?_
  unfold State.route
  refine CalmS2.ite ?_ ?_
  · refine ⟨?_⟩
    refine calm_State_packValue ?_
    assumption
  · extract_lets +onlyGivenNames x1
    clear_value x1
    refine CalmS2.pair ?_
    assumption

theorem calm_State_setGw {s t : State} {a1 : _} {a2 : _} {a3 : _} {a4 : _} {a5 : _} (h : Calm s t) :
    Calm s (State.setGw t a1 a2 a3 a4 a5) := by
  unfold State.setGw
  extract_lets +onlyGivenNames x1
  clear_value x1
  refine calm_State_busWrite ?_
  assumption

theorem calm_State_gwPublished {s t : State} {a1 : _} {a2 : _} (h : Calm s t) :
    Calm s (State.gwPublished t a1 a2) := by
  unfold State.gwPublished
  extract_lets +onlyGivenNames x1
  have hx1 : Calm s x1 := ?_
  · clear_value x1
    extract_lets +onlyGivenNames x2
    clear_value x2
    extract_lets +onlyGivenNames x3
    have hx3 : Calm s x3 := ?_
    · clear_value x3
      refine calm_State_peak ?_
      refine calm_State_satAdd ?_
      refine calm_State_setGw ?_
      assumption
    · unfold x3
      refine Calm.same (t := x1) ?_ rfl rfl rfl
      assumption
  · unfold x1
    refine calm_State_setGw ?_
    assumption

theorem calm_State_gwHand {s t : State} {a1 : _} {a2 : _} {a3 : _} (h : Calm s t) :
    Calm s (State.gwHand t a1 a2 a3) := by
  unfold State.gwHand
  extract_lets +onlyGivenNames x1
  clear_value x1
  refine Calm.ite ?_ ?_
  · refine calm_State_gwPublished ?_
    refine calm_State_publish ?_
    assumption
  · refine Calm.same (t := t) ?_ rfl rfl rfl
    assumption

theorem calm_State_gwStaleNote {s t : State} {a1 : _} {a2 : _} (h : Calm s t) :
    Calm s (State.gwStaleNote t a1 a2) := by
  unfold State.gwStaleNote
  extract_lets +onlyGivenNames x1
  clear_value x1
  extract_lets +onlyGivenNames x2
  clear_value x2
  extract_lets +onlyGivenNames x3
  have hx3 : Calm s x3 := ?_
  · clear_value x3
    extract_lets +onlyGivenNames x4
    have hx4 : Calm s x4 := ?_
    · clear_value x4
      refine calm_State_setGw ?_
      assumption
    · unfold x4
      refine Calm.ite ?_ ?_
      · refine calm_State_raise ?_
        assumption
      · refine Calm.ite ?_ ?_
        · refine calm_State_raise ?_
          assumption
        · assumption
  · unfold x3
    refine Calm.ite ?_ ?_
    · refine calm_State_setGw ?_
      assumption
    · assumption

theorem calm_State_routeStep {s : State} {x : List Byte × Nat × State} {r : Nat × Nat} (h : Calm s x.2.2) :
    Calm s (State.routeStep x r).2.2 := by
  unfold State.routeStep
  exact calm_State_route h

theorem calm_State_gwRun {s t : State} {a1 : _} {a2 : _} (h : Calm s t) : Calm s (State.gwRun t a1 a2) := by
  unfold State.gwRun
  extract_lets +onlyGivenNames c0 s1 chk
  have h1 : Calm s s1 := calm_State_gwPend (Calm.same (t := t) h rfl rfl rfl)
  have h2 : Calm s chk.2 := calm_State_checkAll h1
  clear_value chk s1
  split
  · exact h2
  extract_lets +onlyGivenNames routes stale x n
  have h3 : Calm s x.2.2 := Calm.foldl_snd2 h2 (fun _ _ hu => calm_State_routeStep hu)
  exact calm_State_gwHand (calm_State_gwStaleNote (calm_State_setGw h3))

theorem calm_gwClr {s t : State} {a0 : _} {a1 : _} (h : Calm s t) :
    Calm s (gwClr a0 a1 t) := by
  unfold gwClr
  refine Calm.ite ?_ ?_
  · refine calm_State_setReg ?_
    refine calm_State_setReg ?_
    assumption
  · assumption

theorem calm_execGwClr {s t : State} {a0 : _} {a1 : _} {u : State} (h : Calm s t)
    (e : execGwClr a0 a1 t = .next u) : Calm s u := by
  unfold execGwClr at e
  injection e with e
  subst e
  refine calm_State_arrive (fun u1 hu1 => ?_) ?_
  · refine calm_gwClr ?_
    assumption
  · assumption

theorem calm_runGwCtl {s t : State} {a0 : _} (h : Calm s t) :
    Calm s (runGwCtl a0 t).1 := by
  refine CalmF.out ?_
  unfold runGwCtl
  extract_lets +onlyGivenNames x1
  clear_value x1
  refine CalmF.ite ?_ ?_
  · refine CalmF.pair ?_
    assumption
  · refine CalmF.ite ?_ ?_
    · refine CalmF.pair ?_
      assumption
    · extract_lets +onlyGivenNames x2
      clear_value x2
      extract_lets +onlyGivenNames x3
      have hx3 : Calm s x3 := ?_
      · clear_value x3
        extract_lets +onlyGivenNames x4
        have hx4 : Calm s x4 := ?_
        · clear_value x4
          extract_lets +onlyGivenNames x5
          clear_value x5
          extract_lets +onlyGivenNames x6
          have hx6 : Calm s x6 := ?_
          · clear_value x6
            refine CalmF.pair ?_
            assumption
          · unfold x6
            refine Calm.ite ?_ ?_
            · assumption
            · refine calm_State_gwPend ?_
              refine Calm.same (t := x4) ?_ rfl rfl rfl
              assumption
        · unfold x4
          refine Calm.ite ?_ ?_
          · refine calm_State_setGw ?_
            assumption
          · assumption
      · unfold x3
        refine calm_State_setGw ?_
        assumption

theorem calm_gwGroupCtl {s t : State} (h : Calm s t) :
    Calm s (gwGroupCtl t) := by
  unfold gwGroupCtl
  refine calm_State_doShort (fun _ u1 hu1 => ?_) ?_
  · refine calm_runGwCtl ?_
    assumption
  · assumption

theorem calm_execGwGroupCtl {s t : State} {u : State} (h : Calm s t)
    (e : execGwGroupCtl t = .next u) : Calm s u := by
  unfold execGwGroupCtl at e
  injection e with e
  subst e
  refine calm_gwGroupCtl ?_
  assumption

theorem calm_State_builtRun {s t : State} {a1 : _} (h : Calm s t) :
    Calm s (State.builtRun t a1) := by
  unfold State.builtRun
  extract_lets +onlyGivenNames x1
  clear_value x1
  refine calm_State_gwPublished ?_
  refine calm_State_publishBuilt ?_
  refine Calm.same (t := t) ?_ rfl rfl rfl
  assumption

theorem calm_State_gwRuns {s t : State} {a1 : _} {a2 : _} (h : Calm s t) :
    Calm s (State.gwRuns t a1 a2) := by
  induction a1 generalizing t a2
  · unfold State.gwRuns
    assumption
  · rename_i ih
    unfold State.gwRuns
    refine Calm.ite ?_ ?_
    · assumption
    · apply ih
      refine calm_State_gwRun ?_
      assumption

theorem calm_State_setNode {s t : State} {a1 : _} {a2 : _} (h : Calm s t) :
    Calm s (State.setNode t a1 a2) := by
  unfold State.setNode
  refine Calm.same (t := t) ?_ rfl rfl rfl
  assumption

theorem calm_State_crMissSet {s t : State} {a1 : _} {a2 : _} {a3 : _} (h : Calm s t) :
    Calm s (State.crMissSet t a1 a2 a3) := by
  unfold State.crMissSet
  extract_lets +onlyGivenNames x1
  clear_value x1
  extract_lets +onlyGivenNames x2
  have hx2 : Calm s x2 := ?_
  · clear_value x2
    extract_lets +onlyGivenNames x3
    clear_value x3
    refine Calm.ite ?_ ?_
    · assumption
    · refine calm_State_raise ?_
      refine calm_State_wr ?_
      assumption
  · unfold x2
    refine calm_State_setNode ?_
    assumption

theorem calm_State_crGot {s t : State} {a1 : _} {a2 : _} (h : Calm s t) :
    Calm s (State.crGot t a1 a2) := by
  unfold State.crGot
  extract_lets +onlyGivenNames x1
  clear_value x1
  refine calm_State_crMissSet ?_
  refine calm_State_setNode ?_
  assumption

theorem calm_State_crDeliver {s t : State} {a1 : _} {a2 : _} {a3 : _} (h : Calm s t) :
    Calm s (State.crDeliver t a1 a2 a3) := by
  unfold State.crDeliver
  refine Calm.foldl ?_ (fun u1 y2 hu1 => ?_)
  · assumption
  · refine Calm.ite ?_ ?_
    · refine calm_State_publish ?_
      assumption
    · assumption

theorem calm_State_crChanEnd {s t : State} {a1 : _} (h : Calm s t) :
    Calm s (State.crChanEnd t a1) := by
  unfold State.crChanEnd
  extract_lets +onlyGivenNames x1
  clear_value x1
  refine Calm.ite ?_ ?_
  · assumption
  · extract_lets +onlyGivenNames x2
    have hx2 : Calm s x2 := ?_
    · clear_value x2
      extract_lets +onlyGivenNames x3
      have hx3 : Calm s x3 := ?_
      · clear_value x3
        refine calm_State_setNode ?_
        assumption
      · unfold x3
        refine Calm.ite ?_ ?_
        · assumption
        · refine calm_State_crMissSet ?_
          assumption
    · unfold x2
      refine Calm.ite ?_ ?_
      · assumption
      · refine calm_State_crMissSet ?_
        assumption

theorem calm_State_crChanOpen {s t : State} {a1 : _} (h : Calm s t) :
    Calm s (State.crChanOpen t a1) := by
  unfold State.crChanOpen
  extract_lets +onlyGivenNames x1
  have hx1 : Calm s x1 := ?_
  · clear_value x1
    refine calm_State_setNode ?_
    assumption
  · unfold x1
    refine calm_State_crChanEnd ?_
    assumption

theorem calm_State_portSend {s t : State} {a1 : _} {a2 : _} {a3 : _} (h : Calm s t) :
    Calm s (State.portSend t a1 a2 a3) := by
  unfold State.portSend
  refine Calm.ite ?_ ?_
  · refine calm_State_pairSend ?_
    assumption
  · refine Calm.same (t := t) ?_ rfl rfl rfl
    assumption

theorem calm_State_setPortNow {s t : State} {a1 : _} {a2 : _} (h : Calm s t) :
    Calm s (State.setPortNow t a1 a2) := by
  unfold State.setPortNow
  refine Calm.same (t := t) ?_ rfl rfl rfl
  assumption

theorem calm_State_crCut {s t : State} {a1 : _} (h : Calm s t) :
    Calm s (State.crCut t a1) := by
  unfold State.crCut
  split
  · assumption
  · extract_lets +onlyGivenNames x1
    clear_value x1
    extract_lets +onlyGivenNames x2
    have hx2 : Calm s x2 := ?_
    · clear_value x2
      refine calm_State_satAdd ?_
      refine Calm.same (t := x2) ?_ rfl rfl rfl
      assumption
    · unfold x2
      refine calm_State_portSend ?_
      refine calm_State_setPortNow ?_
      assumption

theorem calm_State_crFreeze {s t : State} {a1 : _} {a2 : _} {a3 : _} (h : Calm s t) :
    Calm s (State.crFreeze t a1 a2 a3).2 := by
  refine CalmS.out ?_
  unfold State.crFreeze
  extract_lets +onlyGivenNames x1
  clear_value x1
  extract_lets +onlyGivenNames x2
  clear_value x2
  extract_lets +onlyGivenNames x3
  clear_value x3
  extract_lets +onlyGivenNames x4
  have hx4 : Calm s x4.2 := ?_
  · clear_value x4
    split
    · refine ⟨?_⟩
      assumption
    · refine CalmS.ite ?_ ?_
      · refine CalmS.pair ?_
        assumption
      · refine ⟨?_⟩
        assumption
  · unfold x4
    dsimp -zeta only
    refine calm_State_setNode ?_
    assumption

theorem calm_State_crForward {s t : State} {a1 : _} {a2 : _} {a3 : _} (h : Calm s t) :
    Calm s (State.crForward t a1 a2 a3).2 := by
  refine CalmS.out ?_
  unfold State.crForward
  refine CalmS.ite ?_ ?_
  · refine CalmS.pair ?_
    assumption
  · extract_lets +onlyGivenNames x1
    have hx1 : Calm s x1.2 := ?_
    · clear_value x1
      refine CalmS.pair ?_
      assumption
    · unfold x1
      refine calm_State_crFreeze ?_
      assumption

theorem calm_State_crRun {s t : State} {a1 : _} {a2 : _} (h : Calm s t) :
    Calm s (State.crRun t a1 a2) := by
  unfold State.crRun
  extract_lets +onlyGivenNames x1
  clear_value x1
  extract_lets +onlyGivenNames x2
  clear_value x2
  extract_lets +onlyGivenNames x3
  have hx3 : Calm s x3 := ?_
  · clear_value x3
    extract_lets +onlyGivenNames x4
    have hx4 : Calm s x4 := ?_
    · clear_value x4
      refine Calm.ite ?_ ?_
      · refine calm_State_raise ?_
        assumption
      · assumption
    · unfold x4
      refine calm_State_wr ?_
      assumption
  · unfold x3
    refine calm_State_setNode ?_
    assumption

theorem calm_State_crMissOne {s t : State} {a1 : _} {a2 : _} {a3 : _} (h : Calm s t) :
    Calm s (State.crMissOne t a1 a2 a3) := by
  unfold State.crMissOne
  extract_lets +onlyGivenNames x1
  clear_value x1
  extract_lets +onlyGivenNames x2
  have hx2 : Calm s x2 := ?_
  · clear_value x2
    refine Calm.ite ?_ ?_
    · refine calm_State_raise ?_
      assumption
    · refine Calm.ite ?_ ?_
      · refine calm_State_raise ?_
        assumption
      · assumption
  · unfold x2
    refine calm_State_wr ?_
    assumption

theorem calm_State_crMissAll {s t : State} {a1 : _} {a2 : _} (h : Calm s t) :
    Calm s (State.crMissAll t a1 a2) := by
  unfold State.crMissAll
  refine Calm.foldl ?_ (fun u1 y2 hu1 => ?_)
  · assumption
  · refine calm_State_crMissOne ?_
    assumption

theorem calm_State_crAccept {s t : State} {a1 : _} {a2 : _} {a3 : _} (h : Calm s t) :
    Calm s (State.crAccept t a1 a2 a3) := by
  unfold State.crAccept
  extract_lets +onlyGivenNames x1
  clear_value x1
  extract_lets +onlyGivenNames x2
  clear_value x2
  extract_lets +onlyGivenNames x3
  clear_value x3
  extract_lets +onlyGivenNames x4
  have hx4 : Calm s x4 := ?_
  · clear_value x4
    extract_lets +onlyGivenNames x5
    have hx5 : Calm s x5 := ?_
    · clear_value x5
      extract_lets +onlyGivenNames x6
      have hx6 : Calm s x6 := ?_
      · clear_value x6
        extract_lets +onlyGivenNames x7
        clear_value x7
        extract_lets +onlyGivenNames x8
        have hx8 : Calm s x8 := ?_
        · clear_value x8
          refine calm_State_crMissAll ?_
          refine calm_State_crDeliver ?_
          refine calm_State_crGot ?_
          assumption
        · unfold x8
          refine calm_State_setNode ?_
          assumption
      · unfold x6
        refine calm_State_crRun ?_
        refine calm_State_wr ?_
        assumption
    · unfold x5
      refine calm_State_crChanOpen ?_
      assumption
  · unfold x4
    refine Calm.ite ?_ ?_
    · refine calm_State_satAdd ?_
      assumption
    · assumption

theorem calm_State_crMemberRx {s t : State} {a1 : _} {a2 : _} {a3 : _} {a4 : _} (h : Calm s t) :
    Calm s (State.crMemberRx t a1 a2 a3 a4) := by
  unfold State.crMemberRx
  split
  · exact h
  extract_lets +onlyGivenNames p out s1 r s2 s3 s4
  have h1 : Calm s s1 := calm_State_satAdd (calm_State_crCut h)
  have h2 : Calm s r.2 := calm_State_crForward h1
  have h3 : Calm s s2 := Calm.ite (calm_State_portSend h2) h2
  have h3' : Calm s s3 := Calm.ite h3 (calm_State_satAdd h3)
  have h4 : Calm s s4 := Calm.ite h3' (calm_State_satAdd h3')
  refine Calm.ite (calm_State_satAdd h4) (Calm.ite h4 ?_)
  refine Calm.ite (calm_State_crAccept h4) (Calm.ite (calm_State_satAdd (calm_State_crGot h4)) (calm_State_satAdd h4))

theorem calm_State_crLost {s t : State} {a1 : _} (h : Calm s t) :
    Calm s (State.crLost t a1) := by
  unfold State.crLost
  extract_lets +onlyGivenNames x1
  clear_value x1
  extract_lets +onlyGivenNames x2
  have hx2 : Calm s x2 := ?_
  · clear_value x2
    extract_lets +onlyGivenNames x3
    clear_value x3
    extract_lets +onlyGivenNames x4
    have hx4 : Calm s x4 := ?_
    · clear_value x4
      refine Calm.ite ?_ ?_
      · extract_lets +onlyGivenNames x5
        have hx5 : Calm s x5 := ?_
        · clear_value x5
          refine calm_State_setNode ?_
          assumption
        · unfold x5
          refine calm_State_raise ?_
          refine calm_State_wr ?_
          assumption
      · assumption
    · unfold x4
      refine calm_State_setNode ?_
      assumption
  · unfold x2
    refine calm_State_crMissAll ?_
    refine calm_State_satAdd ?_
    assumption

theorem calm_State_crReturnTimeout {s t : State} {a1 : _} (h : Calm s t) :
    Calm s (State.crReturnTimeout t a1) := by
  unfold State.crReturnTimeout
  extract_lets +onlyGivenNames x1
  clear_value x1
  refine Calm.ite ?_ ?_
  · refine calm_State_crLost ?_
    refine calm_State_setNode ?_
    assumption
  · assumption

theorem calm_State_setFwd {s t : State} {a1 : _} {a2 : _} {a3 : _} (h : Calm s t) :
    Calm s (State.setFwd t a1 a2 a3) := by
  unfold State.setFwd
  refine Calm.same (t := t) ?_ rfl rfl rfl
  assumption

theorem calm_State_crMemberTimeout {s t : State} {a1 : _} (h : Calm s t) :
    Calm s (State.crMemberTimeout t a1) := by
  unfold State.crMemberTimeout
  extract_lets +onlyGivenNames x1
  clear_value x1
  extract_lets +onlyGivenNames x2
  clear_value x2
  refine Calm.ite ?_ ?_
  · refine calm_State_crLost ?_
    refine calm_State_crChanEnd ?_
    refine calm_State_crChanOpen ?_
    refine calm_State_setNode ?_
    assumption
  · assumption

theorem calm_State_rxStamp {s t : State} {a1 : _} {a2 : _} {a3 : _} (h : Calm s t) :
    Calm s (State.rxStamp t a1 a2 a3).2 := by
  refine CalmS.out ?_
  unfold State.rxStamp
  refine CalmS.ite ?_ ?_
  · refine CalmS.pair ?_
    assumption
  · extract_lets +onlyGivenNames x1
    have hx1 : Calm s x1.2 := ?_
    · clear_value x1
      extract_lets +onlyGivenNames x2
      have hx2 : Calm s x2.2 := ?_
      · clear_value x2
        refine CalmS.pair ?_
        assumption
      · unfold x2
        refine calm_State_draw ?_
        assumption
    · unfold x1
      refine calm_State_draw ?_
      assumption

theorem calm_State_rxDeliver {s t : State} {a1 : _} {a2 : _} {a3 : _} {a4 : _} {a5 : _} {u : State} (h : Calm s t)
    (e : State.rxDeliver t a1 a2 a3 a4 a5 = some u) : Calm s u := by
  unfold State.rxDeliver at e
  split at e
  · contradiction
  · injection e with e; subst e
    exact calm_State_endLong (calm_State_outBuf (calm_State_rxStamp h))

theorem calm_State_crDeliverAcyc {s t : State} {a1 : _} {a2 : _} {a3 : _} (h : Calm s t) :
    Calm s (State.crDeliverAcyc t a1 a2 a3) := by
  unfold State.crDeliverAcyc
  extract_lets +onlyGivenNames x1
  clear_value x1
  split
  · refine calm_State_satAdd ?_
    refine calm_State_rxDeliver ?_ (by assumption)
    assumption
  · refine calm_State_raise ?_
    refine calm_State_satAdd ?_
    assumption

theorem calm_State_crBuffer {s t : State} {a1 : _} {a2 : _} {a3 : _} (h : Calm s t) :
    Calm s (State.crBuffer t a1 a2 a3) := by
  unfold State.crBuffer
  extract_lets +onlyGivenNames x1
  clear_value x1
  refine Calm.ite ?_ ?_
  · refine calm_State_satAdd ?_
    assumption
  · refine calm_State_setFwd ?_
    assumption

theorem calm_State_crAcycRx {s t : State} {a1 : _} {a2 : _} {a3 : _} {a4 : _} (h : Calm s t) :
    Calm s (State.crAcycRx t a1 a2 a3 a4) := by
  unfold State.crAcycRx
  refine Calm.ite ?_ ?_
  · assumption
  · refine Calm.ite ?_ ?_
    · refine calm_State_satAdd ?_
      assumption
    · refine Calm.ite ?_ ?_
      · assumption
      · refine Calm.ite ?_ ?_
        · refine calm_State_crDeliverAcyc ?_
          assumption
        · refine Calm.ite ?_ ?_
          · refine calm_State_crBuffer ?_
            refine calm_State_crDeliverAcyc ?_
            assumption
          · refine calm_State_crBuffer ?_
            assumption

theorem calm_State_crTx {s t : State} {a1 : _} (h : Calm s t) :
    Calm s (State.crTx t a1) := by
  unfold State.crTx
  refine calm_State_doLong (fun _ u1 hu1 => ?_) ?_
  · refine calm_State_setOut ?_
    assumption
  · assumption

theorem calm_State_crLinkChange {s t : State} {a1 : _} {a2 : _} (h : Calm s t) :
    Calm s (State.crLinkChange t a1 a2) := by
  unfold State.crLinkChange
  extract_lets +onlyGivenNames x1
  clear_value x1
  extract_lets +onlyGivenNames x2
  clear_value x2
  refine Calm.ite ?_ ?_
  · assumption
  · extract_lets +onlyGivenNames x3
    have hx3 : Calm s x3 := ?_
    · clear_value x3
      extract_lets +onlyGivenNames x4
      have hx4 : Calm s x4 := ?_
      · clear_value x4
        refine calm_State_raise ?_
        assumption
      · unfold x4
        refine Calm.ite ?_ ?_
        · refine Calm.foldl ?_ (fun u5 y6 hu5 => ?_)
          · assumption
          · refine calm_State_setOut ?_
            assumption
        · refine calm_State_setPortNow ?_
          assumption
    · unfold x3
      refine calm_State_wr ?_
      assumption

theorem calm_State_crAcycForward {s t : State} {a1 : _} {a2 : _} (h : Calm s t) :
    Calm s (State.crAcycForward t a1 a2) := by
  unfold State.crAcycForward
  extract_lets +onlyGivenNames x1
  clear_value x1
  split
  · assumption
  · refine Calm.ite ?_ ?_
    · refine calm_State_setPortNow ?_
      refine calm_State_portSend ?_
      refine calm_State_setFwd ?_
      assumption
    · assumption

theorem calm_State_crStop {s t : State} (h : Calm s t) :
    Calm s (State.crStop t) := by
  unfold State.crStop
  extract_lets +onlyGivenNames x1
  have hx1 : Calm s x1 := ?_
  · clear_value x1
    refine Calm.same (t := x1) ?_ rfl rfl rfl
    assumption
  · unfold x1
    refine Calm.foldl ?_ (fun u2 y3 hu2 => ?_)
    · assumption
    · refine calm_State_wr ?_
      assumption

theorem calm_State_crMasterRx {s t : State} {a1 : _} {a2 : _} {a3 : _} {a4 : _} (h : Calm s t) :
    Calm s (State.crMasterRx t a1 a2 a3 a4) := by
  unfold State.crMasterRx
  refine Calm.ite ?_ ?_
  · assumption
  · extract_lets +onlyGivenNames x1
    clear_value x1
    extract_lets +onlyGivenNames x2
    have hx2 : Calm s x2 := ?_
    · clear_value x2
      refine Calm.ite ?_ ?_
      · refine calm_State_satAdd ?_
        assumption
      · refine Calm.ite ?_ ?_
        · refine calm_State_satAdd ?_
          assumption
        · extract_lets +onlyGivenNames x3
          clear_value x3
          extract_lets +onlyGivenNames x4
          clear_value x4
          refine Calm.ite ?_ ?_
          · assumption
          · extract_lets +onlyGivenNames x5
            have hx5 : Calm s x5 := ?_
            · clear_value x5
              refine Calm.ite ?_ ?_
              · refine calm_State_satAdd ?_
                assumption
              · extract_lets +onlyGivenNames x6
                clear_value x6
                extract_lets +onlyGivenNames x7
                have hx7 : Calm s x7 := ?_
                · clear_value x7
                  extract_lets +onlyGivenNames x8
                  clear_value x8
                  extract_lets +onlyGivenNames x9
                  have hx9 : Calm s x9 := ?_
                  · clear_value x9
                    extract_lets +onlyGivenNames x10
                    have hx10 : Calm s x10 := ?_
                    · clear_value x10
                      refine calm_State_recEvent ?_
                      assumption
                    · unfold x10
                      refine calm_State_crMissAll ?_
                      refine calm_State_crDeliver ?_
                      assumption
                  · unfold x9
                    refine calm_State_setNode ?_
                    assumption
                · unfold x7
                  refine calm_State_crRun ?_
                  refine calm_State_peak ?_
                  refine calm_State_wr ?_
                  assumption
            · unfold x5
              refine calm_State_crGot ?_
              assumption
    · unfold x2
      refine calm_State_satAdd ?_
      assumption

theorem calm_State_crSendCopy {s t : State} {a1 : _} {a2 : _} {a3 : _} {a4 : _} (h : Calm s t) :
    Calm s (State.crSendCopy t a1 a2 a3 a4) := by
  unfold State.crSendCopy
  extract_lets +onlyGivenNames x1
  clear_value x1
  refine Calm.ite ?_ ?_
  · refine calm_State_portSend ?_
    refine calm_State_crCut ?_
    assumption
  · assumption

theorem calm_State_crFire {s t : State} {a1 : _} (h : Calm s t) :
    Calm s (State.crFire t a1) := by
  unfold State.crFire
  extract_lets +onlyGivenNames x1
  have hx1 : Calm s x1 := ?_
  · clear_value x1
    extract_lets +onlyGivenNames x2
    have hx2 : Calm s x2 := ?_
    · clear_value x2
      extract_lets +onlyGivenNames x3
      clear_value x3
      extract_lets +onlyGivenNames x4
      clear_value x4
      extract_lets +onlyGivenNames x5
      have hx5 : Calm s x5 := ?_
      · clear_value x5
        extract_lets +onlyGivenNames x6
        clear_value x6
        extract_lets +onlyGivenNames x7
        have hx7 : Calm s x7 := ?_
        · clear_value x7
          refine calm_State_crSendCopy ?_
          refine calm_State_crSendCopy ?_
          assumption
        · unfold x7
          refine calm_State_setNode ?_
          assumption
      · unfold x5
        refine calm_State_wr ?_
        assumption
    · unfold x2
      refine calm_State_crChanOpen ?_
      assumption
  · unfold x1
    refine Calm.ite ?_ ?_
    · assumption
    · refine calm_State_crLost ?_
      assumption

theorem calm_State_crFires {s t : State} {a1 : _} (h : Calm s t) :
    Calm s (State.crFires t a1) := by
  unfold State.crFires
  refine Calm.foldl ?_ (fun u1 y2 hu1 => ?_)
  · assumption
  · refine Calm.ite ?_ ?_
    · refine Calm.ite ?_ ?_
      · refine calm_State_crFire ?_
        assumption
      · refine calm_State_wr ?_
        assumption
    · assumption

theorem calm_State_crClear {s t : State} {a1 : _} {a2 : _} (h : Calm s t) :
    Calm s (State.crClear t a1 a2) := by
  unfold State.crClear
  refine Calm.ite ?_ ?_
  · extract_lets +onlyGivenNames x1
    have hx1 : Calm s x1 := ?_
    · clear_value x1
      refine Calm.foldl ?_ (fun u2 y3 hu2 => ?_)
      · assumption
      · refine Calm.foldl ?_ (fun u4 y5 hu4 => ?_)
        · assumption
        · refine calm_State_setReg ?_
          assumption
    · unfold x1
      refine calm_State_wr ?_
      refine calm_State_wr ?_
      assumption
  · assumption

theorem calm_runCrStatus {s t : State} {a0 : _} {a1 : _} (h : Calm s t) :
    Calm s (runCrStatus a0 a1 t).1 := by
  refine CalmF.out ?_
  unfold runCrStatus
  refine CalmF.ite ?_ ?_
  · refine CalmF.pair ?_
    assumption
  · extract_lets +onlyGivenNames x1
    clear_value x1
    refine CalmF.pair ?_
    refine calm_State_outBuf ?_
    assumption

theorem calm_State_crTxExpiry {s t : State} {a1 : _} (h : Calm s t) :
    Calm s (State.crTxExpiry t a1) := by
  unfold State.crTxExpiry
  split
  · assumption
  · refine Calm.ite ?_ ?_
    · refine calm_State_endLong ?_
      assumption
    · assumption

theorem calm_State_crSetupCheck {s t : State} (h : Calm s t) :
    Calm s (State.crSetupCheck t).2 := by
  refine CalmS.out ?_
  unfold State.crSetupCheck
  split
  · refine CalmS.pair ?_
    assumption
  · refine CalmS.pair ?_
    refine calm_State_raise ?_
    refine calm_State_wr ?_
    refine calm_State_wr ?_
    refine calm_State_wr ?_
    assumption

theorem calm_State_crTxEnd {s t : State} {a1 : _} (h : Calm s t) :
    Calm s (State.crTxEnd t a1) := by
  unfold State.crTxEnd
  split
  · refine Calm.ite ?_ ?_
    · assumption
    · split
      · refine calm_State_setPortNow ?_
        assumption
      · refine calm_State_endLong ?_
        refine calm_State_satAdd ?_
        refine calm_State_setPortNow ?_
        assumption
  · assumption

theorem calm_State_crStart {s t : State} {a1 : _} (h : Calm s t) :
    Calm s (State.crStart t a1) := by
  unfold State.crStart
  refine Calm.foldl ?_ (fun u1 y2 hu1 => ?_)
  · assumption
  · refine Calm.ite ?_ ?_
    · assumption
    · extract_lets +onlyGivenNames x3
      clear_value x3
      extract_lets +onlyGivenNames x4
      have hx4 : Calm s x4 := ?_
      · clear_value x4
        refine Calm.ite ?_ ?_
        · refine calm_State_wr ?_
          assumption
        · assumption
      · unfold x4
        refine calm_State_setNode ?_
        refine calm_State_wr ?_
        assumption

theorem calm_State_pwmStart {s t : State} {a1 : _} {a2 : _} {a3 : _} (h : Calm s t) :
    Calm s (State.pwmStart t a1 a2 a3) := by
  unfold State.pwmStart
  extract_lets +onlyGivenNames x1
  clear_value x1
  refine calm_State_setDio ?_
  assumption

theorem calm_State_dioTake {s t : State} {a1 : _} {a2 : _} {a3 : _} (h : Calm s t) :
    Calm s (State.dioTake t a1 a2 a3) := by
  unfold State.dioTake
  refine Calm.ite ?_ ?_
  · refine calm_State_pwmStart ?_
    assumption
  · assumption

theorem calm_State_aiKeep {s t : State} {a1 : _} (h : Calm s t) :
    Calm s (State.aiKeep t a1) := by
  unfold State.aiKeep
  extract_lets +onlyGivenNames x1
  clear_value x1
  extract_lets +onlyGivenNames x2
  clear_value x2
  refine calm_State_setAi ?_
  assumption

theorem calm_State_aiAbort {s t : State} {a1 : _} {a2 : _} (h : Calm s t) :
    Calm s (State.aiAbort t a1 a2) := by
  unfold State.aiAbort
  refine Calm.foldl ?_ (fun u1 y2 hu1 => ?_)
  · assumption
  · refine Calm.ite ?_ ?_
    · refine calm_State_endLong ?_
      assumption
    · assumption

theorem calm_State_aiAlign {s t : State} {a1 : _} {a2 : _} {a3 : _} (h : Calm s t) :
    Calm s (State.aiAlign t a1 a2 a3) := by
  unfold State.aiAlign
  extract_lets +onlyGivenNames x1
  clear_value x1
  extract_lets +onlyGivenNames x2
  clear_value x2
  extract_lets +onlyGivenNames x3
  clear_value x3
  refine Calm.ite ?_ ?_
  · assumption
  · refine Calm.ite ?_ ?_
    · refine calm_State_setAi ?_
      assumption
    · refine calm_State_setAi ?_
      assumption

theorem calm_State_aiStart {s t : State} {a1 : _} (h : Calm s t) :
    Calm s (State.aiStart t a1) := by
  unfold State.aiStart
  split
  · assumption
  · refine Calm.ite ?_ ?_
    · assumption
    · refine Calm.ite ?_ ?_
      · refine calm_State_setOut ?_
        assumption
      · extract_lets +onlyGivenNames x1
        clear_value x1
        refine Calm.ite ?_ ?_
        · refine Calm.ite ?_ ?_
          · refine calm_State_setOut ?_
            assumption
          · refine calm_State_setOut ?_
            assumption
        · extract_lets +onlyGivenNames x2
          have hx2 : Calm s x2.2 := ?_
          · clear_value x2
            refine Calm.ite ?_ ?_
            · refine calm_State_endLong ?_
              assumption
            · refine Calm.ite ?_ ?_
              · refine calm_State_endLong ?_
                assumption
              · refine calm_State_setOut ?_
                assumption
          · unfold x2
            refine calm_State_readCheck ?_
            assumption

theorem calm_State_aiRun {s t : State} {a1 : _} {a2 : _} (h : Calm s t) : Calm s (State.aiRun t a1 a2) := by
  induction a2 generalizing t with
  | zero => exact h
  | succ n ih =>
    unfold State.aiRun
    extract_lets +onlyGivenNames x1
    have h1 : Calm s x1 := calm_State_aiStart h
    exact Calm.ite (ih h1) h1

theorem calm_State_aiGoOn {s t : State} {a1 : _} (h : Calm s t) :
    Calm s (State.aiGoOn t a1) := by
  unfold State.aiGoOn
  refine calm_State_aiRun ?_
  assumption

theorem calm_State_aiChange {s t : State} {a1 : _} {a2 : _} {a3 : _} {a4 : _} {a5 : _} (h : Calm s t) :
    Calm s (State.aiChange t a1 a2 a3 a4 a5) := by
  unfold State.aiChange
  extract_lets +onlyGivenNames x1
  clear_value x1
  extract_lets +onlyGivenNames x2
  clear_value x2
  extract_lets +onlyGivenNames x3
  have hx3 : Calm s x3 := ?_
  · clear_value x3
    extract_lets +onlyGivenNames x4
    clear_value x4
    extract_lets +onlyGivenNames x5
    have hx5 : Calm s x5 := ?_
    · clear_value x5
      extract_lets +onlyGivenNames x6
      have hx6 : Calm s x6 := ?_
      · clear_value x6
        extract_lets +onlyGivenNames x7
        have hx7 : Calm s x7 := ?_
        · clear_value x7
          extract_lets +onlyGivenNames x8
          have hx8 : Calm s x8 := ?_
          · clear_value x8
            refine calm_State_aiGoOn ?_
            assumption
          · unfold x8
            refine Calm.ite ?_ ?_
            · refine calm_State_aiAlign ?_
              assumption
            · assumption
        · unfold x7
          refine Calm.ite ?_ ?_
          · refine calm_State_aiAbort ?_
            assumption
          · assumption
      · unfold x6
        refine calm_State_aiAbort ?_
        assumption
    · unfold x5
      refine Calm.ite ?_ ?_
      · refine calm_State_aiAbort ?_
        refine calm_State_setAi ?_
        assumption
      · assumption
  · unfold x3
    refine calm_State_aiKeep ?_
    refine calm_State_setReg ?_
    refine calm_State_setReg ?_
    assumption

theorem calm_State_applyChange {s t : State} {a1 : _} {a2 : _} {a3 : _} {a4 : _} {a5 : _} {a6 : _} (h : Calm s t) :
    Calm s (State.applyChange t a1 a2 a3 a4 a5 a6) := by
  unfold State.applyChange
  split
  · assumption
  · refine Calm.ite ?_ ?_
    · assumption
    · extract_lets +onlyGivenNames x1
      have hx1 : Calm s x1 := ?_
      · clear_value x1
        refine Calm.ite ?_ ?_
        · extract_lets +onlyGivenNames x2
          clear_value x2
          extract_lets +onlyGivenNames x3
          have hx3 : Calm s x3 := ?_
          · clear_value x3
            refine calm_State_dioTake ?_
            assumption
          · unfold x3
            refine calm_State_setReg ?_
            refine calm_State_setReg ?_
            refine calm_State_dioStop ?_
            assumption
        · refine calm_State_aiChange ?_
          assumption
      · unfold x1
        refine calm_State_setOut ?_
        assumption

theorem calm_State_alignDone {s t : State} (h : Calm s t) :
    Calm s (State.alignDone t) := by
  unfold State.alignDone
  split
  · assumption
  · extract_lets +onlyGivenNames x1
    clear_value x1
    extract_lets +onlyGivenNames x2
    clear_value x2
    extract_lets +onlyGivenNames x3
    have hx3 : Calm s x3 := ?_
    · clear_value x3
      refine calm_State_raise ?_
      refine calm_State_satAdd ?_
      refine calm_State_wr64 ?_
      assumption
    · unfold x3
      refine Calm.same (t := t) ?_ rfl rfl rfl
      assumption

theorem calm_State_aiEnd {s t : State} {a1 : _} {a2 : _} {a3 : _} (h : Calm s t) :
    Calm s (State.aiEnd t a1 a2 a3) := by
  unfold State.aiEnd
  refine calm_State_aiGoOn ?_
  refine calm_State_endLong ?_
  assumption

theorem calm_State_funcDone {s t : State} {a1 : _} {a2 : _} (h : Calm s t) :
    Calm s (State.funcDone t a1 a2) := by
  unfold State.funcDone
  refine calm_State_endLong ?_
  assumption

theorem calm_State_downSend {s t : State} {a1 : _} {a2 : _} {a3 : _} {a4 : _} (h : Calm s t) :
    Calm s (State.downSend t a1 a2 a3 a4) := by
  unfold State.downSend
  refine calm_State_setIsl ?_
  assumption

theorem calm_State_upStart {s t : State} {a1 : _} (h : Calm s t) :
    Calm s (State.upStart t a1) := by
  unfold State.upStart
  extract_lets +onlyGivenNames x1
  clear_value x1
  split
  · assumption
  · extract_lets +onlyGivenNames x2
    clear_value x2
    refine calm_State_setIsl ?_
    assumption

theorem calm_State_upsStart {s t : State} (h : Calm s t) :
    Calm s (State.upsStart t) := by
  unfold State.upsStart
  refine Calm.foldl ?_ (fun u1 y2 hu1 => ?_)
  · assumption
  · refine calm_State_upStart ?_
    assumption

theorem calm_State_applySet {s t : State} {a1 : _} {a2 : _} {a3 : _} (h : Calm s t) :
    Calm s (State.applySet t a1 a2 a3) := by
  unfold State.applySet
  extract_lets +onlyGivenNames x1
  clear_value x1
  extract_lets +onlyGivenNames x2
  clear_value x2
  extract_lets +onlyGivenNames x3
  have hx3 : Calm s x3 := ?_
  · clear_value x3
    refine Calm.ite ?_ ?_
    · assumption
    · refine Calm.ite ?_ ?_
      · refine calm_State_setDio ?_
        assumption
      · refine calm_State_setDio ?_
        assumption
  · unfold x3
    refine calm_State_setDio ?_
    assumption

theorem calm_State_applySets {s t : State} {a1 : _} {a2 : _} (h : Calm s t) :
    Calm s (State.applySets t a1 a2) := by
  unfold State.applySets
  refine Calm.foldl ?_ (fun u1 y2 hu1 => ?_)
  · assumption
  · refine calm_State_applySet ?_
    assumption

theorem calm_State_applySup {s t : State} {a1 : _} {a2 : _} (h : Calm s t) :
    Calm s (State.applySup t a1 a2) := by
  unfold State.applySup
  refine calm_State_aiKeep ?_
  refine calm_State_setAi ?_
  assumption

theorem calm_State_aiCut {s t : State} {a1 : _} {a2 : _} (h : Calm s t) :
    Calm s (State.aiCut t a1 a2) := by
  unfold State.aiCut
  extract_lets +onlyGivenNames x1
  clear_value x1
  extract_lets +onlyGivenNames x2
  have hx2 : Calm s x2 := ?_
  · clear_value x2
    refine calm_State_aiGoOn ?_
    refine calm_State_aiAbort ?_
    assumption
  · unfold x2
    refine Calm.ite ?_ ?_
    · refine calm_State_aiKeep ?_
      refine calm_State_setAi ?_
      assumption
    · assumption

theorem calm_State_applyOutput {s t : State} {a1 : _} {a2 : _} {a3 : _} (h : Calm s t) :
    Calm s (State.applyOutput t a1 a2 a3) := by
  unfold State.applyOutput
  extract_lets +onlyGivenNames x1
  clear_value x1
  refine Calm.ite ?_ ?_
  · assumption
  · extract_lets +onlyGivenNames x2
    have hx2 : Calm s x2 := ?_
    · clear_value x2
      extract_lets +onlyGivenNames x3
      have hx3 : Calm s x3 := ?_
      · clear_value x3
        split
        · assumption
        · refine Calm.ite ?_ ?_
          · assumption
          · refine Calm.ite ?_ ?_
            · extract_lets +onlyGivenNames x4
              have hx4 : Calm s x4 := ?_
              · clear_value x4
                refine Calm.ite ?_ ?_
                · refine calm_State_dioStop ?_
                  assumption
                · refine calm_State_aiCut ?_
                  assumption
              · unfold x4
                refine calm_State_setOut ?_
                assumption
            · extract_lets +onlyGivenNames x5
              clear_value x5
              extract_lets +onlyGivenNames x6
              have hx6 : Calm s x6 := ?_
              · clear_value x6
                refine calm_State_funcDone ?_
                assumption
              · unfold x6
                refine Calm.ite ?_ ?_
                · refine calm_State_setAi ?_
                  assumption
                · assumption
      · unfold x3
        refine Calm.ite ?_ ?_
        · refine calm_State_applySets ?_
          assumption
        · refine Calm.ite ?_ ?_
          · refine calm_State_applySup ?_
            refine calm_State_applySup ?_
            assumption
          · assumption
    · unfold x2
      refine calm_State_setIsl ?_
      assumption

theorem calm_State_linkAbort {s t : State} {a1 : _} (h : Calm s t) :
    Calm s (State.linkAbort t a1) := by
  unfold State.linkAbort
  refine Calm.foldl ?_ (fun u1 y2 hu1 => ?_)
  · assumption
  · refine Calm.ite ?_ ?_
    · refine calm_State_endLong ?_
      assumption
    · refine Calm.ite ?_ ?_
      · refine calm_State_endLong ?_
        assumption
      · assumption

theorem calm_State_linkEvent {s t : State} {a1 : _} {a2 : _} {a3 : _} (h : Calm s t) :
    Calm s (State.linkEvent t a1 a2 a3) := by
  unfold State.linkEvent
  refine calm_State_raise ?_
  assumption

theorem calm_State_unalign {s t : State} {a1 : _} (h : Calm s t) :
    Calm s (State.unalign t a1) := by
  unfold State.unalign
  refine Calm.ite ?_ ?_
  · extract_lets +onlyGivenNames x1
    clear_value x1
    refine calm_State_setAi ?_
    refine calm_State_setAi ?_
    assumption
  · assumption

theorem calm_State_linkFault {s t : State} {a1 : _} {a2 : _} (h : Calm s t) :
    Calm s (State.linkFault t a1 a2) := by
  unfold State.linkFault
  extract_lets +onlyGivenNames x1
  clear_value x1
  extract_lets +onlyGivenNames x2
  have hx2 : Calm s x2 := ?_
  · clear_value x2
    extract_lets +onlyGivenNames x3
    have hx3 : Calm s x3 := ?_
    · clear_value x3
      extract_lets +onlyGivenNames x4
      have hx4 : Calm s x4 := ?_
      · clear_value x4
        split
        · refine Calm.ite ?_ ?_
          · refine Calm.same (t := x4) ?_ rfl rfl rfl
            assumption
          · assumption
        · assumption
      · unfold x4
        refine calm_State_linkAbort ?_
        refine calm_State_unalign ?_
        assumption
    · unfold x3
      refine calm_State_linkEvent ?_
      refine calm_State_satAdd ?_
      refine calm_State_setLink ?_
      assumption
  · unfold x2
    refine calm_State_setIsl ?_
    assumption

theorem calm_State_linkLoad {s t : State} {a1 : _} (h : Calm s t) :
    Calm s (State.linkLoad t a1) := by
  unfold State.linkLoad
  refine calm_State_setLink ?_
  refine calm_State_setIsl ?_
  assumption

theorem calm_State_linkHeard {s t : State} {a1 : _} {a2 : _} {a3 : _} (h : Calm s t) :
    Calm s (State.linkHeard t a1 a2 a3) := by
  unfold State.linkHeard
  extract_lets +onlyGivenNames x1
  clear_value x1
  extract_lets +onlyGivenNames x2
  clear_value x2
  refine Calm.ite ?_ ?_
  · refine Calm.ite ?_ ?_
    · refine calm_State_linkLoad ?_
      assumption
    · assumption
  · refine Calm.ite ?_ ?_
    · refine Calm.ite ?_ ?_
      · refine calm_State_setLink ?_
        refine calm_State_setIsl ?_
        assumption
      · assumption
    · refine Calm.ite ?_ ?_
      · split
        · refine Calm.ite ?_ ?_
          · refine calm_State_linkFault ?_
            assumption
          · assumption
        · assumption
      · refine Calm.ite ?_ ?_
        · refine Calm.ite ?_ ?_
          · refine Calm.ite ?_ ?_
            · refine calm_State_linkEvent ?_
              refine calm_State_setLink ?_
              refine calm_State_setIsl ?_
              assumption
            · refine calm_State_linkEvent ?_
              refine calm_State_linkLoad ?_
              assumption
          · assumption
        · assumption

theorem calm_State_dioEvents {s t : State} {a1 : _} {a2 : _} {a3 : _} (h : Calm s t) :
    Calm s (State.dioEvents t a1 a2 a3) := by
  unfold State.dioEvents
  extract_lets +onlyGivenNames x1
  have hx1 : Calm s x1 := ?_
  · clear_value x1
    extract_lets +onlyGivenNames x2
    clear_value x2
    refine Calm.ite ?_ ?_
    · assumption
    · refine calm_State_raise ?_
      assumption
  · unfold x1
    refine Calm.foldl ?_ (fun u3 y4 hu3 => ?_)
    · assumption
    · extract_lets +onlyGivenNames x5
      clear_value x5
      refine Calm.ite ?_ ?_
      · assumption
      · refine calm_State_raise ?_
        assumption

theorem calm_State_heldUpdate {s t : State} {a1 : _} {a2 : _} (h : Calm s t) :
    Calm s (State.heldUpdate t a1 a2) := by
  unfold State.heldUpdate
  extract_lets +onlyGivenNames x1
  clear_value x1
  extract_lets +onlyGivenNames x2
  clear_value x2
  extract_lets +onlyGivenNames x3
  have hx3 : Calm s x3 := ?_
  · clear_value x3
    refine Calm.ite ?_ ?_
    · refine calm_State_dioEvents ?_
      assumption
    · assumption
  · unfold x3
    refine calm_State_setIsl ?_
    assumption

theorem calm_State_alignEvent {s t : State} {a1 : _} {a2 : _} (h : Calm s t) :
    Calm s (State.alignEvent t a1 a2) := by
  unfold State.alignEvent
  split
  · refine calm_State_raise ?_
    refine calm_State_satAdd ?_
    assumption
  · extract_lets +onlyGivenNames x1
    have hx1 : Calm s x1 := ?_
    · clear_value x1
      refine Calm.same (t := x1) ?_ rfl rfl rfl
      assumption
    · unfold x1
      refine calm_State_alignDone ?_
      assumption

end Machine
end Sys2Proof
end

