-- ==== Sys2Proof/Laws/Calm04.lean ====
section
/-!
SUPPORT. Calm: the operations of FieldOps, PairMirror, CbOps, Backbone, SafOps.
-/

set_option Elab.async false

namespace Sys2Proof
namespace Machine

theorem calm_State_aiTake {s t : State} {a1 : _} {a2 : _} (h : Calm s t) :
    Calm s (State.aiTake t a1 a2) := by
  unfold State.aiTake
  refine calm_State_setAi ?_
  assumption

theorem calm_State_applyLoad {s t : State} {a1 : _} {a2 : _} (h : Calm s t) :
    Calm s (State.applyLoad t a1 a2) := by
  unfold State.applyLoad
  extract_lets +onlyGivenNames x1
  clear_value x1
  extract_lets +onlyGivenNames x2
  have hx2 : Calm s x2 := ?_
  · clear_value x2
    refine calm_State_setIsl ?_
    assumption
  · unfold x2
    refine Calm.ite ?_ ?_
    · refine Calm.foldl ?_ (fun u3 y4 hu3 => ?_)
      · assumption
      · refine calm_State_dioTake ?_
        assumption
    · refine Calm.ite ?_ ?_
      · refine calm_State_aiTake ?_
        refine calm_State_aiTake ?_
        assumption
      · assumption

theorem calm_State_applyRearm {s t : State} {a1 : _} {a2 : _} {a3 : _} (h : Calm s t) :
    Calm s (State.applyRearm t a1 a2 a3) := by
  unfold State.applyRearm
  extract_lets +onlyGivenNames x1
  have hx1 : Calm s x1 := ?_
  · clear_value x1
    refine Calm.ite ?_ ?_
    · extract_lets +onlyGivenNames x2
      clear_value x2
      extract_lets +onlyGivenNames x3
      have hx3 : Calm s x3 := ?_
      · clear_value x3
        refine Calm.foldl ?_ (fun u4 y5 hu4 => ?_)
        · assumption
        · refine Calm.ite ?_ ?_
          · refine calm_State_setDio ?_
            assumption
          · assumption
      · unfold x3
        refine calm_State_setIsl ?_
        assumption
    · assumption
  · unfold x1
    refine Calm.foldl ?_ (fun u6 y7 hu6 => ?_)
    · assumption
    · refine Calm.ite ?_ ?_
      · refine calm_State_setDio ?_
        assumption
      · assumption

theorem calm_State_frameEnd {s t : State} {a1 : _} {a2 : _} {a3 : _} {a4 : _} (h : Calm s t) :
    Calm s (State.frameEnd t a1 a2 a3 a4) := by
  unfold State.frameEnd
  extract_lets +onlyGivenNames x1
  clear_value x1
  extract_lets +onlyGivenNames x2
  have hx2 : Calm s x2 := ?_
  · clear_value x2
    extract_lets +onlyGivenNames x3
    clear_value x3
    extract_lets +onlyGivenNames x4
    split
    · refine calm_State_applyOutput ?_
      unfold x4
      refine Calm.ite ?_ ?_
      · refine calm_State_aiAlign ?_
        refine calm_State_aiAlign ?_
        assumption
      · assumption
    · refine Calm.ite ?_ ?_
      · refine calm_State_applyLoad ?_
        assumption
      · assumption
    · refine calm_State_applyChange ?_
      unfold x4
      refine Calm.ite ?_ ?_
      · refine calm_State_aiAlign ?_
        refine calm_State_aiAlign ?_
        assumption
      · assumption
    · refine Calm.ite ?_ ?_
      · refine calm_State_applyRearm ?_
        assumption
      · assumption
    · refine calm_State_islandSafe ?_
      assumption
    · unfold x4
      refine Calm.ite ?_ ?_
      · refine calm_State_aiAlign ?_
        refine calm_State_aiAlign ?_
        assumption
      · assumption
  · unfold x2
    refine calm_State_setIsl ?_
    assumption

theorem calm_State_offPulseEnd {s t : State} {a1 : _} (h : Calm s t) :
    Calm s (State.offPulseEnd t a1) := by
  unfold State.offPulseEnd
  extract_lets +onlyGivenNames x1
  clear_value x1
  extract_lets +onlyGivenNames x2
  have hx2 : Calm s x2 := ?_
  · clear_value x2
    refine Calm.ite ?_ ?_
    · assumption
    · refine calm_State_raise ?_
      refine calm_State_wr ?_
      assumption
  · unfold x2
    refine Calm.same (t := t) ?_ rfl rfl rfl
    assumption

theorem calm_State_testSent {s t : State} {a1 : _} {a2 : _} (h : Calm s t) :
    Calm s (State.testSent t a1 a2) := by
  unfold State.testSent
  extract_lets +onlyGivenNames x1
  extract_lets +onlyGivenNames x2
  extract_lets +onlyGivenNames x3
  have hx3 : Calm s x3 := ?_
  · clear_value x3
    refine Calm.same (t := x3) ?_ rfl rfl rfl
    assumption
  · unfold x3
    refine calm_State_setIsl ?_
    assumption

theorem calm_State_sentContent {s t : State} {a1 : _} {a2 : _} (h : Calm s t) :
    Calm s (State.sentContent t a1 a2) := by
  unfold State.sentContent
  extract_lets +onlyGivenNames x1
  clear_value x1
  split
  · extract_lets +onlyGivenNames x2
    clear_value x2
    refine calm_State_setIsl ?_
    assumption
  · refine calm_State_setIsl ?_
    assumption
  · refine calm_State_testSent ?_
    assumption
  · assumption

theorem calm_State_frameStart {s t : State} {a1 : _} {a2 : _} {a3 : _} {a4 : _} (h : Calm s t) :
    Calm s (State.frameStart t a1 a2 a3 a4) := by
  unfold State.frameStart
  extract_lets +onlyGivenNames x1
  clear_value x1
  extract_lets +onlyGivenNames x2
  have hx2 : Calm s x2 := ?_
  · clear_value x2
    extract_lets +onlyGivenNames x3
    have hx3 : Calm s x3 := ?_
    · clear_value x3
      extract_lets +onlyGivenNames x4
      clear_value x4
      extract_lets +onlyGivenNames x5
      clear_value x5
      refine Calm.ite ?_ ?_
      · assumption
      · refine Calm.ite ?_ ?_
        · extract_lets +onlyGivenNames x6
          clear_value x6
          refine calm_State_downSend ?_
          refine calm_State_sentContent ?_
          assumption
        · refine Calm.ite ?_ ?_
          · refine calm_State_downSend ?_
            refine calm_State_setIsl ?_
            assumption
          · refine calm_State_downSend ?_
            assumption
    · unfold x3
      refine Calm.ite ?_ ?_
      · refine calm_State_linkFault ?_
        assumption
      · assumption
  · unfold x2
    refine calm_State_setIsl ?_
    assumption

theorem calm_State_framesStart {s t : State} {a1 : _} (h : Calm s t) :
    Calm s (State.framesStart t a1) := by
  unfold State.framesStart
  extract_lets +onlyGivenNames x1
  have hx1 : Calm s x1 := ?_
  · clear_value x1
    extract_lets +onlyGivenNames x2
    clear_value x2
    extract_lets +onlyGivenNames x3
    have hx3 : Calm s x3 := ?_
    · clear_value x3
      extract_lets +onlyGivenNames x4
      clear_value x4
      extract_lets +onlyGivenNames x5
      clear_value x5
      extract_lets +onlyGivenNames x6
      have hx6 : Calm s x6 := ?_
      · clear_value x6
        extract_lets +onlyGivenNames x7
        clear_value x7
        extract_lets +onlyGivenNames x8
        have hx8 : Calm s x8 := ?_
        · clear_value x8
          split
          · refine Calm.same (t := x8) ?_ rfl rfl rfl
            assumption
          · assumption
        · unfold x8
          refine Calm.foldl ?_ (fun u9 y10 hu9 => ?_)
          · assumption
          · refine calm_State_frameStart ?_
            assumption
      · unfold x6
        refine Calm.ite ?_ ?_
        · refine Calm.same (t := x3) ?_ rfl rfl rfl
          assumption
        · assumption
    · unfold x3
      refine Calm.same (t := x1) ?_ rfl rfl rfl
      assumption
  · unfold x1
    refine calm_State_alignDone ?_
    assumption

theorem calm_State_testFailed {s t : State} {a1 : _} {a2 : _} {a3 : _} (h : Calm s t) :
    Calm s (State.testFailed t a1 a2 a3) := by
  unfold State.testFailed
  extract_lets +onlyGivenNames x1
  have hx1 : Calm s x1 := ?_
  · clear_value x1
    refine calm_State_raise ?_
    refine calm_State_wr ?_
    assumption
  · unfold x1
    refine calm_State_recNoteWrite ?_
    assumption

theorem calm_State_offPulseSee {s t : State} {a1 : _} {a2 : _} (h : Calm s t) :
    Calm s (State.offPulseSee t a1 a2) := by
  unfold State.offPulseSee
  split
  · assumption
  · split
    · assumption
    · refine Calm.ite ?_ ?_
      · assumption
      · extract_lets +onlyGivenNames x1
        clear_value x1
        refine Calm.same (t := t) ?_ rfl rfl rfl
        assumption

theorem calm_State_linkPairHold {s t : State} {a1 : _} (h : Calm s t) :
    Calm s (State.linkPairHold t a1) := by
  unfold State.linkPairHold
  refine Calm.ite ?_ ?_
  · assumption
  · refine calm_State_setLink ?_
    refine calm_State_linkStop ?_
    assumption

theorem calm_State_pairHold {s t : State} (h : Calm s t) :
    Calm s (State.pairHold t) := by
  unfold State.pairHold
  extract_lets +onlyGivenNames x1
  have hx1 : Calm s x1 := ?_
  · clear_value x1
    refine Calm.same (t := x1) ?_ rfl rfl rfl
    assumption
  · unfold x1
    refine Calm.foldl ?_ (fun u2 y3 hu2 => ?_)
    · assumption
    · refine calm_State_linkPairHold ?_
      assumption

theorem calm_State_flueDrop {s t : State} (h : Calm s t) :
    Calm s (State.flueDrop t) := by
  unfold State.flueDrop
  extract_lets +onlyGivenNames x1
  have hx1 : Calm s x1 := ?_
  · clear_value x1
    extract_lets +onlyGivenNames x2
    have hx2 : Calm s x2 := ?_
    · clear_value x2
      refine Calm.same (t := x2) ?_ rfl rfl rfl
      assumption
    · unfold x2
      refine calm_State_setRecs ?_
      assumption
  · unfold x1
    refine Calm.foldl ?_ (fun u3 y4 hu3 => ?_)
    · assumption
    · refine calm_State_quotaHeld ?_
      assumption

theorem calm_State_lanesOff {s t : State} (h : Calm s t) :
    Calm s (State.lanesOff t) := by
  unfold State.lanesOff
  extract_lets +onlyGivenNames x1
  have hx1 : Calm s x1 := ?_
  · clear_value x1
    extract_lets +onlyGivenNames x2
    have hx2 : Calm s x2 := ?_
    · clear_value x2
      refine Calm.same (t := x2) ?_ rfl rfl rfl
      assumption
    · unfold x2
      refine calm_State_wr ?_
      refine calm_State_wr ?_
      assumption
  · unfold x1
    refine calm_State_wr ?_
    refine calm_State_wr ?_
    assumption

theorem calm_State_rackFloat {s t : State} (h : Calm s t) :
    Calm s (State.rackFloat t) := by
  unfold State.rackFloat
  extract_lets +onlyGivenNames x1
  have hx1 : Calm s x1 := ?_
  · clear_value x1
    refine calm_State_wr ?_
    refine Calm.same (t := x1) ?_ rfl rfl rfl
    assumption
  · unfold x1
    refine calm_State_setCycle ?_
    assumption

theorem calm_State_stopActing {s t : State} (h : Calm s t) :
    Calm s (State.stopActing t) := by
  unfold State.stopActing
  extract_lets +onlyGivenNames x1
  have hx1 : Calm s x1 := ?_
  · clear_value x1
    extract_lets +onlyGivenNames x2
    clear_value x2
    extract_lets +onlyGivenNames x3
    clear_value x3
    extract_lets +onlyGivenNames x4
    clear_value x4
    extract_lets +onlyGivenNames x5
    clear_value x5
    extract_lets +onlyGivenNames x6
    clear_value x6
    extract_lets +onlyGivenNames x7
    have hx7 : Calm s x7 := ?_
    · clear_value x7
      refine calm_State_pairThrottle ?_
      refine calm_State_rackFloat ?_
      refine calm_State_pairHold ?_
      assumption
    · unfold x7
      refine Calm.same (t := x1) ?_ rfl rfl rfl
      assumption
  · unfold x1
    refine calm_State_flueDrop ?_
    refine calm_State_lanesOff ?_
    assumption

theorem calm_State_pairYield {s t : State} (h : Calm s t) :
    Calm s (State.pairYield t) := by
  unfold State.pairYield
  extract_lets +onlyGivenNames x1
  have hx1 : Calm s x1 := ?_
  · clear_value x1
    refine calm_State_pairSet ?_
    refine calm_State_raise ?_
    refine calm_State_satAdd ?_
    assumption
  · unfold x1
    refine calm_State_setRole ?_
    refine calm_State_stopActing ?_
    assumption

theorem calm_State_pairFence {s t : State} {a1 : _} (h : Calm s t) :
    Calm s (State.pairFence t a1) := by
  unfold State.pairFence
  refine calm_State_pairSet ?_
  refine calm_State_setRole ?_
  assumption

theorem calm_State_pairHears {s t : State} {a1 : _} (h : Calm s t) :
    Calm s (State.pairHears t a1) := by
  unfold State.pairHears
  refine Calm.ite ?_ ?_
  · assumption
  · refine Calm.ite ?_ ?_
    · refine calm_State_pairYield ?_
      assumption
    · refine Calm.ite ?_ ?_
      · refine calm_State_pairFence ?_
        assumption
      · assumption

theorem calm_State_cbUnann {s t : State} (h : Calm s t) :
    Calm s (State.cbUnann t) := by
  unfold State.cbUnann
  refine calm_State_wr ?_
  refine calm_State_wr ?_
  refine calm_State_wr ?_
  assumption

theorem calm_State_cbSet {s t : State} {a1 : _} (h : Calm s t) :
    Calm s (State.cbSet t a1) := by
  unfold State.cbSet
  refine Calm.same (t := t) ?_ rfl rfl rfl
  assumption

theorem calm_runCbAnnounce {s t : State} {a0 : _} (h : Calm s t) :
    Calm s (runCbAnnounce a0 t).1 := by
  refine CalmF.out ?_
  unfold runCbAnnounce
  extract_lets +onlyGivenNames x1
  clear_value x1
  extract_lets +onlyGivenNames x2
  clear_value x2
  extract_lets +onlyGivenNames x3
  clear_value x3
  refine CalmF.ite ?_ ?_
  · refine CalmF.pair ?_
    assumption
  · refine CalmF.ite ?_ ?_
    · refine CalmF.ite ?_ ?_
      · refine CalmF.pair ?_
        refine calm_State_cbUnann ?_
        assumption
      · refine CalmF.pair ?_
        assumption
    · refine CalmF.ite ?_ ?_
      · refine CalmF.pair ?_
        assumption
      · refine CalmF.ite ?_ ?_
        · refine CalmF.pair ?_
          assumption
        · extract_lets +onlyGivenNames x4
          have hx4 : Calm s x4 := ?_
          · clear_value x4
            refine CalmF.pair ?_
            refine calm_State_cbSet ?_
            assumption
          · unfold x4
            refine calm_State_wr ?_
            refine calm_State_wr ?_
            refine calm_State_wr ?_
            assumption

theorem calm_State_cbGood {s t : State} {a1 : _} {a2 : _} (h : Calm s t) :
    Calm s (State.cbGood t a1 a2) := by
  unfold State.cbGood
  refine Calm.ite ?_ ?_
  · assumption
  · refine calm_State_raise ?_
    refine calm_State_wr ?_
    assumption

theorem calm_State_cbMissSet {s t : State} {a1 : _} {a2 : _} (h : Calm s t) :
    Calm s (State.cbMissSet t a1 a2) := by
  unfold State.cbMissSet
  extract_lets +onlyGivenNames x1
  have hx1 : Calm s x1 := ?_
  · clear_value x1
    refine calm_State_cbGood ?_
    assumption
  · unfold x1
    refine calm_State_cbSet ?_
    assumption

theorem calm_State_cbGot {s t : State} {a1 : _} (h : Calm s t) :
    Calm s (State.cbGot t a1) := by
  unfold State.cbGot
  refine calm_State_cbMissSet ?_
  refine calm_State_cbSet ?_
  assumption

theorem calm_State_cbSee {s t : State} {a1 : _} {a2 : _} (h : Calm s t) :
    Calm s (State.cbSee t a1 a2) := by
  unfold State.cbSee
  refine calm_State_cbSet ?_
  assumption

theorem calm_State_cbOut {s t : State} {a1 : _} {a2 : _} {a3 : _} {a4 : _} (h : Calm s t) :
    Calm s (State.cbOut t a1 a2 a3 a4) := by
  unfold State.cbOut
  refine calm_State_cbSee ?_
  refine calm_State_cbSet ?_
  refine calm_State_portSend ?_
  assumption

theorem calm_State_cbRelayBuffered {s t : State} {a1 : _} (h : Calm s t) :
    Calm s (State.cbRelayBuffered t a1) := by
  unfold State.cbRelayBuffered
  split
  · assumption
  · refine Calm.ite ?_ ?_
    · extract_lets +onlyGivenNames x1
      have hx1 : Calm s x1 := ?_
      · clear_value x1
        refine Calm.ite ?_ ?_
        · refine calm_State_satAdd ?_
          refine calm_State_cbOut ?_
          assumption
        · assumption
      · unfold x1
        refine calm_State_cbSet ?_
        assumption
    · assumption

theorem calm_State_setCbValid {s t : State} {a1 : _} {a2 : _} (h : Calm s t) :
    Calm s (State.setCbValid t a1 a2) := by
  unfold State.setCbValid
  refine calm_State_wr ?_
  refine calm_State_wr ?_
  assumption

theorem calm_State_cbLoad {s t : State} {a1 : _} (h : Calm s t) :
    Calm s (State.cbLoad t a1) := by
  unfold State.cbLoad
  refine calm_State_doLong (fun _ u1 hu1 => ?_) ?_
  · refine calm_State_wr ?_
    refine calm_State_setCbValid ?_
    assumption
  · assumption

theorem calm_State_setCbWord {s t : State} {a1 : _} {a2 : _} {a3 : _} (h : Calm s t) :
    Calm s (State.setCbWord t a1 a2 a3) := by
  unfold State.setCbWord
  refine Calm.same (t := t) ?_ rfl rfl rfl
  assumption

theorem calm_State_cbBankData {s t : State} {a1 : _} (h : Calm s t) :
    Calm s (State.cbBankData t a1) := by
  unfold State.cbBankData
  refine Calm.ite ?_ ?_
  · assumption
  · extract_lets +onlyGivenNames x1
    clear_value x1
    extract_lets +onlyGivenNames x2
    clear_value x2
    extract_lets +onlyGivenNames x3
    have hx3 : Calm s x3 := ?_
    · clear_value x3
      extract_lets +onlyGivenNames x4
      have hx4 : Calm s x4 := ?_
      · clear_value x4
        refine calm_State_wr ?_
        assumption
      · unfold x4
        refine Calm.ite ?_ ?_
        · refine calm_State_cbSet ?_
          assumption
        · assumption
    · unfold x3
      refine Calm.ite ?_ ?_
      · refine calm_State_setCbWord ?_
        assumption
      · assumption

theorem calm_State_cbByLink {s t : State} (h : Calm s t) :
    Calm s (State.cbByLink t) := by
  unfold State.cbByLink
  refine Calm.ite ?_ ?_
  · refine calm_State_cbGood ?_
    refine calm_State_cbGood ?_
    assumption
  · assumption

theorem calm_State_cbToListen {s t : State} {a1 : _} (h : Calm s t) :
    Calm s (State.cbToListen t a1) := by
  unfold State.cbToListen
  extract_lets +onlyGivenNames x1
  clear_value x1
  extract_lets +onlyGivenNames x2
  have hx2 : Calm s x2 := ?_
  · clear_value x2
    refine Calm.ite ?_ ?_
    · assumption
    · refine calm_State_raise ?_
      assumption
  · unfold x2
    refine calm_State_wr ?_
    refine calm_State_wr ?_
    assumption

theorem calm_State_cbMiss {s t : State} (h : Calm s t) :
    Calm s (State.cbMiss t) := by
  unfold State.cbMiss
  extract_lets +onlyGivenNames x1
  have hx1 : Calm s x1 := ?_
  · clear_value x1
    extract_lets +onlyGivenNames x2
    have hx2 : Calm s x2 := ?_
    · clear_value x2
      extract_lets +onlyGivenNames x3
      clear_value x3
      refine Calm.ite ?_ ?_
      · refine calm_State_raise ?_
        refine calm_State_wr ?_
        assumption
      · refine Calm.ite ?_ ?_
        · refine calm_State_cbToListen ?_
          assumption
        · assumption
    · unfold x2
      refine calm_State_satAdd ?_
      assumption
  · unfold x1
    refine calm_State_cbSet ?_
    assumption

theorem calm_State_cbClear {s t : State} {a1 : _} (h : Calm s t) :
    Calm s (State.cbClear t a1) := by
  unfold State.cbClear
  refine Calm.ite ?_ ?_
  · extract_lets +onlyGivenNames x1
    have hx1 : Calm s x1 := ?_
    · clear_value x1
      refine Calm.foldl ?_ (fun u2 y3 hu2 => ?_)
      · assumption
      · refine Calm.foldl ?_ (fun u4 y5 hu4 => ?_)
        · assumption
        · refine calm_State_setReg ?_
          assumption
    · unfold x1
      refine calm_State_wr ?_
      refine calm_State_setReg ?_
      assumption
  · assumption

theorem calm_State_cbTxEnd {s t : State} {a1 : _} {a2 : _} (h : Calm s t) :
    Calm s (State.cbTxEnd t a1 a2) := by
  unfold State.cbTxEnd
  extract_lets +onlyGivenNames x1
  clear_value x1
  extract_lets +onlyGivenNames x2
  clear_value x2
  extract_lets +onlyGivenNames x3
  have hx3 : Calm s x3 := ?_
  · clear_value x3
    refine calm_State_endLong ?_
    assumption
  · unfold x3
    refine Calm.ite ?_ ?_
    · refine calm_State_satAdd ?_
      assumption
    · assumption

theorem calm_State_cbFrameEnd {s t : State} {a1 : _} (h : Calm s t) :
    Calm s (State.cbFrameEnd t a1) := by
  unfold State.cbFrameEnd
  split
  · assumption
  · refine Calm.ite ?_ ?_
    · assumption
    · extract_lets +onlyGivenNames x1
      have hx1 : Calm s x1 := ?_
      · clear_value x1
        split
        · assumption
        · extract_lets +onlyGivenNames x2
          extract_lets +onlyGivenNames x3
          extract_lets +onlyGivenNames x4
          have hx4 : Calm s x4 := ?_
          · skip
            refine Calm.ite ?_ ?_
            · refine calm_State_cbTxEnd ?_
              assumption
            · assumption
          · unfold x4
            refine calm_State_setOut ?_
            assumption
      · unfold x1
        refine calm_State_cbSet ?_
        assumption

theorem calm_State_cbRawRx {s t : State} {a1 : _} {a2 : _} {a3 : _} (h : Calm s t) :
    Calm s (State.cbRawRx t a1 a2 a3) := by
  unfold State.cbRawRx
  refine Calm.ite ?_ ?_
  · assumption
  · refine Calm.ite ?_ ?_
    · refine calm_State_satAdd ?_
      assumption
    · refine Calm.ite ?_ ?_
      · assumption
      · split
        · refine calm_State_rxDeliver ?_ (by assumption)
          assumption
        · refine calm_State_raise ?_
          refine calm_State_satAdd ?_
          assumption

theorem calm_State_cbToSynced {s t : State} (h : Calm s t) :
    Calm s (State.cbToSynced t) := by
  unfold State.cbToSynced
  extract_lets +onlyGivenNames x1
  clear_value x1
  refine Calm.ite ?_ ?_
  · assumption
  · extract_lets +onlyGivenNames x2
    have hx2 : Calm s x2 := ?_
    · clear_value x2
      extract_lets +onlyGivenNames x3
      have hx3 : Calm s x3 := ?_
      · clear_value x3
        refine calm_State_raise ?_
        assumption
      · unfold x3
        refine Calm.ite ?_ ?_
        · refine calm_State_raise ?_
          assumption
        · assumption
    · unfold x2
      refine calm_State_wr ?_
      refine calm_State_wr ?_
      assumption

theorem calm_State_cbSwap {s t : State} (h : Calm s t) :
    Calm s (State.cbSwap t) := by
  unfold State.cbSwap
  extract_lets +onlyGivenNames x1
  clear_value x1
  refine calm_State_raise ?_
  refine calm_State_wr ?_
  refine calm_State_wr ?_
  assumption

theorem calm_State_cbJudge {s t : State} {a1 : _} {a2 : _} {a3 : _} (h : Calm s t) :
    Calm s (State.cbJudge t a1 a2 a3) := by
  unfold State.cbJudge
  extract_lets +onlyGivenNames x1
  have hx1 : Calm s x1 := ?_
  · clear_value x1
    refine Calm.ite ?_ ?_
    · refine Calm.ite ?_ ?_
      · refine calm_State_cbToSynced ?_
        assumption
      · refine calm_State_cbToListen ?_
        assumption
    · refine Calm.ite ?_ ?_
      · refine Calm.ite ?_ ?_
        · refine calm_State_cbToSynced ?_
          refine calm_State_cbSwap ?_
          assumption
        · refine calm_State_cbToListen ?_
          refine calm_State_cbSwap ?_
          assumption
      · refine Calm.ite ?_ ?_
        · refine Calm.ite ?_ ?_
          · assumption
          · refine calm_State_cbToListen ?_
            assumption
        · refine calm_State_cbToListen ?_
          assumption
  · unfold x1
    refine Calm.ite ?_ ?_
    · assumption
    · refine calm_State_raise ?_
      assumption

theorem calm_State_cbHearAnn {s t : State} {a1 : _} (h : Calm s t) :
    Calm s (State.cbHearAnn t a1) := by
  unfold State.cbHearAnn
  refine Calm.ite ?_ ?_
  · refine calm_State_cbUnann ?_
    assumption
  · extract_lets +onlyGivenNames x1
    clear_value x1
    extract_lets +onlyGivenNames x2
    clear_value x2
    refine Calm.ite ?_ ?_
    · assumption
    · refine calm_State_raise ?_
      refine calm_State_wr ?_
      refine calm_State_wr ?_
      refine calm_State_wr ?_
      assumption

theorem calm_State_cbTakeSync {s t : State} {a1 : _} (h : Calm s t) :
    Calm s (State.cbTakeSync t a1) := by
  unfold State.cbTakeSync
  extract_lets +onlyGivenNames x1
  clear_value x1
  extract_lets +onlyGivenNames x2
  clear_value x2
  extract_lets +onlyGivenNames x3
  have hx3 : Calm s x3 := ?_
  · clear_value x3
    extract_lets +onlyGivenNames x4
    have hx4 : Calm s x4 := ?_
    · clear_value x4
      extract_lets +onlyGivenNames x5
      have hx5 : Calm s x5 := ?_
      · clear_value x5
        extract_lets +onlyGivenNames x6
        have hx6 : Calm s x6 := ?_
        · clear_value x6
          refine calm_State_cbJudge ?_
          refine calm_State_cbHearAnn ?_
          assumption
        · unfold x6
          refine calm_State_cbSet ?_
          assumption
      · unfold x5
        refine calm_State_recEvent ?_
        assumption
    · unfold x4
      refine calm_State_peak ?_
      refine calm_State_wr ?_
      assumption
  · unfold x3
    refine calm_State_wr ?_
    refine calm_State_wr ?_
    refine calm_State_wr ?_
    assumption

theorem calm_State_cbFreezeAt {s t : State} {a1 : _} {a2 : _} {a3 : _} {a4 : _} (h : Calm s t) :
    Calm s (State.cbFreezeAt t a1 a2 a3 a4) := by
  unfold State.cbFreezeAt
  extract_lets +onlyGivenNames x1
  clear_value x1
  refine Calm.ite ?_ ?_
  · refine calm_State_cbSet ?_
    assumption
  · assumption

theorem calm_State_cbFreeze {s t : State} {a1 : _} (h : Calm s t) :
    Calm s (State.cbFreeze t a1) := by
  unfold State.cbFreeze
  refine Calm.ite ?_ ?_
  · extract_lets +onlyGivenNames x1
    clear_value x1
    refine calm_State_cbFreezeAt ?_
    refine calm_State_cbFreezeAt ?_
    assumption
  · assumption

theorem calm_State_cbMarkMissed {s t : State} (h : Calm s t) :
    Calm s (State.cbMarkMissed t) := by
  unfold State.cbMarkMissed
  refine Calm.foldl ?_ (fun u1 y2 hu1 => ?_)
  · assumption
  · refine Calm.ite ?_ ?_
    · refine calm_State_setOut ?_
      assumption
    · assumption

theorem calm_State_cbStartUp {s t : State} {a1 : _} (h : Calm s t) :
    Calm s (State.cbStartUp t a1) := by
  unfold State.cbStartUp
  refine Calm.ite ?_ ?_
  · assumption
  · extract_lets +onlyGivenNames x1
    clear_value x1
    extract_lets +onlyGivenNames x2
    have hx2 : Calm s x2 := ?_
    · clear_value x2
      extract_lets +onlyGivenNames x3
      have hx3 : Calm s x3 := ?_
      · clear_value x3
        extract_lets +onlyGivenNames x4
        have hx4 : Calm s x4 := ?_
        · clear_value x4
          extract_lets +onlyGivenNames x5
          have hx5 : Calm s x5 := ?_
          · clear_value x5
            refine Calm.ite ?_ ?_
            · extract_lets +onlyGivenNames x6
              have hx6 : Calm s x6 := ?_
              · clear_value x6
                refine calm_State_cbByLink ?_
                refine calm_State_cbToSynced ?_
                assumption
              · unfold x6
                refine Calm.ite ?_ ?_
                · assumption
                · refine calm_State_wr ?_
                  refine calm_State_wr ?_
                  assumption
            · refine calm_State_wr ?_
              assumption
          · unfold x5
            refine Calm.ite ?_ ?_
            · assumption
            · refine calm_State_wr ?_
              assumption
        · unfold x4
          refine Calm.ite ?_ ?_
          · refine calm_State_setCbValid ?_
            assumption
          · assumption
      · unfold x3
        refine calm_State_wr ?_
        refine calm_State_setCbValid ?_
        assumption
    · unfold x2
      refine calm_State_cbSet ?_
      assumption

theorem calm_State_cbChanEnd {s t : State} (h : Calm s t) :
    Calm s (State.cbChanEnd t) := by
  unfold State.cbChanEnd
  extract_lets +onlyGivenNames x1
  clear_value x1
  extract_lets +onlyGivenNames x2
  have hx2 : Calm s x2 := ?_
  · clear_value x2
    extract_lets +onlyGivenNames x3
    have hx3 : Calm s x3 := ?_
    · clear_value x3
      refine calm_State_cbSet ?_
      assumption
    · unfold x3
      refine Calm.ite ?_ ?_
      · assumption
      · refine calm_State_cbMissSet ?_
        assumption
  · unfold x2
    refine Calm.ite ?_ ?_
    · assumption
    · refine calm_State_cbMissSet ?_
      assumption

theorem calm_State_cbActivate {s t : State} (h : Calm s t) :
    Calm s (State.cbActivate t) := by
  unfold State.cbActivate
  refine Calm.ite ?_ ?_
  · extract_lets +onlyGivenNames x1
    clear_value x1
    extract_lets +onlyGivenNames x2
    have hx2 : Calm s x2 := ?_
    · clear_value x2
      refine Calm.ite ?_ ?_
      · refine calm_State_cbSwap ?_
        assumption
      · refine Calm.ite ?_ ?_
        · assumption
        · refine calm_State_cbToListen ?_
          assumption
    · unfold x2
      refine calm_State_cbUnann ?_
      assumption
  · assumption

theorem calm_State_cbCycle {s t : State} (h : Calm s t) :
    Calm s (State.cbCycle t) := by
  unfold State.cbCycle
  extract_lets +onlyGivenNames x1
  have hx1 : Calm s x1 := ?_
  · clear_value x1
    extract_lets +onlyGivenNames x2
    have hx2 : Calm s x2 := ?_
    · clear_value x2
      extract_lets +onlyGivenNames x3
      have hx3 : Calm s x3 := ?_
      · clear_value x3
        extract_lets +onlyGivenNames x4
        clear_value x4
        extract_lets +onlyGivenNames x5
        have hx5 : Calm s x5 := ?_
        · clear_value x5
          extract_lets +onlyGivenNames x6
          clear_value x6
          extract_lets +onlyGivenNames x7
          have hx7 : Calm s x7 := ?_
          · clear_value x7
            extract_lets +onlyGivenNames x8
            have hx8 : Calm s x8 := ?_
            · clear_value x8
              refine Calm.ite ?_ ?_
              · refine calm_State_enterSafe ?_
                assumption
              · assumption
            · unfold x8
              refine calm_State_cbActivate ?_
              assumption
          · unfold x7
            refine Calm.ite ?_ ?_
            · refine calm_State_wr ?_
              refine calm_State_wr ?_
              assumption
            · refine calm_State_wr ?_
              assumption
        · unfold x5
          refine calm_State_cbSet ?_
          assumption
      · unfold x3
        refine calm_State_cbMarkMissed ?_
        assumption
    · unfold x2
      refine Calm.ite ?_ ?_
      · refine calm_State_cbChanEnd ?_
        assumption
      · assumption
  · unfold x1
    refine Calm.ite ?_ ?_
    · refine calm_State_cbMiss ?_
      assumption
    · assumption

theorem calm_State_cbFires {s t : State} {a1 : _} (h : Calm s t) :
    Calm s (State.cbFires t a1) := by
  unfold State.cbFires
  refine Calm.ite ?_ ?_
  · refine calm_State_cbCycle ?_
    assumption
  · assumption

theorem calm_State_cbRelay {s t : State} {a1 : _} {a2 : _} {a3 : _} (h : Calm s t) :
    Calm s (State.cbRelay t a1 a2 a3) := by
  unfold State.cbRelay
  extract_lets +onlyGivenNames x1
  clear_value x1
  refine Calm.ite ?_ ?_
  · assumption
  · extract_lets +onlyGivenNames x2
    have hx2 : Calm s x2 := ?_
    · clear_value x2
      refine Calm.ite ?_ ?_
      · refine calm_State_raise ?_
        refine calm_State_satAdd ?_
        assumption
      · extract_lets +onlyGivenNames x3
        have hx3 : Calm s x3 := ?_
        · clear_value x3
          refine Calm.ite ?_ ?_
          · assumption
          · refine Calm.ite ?_ ?_
            · refine calm_State_raise ?_
              refine calm_State_satAdd ?_
              assumption
            · refine Calm.ite ?_ ?_
              · refine calm_State_cbSet ?_
                assumption
              · refine calm_State_satAdd ?_
                refine calm_State_cbOut ?_
                assumption
        · unfold x3
          refine calm_State_pairHears ?_
          assumption
    · unfold x2
      refine calm_State_cbSee ?_
      assumption

theorem calm_runCbStatus {s t : State} {a0 : _} (h : Calm s t) :
    Calm s (runCbStatus a0 t).1 := by
  refine CalmF.out ?_
  unfold runCbStatus
  refine CalmF.ite ?_ ?_
  · refine CalmF.pair ?_
    assumption
  · extract_lets +onlyGivenNames x1
    clear_value x1
    refine CalmF.pair ?_
    refine calm_State_outBuf ?_
    assumption

theorem calm_State_cbLoadDone {s t : State} (h : Calm s t) :
    Calm s (State.cbLoadDone t) := by
  unfold State.cbLoadDone
  extract_lets +onlyGivenNames x1
  clear_value x1
  split
  · assumption
  · refine Calm.ite ?_ ?_
    · assumption
    · extract_lets +onlyGivenNames x2
      clear_value x2
      extract_lets +onlyGivenNames x3
      have hx3 : Calm s x3.2 := ?_
      · clear_value x3
        extract_lets +onlyGivenNames x4
        have hx4 : Calm s x4 := ?_
        · clear_value x4
          extract_lets +onlyGivenNames x5
          refine Calm.ite ?_ ?_
          · unfold x5
            extract_lets +onlyGivenNames x6
            have hx6 : Calm s x6 := ?_
            · clear_value x6
              refine calm_State_wr ?_
              assumption
            · unfold x6
              refine calm_State_endLong ?_
              assumption
          · extract_lets +onlyGivenNames x7
            have hx7 : Calm s x7 := ?_
            · clear_value x7
              refine Calm.ite ?_ ?_
              · unfold x5
                extract_lets +onlyGivenNames x8
                have hx8 : Calm s x8 := ?_
                · clear_value x8
                  refine calm_State_wr ?_
                  assumption
                · unfold x8
                  refine calm_State_endLong ?_
                  assumption
              · refine Calm.ite ?_ ?_
                · unfold x5
                  extract_lets +onlyGivenNames x9
                  have hx9 : Calm s x9 := ?_
                  · clear_value x9
                    refine calm_State_wr ?_
                    assumption
                  · unfold x9
                    refine calm_State_endLong ?_
                    assumption
                · unfold x5
                  extract_lets +onlyGivenNames x10
                  have hx10 : Calm s x10 := ?_
                  · clear_value x10
                    refine calm_State_wr ?_
                    assumption
                  · unfold x10
                    refine calm_State_endLong ?_
                    refine calm_State_setCbValid ?_
                    assumption
            · unfold x7
              refine Calm.foldl ?_ (fun u11 y12 hu11 => ?_)
              · refine calm_State_setCbValid ?_
                assumption
              · refine calm_State_setCbWord ?_
                assumption
        · unfold x4
          assumption
      · unfold x3
        refine calm_State_readCheck ?_
        assumption

theorem calm_State_cbTxTake {s t : State} {a1 : _} (h : Calm s t) :
    Calm s (State.cbTxTake t a1) := by
  unfold State.cbTxTake
  extract_lets +onlyGivenNames x1
  clear_value x1
  refine calm_State_doLong (fun _ u2 hu2 => ?_) ?_
  · extract_lets +onlyGivenNames x3
    clear_value x3
    extract_lets +onlyGivenNames x4
    clear_value x4
    refine calm_State_setOut ?_
    assumption
  · assumption

theorem calm_State_cbSyncMissed {s t : State} (h : Calm s t) :
    Calm s (State.cbSyncMissed t) := by
  unfold State.cbSyncMissed
  refine Calm.ite ?_ ?_
  · refine calm_State_cbMiss ?_
    assumption
  · assumption

theorem calm_State_cbTxExpiry {s t : State} {a1 : _} (h : Calm s t) :
    Calm s (State.cbTxExpiry t a1) := by
  unfold State.cbTxExpiry
  extract_lets +onlyGivenNames x1
  clear_value x1
  split
  · assumption
  · refine Calm.ite ?_ ?_
    · assumption
    · refine Calm.ite ?_ ?_
      · refine calm_State_cbTxEnd ?_
        assumption
      · refine Calm.ite ?_ ?_
        · refine calm_State_cbTxEnd ?_
          assumption
        · refine calm_State_cbTxEnd ?_
          assumption

theorem calm_State_cbSetupCheck {s t : State} (h : Calm s t) :
    Calm s (State.cbSetupCheck t).2 := by
  refine CalmS.out ?_
  unfold State.cbSetupCheck
  refine CalmS.ite ?_ ?_
  · refine CalmS.pair ?_
    assumption
  · split
    · refine CalmS.pair ?_
      assumption
    · refine CalmS.pair ?_
      refine calm_State_raise ?_
      refine calm_State_wr ?_
      refine calm_State_wr ?_
      assumption

theorem calm_State_cbLinkChange {s t : State} {a1 : _} {a2 : _} (h : Calm s t) :
    Calm s (State.cbLinkChange t a1 a2) := by
  unfold State.cbLinkChange
  refine Calm.ite ?_ ?_
  · assumption
  · extract_lets +onlyGivenNames x1
    have hx1 : Calm s x1 := ?_
    · clear_value x1
      extract_lets +onlyGivenNames x2
      have hx2 : Calm s x2 := ?_
      · clear_value x2
        refine calm_State_cbByLink ?_
        refine calm_State_raise ?_
        assumption
      · unfold x2
        refine Calm.ite ?_ ?_
        · refine Calm.foldl ?_ (fun u3 y4 hu3 => ?_)
          · assumption
          · refine calm_State_setOut ?_
            assumption
        · assumption
    · unfold x1
      refine calm_State_wr ?_
      assumption

theorem calm_State_cbSyncRx {s t : State} {a1 : _} {a2 : _} {a3 : _} (h : Calm s t) :
    Calm s (State.cbSyncRx t a1 a2 a3) := by
  unfold State.cbSyncRx
  refine Calm.ite ?_ ?_
  · assumption
  · refine Calm.ite ?_ ?_
    · refine calm_State_satAdd ?_
      assumption
    · refine Calm.ite ?_ ?_
      · refine calm_State_satAdd ?_
        assumption
      · refine Calm.ite ?_ ?_
        · refine calm_State_satAdd ?_
          assumption
        · refine Calm.ite ?_ ?_
          · assumption
          · extract_lets +onlyGivenNames x1
            have hx1 : Calm s x1 := ?_
            · clear_value x1
              refine Calm.ite ?_ ?_
              · refine calm_State_satAdd ?_
                assumption
              · refine calm_State_cbTakeSync ?_
                assumption
            · unfold x1
              refine calm_State_cbGot ?_
              refine calm_State_satAdd ?_
              assumption

theorem calm_State_cbDataRx {s t : State} {a1 : _} {a2 : _} {a3 : _} (h : Calm s t) :
    Calm s (State.cbDataRx t a1 a2 a3) := by
  unfold State.cbDataRx
  refine Calm.ite ?_ ?_
  · assumption
  · refine Calm.ite ?_ ?_
    · refine calm_State_satAdd ?_
      assumption
    · extract_lets +onlyGivenNames x1
      clear_value x1
      refine Calm.ite ?_ ?_
      · refine calm_State_satAdd ?_
        assumption
      · extract_lets +onlyGivenNames x2
        have hx2 : Calm s x2 := ?_
        · clear_value x2
          split
          · refine calm_State_satAdd ?_
            assumption
          · extract_lets +onlyGivenNames x3
            extract_lets +onlyGivenNames x4
            extract_lets +onlyGivenNames x5
            clear_value x5
            refine Calm.ite ?_ ?_
            · refine calm_State_satAdd ?_
              assumption
            · refine Calm.ite ?_ ?_
              · refine calm_State_satAdd ?_
                assumption
              · refine calm_State_publish ?_
                refine calm_State_setDs ?_
                refine calm_State_setDs ?_
                assumption
        · unfold x2
          refine calm_State_satAdd ?_
          assumption

theorem calm_cbAnnounce {s t : State} {a0 : _} (h : Calm s t) :
    Calm s (cbAnnounce a0 t) := by
  unfold cbAnnounce
  refine calm_State_doShort (fun _ u1 hu1 => ?_) ?_
  · refine calm_runCbAnnounce ?_
    assumption
  · assumption

theorem calm_cbBankDataWrite {s t : State} {a0 : _} {a1 : _} (h : Calm s t) :
    Calm s (cbBankDataWrite a0 a1 t) := by
  unfold cbBankDataWrite
  refine calm_State_cbBankData ?_
  assumption

theorem calm_cbLinkChange {s t : State} {a0 : _} {a1 : _} (h : Calm s t) :
    Calm s (cbLinkChange a0 a1 t) := by
  unfold cbLinkChange
  refine calm_State_cbLinkChange ?_
  assumption

theorem calm_cbRawRx {s t : State} {a0 : _} {a1 : _} {a2 : _} (h : Calm s t) :
    Calm s (cbRawRx a0 a1 a2 t) := by
  unfold cbRawRx
  refine calm_State_cbRawRx ?_
  assumption

theorem calm_execCbRawRx {s t : State} {a0 : _} {a1 : _} {a2 : _} {u : State} (h : Calm s t)
    (e : execCbRawRx a0 a1 a2 t = .next u) : Calm s u := by
  unfold execCbRawRx at e
  injection e with e
  subst e
  refine calm_cbRawRx ?_
  assumption

theorem calm_cbTx {s t : State} {a0 : _} (h : Calm s t) :
    Calm s (cbTx a0 t) := by
  unfold cbTx
  refine calm_State_cbTxTake ?_
  assumption

theorem calm_execCbAnnounce {s t : State} {a0 : _} {u : State} (h : Calm s t)
    (e : execCbAnnounce a0 t = .next u) : Calm s u := by
  unfold execCbAnnounce at e
  injection e with e
  subst e
  refine calm_cbAnnounce ?_
  assumption

theorem calm_cbSyncRx {s t : State} {a0 : _} {a1 : _} {a2 : _} (h : Calm s t) :
    Calm s (cbSyncRx a0 a1 a2 t) := by
  unfold cbSyncRx
  refine calm_State_cbSyncRx ?_
  assumption

theorem calm_cbSyncMissed {s t : State} (h : Calm s t) :
    Calm s (cbSyncMissed t) := by
  unfold cbSyncMissed
  refine calm_State_cbSyncMissed ?_
  assumption

theorem calm_cbStatus {s t : State} {a0 : _} (h : Calm s t) :
    Calm s (cbStatus a0 t) := by
  unfold cbStatus
  refine calm_State_doShort (fun _ u1 hu1 => ?_) ?_
  · refine calm_runCbStatus ?_
    assumption
  · assumption

theorem calm_cbSchedLoadDone {s t : State} (h : Calm s t) :
    Calm s (cbSchedLoadDone t) := by
  unfold cbSchedLoadDone
  refine calm_State_cbLoadDone ?_
  assumption

theorem calm_execCbSchedLoadDone {s t : State} {u : State} (h : Calm s t)
    (e : execCbSchedLoadDone t = .next u) : Calm s u := by
  unfold execCbSchedLoadDone at e
  injection e with e
  subst e
  refine calm_cbSchedLoadDone ?_
  assumption

theorem calm_cbTxExpiry {s t : State} {a0 : _} (h : Calm s t) :
    Calm s (cbTxExpiry a0 t) := by
  unfold cbTxExpiry
  refine calm_State_cbTxExpiry ?_
  assumption

theorem calm_cbRxPost {s t : State} {a0 : _} (h : Calm s t) :
    Calm s (cbRxPost a0 t) := by
  unfold cbRxPost
  refine calm_State_doLong (fun _ u1 hu1 => ?_) ?_
  · assumption
  · assumption

theorem calm_cbRelayBuffered {s t : State} {a0 : _} (h : Calm s t) :
    Calm s (cbRelayBuffered a0 t) := by
  unfold cbRelayBuffered
  refine calm_State_cbRelayBuffered ?_
  assumption

theorem calm_execCbRxPost {s t : State} {a0 : _} {u : State} (h : Calm s t)
    (e : execCbRxPost a0 t = .next u) : Calm s u := by
  unfold execCbRxPost at e
  injection e with e
  subst e
  refine calm_cbRxPost ?_
  assumption

theorem calm_cbClr {s t : State} {a0 : _} {a1 : _} (h : Calm s t) :
    Calm s (cbClr a0 a1 t) := by
  unfold cbClr
  refine calm_State_cbClear ?_
  assumption

theorem calm_cbRelay {s t : State} {a0 : _} {a1 : _} {a2 : _} (h : Calm s t) :
    Calm s (cbRelay a0 a1 a2 t) := by
  unfold cbRelay
  refine calm_State_cbRelay ?_
  assumption

theorem calm_execCbRelay {s t : State} {a0 : _} {a1 : _} {a2 : _} {u : State} (h : Calm s t)
    (e : execCbRelay a0 a1 a2 t = .next u) : Calm s u := by
  unfold execCbRelay at e
  injection e with e
  subst e
  refine calm_cbRelay ?_
  assumption

theorem calm_cbSchedLoad {s t : State} {a0 : _} (h : Calm s t) :
    Calm s (cbSchedLoad a0 t) := by
  unfold cbSchedLoad
  refine calm_State_cbLoad ?_
  assumption

theorem calm_execCbSchedLoad {s t : State} {a0 : _} {u : State} (h : Calm s t)
    (e : execCbSchedLoad a0 t = .next u) : Calm s u := by
  unfold execCbSchedLoad at e
  injection e with e
  subst e
  refine calm_cbSchedLoad ?_
  assumption

theorem calm_execCbSyncRx {s t : State} {a0 : _} {a1 : _} {a2 : _} {u : State} (h : Calm s t)
    (e : execCbSyncRx a0 a1 a2 t = .next u) : Calm s u := by
  unfold execCbSyncRx at e
  injection e with e
  subst e
  refine calm_cbSyncRx ?_
  assumption

theorem calm_cbDataRx {s t : State} {a0 : _} {a1 : _} {a2 : _} (h : Calm s t) :
    Calm s (cbDataRx a0 a1 a2 t) := by
  unfold cbDataRx
  refine calm_State_cbDataRx ?_
  assumption

theorem calm_cbImageFreeze {s t : State} {a0 : _} (h : Calm s t) :
    Calm s (cbImageFreeze a0 t) := by
  unfold cbImageFreeze
  refine calm_State_cbFreeze ?_
  assumption

theorem calm_execCbTx {s t : State} {a0 : _} {u : State} (h : Calm s t)
    (e : execCbTx a0 t = .next u) : Calm s u := by
  unfold execCbTx at e
  injection e with e
  subst e
  refine calm_cbTx ?_
  assumption

theorem calm_execCbDataRx {s t : State} {a0 : _} {a1 : _} {a2 : _} {u : State} (h : Calm s t)
    (e : execCbDataRx a0 a1 a2 t = .next u) : Calm s u := by
  unfold execCbDataRx at e
  injection e with e
  subst e
  refine calm_cbDataRx ?_
  assumption

theorem calm_execCbLinkChange {s t : State} {a0 : _} {a1 : _} {u : State} (h : Calm s t)
    (e : execCbLinkChange a0 a1 t = .next u) : Calm s u := by
  unfold execCbLinkChange at e
  injection e with e
  subst e
  refine calm_cbLinkChange ?_
  assumption

theorem calm_execCbBankDataWrite {s t : State} {a0 : _} {a1 : _} {u : State} (h : Calm s t)
    (e : execCbBankDataWrite a0 a1 t = .next u) : Calm s u := by
  unfold execCbBankDataWrite at e
  injection e with e
  subst e
  refine calm_State_arrive (fun u1 hu1 => ?_) ?_
  · refine calm_cbBankDataWrite ?_
    assumption
  · assumption

theorem calm_execCbStatus {s t : State} {a0 : _} {u : State} (h : Calm s t)
    (e : execCbStatus a0 t = .next u) : Calm s u := by
  unfold execCbStatus at e
  injection e with e
  subst e
  refine calm_cbStatus ?_
  assumption

theorem calm_execCbSyncMissed {s t : State} {u : State} (h : Calm s t)
    (e : execCbSyncMissed t = .next u) : Calm s u := by
  unfold execCbSyncMissed at e
  injection e with e
  subst e
  refine calm_cbSyncMissed ?_
  assumption

theorem calm_execCbRelayBuffered {s t : State} {a0 : _} {u : State} (h : Calm s t)
    (e : execCbRelayBuffered a0 t = .next u) : Calm s u := by
  unfold execCbRelayBuffered at e
  injection e with e
  subst e
  refine calm_cbRelayBuffered ?_
  assumption

theorem calm_execCbClr {s t : State} {a0 : _} {a1 : _} {u : State} (h : Calm s t)
    (e : execCbClr a0 a1 t = .next u) : Calm s u := by
  unfold execCbClr at e
  injection e with e
  subst e
  refine calm_State_arrive (fun u1 hu1 => ?_) ?_
  · refine calm_cbClr ?_
    assumption
  · assumption

theorem calm_execCbTxExpiry {s t : State} {a0 : _} {u : State} (h : Calm s t)
    (e : execCbTxExpiry a0 t = .next u) : Calm s u := by
  unfold execCbTxExpiry at e
  injection e with e
  subst e
  refine calm_cbTxExpiry ?_
  assumption

theorem calm_execCbImageFreeze {s t : State} {a0 : _} {u : State} (h : Calm s t)
    (e : execCbImageFreeze a0 t = .next u) : Calm s u := by
  unfold execCbImageFreeze at e
  injection e with e
  subst e
  refine calm_cbImageFreeze ?_
  assumption

theorem calm_State_setSafCh {s t : State} {a1 : _} {a2 : _} {a3 : _} (h : Calm s t) :
    Calm s (State.setSafCh t a1 a2 a3) := by
  unfold State.setSafCh
  refine Calm.same (t := t) ?_ rfl rfl rfl
  assumption

theorem calm_State_safTpNote {s t : State} {a1 : _} {a2 : _} {a3 : _} (h : Calm s t) :
    Calm s (State.safTpNote t a1 a2 a3) := by
  unfold State.safTpNote
  refine calm_State_raise ?_
  refine calm_State_satAdd ?_
  assumption

theorem calm_State_safMark {s t : State} {a1 : _} {a2 : _} {a3 : _} (h : Calm s t) :
    Calm s (State.safMark t a1 a2 a3) := by
  unfold State.safMark
  extract_lets +onlyGivenNames x1
  clear_value x1
  extract_lets +onlyGivenNames x2
  have hx2 : Calm s x2 := ?_
  · clear_value x2
    refine Calm.ite ?_ ?_
    · refine calm_State_safTpNote ?_
      assumption
    · refine Calm.ite ?_ ?_
      · refine calm_State_safTpNote ?_
        assumption
      · refine Calm.ite ?_ ?_
        · refine calm_State_satAdd ?_
          assumption
        · assumption
  · unfold x2
    refine calm_State_setSafCh ?_
    refine calm_State_wr ?_
    assumption

theorem calm_State_safAllow {s t : State} {a1 : _} {a2 : _} {a3 : _} (h : Calm s t) :
    Calm s (State.safAllow t a1 a2 a3) := by
  unfold State.safAllow
  refine calm_State_wr ?_
  assumption

theorem calm_State_safBoth {s t : State} {a1 : _} {a2 : _} (h : Calm s t) :
    Calm s (State.safBoth t a1 a2) := by
  unfold State.safBoth
  refine calm_State_safAllow ?_
  refine calm_State_safAllow ?_
  assumption

theorem calm_State_safShow {s t : State} (h : Calm s t) :
    Calm s (State.safShow t) := by
  unfold State.safShow
  extract_lets +onlyGivenNames x1
  clear_value x1
  refine calm_State_wr ?_
  refine calm_State_wr ?_
  assumption

theorem calm_State_safTo {s t : State} {a1 : _} {a2 : _} (h : Calm s t) :
    Calm s (State.safTo t a1 a2) := by
  unfold State.safTo
  extract_lets +onlyGivenNames x1
  clear_value x1
  refine Calm.ite ?_ ?_
  · assumption
  · refine calm_State_raise ?_
    refine calm_State_safShow ?_
    refine calm_State_wr ?_
    assumption

theorem calm_State_safDemand {s t : State} {a1 : _} (h : Calm s t) :
    Calm s (State.safDemand t a1) := by
  unfold State.safDemand
  extract_lets +onlyGivenNames x1
  clear_value x1
  extract_lets +onlyGivenNames x2
  clear_value x2
  extract_lets +onlyGivenNames x3
  clear_value x3
  refine Calm.ite ?_ ?_
  · refine Calm.ite ?_ ?_
    · assumption
    · refine calm_State_safTo ?_
      refine calm_State_safBoth ?_
      assumption
  · refine Calm.ite ?_ ?_
    · refine Calm.ite ?_ ?_
      · refine calm_State_safTo ?_
        refine calm_State_safBoth ?_
        assumption
      · assumption
    · refine Calm.ite ?_ ?_
      · refine Calm.ite ?_ ?_
        · refine calm_State_safAllow ?_
          assumption
        · refine Calm.ite ?_ ?_
          · refine calm_State_safAllow ?_
            assumption
          · assumption
      · assumption

theorem calm_State_safRun {s t : State} {a1 : _} (h : Calm s t) :
    Calm s (State.safRun t a1) := by
  unfold State.safRun
  refine calm_State_safTo ?_
  refine calm_State_wr ?_
  refine calm_State_safBoth ?_
  assumption

theorem calm_State_setSafBlk {s t : State} {a1 : _} {a2 : _} (h : Calm s t) :
    Calm s (State.setSafBlk t a1 a2) := by
  unfold State.setSafBlk
  refine Calm.same (t := t) ?_ rfl rfl rfl
  assumption

theorem calm_State_safClearFaults {s t : State} {a1 : _} (h : Calm s t) :
    Calm s (State.safClearFaults t a1) := by
  unfold State.safClearFaults
  extract_lets +onlyGivenNames x1
  refine calm_State_setSafBlk ?_
  refine calm_State_wr ?_
  refine calm_State_wr ?_
  unfold x1
  refine calm_State_setSafCh ?_
  refine calm_State_wr ?_
  refine calm_State_setSafCh ?_
  refine calm_State_wr ?_
  assumption

theorem calm_State_safResetBlock {s t : State} {a1 : _} (h : Calm s t) :
    Calm s (State.safResetBlock t a1).1 := by
  refine CalmF.out ?_
  unfold State.safResetBlock
  extract_lets +onlyGivenNames x1
  clear_value x1
  extract_lets +onlyGivenNames x2
  clear_value x2
  extract_lets +onlyGivenNames x3
  clear_value x3
  refine CalmF.ite ?_ ?_
  · refine CalmF.pair ?_
    assumption
  · refine CalmF.ite ?_ ?_
    · refine CalmF.ite ?_ ?_
      · refine CalmF.pair ?_
        refine calm_State_safRun ?_
        assumption
      · refine CalmF.pair ?_
        assumption
    · refine CalmF.ite ?_ ?_
      · refine CalmF.ite ?_ ?_
        · refine CalmF.pair ?_
          assumption
        · refine CalmF.ite ?_ ?_
          · refine CalmF.pair ?_
            refine calm_State_wr ?_
            refine calm_State_safAllow ?_
            assumption
          · refine CalmF.pair ?_
            refine calm_State_safRun ?_
            refine calm_State_safClearFaults ?_
            assumption
      · refine CalmF.ite ?_ ?_
        · refine CalmF.pair ?_
          assumption
        · extract_lets +onlyGivenNames x4
          have hx4 : Calm s x4 := ?_
          · clear_value x4
            refine CalmF.ite ?_ ?_
            · refine CalmF.pair ?_
              refine calm_State_safRun ?_
              assumption
            · refine CalmF.pair ?_
              refine calm_State_safTo ?_
              refine calm_State_wr ?_
              assumption
          · unfold x4
            refine calm_State_safClearFaults ?_
            assumption

theorem calm_State_safDegrade {s t : State} {a1 : _} {a2 : _} {a3 : _} (h : Calm s t) :
    Calm s (State.safDegrade t a1 a2 a3) := by
  unfold State.safDegrade
  extract_lets +onlyGivenNames x1
  clear_value x1
  extract_lets +onlyGivenNames x2
  have hx2 : Calm s x2 := ?_
  · clear_value x2
    extract_lets +onlyGivenNames x3
    have hx3 : Calm s x3 := ?_
    · clear_value x3
      refine calm_State_raise ?_
      refine calm_State_safTo ?_
      assumption
    · unfold x3
      refine calm_State_setSafBlk ?_
      refine calm_State_wr ?_
      assumption
  · unfold x2
    refine calm_State_wr ?_
    refine calm_State_safAllow ?_
    assumption

theorem calm_State_safTimers {s t : State} {a1 : _} (h : Calm s t) :
    Calm s (State.safTimers t a1) := by
  unfold State.safTimers
  extract_lets +onlyGivenNames x1
  extract_lets +onlyGivenNames x2
  have hx2 : Calm s x2 := ?_
  · clear_value x2
    extract_lets +onlyGivenNames x3
    clear_value x3
    extract_lets +onlyGivenNames x4
    clear_value x4
    extract_lets +onlyGivenNames x5
    have hx5 : Calm s x5 := ?_
    · clear_value x5
      refine Calm.ite ?_ ?_
      · refine calm_State_wr ?_
        assumption
      · assumption
    · unfold x5
      refine calm_State_setSafBlk ?_
      assumption
  · unfold x2
    unfold x1
    refine Calm.ite ?_ ?_
    · refine Calm.ite ?_ ?_
      · assumption
      · extract_lets +onlyGivenNames x6
        clear_value x6
        refine calm_State_setSafCh ?_
        assumption
    · extract_lets +onlyGivenNames x7
      extract_lets +onlyGivenNames x8
      clear_value x8
      refine calm_State_setSafCh ?_
      refine Calm.ite ?_ ?_
      · assumption
      · refine calm_State_setSafCh ?_
        assumption

theorem calm_State_safLock {s t : State} (h : Calm s t) :
    Calm s (State.safLock t) := by
  unfold State.safLock
  refine Calm.foldl ?_ (fun u1 y2 hu1 => ?_)
  · assumption
  · refine Calm.ite ?_ ?_
    · refine calm_State_safTo ?_
      refine calm_State_wr ?_
      refine calm_State_safBoth ?_
      assumption
    · assumption

theorem calm_State_safTrip {s t : State} {a1 : _} {a2 : _} {a3 : _} (h : Calm s t) :
    Calm s (State.safTrip t a1 a2 a3) := by
  unfold State.safTrip
  extract_lets +onlyGivenNames x1
  have hx1 : Calm s x1 := ?_
  · clear_value x1
    extract_lets +onlyGivenNames x2
    have hx2 : Calm s x2 := ?_
    · clear_value x2
      extract_lets +onlyGivenNames x3
      clear_value x3
      extract_lets +onlyGivenNames x4
      have hx4 : Calm s x4 := ?_
      · clear_value x4
        refine Calm.ite ?_ ?_
        · refine calm_State_enterSafe ?_
          assumption
        · assumption
      · unfold x4
        refine calm_State_raise ?_
        refine calm_State_safTo ?_
        assumption
    · unfold x2
      refine calm_State_setSafBlk ?_
      refine calm_State_wr ?_
      assumption
  · unfold x1
    refine calm_State_wr ?_
    refine calm_State_safBoth ?_
    assumption

theorem calm_State_safFault {s t : State} {a1 : _} {a2 : _} {a3 : _} (h : Calm s t) :
    Calm s (State.safFault t a1 a2 a3) := by
  unfold State.safFault
  refine Calm.ite ?_ ?_
  · assumption
  · extract_lets +onlyGivenNames x1
    have hx1 : Calm s x1 := ?_
    · clear_value x1
      refine Calm.ite ?_ ?_
      · assumption
      · refine Calm.ite ?_ ?_
        · refine calm_State_safTrip ?_
          assumption
        · refine calm_State_safDegrade ?_
          assumption
    · unfold x1
      refine calm_State_safMark ?_
      assumption

theorem calm_State_safJudge {s t : State} {a1 : _} (h : Calm s t) :
    Calm s (State.safJudge t a1) := by
  unfold State.safJudge
  extract_lets +onlyGivenNames x1
  clear_value x1
  extract_lets +onlyGivenNames x2
  clear_value x2
  refine Calm.ite ?_ ?_
  · extract_lets +onlyGivenNames x3
    have hx3 : Calm s x3 := ?_
    · clear_value x3
      refine Calm.ite ?_ ?_
      · assumption
      · refine calm_State_safTrip ?_
        assumption
    · unfold x3
      refine calm_State_safMark ?_
      refine calm_State_safMark ?_
      assumption
  · refine Calm.ite ?_ ?_
    · refine calm_State_safFault ?_
      assumption
    · refine Calm.ite ?_ ?_
      · refine calm_State_safFault ?_
        assumption
      · assumption

end Machine
end Sys2Proof
end

