-- ==== Sys2Proof/Laws/Calm05.lean ====
section
/-!
SUPPORT. Calm: the operations of SafOps, Wake, Field, Loops, Saf.
-/

set_option Elab.async false

namespace Sys2Proof
namespace Machine

theorem calm_State_safCheckFails {s t : State} {a1 : _} {a2 : _} (h : Calm s t) :
    Calm s (State.safCheckFails t a1 a2) := by
  unfold State.safCheckFails
  refine Calm.ite ?_ ?_
  · refine calm_State_safTpNote ?_
    assumption
  · refine calm_State_safFault ?_
    assumption

theorem calm_State_safSleep {s t : State} (h : Calm s t) :
    Calm s (State.safSleep t) := by
  unfold State.safSleep
  refine Calm.foldl ?_ (fun u1 y2 hu1 => ?_)
  · assumption
  · refine Calm.ite ?_ ?_
    · refine calm_State_safTo ?_
      refine calm_State_wr ?_
      refine calm_State_safBoth ?_
      assumption
    · refine Calm.ite ?_ ?_
      · refine calm_State_safTrip ?_
        assumption
      · assumption

theorem calm_State_safEvalBlock {s t : State} {a1 : _} (h : Calm s t) :
    Calm s (State.safEvalBlock t a1) := by
  unfold State.safEvalBlock
  refine Calm.ite ?_ ?_
  · assumption
  · refine calm_State_safDemand ?_
    refine calm_State_safTimers ?_
    refine calm_State_safJudge ?_
    assumption

theorem calm_State_safSampleCh {s t : State} {a1 : _} {a2 : _} {a3 : _} {a4 : _} (h : Calm s t) :
    Calm s (State.safSampleCh t a1 a2 a3 a4) := by
  unfold State.safSampleCh
  extract_lets +onlyGivenNames x1
  clear_value x1
  extract_lets +onlyGivenNames x2
  clear_value x2
  extract_lets +onlyGivenNames x3
  clear_value x3
  extract_lets +onlyGivenNames x4
  clear_value x4
  refine Calm.ite ?_ ?_
  · refine calm_State_setSafCh ?_
    assumption
  · refine Calm.ite ?_ ?_
    · refine calm_State_setSafCh ?_
      assumption
    · refine Calm.ite ?_ ?_
      · refine calm_State_setSafCh ?_
        assumption
      · refine calm_State_setSafCh ?_
        assumption

theorem calm_State_safSample {s t : State} {a1 : _} {a2 : _} {a3 : _} (h : Calm s t) :
    Calm s (State.safSample t a1 a2 a3) := by
  unfold State.safSample
  refine Calm.ite ?_ ?_
  · assumption
  · refine Calm.foldl ?_ (fun u1 y2 hu1 => ?_)
    · assumption
    · refine Calm.ite ?_ ?_
      · assumption
      · refine Calm.foldl ?_ (fun u3 y4 hu3 => ?_)
        · assumption
        · extract_lets +onlyGivenNames x5
          clear_value x5
          refine Calm.ite ?_ ?_
          · refine calm_State_safSampleCh ?_
            assumption
          · assumption

theorem calm_State_wakePend {s t : State} {a1 : _} (h : Calm s t) :
    Calm s (State.wakePend t a1) := by
  unfold State.wakePend
  refine calm_State_wr ?_
  assumption

theorem calm_State_wakeRecord {s t : State} {a1 : _} {a2 : _} {a3 : _} (h : Calm s t) :
    Calm s (State.wakeRecord t a1 a2 a3) := by
  unfold State.wakeRecord
  extract_lets +onlyGivenNames x1
  have hx1 : Calm s x1 := ?_
  · clear_value x1
    refine calm_State_wr64 ?_
    assumption
  · unfold x1
    refine calm_State_wr ?_
    refine calm_State_wr ?_
    refine calm_State_wr ?_
    assumption

theorem calm_dioOffdiagCheck {s t : State} {a0 : _} {a1 : _} {a2 : _} (h : Calm s t) :
    Calm s (dioOffdiagCheck a0 a1 a2 t) := by
  unfold dioOffdiagCheck
  extract_lets +onlyGivenNames x1
  clear_value x1
  refine Calm.ite ?_ ?_
  · extract_lets +onlyGivenNames x2
    clear_value x2
    extract_lets +onlyGivenNames x3
    clear_value x3
    extract_lets +onlyGivenNames x4
    clear_value x4
    refine calm_State_setDio ?_
    assumption
  · assumption

theorem calm_islandFrameApply {s t : State} {a0 : _} {a1 : _} (h : Calm s t) :
    Calm s (islandFrameApply a0 a1 t) := by
  unfold islandFrameApply
  extract_lets +onlyGivenNames x1
  clear_value x1
  split
  · refine Calm.ite ?_ ?_
    · extract_lets +onlyGivenNames x2
      have hx2 : Calm s x2 := ?_
      · clear_value x2
        refine Calm.ite ?_ ?_
        · refine calm_State_alignDone ?_
          assumption
        · assumption
      · unfold x2
        refine calm_State_frameEnd ?_
        assumption
    · assumption
  · assumption

theorem calm_runFldRearm {s t : State} {a0 : _} (h : Calm s t) :
    Calm s (runFldRearm a0 t).1 := by
  refine CalmF.out ?_
  unfold runFldRearm
  extract_lets +onlyGivenNames x1
  clear_value x1
  refine CalmF.ite ?_ ?_
  · refine CalmF.pair ?_
    assumption
  · split
    · refine CalmF.pair ?_
      assumption
    · refine CalmF.ite ?_ ?_
      · refine CalmF.pair ?_
        assumption
      · extract_lets +onlyGivenNames x2
        clear_value x2
        refine CalmF.pair ?_
        refine calm_State_setIsl ?_
        assumption

theorem calm_fldRearm {s t : State} (h : Calm s t) :
    Calm s (fldRearm t) := by
  unfold fldRearm
  refine calm_State_doShort (fun _ u1 hu1 => ?_) ?_
  · refine calm_runFldRearm ?_
    assumption
  · assumption

theorem calm_execFldRearm {s t : State} {u : State} (h : Calm s t)
    (e : execFldRearm t = .next u) : Calm s u := by
  unfold execFldRearm at e
  injection e with e
  subst e
  refine calm_fldRearm ?_
  assumption

theorem calm_fldClr {s t : State} {a0 : _} {a1 : _} (h : Calm s t) :
    Calm s (fldClr a0 a1 t) := by
  unfold fldClr
  refine Calm.ite ?_ ?_
  · refine Calm.foldl ?_ (fun u1 y2 hu1 => ?_)
    · assumption
    · refine calm_State_wr ?_
      refine calm_State_wr ?_
      assumption
  · assumption

theorem calm_execFldClr {s t : State} {a0 : _} {a1 : _} {u : State} (h : Calm s t)
    (e : execFldClr a0 a1 t = .next u) : Calm s u := by
  unfold execFldClr at e
  injection e with e
  subst e
  refine calm_State_arrive (fun u1 hu1 => ?_) ?_
  · refine calm_fldClr ?_
    assumption
  · assumption

theorem calm_dioExtFeed {s t : State} {a0 : _} {a1 : _} (h : Calm s t) :
    Calm s (dioExtFeed a0 a1 t) := by
  unfold dioExtFeed
  extract_lets +onlyGivenNames x1
  clear_value x1
  refine Calm.ite ?_ ?_
  · assumption
  · refine Calm.ite ?_ ?_
    · refine calm_State_setDio ?_
      assumption
    · refine Calm.ite ?_ ?_
      · refine calm_State_setDio ?_
        assumption
      · assumption

theorem calm_execDioExtFeed {s t : State} {a0 : _} {a1 : _} {u : State} (h : Calm s t)
    (e : execDioExtFeed a0 a1 t = .next u) : Calm s u := by
  unfold execDioExtFeed at e
  injection e with e
  subst e
  refine calm_dioExtFeed ?_
  assumption

theorem calm_runFldWrite {s t : State} {a0 : _} (h : Calm s t) :
    Calm s (runFldWrite a0 t).1 := by
  refine CalmF.out ?_
  unfold runFldWrite
  extract_lets +onlyGivenNames x1
  clear_value x1
  refine CalmF.ite ?_ ?_
  · refine CalmF.pair ?_
    assumption
  · split
    · refine CalmF.pair ?_
      assumption
    · refine CalmF.ite ?_ ?_
      · refine CalmF.pair ?_
        assumption
      · refine CalmF.ite ?_ ?_
        · refine CalmF.pair ?_
          assumption
        · refine CalmF.ite ?_ ?_
          · refine CalmF.pair ?_
            assumption
          · refine CalmF.pair ?_
            refine calm_State_islandOut ?_
            assumption

theorem calm_fldWrite {s t : State} (h : Calm s t) :
    Calm s (fldWrite t) := by
  unfold fldWrite
  refine calm_State_doShort (fun _ u1 hu1 => ?_) ?_
  · refine calm_runFldWrite ?_
    assumption
  · assumption

theorem calm_execFldWrite {s t : State} {u : State} (h : Calm s t)
    (e : execFldWrite t = .next u) : Calm s u := by
  unfold execFldWrite at e
  injection e with e
  subst e
  refine calm_fldWrite ?_
  assumption

theorem calm_State_crcCount {s t : State} {a1 : _} {a2 : _} {a3 : _} (h : Calm s t) :
    Calm s (State.crcCount t a1 a2 a3) := by
  unfold State.crcCount
  refine Calm.ite ?_ ?_
  · refine calm_State_satAdd ?_
    assumption
  · assumption

theorem calm_fldFrameLost {s t : State} {a0 : _} {a1 : _} {a2 : _} (h : Calm s t) :
    Calm s (fldFrameLost a0 a1 a2 t) := by
  unfold fldFrameLost
  extract_lets +onlyGivenNames x1
  clear_value x1
  refine Calm.ite ?_ ?_
  · assumption
  · refine Calm.ite ?_ ?_
    · split
      · assumption
      · refine Calm.ite ?_ ?_
        · assumption
        · extract_lets +onlyGivenNames x2
          have hx2 : Calm s x2 := ?_
          · clear_value x2
            refine Calm.ite ?_ ?_
            · refine calm_State_linkFault ?_
              assumption
            · assumption
          · unfold x2
            refine calm_State_crcCount ?_
            refine calm_State_setIsl ?_
            assumption
    · split
      · assumption
      · refine Calm.ite ?_ ?_
        · assumption
        · refine calm_State_crcCount ?_
          refine calm_State_setIsl ?_
          assumption

theorem calm_execFldFrameLost {s t : State} {a0 : _} {a1 : _} {a2 : _} {u : State} (h : Calm s t)
    (e : execFldFrameLost a0 a1 a2 t = .next u) : Calm s u := by
  unfold execFldFrameLost at e
  injection e with e
  subst e
  refine calm_fldFrameLost ?_
  assumption

theorem calm_diVsChange {s t : State} {a0 : _} (h : Calm s t) :
    Calm s (diVsChange a0 t) := by
  unfold diVsChange
  extract_lets +onlyGivenNames x1
  clear_value x1
  refine Calm.ite ?_ ?_
  · extract_lets +onlyGivenNames x2
    clear_value x2
    extract_lets +onlyGivenNames x3
    clear_value x3
    extract_lets +onlyGivenNames x4
    have hx4 : Calm s x4 := ?_
    · clear_value x4
      refine Calm.ite ?_ ?_
      · refine calm_State_raise ?_
        assumption
      · assumption
    · unfold x4
      refine calm_State_setIsl ?_
      assumption
  · assumption

theorem calm_execDiVsChange {s t : State} {a0 : _} {u : State} (h : Calm s t)
    (e : execDiVsChange a0 t = .next u) : Calm s u := by
  unfold execDiVsChange at e
  injection e with e
  subst e
  refine calm_diVsChange ?_
  assumption

theorem calm_pwmRampTick {s t : State} (h : Calm s t) :
    Calm s (pwmRampTick t) := by
  unfold pwmRampTick
  refine Calm.ite ?_ ?_
  · extract_lets +onlyGivenNames x1
    clear_value x1
    extract_lets +onlyGivenNames x2
    have hx2 : Calm s x2 := ?_
    · clear_value x2
      refine Calm.foldl ?_ (fun u3 y4 hu3 => ?_)
      · assumption
      · refine Calm.foldl ?_ (fun u5 y6 hu5 => ?_)
        · assumption
        · extract_lets +onlyGivenNames x7
          clear_value x7
          refine Calm.ite ?_ ?_
          · refine calm_State_setDio ?_
            assumption
          · assumption
    · unfold x2
      refine Calm.same (t := t) ?_ rfl rfl rfl
      assumption
  · assumption

theorem calm_execPwmRampTick {s t : State} {u : State} (h : Calm s t)
    (e : execPwmRampTick t = .next u) : Calm s u := by
  unfold execPwmRampTick at e
  injection e with e
  subst e
  refine calm_pwmRampTick ?_
  assumption

theorem calm_dioOndiagMeasure {s t : State} {a0 : _} {a1 : _} {a2 : _} (h : Calm s t) :
    Calm s (dioOndiagMeasure a0 a1 a2 t) := by
  unfold dioOndiagMeasure
  extract_lets +onlyGivenNames x1
  clear_value x1
  refine Calm.ite ?_ ?_
  · extract_lets +onlyGivenNames x2
    clear_value x2
    extract_lets +onlyGivenNames x3
    clear_value x3
    refine calm_State_setDio ?_
    assumption
  · assumption

theorem calm_runFldLinkRestart {s t : State} {a0 : _} (h : Calm s t) :
    Calm s (runFldLinkRestart a0 t).1 := by
  refine CalmF.out ?_
  unfold runFldLinkRestart
  extract_lets +onlyGivenNames x1
  clear_value x1
  refine CalmF.ite ?_ ?_
  · refine CalmF.pair ?_
    assumption
  · split
    · refine CalmF.pair ?_
      assumption
    · refine CalmF.ite ?_ ?_
      · refine CalmF.pair ?_
        assumption
      · refine CalmF.ite ?_ ?_
        · refine CalmF.pair ?_
          assumption
        · refine CalmF.pair ?_
          refine calm_State_linkLoad ?_
          assumption

theorem calm_fldLinkRestart {s t : State} (h : Calm s t) :
    Calm s (fldLinkRestart t) := by
  unfold fldLinkRestart
  refine calm_State_doShort (fun _ u1 hu1 => ?_) ?_
  · refine calm_runFldLinkRestart ?_
    assumption
  · assumption

theorem calm_State_dioRestart {s t : State} {a1 : _} {a2 : _} (h : Calm s t) :
    Calm s (State.dioRestart t a1 a2) := by
  unfold State.dioRestart
  extract_lets +onlyGivenNames x1
  clear_value x1
  refine Calm.ite ?_ ?_
  · refine calm_State_setDio ?_
    assumption
  · assumption

theorem calm_dioShortDetect {s t : State} {a0 : _} {a1 : _} {a2 : _} (h : Calm s t) :
    Calm s (dioShortDetect a0 a1 a2 t) := by
  unfold dioShortDetect
  extract_lets +onlyGivenNames x1
  clear_value x1
  extract_lets +onlyGivenNames x2
  clear_value x2
  refine Calm.ite ?_ ?_
  · assumption
  · refine Calm.ite ?_ ?_
    · refine Calm.ite ?_ ?_
      · refine calm_State_setDio ?_
        assumption
      · assumption
    · refine Calm.ite ?_ ?_
      · refine calm_State_setDio ?_
        assumption
      · assumption

theorem calm_fldUplinkFrame {s t : State} {a0 : _} {a1 : _} (h : Calm s t) :
    Calm s (fldUplinkFrame a0 a1 t) := by
  unfold fldUplinkFrame
  split
  · refine Calm.ite ?_ ?_
    · extract_lets +onlyGivenNames x1
      have hx1 : Calm s x1 := ?_
      · clear_value x1
        extract_lets +onlyGivenNames x2
        have hx2 : Calm s x2 := ?_
        · clear_value x2
          extract_lets +onlyGivenNames x3
          have hx3 : Calm s x3 := ?_
          · clear_value x3
            extract_lets +onlyGivenNames x4
            have hx4 : Calm s x4 := ?_
            · clear_value x4
              refine calm_State_linkHeard ?_
              assumption
            · unfold x4
              refine calm_State_offPulseSee ?_
              assumption
          · unfold x3
            refine calm_State_safSample ?_
            assumption
        · unfold x2
          refine Calm.ite ?_ ?_
          · refine calm_State_testFailed ?_
            assumption
          · assumption
      · unfold x1
        refine calm_State_heldUpdate ?_
        assumption
    · assumption
  · assumption

theorem calm_fldSetFunc {s t : State} (h : Calm s t) :
    Calm s (fldSetFunc t) := by
  unfold fldSetFunc
  refine calm_State_doLong (fun _ u1 hu1 => ?_) ?_
  · refine calm_State_setOut ?_
    assumption
  · assumption

theorem calm_dioThermalShutdown {s t : State} {a0 : _} {a1 : _} (h : Calm s t) :
    Calm s (dioThermalShutdown a0 a1 t) := by
  unfold dioThermalShutdown
  extract_lets +onlyGivenNames x1
  clear_value x1
  refine Calm.ite ?_ ?_
  · assumption
  · extract_lets +onlyGivenNames x2
    clear_value x2
    extract_lets +onlyGivenNames x3
    clear_value x3
    refine calm_State_setDio ?_
    assumption

theorem calm_runFldRead {s t : State} {a0 : _} (h : Calm s t) :
    Calm s (runFldRead a0 t).1 := by
  refine CalmF.out ?_
  unfold runFldRead
  extract_lets +onlyGivenNames x1
  clear_value x1
  refine CalmF.ite ?_ ?_
  · refine CalmF.pair ?_
    assumption
  · split
    · refine CalmF.pair ?_
      assumption
    · refine CalmF.ite ?_ ?_
      · refine CalmF.pair ?_
        refine calm_State_outBuf ?_
        assumption
      · refine CalmF.pair ?_
        assumption

theorem calm_State_dioTrip {s t : State} {a1 : _} {a2 : _} (h : Calm s t) :
    Calm s (State.dioTrip t a1 a2) := by
  unfold State.dioTrip
  refine calm_State_setDio ?_
  assumption

theorem calm_fldDownlinkFrame {s t : State} {a0 : _} (h : Calm s t) :
    Calm s (fldDownlinkFrame a0 t) := by
  unfold fldDownlinkFrame
  refine Calm.ite ?_ ?_
  · refine calm_State_framesStart ?_
    assumption
  · assumption

theorem calm_execDioThermalShutdown {s t : State} {a0 : _} {a1 : _} {u : State} (h : Calm s t)
    (e : execDioThermalShutdown a0 a1 t = .next u) : Calm s u := by
  unfold execDioThermalShutdown at e
  injection e with e
  subst e
  refine calm_dioThermalShutdown ?_
  assumption

theorem calm_execDioOffdiagCheck {s t : State} {a0 : _} {a1 : _} {a2 : _} {u : State} (h : Calm s t)
    (e : execDioOffdiagCheck a0 a1 a2 t = .next u) : Calm s u := by
  unfold execDioOffdiagCheck at e
  injection e with e
  subst e
  refine calm_dioOffdiagCheck ?_
  assumption

theorem calm_execFldDownlinkFrame {s t : State} {a0 : _} {u : State} (h : Calm s t)
    (e : execFldDownlinkFrame a0 t = .next u) : Calm s u := by
  unfold execFldDownlinkFrame at e
  injection e with e
  subst e
  refine calm_fldDownlinkFrame ?_
  assumption

theorem calm_dioGroupOc {s t : State} {a0 : _} {a1 : _} (h : Calm s t) :
    Calm s (dioGroupOc a0 a1 t) := by
  unfold dioGroupOc
  extract_lets +onlyGivenNames x1
  clear_value x1
  refine Calm.ite ?_ ?_
  · refine calm_State_setIsl ?_
    assumption
  · assumption

theorem calm_dioGroupTrip {s t : State} {a0 : _} (h : Calm s t) :
    Calm s (dioGroupTrip a0 t) := by
  unfold dioGroupTrip
  refine Calm.ite ?_ ?_
  · extract_lets +onlyGivenNames x1
    have hx1 : Calm s x1 := ?_
    · clear_value x1
      refine calm_State_setIsl ?_
      assumption
    · unfold x1
      refine Calm.foldl ?_ (fun u2 y3 hu2 => ?_)
      · assumption
      · refine calm_State_dioTrip ?_
        assumption
  · assumption

theorem calm_fldRead {s t : State} (h : Calm s t) :
    Calm s (fldRead t) := by
  unfold fldRead
  refine calm_State_doShort (fun _ u1 hu1 => ?_) ?_
  · refine calm_runFldRead ?_
    assumption
  · assumption

theorem calm_dioThermalCool {s t : State} {a0 : _} {a1 : _} (h : Calm s t) :
    Calm s (dioThermalCool a0 a1 t) := by
  unfold dioThermalCool
  extract_lets +onlyGivenNames x1
  clear_value x1
  refine Calm.ite ?_ ?_
  · refine calm_State_dioRestart ?_
    refine calm_State_setDio ?_
    assumption
  · assumption

theorem calm_execDioThermalCool {s t : State} {a0 : _} {a1 : _} {u : State} (h : Calm s t)
    (e : execDioThermalCool a0 a1 t = .next u) : Calm s u := by
  unfold execDioThermalCool at e
  injection e with e
  subst e
  refine calm_dioThermalCool ?_
  assumption

theorem calm_pwmPeriodStart {s t : State} {a0 : _} {a1 : _} (h : Calm s t) :
    Calm s (pwmPeriodStart a0 a1 t) := by
  unfold pwmPeriodStart
  extract_lets +onlyGivenNames x1
  clear_value x1
  refine Calm.ite ?_ ?_
  · extract_lets +onlyGivenNames x2
    clear_value x2
    extract_lets +onlyGivenNames x3
    clear_value x3
    refine calm_State_setDio ?_
    assumption
  · assumption

theorem calm_execFldLinkRestart {s t : State} {u : State} (h : Calm s t)
    (e : execFldLinkRestart t = .next u) : Calm s u := by
  unfold execFldLinkRestart at e
  injection e with e
  subst e
  refine calm_fldLinkRestart ?_
  assumption

theorem calm_execFldSetFunc {s t : State} {u : State} (h : Calm s t)
    (e : execFldSetFunc t = .next u) : Calm s u := by
  unfold execFldSetFunc at e
  injection e with e
  subst e
  refine calm_fldSetFunc ?_
  assumption

theorem calm_execDioGroupTrip {s t : State} {a0 : _} {u : State} (h : Calm s t)
    (e : execDioGroupTrip a0 t = .next u) : Calm s u := by
  unfold execDioGroupTrip at e
  injection e with e
  subst e
  refine calm_dioGroupTrip ?_
  assumption

theorem calm_execFldUplinkFrame {s t : State} {a0 : _} {a1 : _} {u : State} (h : Calm s t)
    (e : execFldUplinkFrame a0 a1 t = .next u) : Calm s u := by
  unfold execFldUplinkFrame at e
  injection e with e
  subst e
  refine calm_fldUplinkFrame ?_
  assumption

theorem calm_dioRetryTimer {s t : State} {a0 : _} {a1 : _} (h : Calm s t) :
    Calm s (dioRetryTimer a0 a1 t) := by
  unfold dioRetryTimer
  refine Calm.ite ?_ ?_
  · refine calm_State_dioRestart ?_
    assumption
  · assumption

theorem calm_dioVdoLow {s t : State} {a0 : _} (h : Calm s t) :
    Calm s (dioVdoLow a0 t) := by
  unfold dioVdoLow
  extract_lets +onlyGivenNames x1
  clear_value x1
  refine Calm.ite ?_ ?_
  · assumption
  · refine Calm.ite ?_ ?_
    · refine calm_State_setIsl ?_
      assumption
    · refine Calm.ite ?_ ?_
      · refine calm_State_setIsl ?_
        assumption
      · assumption

theorem calm_State_fskSilent {s t : State} {a1 : _} (h : Calm s t) :
    Calm s (State.fskSilent t a1) := by
  unfold State.fskSilent
  extract_lets +onlyGivenNames x1
  clear_value x1
  extract_lets +onlyGivenNames x2
  refine Calm.ite ?_ ?_
  · unfold x2
    refine calm_State_aiGoOn ?_
    refine calm_State_aiAbort ?_
    refine calm_State_aiGoOn ?_
    refine calm_State_aiAbort ?_
    assumption
  · assumption

theorem calm_islandLinkLoss {s t : State} {a0 : _} (h : Calm s t) :
    Calm s (islandLinkLoss a0 t) := by
  unfold islandLinkLoss
  extract_lets +onlyGivenNames x1
  clear_value x1
  refine Calm.ite ?_ ?_
  · refine calm_State_fskSilent ?_
    refine calm_State_islandSafe ?_
    refine calm_State_setIsl ?_
    assumption
  · assumption

theorem calm_execIslandLinkLoss {s t : State} {a0 : _} {u : State} (h : Calm s t)
    (e : execIslandLinkLoss a0 t = .next u) : Calm s u := by
  unfold execIslandLinkLoss at e
  injection e with e
  subst e
  refine calm_islandLinkLoss ?_
  assumption

theorem calm_execPwmPeriodStart {s t : State} {a0 : _} {a1 : _} {u : State} (h : Calm s t)
    (e : execPwmPeriodStart a0 a1 t = .next u) : Calm s u := by
  unfold execPwmPeriodStart at e
  injection e with e
  subst e
  refine calm_pwmPeriodStart ?_
  assumption

theorem calm_execDioRetryTimer {s t : State} {a0 : _} {a1 : _} {u : State} (h : Calm s t)
    (e : execDioRetryTimer a0 a1 t = .next u) : Calm s u := by
  unfold execDioRetryTimer at e
  injection e with e
  subst e
  refine calm_dioRetryTimer ?_
  assumption

theorem calm_execDioShortDetect {s t : State} {a0 : _} {a1 : _} {a2 : _} {u : State} (h : Calm s t)
    (e : execDioShortDetect a0 a1 a2 t = .next u) : Calm s u := by
  unfold execDioShortDetect at e
  injection e with e
  subst e
  refine calm_dioShortDetect ?_
  assumption

theorem calm_execDioVdoLow {s t : State} {a0 : _} {u : State} (h : Calm s t)
    (e : execDioVdoLow a0 t = .next u) : Calm s u := by
  unfold execDioVdoLow at e
  injection e with e
  subst e
  refine calm_dioVdoLow ?_
  assumption

theorem calm_execFldRead {s t : State} {u : State} (h : Calm s t)
    (e : execFldRead t = .next u) : Calm s u := by
  unfold execFldRead at e
  injection e with e
  subst e
  refine calm_fldRead ?_
  assumption

theorem calm_execDioOndiagMeasure {s t : State} {a0 : _} {a1 : _} {a2 : _} {u : State} (h : Calm s t)
    (e : execDioOndiagMeasure a0 a1 a2 t = .next u) : Calm s u := by
  unfold execDioOndiagMeasure at e
  injection e with e
  subst e
  refine calm_dioOndiagMeasure ?_
  assumption

theorem calm_execDioGroupOc {s t : State} {a0 : _} {a1 : _} {u : State} (h : Calm s t)
    (e : execDioGroupOc a0 a1 t = .next u) : Calm s u := by
  unfold execDioGroupOc at e
  injection e with e
  subst e
  refine calm_dioGroupOc ?_
  assumption

theorem calm_execIslandFrameApply {s t : State} {a0 : _} {a1 : _} {u : State} (h : Calm s t)
    (e : execIslandFrameApply a0 a1 t = .next u) : Calm s u := by
  unfold execIslandFrameApply at e
  injection e with e
  subst e
  refine calm_islandFrameApply ?_
  assumption

theorem calm_State_aiRise {s t : State} {a1 : _} {a2 : _} {a3 : _} (h : Calm s t) :
    Calm s (State.aiRise t a1 a2 a3) := by
  unfold State.aiRise
  refine Calm.ite ?_ ?_
  · refine calm_State_raise ?_
    assumption
  · assumption

theorem calm_aiParkWindow {s t : State} {a0 : _} {a1 : _} (h : Calm s t) :
    Calm s (aiParkWindow a0 a1 t) := by
  unfold aiParkWindow
  refine Calm.ite ?_ ?_
  · refine calm_State_aiRise ?_
    refine calm_State_setAi ?_
    assumption
  · assumption

theorem calm_execAiParkWindow {s t : State} {a0 : _} {a1 : _} {u : State} (h : Calm s t)
    (e : execAiParkWindow a0 a1 t = .next u) : Calm s u := by
  unfold execAiParkWindow at e
  injection e with e
  subst e
  refine calm_aiParkWindow ?_
  assumption

theorem calm_aiVlpLow {s t : State} {a0 : _} {a1 : _} (h : Calm s t) :
    Calm s (aiVlpLow a0 a1 t) := by
  unfold aiVlpLow
  refine Calm.ite ?_ ?_
  · extract_lets +onlyGivenNames x1
    clear_value x1
    extract_lets +onlyGivenNames x2
    have hx2 : Calm s x2 := ?_
    · clear_value x2
      refine calm_State_aiRise ?_
      refine calm_State_aiRise ?_
      assumption
    · unfold x2
      refine calm_State_setIsl ?_
      assumption
  · assumption

theorem calm_fskCharRx {s t : State} {a0 : _} {a1 : _} {a2 : _} {a3 : _} (h : Calm s t) :
    Calm s (fskCharRx a0 a1 a2 a3 t) := by
  unfold fskCharRx
  split
  · extract_lets +onlyGivenNames x1
    clear_value x1
    refine Calm.ite ?_ ?_
    · extract_lets +onlyGivenNames x2
      have hx2 : Calm s x2 := ?_
      · clear_value x2
        refine calm_State_setOut ?_
        assumption
      · unfold x2
        refine calm_State_outBuf ?_
        assumption
    · assumption
  · assumption

theorem calm_aiSupLimit {s t : State} {a0 : _} {a1 : _} (h : Calm s t) :
    Calm s (aiSupLimit a0 a1 t) := by
  unfold aiSupLimit
  refine Calm.ite ?_ ?_
  · refine calm_State_aiRise ?_
    refine calm_State_setAi ?_
    assumption
  · assumption

theorem calm_fskCarrierDetect {s t : State} {a0 : _} (h : Calm s t) :
    Calm s (fskCarrierDetect a0 t) := by
  unfold fskCarrierDetect
  refine Calm.ite ?_ ?_
  · extract_lets +onlyGivenNames x1
    clear_value x1
    extract_lets +onlyGivenNames x2
    have hx2 : Calm s x2 := ?_
    · clear_value x2
      split
      · refine calm_State_setOut ?_
        assumption
      · assumption
    · unfold x2
      refine calm_State_setAi ?_
      assumption
  · assumption

theorem calm_fskTxEnd {s t : State} {a0 : _} (h : Calm s t) :
    Calm s (fskTxEnd a0 t) := by
  unfold fskTxEnd
  split
  · refine Calm.ite ?_ ?_
    · refine Calm.ite ?_ ?_
      · refine calm_State_aiEnd ?_
        assumption
      · refine Calm.ite ?_ ?_
        · refine calm_State_setOut ?_
          assumption
        · refine calm_State_setOut ?_
          assumption
    · assumption
  · assumption

theorem calm_execFskTxEnd {s t : State} {a0 : _} {u : State} (h : Calm s t)
    (e : execFskTxEnd a0 t = .next u) : Calm s u := by
  unfold execFskTxEnd at e
  injection e with e
  subst e
  refine calm_fskTxEnd ?_
  assumption

theorem calm_execAiVlpLow {s t : State} {a0 : _} {a1 : _} {u : State} (h : Calm s t)
    (e : execAiVlpLow a0 a1 t = .next u) : Calm s u := by
  unfold execAiVlpLow at e
  injection e with e
  subst e
  refine calm_aiVlpLow ?_
  assumption

theorem calm_fldFskXfer {s t : State} (h : Calm s t) :
    Calm s (fldFskXfer t) := by
  unfold fldFskXfer
  refine calm_State_doLong (fun _ u1 hu1 => ?_) ?_
  · refine calm_State_aiStart ?_
    assumption
  · assumption

theorem calm_fldAiCapture {s t : State} (h : Calm s t) :
    Calm s (fldAiCapture t) := by
  unfold fldAiCapture
  refine calm_State_doLong (fun _ u1 hu1 => ?_) ?_
  · refine calm_State_aiStart ?_
    assumption
  · assumption

theorem calm_execFldAiCapture {s t : State} {u : State} (h : Calm s t)
    (e : execFldAiCapture t = .next u) : Calm s u := by
  unfold execFldAiCapture at e
  injection e with e
  subst e
  refine calm_fldAiCapture ?_
  assumption

theorem calm_execFldFskXfer {s t : State} {u : State} (h : Calm s t)
    (e : execFldFskXfer t = .next u) : Calm s u := by
  unfold execFldFskXfer at e
  injection e with e
  subst e
  refine calm_fldFskXfer ?_
  assumption

theorem calm_execFskCharRx {s t : State} {a0 : _} {a1 : _} {a2 : _} {a3 : _} {u : State} (h : Calm s t)
    (e : execFskCharRx a0 a1 a2 a3 t = .next u) : Calm s u := by
  unfold execFskCharRx at e
  injection e with e
  subst e
  refine calm_fskCharRx ?_
  assumption

theorem calm_fskRxTimeout {s t : State} {a0 : _} (h : Calm s t) :
    Calm s (fskRxTimeout a0 t) := by
  unfold fskRxTimeout
  split
  · refine Calm.ite ?_ ?_
    · refine calm_State_aiEnd ?_
      assumption
    · assumption
  · assumption

theorem calm_execFskRxTimeout {s t : State} {a0 : _} {u : State} (h : Calm s t)
    (e : execFskRxTimeout a0 t = .next u) : Calm s u := by
  unfold execFskRxTimeout at e
  injection e with e
  subst e
  refine calm_fskRxTimeout ?_
  assumption

theorem calm_fldAiSyncStatClr {s t : State} {a0 : _} {a1 : _} (h : Calm s t) :
    Calm s (fldAiSyncStatClr a0 a1 t) := by
  unfold fldAiSyncStatClr
  refine Calm.ite ?_ ?_
  · refine calm_State_wr ?_
    refine calm_State_wr ?_
    assumption
  · assumption

theorem calm_execFldAiSyncStatClr {s t : State} {a0 : _} {a1 : _} {u : State} (h : Calm s t)
    (e : execFldAiSyncStatClr a0 a1 t = .next u) : Calm s u := by
  unfold execFldAiSyncStatClr at e
  injection e with e
  subst e
  refine calm_State_arrive (fun u1 hu1 => ?_) ?_
  · refine calm_fldAiSyncStatClr ?_
    assumption
  · assumption

theorem calm_aiOpenLoop {s t : State} {a0 : _} {a1 : _} (h : Calm s t) :
    Calm s (aiOpenLoop a0 a1 t) := by
  unfold aiOpenLoop
  refine Calm.ite ?_ ?_
  · refine calm_State_aiRise ?_
    refine calm_State_setAi ?_
    assumption
  · assumption

theorem calm_execAiOpenLoop {s t : State} {a0 : _} {a1 : _} {u : State} (h : Calm s t)
    (e : execAiOpenLoop a0 a1 t = .next u) : Calm s u := by
  unfold execAiOpenLoop at e
  injection e with e
  subst e
  refine calm_aiOpenLoop ?_
  assumption

theorem calm_runAiSync {s t : State} {a0 : _} (h : Calm s t) :
    Calm s (runAiSync a0 t).1 := by
  refine CalmF.out ?_
  unfold runAiSync
  refine CalmF.ite ?_ ?_
  · refine CalmF.pair ?_
    assumption
  · refine CalmF.ite ?_ ?_
    · refine CalmF.pair ?_
      assumption
    · extract_lets +onlyGivenNames x1
      have hx1 : Calm s x1 := ?_
      · clear_value x1
        refine CalmF.pair ?_
        assumption
      · unfold x1
        refine calm_State_alignEvent ?_
        assumption

theorem calm_execAiSupLimit {s t : State} {a0 : _} {a1 : _} {u : State} (h : Calm s t)
    (e : execAiSupLimit a0 a1 t = .next u) : Calm s u := by
  unfold execAiSupLimit at e
  injection e with e
  subst e
  refine calm_aiSupLimit ?_
  assumption

theorem calm_aiCompliance {s t : State} {a0 : _} {a1 : _} (h : Calm s t) :
    Calm s (aiCompliance a0 a1 t) := by
  unfold aiCompliance
  refine Calm.ite ?_ ?_
  · refine calm_State_aiRise ?_
    refine calm_State_setAi ?_
    assumption
  · assumption

theorem calm_execAiCompliance {s t : State} {a0 : _} {a1 : _} {u : State} (h : Calm s t)
    (e : execAiCompliance a0 a1 t = .next u) : Calm s u := by
  unfold execAiCompliance at e
  injection e with e
  subst e
  refine calm_aiCompliance ?_
  assumption

theorem calm_aiReadbackWindow {s t : State} {a0 : _} {a1 : _} {a2 : _} {a3 : _} {a4 : _} (h : Calm s t) :
    Calm s (aiReadbackWindow a0 a1 a2 a3 a4 t) := by
  unfold aiReadbackWindow
  refine Calm.ite ?_ ?_
  · extract_lets +onlyGivenNames x1
    clear_value x1
    extract_lets +onlyGivenNames x2
    clear_value x2
    extract_lets +onlyGivenNames x3
    clear_value x3
    extract_lets +onlyGivenNames x4
    clear_value x4
    extract_lets +onlyGivenNames x5
    clear_value x5
    extract_lets +onlyGivenNames x6
    clear_value x6
    extract_lets +onlyGivenNames x7
    clear_value x7
    extract_lets +onlyGivenNames x8
    have hx8 : Calm s x8 := ?_
    · clear_value x8
      refine calm_State_aiRise ?_
      assumption
    · unfold x8
      refine calm_State_setAi ?_
      refine calm_State_setIsl ?_
      assumption
  · assumption

theorem calm_fldAiSync {s t : State} (h : Calm s t) :
    Calm s (fldAiSync t) := by
  unfold fldAiSync
  refine calm_State_doShort (fun _ u1 hu1 => ?_) ?_
  · refine calm_runAiSync ?_
    assumption
  · assumption

theorem calm_State_aiCaptureTake {s t : State} {a1 : _} (h : Calm s t) :
    Calm s (State.aiCaptureTake t a1) := by
  unfold State.aiCaptureTake
  split
  · assumption
  · refine Calm.ite ?_ ?_
    · assumption
    · extract_lets +onlyGivenNames x1
      clear_value x1
      extract_lets +onlyGivenNames x2
      clear_value x2
      extract_lets +onlyGivenNames x3
      have hx3 : Calm s x3 := ?_
      · clear_value x3
        extract_lets +onlyGivenNames x4
        clear_value x4
        extract_lets +onlyGivenNames x5
        clear_value x5
        extract_lets +onlyGivenNames x6
        have hx6 : Calm s x6 := ?_
        · clear_value x6
          refine Calm.ite ?_ ?_
          · refine calm_State_aiEnd ?_
            assumption
          · assumption
        · unfold x6
          refine calm_State_setOut ?_
          assumption
      · unfold x3
        refine calm_State_outBuf ?_
        assumption

theorem calm_fskRxEnd {s t : State} {a0 : _} {a1 : _} (h : Calm s t) :
    Calm s (fskRxEnd a0 a1 t) := by
  unfold fskRxEnd
  extract_lets +onlyGivenNames x1
  clear_value x1
  extract_lets +onlyGivenNames x2
  have hx2 : Calm s x2 := ?_
  · clear_value x2
    split
    · refine Calm.ite ?_ ?_
      · refine calm_State_aiEnd ?_
        assumption
      · assumption
    · assumption
  · unfold x2
    refine Calm.ite ?_ ?_
    · refine calm_State_setAi ?_
      assumption
    · assumption

theorem calm_aiResult {s t : State} {a0 : _} {a1 : _} (h : Calm s t) :
    Calm s (aiResult a0 a1 t) := by
  unfold aiResult
  extract_lets +onlyGivenNames x1
  clear_value x1
  extract_lets +onlyGivenNames x2
  clear_value x2
  refine Calm.ite ?_ ?_
  · extract_lets +onlyGivenNames x3
    clear_value x3
    extract_lets +onlyGivenNames x4
    clear_value x4
    extract_lets +onlyGivenNames x5
    have hx5 : Calm s x5 := ?_
    · clear_value x5
      refine calm_State_aiCaptureTake ?_
      refine calm_State_aiRise ?_
      assumption
    · unfold x5
      refine calm_State_setAi ?_
      assumption
  · assumption

theorem calm_execAiResult {s t : State} {a0 : _} {a1 : _} {u : State} (h : Calm s t)
    (e : execAiResult a0 a1 t = .next u) : Calm s u := by
  unfold execAiResult at e
  injection e with e
  subst e
  refine calm_aiResult ?_
  assumption

theorem calm_execAiReadbackWindow {s t : State} {a0 : _} {a1 : _} {a2 : _} {a3 : _} {a4 : _} {u : State} (h : Calm s t)
    (e : execAiReadbackWindow a0 a1 a2 a3 a4 t = .next u) : Calm s u := by
  unfold execAiReadbackWindow at e
  injection e with e
  subst e
  refine calm_aiReadbackWindow ?_
  assumption

theorem calm_execFldAiSync {s t : State} {u : State} (h : Calm s t)
    (e : execFldAiSync t = .next u) : Calm s u := by
  unfold execFldAiSync at e
  injection e with e
  subst e
  refine calm_fldAiSync ?_
  assumption

theorem calm_execFskCarrierDetect {s t : State} {a0 : _} {u : State} (h : Calm s t)
    (e : execFskCarrierDetect a0 t = .next u) : Calm s u := by
  unfold execFskCarrierDetect at e
  injection e with e
  subst e
  refine calm_fskCarrierDetect ?_
  assumption

theorem calm_execFskRxEnd {s t : State} {a0 : _} {a1 : _} {u : State} (h : Calm s t)
    (e : execFskRxEnd a0 a1 t = .next u) : Calm s u := by
  unfold execFskRxEnd at e
  injection e with e
  subst e
  refine calm_fskRxEnd ?_
  assumption

theorem calm_safEvaluation {s t : State} {a0 : _} (h : Calm s t) :
    Calm s (safEvaluation a0 t) := by
  unfold safEvaluation
  refine Calm.ite ?_ ?_
  · extract_lets +onlyGivenNames x1
    extract_lets +onlyGivenNames x2
    have hx2 : Calm s x2 := ?_
    · skip
      refine Calm.ite ?_ ?_
      · extract_lets +onlyGivenNames x3
        have hx3 : Calm s x3 := ?_
        · clear_value x3
          refine calm_State_enterSafe ?_
          refine calm_State_wr ?_
          assumption
        · unfold x3
          refine Calm.foldl ?_ (fun u4 y5 hu4 => ?_)
          · assumption
          · refine calm_State_safBoth ?_
            assumption
      · extract_lets +onlyGivenNames x6
        clear_value x6
        extract_lets +onlyGivenNames x7
        have hx7 : Calm s x7 := ?_
        · clear_value x7
          refine Calm.foldl ?_ (fun u8 y9 hu8 => ?_)
          · assumption
          · refine calm_State_safEvalBlock ?_
            assumption
        · unfold x7
          refine Calm.same (t := x2) ?_ rfl rfl rfl
          assumption
    · unfold x2
      refine Calm.same (t := t) ?_ rfl rfl rfl
      assumption
  · assumption

theorem calm_execSafEvaluation {s t : State} {a0 : _} {u : State} (h : Calm s t)
    (e : execSafEvaluation a0 t = .next u) : Calm s u := by
  unfold execSafEvaluation at e
  injection e with e
  subst e
  refine calm_safEvaluation ?_
  assumption

theorem calm_tpCheckEnd {s t : State} {a0 : _} {a1 : _} (h : Calm s t) :
    Calm s (tpCheckEnd a0 a1 t) := by
  unfold tpCheckEnd
  extract_lets +onlyGivenNames x1
  clear_value x1
  refine Calm.ite ?_ ?_
  · extract_lets +onlyGivenNames x2
    clear_value x2
    extract_lets +onlyGivenNames x3
    clear_value x3
    extract_lets +onlyGivenNames x4
    clear_value x4
    extract_lets +onlyGivenNames x5
    clear_value x5
    extract_lets +onlyGivenNames x6
    have hx6 : Calm s x6 := ?_
    · clear_value x6
      refine Calm.ite ?_ ?_
      · refine calm_State_safCheckFails ?_
        assumption
      · assumption
    · unfold x6
      refine calm_State_setSafCh ?_
      assumption
  · assumption

theorem calm_execTpCheckEnd {s t : State} {a0 : _} {a1 : _} {u : State} (h : Calm s t)
    (e : execTpCheckEnd a0 a1 t = .next u) : Calm s u := by
  unfold execTpCheckEnd at e
  injection e with e
  subst e
  refine calm_tpCheckEnd ?_
  assumption

theorem calm_runSafStatus {s t : State} {a0 : _} (h : Calm s t) :
    Calm s (runSafStatus a0 t).1 := by
  refine CalmF.out ?_
  unfold runSafStatus
  extract_lets +onlyGivenNames x1
  clear_value x1
  refine CalmF.ite ?_ ?_
  · refine CalmF.pair ?_
    assumption
  · refine CalmF.pair ?_
    refine calm_State_outBuf ?_
    assumption

theorem calm_safInFiltExpiry {s t : State} {a0 : _} {a1 : _} (h : Calm s t) :
    Calm s (safInFiltExpiry a0 a1 t) := by
  unfold safInFiltExpiry
  extract_lets +onlyGivenNames x1
  clear_value x1
  split
  · refine Calm.ite ?_ ?_
    · refine calm_State_setSafCh ?_
      assumption
    · assumption
  · assumption

theorem calm_execSafInFiltExpiry {s t : State} {a0 : _} {a1 : _} {u : State} (h : Calm s t)
    (e : execSafInFiltExpiry a0 a1 t = .next u) : Calm s u := by
  unfold execSafInFiltExpiry at e
  injection e with e
  subst e
  refine calm_safInFiltExpiry ?_
  assumption

theorem calm_safDegExpiry {s t : State} {a0 : _} (h : Calm s t) :
    Calm s (safDegExpiry a0 t) := by
  unfold safDegExpiry
  refine Calm.ite ?_ ?_
  · refine calm_State_safTrip ?_
    assumption
  · assumption

theorem calm_execSafDegExpiry {s t : State} {a0 : _} {u : State} (h : Calm s t)
    (e : execSafDegExpiry a0 t = .next u) : Calm s u := by
  unfold execSafDegExpiry at e
  injection e with e
  subst e
  refine calm_safDegExpiry ?_
  assumption

theorem calm_tpsOverload {s t : State} {a0 : _} {a1 : _} (h : Calm s t) :
    Calm s (tpsOverload a0 a1 t) := by
  unfold tpsOverload
  refine Calm.ite ?_ ?_
  · refine calm_State_setTps ?_
    assumption
  · assumption

theorem calm_safFeedbackTimeout {s t : State} {a0 : _} {a1 : _} (h : Calm s t) :
    Calm s (safFeedbackTimeout a0 a1 t) := by
  unfold safFeedbackTimeout
  split
  · refine Calm.ite ?_ ?_
    · refine calm_State_safFault ?_
      assumption
    · assumption
  · assumption

theorem calm_safClr {s t : State} {a0 : _} {a1 : _} (h : Calm s t) :
    Calm s (safClr a0 a1 t) := by
  unfold safClr
  refine Calm.ite ?_ ?_
  · refine calm_State_setReg ?_
    assumption
  · assumption

theorem calm_execSafClr {s t : State} {a0 : _} {a1 : _} {u : State} (h : Calm s t)
    (e : execSafClr a0 a1 t = .next u) : Calm s u := by
  unfold execSafClr at e
  injection e with e
  subst e
  refine calm_State_arrive (fun u1 hu1 => ?_) ?_
  · refine calm_safClr ?_
    assumption
  · assumption

theorem calm_runSafReset {s t : State} {a0 : _} (h : Calm s t) :
    Calm s (runSafReset a0 t).1 := by
  refine CalmF.out ?_
  unfold runSafReset
  extract_lets +onlyGivenNames x1
  clear_value x1
  refine CalmF.ite ?_ ?_
  · refine CalmF.pair ?_
    assumption
  · refine CalmF.ite ?_ ?_
    · refine CalmF.pair ?_
      assumption
    · extract_lets +onlyGivenNames x2
      have hx2 : Calm s x2.1 := ?_
      · clear_value x2
        extract_lets +onlyGivenNames x3
        have hx3 : Calm s x3 := ?_
        · clear_value x3
          refine CalmF.pair ?_
          assumption
        · unfold x3
          refine Calm.ite ?_ ?_
          · assumption
          · refine calm_State_raise ?_
            assumption
      · unfold x2
        refine calm_State_safResetBlock ?_
        assumption

theorem calm_safReset {s t : State} (h : Calm s t) :
    Calm s (safReset t) := by
  unfold safReset
  refine calm_State_doShort (fun _ u1 hu1 => ?_) ?_
  · refine calm_runSafReset ?_
    assumption
  · assumption

theorem calm_execSafReset {s t : State} {u : State} (h : Calm s t)
    (e : execSafReset t = .next u) : Calm s u := by
  unfold execSafReset at e
  injection e with e
  subst e
  refine calm_safReset ?_
  assumption

theorem calm_tpsPulseEnd {s t : State} {a0 : _} {a1 : _} (h : Calm s t) :
    Calm s (tpsPulseEnd a0 a1 t) := by
  unfold tpsPulseEnd
  refine Calm.ite ?_ ?_
  · refine calm_State_setTps ?_
    assumption
  · assumption

end Machine
end Sys2Proof
end

