-- ==== Sys2Proof/Laws/Calm06.lean ====
section
/-!
SUPPORT. Calm: the operations of Saf, CycOps, Cycle, CarRing, RackBridge.
-/

set_option Elab.async false

namespace Sys2Proof
namespace Machine

theorem calm_safDiscrepancy {s t : State} {a0 : _} (h : Calm s t) :
    Calm s (safDiscrepancy a0 t) := by
  unfold safDiscrepancy
  split
  · refine Calm.ite ?_ ?_
    · refine calm_State_safTrip ?_
      assumption
    · assumption
  · assumption

theorem calm_safStatus {s t : State} (h : Calm s t) :
    Calm s (safStatus t) := by
  unfold safStatus
  refine calm_State_doShort (fun _ u1 hu1 => ?_) ?_
  · refine calm_runSafStatus ?_
    assumption
  · assumption

theorem calm_execSafStatus {s t : State} {u : State} (h : Calm s t)
    (e : execSafStatus t = .next u) : Calm s u := by
  unfold execSafStatus at e
  injection e with e
  subst e
  refine calm_safStatus ?_
  assumption

theorem calm_vsSafLow {s t : State} {a0 : _} {a1 : _} {a2 : _} (h : Calm s t) :
    Calm s (vsSafLow a0 a1 a2 t) := by
  unfold vsSafLow
  refine Calm.ite ?_ ?_
  · extract_lets +onlyGivenNames x1
    clear_value x1
    refine calm_State_setIsl ?_
    assumption
  · assumption

theorem calm_tpsPulseStart {s t : State} {a0 : _} (h : Calm s t) :
    Calm s (tpsPulseStart a0 t) := by
  unfold tpsPulseStart
  extract_lets +onlyGivenNames x1
  clear_value x1
  refine Calm.ite ?_ ?_
  · refine calm_State_setTps ?_
    assumption
  · assumption

theorem calm_execTpsPulseStart {s t : State} {a0 : _} {u : State} (h : Calm s t)
    (e : execTpsPulseStart a0 t = .next u) : Calm s u := by
  unfold execTpsPulseStart at e
  injection e with e
  subst e
  refine calm_tpsPulseStart ?_
  assumption

theorem calm_execTpsPulseEnd {s t : State} {a0 : _} {a1 : _} {u : State} (h : Calm s t)
    (e : execTpsPulseEnd a0 a1 t = .next u) : Calm s u := by
  unfold execTpsPulseEnd at e
  injection e with e
  subst e
  refine calm_tpsPulseEnd ?_
  assumption

theorem calm_execSafFeedbackTimeout {s t : State} {a0 : _} {a1 : _} {u : State} (h : Calm s t)
    (e : execSafFeedbackTimeout a0 a1 t = .next u) : Calm s u := by
  unfold execSafFeedbackTimeout at e
  injection e with e
  subst e
  refine calm_safFeedbackTimeout ?_
  assumption

theorem calm_execTpsOverload {s t : State} {a0 : _} {a1 : _} {u : State} (h : Calm s t)
    (e : execTpsOverload a0 a1 t = .next u) : Calm s u := by
  unfold execTpsOverload at e
  injection e with e
  subst e
  refine calm_tpsOverload ?_
  assumption

theorem calm_execSafDiscrepancy {s t : State} {a0 : _} {u : State} (h : Calm s t)
    (e : execSafDiscrepancy a0 t = .next u) : Calm s u := by
  unfold execSafDiscrepancy at e
  injection e with e
  subst e
  refine calm_safDiscrepancy ?_
  assumption

theorem calm_execVsSafLow {s t : State} {a0 : _} {a1 : _} {a2 : _} {u : State} (h : Calm s t)
    (e : execVsSafLow a0 a1 a2 t = .next u) : Calm s u := by
  unfold execVsSafLow at e
  injection e with e
  subst e
  refine calm_vsSafLow ?_
  assumption

theorem calm_State_idleClose {s t : State} (h : Calm s t) :
    Calm s (State.idleClose t) := by
  unfold State.idleClose
  extract_lets +onlyGivenNames x1
  have hx1 : Calm s x1 := ?_
  · clear_value x1
    refine Calm.same (t := x1) ?_ rfl rfl rfl
    assumption
  · unfold x1
    refine calm_State_wr ?_
    assumption

theorem calm_State_inputOpen {s t : State} {a1 : _} (h : Calm s t) :
    Calm s (State.inputOpen t a1).2.2 := by
  refine CalmS2.out ?_
  unfold State.inputOpen
  extract_lets +onlyGivenNames x1
  clear_value x1
  extract_lets +onlyGivenNames x2
  clear_value x2
  extract_lets +onlyGivenNames x3
  clear_value x3
  extract_lets +onlyGivenNames x4
  clear_value x4
  extract_lets +onlyGivenNames x5
  clear_value x5
  extract_lets +onlyGivenNames x6
  clear_value x6
  extract_lets +onlyGivenNames x7
  clear_value x7
  extract_lets +onlyGivenNames x8
  have hx8 : Calm s x8.2 := ?_
  · clear_value x8
    refine CalmS2.pair ?_
    assumption
  · unfold x8
    refine calm_State_checkAll ?_
    assumption

theorem calm_State_setReasons {s t : State} {a1 : _} {a2 : _} (h : Calm s t) :
    Calm s (State.setReasons t a1 a2) := by
  unfold State.setReasons
  refine Calm.same (t := t) ?_ rfl rfl rfl
  assumption

theorem calm_State_setTask {s t : State} {a1 : _} {a2 : _} (h : Calm s t) :
    Calm s (State.setTask t a1 a2) := by
  unfold State.setTask
  refine Calm.same (t := t) ?_ rfl rfl rfl
  assumption

theorem calm_State_dropSnap {s t : State} {a1 : _} (h : Calm s t) :
    Calm s (State.dropSnap t a1) := by
  unfold State.dropSnap
  refine Calm.same (t := t) ?_ rfl rfl rfl
  assumption

theorem calm_State_taskTo {s t : State} {a1 : _} {a2 : _} {a3 : _} (h : Calm s t) :
    Calm s (State.taskTo t a1 a2 a3) := by
  unfold State.taskTo
  refine calm_State_setTask ?_
  refine calm_State_wr ?_
  refine calm_State_dropSnap ?_
  assumption

theorem calm_State_taskStart {s t : State} {a1 : _} {a2 : _} (h : Calm s t) :
    Calm s (State.taskStart t a1 a2) := by
  unfold State.taskStart
  extract_lets +onlyGivenNames x1
  clear_value x1
  extract_lets +onlyGivenNames x2
  clear_value x2
  extract_lets +onlyGivenNames x3
  have hx3 : Calm s x3 := ?_
  · clear_value x3
    refine calm_State_raise ?_
    assumption
  · unfold x3
    refine calm_State_taskTo ?_
    assumption

theorem calm_State_errStart {s t : State} {a1 : _} {a2 : _} {a3 : _} (h : Calm s t) :
    Calm s (State.errStart t a1 a2 a3) := by
  unfold State.errStart
  extract_lets +onlyGivenNames x1
  clear_value x1
  extract_lets +onlyGivenNames x2
  have hx2 : Calm s x2 := ?_
  · clear_value x2
    extract_lets +onlyGivenNames x3
    clear_value x3
    extract_lets +onlyGivenNames x4
    have hx4 : Calm s x4 := ?_
    · clear_value x4
      extract_lets +onlyGivenNames x5
      have hx5 : Calm s x5 := ?_
      · clear_value x5
        refine calm_State_taskStart ?_
        assumption
      · unfold x5
        refine Calm.ite ?_ ?_
        · refine calm_State_idleClose ?_
          assumption
        · assumption
    · unfold x4
      refine calm_State_setTask ?_
      assumption
  · unfold x2
    refine calm_State_modAdd ?_
    refine calm_State_setReasons ?_
    assumption

theorem calm_State_addReason {s t : State} {a1 : _} {a2 : _} (h : Calm s t) :
    Calm s (State.addReason t a1 a2) := by
  unfold State.addReason
  extract_lets +onlyGivenNames x1
  have hx1 : Calm s x1 := ?_
  · clear_value x1
    split
    · refine Calm.ite ?_ ?_
      · refine calm_State_errStart ?_
        assumption
      · assumption
    · assumption
  · unfold x1
    refine calm_State_setReasons ?_
    assumption

theorem calm_State_outRecord {s t : State} {a1 : _} {a2 : _} {a3 : _} {a4 : _} (h : Calm s t) :
    Calm s (State.outRecord t a1 a2 a3 a4).2 := by
  refine CalmS.out ?_
  unfold State.outRecord
  extract_lets +onlyGivenNames x1
  have hx1 : Calm s x1.2 := ?_
  · clear_value x1
    refine CalmS.ite ?_ ?_
    · refine CalmS.pair ?_
      assumption
    · extract_lets +onlyGivenNames x2
      clear_value x2
      extract_lets +onlyGivenNames x3
      have hx3 : Calm s x3.2 := ?_
      · clear_value x3
        refine CalmS.ite ?_ ?_
        · refine CalmS.pair ?_
          assumption
        · refine CalmS.pair ?_
          assumption
      · unfold x3
        refine calm_State_readCheck ?_
        assumption
  · unfold x1
    refine calm_State_readCheck ?_
    assumption

theorem calm_State_applyIslands {s t : State} {a1 : _} {a2 : _} {a3 : _} (h : Calm s t) :
    Calm s (State.applyIslands t a1 a2 a3) := by
  unfold State.applyIslands
  extract_lets +onlyGivenNames x1
  clear_value x1
  refine Calm.foldl ?_ (fun u2 y3 hu2 => ?_)
  · assumption
  · extract_lets +onlyGivenNames x4
    have hx4 : Calm s x4.2 := ?_
    · clear_value x4
      refine calm_State_islandOut ?_
      assumption
    · unfold x4
      refine calm_State_outRecord ?_
      assumption

theorem calm_State_forceInput {s t : State} {a1 : _} (h : Calm s t) :
    Calm s (State.forceInput t a1) := by
  unfold State.forceInput
  refine Calm.foldl ?_ (fun u1 y2 hu1 => ?_)
  · assumption
  · extract_lets +onlyGivenNames x3
    clear_value x3
    refine calm_State_busWrite ?_
    assumption

theorem calm_State_imageDone {s t : State} {a1 : _} (h : Calm s t) :
    Calm s (State.imageDone t a1) := by
  unfold State.imageDone
  refine calm_State_taskStart ?_
  refine calm_State_forceInput ?_
  assumption

theorem calm_State_inputBegin {s t : State} {a1 : _} (h : Calm s t) :
    Calm s (State.inputBegin t a1) := by
  unfold State.inputBegin
  extract_lets +onlyGivenNames x1
  have hx1 : Calm s x1 := ?_
  · clear_value x1
    refine Calm.ite ?_ ?_
    · assumption
    · refine calm_State_imageDone ?_
      assumption
  · unfold x1
    refine calm_State_busWrite ?_
    refine calm_State_taskTo ?_
    assumption

theorem calm_State_leaveCommit {s t : State} {a1 : _} {a2 : _} (h : Calm s t) :
    Calm s (State.leaveCommit t a1 a2) := by
  unfold State.leaveCommit
  extract_lets +onlyGivenNames x1
  have hx1 : Calm s x1 := ?_
  · clear_value x1
    refine Calm.ite ?_ ?_
    · extract_lets +onlyGivenNames x2
      clear_value x2
      extract_lets +onlyGivenNames x3
      have hx3 : Calm s x3 := ?_
      · clear_value x3
        refine calm_State_inputBegin ?_
        refine calm_State_raise ?_
        assumption
      · unfold x3
        refine calm_State_setTask ?_
        refine calm_State_satAdd ?_
        assumption
    · assumption
  · unfold x1
    refine calm_State_wr ?_
    assumption

theorem calm_State_applyBuffer {s t : State} {a1 : _} {a2 : _} (h : Calm s t) :
    Calm s (State.applyBuffer t a1 a2) := by
  unfold State.applyBuffer
  extract_lets +onlyGivenNames x1
  have hx1 : Calm s x1 := ?_
  · clear_value x1
    refine Calm.ite ?_ ?_
    · split
      · refine calm_State_leaveCommit ?_
        assumption
      · assumption
    · refine Calm.same (t := x1) ?_ rfl rfl rfl
      assumption
  · unfold x1
    split
    · refine calm_State_applyIslands ?_
      assumption
    · refine calm_State_applyIslands ?_
      assumption

theorem calm_State_applySafe {s t : State} {a1 : _} (h : Calm s t) :
    Calm s (State.applySafe t a1) := by
  unfold State.applySafe
  refine Calm.foldl ?_ (fun u1 y2 hu1 => ?_)
  · assumption
  · refine Calm.ite ?_ ?_
    · assumption
    · refine calm_State_applyBuffer ?_
      assumption

theorem calm_State_commitSet {s t : State} {a1 : _} {a2 : _} {a3 : _} (h : Calm s t) :
    Calm s (State.commitSet t a1 a2 a3) := by
  unfold State.commitSet
  extract_lets +onlyGivenNames x1
  clear_value x1
  extract_lets +onlyGivenNames x2
  clear_value x2
  extract_lets +onlyGivenNames x3
  have hx3 : Calm s x3.2 := ?_
  · clear_value x3
    refine Calm.ite ?_ ?_
    · assumption
    · extract_lets +onlyGivenNames x4
      clear_value x4
      refine calm_State_publishValues ?_
      assumption
  · unfold x3
    refine calm_State_readCheck ?_
    assumption

theorem calm_State_retrainStep {s t : State} (h : Calm s t) :
    Calm s (State.retrainStep t) := by
  unfold State.retrainStep
  split
  · assumption
  · refine Calm.ite ?_ ?_
    · assumption
    · refine Calm.ite ?_ ?_
      · refine calm_State_calDone ?_
        refine Calm.same (t := t) ?_ rfl rfl rfl
        assumption
      · refine Calm.same (t := t) ?_ rfl rfl rfl
        assumption

theorem calm_State_offPulseStart {s t : State} {a1 : _} (h : Calm s t) :
    Calm s (State.offPulseStart t a1) := by
  unfold State.offPulseStart
  extract_lets +onlyGivenNames x1
  clear_value x1
  extract_lets +onlyGivenNames x2
  clear_value x2
  refine Calm.ite ?_ ?_
  · split
    · assumption
    · refine Calm.same (t := t) ?_ rfl rfl rfl
      assumption
  · assumption

theorem calm_State_lbistFence {s t : State} (h : Calm s t) :
    Calm s (State.lbistFence t) := by
  unfold State.lbistFence
  split
  · assumption
  · refine Calm.ite ?_ ?_
    · extract_lets +onlyGivenNames x1
      clear_value x1
      extract_lets +onlyGivenNames x2
      have hx2 : Calm s x2 := ?_
      · clear_value x2
        refine calm_State_wr ?_
        refine calm_State_wr ?_
        refine calm_State_raise ?_
        refine calm_State_setLane ?_
        assumption
      · unfold x2
        refine Calm.same (t := t) ?_ rfl rfl rfl
        assumption
    · assumption

theorem calm_State_idleOpen {s t : State} {a1 : _} (h : Calm s t) :
    Calm s (State.idleOpen t a1) := by
  unfold State.idleOpen
  extract_lets +onlyGivenNames x1
  clear_value x1
  extract_lets +onlyGivenNames x2
  have hx2 : Calm s x2 := ?_
  · clear_value x2
    extract_lets +onlyGivenNames x3
    clear_value x3
    extract_lets +onlyGivenNames x4
    have hx4 : Calm s x4 := ?_
    · clear_value x4
      extract_lets +onlyGivenNames x5
      have hx5 : Calm s x5 := ?_
      · clear_value x5
        refine calm_State_retrainStep ?_
        refine calm_State_offPulseStart ?_
        refine calm_State_lbistFence ?_
        assumption
      · unfold x5
        refine Calm.ite ?_ ?_
        · refine calm_State_requestCord ?_
          assumption
        · assumption
    · unfold x4
      refine Calm.same (t := x2) ?_ rfl rfl rfl
      assumption
  · unfold x2
    refine calm_State_satAdd ?_
    refine calm_State_wr ?_
    refine calm_State_wr ?_
    assumption

theorem calm_State_idleCheck {s t : State} (h : Calm s t) :
    Calm s (State.idleCheck t) := by
  unfold State.idleCheck
  refine Calm.ite ?_ ?_
  · assumption
  · split
    · assumption
    · extract_lets +onlyGivenNames x1
      clear_value x1
      refine Calm.ite ?_ ?_
      · refine calm_State_idleOpen ?_
        assumption
      · assumption

theorem calm_State_idleLimit {s t : State} (h : Calm s t) :
    Calm s (State.idleLimit t) := by
  unfold State.idleLimit
  refine Calm.ite ?_ ?_
  · assumption
  · split
    · assumption
    · extract_lets +onlyGivenNames x1
      clear_value x1
      refine Calm.ite ?_ ?_
      · refine calm_State_idleClose ?_
        assumption
      · extract_lets +onlyGivenNames x2
        clear_value x2
        refine Calm.same (t := t) ?_ rfl rfl rfl
        assumption

theorem calm_State_cycOpen {s t : State} (h : Calm s t) :
    Calm s (State.cycOpen t) := by
  unfold State.cycOpen
  refine calm_State_idleCheck ?_
  refine calm_State_idleLimit ?_
  assumption

theorem calm_State_inputFill {s t : State} {a1 : _} {a2 : _} {a3 : _} {a4 : _} (h : Calm s t) :
    Calm s (State.inputFill t a1 a2 a3 a4) := by
  unfold State.inputFill
  refine calm_State_imageDone ?_
  refine calm_State_busWrite ?_
  assumption

theorem calm_State_forceCount {s t : State} (h : Calm s t) :
    Calm s (State.forceCount t) := by
  unfold State.forceCount
  extract_lets +onlyGivenNames x1
  clear_value x1
  refine calm_State_forceNotice ?_
  refine calm_State_wr ?_
  assumption

theorem calm_State_forceClear {s t : State} {a1 : _} (h : Calm s t) :
    Calm s (State.forceClear t a1) := by
  unfold State.forceClear
  refine Calm.ite ?_ ?_
  · assumption
  · extract_lets +onlyGivenNames x1
    have hx1 : Calm s x1 := ?_
    · clear_value x1
      refine calm_State_forceCount ?_
      assumption
    · unfold x1
      refine Calm.foldl ?_ (fun u2 y3 hu2 => ?_)
      · assumption
      · refine Calm.ite ?_ ?_
        · refine calm_State_setReg ?_
          refine calm_State_setReg ?_
          refine calm_State_setReg ?_
          refine calm_State_setReg ?_
          assumption
        · assumption

theorem calm_State_markStale {s t : State} {a1 : _} (h : Calm s t) :
    Calm s (State.markStale t a1) := by
  unfold State.markStale
  refine Calm.ite ?_ ?_
  · assumption
  · extract_lets +onlyGivenNames x1
    have hx1 : Calm s x1 := ?_
    · clear_value x1
      refine calm_State_watchEnd ?_
      refine calm_State_queuePass ?_
      refine calm_State_satAdd ?_
      assumption
    · unfold x1
      refine calm_State_setDs ?_
      refine calm_State_setDs ?_
      assumption

theorem calm_State_stnJudge {s t : State} {a1 : _} (h : Calm s t) :
    Calm s (State.stnJudge t a1) := by
  unfold State.stnJudge
  refine Calm.ite ?_ ?_
  · assumption
  · extract_lets +onlyGivenNames x1
    clear_value x1
    extract_lets +onlyGivenNames x2
    clear_value x2
    refine Calm.ite ?_ ?_
    · extract_lets +onlyGivenNames x3
      have hx3 : Calm s x3 := ?_
      · clear_value x3
        extract_lets +onlyGivenNames x4
        have hx4 : Calm s x4 := ?_
        · clear_value x4
          refine calm_State_addReason ?_
          refine calm_State_raise ?_
          assumption
        · unfold x4
          refine Calm.foldl ?_ (fun u5 y6 hu5 => ?_)
          · assumption
          · refine calm_State_markStale ?_
            assumption
      · unfold x3
        refine calm_State_wr ?_
        assumption
    · refine Calm.ite ?_ ?_
      · extract_lets +onlyGivenNames x7
        have hx7 : Calm s x7 := ?_
        · clear_value x7
          refine calm_State_addReason ?_
          refine calm_State_raise ?_
          assumption
        · unfold x7
          refine calm_State_wr ?_
          assumption
      · assumption

theorem calm_State_coldClear {s t : State} {a1 : _} (h : Calm s t) :
    Calm s (State.coldClear t a1) := by
  unfold State.coldClear
  extract_lets +onlyGivenNames x1
  have hx1 : Calm s x1 := ?_
  · clear_value x1
    extract_lets +onlyGivenNames x2
    have hx2 : Calm s x2 := ?_
    · clear_value x2
      refine Calm.foldl ?_ (fun u3 y4 hu3 => ?_)
      · assumption
      · refine Calm.ite ?_ ?_
        · refine calm_State_wr ?_
          assumption
        · assumption
    · unfold x2
      refine calm_State_forceClear ?_
      assumption
  · unfold x1
    refine Calm.foldl ?_ (fun u5 y6 hu5 => ?_)
    · assumption
    · refine calm_State_setReg ?_
      refine calm_State_wr ?_
      refine calm_State_wr ?_
      refine calm_State_setReg ?_
      assumption

theorem calm_State_ctlRun {s t : State} {a1 : _} (h : Calm s t) :
    Calm s (State.ctlRun t a1) := by
  unfold State.ctlRun
  refine calm_State_wr ?_
  assumption

theorem calm_State_stations {s t : State} (h : Calm s t) :
    Calm s (State.stations t) := by
  unfold State.stations
  refine Calm.ite ?_ ?_
  · refine Calm.foldl ?_ (fun u1 y2 hu1 => ?_)
    · assumption
    · refine calm_State_stnJudge ?_
      assumption
  · assumption

theorem calm_State_ctlStart {s t : State} {a1 : _} {a2 : _} (h : Calm s t) :
    Calm s (State.ctlStart t a1 a2) := by
  unfold State.ctlStart
  extract_lets +onlyGivenNames x1
  have hx1 : Calm s x1 := ?_
  · clear_value x1
    extract_lets +onlyGivenNames x2
    clear_value x2
    extract_lets +onlyGivenNames x3
    have hx3 : Calm s x3 := ?_
    · clear_value x3
      extract_lets +onlyGivenNames x4
      have hx4 : Calm s x4 := ?_
      · clear_value x4
        extract_lets +onlyGivenNames x5
        have hx5 : Calm s x5 := ?_
        · clear_value x5
          extract_lets +onlyGivenNames x6
          have hx6 : Calm s x6 := ?_
          · clear_value x6
            split
            · extract_lets +onlyGivenNames x7
              have hx7 : Calm s x7 := ?_
              · clear_value x7
                refine Calm.ite ?_ ?_
                · refine calm_State_stations ?_
                  assumption
                · assumption
              · unfold x7
                refine calm_State_ctlRun ?_
                assumption
            · extract_lets +onlyGivenNames x8
              have hx8 : Calm s x8 := ?_
              · clear_value x8
                extract_lets +onlyGivenNames x9
                have hx9 : Calm s x9 := ?_
                · clear_value x9
                  refine Calm.ite ?_ ?_
                  · refine calm_State_stations ?_
                    assumption
                  · assumption
                · unfold x9
                  refine calm_State_errStart ?_
                  assumption
              · unfold x8
                refine calm_State_setReasons ?_
                assumption
          · unfold x6
            refine calm_State_applySafe ?_
            assumption
        · unfold x5
          refine Calm.ite ?_ ?_
          · refine calm_State_coldClear ?_
            assumption
          · assumption
      · unfold x4
        refine Calm.foldl ?_ (fun u10 y11 hu10 => ?_)
        · assumption
        · refine calm_State_setTask ?_
          refine calm_State_taskTo ?_
          assumption
    · unfold x3
      refine Calm.same (t := x1) ?_ rfl rfl rfl
      assumption
  · unfold x1
    refine calm_State_wr ?_
    assumption

theorem calm_State_cycLock {s t : State} (h : Calm s t) :
    Calm s (State.cycLock t) := by
  unfold State.cycLock
  extract_lets +onlyGivenNames x1
  have hx1 : Calm s x1 := ?_
  · clear_value x1
    extract_lets +onlyGivenNames x2
    clear_value x2
    extract_lets +onlyGivenNames x3
    have hx3 : Calm s x3 := ?_
    · clear_value x3
      refine Calm.foldl ?_ (fun u4 y5 hu4 => ?_)
      · assumption
      · extract_lets +onlyGivenNames x6
        clear_value x6
        refine Calm.ite ?_ ?_
        · refine calm_State_ctlStart ?_
          assumption
        · assumption
    · unfold x3
      refine Calm.same (t := x1) ?_ rfl rfl rfl
      assumption
  · unfold x1
    refine Calm.foldl ?_ (fun u7 y8 hu7 => ?_)
    · assumption
    · refine Calm.ite ?_ ?_
      · refine calm_State_taskTo ?_
        assumption
      · assumption

theorem calm_State_commitUndone {s t : State} {a1 : _} (h : Calm s t) :
    Calm s (State.commitUndone t a1) := by
  unfold State.commitUndone
  extract_lets +onlyGivenNames x1
  clear_value x1
  refine Calm.ite ?_ ?_
  · assumption
  · extract_lets +onlyGivenNames x2
    have hx2 : Calm s x2 := ?_
    · clear_value x2
      refine Calm.ite ?_ ?_
      · extract_lets +onlyGivenNames x3
        have hx3 : Calm s x3 := ?_
        · clear_value x3
          refine Calm.ite ?_ ?_
          · refine calm_State_idleClose ?_
            assumption
          · assumption
        · unfold x3
          refine calm_State_taskTo ?_
          assumption
      · assumption
    · unfold x2
      refine Calm.ite ?_ ?_
      · assumption
      · refine calm_State_wr ?_
        assumption

theorem calm_State_discardInterval {s t : State} (h : Calm s t) :
    Calm s (State.discardInterval t) := by
  unfold State.discardInterval
  extract_lets +onlyGivenNames x1
  clear_value x1
  refine calm_State_flueDiscard ?_
  refine Calm.foldl ?_ (fun u2 y3 hu2 => ?_)
  · assumption
  · refine calm_State_commitUndone ?_
    assumption

theorem calm_State_cycleStart {s t : State} {a1 : _} (h : Calm s t) :
    Calm s (State.cycleStart t a1) := by
  unfold State.cycleStart
  refine Calm.ite ?_ ?_
  · assumption
  · extract_lets +onlyGivenNames x1
    clear_value x1
    extract_lets +onlyGivenNames x2
    clear_value x2
    extract_lets +onlyGivenNames x3
    have hx3 : Calm s x3 := ?_
    · clear_value x3
      extract_lets +onlyGivenNames x4
      have hx4 : Calm s x4 := ?_
      · clear_value x4
        extract_lets +onlyGivenNames x5
        have hx5 : Calm s x5 := ?_
        · clear_value x5
          extract_lets +onlyGivenNames x6
          have hx6 : Calm s x6 := ?_
          · clear_value x6
            refine Calm.ite ?_ ?_
            · refine calm_State_taskTo ?_
              assumption
            · refine calm_State_inputBegin ?_
              assumption
          · unfold x6
            split
            · assumption
            · refine calm_State_pairSet ?_
              refine calm_State_wr ?_
              assumption
        · unfold x5
          refine Calm.ite ?_ ?_
          · refine calm_State_idleClose ?_
            assumption
          · assumption
      · unfold x4
        refine calm_State_setTask ?_
        assumption
    · unfold x3
      refine calm_State_wr ?_
      refine calm_State_modAdd ?_
      assumption

theorem calm_State_inputSnap {s t : State} {a1 : _} (h : Calm s t) :
    Calm s (State.inputSnap t a1) := by
  unfold State.inputSnap
  extract_lets +onlyGivenNames x1
  have hx1 : Calm s x1.2.2 := ?_
  · clear_value x1
    split
    · refine calm_State_inputFill ?_
      assumption
    · refine calm_State_snapKeep ?_
      assumption
  · unfold x1
    refine calm_State_snapGo ?_
    assumption

theorem calm_State_inputStart {s t : State} {a1 : _} (h : Calm s t) :
    Calm s (State.inputStart t a1) := by
  unfold State.inputStart
  refine Calm.ite ?_ ?_
  · assumption
  · extract_lets +onlyGivenNames x1
    have hx1 : Calm s x1.2.2 := ?_
    · clear_value x1
      refine Calm.ite ?_ ?_
      · refine calm_State_inputSnap ?_
        assumption
      · refine calm_State_inputFill ?_
        assumption
    · unfold x1
      refine calm_State_inputOpen ?_
      refine calm_State_spend ?_
      assumption

theorem calm_State_ctlStop {s t : State} {a1 : _} {a2 : _} (h : Calm s t) :
    Calm s (State.ctlStop t a1 a2) := by
  unfold State.ctlStop
  extract_lets +onlyGivenNames x1
  have hx1 : Calm s x1 := ?_
  · clear_value x1
    extract_lets +onlyGivenNames x2
    have hx2 : Calm s x2 := ?_
    · clear_value x2
      extract_lets +onlyGivenNames x3
      clear_value x3
      extract_lets +onlyGivenNames x4
      have hx4 : Calm s x4 := ?_
      · clear_value x4
        refine calm_State_raise ?_
        refine calm_State_applySafe ?_
        assumption
      · unfold x4
        refine Calm.same (t := x2) ?_ rfl rfl rfl
        assumption
    · unfold x2
      refine Calm.foldl ?_ (fun u5 y6 hu5 => ?_)
      · assumption
      · refine calm_State_taskTo ?_
        assumption
  · unfold x1
    refine calm_State_wr ?_
    assumption

theorem calm_State_cycKindle {s t : State} (h : Calm s t) :
    Calm s (State.cycKindle t) := by
  unfold State.cycKindle
  refine Calm.foldl ?_ (fun u1 y2 hu1 => ?_)
  · assumption
  · refine Calm.ite ?_ ?_
    · refine calm_State_setTask ?_
      assumption
    · assumption

theorem calm_State_cycFires {s t : State} {a1 : _} (h : Calm s t) :
    Calm s (State.cycFires t a1) := by
  unfold State.cycFires
  extract_lets +onlyGivenNames x1
  clear_value x1
  extract_lets +onlyGivenNames x2
  clear_value x2
  extract_lets +onlyGivenNames x3
  have hx3 : Calm s x3 := ?_
  · clear_value x3
    extract_lets +onlyGivenNames x4
    clear_value x4
    refine Calm.ite ?_ ?_
    · refine calm_State_pairSet ?_
      assumption
    · refine Calm.foldl ?_ (fun u5 y6 hu5 => ?_)
      · assumption
      · refine calm_State_cycleStart ?_
        assumption
  · unfold x3
    refine Calm.same (t := t) ?_ rfl rfl rfl
    assumption

theorem calm_State_errReleased {s t : State} {a1 : _} {a2 : _} (h : Calm s t) :
    Calm s (State.errReleased t a1 a2) := by
  unfold State.errReleased
  extract_lets +onlyGivenNames x1
  clear_value x1
  refine Calm.ite ?_ ?_
  · assumption
  · extract_lets +onlyGivenNames x2
    have hx2 : Calm s x2 := ?_
    · clear_value x2
      extract_lets +onlyGivenNames x3
      have hx3 : Calm s x3 := ?_
      · clear_value x3
        refine calm_State_idleCheck ?_
        assumption
      · unfold x3
        refine Calm.ite ?_ ?_
        · refine calm_State_errStart ?_
          assumption
        · assumption
    · unfold x2
      refine Calm.ite ?_ ?_
      · refine calm_State_ctlRun ?_
        assumption
      · assumption

theorem calm_State_idleAtSeal {s t : State} (h : Calm s t) :
    Calm s (State.idleAtSeal t) := by
  unfold State.idleAtSeal
  refine Calm.ite ?_ ?_
  · refine calm_State_idleLimit ?_
    refine calm_State_idleOpen ?_
    assumption
  · assumption

theorem calm_State_commitReleased {s t : State} {a1 : _} (h : Calm s t) :
    Calm s (State.commitReleased t a1) := by
  unfold State.commitReleased
  extract_lets +onlyGivenNames x1
  clear_value x1
  extract_lets +onlyGivenNames x2
  clear_value x2
  refine Calm.ite ?_ ?_
  · refine calm_State_satAdd ?_
    assumption
  · refine Calm.ite ?_ ?_
    · refine calm_State_errReleased ?_
      assumption
    · refine Calm.ite ?_ ?_
      · refine calm_State_leaveCommit ?_
        refine calm_State_satAdd ?_
        assumption
      · refine calm_State_applyBuffer ?_
        refine calm_State_recEvent ?_
        assumption

theorem calm_State_publishCommit {s t : State} {a1 : _} {a2 : _} (h : Calm s t) :
    Calm s (State.publishCommit t a1 a2) := by
  induction a2 generalizing t a1
  · unfold State.publishCommit
    assumption
  · rename_i ih
    unfold State.publishCommit
    split
    · extract_lets +onlyGivenNames x1
      clear_value x1
      extract_lets +onlyGivenNames x2
      have hx2 : Calm s x2 := ?_
      · clear_value x2
        split
        · refine calm_State_leaveCommit ?_
          assumption
        · assumption
      · unfold x2
        refine Calm.same (t := t) ?_ rfl rfl rfl
        assumption
    · refine Calm.ite ?_ ?_
      · assumption
      · extract_lets +onlyGivenNames x3
        clear_value x3
        extract_lets +onlyGivenNames x4
        clear_value x4
        extract_lets +onlyGivenNames x5
        have hx5 : Calm s x5 := ?_
        · clear_value x5
          apply ih
          refine Calm.same (t := x5) ?_ rfl rfl rfl
          assumption
        · unfold x5
          refine calm_State_spend ?_
          refine calm_State_commitSet ?_
          assumption

theorem calm_State_commitEntered {s t : State} {a1 : _} (h : Calm s t) :
    Calm s (State.commitEntered t a1) := by
  unfold State.commitEntered
  extract_lets +onlyGivenNames x1
  clear_value x1
  refine Calm.ite ?_ ?_
  · assumption
  · extract_lets +onlyGivenNames x2
    clear_value x2
    extract_lets +onlyGivenNames x3
    have hx3 : Calm s x3 := ?_
    · clear_value x3
      refine Calm.ite ?_ ?_
      · refine calm_State_idleCheck ?_
        assumption
      · extract_lets +onlyGivenNames x4
        have hx4 : Calm s x4 := ?_
        · clear_value x4
          extract_lets +onlyGivenNames x5
          have hx5 : Calm s x5 := ?_
          · clear_value x5
            refine calm_State_idleCheck ?_
            assumption
          · unfold x5
            refine Calm.ite ?_ ?_
            · refine calm_State_requestCord ?_
              assumption
            · assumption
        · unfold x4
          refine calm_State_wr ?_
          assumption
    · unfold x3
      refine calm_State_peak ?_
      refine calm_State_wr ?_
      refine calm_State_taskTo ?_
      assumption

theorem calm_runCycRestart {s t : State} {a0 : _} (h : Calm s t) :
    Calm s (runCycRestart a0 t).1 := by
  refine CalmF.out ?_
  unfold runCycRestart
  extract_lets +onlyGivenNames x1
  clear_value x1
  extract_lets +onlyGivenNames x2
  clear_value x2
  refine CalmF.ite ?_ ?_
  · refine CalmF.pair ?_
    assumption
  · refine CalmF.ite ?_ ?_
    · refine CalmF.pair ?_
      assumption
    · extract_lets +onlyGivenNames x3
      have hx3 : Calm s x3 := ?_
      · clear_value x3
        refine CalmF.pair ?_
        refine calm_State_cycOpen ?_
        refine calm_State_ctlStart ?_
        refine calm_State_raise ?_
        assumption
      · unfold x3
        refine Calm.foldl ?_ (fun u4 y5 hu4 => ?_)
        · assumption
        · refine calm_State_ownerReset ?_
          assumption

theorem calm_cycRestart {s t : State} (h : Calm s t) :
    Calm s (cycRestart t) := by
  unfold cycRestart
  refine calm_State_doShort (fun _ u1 hu1 => ?_) ?_
  · refine calm_runCycRestart ?_
    assumption
  · assumption

theorem calm_runCycStatus {s t : State} {a0 : _} (h : Calm s t) :
    Calm s (runCycStatus a0 t).1 := by
  refine CalmF.out ?_
  unfold runCycStatus
  extract_lets +onlyGivenNames x1
  clear_value x1
  extract_lets +onlyGivenNames x2
  clear_value x2
  refine CalmF.ite ?_ ?_
  · refine CalmF.pair ?_
    assumption
  · refine CalmF.ite ?_ ?_
    · refine CalmF.pair ?_
      assumption
    · refine CalmF.ite ?_ ?_
      · refine CalmF.pair ?_
        assumption
      · refine CalmF.pair ?_
        refine calm_State_outBuf ?_
        assumption

theorem calm_cycStatus {s t : State} (h : Calm s t) :
    Calm s (cycStatus t) := by
  unfold cycStatus
  refine calm_State_doShort (fun _ u1 hu1 => ?_) ?_
  · refine calm_runCycStatus ?_
    assumption
  · assumption

theorem calm_State_overrunStart {s t : State} {a1 : _} (h : Calm s t) :
    Calm s (State.overrunStart t a1) := by
  unfold State.overrunStart
  extract_lets +onlyGivenNames x1
  have hx1 : Calm s x1 := ?_
  · clear_value x1
    split
    · refine Calm.ite ?_ ?_
      · assumption
      · refine calm_State_errStart ?_
        refine Calm.same (t := x1) ?_ rfl rfl rfl
        assumption
    · assumption
  · unfold x1
    refine calm_State_setReasons ?_
    assumption

theorem calm_runCycStop {s t : State} {a0 : _} (h : Calm s t) :
    Calm s (runCycStop a0 t).1 := by
  refine CalmF.out ?_
  unfold runCycStop
  extract_lets +onlyGivenNames x1
  clear_value x1
  refine CalmF.ite ?_ ?_
  · refine CalmF.pair ?_
    assumption
  · refine CalmF.ite ?_ ?_
    · refine CalmF.pair ?_
      assumption
    · refine CalmF.ite ?_ ?_
      · refine CalmF.pair ?_
        refine calm_State_idleCheck ?_
        refine calm_State_ctlStop ?_
        assumption
      · refine CalmF.pair ?_
        assumption

theorem calm_idleWindowEnd {s t : State} (h : Calm s t) :
    Calm s (idleWindowEnd t) := by
  unfold idleWindowEnd
  split
  · refine Calm.ite ?_ ?_
    · refine calm_State_idleClose ?_
      assumption
    · assumption
  · assumption

theorem calm_execIdleWindowEnd {s t : State} {u : State} (h : Calm s t)
    (e : execIdleWindowEnd t = .next u) : Calm s u := by
  unfold execIdleWindowEnd at e
  injection e with e
  subst e
  refine calm_idleWindowEnd ?_
  assumption

theorem calm_runCycForce {s t : State} {a0 : _} (h : Calm s t) :
    Calm s (runCycForce a0 t).1 := by
  refine CalmF.out ?_
  unfold runCycForce
  extract_lets +onlyGivenNames x1
  clear_value x1
  extract_lets +onlyGivenNames x2
  clear_value x2
  extract_lets +onlyGivenNames x3
  clear_value x3
  extract_lets +onlyGivenNames x4
  clear_value x4
  extract_lets +onlyGivenNames x5
  clear_value x5
  extract_lets +onlyGivenNames x6
  clear_value x6
  refine CalmF.ite ?_ ?_
  · refine CalmF.pair ?_
    assumption
  · refine CalmF.ite ?_ ?_
    · refine CalmF.pair ?_
      assumption
    · refine CalmF.ite ?_ ?_
      · refine CalmF.pair ?_
        assumption
      · split
        · refine CalmF.pair ?_
          assumption
        · extract_lets +onlyGivenNames x7
          have hx7 : Calm s x7 := ?_
          · clear_value x7
            refine CalmF.pair ?_
            refine calm_State_forceCount ?_
            assumption
          · unfold x7
            refine calm_State_setReg ?_
            refine calm_State_setReg ?_
            refine calm_State_setReg ?_
            refine calm_State_setReg ?_
            assumption
        · extract_lets +onlyGivenNames x8
          have hx8 : Calm s x8 := ?_
          · clear_value x8
            refine CalmF.pair ?_
            refine calm_State_setReg ?_
            assumption
          · unfold x8
            refine calm_State_setReg ?_
            refine calm_State_wr ?_
            assumption
        · extract_lets +onlyGivenNames x9
          clear_value x9
          split
          · refine CalmF.pair ?_
            assumption
          · refine CalmF.ite ?_ ?_
            · refine CalmF.pair ?_
              assumption
            · extract_lets +onlyGivenNames x10
              have hx10 : Calm s x10 := ?_
              · clear_value x10
                extract_lets +onlyGivenNames x11
                have hx11 : Calm s x11 := ?_
                · clear_value x11
                  refine CalmF.pair ?_
                  refine calm_State_forceCount ?_
                  refine calm_State_setReg ?_
                  assumption
                · unfold x11
                  refine calm_State_setReg ?_
                  refine calm_State_setReg ?_
                  assumption
              · unfold x10
                refine calm_State_setReg ?_
                assumption

theorem calm_execCycRestart {s t : State} {u : State} (h : Calm s t)
    (e : execCycRestart t = .next u) : Calm s u := by
  unfold execCycRestart at e
  injection e with e
  subst e
  refine calm_cycRestart ?_
  assumption

theorem calm_cycClr {s t : State} {a0 : _} {a1 : _} (h : Calm s t) :
    Calm s (cycClr a0 a1 t) := by
  unfold cycClr
  refine Calm.ite ?_ ?_
  · refine Calm.foldl ?_ (fun u1 y2 hu1 => ?_)
    · refine calm_State_setReg ?_
      refine calm_State_setReg ?_
      assumption
    · refine calm_State_wr ?_
      assumption
  · assumption

theorem calm_cycStop {s t : State} (h : Calm s t) :
    Calm s (cycStop t) := by
  unfold cycStop
  refine calm_State_doShort (fun _ u1 hu1 => ?_) ?_
  · refine calm_runCycStop ?_
    assumption
  · assumption

theorem calm_execCycStop {s t : State} {u : State} (h : Calm s t)
    (e : execCycStop t = .next u) : Calm s u := by
  unfold execCycStop at e
  injection e with e
  subst e
  refine calm_cycStop ?_
  assumption

theorem calm_cycForce {s t : State} (h : Calm s t) :
    Calm s (cycForce t) := by
  unfold cycForce
  refine calm_State_doShort (fun _ u1 hu1 => ?_) ?_
  · refine calm_runCycForce ?_
    assumption
  · assumption

theorem calm_execCycForce {s t : State} {u : State} (h : Calm s t)
    (e : execCycForce t = .next u) : Calm s u := by
  unfold execCycForce at e
  injection e with e
  subst e
  refine calm_cycForce ?_
  assumption

theorem calm_cycOverrun {s t : State} {a0 : _} (h : Calm s t) :
    Calm s (cycOverrun a0 t) := by
  unfold cycOverrun
  refine Calm.ite ?_ ?_
  · assumption
  · extract_lets +onlyGivenNames x1
    clear_value x1
    extract_lets +onlyGivenNames x2
    clear_value x2
    extract_lets +onlyGivenNames x3
    have hx3 : Calm s x3 := ?_
    · clear_value x3
      extract_lets +onlyGivenNames x4
      have hx4 : Calm s x4 := ?_
      · clear_value x4
        extract_lets +onlyGivenNames x5
        have hx5 : Calm s x5 := ?_
        · clear_value x5
          refine Calm.ite ?_ ?_
          · refine calm_State_enterSafe ?_
            assumption
          · extract_lets +onlyGivenNames x6
            have hx6 : Calm s x6 := ?_
            · clear_value x6
              refine calm_State_idleCheck ?_
              refine calm_State_overrunStart ?_
              assumption
            · unfold x6
              refine Calm.ite ?_ ?_
              · assumption
              · refine calm_State_ctlStop ?_
                assumption
        · unfold x5
          refine calm_State_raise ?_
          assumption
      · unfold x4
        refine Calm.ite ?_ ?_
        · assumption
        · refine calm_State_wr ?_
          refine calm_State_wr ?_
          refine calm_State_wr ?_
          assumption
    · unfold x3
      refine calm_State_satAdd ?_
      refine calm_State_taskTo ?_
      assumption

theorem calm_execCycOverrun {s t : State} {a0 : _} {u : State} (h : Calm s t)
    (e : execCycOverrun a0 t = .next u) : Calm s u := by
  unfold execCycOverrun at e
  injection e with e
  subst e
  refine calm_cycOverrun ?_
  assumption

theorem calm_execCycStatus {s t : State} {u : State} (h : Calm s t)
    (e : execCycStatus t = .next u) : Calm s u := by
  unfold execCycStatus at e
  injection e with e
  subst e
  refine calm_cycStatus ?_
  assumption

theorem calm_execCycClr {s t : State} {a0 : _} {a1 : _} {u : State} (h : Calm s t)
    (e : execCycClr a0 a1 t = .next u) : Calm s u := by
  unfold execCycClr at e
  injection e with e
  subst e
  refine calm_State_arrive (fun u1 hu1 => ?_) ?_
  · refine calm_cycClr ?_
    assumption
  · assumption

theorem calm_crAcycForward {s t : State} {a0 : _} {a1 : _} (h : Calm s t) :
    Calm s (crAcycForward a0 a1 t) := by
  unfold crAcycForward
  refine calm_State_crAcycForward ?_
  assumption

theorem calm_execCrAcycForward {s t : State} {a0 : _} {a1 : _} {u : State} (h : Calm s t)
    (e : execCrAcycForward a0 a1 t = .next u) : Calm s u := by
  unfold execCrAcycForward at e
  injection e with e
  subst e
  refine calm_crAcycForward ?_
  assumption

theorem calm_crMasterRx {s t : State} {a0 : _} {a1 : _} {a2 : _} {a3 : _} (h : Calm s t) :
    Calm s (crMasterRx a0 a1 a2 a3 t) := by
  unfold crMasterRx
  refine calm_State_stations ?_
  refine calm_State_crMasterRx ?_
  assumption

theorem calm_execCrMasterRx {s t : State} {a0 : _} {a1 : _} {a2 : _} {a3 : _} {u : State} (h : Calm s t)
    (e : execCrMasterRx a0 a1 a2 a3 t = .next u) : Calm s u := by
  unfold execCrMasterRx at e
  injection e with e
  subst e
  refine calm_crMasterRx ?_
  assumption

theorem calm_crMemberCycleTimeout {s t : State} {a0 : _} (h : Calm s t) :
    Calm s (crMemberCycleTimeout a0 t) := by
  unfold crMemberCycleTimeout
  refine calm_State_stations ?_
  refine calm_State_crMemberTimeout ?_
  assumption

theorem calm_crTxExpiry {s t : State} {a0 : _} (h : Calm s t) :
    Calm s (crTxExpiry a0 t) := by
  unfold crTxExpiry
  refine calm_State_crTxExpiry ?_
  assumption

theorem calm_crRxPost {s t : State} {a0 : _} (h : Calm s t) :
    Calm s (crRxPost a0 t) := by
  unfold crRxPost
  refine calm_State_doLong (fun _ u1 hu1 => ?_) ?_
  · assumption
  · assumption

theorem calm_crStatus {s t : State} {a0 : _} (h : Calm s t) :
    Calm s (crStatus a0 t) := by
  unfold crStatus
  refine calm_State_doShort (fun _ u1 hu1 => ?_) ?_
  · refine calm_runCrStatus ?_
    assumption
  · assumption

theorem calm_execCrStatus {s t : State} {a0 : _} {u : State} (h : Calm s t)
    (e : execCrStatus a0 t = .next u) : Calm s u := by
  unfold execCrStatus at e
  injection e with e
  subst e
  refine calm_crStatus ?_
  assumption

theorem calm_crClr {s t : State} {a0 : _} {a1 : _} {a2 : _} (h : Calm s t) :
    Calm s (crClr a0 a1 a2 t) := by
  unfold crClr
  refine calm_State_crClear ?_
  assumption

theorem calm_crTx {s t : State} {a0 : _} (h : Calm s t) :
    Calm s (crTx a0 t) := by
  unfold crTx
  refine calm_State_crTx ?_
  assumption

theorem calm_execCrTx {s t : State} {a0 : _} {u : State} (h : Calm s t)
    (e : execCrTx a0 t = .next u) : Calm s u := by
  unfold execCrTx at e
  injection e with e
  subst e
  refine calm_crTx ?_
  assumption

theorem calm_crReturnTimeout {s t : State} {a0 : _} (h : Calm s t) :
    Calm s (crReturnTimeout a0 t) := by
  unfold crReturnTimeout
  refine calm_State_stations ?_
  refine calm_State_crReturnTimeout ?_
  assumption

theorem calm_execCrReturnTimeout {s t : State} {a0 : _} {u : State} (h : Calm s t)
    (e : execCrReturnTimeout a0 t = .next u) : Calm s u := by
  unfold execCrReturnTimeout at e
  injection e with e
  subst e
  refine calm_crReturnTimeout ?_
  assumption

theorem calm_crMemberRx {s t : State} {a0 : _} {a1 : _} {a2 : _} {a3 : _} (h : Calm s t) :
    Calm s (crMemberRx a0 a1 a2 a3 t) := by
  unfold crMemberRx
  refine calm_State_stations ?_
  refine calm_State_crMemberRx ?_
  assumption

theorem calm_execCrMemberRx {s t : State} {a0 : _} {a1 : _} {a2 : _} {a3 : _} {u : State} (h : Calm s t)
    (e : execCrMemberRx a0 a1 a2 a3 t = .next u) : Calm s u := by
  unfold execCrMemberRx at e
  injection e with e
  subst e
  refine calm_crMemberRx ?_
  assumption

theorem calm_txFrameEnd {s t : State} {a0 : _} (h : Calm s t) :
    Calm s (txFrameEnd a0 t) := by
  unfold txFrameEnd
  refine Calm.ite ?_ ?_
  · refine calm_State_crTxEnd ?_
    assumption
  · refine calm_State_cbFrameEnd ?_
    assumption

theorem calm_execTxFrameEnd {s t : State} {a0 : _} {u : State} (h : Calm s t)
    (e : execTxFrameEnd a0 t = .next u) : Calm s u := by
  unfold execTxFrameEnd at e
  injection e with e
  subst e
  refine calm_txFrameEnd ?_
  assumption

theorem calm_execCrClr {s t : State} {a0 : _} {a1 : _} {a2 : _} {u : State} (h : Calm s t)
    (e : execCrClr a0 a1 a2 t = .next u) : Calm s u := by
  unfold execCrClr at e
  injection e with e
  subst e
  refine calm_State_arrive (fun u1 hu1 => ?_) ?_
  · refine calm_crClr ?_
    assumption
  · assumption

theorem calm_crAcycRx {s t : State} {a0 : _} {a1 : _} {a2 : _} {a3 : _} (h : Calm s t) :
    Calm s (crAcycRx a0 a1 a2 a3 t) := by
  unfold crAcycRx
  refine calm_State_crAcycRx ?_
  assumption

theorem calm_execCrAcycRx {s t : State} {a0 : _} {a1 : _} {a2 : _} {a3 : _} {u : State} (h : Calm s t)
    (e : execCrAcycRx a0 a1 a2 a3 t = .next u) : Calm s u := by
  unfold execCrAcycRx at e
  injection e with e
  subst e
  refine calm_crAcycRx ?_
  assumption

theorem calm_crLinkChange {s t : State} {a0 : _} {a1 : _} (h : Calm s t) :
    Calm s (crLinkChange a0 a1 t) := by
  unfold crLinkChange
  refine calm_State_crLinkChange ?_
  assumption

theorem calm_execCrRxPost {s t : State} {a0 : _} {u : State} (h : Calm s t)
    (e : execCrRxPost a0 t = .next u) : Calm s u := by
  unfold execCrRxPost at e
  injection e with e
  subst e
  refine calm_crRxPost ?_
  assumption

theorem calm_execCrMemberCycleTimeout {s t : State} {a0 : _} {u : State} (h : Calm s t)
    (e : execCrMemberCycleTimeout a0 t = .next u) : Calm s u := by
  unfold execCrMemberCycleTimeout at e
  injection e with e
  subst e
  refine calm_crMemberCycleTimeout ?_
  assumption

theorem calm_execCrTxExpiry {s t : State} {a0 : _} {u : State} (h : Calm s t)
    (e : execCrTxExpiry a0 t = .next u) : Calm s u := by
  unfold execCrTxExpiry at e
  injection e with e
  subst e
  refine calm_crTxExpiry ?_
  assumption

theorem calm_execCrLinkChange {s t : State} {a0 : _} {a1 : _} {u : State} (h : Calm s t)
    (e : execCrLinkChange a0 a1 t = .next u) : Calm s u := by
  unfold execCrLinkChange at e
  injection e with e
  subst e
  refine calm_crLinkChange ?_
  assumption

theorem calm_rbRstWaitEnd {s t : State} (h : Calm s t) :
    Calm s (rbRstWaitEnd t) := by
  unfold rbRstWaitEnd
  split
  · refine Calm.ite ?_ ?_
    · refine Calm.same (t := t) ?_ rfl rfl rfl
      assumption
    · assumption
  · assumption

theorem calm_execRbRstWaitEnd {s t : State} {u : State} (h : Calm s t)
    (e : execRbRstWaitEnd t = .next u) : Calm s u := by
  unfold execRbRstWaitEnd at e
  injection e with e
  subst e
  refine calm_rbRstWaitEnd ?_
  assumption

theorem calm_rbCycleResponse {s t : State} {a0 : _} {a1 : _} (h : Calm s t) :
    Calm s (rbCycleResponse a0 a1 t) := by
  unfold rbCycleResponse
  split
  · refine Calm.ite ?_ ?_
    · refine calm_State_setCycle ?_
      assumption
    · assumption
  · assumption

theorem calm_execRbCycleResponse {s t : State} {a0 : _} {a1 : _} {u : State} (h : Calm s t)
    (e : execRbCycleResponse a0 a1 t = .next u) : Calm s u := by
  unfold execRbCycleResponse at e
  injection e with e
  subst e
  refine calm_rbCycleResponse ?_
  assumption

theorem calm_rbCycleStart {s t : State} {a0 : _} (h : Calm s t) :
    Calm s (rbCycleStart a0 t) := by
  unfold rbCycleStart
  split
  · refine Calm.ite ?_ ?_
    · refine calm_State_setCycle ?_
      assumption
    · assumption
  · refine Calm.ite ?_ ?_
    · split
      · refine calm_State_rackStart ?_
        assumption
      · assumption
    · assumption

theorem calm_execRbCycleStart {s t : State} {a0 : _} {u : State} (h : Calm s t)
    (e : execRbCycleStart a0 t = .next u) : Calm s u := by
  unfold execRbCycleStart at e
  injection e with e
  subst e
  refine calm_rbCycleStart ?_
  assumption

theorem calm_rbCycleEnd {s t : State} (h : Calm s t) :
    Calm s (rbCycleEnd t) := by
  unfold rbCycleEnd
  split
  · extract_lets +onlyGivenNames x1
    clear_value x1
    split
    · refine Calm.ite ?_ ?_
      · refine calm_State_rackEnd ?_
        assumption
      · assumption
    · refine Calm.ite ?_ ?_
      · refine calm_State_rackEnd ?_
        assumption
      · assumption
    · assumption
  · assumption

theorem calm_execRbCycleEnd {s t : State} {u : State} (h : Calm s t)
    (e : execRbCycleEnd t = .next u) : Calm s u := by
  unfold execRbCycleEnd at e
  injection e with e
  subst e
  refine calm_rbCycleEnd ?_
  assumption

theorem calm_rbBlockWrite {s t : State} (h : Calm s t) :
    Calm s (rbBlockWrite t) := by
  unfold rbBlockWrite
  refine calm_State_doLong (fun _ u1 hu1 => ?_) ?_
  · assumption
  · assumption

theorem calm_execRbBlockWrite {s t : State} {u : State} (h : Calm s t)
    (e : execRbBlockWrite t = .next u) : Calm s u := by
  unfold execRbBlockWrite at e
  injection e with e
  subst e
  refine calm_rbBlockWrite ?_
  assumption

theorem calm_rbCycleTimeout {s t : State} (h : Calm s t) :
    Calm s (rbCycleTimeout t) := by
  unfold rbCycleTimeout
  split
  · extract_lets +onlyGivenNames x1
    clear_value x1
    split
    · refine Calm.ite ?_ ?_
      · refine calm_State_setCycle ?_
        assumption
      · assumption
    · refine Calm.ite ?_ ?_
      · refine calm_State_rackPulse ?_
        assumption
      · assumption
    · refine Calm.ite ?_ ?_
      · refine calm_State_rackPulse ?_
        assumption
      · assumption
    · refine Calm.ite ?_ ?_
      · refine calm_State_rackPulse ?_
        assumption
      · assumption
    · assumption
  · assumption

end Machine
end Sys2Proof
end

