-- ==== Sys2Proof/Laws/Calm07.lean ====
section
/-!
SUPPORT. Calm: the operations of RackBridge, Checks, Plic, DebugMode, Locking, PairOps, PairLink, Recorder, Mp.
-/

set_option Elab.async false

namespace Sys2Proof
namespace Machine

theorem calm_rbBusResetEnd {s t : State} (h : Calm s t) :
    Calm s (rbBusResetEnd t) := by
  unfold rbBusResetEnd
  split
  · split
    · refine Calm.ite ?_ ?_
      · refine calm_State_rackEnd ?_
        refine calm_State_wr ?_
        assumption
      · assumption
    · assumption
  · assumption

theorem calm_execRbCycleTimeout {s t : State} {u : State} (h : Calm s t)
    (e : execRbCycleTimeout t = .next u) : Calm s u := by
  unfold execRbCycleTimeout at e
  injection e with e
  subst e
  refine calm_rbCycleTimeout ?_
  assumption

theorem calm_rbBlockRead {s t : State} (h : Calm s t) :
    Calm s (rbBlockRead t) := by
  unfold rbBlockRead
  refine calm_State_doLong (fun _ u1 hu1 => ?_) ?_
  · assumption
  · assumption

theorem calm_execRbBlockRead {s t : State} {u : State} (h : Calm s t)
    (e : execRbBlockRead t = .next u) : Calm s u := by
  unfold execRbBlockRead at e
  injection e with e
  subst e
  refine calm_rbBlockRead ?_
  assumption

theorem calm_execRbBusResetEnd {s t : State} {u : State} (h : Calm s t)
    (e : execRbBusResetEnd t = .next u) : Calm s u := by
  unfold execRbBusResetEnd at e
  injection e with e
  subst e
  refine calm_rbBusResetEnd ?_
  assumption

theorem calm_rbClr {s t : State} {a0 : _} {a1 : _} (h : Calm s t) :
    Calm s (rbClr a0 a1 t) := by
  unfold rbClr
  refine Calm.ite ?_ ?_
  · refine calm_State_setReg ?_
    refine calm_State_setReg ?_
    refine calm_State_setReg ?_
    refine calm_State_setReg ?_
    assumption
  · assumption

theorem calm_execRbClr {s t : State} {a0 : _} {a1 : _} {u : State} (h : Calm s t)
    (e : execRbClr a0 a1 t = .next u) : Calm s u := by
  unfold execRbClr at e
  injection e with e
  subst e
  refine calm_State_arrive (fun u1 hu1 => ?_) ?_
  · refine calm_rbClr ?_
    assumption
  · assumption

theorem calm_State_judgeRows {s t : State} {a1 : _} {a2 : Nat → Nat → State → State}
    (hf : ∀ k i u, Calm s u → Calm s (a2 k i u)) (h : Calm s t) : Calm s (State.judgeRows t a1 a2).2 := by
  unfold State.judgeRows
  split
  · exact h
  · exact hf _ _ _ h

theorem calm_State_runChecks {s t : State} {l : List (State → Bool × State)}
    (hf : ∀ f ∈ l, ∀ u, Calm s u → Calm s (f u).2) (h : Calm s t) : Calm s (State.runChecks t l).2 := by
  induction l generalizing t with
  | nil => exact h
  | cons f l ih =>
    unfold State.runChecks
    have h1 := hf f (List.mem_cons_self ..) t h
    extract_lets r
    split
    · exact ih (fun g hg => hf g (List.mem_cons_of_mem _ hg)) h1
    · exact h1

theorem calm_State_coreCheck {s t : State} (h : Calm s t) :
    Calm s (State.coreCheck t).2 := by
  refine CalmS.out ?_
  unfold State.coreCheck
  refine CalmS.ite ?_ ?_
  · refine CalmS.pair ?_
    refine calm_State_wr ?_
    assumption
  · refine CalmS.ite ?_ ?_
    · refine CalmS.pair ?_
      refine calm_State_raise ?_
      refine calm_State_wr ?_
      assumption
    · refine CalmS.ite ?_ ?_
      · refine CalmS.pair ?_
        refine calm_State_wr ?_
        assumption
      · refine CalmS.ite ?_ ?_
        · refine CalmS.pair ?_
          refine calm_State_wr ?_
          assumption
        · refine CalmS.pair ?_
          assumption

theorem calm_blockChecks {s : State} {b : Bool} (f : State → Bool × State) (hf : f ∈ blockChecks b) (u : State)
    (h : Calm s u) : Calm s (f u).2 := by
  unfold blockChecks at hf
  simp only [List.mem_cons, List.not_mem_nil, or_false] at hf
  rcases hf with rfl | rfl | rfl | rfl | rfl | rfl | rfl | rfl | rfl | rfl | rfl | rfl | rfl | rfl | rfl
  · exact calm_State_coreCheck h
  · exact calm_State_ringSetupCheck h
  · exact calm_State_partSetupCheck h
  · exact calm_State_tbSetupCheck h
  · exact calm_State_crSetupCheck h
  · exact calm_State_cbSetupCheck h
  · exact calm_State_judgeRows (fun _ _ _ hv => calm_State_wr (calm_State_wr (calm_State_wr hv))) h
  · exact calm_State_judgeRows (fun _ _ _ hv => calm_State_raise (calm_State_wr (calm_State_wr (calm_State_wr hv)))) h
  · exact calm_State_rbSetupCheck h
  · exact calm_State_judgeRows (fun _ _ _ hv => calm_State_raise (calm_State_wr (calm_State_wr (calm_State_wr hv)))) h
  · exact calm_State_judgeRows (fun _ _ _ hv => calm_State_raise (calm_State_wr (calm_State_wr (calm_State_wr
      (calm_State_wr hv))))) h
  · exact calm_State_judgeRows (fun _ _ _ hv => calm_State_raise (calm_State_wr (calm_State_wr (calm_State_wr hv)))) h
  · dsimp only
    split
    · exact h
    · exact calm_State_judgeRows (fun _ _ _ hv => calm_State_raise (calm_State_wr (calm_State_wr hv))) h
  · dsimp only
    split
    · exact h
    · exact calm_State_judgeRows (fun _ _ _ hv => calm_State_raise (calm_State_wr (calm_State_wr (calm_State_wr hv)))) h
  · exact calm_State_judgeRows (fun _ _ _ hv => calm_State_raise (calm_State_wr (calm_State_wr hv))) h

theorem calm_State_lockErr {s t : State} {a1 : _} (h : Calm s t) : Calm s (State.lockErr t a1).2 := by
  unfold State.lockErr
  split
  · exact h
  split
  · exact h
  split
  · exact h
  · exact calm_State_runChecks calm_blockChecks h

theorem calm_State_e1Cords {s t : State} (h : Calm s t) :
    Calm s (State.e1Cords t) := by
  unfold State.e1Cords
  refine calm_State_flueForce ?_
  refine calm_State_logForce ?_
  refine calm_State_undoForce ?_
  assumption

theorem calm_State_dbgSet {s t : State} {a1 : _} (h : Calm s t) :
    Calm s (State.dbgSet t a1) := by
  unfold State.dbgSet
  refine Calm.same (t := t) ?_ rfl rfl rfl
  assumption

theorem calm_State_actStart {s t : State} (h : Calm s t) :
    Calm s (State.actStart t) := by
  unfold State.actStart
  refine Calm.ite ?_ ?_
  · refine calm_State_cycOpen ?_
    refine calm_State_rackRelease ?_
    refine calm_State_cycLock ?_
    refine calm_State_safLock ?_
    refine calm_State_linksGo ?_
    assumption
  · extract_lets +onlyGivenNames x1
    have hx1 : Calm s x1 := ?_
    · clear_value x1
      refine Calm.same (t := x1) ?_ rfl rfl rfl
      assumption
    · unfold x1
      refine Calm.foldl ?_ (fun u2 y3 hu2 => ?_)
      · refine calm_State_rackFloat ?_
        assumption
      · refine Calm.ite ?_ ?_
        · refine calm_State_taskTo ?_
          assumption
        · assumption

theorem calm_State_recStart {s t : State} (h : Calm s t) :
    Calm s (State.recStart t) := by
  unfold State.recStart
  extract_lets +onlyGivenNames x1
  have hx1 : Calm s x1 := ?_
  · clear_value x1
    refine Calm.same (t := x1) ?_ rfl rfl rfl
    assumption
  · unfold x1
    refine calm_State_recLock ?_
    assumption

theorem calm_State_joined {s t : State} (h : Calm s t) :
    Calm s (State.joined t) := by
  unfold State.joined
  refine calm_State_pairSet ?_
  refine calm_State_wr ?_
  assumption

theorem calm_State_becomeActive {s t : State} (h : Calm s t) :
    Calm s (State.becomeActive t) := by
  unfold State.becomeActive
  extract_lets +onlyGivenNames x1
  clear_value x1
  refine calm_State_pairSet ?_
  refine calm_State_setRole ?_
  refine calm_State_pairRecWrite ?_
  assumption

theorem calm_State_ringTaken {s t : State} {a1 : _} (h : Calm s t) :
    Calm s (State.ringTaken t a1) := by
  unfold State.ringTaken
  extract_lets +onlyGivenNames x1
  clear_value x1
  refine calm_State_watch ?_
  refine calm_State_setCtx ?_
  assumption

theorem calm_State_mpLocksGone {s t : State} (h : Calm s t) :
    Calm s (State.mpLocksGone t) := by
  unfold State.mpLocksGone
  refine Calm.same (t := t) ?_ rfl rfl rfl
  assumption

theorem calm_State_ringLoose {s t : State} {a1 : _} (h : Calm s t) :
    Calm s (State.ringLoose t a1) := by
  unfold State.ringLoose
  extract_lets +onlyGivenNames x1
  clear_value x1
  extract_lets +onlyGivenNames x2
  clear_value x2
  extract_lets +onlyGivenNames x3
  clear_value x3
  extract_lets +onlyGivenNames x4
  clear_value x4
  extract_lets +onlyGivenNames x5
  have hx5 : Calm s x5 := ?_
  · clear_value x5
    refine calm_State_setCtx ?_
    assumption
  · unfold x5
    refine calm_State_setStream ?_
    assumption

theorem calm_State_partLoose {s t : State} {a1 : _} (h : Calm s t) :
    Calm s (State.partLoose t a1) := by
  unfold State.partLoose
  extract_lets +onlyGivenNames x1
  have hx1 : Calm s x1 := ?_
  · clear_value x1
    extract_lets +onlyGivenNames x2
    have hx2 : Calm s x2 := ?_
    · clear_value x2
      refine Calm.ite ?_ ?_
      · assumption
      · refine calm_State_ctlStart ?_
        assumption
    · unfold x2
      refine Calm.foldl ?_ (fun u3 y4 hu3 => ?_)
      · assumption
      · refine calm_State_setLock ?_
        assumption
  · unfold x1
    refine Calm.foldl ?_ (fun u5 y6 hu5 => ?_)
    · assumption
    · refine calm_State_ringLoose ?_
      assumption

theorem calm_State_restore {s t : State} {a1 : _} (h : Calm s t) :
    Calm s (State.restore t a1) := by
  unfold State.restore
  extract_lets +onlyGivenNames x1
  have hx1 : Calm s x1 := ?_
  · clear_value x1
    extract_lets +onlyGivenNames x2
    clear_value x2
    extract_lets +onlyGivenNames x3
    clear_value x3
    extract_lets +onlyGivenNames x4
    clear_value x4
    extract_lets +onlyGivenNames x5
    have hx5 : Calm s x5 := ?_
    · clear_value x5
      extract_lets +onlyGivenNames x6
      have hx6 : Calm s x6 := ?_
      · clear_value x6
        extract_lets +onlyGivenNames x7
        have hx7 : Calm s x7 := ?_
        · clear_value x7
          extract_lets +onlyGivenNames x8
          have hx8 : Calm s x8 := ?_
          · clear_value x8
            extract_lets +onlyGivenNames x9
            clear_value x9
            extract_lets +onlyGivenNames x10
            have hx10 : Calm s x10 := ?_
            · clear_value x10
              extract_lets +onlyGivenNames x11
              have hx11 : Calm s x11 := ?_
              · clear_value x11
                refine calm_State_pairSet ?_
                assumption
              · unfold x11
                refine Calm.ite ?_ ?_
                · refine calm_State_cbByLink ?_
                  refine calm_State_cbToSynced ?_
                  assumption
                · assumption
            · unfold x10
              refine Calm.same (t := x8) ?_ rfl rfl rfl
              assumption
          · unfold x8
            refine calm_State_wr ?_
            refine calm_State_safLock ?_
            refine calm_State_linksGo ?_
            assumption
        · unfold x7
          refine calm_State_mpLocksGone ?_
          refine Calm.ite ?_ ?_
          · refine Calm.foldl ?_ (fun u12 y13 hu12 => ?_)
            · assumption
            · refine calm_State_partLoose ?_
              assumption
          · assumption
      · unfold x6
        refine Calm.foldl ?_ (fun u14 y15 hu14 => ?_)
        · assumption
        · refine calm_State_ringTaken ?_
          assumption
    · unfold x5
      refine Calm.same (t := x1) ?_ rfl rfl rfl
      assumption
  · unfold x1
    refine calm_State_becomeActive ?_
    assumption

theorem calm_State_switchEnd {s t : State} {a1 : _} (h : Calm s t) :
    Calm s (State.switchEnd t a1) := by
  unfold State.switchEnd
  split
  · assumption
  · extract_lets +onlyGivenNames x1
    have hx1 : Calm s x1 := ?_
    · clear_value x1
      split
      · assumption
      · refine calm_State_endLong ?_
        assumption
    · unfold x1
      refine calm_State_pairSet ?_
      assumption

theorem calm_State_switchAsk {s t : State} {a1 : _} (h : Calm s t) :
    Calm s (State.switchAsk t a1) := by
  unfold State.switchAsk
  refine calm_State_pairSet ?_
  refine calm_State_pairSend ?_
  assumption

theorem calm_State_applyCells {s t : State} {a1 : _} (h : Calm s t) :
    Calm s (State.applyCells t a1) := by
  unfold State.applyCells
  refine Calm.foldl ?_ (fun u1 y2 hu1 => ?_)
  · assumption
  · refine calm_State_setByte ?_
    refine calm_State_eccWrite ?_
    assumption

theorem calm_State_applyRec {s t : State} {a1 : _} (h : Calm s t) :
    Calm s (State.applyRec t a1) := by
  unfold State.applyRec
  refine Calm.ite ?_ ?_
  · assumption
  · split
    · extract_lets +onlyGivenNames x1
      clear_value x1
      refine calm_State_applyCells ?_
      assumption
    · refine calm_State_applyCells ?_
      assumption

theorem calm_State_pairResumed {s t : State} (h : Calm s t) :
    Calm s (State.pairResumed t) := by
  unfold State.pairResumed
  refine Calm.ite ?_ ?_
  · assumption
  · extract_lets +onlyGivenNames x1
    clear_value x1
    extract_lets +onlyGivenNames x2
    have hx2 : Calm s x2 := ?_
    · clear_value x2
      refine Calm.foldl ?_ (fun u3 y4 hu3 => ?_)
      · assumption
      · refine calm_State_cycleStart ?_
        refine calm_State_setTask ?_
        assumption
    · unfold x2
      refine calm_State_cycKindle ?_
      refine calm_State_pairSet ?_
      assumption

theorem calm_State_joinAlone {s t : State} {a1 : _} (h : Calm s t) :
    Calm s (State.joinAlone t a1) := by
  unfold State.joinAlone
  extract_lets +onlyGivenNames x1
  clear_value x1
  refine Calm.ite ?_ ?_
  · refine calm_State_becomeActive ?_
    refine calm_State_joined ?_
    assumption
  · refine calm_State_setRole ?_
    refine calm_State_joined ?_
    assumption

theorem calm_State_pairClose {s t : State} (h : Calm s t) :
    Calm s (State.pairClose t) := by
  unfold State.pairClose
  extract_lets +onlyGivenNames x1
  clear_value x1
  extract_lets +onlyGivenNames x2
  have hx2 : Calm s x2 := ?_
  · clear_value x2
    refine Calm.ite ?_ ?_
    · assumption
    · extract_lets +onlyGivenNames x3
      clear_value x3
      extract_lets +onlyGivenNames x4
      have hx4 : Calm s x4 := ?_
      · clear_value x4
        refine Calm.ite ?_ ?_
        · extract_lets +onlyGivenNames x5
          clear_value x5
          extract_lets +onlyGivenNames x6
          have hx6 : Calm s x6 := ?_
          · clear_value x6
            refine calm_State_pairSet ?_
            assumption
          · unfold x6
            refine Calm.same (t := x4) ?_ rfl rfl rfl
            assumption
        · assumption
      · unfold x4
        refine calm_State_pairPut ?_
        assumption
  · unfold x2
    refine Calm.ite ?_ ?_
    · refine calm_State_pairSet ?_
      assumption
    · assumption

theorem calm_State_handedOver {s t : State} {a1 : _} (h : Calm s t) :
    Calm s (State.handedOver t a1) := by
  unfold State.handedOver
  extract_lets +onlyGivenNames x1
  have hx1 : Calm s x1 := ?_
  · clear_value x1
    refine calm_State_raise ?_
    refine calm_State_pairRecWrite ?_
    assumption
  · unfold x1
    refine calm_State_setRole ?_
    refine calm_State_stopActing ?_
    assumption

theorem calm_pairSwitch {s t : State} (h : Calm s t) :
    Calm s (pairSwitch t) := by
  unfold pairSwitch
  refine calm_State_doLong (fun _ u1 hu1 => ?_) ?_
  · refine calm_State_pairSet ?_
    refine calm_State_switchAsk ?_
    assumption
  · assumption

theorem calm_State_stepLost {s t : State} {a1 : _} (h : Calm s t) :
    Calm s (State.stepLost t a1) := by
  unfold State.stepLost
  refine calm_State_pairFence ?_
  refine calm_State_raise ?_
  assumption

theorem calm_State_revived {s t : State} (h : Calm s t) :
    Calm s (State.revived t) := by
  unfold State.revived
  extract_lets +onlyGivenNames x1
  clear_value x1
  extract_lets +onlyGivenNames x2
  have hx2 : Calm s x2 := ?_
  · clear_value x2
    refine calm_State_pairSet ?_
    refine calm_State_raise ?_
    assumption
  · unfold x2
    refine calm_State_pairRecWrite ?_
    refine calm_State_setRole ?_
    assumption

theorem calm_State_stageShow {s t : State} (h : Calm s t) :
    Calm s (State.stageShow t) := by
  unfold State.stageShow
  extract_lets +onlyGivenNames x1
  clear_value x1
  extract_lets +onlyGivenNames x2
  have hx2 : Calm s x2 := ?_
  · clear_value x2
    refine Calm.ite ?_ ?_
    · refine calm_State_stepLost ?_
      assumption
    · assumption
  · unfold x2
    refine calm_State_peak ?_
    refine calm_State_wr ?_
    assumption

theorem calm_pairSwitchTimeout {s t : State} (h : Calm s t) :
    Calm s (pairSwitchTimeout t) := by
  unfold pairSwitchTimeout
  split
  · assumption
  · refine Calm.ite ?_ ?_
    · assumption
    · refine Calm.ite ?_ ?_
      · refine Calm.ite ?_ ?_
        · refine calm_State_switchEnd ?_
          assumption
        · assumption
      · refine Calm.ite ?_ ?_
        · refine calm_State_pairSet ?_
          assumption
        · assumption

theorem calm_execPairSwitchTimeout {s t : State} {u : State} (h : Calm s t)
    (e : execPairSwitchTimeout t = .next u) : Calm s u := by
  unfold execPairSwitchTimeout at e
  injection e with e
  subst e
  refine calm_pairSwitchTimeout ?_
  assumption

theorem calm_State_switchPowers {s t : State} {a1 : _} (h : Calm s t) :
    Calm s (State.switchPowers t a1) := by
  unfold State.switchPowers
  refine Calm.ite ?_ ?_
  · refine calm_State_pairSet ?_
    refine calm_State_pairSend ?_
    assumption
  · extract_lets +onlyGivenNames x1
    have hx1 : Calm s x1 := ?_
    · clear_value x1
      refine calm_State_pairSet ?_
      assumption
    · unfold x1
      split
      · refine calm_State_pairSend ?_
        assumption
      · assumption

theorem calm_pairSwitchRequestRx {s t : State} {a0 : _} (h : Calm s t) :
    Calm s (pairSwitchRequestRx a0 t) := by
  unfold pairSwitchRequestRx
  refine Calm.ite ?_ ?_
  · assumption
  · refine Calm.ite ?_ ?_
    · refine Calm.ite ?_ ?_
      · refine calm_State_switchPowers ?_
        assumption
      · refine calm_State_pairSet ?_
        assumption
    · refine Calm.ite ?_ ?_
      · assumption
      · extract_lets +onlyGivenNames x1
        have hx1 : Calm s x1 := ?_
        · clear_value x1
          refine Calm.ite ?_ ?_
          · refine calm_State_switchPowers ?_
            assumption
          · extract_lets +onlyGivenNames x2
            have hx2 : Calm s x2 := ?_
            · clear_value x2
              refine Calm.ite ?_ ?_
              · refine calm_State_pairSet ?_
                assumption
              · assumption
            · unfold x2
              refine calm_State_pairSend ?_
              assumption
        · unfold x1
          refine Calm.ite ?_ ?_
          · refine calm_State_switchEnd ?_
            assumption
          · assumption

theorem calm_pairJoin {s t : State} {a0 : _} {a1 : _} (h : Calm s t) :
    Calm s (pairJoin a0 a1 t) := by
  unfold pairJoin
  refine Calm.ite ?_ ?_
  · refine calm_State_pairSet ?_
    assumption
  · assumption

theorem calm_execPairJoin {s t : State} {a0 : _} {a1 : _} {u : State} (h : Calm s t)
    (e : execPairJoin a0 a1 t = .next u) : Calm s u := by
  unfold execPairJoin at e
  injection e with e
  subst e
  refine calm_State_arrive (fun u1 hu1 => ?_) ?_
  · refine calm_pairJoin ?_
    assumption
  · assumption

theorem calm_execPairSwitch {s t : State} {u : State} (h : Calm s t)
    (e : execPairSwitch t = .next u) : Calm s u := by
  unfold execPairSwitch at e
  injection e with e
  subst e
  refine calm_pairSwitch ?_
  assumption

theorem calm_State_peerMoved {s t : State} {a1 : _} {a2 : _} (h : Calm s t) :
    Calm s (State.peerMoved t a1 a2) := by
  unfold State.peerMoved
  refine Calm.ite ?_ ?_
  · assumption
  · refine Calm.ite ?_ ?_
    · refine calm_State_pairSet ?_
      refine calm_State_raise ?_
      assumption
    · refine Calm.ite ?_ ?_
      · refine calm_State_pairSet ?_
        refine calm_State_wr ?_
        assumption
      · refine Calm.ite ?_ ?_
        · refine calm_State_raise ?_
          refine calm_State_wr ?_
          assumption
        · assumption

theorem calm_State_hearPeer {s t : State} {a1 : _} (h : Calm s t) :
    Calm s (State.hearPeer t a1) := by
  unfold State.hearPeer
  extract_lets +onlyGivenNames x1
  clear_value x1
  extract_lets +onlyGivenNames x2
  clear_value x2
  extract_lets +onlyGivenNames x3
  clear_value x3
  extract_lets +onlyGivenNames x4
  have hx4 : Calm s x4 := ?_
  · clear_value x4
    extract_lets +onlyGivenNames x5
    have hx5 : Calm s x5 := ?_
    · clear_value x5
      extract_lets +onlyGivenNames x6
      have hx6 : Calm s x6 := ?_
      · clear_value x6
        refine Calm.ite ?_ ?_
        · refine calm_State_strapEvent ?_
          refine calm_State_wr ?_
          assumption
        · refine Calm.ite ?_ ?_
          · refine calm_State_wr ?_
            assumption
          · assumption
      · unfold x6
        refine calm_State_pairSet ?_
        assumption
    · unfold x5
      refine calm_State_wr64 ?_
      refine calm_State_wr ?_
      assumption
  · unfold x4
    refine calm_State_wr ?_
    refine calm_State_satAdd ?_
    assumption

theorem calm_State_loopsOpen {s t : State} (h : Calm s t) :
    Calm s (State.loopsOpen t) := by
  unfold State.loopsOpen
  refine Calm.foldl ?_ (fun u1 y2 hu1 => ?_)
  · assumption
  · refine calm_State_linkPairHold ?_
    assumption

theorem calm_pairRevertTimer {s t : State} (h : Calm s t) :
    Calm s (pairRevertTimer t) := by
  unfold pairRevertTimer
  split
  · assumption
  · refine Calm.ite ?_ ?_
    · refine calm_State_pairSet ?_
      refine calm_State_pairSend ?_
      assumption
    · assumption

theorem calm_pairClr {s t : State} {a0 : _} {a1 : _} (h : Calm s t) :
    Calm s (pairClr a0 a1 t) := by
  unfold pairClr
  refine Calm.ite ?_ ?_
  · refine calm_State_wr ?_
    refine calm_State_wr ?_
    refine calm_State_wr ?_
    refine calm_State_setReg ?_
    assumption
  · assumption

theorem calm_execPairClr {s t : State} {a0 : _} {a1 : _} {u : State} (h : Calm s t)
    (e : execPairClr a0 a1 t = .next u) : Calm s u := by
  unfold execPairClr at e
  injection e with e
  subst e
  refine calm_State_arrive (fun u1 hu1 => ?_) ?_
  · refine calm_pairClr ?_
    assumption
  · assumption

theorem calm_pairLinkLane {s t : State} {a0 : _} {a1 : _} (h : Calm s t) :
    Calm s (pairLinkLane a0 a1 t) := by
  unfold pairLinkLane
  extract_lets +onlyGivenNames x1
  clear_value x1
  refine Calm.ite ?_ ?_
  · assumption
  · extract_lets +onlyGivenNames x2
    have hx2 : Calm s x2 := ?_
    · clear_value x2
      refine Calm.ite ?_ ?_
      · refine calm_State_pairFence ?_
        assumption
      · assumption
    · unfold x2
      refine calm_State_mpIrq ?_
      refine calm_State_raise ?_
      refine calm_State_wr ?_
      assumption

theorem calm_pairReadyRx {s t : State} (h : Calm s t) :
    Calm s (pairReadyRx t) := by
  unfold pairReadyRx
  split
  · refine Calm.ite ?_ ?_
    · refine calm_State_pairSet ?_
      assumption
    · assumption
  · assumption

theorem calm_execPairReadyRx {s t : State} {u : State} (h : Calm s t)
    (e : execPairReadyRx t = .next u) : Calm s u := by
  unfold execPairReadyRx at e
  injection e with e
  subst e
  refine calm_pairReadyRx ?_
  assumption

theorem calm_pairJoinTimeout {s t : State} (h : Calm s t) :
    Calm s (pairJoinTimeout t) := by
  unfold pairJoinTimeout
  split
  · assumption
  · refine Calm.ite ?_ ?_
    · refine calm_State_joinAlone ?_
      assumption
    · assumption

theorem calm_pairCopyRelay {s t : State} {a0 : _} {a1 : _} {a2 : _} {a3 : _} (h : Calm s t) :
    Calm s (pairCopyRelay a0 a1 a2 a3 t) := by
  unfold pairCopyRelay
  refine Calm.ite ?_ ?_
  · assumption
  · refine Calm.ite ?_ ?_
    · refine calm_State_pairSend ?_
      assumption
    · refine calm_State_portSend ?_
      assumption

theorem calm_execPairSwitchRequestRx {s t : State} {a0 : _} {u : State} (h : Calm s t)
    (e : execPairSwitchRequestRx a0 t = .next u) : Calm s u := by
  unfold execPairSwitchRequestRx at e
  injection e with e
  subst e
  refine calm_pairSwitchRequestRx ?_
  assumption

theorem calm_pairSwitchHandoverEnd {s t : State} {a0 : _} (h : Calm s t) :
    Calm s (pairSwitchHandoverEnd a0 t) := by
  unfold pairSwitchHandoverEnd
  split
  · refine Calm.ite ?_ ?_
    · refine calm_State_handedOver ?_
      assumption
    · assumption
  · assumption

theorem calm_execPairJoinTimeout {s t : State} {u : State} (h : Calm s t)
    (e : execPairJoinTimeout t = .next u) : Calm s u := by
  unfold execPairJoinTimeout at e
  injection e with e
  subst e
  refine calm_pairJoinTimeout ?_
  assumption

theorem calm_runPairStatus {s t : State} {a0 : _} (h : Calm s t) :
    Calm s (runPairStatus a0 t).1 := by
  refine CalmF.out ?_
  unfold runPairStatus
  extract_lets +onlyGivenNames x1
  clear_value x1
  refine CalmF.ite ?_ ?_
  · refine CalmF.pair ?_
    assumption
  · refine CalmF.ite ?_ ?_
    · refine CalmF.pair ?_
      assumption
    · extract_lets +onlyGivenNames x2
      clear_value x2
      extract_lets +onlyGivenNames x3
      have hx3 : Calm s x3.2 := ?_
      · clear_value x3
        refine CalmF.pair ?_
        refine calm_State_outBuf ?_
        assumption
      · unfold x3
        refine calm_State_freeBytes ?_
        assumption

theorem calm_pairStatus {s t : State} (h : Calm s t) :
    Calm s (pairStatus t) := by
  unfold pairStatus
  refine calm_State_doShort (fun _ u1 hu1 => ?_) ?_
  · refine calm_runPairStatus ?_
    assumption
  · assumption

theorem calm_execPairStatus {s t : State} {u : State} (h : Calm s t)
    (e : execPairStatus t = .next u) : Calm s u := by
  unfold execPairStatus at e
  injection e with e
  subst e
  refine calm_pairStatus ?_
  assumption

theorem calm_State_copyLine {s t : State} (h : Calm s t) :
    Calm s (State.copyLine t) := by
  unfold State.copyLine
  split
  · assumption
  · split
    · refine calm_State_pairPut ?_
      refine calm_State_pairSet ?_
      assumption
    · extract_lets +onlyGivenNames x1
      clear_value x1
      extract_lets +onlyGivenNames x2
      have hx2 : Calm s x2 := ?_
      · clear_value x2
        refine calm_State_pairSet ?_
        assumption
      · unfold x2
        refine calm_State_pairPut ?_
        assumption

theorem calm_State_rateShow {s t : State} (h : Calm s t) :
    Calm s (State.rateShow t) := by
  unfold State.rateShow
  refine Calm.ite ?_ ?_
  · extract_lets +onlyGivenNames x1
    clear_value x1
    refine calm_State_pairSet ?_
    refine calm_State_peak ?_
    refine calm_State_wr ?_
    assumption
  · assumption

theorem calm_State_pairTick {s t : State} (h : Calm s t) :
    Calm s (State.pairTick t) := by
  unfold State.pairTick
  refine Calm.ite ?_ ?_
  · assumption
  · extract_lets +onlyGivenNames x1
    have hx1 : Calm s x1 := ?_
    · clear_value x1
      split
      · refine calm_State_rateShow ?_
        refine calm_State_pairSet ?_
        assumption
      · extract_lets +onlyGivenNames x2
        clear_value x2
        extract_lets +onlyGivenNames x3
        clear_value x3
        refine calm_State_rateShow ?_
        refine Calm.ite ?_ ?_
        · refine calm_State_pairThrottle ?_
          refine calm_State_pairSet ?_
          assumption
        · refine calm_State_pairSet ?_
          assumption
    · unfold x1
      refine Calm.ite ?_ ?_
      · refine calm_State_copyLine ?_
        assumption
      · assumption

theorem calm_execPairRevertTimer {s t : State} {u : State} (h : Calm s t)
    (e : execPairRevertTimer t = .next u) : Calm s u := by
  unfold execPairRevertTimer at e
  injection e with e
  subst e
  refine calm_pairRevertTimer ?_
  assumption

theorem calm_execPairCopyRelay {s t : State} {a0 : _} {a1 : _} {a2 : _} {a3 : _} {u : State} (h : Calm s t)
    (e : execPairCopyRelay a0 a1 a2 a3 t = .next u) : Calm s u := by
  unfold execPairCopyRelay at e
  injection e with e
  subst e
  refine calm_pairCopyRelay ?_
  assumption

theorem calm_execPairSwitchHandoverEnd {s t : State} {a0 : _} {u : State} (h : Calm s t)
    (e : execPairSwitchHandoverEnd a0 t = .next u) : Calm s u := by
  unfold execPairSwitchHandoverEnd at e
  injection e with e
  subst e
  refine calm_pairSwitchHandoverEnd ?_
  assumption

theorem calm_pairHeartbeatTx {s t : State} (h : Calm s t) :
    Calm s (pairHeartbeatTx t) := by
  unfold pairHeartbeatTx
  refine Calm.ite ?_ ?_
  · refine calm_State_pairSet ?_
    refine calm_State_pairSend ?_
    assumption
  · assumption

theorem calm_execPairHeartbeatTx {s t : State} {u : State} (h : Calm s t)
    (e : execPairHeartbeatTx t = .next u) : Calm s u := by
  unfold execPairHeartbeatTx at e
  injection e with e
  subst e
  refine calm_pairHeartbeatTx ?_
  assumption

theorem calm_pairDiscardRx {s t : State} (h : Calm s t) :
    Calm s (pairDiscardRx t) := by
  unfold pairDiscardRx
  refine Calm.ite ?_ ?_
  · assumption
  · refine calm_State_stageShow ?_
    refine calm_State_pairSet ?_
    assumption

theorem calm_pairCloseAckRx {s t : State} {a0 : _} (h : Calm s t) :
    Calm s (pairCloseAckRx a0 t) := by
  unfold pairCloseAckRx
  refine Calm.ite ?_ ?_
  · assumption
  · extract_lets +onlyGivenNames x1
    have hx1 : Calm s x1 := ?_
    · clear_value x1
      refine Calm.same (t := x1) ?_ rfl rfl rfl
      assumption
    · unfold x1
      refine calm_State_pairSet ?_
      assumption

theorem calm_execPairCloseAckRx {s t : State} {a0 : _} {u : State} (h : Calm s t)
    (e : execPairCloseAckRx a0 t = .next u) : Calm s u := by
  unfold execPairCloseAckRx at e
  injection e with e
  subst e
  refine calm_pairCloseAckRx ?_
  assumption

theorem calm_execPairDiscardRx {s t : State} {u : State} (h : Calm s t)
    (e : execPairDiscardRx t = .next u) : Calm s u := by
  unfold execPairDiscardRx at e
  injection e with e
  subst e
  refine calm_pairDiscardRx ?_
  assumption

theorem calm_execPairLinkLane {s t : State} {a0 : _} {a1 : _} {u : State} (h : Calm s t)
    (e : execPairLinkLane a0 a1 t = .next u) : Calm s u := by
  unfold execPairLinkLane at e
  injection e with e
  subst e
  refine calm_pairLinkLane ?_
  assumption

theorem calm_recClear {s t : State} (h : Calm s t) :
    Calm s (recClear t) := by
  unfold recClear
  refine calm_State_doLong (fun _ u1 hu1 => ?_) ?_
  · extract_lets +onlyGivenNames x2
    clear_value x2
    extract_lets +onlyGivenNames x3
    clear_value x3
    extract_lets +onlyGivenNames x4
    have hx4 : Calm s x4 := ?_
    · clear_value x4
      extract_lets +onlyGivenNames x5
      clear_value x5
      refine calm_State_raise ?_
      refine calm_State_endLong ?_
      assumption
    · unfold x4
      refine calm_State_recClear ?_
      assumption
  · assumption

theorem calm_execRecClear {s t : State} {u : State} (h : Calm s t)
    (e : execRecClear t = .next u) : Calm s u := by
  unfold execRecClear at e
  injection e with e
  subst e
  refine calm_recClear ?_
  assumption

theorem calm_recNoteCmd {s t : State} {a0 : _} {a1 : _} (h : Calm s t) :
    Calm s (recNoteCmd a0 a1 t) := by
  unfold recNoteCmd
  extract_lets +onlyGivenNames x1
  clear_value x1
  refine Calm.ite ?_ ?_
  · refine calm_State_recNoteWrite ?_
    assumption
  · assumption

theorem calm_State_exportStep {s t : State} {a1 : _} (h : Calm s t) :
    Calm s (State.exportStep t a1) := by
  unfold State.exportStep
  extract_lets +onlyGivenNames x1
  clear_value x1
  extract_lets +onlyGivenNames x2
  clear_value x2
  extract_lets +onlyGivenNames x3
  clear_value x3
  extract_lets +onlyGivenNames x4
  have hx4 : Calm s x4 := ?_
  · clear_value x4
    refine Calm.ite ?_ ?_
    · refine calm_State_endLong ?_
      assumption
    · refine calm_State_setOut ?_
      assumption
  · unfold x4
    refine Calm.foldl ?_ (fun u5 y6 hu5 => ?_)
    · assumption
    · extract_lets +onlyGivenNames x7
      clear_value x7
      refine calm_State_outBuf ?_
      assumption

theorem calm_recClr {s t : State} {a0 : _} {a1 : _} (h : Calm s t) :
    Calm s (recClr a0 a1 t) := by
  unfold recClr
  refine Calm.ite ?_ ?_
  · refine calm_State_wr ?_
    refine calm_State_wr ?_
    assumption
  · assumption

theorem calm_recPeriodicSample {s t : State} {a0 : _} (h : Calm s t) :
    Calm s (recPeriodicSample a0 t) := by
  unfold recPeriodicSample
  extract_lets +onlyGivenNames x1
  clear_value x1
  extract_lets +onlyGivenNames x2
  clear_value x2
  refine Calm.ite ?_ ?_
  · extract_lets +onlyGivenNames x3
    clear_value x3
    extract_lets +onlyGivenNames x4
    have hx4 : Calm s x4 := ?_
    · clear_value x4
      extract_lets +onlyGivenNames x5
      have hx5 : Calm s x5.2 := ?_
      · clear_value x5
        refine Calm.ite ?_ ?_
        · assumption
        · split
          · assumption
          · refine calm_State_recSample ?_
            assumption
      · unfold x5
        refine CalmS.out ?_
        refine CalmS.ite ?_ ?_
        · refine ⟨?_⟩
          refine calm_State_checkAll ?_
          assumption
        · refine CalmS.pair ?_
          assumption
    · unfold x4
      refine Calm.same (t := t) ?_ rfl rfl rfl
      assumption
  · assumption

theorem calm_recExport {s t : State} (h : Calm s t) :
    Calm s (recExport t) := by
  unfold recExport
  refine calm_State_doLong (fun _ u1 hu1 => ?_) ?_
  · assumption
  · assumption

theorem calm_execRecExport {s t : State} {u : State} (h : Calm s t)
    (e : execRecExport t = .next u) : Calm s u := by
  unfold execRecExport at e
  injection e with e
  subst e
  refine calm_recExport ?_
  assumption

theorem calm_recFlush {s t : State} (h : Calm s t) :
    Calm s (recFlush t) := by
  unfold recFlush
  refine Calm.ite ?_ ?_
  · refine calm_State_recFlush ?_
    assumption
  · assumption

theorem calm_execRecFlush {s t : State} {u : State} (h : Calm s t)
    (e : execRecFlush t = .next u) : Calm s u := by
  unfold execRecFlush at e
  injection e with e
  subst e
  refine calm_recFlush ?_
  assumption

theorem calm_execRecNoteCmd {s t : State} {a0 : _} {a1 : _} {u : State} (h : Calm s t)
    (e : execRecNoteCmd a0 a1 t = .next u) : Calm s u := by
  unfold execRecNoteCmd at e
  injection e with e
  subst e
  refine calm_State_arrive (fun u1 hu1 => ?_) ?_
  · refine calm_recNoteCmd ?_
    assumption
  · assumption

theorem calm_execRecClr {s t : State} {a0 : _} {a1 : _} {u : State} (h : Calm s t)
    (e : execRecClr a0 a1 t = .next u) : Calm s u := by
  unfold execRecClr at e
  injection e with e
  subst e
  refine calm_State_arrive (fun u1 hu1 => ?_) ?_
  · refine calm_recClr ?_
    assumption
  · assumption

theorem calm_recSampleApply {s t : State} (h : Calm s t) :
    Calm s (recSampleApply t) := by
  unfold recSampleApply
  split
  · assumption
  · refine calm_State_recApply ?_
    refine Calm.same (t := t) ?_ rfl rfl rfl
    assumption

theorem calm_execRecPeriodicSample {s t : State} {a0 : _} {u : State} (h : Calm s t)
    (e : execRecPeriodicSample a0 t = .next u) : Calm s u := by
  unfold execRecPeriodicSample at e
  injection e with e
  subst e
  refine calm_recPeriodicSample ?_
  assumption

theorem calm_execRecSampleApply {s t : State} {u : State} (h : Calm s t)
    (e : execRecSampleApply t = .next u) : Calm s u := by
  unfold execRecSampleApply at e
  injection e with e
  subst e
  refine calm_recSampleApply ?_
  assumption

theorem calm_mpTelemetry {s t : State} (h : Calm s t) :
    Calm s (mpTelemetry t) := by
  unfold mpTelemetry
  extract_lets +onlyGivenNames x1
  clear_value x1
  refine Calm.ite ?_ ?_
  · refine Calm.same (t := t) ?_ rfl rfl rfl
    assumption
  · assumption

theorem calm_istClr {s t : State} {a0 : _} {a1 : _} (h : Calm s t) :
    Calm s (istClr a0 a1 t) := by
  unfold istClr
  refine Calm.ite ?_ ?_
  · refine calm_State_wr ?_
    refine calm_State_wr ?_
    refine calm_State_wr ?_
    refine calm_State_wr ?_
    refine calm_State_wr ?_
    assumption
  · assumption

theorem calm_execIstClr {s t : State} {a0 : _} {a1 : _} {u : State} (h : Calm s t)
    (e : execIstClr a0 a1 t = .next u) : Calm s u := by
  unfold execIstClr at e
  injection e with e
  subst e
  refine calm_State_arrive (fun u1 hu1 => ?_) ?_
  · refine calm_istClr ?_
    assumption
  · assumption

theorem calm_istOffpulseEnd {s t : State} (h : Calm s t) :
    Calm s (istOffpulseEnd t) := by
  unfold istOffpulseEnd
  split
  · refine Calm.ite ?_ ?_
    · refine calm_State_offPulseEnd ?_
      assumption
    · assumption
  · assumption

theorem calm_State_scrubUe {s t : State} {a1 : _} (h : Calm s t) :
    Calm s (State.scrubUe t a1) := by
  unfold State.scrubUe
  refine Calm.ite ?_ ?_
  · assumption
  · refine calm_State_wr ?_
    refine calm_State_wr ?_
    refine calm_State_wr ?_
    assumption

theorem calm_State_scrubWord {s t : State} {a1 : _} (h : Calm s t) :
    Calm s (State.scrubWord t a1) := by
  unfold State.scrubWord
  split
  · refine Calm.same (t := t) ?_ rfl rfl rfl
    assumption
  · extract_lets +onlyGivenNames x1
    clear_value x1
    extract_lets +onlyGivenNames x2
    have hx2 : Calm s x2 := ?_
    · clear_value x2
      refine calm_State_recNoteWrite ?_
      refine calm_State_raise ?_
      assumption
    · unfold x2
      refine calm_State_scrubUe ?_
      assumption

theorem calm_maFrameRx {s t : State} {a0 : _} {a1 : _} (h : Calm s t) :
    Calm s (maFrameRx a0 a1 t) := by
  unfold maFrameRx
  refine Calm.ite ?_ ?_
  · assumption
  · refine calm_State_mpIrq ?_
    refine Calm.same (t := t) ?_ rfl rfl rfl
    assumption

theorem calm_execMaFrameRx {s t : State} {a0 : _} {a1 : _} {u : State} (h : Calm s t)
    (e : execMaFrameRx a0 a1 t = .next u) : Calm s u := by
  unfold execMaFrameRx at e
  injection e with e
  subst e
  refine calm_maFrameRx ?_
  assumption

theorem calm_execMpTelemetry {s t : State} {u : State} (h : Calm s t)
    (e : execMpTelemetry t = .next u) : Calm s u := by
  unfold execMpTelemetry at e
  injection e with e
  subst e
  refine calm_mpTelemetry ?_
  assumption

theorem calm_State_scrubLine {s t : State} {a1 : _} (h : Calm s t) :
    Calm s (State.scrubLine t a1) := by
  unfold State.scrubLine
  extract_lets +onlyGivenNames x1
  clear_value x1
  extract_lets +onlyGivenNames x2
  have hx2 : Calm s x2 := ?_
  · clear_value x2
    refine Calm.foldl ?_ (fun u3 y4 hu3 => ?_)
    · assumption
    · refine calm_State_scrubWord ?_
      assumption
  · unfold x2
    refine Calm.ite ?_ ?_
    · refine calm_State_satAdd ?_
      assumption
    · assumption

theorem calm_dramScrubRead {s t : State} (h : Calm s t) :
    Calm s (dramScrubRead t) := by
  unfold dramScrubRead
  refine Calm.ite ?_ ?_
  · assumption
  · extract_lets +onlyGivenNames x1
    clear_value x1
    extract_lets +onlyGivenNames x2
    have hx2 : Calm s x2 := ?_
    · clear_value x2
      refine Calm.ite ?_ ?_
      · refine calm_State_wr ?_
        assumption
      · extract_lets +onlyGivenNames x3
        have hx3 : Calm s x3 := ?_
        · clear_value x3
          refine calm_State_raise ?_
          assumption
        · unfold x3
          refine calm_State_satAdd ?_
          refine calm_State_wr ?_
          assumption
    · unfold x2
      refine calm_State_scrubLine ?_
      refine calm_State_wr ?_
      assumption

theorem calm_mpxWdt {s t : State} {a0 : _} {a1 : _} (h : Calm s t) :
    Calm s (mpxWdt a0 a1 t) := by
  unfold mpxWdt
  refine Calm.ite ?_ ?_
  · assumption
  · extract_lets +onlyGivenNames x1
    have hx1 : Calm s x1 := ?_
    · clear_value x1
      refine Calm.ite ?_ ?_
      · refine Calm.same (t := x1) ?_ rfl rfl rfl
        assumption
      · assumption
    · unfold x1
      refine calm_State_wr ?_
      assumption

theorem calm_execMpxWdt {s t : State} {a0 : _} {a1 : _} {u : State} (h : Calm s t)
    (e : execMpxWdt a0 a1 t = .next u) : Calm s u := by
  unfold execMpxWdt at e
  injection e with e
  subst e
  refine calm_State_arrive (fun u1 hu1 => ?_) ?_
  · refine calm_mpxWdt ?_
    assumption
  · assumption

theorem calm_State_setShed {s t : State} {a1 : _} (h : Calm s t) :
    Calm s (State.setShed t a1) := by
  unfold State.setShed
  extract_lets +onlyGivenNames x1
  clear_value x1
  refine Calm.ite ?_ ?_
  · assumption
  · extract_lets +onlyGivenNames x2
    clear_value x2
    extract_lets +onlyGivenNames x3
    have hx3 : Calm s x3 := ?_
    · clear_value x3
      refine calm_State_raise ?_
      assumption
    · unfold x3
      refine calm_State_recNoteWrite ?_
      refine calm_State_wr ?_
      assumption

theorem calm_mpxM2lCmd {s t : State} {a0 : _} {a1 : _} (h : Calm s t) :
    Calm s (mpxM2lCmd a0 a1 t) := by
  unfold mpxM2lCmd
  refine Calm.ite ?_ ?_
  · extract_lets +onlyGivenNames x1
    have hx1 : Calm s x1 := ?_
    · clear_value x1
      refine calm_State_raise ?_
      assumption
    · unfold x1
      refine calm_State_wr ?_
      refine calm_State_wr ?_
      assumption
  · assumption

theorem calm_execMpxM2lCmd {s t : State} {a0 : _} {a1 : _} {u : State} (h : Calm s t)
    (e : execMpxM2lCmd a0 a1 t = .next u) : Calm s u := by
  unfold execMpxM2lCmd at e
  injection e with e
  subst e
  refine calm_State_arrive (fun u1 hu1 => ?_) ?_
  · refine calm_mpxM2lCmd ?_
    assumption
  · assumption

theorem calm_istLbistSelect {s t : State} (h : Calm s t) :
    Calm s (istLbistSelect t) := by
  unfold istLbistSelect
  refine Calm.ite ?_ ?_
  · refine Calm.same (t := t) ?_ rfl rfl rfl
    assumption
  · assumption

theorem calm_execIstLbistSelect {s t : State} {u : State} (h : Calm s t)
    (e : execIstLbistSelect t = .next u) : Calm s u := by
  unfold execIstLbistSelect at e
  injection e with e
  subst e
  refine calm_istLbistSelect ?_
  assumption

theorem calm_State_mailSend {s t : State} {a1 : _} {a2 : _} (h : Calm s t) :
    Calm s (State.mailSend t a1 a2) := by
  unfold State.mailSend
  refine Calm.ite ?_ ?_
  · refine Calm.same (t := t) ?_ rfl rfl rfl
    assumption
  · extract_lets +onlyGivenNames x1
    clear_value x1
    extract_lets +onlyGivenNames x2
    have hx2 : Calm s x2 := ?_
    · clear_value x2
      refine calm_State_raise ?_
      assumption
    · unfold x2
      refine calm_State_wr ?_
      refine calm_State_wr ?_
      refine calm_State_setReg ?_
      assumption

theorem calm_execIstOffpulseEnd {s t : State} {u : State} (h : Calm s t)
    (e : execIstOffpulseEnd t = .next u) : Calm s u := by
  unfold execIstOffpulseEnd at e
  injection e with e
  subst e
  refine calm_istOffpulseEnd ?_
  assumption

theorem calm_mpLoadWindow {s t : State} {a0 : _} (h : Calm s t) :
    Calm s (mpLoadWindow a0 t) := by
  unfold mpLoadWindow
  refine Calm.ite ?_ ?_
  · assumption
  · extract_lets +onlyGivenNames x1
    clear_value x1
    extract_lets +onlyGivenNames x2
    have hx2 : Calm s x2 := ?_
    · clear_value x2
      extract_lets +onlyGivenNames x3
      clear_value x3
      extract_lets +onlyGivenNames x4
      clear_value x4
      extract_lets +onlyGivenNames x5
      clear_value x5
      extract_lets +onlyGivenNames x6
      have hx6 : Calm s x6 := ?_
      · clear_value x6
        refine Calm.ite ?_ ?_
        · refine calm_State_setShed ?_
          assumption
        · refine Calm.ite ?_ ?_
          · refine calm_State_setShed ?_
            assumption
          · assumption
      · unfold x6
        refine Calm.same (t := x2) ?_ rfl rfl rfl
        assumption
    · unfold x2
      refine calm_State_wr ?_
      assumption

theorem calm_execMpLoadWindow {s t : State} {a0 : _} {u : State} (h : Calm s t)
    (e : execMpLoadWindow a0 t = .next u) : Calm s u := by
  unfold execMpLoadWindow at e
  injection e with e
  subst e
  refine calm_mpLoadWindow ?_
  assumption

theorem calm_calAgeCheck {s t : State} (h : Calm s t) :
    Calm s (calAgeCheck t) := by
  unfold calAgeCheck
  refine Calm.ite ?_ ?_
  · assumption
  · extract_lets +onlyGivenNames x1
    have hx1 : Calm s x1 := ?_
    · clear_value x1
      refine calm_State_calShow ?_
      refine Calm.same (t := x1) ?_ rfl rfl rfl
      assumption
    · unfold x1
      refine Calm.foldl ?_ (fun u2 y3 hu2 => ?_)
      · assumption
      · refine Calm.ite ?_ ?_
        · refine calm_State_calJudge ?_
          assumption
        · assumption

theorem calm_execCalAgeCheck {s t : State} {u : State} (h : Calm s t)
    (e : execCalAgeCheck t = .next u) : Calm s u := by
  unfold execCalAgeCheck at e
  injection e with e
  subst e
  refine calm_calAgeCheck ?_
  assumption

theorem calm_State_mailAck {s t : State} {a1 : _} (h : Calm s t) :
    Calm s (State.mailAck t a1) := by
  unfold State.mailAck
  extract_lets +onlyGivenNames x1
  have hx1 : Calm s x1 := ?_
  · clear_value x1
    split
    · assumption
    · refine Calm.ite ?_ ?_
      · refine calm_State_mailSend ?_
        refine Calm.same (t := x1) ?_ rfl rfl rfl
        assumption
      · assumption
  · unfold x1
    refine calm_State_wr ?_
    assumption

theorem calm_mpxL2mCmd {s t : State} {a0 : _} {a1 : _} (h : Calm s t) :
    Calm s (mpxL2mCmd a0 a1 t) := by
  unfold mpxL2mCmd
  extract_lets +onlyGivenNames x1
  clear_value x1
  extract_lets +onlyGivenNames x2
  have hx2 : Calm s x2 := ?_
  · clear_value x2
    refine Calm.ite ?_ ?_
    · assumption
    · extract_lets +onlyGivenNames x3
      have hx3 : Calm s x3 := ?_
      · clear_value x3
        refine Calm.ite ?_ ?_
        · refine calm_State_recNoteWrite ?_
          assumption
        · refine Calm.ite ?_ ?_
          · refine calm_State_mailSend ?_
            assumption
          · refine calm_State_mailSend ?_
            assumption
      · unfold x3
        refine calm_State_wr ?_
        refine calm_State_mpIrq ?_
        assumption
  · unfold x2
    refine calm_State_wr ?_
    refine calm_State_wr ?_
    assumption

theorem calm_calIslandDone {s t : State} {a0 : _} (h : Calm s t) :
    Calm s (calIslandDone a0 t) := by
  unfold calIslandDone
  refine Calm.ite ?_ ?_
  · extract_lets +onlyGivenNames x1
    clear_value x1
    extract_lets +onlyGivenNames x2
    have hx2 : Calm s x2 := ?_
    · clear_value x2
      refine calm_State_calDone ?_
      assumption
    · unfold x2
      refine Calm.same (t := t) ?_ rfl rfl rfl
      assumption
  · assumption

theorem calm_execCalIslandDone {s t : State} {a0 : _} {u : State} (h : Calm s t)
    (e : execCalIslandDone a0 t = .next u) : Calm s u := by
  unfold execCalIslandDone at e
  injection e with e
  subst e
  refine calm_calIslandDone ?_
  assumption

theorem calm_execDramScrubRead {s t : State} {u : State} (h : Calm s t)
    (e : execDramScrubRead t = .next u) : Calm s u := by
  unfold execDramScrubRead at e
  injection e with e
  subst e
  refine calm_dramScrubRead ?_
  assumption

end Machine
end Sys2Proof
end

