-- ==== Sys2Proof/Laws/Calm08.lean ====
section
/-!
SUPPORT. Calm: the operations of Mp, SetupRW, Image, Maint, Access, Voter, Cord, Harts, Ember, Vote, FlueOut, Engines, Fires, MpCore.
-/

set_option Elab.async false

namespace Sys2Proof
namespace Machine

theorem calm_execMpxL2mCmd {s t : State} {a0 : _} {a1 : _} {u : State} (h : Calm s t)
    (e : execMpxL2mCmd a0 a1 t = .next u) : Calm s u := by
  unfold execMpxL2mCmd at e
  injection e with e
  subst e
  refine calm_State_arrive (fun u1 hu1 => ?_) ?_
  · refine calm_mpxL2mCmd ?_
    assumption
  · assumption

theorem calm_State_imgTouched {s t : State} {a1 : _} {a2 : _} (h : Calm s t) :
    Calm s (State.imgTouched t a1 a2) := by
  unfold State.imgTouched
  split
  · assumption
  · refine Calm.ite ?_ ?_
    · refine calm_State_setReg ?_
      refine calm_State_wr ?_
      assumption
    · assumption

theorem calm_imgLoadStart {s t : State} {a0 : _} {a1 : _} (h : Calm s t) :
    Calm s (imgLoadStart a0 a1 t) := by
  unfold imgLoadStart
  refine Calm.ite ?_ ?_
  · extract_lets +onlyGivenNames x1
    have hx1 : Calm s x1 := ?_
    · clear_value x1
      refine calm_State_setReg ?_
      refine calm_State_wr ?_
      assumption
    · unfold x1
      refine calm_State_wr ?_
      refine calm_State_wr ?_
      refine calm_State_wr ?_
      assumption
  · assumption

theorem calm_State_plainWrite {s t : State} {a1 : _} {a2 : _} {a3 : _} (h : Calm s t) :
    Calm s (State.plainWrite t a1 a2 a3) := by
  unfold State.plainWrite
  split
  · assumption
  · refine Calm.ite ?_ ?_
    · refine calm_State_setReg ?_
      assumption
    · assumption

theorem calm_State_writeCore {s t : State} {a1 : _} {a2 : _} {a3 : _} (h : Calm s t) :
    Calm s (State.writeCore t a1 a2 a3) := by
  unfold State.writeCore
  refine Calm.ite ?_ ?_
  · refine calm_laneEccClr ?_
    assumption
  · refine Calm.ite ?_ ?_
    · refine calm_laneSafe ?_
      assumption
    · refine Calm.ite ?_ ?_
      · refine calm_cordClr ?_
        assumption
      · refine Calm.ite ?_ ?_
        · refine calm_flueClr ?_
          assumption
        · refine Calm.ite ?_ ?_
          · split
            · refine calm_ringCtxRead ?_
              assumption
            · refine calm_ringCtxWrite ?_
              assumption
            · assumption
          · refine calm_State_plainWrite ?_
            assumption

theorem calm_State_writePart {s t : State} {a1 : _} {a2 : _} {a3 : _} (h : Calm s t) :
    Calm s (State.writePart t a1 a2 a3) := by
  unfold State.writePart
  refine Calm.ite ?_ ?_
  · refine calm_partAbandon ?_
    assumption
  · refine Calm.ite ?_ ?_
    · refine calm_partMonClr ?_
      assumption
    · refine Calm.ite ?_ ?_
      · refine calm_lockRelease ?_
        assumption
      · refine calm_State_plainWrite ?_
        assumption

theorem calm_State_writeNet {s t : State} {a1 : _} {a2 : _} {a3 : _} (h : Calm s t) :
    Calm s (State.writeNet t a1 a2 a3) := by
  unfold State.writeNet
  refine Calm.ite ?_ ?_
  · refine calm_crClr ?_
    assumption
  · refine Calm.ite ?_ ?_
    · refine calm_crClr ?_
      assumption
    · refine Calm.ite ?_ ?_
      · refine calm_crClr ?_
        assumption
      · refine Calm.ite ?_ ?_
        · refine calm_cbClr ?_
          assumption
        · refine Calm.ite ?_ ?_
          · refine calm_cbBankDataWrite ?_
            assumption
          · refine Calm.ite ?_ ?_
            · refine calm_sigClr ?_
              assumption
            · refine Calm.ite ?_ ?_
              · refine calm_gwClr ?_
                assumption
              · refine Calm.ite ?_ ?_
                · refine calm_rbClr ?_
                  assumption
                · refine calm_State_plainWrite ?_
                  assumption

theorem calm_State_writeField {s t : State} {a1 : _} {a2 : _} {a3 : _} (h : Calm s t) :
    Calm s (State.writeField t a1 a2 a3) := by
  unfold State.writeField
  refine Calm.ite ?_ ?_
  · refine calm_cycClr ?_
    assumption
  · refine Calm.ite ?_ ?_
    · refine calm_fldClr ?_
      assumption
    · refine Calm.ite ?_ ?_
      · refine calm_fldAiSyncStatClr ?_
        assumption
      · refine Calm.ite ?_ ?_
        · refine calm_safClr ?_
          assumption
        · refine calm_State_plainWrite ?_
          assumption

theorem calm_State_writePair {s t : State} {a1 : _} {a2 : _} {a3 : _} (h : Calm s t) :
    Calm s (State.writePair t a1 a2 a3) := by
  unfold State.writePair
  refine Calm.ite ?_ ?_
  · refine calm_pairJoin ?_
    assumption
  · refine Calm.ite ?_ ?_
    · refine calm_pairClr ?_
      assumption
    · refine Calm.ite ?_ ?_
      · refine calm_recNoteCmd ?_
        assumption
      · refine Calm.ite ?_ ?_
        · refine calm_recClr ?_
          assumption
        · refine Calm.ite ?_ ?_
          · refine calm_istClr ?_
            assumption
          · refine calm_State_plainWrite ?_
            assumption

theorem calm_State_writeMpx {s t : State} {a1 : _} {a2 : _} {a3 : _} (h : Calm s t) :
    Calm s (State.writeMpx t a1 a2 a3) := by
  unfold State.writeMpx
  refine Calm.ite ?_ ?_
  · refine calm_mpxWdt ?_
    assumption
  · refine Calm.ite ?_ ?_
    · assumption
    · refine Calm.ite ?_ ?_
      · refine calm_mpxL2mCmd ?_
        assumption
      · refine Calm.ite ?_ ?_
        · refine calm_mpxM2lCmd ?_
          assumption
        · refine Calm.ite ?_ ?_
          · refine Calm.ite ?_ ?_
            · assumption
            · refine calm_State_mailAck ?_
              assumption
          · refine calm_State_plainWrite ?_
            assumption

theorem calm_execImgLoadStart {s t : State} {a0 : _} {a1 : _} {u : State} (h : Calm s t)
    (e : execImgLoadStart a0 a1 t = .next u) : Calm s u := by
  injection e with e
  subst e
  unfold State.setupStore
  split
  · exact h
  · refine calm_State_arrive (fun v hv => ?_) h
    have q : v.setupWrite a0 Reg.SYS_IMG_CMD a1 = imgLoadStart a0 a1 (v.imgTouched a0 Reg.SYS_IMG_CMD) := rfl
    rw [q]
    exact calm_imgLoadStart (calm_State_imgTouched hv)

theorem calm_State_imgPut {s t : State} {a1 : _} {a2 : _} {a3 : _} (h : Calm s t) :
    Calm s (State.imgPut t a1 a2 a3) := by
  unfold State.imgPut
  refine Calm.ite ?_ ?_
  · refine calm_State_busWrite ?_
    assumption
  · assumption

theorem calm_State_imgApplyZero {s t : State} {a1 : _} {a2 : _} (h : Calm s t) :
    Calm s (State.imgApplyZero t a1 a2).2 := by
  fun_induction State.imgApplyZero t a1 a2 with
  | case1 => exact h
  | case2 _ _ _ _ _ _ _ _ _ ih => exact ih (calm_State_imgPut h)
  | case3 => exact h

theorem calm_State_imgFail {s t : State} {a1 : _} {a2 : _} (h : Calm s t) :
    Calm s (State.imgFail t a1 a2) := by
  unfold State.imgFail
  extract_lets +onlyGivenNames x1
  have hx1 : Calm s x1.2 := ?_
  · clear_value x1
    extract_lets +onlyGivenNames x2
    have hx2 : Calm s x2.2 := ?_
    · clear_value x2
      refine calm_State_wr ?_
      refine calm_State_wr ?_
      refine calm_State_wr ?_
      assumption
    · unfold x2
      refine CalmS.out ?_
      split
      · refine CalmS.pair ?_
        assumption
      · refine CalmS.pair ?_
        assumption
  · unfold x1
    refine calm_State_draw ?_
    assumption

theorem calm_State_imgApplyParts {s t : State} {a1 : _} {a2 : _} {a3 : _} (h : Calm s t) :
    Calm s (State.imgApplyParts t a1 a2 a3).2 := by
  induction a3 generalizing t a1 a2
  · unfold State.imgApplyParts
    dsimp -zeta only
    assumption
  · rename_i ih
    unfold State.imgApplyParts
    refine CalmS.out ?_
    refine CalmS.ite ?_ ?_
    · refine ⟨?_⟩
      apply ih
      assumption
    · refine CalmS.ite ?_ ?_
      · refine CalmS.pair ?_
        assumption
      · refine ⟨?_⟩
        apply ih
        refine calm_State_imgPut ?_
        assumption

theorem calm_State_imgApplyBank {s t : State} {a1 : _} {a2 : _} {a3 : _} (h : Calm s t) :
    Calm s (State.imgApplyBank t a1 a2 a3) := by
  induction a3 generalizing t a1 a2
  · unfold State.imgApplyBank
    assumption
  · rename_i ih
    unfold State.imgApplyBank
    apply ih
    refine calm_State_setCbWord ?_
    assumption

theorem calm_State_imgAccept {s t : State} {a1 : _} {a2 : _} {a3 : _} (h : Calm s t) :
    Calm s (State.imgAccept t a1 a2 a3) := by
  unfold State.imgAccept
  extract_lets +onlyGivenNames x1
  have hx1 : Calm s x1 := ?_
  · clear_value x1
    refine calm_State_wr ?_
    refine calm_State_wr ?_
    refine calm_State_wr ?_
    assumption
  · unfold x1
    refine calm_State_setReg ?_
    refine calm_State_setReg ?_
    assumption

theorem calm_State_imgApplyData {s t : State} {a1 : _} {a2 : _} (h : Calm s t) :
    Calm s (State.imgApplyData t a1 a2).2 := by
  refine CalmS.out ?_
  unfold State.imgApplyData
  extract_lets +onlyGivenNames x1
  clear_value x1
  extract_lets +onlyGivenNames x2
  clear_value x2
  refine CalmS.ite ?_ ?_
  · refine CalmS.pair ?_
    assumption
  · refine CalmS.pair ?_
    refine calm_State_imgPut ?_
    assumption

theorem calm_State_imgApplyRings {s t : State} {a1 : _} {a2 : _} (h : Calm s t) :
    Calm s (State.imgApplyRings t a1 a2) := by
  induction a1 generalizing t a2
  · unfold State.imgApplyRings
    assumption
  · rename_i ih
    unfold State.imgApplyRings
    extract_lets +onlyGivenNames x1
    have hx1 : Calm s x1 := ?_
    · clear_value x1
      apply ih
      refine calm_ringCtxWrite ?_
      assumption
    · unfold x1
      refine Calm.foldl ?_ (fun u2 y3 hu2 => ?_)
      · refine calm_State_wr ?_
        assumption
      · refine calm_State_setReg ?_
        assumption

theorem calm_State_imgApplyBanks {s t : State} {a1 : _} (h : Calm s t) :
    Calm s (State.imgApplyBanks t a1) := by
  unfold State.imgApplyBanks
  extract_lets +onlyGivenNames x1
  have hx1 : Calm s x1 := ?_
  · clear_value x1
    split
    · assumption
    · refine calm_State_cbSet ?_
      refine calm_State_imgApplyBank ?_
      assumption
  · unfold x1
    refine calm_State_imgApplyBank ?_
    assumption

theorem calm_State_sendReply {s t : State} {a1 : _} (h : Calm s t) :
    Calm s (State.sendReply t a1) := by
  unfold State.sendReply
  refine Calm.same (t := t) ?_ rfl rfl rfl
  assumption

theorem calm_State_answer {s t : State} {a1 : _} {a2 : _} {a3 : _} {a4 : _} {a5 : _} (h : Calm s t) :
    Calm s (State.answer t a1 a2 a3 a4 a5) := by
  unfold State.answer
  refine calm_State_sendReply ?_
  assumption

theorem calm_State_maint {s t : State} {a1 : _} {a2 : _} {a3 : _} {a4 : _} {a5 : _} {a6 : State → State}
    (hf : ∀ u, Calm s u → Calm s (a6 u)) (h : Calm s t) : Calm s (State.maint t a1 a2 a3 a4 a5 a6) := by
  unfold State.maint
  split
  · exact h
  extract_lets +onlyGivenNames x1
  have h1 : Calm s x1 := calm_State_mpIrq h
  split
  · exact h1
  split
  · exact calm_State_sendReply h1
  split
  · exact calm_State_answer h1
  split
  · exact calm_State_answer h1
  extract_lets +onlyGivenNames c2 x2
  have h2 : Calm s x2 := by
    unfold x2
    split
    · exact Calm.same (t := x1) h1 rfl rfl rfl
    · exact h1
  split
  · exact calm_State_answer h2
  split
  · exact hf _ (calm_State_raise (calm_State_recNoteWrite h2))
  · exact hf _ h2

theorem calm_fwWrite {s t : State} {a0 : _} {a1 : _} {a2 : _} {a3 : _} (h : Calm s t) :
    Calm s (fwWrite a0 a1 a2 a3 t) := by
  unfold fwWrite
  extract_lets +onlyGivenNames x1
  clear_value x1
  refine calm_State_maint (fun u2 hu2 => ?_) ?_
  · refine calm_State_answer ?_
    refine calm_State_setBytes ?_
    assumption
  · assumption

theorem calm_State_unlockFailed {s t : State} (h : Calm s t) :
    Calm s (State.unlockFailed t) := by
  unfold State.unlockFailed
  extract_lets +onlyGivenNames x1
  clear_value x1
  refine Calm.ite ?_ ?_
  · refine Calm.same (t := t) ?_ rfl rfl rfl
    assumption
  · refine Calm.same (t := t) ?_ rfl rfl rfl
    assumption

theorem calm_unlock {s t : State} {a0 : _} {a1 : _} {a2 : _} {a3 : _} (h : Calm s t) :
    Calm s (unlock a0 a1 a2 a3 t) := by
  unfold unlock
  refine calm_State_maint (fun u1 hu1 => ?_) ?_
  · extract_lets +onlyGivenNames x2
    clear_value x2
    extract_lets +onlyGivenNames x3
    clear_value x3
    extract_lets +onlyGivenNames x4
    have hx4 : Calm s x4 := ?_
    · clear_value x4
      refine Calm.ite ?_ ?_
      · refine calm_State_answer ?_
        refine calm_State_wr ?_
        refine Calm.same (t := x4) ?_ rfl rfl rfl
        assumption
      · refine calm_State_answer ?_
        refine Calm.ite ?_ ?_
        · assumption
        · refine calm_State_unlockFailed ?_
          assumption
    · unfold x4
      refine Calm.same (t := u1) ?_ rfl rfl rfl
      assumption
  · assumption

theorem calm_execUnlock {s t : State} {a0 : _} {a1 : _} {a2 : _} {a3 : _} {u : State} (h : Calm s t)
    (e : execUnlock a0 a1 a2 a3 t = .next u) : Calm s u := by
  unfold execUnlock at e
  injection e with e
  subst e
  refine calm_unlock ?_
  assumption

theorem calm_debugEn {s t : State} {a0 : _} {a1 : _} (h : Calm s t) :
    Calm s (debugEn a0 a1 t) := by
  unfold debugEn
  refine calm_State_maint (fun u1 hu1 => ?_) ?_
  · refine calm_State_answer ?_
    refine Calm.ite ?_ ?_
    · refine calm_State_wr ?_
      refine calm_State_wr ?_
      assumption
    · assumption
  · assumption

theorem calm_execDebugEn {s t : State} {a0 : _} {a1 : _} {u : State} (h : Calm s t)
    (e : execDebugEn a0 a1 t = .next u) : Calm s u := by
  unfold execDebugEn at e
  injection e with e
  subst e
  refine calm_debugEn ?_
  assumption

theorem calm_maintRecExport {s t : State} {a0 : _} {a1 : _} {a2 : _} (h : Calm s t) :
    Calm s (maintRecExport a0 a1 a2 t) := by
  unfold maintRecExport
  extract_lets +onlyGivenNames x1
  clear_value x1
  refine calm_State_maint (fun u2 hu2 => ?_) ?_
  · refine Calm.ite ?_ ?_
    · refine calm_State_answer ?_
      assumption
    · refine calm_State_answer ?_
      assumption
  · assumption

theorem calm_maintRecClear {s t : State} {a0 : _} {a1 : _} {a2 : _} (h : Calm s t) :
    Calm s (maintRecClear a0 a1 a2 t) := by
  unfold maintRecClear
  extract_lets +onlyGivenNames x1
  clear_value x1
  extract_lets +onlyGivenNames x2
  clear_value x2
  refine calm_State_maint (fun u3 hu3 => ?_) ?_
  · extract_lets +onlyGivenNames x4
    have hx4 : Calm s x4 := ?_
    · clear_value x4
      extract_lets +onlyGivenNames x5
      clear_value x5
      refine calm_State_raise ?_
      refine calm_State_answer ?_
      assumption
    · unfold x4
      refine calm_State_recClear ?_
      assumption
  · assumption

theorem calm_execMaintRecClear {s t : State} {a0 : _} {a1 : _} {a2 : _} {u : State} (h : Calm s t)
    (e : execMaintRecClear a0 a1 a2 t = .next u) : Calm s u := by
  unfold execMaintRecClear at e
  injection e with e
  subst e
  refine calm_maintRecClear ?_
  assumption

theorem calm_ident {s t : State} {a0 : _} (h : Calm s t) :
    Calm s (ident a0 t) := by
  unfold ident
  refine calm_State_maint (fun u1 hu1 => ?_) ?_
  · refine calm_State_answer ?_
    assumption
  · assumption

theorem calm_consoleCommand {s t : State} {a0 : _} (h : Calm s t) :
    Calm s (consoleCommand a0 t) := by
  unfold consoleCommand
  refine Calm.ite ?_ ?_
  · assumption
  · extract_lets +onlyGivenNames x1
    have hx1 : Calm s x1 := ?_
    · clear_value x1
      extract_lets +onlyGivenNames x2
      clear_value x2
      refine calm_State_consoleLine ?_
      assumption
    · unfold x1
      refine calm_State_mpIrq ?_
      assumption

theorem calm_execConsoleCommand {s t : State} {a0 : _} {u : State} (h : Calm s t)
    (e : execConsoleCommand a0 t = .next u) : Calm s u := by
  unfold execConsoleCommand at e
  injection e with e
  subst e
  refine calm_consoleCommand ?_
  assumption

theorem calm_readMem {s t : State} {a0 : _} {a1 : _} {a2 : _} (h : Calm s t) :
    Calm s (readMem a0 a1 a2 t) := by
  unfold readMem
  extract_lets +onlyGivenNames x1
  clear_value x1
  refine calm_State_maint (fun u2 hu2 => ?_) ?_
  · extract_lets +onlyGivenNames x3
    have hx3 : Calm s x3.2 := ?_
    · clear_value x3
      extract_lets +onlyGivenNames x4
      have hx4 : Calm s x4.2 := ?_
      · clear_value x4
        refine Calm.ite ?_ ?_
        · refine calm_State_answer ?_
          assumption
        · refine calm_State_answer ?_
          assumption
      · unfold x4
        refine calm_State_readCheck ?_
        assumption
    · unfold x3
      refine calm_State_draw ?_
      assumption
  · assumption

theorem calm_execReadMem {s t : State} {a0 : _} {a1 : _} {a2 : _} {u : State} (h : Calm s t)
    (e : execReadMem a0 a1 a2 t = .next u) : Calm s u := by
  unfold execReadMem at e
  injection e with e
  subst e
  refine calm_readMem ?_
  assumption

theorem calm_unlockExpiry {s t : State} (h : Calm s t) :
    Calm s (unlockExpiry t) := by
  unfold unlockExpiry
  refine Calm.ite ?_ ?_
  · refine calm_State_wr ?_
    assumption
  · assumption

theorem calm_execUnlockExpiry {s t : State} {u : State} (h : Calm s t)
    (e : execUnlockExpiry t = .next u) : Calm s u := by
  unfold execUnlockExpiry at e
  injection e with e
  subst e
  refine calm_unlockExpiry ?_
  assumption

theorem calm_execFwWrite {s t : State} {a0 : _} {a1 : _} {a2 : _} {a3 : _} {u : State} (h : Calm s t)
    (e : execFwWrite a0 a1 a2 a3 t = .next u) : Calm s u := by
  unfold execFwWrite at e
  injection e with e
  subst e
  refine calm_fwWrite ?_
  assumption

theorem calm_notes {s t : State} {a0 : _} {a1 : _} (h : Calm s t) :
    Calm s (notes a0 a1 t) := by
  unfold notes
  refine calm_State_maint (fun u1 hu1 => ?_) ?_
  · refine calm_State_answer ?_
    assumption
  · assumption

theorem calm_fwTrial {s t : State} {a0 : _} {a1 : _} (h : Calm s t) :
    Calm s (fwTrial a0 a1 t) := by
  unfold fwTrial
  extract_lets +onlyGivenNames x1
  clear_value x1
  refine calm_State_maint (fun u2 hu2 => ?_) ?_
  · extract_lets +onlyGivenNames x3
    clear_value x3
    refine calm_State_answer ?_
    refine Calm.ite ?_ ?_
    · refine calm_State_bootRecWrite ?_
      assumption
    · assumption
  · assumption

theorem calm_execIdent {s t : State} {a0 : _} {u : State} (h : Calm s t)
    (e : execIdent a0 t = .next u) : Calm s u := by
  unfold execIdent at e
  injection e with e
  subst e
  refine calm_ident ?_
  assumption

theorem calm_execFwTrial {s t : State} {a0 : _} {a1 : _} {u : State} (h : Calm s t)
    (e : execFwTrial a0 a1 t = .next u) : Calm s u := by
  unfold execFwTrial at e
  injection e with e
  subst e
  refine calm_fwTrial ?_
  assumption

theorem calm_unlockReq {s t : State} {a0 : _} (h : Calm s t) :
    Calm s (unlockReq a0 t) := by
  unfold unlockReq
  refine calm_State_maint (fun u1 hu1 => ?_) ?_
  · extract_lets +onlyGivenNames x2
    have hx2 : Calm s x2.2 := ?_
    · clear_value x2
      extract_lets +onlyGivenNames x3
      have hx3 : Calm s x3.2 := ?_
      · clear_value x3
        extract_lets +onlyGivenNames x4
        clear_value x4
        refine calm_State_answer ?_
        extract_lets +onlyGivenNames x5
        have hx5 : Calm s x5 := ?_
        · clear_value x5
          refine Calm.same (t := x5) ?_ rfl rfl rfl
          assumption
        · unfold x5
          assumption
      · unfold x3
        refine calm_State_draw ?_
        assumption
    · unfold x2
      refine calm_State_draw ?_
      assumption
  · assumption

theorem calm_execUnlockReq {s t : State} {a0 : _} {u : State} (h : Calm s t)
    (e : execUnlockReq a0 t = .next u) : Calm s u := by
  unfold execUnlockReq at e
  injection e with e
  subst e
  refine calm_unlockReq ?_
  assumption

theorem calm_execMaintRecExport {s t : State} {a0 : _} {a1 : _} {a2 : _} {u : State} (h : Calm s t)
    (e : execMaintRecExport a0 a1 a2 t = .next u) : Calm s u := by
  unfold execMaintRecExport at e
  injection e with e
  subst e
  refine calm_maintRecExport ?_
  assumption

theorem calm_execNotes {s t : State} {a0 : _} {a1 : _} {u : State} (h : Calm s t)
    (e : execNotes a0 a1 t = .next u) : Calm s u := by
  unfold execNotes at e
  injection e with e
  subst e
  refine calm_notes ?_
  assumption

theorem calm_State_effectReq {s t : State} {a1 : _} {a2 : _} {a3 : _} {a4 : _} {a5 : _} (h : Calm s t) :
    Calm s (State.effectReq t a1 a2 a3 a4 a5).2 := by
  refine CalmS.out ?_
  unfold State.effectReq
  extract_lets +onlyGivenNames x1
  clear_value x1
  split
  · extract_lets +onlyGivenNames x2
    clear_value x2
    refine CalmS.pair ?_
    refine calm_State_mirrorRec ?_
    refine calm_State_setRecs ?_
    assumption
  · split
    · refine CalmS.pair ?_
      refine calm_State_raise ?_
      assumption
    · extract_lets +onlyGivenNames x3
      have hx3 : Calm s x3 := ?_
      · clear_value x3
        refine CalmS.pair ?_
        refine Calm.same (t := x3) ?_ rfl rfl rfl
        assumption
      · unfold x3
        refine calm_State_raise ?_
        refine calm_State_satAdd ?_
        assumption
    · extract_lets +onlyGivenNames x4
      have hx4 : Calm s x4 := ?_
      · clear_value x4
        refine CalmS.pair ?_
        split
        · refine calm_State_mirrorRec ?_
          assumption
        · assumption
      · unfold x4
        refine calm_State_flueEnter ?_
        assumption

theorem calm_State_renewLine {s t : State} {a1 : _} (h : Calm s t) :
    Calm s (State.renewLine t a1) := by
  unfold State.renewLine
  refine Calm.same (t := t) ?_ rfl rfl rfl
  assumption

theorem calm_State_asks {s t : State} {a1 : _} (h : Calm s t) :
    Calm s (State.asks t a1) := by
  unfold State.asks
  refine Calm.same (t := t) ?_ rfl rfl rfl
  assumption

theorem calm_State_setResv {s t : State} {a1 : _} {a2 : _} (h : Calm s t) :
    Calm s (State.setResv t a1 a2) := by
  unfold State.setResv
  refine Calm.same (t := t) ?_ rfl rfl rfl
  assumption

theorem calm_State_clearResv {s t : State} {a1 : _} {a2 : _} (h : Calm s t) :
    Calm s (State.clearResv t a1 a2) := by
  unfold State.clearResv
  refine Calm.same (t := t) ?_ rfl rfl rfl
  assumption

theorem calm_State_laneWrite {s t : State} {a1 : _} {a2 : _} (h : Calm s t) :
    Calm s (State.laneWrite t a1 a2) := by
  unfold State.laneWrite
  extract_lets +onlyGivenNames x1
  clear_value x1
  extract_lets +onlyGivenNames x2
  clear_value x2
  refine calm_State_mirror ?_
  refine calm_State_setBytes ?_
  refine calm_State_renewLine ?_
  refine calm_State_clearResv ?_
  assumption

theorem calm_State_memDo {s t : State} {a1 : _} (h : Calm s t) :
    Calm s (State.memDo t a1).2 := by
  refine CalmS.out ?_
  unfold State.memDo
  extract_lets +onlyGivenNames x1
  clear_value x1
  extract_lets +onlyGivenNames x2
  clear_value x2
  extract_lets +onlyGivenNames x3
  clear_value x3
  extract_lets +onlyGivenNames x4
  clear_value x4
  split
  · refine CalmS.pair ?_
    assumption
  · refine CalmS.pair ?_
    assumption
  · refine CalmS.pair ?_
    refine calm_State_setResv ?_
    assumption
  · refine CalmS.pair ?_
    refine calm_State_laneWrite ?_
    assumption
  · refine CalmS.pair ?_
    refine calm_State_laneWrite ?_
    assumption
  · extract_lets +onlyGivenNames x5
    clear_value x5
    extract_lets +onlyGivenNames x6
    have hx6 : Calm s x6 := ?_
    · clear_value x6
      refine CalmS.ite ?_ ?_
      · refine CalmS.pair ?_
        refine calm_State_laneWrite ?_
        assumption
      · refine CalmS.pair ?_
        assumption
    · unfold x6
      refine calm_State_setResv ?_
      assumption

theorem calm_State_setupMem {s t : State} {a1 : _} {a2 : _} (h : Calm s t) :
    Calm s (State.setupMem t a1 a2).2 := by
  refine CalmS.out ?_
  unfold State.setupMem
  extract_lets +onlyGivenNames x1
  clear_value x1
  extract_lets +onlyGivenNames x2
  have hx2 : Calm s x2.2 := ?_
  · clear_value x2
    refine CalmS.ite ?_ ?_
    · refine ⟨?_⟩
      refine calm_State_memDo ?_
      assumption
    · refine CalmS.pair ?_
      assumption
  · unfold x2
    refine CalmS.out ?_
    refine CalmS.ite ?_ ?_
    · refine ⟨?_⟩
      refine calm_State_readCheck ?_
      refine calm_State_missCharge ?_
      assumption
    · refine CalmS.pair ?_
      assumption

theorem calm_State_effectMem {s t : State} {a1 : _} {a2 : _} {a3 : _} (h : Calm s t) :
    Calm s (State.effectMem t a1 a2 a3).2 := by
  refine CalmS.out ?_
  unfold State.effectMem
  extract_lets +onlyGivenNames x1
  clear_value x1
  split
  · refine CalmS.pair ?_
    assumption
  · refine CalmS.pair ?_
    assumption
  · refine CalmS.pair ?_
    assumption
  · refine CalmS.pair ?_
    refine calm_State_setResv ?_
    assumption
  · refine ⟨?_⟩
    refine calm_State_effectReq ?_
    assumption
  · refine ⟨?_⟩
    refine calm_State_effectReq ?_
    assumption

theorem calm_State_takeReady {s t : State} {a1 : _} {a2 : _} (h : Calm s t) : Calm s (State.takeReady t a1 a2).2 := by
  unfold State.takeReady
  split
  · exact Calm.same (t := t) h rfl rfl rfl
  · rename_i v hv
    have h1 : Calm s v := by
      split at hv
      · injection hv with hv; subst hv; exact h
      · exact calm_State_logTake h hv
    exact calm_State_asks (Calm.same (t := v) h1 rfl rfl rfl)

theorem calm_State_faultRecord {s t : State} {a1 : _} {a2 : _} {a3 : _} {a4 : _} {a5 : _} {a6 : _} (h : Calm s t) :
    Calm s (State.faultRecord t a1 a2 a3 a4 a5 a6) := by
  unfold State.faultRecord
  refine Calm.ite ?_ ?_
  · assumption
  · extract_lets +onlyGivenNames x1
    have hx1 : Calm s x1 := ?_
    · clear_value x1
      extract_lets +onlyGivenNames x2
      have hx2 : Calm s x2 := ?_
      · clear_value x2
        refine calm_State_wr ?_
        refine calm_State_wr ?_
        refine calm_State_wr ?_
        assumption
      · unfold x2
        refine calm_State_wr ?_
        refine calm_State_wr ?_
        assumption
    · unfold x1
      refine calm_State_wr ?_
      refine calm_State_wr ?_
      refine calm_State_wr ?_
      assumption

theorem calm_State_fence {s t : State} {a1 : _} (h : Calm s t) :
    Calm s (State.fence t a1) := by
  unfold State.fence
  extract_lets +onlyGivenNames x1
  extract_lets +onlyGivenNames x2
  have hx2 : Calm s x2 := ?_
  · skip
    extract_lets +onlyGivenNames x3
    have hx3 : Calm s x3 := ?_
    · skip
      refine Calm.ite ?_ ?_
      · refine calm_State_raise ?_
        refine calm_State_setLane ?_
        assumption
      · refine calm_State_setLane ?_
        assumption
    · unfold x3
      refine calm_State_raise ?_
      refine calm_State_satAdd ?_
      assumption
  · unfold x2
    refine Calm.same (t := t) ?_ rfl rfl rfl
    assumption

theorem calm_State_anchorWrite {s t : State} (h : Calm s t) :
    Calm s (State.anchorWrite t) := by
  unfold State.anchorWrite
  extract_lets +onlyGivenNames x1
  clear_value x1
  extract_lets +onlyGivenNames x2
  clear_value x2
  refine calm_State_setBytes ?_
  assumption

theorem calm_State_coldResume {s t : State} (h : Calm s t) :
    Calm s (State.coldResume t) := by
  unfold State.coldResume
  refine Calm.same (t := t) ?_ rfl rfl rfl
  assumption

theorem calm_State_restoreFails {s t : State} (h : Calm s t) :
    Calm s (State.restoreFails t) := by
  unfold State.restoreFails
  refine calm_State_enterSafe ?_
  refine calm_State_raise ?_
  refine calm_State_wr ?_
  assumption

theorem calm_State_lbistEnd {s t : State} {a1 : _} {a2 : _} (h : Calm s t) :
    Calm s (State.lbistEnd t a1 a2) := by
  unfold State.lbistEnd
  refine Calm.ite ?_ ?_
  · refine calm_State_setLane ?_
    assumption
  · refine calm_State_raise ?_
    refine calm_State_setLane ?_
    assumption

theorem calm_State_lbistReport {s t : State} {a1 : _} {a2 : _} (h : Calm s t) :
    Calm s (State.lbistReport t a1 a2) := by
  unfold State.lbistReport
  extract_lets +onlyGivenNames x1
  have hx1 : Calm s x1 := ?_
  · clear_value x1
    extract_lets +onlyGivenNames x2
    have hx2 : Calm s x2 := ?_
    · clear_value x2
      refine calm_State_recNoteWrite ?_
      refine calm_State_raise ?_
      assumption
    · unfold x2
      refine calm_State_wr ?_
      refine calm_State_wr ?_
      assumption
  · unfold x1
    refine calm_State_satAdd ?_
    refine calm_State_satAdd ?_
    refine calm_State_wr ?_
    assumption

theorem calm_laneLbistEnd {s t : State} {a0 : _} {a1 : _} (h : Calm s t) :
    Calm s (laneLbistEnd a0 a1 t) := by
  unfold laneLbistEnd
  refine Calm.ite ?_ ?_
  · assumption
  · extract_lets +onlyGivenNames x1
    have hx1 : Calm s x1 := ?_
    · clear_value x1
      refine Calm.ite ?_ ?_
      · refine calm_State_lbistReport ?_
        assumption
      · assumption
    · unfold x1
      refine calm_State_lbistEnd ?_
      assumption

theorem calm_execLaneLbistEnd {s t : State} {a0 : _} {a1 : _} {u : State} (h : Calm s t)
    (e : execLaneLbistEnd a0 a1 t = .next u) : Calm s u := by
  unfold execLaneLbistEnd at e
  injection e with e
  subst e
  refine calm_laneLbistEnd ?_
  assumption

theorem calm_State_undoLine {s t : State} {a1 : _} (h : Calm s t) :
    Calm s (State.undoLine t a1) := by
  unfold State.undoLine
  refine calm_State_setBytes ?_
  refine calm_State_renewLine ?_
  assumption

theorem calm_State_undoLines {s t : State} {a1 : _} (h : Calm s t) :
    Calm s (State.undoLines t a1) := by
  unfold State.undoLines
  refine Calm.foldl ?_ (fun u1 y2 hu1 => ?_)
  · assumption
  · refine calm_State_undoLine ?_
    assumption

theorem calm_cordPeriodExpiry {s t : State} (h : Calm s t) :
    Calm s (cordPeriodExpiry t) := by
  unfold cordPeriodExpiry
  refine Calm.ite ?_ ?_
  · refine calm_State_requestCord ?_
    assumption
  · assumption

theorem calm_execCordPeriodExpiry {s t : State} {u : State} (h : Calm s t)
    (e : execCordPeriodExpiry t = .next u) : Calm s u := by
  unfold execCordPeriodExpiry at e
  injection e with e
  subst e
  refine calm_cordPeriodExpiry ?_
  assumption

theorem calm_State_undoAll {s t : State} (h : Calm s t) :
    Calm s (State.undoAll t) := by
  unfold State.undoAll
  refine calm_State_wr ?_
  refine calm_State_rackDrop ?_
  refine calm_State_undoLines ?_
  assumption

theorem calm_replayTimeout {s t : State} (h : Calm s t) :
    Calm s (replayTimeout t) := by
  unfold replayTimeout
  refine Calm.ite ?_ ?_
  · refine calm_State_enterSafe ?_
    refine calm_State_wr ?_
    refine calm_State_raise ?_
    assumption
  · assumption

theorem calm_execReplayTimeout {s t : State} {u : State} (h : Calm s t)
    (e : execReplayTimeout t = .next u) : Calm s u := by
  unfold execReplayTimeout at e
  injection e with e
  subst e
  refine calm_replayTimeout ?_
  assumption

theorem calm_State_timeNow {s t : State} {a1 : _} {a2 : _} (h : Calm s t) :
    Calm s (State.timeNow t a1 a2).2 := by
  refine CalmS.out ?_
  unfold State.timeNow
  refine CalmS.ite ?_ ?_
  · refine CalmS.pair ?_
    assumption
  · refine CalmS.ite ?_ ?_
    · refine CalmS.pair ?_
      assumption
    · refine ⟨?_⟩
      refine calm_State_draw ?_
      assumption

theorem calm_State_dropFetched {s t : State} {a1 : _} (h : Calm s t) :
    Calm s (State.dropFetched t a1) := by
  unfold State.dropFetched
  refine Calm.same (t := t) ?_ rfl rfl rfl
  assumption

theorem calm_State_islandOff {s t : State} {a1 : _} (h : Calm s t) :
    Calm s (State.islandOff t a1) := by
  unfold State.islandOff
  extract_lets +onlyGivenNames x1
  clear_value x1
  extract_lets +onlyGivenNames x2
  have hx2 : Calm s x2 := ?_
  · clear_value x2
    refine Calm.ite ?_ ?_
    · refine Calm.same (t := x2) ?_ rfl rfl rfl
      assumption
    · assumption
  · unfold x2
    refine calm_State_setIsl ?_
    assumption

theorem calm_State_islandsOff {s t : State} (h : Calm s t) :
    Calm s (State.islandsOff t) := by
  unfold State.islandsOff
  refine Calm.foldl ?_ (fun u1 y2 hu1 => ?_)
  · assumption
  · refine calm_State_islandOff ?_
    assumption

theorem calm_State_netQuiesce {s t : State} (h : Calm s t) :
    Calm s (State.netQuiesce t) := by
  unfold State.netQuiesce
  extract_lets +onlyGivenNames x1
  have hx1 : Calm s x1 := ?_
  · clear_value x1
    extract_lets +onlyGivenNames x2
    have hx2 : Calm s x2 := ?_
    · clear_value x2
      refine Calm.same (t := x2) ?_ rfl rfl rfl
      assumption
    · unfold x2
      refine calm_State_wr ?_
      assumption
  · unfold x1
    refine Calm.foldl ?_ (fun u3 y4 hu3 => ?_)
    · assumption
    · refine calm_State_wr ?_
      assumption

theorem calm_State_emberReached {s t : State} {a1 : _} (h : Calm s t) :
    Calm s (State.emberReached t a1) := by
  unfold State.emberReached
  refine calm_State_wr ?_
  refine calm_State_wr ?_
  assumption

theorem calm_State_saveLost {s t : State} {a1 : _} (h : Calm s t) :
    Calm s (State.saveLost t a1) := by
  unfold State.saveLost
  refine Calm.foldl ?_ (fun u1 y2 hu1 => ?_)
  · assumption
  · refine calm_State_setByte ?_
    assumption

theorem calm_State_kindleBlocks {s t : State} (h : Calm s t) :
    Calm s (State.kindleBlocks t) := by
  unfold State.kindleBlocks
  extract_lets +onlyGivenNames x1
  have hx1 : Calm s x1 := ?_
  · clear_value x1
    refine calm_State_cbStartUp ?_
    refine calm_State_crStart ?_
    assumption
  · unfold x1
    refine calm_State_cycKindle ?_
    refine calm_State_rackRelease ?_
    refine calm_State_linksGo ?_
    refine calm_State_linksHeld ?_
    assumption

theorem calm_State_kindleLanes {s t : State} (h : Calm s t) :
    Calm s (State.kindleLanes t) := by
  unfold State.kindleLanes
  refine Calm.ite ?_ ?_
  · assumption
  · refine Calm.foldl ?_ (fun u1 y2 hu1 => ?_)
    · assumption
    · refine Calm.ite ?_ ?_
      · refine calm_State_raise ?_
        refine calm_State_setLane ?_
        assumption
      · assumption

theorem calm_State_eccCount1 {s t : State} {a1 : _} {a2 : _} (h : Calm s t) :
    Calm s (State.eccCount1 t a1 a2) := by
  unfold State.eccCount1
  extract_lets +onlyGivenNames x1
  have hx1 : Calm s x1 := ?_
  · clear_value x1
    extract_lets +onlyGivenNames x2
    clear_value x2
    refine Calm.ite ?_ ?_
    · refine calm_State_raise ?_
      assumption
    · assumption
  · unfold x1
    refine calm_State_satAdd ?_
    assumption

theorem calm_State_partnerLost {s t : State} (h : Calm s t) :
    Calm s (State.partnerLost t) := by
  unfold State.partnerLost
  refine calm_State_raise ?_
  refine calm_State_wr ?_
  assumption

theorem calm_State_ackWait {s t : State} {a1 : _} (h : Calm s t) :
    Calm s (State.ackWait t a1) := by
  unfold State.ackWait
  refine Calm.same (t := t) ?_ rfl rfl rfl
  assumption

theorem calm_State_flueWatch {s t : State} {a1 : _} (h : Calm s t) :
    Calm s (State.flueWatch t a1) := by
  unfold State.flueWatch
  refine Calm.ite ?_ ?_
  · refine calm_State_watch ?_
    assumption
  · assumption

theorem calm_State_flueWrite {s t : State} {a1 : _} (h : Calm s t) :
    Calm s (State.flueWrite t a1) := by
  unfold State.flueWrite
  refine Calm.foldl ?_ (fun u1 y2 hu1 => ?_)
  · assumption
  · refine calm_State_busWrite ?_
    assumption

theorem calm_State_flueAmo {s t : State} {a1 : _} {a2 : _} (h : Calm s t) :
    Calm s (State.flueAmo t a1 a2) := by
  unfold State.flueAmo
  extract_lets +onlyGivenNames x1
  have hx1 : Calm s x1.2 := ?_
  · clear_value x1
    refine Calm.ite ?_ ?_
    · assumption
    · extract_lets +onlyGivenNames x2
      clear_value x2
      refine calm_State_busWrite ?_
      assumption
  · unfold x1
    refine calm_State_readCheck ?_
    assumption

theorem calm_State_unstall {s t : State} {a1 : _} (h : Calm s t) :
    Calm s (State.unstall t a1) := by
  unfold State.unstall
  refine Calm.same (t := t) ?_ rfl rfl rfl
  assumption

theorem calm_State_dropFlue {s t : State} {a1 : _} (h : Calm s t) :
    Calm s (State.dropFlue t a1) := by
  unfold State.dropFlue
  refine calm_State_unstall ?_
  refine calm_State_setRecs ?_
  refine calm_State_quotaHeld ?_
  assumption

theorem calm_flueDestStall {s t : State} {a0 : _} (h : Calm s t) :
    Calm s (flueDestStall a0 t) := by
  unfold flueDestStall
  extract_lets +onlyGivenNames x1
  clear_value x1
  split
  · assumption
  · refine Calm.ite ?_ ?_
    · extract_lets +onlyGivenNames x2
      clear_value x2
      extract_lets +onlyGivenNames x3
      have hx3 : Calm s x3 := ?_
      · clear_value x3
        extract_lets +onlyGivenNames x4
        have hx4 : Calm s x4 := ?_
        · clear_value x4
          refine calm_State_raise ?_
          assumption
        · unfold x4
          refine Calm.ite ?_ ?_
          · assumption
          · refine calm_State_wr ?_
            refine calm_State_wr ?_
            assumption
      · unfold x3
        refine Calm.same (t := t) ?_ rfl rfl rfl
        assumption
    · assumption

theorem calm_fluePairNoack {s t : State} (h : Calm s t) :
    Calm s (fluePairNoack t) := by
  unfold fluePairNoack
  split
  · assumption
  · refine Calm.ite ?_ ?_
    · extract_lets +onlyGivenNames x1
      have hx1 : Calm s x1 := ?_
      · clear_value x1
        refine calm_State_partnerLost ?_
        refine calm_State_raise ?_
        refine calm_State_satAdd ?_
        refine calm_State_ackWait ?_
        assumption
      · unfold x1
        refine calm_State_pairSet ?_
        assumption
    · assumption

theorem calm_execFlueDestStall {s t : State} {a0 : _} {u : State} (h : Calm s t)
    (e : execFlueDestStall a0 t = .next u) : Calm s u := by
  unfold execFlueDestStall at e
  injection e with e
  subst e
  refine calm_flueDestStall ?_
  assumption

theorem calm_execFluePairNoack {s t : State} {u : State} (h : Calm s t)
    (e : execFluePairNoack t = .next u) : Calm s u := by
  unfold execFluePairNoack at e
  injection e with e
  subst e
  refine calm_fluePairNoack ?_
  assumption

theorem calm_State_runPasses {s t : State} {a1 : _} (h : Calm s t) :
    Calm s (State.runPasses t a1) := by
  induction a1 generalizing t
  · unfold State.runPasses
    assumption
  · rename_i ih
    unfold State.runPasses
    refine Calm.ite ?_ ?_
    · assumption
    · apply ih
      refine calm_State_spend ?_
      refine calm_State_runPass ?_
      assumption

theorem calm_State_setLost {s t : State} {a1 : _} {a2 : _} (h : Calm s t) :
    Calm s (State.setLost t a1 a2) := by
  unfold State.setLost
  refine Calm.same (t := t) ?_ rfl rfl rfl
  assumption

theorem calm_State_esTake {s t : State} {a1 : _} (h : Calm s t) :
    Calm s (State.esTake t a1) := by
  unfold State.esTake
  refine Calm.same (t := t) ?_ rfl rfl rfl
  assumption

theorem calm_State_evtDrop {s t : State} {a1 : _} {a2 : _} (h : Calm s t) :
    Calm s (State.evtDrop t a1 a2) := by
  unfold State.evtDrop
  extract_lets +onlyGivenNames x1
  clear_value x1
  extract_lets +onlyGivenNames x2
  clear_value x2
  extract_lets +onlyGivenNames x3
  clear_value x3
  extract_lets +onlyGivenNames x4
  have hx4 : Calm s x4 := ?_
  · clear_value x4
    extract_lets +onlyGivenNames x5
    have hx5 : Calm s x5 := ?_
    · clear_value x5
      refine Calm.ite ?_ ?_
      · assumption
      · refine calm_State_raise ?_
        assumption
    · unfold x5
      refine calm_State_setLost ?_
      refine calm_State_esTake ?_
      assumption
  · unfold x4
    refine calm_State_setMon ?_
    refine calm_State_satAdd ?_
    assumption

theorem calm_State_evtRecord {s t : State} {a1 : _} {a2 : _} (h : Calm s t) :
    Calm s (State.evtRecord t a1 a2) := by
  unfold State.evtRecord
  extract_lets +onlyGivenNames x1
  clear_value x1
  refine Calm.ite ?_ ?_
  · refine calm_State_evtDrop ?_
    assumption
  · extract_lets +onlyGivenNames x2
    clear_value x2
    refine calm_State_setLost ?_
    refine calm_State_esTake ?_
    refine calm_State_putRecord ?_
    assumption

theorem calm_State_runBuilt {s t : State} {a1 : _} (h : Calm s t) :
    Calm s (State.runBuilt t a1) := by
  induction a1 generalizing t
  · unfold State.runBuilt
    assumption
  · rename_i ih
    unfold State.runBuilt
    extract_lets +onlyGivenNames x1
    clear_value x1
    refine Calm.ite ?_ ?_
    · assumption
    · apply ih
      refine calm_State_spend ?_
      refine calm_State_builtRun ?_
      assumption

theorem calm_State_runSnaps {s t : State} {a1 : _} (h : Calm s t) :
    Calm s (State.runSnaps t a1) := by
  unfold State.runSnaps
  refine Calm.foldl ?_ (fun u1 y2 hu1 => ?_)
  · assumption
  · refine calm_State_inputSnap ?_
    refine Calm.same (t := u1) ?_ rfl rfl rfl
    assumption

theorem calm_State_sigSlot {s t : State} {a1 : _} (h : Calm s t) :
    Calm s (State.sigSlot t a1) := by
  unfold State.sigSlot
  extract_lets +onlyGivenNames x1
  have hx1 : Calm s x1 := ?_
  · clear_value x1
    refine Calm.ite ?_ ?_
    · assumption
    · extract_lets +onlyGivenNames x2
      have hx2 : Calm s x2 := ?_
      · clear_value x2
        refine Calm.ite ?_ ?_
        · assumption
        · extract_lets +onlyGivenNames x3
          have hx3 : Calm s x3 := ?_
          · clear_value x3
            extract_lets +onlyGivenNames x4
            have hx4 : Calm s x4 := ?_
            · clear_value x4
              refine Calm.foldl ?_ (fun u5 y6 hu5 => ?_)
              · assumption
              · refine calm_State_publishCommit ?_
                assumption
            · unfold x4
              refine Calm.foldl ?_ (fun u7 y8 hu7 => ?_)
              · assumption
              · refine calm_State_inputStart ?_
                assumption
          · unfold x3
            refine calm_State_runSnaps ?_
            assumption
      · unfold x2
        refine calm_State_runBuilt ?_
        assumption
  · unfold x1
    refine calm_State_runPasses ?_
    assumption

theorem calm_State_slotWork {s t : State} {a1 : _} {a2 : _} (h : Calm s t) :
    Calm s (State.slotWork t a1 a2) := by
  unfold State.slotWork
  split
  · refine calm_State_sigSlot ?_
    refine Calm.same (t := t) ?_ rfl rfl rfl
    assumption
  · refine calm_State_gwRuns ?_
    assumption
  · split
    · refine calm_State_exportStep ?_
      assumption
    · assumption
  · assumption

theorem calm_State_ringGoOn {s t : State} {a1 : _} (h : Calm s t) :
    Calm s (State.ringGoOn t a1) := by
  unfold State.ringGoOn
  extract_lets +onlyGivenNames x1
  clear_value x1
  extract_lets +onlyGivenNames x2
  have hx2 : Calm s x2 := ?_
  · clear_value x2
    extract_lets +onlyGivenNames x3
    clear_value x3
    extract_lets +onlyGivenNames x4
    have hx4 : Calm s x4 := ?_
    · clear_value x4
      split
      · refine Calm.ite ?_ ?_
        · refine calm_State_subPart ?_
          assumption
        · refine calm_State_reindexPart ?_
          assumption
      · assumption
    · unfold x4
      split
      · refine calm_State_pubGo ?_
        refine Calm.same (t := x2) ?_ rfl rfl rfl
        assumption
      · assumption
  · unfold x2
    split
    · split
      · refine calm_State_snapCmd ?_
        refine Calm.same (t := t) ?_ rfl rfl rfl
        assumption
      · assumption
    · assumption

theorem calm_State_slotRings {s t : State} {a1 : _} {a2 : _} {a3 : _} (h : Calm s t) :
    Calm s (State.slotRings t a1 a2 a3) := by
  induction a3 generalizing t with
  | zero => exact h
  | succ n ih =>
    unfold State.slotRings
    split
    · exact h
    · extract_lets +onlyGivenNames c1 x1
      have h1 : Calm s x1 := Calm.same (t := t) h rfl rfl rfl
      exact Calm.ite (ih (calm_State_ringGoOn h1)) (Calm.ite h1 (calm_State_takeFrom h1))

theorem calm_State_serve {s t : State} {a1 : _} {a2 : _} (h : Calm s t) :
    Calm s (State.serve t a1 a2) := by
  unfold State.serve
  extract_lets +onlyGivenNames x1
  clear_value x1
  extract_lets +onlyGivenNames x2
  have hx2 : Calm s x2 := ?_
  · clear_value x2
    extract_lets +onlyGivenNames x3
    have hx3 : Calm s x3 := ?_
    · clear_value x3
      refine calm_State_slotRings ?_
      assumption
    · unfold x3
      refine calm_State_slotWork ?_
      assumption
  · unfold x2
    refine Calm.same (t := t) ?_ rfl rfl rfl
    assumption

theorem calm_engineSlotStart {s t : State} {a0 : _} (h : Calm s t) :
    Calm s (engineSlotStart a0 t) := by
  unfold engineSlotStart
  refine Calm.ite ?_ ?_
  · assumption
  · split
    · refine Calm.ite ?_ ?_
      · assumption
      · refine calm_State_slotRings ?_
        assumption
    · refine Calm.ite ?_ ?_
      · assumption
      · split
        · assumption
        · refine calm_State_serve ?_
          assumption

theorem calm_execEngineSlotStart {s t : State} {a0 : _} {u : State} (h : Calm s t)
    (e : execEngineSlotStart a0 t = .next u) : Calm s u := by
  unfold execEngineSlotStart at e
  injection e with e
  subst e
  refine calm_engineSlotStart ?_
  assumption

theorem calm_State_ptoAligns {s t : State} {a1 : _} (h : Calm s t) :
    Calm s (State.ptoAligns t a1) := by
  unfold State.ptoAligns
  refine Calm.ite ?_ ?_
  · refine calm_State_alignEvent ?_
    assumption
  · assumption

theorem calm_State_ptoConsumers {s t : State} {a1 : _} (h : Calm s t) :
    Calm s (State.ptoConsumers t a1) := by
  unfold State.ptoConsumers
  extract_lets +onlyGivenNames x1
  have hx1 : Calm s x1 := ?_
  · clear_value x1
    extract_lets +onlyGivenNames x2
    have hx2 : Calm s x2 := ?_
    · clear_value x2
      refine calm_State_ptoAligns ?_
      assumption
    · unfold x2
      refine Calm.ite ?_ ?_
      · refine calm_State_cycFires ?_
        assumption
      · assumption
  · unfold x1
    refine calm_State_cbFires ?_
    refine calm_State_stations ?_
    refine calm_State_crFires ?_
    assumption

theorem calm_State_setMp {s t : State} {a1 : _} (h : Calm s t) :
    Calm s (State.setMp t a1) := by
  unfold State.setMp
  refine Calm.same (t := t) ?_ rfl rfl rfl
  assumption

theorem calm_State_mpRetire {s t : State} {a1 : _} {a2 : _} {a3 : _} (h : Calm s t) :
    Calm s (State.mpRetire t a1 a2 a3) := by
  unfold State.mpRetire
  refine calm_State_setMp ?_
  assumption

theorem calm_State_mpExcept {s t : State} {a1 : _} {a2 : _} (h : Calm s t) :
    Calm s (State.mpExcept t a1 a2) := by
  unfold State.mpExcept
  refine calm_State_setMp ?_
  assumption

theorem calm_State_mpTimer {s t : State} {a1 : _} {a2 : _} (h : Calm s t) :
    Calm s (State.mpTimer t a1 a2) := by
  unfold State.mpTimer
  extract_lets +onlyGivenNames x1
  clear_value x1
  extract_lets +onlyGivenNames x2
  clear_value x2
  refine Calm.same (t := t) ?_ rfl rfl rfl
  assumption

end Machine
end Sys2Proof
end

