-- ==== Sys2Proof/Laws/Calm09.lean ====
section
/-!
SUPPORT. Calm: the operations of MpCore, Debug, Tick, Safety.
-/

set_option Elab.async false

namespace Sys2Proof
namespace Machine

theorem calm_State_mpDram {s t : State} {a1 : _} {a2 : _} (h : Calm s t) :
    Calm s (State.mpDram t a1 a2).2 := by
  refine CalmS.out ?_
  unfold State.mpDram
  extract_lets +onlyGivenNames x1
  clear_value x1
  refine CalmS.ite ?_ ?_
  · refine CalmS.pair ?_
    assumption
  · refine CalmS.ite ?_ ?_
    · refine CalmS.pair ?_
      assumption
    · extract_lets +onlyGivenNames x2
      have hx2 : Calm s x2.2 := ?_
      · clear_value x2
        extract_lets +onlyGivenNames x3
        have hx3 : Calm s x3 := ?_
        · clear_value x3
          refine CalmS.pair ?_
          refine Calm.ite ?_ ?_
          · refine calm_State_watch ?_
            assumption
          · assumption
        · unfold x3
          refine calm_State_busWrite ?_
          assumption
      · unfold x2
        refine calm_State_draw ?_
        assumption

theorem calm_State_mpExceptFree {s t : State} {a1 : _} (h : Calm s t) :
    Calm s (State.mpExceptFree t a1) := by
  unfold State.mpExceptFree
  refine calm_State_mpExcept ?_
  refine calm_State_draw ?_
  assumption

theorem calm_State_mpCsrRead {s t : State} {a1 : _} (h : Calm s t) :
    Calm s (State.mpCsrRead t a1).2 := by
  refine CalmS.out ?_
  unfold State.mpCsrRead
  refine CalmS.ite ?_ ?_
  · extract_lets +onlyGivenNames x1
    have hx1 : Calm s x1.2 := ?_
    · clear_value x1
      refine CalmS.pair ?_
      assumption
    · unfold x1
      refine CalmS.out ?_
      refine CalmS.ite ?_ ?_
      · refine CalmS.pair ?_
        assumption
      · refine ⟨?_⟩
        refine calm_State_draw ?_
        assumption
  · refine CalmS.pair ?_
    assumption

theorem calm_State_mpCsrPut {s t : State} {a1 : _} {a2 : _} (h : Calm s t) :
    Calm s (State.mpCsrPut t a1 a2) := by
  unfold State.mpCsrPut
  extract_lets +onlyGivenNames x1
  clear_value x1
  refine Calm.ite ?_ ?_
  · refine calm_State_setMp ?_
    assumption
  · refine Calm.ite ?_ ?_
    · refine calm_State_setMp ?_
      assumption
    · refine Calm.ite ?_ ?_
      · refine calm_State_setMp ?_
        assumption
      · refine Calm.ite ?_ ?_
        · extract_lets +onlyGivenNames x2
          clear_value x2
          refine Calm.ite ?_ ?_
          · extract_lets +onlyGivenNames x3
            have hx3 : Calm s x3.2 := ?_
            · clear_value x3
              refine calm_State_setMp ?_
              assumption
            · unfold x3
              refine calm_State_draw ?_
              assumption
          · refine calm_State_setMp ?_
            assumption
        · refine Calm.ite ?_ ?_
          · refine calm_State_setMp ?_
            assumption
          · refine Calm.ite ?_ ?_
            · refine calm_State_setMp ?_
              assumption
            · refine Calm.ite ?_ ?_
              · refine calm_State_setMp ?_
                assumption
              · refine Calm.ite ?_ ?_
                · refine calm_State_setMp ?_
                  assumption
                · refine Calm.ite ?_ ?_
                  · refine calm_State_setMp ?_
                    assumption
                  · refine Calm.ite ?_ ?_
                    · refine calm_State_setMp ?_
                      assumption
                    · assumption

theorem calm_State_mpCsrDo {s t : State} {a1 : _} {a2 : _} {a3 : _} {a4 : _} {a5 : _} (h : Calm s t) :
    Calm s (State.mpCsrDo t a1 a2 a3 a4 a5) := by
  unfold State.mpCsrDo
  extract_lets +onlyGivenNames x1
  clear_value x1
  extract_lets +onlyGivenNames x2
  clear_value x2
  refine Calm.ite ?_ ?_
  · refine calm_State_mpExceptFree ?_
    assumption
  · extract_lets +onlyGivenNames x3
    have hx3 : Calm s x3.2 := ?_
    · clear_value x3
      extract_lets +onlyGivenNames x4
      have hx4 : Calm s x4 := ?_
      · clear_value x4
        refine Calm.ite ?_ ?_
        · refine calm_State_mpCsrPut ?_
          assumption
        · assumption
      · unfold x4
        refine calm_State_mpRetire ?_
        assumption
    · unfold x3
      refine calm_State_mpCsrRead ?_
      assumption

theorem calm_State_mpInterrupt {s t : State} (h : Calm s t) :
    Calm s (State.mpInterrupt t) := by
  unfold State.mpInterrupt
  split
  · assumption
  · refine Calm.ite ?_ ?_
    · assumption
    · extract_lets +onlyGivenNames x1
      have hx1 : Calm s x1 := ?_
      · clear_value x1
        refine calm_State_setMp ?_
        assumption
      · unfold x1
        refine Calm.ite ?_ ?_
        · refine calm_State_mpRetire ?_
          assumption
        · assumption

theorem calm_State_cmdErr {s t : State} {a1 : _} (h : Calm s t) :
    Calm s (State.cmdErr t a1) := by
  unfold State.cmdErr
  refine calm_State_dbgSet ?_
  assumption

theorem calm_State_tapCapture {s t : State} {a1 : _} (h : Calm s t) :
    Calm s (State.tapCapture t a1).2 := by
  refine CalmS.out ?_
  unfold State.tapCapture
  refine CalmS.ite ?_ ?_
  · refine CalmS.pair ?_
    assumption
  · refine CalmS.ite ?_ ?_
    · refine CalmS.pair ?_
      assumption
    · refine CalmS.ite ?_ ?_
      · refine CalmS.pair ?_
        assumption
      · refine CalmS.ite ?_ ?_
        · refine ⟨?_⟩
          refine calm_State_draw ?_
          assumption
        · refine CalmS.pair ?_
          assumption

theorem calm_State_tickFld {s t : State} (h : Calm s t) :
    Calm s (State.tickFld t) := by
  unfold State.tickFld
  refine Calm.ite ?_ ?_
  · refine calm_State_upsStart ?_
    assumption
  · assumption

theorem calm_unlockedCall {s t : State} {a0 : _} {a1 : _} {a2 : _} (h : Calm s t) :
    Calm s (unlockedCall a0 a1 a2 t) := by
  unfold unlockedCall
  extract_lets +onlyGivenNames x1
  have hx1 : Calm s x1 := ?_
  · clear_value x1
    extract_lets +onlyGivenNames x2
    clear_value x2
    extract_lets +onlyGivenNames x3
    have hx3 : Calm s x3 := ?_
    · clear_value x3
      refine calm_State_raise ?_
      refine calm_State_recNoteWrite ?_
      assumption
    · unfold x3
      refine Calm.same (t := x1) ?_ rfl rfl rfl
      assumption
  · unfold x1
    refine calm_State_wr ?_
    assumption

end Machine
end Sys2Proof
end

