-- ==== Sys2Proof/Laws/RegFile.lean ====
section
/-!
SUPPORT. The register file by itself: reads, writes and frames as functions of State.regs alone, so that a proof sees a field
through any update of the rest of the state.
-/

set_option Elab.async false

namespace Sys2Proof
namespace Machine

/-- The word at an offset in a register file. -/
def regsWord (m : List (Nat × Word)) (o : Nat) : Word :=
  match Sparse.lookup m o with
  | some w => w
  | none => regReset o

/-- A field in a register file. -/
def regsRd (m : List (Nat × Word)) (f : Fld) : Nat := bits (regsWord m f.off).toNat f.lo f.w

/-- A register file with one word replaced. -/
def regsSet (m : List (Nat × Word)) (o : Nat) (w : Word) : List (Nat × Word) :=
  if w = regReset o then Sparse.erase m o else Sparse.insert m o w

/-- A register file with one field replaced. -/
def regsWr (m : List (Nat × Word)) (f : Fld) (v : Nat) : List (Nat × Word) :=
  regsSet m f.off (BitVec.ofNat 32 (setBits (regsWord m f.off).toNat f.lo f.w v))

/-- The state with another register file. -/
def State.withRegs (s : State) (m : List (Nat × Word)) : State := { s with regs := m }

theorem wr_withRegs (s : State) (f : Fld) (v : Nat) : s.wr f v = s.withRegs (regsWr s.regs f v) := rfl
theorem setReg_withRegs (s : State) (o : Nat) (w : Word) : s.setReg o w = s.withRegs (regsSet s.regs o w) := rfl
theorem withRegs_regs (s : State) (m : List (Nat × Word)) : (s.withRegs m).regs = m := rfl
theorem withRegs_withRegs (s : State) (m n : List (Nat × Word)) : (s.withRegs m).withRegs n = s.withRegs n := rfl

theorem reg_regs (s : State) (o : Nat) : s.reg o = regsWord s.regs o := rfl
theorem rd_regs (s : State) (f : Fld) : s.rd f = regsRd s.regs f := rfl
theorem setReg_regs (s : State) (o : Nat) (w : Word) : (s.setReg o w).regs = regsSet s.regs o w := rfl
theorem wr_regs (s : State) (f : Fld) (v : Nat) : (s.wr f v).regs = regsWr s.regs f v := rfl
theorem mpIrq_regs (s : State) (n : Nat) : (s.mpIrq n).regs = regsWr s.regs (mpIrqFld n) 1 := rfl
theorem satAdd_regs (s : State) (f : Fld) (n : Nat) :
    (s.satAdd f n).regs = regsWr s.regs f (min (regsRd s.regs f + n) (2 ^ f.w - 1)) := rfl
theorem modAdd_regs (s : State) (f : Fld) (n : Nat) : (s.modAdd f n).regs = regsWr s.regs f (regsRd s.regs f + n) := rfl

theorem regsWord_set_same (m : List (Nat × Word)) (o : Nat) (w : Word) : regsWord (regsSet m o w) o = w :=
  reg_setReg_same { State.reset with regs := m } o w

theorem regsWord_set_ne (m : List (Nat × Word)) {o p : Nat} (w : Word) (h : p ≠ o) :
    regsWord (regsSet m o w) p = regsWord m p := reg_setReg_ne { State.reset with regs := m } w h

theorem regsWord_wr_ne (m : List (Nat × Word)) {f : Fld} {p : Nat} (v : Nat) (h : p ≠ f.off) :
    regsWord (regsWr m f v) p = regsWord m p := regsWord_set_ne m _ h

theorem regsRd_wr_same (m : List (Nat × Word)) (f : Fld) (v : Nat) (h : f.lo + f.w ≤ 32) :
    regsRd (regsWr m f v) f = v % 2 ^ f.w := rd_wr_same { State.reset with regs := m } f v h

theorem regsRd_wr_off (m : List (Nat × Word)) {f g : Fld} (v : Nat) (h : g.off ≠ f.off) :
    regsRd (regsWr m f v) g = regsRd m g := rd_wr_off { State.reset with regs := m } v h

theorem regsRd_wr_beside (m : List (Nat × Word)) {f g : Fld} (v : Nat) (ho : g.off = f.off) (hf : f.lo + f.w ≤ 32)
    (hd : g.lo + g.w ≤ f.lo ∨ f.lo + f.w ≤ g.lo) : regsRd (regsWr m f v) g = regsRd m g :=
  rd_wr_beside { State.reset with regs := m } v ho hf hd

theorem regsRd_set_off (m : List (Nat × Word)) {o : Nat} {g : Fld} (w : Word) (h : g.off ≠ o) :
    regsRd (regsSet m o w) g = regsRd m g := rd_setReg_off { State.reset with regs := m } w h

/-- Only the named fields differ between two register files. -/
def regsOnly (fs : List Fld) (m n : List (Nat × Word)) : Prop :=
  ∀ g : Fld, g.lo + g.w ≤ 32 → (∀ f ∈ fs, Fld.apart f g) → regsRd n g = regsRd m g

theorem onlyFlds_iff (fs : List Fld) (s t : State) : onlyFlds fs s t ↔ regsOnly fs s.regs t.regs := Iff.rfl

theorem regsOnly_refl (fs : List Fld) (m : List (Nat × Word)) : regsOnly fs m m := fun _ _ _ => rfl

theorem regsOnly_wr {fs : List Fld} {m n : List (Nat × Word)} {f : Fld} {v : Nat} (h : regsOnly fs m n) (hf : f ∈ fs)
    (hw : f.lo + f.w ≤ 32) : regsOnly fs m (regsWr n f v) :=
  onlyFlds_wr (s := { State.reset with regs := m }) (t := { State.reset with regs := n }) v h hf hw

/-- Only the named registers differ between two register files. -/
def regsBut (os : List Nat) (m n : List (Nat × Word)) : Prop := ∀ o, o ∉ os → regsWord n o = regsWord m o

theorem onlyRegs_iff (os : List Nat) (s t : State) : onlyRegs os s t ↔ regsBut os s.regs t.regs := Iff.rfl

theorem regsBut_refl (os : List Nat) (m : List (Nat × Word)) : regsBut os m m := fun _ _ => rfl

theorem regsBut_set {os : List Nat} {m n : List (Nat × Word)} {o : Nat} {w : Word} (h : regsBut os m n) (ho : o ∈ os) :
    regsBut os m (regsSet n o w) := by
  intro x hx
  rw [← h x hx]
  exact regsWord_set_ne n w (fun e => hx (e ▸ ho))

theorem regsBut_wr {os : List Nat} {m n : List (Nat × Word)} {f : Fld} {v : Nat} (h : regsBut os m n) (ho : f.off ∈ os) :
    regsBut os m (regsWr n f v) := regsBut_set h ho

end Machine
end Sys2Proof
end

