-- ==== Sys2Proof/Laws/Resets.lean ====
section
/-!
SUPPORT. What a reset of the module leaves (R69).
-/

set_option Elab.async false

namespace Sys2Proof
namespace Machine

theorem lookup_filter {α : Type} (m : List (Nat × α)) (P : Nat → Bool) (k : Nat) :
    Sparse.lookup (m.filter (fun p => P p.1)) k = if P k then Sparse.lookup m k else none := by
  induction m with
  | nil => simp [Sparse.lookup]
  | cons p t ih =>
    obtain ⟨j, v⟩ := p
    by_cases hj : P j
    · simp only [List.filter, hj, Sparse.lookup]
      by_cases e : j = k
      · subst e; simp [hj]
      · simp [e, ih]
    · simp only [List.filter, hj, Sparse.lookup]
      by_cases e : j = k
      · subst e; simp [hj, ih]
      · simp [e, ih]

seal regsWr regsSet regsWord regsRd

theorem rd_lt (s : State) (f : Fld) : s.rd f < 2 ^ f.w := by
  unfold State.rd bits; exact Nat.mod_lt _ (Nat.two_pow_pos _)

theorem resetBase_byte (s : State) (c : ResetCause) (rail a : Nat) :
    (resetBase s c rail).byte a = if a < 0x1000000000 ∨ dramLost c rail = false then s.byte a else 0 := by
  unfold resetBase State.byte
  cases hd : dramLost c rail
  · simp
  · simp only [if_true, Sparse.get]
    rw [lookup_filter s.mem (fun k => decide (k < 0x1000000000)) a]
    by_cases ha : a < 0x1000000000 <;> simp [ha]

theorem resetPower_eq {s : State} (h : s.phase ≠ Phase.reset) (c : ResetCause) :
    resetPower s c = { Power.start with
      hold := holdOf c
      rtc := if c = ResetCause.por ∨ c = ResetCause.vlogFail then 0 else s.pwr.rtc
      rtcFrac := if c = ResetCause.por ∨ c = ResetCause.vlogFail then 0 else s.pwr.rtcFrac
      fuseKeys := s.pwr.fuseKeys
      fuseRevoked := s.pwr.fuseRevoked
      fuseSvn := s.pwr.fuseSvn
      fuseImgSig := s.pwr.fuseImgSig } := by
  unfold resetPower
  cases c <;> simp [h]

theorem resetBase_regs (s : State) (c : ResetCause) (rail : Nat) : (resetBase s c rail).regs = [] := rfl

theorem resetBase_ecc (s : State) (c : ResetCause) (rail : Nat) : (resetBase s c rail).ecc = if dramLost c rail then [] else s.ecc := rfl

theorem resetBase_pwr (s : State) (c : ResetCause) (rail : Nat) : (resetBase s c rail).pwr = resetPower s c := rfl

theorem resetBase_withRegs (s : State) (c : ResetCause) (rail : Nat) (r : List (Nat × Word)) :
    (resetBase s c rail).withRegs r = { State.reset with
      pending := s.pending, regs := r, mem := (resetBase s c rail).mem, ecc := (resetBase s c rail).ecc
      pwr := (resetBase s c rail).pwr, freeCtr := s.freeCtr } := rfl

seal resetBase

theorem recordCause_eq (z : State) {s : State} (h : s.phase ≠ Phase.reset) (c : ResetCause) (rail : Nat) :
    z.recordCause s c rail = z.withRegs (regsWr (regsWr (regsWr z.regs F.SYS_RSTCAUSE_LAST c.code) F.SYS_RSTCAUSE_RAIL_ID rail)
      F.SYS_RSTCAUSE_STICKY (if c = ResetCause.por then 1 else s.rd F.SYS_RSTCAUSE_STICKY ||| 2 ^ c.code)) := by
  unfold State.recordCause
  rw [if_neg h]
  simp only [wr_withRegs, withRegs_withRegs, withRegs_regs]

/-- The registers with the fields that a reset keeps, taken from a state. -/
def keptRegs (r : List (Nat × Word)) (s : State) : List (Nat × Word) :=
  regsWr (regsWr (regsWr (regsWr (regsWr (regsWr (regsWr (regsWr (regsWr (regsWr r
    F.SYS_ID_TEMP_T (s.rd F.SYS_ID_TEMP_T)) F.SYS_ID_VARIANT (s.rd F.SYS_ID_VARIANT)) F.SYS_STEP_SOC_STEP
    (s.rd F.SYS_STEP_SOC_STEP)) F.SYS_STEP_ISL_STEP (s.rd F.SYS_STEP_ISL_STEP))
    F.PWR_STAT_FEED_A (s.rd F.PWR_STAT_FEED_A)) F.PWR_STAT_FEED_B (s.rd F.PWR_STAT_FEED_B)) F.PWR_STAT_PF (s.rd F.PWR_STAT_PF))
    F.PWR_STAT_HU_OK (s.rd F.PWR_STAT_HU_OK)) F.PWR_STAT_VLOG (s.rd F.PWR_STAT_VLOG)) F.PWR_STAT_DIE_TEMP (s.rd F.PWR_STAT_DIE_TEMP)

theorem keepMeasured_eq (z s : State) : z.keepMeasured s = z.withRegs (keptRegs z.regs s) := by
  unfold State.keepMeasured keptRegs keptFields
  simp only [List.foldl, wr_withRegs, withRegs_withRegs, withRegs_regs]

theorem resetModule_regs {s : State} (h : s.phase ≠ Phase.reset) (c : ResetCause) (rail : Nat) : ∃ r,
    s.resetModule c rail = (resetBase s c rail).withRegs r ∧ r =
      regsWr (regsWr (regsWr (keptRegs [] s) F.SYS_RSTCAUSE_LAST c.code) F.SYS_RSTCAUSE_RAIL_ID rail) F.SYS_RSTCAUSE_STICKY
        (if c = ResetCause.por then 1 else s.rd F.SYS_RSTCAUSE_STICKY ||| 2 ^ c.code) := by
  refine ⟨_, ?_, rfl⟩
  unfold State.resetModule
  rw [recordCause_eq _ h, keepMeasured_eq, withRegs_withRegs, withRegs_regs, resetBase_regs]

/-- A reset out of any other phase than Reset leaves what resetFrom says. -/

theorem resetModule_spec {s : State} (h : s.phase ≠ Phase.reset) (c : ResetCause) (rail : Nat) (hr : rail < 8) :
    resetFrom c rail s (s.resetModule c rail) := by
  obtain ⟨r, e, hq⟩ := resetModule_regs h c rail
  have hp := resetPower_eq h c
  generalize hst : (if c = ResetCause.por then 1 else s.rd F.SYS_RSTCAUSE_STICKY ||| 2 ^ c.code) = st at hq
  have hst2 : st < 1024 := by
    have := rd_lt s F.SYS_RSTCAUSE_STICKY
    subst hst
    split
    · decide
    · exact Nat.or_lt_two_pow (n := 10) this (by cases c <;> decide)
  have hregs := congrArg State.regs e
  rw [withRegs_regs, hq] at hregs
  have hr2 : State.reset.regs = [] := rfl
  unfold resetFrom
  rw [onlyFlds_iff, hr2]
  simp only [rd_regs, hregs]
  simp only [← rd_regs]
  unfold keptRegs
  refine ⟨?_, ?_, ?_, ?_, ?_, ?_, ?_, ?_, ?_⟩
  · simp (disch := decide) only [regsRd_wr_same, regsRd_wr_off, regsRd_wr_beside]; cases c <;> decide
  · simp (disch := decide) only [regsRd_wr_same, regsRd_wr_off, regsRd_wr_beside]; exact Nat.mod_eq_of_lt hr
  · simp (disch := decide) only [regsRd_wr_same, regsRd_wr_off, regsRd_wr_beside]; rw [hst]; exact Nat.mod_eq_of_lt hst2
  · intro f hf
    have h2 := rd_lt s f
    simp only [List.mem_cons, List.not_mem_nil, or_false] at hf
    rcases hf with rfl | rfl | rfl | rfl | rfl | rfl | rfl | rfl | rfl | rfl <;> (simp (disch := decide) only [regsRd_wr_same, regsRd_wr_off, regsRd_wr_beside]; exact Nat.mod_eq_of_lt h2)
  · repeat first
      | with_reducible exact regsOnly_refl _ _
      | refine regsOnly_wr ?_ (by decide) (by decide)
  · intro a
    rw [← resetBase_byte, e]; rfl
  · rw [e]; exact resetBase_ecc s c rail
  · rw [e, ← hp]; exact resetBase_pwr s c rail
  · rw [e]; subst hq; exact resetBase_withRegs s c rail _
end Machine
end Sys2Proof
end

