-- ==== Sys2Proof/Laws/Save.lean ====
section
/-!
SUPPORT. The save area of E3: what is written with its CRC-32C passes it, and a byte of the CRC that is lost fails it (R79, R85, R591).
-/

namespace Sys2Proof
namespace Machine

theorem length_leBytes (n v : Nat) : (leBytes n v).length = n := by
  induction n generalizing v with
  | zero => rfl
  | succ n ih => exact congrArg (· + 1) (ih _)

theorem leNat_leBytes (n v : Nat) (h : v < 256 ^ n) : leNat (leBytes n v) = v := by
  induction n generalizing v with
  | zero => rw [Nat.pow_zero] at h; simp only [leBytes, leNat]; omega
  | succ n ih =>
    have e := ih (v / 256) (by rw [Nat.pow_succ] at h; omega)
    simp only [leBytes, leNat, e, BitVec.toNat_ofNat]
    omega

theorem length_withCrc (bs : List Byte) : (withCrc bs).length = bs.length + 4 := by
  simp only [withCrc, List.length_append, length_leBytes]

@[simp] theorem length_bytes (s : State) (a n : Nat) : (s.bytes a n).length = n := by
  induction n generalizing a with
  | zero => rfl
  | succ n ih => exact congrArg (· + 1) (ih _)

theorem bytes_setByte_outside (s : State) {a i n : Nat} (b : Byte) (h : i + n ≤ a ∨ a < i) :
    (s.setByte a b).bytes i n = s.bytes i n := by
  induction n generalizing i with
  | zero => rfl
  | succ n ih =>
    simp only [State.bytes]
    rw [byte_setByte_ne _ _ (by omega), ih (by omega)]

@[simp] theorem length_freeBytes (s : State) (n : Nat) : (s.freeBytes n).1.length = n := by
  induction n generalizing s with
  | zero => rfl
  | succ n ih => exact congrArg (· + 1) (ih _)

@[simp] theorem freeBytes_regs (s : State) (n : Nat) : (s.freeBytes n).2.regs = s.regs := by
  induction n generalizing s with
  | zero => rfl
  | succ n ih => exact ih s.draw.2

@[simp] theorem setBytes_regs (s : State) (a : Nat) (bs : List Byte) : (s.setBytes a bs).regs = s.regs := by
  induction bs generalizing s a with
  | nil => rfl
  | cons b l ih => exact ih (s.setByte a b) (a + 1)

@[simp] theorem setBytes_pwr (s : State) (a : Nat) (bs : List Byte) : (s.setBytes a bs).pwr = s.pwr := by
  induction bs generalizing s a with
  | nil => rfl
  | cons b l ih => exact ih (s.setByte a b) (a + 1)

theorem saveBase_of_regs {s t : State} (h : t.regs = s.regs) : t.saveBase = s.saveBase := by
  unfold State.saveBase State.rd State.reg
  rw [h]

theorem bytes_of_mem {s t : State} (h : t.mem = s.mem) (a n : Nat) : t.bytes a n = s.bytes a n := by
  induction n generalizing a with
  | zero => rfl
  | succ n ih =>
    simp only [State.bytes]
    rw [ih]
    unfold State.byte
    rw [h]

/-- Whether the save area passes depends on memory and its base alone. -/
theorem saveOk_of_eq {s t : State} (hr : t.regs = s.regs) (hm : t.mem = s.mem) : t.saveOk = s.saveOk := by
  unfold State.saveOk State.le
  rw [saveBase_of_regs hr, bytes_of_mem hm, bytes_of_mem hm]

/-- Bytes written over the save area with their CRC-32C pass it. -/
theorem saveOk_setBytes (s : State) {bs : List Byte} (h : bs.length = saveLen) :
    (s.setBytes s.saveBase (withCrc bs)).saveOk = true := by
  have hb : (s.setBytes s.saveBase (withCrc bs)).saveBase = s.saveBase := saveBase_of_regs (setBytes_regs ..)
  have hall := bytes_setBytes (withCrc bs) s s.saveBase
  rw [length_withCrc, bytes_append] at hall
  obtain ⟨h1, h2⟩ := List.append_inj hall (by rw [h]; exact (length_bytes ..).trans rfl)
  unfold State.saveOk State.le
  rw [hb, ← h, h1, h2, leNat_leBytes _ _ (crc32c bs).isLt]
  exact decide_eq_true rfl

theorem saveOk_saveWrite {s : State} {bs : List Byte} {base : Nat} (hb : base = s.saveBase) (h : bs.length = saveLen) :
    (State.saveWrite base (withCrc bs, s)).saveOk = true := by
  subst hb
  rw [← saveOk_setBytes s h]
  exact saveOk_of_eq rfl rfl

/-- The save area that an entry into E3 writes passes its CRC-32C. -/
theorem saveOk_emberSave (s : State) : s.emberSave.saveOk = true :=
  saveOk_saveWrite (saveBase_of_regs (freeBytes_regs ..)).symm (length_freeBytes ..)

/-- A save area whose CRC has lost a byte no longer passes. -/
theorem saveOk_lost {s : State} (h : s.saveOk = true) :
    (s.saveLost [(⟨4194300, by decide⟩, ~~~ s.byte (s.saveBase + saveLen))]).saveOk = false := by
  obtain ⟨b, hb⟩ : ∃ b, b = s.byte (s.saveBase + saveLen) := ⟨_, rfl⟩
  have e := of_decide_eq_true h
  rw [← hb]
  show State.saveOk (s.setByte (s.saveBase + saveLen) (~~~ b)) = false
  have hs : (s.setByte (s.saveBase + saveLen) (~~~ b)).saveBase = s.saveBase := saveBase_of_regs rfl
  unfold State.saveOk
  rw [hs, bytes_setByte_outside s (~~~ b) (.inl (Nat.le_refl _)), ← e]
  refine decide_eq_false fun q => ?_
  have hr := bytes_setByte_outside s (~~~ b) (a := s.saveBase + saveLen) (i := s.saveBase + saveLen + 1) (n := 3) (.inr (Nat.lt_succ_self _))
  have two (u : State) (a : Nat) : u.bytes a 4 = u.byte a :: u.bytes (a + 1) 3 := rfl
  rw [State.le, State.le, two, two, byte_setByte_same, hr, ← hb] at q
  simp only [leNat, BitVec.toNat_not] at q
  have := b.isLt
  omega

end Machine
end Sys2Proof
end

