-- ==== Sys2Proof/Laws/Tick.lean ====
section
/-!
SUPPORT. What a clock of the time base leaves.
-/

set_option Elab.async false

namespace Sys2Proof
namespace Machine

@[simp] theorem tickRaw_pending (s : State) : s.tickRaw.pending = s.pending := by unfold State.tickRaw; split <;> rfl
@[simp] theorem tickRaw_mem (s : State) : s.tickRaw.mem = s.mem := by unfold State.tickRaw; split <;> rfl
@[simp] theorem tickRaw_regs (s : State) : s.tickRaw.regs = s.regs := by unfold State.tickRaw; split <;> rfl
@[simp] theorem tickRaw_pwr (s : State) : s.tickRaw.pwr = s.pwr := by unfold State.tickRaw; split <;> rfl
@[simp] theorem tickRaw_incr (s : State) : s.tickRaw.tb.incr = s.tb.incr := by unfold State.tickRaw; split <;> rfl
@[simp] theorem tickRtc_pending (s : State) : s.tickRtc.pending = s.pending := by unfold State.tickRtc; split; rfl; dsimp; split <;> rfl
@[simp] theorem tickRtc_mem (s : State) : s.tickRtc.mem = s.mem := by unfold State.tickRtc; split; rfl; dsimp; split <;> rfl
@[simp] theorem tickRtc_regs (s : State) : s.tickRtc.regs = s.regs := by unfold State.tickRtc; split; rfl; dsimp; split <;> rfl
@[simp] theorem tickRtc_tb (s : State) : s.tickRtc.tb = s.tb := by unfold State.tickRtc; split; rfl; dsimp; split <;> rfl

end Machine
end Sys2Proof
end

