-- ==== Sys2Proof/Tests/Slice0.lean ====
section
/-!
SUPPORT. Tests: refusals of WellFormed, words and results that the spec works out itself, and for every clause with
hypotheses of Sys2Proof/Certificates/Slice0/Obligations.lean a state and operands that meet them all.
-/

set_option maxRecDepth 8000
set_option linter.all false
set_option Elab.async false

namespace Sys2Proof
namespace Tests
open Machine

/-! ## Small states -/

/-- A state with register fields set. -/
def withFlds (l : List (Fld × Nat)) (s : State) : State := l.foldl (fun t x => t.wr x.1 x.2) s
/-- A powered module out of reset, in a phase, its time base running at count 1000. -/
def inPhase (p : Phase) : State :=
  { (State.reset.setPhase p) with
    pwr := { Power.start with hold := .none, relay := true, safeN := true }
    tb := { TimeBase.start with locked := true, raw := 1000 } }
def sSetup : State := inPhase .setup
def sOp : State := { inPhase .operate with lanes := { State.reset.lanes with on := true } }
/-- The same offer from each lane, and another one from lane C. -/
def offer (r : LaneReq) : LaneOffer := ⟨some r, 0, false⟩
def same3 (r : LaneReq) : Offers := ⟨offer r, offer r, offer r⟩
/-- A request of hart 1 in partition 3 on 8 bytes. -/
def reqAt (k : ReqKind) (a : Nat) (d : DWord) : LaneReq := ⟨k, BitVec.ofNat 40 a, 8, d.setWidth 512, 0xFF, 1, .machine, 3⟩
def sSetupOn : State := { sSetup with lanes := { State.reset.lanes with on := true } }
/-- Hart 1 in the Setup phase at an instruction of DRAM, x1 = 100, x2 = 7, x3 an address in DRAM. -/
def hart1 : Hart :=
  { Hart.start with
    pc := 0x1000000200, x := [(1, 100), (2, 7), (3, 0x1000000400)], mtvec := 0x1000000801, mscratch := 77, mie := true
    mepc := 0x1000000300 }
def sHart : State := sSetupOn.setHart 1 hart1
/-- The same with a word in hand. -/
def sHand (w : Word) : State := { sHart with lanes := { sHart.lanes with fetched := [(1, w)] } }
/-- Hart 1 in the Operate phase. -/
def sOpHart : State := sOp.setHart 1 hart1
/-- A store of hart 1 held by the Flue. -/
def sRec : FlueRec := ⟨1, 3, 0x8005, 1, .store, 0x1000000104, 4, addrBytes 0x1000000104 [1, 2, 3, 4], [], true, none, none, 0⟩
def sFlue (r : FlueRec) : State := withFlds [(F.FLUE_QUOTA_HELD 3, 1)] { sOp with flue := { sOp.flue with recs := [r] } }
/-- A Cord is requested; task 0 runs. -/
def sCord : State :=
  withFlds [(F.TASK_CTL_EN 0, 1), (F.TASK_STAT_STATE 0, 4)] { sOp with cord := { sOp.cord with causes := 8, undo := [⟨0x1000000040, zeros 64, 3⟩] } }
/-- A rollback with one undo entry and one logged read. -/
def sRoll : State :=
  withFlds [(F.CORD_STAT_ROLLING, 1)] { sOp with cord := { sOp.cord with
    undo := [⟨0x1000000040, zeros 64, 3⟩, ⟨0x1000000080, zeros 64, 3⟩], log := [.vread 1 8 0x60100000 5 none]
    sealedRec := some ⟨3, State.reset.harts, State.reset.plic⟩ } }
/-- Ring 5: enabled, of partition 3 and an engine, descriptors at 0x1000010000, completions at 0x1000020000, one descriptor to take. -/
def ctx5 (e : Nat) : RingCtx :=
  { ringZero with
    sqBase := 0x1000010, cqBase := 0x1000020, en := true, engine := BitVec.ofNat 5 e, part := 3, sqTail := 1, st := .busy }
/-- A descriptor of ring 5 with words that are not 0 given by their offsets. -/
def cmd5 (l : List (Nat × Word)) : Cmd :=
  { ring := 5, pos := 0, words := (List.range 16).map (fun i => Sparse.get l 0 (4 * i)), long := false, ntAcc := 0, fin := none, prog := 0, aux := [] }
/-- Engine e of a running module has a descriptor in hand. -/
def sEng (e : Nat) (c : Cmd) (s : State) : State := { s with rings := { s.rings with ctx := [(5, ctx5 e)], hand := [(e, c)] } }
/-- Car ring 1 of a running module: EtherType 0x88B6, ring 9, both channels, all ports with link, Running with CYCLE 70. -/
def sCar (role : Nat) : State :=
  withFlds [(F.CR_CFG_ROLE 1, role), (F.CR_CFG_A_EN 1, 1), (F.CR_CFG_B_EN 1, 1), (F.CR_CFG_RING_ID 1, 9), (F.CR_CFG_POS 1, 7), (F.CR_CFG_LOSS_N 1, 2),
    (F.CR_ETYPE_ETYPE 1, 0x88B6), (F.CR_LEN_SLICE_LEN 1, 8), (F.CR_STATE_STATE 1, 2), (F.CR_STATE_A_OK 1, 1), (F.CR_STATE_B_OK 1, 1),
    (F.CR_STATE_LINK 1, 15), (F.CR_CYCLE_CYCLE 1, 70), (F.CR_MASTER_RET_TMO 1, 100)] sOp
def sCarNode (role : Nat) (x : CarNode) : State := (sCar role).setNode 1 x
def sCopy (ch cyc : Nat) : List Byte := (sCar 2).crCopy 1 ch cyc []
/-- A page of Volatile memory at 0x1000000000. -/
def volat (s : State) : State :=
  withFlds [(F.RAT_BASE_BASE 2, 0x1000000), (F.RAT_LIMIT_LIMIT 2, 0x1000000), (F.RAT_CTL_EN 2, 1), (F.RAT_CTL_TYPE 2, 1)] s
/-- A long command outstanding on ring 5 of engine e. -/
def sOut (e : Nat) (c : Cmd) (s : State) : State := { s with rings := { s.rings with ctx := [(5, ctx5 e)], out := [c] } }
/-- The two words of a window entry of the active bank's basic cycle 0. -/
def winCells (w start kind who len prio cyc : Nat) : List (Nat × Word) :=
  [(4 + 2 * w, BitVec.ofNat 32 (start + 2 ^ 20 * kind + 2 ^ 24 * who)), (5 + 2 * w, BitVec.ofNat 32 (len + 2 ^ 20 * prio + 2 ^ 23 * cyc))]
/-- A synced backbone node 5 of time master 3, at TB_RAW `raw`, its basic cycle 0 having started at TB_RAW `start`: window 0 of the
time master, windows 1 (acyclic) and 2 (cyclic) of the node, window 3 arbitrating of group 6. -/
def sCb (role start raw : Nat) : State :=
  withFlds [(F.CB_CFG_ROLE, role), (F.CB_CFG_A_EN, 1), (F.CB_CFG_B_EN, 1), (F.CB_CFG_NODE, 5), (F.CB_CFG_TM_NODE, 3), (F.CB_CFG_SYNC_LOSS_N, 2),
    (F.CB_BC_BC_LEN, 1000), (F.CB_ETYPE_ETYPE, 0x88B7), (F.CB_SPAN_SPAN, 10), (F.CB_SYNCCHK_SYNC_TOL, 200), (F.CB_ARB_BO_SLOT, 20), (F.CB_GRP_LO_GRP, 64),
    (F.CB_GRP_HI_GRP, 2), (F.CB_MAC_LO_MAC_LO, 0x22), (F.CB_STAT_STATE, 2), (F.CB_STAT_A_OK, 1), (F.CB_STAT_B_OK, 1), (F.CB_STAT_LINK, 5),
    (F.CB_BANKS_VALID0, 1), (F.CB_ID0_SCHED_ID, 0x77), (F.CB_MCN_MCN, 40), (F.CB_POS_N_BC, 4)]
    { sOp with
      tb := { sOp.tb with raw := raw }
      cb := { Cb.start0 with
        start := start, starts := 3, judged := false
        banks := [(1, 4)] ++ winCells 0 0 1 3 1000 0 0 ++ winCells 1 2000 2 5 20000 0 0 ++ winCells 2 30000 2 5 20000 0 1 ++ winCells 3 60000 3 6 20000 0 0 } }
/-- A frame of TYPE `ty` that another node sends. -/
def cbFrom (ch ty node : Nat) (body : List Byte) : List Byte :=
  (withFlds [(F.CB_MAC_LO_MAC_LO, 0x99), (F.CB_CFG_NODE, node)] (sCb 1 900 1000)).cbFrame ch ty body
/-- A sync frame of the time master with active bank 0x77. -/
def cbSyncOf (node : Nat) : List Byte := cbFrom 0 0 node ([0, 0, 0, 41, 2, 4, 0, 0, 0, 0, 0, 0x77] ++ zeros 40)
/-- 32-bit words in memory from an address. -/
def atMem (a : Nat) (ws : List Word) (s : State) : State := s.setBytes a (wordBytes ws)
/-- The signal store of a running module: receive dataset 0 (DSID 0x55, slot 0) and publish dataset 1 (DSID 0x56, slot 1), both
of partition 3, 8 bytes, one 32-bit signal each; partition 3 may read and force slots 0 to 15. -/
def sSigOn (s : State) : State :=
  let s := withFlds [(F.SIG_DSET_BASE_BASE, 0x1000100), (F.SIG_DSET_COUNT_COUNT, 2), (F.SIG_BUF_BASE_BASE, 0x1000200), (F.SIG_MAP_BASE_BASE, 0x1000300),
    (F.SIG_ACC_BASE_BASE, 0x1000400), (F.SIG_STORE_BASE_BASE, 129), (F.SIG_SLOTS_SLOTS, 16), (F.PE_SIGMAP_SIGMAP 3, 0x100000)] s
  let s := atMem 0x1000100000 [0x04000055, 0x00080803, 0, 100, 0, 0, 0, 0, 0, 0, 0, 0, 0] s
  let s := atMem 0x1000100040 [0x08000056, 0x00080803, 1, 100, 4, 0, 0, 0, 0, 0, 0, 0, 0] s
  let s := atMem 0x1000300000 [0, 31, 1, 31] s
  let s := atMem 0x1000400000 [0x06000000, 16] s
  { s with sig := { s.sig with ops := 48 } }
/-- Two gateway groups; group 1 publishes dataset 1. -/
def sGw : State :=
  withFlds [(F.GW_GROUP_COUNT_COUNT, 2), (F.GW_GROUP_BASE_BASE, 0x1000500)] (atMem 0x1000500020 [1, 0x10000] (sSigOn sOp))
/-- The rack bridge at TB_RAW 20000 with a cycle on the bus and accesses of window 2 in its queue. -/
def sRack (c : Option RackCycle) (q : List RackAcc) : State :=
  withFlds [(F.RB_CFG_TMO, 10), (F.RB_WIN_EN 2, 1)]
    { sOp with
      tb := { sOp.tb with raw := 20000 }
      rack := { sOp.rack with ready := true, cycle := c, queues := [(2, q)] } }
/-- A cycle of window 2 at offset 4. -/
def busCycle (write : Bool) (b : Option (RingId × BitVec 17)) (start : Nat) (st : RackStage) : RackCycle := ⟨2, b, 4, write, 0x1234, start, st⟩
/-- Task 3 of partition 5 runs, its watchdog due. -/
def sTask (act : Nat) (s : State) : State :=
  withFlds [(F.TASK_CTL_EN 3, 1), (F.TASK_CTL_PART 3, 5), (F.TASK_CTL_WDT_ACTION 3, act), (F.TASK_STAT_STATE 3, 4), (F.TASK_WDT_WDT 3, 1), (F.CYC_PART_STATE 5, 2)]
    { s with cyc := { s.cyc with tasks := [(3, { taskZero with wdt := true })] } }
/-- A running module at TB_RAW `raw` (frames started at `frame`) with island i's link in a state. -/
def sFld (i link raw frame : Nat) (x : Island) : State :=
  withFlds [(F.FLD_LNK_STATE i, link), (F.FLD_ISL_EN i, 1), (F.FLD_ISL_PART i, 3), (F.FLD_LNK_FAULTS i, 5)]
    ({ sOp with tb := { sOp.tb with raw := BitVec.ofNat 64 raw }, fld := { sOp.fld with frameRaw := frame } }.setIsl i x)
/-- An island out of its safe state and configured, with a downlink frame or an uplink frame on its way. -/
def islDown (k : DownKind) : Island := { islandZero with conf := true, ready := true, safe := false, down := some ⟨k, false, 0, 4, zeros 20⟩ }
def islUp (ty : Nat) : Island := { islandZero with conf := true, safe := false, upOk := 2, go := true, up := some ⟨ty, true, 4, zeros 20, 4160, 9⟩ }
/-- Channel 2 of group 1 as given, its island configured and out of its safe state, at TB_RAW 1,003,840. -/
def sDio (d : Dio) (fs : List (Fld × Nat)) : State :=
  withFlds fs ((sFld 17 3 1003840 1000000 { islandZero with conf := true, safe := false }).setDio 1 2 d)
/-- Current-loop channel 48 (island 48) as given, two-wire with its modem on and a lead of 5 bits, its island configured. -/
def sLoop (a : Ai) (fs : List (Fld × Nat)) : State :=
  withFlds ([(F.FLD_AIL_MODE 48, 1), (F.FLD_AIL_FSK_EN 48, 1), (F.FLD_AIL1_LEAD 48, 5), (F.FLD_AIL_SINC 48, 1)] ++ fs)
    ((sFld 48 3 9000000 8999000 { islandZero with conf := true, safe := false }).setAi 48 a)
/-- The transfer or capture `c` runs on that channel. -/
def sXfer (c : Cmd) : State := sOut 0x14 c (sLoop aiZero [])
/-- Safety block 4 of partition 3 with inputs DI16 and DI17 (island 1), outputs 0 and 1 (island 16), in a state, at TB_RAW `raw`; its
islands' links run. -/
def sSaf (st raw : Nat) (fs : List (Fld × Nat)) : State :=
  withFlds ([(F.SAF_BCTL_EN 4, 1), (F.SAF_BCTL_PART 4, 3), (F.SAF_BCTL_ESCALATE 4, 0), (F.SAF_BIN_DEG_LIMIT 4, 0), (F.SAF_BCTL_DISC_TIME 4, 1), (F.SAF_BIN_IN1 4, 16), (F.SAF_BIN_IN2 4, 17), (F.SAF_BOUT_OUT1_EN 4, 1), (F.SAF_BOUT_OUT2 4, 1),
      (F.SAF_BOUT_OUT2_EN 4, 1), (F.SAF_BSTAT_STATE 4, st), (F.FLD_LNK_STATE 1, 3), (F.FLD_LNK_STATE 16, 3)] ++ fs)
    { sOp with tb := { sOp.tb with raw := BitVec.ofNat 64 raw } }
/-- Both inputs of it at run. -/
def atRun (s : State) : State := (s.setSafCh 4 0 { safChZero with level := true }).setSafCh 4 1 { safChZero with level := true }
/-- A module of a pair in a role, its partner heard in another, both units in slot 2's place, at TB_RAW `raw`. -/
def sPair (role peer raw : Nat) (fs : List (Fld × Nat)) : State :=
  withFlds ([(F.PAIR_CFG_EN, 1), (F.PAIR_CFG_JOIN_TMO, 1), (F.PAIR_CFG_PRES_WAIT, 3), (F.PAIR_STAT_ROLE, role), (F.PAIR_STAT_PEER_ROLE, peer), (F.PAIR_STAT_PEER, 1),
      (F.PAIR_STAT_LANE0, 1), (F.SYS_IMG_ID_IMG_ID, 0x1234), (F.SYS_STRAP_SLOT_ID, 2), (F.PAIR_EPOCH_LO_EPOCH, 7), (F.PAIR_PEER_EPOCH_LO_EPOCH, 6),
      (F.PAIR_LAST_LO_CORD, 40), (F.CB_CFG_ROLE, 1)] ++ fs)
    { sOp with tb := { sOp.tb with raw := BitVec.ofNat 64 raw } }
/-- The same in the Setup phase, with its pair block as given. -/
def sPairJoin (p : Pair) (fs : List (Fld × Nat)) : State :=
  { sPair 0 0 9000000 fs with phase := .setup, pair := p }
def withPair (f : Pair → Pair) (s : State) : State := { s with pair := f s.pair }
/-- A heartbeat of the partner. -/
def beat (role : BitVec 2) (epoch : BitVec 64) (img : Word) (joining : Bool) : Machine.Heartbeat := ⟨role, epoch, 3, img, true, joining, false, 0, 2000, 5, none⟩
/-- The state that a close record carries. -/
def carryOf (k : BitVec 64) : Machine.Carried :=
  { cord := k, nt := 5, harts := State.reset.harts, plic := State.reset.plic, streams := [], rings := [(5, ctx5 3)], locks := [], regs := [(Reg.CB_MCN, 9)], cyc := State.reset.cyc,
    dsets := [], last := [], banks := [(3, 4)], waiting := none, switch := false, cmd := none, batches := [] }
/-- A running recorder with a table of two channels: channel 1 samples V_LOG each 2 ms, unsigned, limits 1000 and 7000; its record
holds two samples. -/
def sRecd (raw : Nat) : State :=
  let s := withFlds [(F.REC_CFG_EN, 1), (F.REC_CFG_FLUSH, 1), (F.REC_CHAN_BASE_BASE, 0x1000600), (F.REC_CHAN_COUNT_COUNT, 2), (F.PWR_STAT_VLOG, 21), (F.REC_CLEAR_GEN_GEN, 8)]
    (atMem 0x1000600020 [0x503, 0, 2, 0, 1000, 0, 7000, 0] sOp)
  { s with
    tb := { s.tb with raw := BitVec.ofNat 64 raw }
    recd := { s.recd with
      chans := [(1, ⟨6, 1, 3, 2, 1500, 10, 5200, 20, 5, [(2, 1), (19, 1)], 0⟩)]
      noteSeq := 130 } }
/-- A running module with tests enabled, the RTC at 400000, the scrub at line 5, and a valid calibration record in slot 66 (DIO group
1) taken at 20 °C, its island now at 50 °C. -/
def calBody : List Byte := wordBytes [0x103, 84 + 256, 0, 0, 6] ++ zeros 228
def sTests : State :=
  let s := withFlds [(F.IST_CFG_LBIST_EN, 1), (F.IST_CFG_SCRUB_EN, 1), (F.IST_CFG_CAL_EN, 1), (F.IST_CFG_ROT_PERIOD, 1), (F.IST_SCRUB_POS_LINE, 5), (F.IST_OFFP_LEN, 3)]
    ((sOp.setBytes 0x60304200 (calBody ++ leBytes 4 (crc32c calBody).toNat ++ leBytes 4 validCal)).setIsl 17 { islandZero with held := zeros 21 ++ [114, 114, 114] })
  { s with
    pwr := { s.pwr with rtc := 400000 }
    tb := { s.tb with raw := 20000000 }
    recd := { s.recd with noteSeq := 130 } }
/-- An image of n bytes in DRAM with one section of a type and length, its load in progress. -/
def sImage (ty len : Nat) : State :=
  let tab := leBytes 4 ty ++ leBytes 4 0x140 ++ leBytes 4 len ++ leBytes 4 (crc32c (zeros len)).toNat
  let h := leBytes 4 0x474D495A ++ leBytes 4 1 ++ leBytes 4 (0x140 + len) ++ leBytes 4 (256 + 78) ++ leBytes 4 9 ++ leBytes 4 0 ++
    leBytes 4 (crc32c (tab ++ zeros (0x30 + len))).toNat
  let s := sSetup.setBytes 0x1000700000 (h ++ leBytes 4 (crc32c h).toNat ++ zeros 224 ++ tab)
  withFlds [(F.SYS_IMG_ADDR_LO_ADDR_LO, 0x700000), (F.SYS_IMG_ADDR_HI_ADDR_HI, 0x10), (F.SYS_IMG_STAT_BUSY, 1), (F.RING_DB_BASE_BASE, 0x1000900)] s
/-- A public key, its digest, and a signature under it of the digest of nonce 0x5EED, SYS_ID and SYS_STRAP. -/
def unlockPub : List Byte := [57, 154, 148, 51, 136, 113, 71, 208, 190, 72, 234, 158, 209, 250, 146, 112, 242, 226, 240, 161, 233, 36, 57, 219, 32, 114, 55, 203, 179, 76, 189, 20, 33, 47, 5, 15, 44, 54, 203, 168, 163, 233, 82, 176, 254, 188, 42, 138, 186, 25, 67, 11, 149, 99, 119, 77, 85, 161, 181, 82, 164, 197, 8, 47]
def unlockSig : List Byte := [81, 89, 11, 122, 81, 81, 64, 210, 215, 132, 200, 86, 8, 102, 143, 223, 239, 140, 130, 253, 31, 91, 229, 36, 33, 85, 74, 13, 195, 208, 51, 237, 81, 89, 11, 122, 81, 81, 64, 210, 215, 132, 200, 86, 8, 102, 143, 223, 239, 140, 130, 253, 31, 91, 229, 36, 33, 85, 74, 13, 195, 208, 51, 237]
def unlockKey : BitVec 256 := 0x9d279867ed3f7db1574a1ecc353497877f333e193a0a690313d0645159279492
/-- A request to the maintenance port 1. -/
def maintQ (op len : Nat) : MaintReq :=
  ⟨1, 0xC0A80107, 5000, 0xA9FE4002, BitVec.ofNat 96 (0x444D01 * 2 ^ 72 + op * 2 ^ 64 + 77 * 2 ^ 32 + len * 2 ^ 16)⟩
/-- The same module asked before: a reply to SEQ 76 one tenth of a second ago, an older one to SEQ 75. -/
def sAsked : State :=
  { sTests with mp := { sTests.mp with replies := [⟨1, 0xC0A80107, 5000, 76, 396800, [5]⟩, ⟨1, 0xC0A80107, 5000, 75, 300000, [4]⟩] } }
def sUnlocked : State := withFlds [(F.MPX_STAT_UNLOCKED, 1)] sAsked

/-! ## WellFormed refuses -/

def badReq : LaneReq := ⟨.load, 0x1000000000, 3, 0, 0, 0, .machine, 3⟩
def badOffers : Offers := ⟨⟨some badReq, 0, false⟩, ⟨none, 0, false⟩, ⟨none, 0, false⟩⟩

/-- A lane access of 3 bytes (Table 5-1). -/
theorem test_wellFormed_votedRequest : (Instr.votedRequest badOffers false 0 0 0).wellFormed = false := by decide
theorem test_wellFormed_voteMissing : (Instr.voteMissingTimeout .c badOffers false).wellFormed = false := by decide
theorem test_wellFormed_nonposted : (Instr.nonpostedIssue badReq).wellFormed = false := by decide
/-- A setup register lies at a multiple of 4 (R19). -/
theorem test_wellFormed_setupRegWrite : (Instr.setupRegWrite .mp 0x20002 7).wellFormed = false := by decide
theorem test_wellFormed_readReg : (Instr.readReg ⟨0, 1, 1, 1, 0⟩ 0x20001 1).wellFormed = false := by decide
theorem test_wellFormed_writeReg : (Instr.writeReg ⟨0, 1, 1, 1, 0⟩ 0x20003 1).wellFormed = false := by decide
/-- Causes of the safe state (Table 5-9): none is 0. -/
theorem test_wellFormed_safeCause : (Instr.safeStateEntry 0).wellFormed = false := by decide
/-- Wake sources (Table 3-10): source 3 has the one index 15, and none has number 1. -/
theorem test_wellFormed_wakeIndex : (Instr.wakeLatch [(3, 14)]).wellFormed = false := by decide
theorem test_wellFormed_wakeSource : (Instr.wakeLatch [(2, 0), (1, 0)]).wellFormed = false := by decide
theorem test_wellFormed_wakeEmpty : (Instr.wakeLatch []).wellFormed = false := by decide
/-- A key and a signature of 64 bytes each (R552). -/
theorem test_wellFormed_unlock : (Instr.unlock ⟨0, 1, 1, 1, 0⟩ 0 (zeros 64) (zeros 63)).wellFormed = false := by decide
/-- A result of 24 bits (R438). -/
theorem test_wellFormed_aiResult : (Instr.aiResult 0 8388608).wellFormed = false := by decide
theorem test_wellFormed_aiResultLow : (Instr.aiResult 0 (-8388609)).wellFormed = false := by decide
/-- Frames with less than two addresses and a type. -/
theorem test_wellFormed_crMasterRx : (Instr.crMasterRx 0 0 (zeros 13) true).wellFormed = false := by decide
theorem test_wellFormed_crMemberRx : (Instr.crMemberRx 0 0 (zeros 13) true).wellFormed = false := by decide
theorem test_wellFormed_crAcycRx : (Instr.crAcycRx 0 0 (zeros 13) true).wellFormed = false := by decide
theorem test_wellFormed_cbSyncRx : (Instr.cbSyncRx 0 (zeros 13) true).wellFormed = false := by decide
theorem test_wellFormed_cbRelay : (Instr.cbRelay 0 (zeros 13) true).wellFormed = false := by decide
theorem test_wellFormed_cbDataRx : (Instr.cbDataRx 0 (zeros 13) true).wellFormed = false := by decide
theorem test_wellFormed_cbRawRx : (Instr.cbRawRx 0 (zeros 13) true).wellFormed = false := by decide
theorem test_wellFormed_pairCopy : (Instr.pairCopyRelay 0 false (zeros 13) true).wellFormed = false := by decide
theorem test_wellFormed_maFrame : (Instr.maFrameRx 0 (zeros 13)).wellFormed = false := by decide

/-! ## Examples of the spec -/

/-- The word of DZL.SETUP x7, 8 (R109). -/
theorem test_dzlSetup_word : decode32 0x0083800B = some (.dzlSetup 7 8) := by decide +kernel
/-- Its body ends at pc + 0x10 (R109). -/
theorem test_dzlSetup_end : ((dzlSetup 1 7 8 sHart).hart 1).lpend = (sHart.hart 1).pc + 0x10 := by decide +kernel
/-- SYS_ID of an -N part reads 0x6400_4E00 (Table 3-14). -/
theorem test_sysId : State.reset.reg Reg.SYS_ID = 0x64004E00 := by decide +kernel

/-! ## Hypotheses that can be met -/

theorem witness_FeedsAreReported_1 : (fun (vlog : Byte) (s : State) => s.phase = Phase.reset ∧ s.pwr.hold = Hold.unpowered ∧ 84 ≤ vlog.toNat) (84) (State.reset) := by decide +kernel

theorem witness_FeedsAreReported_2 : (fun (f : Feed) (g : Feed) (s : State) => f ≠ g ∧ s.phase ≠ Phase.reset ∧ s.rd (feedFld f) = 1 ∧ s.rd (feedFld g) = 1) (.feedA) (.feedB) (withFlds [(F.PWR_STAT_FEED_A, 1), (F.PWR_STAT_FEED_B, 1)] sOp) := by decide +kernel

theorem witness_FeedsAreReported_3 : (fun (f : Feed) (g : Feed) (s : State) => f ≠ g ∧ s.phase ≠ Phase.reset ∧ s.rd (feedFld f) = 1 ∧ s.rd (feedFld g) = 0) (.feedA) (.feedB) (withFlds [(F.PWR_STAT_FEED_A, 1), (F.PWR_STAT_FEED_B, 0)] (sRecd 5)) := by decide +kernel

theorem witness_FeedsAreReported_4 : (fun (f : Feed) (g : Feed) (s : State) => f ≠ g ∧ s.phase = Phase.reset ∧ s.rd (feedFld f) = 1) (.feedA) (.feedB) (withFlds [(F.PWR_STAT_FEED_A, 1)] State.reset) := by decide +kernel

theorem witness_FeedsAreReported_5 : (fun (f : Feed) (s : State) => s.rd (feedFld f) = 0) (.feedA) (withFlds [(F.PWR_STAT_FEED_B, 1)] sOp) := by decide +kernel

theorem witness_FeedsAreReported_6 : (fun (f : Feed) (vlog : Byte) (s : State) => s.phase ≠ Phase.reset ∧ s.pwr.hold = Hold.none ∧ s.rd (feedFld f) = 0 ∧ 86 ≤ vlog.toNat) (.feedA) (86) (withFlds [(F.PWR_STAT_FEED_B, 1)] sOp) := by decide +kernel

theorem witness_FeedsAreReported_7 : (fun (f : Feed) (vlog : Byte) (s : State) => s.phase = Phase.reset ∧ s.pwr.hold ≠ Hold.unpowered ∧ s.rd (feedFld f) = 0 ∧ 86 ≤ vlog.toNat) (.feedA) (86) ({ State.reset with pwr := { State.reset.pwr with hold := .feed } }) := by decide +kernel

theorem witness_FeedsAreReported_8 : (fun (f : Feed) (s : State) => s.rd (feedFld f) = 1) (.feedB) (withFlds [(F.PWR_STAT_FEED_B, 1)] sOp) := by decide +kernel

theorem witness_ResetsRestartTheModule_1 : (fun (s : State) => s.phase ≠ Phase.reset ∧ s.pwr.hold ≠ Hold.unpowered) (sOp) := by decide +kernel

theorem witness_ResetsRestartTheModule_2 : (fun (s : State) => s.phase ≠ Phase.reset ∧ s.rd F.LP_STAT_LP_MODE = 1 ∧ s.pwr.lpTimer = true) (withFlds [(F.LP_STAT_LP_MODE, 1)] { sOp with pwr := { sOp.pwr with lpTimer := true } }) := by decide +kernel

theorem witness_ResetsRestartTheModule_3 : (fun (w : Word) (s : State) => s.mustWait = false ∧ s.phase ≠ Phase.reset ∧ w.toNat % 65536 = 0x5253) (0x5253) (sOp) := by decide +kernel

theorem witness_ResetsRestartTheModule_4 : (fun (w : Word) (s : State) => s.mustWait = false ∧ s.phase ≠ Phase.reset ∧ w.toNat % 65536 = 0x5253) (0x5253) (sOp) := by decide +kernel

theorem witness_ResetsRestartTheModule_5 : (fun (w : Word) (s : State) => s.mustWait = false ∧ w.toNat % 65536 ≠ 0x5253) (0x5254) (sOp) := by decide +kernel

theorem witness_ResetsRestartTheModule_6 : (fun (s : State) => (s.phase = Phase.setup ∨ s.phase = Phase.locking) ∧ s.rd F.MPX_DBG_EN = 1) (withFlds [(F.MPX_DBG_EN, 1)] sSetup) := by decide +kernel

theorem witness_SafeStateThenReset_1 : (fun (s : State) => s.phase ≠ Phase.reset ∧ s.pwr.hold ≠ Hold.unpowered ∧ s.rd F.PWR_STAT_FEED_A = 0 ∧ s.rd F.PWR_STAT_FEED_B = 0) (sOp) := by decide +kernel

theorem witness_SafeStateThenReset_2 : (fun (r : Rail) (s : State) => s.railNeeded r = true) (.vpp) (sOp) := by decide +kernel

theorem witness_SafeStateThenReset_3 : (fun (x : Byte) (s : State) => s.phase ≠ Phase.reset ∧ s.pwr.hold ≠ Hold.unpowered ∧ 189 ≤ x.toNat) (189) (sOp) := by decide +kernel

theorem witness_SafeStateStopsTheModule_1 : (fun (s : State) => s.phase ≠ Phase.reset ∧ s.rd F.LANE_STAT_SAFE = 0) (sOp) := by decide +kernel

theorem witness_SafeStateStopsTheModule_2 : (fun (w : Word) (s : State) => s.mustWait = false ∧ s.phase ≠ Phase.reset ∧ s.rd F.LANE_STAT_SAFE = 0 ∧ w.toNat % 65536 = 0x5346) (0x5346) (sOp) := by decide +kernel

theorem witness_SafeStateStopsTheModule_3 : (fun (w : Word) (s : State) => s.mustWait = false ∧ s.phase ≠ Phase.reset ∧ s.rd F.LANE_STAT_SAFE = 0 ∧ w.toNat % 65536 = 0x5346) (0x5346) (sOp) := by decide +kernel

theorem witness_SafeStateStopsTheModule_4 : (fun (w : Word) (s : State) => s.mustWait = false ∧ w.toNat % 65536 ≠ 0x5346) (0x5347) (sOp) := by decide +kernel

theorem witness_SafeStateStopsTheModule_5 : (fun (s : State) => s.rd F.LANE_STAT_SAFE = 1) (withFlds [(F.LANE_STAT_SAFE, 1)] sOp) := by decide +kernel

theorem witness_ReleaseStrapsAndTap_1 : (fun (s : State) => s.phase = Phase.reset ∧ s.pwr.hold = Hold.none) ({ State.reset with pwr := { Power.start with hold := .none, rtc := 77 } }) := by decide +kernel

theorem witness_ReleaseStrapsAndTap_2 : (fun (x : Straps) (s : State) => s.phase ≠ Phase.reset ∧ s.rd F.SYS_STRAP_SLOT_ID = x.slotId.toNat ∧ s.rd F.SYS_STRAP_SLOT_PAR = b2n x.slotPar ∧ s.rd F.SYS_STRAP_PREFER = b2n x.prefer) (⟨5, true, true⟩) (withFlds [(F.SYS_STRAP_SLOT_ID, 5), (F.SYS_STRAP_SLOT_PAR, 1), (F.SYS_STRAP_PREFER, 1)] sOp) := by decide +kernel

theorem witness_ReleaseStrapsAndTap_3 : (fun (x : Straps) (s : State) => s.phase ≠ Phase.reset ∧ (s.rd F.SYS_STRAP_SLOT_ID ≠ x.slotId.toNat ∨ s.rd F.SYS_STRAP_SLOT_PAR ≠ b2n x.slotPar ∨ s.rd F.SYS_STRAP_PREFER ≠ b2n x.prefer)) (⟨5, true, true⟩) (withFlds [(F.SYS_STRAP_SLOT_ID, 5), (F.SYS_STRAP_SLOT_PAR, 0), (F.SYS_STRAP_PREFER, 1)] sOp) := by decide +kernel

theorem witness_ReleaseStrapsAndTap_6 : (fun (c : BitVec 5) (s : State) => c ≠ 1 ∧ c ≠ 2 ∧ (c ≠ 4 ∨ s.phase = Phase.operate) ∧ ((c ≠ 16 ∧ c ≠ 17) ∨ s.setupPhase = false ∨ s.rd F.MPX_DBG_EN = 0)) (4) (sOp) := by decide +kernel

theorem witness_ReleaseStrapsAndTap_7 : (fun (s : State) => s.setupPhase = true ∧ s.rd F.MPX_DBG_EN = 1) (withFlds [(F.MPX_DBG_EN, 1)] sSetup) := by decide +kernel

theorem witness_ReleaseStrapsAndTap_8 : (fun (h : HartId) (s : State) => s.setupPhase = true ∧ s.rd F.MPX_DBG_EN = 1 ∧ s.lanes.on = true ∧ s.halted h = false ∧ (s.hart h).wait ≠ HartWait.lock) (1) (withFlds [(F.MPX_DBG_EN, 1)] sHart) := by decide +kernel

theorem witness_ReleaseStrapsAndTap_9 : (fun (h : HartId) (s : State) => s.setupPhase = true ∧ s.rd F.MPX_DBG_EN = 1 ∧ s.halted h = true) (1) (withFlds [(F.MPX_DBG_EN, 1)] { sHart with lanes := { sHart.lanes with dbg := { sHart.lanes.dbg with active := true, sel := 1, halted := [1], dpc := [(1, 0x1000000205)] } } }) := by decide +kernel

theorem witness_ReleaseStrapsAndTap_10 : (fun (s : State) => s.setupPhase = true ∧ s.rd F.MPX_DBG_EN = 1 ∧ s.lanes.dbg.active = true ∧ s.lanes.dbg.cmderr = 0 ∧ s.halted s.lanes.dbg.sel = true) (withFlds [(F.MPX_DBG_EN, 1)] { sHart with lanes := { sHart.lanes with dbg := { sHart.lanes.dbg with active := true, sel := 1, halted := [1], dpc := [(1, 0x1000000205)] } } }) := by decide +kernel

theorem witness_TemperatureAndLowPower_1 : (fun (x : Byte) (s : State) => s.phase ≠ Phase.reset ∧ s.pwr.otArmed = true ∧ s.rd F.PWR_STAT_DIE_TEMP < 179 ∧ 179 ≤ x.toNat) (179) ({ sOp with pwr := { sOp.pwr with otArmed := true } }) := by decide +kernel

theorem witness_TemperatureAndLowPower_2 : (fun (x : Byte) (s : State) => (s.phase = Phase.reset ∨ s.pwr.otArmed = false ∨ 179 ≤ s.rd F.PWR_STAT_DIE_TEMP ∨ x.toNat < 179)) (178) ({ sOp with pwr := { sOp.pwr with otArmed := true } }) := by decide +kernel

theorem witness_TemperatureAndLowPower_3 : (fun (x : Byte) => x.toNat < 174) (173) := by decide +kernel

theorem witness_TemperatureAndLowPower_4 : (fun (x : Byte) => 174 ≤ x.toNat) (174) := by decide +kernel

theorem witness_TemperatureAndLowPower_5 : (fun (s : State) => s.rd F.LP_STAT_LP_MODE = 0) (sOp) := by decide +kernel

theorem witness_TemperatureAndLowPower_6 : (fun (s : State) => s.rd F.LP_STAT_LP_MODE = 1) (withFlds [(F.LP_STAT_LP_MODE, 1)] sOp) := by decide +kernel

theorem witness_LevelsAndLaneClock_1 : (fun (w : Word) (s : State) => s.mustWait = false ∧ s.rd F.PWR_PL_PL_BUSY = 0 ∧ s.pwr.level.toNat ≠ w.toNat % 4) (7) (sOp) := by decide +kernel

theorem witness_LevelsAndLaneClock_2 : (fun (w : Word) (s : State) => s.mustWait = false ∧ (s.rd F.PWR_PL_PL_BUSY = 1 ∨ s.pwr.level.toNat = w.toNat % 4)) (7) (withFlds [(F.PWR_PL_PL_BUSY, 1)] sOp) := by decide +kernel

theorem witness_LevelsAndLaneClock_3 : (fun (s : State) => s.rd F.PWR_PL_PL_BUSY = 1 ∧ s.rd F.PWR_PL_PL = s.pwr.target.toNat) (withFlds [(F.PWR_PL_PL_BUSY, 1), (F.PWR_PL_PL, 2)] { sOp with pwr := { sOp.pwr with target := 2 } }) := by decide +kernel

theorem witness_LevelsAndLaneClock_4 : (fun (s : State) => s.rd F.PWR_PL_PL_BUSY = 1 ∧ s.rd F.PWR_PL_PL ≠ s.pwr.target.toNat) (withFlds [(F.PWR_PL_PL_BUSY, 1), (F.PWR_PL_PL, 2)] { sOp with pwr := { sOp.pwr with target := 1 } }) := by decide +kernel

theorem witness_LevelsAndLaneClock_5 : (fun (w : Word) (s : State) => s.mustWait = false ∧ ((w.getLsbD 2 = true ∧ s.rd F.SYS_CLK_LANE_LOCK = 0) ∨ (w.getLsbD 0 = false ∧ s.rd F.SYS_CLK_LANE_SRC = 1))) (5) (sOp) := by decide +kernel

theorem witness_LevelsAndLaneClock_6 : (fun (w : Word) (s : State) => s.mustWait = false ∧ (w.getLsbD 2 = false ∨ s.rd F.SYS_CLK_LANE_LOCK = 1) ∧ (w.getLsbD 0 = true ∨ s.rd F.SYS_CLK_LANE_SRC = 0)) (13) (withFlds [(F.SYS_CLK_LANE_LOCK, 1)] sOp) := by decide +kernel

theorem witness_LevelsAndLaneClock_7 : (fun (who : Requester) (s : State) => s.mustWait = false ∧ byLane who = false) (.mp) (sOp) := by decide +kernel

theorem witness_LevelsAndLaneClock_8 : (fun (s : State) => s.rd F.SYS_CLK_LANE_PLL_EN = 1) (withFlds [(F.SYS_CLK_LANE_PLL_EN, 1)] sOp) := by decide +kernel

theorem witness_LevelsAndLaneClock_9 : (fun (s : State) => s.pwr.srcPending = true ∧ s.rd F.PWR_PL_PL_BUSY = 0) ({ sOp with pwr := { sOp.pwr with srcPending := true } }) := by decide +kernel

theorem witness_BootStartsTheLanes_2 : (fun (s : State) => s.phase = Phase.boot ∧ s.bootChoose.bank = none) (inPhase .boot) := by decide +kernel

theorem witness_BootStartsTheLanes_3 : (fun (w : Word) (s : State) => s.mustWait = false ∧ w.getLsbD 2 = true ∧ s.rd F.SYS_BOOT_CONFIRM = 0 ∧ (s.setupPhase = true ∨ s.phase = Phase.operate)) (4) ({ sOp with pwr := { sOp.pwr with bootRaise := true, bootSvn := 3 } }) := by decide +kernel

theorem witness_BootStartsTheLanes_4 : (fun (w : Word) (s : State) => s.mustWait = false ∧ (w.getLsbD 2 = false ∨ s.rd F.SYS_BOOT_CONFIRM = 1)) (2) (sOp) := by decide +kernel

theorem witness_WakesAreLatched_1 : (fun (src : Fin 8) (idx : Fin 512) (s : State) => s.phase ≠ Phase.reset ∧ s.wakeOn src.val idx.val = true ∧ s.asleep = none) (7) (0) (withFlds [(F.WAKE_EN_MP, 1)] sOp) := by decide +kernel

theorem witness_WakesAreLatched_2 : (fun (src : Fin 8) (idx : Fin 512) (deep : Bool) (s : State) => s.phase ≠ Phase.reset ∧ s.wakeOn src.val idx.val = true ∧ s.asleep = some deep ∧ s.pwr.wakeTaken = false ∧ (deep = false ∨ wakeInE3 src.val idx.val = true)) (6) (15) (true) (withFlds [(F.WAKE_EN_ED_BACKBONE, 1)] { sOp with pwr := { sOp.pwr with state := .e3, rtc := 0xABCD12345678 } }) := by decide +kernel

theorem witness_WakesAreLatched_3 : (fun (src : Fin 8) (idx : Fin 512) (deep : Bool) (s : State) => s.phase ≠ Phase.reset ∧ s.wakeOn src.val idx.val = true ∧ s.asleep = some deep ∧ s.pwr.wakeTaken = true ∧ (deep = false ∨ wakeInE3 src.val idx.val = true)) (6) (15) (true) (withFlds [(F.WAKE_EN_ED_BACKBONE, 1)] { sOp with pwr := { sOp.pwr with state := .e3, wakeTaken := true } }) := by decide +kernel

theorem witness_WakesAreLatched_4 : (fun (src : Fin 8) (idx : Fin 512) (s : State) => (s.wakeOn src.val idx.val = false ∨ (s.asleep = some true ∧ wakeInE3 src.val idx.val = false))) (6) (15) (sOp) := by decide +kernel

theorem witness_WakesAreLatched_5 : (fun (s : State) => s.pwr.rtc.toNat = s.rd64 Reg.PWR_ALARM_LO Reg.PWR_ALARM_HI) (withFlds [(F.WAKE_EN_RTC_ALARM, 1), (⟨Reg.PWR_ALARM_LO, 0, 32⟩, 77), (⟨Reg.PWR_ALARM_HI, 0, 32⟩, 1)] { sOp with pwr := { sOp.pwr with rtc := 0x10000004D } }) := by decide +kernel

theorem witness_WakesAreLatched_6 : (fun (w : Word) (s : State) => s.mustWait = false ∧ w.toNat % 65536 = 0x4D57) (0x4D57) (withFlds [(F.WAKE_EN_MP, 1)] sOp) := by decide +kernel

theorem witness_WakesAreLatched_7 : (fun (who : Requester) (w : Word) (s : State) => s.mustWait = false ∧ (byMp who = false ∨ w.toNat % 65536 ≠ 0x4D57)) (.mp) (0x4D58) (withFlds [(F.WAKE_EN_MP, 1)] sOp) := by decide +kernel

theorem witness_WakesAreLatched_8 : (fun (port : Fin 17) (idx : Fin 512) (s : State) => (s.pwr.state = PowerState.e2 ∨ s.pwr.state = PowerState.e3) ∧ idx.val = port.val) (16) (16) (withFlds [(F.WAKE_EN_ED_MA0, 1)] { sOp with pwr := { sOp.pwr with state := .e2, rtc := 0xABCD12345678 } }) := by decide +kernel

theorem witness_WakesAreLatched_9 : (fun (s : State) => s.pwr.state ≠ PowerState.e2 ∧ s.pwr.state ≠ PowerState.e3) (withFlds [(F.WAKE_EN_ED_MA0, 1)] sOp) := by decide +kernel

theorem witness_EmberEntersAndKindles_1 : (fun (code : Nat) (s : State) => s.phase ≠ Phase.reset ∧ s.pwr.state = PowerState.entering ∧ s.flue.recs = [] ∧ s.cordDue = false ∧ s.rd F.CORD_STAT_ROLLING = 0 ∧ s.entryErr = some code) (1) (withFlds [(F.PWR_MODE_MODE, 0)] { sOp with pwr := { sOp.pwr with state := .entering } }) := by decide +kernel

theorem witness_EmberEntersAndKindles_2 : (fun (s : State) => s.pwr.state = PowerState.entering ∧ s.flue.recs = [] ∧ s.cordDue = false ∧ s.rd F.CORD_STAT_ROLLING = 0 ∧ s.entryErr = none ∧ s.rd F.PWR_MODE_MODE = 1) (withFlds [(F.PWR_MODE_MODE, 1)] { sOp with pwr := { sOp.pwr with state := .entering } }) := by decide +kernel

theorem witness_EmberEntersAndKindles_3 : (fun (s : State) => s.pwr.state = PowerState.entering ∧ s.flue.recs = [] ∧ s.cordDue = false ∧ s.rd F.CORD_STAT_ROLLING = 0 ∧ s.entryErr = none ∧ s.rd F.PWR_MODE_MODE ≠ 1) (withFlds [(F.PWR_MODE_MODE, 2), (F.PWR_EMBER_CFG_E2_EN, 1), (F.WAKE_EN_MP, 1)] { sOp with pwr := { sOp.pwr with state := .entering } }) := by decide +kernel

theorem witness_EmberEntersAndKindles_4 : (fun (s : State) => s.pwr.state = PowerState.quiesce false ∧ s.quiet = true) ({ sOp with pwr := { sOp.pwr with state := .quiesce false, rtc := 0x123456789A } }) := by decide +kernel

theorem witness_EmberEntersAndKindles_5 : (fun (s : State) => s.pwr.state = PowerState.quiesce true ∧ s.quiet = true) ({ sOp with pwr := { sOp.pwr with state := .quiesce true } }) := by decide +kernel

theorem witness_EmberEntersAndKindles_6 : (fun (s : State) => s.pwr.state = PowerState.e2 ∧ s.pwr.wakeTaken = true ∧ s.rd F.LANE_STAT_SAFE = 0) ({ sOp with cord := { sOp.cord with sealedRec := some ⟨3, State.reset.harts, sOp.plic⟩ }, pwr := { sOp.pwr with state := .e2, wakeTaken := true } }) := by decide +kernel

theorem witness_EmberEntersAndKindles_7 : (fun (s : State) => s.pwr.state = PowerState.e2 ∧ s.pwr.wakeTaken = true ∧ s.rd F.LANE_STAT_SAFE = 1) (withFlds [(F.LANE_STAT_SAFE, 1)] { sOp with cord := { sOp.cord with sealedRec := some ⟨3, State.reset.harts, sOp.plic⟩ }, pwr := { sOp.pwr with state := .e2, wakeTaken := true } }) := by decide +kernel

theorem witness_EmberEntersAndKindles_10 : (fun (s : State) => s.pwr.state ≠ PowerState.entering) (sOp) := by decide +kernel

theorem witness_EmberEntersAndKindles_11 : (fun (s : State) => s.pwr.state = PowerState.run) (sOp) := by decide +kernel

theorem witness_EmberEntersAndKindles_12 : (fun (s : State) => s.pwr.state = PowerState.e2 ∧ s.pwr.wakeTaken = false) ({ sOp with pwr := { sOp.pwr with state := .e2, wakeTaken := false } }) := by decide +kernel

theorem witness_VotesServeAgreedRequests_1 : (fun (o : Offers) (r : LaneReq) (s : State) => s.votes = true ∧ s.phase = Phase.setup ∧ s.usableLanes = lanesABC ∧ o.a = ⟨some r, o.a.clock, false⟩ ∧ o.b = o.a ∧ o.c = o.a ∧ r.kind = ReqKind.load ∧ s.region r.addr.toNat = Region.plain ∧ s.hasReady r.hart = false) (same3 (reqAt .load 0x1000000100 0)) (reqAt .load 0x1000000100 0) (sSetupOn.setLe 0x1000000100 8 0x1122334455667788) := by decide +kernel

theorem witness_VotesServeAgreedRequests_2 : (fun (o : Offers) (r : LaneReq) (s : State) => s.votes = true ∧ s.phase = Phase.setup ∧ s.usableLanes = lanesABC ∧ o.a = ⟨some r, o.a.clock, false⟩ ∧ o.b = o.a ∧ o.c = o.a ∧ r.kind = ReqKind.store ∧ s.region r.addr.toNat = Region.plain ∧ s.hasReady r.hart = false ∧ s.pairOn = false ∧ r.size ≤ 64 ∧ ((∀ n < r.size, r.mask.getLsbD n = true))) (same3 (reqAt .store 0x1000000100 77777)) (reqAt .store 0x1000000100 77777) ({ sSetupOn with lanes := { sSetupOn.lanes with resv := [(0, 0x1000000140), (2, 0x1000000100)] } }.setLe 0x1000000104 8 0x1122334455667788) := by decide +kernel

theorem witness_VotesServeAgreedRequests_3 : (fun (o : Offers) (r : LaneReq) (q : LaneReq) (s : State) => s.votes = true ∧ s.phase = Phase.setup ∧ s.usableLanes = lanesABC ∧ s.rd F.CORD_STAT_REPLAY = 0 ∧ s.rd F.LANE_FAULT_VALID = 0 ∧ o.a = ⟨some r, o.a.clock, false⟩ ∧ o.b = o.a ∧ o.c = ⟨some q, o.a.clock, false⟩ ∧ q = { r with data := q.data } ∧ q.data ≠ r.data ∧ r.kind = ReqKind.load ∧ s.region r.addr.toNat = Region.plain ∧ s.hasReady r.hart = false) ({ same3 (reqAt .load 0x1000000100 0) with c := offer (reqAt .load 0x1000000100 5) }) (reqAt .load 0x1000000100 0) (reqAt .load 0x1000000100 5) (sSetupOn.setLe 0x1000000100 8 0x1122334455667788) := by decide +kernel

theorem witness_VotesServeAgreedRequests_4 : (fun (o : Offers) (r : LaneReq) (s : State) => s.votes = true ∧ s.phase = Phase.setup ∧ s.usableLanes = lanesABC ∧ s.rd F.CORD_STAT_REPLAY = 0 ∧ s.rd F.LANE_FAULT_VALID = 0 ∧ o.a = ⟨some r, o.a.clock, false⟩ ∧ o.b = o.a ∧ r.kind = ReqKind.load ∧ s.region r.addr.toNat = Region.plain ∧ s.hasReady r.hart = false) (same3 (reqAt .load 0x1000000100 0)) (reqAt .load 0x1000000100 0) (sSetupOn.setLe 0x1000000100 8 0x1122334455667788) := by decide +kernel

theorem witness_VotesServeAgreedRequests_5 : (fun (o : Offers) (r : LaneReq) (p : LaneReq) (q : LaneReq) (s : State) => s.votes = true ∧ s.operate = true ∧ s.rd F.LANE_STAT_SAFE = 0 ∧ s.usableLanes = lanesABC ∧ s.rd F.LANE_CFG_MISMATCH_POLICY = 0 ∧ s.rd F.LANE_FAULT_VALID = 0 ∧ o.a = ⟨some r, o.a.clock, false⟩ ∧ o.b = ⟨some p, o.a.clock, false⟩ ∧ o.c = ⟨some q, o.a.clock, false⟩ ∧ r ≠ p ∧ r ≠ q ∧ p ≠ q) (⟨offer (reqAt .load 0x1000000100 0), offer (reqAt .load 0x1000000100 1), offer (reqAt .load 0x1000000100 2)⟩) (reqAt .load 0x1000000100 0) (reqAt .load 0x1000000100 1) (reqAt .load 0x1000000100 2) (withFlds [(F.LANE_CFG_MISMATCH_POLICY, 0)] sOp) := by decide +kernel

theorem witness_VotesServeAgreedRequests_6 : (fun (r : LaneReq) (w : Nat) (s : State) => s.votes = true ∧ s.cordDue = false ∧ s.operate = true ∧ s.pairOn = false ∧ s.rd F.CORD_STAT_REPLAY = 0 ∧ s.region r.addr.toNat = Region.rack w ∧ (s.hart r.hart).wait = HartWait.access ∧ s.rackPosted w = false ∧ s.rackUsable w r.part = true ∧ s.firstAsk r.hart = true ∧ s.windowHeld w = false ∧ s.hasReady r.hart = false ∧ (r.kind = ReqKind.load ∨ r.kind = ReqKind.store) ∧ (r.size = 2 ∨ r.size = 4 ∨ r.size = 8) ∧ r.addr.toNat % r.size = 0) (reqAt .store 0x73000010 99) (3) (withFlds [(F.RB_WIN_EN 3, 1)] (sOp.setHart 1 { Hart.start with wait := .access })) := by decide +kernel

theorem witness_VotesServeAgreedRequests_7 : (fun (w : Word) (s : State) => s.mustWait = false ∧ w.getLsbD 31 = true) (0x80000000) (withFlds [(F.LANE_ECC_CORR_A, 3), (F.LANE_ECC_CORR_C, 9)] sOp) := by decide +kernel

theorem witness_VotesServeAgreedRequests_8 : (fun (w : Word) (s : State) => s.mustWait = false ∧ w.getLsbD 31 = false) (0x7FFFFFFF) (sOp) := by decide +kernel

theorem witness_VotesServeAgreedRequests_9 : (fun (o : Offers) (r : LaneReq) (k : Nat) (s : State) => s.votes = true ∧ 2 ≤ s.usableLanes.length ∧ ((∀ l ∈ s.usableLanes, Offers.of o l = ⟨some r, k, false⟩))) (same3 (reqAt .store 0x1000000100 7)) (reqAt .store 0x1000000100 7) (0) (sOp) := by decide +kernel

theorem witness_VotesServeAgreedRequests_10 : (fun (l : LaneId) (o : Offers) (r : LaneReq) (k : Nat) (s : State) => s.votes = true ∧ s.usableLanes = lanesABC ∧ s.rd F.CORD_STAT_REPLAY = 0 ∧ ((∀ m ∈ lanesABC, m = l ∨ Offers.of o m = ⟨some r, k, false⟩))) (.b) (same3 (reqAt .store 0x1000000100 7)) (reqAt .store 0x1000000100 7) (0) (sOp) := by decide +kernel

theorem witness_VotesServeAgreedRequests_11 : (fun (l : LaneId) (m : LaneId) (o : Offers) (r : LaneReq) (k : Nat) (s : State) => s.votes = true ∧ (s.usableLanes = [l, m] ∨ s.usableLanes = [m, l]) ∧ Offers.of o m = ⟨some r, k, false⟩ ∧ l ≠ m) (.b) (.a) (same3 (reqAt .store 0x1000000100 7)) (reqAt .store 0x1000000100 7) (0) (withFlds [(F.LANE_STAT_STATE_C, 3), (F.LANE_STAT_USABLE, 2)] sOp) := by decide +kernel

theorem witness_VotesServeAgreedRequests_12 : (fun (r : LaneReq) (w : Nat) (s : State) => s.region r.addr.toNat = Region.rack w ∧ (s.cordDue = true ∨ (s.hart r.hart).wait ≠ HartWait.access ∨ s.firstAsk r.hart = false ∨ s.windowHeld w = true ∨ s.rackPosted w = true)) (reqAt .store 0x73000010 99) (3) (withFlds [(F.RB_WIN_EN 3, 1)] sOp) := by decide +kernel

theorem witness_SetupRegistersAndLock_1 : (fun (n : Nat) (s : State) => n < 64 ∧ s.phase = Phase.setup ∧ s.mustWait = false) (63) (sSetup) := by decide +kernel

theorem witness_SetupRegistersAndLock_2 : (fun (n : Nat) (s : State) => n < 64 ∧ s.phase = Phase.operate ∧ s.mustWait = false) (5) (sOp) := by decide +kernel

theorem witness_SetupRegistersAndLock_3 : (fun (off : BitVec 22) (s : State) => s.phase = Phase.locking ∧ off.toNat % 4 = 0 ∧ (off.toNat ≠ Reg.SYS_IMG_CMD ∨ s.rd F.SYS_IMG_STAT_BUSY = 0)) (0x3ffffc) (inPhase .locking) := by decide +kernel

theorem witness_SetupRegistersAndLock_4 : (fun (off : BitVec 22) (s : State) => s.phase ≠ Phase.reset ∧ s.mustWait = false ∧ off.toNat % 4 = 0) (0x20018) (sSetup) := by decide +kernel

theorem witness_SetupRegistersAndLock_5 : (fun (off : BitVec 22) (s : State) => (s.phase = Phase.reset ∨ off.toNat % 4 ≠ 0)) (0x20019) (sSetup) := by decide +kernel

theorem witness_SetupRegistersAndLock_6 : (fun (who : Requester) (off : Nat) (w : Word) (l : List (Requester × Nat × Word)) (s : State) => s.writesHeld = false ∧ s.heldWrites = (who, off, w) :: l) (.mp) (0x20018) (5) ([(.mp, 8, 9)]) ({ sSetup with heldWrites := [(.mp, 0x20018, 5), (.mp, 8, 9)] }) := by decide +kernel

theorem witness_SetupRegistersAndLock_7 : (fun (s : State) => (s.writesHeld = true ∨ s.heldWrites = [])) ({ inPhase .locking with heldWrites := [(.mp, 0x20018, 5), (.mp, 8, 9)] }) := by decide +kernel

theorem witness_SetupRegistersAndLock_8 : (fun (w : Word) (s : State) => s.phase = Phase.setup ∧ s.mustWait = false ∧ w.toNat % 65536 = 0x4C4B) (0x4C4B) (sSetup) := by decide +kernel

theorem witness_SetupRegistersAndLock_9 : (fun (h : HartId) (p : PartId) (w : Word) (s : State) => s.mustWait = true ∧ s.locks (.lane h p) Reg.SYS_LOCK w = true) (2) (3) (0x4C4B) ({ sSetup with heldWrites := [(.mp, 0x20018, 5), (.mp, 8, 9)] }) := by decide +kernel

theorem witness_SetupRegistersAndLock_10 : (fun (h : HartId) (p : PartId) (w : Word) (s : State) => s.phase ≠ Phase.reset ∧ s.mustWait = true ∧ s.locks (.lane h p) Reg.SYS_LOCK w = false) (2) (3) (0x4C4B) ((inPhase .locking)) := by decide +kernel

theorem witness_SetupRegistersAndLock_11 : (fun (w : Word) (s : State) => s.mustWait = false ∧ (s.phase ≠ Phase.setup ∨ w.toNat % 65536 ≠ 0x4C4B)) (0x4C4B) (sOp) := by decide +kernel

theorem witness_SetupRegistersAndLock_12 : (fun (k : Nat) (s : State) => s.phase = Phase.locking ∧ s.rd F.LANE_STAT_SAFE = 0 ∧ (s.lockErr true).1 = k ∧ k ≠ 0) (1) ((inPhase .locking).setHart 1 { Hart.start with wait := .lock }) := by decide +kernel

theorem witness_SetupRegistersAndLock_13 : (fun (a : SigOffer) (b : SigOffer) (c : SigOffer) (s : State) => s.phase = Phase.locking ∧ s.rd F.LANE_STAT_SAFE = 0 ∧ (s.lockErr true).1 = 0 ∧ s.sigVote a b c = Verdict.agreed) (⟨1, false⟩) (⟨1, false⟩) (⟨1, false⟩) (withFlds [(F.SYS_IMG_STAT_ACCEPTED, 1)] ((inPhase .locking).setHart 1 { Hart.start with wait := .lock })) := by decide +kernel

theorem witness_SetupRegistersAndLock_14 : (fun (a : SigOffer) (b : SigOffer) (c : SigOffer) (l : LaneId) (k : MisClass) (s : State) => s.phase = Phase.locking ∧ s.rd F.LANE_STAT_SAFE = 0 ∧ (s.lockErr true).1 = 0 ∧ s.sigVote a b c = Verdict.odd l k) (⟨1, false⟩) (⟨1, false⟩) (⟨2, false⟩) (.c) (.signature) (withFlds [(F.SYS_IMG_STAT_ACCEPTED, 1)] (inPhase .locking)) := by decide +kernel

theorem witness_SetupRegistersAndLock_15 : (fun (a : SigOffer) (b : SigOffer) (c : SigOffer) (k : MisClass) (s : State) => s.phase = Phase.locking ∧ s.rd F.LANE_STAT_SAFE = 0 ∧ (s.lockErr true).1 = 0 ∧ s.sigVote a b c = Verdict.unresolved k) (⟨1, false⟩) (⟨3, false⟩) (⟨2, false⟩) (.threeWay) (withFlds [(F.SYS_IMG_STAT_ACCEPTED, 1)] (inPhase .locking)) := by decide +kernel

theorem witness_SetupRegistersAndLock_16 : (fun (w : Word) (s : State) => s.phase = Phase.setup ∧ s.mustWait = false ∧ w.toNat % 65536 = 0x494C) (0x494C) (sSetup) := by decide +kernel

theorem witness_SetupRegistersAndLock_17 : (fun (s : State) => s.rd F.SYS_IMG_STAT_BUSY = 1) (withFlds [(F.SYS_IMG_STAT_BUSY, 1)] sSetup) := by decide +kernel

theorem witness_SetupRegistersAndLock_18 : (fun (s : State) => s.rd F.SYS_IMG_STAT_BUSY = 0 ∧ s.mustWait = true) ((inPhase .locking)) := by decide +kernel

theorem witness_SetupRegistersAndLock_19 : (fun (c : Instr) (who : Requester) (off : Nat) (w : Word) (s : State) => s.mustWait = true ∧ regWrite c = some (who, off, w)) (.lockRelease .mp 1023 5) (.mp) (Reg.LOCK 1023) (5) ((inPhase .locking)) := by decide +kernel

theorem witness_HartsExecuteInstructions_1 : (fun (h : HartId) (a : Nat) (s : State) => hartFree h s ∧ s.lanes.fetched = [] ∧ a = (s.hart h).pc.toNat ∧ a + 2 < 2 ^ 40 ∧ s.region a = Region.plain ∧ s.region (a + 2) = Region.plain ∧ s.byte (s.phys a) &&& 3 = 3 ∧ (s.hart h).pmpOk (s.hart h).priv Perm.x a = true ∧ (s.hart h).pmpOk (s.hart h).priv Perm.x (a + 2) = true) (1) (0x1000000200) (sHart.setLe 0x1000000200 4 0x00208133) := by decide +kernel

theorem witness_HartsExecuteInstructions_2 : (fun (h : HartId) (w : Word) (f7 : Nat) (f3 : Nat) (rd : BitVec 5) (rs1 : BitVec 5) (rs2 : BitVec 5) (s : State) => holdsWord h w s ∧ w.toNat = f7 * 2 ^ 25 + rs2.toNat * 2 ^ 20 + rs1.toNat * 2 ^ 15 + f3 * 2 ^ 12 + rd.toNat * 2 ^ 7 + 0x33 ∧ (f7, f3) ∈ [(0, 0), (0, 1), (0, 2), (0, 3), (0, 4), (0, 5), (0, 6), (0, 7), (32, 0), (32, 5), (1, 0), (1, 4), (1, 5), (1, 6), (1, 7)]) (1) (0x402080B3) (32) (0) (1) (1) (2) (sHand 0x402080B3) := by decide +kernel

theorem witness_HartsExecuteInstructions_3 : (fun (h : HartId) (w : Word) (imm : BitVec 12) (rd : BitVec 5) (rs1 : BitVec 5) (s : State) => holdsWord h w s ∧ w.toNat = imm.toNat * 2 ^ 20 + rs1.toNat * 2 ^ 15 + rd.toNat * 2 ^ 7 + 0x13) (1) (0xFFF08093) (0xFFF) (1) (1) (sHand 0xFFF08093) := by decide +kernel

theorem witness_HartsExecuteInstructions_4 : (fun (h : HartId) (w : Word) (imm : BitVec 12) (rd : BitVec 5) (rs1 : BitVec 5) (a : Nat) (s : State) => holdsWord h w s ∧ s.operate = false ∧ w.toNat = imm.toNat * 2 ^ 20 + rs1.toNat * 2 ^ 15 + 3 * 2 ^ 12 + rd.toNat * 2 ^ 7 + 0x03 ∧ a = ((s.hart h).xr rs1.toNat + imm.signExtend 64).toNat ∧ a % 8 = 0 ∧ a < 2 ^ 40 ∧ s.region a = Region.plain ∧ (s.hart h).pmpOk (s.hart h).dataPriv Perm.r a = true) (1) (0xFF81B283) (0xFF8) (5) (3) (0x10000003F8) ((sHand 0xFF81B283).setLe 0x10000003F8 8 0xFFEEDDCCBBAA9988) := by decide +kernel

theorem witness_HartsExecuteInstructions_5 : (fun (h : HartId) (w : Word) (imm : BitVec 12) (rs1 : BitVec 5) (rs2 : BitVec 5) (a : Nat) (s : State) => holdsWord h w s ∧ s.operate = false ∧ s.pairOn = false ∧ w.toNat = imm.toNat / 32 * 2 ^ 25 + rs2.toNat * 2 ^ 20 + rs1.toNat * 2 ^ 15 + 3 * 2 ^ 12 + imm.toNat % 32 * 2 ^ 7 + 0x23 ∧ a = ((s.hart h).xr rs1.toNat + imm.signExtend 64).toNat ∧ a % 8 = 0 ∧ a < 2 ^ 40 ∧ s.region a = Region.plain ∧ (s.hart h).pmpOk (s.hart h).dataPriv Perm.w a = true) (1) (0xFE11BC23) (0xFF8) (3) (1) (0x10000003F8) ({ sHand 0xFE11BC23 with lanes := { (sHand 0xFE11BC23).lanes with resv := [(1, 0x10000003C0), (2, 0x10000003C0)] } }) := by decide +kernel

theorem witness_HartsExecuteInstructions_6 : (fun (h : HartId) (w : Word) (imm : BitVec 13) (rs1 : BitVec 5) (rs2 : BitVec 5) (s : State) => holdsWord h w s ∧ imm.toNat % 2 = 0 ∧ w.toNat = imm.toNat / 4096 * 2 ^ 31 + imm.toNat / 32 % 64 * 2 ^ 25 + rs2.toNat * 2 ^ 20 + rs1.toNat * 2 ^ 15 + imm.toNat / 2 % 16 * 2 ^ 8 + imm.toNat / 2048 % 2 * 2 ^ 7 + 0x63) (1) (0xFE208EE3) (0x1FFC) (1) (2) (sHand 0xFE208EE3) := by decide +kernel

theorem witness_HartsExecuteInstructions_7 : (fun (h : HartId) (w : Word) (imm : BitVec 12) (rd : BitVec 5) (rs1 : BitVec 5) (s : State) => holdsWord h w s ∧ w.toNat = imm.toNat * 2 ^ 20 + rs1.toNat * 2 ^ 15 + rd.toNat * 2 ^ 7 + 0x67) (1) (0x003182E7) (3) (5) (3) (sHand 0x003182E7) := by decide +kernel

theorem witness_HartsExecuteInstructions_8 : (fun (h : HartId) (s : State) => holdsWord h 0x73 s) (1) (sHand 0x73) := by decide +kernel

theorem witness_HartsExecuteInstructions_9 : (fun (h : HartId) (w : Word) (s : State) => holdsWord h w s ∧ w.toNat % 4 = 3 ∧ decode32 w.toNat = none) (1) (0xFFFFFFFF) (sHand 0xFFFFFFFF) := by decide +kernel

theorem witness_HartsExecuteInstructions_10 : (fun (h : HartId) (w : Word) (imm : BitVec 12) (rd : BitVec 5) (rs1 : BitVec 5) (a : Nat) (s : State) => holdsWord h w s ∧ w.toNat = imm.toNat * 2 ^ 20 + rs1.toNat * 2 ^ 15 + 3 * 2 ^ 12 + rd.toNat * 2 ^ 7 + 0x03 ∧ a = ((s.hart h).xr rs1.toNat + imm.signExtend 64).toNat ∧ a % 8 ≠ 0 ∧ s.ownRules a = false) (1) (0xFF91B283) (0xFF9) (5) (3) (0x10000003F9) (sHand 0xFF91B283) := by decide +kernel

theorem witness_HartsExecuteInstructions_11 : (fun (h : HartId) (w : Word) (imm : BitVec 12) (rd : BitVec 5) (rs1 : BitVec 5) (s : State) => s.canRun h = true ∧ s.hasReady h = false ∧ s.lanes.dbg.asked.contains h.val = false ∧ s.stepping h = true ∧ s.cord.replay = [] ∧ s.lanes.fetched = [(h.val, w)] ∧ w.toNat = imm.toNat * 2 ^ 20 + rs1.toNat * 2 ^ 15 + rd.toNat * 2 ^ 7 + 0x13) (1) (0xFFF08093) (0xFFF) (1) (1) ({ sHand 0xFFF08093 with lanes := { (sHand 0xFFF08093).lanes with dbg := { (sHand 0).lanes.dbg with active := true, stepping := [1] } } }) := by decide +kernel

theorem witness_HartsExecuteInstructions_12 : (fun (h : HartId) (s : State) => s.halted h = true ∧ s.lanes.dbg.asked.contains h.val = false ∧ s.stepping h = false) (1) ({ sHand 0x73 with lanes := { (sHand 0x73).lanes with dbg := { (sHand 0).lanes.dbg with active := true, halted := [1] } } }) := by decide +kernel

theorem witness_HartsExecuteInstructions_13 : (fun (w : Nat) (imm : BitVec 12) (rd : BitVec 5) (rs1 : BitVec 5) (s : State) => mpHolds w s ∧ w = imm.toNat * 2 ^ 20 + rs1.toNat * 2 ^ 15 + rd.toNat * 2 ^ 7 + 0x13) (0xFFF08093) (0xFFF) (1) (1) ({ sOp with mp := { sOp.mp with core := { MpCore.start with on := true, pc := 0x100, x := [(1, 100), (2, 7), (3, 0x400)], mtvec := 0x801 }, sram := [(0x100, 147), (0x101, 128), (0x102, 240), (0x103, 255)] } }) := by decide +kernel

theorem witness_HartsExecuteInstructions_14 : (fun (w : Nat) (imm : BitVec 12) (rs1 : BitVec 5) (rs2 : BitVec 5) (a : Nat) (s : State) => mpHolds w s ∧ w = imm.toNat / 32 * 2 ^ 25 + rs2.toNat * 2 ^ 20 + rs1.toNat * 2 ^ 15 + 2 * 2 ^ 12 + imm.toNat % 32 * 2 ^ 7 + 0x23 ∧ a = (MpCore.xr s.mp.core rs1.toNat + imm.signExtend 32).toNat ∧ a % 4 = 0 ∧ a < 0x80000) (0xFE11AC23) (0xFF8) (3) (1) (0x3F8) ({ sOp with mp := { sOp.mp with core := { MpCore.start with on := true, pc := 0x100, x := [(1, 100), (2, 7), (3, 0x400)], mtvec := 0x801 }, sram := [(0x100, 35), (0x101, 172), (0x102, 17), (0x103, 254), (0x3F9, 7), (0x3FC, 9)] } }) := by decide +kernel

theorem witness_HartsExecuteInstructions_15 : (fun (w : Nat) (imm : BitVec 12) (rd : BitVec 5) (rs1 : BitVec 5) (a : Word) (s : State) => mpHolds w s ∧ w = imm.toNat * 2 ^ 20 + rs1.toNat * 2 ^ 15 + 2 * 2 ^ 12 + rd.toNat * 2 ^ 7 + 0x03 ∧ a = MpCore.xr s.mp.core rs1.toNat + imm.signExtend 32 ∧ a.toNat % 4 ≠ 0) (0xFF91A283) (0xFF9) (5) (3) (0x3F9) ({ sOp with mp := { sOp.mp with core := { MpCore.start with on := true, pc := 0x100, x := [(1, 100), (2, 7), (3, 0x400)], mtvec := 0x801 }, sram := [(0x100, 131), (0x101, 162), (0x102, 145), (0x103, 255)] } }) := by decide +kernel

theorem witness_HartsExecuteInstructions_16 : (fun (s : State) => mpHolds 0x73 s) ({ sOp with mp := { sOp.mp with core := { MpCore.start with on := true, pc := 0x100, x := [(1, 100), (2, 7), (3, 0x400)], mtvec := 0x801 }, sram := [(0x100, 115), (0x101, 0), (0x102, 0), (0x103, 0)] } }) := by decide +kernel

theorem witness_HartsExecuteInstructions_17 : (fun (w : Nat) (s : State) => mpHolds w s ∧ mpDecode w = none) (0xFF91B283) ({ sOp with mp := { sOp.mp with core := { MpCore.start with on := true, pc := 0x100, x := [(1, 100), (2, 7), (3, 0x400)], mtvec := 0x801 }, sram := [(0x100, 131), (0x101, 178), (0x102, 145), (0x103, 255)] } }) := by decide +kernel

theorem witness_HartsExecuteInstructions_18 : (fun (s : State) => (s.mp.core.on = false ∨ s.mpIrqOf ≠ none ∨ (s.mp.core.waits = true ∧ s.mpMip &&& s.mp.core.mieReg = 0))) (sOp) := by decide +kernel

theorem witness_TrapsReturnsAndCsrs_1 : (fun (h : HartId) (c : Nat) (s : State) => s.irqOf h = some c ∧ s.canRun h = true ∧ s.hasReady h = false ∧ s.stepping h = false) (1) (7) (sSetupOn.setHart 1 { hart1 with mtip := true, mieReg := 0x80 }) := by decide +kernel

theorem witness_TrapsReturnsAndCsrs_2 : (fun (h : HartId) (c : Nat) (s : State) => s.irqOf h = some c ∧ s.canRun h = false ∧ s.wfiEnds h = true ∧ s.hasReady h = false ∧ s.stepping h = false ∧ s.cord.replay = []) (1) (7) (sSetupOn.setHart 1 { hart1 with mtip := true, mieReg := 0x80, wait := .wfi }) := by decide +kernel

theorem witness_TrapsReturnsAndCsrs_3 : (fun (h : HartId) (s : State) => (s.mip h &&& (s.hart h).mieReg).getLsbD 11 = true ∧ ((s.hart h).priv = Priv.user ∨ (s.hart h).mie = true)) (1) ({ sSetupOn.setHart 1 { hart1 with mtip := true, mieReg := 0x880 } with plic := { State.reset.plic with pend := [(9, true)], enab := [(1033, true)], prio := [(9, 3)] } }) := by decide +kernel

theorem witness_TrapsReturnsAndCsrs_4 : (fun (h : HartId) (s : State) => (s.hart h).priv = Priv.machine ∧ (s.hart h).mie = false) (1) (sSetupOn.setHart 1 { hart1 with mtip := true, mieReg := 0x880, mie := false }) := by decide +kernel

theorem witness_TrapsReturnsAndCsrs_5 : (fun (h : HartId) (s : State) => s.irqOf h = none) (1) (sHart) := by decide +kernel

theorem witness_TrapsReturnsAndCsrs_6 : (fun (c : Nat) (s : State) => s.mpIrqOf = some c ∧ s.mp.core.on = true ∧ s.mp.core.waits = false) (11) (withFlds [(F.MPX_IRQ_PEND_IRQ, 2), (F.MPX_IRQ_EN_IRQ, 2)] { sOp with mp := { sOp.mp with core := { MpCore.start with on := true, pc := 0x102, mie := true, mieReg := 0x880, mtvec := 0x801 } } }) := by decide +kernel

theorem witness_TrapsReturnsAndCsrs_7 : (fun (s : State) => (s.mpIrqOf = none ∨ s.mp.core.on = false)) (sOp) := by decide +kernel

theorem witness_TrapsReturnsAndCsrs_8 : (fun (h : HartId) (s : State) => hartFree h s ∧ s.lanes.fetched = [] ∧ (s.hart h).priv = Priv.machine) (1) (sSetupOn.setHart 1 { hart1 with mprv := true, mpp := .user }) := by decide +kernel

theorem witness_TrapsReturnsAndCsrs_9 : (fun (h : HartId) (c : Instr) (s : State) => hartFree h s ∧ s.lanes.fetched = [] ∧ (s.hart h).priv = Priv.user ∧ (c = .mret h ∨ c = .wfi h ∨ c = .dzcWfi h ∨ c = .dzcWfiEmber h ∨ c = .csrWrite h .rw false 1 2 0x300 ∨ c = .csrWrite h .rs false 0 3 0x7C0)) (1) (.mret 1) (sSetupOn.setHart 1 { hart1 with priv := .user }) := by decide +kernel

theorem witness_TrapsReturnsAndCsrs_10 : (fun (h : HartId) (c : BitVec 12) (s : State) => hartFree h s ∧ s.lanes.fetched = [] ∧ (s.hart h).priv = Priv.machine ∧ (c = 0x305 ∨ c = 0x340 ∨ c = 0x341 ∨ c = 0x342 ∨ c = 0x7C2)) (1) (0x340) (sHart) := by decide +kernel

theorem witness_TrapsReturnsAndCsrs_11 : (fun (h : HartId) (op : CsrOp) (src : BitVec 5) (c : BitVec 12) (s : State) => hartFree h s ∧ s.lanes.fetched = [] ∧ s.csrExists h c.toNat = true ∧ ((op ≠ CsrOp.rw ∧ src = 0) ∨ bits c.toNat 10 2 ≠ 3) ∧ csrTimed c.toNat = false ∧ c ≠ 0x7C1) (1) (.rs) (8) (0x300) (sHart) := by decide +kernel

theorem witness_TrapsReturnsAndCsrs_12 : (fun (h : HartId) (op : CsrOp) (src : BitVec 5) (c : BitVec 12) (s : State) => hartFree h s ∧ s.lanes.fetched = [] ∧ (s.csrExists h c.toNat = false ∨ ((op = CsrOp.rw ∨ src ≠ 0) ∧ bits c.toNat 10 2 = 3))) (1) (.rc) (3) (0xF14) (sOpHart) := by decide +kernel

theorem witness_TrapsReturnsAndCsrs_13 : (fun (h : HartId) (uimm : BitVec 12) (s : State) => hartFree h s ∧ s.lanes.fetched = [] ∧ 3 ≤ uimm.toNat ∧ ((s.hart h).lpCount = 0 ∨ (s.hart h).lpMode ≠ (s.hart h).priv)) (1) (3) (sHart) := by decide +kernel

theorem witness_TrapsReturnsAndCsrs_14 : (fun (h : HartId) (uimm : BitVec 12) (s : State) => hartFree h s ∧ s.lanes.fetched = [] ∧ (uimm.toNat < 3 ∨ (s.hart h).lpCount ≠ 0 ∧ (s.hart h).lpMode = (s.hart h).priv)) (1) (2) (sHart) := by decide +kernel

theorem witness_WaitsOfHarts_1 : (fun (h : HartId) (c : Instr) (s : State) => hartFree h s ∧ s.lanes.fetched = [] ∧ (s.hart h).priv = Priv.machine ∧ (c = .wfi h ∨ c = .dzcWfi h)) (1) (.wfi 1) (sHart) := by decide +kernel

theorem witness_WaitsOfHarts_2 : (fun (h : HartId) (s : State) => hartFree h s ∧ s.lanes.fetched = [] ∧ (s.hart h).priv = Priv.machine ∧ (s.mip h &&& (s.hart h).mieReg ≠ 0 ∨ (∃ k ∈ allHarts, k ≠ h ∧ (s.hart k).wait ≠ HartWait.wfiEmber))) (1) (sHart) := by decide +kernel

theorem witness_WaitsOfHarts_3 : (fun (h : HartId) (s : State) => hartFree h s ∧ s.lanes.fetched = [] ∧ (s.hart h).priv = Priv.machine ∧ s.operate = true ∧ s.rd F.LANE_STAT_SAFE = 0 ∧ s.mip h &&& (s.hart h).mieReg = 0 ∧ ((∀ k ∈ allHarts, k = h ∨ (s.hart k).wait = HartWait.wfiEmber))) (1) ([0, 2, 3].foldl (fun t k => t.setHart k { Hart.start with wait := .wfiEmber }) sOpHart) := by decide +kernel

theorem witness_WaitsOfHarts_4 : (fun (h : HartId) (s : State) => s.irqOf h = none ∧ s.canRun h = false ∧ s.wfiEnds h = true ∧ s.lanes.dbg.asked.contains h.val = false ∧ s.stepping h = false ∧ s.cord.replay = []) (1) (sSetupOn.setHart 1 { hart1 with mie := false, mtip := true, mieReg := 0x80, wait := .wfi }) := by decide +kernel

theorem witness_WaitsOfHarts_5 : (fun (h : HartId) (rd : BitVec 5) (s : State) => hartFree h s ∧ s.lanes.fetched = [] ∧ ((s.hart h).priv = Priv.machine ∨ (s.hart h).ucord = true) ∧ s.operate = true ∧ s.rd F.LANE_STAT_SAFE = 0) (1) (4) (sOpHart) := by decide +kernel

theorem witness_WaitsOfHarts_6 : (fun (h : HartId) (s : State) => hartFree h s ∧ s.lanes.fetched = [] ∧ ((s.hart h).priv = Priv.machine ∨ (s.hart h).ucord = true) ∧ s.operate = false) (1) (sHart) := by decide +kernel

theorem witness_WaitsOfHarts_7 : (fun (h : HartId) (s : State) => hartFree h s ∧ s.lanes.fetched = [] ∧ (s.hart h).priv = Priv.user ∧ (s.hart h).ucord = false) (1) (sOp.setHart 1 { hart1 with priv := .user }) := by decide +kernel

theorem witness_WaitsOfHarts_8 : (fun (h : HartId) (s : State) => hartFree h s ∧ s.lanes.fetched = []) (1) ({ sOpHart with flue := { sOp.flue with recs := [⟨1, 3, 5, 1, .store, 0x1000000000, 8, [], [], false, none, none, 0⟩] } }) := by decide +kernel

theorem witness_ClaimsAndTimers_1 : (fun (h : HartId) (k : Nat) (n : Nat) (s : State) => hartFree h s ∧ s.lanes.fetched = [] ∧ (s.hart h).priv = Priv.machine ∧ k < 4 ∧ (s.hart h).dzpsel.toNat = 0x200004 + 0x1000 * k ∧ s.plic.best k = n ∧ n ≠ 0) (1) (2) (9) ({ sSetupOn.setHart 1 { hart1 with dzpsel := 0x202004 } with plic := { State.reset.plic with pend := [(9, true), (12, true)], enab := [(2057, true)], prio := [(9, 3)] } }) := by decide +kernel

theorem witness_ClaimsAndTimers_2 : (fun (h : HartId) (k : Nat) (s : State) => hartFree h s ∧ s.lanes.fetched = [] ∧ (s.hart h).priv = Priv.machine ∧ k < 4 ∧ (s.hart h).dzpsel.toNat = 0x200004 + 0x1000 * k ∧ s.plic.best k = 0) (1) (2) (sSetupOn.setHart 1 { hart1 with dzpsel := 0x202004 }) := by decide +kernel

theorem witness_ClaimsAndTimers_3 : (fun (k : Nat) (p : Plic) => p.best k ≠ 0) (2) ({ State.reset.plic with pend := [(9, true), (12, true), (512, true)], enab := [(2057, true), (2060, true)], prio := [(9, 3), (12, 3)] }) := by decide +kernel

theorem witness_ClaimsAndTimers_4 : (fun (h : HartId) (rs : BitVec 5) (k : Nat) (n : Nat) (s : State) => hartFree h s ∧ s.lanes.fetched = [] ∧ (s.hart h).priv = Priv.machine ∧ k < 4 ∧ (s.hart h).dzpsel.toNat = 0x200004 + 0x1000 * k ∧ ((s.hart h).xr rs.toNat).toNat % 2 ^ 32 = n ∧ 0 < n ∧ n < 513 ∧ s.plic.isEnab k n = true ∧ Sparse.get s.plic.claimed false n = true) (1) (2) (0) (7) ({ sSetupOn.setHart 1 { hart1 with dzpsel := 0x200004 } with plic := { State.reset.plic with claimed := [(7, true), (12, true)], merged := [(7, true)], enab := [(7, true)], prio := [(9, 3)] } }) := by decide +kernel

theorem witness_ClaimsAndTimers_5 : (fun (h : HartId) (rs : BitVec 5) (k : Nat) (n : Nat) (s : State) => hartFree h s ∧ s.lanes.fetched = [] ∧ (s.hart h).priv = Priv.machine ∧ k < 4 ∧ (s.hart h).dzpsel.toNat = 0x200004 + 0x1000 * k ∧ ((s.hart h).xr rs.toNat).toNat % 2 ^ 32 = n ∧ s.plic.isEnab k n = false) (1) (2) (0) (7) ({ sSetupOn.setHart 1 { hart1 with dzpsel := 0x200004 } with plic := { State.reset.plic with claimed := [(7, true), (12, true)], merged := [(7, true)], prio := [(9, 3)] } }) := by decide +kernel

theorem witness_ClaimsAndTimers_6 : (fun (h : HartId) (s : State) => s.lanes.on = true ∧ s.lanes.resuming = false ∧ s.cord.heldSrc = [] ∧ s.rd F.CORD_STAT_ROLLING = 0 ∧ s.rd F.CORD_STAT_REPLAY = 0 ∧ s.operate = false ∧ s.pwr.state = PowerState.run ∧ s.mtipNow h ≠ (s.hart h).mtip) (1) (sSetupOn) := by decide +kernel

theorem witness_ClaimsAndTimers_7 : (fun (h : HartId) (s : State) => s.lanes.on = true ∧ s.cord.heldSrc = [] ∧ s.rd F.CORD_STAT_REPLAY = 1 ∧ s.operate = true ∧ s.pwr.state = PowerState.run ∧ s.mtipNow h ≠ (s.hart h).mtip) (1) (withFlds [(F.CORD_STAT_REPLAY, 1)] sOp) := by decide +kernel

theorem witness_ClaimsAndTimers_8 : (fun (h : HartId) (s : State) => (s.mtipNow h = s.mtipSent h ∨ s.lanes.on = false)) (1) (State.reset) := by decide +kernel

theorem witness_ClaimsAndTimers_9 : (fun (h : HartId) (s : State) => s.atClaim h = false) (1) (sHart) := by decide +kernel

theorem witness_CordsSealAndRestore_1 : (fun (s : State) => s.operate = true ∧ s.rd F.LANE_STAT_SAFE = 0 ∧ s.lanes.on = true ∧ s.pwr.state = PowerState.run ∧ s.rd F.CORD_STAT_REPLAY = 0 ∧ s.rd F.CORD_STAT_ROLLING = 0 ∧ reached s.raw (s.sealRaw + s.rd F.CORD_PERIOD_PERIOD * 500) = true) (withFlds [(F.CORD_PERIOD_PERIOD, 2)] sOp) := by decide +kernel

theorem witness_CordsSealAndRestore_2 : (fun (s : State) => s.operate = true ∧ s.rd F.LANE_STAT_SAFE = 0 ∧ s.lanes.on = true ∧ s.pwr.state = PowerState.run ∧ s.rd F.CORD_STAT_REPLAY = 1 ∧ reached s.raw (s.sealRaw + s.rd F.CORD_PERIOD_PERIOD * 500) = true) (withFlds [(F.CORD_PERIOD_PERIOD, 2), (F.CORD_STAT_REPLAY, 1)] sOp) := by decide +kernel

theorem witness_CordsSealAndRestore_3 : (fun (a : SigOffer) (b : SigOffer) (c : SigOffer) (s : State) => s.operate = true ∧ s.rd F.LANE_STAT_SAFE = 0 ∧ s.lanes.on = true ∧ s.lanes.resuming = false ∧ s.pwr.state = PowerState.run ∧ s.pairOn = false ∧ s.cord.causes ≠ 0 ∧ s.cord.causes.getLsbD 9 = false ∧ s.quietHarts = true ∧ s.rd F.CORD_STAT_REPLAY = 0 ∧ s.rd F.CORD_STAT_ROLLING = 0 ∧ s.cord.heldSrc = [] ∧ s.cord.replay = [] ∧ s.tasksRest = false ∧ s.sigVote a b c = Verdict.agreed) (⟨5, false⟩) (⟨5, false⟩) (⟨5, false⟩) ({ sCord.setHart 1 { hart1 with wait := .cord 4 } with flue := (sFlue { sRec with releasable := false }).flue }) := by decide +kernel

theorem witness_CordsSealAndRestore_4 : (fun (a : SigOffer) (b : SigOffer) (c : SigOffer) (s : State) => s.operate = true ∧ s.rd F.LANE_STAT_SAFE = 0 ∧ s.lanes.on = true ∧ s.lanes.resuming = false ∧ s.pwr.state = PowerState.run ∧ s.pairOn = false ∧ s.cord.causes ≠ 0 ∧ s.quietHarts = true ∧ s.usableLanes = lanesABC ∧ s.rd F.CORD_STAT_REPLAY = 0 ∧ s.rd F.CORD_STAT_ROLLING = 0 ∧ s.cord.heldSrc = [] ∧ s.tasksRest = false ∧ s.rd F.LANE_FAULT_VALID = 0 ∧ a = ⟨a.sig, false⟩ ∧ b = a ∧ c.sig ≠ a.sig) (⟨5, false⟩) (⟨5, false⟩) (⟨6, false⟩) (sCord) := by decide +kernel

theorem witness_CordsSealAndRestore_5 : (fun (s : State) => s.rd F.CORD_STAT_ROLLING = 1 ∧ s.npInFlight = false ∧ s.rd F.LANE_STAT_SAFE = 0 ∧ s.lanes.ready = [] ∧ firstSrc (s.cord.log ++ s.cord.replay) = none ∧ s.cord.log ≠ [] ∧ ((∀ e ∈ s.cord.undo, e.old.length = 64))) (sRoll.setLe 0x1000000044 8 0x1122334455667788) := by decide +kernel

theorem witness_CordsSealAndRestore_6 : (fun (d : Bool) (u : Option Nat) (n : Nat) (s : State) => s.rd F.CORD_STAT_ROLLING = 1 ∧ s.npInFlight = false ∧ s.rd F.LANE_STAT_SAFE = 0 ∧ s.phase ≠ Phase.reset ∧ ((d = true ∧ n = 0) ∨ (d = false ∧ u = some n ∧ n < s.cord.undo.length))) (true) (none) (0) (sRoll) := by decide +kernel

theorem witness_CordsSealAndRestore_7 : (fun (s : State) => (s.rd F.CORD_STAT_ROLLING = 0 ∨ s.npInFlight = true ∨ s.rd F.LANE_STAT_SAFE = 1)) (sOp) := by decide +kernel

theorem witness_CordsSealAndRestore_8 : (fun (s : State) => (s.cord.causes = 0 ∨ s.quietHarts = false ∨ s.rd F.CORD_STAT_ROLLING = 1 ∨ s.operate = false)) (sOp) := by decide +kernel

theorem witness_CordsSealAndRestore_9 : (fun (a : SigOffer) (b : SigOffer) (c : SigOffer) (k : MisClass) (s : State) => s.cordsOn = true ∧ s.cord.causes ≠ 0 ∧ s.quietHarts = true ∧ s.rd F.CORD_STAT_ROLLING = 0 ∧ s.lanes.resuming = false ∧ s.sigVote a b c = Verdict.unresolved k) (⟨5, false⟩) (⟨6, false⟩) (⟨7, false⟩) (.threeWay) (sCord) := by decide +kernel

theorem witness_CordsSealAndRestore_10 : (fun (a : SigOffer) (b : SigOffer) (c : SigOffer) (s : State) => s.cordsOn = true ∧ s.cord.causes.getLsbD 9 = true ∧ s.quietHarts = true ∧ s.rd F.CORD_STAT_ROLLING = 0 ∧ s.lanes.resuming = false ∧ s.canAdmit = true ∧ s.sigVote a b c = Verdict.agreed) (⟨5, false⟩) (⟨5, false⟩) (⟨5, false⟩) (withFlds [(F.LANE_STAT_STATE_B, 2), (F.LANE_STAT_USABLE, 2)] { sCord with cord := { sCord.cord with causes := 512 } }) := by decide +kernel

theorem witness_CordsSealAndRestore_11 : (fun (s : State) => s.rd F.CORD_STAT_REPLAY = 0) (sOp) := by decide +kernel

theorem witness_CordsSealAndRestore_12 : (fun (s : State) => s.lanes.resuming = false) (sOp) := by decide +kernel

theorem witness_CordsSealAndRestore_13 : (fun (s : State) => reached s.raw (s.sealRaw + s.rd F.CORD_PERIOD_PERIOD * 500) = false) (withFlds [(F.CORD_PERIOD_PERIOD, 1000)] sOp) := by decide +kernel

theorem witness_CordsSealAndRestore_14 : (fun (l : LaneId) (s : State) => s.laneSt l ≠ LaneSt.fenced) (.b) (sOp) := by decide +kernel

theorem witness_CordsSealAndRestore_15 : (fun (l : LaneId) (s : State) => s.phase ≠ Phase.reset ∧ s.laneSt l = LaneSt.fenced ∧ s.pwr.state = PowerState.run ∧ s.rd F.IST_STAT_LBIST_RUN = 1 ∧ s.rd F.IST_STAT_LBIST_LANE = l.num) (.b) (withFlds [(F.LANE_STAT_STATE_B, 1), (F.IST_STAT_LBIST_RUN, 1), (F.IST_STAT_LBIST_LANE, 1)] sOp) := by decide +kernel

theorem witness_CordsSealAndRestore_16 : (fun (s : State) => s.rd F.CORD_STAT_REPLAY = 1 ∧ s.rd F.LANE_STAT_SAFE = 0 ∧ s.phase ≠ Phase.reset ∧ reached s.raw (s.cord.liveRaw + 4 * s.rd F.CORD_PERIOD_PERIOD * 500) = true) (withFlds [(F.CORD_PERIOD_PERIOD, 0), (F.CORD_STAT_REPLAY, 1)] sOp) := by decide +kernel

theorem witness_CordsSealAndRestore_17 : (fun (s : State) => s.lanes.resuming = true ∧ s.cord.heldSrc = [] ∧ s.pair.resume = false ∧ s.phase ≠ Phase.reset) (withFlds [(F.LANE_STAT_STATE_B, 2)] { sOp with lanes := { sOp.lanes with resuming := true } }) := by decide +kernel

theorem witness_CordsSealAndRestore_18 : (fun (l : LaneId) (s : State) => s.phase ≠ Phase.reset ∧ s.laneSt l = LaneSt.fenced ∧ s.pwr.state = PowerState.run ∧ (s.rd F.IST_STAT_LBIST_RUN = 0 ∨ s.rd F.IST_STAT_LBIST_LANE ≠ l.num)) (.b) (withFlds [(F.LANE_STAT_STATE_B, 1)] sOp) := by decide +kernel

theorem witness_CordsSealAndRestore_19 : (fun (l : LaneId) (s : State) => s.phase ≠ Phase.reset ∧ s.laneSt l = LaneSt.fenced ∧ s.pwr.state = PowerState.run ∧ (s.rd F.IST_STAT_LBIST_RUN = 0 ∨ s.rd F.IST_STAT_LBIST_LANE ≠ l.num)) (.b) (withFlds [(F.LANE_STAT_STATE_B, 1)] sOp) := by decide +kernel

theorem witness_FlueReleasesInSequence_1 : (fun (r : FlueRec) (rest : List FlueRec) (a : Nat) (bs : List Byte) (s : State) => s.operate = true ∧ s.flue.shut = false ∧ s.pairOn = false ∧ s.ecc = [] ∧ s.flue.recs = r :: rest ∧ r.kind = EffKind.store ∧ r.bytes = addrBytes a bs ∧ r.releasable = true ∧ r.mirrorWait = none ∧ r.seq = (s.stream r.dest).released + 1 ∧ r ∉ rest ∧ s.rd (F.FLUE_QUOTA_HELD r.part.toNat) ≠ 0) (sRec) ([]) (0x1000000104) ([1, 2, 3, 4]) (sFlue sRec) := by decide +kernel

theorem witness_FlueReleasesInSequence_2 : (fun (r : FlueRec) (rest : List FlueRec) (w : Nat) (s : State) => s.operate = true ∧ s.flue.shut = false ∧ w < 16 ∧ s.flue.recs = r :: rest ∧ r.kind = EffKind.rack ∧ r.dest.toNat = 0x8040 + w ∧ r.releasable = true ∧ r.mirrorWait = none ∧ s.rackAccepts w = true ∧ r.seq = (s.stream r.dest).released + 1 ∧ ((∀ h ∈ allHarts, (s.hart h).wait ≠ HartWait.cfence))) ({ sRec with kind := .rack, dest := 0x8043, addr := 0x73000010 }) ([]) (3) (sFlue { sRec with kind := .rack, dest := 0x8043, addr := 0x73000010 }) := by decide +kernel

theorem witness_FlueReleasesInSequence_3 : (fun (r : FlueRec) (rest : List FlueRec) (s : State) => s.operate = true ∧ s.flue.shut = false ∧ s.flue.recs = r :: rest ∧ r.kind = EffKind.store ∧ r.releasable = true ∧ r.mirrorWait = none ∧ r.seq = (s.stream r.dest).released ∧ ((∀ h ∈ allHarts, (s.hart h).wait ≠ HartWait.cfence))) ({ sRec with seq := 0 }) ([]) (sFlue { sRec with seq := 0 }) := by decide +kernel

theorem witness_FlueReleasesInSequence_4 : (fun (r : FlueRec) (rest : List FlueRec) (s : State) => s.operate = true ∧ s.flue.shut = false ∧ s.rd F.LANE_STAT_SAFE = 0 ∧ s.flue.recs = r :: rest ∧ r.kind = EffKind.store ∧ r.releasable = true ∧ r.mirrorWait = none ∧ r.seq = (s.stream r.dest).released + 2 ∧ ((∀ h ∈ allHarts, (s.hart h).wait ≠ HartWait.cfence))) ({ sRec with seq := 2 }) ([]) (sFlue { sRec with seq := 2 }) := by decide +kernel

theorem witness_FlueReleasesInSequence_5 : (fun (r : LaneReq) (n : Nat) (s : State) => s.operate = true ∧ s.flue.shut = false ∧ s.cordDue = false ∧ s.flue.held = [r] ∧ r.kind = ReqKind.store ∧ r.size ≤ 8 ∧ ((∀ k < r.size, r.mask.getLsbD k = true)) ∧ s.region r.addr.toNat = Region.effect n ∧ n < 64 ∧ s.rd (F.FLUE_QUOTA_QUOTA r.part.toNat) ≠ 0 ∧ s.rd (F.FLUE_QUOTA_HELD r.part.toNat) < s.rd (F.FLUE_QUOTA_QUOTA r.part.toNat) ∧ s.flue.recs.length < 1535 ∧ s.rd F.FLUE_CFG_MERGE_EN = 0 ∧ s.pairOn = false) ({ reqAt .store 0x1000000108 77 with part := 3 }) (2) (withFlds [(F.RAT_BASE_BASE 2, 0x1000000), (F.RAT_LIMIT_LIMIT 2, 0x1000000), (F.RAT_CTL_EN 2, 1), (F.RAT_CTL_TYPE 2, 2), (F.FLUE_QUOTA_QUOTA 3, 4), (F.FLUE_CFG_MERGE_EN, 0)] { sOp with flue := { sOp.flue with held := [reqAt .store 0x1000000108 77] } }) := by decide +kernel

theorem witness_FlueReleasesInSequence_6 : (fun (r : FlueRec) (rest : List FlueRec) (s : State) => s.operate = true ∧ s.flue.recs = r :: rest ∧ r.kind = EffKind.rack ∧ r.releasable = true ∧ s.rd F.FLUE_CFG_STALL_TMO ≠ 0 ∧ Sparse.get s.flue.stalled false r.dest.toNat = false ∧ reached s.raw (r.since + s.rd F.FLUE_CFG_STALL_TMO * 50000) = true ∧ s.rd F.FLUE_STALL_VALID = 0) ({ sRec with kind := .rack, dest := 0x8043 }) ([]) ({ withFlds [(F.FLUE_CFG_STALL_TMO, 1)] (sFlue { sRec with kind := .rack, dest := 0x8043 }) with tb := { TimeBase.start with locked := true, raw := 60000 } }) := by decide +kernel

theorem witness_FlueReleasesInSequence_7 : (fun (k : Nat) (raw : Nat) (l : List (Nat × Nat)) (s : State) => s.operate = true ∧ s.isActive = true ∧ s.pair.unacked = (k, raw) :: l ∧ reached s.raw (raw + 750) = true) (7) (100) ([]) ({ withFlds [(F.PAIR_CFG_EN, 1), (F.PAIR_STAT_ROLE, 3)] (sFlue { sRec with mirrorWait := some 6 }) with pair := { State.reset.pair with unacked := [(7, 100)] } }) := by decide +kernel

theorem witness_FlueReleasesInSequence_8 : (fun (d : BitVec 16) (r : FlueRec) (s : State) => s.operate = true ∧ s.flue.shut = false ∧ s.releaseNext d = some r ∧ r.seq = (s.stream r.dest).released + 1) (0x8005) (sRec) (sFlue sRec) := by decide +kernel

theorem witness_FlueReleasesInSequence_9 : (fun (d : BitVec 16) (s : State) => (s.operate = false ∨ s.flue.shut = true ∨ s.releaseNext d = none)) (0x8006) (sFlue sRec) := by decide +kernel

theorem witness_FlueReleasesInSequence_10 : (fun (s : State) => (s.operate = false ∨ s.cordDue = true ∨ s.flue.held = [])) (sFlue sRec) := by decide +kernel

theorem witness_FlueReleasesInSequence_11 : (fun (d : BitVec 16) (s : State) => (s.rd F.FLUE_CFG_STALL_TMO = 0 ∨ s.oldestOf d = none ∨ Sparse.get s.flue.stalled false d.toNat = true)) (0x8006) (sFlue sRec) := by decide +kernel

theorem witness_FlueReleasesInSequence_12 : (fun (s : State) => s.pair.unacked = []) (sFlue sRec) := by decide +kernel

theorem witness_ClearRegistersClear_1 : (fun (s : State) => s.mustWait = false) (sOp) := by decide +kernel

theorem witness_ClearRegistersClear_2 : (fun (s : State) => s.mustWait = false) (sOp) := by decide +kernel

theorem witness_ClearRegistersClear_3 : (fun (s : State) => s.mustWait = false) (sOp) := by decide +kernel

theorem witness_ClearRegistersClear_4 : (fun (s : State) => s.mustWait = false) (sOp) := by decide +kernel

theorem witness_ClearRegistersClear_5 : (fun (s : State) => s.mustWait = false) (sOp) := by decide +kernel

theorem witness_ClearRegistersClear_6 : (fun (s : State) => s.mustWait = false) (sOp) := by decide +kernel

theorem witness_ClearRegistersClear_7 : (fun (s : State) => s.mustWait = false) (sOp) := by decide +kernel

theorem witness_ClearRegistersClear_8 : (fun (s : State) => s.mustWait = false) (sOp) := by decide +kernel

theorem witness_ClearRegistersClear_9 : (fun (s : State) => s.mustWait = false) (sOp) := by decide +kernel

theorem witness_ClearRegistersClear_10 : (fun (s : State) => s.mustWait = false) (sOp) := by decide +kernel

theorem witness_ClearRegistersClear_11 : (fun (s : State) => s.mustWait = false) (sOp) := by decide +kernel

theorem witness_ClearRegistersClear_12 : (fun (s : State) => s.mustWait = false) (sOp) := by decide +kernel

theorem witness_ClearRegistersClear_13 : (fun (s : State) => s.mustWait = false) (sOp) := by decide +kernel

theorem witness_ClearRegistersClear_14 : (fun (s : State) => s.mustWait = false) (sOp) := by decide +kernel

theorem witness_ClearRegistersClear_15 : (fun (s : State) => s.mustWait = false) (sOp) := by decide +kernel

theorem witness_RecordsEndCommands_1 : (fun (c : Cmd) (s : State) => s.rd F.LANE_STAT_SAFE = 0 ∧ s.ecc = [] ∧ s.pairOn = false ∧ (s.ctx c.ring).mp = false) (cmd5 [(0, 0x00420100)]) (sEng 3 (cmd5 [(0, 0x00420100)]) sOp) := by decide +kernel

theorem witness_RecordsEndCommands_2 : (fun (c : Cmd) (s : State) => s.rd F.LANE_STAT_SAFE = 0 ∧ s.ecc = [] ∧ s.pairOn = false ∧ (s.ctx c.ring).mp = false) (cmd5 [(0, 0x00420110)]) (sEng 3 (cmd5 [(0, 0x00420110)]) sOp) := by decide +kernel

theorem witness_RecordsEndCommands_3 : (fun (c : Cmd) (d : Cmd) (rest : List Cmd) (s : State) => s.rings.out = d :: rest ∧ d.ring = c.ring ∧ d.pos ≠ c.pos ∧ d.fin = none) ({ cmd5 [(0, 0x10)] with pos := 1 }) (cmd5 []) ([{ cmd5 [(0, 0x10)] with pos := 1 }]) ({ sOp with rings := { sOp.rings with ctx := [(5, ctx5 3)], out := [cmd5 [], { cmd5 [(0, 0x10)] with pos := 1 }] } }) := by decide +kernel

theorem witness_RecordsEndCommands_4 : (fun (c : Cmd) (rest : List Cmd) (s : State) => s.rd F.LANE_STAT_SAFE = 0 ∧ s.ecc = [] ∧ s.pairOn = false ∧ (s.ctx c.ring).mp = false ∧ s.rings.out = c :: rest ∧ ((∀ d ∈ rest, d.ring ≠ c.ring))) (cmd5 [(0, 0x110)]) ([]) ({ sOp with rings := { sOp.rings with ctx := [(5, ctx5 3)], out := [cmd5 [(0, 0x110)]] } }) := by decide +kernel

theorem witness_RecordsEndCommands_5 : (fun (c : Cmd) (d : Cmd) (rest : List Cmd) (g : Final) (s : State) => s.rd F.LANE_STAT_SAFE = 0 ∧ s.rings.out = c :: d :: rest ∧ d.ring = c.ring ∧ d.pos ≠ c.pos ∧ d.fin = some g ∧ ((∀ x ∈ rest, x.ring ≠ c.ring))) (cmd5 [(0, 0x110)]) ({ cmd5 [(0, 0x10)] with pos := 1, fin := some ⟨1, 0, []⟩ }) ([]) (⟨1, 0, []⟩) ({ sOp with rings := { sOp.rings with ctx := [(5, ctx5 3)], out := [cmd5 [(0, 0x110)], { cmd5 [(0, 0x10)] with pos := 1, fin := some ⟨1, 0, []⟩ }] } }) := by decide +kernel

theorem witness_EnginesTakeDescriptors_1 : (fun (e : EngineId) (p : Nat) (r : Nat) (s : State) => e ≠ 0 ∧ s.running = true ∧ s.acts = true ∧ s.tb.locked = true ∧ s.slotRuns e.val = none ∧ s.raw % 200 = 0 ∧ s.ecc = [] ∧ s.slotServes e.val = some p ∧ s.ownWork e.val p = false ∧ s.ringTurn e.val p = some r ∧ (s.ctx (BitVec.ofNat 15 r)).st = RingSt.busy ∧ s.takeStep (BitVec.ofNat 15 r) true (engKind e.val) = TakeStep.go ∧ engKind e.val (s.headCmd (BitVec.ofNat 15 r)) s = OpKind.short) (3) (3) (5) (withFlds [(F.PART_CFG_WORK_CONSERVE, 1)] { sOp with rings := { sOp.rings with ctx := [(5, ctx5 3)] } }) := by decide +kernel

theorem witness_EnginesTakeDescriptors_2 : (fun (e : EngineId) (p : Nat) (r : Nat) (s : State) => e ≠ 0 ∧ s.running = true ∧ s.acts = true ∧ s.tb.locked = true ∧ s.slotRuns e.val = none ∧ s.raw % 200 = 0 ∧ s.ecc = [] ∧ s.slotServes e.val = some p ∧ s.ownWork e.val p = false ∧ s.ringTurn e.val p = some r ∧ (s.ctx (BitVec.ofNat 15 r)).st = RingSt.busy ∧ s.takeStep (BitVec.ofNat 15 r) true (engKind e.val) = TakeStep.go ∧ engKind e.val (s.headCmd (BitVec.ofNat 15 r)) s = OpKind.unknown) (3) (3) (5) ((withFlds [(F.PART_CFG_WORK_CONSERVE, 1)] { sOp with rings := { sOp.rings with ctx := [(5, ctx5 3)] } }).setLe 0x1000010000 4 0x1FF) := by decide +kernel

theorem witness_EnginesTakeDescriptors_3 : (fun (e : EngineId) (p : Nat) (r : Nat) (s : State) => e ≠ 0 ∧ s.running = true ∧ s.acts = true ∧ s.tb.locked = true ∧ s.slotRuns e.val = none ∧ s.raw % 200 = 0 ∧ s.ecc = [] ∧ s.slotServes e.val = some p ∧ s.ownWork e.val p = false ∧ s.ringTurn e.val p = some r ∧ (s.takeStep (BitVec.ofNat 15 r) true (engKind e.val) = TakeStep.waitFence ∨ s.takeStep (BitVec.ofNat 15 r) true (engKind e.val) = TakeStep.waitLong)) (3) (3) (5) ((withFlds [(F.PART_CFG_WORK_CONSERVE, 1)] { sOp with rings := { sOp.rings with ctx := [(5, { ctx5 3 with longOut := 1 })] } }).setLe 0x1000010000 4 0x200) := by decide +kernel

theorem witness_EnginesTakeDescriptors_4 : (fun (e : EngineId) (p : Nat) (r : Nat) (s : State) => e ≠ 0 ∧ s.running = true ∧ s.acts = true ∧ s.tb.locked = true ∧ s.slotRuns e.val = none ∧ s.raw % 200 = 0 ∧ s.ecc = [] ∧ s.slotServes e.val = some p ∧ s.ownWork e.val p = false ∧ s.ringTurn e.val p = some r ∧ s.takeStep (BitVec.ofNat 15 r) true (engKind e.val) = TakeStep.waitSpace ∧ (s.ctx (BitVec.ofNat 15 r)).st ≠ RingSt.waitSpace) (3) (3) (5) (withFlds [(F.PART_CFG_WORK_CONSERVE, 1)] { sOp with rings := { sOp.rings with ctx := [(5, { ctx5 3 with cqTail := 16 })] } }) := by decide +kernel

theorem witness_EnginesTakeDescriptors_5 : (fun (e : EngineId) (s : State) => (s.running = false ∨ s.acts = false ∨ s.tb.locked = false ∨ (s.slotRuns e.val = none ∧ (s.raw % 200 ≠ 0 ∨ s.slotServes e.val = none)) ∨ (s.slotRuns e.val ≠ none ∧ (s.hand e.val).isSome = true))) (3) (sSetup) := by decide +kernel

theorem witness_EnginesTakeDescriptors_6 : (fun (e : EngineId) (c : Cmd) (s : State) => inHand e.val 0x00 c s ∧ (e ≠ 0 ∨ s.sig.ops ≠ 0)) (3) (cmd5 []) (sEng 3 (cmd5 []) sOp) := by decide +kernel

theorem witness_EnginesTakeDescriptors_7 : (fun (c : Cmd) (s : State) => inHand 0 0x00 c s ∧ s.sig.ops = 0) (cmd5 []) ({ sEng 0 (cmd5 []) sOp with sig := { sOp.sig with ops := 0 } }) := by decide +kernel

theorem witness_EnginesTakeDescriptors_8 : (fun (e : EngineId) (c : Cmd) (r : RingId) (s : State) => inHand e.val 0x01 c s ∧ (e ≠ 0 ∨ s.sig.ops ≠ 0) ∧ r = BitVec.ofNat 15 (c.word 8 / 131072)) (3) (cmd5 [(0, 1), (8, 655367)]) (5) ({ sEng 3 (cmd5 [(0, 1), (8, 655367)]) sOp with rings := { (sEng 3 (cmd5 [(0, 1), (8, 655367)]) sOp).rings with out := [{ cmd5 [] with pos := 7, ntAcc := 77 }] } }) := by decide +kernel

theorem witness_EnginesTakeDescriptors_9 : (fun (e : EngineId) (s : State) => (s.hand e.val = none ∨ s.running = false)) (3) (sOp) := by decide +kernel

theorem witness_EnginesTakeDescriptors_10 : (fun (r : RingId) (s : State) => (s.ctx r).st ≠ RingSt.disabled ∧ (s.ctx r).st ≠ RingSt.halted) (5) (sEng 3 (cmd5 []) sOp) := by decide +kernel

theorem witness_EnginesTakeDescriptors_11 : (fun (r : RingId) (s : State) => ((s.ctx r).st = RingSt.disabled ∨ (s.ctx r).st = RingSt.halted)) (6) (sOp) := by decide +kernel

theorem witness_EnginesTakeDescriptors_13 : (fun (s : State) => s.operate = true) (sOp) := by decide +kernel

theorem witness_EnginesTakeDescriptors_14 : (fun (s : State) => s.operate = false ∧ inDram s.dbBase 0x40000 = true ∧ s.reg (Reg.RING_CTX_D 2) &&& 1 = 1) (((withFlds [(F.RING_CTX_SEL_RING, 5), (F.RING_DB_BASE_BASE, 0x10001)] sSetup).setReg (Reg.RING_CTX_D 2) 0x00000319).setReg (Reg.RING_CTX_D 0) 0x21000010) := by decide +kernel

theorem witness_EnginesTakeDescriptors_15 : (fun (s : State) => s.operate = false ∧ s.reg (Reg.RING_CTX_D 2) &&& 1 = 0) (((withFlds [(F.RING_CTX_SEL_RING, 5), (F.RING_DB_BASE_BASE, 0x10001)] sSetup).setReg (Reg.RING_CTX_D 2) 0x00000318).setReg (Reg.RING_CTX_D 0) 0x21000010) := by decide +kernel

theorem witness_EventsAndLocks_1 : (fun (x : Raise) (l : List Raise) (s : State) => s.fabricOn = true ∧ s.evt.queue = x :: l ∧ s.evtTarget x = none ∧ s.rd (F.EVT_ROUTE_PLIC_EN x.src) = 0) (⟨7, [1], 5, none⟩) ([]) ({ sOp with evt := { sOp.evt with queue := [⟨7, [1], 5, none⟩] } }) := by decide +kernel

theorem witness_EventsAndLocks_2 : (fun (x : Raise) (l : List Raise) (q : RingId) (s : State) => s.fabricOn = true ∧ s.evt.queue = x :: l ∧ s.evtTarget x = some q ∧ s.rd (F.EVT_ROUTE_PLIC_EN x.src) = 0 ∧ ((s.ctx q).cqTail - (s.ctx q).cqHead).toNat < (s.ctx q).cqEntries ∧ s.ecc = [] ∧ s.pairOn = false ∧ (s.ctx q).mp = false ∧ x.src < 512) (⟨7, [1], 0x500000009, none⟩) ([]) (5) (withFlds [(F.EVT_ROUTE_RING_EN 7, 1), (F.EVT_ROUTE_PART 7, 3), (F.PE_EVQ01_EVQ0_EN 3, 1), (F.PE_EVQ01_EVQ0 3, 5)] { sOp with rings := { sOp.rings with ctx := [(5, { ctx5 31 with event := true })] }, evt := { sOp.evt with queue := [⟨7, [1], 0x500000009, none⟩], lost := [(5, true)], eseq := [(5, 6)] } }) := by decide +kernel

theorem witness_EventsAndLocks_3 : (fun (x : Raise) (l : List Raise) (q : RingId) (s : State) => s.fabricOn = true ∧ s.evt.queue = x :: l ∧ s.evtTarget x = some q ∧ x.src ≠ 84 ∧ s.rd (F.EVT_ROUTE_PLIC_EN x.src) = 0 ∧ ((s.ctx q).cqTail - (s.ctx q).cqHead).toNat = (s.ctx q).cqEntries) (⟨7, [1], 0x500000009, none⟩) ([]) (5) (withFlds [(F.EVT_ROUTE_RING_EN 7, 1), (F.EVT_ROUTE_PART 7, 3), (F.PE_EVQ01_EVQ0_EN 3, 1), (F.PE_EVQ01_EVQ0 3, 5)] { sOp with rings := { sOp.rings with ctx := [(5, { ctx5 31 with event := true, cqTail := 16 })] }, evt := { sOp.evt with queue := [⟨7, [1], 0x500000009, none⟩], lost := [], eseq := [(5, 6)] } }) := by decide +kernel

theorem witness_EventsAndLocks_4 : (fun (x : Raise) (l : List Raise) (s : State) => s.phase = Phase.setup ∧ s.pwr.state = PowerState.run ∧ s.evt.queue = x :: l ∧ s.evtTarget x = none ∧ x.src < 512 ∧ s.rd (F.EVT_ROUTE_PLIC_EN x.src) = 1 ∧ s.lanes.on = true ∧ s.lanes.resuming = false ∧ s.cord.heldSrc = [] ∧ s.rd F.CORD_STAT_ROLLING = 0 ∧ s.rd F.CORD_STAT_REPLAY = 0) (⟨7, [1], 5, none⟩) ([]) (withFlds [(F.EVT_ROUTE_PLIC_EN 7, 1)] { sSetupOn with evt := { sOp.evt with queue := [⟨7, [1], 5, none⟩] } }) := by decide +kernel

theorem witness_EventsAndLocks_5 : (fun (who : Requester) (n : Fin 1024) (s : State) => s.lockAllowed who n.val = true ∧ s.lock n.val = LockSt.free) (.mp) (1023) (sOp) := by decide +kernel

theorem witness_EventsAndLocks_6 : (fun (who : Requester) (n : Fin 1024) (s : State) => s.lockAllowed who n.val = true ∧ s.lock n.val = LockSt.abandoned) (.mp) (1023) ({ sOp with parts := { sOp.parts with locks := [(1023, .abandoned)] } }) := by decide +kernel

theorem witness_EventsAndLocks_7 : (fun (who : Requester) (n : Fin 1024) (p : PartId) (a : Agent) (h : HartId) (s : State) => s.lockAllowed who n.val = true ∧ s.lock n.val = LockSt.held p a h) (.mp) (1023) (9) (.lane) (1) ({ sOp with parts := { sOp.parts with locks := [(1023, .held 9 .lane 1)] } }) := by decide +kernel

theorem witness_EventsAndLocks_8 : (fun (h : HartId) (p : PartId) (n : Fin 1024) (s : State) => s.lockAllowed (.lane h p) n.val = false ∧ s.phase ≠ Phase.reset ∧ s.rd F.PART_LOCKERR_VALID = 0) (1) (9) (77) (sOp) := by decide +kernel

theorem witness_EventsAndLocks_9 : (fun (who : Requester) (n : Fin 1024) (w : Word) (h : HartId) (s : State) => s.mustWait = false ∧ w.getLsbD 31 = true ∧ s.lock n.val = LockSt.held (lockOwner who).1 (lockOwner who).2.1 h) (.lane 2 9) (77) (0x80000000) (1) ({ sOp with parts := { sOp.parts with locks := [(77, .held 9 .lane 1)] } }) := by decide +kernel

theorem witness_EventsAndLocks_10 : (fun (p : PartId) (q : PartId) (n : Fin 1024) (w : Word) (a : Agent) (k : HartId) (s : State) => s.mustWait = false ∧ w.getLsbD 31 = true ∧ s.phase ≠ Phase.reset ∧ s.lock n.val = LockSt.held q a k ∧ q ≠ p ∧ s.rd F.PART_LOCKERR_VALID = 1) (8) (9) (77) (0x80000000) (.lane) (1) (withFlds [(F.PART_LOCKERR_VALID, 1)] { sOp with parts := { sOp.parts with locks := [(77, .held 9 .lane 1)] } }) := by decide +kernel

theorem witness_EventsAndLocks_11 : (fun (w : Word) (p : PartId) (n : Nat) (s : State) => s.mustWait = false ∧ w.toNat / 65536 = 0x4142 ∧ s.phase ≠ Phase.reset ∧ p = w.setWidth 8 ∧ n = (s.parts.locks.filter (fun x => ownedBy p (w.toNat / 256 % 4) x.2)).length ∧ n ≠ 0) (0x41420009) (9) (2) ({ sOp with parts := { sOp.parts with locks := [(7, .held 9 .lane 1), (77, .held 9 .mp 1), (78, .held 9 .lane 1)] } }) := by decide +kernel

theorem witness_EventsAndLocks_12 : (fun (w : Word) (s : State) => s.mustWait = false ∧ (w.toNat / 65536 ≠ 0x4142 ∨ s.parts.locks.filter (fun x => ownedBy (w.setWidth 8) (w.toNat / 256 % 4) x.2) = [])) (0x41420108) ({ sOp with parts := { sOp.parts with locks := [(7, .held 9 .lane 1)] } }) := by decide +kernel

theorem witness_EventsAndLocks_13 : (fun (w : Word) (s : State) => s.mustWait = false ∧ w.getLsbD 31 = false) (0x7FFFFFFF) ({ sOp with parts := { sOp.parts with locks := [(77, .held 3 .lane 1)] } }) := by decide +kernel

theorem witness_EventsAndLocks_14 : (fun (n : Fin 1024) (w : Word) (s : State) => s.mustWait = false ∧ w.getLsbD 31 = true ∧ s.phase ≠ Phase.reset ∧ (s.lock n.val = LockSt.free ∨ s.lock n.val = LockSt.abandoned) ∧ s.rd F.PART_LOCKERR_VALID = 0) (77) (0x80000000) ({ sOp with parts := { sOp.parts with locks := [(77, .abandoned)] } }) := by decide +kernel

theorem witness_EventsAndLocks_15 : (fun (s : State) => (s.fabricOn = false ∨ s.evt.queue = [])) (sOp) := by decide +kernel

theorem witness_TimeBaseCommands_1 : (fun (who : Requester) (v : Nat) (s : State) => s.phase ≠ Phase.reset ∧ s.mustWait = false ∧ s.tbOwner who = true ∧ s.rd F.TB_STAT_CMD_BUSY = 0 ∧ v = (s.reg Reg.TB_W0).toNat + 2 ^ 32 * (s.reg Reg.TB_W1).toNat ∧ 0x1FF7CED9169 ≤ v ∧ v ≤ 0x20083126E97) (.lane 0 3) (0x20083126E97) ((sSetup.setReg Reg.TB_W0 0x83126E97).setReg Reg.TB_W1 0x200) := by decide +kernel

theorem witness_TimeBaseCommands_2 : (fun (who : Requester) (x : Nat) (s : State) => s.phase ≠ Phase.reset ∧ s.mustWait = false ∧ s.tbOwner who = true ∧ s.rd F.TB_STAT_CMD_BUSY = 0 ∧ (s.reg Reg.TB_W0).toNat < 65536 ∧ x = (s.reg Reg.TB_W0).toNat + 2 ^ 16 * (s.reg Reg.TB_W1).toNat + 2 ^ 48 * (s.reg Reg.TB_W2).toNat ∧ (s.rd F.TB_CFG_BACK_STEP_EN = 1 ∨ (x + 2 ^ 80 - s.nt80) % 2 ^ 80 < 2 ^ 79)) (.lane 0 3) (0xFFFF00000000001234) (withFlds [(F.TB_CFG_BACK_STEP_EN, 1)] ((sSetup.setReg Reg.TB_W0 0x1234).setReg Reg.TB_W2 0xFFFF00)) := by decide +kernel

theorem witness_TimeBaseCommands_3 : (fun (who : Requester) (x : Nat) (s : State) => s.phase ≠ Phase.reset ∧ s.mustWait = false ∧ s.tbOwner who = true ∧ s.rd F.TB_STAT_CMD_BUSY = 0 ∧ (s.reg Reg.TB_W0).toNat < 65536 ∧ x = (s.reg Reg.TB_W0).toNat + 2 ^ 16 * (s.reg Reg.TB_W1).toNat + 2 ^ 48 * (s.reg Reg.TB_W2).toNat ∧ (s.rd F.TB_CFG_BACK_STEP_EN = 1 ∨ x < 2 ^ 79)) (.lane 0 3) (0x7FFFFFFF000000001234) (((sSetup.setReg Reg.TB_W0 0x1234).setReg Reg.TB_W2 0x7FFFFFFF)) := by decide +kernel

theorem witness_TimeBaseCommands_4 : (fun (who : Requester) (v : Nat) (s : State) => s.phase ≠ Phase.reset ∧ s.mustWait = false ∧ s.tbOwner who = true ∧ s.rd F.TB_STAT_CMD_BUSY = 0 ∧ v = (s.reg Reg.TB_W0).toNat + 2 ^ 32 * (s.reg Reg.TB_W1).toNat ∧ (v < 0x1FF7CED9169 ∨ 0x20083126E97 < v)) (.lane 0 3) (0x20083126E98) ((sSetup.setReg Reg.TB_W0 0x83126E98).setReg Reg.TB_W1 0x200) := by decide +kernel

theorem witness_TimeBaseCommands_5 : (fun (who : Requester) (x : Nat) (s : State) => s.phase ≠ Phase.reset ∧ s.mustWait = false ∧ s.tbOwner who = true ∧ s.rd F.TB_STAT_CMD_BUSY = 0 ∧ x = (s.reg Reg.TB_W0).toNat % 65536 + 2 ^ 16 * (s.reg Reg.TB_W1).toNat + 2 ^ 48 * (s.reg Reg.TB_W2).toNat ∧ (65536 ≤ (s.reg Reg.TB_W0).toNat ∨ (s.rd F.TB_CFG_BACK_STEP_EN = 0 ∧ 2 ^ 79 ≤ (x + 2 ^ 80 - s.nt80) % 2 ^ 80))) (.lane 0 3) (0xFFFF0000000000001234) (((sSetup.setReg Reg.TB_W0 0x1234).setReg Reg.TB_W2 0xFFFF0000)) := by decide +kernel

theorem witness_TimeBaseCommands_6 : (fun (who : Requester) (x : Nat) (s : State) => s.phase ≠ Phase.reset ∧ s.mustWait = false ∧ s.tbOwner who = true ∧ s.rd F.TB_STAT_CMD_BUSY = 0 ∧ x = (s.reg Reg.TB_W0).toNat % 65536 + 2 ^ 16 * (s.reg Reg.TB_W1).toNat + 2 ^ 48 * (s.reg Reg.TB_W2).toNat ∧ (65536 ≤ (s.reg Reg.TB_W0).toNat ∨ (s.rd F.TB_CFG_BACK_STEP_EN = 0 ∧ 2 ^ 79 ≤ x))) (.lane 0 3) (0x80000000000000001234) (((sSetup.setReg Reg.TB_W0 0x1234).setReg Reg.TB_W2 0x80000000)) := by decide +kernel

theorem witness_TimeBaseCommands_7 : (fun (who : Requester) (at_ : Bool) (c : Instr) (op : Nat) (s : State) => s.phase ≠ Phase.reset ∧ s.mustWait = false ∧ s.tbOwner who = false ∧ (c, op) ∈ [(Instr.tbCancel who, 0), (Instr.tbSetIncr who at_, 1), (Instr.tbSetNt who at_, 2), (Instr.tbAddOfs who at_, 3)]) (.mp) (true) (Instr.tbCancel .mp) (0) (sSetup) := by decide +kernel

theorem witness_TimeBaseCommands_8 : (fun (who : Requester) (at_ : Bool) (c : Instr) (op : Nat) (s : State) => s.phase ≠ Phase.reset ∧ s.mustWait = false ∧ s.tbOwner who = true ∧ s.rd F.TB_STAT_CMD_BUSY = 1 ∧ (c, op) ∈ [(Instr.tbSetIncr who at_, 1), (Instr.tbSetNt who at_, 2), (Instr.tbAddOfs who at_, 3)]) (.lane 1 3) (true) (Instr.tbAddOfs (.lane 1 3) true) (3) (withFlds [(F.TB_STAT_CMD_BUSY, 1)] sSetup) := by decide +kernel

theorem witness_TimeBaseCommands_9 : (fun (who : Requester) (c : Instr) (op : Nat) (s : State) => s.phase ≠ Phase.reset ∧ s.mustWait = false ∧ s.tbOwner who = true ∧ s.rd F.TB_STAT_CMD_BUSY = 0 ∧ reached s.raw (s.rd64 Reg.TB_AT_LO Reg.TB_AT_HI) = true ∧ (c, op) ∈ [(Instr.tbSetIncr who true, 1), (Instr.tbSetNt who true, 2), (Instr.tbAddOfs who true, 3)]) (.lane 1 3) (Instr.tbSetIncr (.lane 1 3) true) (1) ((sSetup.setReg Reg.TB_W0 0x1234).setReg Reg.TB_AT_LO 100) := by decide +kernel

theorem witness_TimeBaseCommands_10 : (fun (who : Requester) (c : Instr) (op : Nat) (s : State) => s.mustWait = false ∧ s.tbOwner who = true ∧ s.rd F.TB_STAT_CMD_BUSY = 0 ∧ reached s.raw (s.rd64 Reg.TB_AT_LO Reg.TB_AT_HI) = false ∧ (c, op) ∈ [(Instr.tbSetIncr who true, 1), (Instr.tbSetNt who true, 2), (Instr.tbAddOfs who true, 3)]) (.lane 1 3) (Instr.tbAddOfs (.lane 1 3) true) (3) ((sSetup.setReg Reg.TB_W0 0x1234).setReg Reg.TB_AT_LO 100000) := by decide +kernel

theorem witness_TimeBaseCommands_11 : (fun (c : TbCmd) (v : Nat) (w0 : State) (s : State) => s.phase ≠ Phase.reset ∧ s.tb.waiting = some c ∧ reached s.raw c.at_.toNat = true ∧ c.op = 1 ∧ v = c.w0.toNat + 2 ^ 32 * c.w1.toNat ∧ w0 = State.wr { s with tb := { s.tb with waiting := none } } F.TB_STAT_CMD_BUSY 0) (⟨1, 5, 0x200, 7, 900⟩) (0x20000000005) (State.wr { (withFlds [(F.TB_STAT_CMD_BUSY, 1)] { sSetup with tb := { sSetup.tb with waiting := some ⟨1, 5, 0x200, 7, 900⟩ } }) with tb := { sSetup.tb with waiting := none } } F.TB_STAT_CMD_BUSY 0) (withFlds [(F.TB_STAT_CMD_BUSY, 1)] { sSetup with tb := { sSetup.tb with waiting := some ⟨1, 5, 0x200, 7, 900⟩ } }) := by decide +kernel

theorem witness_TimeBaseCommands_12 : (fun (c : TbCmd) (x : Nat) (w0 : State) (s : State) => s.phase ≠ Phase.reset ∧ s.tb.waiting = some c ∧ reached s.raw c.at_.toNat = true ∧ c.op = 2 ∧ x = c.w0.toNat % 65536 + 2 ^ 16 * c.w1.toNat + 2 ^ 48 * c.w2.toNat ∧ w0 = State.wr { s with tb := { s.tb with waiting := none } } F.TB_STAT_CMD_BUSY 0) (⟨2, 5, 6, 7, 900⟩) (5 + 65536 * 6 + 2^48 * 7) (State.wr { (withFlds [(F.TB_STAT_CMD_BUSY, 1)] { sSetup with tb := { sSetup.tb with waiting := some ⟨2, 5, 6, 7, 900⟩ } }) with tb := { sSetup.tb with waiting := none } } F.TB_STAT_CMD_BUSY 0) (withFlds [(F.TB_STAT_CMD_BUSY, 1)] { sSetup with tb := { sSetup.tb with waiting := some ⟨2, 5, 6, 7, 900⟩ } }) := by decide +kernel

theorem witness_TimeBaseCommands_13 : (fun (c : TbCmd) (x : Nat) (w0 : State) (s : State) => s.phase ≠ Phase.reset ∧ s.tb.waiting = some c ∧ reached s.raw c.at_.toNat = true ∧ c.op = 3 ∧ x = c.w0.toNat % 65536 + 2 ^ 16 * c.w1.toNat + 2 ^ 48 * c.w2.toNat ∧ w0 = State.wr { s with tb := { s.tb with waiting := none } } F.TB_STAT_CMD_BUSY 0) (⟨3, 5, 6, 7, 900⟩) (5 + 65536 * 6 + 2^48 * 7) (State.wr { (withFlds [(F.TB_STAT_CMD_BUSY, 1)] { sSetup with tb := { sSetup.tb with waiting := some ⟨3, 5, 6, 7, 900⟩ } }) with tb := { sSetup.tb with waiting := none } } F.TB_STAT_CMD_BUSY 0) (withFlds [(F.TB_STAT_CMD_BUSY, 1)] { sSetup with tb := { sSetup.tb with waiting := some ⟨3, 5, 6, 7, 900⟩ } }) := by decide +kernel

theorem witness_TimeBaseCommands_14 : (fun (s : State) => (s.tb.waiting = none ∨ (∀ c ∈ s.tb.waiting, reached s.raw c.at_.toNat = false))) ({ sSetup with tb := { sSetup.tb with waiting := some ⟨2, 5, 6, 7, 90000⟩ } }) := by decide +kernel

theorem witness_TimeBaseCommands_15 : (fun (who : Requester) (s : State) => s.mustWait = false ∧ s.tbOwner who = true) (.lane 1 3) (withFlds [(F.TB_STAT_CMD_BUSY, 1)] { sSetup with tb := { sSetup.tb with waiting := some ⟨2, 5, 6, 7, 900⟩ } }) := by decide +kernel

theorem witness_TimeBaseCommands_16 : (fun (who : Requester) (n : Nat) => n = (match who with | Requester.lane h p => h.val | _ => 4)) (.lane 2 9) (2) := by decide +kernel

theorem witness_TimeBaseCommands_17 : (fun (s : State) => (s.phase = Phase.setup ∨ s.phase = Phase.locking)) (sSetup) := by decide +kernel

theorem witness_TimeBaseCommands_18 : (fun (s : State) => s.operate = true ∧ s.rd F.LANE_STAT_SAFE = 0) (sOp) := by decide +kernel

theorem witness_TimeBaseCommands_19 : (fun (s : State) => s.operate = true ∧ s.rd F.LANE_STAT_SAFE = 1) (withFlds [(F.LANE_STAT_SAFE, 1)] sOp) := by decide +kernel

theorem witness_TimeBaseCommands_20 : (fun (s : State) => s.operate = false ∧ s.setupPhase = false) (State.reset) := by decide +kernel

theorem witness_PulsesAndEdges_1 : (fun (n : Fin 16) (s : State) => s.phase = Phase.setup ∧ s.cbOn = false ∧ s.wakeOn wkPto 15 = false ∧ s.pwr.state = PowerState.run ∧ s.rd (F.PTO_STAT_ARMED n.val) = 1 ∧ reached (s.ptoNow n.val) (s.ptoTarget n.val) = true ∧ (s.gen n.val).mode = PtoMode.oneShot ∧ s.rd (F.PTO_CTL_EVT_EN n.val) = 1) (15) (withFlds [(F.PTO_STAT_ARMED 15, 1), (F.PTO_NEXT_LO_NEXT 15, 990), (F.PTO_CTL_EVT_EN 15, 1), (F.PTO_PER_HI_WIDTH 15, 70)] { sSetup with tb := { sSetup.tb with gens := [(15, ⟨.oneShot, 0, 0⟩)] } }) := by decide +kernel

theorem witness_PulsesAndEdges_2 : (fun (n : Fin 16) (late : Nat) (s : State) => s.phase = Phase.setup ∧ s.cbOn = false ∧ s.wakeOn wkPto 15 = false ∧ s.pwr.state = PowerState.run ∧ s.rd (F.PTO_STAT_ARMED n.val) = 1 ∧ (s.gen n.val).mode = PtoMode.periodic ∧ 0 < (s.gen n.val).per ∧ s.ptoNow n.val = s.ptoTarget n.val + late ∧ s.ptoNow n.val < 2 ^ 63 ∧ s.rd (F.PTO_CTL_EVT_EN n.val) = 0 ∧ s.ptoTarget n.val + (late / (s.gen n.val).per + 1) * (s.gen n.val).per < 2 ^ 64) (0) (10) (withFlds [(F.PTO_STAT_ARMED 0, 1), (F.PTO_NEXT_LO_NEXT 0, 990)] { sSetup with tb := { sSetup.tb with gens := [(0, ⟨.periodic, 4, 0⟩)] } }) := by decide +kernel

theorem witness_PulsesAndEdges_3 : (fun (n : Fin 16) (late : Nat) (missed : Nat) (s : State) => s.ptoDue n.val = true ∧ late = (s.ptoNow n.val + 2 ^ 64 - s.ptoTarget n.val) % 2 ^ 64 ∧ missed = (if (s.gen n.val).mode = PtoMode.periodic ∧ (s.gen n.val).per ≠ 0 then late / (s.gen n.val).per else 0)) (0) (10) (2) (withFlds [(F.PTO_STAT_ARMED 0, 1), (F.PTO_NEXT_LO_NEXT 0, 990)] { sSetup with tb := { sSetup.tb with gens := [(0, ⟨.periodic, 4, 0⟩)] } }) := by decide +kernel

theorem witness_PulsesAndEdges_4 : (fun (n : Fin 16) (s : State) => s.ptoDue n.val = false) (15) (sOp) := by decide +kernel

theorem witness_PulsesAndEdges_5 : (fun (n : Fin 16) (s : State) => (s.rd (F.PTO_STAT_OUT n.val) = 0 ∨ reached s.raw (s.gen n.val).outEnd = false)) (15) (sOp) := by decide +kernel

theorem witness_PulsesAndEdges_6 : (fun (n : Fin 16) (s : State) => s.rd (F.PTO_STAT_OUT n.val) = 1 ∧ reached s.raw (s.gen n.val).outEnd = true) (3) (withFlds [(F.PTO_STAT_OUT 3, 1)] sOp) := by decide +kernel

theorem witness_PulsesAndEdges_7 : (fun (s : State) => s.operate = true) (sOp) := by decide +kernel

theorem witness_PulsesAndEdges_8 : (fun (n : Fin 16) (m : Nat) (s : State) => s.operate = false ∧ m = s.rd (F.PTO_CTL_MODE n.val)) (15) (2) (withFlds [(F.PTO_CTL_MODE 15, 2), (F.PTO_PER_LO_PER_LO 15, 700), (F.PTO_TGT_HI_TGT 15, 1)] sSetup) := by decide +kernel

theorem witness_PulsesAndEdges_9 : (fun (c : Cmd) (n : Nat) (m : Nat) (tgt : Nat) (per : Nat) (bad : Bool) (s : State) => inHand 0x16 0x11 c s ∧ n = c.word 8 % 16 ∧ m = c.word 8 / 16 % 4 ∧ tgt = c.word 0x10 + 2 ^ 32 * c.word 0x14 ∧ per = c.word 0x18 + 2 ^ 32 * (c.word 0x1C % 16) ∧ (bad = decide (c.headerOk = false ∨ 64 ≤ c.word 8 ∨ c.word 0xC ≠ 0 ∨ 16 ≤ c.word 0x1C ∨ c.zeroFrom 0x20 = false ∨ m = 3 ∨ (m = 2 ∧ (per < (if s.rd (F.PTO_CTL_BASE n) = 1 then 1000 else 500) ∨ per ≤ s.rd (F.PTO_PER_HI_WIDTH n)))))) (cmd5 [(0, 0x11), (8, 0x1F), (0x10, 5000)]) (15) (1) (5000) (0) (false) (withFlds [(F.PTO_CTL_ARM_EN 15, 1), (F.PTO_CTL_OWNER 15, 3)] (sEng 0x16 (cmd5 [(0, 0x11), (8, 0x1F), (0x10, 5000)]) sOp)) := by decide +kernel

theorem witness_PulsesAndEdges_10 : (fun (s : State) => s.phase ≠ Phase.reset ∧ s.pwr.state = PowerState.run ∧ s.rd F.TB_SYNC_IN_EN = 1 ∧ s.tb.syncLast = none ∧ s.aligns = false ∧ s.wakeOn wkSync 0 = false ∧ ((∀ n ∈ List.range 16, (s.gen n).mode ≠ PtoMode.syncArmed))) (withFlds [(F.TB_SYNC_IN_EN, 1)] sSetup) := by decide +kernel

theorem witness_PulsesAndEdges_11 : (fun (s : State) => s.phase ≠ Phase.reset ∧ s.pwr.state ≠ PowerState.e3 ∧ s.syncAccepts = true) (withFlds [(F.TB_SYNC_IN_EN, 1)] sSetup) := by decide +kernel

theorem witness_PulsesAndEdges_12 : (fun (s : State) => (s.phase = Phase.reset ∨ s.pwr.state = PowerState.e3 ∨ s.rd F.TB_SYNC_IN_EN = 0)) (sOp) := by decide +kernel

theorem witness_PulsesAndEdges_13 : (fun (r : Nat) (s : State) => s.phase ≠ Phase.reset ∧ s.pwr.state ≠ PowerState.e3 ∧ s.rd F.TB_SYNC_IN_EN = 1 ∧ s.tb.syncLast = some r ∧ reached s.edgeRaw (r + s.rd F.TB_SYNC_IN_HOLDOFF * 500) = false) (990) (withFlds [(F.TB_SYNC_IN_EN, 1), (F.TB_SYNC_IN_HOLDOFF, 5)] { sOp with tb := { sOp.tb with syncLast := some 990 } }) := by decide +kernel

theorem witness_PulsesAndEdges_14 : (fun (c : Cmd) (p : Nat) (m : Nat) (a : Nat) (bad : Bool) (s : State) => inHand 0x16 0x10 c s ∧ p = c.word 8 % 32 ∧ m = c.word 8 / 256 % 256 ∧ a = c.word 0x10 + 2 ^ 32 * (c.word 0x14 % 256) ∧ (bad = decide (c.headerOk = false ∨ 0x20000 ≤ c.word 8 ∨ c.word 8 / 32 % 8 ≠ 0 ∨ 17 < p ∨ m = 0 ∨ 32 < m ∨ c.word 0xC ≠ 0 ∨ c.word 0x14 / 256 ≠ 0 ∨ c.zeroFrom 0x18 = false ∨ a % 16 ≠ 0 ∨ s.engineMayWrite a (16 * m) = false)) ∧ (bad = true ∨ ((s.ctx c.ring).mp = false ∧ (s.rd (F.TB_TSQ_CFG_EN p) = 0 ∨ s.rd (F.TB_TSQ_CFG_PART p) ≠ (s.cmdPart c).toNat)))) (cmd5 [(0, 0x10), (8, 0x111), (0x10, 0x50), (0x14, 0x10)]) (17) (1) (0x1000000050) (false) (withFlds [(F.TB_TSQ_CFG_EN 17, 1), (F.TB_TSQ_CFG_PART 17, 4), (F.RAT_BASE_BASE 2, 0x1000000), (F.RAT_LIMIT_LIMIT 2, 0x1000000), (F.RAT_CTL_EN 2, 1), (F.RAT_CTL_TYPE 2, 1)] (sEng 0x16 (cmd5 [(0, 0x10), (8, 0x111), (0x10, 0x50), (0x14, 0x10)]) { sOp with tb := { sOp.tb with tsq := [(17, [(7, 0x123456789), (8, 9)])] } })) := by decide +kernel

theorem witness_PulsesAndEdges_15 : (fun (c : Cmd) (p : Nat) (m : Nat) (a : Nat) (s : State) => inHand 0x16 0x10 c s ∧ p = c.word 8 % 32 ∧ m = c.word 8 / 256 % 256 ∧ c.headerOk = true ∧ c.word 8 < 0x20000 ∧ c.word 8 / 32 % 8 = 0 ∧ p < 18 ∧ 0 < m ∧ m ≤ 32 ∧ c.word 0xC = 0 ∧ c.word 0x14 / 256 = 0 ∧ c.zeroFrom 0x18 = true ∧ a = c.word 0x10 + 2 ^ 32 * (c.word 0x14 % 256) ∧ a % 16 = 0 ∧ s.engineMayWrite a (16 * m) = true ∧ s.ecc = [] ∧ s.pairOn = false ∧ ((s.ctx c.ring).mp = true ∨ (s.rd (F.TB_TSQ_CFG_EN p) = 1 ∧ s.rd (F.TB_TSQ_CFG_PART p) = (s.cmdPart c).toNat))) (cmd5 [(0, 0x10), (8, 0x111), (0x10, 0x50), (0x14, 0x10)]) (17) (1) (0x1000000050) (withFlds [(F.TB_TSQ_CFG_EN 17, 1), (F.TB_TSQ_CFG_PART 17, 3), (F.RAT_BASE_BASE 2, 0x1000000), (F.RAT_LIMIT_LIMIT 2, 0x1000000), (F.RAT_CTL_EN 2, 1), (F.RAT_CTL_TYPE 2, 1)] (sEng 0x16 (cmd5 [(0, 0x10), (8, 0x111), (0x10, 0x50), (0x14, 0x10)]) { sOp with tb := { sOp.tb with tsq := [(17, [(7, 0x123456789), (8, 9)])] } })) := by decide +kernel

theorem witness_CarRingCopies_1 : (fun (n : Fin 3) (ch : Fin 2) (f : List Byte) (s : State) => s.running = true ∧ s.acts = true ∧ s.rd (F.CR_STATE_STATE n.val) = 2 ∧ s.rd (F.CR_CFG_ROLE n.val) = 2 ∧ s.crMatch n.val ch.val f = true ∧ copyCycle f = s.rd (F.CR_CYCLE_CYCLE n.val) ∧ (s.node n.val).refs ≠ 0 ∧ s.raw - (s.node n.val).ref ≤ s.rd (F.CR_MASTER_RET_TMO n.val) * 500 ∧ (s.node n.val).closed = false ∧ s.slices n.val 0 = [] ∧ s.rd (okFld n.val ch.val) = 1 ∧ s.rd F.REC_CFG_EN = 0 ∧ noStations s) (1) (1) (sCopy 1 70) (sCarNode 2 { carZero with ref := 900, refs := 4, closed := false, lostRun := 1 }) := by decide +kernel

theorem witness_CarRingCopies_2 : (fun (n : Fin 3) (ch : Fin 2) (f : List Byte) (e : Nat) (w0 : State) (s : State) => s.running = true ∧ s.acts = true ∧ s.rd (F.CR_STATE_STATE n.val) ≠ 0 ∧ s.rd (F.CR_CFG_ROLE n.val) = 2 ∧ s.crMatch n.val ch.val f = true ∧ copyCycle f = s.rd (F.CR_CYCLE_CYCLE n.val) ∧ (s.node n.val).refs ≠ 0 ∧ s.raw - (s.node n.val).ref ≤ s.rd (F.CR_MASTER_RET_TMO n.val) * 500 ∧ (s.node n.val).closed = false ∧ s.slices n.val 0 = [e] ∧ s.rd F.REC_CFG_EN = 0 ∧ noStations s ∧ s.pairOn = false ∧ w0 = (if presence f (s.rd (F.CR_SLC_POS n.val e)) = true then s.publish (2 + 4 * n.val + 2 * ch.val) (s.rd (F.CR_SLD_DSET n.val e)) ((f.drop (0x28 + s.rd (F.CR_SLC_OFFSET n.val e))).take (s.rd (F.CR_SLC_LEN n.val e))) else s)) (1) (1) (sCopy 1 70) (7) ((withFlds [(F.CR_SLC_EN 1 7, 1), (F.CR_SLC_POS 1 7, 3), (F.CR_SLC_OFFSET 1 7, 0), (F.CR_SLC_LEN 1 7, 4), (F.CR_STATE_STATE 1, 3)] (sCarNode 2 { carZero with ref := 900, refs := 4, closed := false, lostRun := 1 }))) ((withFlds [(F.CR_SLC_EN 1 7, 1), (F.CR_SLC_POS 1 7, 3), (F.CR_SLC_OFFSET 1 7, 0), (F.CR_SLC_LEN 1 7, 4), (F.CR_STATE_STATE 1, 3)] (sCarNode 2 { carZero with ref := 900, refs := 4, closed := false, lostRun := 1 }))) := by decide +kernel

theorem witness_CarRingCopies_3 : (fun (n : Fin 3) (ch : Fin 2) (f : List Byte) (s : State) => s.running = true ∧ s.acts = true ∧ s.rd (F.CR_STATE_STATE n.val) ≠ 0 ∧ s.rd (F.CR_CFG_ROLE n.val) = 2 ∧ s.crSum n.val f = true ∧ noStations s ∧ (s.crMatch n.val ch.val f = false ∨ copyCycle f ≠ s.rd (F.CR_CYCLE_CYCLE n.val) ∨ (s.node n.val).refs = 0 ∨ s.rd (F.CR_MASTER_RET_TMO n.val) * 500 < s.raw - (s.node n.val).ref)) (1) (0) (sCopy 0 69) (sCarNode 2 { carZero with ref := 900, refs := 4, closed := true }) := by decide +kernel

theorem witness_CarRingCopies_4 : (fun (n : Fin 3) (f : List Byte) (s : State) => noStations s ∧ (s.running = false ∨ s.rd (F.CR_STATE_STATE n.val) = 0 ∨ s.crSum n.val f = false)) (0) (sCopy 0 70) (sCar 2) := by decide +kernel

theorem witness_CarRingCopies_5 : (fun (n : Fin 3) (s : State) => noStations s ∧ (s.acts = false ∨ s.rd (F.CR_CFG_ROLE n.val) ≠ 2)) (1) (sCar 1) := by decide +kernel

theorem witness_CarRingCopies_6 : (fun (n : Fin 3) (ch : Fin 2) (s : State) => noStations s ∧ (s.crChan n.val ch.val = false ∨ s.rd (F.CR_CFG_ROLE n.val) ≠ 1)) (1) (0) (sCar 2) := by decide +kernel

theorem witness_CarRingCopies_7 : (fun (n : Fin 3) (ch : Fin 2) (f : List Byte) (s : State) => s.running = true ∧ s.acts = true ∧ s.rd (F.CR_STATE_STATE n.val) ≠ 0 ∧ s.rd (F.CR_CFG_ROLE n.val) = 2 ∧ s.crMatch n.val ch.val f = true ∧ copyCycle f = s.rd (F.CR_CYCLE_CYCLE n.val) ∧ (s.node n.val).refs ≠ 0 ∧ s.raw - (s.node n.val).ref ≤ s.rd (F.CR_MASTER_RET_TMO n.val) * 500 ∧ (s.node n.val).closed = true ∧ s.rd (okFld n.val ch.val) = 1 ∧ noStations s) (1) (0) (sCopy 0 70) (sCarNode 2 { carZero with ref := 900, refs := 4, closed := true }) := by decide +kernel

theorem witness_CarRingCopies_8 : (fun (n : Fin 3) (f : List Byte) (s : State) => s.running = true ∧ s.acts = true ∧ s.rd (F.CR_STATE_STATE n.val) ≠ 0 ∧ s.rd (F.CR_CFG_ROLE n.val) = 2 ∧ s.crSum n.val f = true ∧ noStations s) (1) (sCopy 0 70) (sCar 2) := by decide +kernel

theorem witness_CarRingCopies_9 : (fun (n : Fin 3) (ch : Fin 2) (f : List Byte) (s : State) => s.running = true ∧ s.pairOn = false ∧ s.rd (F.CR_STATE_STATE n.val) = 2 ∧ s.rd (F.CR_CFG_ROLE n.val) = 1 ∧ s.crChan n.val ch.val = true ∧ s.crMatch n.val ch.val f = true ∧ s.crLink n.val (2 * ch.val) = true ∧ s.portNow (4 * n.val + 2 * ch.val) = none ∧ (s.node n.val).refs = 0 ∧ (s.node n.val).lastHeld = false ∧ (s.node n.val).image = none ∧ (s.node n.val).opened = false ∧ s.slices n.val 0 = [] ∧ s.slices n.val 1 = [] ∧ s.rd (okFld n.val ch.val) = 1 ∧ noStations s) (1) (1) (sCopy 1 75) (sCar 1) := by decide +kernel

theorem witness_CarRingCopies_10 : (fun (n : Fin 3) (ch : Fin 2) (f : List Byte) (e : Nat) (s : State) => s.running = true ∧ s.pairOn = false ∧ s.rd (F.CR_STATE_STATE n.val) = 2 ∧ s.rd (F.CR_CFG_ROLE n.val) = 1 ∧ s.crChan n.val ch.val = true ∧ s.crMatch n.val ch.val f = true ∧ s.crLink n.val (2 * ch.val) = true ∧ s.slices n.val 1 = [e] ∧ (s.node n.val).image = none) (1) (1) (sCopy 1 75) (9) (withFlds [(F.CR_SLC_EN 1 9, 1), (F.CR_SLC_DIR 1 9, 1), (F.CR_SLC_OFFSET 1 9, 2), (F.CR_SLC_LEN 1 9, 4)] (sCar 1)) := by decide +kernel

theorem witness_CarRingCopies_11 : (fun (n : Fin 3) (ch : Fin 2) (f : List Byte) (im : CarImage) (s : State) => s.running = true ∧ s.pairOn = false ∧ s.rd (F.CR_STATE_STATE n.val) ≠ 0 ∧ s.rd (F.CR_CFG_ROLE n.val) = 1 ∧ s.crChan n.val ch.val = true ∧ s.crMatch n.val ch.val f = true ∧ s.crLink n.val (2 * ch.val) = true ∧ (s.node n.val).image = some im ∧ im.cyc = copyCycle f ∧ reached s.raw (im.at_ + s.rd (F.CR_PERIOD_PERIOD n.val) * 500 / 2) = false) (1) (1) (sCopy 1 75) (⟨75, 990, true, [(3, [7, 8])]⟩) (withFlds [(F.CR_PERIOD_PERIOD 1, 250)] (sCarNode 1 { carZero with image := some ⟨75, 990, true, [(3, [7, 8])]⟩ })) := by decide +kernel

theorem witness_CarRingCopies_12 : (fun (n : Fin 3) (ch : Fin 2) (f : List Byte) (s : State) => s.running = true ∧ s.pairOn = false ∧ s.rd (F.CR_STATE_STATE n.val) ≠ 0 ∧ s.rd (F.CR_CFG_ROLE n.val) = 1 ∧ s.crChan n.val ch.val = true ∧ s.crSum n.val f = true ∧ s.crMatch n.val ch.val f = false ∧ s.crLink n.val (2 * ch.val) = true ∧ s.portNow (4 * n.val + 2 * ch.val) = none ∧ noStations s) (1) (1) (sCopy 0 75) (sCar 1) := by decide +kernel

theorem witness_CarRingCopies_13 : (fun (n : Fin 3) (ch : Fin 2) (f : List Byte) (x : TxNow) (s : State) => s.running = true ∧ s.pairOn = false ∧ s.rd (F.CR_STATE_STATE n.val) ≠ 0 ∧ s.rd (F.CR_CFG_ROLE n.val) = 1 ∧ s.crChan n.val ch.val = true ∧ s.crSum n.val f = true ∧ s.portNow (4 * n.val + 2 * ch.val) = some x) (1) (1) (sCopy 1 75) (TxNow.own 5 0 300 (zeros 64)) ((sCar 1).setPortNow 6 (some (TxNow.own 5 0 300 (zeros 64)))) := by decide +kernel

theorem witness_CarRingCopies_14 : (fun (n : Fin 3) (ch : Fin 2) (f : List Byte) (s : State) => s.running = true ∧ s.pairOn = false ∧ s.rd (F.CR_STATE_STATE n.val) ≠ 0 ∧ s.rd (F.CR_CFG_ROLE n.val) = 1 ∧ s.crChan n.val ch.val = true ∧ s.crMatch n.val ch.val f = true ∧ (s.node n.val).lastHeld = true ∧ copyCycle f = s.rd (F.CR_CYCLE_CYCLE n.val) ∧ s.rd (okFld n.val ch.val) = 1 ∧ s.portNow (4 * n.val + 2 * ch.val) = none ∧ noStations s) (1) (1) (sCopy 1 70) (withFlds [(F.CR_STATE_LINK 1, 0)] (sCarNode 1 { carZero with lastHeld := true })) := by decide +kernel

theorem witness_CarRingCopies_15 : (fun (n : Fin 3) (ch : Fin 2) (f : List Byte) (s : State) => s.running = true ∧ s.pairOn = false ∧ s.rd (F.CR_STATE_STATE n.val) ≠ 0 ∧ s.rd (F.CR_CFG_ROLE n.val) = 1 ∧ s.crChan n.val ch.val = true ∧ s.crMatch n.val ch.val f = true ∧ s.crLink n.val (2 * ch.val) = true ∧ s.portNow (4 * n.val + 2 * ch.val) = none ∧ noStations s) (1) (1) (sCopy 1 75) (sCar 1) := by decide +kernel

theorem witness_CarRingCopies_16 : (fun (n : Fin 3) (ch : Fin 2) (f : List Byte) (s : State) => s.running = true ∧ s.pairOn = false ∧ s.rd (F.CR_STATE_STATE n.val) ≠ 0 ∧ s.rd (F.CR_CFG_ROLE n.val) = 1 ∧ s.crChan n.val ch.val = true ∧ s.crMatch n.val ch.val f = true ∧ s.crLink n.val (2 * ch.val) = false ∧ s.portNow (4 * n.val + 2 * ch.val) = none ∧ (s.node n.val).lastHeld = true ∧ 2 ^ 31 ≤ (copyCycle f + 2 ^ 32 - s.rd (F.CR_CYCLE_CYCLE n.val)) % 2 ^ 32 ∧ noStations s) (1) (1) (sCopy 1 69) (withFlds [(F.CR_STATE_LINK 1, 0)] (sCarNode 1 { carZero with lastHeld := true })) := by decide +kernel

theorem witness_CarRingCopies_17 : (fun (n : Fin 3) (s : State) => s.running = true ∧ s.acts = true ∧ s.rd (F.CR_CFG_ROLE n.val) = 2 ∧ s.rd (F.CR_STATE_STATE n.val) = 2 ∧ (s.node n.val).closed = false ∧ reached s.raw ((s.node n.val).ref + s.rd (F.CR_MASTER_RET_TMO n.val) * 500) = true ∧ s.slices n.val 0 = [] ∧ s.lossN n.val ≤ (s.node n.val).lostRun + 1 ∧ noStations s) (1) (withFlds [(F.CR_CFG_LOSS_N 1, 1), (F.CR_MASTER_RET_TMO 1, 0)] (sCarNode 2 { carZero with ref := 900, closed := false })) := by decide +kernel

theorem witness_CarRingCopies_18 : (fun (n : Fin 3) (s : State) => s.running = true ∧ s.acts = true ∧ s.rd (F.CR_CFG_ROLE n.val) = 2 ∧ s.rd (F.CR_STATE_STATE n.val) ≠ 0 ∧ (s.node n.val).closed = false ∧ reached s.raw ((s.node n.val).ref + s.rd (F.CR_MASTER_RET_TMO n.val) * 500) = true ∧ (s.rd (F.CR_STATE_STATE n.val) ≠ 2 ∨ (s.node n.val).lostRun + 1 < s.lossN n.val) ∧ noStations s) (1) (withFlds [(F.CR_CFG_LOSS_N 1, 3), (F.CR_MASTER_RET_TMO 1, 0)] (sCarNode 2 { carZero with ref := 900, closed := false })) := by decide +kernel

theorem witness_CarRingCopies_19 : (fun (n : Fin 3) (s : State) => noStations s ∧ (s.running = false ∨ s.acts = false ∨ s.rd (F.CR_CFG_ROLE n.val) ≠ 2 ∨ s.rd (F.CR_STATE_STATE n.val) = 0 ∨ (s.node n.val).closed = true ∨ reached s.raw ((s.node n.val).ref + s.rd (F.CR_MASTER_RET_TMO n.val) * 500) = false)) (1) (sCar 2) := by decide +kernel

theorem witness_CarRingCopies_20 : (fun (n : Fin 3) (s : State) => noStations s ∧ (s.running = false ∨ s.rd (F.CR_CFG_ROLE n.val) ≠ 1 ∨ s.rd (F.CR_STATE_STATE n.val) = 0 ∨ reached s.raw ((s.node n.val).lossFrom + s.rd (F.CR_PERIOD_PERIOD n.val) * 500 * 9 / 8) = false)) (1) (sCar 2) := by decide +kernel

theorem witness_CarRingCopies_21 : (fun (n : Fin 3) (s : State) => s.running = true ∧ s.rd (F.CR_CFG_ROLE n.val) = 1 ∧ s.rd (F.CR_STATE_STATE n.val) = 2 ∧ reached s.raw ((s.node n.val).lossFrom + s.rd (F.CR_PERIOD_PERIOD n.val) * 500 * 9 / 8) = true ∧ s.lossN n.val ≤ (s.node n.val).lostRun + 1 ∧ noStations s) (1) (withFlds [(F.CR_CFG_LOSS_N 1, 1), (F.CR_PERIOD_PERIOD 1, 0), (F.CR_CFG_A_EN 1, 0), (F.CR_CFG_B_EN 1, 0)] (sCar 1)) := by decide +kernel

theorem witness_CarRingCopies_22 : (fun (n : Fin 3) (s : State) => s.running = true ∧ s.rd (F.CR_CFG_ROLE n.val) = 1 ∧ s.rd (F.CR_STATE_STATE n.val) = 2 ∧ reached s.raw ((s.node n.val).lossFrom + s.rd (F.CR_PERIOD_PERIOD n.val) * 500 * 9 / 8) = true ∧ s.slices n.val 0 = [] ∧ (s.node n.val).lostRun + 1 < s.lossN n.val ∧ s.rd (F.CR_CFG_A_EN n.val) = 0 ∧ s.rd (F.CR_CFG_B_EN n.val) = 0 ∧ noStations s) (1) (withFlds [(F.CR_PERIOD_PERIOD 1, 0), (F.CR_CFG_A_EN 1, 0), (F.CR_CFG_B_EN 1, 0)] (sCar 1)) := by decide +kernel

theorem witness_CarRingAcyclicFrames_1 : (fun (n : Fin 3) (ch : Fin 2) (f : List Byte) (c : Cmd) (a : Nat) (size : Nat) (sfd : Nat) (stamp : Nat) (s : State) => s.running = true ∧ s.acts = true ∧ s.rd (F.CR_STATE_STATE n.val) ≠ 0 ∧ s.crChan n.val ch.val = true ∧ s.crSum n.val f = false ∧ frameDa f = s.crMac n.val ∧ frameSa f ≠ s.crMac n.val ∧ a = c.addr 0x10 ∧ s.findOut (4 * n.val + 2 * ch.val + 2) 0x11 (fun _ => true) = some c ∧ size = c.fld 8 0 11 ∧ f.length < 2048 ∧ s.ecc = [] ∧ s.pairOn = false ∧ ptpEvent f = true ∧ sfd = s.sfdRaw f.length 40 ∧ stamp = s.ntCaptured sfd (sfd + 118)) (1) (0) (zeros 6 ++ [1] ++ zeros 5 ++ [0x88, 0xF7, 0x03, 0x12] ++ zeros 60) (cmd5 [(0, 0x11), (8, 100), (0x10, 0x40), (0x14, 0x10)]) (0x1000000040) (100) ((sCar 1).sfdRaw 76 40) ((sCar 1).ntCaptured ((sCar 1).sfdRaw 76 40) ((sCar 1).sfdRaw 76 40 + 118)) ((withFlds [(F.CR_MAC_HI_MAC_HI 1, 0)] (sOut 6 (cmd5 [(0, 0x11), (8, 100), (0x10, 0x40), (0x14, 0x10)]) (sCar 1)))) := by decide +kernel

theorem witness_CarRingAcyclicFrames_2 : (fun (n : Fin 3) (ch : Fin 2) (f : List Byte) (c : Cmd) (a : Nat) (size : Nat) (s : State) => s.running = true ∧ s.acts = true ∧ s.rd (F.CR_STATE_STATE n.val) ≠ 0 ∧ s.crChan n.val ch.val = true ∧ s.crSum n.val f = false ∧ frameDa f = s.crMac n.val ∧ frameSa f ≠ s.crMac n.val ∧ a = c.addr 0x10 ∧ s.findOut (4 * n.val + 2 * ch.val + 2) 0x11 (fun _ => true) = some c ∧ size = c.fld 8 0 11 ∧ f.length < 2048 ∧ s.ecc = [] ∧ s.pairOn = false ∧ ptpEvent f = false) (1) (0) (zeros 6 ++ [1] ++ zeros 60) (cmd5 [(0, 0x11), (8, 100), (0x10, 0x40), (0x14, 0x10)]) (0x1000000040) (100) ((withFlds [(F.CR_MAC_HI_MAC_HI 1, 0)] (sOut 6 (cmd5 [(0, 0x11), (8, 100), (0x10, 0x40), (0x14, 0x10)]) (sCar 1)))) := by decide +kernel

theorem witness_CarRingAcyclicFrames_3 : (fun (n : Fin 3) (ch : Fin 2) (f : List Byte) (s : State) => s.phase ≠ Phase.reset ∧ s.running = true ∧ s.acts = true ∧ s.rd (F.CR_STATE_STATE n.val) ≠ 0 ∧ s.crChan n.val ch.val = true ∧ s.crSum n.val f = false ∧ frameDa f = s.crMac n.val ∧ frameSa f ≠ s.crMac n.val ∧ s.findOut (4 * n.val + 2 * ch.val + 2) 0x11 (fun _ => true) = none) (1) (0) (zeros 6 ++ [1] ++ zeros 60) ((withFlds [(F.CR_MAC_HI_MAC_HI 1, 0)] (sCar 1))) := by decide +kernel

theorem witness_CarRingAcyclicFrames_4 : (fun (n : Fin 3) (ch : Fin 2) (f : List Byte) (s : State) => s.running = true ∧ s.acts = true ∧ s.rd (F.CR_STATE_STATE n.val) ≠ 0 ∧ s.crChan n.val ch.val = true ∧ s.crSum n.val f = false ∧ frameDa f ≠ s.crMac n.val ∧ frameSa f ≠ s.crMac n.val ∧ frameFld f 0 1 % 2 = 0) (1) (0) (zeros 64) (withFlds [(F.CR_MAC_HI_MAC_HI 1, 1)] (sCar 1)) := by decide +kernel

theorem witness_CarRingAcyclicFrames_5 : (fun (n : Fin 3) (ch : Fin 2) (f : List Byte) (s : State) => s.running = true ∧ s.acts = true ∧ s.rd (F.CR_STATE_STATE n.val) ≠ 0 ∧ s.crChan n.val ch.val = true ∧ s.crSum n.val f = false ∧ frameDa f ≠ s.crMac n.val ∧ frameSa f ≠ s.crMac n.val ∧ frameFld f 0 1 % 2 = 1 ∧ (s.fwdBuf n.val ch.val).length < 2) (1) (0) ([1] ++ zeros 70) (withFlds [(F.CR_MAC_HI_MAC_HI 1, 1)] (sCar 1)) := by decide +kernel

theorem witness_CarRingAcyclicFrames_6 : (fun (n : Fin 3) (ch : Fin 2) (f : List Byte) (s : State) => s.running = true ∧ s.acts = true ∧ s.rd (F.CR_STATE_STATE n.val) ≠ 0 ∧ s.crChan n.val ch.val = true ∧ s.crSum n.val f = false) (1) (0) (zeros 64) (withFlds [(F.CR_MAC_HI_MAC_HI 1, 1)] (sCar 1)) := by decide +kernel

theorem witness_CarRingAcyclicFrames_7 : (fun (n : Fin 3) (ch : Fin 2) (f : List Byte) (ok : Bool) (s : State) => (s.running = false ∨ s.acts = false ∨ s.rd (F.CR_STATE_STATE n.val) = 0 ∨ s.crChan n.val ch.val = false ∨ s.crSum n.val f = true ∨ (ok = true ∧ frameSa f = s.crMac n.val))) (1) (0) (zeros 64) (true) (sCar 1) := by decide +kernel

theorem witness_CarRingAcyclicFrames_8 : (fun (n : Fin 3) (ch : Fin 2) (f : List Byte) (q : List (List Byte)) (s : State) => s.fwdBuf n.val ch.val = f :: q ∧ s.running = true ∧ s.rd (F.CR_STATE_STATE n.val) ≠ 0 ∧ s.crLink n.val (2 * ch.val) = true ∧ s.pairOn = false ∧ s.portNow (4 * n.val + 2 * ch.val) = none) (1) (0) (zeros 64) ([]) ((sCar 1).setFwd 1 0 [zeros 64]) := by decide +kernel

theorem witness_CarRingAcyclicFrames_9 : (fun (n : Fin 3) (ch : Fin 2) (s : State) => (s.fwdBuf n.val ch.val = [] ∨ s.running = false ∨ s.rd (F.CR_STATE_STATE n.val) = 0 ∨ s.crOut n.val ch.val = false ∨ s.portNow (4 * n.val + 2 * ch.val) ≠ none)) (1) (0) (sCar 1) := by decide +kernel

theorem witness_CarRingAcyclicFrames_10 : (fun (p : Fin 12) (c : Cmd) (s : State) => inHand (1 + p.val) 0x10 c s ∧ c.fin = none) (10) (cmd5 [(0, 0x10), (8, 64)]) (sEng 11 (cmd5 [(0, 0x10), (8, 64)]) (sCar 1)) := by decide +kernel

theorem witness_CarRingAcyclicFrames_11 : (fun (p : Fin 12) (c : Cmd) (f : Final) (s : State) => inHand (1 + p.val) 0x10 c s ∧ c.fin = some f) (10) ({ cmd5 [(0, 0x10), (8, 64)] with fin := some ⟨0x22, 0, []⟩ }) (⟨0x22, 0, []⟩) (sEng 11 { cmd5 [(0, 0x10), (8, 64)] with fin := some ⟨0x22, 0, []⟩ } (sCar 1)) := by decide +kernel

theorem witness_CarRingAcyclicFrames_12 : (fun (p : Fin 12) (c : Cmd) (s : State) => inHand (1 + p.val) 0x11 c s) (11) (cmd5 [(0, 0x11), (8, 64)]) (sEng 12 (cmd5 [(0, 0x11), (8, 64)]) (sCar 1)) := by decide +kernel

theorem witness_CarRingAcyclicFrames_13 : (fun (p : Fin 12) (s : State) => (s.hand (1 + p.val) = none ∨ s.running = false)) (6) (sCar 1) := by decide +kernel

theorem witness_CarRingAcyclicFrames_14 : (fun (p : Fin 12) (c : Cmd) (s : State) => s.findOut (1 + p.val) 0x10 (fun _ => true) = some c ∧ s.running = true ∧ s.pairOn = false ∧ s.ecc = [] ∧ s.rd (F.CR_STATE_STATE (p.val / 4)) ≠ 0 ∧ s.crLink (p.val / 4) (2 * (p.val % 4 / 2)) = true ∧ s.portNow p.val = none ∧ s.fwdBuf (p.val / 4) (p.val % 4 / 2) = [] ∧ s.crWindow (p.val / 4) (c.fld 8 0 11) = true ∧ s.crOld (p.val / 4) c = false) (6) ({ cmd5 [(0, 0x10), (8, 64), (0x10, 0x40), (0x14, 0x10)] with aux := [3, 1] }) (withFlds [(F.CR_ACYC_OPEN 1, 0), (F.CR_ACYC_CLOSE 1, 200)] (sOut 7 { cmd5 [(0, 0x10), (8, 64), (0x10, 0x40), (0x14, 0x10)] with aux := [3, 1] } (sCarNode 1 { carZero with refs := 3, ref := 990 }))) := by decide +kernel

theorem witness_CarRingAcyclicFrames_15 : (fun (p : Fin 12) (s : State) => (s.running = false ∨ s.rd (F.CR_STATE_STATE (p.val / 4)) = 0 ∨ s.crOut (p.val / 4) (p.val % 4 / 2) = false ∨ s.portNow p.val ≠ none ∨ s.fwdBuf (p.val / 4) (p.val % 4 / 2) ≠ [] ∨ (s.findOut (1 + p.val) 0x10 (fun _ => true)).all (fun c : Cmd => !s.crWindow (p.val / 4) (c.fld 8 0 11) || s.crOld (p.val / 4) c) = true)) (6) (sCar 1) := by decide +kernel

theorem witness_CarRingAcyclicFrames_16 : (fun (p : Fin 16) (c : Cmd) (r : Nat) (f : List Byte) (s : State) => p.val < 12 ∧ s.portNow p.val = some (TxNow.own c.ring c.pos r f) ∧ reached s.raw (r + (f.length + 12) * 40) = true ∧ s.findOut (1 + p.val) 0x10 (fun d => d.ring == c.ring && d.pos == c.pos) = some c) (6) (cmd5 [(0, 0x10), (8, 64)]) (2 ^ 64 - 500) (zeros 20) ((sOut 7 (cmd5 [(0, 0x10), (8, 64)]) (sCar 1)).setPortNow 6 (some (TxNow.own 5 0 (2 ^ 64 - 500) (zeros 20)))) := by decide +kernel

theorem witness_CarRingAcyclicFrames_17 : (fun (p : Fin 16) (c : Cmd) (r : Nat) (f : List Byte) (s : State) => p.val < 12 ∧ s.portNow p.val = some (TxNow.own c.ring c.pos r f) ∧ reached s.raw (r + (f.length + 12) * 40) = false) (6) (cmd5 [(0, 0x10), (8, 64)]) (900) (zeros 20) ((sOut 7 (cmd5 [(0, 0x10), (8, 64)]) (sCar 1)).setPortNow 6 (some (TxNow.own 5 0 900 (zeros 20)))) := by decide +kernel

theorem witness_CarRingAcyclicFrames_18 : (fun (p : Fin 16) (s : State) => p.val < 12 ∧ s.portNow p.val = none) (6) (sCar 1) := by decide +kernel

theorem witness_CarRingAcyclicFrames_19 : (fun (p : Fin 12) (c : Cmd) (s : State) => (s.outOf (1 + p.val)).find? (fun c => c.opcode == 0x10 && !((s.portNow p.val).any (TxNow.isOwn c)) && s.crOld (p.val / 4) c) = some c ∧ s.running = true) (6) ({ cmd5 [(0, 0x10), (8, 64)] with aux := [1, 0] }) (sOut 7 { cmd5 [(0, 0x10), (8, 64)] with aux := [1, 0] } (sCarNode 1 { carZero with refs := 3, ref := 990 })) := by decide +kernel

theorem witness_CarRingAcyclicFrames_20 : (fun (p : Fin 12) (s : State) => (s.running = false ∨ (s.outOf (1 + p.val)).all (fun c : Cmd => c.opcode != 0x10 || decide (s.crPassed (p.val / 4) c ≤ c.fld 8 24 8)) = true)) (6) (sCar 1) := by decide +kernel

theorem witness_CarRingAcyclicFrames_21 : (fun (p : Fin 12) (c : Cmd) (a : Nat) (s : State) => inHand (1 + p.val) 0x12 c s ∧ a = c.addr 0x10 ∧ s.ecc = [] ∧ s.pairOn = false ∧ c.headerOk = true ∧ c.word 8 = 0 ∧ c.word 0xC = 0 ∧ c.fld 0x14 8 24 = 0 ∧ c.zeroFrom 0x18 = true ∧ a % 64 = 0 ∧ s.rd (F.CR_CFG_ROLE (p.val / 4)) ≠ 0 ∧ s.engineMayWrite a 144 = true) (6) (cmd5 [(0, 0x12), (0x10, 0x40), (0x14, 0x10)]) (0x1000000040) (volat (sEng 7 (cmd5 [(0, 0x12), (0x10, 0x40), (0x14, 0x10)]) (sCar 1))) := by decide +kernel

theorem witness_CarRingAcyclicFrames_22 : (fun (p : Fin 12) (c : Cmd) (a : Nat) (s : State) => inHand (1 + p.val) 0x12 c s ∧ a = c.addr 0x10 ∧ (c.headerOk = false ∨ c.word 8 ≠ 0 ∨ c.word 0xC ≠ 0 ∨ c.fld 0x14 8 24 ≠ 0 ∨ c.zeroFrom 0x18 = false ∨ a % 64 ≠ 0 ∨ s.rd (F.CR_CFG_ROLE (p.val / 4)) = 0 ∨ s.engineMayWrite a 144 = false)) (6) (cmd5 [(0, 0x12), (0x10, 0x44), (0x14, 0x10)]) (0x1000000044) (volat (sEng 7 (cmd5 [(0, 0x12), (0x10, 0x44), (0x14, 0x10)]) (sCar 1))) := by decide +kernel

theorem witness_CarRingAcyclicFrames_23 : (fun (p : Fin 12) (up : Bool) (s : State) => s.phase ≠ Phase.reset ∧ s.crLink (p.val / 4) (p.val % 4) = !up) (6) (false) ((sCar 1).setPortNow 6 (some (.own 5 0 0 []))) := by decide +kernel

theorem witness_CarRingAcyclicFrames_24 : (fun (p : Fin 12) (up : Bool) (s : State) => s.crLink (p.val / 4) (p.val % 4) = up) (6) (true) (sCar 1) := by decide +kernel

theorem witness_BackboneReceives_1 : (fun (q : Fin 4) (f : List Byte) (s : State) => s.cbHears q.val f = true ∧ s.cbOurs f = true ∧ cbType f = 0 ∧ cbVer f = true ∧ frameFld f 15 1 = s.rd F.CB_CFG_TM_NODE ∧ s.rd F.CB_CFG_ROLE = 1 ∧ s.cb.starts ≠ 0 ∧ reached s.raw (s.winEnd 0) = false ∧ s.cb.got = false ∧ s.rd (cbOkFld (q.val / 2)) = 1 ∧ 0 < s.rd F.CB_CFG_SYNC_LOSS_N ∧ frameFld f 0x16 2 % 2 = 0 ∧ s.rd F.REC_CFG_EN = 0 ∧ s.cbState = 2 ∧ s.cbValid s.cbActive = true ∧ s.cbId s.cbActive = frameFld f 0x18 4 ∧ (s.cbDev f).natAbs ≤ s.rd F.CB_SYNCCHK_SYNC_TOL * 50) (0) (cbSyncOf 3) (sCb 1 200 1000) := by decide +kernel

theorem witness_BackboneReceives_2 : (fun (q : Fin 4) (f : List Byte) (s : State) => s.cbHears q.val f = true ∧ s.cbOurs f = true ∧ cbType f = 0 ∧ cbVer f = true ∧ frameFld f 15 1 = s.rd F.CB_CFG_TM_NODE ∧ s.rd F.CB_CFG_ROLE = 1 ∧ s.cb.starts ≠ 0 ∧ reached s.raw (s.winEnd 0) = false ∧ s.cb.got = true ∧ s.rd (cbOkFld (q.val / 2)) = 1 ∧ 0 < s.rd F.CB_CFG_SYNC_LOSS_N) (2) (cbSyncOf 3) ((sCb 1 200 1000).cbSet (fun c => { c with got := true })) := by decide +kernel

theorem witness_BackboneReceives_3 : (fun (q : Fin 4) (f : List Byte) (s : State) => s.cbHears q.val f = true ∧ s.cbOurs f = true ∧ cbType f = 0) (0) (cbSyncOf 3) (sCb 1 200 1000) := by decide +kernel

theorem witness_BackboneReceives_4 : (fun (q : Fin 4) (f : List Byte) (s : State) => s.cbHears q.val f = true ∧ s.cbOurs f = true ∧ cbType f = 0 ∧ cbVer f = true ∧ frameFld f 15 1 ≠ s.rd F.CB_CFG_TM_NODE) (0) (cbSyncOf 4) (sCb 1 200 1000) := by decide +kernel

theorem witness_BackboneReceives_5 : (fun (s : State) => s.running = true ∧ s.rd F.CB_CFG_ROLE = 1 ∧ s.cbState = 2 ∧ 0 < s.cb.starts ∧ s.cb.got = false ∧ s.cb.judged = false ∧ reached s.raw (s.winEnd 0) = true ∧ s.cb.missRun + 1 < s.rd F.CB_CFG_SYNC_LOSS_N ∧ s.rd F.CB_CFG_SYNC_HOLD = 0) (withFlds [(F.CB_CFG_SYNC_HOLD, 0)] (sCb 1 1000 900000)) := by decide +kernel

theorem witness_BackboneReceives_6 : (fun (s : State) => s.running = true ∧ s.rd F.CB_CFG_ROLE = 1 ∧ s.cbState = 2 ∧ 0 < s.cb.starts ∧ s.cb.got = false ∧ s.cb.judged = false ∧ reached s.raw (s.winEnd 0) = true ∧ s.rd F.CB_CFG_SYNC_LOSS_N ≤ s.cb.missRun + 1) ((sCb 1 1000 900000).cbSet (fun c => { c with missRun := 1 })) := by decide +kernel

theorem witness_BackboneReceives_7 : (fun (q : Fin 4) (f : List Byte) (o : Nat) (s : State) => o = 2 * (q.val / 2) + (1 - q.val % 2) ∧ s.cbHears q.val f = true ∧ s.pairOn = false ∧ s.cbLink o = true ∧ Sparse.lookup s.cb.relay o = none ∧ s.cbBusy o = false) (1) (cbSyncOf 3) (0) (sCb 1 200 1000) := by decide +kernel

theorem witness_BackboneReceives_8 : (fun (q : Fin 4) (f : List Byte) (o : Nat) (s : State) => o = 2 * (q.val / 2) + (1 - q.val % 2) ∧ s.cbHears q.val f = true ∧ s.pairOn = false ∧ s.cbLink o = true ∧ Sparse.lookup s.cb.relay o = none ∧ s.cbBusy o = true) (1) (cbSyncOf 3) (0) ((sCb 1 200 1000).cbSet (fun c => { c with busyEnd := [(0, 5000)] })) := by decide +kernel

theorem witness_BackboneReceives_9 : (fun (q : Fin 4) (f : List Byte) (s : State) => s.cbOn = true ∧ s.phase ≠ Phase.reset ∧ s.cbChan (q.val / 2) = true ∧ frameSa f = s.cbMac) (1) ((sCb 1 200 1000).cbFrame 0 0 []) (sCb 1 200 1000) := by decide +kernel

theorem witness_BackboneReceives_10 : (fun (q : Fin 4) (ok : Bool) (f : List Byte) (s : State) => Sparse.lookup s.cb.relay q.val = some (ok, f) ∧ s.cbOn = true ∧ reached s.raw (s.cbBusyEnd q.val + 48) = true ∧ s.cbLink q.val = true ∧ s.pairOn = false) (0) (true) (zeros 60) ((sCb 1 200 1000).cbSet (fun c => { c with busyEnd := [(0, 900)], relay := [(0, true, zeros 60)] })) := by decide +kernel

theorem witness_BackboneReceives_11 : (fun (q : Fin 4) (f : List Byte) (s : State) => s.cbHears q.val f = true ∧ s.cbOurs f = true ∧ cbType f = 1 ∧ cbVer f = true ∧ frameFld f 14 1 / 8 % 2 = q.val / 2 ∧ s.rxDataset (frameFld f 0x18 4 % 2 ^ 26) = none) (0) (cbFrom 0 1 8 ([0, 0, 0, 41, 2, 4, 0, 8, 0, 0, 0, 0x99, 0, 0, 0, 7] ++ zeros 8)) (sSigOn (sCb 1 200 1000)) := by decide +kernel

theorem witness_BackboneReceives_12 : (fun (q : Fin 4) (f : List Byte) (d : Nat) (s : State) => s.cbHears q.val f = true ∧ s.cbOurs f = true ∧ cbType f = 1 ∧ cbVer f = true ∧ frameFld f 14 1 / 8 % 2 = q.val / 2 ∧ s.rxDataset (frameFld f 0x18 4 % 2 ^ 26) = some d ∧ frameFld f 0x16 2 = s.dlen d ∧ 0x20 + s.dlen d ≤ f.length ∧ s.ds d 0x24 10 1 = 0) (0) (cbFrom 0 1 8 ([0, 0, 0, 41, 2, 4, 0, 8, 0, 0, 0, 0x55, 0, 0, 0, 7] ++ [1, 2, 3, 4, 5, 6, 7, 8])) (0) (sSigOn (sCb 1 200 1000)) := by decide +kernel

theorem witness_BackboneReceives_13 : (fun (q : Fin 4) (f : List Byte) (c : Cmd) (a : Nat) (size : Nat) (sfd : Nat) (stamp : Nat) (s : State) => s.cbHears q.val f = true ∧ s.cbOurs f = false ∧ (frameDa f = s.cbMac ∨ frameFld f 0 1 % 2 = 1) ∧ a = c.addr 0x10 ∧ s.findOut (0x0D + q.val) 0x21 (fun _ => true) = some c ∧ size = c.fld 8 0 11 ∧ f.length < 2048 ∧ s.ecc = [] ∧ s.pairOn = false ∧ ptpEvent f = true ∧ sfd = s.sfdRaw f.length 4 ∧ stamp = s.ntCaptured sfd (sfd + 156)) (0) ([0, 0, 0, 0, 0, 0x22] ++ zeros 6 ++ [0x88, 0xF7, 0x03, 0x12] ++ zeros 60) (cmd5 [(0, 0x21), (8, 100), (0x10, 0x40), (0x14, 0x10)]) (0x1000000040) (100) ((sCb 1 200 1000).sfdRaw 76 4) ((sCb 1 200 1000).ntCaptured ((sCb 1 200 1000).sfdRaw 76 4) ((sCb 1 200 1000).sfdRaw 76 4 + 156)) (withFlds [(F.CB_MAC_HI_MAC_HI, 0)] (sOut 13 (cmd5 [(0, 0x21), (8, 100), (0x10, 0x40), (0x14, 0x10)]) (sCb 1 200 1000))) := by decide +kernel

theorem witness_BackboneReceives_14 : (fun (q : Fin 4) (f : List Byte) (c : Cmd) (a : Nat) (size : Nat) (s : State) => s.cbHears q.val f = true ∧ s.cbOurs f = false ∧ (frameDa f = s.cbMac ∨ frameFld f 0 1 % 2 = 1) ∧ a = c.addr 0x10 ∧ s.findOut (0x0D + q.val) 0x21 (fun _ => true) = some c ∧ size = c.fld 8 0 11 ∧ f.length < 2048 ∧ s.ecc = [] ∧ s.pairOn = false ∧ ptpEvent f = false) (0) ([0, 0, 0, 0, 0, 0x22] ++ zeros 60) (cmd5 [(0, 0x21), (8, 100), (0x10, 0x40), (0x14, 0x10)]) (0x1000000040) (100) (withFlds [(F.CB_MAC_HI_MAC_HI, 0)] (sOut 13 (cmd5 [(0, 0x21), (8, 100), (0x10, 0x40), (0x14, 0x10)]) (sCb 1 200 1000))) := by decide +kernel

theorem witness_BackboneReceives_15 : (fun (q : Fin 4) (f : List Byte) (s : State) => s.cbHears q.val f = true ∧ s.phase ≠ Phase.reset ∧ s.cbOurs f = false ∧ (frameDa f = s.cbMac ∨ frameFld f 0 1 % 2 = 1) ∧ s.findOut (0x0D + q.val) 0x21 (fun _ => true) = none) (0) ([0, 0, 0, 0, 0, 0x22] ++ zeros 60) (sCb 1 200 1000) := by decide +kernel

theorem witness_BackboneReceives_16 : (fun (q : Fin 4) (f : List Byte) (s : State) => s.cbHears q.val f = true ∧ s.cbOurs f = false) (0) ([0, 0, 0, 0, 0, 0x22] ++ zeros 60) (sCb 1 200 1000) := by decide +kernel

theorem witness_BackboneReceives_17 : (fun (q : Fin 4) (f : List Byte) (s : State) => s.cbHears q.val f = false) (0) ([0, 0, 0, 0, 0, 0x22] ++ zeros 60) (withFlds [(F.CB_CFG_A_EN, 0)] (sCb 1 200 1000)) := by decide +kernel

theorem witness_BackboneReceives_18 : (fun (f : List Byte) (s : State) => (s.cbOurs f = true ∨ (frameDa f ≠ s.cbMac ∧ frameFld f 0 1 % 2 = 0))) ([4] ++ zeros 60) (sCb 1 200 1000) := by decide +kernel

theorem witness_BackboneReceives_19 : (fun (f : List Byte) (s : State) => (s.cbOurs f = false ∨ cbType f = 0)) ([4] ++ zeros 60) (sCb 1 200 1000) := by decide +kernel

theorem witness_BackboneReceives_20 : (fun (f : List Byte) (s : State) => (s.cbOurs f = false ∨ cbType f ≠ 0)) ([4] ++ zeros 60) (sCb 1 200 1000) := by decide +kernel

theorem witness_BackboneReceives_21 : (fun (q : Fin 4) (f : List Byte) (s : State) => s.cbHears q.val f = true ∧ s.cbOurs f = true ∧ cbType f ≠ 0) (0) (cbFrom 0 1 8 ([0, 0, 0, 41, 2, 4, 0, 8, 0, 0, 0, 0x99, 0, 0, 0, 7] ++ zeros 8)) (sSigOn (sCb 1 200 1000)) := by decide +kernel

theorem witness_BackboneReceives_22 : (fun (q : Fin 4) (f : List Byte) (s : State) => s.cbHears q.val f = true ∧ s.cbOurs f = true ∧ cbType f ≠ 0 ∧ (cbVer f = false ∨ cbType f ≠ 1 ∨ frameFld f 14 1 / 8 % 2 ≠ q.val / 2)) (2) (cbFrom 0 1 8 ([0, 0, 0, 41, 2, 4, 0, 8, 0, 0, 0, 0x99, 0, 0, 0, 7] ++ zeros 8)) (sSigOn (sCb 1 200 1000)) := by decide +kernel

theorem witness_BackboneReceives_23 : (fun (q : Fin 4) (f : List Byte) (d : Nat) (x : Nat) (s : State) => s.cbHears q.val f = true ∧ s.cbOurs f = true ∧ cbType f = 1 ∧ cbVer f = true ∧ frameFld f 14 1 / 8 % 2 = q.val / 2 ∧ s.rxDataset (frameFld f 0x18 4 % 2 ^ 26) = some d ∧ x = (frameFld f 0x1C 4 + 2 ^ 32 - s.ds d 0x30 0 32) % 2 ^ 32 ∧ (frameFld f 0x16 2 ≠ s.dlen d ∨ f.length < 0x20 + s.dlen d ∨ (s.ds d 0x24 10 1 = 1 ∧ (x = 0 ∨ 2 ^ 31 ≤ x)))) (0) (cbFrom 0 1 8 ([0, 0, 0, 41, 2, 4, 0, 7, 0, 0, 0, 0x55, 0, 0, 0, 7] ++ [1, 2, 3, 4, 5, 6, 7, 8])) (0) (7) (sSigOn (sCb 1 200 1000)) := by decide +kernel

theorem witness_BackboneReceives_24 : (fun (q : Fin 4) (f : List Byte) (s : State) => s.cbHears q.val f = true ∧ s.cbOurs f = true ∧ cbType f = 0 ∧ cbVer f = false) (0) (frameSet (cbSyncOf 3) 14 [0x20]) (sCb 1 200 1000) := by decide +kernel

theorem witness_BackboneReceives_25 : (fun (q : Fin 4) (f : List Byte) (s : State) => s.cbHears q.val f = true ∧ s.cbOurs f = true ∧ cbType f = 0 ∧ cbVer f = true ∧ frameFld f 15 1 = s.rd F.CB_CFG_TM_NODE ∧ (s.cbFollower = false ∨ s.cb.starts = 0 ∨ reached s.raw (s.winEnd 0) = true)) (0) (cbSyncOf 3) (sCb 1 200 9000) := by decide +kernel

theorem witness_BackboneReceives_26 : (fun (q : Fin 4) (f : List Byte) (aid : Nat) (near : Bool) (s : State) => s.cbHears q.val f = true ∧ s.cbOurs f = true ∧ cbType f = 0 ∧ cbVer f = true ∧ frameFld f 15 1 = s.rd F.CB_CFG_TM_NODE ∧ s.cbFollower = true ∧ s.cb.starts ≠ 0 ∧ reached s.raw (s.winEnd 0) = false ∧ s.cb.got = false ∧ aid = frameFld f 0x18 4 ∧ near = decide ((s.cbDev f).natAbs ≤ s.rd F.CB_SYNCCHK_SYNC_TOL * 50)) (0) (cbSyncOf 3) (0x77) (true) (sCb 1 200 1000) := by decide +kernel

theorem witness_BackboneReceives_27 : (fun (s : State) => s.running = true ∧ s.cbFollower = true ∧ s.cbState = 2 ∧ 0 < s.cb.starts ∧ s.cb.got = false ∧ s.cb.judged = false ∧ reached s.raw (s.winEnd 0) = true ∧ s.cb.missRun + 1 < s.rd F.CB_CFG_SYNC_LOSS_N ∧ s.rd F.CB_CFG_SYNC_HOLD = 1 ∧ s.cb.hold = true) ((withFlds [(F.CB_CFG_SYNC_HOLD, 1)] (sCb 1 1000 900000)).cbSet (fun c => { c with hold := true })) := by decide +kernel

theorem witness_BackboneReceives_28 : (fun (s : State) => (s.cbOn = false ∨ s.cbFollower = false ∨ s.cb.starts = 0 ∨ s.cb.got = true ∨ s.cb.judged = true ∨ reached s.raw (s.winEnd 0) = false)) (sCb 1 1000 900) := by decide +kernel

theorem witness_BackboneReceives_29 : (fun (q : Fin 4) (s : State) => (s.cbOn = false ∨ s.cbChan (q.val / 2) = false)) (0) (sOp) := by decide +kernel

theorem witness_BackboneReceives_30 : (fun (q : Fin 4) (f : List Byte) (o : Nat) (s : State) => o = 2 * (q.val / 2) + (1 - q.val % 2) ∧ s.cbHears q.val f = true ∧ s.pairOn = false ∧ s.cbLink o = false) (1) (cbSyncOf 3) (0) (withFlds [(F.CB_STAT_LINK, 2)] (sCb 1 200 1000)) := by decide +kernel

theorem witness_BackboneReceives_31 : (fun (q : Fin 4) (f : List Byte) (o : Nat) (s : State) => o = 2 * (q.val / 2) + (1 - q.val % 2) ∧ s.phase ≠ Phase.reset ∧ s.cbHears q.val f = true ∧ s.pairOn = false ∧ s.cbLink o = true ∧ (Sparse.lookup s.cb.relay o).isSome = true) (1) (cbSyncOf 3) (0) ((sCb 1 200 1000).cbSet (fun c => { c with relay := [(0, true, [])] })) := by decide +kernel

theorem witness_BackboneReceives_32 : (fun (q : Fin 4) (s : State) => (Sparse.lookup s.cb.relay q.val = none ∨ s.cbOn = false ∨ reached s.raw (s.cbBusyEnd q.val + 48) = false)) (0) (sCb 1 200 1000) := by decide +kernel

theorem witness_BackboneReceives_33 : (fun (q : Fin 4) (x : Bool × List Byte) (s : State) => Sparse.lookup s.cb.relay q.val = some x ∧ s.cbOn = true ∧ reached s.raw (s.cbBusyEnd q.val + 48) = true ∧ s.cbLink q.val = false) (0) ((true, zeros 60)) ((withFlds [(F.CB_STAT_LINK, 2)] (sCb 1 200 1000)).cbSet (fun c => { c with busyEnd := [(0, 900)], relay := [(0, true, zeros 60)] })) := by decide +kernel

theorem witness_BackboneSends_1 : (fun (w : Fin 256) (idx : Nat) (s : State) => s.cbOn = true ∧ 0 < s.cb.starts ∧ (s.cbNow w.val).kind = 2 ∧ (s.cbNow w.val).who = s.rd F.CB_CFG_NODE ∧ (s.cbNow w.val).cyc = true ∧ reached (s.raw + 2500) (s.winStart w.val) = true ∧ idx = 256 * s.cbPos + w.val ∧ s.cbFrozen s.cb.starts s.cbActive idx = none) (2) (2) (sCb 1 200 150500) := by decide +kernel

theorem witness_BackboneSends_2 : (fun (w : Fin 256) (nx : Nat × Nat) (idx : Nat) (x : CbWin) (s : State) => s.cbOn = true ∧ 0 < s.cb.starts ∧ nx = s.cbNext ∧ idx = 256 * nx.2 + w.val ∧ x = s.cbWin nx.1 (idx / 256) (idx % 256) ∧ x.kind = 2 ∧ x.who = s.rd F.CB_CFG_NODE ∧ x.cyc = true ∧ reached (s.raw + 2500) (s.cb.start + s.rd F.CB_BC_BC_LEN * 500 + x.start * 5) = true ∧ s.cbFrozen (s.cb.starts + 1) nx.1 idx = none) (2) ((0, 1)) (258) (⟨5, 2, 5, 20000, 0, true⟩) ((sCb 1 200 500200).cbSet (fun c => { c with banks := (512 + 8, 0x05200005) :: [] ++ [(521, 0x804E20)] })) := by decide +kernel

theorem witness_BackboneSends_3 : (fun (s : State) => (s.cbOn = false ∨ s.cb.starts = 0)) (sOp) := by decide +kernel

theorem witness_BackboneSends_4 : (fun (w : Fin 256) (c : Cmd) (at_ : Nat) (s : State) => s.cbMaySend = true ∧ 0 < s.cb.starts ∧ (s.cbNow w.val).kind = 2 ∧ (s.cbNow w.val).who = s.rd F.CB_CFG_NODE ∧ (s.cbNow w.val).cyc = false ∧ s.cb.prog = none ∧ reached s.raw (s.winStart w.val + 500) = true ∧ reached s.raw (s.winEnd w.val) = false ∧ s.rings.out = [c] ∧ s.cbTxs = [c] ∧ cbTxWin c % 256 = w.val ∧ s.cbBound c = true ∧ (cbTxOf c).missed = 0 ∧ (cbTxOf c).chans = 0 ∧ s.cbPorts 0 = [0] ∧ s.cbPorts 1 = [] ∧ s.cbFree 0 = true ∧ at_ = s.cbStartAt (s.winStart w.val + 500) ∧ reached at_ ((cbTxOf c).raw + 2500) = true ∧ s.cbInTime w.val at_ (cbTxLen c) = true ∧ s.ecc = [] ∧ s.pairOn = false ∧ c.fld 8 12 1 = 0) (1) ({ cmd5 [(0, 0x20), (8, 0x83C), (0xC, 1), (0x18, 0x40), (0x1C, 0x10)] with aux := [3, 200, 1, 0, 0, 0, 0, 0, 0, 0] }) (10700) (withFlds [(F.CB_STAT_LINK, 1)] (sOut 13 { cmd5 [(0, 0x20), (8, 0x83C), (0xC, 1), (0x18, 0x40), (0x1C, 0x10)] with aux := [3, 200, 1, 0, 0, 0, 0, 0, 0, 0] } ((sCb 1 200 10700).cbSet (fun c => { c with got := true })))) := by decide +kernel

theorem witness_BackboneSends_5 : (fun (w : Fin 256) (at_ : Nat) (d : Nat × Word × List Byte) (rest : List (Nat × Word × List Byte)) (s : State) => s.cbMaySend = true ∧ 0 < s.cb.starts ∧ (s.cbNow w.val).kind = 2 ∧ (s.cbNow w.val).who = s.rd F.CB_CFG_NODE ∧ reached s.raw (s.cbProgOf w.val).next = true ∧ reached s.raw (s.winEnd w.val) = false ∧ (s.cbProgOf w.val).cyc = d :: rest ∧ s.cbPorts 0 = [0] ∧ s.cbPorts 1 = [] ∧ s.cbFree 0 = true ∧ s.pairOn = false ∧ at_ = s.cbStartAt (s.cbProgOf w.val).next ∧ s.cbInTime w.val at_ (cbDataLen d.2.2.length) = true) (2) (150700) ((5, 6, [7, 8])) ([]) (withFlds [(F.CB_STAT_LINK, 1)] ((sCb 1 200 150800).cbSet (fun c => { c with got := true, frozen := [⟨3, 0, 2, [(5, 6, [7, 8])]⟩] }))) := by decide +kernel

theorem witness_BackboneSends_6 : (fun (w : Fin 256) (at_ : Nat) (s : State) => s.phase ≠ Phase.reset ∧ s.cbMaySend = true ∧ s.cbMaster = true ∧ 0 < s.cb.starts ∧ (s.cbNow w.val).kind = 1 ∧ (s.cbNow w.val).who = s.rd F.CB_CFG_NODE ∧ s.cb.prog = none ∧ reached s.raw (s.winStart w.val + 500) = true ∧ reached s.raw (s.winEnd w.val) = false ∧ (s.cbNow w.val).cyc = false ∧ s.cbPorts 0 = [0] ∧ s.cbPorts 1 = [] ∧ s.cbFree 0 = true ∧ s.pairOn = false ∧ at_ = s.cbStartAt (s.winStart w.val + 500)) (0) (700) (withFlds [(F.CB_STAT_LINK, 1), (F.CB_CFG_NODE, 3), (F.CB_BANKS_ANN_PEND, 1)] (sCb 2 200 800)) := by decide +kernel

theorem witness_BackboneSends_7 : (fun (w : Fin 256) (s : State) => (s.cbMaySend = false ∨ s.cb.starts = 0 ∨ (s.cbNow w.val).who ≠ s.rd F.CB_CFG_NODE ∨ ((s.cbNow w.val).kind ≠ 1 ∧ (s.cbNow w.val).kind ≠ 2) ∨ ((s.cbNow w.val).kind = 1 ∧ s.cbMaster = false) ∨ reached s.raw (s.winEnd w.val) = true ∨ reached s.raw (s.cbProgOf w.val).next = false ∨ s.cbAllPorts.all s.cbFree = false)) (0) (sCb 1 200 800) := by decide +kernel

theorem witness_BackboneSends_8 : (fun (ch : Fin 2) (s : State) => (s.cbArbWin = none ∨ s.cbArbNext ch.val = none ∨ s.cbMaySend = false ∨ s.cb.starts = 0 ∨ s.cbBusy (2 * ch.val) = true ∨ s.cbBusy (2 * ch.val + 1) = true ∨ s.cbPorts ch.val = [])) (1) (sCb 1 200 800) := by decide +kernel

theorem witness_BackboneSends_9 : (fun (w : Nat) (c : Cmd) (s : State) => s.cbArbWin = some w ∧ s.cbArbNext 0 = some c ∧ s.cbMaySend = true ∧ 0 < s.cb.starts ∧ s.rings.out = [c] ∧ s.cbMayArb (s.cbNow w) (c.fld 8 13 3) = true ∧ s.cbBusy 0 = false ∧ s.cbBusy 1 = false ∧ s.cb.relay = [] ∧ s.cbPorts 0 = [1] ∧ Sparse.lookup s.cb.seenEnd 0 = none ∧ reached s.raw (s.winStart w + 548 + (7 - c.fld 8 13 3) * s.rd F.CB_ARB_BO_SLOT * 5 + s.rd F.CB_CFG_NODE % 8 * 40) = true ∧ reached 0 (s.winStart w + 500) = false ∧ reached s.raw ((cbTxOf c).raw + 2500) = true ∧ s.cbInTime w s.raw (cbTxLen c) = true ∧ s.ecc = [] ∧ s.pairOn = false ∧ c.fld 8 11 1 = 1 ∧ c.fld 8 12 1 = 0) (3) ({ cmd5 [(0, 0x20), (8, 0x83C), (0xC, 0x3FFF), (0x18, 0x40), (0x1C, 0x10)] with aux := [3, 200, 1, 0, 0, 0, 0, 0, 0, 0] }) (withFlds [(F.CB_STAT_LINK, 2)] (sOut 13 { cmd5 [(0, 0x20), (8, 0x83C), (0xC, 0x3FFF), (0x18, 0x40), (0x1C, 0x10)] with aux := [3, 200, 1, 0, 0, 0, 0, 0, 0, 0] } ((sCb 1 200 320000).cbSet (fun c => { c with got := true })))) := by decide +kernel

theorem witness_BackboneSends_10 : (fun (q : Fin 4) (c : Cmd) (s : State) => inHand (0x0D + q.val) 0x20 c s ∧ c.fin = none) (0) (cmd5 [(0, 0x20), (8, 0x83C), (0xC, 1), (0x14, 0x10)]) (sEng 13 (cmd5 [(0, 0x20), (8, 0x83C), (0xC, 1), (0x14, 0x10)]) (sCb 1 200 10300)) := by decide +kernel

theorem witness_BackboneSends_11 : (fun (q : Fin 4) (c : Cmd) (f : Final) (s : State) => inHand (0x0D + q.val) 0x20 c s ∧ c.fin = some f) (0) ({ cmd5 [(0, 0x20), (8, 64)] with fin := some ⟨0x22, 0, []⟩ }) (⟨0x22, 0, []⟩) (sEng 13 { cmd5 [(0, 0x20), (8, 64)] with fin := some ⟨0x22, 0, []⟩ } (sCb 1 200 10300)) := by decide +kernel

theorem witness_BackboneSends_12 : (fun (q : Fin 4) (c : Cmd) (s : State) => inHand (0x0D + q.val) 0x21 c s ∧ c.fin = none) (1) (cmd5 [(0, 0x21), (8, 64)]) (sEng 14 (cmd5 [(0, 0x21), (8, 64)]) (sCb 1 200 10300)) := by decide +kernel

theorem witness_BackboneSends_13 : (fun (q : Fin 4) (c : Cmd) (f : Final) (s : State) => inHand (0x0D + q.val) 0x21 c s ∧ c.fin = some f) (0) ({ cmd5 [(0, 0x21), (8, 64)] with fin := some ⟨0x22, 0, []⟩ }) (⟨0x22, 0, []⟩) (sEng 13 { cmd5 [(0, 0x21), (8, 64)] with fin := some ⟨0x22, 0, []⟩ } (sCb 1 200 10300)) := by decide +kernel

theorem witness_BackboneSends_14 : (fun (q : Fin 4) (s : State) => (s.hand (0x0D + q.val) = none ∨ s.running = false)) (0) (sCb 1 200 800) := by decide +kernel

theorem witness_BackboneSends_15 : (fun (p : Fin 16) (s : State) => 12 ≤ p.val ∧ (s.cbSending (p.val - 12)).all (fun g : CbSend => !reached s.raw g.endRaw) = true) (15) (sCb 1 200 800) := by decide +kernel

theorem witness_BackboneSends_16 : (fun (p : Fin 16) (c : Cmd) (e : Nat) (s : State) => p.val = 13 ∧ s.cbSending 1 = [⟨c.ring, c.pos, e⟩] ∧ reached s.raw e = true ∧ s.rings.out = [c] ∧ (cbTxOf c).copies = 1 ∧ cbTxArb c = false ∧ c.fld 8 11 1 = 1) (13) ({ cmd5 [(0, 0x20), (8, 0x83C), (0xC, 1)] with aux := [3, 200, 1, 1, 1, 40, 256, 0, 0, 0] }) (900) ((sOut 13 { cmd5 [(0, 0x20), (8, 0x83C), (0xC, 1)] with aux := [3, 200, 1, 1, 1, 40, 256, 0, 0, 0] } (sCb 1 200 1000)).cbSet (fun b => { b with sending := [(1, [⟨5, 0, 900⟩])] })) := by decide +kernel

theorem witness_BackboneSends_17 : (fun (q : Fin 4) (c : Cmd) (s : State) => s.running = true ∧ s.outOf (0x0D + q.val) = [c] ∧ c.opcode = 0x20 ∧ (cbTxOf c).copies = 0 ∧ (cbTxOf c).chans = 0 ∧ cbTxArb c = false ∧ s.cbPassed c = true ∧ (s.ctx c.ring).engine.toNat = 0x0D + q.val) (0) ({ cmd5 [(0, 0x20), (8, 0x83C), (0xC, 1)] with aux := [3, 200, 1, 0, 0, 0, 0, 0, 1, 0] }) (sOut 13 { cmd5 [(0, 0x20), (8, 0x83C), (0xC, 1)] with aux := [3, 200, 1, 0, 0, 0, 0, 0, 1, 0] } (sCb 1 200 1000)) := by decide +kernel

theorem witness_BackboneSends_18 : (fun (q : Fin 4) (c : Cmd) (s : State) => s.running = true ∧ s.outOf (0x0D + q.val) = [c] ∧ c.opcode = 0x20 ∧ (cbTxOf c).copies = 0 ∧ cbTxArb c = true ∧ c.fld 8 16 8 < s.cbWaited c ∧ (s.ctx c.ring).engine.toNat = 0x0D + q.val) (0) ({ cmd5 [(0, 0x20), (8, 0x83C), (0xC, 0x3FFF)] with aux := [1, 200, 1, 0, 0, 0, 0, 0, 0, 0] }) ((sOut 13 { cmd5 [(0, 0x20), (8, 0x83C), (0xC, 0x3FFF)] with aux := [1, 200, 1, 0, 0, 0, 0, 0, 0, 0] } (sCb 1 200 1000))) := by decide +kernel

theorem witness_BackboneSends_19 : (fun (q : Fin 4) (s : State) => (s.running = false ∨ (s.outOf (0x0D + q.val)).all (fun c : Cmd => c.opcode != 0x20 || (cbTxOf c).copies != 0 || (if cbTxArb c = true then decide (s.cbWaited c ≤ c.fld 8 16 8) else !s.cbPassed c)) = true)) (0) (sCb 1 200 800) := by decide +kernel

theorem witness_BackboneBanks_1 : (fun (q : Fin 4) (c : Cmd) (s : State) => inHand (0x0D + q.val) 0x22 c s ∧ c.fin = none) (0) (cmd5 [(0, 0x22), (0x10, 0x40), (0x14, 0x10)]) (sEng 13 (cmd5 [(0, 0x22), (0x10, 0x40), (0x14, 0x10)]) (sCb 1 200 1000)) := by decide +kernel

theorem witness_BackboneBanks_2 : (fun (c : Cmd) (s : State) => s.running = true ∧ s.rings.out = [c] ∧ c.opcode = 0x22 ∧ c.fin = none ∧ (s.ctx c.ring).engine.toNat = 0x0D ∧ s.ecc = []) (cmd5 [(0, 0x22), (0x10, 0x40), (0x14, 0x10)]) (sOut 13 (cmd5 [(0, 0x22), (0x10, 0x40), (0x14, 0x10)]) (sCb 1 200 1000)) := by decide +kernel

theorem witness_BackboneBanks_3 : (fun (q : Fin 4) (c : Cmd) (f : Final) (s : State) => inHand (0x0D + q.val) 0x22 c s ∧ c.fin = some f) (0) ({ cmd5 [(0, 0x22), (0x10, 0x40), (0x14, 0x10)] with fin := some ⟨0x20, 3, []⟩ }) (⟨0x20, 3, []⟩) (sEng 13 { cmd5 [(0, 0x22), (0x10, 0x40), (0x14, 0x10)] with fin := some ⟨0x20, 3, []⟩ } (sCb 1 200 1000)) := by decide +kernel

theorem witness_BackboneBanks_4 : (fun (s : State) => (s.running = false ∨ s.rings.out = [])) (sCb 1 200 1000) := by decide +kernel

theorem witness_BackboneBanks_5 : (fun (q : Fin 4) (c : Cmd) (bad : Bool) (pend : Bool) (d : Nat) (e : Nat) (s : State) => inHand (0x0D + q.val) 0x23 c s ∧ (bad = decide (c.headerOk = false ∨ 2 ≤ c.word 8 ∨ c.word 0xC ≠ 0 ∨ c.zeroFrom 0x18 = false ∨ s.cbMaster = false)) ∧ pend = s.on F.CB_BANKS_ANN_PEND ∧ d = (c.word 0x14 + 2 ^ 32 - s.cbMcn) % 2 ^ 32 ∧ e = (s.rd F.CB_ACT_MCN_ACT_MCN + 2 ^ 32 - s.cbMcn) % 2 ^ 32) (0) (cmd5 [(0, 0x23), (0x10, 0x78), (0x14, 42)]) (false) (false) (2) (2 ^ 32 - 40) (withFlds [(F.CB_BANKS_VALID1, 1), (F.CB_ID1_SCHED_ID, 0x78)] (sEng 13 (cmd5 [(0, 0x23), (0x10, 0x78), (0x14, 42)]) (sCb 2 200 1000))) := by decide +kernel

theorem witness_BackboneBanks_6 : (fun (q : Fin 4) (c : Cmd) (s : State) => inHand (0x0D + q.val) 0x23 c s ∧ c.headerOk = true ∧ c.word 8 = 0 ∧ c.word 0xC = 0 ∧ c.zeroFrom 0x18 = true ∧ s.cbMaster = true ∧ s.cbValid s.cbOther = true ∧ s.cbId s.cbOther = c.word 0x10 ∧ 2 ≤ (c.word 0x14 + 2 ^ 32 - s.cbMcn) % 2 ^ 32 ∧ (c.word 0x14 + 2 ^ 32 - s.cbMcn) % 2 ^ 32 < 2 ^ 31 ∧ s.rd F.CB_BANKS_ANN_PEND = 0) (0) (cmd5 [(0, 0x23), (0x10, 0x78), (0x14, 42)]) (withFlds [(F.CB_BANKS_VALID1, 1), (F.CB_ID1_SCHED_ID, 0x78)] (sEng 13 (cmd5 [(0, 0x23), (0x10, 0x78), (0x14, 42)]) (sCb 2 200 1000))) := by decide +kernel

theorem witness_BackboneBanks_7 : (fun (q : Fin 4) (c : Cmd) (a : Nat) (s : State) => inHand (0x0D + q.val) 0x24 c s ∧ c.headerOk = true ∧ c.word 8 = 0 ∧ c.word 0xC = 0 ∧ c.fld 0x14 8 24 = 0 ∧ c.zeroFrom 0x18 = true ∧ a = c.addr 0x10 ∧ a % 64 = 0 ∧ s.engineMayWrite a 64 = true ∧ s.ecc = [] ∧ s.pairOn = false) (0) (cmd5 [(0, 0x24), (0x10, 0x40), (0x14, 0x10)]) (0x1000000040) (volat (sEng 13 (cmd5 [(0, 0x24), (0x10, 0x40), (0x14, 0x10)]) (sCb 2 200 1000))) := by decide +kernel

theorem witness_BackboneBanks_8 : (fun (q : Fin 4) (c : Cmd) (a : Nat) (s : State) => inHand (0x0D + q.val) 0x24 c s ∧ a = c.addr 0x10 ∧ (c.headerOk = false ∨ c.word 8 ≠ 0 ∨ c.word 0xC ≠ 0 ∨ c.fld 0x14 8 24 ≠ 0 ∨ c.zeroFrom 0x18 = false ∨ a % 64 ≠ 0 ∨ s.engineMayWrite a 64 = false)) (0) (cmd5 [(0, 0x24), (0x10, 0x44), (0x14, 0x10)]) (0x1000000044) (volat (sEng 13 (cmd5 [(0, 0x24), (0x10, 0x44), (0x14, 0x10)]) (sCb 2 200 1000))) := by decide +kernel

theorem witness_BackboneBanks_9 : (fun (q : Fin 4) (s : State) => (s.hand (0x0D + q.val) = none ∨ s.running = false)) (0) (sCb 1 200 1000) := by decide +kernel

theorem witness_BackboneBanks_10 : (fun (q : Fin 4) (up : Bool) (s : State) => s.phase ≠ Phase.reset ∧ s.cbMaster = false ∧ s.cbLink q.val = !up) (0) (false) (sCb 1 200 1000) := by decide +kernel

theorem witness_BackboneBanks_11 : (fun (q : Fin 4) (up : Bool) (s : State) => s.phase ≠ Phase.reset ∧ s.cbMaster = true ∧ s.cbState ≠ 0 ∧ s.cbLink q.val = !up ∧ s.rings.out = []) (0) (false) (sCb 2 200 1000) := by decide +kernel

theorem witness_BackboneBanks_12 : (fun (q : Fin 4) (up : Bool) (s : State) => s.cbLink q.val = up) (0) (true) (sCb 2 200 1000) := by decide +kernel

theorem witness_BackboneBanks_13 : (fun (i : Nat) (b : Nat) (s : State) => s.mustWait = false ∧ s.setupPhase = true ∧ i = s.rd F.CB_BANK_ADDR_WORD ∧ b = s.rd F.CB_BANK_ADDR_BANK) (10) (1) (withFlds [(F.CB_BANK_ADDR_WORD, 10), (F.CB_BANK_ADDR_BANK, 1)] sSetup) := by decide +kernel

theorem witness_BackboneBanks_14 : (fun (s : State) => s.mustWait = false ∧ s.setupPhase = false) (sOp) := by decide +kernel

theorem witness_SignalDatasets_1 : (fun (c : Cmd) (d : Nat) (a : Nat) (vs : List DWord) (r : Option Nat × State) (s : State) => inHand 0 0x10 c s ∧ d = c.fld 8 0 18 ∧ c.fld 0xC 0 19 = 1 ∧ a = c.addr 0x10 ∧ s.pubFails c 256 = none ∧ s.ecc = [] ∧ s.nsig d ≤ s.sig.ops ∧ vs = (List.range (s.nsig d)).map (fun k => BitVec.ofNat 64 (s.le (a + 8 * k) 8)) ∧ r = s.publishValues d vs 0) (cmd5 [(0, 0x10), (8, 1), (0xC, 1), (0x10, 0x40), (0x14, 0x10)]) (1) (0x1000000040) ([77]) (State.publishValues (sEng 0 (cmd5 [(0, 0x10), (8, 1), (0xC, 1), (0x10, 0x40), (0x14, 0x10)]) (atMem 0x1000000040 [77] (sSigOn sOp))) 1 [77] 0) (sEng 0 (cmd5 [(0, 0x10), (8, 1), (0xC, 1), (0x10, 0x40), (0x14, 0x10)]) (atMem 0x1000000040 [77] (sSigOn sOp))) := by decide +kernel

theorem witness_SignalDatasets_2 : (fun (d : Nat) (i : Nat) (vs : List DWord) (r : Option Nat × State) (s : State) => s.ecc = [] ∧ s.freeBuf d = some 1 ∧ s.dsSlots d = [i] ∧ (s.slot i).forced = false ∧ s.rings.out = [] ∧ s.pairOn = false ∧ s.rd F.GW_GROUP_COUNT_COUNT = 0 ∧ s.dsKind d = 2 ∧ s.dsStale d = false ∧ s.dsAddr d + 64 ≤ s.bufAddr d 0 ∧ s.bufAddr d 0 + 4096 ≤ s.slotAt i ∧ s.mapAt i + 8 ≤ s.dsAddr d ∧ s.rd F.SIG_RANGE_BASE_BASE * 4096 + 2 ^ 20 ≤ s.mapAt i ∧ (s.sigMap i).ty = 0 ∧ (s.sigMap i).width = 32 ∧ (s.sigMap i).le = false ∧ s.dlen d = 8 ∧ (s.sigMap i).ofs = 0 ∧ vs = [7] ∧ r = s.publishValues d vs 0) (1) (1) ([7]) (State.publishValues (withFlds [(F.SIG_MAP_BASE_BASE, 0x10000F0)] (atMem 0x10000F0000 [0, 31, 1, 31] (sSigOn (withFlds [(F.SIG_RANGE_BASE_BASE, 5)] sOp)))) 1 [7] 0) (withFlds [(F.SIG_MAP_BASE_BASE, 0x10000F0)] (atMem 0x10000F0000 [0, 31, 1, 31] (sSigOn (withFlds [(F.SIG_RANGE_BASE_BASE, 5)] sOp)))) := by decide +kernel

theorem witness_SignalDatasets_3 : (fun (c : Cmd) (d : Nat) (s : State) => inHand 0 0x10 c s ∧ d = c.fld 8 0 18 ∧ c.fld 0xC 0 19 = 1 ∧ s.pubFails c 256 = none ∧ s.ecc = [] ∧ s.nsig d ≤ s.sig.ops ∧ s.freeBuf d = none ∧ s.pairOn = false) (cmd5 [(0, 0x10), (8, 1), (0xC, 1), (0x10, 0x40), (0x14, 0x10)]) (1) (atMem 0x1000100064 [84] (sEng 0 (cmd5 [(0, 0x10), (8, 1), (0xC, 1), (0x10, 0x40), (0x14, 0x10)]) (sSigOn sOp))) := by decide +kernel

theorem witness_SignalDatasets_4 : (fun (c : Cmd) (d : Nat) (n : Nat) (a : Nat) (v0 : State) (w0 : State) (vs : List DWord) (ws : List DWord) (s : State) => inHand 0 0x10 c s ∧ d = c.fld 8 0 18 ∧ c.fld 0xC 0 19 = 2 ∧ a = c.addr 0x10 ∧ s.pubFails c 256 = none ∧ s.ecc = [] ∧ n = s.nsig d ∧ n ≤ s.sig.ops ∧ vs = (List.range n).map (fun k => BitVec.ofNat 64 (s.le (a + 8 * k) 8)) ∧ v0 = (s.publishValues d vs 0).2.spend n ∧ v0.ecc = [] ∧ v0.nsig (d + 1) ≤ v0.sig.ops ∧ ws = (List.range (v0.nsig (d + 1))).map (fun k => BitVec.ofNat 64 (v0.le (a + 8 * n + 8 * k) 8)) ∧ w0 = (v0.publishValues (d + 1) ws ((s.publishValues d vs 0).1.getD 0)).2.spend (v0.nsig (d + 1))) (cmd5 [(0, 0x10), (8, 0), (0xC, 2), (0x10, 0x40), (0x14, 0x10)]) (0) (1) (0x1000000040) ((State.publishValues (sEng 0 (cmd5 [(0, 0x10), (8, 0), (0xC, 2), (0x10, 0x40), (0x14, 0x10)]) (atMem 0x1000100000 [0x08000055] (atMem 0x1000000040 [77, 0, 9, 0] (sSigOn sOp)))) 0 [77] 0).2.spend 1) ((State.publishValues ((State.publishValues (sEng 0 (cmd5 [(0, 0x10), (8, 0), (0xC, 2), (0x10, 0x40), (0x14, 0x10)]) (atMem 0x1000100000 [0x08000055] (atMem 0x1000000040 [77, 0, 9, 0] (sSigOn sOp)))) 0 [77] 0).2.spend 1) 1 [9] 0).2.spend 1) ([77]) ([9]) (sEng 0 (cmd5 [(0, 0x10), (8, 0), (0xC, 2), (0x10, 0x40), (0x14, 0x10)]) (atMem 0x1000100000 [0x08000055] (atMem 0x1000000040 [77, 0, 9, 0] (sSigOn sOp)))) := by decide +kernel

theorem witness_SignalDatasets_5 : (fun (c : Cmd) (d : Nat) (s : State) => inHand 0 0x10 c s ∧ d = c.fld 8 0 18 ∧ 0 < c.fld 0xC 0 19 ∧ s.pubFails c 256 = none ∧ s.ecc = [] ∧ c.long = false ∧ s.sig.ops < s.nsig d) (cmd5 [(0, 0x10), (8, 0), (0xC, 2), (0x10, 0x40), (0x14, 0x10)]) (0) ((fun (u : State) => { u with sig := { u.sig with ops := 0 } }) (sEng 0 (cmd5 [(0, 0x10), (8, 0), (0xC, 2), (0x10, 0x40), (0x14, 0x10)]) (atMem 0x1000100000 [0x08000055] (atMem 0x1000000040 [77, 0, 9, 0] (sSigOn sOp))))) := by decide +kernel

theorem witness_SignalDatasets_6 : (fun (c : Cmd) (f : Final) (s : State) => inHand 0 0x10 c s ∧ s.pubFails c 256 = some f) (cmd5 [(0, 0x10), (8, 1), (0xC, 0)]) (⟨0x20, 0, []⟩) (sEng 0 (cmd5 [(0, 0x10), (8, 1), (0xC, 0)]) (sSigOn sOp)) := by decide +kernel

theorem witness_SignalDatasets_7 : (fun (s : State) => (s.hand 0 = none ∨ s.running = false)) (sOp) := by decide +kernel

theorem witness_SignalDatasets_8 : (fun (c : Cmd) (c1 : Cmd) (d : Nat) (a : Nat) (n : Nat) (v0 : State) (vs : List DWord) (r : Option Nat × State) (s : State) => inHand 0 0x14 c s ∧ c.fin = none ∧ s.ecc = [] ∧ c1 = { c with long := true, ntAcc := BitVec.ofNat 32 s.ntNs } ∧ d = c.fld 8 0 18 ∧ c.fld 0xC 0 19 = 1 ∧ a = c.addr 0x10 ∧ v0 = s.accept 0 c ∧ v0.ecc = [] ∧ n = v0.nsig d ∧ n ≤ v0.sig.ops ∧ vs = (List.range n).map (fun k => BitVec.ofNat 64 (v0.le (a + 8 * k) 8)) ∧ r = v0.publishValues d vs 0) (cmd5 [(0, 0x14), (8, 1), (0xC, 1), (0x10, 0x40), (0x14, 0x10)]) ({ cmd5 [(0, 0x14), (8, 1), (0xC, 1), (0x10, 0x40), (0x14, 0x10)] with long := true, ntAcc := BitVec.ofNat 32 (sOp).ntNs }) (1) (0x1000000040) (1) (State.accept (sEng 0 (cmd5 [(0, 0x14), (8, 1), (0xC, 1), (0x10, 0x40), (0x14, 0x10)]) (sSigOn sOp)) 0 (cmd5 [(0, 0x14), (8, 1), (0xC, 1), (0x10, 0x40), (0x14, 0x10)])) ([0]) (State.publishValues (State.accept (sEng 0 (cmd5 [(0, 0x14), (8, 1), (0xC, 1), (0x10, 0x40), (0x14, 0x10)]) (sSigOn sOp)) 0 (cmd5 [(0, 0x14), (8, 1), (0xC, 1), (0x10, 0x40), (0x14, 0x10)])) 1 [0] 0) (sEng 0 (cmd5 [(0, 0x14), (8, 1), (0xC, 1), (0x10, 0x40), (0x14, 0x10)]) (sSigOn sOp)) := by decide +kernel

theorem witness_SignalDatasets_9 : (fun (c : Cmd) (c1 : Cmd) (v0 : State) (s : State) => inHand 0 0x14 c s ∧ c.fin = none ∧ s.ecc = [] ∧ c1 = { c with long := true, ntAcc := BitVec.ofNat 32 s.ntNs } ∧ 0 < c.fld 0xC 0 19 ∧ v0 = s.accept 0 c ∧ v0.sig.ops < v0.nsig (c.fld 8 0 18)) (cmd5 [(0, 0x14), (8, 1), (0xC, 1), (0x10, 0x40), (0x14, 0x10)]) ({ cmd5 [(0, 0x14), (8, 1), (0xC, 1), (0x10, 0x40), (0x14, 0x10)] with long := true, ntAcc := BitVec.ofNat 32 (sOp).ntNs }) (State.accept ((fun (u : State) => { u with sig := { u.sig with ops := 0 } }) (sEng 0 (cmd5 [(0, 0x14), (8, 1), (0xC, 1), (0x10, 0x40), (0x14, 0x10)]) (sSigOn sOp))) 0 (cmd5 [(0, 0x14), (8, 1), (0xC, 1), (0x10, 0x40), (0x14, 0x10)])) ((fun (u : State) => { u with sig := { u.sig with ops := 0 } }) (sEng 0 (cmd5 [(0, 0x14), (8, 1), (0xC, 1), (0x10, 0x40), (0x14, 0x10)]) (sSigOn sOp))) := by decide +kernel

theorem witness_SignalDatasets_10 : (fun (c : Cmd) (f : Final) (s : State) => inHand 0 0x14 c s ∧ c.fin = some f ∧ s.ecc = []) ({ cmd5 [(0, 0x14), (8, 1)] with fin := some ⟨0x22, 0, []⟩ }) (⟨0x22, 0, []⟩) (sEng 0 { cmd5 [(0, 0x14), (8, 1)] with fin := some ⟨0x22, 0, []⟩ } (sSigOn sOp)) := by decide +kernel

theorem witness_SignalDatasets_11 : (fun (c : Cmd) (c1 : Cmd) (ps : List (Nat × Nat)) (v0 : State) (s : State) => inHand 0 0x15 c s ∧ c.fin = none ∧ s.ecc = [] ∧ v0 = s.accept 0 c ∧ ps = v0.pairsOf c ∧ c1 = { c with long := true, ntAcc := BitVec.ofNat 32 s.ntNs, aux := ps.flatMap (fun p : Nat × Nat => [p.1, p.2]) }) (cmd5 [(0, 0x15), (8, 1), (0x10, 0x40), (0x14, 0x10)]) ({ cmd5 [(0, 0x15), (8, 1), (0x10, 0x40), (0x14, 0x10)] with long := true, ntAcc := BitVec.ofNat 32 (sOp).ntNs, aux := [1, 9] }) ([(1, 9)]) (State.accept (sEng 0 (cmd5 [(0, 0x15), (8, 1), (0x10, 0x40), (0x14, 0x10)]) (atMem 0x1000000040 [1, 9] (sSigOn sOp))) 0 (cmd5 [(0, 0x15), (8, 1), (0x10, 0x40), (0x14, 0x10)])) (sEng 0 (cmd5 [(0, 0x15), (8, 1), (0x10, 0x40), (0x14, 0x10)]) (atMem 0x1000000040 [1, 9] (sSigOn sOp))) := by decide +kernel

theorem witness_SignalDatasets_12 : (fun (c : Cmd) (f : Final) (s : State) => inHand 0 0x15 c s ∧ c.fin = some f ∧ s.ecc = []) ({ cmd5 [(0, 0x15), (8, 1)] with fin := some ⟨0x22, 0, []⟩ }) (⟨0x22, 0, []⟩) (sEng 0 { cmd5 [(0, 0x15), (8, 1)] with fin := some ⟨0x22, 0, []⟩ } (sSigOn sOp)) := by decide +kernel

theorem witness_SignalDatasets_13 : (fun (c : Cmd) (d : Nat) (n : Nat) (s : State) => s.running = true ∧ s.findOut 0 0x15 (fun _ => true) = some c ∧ c.aux = [d, n] ∧ s.dsidClash [(d, n)] = false ∧ unitParts (c.fld 8 0 13) 48 ≤ c.prog ∧ 48 ≤ s.sig.ops ∧ s.sigServes c = true ∧ s.dsKind d = 2 ∧ s.ecc = [] ∧ s.pairOn = false ∧ n < 2 ^ 26 ∧ inDram (s.dsAddr d) 4 = true) ({ cmd5 [(0, 0x15), (8, 1)] with prog := 1, aux := [1, 9] }) (1) (9) ((fun (u : State) => { u with rings := { u.rings with lastPart := [(0, 3)] } }) (sOut 0 { cmd5 [(0, 0x15), (8, 1)] with prog := 1, aux := [1, 9] } (sSigOn sOp))) := by decide +kernel

theorem witness_SignalDatasets_14 : (fun (c : Cmd) (d : Nat) (n : Nat) (s : State) => s.running = true ∧ s.findOut 0 0x15 (fun _ => true) = some c ∧ c.aux = [d, n] ∧ s.dsidClash [(d, n)] = false ∧ unitParts (c.fld 8 0 13) 48 ≤ c.prog ∧ 48 ≤ s.sig.ops ∧ s.sigServes c = true ∧ s.dsKind d = 1 ∧ s.ecc = [] ∧ s.pairOn = false ∧ n < 2 ^ 26 ∧ inDram (s.dsAddr d) 64 = true ∧ s.rings.out = [c]) ({ cmd5 [(0, 0x15), (8, 1)] with prog := 1, aux := [0, 9] }) (0) (9) ((fun (u : State) => { u with rings := { u.rings with lastPart := [(0, 3)] } }) (sOut 0 { cmd5 [(0, 0x15), (8, 1)] with prog := 1, aux := [0, 9] } (sSigOn sOp))) := by decide +kernel

theorem witness_SignalDatasets_15 : (fun (c : Cmd) (s : State) => s.running = true ∧ s.findOut 0 0x15 (fun _ => true) = some c ∧ unitParts (c.fld 8 0 13) 48 ≤ c.prog ∧ 48 ≤ s.sig.ops ∧ s.sigServes c = true ∧ s.dsidClash (keptPairs c.aux) = true) ({ cmd5 [(0, 0x15), (8, 1)] with prog := 1, aux := [0, 9, 1, 9] }) ((fun (u : State) => { u with rings := { u.rings with lastPart := [(0, 3)] } }) (atMem 0x1000100040 [0x04000056] (sOut 0 { cmd5 [(0, 0x15), (8, 1)] with prog := 1, aux := [0, 9, 1, 9] } (sSigOn sOp)))) := by decide +kernel

theorem witness_SignalDatasets_16 : (fun (s : State) => (s.running = false ∨ s.sig.ops < 48 ∨ (s.findOut 0 0x15 (fun _ => true)).all (fun c : Cmd => decide (c.prog < unitParts (c.fld 8 0 13) 48) || !s.sigServes c) = true)) (sOp) := by decide +kernel

theorem witness_SignalDatasets_17 : (fun (d : BitVec 18) (s : State) => s.running = true ∧ s.dsEnabled d.toNat = true ∧ s.staleN d.toNat ≠ 0 ∧ s.dsStale d.toNat = false ∧ s.deadline d.toNat < s.ntNs ∧ s.rings.out = []) (0) (atMem 0x1000100008 [0x02000000] ({ sSigOn sOp with tb := { (sSigOn sOp).tb with raw := 90000000, incr := 2199023255552 } })) := by decide +kernel

theorem witness_SignalDatasets_18 : (fun (d : BitVec 18) (s : State) => (s.running = false ∨ s.dsEnabled d.toNat = false ∨ s.staleN d.toNat = 0 ∨ s.dsStale d.toNat = true ∨ s.ntNs ≤ s.deadline d.toNat)) (0) (atMem 0x1000100008 [0x02000000] (sSigOn sOp)) := by decide +kernel

theorem witness_SignalDatasets_19 : (fun (p : Nat) (x : Pass) (w0 : State) (v0 : State) (s : State) => s.running = true ∧ s.acts = true ∧ s.tb.locked = true ∧ s.slotRuns 0 = none ∧ s.raw % 200 = 0 ∧ s.slotServes 0 = some p ∧ s.passesOf p = [x] ∧ s.nsig x.dset ≤ 48 ∧ w0 = { s with sig := { s.sig with ops := 48 }, rings := { s.rings with lastPart := Sparse.insert s.rings.lastPart 0 p, slotRaw := Sparse.insert s.rings.slotRaw 0 s.raw } } ∧ v0 = (w0.runPass x).spend (s.nsig x.dset) ∧ v0.passesOf p = [] ∧ v0.builtOf p = [] ∧ v0.snapsOf p = [] ∧ v0.cycSnapsOf p = [] ∧ v0.cycCommitsOf p = [] ∧ v0.readyRings 0 p = []) (3) (⟨1, PassKind.unpack, 900⟩) ((fun (u : State) => { u with sig := { u.sig with ops := 48 }, rings := { u.rings with lastPart := Sparse.insert u.rings.lastPart 0 3, slotRaw := Sparse.insert u.rings.slotRaw 0 1000 } }) ((fun (u : State) => { u with tb := { u.tb with raw := 1000 }, sig := { u.sig with passes := [⟨1, PassKind.unpack, 900⟩] } }) (withFlds [(F.PART_CFG_WORK_CONSERVE, 1)] (sSigOn sOp)))) ((State.runPass ((fun (u : State) => { u with sig := { u.sig with ops := 48 }, rings := { u.rings with lastPart := Sparse.insert u.rings.lastPart 0 3, slotRaw := Sparse.insert u.rings.slotRaw 0 1000 } }) ((fun (u : State) => { u with tb := { u.tb with raw := 1000 }, sig := { u.sig with passes := [⟨1, PassKind.unpack, 900⟩] } }) (withFlds [(F.PART_CFG_WORK_CONSERVE, 1)] (sSigOn sOp)))) ⟨1, PassKind.unpack, 900⟩).spend 1) ((fun (u : State) => { u with tb := { u.tb with raw := 1000 }, sig := { u.sig with passes := [⟨1, PassKind.unpack, 900⟩] } }) (withFlds [(F.PART_CFG_WORK_CONSERVE, 1)] (sSigOn sOp))) := by decide +kernel

theorem witness_SignalDatasets_20 : (fun (x : Pass) (i : Nat) (s : State) => s.ecc = [] ∧ x.kind = PassKind.stale ∧ s.subst x.dset = false ∧ s.dsSlots x.dset = [i] ∧ s.pairOn = false) (⟨1, PassKind.stale, 900⟩) (1) (sSigOn sOp) := by decide +kernel

theorem witness_SignalDatasets_21 : (fun (x : Pass) (i : Nat) (s : State) => s.ecc = [] ∧ x.kind = PassKind.unpack ∧ s.dsSlots x.dset = [i] ∧ s.pairOn = false ∧ s.rings.out = [] ∧ (s.slot i).forced = false ∧ s.dsAddr x.dset + 64 ≤ s.slotAt i) (⟨1, PassKind.unpack, 900⟩) (1) (sSigOn sOp) := by decide +kernel

theorem witness_SignalDatasets_22 : (fun (x : Pass) (i : Nat) (s : State) => s.ecc = [] ∧ x.kind = PassKind.clear ∧ s.dsSlots x.dset = [i] ∧ s.pairOn = false ∧ s.dsAddr x.dset + 64 ≤ s.slotAt i) (⟨1, PassKind.clear, 900⟩) (1) (atMem 0x1000100064 [0x200] (sSigOn sOp)) := by decide +kernel

theorem witness_SignalSlots_1 : (fun (c : Cmd) (es : List (Nat × Nat)) (n : Nat) (list : Nat) (out : Nat) (w0 : State) (r : SnapCount × State) (s : State) => inHand 0 0x11 c s ∧ c.headerOk = true ∧ n = c.fld 8 0 13 ∧ c.fld 8 13 1 = 0 ∧ c.fld 8 15 17 = 0 ∧ c.word 0xC = 0 ∧ c.fld 0x14 8 24 = 0 ∧ c.fld 0x1C 8 24 = 0 ∧ c.zeroFrom 0x20 = true ∧ list = c.addr 0x10 ∧ out = c.addr 0x18 ∧ list % 16 = 0 ∧ out % 64 = 0 ∧ 0 < n ∧ n ≤ 4096 ∧ State.engineMayRead list (4 * n) = true ∧ s.engineMayWrite out ((if c.fld 8 14 1 = 0 then 16 else 8) * n) = true ∧ s.ecc = [] ∧ es = s.rawList list n ∧ ((∀ e ∈ es, s.slotUsed e.1 = true ∧ s.sigRight (s.cmdPart c) 25 e.1 = true)) ∧ cutGroups (s.marked es none) 0 = [es] ∧ 1 + n ≤ s.sig.ops ∧ w0 = s.spend 1 ∧ r = w0.snapList out (c.fld 8 14 1) es ⟨0, 0, 0x1FFF⟩) (cmd5 [(0, 0x11), (8, 1), (0x10, 0x40), (0x14, 0x10), (0x18, 0x80), (0x1C, 0x10)]) ([(1, 0)]) (1) (0x1000000040) (0x1000000080) (State.spend (sEng 0 (cmd5 [(0, 0x11), (8, 1), (0x10, 0x40), (0x14, 0x10), (0x18, 0x80), (0x1C, 0x10)]) (volat (atMem 0x1000000040 [1] (sSigOn sOp)))) 1) (State.snapList (State.spend (sEng 0 (cmd5 [(0, 0x11), (8, 1), (0x10, 0x40), (0x14, 0x10), (0x18, 0x80), (0x1C, 0x10)]) (volat (atMem 0x1000000040 [1] (sSigOn sOp)))) 1) 0x1000000080 0 [(1, 0)] ⟨0, 0, 0x1FFF⟩) (sEng 0 (cmd5 [(0, 0x11), (8, 1), (0x10, 0x40), (0x14, 0x10), (0x18, 0x80), (0x1C, 0x10)]) (volat (atMem 0x1000000040 [1] (sSigOn sOp)))) := by decide +kernel

theorem witness_SignalSlots_2 : (fun (c : Cmd) (g1 : List (Nat × Nat)) (g2 : List (Nat × Nat)) (n : Nat) (list : Nat) (out : Nat) (r : SnapCount × State) (s : State) => inHand 0 0x11 c s ∧ c.headerOk = true ∧ n = c.fld 8 0 13 ∧ c.fld 8 13 1 = 0 ∧ c.fld 8 15 17 = 0 ∧ c.word 0xC = 0 ∧ c.fld 0x14 8 24 = 0 ∧ c.fld 0x1C 8 24 = 0 ∧ c.zeroFrom 0x20 = true ∧ list = c.addr 0x10 ∧ out = c.addr 0x18 ∧ list % 16 = 0 ∧ out % 64 = 0 ∧ 0 < n ∧ n ≤ 4096 ∧ State.engineMayRead list (4 * n) = true ∧ s.engineMayWrite out ((if c.fld 8 14 1 = 0 then 16 else 8) * n) = true ∧ s.ecc = [] ∧ ((∀ e ∈ g1, s.slotUsed e.1 = true ∧ s.sigRight (s.cmdPart c) 25 e.1 = true)) ∧ cutGroups (s.marked (s.rawList list n) none) 0 = [g1, g2] ∧ s.sig.ops = 1 + g1.length ∧ g2 ≠ [] ∧ r = State.snapList (s.spend 1) out (c.fld 8 14 1) g1 ⟨0, 0, 0x1FFF⟩) (cmd5 [(0, 0x11), (8, 2), (0x10, 0x40), (0x14, 0x10), (0x18, 0x80), (0x1C, 0x10)]) ([(0, 0)]) ([(1, 1)]) (2) (0x1000000040) (0x1000000080) (State.snapList (State.spend ((fun (u : State) => { u with sig := { u.sig with ops := 2 } }) (sEng 0 (cmd5 [(0, 0x11), (8, 2), (0x10, 0x40), (0x14, 0x10), (0x18, 0x80), (0x1C, 0x10)]) (volat (atMem 0x1000000040 [0, 1] (sSigOn sOp))))) 1) 0x1000000080 0 [(0, 0)] ⟨0, 0, 0x1FFF⟩) ((fun (u : State) => { u with sig := { u.sig with ops := 2 } }) (sEng 0 (cmd5 [(0, 0x11), (8, 2), (0x10, 0x40), (0x14, 0x10), (0x18, 0x80), (0x1C, 0x10)]) (volat (atMem 0x1000000040 [0, 1] (sSigOn sOp))))) := by decide +kernel

theorem witness_SignalSlots_3 : (fun (i : Nat) (j : Nat) (out : Nat) (x : SnapCount) (r : SnapCount × State) (s : State) => s.ecc = [] ∧ s.pairOn = false ∧ r = s.snapList out 0 [(i, j)] x) (1) (2) (0x1000000080) (⟨3, 1, 0x1FFF⟩) (State.snapList (sSigOn sOp) 0x1000000080 0 [(1, 2)] ⟨3, 1, 0x1FFF⟩) (sSigOn sOp) := by decide +kernel

theorem witness_SignalSlots_4 : (fun (i : Nat) (j : Nat) (out : Nat) (x : SnapCount) (r : SnapCount × State) (s : State) => s.ecc = [] ∧ s.pairOn = false ∧ r = s.snapList out 1 [(i, j)] x) (1) (2) (0x1000000080) (⟨3, 1, 0x1FFF⟩) (State.snapList (sSigOn sOp) 0x1000000080 1 [(1, 2)] ⟨3, 1, 0x1FFF⟩) (sSigOn sOp) := by decide +kernel

theorem witness_SignalSlots_5 : (fun (c : Cmd) (e : Nat × Nat) (k : Nat) (n : Nat) (list : Nat) (out : Nat) (u : State) (s : State) => inHand 0 0x11 c s ∧ c.headerOk = true ∧ n = c.fld 8 0 13 ∧ c.fld 8 13 1 = 0 ∧ c.fld 8 15 17 = 0 ∧ c.word 0xC = 0 ∧ c.fld 0x14 8 24 = 0 ∧ c.fld 0x1C 8 24 = 0 ∧ c.zeroFrom 0x20 = true ∧ list = c.addr 0x10 ∧ out = c.addr 0x18 ∧ list % 16 = 0 ∧ out % 64 = 0 ∧ 0 < n ∧ n ≤ 4096 ∧ State.engineMayRead list (4 * n) = true ∧ k = (if c.fld 8 14 1 = 0 then 16 else 8) * n ∧ s.engineMayWrite out k = true ∧ s.ecc = [] ∧ cutGroups (s.marked (s.rawList list n) none) 0 = [s.rawList list n] ∧ 1 + n ≤ s.sig.ops ∧ (s.rawList list n).find? (fun e => !s.slotUsed e.1 || !s.sigRight (s.cmdPart c) 25 e.1) = some e ∧ u = s.spend 1) (cmd5 [(0, 0x11), (8, 1), (0x10, 0x40), (0x14, 0x10), (0x18, 0x80), (0x1C, 0x10)]) ((5, 0)) (16) (1) (0x1000000040) (0x1000000080) (State.spend (sEng 0 (cmd5 [(0, 0x11), (8, 1), (0x10, 0x40), (0x14, 0x10), (0x18, 0x80), (0x1C, 0x10)]) (volat (atMem 0x1000000040 [5] (sSigOn sOp)))) 1) (sEng 0 (cmd5 [(0, 0x11), (8, 1), (0x10, 0x40), (0x14, 0x10), (0x18, 0x80), (0x1C, 0x10)]) (volat (atMem 0x1000000040 [5] (sSigOn sOp)))) := by decide +kernel

theorem witness_SignalSlots_6 : (fun (c : Cmd) (bad : Bool) (n : Nat) (list : Nat) (out : Nat) (s : State) => inHand 0 0x11 c s ∧ s.sig.ops ≠ 0 ∧ n = c.fld 8 0 13 ∧ list = c.addr 0x10 ∧ out = c.addr 0x18 ∧ (bad = decide (c.headerOk = false ∨ c.fld 8 15 17 ≠ 0 ∨ c.word 0xC ≠ 0 ∨ c.fld 0x14 8 24 ≠ 0 ∨ c.fld 0x1C 8 24 ≠ 0 ∨ c.zeroFrom 0x20 = false ∨ list % 16 ≠ 0 ∨ out % 64 ≠ 0)) ∧ (bad = true ∨ (c.fld 8 13 1 = 1 ∧ State.engineMayRead list 16 = false) ∨ (c.fld 8 13 1 = 0 ∧ (n = 0 ∨ 4096 < n ∨ State.engineMayRead list (4 * n) = false ∨ s.engineMayWrite out ((if c.fld 8 14 1 = 0 then 16 else 8) * n) = false)))) (cmd5 [(0, 0x11), (8, 0), (0x10, 0x40), (0x14, 0x10), (0x18, 0x80), (0x1C, 0x10)]) (false) (0) (0x1000000040) (0x1000000080) (sEng 0 (cmd5 [(0, 0x11), (8, 0), (0x10, 0x40), (0x14, 0x10), (0x18, 0x80), (0x1C, 0x10)]) (volat (atMem 0x1000000040 [1] (sSigOn sOp)))) := by decide +kernel

theorem witness_SignalSlots_7 : (fun (c : Cmd) (list : Nat) (out : Nat) (s : State) => inHand 0 0x11 c s ∧ s.sig.ops ≠ 0 ∧ c.headerOk = true ∧ c.fld 8 13 1 = 1 ∧ c.fld 8 15 17 = 0 ∧ c.word 0xC = 0 ∧ c.fld 0x14 8 24 = 0 ∧ c.fld 0x1C 8 24 = 0 ∧ c.zeroFrom 0x20 = true ∧ list = c.addr 0x10 ∧ out = c.addr 0x18 ∧ list % 16 = 0 ∧ out % 64 = 0 ∧ State.engineMayRead list 16 = true ∧ s.compiledOk list (s.cmdPart c) = false ∧ s.ecc = []) (cmd5 [(0, 0x11), (8, 0x2000), (0x10, 0x40), (0x14, 0x10), (0x18, 0x80), (0x1C, 0x10)]) (0x1000000040) (0x1000000080) (sEng 0 (cmd5 [(0, 0x11), (8, 0x2000), (0x10, 0x40), (0x14, 0x10), (0x18, 0x80), (0x1C, 0x10)]) (volat (atMem 0x1000000040 [1] (sSigOn sOp)))) := by decide +kernel

theorem witness_SignalSlots_8 : (fun (c : Cmd) (es : List (Bool × Nat × Nat)) (list : Nat) (out : Nat) (r : SnapCount × State) (s : State) => inHand 0 0x11 c s ∧ c.headerOk = true ∧ c.fld 8 13 1 = 1 ∧ c.fld 8 15 17 = 0 ∧ c.word 0xC = 0 ∧ c.fld 0x14 8 24 = 0 ∧ c.fld 0x1C 8 24 = 0 ∧ c.zeroFrom 0x20 = true ∧ list = c.addr 0x10 ∧ out = c.addr 0x18 ∧ list % 16 = 0 ∧ out % 64 = 0 ∧ State.engineMayRead list 16 = true ∧ s.compiledOk list (s.cmdPart c) = true ∧ s.ecc = [] ∧ es = s.compiledList list ∧ s.engineMayWrite out ((if c.fld 8 14 1 = 0 then 16 else 8) * es.foldl (fun m e => max m (e.2.2 + 1)) 0) = true ∧ cutGroups es 0 = [es.map (fun e : Bool × Nat × Nat => e.2)] ∧ 1 + es.length ≤ s.sig.ops ∧ r = State.snapList (s.spend 1) out (c.fld 8 14 1) (es.map (fun e : Bool × Nat × Nat => e.2)) ⟨0, 0, 0x1FFF⟩) (cmd5 [(0, 0x11), (8, 0x2000), (0x10, 0x40), (0x14, 0x10), (0x18, 0x80), (0x1C, 0x10)]) ([(true, 1, 0)]) (0x1000000040) (0x1000000080) (State.snapList (State.spend (sEng 0 (cmd5 [(0, 0x11), (8, 0x2000), (0x10, 0x40), (0x14, 0x10), (0x18, 0x80), (0x1C, 0x10)]) (volat (atMem 0x1000000040 [0x5355424C, 0x10003, crc32c (wordBytes [0x2000001, 0]), 0, 0x2000001, 0] (sSigOn sOp)))) 1) 0x1000000080 0 [(1, 0)] ⟨0, 0, 0x1FFF⟩) (sEng 0 (cmd5 [(0, 0x11), (8, 0x2000), (0x10, 0x40), (0x14, 0x10), (0x18, 0x80), (0x1C, 0x10)]) (volat (atMem 0x1000000040 [0x5355424C, 0x10003, crc32c (wordBytes [0x2000001, 0]), 0, 0x2000001, 0] (sSigOn sOp)))) := by decide +kernel

theorem witness_SignalSlots_9 : (fun (s : State) => (s.hand 0 = none ∨ s.running = false ∨ s.sig.ops = 0)) (sOp) := by decide +kernel

theorem witness_SignalSlots_10 : (fun (c : Cmd) (i : Nat) (m : SigMap) (w : DWord) (w0 : State) (r : Nat × Bool × State) (s : State) => inHand 0 0x12 c s ∧ s.sig.ops ≠ 0 ∧ c.headerOk = true ∧ i = c.fld 8 0 25 ∧ c.fld 8 25 7 = 0 ∧ c.word 0xC = 0 ∧ c.zeroFrom 0x18 = true ∧ s.slotUsed i = true ∧ s.sigRight (s.cmdPart c) 26 i = true ∧ (s.slot i).forced = false ∧ s.forceActive = false ∧ s.ecc = [] ∧ s.pairOn = false ∧ m = s.sigMap i ∧ w0 = s.spend 1 ∧ r = w0.packValue m (BitVec.ofNat 64 (c.word 0x10 + 2 ^ 32 * c.word 0x14)) ∧ w = slotValue m r.1) (cmd5 [(0, 0x12), (8, 1), (0x10, 0x99)]) (1) (⟨1, 0, 32, 0, false, 0⟩) (0x99) (State.spend (sEng 0 (cmd5 [(0, 0x12), (8, 1), (0x10, 0x99)]) (sSigOn (withFlds [(F.CYC_STAT_CFG_ERR, 1)] sOp))) 1) ((0x99, false, State.spend (sEng 0 (cmd5 [(0, 0x12), (8, 1), (0x10, 0x99)]) (sSigOn (withFlds [(F.CYC_STAT_CFG_ERR, 1)] sOp))) 1)) (sEng 0 (cmd5 [(0, 0x12), (8, 1), (0x10, 0x99)]) (sSigOn (withFlds [(F.CYC_STAT_CFG_ERR, 1)] sOp))) := by decide +kernel

theorem witness_SignalSlots_11 : (fun (c : Cmd) (i : Nat) (m : SigMap) (w : DWord) (w0 : State) (r : Nat × Bool × State) (s : State) => inHand 0 0x12 c s ∧ s.sig.ops ≠ 0 ∧ c.headerOk = true ∧ i = c.fld 8 0 25 ∧ c.fld 8 25 7 = 0 ∧ c.word 0xC = 0 ∧ c.zeroFrom 0x18 = true ∧ s.slotUsed i = true ∧ s.sigRight (s.cmdPart c) 26 i = true ∧ (s.slot i).forced = true ∧ s.ecc = [] ∧ s.pairOn = false ∧ m = s.sigMap i ∧ w0 = s.spend 1 ∧ r = w0.packValue m (BitVec.ofNat 64 (c.word 0x10 + 2 ^ 32 * c.word 0x14)) ∧ w = slotValue m r.1) (cmd5 [(0, 0x12), (8, 1), (0x10, 0x99)]) (1) (⟨1, 0, 32, 0, false, 0⟩) (0x99) (State.spend (atMem 0x102000001C [5] (sEng 0 (cmd5 [(0, 0x12), (8, 1), (0x10, 0x99)]) (sSigOn (withFlds [(F.CYC_STAT_CFG_ERR, 1)] sOp)))) 1) ((0x99, false, State.spend (atMem 0x102000001C [5] (sEng 0 (cmd5 [(0, 0x12), (8, 1), (0x10, 0x99)]) (sSigOn (withFlds [(F.CYC_STAT_CFG_ERR, 1)] sOp)))) 1)) (atMem 0x102000001C [5] (sEng 0 (cmd5 [(0, 0x12), (8, 1), (0x10, 0x99)]) (sSigOn (withFlds [(F.CYC_STAT_CFG_ERR, 1)] sOp)))) := by decide +kernel

theorem witness_SignalSlots_12 : (fun (c : Cmd) (i : Nat) (w0 : State) (s : State) => inHand 0 0x12 c s ∧ s.sig.ops ≠ 0 ∧ c.headerOk = true ∧ i = c.fld 8 0 25 ∧ c.fld 8 25 7 = 1 ∧ c.word 0xC = 0 ∧ c.zeroFrom 0x18 = true ∧ s.slotUsed i = true ∧ s.sigRight (s.cmdPart c) 26 i = true ∧ (s.slot i).forced = true ∧ s.ecc = [] ∧ s.pairOn = false ∧ s.rd F.SIG_FORCES_FORCES = 1 ∧ s.rd F.CYC_FORCES_COUNT = 0 ∧ w0 = s.spend 1) (cmd5 [(0, 0x12), (8, 0x2000001)]) (1) (State.spend (withFlds [(F.SIG_FORCES_FORCES, 1), (F.CYC_STAT_FORCE, 1)] (atMem 0x102000001C [5] (sEng 0 (cmd5 [(0, 0x12), (8, 0x2000001)]) (sSigOn sOp)))) 1) (withFlds [(F.SIG_FORCES_FORCES, 1), (F.CYC_STAT_FORCE, 1)] (atMem 0x102000001C [5] (sEng 0 (cmd5 [(0, 0x12), (8, 0x2000001)]) (sSigOn sOp)))) := by decide +kernel

theorem witness_SignalSlots_13 : (fun (c : Cmd) (i : Nat) (s : State) => inHand 0 0x12 c s ∧ s.sig.ops ≠ 0 ∧ c.headerOk = true ∧ i = c.fld 8 0 25 ∧ c.fld 8 25 7 = 1 ∧ c.word 0xC = 0 ∧ c.zeroFrom 0x18 = true ∧ s.slotUsed i = true ∧ s.sigRight (s.cmdPart c) 26 i = true ∧ (s.slot i).forced = false ∧ s.ecc = []) (cmd5 [(0, 0x12), (8, 0x2000001)]) (1) (withFlds [(F.SIG_FORCES_FORCES, 1), (F.CYC_STAT_FORCE, 1)] (atMem 0x102000001C [1] (sEng 0 (cmd5 [(0, 0x12), (8, 0x2000001)]) (sSigOn sOp)))) := by decide +kernel

theorem witness_SignalSlots_14 : (fun (c : Cmd) (i : Nat) (bad : Bool) (s : State) => inHand 0 0x12 c s ∧ s.sig.ops ≠ 0 ∧ i = c.fld 8 0 25 ∧ s.ecc = [] ∧ c.fld 8 25 1 = 0 ∧ (bad = decide (c.headerOk = false ∨ c.fld 8 26 6 ≠ 0 ∨ c.word 0xC ≠ 0 ∨ c.zeroFrom 0x18 = false ∨ s.slotUsed i = false)) ∧ (bad = true ∨ s.sigRight (s.cmdPart c) 26 i = false)) (cmd5 [(0, 0x12), (8, 1)]) (1) (false) (withFlds [(F.PE_SIGMAP_SIGMAP 3, 0xFFFFFFFF)] (sEng 0 (cmd5 [(0, 0x12), (8, 1)]) (sSigOn sOp))) := by decide +kernel

theorem witness_SignalSlots_15 : (fun (c : Cmd) (i : Nat) (bad : Bool) (s : State) => inHand 0 0x12 c s ∧ s.sig.ops ≠ 0 ∧ i = c.fld 8 0 25 ∧ s.ecc = [] ∧ c.fld 8 25 1 = 1 ∧ (bad = decide (c.headerOk = false ∨ c.fld 8 26 6 ≠ 0 ∨ c.word 0xC ≠ 0 ∨ c.zeroFrom 0x18 = false ∨ s.slotUsed i = false)) ∧ (bad = true ∨ s.sigRight (s.cmdPart c) 26 i = false)) (cmd5 [(0, 0x12), (8, 0x2000001)]) (1) (false) (withFlds [(F.PE_SIGMAP_SIGMAP 3, 0xFFFFFFFF)] (sEng 0 (cmd5 [(0, 0x12), (8, 0x2000001)]) (sSigOn sOp))) := by decide +kernel

theorem witness_SignalSlots_16 : (fun (c : Cmd) (c1 : Cmd) (s : State) => inHand 0 0x13 c s ∧ s.sig.ops ≠ 0 ∧ s.ecc = [] ∧ c.fin = none ∧ s.pairOn = false ∧ c1 = { c with long := true, ntAcc := BitVec.ofNat 32 s.ntNs, aux := [b2n ((s.accept 0 c).dsStale (c.fld 8 0 18)), (s.accept 0 c).raw + c.fld 0xC 0 16 * 500000] }) (cmd5 [(0, 0x13), (8, 1), (0xC, 50), (0x10, 3)]) ({ cmd5 [(0, 0x13), (8, 1), (0xC, 50), (0x10, 3)] with long := true, ntAcc := BitVec.ofNat 32 (sOp).ntNs, aux := [0, 25001000] }) (sEng 0 (cmd5 [(0, 0x13), (8, 1), (0xC, 50), (0x10, 3)]) (sSigOn sOp)) := by decide +kernel

theorem witness_SignalSlots_17 : (fun (c : Cmd) (f : Final) (s : State) => inHand 0 0x13 c s ∧ s.sig.ops ≠ 0 ∧ s.ecc = [] ∧ c.fin = some f) ({ cmd5 [(0, 0x13), (8, 1)] with fin := some ⟨0x22, 0, []⟩ }) (⟨0x22, 0, []⟩) (sEng 0 { cmd5 [(0, 0x13), (8, 1)] with fin := some ⟨0x22, 0, []⟩ } (sSigOn sOp)) := by decide +kernel

theorem witness_SignalSlots_18 : (fun (s : State) => (s.hand 0 = none ∨ s.running = false ∨ s.sig.ops = 0)) (sOp) := by decide +kernel

theorem witness_SignalSlots_19 : (fun (r : RingId) (p : BitVec 17) (c : Cmd) (s : State) => s.findOut 0 0x13 (fun c => c.ring == r && c.pos == p) = some c ∧ c.fld 0xC 0 16 ≠ 0 ∧ reached s.raw (c.aux.getD 1 0) = true) (5) (0) ({ cmd5 [(0, 0x13), (8, 1), (0xC, 50)] with aux := [0, 900] }) (sOut 0 { cmd5 [(0, 0x13), (8, 1), (0xC, 50)] with aux := [0, 900] } (sSigOn sOp)) := by decide +kernel

theorem witness_SignalSlots_20 : (fun (r : RingId) (p : BitVec 17) (s : State) => (s.findOut 0 0x13 (fun c => c.ring == r && c.pos == p)).all (fun c : Cmd => c.fld 0xC 0 16 == 0 || !reached s.raw (c.aux.getD 1 0)) = true) (5) (0) (sOp) := by decide +kernel

theorem witness_SignalSlots_21 : (fun (c : Cmd) (c1 : Cmd) (v0 : State) (n : Nat) (out : Nat) (es : List (Nat × Nat × Nat)) (body : List Byte) (s : State) => inHand 0 0x16 c s ∧ c.fin = none ∧ s.ecc = [] ∧ 48 ≤ s.sig.ops ∧ c.prog = 0 ∧ c1 = { c with long := true, ntAcc := BitVec.ofNat 32 s.ntNs } ∧ v0 = (s.accept 0 c).spend 48 ∧ n = c.fld 8 0 13 ∧ n ≤ 24 ∧ out = c.addr 0x18 ∧ es = (v0.rawList (c.addr 0x10) n).foldl (fun l e => subInsert ((v0.sigMap e.1).dset, e.1, e.2) l) [] ∧ body = wordBytes (subWords es none 0).1) (cmd5 [(0, 0x16), (8, 2), (0x10, 0x40), (0x14, 0x10), (0x18, 0x80), (0x1C, 0x10)]) ({ cmd5 [(0, 0x16), (8, 2), (0x10, 0x40), (0x14, 0x10), (0x18, 0x80), (0x1C, 0x10)] with long := true, ntAcc := BitVec.ofNat 32 (sOp).ntNs }) (State.spend ((sEng 0 (cmd5 [(0, 0x16), (8, 2), (0x10, 0x40), (0x14, 0x10), (0x18, 0x80), (0x1C, 0x10)]) (volat (atMem 0x1000000040 [1, 0] (sSigOn sOp)))).accept 0 (cmd5 [(0, 0x16), (8, 2), (0x10, 0x40), (0x14, 0x10), (0x18, 0x80), (0x1C, 0x10)])) 48) (2) (0x1000000080) ([(0, 0, 1), (1, 1, 0)]) (wordBytes [0x2000000, 1, 0x2000001, 0]) (sEng 0 (cmd5 [(0, 0x16), (8, 2), (0x10, 0x40), (0x14, 0x10), (0x18, 0x80), (0x1C, 0x10)]) (volat (atMem 0x1000000040 [1, 0] (sSigOn sOp)))) := by decide +kernel

theorem witness_SignalSlots_22 : (fun (c : Cmd) (c1 : Cmd) (v0 : State) (s : State) => inHand 0 0x16 c s ∧ c.fin = none ∧ s.ecc = [] ∧ c1 = { c with long := true, ntAcc := BitVec.ofNat 32 s.ntNs } ∧ c.prog = 0 ∧ v0 = s.accept 0 c ∧ (s.sig.ops < 48 ∨ 24 < c.fld 8 0 13)) (cmd5 [(0, 0x16), (8, 2), (0x10, 0x40), (0x14, 0x10), (0x18, 0x80), (0x1C, 0x10)]) ({ cmd5 [(0, 0x16), (8, 2), (0x10, 0x40), (0x14, 0x10), (0x18, 0x80), (0x1C, 0x10)] with long := true, ntAcc := BitVec.ofNat 32 (sOp).ntNs }) (State.accept ((fun (u : State) => { u with sig := { u.sig with ops := 47 } }) (sEng 0 (cmd5 [(0, 0x16), (8, 2), (0x10, 0x40), (0x14, 0x10), (0x18, 0x80), (0x1C, 0x10)]) (volat (atMem 0x1000000040 [1, 0] (sSigOn sOp))))) 0 (cmd5 [(0, 0x16), (8, 2), (0x10, 0x40), (0x14, 0x10), (0x18, 0x80), (0x1C, 0x10)])) ((fun (u : State) => { u with sig := { u.sig with ops := 47 } }) (sEng 0 (cmd5 [(0, 0x16), (8, 2), (0x10, 0x40), (0x14, 0x10), (0x18, 0x80), (0x1C, 0x10)]) (volat (atMem 0x1000000040 [1, 0] (sSigOn sOp))))) := by decide +kernel

theorem witness_SignalSlots_23 : (fun (c : Cmd) (f : Final) (s : State) => inHand 0 0x16 c s ∧ c.fin = some f ∧ s.ecc = []) ({ cmd5 [(0, 0x16), (8, 1)] with fin := some ⟨0x22, 0, []⟩ }) (⟨0x22, 0, []⟩) (sEng 0 { cmd5 [(0, 0x16), (8, 1)] with fin := some ⟨0x22, 0, []⟩ } (sSigOn sOp)) := by decide +kernel

theorem witness_SignalSlots_24 : (fun (s : State) => (s.hand 0 = none ∨ s.running = false)) (sOp) := by decide +kernel

theorem witness_SignalSlots_25 : (fun (p : Nat) (r : Nat) (s : State) => s.running = true ∧ s.acts = true ∧ s.tb.locked = true ∧ s.slotRuns 0 = none ∧ s.raw % 200 = 0 ∧ s.ecc = [] ∧ s.slotServes 0 = some p ∧ s.ownWork 0 p = false ∧ s.ringTurn 0 p = some r ∧ s.ringLong r = false ∧ s.firstCost (s.headCmd (BitVec.ofNat 15 r)) ≤ 48 ∧ (s.ctx (BitVec.ofNat 15 r)).st = RingSt.busy ∧ s.takeStep (BitVec.ofNat 15 r) true (engKind 0) = TakeStep.go ∧ engKind 0 (s.headCmd (BitVec.ofNat 15 r)) s = OpKind.short) (3) (5) ((fun (u : State) => { u with rings := { u.rings with ctx := [(5, ctx5 0)] } }) (withFlds [(F.PART_CFG_WORK_CONSERVE, 1)] (sSigOn sOp))) := by decide +kernel

theorem witness_SignalSlots_26 : (fun (e : EngineId) (p : Nat) (r : Nat) (s : State) => s.running = true ∧ s.acts = true ∧ s.tb.locked = true ∧ s.slotRuns e.val = some p ∧ s.hand e.val = none ∧ s.ecc = [] ∧ s.ringTurn e.val p = some r ∧ (e ≠ 0 ∨ (s.ringLong r = false ∧ s.firstCost (s.headCmd (BitVec.ofNat 15 r)) ≤ s.sig.ops)) ∧ (s.ctx (BitVec.ofNat 15 r)).st = RingSt.busy ∧ s.takeStep (BitVec.ofNat 15 r) true (engKind e.val) = TakeStep.go ∧ engKind e.val (s.headCmd (BitVec.ofNat 15 r)) s = OpKind.short) (0) (3) (5) ((fun (u : State) => { u with sig := { u.sig with ops := 40 }, rings := { u.rings with ctx := [(5, ctx5 0)], lastPart := [(0, 3)], slotRaw := [(0, 1000)] } }) (withFlds [(F.PART_CFG_WORK_CONSERVE, 1)] (sSigOn sOp))) := by decide +kernel

theorem witness_SignalSlots_27 : (fun (p : Nat) (r : Nat) (s : State) => s.running = true ∧ s.acts = true ∧ s.tb.locked = true ∧ s.slotRuns 0 = some p ∧ s.hand 0 = none ∧ s.readyRings 0 p = [r] ∧ s.ringTurn 0 p = some r ∧ s.ringLong r = false ∧ s.sig.ops < s.firstCost (s.headCmd (BitVec.ofNat 15 r))) (3) (5) ((fun (u : State) => { u with sig := { u.sig with ops := 0 }, rings := { u.rings with ctx := [(5, ctx5 0)], lastPart := [(0, 3)], slotRaw := [(0, 1000)] } }) (withFlds [(F.PART_CFG_WORK_CONSERVE, 1)] (sSigOn sOp))) := by decide +kernel

theorem witness_GatewayGroups_1 : (fun (c : Cmd) (g : Nat) (s : State) => inHand 0x11 0x10 c s ∧ c.headerOk = true ∧ g = c.fld 8 0 14 ∧ c.fld 8 14 2 = 0 ∧ c.fld 8 18 14 = 0 ∧ c.fld 0xC 20 12 = 0 ∧ c.zeroFrom 0x10 = true ∧ g < s.rd F.GW_GROUP_COUNT_COUNT ∧ (s.gwPart g = (s.cmdPart c).toNat ∨ (s.ctx c.ring).mp = true) ∧ c.fld 8 16 1 = 1) (cmd5 [(0, 0x10), (8, 0x30001), (0xC, 700)]) (1) (sEng 0x11 (cmd5 [(0, 0x10), (8, 0x30001), (0xC, 700)]) sGw) := by decide +kernel

theorem witness_GatewayGroups_2 : (fun (c : Cmd) (g : Nat) (v0 : State) (s : State) => inHand 0x11 0x10 c s ∧ c.headerOk = true ∧ g = c.fld 8 0 14 ∧ c.fld 8 14 2 = 0 ∧ c.fld 8 18 14 = 0 ∧ c.fld 0xC 20 12 = 0 ∧ c.zeroFrom 0x10 = true ∧ g < s.rd F.GW_GROUP_COUNT_COUNT ∧ (s.gwPart g = (s.cmdPart c).toNat ∨ (s.ctx c.ring).mp = true) ∧ c.fld 8 16 1 = 0 ∧ v0 = (if c.fld 8 17 1 = 1 then (s.setGw g 0 18 1 0).setGw g 8 0 20 (c.fld 0xC 0 20) else s.setGw g 0 18 1 0)) (cmd5 [(0, 0x10), (8, 1)]) (1) (State.setGw (sEng 0x11 (cmd5 [(0, 0x10), (8, 1)]) { sGw with sig := { sGw.sig with groups := [(1, 5)] } }) 1 0 18 1 0) (sEng 0x11 (cmd5 [(0, 0x10), (8, 1)]) { sGw with sig := { sGw.sig with groups := [(1, 5)] } }) := by decide +kernel

theorem witness_GatewayGroups_3 : (fun (g : Nat) (h : Nat) (s : State) => s.ecc = [] ∧ s.pairOn = false ∧ h < 2 ^ 20 ∧ inDram (s.gwGroup g) 32 = true) (1) (700) (sGw) := by decide +kernel

theorem witness_GatewayGroups_4 : (fun (c : Cmd) (g : Nat) (s : State) => inHand 0x11 0x10 c s ∧ c.headerOk = true ∧ g = c.fld 8 0 14 ∧ c.fld 8 14 2 = 0 ∧ c.fld 8 18 14 = 0 ∧ c.fld 0xC 20 12 = 0 ∧ c.zeroFrom 0x10 = true ∧ g < s.rd F.GW_GROUP_COUNT_COUNT ∧ s.gwPart g ≠ (s.cmdPart c).toNat ∧ (s.ctx c.ring).mp = false) (cmd5 [(0, 0x10), (8, 0x10000)]) (0) (sEng 0x11 (cmd5 [(0, 0x10), (8, 0x10000)]) (atMem 0x1000100004 [0x80804] sGw)) := by decide +kernel

theorem witness_GatewayGroups_5 : (fun (c : Cmd) (s : State) => inHand 0x11 0x10 c s ∧ (c.headerOk = false ∨ c.fld 8 14 2 ≠ 0 ∨ c.fld 8 18 14 ≠ 0 ∨ c.fld 0xC 20 12 ≠ 0 ∨ c.zeroFrom 0x10 = false ∨ s.rd F.GW_GROUP_COUNT_COUNT ≤ c.fld 8 0 14)) (cmd5 [(0, 0x10), (8, 2)]) (sEng 0x11 (cmd5 [(0, 0x10), (8, 2)]) sGw) := by decide +kernel

theorem witness_GatewayGroups_6 : (fun (s : State) => (s.hand 0x11 = none ∨ s.running = false)) (sGw) := by decide +kernel

theorem witness_GatewayGroups_7 : (fun (c : Cmd) (s : State) => s.hand 0x11 = some c ∧ (c.opcode ≠ 0x10 ∨ s.cmdHeld c = true)) (cmd5 [(0, 0), (8, 1)]) (sEng 0x11 (cmd5 [(0, 0), (8, 1)]) sGw) := by decide +kernel

theorem witness_GatewayGroups_8 : (fun (p : Nat) (v0 : State) (s : State) => s.running = true ∧ s.acts = true ∧ s.tb.locked = true ∧ s.slotRuns 0x11 = none ∧ s.raw % 200 = 0 ∧ s.slotServes 0x11 = some p ∧ v0 = { s with rings := { s.rings with lastPart := Sparse.insert s.rings.lastPart 0x11 p, slotRaw := Sparse.insert s.rings.slotRaw 0x11 s.raw } }) (3) ((fun (u : State) => { u with rings := { u.rings with lastPart := Sparse.insert u.rings.lastPart 0x11 3, slotRaw := Sparse.insert u.rings.slotRaw 0x11 u.raw } }) ((fun (u : State) => { u with tb := { u.tb with locked := true }, sig := { u.sig with groups := [(1, 5)] } }) (withFlds [(F.PART_CFG_WORK_CONSERVE, 1), (F.PE_CTL_EN 3, 1)] (atMem 0x1000500028 [700] sGw)))) ((fun (u : State) => { u with tb := { u.tb with locked := true }, sig := { u.sig with groups := [(1, 5)] } }) (withFlds [(F.PART_CFG_WORK_CONSERVE, 1), (F.PE_CTL_EN 3, 1)] (atMem 0x1000500028 [700] sGw))) := by decide +kernel

theorem witness_GatewayGroups_9 : (fun (g : Nat) (d : Nat) (bs : List Byte) (s : State) => s.ecc = [] ∧ s.gwRoutes g = [] ∧ d = s.memFld (s.gwGroup g) 0 18 ∧ s.dsKind d = 2 ∧ s.pairOn = false ∧ s.memFld (s.gwGroup g + 0x1C) 1 1 = 0 ∧ bs = s.latestBytes d ∧ inDram (s.gwGroup g) 32 = true ∧ s.dsAddr d + 64 ≤ s.gwGroup g ∧ s.bufAddr d 0 + 4 * s.dlen d ≤ s.gwGroup g) (1) (1) (List.replicate 8 0) (atMem 0x1000500020 [1] (sSigOn sOp) |> withFlds [(F.GW_GROUP_COUNT_COUNT, 2), (F.GW_GROUP_BASE_BASE, 0x1000500)]) := by decide +kernel

theorem witness_RackCycles_1 : (fun (w : Nat) (a : RackAcc) (q : List RackAcc) (s : State) => s.rack.cycle = none ∧ s.rackRuns = true ∧ s.rackTurn = some w ∧ s.rackQueue w = a :: q) (2) (⟨some 1, 4, 4, true, 0x56781234, 1, false⟩) ([]) (sRack none [⟨some 1, 4, 4, true, 0x56781234, 1, false⟩]) := by decide +kernel

theorem witness_RackCycles_2 : (fun (w : Nat) (c : Cmd) (s : State) => s.rack.cycle = none ∧ s.rackRuns = true ∧ s.rackTurn = some w ∧ s.rackQueue w = [] ∧ s.rackBlock w = some c ∧ s.ecc = []) (2) ({ cmd5 [(0, 0x11), (8, 2), (0xC, 8), (0x10, 0x40), (0x14, 0x10), (0x18, 4)] with prog := 1 }) (sOut 0x12 { cmd5 [(0, 0x11), (8, 2), (0xC, 8), (0x10, 0x40), (0x14, 0x10), (0x18, 4)] with prog := 1 } (sRack none [])) := by decide +kernel

theorem witness_RackCycles_3 : (fun (w : Nat) (c : Cmd) (s : State) => s.rack.cycle = none ∧ s.rackRuns = true ∧ s.rackTurn = some w ∧ s.rackQueue w = [] ∧ s.rackBlock w = some c ∧ c.opcode = 0x11 ∧ (s.readCheck (c.addr 0x10 + 2 * c.prog) 2 0x12).1 = false) (2) ({ cmd5 [(0, 0x11), (8, 2), (0xC, 8), (0x10, 0x40), (0x14, 0x10), (0x18, 4)] with prog := 1 }) ((fun (u : State) => { u with ecc := [(0x200000008, Ecc.uncorrectable)] }) (sOut 0x12 { cmd5 [(0, 0x11), (8, 2), (0xC, 8), (0x10, 0x40), (0x14, 0x10), (0x18, 4)] with prog := 1 } (sRack none []))) := by decide +kernel

theorem witness_RackCycles_4 : (fun (c : RackCycle) (s : State) => s.rack.cycle = some c ∧ c.stage = .due ∧ s.raw ≤ c.start + s.rd F.RB_CFG_TMO * 500) (busCycle false none 19000 .due) (sRack (some (busCycle false none 19000 .due)) []) := by decide +kernel

theorem witness_RackCycles_5 : (fun (c : RackCycle) (s : State) => s.rack.cycle = some c ∧ c.stage = .strobes ∧ s.raw < c.start + s.rd F.RB_CFG_TMO * 500) (busCycle false none 19000 .strobes) (sRack (some (busCycle false none 19000 .strobes)) []) := by decide +kernel

theorem witness_RackCycles_6 : (fun (c : RackCycle) (a : RackAcc) (h : HartId) (q : List RackAcc) (s : State) => s.rack.cycle = some c ∧ c.stage = .answered false ∧ c.start + 125 ≤ s.raw ∧ s.raw ≤ c.start + 2 * (s.rd F.RB_CFG_TMO * 500) ∧ c.block = none ∧ s.rackQueue c.win = a :: q ∧ a.hart = some h ∧ a.write = false ∧ a.dropped = false ∧ 2 * (a.done + 1) = a.size) (busCycle false none 19875 (.answered false)) (⟨some 1, 2, 4, false, 5, 1, false⟩) (1) ([]) (sRack (some (busCycle false none 19875 (.answered false))) [⟨some 1, 2, 4, false, 5, 1, false⟩]) := by decide +kernel

theorem witness_RackCycles_7 : (fun (c : RackCycle) (a : RackAcc) (q : List RackAcc) (s : State) => s.rack.cycle = some c ∧ c.stage = .answered true ∧ c.start + 125 ≤ s.raw ∧ s.raw ≤ c.start + 2 * (s.rd F.RB_CFG_TMO * 500) ∧ c.block = none ∧ s.rackQueue c.win = a :: q ∧ a.hart = none ∧ s.rd F.RB_PERR_VALID = 0) (busCycle true none 19000 (.answered true)) (⟨none, 4, 2, true, 5, 0, false⟩) ([]) (sRack (some (busCycle true none 19000 (.answered true))) [⟨none, 4, 2, true, 5, 0, false⟩]) := by decide +kernel

theorem witness_RackCycles_8 : (fun (c : RackCycle) (o : Nat) (s : State) => s.rack.cycle = some c ∧ (((c.stage = .answered false ∧ o = 0 ∧ c.start + 125 ≤ s.raw) ∨ (c.stage = .answered true ∧ o = 1 ∧ c.start + 125 ≤ s.raw) ∨ (c.stage = .released ∧ o = 2))) ∧ s.raw ≤ c.start + 2 * (s.rd F.RB_CFG_TMO * 500)) (busCycle false none 10000 .released) (2) (sRack (some (busCycle false none 10000 .released)) [⟨some 1, 2, 4, false, 5, 1, false⟩]) := by decide +kernel

theorem witness_RackCycles_9 : (fun (c : RackCycle) (a : RackAcc) (q : List RackAcc) (s : State) => s.rackQueue c.win = a :: q ∧ 2 * (a.done + 1) < a.size ∧ a.write = false) (busCycle false none 19000 (.answered false)) (⟨some 1, 2, 4, false, 5, 0, false⟩) ([]) (sRack none [⟨some 1, 2, 4, false, 5, 0, false⟩]) := by decide +kernel

theorem witness_RackCycles_10 : (fun (c : RackCycle) (a : RackAcc) (h : HartId) (o : Nat) (q : List RackAcc) (s : State) => s.rackQueue c.win = a :: q ∧ a.hart = some h ∧ a.dropped = false ∧ (o = 1 ∨ o = 2) ∧ s.rd F.RB_AERR_VALID = 0 ∧ c.win < 16) (busCycle false none 19000 (.answered true)) (⟨some 1, 2, 4, false, 5, 0, false⟩) (1) (1) ([]) (sRack none [⟨some 1, 2, 4, false, 5, 0, false⟩]) := by decide +kernel

theorem witness_RackCycles_11 : (fun (c : RackCycle) (a : RackAcc) (h : HartId) (q : List RackAcc) (s : State) => s.rackQueue c.win = a :: q ∧ a.hart = some h ∧ a.dropped = false ∧ a.write = true ∧ 2 * (a.done + 1) = a.size) (busCycle true none 19000 (.answered false)) (⟨some 3, 2, 4, true, 5, 1, false⟩) (3) ([]) (sRack none [⟨some 3, 2, 4, true, 5, 1, false⟩]) := by decide +kernel

theorem witness_RackCycles_12 : (fun (c : RackCycle) (d : Cmd) (s : State) => s.rack.cycle = some c ∧ c.stage = .answered false ∧ c.start + 125 ≤ s.raw ∧ s.raw ≤ c.start + 2 * (s.rd F.RB_CFG_TMO * 500) ∧ c.block = some (d.ring, d.pos) ∧ s.rings.out = [d] ∧ c.write = false ∧ d.prog + 1 < rbCount d) (busCycle false (some (5, 0)) 19000 (.answered false)) (cmd5 [(0, 0x10), (8, 2), (0xC, 4), (0x10, 0x40), (0x14, 0x10), (0x18, 4)]) (sOut 0x12 (cmd5 [(0, 0x10), (8, 2), (0xC, 4), (0x10, 0x40), (0x14, 0x10), (0x18, 4)]) (sRack (some (busCycle false (some (5, 0)) 19000 (.answered false))) [])) := by decide +kernel

theorem witness_RackCycles_13 : (fun (a : Nat) (s : State) => s.ecc = [] ∧ s.pairOn = false ∧ inDram a 2 = true) (0x1000000040) (sOp) := by decide +kernel

theorem witness_RackCycles_14 : (fun (c : RackCycle) (d : Cmd) (s : State) => s.rack.cycle = some c ∧ c.stage = .answered false ∧ c.start + 125 ≤ s.raw ∧ s.raw ≤ c.start + 2 * (s.rd F.RB_CFG_TMO * 500) ∧ c.block = some (d.ring, d.pos) ∧ s.rings.out = [d] ∧ c.write = true ∧ d.prog + 1 = rbCount d) (busCycle true (some (5, 0)) 19000 (.answered false)) (cmd5 [(0, 0x11), (8, 2), (0xC, 4), (0x10, 0x40), (0x14, 0x10), (0x18, 1)]) (sOut 0x12 (cmd5 [(0, 0x11), (8, 2), (0xC, 4), (0x10, 0x40), (0x14, 0x10), (0x18, 1)]) (sRack (some (busCycle true (some (5, 0)) 19000 (.answered false))) [])) := by decide +kernel

theorem witness_RackCycles_15 : (fun (c : RackCycle) (d : Cmd) (o : Nat) (s : State) => s.rack.cycle = some c ∧ ((c.stage = .answered true ∧ o = 1 ∧ c.start + 125 ≤ s.raw) ∨ (c.stage = .released ∧ o = 2)) ∧ s.raw ≤ c.start + 2 * (s.rd F.RB_CFG_TMO * 500) ∧ c.block = some (d.ring, d.pos) ∧ s.rings.out = [d]) (busCycle true (some (5, 0)) 19000 (.answered true)) (cmd5 [(0, 0x11), (8, 2), (0xC, 4), (0x10, 0x40), (0x14, 0x10), (0x18, 1)]) (1) (sOut 0x12 (cmd5 [(0, 0x11), (8, 2), (0xC, 4), (0x10, 0x40), (0x14, 0x10), (0x18, 1)]) (sRack (some (busCycle true (some (5, 0)) 19000 (.answered true))) [])) := by decide +kernel

theorem witness_RackCycles_16 : (fun (c : RackCycle) (s : State) => s.rack.cycle = some c ∧ c.stage = .strobes ∧ c.start + s.rd F.RB_CFG_TMO * 500 ≤ s.raw) (busCycle false none 15000 .strobes) (sRack (some (busCycle false none 15000 .strobes)) []) := by decide +kernel

theorem witness_RackCycles_17 : (fun (c : RackCycle) (s : State) => s.rack.cycle = some c ∧ c.stage = .released ∧ c.start + 2 * (s.rd F.RB_CFG_TMO * 500) ≤ s.raw) (busCycle false none 10000 .released) (sRack (some (busCycle false none 10000 .released)) []) := by decide +kernel

theorem witness_RackCycles_18 : (fun (c : RackCycle) (b : Bool) (s : State) => s.rack.cycle = some c ∧ ((c.stage = RackStage.due ∧ b = false ∧ c.start + s.rd F.RB_CFG_TMO * 500 ≤ s.raw) ∨ ((c.stage = RackStage.answered false ∨ c.stage = RackStage.answered true) ∧ b = true ∧ c.start + 2 * (s.rd F.RB_CFG_TMO * 500) ≤ s.raw))) (busCycle false none 15000 .due) (false) (sRack (some (busCycle false none 15000 .due)) []) := by decide +kernel

theorem witness_RackCycles_19 : (fun (c : RackCycle) (o : Nat) (s : State) => s.rack.cycle = some c ∧ c.stage = .pulse o false ∧ c.start + 5000 ≤ s.raw) (busCycle true none 15000 (.pulse 2 false)) (2) (sRack (some (busCycle true none 15000 (.pulse 2 false))) [⟨none, 4, 2, true, 5, 0, false⟩]) := by decide +kernel

theorem witness_RackCycles_20 : (fun (c : RackCycle) (d : Cmd) (s : State) => s.rack.cycle = some c ∧ c.stage = .pulse 2 true ∧ c.start + 5000 ≤ s.raw ∧ c.block = some (d.ring, d.pos) ∧ s.rings.out = [d]) (busCycle false (some (5, 0)) 15000 (.pulse 2 true)) (cmd5 [(0, 0x10), (8, 2)]) (sOut 0x12 (cmd5 [(0, 0x10), (8, 2)]) (sRack (some (busCycle false (some (5, 0)) 15000 (.pulse 2 true))) [])) := by decide +kernel

theorem witness_RackCycles_21 : (fun (r : Nat) (s : State) => s.rack.waitEnd = some r ∧ r ≤ s.raw) (20000) ({ sRack none [] with rack := { (sRack none []).rack with ready := false, waitEnd := some 20000 } }) := by decide +kernel

theorem witness_RackCycles_22 : (fun (c : Cmd) (s : State) => inHand 0x12 0x10 c s ∧ c.fin = none) (cmd5 [(0, 0x10), (8, 2), (0x18, 4)]) (sEng 0x12 (cmd5 [(0, 0x10), (8, 2), (0x18, 4)]) (sRack none [])) := by decide +kernel

theorem witness_RackCycles_23 : (fun (c : Cmd) (s : State) => inHand 0x12 0x11 c s ∧ c.fin = none) (cmd5 [(0, 0x11), (8, 2), (0x18, 4)]) (sEng 0x12 (cmd5 [(0, 0x11), (8, 2), (0x18, 4)]) (sRack none [])) := by decide +kernel

theorem witness_RackCycles_24 : (fun (c : Cmd) (f : Final) (s : State) => inHand 0x12 0x10 c s ∧ c.fin = some f) ({ cmd5 [(0, 0x10), (8, 2)] with fin := some ⟨0x21, 0, []⟩ }) (⟨0x21, 0, []⟩) (sEng 0x12 { cmd5 [(0, 0x10), (8, 2)] with fin := some ⟨0x21, 0, []⟩ } (sRack none [])) := by decide +kernel

theorem witness_RackCycles_25 : (fun (c : Cmd) (f : Final) (s : State) => inHand 0x12 0x11 c s ∧ c.fin = some f) ({ cmd5 [(0, 0x11), (8, 2)] with fin := some ⟨0x21, 0, []⟩ }) (⟨0x21, 0, []⟩) (sEng 0x12 { cmd5 [(0, 0x11), (8, 2)] with fin := some ⟨0x21, 0, []⟩ } (sRack none [])) := by decide +kernel

theorem witness_RackCycles_26 : (fun (s : State) => (s.hand 0x12 = none ∨ s.running = false)) (sRack none []) := by decide +kernel

theorem witness_RackCycles_27 : (fun (s : State) => s.rack.cycle = none ∧ (s.rackRuns = false ∨ s.rackTurn = none)) (sRack none []) := by decide +kernel

theorem witness_RackCycles_28 : (fun (s : State) => s.rack.cycle = none) (sRack none []) := by decide +kernel

theorem witness_RackCycles_29 : (fun (c : RackCycle) (o : Nat) (b : Bool) (s : State) => s.rack.cycle = some c ∧ c.stage = .pulse o b) (busCycle false none 19000 (.pulse 1 true)) (1) (true) (sRack (some (busCycle false none 19000 (.pulse 1 true))) []) := by decide +kernel

theorem witness_RackCycles_30 : (fun (c : RackCycle) (o : Nat) (b : Bool) (s : State) => s.rack.cycle = some c ∧ c.stage = .pulse o b ∧ s.raw < c.start + 5000) (busCycle false none 19000 (.pulse 1 true)) (1) (true) (sRack (some (busCycle false none 19000 (.pulse 1 true))) []) := by decide +kernel

theorem witness_RackCycles_31 : (fun (s : State) => Option.all (fun r => decide (s.raw < r)) s.rack.waitEnd = true) (sRack none []) := by decide +kernel

theorem witness_CycleCommands_1 : (fun (k : Fin 64) (p : Nat) (s : State) => s.running = true ∧ s.wdtDue k.val = true ∧ (List.range k.val).any s.wdtDue = false ∧ s.rd (F.TASK_CTL_WDT_ACTION k.val) = 1 ∧ p = s.taskPart k.val ∧ s.rd F.CYC_OVR_VALID = 1) (3) (5) (withFlds [(F.CYC_OVR_VALID, 1)] (sTask 1 sOp)) := by decide +kernel

theorem witness_CycleCommands_2 : (fun (k : Fin 64) (p : Nat) (s : State) => s.running = true ∧ s.wdtDue k.val = true ∧ (List.range k.val).any s.wdtDue = false ∧ s.rd (F.TASK_CTL_WDT_ACTION k.val) = 0 ∧ p = s.taskPart k.val ∧ s.ctl p ≠ 3 ∧ s.rd F.CYC_OVR_VALID = 0) (3) (5) (sTask 0 sOp) := by decide +kernel

theorem witness_CycleCommands_3 : (fun (k : Fin 64) (p : Nat) (act : Nat) (v0 : State) (s : State) => s.running = true ∧ s.wdtDue k.val = true ∧ (List.range k.val).any s.wdtDue = false ∧ p = s.taskPart k.val ∧ act = s.rd (F.TASK_CTL_WDT_ACTION k.val) ∧ v0 = State.raise (if s.rd F.CYC_OVR_VALID = 1 then (s.taskTo k.val 1 false).satAdd (F.TASK_STAT_OVERRUNS k.val) 1 else ((((s.taskTo k.val 1 false).satAdd (F.TASK_STAT_OVERRUNS k.val) 1).wr F.CYC_OVR_TASK k.val).wr F.CYC_OVR_PART p).wr F.CYC_OVR_VALID 1) 486 [BitVec.ofNat 32 (k.val + 256 * p + 65536 * act), BitVec.ofNat 32 (s.rd (F.TASK_CYCLE_CYCLE k.val) + 2 ^ 32 - 1)]) (3) (5) (0) (State.raise (((((sTask 0 sOp).taskTo 3 1 false).satAdd (F.TASK_STAT_OVERRUNS 3) 1).wr F.CYC_OVR_TASK 3).wr F.CYC_OVR_PART 5 |>.wr F.CYC_OVR_VALID 1) 486 [BitVec.ofNat 32 (3 + 256 * 5), BitVec.ofNat 32 ((sTask 0 sOp).rd (F.TASK_CYCLE_CYCLE 3) + 2 ^ 32 - 1)]) (sTask 0 sOp) := by decide +kernel

theorem witness_CycleCommands_4 : (fun (k : Fin 64) (s : State) => (s.wdtDue k.val = false ∨ s.running = false ∨ (List.range k.val).any s.wdtDue = true)) (4) (sTask 0 sOp) := by decide +kernel

theorem witness_CycleCommands_5 : (fun (c : Cmd) (p : Nat) (k : Nat) (s : State) => inHand 0x13 0x10 c s ∧ c.headerOk = true ∧ c.fld 8 10 22 = 0 ∧ c.zeroFrom 0xC = true ∧ p = c.fld 8 0 8 ∧ k = c.fld 8 8 2 ∧ (k = 1 ∨ k = 2) ∧ s.cycOwner c p = true) (cmd5 [(0, 0x10), (8, 0x203)]) (3) (2) (sEng 0x13 (cmd5 [(0, 0x10), (8, 0x203)]) { sOp with parts := { sOp.parts with locks := [(7, LockSt.held 3 .lane 0)] } }) := by decide +kernel

theorem witness_CycleCommands_6 : (fun (c : Cmd) (s : State) => inHand 0x13 0x10 c s ∧ c.headerOk = true ∧ c.fld 8 10 22 = 0 ∧ c.zeroFrom 0xC = true ∧ (c.fld 8 8 2 = 1 ∨ c.fld 8 8 2 = 2) ∧ s.cycOwner c (c.fld 8 0 8) = false) (cmd5 [(0, 0x10), (8, 0x204)]) (sEng 0x13 (cmd5 [(0, 0x10), (8, 0x204)]) sOp) := by decide +kernel

theorem witness_CycleCommands_7 : (fun (c : Cmd) (s : State) => inHand 0x13 0x10 c s ∧ (c.headerOk = false ∨ c.fld 8 10 22 ≠ 0 ∨ c.zeroFrom 0xC = false ∨ c.fld 8 8 2 = 0 ∨ c.fld 8 8 2 = 3)) (cmd5 [(0, 0x10), (8, 0x303)]) (sEng 0x13 (cmd5 [(0, 0x10), (8, 0x303)]) sOp) := by decide +kernel

theorem witness_CycleCommands_8 : (fun (c : Cmd) (s : State) => inHand 0x13 0x11 c s ∧ (c.headerOk = false ∨ c.fld 8 8 24 ≠ 0 ∨ c.zeroFrom 0xC = false)) (cmd5 [(0, 0x11), (8, 0x103)]) (sEng 0x13 (cmd5 [(0, 0x11), (8, 0x103)]) sOp) := by decide +kernel

theorem witness_CycleCommands_9 : (fun (c : Cmd) (p : Nat) (s : State) => inHand 0x13 0x11 c s ∧ c.headerOk = true ∧ c.fld 8 8 24 = 0 ∧ c.zeroFrom 0xC = true ∧ p = c.fld 8 0 8 ∧ s.cycOwner c p = true) (cmd5 [(0, 0x11), (8, 3)]) (3) (withFlds [(F.CYC_PART_STATE 3, 2)] (sEng 0x13 (cmd5 [(0, 0x11), (8, 3)]) sOp)) := by decide +kernel

theorem witness_CycleCommands_10 : (fun (c : Cmd) (p : Nat) (s : State) => inHand 0x13 0x11 c s ∧ c.headerOk = true ∧ c.fld 8 8 24 = 0 ∧ c.zeroFrom 0xC = true ∧ p = c.fld 8 0 8 ∧ s.cycOwner c p = false) (cmd5 [(0, 0x11), (8, 4)]) (4) (withFlds [(F.CYC_PART_STATE 3, 2)] (sEng 0x13 (cmd5 [(0, 0x11), (8, 4)]) sOp)) := by decide +kernel

theorem witness_CycleCommands_11 : (fun (c : Cmd) (k : Nat) (dir : Nat) (bit : Nat) (width : Nat) (ofs : Nat) (s : State) => inHand 0x13 0x12 c s ∧ c.headerOk = true ∧ k = c.fld 8 0 6 ∧ dir = c.fld 8 6 1 ∧ c.fld 8 7 1 = 0 ∧ bit = c.fld 8 8 6 ∧ width = c.fld 8 14 6 ∧ ofs = c.fld 0xC 0 17 ∧ c.fld 8 20 12 = 0 ∧ c.fld 0xC 17 15 = 0 ∧ c.zeroFrom 0x18 = true ∧ s.taskEn k = true ∧ s.cycOwner c (s.taskPart k) = true ∧ ofs % 8 = 0 ∧ ofs + 8 ≤ (if dir = 0 then s.inLen k else s.outLen k) ∧ bit + width + 1 ≤ 64 ∧ (dir = 0 → s.taskErr k = false) ∧ s.rd F.CYC_FORCES_COUNT = 0 ∧ ((∀ f ∈ List.range 1024, s.rd (F.CYC_FORCE0_EN f) = 0)) ∧ 0 < s.rd (F.CYC_PART_FORCE_MAX (s.taskPart k)) ∧ s.rd F.SIG_FORCES_FORCES = 0) (cmd5 [(0, 0x12), (8, 0x1C043), (0xC, 16), (0x10, 9), (0x14, 8)]) (3) (1) (0) (7) (16) (withFlds [(F.TASK_OUTMASK_LO_OUTMASK 3, 1), (F.TASK_CTL_PART 3, 3), (F.CYC_PART_FORCE_MAX 3, 2), (F.CYC_STAT_CFG_ERR, 1)] (sEng 0x13 (cmd5 [(0, 0x12), (8, 0x1C043), (0xC, 16), (0x10, 9), (0x14, 8)]) (sTask 0 sOp))) := by decide +kernel

theorem witness_CycleCommands_12 : (fun (c : Cmd) (k : Nat) (f : Nat) (s : State) => inHand 0x13 0x12 c s ∧ c.headerOk = true ∧ k = c.fld 8 0 6 ∧ c.fld 8 7 1 = 1 ∧ c.fld 8 20 12 = 0 ∧ c.fld 0xC 17 15 = 0 ∧ c.zeroFrom 0x18 = true ∧ s.taskEn k = true ∧ s.cycOwner c (s.taskPart k) = true ∧ c.fld 0xC 0 17 % 8 = 0 ∧ c.fld 0xC 0 17 + 8 ≤ (if c.fld 8 6 1 = 0 then s.inLen k else s.outLen k) ∧ c.fld 8 8 6 + c.fld 8 14 6 + 1 ≤ 64 ∧ (c.fld 8 6 1 = 0 → s.taskErr k = false) ∧ s.forceFind k (c.fld 8 6 1) (c.fld 0xC 0 17) (c.fld 8 8 6) = some f) (cmd5 [(0, 0x12), (8, 0x1C0C3), (0xC, 16)]) (3) (2) (withFlds [(F.TASK_OUTMASK_LO_OUTMASK 3, 1), (F.TASK_CTL_PART 3, 3), (F.CYC_FORCES_COUNT, 1), (F.CYC_FORCE0_EN 2, 1), (F.CYC_FORCE0_OFS 2, 16), (F.CYC_FORCE0_DIR 2, 1), (F.CYC_FORCE1_TASK 2, 3)] (sEng 0x13 (cmd5 [(0, 0x12), (8, 0x1C0C3), (0xC, 16)]) (sTask 0 sOp))) := by decide +kernel

theorem witness_CycleCommands_13 : (fun (c : Cmd) (k : Nat) (dir : Nat) (bit : Nat) (ofs : Nat) (f : Nat) (s : State) => inHand 0x13 0x12 c s ∧ c.headerOk = true ∧ k = c.fld 8 0 6 ∧ dir = c.fld 8 6 1 ∧ bit = c.fld 8 8 6 ∧ ofs = c.fld 0xC 0 17 ∧ c.fld 8 20 12 = 0 ∧ c.fld 0xC 17 15 = 0 ∧ c.zeroFrom 0x18 = true ∧ s.taskEn k = true ∧ s.cycOwner c (s.taskPart k) = true ∧ ofs % 8 = 0 ∧ ofs + 8 ≤ (if dir = 0 then s.inLen k else s.outLen k) ∧ bit + c.fld 8 14 6 + 1 ≤ 64 ∧ (dir = 0 → s.taskErr k = false) ∧ c.fld 8 7 1 = 0 ∧ s.forceFind k dir ofs bit = some f) (cmd5 [(0, 0x12), (8, 0x1C043), (0xC, 16), (0x10, 9), (0x14, 8)]) (3) (1) (0) (16) (2) (withFlds [(F.TASK_OUTMASK_LO_OUTMASK 3, 1), (F.TASK_CTL_PART 3, 3), (F.CYC_FORCES_COUNT, 1), (F.CYC_FORCE0_EN 2, 1), (F.CYC_FORCE0_OFS 2, 16), (F.CYC_FORCE0_DIR 2, 1), (F.CYC_FORCE1_TASK 2, 3)] (sEng 0x13 (cmd5 [(0, 0x12), (8, 0x1C043), (0xC, 16), (0x10, 9), (0x14, 8)]) (sTask 0 sOp))) := by decide +kernel

theorem witness_CycleCommands_14 : (fun (c : Cmd) (k : Nat) (dir : Nat) (bit : Nat) (ofs : Nat) (f : Nat) (s : State) => inHand 0x13 0x12 c s ∧ c.headerOk = true ∧ k = c.fld 8 0 6 ∧ dir = c.fld 8 6 1 ∧ bit = c.fld 8 8 6 ∧ ofs = c.fld 0xC 0 17 ∧ c.fld 8 20 12 = 0 ∧ c.fld 0xC 17 15 = 0 ∧ c.zeroFrom 0x18 = true ∧ s.taskEn k = true ∧ s.cycOwner c (s.taskPart k) = true ∧ ofs % 8 = 0 ∧ ofs + 8 ≤ (if dir = 0 then s.inLen k else s.outLen k) ∧ bit + c.fld 8 14 6 + 1 ≤ 64 ∧ (dir = 0 → s.taskErr k = false) ∧ c.fld 8 7 1 = 0 ∧ s.forceFind k dir ofs bit = none ∧ (List.range 1024).find? (fun f => !s.on (F.CYC_FORCE0_EN f)) = some f ∧ ((List.range 1024).filter (fun x => s.on (F.CYC_FORCE0_EN x) && s.rd (F.CYC_FORCE1_PART x) == s.taskPart k)).length < s.rd (F.CYC_PART_FORCE_MAX (s.taskPart k))) (cmd5 [(0, 0x12), (8, 0x1C043), (0xC, 8), (0x10, 9), (0x14, 8)]) (3) (1) (0) (8) (0) (withFlds [(F.TASK_OUTMASK_LO_OUTMASK 3, 1), (F.TASK_CTL_PART 3, 3), (F.CYC_FORCES_COUNT, 1), (F.CYC_FORCE0_EN 2, 1), (F.CYC_FORCE0_OFS 2, 16), (F.CYC_FORCE0_DIR 2, 1), (F.CYC_FORCE1_TASK 2, 3), (F.CYC_PART_FORCE_MAX 3, 2)] (sEng 0x13 (cmd5 [(0, 0x12), (8, 0x1C043), (0xC, 8), (0x10, 9), (0x14, 8)]) (sTask 0 sOp))) := by decide +kernel

theorem witness_CycleCommands_15 : (fun (c : Cmd) (k : Nat) (dir : Nat) (bit : Nat) (ofs : Nat) (s : State) => inHand 0x13 0x12 c s ∧ c.headerOk = true ∧ k = c.fld 8 0 6 ∧ dir = c.fld 8 6 1 ∧ bit = c.fld 8 8 6 ∧ ofs = c.fld 0xC 0 17 ∧ c.fld 8 20 12 = 0 ∧ c.fld 0xC 17 15 = 0 ∧ c.zeroFrom 0x18 = true ∧ s.taskEn k = true ∧ s.cycOwner c (s.taskPart k) = true ∧ ofs % 8 = 0 ∧ ofs + 8 ≤ (if dir = 0 then s.inLen k else s.outLen k) ∧ bit + c.fld 8 14 6 + 1 ≤ 64 ∧ (dir = 0 → s.taskErr k = false) ∧ c.fld 8 7 1 = 0 ∧ s.forceFind k dir ofs bit = none ∧ ((List.range 1024).find? (fun f => !s.on (F.CYC_FORCE0_EN f)) = none ∨ s.rd (F.CYC_PART_FORCE_MAX (s.taskPart k)) ≤ ((List.range 1024).filter (fun x => s.on (F.CYC_FORCE0_EN x) && s.rd (F.CYC_FORCE1_PART x) == s.taskPart k)).length)) (cmd5 [(0, 0x12), (8, 0x1C043), (0xC, 8), (0x10, 9), (0x14, 8)]) (3) (1) (0) (8) (withFlds [(F.TASK_OUTMASK_LO_OUTMASK 3, 1), (F.TASK_CTL_PART 3, 3), (F.CYC_FORCES_COUNT, 1), (F.CYC_FORCE0_EN 2, 1), (F.CYC_FORCE0_OFS 2, 16), (F.CYC_FORCE0_DIR 2, 1), (F.CYC_FORCE1_TASK 2, 3)] (sEng 0x13 (cmd5 [(0, 0x12), (8, 0x1C043), (0xC, 8), (0x10, 9), (0x14, 8)]) (sTask 0 sOp))) := by decide +kernel

theorem witness_CycleCommands_16 : (fun (c : Cmd) (k : Nat) (dir : Nat) (bit : Nat) (ofs : Nat) (s : State) => inHand 0x13 0x12 c s ∧ c.headerOk = true ∧ k = c.fld 8 0 6 ∧ dir = c.fld 8 6 1 ∧ bit = c.fld 8 8 6 ∧ ofs = c.fld 0xC 0 17 ∧ c.fld 8 20 12 = 0 ∧ c.fld 0xC 17 15 = 0 ∧ c.zeroFrom 0x18 = true ∧ s.taskEn k = true ∧ s.cycOwner c (s.taskPart k) = true ∧ ofs % 8 = 0 ∧ ofs + 8 ≤ (if dir = 0 then s.inLen k else s.outLen k) ∧ bit + c.fld 8 14 6 + 1 ≤ 64 ∧ (dir = 0 → s.taskErr k = false) ∧ c.fld 8 7 1 = 1 ∧ s.forceFind k dir ofs bit = none) (cmd5 [(0, 0x12), (8, 0x1C0C3), (0xC, 8)]) (3) (1) (0) (8) (withFlds [(F.TASK_OUTMASK_LO_OUTMASK 3, 1), (F.TASK_CTL_PART 3, 3), (F.CYC_FORCES_COUNT, 1), (F.CYC_FORCE0_EN 2, 1), (F.CYC_FORCE0_OFS 2, 16), (F.CYC_FORCE0_DIR 2, 1), (F.CYC_FORCE1_TASK 2, 3)] (sEng 0x13 (cmd5 [(0, 0x12), (8, 0x1C0C3), (0xC, 8)]) (sTask 0 sOp))) := by decide +kernel

theorem witness_CycleCommands_17 : (fun (c : Cmd) (k : Nat) (bad : Bool) (s : State) => inHand 0x13 0x12 c s ∧ k = c.fld 8 0 6 ∧ bad = (!c.headerOk || c.fld 8 20 12 != 0 || c.fld 0xC 17 15 != 0 || !c.zeroFrom 0x18 || !s.taskEn k) ∧ (bad = true ∨ s.cycOwner c (s.taskPart k) = false ∨ c.fld 0xC 0 17 % 8 ≠ 0 ∨ (if c.fld 8 6 1 = 0 then s.inLen k else s.outLen k) < c.fld 0xC 0 17 + 8 ∨ 64 < c.fld 8 8 6 + c.fld 8 14 6 + 1 ∨ (c.fld 8 6 1 = 0 ∧ s.taskErr k = true))) (cmd5 [(0, 0x12), (8, 0x1C0C4), (0xC, 8)]) (4) (true) (withFlds [(F.TASK_OUTMASK_LO_OUTMASK 3, 1), (F.TASK_CTL_PART 3, 3), (F.CYC_FORCES_COUNT, 1), (F.CYC_FORCE0_EN 2, 1), (F.CYC_FORCE0_OFS 2, 16), (F.CYC_FORCE0_DIR 2, 1), (F.CYC_FORCE1_TASK 2, 3)] (sEng 0x13 (cmd5 [(0, 0x12), (8, 0x1C0C4), (0xC, 8)]) (sTask 0 sOp))) := by decide +kernel

theorem witness_CycleCommands_18 : (fun (c : Cmd) (p : Nat) (a : Nat) (s : State) => inHand 0x13 0x13 c s ∧ c.headerOk = true ∧ c.fld 8 8 24 = 0 ∧ c.word 0xC = 0 ∧ c.fld 0x14 8 24 = 0 ∧ c.zeroFrom 0x18 = true ∧ p = c.fld 8 0 8 ∧ a = c.addr 0x10 ∧ a % 64 = 0 ∧ s.cycOwner c p = true ∧ s.engineMayWrite a 1024 = true ∧ s.ecc = [] ∧ s.pairOn = false) (cmd5 [(0, 0x13), (8, 3), (0x10, 0x40), (0x14, 0x10)]) (3) (0x1000000040) (volat (sEng 0x13 (cmd5 [(0, 0x13), (8, 3), (0x10, 0x40), (0x14, 0x10)]) sOp)) := by decide +kernel

theorem witness_CycleCommands_19 : (fun (c : Cmd) (p : Nat) (a : Nat) (s : State) => inHand 0x13 0x13 c s ∧ c.headerOk = true ∧ c.fld 8 8 24 = 0 ∧ c.word 0xC = 0 ∧ c.fld 0x14 8 24 = 0 ∧ c.zeroFrom 0x18 = true ∧ p = c.fld 8 0 8 ∧ a = c.addr 0x10 ∧ a % 64 = 0 ∧ s.cycOwner c p = true ∧ s.engineMayWrite a 1024 = true) (cmd5 [(0, 0x13), (8, 3), (0x10, 0x40), (0x14, 0x10)]) (3) (0x1000000040) (volat (sEng 0x13 (cmd5 [(0, 0x13), (8, 3), (0x10, 0x40), (0x14, 0x10)]) sOp)) := by decide +kernel

theorem witness_CycleCommands_20 : (fun (c : Cmd) (bad : Bool) (s : State) => inHand 0x13 0x13 c s ∧ bad = (!c.headerOk || c.fld 8 8 24 != 0 || c.word 0xC != 0 || c.fld 0x14 8 24 != 0 || !c.zeroFrom 0x18 || c.addr 0x10 % 64 != 0) ∧ (bad = true ∨ s.cycOwner c (c.fld 8 0 8) = false ∨ s.engineMayWrite (c.addr 0x10) 1024 = false)) (cmd5 [(0, 0x13), (8, 4), (0x10, 0x40), (0x14, 0x10)]) (false) (volat (sEng 0x13 (cmd5 [(0, 0x13), (8, 4), (0x10, 0x40), (0x14, 0x10)]) sOp)) := by decide +kernel

theorem witness_CycleCommands_21 : (fun (s : State) => (s.hand 0x13 = none ∨ s.running = false)) (sOp) := by decide +kernel

theorem witness_CycleCommands_22 : (fun (s : State) => (s.hand 0x13 = none ∨ s.running = false)) (sOp) := by decide +kernel

theorem witness_CycleCommands_23 : (fun (c : Cmd) (s : State) => s.hand 0x13 = some c ∧ s.cmdHeld c = true) (cmd5 [(0, 0x13), (8, 3), (0x10, 0x40), (0x14, 0x10)]) (withFlds [(F.CORD_STAT_ROLLING, 1), (F.RAT_BASE_BASE 3, 0x1000000), (F.RAT_LIMIT_LIMIT 3, 0x1000000), (F.RAT_CTL_EN 3, 1)] (sEng 0x13 (cmd5 [(0, 0x13), (8, 3), (0x10, 0x40), (0x14, 0x10)]) sOp)) := by decide +kernel

theorem witness_CycleCommands_24 : (fun (r : Nat) (s : State) => s.cyc.idleEnd = some r ∧ s.rd F.CYC_STAT_IDLE = 1 ∧ r ≤ s.raw) (900) (withFlds [(F.CYC_STAT_IDLE, 1)] { sOp with cyc := { sOp.cyc with idleEnd := some 900 } }) := by decide +kernel

theorem witness_CycleCommands_25 : (fun (s : State) => (s.rd F.CYC_STAT_IDLE = 0 ∨ Option.all (fun r => decide (s.raw < r)) s.cyc.idleEnd = true)) ({ sOp with cyc := { sOp.cyc with idleEnd := some 9000 } }) := by decide +kernel

theorem witness_FieldFrames_1 : (fun (s : State) => s.tb.locked = true ∧ s.raw % 4000 = 0 ∧ s.raw ≠ s.fld.frameRaw ∧ s.fld.align = none ∧ s.fld.alignAt = none ∧ s.fld.offp = none ∧ ((∀ i ∈ List.range 58, s.link i = 0 ∨ s.link i = 1)) ∧ s.link 0 = 1) (sFld 0 1 8000 4000 islandZero) := by decide +kernel

theorem witness_FieldFrames_2 : (fun (i : Nat) (s : State) => s.tb.locked = true ∧ s.raw % 4000 = 0 ∧ s.raw ≠ s.fld.frameRaw ∧ s.fld.align = none ∧ s.fld.alignAt = none ∧ s.fld.offp = none ∧ i < 58 ∧ s.link i = 3 ∧ ((∀ k ∈ List.range 58, k ≠ i → s.link k = 0)) ∧ (s.isl i).rearmMask = 0 ∧ (s.isl i).rearmGroup = false ∧ s.funcChange i = none) (17) (sFld 17 3 8000 4000 { islandZero with fresh := true, out := List.replicate 32 1 }) := by decide +kernel

theorem witness_FieldFrames_3 : (fun (s : State) => s.tb.locked = true ∧ s.raw % 4000 = 0 ∧ s.raw ≠ s.fld.frameRaw ∧ (List.range 58).any (fun i => s.link i != 0) = true) (sFld 5 3 8000 4000 { islandZero with outEnd := some 77, sinceTest := 3 }) := by decide +kernel

theorem witness_FieldFrames_4 : (fun (s : State) => (s.tb.locked = false ∨ s.raw % 4000 ≠ 0 ∨ s.raw = s.fld.frameRaw ∨ (List.range 58).any (fun i => s.link i != 0) = false)) (sFld 5 3 8000 8000 islandZero) := by decide +kernel

theorem witness_FieldFrames_5 : (fun (i : Nat) (w0 : State) (s : State) => w0 = s.setIsl i { s.isl i with sinceTest := min ((s.isl i).sinceTest + 1) 16 } ∧ s.link i = 2 ∧ (s.isl i).cfgSent < 4) (17) ((sFld 17 2 8000 4000 { islandZero with cfgSent := 2, sinceTest := 2 }).setIsl 17 { islandZero with cfgSent := 2, sinceTest := 3 }) (sFld 17 2 8000 4000 { islandZero with cfgSent := 2, sinceTest := 2 }) := by decide +kernel

theorem witness_FieldFrames_6 : (fun (i : Nat) (w0 : State) (s : State) => w0 = (s.setIsl i { s.isl i with sinceTest := min ((s.isl i).sinceTest + 1) 16 }).linkFault i false ∧ s.link i = 2 ∧ 4 ≤ (s.isl i).cfgSent ∧ i < 58) (17) (State.linkFault ((sFld 17 2 8000 4000 { islandZero with cfgSent := 4, sinceTest := 2 }).setIsl 17 { islandZero with cfgSent := 4, sinceTest := 3 }) 17 false) (sFld 17 2 8000 4000 { islandZero with cfgSent := 4, sinceTest := 2 }) := by decide +kernel

theorem witness_FieldFrames_7 : (fun (i : Nat) (w0 : State) (s : State) => w0 = s.setIsl i { s.isl i with sinceTest := min ((s.isl i).sinceTest + 1) 16 } ∧ s.link i = 3 ∧ w0.idleFrame i = true ∧ w0.testWork i = true) (5) (sFld 5 3 8000 4000 { islandZero with outEnd := some 77, sinceTest := 16, testLeft := 2, testStep := 1 }) (sFld 5 3 8000 4000 { islandZero with outEnd := some 77, sinceTest := 15, testLeft := 2, testStep := 1 }) := by decide +kernel

theorem witness_FieldFrames_8 : (fun (i : Nat) (f : DownFrame) (s : State) => (s.isl i).down = some f) (17) (⟨.output [1, 0, 1], false, 0, 4, zeros 20⟩) (sFld 17 3 4160 4000 (islDown (.output [1, 0, 1]))) := by decide +kernel

theorem witness_FieldFrames_9 : (fun (f : DownFrame) (u : UpFrame) => f.data.length = 20 ∧ u.data.length = 20) (⟨.test 2, false, 0, 4, zeros 20⟩) (⟨2, true, 9, List.replicate 20 7, 4160, 9⟩) := by decide +kernel

theorem witness_FieldFrames_10 : (fun (i : IslandId) (f : DownFrame) (s : State) => (s.isl i.val).down = some f ∧ f.kind = DownKind.safe ∧ f.align = false ∧ s.fld.frameRaw + 3840 ≤ s.raw ∧ i.val < 16) (5) (⟨.safe, false, 0, 4, zeros 20⟩) (sFld 5 1 7900 4000 (islDown .safe)) := by decide +kernel

theorem witness_FieldFrames_11 : (fun (i : IslandId) (g : Nat) (f : DownFrame) (sets : List Nat) (s : State) => (s.isl i.val).down = some f ∧ f.kind = DownKind.output sets ∧ f.align = false ∧ s.fld.frameRaw + 3840 ≤ s.raw ∧ i.val = 16 + g ∧ g < 8 ∧ (s.isl i.val).ready = true ∧ s.funcChange i.val = none) (17) (1) (⟨.output [1, 0, 1], false, 0, 4, zeros 20⟩) ([1, 0, 1]) (sFld 17 3 7900 4000 (islDown (.output [1, 0, 1]))) := by decide +kernel

theorem witness_FieldFrames_12 : (fun (i : IslandId) (g : Nat) (m : Nat) (grp : Bool) (f : DownFrame) (s : State) => (s.isl i.val).down = some f ∧ f.kind = DownKind.rearm m grp ∧ s.fld.frameRaw + 3840 ≤ s.raw ∧ f.align = false ∧ i.val = 16 + g ∧ g < 8 ∧ (grp = false ∨ (s.isl i.val).grpTrip = false)) (17) (1) (4) (true) (⟨.rearm 4 true, false, 0, 4, zeros 20⟩) ((sFld 17 3 7900 4000 (islDown (.rearm 4 true))).setDio 1 2 { dioZero with latched := true, shut := true }) := by decide +kernel

theorem witness_FieldFrames_13 : (fun (i : IslandId) (f : DownFrame) (s : State) => (s.isl i.val).down = some f ∧ f.kind = DownKind.load ∧ f.align = false ∧ s.fld.frameRaw + 3840 ≤ s.raw ∧ i.val < 16) (5) (⟨.load, false, 0, 4, zeros 20⟩) (sFld 5 2 7900 4000 (islDown .load)) := by decide +kernel

theorem witness_FieldFrames_14 : (fun (i : IslandId) (f : DownFrame) (s : State) => (s.isl i.val).down = some f ∧ f.align = false ∧ s.fld.frameRaw + 3840 ≤ s.raw) (17) (⟨.output [1, 0, 1], false, 0, 4, zeros 20⟩) (sFld 17 3 7900 4000 (islDown (.output [1, 0, 1]))) := by decide +kernel

theorem witness_FieldFrames_15 : (fun (i : IslandId) (f : DownFrame) (s : State) => (s.isl i.val).down = some f ∧ f.align = true ∧ s.fld.frameRaw + 3840 ≤ s.raw) (30) (⟨.safe, true, 0, 4, zeros 20⟩) (sFld 30 3 7900 4000 { islandZero with conf := true, down := some ⟨.safe, true, 0, 4, zeros 20⟩ } |> (fun (u : State) => { u with fld := { u.fld with alignAt := some 7840 } })) := by decide +kernel

theorem witness_FieldFrames_16 : (fun (i : IslandId) (s : State) => ((s.isl i.val).down = none ∨ s.raw < s.fld.frameRaw + 3840)) (5) (sFld 5 1 7900 4000 islandZero) := by decide +kernel

theorem witness_FieldFrames_17 : (fun (i : IslandId) (f : DownFrame) (sets : List Nat) (s : State) => (s.isl i.val).down = some f ∧ f.kind = DownKind.output sets ∧ f.align = false ∧ s.fld.frameRaw + 3840 ≤ s.raw ∧ (s.isl i.val).ready = false) (17) (⟨.output [1, 0, 1], false, 0, 4, zeros 20⟩) ([1, 0, 1]) (sFld 17 3 7900 4000 { islDown (.output [1, 0, 1]) with ready := false, safe := true }) := by decide +kernel

theorem witness_FieldFrames_18 : (fun (i : IslandId) (f : DownFrame) (d : Cmd) (sets : List Nat) (s : State) => (s.isl i.val).down = some f ∧ f.kind = DownKind.output sets ∧ f.align = false ∧ s.fld.frameRaw + 3840 ≤ s.raw ∧ (s.isl i.val).ready = true ∧ isDio i.val = true ∧ s.funcChange i.val = some d ∧ d.stage = 1 ∧ f.stage = 1) (17) (⟨.output [1, 0, 1], false, 1, 4, zeros 20⟩) ({ cmd5 [(0, 0x11), (8, 0x211), (0xC, 0x140001), (0x10, 3)] with aux := [1] }) ([1, 0, 1]) (sOut 0x14 { cmd5 [(0, 0x11), (8, 0x211), (0xC, 0x140001), (0x10, 3)] with aux := [1] } (sFld 17 3 7900 4000 { islDown (.output [1, 0, 1]) with down := some ⟨.output [1, 0, 1], false, 1, 4, zeros 20⟩ })) := by decide +kernel

theorem witness_FieldFrames_19 : (fun (i : IslandId) (f : DownFrame) (d : Cmd) (ch : Nat) (p : Word) (q : Word) (s : State) => (s.isl i.val).down = some f ∧ f.kind = DownKind.change ch p q ∧ f.align = false ∧ s.fld.frameRaw + 3840 ≤ s.raw ∧ isDio i.val = true ∧ s.funcChange i.val = some d ∧ d.stage = 2) (17) (⟨.change 2 0x140001 3, false, 2, 4, zeros 20⟩) ({ cmd5 [(0, 0x11), (8, 0x211), (0xC, 0x140001), (0x10, 3)] with aux := [2] }) (2) (0x140001) (3) (sOut 0x14 { cmd5 [(0, 0x11), (8, 0x211), (0xC, 0x140001), (0x10, 3)] with aux := [2] } (sFld 17 3 7900 4000 { islDown (.change 2 0x140001 3) with down := some ⟨.change 2 0x140001 3, false, 2, 4, zeros 20⟩ })) := by decide +kernel

theorem witness_FieldFrames_20 : (fun (i : IslandId) (f : DownFrame) (d : Cmd) (sets : List Nat) (s : State) => (s.isl i.val).down = some f ∧ f.kind = DownKind.output sets ∧ f.align = false ∧ s.fld.frameRaw + 3840 ≤ s.raw ∧ (s.isl i.val).ready = true ∧ isDio i.val = true ∧ s.funcChange i.val = some d ∧ d.stage = 3 ∧ f.stage = 3) (17) (⟨.output [1, 0, 1], false, 3, 4, zeros 20⟩) ({ cmd5 [(0, 0x11), (8, 0x211), (0xC, 0x140001), (0x10, 3)] with aux := [3] }) ([1, 0, 1]) (sOut 0x14 { cmd5 [(0, 0x11), (8, 0x211), (0xC, 0x140001), (0x10, 3)] with aux := [3] } (sFld 17 3 7900 4000 { islDown (.output [1, 0, 1]) with down := some ⟨.output [1, 0, 1], false, 3, 4, zeros 20⟩ })) := by decide +kernel

theorem witness_FieldFrames_21 : (fun (i : IslandId) (u : UpFrame) (s : State) => (s.isl i.val).up = some u ∧ u.raw + 3840 ≤ s.raw ∧ u.ty = 0 ∧ s.fld.offp = none ∧ i.val < 16 ∧ ((∀ n ∈ List.range 32, s.rd (F.SAF_BCTL_EN n) = 0)) ∧ s.link i.val = 3) (5) (⟨0, true, 4, zeros 20, 4160, 9⟩) (sFld 5 3 8000 4000 (islUp 0)) := by decide +kernel

theorem witness_FieldFrames_22 : (fun (i : IslandId) (u : UpFrame) (s : State) => (s.isl i.val).up = some u ∧ u.raw + 3840 ≤ s.raw ∧ u.ty = 1 ∧ s.fld.offp = none ∧ 56 ≤ i.val ∧ s.link i.val = 2) (56) (⟨1, true, 4, zeros 20, 4160, 9⟩) (sFld 56 2 8000 4000 (islUp 1)) := by decide +kernel

theorem witness_FieldFrames_23 : (fun (i : IslandId) (u : UpFrame) (s : State) => (s.isl i.val).up = some u ∧ u.raw + 3840 ≤ s.raw ∧ u.ty = 0 ∧ u.rxOk = true ∧ s.fld.offp = none ∧ 56 ≤ i.val ∧ s.link i.val = 1 ∧ (s.isl i.val).go = true ∧ s.islEn i.val = true ∧ 2 ≤ (s.isl i.val).upOk) (57) (⟨0, true, 4, zeros 20, 4160, 9⟩) (sFld 57 1 8000 4000 (islUp 0)) := by decide +kernel

theorem witness_FieldFrames_24 : (fun (i : IslandId) (u : UpFrame) (s : State) => (s.isl i.val).up = some u ∧ u.raw + 3840 ≤ s.raw ∧ u.ty = 0 ∧ u.rxOk = true ∧ s.fld.offp = none ∧ 56 ≤ i.val ∧ s.link i.val = 4 ∧ 2 ≤ (s.isl i.val).upOk ∧ s.rd (F.FLD_ISL_MANUAL i.val) = 0) (57) (⟨0, true, 4, zeros 20, 4160, 9⟩) (withFlds [(fltBit 57, 1)] (sFld 57 4 8000 4000 (islUp 0))) := by decide +kernel

theorem witness_FieldFrames_25 : (fun (i : IslandId) (u : UpFrame) (s : State) => (s.isl i.val).up = some u ∧ u.raw + 3840 ≤ s.raw ∧ u.ty = 0 ∧ u.rxOk = true ∧ s.fld.offp = none ∧ 56 ≤ i.val ∧ s.link i.val = 4 ∧ 2 ≤ (s.isl i.val).upOk ∧ s.rd (F.FLD_ISL_MANUAL i.val) = 1) (57) (⟨0, true, 4, zeros 20, 4160, 9⟩) (withFlds [(fltBit 57, 1), (F.FLD_ISL_MANUAL 57, 1)] (sFld 57 4 8000 4000 (islUp 0))) := by decide +kernel

theorem witness_FieldFrames_26 : (fun (i : IslandId) (pass : Bool) (u : UpFrame) (s : State) => (s.isl i.val).up = some u ∧ u.raw + 3840 ≤ s.raw ∧ (u.ty ≠ 3 ∨ pass = true)) (17) (true) (⟨3, true, 4, zeros 20, 4160, 9⟩) (sFld 17 3 8000 4000 (islUp 3)) := by decide +kernel

theorem witness_FieldFrames_27 : (fun (i : IslandId) (u : UpFrame) (s : State) => (s.isl i.val).up = some u ∧ u.raw + 3840 ≤ s.raw ∧ u.ty = 3 ∧ s.fld.offp = none ∧ 56 ≤ i.val ∧ s.link i.val = 3 ∧ (s.isl i.val).outEnd = none) (57) (⟨3, true, 4, zeros 20, 4160, 9⟩) (sFld 57 3 8000 4000 { islUp 3 with testStep := 1 }) := by decide +kernel

theorem witness_FieldFrames_28 : (fun (i : IslandId) (s : State) => Option.all (fun u : UpFrame => decide (s.raw < u.raw + 3840)) (s.isl i.val).up = true) (57) (sFld 57 3 7999 4000 (islUp 3)) := by decide +kernel

theorem witness_FieldFrames_29 : (fun (i : IslandId) (arrived : Option (List Byte)) (u : UpFrame) (s : State) => arrived.any (frameValid 0x2B) = false ∧ (s.isl i.val).up = some u ∧ u.raw + 3840 ≤ s.raw ∧ (s.isl i.val).upLost < 2) (5) (none) (⟨0, true, 4, zeros 20, 4160, 9⟩) (sFld 5 3 8000 4000 (islUp 0)) := by decide +kernel

theorem witness_FieldFrames_30 : (fun (i : IslandId) (arrived : Option (List Byte)) (u : UpFrame) (s : State) => arrived.any (frameValid 0x2B) = false ∧ (s.isl i.val).up = some u ∧ u.raw + 3840 ≤ s.raw ∧ 2 ≤ (s.isl i.val).upLost ∧ (s.link i.val = 2 ∨ s.link i.val = 3) ∧ s.rings.out = [] ∧ s.fld.offp = none ∧ 56 ≤ i.val) (56) (none) (⟨0, true, 4, zeros 20, 4160, 9⟩) (sFld 56 3 8000 4000 { islUp 0 with upLost := 2 }) := by decide +kernel

theorem witness_FieldFrames_31 : (fun (i : IslandId) (arrived : Option (List Byte)) (f : DownFrame) (s : State) => arrived.any (frameValid 0xD5) = false ∧ (s.isl i.val).down = some f ∧ s.fld.frameRaw + 3840 ≤ s.raw) (56) (some ((0xD5 : Byte) :: zeros 22 ++ [7])) (⟨.safe, false, 0, 4, zeros 20⟩) (sFld 56 3 8000 4000 (islDown .safe)) := by decide +kernel

theorem witness_FieldFrames_32 : (fun (i : IslandId) (up : Bool) (arrived : Option (List Byte)) (s : State) => (arrived.any (frameValid (if up then 0x2B else 0xD5)) = true ∨ (if up then (s.isl i.val).up.isNone else (s.isl i.val).down.isNone) = true)) (56) (true) (some (barrierFrame 0x2B 0 3 true (zeros 20))) (sFld 56 3 8000 4000 (islUp 0)) := by decide +kernel

theorem witness_FieldFrames_33 : (fun (i : IslandId) (g : Nat) (s : State) => s.islandsLive = true ∧ (s.isl i.val).safe = false ∧ (s.isl i.val).lastDown + 12000 ≤ s.raw ∧ i.val = 16 + g ∧ g < 8) (17) (1) ((sFld 17 3 16000 4000 (islDown .safe)).setDio 1 2 { dioZero with set := 1 }) := by decide +kernel

theorem witness_FieldFrames_34 : (fun (i : IslandId) (s : State) => s.islandsLive = true ∧ (s.isl i.val).safe = false ∧ (s.isl i.val).lastDown + 12000 ≤ s.raw) (30) (sFld 30 3 16000 4000 (islDown .safe)) := by decide +kernel

theorem witness_FieldFrames_35 : (fun (i : IslandId) (s : State) => (s.islandsLive = false ∨ (s.isl i.val).safe = true ∨ s.raw < (s.isl i.val).lastDown + 12000)) (30) (sFld 30 3 11999 4000 (islDown .safe)) := by decide +kernel

theorem witness_FieldCommands_1 : (fun (c : Cmd) (i : Nat) (s : State) => inHand 0x14 0x10 c s ∧ c.headerOk = true ∧ i = c.fld 8 0 6 ∧ c.fld 8 6 26 = 0 ∧ c.word 0xC = 0 ∧ c.zeroFrom 0x30 = true ∧ s.fldOwner c false = none ∧ (isDio i = true ∨ isAi i = true) ∧ recordOk i c.record = true ∧ s.taskDrives i = false ∧ s.link i = 3) (cmd5 [(0, 0x10), (8, 17), (0x10, 1)]) (17) (sEng 0x14 (cmd5 [(0, 0x10), (8, 17), (0x10, 1)]) (sFld 17 3 8000 4000 islandZero)) := by decide +kernel

theorem witness_FieldCommands_2 : (fun (c : Cmd) (i : Nat) (s : State) => inHand 0x14 0x10 c s ∧ c.headerOk = true ∧ i = c.fld 8 0 6 ∧ c.fld 8 6 26 = 0 ∧ c.word 0xC = 0 ∧ c.zeroFrom 0x30 = true ∧ s.fldOwner c false = none ∧ (isDio i = true ∨ isAi i = true) ∧ recordOk i c.record = true ∧ s.taskDrives i = false ∧ s.link i ≠ 3) (cmd5 [(0, 0x10), (8, 17), (0x10, 1)]) (17) (sEng 0x14 (cmd5 [(0, 0x10), (8, 17), (0x10, 1)]) (sFld 17 4 8000 4000 islandZero)) := by decide +kernel

theorem witness_FieldCommands_3 : (fun (c : Cmd) (i : Nat) (s : State) => inHand 0x14 0x10 c s ∧ c.headerOk = true ∧ i = c.fld 8 0 6 ∧ c.fld 8 6 26 = 0 ∧ c.word 0xC = 0 ∧ c.zeroFrom 0x30 = true ∧ s.islEn i = true ∧ (s.ctx c.ring).mp = false ∧ s.rd (F.FLD_ISL_PART i) ≠ (s.cmdPart c).toNat) (cmd5 [(0, 0x10), (8, 17), (0x10, 1)]) (17) (withFlds [(F.FLD_ISL_PART 17, 4)] (sEng 0x14 (cmd5 [(0, 0x10), (8, 17), (0x10, 1)]) (sFld 17 3 8000 4000 islandZero))) := by decide +kernel

theorem witness_FieldCommands_4 : (fun (c : Cmd) (i : Nat) (f : Final) (s : State) => inHand 0x14 0x10 c s ∧ c.headerOk = true ∧ i = c.fld 8 0 6 ∧ c.fld 8 6 26 = 0 ∧ c.word 0xC = 0 ∧ c.zeroFrom 0x30 = true ∧ s.fldOwner c false = some f) (cmd5 [(0, 0x10), (8, 17), (0x10, 1)]) (17) (⟨0x21, 0, []⟩) (withFlds [(F.FLD_ISL_PART 17, 4)] (sEng 0x14 (cmd5 [(0, 0x10), (8, 17), (0x10, 1)]) (sFld 17 3 8000 4000 islandZero))) := by decide +kernel

theorem witness_FieldCommands_5 : (fun (c : Cmd) (s : State) => s.islEn (c.fld 8 0 6) = false) (cmd5 [(0, 0x10), (8, 18)]) (sFld 17 3 8000 4000 islandZero) := by decide +kernel

theorem witness_FieldCommands_6 : (fun (c : Cmd) (i : Nat) (s : State) => inHand 0x14 0x10 c s ∧ c.headerOk = true ∧ i = c.fld 8 0 6 ∧ c.fld 8 6 26 = 0 ∧ c.word 0xC = 0 ∧ c.zeroFrom 0x30 = true ∧ s.fldOwner c false = none ∧ ((isDio i = false ∧ isAi i = false) ∨ recordOk i c.record = false)) (cmd5 [(0, 0x10), (8, 5)]) (5) (sEng 0x14 (cmd5 [(0, 0x10), (8, 5)]) (sFld 5 3 8000 4000 islandZero)) := by decide +kernel

theorem witness_FieldCommands_7 : (fun (c : Cmd) (i : Nat) (s : State) => inHand 0x14 0x10 c s ∧ c.headerOk = true ∧ i = c.fld 8 0 6 ∧ c.fld 8 6 26 = 0 ∧ c.word 0xC = 0 ∧ c.zeroFrom 0x30 = true ∧ s.fldOwner c false = none ∧ (isDio i = true ∨ isAi i = true) ∧ recordOk i c.record = true ∧ s.taskDrives i = true) (cmd5 [(0, 0x10), (8, 17), (0x10, 1)]) (17) (withFlds [(F.TASK_CTL_EN 3, 1), (F.TASK_OUTMASK_LO_OUTMASK 3, 0x20000)] (sEng 0x14 (cmd5 [(0, 0x10), (8, 17), (0x10, 1)]) (sFld 17 3 8000 4000 islandZero))) := by decide +kernel

theorem witness_FieldCommands_8 : (fun (c : Cmd) (s : State) => inHand 0x14 0x10 c s ∧ (c.headerOk = false ∨ c.fld 8 6 26 ≠ 0 ∨ c.word 0xC ≠ 0 ∨ c.zeroFrom 0x30 = false)) (cmd5 [(0, 0x10), (8, 0x51)]) (sEng 0x14 (cmd5 [(0, 0x10), (8, 0x51)]) (sFld 17 3 8000 4000 islandZero)) := by decide +kernel

theorem witness_FieldCommands_9 : (fun (c : Cmd) (f : Final) (s : State) => inHand 0x14 0x11 c s ∧ c.fin = some f) ({ cmd5 [(0, 0x11), (8, 17)] with fin := some ⟨0x11, 0, []⟩ }) (⟨0x11, 0, []⟩) (sEng 0x14 { cmd5 [(0, 0x11), (8, 17)] with fin := some ⟨0x11, 0, []⟩ } (sFld 17 3 8000 4000 islandZero)) := by decide +kernel

theorem witness_FieldCommands_10 : (fun (s : State) => (s.hand 0x14 = none ∨ s.running = false)) (sOp) := by decide +kernel

theorem witness_FieldCommands_11 : (fun (s : State) => (s.hand 0x14 = none ∨ s.running = false)) (sOp) := by decide +kernel

theorem witness_FieldCommands_12 : (fun (c : Cmd) (i : Nat) (s : State) => inHand 0x14 0x12 c s ∧ i = c.fld 8 0 6 ∧ (c.headerOk = false ∨ c.fld 8 6 10 ≠ 0 ∨ c.fld 8 17 15 ≠ 0 ∨ c.fld 0xC 16 16 ≠ 0 ∨ c.zeroFrom 0x10 = false ∨ s.islEn i = false ∨ (s.fldOwner c false = none ∧ isDio i = false))) (cmd5 [(0, 0x12), (8, 17), (0xC, 0x10000)]) (17) (sEng 0x14 (cmd5 [(0, 0x12), (8, 17), (0xC, 0x10000)]) (sFld 17 3 8000 4000 islandZero)) := by decide +kernel

theorem witness_FieldCommands_13 : (fun (c : Cmd) (f : Final) (s : State) => inHand 0x14 0x12 c s ∧ c.headerOk = true ∧ c.fld 8 6 10 = 0 ∧ c.fld 8 17 15 = 0 ∧ c.fld 0xC 16 16 = 0 ∧ c.zeroFrom 0x10 = true ∧ s.fldOwner c false = some f) (cmd5 [(0, 0x12), (8, 17)]) (⟨0x21, 0, []⟩) (withFlds [(F.FLD_ISL_PART 17, 4)] (sEng 0x14 (cmd5 [(0, 0x12), (8, 17)]) (sFld 17 3 8000 4000 islandZero))) := by decide +kernel

theorem witness_FieldCommands_14 : (fun (c : Cmd) (i : Nat) (a : Nat) (s : State) => inHand 0x14 0x13 c s ∧ c.headerOk = true ∧ i = c.fld 8 0 6 ∧ c.fld 8 6 26 = 0 ∧ c.word 0xC = 0 ∧ c.fld 0x14 8 24 = 0 ∧ c.zeroFrom 0x18 = true ∧ a = c.addr 0x10 ∧ a % 32 = 0 ∧ s.fldOwner c true = none ∧ s.engineMayWrite a 32 = true) (cmd5 [(0, 0x13), (8, 17), (0x10, 0x40), (0x14, 0x10)]) (17) (0x1000000040) (volat (sEng 0x14 (cmd5 [(0, 0x13), (8, 17), (0x10, 0x40), (0x14, 0x10)]) (sFld 17 3 8000 4000 islandZero))) := by decide +kernel

theorem witness_FieldCommands_15 : (fun (c : Cmd) (s : State) => inHand 0x14 0x13 c s ∧ (c.headerOk = false ∨ c.fld 8 6 26 ≠ 0 ∨ c.word 0xC ≠ 0 ∨ c.fld 0x14 8 24 ≠ 0 ∨ c.zeroFrom 0x18 = false ∨ c.addr 0x10 % 32 ≠ 0 ∨ s.islEn (c.fld 8 0 6) = false ∨ (s.fldOwner c true = none ∧ s.engineMayWrite (c.addr 0x10) 32 = false))) (cmd5 [(0, 0x13), (8, 17), (0x10, 0x44), (0x14, 0x10)]) (volat (sEng 0x14 (cmd5 [(0, 0x13), (8, 17), (0x10, 0x44), (0x14, 0x10)]) (sFld 17 3 8000 4000 islandZero))) := by decide +kernel

theorem witness_FieldCommands_16 : (fun (c : Cmd) (f : Final) (s : State) => inHand 0x14 0x13 c s ∧ c.headerOk = true ∧ c.fld 8 6 26 = 0 ∧ c.word 0xC = 0 ∧ c.fld 0x14 8 24 = 0 ∧ c.zeroFrom 0x18 = true ∧ c.addr 0x10 % 32 = 0 ∧ s.fldOwner c true = some f) (cmd5 [(0, 0x13), (8, 17), (0x10, 0x40), (0x14, 0x10)]) (⟨0x21, 0, []⟩) (withFlds [(F.FLD_ISL_PART 17, 4)] (sEng 0x14 (cmd5 [(0, 0x13), (8, 17), (0x10, 0x40), (0x14, 0x10)]) (sFld 17 3 8000 4000 islandZero))) := by decide +kernel

theorem witness_FieldCommands_17 : (fun (c : Cmd) (i : Nat) (s : State) => inHand 0x14 0x14 c s ∧ i = c.fld 8 0 6 ∧ (c.headerOk = false ∨ c.fld 8 6 26 ≠ 0 ∨ c.zeroFrom 0xC = false ∨ s.islEn i = false ∨ (s.fldOwner c false = none ∧ s.link i ≠ 1))) (cmd5 [(0, 0x14), (8, 17)]) (17) (sEng 0x14 (cmd5 [(0, 0x14), (8, 17)]) (sFld 17 3 8000 4000 islandZero)) := by decide +kernel

theorem witness_FieldCommands_18 : (fun (c : Cmd) (f : Final) (s : State) => inHand 0x14 0x14 c s ∧ c.headerOk = true ∧ c.fld 8 6 26 = 0 ∧ c.zeroFrom 0xC = true ∧ s.fldOwner c false = some f) (cmd5 [(0, 0x14), (8, 17)]) (⟨0x21, 0, []⟩) (withFlds [(F.FLD_ISL_PART 17, 4)] (sEng 0x14 (cmd5 [(0, 0x14), (8, 17)]) (sFld 17 3 8000 4000 islandZero))) := by decide +kernel

theorem witness_FieldCommands_19 : (fun (c : Cmd) (s : State) => inHand 0x14 0x11 c s ∧ c.fin = none) (cmd5 [(0, 0x11), (8, 17)]) (sEng 0x14 (cmd5 [(0, 0x11), (8, 17)]) (sFld 17 3 8000 4000 islandZero)) := by decide +kernel

theorem witness_FieldCommands_20 : (fun (c : Cmd) (i : Nat) (s : State) => inHand 0x14 0x12 c s ∧ c.headerOk = true ∧ i = c.fld 8 0 6 ∧ c.fld 8 6 10 = 0 ∧ c.fld 8 17 15 = 0 ∧ c.fld 0xC 16 16 = 0 ∧ c.zeroFrom 0x10 = true ∧ s.fldOwner c false = none ∧ isDio i = true) (cmd5 [(0, 0x12), (8, 0x10011), (0xC, 9)]) (17) (sEng 0x14 (cmd5 [(0, 0x12), (8, 0x10011), (0xC, 9)]) (sFld 17 3 8000 4000 islandZero)) := by decide +kernel

theorem witness_FieldCommands_21 : (fun (c : Cmd) (i : Nat) (a : Nat) (s : State) => inHand 0x14 0x13 c s ∧ c.headerOk = true ∧ i = c.fld 8 0 6 ∧ c.fld 8 6 26 = 0 ∧ c.word 0xC = 0 ∧ c.fld 0x14 8 24 = 0 ∧ c.zeroFrom 0x18 = true ∧ a = c.addr 0x10 ∧ a % 32 = 0 ∧ s.fldOwner c true = none ∧ s.engineMayWrite a 32 = true ∧ s.ecc = [] ∧ s.pairOn = false) (cmd5 [(0, 0x13), (8, 17), (0x10, 0x40), (0x14, 0x10)]) (17) (0x1000000040) (volat (sEng 0x14 (cmd5 [(0, 0x13), (8, 17), (0x10, 0x40), (0x14, 0x10)]) (sFld 17 3 8000 4000 islandZero))) := by decide +kernel

theorem witness_FieldCommands_22 : (fun (c : Cmd) (i : Nat) (s : State) => inHand 0x14 0x14 c s ∧ c.headerOk = true ∧ i = c.fld 8 0 6 ∧ c.fld 8 6 26 = 0 ∧ c.zeroFrom 0xC = true ∧ s.fldOwner c false = none ∧ s.link i = 1 ∧ 3 ≤ (s.isl i).upOk) (cmd5 [(0, 0x14), (8, 17)]) (17) (sEng 0x14 (cmd5 [(0, 0x14), (8, 17)]) (sFld 17 1 8000 4000 { islandZero with upOk := 3 })) := by decide +kernel

theorem witness_FieldCommands_23 : (fun (c : Cmd) (i : Nat) (s : State) => inHand 0x14 0x14 c s ∧ c.headerOk = true ∧ i = c.fld 8 0 6 ∧ c.fld 8 6 26 = 0 ∧ c.zeroFrom 0xC = true ∧ s.fldOwner c false = none ∧ s.link i = 1 ∧ (s.isl i).upOk < 3) (cmd5 [(0, 0x14), (8, 17)]) (17) (sEng 0x14 (cmd5 [(0, 0x14), (8, 17)]) (sFld 17 1 8000 4000 { islandZero with upOk := 2 })) := by decide +kernel

theorem witness_InputStages_1 : (fun (i : Fin 24) (s : State) => s.islandsLive = true ∧ (s.tb.locked = false ∨ (s.raw % 5000 = 0 ∧ (s.isl i.val).sampleAt ≠ some s.raw)) ∧ ((∀ j ∈ List.range 16, s.debounce i.val j ≠ 0))) (5) (withFlds [(F.FLD_DI_DEBOUNCE 5, 3)] ((sFld 5 3 10000 8000 islandZero).setIn 5 0 ⟨true, false, 4, 3, 77⟩)) := by decide +kernel

theorem witness_InputStages_2 : (fun (i : Fin 24) (s : State) => s.islandsLive = true ∧ (s.tb.locked = false ∨ (s.raw % 5000 = 0 ∧ (s.isl i.val).sampleAt ≠ some s.raw)) ∧ i.val ≠ 0 ∧ ((∀ j ∈ List.range 16, s.debounce i.val j = 0))) (5) (withFlds [(F.FLD_DI_DEBOUNCE 5, 0)] { (sFld 5 3 10001 8000 islandZero) with tb := { (sFld 5 3 10001 8000 islandZero).tb with locked := false } }) := by decide +kernel

theorem witness_InputStages_3 : (fun (i : Fin 24) (s : State) => s.islandsLive = true ∧ (s.tb.locked = false ∨ (s.raw % 5000 = 0 ∧ (s.isl i.val).sampleAt ≠ some s.raw))) (0) (withFlds [(F.FLD_DI_DEBOUNCE 0, 0)] (sFld 0 3 10000 8000 islandZero)) := by decide +kernel

theorem witness_InputStages_4 : (fun (i : Fin 24) (s : State) => (s.islandsLive = false ∨ (s.tb.locked = true ∧ (s.raw % 5000 ≠ 0 ∨ (s.isl i.val).sampleAt = some s.raw)))) (5) (sFld 5 3 10001 8000 islandZero) := by decide +kernel

theorem witness_InputStages_5 : (fun (i : Nat) (s : State) => s.inType i < 2) (5) (withFlds [(F.FLD_DI_TYPE 5, 1)] (sFld 5 3 10001 8000 islandZero)) := by decide +kernel

theorem witness_InputStages_6 : (fun (i : Nat) (s : State) => 2 ≤ s.inType i) (17) (sFld 17 3 10001 8000 islandZero) := by decide +kernel

theorem witness_InputStages_7 : (fun (x : InCh) => x.sample = true ∧ x.state = false) (⟨true, false, 10, 255, 77⟩) := by decide +kernel

theorem witness_InputStages_8 : (fun (i : Fin 24) (j : Fin 16) (s : State) => s.islandsLive = true ∧ (s.inCh i.val j.val).sample ≠ (s.inCh i.val j.val).state ∧ s.debounce i.val j.val ≤ (s.inCh i.val j.val).held ∧ (i.val ≠ 0 ∨ (s.inCh i.val j.val).sample = false)) (5) (2) (withFlds [(F.FLD_DI_DEBOUNCE 5, 1)] ((sFld 5 3 10001 8000 islandZero).setIn 5 2 ⟨true, false, 10, 255, 77⟩)) := by decide +kernel

theorem witness_InputStages_9 : (fun (i : Fin 24) (j : Fin 16) (s : State) => s.islandsLive = true ∧ (s.inCh 0 j.val).sample = true ∧ (s.inCh 0 j.val).state = false ∧ i.val = 0 ∧ s.debounce 0 j.val ≤ (s.inCh 0 j.val).held) (0) (2) (withFlds [(F.FLD_DI_DEBOUNCE 0, 1)] ((sFld 0 3 10001 8000 islandZero).setIn 0 2 ⟨true, false, 10, 255, 77⟩)) := by decide +kernel

theorem witness_InputStages_10 : (fun (i : Fin 24) (j : Fin 16) (s : State) => (s.islandsLive = false ∨ (s.inCh i.val j.val).sample = (s.inCh i.val j.val).state ∨ (s.inCh i.val j.val).held < s.debounce i.val j.val)) (0) (2) (withFlds [(F.FLD_DI_DEBOUNCE 0, 1)] ((sFld 0 3 10001 8000 islandZero).setIn 0 2 ⟨true, false, 9, 255, 77⟩)) := by decide +kernel

theorem witness_InputStages_11 : (fun (k : Fin 16) (s : State) => s.islandsLive = true ∧ s.rd (F.FLD_DI_VS_MON k.val) = 1 ∧ (s.isl k.val).low = false ∧ (s.isl k.val).high = false ∧ ((s.isl k.val).vsLow s.raw = true ∨ (s.isl k.val).vsHigh s.raw = true)) (5) (withFlds [(F.FLD_DI_VS_MON 5, 1)] (sFld 5 3 600000 596000 { islandZero with lowAt := some 100000, volt := 17000 })) := by decide +kernel

theorem witness_InputStages_12 : (fun (k : Fin 16) (s : State) => s.islandsLive = true ∧ s.rd (F.FLD_DI_VS_MON k.val) = 1 ∧ ((s.isl k.val).low = true ∨ (s.isl k.val).high = true ∨ ((s.isl k.val).vsLow s.raw = false ∧ (s.isl k.val).vsHigh s.raw = false))) (5) (withFlds [(F.FLD_DI_VS_MON 5, 1)] (sFld 5 3 600000 596000 { islandZero with low := true, volt := 18500 })) := by decide +kernel

theorem witness_InputStages_13 : (fun (k : Fin 16) (s : State) => (s.islandsLive = false ∨ s.rd (F.FLD_DI_VS_MON k.val) = 0)) (5) (sFld 5 3 600000 596000 islandZero) := by decide +kernel

theorem witness_InputStages_14 : (fun (x : Island) (a : Nat) => x.lowAt = some a) ({ islandZero with lowAt := some 100, volt := 17000 }) (100) := by decide +kernel

theorem witness_InputStages_15 : (fun (x : Island) (a : Nat) => x.highAt = some a) ({ islandZero with highAt := some 100, volt := 31001 }) (100) := by decide +kernel

theorem witness_InputStages_16 : (fun (x : Island) => x.low = false ∧ x.lowAt = none ∧ x.high = false ∧ x.highAt = none) (islandZero) := by decide +kernel

theorem witness_HighSideProtection_1 : (fun (g : Fin 8) (j : Fin 16) (limit : Option Bool) (s : State) => s.islandsLive = true ∧ (s.isl (16 + g.val)).low = false ∧ s.dioOn g.val j.val = true ∧ s.dioPulsed g.val j.val = false ∧ (limit = some true ∨ s.levelFor g.val j.val false 25000 = true)) (1) (2) (some true) (sDio { dioZero with set := 1, onFrom := 928840 } []) := by decide +kernel

theorem witness_HighSideProtection_2 : (fun (g : Fin 8) (j : Fin 16) (s : State) => s.islandsLive = true ∧ (s.isl (16 + g.val)).low = false ∧ s.dioOn g.val j.val = true ∧ s.dioPulsed g.val j.val = false ∧ s.levelFor g.val j.val true 50000 = true ∧ s.dioOnAt g.val j.val + 50000 ≤ s.raw) (1) (2) ((sDio { dioZero with set := 1, onFrom := 953840, short := true } []).setIn 17 2 ⟨true, true, 0, 0, 953840⟩) := by decide +kernel

theorem witness_HighSideProtection_3 : (fun (g : Fin 8) (j : Fin 16) (limit : Option Bool) (s : State) => (s.islandsLive = false ∨ (s.isl (16 + g.val)).low = true ∨ s.dioOn g.val j.val = false ∨ s.dioPulsed g.val j.val = true ∨ (limit = none ∧ s.levelFor g.val j.val false 25000 = false) ∨ (limit = some false ∧ s.levelFor g.val j.val false 25000 = false ∧ (s.levelFor g.val j.val true 50000 = false ∨ s.raw < s.dioOnAt g.val j.val + 50000)))) (1) (2) (some true) (sDio dioZero []) := by decide +kernel

theorem witness_HighSideProtection_4 : (fun (g : Fin 8) (j : Fin 16) (n : Nat) (s : State) => s.islandsLive = true ∧ (s.dio g.val j.val).shut = false ∧ n = (if 500000000 ≤ s.onTime g.val j.val then 0 else (s.dio g.val j.val).shuts) + 1) (1) (2) (1) (sDio { dioZero with set := 1 } [(F.FLD_DIO_RETRY_EN 1 2, 0)]) := by decide +kernel

theorem witness_HighSideProtection_5 : (fun (g : Fin 8) (j : Fin 16) (s : State) => (s.islandsLive = false ∨ (s.dio g.val j.val).shut = true)) (1) (2) (sDio { dioZero with shut := true } []) := by decide +kernel

theorem witness_HighSideProtection_6 : (fun (g : Fin 8) (j : Fin 16) (s : State) => s.islandsLive = true ∧ (s.dio g.val j.val).thermal = true) (1) (2) (sDio { dioZero with thermal := true, shut := true, retryAt := 1003840 } []) := by decide +kernel

theorem witness_HighSideProtection_7 : (fun (g : Fin 8) (j : Fin 16) (s : State) => (s.islandsLive = false ∨ (s.dio g.val j.val).thermal = false)) (1) (2) (sDio dioZero []) := by decide +kernel

theorem witness_HighSideProtection_8 : (fun (g : Fin 8) (j : Fin 16) (s : State) => s.islandsLive = true ∧ (s.dio g.val j.val).thermal = false ∧ (s.dio g.val j.val).shut = true ∧ (s.dio g.val j.val).latched = false ∧ ((s.dio g.val j.val).retryAt ≤ s.raw ∨ s.rd (F.FLD_DIO_RETRY_EN g.val j.val) = 0)) (1) (2) (sDio { dioZero with shut := true, retryAt := 1003840 } []) := by decide +kernel

theorem witness_HighSideProtection_9 : (fun (g : Fin 8) (j : Fin 16) (s : State) => (s.islandsLive = false ∨ (s.dio g.val j.val).thermal = true ∨ (s.dio g.val j.val).shut = false ∨ (s.dio g.val j.val).latched = true ∨ (s.raw < (s.dio g.val j.val).retryAt ∧ s.rd (F.FLD_DIO_RETRY_EN g.val j.val) = 1))) (1) (2) (sDio { dioZero with shut := true, retryAt := 1003841 } [(F.FLD_DIO_RETRY_EN 1 2, 1)]) := by decide +kernel

theorem witness_HighSideProtection_10 : (fun (g : Fin 8) (j : Fin 16) (s : State) => s.islandsLive = true ∧ s.dioFunc g.val j.val ≠ 2 ∧ (s.dio g.val j.val).set = 0 ∧ (s.dio g.val j.val).setAt + 500000 ≤ s.raw ∧ s.dioOffAt g.val j.val + 500000 ≤ s.raw ∧ (s.inCh (16 + g.val) j.val).sample = true ∧ (s.inCh (16 + g.val) j.val).since + 500000 ≤ s.raw) (1) (2) ((sDio dioZero []).setIn 17 2 ⟨true, true, 0, 0, 503840⟩) := by decide +kernel

theorem witness_HighSideProtection_11 : (fun (g : Fin 8) (j : Fin 16) (s : State) => s.islandsLive = true ∧ (s.inCh (16 + g.val) j.val).sample = false ∧ (s.inCh (16 + g.val) j.val).since + 500000 ≤ s.raw) (1) (2) ((sDio { dioZero with ext := true } []).setIn 17 2 ⟨false, true, 0, 0, 503840⟩) := by decide +kernel

theorem witness_HighSideProtection_12 : (fun (g : Fin 8) (j : Fin 16) (s : State) => (s.islandsLive = false ∨ s.raw < (s.inCh (16 + g.val) j.val).since + 500000 ∨ ((s.inCh (16 + g.val) j.val).sample = true ∧ s.offFor g.val j.val 500000 = false))) (1) (2) ((sDio { dioZero with set := 1 } []).setIn 17 2 ⟨true, true, 0, 0, 503840⟩) := by decide +kernel

theorem witness_HighSideProtection_13 : (fun (g : Fin 8) (a : Nat) (s : State) => s.islandsLive = true ∧ (s.isl (16 + g.val)).lowAt = some a ∧ a + 500000 ≤ s.raw) (1) (503840) ((sDio dioZero []).setIsl 17 { islandZero with conf := true, safe := false, lowAt := some 503840 }) := by decide +kernel

theorem witness_HighSideProtection_14 : (fun (g : Fin 8) (a : Nat) (s : State) => s.islandsLive = true ∧ (s.isl (16 + g.val)).lowAt = none ∧ (s.isl (16 + g.val)).fullAt = some a ∧ a + 500000 ≤ s.raw) (1) (503840) ((sDio dioZero []).setIsl 17 { islandZero with conf := true, safe := false, fullAt := some 503840, low := true }) := by decide +kernel

theorem witness_HighSideProtection_15 : (fun (g : Fin 8) (s : State) => (s.islandsLive = false ∨ (Option.all (fun a : Nat => decide (s.raw < a + 500000)) (s.isl (16 + g.val)).lowAt = true ∧ Option.all (fun a : Nat => decide (s.raw < a + 500000)) (s.isl (16 + g.val)).fullAt = true))) (1) ((sDio dioZero []).setIsl 17 { islandZero with conf := true, safe := false, fullAt := some 503841, low := true }) := by decide +kernel

theorem witness_HighSideProtection_16 : (fun (s : State) => s.islandsLive = true) ((sDio dioZero []).setIsl 17 { islandZero with conf := true, safe := false, grpOc := true }) := by decide +kernel

theorem witness_HighSideProtection_17 : (fun (g : Fin 8) (a : Nat) (s : State) => s.islandsLive = true ∧ (s.isl (16 + g.val)).tripAt = some a ∧ a + 5000000 ≤ s.raw) (1) (503840) ((fun (u : State) => { u with tb := { u.tb with raw := 5503840 } }) ((sDio { dioZero with set := 1, perDuty := 900, duty := 900 } []).setIsl 17 { islandZero with conf := true, safe := false, tripAt := some 503840 })) := by decide +kernel

theorem witness_HighSideProtection_18 : (fun (s : State) => s.islandsLive = false) ({ sDio dioZero [] with phase := .reset }) := by decide +kernel

theorem witness_HighSideProtection_19 : (fun (g : Fin 8) (s : State) => Option.all (fun a : Nat => decide (s.raw < a + 5000000)) (s.isl (16 + g.val)).tripAt = true) (1) ((sDio dioZero []).setIsl 17 { islandZero with conf := true, safe := false, tripAt := some 503840 }) := by decide +kernel

theorem witness_HighSideDiagnosticsAndPwm_1 : (fun (g : Fin 8) (j : Fin 16) (s : State) => s.islandsLive = true ∧ s.rd (F.FLD_DIO_ONDIAG_EN g.val j.val) = 1 ∧ s.dioOn g.val j.val = true ∧ s.dioPulsed g.val j.val = false ∧ (s.isl (16 + g.val)).low = false ∧ s.dioOnAt g.val j.val + 200000 ≤ s.raw) (1) (2) (sDio { dioZero with set := 1, onFrom := 803840, onLow := 2 } [(F.FLD_DIO_ONDIAG_EN 1 2, 1)]) := by decide +kernel

theorem witness_HighSideDiagnosticsAndPwm_2 : (fun (g : Fin 8) (j : Fin 16) (s : State) => (s.islandsLive = false ∨ s.rd (F.FLD_DIO_ONDIAG_EN g.val j.val) = 0 ∨ s.dioOn g.val j.val = false ∨ s.dioPulsed g.val j.val = true ∨ (s.isl (16 + g.val)).low = true ∨ s.raw < s.dioOnAt g.val j.val + 200000)) (1) (2) (sDio { dioZero with set := 1, onFrom := 803841, onLow := 2 } [(F.FLD_DIO_ONDIAG_EN 1 2, 1)]) := by decide +kernel

theorem witness_HighSideDiagnosticsAndPwm_3 : (fun (g : Fin 8) (j : Fin 16) (s : State) => s.islandsLive = true ∧ s.rd (F.FLD_DIO_OFFDIAG_EN g.val j.val) = 1 ∧ s.dioFunc g.val j.val ≠ 2 ∧ (s.isl (16 + g.val)).low = false ∧ s.dioOffAt g.val j.val + 50000 ≤ s.raw) (1) (2) (sDio { dioZero with offOpen := 2 } [(F.FLD_DIO_OFFDIAG_EN 1 2, 1)]) := by decide +kernel

theorem witness_HighSideDiagnosticsAndPwm_4 : (fun (g : Fin 8) (j : Fin 16) (s : State) => (s.islandsLive = false ∨ s.rd (F.FLD_DIO_OFFDIAG_EN g.val j.val) = 0 ∨ s.dioFunc g.val j.val = 2 ∨ (s.isl (16 + g.val)).low = true ∨ s.raw < s.dioOffAt g.val j.val + 50000)) (1) (2) (sDio { dioZero with offFrom := 953841 } [(F.FLD_DIO_OFFDIAG_EN 1 2, 1)]) := by decide +kernel

theorem witness_HighSideDiagnosticsAndPwm_5 : (fun (g : Fin 8) (j : Fin 16) (p : Nat) (s : State) => s.islandsLive = true ∧ (s.isl (16 + g.val)).conf = true ∧ s.dioFunc g.val j.val = 1 ∧ (s.dio g.val j.val).perNext ≤ s.raw ∧ p = (if s.dioMay g.val j.val = false then 0 else if s.rd (F.FLD_DIO1_RAMP g.val j.val) = 0 then min (s.dio g.val j.val).set 1000 else (s.dio g.val j.val).duty)) (1) (2) (1000) (sDio { dioZero with set := 1023, perNext := 1003840 } [(F.FLD_DIO_FUNC 1 2, 1), (F.FLD_DIO_FREQ 1 2, 100)]) := by decide +kernel

theorem witness_HighSideDiagnosticsAndPwm_6 : (fun (g : Fin 8) (j : Fin 16) (s : State) => (s.islandsLive = false ∨ (s.isl (16 + g.val)).conf = false ∨ s.dioFunc g.val j.val ≠ 1 ∨ s.raw < (s.dio g.val j.val).perNext)) (1) (2) (sDio { dioZero with set := 1023, perNext := 1003841 } [(F.FLD_DIO_FUNC 1 2, 1), (F.FLD_DIO_FREQ 1 2, 100)]) := by decide +kernel

theorem witness_HighSideDiagnosticsAndPwm_7 : (fun (s : State) => s.islandsLive = true ∧ s.raw % 500000 = 3840 ∧ s.fld.rampAt ≠ some s.raw) (sDio { dioZero with set := 700, duty := 100 } [(F.FLD_DIO_FUNC 1 2, 1), (F.FLD_DIO1_RAMP 1 2, 50)]) := by decide +kernel

theorem witness_HighSideDiagnosticsAndPwm_8 : (fun (s : State) => (s.islandsLive = false ∨ s.raw % 500000 ≠ 3840 ∨ s.fld.rampAt = some s.raw)) ({ sDio dioZero [] with fld := { (sDio dioZero []).fld with rampAt := some 1003840 } }) := by decide +kernel

theorem witness_CurrentLoops_1 : (fun (c : Fin 64) (raw : Int) (s : State) => s.aiLive c.val = true ∧ s.aiNext c.val ≤ s.raw) (48) (-250000) (sLoop { aiZero with ovr := true, count := 2 } []) := by decide +kernel

theorem witness_CurrentLoops_2 : (fun (c : Fin 64) (raw : Int) (s : State) => (s.aiLive c.val = false ∨ s.raw < s.aiNext c.val)) (48) (5) (sLoop aiZero [(F.FLD_AIL_MODE 48, 0)]) := by decide +kernel

theorem witness_CurrentLoops_3 : (fun (c : Nat) (bit : Nat) (s0 : State) (s : State) => bits (s0.aiStatus c) bit 1 = 0 ∧ bits (s.aiStatus c) bit 1 = 1 ∧ s.link (24 + c / 2) ≠ 0) (48) (3) (sLoop aiZero []) (sLoop { aiZero with mismatch := true } []) := by decide +kernel

theorem witness_CurrentLoops_4 : (fun (c : Nat) (bit : Nat) (s0 : State) (s : State) => (bits (s0.aiStatus c) bit 1 = 1 ∨ bits (s.aiStatus c) bit 1 = 0 ∨ s.link (24 + c / 2) = 0)) (48) (3) (sLoop { aiZero with mismatch := true } []) (sLoop { aiZero with mismatch := true } []) := by decide +kernel

theorem witness_CurrentLoops_6 : (fun (c : Nat) (n : Nat) (k : Nat) (a : Nat) (d : Cmd) (s : State) => s.aiCmd c = some d ∧ d.opcode = 0x16 ∧ d.aux = [n, k] ∧ a = d.addr 0x10 + 8 * n ∧ n + 1 ≠ d.fld 0xC 0 17) (48) (1) (0) (0x1000000048) ({ cmd5 [(0, 0x16), (8, 48), (0xC, 4), (0x10, 0x40), (0x14, 0x10)] with aux := [1, 0] }) (sXfer { cmd5 [(0, 0x16), (8, 48), (0xC, 4), (0x10, 0x40), (0x14, 0x10)] with aux := [1, 0] }) := by decide +kernel

theorem witness_CurrentLoops_7 : (fun (c : Nat) (n : Nat) (k : Nat) (a : Nat) (d : Cmd) (s : State) => s.aiCmd c = some d ∧ d.opcode = 0x16 ∧ d.aux = [n, k] ∧ a = d.addr 0x10 + 8 * n ∧ n + 1 = d.fld 0xC 0 17) (48) (3) (0) (0x1000000058) ({ cmd5 [(0, 0x16), (8, 48), (0xC, 4), (0x10, 0x40), (0x14, 0x10)] with aux := [3, 0] }) (sXfer { cmd5 [(0, 0x16), (8, 48), (0xC, 4), (0x10, 0x40), (0x14, 0x10)] with aux := [3, 0] }) := by decide +kernel

theorem witness_CurrentLoops_8 : (fun (c : Nat) (s : State) => Option.all (fun d : Cmd => d.opcode != 0x16 || d.aux == []) (s.aiCmd c) = true) (48) (sOp) := by decide +kernel

theorem witness_CurrentLoops_9 : (fun (a : Nat) (bs : List Byte) (s : State) => s.ecc = [] ∧ s.pairOn = false ∧ inDram a bs.length = true) (0x1000000048) ([1, 2, 3]) (sOp) := by decide +kernel

theorem witness_CurrentLoops_10 : (fun (c : Fin 64) (s : State) => s.aiLive c.val = true) (48) (sLoop { aiZero with apart := 2 } []) := by decide +kernel

theorem witness_CurrentLoops_11 : (fun (c : Fin 64) (s : State) => s.aiLive c.val = false) (48) (sLoop aiZero [(F.FLD_AIL_MODE 48, 0)]) := by decide +kernel

theorem witness_CurrentLoops_12 : (fun (c : Fin 64) (s : State) => s.aiLive c.val = true ∧ s.aiWatched c.val = true ∧ s.rd (F.FLD_AIL_OPEN_EN c.val) = 1) (48) (sLoop aiZero [(F.FLD_AIL_OPEN_EN 48, 1)]) := by decide +kernel

theorem witness_CurrentLoops_13 : (fun (c : Fin 64) (s : State) => (s.aiLive c.val = false ∨ s.aiWatched c.val = false ∨ s.rd (F.FLD_AIL_OPEN_EN c.val) = 0)) (48) (sLoop aiZero []) := by decide +kernel

theorem witness_CurrentLoops_14 : (fun (c : Fin 64) (s : State) => s.aiLive c.val = true ∧ s.aiWatched c.val = true ∧ s.rd (F.FLD_AIL_COMP_EN c.val) = 1) (48) (sLoop aiZero [(F.FLD_AIL_COMP_EN 48, 1)]) := by decide +kernel

theorem witness_CurrentLoops_15 : (fun (c : Fin 64) (s : State) => (s.aiLive c.val = false ∨ s.aiWatched c.val = false ∨ s.rd (F.FLD_AIL_COMP_EN c.val) = 0)) (48) (sLoop aiZero []) := by decide +kernel

theorem witness_CurrentLoops_16 : (fun (s : State) => s.islandsLive = true) (sLoop aiZero []) := by decide +kernel

theorem witness_CurrentLoops_17 : (fun (s : State) => s.islandsLive = false) ({ sLoop aiZero [] with phase := .reset }) := by decide +kernel

theorem witness_CurrentLoops_18 : (fun (c : Fin 64) (s : State) => s.islandsLive = true ∧ s.aiSupOff c.val = false) (48) (sLoop aiZero []) := by decide +kernel

theorem witness_CurrentLoops_19 : (fun (c : Fin 64) (s : State) => (s.islandsLive = false ∨ s.aiSupOff c.val = true)) (48) (sLoop { aiZero with supOff := true } []) := by decide +kernel

theorem witness_CurrentLoops_20 : (fun (c : Fin 64) (s : State) => s.aiLive c.val = true ∧ s.rd (F.FLD_AIL_MULTIDROP c.val) = 1) (48) (sLoop { aiZero with park := true } [(F.FLD_AIL_MULTIDROP 48, 1)]) := by decide +kernel

theorem witness_CurrentLoops_21 : (fun (c : Fin 64) (s : State) => (s.aiLive c.val = false ∨ s.rd (F.FLD_AIL_MULTIDROP c.val) = 0)) (48) (sLoop aiZero []) := by decide +kernel

theorem witness_CurrentLoops_22 : (fun (c : Fin 64) (s : State) => s.aiLive c.val = true ∧ s.aiWatched c.val = true ∧ s.rd (F.FLD_AIL_OPEN_EN c.val) = 1 ∧ (s.ai c.val).openLoop = false ∧ s.link (24 + c.val / 2) ≠ 0) (48) (sLoop aiZero [(F.FLD_AIL_OPEN_EN 48, 1)]) := by decide +kernel

theorem witness_CurrentLoops_23 : (fun (c : Fin 64) (s : State) => s.aiLive c.val = true ∧ s.aiWatched c.val = true ∧ s.rd (F.FLD_AIL_OPEN_EN c.val) = 1) (48) (sLoop { aiZero with openLoop := true } [(F.FLD_AIL_OPEN_EN 48, 1)]) := by decide +kernel

theorem witness_CurrentLoops_24 : (fun (c : Fin 64) (s : State) => s.aiLive c.val = true ∧ s.aiWatched c.val = true ∧ s.rd (F.FLD_AIL_COMP_EN c.val) = 1 ∧ (s.ai c.val).compliance = false ∧ s.link (24 + c.val / 2) ≠ 0) (48) (sLoop aiZero [(F.FLD_AIL_COMP_EN 48, 1)]) := by decide +kernel

theorem witness_CurrentLoops_25 : (fun (i : Fin 32) (s : State) => s.islandsLive = true ∧ (s.isl (24 + i.val)).low = false ∧ s.link (24 + i.val) ≠ 0) (24) (sLoop aiZero []) := by decide +kernel

theorem witness_CurrentLoops_26 : (fun (c : Fin 64) (s : State) => s.islandsLive = true ∧ s.aiSupOff c.val = false ∧ (s.ai c.val).supLimit = false ∧ s.link (24 + c.val / 2) ≠ 0) (48) (sLoop aiZero []) := by decide +kernel

theorem witness_LoopTransfers_1 : (fun (c : Cmd) (s : State) => inHand 0x14 0x15 c s ∧ c.headerOk = true ∧ c.zeroFrom 8 = true ∧ (s.cmdMp c = true ∨ (s.rd F.FLD_AI_CFG_SYNC_CMD_EN = 1 ∧ s.rd F.FLD_AI_CFG_SYNC_PART = (s.cmdPart c).toNat)) ∧ s.fld.align = none ∧ s.fld.alignAt = none) (cmd5 [(0, 0x15)]) (withFlds [(F.FLD_AI_CFG_SYNC_CMD_EN, 1), (F.FLD_AI_CFG_SYNC_PART, 3)] (sEng 0x14 (cmd5 [(0, 0x15)]) (sLoop aiZero []))) := by decide +kernel

theorem witness_LoopTransfers_2 : (fun (c : Cmd) (r : Nat) (s : State) => inHand 0x14 0x15 c s ∧ c.headerOk = true ∧ c.zeroFrom 8 = true ∧ (s.cmdMp c = true ∨ (s.rd F.FLD_AI_CFG_SYNC_CMD_EN = 1 ∧ s.rd F.FLD_AI_CFG_SYNC_PART = (s.cmdPart c).toNat)) ∧ s.fld.align = some r) (cmd5 [(0, 0x15)]) (8999900) (withFlds [(F.FLD_AI_CFG_SYNC_CMD_EN, 1), (F.FLD_AI_CFG_SYNC_PART, 3)] (sEng 0x14 (cmd5 [(0, 0x15)]) { sLoop aiZero [] with fld := { (sLoop aiZero []).fld with align := some 8999900 } })) := by decide +kernel

theorem witness_LoopTransfers_3 : (fun (c : Cmd) (r : Nat) (s : State) => inHand 0x14 0x15 c s ∧ c.headerOk = true ∧ c.zeroFrom 8 = true ∧ (s.cmdMp c = true ∨ (s.rd F.FLD_AI_CFG_SYNC_CMD_EN = 1 ∧ s.rd F.FLD_AI_CFG_SYNC_PART = (s.cmdPart c).toNat)) ∧ s.fld.align = none ∧ s.fld.alignAt = some r ∧ s.raw < r) (cmd5 [(0, 0x15)]) (9000001) (withFlds [(F.FLD_AI_CFG_SYNC_CMD_EN, 1), (F.FLD_AI_CFG_SYNC_PART, 3)] (sEng 0x14 (cmd5 [(0, 0x15)]) { sLoop aiZero [] with fld := { (sLoop aiZero []).fld with alignAt := some 9000001 } })) := by decide +kernel

theorem witness_LoopTransfers_4 : (fun (c : Cmd) (r : Nat) (s : State) => inHand 0x14 0x15 c s ∧ c.headerOk = true ∧ c.zeroFrom 8 = true ∧ (s.cmdMp c = true ∨ (s.rd F.FLD_AI_CFG_SYNC_CMD_EN = 1 ∧ s.rd F.FLD_AI_CFG_SYNC_PART = (s.cmdPart c).toNat)) ∧ s.fld.align = none ∧ s.fld.alignAt = some r ∧ r ≤ s.raw) (cmd5 [(0, 0x15)]) (9000000) (withFlds [(F.FLD_AI_CFG_SYNC_CMD_EN, 1), (F.FLD_AI_CFG_SYNC_PART, 3)] (sEng 0x14 (cmd5 [(0, 0x15)]) { sLoop aiZero [] with fld := { (sLoop aiZero []).fld with alignAt := some 9000000 } })) := by decide +kernel

theorem witness_LoopTransfers_5 : (fun (c : Cmd) (s : State) => inHand 0x14 0x15 c s ∧ c.headerOk = true ∧ c.zeroFrom 8 = true ∧ s.cmdMp c = false ∧ (s.rd F.FLD_AI_CFG_SYNC_CMD_EN = 0 ∨ s.rd F.FLD_AI_CFG_SYNC_PART ≠ (s.cmdPart c).toNat)) (cmd5 [(0, 0x15)]) (sEng 0x14 (cmd5 [(0, 0x15)]) (sLoop aiZero [])) := by decide +kernel

theorem witness_LoopTransfers_6 : (fun (c : Cmd) (s : State) => inHand 0x14 0x15 c s ∧ (c.headerOk = false ∨ c.zeroFrom 8 = false)) (cmd5 [(0, 0x15), (8, 1)]) (sEng 0x14 (cmd5 [(0, 0x15), (8, 1)]) (sLoop aiZero [])) := by decide +kernel

theorem witness_LoopTransfers_7 : (fun (c : Cmd) (s : State) => inHand 0x14 0x16 c s ∧ c.fin = none) (cmd5 [(0, 0x16), (8, 48), (0xC, 4), (0x10, 0x40), (0x14, 0x10)]) (sEng 0x14 (cmd5 [(0, 0x16), (8, 48), (0xC, 4), (0x10, 0x40), (0x14, 0x10)]) (sLoop aiZero [])) := by decide +kernel

theorem witness_LoopTransfers_8 : (fun (c : Cmd) (s : State) => inHand 0x14 0x17 c s ∧ c.fin = none) (cmd5 [(0, 0x17), (8, 0x20030), (0xC, 4), (0x10, 0x40), (0x14, 0x10)]) (sEng 0x14 (cmd5 [(0, 0x17), (8, 0x20030), (0xC, 4), (0x10, 0x40), (0x14, 0x10)]) (sLoop aiZero [])) := by decide +kernel

theorem witness_LoopTransfers_9 : (fun (c : Cmd) (f : Final) (s : State) => inHand 0x14 0x16 c s ∧ c.fin = some f) ({ cmd5 [(0, 0x16), (8, 48), (0xC, 4), (0x10, 0x40), (0x14, 0x10)] with fin := some ⟨0x11, 0, []⟩ }) (⟨0x11, 0, []⟩) (sEng 0x14 { cmd5 [(0, 0x16), (8, 48), (0xC, 4), (0x10, 0x40), (0x14, 0x10)] with fin := some ⟨0x11, 0, []⟩ } (sLoop aiZero [])) := by decide +kernel

theorem witness_LoopTransfers_10 : (fun (c : Cmd) (f : Final) (s : State) => inHand 0x14 0x17 c s ∧ c.fin = some f) ({ cmd5 [(0, 0x17), (8, 0x20030), (0xC, 4), (0x10, 0x40), (0x14, 0x10)] with fin := some ⟨0x11, 0, []⟩ }) (⟨0x11, 0, []⟩) (sEng 0x14 { cmd5 [(0, 0x17), (8, 0x20030), (0xC, 4), (0x10, 0x40), (0x14, 0x10)] with fin := some ⟨0x11, 0, []⟩ } (sLoop aiZero [])) := by decide +kernel

theorem witness_LoopTransfers_11 : (fun (s : State) => (s.hand 0x14 = none ∨ s.running = false)) (sOp) := by decide +kernel

theorem witness_LoopTransfers_12 : (fun (k : Nat) (d : Cmd) (s : State) => s.aiCmd k = some d ∧ d.aux = [] ∧ d.opcode = 0x16) (48) (cmd5 [(0, 0x16), (8, 48), (0xC, 4), (0x10, 0x40), (0x14, 0x10)]) (sXfer (cmd5 [(0, 0x16), (8, 48), (0xC, 4), (0x10, 0x40), (0x14, 0x10)])) := by decide +kernel

theorem witness_LoopTransfers_13 : (fun (k : Nat) (d : Cmd) (s : State) => s.aiCmd k = some d ∧ d.aux = [] ∧ d.opcode = 0x17 ∧ d.fld 8 16 8 = 0) (48) (cmd5 [(0, 0x17), (8, 48), (0xC, 0x50004)]) (sXfer (cmd5 [(0, 0x17), (8, 48), (0xC, 0x50004)])) := by decide +kernel

theorem witness_LoopTransfers_14 : (fun (k : Nat) (n : Nat) (d : Cmd) (s : State) => s.aiCmd k = some d ∧ d.aux = [] ∧ d.opcode = 0x17 ∧ n = d.fld 8 16 8 ∧ n ≠ 0) (48) (2) (cmd5 [(0, 0x17), (8, 0x20030), (0xC, 4), (0x10, 0x40), (0x14, 0x10)]) (sXfer (cmd5 [(0, 0x17), (8, 0x20030), (0xC, 4), (0x10, 0x40), (0x14, 0x10)])) := by decide +kernel

theorem witness_LoopTransfers_15 : (fun (k : Nat) (s : State) => Option.all (fun d : Cmd => d.aux != []) (s.aiCmd k) = true) (48) (sOp) := by decide +kernel

theorem witness_LoopTransfers_16 : (fun (c : Fin 64) (d : Cmd) (s : State) => s.fskIn c.val 1 = some d ∧ 3 * d.aux.getD 1 0 + 1250000 * (s.rd (F.FLD_AIL1_LEAD c.val) + 11 * d.fld 8 16 8 + 1) ≤ 3 * s.raw ∧ d.fld 0xC 16 16 ≠ 0 ∧ (s.ai c.val).cd = false) (48) ({ cmd5 [(0, 0x17), (8, 0x20030), (0xC, 0x50004)] with aux := [1, 100, 0, 0, 0] }) ({ sXfer { cmd5 [(0, 0x17), (8, 0x20030), (0xC, 0x50004)] with aux := [1, 100, 0, 0, 0] } with tb := { sOp.tb with raw := 20000000 } }) := by decide +kernel

theorem witness_LoopTransfers_17 : (fun (c : Fin 64) (d : Cmd) (s : State) => s.fskIn c.val 1 = some d ∧ 3 * d.aux.getD 1 0 + 1250000 * (s.rd (F.FLD_AIL1_LEAD c.val) + 11 * d.fld 8 16 8 + 1) ≤ 3 * s.raw ∧ d.fld 0xC 16 16 = 0) (48) ({ cmd5 [(0, 0x17), (8, 0x20030), (0xC, 4)] with aux := [1, 100, 0, 0, 0] }) ({ sXfer { cmd5 [(0, 0x17), (8, 0x20030), (0xC, 4)] with aux := [1, 100, 0, 0, 0] } with tb := { sOp.tb with raw := 20000000 } }) := by decide +kernel

theorem witness_LoopTransfers_18 : (fun (c : Fin 64) (d : Cmd) (s : State) => s.fskIn c.val 1 = some d ∧ 3 * d.aux.getD 1 0 + 1250000 * (s.rd (F.FLD_AIL1_LEAD c.val) + 11 * d.fld 8 16 8 + 1) ≤ 3 * s.raw ∧ d.fld 0xC 16 16 ≠ 0 ∧ (s.ai c.val).cd = true) (48) ({ cmd5 [(0, 0x17), (8, 0x20030), (0xC, 0x50004)] with aux := [1, 100, 0, 0, 0] }) ({ sOut 0x14 { cmd5 [(0, 0x17), (8, 0x20030), (0xC, 0x50004)] with aux := [1, 100, 0, 0, 0] } (sLoop { aiZero with cd := true } []) with tb := { sOp.tb with raw := 20000000 } }) := by decide +kernel

theorem witness_LoopTransfers_19 : (fun (c : Fin 64) (s : State) => Option.all (fun d : Cmd => decide (3 * s.raw < 3 * d.aux.getD 1 0 + 1250000 * (s.rd (F.FLD_AIL1_LEAD c.val) + 11 * d.fld 8 16 8 + 1))) (s.fskIn c.val 1) = true) (48) (sOp) := by decide +kernel

theorem witness_LoopTransfers_20 : (fun (c : Fin 64) (s : State) => (s.aiLive c.val = false ∨ s.rd (F.FLD_AIL_FSK_EN c.val) = 0 ∨ (s.fskIn c.val 1).isSome = true)) (48) (sXfer { cmd5 [(0, 0x17), (8, 0x20030), (0xC, 0x50004)] with aux := [1, 100, 0, 0, 0] }) := by decide +kernel

theorem witness_LoopTransfers_21 : (fun (c : Fin 64) (d : Cmd) (s : State) => s.aiLive c.val = true ∧ s.rd (F.FLD_AIL_FSK_EN c.val) = 1 ∧ s.fskIn c.val 2 = some d) (48) ({ cmd5 [(0, 0x17), (8, 0x20030), (0xC, 0x50004)] with aux := [2, 100, 0, 0, 0] }) (sXfer { cmd5 [(0, 0x17), (8, 0x20030), (0xC, 0x50004)] with aux := [2, 100, 0, 0, 0] }) := by decide +kernel

theorem witness_LoopTransfers_22 : (fun (c : Fin 64) (s : State) => s.aiLive c.val = true ∧ s.rd (F.FLD_AIL_FSK_EN c.val) = 1 ∧ s.fskIn c.val 1 = none ∧ s.fskIn c.val 2 = none) (48) (sLoop aiZero []) := by decide +kernel

theorem witness_LoopTransfers_23 : (fun (c : Fin 64) (d : Cmd) (n : Nat) (a : Nat) (r0 : Nat) (nt : Nat) (e : Nat) (s : State) => s.fskIn c.val 3 = some d ∧ d.aux = [3, r0, n, nt, e] ∧ n < d.fld 0xC 0 8 ∧ a = d.addr 0x18 + 2 * n) (48) ({ cmd5 [(0, 0x17), (8, 0x20030), (0xC, 0x50004), (0x18, 0x40), (0x1C, 0x10)] with aux := [3, 100, 3, 9, 0] }) (3) (0x1000000046) (100) (9) (0) (sXfer { cmd5 [(0, 0x17), (8, 0x20030), (0xC, 0x50004), (0x18, 0x40), (0x1C, 0x10)] with aux := [3, 100, 3, 9, 0] }) := by decide +kernel

theorem witness_LoopTransfers_24 : (fun (c : Fin 64) (s : State) => Option.all (fun d : Cmd => decide (d.fld 0xC 0 8 ≤ d.aux.getD 2 0)) (s.fskIn c.val 3) = true) (48) (sXfer { cmd5 [(0, 0x17), (8, 0x20030), (0xC, 0x50004), (0x18, 0x40), (0x1C, 0x10)] with aux := [3, 100, 4, 9, 0] }) := by decide +kernel

theorem witness_LoopTransfers_25 : (fun (c : Fin 64) (d : Cmd) (n : Nat) (r0 : Nat) (nt : Nat) (e : Nat) (s : State) => s.fskIn c.val 3 = some d ∧ d.aux = [3, r0, n, nt, e] ∧ d.opcode = 0x17 ∧ d.fld 0xC 0 8 ≤ n) (48) ({ cmd5 [(0, 0x17), (8, 0x20030), (0xC, 0x50004), (0x18, 0x40), (0x1C, 0x10)] with aux := [3, 100, 4, 9, 0] }) (4) (100) (9) (0) (sXfer { cmd5 [(0, 0x17), (8, 0x20030), (0xC, 0x50004), (0x18, 0x40), (0x1C, 0x10)] with aux := [3, 100, 4, 9, 0] }) := by decide +kernel

theorem witness_LoopTransfers_26 : (fun (c : Fin 64) (s : State) => Option.all (fun d : Cmd => decide (d.aux.getD 2 0 < d.fld 0xC 0 8)) (s.fskIn c.val 3) = true) (48) (sOp) := by decide +kernel

theorem witness_LoopTransfers_27 : (fun (c : Fin 64) (s : State) => Option.all (fun d : Cmd => decide (s.raw < d.aux.getD 1 0 + d.fld 0xC 16 16 * 500000)) (s.fskIn c.val 2) = true) (48) (sOp) := by decide +kernel

theorem witness_LoopTransfers_28 : (fun (c : Fin 64) (d : Cmd) (n : Nat) (r0 : Nat) (nt : Nat) (e : Nat) (s : State) => s.fskIn c.val 3 = some d ∧ d.aux = [3, r0, n, nt, e] ∧ d.opcode = 0x17) (48) ({ cmd5 [(0, 0x17), (8, 0x20030), (0xC, 0x50004)] with aux := [3, 100, 3, 9, 1] }) (3) (100) (9) (1) (sXfer { cmd5 [(0, 0x17), (8, 0x20030), (0xC, 0x50004)] with aux := [3, 100, 3, 9, 1] }) := by decide +kernel

theorem witness_LoopTransfers_29 : (fun (c : Fin 64) (s : State) => s.fskIn c.val 3 = none) (48) (sLoop { aiZero with cd := true } []) := by decide +kernel

theorem witness_LoopTransfers_30 : (fun (c : Fin 64) (d : Cmd) (s : State) => s.fskIn c.val 2 = some d ∧ d.aux.getD 1 0 + d.fld 0xC 16 16 * 500000 ≤ s.raw) (48) ({ cmd5 [(0, 0x17), (8, 48), (0xC, 0x50004)] with aux := [2, 100, 0, 0, 0] }) (sXfer { cmd5 [(0, 0x17), (8, 48), (0xC, 0x50004)] with aux := [2, 100, 0, 0, 0] }) := by decide +kernel

theorem witness_LoopTransfers_31 : (fun (k : Nat) (s : State) => s.outOf 0x14 ≠ [] ∧ Option.all (fun d : Cmd => d.aux != []) ((s.aiStart k).aiCmd k) = true) (48) (sXfer (cmd5 [(0, 0x16), (8, 48), (0xC, 4), (0x10, 0x40), (0x14, 0x10)])) := by decide +kernel

theorem witness_LoopTransfers_32 : (fun (s : State) => s.outOf 0x14 = []) (sLoop aiZero []) := by decide +kernel

theorem witness_SafetyBlocks_1 : (fun (n : Nat) (s : State) => s.running = true ∧ s.acts = true ∧ s.raw % 4000 = 3500 ∧ s.saf.evalAt ≠ some s.raw ∧ n < 32 ∧ s.rd (F.SAF_BCTL_EN n) = 1 ∧ ((∀ k ∈ List.range 32, k ≠ n → s.rd (F.SAF_BCTL_EN k) = 0)) ∧ s.safState n = 2 ∧ s.safCause n 0 = 0 ∧ s.safCause n 1 = 0 ∧ s.inputsAtRun n = false) (4) (sSaf 2 7500 [(F.SAF_BSTAT_PERMIT1 4, 1)]) := by decide +kernel

theorem witness_SafetyBlocks_2 : (fun (n : Nat) (s : State) => s.running = true ∧ s.acts = true ∧ s.raw % 4000 = 3500 ∧ s.saf.evalAt ≠ some s.raw ∧ n < 32 ∧ s.rd (F.SAF_BCTL_EN n) = 1 ∧ ((∀ k ∈ List.range 32, k ≠ n → s.rd (F.SAF_BCTL_EN k) = 0)) ∧ s.safState n = 1 ∧ s.safCause n 0 = 0 ∧ s.safCause n 1 = 0 ∧ s.inputsAtRun n = true ∧ s.rd (F.SAF_BCTL_RST_MODE n) = 1 ∧ s.rd (F.SAF_BSTAT_RESTART n) = 0) (4) (atRun (sSaf 1 7500 [(F.SAF_BCTL_RST_MODE 4, 1)])) := by decide +kernel

theorem witness_SafetyBlocks_3 : (fun (differ : Bool) (s : State) => s.running = true ∧ s.acts = true ∧ s.raw % 4000 = 3500 ∧ s.saf.evalAt ≠ some s.raw ∧ s.saf.differ = 0 ∧ ((∀ k ∈ List.range 32, s.rd (F.SAF_BCTL_EN k) = 0))) (true) (withFlds [(F.SAF_BCTL_EN 4, 0)] (sSaf 1 7500 [])) := by decide +kernel

theorem witness_SafetyBlocks_4 : (fun (s : State) => s.running = true ∧ s.acts = true ∧ s.raw % 4000 = 3500 ∧ s.saf.evalAt ≠ some s.raw ∧ s.saf.differ = 1 ∧ s.safGated = [] ∧ ((∀ k ∈ List.range 32, s.rd (F.SAF_BCTL_EN k) = 0))) (withFlds [(F.SAF_BCTL_EN 4, 0)] { sSaf 1 7500 [] with saf := { sOp.saf with differ := 1 } }) := by decide +kernel

theorem witness_SafetyBlocks_5 : (fun (s : State) => s.running = true ∧ s.acts = true ∧ s.raw % 4000 = 3500 ∧ s.saf.evalAt ≠ some s.raw ∧ s.saf.differ = 1) (withFlds [(F.SAF_BCTL_EN 4, 0)] { sSaf 1 7500 [] with saf := { sOp.saf with differ := 1 } }) := by decide +kernel

theorem witness_SafetyBlocks_6 : (fun (differ : Bool) (s : State) => s.running = true ∧ s.acts = true ∧ s.raw % 4000 = 3500 ∧ s.saf.evalAt ≠ some s.raw ∧ (differ = false ∨ s.saf.differ ≠ 1)) (true) (atRun (sSaf 1 7500 [(F.SAF_BCTL_RST_MODE 4, 1)])) := by decide +kernel

theorem witness_SafetyBlocks_7 : (fun (s : State) => (s.running = false ∨ s.acts = false ∨ s.raw % 4000 ≠ 3500 ∨ s.saf.evalAt = some s.raw)) (sSaf 1 7501 []) := by decide +kernel

theorem witness_SafetyBlocks_8 : (fun (n : Nat) (s : State) => (s.rd (F.SAF_BCTL_EN n) = 0 ∨ s.safState n = 0 ∨ s.safe = true)) (5) (sSaf 1 7500 []) := by decide +kernel

theorem witness_SafetyBlocks_9 : (fun (n : Nat) (s : State) => s.rd (F.SAF_BCTL_EN n) = 1 ∧ s.safState n ≠ 0 ∧ s.safe = false) (4) (sSaf 2 7500 [(F.SAF_BSTAT_PERMIT1 4, 1)]) := by decide +kernel

theorem witness_SafetyBlocks_10 : (fun (n : Nat) (s : State) => s.safCause n 0 ≠ 0 ∧ s.safCause n 1 ≠ 0 ∧ s.safState n ≠ 4) (4) (withFlds [(F.FLD_LNK_STATE 1, 4), (F.FLD_LNK_STATE 16, 4)] (sSaf 2 7500 [(F.SAF_BOUT_OUT1_EN 4, 1), (F.SAF_BIN_DEG_LIMIT 4, 9)])) := by decide +kernel

theorem witness_SafetyBlocks_11 : (fun (n : Nat) (x : Nat) (s : State) => x < 2 ∧ s.safCause n x ≠ 0 ∧ s.safCause n (1 - x) = 0) (4) (1) (withFlds [(F.FLD_LNK_STATE 1, 3), (F.FLD_LNK_STATE 16, 4)] (sSaf 2 7500 [(F.SAF_BOUT_OUT1_EN 4, 0), (F.SAF_BIN_DEG_LIMIT 4, 9)])) := by decide +kernel

theorem witness_SafetyBlocks_12 : (fun (n : Nat) (x : Nat) (s : State) => s.safFaulty n x = false) (4) (1) (withFlds [(F.FLD_LNK_STATE 1, 3), (F.FLD_LNK_STATE 16, 4)] (sSaf 2 7500 [(F.SAF_BOUT_OUT1_EN 4, 0), (F.SAF_BIN_DEG_LIMIT 4, 9)])) := by decide +kernel

theorem witness_SafetyBlocks_13 : (fun (n : Nat) (s : State) => s.safState n = 3 ∧ s.inputsAtRun n = false) (4) (sSaf 3 7500 [(F.SAF_BSTAT_PERMIT2 4, 1), (F.SAF_BSTAT_CH1_FLT 4, 1)]) := by decide +kernel

theorem witness_SafetyBlocks_14 : (fun (n : Nat) (s : State) => s.safState n = 3 ∧ s.inputsAtRun n = true ∧ s.rd (F.SAF_BCTL_RST_MODE n) = 1 ∧ s.rd (F.SAF_BSTAT_RESTART n) = 0) (4) (atRun (sSaf 3 7500 [(F.SAF_BCTL_RST_MODE 4, 1), (F.SAF_BSTAT_CH1_FLT 4, 1)])) := by decide +kernel

theorem witness_SafetyBlocks_15 : (fun (n : Nat) (s : State) => ((s.safState n = 2 ∧ s.inputsAtRun n = true) ∨ s.safState n = 4 ∨ ((s.safState n = 1 ∨ s.safState n = 3) ∧ s.inputsAtRun n = true ∧ (s.rd (F.SAF_BCTL_RST_MODE n) = 0 ∨ s.rd (F.SAF_BSTAT_RESTART n) = 1)) ∨ (s.safState n = 1 ∧ s.inputsAtRun n = false))) (4) (atRun (sSaf 2 7500 [])) := by decide +kernel

theorem witness_SafetyBlocks_16 : (fun (n : Nat) (x : Nat) (s : State) => x < 2 ∧ s.safPulsed n 0 = false ∧ s.safPulsed n 1 = false ∧ s.safState n ≠ 3) (4) (0) ((sSaf 2 7500 [(F.SAF_BCTL_FB1_EN 4, 1), (F.SAF_BCTL_FB1_INV 4, 1)]).setSafCh 4 1 { safChZero with level := true }) := by decide +kernel

theorem witness_SafetyBlocks_17 : (fun (n : Fin 32) (x : Fin 2) (r : Nat) (s : State) => (s.safCh n.val x.val).newFrom = some r ∧ s.running = true ∧ s.acts = true ∧ s.rd (F.SAF_BCTL_EN n.val) = 1 ∧ r + s.rd (F.SAF_BCTL_IN_FILT n.val) * 50000 ≤ s.raw ∧ (s.safTpEn n.val x.val = false ∨ s.inMask (s.safTps n.val x.val) s.raw = false)) (4) (1) (10) ((sSaf 1 200000 [(F.SAF_BCTL_IN_FILT 4, 3)]).setSafCh 4 1 { safChZero with newFrom := some 10 }) := by decide +kernel

theorem witness_SafetyBlocks_18 : (fun (n : Fin 32) (x : Fin 2) (r : Nat) (s : State) => (s.safCh n.val x.val).newFrom = some r ∧ s.safTpEn n.val x.val = true ∧ s.inMask (s.safTps n.val x.val) s.raw = true) (4) (1) (10) ((sSaf 1 200000 [(F.SAF_BIN_TP2_EN 4, 1), (F.SAF_BIN_TPS2 4, 3), (F.SAF_TPS_EN 3, 1), (F.SAF_TPS_PER 3, 4)]).setSafCh 4 1 { safChZero with newFrom := some 10 }) := by decide +kernel

theorem witness_SafetyBlocks_19 : (fun (n : Fin 32) (x : Fin 2) (s : State) => (s.running = false ∨ s.acts = false ∨ s.rd (F.SAF_BCTL_EN n.val) = 0 ∨ Option.all (fun r : Nat => decide (s.raw < r + s.rd (F.SAF_BCTL_IN_FILT n.val) * 50000)) (s.safCh n.val x.val).newFrom = true)) (4) (1) ((sSaf 1 150009 [(F.SAF_BCTL_IN_FILT 4, 3)]).setSafCh 4 1 { safChZero with newFrom := some 10 }) := by decide +kernel

theorem witness_SafetyBlocks_20 : (fun (n : Fin 32) (r : Nat) (s : State) => (s.safBlk n.val).discFrom = some r ∧ s.running = true ∧ s.acts = true ∧ r + s.rd (F.SAF_BCTL_DISC_TIME n.val) * 5000000 < s.raw) (4) (10) ((sSaf 2 5000011 []).setSafBlk 4 ⟨some 10, 0⟩) := by decide +kernel

theorem witness_SafetyBlocks_21 : (fun (n : Fin 32) (s : State) => (s.running = false ∨ s.acts = false ∨ Option.all (fun r : Nat => decide (s.raw ≤ r + s.rd (F.SAF_BCTL_DISC_TIME n.val) * 5000000)) (s.safBlk n.val).discFrom = true)) (4) ((sSaf 2 5000010 []).setSafBlk 4 ⟨some 10, 0⟩) := by decide +kernel

theorem witness_SafetyBlocks_22 : (fun (n : Nat) (cause : Nat) (v0 : State) (s : State) => v0 = (((s.safBoth n false).wr (F.SAF_BSTAT_CAUSE n) cause).wr (F.SAF_BSTAT_DEG_LEFT n) 0).setSafBlk n ⟨none, 0⟩) (4) (4) (((((sSaf 2 5000010 []).safBoth 4 false).wr (F.SAF_BSTAT_CAUSE 4) 4).wr (F.SAF_BSTAT_DEG_LEFT 4) 0).setSafBlk 4 ⟨none, 0⟩) (sSaf 2 5000010 []) := by decide +kernel

theorem witness_SafetyBlocks_23 : (fun (n : Fin 32) (r : Nat) (s : State) => (s.safBlk n.val).discFrom = some r ∧ s.running = true ∧ s.acts = true ∧ r + s.rd (F.SAF_BCTL_DISC_TIME n.val) * 5000000 < s.raw ∧ s.rd (F.SAF_BCTL_ESCALATE n.val) = 0 ∧ s.safState n.val ≠ 4) (4) (10) ((sSaf 2 5000011 []).setSafBlk 4 ⟨some 10, 0⟩) := by decide +kernel

theorem witness_SafetyBlocks_24 : (fun (n : Fin 32) (r : Nat) (s : State) => (s.safBlk n.val).discFrom = some r ∧ s.running = true ∧ s.acts = true ∧ r + s.rd (F.SAF_BCTL_DISC_TIME n.val) * 5000000 < s.raw ∧ s.rd (F.SAF_BCTL_ESCALATE n.val) = 1 ∧ s.safState n.val ≠ 4) (4) (10) ((sSaf 2 5000011 [(F.SAF_BCTL_ESCALATE 4, 1)]).setSafBlk 4 ⟨some 10, 0⟩) := by decide +kernel

theorem witness_SafetyBlocks_25 : (fun (n : Fin 32) (x : Fin 2) (r : Nat) (s : State) => (s.safCh n.val x.val).fbFrom = some r ∧ s.running = true ∧ s.acts = true ∧ r + 75000000 < s.raw ∧ s.safFaulty n.val x.val = false ∧ s.safState n.val = 2 ∧ 0 < s.rd (F.SAF_BIN_DEG_LIMIT n.val)) (4) (0) (10) ((sSaf 2 75000011 [(F.SAF_BIN_DEG_LIMIT 4, 9), (F.SAF_BSTAT_PERMIT1 4, 1)]).setSafCh 4 0 { safChZero with fbFrom := some 10 }) := by decide +kernel

theorem witness_SafetyBlocks_26 : (fun (n : Fin 32) (x : Fin 2) (r : Nat) (s : State) => (s.safCh n.val x.val).fbFrom = some r ∧ s.running = true ∧ s.acts = true ∧ r + 75000000 < s.raw ∧ s.safFaulty n.val x.val = false ∧ s.safState n.val = 3 ∧ s.rd (F.SAF_BCTL_ESCALATE n.val) = 0) (4) (1) (10) ((sSaf 3 75000011 [(F.SAF_BIN_DEG_LIMIT 4, 9), (F.SAF_BSTAT_PERMIT1 4, 1)]).setSafCh 4 1 { safChZero with fbFrom := some 10 }) := by decide +kernel

theorem witness_SafetyBlocks_27 : (fun (n : Fin 32) (x : Fin 2) (r : Nat) (s : State) => (s.safCh n.val x.val).fbFrom = some r ∧ s.running = true ∧ s.acts = true ∧ r + 75000000 < s.raw) (4) (0) (10) ((sSaf 2 75000011 [(F.SAF_BIN_DEG_LIMIT 4, 9), (F.SAF_BSTAT_PERMIT1 4, 1)]).setSafCh 4 0 { safChZero with fbFrom := some 10 }) := by decide +kernel

theorem witness_SafetyBlocks_28 : (fun (n : Fin 32) (x : Fin 2) (s : State) => (s.running = false ∨ s.acts = false ∨ Option.all (fun r : Nat => decide (s.raw ≤ r + 75000000)) (s.safCh n.val x.val).fbFrom = true)) (4) (0) ((sSaf 2 75000010 []).setSafCh 4 0 { safChZero with fbFrom := some 10 }) := by decide +kernel

theorem witness_SafetyBlocks_29 : (fun (n : Nat) (x : Nat) (s : State) => (s.safFaulty n x = true ∨ s.safState n = 0)) (4) (0) (sSaf 2 9 [(F.SAF_BSTAT_CH1_FLT 4, 1)]) := by decide +kernel

theorem witness_SafetyBlocks_30 : (fun (n : Nat) (x : Nat) (s : State) => s.safFaulty n x = false ∧ s.safState n ≠ 0 ∧ n < 32 ∧ x < 2) (4) (1) (sSaf 4 9 []) := by decide +kernel

theorem witness_SafetyBlocks_31 : (fun (n : Fin 32) (s : State) => s.running = true ∧ s.acts = true ∧ s.safState n.val = 3 ∧ (s.safBlk n.val).degEnd ≤ s.raw) (4) ((sSaf 3 75000011 [(F.SAF_BSTAT_PERMIT2 4, 1)]).setSafBlk 4 ⟨none, 75000011⟩) := by decide +kernel

theorem witness_SafetyBlocks_32 : (fun (n : Fin 32) (s : State) => (s.running = false ∨ s.acts = false ∨ s.safState n.val ≠ 3 ∨ s.raw < (s.safBlk n.val).degEnd)) (4) ((sSaf 3 75000010 []).setSafBlk 4 ⟨none, 75000011⟩) := by decide +kernel

theorem witness_SafetyBlocks_33 : (fun (n : Fin 32) (s : State) => s.running = true ∧ s.acts = true ∧ s.safState n.val = 3 ∧ (s.safBlk n.val).degEnd ≤ s.raw ∧ s.rd (F.SAF_BCTL_ESCALATE n.val) = 0) (4) ((sSaf 3 75000011 [(F.SAF_BSTAT_PERMIT2 4, 1)]).setSafBlk 4 ⟨none, 75000011⟩) := by decide +kernel

theorem witness_TestPulsesAndResets_1 : (fun (k : Fin 16) (s : State) => s.tpsLive k.val = true ∧ s.pulses k.val (s.raw / 500000) = true ∧ 127500 ≤ s.raw % 500000 ∧ s.raw % 500000 < 378000) (3) ((sSaf 1 127500 [(F.SAF_TPS_EN 3, 1), (F.SAF_TPS_PER 3, 4)]).setIsl 56 { islandZero with conf := true, safe := false }) := by decide +kernel

theorem witness_TestPulsesAndResets_2 : (fun (k : Fin 16) (s : State) => (s.tpsLive k.val = false ∨ s.pulses k.val (s.raw / 500000) = false ∨ s.raw % 500000 < 127500 ∨ 378000 ≤ s.raw % 500000)) (3) ((sSaf 1 627500 [(F.SAF_TPS_EN 3, 1), (F.SAF_TPS_PER 3, 4)]).setIsl 56 { islandZero with conf := true, safe := false }) := by decide +kernel

theorem witness_TestPulsesAndResets_3 : (fun (k : Fin 16) (s : State) => (s.tps k.val).pulsing = true ∧ 377500 ≤ s.raw % 500000) (3) ((sSaf 1 377500 []).setTps 3 ⟨true, false, false⟩) := by decide +kernel

theorem witness_TestPulsesAndResets_4 : (fun (k : Fin 16) (s : State) => ((s.tps k.val).pulsing = false ∨ s.raw % 500000 < 377500)) (3) ((sSaf 1 377499 []).setTps 3 ⟨true, false, false⟩) := by decide +kernel

theorem witness_TestPulsesAndResets_5 : (fun (n : Fin 32) (x : Fin 2) (s : State) => s.running = true ∧ s.acts = true ∧ s.rd (F.SAF_BCTL_EN n.val) = 1 ∧ s.safTpEn n.val x.val = true ∧ s.pulses (s.safTps n.val x.val) (s.raw / 500000) = true ∧ 381840 ≤ s.raw % 500000 ∧ (s.safCh n.val x.val).slot = s.raw / 500000 ∧ 4 ≤ (s.safCh n.val x.val).samples ∧ (s.safCh n.val x.val).ones = 0 ∧ s.tpsFault (s.safTps n.val x.val) = false) (4) (1) ((sSaf 1 381840 [(F.SAF_BIN_TP2_EN 4, 1), (F.SAF_BIN_TPS2 4, 3), (F.SAF_TPS_EN 3, 1), (F.SAF_TPS_PER 3, 4)]).setSafCh 4 1 { safChZero with samples := 4, passed := 3 }) := by decide +kernel

theorem witness_TestPulsesAndResets_6 : (fun (n : Fin 32) (x : Fin 2) (s : State) => s.running = true ∧ s.acts = true ∧ s.rd (F.SAF_BCTL_EN n.val) = 1 ∧ s.safTpEn n.val x.val = true ∧ s.pulses (s.safTps n.val x.val) (s.raw / 500000) = true ∧ 381840 ≤ s.raw % 500000 ∧ (s.safCh n.val x.val).slot = s.raw / 500000 ∧ 4 ≤ (s.safCh n.val x.val).samples ∧ 0 < (s.safCh n.val x.val).ones ∧ s.safFaulty n.val x.val = false ∧ s.safState n.val = 2 ∧ s.rd (F.SAF_BIN_DEG_LIMIT n.val) = 0 ∧ s.rd (F.SAF_BCTL_ESCALATE n.val) = 0) (4) (1) ((sSaf 2 381840 [(F.SAF_BIN_TP2_EN 4, 1), (F.SAF_BIN_TPS2 4, 3), (F.SAF_TPS_EN 3, 1), (F.SAF_TPS_PER 3, 4)]).setSafCh 4 1 { safChZero with samples := 4, ones := 1 }) := by decide +kernel

theorem witness_TestPulsesAndResets_7 : (fun (n : Fin 32) (x : Fin 2) (s : State) => s.running = true ∧ s.acts = true ∧ s.rd (F.SAF_BCTL_EN n.val) = 1 ∧ s.safTpEn n.val x.val = true ∧ s.pulses (s.safTps n.val x.val) (s.raw / 500000) = true ∧ 381840 ≤ s.raw % 500000 ∧ (s.safCh n.val x.val).slot = s.raw / 500000 ∧ (s.safCh n.val x.val).samples < 4) (4) (1) ((sSaf 2 381840 [(F.SAF_BIN_TP2_EN 4, 1), (F.SAF_BIN_TPS2 4, 3), (F.SAF_TPS_EN 3, 1), (F.SAF_TPS_PER 3, 4)]).setSafCh 4 1 { safChZero with samples := 3, ones := 1, passed := 2 }) := by decide +kernel

theorem witness_TestPulsesAndResets_8 : (fun (n : Fin 32) (x : Fin 2) (s : State) => s.running = true ∧ s.acts = true ∧ s.rd (F.SAF_BCTL_EN n.val) = 1 ∧ s.safTpEn n.val x.val = true ∧ s.pulses (s.safTps n.val x.val) (s.raw / 500000) = true ∧ 381840 ≤ s.raw % 500000 ∧ (s.safCh n.val x.val).slot = s.raw / 500000 ∧ 4 ≤ (s.safCh n.val x.val).samples ∧ 0 < (s.safCh n.val x.val).ones ∧ s.safFaulty n.val x.val = false) (4) (1) ((sSaf 2 381840 [(F.SAF_BIN_TP2_EN 4, 1), (F.SAF_BIN_TPS2 4, 3), (F.SAF_TPS_EN 3, 1), (F.SAF_TPS_PER 3, 4)]).setSafCh 4 1 { safChZero with samples := 4, ones := 1 }) := by decide +kernel

theorem witness_TestPulsesAndResets_9 : (fun (n : Fin 32) (x : Fin 2) (s : State) => s.running = true ∧ s.acts = true ∧ s.rd (F.SAF_BCTL_EN n.val) = 1 ∧ s.safTpEn n.val x.val = true ∧ s.pulses (s.safTps n.val x.val) (s.raw / 500000) = true ∧ 381840 ≤ s.raw % 500000 ∧ (s.safCh n.val x.val).slot = s.raw / 500000 ∧ 4 ≤ (s.safCh n.val x.val).samples ∧ 0 < (s.safCh n.val x.val).ones ∧ s.safFaulty n.val x.val = true) (4) (1) ((sSaf 3 381840 [(F.SAF_BIN_TP2_EN 4, 1), (F.SAF_BIN_TPS2 4, 3), (F.SAF_TPS_EN 3, 1), (F.SAF_TPS_PER 3, 4), (F.SAF_BSTAT_CH2_FLT 4, 1)]).setSafCh 4 1 { safChZero with samples := 4, ones := 1 }) := by decide +kernel

theorem witness_TestPulsesAndResets_10 : (fun (n : Fin 32) (x : Fin 2) (s : State) => s.running = true ∧ s.acts = true ∧ s.rd (F.SAF_BCTL_EN n.val) = 1 ∧ s.safTpEn n.val x.val = true ∧ s.pulses (s.safTps n.val x.val) (s.raw / 500000) = true ∧ 381840 ≤ s.raw % 500000 ∧ ((s.safCh n.val x.val).slot ≠ s.raw / 500000 ∨ (s.safCh n.val x.val).samples < 4 ∨ ((s.safCh n.val x.val).ones = 0 ∧ s.tpsFault (s.safTps n.val x.val) = true))) (4) (1) ((sSaf 2 381840 [(F.SAF_BIN_TP2_EN 4, 1), (F.SAF_BIN_TPS2 4, 3), (F.SAF_TPS_EN 3, 1), (F.SAF_TPS_PER 3, 4)]).setSafCh 4 1 { safChZero with slot := 7, samples := 4, passed := 2 }) := by decide +kernel

theorem witness_TestPulsesAndResets_11 : (fun (n : Fin 32) (x : Fin 2) (s : State) => (s.running = false ∨ s.acts = false ∨ s.rd (F.SAF_BCTL_EN n.val) = 0 ∨ s.safTpEn n.val x.val = false ∨ s.pulses (s.safTps n.val x.val) (s.raw / 500000) = false ∨ s.raw % 500000 < 381840)) (4) (1) ((sSaf 1 381839 [(F.SAF_BIN_TP2_EN 4, 1), (F.SAF_BIN_TPS2 4, 3), (F.SAF_TPS_EN 3, 1), (F.SAF_TPS_PER 3, 4)]).setSafCh 4 1 { safChZero with samples := 4, passed := 3 }) := by decide +kernel

theorem witness_TestPulsesAndResets_12 : (fun (k : Fin 16) (s : State) => s.tpsLive k.val = true) (3) ((sSaf 1 127500 []).setIsl 56 { islandZero with conf := true, safe := false }) := by decide +kernel

theorem witness_TestPulsesAndResets_13 : (fun (k : Fin 16) (s : State) => s.tpsLive k.val = false) (3) (sSaf 1 127500 []) := by decide +kernel

theorem witness_TestPulsesAndResets_14 : (fun (s : State) => s.phase ≠ Phase.reset ∧ s.pwr.state ≠ PowerState.e3) ((sSaf 1 127500 []).setIsl 57 { islandZero with low := true }) := by decide +kernel

theorem witness_TestPulsesAndResets_15 : (fun (s : State) => (s.phase = Phase.reset ∨ s.pwr.state = PowerState.e3)) ({ sSaf 1 127500 [] with phase := .reset }) := by decide +kernel

theorem witness_TestPulsesAndResets_16 : (fun (c : Cmd) (n : Nat) (s : State) => inHand 0x15 0x10 c s ∧ c.headerOk = true ∧ n = c.fld 8 0 5 ∧ c.fld 8 5 27 = 0 ∧ c.zeroFrom 0xC = true ∧ s.rd (F.SAF_BCTL_EN n) = 1 ∧ (s.ctx c.ring).mp = false ∧ s.rd (F.SAF_BCTL_PART n) = (s.cmdPart c).toNat ∧ s.safState n = 1 ∧ s.inputsAtRun n = true) (cmd5 [(0, 0x10), (8, 4)]) (4) (sEng 0x15 (cmd5 [(0, 0x10), (8, 4)]) (atRun (sSaf 1 127500 [(F.SAF_BSTAT_RESTART 4, 1)]))) := by decide +kernel

theorem witness_TestPulsesAndResets_17 : (fun (c : Cmd) (n : Nat) (s : State) => inHand 0x15 0x10 c s ∧ c.headerOk = true ∧ n = c.fld 8 0 5 ∧ c.fld 8 5 27 = 0 ∧ c.zeroFrom 0xC = true ∧ s.rd (F.SAF_BCTL_EN n) = 1 ∧ (s.ctx c.ring).mp = false ∧ s.rd (F.SAF_BCTL_PART n) = (s.cmdPart c).toNat ∧ s.safState n = 1 ∧ s.inputsAtRun n = false) (cmd5 [(0, 0x10), (8, 4)]) (4) (sEng 0x15 (cmd5 [(0, 0x10), (8, 4)]) (sSaf 1 127500 [(F.SAF_BSTAT_RESTART 4, 1)])) := by decide +kernel

theorem witness_TestPulsesAndResets_18 : (fun (c : Cmd) (n : Nat) (s : State) => inHand 0x15 0x10 c s ∧ c.headerOk = true ∧ n = c.fld 8 0 5 ∧ c.fld 8 5 27 = 0 ∧ c.zeroFrom 0xC = true ∧ s.rd (F.SAF_BCTL_EN n) = 1 ∧ (s.ctx c.ring).mp = false ∧ s.rd (F.SAF_BCTL_PART n) = (s.cmdPart c).toNat ∧ s.safState n = 4 ∧ s.causePresent n 0 = false ∧ s.causePresent n 1 = false ∧ (s.safClearFaults n).inputsAtRun n = true) (cmd5 [(0, 0x10), (8, 4)]) (4) (sEng 0x15 (cmd5 [(0, 0x10), (8, 4)]) (atRun (sSaf 4 127500 [(F.SAF_BSTAT_CH1_FLT 4, 1), (F.SAF_BSTAT_CAUSE 4, 4)]))) := by decide +kernel

theorem witness_TestPulsesAndResets_19 : (fun (c : Cmd) (n : Nat) (s : State) => inHand 0x15 0x10 c s ∧ c.headerOk = true ∧ n = c.fld 8 0 5 ∧ c.fld 8 5 27 = 0 ∧ c.zeroFrom 0xC = true ∧ s.rd (F.SAF_BCTL_EN n) = 1 ∧ ((s.ctx c.ring).mp = true ∨ s.rd (F.SAF_BCTL_PART n) ≠ (s.cmdPart c).toNat)) (cmd5 [(0, 0x10), (8, 4)]) (4) (withFlds [(F.SAF_BCTL_PART 4, 2)] (sEng 0x15 (cmd5 [(0, 0x10), (8, 4)]) (sSaf 1 9 []))) := by decide +kernel

theorem witness_TestPulsesAndResets_20 : (fun (c : Cmd) (s : State) => inHand 0x15 0x10 c s ∧ (c.headerOk = false ∨ c.fld 8 5 27 ≠ 0 ∨ c.zeroFrom 0xC = false ∨ s.rd (F.SAF_BCTL_EN (c.fld 8 0 5)) = 0)) (cmd5 [(0, 0x10), (8, 5)]) (sEng 0x15 (cmd5 [(0, 0x10), (8, 5)]) (sSaf 1 9 [])) := by decide +kernel

theorem witness_TestPulsesAndResets_21 : (fun (c : Cmd) (n : Nat) (s : State) => inHand 0x15 0x10 c s ∧ c.headerOk = true ∧ n = c.fld 8 0 5 ∧ c.fld 8 5 27 = 0 ∧ c.zeroFrom 0xC = true ∧ s.rd (F.SAF_BCTL_EN n) = 1 ∧ (s.ctx c.ring).mp = false ∧ s.rd (F.SAF_BCTL_PART n) = (s.cmdPart c).toNat ∧ s.safState n = 2) (cmd5 [(0, 0x10), (8, 4)]) (4) (sEng 0x15 (cmd5 [(0, 0x10), (8, 4)]) (sSaf 2 9 [])) := by decide +kernel

theorem witness_TestPulsesAndResets_22 : (fun (c : Cmd) (n : Nat) (s : State) => inHand 0x15 0x10 c s ∧ c.headerOk = true ∧ n = c.fld 8 0 5 ∧ c.fld 8 5 27 = 0 ∧ c.zeroFrom 0xC = true ∧ s.rd (F.SAF_BCTL_EN n) = 1 ∧ (s.ctx c.ring).mp = false ∧ s.rd (F.SAF_BCTL_PART n) = (s.cmdPart c).toNat ∧ s.safState n = 3 ∧ s.inputsAtRun n = false) (cmd5 [(0, 0x10), (8, 4)]) (4) (sEng 0x15 (cmd5 [(0, 0x10), (8, 4)]) (sSaf 3 9 [(F.SAF_BSTAT_CH1_FLT 4, 1)])) := by decide +kernel

theorem witness_TestPulsesAndResets_23 : (fun (c : Cmd) (n : Nat) (s : State) => inHand 0x15 0x10 c s ∧ c.headerOk = true ∧ n = c.fld 8 0 5 ∧ c.fld 8 5 27 = 0 ∧ c.zeroFrom 0xC = true ∧ s.rd (F.SAF_BCTL_EN n) = 1 ∧ (s.ctx c.ring).mp = false ∧ s.rd (F.SAF_BCTL_PART n) = (s.cmdPart c).toNat ∧ s.safState n = 3 ∧ s.inputsAtRun n = true ∧ (s.causePresent n 0 = true ∨ s.causePresent n 1 = true)) (cmd5 [(0, 0x10), (8, 4)]) (4) (sEng 0x15 (cmd5 [(0, 0x10), (8, 4)]) ((atRun (sSaf 3 9 [(F.SAF_BSTAT_CH1_FLT 4, 1)])).setSafCh 4 0 { safChZero with cause := 1, passed := 2 })) := by decide +kernel

theorem witness_TestPulsesAndResets_24 : (fun (c : Cmd) (n : Nat) (s : State) => inHand 0x15 0x10 c s ∧ c.headerOk = true ∧ n = c.fld 8 0 5 ∧ c.fld 8 5 27 = 0 ∧ c.zeroFrom 0xC = true ∧ s.rd (F.SAF_BCTL_EN n) = 1 ∧ (s.ctx c.ring).mp = false ∧ s.rd (F.SAF_BCTL_PART n) = (s.cmdPart c).toNat ∧ s.safState n = 3 ∧ s.inputsAtRun n = true ∧ s.causePresent n 0 = false ∧ s.causePresent n 1 = false) (cmd5 [(0, 0x10), (8, 4)]) (4) (sEng 0x15 (cmd5 [(0, 0x10), (8, 4)]) (atRun (sSaf 3 9 [(F.SAF_BSTAT_CH1_FLT 4, 1)]))) := by decide +kernel

theorem witness_TestPulsesAndResets_25 : (fun (c : Cmd) (n : Nat) (s : State) => inHand 0x15 0x10 c s ∧ c.headerOk = true ∧ n = c.fld 8 0 5 ∧ c.fld 8 5 27 = 0 ∧ c.zeroFrom 0xC = true ∧ s.rd (F.SAF_BCTL_EN n) = 1 ∧ (s.ctx c.ring).mp = false ∧ s.rd (F.SAF_BCTL_PART n) = (s.cmdPart c).toNat ∧ s.safState n = 4 ∧ (s.causePresent n 0 = true ∨ s.causePresent n 1 = true)) (cmd5 [(0, 0x10), (8, 4)]) (4) (sEng 0x15 (cmd5 [(0, 0x10), (8, 4)]) ((sSaf 4 9 [(F.SAF_BSTAT_CH1_FLT 4, 1)]).setSafCh 4 0 { safChZero with cause := 1, passed := 2 })) := by decide +kernel

theorem witness_TestPulsesAndResets_26 : (fun (c : Cmd) (n : Nat) (s : State) => inHand 0x15 0x10 c s ∧ c.headerOk = true ∧ n = c.fld 8 0 5 ∧ c.fld 8 5 27 = 0 ∧ c.zeroFrom 0xC = true ∧ s.rd (F.SAF_BCTL_EN n) = 1 ∧ (s.ctx c.ring).mp = false ∧ s.rd (F.SAF_BCTL_PART n) = (s.cmdPart c).toNat ∧ s.safState n = 4 ∧ s.causePresent n 0 = false ∧ s.causePresent n 1 = false ∧ (s.safClearFaults n).inputsAtRun n = false) (cmd5 [(0, 0x10), (8, 4)]) (4) (sEng 0x15 (cmd5 [(0, 0x10), (8, 4)]) (sSaf 4 9 [(F.SAF_BSTAT_CH1_FLT 4, 1)])) := by decide +kernel

theorem witness_TestPulsesAndResets_27 : (fun (c : Cmd) (a : Nat) (s : State) => inHand 0x15 0x11 c s ∧ c.headerOk = true ∧ c.word 8 = 0 ∧ c.word 0xC = 0 ∧ c.fld 0x14 8 24 = 0 ∧ c.zeroFrom 0x18 = true ∧ a = c.addr 0x10 ∧ a % 128 = 0 ∧ s.engineMayWrite a 128 = true) (cmd5 [(0, 0x11), (0x10, 0x80), (0x14, 0x10)]) (0x1000000080) (volat (sEng 0x15 (cmd5 [(0, 0x11), (0x10, 0x80), (0x14, 0x10)]) (sSaf 4 127500 []))) := by decide +kernel

theorem witness_TestPulsesAndResets_28 : (fun (c : Cmd) (s : State) => inHand 0x15 0x11 c s ∧ (c.headerOk = false ∨ c.word 8 ≠ 0 ∨ c.word 0xC ≠ 0 ∨ c.fld 0x14 8 24 ≠ 0 ∨ c.zeroFrom 0x18 = false ∨ c.addr 0x10 % 128 ≠ 0 ∨ s.engineMayWrite (c.addr 0x10) 128 = false)) (cmd5 [(0, 0x11), (0x10, 0x80), (0x14, 0x10)]) (sEng 0x15 (cmd5 [(0, 0x11), (0x10, 0x80), (0x14, 0x10)]) (sSaf 4 127500 [])) := by decide +kernel

theorem witness_TestPulsesAndResets_29 : (fun (s : State) => (s.hand 0x15 = none ∨ s.running = false)) (sOp) := by decide +kernel

theorem witness_TestPulsesAndResets_30 : (fun (c : Cmd) (a : Nat) (s : State) => inHand 0x15 0x11 c s ∧ c.headerOk = true ∧ c.word 8 = 0 ∧ c.word 0xC = 0 ∧ c.fld 0x14 8 24 = 0 ∧ c.zeroFrom 0x18 = true ∧ a = c.addr 0x10 ∧ a % 128 = 0 ∧ s.engineMayWrite a 128 = true ∧ s.ecc = [] ∧ s.pairOn = false) (cmd5 [(0, 0x11), (0x10, 0x80), (0x14, 0x10)]) (0x1000000080) (volat (sEng 0x15 (cmd5 [(0, 0x11), (0x10, 0x80), (0x14, 0x10)]) (sSaf 4 127500 []))) := by decide +kernel

theorem witness_PairJoinsAndHeartbeats_1 : (fun (w : Word) (s : State) => s.mustWait = false ∧ s.phase = Phase.setup ∧ s.pairOn = true ∧ w.toNat % 65536 = 0x504A ∧ s.rd F.PAIR_STAT_JOINED = 0 ∧ s.pair.join = none) (0x1504A) (sPairJoin Pair.start []) := by decide +kernel

theorem witness_PairJoinsAndHeartbeats_2 : (fun (w : Word) (s : State) => s.mustWait = false ∧ (w.toNat % 65536 ≠ 0x504A ∨ s.phase ≠ Phase.setup ∨ s.pairOn = false ∨ s.rd F.PAIR_STAT_JOINED = 1 ∨ s.pair.join.isSome = true)) (0x1504B) (sPairJoin Pair.start []) := by decide +kernel

theorem witness_PairJoinsAndHeartbeats_3 : (fun (s : State) => s.mustWait = true) (withFlds [(F.SYS_IMG_STAT_BUSY, 1)] (sPairJoin Pair.start [])) := by decide +kernel

theorem witness_PairJoinsAndHeartbeats_4 : (fun (r : Nat) (f : Bool) (s : State) => s.pair.join = some (r, f) ∧ s.pairRuns = true ∧ s.rd F.PAIR_STAT_PEER = 0 ∧ reached s.raw (r + s.rd F.PAIR_CFG_JOIN_TMO * 10 * 500000) = true) (100) (true) (sPairJoin { Pair.start with join := some (100, true) } [(F.PAIR_STAT_PEER, 0)]) := by decide +kernel

theorem witness_PairJoinsAndHeartbeats_5 : (fun (s : State) => (Option.all (fun x : Nat × Bool => !(reached s.raw (x.1 + s.rd F.PAIR_CFG_JOIN_TMO * 10 * 500000))) s.pair.join = true ∨ s.pairRuns = false ∨ s.rd F.PAIR_STAT_PEER = 1)) (sPairJoin Pair.start []) := by decide +kernel

theorem witness_PairJoinsAndHeartbeats_6 : (fun (f : Bool) (s : State) => (f = true ∨ (s.rd F.PAIR_CFG_ALONE_EN = 1 ∧ (s.pairRecRole = 3 ∨ s.epoch = 0)))) (true) (sPairJoin { Pair.start with join := some (100, true) } []) := by decide +kernel

theorem witness_PairJoinsAndHeartbeats_7 : (fun (s : State) => s.rd F.PAIR_CFG_ALONE_EN = 0) (sPairJoin { Pair.start with join := some (100, false) } [(F.PAIR_CFG_ALONE_EN, 0)]) := by decide +kernel

theorem witness_PairJoinsAndHeartbeats_8 : (fun (s : State) => s.rd F.PAIR_CFG_ALONE_EN = 1 ∧ s.pairRecRole ≠ 3 ∧ s.epoch ≠ 0) (sPairJoin { Pair.start with join := some (100, false) } [(F.PAIR_CFG_ALONE_EN, 1)]) := by decide +kernel

theorem witness_PairJoinsAndHeartbeats_9 : (fun (r : Nat) (s : State) => s.pair.join = some (r, true) ∧ s.pairRuns = true ∧ s.rd F.PAIR_STAT_PEER = 0 ∧ reached s.raw (r + s.rd F.PAIR_CFG_JOIN_TMO * 10 * 500000) = true ∧ s.role = 0 ∧ s.pairRecBest = none) (100) (sPairJoin { Pair.start with join := some (100, true) } [(F.PAIR_STAT_PEER, 0)]) := by decide +kernel

theorem witness_PairJoinsAndHeartbeats_10 : (fun (r : Nat) (s : State) => s.pair.join = some (r, false) ∧ s.pairRuns = true ∧ s.rd F.PAIR_STAT_PEER = 0 ∧ reached s.raw (r + s.rd F.PAIR_CFG_JOIN_TMO * 10 * 500000) = true ∧ s.role = 0 ∧ s.rd F.PAIR_CFG_ALONE_EN = 0) (100) (sPairJoin { Pair.start with join := some (100, false) } [(F.PAIR_STAT_PEER, 0), (F.PAIR_CFG_ALONE_EN, 0)]) := by decide +kernel

theorem witness_PairJoinsAndHeartbeats_11 : (fun (lane : Fin 2) (up : Bool) (f : Fld) (s : State) => s.pairRuns = true ∧ f = (if lane = 0 then F.PAIR_STAT_LANE0 else F.PAIR_STAT_LANE1) ∧ s.rd f = b2n (!up) ∧ (s.role ≠ 1 ∨ up = true ∨ s.rd (if lane = 0 then F.PAIR_STAT_LANE1 else F.PAIR_STAT_LANE0) = 1)) (1) (true) (F.PAIR_STAT_LANE1) (sPair 2 3 9000000 []) := by decide +kernel

theorem witness_PairJoinsAndHeartbeats_12 : (fun (lane : Fin 2) (s : State) => s.pairRuns = true ∧ s.role = 1 ∧ s.rd (if lane = 0 then F.PAIR_STAT_LANE0 else F.PAIR_STAT_LANE1) = 1 ∧ s.rd (if lane = 0 then F.PAIR_STAT_LANE1 else F.PAIR_STAT_LANE0) = 0) (0) (sPair 1 3 9000000 []) := by decide +kernel

theorem witness_PairJoinsAndHeartbeats_13 : (fun (lane : Fin 2) (up : Bool) (s : State) => (s.pairRuns = false ∨ s.rd (if lane = 0 then F.PAIR_STAT_LANE0 else F.PAIR_STAT_LANE1) = b2n up)) (0) (true) (sPair 1 3 9000000 []) := by decide +kernel

theorem witness_PairJoinsAndHeartbeats_14 : (fun (s : State) => s.pairRuns = true ∧ s.pairLink = true ∧ reached s.raw (s.pair.hbTx + 50000) = true) (sPair 2 3 9000000 []) := by decide +kernel

theorem witness_PairJoinsAndHeartbeats_15 : (fun (s : State) => (s.pairRuns = false ∨ s.pairLink = false ∨ reached s.raw (s.pair.hbTx + 50000) = false)) (withFlds [(F.PAIR_CFG_EN, 0)] (sPair 2 3 9000000 [])) := by decide +kernel

theorem witness_PairJoinsAndHeartbeats_16 : (fun (s : State) => (s.pairRuns = false ∨ s.pairLink = false)) (sPair 2 3 9000000 [(F.PAIR_STAT_LANE0, 0)]) := by decide +kernel

theorem witness_PairJoinsAndHeartbeats_17 : (fun (s : State) => s.pairRuns = true ∧ s.pairLink = true ∧ s.pair.join = none) (withPair (fun p => { p with hbRx := some 8900000 }) (sPair 3 2 9000000 [])) := by decide +kernel

theorem witness_PairJoinsAndHeartbeats_18 : (fun (r : Nat) (f : Bool) (s : State) => s.pairRuns = true ∧ s.pairLink = true ∧ s.pair.join = some (r, f)) (5) (false) (sPairJoin { Pair.start with join := some (5, false), hbRx := some 8950000 } []) := by decide +kernel

theorem witness_PairJoinsAndHeartbeats_19 : (fun (h : Machine.Heartbeat) (s : State) => s.rd F.PAIR_STAT_PEER = 0 ∧ s.rd F.SYS_STRAP_PREFER = b2n (!h.prefer)) (beat 2 9 0x1234 false) (sPair 2 3 9000000 [(F.PAIR_STAT_PEER, 0)]) := by decide +kernel

theorem witness_PairJoinsAndHeartbeats_20 : (fun (h : Machine.Heartbeat) (s : State) => s.rd F.PAIR_STAT_PEER = 0 ∧ s.rd F.SYS_STRAP_PREFER = b2n h.prefer) (beat 2 9 0x1234 false) (sPair 2 3 9000000 [(F.PAIR_STAT_PEER, 0), (F.SYS_STRAP_PREFER, 1)]) := by decide +kernel

theorem witness_PairJoinsAndHeartbeats_21 : (fun (r : Nat) (s : State) => s.rd F.PAIR_STAT_PEER = 1 ∧ s.pair.hbRx = some r) (8800000) (withPair (fun p => { p with hbRx := some 8800000 }) (sPair 3 2 9000000 [])) := by decide +kernel

theorem witness_PairJoinsAndHeartbeats_22 : (fun (o : Nat) (n : Nat) (s : State) => (o = n ∨ s.role ≠ 3)) (2) (2) (sPair 3 2 9000000 []) := by decide +kernel

theorem witness_PairJoinsAndHeartbeats_23 : (fun (o : Nat) (s : State) => o ≠ 1 ∧ s.role = 3) (0) (sPair 3 0 9000000 []) := by decide +kernel

theorem witness_PairJoinsAndHeartbeats_24 : (fun (o : Nat) (s : State) => o ≠ 2 ∧ s.role = 3) (1) (withPair (fun p => { p with noack := some 5 }) (sPair 3 0 9000000 [(F.PAIR_STAT_OUT_OF_STEP, 1)])) := by decide +kernel

theorem witness_PairJoinsAndHeartbeats_25 : (fun (s : State) => s.role = 3 ∧ s.rd F.PAIR_STAT_OUT_OF_STEP = 0) (sPair 3 2 9000000 []) := by decide +kernel

theorem witness_PairJoinsAndHeartbeats_26 : (fun (o : Nat) (n : Nat) (s : State) => (n = 3 ∨ (n = 0 ∧ (o ≠ 2 ∨ s.rd F.PAIR_STAT_OUT_OF_STEP = 1)))) (2) (3) (sPair 3 2 9000000 []) := by decide +kernel

theorem witness_PairJoinsAndHeartbeats_27 : (fun (h : Machine.Heartbeat) (s : State) => s.role = 1 ∧ h.role ≠ 3) (beat 2 9 0x1234 false) (sPair 1 3 9000000 []) := by decide +kernel

theorem witness_PairJoinsAndHeartbeats_28 : (fun (h : Machine.Heartbeat) (k : Nat) (s : State) => s.role = 2 ∧ h.noack = some (BitVec.ofNat 64 k) ∧ k < 2 ^ 64 ∧ s.pairLast < k) ({ beat 3 9 0x1234 false with noack := some 41 }) (41) (sPair 2 3 9000000 []) := by decide +kernel

theorem witness_PairJoinsAndHeartbeats_29 : (fun (h : Machine.Heartbeat) (s : State) => ((s.role = 1 ∧ h.role = 3) ∨ (s.role = 2 ∧ s.pair.lossAt = none ∧ s.behind h = false))) (beat 3 9 0x1234 false) (sPair 1 3 9000000 []) := by decide +kernel

theorem witness_PairJoinsAndHeartbeats_30 : (fun (h : Machine.Heartbeat) (s : State) => s.role = 0 ∧ s.operate = true ∧ h.role = 3 ∧ s.sameImage h = true) (beat 3 9 0x1234 false) (sPair 0 3 9000000 []) := by decide +kernel

theorem witness_PairJoinsAndHeartbeats_31 : (fun (h : Machine.Heartbeat) (k : Nat) (x : PairSwitch) (s : State) => s.role = 3 ∧ h.role = 3 ∧ s.pair.switch = some x ∧ x.stage = .sealed k) (beat 3 9 0x1234 false) (41) (⟨none, 5, .sealed 41⟩) (withPair (fun p => { p with switch := some ⟨none, 5, .sealed 41⟩ }) (sPair 3 3 9000000 [(F.FLD_LNK_STATE 30, 3), (F.FLD_LNK_STATE 17, 4)])) := by decide +kernel

theorem witness_PairJoinsAndHeartbeats_32 : (fun (h : Machine.Heartbeat) (s : State) => ((s.role = 0 ∧ (s.operate = false ∨ h.role ≠ 3 ∨ s.sameImage h = false)) ∨ (s.role = 2 ∧ s.pair.lossAt.isSome = true ∧ s.behind h = false) ∨ (s.role = 3 ∧ (s.pair.switch = none ∨ h.role ≠ 3)))) (beat 2 9 0x1234 false) (sPair 0 3 9000000 []) := by decide +kernel

theorem witness_PairJoinsAndHeartbeats_33 : (fun (i : Nat) => i < 80) (23) := by decide +kernel

theorem witness_PairJoinsAndHeartbeats_35 : (fun (h : Machine.Heartbeat) (s : State) => s.sameImage h = false) (beat 3 9 0x1235 false) (sPairJoin { Pair.start with join := some (100, false) } []) := by decide +kernel

theorem witness_PairJoinsAndHeartbeats_36 : (fun (h : Machine.Heartbeat) (s : State) => s.sameImage h = true ∧ (h.role = 3 ∨ (h.joining = true ∧ (s.epoch < h.epoch.toNat ∨ (h.epoch.toNat = s.epoch ∧ s.rd F.PAIR_STAT_PREFER_UNIT = 0))))) (beat 3 9 0x1234 false) (sPairJoin { Pair.start with join := some (100, false) } []) := by decide +kernel

theorem witness_PairJoinsAndHeartbeats_37 : (fun (h : Machine.Heartbeat) (s : State) => s.sameImage h = true ∧ h.role ≠ 3 ∧ h.joining = true ∧ (h.epoch.toNat < s.epoch ∨ (h.epoch.toNat = s.epoch ∧ s.rd F.PAIR_STAT_PREFER_UNIT = 1))) (beat 0 6 0x1234 true) (sPairJoin { Pair.start with join := some (100, false) } []) := by decide +kernel

theorem witness_PairJoinsAndHeartbeats_38 : (fun (h : Machine.Heartbeat) (s : State) => s.sameImage h = true ∧ h.role ≠ 3 ∧ h.joining = false) (beat 0 9 0x1234 false) (sPairJoin { Pair.start with join := some (100, true) } []) := by decide +kernel

theorem witness_PairJoinsAndHeartbeats_39 : (fun (s : State) => (s.joined.lockErr false).1 = 0) (withFlds [(F.SYS_IMG_STAT_ACCEPTED, 1)] (withPair (fun p => { p with join := some (5, false) }) { inPhase .setup with tb := { sOp.tb with raw := 9000000 } })) := by decide +kernel

theorem witness_PairJoinsAndHeartbeats_40 : (fun (s : State) => (s.joined.lockErr false).1 ≠ 0) (sPairJoin { Pair.start with join := some (100, false) } []) := by decide +kernel

theorem witness_PairJoinsAndHeartbeats_41 : (fun (h : Machine.Heartbeat) (s : State) => s.pairRuns = true ∧ s.pairLink = true ∧ s.pair.join = none ∧ s.pair.switch = none ∧ s.role = 3 ∧ s.rd F.PAIR_STAT_PEER = 1 ∧ h.role.toNat = s.rd F.PAIR_STAT_PEER_ROLE) (beat 2 9 0x1234 false) (withPair (fun p => { p with hbRx := some 8900000 }) (sPair 3 2 9000000 [])) := by decide +kernel

theorem witness_PairJoinsAndHeartbeats_42 : (fun (h : Machine.Heartbeat) (trip : Nat) (n : Nat) (s : State) => s.pairRuns = true ∧ s.pairLink = true ∧ s.pair.join = none ∧ s.role = 2 ∧ s.pair.lossAt = none ∧ s.behind h = false ∧ s.rd F.PAIR_STAT_PEER = 1 ∧ n = h.nt.toNat + trip / 2) (beat 3 9 0x1234 false) (400) (2200) (withPair (fun p => { p with hbRx := some 8950000 }) (sPair 2 3 9000000 [])) := by decide +kernel

theorem witness_PairJoinsAndHeartbeats_43 : (fun (h : Machine.Heartbeat) (s : State) => s.pairRuns = true ∧ s.pairLink = true ∧ s.pair.join = none ∧ s.role = 1 ∧ h.role ≠ 3 ∧ s.rd F.PAIR_STAT_PEER = 1) (beat 2 9 0x1234 false) (withPair (fun p => { p with hbRx := some 8950000 }) (sPair 1 3 9000000 [])) := by decide +kernel

theorem witness_PairJoinsAndHeartbeats_44 : (fun (h : Machine.Heartbeat) (r : Nat) (f : Bool) (s : State) => s.pairRuns = true ∧ s.pairLink = true ∧ s.pair.join = some (r, f) ∧ s.sameImage h = false ∧ s.rd F.PAIR_STAT_PEER = 1 ∧ s.role = 0) (beat 3 9 0x1235 false) (5) (false) (sPairJoin { Pair.start with join := some (5, false), hbRx := some 8950000 } []) := by decide +kernel

theorem witness_PairJoinsAndHeartbeats_45 : (fun (h : Machine.Heartbeat) (r : Nat) (f : Bool) (s : State) => s.pairRuns = true ∧ s.pairLink = true ∧ s.pair.join = some (r, f) ∧ s.sameImage h = true ∧ s.rd F.PAIR_STAT_PEER = 1 ∧ s.role = 0 ∧ h.role ≠ 3 ∧ h.joining = true ∧ h.epoch.toNat < s.epoch) (beat 0 6 0x1234 true) (5) (false) (sPairJoin { Pair.start with join := some (5, false), hbRx := some 8950000 } []) := by decide +kernel

theorem witness_PairMirrorsAndTakesOver_1 : (fun (r : Nat) (s : State) => s.pair.hbRx = some r ∧ s.pairRuns = true ∧ s.rd F.PAIR_STAT_PEER = 1 ∧ reached s.raw (r + 255000) = true ∧ s.role = 3) (8745000) (withPair (fun p => { p with hbRx := some 8745000 }) (sPair 3 2 9000000 [])) := by decide +kernel

theorem witness_PairMirrorsAndTakesOver_2 : (fun (r : Nat) (s : State) => s.pair.hbRx = some r ∧ s.pairRuns = true ∧ s.rd F.PAIR_STAT_PEER = 1 ∧ reached s.raw (r + 255000) = true ∧ s.role = 2 ∧ s.rd F.CB_CFG_ROLE ≠ 0) (8745000) (withPair (fun p => { p with hbRx := some 8745000, staged := [.write [(5, 6)]] }) (sPair 2 3 9000000 [])) := by decide +kernel

theorem witness_PairMirrorsAndTakesOver_3 : (fun (r : Nat) (s : State) => s.pair.hbRx = some r ∧ s.pairRuns = true ∧ s.rd F.PAIR_STAT_PEER = 1 ∧ reached s.raw (r + 255000) = true ∧ s.role = 2 ∧ s.rd F.CB_CFG_ROLE = 0) (8745000) (withPair (fun p => { p with hbRx := some 8745000, staged := [.write [(5, 6)]] }) (sPair 2 3 9000000 [(F.CB_CFG_ROLE, 0)])) := by decide +kernel

theorem witness_PairMirrorsAndTakesOver_4 : (fun (r : Nat) (s : State) => s.pair.hbRx = some r ∧ s.pairRuns = true ∧ s.rd F.PAIR_STAT_PEER = 1 ∧ reached s.raw (r + 255000) = true ∧ s.role = 1) (8745000) (withPair (fun p => { p with hbRx := some 8745000, staged := [.write [(5, 6)]] }) (sPair 1 3 9000000 [])) := by decide +kernel

theorem witness_PairMirrorsAndTakesOver_5 : (fun (r : Nat) (s : State) => s.pair.hbRx = some r ∧ s.pairRuns = true ∧ s.rd F.PAIR_STAT_PEER = 1 ∧ reached s.raw (r + 255000) = true ∧ s.role = 0) (8745000) (withPair (fun p => { p with hbRx := some 8745000 }) (sPair 0 3 9000000 [])) := by decide +kernel

theorem witness_PairMirrorsAndTakesOver_6 : (fun (s : State) => (Option.all (fun r : Nat => !(reached s.raw (r + 255000))) s.pair.hbRx = true ∨ s.pairRuns = false ∨ s.rd F.PAIR_STAT_PEER = 0)) (withPair (fun p => { p with hbRx := some 8745001 }) (sPair 3 2 9000000 [])) := by decide +kernel

theorem witness_PairMirrorsAndTakesOver_7 : (fun (r : Nat) (s : State) => s.pair.lossAt = some r ∧ s.pairRuns = true ∧ s.role = 2 ∧ reached s.raw (r + s.rd F.PAIR_CFG_PRES_WAIT * 5000) = true) (8745000) (withPair (fun p => { p with hbRx := some 8745000, lossAt := some 8745000 }) (sPair 2 3 9000000 [])) := by decide +kernel

theorem witness_PairMirrorsAndTakesOver_9 : (fun (r : Nat) (s : State) => s.pair.lossAt = some r ∧ s.pairRuns = true ∧ s.role = 2 ∧ reached s.raw (r + s.rd F.PAIR_CFG_PRES_WAIT * 5000) = true ∧ s.enabledRings = [] ∧ s.looseParts = []) (8745000) (withPair (fun p => { p with hbRx := some 8745000, lossAt := some 8745000 }) (sPair 2 3 9000000 [])) := by decide +kernel

theorem witness_PairMirrorsAndTakesOver_10 : (fun (s : State) => (Option.all (fun r : Nat => !(reached s.raw (r + s.rd F.PAIR_CFG_PRES_WAIT * 5000))) s.pair.lossAt = true ∨ s.pairRuns = false ∨ s.role ≠ 2)) (sPair 2 3 9000000 []) := by decide +kernel

theorem witness_PairMirrorsAndTakesOver_11 : (fun (r : Nat) (x : PairSwitch) (s : State) => s.pairRuns = true ∧ s.pair.powerFrom = some r ∧ s.lanes.on = false ∧ s.role ≠ 3 ∧ s.pair.switch = some x ∧ x.stage = .powering) (5) (⟨none, 3, .powering⟩) (withPair (fun p => { p with powerFrom := some 5, switch := some ⟨none, 3, .powering⟩ }) { sPair 2 3 9000000 [] with lanes := { sOp.lanes with on := false } }) := by decide +kernel

theorem witness_PairMirrorsAndTakesOver_12 : (fun (r : Nat) (c : Carried) (s : State) => s.pairRuns = true ∧ s.pair.powerFrom = some r ∧ s.lanes.on = false ∧ s.role = 3 ∧ s.pair.carried = some c) (5) (carryOf 41) (withPair (fun p => { p with powerFrom := some 5, carried := some (carryOf 41) }) { sPair 3 2 9000000 [(F.PAIR_RAW_DELTA_LO_DELTA, 77)] with lanes := { sOp.lanes with on := false } }) := by decide +kernel

theorem witness_PairMirrorsAndTakesOver_13 : (fun (r : Nat) (s : State) => s.pairRuns = true ∧ s.pair.powerFrom = some r ∧ s.lanes.on = false ∧ s.role ≠ 3 ∧ Option.all (fun x : PairSwitch => !(x.stage == .powering)) s.pair.switch = true) (5) (withPair (fun p => { p with powerFrom := some 5 }) { sPair 2 3 9000000 [] with lanes := { sOp.lanes with on := false } }) := by decide +kernel

theorem witness_PairMirrorsAndTakesOver_14 : (fun (s : State) => (s.pairRuns = false ∨ s.pair.powerFrom = none ∨ s.lanes.on = true ∨ (s.role = 3 ∧ s.pair.carried = none))) (withPair (fun p => { p with powerFrom := some 5 }) { sPair 3 3 9000000 [] with lanes := { sOp.lanes with on := false } }) := by decide +kernel

theorem witness_PairMirrorsAndTakesOver_15 : (fun (cells : List (Nat × Byte)) (s : State) => s.pairStages = true ∧ s.pair.staged = [] ∧ cells.length < 65536 * 4096 - 65536) ([(0x1000000000, 5)]) (sPair 2 3 9000000 []) := by decide +kernel

theorem witness_PairMirrorsAndTakesOver_16 : (fun (s : State) => s.pairStages = true) (sPair 2 3 9000000 []) := by decide +kernel

theorem witness_PairMirrorsAndTakesOver_17 : (fun (s : State) => s.pairStages = true) (sPair 2 3 9000000 []) := by decide +kernel

theorem witness_PairMirrorsAndTakesOver_18 : (fun (s : State) => s.pairStages = true) (sPair 2 3 9000000 []) := by decide +kernel

theorem witness_PairMirrorsAndTakesOver_19 : (fun (v : State) (s : State) => v = (s.wr F.PAIR_STAGE_USED ((s.stagedBytes + 65535) / 65536)).peak F.PAIR_STAGE_PEAK ((s.stagedBytes + 65535) / 65536)) (((withPair (fun p => { p with staged := [.write [(5, 6)]] }) (sPair 1 3 9000000 [])).wr F.PAIR_STAGE_USED 1).peak F.PAIR_STAGE_PEAK 1) (withPair (fun p => { p with staged := [.write [(5, 6)]] }) (sPair 1 3 9000000 [])) := by decide +kernel

theorem witness_PairMirrorsAndTakesOver_21 : (fun (s : State) => s.pairStages = true) (sPair 1 3 9000000 []) := by decide +kernel

theorem witness_PairMirrorsAndTakesOver_22 : (fun (m : Machine.PairMsg) (c : Machine.Carried) => (m = .discard ∨ m = .close c)) (.discard) (carryOf 41) := by decide +kernel

theorem witness_PairMirrorsAndTakesOver_23 : (fun (s : State) => s.pairStages = true) (sPair 1 3 9000000 []) := by decide +kernel

theorem witness_PairMirrorsAndTakesOver_24 : (fun (s : State) => s.pairStages = false) (sPair 3 2 9000000 []) := by decide +kernel

theorem witness_PairMirrorsAndTakesOver_25 : (fun (s : State) => s.pairStages = true) (withPair (fun p => { p with staged := [.write [(5, 6)]] }) (sPair 2 3 9000000 [(F.PAIR_STAGE_USED, 1)])) := by decide +kernel

theorem witness_PairMirrorsAndTakesOver_26 : (fun (s : State) => s.pairStages = false) (sPair 3 2 9000000 []) := by decide +kernel

theorem witness_PairMirrorsAndTakesOver_27 : (fun (s : State) => s.pairStages = true ∧ s.pair.staged.filter PairMsg.isFill = []) (withPair (fun p => { p with staged := [.write [(5, 6)]] }) (sPair 2 3 9000000 [(F.PAIR_STAGE_USED, 1)])) := by decide +kernel

theorem witness_PairMirrorsAndTakesOver_28 : (fun (c : Machine.Carried) (valid : Bool) (s : State) => s.pairStages = true ∧ s.role = 2 ∧ (valid = false ∨ c.cord.toNat ≠ (s.pairLast + 1) % 2 ^ 64)) (carryOf 42) (true) (sPair 2 3 9000000 []) := by decide +kernel

theorem witness_PairMirrorsAndTakesOver_29 : (fun (s : State) => s.pairStages = true ∧ s.role = 1) (withPair (fun p => { p with staged := [.write [(5, 6)]] }) (sPair 1 3 9000000 [])) := by decide +kernel

theorem witness_PairMirrorsAndTakesOver_30 : (fun (s : State) => s.pairStages = false) (sPair 3 2 9000000 []) := by decide +kernel

theorem witness_PairMirrorsAndTakesOver_31 : (fun (s : State) => s.pairStages = true ∧ s.role = 1 ∧ s.pair.copied = false) (withPair (fun p => { p with staged := [.write [(0x1000000000, 6)]] }) (sPair 1 3 9000000 [])) := by decide +kernel

theorem witness_PairMirrorsAndTakesOver_32 : (fun (c : Machine.Carried) (s : State) => s.pairStages = true ∧ s.role = 1 ∧ s.pair.copied = true ∧ (c.switch = false ∨ s.pair.lanesUp = false)) (carryOf 44) (withPair (fun p => { p with staged := [.write [(0x1000000000, 6)]], copied := true, reviveFrom := 1000000 }) (sPair 1 3 9000000 [])) := by decide +kernel

theorem witness_PairMirrorsAndTakesOver_33 : (fun (c : Machine.Carried) (s : State) => s.pairStages = true ∧ s.role = 2 ∧ c.cord.toNat = (s.pairLast + 1) % 2 ^ 64 ∧ (c.switch = false ∨ s.pair.lanesUp = false)) (carryOf 41) (withPair (fun p => { p with staged := [.write [(0x1000000000, 6)]] }) (sPair 2 3 9000000 [])) := by decide +kernel

theorem witness_PairMirrorsAndTakesOver_34 : (fun (c : Machine.Carried) (s : State) => s.pairStages = true ∧ s.role = 2 ∧ c.cord.toNat = (s.pairLast + 1) % 2 ^ 64 ∧ c.switch = true ∧ s.pair.lanesUp = true) ({ carryOf 41 with switch := true }) (withPair (fun p => { p with lanesUp := true, switch := some ⟨none, 5, .up⟩ }) (sPair 2 3 9000000 [(F.PAIR_RAW_DELTA_LO_DELTA, 77)])) := by decide +kernel

theorem witness_PairMirrorsAndTakesOver_35 : (fun (c : Machine.Carried) (d : Cmd) (v : State) (w0 : State) (s : State) => c.cmd = some d ∧ v = (s.restore false).takeHarts ∧ w0 = { v with pair := { v.pair with switch := none, request := false } }) ({ carryOf 41 with switch := true, cmd := some (cmd5 [(0, 0x10)]) }) (cmd5 [(0, 0x10)]) (((withPair (fun p => { p with carried := some ({ carryOf 41 with switch := true, cmd := some (cmd5 [(0, 0x10)]) }) }) (withPair (fun p => { p with lanesUp := true, switch := some ⟨none, 5, .up⟩ }) (sPair 2 3 9000000 [(F.PAIR_RAW_DELTA_LO_DELTA, 77)]))).restore false).takeHarts) (withPair (fun p => { p with switch := none, request := false }) (((withPair (fun p => { p with carried := some ({ carryOf 41 with switch := true, cmd := some (cmd5 [(0, 0x10)]) }) }) (withPair (fun p => { p with lanesUp := true, switch := some ⟨none, 5, .up⟩ }) (sPair 2 3 9000000 [(F.PAIR_RAW_DELTA_LO_DELTA, 77)]))).restore false).takeHarts)) (withPair (fun p => { p with carried := some ({ carryOf 41 with switch := true, cmd := some (cmd5 [(0, 0x10)]) }) }) (withPair (fun p => { p with lanesUp := true, switch := some ⟨none, 5, .up⟩ }) (sPair 2 3 9000000 [(F.PAIR_RAW_DELTA_LO_DELTA, 77)]))) := by decide +kernel

theorem witness_PairMirrorsAndTakesOver_36 : (fun (c : Machine.Carried) (s : State) => s.pairStages = true ∧ s.pairLink = true ∧ s.role = 2 ∧ c.cord.toNat = (s.pairLast + 1) % 2 ^ 64 ∧ c.switch = false) (carryOf 41) (withPair (fun p => { p with staged := [.write [(0x1000000000, 6)]] }) (sPair 2 3 9000000 [])) := by decide +kernel

theorem witness_PairMirrorsAndTakesOver_37 : (fun (s : State) => s.pairRuns = true ∧ s.role = 3) (withPair (fun p => { p with unacked := [(41, 5), (42, 6)] }) { sPair 3 2 9000000 [] with flue := { sOp.flue with recs := [{ sRec with mirrorWait := some 41 }, { sRec with mirrorWait := some 42 }] } }) := by decide +kernel

theorem witness_PairMirrorsAndTakesOver_38 : (fun (s : State) => (s.pairRuns = false ∨ s.role ≠ 3)) (sPair 2 3 9000000 []) := by decide +kernel

theorem witness_PairMirrorsAndTakesOver_39 : (fun (s : State) => (s.pairRuns = false ∨ s.operate = false ∨ s.pairLink = false ∨ s.role = 3 ∨ s.role = 0)) (sPair 3 3 9000000 []) := by decide +kernel

theorem witness_PairMirrorsAndTakesOver_40 : (fun (s : State) => s.pairRuns = true ∧ s.operate = true ∧ s.pairLink = true ∧ (s.role = 1 ∨ s.role = 2)) (sPair 2 3 9000000 []) := by decide +kernel

theorem witness_PairMirrorsAndTakesOver_41 : (fun (s : State) => s.pairRuns = true ∧ s.operate = true ∧ s.pairLink = true ∧ (s.role = 1 ∨ s.role = 2)) (sPair 1 3 9000000 []) := by decide +kernel

theorem witness_PairSwitches_1 : (fun (c : Cmd) (s : State) => inHand 0x18 0x10 c s ∧ c.fin = none) (cmd5 [(0, 0x10)]) (sEng 0x18 (cmd5 [(0, 0x10)]) (sPair 3 2 9000000 [])) := by decide +kernel

theorem witness_PairSwitches_2 : (fun (c : Cmd) (f : Final) (s : State) => inHand 0x18 0x10 c s ∧ c.fin = some f) ({ cmd5 [(0, 0x10)] with fin := some ⟨0x11, 0, []⟩ }) (⟨0x11, 0, []⟩) (sEng 0x18 { cmd5 [(0, 0x10)] with fin := some ⟨0x11, 0, []⟩ } (sPair 3 2 9000000 [])) := by decide +kernel

theorem witness_PairSwitches_3 : (fun (s : State) => (s.hand 0x18 = none ∨ s.running = false)) (sPair 3 2 9000000 []) := by decide +kernel

theorem witness_PairSwitches_4 : (fun (c : Cmd) => (c.headerOk = false ∨ c.fld 8 1 31 ≠ 0 ∨ c.zeroFrom 0xC = false)) (cmd5 [(0, 0x10), (8, 2)]) := by decide +kernel

theorem witness_PairSwitches_5 : (fun (c : Cmd) (s : State) => c.headerOk = true ∧ c.fld 8 1 31 = 0 ∧ c.zeroFrom 0xC = true ∧ (s.ctx c.ring).mp = false ∧ (s.ctx c.ring).part.toNat ≠ s.rd F.PAIR_CFG_SW_PART) (cmd5 [(0, 0x10)]) (sEng 0x18 (cmd5 [(0, 0x10)]) (sPair 3 2 9000000 [])) := by decide +kernel

theorem witness_PairSwitches_6 : (fun (c : Cmd) (s : State) => c.headerOk = true ∧ c.fld 8 1 31 = 0 ∧ c.zeroFrom 0xC = true ∧ ((s.ctx c.ring).mp = true ∨ (s.ctx c.ring).part.toNat = s.rd F.PAIR_CFG_SW_PART)) (cmd5 [(0, 0x10)]) (sEng 0x18 (cmd5 [(0, 0x10)]) (sPair 3 2 9000000 [(F.PAIR_CFG_SW_PART, 3)])) := by decide +kernel

theorem witness_PairSwitches_7 : (fun (s : State) => s.pairRuns = false) (withFlds [(F.PAIR_CFG_EN, 0)] (sPair 2 3 9000000 [])) := by decide +kernel

theorem witness_PairSwitches_8 : (fun (s : State) => s.pairRuns = true ∧ (s.role ≠ 2 ∨ s.pair.request = false)) (withPair (fun p => { p with request := true }) (sPair 3 2 9000000 [])) := by decide +kernel

theorem witness_PairSwitches_9 : (fun (s : State) => s.pairRuns = true ∧ s.role = 2 ∧ s.pair.request = true ∧ s.pair.lanesUp = false) (withPair (fun p => { p with request := true }) (sPair 2 3 9000000 [])) := by decide +kernel

theorem witness_PairSwitches_10 : (fun (s : State) => s.pairRuns = true ∧ s.role = 2 ∧ s.pair.request = true ∧ s.pair.lanesUp = true) (withPair (fun p => { p with request := true, lanesUp := true }) (sPair 2 3 9000000 [])) := by decide +kernel

theorem witness_PairSwitches_11 : (fun (s : State) => s.pairRuns = true ∧ s.pair.request = false ∧ s.role = 2 ∧ s.pair.lanesUp = false) (sPair 2 3 9000000 []) := by decide +kernel

theorem witness_PairSwitches_12 : (fun (s : State) => s.pairRuns = true ∧ s.pair.request = false ∧ s.role = 2 ∧ s.pair.lanesUp = true) (withPair (fun p => { p with lanesUp := true, powerFrom := some 6 }) (sPair 2 3 9000000 [])) := by decide +kernel

theorem witness_PairSwitches_13 : (fun (s : State) => s.pairRuns = true ∧ s.pair.request = false ∧ s.role = 3 ∧ s.pairGates = true ∧ s.pair.switch = none) (sPair 3 2 9000000 []) := by decide +kernel

theorem witness_PairSwitches_14 : (fun (s : State) => s.pairRuns = true ∧ s.pair.request = false ∧ ((s.role = 3 ∧ (s.pairGates = false ∨ s.pair.switch.isSome = true)) ∨ s.role = 0 ∨ s.role = 1)) (sPair 3 2 9000000 [(F.PAIR_STAT_OUT_OF_STEP, 1)]) := by decide +kernel

theorem witness_PairSwitches_15 : (fun (x : PairSwitch) (s : State) => s.pairRuns = true ∧ s.pair.request = true ∧ s.rd F.PAIR_STAT_PREFER_UNIT = 0 ∧ s.pair.switch = some x) (⟨some (cmd5 [(0, 0x10)]), 5, .asked⟩) (withPair (fun p => { p with request := true, switch := some ⟨some (cmd5 [(0, 0x10)]), 5, .asked⟩ }) (sOut 0x18 (cmd5 [(0, 0x10)]) (sPair 3 2 9000000 []))) := by decide +kernel

theorem witness_PairSwitches_16 : (fun (x : PairSwitch) (c : Cmd) (v : State) (s : State) => s.pair.switch = some x ∧ x.cmd = some c ∧ v = { s with pair := { s.pair with switch := none, request := false } }) (⟨some (cmd5 [(0, 0x10)]), 5, .asked⟩) (cmd5 [(0, 0x10)]) (withPair (fun p => { p with switch := none, request := false }) (withPair (fun p => { p with request := true, switch := some ⟨some (cmd5 [(0, 0x10)]), 5, .asked⟩ }) (sOut 0x18 (cmd5 [(0, 0x10)]) (sPair 3 2 9000000 [])))) (withPair (fun p => { p with request := true, switch := some ⟨some (cmd5 [(0, 0x10)]), 5, .asked⟩ }) (sOut 0x18 (cmd5 [(0, 0x10)]) (sPair 3 2 9000000 []))) := by decide +kernel

theorem witness_PairSwitches_17 : (fun (x : PairSwitch) (s : State) => s.pair.switch = some x ∧ x.cmd = none) (⟨none, 5, .asked⟩) (withPair (fun p => { p with switch := some ⟨none, 5, .asked⟩, request := true }) (sPair 3 2 9000000 [])) := by decide +kernel

theorem witness_PairSwitches_18 : (fun (s : State) => s.pairRuns = true ∧ s.pair.request = true ∧ s.rd F.PAIR_STAT_PREFER_UNIT = 1) (withPair (fun p => { p with request := true }) (sPair 3 2 9000000 [(F.PAIR_STAT_PREFER_UNIT, 1)])) := by decide +kernel

theorem witness_PairSwitches_19 : (fun (x : PairSwitch) (s : State) => s.pair.switch = some x ∧ x.stage = .asked ∧ s.role = 3) (⟨none, 5, .asked⟩) (withPair (fun p => { p with request := true, switch := some ⟨none, 5, .asked⟩ }) (sPair 3 2 9000000 [])) := by decide +kernel

theorem witness_PairSwitches_20 : (fun (s : State) => (s.role ≠ 3 ∨ Option.all (fun x : PairSwitch => !(x.stage == .asked)) s.pair.switch = true)) (sPair 3 2 9000000 []) := by decide +kernel

theorem witness_PairSwitches_21 : (fun (x : PairSwitch) (s : State) => s.pair.switch = some x ∧ x.stage = .asked ∧ x.cmd = none ∧ s.role = 3 ∧ s.pairRuns = true ∧ reached s.raw (x.start + 5000000) = true) (⟨none, 5, .asked⟩) (withPair (fun p => { p with switch := some ⟨none, 5, .asked⟩, request := true }) (sPair 3 2 9000000 [])) := by decide +kernel

theorem witness_PairSwitches_22 : (fun (s : State) => (s.pairRuns = false ∨ Option.all (fun x : PairSwitch => !(reached s.raw (x.start + 5000000))) s.pair.switch = true ∨ (s.role = 3 ∧ Option.all (fun x : PairSwitch => !(x.stage == .asked)) s.pair.switch = true) ∨ (s.role ≠ 3 ∧ Option.all (fun x : PairSwitch => !(x.stage == .powering)) s.pair.switch = true))) (sPair 3 2 9000000 []) := by decide +kernel

theorem witness_PairSwitches_23 : (fun (x : PairSwitch) (c : Cmd) (s : State) => s.pair.switch = some x ∧ x.stage = .asked ∧ x.cmd = some c ∧ s.role = 3 ∧ s.pairRuns = true ∧ reached s.raw (x.start + 5000000) = true) (⟨some (cmd5 [(0, 0x10)]), 5, .asked⟩) (cmd5 [(0, 0x10)]) (withPair (fun p => { p with request := true, switch := some ⟨some (cmd5 [(0, 0x10)]), 5, .asked⟩ }) (sOut 0x18 (cmd5 [(0, 0x10)]) (sPair 3 2 9000000 []))) := by decide +kernel

theorem witness_PairSwitches_24 : (fun (x : PairSwitch) (s : State) => s.pair.switch = some x ∧ x.stage = .powering ∧ s.role ≠ 3 ∧ s.pairRuns = true ∧ reached s.raw (x.start + 5000000) = true) (⟨none, 5, .powering⟩) (withPair (fun p => { p with switch := some ⟨none, 5, .powering⟩, powerFrom := some 5 }) (sPair 2 3 9000000 [])) := by decide +kernel

theorem witness_PairSwitches_25 : (fun (x : PairSwitch) (k : Nat) (done : Bool) (s : State) => s.pair.switch = some x ∧ x.stage = .sealed k ∧ s.role = 3 ∧ s.rd F.PAIR_STAT_PEER_ROLE = 3 ∧ (done = true ∨ reached s.raw (x.start + 50000000) = true)) (⟨none, 5, .sealed 41⟩) (41) (true) (withPair (fun p => { p with switch := some ⟨none, 5, .sealed 41⟩ }) (sPair 3 3 9000000 [(F.FLD_LNK_STATE 5, 3), (F.FLD_LNK_STATE 17, 4)])) := by decide +kernel

theorem witness_PairSwitches_26 : (fun (x : PairSwitch) (k : Nat) (done : Bool) (s : State) => s.pair.switch = some x ∧ x.stage = .sealed k ∧ (s.role ≠ 3 ∨ s.rd F.PAIR_STAT_PEER_ROLE ≠ 3 ∨ (done = false ∧ reached s.raw (x.start + 50000000) = false))) (⟨none, 5, .sealed 41⟩) (41) (true) (withPair (fun p => { p with switch := some ⟨none, 5, .sealed 41⟩ }) (sPair 3 2 9000000 [])) := by decide +kernel

theorem witness_PairSwitches_27 : (fun (s : State) => Option.all (fun x : PairSwitch => x.stage == .asked || x.stage == .ready || x.stage == .powering || x.stage == .up) s.pair.switch = true) (sPair 3 3 9000000 []) := by decide +kernel

theorem witness_PairSwitches_28 : (fun (s : State) => (Option.all (fun r : Nat => !(reached s.raw (r + 5000000000))) s.pair.stepFrom = true ∨ s.pairRuns = false ∨ s.role ≠ 2 ∨ s.rd F.PAIR_CFG_REVERT = 0 ∨ s.rd F.PAIR_STAT_PREFER_UNIT = 0 ∨ s.pair.request = true ∨ s.pair.switch.isSome = true)) (sPair 2 3 9000000 []) := by decide +kernel

theorem witness_PairSwitches_29 : (fun (r : Nat) (s : State) => s.pair.stepFrom = some r ∧ s.pairRuns = true ∧ s.role = 2 ∧ s.rd F.PAIR_CFG_REVERT = 1 ∧ s.rd F.PAIR_STAT_PREFER_UNIT = 1 ∧ s.pair.request = false ∧ s.pair.switch = none ∧ reached s.raw (r + 5000000000) = true) (5) (withPair (fun p => { p with stepFrom := some 5 }) (sPair 2 3 5000000005 [(F.PAIR_CFG_REVERT, 1), (F.PAIR_STAT_PREFER_UNIT, 1)])) := by decide +kernel

theorem witness_PairSwitches_30 : (fun (s : State) => (s.hand 0x18 = none ∨ s.running = false)) (sPair 2 3 9000000 []) := by decide +kernel

theorem witness_PairSwitches_31 : (fun (c : Cmd) (s : State) => inHand 0x18 0x11 c s ∧ (c.headerOk = false ∨ c.word 8 ≠ 0 ∨ c.word 0xC ≠ 0 ∨ c.fld 0x10 0 6 ≠ 0 ∨ c.fld 0x14 8 24 ≠ 0 ∨ c.zeroFrom 0x18 = false ∨ s.engineMayWrite (c.addr 0x10) 64 = false)) (cmd5 [(0, 0x11), (8, 1), (0x10, 0x40), (0x14, 0x10)]) (volat (sEng 0x18 (cmd5 [(0, 0x11), (8, 1), (0x10, 0x40), (0x14, 0x10)]) (sPair 2 3 9000000 []))) := by decide +kernel

theorem witness_PairSwitches_32 : (fun (c : Cmd) (a : Nat) (s : State) => inHand 0x18 0x11 c s ∧ c.headerOk = true ∧ c.word 8 = 0 ∧ c.word 0xC = 0 ∧ c.fld 0x10 0 6 = 0 ∧ c.fld 0x14 8 24 = 0 ∧ c.zeroFrom 0x18 = true ∧ a = c.addr 0x10 ∧ s.engineMayWrite a 64 = true) (cmd5 [(0, 0x11), (0x10, 0x40), (0x14, 0x10)]) (0x1000000040) (volat (sEng 0x18 (cmd5 [(0, 0x11), (0x10, 0x40), (0x14, 0x10)]) (sPair 2 3 9000000 []))) := by decide +kernel

theorem witness_PairSwitches_33 : (fun (c : Cmd) (a : Nat) (s : State) => inHand 0x18 0x11 c s ∧ c.headerOk = true ∧ c.word 8 = 0 ∧ c.word 0xC = 0 ∧ c.fld 0x10 0 6 = 0 ∧ c.fld 0x14 8 24 = 0 ∧ c.zeroFrom 0x18 = true ∧ a = c.addr 0x10 ∧ s.engineMayWrite a 64 = true ∧ s.ecc = [] ∧ s.lanes.resv = [] ∧ s.isActive = false) (cmd5 [(0, 0x11), (0x10, 0x40), (0x14, 0x10)]) (0x1000000040) (volat (sEng 0x18 (cmd5 [(0, 0x11), (0x10, 0x40), (0x14, 0x10)]) (sPair 2 3 9000000 []))) := by decide +kernel

theorem witness_RecorderEngine_1 : (fun (c : BitVec 12) (n : Nat) (per : Nat) (x : DWord) (s : State) => n = c.toNat ∧ per = s.recPeriod n * 500000 ∧ s.rd F.REC_CFG_EN = 1 ∧ s.running = true ∧ (s.pairOn = false ∨ s.role = 3) ∧ s.recEn n = true ∧ s.recKind n ≠ 2 ∧ s.recKind n < 8 ∧ Sparse.get s.recd.due 0 n ≤ s.raw ∧ (s.recKind n ≠ 1 ∨ s.ecc = []) ∧ s.recSource (s.recKind n) (s.recIndex n) = some x ∧ s.recd.queue.length < 1024) (1) (1) (1000000) (4200) (sRecd 1000500) := by decide +kernel

theorem witness_RecorderEngine_2 : (fun (c : BitVec 12) (n : Nat) (per : Nat) (x : DWord) (s : State) => n = c.toNat ∧ per = s.recPeriod n * 500000 ∧ s.rd F.REC_CFG_EN = 1 ∧ s.running = true ∧ (s.pairOn = false ∨ s.role = 3) ∧ s.recEn n = true ∧ s.recKind n ≠ 2 ∧ s.recKind n < 8 ∧ Sparse.get s.recd.due 0 n ≤ s.raw ∧ (s.recKind n ≠ 1 ∨ s.ecc = []) ∧ s.recSource (s.recKind n) (s.recIndex n) = some x ∧ 1024 ≤ s.recd.queue.length ∧ s.recd.dropRaised = false ∧ s.rd F.REC_DROP_DROPS < 0xFFFFFFFF ∧ (s.recChan n).drops.toNat < 0xFFFFFFFF) (1) (1) (1000000) (4200) ({ sRecd 1000500 with recd := { (sRecd 0).recd with queue := List.replicate 1024 ⟨0, 0, 0⟩ } }) := by decide +kernel

theorem witness_RecorderEngine_3 : (fun (c : BitVec 12) (n : Nat) (s : State) => n = c.toNat ∧ s.rd F.REC_CFG_EN = 1 ∧ s.running = true ∧ s.recEn n = true ∧ s.recKind n ≠ 2 ∧ s.recKind n < 8 ∧ Sparse.get s.recd.due 0 n ≤ s.raw) (1) (1) (sRecd 1000500) := by decide +kernel

theorem witness_RecorderEngine_4 : (fun (c : BitVec 12) (n : Nat) (s : State) => n = c.toNat ∧ (s.raw < Sparse.get s.recd.due 0 n ∨ s.rd F.REC_CFG_EN = 0 ∨ s.running = false ∨ s.recEn n = false ∨ s.recKind n = 2 ∨ 8 ≤ s.recKind n)) (1) (1) ({ sRecd 999999 with recd := { (sRecd 0).recd with due := [(1, 1000000)] } }) := by decide +kernel

theorem witness_RecorderEngine_5 : (fun (s : State) => (s.rd F.REC_CFG_EN = 0 ∨ s.operate = false ∨ s.safe = true ∨ (s.pairOn = true ∧ s.role ≠ 3))) (withFlds [(F.PAIR_CFG_EN, 1), (F.PAIR_STAT_ROLE, 2)] (sRecd 1000500)) := by decide +kernel

theorem witness_RecorderEngine_6 : (fun (n : Nat) (v : State) (s : State) => s.rd F.REC_CFG_EN = 1 ∧ s.operate = true ∧ s.safe = false ∧ (s.pairOn = false ∨ s.role = 3) ∧ 1024 ≤ s.recd.queue.length ∧ v = (s.satAdd F.REC_DROP_DROPS 1).setRecChan n { s.recChan n with drops := if (s.recChan n).drops = 0xFFFFFFFF then 0xFFFFFFFF else (s.recChan n).drops + 1 } true) (1) ((State.satAdd ({ sRecd 1000500 with recd := { (sRecd 0).recd with queue := List.replicate 1024 ⟨0, 0, 0⟩ } }) F.REC_DROP_DROPS 1).setRecChan 1 { (sRecd 0).recChan 1 with drops := (if ((sRecd 0).recChan 1).drops = 0xFFFFFFFF then 0xFFFFFFFF else ((sRecd 0).recChan 1).drops + 1) } true) ({ sRecd 1000500 with recd := { (sRecd 0).recd with queue := List.replicate 1024 ⟨0, 0, 0⟩ } }) := by decide +kernel

theorem witness_RecorderEngine_9 : (fun (q : RecSample) (l : List RecSample) (s : State) => s.recd.queue = q :: l) (⟨1, 4200, 77⟩) ([⟨0, 1, 2⟩]) ({ sRecd 1000500 with recd := { (sRecd 0).recd with queue := [⟨1, 4200, 77⟩, ⟨0, 1, 2⟩] } }) := by decide +kernel

theorem witness_RecorderEngine_11 : (fun (k : Nat) (x : DWord) => vNan k x = true) (2) (0x7FF8000000000000) := by decide +kernel

theorem witness_RecorderEngine_12 : (fun (k : Nat) (lo : DWord) (x : DWord) => vNan k x = false ∧ vLess k x lo = true) (0) (1) (0xFFFFFFFFFFFFFFFF) := by decide +kernel

theorem witness_RecorderEngine_13 : (fun (k : Nat) (lo : DWord) (hi : DWord) (x : DWord) => vNan k x = false ∧ vLess k x lo = false ∧ vLess k x hi = false ∧ vNan k hi = false) (1) (1) (2) (2) := by decide +kernel

theorem witness_RecorderEngine_14 : (fun (lo : DWord) (hi : DWord) (x : DWord) => lo.toInt ≤ x.toInt ∧ x.toInt < hi.toInt) (0xFFFFFFFFFFFFFF00) (0x100) (0) := by decide +kernel

theorem witness_RecorderEngine_15 : (fun (lo : DWord) (hi : DWord) (x : DWord) => lo.toNat ≤ x.toNat ∧ x.toNat < hi.toNat) (1000) (7000) (6999) := by decide +kernel

theorem witness_RecorderEngine_16 : (fun (lo : DWord) (hi : DWord) (x : DWord) => vNan 2 x = false ∧ vLess 2 x lo = false ∧ vLess 2 x hi = true ∧ vFinite 2 lo = true ∧ vFinite 2 hi = true) (0xBFF0000000000000) (0x3FF0000000000000) (0) := by decide +kernel

theorem witness_RecorderEngine_17 : (fun (lo : DWord) (hi : DWord) (x : DWord) => vNan 2 x = false ∧ vLess 2 x lo = false ∧ (vLess 2 x hi = true ∨ vNan 2 hi = true) ∧ (vFinite 2 lo = false ∨ vFinite 2 hi = false)) (0xFFF0000000000000) (0x3FF0000000000000) (0) := by decide +kernel

theorem witness_RecorderEngine_18 : (fun (q : RecSample) (l : List RecSample) (e : Nat) (b : Nat) (lo : Nat) (hi : Nat) (v0 : Nat) (r : RecChan) (s : State) => s.recd.queue = q :: l ∧ e = s.recEntry q.chan ∧ s.recVtype q.chan = 1 ∧ lo = (s.dword (e + 0x10)).toNat ∧ hi = (s.dword (e + 0x18)).toNat ∧ v0 = q.value.toNat ∧ lo < hi ∧ b = (if v0 < lo then 0 else if hi ≤ v0 then 31 else 1 + 30 * (v0 - lo) / (hi - lo)) ∧ r = s.recChan q.chan ∧ r.n.toNat < 0xFFFFFFFFFFFFFFFF ∧ (Sparse.get r.bins 0 b).toNat < 0xFFFFFFFF) (⟨1, 4200, 77⟩) ([⟨0, 1, 2⟩]) (0x1000600020) (17) (1000) (7000) (4200) (⟨6, 1, 3, 2, 1500, 10, 5200, 20, 5, [(2, 1), (19, 1)], 0⟩) ({ sRecd 1000500 with recd := { (sRecd 0).recd with queue := [⟨1, 4200, 77⟩, ⟨0, 1, 2⟩] } }) := by decide +kernel

theorem witness_RecorderEngine_19 : (fun (s : State) => s.recd.queue = []) (sRecd 3) := by decide +kernel

theorem witness_RecorderEngine_20 : (fun (c : Nat) (r : RecChan) (s : State) => s.rd F.REC_CFG_EN = 1 ∧ s.running = true ∧ s.recd.lastFlush + s.rd F.REC_CFG_FLUSH * 50000000 ≤ s.raw ∧ s.recd.dirty = [(c, true)] ∧ s.recEn c = true ∧ c < 4096 ∧ r = { s.recChan c with seq := (s.recChan c).seq + 1 }) (1) (⟨7, 1, 3, 2, 1500, 10, 5200, 20, 5, [(2, 1), (19, 1)], 0⟩) ({ sRecd 50000003 with recd := { (sRecd 0).recd with dirty := [(1, true)], dropRaised := true, lastFlush := 3 } }) := by decide +kernel

theorem witness_RecorderEngine_21 : (fun (l : List Nat) (s : State) => s.rd F.REC_CFG_EN = 1 ∧ s.running = true ∧ s.recd.lastFlush + s.rd F.REC_CFG_FLUSH * 50000000 ≤ s.raw ∧ l = (s.recd.dirty.filter (fun p : Nat × Bool => p.2 && s.recEn p.1)).map (fun p : Nat × Bool => p.1)) ([1]) ({ sRecd 50000003 with recd := { (sRecd 0).recd with dirty := [(0, true), (1, true)], dropRaised := true, lastFlush := 3 } }) := by decide +kernel

theorem witness_RecorderEngine_22 : (fun (c : Nat) (x : RecChan) (s : State) => x = { s.recChan c with seq := (s.recChan c).seq + 1 }) (1) (⟨7, 1, 3, 2, 1500, 10, 5200, 20, 5, [(2, 1), (19, 1)], 0⟩) (sRecd 5) := by decide +kernel

theorem witness_RecorderEngine_23 : (fun (s : State) => (s.raw < s.recd.lastFlush + s.rd F.REC_CFG_FLUSH * 50000000 ∨ s.rd F.REC_CFG_EN = 0 ∨ s.running = false)) (sRecd 49999999) := by decide +kernel

theorem witness_RecorderEngine_24 : (fun (w : Word) (n : Nat) (s : State) => s.mustWait = false ∧ w.toNat / 65536 = 0x4E54 ∧ n = w.toNat / 256 % 16 ∧ 1 ≤ n ∧ n ≤ 10) (0x4E540233) (2) (((sRecd 5).setReg (Reg.REC_NOTE_D 0) 0xAB).setReg (Reg.REC_NOTE_D 1) 0xCD) := by decide +kernel

theorem witness_RecorderEngine_25 : (fun (w : Word) (s : State) => s.mustWait = false ∧ (w.toNat / 65536 ≠ 0x4E54 ∨ w.toNat / 256 % 16 = 0 ∨ 10 < w.toNat / 256 % 16)) (0x4E540033) (sRecd 5) := by decide +kernel

theorem witness_RecorderEngine_26 : (fun (s : State) => s.mustWait = true) (inPhase .locking) := by decide +kernel

theorem witness_RecorderEngine_27 : (fun (s : State) => s.mustWait = false) (sRecd 5) := by decide +kernel

theorem witness_RecorderEngine_28 : (fun (c : Cmd) (s : State) => inHand 0x17 0x10 c s ∧ c.fin = none) (cmd5 [(0, 0x10), (0xC, 2), (0x10, 0x40), (0x14, 0x10)]) (volat (sEng 0x17 (cmd5 [(0, 0x10), (0xC, 2), (0x10, 0x40), (0x14, 0x10)]) (sRecd 5))) := by decide +kernel

theorem witness_RecorderEngine_29 : (fun (c : Cmd) (s : State) => (c.headerOk = false ∨ c.fld 8 12 20 ≠ 0 ∨ c.fld 0xC 13 19 ≠ 0 ∨ c.fld 0xC 0 13 = 0 ∨ 4096 < c.fld 0xC 0 13 ∨ s.recCount < c.fld 8 0 12 + c.fld 0xC 0 13)) (cmd5 [(0, 0x11), (8, 2), (0xC, 1)]) (sRecd 5) := by decide +kernel

theorem witness_RecorderEngine_30 : (fun (c : Cmd) (s : State) => c.headerOk = true ∧ c.fld 8 12 20 = 0 ∧ c.fld 0xC 13 19 = 0 ∧ 1 ≤ c.fld 0xC 0 13 ∧ c.fld 0xC 0 13 ≤ 4096 ∧ c.fld 8 0 12 + c.fld 0xC 0 13 ≤ s.recCount) (cmd5 [(0, 0x10), (8, 1), (0xC, 1), (0x10, 0x40), (0x14, 0x10)]) (volat (sRecd 5)) := by decide +kernel

theorem witness_RecorderEngine_31 : (fun (c : Cmd) (k : Nat) => k = min 16 (c.fld 0xC 0 13 - c.prog)) (cmd5 [(0, 0x10), (0xC, 2), (0x10, 0x40), (0x14, 0x10)]) (2) := by decide +kernel

theorem witness_RecorderEngine_32 : (fun (s : State) => (s.hand 0x17 = none ∨ s.running = false)) (sRecd 5) := by decide +kernel

theorem witness_RecorderEngine_33 : (fun (s : State) => (s.hand 0x17 = none ∨ s.running = false)) (sRecd 5) := by decide +kernel

theorem witness_RecorderEngine_34 : (fun (c : Cmd) (f : Final) (s : State) => inHand 0x17 0x11 c s ∧ c.fin = some f) ({ cmd5 [(0, 0x11)] with fin := some ⟨0x20, 0, []⟩ }) (⟨0x20, 0, []⟩) (sEng 0x17 { cmd5 [(0, 0x11)] with fin := some ⟨0x20, 0, []⟩ } (sRecd 5)) := by decide +kernel

theorem witness_RecorderEngine_35 : (fun (c : Cmd) (s : State) => inHand 0x17 0x11 c s ∧ c.fin = none) (cmd5 [(0, 0x11), (8, 0), (0xC, 2)]) (sEng 0x17 (cmd5 [(0, 0x11), (8, 0), (0xC, 2)]) (sRecd 5)) := by decide +kernel

theorem witness_RecorderEngine_36 : (fun (g : Nat) (s : State) => g = min (s.rd F.REC_CLEAR_GEN_GEN + 1) 0xFFFFFFFF) (9) (sRecd 5) := by decide +kernel

theorem witness_RecorderEngine_37 : (fun (c : Cmd) (n : Nat) (g : Nat) (r : RecChan) (s : State) => inHand 0x17 0x11 c s ∧ c.fin = none ∧ n = c.fld 8 0 12 ∧ c.fld 0xC 0 13 = 1 ∧ g = s.rd F.REC_CLEAR_GEN_GEN + 1 ∧ g < 0x100000000 ∧ r = (⟨(s.recChan n).seq + 1, BitVec.ofNat 32 g, 0, 0, 0, 0, 0, 0, 0, [], 0⟩ : RecChan)) (cmd5 [(0, 0x11), (8, 1), (0xC, 1)]) (1) (9) (⟨7, 9, 0, 0, 0, 0, 0, 0, 0, [], 0⟩) (sEng 0x17 (cmd5 [(0, 0x11), (8, 1), (0xC, 1)]) (sRecd 5)) := by decide +kernel

theorem witness_RecorderEngine_38 : (fun (c : Cmd) (f : Final) (s : State) => inHand 0x17 0x10 c s ∧ c.fin = some f) ({ cmd5 [(0, 0x10)] with fin := some ⟨0x01, 0, []⟩ }) (⟨0x01, 0, []⟩) (sEng 0x17 { cmd5 [(0, 0x10)] with fin := some ⟨0x01, 0, []⟩ } (sRecd 5)) := by decide +kernel

theorem witness_TestsAndCalibration_1 : (fun (s : State) => s.rd F.IST_CFG_LBIST_EN = 1 ∧ s.running = true ∧ s.rd F.IST_CTL_PAUSE = 0 ∧ s.rd F.MPX_STAT_SHED < 3 ∧ s.acts = true ∧ s.ist.wait = none ∧ s.rd F.IST_CFG_ROT_PERIOD * 327680 ≤ s.rtcSince s.ist.selRtc) (sTests) := by decide +kernel

theorem witness_TestsAndCalibration_2 : (fun (s : State) => (s.rd F.IST_CFG_LBIST_EN = 0 ∨ s.running = false ∨ s.rd F.IST_CTL_PAUSE = 1 ∨ s.rd F.MPX_STAT_SHED = 3 ∨ s.acts = false ∨ s.ist.wait.isSome = true ∨ s.rtcSince s.ist.selRtc < s.rd F.IST_CFG_ROT_PERIOD * 327680)) ({ sTests with ist := { sTests.ist with selRtc := 399999 } }) := by decide +kernel

theorem witness_TestsAndCalibration_4 : (fun (n : Nat) (s : State) => s.scrubs = true ∧ n = s.rd F.IST_SCRUB_POS_LINE) (5) (sTests) := by decide +kernel

theorem witness_TestsAndCalibration_5 : (fun (n : Nat) (l : List (Nat × Ecc)) (s : State) => l = s.lineErrors (0x1000000000 + 64 * n)) (5) ([(0x200000029, .corrected)]) ({ sTests with ecc := [(0x200000029, .corrected), (0x200000030, .corrected)] }) := by decide +kernel

theorem witness_TestsAndCalibration_7 : (fun (s : State) => s.rd F.IST_SCRUB_UE_HI_VALID = 1) (withFlds [(F.IST_SCRUB_UE_HI_VALID, 1), (F.IST_SCRUB_UE_LO_ADDR_LO, 64)] sTests) := by decide +kernel

theorem witness_TestsAndCalibration_8 : (fun (n : Nat) (s : State) => s.scrubs = true ∧ n = s.rd F.IST_SCRUB_POS_LINE ∧ s.lineErrors (0x1000000000 + 64 * n) = [] ∧ n < 0xFFFFFFF) (5) (sTests) := by decide +kernel

theorem witness_TestsAndCalibration_9 : (fun (n : Nat) (a : Nat) (s : State) => s.scrubs = true ∧ n = s.rd F.IST_SCRUB_POS_LINE ∧ s.lineErrors (0x1000000000 + 64 * n) = [(a, Ecc.corrected)] ∧ n < 0xFFFFFFF) (5) (0x200000029) ({ sTests with ecc := [(0x200000029, .corrected), (0x200000030, .corrected)] }) := by decide +kernel

theorem witness_TestsAndCalibration_10 : (fun (n : Nat) (a : Nat) (s : State) => s.scrubs = true ∧ n = s.rd F.IST_SCRUB_POS_LINE ∧ s.lineErrors (0x1000000000 + 64 * n) = [(a, Ecc.uncorrectable)] ∧ n < 0xFFFFFFF ∧ s.rd F.IST_SCRUB_UE_HI_VALID = 0) (5) (0x200000029) ({ sTests with ecc := [(0x200000029, .uncorrectable), (0x200000030, .corrected)] }) := by decide +kernel

theorem witness_TestsAndCalibration_11 : (fun (s : State) => s.scrubs = true ∧ s.rd F.IST_SCRUB_POS_LINE = 0xFFFFFFF ∧ s.lineErrors 0x13FFFFFFC0 = []) (withFlds [(F.IST_SCRUB_POS_LINE, 0xFFFFFFF)] sTests) := by decide +kernel

theorem witness_TestsAndCalibration_12 : (fun (s : State) => s.scrubs = false) (withFlds [(F.IST_CFG_SCRUB_EN, 0)] sTests) := by decide +kernel

theorem witness_TestsAndCalibration_13 : (fun (ch : Nat) (r : Nat) (s : State) => s.fld.offp = some ⟨ch, 0, some r, false⟩ ∧ r + (s.rd F.IST_OFFP_LEN + 1) * 4000 ≤ s.raw ∧ ch < 128) (37) (19984000) ({ sTests with fld := { sTests.fld with offp := some ⟨37, 0, some 19984000, false⟩ } }) := by decide +kernel

theorem witness_TestsAndCalibration_14 : (fun (ch : Nat) (r : Nat) (s : State) => s.fld.offp = some ⟨ch, 0, some r, true⟩ ∧ r + (s.rd F.IST_OFFP_LEN + 1) * 4000 ≤ s.raw) (37) (19984000) ({ sTests with fld := { sTests.fld with offp := some ⟨37, 0, some 19984000, true⟩ } }) := by decide +kernel

theorem witness_TestsAndCalibration_15 : (fun (s : State) => Option.all (fun o : OffPulse => o.left != 0 || Option.all (fun r : Nat => decide (s.raw < r + (s.rd F.IST_OFFP_LEN + 1) * 4000)) o.start) s.fld.offp = true) (sTests) := by decide +kernel

theorem witness_TestsAndCalibration_16 : (fun (s : State) => s.phase ≠ Phase.reset ∧ 32768 ≤ s.rtcSince s.mp.lastCal) (sTests) := by decide +kernel

theorem witness_TestsAndCalibration_17 : (fun (s : State) => (s.phase = Phase.reset ∨ s.rtcSince s.mp.lastCal < 32768)) ({ sTests with mp := { sTests.mp with lastCal := 399999 } }) := by decide +kernel

theorem witness_TestsAndCalibration_18 : (fun (n : Nat) (now : Nat) (s : State) => (s.calValid n = false ∨ s.calAged n = true ∨ (s.calTemp n ≤ now + 25 ∧ now ≤ s.calTemp n + 25))) (66) (109) (sTests) := by decide +kernel

theorem witness_TestsAndCalibration_19 : (fun (n : Nat) (now : Nat) (s : State) => s.calValid n = true ∧ s.calAged n = false ∧ (s.calTemp n + 25 < now ∨ now + 25 < s.calTemp n)) (66) (110) (sTests) := by decide +kernel

theorem witness_TestsAndCalibration_20 : (fun (k : Nat) (s : State) => s.phase ≠ Phase.reset ∧ 32768 ≤ s.rtcSince s.mp.lastCal ∧ 0 < k ∧ k < 73 ∧ ((∀ n ∈ List.range 73, n ≠ k → s.calValid n = false)) ∧ s.calValid k = true ∧ s.calAged k = false ∧ s.link (calIsland k) = 3 ∧ s.calTemp k + 25 < s.calNow k ∧ s.rd F.IST_CFG_CAL_EN = 1) (66) (withFlds [(F.FLD_LNK_STATE 17, 3)] sTests) := by decide +kernel

theorem witness_TestsAndCalibration_21 : (fun (s : State) => s.phase ≠ Phase.reset ∧ 32768 ≤ s.rtcSince s.mp.lastCal ∧ ((∀ n ∈ List.range 73, s.calValid n = true → s.calAged n = false ∧ ((n ≠ 0 ∧ s.link (calIsland n) ≠ 3) ∨ (s.calTemp n ≤ s.calNow n + 25 ∧ s.calNow n ≤ s.calTemp n + 25))))) (withFlds [(F.FLD_LNK_STATE 17, 3)] (sTests.setIsl 17 { islandZero with held := zeros 21 ++ [100, 109, 100] })) := by decide +kernel

theorem witness_TestsAndCalibration_22 : (fun (n : Fin 73) (q : Nat) (s : State) => n.val ≠ 0 ∧ s.mp.calPending.any (fun p : Nat × Option Nat => p.1 == n.val && Option.any (fun x : Nat => decide ((if n.val ≤ 64 then 32768 else 3277) ≤ s.rtcSince x)) p.2) = true ∧ s.link (if n.val ≤ 64 then 24 + (n.val - 1) / 2 else 16 + (n.val - 65)) = 3 ∧ s.operate = true ∧ q = (if s.calValid n.val = true then s.le (calSlot n.val + 0x10) 4 + 1 else 0)) (66) (7) (withFlds [(F.FLD_LNK_STATE 17, 3)] { sTests with mp := { sTests.mp with calPending := [(1, none), (66, some 396723)] } }) := by decide +kernel

theorem witness_TestsAndCalibration_23 : (fun (n : Fin 73) (s : State) => (n.val = 0 ∨ s.mp.calPending.all (fun p : Nat × Option Nat => p.1 != n.val || Option.all (fun x : Nat => decide (s.rtcSince x < (if n.val ≤ 64 then 32768 else 3277))) p.2) = true ∨ s.link (if n.val ≤ 64 then 24 + (n.val - 1) / 2 else 16 + (n.val - 65)) ≠ 3 ∨ s.operate = false)) (66) (withFlds [(F.FLD_LNK_STATE 17, 3)] { sTests with mp := { sTests.mp with calPending := [(1, none), (66, some 396724)] } }) := by decide +kernel

theorem witness_ManagementServices_1 : (fun (load : BitVec 7) (n : Nat) (s : State) => s.phase ≠ Phase.reset ∧ n = min load.toNat 100 ∧ 90 < n ∧ s.rd F.MPX_STAT_SHED < 3) (110) (100) (withFlds [(F.MPX_STAT_SHED, 2)] sTests) := by decide +kernel

theorem witness_ManagementServices_2 : (fun (load : BitVec 7) (n : Nat) (s : State) => s.phase ≠ Phase.reset ∧ n = min load.toNat 100 ∧ ((70 ≤ n ∧ n ≤ 90) ∨ (90 < n ∧ s.rd F.MPX_STAT_SHED = 3))) (90) (90) (sTests) := by decide +kernel

theorem witness_ManagementServices_3 : (fun (load : BitVec 7) (s : State) => s.phase ≠ Phase.reset ∧ load.toNat < 70 ∧ s.mp.lowRun ≠ 9) (69) ({ sTests with mp := { sTests.mp with lowRun := 8 } }) := by decide +kernel

theorem witness_ManagementServices_4 : (fun (load : BitVec 7) (s : State) => s.phase ≠ Phase.reset ∧ load.toNat < 70 ∧ s.mp.lowRun = 9 ∧ 0 < s.rd F.MPX_STAT_SHED) (69) (withFlds [(F.MPX_STAT_SHED, 3)] { sTests with mp := { sTests.mp with lowRun := 9 } }) := by decide +kernel

theorem witness_ManagementServices_5 : (fun (load : BitVec 7) (s : State) => s.phase ≠ Phase.reset ∧ load.toNat < 70 ∧ s.mp.lowRun = 9 ∧ s.rd F.MPX_STAT_SHED = 0) (69) ({ sTests with mp := { sTests.mp with lowRun := 9 } }) := by decide +kernel

theorem witness_ManagementServices_6 : (fun (s : State) => s.phase = Phase.reset) ({ sTests with phase := .reset }) := by decide +kernel

theorem witness_ManagementServices_7 : (fun (s : State) => s.phase ≠ Phase.reset ∧ s.pwr.state ≠ PowerState.e2 ∧ s.pwr.state ≠ PowerState.e3 ∧ 0 < s.rd F.MPX_TELEM_PERIOD ∧ s.rd F.MPX_STAT_SHED = 0 ∧ s.mp.telemFrom + s.rd F.MPX_TELEM_PERIOD * 50000000 ≤ s.raw) (withFlds [(F.MPX_TELEM_PERIOD, 1)] { sTests with tb := { sTests.tb with raw := 50000007 }, mp := { sTests.mp with telemFrom := 7 } }) := by decide +kernel

theorem witness_ManagementServices_8 : (fun (s : State) => (s.rd F.MPX_TELEM_PERIOD = 0 ∨ 0 < s.rd F.MPX_STAT_SHED ∨ s.raw < s.mp.telemFrom + s.rd F.MPX_TELEM_PERIOD * 50000000 ∨ s.phase = Phase.reset ∨ s.pwr.state = PowerState.e2 ∨ s.pwr.state = PowerState.e3)) (withFlds [(F.MPX_TELEM_PERIOD, 1)] { sTests with tb := { sTests.tb with raw := 50000006 }, mp := { sTests.mp with telemFrom := 7 } }) := by decide +kernel

theorem witness_ManagementServices_9 : (fun (s : State) => s.mp.mailWait = []) (withFlds [(F.MPX_M2L_CMD_SEQ, 8)] sTests) := by decide +kernel

theorem witness_ManagementServices_10 : (fun (c : Nat) (x : Word) (l : List (Nat × Word)) (s : State) => s.mp.mailWait = (c, x) :: l) (2) (5) ([(0xFF, 0)]) (withFlds [(F.MPX_M2L_CMD_SEQ, 8)] { sTests with mp := { sTests.mp with mailWait := [(2, 5), (0xFF, 0)] } }) := by decide +kernel

theorem witness_ManagementServices_11 : (fun (w : Word) (s : State) => s.mustWait = false ∧ w.toNat / 65536 % 256 = 1) (0x10009) ((sTests.setReg (Reg.MPX_L2M_D 0) 55).setReg (Reg.MPX_L2M_D 7) 66) := by decide +kernel

theorem witness_ManagementServices_12 : (fun (w : Word) (n : Nat) (q : Nat) (a : Nat) (s : State) => s.mustWait = false ∧ n = w.toNat / 65536 % 256 ∧ n ≠ 1 ∧ s.rd F.MPX_M2L_CMD_SEQ = s.rd F.MPX_M2L_ACK_SEQ ∧ q = (s.rd F.MPX_M2L_CMD_SEQ + 1) % 65536 ∧ a = (if n = 2 then 2 else 0xFF)) (0x30009) (3) (0) (0xFF) (withFlds [(F.MPX_M2L_CMD_SEQ, 65535), (F.MPX_M2L_ACK_SEQ, 65535)] sTests) := by decide +kernel

theorem witness_ManagementServices_13 : (fun (w : Word) (n : Nat) (s : State) => s.mustWait = false ∧ n = w.toNat / 65536 % 256 ∧ n ≠ 1 ∧ s.rd F.MPX_M2L_CMD_SEQ ≠ s.rd F.MPX_M2L_ACK_SEQ) (0x30009) (3) (withFlds [(F.MPX_M2L_CMD_SEQ, 65535)] sTests) := by decide +kernel

theorem witness_ManagementServices_14 : (fun (s : State) => s.mustWait = false) (sTests) := by decide +kernel

theorem witness_ManagementServices_15 : (fun (s : State) => s.mustWait = true) (inPhase .locking) := by decide +kernel

theorem witness_ManagementServices_16 : (fun (s : State) => s.mustWait = true) (inPhase .locking) := by decide +kernel

theorem witness_ManagementServices_17 : (fun (s : State) => s.mustWait = false) (sTests) := by decide +kernel

theorem witness_ManagementServices_18 : (fun (s : State) => s.mustWait = false) (sTests) := by decide +kernel

theorem witness_ManagementServices_19 : (fun (f : List Byte) (s : State) => s.phase ≠ Phase.reset ∧ f.length ≤ 1518 ∧ s.pwr.state ≠ PowerState.e2 ∧ s.pwr.state ≠ PowerState.e3) (zeros 60) (sTests) := by decide +kernel

theorem witness_ManagementServices_20 : (fun (f : List Byte) (s : State) => (1518 < f.length ∨ s.phase = Phase.reset ∨ s.pwr.state = PowerState.e2 ∨ s.pwr.state = PowerState.e3)) (zeros 1519) (sTests) := by decide +kernel

theorem witness_ManagementServices_21 : (fun (f : List Byte) => ptpEvent f = false) (zeros 60) := by decide +kernel

theorem witness_ManagementServices_22 : (fun (port : Fin 2) (f : List Byte) (n : Nat) (s : State) => ptpEvent f = true ∧ n = (s.raw + 2 ^ 64 - f.length * (if port = 0 then 4 else 40)) % 2 ^ 64) (0) (zeros 12 ++ [0x88, 0xF7, 0, 2] ++ zeros 44) (19999760) (sTests) := by decide +kernel

theorem witness_ImageLoads_1 : (fun (n : Nat) (b : Nat) (s : State) => s.phase = Phase.setup ∧ s.rd F.SYS_IMG_STAT_BUSY = 1 ∧ n = (if s.imgHeaderBad = true then 256 else s.imgLen) ∧ imgMemory s.imgAddr 256 = true ∧ s.badWord s.imgAddr n = some b) (0x180) (0x1000700040) ({ sImage 0 64 with ecc := [(0x2000E0008, .uncorrectable)] }) := by decide +kernel

theorem witness_ImageLoads_2 : (fun (n : Nat) (s : State) => s.phase = Phase.setup ∧ s.rd F.SYS_IMG_STAT_BUSY = 1 ∧ n = (if s.imgHeaderBad = true then 256 else s.imgLen) ∧ (imgMemory s.imgAddr 256 = false ∨ s.badWord s.imgAddr n = none) ∧ s.imgCheck.1 ≠ 0) (0x180) ({ sImage 0 64 with ecc := [(0x2000E0008, .corrected)] }) := by decide +kernel

theorem witness_ImageLoads_6 : (fun (s : State) => s.imgHeaderBad = true) (sSetup) := by decide +kernel

theorem witness_ImageLoads_8 : (fun (s : State) => s.imgHeaderBad = false ∧ s.imgFld 0xC 0 8 ≠ s.rd F.SYS_ID_VARIANT) (withFlds [(F.SYS_ID_VARIANT, 0x46)] (sImage 0 64)) := by decide +kernel

theorem witness_ImageLoads_9 : (fun (s : State) => s.imgHeaderBad = false ∧ s.imgFld 0xC 0 8 = s.rd F.SYS_ID_VARIANT ∧ (crc32c (s.imgBytes 0x100 (s.imgLen - 0x100))).toNat ≠ s.imgFld 0x18 0 32) ((sImage 0 64).setBytes 0x1000700101 [1]) := by decide +kernel

theorem witness_ImageLoads_10 : (fun (s : State) => s.imgHeaderBad = false ∧ s.imgFld 0xC 0 8 = s.rd F.SYS_ID_VARIANT ∧ (crc32c (s.imgBytes 0x100 (s.imgLen - 0x100))).toNat = s.imgFld 0x18 0 32 ∧ s.imgSignature ≠ 0) ({ sImage 0 64 with pwr := { sSetup.pwr with fuseImgSig := true } }) := by decide +kernel

theorem witness_ImageLoads_11 : (fun (s : State) => s.imgSigned = false) (sImage 0 64) := by decide +kernel

theorem witness_ImageLoads_12 : (fun (s : State) => s.imgSigned = true ∧ s.keyOk (s.imgFld 0x14 0 8) (s.imgBytes 0x40 64) = false) ((sImage 0 64).setBytes 0x1000700006 [1, 0, 0, 0, 0, 0, 0, 0, 0, 0, 0, 0, 0, 0, 5]) := by decide +kernel

theorem witness_ImageLoads_13 : (fun (x : ImgSect) (s : State) => s.imgHeaderBad = false ∧ s.imgFld 0xC 0 8 = s.rd F.SYS_ID_VARIANT ∧ (crc32c (s.imgBytes 0x100 (s.imgLen - 0x100))).toNat = s.imgFld 0x18 0 32 ∧ s.imgSignature = 0 ∧ s.imgTable.find? (s.imgSectBad s.imgRegs) = some x) ((sImage 0 64).imgSect 0) (sImage 0 64) := by decide +kernel

theorem witness_ImageLoads_14 : (fun (s : State) => s.imgHeaderBad = false ∧ s.imgFld 0xC 0 8 = s.rd F.SYS_ID_VARIANT ∧ (crc32c (s.imgBytes 0x100 (s.imgLen - 0x100))).toNat = s.imgFld 0x18 0 32 ∧ s.imgSignature = 0 ∧ s.imgTable.find? (s.imgSectBad s.imgRegs) = none) (sImage 1 64) := by decide +kernel

theorem witness_ImageLoads_16 : (fun (x : ImgSect) => x.ty = 1) (⟨0, 1, 0, 0x140, 64, 0⟩) := by decide +kernel

theorem witness_ImageLoads_18 : (fun (x : ImgSect) => x.ty = 2) (⟨0, 2, 0, 0x140, 64, 0⟩) := by decide +kernel

theorem witness_ImageLoads_19 : (fun (x : ImgSect) => x.ty = 3) (⟨0, 3, 0, 0x140, 64, 0⟩) := by decide +kernel

theorem witness_ImageLoads_20 : (fun (x : ImgSect) => x.ty = 4) (⟨0, 4, 0, 0x140, 72, 0⟩) := by decide +kernel

theorem witness_ImageLoads_22 : (fun (x : ImgSect) (s : State) => x.ty = 5 ∧ s.rd F.RING_DB_BASE_BASE = 0) (⟨0, 5, 0, 0x140, 64, 0⟩) ((sImage 5 64).wr F.RING_DB_BASE_BASE 0) := by decide +kernel

theorem witness_ImageLoads_23 : (fun (l : List Word) (x : ImgSect) (s : State) => x.ty = 5 ∧ s.rd F.RING_DB_BASE_BASE ≠ 0 ∧ l = s.imgWords x) ((sImage 5 64).imgWords ⟨0, 5, 0, 0x140, 64, 0⟩) (⟨0, 5, 0, 0x140, 64, 0⟩) (sImage 5 64) := by decide +kernel

theorem witness_ImageLoads_24 : (fun (x : ImgSect) => x.ty = 6) (⟨0, 6, 0, 0x140, 64, 0⟩) := by decide +kernel

theorem witness_ImageLoads_25 : (fun (x : ImgSect) => x.ty = 7) (⟨0, 7, 0, 0x140, 64, 0⟩) := by decide +kernel

theorem witness_ImageLoads_26 : (fun (x : ImgSect) => x.ty = 8) (⟨0, 8, 0, 0x140, 64, 0⟩) := by decide +kernel

theorem witness_ImageLoads_27 : (fun (x : ImgSect) => x.ty = 9) (⟨0, 9, 0, 0x140, 64, 0⟩) := by decide +kernel

theorem witness_ImageLoads_28 : (fun (l : List Word) (x : ImgSect) (s : State) => x.ty = 10 ∧ l = s.imgWords x) ((sImage 10 64).imgWords ⟨0, 10, 0, 0x140, 64, 0⟩) (⟨0, 10, 0, 0x140, 64, 0⟩) (sImage 10 64) := by decide +kernel

theorem witness_ImageLoads_29 : (fun (s : State) => s.phase = Phase.setup ∧ s.rd F.SYS_IMG_STAT_BUSY = 1 ∧ s.ecc = [] ∧ s.imgFld 0 0 32 ≠ 0x474D495A) (sSetupOn.wr F.SYS_IMG_STAT_BUSY 1) := by decide +kernel

theorem witness_ImageLoads_30 : (fun (e : Nat) (i : Nat) (s : State) => s.phase = Phase.setup ∧ s.rd F.SYS_IMG_STAT_BUSY = 1 ∧ s.ecc = [] ∧ s.imgCheck = (e, some i)) (6) (0) (sImage 0 64) := by decide +kernel

theorem witness_ImageLoads_32 : (fun (s : State) => (s.phase ≠ Phase.setup ∨ s.rd F.SYS_IMG_STAT_BUSY = 0)) (sSetup) := by decide +kernel

theorem witness_MaintenanceReads_1 : (fun (c : Instr) (q : MaintReq) (op : Nat) (len : Nat) (s : State) => maintRow c = some (q, op, len) ∧ s.mpServes = false) (.ident (maintQ 1 0)) (maintQ 1 0) (1) (0) ({ sAsked with phase := .boot }) := by decide +kernel

theorem witness_MaintenanceReads_2 : (fun (c : Instr) (q : MaintReq) (op : Nat) (len : Nat) (s : State) => maintRow c = some (q, op, len) ∧ s.mpServes = true ∧ (q.magic ≠ 0x444D ∨ q.ver ≠ 1 ∨ q.dst ≠ s.maintAddr q.port ∨ (q.op ≠ op ∧ maintOps.contains q.op = true))) (.ident (maintQ 2 0)) (maintQ 2 0) (1) (0) (sAsked) := by decide +kernel

theorem witness_MaintenanceReads_3 : (fun (c : Instr) (q : MaintReq) (op : Nat) (len : Nat) (x : MaintSent) (s : State) => maintRow c = some (q, op, len) ∧ headed q s ∧ (q.op = op ∨ maintOps.contains q.op = false) ∧ s.sentBefore q = some x) (.ident ({ maintQ 1 0 with head := (maintQ 1 0).head - 2 ^ 32 })) ({ maintQ 1 0 with head := (maintQ 1 0).head - 2 ^ 32 }) (1) (0) (⟨1, 0xC0A80107, 5000, 76, 396800, [5]⟩) (sAsked) := by decide +kernel

theorem witness_MaintenanceReads_4 : (fun (c : Instr) (q : MaintReq) (op : Nat) (len : Nat) (s : State) => maintRow c = some (q, op, len) ∧ headed q s ∧ s.sentBefore q = none ∧ (maintOps.contains q.op = false ∨ (q.op = op ∧ (q.len ≠ len ∨ (s.phase = Phase.recovery ∧ inRecovery op = false))))) (.ident (maintQ 1 3)) (maintQ 1 3) (1) (0) (sAsked) := by decide +kernel

theorem witness_MaintenanceReads_6 : (fun (q : MaintReq) (s : State) => asked q 0x01 0 s) (maintQ 1 0) (sAsked) := by decide +kernel

theorem witness_MaintenanceReads_7 : (fun (q : MaintReq) (off : BitVec 22) (n : Nat) (s : State) => asked q 0x02 8 s ∧ (off.toNat % 4 ≠ 0 ∨ n = 0 ∨ 64 < n ∨ 0x140000 < off.toNat + 4 * n)) (maintQ 2 8) (0x13FFFC) (2) (sAsked) := by decide +kernel

theorem witness_MaintenanceReads_8 : (fun (q : MaintReq) (off : BitVec 22) (n : Nat) (s : State) => asked q 0x02 8 s ∧ off.toNat % 4 = 0 ∧ 1 ≤ n ∧ n ≤ 64 ∧ off.toNat + 4 * n ≤ 0x140000) (maintQ 2 8) (0x13FFF8) (2) (sAsked) := by decide +kernel

theorem witness_MaintenanceReads_10 : (fun (q : MaintReq) (s : State) => asked q 0x02 8 s) (maintQ 2 8) (sAsked) := by decide +kernel

theorem witness_MaintenanceReads_11 : (fun (q : MaintReq) (s : State) => asked q 0x03 4 s) (maintQ 3 4) (sAsked.recNoteWrite 7 [1, 2]) := by decide +kernel

theorem witness_MaintenanceReads_12 : (fun (k0 : Word) (a : Nat) => a = 0x60102000 + 64 * (k0.toNat % 128)) (130) (0x60102080) := by decide +kernel

theorem witness_MaintenanceReads_13 : (fun (q : MaintReq) (k0 : BitVec 12) (n : BitVec 13) (s : State) => asked q 0x04 8 s ∧ 0 < n.toNat ∧ n.toNat ≤ 4 ∧ k0.toNat + n.toNat ≤ s.rd F.REC_CHAN_COUNT_COUNT ∧ s.rd F.MPX_STAT_SHED < 2) (maintQ 4 8) (0) (2) ({ sRecd 20000000 with mp := sAsked.mp }) := by decide +kernel

theorem witness_MaintenanceReads_14 : (fun (q : MaintReq) (k0 : BitVec 12) (n : BitVec 13) (s : State) => asked q 0x04 8 s ∧ 0 < n.toNat ∧ n.toNat ≤ 4 ∧ k0.toNat + n.toNat ≤ s.rd F.REC_CHAN_COUNT_COUNT ∧ 2 ≤ s.rd F.MPX_STAT_SHED) (maintQ 4 8) (0) (2) (withFlds [(F.MPX_STAT_SHED, 2)] (sRecd 20000000)) := by decide +kernel

theorem witness_MaintenanceReads_15 : (fun (q : MaintReq) (k0 : BitVec 12) (n : BitVec 13) (s : State) => asked q 0x04 8 s ∧ (n.toNat = 0 ∨ 4 < n.toNat ∨ s.rd F.REC_CHAN_COUNT_COUNT < k0.toNat + n.toNat)) (maintQ 4 8) (0) (3) ({ sRecd 20000000 with mp := sAsked.mp }) := by decide +kernel

theorem witness_MaintenanceReads_16 : (fun (q : MaintReq) (s : State) => asked q 0x10 0 s) (maintQ 16 0) (sAsked) := by decide +kernel

theorem witness_MaintenanceReads_17 : (fun (q : MaintReq) (slot : Byte) (pub : List Byte) (sig : List Byte) (n : BitVec 128) (e : BitVec 256) (s : State) => asked q 0x11 132 s ∧ slot.toNat < 4 ∧ pub.length = 64 ∧ sig.length = 64 ∧ Option.all (fun r : Nat => decide (1966080 ≤ s.rtcSince r)) s.mp.lockedFrom = true ∧ s.mp.nonce = some n ∧ s.pwr.fuseRevoked.getLsbD slot.toNat = false ∧ sha256 pub = s.pwr.fuseKeys.getD slot.toNat 0 ∧ e = sha256 (beBytes 16 n.toNat ++ beBytes 4 (s.reg Reg.SYS_ID).toNat ++ beBytes 4 (s.reg Reg.SYS_STRAP).toNat) ∧ sigOk e pub sig = true) (maintQ 17 132) (2) (unlockPub) (unlockSig) (0x5EED) (sha256 (beBytes 16 0x5EED ++ beBytes 4 (sAsked.reg Reg.SYS_ID).toNat ++ beBytes 4 (sAsked.reg Reg.SYS_STRAP).toNat)) ({ sAsked with mp := { sAsked.mp with nonce := some 0x5EED }, pwr := { sAsked.pwr with fuseKeys := [0, 0, unlockKey, 0] } }) := by decide +kernel

theorem witness_MaintenanceReads_18 : (fun (q : MaintReq) (slot : Byte) (pub : List Byte) (sig : List Byte) (l : List Nat) (s : State) => asked q 0x11 132 s ∧ slot.toNat < 4 ∧ pub.length = 64 ∧ sig.length = 64 ∧ Option.all (fun r : Nat => decide (1966080 ≤ s.rtcSince r)) s.mp.lockedFrom = true ∧ s.unlockOk slot.toNat pub sig = false ∧ l = s.pwr.rtc.toNat :: s.mp.failed.filter (fun r : Nat => decide (s.rtcSince r < 1966080))) (maintQ 17 132) (2) (zeros 64) (zeros 64) ([400000, 399000, 398000]) ({ sAsked with mp := { sAsked.mp with failed := [399000, 398000] }, pwr := sAsked.pwr }) := by decide +kernel

theorem witness_MaintenanceReads_19 : (fun (q : MaintReq) (slot : Byte) (pub : List Byte) (sig : List Byte) (r : Nat) (s : State) => asked q 0x11 132 s ∧ slot.toNat < 4 ∧ pub.length = 64 ∧ sig.length = 64 ∧ s.mp.lockedFrom = some r ∧ s.rtcSince r < 1966080) (maintQ 17 132) (2) (zeros 64) (zeros 64) (399000) ({ sAsked with mp := { sAsked.mp with lockedFrom := some 399000 } }) := by decide +kernel

theorem witness_MaintenanceReads_20 : (fun (q : MaintReq) (slot : Byte) (pub : List Byte) (sig : List Byte) (s : State) => asked q 0x11 132 s ∧ (4 ≤ slot.toNat ∨ pub.length ≠ 64 ∨ sig.length ≠ 64)) (maintQ 0x11 132) (4) (zeros 64) (zeros 64) (sAsked) := by decide +kernel

theorem witness_MaintenanceReads_21 : (fun (s : State) => s.mp.nonce = none) (sAsked) := by decide +kernel

theorem witness_MaintenanceReads_22 : (fun (slot : Nat) (pub : List Byte) (n : BitVec 128) (s : State) => s.mp.nonce = some n ∧ (4 ≤ slot ∨ s.pwr.fuseRevoked.getLsbD slot = true ∨ sha256 pub ≠ s.pwr.fuseKeys.getD slot 0)) (4) (zeros 64) (0x5EED) ({ sAsked with mp := { sAsked.mp with nonce := some 0x5EED } }) := by decide +kernel

theorem witness_MaintenanceReads_23 : (fun (s : State) => s.rd F.MPX_STAT_UNLOCKED = 1 ∧ 19660800 ≤ s.rtcSince s.mp.lastUnlocked) (withFlds [(F.MPX_STAT_UNLOCKED, 1)] { sAsked with pwr := { sAsked.pwr with rtc := 19660800 } }) := by decide +kernel

theorem witness_MaintenanceReads_24 : (fun (s : State) => (s.rtcSince s.mp.lastUnlocked < 19660800 ∨ s.rd F.MPX_STAT_UNLOCKED = 0)) (withFlds [(F.MPX_STAT_UNLOCKED, 1)] { sAsked with pwr := { sAsked.pwr with rtc := 19660799 } }) := by decide +kernel

theorem witness_MaintenanceReads_25 : (fun (s : State) => s.phase ≠ Phase.reset ∧ s.phase ≠ Phase.boot) (sAsked) := by decide +kernel

theorem witness_MaintenanceReads_26 : (fun (s : State) => s.phase ≠ Phase.reset ∧ s.phase ≠ Phase.boot) (sAsked.recNoteWrite 7 [1, 2]) := by decide +kernel

theorem witness_MaintenanceReads_27 : (fun (s : State) => s.phase ≠ Phase.reset ∧ s.phase ≠ Phase.boot) (sAsked) := by decide +kernel

theorem witness_MaintenanceReads_28 : (fun (off : BitVec 22) (n : Nat) (s : State) => s.phase ≠ Phase.reset ∧ s.phase ≠ Phase.boot ∧ (off.toNat % 4 ≠ 0 ∨ n = 0 ∨ 64 < n ∨ 0x140000 < off.toNat + 4 * n)) (1) (1) (sAsked) := by decide +kernel

theorem witness_MaintenanceReads_29 : (fun (off : BitVec 22) (n : Nat) (s : State) => s.phase ≠ Phase.reset ∧ s.phase ≠ Phase.boot ∧ off.toNat % 4 = 0 ∧ 1 ≤ n ∧ n ≤ 64 ∧ off.toNat + 4 * n ≤ 0x140000) (0x13FFF8) (2) (sAsked) := by decide +kernel

theorem witness_MaintenanceReads_30 : (fun (s : State) => (s.phase = Phase.reset ∨ s.phase = Phase.boot)) ({ sAsked with phase := .boot }) := by decide +kernel

theorem witness_MaintenanceWrites_1 : (fun (q : MaintReq) (op : Nat) (addr : Word) (v : State) (s : State) => v = unlockedCall q op addr s) (maintQ 0x20 12) (0x20) (7) (unlockedCall (maintQ 0x20 12) 0x20 7 sUnlocked) (sUnlocked) := by decide +kernel

theorem witness_MaintenanceWrites_2 : (fun (c : Instr) (q : MaintReq) (op : Nat) (len : Nat) (s : State) => maintRow c = some (q, op, len) ∧ 0x20 ≤ op ∧ asked q op len s ∧ s.rd F.MPX_STAT_UNLOCKED = 0) (.readMem (maintQ 0x20 12) 0x1000000000 4) (maintQ 0x20 12) (0x20) (12) (sAsked) := by decide +kernel

theorem witness_MaintenanceWrites_3 : (fun (q : MaintReq) (a : BitVec 40) (n : Nat) (s : State) => asked q 0x20 12 s ∧ s.rd F.MPX_STAT_UNLOCKED = 1 ∧ 0 < n ∧ n ≤ 1024 ∧ State.engineMayRead a.toNat n = true ∧ s.badWord a.toNat n = none) (maintQ 0x20 12) (0x1000700000) (4) (sUnlocked.setBytes 0x1000700000 [1, 2, 3]) := by decide +kernel

theorem witness_MaintenanceWrites_4 : (fun (q : MaintReq) (a : BitVec 40) (n : Nat) (b : Nat) (s : State) => asked q 0x20 12 s ∧ s.rd F.MPX_STAT_UNLOCKED = 1 ∧ 0 < n ∧ n ≤ 1024 ∧ State.engineMayRead a.toNat n = true ∧ s.badWord a.toNat n = some b) (maintQ 0x20 12) (0x1000700000) (4) (0x1000700000) ({ sUnlocked with ecc := [(0x2000E0000, .uncorrectable)] }) := by decide +kernel

theorem witness_MaintenanceWrites_5 : (fun (q : MaintReq) (a : BitVec 40) (n : Nat) (s : State) => asked q 0x20 12 s ∧ s.rd F.MPX_STAT_UNLOCKED = 1 ∧ (n = 0 ∨ 1024 < n ∨ State.engineMayRead a.toNat n = false)) (maintQ 0x20 12) (0x1000700000) (1025) (sUnlocked) := by decide +kernel

theorem witness_MaintenanceWrites_6 : (fun (q : MaintReq) (off : BitVec 22) (s : State) => asked q 0x21 8 s ∧ s.rd F.MPX_STAT_UNLOCKED = 1 ∧ off.toNat % 4 = 0 ∧ off.toNat < 0x140000) (maintQ 0x21 8) (0x120008) (sUnlocked) := by decide +kernel

theorem witness_MaintenanceWrites_7 : (fun (q : MaintReq) (off : BitVec 22) (s : State) => asked q 0x21 8 s ∧ s.rd F.MPX_STAT_UNLOCKED = 1 ∧ (off.toNat % 4 ≠ 0 ∨ 0x140000 ≤ off.toNat)) (maintQ 0x21 8) (0x120009) (sUnlocked) := by decide +kernel

theorem witness_MaintenanceWrites_8 : (fun (q : MaintReq) (k0 : BitVec 12) (n : BitVec 13) (g : Word) (s : State) => asked q 0x22 8 s ∧ s.rd F.MPX_STAT_UNLOCKED = 1 ∧ 0 < n.toNat ∧ k0.toNat + n.toNat ≤ s.rd F.REC_CHAN_COUNT_COUNT ∧ g = BitVec.ofNat 32 (min (s.rd F.REC_CLEAR_GEN_GEN + 1) 0xFFFFFFFF)) (maintQ 0x22 8) (0) (2) (9) ({ sRecd 20000000 with regs := ((sRecd 0).wr F.MPX_STAT_UNLOCKED 1).regs }) := by decide +kernel

theorem witness_MaintenanceWrites_9 : (fun (q : MaintReq) (k0 : BitVec 12) (n : BitVec 13) (s : State) => asked q 0x22 8 s ∧ s.rd F.MPX_STAT_UNLOCKED = 1 ∧ (n.toNat = 0 ∨ s.rd F.REC_CHAN_COUNT_COUNT < k0.toNat + n.toNat)) (maintQ 0x22 8) (0) (3) ({ sRecd 20000000 with regs := ((sRecd 0).wr F.MPX_STAT_UNLOCKED 1).regs }) := by decide +kernel

theorem witness_MaintenanceWrites_10 : (fun (q : MaintReq) (bank : Byte) (off : Word) (bs : List Byte) (a : Nat) (s : State) => asked q 0x23 (8 + bs.length) s ∧ s.rd F.MPX_STAT_UNLOCKED = 1 ∧ (bank.toNat = 1 - s.rd F.SYS_BOOT_BANK ∨ (s.phase = Phase.recovery ∧ bank.toNat < 2)) ∧ 0 < bs.length ∧ bs.length ≤ 1024 ∧ off.toNat + bs.length ≤ 0x8000000 ∧ a = 0x20000000 + 0x8000000 * bank.toNat + off.toNat) (maintQ 0x23 10) (1) (0x7FFFFFE) ([1, 2]) (0x2FFFFFFE) (sUnlocked) := by decide +kernel

theorem witness_MaintenanceWrites_11 : (fun (q : MaintReq) (bank : Byte) (off : Word) (bs : List Byte) (s : State) => asked q 0x23 (8 + bs.length) s ∧ s.rd F.MPX_STAT_UNLOCKED = 1 ∧ ((s.phase ≠ Phase.recovery ∧ bank.toNat ≠ 1 - s.rd F.SYS_BOOT_BANK) ∨ 2 ≤ bank.toNat ∨ bs.length = 0 ∨ 1024 < bs.length ∨ 0x8000000 < off.toNat + bs.length)) (maintQ 0x23 10) (0) (8) ([1, 2]) (sUnlocked) := by decide +kernel

theorem witness_MaintenanceWrites_12 : (fun (q : MaintReq) (bank : Byte) (s : State) => asked q 0x24 4 s ∧ s.rd F.MPX_STAT_UNLOCKED = 1 ∧ bank.toNat ≤ 1) (maintQ 0x24 4) (1) (sUnlocked) := by decide +kernel

theorem witness_MaintenanceWrites_13 : (fun (q : MaintReq) (bank : Byte) (s : State) => asked q 0x24 4 s ∧ s.rd F.MPX_STAT_UNLOCKED = 1 ∧ 2 ≤ bank.toNat) (maintQ 0x24 4) (2) (sUnlocked) := by decide +kernel

theorem witness_MaintenanceWrites_14 : (fun (q : MaintReq) (s : State) => asked q 0x25 4 s ∧ s.rd F.MPX_STAT_UNLOCKED = 1 ∧ (s.phase = Phase.setup ∨ s.phase = Phase.locking)) (maintQ 0x25 4) ({ sUnlocked with phase := .setup }) := by decide +kernel

theorem witness_MaintenanceWrites_15 : (fun (q : MaintReq) (s : State) => asked q 0x25 4 s ∧ s.rd F.MPX_STAT_UNLOCKED = 1 ∧ s.phase ≠ Phase.setup ∧ s.phase ≠ Phase.locking) (maintQ 0x25 4) (sUnlocked) := by decide +kernel

theorem witness_MaintenanceWrites_16 : (fun (q : MaintReq) (s : State) => asked q 0x26 0 s ∧ s.rd F.MPX_STAT_UNLOCKED = 1) (maintQ 0x26 0) (sUnlocked) := by decide +kernel

theorem witness_LaneAndCordChecks_1 : (fun (s : State) => s.phase = Phase.locking ∧ s.rd F.LANE_STAT_SAFE = 0 ∧ s.rd F.SYS_IMG_STAT_ACCEPTED = 1 ∧ s.ratValid = true ∧ 2 ≤ s.usableLanes.length ∧ (s.rd F.PWR_EMBER_CFG_E3_EN = 0 ∨ s.inVolatile s.saveBase 0x400000 = true) ∧ s.rd F.LANE_CFG_MISMATCH_POLICY = 1 ∧ s.rd F.LANE_CFG_ROLLBACK_LIMIT = 0) (withFlds [(F.SYS_IMG_STAT_ACCEPTED, 1), (F.LANE_CFG_MISMATCH_POLICY, 1), (F.LANE_CFG_ROLLBACK_LIMIT, 0)] (inPhase .locking)) := by decide +kernel

theorem witness_LaneAndCordChecks_2 : (fun (s : State) => s.phase = Phase.locking ∧ s.rd F.LANE_STAT_SAFE = 0 ∧ s.rd F.SYS_IMG_STAT_ACCEPTED = 1 ∧ s.ratValid = true ∧ 2 ≤ s.usableLanes.length ∧ (s.rd F.PWR_EMBER_CFG_E3_EN = 0 ∨ s.inVolatile s.saveBase 0x400000 = true) ∧ (s.rd F.LANE_CFG_MISMATCH_POLICY ≠ 1 ∨ s.rd F.LANE_CFG_ROLLBACK_LIMIT ≠ 0) ∧ (s.rd F.CORD_PERIOD_PERIOD < 100 ∨ 10000 < s.rd F.CORD_PERIOD_PERIOD)) (withFlds [(F.SYS_IMG_STAT_ACCEPTED, 1), (F.CORD_PERIOD_PERIOD, 99)] (inPhase .locking)) := by decide +kernel

theorem witness_LaneAndCordChecks_3 : (fun (s : State) => (s.rd F.PWR_EMBER_CFG_E3_EN = 0 ∨ s.inVolatile s.saveBase 0x400000 = true) ∧ (s.rd F.LANE_CFG_MISMATCH_POLICY ≠ 1 ∨ s.rd F.LANE_CFG_ROLLBACK_LIMIT ≠ 0) ∧ 100 ≤ s.rd F.CORD_PERIOD_PERIOD ∧ s.rd F.CORD_PERIOD_PERIOD ≤ 10000) (withFlds [(F.CORD_PERIOD_PERIOD, 100)] (inPhase .locking)) := by decide +kernel

theorem witness_MpWatchdog_1 : (fun (s : State) => s.mustWait = false) (sTests) := by decide +kernel

theorem witness_MpWatchdog_2 : (fun (s : State) => s.mustWait = false) (sTests) := by decide +kernel

theorem witness_MpWatchdog_3 : (fun (s : State) => s.mustWait = true) (inPhase .locking) := by decide +kernel

theorem witness_MpWatchdog_4 : (fun (s : State) => s.phase ≠ Phase.reset ∧ s.rd F.MPX_WDT_TMO * 32768 ≤ (s.pwr.rtc - s.mp.wdtFrom).toNat * 1000) (sTests) := by decide +kernel

theorem witness_MpWatchdog_5 : (fun (s : State) => s.phase ≠ Phase.reset ∧ s.rd F.LANE_STAT_SAFE = 0) (sTests) := by decide +kernel

theorem witness_MpWatchdog_6 : (fun (s : State) => (s.phase = Phase.reset ∨ s.rd F.LANE_STAT_SAFE = 1)) (withFlds [(F.LANE_STAT_SAFE, 1)] sTests) := by decide +kernel

theorem witness_MpWatchdog_7 : (fun (s : State) => ((s.pwr.rtc - s.mp.wdtFrom).toNat * 1000 < s.rd F.MPX_WDT_TMO * 32768 ∨ s.phase = Phase.reset)) ({ sTests with mp := { sTests.mp with wdtFrom := 399000 } }) := by decide +kernel

/-! ## An image whose checks pass

One PARTITION section of 22,016 bytes that enables no partition. Its bytes are chosen so that the CRC register holds 0 from the
fourth byte of the section on. -/

def crcStep (c : Word) (b : Byte) : Word := crcBits 8 (c ^^^ b.zeroExtend 32)

theorem crc_zeros (n : Nat) : (zeros n).foldl crcStep 0 = 0 := by
  induction n with
  | zero => rfl
  | succ n ih =>
    have h : crcStep 0 0 = 0 := by decide
    unfold zeros at *
    rw [List.replicate_succ, List.foldl_cons, h, ih]

theorem crc_then_zeros {l : List Byte} {n : Nat} (h : l.foldl crcStep 0xFFFFFFFF = 0) : (crc32c (l ++ zeros n)).toNat = 0xFFFFFFFF := by
  have e : crc32c (l ++ zeros n) = ~~~ ((l ++ zeros n).foldl crcStep 0xFFFFFFFF) := rfl
  rw [e, List.foldl_append, h, crc_zeros]
  rfl

def sWholeImage : State :=
  { withFlds [(F.SYS_IMG_ADDR_LO_ADDR_LO, 0x700000), (F.SYS_IMG_ADDR_HI_ADDR_HI, 0x10), (F.SYS_IMG_STAT_BUSY, 1)] sSetup with
    mem := [(0x1000700000, 90), (0x1000700001, 73), (0x1000700002, 77), (0x1000700003, 71), (0x1000700004, 1), (0x1000700008, 64), (0x1000700009, 87),
      (0x100070000C, 78), (0x100070000D, 1), (0x1000700010, 9), (0x1000700018, 255), (0x1000700019, 255), (0x100070001A, 255), (0x100070001B, 255),
      (0x100070001C, 190), (0x100070001D, 239), (0x100070001E, 210), (0x100070001F, 136), (0x1000700100, 5), (0x1000700104, 64), (0x1000700105, 1),
      (0x1000700109, 86), (0x100070010C, 255), (0x100070010D, 255), (0x100070010E, 255), (0x100070010F, 255), (0x100070013C, 120), (0x100070013D, 247),
      (0x100070013E, 45), (0x100070013F, 47), (0x1000700140, 255), (0x1000700141, 255), (0x1000700142, 255), (0x1000700143, 255)] }

theorem wholeImage_tail : sWholeImage.bytes 0x1000700144 22012 = zeros 22012 :=
  bytes_unlisted (by decide +kernel)

theorem wholeImage_crc3 : (crc32c (sWholeImage.imgBytes 0x100 22080)).toNat = 0xFFFFFFFF := by
  have e : sWholeImage.imgBytes 0x100 22080 = sWholeImage.bytes 0x1000700100 (68 + 22012) := by
    have : sWholeImage.phys (sWholeImage.imgAddr + 0x100) = 0x1000700100 := by decide +kernel
    unfold State.imgBytes; rw [this]
  rw [e, bytes_append, wholeImage_tail]
  exact crc_then_zeros (by decide +kernel)

theorem wholeImage_crc7 : (crc32c (sWholeImage.imgBytes 0x140 22016)).toNat = 0xFFFFFFFF := by
  have e : sWholeImage.imgBytes 0x140 22016 = sWholeImage.bytes 0x1000700140 (4 + 22012) := by
    have : sWholeImage.phys (sWholeImage.imgAddr + 0x140) = 0x1000700140 := by decide +kernel
    unfold State.imgBytes; rw [this]
  rw [e, bytes_append, wholeImage_tail]
  exact crc_then_zeros (by decide +kernel)

theorem wholeImage_header : sWholeImage.imgHeaderBad = false ∧ sWholeImage.imgFld 0xC 0 8 = sWholeImage.rd F.SYS_ID_VARIANT ∧
    sWholeImage.imgLen - 0x100 = 22080 ∧ sWholeImage.imgFld 0x18 0 32 = 0xFFFFFFFF ∧ sWholeImage.imgSignature = 0 := by decide +kernel

theorem wholeImage_table : sWholeImage.imgTable = [⟨0, 5, 0, 0x140, 22016, 0xFFFFFFFF⟩] := by decide +kernel

theorem wholeImage_sect : sWholeImage.imgSectBad sWholeImage.imgRegs ⟨0, 5, 0, 0x140, 22016, 0xFFFFFFFF⟩ = false := by decide +kernel

theorem wholeImage_sectCrc : sWholeImage.imgCrcBad ⟨0, 5, 0, 0x140, 22016, 0xFFFFFFFF⟩ = false := by
  unfold State.imgCrcBad
  simp only [wholeImage_crc7, bne_self_eq_false]

theorem imgCheck_passes {s : State} {x : ImgSect} (h1 : s.imgHeaderBad = false) (h2 : s.imgFld 0xC 0 8 = s.rd F.SYS_ID_VARIANT)
    (h3 : (crc32c (s.imgBytes 0x100 (s.imgLen - 0x100))).toNat = s.imgFld 0x18 0 32) (h4 : s.imgSignature = 0) (h5 : s.imgTable = [x])
    (h6 : s.imgSectBad s.imgRegs x = false) (h7 : (x.ty == 5) = true) (h8 : s.imgCrcBad x = false) : s.imgCheck = (0, none) := by
  unfold State.imgCheck
  simp [h1, h2, h3, h4, h5, List.find?, h6, h7, h8]

theorem wholeImage_check : sWholeImage.imgCheck = (0, none) := by
  obtain ⟨h1, h2, h3, h4, h5⟩ := wholeImage_header
  exact imgCheck_passes h1 h2 (by rw [h3, wholeImage_crc3, h4]) h5 wholeImage_table wholeImage_sect rfl wholeImage_sectCrc

theorem witness_ImageLoads_3 : sWholeImage.phase = Phase.setup ∧ sWholeImage.rd F.SYS_IMG_STAT_BUSY = 1 ∧
    22336 = (if sWholeImage.imgHeaderBad = true then 256 else sWholeImage.imgLen) ∧
    (imgMemory sWholeImage.imgAddr 256 = false ∨ sWholeImage.badWord sWholeImage.imgAddr 22336 = none) ∧ sWholeImage.imgCheck = (0, none) :=
  ⟨by decide +kernel, by decide +kernel, by decide +kernel, by decide +kernel, wholeImage_check⟩

theorem witness_ImageLoads_31 : sWholeImage.phase = Phase.setup ∧ sWholeImage.rd F.SYS_IMG_STAT_BUSY = 1 ∧ sWholeImage.ecc = [] ∧
    sWholeImage.imgCheck = (0, none) :=
  ⟨by decide +kernel, by decide +kernel, rfl, wholeImage_check⟩

/-! ## A firmware bank that Tinder ROM accepts

A header of an image without payload, with its signature under the key whose digest slot 0 holds. -/

def sBank : State :=
  { inPhase .boot with
    pwr := { (inPhase .boot).pwr with fuseKeys := [0x0f8a212d4f085087c3547aae01e8f656e297a664b1373995bd4e554efb036244, 0, 0, 0] }
    mem := [
    (0x20000000, 68), (0x20000001, 90), (0x20000002, 70), (0x20000003, 87), (0x20000004, 1), (0x20000008, 7), (0x2000001D, 16), (0x20000020, 227),
    (0x20000021, 176), (0x20000022, 196), (0x20000023, 66), (0x20000024, 152), (0x20000025, 252), (0x20000026, 28), (0x20000027, 20),
    (0x20000028, 154), (0x20000029, 251), (0x2000002A, 244), (0x2000002B, 200), (0x2000002C, 153), (0x2000002D, 111), (0x2000002E, 185),
    (0x2000002F, 36), (0x20000030, 39), (0x20000031, 174), (0x20000032, 65), (0x20000033, 228), (0x20000034, 100), (0x20000035, 155),
    (0x20000036, 147), (0x20000037, 76), (0x20000038, 164), (0x20000039, 149), (0x2000003A, 153), (0x2000003B, 27), (0x2000003C, 120),
    (0x2000003D, 82), (0x2000003E, 184), (0x2000003F, 85), (0x20000040, 8), (0x20000041, 139), (0x20000042, 185), (0x20000043, 255), (0x20000044, 34),
    (0x20000045, 171), (0x20000046, 41), (0x20000047, 26), (0x20000048, 116), (0x20000049, 200), (0x2000004A, 111), (0x2000004B, 198),
    (0x2000004C, 119), (0x2000004D, 186), (0x2000004E, 137), (0x2000004F, 123), (0x20000050, 170), (0x20000051, 222), (0x20000052, 227),
    (0x20000053, 112), (0x20000054, 204), (0x20000055, 97), (0x20000056, 41), (0x20000057, 184), (0x20000058, 45), (0x20000059, 23), (0x2000005A, 11),
    (0x2000005B, 163), (0x2000005C, 252), (0x2000005D, 38), (0x2000005E, 65), (0x2000005F, 92), (0x20000060, 68), (0x20000061, 45), (0x20000062, 169),
    (0x20000063, 167), (0x20000064, 22), (0x20000065, 6), (0x20000066, 121), (0x20000067, 86), (0x20000068, 217), (0x20000069, 30), (0x2000006A, 170),
    (0x2000006B, 2), (0x2000006C, 185), (0x2000006D, 58), (0x2000006E, 212), (0x2000006F, 9), (0x20000070, 73), (0x20000071, 14), (0x20000072, 135),
    (0x20000073, 205), (0x20000074, 94), (0x20000075, 117), (0x20000076, 142), (0x20000077, 166), (0x20000078, 163), (0x20000079, 49),
    (0x2000007A, 161), (0x2000007B, 222), (0x2000007C, 183), (0x2000007D, 91), (0x2000007E, 168), (0x2000007F, 70), (0x200000C0, 16),
    (0x200000C1, 164), (0x200000C2, 144), (0x200000C3, 82), (0x200000C4, 57), (0x200000C5, 85), (0x200000C6, 203), (0x200000C7, 194),
    (0x200000C8, 194), (0x200000C9, 211), (0x200000CA, 69), (0x200000CB, 36), (0x200000CC, 88), (0x200000CD, 252), (0x200000CE, 223),
    (0x200000CF, 151), (0x200000D0, 196), (0x200000D1, 115), (0x200000D2, 52), (0x200000D3, 105), (0x200000D4, 241), (0x200000D5, 135),
    (0x200000D6, 144), (0x200000D7, 95), (0x200000D8, 92), (0x200000D9, 182), (0x200000DA, 115), (0x200000DB, 71), (0x200000DC, 244),
    (0x200000DD, 36), (0x200000DE, 78), (0x200000DF, 184), (0x200000E0, 122), (0x200000E1, 155), (0x200000E2, 165), (0x200000E3, 203),
    (0x200000E4, 71), (0x200000E5, 155), (0x200000E6, 174), (0x200000E7, 67), (0x200000E8, 118), (0x200000E9, 200), (0x200000EA, 188),
    (0x200000EB, 213), (0x200000EC, 201), (0x200000ED, 135), (0x200000EE, 180), (0x200000EF, 108), (0x200000F0, 41), (0x200000F1, 1),
    (0x200000F2, 46), (0x200000F3, 152), (0x200000F4, 101), (0x200000F5, 88), (0x200000F6, 9), (0x200000F7, 11), (0x200000F8, 136), (0x200000F9, 175),
    (0x200000FA, 221), (0x200000FB, 52), (0x200000FC, 134), (0x200000FD, 12), (0x200000FE, 198), (0x200000FF, 66)] }

theorem zeros_zero (n : Nat) : (zeros n).all (· == 0) = true := by
  simp only [zeros, List.all_eq_true]
  intro x hx
  rw [List.eq_of_mem_replicate hx]
  rfl

theorem bank_reserved : sBank.allZero (bankBase 0 + 0x100) 0xF00 = true := by
  have : sBank.bytes (bankBase 0 + 0x100) 0xF00 = zeros 0xF00 := bytes_unlisted (by decide +kernel)
  unfold State.allZero
  rw [this]
  exact zeros_zero _

theorem bank_header : sBank.hdr 0 0 = 0x57465A44 ∧ sBank.memFld (bankBase 0 + 4) 0 16 = 1 ∧ sBank.memFld (bankBase 0 + 4) 17 15 = 0 ∧
    sBank.memFld (bankBase 0 + 0xC) 16 16 = 0 ∧ sBank.payloadLen 0 = 0 ∧ sBank.hdr 0 0x14 = 0 ∧
    sBank.allZero (bankBase 0 + 0x80) 64 = true ∧ sBank.memFld (bankBase 0 + 0xC) 0 8 = 0 := by decide +kernel

theorem bank_key : sBank.keyOk (sBank.memFld (bankBase 0 + 0xC) 8 8) (sBank.bytes (bankBase 0 + 0x40) 64) = true := by decide +kernel

theorem bank_signature : sigOk (sha256 (sBank.bytes (bankBase 0) 0xC0)) (sBank.bytes (bankBase 0 + 0x40) 64)
    (sBank.bytes (bankBase 0 + 0xC0) 64) = true := by decide +kernel

theorem bank_digest : sha256 (sBank.bytes (bankBase 0 + 0x1000) 0) = BitVec.ofNat 256 (beNat (sBank.bytes (bankBase 0 + 0x20) 32)) := by
  decide +kernel

theorem bank_check : sBank.checkBank 0 = 0 := by
  obtain ⟨h1, h2, h3, h4, h5, h6, h7, h8⟩ := bank_header
  have h9 : sBank.minSvn = 0 := by decide +kernel
  unfold State.checkBank
  simp [h1, h2, h3, h4, h5, h6, h7, h8, bank_reserved, bank_key, bank_signature, bank_digest, h9]

theorem bank_record : sBank.bootFields = (0, false, 0, 0) := by decide +kernel

theorem witness_BootStartsTheLanes_1 : sBank.phase = Phase.boot ∧ sBank.bootChoose.bank = some 0 := by
  refine ⟨rfl, ?_⟩
  unfold State.bootChoose
  simp [bank_record, bank_check]

/-! ## A module in E3 whose save area passes its CRC-32C -/

def sDeep : State := { sOp with pwr := { sOp.pwr with state := .e3, wakeTaken := true } }
def sSaved : State := sDeep.setBytes sDeep.saveBase (withCrc (zeros saveLen))

theorem saveLost_nil (s : State) : s.saveLost [] = s := rfl

theorem saved_ok : sSaved.saveOk = true := by
  unfold sSaved
  exact saveOk_setBytes sDeep (bs := zeros saveLen) List.length_replicate

theorem saved_pwr : sSaved.pwr = sDeep.pwr := by
  unfold sSaved
  exact setBytes_pwr ..

theorem rd_of_regs {s t : State} (h : t.regs = s.regs) (f : Fld) : t.rd f = s.rd f := by
  unfold State.rd State.reg
  rw [h]

theorem saved_safe : sSaved.rd F.LANE_STAT_SAFE = 0 := by
  have h : sSaved.regs = sDeep.regs := by
    unfold sSaved
    exact setBytes_regs ..
  rw [rd_of_regs h]
  decide +kernel

theorem witness_EmberEntersAndKindles_8 : (fun (lost : List (Fin 4194304 × Byte)) (s : State) => s.pwr.state = PowerState.e3 ∧
    s.pwr.wakeTaken = true ∧ (s.saveLost lost).saveOk = true ∧ s.rd F.LANE_STAT_SAFE = 0) [] sSaved := by
  have h := saved_ok
  rw [← saveLost_nil sSaved] at h
  refine ⟨?_, ?_, h, saved_safe⟩
  · rw [saved_pwr]
    rfl
  · rw [saved_pwr]
    rfl

theorem witness_EmberEntersAndKindles_9 : (fun (lost : List (Fin 4194304 × Byte)) (s : State) => s.pwr.state = PowerState.e3 ∧
    s.pwr.wakeTaken = true ∧ (s.saveLost lost).saveOk = false)
    [(⟨4194300, by decide⟩, ~~~ sSaved.byte (sSaved.saveBase + saveLen))] sSaved := by
  refine ⟨?_, ?_, saveOk_lost saved_ok⟩
  · rw [saved_pwr]
    rfl
  · rw [saved_pwr]
    rfl

/-! ## The step -/

theorem witness_StepTakesTheFront_1 : ({ State.reset with pending := [.holdupExhausted, .emberDecision] } : State).pending =
    .holdupExhausted :: [.emberDecision] := rfl

def sIdle : State :=
  { State.reset with
    pwr := { Power.start with hold := .none, rtcFrac := 499999999 }
    tb := { TimeBase.start with locked := true } }

theorem witness_StepTakesTheFront_2 : sIdle.pending = [] ∧ sIdle.tb.locked = true ∧ sIdle.pwr.state ≠ PowerState.e3 ∧
    sIdle.pwr.hold ≠ Hold.unpowered ∧ sIdle.pairTakes = false ∧ (sIdle.tb.raw + 1).toNat ≠ sIdle.fld.frameRaw + 160 := by decide +kernel

def sDark : State := { sIdle with pwr := { Power.start with hold := .unpowered }, tb := { TimeBase.start with locked := false } }

theorem witness_StepTakesTheFront_3 : sDark.pending = [] ∧ (sDark.tb.locked = false ∨ sDark.pwr.state = PowerState.e3) ∧
    sDark.pwr.hold = Hold.unpowered ∧ sDark.pairTakes = false := by decide +kernel

def sSync : State := { sDark with tb := { TimeBase.start with locked := true, raw := 4159 }, fld := { sDark.fld with frameRaw := 4000 } }

theorem witness_StepTakesTheFront_4 : sSync.pending = [] ∧ sSync.tb.locked = true ∧ sSync.pwr.state ≠ PowerState.e3 ∧
    sSync.pwr.hold = Hold.unpowered ∧ sSync.pairTakes = false ∧ (sSync.tb.raw + 1).toNat = sSync.fld.frameRaw + 160 := by decide +kernel

theorem witness_StepTakesTheFront_5 : sIdle.pending = [] := rfl

theorem witness_CommandsKeepQueueClocksAndFuses_1 : exec .holdupExhausted State.reset = .next (holdupExhausted State.reset) := rfl

theorem witness_StepKeepsCanonicalForm_1 : State.reset.canonical = true ∧ step State.reset = .next State.reset.tick := ⟨rfl, rfl⟩

theorem witness_BlockCommandsSpareTheCore_1 : blockCmd (.gwClr .mp 1) = true ∧
    exec (.gwClr .mp 1) State.reset = .next (gwClr .mp 1 State.reset) := ⟨rfl, rfl⟩

theorem witness_NetworkRateStaysInLimits_1 : incrMin ≤ State.reset.tb.incr.toNat ∧ State.reset.tb.incr.toNat ≤ incrMax ∧
    step State.reset = .next State.reset.tick := ⟨by decide, by decide, rfl⟩

theorem witness_NetworkRateStaysInLimits_4 : incrMin ≤ State.reset.tb.incr.toNat ∧ 0 < 1 ∧
    State.reset.tb.ofs.toNat + 1 * State.reset.tb.incr.toNat < 2 ^ 104 := by decide

end Tests
end Sys2Proof
end

section
/-!
PROOFS. O12, Setup registers and SETUP_LOCK: refuted. Its clause about checks that pass and signatures that agree says that the
input log is empty after Cord 0, with no premise on the changes of interrupt sources that the fabric holds. The seal of Cord 0
empties the log and then delivers what is held, each change with its SRC record (R155): a held change leaves its record in the log.
-/

namespace Sys2Proof
namespace Machine

/-! ## What a seal keeps of the Cord engine -/

/-- t has the phase, the lanes and the Cord engine of s. -/
structure SameCord (s t : State) : Prop where
  phase : t.phase = s.phase
  lanes : t.lanes = s.lanes
  cord : t.cord = s.cord

theorem SameCord.refl (s : State) : SameCord s s := ⟨rfl, rfl, rfl⟩

/-- An update of other parts of the state. -/
theorem SameCord.same {s t u : State} (h : SameCord s t) (hp : u.phase = t.phase := by rfl)
    (hl : u.lanes = t.lanes := by rfl) (hc : u.cord = t.cord := by rfl) : SameCord s u :=
  ⟨hp.trans h.phase, hl.trans h.lanes, hc.trans h.cord⟩

theorem sameCord_raise {s t : State} (src : Nat) (info : List Word) (h : SameCord s t) : SameCord s (t.raise src info) :=
  h.same (raise_phase t src info) (raise_lanes t src info) (raise_cord t src info)

theorem sameCord_setBytes {s t : State} (a : Nat) (bs : List Byte) (h : SameCord s t) : SameCord s (t.setBytes a bs) := by
  induction bs generalizing t a with
  | nil => exact h
  | cons b l ih => exact ih (a + 1) (SameCord.same (u := t.setByte a b) h)

theorem sameCord_wr {s t : State} (f : Fld) (v : Nat) (h : SameCord s t) : SameCord s (t.wr f v) :=
  h.same (wr_phase t f v) (wr_lanes t f v) (wr_cord t f v)

theorem sameCord_wr64 {s t : State} (lo hi v : Nat) (h : SameCord s t) : SameCord s (t.wr64 lo hi v) :=
  h.same (wr64_phase t lo hi v) (wr64_lanes t lo hi v) (wr64_cord t lo hi v)

theorem sameCord_peak {s t : State} (f : Fld) (v : Nat) (h : SameCord s t) : SameCord s (t.peak f v) :=
  h.same (peak_phase t f v) (peak_lanes t f v) (peak_cord t f v)

theorem sameCord_flueSeal {s t : State} (num : Nat) (gates : Bool) (h : SameCord s t) : SameCord s (t.flueSeal num gates) :=
  h.same

theorem sameCord_satAdd {s t : State} (f : Fld) (n : Nat) (h : SameCord s t) : SameCord s (t.satAdd f n) :=
  h.same (satAdd_phase t f n) (satAdd_lanes t f n) (satAdd_cord t f n)

theorem sameCord_setRecChan {s t : State} (c : Nat) (r : RecChan) (changed : Bool) (h : SameCord s t) :
    SameCord s (t.setRecChan c r changed) := h.same

theorem sameCord_recSample {s t : State} (c : Nat) (v : DWord) (h : SameCord s t) : SameCord s (t.recSample c v) := by
  unfold State.recSample
  split
  · exact h
  · split
    · extract_lets r dropped
      have hd : SameCord s dropped := sameCord_setRecChan _ _ _ (sameCord_satAdd _ _ h)
      clear_value dropped
      split
      · exact hd
      · exact sameCord_raise _ _ hd.same
    · exact (sameCord_satAdd F.REC_SAMPLES_SAMPLES 1 h).same

theorem sameCord_recEvent {s t : State} (kind index v : Nat) (h : SameCord s t) : SameCord s (t.recEvent kind index v) := by
  unfold State.recEvent
  split
  · exact h
  · refine List.foldlRecOn _ _ h (fun u hu c _ => ?_)
    split
    · exact sameCord_recSample c _ hu
    · exact hu

theorem sameCord_pairThrottle {s t : State} (h : SameCord s t) : SameCord s t.pairThrottle := by
  unfold State.pairThrottle
  extract_lets full
  split
  · exact h
  · exact sameCord_raise _ _ (sameCord_wr _ _ h)

theorem sameCord_pairPut {s t : State} (m : PairMsg) (h : SameCord s t) : SameCord s (t.pairPut m) := by
  unfold State.pairPut
  split
  · exact sameCord_pairThrottle h.same
  · exact h

theorem pairClose_cord (s : State) : s.pairClose.cord = s.cord := by
  unfold State.pairClose
  extract_lets k t sw u v
  have ht : SameCord s t := by
    unfold t
    split
    · exact (SameCord.refl s).same
    · exact .refl s
  have hu : SameCord s u := sameCord_pairPut _ ht
  clear_value t u
  split
  · exact ht.cord
  · split <;> exact hu.cord

theorem anchorWrite_cord (s : State) : s.anchorWrite.cord = s.cord := (sameCord_setBytes _ _ (.refl s)).cord

/-! ## The input log -/

theorem requestCord_log (s : State) (code : Nat) : (s.requestCord code).cord.log = s.cord.log := by
  unfold State.requestCord
  split
  · rfl
  · split <;> rfl

theorem logForce_log (s : State) : s.logForce.cord.log = s.cord.log := by
  unfold State.logForce State.logForceAt
  split
  · rw [raise_cord, satAdd_cord, requestCord_log]
  · rfl

theorem logShow_cord (s : State) : s.logShow.cord = s.cord := by
  unfold State.logShow
  rw [peak_cord, wr_cord]

theorem declCheck_log (s : State) (p : PartId) : (s.declCheck p).cord.log = s.cord.log := by
  unfold State.declCheck
  extract_lets +onlyGivenNames u l m counted
  have hcounted : counted.cord = s.cord := setMon_cord s p _
  clear_value counted
  split
  · rw [raise_cord, hcounted]
  · rw [hcounted]

theorem logShow_log (s : State) : s.logShow.cord.log = s.cord.log := congrArg Cord.log (logShow_cord s)

theorem logCharge_log (s : State) (r : LogRec) (p : PartId) : (s.logCharge r p).cord.log = s.cord.log := declCheck_log _ _

theorem logPut_log (s : State) (r : LogRec) (p : Option PartId) : (s.logPut r p).cord.log = s.cord.log ++ [r] := by
  unfold State.logPut
  refine (logForce_log _).trans ?_
  split
  · exact logShow_log _
  · exact (logCharge_log _ _ _).trans (logShow_log _)

theorem applySrc_cord (s : State) (src : Nat) (level : Bool) : (s.applySrc src level).cord = s.cord := by
  unfold State.applySrc
  split
  · split <;> rfl
  · exact setHart_cord _ _ _

/-- In the Operate phase a change that finds room is logged as it is delivered (R153, R155). -/
theorem deliverNow_log {s : State} (src : Nat) (level : Bool) (hop : s.operate = true) (hon : s.lanes.on = true)
    (hroom : s.logUsed + 2 ≤ logCap) : (s.deliverNow src level).cord.log = s.cord.log ++ [.src src level s.srcCounts] := by
  have htake : s.logTake (.src src level s.srcCounts) none = some (s.logPut (.src src level s.srcCounts) none) := by
    have hunits : (LogRec.src src level s.srcCounts).units = 2 := rfl
    unfold State.logTake
    rw [hunits, if_neg (by simp [hop]), if_neg (Nat.not_lt.mpr hroom)]
  unfold State.deliverNow
  rw [if_neg (by simp [hon]), if_pos hop, htake]
  exact (congrArg Cord.log (applySrc_cord _ src level)).trans (logPut_log s _ none)

/-- The one held change is delivered, and its record stands in the log. -/
theorem deliverHeld_one_log {s : State} {src : Nat} {level : Bool} (hop : s.operate = true) (hon : s.lanes.on = true)
    (hheld : s.cord.heldSrc = [(src, level)]) (hroom : s.logUsed + 2 ≤ logCap) :
    ∃ counts, (s.deliverHeld 1).cord.log = s.cord.log ++ [.src src level counts] := by
  unfold State.deliverHeld State.deliverHeld
  rw [hheld]
  dsimp only
  rw [if_neg (by simp [Nat.not_lt.mpr hroom])]
  exact ⟨_, deliverNow_log (s := { s with cord := { s.cord with heldSrc := [] } }) src level hop hon hroom⟩

/-- In live time a seal empties the log, and delivers the held changes at its end (R146, R155). -/
theorem seal_delivers {s : State} (ns : Nat) (hlive : s.on F.CORD_STAT_REPLAY = false) (hrep : s.cord.replay = []) :
    ∃ v : State, v.operate = s.operate ∧ v.lanes.on = s.lanes.on ∧ v.cord.log = [] ∧ v.cord.replay = [] ∧
      v.cord.heldSrc = s.cord.heldSrc ∧ (s.seal ns).cord = (v.deliverHeld v.cord.heldSrc.length).cord := by
  unfold State.seal
  extract_lets +onlyGivenNames num ember replaying undoN logN insts hs rep causes lanes₀ cord₀ flue₀ opened numbered timed
    emptied released counted sampled v delivered
  have hreleased : SameCord opened released :=
    sameCord_flueSeal _ _ <| sameCord_wr _ _ <| sameCord_wr _ _ <| sameCord_peak _ _ <| sameCord_wr _ _ <| sameCord_wr _ _ <|
      sameCord_wr64 _ _ _ <| sameCord_wr64 _ _ _ <| .refl opened
  have hcounted : SameCord opened counted := by
    unfold counted
    split
    · exact hreleased
    · exact sameCord_wr _ _ hreleased
  have hv : SameCord opened v :=
    sameCord_recEvent _ _ _ <| sameCord_recEvent _ _ _ <| sameCord_recEvent _ _ _ <| sameCord_recEvent _ _ _ hcounted
  have hdelivered : delivered = v.deliverHeld v.cord.heldSrc.length := if_neg (by unfold replaying; simp [hlive])
  have hrebased : opened.cord.replay = [] := by
    show s.cord.replay.map (rebase insts s.cord.accIdx) = []
    rw [hrep, List.map_nil]
  refine ⟨v, ?_, ?_, ?_, ?_, ?_, ?_⟩
  · unfold State.operate
    rw [hv.phase]
  · rw [hv.lanes]
  · rw [hv.cord]
  · rw [hv.cord, hrebased]
  · rw [hv.cord]
  · rw [pairClose_cord, anchorWrite_cord, hdelivered]

/-- A change held at a seal in live time leaves its record in the log of the new interval. -/
theorem seal_logs_held {s : State} {src : Nat} {level : Bool} (ns : Nat) (hop : s.operate = true) (hon : s.lanes.on = true)
    (hlive : s.on F.CORD_STAT_REPLAY = false) (hrep : s.cord.replay = []) (hheld : s.cord.heldSrc = [(src, level)]) :
    (s.seal ns).cord.log ≠ [] := by
  obtain ⟨v, hvop, hvon, hlog, hvrep, hvheld, hseal⟩ := seal_delivers ns hlive hrep
  have hempty : v.logUsed = 0 := by
    unfold State.logUsed
    rw [hlog, hvrep]
    rfl
  obtain ⟨counts, hone⟩ := deliverHeld_one_log (s := v) (src := src) (level := level) (hvop.trans hop) (hvon.trans hon)
    (hvheld.trans hheld) (by rw [hempty]; decide)
  have hlen : v.cord.heldSrc.length = 1 := by rw [hvheld, hheld]; rfl
  rw [hseal, hlen, hone]
  simp

/-! ## The idle window after a seal -/

theorem sameCord_freeWords {s t : State} (n : Nat) (h : SameCord s t) : SameCord s (t.freeWords n).2 := by
  induction n generalizing t with
  | zero => exact h
  | succ n ih => exact ih (SameCord.same (u := t.draw.2) h)

theorem sameCord_calDone {s t : State} (n temp : Nat) (h : SameCord s t) : SameCord s (t.calDone n temp) :=
  sameCord_wr _ _ <| sameCord_raise _ _ <| sameCord_satAdd _ _ <| sameCord_setBytes _ _ <| sameCord_setBytes _ _ <|
    sameCord_setBytes _ _ <| sameCord_freeWords 57 h

theorem sameCord_retrainStep {s t : State} (h : SameCord s t) : SameCord s t.retrainStep := by
  unfold State.retrainStep
  split
  · exact h
  · split
    · exact h
    · split
      · exact sameCord_calDone _ _ h.same
      · exact h.same

theorem sameCord_offPulseStart {s t : State} (len : Option Nat) (h : SameCord s t) : SameCord s (t.offPulseStart len) := by
  unfold State.offPulseStart
  extract_lets need fits
  split
  · split
    · exact h
    · exact h.same
  · exact h

theorem sameCord_lbistFence {s t : State} (h : SameCord s t) : SameCord s t.lbistFence := by
  unfold State.lbistFence
  split
  · exact h
  · split
    · exact sameCord_wr _ _ <| sameCord_wr _ _ <| sameCord_raise _ _ <| sameCord_wr _ _ <| sameCord_wr _ _ h.same
    · exact h

theorem idleOpen_log (s : State) (len : Option Nat) : (s.idleOpen len).cord.log = s.cord.log := by
  unfold State.idleOpen
  extract_lets +onlyGivenNames us shown cyc₀ opened asked
  have hshown : SameCord s shown := sameCord_satAdd _ _ <| sameCord_wr _ _ <| sameCord_wr _ _ <| .refl s
  clear_value shown
  have hopened : SameCord s opened := hshown.same
  have hasked : asked.cord.log = s.cord.log := by
    unfold asked
    split
    · rw [requestCord_log, hopened.cord]
    · rw [hopened.cord]
  rw [(sameCord_retrainStep <| sameCord_offPulseStart len <| sameCord_lbistFence <| .refl asked).cord, hasked]

theorem idleLimit_cord (s : State) : s.idleLimit.cord = s.cord := by
  unfold State.idleLimit
  split
  · rfl
  · split
    · rfl
    · extract_lets guard
      split
      · exact wr_cord s F.CYC_STAT_IDLE 0
      · rfl

theorem idleAtSeal_log (s : State) : s.idleAtSeal.cord.log = s.cord.log := by
  unfold State.idleAtSeal
  split
  · rw [idleLimit_cord, idleOpen_log]
  · rfl

/-! ## The start of the Operate phase where the cycle engine is bare -/

/-- No task is enabled. -/
def State.NoTasks (s : State) : Prop := ∀ t ∈ allTasks, s.taskEn t = false

/-- Nothing of the cycle engine is configured that a cold start clears or judges: no task, no station, no force. -/
structure State.CycBare (s : State) : Prop where
  tasks : s.NoTasks
  stations : ∀ k ∈ allStations, s.on (F.CYC_STN_EN k) = false
  forces : s.rd F.CYC_FORCES_COUNT = 0

/-- t comes from s by the start of cycle controllers alone: their STATE fields and the cycle engine. -/
structure ControllersOnly (s t : State) : Prop where
  frame : t = { s with regs := t.regs, cyc := t.cyc }
  flds : onlyFlds ((List.range 256).map F.CYC_PART_STATE) s t

/-- A field of a register outside the controllers' own reads as before. -/
theorem ControllersOnly.rd {s t : State} (h : ControllersOnly s t) {g : Fld} (hg : g.lo + g.w ≤ 32)
    (ho : ∀ p < 256, g.off ≠ Reg.CYC_PART p) : t.rd g = s.rd g := by
  refine h.flds g hg (fun f hf => ?_)
  obtain ⟨p, hp, rfl⟩ := List.mem_map.mp hf
  exact .inl (fun e => ho p (List.mem_range.mp hp) e.symm)

theorem partTasks_of_noTasks {s : State} (h : s.NoTasks) (p : Nat) : s.partTasks p = [] := by
  unfold State.partTasks
  exact List.filter_eq_nil_iff.mpr (fun t ht => by simp [h t ht])

theorem ControllersOnly.cycBare {s t : State} (h : ControllersOnly s t) (hs : s.CycBare) : t.CycBare where
  tasks k hk := by
    have hlt : k < 64 := List.mem_range.mp hk
    have hrd : t.rd (F.TASK_CTL_EN k) = s.rd (F.TASK_CTL_EN k) :=
      h.rd (Nat.le_of_ble_eq_true rfl) (fun p _ => by simp only [F.TASK_CTL_EN, Reg.CYC_PART]; omega)
    unfold State.taskEn State.on
    rw [hrd]
    exact hs.tasks k hk
  stations k hk := by
    have hrd : t.rd (F.CYC_STN_EN k) = s.rd (F.CYC_STN_EN k) :=
      h.rd (Nat.le_of_ble_eq_true rfl) (fun p _ => by simp only [F.CYC_STN_EN, Reg.CYC_PART]; omega)
    unfold State.on
    rw [hrd]
    exact hs.stations k hk
  forces := (h.rd (by decide) (fun p _ => by simp only [F.CYC_FORCES_COUNT, Reg.CYC_PART]; omega)).trans hs.forces

theorem ControllersOnly.wr {s t : State} (h : ControllersOnly s t) {f : Fld}
    (hf : f ∈ (List.range 256).map F.CYC_PART_STATE) (hw : f.lo + f.w ≤ 32) (v : Nat) : ControllersOnly s (t.wr f v) where
  frame := congrArg (fun u : State => u.withRegs (regsWr t.regs f v)) h.frame
  flds := onlyFlds_wr v h.flds hf hw

theorem ControllersOnly.wrState {s t : State} (h : ControllersOnly s t) {p : Nat} (hp : p < 256) (v : Nat) :
    ControllersOnly s (t.wr (F.CYC_PART_STATE p) v) :=
  h.wr (List.mem_map_of_mem (List.mem_range.mpr hp)) (Nat.le_of_ble_eq_true rfl) v

theorem ControllersOnly.setCyc {s t : State} (h : ControllersOnly s t) (c : Cyc) : ControllersOnly s { t with cyc := c } where
  frame := congrArg (fun u : State => { u with cyc := c }) h.frame
  flds := onlyFlds_regs h.flds rfl

theorem errTask_of_noTasks {s : State} (h : s.NoTasks) (p : Nat) : s.errTask p = none := by
  unfold State.errTask
  have hlt : s.rd (F.CYC_PART_ERR_TASK p) < 64 := rd_lt s _
  have := h _ (List.mem_range.mpr hlt)
  simp [this]

theorem coldClear_of_cycBare {s : State} (h : s.CycBare) (p : Nat) : s.coldClear p = s := by
  have hforces : s.forceClear p = s := if_pos h.forces
  unfold State.coldClear
  dsimp only
  rw [partTasks_of_noTasks h.tasks, List.foldl_nil, hforces]
  refine List.foldlRecOn (motive := fun u => u = s) _ _ rfl (fun u hu k hk => ?_)
  rw [hu, h.stations k hk]
  rfl

theorem stations_of_cycBare {s : State} (h : s.CycBare) : s.stations = s := by
  unfold State.stations
  split
  · refine List.foldlRecOn (motive := fun u => u = s) _ _ rfl (fun u hu k hk => ?_)
    rw [hu]
    exact if_pos (by simp [h.stations k hk])
  · rfl

theorem applySafe_of_noTasks {s : State} (h : s.NoTasks) (p : Nat) : s.applySafe p = s := by
  unfold State.applySafe
  rw [partTasks_of_noTasks h, List.foldl_nil]

/-- With nothing else configured a start runs the controller at once and does nothing else (R394). -/
theorem ControllersOnly.ctlStart {s t : State} (h : ControllersOnly s t) (hs : s.CycBare) {p : Nat} (hp : p < 256)
    (kind : Nat) : ControllersOnly s (t.ctlStart p kind) := by
  unfold State.ctlStart
  extract_lets +onlyGivenNames starting cyc₀ counted idle cleared safe
  have hcounted : ControllersOnly s counted := (h.wrState hp ctStarting).setCyc _
  have hbare : counted.CycBare := hcounted.cycBare hs
  have hidle : idle = counted := by
    unfold idle
    rw [partTasks_of_noTasks hbare.tasks, List.foldl_nil]
  have hcleared : cleared = counted := by
    unfold cleared
    rw [hidle, coldClear_of_cycBare hbare, ite_self]
  have hsafe : safe = counted := by
    unfold safe
    rw [hcleared, applySafe_of_noTasks hbare.tasks]
  have hrun : ControllersOnly s (counted.ctlRun p) := hcounted.wrState hp ctRunning
  rw [hsafe, errTask_of_noTasks hbare.tasks]
  dsimp only
  rw [stations_of_cycBare (hrun.cycBare hs), ite_self]
  exact hrun

theorem cycLock_controllersOnly {s : State} (hs : s.CycBare) : ControllersOnly s s.cycLock := by
  unfold State.cycLock
  extract_lets +onlyGivenNames stopped cyc₀ fixed
  have hstopped : stopped = s := by
    refine List.foldlRecOn (motive := fun u => u = s) _ _ rfl (fun u hu t ht => ?_)
    rw [hu, hs.tasks t ht]
    rfl
  have hfixed : ControllersOnly s fixed := by
    unfold fixed
    rw [hstopped]
    exact ⟨rfl, onlyFlds_refl _ _⟩
  refine List.foldlRecOn _ _ hfixed (fun t ht p hp => ?_)
  extract_lets kind
  split
  · exact ht.ctlStart hs (List.mem_range.mp hp) kind
  · exact ht

theorem ControllersOnly.sameCord {s t : State} (h : ControllersOnly s t) : SameCord s t where
  phase := by rw [h.frame]
  lanes := by rw [h.frame]
  cord := by rw [h.frame]

theorem nextStart_of_noTasks {s : State} (h : s.NoTasks) (sts : List Nat) : s.nextStart sts = none := by
  have hnil : allTasks.filter (fun t => s.taskCyc t && sts.contains (s.ctl (s.taskPart t))) = [] :=
    List.filter_eq_nil_iff.mpr (fun t ht => by simp [State.taskCyc, h t ht])
  unfold State.nextStart
  rw [hnil]
  rfl

/-- With no task enabled no idle window opens at entry to the Operate phase. -/
theorem cycOpen_of_noTasks {s : State} (h : s.NoTasks) (hidle : s.on F.CYC_STAT_IDLE = false) : s.cycOpen = s := by
  have hlimit : s.idleLimit = s := if_pos (by simp [hidle])
  unfold State.cycOpen
  rw [hlimit]
  unfold State.idleCheck
  rw [nextStart_of_noTasks h]
  split <;> rfl

theorem recStart_of_recorder_off {s : State} (h : s.on F.REC_CFG_EN = false) :
    SameCord s s.recStart ∧ s.recStart.regs = s.regs := by
  have hlock : s.recLock = s := if_pos (by simp [h])
  unfold State.recStart
  rw [hlock]
  exact ⟨⟨rfl, rfl, rfl⟩, rfl⟩

theorem rackRelease_rd (s : State) {g : Fld} (h : g.off ≠ F.RB_STAT_RST.off) : s.rackRelease.rd g = s.rd g :=
  rd_wr_off _ 0 h

theorem sameCord_rackRelease {s t : State} (h : SameCord s t) : SameCord s t.rackRelease := sameCord_wr _ _ h.same

theorem rackRelease_noTasks {s : State} (h : s.NoTasks) : s.rackRelease.NoTasks := by
  intro k hk
  have hlt : k < 64 := List.mem_range.mp hk
  have hoff : (F.TASK_CTL_EN k).off ≠ F.RB_STAT_RST.off := by
    simp only [F.TASK_CTL_EN, F.RB_STAT_RST]
    omega
  unfold State.taskEn State.on
  rw [rackRelease_rd s hoff]
  exact h k hk

/-! ## The end of the lock checks -/

/-- A change held when Cord 0 is sealed leaves its record in the input log. -/
theorem cordZero_logs_held {s started : State} {src : Nat} {level : Bool} (ns : Nat)
    (hstart : s.lockRetire.operateStart = started) (hop : started.operate = true) (hon : started.lanes.on = true)
    (hlive : started.on F.CORD_STAT_REPLAY = false) (hrep : started.cord.replay = [])
    (hheld : started.cord.heldSrc = [(src, level)]) : (s.cordZero ns).cord.log ≠ [] := by
  unfold State.cordZero
  rw [hstart]
  dsimp only
  rw [idleAtSeal_log]
  exact seal_logs_held (s := { started with cord := { started.cord with causes := started.cord.causes ||| 1#10 } }) ns
    hop hon hlive hrep hheld

theorem exec_setupLockChecksEnd (a b c : SigOffer) (ns : Nat) (s : State) :
    exec (.setupLockChecksEnd a b c ns) s = .next (setupLockChecksEnd a b c ns s) := by
  rfl

/-- Checks that pass and signatures that agree seal Cord 0 (Table 1-12). -/
theorem setupLockChecksEnd_agreed {a b c : SigOffer} {s t : State} (ns : Nat) (hphase : s.phase = Phase.locking)
    (hsafe : s.safe = false) (hpass : s.lockErr true = (0, t)) (hvote : s.sigVote a b c = .agreed) :
    setupLockChecksEnd a b c ns s = t.cordZero ns := by
  unfold setupLockChecksEnd
  rw [if_neg (by simp [hphase, hsafe]), hpass]
  dsimp only
  rw [if_neg (by simp), hvote]

/-! ## The lock checks -/

/-- A check that passes leaves the state as it was. -/
def Passes (s : State) (r : Bool × State) : Prop := r.1 = true → r = (true, s)

theorem Passes.pass (s : State) : Passes s (true, s) := fun _ => rfl

theorem Passes.fail (s t : State) : Passes s (false, t) := fun h => nomatch h

theorem Passes.ite {s : State} {a b : Bool × State} {c : Prop} [Decidable c] (ha : Passes s a) (hb : Passes s b) :
    Passes s (if c then a else b) := by split <;> assumption

theorem passes_judgeRows (s : State) (rows : List CheckRow) (note : Nat → Nat → State → State) :
    Passes s (s.judgeRows rows note) := by
  unfold State.judgeRows
  split
  · exact .pass s
  · exact .fail s _

theorem passes_coreCheck (s : State) : Passes s s.coreCheck :=
  .ite (.fail s _) <| .ite (.fail s _) <| .ite (.fail s _) <| .ite (.fail s _) (.pass s)

theorem passes_ringSetupCheck (s : State) : Passes s s.ringSetupCheck := by
  unfold State.ringSetupCheck
  split
  · exact .pass s
  · exact .fail s _

theorem passes_partSetupCheck (s : State) : Passes s s.partSetupCheck := by
  unfold State.partSetupCheck
  split
  · exact .fail s _
  · split
    · exact .fail s _
    · exact .pass s

theorem passes_tbSetupCheck (s : State) : Passes s s.tbSetupCheck := by
  unfold State.tbSetupCheck
  split
  · exact .pass s
  · exact .fail s _

theorem passes_crSetupCheck (s : State) : Passes s s.crSetupCheck := by
  unfold State.crSetupCheck
  split
  · exact .pass s
  · exact .fail s _

theorem passes_cbSetupCheck (s : State) : Passes s s.cbSetupCheck := by
  unfold State.cbSetupCheck
  refine .ite (.pass s) ?_
  split
  · exact .pass s
  · exact .fail s _

theorem passes_rbSetupCheck (s : State) : Passes s s.rbSetupCheck := by
  unfold State.rbSetupCheck
  split
  · exact .pass s
  · exact .fail s _

/-- Each block's check leaves the state as it was where it passes. -/
theorem passes_blockChecks (s : State) (lanes : Bool) : ∀ f ∈ blockChecks lanes, Passes s (f s) := by
  simp only [blockChecks, List.forall_mem_cons]
  exact ⟨passes_coreCheck s, passes_ringSetupCheck s, passes_partSetupCheck s, passes_tbSetupCheck s, passes_crSetupCheck s,
    passes_cbSetupCheck s, passes_judgeRows s _ _, passes_judgeRows s _ _, passes_rbSetupCheck s, passes_judgeRows s _ _,
    passes_judgeRows s _ _, passes_judgeRows s _ _, .ite (.pass s) (passes_judgeRows s _ _),
    .ite (.pass s) (passes_judgeRows s _ _), passes_judgeRows s _ _, fun _ h => nomatch h⟩

/-- Checks that pass one by one pass in a row. -/
theorem runChecks_pass {s : State} {l : List (State → Bool × State)} (hkeep : ∀ f ∈ l, Passes s (f s))
    (hpass : l.all (fun f => (f s).1) = true) : s.runChecks l = (true, s) := by
  induction l with
  | nil => rfl
  | cons f l ih =>
    obtain ⟨hkeepf, hkeepl⟩ := List.forall_mem_cons.mp hkeep
    obtain ⟨hpassf, hpassl⟩ := Bool.and_eq_true_iff.mp hpass
    unfold State.runChecks
    rw [hkeepf hpassf]
    exact ih hkeepl hpassl

theorem lockErr_pass {s : State} {lanes : Bool} (hacc : s.on F.SYS_IMG_STAT_ACCEPTED = true) (hrat : s.ratValid = true)
    (husable : ¬ s.usableLanes.length < 2) (hpass : (blockChecks lanes).all (fun f => (f s).1) = true) :
    s.lockErr lanes = (0, s) := by
  unfold State.lockErr
  rw [runChecks_pass (passes_blockChecks s lanes) hpass]
  simp [hacc, hrat, husable]

/-! ## Free engine schedules -/

/-- The register row of the engine slot schedules. -/
def engSchedRow : RegRow := ⟨0x58000, 25, 0x200, 128, 0x4, 0x0, 0x1FF01FF, 0x0, 0x0, 0x1000100, .any⟩

theorem regRow_engSched {e j : Nat} (he : e < 25) (hj : j < 128) : regRow (0x58000 + 0x200 * e + 4 * j) = some engSchedRow := by
  have hblock : (0x58000 + 0x200 * e + 4 * j) / 0x10000 = 5 := by omega
  have hcovers : ∀ r : RegRow, r.base = 0x58000 → r.n1 = 25 → r.s1 = 0x200 → r.n2 = 128 → r.s2 = 4 →
      r.covers (0x58000 + 0x200 * e + 4 * j) = true := by
    intro r hbase hn1 hs1 hn2 hs2
    simp only [RegRow.covers, hbase, hn1, hs1, hn2, hs2, Bool.and_eq_true, decide_eq_true_eq]
    omega
  unfold regRow
  rw [hblock]
  exact List.find?_cons_of_pos (p := (RegRow.covers · _)) (l := regRowsPART.tail) (hcovers engSchedRow rfl rfl rfl rfl rfl)

/-- Every slot of every engine's schedule resets to free. -/
theorem regReset_engSched {e j : Nat} (he : e < 25) (hj : j < 128) : regReset (0x58000 + 0x200 * e + 4 * j) = 0x1000100 := by
  unfold regReset
  rw [regRow_engSched he hj]
  rfl

theorem slotOwner_reset {s : State} {e i : Nat} (he : e < 25) (hi : i < 256)
    (h : Sparse.lookup s.regs (0x58000 + 0x200 * e + 4 * (i / 2)) = none) : s.slotOwner e i = none := by
  have hw : s.reg (0x58000 + 0x200 * e + 4 * (i / 2)) = 0x1000100 := by
    unfold State.reg
    rw [h]
    exact regReset_engSched he (by omega)
  unfold State.slotOwner
  rw [hw]
  rcases Nat.mod_two_eq_zero_or_one i with hm | hm <;> rw [hm] <;> rfl

/-- The checks of the PART and EVT blocks pass where no partition owns an engine slot. -/
theorem partSetupCheck_pass {s : State} (hown : s.slotOwners = [])
    (hpart : ((List.range 6).flatMap (fun k => (List.range (if k = 0 ∨ k = 5 then 1 else 256)).map (fun p => (k + 1, p)))).find?
      (fun x => s.partFails [] x.1 x.2) = none)
    (hroute : (List.range 512).find? s.routeFails = none) : s.partSetupCheck.1 = true := by
  have hcheck : s.partCheck = none := by
    unfold State.partCheck
    rw [hown]
    exact hpart
  unfold State.partSetupCheck
  rw [hcheck, hroute]

/-! ## The counterexample -/

/-- The Locking state with an accepted image and the lanes on, while a change of source 0 is held at the fabric. -/
def heldChangeAtLock : State :=
  { State.reset with
    phase := .locking
    regs := [(Reg.SYS_IMG_STAT, 2)]
    lanes := { State.reset.lanes with on := true }
    cord := { Cord.start with heldSrc := [(0, true)] } }

/-- The same at entry to the Operate phase, before the cycle controllers start. -/
def heldChangeAtStart : State :=
  { heldChangeAtLock with
    phase := .operate
    regs := [(Reg.SYS_PHASE, 1), (Reg.SYS_IMG_STAT, 2)]
    pwr := { Power.start with relay := true, safeN := true } }

/-- The three lanes offer the same signature, none reports a fault. -/
def sameSig : SigOffer := ⟨1, false⟩

theorem heldChangeAtLock_slotOwners : heldChangeAtLock.slotOwners = [] := by
  refine List.flatMap_eq_nil_iff.mpr (fun e he => List.filterMap_eq_nil_iff.mpr (fun i hi => ?_))
  refine slotOwner_reset (List.mem_range.mp he) (List.mem_range.mp hi) ?_
  have hoff : ¬ Reg.SYS_IMG_STAT = 0x58000 + 0x200 * e + 4 * (i / 2) := by
    unfold Reg.SYS_IMG_STAT
    omega
  exact if_neg hoff

theorem heldChangeAtLock_partSetupCheck : heldChangeAtLock.partSetupCheck.1 = true :=
  partSetupCheck_pass heldChangeAtLock_slotOwners (by decide +kernel) (by decide +kernel)

theorem heldChangeAtLock_blockChecks : (blockChecks true).all (fun f => (f heldChangeAtLock).1) = true := by
  have hbefore : ((blockChecks true).take 2).all (fun f => (f heldChangeAtLock).1) = true := by decide +kernel
  have hafter : ((blockChecks true).drop 3).all (fun f => (f heldChangeAtLock).1) = true := by decide +kernel
  have hcut : blockChecks true = (blockChecks true).take 2 ++ State.partSetupCheck :: (blockChecks true).drop 3 := rfl
  rw [hcut, List.all_append, List.all_cons, hbefore, heldChangeAtLock_partSetupCheck, hafter]
  rfl

theorem heldChangeAtLock_lockErr : heldChangeAtLock.lockErr true = (0, heldChangeAtLock) :=
  lockErr_pass (by decide +kernel) (by decide +kernel) (by decide +kernel) heldChangeAtLock_blockChecks

theorem heldChangeAtLock_sigVote : heldChangeAtLock.sigVote sameSig sameSig sameSig = .agreed := by decide +kernel

theorem heldChangeAtStart_cycBare : heldChangeAtStart.CycBare where
  tasks := by
    unfold State.NoTasks
    decide +kernel
  stations := by decide +kernel
  forces := by decide +kernel

theorem heldChangeAtLock_operateStart :
    heldChangeAtLock.lockRetire.operateStart = heldChangeAtStart.cycLock.rackRelease.cycOpen.recStart := by
  unfold State.operateStart
  extract_lets +onlyGivenNames unlocked pwr₀ sig₀ ist₀ entered watched
  have hentered : entered = heldChangeAtStart := by
    unfold entered sig₀ pwr₀ ist₀ unlocked
    decide +kernel
  have hwatched : (watched.crStart false).cbStartUp false = heldChangeAtStart := by
    unfold watched
    rw [hentered]
    decide +kernel
  have hacts : heldChangeAtStart.acts = true := by decide +kernel
  have hblocks : heldChangeAtStart.linksGo.safLock = heldChangeAtStart := by decide +kernel
  rw [hwatched]
  unfold State.actStart
  rw [if_pos hacts, hblocks]

/-- The start of the Operate phase leaves the held change and live time as they were. -/
theorem heldChangeAtLock_started : SameCord heldChangeAtStart heldChangeAtLock.lockRetire.operateStart ∧
    heldChangeAtLock.lockRetire.operateStart.on F.CORD_STAT_REPLAY = false := by
  have hcyc : ControllersOnly heldChangeAtStart heldChangeAtStart.cycLock := cycLock_controllersOnly heldChangeAtStart_cycBare
  rw [heldChangeAtLock_operateStart]
  generalize heldChangeAtStart.cycLock = locked at hcyc
  have hon : ∀ g : Fld, g.lo + g.w ≤ 32 → g.off ≠ F.RB_STAT_RST.off → (∀ p < 256, g.off ≠ Reg.CYC_PART p) →
      locked.rackRelease.on g = heldChangeAtStart.on g := fun g hg hrack hctl =>
    congrArg (· == 1) ((rackRelease_rd locked hrack).trans (hcyc.rd hg hctl))
  have hidle : locked.rackRelease.on F.CYC_STAT_IDLE = false :=
    (hon _ (by decide) (by decide) (by decide +kernel)).trans (by decide +kernel)
  have hrecorder : locked.rackRelease.on F.REC_CFG_EN = false :=
    (hon _ (by decide) (by decide) (by decide +kernel)).trans (by decide +kernel)
  have hlive : locked.rackRelease.on F.CORD_STAT_REPLAY = false :=
    (hon _ (by decide) (by decide) (by decide +kernel)).trans (by decide +kernel)
  have htasks : locked.rackRelease.NoTasks := rackRelease_noTasks (hcyc.cycBare heldChangeAtStart_cycBare).tasks
  have hsame : SameCord heldChangeAtStart locked.rackRelease := sameCord_rackRelease hcyc.sameCord
  generalize locked.rackRelease = released at hidle hrecorder hlive htasks hsame
  obtain ⟨hrecCord, hrecRegs⟩ := recStart_of_recorder_off hrecorder
  have hrecLive : released.recStart.on F.CORD_STAT_REPLAY = released.on F.CORD_STAT_REPLAY := by
    unfold State.on
    rw [rd_regs, rd_regs, hrecRegs]
  rw [cycOpen_of_noTasks htasks hidle]
  exact ⟨hsame.same hrecCord.phase hrecCord.lanes hrecCord.cord, hrecLive.trans hlive⟩

theorem heldChangeAtLock_log (ns : Nat) : (heldChangeAtLock.cordZero ns).cord.log ≠ [] := by
  obtain ⟨hsame, hlive⟩ := heldChangeAtLock_started
  generalize hstart : heldChangeAtLock.lockRetire.operateStart = started at hsame hlive
  have hop : started.operate = true := by
    unfold State.operate
    rw [hsame.phase]
    rfl
  have hon : started.lanes.on = true := by
    rw [hsame.lanes]
    rfl
  have hrep : started.cord.replay = [] := by
    rw [hsame.cord]
    rfl
  have hheld : started.cord.heldSrc = [(0, true)] := by
    rw [hsame.cord]
    rfl
  exact cordZero_logs_held ns hstart hop hon hlive hrep hheld

/-- Refutes O12: a change of an interrupt source that is held at the fabric when SETUP_LOCK's checks pass is delivered at the seal
of Cord 0, and its SRC record stands in the input log that the clause about agreeing signatures says is empty. The clause wants
the premise that no change is held. -/
theorem not_setupRegistersAndLock : ¬ Obligations.SetupRegistersAndLock := by
  unfold Obligations.SetupRegistersAndLock
  rintro ⟨-, -, -, -, -, -, -, -, -, -, -, -, hagreed, -⟩
  have hphase : heldChangeAtLock.phase = Phase.locking := rfl
  have hsafe : heldChangeAtLock.rd F.LANE_STAT_SAFE = 0 := by decide +kernel
  have hnotSafe : heldChangeAtLock.safe = false := by
    unfold State.safe State.on
    rw [hsafe]
    rfl
  have hpass : (heldChangeAtLock.lockErr true).1 = 0 := by rw [heldChangeAtLock_lockErr]
  obtain ⟨t, hexec, -, -, -, -, -, -, -, -, -, hlog, -⟩ :=
    hagreed sameSig sameSig sameSig 0 heldChangeAtLock hphase hsafe hpass heldChangeAtLock_sigVote
  rw [exec_setupLockChecksEnd,
    setupLockChecksEnd_agreed 0 hphase hnotSafe heldChangeAtLock_lockErr heldChangeAtLock_sigVote] at hexec
  have ht : heldChangeAtLock.cordZero 0 = t := Host.Outcome.next.inj hexec
  exact heldChangeAtLock_log 0 (ht ▸ hlog)
end Machine
end Sys2Proof
end

section
/-!
PROOFS. O58, canonical form: Keeps of every command and of every part of a clock gives the two forms that State.canonical names.
-/

namespace Sys2Proof
namespace Machine

theorem canonical_iff (s : State) : s.canonical = true ↔ Memory.wf s.mem = true ∧ Sparse.wf regReset s.regs = true := by
  unfold State.canonical
  exact Bool.and_eq_true_iff

theorem Keeps.canonical {s t : State} (h : Keeps s t) (hs : s.canonical = true) : t.canonical = true := by
  obtain ⟨hmem, hregs⟩ := (canonical_iff s).mp hs
  exact (canonical_iff t).mpr ⟨h.mem hmem, h.regs hregs⟩

theorem canonical_congr {s t : State} (hm : t.mem = s.mem) (hr : t.regs = s.regs) : t.canonical = s.canonical := by
  unfold State.canonical
  rw [hm, hr]

/-- A clock keeps the canonical form: TB_RAW and the RTC count outside memory and registers, and the other two parts are operations
of the blocks. -/
theorem tick_canonical {s : State} (hs : s.canonical = true) : s.tick.canonical = true := by
  have hraw : s.tickRaw.canonical = true := (canonical_congr (tickRaw_mem s) (tickRaw_regs s)).trans hs
  have hfld : s.tickRaw.tickFld.canonical = true := (keeps_State_tickFld (.refl _)).canonical hraw
  have hrtc : s.tickRaw.tickFld.tickRtc.canonical = true := (canonical_congr (tickRtc_mem _) (tickRtc_regs _)).trans hfld
  exact (keeps_State_pairTick (.refl _)).canonical hrtc

theorem exec_canonical {c : Instr} {s t : State} (hs : s.canonical = true) (e : exec c s = .next t) : t.canonical = true :=
  (keeps_exec (.refl s) e).canonical hs

/-- What a step is: a clock where no command waits, else the first command on the rest of the queue. -/
theorem step_cases {s t : State} (e : step s = .next t) :
    (s.pending = [] ∧ t = s.tick) ∨ ∃ c q, s.pending = c :: q ∧ exec c (s.withQueue q) = .next t := by
  unfold step at e
  split at e
  next hq => exact .inl ⟨hq, (Host.Outcome.next.inj e).symm⟩
  next c q hq => exact .inr ⟨c, q, hq, e⟩

/-- Settles O58: a step is a clock or one command, and each keeps the canonical form. -/
theorem stepKeepsCanonicalForm : Obligations.StepKeepsCanonicalForm := by
  unfold Obligations.StepKeepsCanonicalForm
  intro s t hs e
  rcases step_cases e with ⟨-, rfl⟩ | ⟨c, q, -, hexec⟩
  · exact tick_canonical hs
  · exact exec_canonical (s := s.withQueue q) hs hexec

end Machine
end Sys2Proof
end

section
/-!
PROOFS. O59, the blocks beside the lane complex: each of their commands has its lemma under Laws/Calm; here they meet in one case
split over the commands, and Calm gives what sameCore names.
-/

namespace Sys2Proof
namespace Machine

theorem Calm.sameCore {s t : State} (h : Calm s t) : sameCore s t := ⟨h.phase, h.harts, h.plic, h.tb, h.pwr⟩

/-- Every command of the blocks leaves the core alone. The commands that are not theirs fail the premise. -/
theorem calm_exec_of_blockCmd {s t u : State} {c : Instr} (hb : blockCmd c = true) (h : Calm s t) (e : exec c t = .next u) :
    Calm s u := by
  cases c with
  | feedAbsent _ _ => exact calm_execFeedAbsent h e
  | holdupLevelChange _ => exact calm_execHoldupLevelChange h e
  | strapSample _ => exact calm_execStrapSample h e
  | mpxWdt _ _ => exact calm_execMpxWdt h e
  | lanePllLock => exact calm_execLanePllLock h e
  | laneLbistEnd _ _ => exact calm_execLaneLbistEnd h e
  | safeStateEntry _ => exact calm_execSafeStateEntry h e
  | laneSafe _ _ => exact calm_execLaneSafe h e
  | laneEccClr _ _ => exact calm_execLaneEccClr h e
  | cordPeriodExpiry => exact calm_execCordPeriodExpiry h e
  | replayTimeout => exact calm_execReplayTimeout h e
  | cordClr _ _ => exact calm_execCordClr h e
  | fluePairNoack => exact calm_execFluePairNoack h e
  | flueDestStall _ => exact calm_execFlueDestStall h e
  | flueClr _ _ => exact calm_execFlueClr h e
  | engineSlotStart _ => exact calm_execEngineSlotStart h e
  | ringHalted _ => exact calm_execRingHalted h e
  | nop _ => exact calm_execNop h e
  | handleQuery _ => exact calm_execHandleQuery h e
  | ringCtxRead => exact calm_execRingCtxRead h e
  | ringCtxWrite => exact calm_execRingCtxWrite h e
  | lockAcquire _ _ => exact calm_execLockAcquire h e
  | lockRelease _ _ _ => exact calm_execLockRelease h e
  | partAbandon _ _ => exact calm_execPartAbandon h e
  | partMonClr _ _ => exact calm_execPartMonClr h e
  | tbPllLost => exact calm_execTbPllLost h e
  | ptoPulseEnd _ => exact calm_execPtoPulseEnd h e
  | crMasterRx _ _ _ _ => exact calm_execCrMasterRx h e
  | crMemberRx _ _ _ _ => exact calm_execCrMemberRx h e
  | crReturnTimeout _ => exact calm_execCrReturnTimeout h e
  | crMemberCycleTimeout _ => exact calm_execCrMemberCycleTimeout h e
  | crAcycRx _ _ _ _ => exact calm_execCrAcycRx h e
  | crAcycForward _ _ => exact calm_execCrAcycForward h e
  | crTx _ => exact calm_execCrTx h e
  | crTxExpiry _ => exact calm_execCrTxExpiry h e
  | crRxPost _ => exact calm_execCrRxPost h e
  | crStatus _ => exact calm_execCrStatus h e
  | crLinkChange _ _ => exact calm_execCrLinkChange h e
  | crClr _ _ _ => exact calm_execCrClr h e
  | cbSyncRx _ _ _ => exact calm_execCbSyncRx h e
  | cbSyncMissed => exact calm_execCbSyncMissed h e
  | cbRelay _ _ _ => exact calm_execCbRelay h e
  | cbRelayBuffered _ => exact calm_execCbRelayBuffered h e
  | cbDataRx _ _ _ => exact calm_execCbDataRx h e
  | cbRawRx _ _ _ => exact calm_execCbRawRx h e
  | cbImageFreeze _ => exact calm_execCbImageFreeze h e
  | cbTx _ => exact calm_execCbTx h e
  | cbTxExpiry _ => exact calm_execCbTxExpiry h e
  | cbRxPost _ => exact calm_execCbRxPost h e
  | cbSchedLoad _ => exact calm_execCbSchedLoad h e
  | cbSchedLoadDone => exact calm_execCbSchedLoadDone h e
  | cbAnnounce _ => exact calm_execCbAnnounce h e
  | cbStatus _ => exact calm_execCbStatus h e
  | cbLinkChange _ _ => exact calm_execCbLinkChange h e
  | cbBankDataWrite _ _ => exact calm_execCbBankDataWrite h e
  | cbClr _ _ => exact calm_execCbClr h e
  | sigPublish => exact calm_execSigPublish h e
  | sigSnapshot => exact calm_execSigSnapshot h e
  | sigForce => exact calm_execSigForce h e
  | sigUnforce => exact calm_execSigUnforce h e
  | sigWatch => exact calm_execSigWatch h e
  | sigWatchTimeout _ _ => exact calm_execSigWatchTimeout h e
  | sigBulkLoad => exact calm_execSigBulkLoad h e
  | sigReindex => exact calm_execSigReindex h e
  | sigReindexSwitch => exact calm_execSigReindexSwitch h e
  | sigSubBuild => exact calm_execSigSubBuild h e
  | sigStaleDeadline _ => exact calm_execSigStaleDeadline h e
  | sigClr _ _ => exact calm_execSigClr h e
  | gwGroupCtl => exact calm_execGwGroupCtl h e
  | gwClr _ _ => exact calm_execGwClr h e
  | rbCycleStart _ => exact calm_execRbCycleStart h e
  | rbCycleResponse _ _ => exact calm_execRbCycleResponse h e
  | rbCycleEnd => exact calm_execRbCycleEnd h e
  | rbCycleTimeout => exact calm_execRbCycleTimeout h e
  | rbBusResetEnd => exact calm_execRbBusResetEnd h e
  | rbRstWaitEnd => exact calm_execRbRstWaitEnd h e
  | rbBlockRead => exact calm_execRbBlockRead h e
  | rbBlockWrite => exact calm_execRbBlockWrite h e
  | rbClr _ _ => exact calm_execRbClr h e
  | cycOverrun _ => exact calm_execCycOverrun h e
  | cycRestart => exact calm_execCycRestart h e
  | cycStop => exact calm_execCycStop h e
  | cycForce => exact calm_execCycForce h e
  | cycStatus => exact calm_execCycStatus h e
  | idleWindowEnd => exact calm_execIdleWindowEnd h e
  | cycClr _ _ => exact calm_execCycClr h e
  | fldDownlinkFrame _ => exact calm_execFldDownlinkFrame h e
  | islandFrameApply _ _ => exact calm_execIslandFrameApply h e
  | fldUplinkFrame _ _ => exact calm_execFldUplinkFrame h e
  | fldFrameLost _ _ _ => exact calm_execFldFrameLost h e
  | islandLinkLoss _ => exact calm_execIslandLinkLoss h e
  | diVsChange _ => exact calm_execDiVsChange h e
  | dioShortDetect _ _ _ => exact calm_execDioShortDetect h e
  | dioThermalShutdown _ _ => exact calm_execDioThermalShutdown h e
  | dioThermalCool _ _ => exact calm_execDioThermalCool h e
  | dioRetryTimer _ _ => exact calm_execDioRetryTimer h e
  | dioExtFeed _ _ => exact calm_execDioExtFeed h e
  | dioVdoLow _ => exact calm_execDioVdoLow h e
  | dioGroupOc _ _ => exact calm_execDioGroupOc h e
  | dioGroupTrip _ => exact calm_execDioGroupTrip h e
  | dioOndiagMeasure _ _ _ => exact calm_execDioOndiagMeasure h e
  | dioOffdiagCheck _ _ _ => exact calm_execDioOffdiagCheck h e
  | pwmPeriodStart _ _ => exact calm_execPwmPeriodStart h e
  | pwmRampTick => exact calm_execPwmRampTick h e
  | fldWrite => exact calm_execFldWrite h e
  | fldSetFunc => exact calm_execFldSetFunc h e
  | fldRearm => exact calm_execFldRearm h e
  | fldRead => exact calm_execFldRead h e
  | fldLinkRestart => exact calm_execFldLinkRestart h e
  | fldClr _ _ => exact calm_execFldClr h e
  | aiResult _ _ => exact calm_execAiResult h e
  | aiReadbackWindow _ _ _ _ _ => exact calm_execAiReadbackWindow h e
  | aiOpenLoop _ _ => exact calm_execAiOpenLoop h e
  | aiCompliance _ _ => exact calm_execAiCompliance h e
  | aiVlpLow _ _ => exact calm_execAiVlpLow h e
  | aiSupLimit _ _ => exact calm_execAiSupLimit h e
  | aiParkWindow _ _ => exact calm_execAiParkWindow h e
  | fldAiSync => exact calm_execFldAiSync h e
  | fldAiCapture => exact calm_execFldAiCapture h e
  | fldFskXfer => exact calm_execFldFskXfer h e
  | fskTxEnd _ => exact calm_execFskTxEnd h e
  | fskCarrierDetect _ => exact calm_execFskCarrierDetect h e
  | fskCharRx _ _ _ _ => exact calm_execFskCharRx h e
  | fskRxEnd _ _ => exact calm_execFskRxEnd h e
  | fskRxTimeout _ => exact calm_execFskRxTimeout h e
  | fldAiSyncStatClr _ _ => exact calm_execFldAiSyncStatClr h e
  | safEvaluation _ => exact calm_execSafEvaluation h e
  | tpsPulseStart _ => exact calm_execTpsPulseStart h e
  | tpsPulseEnd _ _ => exact calm_execTpsPulseEnd h e
  | tpCheckEnd _ _ => exact calm_execTpCheckEnd h e
  | tpsOverload _ _ => exact calm_execTpsOverload h e
  | safInFiltExpiry _ _ => exact calm_execSafInFiltExpiry h e
  | safDiscrepancy _ => exact calm_execSafDiscrepancy h e
  | safFeedbackTimeout _ _ => exact calm_execSafFeedbackTimeout h e
  | safDegExpiry _ => exact calm_execSafDegExpiry h e
  | safReset => exact calm_execSafReset h e
  | safStatus => exact calm_execSafStatus h e
  | safClr _ _ => exact calm_execSafClr h e
  | pairJoin _ _ => exact calm_execPairJoin h e
  | pairJoinTimeout => exact calm_execPairJoinTimeout h e
  | pairLinkLane _ _ => exact calm_execPairLinkLane h e
  | pairHeartbeatTx => exact calm_execPairHeartbeatTx h e
  | pairCloseAckRx _ => exact calm_execPairCloseAckRx h e
  | pairDiscardRx => exact calm_execPairDiscardRx h e
  | pairCopyRelay _ _ _ _ => exact calm_execPairCopyRelay h e
  | pairSwitch => exact calm_execPairSwitch h e
  | pairSwitchRequestRx _ => exact calm_execPairSwitchRequestRx h e
  | pairReadyRx => exact calm_execPairReadyRx h e
  | pairSwitchTimeout => exact calm_execPairSwitchTimeout h e
  | pairSwitchHandoverEnd _ => exact calm_execPairSwitchHandoverEnd h e
  | pairRevertTimer => exact calm_execPairRevertTimer h e
  | pairStatus => exact calm_execPairStatus h e
  | pairClr _ _ => exact calm_execPairClr h e
  | recPeriodicSample _ => exact calm_execRecPeriodicSample h e
  | recSampleApply => exact calm_execRecSampleApply h e
  | recFlush => exact calm_execRecFlush h e
  | recNoteCmd _ _ => exact calm_execRecNoteCmd h e
  | recExport => exact calm_execRecExport h e
  | recClear => exact calm_execRecClear h e
  | recClr _ _ => exact calm_execRecClr h e
  | istLbistSelect => exact calm_execIstLbistSelect h e
  | dramScrubRead => exact calm_execDramScrubRead h e
  | istOffpulseEnd => exact calm_execIstOffpulseEnd h e
  | calAgeCheck => exact calm_execCalAgeCheck h e
  | calIslandDone _ => exact calm_execCalIslandDone h e
  | mpLoadWindow _ => exact calm_execMpLoadWindow h e
  | mpTelemetry => exact calm_execMpTelemetry h e
  | mpxL2mCmd _ _ => exact calm_execMpxL2mCmd h e
  | mpxM2lCmd _ _ => exact calm_execMpxM2lCmd h e
  | maFrameRx _ _ => exact calm_execMaFrameRx h e
  | ident _ => exact calm_execIdent h e
  | notes _ _ => exact calm_execNotes h e
  | maintRecExport _ _ _ => exact calm_execMaintRecExport h e
  | unlockReq _ => exact calm_execUnlockReq h e
  | unlock _ _ _ _ => exact calm_execUnlock h e
  | unlockExpiry => exact calm_execUnlockExpiry h e
  | readMem _ _ _ => exact calm_execReadMem h e
  | maintRecClear _ _ _ => exact calm_execMaintRecClear h e
  | fwWrite _ _ _ _ => exact calm_execFwWrite h e
  | fwTrial _ _ => exact calm_execFwTrial h e
  | debugEn _ _ => exact calm_execDebugEn h e
  | consoleCommand _ => exact calm_execConsoleCommand h e
  | istClr _ _ => exact calm_execIstClr h e
  | imgLoadStart _ _ => exact calm_execImgLoadStart h e
  | vsSafLow _ _ _ => exact calm_execVsSafLow h e
  | txFrameEnd _ => exact calm_execTxFrameEnd h e
  | _ => exact absurd hb Bool.false_ne_true

/-- Settles O59, from the lemma of each command that it is calm. -/
theorem blockCommandsSpareTheCore : Obligations.BlockCommandsSpareTheCore := by
  unfold Obligations.BlockCommandsSpareTheCore
  intro c s t hb e
  have hcalm : Calm s t := calm_exec_of_blockCmd hb (.refl s) e
  exact ⟨hcalm.sameCore, hcalm.pending⟩

end Machine
end Sys2Proof
end

section
/-!
PROOFS. O56, the state after reset: no register is listed as changed, so a field reads what the reset table gives.
-/

namespace Sys2Proof
namespace Machine

theorem reset_rd (f : Fld) : State.reset.rd f = bits (regReset f.off).toNat f.lo f.w := rfl

/-- Settles O56: the parts outside registers are the literals of State.reset, and the fields come from the reset table. -/
theorem resetState : Obligations.ResetState := by
  unfold Obligations.ResetState
  refine ⟨rfl, rfl, rfl, rfl, rfl, rfl, rfl, ?_⟩
  simp only [reset_rd]
  decide +kernel

end Machine
end Sys2Proof
end

section
/-!
PROOFS. O13, what a hart executes: refuted. Its clause about a store of the MP says of every pair that the SRAM lists that an
address outside the store still reads the value of the pair. Nothing in its premises says that the list is a finite map: where it
names one address twice with two values, the address cannot read both. No run makes such a list.
-/

namespace Sys2Proof
namespace Machine

/-- The MP is at 0x100, where its SRAM holds `sw x0, 0(x0)`; the SRAM lists address 0x200 twice, with 1 and with 2. -/
def sramListsTwice : State :=
  { State.reset with
    mp := { Mp.start with
      core := { MpCore.start with on := true, pc := 0x100 }
      sram := [(0x100, 0x23), (0x101, 0x20), (0x200, 1), (0x200, 2)] } }

theorem sramListsTwice_holds : mpHolds 0x2023 sramListsTwice := by decide +kernel

/-- The store goes to address 0, and address 0x200 reads the value listed first. -/
theorem sramListsTwice_stored (fm m : Bool) :
    Sparse.get (coreInstruction .mp fm m sramListsTwice).mp.sram 0 0x200 = 1 := by
  have hrun : coreInstruction .mp fm m sramListsTwice = sramListsTwice.mpInstruction := rfl
  rw [hrun]
  decide +kernel

/-- Refutes O13: the MP stores to address 0, and of the two values that the SRAM lists for address 0x200 the second is not read.
The clause wants the premise that the SRAM lists no address twice. -/
theorem not_hartsExecuteInstructions : ¬ Obligations.HartsExecuteInstructions := by
  unfold Obligations.HartsExecuteInstructions
  rintro ⟨-, -, -, -, -, -, -, -, -, -, -, -, -, hstore, -⟩
  obtain ⟨t, hexec, -, hrest, -⟩ :=
    hstore false false 0x2023 0 0 0 0 sramListsTwice sramListsTwice_holds (by decide) (by decide +kernel) (by decide) (by decide)
  have ht : coreInstruction .mp false false sramListsTwice = t := Host.Outcome.next.inj hexec
  have hsecond : (0x200, 2) ∈ sramListsTwice.mp.sram := by decide
  rcases hrest (0x200, 2) hsecond with hin | hread
  · exact absurd hin (by decide)
  · rw [← ht, sramListsTwice_stored] at hread
    exact absurd hread (by decide)

end Machine
end Sys2Proof
end
